-- ==== Sys2Proof/Word.lean ====
section
/-!
DEFINITION. Word.lean: the widths the JX64's registers have, the fields of a register word, and
sparse memories in one canonical form.
-/
namespace Sys2Proof

/-- One byte. -/
abbrev Byte := BitVec 8
/-- One 32-bit register word (23 R825). -/
abbrev Word := BitVec 32
/-- A counter or timebase value, 48 bits (00 R4). -/
abbrev W48 := BitVec 48

/-- Field [hi:lo] of a word, as a number. -/
def fld {n : Nat} (w : BitVec n) (hi lo : Nat) : Nat := w.toNat / 2 ^ lo % 2 ^ (hi - lo + 1)

/-- Bit i of a word. -/
def bit {n : Nat} (w : BitVec n) (i : Nat) : Bool := w.getLsbD i

/-- A Boolean as a one-bit number. -/
def b2n (b : Bool) : Nat := if b then 1 else 0

/-- The word whose fields are given as (value, lowest bit) pairs. -/
def packw (fields : List (Nat × Nat)) : Word :=
  BitVec.ofNat 32 (fields.foldl (fun a f => a + f.1 * 2 ^ f.2) 0)

/-- One bit set in a word of n bits. -/
def oneBit (n i : Nat) : BitVec n := BitVec.ofNat n (2 ^ i)

/-- The low 32 bits of a wide value (00 R4). -/
def lo32 (v : W48) : Word := v.setWidth 32
/-- The high 16 bits of a wide value, in a 32-bit register (00 R4). -/
def hi16 (v : W48) : Word := (v >>> 32).setWidth 32
/-- The wide value of a low word and a high register (00 R4: bits [31:16] of _HI are not used). -/
def wide (hi lo : Word) : W48 := BitVec.ofNat 48 (fld hi 15 0 * 2 ^ 32 + lo.toNat)

/-- One more, up to the largest value of the width: the saturating counters. -/
def satInc {n : Nat} (c : BitVec n) : BitVec n := if c = BitVec.allOnes n then c else c + 1
/-- A number brought into a width, with every larger one held at the largest value. -/
def satOf (n v : Nat) : BitVec n := if v < 2 ^ n then BitVec.ofNat n v else BitVec.allOnes n

/-- `a` is `now` or in the past: not among the 2^47 − 1 values ahead of `now` on the 48-bit circle (01 R22). -/
def reached (now a : W48) : Bool := decide ((now - a).toNat ≤ 2 ^ 47)

/-- A vector with the element at i changed by f. -/
def vset {α : Type} {n : Nat} (v : Vector α n) (i : Fin n) (f : α → α) : Vector α n :=
  v.set i.val (f (v[i.val]'i.isLt)) i.isLt

/-- The element at i. -/
def at_ {α : Type} {n : Nat} (v : Vector α n) (i : Fin n) : α := v[i.val]'i.isLt

/-! ## Sparse memories: (key, value) pairs, keys strictly rising, no value equal to the default -/

/-- What a sparse memory holds at key k; a key not listed holds d. -/
def cellRead {α : Type} (d : α) : List (Nat × α) → Nat → α
  | [], _ => d
  | (a, v) :: m, k => if a = k then v else cellRead d m k

/-- Put v at key k, keeping the keys rising (no removal of defaults). -/
def cellInsert {α : Type} (k : Nat) (v : α) : List (Nat × α) → List (Nat × α)
  | [] => [(k, v)]
  | (a, w) :: m =>
    if k < a then (k, v) :: (a, w) :: m
    else if k = a then (k, v) :: m
    else (a, w) :: cellInsert k v m

/-- Remove key k. -/
def cellErase {α : Type} (k : Nat) : List (Nat × α) → List (Nat × α)
  | [] => []
  | (a, w) :: m => if k = a then m else (a, w) :: cellErase k m

/-- Write v at key k, keeping the canonical form: the default is never listed. -/
def cellWrite {α : Type} [DecidableEq α] (d : α) (m : List (Nat × α)) (k : Nat) (v : α) :
    List (Nat × α) :=
  if v = d then cellErase k m else cellInsert k v m

/-- The canonical form of a sparse memory. -/
def cellWf {α : Type} [DecidableEq α] (d : α) : List (Nat × α) → Bool
  | [] => true
  | [(_, v)] => decide (v ≠ d)
  | (a, v) :: (b, w) :: m => decide (a < b) && decide (v ≠ d) && cellWf d ((b, w) :: m)

/-- Write a run of values at rising keys. -/
def cellWriteList {α : Type} [DecidableEq α] (d : α) (m : List (Nat × α)) (k : Nat) :
    List α → List (Nat × α)
  | [] => m
  | v :: vs => cellWriteList d (cellWrite d m k v) (k + 1) vs

/-- The run of n values from key k. -/
def cellReadList {α : Type} (d : α) (m : List (Nat × α)) (k : Nat) : Nat → List α
  | 0 => []
  | n + 1 => cellRead d m k :: cellReadList d m (k + 1) n

/-- The number a run of bytes spells, least significant first (00 R5). -/
def leNat : List Byte → Nat
  | [] => 0
  | b :: bs => b.toNat + 256 * leNat bs

/-- The n bytes of a number, least significant first (00 R5). -/
def leBytes : Nat → Nat → List Byte
  | 0, _ => []
  | n + 1, v => BitVec.ofNat 8 v :: leBytes n (v / 256)

/-- The four bytes of a word, least significant first. -/
def wordBytes (w : Word) : List Byte := leBytes 4 w.toNat
/-- The word of a run of bytes, least significant first. -/
def bytesWord (bs : List Byte) : Word := BitVec.ofNat 32 (leNat bs)

/-- A list cut or filled with d to exactly n elements. -/
def padTo {α : Type} (d : α) : Nat → List α → List α
  | 0, _ => []
  | n + 1, [] => d :: padTo d n []
  | n + 1, x :: xs => x :: padTo d n xs

/-- Fold a list of indices over a state. -/
def foldFin {σ : Type} (n : Nat) (f : Fin n → σ → σ) (s : σ) : σ :=
  (List.finRange n).foldl (fun s i => f i s) s

end Sys2Proof
end

