-- ==== Sys2Proof/Syntax.lean ====
section
/-!
DEFINITION. Syntax.lean: the commands of the block, one constructor per row of spec/opcode_table.json.
-/
namespace Sys2Proof

/-- A pad's level: driven low, driven high, or released (05 R177). -/
inductive Level | low | high | released
  deriving DecidableEq, Repr

/-- Where a register access comes from; EQ_ARG keeps one staging value for each (05 R172). -/
inductive Path | hp | link (l : Fin 4) | svc | sup | me
  deriving DecidableEq, Repr

/-- A fault inside the device whose mechanism has no command of its own (19 Table 19.1, codes 0x04–0x16). -/
inductive Internal
  /-- An uncorrectable calendar word, and supervisor lockstep or memory. -/
  | calendar | supervisor
  | groveCompare (g : Fin 8)
  | domainCompare (d : Fin 3)
  /-- An uncorrectable connection memory word of an egress port. -/
  | tsiWord (l : Fin 4)
  /-- An uncorrectable Seating Chart record, or event of the client. -/
  | clientRecord (c : Fin 256)
  | clientEvent (c : Fin 256)
  /-- INTC and HP compare. -/
  | intcCompare | hpCompare
  deriving DecidableEq, Repr

/-- The request a bank port grants (11 Table 11.2). Sizes are 0 byte, 1 half-word, 2 word. -/
inductive BankReq
  /-- A read, or a write, by a processor or the host port. -/
  | read (addr : BitVec 20) (size : Fin 3)
  | write (addr : BitVec 20) (size : Fin 3) (data : Word)
  /-- The background tester's next access; `fail`: a march read that differs. -/
  | tester (bank : Fin 8) (fail : Bool)
  /-- The oldest waiting copy of an ADC's result port. -/
  | adc (a : Fin 2)
  /-- The oldest corrected word of a bank. -/
  | writeBack (bank : Fin 8)
  deriving DecidableEq, Repr


/-- The header of a host-port or node transaction without its OP (13 Table 13.2): P, INC, LEN − 1, CLIENT, ADDR. -/
structure Header where
  p : Bool
  inc : Bool
  len : Fin 16
  client : Fin 256
  addr : BitVec 24
  deriving DecidableEq, Repr

/-- How far a transaction had come when it was aborted (13 R511): before anything took effect, after a NOP's header, after
`words` words of a READ (`missed`: places of words the bank port did not grant in time), or past a WRITE's decision point. -/
inductive HpPart
  | early
  | nop (h : Header)
  | read (h : Header) (words : Fin 17) (missed : List (Fin 16))
  | write (h : Header) (data : List Word) (hcrc : Byte)
  deriving DecidableEq, Repr

/-- Why a service frame is discarded or not understood (20 R726, Table 20.3 BADTYPE). -/
inductive BadFrame | crc | length | type (t tag : Byte)
  deriving DecidableEq, Repr
/-- A command: one constructor per row of the table of operations and events. -/
inductive Instr
  | vioFall
  | vioRise
  | vddaFall
  | canopyPor
  | pinReset (also : Fin 9)
  | startSequence (tApply : Word) (tLock : Word) (stuck : Bool)
  | pllLocked
  | pllLockTimeout
  | clkholdRetry
  | glbLockWrite (client : Fin 256) (lock : Bool)
  | lockDeadlineExpiry
  | pwrCmdPark (key : BitVec 16)
  | pwrCmdOff (key : BitVec 16)
  | pwrCmdReset (key : BitVec 16) (also : Fin 9)
  | pwrCmdClkrec (key : BitVec 16)
  | parkEntryComplete
  | wakeLatch (src : BitVec 10)
  | parkExitPllLock (ticks : Word)
  | reapplyComplete
  | wakeFromOff
  | parkWatchEdge (k : Fin 4) (v : Nat)
  | parkWatchWindow
  | rtcSecondTick
  | rtcSecWrite (w : Word)
  | tamperEvent (n : Fin 2)
  | clockFault (sub : Fin 32768)
  | clockRecovery
  | lseFail
  | lseRecover
  | groveTick (g : Fin 8)
  | edgeTimeFire (n : Fin 64)
  | edgeAngleFire (n : Fin 64)
  | grvCmdStart (g : Fin 8)
  | grvCmdStop (g : Fin 8)
  | grvPscWrite (g : Fin 8) (w : Word)
  | chCmdGo (n : Fin 64)
  | chCmdStop (n : Fin 64)
  | chCmdSwcap (n : Fin 64)
  | chCmdOvrclr (n : Fin 64)
  | chCtlWrite (n : Fin 64) (w : Word)
  | reloadLoWrite (n : Fin 64) (w : Word)
  | reloadHiWrite (n : Fin 64) (w : Word)
  | matLoWrite (n : Fin 64) (k : Fin 4) (w : Word)
  | matHiWrite (n : Fin 64) (k : Fin 4) (w : Word)
  | cntWrite (n : Fin 64) (hi : Bool) (w : Word)
  | cntRead (n : Fin 64) (hi : Bool)
  | cntReadCompat (n : Fin 64) (hi : Bool)
  | captureEdge (n : Fin 64) (level : Bool)
  | capLoRead (n : Fin 64)
  | glbTbRead (hi : Bool)
  | tbSnap
  | eqPush (p : Path) (n : Fin 64) (w : Word)
  | eqShd (p : Path) (n : Fin 64) (w : Word)
  | grvUpdArm (g : Fin 8)
  | chPairWrite (n : Fin 64) (w : Word)
  | chOcfgWrite (n : Fin 64) (w : Word)
  | chOcmdClr (n : Fin 64)
  | chOcmdRel (n : Fin 64)
  | chOcmdRelSync (n : Fin 64)
  | chOcmdFlush (n : Fin 64)
  | grvClrcmdClr (g : Fin 8)
  | grvClrcmdRel (g : Fin 8)
  | grvClrcmdRelTrip (g : Fin 8)
  | readbackMismatch (n : Fin 64)
  | grvRdmGo (g : Fin 8)
  | adInputEdge (d : Fin 3) (k : Fin 3) (level : Bool)
  | adWindowClose (d : Fin 3)
  | angleTrigger (d : Fin 3) (k : Fin 4)
  | adCtlEnable (d : Fin 3) (w : Word)
  | adCmdLose (d : Fin 3)
  | adCmdDrop (d : Fin 3)
  | plCtlWrite (k : Fin 2) (w : Word)
  | plTripClear (k : Fin 2)
  | domainSweep (d : Fin 3)
  | calendarTimeDue
  | calendarAngleDue (d : Fin 3)
  | dispatch (flips : List (Fin 8192 × Fin 40))
  | calendarInsert (c : Fin 256) (h : Fin 1024) (w : Word)
  | calendarCancel (c : Fin 256) (h : Fin 1024)
  | meSpillWrite (w : Word)
  | meGWrite (k : Fin 8) (w : Word)
  | add (rd : Fin 16) (ra : Fin 16) (rb : Fin 16)
  | adc (rd : Fin 16) (ra : Fin 16) (rb : Fin 16)
  | sub (rd : Fin 16) (ra : Fin 16) (rb : Fin 16)
  | sbc (rd : Fin 16) (ra : Fin 16) (rb : Fin 16)
  | and (rd : Fin 16) (ra : Fin 16) (rb : Fin 16)
  | or (rd : Fin 16) (ra : Fin 16) (rb : Fin 16)
  | xor (rd : Fin 16) (ra : Fin 16) (rb : Fin 16)
  | andn (rd : Fin 16) (ra : Fin 16) (rb : Fin 16)
  | shl (rd : Fin 16) (ra : Fin 16) (rb : Fin 16)
  | shr (rd : Fin 16) (ra : Fin 16) (rb : Fin 16)
  | sar (rd : Fin 16) (ra : Fin 16) (rb : Fin 16)
  | mul (rd : Fin 16) (ra : Fin 16) (rb : Fin 16)
  | mulhu (rd : Fin 16) (ra : Fin 16) (rb : Fin 16)
  | divu (rd : Fin 16) (ra : Fin 16) (rb : Fin 16)
  | remu (rd : Fin 16) (ra : Fin 16) (rb : Fin 16)
  | minu (rd : Fin 16) (ra : Fin 16) (rb : Fin 16)
  | maxu (rd : Fin 16) (ra : Fin 16) (rb : Fin 16)
  | cmp (ra : Fin 16) (rb : Fin 16)
  | tst (ra : Fin 16) (rb : Fin 16)
  | mov (rd : Fin 16) (ra : Fin 16)
  | addi (rd : Fin 16) (ra : Fin 16) (imm : BitVec 18)
  | andi (rd : Fin 16) (ra : Fin 16) (imm : BitVec 18)
  | ori (rd : Fin 16) (ra : Fin 16) (imm : BitVec 18)
  | xori (rd : Fin 16) (ra : Fin 16) (imm : BitVec 18)
  | shli (rd : Fin 16) (ra : Fin 16) (n : Fin 32)
  | shri (rd : Fin 16) (ra : Fin 16) (n : Fin 32)
  | sari (rd : Fin 16) (ra : Fin 16) (n : Fin 32)
  | cmpi (ra : Fin 16) (imm : BitVec 18)
  | tsti (ra : Fin 16) (imm : BitVec 18)
  | movi (rd : Fin 16) (imm : BitVec 18)
  | movhi (rd : Fin 16) (imm : BitVec 16)
  | ldw (rd : Fin 16) (ra : Fin 16) (imm : BitVec 18)
  | ldh (rd : Fin 16) (ra : Fin 16) (imm : BitVec 18)
  | ldhu (rd : Fin 16) (ra : Fin 16) (imm : BitVec 18)
  | ldb (rd : Fin 16) (ra : Fin 16) (imm : BitVec 18)
  | ldbu (rd : Fin 16) (ra : Fin 16) (imm : BitVec 18)
  | stw (rd : Fin 16) (ra : Fin 16) (imm : BitVec 18)
  | sth (rd : Fin 16) (ra : Fin 16) (imm : BitVec 18)
  | stb (rd : Fin 16) (ra : Fin 16) (imm : BitVec 18)
  | xadd (g : Bool) (rd : Fin 16) (ra : Fin 16) (rb : Fin 16)
  | xchg (g : Bool) (rd : Fin 16) (ra : Fin 16) (rb : Fin 16)
  | xset (g : Bool) (rd : Fin 16) (ra : Fin 16) (rb : Fin 16)
  | xclr (g : Bool) (rd : Fin 16) (ra : Fin 16) (rb : Fin 16)
  | cas (g : Bool) (rd : Fin 16) (ra : Fin 16) (rb : Fin 16)
  | b (cond : Fin 16) (target : BitVec 13)
  | call (target : BitVec 13)
  | jr (ra : Fin 16)
  | ret
  | yield
  | nop
  | sched (rd : Fin 16) (ra : Fin 16)
  | cancel (rd : Fin 16) (ra : Fin 16)
  | schedResult
  | edge (rc : Fin 16) (ra : Fin 16) (rb : Fin 16) (shd : Bool) (chr : Bool) (ch : Fin 64)
  | snap (rd : Fin 16) (re : Fin 16) (sel : BitVec 7)
  | att (rd : Fin 16) (re : Fin 16) (ra : Fin 16) (dom : BitVec 2)
  | signal (n : Fin 8)
  | post (ra : Fin 16) (rb : Fin 16) (client : Fin 256)
  | trap (code : BitVec 16)
  | illegalInstruction
  | requestRelease
  | watchdogTrap
  | lockstepMismatch
  | psTick (e : Fin 8) (flips : List (Fin 48 × Fin 32))
  | psEnable (e : Fin 8)
  | psDisable (e : Fin 8)
  | psCmdHalt (e : Fin 8)
  | psCmdGo (e : Fin 8)
  | psCmdTxflush (e : Fin 8)
  | psCmdRxflush (e : Fin 8)
  | psTxWrite (p : Path) (e : Fin 8) (w : Word)
  | psRxRead (e : Fin 8)
  | sensOutputChange (n : Fin 16) (v : Nat) (peak : Byte) (trough : Byte)
  | spareVisit (e0 : BitVec 68) (e1 : BitVec 68) (b0 : BitVec 68) (b1 : BitVec 68)
  | itripTrip (n : Fin 6) (vs : List Nat)
  | afeItcmdClear (clr : BitVec 6)
  | adcTrigger (a : Fin 2) (trig : BitVec 3) (idx : BitVec 6)
  | adcResult (a : Fin 2) (code : BitVec 12)
  | adcCmdTrig (a : Fin 2)
  | adcCmdRestart (a : Fin 2)
  | calMeasure (lock : Bool) (step : BitVec 6) (err : Nat)
  | sigCmdMeasure (l : Fin 4)
  | sigCmdEnrol (c : Fin 256) (l : Fin 4) (k : Fin 16)
  | sigCmdAbort
  | sigMeasurementEnd (f : List Byte)
  | sigWindowTimeout
  | sigAutoPeriod
  | healthCheck (dac : List Nat) (adc0 : Option Nat) (adc1 : Option Nat) (vref : Bool) (vdda : Nat) (mon : List Nat)
  | bankAccessGrant (q : BankReq) (flips : Nat)
  | dmaStarve (c : Fin 8)
  | cwBaseWrite (n : Fin 16) (w : Word)
  | cwSizeWrite (n : Fin 16) (w : Word)
  | bgTestRegionStart (b : Fin 8)
  | memTctlWrite (w : Word)
  | memCmdReadmit (b : Fin 8)
  | bankReadmitDone (b : Fin 8) (pass : Bool) (word : Fin 4096)
  | dmaEnable (c : Fin 8) (client : Fin 256)
  | dmaDisable (c : Fin 8)
  | dmaReqPulse (c : Fin 8)
  | dmaBeat (c : Fin 8)
  | intcPend (n : Fin 192)
  | intcPsetWrite (k : Fin 6) (w : Word)
  | intcPclrWrite (k : Fin 6) (w : Word)
  | intcEnableWrite (target : Fin 5) (k : Fin 6) (w : Word)
  | intcClaim (pin : Fin 4)
  | intcComplete (pin : Fin 4) (n : BitVec 8)
  | supEntry
  | supExit
  | hpNop (cs : Fin 2) (h : Header)
  | hpRead (cs : Fin 2) (h : Header) (missed : List (Fin 16))
  | hpWrite (cs : Fin 2) (h : Header) (data : List Word) (hcrc : Byte)
  | hpBadhdr (cs : Fin 2) (op : Fin 4) (h : Header)
  | hpAbort (cs : Fin 2) (part : HpPart)
  | hpCsCollision (cs : Fin 2) (part : HpPart)
  | hpQueueRetire
  | scRecordWrite (sup : Bool) (c : Fin 256) (n : Fin 256) (k : Fin 8) (w : Word)
  | scEnSet (sup : Bool) (c : Fin 256) (n : Fin 256) (w : Word)
  | scEnClear (sup : Bool) (c : Fin 256) (n : Fin 256) (w : Word)
  | scCmdFence (n : Fin 256)
  | scCmdRestore (n : Fin 256)
  | scCmdClrcnt (n : Fin 256)
  | rateToken (c : Fin 256)
  | eventAdmit
  | evPop (c : Fin 256)
  | bufAlloc (c : Fin 256)
  | bufCmdFree (c : Fin 256) (handle : BitVec 16)
  | bufCmdSend (c : Fin 256) (l : Fin 4) (handle : BitVec 16)
  | bufCmdRequest (c : Fin 256) (l : Fin 4) (handle : BitVec 16)
  | requestTimeout (c : Fin 256) (l : Fin 4) (msgid : BitVec 12)
  | localFrameBoundary (parts : List Nat)
  | hlFrameReceived (l : Fin 4) (comma : Bool) (k1 : Bool) (o1 : Option Byte) (bytes : List (Option Byte))
  | mdcFrameReceived (l : Fin 4) (octets : List Byte) (bad : Bool)
  | mdcTxStart (l : Fin 4)
  | mdcRetry (l : Fin 4)
  | mdcGiveup (l : Fin 4)
  | nodeXchNop (l : Fin 4) (slot : Fin 256) (op3 : Bool) (h : Header) (sub : Bool)
  | nodeXchRead (l : Fin 4) (slot : Fin 256) (h : Header) (missed : List (Fin 16)) (sub : Bool)
  | nodeXchWrite (l : Fin 4) (slot : Fin 256) (h : Header) (data : List Word) (hcrc : Byte) (sub : Bool)
  | hlEnable (l : Fin 4)
  | hlCmdResync (l : Fin 4)
  | tsiCmdCopy (c : Fin 256)
  | tsiCopyDone
  | tsiSwapReq (c : Fin 256) (admMask : BitVec 4)
  | tsiSwapCancel (c : Fin 256)
  | tsiEntryWrite (c : Fin 256) (k : Fin 2560) (w : Word)
  | pmSecond
  | pmBinPlace
  | runTimeMs
  | pmSelWrite (w : Word)
  | pmWinReady
  | rsRecordWrite (pages : Nat) (retries : Nat) (fails : Nat) (badErase : Bool)
  | rsScan (bad : List Nat)
  | smbXferWrite (k : Fin 2) (c : Fin 256) (w : Word)
  | smbTransferEnd (k : Fin 2) (code : Fin 16) (data : List Byte)
  | smbClockLowTimeout (k : Fin 2)
  | smbCmdAbort (k : Fin 2)
  | smbCmdClrstuck (k : Fin 2)
  | smbEnable (k : Fin 2)
  | smbBusCheck (k : Fin 2) (sda : Bool)
  | smbBusClear (k : Fin 2) (freed : Bool)
  | smbStuckRetry (k : Fin 2)
  | packSwapRead
  | smbPcmdReread
  | packRetry
  | packAuthWait
  | packPoll
  | mspRxFrame (m : Fin 2)
  | rollCallSlot (answer : Option Bool)
  | fltRecord (f : Option Internal)
  | censusMismatch
  | supRestart
  | fltCmdFence (kind : Fin 16) (index : Fin 256)
  | fltCmdReadmit (kind : Fin 16) (index : Fin 256)
  | fltCmdClrlog
  | fltLogfullClear
  | svcHello (tag : Byte)
  | svcPass (tag : Byte) (p : List Byte)
  | svcRead (tag : Byte) (p : List Byte)
  | svcWrite (tag : Byte) (p : List Byte)
  | svcClose (tag : Byte) (p : List Byte)
  | svcReset (tag : Byte) (p : List Byte)
  | svcResetExec (also : Fin 9)
  | svcBadFrame (b : BadFrame)
  | svcByteTimeout
  | svcSessionExpire
  | svcIdleTimeout
  | updDataWrite (c : Fin 256) (w : Word)
  | updBegin (c : Fin 256)
  | updBlock (c : Fin 256) (n : Fin 1024)
  | updBlockProgrammed (ok : Bool)
  | updEnd (c : Fin 256)
  | updVerifyDone
  | updActivate (c : Fin 256)
  | updAbort (c : Fin 256)
  | updConfirm
  | updConfirmTimeout
  | updAgentStart
  | nodeResponseTimeout
  | nodeBootTimeout
  | tapExtest (cells : BitVec 266)
  | tapSamplePreload (cells : BitVec 266)
  | tapClamp
  | tapHighz
  | tapBypass
  | tapReset (rise : Bool)
  | pwrStateRead
  | ttLatRead
  | dmaRemRead (c : Fin 8)
  | hpCntRead (k : Fin 3)
  | hlCntRead (l : Fin 4) (k : Fin 4)
  | smbCntRead (k : Fin 2)
  | mspCntRead (m : Fin 2) (k : Fin 2)
  | svcCntRead
  | rsCntRead
  | registerWrite (p : Path) (c : Fin 256) (a : BitVec 20) (w : Word)
  | hlCommaDetect (l : Fin 4) (k285 : Bool) (complement : Bool)
  | hlRawLosChange (l : Fin 4) (los : Bool)
  | itripPairDisagree (n : Fin 6) (differ : Bool)
  | mspRxByte (m : Fin 2) (b : Byte) (ferr : Bool)
  | mspTxByte (m : Fin 2) (cts : Bool)
  deriving DecidableEq, Repr

end Sys2Proof
end

