-- ==== Sys2Proof/Decode.lean ====
section
/-!
DEFINITION. Decode.lean: the commands that words spell. No row of spec/opcode_table.json gives bits, so no word spells one:
commands come from outside as commands. The microengine's own words are decoded by meDecode (Machine/Operands.lean).
-/
namespace Sys2Proof

/-- The command a word spells by the table's bits: none. (DESIGN CHOICE, log 3.) -/
def decodeTableWord (_nbits _w : Nat) : Option Instr := none

end Sys2Proof
end

