-- ==== Sys2Proof/Config.lean ====
section
/-!
DEFINITION. Config.lean: what the spec leaves to the implementation or to chance, as constants without a body.
No proof can see a value of them.
-/
namespace Sys2Proof.Config

/-- A value the spec leaves open; the step applies it to a counter of State for a fresh value each time. (DESIGN CHOICE, log 8.) -/
opaque freeValue : Nat → BitVec 64

end Sys2Proof.Config
end

