-- ==== Sys2Proof/Machine/State.lean ====
section
/-!
DEFINITION. Machine/State.lean: the state of the JX64 block, as plain data, and its value after reset.
Default values of the fields are their reset values; a register word is held as the bits the spec implements.
-/
namespace Sys2Proof.Machine

/-- The flags of a block with interrupts and service requests: CH_FLAG, AD_FLAG, PS_FLAG, ADC_FLAG, TSI_FLAG
with their enables, service register and cause set (04 R139–R143, Tables 4.3, 4.4; 06 R249). -/
structure EventRegs where
  /-- The flags (W1C). -/
  flag : BitVec 16 := 0
  /-- Service-request enables. -/
  sen : BitVec 16 := 0
  /-- Interrupt enables. -/
  ien : BitVec 16 := 0
  /-- The cause set (04 R140, R141): not a register. -/
  cause : BitVec 16 := 0
  /-- Program entry point, word 0–8,191. -/
  entry : BitVec 13 := 0
  /-- Request priority, 0 most urgent. -/
  pri : BitVec 3 := 0
  /-- A service request is pending. -/
  pend : Bool := false
  deriving DecidableEq, Repr

/-- One match register with its staging and pending values (04 R137, Table 4.5). -/
structure MatchReg where
  value : W48 := 0
  stage : Word := 0
  pending : Option W48 := none
  deriving DecidableEq, Repr

/-- The shadow of an edge-queue slot (05 R182). -/
structure Shadow where
  slope : BitVec 2
  level : Level
  tap : BitVec 5
  tgt : W48
  deriving DecidableEq, Repr

/-- One entry of an edge queue, with its physical slot (05 R169, Table 5.1). -/
structure Edge where
  slot : Fin 8
  kind : BitVec 2
  dom : BitVec 2
  slope : BitVec 2
  rearm : Bool
  level : Level
  tap : BitVec 5
  tgt : W48
  shadow : Option Shadow := none
  /-- The target was already past when the entry became the head (05 R175). -/
  late : Bool := false
  deriving DecidableEq, Repr

/-- CH_PAIR (05 Table 5.8, R187–R191). -/
structure Pair where
  forcePend : Bool := false
  forceAct : BitVec 2 := 0
  force : BitVec 2 := 0
  mode : Bool := false
  dt : BitVec 10 := 0
  deriving DecidableEq, Repr

/-- The counting half of a channel (04, Tables 4.3–4.5). -/
structure Counter where
  /-- CH_CTL: EN 0, STARTDIR 1, CLKSRC 3:2, RLD_AT 4. -/
  ctl : BitVec 5 := 0
  run : Bool := false
  /-- Current direction: true is down. -/
  down : Bool := false
  /-- A GO waits for its tick (R126). -/
  goPend : Bool := false
  cfgErr : Bool := false
  cnt : W48 := 0
  reload : W48 := 0
  /-- RELOAD_LO staging (R131). -/
  rldStage : Word := 0
  /-- Pending RELOAD (R133). -/
  rldPending : Option W48 := none
  /-- CH_MATCFG: SLOPE 7:0, UPD 11:8. -/
  matcfg : BitVec 12 := 0
  mats : Vector MatchReg 4 := .replicate 4 {}
  /-- Recent counter values, newest first: (TB of the change, value before, direction before); kept for the
  capture's cycle c0 (R144). -/
  hist : List (W48 × W48 × Bool) := []
  deriving DecidableEq, Repr

/-- The capture unit of a channel (04 R144–R149, Table 4.4). -/
structure Capture where
  /-- CH_CAPCFG: SRC 1:0, IDX 5:2, EDGE 7:6, WHAT 8, FILT 12:9. -/
  cfg : BitVec 13 := 0
  /-- The level counted as accepted (R144). -/
  level : Bool := false
  cap : W48 := 0
  /-- The hold register (R149). -/
  hold : BitVec 16 := 0
  dirDown : Bool := false
  sw : Bool := false
  /-- CH_STAT.OVRCNT, saturating. -/
  ovrCnt : BitVec 8 := 0
  deriving DecidableEq, Repr

/-- What a channel's output stage held at the end of one core cycle: the paths to the pin, the links and the pad's readers
are one or two cycles long (05 R180, R193, R197; 09 R368). -/
structure PinSample where
  /-- The channel was in Clearing. -/
  clr : Bool := true
  /-- The level it intended to drive. -/
  level : Level := .released
  outl : Level := .low
  /-- The level at the pad. -/
  pad : Bool := false
  deriving DecidableEq, Repr

/-- The output half of a channel (05, Tables 5.7–5.9). -/
structure Output where
  /-- CH_OCFG: CLR_LVL 1:0, POL 2, INIT 3, DOMAIN 5:4, UWATCH 6, UNDR_CLR 7, GRPUPD 8, RB_EN 9, RB_BLANK 15:10,
  OIE 23:16. -/
  ocfg : BitVec 24 := 2
  /-- CH_OSTAT[31:24]: FULL, EQERR, LATE, BADTGT, UNDR, RDBK, LKDUP, TAP0 from bit 0 up. -/
  ostat : BitVec 8 := 0
  /-- CH_OSTAT.LAST. -/
  last : Fin 8 := 0
  /-- CH_CLR.CAUSE, Table 5.4. -/
  clr : BitVec 11 := 1
  /-- The channel is in Clearing: entered with a cause, from reset on, and left only by R199; CH_STAT.CLEARING shows it.
  (DESIGN CHOICE, log 99.) -/
  inClr : Bool := true
  /-- The fences that hold the channel: bit 0 channel, 1 grove, 2 owning client, 3 microengine (Table 5.4 FENCE). -/
  fences : BitVec 4 := 0
  /-- The edge queue, head first. -/
  queue : List Edge := []
  /-- EQ_ARG per writer path: HP, links 0–3, SVC, supervisor, microengine (R172). -/
  args : Vector Word 8 := .replicate 8 0
  /-- The output latch OUTL and the tap of the edge that last set it (R177, R180). -/
  outl : Level := .low
  outTap : BitVec 5 := 0
  /-- The fine-delay table's setting for that tap when its entry fired (10 R403). -/
  outStep : BitVec 6 := 0
  /-- The model's time at the change of the pattern that last turned a side on, from which dead time runs (R187). -/
  outAt : Nat := 0
  /-- The next turn-on carries dead time (not after leaving Clearing, R199). -/
  deadOn : Bool := false
  /-- The output stage at the ends of the last core cycle and of the one before. -/
  was1 : PinSample := {}
  was2 : PinSample := {}
  /-- The model's time at the last change of the intended level (R201; 10 R394). -/
  chgAt : Nat := 0
  /-- The masters whose fence gave the channel the cause LINK (Table 5.4). -/
  linkBy : BitVec 64 := 0
  pair : Pair := {}
  /-- CH_LINK: SRC 1:0, IDX 5:2, ACTION 7:6. -/
  link : BitVec 8 := 0
  /-- CH_LKOUT: EVT 6:0, KIND 7, LINE 11:8, DRV 12. -/
  lkout : BitVec 13 := 0
  /-- A READMIT period is being counted from a VALLEY tick (R211). -/
  rdmRun : Bool := false
  /-- The channel underran in the period being counted (R211). -/
  rdmUnder : Bool := false
  deriving DecidableEq, Repr

/-- One channel. -/
structure Chan where
  c : Counter := {}
  ev : EventRegs := {}
  cp : Capture := {}
  o : Output := {}
  /-- CH_STAT.FENCED (04 R168). -/
  fenced : Bool := false
  deriving DecidableEq, Repr

/-- One grove (Tables 4.6, 5.10). -/
structure Grove where
  psc : BitVec 16 := 0
  /-- Core cycles since the last tick (04 R122). -/
  pscCount : Nat := 0
  serr : Bool := false
  wwr : Bool := false
  /-- GRV_STAG: SET 7:0, EN 8. -/
  stag : BitVec 9 := 0
  arm : Bool := false
  /-- Channels ARM waits for, and those that have passed a VALLEY tick since it was set (05 R183, R184). -/
  armWait : BitVec 8 := 0
  armDone : BitVec 8 := 0
  /-- Channels that have passed no VALLEY tick since ARM was set: their shadows still move at the next (05 R183). -/
  armOwe : BitVec 8 := 0
  /-- Link pulses on the way to the grove's channels: the model's time of arrival, and the channel (05 R193). -/
  pulses : List (Nat × Fin 8) := []
  rdmActive : Bool := false
  rdmIe : Bool := false
  rdmDone : Bool := false
  deriving DecidableEq, Repr

/-- The timebase and its registers (04 Table 4.7, R840, R154–R156). -/
structure Timebase where
  tb : W48 := 0
  /-- TB counts (R840). -/
  run : Bool := false
  rwr : Bool := false
  snap : W48 := 0
  seq : BitVec 8 := 0
  valid : Bool := false
  deriving DecidableEq, Repr

/-- AD_STAT.STATE (06 Table 6.9). -/
inductive AdState | off | search | candidate | locked | lost
  deriving DecidableEq, Repr

/-- The measuring half of an angle domain: what 06 R212–R239 keep between edges. -/
structure AdTrack where
  /-- Accepted levels of the three inputs (R212). -/
  levels : BitVec 3 := 0
  /-- Timestamp of the last pitch edge (or active edge in SEARCH). -/
  tau : Option W48 := none
  /-- Intervals measured since the domain last entered SEARCH (0, 1, or 2 for more). -/
  count : Nat := 0
  /-- The rate of R225, in 2^-32 AU per cycle. -/
  rate : Nat := 0
  /-- Revolutions of the pitch index since LOCKED. -/
  rev : BitVec 8 := 0
  /-- 1 when the reported angle had already passed the wrap at LOCKED (R220). -/
  tagBase : BitVec 8 := 0
  /-- Consecutive checks passed in CANDIDATE (R230). -/
  checks : Nat := 0
  /-- Classes of the last teeth or marks, newest first; 0 is unclassified (R216, R217). -/
  classes : List Nat := []
  /-- Scheme 1: timestamp of the non-active edge of the tooth in hand. -/
  fall : Option W48 := none
  /-- Scheme 2: pitch edges seen in the mark in hand and the pitch it began at. -/
  mark : Option (Nat × Nat) := none
  /-- Scheme 2: main active edges since the last pitch edge. -/
  divCount : Nat := 0
  /-- Scheme 0: timestamp of the extra tooth (or held first edge) of the gap in hand (R215, R238). -/
  gap : Option W48 := none
  /-- Scheme 0: the edge held is a possible reverse (R238). -/
  gapHeld : Bool := false
  /-- Scheme 0: the gap's first edge fell in neither window (R238). -/
  gapMiss : Bool := false
  /-- Scheme 3: successive forward changes in SEARCH. -/
  fwd : Nat := 0
  /-- Scheme 3: the sector is known. -/
  sectorKnown : Bool := false
  /-- TB of the cycle of the last exit from LOCKED or entry to LOST (R253, R255). -/
  exitAt : Option W48 := none
  /-- Timestamp of the last raw edge, and the last raw interval: what AD_PER shows while not LOCKED (Table 6.10). -/
  rawTau : Option W48 := none
  raw : Word := 0
  /-- The domain enters SEARCH in the next cycle (R262). -/
  begins : Bool := false
  /-- The governor's CUT domain enters LOST in the next cycle (R242). -/
  govDue : Bool := false
  /-- The channels bound to the domain set SYNC in the next cycle (Table 6.5 step 3). -/
  syncDue : Bool := false
  deriving DecidableEq, Repr

/-- One angle domain (06 Tables 6.8–6.10). -/
structure AngleDom where
  /-- AD_CTL: EN 0, SCHEME 3:2, EDGE 4, ACC 6:5, REV_LOST 7, FILT 11:8. -/
  ctl : BitVec 12 := 0x040
  wheel : Word := 0x01800000
  src : BitVec 12 := 0
  sync : Word := 0x02C04040
  codecfg : BitVec 15 := 0
  zero : BitVec 24 := 0
  slow : Word := 0x0BEBC200
  hall : BitVec 18 := 0x2CC99
  code : Vector Word 64 := .replicate 64 0
  st : AdState := .off
  reason : BitVec 4 := 0
  govAct : Bool := false
  /-- AD_STAT.DIR: true is reverse. -/
  rev : Bool := false
  cfgErr : Bool := false
  sector : Fin 6 := 0
  pitch : Nat := 0
  ev : EventRegs := {}
  per : Word := 0
  pred : Word := 0
  gov : BitVec 16 := 0x1000
  govMin : Word := 0
  govClr : Word := 0
  govCount : Nat := 0
  losts : BitVec 16 := 0
  govs : BitVec 16 := 0
  /-- AD_ATRIGn: ANGLE 23:0, EN 31. -/
  atrig : Vector Word 4 := .replicate 4 0
  /-- The position at which each trigger is next reached (R251). -/
  trigDue : Vector Word 4 := .replicate 4 0
  fenced : Bool := false
  k : AdTrack := {}
  deriving DecidableEq, Repr

/-- One plausibility checker (06 Table 6.11). -/
structure Checker where
  /-- PL_CTL: EN 0, ACT 1, SRC 5:4, REF 7:6, CUT 9:8, N 15:12. -/
  ctl : BitVec 16 := 0x1000
  ratio : Word := 0x00010000
  win : BitVec 16 := 0x1010
  minper : Word := 0
  trips : BitVec 16 := 0
  cnt : BitVec 4 := 0
  cfgErr : Bool := false
  viol : Bool := false
  trip : Bool := false
  /-- The count has reached N; the trip follows in the next cycle (R245). -/
  tripDue : Bool := false
  deriving DecidableEq, Repr
/-- The state of a calendar entry (07 R265). -/
inductive CalState | free | waiting | ready
  deriving DecidableEq, Repr

/-- One calendar entry (07 Table 7.10). -/
structure CalEntry where
  key : W48 := 0
  arg : Word := 0
  st : CalState := .free
  pri : BitVec 3 := 0
  /-- 0 time, 1–3 AD0–AD2. -/
  keysel : BitVec 2 := 0
  entry : BitVec 13 := 0
  owner : Fin 256 := 0
  /-- The key was already in the past when the entry was first compared (R267). -/
  late : Bool := false
  /-- TB of the cycle the entry fell due, once it has; for a time entry that waits, the cycle it will (R266–R268). -/
  dueAt : W48 := 0
  /-- An angle entry has fallen due (R266). -/
  fell : Bool := false
  /-- The model's time at the insertion: an entry is first compared in the cycle after it (R267). -/
  insAt : Nat := 0
  /-- The model's time of the first cycle in which the entry is READY (R268, R270). -/
  readyAt : Nat := 0
  /-- A sweep of the entry's domain covers it: it is neither dispatched nor due (R280). -/
  doomed : Bool := false
  deriving DecidableEq, Repr

/-- A source of service requests (07 Table 7.1). -/
inductive ReqSrc | chan (n : Fin 64) | dom (d : Fin 3) | ps (e : Fin 8) | iv | adc (k : Fin 2)
  deriving DecidableEq, Repr

/-- A pending service request: what its source gave when it was presented (04 R140, 07 R269). -/
structure Req where
  src : ReqSrc
  entry : BitVec 13
  pri : BitVec 3
  /-- TB of the cycle it reached the Timetable. -/
  at_ : W48
  /-- The model's time of the first cycle in which it is READY (07 Table 7.1). -/
  readyAt : Nat
  deriving DecidableEq, Repr

/-- Why a domain's entries are swept (07 R280). -/
inductive SweepWhy | lost | drop
  deriving DecidableEq, Repr

/-- The Timetable (07 Tables 7.10, 7.11). -/
structure Timetable where
  /-- The calendar: entries by handle 0–1,023; one not listed is all zero and FREE (R307). -/
  cal : List (Nat × CalEntry) := []
  reqs : List Req := []
  /-- Per domain, a sweep that has not run yet. -/
  sweeps : Vector (Option SweepWhy) 3 := .replicate 3 none
  /-- TT_FLAG: FULL, HERR, LATE, RSVUSE, BULK from bit 0. -/
  flag : BitVec 5 := 0
  ien : BitVec 5 := 0
  /-- TT_HERR: STATUS, CLIENT, HANDLE. -/
  herrStatus : BitVec 4 := 0
  herrClient : Fin 256 := 0
  herrHandle : BitVec 10 := 0
  lat : Word := 0
  cnt : Word := 0
  deriving DecidableEq, Repr

/-- A frame of the microengine: a window's registers, flags, PC and descriptor (07 R284, R286, Table 7.5). -/
structure Frame where
  w : Vector Word 8 := .replicate 8 0
  /-- Flags N, Z, C, V in bits 3 to 0, as in a spilled record (Table 7.5). -/
  flags : BitVec 4 := 0
  pc : BitVec 13 := 0
  /-- Opened by CALL. -/
  called : Bool := false
  /-- Dispatch descriptor (Table 7.4). -/
  desc : Word := 0
  /-- Ring window, 1–15; 0 for the trap window. -/
  win : Nat := 1
  /-- Names the frame while a result is pending for it (R344, R345). -/
  uid : Nat := 0
  deriving DecidableEq, Repr

/-- A request the microengine holds for the checker (07 R296). -/
inductive MeReq
  /-- A store of 2^size bytes. -/
  | store (owner : Fin 256) (addr : BitVec 20) (size : Nat) (data : Word)
  /-- EDGE: control word bits [31:16], target, channel, shadow form. -/
  | edge (owner : Fin 256) (ch : Fin 64) (shd : Bool) (ctl : BitVec 16) (tgt : W48)
  | sched (owner : Fin 256) (win0 : Bool) (uid : Nat) (rd : Fin 16) (keylo keyhi arg ctl : Word)
  | cancel (owner : Fin 256) (win0 : Bool) (uid : Nat) (rd : Fin 16) (handle : BitVec 10)
  | signal (n : Fin 8)
  | post (owner : Fin 256) (client : Fin 256) (w1 w2 : Word)
  /-- The write of a bank-target atomic, which frees its word (08 R328). -/
  | atomic (owner : Fin 256) (addr : BitVec 20) (data : Word)
  deriving DecidableEq, Repr

/-- A Timetable answer on its way to RD (08 R334). -/
structure MeResult where
  uid : Nat
  rd : Fin 16
  value : Word
  deriving DecidableEq, Repr

/-- ME_STAT.STATE (07 Table 7.12). -/
inductive MeState | stopped | idle | running | trap | fenced
  deriving DecidableEq, Repr

/-- The microengine (07 Table 7.12, 08 Table 8.10). -/
structure MicroEngine where
  en : Bool := false
  hen : Bool := false
  trapEntry : BitVec 13 := 0
  st : MeState := .stopped
  fcause : BitVec 3 := 0
  /-- Resident ordinary frames, the newest first: the first is the current window. -/
  frames : List Frame := []
  /-- The trap window W0 while a handler runs. -/
  trapWin : Option Frame := none
  /-- The frames of the dispatch that trapped are still on the stack (R291). -/
  trapLive : Bool := false
  /-- Frames on the spill stack in BANK5. -/
  spilled : Nat := 0
  /-- The current window while only spilled frames are left (R286, R288). -/
  below : Nat := 0
  /-- ME_STAT.CWP and PRI as a fence found them (R298). -/
  keptWin : Nat := 0
  keptPri : Nat := 0
  /-- ME_SPILL.FRAMES and BASE. -/
  spillFrames : BitVec 8 := 0
  spillBase : BitVec 8 := 0
  /-- ME_TRAPREC. -/
  trapCode : BitVec 4 := 0
  trapOwner : Fin 256 := 0
  trapPc : BitVec 13 := 0
  trapAddr : Word := 0
  lstep : BitVec 16 := 0
  wdog : BitVec 24 := 0x010000
  eccAddr : BitVec 13 := 0
  eccCorr : BitVec 16 := 0
  g : Vector Word 8 := .replicate 8 0
  /-- Program store words by index; one not listed reads as zero (03 R98). -/
  store : List (Nat × Word) := []
  /-- Wrong bits in stored words: index and how many (R295). -/
  storeErr : List (Nat × Nat) := []
  /-- Requests held for the checker, oldest first (R296). -/
  outbox : List MeReq := []
  results : List MeResult := []
  nextUid : Nat := 0
  /-- ME_SIG. -/
  sig : BitVec 8 := 0
  deriving DecidableEq, Repr
/-- One event of four words (14 Table 14.4); `ov` marks a client's OVERFLOW notice, which has an entry of its own (R536). -/
structure Event where
  w0 : Word
  w1 : Word
  w2 : Word
  w3 : Word
  ov : Bool := false
  deriving DecidableEq, Repr

/-- An event posted and not yet admitted to its client's queue (14 R533). -/
structure Posted where
  client : Fin 256
  ev : Event
  /-- The model's time at the posting, and the producer's place in R533's order: 0 Timetable, 1 Seating Chart, 2 microengine,
  3 supervisor, 4 other blocks. -/
  at_ : Nat
  rank : Nat
  deriving DecidableEq, Repr

/-- SC_STAT.STATE (14 Table 14.11). -/
inductive ClientState | disabled | active | fenced
  deriving DecidableEq, Repr

/-- One client's record, queue and history (14 Tables 14.11, 14.12). -/
structure ClientRec where
  /-- SC_BIND: SLOTLO 15:8, SLOTHI 23:16, LINK 27:26, KIND 30:28, EN 31. -/
  bind : Word := 0
  rights : Word := 0
  grant : BitVec 64 := 0
  quota : Word := 0
  rate : Word := 0
  st : ClientState := .disabled
  fcause : BitVec 4 := 0
  dropped : BitVec 12 := 0
  late : BitVec 12 := 0
  faults : BitVec 8 := 0
  /-- Tokens in the rate bucket (R532). -/
  tokens : Nat := 0
  /-- The model's time from which the next token's interval runs (R532). -/
  tokAt : Nat := 0
  /-- The model's times of the counted faults of the last second, newest first (R550). -/
  faultTimes : List Nat := []
  /-- SEQ of the next event (Table 14.4). -/
  seq : BitVec 8 := 0
  /-- Queued events, head first. -/
  queue : List Event := []
  cursor : BitVec 2 := 0
  overflowed : Bool := false
  lastAlloc : BitVec 16 := 0
  deriving DecidableEq, Repr

/-- The state of a message buffer (14, before R539). A queued buffer knows its sender, its link, and whether a
REQUEST queued it. -/
inductive BufState | free | owned (c : Fin 256) | queued (c : Fin 256) (link : Fin 4) (req : Bool)
  deriving DecidableEq, Repr

structure BufRec where
  st : BufState := .free
  gen : BitVec 8 := 0
  deriving DecidableEq, Repr

/-- An open request (14 R544–R546). -/
structure OpenReq where
  client : Fin 256
  link : Fin 4
  msgid : BitVec 12
  buf : Fin 256
  /-- TB of the cycle it opened, and the timeout in milliseconds (R545). -/
  at_ : W48
  timeoutMs : Nat
  deriving DecidableEq, Repr

/-- A fence or a disable of a client that takes effect in the next cycle: the cause, 0 for a disable, and the channels a
disabled client owned (R551, R552). -/
structure Cut where
  client : Fin 256
  cause : BitVec 4
  grant : BitVec 64
  deriving DecidableEq, Repr

/-- A response that a link received in the cycle, to be matched at its end (R546, R557). -/
structure Response where
  link : Fin 4
  client : Fin 256
  msgid : BitVec 12
  payload : List Byte
  deriving DecidableEq, Repr

/-- The Seating Chart (14 Table 14.10). -/
structure Seating where
  /-- Records and client windows by client; client 0's entry keeps its window only (R520). -/
  recs : List (Nat × ClientRec) := []
  posted : List Posted := []
  /-- SC_FLAG: WWR, FENCE, BUFF, OVF, LATE, TMO from bit 0. -/
  flag : BitVec 6 := 0
  frecClient : Fin 256 := 0
  frecCause : BitVec 4 := 0
  werrRecord : Fin 256 := 0
  werrReason : BitVec 4 := 0
  bufs : List (Nat × BufRec) := []
  reqs : List OpenReq := []
  /-- Fences and disables decided in this cycle (R551). -/
  cuts : List Cut := []
  deriving DecidableEq, Repr

/-- A report of a mechanism to FLT, not yet recorded (19 R700): mechanism, unit kind, index, detail, and the model's time at
which it reached FLT. -/
structure Report where
  mech : BitVec 8
  kind : BitVec 4
  index : BitVec 8
  detail : BitVec 24
  at_ : Nat := 0
  deriving DecidableEq, Repr
/-- PS_STAT.STATE (09 Table 9.4). -/
inductive PsState | off | run | wait | halt | fenced
  deriving DecidableEq, Repr

/-- One pin sequencer (09 Table 9.4, R354–R386). -/
structure PinSeq where
  en : Bool := false
  start : BitVec 6 := 0
  div : BitVec 16 := 0
  /-- PS_PIN0 and PS_PIN1: per local pin V (bit 7) and CH (bits 5:0). -/
  pin0 : Word := 0
  pin1 : Word := 0
  st : PsState := .off
  cfgErr : Bool := false
  t : Bool := false
  pc : BitVec 6 := 0
  /-- OR and IC: bits left in OW, bits gathered in IW. -/
  orr : Nat := 0
  ic : Nat := 0
  ow : Word := 0
  iw : Word := 0
  l0 : BitVec 16 := 0
  l1 : BitVec 16 := 0
  ls0 : BitVec 6 := 0
  ls1 : BitVec 6 := 0
  obits : BitVec 5 := 0x1F
  ibits : BitVec 5 := 0x1F
  /-- Ticks still to pass of DLY and PAUSE after the instruction took effect (R367). -/
  busy : Nat := 0
  haltReq : Bool := false
  /-- Core cycles since the last tick (R354). -/
  cnt : Nat := 0
  tx : List Word := []
  rx : List Word := []
  /-- Words written in a cycle in which the FIFO took another, by rank of their source (R381). -/
  txWait : List (Nat × Word) := []
  /-- The FIFO levels at the start of the core cycle (R373). -/
  txAt : Nat := 0
  rxAt : Nat := 0
  ev : EventRegs := {}
  /-- PS_FIFO: TXDMA 0, TXTH 11:8, RXDMA 12, RXTH 19:16. -/
  fifo : BitVec 20 := 0x10000
  /-- What the engine drives on each local pin (R360, R362). -/
  drive : Vector Level 8 := .replicate 8 .released
  /-- The pin map as claimed at the last enable (R358). -/
  claim0 : Word := 0
  claim1 : Word := 0
  /-- The pins carry Clearing levels until the engine is disabled or restarted (R365, R371, R386). -/
  clrHold : Bool := false
  deriving DecidableEq, Repr

/-- The pin sequencers, their store and PS_ECC (09 R355, R356, Table 9.5). -/
structure PinSeqs where
  eng : Vector PinSeq 8 := .replicate 8 {}
  /-- Store words 0–47 of 24 bits; one not listed is zero. -/
  store : List (Nat × BitVec 24) := []
  /-- Wrong bits in stored words: index and how many (R356). -/
  storeErr : List (Nat × Nat) := []
  eccCorr : BitVec 16 := 0
  eccAddr : BitVec 6 := 0
  deriving DecidableEq, Repr

/-- One SENS comparator (10 Table 10.9, R387–R389). -/
structure Sens where
  /-- SENS_CFG: MODE 1:0, HYST 10:8, INV 11, FRAC 15:12, AMIN 23:16, EN 31. -/
  cfg : Word := 0x8100
  thr : BitVec 8 := 0x50
  thrNow : BitVec 8 := 0x50
  trough : BitVec 8 := 0
  peak : BitVec 8 := 0
  lowamp : Bool := false
  out : Bool := false
  /-- The comparison before INV and any hold, and whether the VR comparator is armed (Table 10.1). -/
  cmp : Bool := false
  armed : Bool := false
  /-- Rising output edges since enable, up to 3: two cycles have completed at the third (R388). -/
  cycles : Nat := 0
  deriving DecidableEq, Repr

/-- One ITRIP comparator (10 Table 10.10). -/
structure Itrip where
  /-- ITRIP_CFG: GRV 7:0, BCH 13:8, BLANK 23:18, BLEN 25, FILT 27:26, IE 28, LOEN 29, HIEN 30, EN 31. -/
  cfg : Word := 0
  thr : BitVec 16 := 0xFF00
  trips : BitVec 16 := 0
  clrref : Bool := false
  dupf : Bool := false
  /-- The input's level in microvolts at its last sample told. -/
  input : Nat := 0
  latch : Bool := false
  deriving DecidableEq, Repr

/-- The fine-delay calibration (10 R403, R404, Table 10.10). -/
structure Cal where
  valid : Bool := false
  lock : Bool := false
  worst : BitVec 8 := 0xFF
  invals : BitVec 16 := 0
  /-- CAL_FLAG: INVAL 0, REVALID 1. -/
  flag : BitVec 2 := 0
  /-- The table entry measured next, the largest error of the sweep in hand, and whether it has failed. -/
  idx : BitVec 5 := 0
  sweepWorst : BitVec 8 := 0
  sweepFail : Bool := false
  /-- Measurements since the table is invalid (one a microsecond). -/
  invalidUs : Nat := 0
  /-- The table: the physical step of each tap (R403). -/
  table : Vector (BitVec 6) 32 := .replicate 32 0
  /-- A table was valid once: an invalid period is one that follows it. -/
  wasValid : Bool := false
  deriving DecidableEq, Repr

/-- One ADC (10 Table 10.11). -/
structure Adc where
  en : Bool := false
  loop : Bool := false
  run : Bool := false
  fenced : Bool := false
  entry : Fin 16 := 0
  seqno : BitVec 8 := 0
  ev : EventRegs := {}
  /-- ADC_DST: BASE 17:6, EN 31. -/
  dst : Word := 0
  /-- ADC_SEQn: AIN 3:0, TRIG 6:4, IDX 13:8, LAST 15. -/
  seq : Vector (BitVec 16) 16 := .replicate 16 0
  res : Vector Word 16 := .replicate 16 0
  /-- A trigger latched during a conversion (R399). -/
  latched : Bool := false
  /-- The entry being converted. -/
  conv : Option (Fin 16) := none
  /-- The model's time at the conversion's start cycle (R398). -/
  convAt : Nat := 0
  /-- Errors of the monitor's last checks in a row (Table 10.5). -/
  errRun : Nat := 0
  /-- The conversion in hand was overtaken by RESTART or EN: its result does not advance the sequence (R419). -/
  noadv : Bool := false
  /-- Bank copies waiting for the port, one per entry (R401): entry and code. -/
  copies : List (Fin 16 × BitVec 16) := []
  deriving DecidableEq, Repr

/-- One signature template slot's control word SIG_SLOT (10 Table 10.12). -/
structure SigSlot where
  valid : Bool := false
  en : Bool := false
  link : Fin 4 := 0
  deriving DecidableEq, Repr

/-- A running measurement: the link, the slot an ENROL writes, and the fingerprints it has taken. -/
structure SigRun where
  link : Fin 4
  enrol : Option (Fin 16)
  taken : List (List Byte) := []
  /-- Pulses of the measurement in hand, each with its sample, and the time at which its open window began (R405, R421). -/
  pulses : Nat := 0
  win : Option Nat := none
  /-- The model's time at the measurement's start, or at the last window it received. -/
  since : Nat := 0
  deriving DecidableEq, Repr

/-- The line-signature unit (10 Table 10.12, R405–R410). -/
structure Sig where
  verdict : BitVec 4 := 0
  link : Fin 4 := 0
  slot : Fin 16 := 0
  mt : BitVec 6 := 0
  m : BitVec 8 := 0
  run : Option SigRun := none
  dist : BitVec 14 := 0
  /-- SIG_CFG: FENCE 3:0, PERIOD 15:8, AUTO 19:16, MMAX 31:24. -/
  cfg : Word := 0x20000000
  /-- SIG_THR: DMATCH 13:0, DTAMP 29:16. -/
  thr : Word := 0x04000100
  /-- SIG_FLAG: DONE, TAMPER, DRIFT, ABORT, REFUSED from bit 0. -/
  flag : BitVec 5 := 0
  slots : Vector SigSlot 16 := .replicate 16 {}
  /-- Template taps: tap t of slot s at key 64 s + t; one not listed is 0. -/
  tmpl : List (Nat × Byte) := []
  /-- The last fingerprint, taps 0–63. -/
  last : List (Nat × Byte) := []
  /-- Links whose automatic measurement is due (R409, R420). -/
  due : BitVec 4 := 0
  deriving DecidableEq, Repr

/-- The analogue front end (10 Table 10.8). -/
structure Afe where
  wwr : Bool := false
  health : BitVec 28 := 0
  sflag : BitVec 16 := 0
  ien : BitVec 4 := 0
  sens : Vector Sens 16 := .replicate 16 {}
  /-- The input the spare comparator visits (R390). -/
  spare : Option (Fin 16) := none
  /-- The mode and threshold state the spare has copied, and the model's time at the visit's start (R390). -/
  spareCopy : Sens := {}
  spareAt : Nat := 0
  itrip : Vector Itrip 6 := .replicate 6 {}
  cal : Cal := {}
  adc : Vector Adc 2 := .replicate 2 {}
  sig : Sig := {}
  deriving DecidableEq, Repr
/-- GLB_BOOT.STATE (02 Table 2.13). -/
inductive BootState | loading | running | unlocked | noConfig | noBundle | clockHold
  deriving DecidableEq, Repr

/-- Start-up: GLB_BOOT, GLB_BOOT_ERR, GLB_BOOT_T, GLB_BOOT_VER, GLB_CFG_SEQ, GLB_LOCK (02 Tables 2.13–2.16). -/
structure Boot where
  st : BootState := .loading
  open_ : Bool := false
  quadFallback : Bool := false
  trial : Bool := false
  trialFailed : Bool := false
  slotFallback : Bool := false
  cfgFallback : Bool := false
  /-- Slot booted: 0 A, 1 B. -/
  slot : Bool := false
  /-- Configuration copy: 0 C0, 1 C1. -/
  cfgCopy : Bool := false
  loaderErr : BitVec 8 := 0
  errA : BitVec 8 := 0
  errB : BitVec 8 := 0
  errC0 : BitVec 8 := 0
  errC1 : BitVec 8 := 0
  tApply : Word := 0
  ver : Word := 0
  cfgSeq : Word := 0
  /-- CFG_FMT_MIN and CFG_FMT_MAX of the running bundle (R47). -/
  fmtMin : BitVec 16 := 0
  fmtMax : BitVec 16 := 0
  /-- TB at which LOCK_DEADLINE elapses (R61). -/
  lockAt : W48 := 0
  deferred : Bool := false
  locked : Bool := false
  /-- Configuration applied (R53). -/
  applied : Bool := false
  /-- START_MASK of the record in force (R63). -/
  startMask : BitVec 8 := 0
  /-- Register writes the retained record makes, for re-apply (03 R81). -/
  record : List (BitVec 20 × Word) := []
  deriving DecidableEq, Repr

/-- The external flash as the loader and the agents see it (02 R31–R36, Table 2.1). -/
structure Flash where
  /-- Contents by byte address; a byte not listed is erased, 0xFF. -/
  cells : List (Nat × Byte) := []
  /-- Size in bytes as the identification gives it. -/
  size : Nat := 0
  /-- SFDP lists the 1-4-4 read (and 1-1-4 otherwise). -/
  quad144 : Bool := false
  quad114 : Bool := false
  /-- The re-read of step 4 returns the parameter block as the single read did (R40). -/
  quadAgrees : Bool := true
  /-- Dummy clocks the discoverable parameters give for the 1-4-4 and the 1-1-4 read (R36). -/
  dummy144 : BitVec 5 := 0
  dummy114 : BitVec 5 := 0
  /-- Objects whose read fails (Table 2.15 code 0x02): slots A and B, copies C0 and C1 from bit 0. -/
  unread : BitVec 4 := 0
  /-- The read command in use with its dummy clocks (R35, R36, R40). -/
  readCmd : BitVec 8 := 0x03
  dummy : BitVec 5 := 0
  /-- Commands XF gave the flash in its last operation, first to last (R35). -/
  issued : List Byte := []
  deriving DecidableEq, Repr

/-- The OTP shadow (02 R56–R58, 21 R789). -/
structure Otp where
  unitId : BitVec 64 := 0
  fleetHash : BitVec 256 := 0
  vendorHash : BitVec 256 := 0
  /-- BSDIS: boundary scan disabled (21 R789). -/
  bsdis : Bool := false
  deriving DecidableEq, Repr

/-- PWR_STATE.STATE (03 Table 3.12); DOZE is RUN with DOZE_EN. OFF is also what the device is without VIO. -/
inductive PwrState | run | entering | exiting | clockFault | park | off
  deriving DecidableEq, Repr

/-- Power, clocks and supplies outside the Canopy (03 Tables 3.11–3.13). -/
structure Power where
  /-- GLB_CFG.COMPAT, held from the strap (R112). -/
  compat : Bool := false
  st : PwrState := .run
  refuse : BitVec 4 := 0
  keep : BitVec 4 := 0
  dozeEn : Bool := false
  vioGood : Bool := true
  /-- PD1 is out of reset. -/
  pd1Up : Bool := true
  /-- PD2–PD7 are out of reset. -/
  pdUp : Bool := false
  /-- The entry in hand goes to OFF (R78). -/
  toOff : Bool := false
  /-- An enabled wake was latched during the entry (R95). -/
  wakeEntry : Bool := false
  /-- PARK_KEEP as the entry took it: the domains RET in the PARK in hand (Table 3.1). -/
  kept : BitVec 4 := 0
  /-- A clock fault was declared during the entry (R117). -/
  faultEntry : Bool := false
  /-- TB at step 1 of PARK entry (R80). -/
  tbPark : W48 := 0
  /-- CLK_STAT. -/
  faults : BitVec 16 := 0
  coreOnRc : Bool := false
  pllLock : Bool := false
  refOk : Bool := false
  lseOk : Bool := false
  /-- RTC times of recent clock faults, in 1/32768 s (R106). -/
  recent : List Nat := []
  /-- A third fault within 1 s: recovery waits for CLKREC (R106). -/
  needRec : Bool := false
  deriving DecidableEq, Repr

/-- The Canopy: what the always-on domain keeps (03 Table 3.14, R88–R97, R107–R120). -/
structure Canopy where
  /-- GLB_RST.CAUSE. -/
  cause : BitVec 4 := 1
  wakeEn : BitVec 10 := 0x003
  wakeSrc : BitVec 10 := 0
  retValid : Bool := false
  watchWin : BitVec 8 := 1
  watchEdges : BitVec 8 := 1
  watchMask : BitVec 4 := 0
  watchCount : Nat := 0
  /-- Outputs of the SENS twins, and the model's time at which each last counted an edge (10 R392). -/
  twinOut : BitVec 4 := 0
  twinAt : Vector (Option Nat) 4 := .replicate 4 none
  parkTicks : Word := 0
  rtcSec : Word := 0
  /-- The model's time as the RTC second in hand began: RTC_SUB counts from there. -/
  secAt : Nat := 0
  rtcAlarm : Word := 0xFFFFFFFF
  rtcValid : Bool := false
  lseFail : Bool := false
  tampCfg : BitVec 2 := 0
  tampEvt : BitVec 2 := 0
  tampTime : Word := 0
  /-- AFE_TWIN: four thresholds (10 Table 10.8). -/
  twin : Word := 0x50505050
  /-- The retained INTC fields (R91–R93). -/
  retPend : BitVec 192 := 0
  retS : BitVec 192 := 0
  retPen : Vector (BitVec 192) 4 := .replicate 4 0
  retPri : List (Nat × BitVec 4) := []
  retThr : Vector (BitVec 5) 5 := .replicate 5 0x10
  retPcfg : Vector (BitVec 9) 4 := .replicate 4 0x100
  /-- Catch bits: sources seen while INTC was off (R91). -/
  catch_ : BitVec 192 := 0
  deriving DecidableEq, Repr

/-- Pins from outside, keepers and the TAP (21 R770, R773, R787–R790). -/
structure Pins where
  /-- Level on the COMPAT ball. -/
  compat : Bool := false
  /-- Level on RST_N: low holds PD1–PD7 in reset (03 Table 3.9; 21 R788). -/
  rstN : Bool := true
  /-- Levels the world applies to the channel pads, where it drives them. -/
  pad : List (Nat × Bool) := []
  /-- Levels the pad keepers hold (R770). -/
  keeper : List (Nat × Level) := []
  /-- The TAP instruction in force: 0 EXTEST, 1 SAMPLE/PRELOAD, 2 CLAMP, 3 HIGHZ, 15 BYPASS (Table 21.7). -/
  tap : BitVec 4 := 15
  /-- The boundary register, cell 0 nearest TDO (R790). -/
  boundary : BitVec 266 := 0
  deriving DecidableEq, Repr
/-- What one link shows in the running PM second (17 R635, R636). -/
structure LinkSec where
  bip : Nat := 0
  slips : Nat := 0
  /-- A code violation, a slip, or raw LOS, OOF or OOM was present. -/
  errored : Bool := false
  /-- LOS, LOF or LOM was declared. -/
  severe : Bool := false
  /-- Any defect of DS was declared. -/
  defect : Bool := false
  /-- HL_CFG.EN has been 1 throughout. -/
  enabled : Bool := true
  /-- The link was fenced at some time (01 Table 1.4). -/
  fenced : Bool := false
  deriving DecidableEq, Repr

/-- The running PM second. -/
structure PmSecond where
  /-- RTC_SEC as the second began. -/
  at_ : Word := 0
  links : Vector LinkSec 4 := .replicate 4 {}
  gov : Nat := 0
  plaus : Nat := 0
  tamper : Nat := 0
  odo : Nat := 0
  run : Nat := 0
  /-- PD5 has run since the second's first cycle (R635). -/
  observed : Bool := false
  deriving DecidableEq, Repr

/-- The verdicts of one link second: BIP, SES and ES before R637, slips, DS, counted in SEC. -/
structure Verdict where
  bip : Nat := 0
  es : Bool := false
  ses : Bool := false
  uas : Bool := false
  slips : Nat := 0
  ds : Bool := false
  counts : Bool := false
  /-- The link was fenced: the second is unavailable whatever the runs say (01 Table 1.4). -/
  fenced : Bool := false
  deriving DecidableEq, Repr

/-- A second that waits 10 s for its bins (17 R638). -/
structure DoneSecond where
  /-- RTC_SEC of the second. -/
  at_ : Nat
  /-- RTC_STAT.VALID was 0. -/
  suspect : Bool
  observed : Bool
  v : Vector Verdict 4
  gov : Nat
  plaus : Nat
  tamper : Nat
  odo : Nat
  run : Nat
  deriving DecidableEq, Repr

/-- A bin of 48 words (17 Table 17.4), by its fields; link words are BIP, ES, SES, UAS, SLIP, DS, SEC. -/
structure Bin where
  start : Word := 0
  kind : BitVec 4 := 0
  flags : BitVec 8 := 0
  obs : Nat := 0
  upd : Word := 0
  links : Vector (Vector Word 7) 4 := .replicate 4 (.replicate 7 0)
  odo : Word := 0
  run : Word := 0
  gov : Word := 0
  plaus : Word := 0
  tamper : Word := 0
  rsretry : Word := 0
  deriving DecidableEq, Repr

/-- Performance monitoring (17 Table 17.8). -/
structure Perf where
  /-- PM_CFG: RUNEN 3, RUNGRV 6:4, ODOSTEP 31:16. -/
  cfg : Word := 0x00640000
  circ : BitVec 16 := 0
  sesthr : BitVec 16 := 0x2180
  /-- PM_TCA: ES 15:0, SES 31:16. -/
  tca : Word := 0
  unav : BitVec 4 := 0
  tcaSes : BitVec 4 := 0
  tcaEs : BitVec 4 := 0
  /-- PM_FLAG: BIN, DAY, CLKSET, TCA, WWR from bit 0. -/
  flag : BitVec 5 := 0
  ien : BitVec 5 := 0
  selRdy : Bool := false
  selKind : BitVec 3 := 0
  selAge : BitVec 6 := 0
  odo : Word := 0
  /-- Lifetime run time in seconds, and the milliseconds beyond (R640). -/
  runSec : Word := 0
  runMs : Nat := 0
  /-- The odometer remainder (R639) and the metres since the last lifetime write (R649). -/
  odoRem : Nat := 0
  sinceLife : Nat := 0
  sec : PmSecond := {}
  /-- Seconds that wait, oldest first. -/
  waiting : List DoneSecond := []
  /-- Per link, consecutive seconds that argue against the present availability (R637). -/
  against : Vector Nat 4 := .replicate 4 0
  cur15 : Bin := {}
  curDay : Bin := { kind := 2 }
  /-- A current bin has been opened by a second placed in it. -/
  open15 : Bool := false
  openDay : Bool := false
  /-- RTC_SEC was written: bins opened next carry CLKSET (R645). -/
  clkSet : Bool := false
  hist15 : List Bin := []
  histDay : List Bin := []
  life : Bin := { kind := 4 }
  /-- Views 0–4 and PM_WIN as last copied; none reads as zero. -/
  views : Vector (Option Bin) 5 := .replicate 5 none
  win : Option Bin := none
  deriving DecidableEq, Repr

/-- One stored version of a record (17 R651–R653). -/
structure RsVersion where
  type : BitVec 8
  index : BitVec 8
  seq : Word
  pages : Nat
  sector : Nat
  data : List Byte
  committed : Bool := true
  crcOk : Bool := true
  deriving DecidableEq, Repr

/-- A record write in the queue (17 R664). -/
structure RsWrite where
  type : BitVec 8
  index : BitVec 8
  data : List Byte
  deriving DecidableEq, Repr

/-- The state of a sector (17 R651, R657). -/
inductive SectorState | service | spare | retired
  deriving DecidableEq, Repr

structure Sector where
  st : SectorState := .service
  cycles : Nat := 0
  /-- Record pages used, 0–63. -/
  used : Nat := 0
  deriving DecidableEq, Repr

/-- The record store (17 Table 17.9). -/
structure RecStore where
  ro : Bool := false
  ready : Bool := false
  retryPages : BitVec 16 := 0
  retries : BitVec 16 := 0
  lastRetired : BitVec 6 := 0
  /-- RS_FLAG: RETRY, RETIRE, RO, REFUSED, CRC from bit 0. -/
  flag : BitVec 5 := 0
  ien : BitVec 5 := 0
  cntRefused : BitVec 16 := 0
  cntCrc : BitVec 16 := 0
  /-- Refusals since RS_RO (Table 17.3). -/
  refusals : Nat := 0
  /-- Sectors that differ from a blank one in service with no cycles, by number; 60–63 are the spares at first use. -/
  sectors : List (Nat × Sector) :=
    [(60, { st := .spare }), (61, { st := .spare }), (62, { st := .spare }), (63, { st := .spare })]
  /-- The head sector. -/
  head : Nat := 0
  /-- Every stored version, oldest first. -/
  versions : List RsVersion := []
  queue : List RsWrite := []
  /-- An operation is in progress: a record write or one step of a compaction (R660). -/
  op : Bool := false
  /-- The sector that a compaction in hand empties (R655, R663). -/
  compact : Option Nat := none
  deriving DecidableEq, Repr
/-- MEM_BSTAT.STATE (11 Table 11.9). -/
inductive BankState | fill | on | fenced | rdmTest | rdmFill
  deriving DecidableEq, Repr

/-- MEM_BSTAT.PHASE (11 Table 11.3). -/
inductive TestPhase | none | save | march | restore
  deriving DecidableEq, Repr

/-- One bank's status, counters and tester (11 Table 11.9, R437–R440). -/
structure Bank where
  st : BankState := .fill
  phase : TestPhase := .none
  region : BitVec 8 := 0
  passes : BitVec 16 := 0
  corr : BitVec 16 := 0
  unc : BitVec 8 := 0
  tfail : BitVec 8 := 0
  /-- SAVE: words already saved. -/
  saved : BitVec 16 := 0
  /-- Tester accesses made in MARCH or RESTORE. -/
  done : Nat := 0
  /-- A start time passed while the region still ran (R437). -/
  startPend : Bool := false
  /-- After a clock fault the tester restores its region before any other access (R462). -/
  recov : Bool := false
  deriving DecidableEq, Repr

/-- The scratchpad banks (11). -/
structure Mem where
  /-- Bank bytes by host address 0x2_0000–0x3_FFFF; a byte not listed is 0, as the fill of R441 leaves it. -/
  cells : List (Nat × Byte) := []
  /-- Raw bits found wrong in stored words, by word address (R425–R427). -/
  errs : List (Nat × Nat) := []
  /-- Corrected words waiting to be written back (R426). -/
  wb : List Nat := []
  /-- The word an atomic holds until its write is released (08 R328). -/
  lock : Option Nat := none
  banks : Vector Bank 8 := .replicate 8 {}
  ekind : BitVec 2 := 0
  eaddr : BitVec 20 := 0
  tctl : BitVec 8 := 0xFF
  /-- MEM_FLAG: CORR, UNC, TFAIL, TSLOW, RDMDONE, RDMFAIL, WWR from bit 0. -/
  flag : BitVec 7 := 0
  ien : BitVec 7 := 0
  deriving DecidableEq, Repr

/-- One circular window (11 Table 11.9, R433–R436). -/
structure CircWin where
  en : Bool := false
  /-- Bank address bits [17:6]. -/
  base : BitVec 12 := 0
  log2 : BitVec 4 := 6
  deriving DecidableEq, Repr

/-- DMA_STAT.STATE (11 Table 11.10). -/
inductive DmaState | idle | load | wait | move | done | error
  deriving DecidableEq, Repr

/-- One DMA channel (11 Table 11.10, R444–R451). -/
structure DmaChan where
  owner : Fin 256 := 0
  en : Bool := false
  /-- DMA_FIRST.ADDR, address bits [19:4]. -/
  first : BitVec 16 := 0
  st : DmaState := .idle
  err : BitVec 4 := 0
  desc : BitVec 20 := 0
  src : BitVec 20 := 0
  dst : BitVec 20 := 0
  rem : BitVec 16 := 0
  maxWait : BitVec 16 := 0
  /-- DMA_FLAG: DONE, DESCDONE, REQOVR, ERR, STARVE from bit 0. -/
  flag : BitVec 5 := 0
  ien : BitVec 5 := 0
  /-- DMA_GSTAT.STARV. -/
  starv : Bool := false
  /-- Words 2 and 3 of the descriptor in force. -/
  w2 : Word := 0
  w3 : Word := 0
  /-- Beats left of the pulse being served, and one pulse held (R448). -/
  burst : Nat := 0
  heldPulse : Bool := false
  /-- A load waits for its words: it was reached through NEXT (R444). -/
  loadNext : Bool := false
  /-- The model's time at which the beat in flight is over, and the cycles an access has waited (R432, R447). -/
  freeAt : Nat := 0
  wait : Nat := 0
  deriving DecidableEq, Repr
/-- FLT_STAT.STATE (19 Table 19.9). -/
inductive FltState | run | supHold | census
  deriving DecidableEq, Repr

/-- FLT_UQR.STATE of a unit (19 Table 19.9). -/
inductive UnitState | inService | transient | lasting | returning
  deriving DecidableEq, Repr

/-- What FLT keeps of one unit (19 R706–R711): the fence charged to it, or, for a unit lifted and not yet back, that it
returns. -/
structure FltUnit where
  st : UnitState := .inService
  /-- Mechanism and the model's time of the latest record. -/
  mech : BitVec 8 := 0
  last : Nat := 0
  /-- The model's time at which the unit was last fenced. -/
  since : Nat := 0
  /-- The model's times of the unit's TRANSIENT and LASTING records, newest first (R709). -/
  times : List Nat := []
  /-- The units the fence charged to it holds (R706, R708). -/
  targets : List Nat := []
  deriving DecidableEq, Repr

/-- One record of the log ring (19 Table 19.11). -/
structure FltRec where
  w0 : Word := 0
  w1 : Word := 0
  w2 : Word := 0
  w3 : Word := 0
  deriving DecidableEq, Repr

/-- The fault block (19 Table 19.9). -/
structure Flt where
  hold : BitVec 8 := 0x0A
  rcen : Bool := true
  win : BitVec 16 := 0x03E8
  n : BitVec 4 := 3
  /-- FLT_AUTO bits [8:1], bit k − 1 here for kind k. -/
  auto : BitVec 8 := 0xFF
  set0 : BitVec 8 := 0
  set1 : BitVec 8 := 0
  link : Vector (BitVec 6) 4 := .replicate 4 0
  st : FltState := .run
  slot : BitVec 5 := 0
  /-- The model's time at which the slot began. -/
  slotAt : Nat := 0
  /-- FLT_FLAG: REC, TRANSIENT, LASTING, SILENT, LIFT, CENSUS, LOGFULL, WWR from bit 0. -/
  flag : BitVec 8 := 0
  ien : BitVec 8 := 0
  silent : Word := 0
  uqKind : BitVec 4 := 0
  uqIndex : BitVec 8 := 0
  newest : BitVec 4 := 0
  unread : BitVec 8 := 0
  log : Vector FltRec 16 := .replicate 16 {}
  /-- Records in the ring, and whether some are not stored yet (R724). -/
  held : Nat := 0
  unstored : Bool := false
  /-- Units by 256 × KIND + INDEX. -/
  units : List (Nat × FltUnit) := []
  /-- The supervisor is held in reset by mechanism 0x05 (R701). -/
  supReset : Bool := false
  /-- The model's time at which that reset began. -/
  supAt : Nat := 0
  /-- Lifted units whose step of Table 19.4 the supervisor has still to take (R712). -/
  steps : List Nat := []
  /-- Links whose re-admission waits for the end of a TSI copy (Table 19.4, 16 Table 16.2). -/
  admMask : BitVec 4 := 0
  /-- No slot of the Roll Call period in hand was silent, for the update's confirmation (20 R744). -/
  periodClean : Bool := true
  deriving DecidableEq, Repr
/-- The interrupt controller (12 Tables 12.6, 12.7). -/
structure Intc where
  /-- Priorities by source; one not listed is 0xF. -/
  pri : List (Nat × BitVec 4) := []
  pend : BitVec 192 := 0
  insv : BitVec 192 := 0
  /-- Claimant of each source in service: 0 the supervisor, 1 + n pin n. -/
  claimant : List (Nat × Nat) := []
  sen : BitVec 192 := 0
  pen : Vector (BitVec 192) 4 := .replicate 4 0
  /-- Thresholds of S and P0–P3. -/
  thr : Vector (BitVec 5) 5 := .replicate 5 0x10
  /-- INTC_PCFGn: CLIENT 7:0, OD 8. -/
  pcfg : Vector (BitVec 9) 4 := .replicate 4 0x100
  /-- INTC_FLAG: WWR, CERR, PSREF from bit 0. -/
  flag : BitVec 3 := 0
  /-- INTC_LASTn, none until a claim was made. -/
  last : Vector (Option (Fin 192)) 4 := .replicate 4 none
  /-- The supervisor's nested handlers, the running one first: source and priority (12, before R476). -/
  handlers : List (Fin 192 × Nat) := []
  /-- IRQn_N asserted, and what its pad carries, a bit per pin (12 R471). -/
  irq : BitVec 4 := 0
  irqPad : BitVec 4 := 0
  deriving DecidableEq, Repr

/-- A write waiting in the host queue (13 R499–R504, 15 R597, 20 R728). -/
structure HpEntry where
  client : Fin 256
  path : Path
  /-- The chip select of an HP write. -/
  cs : Fin 2
  addr : BitVec 20
  data : Word
  /-- The model's time at its decision point (R502). -/
  at_ : Nat := 0
  deriving DecidableEq, Repr

/-- What the port drove in its last transaction (13 Table 13.1): the model's own output record. -/
structure HpResp where
  status : Byte
  data : List Word
  crc : Byte
  deriving DecidableEq, Repr

/-- The host port (13 Table 13.7). -/
structure Hp where
  csen : BitVec 2 := 3
  /-- HP_FLAG: PAR, CRC, BUSY, ABORT, WERR from bit 0. -/
  flag : BitVec 5 := 0
  errClient : Fin 256 := 0
  errCause : BitVec 3 := 0
  errCs : Fin 2 := 0
  errAddr : BitVec 20 := 0
  cntPar : BitVec 16 := 0
  cntCrc : BitVec 16 := 0
  cntAbort : BitVec 16 := 0
  cntBusy : BitVec 16 := 0
  cntWerr : BitVec 16 := 0
  cntMissed : BitVec 16 := 0
  queue : List HpEntry := []
  /-- ABT and WERR of the next status byte, per chip select (R507). -/
  abt : BitVec 2 := 0
  werr : BitVec 2 := 0
  resp : Option HpResp := none
  /-- The model's times at which entries retired in the last cycles (R501, R502). -/
  retired : List Nat := []
  /-- HP_MISO over the last transaction heard, bit by bit, and at last released: each command ends with its chip select
  high (R493, R512). -/
  miso : List Level := [.released]
  deriving DecidableEq, Repr
/-- A state of the frame or multiframe layer (15 Table 15.3). -/
inductive Align | hunt | presync | sync
  deriving DecidableEq, Repr

/-- A frame in a link's elastic store: bytes O2–O15 and S0–S255 (none: a code violation), and whether it came wholly in
frame and multiframe SYNC (15 R575, R576). -/
structure RxFrame where
  bytes : List (Option Byte)
  sync : Bool
  deriving DecidableEq, Repr

/-- What a local frame boundary decided to hand until the next (15 R575). -/
inductive Hand | nothing | again | next | skip
  deriving DecidableEq, Repr

/-- A management message in a link's egress: from a BANK7 buffer, or from one of client 0's two buffers (15 R589, R594). -/
structure MdcMsg where
  client : Fin 256
  buf : Option (Fin 256)
  msgid : BitVec 12
  req : Bool
  payload : List Byte
  deriving DecidableEq, Repr

/-- The outstanding message of a link (15 R590–R593). -/
structure MdcOut where
  msg : MdcMsg
  seq : Bool
  tx : Nat
  /-- TB at B0. -/
  b0 : W48
  /-- Framed length in MDC bytes. -/
  len : Nat
  deriving DecidableEq, Repr

/-- The last message a link delivered (15 R591). -/
structure MdcSeen where
  seq : Bool
  client : Fin 256
  msgid : BitVec 12
  rsp : Bool
  at_ : W48
  deriving DecidableEq, Repr

/-- The frame a link began to send at the last local frame boundary: the model's own output record (15 Table 15.2). -/
structure TxFrame where
  /-- The running disparity before O0, and the frame's number in the multiframe (R564, R565). -/
  rd : Bool
  fn : BitVec 4
  stat : Byte
  bip : Byte
  mdc : List Byte
  idb : Byte
  ack : BitVec 16
  slots : List Byte
  /-- O14 and O15 are silent (R584). -/
  silent : Bool
  deriving DecidableEq, Repr

/-- One harness link (15 Tables 15.9, 15.10). -/
structure Hl where
  en : Bool := false
  mdcsel : BitVec 2 := 0
  sigen : Bool := false
  fenced : Bool := false
  fn : BitVec 4 := 0
  rxinv : Bool := false
  stable : Bool := false
  mfst : Align := .hunt
  fst_ : Align := .hunt
  /-- HL_STAT.DEF: LOS, LOF, LOM, EXC, DEG, RDI from bit 0. -/
  defects : BitVec 6 := 7
  flag : BitVec 15 := 0
  ien : BitVec 15 := 0
  int_ : Word := 0x0032000A
  deg : Word := 0x09A30056
  xch : Word := 0
  bip : Word := 0
  rep : BitVec 16 := 0
  drop : BitVec 16 := 0
  cv : BitVec 16 := 0
  rei : BitVec 16 := 0
  late : BitVec 8 := 0
  giveup : BitVec 8 := 0
  retry : BitVec 8 := 0
  fcs : BitVec 8 := 0
  /-- Last ACK received in SYNC, and the ACK being sent. -/
  ackRx : BitVec 16 := 0
  ackTx : BitVec 16 := 0
  /-- Identity accepted, 16 bytes; empty when none is held. -/
  idrx : List Byte := []
  /-- Commas seen in PRESYNC; consecutive O0 that were not K28.5 (Table 15.3). -/
  preCount : Nat := 0
  badO0 : Nat := 0
  /-- Multiframe PRESYNC: frames seen in place; SYNC: consecutive O1 out of place. -/
  mfCount : Nat := 0
  badO1 : Nat := 0
  /-- Raw LOS now. -/
  rawLos : Bool := true
  /-- STAT[7] of the last frame received in SYNC. -/
  rawRdi : Bool := false
  /-- Raw conditions held at some time in the interval in hand: LOS, OOF, OOM, EXC, RDI. -/
  seen : BitVec 5 := 7
  /-- Consecutive intervals that argue against each defect's present state. -/
  integ : Vector Nat 6 := .replicate 6 0
  /-- Clean intervals towards STABLE (R574). -/
  clean : Nat := 0
  /-- BIP errors of the last checked frames, newest first (EXC), and those to send as REI (R582). -/
  bip4 : List Nat := []
  reiTx : Nat := 0
  /-- BIP the next frame must carry, from the frame before it when that came in SYNC. -/
  bipExp : Option Byte := none
  /-- BIP errors and raw conditions of the second in hand; consecutive bad and good seconds (R578). -/
  secBip : Nat := 0
  secRaw : Bool := true
  /-- Received frames not yet read, oldest first; the decision in force; the frame handed last (R575). -/
  store : List RxFrame := []
  hand : Hand := .nothing
  handing : Bool := false
  last : Option RxFrame := none
  /-- Identity bytes of the multiframe in hand, and those of the multiframe before it (R599). -/
  idCur : List Byte := []
  idPrev : List Byte := []
  /-- Management egress: waiting messages, the outstanding one, SEQ of the next, octets still to send. -/
  mdcq : List MdcMsg := []
  out : Option MdcOut := none
  tseq : Bool := false
  /-- SEQ and MSGID of the message given up last, until its late acknowledgement comes (R593). -/
  gone : Option (Bool × BitVec 12) := none
  mdcOut : List Byte := []
  rseq : Bool := false
  seenMsg : Option MdcSeen := none
  /-- Reply octets of the transaction channel still to send (R598). -/
  xchOut : List Byte := []
  /-- WERR of the transaction channel's next status byte (13 R507, R597). -/
  xwerr : Bool := false
  /-- The running disparity of the transmitter before the next frame: true is positive (R564). -/
  rd : Bool := false
  /-- The slots and overhead being sent. -/
  tx : Option TxFrame := none
  deriving DecidableEq, Repr

/-- A swap request (16 R624). -/
structure Swap where
  admMask : BitVec 4
  /-- Links taken into the swap. -/
  taken : BitVec 4
  /-- TB of the request. -/
  at_ : W48
  deriving DecidableEq, Repr

/-- The time-slot interchange (16 Tables 16.4, 16.5). -/
structure Tsi where
  /-- Connection memory by word offset from 0x0_8000: 512 p + 256 g + s; one not listed is 0, IDLE. -/
  conn : List (Nat × Word) := []
  active : Bool := false
  adm : BitVec 4 := 0xF
  frame : BitVec 8 := 0
  /-- Local frame number in the multiframe (15 R568). -/
  fn : BitVec 4 := 0
  /-- Core cycles since the last local frame boundary, or since PD5 left reset (15 R568). -/
  frameCnt : Nat := 0
  copying : Bool := false
  /-- The model's time at the start of the copy (R623). -/
  copyAt : Nat := 0
  pend : Option Swap := none
  admMask : BitVec 4 := 0
  defers : BitVec 8 := 0
  block : BitVec 4 := 0
  ev : EventRegs := {}
  watch : Word := 0
  werrReason : BitVec 4 := 0
  werrOffset : BitVec 14 := 0
  ivTx : List (Nat × Byte) := []
  /-- IV_RX slots: SUB in bit 8; one past the end of the list is 0. -/
  ivRx : List (BitVec 9) := []
  /-- Bytes each link handed in the frame in hand. -/
  ingress : Vector (List (BitVec 9)) 4 := .replicate 4 []
  deriving DecidableEq, Repr

/-- What the TSI judges at a local frame boundary: itself, the links, the microengine's fence and the clients, as they stood
at the end of the cycle before (16 R614, R616, R632). -/
structure FrameView where
  tsi : Tsi
  hl : Vector Hl 4
  meFenced : Bool
  recs : List (Nat × ClientRec)
  deriving DecidableEq, Repr

/-- SMB_STAT.STATE (18 Table 18.5). -/
inductive SmbState | off | idle | busy | clear | stuck | lasting
  deriving DecidableEq, Repr

/-- A transfer in progress: its SMB_XFER word, who started it, and whether the pack service did. -/
structure SmbXfer where
  word : Word
  owner : Fin 256
  pack : Bool
  deriving DecidableEq, Repr

/-- One SMBus controller (18 Table 18.5). -/
structure Smb where
  speed : Bool := false
  en : Bool := false
  st : SmbState := .off
  /-- A bus check (R683) is to run. -/
  check : Bool := false
  fenced : Bool := false
  scl : Bool := true
  sda : Bool := true
  fails : BitVec 2 := 0
  /-- The model's time at the start of the last bus check, and of the first STUCK counted (R683, R684). -/
  checkAt : Nat := 0
  firstStuck : Nat := 0
  /-- SMB_FLAG: DONE, NACK, TIMEOUT, PECERR, ARBLOST, STUCK, CLEARED, LASTING, WWR, PACK from bit 0. -/
  flag : BitVec 10 := 0
  ien : BitVec 10 := 0
  xfer : Option SmbXfer := none
  code : BitVec 4 := 0
  bytes : BitVec 8 := 0
  clears : BitVec 8 := 0
  tmo : BitVec 8 := 0
  nacks : BitVec 16 := 0
  data : Vector Byte 32 := .replicate 32 0
  owner : Fin 256 := 0
  deriving DecidableEq, Repr

/-- SMB_PSTAT.STATE (18 Table 18.6). -/
inductive PackState | off | reading | authing | ready | noPack | busFault
  deriving DecidableEq, Repr

/-- Where the pack service stands: a place in the swap read, in the poll, or in the authentication (R676, R679). -/
inductive PackStep
  | swap (i : Nat) | poll (i : Nat) | auth (i : Nat)
  deriving DecidableEq, Repr

/-- What the pack service waits for. -/
inductive PackWait | nothing | bus | retry | auth
  deriving DecidableEq, Repr

/-- The pack service (18 Table 18.6). -/
structure Pack where
  /-- SMB_PCFG: EN 0, AUTH 1, HLSWAP 2, KEYEN 7:4, AUTHCMD 15:8, POLL 23:16, AUTHWAIT 31:24. -/
  cfg : Word := 0x32052F04
  st : PackState := .off
  auth : BitVec 4 := 0
  reason : BitVec 4 := 0
  key : BitVec 2 := 0
  swaps : BitVec 8 := 0
  pseq : BitVec 8 := 0
  serial : BitVec 16 := 0
  date : BitVec 16 := 0
  descap : BitVec 16 := 0
  desvolt : BitVec 16 := 0
  name : List Byte := []
  voltage : BitVec 16 := 0
  current : BitVec 16 := 0
  temp : BitVec 16 := 0
  status : BitVec 16 := 0
  full : BitVec 16 := 0
  rem : BitVec 16 := 0
  cycles : BitVec 16 := 0
  rsoc : Byte := 0
  time : Word := 0
  /-- Key bytes: byte b of key k at 32 k + b; one not listed is 0. -/
  keys : List (Nat × Byte) := []
  step : Option PackStep := none
  wait : PackWait := .nothing
  /-- The model's time at the start of that wait, and of the last poll or read (R678, R679, R682). -/
  waitAt : Nat := 0
  pollAt : Nat := 0
  /-- A result that came while the supervisor was in reset (19 R701). -/
  held : Option (Nat × List Byte) := none
  /-- A swap read is to start when the transaction in progress ends (R677). -/
  again : Bool := false
  attempts : Nat := 0
  authTries : Nat := 0
  chal : List Byte := []
  sig : List Byte := []
  /-- Results of a poll in hand, in the order of Table 18.2. -/
  got : List Word := []
  deriving DecidableEq, Repr

/-- One management serial port (18 Table 18.7). -/
structure Msp where
  div : BitVec 16 := 0x00D8
  flow : Bool := false
  en : Bool := false
  rts : Bool := true
  cts : Bool := true
  /-- MSP_FLAG: RXFRAME, RXDROP, RXLONG, FERR, UNBOUND, TXFRAME, TXDROP, DUPSEL, WWR from bit 0. -/
  flag : BitVec 9 := 0
  ien : BitVec 9 := 0
  rxFrames : BitVec 16 := 0
  rxDrops : BitVec 16 := 0
  txFrames : BitVec 16 := 0
  txDrops : BitVec 16 := 0
  rx : List Byte := []
  /-- Octets of the frame being received that are in the FIFO, and whether the frame is being discarded. -/
  rxHeld : Nat := 0
  rxBad : Bool := false
  tx : List Byte := []
  /-- Octets up to the next flag are discarded (R689). -/
  txBad : Bool := false
  /-- Octets of the frame being placed since its opening flag. -/
  txHeld : Nat := 0
  /-- The model's time at which the transmitter has sent its last octet. -/
  txFree : Nat := 0
  deriving DecidableEq, Repr
/-- UPD_STAT.STATE (20 Table 20.16). -/
inductive UpdState | idle | receiving | programming | verifying | verified | trial | resumable | nodes | error
  deriving DecidableEq, Repr

/-- Progress CFGTRIAL (20 Table 20.11). -/
inductive CfgTrial | none | armed | started
  deriving DecidableEq, Repr

/-- Where a link of a node campaign stands (20 R753). -/
inductive CampPhase | start | data | end_ | act | boot
  deriving DecidableEq, Repr

/-- The node campaign in hand (20 R750–R754). -/
structure Campaign where
  link : Fin 4
  phase : CampPhase
  offset : Nat
  /-- Times a NU_DATA message was sent again, and times NU_END was answered 6. -/
  resends : Nat := 0
  ends : Nat := 0
  /-- MSGID of the message in hand, and whether the link has still to report it acknowledged (R751). -/
  msg : BitVec 12 := 0
  inFlight : Bool := false
  /-- The model's time of the acknowledgement, or of the start of the node's restart (R751, R753). -/
  at_ : Nat := 0
  /-- What the agent has still to take: the acknowledgement, the message's loss, a change of the node's identity. -/
  acked : Bool := false
  lost : Bool := false
  idChg : Bool := false
  deriving DecidableEq, Repr

/-- The update agent (20 Table 20.16, R735–R765). -/
structure Upd where
  nuboot : BitVec 8 := 0x0A
  hostOk : Bool := false
  win : BitVec 16 := 0x003C
  buf : List Word := []
  st : UpdState := .idle
  kind : BitVec 2 := 0
  owner : Option (Fin 256) := none
  confReq : Bool := false
  next : Nat := 0
  nblk : Nat := 0
  errCode : BitVec 8 := 0
  errInner : BitVec 8 := 0
  errBlock : BitVec 10 := 0
  /-- UPD_FLAG: DONE, ERR, CONFIRMED, FALLBACK, NODEDONE, NODEERR, WWR from bit 0. -/
  flag : BitVec 7 := 0
  ien : BitVec 7 := 0
  /-- The model's time at which the confirmation window runs out; in PARK, how long it has still to run (R743). -/
  winEnd : Nat := 0
  /-- The agent has set STATE since the last reset (R765). -/
  begun : Bool := false
  /-- Commands that wait for the end of a clock fault or for the supervisor's restart: client, OP, BLK (R762; 19 R701). -/
  waits : List (Fin 256 × Nat × Nat) := []
  node : Vector (BitVec 4) 4 := .replicate 4 0
  /-- Block 0 of the update in hand. -/
  head : List Byte := []
  hdig : BitVec 256 := 0
  /-- Slot or copy the image goes to. -/
  target : Bool := false
  /-- The block being programmed, and attempts made at its sector (R738). -/
  block : List Byte := []
  tries : Nat := 0
  abortPend : Bool := false
  confWin : BitVec 16 := 0
  flags : BitVec 8 := 0
  seq : Word := 0
  cfgTrial : CfgTrial := .none
  cfgCopy : Bool := false
  /-- A confirmation window runs (R743). -/
  window : Bool := false
  /-- Consecutive Roll Call periods without a silent slot, up to 100. -/
  periods : Nat := 0
  /-- FLT classed a record LASTING since the start. -/
  lasting : Bool := false
  camp : Option Campaign := none
  /-- MSGIDs in turn from 0x800 (R751). -/
  nextMsg : BitVec 12 := 0x800
  /-- FWVER of each link's node when it was judged (R754). -/
  fw : Vector (BitVec 16) 4 := .replicate 4 0
  /-- A node's response not yet taken: link, MSGID, payload. -/
  nodeResp : Option (Fin 4 × BitVec 12 × List Byte) := none
  deriving DecidableEq, Repr

/-- The service port (20 Table 20.17, R725–R733). -/
structure Svc where
  open_ : Bool := false
  issuer : Bool := false
  window : Bool := false
  rom : Bool := false
  /-- The model's time at which DURATION has elapsed (R733). -/
  endAt : Nat := 0
  hold : Vector Word 4 := .replicate 4 0
  chal : Option (List Byte) := none
  /-- SVC_FLAG: CRC, OPENED, CLOSED, REFUSED from bit 0. -/
  flag : BitVec 4 := 0
  ien : BitVec 4 := 0
  frames : BitVec 16 := 0
  crcErr : BitVec 16 := 0
  /-- A RESET was answered and takes effect 1 ms later (R729). -/
  resetPend : Bool := false
  /-- The model's time at which it was answered. -/
  resetAt : Nat := 0
  /-- The model's time of the last valid frame (R733). -/
  lastAt : Nat := 0
  /-- What the port answered last: the model's own output record. -/
  resp : List Byte := []
  deriving DecidableEq, Repr
/-- A capture made in the core cycle in hand, with what stood before it (04 R158, R159). -/
structure Captured where
  chan : Fin 64
  sw : Bool
  cap : W48
  /-- CH_FLAG.OVR and OVRCNT before the capture. -/
  ovr : Bool
  ovrCnt : BitVec 8
  deriving DecidableEq, Repr

/-- What has happened in the core cycle in hand, for the rules on events that meet in one cycle (00 R9, R10). The next
cycle empties it; no register of the device. -/
structure Cycle where
  /-- Bits hardware set in write-1-to-clear registers, by register address (00 R9). -/
  fresh : List (Nat × Word) := []
  /-- Cause of a reset taken in this cycle (03 R111). -/
  reset : Option (Fin 16) := none
  /-- An enabled wake source was latched (03 R113). -/
  woke : Bool := false
  /-- Lockable registers written, with what they held before (02 R67). -/
  rwl : List (Nat × Word) := []
  /-- Channels a stop or a fence stopped: they count as running in this cycle (04 R129, R162). -/
  stopped : List (Fin 64) := []
  /-- Match values replaced by a commit; this cycle still compares the old one (04 R161). -/
  mats : List (Fin 64 × Fin 4 × W48) := []
  captures : List Captured := []
  /-- A snapshot of TB was taken (04 R165). -/
  snapped : Bool := false
  /-- Channels whose head took its place in this cycle: compared from the next (05 R174). -/
  heads : List (Fin 64) := []
  /-- Outputs as they stood before a firing, and slots that firings freed (05 R204, R205). -/
  fired : List (Fin 64 × Output) := []
  freed : List (Fin 64 × Fin 8) := []
  /-- Shadows loaded, and groves whose ARM was set: no part in a transfer of this cycle (05 R203). -/
  shadows : List (Fin 64 × Fin 8) := []
  armed : List (Fin 8) := []
  /-- Channels that took the tick of a link pulse in this cycle (05 R206). -/
  ticked : List (Fin 64) := []
  /-- Channels of which a command released a Clearing cause: it counts from the next VALLEY tick (05 R199). -/
  released : List (Fin 64) := []
  /-- Calendar heaps that have moved an entry to READY in this cycle, by KEYSEL (07 R268). -/
  moved : List (BitVec 2) := []
  /-- Handles selected for dispatch in this cycle (07 R301). -/
  selected : List Nat := []
  /-- The handle a SCHED of this cycle took as the last free ordinary one (07 R305). -/
  lastFree : Option Nat := none
  /-- Domains that left LOCKED or entered LOST in this cycle, as they stood before it (06 R255). -/
  exits : List (Fin 3 × AngleDom) := []
  /-- TX FIFOs that have taken a word, with its source's rank, and RX FIFOs that a tick put a word into (09 R379–R381). -/
  txNew : List (Fin 8 × Nat) := []
  rxNew : List (Fin 8) := []
  /-- Sequencers enabled, as they stood before (09 R359). -/
  claims : List (Fin 8 × PinSeq) := []
  /-- ITRIP latches that AFE_ITCMD cleared, and ADCs that latched a trigger (10 R415, R418). -/
  itClr : List (Fin 6) := []
  adcTrig : List (Fin 2) := []
  /-- Banks whose port has made its grant of this cycle (11 R429). -/
  ports : List (Fin 8) := []
  /-- DMA channels disabled, as they stood before, and channels that an error stopped (11 R450, R455). -/
  dmaOff : List (Fin 8 × DmaChan) := []
  dmaErr : List (Fin 8) := []
  /-- Interrupt sources made pending, sources that INTC_PSET named, and the INTC as it stood before a write to its priorities,
  enables or thresholds (12 R465, R482–R484). -/
  pended : BitVec 192 := 0
  pset : BitVec 192 := 0
  intcWas : Option Intc := none
  /-- Registers that a queued write retired to, and what they held before (13 R513). -/
  hpWas : List (Nat × Word) := []
  /-- Records written or restored, as they stood at the start of the cycle, and clients whose fence took effect in it
  (14 R558, R559). -/
  recs : List (Nat × ClientRec) := []
  cut : List (Fin 256) := []
  /-- Events admitted, responses received and messages of links to give up, all settled at the end of the cycle
  (14 R556, R557; 15 R603, R604). A give-up's second part says that an acknowledgement came in the cycle. -/
  admits : List Posted := []
  responses : List Response := []
  giveups : List (Fin 4 × Bool) := []
  /-- Units with a record of this cycle, and units whose fence is to be lifted at its end, by FLT_CMD READMIT (true) or by a
  clean slot (19 R718, R719). -/
  recorded : List Nat := []
  lifts : List (Nat × Bool) := []
  /-- The millisecond of run time of this cycle was counted (17 R640). -/
  runMs : Bool := false
  /-- This cycle is one of a local frame boundary: what the cycle before left (16 R614, R616). -/
  bound : Option FrameView := none
  deriving DecidableEq, Repr

/-- The state of the whole block. -/
structure State where
  boot : Boot := {}
  xf : Flash := {}
  otp : Otp := {}
  pwr : Power := {}
  canopy : Canopy := {}
  tbs : Timebase := {}
  chans : Vector Chan 64 := .replicate 64 {}
  groves : Vector Grove 8 := .replicate 8 {}
  ads : Vector AngleDom 3 := .replicate 3 {}
  pls : Vector Checker 2 := .replicate 2 {}
  tt : Timetable := {}
  me : MicroEngine := {}
  ps : PinSeqs := {}
  afe : Afe := {}
  sc : Seating := {}
  mem : Mem := {}
  cw : Vector CircWin 16 := .replicate 16 {}
  dma : Vector DmaChan 8 := .replicate 8 {}
  intc : Intc := {}
  hp : Hp := {}
  hl : Vector Hl 4 := .replicate 4 {}
  tsi : Tsi := {}
  smb : Vector Smb 2 := .replicate 2 {}
  pack : Pack := {}
  msp : Vector Msp 2 := .replicate 2 {}
  flt : Flt := {}
  upd : Upd := {}
  svc : Svc := {}
  pm : Perf := {}
  rs : RecStore := {}
  pins : Pins := {}
  /-- Reports on their way to FLT (19 R700). -/
  reports : List Report := []
  /-- The value the last register read answered: the model's own output record. (DESIGN CHOICE, log 6.) -/
  rdata : Word := 0
  /-- Time in core-clock periods of 5 ns, whether or not the core clock runs: the real-time clock follows it (03 R74).
  (DESIGN CHOICE, log 92.) -/
  time : Nat := 0
  /-- What the core cycle in hand has done. (DESIGN CHOICE, log 92.) -/
  cyc : Cycle := {}
  /-- How many free values have been taken. (DESIGN CHOICE, log 8.) -/
  freeCtr : Nat := 0
  /-- The commands that wait, first in first out. -/
  pending : List Instr := []
  deriving DecidableEq, Repr

/-- Where the machine stops with a fault. -/
inductive Fault
  /-- A bank port access at an address no bank or aperture has (raised by BANK_ACCESS_GRANT; the operand names an address
  that does not exist). Safe: the device has no such access. -/
  | noAddress
  deriving DecidableEq, Repr

/-- Why a command has no meaning. -/
inductive Refusal
  /-- The model does not give the command a meaning (raised by a refused arm of exec). Safe. -/
  | notModelled (mnemonic : String)
  deriving DecidableEq, Repr

/-- The machine right after reset: CANOPY_POR with the pins at their unconnected levels (03 Table 3.9), every field at
the reset value the spec states or the log names; nothing waits. -/
def State.reset : State := {}

end Sys2Proof.Machine
end

