-- ==== Sys2Proof/Machine/Flags.lean ====
section
/-!
DEFINITION. Machine/Flags.lean: the microengine's flags, its arithmetic and logic, and the branch conditions (08, "what an
instruction sees", R323, R324, Table 8.8).
-/
namespace Sys2Proof.Machine

/-- The four flags of a window. -/
structure Flags where
  n : Bool
  z : Bool
  c : Bool
  v : Bool
  deriving DecidableEq, Repr

/-- Flags as a window holds them: N, Z, C, V in bits 3 to 0 (07 Table 7.5). -/
def Flags.ofBits (f : BitVec 4) : Flags := { n := bit f 3, z := bit f 2, c := bit f 1, v := bit f 0 }
def Flags.bits (f : Flags) : BitVec 4 := BitVec.ofNat 4 (8 * b2n f.n + 4 * b2n f.z + 2 * b2n f.c + b2n f.v)

/-- Z and N from a result; C and V stay. -/
def Flags.zn (f : Flags) (r : Word) : Flags := { f with n := r.msb, z := decide (r = 0) }

/-- A value and the flags after it. -/
structure AluRes where
  value : Word
  flags : Flags
  deriving DecidableEq, Repr

/-- The operations of Table 8.3. -/
inductive AluOp
  | add | adc | sub | sbc | and | or | xor | andn | shl | shr | sar | mul | mulhu | divu | remu | minu | maxu | cmp | tst | mov
  deriving DecidableEq, Repr

/-- Logic, moves and products: Z and N only. -/
def logicRes (f : Flags) (r : Word) : AluRes := { value := r, flags := f.zn r }

/-- a + b + cin, with the carry out of bit 31 and the signed overflow. -/
def addRes (f : Flags) (a b : Word) (cin : Bool) : AluRes :=
  let r := a + b + BitVec.ofNat 32 (b2n cin)
  { value := r
    flags := { f.zn r with
      c := decide (2 ^ 32 ≤ a.toNat + b.toNat + b2n cin), v := a.msb == b.msb && r.msb != a.msb } }

/-- a − b − bin: C is 1 when no borrow occurs, judged in 33 bits; V when a and b differ in sign and r has the sign of b. -/
def subRes (f : Flags) (a b : Word) (bin : Bool) : AluRes :=
  let r := a - b - BitVec.ofNat 32 (b2n bin)
  { value := r
    flags := { f.zn r with
      c := decide (b.toNat + b2n bin ≤ a.toNat), v := a.msb != b.msb && r.msb == b.msb } }

/-- A shift by n, with C the last bit shifted out; a shift by 0 leaves C. -/
def shiftRes (f : Flags) (r : Word) (n : Nat) (out : Bool) : AluRes :=
  { value := r, flags := { f.zn r with c := if n = 0 then f.c else out } }

/-- The ALU of Table 8.3. CMP and TST compute what they compare; nothing is written from it. -/
def alu (op : AluOp) (f : Flags) (a b : Word) : AluRes :=
  let n := b.toNat % 32
  match op with
  | .add => addRes f a b false
  | .adc => addRes f a b f.c
  | .sub => subRes f a b false
  | .sbc => subRes f a b !f.c
  | .and => logicRes f (a &&& b)
  | .or => logicRes f (a ||| b)
  | .xor => logicRes f (a ^^^ b)
  | .andn => logicRes f (a &&& ~~~b)
  | .shl => shiftRes f (a <<< n) n (bit a (32 - n))
  | .shr => shiftRes f (a >>> n) n (bit a (n - 1))
  | .sar => shiftRes f (a.sshiftRight n) n (bit a (n - 1))
  | .mul => logicRes f (a * b)
  | .mulhu => logicRes f (BitVec.ofNat 32 (a.toNat * b.toNat / 2 ^ 32))
  | .divu => if b = 0 then { value := 0xFFFFFFFF, flags := { f.zn 0xFFFFFFFF with v := true } }
      else { value := a / b, flags := { f.zn (a / b) with v := false } }
  | .remu => if b = 0 then { value := a, flags := { f.zn a with v := true } }
      else { value := a % b, flags := { f.zn (a % b) with v := false } }
  | .minu => logicRes f (if a.toNat < b.toNat then a else b)
  | .maxu => logicRes f (if a.toNat < b.toNat then b else a)
  | .cmp => subRes f a b false
  | .tst => logicRes f (a &&& b)
  | .mov => logicRes f a

/-- CMP and TST write no register (08 R323). -/
def AluOp.writes : AluOp → Bool
  | .cmp => false
  | .tst => false
  | _ => true

/-- Table 8.8; condition 15 is reserved. -/
def condHolds (cond : Fin 16) (f : Flags) : Bool :=
  match cond.val with
  | 0 => true
  | 1 => f.z
  | 2 => !f.z
  | 3 => f.c
  | 4 => !f.c
  | 5 => f.n
  | 6 => !f.n
  | 7 => f.v
  | 8 => !f.v
  | 9 => f.c && !f.z
  | 10 => !f.c || f.z
  | 11 => f.n == f.v
  | 12 => f.n != f.v
  | 13 => !f.z && f.n == f.v
  | 14 => f.z || f.n != f.v
  | _ => false

end Sys2Proof.Machine
end

