-- ==== Sys2Proof/Machine/Codes.lean ====
section
/-!
DEFINITION. Machine/Codes.lean: the check codes of the device: CRC-8 (13 R510), FCS-16 (15 R588), CRC-32C (02, after
Table 2.7), octet stuffing (15 R587), and the 8b/10b line code (15 R564).
-/
namespace Sys2Proof.Machine

/-- One bit of a code shifted left through n bits. -/
def crcLeft {n : Nat} (poly : BitVec n) (r : BitVec n) : BitVec n := if r.msb then (r <<< 1) ^^^ poly else r <<< 1
/-- One bit of a reflected code. -/
def crcRight {n : Nat} (poly : BitVec n) (r : BitVec n) : BitVec n := if r.getLsbD 0 then (r >>> 1) ^^^ poly else r >>> 1

def iter8 {α : Type} (f : α → α) (x : α) : α := f (f (f (f (f (f (f (f x)))))))

/-- CRC-8: polynomial 0x07, initial value 0x00, no reflection (13 R510). -/
def crc8 (bs : List Byte) : Byte := bs.foldl (fun r b => iter8 (crcLeft 0x07) (r ^^^ b)) 0

/-- The FCS of ISO/IEC 13239: polynomial 0x1021 reflected, initial value 0xFFFF, complemented (15 R588). -/
def fcs16 (bs : List Byte) : BitVec 16 :=
  ~~~(bs.foldl (fun r b => iter8 (crcRight 0x8408) (r ^^^ b.setWidth 16)) 0xFFFF)

/-- CRC-32C: polynomial 0x1EDC6F41 reflected, initial value and final XOR 0xFFFF_FFFF (02). -/
def crc32c (bs : List Byte) : Word :=
  ~~~(bs.foldl (fun r b => iter8 (crcRight 0x82F63B78) (r ^^^ b.setWidth 32)) 0xFFFFFFFF)

/-- Octets escaped inside a frame (15 R587). -/
def stuff (bs : List Byte) : List Byte :=
  bs.flatMap fun b => if b = 0x7E ∨ b = 0x7D then [0x7D, b ^^^ 0x20] else [b]

/-- The octets of a framed message: flag, escaped contents with their FCS, flag (15 R587, R588). -/
def framed (bs : List Byte) : List Byte := 0x7E :: stuff (bs ++ leBytes 2 (fcs16 bs).toNat) ++ [0x7E]

/-- The XOR of a run of bytes. -/
def xorBytes (bs : List Byte) : Byte := bs.foldl (· ^^^ ·) 0
/-- How many bits are set. -/
def popCount (b : Byte) : Nat := ((List.range 8).filter fun i => b.getLsbD i).length

/-! ## The 8b/10b code (15 R564; PRESUMED, log 110) -/

/-- The sub-blocks abcdei at negative disparity, bit a first, for the values 0–31 of the low five bits. (PRESUMED, log 110.) -/
def code6 : List (BitVec 6) :=
  [0b100111, 0b011101, 0b101101, 0b110001, 0b110101, 0b101001, 0b011001, 0b111000, 0b111001, 0b100101, 0b010101, 0b110100,
   0b001101, 0b101100, 0b011100, 0b010111] ++
  [0b011011, 0b100011, 0b010011, 0b110010, 0b001011, 0b101010, 0b011010, 0b111010, 0b110011, 0b100110, 0b010110, 0b110110,
   0b001110, 0b101110, 0b011110, 0b101011]
/-- The sub-blocks fghj at negative disparity for the values 0–7 of the high three bits, of data and of control
characters. (PRESUMED, log 110.) -/
def code4 (k : Bool) : List (BitVec 4) :=
  if k then [0b1011, 0b0110, 0b1010, 0b1100, 0b1101, 0b0101, 0b1001, 0b0111]
  else [0b1011, 0b1001, 0b0101, 0b1100, 0b1101, 0b1010, 0b0110, 0b1110]

/-- As many ones as zeros. -/
def balanced {n : Nat} (c : BitVec n) : Bool := decide (2 * ((List.range n).filter fun i => c.getLsbD i).length = n)
/-- A sub-block at the running disparity `rd`, true for positive; `alt` says that it has two forms. -/
def subBlock {n : Nat} (c : BitVec n) (alt rd : Bool) : BitVec n × Bool :=
  (if rd && (alt || !balanced c) then ~~~c else c, if balanced c then rd else !rd)

/-- One character, bit a in bit 9, and the running disparity after it (15 R564). (PRESUMED, log 110.) -/
def enc8b10b (k : Bool) (b : Byte) (rd : Bool) : BitVec 10 × Bool :=
  let x := b.toNat % 32
  let y := b.toNat / 32
  let p := subBlock (if k then 0b001111 else code6.getD x 0) (!k && decide (x = 7)) rd
  let a7 := !k && decide (y = 7) && (if p.2 then [11, 13, 14].contains x else [17, 18, 20].contains x)
  let q := subBlock (if a7 then 0b0111 else (code4 k).getD y 0) (k || decide (y = 3)) p.2
  (p.1 ++ q.1, q.2)

/-- The characters of a run, none where the line is silent, which keeps the disparity (15 R564, R584). -/
def encodeRun : List (Option (Bool × Byte)) → Bool → List (Option (BitVec 10)) × Bool
  | [], rd => ([], rd)
  | none :: cs, rd => let r := encodeRun cs rd; (none :: r.1, r.2)
  | some c :: cs, rd => let e := enc8b10b c.1 c.2 rd; let r := encodeRun cs e.2; (some e.1 :: r.1, r.2)

end Sys2Proof.Machine
end

