-- ==== Sys2Proof/Machine/Crypto.lean ====
section
/-!
DEFINITION. Machine/Crypto.lean: the published algorithms the spec names: the SHA-256 digest and pure Ed25519 of RFC 8032
(00 R6; 02 R56). (PRESUMED, log 9.)
-/
namespace Sys2Proof.Machine

/-! ## SHA-256 and SHA-512 -/

/-- What a member of the SHA-2 family fixes: its word, its rounds, its rotations and its constants. -/
structure Sha2 where
  /-- Bits of a word. -/
  w : Nat
  rounds : Nat
  /-- The rotations and the shift of the two schedule functions, and the rotations of the two round functions. -/
  s0 : Nat × Nat × Nat
  s1 : Nat × Nat × Nat
  e0 : Nat × Nat × Nat
  e1 : Nat × Nat × Nat
  k : List Nat
  init : List Nat

/-- Rotate a word right. -/
def Sha2.rotr (h : Sha2) (x n : Nat) : Nat := (x >>> n) ||| ((x <<< (h.w - n)) % 2 ^ h.w)
/-- A schedule function: two rotations and a shift. -/
def Sha2.small (h : Sha2) (r : Nat × Nat × Nat) (x : Nat) : Nat := h.rotr x r.1 ^^^ h.rotr x r.2.1 ^^^ (x >>> r.2.2)
/-- A round function: three rotations. -/
def Sha2.big (h : Sha2) (r : Nat × Nat × Nat) (x : Nat) : Nat := h.rotr x r.1 ^^^ h.rotr x r.2.1 ^^^ h.rotr x r.2.2

/-- One round over the eight working words: Ch, Maj and the two sums. -/
def Sha2.round (h : Sha2) (v : List Nat) (kw : Nat) : List Nat :=
  match v with
  | [a, b, c, d, e, f, g, y] =>
    let m := 2 ^ h.w
    let ch := (e &&& f) ^^^ ((m - 1 - e) &&& g)
    let maj := (a &&& b) ^^^ (a &&& c) ^^^ (b &&& c)
    let t1 := (y + h.big h.e1 e + ch + kw) % m
    let t2 := (h.big h.e0 a + maj) % m
    [(t1 + t2) % m, a, b, c, (d + t1) % m, e, f, g]
  | _ => v

/-- Rounds over the constants left, with the sixteen schedule words in hand, the oldest first. -/
def Sha2.run (h : Sha2) : List Nat → List Nat → List Nat → List Nat
  | [], _, v => v
  | k :: ks, sched, v =>
    match sched with
    | [] => v
    | x :: rest =>
      let next := (h.small h.s1 (rest.getD 13 0) + rest.getD 8 0 + h.small h.s0 (rest.getD 0 0) + x) % 2 ^ h.w
      Sha2.run h ks (rest ++ [next]) (h.round v ((k + x) % 2 ^ h.w))

/-- The number a run of bytes spells, most significant first. -/
def beNat (bs : List Byte) : Nat := bs.foldl (fun a b => 256 * a + b.toNat) 0

/-- A list cut into pieces of n elements, at most `fuel` of them. -/
def pieces {α : Type} (n : Nat) : Nat → List α → List (List α)
  | 0, _ => []
  | fuel + 1, xs => if xs.isEmpty then [] else xs.take n :: pieces n fuel (xs.drop n)

/-- The message with its padding: 0x80, zeros, the length in bits in two words. -/
def Sha2.padded (h : Sha2) (msg : List Byte) : List Byte :=
  let block := 2 * h.w
  let fill := (2 * block - (msg.length + 1 + h.w / 4) % block) % block
  msg ++ [0x80] ++ List.replicate fill 0 ++ (leBytes (h.w / 4) (8 * msg.length)).reverse

/-- The chaining value after one block. -/
def Sha2.block (h : Sha2) (v : List Nat) (b : List Byte) : List Nat :=
  let ws := (pieces (h.w / 8) 16 b).map beNat
  List.zipWith (fun x y => (x + y) % 2 ^ h.w) v (h.run h.k ws v)

/-- The digest, as one number with its first byte the most significant. -/
def Sha2.digest (h : Sha2) (msg : List Byte) : Nat :=
  let p := h.padded msg
  ((pieces (2 * h.w) (p.length / (2 * h.w)) p).foldl h.block h.init).foldl (fun a x => 2 ^ h.w * a + x) 0

/-- The round constants of SHA-512: the fractions of the cube roots of the first eighty primes. -/
def sha512K : List Nat :=
  [0x428A2F98D728AE22, 0x7137449123EF65CD, 0xB5C0FBCFEC4D3B2F, 0xE9B5DBA58189DBBC,
   0x3956C25BF348B538, 0x59F111F1B605D019, 0x923F82A4AF194F9B, 0xAB1C5ED5DA6D8118,
   0xD807AA98A3030242, 0x12835B0145706FBE, 0x243185BE4EE4B28C, 0x550C7DC3D5FFB4E2,
   0x72BE5D74F27B896F, 0x80DEB1FE3B1696B1, 0x9BDC06A725C71235, 0xC19BF174CF692694] ++
  [0xE49B69C19EF14AD2, 0xEFBE4786384F25E3, 0x0FC19DC68B8CD5B5, 0x240CA1CC77AC9C65,
   0x2DE92C6F592B0275, 0x4A7484AA6EA6E483, 0x5CB0A9DCBD41FBD4, 0x76F988DA831153B5,
   0x983E5152EE66DFAB, 0xA831C66D2DB43210, 0xB00327C898FB213F, 0xBF597FC7BEEF0EE4,
   0xC6E00BF33DA88FC2, 0xD5A79147930AA725, 0x06CA6351E003826F, 0x142929670A0E6E70] ++
  [0x27B70A8546D22FFC, 0x2E1B21385C26C926, 0x4D2C6DFC5AC42AED, 0x53380D139D95B3DF,
   0x650A73548BAF63DE, 0x766A0ABB3C77B2A8, 0x81C2C92E47EDAEE6, 0x92722C851482353B,
   0xA2BFE8A14CF10364, 0xA81A664BBC423001, 0xC24B8B70D0F89791, 0xC76C51A30654BE30,
   0xD192E819D6EF5218, 0xD69906245565A910, 0xF40E35855771202A, 0x106AA07032BBD1B8] ++
  [0x19A4C116B8D2D0C8, 0x1E376C085141AB53, 0x2748774CDF8EEB99, 0x34B0BCB5E19B48A8,
   0x391C0CB3C5C95A63, 0x4ED8AA4AE3418ACB, 0x5B9CCA4F7763E373, 0x682E6FF3D6B2B8A3,
   0x748F82EE5DEFB2FC, 0x78A5636F43172F60, 0x84C87814A1F0AB72, 0x8CC702081A6439EC,
   0x90BEFFFA23631E28, 0xA4506CEBDE82BDE9, 0xBEF9A3F7B2C67915, 0xC67178F2E372532B] ++
  [0xCA273ECEEA26619C, 0xD186B8C721C0C207, 0xEADA7DD6CDE0EB1E, 0xF57D4F7FEE6ED178,
   0x06F067AA72176FBA, 0x0A637DC5A2C898A6, 0x113F9804BEF90DAE, 0x1B710B35131C471B,
   0x28DB77F523047D84, 0x32CAAB7B40C72493, 0x3C9EBE0A15C9BEBC, 0x431D67C49C100D4C,
   0x4CC5D4BECB3E42B6, 0x597F299CFC657E2A, 0x5FCB6FAB3AD6FAEC, 0x6C44198C4A475817]

/-- The round constants of SHA-256: the fractions of the cube roots of the first sixty-four primes. -/
def sha256K : List Nat :=
  [0x428A2F98, 0x71374491, 0xB5C0FBCF, 0xE9B5DBA5, 0x3956C25B, 0x59F111F1, 0x923F82A4, 0xAB1C5ED5,
   0xD807AA98, 0x12835B01, 0x243185BE, 0x550C7DC3, 0x72BE5D74, 0x80DEB1FE, 0x9BDC06A7, 0xC19BF174] ++
  [0xE49B69C1, 0xEFBE4786, 0x0FC19DC6, 0x240CA1CC, 0x2DE92C6F, 0x4A7484AA, 0x5CB0A9DC, 0x76F988DA,
   0x983E5152, 0xA831C66D, 0xB00327C8, 0xBF597FC7, 0xC6E00BF3, 0xD5A79147, 0x06CA6351, 0x14292967] ++
  [0x27B70A85, 0x2E1B2138, 0x4D2C6DFC, 0x53380D13, 0x650A7354, 0x766A0ABB, 0x81C2C92E, 0x92722C85,
   0xA2BFE8A1, 0xA81A664B, 0xC24B8B70, 0xC76C51A3, 0xD192E819, 0xD6990624, 0xF40E3585, 0x106AA070] ++
  [0x19A4C116, 0x1E376C08, 0x2748774C, 0x34B0BCB5, 0x391C0CB3, 0x4ED8AA4A, 0x5B9CCA4F, 0x682E6FF3,
   0x748F82EE, 0x78A5636F, 0x84C87814, 0x8CC70208, 0x90BEFFFA, 0xA4506CEB, 0xBEF9A3F7, 0xC67178F2]

/-- SHA-256. -/
def sha256H : Sha2 :=
  { w := 32, rounds := 64, s0 := (7, 18, 3), s1 := (17, 19, 10), e0 := (2, 13, 22), e1 := (6, 11, 25), k := sha256K
    init := [0x6A09E667, 0xBB67AE85, 0x3C6EF372, 0xA54FF53A,
      0x510E527F, 0x9B05688C, 0x1F83D9AB, 0x5BE0CD19] }

/-- SHA-512. -/
def sha512H : Sha2 :=
  { w := 64, rounds := 80, s0 := (1, 8, 7), s1 := (19, 61, 6), e0 := (28, 34, 39), e1 := (14, 18, 41), k := sha512K
    init := [0x6A09E667F3BCC908, 0xBB67AE8584CAA73B, 0x3C6EF372FE94F82B, 0xA54FF53A5F1D36F1,
      0x510E527FADE682D1, 0x9B05688C2B3E6C1F, 0x1F83D9ABFB41BD6B, 0x5BE0CD19137E2179] }

/-- The SHA-256 digest of a byte string, first byte most significant (00 R6). (PRESUMED, log 9.) -/
def sha256 (msg : List Byte) : BitVec 256 := .ofNat 256 (sha256H.digest msg)

/-! ## Ed25519 (RFC 8032) -/

/-- The field's prime, the curve's constant, and the order of the base point. -/
def edP : Nat := 2 ^ 255 - 19
def edD : Nat := 0x52036CEE2B6FFE738CC740797779E89800700A4D4141D8AB75EB4DCA135978A3
def edL : Nat := 2 ^ 252 + 27742317777372353535851937790883648493

/-- b^e modulo edP, with the bits of e taken from the lowest, `fuel` of them. -/
def edPow : Nat → Nat → Nat → Nat
  | 0, _, _ => 1
  | fuel + 1, b, e => let r := edPow fuel (b * b % edP) (e / 2)
                      if e % 2 = 1 then r * b % edP else r

/-- A point in extended coordinates: x = X/Z, y = Y/Z, x y = T/Z. -/
structure EdPoint where
  x : Nat
  y : Nat
  z : Nat
  t : Nat
  deriving DecidableEq, Repr

/-- The sum of two points; it holds for equal points as well. -/
def EdPoint.add (p q : EdPoint) : EdPoint :=
  let a := (p.y + edP - p.x) * (q.y + edP - q.x) % edP
  let b := (p.y + p.x) * (q.y + q.x) % edP
  let c := 2 * p.t * q.t * edD % edP
  let d := 2 * p.z * q.z % edP
  let e := b + edP - a
  let f := d + edP - c
  let g := d + c
  let h := b + a
  { x := e * f % edP, y := g * h % edP, z := f * g % edP, t := e * h % edP }

/-- n times a point, with the bits of n taken from the lowest, `fuel` of them. -/
def EdPoint.mul : Nat → Nat → EdPoint → EdPoint
  | 0, _, _ => { x := 0, y := 1, z := 1, t := 0 }
  | fuel + 1, n, p => let r := EdPoint.mul fuel (n / 2) (p.add p)
                      if n % 2 = 1 then r.add p else r

/-- Do two sets of coordinates name one point? -/
def EdPoint.same (p q : EdPoint) : Bool :=
  decide (p.x * q.z % edP = q.x * p.z % edP) && decide (p.y * q.z % edP = q.y * p.z % edP)

/-- The point 32 bytes encode: y, with the lowest bit of x above it. -/
def edDecode (bs : List Byte) : Option EdPoint :=
  let v := leNat bs
  let y := v % 2 ^ 255
  let odd := v / 2 ^ 255
  if bs.length ≠ 32 ∨ edP ≤ y then none
  else
    let u := (y * y + edP - 1) % edP
    let w := (edD * (y * y % edP) + 1) % edP
    let w3 := w * w % edP * w % edP
    let r := u * w3 % edP * edPow 256 (u * (w3 * w3 % edP * w % edP) % edP) ((edP - 5) / 8) % edP
    let x :=
      if w * (r * r % edP) % edP = u then some r
      else if w * (r * r % edP) % edP = (edP - u) % edP then some (r * edPow 256 2 ((edP - 1) / 4) % edP)
      else none
    match x with
    | none => none
    | some x =>
      if x = 0 ∧ odd = 1 then none
      else
        let x := if x % 2 = odd then x else edP - x
        some { x := x, y := y, z := 1, t := x * y % edP }

/-- The base point. -/
def edBase : EdPoint :=
  let x := 0x216936D3CD6E53FEC0A4E231FDD6DC5C692CC7609525A7B2C9562D608F25D51A
  let y := 0x6666666666666666666666666666666666666666666666666666666666666658
  { x := x, y := y, z := 1, t := x * y % edP }

/-- Does the signature (64 bytes) over the message verify with the public key (32 bytes)? The group equation is the one
with the cofactor. (PRESUMED, log 9.) -/
def ed25519Verify (key sig msg : List Byte) : Bool :=
  match edDecode key, edDecode (sig.take 32) with
  | some a, some r =>
    let s := leNat (sig.drop 32)
    let h := leNat ((leBytes 64 (sha512H.digest (sig.take 32 ++ key ++ msg))).reverse) % edL
    decide (sig.length = 64) && decide (s < edL) &&
      ((edBase.mul 256 s).mul 4 8).same ((r.add (a.mul 256 h)).mul 4 8)
  | _, _ => false

end Sys2Proof.Machine
end

