-- ==== Sys2Proof/Machine/Ops.lean ====
section
/-!
DEFINITION. Machine/Ops.lean: the named operations every block shares: parts of the state, event flags and service
requests, posted events, reports to FLT, free values.
-/
namespace Sys2Proof.Machine

/-! ## Parts of the state -/

namespace State

def chan (s : State) (n : Fin 64) : Chan := at_ s.chans n
def modChan (s : State) (n : Fin 64) (f : Chan → Chan) : State := { s with chans := vset s.chans n f }
def grove (s : State) (g : Fin 8) : Grove := at_ s.groves g
def modGrove (s : State) (g : Fin 8) (f : Grove → Grove) : State := { s with groves := vset s.groves g f }
def ad (s : State) (d : Fin 3) : AngleDom := at_ s.ads d
def modAd (s : State) (d : Fin 3) (f : AngleDom → AngleDom) : State := { s with ads := vset s.ads d f }
def pl (s : State) (i : Fin 2) : Checker := at_ s.pls i
def modPl (s : State) (i : Fin 2) (f : Checker → Checker) : State := { s with pls := vset s.pls i f }
def modTt (s : State) (f : Timetable → Timetable) : State := { s with tt := f s.tt }
def modMe (s : State) (f : MicroEngine → MicroEngine) : State := { s with me := f s.me }
def eng (s : State) (e : Fin 8) : PinSeq := at_ s.ps.eng e
def modEng (s : State) (e : Fin 8) (f : PinSeq → PinSeq) : State :=
  { s with ps := { s.ps with eng := vset s.ps.eng e f } }
def modAfe (s : State) (f : Afe → Afe) : State := { s with afe := f s.afe }
def modSc (s : State) (f : Seating → Seating) : State := { s with sc := f s.sc }
def modBoot (s : State) (f : Boot → Boot) : State := { s with boot := f s.boot }
def modPwr (s : State) (f : Power → Power) : State := { s with pwr := f s.pwr }
def modCanopy (s : State) (f : Canopy → Canopy) : State := { s with canopy := f s.canopy }
def modTbs (s : State) (f : Timebase → Timebase) : State := { s with tbs := f s.tbs }
def modPins (s : State) (f : Pins → Pins) : State := { s with pins := f s.pins }

def modMem (s : State) (f : Mem → Mem) : State := { s with mem := f s.mem }
def bank (s : State) (b : Fin 8) : Bank := at_ s.mem.banks b
def modBank (s : State) (b : Fin 8) (f : Bank → Bank) : State := s.modMem fun m => { m with banks := vset m.banks b f }
def cwin (s : State) (n : Fin 16) : CircWin := at_ s.cw n
def modCw (s : State) (n : Fin 16) (f : CircWin → CircWin) : State := { s with cw := vset s.cw n f }
def dmac (s : State) (c : Fin 8) : DmaChan := at_ s.dma c
def modDma (s : State) (c : Fin 8) (f : DmaChan → DmaChan) : State := { s with dma := vset s.dma c f }
def modIntc (s : State) (f : Intc → Intc) : State := { s with intc := f s.intc }
def modHp (s : State) (f : Hp → Hp) : State := { s with hp := f s.hp }
def link (s : State) (l : Fin 4) : Hl := at_ s.hl l
def modLink (s : State) (l : Fin 4) (f : Hl → Hl) : State := { s with hl := vset s.hl l f }
def modTsi (s : State) (f : Tsi → Tsi) : State := { s with tsi := f s.tsi }
def smbc (s : State) (k : Fin 2) : Smb := at_ s.smb k
def modSmb (s : State) (k : Fin 2) (f : Smb → Smb) : State := { s with smb := vset s.smb k f }
def modPack (s : State) (f : Pack → Pack) : State := { s with pack := f s.pack }
def mspm (s : State) (m : Fin 2) : Msp := at_ s.msp m
def modMsp (s : State) (m : Fin 2) (f : Msp → Msp) : State := { s with msp := vset s.msp m f }
def modFlt (s : State) (f : Flt → Flt) : State := { s with flt := f s.flt }
def modUpd (s : State) (f : Upd → Upd) : State := { s with upd := f s.upd }
def modSvc (s : State) (f : Svc → Svc) : State := { s with svc := f s.svc }
def modPm (s : State) (f : Perf → Perf) : State := { s with pm := f s.pm }
def modRs (s : State) (f : RecStore → RecStore) : State := { s with rs := f s.rs }

/-- (DESIGN CHOICE, log 92.) -/
def modCyc (s : State) (f : Cycle → Cycle) : State := { s with cyc := f s.cyc }

/-! ## Events that meet in one core cycle (00 R9, R10) -/

/-- Hardware sets bits of the write-1-to-clear register at address a in this cycle (00 R9). -/
def hwSet (s : State) (a : Nat) (bits : Word) : State := s.modCyc fun c => { c with fresh := (a, bits) :: c.fresh }
/-- Bits that hardware has set in this cycle at address a. (DESIGN CHOICE, log 92.) -/
def freshBits (s : State) (a : Nat) : Word := s.cyc.fresh.foldl (fun w p => if p.1 = a then w ||| p.2 else w) 0
/-- A word written at address a, without the clears that lose to a set of the same cycle (00 R9). (DESIGN CHOICE, log 92.) -/
def w1c (s : State) (a : Nat) (w : Word) : Word := w &&& ~~~(s.freshBits a)

/-- A block held in reset takes no command: it keeps its reset values (02 R70; 03 Table 3.1; 04 R166; 06 R261; 09
R385). (DEDUCED, log 93.) -/
def whenUp (s : State) (up : Bool) (f : State → State) : State := if up then f s else s

/-- The timebase TB (01 R22). -/
def tb (s : State) : W48 := s.tbs.tb

/-- The record, queue and history of a client (14 R520). -/
def client (s : State) (c : Fin 256) : ClientRec := cellRead {} s.sc.recs c.val
def modClient (s : State) (c : Fin 256) (f : ClientRec → ClientRec) : State :=
  s.modSc fun sc => { sc with recs := cellWrite {} sc.recs c.val (f (cellRead {} sc.recs c.val)) }

/-- A channel's grove and its place in it (04: channels 8g to 8g + 7). -/
def groveOf (n : Fin 64) : Fin 8 := ⟨n.val / 8, by omega⟩
/-- Channel k of grove g. -/
def chanOf (g : Fin 8) (k : Fin 8) : Fin 64 := ⟨8 * g.val + k.val, by omega⟩
/-- The eight channels of a grove, ascending. -/
def groveChans (g : Fin 8) : List (Fin 64) := (List.finRange 8).map (chanOf g)

/-- The register value a read answered (the model's own output record). (DESIGN CHOICE, log 6.) -/
def answer (s : State) (w : Word) : State := { s with rdata := w }
/-- A read whose answer and state after it are given. -/
def answered (_ : State) (x : Word × State) : State := x.2.answer x.1

/-- Take the next free value. (DESIGN CHOICE, log 8.) -/
def free (s : State) : BitVec 64 × State := (Config.freeValue s.freeCtr, { s with freeCtr := s.freeCtr + 1 })

/-- A mechanism reports to FLT (19 R700). -/
def report (s : State) (mech kind index detail : Nat) : State :=
  { s with reports := s.reports ++
      [{ mech := .ofNat 8 mech, kind := .ofNat 4 kind, index := .ofNat 8 index, detail := .ofNat 24 detail, at_ := s.time }] }

/-- Number of a unit: 256 × KIND + INDEX (19 Table 19.10). -/
def unitKey (kind index : Nat) : Nat := 256 * kind + index

/-- A unit is back in service by its own mechanics: no fence of FLT's holds it any more (19 Table 19.4). -/
def fltBack (s : State) (u : Nat) : State :=
  s.modFlt fun f =>
    let clear (p : Nat × FltUnit) : Nat × FltUnit :=
      if p.1 = u then (p.1, { p.2 with st := .inService, targets := [] })
      else (p.1, { p.2 with targets := p.2.targets.filter fun t => t ≠ u })
    { f with units := (f.units.map clear).filter fun p => p.2 ≠ {} }

/-- Word 0 of an event: SEQ, INFO, CRIT, TYPE (14 Table 14.4). -/
def eventWord0 (seq info : Nat) (crit : Bool) (type : Nat) : Word :=
  packw [(seq % 256, 24), (info % 65536, 8), (b2n crit, 7), (type % 128, 0)]

/-- Post one event to a client: SEQ is given at posting, and admission follows (14 R533, Table 14.4). -/
def post (s : State) (rank : Nat) (c : Fin 256) (type : Nat) (crit : Bool) (info : Nat) (w1 w2 w3 : Word) : State :=
  let r := s.client c
  let e : Event := { w0 := eventWord0 r.seq.toNat info crit type, w1 := w1, w2 := w2, w3 := w3 }
  (s.modClient c fun r => { r with seq := r.seq + 1 }).modSc fun sc =>
    { sc with posted := sc.posted ++ [{ client := c, ev := e, at_ := s.time, rank := rank }] }

/-- Does an enabled record 1–254 grant the channel? -/
def grants (r : ClientRec) (n : Fin 64) : Bool := bit r.bind 31 && bit r.grant n.val

/-- The owning client of a channel: the enabled client among 1–254 whose grant includes it, else client 0 (14 R530). -/
def owner (s : State) (n : Fin 64) : Fin 256 :=
  match s.sc.recs.find? (fun p => decide (1 ≤ p.1) && decide (p.1 ≤ 254) && grants p.2 n) with
  | some p => Fin.ofNat 256 p.1
  | none => 0

end State

/-! ## Event flags and service requests (04 R139–R143; 06 R249; 09 R375; 10 R402) -/

/-- Hardware sets flags: the cause set takes those with SEN, and a flag with SEN that was clear starts a request when
none is pending (04 R140, R141). The second part says whether a request is presented. -/
def EventRegs.set (e : EventRegs) (b : BitVec 16) : EventRegs × Bool :=
  let en := b &&& e.sen
  let req := (en &&& ~~~e.flag) != 0 && !e.pend
  ({ e with flag := e.flag ||| b, cause := e.cause ||| en, pend := e.pend || req }, req)

/-- A W1C write to the flags. -/
def EventRegs.clear (e : EventRegs) (w : Word) : EventRegs := { e with flag := e.flag &&& ~~~(w.setWidth 16) }

/-- A request leaves a source without dispatch: the pending bit and the cause set clear. -/
def EventRegs.discard (e : EventRegs) : EventRegs := { e with pend := false, cause := 0 }

/-- The interrupt line of a flag group: any flag set with its IEN (04 R139). -/
def EventRegs.line (e : EventRegs) : Bool := (e.flag &&& e.ien) != 0

/-- The enable register: SEN in [31:16], IEN in [15:0], each masked to the flags that exist. -/
def EventRegs.readEven (e : EventRegs) : Word := packw [(e.sen.toNat, 16), (e.ien.toNat, 0)]
def EventRegs.writeEven (e : EventRegs) (mask : BitVec 16) (w : Word) : EventRegs :=
  { e with sen := (w >>> 16).setWidth 16 &&& mask, ien := w.setWidth 16 &&& mask }

/-- The service register: PEND, PRI, ENTRY (04 Table 4.4). -/
def EventRegs.readSvc (e : EventRegs) : Word := packw [(b2n e.pend, 31), (e.pri.toNat, 16), (e.entry.toNat, 0)]
def EventRegs.writeSvc (e : EventRegs) (w : Word) : EventRegs :=
  { e with pri := .ofNat 3 (fld w 18 16), entry := .ofNat 13 (fld w 12 0) }

namespace State

/-- The Timetable receives a service request, in the cycle after the flag was set (04 R140; 07 R269). -/
def request (s : State) (src : ReqSrc) (e : EventRegs) : State :=
  s.modTt fun t => { t with reqs := t.reqs ++ [{ src := src, entry := e.entry, pri := e.pri, at_ := s.tb + 1, readyAt := s.time + 2 }] }

/-- The Timetable drops a source's pending request. -/
def dropRequest (s : State) (src : ReqSrc) : State :=
  s.modTt fun t => { t with reqs := t.reqs.filter fun r => r.src ≠ src }

/-- Set bits of HP_FLAG (13 Table 13.7). -/
def hpFlag (s : State) (b : BitVec 5) : State := (s.modHp fun h => { h with flag := h.flag ||| b }).hwSet 0x6408 (b.setWidth 32)

/-- Set flags of channel n; a fenced channel sets none (04 R139–R141, R168). -/
def raiseChan (s : State) (n : Fin 64) (b : BitVec 16) : State :=
  let c := s.chan n
  if c.fenced || b == 0 then s
  else
    let r := c.ev.set b
    let s := (s.modChan n fun c => { c with ev := r.1 }).hwSet (0x2008 + 0x80 * n.val) (b.setWidth 32)
    if r.2 then s.request (.chan n) r.1 else s

/-- Set flags of domain d (06 R249). -/
def raiseAd (s : State) (d : Fin 3) (b : BitVec 16) : State :=
  let r := (s.ad d).ev.set b
  let s := (s.modAd d fun a => { a with ev := r.1 }).hwSet (0x4024 + 0x200 * d.val) (b.setWidth 32)
  if r.2 then s.request (.dom d) r.1 else s

/-- Set flags of pin sequencer e (09 R375). -/
def raisePs (s : State) (e : Fin 8) (b : BitVec 16) : State :=
  let r := (s.eng e).ev.set b
  let s := (s.modEng e fun p => { p with ev := r.1 }).hwSet (0x5014 + 0x40 * e.val) (b.setWidth 32)
  if r.2 then s.request (.ps e) r.1 else s

def adc (s : State) (a : Fin 2) : Adc := at_ s.afe.adc a
def modAdc (s : State) (a : Fin 2) (f : Adc → Adc) : State := s.modAfe fun x => { x with adc := vset x.adc a f }

/-- Set flags of ADC a (10 R402). -/
def raiseAdc (s : State) (a : Fin 2) (b : BitVec 16) : State :=
  let r := (s.adc a).ev.set b
  let s := (s.modAdc a fun x => { x with ev := r.1 }).hwSet (0x5608 + 0xA0 * a.val) (b.setWidth 32)
  if r.2 then s.request (.adc a) r.1 else s

/-- Set flags of the TSI (16 R621). -/
def raiseTsi (s : State) (b : BitVec 16) : State :=
  let r := s.tsi.ev.set b
  let s := (s.modTsi fun t => { t with ev := r.1 }).hwSet 0xA80C (b.setWidth 32)
  if r.2 then s.request .iv r.1 else s

/-- DMA_FLAG.ERR (11 Table 11.9). -/
def xERR : BitVec 5 := 8

/-- Set bits of DMA_FLAG of channel c (11 Table 11.9). -/
def dmaFlag (s : State) (c : Fin 8) (b : BitVec 5) : State :=
  (s.modDma c fun x => { x with flag := x.flag ||| b }).hwSet (0x6018 + 0x20 * c.val) (b.setWidth 32)

/-- DMA channel c stops in ERROR (11 R451). -/
def dmaError (s : State) (c : Fin 8) (code : Nat) : State :=
  ((s.modDma c fun x => { x with st := .error, err := .ofNat 4 code, burst := 0, heldPulse := false }).dmaFlag c xERR).modCyc
    fun y => { y with dmaErr := c :: y.dmaErr }

/-! ## Positions (06 R219–R222, R225) -/

end State

/-- Pitches per revolution (06 Table 6.1): N, or 6 for a Hall triplet. -/
def AngleDom.pitches (a : AngleDom) : Nat := if fld a.ctl 3 2 = 3 then 6 else fld a.wheel 9 0

/-- The tooth angle A_k (06 R219). -/
def AngleDom.toothAngle (a : AngleDom) (k : Nat) : Nat := if a.pitches = 0 then 0 else k * 2 ^ 24 / a.pitches

/-- The estimate within the revolution at TB `now`: A_k plus the rate times the cycles since the pitch edge, never past
the next tooth before its edge registers (06 R225). -/
def AngleDom.estimate (a : AngleDom) (now : W48) : Nat :=
  let base := a.toothAngle a.pitch
  match a.k.tau with
  | none => base
  | some t => min (base + a.k.rate * (now - t).toNat / 2 ^ 32) (a.toothAngle (a.pitch + 1) - 1)

/-- The 32-bit position: revolution tag above reported angle (06 R219, R220). -/
def AngleDom.position (a : AngleDom) (now : W48) : Word :=
  BitVec.ofNat 32 (a.k.rev.toNat * 2 ^ 24 + a.estimate now + a.zero.toNat) - (a.k.tagBase.setWidth 32 <<< 24)

/-- Has the position come to the target? (06 R221) -/
def posReached (pos tgt : Word) : Bool := decide ((pos - tgt).toNat ≤ 2 ^ 31)

namespace State

/-- Domain number 0–2 of a 2-bit field; 3 names none. -/
def domOf (d : BitVec 2) : Option (Fin 3) := if h : d.toNat < 3 then some ⟨d.toNat, h⟩ else none

/-- Is the domain LOCKED? -/
def domLocked (s : State) (d : BitVec 2) : Bool :=
  match domOf d with
  | some k => (s.ad k).st == .locked
  | none => false

/-- The position of a LOCKED domain (06 R222). -/
def domPos (s : State) (d : BitVec 2) : Option Word :=
  match domOf d with
  | some k => if (s.ad k).st = .locked then some ((s.ad k).position s.tb) else none
  | none => none

/-- The fine-delay table is valid (10 R404). -/
def calValid (s : State) : Bool := s.afe.cal.valid

end State
end Sys2Proof.Machine
end

