-- ==== Sys2Proof/Machine/Channels.lean ====
section
/-!
DEFINITION. Machine/Channels.lean: channel counters, matches, capture, edge queues, Clearing, links, stagger and pins
(04, 05, 23 R829–R835).
-/
namespace Sys2Proof.Machine

/-! ## Fields -/

def Counter.en (c : Counter) : Bool := bit c.ctl 0
def Counter.startDown (c : Counter) : Bool := bit c.ctl 1
def Counter.clkSrc (c : Counter) : Nat := fld c.ctl 3 2
def Counter.rldAt (c : Counter) : Bool := bit c.ctl 4
def Output.clrLvl (o : Output) : Level := if fld o.ocfg 1 0 = 0 then .low else if fld o.ocfg 1 0 = 1 then .high else .released
def Output.pol (o : Output) : Bool := bit o.ocfg 2
def Output.domain (o : Output) : Nat := fld o.ocfg 5 4
def Output.uwatch (o : Output) : Bool := bit o.ocfg 6
def Output.undrClr (o : Output) : Bool := bit o.ocfg 7
def Output.grpupd (o : Output) : Bool := bit o.ocfg 8
def Output.linkSrc (o : Output) : Nat := fld o.link 1 0
def Output.linkIdx (o : Output) : Nat := fld o.link 5 2
def Output.action (o : Output) : Nat := fld o.link 7 6
def Output.evt (o : Output) : BitVec 7 := o.lkout.setWidth 7
def Output.lkLevel (o : Output) : Bool := bit o.lkout 7
def Output.line (o : Output) : Nat := fld o.lkout 11 8
def Output.drv (o : Output) : Bool := bit o.lkout 12

/-- CH_FLAG bits (04 Table 4.3). -/
def fPEAK : BitVec 16 := 0x10
def fVALLEY : BitVec 16 := 0x20
def fCAP : BitVec 16 := 0x40
def fOVR : BitVec 16 := 0x80
def fRWR : BitVec 16 := 0x100
def fWWR : BitVec 16 := 0x200
def fRLDX : BitVec 16 := 0x400

/-- Clearing causes (05 Table 5.4). -/
def cHOLD : BitVec 11 := 0x001
def cSW : BitVec 11 := 0x002
def cITRIP : BitVec 11 := 0x004
def cSYNC : BitVec 11 := 0x008
def cFENCE : BitVec 11 := 0x010
def cLINK : BitVec 11 := 0x020
def cRDBK : BitVec 11 := 0x040
def cUNDR : BitVec 11 := 0x080
def cPARK : BitVec 11 := 0x100
def cREADMIT : BitVec 11 := 0x200
def cPAIR : BitVec 11 := 0x400

/-- CH_OSTAT[31:24] (05 Table 5.7). -/
def oFULL : BitVec 8 := 0x01
def oEQERR : BitVec 8 := 0x02
def oLATE : BitVec 8 := 0x04
def oBADTGT : BitVec 8 := 0x08
def oUNDR : BitVec 8 := 0x10
def oRDBK : BitVec 8 := 0x20
def oLKDUP : BitVec 8 := 0x40
def oTAP0 : BitVec 8 := 0x80

/-- Even channel of a channel's pair, and the partner (05 R187). -/
def evenOf (n : Fin 64) : Fin 64 := ⟨n.val / 2 * 2, by omega⟩
def partner (n : Fin 64) : Fin 64 := if h : n.val % 2 = 0 then ⟨n.val + 1, by omega⟩ else ⟨n.val - 1, by omega⟩

/-- The on-sides a pair's pattern gives before dead time: (even, odd) (05 R187, R191). -/
def pairSides (force : BitVec 2) (l : Level) : Bool × Bool :=
  if force = 1 ∨ (force = 0 ∧ l = .released) then (false, false)
  else if force = 2 then (false, true)
  else (l == .high, l == .low)

/-- Does a change of a pair's pattern turn a pin on? (05 R187) -/
def turnsOn (a b : Bool × Bool) : Bool := (b.1 && !a.1) || (b.2 && !a.2)

namespace State

def modOut (s : State) (n : Fin 64) (f : Output → Output) : State := s.modChan n fun c => { c with o := f c.o }
def modCnt (s : State) (n : Fin 64) (f : Counter → Counter) : State := s.modChan n fun c => { c with c := f c.c }
/-- Set CH_OSTAT flags. -/
def setOstat (s : State) (n : Fin 64) (b : BitVec 8) : State :=
  (s.modOut n fun o => { o with ostat := o.ostat ||| b }).hwSet (0x205C + 0x80 * n.val) (b.setWidth 32 <<< 24)

/-- Is the channel running? From its start cycle to the cycle a stop or a fence takes effect, inclusive (04 R129). -/
def runs (s : State) (n : Fin 64) : Bool := (s.chan n).c.run || s.cyc.stopped.contains n

/-- Is the channel in a pair under CH_PAIR.MODE 1? (05 R187) -/
def paired (s : State) (n : Fin 64) : Bool := (s.chan (evenOf n)).o.pair.mode

/-! ## Clearing (05 R196–R199) -/

/-- Bring the PAIR causes of a pair in line with the partners' other causes (05 Table 5.4 PAIR). -/
def settlePair (s : State) (n : Fin 64) : State :=
  let e := evenOf n
  let d := partner e
  let m := s.paired n
  let pe := m && ((s.chan d).o.clr &&& ~~~cPAIR) != 0
  let pd := m && ((s.chan e).o.clr &&& ~~~cPAIR) != 0
  let put (o : Output) (b : Bool) : Output :=
    if b then { o with clr := o.clr ||| cPAIR, inClr := true } else { o with clr := o.clr &&& ~~~cPAIR }
  (s.modOut e fun o => put o pe).modOut d fun o => put o pd

/-- Set Clearing causes: the channel enters Clearing (05 R197, R198). -/
def setCause (s : State) (n : Fin 64) (b : BitVec 11) : State :=
  (s.modOut n fun o => { o with clr := o.clr ||| b, inClr := true }).settlePair n

/-- Release Clearing causes; the channel stays in Clearing until R199. -/
def clearCause (s : State) (n : Fin 64) (b : BitVec 11) : State :=
  (s.modOut n fun o => { o with clr := o.clr &&& ~~~b }).settlePair n

/-! ## Links (05 R192–R194) -/

/-- Does channel m feed channel n's link input? -/
def isMaster (s : State) (m n : Fin 64) : Bool :=
  let o := (s.chan n).o
  if o.linkSrc = 1 then decide (groveOf m = groveOf n) && decide (m.val % 8 = o.linkIdx)
  else if o.linkSrc = 2 then (s.chan m).o.drv && decide ((s.chan m).o.line = o.linkIdx)
  else false

/-- Does channel n act on its link input? -/
def linked (s : State) (n : Fin 64) : Bool := (s.chan n).o.action ≠ 0 || (s.chan n).c.clkSrc = 1

/-- The level of channel n's link input: a master's level signal, OUTL high, one cycle later in its own grove and two over a
link line (05 R192, R193, Table 5.3). -/
def linkLevel (s : State) (n : Fin 64) : Bool :=
  (List.finRange 64).any fun m =>
    let o := (s.chan m).o
    s.isMaster m n && o.lkLevel && (if (s.chan n).o.linkSrc = 1 then o.was1.outl else o.was2.outl) == .high

/-- The level of link line i as it arrives (05 R192, R193). -/
def lineLevel (s : State) (i : Nat) : Bool :=
  (List.finRange 64).any fun m =>
    (s.chan m).o.drv && decide ((s.chan m).o.line = i) && (s.chan m).o.lkLevel && (s.chan m).o.was2.outl == .high

/-- The link setting allows a start (05 R194): a kind of Table 5.3, not itself as a peer, and masters of the kind the
action takes; a line nobody drives is allowed. -/
def linkOk (s : State) (n : Fin 64) : Bool :=
  let c := s.chan n
  let o := c.o
  if o.linkSrc = 1 ∧ o.linkIdx = n.val % 8 then false
  else if o.action = 0 ∧ c.c.clkSrc = 0 then true
  else if o.action = 3 ∨ o.linkSrc = 0 ∨ o.linkSrc = 3 then false
  else if c.c.clkSrc = 1 ∧ o.action ≠ 0 then false
  else if o.linkSrc = 1 ∧ 7 < o.linkIdx then false
  else (List.finRange 64).all fun m => !s.isMaster m n || ((s.chan m).o.lkLevel == decide (o.action = 2))

/-- Channel m leaves Clearing: a slave that its fence gave the cause LINK loses it with the last such master (Table 5.4). -/
def unlink (s : State) (m : Fin 64) : State :=
  foldFin 64 (fun n s =>
    if bit (s.chan n).o.linkBy m.val then
      let s := s.modOut n fun o => { o with linkBy := o.linkBy &&& ~~~(oneBit 64 m.val) }
      if (s.chan n).o.linkBy = 0 then s.clearCause n cLINK else s
    else s) s

/-- LKDUP of every channel that shares a driven line (05 R192). -/
def settleLkdup (s : State) : State :=
  foldFin 64 (fun n s =>
    let o := (s.chan n).o
    if o.drv && (List.finRange 64).any (fun m => decide (m ≠ n) && (s.chan m).o.drv && decide ((s.chan m).o.line = o.line))
    then s.setOstat n oLKDUP else s) s

/-! ## The edge queue (05 R169–R182) -/

/-- Was the head's target already past as it became the head? (05 R175: compared from the next cycle) -/
def headLate (s : State) (e : Edge) : Bool :=
  if e.kind = 1 then reached (s.tb + 1) e.tgt && e.tgt != s.tb + 1
  else if e.kind = 2 then
    match s.domPos e.dom with
    | some p => p != e.tgt.setWidth 32 && posReached p (e.tgt.setWidth 32)
    | none => false
  else false

/-- A new head takes its mark; it is compared from the next cycle (05 R174). -/
def markHead (s : State) (n : Fin 64) : State :=
  (s.modOut n fun o =>
    match o.queue with
    | e :: q => { o with queue := { e with late := s.headLate e } :: q }
    | [] => o).modCyc fun c => { c with heads := n :: c.heads }

/-- Is the head of channel n compared in this cycle? (05 R174) -/
def headCompared (s : State) (n : Fin 64) : Bool := !s.cyc.heads.contains n

/-- Does the channel underrun now? (05 R181) -/
def underruns (s : State) (n : Fin 64) : Bool :=
  let c := s.chan n
  c.c.run && c.o.uwatch && c.o.queue.isEmpty

/-- Note an underrun: UNDR, the period's mark, and Clearing where UNDR_CLR is set (05 R181, R211). -/
def noteUnder (s : State) (n : Fin 64) : State :=
  if s.underruns n then
    let s := (s.setOstat n oUNDR).modOut n fun o => { o with rdmUnder := true }
    if (s.chan n).o.undrClr then s.setCause n cUNDR else s
  else s

/-- OUTL takes a level; an entry that leaves it unchanged changes no tap, and a dead time starts where the pattern turns a
pin on (05 R177, R187, R189). -/
def Output.drive (o : Output) (l : Level) (tap : BitVec 5) (step : BitVec 6) (now : Nat) : Output :=
  if o.outl = l then o
  else
    let on := turnsOn (pairSides o.pair.forceAct o.outl) (pairSides o.pair.forceAct l)
    { o with outl := l, outTap := tap, outStep := step, outAt := if on then now else o.outAt, deadOn := o.deadOn || on }

/-- An entry after firing with REARM: an angle entry's tag goes up by one (05 R177). -/
def Edge.rearmed (e : Edge) : Edge :=
  if e.kind = 2 then { e with tgt := ((e.tgt.setWidth 32 + 0x01000000 : Word)).setWidth 48, late := false }
  else { e with late := false }

/-- The head fires (05 R174–R177, R186). -/
def fireHead (s : State) (n : Fin 64) : State :=
  match (s.chan n).o.queue with
  | [] => s
  | e :: q =>
    let valid := s.calValid
    let old := (s.chan n).o
    let tap := if valid then e.tap else 0
    let s := s.modOut n fun o =>
      { (Output.drive o e.level tap (at_ s.afe.cal.table tap.toFin) s.time) with queue := if e.rearm then q ++ [Edge.rearmed e] else q }
    let s := s.setOstat n ((if valid then 0 else oTAP0) ||| (if e.late then oLATE else 0))
    let s := s.modCyc fun c =>
      { c with fired := (n, old) :: c.fired, freed := if e.rearm then c.freed else (n, e.slot) :: c.freed }
    (s.markHead n).noteUnder n

/-- Is a combination of fields valid? (05 Table 5.1, R170) -/
def edgeValid (s : State) (kind dom slope : BitVec 2) (rearm : Bool) (tgt : W48) : Bool :=
  if kind = 0 then slope != 0
  else if kind = 1 then !rearm
  else if kind = 2 then s.domLocked dom && (tgt >>> 32) == 0
  else false

/-- The level of a LEVEL field; 3 is reserved. -/
def levelOf (n : Nat) : Option Level :=
  if n = 0 then some .low else if n = 1 then some .high else if n = 2 then some .released else none

/-- Does CH_PAIR.MODE 1 forbid this level on this channel? (05 R190) -/
def pairRefuses (s : State) (n : Fin 64) (l : Level) : Bool :=
  s.paired n && (n.val % 2 == 1 || l == .released)

/-- The slot a push takes, judged against the occupancy at the start of the cycle (05 R169, R204). -/
def slotFor (s : State) (n : Fin 64) : Option (Fin 8) :=
  let freed := (s.cyc.freed.filter fun p => p.1 = n).map (·.2)
  (List.finRange 8).find? fun k => (s.chan n).o.queue.all (fun e => e.slot ≠ k) && !freed.contains k

/-- Push an entry: ctl is EQ_PUSH[31:16] in the word's place, tgt the 48-bit target (05 R169–R171, R210). A push that finds no
room and is invalid as well sets both flags (R170). -/
def pushEdge (s : State) (n : Fin 64) (w : Word) (tgt : W48) : State :=
  let c := s.chan n
  let kind : BitVec 2 := .ofNat 2 (fld w 17 16)
  let dom : BitVec 2 := .ofNat 2 (fld w 29 28)
  let slope : BitVec 2 := .ofNat 2 (fld w 27 26)
  let rearm := bit w 25
  if c.fenced then s.setOstat n oEQERR
  else
    let room := s.slotFor n
    let s := if room.isNone then s.setOstat n oFULL else s
    match levelOf (fld w 19 18), room with
    | none, _ => s.setOstat n oEQERR
    | some l, room =>
      if !s.edgeValid kind dom slope rearm tgt || s.pairRefuses n l then s.setOstat n oEQERR
      else
        match room with
        | none => s
        | some k =>
          let e : Edge :=
            { slot := k, kind := kind, dom := dom, slope := slope, rearm := rearm, level := l,
              tap := .ofNat 5 (fld w 24 20), tgt := tgt }
          let s' := s.modOut n fun o => { o with queue := o.queue ++ [e], last := k }
          if c.o.queue.isEmpty then s'.markHead n else s'

/-- Load a slot's shadow (05 R182, R190, R210). -/
def loadShadow (s : State) (n : Fin 64) (w : Word) (tgt : W48) : State :=
  let c := s.chan n
  let k : Fin 8 := Fin.ofNat 8 (fld w 27 25)
  let slope : BitVec 2 := .ofNat 2 (fld w 24 23)
  match c.fenced, c.o.queue.find? (fun e => e.slot = k), levelOf (fld w 22 21) with
  | false, some e, some l =>
    if s.edgeValid e.kind e.dom slope e.rearm tgt && !s.pairRefuses n l then
      let sh : Shadow := { slope := slope, level := l, tap := .ofNat 5 (fld w 20 16), tgt := tgt }
      (s.modOut n fun o => { o with queue := o.queue.map fun x => if x.slot = k then { x with shadow := some sh } else x }).modCyc
        fun c => { c with shadows := (n, k) :: c.shadows }
    else s.setOstat n oEQERR
  | _, _, _ => s.setOstat n oEQERR

/-- The EQ_ARG staging value of a writer path (05 R172). -/
def pathIx : Path → Fin 8
  | .hp => 0
  | .link l => ⟨1 + l.val, by omega⟩
  | .svc => 5
  | .sup => 6
  | .me => 7

/-- The firings of channel n in this cycle are undone: OUTL and the flags of the firing stand as before (05 R205). -/
def unfire (s : State) (n : Fin 64) : State :=
  match s.cyc.fired.reverse.find? fun p => p.1 = n with
  | none => s
  | some (_, old) =>
    let f := oLATE ||| oTAP0
    s.modOut n fun o =>
      { o with outl := old.outl, outTap := old.outTap, outStep := old.outStep, outAt := old.outAt, deadOn := old.deadOn,
               ostat := (o.ostat &&& ~~~f) ||| (old.ostat &&& f) }

/-- Free every slot and shadow; an entry that would fire in the same cycle does not (05 R205). -/
def flushQueue (s : State) (n : Fin 64) : State := ((s.unfire n).modOut n fun o => { o with queue := [] }).noteUnder n

/-- Discard the entries that satisfy p, with their shadows, in every channel (05 R208). -/
def discardEdges (s : State) (p : Edge → Bool) : State :=
  foldFin 64 (fun n s =>
    if (s.chan n).o.queue.any p then
      let h := (s.chan n).o.queue.head?.any p
      let s := s.modOut n fun o => { o with queue := o.queue.filter fun e => !p e }
      (if h then s.markHead n else s).noteUnder n
    else s) s

/-- Shadows take effect, each entry keeping its kind, domain, REARM and place; one loaded in the same cycle waits (05 R183,
R203). -/
def Edge.transfer (fresh : List (Fin 8)) (e : Edge) : Edge :=
  match e.shadow with
  | some x =>
    if fresh.contains e.slot then e
    else { e with slope := x.slope, level := x.level, tap := x.tap, tgt := x.tgt, shadow := none }
  | none => e

/-- Slots of channel n whose shadow was loaded in this cycle. -/
def freshShadows (s : State) (n : Fin 64) : List (Fin 8) := (s.cyc.shadows.filter fun p => p.1 = n).map (·.2)

end State

/-! ## Counting (04 R123–R138, 23 R829–R833) -/

/-- One tick of a counter: the value and direction it takes, and the turn-round it makes. -/
structure Tick where
  cnt : W48
  down : Bool
  peak : Bool
  valley : Bool
  deriving DecidableEq, Repr

/-- A counter step: triangular (04 R123, R124), or sawtooth in JX32 mode (23 R829, R830). (DEDUCED, log 26, DEDUCED, log 90.) -/
def Counter.step (compat : Bool) (c : Counter) : Tick :=
  if compat then
    let v := if c.reload.toNat ≤ c.cnt.toNat then 0 else c.cnt + 1
    { cnt := v, down := false, peak := v == c.reload, valley := v == 0 }
  else if c.down then
    if c.cnt.toNat ≤ 1 then { cnt := 0, down := false, peak := false, valley := true }
    else { cnt := c.cnt - 1, down := true, peak := false, valley := false }
  else if c.reload.toNat ≤ c.cnt.toNat + 1 then { cnt := c.reload, down := true, peak := true, valley := false }
  else { cnt := c.cnt + 1, down := false, peak := false, valley := false }

/-- The start cycle: a tick in which the counter takes its starting value (04 R127, 23 R830). (DEDUCED, log 28.) -/
def startTick (compat : Bool) (reload cnt : W48) (down : Bool) : Tick :=
  if cnt = 0 then { cnt := 0, down := false, peak := false, valley := true }
  else if cnt = reload then { cnt := cnt, down := !compat, peak := true, valley := false }
  else { cnt := cnt, down := down && !compat, peak := false, valley := false }

/-- Does a slope selection take this tick? Turn-rounds belong to both slopes; every slope does in JX32 mode
(04 R124, R136; 23 R831). -/
def slopeTakes (compat : Bool) (slope : Nat) (t : Tick) : Bool :=
  if compat || t.peak || t.valley then decide (slope ≠ 0) else bit (BitVec.ofNat 2 slope) (if t.down then 1 else 0)

/-- Match i of a channel in a tick: its value, with a pending one taken at VALLEY, and whether it fires; a value above
the active RELOAD never does (04 R136, R137). -/
def matchFires (compat : Bool) (c : Counter) (t : Tick) (i : Fin 4) : Bool :=
  let m := at_ c.mats i
  let v := if t.valley then m.pending.getD m.value else m.value
  v == t.cnt && decide (v.toNat ≤ c.reload.toNat) && slopeTakes compat (fld c.matcfg (2 * i.val + 1) (2 * i.val)) t

/-- The flags a tick sets: matches, PEAK, VALLEY, RLDX (04 R134, R138). -/
def tickFlags (compat : Bool) (c : Counter) (t : Tick) (xfer : Bool) : BitVec 16 :=
  BitVec.ofNat 16 ((List.finRange 4).foldl (fun a i => a + b2n (matchFires compat c t i) * 2 ^ i.val) 0) |||
  (if t.peak then fPEAK else 0) ||| (if t.valley then fVALLEY else 0) ||| (if xfer then fRLDX else 0)

/-- Does a pending RELOAD transfer in this tick? (04 R133, 23 R832) -/
def reloadMoves (compat : Bool) (c : Counter) (t : Tick) : Bool :=
  c.rldPending.isSome && (t.valley || (t.peak && c.rldAt && !compat))

/-- The counter takes a value and a direction; the old ones are kept for captures whose cycle c0 is past (04 R144, R146). -/
def Counter.move (c : Counter) (now : W48) (cnt : W48) (down : Bool) : Counter :=
  { c with cnt := cnt, down := down, hist := ((now, c.cnt, c.down) :: c.hist).take 40 }

/-- The counter after a tick: value, direction, pending matches and RELOAD taken. -/
def Counter.take (compat : Bool) (now : W48) (c : Counter) (t : Tick) : Counter :=
  { c.move now t.cnt t.down with
    mats := if t.valley then c.mats.map fun m => { m with value := m.pending.getD m.value, pending := none } else c.mats
    reload := if reloadMoves compat c t then c.rldPending.getD c.reload else c.reload
    rldPending := if reloadMoves compat c t then none else c.rldPending }

/-- FORCE transfers to FORCE_ACT: the new pattern carries no tap, and a pin that it turns on waits its dead time (05 R191). -/
def Output.takeForce (o : Output) (now : Nat) : Output :=
  if o.pair.forcePend then
    let a := pairSides o.pair.forceAct o.outl
    let b := pairSides o.pair.force o.outl
    { o with pair := { o.pair with forceAct := o.pair.force, forcePend := false }
             outTap := if a = b then o.outTap else 0
             outAt := if turnsOn a b then now else o.outAt
             deadOn := o.deadOn || turnsOn a b }
  else o

namespace State

/-- JX32 compatibility mode (03 R112, 23 R828). (DEDUCED, log 90.) -/
def compat (s : State) : Bool := s.pwr.compat

/-- Was ARM of the channel's grove set in this cycle? Such a write takes no part in a tick of the cycle (05 R203). -/
def armedNow (s : State) (n : Fin 64) : Bool := s.cyc.armed.contains (groveOf n)

/-- May pending shadows and FORCE of channel n move at its VALLEY now? With GRPUPD at the first VALLEY tick after ARM was
set, whether or not ARM still stands (05 R183, R203). (DEDUCED, log 26.) -/
def shadowsMove (s : State) (n : Fin 64) : Bool :=
  !(s.chan n).o.grpupd || (bit (s.grove (groveOf n)).armOwe (n.val % 8) && !s.armedNow n)

/-- A VALLEY tick of channel n is noted for ARM (05 R183, R184). -/
def noteValley (s : State) (n : Fin 64) : State :=
  if s.armedNow n then s
  else s.modGrove (groveOf n) fun x =>
    { x with armDone := x.armDone ||| oneBit 8 (n.val % 8), armOwe := x.armOwe &&& ~~~(oneBit 8 (n.val % 8)) }

/-- The counter with the match values this cycle compares: a value committed in it is compared from the next (04 R161). -/
def compared (s : State) (n : Fin 64) : Counter :=
  s.cyc.mats.foldl (fun c p => if p.1 = n then { c with mats := vset c.mats p.2.1 fun m => { m with value := p.2.2 } } else c)
    (s.chan n).c

/-- Everything a tick does inside its channel, in this order: matches and RELOAD, shadows and FORCE, a counter entry
whose target is met, BADTGT, underrun (04 R134–R138; 05 R173, R176, R181, R183, R191). (DEDUCED, log 26.) -/
def tickChan (s : State) (n : Fin 64) (t : Tick) : State :=
  let cp := s.compat
  let c := s.chan n
  let fl := tickFlags cp (s.compared n) t (reloadMoves cp c.c t)
  let mv := t.valley && s.shadowsMove n
  let fresh := s.freshShadows n
  let s := s.modChan n fun c =>
    { c with
      c := Counter.take cp s.tb c.c t
      o := if mv then { (Output.takeForce c.o s.time) with queue := c.o.queue.map (Edge.transfer fresh) } else c.o }
  let s := s.raiseChan n fl
  let s := if t.valley then s.noteValley n else s
  if !s.headCompared n then s.noteUnder n else
  match (s.chan n).o.queue with
  | e :: q =>
    if e.kind = 0 ∧ e.tgt = t.cnt ∧ slopeTakes cp e.slope.toNat t = true then s.fireHead n
    else if t.peak ∧ e.kind = 0 ∧ (s.chan n).c.reload.toNat < e.tgt.toNat then
      (((s.modOut n fun o => { o with queue := q }).setOstat n oBADTGT).markHead n).noteUnder n
    else s.noteUnder n
  | [] => s.noteUnder n

/-- The events of a tick that a channel sends as link pulses: bits MATA–MATD, PEAK, VALLEY (05 Table 5.9). -/
def tickEvents (s : State) (n : Fin 64) (t : Tick) : BitVec 7 :=
  (tickFlags s.compat (s.compared n) t false).setWidth 7

/-- READMIT at a VALLEY tick: a full period has ended, or one begins (05 R211, Table 5.6). -/
def readmitStep (s : State) (n : Fin 64) : State :=
  let c := s.chan n
  if bit c.o.clr 9 then
    if c.o.rdmRun && !(c.o.uwatch && c.o.rdmUnder) then
      (s.modOut n fun o => { o with rdmRun := false }).clearCause n cREADMIT
    else s.modOut n fun o => { o with rdmRun := !s.underruns n, rdmUnder := false }
  else s

/-- The pin follows OUTL from here: no dead time and no tap on this first change (05 R199). -/
def Output.leave (o : Output) : Output := { o with inClr := false, deadOn := false, outTap := 0 }

/-- Leave Clearing at a VALLEY tick of channel n, judged on s1, the state at the start of the tick (05 R199): a cause that a
command of the cycle released counts from the next VALLEY; READMIT that ended in this tick counts as clear. -/
def leaveClearing (s1 s : State) (n : Fin 64) : State :=
  let quiet (m : Fin 64) : Bool :=
    !s.cyc.released.contains m &&
    let before := (s1.chan m).o.clr &&& ~~~cPAIR
    let now := (s.chan m).o.clr &&& ~~~cPAIR
    now == 0 && (before &&& ~~~cREADMIT) == 0
  if s.paired n then
    if n.val % 2 = 0 ∧ quiet n = true ∧ quiet (partner n) = true ∧
        ((s.chan n).o.inClr ∨ (s.chan (partner n)).o.inClr) then
      let s := (s.modOut n Output.leave).modOut (partner n) Output.leave
      (s.unlink n).unlink (partner n)
    else s
  else if quiet n = true ∧ (s.chan n).o.inClr then (s.modOut n Output.leave).unlink n
  else s

/-- GRV_UPD.ARM clears in the cycle after each channel it waits for has passed a VALLEY tick or stopped (05 R184). (DEDUCED, log 27.) -/
def settleArm (s : State) (g : Fin 8) : State :=
  let x := s.grove g
  if x.arm && (x.armWait &&& ~~~x.armDone) == 0 then s.modGrove g fun x => { x with arm := false } else s

/-- Re-admission ends when no channel of the grove holds READMIT (05 Table 5.6 step 6). -/
def settleRdm (s : State) (g : Fin 8) : State :=
  if (s.grove g).rdmActive && (groveChans g).all (fun n => !bit (s.chan n).o.clr 9) then
    (s.modGrove g fun x => { x with rdmActive := false, rdmDone := true }).hwSet (0x101C + 0x100 * g.val) 0x100
  else s

/-- May the channel start from this value? (04 R128, 05 R194) -/
def canStart (s : State) (n : Fin 64) (cnt : W48) : Bool :=
  let c := (s.chan n).c
  decide (2 ≤ c.reload.toNat) && decide (cnt.toNat ≤ c.reload.toNat) && decide (c.clkSrc < 2) && s.linkOk n

/-- A start: OUTL takes INIT and HOLD clears (04 R125–R128, 05 R177, Table 5.4). -/
def beginRun (s : State) (n : Fin 64) (cnt : W48) (down : Bool) : State :=
  let s := s.modChan n fun c =>
    { c with
      c := { c.c.move s.tb cnt down with run := true, goPend := false, cfgErr := false }
      o := { c.o with outl := if bit c.o.ocfg 3 then .high else .low, outTap := 0, deadOn := false, rdmRun := false } }
  s.clearCause n cHOLD

/-- A start that cannot be made (04 R128). -/
def refuseStart (s : State) (n : Fin 64) : State := s.modCnt n fun c => { c with cfgErr := true, goPend := false }

/-- Where a channel at position k of n starts under stagger: value and direction (05 R195, 23 R833). -/
def staggerAt (compat : Bool) (reload : W48) (k n : Nat) : W48 × Bool :=
  if compat then (BitVec.ofNat 48 ((reload.toNat + 1) * k / n), false)
  else
    let o := reload.toNat * k / n
    if 2 * o ≤ reload.toNat then (BitVec.ofNat 48 (2 * o), false)
    else (BitVec.ofNat 48 (2 * reload.toNat - 2 * o), true)

/-- The channels of the stagger set that start, ascending (05 R195). -/
def staggerSet (s : State) (g : Fin 8) : List (Fin 64) :=
  if bit (s.grove g).stag 8 then
    (groveChans g).filter fun n => bit (s.grove g).stag (n.val % 8) && (s.chan n).c.en
  else []

/-- The value and direction a channel starts from; `zero` is a re-admission start, at CNT 0 up (Table 5.6 step 3). -/
def startValue (s : State) (stagger : Bool) (zero : Bool) (n : Fin 64) : W48 × Bool :=
  let c := (s.chan n).c
  let set := if stagger then s.staggerSet (groveOf n) else []
  if set.contains n then staggerAt s.compat c.reload (set.idxOf n) set.length
  else if zero then (0, false) else (c.cnt, c.startDown)

/-- Start channel n from a value if it may; a fenced or running channel is left alone (04 R126, R128, R168). -/
def startChan (s : State) (n : Fin 64) (v : W48 × Bool) : State :=
  let c := s.chan n
  if c.fenced || c.c.run then s
  else if s.canStart n v.1 then s.beginRun n v.1 v.2
  else s.refuseStart n

/-- Has the counter already taken the tick of a link pulse in this cycle? (05 R206) -/
def pulsed (s : State) (n : Fin 64) : Bool := s.cyc.ticked.contains n

/-- The tick channel n takes: its start tick when it has just started, else a counter step when it ran and its gate is
open (04 R123, R127; 05 Table 5.3 GATE). s0 is the state before the starts. -/
def dueTick (s0 s : State) (n : Fin 64) : Option Tick :=
  let c := (s.chan n).c
  if s.pulsed n then none
  else if !(s0.chan n).c.run && c.run then some (startTick s.compat c.reload c.cnt c.down)
  else if (s0.chan n).c.run && c.clkSrc = 0 && ((s.chan n).o.action ≠ 2 || s.linkLevel n) then
    some (Counter.step s.compat c)
  else none

/-- The pulses of ticks: the channels whose selected events occurred, with a pulse signal (05 Table 5.9). -/
def pulsesOf (s : State) (ts : List (Fin 64 × Tick)) : List (Fin 64) :=
  (ts.filter fun p => !(s.chan p.1).o.lkLevel && ((s.tickEvents p.1 p.2) &&& (s.chan p.1).o.evt) != 0).map (·.1)

/-- Ticks of some channels: effects, then READMIT and leaving Clearing of those at VALLEY, judged on s1. (DEDUCED, log 29.) -/
def runTicks (s1 s : State) (ts : List (Fin 64 × Tick)) : State :=
  let s := ts.foldl (fun s p => s.tickChan p.1 p.2) s
  let vs := ts.filter fun p => p.2.valley
  let s := vs.foldl (fun s p => s.readmitStep p.1) s
  let s := vs.foldl (fun s p => leaveClearing s1 s p.1) s
  vs.foldl (fun s p => s.settleRdm (groveOf p.1)) s

/-- Pulses of masters set out to their slaves: one cycle to a channel of the own grove, two over a link line (05
R193). (DEDUCED, log 29.) -/
def sendPulses (s : State) (ms : List (Fin 64)) : State :=
  if ms.isEmpty then s
  else
    let slaves := (List.finRange 64).filter fun n => s.linked n && ms.any fun m => s.isMaster m n
    slaves.foldl (fun s n =>
      let at_ := s.time + (if (s.chan n).o.linkSrc = 1 then 1 else 2)
      s.modGrove (groveOf n) fun x => { x with pulses := x.pulses ++ [(at_, Fin.ofNat 8 (n.val % 8))] }) s

/-- What a pulse makes of slave n: a RESET, or a link clock step (05 Table 5.3). -/
def slaveTick (s : State) (n : Fin 64) : Option Tick :=
  let c := s.chan n
  if c.c.run && c.o.action = 1 then some { cnt := 0, down := false, peak := false, valley := true }
  else if c.c.run && c.c.clkSrc = 1 && c.o.action = 0 then some (Counter.step s.compat c.c)
  else none

/-- The channels that link pulses reach now (05 R193). -/
def arrivals (s : State) : List (Fin 64) :=
  (List.finRange 64).filter fun n => (s.grove (groveOf n)).pulses.any fun p => decide (p.1 ≤ s.time) && decide (p.2.val = n.val % 8)

/-- Pulses arrive: slaves reset, step, or start after GO, and their own pulses set out (05 R193, Table 5.3; 04 R126). A
channel that takes such a tick takes no other in the cycle (R206). (DEDUCED, log 29.) -/
def deliverPulses (s : State) : State :=
  let ns := s.arrivals
  if ns.isEmpty then s
  else
    let s := foldFin 8 (fun g s => s.modGrove g fun x => { x with pulses := x.pulses.filter fun p => decide (s.time < p.1) }) s
    let s0 := s
    let go := ns.filter fun n => (s.chan n).c.goPend && (s.chan n).c.clkSrc = 1
    let s := go.foldl (fun s n => s.startChan n (s.startValue false false n)) s
    let ts := ns.filterMap fun n =>
      if go.contains n then (s0.dueTick s n).map fun t => (n, t) else (s.slaveTick n).map fun t => (n, t)
    let s' := (runTicks s s ts).modCyc fun c => { c with ticked := ts.map (·.1) ++ c.ticked }
    s'.sendPulses (s.pulsesOf ts)

/-- One tick of grove g in which the channels `starts` start (04 R122–R127). (DESIGN CHOICE, log 96.) -/
def groveTickWith (s : State) (g : Fin 8) (starts : List (Fin 64)) (stagger zero : Bool) : State :=
  let s0 := s
  let s := s.modGrove g fun x => { x with pscCount := 0 }
  let s := starts.foldl (fun s n => s.startChan n (s0.startValue stagger zero n)) s
  let ts := (groveChans g).filterMap fun n => (s0.dueTick s n).map fun t => (n, t)
  (runTicks s s ts).sendPulses (s.pulsesOf ts)

/-- The channels of a grove that wait for a tick after GO; a link-clocked one waits for its link (04 R123, R126). -/
def waiting (s : State) (g : Fin 8) : List (Fin 64) :=
  (groveChans g).filter fun n => (s.chan n).c.goPend && (s.chan n).c.clkSrc ≠ 1

/-- Is a tick of the grove due: PSC + 1 cycles since the last (04 R122), with its domain out of reset. -/
def tickDue (s : State) (g : Fin 8) : Bool :=
  decide ((s.grove g).psc.toNat < (s.grove g).pscCount) && s.pwr.pdUp

/-- A tick of grove g (04 R122). -/
def groveTick (s : State) (g : Fin 8) : State :=
  if s.tickDue g then s.groveTickWith g (s.waiting g) false false else s

/-- Set GRV_STAT flags: SERR bit 2, WWR bit 1. -/
def grvFlag (s : State) (g : Fin 8) (b : Word) : State :=
  (s.modGrove g fun x => { x with serr := x.serr || bit b 2, wwr := x.wwr || bit b 1 }).hwSet (0x1008 + 0x100 * g.val) b

/-- GRV_CMD.START (04 R125, R164, R168). -/
def groveStart (s : State) (g : Fin 8) : State :=
  if (groveChans g).any fun n => (s.chan n).c.en && s.runs n then
    s.grvFlag g 4
  else
    let starts := (groveChans g).filter fun n => (s.chan n).c.en || ((s.chan n).c.goPend && (s.chan n).c.clkSrc ≠ 1)
    s.groveTickWith g starts true false

/-- The counter stops: it counts as running to the end of the cycle, and ARM waits for it no longer (04 R129; 05 R184). -/
def halt (s : State) (n : Fin 64) : State :=
  let s := if (s.chan n).c.run then s.modCyc fun c => { c with stopped := n :: c.stopped } else s
  (s.modCnt n fun c => { c with run := false, goPend := false }).modGrove (groveOf n) fun x =>
    { x with armWait := x.armWait &&& ~~~(oneBit 8 (n.val % 8)) }

/-- A stop: the counter holds its value, HOLD is set, and a GO that waits for its tick is dropped (04 R129, Table 5.4).
(DESIGN CHOICE, log 95.) -/
def stopChan (s : State) (n : Fin 64) : State := (s.halt n).setCause n cHOLD

/-- GRV_CMD.STOP (04 R129). -/
def groveStop (s : State) (g : Fin 8) : State := (groveChans g).foldl (fun s n => s.stopChan n) s

/-- CH_CMD.GO (04 R126, R168). (DEDUCED, log 28.) -/
def chanGo (s : State) (n : Fin 64) : State :=
  let c := s.chan n
  if c.fenced || s.runs n || c.c.goPend then s else s.modCnt n fun x => { x with goPend := true }

/-- A write to GRV_PSC (04 R122, R130): the cycle after it is a tick. -/
def writePsc (s : State) (g : Fin 8) (w : Word) : State :=
  if (groveChans g).any fun n => s.runs n then s.grvFlag g 2
  else s.modGrove g fun x => { x with psc := .ofNat 16 (fld w 15 0), pscCount := fld w 15 0 }

/-! ## Counter, RELOAD and match registers -/

/-- A write to CH_CTL (04 R123, which JX32 mode lifts, R157). -/
def writeCtl (s : State) (n : Fin 64) (w : Word) : State :=
  let c := (s.chan n).c
  if s.runs n && !s.compat && decide (fld w 3 2 ≠ c.clkSrc) then
    (s.modCnt n fun x => { x with ctl := (w.setWidth 5 &&& 0x13) ||| (x.ctl &&& 0x0C) }).raiseChan n fWWR
  else s.modCnt n fun x => { x with ctl := w.setWidth 5 }

def writeReloadLo (s : State) (n : Fin 64) (w : Word) : State := s.modCnt n fun c => { c with rldStage := w }

/-- A write to RELOAD_HI commits the pair (04 R131–R135). -/
def writeReloadHi (s : State) (n : Fin 64) (w : Word) : State :=
  let c := (s.chan n).c
  let v := wide w c.rldStage
  if v.toNat < 2 then s.raiseChan n fWWR
  else if s.runs n then s.modCnt n fun x => { x with rldPending := some v }
  else s.modCnt n fun x => { x with reload := v, rldPending := none }

def writeMatLo (s : State) (n : Fin 64) (i : Fin 4) (w : Word) : State :=
  s.modCnt n fun c => { c with mats := vset c.mats i fun m => { m with stage := w } }

/-- A write to MATx_HI commits the pair (04 R137); the old value is still compared in this cycle (R161). -/
def writeMatHi (s : State) (n : Fin 64) (i : Fin 4) (w : Word) : State :=
  let c := (s.chan n).c
  let m := at_ c.mats i
  let v := wide w m.stage
  if bit c.matcfg (8 + i.val) && s.runs n then s.modCnt n fun c => { c with mats := vset c.mats i fun m => { m with pending := some v } }
  else
    (s.modCnt n fun c => { c with mats := vset c.mats i fun m => { m with value := v, pending := none } }).modCyc fun c =>
      { c with mats := (n, i, m.value) :: c.mats }

/-- A write to CNT_LO or CNT_HI (04 R152). -/
def writeCnt (s : State) (n : Fin 64) (hi : Bool) (w : Word) : State :=
  if s.runs n then s.raiseChan n fWWR
  else s.modCnt n fun c => c.move s.tb (if hi then wide w (lo32 c.cnt) else wide (hi16 c.cnt) w) c.down

/-- The value of one half of the counter. -/
def cntHalf (s : State) (n : Fin 64) (hi : Bool) : Word :=
  if hi then hi16 (s.chan n).c.cnt else lo32 (s.chan n).c.cnt

/-- A read of CNT_LO or CNT_HI: refused while the channel runs in native mode (04 R150, R151), live in JX32 mode
(23 R835). -/
def readCnt (s : State) (n : Fin 64) (hi : Bool) : Word × State :=
  if s.runs n && !s.compat then (0xFFFFFFFF, s.raiseChan n fRWR) else (s.cntHalf n hi, s)

/-! ## Capture (04 R144–R149) -/

/-- The counter and its direction as they stood `age` cycles ago (04 R144, R146). -/
def cntBack (now : W48) (age : Nat) (cur : W48 × Bool) : List (W48 × W48 × Bool) → W48 × Bool
  | [] => cur
  | (t, v, d) :: h => if (now - t).toNat < age then cntBack now age (v, d) h else cur

/-- A capture of a value: CAP, CAPDIR, CAPSW, and the overrun rule (04 R146, R147). A hardware capture and a software
capture of one cycle are one capture, the hardware's (R158). -/
def capture (s : State) (n : Fin 64) (sw : Bool) (v : W48) (down : Bool) : State :=
  let c := s.chan n
  if c.fenced then s
  else if s.cyc.captures.any fun p => p.chan = n then
    if sw then s else s.modChan n fun c => { c with cp := { c.cp with cap := v, sw := false, dirDown := down } }
  else
    let past := (c.ev.flag &&& fCAP) != 0
    let s := s.modChan n fun c =>
      { c with cp := { c.cp with cap := v, sw := sw, dirDown := down,
                                 ovrCnt := if past then satInc c.cp.ovrCnt else c.cp.ovrCnt } }
    let s := s.modCyc fun y =>
      { y with captures := { chan := n, sw := sw, cap := c.cp.cap, ovr := (c.ev.flag &&& fOVR) != 0, ovrCnt := c.cp.ovrCnt } :: y.captures }
    let s := s.raiseChan n (fCAP ||| (if past then fOVR else 0))
    if !c.o.lkLevel && bit c.o.evt 6 then s.sendPulses [n] else s

/-- What a capture records: the counter, or TB, `age` cycles ago (04, capture; R144). -/
def captureValue (s : State) (n : Fin 64) (age : Nat) : W48 × Bool :=
  let c := s.chan n
  let b := cntBack s.tb age (c.c.cnt, c.c.down) c.c.hist
  if bit c.cp.cfg 8 then (s.tb - BitVec.ofNat 48 age, b.2) else b

/-- A hardware edge to a level, accepted FILT + 1 cycles after c0 and registered in c0 + FILT + 2 (04 R144, R145).
(DESIGN CHOICE, log 98.) -/
def captureEdge (s : State) (n : Fin 64) (level : Bool) : State :=
  let c := s.chan n
  if c.fenced || fld c.cp.cfg 1 0 = 0 || c.cp.level == level then s
  else
    let s := s.modChan n fun c => { c with cp := { c.cp with level := level } }
    if bit c.cp.cfg (if level then 6 else 7) then
      let v := s.captureValue n (fld c.cp.cfg 12 9 + 2)
      s.capture n false v.1 v.2
    else s

/-- CH_CMD.SWCAP (04 R148). -/
def swCapture (s : State) (n : Fin 64) : State :=
  let v := s.captureValue n 0
  s.capture n true v.1 v.2

/-- A read of CAP_LO: clears CAP and loads the hold register (04 R149). With a capture in the same cycle the read answers
the old value, and the capture sets CAP again without OVR (R159). -/
def readCapLo (s : State) (n : Fin 64) : Word × State :=
  let load (s : State) (v : W48) : State := s.modChan n fun c => { c with cp := { c.cp with hold := (v >>> 32).setWidth 16 } }
  match s.cyc.captures.find? fun p => p.chan = n with
  | none =>
    let v := (s.chan n).cp.cap
    (lo32 v, (load s v).modChan n fun c => { c with ev := { c.ev with flag := c.ev.flag &&& ~~~fCAP } })
  | some p =>
    let gone := fCAP ||| (if p.ovr then 0 else fOVR)
    let s := (load s p.cap).modChan n fun c =>
      { c with ev := { c.ev with flag := c.ev.flag &&& ~~~gone }, cp := { c.cp with ovrCnt := p.ovrCnt } }
    (lo32 p.cap, s.raiseChan n fCAP)

/-! ## The timebase registers (04 R154–R156) -/

/-- A read of GLB_TB_LO or GLB_TB_HI. -/
def readTb (s : State) (hi : Bool) : Word × State :=
  if s.tbs.run then (0xFFFFFFFF, (s.modTbs fun t => { t with rwr := true }).hwSet 0x4C 1)
  else ((if hi then hi16 s.tb else lo32 s.tb), s)

/-- GLB_TB_REQ.SNAP: two in one cycle take one snapshot (04 R155, R165). -/
def tbSnap (s : State) : State :=
  if s.cyc.snapped then s
  else (s.modTbs fun t => { t with snap := t.tb, seq := t.seq + 1, valid := true }).modCyc fun c => { c with snapped := true }

/-! ## Output configuration and commands -/

/-- New bits of a register: implemented bits only, and lockable bits (RWL) only before lock (00 R10). -/
def regBits {n : Nat} (s : State) (old : BitVec n) (w : Word) (mask rwl : BitVec n) : BitVec n :=
  let m := if s.boot.locked then mask &&& ~~~rwl else mask
  (old &&& ~~~m) ||| (w.setWidth n &&& m)

/-- A write to CH_OCFG (05 R842, R843, Table 5.7). -/
def writeOcfg (s : State) (n : Fin 64) (w : Word) : State :=
  let bad := fld w 1 0 = 3
  let mask : BitVec 24 := if bad then 0xFFFFFC else 0xFFFFFF
  let s := s.modOut n fun o => { o with ocfg := s.regBits o.ocfg w mask 0x000237 }
  let s := if bad then s.raiseChan n fWWR else s
  s.noteUnder n

/-- GRV_UPD.ARM (05 R183, R184): it waits for the grove's running GRPUPD channels; no tick of its own cycle counts (R203).
(DEDUCED, log 27.) -/
def armGrove (s : State) (g : Fin 8) : State :=
  if (s.grove g).arm then s
  else
    let wait := (List.finRange 8).foldl (fun (a : BitVec 8) k =>
      if s.runs (chanOf g k) && (s.chan (chanOf g k)).o.grpupd then a ||| oneBit 8 k.val else a) 0
    (s.modGrove g fun x => { x with arm := true, armWait := wait, armDone := 0, armOwe := 0xFF }).modCyc fun c =>
      { c with armed := g :: c.armed }

/-- A command releases Clearing causes: a VALLEY tick of the same cycle does not count it yet (05 R199). -/
def release (s : State) (n : Fin 64) (b : BitVec 11) : State :=
  (s.clearCause n b).modCyc fun c => { c with released := n :: c.released }

/-- Release SW, RDBK and UNDR; UNDR stays while the channel underruns (05 R181, Table 5.4). -/
def releaseSw (s : State) (n : Fin 64) : State :=
  (s.release n (cSW ||| cRDBK ||| (if s.underruns n then 0 else cUNDR))).noteUnder n

/-- CH_OCMD.REL_SYNC (05 Table 5.4 SYNC). -/
def releaseSync (s : State) (n : Fin 64) : State :=
  let d := (s.chan n).o.domain
  if d = 0 ∨ s.domLocked (BitVec.ofNat 2 (d - 1)) = true then s.release n cSYNC else s

/-- CH_OCMD.FLUSH; a fenced channel refuses it (05 R205, R210). -/
def flushCmd (s : State) (n : Fin 64) : State :=
  if (s.chan n).fenced then s.setOstat n oEQERR else s.flushQueue n

/-- A grove's trip latch: any ITRIP latch whose GRV names it (10 R395). -/
def tripLatch (s : State) (g : Fin 8) : Bool :=
  (List.finRange 6).any fun i => (at_ s.afe.itrip i).latch && bit (at_ s.afe.itrip i).cfg g.val

/-- GRV_CLRCMD.REL_TRIP (05 Table 5.4 ITRIP). -/
def releaseTrip (s : State) (g : Fin 8) : State :=
  if s.tripLatch g then s else (groveChans g).foldl (fun s n => s.release n cITRIP) s

/-- GRV_RDM.GO (05 Table 5.6 step 3, R844): its cycle is tick 0 of the grove, as a start's is; a channel that waits after GO
waits on. (DEDUCED, log 28, DESIGN CHOICE, log 96.) -/
def rdmGo (s : State) (g : Fin 8) : State :=
  if (groveChans g).all fun n => !bit (s.chan n).o.clr 9 then s.grvFlag g 4
  else
    let s := s.modGrove g fun x => { x with rdmActive := true }
    s.groveTickWith g ((groveChans g).filter fun n => (s.chan n).c.en) true true

/-! ## Pins (05 R179, R180, R187; 09 R360; 21 R770) -/

/-- The engine and local pin that borrow channel n (09 R358). -/
def borrower (s : State) (n : Fin 64) : Option (Fin 8 × Fin 8) :=
  (List.finRange 8).findSome? fun e =>
    let p := s.eng e
    if p.en then
      ((List.finRange 8).find? fun i =>
        let w := if i.val < 4 then p.claim0 else p.claim1
        bit w (8 * (i.val % 4) + 7) && decide (fld w (8 * (i.val % 4) + 5) (8 * (i.val % 4)) = n.val)).map fun i => (e, i)
    else none

/-- POL inverts low and high (05 R179). -/
def invert (pol : Bool) (l : Level) : Level :=
  if pol then (match l with | .low => .high | .high => .low | .released => .released) else l

/-- The level of a pair's pin: turn-on waits the dead time since the pattern changed (05 R187, R188). -/
def pairLevel (s : State) (n : Fin 64) : Level :=
  let o := (s.chan (evenOf n)).o
  let sides := pairSides o.pair.forceAct o.outl
  let want := if n.val % 2 = 0 then sides.1 else sides.2
  let waited := !o.deadOn || decide (o.pair.dt.toNat ≤ s.time - o.outAt)
  if want && waited then .high else .low

/-- What the channel's pin carries while its logic is up: Clearing first, then a borrowing sequencer, then the pair or
OUTL (01 R20, 05 R179, 09 R360). -/
def intended (s : State) (n : Fin 64) : Level :=
  let o := (s.chan n).o
  if o.inClr then o.clrLvl
  else
    match s.borrower n with
    | some (e, i) => if (s.eng e).clrHold then o.clrLvl else at_ (s.eng e).drive i
    | none => if s.paired n then invert o.pol (s.pairLevel n) else invert o.pol o.outl

/-- The input cell of a channel's ball in the boundary register; its output and control cells follow (21 R790, Table 21.1:
CH0–CH55 are the balls A1–D14, CH56–CH63 the balls L1–L8). -/
def chanCell (n : Fin 64) : Nat := if n.val < 56 then 3 * n.val else 196 + 3 * (n.val - 56)

/-- What the boundary cells drive on a channel's ball: the output cell's value where the control cell is 1. -/
def cellDrives (s : State) (n : Fin 64) : Level :=
  let b := s.pins.boundary
  if bit b (chanCell n + 2) then (if bit b (chanCell n + 1) then .high else .low) else .released

/-- What the output stage gives the pin: the Clearing level one cycle after its cause, else what was intended two cycles ago
(05 R180, R197, R199, R843; 09 R368). -/
def stage (s : State) (n : Fin 64) : Level :=
  let o := (s.chan n).o
  if o.was1.clr then o.was1.level else o.was2.level

/-- What the pad drives (05 R196, 21 R768, R770, R772, R788): nothing without VIO; with RST_N low the boundary cells under
EXTEST and CLAMP, and nothing else; then the keeper's level while the channel logic is down, the Clearing level in CENSUS (19 R704), else the output stage. -/
def padDrives (s : State) (n : Fin 64) : Level :=
  if !s.pwr.vioGood then .released
  else if !s.pins.rstN then (if s.pins.tap = 0 ∨ s.pins.tap = 2 then s.cellDrives n else .released)
  else
    match s.pins.keeper.find? (fun p => p.1 = n.val) with
    | some p => p.2
    | none =>
      if s.flt.st == .census then (s.chan n).o.clrLvl
      else if s.pwr.pd1Up && s.pwr.pdUp then s.stage n
      else .released

/-- The level at the pad: what the device drives, else what the world applies, else the pull-down (21 R769). (DEDUCED, log 31.) -/
def padLevel (s : State) (n : Fin 64) : Bool :=
  match s.padDrives n with
  | .high => true
  | .low => false
  | .released => (s.pins.pad.find? (fun p => p.1 = n.val)).any (·.2)

/-- The level a capture source shows (04, capture). -/
def captureSource (s : State) (n : Fin 64) (cfg : BitVec 13) : Bool :=
  let i := fld cfg 5 2
  if fld cfg 1 0 = 1 then s.padLevel n
  else if fld cfg 1 0 = 2 then (at_ s.afe.sens (Fin.ofNat 16 i)).out
  else if fld cfg 1 0 = 3 then s.lineLevel i
  else false

/-- A write to CH_CAPCFG: the level present at a new selection counts as accepted (04 R144); IDX selects for SENS and LK. -/
def writeCapcfg (s : State) (n : Fin 64) (w : Word) : State :=
  let cfg : BitVec 13 := w.setWidth 13
  let old := (s.chan n).cp.cfg
  let fresh := fld cfg 1 0 ≠ fld old 1 0 ∨ 2 ≤ fld cfg 1 0 ∧ fld cfg 5 2 ≠ fld old 5 2
  let l := s.captureSource n cfg
  s.modChan n fun c => { c with cp := { c.cp with cfg := cfg, level := if fresh then l else c.cp.level } }

/-- An engine with a pin on a pair that enters MODE 1 halts (09 R365). -/
def haltOnPair (s : State) (n : Fin 64) : State :=
  match s.borrower n with
  | none => s
  | some (e, _) =>
    (s.modEng e fun p => { p with st := if p.st = .fenced then .fenced else .halt, clrHold := true, haltReq := false }).raisePs e 0x28

/-- A write to CH_PAIR (05 R191, R842, Table 5.8): ignored on an odd channel; MODE and DT are lockable. -/
def writePair (s : State) (n : Fin 64) (w : Word) : State :=
  if n.val % 2 = 1 then s
  else
    let bad := fld w 19 18 = 3
    let lock := s.boot.locked
    let was := (s.chan n).o.pair.mode
    let s := s.modOut n fun o =>
      { o with pair :=
        { o.pair with
          force := if bad then o.pair.force else .ofNat 2 (fld w 19 18)
          forcePend := if bad then o.pair.forcePend else true
          mode := if lock then o.pair.mode else bit w 16
          dt := if lock then o.pair.dt else .ofNat 10 (fld w 9 0) } }
    let s := if bad then s.raiseChan n fWWR else s
    let s := s.settlePair n
    if !was && s.paired n then (s.haltOnPair n).haltOnPair (partner n) else s

/-- Does readback compare the pad in this cycle? (05 R201) -/
def rbCompares (s : State) (n : Fin 64) : Bool :=
  let o := (s.chan n).o
  bit o.ocfg 9 && s.intended n != .released && decide (fld o.ocfg 15 10 ≤ s.time - o.chgAt)

/-- Readback finds the 64th differing compared cycle of a run (05 R202): RDBK, Clearing and a report to FLT (mechanism 0x08).
The run ends in a compared cycle (R201). -/
def readbackMismatch (s : State) (n : Fin 64) : State :=
  if s.rbCompares n then
    ((s.setOstat n oRDBK).setCause n cRDBK).report 0x08 1 n.val 0
  else s

/-! ## Fences of channels and groves (04 R168; 05 Table 5.4, R210) -/

/-- The fence bits: channel, grove, owning client, microengine. -/
def fnChan : BitVec 4 := 1
def fnGrove : BitVec 4 := 2
def fnClient : BitVec 4 := 4
def fnMe : BitVec 4 := 8

/-- A fence reaches channel n: cause FENCE takes the place of READMIT; a fence of the channel or its grove stops it,
discards its request and cause set, empties its queue and gives its slaves the cause LINK (04 R168; 05 Table 5.4, R210).
(DESIGN CHOICE, log 100.) -/
def fenceChan (s : State) (n : Fin 64) (by_ : BitVec 4) : State :=
  let s := s.modOut n fun o => { o with fences := o.fences ||| by_, rdmRun := false }
  let s := (s.clearCause n cREADMIT).setCause n cFENCE
  if (by_ &&& (fnChan ||| fnGrove)) == 0 || (s.chan n).fenced then s
  else
    let s := (s.halt n).modChan n fun c => { c with fenced := true, ev := c.ev.discard, o := { c.o with queue := [] } }
    let s := (s.dropRequest (.chan n)).setCause n cHOLD
    foldFin 64 (fun m s =>
      if s.isMaster n m && s.linked m then
        (s.modOut m fun o => { o with linkBy := o.linkBy ||| oneBit 64 n.val }).setCause m cLINK
      else s) s

/-- A fence of channel n is lifted: FENCE turns into READMIT with the last one (05 Table 5.4, Table 5.6 step 1). -/
def unfenceChan (s : State) (n : Fin 64) (by_ : BitVec 4) : State :=
  if ((s.chan n).o.fences &&& by_) == 0 then s
  else
    let s := s.modOut n fun o => { o with fences := o.fences &&& ~~~by_ }
    let f := (s.chan n).o.fences
    let s := if (f &&& (fnChan ||| fnGrove)) == 0 then s.modChan n fun c => { c with fenced := false } else s
    if f == 0 then (s.setCause n cREADMIT).clearCause n cFENCE else s

/-- The re-set of flags whose condition lasts: TAP0 while the fine-delay table is invalid, LKDUP, UNDR (05 R181,
R186, R192). (DEDUCED, log 94.) -/
def lasting (s : State) (n : Fin 64) : State :=
  let s := if s.calValid then s else s.modOut n fun o => { o with ostat := o.ostat ||| oTAP0 }
  s.settleLkdup.noteUnder n

/-- The output stage moves on one core cycle (05 R180, R201). -/
def shiftStage (s : State) (n : Fin 64) : State :=
  let now : PinSample :=
    { clr := (s.chan n).o.inClr, level := s.intended n, outl := (s.chan n).o.outl, pad := s.padLevel n }
  s.modOut n fun o =>
    { o with was2 := o.was1, was1 := now, chgAt := if now.level = o.was1.level then o.chgAt else s.time + 1 }

/-- One core cycle of the groves and channels: the output stages move on; prescalers count; ARM clears; link pulses arrive;
TAP0 is set while the fine-delay table is invalid (04 R122; 05 R180, R184, R186, R193). (DEDUCED, log 94.) -/
def channelCycle (s : State) : State :=
  let s := foldFin 8 (fun g s => (s.modGrove g fun x => { x with pscCount := x.pscCount + 1 }).settleArm g) s
  let s := if s.calValid then s
    else foldFin 64 (fun n s => s.modOut n fun o => { o with ostat := o.ostat ||| oTAP0 }) s
  s.deliverPulses

def fenceGrove (s : State) (g : Fin 8) : State :=
  (groveChans g).foldl (fun s n => s.fenceChan n fnGrove) (s.modGrove g fun x => { x with rdmActive := false })
def unfenceGrove (s : State) (g : Fin 8) : State := (groveChans g).foldl (fun s n => s.unfenceChan n fnGrove) s

end State
end Sys2Proof.Machine
end

