-- ==== Sys2Proof/Machine/Store.lean ====
section
/-!
DEFINITION. Machine/Store.lean: bins as words (17 Table 17.4) and record writes asked of the record store (17 R649, R664).
-/
namespace Sys2Proof.Machine

/-- Word i of a bin (17 Table 17.4). -/
def Bin.word (b : Bin) (i : Nat) : Word :=
  match i with
  | 0 => b.start
  | 1 => packw [(b.kind.toNat, 28), (b.flags.toNat, 20), (min b.obs 0x1FFFF, 0)]
  | 3 => b.upd
  | 40 => b.odo
  | 41 => b.run
  | 42 => b.gov
  | 43 => b.plaus
  | 44 => b.tamper
  | 45 => b.rsretry
  | _ =>
    if 8 ≤ i ∧ i < 40 then
      let v := at_ b.links (Fin.ofNat 4 ((i - 8) / 8))
      if h : (i - 8) % 8 < 7 then v[(i - 8) % 8] else 0
    else 0

/-- The bytes of a bin. -/
def Bin.bytes (b : Bin) : List Byte := (List.range 48).flatMap fun i => wordBytes (b.word i)

/-- The words of a run of bytes. -/
def wordsOf : Nat → List Byte → List Word
  | 0, _ => []
  | n + 1, bs => bytesWord (bs.take 4) :: wordsOf n (bs.drop 4)

/-- The bin a record holds. -/
def Bin.ofBytes (bs : List Byte) : Bin :=
  let w (i : Nat) : Word := (wordsOf 48 bs).getD i 0
  { start := w 0, kind := .ofNat 4 (fld (w 1) 31 28), flags := .ofNat 8 (fld (w 1) 27 20), obs := fld (w 1) 16 0,
    links := Vector.ofFn fun l => Vector.ofFn fun k => w (8 + 8 * l.val + k.val),
    odo := w 40, run := w 41, gov := w 42, plaus := w 43, tamper := w 44, rsretry := w 45 }

namespace State

/-- A record write is asked for; one of the same TYPE and INDEX that is still queued is replaced (17 R664). (DEDUCED, log 58.) -/
def rsEnqueue (s : State) (type index : Nat) (data : List Byte) : State :=
  let w : RsWrite := { type := .ofNat 8 type, index := .ofNat 8 index, data := data }
  s.modRs fun r =>
    if r.queue.any fun x => x.type = w.type ∧ x.index = w.index then
      { r with queue := r.queue.map fun x => if x.type = w.type ∧ x.index = w.index then w else x }
    else { r with queue := r.queue ++ [w] }

/-- The lifetime totals as they stand: START is the time of this update, RUN counts seconds (17, before Table 17.4). -/
def lifeTotals (s : State) : Bin :=
  { s.pm.life with kind := 4, start := s.canopy.rtcSec, odo := s.pm.odo, run := s.pm.runSec }

/-- The lifetime totals are written to the record store (17 R649). -/
def writeLife (s : State) : State :=
  (s.rsEnqueue 0x11 0 { s.lifeTotals with upd := 0 }.bytes).modPm fun p => { p with sinceLife := 0 }

/-- The ring as it is stored, oldest record first (19 R724). -/
def logBytes (s : State) : List Byte :=
  let f := s.flt
  (List.range 16).flatMap fun i =>
    let e := if f.held < 16 then i else (f.newest.toNat + 1 + i) % 16
    let r := at_ f.log (Fin.ofNat 16 e)
    wordBytes r.w0 ++ wordBytes r.w1 ++ wordBytes r.w2 ++ wordBytes r.w3

/-- The supervisor writes the ring as record type 0x04 (19 R724). (DEDUCED, log 68.) -/
def storeLog (s : State) : State := (s.rsEnqueue 0x04 0 s.logBytes).modFlt fun f => { f with unstored := false }

end State
end Sys2Proof.Machine
end

