-- ==== Sys2Proof/Machine/Angle.lean ====
section
/-!
DEFINITION. Machine/Angle.lean: angle domains, the speed governor, the plausibility checkers (06), and the odometer that
counts their edges (17 R639).
-/
namespace Sys2Proof.Machine

/-! ## Fields -/

def AngleDom.en (a : AngleDom) : Bool := bit a.ctl 0
def AngleDom.scheme (a : AngleDom) : Nat := fld a.ctl 3 2
/-- The level an input shows after its active edge (AD_CTL.EDGE). -/
def AngleDom.activeLevel (a : AngleDom) : Bool := !bit a.ctl 4
def AngleDom.acc (a : AngleDom) : Nat := fld a.ctl 6 5
def AngleDom.filt (a : AngleDom) : Nat := fld a.ctl 11 8
def AngleDom.div (a : AngleDom) : Nat := 2 ^ fld a.wheel 31 30
def AngleDom.revpm (a : AngleDom) : Nat := fld a.wheel 29 24
def AngleDom.expos (a : AngleDom) : Nat := fld a.wheel 23 16
def AngleDom.confirm (a : AngleDom) : Nat := fld a.sync 31 24
def AngleDom.refrat (a : AngleDom) : Nat := fld a.sync 23 16
def AngleDom.whi (a : AngleDom) : Nat := fld a.sync 15 8
def AngleDom.wlo (a : AngleDom) : Nat := fld a.sync 7 0
def AngleDom.marks (a : AngleDom) : Nat := fld a.codecfg 14 8
def AngleDom.kwin (a : AngleDom) : Nat := fld a.codecfg 4 0
/-- AD_CODE entry i: the class of tooth or mark i. -/
def AngleDom.codeAt (a : AngleDom) (i : Nat) : Nat :=
  fld (at_ a.code (Fin.ofNat 64 (i / 8))) (4 * (i % 8) + 3) (4 * (i % 8))
/-- The code of Hall sector i. -/
def AngleDom.hallAt (a : AngleDom) (i : Nat) : Nat := fld a.hall (3 * i + 2) (3 * i)
def AngleDom.govEn (a : AngleDom) : Bool := bit a.gov 0
def AngleDom.govAct_ (a : AngleDom) : Bool := bit a.gov 1
def AngleDom.govCut (a : AngleDom) : Nat := fld a.gov 5 4
def AngleDom.govN (a : AngleDom) : Nat := fld a.gov 15 12
/-- In scheme 0 with EXPOS outside 96–160 the two parts of the gap tell the direction (R238). -/
def AngleDom.tellsDir (a : AngleDom) : Bool := decide (a.expos < 96) || decide (160 < a.expos)
def Checker.src (p : Checker) : BitVec 2 := .ofNat 2 (fld p.ctl 5 4)
def Checker.ref (p : Checker) : BitVec 2 := .ofNat 2 (fld p.ctl 7 6)
def Checker.cut (p : Checker) : BitVec 2 := .ofNat 2 (fld p.ctl 9 8)

/-- AD_FLAG bits (06 Table 6.9). -/
def aLOCK : BitVec 16 := 0x0001
def aLOST : BitVec 16 := 0x0002
def aDROP : BitVec 16 := 0x0004
def aPITCH : BitVec 16 := 0x0008
def aREF : BitVec 16 := 0x0010
def aSECT : BitVec 16 := 0x0020
def aREV : BitVec 16 := 0x0040
def aGOV : BitVec 16 := 0x0080
def aGOVCLR : BitVec 16 := 0x0100
def aPLT : BitVec 16 := 0x0200
def aWWR : BitVec 16 := 0x0400

/-- Exit reasons (06 Table 6.4). -/
def rEARLY : Nat := 1
def rLATE : Nat := 2
def rNOREF : Nat := 3
def rCODE : Nat := 4
def rPLAUS : Nat := 5
def rGOV : Nat := 6
def rREV : Nat := 7
def rSLOW : Nat := 8
def rCMD : Nat := 9
def rFENCE : Nat := 10

/-! ## Measuring (06 R223–R229) -/

/-- Forget what a new SEARCH must not use (R224). -/
def AngleDom.search (a : AngleDom) : AngleDom :=
  { a with st := .search
           k := { a.k with tau := none, count := 0, checks := 0, classes := [], fall := none, mark := none,
                           divCount := 0, gap := none, gapHeld := false, gapMiss := false, fwd := 0 } }

/-- The predicted next interval: t + a (t − t'), held between t/2 and 2 t (R224). -/
def predict (acc : Nat) (t prev : Nat) : Nat :=
  let d : Int := (t : Int) - prev
  let p : Int := (t : Int) + (if acc = 0 then 0 else if acc = 1 then d / 2 else d)
  max (t / 2) (min (2 * t) p.toNat)

/-- The interval from the last pitch edge to t, saturating (Table 6.10 PER). -/
def AngleDom.interval (a : AngleDom) (t : W48) : Option Nat := a.k.tau.map fun τ => min (t - τ).toNat (2 ^ 32 - 1)

/-- A pitch edge at t that starts pitch k: interval, prediction and rate (R223–R226). -/
def AngleDom.pitchEdge (a : AngleDom) (k : Nat) (t : W48) : AngleDom :=
  match a.interval t with
  | none => { a with pitch := k, k := { a.k with tau := some t } }
  | some i =>
    let p := predict a.acc i (if a.k.count = 0 then i else a.per.toNat)
    let rate := (a.toothAngle (k + 1) - a.toothAngle k) * 2 ^ 32 / p
    { a with
      per := BitVec.ofNat 32 i
      pred := satOf 32 p
      pitch := k
      k := { a.k with tau := some t, count := min 2 (a.k.count + 1), rate := rate,
                      rev := if k = 0 && a.st == .locked then a.k.rev + 1 else a.k.rev } }

/-- Where an elapsed time stands in a window of the prediction scaled by part/256 (R229): before, in, or past it. -/
inductive WinPos | early | inside | late
  deriving DecidableEq, Repr

/-- (DEDUCED, log 33.) -/
def AngleDom.window (a : AngleDom) (part elapsed : Nat) : WinPos :=
  let p := a.pred.toNat
  if elapsed * 65536 < p * part * (256 - a.wlo) then .early
  else if p * part * (256 + a.whi) < elapsed * 65536 then .late
  else .inside

/-- A window applies from a domain's second pitch on, once an interval is known (Table 6.3). -/
def AngleDom.windowed (a : AngleDom) : Bool := decide (0 < a.k.count)

/-- The part of the reference gap, and the time it is measured from, of the edge that is expected next. (DEDUCED, log 32.) -/
def AngleDom.expected (a : AngleDom) : Nat × Option W48 :=
  if a.scheme = 0 && a.pitch + 1 = a.pitches then
    match a.k.gap with
    | none => ((if a.tellsDir then max a.expos (256 - a.expos) else a.expos), a.k.tau)
    | some g => ((if a.k.gapHeld then a.expos else 256 - a.expos), some g)
  else (256, a.k.tau)

/-- The window of the expected edge has closed by `now` with no edge (R228, R232). (DEDUCED, log 32.) -/
def AngleDom.windowOver (a : AngleDom) (now : W48) : Bool :=
  (a.st == .locked || a.st == .candidate || a.st == .search) && a.windowed &&
  match a.expected.2 with
  | some t => a.window a.expected.1 (now - t).toNat == .late
  | none => false

/-- Why a LOCKED domain leaves when its window closes: reason, and true for LOST (Table 6.4 LATE, NOREF, SLOW). (DEDUCED, log 32.) -/
def AngleDom.closeReason (a : AngleDom) : Nat × Bool :=
  let inGap := a.scheme = 0 && a.pitch + 1 = a.pitches
  if inGap && (a.k.gap.isNone || a.k.gapHeld) then (rNOREF, true)
  else if a.slow.toNat * 256 ≤ a.pred.toNat * (256 + a.whi) then (rSLOW, false)
  else (rLATE, true)

/-! ## What one accepted edge means to the scheme (06 R213–R218, Table 6.3, R238) -/

/-- What an edge brings: the pitch it starts, a check passed or failed, an exit with its reason, a reverse change, a
valid Hall change, a match in SEARCH that makes a CANDIDATE. -/
structure EdgeNews where
  pitch : Option Nat := none
  check : Option Bool := none
  exit : Option Nat := none
  reverse : Bool := false
  sect : Bool := false
  candidate : Bool := false
  deriving DecidableEq, Repr

/-- The class of a tooth of non-active width w in interval t: |9 w/t − c| ≤ 0.35; 0 is unclassified (R216). (DEDUCED, log 33.) -/
def widthClass (w t : Nat) : Nat :=
  (([1, 2, 3, 4, 5, 6, 7, 8] : List Nat).find? fun c => decide (180 * w ≤ 20 * c * t + 7 * t ∧ 20 * c * t ≤ 180 * w + 7 * t)).getD 0

/-- The positions of a cyclic code of n entries at which the last classes (newest first) end, one position per match. -/
def AngleDom.codeEnds (a : AngleDom) (n : Nat) (classes : List Nat) : List Nat :=
  (List.range n).filter fun x =>
    (List.range classes.length).all fun i => decide (a.codeAt ((x + n * classes.length - i) % n) = classes.getD i 0)

/-- SEARCH with a class window: the one position at which the last K classes match (Table 6.3). -/
def AngleDom.codeMatch (a : AngleDom) (n : Nat) : Option Nat :=
  if a.k.classes.length < a.kwin || a.kwin = 0 then none
  else
    match a.codeEnds n (a.k.classes.take a.kwin) with
    | [x] => some x
    | _ => none

def AngleDom.pushClass (a : AngleDom) (c : Nat) : AngleDom :=
  { a with k := { a.k with classes := (c :: a.k.classes).take 16 } }

/-- SEARCH starts anew with an edge that comes before its window opens (R228). (DEDUCED, log 106.) -/
def AngleDom.anew (a : AngleDom) (t : W48) : AngleDom :=
  match a.k.tau with
  | some τ => if a.st = .search && a.windowed && a.window 256 (t - τ).toNat == .early then a.search else a
  | none => a

/-- Scheme 0: an active edge of the tooth input at t (R215, R229, R238). -/
def edgeExtra (a : AngleDom) (t : W48) : AngleDom × EdgeNews :=
  let since (x : Option W48) : Nat := match x with | some τ => (t - τ).toNat | none => 0
  let n := a.pitches
  if a.st = .search || a.st = .lost || a.st = .off then
    match a.interval t with
    | some i =>
      if a.st = .search && a.k.count ≠ 0 && decide (i * 256 < a.refrat * a.per.toNat) then
        ({ a with pitch := n - 1, k := { a.k with gap := some t, gapHeld := false, gapMiss := false } },
          { candidate := true })
      else ((a.anew t).pitchEdge 0 t, {})
    | none => (a.pitchEdge 0 t, {})
  else if a.pitch + 1 = n then
    if a.k.gapMiss then (a, {})
    else
      match a.k.gap with
      | none =>
        let w1 := a.window a.expos (since a.k.tau)
        let w2 := a.window (256 - a.expos) (since a.k.tau)
        if w1 = .inside then
          ({ a with rev := false, k := { a.k with gap := some t, gapHeld := false } }, { check := some true })
        else if !a.tellsDir then (a, { exit := some rEARLY, check := some false })
        else if w2 = .inside then ({ a with k := { a.k with gap := some t, gapHeld := true } }, {})
        else if w1 = .early ∧ w2 = .early then (a, { exit := some rEARLY, check := some false })
        else if a.st = .candidate then (a, { exit := some rNOREF, check := some false })
        else ({ a with k := { a.k with gapMiss := true } }, {})
      | some g =>
        if a.k.gapHeld then
          if a.window a.expos (t - g).toNat = .inside then (a, { reverse := true })
          else (a, { exit := some rNOREF, check := some false })
        else if a.window (256 - a.expos) (t - g).toNat = .early then (a, { exit := some rEARLY, check := some false })
        else ({ (a.pitchEdge 0 t) with k := { (a.pitchEdge 0 t).k with gap := none, gapHeld := false, gapMiss := false } },
               { pitch := some 0 })
  else if a.windowed && a.window 256 (since a.k.tau) == .early then (a, { exit := some rEARLY, check := some false })
  else (a.pitchEdge (a.pitch + 1) t, { pitch := some (a.pitch + 1) })

/-- Scheme 1: an edge of the tooth input (R216). The class of a tooth is known at the next tooth's edge. -/
def edgeWidth (a : AngleDom) (active : Bool) (t : W48) : AngleDom × EdgeNews :=
  if !active then ({ a with k := { a.k with fall := some t } }, {})
  else
    match a.k.tau, a.k.fall with
    | some τ, some f =>
      let n := a.pitches
      let early := (a.st = .locked || a.st = .candidate) && a.windowed && a.window 256 (t - τ).toNat == .early
      if early then (a, { exit := some rEARLY, check := some false })
      else
        let a := a.anew t
        let c := widthClass (t - f).toNat (t - τ).toNat
        let a' := { a.pushClass c with k := { (a.pushClass c).k with fall := none } }
        if a.st = .locked || a.st = .candidate then
          let ok := decide (c ≠ 0) && decide (c = a.codeAt a.pitch)
          let k := (a.pitch + 1) % n
          (a'.pitchEdge k t, { pitch := some k, check := some ok, exit := if ok then none else some rCODE })
        else
          match (if a.st = .search then a'.codeMatch n else none) with
          | some x => (a'.pitchEdge ((x + 1) % n) t, { candidate := true })
          | none => (a'.pitchEdge 0 t, {})
    | _, _ => ({ (a.pitchEdge 0 t) with k := { (a.pitchEdge 0 t).k with fall := none } }, {})

/-- Scheme 2: an active edge of the main track (R217): every DIV-th is a pitch edge. -/
def edgeMain (a : AngleDom) (t : W48) : AngleDom × EdgeNews :=
  let n := a.pitches
  if a.k.divCount + 1 < a.div then ({ a with k := { a.k with divCount := a.k.divCount + 1 } }, {})
  else
    let synced := a.st = .locked || a.st = .candidate
    let since := match a.k.tau with | some τ => (t - τ).toNat | none => 0
    if synced && a.windowed && a.window 256 since == .early then
      (a, { exit := some rEARLY, check := some false })
    else
      let a := a.anew t
      let k := if n = 0 then 0 else (a.pitch + 1) % n
      let a' := a.pitchEdge k t
      let mark := a.k.mark.map fun m => (m.1 + 1, if m.1 = 0 then k else m.2)
      ({ a' with k := { a'.k with divCount := 0, mark := mark } }, { pitch := if synced then some k else none })

/-- Scheme 2: an edge of the reference track (R217): a mark begins, or ends and has its class. (DEDUCED, log 33.) -/
def edgeMark (a : AngleDom) (active : Bool) : AngleDom × EdgeNews :=
  if active then ({ a with k := { a.k with mark := some (0, a.pitch), divCount := a.div - 1 } }, {})
  else
    match a.k.mark with
    | none => (a, {})
    | some (cnt, start) =>
      let c := if 1 ≤ cnt ∧ cnt ≤ 8 then cnt else 0
      let n := a.pitches
      let gap := if a.marks = 0 then 0 else n / a.marks
      let a' := { a.pushClass c with k := { (a.pushClass c).k with mark := none } }
      if a.st = .locked || a.st = .candidate then
        let ok := decide (c ≠ 0) && decide (gap ≠ 0) && decide (start % gap = 0) && decide (c = a.codeAt (start / gap))
        (a', { check := some ok, exit := if ok then none else some rCODE })
      else
        match (if a.st = .search then a'.codeMatch a.marks else none) with
        | some j => ({ a' with pitch := (j * gap + cnt - 1) % n }, { candidate := true })
        | none => (a', {})

/-- The sector of a Hall code (R218). -/
def AngleDom.sectorOf (a : AngleDom) (code : Nat) : Option (Fin 6) := (List.finRange 6).find? fun i => a.hallAt i.val = code

/-- Scheme 3: a change of the Hall code at t; levels are already the new ones (R218, R239, R250). A change before its window
opens is EARLY, whatever it changes to (R231). -/
def edgeHall (a : AngleDom) (t : W48) : AngleDom × EdgeNews :=
  let synced := a.st = .locked || a.st = .candidate
  let since := match a.k.tau with | some τ => (t - τ).toNat | none => 0
  let early := synced && a.windowed && a.window 256 since == .early
  let a := a.anew t
  let invalid : EdgeNews := { exit := some (if early then rEARLY else rCODE), check := some false }
  match a.sectorOf a.k.levels.toNat with
  | none => ({ a with k := { a.k with sectorKnown := false, fwd := 0 } }, invalid)
  | some x =>
    if !a.k.sectorKnown then
      ({ a with sector := x, pitch := x.val, k := { a.k with sectorKnown := true, tau := some t } }, {})
    else if x.val = (a.sector.val + 1) % 6 then
      if early then ({ a with sector := x, rev := false }, { sect := true, exit := some rEARLY, check := some false })
      else
        let a' := { a.pitchEdge x.val t with sector := x, rev := false }
        let f := a.k.fwd + 1
        ({ a' with k := { a'.k with fwd := f } },
          { sect := true, pitch := if synced then some x.val else none, check := if synced then some true else none,
            candidate := decide (a.st = .search) && decide (2 ≤ f) })
    else if (x.val + 1) % 6 = a.sector.val then
      ({ a with sector := x, pitch := x.val, rev := true, k := { a.k with fwd := 0 } },
        { sect := true, reverse := true, exit := if early then some rEARLY else none })
    else ({ a with sector := x, pitch := x.val, k := { a.k with fwd := 0 } }, invalid)

/-- One accepted edge at input i, to its scheme; t is the edge's timestamp. -/
def edgeNews (a : AngleDom) (i : Fin 3) (level : Bool) (t : W48) : AngleDom × EdgeNews :=
  let active := level == a.activeLevel
  if a.scheme = 0 then (if i = 0 ∧ active = true then edgeExtra a t else (a, {}))
  else if a.scheme = 1 then (if i = 0 then edgeWidth a active t else (a, {}))
  else if a.scheme = 2 then
    (if i = 0 then (if active then edgeMain a t else (a, {})) else if i = 1 then edgeMark a active else (a, {}))
  else edgeHall a t

/-- The exit that an edge brings a LOCKED domain: reason, and true for LOST (Table 6.4); with an interval above SLOWPER a
pitch edge is not used (R253). -/
def edgeExit (a : AngleDom) (t : W48) (w : EdgeNews) : Option (Nat × Bool) :=
  match w.exit with
  | some r => some (r, true)
  | none =>
    if w.reverse then some (rREV, bit a.ctl 7)
    else if w.pitch.isSome && decide (a.slow.toNat < (a.interval t).getD 0) then some (rSLOW, false)
    else none

/-- What is seen of an edge that is not used: the Hall sector and the direction (06 R238, R250). -/
def AngleDom.seen (a b : AngleDom) : AngleDom :=
  if a.scheme = 3 then { a with sector := b.sector, rev := b.rev, k := { a.k with sectorKnown := b.k.sectorKnown } } else a

/-- Is an edge at input i one whose distances are raw intervals: an active edge of SRC0, or any Hall change? (06 Table 6.10)
(DEDUCED, log 107.) -/
def AngleDom.rawEdge (a : AngleDom) (i : Fin 3) (level : Bool) : Bool := a.scheme = 3 || (i = 0 && level == a.activeLevel)

/-- An edge is accepted: the input's level, and the raw interval (06 R212, R237). -/
def AngleDom.accept (a : AngleDom) (i : Fin 3) (level : Bool) (t : W48) : AngleDom :=
  let k := { a.k with levels := if level then a.k.levels ||| oneBit 3 i.val else a.k.levels &&& ~~~oneBit 3 i.val }
  if a.rawEdge i level then
    { a with k := { k with rawTau := some t, raw := match k.rawTau with | some τ => satOf 32 (t - τ).toNat | none => k.raw } }
  else { a with k := k }

/-! ## Configuration checks -/

/-- The fields that make an enable invalid (06 R252). (DEDUCED, log 34.) -/
def AngleDom.badConfig (a : AngleDom) : Bool :=
  let sc := a.scheme
  let n := fld a.wheel 9 0
  let used := if sc = 1 then n else if sc = 2 then a.marks else 0
  let hall := (List.range 6).map a.hallAt
  decide (a.acc = 3) ||
  (decide (sc ≠ 3) && (decide (n < 4) || decide (512 < n))) ||
  (decide (sc = 0) && (decide (a.expos < 32) || decide (224 < a.expos))) ||
  (decide (sc = 2) && (decide (a.marks < 1) || decide (64 < a.marks) || decide (n % a.marks ≠ 0))) ||
  ((decide (sc = 1) || decide (sc = 2)) && (decide (a.kwin < 1) || decide (16 < a.kwin) || decide (used < a.kwin))) ||
  (decide (sc ≠ 2) && decide (fld a.wheel 31 30 ≠ 0)) ||
  ((List.range used).any fun i => decide (a.codeAt i < 1) || decide (8 < a.codeAt i)) ||
  (decide (sc = 3) && (hall.any (fun h => decide (h < 1) || decide (6 < h)) || !decide hall.Nodup)) ||
  decide (a.revpm < 1) || decide (a.govN < 1) ||
  (a.govEn && decide (a.govCut = 3)) || decide (a.slow = 0) || decide (a.govClr = 0)

namespace State

/-! ## Exits, holds and the safe ending (06 R231–R237) -/

/-- The domain is held in LOST (06 R236). -/
def held (s : State) (d : Fin 3) : Bool :=
  (s.ad d).fenced ||
  (List.finRange 2).any (fun i => let p := s.pl i; p.trip && bit p.ctl 1 && decide (p.cut.toNat = d.val)) ||
  (List.finRange 3).any (fun e => decide (e ≠ d) && (s.ad e).govAct && (s.ad e).govAct_ && decide ((s.ad e).govCut = d.val))

/-- The Timetable freezes the domain's heap and starts a sweep of its entries (07 R280, R281). -/
def startSweep (s : State) (d : Fin 3) (why : SweepWhy) : State :=
  s.modTt fun t =>
    { t with
      sweeps := t.sweeps.set d.val (some why) d.isLt
      cal := t.cal.map fun p =>
        if p.2.st ≠ .free ∧ p.2.keysel.toNat = d.val + 1 then (p.1, { p.2 with doomed := true }) else p }

/-- Every angle entry keyed to the domain goes, in every channel (05 R208). -/
def dropAngleEdges (s : State) (d : Fin 3) : State :=
  s.discardEdges fun e => e.kind == 2 && decide (e.dom.toNat = d.val)

/-- Did the domain leave LOCKED, or enter LOST, in this cycle? (06 R253, R255) -/
def exitedNow (s : State) (d : Fin 3) : Bool := decide ((s.ad d).k.exitAt = some s.tb)

/-- The reason reported when an exit falls on the cycle of an earlier one: the lower code (06 R255). -/
def exitReason (s : State) (d : Fin 3) (reason : Nat) : BitVec 4 :=
  .ofNat 4 (if s.exitedNow d then min (s.ad d).reason.toNat reason else reason)

/-- What an exit from domain d's synchronisation does at once: the domain as it was is noted, an angle entry of it that fired
in this cycle did not, every such entry goes, and a sweep of the calendar starts (Table 6.5 steps 1 and 2; R254). -/
def endAngles (s : State) (d : Fin 3) (before : AngleDom) (why : SweepWhy) : State :=
  let s := s.modCyc fun c => { c with exits := (d, before) :: c.exits }
  let s := s.cyc.fired.foldl (fun s p =>
    if p.2.queue.head?.any fun e => e.kind == 2 && decide (e.dom.toNat = d.val) then s.unfire p.1 else s) s
  (s.dropAngleEdges d).startSweep d why

/-- The domain enters LOST with a reason, and the safe ending of Table 6.5 follows (06 R233), SYNC one cycle later; one that is
OFF or LOST already does not (R256), and one LOST in this cycle reports the lower reason (R255). -/
def loseDomain (s : State) (d : Fin 3) (reason : Nat) : State :=
  let r := s.exitReason d reason
  let now := s.tb
  if (s.ad d).st = .off then s
  else if (s.ad d).st = .lost then
    if s.exitedNow d then s.modAd d fun a => { a with reason := r } else s
  else
    let before := s.ad d
    let s := s.modAd d fun a =>
      { a with st := .lost, reason := r, losts := satInc a.losts, k := { a.search.k with exitAt := some now, syncDue := true } }
    (s.raiseAd d aLOST).endAngles d before .lost

/-- The domain leaves LOCKED quietly (06 R234); one LOST in this cycle stays LOST, with the lower reason (R255). -/
def dropDomain (s : State) (d : Fin 3) (reason : Nat) : State :=
  let r := s.exitReason d reason
  let now := s.tb
  if (s.ad d).st = .locked then
    let before := s.ad d
    let s := s.modAd d fun a => { a with st := .search, reason := r, k := { a.search.k with exitAt := some now } }
    (s.raiseAd d aDROP).endAngles d before .drop
  else if (s.ad d).st = .lost ∧ s.exitedNow d = true then s.modAd d fun a => { a with reason := r }
  else s

/-- An exit from LOCKED: LOST or DROP. -/
def exitDomain (s : State) (d : Fin 3) (reason : Nat) (lost : Bool) : State :=
  if lost then s.loseDomain d reason else s.dropDomain d reason

/-- Domains whose last hold ended since s0 enter SEARCH (06 R237). -/
def releaseHolds (s0 s : State) : State :=
  foldFin 3 (fun d s =>
    if s0.held d && !s.held d && (s.ad d).st == .lost then s.modAd d AngleDom.search else s) s

/-- The reason of the hold on a domain: the lowest code of those that hold it (06 R236). -/
def holdReason (s : State) (d : Fin 3) : Nat :=
  if (List.finRange 2).any (fun i => let p := s.pl i; p.trip && bit p.ctl 1 && decide (p.cut.toNat = d.val)) then rPLAUS
  else if (s.ad d).fenced then rFENCE
  else rGOV

/-- Domains whose first hold arose since s0 enter LOST with its reason (06 R236). -/
def takeHolds (s0 s : State) : State :=
  foldFin 3 (fun d s => if !s0.held d && s.held d then s.loseDomain d (s.holdReason d) else s) s

/-- When a trigger's angle is next reached, ahead of the position pos (06 R251). (DEDUCED, log 36.) -/
def nextTrig (pos w : Word) : Word :=
  let same := (pos &&& 0xFF000000) ||| BitVec.ofNat 32 (fld w 23 0)
  if pos.toNat < same.toNat then same else same + 0x01000000

/-- CANDIDATE to LOCKED (06 R220, R230): tag 0, and each trigger waits for its angle's next occurrence (R251). -/
def lockDomain (s : State) (d : Fin 3) : State :=
  let s := s.modAd d fun a =>
    let a := { a with st := .locked, k := { a.k with rev := 0, tagBase := 0 } }
    let base : BitVec 8 := .ofNat 8 ((a.estimate s.tb + a.zero.toNat) / 2 ^ 24)
    let a := { a with k := { a.k with tagBase := base } }
    { a with trigDue := a.atrig.map (nextTrig (a.position s.tb)) }
  (s.raiseAd d aLOCK).fltBack (unitKey 3 d.val)

/-- A check in CANDIDATE (06 R230): a failure returns to SEARCH, the CONFIRM-th pass locks when the last interval is at
most 3/4 of SLOWPER. (DEDUCED, log 34.) -/
def candidateCheck (s : State) (d : Fin 3) (ok : Bool) : State :=
  if !ok then s.modAd d AngleDom.search
  else
    let s := s.modAd d fun a => { a with k := { a.k with checks := a.k.checks + 1 } }
    let a := s.ad d
    if max a.confirm 1 ≤ a.k.checks ∧ 4 * a.per.toNat ≤ 3 * a.slow.toNat then s.lockDomain d else s

/-! ## Governor, plausibility, odometer -/

/-- The governor at a LOCKED pitch edge (06 R240–R242). -/
def governor (s : State) (d : Fin 3) : State :=
  let a := s.ad d
  if !a.govEn then s
  else if !a.govAct then
    if a.per.toNat < a.govMin.toNat then
      if a.govN ≤ a.govCount + 1 then
        let s := s.modAd d fun a => { a with govAct := true, govCount := 0, govs := satInc a.govs }
        let s := s.raiseAd d aGOV
        let s := { s with pm := { s.pm with sec := { s.pm.sec with gov := s.pm.sec.gov + 1 } } }
        s.modAd d fun a => { a with k := { a.k with govDue := a.govAct_ } }
      else s.modAd d fun a => { a with govCount := a.govCount + 1 }
    else s.modAd d fun a => { a with govCount := 0 }
  else if a.govClr.toNat < a.per.toNat then
    if a.govN ≤ a.govCount + 1 then
      let s0 := s
      let s := (s.modAd d fun a => { a with govAct := false, govCount := 0 }).raiseAd d aGOVCLR
      releaseHolds s0 s
    else s.modAd d fun a => { a with govCount := a.govCount + 1 }
  else s.modAd d fun a => { a with govCount := 0 }

/-- Does the evaluation of checker p violate? (06 R244) The periods are compared exactly, as whole cycles × 2^16. (DEDUCED, log 33.) -/
def violates (s : State) (p : Checker) (srcPer : Nat) : Bool :=
  match domOf p.ref with
  | none => true
  | some r =>
    let a := s.ad r
    let derived := srcPer * p.ratio.toNat
    let refPer := a.per.toNat * a.pitches * a.revpm * 2 ^ 16
    let lo := fld p.win 7 0
    let hi := fld p.win 15 8
    a.st != .locked || decide (derived * 256 < refPer * (256 - lo)) ||
      (decide (hi ≠ 0xFF) && decide (refPer * (256 + hi) < derived * 256))

/-- The cut of a governor that became active in the cycle before (06 R242, R243). -/
def governorCut (s : State) (d : Fin 3) : State :=
  if (s.ad d).k.govDue then
    let s := s.modAd d fun a => { a with k := { a.k with govDue := false } }
    match domOf (.ofNat 2 (s.ad d).govCut) with
    | some c =>
      let s := s.loseDomain c rGOV
      if c = d then s.modAd d fun a => { a with govAct := false } else s
    | none => s
  else s

/-- The trip of a checker that reached N in the cycle before (06 R245). -/
def checkerTrip (s : State) (i : Fin 2) : State :=
  let p := s.pl i
  if p.tripDue then
    let s := (s.modPl i fun p => { p with tripDue := false, trip := true, trips := satInc p.trips }).hwSet (0x4610 + 0x20 * i.val) 1
    let s := { s with pm := { s.pm with sec := { s.pm.sec with plaus := s.pm.sec.plaus + 1 } } }
    match domOf p.cut with
    | some k =>
      let s := s.raiseAd k aPLT
      if bit p.ctl 1 then s.loseDomain k rPLAUS else s
    | none => s
  else s

/-- Checker i at a LOCKED pitch edge of domain d (06 R244–R246), judged on s1, the state of the edge's own cycle. (DEDUCED, log 34.) -/
def evaluate (s1 : State) (i : Fin 2) (d : Fin 3) (s : State) : State :=
  let p := s.pl i
  let a := s.ad d
  let srcPer := a.per.toNat * a.pitches * a.revpm
  if bit p.ctl 0 && !p.trip && !p.tripDue && decide (p.src.toNat = d.val) && decide (srcPer * p.ratio.toNat < p.minper.toNat * 2 ^ 16) then
    if s1.violates p srcPer then
      let c := p.cnt.toNat + 1
      if max (fld p.ctl 15 12) 1 ≤ c then
        s.modPl i fun p => { p with viol := true, cnt := .ofNat 4 c, tripDue := true }
      else s.modPl i fun p => { p with viol := true, cnt := .ofNat 4 c }
    else s.modPl i fun p => { p with viol := false, cnt := 0 }
  else s

/-- The odometer at a LOCKED AD1 pitch edge, and the lifetime write at each ODOSTEP metres (17 R639, R649). -/
def odometer (s : State) (d : Fin 3) : State :=
  if d = 1 ∧ s.pm.circ ≠ 0 then
    let r := s.pm.odoRem + s.pm.circ.toNat
    let unit := 1000 * fld (s.ad 1).wheel 9 0
    if unit = 0 then s
    else
      let m := r / unit
      let s := s.modPm fun p =>
        { p with odoRem := r % unit, odo := satOf 32 (p.odo.toNat + m), sinceLife := p.sinceLife + m,
                 sec := { p.sec with odo := p.sec.odo + m } }
      if fld s.pm.cfg 31 16 ≤ s.pm.sinceLife then s.writeLife else s
  else s

/-- What follows a pitch edge registered while LOCKED: flags, odometer, checkers, governor. -/
def lockedPitch (s : State) (d : Fin 3) (k : Nat) : State :=
  let s := s.raiseAd d (aPITCH ||| (if k = 0 then aREF else 0))
  let s := s.odometer d
  let s1 := s
  (evaluate s1 1 d (evaluate s1 0 d s)).governor d

/-! ## Edges and windows -/

/-- Domain d as it stood before an exit in this cycle, for a second exit to be judged on (06 R255). -/
def judged (s : State) (d : Fin 3) : AngleDom := ((s.cyc.exits.find? fun p => p.1 = d).map (·.2)).getD (s.ad d)

/-- A window of the expected edge closes with no edge (06 R228, R230, R232). -/
def windowClose (s : State) (d : Fin 3) : State :=
  let a := s.judged d
  if a.windowOver s.tb then
    if a.st = .locked then s.exitDomain d a.closeReason.1 a.closeReason.2
    else if s.exitedNow d then s else s.modAd d AngleDom.search
  else s

/-- Flags of an edge that do not ask for synchronisation: SECT and REV (06 R238, R239, R250). -/
def edgeFlags (s : State) (d : Fin 3) (w : EdgeNews) : State :=
  let s := if w.sect then s.raiseAd d aSECT else s
  if w.reverse then (s.modAd d fun a => { a with rev := true }).raiseAd d aREV else s

/-- What the news of an edge does to a domain that is not held (06 Table 6.3, Table 6.4, R238, R239). -/
def applyNews (s : State) (d : Fin 3) (was : AdState) (w : EdgeNews) : State :=
  match was with
  | .locked =>
    match w.pitch with
    | some k => s.lockedPitch d k
    | none => s
  | .candidate =>
    if w.exit.isSome || w.reverse then s.modAd d AngleDom.search
    else match w.check with
      | some ok => s.candidateCheck d ok
      | none => s
  | .search =>
    if w.reverse then s.modAd d AngleDom.search
    else if w.candidate then s.modAd d fun a => { a with st := .candidate, k := { a.k with checks := 0 } } else s
  | _ => s

/-- A filtered edge at input i of domain d registers; it was first sampled FILT + 2 cycles before (06 R212). An edge in the
cycle of an exit is not used (R253), though it may bring an exit of its own (R255); one after a window that closed earlier is
judged after that exit. A held domain only times it (R237). -/
def adInputEdge (s : State) (d : Fin 3) (i : Fin 3) (level : Bool) : State :=
  if (s.ad d).st = .off ∨ bit (s.ad d).k.levels i.val = level then s
  else
    let late := (s.ad d).windowOver (s.tb - 1)
    let s := s.windowClose d
    let t := s.tb - BitVec.ofNat 48 ((s.ad d).filt + 2)
    let old := (s.judged d).accept i level t
    let s := s.modAd d fun a => a.accept i level t
    let now := s.ad d
    let unused (s : State) : State :=
      let r := edgeNews now i level t
      let s := s.modAd d fun a => a.seen r.1
      if now.scheme = 3 then s.edgeFlags d r.2 else s
    if s.exitedNow d && !late then
      let s := unused s
      let r := edgeNews old i level t
      match (if old.st = .locked then edgeExit old t r.2 else none) with
      | some (why, lost) => s.exitDomain d why lost
      | none => s
    else if now.st = .lost ∧ s.held d = true then unused s
    else
      let a := if now.st = .lost then now.search else now
      let r := edgeNews a i level t
      match (if a.st = .locked then edgeExit a t r.2 else none) with
      | some (why, lost) => ((s.modAd d fun _ => a.seen r.1).edgeFlags d r.2).exitDomain d why lost
      | none => ((s.modAd d fun _ => r.1).edgeFlags d r.2).applyNews d a.st r.2

/-- An enabled trigger's angle is reached (06 R251). -/
def angleTrigger (s : State) (d : Fin 3) (i : Fin 4) : State :=
  let a := s.ad d
  if a.st = .locked ∧ bit (at_ a.atrig i) 31 = true ∧ posReached (a.position s.tb) (at_ a.trigDue i) = true then
    (s.modAd d fun a => { a with trigDue := vset a.trigDue i fun t => t + 0x01000000 }).raiseAd d (oneBit 16 (11 + i.val))
  else s

/-- A write to AD_ATRIGn: its angle is next reached ahead of the present position. -/
def writeTrig (s : State) (d : Fin 3) (i : Fin 4) (w : Word) : State :=
  s.modAd d fun a =>
    { a with atrig := vset a.atrig i fun _ => w &&& 0x80FFFFFF
             trigDue := vset a.trigDue i fun _ => nextTrig (a.position s.tb) w }

/-- A write to AD_ZERO: the reported angle shifts, the tag does not (06 R219, R220), and each trigger's angle is next reached
ahead of it (R251). (DEDUCED, log 36.) -/
def writeZero (s : State) (d : Fin 3) (w : Word) : State :=
  if s.boot.locked then s
  else
    s.modAd d fun a =>
      let turns (z : Nat) : BitVec 8 := .ofNat 8 ((a.estimate s.tb + z) / 2 ^ 24)
      let base := a.k.tagBase + turns (fld w 23 0) - turns a.zero.toNat
      let a := { a with zero := .ofNat 24 (fld w 23 0), k := { a.k with tagBase := base } }
      { a with trigDue := a.atrig.map (nextTrig (a.position s.tb)) }

/-- A write to AD_GOV: holds that end or arise with it (06 R236, R237). -/
def writeGov (s : State) (d : Fin 3) (w : Word) : State :=
  takeHolds s (releaseHolds s (s.modAd d fun a => { a with gov := s.regBits a.gov w 0xF033 0xFFFF }))

/-! ## Configuration (06 R247, R252, R260, R262) -/

/-- The level of a domain's input now. -/
def adInput (s : State) (a : AngleDom) (i : Fin 3) : Bool :=
  (at_ s.afe.sens (Fin.ofNat 16 (fld a.src (4 * i.val + 3) (4 * i.val)))).out

/-- An enabled domain enters SEARCH, with the present input levels accepted; a held one enters LOST (06 R236, R262). -/
def beginDomain (s : State) (d : Fin 3) : State :=
  if (s.ad d).k.begins then
    let a := s.ad d
    let lv : BitVec 3 := .ofNat 3 ((List.finRange 3).foldl (fun x i => x + b2n (s.adInput a i) * 2 ^ i.val) 0)
    let sec := if a.scheme = 3 then a.sectorOf lv.toNat else none
    let s := s.modAd d fun a =>
      { a.search with sector := sec.getD a.sector, pitch := (sec.getD 0).val,
                      k := { a.search.k with levels := lv, sectorKnown := sec.isSome, begins := false, rawTau := none } }
    if s.held d then s.loseDomain d (s.holdReason d) else s
  else s

/-- A write to AD_CTL (06 R252, R260, R262): an accepted enable enters SEARCH in the next cycle. (DEDUCED, log 35.) -/
def writeAdCtl (s : State) (d : Fin 3) (w : Word) : State :=
  if s.boot.locked then s
  else
    let a := s.ad d
    let v : BitVec 12 := w.setWidth 12 &&& 0xFFD
    if a.en then
      if (v ||| 1) ≠ (a.ctl ||| 1) then s.raiseAd d aWWR
      else if bit v 0 then s
      else
        let s := if (s.ad d).st = .locked then (s.dropAngleEdges d).startSweep d .drop else s
        s.modAd d fun a => { a.search with st := .off, ctl := a.ctl &&& 0xFFE, k := { a.search.k with begins := false } }
    else
      let a' := { a with ctl := v }
      if !bit v 0 then s.modAd d fun _ => a'
      else if a'.badConfig then s.modAd d fun _ => { a' with ctl := v &&& 0xFFE, cfgErr := true }
      else s.modAd d fun _ => { a' with cfgErr := false, k := { a.k with begins := true } }

/-- AD_CMD.LOSE and DROP; both in one write is LOSE (06 R231, R259). (DEDUCED, log 35.) -/
def adLose (s : State) (d : Fin 3) : State :=
  if (s.ad d).st = .locked ∨ (s.ad d).st ≠ .off ∧ s.exitedNow d = true then s.loseDomain d rCMD else s
/-- (DEDUCED, log 35.) -/
def adDrop (s : State) (d : Fin 3) : State := s.dropDomain d rCMD

/-- A write to PL_CTL (06 R247). -/
def writePlCtl (s : State) (i : Fin 2) (w : Word) : State :=
  if s.boot.locked then s
  else
    let s0 := s
    let v : BitVec 16 := w.setWidth 16 &&& 0xF3F3
    let bad := fld v 5 4 = 3 ∨ fld v 7 6 = 3 ∨ fld v 9 8 = 3 ∨ fld v 5 4 = fld v 7 6
    let s := s.modPl i fun p =>
      if bit v 0 then
        if bad then { p with ctl := v &&& 0xFFFE, cfgErr := true } else { p with ctl := v, cfgErr := false }
      else { p with ctl := v }
    takeHolds s0 (releaseHolds s0 s)

/-- W1C of PL_STAT.TRIP: the count restarts and the hold ends (06 R237, R246); a trip of the same cycle stays (00 R9). -/
def clearTrip (s : State) (i : Fin 2) : State :=
  if (s.pl i).trip && (s.w1c (0x4610 + 0x20 * i.val) 1) != 0 then releaseHolds s (s.modPl i fun p => { p with trip := false, cnt := 0 }) else s

/-- A fence of domain d (06 R236, R263), and its lift. -/
def fenceAd (s : State) (d : Fin 3) : State :=
  (s.loseDomain d rFENCE).modAd d fun a => { a with fenced := true }
/-- One core cycle of the angle domains and checkers: what the cycle before left due (06 R242, R245, R262, Table 6.5 step 3). -/
def angleCycle (s : State) : State :=
  let s := foldFin 3 (fun d s =>
    if (s.ad d).k.syncDue then
      foldFin 64 (fun n s => if (s.chan n).o.domain = d.val + 1 then s.setCause n cSYNC else s)
        (s.modAd d fun a => { a with k := { a.k with syncDue := false } })
    else s) s
  let s := foldFin 3 (fun d s => s.beginDomain d) s
  foldFin 3 (fun d s => s.governorCut d) (foldFin 2 (fun i s => s.checkerTrip i) s)

def unfenceAd (s : State) (d : Fin 3) : State :=
  releaseHolds s (s.modAd d fun a => { a with fenced := false })

end State
end Sys2Proof.Machine
end

