-- ==== Sys2Proof/Machine/Memory.lean ====
section
/-!
DEFINITION. Machine/Memory.lean: the scratchpad banks, their SECDED words, the circular windows and the background test
(11 R424–R443, R453–R459).
-/
namespace Sys2Proof.Machine

/-- The canonical form of bank memory: addresses strictly rising, no byte equal to what an unlisted address reads as. -/
def Memory.wf (m : List (Nat × Byte)) : Bool := cellWf 0 m

/-- Why a memory access fails (13 Table 13.4 MEMERR, HP_ERR.CAUSE). -/
inductive MemErr | memory | window
  deriving DecidableEq, Repr

/-- MEM_FLAG bits (11 Table 11.9). -/
def mCORR : BitVec 7 := 1
def mUNC : BitVec 7 := 2
def mTFAIL : BitVec 7 := 4
def mTSLOW : BitVec 7 := 8
def mRDMDONE : BitVec 7 := 16
def mRDMFAIL : BitVec 7 := 32
def mWWR : BitVec 7 := 64

/-- Host addresses of the banks, and of the apertures. -/
def isBankAddr (a : Nat) : Bool := decide (0x20000 ≤ a) && decide (a < 0x40000)
def isAperture (a : Nat) : Bool := decide (0x40000 ≤ a) && decide (a < 0x80000)
def isMemAddr (a : Nat) : Bool := decide (0x20000 ≤ a) && decide (a < 0x80000)
/-- The bank of a bank address. -/
def bankOf (a : Nat) : Fin 8 := Fin.ofNat 8 ((a - 0x20000) / 0x4000)

namespace State

def memFlag (s : State) (b : BitVec 7) : State := (s.modMem fun m => { m with flag := m.flag ||| b }).hwSet 0x5C48 (b.setWidth 32)

/-- The bank byte an access at a reaches: itself, or through an enabled window (11 R433, R436). -/
def resolve (s : State) (a : Nat) : Option Nat :=
  if isBankAddr a then some a
  else if isAperture a then
    let w := s.cwin (Fin.ofNat 16 ((a - 0x40000) / 0x4000))
    if w.en then some (0x20000 + (w.base.toNat * 64 + (a % 0x4000) % 2 ^ w.log2.toNat) % 0x20000) else none
  else none

/-- A bank address record of the latest event. -/
def memEvent (s : State) (kind : Nat) (a : Nat) : State :=
  s.modMem fun m => { m with ekind := .ofNat 2 kind, eaddr := .ofNat 20 a }

/-- Does the word address lie in the region that its bank tests? -/
def inRegion (s : State) (p : Nat) : Bool :=
  let x := s.bank (bankOf p)
  x.phase != .none && decide ((p - 0x20000) % 0x4000 / 64 = x.region.toNat)

/-- In SAVE a word that a master reads or writes counts as saved (11 R438, Table 11.4). -/
def markSaved (s : State) (p : Nat) : State :=
  if (s.bank (bankOf p)).phase = .save ∧ s.inRegion p = true then
    s.modBank (bankOf p) fun x =>
      let sv := x.saved ||| oneBit 16 (p % 64 / 4)
      { x with saved := sv, phase := if sv = 0xFFFF then .march else .save }
  else s

/-- Store a word: its check bits are fresh, and a pending write-back of it is dropped (11 R425, R426). -/
def bankPut (s : State) (a : Nat) (w : Word) : State :=
  (s.markSaved a).modMem fun m =>
    { m with cells := cellWriteList 0 m.cells a (wordBytes w), errs := cellErase a m.errs, wb := m.wb.filter (· ≠ a) }

/-- The data bits stored at a word address. -/
def bankData (s : State) (a : Nat) : Word := bytesWord (cellReadList 0 s.mem.cells a 4)

/-- A word found uncorrectable (11 R427). -/
def bankUnc (s : State) (a : Nat) : State :=
  let b := bankOf a
  ((s.modBank b fun x => { x with unc := satInc x.unc }).memEvent 2 a |>.memFlag mUNC).report 0x0A 8 b.val a

/-- A word corrected (11 R426): counted, recorded, and to be written back. -/
def bankCorr (s : State) (a : Nat) : State :=
  let s := (s.modBank (bankOf a) fun x => { x with corr := satInc x.corr }).memEvent 1 a |>.memFlag mCORR
  s.modMem fun m => { m with wb := if a ∈ m.wb then m.wb else m.wb ++ [a] }

/-- Read the word at a word address (11 R425–R427, R841: three or more wrong bits give one of three outcomes, left open
by a free value). -/
def bankReadWord (s : State) (a : Nat) : Except MemErr Word × State :=
  if (s.bank (bankOf a)).st ≠ .on then (.error .memory, s)
  else
    let s := s.markSaved a
    match cellRead 0 s.mem.errs a with
    | 0 => (.ok (s.bankData a), s)
    | 1 => (.ok (s.bankData a), s.bankCorr a)
    | 2 => (.error .memory, s.bankUnc a)
    | _ =>
      let r := s.free
      let s := r.2
      let wrong : Word := (r.1 >>> 8).setWidth 32
      let bytes := wordBytes wrong
      match r.1.toNat % 3 with
      | 0 => (.error .memory, s.bankUnc a)
      | 1 =>
        let s := s.modMem fun m => { m with cells := cellWriteList 0 m.cells a bytes, errs := cellWrite 0 m.errs a 1 }
        (.ok wrong, s.bankCorr a)
      | _ =>
        (.ok wrong, s.modMem fun m => { m with cells := cellWriteList 0 m.cells a bytes, errs := cellErase a m.errs })

/-- The word address of a byte address. -/
def wordOf (a : Nat) : Nat := a / 4 * 4

/-- Read 2^size bytes at address a, zero-extended (11 R424, R433, R436, R442). (DEDUCED, log 14, DESIGN CHOICE, log 15, DEDUCED, log 44.) -/
def memRead (s : State) (a size : Nat) : Except MemErr Word × State :=
  match s.resolve a with
  | none => (.error .window, s)
  | some p =>
    match s.bankReadWord (wordOf p) with
    | (.ok w, s) => (.ok (BitVec.ofNat 32 (w.toNat / 2 ^ (8 * (p % 4)) % 2 ^ (8 * 2 ^ size))), s)
    | r => r

/-- Put 2^size bytes of data into a word at byte offset o. -/
def mergeBytes (w : Word) (o size : Nat) (data : Word) : Word :=
  let m := (2 ^ (8 * 2 ^ size) - 1) * 2 ^ (8 * o)
  (w &&& ~~~(BitVec.ofNat 32 m)) ||| (BitVec.ofNat 32 (data.toNat * 2 ^ (8 * o)) &&& BitVec.ofNat 32 m)

/-- Write 2^size bytes at address a; a sub-word write reads, merges and writes (11 R428). (DEDUCED, log 44.) -/
def memWrite (s : State) (a size : Nat) (data : Word) : Option MemErr × State :=
  match s.resolve a with
  | none => (some .window, s)
  | some p =>
    if (s.bank (bankOf p)).st ≠ .on then (some .memory, s)
    else if size = 2 then (none, s.bankPut p data)
    else
      match s.bankReadWord (wordOf p) with
      | (.ok w, s) => (none, s.bankPut (wordOf p) (mergeBytes w (p % 4) size data))
      | (.error e, s) => (some e, s)

/-- A bank serves no master yet: it is being filled, or restores a region first (03 R98; 11 R462). -/
def bankShut (s : State) (a : Nat) : Bool :=
  match s.resolve a with
  | some p => (s.bank (bankOf p)).st == .fill || (s.bank (bankOf p)).recov
  | none => false

/-- An atomic holds the word an access would reach (08 R328). -/
def wordHeld (s : State) (a : Nat) : Bool :=
  match s.mem.lock, s.resolve a with
  | some w, some p => decide (w = wordOf p)
  | _, _ => false

/-- A master other than the microengine's atomic waits with an access to the address. -/
def waits (s : State) (a : Nat) : Bool := s.wordHeld a || s.bankShut a

/-- Does an access to the bank byte p take the bank's port? In a region under test the shadow serves what Table 11.4 gives
it (11 R438). -/
def needsPort (s : State) (p : Nat) (write : Bool) : Bool :=
  let x := s.bank (bankOf p)
  if !s.inRegion p then true
  else match x.phase with
    | .none => true
    | .save => !write && !bit x.saved (p % 64 / 4)
    | .march => false
    | .restore => write

/-- The bank whose port an access at a takes, if any. -/
def portOf (s : State) (a : Nat) (write : Bool) : Option (Fin 8) :=
  match s.resolve a with
  | some p => if s.needsPort p write then some (bankOf p) else none
  | none => none

/-- Has bank b's port made its grant of this cycle (11 R429)? -/
def portUsed (s : State) (b : Fin 8) : Bool := decide (b ∈ s.cyc.ports)
/-- Bank b's port grants an access in this cycle. -/
def usePort (s : State) (b : Option (Fin 8)) : State :=
  match b with
  | some b => s.modCyc fun c => { c with ports := b :: c.ports }
  | none => s

/-- Raw bits of the word an access reaches turn wrong. (DEDUCED, log 14.) -/
def flipBits (s : State) (a n : Nat) : State :=
  match s.resolve a with
  | none => s
  | some p => s.modMem fun m => { m with errs := cellWrite 0 m.errs (wordOf p) (cellRead 0 m.errs (wordOf p) + n) }

/-- The oldest pending write-back of bank b takes the port (11 R426, rank 7). -/
def bankWriteBack (s : State) (b : Fin 8) : State :=
  match s.mem.wb.find? (fun a => bankOf a = b) with
  | some a => s.modMem fun m => { m with errs := cellErase a m.errs, wb := m.wb.filter (· ≠ a) }
  | none => s

/-! ## The background test (11 R437–R440) -/

/-- The tester of bank b starts the region REGION names. -/
def testStart (s : State) (b : Fin 8) : State :=
  s.modBank b fun x => { x with phase := .save, saved := 0, done := 0 }

/-- A bank's next start time (11 R437): TB is at the bank's place in the common 1 ms. -/
def testDue (s : State) (b : Fin 8) : Bool :=
  s.tbs.run && bit s.mem.tctl b.val && (s.bank b).st == .on && decide (s.tb.toNat % 200000 = 25000 * b.val)

/-- A region starts, or is late (11 R437). -/
def bgStart (s : State) (b : Fin 8) : State :=
  if s.testDue b then
    if (s.bank b).phase = .none then s.testStart b
    else ((s.modBank b fun x => { x with startPend := true }).memFlag mTSLOW).report 0x0C 8 b.val 0
  else s

/-- The region is restored: the next one is named, and a late start takes place (11 R437). -/
def testEnd (s : State) (b : Fin 8) : State :=
  let s := s.modBank b fun x =>
    { x with phase := .none, saved := 0, done := 0, recov := false, region := x.region + 1,
             passes := if x.region = 0xFF then satInc x.passes else x.passes, startPend := false }
  s

/-- The word of the region that access k of MARCH reaches, and whether it is a read: for each of two backgrounds 16 writes
ascending, 16 reads with writes ascending, 16 reads with writes descending, 16 reads descending (11 Table 11.3). -/
def marchAt (k : Nat) : Nat × Bool :=
  let e := k % 96
  if e < 16 then (e, false) else if e < 48 then ((e - 16) / 2, decide (e % 2 = 0))
  else if e < 80 then (15 - (e - 48) / 2, decide (e % 2 = 0)) else (15 - (e - 80), true)

/-- The bank address of the word that the next tester access reaches: the first word not saved, the march's, the next to
restore. -/
def testerAt (s : State) (b : Fin 8) : Nat :=
  let x := s.bank b
  let k := match x.phase with
    | .save => ((List.range 16).find? fun i => !bit x.saved i).getD 0
    | .march => (marchAt x.done).1
    | _ => x.done
  0x20000 + 0x4000 * b.val + 64 * x.region.toNat + 4 * k

/-- One granted tester access (11 Table 11.3): `fail` is a MARCH read that differs (R440). A word an atomic holds waits (08
R328). -/
def testerAccess (s : State) (b : Fin 8) (fail : Bool) : State :=
  let x := s.bank b
  if x.st ≠ .on ∨ s.wordHeld (s.testerAt b) = true then s
  else
    match x.phase with
    | .none => s
    | .save =>
      let sv := x.saved ||| oneBit 16 ((List.range 16).find? (fun i => !bit x.saved i) |>.getD 0)
      s.modBank b fun x => { x with saved := sv, phase := if sv = 0xFFFF then .march else .save, done := 0 }
    | .march =>
      if fail && (marchAt x.done).2 then
        let a := s.testerAt b
        let s := s.modBank b fun x => { x with tfail := satInc x.tfail, phase := .restore, done := 0 }
        ((s.memEvent 3 a).memFlag mTFAIL).report 0x0B 8 b.val a
      else s.modBank b fun x =>
        if x.done + 1 = 192 then { x with phase := .restore, done := 0 } else { x with done := x.done + 1 }
    | .restore =>
      if x.done + 1 = 16 then
        let s' := s.testEnd b
        if x.startPend then s'.testStart b else s'
      else s.modBank b fun x => { x with done := x.done + 1 }

/-- A region under test is abandoned, its saved words written back (11 R437, R442, R461); REGION stays. -/
def testAbandon (s : State) (b : Fin 8) : State :=
  s.modBank b fun x => { x with phase := .none, saved := 0, done := 0, startPend := false, recov := false }

/-- After a clock fault each tester with a region in hand restores it first (11 R462). -/
def testRecover (s : State) : State :=
  foldFin 8 (fun b s => s.modBank b fun x =>
    if x.phase = .none then x else { x with phase := .restore, done := if x.phase = .restore then x.done else 0, recov := true }) s

/-- A write to MEM_TCTL (11 R437). -/
def writeTctl (s : State) (w : Word) : State :=
  if s.boot.locked then s
  else
    let v : BitVec 8 := w.setWidth 8
    foldFin 8 (fun b s => if bit v b.val then s else s.testAbandon b) (s.modMem fun m => { m with tctl := v })

/-! ## Fill, fence and re-admission (11 R441–R443) -/

/-- Every byte of bank b is zero, with valid check bits. -/
def zeroFill (s : State) (b : Fin 8) : State :=
  let lo := 0x20000 + 0x4000 * b.val
  let keep (a : Nat) : Bool := decide (a < lo) || decide (lo + 0x4000 ≤ a)
  s.modMem fun m =>
    { m with cells := m.cells.filter (fun p => keep p.1), errs := m.errs.filter (fun p => keep p.1),
             wb := m.wb.filter keep }

/-- A bank fence, and the end of its record in FLT: the bank itself returns only by re-admission (11 R442, R459). -/
def fenceBank (s : State) (b : Fin 8) : State :=
  (s.testAbandon b).modBank b fun x => { x with st := .fenced }

/-- MEM_CMD.READMIT (11 R443, R458). -/
def readmit (s : State) (b : Fin 8) : State :=
  if (s.bank b).st = .fenced then s.modBank b fun x => { x with st := .rdmTest } else s.memFlag mWWR

/-- The march of a re-admission ends, or its zero-fill ends (11 Table 11.5 steps 3 and 5). -/
def readmitDone (s : State) (b : Fin 8) (pass : Bool) (word : Fin 4096) : State :=
  match (s.bank b).st with
  | .rdmTest =>
    if pass then s.modBank b fun x => { x with st := .rdmFill }
    else
      let a := 0x20000 + 0x4000 * b.val + 4 * word.val
      let s := s.modBank b fun x => { x with st := .fenced, tfail := satInc x.tfail }
      ((s.memEvent 3 a).memFlag mRDMFAIL).report 0x0B 8 b.val a
  | .rdmFill =>
    (((s.zeroFill b).modBank b fun x => { x with st := .on, region := 0 }).memFlag mRDMDONE).fltBack (unitKey 8 b.val)
  | _ => s

/-- A bank is in service or waits for its zero-fill after a start (11 R441). -/
def fillBanks (s : State) : State :=
  foldFin 8 (fun b s => (s.zeroFill b).modBank b fun x => { x with st := .on }) s

/-! ## Circular windows (11 R433–R435) -/

/-- A write to CW_BASEn. -/
def writeCwBase (s : State) (n : Fin 16) (w : Word) : State :=
  let base : BitVec 12 := .ofNat 12 (fld w 17 6)
  let c := s.cwin n
  if bit w 31 then
    if c.en then s.memFlag mWWR
    else if c.log2.toNat < 6 ∨ 14 < c.log2.toNat ∨ base.toNat * 64 % 2 ^ c.log2.toNat ≠ 0 ∨ bit base 11 = false then
      (s.modCw n fun c => { c with base := base }).memFlag mWWR
    else s.modCw n fun c => { c with en := true, base := base }
  else s.modCw n fun c => { c with en := false, base := base }

/-- A write to CW_SIZEn. -/
def writeCwSize (s : State) (n : Fin 16) (w : Word) : State :=
  if (s.cwin n).en then s.memFlag mWWR else s.modCw n fun c => { c with log2 := .ofNat 4 (fld w 3 0) }

/-- MEM_BSTATb, MEM_ECCb. -/
def readBstat (s : State) (b : Fin 8) : Word :=
  let x := s.bank b
  packw [(match x.st with | .fill => 0 | .on => 1 | .fenced => 2 | .rdmTest => 3 | .rdmFill => 4, 28),
        (match x.phase with | .none => 0 | .save => 1 | .march => 2 | .restore => 3, 24),
        (x.region.toNat, 16), (x.passes.toNat, 0)]
def readEcc (s : State) (b : Fin 8) : Word :=
  let x := s.bank b
  packw [(x.corr.toNat, 16), (x.unc.toNat, 8), (x.tfail.toNat, 0)]

end State
end Sys2Proof.Machine
end

