-- ==== Sys2Proof/Machine/Timetable.lean ====
section
/-!
DEFINITION. Machine/Timetable.lean: the calendar, service requests, selection and dispatch, the window stack and the
microengine's fence (07 R264–R310).
-/
namespace Sys2Proof.Machine

/-- TT_FLAG bits (07 Table 7.11). -/
def tFULL : BitVec 5 := 1
def tHERR : BitVec 5 := 2
def tLATE : BitVec 5 := 4
def tRSVUSE : BitVec 5 := 8
def tBULK : BitVec 5 := 16

/-- Insertion statuses (07 Table 7.2), and GONE (08 R334). -/
def iOK : Nat := 0
def iFULL : Nat := 1
def iQUOTA : Nat := 2
def iNOSYNC : Nat := 3
def iBADKEY : Nat := 4
def iRIGHTS : Nat := 5
def iBUSY : Nat := 6
def iGONE : Nat := 7

/-- Cancel reasons (14, after Table 14.5). -/
def xLOST : Nat := 1
def xDROP : Nat := 2
def xPARK : Nat := 3
def xCLOCK : Nat := 4
def xMEFENCE : Nat := 5

/-- Source number of a request (07 Table 7.1). -/
def ReqSrc.number : ReqSrc → Nat
  | .chan n => n.val
  | .dom d => 64 + d.val
  | .ps e => 72 + e.val
  | .iv => 80
  | .adc k => 88 + k.val

/-- Lexicographic order of number lists of one length. -/
def lexLt : List Nat → List Nat → Bool
  | [], _ => false
  | _, [] => false
  | a :: as, b :: bs => decide (a < b) || (decide (a = b) && lexLt as bs)

/-- The least element of a list under a key. -/
def leastBy {α : Type} (key : α → List Nat) : List α → Option α
  | [] => none
  | a :: as =>
    match leastBy key as with
    | none => some a
    | some b => if lexLt (key b) (key a) then some b else some a

/-- A dispatch descriptor (07 Table 7.4). -/
def descriptor (isReq late : Bool) (pri keysel owner src : Nat) : Word :=
  packw [(b2n isReq, 30), (b2n late, 29), (pri, 26), (keysel, 24), (owner, 16), (src, 0)]

def Frame.owner (f : Frame) : Fin 256 := Fin.ofNat 256 (fld f.desc 23 16)
def Frame.pri (f : Frame) : Nat := fld f.desc 28 26

/-- A candidate for dispatch (07 R270). -/
inductive Cand
  | entry (h : Nat) (e : CalEntry)
  | req (r : Req)
  deriving DecidableEq, Repr

def Cand.pri : Cand → Nat
  | .entry _ e => e.pri.toNat
  | .req r => r.pri.toNat

/-- A frame as a spilled record. -/
def Frame.record (f : Frame) : List Word :=
  (List.finRange 8).map (fun i => at_ f.w i) ++
    [packw [(f.flags.toNat, 28), (b2n f.called, 13), (f.pc.toNat, 0)], f.desc, 0, 0, 0, 0, 0, 0]

/-- A spilled record as a frame in a window. -/
def Frame.ofRecord (r : List Word) (win : Nat) : Frame :=
  let c := r.getD 8 0
  { w := Vector.ofFn fun i : Fin 8 => r.getD i.val 0
    flags := .ofNat 4 (fld c 31 28), pc := .ofNat 13 (fld c 12 0), called := bit c 13, desc := r.getD 9 0, win := win }

/-- Free a calendar entry; its words keep what they hold (07 R265). -/
def CalEntry.freed (e : CalEntry) : CalEntry := 
  { e with st := .free, late := false, doomed := false, dueAt := 0, fell := false, insAt := 0, readyAt := 0 }

/-- Is an angle target already reached, and passed beyond? -/
def posBeyond (pos tgt : Word) : Bool := posReached pos tgt && decide (pos ≠ tgt)

/-- An angle entry falls due when its key is reached, and late when it is passed in the entry's first cycle (07 R266, R267). -/
def CalEntry.fallDue (e : CalEntry) (pos : Word) (tb : W48) (time : Nat) : CalEntry :=
  if e.st = .waiting ∧ e.fell = false ∧ e.doomed = false ∧ e.insAt < time ∧ posReached pos (lo32 e.key) = true then
    { e with fell := true, dueAt := tb, late := decide (time = e.insAt + 1) && posBeyond pos (lo32 e.key) }
  else e

/-- The order of candidates (07 R270): priority, earlier READY, calendar first, keys, handle or source. -/
def Cand.key : Cand → List Nat
  | .entry h e => [e.pri.toNat, e.readyAt, 0, e.keysel.toNat, h]
  | .req r => [r.pri.toNat, r.readyAt, 1, 0, r.src.number]

namespace State

def calEntry (s : State) (h : Nat) : CalEntry := cellRead {} s.tt.cal h
def setCal (s : State) (h : Nat) (e : CalEntry) : State := s.modTt fun t => { t with cal := cellWrite {} t.cal h e }
/-- Set TT_FLAG bits. -/
def ttFlag (s : State) (b : BitVec 5) : State :=
  (s.modTt fun t => { t with flag := t.flag ||| b }).hwSet 0x4804 (b.setWidth 32)

/-- An entry becomes FREE. -/
def freeEntry (s : State) (h : Nat) : State := s.setCal h (s.calEntry h).freed

/-- FREE and READY entries (07 Table 7.11 TT_STAT). -/
def calFree (s : State) : Nat := 1024 - (s.tt.cal.filter fun p => decide (p.2.st ≠ .free)).length
def calReady (s : State) : Nat := (s.tt.cal.filter fun p => decide (p.2.st = .ready) && decide (p.2.readyAt ≤ s.time)).length

/-- Entries that count against an owner's quota (07 R276). -/
def calHeld (s : State) (c : Fin 256) : Nat :=
  (s.tt.cal.filter fun p => decide (p.1 < 1016) && decide (p.2.st ≠ .free) && decide (p.2.owner = c)).length
/-- The calendar quota of an owner; client 0 has none (14 R521). -/
def calQuota (s : State) (c : Fin 256) : Option Nat := if c = 0 then none else some (fld (s.client c).quota 31 22)

/-- FREE handles from lo below hi, ascending. (DESIGN CHOICE, log 24.) -/
def freeHandles (s : State) (lo hi : Nat) : List Nat :=
  ((List.range (hi - lo)).map (lo + ·)).filter fun h => decide ((s.calEntry h).st = .free)

/-- The entry an insertion makes; it is judged in the cycle after (07 R266, R267), an angle key by `fallDue`. -/
def newEntry (s : State) (key : W48) (arg ctl : Word) (owner : Fin 256) : CalEntry :=
  let ks : BitVec 2 := .ofNat 2 (fld ctl 25 24)
  let next := s.tb + 1
  let late := ks = 0 && reached next key && decide (key ≠ next)
  { key := key, arg := arg, st := .waiting, pri := .ofNat 3 (fld ctl 28 26), keysel := ks,
    entry := .ofNat 13 (fld ctl 20 8), owner := owner, late := late,
    dueAt := if ks = 0 then (if late then next else key) else next, insAt := s.time }

/-- The faults of an insertion that do not depend on the handle (07 Table 7.2 BADKEY, NOSYNC; R302). (DEDUCED, log 23.) -/
def keyStatus (s : State) (keyhi ctl : Word) : Nat :=
  let ks : BitVec 2 := .ofNat 2 (fld ctl 25 24)
  if (ks = 0 ∧ fld keyhi 31 16 ≠ 0) ∨ (ks ≠ 0 ∧ keyhi ≠ 0) then iBADKEY
  else if ks ≠ 0 ∧ s.domLocked (ks - 1) = false then iNOSYNC
  else iOK

/-- Does an ordinary entry exceed the owner's quota? (07 R276) -/
def overQuota (s : State) (owner : Fin 256) : Bool :=
  match s.calQuota owner with
  | some q => decide (q ≤ s.calHeld owner)
  | none => false

/-- A program's insertion: status, handle, state (07 R264, R274–R277). Which free handle it takes is not stated: a free
value picks one. (DEDUCED, log 23, DESIGN CHOICE, log 24.) -/
def schedInsert (s : State) (reserved : Bool) (keylo keyhi arg ctl : Word) : Nat × Nat × State :=
  let owner : Fin 256 := Fin.ofNat 256 (fld ctl 7 0)
  let st := s.keyStatus keyhi ctl
  if st ≠ iOK then (st, 0, s)
  else
    let ord := s.freeHandles 0 1016
    let take (hs : List Nat) (s : State) : Nat × State :=
      let r := s.free
      (hs.getD (r.1.toNat % hs.length) 0, r.2)
    let put (h : Nat) (s : State) : State := s.setCal h (s.newEntry (wide keyhi keylo) arg ctl owner)
    if ord ≠ [] then
      if s.overQuota owner then (iQUOTA, 0, s.ttFlag tFULL)
      else
        let r := take ord s
        (iOK, r.1, (put r.1 r.2).modCyc fun c => { c with lastFree := if ord.length = 1 then some r.1 else c.lastFree })
    else
      let rsv := if reserved then s.freeHandles 1016 1024 else []
      if rsv = [] then (iFULL, 0, s.ttFlag tFULL)
      else
        let r := take rsv s
        (iOK, r.1, (put r.1 r.2).ttFlag tRSVUSE)

/-- A refusal of a host write to the calendar (07 R278). -/
def hostHerr (s : State) (c : Fin 256) (h : Fin 1024) (st : Nat) : State :=
  let s := if st = iFULL ∨ st = iQUOTA then s.ttFlag tFULL else s
  (s.ttFlag tHERR).modTt fun t =>
    { t with herrStatus := .ofNat 4 st, herrClient := c, herrHandle := .ofNat 10 h.val }

/-- A client's insertion: word 3 written with ARM 1 (07 R275, R278). An entry selected in this cycle counts as not FREE (R301);
one that a SCHED of this cycle took as the last free one gives FULL (R305). (DEDUCED, log 23.) -/
def hostInsert (s : State) (c : Fin 256) (h : Fin 1024) (w : Word) : State :=
  let e := s.calEntry h.val
  let owner : Fin 256 := if c = 0 then Fin.ofNat 256 (fld w 7 0) else c
  if s.cyc.lastFree = some h.val ∧ e.st ≠ .free then s.hostHerr c h iFULL
  else if e.st ≠ .free ∨ s.cyc.selected.contains h.val = true then s.hostHerr c h iBUSY
  else
    let st := s.keyStatus (hi16 e.key) w
    if st ≠ iOK then s.hostHerr c h st
    else if 1016 ≤ h.val then s.hostHerr c h iFULL
    else if s.overQuota owner then s.hostHerr c h iQUOTA
    else s.setCal h.val (s.newEntry e.key e.arg w owner)

/-- May a canceller free the entry? (07 R279) -/
def mayCancel (s : State) (c : Fin 256) (h : Nat) : Bool :=
  decide ((s.calEntry h).st ≠ .free) && (decide (c = 0) || decide ((s.calEntry h).owner = c))

/-- A client's cancel: word 3 written with ARM 0 (07 R278, R279). -/
def hostCancel (s : State) (c : Fin 256) (h : Fin 1024) : State :=
  if s.mayCancel c h.val then s.freeEntry h.val
  else if (s.calEntry h.val).st = .free then s
  else s.hostHerr c h iRIGHTS

/-- Words 0–2 of a calendar entry (07 R309, Table 7.10). -/
def writeCalWord (s : State) (h : Fin 1024) (i : Nat) (w : Word) : State :=
  let e := s.calEntry h.val
  if e.st ≠ .free then s
  else if i = 0 then s.setCal h.val { e with key := wide (hi16 e.key) w }
  else if i = 1 then s.setCal h.val { e with key := wide (w.setWidth 16 |>.setWidth 32) (lo32 e.key) }
  else s.setCal h.val { e with arg := w }

def readCalWord (s : State) (h : Fin 1024) (i : Nat) : Word :=
  let e := s.calEntry h.val
  if i = 0 then lo32 e.key
  else if i = 1 then hi16 e.key
  else if i = 2 then e.arg
  else packw [(if e.st = .free then 0 else 1, 31),
             (match e.st with | .free => 0 | .waiting => 1 | .ready => if e.readyAt ≤ s.time then 2 else 1, 29),
             (e.pri.toNat, 26), (e.keysel.toNat, 24), (e.entry.toNat, 8), (e.owner.val, 0)]

/-! ## Due (07 R266–R268) -/

/-- A due entry leaves its heap and is READY from the next cycle: one of a heap in a cycle (07 R268). -/
def makeReady (s : State) (h : Nat) (e : CalEntry) : State :=
  let late := e.late || !(s.boot.applied && s.me.en)
  let s := s.setCal h { e with st := .ready, late := late, readyAt := s.time + 1 }
  let s := s.modCyc fun c => { c with moved := e.keysel :: c.moved }
  if late then s.ttFlag tLATE else s

/-- The WAITING time entry that is due now, in key order (07 R266, R268). (DESIGN CHOICE, log 24.) -/
def timeDue (s : State) : Option (Nat × CalEntry) :=
  leastBy (fun p => [(p.2.key - s.tb + BitVec.ofNat 48 (2 ^ 47)).toNat, p.1])
    (s.tt.cal.filter fun p => decide (p.2.st = .waiting) && decide (p.2.keysel = 0) && reached s.tb p.2.dueAt)

/-- One time entry moves to READY. -/
def calendarTimeDue (s : State) : State :=
  if s.cyc.moved.contains 0 then s
  else
    match s.timeDue with
    | some (h, e) => s.makeReady h e
    | none => s

/-- The entries of domain d that fall due now. -/
def anglesFall (s : State) (d : Fin 3) : State :=
  match s.domPos (.ofNat 2 d.val) with
  | none => s
  | some pos =>
    s.modTt fun t =>
      { t with cal := t.cal.map fun p => if p.2.keysel.toNat = d.val + 1 then (p.1, p.2.fallDue pos s.tb s.time) else p }

/-- The WAITING entry of domain d that has fallen due, in key order from the position. (DESIGN CHOICE, log 24.) -/
def angleDue (s : State) (d : Fin 3) : Option (Nat × CalEntry) :=
  match s.domPos (.ofNat 2 d.val) with
  | none => none
  | some pos =>
    leastBy (fun p => [(lo32 p.2.key - pos + 0x80000000).toNat, p.1])
      (s.tt.cal.filter fun p =>
        decide (p.2.st = .waiting) && decide (p.2.keysel.toNat = d.val + 1) && !p.2.doomed && p.2.fell)

/-- One entry of domain d moves to READY. -/
def calendarAngleDue (s : State) (d : Fin 3) : State :=
  if s.cyc.moved.contains (.ofNat 2 (d.val + 1)) then s
  else
    let s := s.anglesFall d
    match s.angleDue d with
    | some (h, e) => s.makeReady h e
    | none => s

/-- One core cycle of the Timetable: angle entries fall due (07 R266). -/
def timetableCycle (s : State) : State := foldFin 3 (fun d s => s.anglesFall d) s

/-! ## Cancels by the device (07 R280–R283) -/

/-- The notice of one cancelled entry (14 Table 14.5 CANCEL). (DEDUCED, log 25.) -/
def cancelNotice (s : State) (h : Nat) (e : CalEntry) (reason : Nat) : State :=
  s.post 0 e.owner 0x02 true (fld e.key 47 32) (lo32 e.key) e.arg (packw [(reason, 28), (h, 0)])

/-- The sweep of domain d runs to its end: every entry frozen at its LOST or DROP is cancelled with a notice (07 R280). -/
def domainSweep (s : State) (d : Fin 3) : State :=
  match at_ s.tt.sweeps d with
  | none => s
  | some why =>
    let reason := match why with | .lost => xLOST | .drop => xDROP
    let hit := s.tt.cal.filter fun p =>
      decide (p.2.st ≠ .free) && p.2.doomed && decide (p.2.keysel.toNat = d.val + 1)
    let s := hit.foldl (fun s p => (s.cancelNotice p.1 p.2 reason).freeEntry p.1) s
    s.modTt fun t => { t with sweeps := vset t.sweeps d fun _ => none }

/-- Every pending service request is discarded, its source's PEND and cause set with it (04 R141; 07 R282). -/
def dropAllRequests (s : State) : State :=
  let s := s.tt.reqs.foldl (fun s r =>
    match r.src with
    | .chan n => s.modChan n fun c => { c with ev := c.ev.discard }
    | .dom d => s.modAd d fun a => { a with ev := a.ev.discard }
    | .ps e => s.modEng e fun p => { p with ev := p.ev.discard }
    | .iv => s.modTsi fun t => { t with ev := t.ev.discard }
    | .adc k => s.modAdc k fun a => { a with ev := a.ev.discard }) s
  s.modTt fun t => { t with reqs := [] }

/-- A bulk cancel: every entry and request goes, and each owner of a freed entry gets one notice (07 R282, R304). (DEDUCED, log 25.) -/
def bulkCancel (s : State) (reason : Nat) : State :=
  let live := s.tt.cal.filter fun p => decide (p.2.st ≠ .free)
  let s := live.foldl (fun s p => s.freeEntry p.1) s
  let s := s.dropAllRequests
  let s := s.modTt fun t => { t with sweeps := .replicate 3 none }
  let s := foldFin 256 (fun c s =>
    let n := (live.filter fun p => decide (p.2.owner = c)).length
    if n = 0 then s else s.post 0 c 0x02 true 0 0 0 (packw [(reason, 28), (1, 27), (n, 0)])) s
  s.ttFlag tBULK

/-- The bulk cancel of a client's fence: the entries it owns go, with no notice (07 R282, R283). -/
def freeClientEntries (s : State) (c : Fin 256) : State :=
  ((s.tt.cal.filter fun p => decide (p.2.st ≠ .free) && decide (p.2.owner = c)).foldl (fun s p => s.freeEntry p.1) s).ttFlag tBULK

/-! ## The window stack (07 R286–R289, Table 7.5) -/

/-- Address of word i of spilled record k. -/
def spillAddr (s : State) (k i : Nat) : Nat := 0x34000 + 0x40 * (s.me.spillBase.toNat + k) + 4 * i
/-- How many frames the spill stack holds at most. -/
def spillCap (s : State) : Nat := if s.me.spillFrames = 0 then 256 else s.me.spillFrames.toNat

/-- Words of spilled record k as they stand. -/
def spillRecord (s : State) (k : Nat) : List Word := (List.range 16).map fun i => s.bankData (s.spillAddr k i)

/-- Write a spilled record. -/
def putRecord (s : State) (k : Nat) (r : List Word) : State :=
  (List.range 16).foldl (fun s i => s.bankPut (s.spillAddr k i) (r.getD i 0)) s

/-- The window that is current: 0 in a trap and when no frame is open, else the newest frame's or, with spilled frames only,
the one below the last that closed (07 R286, Table 7.12 CWP). -/
def curWin (s : State) : Nat :=
  match s.me.trapWin, s.me.frames with
  | some _, _ => 0
  | none, f :: _ => f.win
  | none, [] => if s.me.spilled = 0 then 0 else s.me.below

/-- The priority the current program runs at (07 Table 7.12 PRI). -/
def curPri (s : State) : Nat := (s.me.frames.head?.map Frame.pri).getD 0

/-- The microengine is fenced for a cause of Table 7.8 (07 R298; 01 Table 1.4); causes 1–4 are its own mechanisms. (DEDUCED, log 22,
DEDUCED, log 108.) -/
def meFence (s : State) (cause : Nat) : State :=
  if s.me.st = .fenced then s
  else
    let s := s.modMe fun m =>
      { m with st := .fenced, fcause := .ofNat 3 cause, frames := [], trapWin := none, trapLive := false, spilled := 0,
               outbox := [], results := [], keptWin := s.curWin, keptPri := s.curPri }
    let s := s.modMem fun m => { m with lock := none }
    let s := s.bulkCancel xMEFENCE
    let s := foldFin 64 (fun n s => s.fenceChan n fnMe) s
    if cause = 1 then s.report 0x01 4 0 0
    else if cause = 2 then s.report 0x02 4 0 0
    else if cause = 3 ∨ cause = 4 then s.report 0x03 4 0 0
    else s

/-- The window below a window. -/
def prevWin (w : Nat) : Nat := if w ≤ 1 then 15 else w - 1

/-- The window that follows the current one in the ring, 15 wrapping to 1; window 1 when no frame is open (07 R286). -/
def nextWin (s : State) : Nat :=
  let w := match s.me.frames with
    | f :: _ => f.win
    | [] => if s.me.spilled = 0 then 0 else s.me.below
  if w = 15 then 1 else w + 1

/-- Open a window for a frame, with the overflow sequence when all 15 hold live frames (07 R286, R287, R289). -/
def openWindow (s : State) (f : Frame) : State :=
  let push (s : State) : State :=
    s.modMe fun m => { m with frames := { f with win := s.nextWin, uid := m.nextUid } :: m.frames, nextUid := m.nextUid + 1 }
  if s.me.frames.length < 15 then push s
  else if s.spillCap ≤ s.me.spilled ∨ (s.bank 5).st ≠ .on then s.meFence 3
  else
    let oldest := s.me.frames.getLast?
    let s := s.putRecord s.me.spilled ((oldest.map Frame.record).getD [])
    push (s.modMe fun m => { m with frames := m.frames.dropLast, spilled := m.spilled + 1 })

/-- Bring the newest spilled record back, into the window below the one that closed last (07 R288, R289). -/
def fillWindow (s : State) : State :=
  if s.me.frames ≠ [] ∨ s.me.spilled = 0 then s
  else
    let k := s.me.spilled - 1
    let r := (List.range 16).foldl (fun (p : Option (List Word) × State) i =>
      match p.1 with
      | none => p
      | some ws => match p.2.bankReadWord (p.2.spillAddr k i) with
        | (.ok w, s) => (some (ws ++ [w]), s)
        | (.error _, s) => (none, s)) (some [], s)
    match r.1 with
    | none => r.2.meFence 3
    | some ws => r.2.modMe fun m =>
        { m with frames := [{ Frame.ofRecord ws m.below with uid := m.nextUid }], spilled := k, nextUid := m.nextUid + 1 }

/-- Results still pending for a window that is gone are discarded (08 R345). -/
def pruneResults (s : State) : State :=
  let live (u : Nat) : Bool := s.me.frames.any (fun f => decide (f.uid = u)) || s.me.trapWin.any fun f => decide (f.uid = u)
  s.modMe fun m => { m with results := m.results.filter fun r => live r.uid }

/-- Close the newest frames up to and with the one a dispatch opened, spilled frames included (07 R286, R291). The number
bounds the frames examined. -/
def closeDispatch : Nat → State → State
  | 0, s => s
  | n + 1, s =>
    match s.me.frames with
    | f :: rest =>
      let s := s.modMe fun m => { m with frames := rest, below := prevWin f.win }
      if f.called then closeDispatch n s else s
    | [] =>
      if s.me.spilled = 0 then s
      else
        let called := bit ((s.spillRecord (s.me.spilled - 1)).getD 8 0) 13
        let s := s.modMe fun m => { m with spilled := m.spilled - 1, below := prevWin m.below }
        if called then closeDispatch n s else s

/-- All frames at most: 15 resident and 256 spilled. -/
def maxFrames : Nat := 271

/-- Priority of the most urgent suspended program: the newest frame's (07 R273). -/
def suspendedPri (s : State) : Option Nat :=
  match s.me.frames with
  | f :: _ => some f.pri
  | [] => if s.me.spilled = 0 then none else some (fld ((s.spillRecord (s.me.spilled - 1)).getD 9 0) 28 26)

/-! ## Selection and dispatch (07 R269–R273) -/

/-- The owner a request runs as (07 Table 7.1). -/
def reqOwner (s : State) (r : Req) : Fin 256 :=
  match r.src with
  | .chan n => s.owner n
  | _ => 0

/-- The most urgent of the candidates that have been READY for `lag` cycles. -/
def readyCand (s : State) (lag : Nat) : Option Cand :=
  leastBy Cand.key
    ((s.tt.cal.filter fun p => decide (p.2.st = .ready) && !p.2.doomed && decide (p.2.readyAt + lag ≤ s.time)).map
        (fun p => Cand.entry p.1 p.2) ++
      (s.tt.reqs.filter fun r => decide (r.readyAt + lag ≤ s.time)).map Cand.req)

/-- The candidate a dispatch selects: one due in cycle d is selected from cycle d + 2 on (07 R270–R272). (DEDUCED, log 25.) -/
def bestCand (s : State) : Option Cand := s.readyCand 1

/-- A request is selected: its cause set goes to the program and PEND clears (04 R142). -/
def takeCause (s : State) (src : ReqSrc) : BitVec 16 × State :=
  let s := s.dropRequest src
  match src with
  | .chan n => ((s.chan n).ev.cause, s.modChan n fun c => { c with ev := c.ev.discard })
  | .dom d => ((s.ad d).ev.cause, s.modAd d fun a => { a with ev := a.ev.discard })
  | .ps e => ((s.eng e).ev.cause, s.modEng e fun p => { p with ev := p.ev.discard })
  | .iv => (s.tsi.ev.cause, s.modTsi fun t => { t with ev := t.ev.discard })
  | .adc k => ((s.adc k).ev.cause, s.modAdc k fun a => { a with ev := a.ev.discard })

/-- The frame a dispatch opens (07 R285, Table 7.3). -/
def dispatchFrame (w0 desc w2 w3 : Word) (entry : BitVec 13) : Frame :=
  { w := #v[w0, desc, w2, w3, 0, 0, 0, 0], pc := entry, desc := desc }

/-- A dispatch is counted, with its latency from due to the first instruction, which executes `n` cycles from now, after an
overflow sequence of 18 cycles where the ring is full (07 R271–R273, R287, Table 7.11). -/
def countDispatch (s : State) (due : W48) (n : Nat) : State :=
  let wait := n + if s.me.frames.length < 15 then 0 else 18
  s.modTt fun t => { t with cnt := satInc t.cnt, lat := satOf 32 (max t.lat.toNat ((s.tb - due).toNat + wait)) }

/-- Dispatch a candidate, whose first instruction executes `n` cycles from now (07 R271, R285). -/
def dispatchCand (s : State) (c : Cand) (n : Nat) : State :=
  let run (s : State) : State :=
    if s.me.st = .fenced then s else (s.modMe fun m => { m with st := .running }).fltBack (unitKey 4 0)
  match c with
  | .entry h e =>
    let d := descriptor false e.late e.pri.toNat e.keysel.toNat e.owner.val h
    let s := ((s.freeEntry h).countDispatch e.dueAt n).modCyc fun c => { c with selected := h :: c.selected }
    run (s.openWindow (dispatchFrame e.arg d (lo32 e.key) (if e.keysel = 0 then hi16 e.key else 0) e.entry))
  | .req r =>
    let d := descriptor true false r.pri.toNat 0 (s.reqOwner r).val r.src.number
    let x := s.takeCause r.src
    let s := x.2.countDispatch r.at_ n
    run (s.openWindow (dispatchFrame (x.1.setWidth 32) d (lo32 r.at_) (hi16 r.at_) r.entry))

/-- May the Timetable dispatch? (07 R308) -/
def mayDispatch (s : State) : Bool :=
  s.boot.applied && s.pwr.st == .run && s.me.en && s.me.trapWin.isNone && (s.me.st == .idle || s.me.st == .running)

/-- A READY candidate is dispatched when the engine is idle, or preempts a less urgent program (07 R271, R272, R306). (DEDUCED, log 14.) -/
def dispatch (s : State) : State :=
  if !s.mayDispatch then s
  else
    match s.bestCand with
    | none => s
    | some c =>
      if s.me.st = .idle then s.dispatchCand c 1
      else
        match s.suspendedPri with
        | some p => if c.pri < p then s.dispatchCand c 1 else s
        | none => s.dispatchCand c 1

/-- Selection after a program has ended (07 R273): a more urgent candidate that is READY now, else the suspended program, else
idle; no candidate while dispatch is off (R308). -/
def selectNext (s : State) : State :=
  if s.me.st = .fenced ∨ s.me.st = .stopped then s
  else
    let s := s.pruneResults
    let resume (s : State) : State :=
      let s := s.fillWindow
      if s.me.st = .fenced then s else s.modMe fun m => { m with st := .running }
    let s := s.modMe fun m => { m with st := .idle }
    match (if s.mayDispatch then s.readyCand 0 else none), s.suspendedPri with
    | some c, some p => if c.pri < p then s.dispatchCand c 2 else resume s
    | some c, none => s.dispatchCand c 2
    | none, some _ => resume s
    | none, none => s

/-- The windows a fenced client owns are discarded, spilled ones included (07 R283). -/
def discardWindows (s : State) (c : Fin 256) : State :=
  let recs := (List.range s.me.spilled).map s.spillRecord
  let kept := recs.filter fun r => decide (fld (r.getD 9 0) 23 16 ≠ c.val)
  let s := if kept.length = recs.length then s
    else ((kept.zipIdx).foldl (fun s p => s.putRecord p.2 p.1) s).modMe fun m => { m with spilled := kept.length }
  let cur := s.me.frames.head?
  let s := s.modMe fun m =>
    { m with frames := m.frames.filter (fun f => f.owner ≠ c)
             below := (cur.map fun f => prevWin f.win).getD m.below
             trapLive := m.trapLive && decide (m.trapOwner ≠ c) }
  match cur with
  | some f => if f.owner = c ∧ s.me.trapWin = none then s.selectNext else s.pruneResults
  | none => s.pruneResults

/-! ## Registers (07 Tables 7.11, 7.12) -/

def ttStat (s : State) : Word :=
  packw [(s.calFree, 16), ((List.finRange 3).foldl (fun a d => a + b2n (at_ s.tt.sweeps d).isSome * 2 ^ d.val) 0, 12),
        (s.calReady, 0)]
/-- TT_REQ0–TT_REQ2: bit s of source s − 32 i. -/
def ttReq (s : State) (i : Nat) : Word :=
  BitVec.ofNat 32 ((s.tt.reqs.map fun r => r.src.number).foldl
    (fun a n => if n / 32 = i then a + 2 ^ (n % 32) else a) 0)

/-- A write to ME_SPILL (07 R310). -/
def writeSpill (s : State) (w : Word) : State :=
  let fr := fld w 23 16
  let base := fld w 7 0
  if s.boot.locked ∨ 256 < base + (if fr = 0 then 256 else fr) then s
  else s.modMe fun m => { m with spillFrames := .ofNat 8 fr, spillBase := .ofNat 8 base }

/-- A write to ME_Gn (07 Table 7.12, R284). -/
def writeG (s : State) (i : Fin 8) (w : Word) : State :=
  if s.me.st = .stopped ∨ s.me.st = .fenced then s.modMe fun m => { m with g := vset m.g i fun _ => w } else s

/-- STATE follows EN and the application of the configuration while nothing runs (07 R308). -/
def settleMe (s : State) : State :=
  s.modMe fun m =>
    if m.st = .stopped then { m with st := if s.boot.applied && m.en then .idle else .stopped }
    else if m.st = .idle then { m with st := if s.boot.applied && m.en then .idle else .stopped }
    else m

/-- A write to ME_CTL. -/
def writeMeCtl (s : State) (w : Word) : State :=
  if s.boot.locked then s
  else (s.modMe fun m => { m with en := bit w 0, hen := bit w 1, trapEntry := .ofNat 13 (fld w 28 16) }).settleMe

/-- The current window: the trap window, or the newest frame. -/
def curFrame (s : State) : Option Frame :=
  match s.me.trapWin with
  | some f => some f
  | none => s.me.frames.head?

/-- ME_STAT: CWP and PRI keep their values over a fence (07 R298, Table 7.12). (DEDUCED, log 108.) -/
def meStat (s : State) : Word :=
  packw [(match s.me.st with | .stopped => 0 | .idle => 1 | .running => 2 | .trap => 3 | .fenced => 4, 28),
        (if s.me.st = .fenced then s.me.keptWin else s.curWin, 24),
        (s.me.frames.length, 20), (s.me.fcause.toNat, 17), (s.me.spilled, 8),
        (if s.me.st = .fenced then s.me.keptPri else s.curPri, 4)]
def mePc (s : State) : Word :=
  match s.curFrame with
  | some f => packw [(f.owner.val, 24), (f.pc.toNat, 0)]
  | none => 0

end State
end Sys2Proof.Machine
end

