-- ==== Sys2Proof/Machine/Seating.lean ====
section
/-!
DEFINITION. Machine/Seating.lean: clients, rights, events, message buffers, requests, faults and the client fence
(14 R520–R562).
-/
namespace Sys2Proof.Machine

/-- SC_FLAG bits (14 Table 14.10). -/
def sWWR : BitVec 6 := 1
def sFENCE : BitVec 6 := 2
def sBUFF : BitVec 6 := 4
def sOVF : BitVec 6 := 8
def sLATE : BitVec 6 := 16
def sTMO : BitVec 6 := 32

/-- FAILED reasons (14, after Table 14.5). -/
def eTIMEOUT : Nat := 1
def eNOACK : Nat := 2
def eDUPID : Nat := 3
def ePARK : Nat := 4
def eCLOCK : Nat := 5

/-! ## Fields of a record (14 Table 14.11) -/

def ClientRec.en (r : ClientRec) : Bool := bit r.bind 31
def ClientRec.kind (r : ClientRec) : Nat := fld r.bind 30 28
def ClientRec.link (r : ClientRec) : Nat := fld r.bind 27 26
def ClientRec.slotHi (r : ClientRec) : Nat := fld r.bind 23 16
def ClientRec.slotLo (r : ClientRec) : Nat := fld r.bind 15 8
def ClientRec.credit (r : ClientRec) : Nat := fld r.quota 21 11
def ClientRec.bufq (r : ClientRec) : Nat := fld r.quota 10 2
def ClientRec.canRead (r : ClientRec) (c : Nat) : Bool := bit r.rights (2 * c)
def ClientRec.canWrite (r : ClientRec) (c : Nat) : Bool := bit r.rights (2 * c + 1)
/-- The record with word i (0–5) replaced. -/
def ClientRec.setWord (r : ClientRec) (i : Nat) (w : Word) : ClientRec :=
  match i with
  | 0 => { r with bind := w }
  | 1 => { r with rights := w }
  | 2 => { r with grant := (r.grant &&& 0xFFFFFFFF00000000) ||| w.setWidth 64 }
  | 3 => { r with grant := (r.grant &&& 0x00000000FFFFFFFF) ||| (w.setWidth 64 <<< 32) }
  | 4 => { r with quota := w }
  | _ => { r with rate := w }

/-- Register classes of host addresses (14 Table 14.3); client windows and BANK7 have none. -/
def classOf (a : Nat) : Option Nat :=
  if a < 0x400 then some (if 0x40 ≤ a ∧ a < 0x58 then 1 else 0)
  else if a < 0x800 then some 2
  else if a < 0x1000 then some 3
  else if a < 0x4000 then some 4
  else if a < 0x4800 then some 5
  else if a < 0x5000 then some 6
  else if a < 0x5400 then some 7
  else if a < 0x5C00 then some 8
  else if a < 0x6400 then some 9
  else if a < 0x6800 then some 10
  else if a < 0x7000 then some 11
  else if a < 0xB000 then some 12
  else if a < 0xC400 then some 13
  else if a < 0xD000 then some 14
  else if 0x10000 ≤ a ∧ a < 0x12000 then some 15
  else if isMemAddr a then some 9
  else if 0x80000 ≤ a ∧ a < 0x8C000 then some 6
  else if 0x90000 ≤ a ∧ a < 0x90800 then some 12
  else none

namespace State

def scFlag (s : State) (b : BitVec 6) : State := (s.modSc fun x => { x with flag := x.flag ||| b }).hwSet 0x10008 (b.setWidth 32)

/-- The state of a client: client 0 is always there (14 R520, R521). -/
def clientState (s : State) (c : Fin 256) : ClientState := if c = 0 then .active else (s.client c).st

/-- A client's record as it stood at the start of the cycle, which its header checks judge; its bucket is as it stands
(14 R532, R559). -/
def clientAt (s : State) (c : Fin 256) : ClientRec :=
  match s.cyc.recs.find? (fun p => decide (p.1 = c.val)) with
  | some p => { p.2 with tokens := (s.client c).tokens }
  | none => s.client c
/-- The record of client c is about to change in this cycle (14 R559). -/
def noteRec (s : State) (c : Fin 256) : State :=
  if s.cyc.recs.any fun p => decide (p.1 = c.val) then s else s.modCyc fun y => { y with recs := (c.val, s.client c) :: y.recs }

/-- Message buffers. -/
def bufRec (s : State) (i : Fin 256) : BufRec := cellRead {} s.sc.bufs i.val
def setBuf (s : State) (i : Fin 256) (f : BufRec → BufRec) : State :=
  s.modSc fun x => { x with bufs := cellWrite {} x.bufs i.val (f (cellRead {} x.bufs i.val)) }
/-- Bank address of buffer i (14 R539). -/
def bufAddr (i : Fin 256) : Nat := 0x3C000 + 0x40 * i.val
/-- The handle of buffer i: GEN and INDEX. -/
def handleOf (s : State) (i : Fin 256) : Nat := (s.bufRec i).gen.toNat * 256 + i.val

/-- Buffers a client holds, OWNED or QUEUED. -/
def bufHeld (s : State) (c : Fin 256) : List (Fin 256) :=
  (List.finRange 256).filter fun i =>
    match (s.bufRec i).st with
    | .free => false
    | .owned o => decide (o = c)
    | .queued o _ _ => decide (o = c)
def bufFree (s : State) : List (Fin 256) := (List.finRange 256).filter fun i => decide ((s.bufRec i).st = .free)

/-! ## Rights (14 R525–R530, R470, R522) -/

def grantsChan (s : State) (c : Fin 256) (n : Fin 64) : Bool := decide (c = 0) || grants (s.clientAt c) n
def grantsGrove (s : State) (c : Fin 256) (g : Fin 8) : Bool := (groveChans g).all fun n => s.grantsChan c n

/-- The grants a register write needs (14 R527); `data` is the word written. -/
def grantsWrite (s : State) (c : Fin 256) (a : Nat) (data : Word) : Bool :=
  if 0x1000 ≤ a ∧ a < 0x1800 then s.grantsGrove c (Fin.ofNat 8 ((a - 0x1000) / 0x100))
  else if 0x2000 ≤ a ∧ a < 0x4000 then s.grantsChan c (Fin.ofNat 64 ((a - 0x2000) / 0x80))
  else if 0x5000 ≤ a ∧ a < 0x5200 ∧ (a % 0x40 = 8 ∨ a % 0x40 = 12) then
    (List.range 4).all fun i => !bit data (8 * i + 7) || s.grantsChan c (Fin.ofNat 64 (fld data (8 * i + 5) (8 * i)))
  else true

/-- INTC registers with owners of their own (12 R469, R470): a pin's enables, THR, CLAIM and COMPLETE are its owner's,
the supervisor's enables and threshold and PCFG are client 0's. -/
def intcAllows (s : State) (c : Fin 256) (a : Nat) (write : Bool) : Bool :=
  if c = 0 then true
  else if (0x920 ≤ a ∧ a < 0x93C) then !write
  else if 0xA00 ≤ a ∧ a < 0xB00 then
    let n : Fin 4 := Fin.ofNat 4 ((a - 0xA00) / 0x40)
    let o := a % 0x40
    let mine := decide (fld (at_ s.intc.pcfg n) 7 0 = c.val)
    if write then (if o = 0x18 then false else mine) else if o = 0x20 then mine else true
  else true

/-- May client c make this access? (14 R521, R525–R529; 12 R470; 14 R522, Table 14.10) -/
def permits (s : State) (c : Fin 256) (a : Nat) (write : Bool) (data : Word) : Bool :=
  if c = 0 then true
  else
    let r := s.clientAt c
    if 0x12000 ≤ a ∧ a < 0x13000 then decide ((a - 0x12000) / 0x10 = c.val)
    else
      let p := if isAperture a then (s.resolve a).getD a else a
      if 0x3C000 ≤ p ∧ p < 0x40000 then
        decide ((s.bufRec (Fin.ofNat 256 ((p - 0x3C000) / 0x40))).st = .owned c)
      else
        match classOf p with
        | none => false
        | some k =>
          let agent := decide (c = 255) && (decide (p = 0xC404) || decide (p = 0xC408) ||
            (decide (p = 0xC824) && decide (fld data 31 28 = 2)))
          let base := if write then r.canWrite k || agent else r.canRead k || decide (k = 0)
          -- COMPLETE and the pin registers answer to their owner, the chart to client 255; UPD and READMIT take
          -- client 255 as well (20 R735, 19 R711)
          let chart := !(write && decide (k = 15)) || decide (c = 255)
          base && chart && s.intcAllows c p write && (!write || s.grantsWrite c p data)

/-! ## Events (14 R533–R538) -/

/-- The client an enabled record makes known, with a class's read rights: every one of them, and client 0, gets the block
events of that class. -/
def readers (s : State) (cls : Nat) : List (Fin 256) :=
  (List.finRange 256).filter fun c =>
    decide (c = 0) || ((s.client c).en && (s.client c).canRead cls)

/-- Post one event to each of several clients. -/
def postAll (s : State) (rank : Nat) (cs : List (Fin 256)) (type : Nat) (crit : Bool) (info : Nat) (w1 w2 w3 : Word) : State :=
  cs.foldl (fun s c => s.post rank c type crit info w1 w2 w3) s

/-- The event credit of a client (14 R521, Table 14.11). -/
def creditOf (s : State) (c : Fin 256) : Nat := if c = 0 then 256 else (s.client c).credit

/-- Events a client holds against its credit; the OVERFLOW notice sits in its own entry (14 R536). -/
def eventsHeld (r : ClientRec) : Nat := (r.queue.filter fun e => !e.ov).length

def isCrit (e : Event) : Bool := bit e.w0 7

/-- Remove the first element that satisfies p. -/
def removeFirst {α : Type} (p : α → Bool) : List α → List α
  | [] => []
  | a :: as => if p a then as else a :: removeFirst p as

/-- A discard: DROPPED, OVF, and the OVERFLOW notice (14 R536). -/
def countDrop (s : State) (c : Fin 256) : State :=
  let s := (s.modClient c fun r => { r with dropped := satInc r.dropped }).scFlag sOVF
  let r := s.client c
  if r.overflowed then
    s.modClient c fun r => { r with queue := r.queue.map fun e => if e.ov then { e with w1 := satInc e.w1 } else e }
  else
    let e : Event := { w0 := eventWord0 r.seq.toNat 0 true 0x09, w1 := 1, w2 := 0, w3 := 0, ov := true }
    s.modClient c fun r => { r with overflowed := true, seq := r.seq + 1, queue := r.queue ++ [e] }

/-- Remove the oldest event that satisfies p from the queue; a head being read takes the cursor with it. -/
def dropEvent (s : State) (c : Fin 256) (p : Event → Bool) : State :=
  s.modClient c fun r =>
    { r with queue := removeFirst p r.queue, cursor := if (r.queue.head?.map p).getD false then 0 else r.cursor }

/-- One posted event is admitted or discarded (14 R534–R537). -/
def admitEvent (s : State) (c : Fin 256) (e : Event) : State :=
  if s.clientState c ≠ .active then s.modClient c fun r => { r with dropped := satInc r.dropped }
  else
    let push (s : State) : State := s.modClient c fun r => { r with queue := r.queue ++ [e] }
    let r := s.client c
    if eventsHeld r < s.creditOf c then push s
    else
      let plain (x : Event) : Bool := !x.ov && !isCrit x
      let crit (x : Event) : Bool := !x.ov && isCrit x
      if r.queue.any plain then push ((s.dropEvent c plain).countDrop c)
      else if !isCrit e then s.countDrop c
      else if r.queue.any crit then push ((s.dropEvent c crit).countDrop c)
      else s.countDrop c

/-- The posted event that is admitted next: the events of one earlier cycle go by client, then by producer (14 R533). -/
def nextPosted (s : State) : Option (Nat × Posted) :=
  match s.sc.posted with
  | [] => none
  | p :: _ =>
    if s.time ≤ p.at_ then none else
    leastBy (fun q => [q.2.client.val, q.2.rank, q.1])
      ((s.sc.posted.zipIdx.map fun q => (q.2, q.1)).filter fun q => decide (q.2.at_ = p.at_))

/-- EVENT_ADMIT: the pool takes the next posted event; it joins its queue after the pops of the cycle (14 R533, R556). -/
def eventAdmit (s : State) : State :=
  match s.nextPosted with
  | none => s
  | some (i, p) =>
    (s.modSc fun x => { x with posted := x.posted.eraseIdx i }).modCyc fun y => { y with admits := y.admits ++ [p] }
/-- The events taken in this cycle are admitted (14 R534–R537, R556). -/
def admitAll (s : State) : State := s.cyc.admits.foldl (fun s p => s.admitEvent p.client p.ev) s

/-- A read of EV_POP (14 R538). -/
def evPop (s : State) (c : Fin 256) : Word × State :=
  let r := s.client c
  match r.queue with
  | [] => (0, s)
  | e :: rest =>
    let w := match r.cursor.toNat with | 0 => e.w0 | 1 => e.w1 | 2 => e.w2 | _ => e.w3
    if r.cursor = 3 then
      (w, s.modClient c fun r => { r with queue := rest, cursor := 0, overflowed := r.overflowed && !e.ov })
    else (w, s.modClient c fun r => { r with cursor := r.cursor + 1 })

def evStat (s : State) (c : Fin 256) : Word :=
  let r := s.client c
  packw [(r.lastAlloc.toNat, 16), (b2n r.overflowed, 15), (r.cursor.toNat, 13), (r.queue.length, 0)]

/-! ## Requests and messages (14 R543–R548) -/

/-- A FAILED event (14 Table 14.5). -/
def postFailed (s : State) (c : Fin 256) (l : Fin 4) (msgid : BitVec 12) (reason handle tx : Nat) : State :=
  s.post 1 c 0x05 true (l.val * 4096 + msgid.toNat) (packw [(reason, 28), (handle, 0)]) (.ofNat 32 tx) 0

/-- Transmissions made so far of the message in a buffer. -/
def txMade (s : State) (l : Fin 4) (i : Fin 256) : Nat :=
  match (s.link l).out with
  | some o => if o.msg.buf = some i then o.tx else 0
  | none => 0

/-- The link drops the message of a buffer; a frame being sent ends with the abort sequence (15 R595). -/
def dropMessage (s : State) (l : Fin 4) (i : Fin 256) : State :=
  s.modLink l fun h =>
    let mine := match h.out with | some o => decide (o.msg.buf = some i) | none => false
    { h with mdcq := h.mdcq.filter fun m => m.buf ≠ some i
             out := if mine then none else h.out
             mdcOut := if mine && decide (h.mdcOut ≠ []) then [0x7D, 0x7E] else h.mdcOut }

/-- Close an open request without an event: its retries go and its buffer is OWNED again. -/
def dropRequestOf (s : State) (q : OpenReq) : State :=
  let s := (s.dropMessage q.link q.buf).setBuf q.buf fun b => { b with st := .owned q.client }
  s.modSc fun x => { x with reqs := x.reqs.filter fun r => r ≠ q }

/-- Every open request closes with FAILED (14 R562). -/
def failRequests (s : State) (reason : Nat) : State :=
  s.sc.reqs.foldl (fun s q =>
    let tx := s.txMade q.link q.buf
    (s.dropRequestOf q).postFailed q.client q.link q.msgid reason (s.handleOf q.buf) tx) s

/-- A request's timeout expires (14 R545, R546). (DEDUCED, log 50.) -/
def requestTimeout (s : State) (c : Fin 256) (l : Fin 4) (msgid : BitVec 12) : State :=
  match s.sc.reqs.find? (fun q => decide (q.client = c) && decide (q.link = l) && decide (q.msgid = msgid)) with
  | none => s
  | some q =>
    if reached s.tb (q.at_ + .ofNat 48 (q.timeoutMs * 200000)) then
      let tx := s.txMade l q.buf
      ((s.dropRequestOf q).postFailed c l msgid eTIMEOUT (s.handleOf q.buf) tx).scFlag sTMO
    else s

/-! ## Faults and fencing (14 R549–R553) -/

/-- The channels an enabled record 1–254 grants (14 R530). -/
def ownedMask (r : ClientRec) : BitVec 64 := if r.en then r.grant else 0

/-- What a fence and a disable cut off; `own` are the client's channels (14 R551, R552). -/
def cutClient (s : State) (c : Fin 256) (own : BitVec 64) : State :=
  let s := (s.freeClientEntries c).discardWindows c
  let s := foldFin 64 (fun n s => if bit own n.val then s.fenceChan n fnClient else s) s
  let s := foldFin 8 (fun k s =>
    let d := s.dmac k
    if d.owner = c ∧ (d.st = .load ∨ d.st = .wait ∨ d.st = .move) then
      (s.dmaError k 3).modDma k fun d => { d with starv := false }
    else s) s
  (s.sc.reqs.filter fun q => decide (q.client = c)).foldl (fun s q => s.dropRequestOf q) s

/-- The fence of a client takes effect: cause 1 FAULTS, 2 CMD, 3 FLT (14 R551). -/
def fenceClient (s : State) (c : Fin 256) (cause : Nat) : State :=
  if c = 0 ∨ (s.client c).st ≠ .active then s
  else
    let s := (s.cutClient c (ownedMask (s.client c))).modCyc fun y => { y with cut := c :: y.cut }
    let s := s.modClient c fun r => { r with st := .fenced, fcause := .ofNat 4 cause }
    let s := (s.scFlag sFENCE).modSc fun x => { x with frecClient := c, frecCause := .ofNat 4 cause }
    if cause = 3 then s else s.report 0x22 9 c.val 0

/-- A fence of a client is decided: it takes effect in the next cycle (14 R551). -/
def fenceNext (s : State) (c : Fin 256) (cause : Nat) : State :=
  if c = 0 ∨ (s.client c).st ≠ .active then s
  else s.modSc fun x => { x with cuts := x.cuts ++ [{ client := c, cause := .ofNat 4 cause, grant := 0 }] }
/-- A disable is decided: it takes effect in the next cycle, on the channels the record granted (14 R552). -/
def disableNext (s : State) (c : Fin 256) (r : ClientRec) : State :=
  s.modSc fun x => { x with cuts := x.cuts ++ [{ client := c, cause := 0, grant := ownedMask r }] }

/-- A decided fence or disable takes effect; a client enabled again meanwhile is not disabled (14 R551, R552). -/
def applyCut (s : State) (x : Cut) : State :=
  if x.cause ≠ 0 then s.fenceClient x.client x.cause.toNat
  else if (s.client x.client).en then s
  else (s.cutClient x.client x.grant).modClient x.client fun r => { r with st := .disabled }
/-- Cycle F: what was decided in the cycle before takes effect (14 R551). -/
def applyCuts (s : State) : State :=
  s.sc.cuts.foldl (fun s x => s.applyCut x) (s.modSc fun x => { x with cuts := [] })

/-- A fault is counted against a client (14 R549, R550): eight within 1 s fence it. (DEDUCED, log 89.) -/
def countFault (s : State) (c : Fin 256) : State :=
  let now := s.time
  let s := s.modClient c fun r =>
    { r with faults := satInc r.faults, faultTimes := ((now :: r.faultTimes).take 8).filter fun t => now - t ≤ 200000000 }
  if c ≠ 0 ∧ 8 ≤ (s.client c).faultTimes.length then s.fenceNext c 1 else s

/-- A client comes back (14 R553). -/
def restoreClient (s : State) (c : Fin 256) : State :=
  let was := (s.client c).st
  let cause : Nat := if was = .fenced then (s.client c).fcause.toNat else 0
  let late := ((s.sc.posted ++ s.cyc.admits).filter fun p => decide (p.client = c)).length
  let s := (s.modSc fun x => { x with posted := x.posted.filter fun p => p.client ≠ c }).modCyc fun y =>
    { y with admits := y.admits.filter fun p => p.client ≠ c }
  let s := (s.bufHeld c).foldl (fun s i =>
    let s := foldFin 4 (fun l s => s.dropMessage l i) s
    s.setBuf i fun b => { st := .free, gen := if b.gen = 0xFF then 1 else b.gen + 1 }) s
  let s := s.modClient c fun r =>
    { r with queue := [], overflowed := false, cursor := 0, faultTimes := [], tokens := fld r.rate 15 8, tokAt := s.time, st := .active,
             dropped := satOf 12 (r.dropped.toNat + late) }
  let r := s.client c
  let s := foldFin 64 (fun n s => if grants r n then s.unfenceChan n fnClient else s) s
  let s := s.fltBack (unitKey 9 c.val)
  let e : Event := { w0 := eventWord0 (s.client c).seq.toNat 0 true 0x0A, w1 := .ofNat 32 cause, w2 := 0, w3 := 0 }
  (s.modClient c fun r => { r with seq := r.seq + 1 }).admitEvent c e

/-- SC_CMD RESTORE of a FENCED client; one whose fence takes effect in this cycle stays FENCED (14 R553, R558). -/
def restoreCmd (s : State) (c : Fin 256) : State :=
  if (s.client c).st = .fenced ∧ c ∉ s.cyc.cut then (s.noteRec c).restoreClient c else s

/-- The credit sum with client 0's (14 R523). -/
def creditSum (s : State) : Nat :=
  256 + (s.sc.recs.filter fun p => decide (1 ≤ p.1) && p.2.en).foldl (fun a p => a + p.2.credit) 0

/-- Other enabled records. -/
def otherRecs (s : State) (n : Fin 256) : List ClientRec :=
  (s.sc.recs.filter fun p => decide (1 ≤ p.1) && decide (p.1 ≠ n.val) && p.2.en).map (·.2)

/-- Why a record may not become r: 0 it may; 1 grant, 2 credit sum, 3 slot range, 4 field (14 R523, Table 14.10). (DEDUCED, log 49.) -/
def recordFault (s : State) (n : Fin 256) (r : ClientRec) : Nat :=
  let others := s.otherRecs n
  let credits := 256 + others.foldl (fun a o => a + o.credit) 0 + (if r.en then r.credit else 0)
  if r.en && others.any (fun o => decide (o.grant &&& r.grant ≠ 0)) then 1
  else if 1792 < credits && s.creditSum < credits then 2
  else if r.en && decide (r.kind = 3) && (decide (r.slotHi < r.slotLo) || others.any (fun o =>
      decide (o.kind = 3) && decide (o.link = r.link) && decide (o.slotLo ≤ r.slotHi) && decide (r.slotLo ≤ o.slotHi))) then 3
  else if (r.kind = 4 ∧ n ≠ 255) ∨ 1016 < fld r.quota 31 22 ∨ fld r.bind 25 24 ≠ 0 ∨ fld r.bind 7 0 ≠ 0 ∨
      fld r.quota 1 0 ≠ 0 ∨ 5 < r.kind ∨ 256 < r.bufq then 4
  else 0

def scWerr (s : State) (n : Fin 256) (reason : Nat) : State :=
  (s.scFlag sWWR).modSc fun x => { x with werrRecord := n, werrReason := .ofNat 4 reason }

/-- A write of word i of record n by client c; `sup` is the supervisor itself (14 R522, R523, R552, R553). (DEDUCED, log 49.) -/
def recordWrite (s : State) (sup : Bool) (c n : Fin 256) (i : Nat) (w : Word) : State :=
  if 6 ≤ i ∨ n = 0 then s
  else if (c ≠ 0 ∧ ¬(c = 255 ∧ (s.client 255).canWrite 15 = true)) ∨ (n = 255 ∧ sup = false) then s.scWerr n 5
  else
    let old := s.client n
    let new := old.setWord i w
    match s.recordFault n new with
    | 0 =>
      let s := s.noteRec n
      if i = 0 ∧ old.en ∧ !new.en then (s.modClient n fun r => { r with bind := w }).disableNext n old
      else
        let s := s.modClient n fun r => if i = 5 then { r.setWord i w with tokAt := s.time } else r.setWord i w
        if i = 0 ∧ !old.en ∧ new.en then s.restoreClient n else s
    | k => s.scWerr n k

/-- SC_CMD (14 Table 14.10, R551, R553). -/
def scCmd (s : State) (w : Word) : State :=
  let c : Fin 256 := Fin.ofNat 256 (fld w 7 0)
  let op := fld w 31 28
  if c = 0 ∨ op = 0 ∨ 3 < op then s.scFlag sWWR
  else if op = 1 then s.fenceNext c 2
  else if op = 2 then s.restoreCmd c
  else s.modClient c fun r => { r with dropped := 0, late := 0, faults := 0 }

/-- RATE_TOKEN: the bucket of a client gains the token that is due, one every PERIOD × 10 µs (14 R532). (DEDUCED, log 49.) -/
def rateToken (s : State) (c : Fin 256) : State :=
  let now := s.time
  s.modClient c fun r =>
    let due := r.tokAt + 2000 * fld r.rate 7 0
    if fld r.rate 7 0 ≠ 0 ∧ r.en ∧ due ≤ now then { r with tokens := min (fld r.rate 15 8) (r.tokens + 1), tokAt := due } else r

/-! ## Buffers (14 R539–R544) -/

/-- BUF_ALLOC for client c (14 R540): status and handle. -/
def bufAlloc (s : State) (c : Fin 256) : Word × State :=
  if c ≠ 0 ∧ (s.client c).bufq ≤ (s.bufHeld c).length then (packw [(1, 28)], s)
  else
    match s.bufFree with
    | [] => (packw [(2, 28)], s)
    | i :: _ =>
      if (s.bank 7).st = .fenced then (packw [(3, 28)], s)
      else
        let s := s.setBuf i fun b => { st := .owned c, gen := if b.gen = 0xFF then 1 else b.gen + 1 }
        let h := s.handleOf i
        (packw [(h, 0)], s.modClient c fun r => { r with lastAlloc := .ofNat 16 h })

/-- The owner a buffer's state names; 0 when it is FREE. -/
def bufOwner (b : BufRec) : Fin 256 :=
  match b.st with
  | .free => 0
  | .owned c => c
  | .queued c _ _ => c

/-- The first check of R541 that fails: 1 DOUBLE, 2 NOT_OWNER, 3 STALE_GENERATION; 0 none. -/
def bufCheck (s : State) (c : Fin 256) (handle : Nat) : Nat :=
  let b := s.bufRec (Fin.ofNat 256 (handle % 256))
  let gen := handle / 256 % 256
  if gen = 0 ∨ gen ≠ b.gen.toNat then 3
  else
    match b.st with
    | .free => 1
    | .owned o => if o = c ∨ c = 0 then 0 else 2
    | .queued _ _ _ => if c = 0 then 0 else 2

/-- A failed check of a handle (14 R542). -/
def bufFault (s : State) (c : Fin 256) (kind op handle : Nat) : State :=
  let b := s.bufRec (Fin.ofNat 256 (handle % 256))
  let w2 := packw [(b.gen.toNat, 8), ((bufOwner b).val, 0)]
  ((s.post 1 c 0x08 true (kind * 4096 + op * 256) (.ofNat 32 handle) w2 0).scFlag sBUFF).countFault c

/-- The head of the message in buffer i: MSGID, LEN, and whether its reserved fields are 0 (14 Table 14.7). -/
def msgHead (s : State) (i : Fin 256) : BitVec 12 × Nat × Bool :=
  let w := s.bankData (bufAddr i)
  (.ofNat 12 (fld w 11 0), fld w 23 16, decide (fld w 15 12 = 0) && decide (fld w 31 24 = 0))

/-- BUF_CMD FREE with the checks passed (14 Table 14.6). (DEDUCED, log 50.) -/
def bufFreeOp (s : State) (i : Fin 256) : State :=
  let s := foldFin 4 (fun l s => s.dropMessage l i) s
  s.setBuf i fun b => { b with st := .free }

/-- BUF_CMD SEND or REQUEST with the checks passed (14 Table 14.6, R543, R544). -/
def bufSendOp (s : State) (i : Fin 256) (l : Fin 4) (req : Bool) : State :=
  let owner := bufOwner (s.bufRec i)
  let h := s.msgHead i
  let handle := s.handleOf i
  if !h.2.2 || decide (h.2.1 < 1) || decide (60 < h.2.1) then
    (s.postFailed owner l h.1 eNOACK handle 0).scFlag sWWR
  else if req && s.sc.reqs.any (fun q => decide (q.client = owner) && decide (q.link = l) && decide (q.msgid = h.1)) then
    s.postFailed owner l h.1 eDUPID handle 0
  else
    let m : MdcMsg := { client := owner, buf := some i, msgid := h.1, req := req,
                        payload := cellReadList 0 s.mem.cells (bufAddr i + 4) h.2.1 }
    let s := (s.setBuf i fun b => { b with st := .queued owner l req }).modLink l fun x => { x with mdcq := x.mdcq ++ [m] }
    if req then
      let ms := max 20 (fld (s.client owner).rate 31 16)
      s.modSc fun x => { x with reqs := x.reqs ++ [{ client := owner, link := l, msgid := h.1, buf := i, at_ := s.tb,
                                                     timeoutMs := ms }] }
    else s

/-- A write to BUF_CMD by client c (14 R541, R542, Table 14.6). -/
def bufCmd (s : State) (c : Fin 256) (w : Word) : State :=
  let op := fld w 31 28
  let handle := fld w 15 0
  let i : Fin 256 := Fin.ofNat 256 (handle % 256)
  if op = 0 ∨ 3 < op then s.scFlag sWWR
  else
    match s.bufCheck c handle with
    | 0 => if op = 1 then s.bufFreeOp i else s.bufSendOp i (Fin.ofNat 4 (fld w 25 24)) (decide (op = 3))
    | k => s.bufFault c k op handle

/-! ## Registers (14 Tables 14.10, 14.11) -/

def scGstat (s : State) : Word :=
  packw [(s.sc.recs.foldl (fun a p => a + p.2.queue.length) 0, 16), (s.creditSum, 0)]
def readRecord (s : State) (n : Fin 256) (i : Nat) : Word :=
  let r := s.client n
  match i with
  | 0 => r.bind
  | 1 => r.rights
  | 2 => r.grant.setWidth 32
  | 3 => (r.grant >>> 32).setWidth 32
  | 4 => r.quota
  | 5 => r.rate
  | 6 => packw [(match r.st with | .disabled => 0 | .active => 1 | .fenced => 2, 28), (r.fcause.toNat, 24),
        ((r.faultTimes.filter fun t => s.time - t ≤ 200000000).length, 20), (r.queue.length, 9), ((s.bufHeld n).length, 0)]
  | _ => packw [(r.dropped.toNat, 20), (r.late.toNat, 8), (r.faults.toNat, 0)]

end State
end Sys2Proof.Machine
end

