-- ==== Sys2Proof/Machine/Perf.lean ====
section
/-!
DEFINITION. Machine/Perf.lean: performance monitoring and the record store (17).
-/
namespace Sys2Proof.Machine

/-- PM_FLAG bits (17 Table 17.8). -/
def mBIN : BitVec 5 := 0x01
def mDAY : BitVec 5 := 0x02
def mCLKSET : BitVec 5 := 0x04
def mTCA : BitVec 5 := 0x08
def mPMWWR : BitVec 5 := 0x10
/-- RS_FLAG bits (17 Table 17.9). -/
def kRETRY : BitVec 5 := 0x01
def kRETIRE : BitVec 5 := 0x02
def kRO : BitVec 5 := 0x04
def kREFUSED : BitVec 5 := 0x08
def kCRC : BitVec 5 := 0x10
/-- Bin flags (17 Table 17.2). -/
def bSUSPECT : BitVec 8 := 0x01
def bPARTIAL : BitVec 8 := 0x02
def bCLKSET : BitVec 8 := 0x04
def bRESTART : BitVec 8 := 0x08
def bNODATA : BitVec 8 := 0x10
def bVOLATILE : BitVec 8 := 0x20

/-- A word raised by n, held at 0xFFFF_FFFF. -/
def addSat (w : Word) (n : Nat) : Word := satOf 32 (w.toNat + n)

/-- What a finished link second shows (17 Table 17.1). -/
def LinkSec.verdict (x : LinkSec) (observed : Bool) (thr : Nat) : Verdict :=
  { fenced := x.fenced, uas := x.fenced, bip := x.bip, es := decide (0 < x.bip) || x.errored, ses := decide (thr ≤ x.bip) || x.severe,
    slips := x.slips, ds := x.defect, counts := observed && x.enabled }

/-- Mark the n newest seconds of link l that count, of seconds newest first, available or not (17 R637). -/
def markRun (l : Fin 4) (u : Bool) : Nat → List DoneSecond → List DoneSecond
  | _, [] => []
  | 0, ds => ds
  | n + 1, d :: ds =>
    if (at_ d.v l).counts then { d with v := vset d.v l fun v => { v with uas := u || v.fenced } } :: markRun l u n ds
    else d :: markRun l u (n + 1) ds

/-- Add one second's verdicts to the counts of a link (17 Table 17.1, R637). -/
def addVerdict (v : Verdict) (w : Vector Word 7) : Vector Word 7 :=
  if v.counts then
    #v[addSat w[0] v.bip, addSat w[1] (b2n (v.es && !v.uas)), addSat w[2] (b2n (v.ses && !v.uas)), addSat w[3] (b2n v.uas),
       addSat w[4] v.slips, addSat w[5] (b2n v.ds), addSat w[6] 1]
  else w

/-- Add one second to a bin. -/
def Bin.add (b : Bin) (d : DoneSecond) : Bin :=
  { b with
    obs := b.obs + b2n d.observed
    flags := if d.suspect then b.flags ||| bSUSPECT else b.flags
    links := Vector.ofFn fun l => addVerdict (at_ d.v l) (at_ b.links l)
    odo := addSat b.odo d.odo, run := addSat b.run d.run, gov := addSat b.gov d.gov
    plaus := addSat b.plaus d.plaus, tamper := addSat b.tamper d.tamper }

/-- A closed bin: its KIND, and PARTIAL and VOLATILE as they stand (17 Table 17.2). -/
def Bin.closed (b : Bin) (kind len : Nat) (ro : Bool) (extra : BitVec 8) : Bin :=
  { b with
    kind := .ofNat 4 kind, upd := 0
    flags := b.flags ||| extra ||| (if b.obs < len then bPARTIAL else 0) ||| (if ro then bVOLATILE else 0) }

/-- The bin inserted for a skipped interval (17 R644). -/
def noDataBin (kind start : Nat) (suspect ro : Bool) : Bin :=
  { kind := .ofNat 4 kind, start := .ofNat 32 start,
    flags := bNODATA ||| bPARTIAL ||| (if suspect then bSUSPECT else 0) ||| (if ro then bVOLATILE else 0) }

/-- The skipped intervals from `from_` up to, not including, `upto`, the newest first, no more than `depth`. -/
def noDataBins (kind len depth from_ upto : Nat) (suspect ro : Bool) : List Bin :=
  (List.range (min depth ((upto - from_) / len))).map fun i => noDataBin kind (upto - len * (i + 1)) suspect ro

namespace State

def pmFlag (s : State) (b : BitVec 5) : State := (s.modPm fun p => { p with flag := p.flag ||| b }).hwSet 0xB018 (b.setWidth 32)
def rsFlag (s : State) (b : BitVec 5) : State := (s.modRs fun r => { r with flag := r.flag ||| b }).hwSet 0xC010 (b.setWidth 32)

/-- A view takes a bin, and its UPD word advances (17 R647). -/
def setView (s : State) (i : Fin 5) (b : Bin) : State :=
  s.modPm fun p => { p with views := vset p.views i fun o => some { b with upd := (o.getD {}).upd + 1 } }

/-- The three views of running bins (17 R647). (DEDUCED, log 57.) -/
def updateViews (s : State) : State :=
  ((s.setView 0 s.pm.cur15).setView 2 s.pm.curDay).setView 4 s.lifeTotals

/-! ## Bins -/

/-- The current 15-minute bin closes (17 R642, R647, R649); a new one has yet to open. -/
def close15 (s : State) (extra : BitVec 8) : State :=
  let b := s.pm.cur15.closed 1 900 s.rs.ro extra
  let s := s.modPm fun p => { p with hist15 := (b :: p.hist15).take 32, open15 := false, cur15 := {} }
  let s := (s.pmFlag mBIN).setView 1 b
  let s := (s.rsEnqueue 0x10 0 s.pm.curDay.bytes).writeLife
  if s.flt.unstored then s.storeLog else s

/-- The INDEX of the next day-history record, 1–7 in turn. (DEDUCED, log 57.) -/
def dayIndex (s : State) : Nat :=
  match (s.rs.versions.reverse.filter fun v => v.type = 0x10 ∧ v.index ≠ 0).head?,
        (s.rs.queue.reverse.filter fun v => v.type = 0x10 ∧ v.index ≠ 0).head? with
  | _, some w => w.index.toNat % 7 + 1
  | some v, none => v.index.toNat % 7 + 1
  | none, none => 1

/-- The current day bin closes (17 R642, R647, R649). -/
def closeDay (s : State) (extra : BitVec 8) : State :=
  let b := s.pm.curDay.closed 3 86400 s.rs.ro extra
  let s := s.modPm fun p => { p with histDay := (b :: p.histDay).take 7, openDay := false, curDay := { kind := 2 } }
  let s := (s.pmFlag mDAY).setView 3 b
  s.rsEnqueue 0x10 s.dayIndex b.bytes

/-- A 15-minute bin opens at a start time; PM_TCASTAT clears (17 R646). -/
def open15 (s : State) (start : Nat) : State :=
  s.modPm fun p =>
    { p with open15 := true, tcaEs := 0, tcaSes := 0,
             cur15 := { start := .ofNat 32 start, flags := if p.clkSet then bCLKSET else 0 } }

/-- A day bin opens. -/
def openDay (s : State) (start : Nat) : State :=
  s.modPm fun p =>
    { p with openDay := true, curDay := { kind := 2, start := .ofNat 32 start, flags := if p.clkSet then bCLKSET else 0 } }

/-- Bring the current bins to the intervals of an observed second, closing and inserting what a gap left (17 R642, R644). -/
def rollBins (s : State) (d : DoneSecond) : State :=
  let i15 := d.at_ / 900 * 900
  let iDay := d.at_ / 86400 * 86400
  let c15 := s.pm.cur15.start.toNat
  let cDay := s.pm.curDay.start.toNat
  let s :=
    if !s.pm.open15 then s.open15 i15
    else if c15 < i15 then
      let s := s.close15 0
      let n := noDataBins 1 900 32 (c15 + 900) i15 d.suspect s.rs.ro
      (s.modPm fun p => { p with hist15 := (n ++ p.hist15).take 32 }).open15 i15
    else s
  let s :=
    if !s.pm.openDay then s.openDay iDay
    else if cDay < iDay then
      let s := s.closeDay 0
      let n := noDataBins 3 86400 7 (cDay + 86400) iDay d.suspect s.rs.ro
      (s.modPm fun p => { p with histDay := (n ++ p.histDay).take 7 }).openDay iDay
    else s
  s.modPm fun p => { p with clkSet := false }

/-- Alerts of link l in the current 15-minute bin (17 R646). -/
def tcaLink (s : State) (l : Fin 4) : State :=
  let es := (at_ s.pm.cur15.links l)[1]
  let ses := (at_ s.pm.cur15.links l)[2]
  let tes := fld s.pm.tca 15 0
  let tses := fld s.pm.tca 31 16
  let alert (s : State) (k : Nat) (count : Word) : State :=
    (s.pmFlag mTCA).postAll 4 (s.readers 13) 0x18 false (256 * l.val + k) count s.pm.cur15.start 0
  let s :=
    if tes ≠ 0 ∧ tes ≤ es.toNat ∧ bit s.pm.tcaEs l.val = false then
      alert (s.modPm fun p => { p with tcaEs := p.tcaEs ||| oneBit 4 l.val }) 0 es
    else s
  if tses ≠ 0 ∧ tses ≤ ses.toNat ∧ bit s.pm.tcaSes l.val = false then
    alert (s.modPm fun p => { p with tcaSes := p.tcaSes ||| oneBit 4 l.val }) 1 ses
  else s

/-- Place one second in the bins (17 R638, R642–R646). -/
def placeSecond (s : State) (d : DoneSecond) : State :=
  let s := if d.observed then s.rollBins d else s
  let s := s.modPm fun p => { p with cur15 := p.cur15.add d, curDay := p.curDay.add d, life := p.life.add d }
  let s := foldFin 4 (fun l s => s.tcaLink l) s
  let s :=
    if s.pm.open15 ∧ s.pm.cur15.start.toNat + 899 = d.at_ then (s.close15 0).open15 (d.at_ + 1) else s
  if s.pm.openDay ∧ s.pm.curDay.start.toNat + 86399 = d.at_ then (s.closeDay 0).openDay (d.at_ + 1) else s

/-- PM_BIN_PLACE: ten seconds after the oldest waiting second ended, it is placed; the supervisor's part waits for its restart
(17 R638; 19 R701). (DEDUCED, log 57.) -/
def pmBinPlace (s : State) : State :=
  if s.flt.supReset then s else
  match s.pm.waiting with
  | [] => s
  | d :: rest =>
    if 11 ≤ (s.canopy.rtcSec - BitVec.ofNat 32 d.at_).toNat then
      (s.modPm fun p => { p with waiting := rest }).placeSecond d
    else s

/-- A new PM second begins (17 R635, R636). -/
def newSecond (s : State) : PmSecond :=
  { at_ := s.canopy.rtcSec, observed := s.pwr.pdUp,
    links := Vector.ofFn fun l =>
      let h := s.link l
      { enabled := h.en, fenced := h.fenced, severe := decide (h.defects &&& 7 ≠ 0), defect := decide (h.defects ≠ 0) } }

/-- The availability of link l after the newest of the waiting seconds, which are newest first (17 R637). -/
def judgeAvail (l : Fin 4) (p : Perf) (ds : List DoneSecond) : Perf × List DoneSecond :=
  match ds with
  | [] => (p, ds)
  | d :: _ =>
    let v := at_ d.v l
    if !v.counts then (p, ds)
    else
      let un := bit p.unav l.val
      let n := if v.ses = un then 0 else at_ p.against l + 1
      let ds := markRun l un 1 ds
      if n = 10 then
        ({ p with unav := p.unav ^^^ oneBit 4 l.val, against := vset p.against l fun _ => 0 }, markRun l (!un) 10 ds)
      else ({ p with against := vset p.against l fun _ => n }, ds)

/-- The verdicts of the second that ends, which wait 10 s (17 R635–R638, R641). -/
def pmVerdicts (s : State) : State :=
  let c := s.pm.sec
  let d : DoneSecond :=
    { at_ := c.at_.toNat, suspect := !s.canopy.rtcValid, observed := c.observed,
      v := c.links.map fun x => x.verdict c.observed s.pm.sesthr.toNat,
      gov := c.gov, plaus := c.plaus, tamper := c.tamper, odo := c.odo, run := c.run }
  let ds := d :: s.pm.waiting.reverse
  let r := (List.finRange 4).foldl (fun r l => judgeAvail l r.1 r.2) (s.pm, ds)
  s.modPm fun _ => { r.1 with waiting := r.2.reverse }

/-- A client wrote RTC_SEC: every waiting second is placed, the bins close with CLKSET, and the next ones open with it
(17 R645). The counts of the second cut short stay in hand, and a new DEG second begins (15 R578). (DEDUCED, log 57.) -/
def pmClockSet (s : State) : State :=
  let s := s.pm.waiting.foldl (fun s d => s.placeSecond d) (s.modPm fun p => { p with waiting := [] })
  let s := if s.pm.open15 then s.close15 bCLKSET else s
  let s := if s.pm.openDay then s.closeDay bCLKSET else s
  let s := foldFin 4 (fun l s => s.modLink l fun h =>
    { h with secBip := 0, secRaw := h.rawLos || decide (h.fst_ ≠ .sync) || decide (h.mfst ≠ .sync) }) s
  (s.modPm fun p =>
    { p with clkSet := true,
             sec := { s.newSecond with gov := p.sec.gov, plaus := p.sec.plaus, tamper := p.sec.tamper,
                                       odo := p.sec.odo, run := p.sec.run } }).pmFlag mCLKSET

/-- RUN_TIME_MS (17 R640). -/
def runTimeMs (s : State) : State :=
  let g : Fin 8 := Fin.ofNat 8 (fld s.pm.cfg 6 4)
  if bit s.pm.cfg 3 && s.tbs.run && !s.cyc.runMs && decide (s.tb.toNat % 200000 = 0) && decide ((s.ad 0).st = .locked) &&
      (groveChans g).any (fun n => !(s.chan n).o.inClr) then
    (s.modPm fun p =>
      let ms := p.runMs + 1
      { p with sec := { p.sec with run := p.sec.run + 1 }, runMs := ms % 1000, runSec := addSat p.runSec (ms / 1000) }).modCyc
      fun y => { y with runMs := true }
  else s

/-- The history bin a PM_SEL selection names. -/
def selBin (s : State) : Bin :=
  let h := if s.pm.selKind = 1 then s.pm.hist15 else s.pm.histDay
  (h[s.pm.selAge.toNat - 1]?).getD {}

/-- A write to PM_SEL (17 R648, R666). -/
def writePmSel (s : State) (w : Word) : State :=
  let k := fld w 10 8
  let a := fld w 5 0
  if (k = 1 ∧ 1 ≤ a ∧ a ≤ 32) ∨ (k = 3 ∧ 1 ≤ a ∧ a ≤ 7) then
    s.modPm fun p => { p with selKind := .ofNat 3 k, selAge := .ofNat 6 a, selRdy := false, win := none }
  else s.pmFlag mPMWWR

/-- PM_WIN_READY: the supervisor's copy (17 R648, R666; 19 R701). -/
def pmWinReady (s : State) : State :=
  if s.pm.selKind = 0 ∨ s.pm.selRdy ∨ s.flt.supReset then s
  else s.modPm fun p => { p with selRdy := true, win := some s.selBin }

/-- The stored bins and totals are loaded at a start (17 R650). -/
def pmLoad (s : State) (day life : Option (List Byte)) (hist : List (List Byte)) : State :=
  let s := s.modPm fun p => { p with histDay := (hist.map Bin.ofBytes).take 7 }
  let s := match life with
    | some b => let b := Bin.ofBytes b
                s.modPm fun p => { p with life := { b with kind := 4 }, odo := b.odo, runSec := b.run }
    | none => s
  match day with
  | none => s
  | some b =>
    let b := Bin.ofBytes b
    let today := s.canopy.rtcSec.toNat / 86400 * 86400
    if s.canopy.rtcValid ∧ b.start.toNat = today then
      s.modPm fun p => { p with openDay := true, curDay := { b with kind := 2, flags := b.flags ||| bRESTART } }
    else
      let s := (s.modPm fun p => { p with openDay := true, curDay := b }).closeDay bPARTIAL
      if s.canopy.rtcValid then
        let n := noDataBins 3 86400 7 (b.start.toNat + 86400) today false s.rs.ro
        s.modPm fun p => { p with histDay := (n ++ p.histDay).take 7 }
      else s

/-! ## Registers of PM (17 Table 17.8) -/

def pmRead (s : State) (a : Nat) : Option (Word × State) :=
  let p := s.pm
  let v (w : Word) : Option (Word × State) := some (w, s)
  match a with
  | 0xB000 => v p.cfg
  | 0xB004 => v (p.circ.setWidth 32)
  | 0xB008 => v (p.sesthr.setWidth 32)
  | 0xB00C => v p.tca
  | 0xB010 => v (packw [(b2n (bit p.cur15.flags 0 || bit p.curDay.flags 0), 4), (p.unav.toNat, 0)])
  | 0xB014 => v (packw [(p.tcaSes.toNat, 4), (p.tcaEs.toNat, 0)])
  | 0xB018 => v (p.flag.setWidth 32)
  | 0xB01C => v (p.ien.setWidth 32)
  | 0xB020 => v (packw [(b2n p.selRdy, 31), (p.selKind.toNat, 8), (p.selAge.toNat, 0)])
  | 0xB024 => v p.odo
  | 0xB028 => v p.runSec
  | _ =>
    if 0xB100 ≤ a ∧ a < 0xB4C0 then
      v (((at_ p.views (Fin.ofNat 5 ((a - 0xB100) / 192))).map fun b => b.word ((a - 0xB100) % 192 / 4)).getD 0)
    else if 0xB4C0 ≤ a ∧ a < 0xB580 then v ((p.win.map fun b => b.word ((a - 0xB4C0) / 4)).getD 0)
    else none

def pmWrite (s : State) (a : Nat) (w : Word) : Option State :=
  match a with
  | 0xB000 =>
    some (if fld w 31 16 = 0 then s.pmFlag mPMWWR
          else s.modPm fun p => { p with cfg := s.regBits p.cfg w 0xFFFF0078 0xFFFF0078 })
  | 0xB004 => some (s.modPm fun p => { p with circ := s.regBits p.circ w 0xFFFF 0xFFFF })
  | 0xB008 =>
    some (if fld w 15 0 = 0 then s.pmFlag mPMWWR
          else s.modPm fun p => { p with sesthr := s.regBits p.sesthr w 0xFFFF 0xFFFF })
  | 0xB00C => some (s.modPm fun p => { p with tca := w })
  | 0xB018 => some (s.modPm fun p => { p with flag := p.flag &&& ~~~(w.setWidth 5) })
  | 0xB01C => some (s.modPm fun p => { p with ien := w.setWidth 5 })
  | 0xB020 => some (s.writePmSel w)
  | _ => (s.pmRead a).map fun _ => s

/-! ## The record store (17 R651–R668) -/

def sector (s : State) (n : Nat) : Sector := cellRead {} s.rs.sectors n
def setSector (s : State) (n : Nat) (x : Sector) : State := s.modRs fun r => { r with sectors := cellWrite {} r.sectors n x }

/-- The versions of a record, committed and sound (17 R653). -/
def rsSound (s : State) (type index : Nat) : List RsVersion :=
  s.rs.versions.filter fun v =>
    decide (v.type.toNat = type) && decide (v.index.toNat = index) && v.committed && v.crcOk

/-- The version with the highest SEQ of a list. -/
def newest (vs : List RsVersion) : Option RsVersion :=
  vs.foldl (fun b v => match b with
    | none => some v
    | some x => if x.seq.toNat ≤ v.seq.toNat then some v else some x) none

/-- The current version of a record (17 R653). -/
def rsCurrent (s : State) (type index : Nat) : Option RsVersion := newest (s.rsSound type index)

/-- Read a record: its data, with every version skipped for its CRC counted (17 R653). (DEDUCED, log 58.) -/
def rsRead (s : State) (type index : Nat) : Option (List Byte) × State :=
  let cur := s.rsCurrent type index
  let top : Nat := (cur.map fun v => v.seq.toNat).getD 0
  let bad := (s.rs.versions.filter fun (v : RsVersion) =>
    decide (v.type.toNat = type) && decide (v.index.toNat = index) && v.committed && !v.crcOk && decide (top < v.seq.toNat)).length
  let s := if bad = 0 then s
    else (s.modRs fun r => { r with cntCrc := satOf 16 (r.cntCrc.toNat + bad) }).rsFlag kCRC
  (cur.map fun v => v.data, s)

/-- Pages a record of n data bytes takes (17 Table 17.5). -/
def pagesOf (n : Nat) : Nat := (16 + n + 63) / 64

/-- In-service sectors with no record page used, other than the head. -/
def blankSectors (s : State) : List Nat :=
  (List.range 64).filter fun k =>
    decide ((s.sector k).st = .service) && decide ((s.sector k).used = 0) && decide (k ≠ s.rs.head)

/-- Pages of current records in a sector. -/
def currentIn (s : State) (k : Nat) : List RsVersion :=
  s.rs.versions.filter fun v => decide (v.sector = k) && decide (s.rsCurrent v.type.toNat v.index.toNat = some v)

def currentPages (s : State) (k : Nat) : Nat := (s.currentIn k).foldl (fun n v => n + v.pages) 0

/-- Make room for a record of n pages at the head: open a blank sector when the head cannot take it (17 R655). (DEDUCED, log 58.) -/
def rsRoom (s : State) (n : Nat) : State :=
  let h := s.sector s.rs.head
  if h.st = .service ∧ h.used + n ≤ 63 then s
  else
    match leastBy (fun k => [(s.sector k).cycles, k]) s.blankSectors with
    | some k => s.modRs fun r => { r with head := k }
    | none => s

/-- Put a version at the next blank pages of the head sector. -/
def rsPut (s : State) (type index : BitVec 8) (seq : Word) (data : List Byte) : State :=
  let n := pagesOf data.length
  let s := s.rsRoom n
  let k := s.rs.head
  let s := s.setSector k { s.sector k with used := (s.sector k).used + n }
  s.modRs fun r =>
    { r with versions := r.versions ++ [{ type := type, index := index, seq := seq, pages := n, sector := k, data := data }] }

/-- Move a sector's current records to the head, and forget its versions. -/
def rsMoveOut (s : State) (k : Nat) : State :=
  let vs := s.currentIn k
  let s := s.modRs fun r => { r with versions := r.versions.filter fun v => decide (v.sector ≠ k) }
  vs.foldl (fun s v => s.rsPut v.type v.index v.seq v.data) s

/-- Spares left, lowest first. -/
def spareSectors (s : State) : List Nat := (List.range 64).filter fun k => decide ((s.sector k).st = .spare)
def retiredCount (s : State) : Nat := ((List.range 64).filter fun k => decide ((s.sector k).st = .retired)).length

/-- RS_WEAR: the sector with the highest count, the lowest among equals. (DEDUCED, log 58.) -/
def rsWear (s : State) : Word :=
  match leastBy (fun k => [1000000 - (s.sector k).cycles, k]) (List.range 64) with
  | some k => packw [(k, 26), (min (s.sector k).cycles 0x1FFFF, 0)]
  | none => 0

/-- A refused record write (17 R659). -/
def rsRefuse (s : State) (type : BitVec 8) : State :=
  let s := (s.modRs fun r => { r with cntRefused := satInc r.cntRefused, refusals := r.refusals + 1 }).rsFlag kREFUSED
  s.postAll 4 (s.readers 13) 0x22 false type.toNat (.ofNat 32 s.rs.refusals) 0 0

/-- Retire sector k, or become read-only when no spare remains (17 R657, R658). -/
def rsRetire (s : State) (k : Nat) : State :=
  match s.spareSectors with
  | [] =>
    let s := (s.modRs fun r => { r with ro := true }).rsFlag kRO
    s.postAll 4 (s.readers 13) 0x21 true 0 s.rsWear 0 0
  | p :: rest =>
    let cycles := (s.sector k).cycles
    let s := s.setSector p { s.sector p with st := .service }
    let s := s.setSector k { s.sector k with st := .retired }
    let s := (s.rsMoveOut k).modRs fun r => { r with lastRetired := .ofNat 6 k }
    (s.rsFlag kRETIRE).postAll 4 (s.readers 13) 0x20 true k (.ofNat 32 rest.length) (.ofNat 32 cycles) 0

/-- The sector a compaction empties (17 R655). (DEDUCED, log 58.) -/
def rsVictim (s : State) : Option Nat :=
  leastBy (fun k => [s.currentPages k, (s.sector k).cycles, k]) ((List.range 64).filter fun k =>
    decide ((s.sector k).st = .service) && decide ((s.sector k).used ≠ 0) && decide (k ≠ s.rs.head))

/-- With fewer than 2 blank sectors in service a compaction of one sector is in hand (17 R655). (DEDUCED, log 58.) -/
def rsCompact (s : State) : State :=
  if 2 ≤ s.blankSectors.length then s else let k := s.rsVictim; s.modRs fun r => { r with compact := k }

/-- Sector k is erased: a blank sector with one cycle more, or retired when the erase fails (17 R655, R657). -/
def rsErase (s : State) (k : Nat) (bad : Bool) : State :=
  let s := s.modRs fun r => { r with versions := r.versions.filter (fun v => decide (v.sector ≠ k)), compact := none }
  let s := s.setSector k { s.sector k with used := 0, cycles := (s.sector k).cycles + 1 }
  if bad then s.rsRetire k else s

/-- The next SEQ of a record. -/
def nextSeq (s : State) (type index : BitVec 8) : Word :=
  (s.rs.versions.filter fun v => v.type = type ∧ v.index = index).foldl
    (fun m v => if m.toNat < v.seq.toNat then v.seq else m) 0 + 1

/-- A record is written whole (17 R652, R655), or refused by a read-only store (R659). -/
def rsCommit (s : State) (type index : BitVec 8) (data : List Byte) : State :=
  if s.rs.ro then s.rsRefuse type
  else (s.rsPut type index (s.nextSeq type index) data).rsCompact

/-- A record of pg pages fails n times before its write succeeds: each time the sector it was to go to is retired (17 R657). -/
def rsFails (pg : Nat) : Nat → State → State
  | 0, s => s
  | n + 1, s =>
    if s.rs.ro then s
    else
      let s := s.rsRoom pg
      rsFails pg n (s.rsRetire s.rs.head)

/-- Retries of page programs are counted (17 R656). -/
def rsRetries (s : State) (pages retries : Nat) : State :=
  if retries = 0 then s
  else
    let s := (s.modRs fun r =>
      { r with retryPages := satOf 16 (r.retryPages.toNat + pages), retries := satOf 16 (r.retries.toNat + retries) }).rsFlag kRETRY
    s.modPm fun p =>
      { p with cur15 := { p.cur15 with rsretry := addSat p.cur15.rsretry retries },
               curDay := { p.curDay with rsretry := addSat p.curDay.rsretry retries } }

/-- The controller begins its next operation, unless PARK or OFF is being entered or left, or the supervisor restarts (17
R660, R663; 03 Table 3.4; 19 R701). -/
def rsCycle (s : State) : State :=
  if s.rs.ready && (!s.rs.queue.isEmpty || s.rs.compact.isSome) && !s.flt.supReset && s.pwr.pd1Up &&
      (s.pwr.st == .run || s.pwr.st == .clockFault) then
    s.modRs fun r => { r with op := true }
  else s

/-- A step of the compaction of sector k: one of its current records goes to the head, or, with none left, it is erased; a
store that becomes read-only ends it (17 R655, R658, R660, R665). (DEDUCED, log 58.) -/
def rsCompactStep (s : State) (k pages retries fails : Nat) (badErase : Bool) : State :=
  match s.currentIn k with
  | v :: _ =>
    let s := rsFails v.pages fails (s.rsRetries pages retries)
    if s.rs.ro then s.modRs fun r => { r with compact := none } else s.rsPut v.type v.index v.seq v.data
  | [] => s.rsErase k badErase

/-- RS_RECORD_WRITE: the operation in progress ends: a step of the compaction in hand, or else the oldest queued record is
written; `pages` needed `retries` retries in all, and `fails` sectors failed first. (DEDUCED, log 59.) -/
def rsRecordWrite (s : State) (pages retries fails : Nat) (badErase : Bool) : State :=
  if !s.rs.ready || !s.rs.op then s
  else
    let s := s.modRs fun r => { r with op := false }
    match s.rs.compact, s.rs.queue with
    | some k, _ => s.rsCompactStep k pages retries fails badErase
    | none, [] => s
    | none, w :: rest =>
      let s := s.modRs fun r => { r with queue := rest }
      if s.rs.ro then s.rsRefuse w.type
      else (rsFails (pagesOf w.data.length) fails (s.rsRetries pages retries)).rsCommit w.type w.index w.data

/-- RS_SCAN: the scan after a reset ends; `bad` are the places of stored versions whose CRC fails (17 R668). (DEDUCED, log 59.) -/
def rsScan (s : State) (bad : List Nat) : State :=
  if s.rs.ready then s
  else s.modRs fun r =>
    { r with ready := true,
             versions := (List.range r.versions.length).zip r.versions |>.map fun p =>
               if p.1 ∈ bad then { p.2 with crcOk := false } else p.2 }

/-- Blank record pages in service. -/
def rsFree (s : State) : Nat :=
  ((List.range 64).filter fun k => decide ((s.sector k).st = .service)).foldl (fun n k => n + (63 - (s.sector k).used)) 0

/-- Registers of RS (17 Table 17.9): what the scan finds reads 0 until it ends (R668). -/
def rsRegRead (s : State) (a : Nat) : Option (Word × State) :=
  let r := s.rs
  let v (w : Word) : Option (Word × State) := some (w, s)
  let found (w : Word) : Option (Word × State) := v (if r.ready then w else 0)
  match a with
  | 0xC000 => found (packw [(b2n r.ro, 31), (b2n r.op, 30), (b2n r.ready, 29), (s.spareSectors.length, 24), (s.rsFree, 0)])
  | 0xC004 => v (packw [(r.retryPages.toNat, 16), (r.retries.toNat, 0)])
  | 0xC008 => found s.rsWear
  | 0xC00C => found (packw [(r.lastRetired.toNat, 8), (s.retiredCount, 0)])
  | 0xC010 => v (r.flag.setWidth 32)
  | 0xC014 => v (r.ien.setWidth 32)
  | 0xC018 =>
    some (packw [(r.cntRefused.toNat, 16), (r.cntCrc.toNat, 0)], s.modRs fun r => { r with cntRefused := 0, cntCrc := 0 })
  | _ => none

def rsRegWrite (s : State) (a : Nat) (w : Word) : Option State :=
  match a with
  | 0xC010 => some (s.modRs fun r => { r with flag := r.flag &&& ~~~(w.setWidth 5) })
  | 0xC014 => some (s.modRs fun r => { r with ien := w.setWidth 5 })
  | 0xC000 | 0xC004 | 0xC008 | 0xC00C | 0xC018 => some s
  | _ => none

end State
end Sys2Proof.Machine
end

