-- ==== Sys2Proof/Machine/Afe.lean ====
section
/-!
DEFINITION. Machine/Afe.lean: the analogue front end's digital shell (10).
-/
namespace Sys2Proof.Machine

/-- ADC_FLAG bits (10 Table 10.11). -/
def dDONE : BitVec 16 := 0x01
def dLATE : BitVec 16 := 0x02
def dTRIGOVR : BitVec 16 := 0x04
def dDSTOVR : BitVec 16 := 0x08
def dWWR : BitVec 16 := 0x10
/-- SIG_FLAG bits (10 Table 10.12). -/
def gDONE : BitVec 5 := 0x01
def gTAMPER : BitVec 5 := 0x02
def gDRIFT : BitVec 5 := 0x04
def gABORT : BitVec 5 := 0x08
def gREFUSED : BitVec 5 := 0x10

def Sens.en (x : Sens) : Bool := bit x.cfg 31
def Sens.mode (x : Sens) : Nat := fld x.cfg 1 0
def Itrip.en (x : Itrip) : Bool := bit x.cfg 31
/-- Is a level outside the window: above HI with HIEN, or below LO with LOEN, 10 mV a code (10 R393)? (DEDUCED, log 42.) -/
def Itrip.outOf (x : Itrip) (v : Nat) : Bool :=
  x.en && (bit x.cfg 30 && decide (10000 * fld x.thr 15 8 < v) || bit x.cfg 29 && decide (v < 10000 * fld x.thr 7 0))
/-- ITRIP_STAT.OUTSIDE. -/
def Itrip.outside (x : Itrip) : Bool := x.outOf x.input

/-- The threshold of a completed cycle: T in ADAPT, A in VR with the bias at code 80 (10 R388). -/
def Sens.threshold (x : Sens) (peak trough : Byte) : BitVec 8 :=
  let frac := fld x.cfg 15 12
  let lo : Int := if x.mode = 2 then 80 else trough.toNat
  BitVec.ofInt 8 (lo + (frac * ((peak.toNat : Int) - lo)) / 16)

/-- Microvolts of a 20 mV code (10 Table 10.1). -/
def sensUv (code : Nat) : Nat := 20000 * code

/-- The comparison of Table 10.1 with the pin at `v` microvolts: what the comparator answers before INV. Between its two
thresholds it keeps its answer; a VR comparator goes high through 1.60 V only when armed. -/
def Sens.compare (x : Sens) (v : Nat) : Bool :=
  let t := sensUv x.thrNow.toNat
  let h := sensUv (fld x.cfg 10 8)
  if x.mode = 2 then
    if t < v then false else if v < 1600000 ∧ x.armed = true then true else x.cmp
  else if t + h < v then true else if v + h < t then false else x.cmp

/-- The output of a comparator follows its level after INV (10 R388, R389): at a rising edge the cycle that ends had this
peak and trough. The second part says whether LOWAMP was entered. -/
def Sens.switch (x : Sens) (level : Bool) (peak trough : Byte) : Sens × Bool :=
  if x.mode = 0 then ({ x with out := level }, false)
  else if !level then ((if x.lowamp then x else { x with out := false }), false)
  else if x.cycles = 0 then ({ x with out := true, cycles := 1 }, false)
  else
    let x := { x with peak := peak, trough := trough, cycles := min (x.cycles + 1) 3 }
    if peak.toNat < trough.toNat + fld x.cfg 23 16 then ({ x with lowamp := true }, !x.lowamp)
    else ({ x with lowamp := false, out := true, thrNow := if x.cycles = 3 then x.threshold peak trough else x.thrNow }, false)

/-- The code of a signed tap. -/
def tapInt (b : Byte) : Int := b.toInt

/-- Difference of two taps. -/
def tapDiff (a b : Byte) : Nat := (tapInt a - tapInt b).natAbs

/-- The mean of several fingerprints, tap by tap, rounded towards zero (10 R408). -/
def meanTaps (fs : List (List Byte)) : List Byte :=
  (List.range 64).map fun t =>
    let sum : Int := fs.foldl (fun a f => a + tapInt (f.getD t 0)) 0
    BitVec.ofInt 8 (Int.tdiv sum fs.length)

/-- The entry that follows entry e in ADC a's sequence: none where the sequence stops (10 R400). -/
def Adc.nextOf (a : Adc) (e : Fin 16) : Option (Fin 16) :=
  if bit (at_ a.seq e) 15 || e.val = 15 then (if a.loop then some 0 else none) else some (e + 1)

/-- The entry whose trigger ADC a watches: the entry to be started next (10, before R399). (DEDUCED, log 41.) -/
def Adc.watched (a : Adc) : Option (Fin 16) :=
  if !a.run || a.fenced then none
  else match a.conv with
    | none => some a.entry
    | some e => if a.noadv then some a.entry else a.nextOf e

namespace State

def modSens (s : State) (n : Fin 16) (f : Sens → Sens) : State := s.modAfe fun x => { x with sens := vset x.sens n f }
def modItrip (s : State) (n : Fin 6) (f : Itrip → Itrip) : State := s.modAfe fun x => { x with itrip := vset x.itrip n f }
def modSig (s : State) (f : Sig → Sig) : State := s.modAfe fun x => { x with sig := f x.sig }
def modCal (s : State) (f : Cal → Cal) : State := s.modAfe fun x => { x with cal := f x.cal }
def sigFlag (s : State) (b : BitVec 5) : State := (s.modSig fun x => { x with flag := x.flag ||| b }).hwSet 0x5754 (b.setWidth 32)
def afeWwr (s : State) : State := (s.modAfe fun x => { x with wwr := true }).hwSet 0x5400 1

/-- A check of Table 10.5 fails: the AFE_HEALTH bit is set, and FLT hears of it as the bit is set (10 R411). (DEDUCED, log 40.) -/
def healthFail (s : State) (i mech kind index : Nat) : State :=
  let s' := s.hwSet 0x5404 (oneBit 32 i)
  if bit s.afe.health i then s' else (s'.modAfe fun x => { x with health := x.health ||| oneBit 28 i }).report mech kind index 0

/-! ## Sensor comparators -/

/-- SENS_OUTPUT_CHANGE: the pin is at `v` microvolts; a comparator that is on switches by Table 10.1, and its output follows
the result after INV (10 R387–R389). (DEDUCED, log 40.) -/
def sensChange (s : State) (n : Fin 16) (v : Nat) (peak trough : Byte) : State :=
  let x := at_ s.afe.sens n
  if !x.en then s
  else
    let c := x.compare v
    let armed := if x.mode = 2 then !c && (x.armed || decide (sensUv x.thrNow.toNat < v)) else x.armed
    if c = x.cmp then s.modSens n fun x => { x with armed := armed }
    else
      let r := ({ x with cmp := c, armed := armed } : Sens).switch (c != bit x.cfg 11) peak trough
      let s := s.modSens n fun _ => r.1
      if r.2 then (s.modAfe fun a => { a with sflag := a.sflag ||| oneBit 16 n.val }).hwSet 0x5408 (oneBit 32 n.val) else s

/-- The enabled input after `n` in ascending order, round again (10, before R390). -/
def nextSpare (s : State) : Option (Fin 16) :=
  let on (i : Fin 16) : Bool := (at_ s.afe.sens i).en
  match s.afe.spare with
  | none => (List.finRange 16).find? on
  | some n =>
    match (List.finRange 16).find? fun i => decide (n.val < i.val) && on i with
    | some i => some i
    | none => (List.finRange 16).find? on

/-- The spare moves to an input and copies its comparator's mode and threshold state (10 R390). -/
def spareTo (s : State) (nx : Option (Fin 16)) : State :=
  s.modAfe fun x =>
    { x with spare := nx, spareAt := s.time, spareCopy := match nx with | some n => at_ x.sens n | none => x.spareCopy }

/-- Does the spare drive the output: from the end of the first 64-cycle comparison to the end of the visit (10 R390)? -/
def spareDrives (s : State) (n : Fin 16) : Bool := decide (s.afe.spare = some n) && decide (64 ≤ s.time - s.afe.spareAt)

/-- A comparison of 64 cycles between the outputs a and b, after 4 cycles that lead in: a cycle disagrees when they differ and
neither has changed within the previous 4 (10 R391). -/
def disagree (a b : BitVec 68) : Bool :=
  let steady (x : BitVec 68) (i : Nat) : Bool := (List.range 4).all fun j => bit x (i + j) == bit x (i + 4)
  (List.range 64).any fun i => (bit a (i + 4) != bit b (i + 4)) && steady a i && steady b i

/-- SPARE_VISIT: the visit in hand ends with a comparison (the visited output e0, the spare's e1), and the next begins with one
(b0 and b1) (10 R390, R391). (DEDUCED, log 40.) -/
def spareVisit (s : State) (e0 e1 b0 b1 : BitVec 68) : State :=
  let judge (s : State) (a b : BitVec 68) : State :=
    match s.afe.spare with
    | some n => if disagree a b then s.healthFail n.val 0x0D 12 n.val else s
    | none => s
  let s := judge s e0 e1
  judge (s.spareTo s.nextSpare) b0 b1

/-- A write to SENS_CFGn (10 R413, R416, R417). (DEDUCED, log 39.) -/
def writeSensCfg (s : State) (n : Fin 16) (w : Word) : State :=
  let x := at_ s.afe.sens n
  if x.en ∧ bit w 31 then s.afeWwr
  else if fld w 15 12 = 0 ∨ fld w 1 0 = 3 then s.afeWwr
  else if s.boot.locked then s
  else
    let s := s.modSens n fun x =>
      let y := { x with cfg := w &&& 0x80FFFF03 }
      if bit w 31 then { y with thrNow := y.thr, cycles := 0, lowamp := false, armed := false, cmp := x.out != bit w 11 } else y
    if x.en ∧ s.afe.spare = some n then s.spareTo s.nextSpare else s

/-- A write to SENS_THRn. -/
def writeSensThr (s : State) (n : Fin 16) (w : Word) : State :=
  if (at_ s.afe.sens n).en then s.afeWwr
  else if s.boot.locked then s
  else s.modSens n fun x => { x with thr := w.setWidth 8, thrNow := w.setWidth 8 }

/-! ## ITRIP -/

/-- Is ITRIPn blind in the cycle `back` cycles ago: within BLANK cycles of a change of the intended level of BCH, or of either
pin of a MODE 1 pair of which BCH is the even channel (10 R394)? -/
def itripBlind (s : State) (n : Fin 6) (back : Nat) : Bool :=
  let x := at_ s.afe.itrip n
  let c := Fin.ofNat 64 (fld x.cfg 13 8)
  let pins := if c.val % 2 = 0 ∧ s.paired c then [c, partner c] else [c]
  bit x.cfg 25 && pins.any fun p =>
    let t := (s.chan p).o.chgAt
    decide (t + back ≤ s.time) && decide (s.time < t + back + fld x.cfg 23 18)

/-- The clear-refused flag of ITRIPn. -/
def itripRef (s : State) (n : Fin 6) : State := (s.modItrip n fun x => { x with clrref := true }).hwSet (0x5568 + 16 * n.val) 8

/-- ITRIPn trips: the latch, and in the same cycle cause ITRIP on its groves; a clear of the same cycle is refused (10 R393,
R415). -/
def itripFire (s : State) (n : Fin 6) : State :=
  let x := at_ s.afe.itrip n
  let s := s.modItrip n fun x => { x with latch := true, trips := satInc x.trips }
  let s := if n ∈ s.cyc.itClr then s.itripRef n else s
  foldFin 8 (fun g s => if bit x.cfg g.val then (groveChans g).foldl (fun s c => s.setCause c cITRIP) s else s) s

/-- ITRIP_TRIP: the samples of ISENn in consecutive cycles up to this one, in microvolts, this cycle's first. It trips when
the last FILT + 1 lie outside and none of them is blanked (10 R393–R395). (DEDUCED, log 42.) -/
def itripTrip (s : State) (n : Fin 6) (vs : List Nat) : State :=
  let s := s.modItrip n fun x => { x with input := vs.headD x.input }
  let x := at_ s.afe.itrip n
  let k := fld x.cfg 27 26 + 1
  if k ≤ vs.length && (vs.take k).all x.outOf && !((List.range k).any fun b => s.itripBlind n b) then s.itripFire n else s

/-- AFE_ITCMD: a latch clears while its input lies inside its window (10 R396, R415). (DEDUCED, log 42.) -/
def itripClear (s : State) (n : Fin 6) : State :=
  let s := s.modCyc fun c => { c with itClr := n :: c.itClr }
  if (at_ s.afe.itrip n).outside then s.itripRef n else s.modItrip n fun x => { x with latch := false }

/-- A write to AFE_ITCMD. -/
def writeItcmd (s : State) (w : Word) : State := foldFin 6 (fun n s => if bit w n.val then s.itripClear n else s) s

/-- ITRIP_PAIR_DISAGREE (10 Table 10.5): the comparators of a threshold of ITRIPn have differed for 1 µs, or agree again. -/
def itripPair (s : State) (n : Fin 6) (differ : Bool) : State :=
  let s := s.modItrip n fun x => { x with dupf := differ }
  if differ then s.healthFail (16 + n.val) 0x0E 12 (16 + n.val) else s

/-- A write to ITRIP_CFGn (10 R413). (DEDUCED, log 39.) -/
def writeItripCfg (s : State) (n : Fin 6) (w : Word) : State :=
  if fld w 27 26 = 3 then s.afeWwr
  else s.modItrip n fun x => { x with cfg := s.regBits x.cfg w 0xFEFC3FFF 0xEEFC3FFF }

/-! ## ADCs -/

/-- A conversion of entry e starts (10 R398). (DEDUCED, log 41.) -/
def adcStart (s : State) (a : Fin 2) (e : Fin 16) : State :=
  s.modAdc a fun x => { x with conv := some e, convAt := s.time, latched := false, noadv := false }

/-- A trigger event reaches ADC a (10 R399). (DEDUCED, log 41.) -/
def adcEvent (s : State) (a : Fin 2) (trig idx : Nat) : State :=
  let x := s.adc a
  match x.watched with
  | none => s
  | some e =>
    let q := at_ x.seq e
    if fld q 6 4 = trig ∧ fld q 13 8 = idx then
      match x.conv with
      | none => s.adcStart a e
      | some _ =>
        if x.latched then s.raiseAdc a dTRIGOVR
        else (s.modAdc a fun x => { x with latched := true }).modCyc fun c => { c with adcTrig := a :: c.adcTrig }
    else s

/-- The bank half-word of entry e's copy: none where BASE lies outside the banks (10 R401). -/
def adcAddr (x : Adc) (e : Fin 16) : Option Nat :=
  let a := fld x.dst 17 6 * 64 + 2 * e.val
  if bit x.dst 31 ∧ 0x20000 ≤ a then some a else none

/-- The bank copy of a result waits for the port; a waiting copy of the same entry is replaced (10 R401). -/
def adcCopy (s : State) (a : Fin 2) (e : Fin 16) (code : BitVec 12) : State :=
  let x := s.adc a
  match adcAddr x e with
  | none => s
  | some _ =>
    let had := x.copies.any fun p => p.1 = e
    let s := s.modAdc a fun x => { x with copies := (x.copies.filter fun p => p.1 ≠ e) ++ [(e, code.setWidth 16)] }
    if had then s.raiseAdc a dDSTOVR else s

/-- ADC_RESULT: the conversion in hand is registered with its code, 50 cycles after its start (10 R398, R400, R418, R419).
(DEDUCED, log 41.) -/
def adcResult (s : State) (a : Fin 2) (code : BitVec 12) : State :=
  let x := s.adc a
  match if 50 ≤ s.time - x.convAt then x.conv else none with
  | none => s
  | some e =>
    let q := at_ x.seq e
    let word := packw [(x.seqno.toNat, 24), (1, 16), (fld q 3 0, 12), (code.toNat, 0)]
    let nx := x.nextOf e
    let last := bit q 15 || e.val = 15
    let s := s.modAdc a fun x =>
      let x := { x with res := vset x.res e fun _ => word, conv := none }
      if x.noadv || !x.run then { x with noadv := false }
      else { x with
              seqno := if last then x.seqno + 1 else x.seqno
              entry := nx.getD x.entry, run := nx.isSome
              latched := if nx.isSome then x.latched else false }
    let s := s.adcCopy a e code
    let s := if last && !x.noadv && x.run then s.raiseAdc a dDONE else s
    let y := s.adc a
    if y.run && !y.fenced then
      if y.latched then (s.adcStart a y.entry).raiseAdc a (if a ∈ s.cyc.adcTrig then 0 else dLATE)
      else if fld (at_ y.seq y.entry) 6 4 = 0 ∧ fld (at_ y.seq y.entry) 13 8 = 0 ∧ !x.noadv then s.adcStart a y.entry
      else s
    else s

/-- ADC_CMD.RESTART (10 R419). -/
def adcRestart (s : State) (a : Fin 2) : State :=
  s.modAdc a fun x => { x with entry := 0, latched := false, noadv := x.conv.isSome }

/-- A write to ADC_CMD (10 R399, R419). -/
def writeAdcCmd (s : State) (a : Fin 2) (w : Word) : State :=
  if bit w 1 then s.adcRestart a else if bit w 0 then s.adcEvent a 4 0 else s

/-- A write to ADC_CTL (10 Table 10.11): entry 0 is current when EN is set; EN 0 stops the sequence. -/
def writeAdcCtl (s : State) (a : Fin 2) (w : Word) : State :=
  s.modAdc a fun x =>
    let y := { x with en := bit w 0, loop := bit w 1 }
    if x.fenced then y
    else if bit w 0 ∧ !x.en then { y with run := true, entry := 0, latched := false, noadv := x.conv.isSome }
    else if !bit w 0 then { y with run := false, latched := false, noadv := x.conv.isSome }
    else y

/-- The fence of an ADC, and its lift (10 R423). A conversion in hand writes no result. (DEDUCED, log 41.) -/
def fenceAdc (s : State) (a : Fin 2) : State :=
  (s.modAdc a fun x =>
    { x with fenced := true, run := false, latched := false, conv := none, noadv := false,
             res := x.res.map fun w => w &&& 0xFFFEFFFF, ev := x.ev.discard }).dropRequest (.adc a)
def unfenceAdc (s : State) (a : Fin 2) : State :=
  s.modAdc a fun x => { x with fenced := false, entry := 0, run := x.en }

/-! ## Fine-delay calibration -/

/-- CAL_MEASURE: the next table entry is measured and set to `step`; `err` is its distance from the target in picoseconds
(10 R403, R404). (DEDUCED, log 43.) -/
def calMeasure (s : State) (lock : Bool) (step : BitVec 6) (err : Nat) : State :=
  if !s.pwr.pllLock then s
  else
    let ok := lock && decide (err ≤ 40)
    let c := s.afe.cal
    let fail := c.sweepFail || !ok
    let worst := if c.sweepWorst.toNat < err then satOf 8 err else c.sweepWorst
    let past := decide (c.idx = 31)
    let valid := if !ok then false else c.valid || (past && !fail)
    let inval := c.valid && !valid
    let reval := !c.valid && valid && c.wasValid
    let us := if valid then 0 else c.invalidUs + 1
    let s := s.modCal fun c =>
      { c with
        lock := lock, valid := valid, table := vset c.table c.idx.toFin fun _ => step, wasValid := c.wasValid || valid, invalidUs := us, idx := c.idx + 1
        worst := if past then worst else c.worst
        sweepWorst := if past then 0 else worst
        sweepFail := if past then false else fail
        invals := if inval then satInc c.invals else c.invals
        flag := c.flag ||| (if inval then 1 else 0) ||| (if reval then 2 else 0) }
    let s := s.hwSet 0x55C4 ((if inval then 1 else 0) ||| (if reval then 2 else 0))
    if 1000 < us then s.healthFail 26 0x12 12 32 else s

/-! ## Line signatures -/

/-- A measurement starts on a link. -/
def sigStart (s : State) (l : Fin 4) (enrol : Option (Fin 16)) : State :=
  s.modSig fun x => { x with run := some { link := l, enrol := enrol, since := s.time } }

/-- A signature window of link l opens `after` cycles from now, for the measurement in hand (10 R405; 15 R584). -/
def sigOpen (s : State) (l : Fin 4) (after : Nat) : State :=
  s.modSig fun x =>
    { x with run := x.run.map fun r => if r.link = l then { r with win := some (s.time + after), since := s.time + after } else r }

/-- Cycles of a signature window, 1,438 ns (15 R584), and of a pulse with its settling. -/
def sigWinLen : Nat := 287
def sigPulse : Nat := 64

/-- One core cycle of the signature unit: in an open window of a link in service a pulse is fired every 64 cycles, with one
sample, unless it would overlap the window's end; what was taken is kept for the next window (10 R405, R421). -/
def sigCycle (s : State) : State :=
  match s.afe.sig.run with
  | none => s
  | some r =>
    match r.win with
    | none => s
    | some t =>
      let put (r : SigRun) : State := s.modSig fun x => { x with run := some r }
      if (s.link r.link).fenced || !(s.link r.link).en then put { r with win := none }
      else if s.time < t then s
      else if sigWinLen < s.time - t + sigPulse then put { r with win := none }
      else if (s.time - t) % sigPulse = 0 ∧ r.pulses < 1024 then put { r with pulses := r.pulses + 1 }
      else s

/-- The lowest due automatic measurement starts when the unit is idle (10 R409, R420). -/
def sigNextDue (s : State) : State :=
  if s.afe.sig.run.isSome then s
  else match (List.finRange 4).find? fun l => bit s.afe.sig.due l.val with
    | none => s
    | some l => (s.modSig fun x => { x with due := x.due &&& ~~~(oneBit 4 l.val) }).sigStart l none

/-- Tap t of a slot's template. -/
def tmplTap (s : State) (k : Fin 16) (t : Nat) : Byte := cellRead 0 s.afe.sig.tmpl (64 * k.val + t)

/-- Distance D and largest difference M of a fingerprint from a slot's template (10 R406). -/
def sigDist (s : State) (f : List Byte) (k : Fin 16) : Nat :=
  (List.range 64).foldl (fun a t => a + tapDiff (f.getD t 0) (s.tmplTap k t)) 0
def sigMax (s : State) (f : List Byte) (k : Fin 16) : Nat :=
  (List.range 64).foldl (fun a t => max a (tapDiff (f.getD t 0) (s.tmplTap k t))) 0

/-- The verdict of a fingerprint on link l (10 R406, R407, Table 10.4). Where several taps share the largest difference
the rule names none of them: the tap is a free choice among them. (DEDUCED, log 43.) -/
def sigVerdict (s : State) (l : Fin 4) (f : List Byte) : State :=
  let slots := (List.finRange 16).filter fun k =>
    let x := at_ s.afe.sig.slots k
    x.valid && x.en && decide (x.link = l)
  match leastBy (fun k => [s.sigDist f k, k.val]) slots with
  | none => (s.modSig fun x => { x with verdict := 4, link := l }).sigFlag gDONE
  | some k =>
    let d := s.sigDist f k
    let m := s.sigMax f k
    let taps := (List.range 64).filter fun t => tapDiff (f.getD t 0) (s.tmplTap k t) = m
    let r := if taps.length = 1 then (0, s) else (s.free.1.toNat, s.free.2)
    let s := r.2
    let mt := taps.getD (r.1 % taps.length) 0
    let v := if d ≤ fld s.afe.sig.thr 13 0 ∧ m ≤ fld s.afe.sig.cfg 31 24 then 1
             else if d ≤ fld s.afe.sig.thr 29 16 then 2 else 3
    let s := s.modSig fun x =>
      { x with verdict := .ofNat 4 v, link := l, slot := k, mt := .ofNat 6 mt, m := .ofNat 8 m, dist := .ofNat 14 d }
    let s := s.sigFlag gDONE
    if v = 3 then
      let s := (s.sigFlag gTAMPER).modPm fun p => { p with sec := { p.sec with tamper := p.sec.tamper + 1 } }
      if bit s.afe.sig.cfg l.val then s.report 0x21 7 l.val 0 else s
    else if v = 2 then s.sigFlag gDRIFT else s

/-- The word of SIG_SLOT k. -/
def slotWord (s : State) (k : Fin 16) : Word :=
  let x := at_ s.afe.sig.slots k
  packw [(b2n x.valid, 31), (b2n x.en, 30), (x.link.val, 0)]

/-- A template is written into slot k, bound to link l (10 R408), and the supervisor stores it (R410). -/
def enrolSlot (s : State) (k : Fin 16) (l : Fin 4) (f : List Byte) : State :=
  let s := s.modSig fun x =>
    { x with tmpl := cellWriteList 0 x.tmpl (64 * k.val) (padTo 0 64 f),
             slots := vset x.slots k fun _ => { valid := true, en := true, link := l } }
  s.rsEnqueue 0x02 k.val (wordBytes (s.slotWord k) ++ padTo 0 64 f)

/-- SIG_MEASUREMENT_END: the 1,024 pulses are done and their fingerprint is f (10 R406, R408). -/
def sigEnd (s : State) (f : List Byte) : State :=
  match s.afe.sig.run.filter fun r => r.pulses = 1024 with
  | none => s
  | some r =>
    let f := padTo 0 64 f
    let s := (s.modSig fun x => { x with last := cellWriteList 0 [] 0 f }).sigVerdict r.link f
    let taken := r.taken ++ [f]
    match r.enrol with
    | none => (s.modSig fun x => { x with run := none }).sigNextDue
    | some k =>
      if taken.length < 4 then s.modSig fun x => { x with run := some { r with taken := taken, pulses := 0 } }
      else ((s.modSig fun x => { x with run := none }).enrolSlot k r.link (meanTaps taken)).sigNextDue

/-- The measurement in hand ends with verdict ABORT (10 R405, Table 10.4). -/
def sigAbort (s : State) : State :=
  match s.afe.sig.run with
  | none => s
  | some r =>
    ((s.modSig fun x => { x with run := none, verdict := 5, link := r.link }).sigFlag (gDONE ||| gABORT)).sigNextDue

/-- SIG_WINDOW_TIMEOUT: the measurement in hand has received no window for 1 s (10 R405). -/
def sigTimeout (s : State) : State :=
  if s.afe.sig.run.any fun r => decide (200000000 ≤ s.time - r.since) then s.sigAbort else s

/-- SIG_CMD MEASURE and ENROL (10 R408, R420). (DEDUCED, log 43.) -/
def sigMeasure (s : State) (l : Fin 4) : State :=
  if s.afe.sig.run.isSome then s.sigFlag gREFUSED else s.sigStart l none
/-- (DEDUCED, log 43.) -/
def sigEnrol (s : State) (c : Fin 256) (l : Fin 4) (k : Fin 16) : State :=
  if (c ≠ 0 ∧ c ≠ 255) ∨ s.afe.sig.run.isSome then s.sigFlag gREFUSED else s.sigStart l (some k)

/-- A write to SIG_CMD by client c. -/
def writeSigCmd (s : State) (c : Fin 256) (w : Word) : State :=
  let l := Fin.ofNat 4 (fld w 5 4)
  match fld w 1 0 with
  | 1 => s.sigMeasure l
  | 2 => s.sigEnrol c l (Fin.ofNat 16 (fld w 11 8))
  | 3 => s.sigAbort
  | _ => s

/-- SIG_AUTO_PERIOD (10 R409). -/
def sigAuto (s : State) : State :=
  if fld s.afe.sig.cfg 15 8 = 0 then s
  else (s.modSig fun x => { x with due := x.due ||| .ofNat 4 (fld x.cfg 19 16) }).sigNextDue

/-! ## Health -/

/-- The monitor has checked a conversion of ADC a: its error in codes; the third error in a row above 1.5 % of full scale fails
the check (10 Table 10.5). -/
def adcCheck (s : State) (a : Fin 2) (err : Option Nat) : State :=
  match err with
  | none => s
  | some e =>
    let n := if 15 * 4096 < 1000 * e then (s.adc a).errRun + 1 else 0
    let s := s.modAdc a fun x => { x with errRun := n }
    if 3 ≤ n then s.healthFail (22 + a.val) 0x0F 6 a.val else s

/-- HEALTH_CHECK: the monitor converter's checks, each bit set where its check fails (10 R411, Table 10.5): the errors of the
ITRIP DACs in codes (HI then LO of each ITRIP), those of checked conversions, the reference's comparison, VDDA in millivolts
and the errors of the two internal points in codes. A failed VDDA check is the supply fault of 03 R76. (DEDUCED, log 40.) -/
def healthCheck (s : State) (dac : List Nat) (adc0 adc1 : Option Nat) (vref : Bool) (vdda : Nat) (mon : List Nat) : State :=
  let s := foldFin 6 (fun n s =>
    if 2 < dac.getD (2 * n.val) 0 ∨ 2 < dac.getD (2 * n.val + 1) 0 then s.healthFail (16 + n.val) 0x0E 12 (16 + n.val) else s) s
  let s := (s.adcCheck 0 adc0).adcCheck 1 adc1
  let s := if vref then s.healthFail 24 0x10 12 32 else s
  let s := if vdda < 3000 ∨ 3600 < vdda then s.healthFail 25 0x11 12 32 else s
  if mon.any fun e => decide (4 < e) then s.healthFail 27 0x13 12 32 else s

/-! ## Registers (10 Tables 10.7–10.12) -/

/-- Four bytes of a sparse byte store, as a word. -/
def tapWord (m : List (Nat × Byte)) (k : Nat) : Word := bytesWord (cellReadList 0 m k 4)

def sensRead (s : State) (n : Fin 16) (o : Nat) : Word :=
  let x := at_ s.afe.sens n
  match o with
  | 0 => x.cfg
  | 4 => x.thr.setWidth 32
  | 8 => packw [(x.thrNow.toNat, 24), (x.trough.toNat, 16), (x.peak.toNat, 8), (b2n (s.spareDrives n), 2),
      (b2n x.lowamp, 1), (b2n x.out, 0)]
  | _ => 0

def itripRead (s : State) (n : Fin 6) (o : Nat) : Word :=
  let x := at_ s.afe.itrip n
  match o with
  | 0 => x.cfg
  | 4 => x.thr.setWidth 32
  | 8 => packw [(x.trips.toNat, 16), (b2n x.clrref, 3), (b2n x.dupf, 2), (b2n x.outside, 1), (b2n x.latch, 0)]
  | _ => 0

def adcRead (s : State) (a : Fin 2) (o : Nat) : Word :=
  let x := s.adc a
  if 0x20 ≤ o ∧ o < 0x60 then (at_ x.seq (Fin.ofNat 16 ((o - 0x20) / 4))).setWidth 32
  else if 0x60 ≤ o ∧ o < 0xA0 then at_ x.res (Fin.ofNat 16 ((o - 0x60) / 4))
  else match o with
    | 0x00 => packw [(b2n x.loop, 1), (b2n x.en, 0)]
    | 0x04 => packw [(x.seqno.toNat, 24), (x.entry.val, 16), (b2n x.fenced, 2), (b2n x.conv.isSome, 1), (b2n x.run, 0)]
    | 0x08 => x.ev.flag.setWidth 32
    | 0x0C => x.ev.readEven
    | 0x10 => x.ev.readSvc
    | 0x18 => x.dst
    | _ => 0

def adcWrite (s : State) (a : Fin 2) (o : Nat) (w : Word) : State :=
  let x := s.adc a
  if 0x20 ≤ o ∧ o < 0x60 then
    if x.en then s.afeWwr.raiseAdc a dWWR
    else s.modAdc a fun x => { x with seq := vset x.seq (Fin.ofNat 16 ((o - 0x20) / 4)) fun _ => w.setWidth 16 &&& 0xBF7F }
  else match o with
    | 0x00 => s.writeAdcCtl a w
    | 0x08 => s.modAdc a fun x => { x with ev := x.ev.clear w }
    | 0x0C => s.modAdc a fun x => { x with ev := x.ev.writeEven 0x1F w }
    | 0x10 => s.modAdc a fun x => { x with ev := x.ev.writeSvc w }
    | 0x14 => s.writeAdcCmd a w
    | 0x18 => if x.en then s.afeWwr.raiseAdc a dWWR else s.modAdc a fun x => { x with dst := w &&& 0x8003FFC0 }
    | _ => s

def sigRead (s : State) (o : Nat) : Option Word :=
  let g := s.afe.sig
  match o with
  | 0x00 => some 0
  | 0x04 => some (packw [(g.verdict.toNat, 28), (g.link.val, 26), (g.slot.val, 22), (g.mt.toNat, 16), (g.m.toNat, 8), (b2n g.run.isSome, 0)])
  | 0x08 => some (g.dist.setWidth 32)
  | 0x0C => some g.cfg
  | 0x10 => some g.thr
  | 0x14 => some (g.flag.setWidth 32)
  | _ => none

/-- A word of the AFE at host address a. -/
def afeRead (s : State) (a : Nat) : Option (Word × State) :=
  let v (w : Word) : Option (Word × State) := some (w, s)
  if 0x5440 ≤ a ∧ a < 0x5540 then v (s.sensRead (Fin.ofNat 16 ((a - 0x5440) / 16)) (a % 16))
  else if 0x5560 ≤ a ∧ a < 0x55C0 then v (s.itripRead (Fin.ofNat 6 ((a - 0x5560) / 16)) (a % 16))
  else if 0x5600 ≤ a ∧ a < 0x5740 then v (s.adcRead (Fin.ofNat 2 ((a - 0x5600) / 0xA0)) ((a - 0x5600) % 0xA0))
  else if 0x5740 ≤ a ∧ a < 0x5758 then (s.sigRead (a - 0x5740)).map fun w => (w, s)
  else if 0x5780 ≤ a ∧ a < 0x57C0 then v (s.slotWord (Fin.ofNat 16 ((a - 0x5780) / 4)))
  else if 0x57C0 ≤ a ∧ a < 0x5800 then v (tapWord s.afe.sig.last (a - 0x57C0))
  else if 0x5800 ≤ a ∧ a < 0x5C00 then v (tapWord s.afe.sig.tmpl (a - 0x5800))
  else match a with
    | 0x5400 => v (packw [(b2n s.afe.wwr, 0)])
    | 0x5404 => v (s.afe.health.setWidth 32)
    | 0x5408 => v (s.afe.sflag.setWidth 32)
    | 0x540C => v (s.afe.ien.setWidth 32)
    | 0x5410 => v 0
    | 0x5540 => v s.canopy.twin
    | 0x55C0 => v (packw [(b2n s.afe.cal.valid, 31), (b2n s.afe.cal.lock, 30), (s.afe.cal.worst.toNat, 16), (s.afe.cal.invals.toNat, 0)])
    | 0x55C4 => v (s.afe.cal.flag.setWidth 32)
    | _ => none

/-- A write by client c to a word of the AFE. -/
def afeWrite (s : State) (c : Fin 256) (a : Nat) (w : Word) : Option State :=
  if 0x5440 ≤ a ∧ a < 0x5540 then
    let n := Fin.ofNat 16 ((a - 0x5440) / 16)
    some (match a % 16 with | 0 => s.writeSensCfg n w | 4 => s.writeSensThr n w | _ => s)
  else if 0x5560 ≤ a ∧ a < 0x55C0 then
    let n := Fin.ofNat 6 ((a - 0x5560) / 16)
    some (match a % 16 with
      | 0 => s.writeItripCfg n w
      | 4 => s.modItrip n fun x => { x with thr := s.regBits x.thr w 0xFFFF 0xFFFF }
      | 8 => s.modItrip n fun x => { x with clrref := x.clrref && !bit w 3 }
      | _ => s)
  else if 0x5600 ≤ a ∧ a < 0x5740 then some (s.adcWrite (Fin.ofNat 2 ((a - 0x5600) / 0xA0)) ((a - 0x5600) % 0xA0) w)
  else if 0x5780 ≤ a ∧ a < 0x57C0 then
    some (if c = 0 ∨ c = 255 then
            s.modSig fun g => { g with slots := vset g.slots (Fin.ofNat 16 ((a - 0x5780) / 4)) fun x => { x with en := bit w 30 } }
          else s.sigFlag gREFUSED)
  else if 0x5800 ≤ a ∧ a < 0x5C00 then
    some (if c = 0 then s.modSig fun g => { g with tmpl := cellWriteList 0 g.tmpl (a - 0x5800) (wordBytes w) } else s)
  else match a with
    | 0x5400 => some (s.modAfe fun x => { x with wwr := x.wwr && !bit w 0 })
    | 0x5404 => some (s.modAfe fun x => { x with health := x.health &&& ~~~(w.setWidth 28) })
    | 0x5408 => some (s.modAfe fun x => { x with sflag := x.sflag &&& ~~~(w.setWidth 16) })
    | 0x540C => some (s.modAfe fun x => { x with ien := w.setWidth 4 })
    | 0x5410 => some (s.writeItcmd w)
    | 0x5540 => some (s.modCanopy fun x => { x with twin := w })
    | 0x55C4 => some (s.modCal fun x => { x with flag := x.flag &&& ~~~(w.setWidth 2) })
    | 0x5740 => some (s.writeSigCmd c w)
    | 0x574C => some (s.modSig fun g => { g with cfg := s.regBits g.cfg w 0xFF0FFF0F 0xFF00000F })
    | 0x5750 => some (s.modSig fun g => { g with thr := s.regBits g.thr w 0x3FFF3FFF 0x3FFF3FFF })
    | 0x5754 => some (s.modSig fun g => { g with flag := g.flag &&& ~~~(w.setWidth 5) })
    | _ => (s.afeRead a).map fun _ => s

end State
end Sys2Proof.Machine
end

