-- ==== Sys2Proof/Machine/Msp.lean ====
section
/-!
DEFINITION. Machine/Msp.lean: the management serial ports (18 R686–R690, R696).
-/
namespace Sys2Proof.Machine

/-- MSP_FLAG bits (18 Table 18.7). -/
def qRXFRAME : BitVec 9 := 0x001
def qRXDROP : BitVec 9 := 0x002
def qRXLONG : BitVec 9 := 0x004
def qFERR : BitVec 9 := 0x008
def qUNBOUND : BitVec 9 := 0x010
def qTXFRAME : BitVec 9 := 0x020
def qTXDROP : BitVec 9 := 0x040
def qDUPSEL : BitVec 9 := 0x080
def qMSPWWR : BitVec 9 := 0x100

/-- RTS_N follows the receive FIFO's level while the port is on and uses it (18, before R686, R688). -/
def Msp.settleRts (x : Msp) : Msp :=
  if !x.flow || !x.en then { x with rts := true }
  else if 192 ≤ x.rx.length then { x with rts := true }
  else if x.rx.length ≤ 64 then { x with rts := false }
  else x

/-- The frame in hand is discarded: its octets leave the FIFO, and the discard is counted (18 R687). (DEDUCED, log 62.) -/
def Msp.dropFrame (x : Msp) (why : BitVec 9) : Msp :=
  { x with rx := x.rx.take (x.rx.length - x.rxHeld), rxHeld := 0, rxBad := true,
           flag := x.flag ||| why, rxDrops := satInc x.rxDrops }

/-- Octets released to the link, oldest first. -/
def Msp.released (x : Msp) : List Byte := x.rx.take (x.rx.length - x.rxHeld)

/-- The link's next n management octets, 0x7E where the port has none (15 R586). -/
def Msp.takeOut (x : Msp) (n : Nat) : List Byte × Msp :=
  let k := min n x.released.length
  (padTo 0x7E n (x.released.take k), ({ x with rx := x.rx.drop k }).settleRts)

/-- The link hands one octet to the transmit FIFO (18 R689). -/
def Msp.place (x : Msp) (b : Byte) : Msp :=
  if x.txBad then
    if b = 0x7E ∧ x.tx.length + 3 ≤ 256 then { x with txBad := false, tx := x.tx ++ [0x7D, 0x7E, 0x7E] } else x
  else if x.tx.length < 256 then { x with tx := x.tx ++ [b] }
  else { x with txBad := true, flag := x.flag ||| qTXDROP, txDrops := satInc x.txDrops }

/-- Both FIFOs are emptied, any frame held is discarded without count (18 R696). -/
def Msp.empty (x : Msp) : Msp :=
  ({ x with rx := [], rxHeld := 0, rxBad := false, tx := [], txBad := false, txHeld := 0 }).settleRts

namespace State

/-- The links whose MDCSEL names port m, lowest first (18 R686). -/
def mspLinks (s : State) (m : Fin 2) : List (Fin 4) :=
  (List.finRange 4).filter fun l => decide ((s.link l).mdcsel.toNat = m.val + 1)

/-- The link a port is bound to (18 R686). -/
def mspLink (s : State) (m : Fin 2) : Option (Fin 4) := (s.mspLinks m).head?

/-- The port goes through f; the flags f sets are set by hardware (00 R9). -/
def mspRun (s : State) (m : Fin 2) (f : Msp → Msp) : State :=
  let x := s.mspm m
  let y := f { x with flag := 0 }
  (s.modMsp m fun _ => { y with flag := x.flag ||| y.flag }).hwSet (0x6C08 + 0x80 * m.val) (y.flag.setWidth 32)

/-- May the bound link take the octets of port m (18 R687)? -/
def mspOpen (s : State) (m : Fin 2) : Bool := (s.mspLink m).any fun l => (s.link l).en && !(s.link l).fenced

/-- A flag outside a frame goes on at once, when the bound link takes it and there is room (18 R687). (DEDUCED, log 62.) -/
def mspFlagOctet (s : State) (m : Fin 2) : State :=
  s.mspRun m fun x => ({ x with rx := if x.rx.length < 256 && s.mspOpen m then x.rx ++ [0x7E] else x.rx }).settleRts

/-- The closing flag of a frame arrives: the frame goes to the bound link, or is discarded (18 R687). -/
def mspRxFrame (s : State) (m : Fin 2) : State :=
  let x := s.mspm m
  if !x.en then s
  else if x.rxBad then (s.mspRun m fun x => { x with rxBad := false }).mspFlagOctet m
  else if x.rxHeld = 0 then s
  else
    let drop (why : BitVec 9) : State :=
      (s.mspRun m fun x => { x.dropFrame why with rxBad := false }).mspFlagOctet m
    match s.mspLink m with
    | none => drop qUNBOUND
    | some l =>
      let h := s.link l
      if h.fenced || !h.en || decide (256 ≤ x.rx.length) then drop qRXDROP
      else s.mspRun m fun x =>
        ({ x with rx := x.rx ++ [0x7E], rxHeld := 0, flag := x.flag ||| qRXFRAME, rxFrames := satInc x.rxFrames }).settleRts

/-- MSP_RX_BYTE: an octet arrives, with or without a framing error (18 R687, R688). (DEDUCED, log 62.) -/
def mspRxByte (s : State) (m : Fin 2) (b : Byte) (ferr : Bool) : State :=
  let x := s.mspm m
  if !x.en then s
  else if b = 0x7E ∧ !ferr then
    if x.rxHeld = 0 ∧ !x.rxBad then s.mspFlagOctet m else s.mspRxFrame m
  else if x.rxBad then s
  else if ferr then s.mspRun m fun x => (x.dropFrame qFERR).settleRts
  else if 256 ≤ x.rx.length then s.mspRun m fun x => (x.dropFrame qRXDROP).settleRts
  else if 134 ≤ x.rxHeld then s.mspRun m fun x => (x.dropFrame qRXLONG).settleRts
  else s.modMsp m fun x => ({ x with rx := x.rx ++ [b], rxHeld := x.rxHeld + 1 }).settleRts

/-- MSP_TX_BYTE: the port may send its next octet, 10 bit times after the last; `cts` is the level on CTS_N (18, before R686,
R689). -/
def mspTxByte (s : State) (m : Fin 2) (cts : Bool) : State :=
  s.mspRun m fun x =>
    let x := { x with cts := cts }
    if !x.en || (x.flow && cts) || decide (s.time < x.txFree) then x
    else
      let next := s.time + 10 * (x.div.toNat + 1)
      match x.tx with
      | [] => x
      | b :: rest =>
        if b = 0x7E then
          if x.txHeld = 0 then { x with tx := rest, txFree := next }
          else { x with tx := rest, txFree := next, txHeld := 0, flag := x.flag ||| qTXFRAME, txFrames := satInc x.txFrames }
        else { x with tx := rest, txFree := next, txHeld := x.txHeld + 1 }

/-- A register of port m (18 Table 18.7). -/
def mspRead (s : State) (m : Fin 2) (o : Nat) : Option (Word × State) :=
  let x := s.mspm m
  let v (w : Word) : Option (Word × State) := some (w, s)
  match o with
  | 0x00 => v (packw [(x.div.toNat, 16), (b2n x.flow, 1), (b2n x.en, 0)])
  | 0x04 =>
    v (packw [(b2n (s.mspLink m).isSome, 31), (((s.mspLink m).map fun l => l.val).getD 0, 28), (b2n x.rts, 27), (b2n x.cts, 26),
      (x.rx.length, 15), (x.tx.length, 6)])
  | 0x08 => v (x.flag.setWidth 32)
  | 0x0C => v (x.ien.setWidth 32)
  | 0x10 =>
    some (packw [(x.rxFrames.toNat, 16), (x.rxDrops.toNat, 0)], s.modMsp m fun x => { x with rxFrames := 0, rxDrops := 0 })
  | 0x14 =>
    some (packw [(x.txFrames.toNat, 16), (x.txDrops.toNat, 0)], s.modMsp m fun x => { x with txFrames := 0, txDrops := 0 })
  | _ => none

def mspWrite (s : State) (m : Fin 2) (o : Nat) (w : Word) : Option State :=
  match o with
  | 0x00 =>
    some (if fld w 31 16 < 99 then s.mspRun m fun x => { x with flag := x.flag ||| qMSPWWR }
          else if s.boot.locked then s
          else s.modMsp m fun x =>
            ({ x with div := .ofNat 16 (fld w 31 16), flow := bit w 1, en := bit w 0 }).settleRts)
  | 0x08 => some (s.modMsp m fun x => { x with flag := x.flag &&& ~~~(w.setWidth 9) })
  | 0x0C => some (s.modMsp m fun x => { x with ien := w.setWidth 9 })
  | 0x04 | 0x10 | 0x14 => some s
  | _ => none

end State
end Sys2Proof.Machine
end

