-- ==== Sys2Proof/Machine/Smb.lean ====
section
/-!
DEFINITION. Machine/Smb.lean: the SMBus controllers and the pack service (18).
-/
namespace Sys2Proof.Machine

/-- SMB_FLAG bits (18 Table 18.5). -/
def uDONE : BitVec 10 := 0x001
def uNACK : BitVec 10 := 0x002
def uTIMEOUT : BitVec 10 := 0x004
def uPECERR : BitVec 10 := 0x008
def uARBLOST : BitVec 10 := 0x010
def uSTUCK : BitVec 10 := 0x020
def uCLEARED : BitVec 10 := 0x040
def uLASTING : BitVec 10 := 0x080
def uWWR : BitVec 10 := 0x100
def uPACK : BitVec 10 := 0x200

/-- The swap-read commands, in order: code and whether a block is read (18 Table 18.2). -/
def swapCmds : List (Nat × Bool) :=
  [(0x1C, false), (0x1B, false), (0x18, false), (0x19, false), (0x20, true), (0x16, false), (0x09, false), (0x0A, false),
   (0x08, false), (0x0D, false), (0x0F, false), (0x10, false), (0x17, false)]
/-- The poll's commands, in order (18 Table 18.2). -/
def pollCmds : List Nat := [0x1C, 0x16, 0x09, 0x0A, 0x08, 0x0D, 0x0F, 0x10, 0x17]

/-- A value read by command code goes to its register (18 Table 18.2). -/
def Pack.store (p : Pack) (code : Nat) (w : Word) : Pack :=
  match code with
  | 0x1C => { p with serial := w.setWidth 16 }
  | 0x1B => { p with date := w.setWidth 16 }
  | 0x18 => { p with descap := w.setWidth 16 }
  | 0x19 => { p with desvolt := w.setWidth 16 }
  | 0x16 => { p with status := w.setWidth 16 }
  | 0x09 => { p with voltage := w.setWidth 16 }
  | 0x0A => { p with current := w.setWidth 16 }
  | 0x08 => { p with temp := w.setWidth 16 }
  | 0x0D => { p with rsoc := w.setWidth 8 }
  | 0x0F => { p with rem := w.setWidth 16 }
  | 0x10 => { p with full := w.setWidth 16 }
  | 0x17 => { p with cycles := w.setWidth 16 }
  | _ => p

def Pack.en (p : Pack) : Bool := bit p.cfg 0
def Pack.authOn (p : Pack) : Bool := bit p.cfg 1
def Pack.hlswap (p : Pack) : Bool := bit p.cfg 2
def Pack.keyen (p : Pack) : Nat := fld p.cfg 7 4
def Pack.authCmd (p : Pack) : Nat := fld p.cfg 15 8

def Pack.stateCode (p : Pack) : Nat :=
  match p.st with | .off => 0 | .reading => 1 | .authing => 2 | .ready => 3 | .noPack => 4 | .busFault => 5
/-- SMB_PSTAT, SMB_PID0. -/
def Pack.pstat (p : Pack) : Word :=
  packw [(p.stateCode, 28), (p.auth.toNat, 24), (p.reason.toNat, 20), (p.key.toNat, 18), (p.swaps.toNat, 8), (p.pseq.toNat, 0)]
def Pack.pid0 (p : Pack) : Word := packw [(p.date.toNat, 16), (p.serial.toNat, 0)]

/-- Key k of the trusted keys. -/
def Pack.keyBytes (p : Pack) (k : Nat) : List Byte := cellReadList 0 p.keys (32 * k) 32

/-- The 32 bytes of a digest (00 R6). -/
def digestBytes (d : BitVec 256) : List Byte := (List.range 32).map fun i => BitVec.ofNat 8 (d.toNat / 256 ^ (31 - i))

/-- M: the digest of the challenge, SERIAL and DATE (18 R680). (DEDUCED, log 61.) -/
def Pack.message (p : Pack) : List Byte :=
  digestBytes (sha256 (p.chal ++ leBytes 2 p.serial.toNat ++ leBytes 2 p.date.toNat))

/-- The SMB_XFER word of a pack transaction to the smart-battery address 0x0B with PEC (18 R676). -/
def packXfer (proto cmd len : Nat) : Word := packw [(proto, 29), (1, 28), (len - 1, 23), (0x0B, 16), (cmd, 8)]

/-- The transaction of a step (18 R676, R679): 5 is Read Word, 7 Block Read, 4 Write Word, 6 Block Write. -/
def PackStep.xfer (p : Pack) : PackStep → Word
  | .swap i => match swapCmds[i]? with
    | some (c, true) => packXfer 7 c 1
    | some (c, false) => packXfer 5 c 1
    | none => 0
  | .poll i => packXfer 5 (pollCmds.getD i 0) 1
  | .auth i => match i with
    | 1 => packXfer 6 p.authCmd 32
    | 3 | 5 => packXfer 7 p.authCmd 1
    | _ => packXfer 4 0 1

namespace State

def smbFlag (s : State) (k : Fin 2) (b : BitVec 10) : State :=
  (s.modSmb k fun x => { x with flag := x.flag ||| b }).hwSet (0x6808 + 0x100 * k.val) (b.setWidth 32)

/-- SMB_RES. -/
def smbRes (x : Smb) : Word := packw [(x.code.toNat, 28), (x.bytes.toNat, 16)]

/-- Post SMB_ERR (18 R698). -/
def smbErr (s : State) (k : Fin 2) (kind : Nat) (more : List (Fin 256)) : State :=
  let x := s.smbc k
  let rs := s.readers 11
  s.postAll 4 (rs ++ more.filter fun c => c ∉ rs) 0x15 true (256 * k.val + kind)
    (if kind = 1 then smbRes x else 0) (.ofNat 32 x.fails.toNat) s.canopy.rtcSec

/-- Post PACK and set its flag (18 R681). -/
def packPost (s : State) : State :=
  let p := s.pack
  let info := p.stateCode * 4096 + p.auth.toNat * 256 + p.reason.toNat * 16 + p.key.toNat
  (s.postAll 4 (s.readers 11) 0x14 true info p.pid0 p.pstat p.time).smbFlag 0 uPACK

/-! ## The pack service -/

/-- The pack service starts the transaction it waits to make, when SMB0 is IDLE and the supervisor runs (18 R673, R676; 19
R701). -/
def packKick (s : State) : State :=
  if s.flt.supReset then s else
  match s.pack.step, s.pack.wait with
  | some t, .bus =>
    let x := s.smbc 0
    if x.st = .idle ∧ !x.fenced then
      let p := s.pack
      -- from its first transaction a swap read shows READING, AUTH UNKNOWN (R677)
      let p := match t with
        | .swap 0 => { p with st := .reading, auth := 0, reason := 0, key := 0, wait := .nothing }
        | .auth 0 => { p with st := .authing, wait := .nothing }
        | _ => { p with wait := .nothing }
      (s.modPack fun _ => p).modSmb 0 fun x =>
        { x with st := .busy, xfer := some { word := PackStep.xfer p t, owner := 0, pack := true } }
    else s
  | _, _ => s

/-- Go to a step: its transaction is made as soon as the bus is free. -/
def packGo (s : State) (t : PackStep) : State :=
  (s.modPack fun p => { p with step := some t, wait := .bus, attempts := 0 }).packKick

/-- A swap read starts (18 R677). -/
def packStart (s : State) : State :=
  (s.modPack fun p => { p with swaps := p.swaps + 1, again := false, authTries := 0, chal := [], sig := [], got := [],
                               held := none, pollAt := s.time }).packGo (.swap 0)

/-- A swap-read trigger (18 R677, R695): a read in hand is replaced after the transaction in progress, and after the
supervisor's restart (19 R701). (DEDUCED, log 55.) -/
def packTrigger (s : State) : State :=
  if !s.pack.en then s
  else if (s.smbc 0).xfer.any (fun x => x.pack) || s.flt.supReset then s.modPack fun p => { p with again := true }
  else s.packStart

/-- A swap read ends: READY with its results in place (18 R681, R682). -/
def packDone (s : State) : State :=
  (s.modPack fun p =>
    { p with st := .ready, step := none, wait := .nothing, time := s.canopy.rtcSec, pseq := p.pseq + 1 }).packPost

/-- A read or a poll ends without a pack (18 R678). (DEDUCED, log 61.) -/
def packFail (s : State) (code : Nat) : State :=
  -- the rule names no REASON for a transaction ended by ABORTED
  let r := if code = 7 then (s.free.1.setWidth 4, s.free.2) else (if code = 5 ∨ code = 8 then 5 else 1, s)
  (r.2.modPack fun p => { p with st := .noPack, auth := 2, reason := r.1, step := none, wait := .nothing }).packPost

/-- The signature is checked against the trusted keys in use (18 R680). -/
def packVerify (s : State) : State :=
  let p := s.pack
  let ks := (List.range 4).filter fun k => p.keyen / 2 ^ k % 2 = 1
  let s := match ks.find? (fun k => ed25519Verify (p.keyBytes k) p.sig p.message) with
    | some k => s.modPack fun p => { p with auth := 1, key := .ofNat 2 k }
    | none => s.modPack fun p => { p with auth := 2, reason := if ks = [] then 3 else 2 }
  s.packDone

/-- n times 8 bytes of the supervisor's random generator (18 R679, 20 R730): free values. (DEDUCED, log 61.) -/
def randomBytes : Nat → State → List Byte × State
  | 0, s => ([], s)
  | n + 1, s =>
    let r := s.free
    let t := randomBytes n r.2
    (leBytes 8 r.1.toNat ++ t.1, t.2)

/-- A pack transaction succeeded with the bytes it read (18 R676, R677, R679–R682). -/
def packOk (s : State) (t : PackStep) (data : List Byte) : State :=
  let w := bytesWord (data.take 2)
  match t with
  | .swap i =>
    let s := match swapCmds[i]? with
      | some (_, true) => s.modPack fun p => { p with name := data.take 32 }
      | some (c, false) => s.modPack fun p => p.store c w
      | none => s
    if i + 1 < swapCmds.length then s.packGo (.swap (i + 1))
    else if s.pack.authOn then
      let r := randomBytes 4 s
      (r.2.modPack fun p => { p with chal := r.1 }).packGo (.auth 0)
    else (s.modPack fun p => { p with auth := 3 }).packDone
  | .poll i =>
    if i = 0 ∧ w.setWidth 16 ≠ s.pack.serial then s.packStart
    else
      let s := s.modPack fun p => { p with got := p.got ++ [w] }
      if i + 1 < pollCmds.length then s.packGo (.poll (i + 1))
      else s.modPack fun p =>
        let p := (pollCmds.zip p.got).foldl (fun p x => p.store x.1 x.2) p
        { p with step := none, wait := .nothing, got := [], time := s.canopy.rtcSec, pseq := p.pseq + 1 }
  | .auth i =>
    match i with
    | 0 => s.packGo (.auth 1)
    | 1 => s.modPack fun p => { p with step := some (.auth 2), wait := .auth, waitAt := s.time, attempts := 0, authTries := 0 }
    | 3 => (s.modPack fun p => { p with sig := data.take 32, authTries := 0 }).packGo (.auth 4)
    | 5 => ((s.modPack fun p => { p with sig := p.sig ++ data.take 32 })).packVerify
    | k => s.packGo (.auth (k + 1))

/-- A pack transaction failed (18 R678, R679). (DEDUCED, log 61.) -/
def packBad (s : State) (t : PackStep) (code : Nat) : State :=
  let p := s.pack
  let again (u : PackStep) : State :=
    if p.authTries + 1 < 4 then
      s.modPack fun p => { p with step := some u, wait := .auth, waitAt := s.time, attempts := 0, authTries := p.authTries + 1 }
    else s.packFail code
  let retry : State :=
    if p.attempts + 1 < 3 then s.modPack fun p => { p with wait := .retry, waitAt := s.time, attempts := p.attempts + 1 }
    else s.packFail code
  let nack := code = 2 ∨ code = 3
  match t with
  | .auth 2 | .auth 3 => if nack then again (.auth 2) else retry
  | .auth 4 | .auth 5 => if nack then again (.auth 4) else retry
  | _ => retry

/-- A result of a pack transaction reaches the service, at the latest when the supervisor has restarted (19 R701).
(DEDUCED, log 61.) -/
def packResult (s : State) (code : Nat) (data : List Byte) : State :=
  match s.pack.step with
  | none => s
  | some t =>
    if s.flt.supReset then s.modPack fun p => { p with held := some (code, data) }
    else if s.pack.again then s.packStart
    else if code = 1 then s.packOk t data else s.packBad t code

/-- The pack service resumes after the supervisor's restart (19 R701). -/
def packResume (s : State) : State :=
  if s.pack.again && (s.smbc 0).xfer.all (fun x => !x.pack) then s.packStart
  else match s.pack.held with
    | some r => (s.modPack fun p => { p with held := none }).packResult r.1 r.2
    | none => s.packKick

/-- PACK_RETRY: 20 ms after a failed result (18 R678). -/
def packRetry (s : State) : State :=
  if s.pack.wait = .retry ∧ s.pack.waitAt + 4000000 ≤ s.time then (s.modPack fun p => { p with wait := .bus }).packKick else s
/-- PACK_AUTH_WAIT: AUTHWAIT ms after the challenge or a refused read (18 R679). -/
def packAuthWait (s : State) : State :=
  if s.pack.wait = .auth ∧ s.pack.waitAt + 200000 * fld s.pack.cfg 31 24 ≤ s.time then
    (s.modPack fun p => { p with wait := .bus }).packKick
  else s

/-- PACK_POLL: POLL seconds have passed (18 R678, R682). (DEDUCED, log 61.) -/
def packPoll (s : State) : State :=
  if !s.pack.en || s.pack.step.isSome || s.flt.supReset || decide (s.time < s.pack.pollAt + 200000000 * fld s.pack.cfg 23 16) then s
  else match s.pack.st with
    | .ready => (s.modPack fun p => { p with got := [], pollAt := s.time }).packGo (.poll 0)
    | .noPack => s.packStart
    | _ => s

/-- SMB0 is fenced: the pack service stops (18 R685). -/
def packBusFault (s : State) : State :=
  if !s.pack.en ∨ s.pack.st = .busFault then s
  else (s.modPack fun p =>
    { p with st := .busFault, auth := 2, reason := 4, step := none, wait := .nothing, again := false }).packPost

/-! ## The controllers -/

/-- The bus check of R683 is to run: both lines are released, SDA is sampled 5 µs later. (DEDUCED, log 60.) -/
def smbCheck (s : State) (k : Fin 2) : State := s.modSmb k fun x => { x with st := .busy, check := true, checkAt := s.time, xfer := none }

/-- A controller's bus is free. -/
def smbIdle (s : State) (k : Fin 2) : State :=
  let s := s.modSmb k fun x => { x with st := .idle, check := false }
  if k = 0 then s.packKick else s

/-- The fence of a controller ends: FAILS restarts, the service reads the pack (18 R677, R684). -/
def smbLifted (s : State) (k : Fin 2) : State :=
  let s := (s.modSmb k fun x => { x with fenced := false, fails := 0 }).fltBack (unitKey 10 k.val)
  if k = 0 then s.packTrigger else s

/-- A write to SMB_XFER (18 R674). -/
def smbXfer (s : State) (k : Fin 2) (c : Fin 256) (w : Word) : State :=
  let x := s.smbc k
  if x.st ≠ .idle ∨ x.fenced ∨ (k = 0 ∧ s.pack.en) ∨ (fld w 27 23 ≠ 0 ∧ fld w 31 29 ≠ 6) then s.smbFlag k uWWR
  else s.modSmb k fun x => { x with st := .busy, owner := c, xfer := some { word := w, owner := c, pack := false } }

/-- The data registers take received bytes from byte 0 (18 R675). -/
def putData (d : Vector Byte 32) (bs : List Byte) : Vector Byte 32 :=
  Vector.ofFn fun i => if i.val < bs.length then bs.getD i.val 0 else at_ d i

/-- The flags and counts of a result code (18 R670–R675). (DEDUCED, log 60.) -/
def smbResult (s : State) (k : Fin 2) (code : Nat) (t : SmbXfer) (data : List Byte) : State :=
  let fl : BitVec 10 := match code with
    | 2 | 3 => uNACK | 4 => uTIMEOUT | 5 => uPECERR | 6 => uARBLOST | _ => 0
  let s := s.modSmb k fun x =>
    { x with code := .ofNat 4 code, bytes := .ofNat 8 data.length, xfer := none, st := .idle
             nacks := if code = 2 ∨ code = 3 then satInc x.nacks else x.nacks
             tmo := if code = 4 then satInc x.tmo else x.tmo
             data := if code = 1 ∧ !t.pack then putData x.data data else x.data }
  let s := s.smbFlag k (fl ||| (if t.pack then 0 else uDONE))
  let s := if code = 4 then s.smbErr k 1 (if t.pack then [] else [t.owner]) else s
  let s := if code = 4 ∨ code = 6 ∨ code = 7 then s.smbCheck k else s
  if t.pack then s.packResult code data else s

/-- SMB_TRANSFER_END: a transfer ends with OK, NACK_ADDR, NACK_DATA, PECERR, ARBLOST or BADCOUNT (18 R670, R671, R675). -/
def smbEnd (s : State) (k : Fin 2) (code : Nat) (data : List Byte) : State :=
  match (s.smbc k).xfer with
  | none => s
  | some t =>
    if code = 1 ∨ code = 2 ∨ code = 3 ∨ code = 5 ∨ code = 6 ∨ code = 8 then
      s.smbResult k code t (if code = 1 then data.take 32 else [])
    else s

/-- SMB_CLOCK_LOW_TIMEOUT (18 R672, R673). -/
def smbTimeout (s : State) (k : Fin 2) : State :=
  match (s.smbc k).xfer with
  | none => s
  | some t => s.smbResult k 4 t []

/-- SMB_CMD.ABORT (18 R691). -/
def smbAbort (s : State) (k : Fin 2) : State :=
  match (s.smbc k).xfer with
  | none => s
  | some t => s.smbResult k 7 t []

/-- SMB_CMD.CLRSTUCK (18 R684, R694). (DEDUCED, log 60.) -/
def smbClrStuck (s : State) (k : Fin 2) : State :=
  let x := s.smbc k
  if x.st = .stuck ∨ x.st = .lasting then
    (if x.check then s else s.modSmb k fun x => { x with check := true, checkAt := s.time })
  else s.smbFlag k uWWR

/-- SMB_BUS_CHECK: SDA is sampled 5 µs after the lines were released (18 R683, R684). (DEDUCED, log 60.) -/
def smbBusCheck (s : State) (k : Fin 2) (sda : Bool) : State :=
  let x := s.smbc k
  if !x.check || decide (s.time < x.checkAt + 1000) then s
  else
    let s := s.modSmb k fun x => { x with check := false, sda := sda }
    if sda then
      let s := if x.fenced then s.smbLifted k else s
      s.smbIdle k
    else s.modSmb k fun x => { x with st := .clear, clears := satInc x.clears }

/-- SMB_BUS_CLEAR: the clear ends, at the soonest with STOP after the first pulse when SDA is freed, and after the ninth pulse
when it is still low (18 Table 18.3, R684). (DEDUCED, log 60.) -/
def smbBusClear (s : State) (k : Fin 2) (freed : Bool) : State :=
  let x := s.smbc k
  if x.st ≠ .clear ∨ s.time < x.checkAt + 1000 + (if freed then 4000 else 18000) then s
  else if freed then
    let s := (s.modSmb k fun x => { x with sda := true }).smbFlag k uCLEARED
    let s := if x.fenced then s.smbLifted k else s
    s.smbIdle k
  else
    let within := decide (s.time ≤ x.firstStuck + 2000000000)
    -- a check CLRSTUCK asked for leaves LASTING as it was when it fails
    let was := decide (x.fails = 3)
    let n := if x.fails = 0 then 1 else if x.fails = 1 then 2 else if was ∨ within then 3 else 1
    let s := s.modSmb k fun x =>
      { x with st := if n = 3 then .lasting else .stuck, fenced := true, fails := .ofNat 2 n,
               firstStuck := if n = 1 then s.time else x.firstStuck }
    let s := ((s.smbFlag k uSTUCK).smbErr k 2 []).report 0x23 10 k.val 0
    let s := if n = 3 ∧ was = false then (s.smbFlag k uLASTING).smbErr k 3 [] else s
    if k = 0 then s.packBusFault else s

/-- SMB_STUCK_RETRY: 1 s after the last bus check (18 R684, R693). -/
def smbRetry (s : State) (k : Fin 2) : State :=
  let x := s.smbc k
  if x.st = .stuck ∧ x.check = false ∧ x.checkAt + 200000000 ≤ s.time then
    s.modSmb k fun x => { x with check := true, checkAt := s.time }
  else s

/-- SMB_CFG.EN goes to 1 (18 R683, R692), or to 0. -/
def smbEnable (s : State) (k : Fin 2) : State :=
  let x := s.smbc k
  if x.en then s
  else
    let s := s.modSmb k fun x => { x with en := true }
    -- under a fence of FLT's the check waits for the lift
    if x.fenced ∧ x.fails = 0 then s.modSmb k fun x => { x with st := .busy } else s.smbCheck k
def smbDisable (s : State) (k : Fin 2) : State :=
  s.modSmb k fun x => { x with en := false, st := .off, check := false, xfer := none }

/-- FLT fences a controller, and the fence is lifted (18 R685, R692). -/
def fenceSmb (s : State) (k : Fin 2) : State :=
  let s := if k = 0 then s.packBusFault else s
  let s := match (s.smbc k).xfer with
    | some t => s.smbResult k 7 t []
    | none => s
  s.modSmb k fun x => { x with fenced := true, check := false, st := if x.en then .busy else .off, xfer := none }
def unfenceSmb (s : State) (k : Fin 2) : State :=
  let s := s.smbLifted k
  if (s.smbc k).en then s.smbCheck k else s

/-! ## Registers (18 Tables 18.5, 18.6) -/

def smbRead (s : State) (k : Fin 2) (o : Nat) : Option (Word × State) :=
  let x := s.smbc k
  let v (w : Word) : Option (Word × State) := some (w, s)
  match o with
  | 0x00 => v (packw [(b2n x.speed, 1), (b2n x.en, 0)])
  | 0x04 =>
    let st : Nat := match x.st with | .off => 0 | .idle => 1 | .busy => 2 | .clear => 3 | .stuck => 4 | .lasting => 5
    let w (scl sda : Bool) : Word := packw [(st, 28), (b2n scl, 25), (b2n sda, 24), (x.fails.toNat, 16)]
    -- a line that the controller or a target moves has a level the model does not follow
    if x.st = .off ∨ x.st = .idle then v (w x.scl x.sda)
    else
      let r := s.free
      some (w (bit r.1 1) (bit r.1 0), r.2)
  | 0x08 => v (x.flag.setWidth 32)
  | 0x0C => v (x.ien.setWidth 32)
  | 0x10 => v 0
  | 0x14 => v (smbRes x)
  | 0x18 => v 0
  | 0x1C =>
    some (packw [(x.clears.toNat, 24), (x.tmo.toNat, 16), (x.nacks.toNat, 0)],
      s.modSmb k fun x => { x with clears := 0, tmo := 0, nacks := 0 })
  | 0x40 => v (packw [(x.owner.val, 0)])
  | _ => if 0x20 ≤ o ∧ o < 0x40 then v (bytesWord (x.data.toList.drop (o - 0x20) |>.take 4)) else none

def smbWrite (s : State) (k : Fin 2) (c : Fin 256) (o : Nat) (w : Word) : Option State :=
  match o with
  | 0x00 =>
    some (if s.boot.locked then s
          else
            let s := s.modSmb k fun x => { x with speed := bit w 1 }
            if bit w 0 then s.smbEnable k else s.smbDisable k)
  | 0x08 => some (s.modSmb k fun x => { x with flag := x.flag &&& ~~~(w.setWidth 10) })
  | 0x0C => some (s.modSmb k fun x => { x with ien := w.setWidth 10 })
  | 0x10 => some (s.smbXfer k c w)
  | 0x18 =>
    let s := if bit w 0 then s.smbAbort k else s
    some (if bit w 1 then s.smbClrStuck k else s)
  | 0x04 | 0x14 | 0x1C | 0x40 => some s
  | _ =>
    if 0x20 ≤ o ∧ o < 0x40 then
      some (s.modSmb k fun x => { x with data := Vector.ofFn fun i =>
        if o - 0x20 ≤ i.val ∧ i.val < o - 0x20 + 4 then (wordBytes w).getD (i.val - (o - 0x20)) 0 else at_ x.data i })
    else none

def packRead (s : State) (o : Nat) : Option (Word × State) :=
  let p := s.pack
  let v (w : Word) : Option (Word × State) := some (w, s)
  match o with
  | 0x00 => v p.cfg
  | 0x04 => v 0
  | 0x08 => v p.pstat
  | 0x10 => v p.pid0
  | 0x14 => v (packw [(p.desvolt.toNat, 16), (p.descap.toNat, 0)])
  | 0x18 => v (packw [(p.name.length, 0)])
  | 0x40 => v (packw [(p.voltage.toNat, 16), (p.current.toNat, 0)])
  | 0x44 => v (packw [(p.temp.toNat, 16), (p.status.toNat, 0)])
  | 0x48 => v (packw [(p.full.toNat, 16), (p.rem.toNat, 0)])
  | 0x4C => v (packw [(p.cycles.toNat, 16), (p.rsoc.toNat, 0)])
  | 0x50 => v p.time
  | _ =>
    if 0x20 ≤ o ∧ o < 0x40 then v (bytesWord (padTo 0 4 (p.name.drop (o - 0x20))))
    else if 0x80 ≤ o ∧ o < 0x100 then v (tapWord p.keys (o - 0x80))
    else none

def packWrite (s : State) (o : Nat) (w : Word) : Option State :=
  match o with
  | 0x00 =>
    some (if fld w 23 16 = 0 ∨ fld w 31 24 = 0 then s.smbFlag 0 uWWR
          else if s.boot.locked then s
          else
            let s := s.modPack fun p => { p with cfg := w &&& 0xFFFFFFF7 }
            if bit w 0 then s
            else s.modPack fun p => { p with st := .off, step := none, wait := .nothing, again := false })
  | 0x04 => some (if bit w 0 then s.packTrigger else s)
  | _ =>
    if 0x80 ≤ o ∧ o < 0x100 then
      some (if s.boot.locked then s
            else s.modPack fun p => { p with keys := cellWriteList 0 p.keys (o - 0x80) (wordBytes w) })
    else (s.packRead o).map fun _ => s

end State
end Sys2Proof.Machine
end

