-- ==== Sys2Proof/Machine/Tsi.lean ====
section
/-!
DEFINITION. Machine/Tsi.lean: the time-slot interchange (16).
-/
namespace Sys2Proof.Machine

/-- TSI_FLAG bits (16 Table 16.4). -/
def vFRAME : BitVec 16 := 0x01
def vMFRAME : BitVec 16 := 0x02
def vCHG : BitVec 16 := 0x04
def vSWDONE : BitVec 16 := 0x08
def vSWDEF : BitVec 16 := 0x10
def vCOPYDONE : BitVec 16 := 0x20
def vTSIWWR : BitVec 16 := 0x40

/-- A slot byte with SUB set, as it stands inside the device (15 R576, 16 R612). -/
def subSlot : BitVec 9 := 0x1FF

/-- Word offset of the entry of port p, page g, slot k (16, before R622). -/
def entryIx (p : Nat) (g : Bool) (k : Nat) : Nat := 512 * p + 256 * b2n g + k

/-- A connection entry with a reserved MODE, a reserved PORT or a reserved field not 0 (16 R622, Table 16.1). -/
def badEntry (w : Word) : Bool :=
  let mode := fld w 23 22
  mode = 3 || fld w 18 16 ≠ 0 || (mode = 0 && fld w 21 19 + fld w 15 0 ≠ 0) ||
    (mode = 1 && (decide (4 < fld w 21 19) || fld w 7 0 ≠ 0)) || (mode = 2 && fld w 21 19 + fld w 15 8 ≠ 0)

namespace State

def entry (s : State) (i : Nat) : Word := cellRead 0 s.tsi.conn i

/-- The byte an ingress slot gives, with SUB in bit 8 (16 R614, R616, R618). -/
def ingressSlot (s : State) (p k : Nat) : BitVec 9 :=
  if h : p < 4 then (at_ s.tsi.ingress ⟨p, h⟩).getD k subSlot
  else if s.me.st = .fenced then subSlot
  else (cellRead (0 : Byte) s.tsi.ivTx k).setWidth 9

/-- The byte egress slot k of port p carries in the frame built from page g (16 R616, R617). -/
def egressSlot (s : State) (g : Bool) (p k : Nat) : BitVec 9 :=
  let e := s.entry (entryIx p g k)
  let owner : Fin 256 := Fin.ofNat 256 (fld e 31 24)
  let src := fld e 21 19
  if fld e 23 22 = 0 ∨ (owner ≠ 0 ∧ s.clientState owner ≠ .active) ∨ (p < 4 ∧ bit s.tsi.adm p = false) then subSlot
  else if fld e 23 22 = 2 then BitVec.ofNat 9 (fld e 7 0)
  else if src < 4 ∧ bit s.tsi.adm src = false then subSlot
  else
    let b := s.ingressSlot src (fld e 15 8)
    if bit b 8 then subSlot else b

/-- Is the link taken into a swap? (16 R624) -/
def takenIn (s : State) (admMask : BitVec 4) (l : Fin 4) : Bool :=
  let act := s.tsi.active
  bit admMask l.val || (List.range 5).any fun p => (List.range 256).any fun k =>
    let a := s.entry (entryIx p act k)
    let b := s.entry (entryIx p (!act) k)
    decide (a ≠ b) && ((fld b 23 22 = 1 && fld b 21 19 = l.val) || (p = l.val && fld b 23 22 ≠ 0))

/-- Is the link blocked at a multiframe boundary? (16 R625) -/
def linkBlocked (s : State) (l : Fin 4) : Bool :=
  let h := s.link l
  h.fenced || decide (h.defects &&& 7 ≠ 0) || !h.stable

/-- The block as the cycle before a local frame boundary left it (16 R614, R616, R632); the bytes the links handed are those
of the frame that ends. (DEDUCED, log 56.) -/
def frameView (s : State) : State :=
  match s.cyc.bound with
  | none => s
  | some v =>
    { s with tsi := { v.tsi with ingress := s.tsi.ingress }, hl := v.hl
             me := { s.me with st := if v.meFenced then .fenced else if s.me.st = .fenced then .idle else s.me.st }
             sc := { s.sc with recs := v.recs } }

/-- Links fenced in this cycle. -/
def fencedNow (v s : State) : BitVec 4 :=
  (List.finRange 4).foldl
    (fun (b : BitVec 4) l => if (s.link l).fenced && !(v.link l).fenced then b ||| oneBit 4 l.val else b) 0

/-- At a multiframe boundary a pending swap takes place, or is deferred, as the cycle before left it, `v`: the page and the
admitted links of the frames that start now, and the state after (16 R625, R626, R630–R632). (DEDUCED, log 56.) -/
def swapAt (v s : State) : (Bool × BitVec 4) × State :=
  match v.tsi.pend with
  | none => ((v.tsi.active, v.tsi.adm), s)
  | some q =>
    if (s.tb - q.at_).toNat < 1280 then ((v.tsi.active, v.tsi.adm), s)
    else
      let blk := (List.finRange 4).foldl
        (fun (b : BitVec 4) l => if bit q.taken l.val && v.linkBlocked l then b ||| oneBit 4 l.val else b) 0
      if blk ≠ 0 then
        ((v.tsi.active, v.tsi.adm),
          (s.modTsi fun t => { t with defers := satInc t.defers, block := blk }).raiseTsi vSWDEF)
      else
        let s := (s.modTsi fun t =>
          { t with active := !v.tsi.active, adm := (t.adm ||| q.admMask) &&& ~~~(fencedNow v s), pend := none }).raiseTsi vSWDONE
        ((!v.tsi.active, v.tsi.adm ||| q.admMask),
          foldFin 4 (fun l s => if bit q.admMask l.val then s.fltBack (unitKey 7 l.val) else s) s)

/-- The page and the admitted links of the frames that start now, and the state after a swap decision. (DEDUCED, log 56.) -/
def tsiPage (v s : State) (mf : Bool) : (Bool × BitVec 4) × State :=
  if mf then swapAt v s else ((v.tsi.active, v.tsi.adm), s)

/-- IV_RX slot k. -/
def ivRxSlot (s : State) (k : Nat) : BitVec 9 := s.tsi.ivRx.getD k 0

/-- The new IV_RX frame, the frame number and the flags of a boundary (16 R615, R619–R621). (DEDUCED, log 56.) -/
def tsiFrame (s : State) (rx : List (BitVec 9)) (fn : BitVec 4) : State :=
  let w := s.tsi.watch
  let chg := bit w 31 && (List.range 256).any fun k =>
    decide (fld w 7 0 ≤ k) && decide (k ≤ fld w 15 8) && decide (s.ivRxSlot k ≠ rx.getD k 0)
  let s := s.modTsi fun t => { t with ivRx := rx, frame := t.frame + 1, fn := fn }
  s.raiseTsi (vFRAME ||| (if fn = 0 then vMFRAME else 0) ||| (if chg then vCHG else 0))

/-! ## Commands (16 R622–R627) -/

def tsiWerr (s : State) (reason i : Nat) : State :=
  (s.modTsi fun t => { t with werrReason := .ofNat 4 reason, werrOffset := .ofNat 14 (4 * i) }).raiseTsi vTSIWWR

/-- The links a swap takes in (16 R624). -/
def takenSet (s : State) (admMask : BitVec 4) : BitVec 4 :=
  (List.finRange 4).foldl (fun (b : BitVec 4) l => if s.takenIn admMask l then b ||| oneBit 4 l.val else b) 0
/-- A swap pends since an earlier cycle; an entry write of the request's own cycle is taken first (16 R622, R629). -/
def swapHeld (s : State) : Bool := match s.tsi.pend with | some q => decide (q.at_ ≠ s.tb) | none => false
/-- The comparison of a request of this cycle sees the entry written (16 R629). -/
def retake (s : State) : State :=
  match s.tsi.pend with
  | some q => s.modTsi fun t => { t with pend := some { q with taken := s.takenSet q.admMask } }
  | none => s

/-- A write of connection entry i by client c (16 R622, R629). -/
def writeEntry (s : State) (c : Fin 256) (i : Nat) (w : Word) : State :=
  let page : Bool := i / 256 % 2 = 1
  if c ≠ 0 ∧ c ≠ 255 then s.tsiWerr 1 i
  else if page = s.tsi.active ∧ s.boot.locked then s.tsiWerr 2 i
  else if page ≠ s.tsi.active ∧ (s.tsi.copying ∨ s.swapHeld) then s.tsiWerr 3 i
  else if badEntry w then s.tsiWerr 4 i
  else (s.modTsi fun t => { t with conn := cellWrite 0 t.conn i w }).retake

/-- TSI_CMD.COPY by client c (16 R623). -/
def tsiCopy (s : State) (c : Fin 256) : State :=
  if (c ≠ 0 ∧ c ≠ 255) ∨ s.tsi.copying ∨ s.tsi.pend.isSome then s.raiseTsi vTSIWWR
  else s.modTsi fun t => { t with copying := true, copyAt := s.time }

/-- TSI_COPY_DONE: after 1,280 cycles the standby page equals the active page (16 R623). (DEDUCED, log 56.) -/
def tsiCopyDone (s : State) : State :=
  if !s.tsi.copying || decide (s.time < s.tsi.copyAt + 1280) then s
  else
    let act := s.tsi.active
    let keep := s.tsi.conn.filter fun x => decide ((x.1 / 256 % 2 = 1) = (act = true))
    let conn := keep.foldl (fun m x => cellWrite 0 m (if act then x.1 - 256 else x.1 + 256) x.2) keep
    (s.modTsi fun t => { t with conn := conn, copying := false }).raiseTsi vCOPYDONE

/-- TSI_SWAP.REQ by client c (16 R624). -/
def tsiSwapReq (s : State) (c : Fin 256) (admMask : BitVec 4) : State :=
  if (c ≠ 0 ∧ c ≠ 255) ∨ s.tsi.copying ∨ s.tsi.pend.isSome then s.raiseTsi vTSIWWR
  else s.modTsi fun t =>
    { t with admMask := admMask, defers := 0, pend := some { admMask := admMask, taken := s.takenSet admMask, at_ := s.tb } }

/-- TSI_SWAP.CANCEL by client c (16 R627). -/
def tsiCancel (s : State) (c : Fin 256) : State :=
  if c ≠ 0 ∧ c ≠ 255 then s.raiseTsi vTSIWWR else s.modTsi fun t => { t with pend := none }

/-- A write to TSI_SWAP by client c. -/
def writeSwap (s : State) (c : Fin 256) (w : Word) : State :=
  if bit w 1 ∧ s.tsi.pend.isSome then s.tsiCancel c
  else if bit w 0 then s.tsiSwapReq c (.ofNat 4 (fld w 7 4))
  else if c ≠ 0 ∧ c ≠ 255 then s.raiseTsi vTSIWWR
  else s.modTsi fun t => { t with admMask := .ofNat 4 (fld w 7 4) }

/-! ## Registers (16 Tables 16.4, 16.5) -/

def tsiRead (s : State) (a : Nat) : Option (Word × State) :=
  let t := s.tsi
  let v (w : Word) : Option (Word × State) := some (w, s)
  if 0x8000 ≤ a ∧ a < 0xA800 then v (s.entry ((a - 0x8000) / 4))
  else if 0x90000 ≤ a ∧ a < 0x90400 then v ((s.ivRxSlot ((a - 0x90000) / 4)).setWidth 32)
  else if 0x90400 ≤ a ∧ a < 0x90800 then v ((cellRead (0 : Byte) t.ivTx ((a - 0x90400) / 4)).setWidth 32)
  else match a with
    | 0xA800 => v (packw [(b2n t.active, 24), (t.adm.toNat, 16), (t.frame.toNat, 8), (t.fn.toNat, 0)])
    | 0xA804 => v 0
    | 0xA808 => v (packw [(b2n t.pend.isSome, 31), (t.defers.toNat, 16), (t.block.toNat, 8), (t.admMask.toNat, 4)])
    | 0xA80C => v (t.ev.flag.setWidth 32)
    | 0xA810 => v t.ev.readEven
    | 0xA814 => v t.ev.readSvc
    | 0xA818 => v t.watch
    | 0xA81C => v (packw [(t.werrReason.toNat, 28), (t.werrOffset.toNat, 0)])
    | _ => none

def tsiWrite (s : State) (c : Fin 256) (a : Nat) (w : Word) : Option State :=
  if 0x8000 ≤ a ∧ a < 0xA800 then some (s.writeEntry c ((a - 0x8000) / 4) w)
  else if 0x90000 ≤ a ∧ a < 0x90400 then some s
  else if 0x90400 ≤ a ∧ a < 0x90800 then
    some (s.modTsi fun t => { t with ivTx := cellWrite 0 t.ivTx ((a - 0x90400) / 4) (w.setWidth 8) })
  else match a with
    | 0xA804 => some (if bit w 0 then s.tsiCopy c else if c ≠ 0 ∧ c ≠ 255 then s.raiseTsi vTSIWWR else s)
    | 0xA808 => some (s.writeSwap c w)
    | 0xA80C => some (s.modTsi fun t => { t with ev := t.ev.clear w })
    | 0xA810 => some (s.modTsi fun t => { t with ev := t.ev.writeEven 0x7F w })
    | 0xA814 => some (s.modTsi fun t => { t with ev := t.ev.writeSvc w })
    | 0xA818 => some (s.modTsi fun t => { t with watch := w &&& 0x8000FFFF })
    | 0xA800 | 0xA81C => some s
    | _ => none

end State
end Sys2Proof.Machine
end

