-- ==== Sys2Proof/Machine/Links.lean ====
section
/-!
DEFINITION. Machine/Links.lean: the harness links (15), and the local frame boundary they share with the TSI (16).
-/
namespace Sys2Proof.Machine

/-- HL_FLAG bits above the six defect bits (15 Table 15.9). -/
def lDCLR : BitVec 15 := 0x0040
def lSLIP : BitVec 15 := 0x0080
def lIDCHG : BitVec 15 := 0x0100
def lMDCERR : BitVec 15 := 0x0200
def lLATEACK : BitVec 15 := 0x0400
def lGIVEUP : BitVec 15 := 0x0800
def lSTABLE : BitVec 15 := 0x1000
def lXERR : BitVec 15 := 0x2000
def lHLWWR : BitVec 15 := 0x4000

def Hl.setMs (h : Hl) : Nat := fld h.int_ 9 0
def Hl.clrMs (h : Hl) : Nat := fld h.int_ 25 16
def Hl.exThr (h : Hl) : Nat := fld h.deg 31 24
def Hl.xen (h : Hl) : Bool := bit h.xch 31
def Hl.xlo (h : Hl) : Nat := fld h.xch 7 0
def Hl.xhi (h : Hl) : Nat := fld h.xch 15 8

/-- BIP errors of the last four checked frames reach EXCTHR (15 Table 15.4). -/
def Hl.rawExc (h : Hl) : Bool := decide (h.exThr ≤ h.bip4.foldl (· + ·) 0)

/-- The raw conditions that hold now: LOS, OOF, OOM, EXC, RDI (15 Table 15.4). (DEDUCED, log 52.) -/
def Hl.raw (h : Hl) : BitVec 5 :=
  BitVec.ofNat 5 (b2n h.rawLos + 2 * b2n (h.fst_ != .sync) + 4 * b2n (h.mfst != .sync) + 8 * b2n h.rawExc + 16 * b2n h.rawRdi)

/-- A raw condition changed: the interval counts as present for it, and STABLE clears with LOS, OOF or OOM (15 R574, R602). -/
def Hl.noteRaw (h : Hl) : Hl :=
  { h with seen := h.seen ||| h.raw, stable := h.stable && decide (h.raw &&& 7 = 0) }

/-- The frame state leaves SYNC for HUNT: what alignment had gathered goes (15 Table 15.3, R566, R575). -/
def Hl.hunt (h : Hl) : Hl :=
  ({ h with fst_ := .hunt, mfst := .hunt, preCount := 0, badO0 := 0, mfCount := 0, badO1 := 0, rxinv := false,
            store := [], hand := .nothing, handing := false, bipExp := none, rawRdi := false, idCur := [], idPrev := [] }).noteRaw

/-- Leave multiframe alignment. -/
def Hl.mfHunt (h : Hl) : Hl := ({ h with mfst := .hunt, mfCount := 0, badO1 := 0, idCur := [], idPrev := [] }).noteRaw

/-- O0 of a frame: K28.5 or not (15 Table 15.3). -/
def Hl.onO0 (h : Hl) (comma : Bool) : Hl :=
  match h.fst_ with
  | .hunt => h
  | .presync =>
    if !comma then h.hunt
    else if h.preCount + 1 = 2 then { h with fst_ := .sync, preCount := 0, badO0 := 0 }
    else { h with preCount := h.preCount + 1 }
  | .sync =>
    if comma then { h with badO0 := 0 }
    else if h.badO0 + 1 = 4 then h.hunt
    else { h with badO0 := h.badO0 + 1 }

/-- O1 of a frame in SYNC: K28.1, a number, or neither (15 Table 15.3). FN is the place of the frame in the multiframe. -/
def Hl.onO1 (h : Hl) (k1 : Bool) (o1 : Option Byte) : Hl :=
  let place := (h.fn.toNat + 1) % 16
  let right := if place = 0 then k1 else decide (!k1 ∧ o1 = some (.ofNat 8 place))
  match h.mfst with
  | .hunt => if k1 then { h with mfst := .presync, mfCount := 0, fn := 0 } else h
  | .presync =>
    if !right then h.mfHunt
    else if h.mfCount + 1 = 16 then { h with mfst := .sync, mfCount := 0, badO1 := 0, fn := 0 }
    else { h with mfCount := h.mfCount + 1, fn := .ofNat 4 place }
  | .sync =>
    let h := { h with fn := .ofNat 4 place }
    if right then { h with badO1 := 0 }
    else if h.badO1 + 1 = 2 then h.mfHunt
    else { h with badO1 := h.badO1 + 1 }

/-- The bytes BIP-8 covers: O2–O13 and S0–S255, a code violation as 0x00 (15 R571); `o` counts from O2. (DEDUCED, log 51.) -/
def bipOf (bytes : List (Option Byte)) : Byte :=
  xorBytes (((bytes.take 12) ++ bytes.drop 14).map fun b => b.getD 0)

/-- Code violations of a frame: O14 and O15 are never judged (15 R565). -/
def violations (bytes : List (Option Byte)) : Nat := (((bytes.take 12) ++ bytes.drop 14).filter fun b => b.isNone).length

/-- The identity byte of a frame in multiframe SYNC (15 R599): a sound identity sent twice is accepted. -/
def Hl.onId (h : Hl) (b : Option Byte) : Hl :=
  let cur := match b with
    | none => []
    | some v => if h.fn = 0 then [v] else if h.idCur.length = h.fn.toNat then h.idCur ++ [v] else []
  if h.fn ≠ 15 then { h with idCur := cur }
  else
    let ok := decide (cur.length = 16) && decide (crc8 (cur.take 15) = cur.getD 15 0) && decide (cur = h.idPrev)
    let h := { h with idCur := [], idPrev := if cur.length = 16 then cur else [] }
    if ok then { h with idrx := cur } else h

/-- The identity the device sends (15 Table 15.7). (DEDUCED, log 55.) -/
def State.identity (s : State) : List Byte :=
  let b := leBytes 2 0x0640 ++ leBytes 8 s.otp.unitId.toNat ++ leBytes 2 (fld s.boot.ver 15 0) ++ [0x03, 0, 0]
  b ++ [crc8 b]

/-- The octets of a management message on the line (15 Table 15.5). -/
def MdcMsg.octets (m : MdcMsg) (seq : Bool) : List Byte :=
  framed ([BitVec.ofNat 8 (0x10 + 8 * b2n m.req + 2 * b2n seq), BitVec.ofNat 8 m.client.val] ++ leBytes 2 m.msgid.toNat ++ m.payload)

/-- Every byte the link hands is substituted (15 R576). -/
def Hl.substituted (h : Hl) : Bool := h.fenced || decide (h.defects &&& 7 ≠ 0)

/-- What a frame handed in the interval gives: 256 slots with SUB, and four management octets, none where substituted
(15 R576). (DEDUCED, log 52.) -/
def Hl.handed (h : Hl) : List (BitVec 9) × List (Option Byte) :=
  let f : Option RxFrame := match h.hand with
    | .nothing => none
    | .again => h.last
    | .next | .skip => h.store.head?
  match f with
  | some f =>
    if h.substituted || !f.sync then (List.replicate 256 subSlot, List.replicate 4 none)
    else ((padTo none 256 (f.bytes.drop 14)).map fun b => (b.map fun v => v.setWidth 9).getD subSlot,
          padTo none 4 ((f.bytes.drop 2).take 4))
  | none => (List.replicate 256 subSlot, List.replicate 4 none)

/-- The read side has handed its frame: it is the one handed last (15 R575). -/
def Hl.afterHand (h : Hl) : Hl :=
  match h.hand with
  | .nothing | .again => { h with hand := .nothing }
  | .next | .skip => { h with last := h.store.head?, store := h.store.drop 1, hand := .nothing }

/-- The decision at a boundary: W is 272 characters for each frame stored, and `part` of the next (15 R575). The second part
counts REPEAT slips, the third DROP slips. -/
def Hl.decide_ (h : Hl) (part : Nat) : Hl × Nat × Nat :=
  let w := 272 * h.store.length + part
  if h.fst_ ≠ .sync then ({ h with hand := .nothing, handing := false }, 0, 0)
  else if !h.handing then
    if 32 ≤ w ∧ w ≤ 512 then ({ h with hand := .next, handing := true }, 0, 0) else ({ h with hand := .nothing }, 0, 0)
  else if w < 32 then
    ({ h with hand := .again, rep := satInc h.rep }, 1, 0)
  else if 512 < w then
    ({ h with hand := .next, store := h.store.drop 1, drop := satInc h.drop }, 0, 1)
  else ({ h with hand := .next }, 0, 0)

/-- The 272 characters of a frame, none where the quiet zone is silent (15 Table 15.2, R565, R584). -/
def TxFrame.chars (t : TxFrame) : List (Option (Bool × Byte)) :=
  let data (bs : List Byte) : List (Option (Bool × Byte)) := bs.map fun b => some (false, b)
  [some (true, 0xBC), some (if t.fn = 0 then (true, 0x3C) else (false, t.fn.setWidth 8))] ++ data ([t.stat, t.bip] ++ t.mdc ++ [t.idb] ++
    leBytes 2 t.ack.toNat ++ [0, 0, 0]) ++ (if t.silent then [none, none] else data [0, 0]) ++ data t.slots
/-- Its symbols on the line, and the running disparity after it (15 R564). -/
def TxFrame.symbols (t : TxFrame) : List (Option (BitVec 10)) × Bool := encodeRun t.chars t.rd

namespace State

/-- The bit that link l drives now, none while the pair is not driven: 34 bits in 625 core cycles (15 R563, R584, R609). -/
def txLine (s : State) (l : Fin 4) : Option Bool :=
  match (s.link l).tx with
  | none => none
  | some t =>
    let n := s.tsi.frameCnt * 34 / 625
    ((t.symbols.1.getD (n / 10) none)).map fun c => bit c (9 - n % 10)

def linkSec (s : State) (l : Fin 4) (f : LinkSec → LinkSec) : State :=
  s.modPm fun p => { p with sec := { p.sec with links := vset p.sec.links l f } }
def hlFlag (s : State) (l : Fin 4) (b : BitVec 15) : State :=
  (s.modLink l fun h => { h with flag := h.flag ||| b }).hwSet (0x7008 + 0x400 * l.val) (b.setWidth 32)

/-! ## Management messages (15 R589–R595) -/

/-- An acknowledgement is accepted: the message is done (15 R592, 14 Table 14.6). (DEDUCED, log 54.) -/
def mdcAcked (s : State) (l : Fin 4) (o : MdcOut) : State :=
  let s := s.modLink l fun h => { h with out := none }
  match o.msg.buf with
  | none => s
  | some i =>
    if o.msg.req then s
    else
      let c := o.msg.client
      (s.setBuf i fun b => { b with st := .owned c }).post 1 c 0x06 false (l.val * 4096 + o.msg.msgid.toNat)
        (.ofNat 32 (s.handleOf i)) 0 0

/-- An acknowledgement of a message given up (15 R593). -/
def lateAck (s : State) (l : Fin 4) : State :=
  (s.modLink l fun h => { h with late := satInc h.late, gone := none }).hlFlag l lLATEACK

/-- An ACK field received in SYNC; one accepted at B4 or later counts as late (15 R592, R593, R603). -/
def mdcAck (s : State) (l : Fin 4) (ack : BitVec 16) : State :=
  let s := s.modLink l fun h => { h with ackRx := ack }
  let h := s.link l
  if h.mdcsel ≠ 0 ∨ bit ack 15 = false then s
  else
    let key := (bit ack 14, ack.setWidth 12)
    match h.out with
    | some o =>
      if key ≠ (o.seq, o.msg.msgid) then s
      else if reached s.tb (o.b0 + 3200000) then s.modCyc fun y => { y with giveups := y.giveups ++ [(l, true)] }
      else s.mdcAcked l o
    | none => if h.gone = some key then s.lateAck l else s

/-- MDC_TX_START (15 R590, R594). While the link is fenced no octets go out (R595). (DEDUCED, log 54.) -/
def mdcTxStart (s : State) (l : Fin 4) : State :=
  let h := s.link l
  if !h.en || h.mdcsel ≠ 0 || h.out.isSome || h.mdcOut ≠ [] then s
  else match h.mdcq with
    | [] => s
    | m :: rest =>
      let bs := m.octets h.tseq
      s.modLink l fun h =>
        { h with mdcq := rest, tseq := !h.tseq, mdcOut := if h.fenced then [] else bs
                 out := some { msg := m, seq := h.tseq, tx := if h.fenced then 0 else 1, b0 := s.tb, len := bs.length } }

/-- MDC_RETRY: TB is B_k, for k from 1 to 3 (15 R593). (DEDUCED, log 54.) -/
def mdcRetry (s : State) (l : Fin 4) : State :=
  let h := s.link l
  match h.out with
  | none => s
  | some o =>
    let t := (s.tb - o.b0).toNat
    let k := t / 800000
    if t % 800000 = 0 ∧ 1 ≤ k ∧ k ≤ 3 ∧ h.mdcOut = [] ∧ 64 * k + o.len ≤ 224 ∧ h.en ∧ !h.fenced ∧ h.mdcsel = 0 then
      s.modLink l fun h =>
        { h with mdcOut := o.msg.octets o.seq, out := some { o with tx := o.tx + 1 }, retry := satInc h.retry }
    else s

/-- MDC_GIVEUP: the sender gives up at the end of the cycle, unless a timeout of the cycle closes the request (15 R593,
R604). (DEDUCED, log 54.) -/
def mdcGiveup (s : State) (l : Fin 4) : State := s.modCyc fun y => { y with giveups := y.giveups ++ [(l, false)] }

/-- The give-up of link l, when TB is at or past B4 (15 R593, R603, 14 R546). (DEDUCED, log 54.) -/
def giveUp (s : State) (l : Fin 4) : State :=
  match (s.link l).out with
  | none => s
  | some o =>
    if reached s.tb (o.b0 + 3200000) then
      let s := (s.modLink l fun h =>
        { h with out := none, giveup := satInc h.giveup, gone := some (o.seq, o.msg.msgid) }).hlFlag l lGIVEUP
      match o.msg.buf with
      | none => s
      | some i =>
        let c := o.msg.client
        let s := match s.sc.reqs.find? (fun q => decide (q.buf = i) && o.msg.req) with
          | some q => s.dropRequestOf q
          | none => s.setBuf i fun b => { b with st := .owned c }
        s.postFailed c l o.msg.msgid eNOACK (s.handleOf i) o.tx
    else s

/-- Bytes are placed in a bank, one at a time. -/
def putBytes (s : State) (a : Nat) : List Byte → State
  | [] => s
  | b :: bs => ((s.memWrite a 0 (b.setWidth 32)).2).putBytes (a + 1) bs

/-- A message head and payload are written into a buffer (14 Table 14.7). -/
def fillBuf (s : State) (i : Fin 256) (msgid : BitVec 12) (payload : List Byte) : State :=
  ((s.memWrite (bufAddr i) 2 (packw [(payload.length, 16), (msgid.toNat, 0)])).2).putBytes (bufAddr i + 4) payload

/-- A response arrives: for the supervisor's campaign, or to be matched with a request (14 R546, R547, R557). -/
def deliverResponse (s : State) (l : Fin 4) (c : Fin 256) (msgid : BitVec 12) (payload : List Byte) : State :=
  if c = 0 ∧ s.upd.camp.isSome = true ∧ 0x800 ≤ msgid.toNat then
    s.modUpd fun u => { u with nodeResp := some (l, msgid, payload) }
  else s.modCyc fun y => { y with responses := y.responses ++ [{ link := l, client := c, msgid := msgid, payload := payload }] }

/-- A response is matched at the end of its cycle, after a timeout of the cycle (14 R546, R547, R557). -/
def matchResponse (s : State) (x : Response) : State :=
  match s.sc.reqs.find? (fun q => decide (q.client = x.client) && decide (q.link = x.link) && decide (q.msgid = x.msgid)) with
  | some q =>
    let s := (s.dropRequestOf q).fillBuf q.buf x.msgid x.payload
    s.post 1 x.client 0x04 true (x.link.val * 4096 + x.msgid.toNat) (.ofNat 32 (s.handleOf q.buf)) (lo32 s.tb) 0
  | none => (s.modClient x.client fun r => { r with late := satInc r.late }).scFlag sLATE
def matchAll (s : State) : State := s.cyc.responses.foldl (fun s x => s.matchResponse x) s

/-- A message for which no buffer can be had is discarded and counted (14 R537, R548). -/
def dropMsg (s : State) (c : Fin 256) : State := s.modClient c fun r => { r with dropped := satInc r.dropped }

/-- A message arrives for a client (14 R548). (DEDUCED, log 54.) -/
def deliverMessage (s : State) (l : Fin 4) (c : Fin 256) (msgid : BitVec 12) (payload : List Byte) : State :=
  if s.clientState c ≠ .active then s.dropMsg c
  else
    let r := s.bufAlloc c
    if fld r.1 31 28 ≠ 0 then s.dropMsg c
    else
      let i : Fin 256 := Fin.ofNat 256 (fld r.1 7 0)
      (r.2.fillBuf i msgid payload).post 1 c 0x07 false (l.val * 4096 + msgid.toNat) (.ofNat 32 (fld r.1 15 0)) 0 0

/-- MDC_FRAME_RECEIVED: the octets between two flags after destuffing; `bad` when a byte was substituted or the frame was
aborted. No flag is received while every byte is substituted (15 R576, R587–R591). -/
def mdcReceive (s : State) (l : Fin 4) (octets : List Byte) (bad : Bool) : State :=
  let h := s.link l
  let n := octets.length
  let body := octets.take (n - 2)
  let b0 := octets.getD 0 0
  if !h.en || h.mdcsel ≠ 0 || h.substituted then s
  else if bad || decide (n < 6) || decide (66 < n) || decide (leBytes 2 (fcs16 body).toNat ≠ octets.drop (n - 2)) ||
      decide (fld b0 7 4 ≠ 1) || bit b0 3 then
    (s.modLink l fun h => { h with fcs := satInc h.fcs }).hlFlag l lMDCERR
  else
    let seq := bit b0 1
    let rsp := bit b0 2
    let c : Fin 256 := Fin.ofNat 256 (octets.getD 1 0).toNat
    let msgid : BitVec 12 := .ofNat 12 (leNat ((octets.drop 2).take 2))
    let s := s.modLink l fun h => { h with ackTx := .ofNat 16 (0x8000 + 0x4000 * b2n seq + msgid.toNat) }
    let dup := match h.seenMsg with
      | some m => m.seq = seq && m.client = c && m.msgid = msgid && m.rsp = rsp && decide ((s.tb - m.at_).toNat ≤ 3200000)
      | none => false
    if dup then s
    else
      let s := s.modLink l fun h =>
        { h with rseq := seq, seenMsg := some { seq := seq, client := c, msgid := msgid, rsp := rsp, at_ := s.tb } }
      let payload := body.drop 4
      if rsp then s.deliverResponse l c msgid payload else s.deliverMessage l c msgid payload

/-! ## Receiving frames (15 R565–R574) -/

/-- BIP-8 errors of the frame before are counted (15 R571, R578, 17 R636). (DEDUCED, log 51.) -/
def countBip (s : State) (l : Fin 4) (e : Nat) : State :=
  let s := s.modLink l fun h =>
    { h with bip := satOf 32 (h.bip.toNat + e), secBip := h.secBip + e, bip4 := (e :: h.bip4).take 4, reiTx := e }
  s.linkSec l fun x => { x with bip := x.bip + e }

/-- HL_FRAME_RECEIVED: a frame of link l with K28.5 at O0 or not, K28.1 or a byte at O1, and the 270 bytes from O2, none at a
code violation (15 R571–R573, R576, R581, R592, R599). (DEDUCED, log 51.) -/
def hlFrame (s : State) (l : Fin 4) (comma k1 : Bool) (o1 : Option Byte) (bytes : List (Option Byte)) : State :=
  let bytes := padTo none 270 bytes
  let h0 := s.link l
  if !h0.en || h0.fst_ = .hunt then s
  else
    let h := h0.onO0 comma
    let h := if h.fst_ = .sync then h.onO1 k1 o1 else h
    let cv := violations bytes + b2n (o1.isNone && !k1) + b2n (k1 && decide (h.mfst = .sync) && decide (h.fn ≠ 0))
    let h := { h with cv := satOf 16 (h.cv.toNat + cv) }
    let s := s.modLink l fun _ => h.noteRaw
    let s := if cv ≠ 0 then s.linkSec l fun x => { x with errored := true } else s
    if h.fst_ ≠ .sync then s.modLink l fun h => { h with bipExp := none }
    else
      let byte (i : Nat) : Byte := ((bytes.getD i none)).getD 0
      let s := match h.bipExp with
        | some e => s.countBip l (popCount (e ^^^ byte 1))
        | none => s
      let full := decide (h.mfst = .sync)
      let rf : RxFrame := { bytes := bytes, sync := full }
      let s := s.modLink l fun h =>
        let st := byte 0
        ({ h with bipExp := some (bipOf bytes), rei := satOf 16 (h.rei.toNat + fld st 3 0), rawRdi := bit st 7
                  store := (h.store ++ [rf]).drop (h.store.length + 1 - 2) }).noteRaw
      let s : State := match bytes.getD 7 none, bytes.getD 8 none with
        | some a, some b => s.mdcAck l (BitVec.ofNat 16 (leNat [a, b]))
        | _, _ => s
      if full then
        let s : State := s.modLink l fun h => h.onId (bytes.getD 6 none)
        if (s.link l).idrx = h0.idrx then s
        else
          let s := s.hlFlag l lIDCHG
          if l = 0 ∧ s.pack.hlswap then s.packTrigger else s
      else s

/-- HL_COMMA_DETECT: in HUNT, a comma gives the character boundary; K28.5 enters PRESYNC, the complement of K28.5 inverts the
input (15 R566, R572, R573). -/
def hlComma (s : State) (l : Fin 4) (k285 complement : Bool) : State :=
  s.modLink l fun h =>
    if !h.en || h.fst_ ≠ .hunt then h
    else if complement then { h with rxinv := true }
    else if k285 then { h with fst_ := .presync, preCount := 0 }
    else h

/-- HL_RAW_LOS_CHANGE (15 R574, R577). -/
def hlLos (s : State) (l : Fin 4) (los : Bool) : State :=
  s.modLink l fun h => if h.en then ({ h with rawLos := los }).noteRaw else h

/-- HL_CMD.RESYNC (15 after Table 15.3). -/
def hlResync (s : State) (l : Fin 4) : State := s.modLink l fun h => if h.en then h.hunt else h

/-! ## Defects (15 R577–R579) -/

/-- Declare or clear defect d of link l. -/
def declare (s : State) (l : Fin 4) (d : Fin 6) : State :=
  let s := (s.modLink l fun h => { h with defects := h.defects ||| oneBit 6 d.val, integ := vset h.integ d fun _ => 0 }).hlFlag l
    (oneBit 15 d.val)
  let s := s.linkSec l fun x => { x with defect := true, severe := x.severe || decide (d.val < 3) }
  s.report 0x20 7 l.val (2 ^ d.val)
def undeclare (s : State) (l : Fin 4) (d : Fin 6) : State :=
  (s.modLink l fun h => { h with defects := h.defects &&& ~~~(oneBit 6 d.val), integ := vset h.integ d fun _ => 0 }).hlFlag l lDCLR

/-- One more interval for defect d, whose raw condition was present in it or not (15 R577). -/
def integrate (s : State) (l : Fin 4) (d : Fin 6) (present : Bool) : State :=
  let h := s.link l
  let on := bit h.defects d.val
  if present = on then s.modLink l fun h => { h with integ := vset h.integ d fun _ => 0 }
  else
    let n := at_ h.integ d + 1
    if on then if 4 * h.clrMs ≤ n then s.undeclare l d else s.modLink l fun h => { h with integ := vset h.integ d fun _ => n }
    else if 4 * h.setMs ≤ n then s.declare l d else s.modLink l fun h => { h with integ := vset h.integ d fun _ => n }

/-- An interval of link l ends (15 R574, R577, R578, 17 R636). (DEDUCED, log 52.) -/
def endInterval (s : State) (l : Fin 4) : State :=
  let h := s.link l
  if !h.en then s
  else
    let seen := h.seen
    let s := s.integrate l 0 (bit seen 0)
    let s := s.integrate l 1 (bit seen 1)
    let s := s.integrate l 2 (bit seen 2)
    let s := s.integrate l 3 (bit seen 3)
    let s := s.integrate l 5 (bit seen 4)
    let out := decide (seen &&& 7 ≠ 0)
    let s := if out then s.linkSec l fun x => { x with errored := true } else s
    let n := if out then 0 else h.clean + 1
    let stable := decide (256 ≤ n)
    let s := s.modLink l fun h =>
      { h with clean := min n 256, secRaw := h.secRaw || out, seen := h.raw, stable := stable && decide (h.raw &&& 7 = 0) }
    if stable && !h.stable && (s.link l).stable then s.hlFlag l lSTABLE else s

/-- DEG of link l at the end of a second (15 R578). (DEDUCED, log 57.) -/
def degJudge (s : State) (l : Fin 4) : State :=
  let h := s.link l
  if !h.en then s
  else
    let bad := decide (fld h.deg 15 0 ≤ h.secBip)
    let on := bit h.defects 4
    let n := if bad = on then 0 else at_ h.integ 4 + 1
    let s :=
      if h.secRaw then s
      else
        let s := s.modLink l fun h => { h with integ := vset h.integ 4 fun _ => n }
        if on then (if fld h.deg 23 20 ≤ n ∧ bad = false then s.undeclare l 4 else s)
        else if fld h.deg 19 16 ≤ n ∧ bad = true then s.declare l 4
        else s
    s.modLink l fun h => { h with secBip := 0, secRaw := decide (h.raw &&& 7 ≠ 0) }

/-- PM_SECOND, in a new second of the real-time clock: the verdicts of the second in hand are formed, DEG is judged, the next second begins and the views are updated
(15 R578; 17 R635–R638, R647). (DEDUCED, log 57.) -/
def pmSecond (s : State) : State :=
  if !s.pwr.pdUp || decide (s.canopy.rtcSec = s.pm.sec.at_) then s
  else
    let s := foldFin 4 (fun l s => s.degJudge l) s.pmVerdicts
    let s := s.modPm fun p => { p with sec := s.newSecond }
    if s.flt.supReset then s else s.updateViews

/-! ## The local frame boundary (15 R568–R584, 16 R613–R620) -/

/-- Does link l grant a signature window in the frame that starts? (15 R583) -/
def sigWindow (s : State) (l : Fin 4) : Bool :=
  let h := s.link l
  (match s.afe.sig.run with | some r => decide (r.link = l) | none => false) && h.sigen && bit (h.idrx.getD 12 0) 0 && h.en && !h.fenced

/-- The frame link l starts to send, from its egress slots; `v` is the cycle before (15 Table 15.2, R569, R581, R582, R584,
R586, R605, R611). -/
def startFrame (v s : State) (l : Fin 4) (fn : BitVec 4) (slots : List (BitVec 9)) : State :=
  let h := s.link l
  let idle : List Byte := List.replicate 256 0xFF
  -- the transaction channel fills its own slots
  let w := if h.xen && decide (h.xlo ≤ h.xhi) then h.xhi - h.xlo + 1 else 0
  let xs : List Byte := padTo 0xFF w h.xchOut
  let plain := (padTo subSlot 256 slots).map fun b => (b.setWidth 8 : Byte)
  let mixed := if w = 0 then plain else plain.take h.xlo ++ xs ++ plain.drop (h.xlo + w)
  let body := if h.fenced then idle else mixed
  let port : Option (Fin 2) :=
    if h.mdcsel = 1 ∧ s.mspLink 0 = some l then some 0 else if h.mdcsel = 2 ∧ s.mspLink 1 = some l then some 1 else none
  let fill : List Byte := [0x7E, 0x7E, 0x7E, 0x7E]
  let mdc : List Byte :=
    if h.fenced then fill
    else if h.mdcsel = 0 then padTo 0x7E 4 h.mdcOut
    else match port with
      | some m => ((s.mspm m).takeOut 4).1
      | none => fill
  let s := match port with
    | some m => if h.fenced then s else s.modMsp m fun x => (x.takeOut 4).2
    | none => s
  let sq := s.sigWindow l
  let rdi := h.fenced || decide ((v.link l).defects &&& 7 ≠ 0)
  let rei := if (v.link l).defects &&& 3 ≠ 0 then 0 else (v.link l).reiTx
  let st : Byte := BitVec.ofNat 8 (128 * b2n rdi + 64 * b2n sq + min rei 15)
  let bip : Byte := match h.tx with
    | some t => xorBytes ([t.stat, t.bip] ++ t.mdc ++ [t.idb] ++ leBytes 2 t.ack.toNat ++ t.slots)
    | none => 0
  let ack : BitVec 16 := if h.mdcsel = 0 then h.ackTx else 0
  let s := if sq then s.sigOpen l 2614 else s
  let f : TxFrame :=
    { rd := h.rd, fn := fn, stat := st, bip := bip, mdc := mdc, idb := (s.identity).getD fn.toNat 0, ack := ack, slots := body
      silent := sq }
  s.modLink l fun h =>
    { h with
      tx := some f
      rd := f.symbols.2
      mdcOut := if h.fenced then [] else h.mdcOut.drop 4
      xchOut := if h.fenced then h.xchOut else h.xchOut.drop w }

/-- The link hands the frame it decided on at the last boundary (15 R575, R576, R586). -/
def handFrame (s : State) (l : Fin 4) : State :=
  let h := s.link l
  let r := h.handed
  let s := s.modTsi fun t => { t with ingress := vset t.ingress l fun _ => r.1 }
  let pass (s : State) (m : Fin 2) : State :=
    if s.mspLink m = some l ∧ (s.mspm m).en then
      s.mspRun m fun x => r.2.foldl (fun x b => x.place (b.getD 0x7E)) x
    else s
  let s := if h.mdcsel = 1 then pass s 0 else if h.mdcsel = 2 then pass s 1 else s
  s.modLink l fun h => h.afterHand

/-- The read side decides what it hands next (15 R575, 17 R636). -/
def decideHand (s : State) (l : Fin 4) (part : Nat) : State :=
  let r := (s.link l).decide_ part
  let s := s.modLink l fun _ => r.1
  if r.2.1 + r.2.2 = 0 then s
  else (s.linkSec l fun x => { x with slips := x.slips + 1, errored := true }).hlFlag l lSLIP

/-- LOCAL_FRAME_BOUNDARY, when 50,000 core cycles have passed: `parts` are the characters of a frame each link has begun to
store (15 R568, R575; 16 R613–R615, R625). (DEDUCED, log 52.) -/
def frameBoundary (s : State) (parts : List Nat) : State :=
  if !s.pwr.pdUp || decide (s.tsi.frameCnt < 50000) then s
  else
    let s := foldFin 4 (fun l s => if (s.link l).en then s.handFrame l
      else s.modTsi fun t => { t with ingress := vset t.ingress l fun _ => [] }) s
    let v := s.frameView
    let fn := s.tsi.fn + 1
    let pg := tsiPage v s (fn = 0)
    let w := v.modTsi fun t => { t with adm := pg.1.2 }
    let slots (p : Nat) : List (BitVec 9) := (List.range 256).map fun k => w.egressSlot pg.1.1 p k
    let rx := slots 4
    let t := foldFin 4 (fun l t =>
      if (t.link l).en && t.pwr.st != .entering then startFrame v t l fn (slots l.val) else t.modLink l fun h => { h with tx := none }) pg.2
    let t := (t.tsiFrame rx fn).modTsi fun t => { t with frameCnt := t.frameCnt - 50000 }
    let t := foldFin 4 (fun l t => if (t.link l).en then t.decideHand l (parts.getD l.val 0) else t) t
    foldFin 4 (fun l t => t.endInterval l) t

/-! ## Enable, fence, registers -/

/-- Does a management port change its link, or do two links come to name one port? (18 R686, R696). (DEDUCED, log 53.) -/
def settleMsp (s0 s : State) : State :=
  foldFin 2 (fun m s =>
    let s := if s0.mspLink m = s.mspLink m then s else s.modMsp m fun x => x.empty
    if 2 ≤ (s.mspLinks m).length ∧ s0.mspLinks m ≠ s.mspLinks m then s.mspRun m fun x => { x with flag := x.flag ||| qDUPSEL } else s) s

/-- HL_CFG.EN goes to 1 (15 R590, R591, R610). -/
def hlEnable (s : State) (l : Fin 4) : State :=
  if (s.link l).en then s
  else s.modLink l fun h =>
    let h := ({ h with en := true, rawLos := true, defects := 7, integ := .replicate 6 0, clean := 0, stable := false,
                       seen := 7, bip4 := [], reiTx := 0, last := none, tseq := false, rseq := false,
                       ackTx := 0, seenMsg := none, gone := none, mdcOut := [], xchOut := [], secRaw := true, rd := false }).hunt
    h

/-- HL_CFG.EN goes to 0; the frame being sent goes on to its end (15 R566, R599, R607, R609). (DEDUCED, log 53.) -/
def hlDisable (s : State) (l : Fin 4) : State :=
  let s := s.modLink l fun h =>
    if h.en then { h.hunt with en := false, idrx := [], defects := 7, stable := false, mdcOut := [], xchOut := [] } else h
  s.linkSec l fun x => { x with enabled := false }

/-- The fence of a link and its lift (01 Table 1.4, 15 R611, 16 R628). -/
def fenceLink (s : State) (l : Fin 4) : State :=
  ((s.modLink l fun h => { h with fenced := true, mdcOut := [] }).modTsi fun t => { t with adm := t.adm &&& ~~~(oneBit 4 l.val) }).linkSec
    l fun x => { x with fenced := true }
def unfenceLink (s : State) (l : Fin 4) : State := s.modLink l fun h => { h with fenced := false }

/-- A write to HL_CFG. -/
def writeHlCfg (s : State) (l : Fin 4) (w : Word) : State :=
  let s0 := s
  let s :=
    if s.boot.locked then s
    else s.modLink l fun h =>
      { h with sigen := bit w 3, mdcsel := if fld w 2 1 = 3 then h.mdcsel else .ofNat 2 (fld w 2 1) }
  let s := if bit w 0 then s.hlEnable l else s.hlDisable l
  settleMsp s0 s

def alignCode : Align → Nat
  | .hunt => 0
  | .presync => 1
  | .sync => 2

def hlRead (s : State) (l : Fin 4) (o : Nat) : Option (Word × State) :=
  let h := s.link l
  let v (w : Word) : Option (Word × State) := some (w, s)
  match o with
  | 0x00 => v (packw [(b2n h.sigen, 3), (h.mdcsel.toNat, 1), (b2n h.en, 0)])
  | 0x04 =>
    v (packw [(if h.mfst = .sync then h.fn.toNat else 0, 24), (b2n h.rxinv, 23), (b2n h.stable, 22), (alignCode h.mfst, 20),
      (alignCode h.fst_, 18), (h.defects.toNat, 0)])
  | 0x08 => v (h.flag.setWidth 32)
  | 0x0C => v (h.ien.setWidth 32)
  | 0x10 => v h.int_
  | 0x14 => v h.deg
  | 0x18 => v h.xch
  | 0x1C => v 0
  | 0x20 => some (h.bip, s.modLink l fun h => { h with bip := 0 })
  | 0x24 => some (packw [(h.rep.toNat, 16), (h.drop.toNat, 0)], s.modLink l fun h => { h with rep := 0, drop := 0 })
  | 0x28 => some (packw [(h.cv.toNat, 16), (h.rei.toNat, 0)], s.modLink l fun h => { h with cv := 0, rei := 0 })
  | 0x2C =>
    some (packw [(h.late.toNat, 24), (h.giveup.toNat, 16), (h.retry.toNat, 8), (h.fcs.toNat, 0)],
      s.modLink l fun h => { h with late := 0, giveup := 0, retry := 0, fcs := 0 })
  | 0x30 =>
    v (match h.out with
      | some o => packw [(1, 31), (min o.tx 7, 28), (b2n o.seq, 27), (b2n h.rseq, 26), (o.msg.client.val, 16), (o.msg.msgid.toNat, 0)]
      | none => packw [(b2n h.tseq, 27), (b2n h.rseq, 26)])
  | 0x34 => v (packw [(h.ackRx.toNat, 16), (h.ackTx.toNat, 0)])
  | _ =>
    if 0x40 ≤ o ∧ o < 0x50 then v (bytesWord ((s.identity.drop (o - 0x40)).take 4))
    else if 0x50 ≤ o ∧ o < 0x60 then v (bytesWord (padTo 0 4 (h.idrx.drop (o - 0x50))))
    else none

def hlWrite (s : State) (l : Fin 4) (o : Nat) (w : Word) : Option State :=
  let lock := s.boot.locked
  match o with
  | 0x00 => some (s.writeHlCfg l w)
  | 0x08 => some (s.modLink l fun h => { h with flag := h.flag &&& ~~~(w.setWidth 15) })
  | 0x0C => some (s.modLink l fun h => { h with ien := w.setWidth 15 })
  | 0x10 =>
    let bad (n : Nat) : Bool := decide (n < 1) || decide (1000 < n)
    some (if bad (fld w 9 0) || bad (fld w 25 16) then s.hlFlag l lHLWWR
          else if lock then s else s.modLink l fun h => { h with int_ := w &&& 0x03FF03FF })
  | 0x14 =>
    some (if fld w 15 0 = 0 ∨ fld w 19 16 = 0 ∨ fld w 23 20 = 0 ∨ fld w 31 24 = 0 ∨ 32 < fld w 31 24 then s.hlFlag l lHLWWR
          else if lock then s else s.modLink l fun h => { h with deg := w })
  | 0x18 => some (if lock then s else s.modLink l fun h => { h with xch := w &&& 0x8000FFFF })
  | 0x1C => some (if bit w 0 then s.hlResync l else s)
  | _ => (s.hlRead l o).map fun _ => s

end State
end Sys2Proof.Machine
end

