-- ==== Sys2Proof/Machine/PinSeq.lean ====
section
/-!
DEFINITION. Machine/PinSeq.lean: the pin sequencers, their instructions, FIFOs and registers (09 R354–R386).
-/
namespace Sys2Proof.Machine

/-- PS_FLAG bits (09 Table 9.4). -/
def pEVT : BitVec 16 := 0x001
def pTXLOW : BitVec 16 := 0x002
def pRXHIGH : BitVec 16 := 0x004
def pHALTED : BitVec 16 := 0x008
def pILL : BitVec 16 := 0x010
def pPINERR : BitVec 16 := 0x020
def pPINCLR : BitVec 16 := 0x040
def pTXREF : BitVec 16 := 0x080
def pRXEMPTY : BitVec 16 := 0x100

/-- V and channel of local pin i in a pin map (09 Table 9.4). -/
def mapV (m0 m1 : Word) (i : Fin 8) : Bool := if i.val < 4 then bit m0 (8 * i.val + 7) else bit m1 (8 * (i.val - 4) + 7)
def mapCh (m0 m1 : Word) (i : Fin 8) : Fin 64 :=
  Fin.ofNat 64 (if i.val < 4 then fld m0 (8 * i.val + 5) (8 * i.val) else fld m1 (8 * (i.val - 4) + 5) (8 * (i.val - 4)))
def mapChans (m0 m1 : Word) : List (Fin 64) := ((List.finRange 8).filter (mapV m0 m1)).map (mapCh m0 m1)
/-- The pins as the engine claimed them at its enable (09 R358). (DEDUCED, log 38.) -/
def PinSeq.pinV (p : PinSeq) : Fin 8 → Bool := mapV p.claim0 p.claim1
def PinSeq.pinCh (p : PinSeq) : Fin 8 → Fin 64 := mapCh p.claim0 p.claim1
def PinSeq.txth (p : PinSeq) : Nat := fld p.fifo 11 8
def PinSeq.rxth (p : PinSeq) : Nat := fld p.fifo 19 16
/-- PS_TXe and PS_RXe request lines (09 R374). -/
def PinSeq.txLine (p : PinSeq) : Bool := bit p.fifo 0 && decide (p.tx.length ≤ p.txth)
def PinSeq.rxLine (p : PinSeq) : Bool := bit p.fifo 12 && decide (p.rxth ≤ p.rx.length)
/-- The channels of claimed pins, and those that an enable would claim. -/
def PinSeq.channels (p : PinSeq) : List (Fin 64) := mapChans p.claim0 p.claim1
def PinSeq.wants (p : PinSeq) : List (Fin 64) := mapChans p.pin0 p.pin1
/-- Does a tick fall on this cycle: DIV + 1 cycles after the last, or one after the engine was enabled or restarted (09
R354)? -/
def PinSeq.due (p : PinSeq) : Bool := decide (p.div.toNat < p.cnt)
/-- Local pin k of a number; k below 8 wherever it is used. -/
def pinIx (k : Nat) : Fin 8 := Fin.ofNat 8 k

/-- What an instruction did in a tick: the engine after it, flags it set, and whether it completed. -/
structure PsOut where
  p : PinSeq
  flags : BitVec 16 := 0
  done : Bool := true
  /-- Ticks of COUNT that follow (PAUSE). -/
  extra : Nat := 0

/-- The next n bits to send; none while it waits for a TX word (09 R370). (DEDUCED, log 38.) -/
def PinSeq.bits (p : PinSeq) (n : Nat) : PinSeq × Option Nat :=
  let take (p : PinSeq) : PinSeq × Option Nat :=
    ({ p with ow := p.ow <<< n, orr := p.orr - n }, some (p.ow.toNat / 2 ^ (32 - n)))
  if n ≤ p.orr then take p
  else
    match p.tx with
    | [] => ({ p with orr := 0 }, none)
    | w :: rest => take { p with tx := rest, ow := w, orr := p.obits.toNat + 1 }

/-- Gather n bits into IW, depositing a full word (09 R370). -/
def PinSeq.gather (p : PinSeq) (b n : Nat) : PinSeq :=
  let q := { p with iw := (p.iw <<< n) ||| .ofNat 32 b, ic := p.ic + n }
  if p.ibits.toNat + 1 ≤ q.ic then { q with rx := q.rx ++ [q.iw], iw := 0, ic := 0 } else q

/-- Drive local pin k high or low. -/
def PinSeq.setPin (p : PinSeq) (k : Nat) (high : Bool) : PinSeq :=
  { p with drive := vset p.drive (pinIx k) fun _ => if high then .high else .low }

/-- The next word of the store, modulo 48 (09 R357). -/
def PinSeq.next (p : PinSeq) : PinSeq := { p with pc := .ofNat 6 ((p.pc.toNat + 1) % 48) }

/-- Is the instruction illegal? (09 R371) -/
def psIllegal (p : PinSeq) (w : BitVec 24) : Bool :=
  let op := fld w 18 16
  let pin := fld w 15 13
  let n := fld w 12 10 + 1
  let noV (k : Nat) : Bool := !p.pinV (pinIx k)
  if op = 0 ∨ op = 1 then
    decide (fld w 15 8 = 0) || (List.range 8).any (fun i => bit w (8 + i) && noV i) || (decide (op = 1) && decide (fld w 7 0 ≠ 0))
  else if op = 2 ∨ op = 3 then
    decide (fld w 9 0 ≠ 0) || decide (7 < pin + n - 1) || (List.range n).any (fun i => noV (pin + i))
  else if op = 4 then
    decide (fld w 9 0 ≠ 0) || (if bit w 10 then decide (fld w 15 11 ≠ 0) else noV pin)
  else if op = 5 then
    match fld w 15 14 with
    | 0 =>
      let c := fld w 13 10
      let k := fld w 9 7
      bit w 6 || decide (8 < c) || decide (47 < fld w 5 0) || (if c = 3 ∨ c = 4 then noV k else decide (k ≠ 0))
    | 1 => bit w 12 && decide (fld w 11 0 ≠ 0)
    | 2 => decide (fld w 12 0 ≠ 0)
    | _ => decide (fld w 11 0 ≠ 0) || decide (fld w 13 12 = 0)
  else decide (op = 7)

/-- The pins at local numbers from P: bit N − 1 − i of the result is pin P + i. -/
def samplePins (sample : Fin 8 → Bool) (pin n : Nat) : Nat :=
  (List.range n).foldl (fun a i => 2 * a + b2n (sample (pinIx (pin + i)))) 0

/-- Execute a legal instruction in a tick; `sample` is the level at each local pin (09 R369, R370, Tables 9.1, 9.2). (DEDUCED, log 38.) -/
def psExec (p : PinSeq) (sample : Fin 8 → Bool) (w : BitVec 24) : PsOut :=
  let op := fld w 18 16
  let pin := fld w 15 13
  let n := fld w 12 10 + 1
  if op = 0 then
    { p := ((List.range 8).foldl (fun q i => if bit w (8 + i) then q.setPin i (bit w i) else q) p).next }
  else if op = 1 then
    { p := ({ p with drive := Vector.ofFn fun i : Fin 8 => if bit w (8 + i.val) then .released else at_ p.drive i }).next }
  else if op = 2 then
    match p.bits n with
    | (q, some v) =>
      { p := ((List.range n).foldl (fun q i => q.setPin (pin + i) (decide (v / 2 ^ (n - 1 - i) % 2 = 1))) q).next }
    | (q, none) => { p := q, done := false }
  else if op = 3 then
    if p.ibits.toNat + 1 ≤ p.ic + n ∧ 8 ≤ p.rx.length then { p := p, done := false }
    else { p := (p.gather (samplePins sample pin n) n).next }
  else if op = 4 then
    if bit w 10 then
      if p.orr ≠ 0 ∨ p.tx ≠ [] then { p := p.next } else { p := p, done := false }
    else if sample (pinIx pin) = bit w 12 then { p := ({ p with t := false }).next }
    else if bit w 11 then
      let q := { p with l1 := if p.l1 = 0 then 0 else p.l1 - 1 }
      if q.l1 = 0 then { p := ({ q with t := true }).next } else { p := q, done := false }
    else { p := p, done := false }
  else if op = 5 then
    match fld w 15 14 with
    | 0 =>
      let k := sample (pinIx (fld w 9 7))
      let take := match fld w 13 10 with
        | 0 => true
        | 1 => p.t
        | 2 => !p.t
        | 3 => k
        | 4 => !k
        | 5 => decide (p.tx ≠ [])
        | 6 => decide (p.orr ≠ 0)
        | 7 => decide (p.l0 ≠ 0)
        | _ => decide (p.l1 ≠ 0)
      { p := if take then { p with pc := .ofNat 6 (fld w 5 0) } else p.next }
    | 1 =>
      let load (q : PinSeq) (v : BitVec 16) : PinSeq :=
        let q := q.next
        if bit w 13 then { q with l1 := v, ls1 := q.pc } else { q with l0 := v, ls0 := q.pc }
      if bit w 12 then
        match p.bits 16 with
        | (q, some v) => { p := load q (.ofNat 16 v) }
        | (q, none) => { p := q, done := false }
      else { p := load p (.ofNat 16 (fld w 11 0)) }
    | 2 =>
      if bit w 13 then
        { p := if p.l1 = 0 then p.next else { p with l1 := p.l1 - 1, pc := p.ls1 } }
      else { p := if p.l0 = 0 then p.next else { p with l0 := p.l0 - 1, pc := p.ls0 } }
    | _ =>
      let evt := if bit w 12 then pEVT else 0
      if bit w 13 then
        if 8 ≤ p.rx.length then { p := p, done := false }
        else { p := ({ p with rx := p.rx ++ [p.iw], iw := 0, ic := 0 }).next, flags := evt }
      else { p := p.next, flags := evt }
  else { p := p.next, extra := fld w 15 0 }

/-- The state an engine starts from at enable and at GO; tick 0 is the next cycle (09 R354, R362, R378). A fenced engine
keeps its state (R386). (DEDUCED, log 38.) -/
def PinSeq.start_ (p : PinSeq) : PinSeq :=
  { p with pc := p.start, ow := 0, iw := 0, l0 := 0, l1 := 0, ls0 := 0, ls1 := 0, t := false, orr := 0, ic := 0, busy := 0,
           cnt := p.div.toNat, haltReq := false, clrHold := false, drive := .replicate 8 .released,
           st := if p.st = .fenced then .fenced else .run }

namespace State

/-- The level that the pad of a local pin had two core cycles ago (09 R368). -/
def psSample (s : State) (p : PinSeq) (i : Fin 8) : Bool := (s.chan (p.pinCh i)).o.was2.pad

/-- An illegal instruction: the engine halts with its pins at Clearing levels and FLT gets a report (09 R371). Table 19.1
names no mechanism for it, so the report's code is a free value. (DESIGN CHOICE, log 37.) -/
def psIll (s : State) (e : Fin 8) : State :=
  let r := s.free
  ((r.2.modEng e fun p => { p with st := .halt, clrHold := true, haltReq := false, busy := 0 }).raisePs e (pILL ||| pHALTED)).report
    (r.1.toNat % 256) 5 e.val 0

/-- A fence of engine e, and its lift (09 R386). -/
def fencePs (s : State) (e : Fin 8) : State :=
  (s.modEng e fun p => { p with st := .fenced, clrHold := true, haltReq := false, busy := 0, tx := [], rx := [], txWait := [] }).modCyc
    fun c => { c with txNew := c.txNew.filter fun x => x.1 ≠ e, rxNew := c.rxNew.filter (· ≠ e) }
def unfencePs (s : State) (e : Fin 8) : State :=
  s.modEng e fun p => if p.st = .fenced then { p with st := .halt } else p

/-- Fetch the word at PC (09 R356, R841): none when the fetch fences the engine. (DEDUCED, log 14, DESIGN CHOICE, log 15.) -/
def psFetch (s : State) (e : Fin 8) : Option (BitVec 24) × State :=
  let pc := (s.eng e).pc.toNat
  let w := cellRead 0 s.ps.store pc
  let good (s : State) : State :=
    { s with ps := { s.ps with storeErr := cellErase pc s.ps.storeErr, eccCorr := satInc s.ps.eccCorr, eccAddr := .ofNat 6 pc } }
  let bad (s : State) : State := (s.fencePs e).report 0x06 5 e.val 0
  match cellRead 0 s.ps.storeErr pc with
  | 0 => (some w, s)
  | 1 => (some w, good s)
  | 2 => (none, bad s)
  | _ =>
    let r := s.free
    let s := r.2
    let wrong : BitVec 24 := (r.1 >>> 8).setWidth 24
    let put (s : State) : State :=
      { s with ps := { s.ps with store := cellWrite 0 s.ps.store pc wrong, storeErr := cellErase pc s.ps.storeErr } }
    match r.1.toNat % 3 with
    | 0 => (none, bad s)
    | 1 => (some wrong, good (put s))
    | _ => (some wrong, put s)

/-- Words of TX that engine e does not see in this cycle: the one the FIFO took in it (09 R379). -/
def psUnseen (s : State) (e : Fin 8) : Nat := if s.cyc.txNew.any (·.1 = e) then 1 else 0

/-- Engine e executes word w, seeing TX without a word of this cycle (09 R369, R379). -/
def psRun (s : State) (e : Fin 8) (w : BitVec 24) : State :=
  let p := s.eng e
  let seen := p.tx.length - s.psUnseen e
  let o := psExec { p with tx := p.tx.take seen } (s.psSample p) w
  let q := if o.done then { o.p with st := .run, busy := fld w 23 19 + o.extra } else { o.p with st := .wait }
  let s := if p.rx.length < q.rx.length then s.modCyc fun c => { c with rxNew := e :: c.rxNew } else s
  (s.modEng e fun _ => { q with tx := q.tx ++ p.tx.drop seen }).raisePs e o.flags

/-- A tick of engine e, on its own ticks only (09 R354, R367–R371, R376). -/
def psTick (s : State) (e : Fin 8) : State :=
  let p := s.eng e
  if !p.due || (p.st != .run && p.st != .wait) then s
  else
    let s := s.modEng e fun p => { p with cnt := 0 }
    if p.haltReq then (s.modEng e fun p => { p with st := .halt, haltReq := false, busy := 0 }).raisePs e pHALTED
    else if p.busy ≠ 0 then s.modEng e fun p => { p with busy := p.busy - 1 }
    else
      match s.psFetch e with
      | (none, s) => s
      | (some w, s) => if psIllegal p w then s.psIll e else s.psRun e w

/-- Wrong bits have appeared in stored words; then engine e ticks (09 R356). -/
def psTickWith (s : State) (e : Fin 8) (flips : List (Fin 48 × Fin 32)) : State :=
  let s := flips.foldl (fun s p =>
    { s with ps := { s.ps with storeErr := cellWrite 0 s.ps.storeErr p.1.val (cellRead 0 s.ps.storeErr p.1.val + p.2.val) } }) s
  s.psTick e

/-- Was engine k enabled in this cycle, with a higher number than e? Then its claim loses to e's (09 R359). -/
def psYields (s : State) (e k : Fin 8) : Bool := decide (e < k) && s.cyc.claims.any (·.1 = k)
/-- Does enabled engine k hold a channel that e would claim? -/
def psShares (s : State) (e k : Fin 8) : Bool :=
  decide (k ≠ e) && (s.eng k).en && (s.eng e).wants.any fun n => decide (n ∈ (s.eng k).channels)

/-- Why an enable of engine e is refused (09 R358). -/
def psBadPins (s : State) (e : Fin 8) : Bool :=
  !decide (s.eng e).wants.Nodup || (s.eng e).wants.any (fun n => s.paired n) ||
    (List.finRange 8).any fun k => s.psShares e k && !s.psYields e k

/-- The enable of engine e is refused (09 R358). -/
def psRefuse (s : State) (e : Fin 8) : State := (s.modEng e fun p => { p with cfgErr := true }).raisePs e pPINERR

/-- The enable of engine k in this cycle loses its channel to a lower number: it is refused after all (09 R359). -/
def psRevoke (s : State) (k : Fin 8) : State :=
  match s.cyc.claims.find? (·.1 = k) with
  | none => s
  | some (_, old) =>
    (s.modEng k fun p => { old with tx := p.tx, rx := p.rx, txWait := p.txWait, ev := p.ev, fifo := p.fifo }).psRefuse k

/-- EN written 0 to 1 (09 R358, R359, R378). -/
def psEnable (s : State) (e : Fin 8) : State :=
  if (s.eng e).en then s
  else if s.psBadPins e then s.psRefuse e
  else
    let t := foldFin 8 (fun k t => if s.psShares e k then t.psRevoke k else t) s
    (t.modEng e fun p => { p.start_ with en := true, cfgErr := false, claim0 := p.pin0, claim1 := p.pin1 }).modCyc
      fun c => { c with claims := (e, s.eng e) :: c.claims }

/-- EN written to 0 (09 R364, R382). -/
def psDisable (s : State) (e : Fin 8) : State :=
  s.modEng e fun p =>
    { p with en := false, st := if p.st = .fenced then .fenced else .off, clrHold := false, busy := 0, haltReq := false }

/-- PS_CMD.HALT, GO, TXFLUSH, RXFLUSH (09 R376, R377, R383, R384). -/
def psCmdHalt (s : State) (e : Fin 8) : State :=
  s.modEng e fun p => if p.st = .run ∨ p.st = .wait then { p with haltReq := true } else p
def psCmdGo (s : State) (e : Fin 8) : State :=
  if (s.eng e).st = .halt ∧ (s.eng e).en = true then (s.modEng e fun p => p.start_).fltBack (unitKey 5 e.val) else s
def psTxFlush (s : State) (e : Fin 8) : State :=
  let f := decide ((s.eng e).txth < (s.eng e).tx.length)
  ((s.modEng e fun p => { p with tx := [] }).modCyc fun c => { c with txNew := c.txNew.filter fun x => x.1 ≠ e }).raisePs e
    (if f then pTXLOW else 0)
def psRxFlush (s : State) (e : Fin 8) : State :=
  (s.modEng e fun p => { p with rx := [] }).modCyc fun c => { c with rxNew := c.rxNew.filter (· ≠ e) }

/-- The rank of a writer of PS_TX: the microengine, the supervisor, HP, DMA (09 R381). A link's or the service port's write
ranks as HP's. (DESIGN CHOICE, log 111.) -/
def txRank : Path → Nat
  | .me => 0
  | .sup => 1
  | .hp | .link _ | .svc => 2
def dmaRank : Nat := 3

/-- The waiting words with one more, by rank, the earlier first. -/
def waitIn (r : Nat) (w : Word) : List (Nat × Word) → List (Nat × Word)
  | [] => [(r, w)]
  | x :: xs => if r < x.1 then (r, w) :: x :: xs else x :: waitIn r w xs

/-- The TX FIFO of engine e takes one word, or refuses it when full (09 R372). -/
def psTake (s : State) (e : Fin 8) (r : Nat) (w : Word) : State :=
  if 8 ≤ (s.eng e).tx.length then s.raisePs e pTXREF
  else (s.modEng e fun p => { p with tx := p.tx ++ [w] }).modCyc fun c => { c with txNew := (e, r) :: c.txNew }

/-- A write to PS_TX by a source of rank r (09 R372, R381): the FIFO takes one word per cycle, the lowest rank first; the
others wait their turn. -/
def psTxWrite (s : State) (e : Fin 8) (r : Nat) (w : Word) : State :=
  match s.cyc.txNew.find? (·.1 = e) with
  | none => s.psTake e r w
  | some (_, old) =>
    if r < old then
      (s.modEng e fun p =>
        { p with tx := p.tx.dropLast ++ [w], txWait := waitIn old (p.tx.getLast?.getD 0) p.txWait }).modCyc
          fun c => { c with txNew := c.txNew.map fun x => if x.1 = e then (e, r) else x }
    else s.modEng e fun p => { p with txWait := waitIn r w p.txWait }

/-- A read of PS_RX, which sees the FIFO as it stood at the start of the cycle (09 R372, R380). -/
def psRxRead (s : State) (e : Fin 8) : Word × State :=
  match (s.eng e).rx.take ((s.eng e).rx.length - if e ∈ s.cyc.rxNew then 1 else 0) with
  | [] => (0, s.raisePs e pRXEMPTY)
  | w :: _ => (w, s.modEng e fun p => { p with rx := p.rx.drop 1 })

/-- The end of a core cycle at engine e: PINCLR while it runs with a pin in Clearing, TXLOW and RXHIGH where the level
crossed its threshold in the cycle (09 R366, R373). (DEDUCED, log 30.) -/
def psEnd (s : State) (e : Fin 8) : State :=
  let p := s.eng e
  let clr := (p.st == .run || p.st == .wait) && p.channels.any fun n => (s.chan n).o.inClr
  let low := decide (p.txth < p.txAt) && decide (p.tx.length ≤ p.txth)
  let high := decide (p.rxAt < p.rxth) && decide (p.rxth ≤ p.rx.length)
  s.raisePs e ((if clr then pPINCLR else 0) ||| (if low then pTXLOW else 0) ||| (if high then pRXHIGH else 0))

/-- The start of a core cycle at engine e: its divider counts, and the TX FIFO takes the next waiting word (09 R354, R381). -/
def psBegin (s : State) (e : Fin 8) : State :=
  let s := s.modEng e fun p => { p with cnt := p.cnt + 1, txAt := p.tx.length, rxAt := p.rx.length }
  match (s.eng e).txWait with
  | [] => s
  | x :: rest => (s.modEng e fun p => { p with txWait := rest }).psTake e x.1 x.2

/-- A register of engine e at offset o (09 Table 9.4). -/
def psRead (s : State) (e : Fin 8) (o : Nat) : Option (Word × State) :=
  let p := s.eng e
  let v (w : Word) : Option (Word × State) := some (w, s)
  match o with
  | 0x00 => v (packw [(p.start.toNat, 8), (b2n p.en, 0)])
  | 0x04 => v (p.div.setWidth 32)
  | 0x08 => v p.pin0
  | 0x0C => v p.pin1
  | 0x10 => v (packw [(match p.st with | .off => 0 | .run => 1 | .wait => 2 | .halt => 3 | .fenced => 4, 29),
      (b2n p.cfgErr, 28), (b2n p.t, 27), (p.pc.toNat, 20), (p.tx.length, 16), (p.rx.length, 12), (p.orr, 6), (p.ic, 0)])
  | 0x14 => v (p.ev.flag.setWidth 32)
  | 0x18 => v p.ev.readEven
  | 0x1C => v p.ev.readSvc
  | 0x20 => v 0
  | 0x24 => some (s.psRxRead e)
  | 0x28 => v (p.fifo.setWidth 32)
  | 0x2C => v 0
  | 0x30 => v (packw [(p.l1.toNat, 16), (p.l0.toNat, 0)])
  | 0x34 => v p.ow
  | 0x38 => v p.iw
  | 0x3C => v (packw [(p.ls1.toNat, 24), (p.ls0.toNat, 16), (p.ibits.toNat, 8), (p.obits.toNat, 0)])
  | _ => none

/-- A write to a register of engine e at offset o, by a source of rank r. -/
def psWrite (s : State) (r : Nat) (e : Fin 8) (o : Nat) (w : Word) : Option State :=
  let lock := s.boot.locked
  let map (f : PinSeq → PinSeq) : Option State := some (s.modEng e f)
  let rwl (f : PinSeq → PinSeq) : Option State := some (if lock then s else s.modEng e f)
  match o with
  | 0x00 =>
    let s := if lock then s else s.modEng e fun p => { p with start := .ofNat 6 (fld w 13 8) }
    some (if bit w 0 then s.psEnable e else s.psDisable e)
  | 0x04 => rwl fun p => { p with div := w.setWidth 16 }
  | 0x08 => rwl fun p => { p with pin0 := w &&& 0xBFBFBFBF }
  | 0x0C => rwl fun p => { p with pin1 := w &&& 0xBFBFBFBF }
  | 0x14 => map fun p => { p with ev := p.ev.clear w }
  | 0x18 => map fun p => { p with ev := p.ev.writeEven 0x1FF w }
  | 0x1C => map fun p => { p with ev := p.ev.writeSvc w }
  | 0x20 => some (s.psTxWrite e r w)
  | 0x28 => map fun p => { p with fifo := w.setWidth 20 &&& 0xF1F01 }
  | 0x2C =>
    let s := if bit w 2 then s.psTxFlush e else s
    let s := if bit w 3 then s.psRxFlush e else s
    some (if bit w 0 then s.psCmdHalt e else if bit w 1 then s.psCmdGo e else s)
  | 0x3C => rwl fun p => { p with ibits := .ofNat 5 (fld w 12 8), obits := .ofNat 5 (fld w 4 0) }
  | 0x10 | 0x24 | 0x30 | 0x34 | 0x38 => some s
  | _ => none

end State
end Sys2Proof.Machine
end

