-- ==== Sys2Proof/Machine/Dma.lean ====
section
/-!
DEFINITION. Machine/Dma.lean: bank port grants (11 R429–R432) and the DMA channels (11 R444–R457).
-/
namespace Sys2Proof.Machine

/-- DMA_FLAG bits (11 Table 11.10). -/
def xDONE : BitVec 5 := 0x01
def xDESCDONE : BitVec 5 := 0x02
def xREQOVR : BitVec 5 := 0x04
def xSTARVE : BitVec 5 := 0x10

/-- Fields of descriptor words 2 and 3 (11 Table 11.6). -/
def DmaChan.size (x : DmaChan) : Nat := fld x.w3 13 12
def DmaChan.sinc (x : DmaChan) : Bool := bit x.w3 11
def DmaChan.dinc (x : DmaChan) : Bool := bit x.w3 10
def DmaChan.irq (x : DmaChan) : Bool := bit x.w3 17
def DmaChan.next (x : DmaChan) : Nat := fld x.w3 31 18 * 16
def DmaChan.reqsel (x : DmaChan) : Nat := fld x.w3 7 0
def DmaChan.burstLen (x : DmaChan) : Nat := fld x.w2 23 16

/-- A REQSEL of Table 11.7; the pulse ones. -/
def reqListed (r : Nat) : Bool := r ≤ 0x12 || (0x20 ≤ r && r ≤ 0x2F)
def reqPulse (r : Nat) : Bool := r = 0x11 || r = 0x12 || (0x20 ≤ r && r ≤ 0x2F)

/-- A register a descriptor may name: PS_TX, PS_RX, ADC_RES (11 R445). -/
def dmaReg (a : Nat) : Bool :=
  (0x5000 ≤ a && a < 0x5200 && (a % 0x40 = 0x20 || a % 0x40 = 0x24)) ||
    (0x5600 ≤ a && a < 0x5740 && 0x60 ≤ (a - 0x5600) % 0xA0)
/-- A word of IV slot memory (16 R619). -/
def dmaIv (a : Nat) : Bool := decide (0x90000 ≤ a) && decide (a < 0x90800)

/-- The next address of an incrementing side; an aperture address wraps within its aperture (11 R446). -/
def dmaStep (a size : Nat) : Nat :=
  if isAperture a then 0x40000 + (a - 0x40000) / 0x4000 * 0x4000 + ((a - 0x40000) % 0x4000 + size) % 0x4000 else a + size

/-- The addresses a side can reach: its first, and the first in each further 64 bytes; rights do not change within 64 bytes
of a bank (14 R529). -/
def dmaReach (a size count : Nat) (inc : Bool) : List Nat :=
  if !inc then [a]
  else
    let last := a + size * (count - 1)
    let n := min (last / 64 - a / 64) 2048
    a :: (List.range n).map fun i =>
      let b := (a / 64 + i + 1) * 64
      if isAperture a then 0x40000 + (a - 0x40000) / 0x4000 * 0x4000 + (b - 0x40000) % 0x4000 else b

/-- Checks of one side of a descriptor other than rights (11 R445): the DMA error code, 0 when none fails. -/
def dmaSide (a size count : Nat) (inc : Bool) : Nat :=
  let last := a + 2 ^ size * (count - 1)
  if !(isMemAddr a || dmaReg a || dmaIv a) then 4
  else if dmaReg a && (size ≠ 2 || (inc && !(decide (0x5600 ≤ a) && decide (last < (a - 0x5600) / 0xA0 * 0xA0 + 0x56A0)))) then 4
  else if dmaIv a && (size ≠ 2 || (inc && decide (last / 0x400 ≠ a / 0x400))) then 4
  else if a % 2 ^ size ≠ 0 then 5
  else if inc && isBankAddr a && decide (0x3FFFF < last) then 4
  else 0

namespace State

/-- Read n words in turn. -/
def readWords (s : State) (a : Nat) : Nat → Except MemErr (List Word) × State
  | 0 => (.ok [], s)
  | n + 1 =>
    match s.memRead a 2 with
    | (.error e, s) => (.error e, s)
    | (.ok w, s) =>
      match s.readWords (a + 4) n with
      | (.error e, s) => (.error e, s)
      | (.ok ws, s) => (.ok (w :: ws), s)

/-- The check of a descriptor by the rights of OWNER and the rules of R445: its error code, 0 when it may run. (DEDUCED, log 45.) -/
def dmaCheck (s : State) (owner : Fin 256) (w0 w1 w2 w3 : Word) (dst : Nat) : Nat :=
  let src := fld w0 19 0
  let size := fld w3 13 12
  let count := fld w2 15 0
  let may (a : Nat) (inc write : Bool) : Bool :=
    (dmaReach a (2 ^ size) count inc).all fun a => s.permits owner a write 0
  let a := dmaSide src size count (bit w3 11)
  let b := dmaSide dst size count (bit w3 10)
  if !(may src (bit w3 11) false && may dst (bit w3 10) true) then 3
  else if fld w0 31 20 ≠ 0 ∨ fld w1 31 20 ≠ 0 ∨ fld w2 31 24 ≠ 0 ∨ fld w3 16 14 ≠ 0 ∨ bit w3 8 ∨ size = 3 ∨ count = 0 ∨
      reqListed (fld w3 7 0) = false then 1
  else if a ≠ 0 then a
  else if b ≠ 0 then b
  else if fld w3 31 18 ≠ 0 ∧ fld w3 31 18 * 16 < 0x20000 then 1
  else 0

/-- A channel in LOAD reads the four words of its descriptor, when none of them has to wait (11 R444, R445; 08 R328);
through NEXT, DCONT keeps the destination. -/
def dmaFetch (s : State) (c : Fin 8) : State :=
  let a := (s.dmac c).desc.toNat
  if (s.dmac c).st ≠ .load ∨ (List.range 4).any (fun i => s.waits (a + 4 * i)) then s
  else
    match s.readWords a 4 with
    | (.ok [w0, w1, w2, w3], s) =>
      let x := s.dmac c
      let dst : BitVec 20 := if x.loadNext ∧ bit w3 9 then x.dst else w1.setWidth 20
      match s.dmaCheck x.owner w0 w1 w2 w3 dst.toNat with
      | 0 =>
        s.modDma c fun x =>
          let y := { x with st := .move, src := w0.setWidth 20, dst := dst, rem := .ofNat 16 (fld w2 15 0), w2 := w2, w3 := w3, burst := 0 }
          if reqPulse y.reqsel && x.heldPulse then
            { y with heldPulse := false, burst := if y.burstLen = 0 then y.rem.toNat else y.burstLen }
          else y
      | e => s.dmaError c e
    | (_, s) => s.dmaError c 2

/-- Load the descriptor at an address (11 R444). -/
def dmaLoad (s : State) (c : Fin 8) (a : Nat) (viaNext : Bool) : State :=
  let s := s.modDma c fun x => { x with desc := .ofNat 20 a, st := .load, loadNext := viaNext }
  if !isBankAddr a then s.dmaError c 4 else s.dmaFetch c

/-- DMA_CTL.EN written to 1 by client w (11 R444, R456). -/
def dmaEnable (s : State) (c : Fin 8) (w : Fin 256) : State :=
  let x := s.dmac c
  if x.en ∧ x.st ≠ .done ∧ x.st ≠ .error then s
  else
    (s.modDma c fun x => { x with en := true, owner := w, err := 0, burst := 0, heldPulse := false, starv := false }).dmaLoad c
      (x.first.toNat * 16) false

/-- The channel with EN 0, as it reads once it has stopped (11 R450). -/
def DmaChan.off (x : DmaChan) : DmaChan :=
  { x with en := false, st := .idle, burst := 0, heldPulse := false, starv := false, wait := 0 }

/-- DMA_CTL.EN written to 0 (11 R450, R455): an error of the same cycle leaves the channel in ERROR. -/
def dmaDisable (s : State) (c : Fin 8) : State :=
  if c ∈ s.cyc.dmaErr then s.modDma c fun x => { x with en := false }
  else (s.modDma c DmaChan.off).modCyc fun y => { y with dmaOff := (c, s.dmac c) :: y.dmaOff }

/-- May channel c start a beat now? (11 R448, Table 11.7) -/
def dmaReady (s : State) (c : Fin 8) : Bool :=
  let x := s.dmac c
  let r := x.reqsel
  decide (x.st = .move) && decide (s.pwr.st = .run) &&
    (if r = 0 then true
     else if r ≤ 8 then (s.eng (Fin.ofNat 8 (r - 1))).txLine
     else if r ≤ 0x10 then (s.eng (Fin.ofNat 8 (r - 9))).rxLine
     else decide (0 < x.burst))

/-- DMA_REQ_PULSE (11 R448). -/
def dmaPulse (s : State) (c : Fin 8) : State :=
  let x := s.dmac c
  if (x.st != .move && x.st != .load) || !reqPulse x.reqsel then s
  else if x.st = .move ∧ x.burst = 0 then s.modDma c fun x => { x with burst := if x.burstLen = 0 then x.rem.toNat else x.burstLen }
  else if !x.heldPulse then s.modDma c fun x => { x with heldPulse := true }
  else s.dmaFlag c xREQOVR

/-- One unit read from a source a descriptor may name. -/
def dmaRead (s : State) (a size : Nat) : Option Word × State :=
  if isMemAddr a then
    match s.memRead a size with
    | (.ok w, s) => (some w, s)
    | (.error _, s) => (none, s)
  else if 0x90000 ≤ a then
    match s.tsiRead a with
    | some r => (some r.1, r.2)
    | none => (none, s)
  else if 0x5600 ≤ a then
    match s.afeRead a with
    | some r => (some r.1, r.2)
    | none => (none, s)
  else
    match s.psRead (Fin.ofNat 8 ((a - 0x5000) / 0x40)) (a % 0x40) with
    | some r => (some r.1, r.2)
    | none => (none, s)

/-- One unit written to a destination a descriptor may name, as the channel's owner. -/
def dmaWrite (s : State) (owner : Fin 256) (a size : Nat) (w : Word) : Bool × State :=
  if isMemAddr a then
    let r := s.memWrite a size w
    (r.1.isNone, r.2)
  else if 0x90000 ≤ a then ((s.tsiWrite owner a w).isSome, (s.tsiWrite owner a w).getD s)
  else if 0x5600 ≤ a then ((s.afeWrite owner a w).isSome, (s.afeWrite owner a w).getD s)
  else
    let e : Fin 8 := Fin.ofNat 8 ((a - 0x5000) / 0x40)
    ((s.psWrite dmaRank e (a % 0x40) w).isSome, (s.psWrite dmaRank e (a % 0x40) w).getD s)

/-- A beat is complete: addresses, counts, and what its end leads to (11 R446–R449). (DEDUCED, log 45.) -/
def dmaAfter (s : State) (c : Fin 8) : State :=
  let s := s.modDma c fun x =>
    let u := 2 ^ x.size
    let b := x.burst - 1
    let y := { x with src := if x.sinc then .ofNat 20 (dmaStep x.src.toNat u) else x.src,
                      dst := if x.dinc then .ofNat 20 (dmaStep x.dst.toNat u) else x.dst,
                      rem := x.rem - 1, burst := b, starv := false }
    if reqPulse x.reqsel && b = 0 && x.heldPulse && decide (y.rem ≠ 0) then
      { y with heldPulse := false, burst := if y.burstLen = 0 then y.rem.toNat else y.burstLen }
    else y
  let x := s.dmac c
  if x.rem ≠ 0 then s
  else
    let s := if x.irq then s.dmaFlag c xDESCDONE else s
    if x.next = 0 then (s.modDma c fun x => { x with st := .done, burst := 0 }).dmaFlag c xDONE
    else s.dmaLoad c x.next true

/-- The bank ports that the beat in hand of channel c takes: the read's and the write's. -/
def dmaPorts (s : State) (c : Fin 8) : List (Fin 8) :=
  [s.portOf (s.dmac c).src.toNat false, s.portOf (s.dmac c).dst.toNat true].filterMap id

/-- Has channel c a beat to start in this cycle: ready, with none in flight, on words and banks that serve it (11 R447, R448)? -/
def dmaAsks (s : State) (c : Fin 8) : Bool :=
  let x := s.dmac c
  s.dmaReady c && decide (x.freeAt ≤ s.time) && !s.waits x.src.toNat && !s.waits x.dst.toNat

/-- Does an ADC's waiting copy, or the tester, ask for bank b's port (11 Table 11.2)? -/
def adcAsks (s : State) (a : Fin 2) (b : Fin 8) : Bool :=
  match (s.adc a).copies with
  | [] => false
  | (e, _) :: _ => match adcAddr (s.adc a) e with
    | some p => decide (s.portOf p true = some b) && !s.waits p
    | none => false
def testerAsks (s : State) (b : Fin 8) : Bool :=
  (s.bank b).st == .on && (s.bank b).phase != .none && !s.wordHeld (s.testerAt b)

/-- Does a request of a higher rank than channel c's keep bank b's port from it in this cycle: the port's grant is made, the
tester or an ADC asks, or a lower channel does (11 R429)? -/
def dmaLoses (s : State) (c : Fin 8) (b : Fin 8) : Bool :=
  s.portUsed b || s.testerAsks b || s.adcAsks 0 b || s.adcAsks 1 b ||
    (List.finRange 8).any fun k => decide (k < c) && s.dmaAsks k && decide (b ∈ s.dmaPorts k)

/-- Cycles of an access: a bank's, or a register's (11 R447). -/
def dmaCost (a : Nat) : Nat := if isMemAddr a then 1 else 4

/-- The beat of channel c, granted: a read, then a write (11 R447, R451). -/
def dmaMove (s : State) (c : Fin 8) : State :=
  let x := s.dmac c
  let s := (s.dmaPorts c).foldl (fun s b => s.usePort (some b)) s
  let s := s.modDma c fun x => { x with wait := 0, starv := false, freeAt := s.time + dmaCost x.src.toNat + dmaCost x.dst.toNat }
  match s.dmaRead x.src.toNat x.size with
  | (none, s) => s.dmaError c 2
  | (some w, s) =>
    match s.dmaWrite x.owner x.dst.toNat x.size w with
    | (false, s) => s.dmaError c 2
    | (true, s) => s.dmaAfter c

/-- Channel c as it stood before a disable of this cycle, whose beat in hand still completes (11 R450). -/
def dmaLast (s : State) (c : Fin 8) : State :=
  match s.cyc.dmaOff.find? (·.1 = c) with
  | some (_, x) => (s.modDma c fun y => { x with en := false, flag := y.flag, ien := y.ien }).modCyc fun y =>
      { y with dmaOff := y.dmaOff.filter (·.1 ≠ c) }
  | none => s

/-- DMA_BEAT: the accesses of channel c's beat are granted, where nothing of a higher rank takes their ports (11 R429,
R447–R451, R455). (DEDUCED, log 45.) -/
def dmaBeat (s : State) (c : Fin 8) : State :=
  let t := s.dmaLast c
  if t.dmaAsks c && !((t.dmaPorts c).any fun b => t.dmaLoses c b) then
    let t := t.dmaMove c
    if (t.dmac c).en || (t.dmac c).st = .error then t else t.modDma c DmaChan.off
  else s

/-- A core cycle of channel c: a load tries its words again; an access that waits counts its cycles (11 R432, R444). -/
def dmaCycle (s : State) (c : Fin 8) : State :=
  let s := s.dmaFetch c
  s.modDma c fun x =>
    if s.dmaReady c && decide (x.freeAt ≤ s.time) then
      { x with wait := x.wait + 1, maxWait := if x.maxWait.toNat < x.wait + 1 then satOf 16 (x.wait + 1) else x.maxWait }
    else { x with wait := 0, starv := false }

/-- DMA_STARVE: 4,096 cycles without a grant (11 R432). -/
def dmaStarve (s : State) (c : Fin 8) : State :=
  if 4096 ≤ (s.dmac c).wait then (s.modDma c fun x => { x with starv := true }).dmaFlag c xSTARVE else s

/-! ## Bank port grants -/

/-- A port grant to ADC a's oldest waiting copy, where nothing of a higher rank asks (10 R401; 11 R429). -/
def adcGrant (s : State) (a : Fin 2) : State :=
  match (s.adc a).copies with
  | [] => s
  | (e, code) :: rest =>
    match adcAddr (s.adc a) e with
    | none => s.modAdc a fun x => { x with copies := rest }
    | some p =>
      let b := s.portOf p true
      let lost := b.any fun b => s.portUsed b || s.testerAsks b || (decide (a = 1) && s.adcAsks 0 b)
      if s.waits p || lost then s
      else ((s.usePort b).modAdc a fun x => { x with copies := rest }).memWrite p 1 (code.setWidth 32) |>.2

/-- A read the port grants: the word goes to the answer record (11 R426, R427). (DEDUCED, log 44.) -/
def grantRead (s : State) (a : Nat) (size : Nat) : State :=
  match s.memRead a size with
  | (.ok w, s) => s.answer w
  | (.error _, s) => s

/-- A corrected word is written back in a cycle in which nothing else asks for the port (11 R426, R429). (DEDUCED, log 44.) -/
def backGrant (s : State) (b : Fin 8) : State :=
  if s.dmaLoses 0 b || (List.finRange 8).any (fun k => s.dmaAsks k && decide (b ∈ s.dmaPorts k)) ||
      s.mem.wb.any (fun a => decide (bankOf a = b) && s.waits a) then s
  else (s.usePort (some b)).bankWriteBack b

/-- BANK_ACCESS_GRANT: the port serves one request, one in a cycle (11 R424–R430); `flips` raw bits of the word it reaches have
turned wrong before. A word an atomic holds, and a bank that serves none yet, make it wait (08 R328; 03 R98; R462); a misaligned
access is none of a bank's (R424). (DESIGN CHOICE, log 7.) -/
def bankGrant (s : State) (q : BankReq) (flips : Nat) : Host.Outcome State Fault Refusal :=
  match q with
  | .read addr size =>
    let a := addr.toNat
    if !isMemAddr a then .fault .noAddress
    else if a % 2 ^ size.val ≠ 0 ∨ s.waits a ∨ (s.portOf a false).any s.portUsed then .next s
    else .next (((s.usePort (s.portOf a false)).flipBits a flips).grantRead a size.val)
  | .write addr size data =>
    let a := addr.toNat
    if !isMemAddr a then .fault .noAddress
    else if a % 2 ^ size.val ≠ 0 ∨ s.waits a ∨ (s.portOf a true).any s.portUsed then .next s
    else .next (((s.usePort (s.portOf a true)).flipBits a flips).memWrite a size.val data).2
  | .tester b fail => .next (if s.portUsed b then s else (s.usePort (some b)).testerAccess b fail)
  | .adc a => .next (s.adcGrant a)
  | .writeBack b => .next (s.backGrant b)

/-! ## Registers (11 Tables 11.9, 11.10) -/

def memRegRead (s : State) (a : Nat) : Option (Word × State) :=
  let v (w : Word) : Option (Word × State) := some (w, s)
  if 0x5C00 ≤ a ∧ a < 0x5C20 then v (s.readBstat (Fin.ofNat 8 ((a - 0x5C00) / 4)))
  else if 0x5C20 ≤ a ∧ a < 0x5C40 then v (s.readEcc (Fin.ofNat 8 ((a - 0x5C20) / 4)))
  else if 0x5C80 ≤ a ∧ a < 0x5D00 then
    let w := s.cwin (Fin.ofNat 16 ((a - 0x5C80) / 8))
    v (if a % 8 = 0 then packw [(b2n w.en, 31), (w.base.toNat, 6)] else packw [(w.log2.toNat, 0)])
  else match a with
    | 0x5C40 => v (packw [(s.mem.ekind.toNat, 30), (s.mem.eaddr.toNat, 0)])
    | 0x5C44 => v (s.mem.tctl.setWidth 32)
    | 0x5C48 => v (s.mem.flag.setWidth 32)
    | 0x5C4C => v (s.mem.ien.setWidth 32)
    | 0x5C50 => v 0
    | _ => none

def memRegWrite (s : State) (a : Nat) (w : Word) : Option State :=
  if 0x5C80 ≤ a ∧ a < 0x5D00 then
    let n := Fin.ofNat 16 ((a - 0x5C80) / 8)
    some (if a % 8 = 0 then s.writeCwBase n w else s.writeCwSize n w)
  else match a with
    | 0x5C44 => some (s.writeTctl w)
    | 0x5C48 => some (s.modMem fun m => { m with flag := m.flag &&& ~~~(w.setWidth 7) })
    | 0x5C4C => some (s.modMem fun m => { m with ien := w.setWidth 7 })
    | 0x5C50 => some (if bit w 0 then s.readmit (Fin.ofNat 8 (fld w 10 8)) else s)
    | _ => (s.memRegRead a).map fun _ => s

/-- (DEDUCED, log 45.) -/
def dmaStat (s : State) (c : Fin 8) : Word :=
  let x := s.dmac c
  let st := match x.st with
    | .idle => 0 | .load => 1 | .wait => 2 | .move => (if s.dmaReady c then 3 else 2) | .done => 4 | .error => 5
  packw [(st, 28), (x.err.toNat, 24), (x.desc.toNat, 0)]

def dmaRegRead (s : State) (a : Nat) : Option (Word × State) :=
  let v (w : Word) : Option (Word × State) := some (w, s)
  if 0x6000 ≤ a ∧ a < 0x6100 then
    let c : Fin 8 := Fin.ofNat 8 ((a - 0x6000) / 0x20)
    let x := s.dmac c
    match a % 0x20 with
    | 0x00 => v (packw [(x.owner.val, 24), (b2n x.en, 0)])
    | 0x04 => v (packw [(x.first.toNat, 4)])
    | 0x08 => v (s.dmaStat c)
    | 0x0C => v (x.src.setWidth 32)
    | 0x10 => v (x.dst.setWidth 32)
    | 0x14 => some (packw [(x.maxWait.toNat, 16), (x.rem.toNat, 0)], s.modDma c fun x => { x with maxWait := 0 })
    | 0x18 => v (x.flag.setWidth 32)
    | _ => v (x.ien.setWidth 32)
  else if a = 0x6100 then
    v (packw ((List.finRange 8).map (fun c => (b2n (s.dmac c).starv, 8 + c.val)) ++
      (List.finRange 8).map fun c => (b2n (decide ((s.dmac c).st = .load ∨ (s.dmac c).st = .wait ∨ (s.dmac c).st = .move)), c.val)))
  else none

def dmaRegWrite (s : State) (w : Fin 256) (a : Nat) (d : Word) : Option State :=
  if 0x6000 ≤ a ∧ a < 0x6100 then
    let c : Fin 8 := Fin.ofNat 8 ((a - 0x6000) / 0x20)
    match a % 0x20 with
    | 0x00 => some (if bit d 0 then s.dmaEnable c w else s.dmaDisable c)
    | 0x04 => some (s.modDma c fun x => { x with first := .ofNat 16 (fld d 19 4) })
    | 0x18 => some (s.modDma c fun x => { x with flag := x.flag &&& ~~~(d.setWidth 5) })
    | 0x1C => some (s.modDma c fun x => { x with ien := d.setWidth 5 })
    | _ => some s
  else if a = 0x6100 then some s
  else none

end State
end Sys2Proof.Machine
end

