-- ==== Sys2Proof/Machine/Irq.lean ====
section
/-!
DEFINITION. Machine/Irq.lean: the interrupt controller (12): source lines, pending, pins, the supervisor target.
-/
namespace Sys2Proof.Machine

/-- INTC_FLAG bits (12 Table 12.7). -/
def iWWR : BitVec 3 := 1
def iCERR : BitVec 3 := 2
def iPSREF : BitVec 3 := 4

/-- A reserved source (12 Table 12.3). -/
def reservedSrc (n : Nat) : Bool :=
  (108 ≤ n && n ≤ 111) || (135 ≤ n && n ≤ 139) || (148 ≤ n && n ≤ 150) || (160 ≤ n)

/-- The sources that exist, one bit each. -/
def srcMask : BitVec 192 :=
  (List.range 160).foldl (fun m n => if reservedSrc n then m else m ||| oneBit 192 n) 0

/-- Word w of a per-source array, and the array with that word replaced. -/
def srcWord (b : BitVec 192) (w : Nat) : Word := (b >>> (32 * w)).setWidth 32
def srcPut (b : BitVec 192) (w : Nat) (x : Word) : BitVec 192 :=
  (b &&& ~~~((0xFFFFFFFF : BitVec 192) <<< (32 * w))) ||| ((x.setWidth 192 <<< (32 * w)) &&& srcMask)

namespace State

/-- The condition of each block that asserts its source (12 Table 12.1, R464). (DEDUCED, log 46.) -/
def srcLine (s : State) (n : Nat) : Bool :=
  if n < 64 then (s.chan (Fin.ofNat 64 n)).ev.line
  else if n < 72 then
    let g : Fin 8 := Fin.ofNat 8 (n - 64)
    (groveChans g).any (fun c => fld (s.chan c).o.ostat 7 0 &&& fld (s.chan c).o.ocfg 23 16 ≠ 0) ||
      ((s.grove g).rdmDone && (s.grove g).rdmIe)
  else if n < 75 then (s.ad (Fin.ofNat 3 (n - 72))).ev.line
  else if n < 80 then bit (s.tt.flag &&& s.tt.ien) (n - 75)
  else if n < 88 then bit s.me.sig (n - 80)
  else if n < 96 then (s.eng (Fin.ofNat 8 (n - 88))).ev.line
  else if n < 102 then
    let x := at_ s.afe.itrip (Fin.ofNat 6 (n - 96))
    x.latch && bit x.cfg 28
  else if n < 104 then (s.adc (Fin.ofNat 2 (n - 102))).ev.line
  else if n = 104 then s.afe.sflag ≠ 0 && bit s.afe.ien 0
  else if n = 105 then s.afe.cal.flag ≠ 0 && bit s.afe.ien 1
  else if n = 106 then s.afe.sig.flag ≠ 0 && bit s.afe.ien 2
  else if n = 107 then s.afe.health ≠ 0 && bit s.afe.ien 3
  else if n < 112 then false
  else if n < 128 then
    let h := s.link (Fin.ofNat 4 ((n - 112) / 4))
    let m : BitVec 15 := match (n - 112) % 4 with
      | 0 => 0x007F | 1 => 0x1080 | 2 => 0x2E00 | _ => 0x4100
    h.flag &&& h.ien &&& m ≠ 0
  else if n = 128 then s.tsi.ev.flag &&& s.tsi.ev.ien &&& 0x07 ≠ 0
  else if n = 129 then s.tsi.ev.flag &&& s.tsi.ev.ien &&& 0x78 ≠ 0
  else if n = 130 then s.pm.flag &&& s.pm.ien &&& 0x17 ≠ 0
  else if n = 131 then s.pm.flag &&& s.pm.ien &&& 0x08 ≠ 0
  else if n = 132 then s.mem.flag &&& s.mem.ien ≠ 0
  else if n = 133 then (List.finRange 4).any fun k => (s.dmac (Fin.ofNat 8 k.val)).flag &&& (s.dmac (Fin.ofNat 8 k.val)).ien ≠ 0
  else if n = 134 then (List.finRange 4).any fun k => (s.dmac (Fin.ofNat 8 (4 + k.val))).flag &&& (s.dmac (Fin.ofNat 8 (4 + k.val))).ien ≠ 0
  else if n < 140 then false
  else if n < 142 then
    let x := s.smbc (Fin.ofNat 2 (n - 140))
    x.flag &&& x.ien ≠ 0
  else if n < 146 then
    let x := s.mspm (Fin.ofNat 2 ((n - 142) / 2))
    x.flag &&& x.ien &&& (if n % 2 = 0 then 0x01F else 0x1E0) ≠ 0
  else if n = 146 then s.upd.flag &&& s.upd.ien ≠ 0
  else if n = 147 then s.svc.flag &&& s.svc.ien ≠ 0
  else if n < 151 then false
  else if n = 151 then s.rs.flag &&& s.rs.ien ≠ 0
  else if n < 160 then bit (s.flt.flag &&& s.flt.ien) (n - 152)
  else false

/-- The line of source n: those of PD2–PD7 are deasserted while these domains are held in reset (12 R464, R490). -/
def lineOf (s : State) (n : Nat) : Bool := (s.pwr.pdUp || decide (140 ≤ n)) && s.srcLine n

/-- The controller as it selects in this cycle: a write to a priority, an enable or a threshold takes effect from the next
(12 R484). -/
def sel (s : State) : Intc :=
  match s.cyc.intcWas with
  | some w => { s.intc with pri := w.pri, sen := w.sen, pen := w.pen, thr := w.thr }
  | none => s.intc
/-- A write to a priority, an enable or a threshold comes. -/
def keepSel (s : State) : State :=
  if s.cyc.intcWas.isSome then s else s.modCyc fun c => { c with intcWas := some s.intc }

def priOf (s : State) (n : Nat) : Nat := (cellRead (0xF : BitVec 4) s.sel.pri n).toNat
def intcFlag (s : State) (b : BitVec 3) : State := (s.modIntc fun x => { x with flag := x.flag ||| b }).hwSet 0x940 (b.setWidth 32)

/-- The most urgent pending source with its enable set and a priority below a level: lower priority number, then lower
source number (12 R467, R468). One that became pending in this cycle counts from the next (R465). -/
def bestSrc (s : State) (en : BitVec 192) (thr : Nat) : Option (Fin 192) :=
  leastBy (fun n => [s.priOf n.val, n.val])
    ((List.finRange 192).filter fun n => bit (s.intc.pend &&& ~~~s.cyc.pended &&& en) n.val && decide (s.priOf n.val < thr))

/-- The most urgent source qualified for pin n (12 R468). -/
def pinBest (s : State) (n : Fin 4) : Option (Fin 192) :=
  s.bestSrc (at_ s.sel.pen n) (s.sel.thr[n.val + 1]).toNat

/-- IRQn_N at the pad; released while PD1 is down (12 R471, R488). -/
def irqOn (s : State) (n : Fin 4) : Bool := s.pwr.pd1Up && bit s.intc.irqPad n.val

/-- The end of a cycle at the controller: a pin is asserted in the cycle after one in which a source is qualified, and its pad
follows a cycle later (12 R471). -/
def irqCycle (s : State) : State :=
  let q := (List.finRange 4).foldl (fun (m : BitVec 4) n => if (s.pinBest n).isSome then m ||| oneBit 4 n.val else m) 0
  s.modIntc fun x => { x with irqPad := x.irq, irq := q }

/-- The supervisor's current level (12, before R476). -/
def supLevel (s : State) : Nat :=
  match s.intc.handlers with
  | [] => 16
  | h :: _ => h.2

/-- The most urgent source taken by S (12, before R476). -/
def supBest (s : State) : Option (Fin 192) := s.bestSrc s.sel.sen (min (s.sel.thr[0]).toNat s.supLevel)

/-- INTC_PEND: an asserted source that is neither pending nor in service becomes pending (12 R465); while the INTC is off the
Canopy catches it (03 R91). (DEDUCED, log 46.) -/
def intcPend (s : State) (n : Fin 192) : State :=
  if !s.lineOf n.val || reservedSrc n.val then s
  else if !s.pwr.pd1Up then s.modCanopy fun c => { c with catch_ := c.catch_ ||| oneBit 192 n.val }
  else if bit s.intc.pend n.val || bit s.intc.insv n.val then s
  else
    (s.modIntc fun x => { x with pend := x.pend ||| oneBit 192 n.val }).modCyc fun c => { c with pended := c.pended ||| oneBit 192 n.val }

/-- A source is claimed by a target: 0 the supervisor, 1 + n pin n. A software set of the same cycle is refused (12 R483). -/
def claimSrc (s : State) (n : Fin 192) (target : Nat) : State :=
  let s := if bit s.cyc.pset n.val then s.intcFlag iPSREF else s
  s.modIntc fun x =>
    { x with pend := x.pend &&& ~~~(oneBit 192 n.val), insv := x.insv ||| oneBit 192 n.val,
             claimant := cellInsert n.val target x.claimant }

/-- A source leaves service. -/
def leaveSrc (s : State) (n : Fin 192) : State :=
  s.modIntc fun x => { x with insv := x.insv &&& ~~~(oneBit 192 n.val), claimant := cellErase n.val x.claimant }

/-- A CLAIM read of pin n (12 R472, R473). -/
def intcClaim (s : State) (n : Fin 4) : Word × State :=
  match s.pinBest n with
  | none => (0, s)
  | some k =>
    (packw [(1, 31), (k.val, 0)],
      (s.claimSrc k (1 + n.val)).modIntc fun x => { x with last := vset x.last n fun _ => some k })

/-- A write to INTC_COMPLETEn (12 R474). -/
def intcComplete (s : State) (n : Fin 4) (k : Nat) : State :=
  if h : k < 192 then
    if bit s.intc.insv k && decide (cellRead 0 s.intc.claimant k = 1 + n.val) then
      let s := s.leaveSrc ⟨k, h⟩
      if s.lineOf k then s.modIntc fun x => { x with pend := x.pend ||| oneBit 192 k } else s
    else s.intcFlag iCERR
  else s.intcFlag iCERR

/-- A write to INTC_PSETw (12 R466). -/
def intcPset (s : State) (w : Nat) (v : Word) : State :=
  let b := srcPut 0 w v
  let new := b &&& ~~~(s.intc.insv ||| s.intc.pend)
  let s := s.modCyc fun c => { c with pended := c.pended ||| new, pset := c.pset ||| b }
  let s := s.modIntc fun x => { x with pend := x.pend ||| (b &&& ~~~x.insv) }
  if b &&& s.intc.insv ≠ 0 then s.intcFlag iPSREF else s

/-- A write to INTC_PCLRw: a source that became pending in this cycle stays so (12 R465, R482). -/
def intcPclr (s : State) (w : Nat) (v : Word) : State :=
  let b := srcPut 0 w v
  s.modIntc fun x => { x with pend := x.pend &&& ~~~(b &&& ~~~s.cyc.pended) }

/-- A write to an enable array: no source is enabled for S and a pin (12 R469). Target 0 is S, 1 + n pin n. -/
def intcEnable (s : State) (target : Fin 5) (w : Nat) (v : Word) : State :=
  let pins := s.intc.pen.toList.foldl (fun (a : BitVec 192) b => a ||| b) 0
  let other := if target = 0 then pins else s.intc.sen
  let old := if target = 0 then s.intc.sen else s.intc.pen[target.val - 1]
  let new := srcPut old w v
  let clash := new &&& ~~~old &&& other
  let new := new &&& ~~~clash
  let s := s.keepSel
  let s := if target = 0 then s.modIntc fun x => { x with sen := new }
           else s.modIntc fun x => { x with pen := vset x.pen (Fin.ofNat 4 (target.val - 1)) fun _ => new }
  if clash ≠ 0 then s.intcFlag iWWR else s

/-- A write to INTC_PRIw. -/
def intcPri (s : State) (w : Nat) (v : Word) : State :=
  let put (m : List (Nat × BitVec 4)) (i : Nat) : List (Nat × BitVec 4) :=
    if reservedSrc (8 * w + i) then m else cellWrite 0xF m (8 * w + i) (.ofNat 4 (fld v (4 * i + 3) (4 * i)))
  s.keepSel.modIntc fun x => { x with pri := (List.range 8).foldl put x.pri }

/-- SUP_ENTRY: the entry sequence with any late arrival: the most urgent source taken is claimed for S (12 R476–R478). (DEDUCED, log 46.) -/
def supEntry (s : State) : State :=
  match s.supBest with
  | none => s
  | some k =>
    if 16 ≤ s.intc.handlers.length ∨ s.flt.supReset then s
    else (s.claimSrc k 0).modIntc fun x => { x with handlers := (k, s.priOf k.val) :: x.handlers }

/-- SUP_EXIT: the handler's in-service bit clears, the level returns, and a more urgent source chains (12 R479, R480). -/
def supExit (s : State) : State :=
  match s.intc.handlers with
  | [] => s
  | h :: rest => ((s.leaveSrc h.1).modIntc fun x => { x with handlers := rest }).supEntry

/-! ## Registers (12 Tables 12.5–12.7) -/

def intcRead (s : State) (a : Nat) : Option (Word × State) :=
  let x := s.intc
  let v (w : Word) : Option (Word × State) := some (w, s)
  let o := a - 0x800
  if a < 0x800 ∨ 0xC00 ≤ a then none
  else if o < 0x60 then
    v (packw ((List.range 8).map fun i =>
      (if reservedSrc (8 * (o / 4) + i) then 0 else (cellRead (0xF : BitVec 4) x.pri (8 * (o / 4) + i)).toNat, 4 * i)))
  else if 0x80 ≤ o ∧ o < 0x98 then v (srcWord x.pend ((o - 0x80) / 4))
  else if 0xA0 ≤ o ∧ o < 0xB8 then v 0
  else if 0xC0 ≤ o ∧ o < 0xD8 then v 0
  else if 0xE0 ≤ o ∧ o < 0xF8 then v (packw ((List.range 32).map fun i => (b2n (s.lineOf (32 * ((o - 0xE0) / 4) + i)), i)))
  else if 0x100 ≤ o ∧ o < 0x118 then v (srcWord x.insv ((o - 0x100) / 4))
  else if 0x120 ≤ o ∧ o < 0x138 then v (srcWord x.sen ((o - 0x120) / 4))
  else if o = 0x138 then v (x.thr[0].setWidth 32)
  else if o = 0x13C then
    v (packw [((x.handlers.head?.map fun h => h.1.val).getD 0, 16), (s.supLevel, 8), (x.handlers.length, 0)])
  else if o = 0x140 then v (x.flag.setWidth 32)
  else if 0x200 ≤ o ∧ o < 0x300 then
    let n : Fin 4 := Fin.ofNat 4 ((o - 0x200) / 0x40)
    let p := o % 0x40
    if p < 0x18 then v (srcWord (at_ x.pen n) (p / 4))
    else match p with
      | 0x18 => v ((at_ x.pcfg n).setWidth 32)
      | 0x1C => v (x.thr[n.val + 1].setWidth 32)
      | 0x20 => some (s.intcClaim n)
      | 0x24 => v 0
      | 0x28 => v (match at_ x.last n with | some k => packw [(1, 31), (k.val, 0)] | none => 0)
      | 0x2C => v (packw [(b2n (bit x.irq n.val), 16), (((s.pinBest n).map Fin.val).getD 0, 0)])
      | _ => none
  else none

def intcWrite (s : State) (a : Nat) (w : Word) : Option State :=
  let o := a - 0x800
  if a < 0x800 ∨ 0xC00 ≤ a then none
  else if o < 0x60 then some (s.intcPri (o / 4) w)
  else if 0xA0 ≤ o ∧ o < 0xB8 then some (s.intcPset ((o - 0xA0) / 4) w)
  else if 0xC0 ≤ o ∧ o < 0xD8 then some (s.intcPclr ((o - 0xC0) / 4) w)
  else if 0x120 ≤ o ∧ o < 0x138 then some (s.intcEnable 0 ((o - 0x120) / 4) w)
  else if o = 0x138 then some (s.keepSel.modIntc fun x => { x with thr := vset x.thr 0 fun _ => w.setWidth 5 })
  else if o = 0x140 then some (s.modIntc fun x => { x with flag := x.flag &&& ~~~(w.setWidth 3) })
  else if 0x200 ≤ o ∧ o < 0x300 then
    let n : Fin 4 := Fin.ofNat 4 ((o - 0x200) / 0x40)
    let p := o % 0x40
    if p < 0x18 then some (s.intcEnable (Fin.ofNat 5 (n.val + 1)) (p / 4) w)
    else match p with
      | 0x18 => some (s.modIntc fun x => { x with pcfg := vset x.pcfg n fun _ => w.setWidth 9 })
      | 0x1C => some (s.keepSel.modIntc fun x => { x with thr := vset x.thr (Fin.ofNat 5 (n.val + 1)) fun _ => w.setWidth 5 })
      | 0x24 => some (s.intcComplete n (fld w 7 0))
      | 0x20 | 0x28 | 0x2C => some s
      | _ => none
  else if (0x80 ≤ o ∧ o < 0x98) ∨ (0xE0 ≤ o ∧ o < 0xF8) ∨ (0x100 ≤ o ∧ o < 0x118) ∨ o = 0x13C then some s
  else none

end State
end Sys2Proof.Machine
end

