-- ==== Sys2Proof/Machine/Flt.lean ====
section
/-!
DEFINITION. Machine/Flt.lean: the fault block (19): records, classes, fences, lifts and returns, Roll Call, its registers.
-/
namespace Sys2Proof.Machine

/-- FLT_FLAG bits (19 Table 19.9). -/
def qREC : BitVec 8 := 0x01
def qTRANSIENT : BitVec 8 := 0x02
def qLASTING : BitVec 8 := 0x04
def qSILENT : BitVec 8 := 0x08
def qLIFT : BitVec 8 := 0x10
def qCENSUS : BitVec 8 := 0x20
def qLOGFULL : BitVec 8 := 0x40
def qWWR : BitVec 8 := 0x80

/-- What FLT does for a report (19 Table 19.1). -/
inductive FltAct
  | report
  /-- The supervisor restarts. -/
  | restart
  /-- The census twins disagree: forced Clearing. -/
  | census
  /-- The block has fenced the units itself. -/
  | own (units : List Nat)
  | fence (units : List Nat)
  deriving DecidableEq, Repr

/-- The units a record's containment fences. -/
def FltAct.units : FltAct → List Nat
  | .own us => us
  | .fence us => us
  | _ => []
/-- The block has fenced the unit itself. -/
def FltAct.isOwn : FltAct → Bool
  | .own _ => true
  | _ => false

/-- Kind and index of a unit number. -/
def unitKind (u : Nat) : Nat := u / 256
def unitIx (u : Nat) : Nat := u % 256

/-- Does the unit exist, and may a command name it (19 R715, Table 19.10)? -/
def namedUnit (kind index : Nat) : Bool :=
  match kind with
  | 1 => decide (index < 64)
  | 2 | 5 | 8 => decide (index < 8)
  | 3 => decide (index < 3)
  | 4 => decide (index = 0)
  | 6 | 10 => decide (index < 2)
  | 7 => decide (index < 4)
  | 9 => decide (1 ≤ index) && decide (index ≤ 254)
  | _ => false

namespace State

def fltUnit (s : State) (u : Nat) : FltUnit := cellRead {} s.flt.units u
def modUnit (s : State) (u : Nat) (f : FltUnit → FltUnit) : State :=
  s.modFlt fun x => { x with units := cellWrite {} x.units u (f (cellRead {} x.units u)) }
def fltFlag (s : State) (b : BitVec 8) : State :=
  (s.modFlt fun x => { x with flag := x.flag ||| b }).hwSet 0xC81C (b.setWidth 32)

/-- The supervisor firmware has started (02 Table 2.3 step 11): Roll Call runs from then (19 R703). -/
def supStarted (s : State) : Bool :=
  s.pwr.pd1Up && (match s.boot.st with | .running | .unlocked | .noConfig => true | _ => false)

/-! ## Fences and lifts by kind of unit (01 Table 1.4, R19) -/

/-- The microengine's fence ends (07 R298, R308): IDLE, or STOPPED when EN is 0, with an empty calendar and no request; its
channels' FENCE turns into READMIT. (DEDUCED, log 109.) -/
def meUnfence (s : State) : State :=
  let s := if s.tt.reqs = [] ∧ s.calFree = 1024 then s else s.bulkCancel xMEFENCE
  let s := s.modMe fun m => { m with st := if s.boot.applied && m.en then .idle else .stopped }
  foldFin 64 (fun n s => s.unfenceChan n fnMe) s

/-- FLT fences one unit. -/
def fenceUnit (s : State) (u : Nat) : State :=
  let i := unitIx u
  match unitKind u with
  | 1 => s.fenceChan (Fin.ofNat 64 i) fnChan
  | 2 => s.fenceGrove (Fin.ofNat 8 i)
  | 3 => s.fenceAd (Fin.ofNat 3 i)
  | 4 => s.meFence 5
  | 5 => s.fencePs (Fin.ofNat 8 i)
  | 6 => s.fenceAdc (Fin.ofNat 2 i)
  | 7 => s.fenceLink (Fin.ofNat 4 i)
  | 8 => s.fenceBank (Fin.ofNat 8 i)
  | 9 => s.fenceClient (Fin.ofNat 256 i) 3
  | 10 => s.fenceSmb (Fin.ofNat 2 i)
  | _ => s

/-- The supervisor starts the copy for the links it re-admits, when none and no swap is in hand (16 Table 16.2 step 3). -/
def supCopy (s : State) : State :=
  if s.flt.admMask ≠ 0 ∧ s.tsi.copying = false ∧ s.tsi.pend.isNone = true then s.tsiCopy 0 else s

/-- TSI_COPY_DONE: the supervisor then asks for the swap that admits its links (16 Table 16.2 step 4). -/
def copyDone (s : State) : State :=
  let s := s.tsiCopyDone
  if s.flt.admMask ≠ 0 ∧ s.tsi.copying = false ∧ s.tsi.pend.isNone = true then
    (s.tsiSwapReq 0 s.flt.admMask).modFlt fun x => { x with admMask := 0 }
  else s

/-- The supervisor's step for a lifted unit, as client 0 (19 R712, Table 19.4). (DEDUCED, log 67.) -/
def supStep (s : State) (u : Nat) : State :=
  let i := unitIx u
  match unitKind u with
  | 7 => (s.modFlt fun x => { x with admMask := x.admMask ||| oneBit 4 i }).supCopy
  | 8 => if (s.bank (Fin.ofNat 8 i)).st = .fenced then s.readmit (Fin.ofNat 8 i) else s
  | 9 => s.restoreCmd (Fin.ofNat 256 i)
  | _ => s

/-- A running supervisor takes the steps that wait for it (19 R701, R712). -/
def supSteps (s : State) : State :=
  if s.flt.supReset then s
  else s.flt.steps.foldl (fun s u => s.supStep u) (s.modFlt fun x => { x with steps := [] })

/-- The fence of one unit ends; the unit returns by its own mechanics (19 Table 19.4). (DEDUCED, log 63.) -/
def liftUnit (s : State) (u : Nat) : State :=
  let i := unitIx u
  let ret (s : State) : State := s.modUnit u fun x => { x with st := .returning, targets := [] }
  let s := ret s
  match unitKind u with
  | 1 => s.unfenceChan (Fin.ofNat 64 i) fnChan
  | 2 => s.unfenceGrove (Fin.ofNat 8 i)
  | 3 => s.unfenceAd (Fin.ofNat 3 i)
  | 4 => s.meUnfence
  | 5 => s.unfencePs (Fin.ofNat 8 i)
  | 6 => (s.unfenceAdc (Fin.ofNat 2 i)).fltBack u
  | 7 => s.unfenceLink (Fin.ofNat 4 i)
  | 10 => s.unfenceSmb (Fin.ofNat 2 i)
  | _ => s

/-- Has the unit a step for the supervisor? -/
def hasSupStep (u : Nat) : Bool := unitKind u == 7 || unitKind u == 8 || unitKind u == 9

/-- Is the unit held by a fence charged to a unit other than `u`? -/
def heldElse (s : State) (u t : Nat) : Bool := s.flt.units.any fun p => p.1 ≠ u && p.2.targets.contains t
def heldAny (s : State) (t : Nat) : Bool := s.flt.units.any fun p => p.2.targets.contains t

/-- The channels a unit's fence touches (01 Table 1.4). -/
def unitChans (s : State) (u : Nat) : List (Fin 64) :=
  let i := unitIx u
  match unitKind u with
  | 1 => [Fin.ofNat 64 i]
  | 2 => groveChans (Fin.ofNat 8 i)
  | 3 => (List.finRange 64).filter fun n => decide ((s.chan n).o.domain = i + 1)
  | 4 => List.finRange 64
  | 9 => (List.finRange 64).filter fun n => grants (s.client (Fin.ofNat 256 i)) n
  | _ => []

/-- FLT lifts the fence charged to a unit, with every unit fenced with it (19 R710–R712). -/
def lift (s : State) (u : Nat) : State :=
  let free := (s.fltUnit u).targets.filter fun t => !s.heldElse u t
  let cs := readers s 14
  let owners := (free.flatMap s.unitChans).map s.owner
  let told := (List.finRange 256).filter fun c => cs.contains c || owners.contains c
  let s := s.modUnit u fun x => { x with st := .inService, targets := [] }
  let s := free.foldl (fun s t => s.liftUnit t) s
  let s := (s.modFlt fun x => { x with steps := x.steps ++ free.filter hasSupStep }).supSteps
  (s.fltFlag qLIFT).postAll 4 told 0x29 true 0 (packw [(unitKind u, 24), (unitIx u, 0)]) 0 0

/-! ## Records (19 R700–R709, R716–R724) -/

/-- Every enabled domain with an input from SENS n. -/
def domsOfSens (s : State) (n : Nat) : List Nat :=
  ((List.finRange 3).filter fun d =>
    let a := s.ad d
    a.en && ((List.range (if a.scheme = 3 then 3 else 1)).any fun i => decide (fld a.src (4 * i + 3) (4 * i) = n))).map
    fun d => unitKey 3 d.val

/-- The groves a mask names. -/
def groveUnits (m : BitVec 8) : List Nat := ((List.range 8).filter fun g => bit m g).map (unitKey 2)

/-- Both ADCs, every enabled domain, every grove named by an enabled ITRIP (mechanism 0x11). -/
def afeUnits (s : State) : List Nat :=
  let doms := ((List.finRange 3).filter fun d => (s.ad d).en).map fun d => unitKey 3 d.val
  let gs := (List.finRange 6).foldl (fun (m : BitVec 8) n =>
    let x := at_ s.afe.itrip n
    if x.en then m ||| .ofNat 8 (fld x.cfg 7 0) else m) 0
  [unitKey 6 0, unitKey 6 1] ++ doms ++ groveUnits gs

/-- The action of a silent slot (19 Table 19.2). -/
def slotAction (s : State) (k : Nat) : FltAct :=
  if k = 0 then .census
  else if k = 1 then .restart
  else if k = 2 ∨ k = 3 then .fence [unitKey 4 0]
  else if k = 4 then .fence ((List.range 8).map (unitKey 5))
  else if k = 5 then .fence ((List.range 4).map (unitKey 2))
  else if k = 6 then .fence ((List.range 4).map fun g => unitKey 2 (4 + g))
  else if k = 7 then .fence ((List.range 3).map (unitKey 3))
  else if 8 ≤ k ∧ k ≤ 15 then .fence [unitKey 8 (k - 8)]
  else if k = 16 then .fence s.afeUnits
  else if k = 17 then .fence ((List.range 4).map (unitKey 7))
  else .report

/-- The unit a silent slot charges (19 Tables 19.2, 19.10). (DEDUCED, log 66.) -/
def slotUnit (k : Nat) : Nat :=
  if k = 0 then unitKey 0 0
  else if k = 1 then unitKey 11 0
  else if k = 2 ∨ k = 3 then unitKey 4 0
  else if k = 4 then unitKey 5 0
  else if k = 5 then unitKey 2 0
  else if k = 6 then unitKey 2 4
  else if k = 7 then unitKey 3 0
  else if 8 ≤ k ∧ k ≤ 15 then unitKey 8 (k - 8)
  else if k = 16 then unitKey 12 32
  else if k = 17 then unitKey 7 0
  else if k = 18 then unitKey 13 5
  else if k = 19 then unitKey 13 0
  else if k = 20 then unitKey 13 2
  else unitKey 13 3

/-- The slot of the charged unit's checker (19 Table 19.2). (DEDUCED, log 66.) -/
def checkerSlot (x : FltUnit) (u : Nat) : Option Nat :=
  let i := unitIx u
  match unitKind u with
  | 1 => some (if i < 32 then 5 else 6)
  | 2 => some (if i < 4 then 5 else 6)
  | 3 => some 7
  | 4 => some (if x.mech = 0x04 then 3 else 2)
  | 5 => some 4
  | 6 | 12 => some 16
  | 7 => some 17
  | 8 => some (8 + i)
  | _ => none

/-- The action of a report (19 Table 19.1). -/
def fltAction (s : State) (r : Report) : FltAct :=
  let i := r.index.toNat
  match r.mech.toNat with
  | 0x01 | 0x02 | 0x03 => .own [unitKey 4 0]
  | 0x04 => .fence [unitKey 4 0]
  | 0x05 => .restart
  | 0x06 => .own [unitKey 5 i]
  | 0x07 => .fence [unitKey 2 i]
  | 0x08 => .fence [unitKey 1 i]
  | 0x09 => .fence [unitKey 3 i]
  | 0x0A | 0x0B => .fence [unitKey 8 i]
  | 0x0D => .fence (s.domsOfSens i)
  | 0x0E => .fence (groveUnits (.ofNat 8 (fld (at_ s.afe.itrip (Fin.ofNat 6 (i - 16))).cfg 7 0)))
  | 0x0F => .fence [unitKey 6 i]
  | 0x10 => .fence [unitKey 6 0, unitKey 6 1]
  | 0x11 => .fence s.afeUnits
  | 0x14 => .fence [unitKey 7 i]
  | 0x15 => .fence [unitKey 9 i]
  | 0x17 => .own []
  | 0x18 => .census
  | 0x19 => s.slotAction r.detail.toNat
  | 0x20 =>
    if (r.detail.setWidth 6 &&& at_ s.flt.link (Fin.ofNat 4 i)) ≠ 0 then .fence [unitKey 7 i] else .report
  | 0x21 =>
    .fence (unitKey 7 i :: ((List.range 256).filter fun c =>
      let r := s.client (Fin.ofNat 256 c)
      decide (c ≠ 0) && decide (c ≠ 255) && r.en && decide (r.kind = 3) && decide (r.link = i)).map (unitKey 9))
  | 0x22 => .own [unitKey 9 i]
  | 0x23 => .own [unitKey 10 i]
  | 0x24 => .fence [unitKey r.kind.toNat i]
  | _ => .report

/-- The groves of the fence sets that the fenced units reach (19 R706). (DEDUCED, log 65.) -/
def setGroves (s : State) (us : List Nat) : BitVec 8 :=
  let hit (m : BitVec 8) : Bool := us.any fun u =>
    (unitKind u == 1 && bit m (unitIx u / 8)) || (unitKind u == 2 && bit m (unitIx u))
  (if hit s.flt.set0 then s.flt.set0 else 0) ||| (if hit s.flt.set1 then s.flt.set1 else 0)

/-- The class of a record that fences: 2 LASTING when it is the N-th within WIN (19 R709, Table 19.3), else 1. (DEDUCED, log 65, DEDUCED, log 67.) -/
def fltClass (s : State) (r : Report) (u : Nat) : Nat :=
  let x := s.fltUnit u
  let n := s.flt.n.toNat
  let nth := match x.times[n - 2]? with
    | some t => decide (s.time - t ≤ s.flt.win.toNat * 200000)
    | none => false
  let lasting :=
    if r.mech = 0x17 then s.pwr.needRec
    else if r.mech = 0x23 then decide ((s.smbc (Fin.ofNat 2 r.index.toNat)).st = .lasting)
    else nth
  if lasting then 2 else 1

/-- Put a record in the ring (19 Tables 19.9, 19.11) and post FAULT. -/
def fltLog (s : State) (r : Report) (cls : Nat) (set : BitVec 8) : State :=
  let f := s.flt
  let e : Nat := if f.held = 0 then 0 else (f.newest.toNat + 1) % 16
  let rec_ : FltRec :=
    { w0 := lo32 s.tb
      w1 := packw [(r.mech.toNat, 24), (r.kind.toNat, 20), (cls, 18), (r.index.toNat, 0)]
      w2 := s.canopy.rtcSec
      w3 := packw [(set.toNat, 24), (r.detail.toNat, 0)] }
  let past := decide (16 ≤ f.held) && decide (16 ≤ f.unread.toNat)
  let s := s.modFlt fun x =>
    { x with log := vset x.log (Fin.ofNat 16 e) fun _ => rec_, newest := .ofNat 4 e, held := min 16 (x.held + 1),
             unread := satInc x.unread, unstored := true }
  let s := s.fltFlag (qREC ||| (if past then qLOGFULL else 0) ||| (if cls = 1 then qTRANSIENT else if cls = 2 then qLASTING else 0))
  s.postAll 4 (s.readers 14) 0x28 true e rec_.w1 rec_.w2 rec_.w3

/-- The stored log is loaded at a start: CLASS unchanged, OLD set (19 R724). (DEDUCED, log 68.) -/
def loadLog (s : State) (bytes : List Byte) : State :=
  let ws := wordsOf 64 bytes
  let w (i : Nat) : Word := ws.getD i 0
  let n := ((List.range 16).filter fun e => decide (w (4 * e + 1) ≠ 0)).length
  s.modFlt fun f =>
    { f with log := Vector.ofFn fun e =>
               if e.val < n then
                 { w0 := w (4 * e.val), w1 := w (4 * e.val + 1) ||| 0x20000, w2 := w (4 * e.val + 2), w3 := w (4 * e.val + 3) }
               else {}
             held := n, newest := .ofNat 4 (n - 1) }

/-- FLT fences the units of a record, and the sets they reach; units already fenced get no second fence, and a unit on its way
back stops there (19 R706, R717, R720, R721). -/
def applyFence (s : State) (u : Nat) (us : List Nat) (sets : List Nat) (own : Bool) : State :=
  let fresh := us.filter fun t => !s.heldAny t
  let setFresh := sets.filter fun t => !us.contains t && !s.heldAny t
  let s := if own then s else (fresh ++ setFresh).foldl (fun s t => s.fenceUnit t) s
  let now := s.time
  let s := (fresh ++ setFresh).foldl (fun s t => s.modUnit t fun x =>
    { x with since := now, st := if x.st = .returning then .inService else x.st }) s
  let links := (fresh ++ setFresh).foldl (fun (m : BitVec 4) t => if unitKind t = 7 then m ||| oneBit 4 (unitIx t) else m) 0
  let s := s.modFlt fun f =>
    { f with steps := f.steps.filter fun t => !(fresh ++ setFresh).contains t, admMask := f.admMask &&& ~~~links }
  s.modUnit u fun x => { x with targets := us ++ setFresh }

/-- The census twins disagree, or slot 0 is silent: every channel pin goes to Clearing, the microengine is fenced and the
device stays so until a reset (19 R704). -/
def census (s : State) : State :=
  let u := unitKey 0 0
  let s := (s.applyFence u [unitKey 4 0] [] false).modFlt fun f => { f with st := .census }
  s.fltFlag qCENSUS

/-- A fence is charged to unit u. -/
def unitHeld (s : State) (u : Nat) : Bool :=
  decide ((s.fltUnit u).st = .transient) || decide ((s.fltUnit u).st = .lasting)

/-- The groves that a record of unit u newly fences through FLT_SET (19 R705, R706). -/
def setOf (s : State) (u : Nat) (act : FltAct) : BitVec 8 := if s.unitHeld u || act.isOwn then 0 else s.setGroves act.units

/-- Of those, the groves no fence held before: the SET field of the record. -/
def setField (s : State) (u : Nat) (act : FltAct) : BitVec 8 :=
  ((groveUnits (s.setOf u act)).filter fun g => !s.heldAny g).foldl (fun (m : BitVec 8) g => m ||| oneBit 8 (unitIx g)) 0

/-- Unit u takes the record: its class, its time, and, when no fence is charged to it yet, the fence. -/
def chargeUnit (s : State) (r : Report) (u cls : Nat) (act : FltAct) : State :=
  let set := s.setOf u act
  let held := s.unitHeld u
  let now := s.time
  let s := s.modUnit u fun x =>
    { x with mech := r.mech, last := now, times := (now :: x.times).take 15, st := if cls = 2 then .lasting else .transient }
  if held then s else s.applyFence u act.units (groveUnits set) act.isOwn

/-- What a record does beside a fence: a census, or the supervisor's restart (19 R701, R702, R704). CENSUS shows over
SUPHOLD. (DEDUCED, log 67.) -/
def actBeside (s : State) (u cls : Nat) : FltAct → State
  | .census => s.census
  | .restart =>
    let s := (s.modFlt fun f => { f with supReset := true, supAt := s.time }).modRs fun r => { r with op := false }
    if cls = 2 then (s.applyFence u [unitKey 4 0] [] false).modFlt fun f => { f with st := if f.st = .census then .census else .supHold } else s
  | _ => s

/-- The record is written; a LASTING one of a running supervisor is stored at once (19 R703, R724). -/
def logAct (s : State) (r : Report) (cls : Nat) (set : BitVec 8) : State :=
  let t := s.fltLog r (if s.supStarted then cls else 0) set
  if cls = 2 ∧ s.supStarted then ({ t with upd := { t.upd with lasting := true } }).storeLog else t

/-- FLT records one report and takes its action (19 R700). (DEDUCED, log 65.) -/
def recordAct (s : State) (r : Report) (act : FltAct) : State :=
  let u := unitKey r.kind.toNat r.index.toNat
  let s := s.modCyc fun y => { y with recorded := u :: y.recorded }
  match act with
  | .report => s.fltLog r 0 0
  | _ =>
    let cls := s.fltClass r u
    let set := s.setField u act
    ((s.chargeUnit r u cls act).actBeside u cls act).logAct r cls set

def recordReport (s : State) (r : Report) : State := s.recordAct r (s.fltAction r)

/-- The report taken next: of the earliest cycle before this one, lowest KIND, then lowest INDEX (19 R700, R716). (DEDUCED,
log 63.) -/
def nextReport (s : State) : Option Report :=
  leastBy (fun (r : Report) => [r.at_, r.kind.toNat, r.index.toNat]) (s.reports.filter fun r => decide (r.at_ < s.time))

/-- Does unit u get a record in this cycle, one taken or one that waits to be? -/
def recordedNow (s : State) (u : Nat) : Bool :=
  s.cyc.recorded.contains u || s.reports.any fun r => decide (unitKey r.kind.toNat r.index.toNat = u) && decide (r.at_ < s.time)

/-- The report an internal fault makes (19 Table 19.1). -/
def internalReport : Internal → Report
  | .calendar => { mech := 0x04, kind := 4, index := 0, detail := 0 }
  | .supervisor => { mech := 0x05, kind := 11, index := 0, detail := 0 }
  | .groveCompare g => { mech := 0x07, kind := 2, index := .ofNat 8 g.val, detail := 0 }
  | .domainCompare d => { mech := 0x09, kind := 3, index := .ofNat 8 d.val, detail := 0 }
  | .tsiWord l => { mech := 0x14, kind := 7, index := .ofNat 8 l.val, detail := 0 }
  | .clientRecord c | .clientEvent c => { mech := 0x15, kind := 9, index := .ofNat 8 c.val, detail := 0 }
  | .intcCompare => { mech := 0x16, kind := 13, index := 0, detail := 0 }
  | .hpCompare => { mech := 0x16, kind := 13, index := 1, detail := 0 }

/-- An uncorrectable event is discarded and counted in DROPPED (19 Table 19.1, 0x15). -/
def discardBad (s : State) (c : Fin 256) : State :=
  if (s.client c).queue.any fun e => !e.ov then
    (s.dropEvent c fun e => !e.ov).modClient c fun r => { r with dropped := satInc r.dropped }
  else s

/-- FLT_RECORD: an internal fault's report, or the next that waits (19 R700). (DEDUCED, log 63.) -/
def fltRecord (s : State) (f : Option Internal) : State :=
  match f with
  | some (.clientEvent c) => (s.discardBad c).recordAct (internalReport (.clientEvent c)) .report
  | some x => s.recordReport (internalReport x)
  | none =>
    match s.nextReport with
    | none => s
    | some r => ({ s with reports := removeFirst (fun x => decide (x = r)) s.reports }).recordReport r

/-- CENSUS_MISMATCH (19 R704): mechanism 0x18 charges the device. -/
def censusMismatch (s : State) : State := s.recordReport { mech := 0x18, kind := 0, index := 0, detail := 0 }

/-- SUP_RESTART: the supervisor leaves reset at its warm entry point, 1 µs after it went there, unless FLT holds it (19 R701,
R702); its waiting steps and services follow. (DEDUCED, log 67.) -/
def supRestart (s : State) : State :=
  if !s.flt.supReset || (s.fltUnit (unitKey 11 0)).st == .lasting || decide (s.time < s.flt.supAt + 200) then s
  else ((s.modFlt fun f => { f with supReset := false }).fltBack (unitKey 11 0)).supSteps.packResume

/-! ## Roll Call (19 R703–R705, R710) -/

/-- A slot whose checker's domain is held in reset or in RET passes (19 R705); slots 22–31 have no checker. -/
def slotPasses (s : State) (k : Nat) : Bool :=
  if 22 ≤ k then true
  else if k = 20 then false
  else if k = 1 then !s.pwr.pd1Up || s.flt.supReset
  else if k = 0 ∨ 18 ≤ k then !s.pwr.pd1Up
  else !s.pwr.pdUp

/-- Is the unit's fence lifted by itself (19 R710)? A fence of an AFE input goes by the kinds of the units it holds. (DEDUCED, log 63.) -/
def autoKind (s : State) (u : Nat) : Bool :=
  let k := unitKind u
  let one (k : Nat) : Bool := decide (1 ≤ k) && decide (k ≤ 8) && bit s.flt.auto (k - 1)
  if k = 12 then (s.fltUnit u).targets.all fun t => one (unitKind t) else one k

/-- The fences a clean report of slot k lifts (19 R710). (DEDUCED, log 63.) -/
def dueLifts (s : State) (k : Nat) : List Nat :=
  (s.flt.units.filter fun p =>
    decide (p.2.st = .transient) && s.autoKind p.1 && decide (checkerSlot p.2 p.1 = some k) &&
    decide (p.2.last + s.flt.hold.toNat * 2000000 ≤ s.flt.slotAt)).map (·.1)

/-- The lift of a fence that a clean slot or FLT_CMD READMIT asked for, at the end of its cycle: a record of the unit in the
same cycle keeps the fence (19 R718), and refuses the command (R719). (DEDUCED, log 64.) -/
def liftNow (s : State) (u : Nat) (cmd : Bool) : State :=
  if s.recordedNow u then (if cmd then s.fltFlag qWWR else s)
  else if !cmd then (if s.unitHeld u then s.lift u else s)
  else
    let charged := s.flt.units.filter fun p =>
      (p.2.st = .transient ∨ p.2.st = .lasting) ∧ (p.1 = u ∨ (unitKind p.1 = 12 ∧ p.2.targets.contains u = true))
    charged.foldl (fun s p => s.lift p.1) s

def settleLifts (s : State) : State := s.cyc.lifts.foldl (fun s p => s.liftNow p.1 p.2) s

/-- ROLL_CALL_SLOT: the slot in hand ends, 312.5 µs after it began. `answer` is the checker's report: none when silent or with a wrong complement,
else whether no fault bit is set; the AFE shell's bits are AFE_HEALTH (19 R703, 10 R412). (DEDUCED, log 66, DEDUCED,
log 89.) -/
def rollCallSlot (s : State) (answer : Option Bool) : State :=
  if !s.flt.rcen || !s.supStarted || decide (s.time < s.flt.slotAt + 62500) then s
  else
    let k := s.flt.slot.toNat
    let s :=
      if s.slotPasses k then s
      else
        match answer with
        | none =>
          let s := ((s.fltFlag qSILENT).modFlt fun f => { f with silent := f.silent ||| oneBit 32 k, periodClean := false }).hwSet
            0xC828 (oneBit 32 k)
          s.report 0x19 (unitKind (slotUnit k)) (unitIx (slotUnit k)) k
        | some clean =>
          if clean && (k != 16 || s.afe.health == 0) then
            s.modCyc fun y => { y with lifts := y.lifts ++ (s.dueLifts k).map fun u => (u, false) }
          else s
    s.modFlt fun f =>
      { f with slot := f.slot + 1, slotAt := if f.slotAt + 125000 ≤ s.time then s.time else f.slotAt + 62500 }

/-! ## Commands and registers (19 R711, R714, R715, R719, Tables 19.9–19.11) -/

/-- FLT_CMD FENCE: a report of mechanism 0x24. -/
def cmdFence (s : State) (kind index : Nat) : State :=
  if namedUnit kind index then s.report 0x24 kind index 0 else s.fltFlag qWWR

/-- FLT_CMD READMIT: at the end of the cycle, lifts the fence charged to the unit, or to the AFE input that holds it (19 R711,
R719). (DEDUCED, log 64.) -/
def cmdReadmit (s : State) (kind index : Nat) : State :=
  if !namedUnit kind index then s.fltFlag qWWR
  else s.modCyc fun y => { y with lifts := y.lifts ++ [(unitKey kind index, true)] }

/-- FLT_CMD CLRLOG. (DEDUCED, log 68.) -/
def cmdClrlog (s : State) : State :=
  s.modFlt fun f => { f with log := .replicate 16 {}, held := 0, newest := 0, unstored := false }

/-- A write of 1 to FLT_FLAG.LOGFULL clears it and UNREAD, unless hardware sets it in the same cycle (19 R714; 00 R9). -/
def clearLogfull (s : State) : State :=
  if bit (s.freshBits 0xC81C) 6 then s else s.modFlt fun f => { f with flag := f.flag &&& ~~~qLOGFULL, unread := 0 }

/-- FLT_UQR of the queried unit. -/
def fltQuery (s : State) : Word :=
  let u := unitKey s.flt.uqKind.toNat s.flt.uqIndex.toNat
  let i := unitIx u
  let x := s.fltUnit u
  let charges := s.flt.units.filter fun p =>
    (p.2.st = .transient ∨ p.2.st = .lasting) ∧ (p.1 = u ∨ p.2.targets.contains u = true)
  let readm (n : Fin 64) : Bool := bit (s.chan n).o.clr 9
  let ret := decide (x.st = .returning) &&
    (match unitKind u with
     | 1 => readm (Fin.ofNat 64 i)
     | 2 => (s.grove (Fin.ofNat 8 i)).rdmActive || (groveChans (Fin.ofNat 8 i)).any readm
     | _ => true)
  let st := if charges.any fun p => p.2.st = .lasting then 2 else if !charges.isEmpty then 1 else if ret then 3 else 0
  let heldFor := if charges.isEmpty then 0 else min ((s.time - x.since) / 2000000) 0xFFF
  packw [(st, 30), (x.mech.toNat, 16), (heldFor, 0)]

def fltRead (s : State) (a : Nat) : Option (Word × State) :=
  let f := s.flt
  let v (w : Word) : Option (Word × State) := some (w, s)
  if 0xC900 ≤ a ∧ a < 0xCA00 then
    let r := at_ f.log (Fin.ofNat 16 ((a - 0xC900) / 16))
    v (match (a - 0xC900) / 4 % 4 with | 0 => r.w0 | 1 => r.w1 | 2 => r.w2 | _ => r.w3)
  else match a with
    | 0xC800 => v (packw [(f.hold.toNat, 8), (b2n f.rcen, 0)])
    | 0xC804 => v (packw [(f.win.toNat, 16), (f.n.toNat, 0)])
    | 0xC808 => v (packw [(f.auto.toNat, 1)])
    | 0xC80C => v (f.set0.setWidth 32)
    | 0xC810 => v (f.set1.setWidth 32)
    | 0xC814 => v (packw [((f.link[0]).toNat, 0), ((f.link[1]).toNat, 8), ((f.link[2]).toNat, 16), ((f.link[3]).toNat, 24)])
    | 0xC818 => v (packw [(match f.st with | .run => 0 | .supHold => 1 | .census => 2, 28), (f.slot.toNat, 16)])
    | 0xC81C => v (f.flag.setWidth 32)
    | 0xC820 => v (f.ien.setWidth 32)
    | 0xC824 => v 0
    | 0xC828 => v f.silent
    | 0xC82C => v (packw [(f.uqKind.toNat, 24), (f.uqIndex.toNat, 0)])
    | 0xC830 => v s.fltQuery
    | 0xC834 => v (packw [(f.unread.toNat, 8), (f.newest.toNat, 0)])
    | _ => none

/-- A write of FLT_CMD. -/
def writeFltCmd (s : State) (w : Word) : State :=
  let kind := fld w 27 24
  let i := fld w 7 0
  match fld w 31 28 with
  | 1 => s.cmdFence kind i
  | 2 => s.cmdReadmit kind i
  | 3 => s.cmdClrlog
  | _ => s.fltFlag qWWR

def fltWrite (s : State) (a : Nat) (w : Word) : Option State :=
  let lock := s.boot.locked
  if 0xC900 ≤ a ∧ a < 0xCA00 then some s
  else match a with
    | 0xC800 =>
      some (if fld w 15 8 = 0 then s.fltFlag qWWR
            else if lock then s
            else s.modFlt fun f =>
              { f with hold := .ofNat 8 (fld w 15 8), rcen := bit w 0, slotAt := if bit w 0 && !f.rcen then s.time else f.slotAt })
    | 0xC804 =>
      some (if fld w 3 0 < 2 ∨ fld w 31 16 < 1 ∨ 10000 < fld w 31 16 then s.fltFlag qWWR
            else if lock then s
            else s.modFlt fun f => { f with win := .ofNat 16 (fld w 31 16), n := .ofNat 4 (fld w 3 0) })
    | 0xC808 => some (if lock then s else s.modFlt fun f => { f with auto := .ofNat 8 (fld w 8 1) })
    | 0xC80C => some (if lock then s else s.modFlt fun f => { f with set0 := .ofNat 8 (fld w 7 0) })
    | 0xC810 => some (if lock then s else s.modFlt fun f => { f with set1 := .ofNat 8 (fld w 7 0) })
    | 0xC814 =>
      some (if lock then s
            else s.modFlt fun f => { f with link := Vector.ofFn fun l => .ofNat 6 (fld w (8 * l.val + 5) (8 * l.val)) })
    | 0xC81C =>
      let s := if bit w 6 then s.clearLogfull else s
      some (s.modFlt fun f => { f with flag := f.flag &&& ~~~(w.setWidth 8) })
    | 0xC820 => some (s.modFlt fun f => { f with ien := w.setWidth 8 })
    | 0xC824 => some (s.writeFltCmd w)
    | 0xC828 => some (s.modFlt fun f => { f with silent := f.silent &&& ~~~w })
    | 0xC82C => some (s.modFlt fun f => { f with uqKind := .ofNat 4 (fld w 27 24), uqIndex := .ofNat 8 (fld w 7 0) })
    | 0xC818 | 0xC830 | 0xC834 => some s
    | _ => none

/-! ## PARK (19 R723) -/

/-- Units in PD2–PD7. -/
def unitParks (u : Nat) : Bool := let k := unitKind u; decide (1 ≤ k) && decide (k ≤ 8)

/-- PARK entry: every TRANSIENT fence of units in PD2–PD7 ends, and those units come back as after a lift; the supervisor's
steps for links and banks wait for an entry that is turned back (19 R723, 05 R210, 03 R95). (DEDUCED, log 68.) -/
def fltParkEntry (s : State) : State :=
  (s.flt.units.filter fun p => decide (p.2.st = .transient) && unitParks p.1).foldl (fun s p =>
    let free := (s.fltUnit p.1).targets.filter fun t => !s.heldElse p.1 t
    let s := s.modUnit p.1 fun x => { x with st := .inService, targets := [] }
    let s := free.foldl (fun s t => s.liftUnit t) s
    let s := s.modFlt fun x => { x with steps := x.steps ++ free.filter fun t => hasSupStep t && (unitKind t != 9 || s.flt.supReset) }
    if s.flt.supReset then s else (free.filter fun t => unitKind t == 9).foldl (fun s t => s.supStep t) s) s

/-- The fences FLT still holds of those units are applied again: the LASTING ones at PARK exit, which are all that PARK
entry leaves (R723), and every one after a clock fault. -/
def fltRefence (s : State) : State :=
  (s.flt.units.filter fun p => decide (p.2.st = .lasting) || decide (p.2.st = .transient)).foldl (fun s p =>
    (p.2.targets.filter unitParks).foldl (fun s t => s.fenceUnit t) s) s

end State
end Sys2Proof.Machine
end

