-- ==== Sys2Proof/Machine/Power.lean ====
section
/-!
DEFINITION. Machine/Power.lean: supplies, resets, PARK and OFF, wake, the clock monitor, the real-time clock (03).
-/
namespace Sys2Proof.Machine

/-- Causes of a failed queued write (13 Table 13.7). -/
def kFENCED : Nat := 1
def kMEMORY : Nat := 2
def kWINDOW : Nat := 3
def kRESET : Nat := 4
def kPARK : Nat := 5

/-- Is the address in a block of PD2–PD7 (01 Table 1.1, 03 Table 3.1)? -/
def pdAddr (a : Nat) : Bool :=
  (decide (0x40 ≤ a) && decide (a < 0x58)) || (decide (0x1000 ≤ a) && decide (a < 0x6400)) ||
  (decide (0x6C00 ≤ a) && decide (a < 0xC000)) || (decide (0x20000 ≤ a) && decide (a < 0xA0000))

namespace State

/-- A queued write cannot be carried out (13 R504). -/
def queueFail (s : State) (e : HpEntry) (cause : Nat) : State :=
  let s := (s.hpFlag 0x10).modHp fun h =>
    { h with errClient := e.client, errCause := .ofNat 3 cause, errCs := e.cs, errAddr := e.addr,
             cntWerr := satInc h.cntWerr }
  match e.path with
  | .hp => s.modHp fun h => { h with werr := h.werr ||| oneBit 2 e.cs.val }
  | .link l => s.modLink l fun x => { x with xwerr := true }
  | _ => s

/-- Queued writes that `p` picks are discarded under R504. -/
def discardQueue (s : State) (p : HpEntry → Bool) (cause : Nat) : State :=
  let bad := s.hp.queue.filter p
  bad.foldl (fun s e => s.queueFail e cause) (s.modHp fun h => { h with queue := h.queue.filter fun e => !p e })

/-! ## Retention of the interrupt controller (03 R91–R94; 12 R487, Table 12.4) -/

/-- The save: pending with in-service folded in, enables, priorities, thresholds, pads. -/
def intcSave (s : State) : State :=
  let i := s.intc
  s.modCanopy fun c =>
    { c with retPend := i.pend ||| i.insv, retS := i.sen, retPen := i.pen, retPri := i.pri, retThr := i.thr,
             retPcfg := i.pcfg, retValid := true }

/-- The restore: each pending bit is its saved bit or its catch bit; the saved state is consumed. -/
def intcRestore (s : State) : State :=
  let c := s.canopy
  { s with
    intc := { pri := c.retPri, pend := c.retPend ||| c.catch_, sen := c.retS, pen := c.retPen, thr := c.retThr,
              pcfg := c.retPcfg }
    canopy := { c with retValid := false, catch_ := 0 } }

/-! ## Resets (03 Table 3.9, R75, R93, R94, R110–R112) -/

/-- What a reset of PD1–PD7 leaves of the record store: what the store holds (17 R651–R657). -/
def rsKept (r : RecStore) : RecStore := { sectors := r.sectors, head := r.head, versions := r.versions, ro := r.ro }

/-- PD1–PD7 after a reset: every field at its Reset value; the Canopy, the flash, the OTP, the record store's contents,
the pins and the queue stay. The COMPAT ball is sampled before PD1 is released. (DEDUCED, log 12, DESIGN CHOICE, log 102.) -/
def resetPd (s : State) : State :=
  { ({} : State) with
    xf := s.xf
    otp := s.otp
    canopy := s.canopy
    time := s.time
    cyc := { reset := s.cyc.reset }
    rs := rsKept s.rs
    pins := { s.pins with keeper := [] }
    pwr :=
      { compat := s.pins.compat, vioGood := s.pwr.vioGood, pd1Up := s.pwr.vioGood, lseOk := s.pwr.lseOk
        st := if s.pwr.vioGood then .run else .off }
    upd := { head := s.upd.head }
    rdata := s.rdata
    freeCtr := s.freeCtr
    pending := s.pending }

/-- The cause to record: with a source taken in the same cycle the wider scope, then the lower code (03 R111).
(DEDUCED, log 69.) -/
def metCause (s : State) (cause : Fin 16) : Fin 16 :=
  match s.cyc.reset with
  | some c => if c ≤ cause then c else cause
  | none => cause

/-- A reset source other than WAKE takes effect: saved retention is discarded (03 R93, R96, R111, R115). -/
def resetBy (s : State) (cause : Fin 16) : State :=
  let k := s.metCause cause
  (s.resetPd.modCanopy fun c => { c with cause := .ofNat 4 k.val, retValid := false, catch_ := 0 }).modCyc fun c =>
    { c with reset := some k }

/-- CANOPY_POR: all Canopy state clears as well (03 R97). -/
def canopyPor (s : State) : State :=
  ({ s.resetPd with canopy := { secAt := s.time } } : State).modCyc fun c => { c with reset := some 1 }

/-- A reset source, with another that asserts in the same cycle (0: none): the wider scope, then the lower code (03 R111). (DEDUCED, log 69.) -/
def resetWith (s : State) (cause : Fin 16) (also : Nat) : State :=
  if also = 1 ∧ cause ≠ 1 then s.canopyPor
  else if 2 ≤ also ∧ also ≤ 8 then s.resetBy (if cause ≤ Fin.ofNat 16 also then cause else Fin.ofNat 16 also)
  else s.resetBy cause

/-- VIO_FALL: PD1–PD7 lose their state; no save takes place, and the Canopy goes on from VBK with all it holds (03 R74,
R75). -/
def vioFall (s : State) : State :=
  if !s.pwr.vioGood then s else (s.modPwr fun p => { p with vioGood := false }).resetPd

/-- VIO_RISE (03 R96). -/
def vioRise (s : State) : State :=
  if s.pwr.vioGood then s else (s.modPwr fun p => { p with vioGood := true }).resetBy 2

/-- VDDA_FALL: a supply fault is reported; PD6 stays powered (03 R76). -/
def vddaFall (s : State) : State :=
  if !s.pwr.vioGood then s
  else ((s.modAfe fun x => { x with health := x.health ||| oneBit 28 25 }).hwSet 0x5404 0x02000000).report 0x11 12 32 0

/-- PIN_RESET: RST_N was low for at least 1 µs. (DEDUCED, log 69.) -/
def pinReset (s : State) (also : Nat) : State :=
  if s.pwr.vioGood then (s.resetWith 3 also).modPins fun p => { p with rstN := false } else s

/-- PLL_LOCKED in the start sequence: TB counts from the first 200 MHz cycle (02 Table 2.3 step 2; 04 R840). -/
def pllLocked (s : State) : State :=
  if s.boot.st ≠ .loading ∨ s.pwr.pllLock ∨ !s.pwr.pd1Up then s
  else (s.modPwr fun p => { p with pllLock := true, coreOnRc := false, refOk := true }).modTbs fun t => { t with run := true }

/-- PLL_LOCK_TIMEOUT: the loader, which has read the OTP, stops in CLOCK_HOLD (02 R41, R57, R71). -/
def pllTimeout (s : State) : State :=
  if s.boot.st ≠ .loading ∨ s.pwr.pllLock ∨ !s.pwr.pd1Up then s
  else s.modBoot fun b => { b with st := .clockHold, loaderErr := 0x20, open_ := decide (s.otp.fleetHash = 0) }

/-- CLKHOLD_RETRY (03 R110). -/
def clkholdRetry (s : State) : State := if s.boot.st = .clockHold then s.resetBy 8 else s

/-! ## PARK and OFF (03 Table 3.4) -/

/-- The boot state names a slot in WRITING (20 Table 20.10: 0xFF is none). -/
def slotWriting (s : State) : Bool :=
  match s.rsCurrent 0x01 0 with
  | some v => let w := (v.data.getD 3 0xFF).toNat
              decide (w = 0) || decide (w = 1)
  | none => false

/-- REFUSE code of a PARK or OFF command, 0 when accepted (03 R78, R114, Table 3.12). (DEDUCED, log 70.) -/
def parkRefuse (s : State) (key : Nat) : Nat :=
  if s.pwr.st ≠ .run then 5
  else if !s.boot.locked then 1
  else if key ≠ 0x5A3C then 2
  else if s.slotWriting then 3
  else if s.svc.open_ then 4
  else 0

/-- The domains' part of steps 1–3 that PARK entry and a clock fault share: a pending swap and a running copy end, open
requests close, the calendar is cancelled with its notices. -/
def stopTraffic (s : State) (cancel fail : Nat) : State :=
  let s := (s.modTsi fun t => { t with pend := none, copying := false }).failRequests fail
  s.bulkCancel cancel

/-- An accepted PARK or OFF command: steps 1–3 of Table 3.4. A wake latched in the same cycle turns the entry back (03
R113). -/
def parkEntry (s : State) (off : Bool) : State :=
  let now := s.tb
  let s := s.modPwr fun p => { p with st := .entering, toOff := off, tbPark := now, faultEntry := false, wakeEntry := s.cyc.woke }
  let s := s.fltParkEntry
  let s := foldFin 64 (fun n s => s.setCause n cPARK) s
  let s := foldFin 8 (fun e s => s.modEng e fun p =>
    if p.st = .off ∨ p.st = .fenced then p else { p with st := .halt, clrHold := true, haltReq := false, busy := 0 }) s
  let s := s.modMe fun m =>
    { m with frames := [], trapWin := none, trapLive := false, spilled := 0, results := [],
             st := if m.st = .fenced then .fenced else .stopped }
  let s := s.stopTraffic xPARK ePARK
  let s := foldFin 3 (fun d s => s.modAd d fun a => if a.st = .off then a else a.search) s
  let s := foldFin 8 (fun b s => s.testAbandon b) s
  s.discardQueue (fun _ => true) kPARK

/-- PWR_CMD PARK and OFF. -/
def pwrPark (s : State) (key : Nat) (off : Bool) : State :=
  let r := s.parkRefuse key
  if r = 0 then s.parkEntry off else s.modPwr fun p => { p with refuse := .ofNat 4 r }

/-- PWR_CMD RESET. (DEDUCED, log 70.) -/
def pwrReset (s : State) (key also : Nat) : State :=
  if key ≠ 0x5A3C then s.modPwr fun p => { p with refuse := 2 } else s.resetWith 5 also

/-- PWR_CMD CLKREC: a lasting clock fault may recover (03 R106). (DEDUCED, log 70.) -/
def pwrClkrec (s : State) (key : Nat) : State :=
  if key ≠ 0x5A3C then s.modPwr fun p => { p with refuse := 2 } else s.modPwr fun p => { p with needRec := false }

/-- The Clearing levels the pads carry, for the keepers and the clock-free path (03 R103, 21 R770). (DEDUCED, log 31.) -/
def clearingLevels (s : State) : List (Nat × Level) := (List.finRange 64).map fun n => (n.val, (s.chan n).o.clrLvl)

/-- What RET and power-off leave of the domains (03 Tables 3.1, 3.2; R83, R100): logic registers are lost, the arrays of
RET domains stay. -/
def retState (s : State) : State :=
  let pd5 := bit s.pwr.kept 2
  let pd6 := bit s.pwr.kept 3
  { s with
    tbs := { tb := s.tbs.tb }
    chans := .replicate 64 {}
    groves := .replicate 8 {}
    ads := .replicate 3 {}
    pls := .replicate 2 {}
    tt := { cal := s.tt.cal }
    me := { store := s.me.store, storeErr := s.me.storeErr }
    ps := { store := s.ps.store, storeErr := s.ps.storeErr }
    afe := if pd6 then { sig := { slots := s.afe.sig.slots, tmpl := s.afe.sig.tmpl }, cal := { wasValid := s.afe.cal.wasValid, table := s.afe.cal.table } } else {}
    sc := { s.sc with
            flag := 0, frecClient := 0, frecCause := 0, werrRecord := 0, werrReason := 0,
            recs := (s.sc.recs.map fun p => (p.1, { p.2 with faultTimes := [] })).filter fun p => p.2 ≠ {} }
    mem := { cells := s.mem.cells, errs := s.mem.errs, banks := .replicate 8 { st := .on } }
    cw := .replicate 16 {}
    dma := .replicate 8 {}
    hp := { resp := s.hp.resp }
    hl := .replicate 4 {}
    tsi := if pd5 then { conn := s.tsi.conn, active := s.tsi.active, adm := s.tsi.adm, ivTx := s.tsi.ivTx, ivRx := s.tsi.ivRx } else {}
    smb := .replicate 2 {}
    pack := {}
    msp := .replicate 2 {}
    svc := { resp := s.svc.resp }
    pm := { s.pm with cfg := 0x00640000, circ := 0, sesthr := 0x2180, tca := 0, flag := 0, ien := 0, selRdy := false, win := none,
                      sec := { at_ := s.canopy.rtcSec } }
    rs := { s.rs with flag := 0, ien := 0 }
    reports := [] }

/-- What stays of FLT over PARK: the LASTING fences and their history (19 R723). -/
def fltKept (s : State) : Flt :=
  { ({} : Flt) with
    units := s.flt.units.filter fun p => decide (p.2.st = .lasting)
    st := s.flt.st
    supReset := s.flt.supReset
    supAt := s.flt.supAt }

/-- Exit steps 2–4: PD1 is released with the COMPAT ball sampled, the INTC is restored, the keepers let go. (DEDUCED, log 72.) -/
def parkWake (s : State) : State :=
  let s := s.modPwr fun p => { p with st := .exiting, pd1Up := true, coreOnRc := true, compat := s.pins.compat }
  (((s.intcRestore).modPins fun p => { p with keeper := [] }).modFlt fun f => { f with slotAt := s.time }).modUpd fun u =>
    { u with winEnd := u.winEnd + s.time }

/-- Step 6 of Table 3.4 into PARK: the domains go to RET or off; PARK_KEEP is a logic register and is lost with them (03
Tables 3.1, 3.13, R79, R83). -/
def enterPark (s : State) : State :=
  let s := s.modPwr fun p => { p with kept := p.keep }
  let f := s.fltKept
  let tb := s.pwr.tbPark
  -- a clock fault declared during the entry is still to be recorded (03 R117)
  let r := s.reports.filter fun r => r.mech = 0x17
  let u := { s.upd with flag := 0, ien := 0, winEnd := s.upd.winEnd - s.time }
  ({ s.retState with flt := f, intc := {}, tbs := { tb := tb }, reports := r, upd := u }).modPwr fun p =>
    { p with st := .park, pd1Up := false, pdUp := false, pllLock := false, coreOnRc := false, refOk := false,
             refuse := 0, dozeEn := false, keep := 0 }

/-- Step 6 of Table 3.4 into OFF: PD1–PD7 lose power. -/
def enterOff (s : State) : State :=
  let k := s.pins.keeper
  (s.resetPd.modPins fun p => { p with keeper := k }).modPwr fun p =>
    { p with st := .off, pd1Up := false, coreOnRc := false, refOk := false }

/-- PARK_ENTRY_COMPLETE, when no operation of the record store is in progress: the save, then RET or power-off; a wake latched during the entry turns it back, unless a clock
fault was declared in it: then PARK is entered and the wake ends it (03 Table 3.4 steps 4–6, R93, R95, R117). (DEDUCED, log 73.) -/
def parkComplete (s : State) : State :=
  if s.pwr.st ≠ .entering ∨ s.rs.op then s
  else
    let s := s.intcSave
    let woke := s.pwr.wakeEntry
    if woke && !s.pwr.faultEntry then (s.intcRestore).modPwr fun p => { p with st := .exiting, wakeEntry := false }
    else
      let levels := s.clearingLevels
      let s := s.modPins fun p => { p with keeper := levels }
      if s.pwr.toOff then s.enterOff else if woke then s.enterPark.parkWake else s.enterPark

/-! ## Wake (03 Tables 3.5, 3.6, R88–R95) -/

/-- Wake conditions are latched; an enabled one in PARK starts the exit, and during an entry turns it back (03 R88, R89,
R95, R116). -/
def wakeLatch (s : State) (src : BitVec 10) : State :=
  let s := (s.modCanopy fun c => { c with wakeSrc := c.wakeSrc ||| src }).hwSet 0x410 (src.setWidth 32)
  if (src &&& s.canopy.wakeEn) = 0 then s
  else
    let s := s.modCyc fun c => { c with woke := true }
    match s.pwr.st with
    | .entering => s.modPwr fun p => { p with wakeEntry := true }
    | .park => s.parkWake
    | _ => s

/-- WAKE_FROM_OFF: an enabled source wakes the device from commanded OFF; the retained INTC fields are restored and the
loader starts (03 R87, R94). (DEDUCED, log 72.) -/
def wakeFromOff (s : State) : State :=
  if s.pwr.st ≠ .off ∨ !s.pwr.vioGood ∨ (s.canopy.wakeSrc &&& s.canopy.wakeEn) = 0 then s
  else
    let k := s.metCause 4
    let s := (s.resetPd.modCanopy fun c => { c with cause := .ofNat 4 k.val }).modCyc fun c => { c with reset := some k }
    if s.canopy.retValid then s.intcRestore else s.modCanopy fun c => { c with catch_ := 0 }

/-- The watch count restarts each window (03, before R90). -/
def watchWindow (s : State) : State := s.modCanopy fun c => { c with watchCount := 0 }

/-- The twin of SENS k compares its pin, at `v` microvolts, with AFE_TWIN's threshold ± 60 mV (10 R392). -/
def twinOf (s : State) (k : Fin 4) (v : Nat) : Bool :=
  let thr := 20000 * fld s.canopy.twin (8 * k.val + 7) (8 * k.val)
  if thr + 60000 < v then true else if v + 60000 < thr then false else bit s.canopy.twinOut k.val

/-- PARK_WATCH_EDGE: the pin of the twin of SENS k comes to `v` microvolts. An edge counts for a twin that is powered and
has counted none for 125 µs (03 R90; 10 R392). (DEDUCED, log 71.) -/
def watchEdge (s : State) (k : Fin 4) (v : Nat) : State :=
  let out := s.twinOf k v
  if !bit s.canopy.watchMask k.val || out == bit s.canopy.twinOut k.val then s
  else
    let s := s.modCanopy fun c => { c with twinOut := c.twinOut ^^^ oneBit 4 k.val }
    if (at_ s.canopy.twinAt k).any fun t => decide (s.time - t < 25000) then s
    else
      let n := s.canopy.watchCount + 1
      let s := s.modCanopy fun c => { c with watchCount := n, twinAt := vset c.twinAt k fun _ => some s.time }
      if n = s.canopy.watchEdges.toNat then s.wakeLatch 0x040 else s

/-! ## Real-time clock and tamper inputs (03 R107–R109, R119, R120) -/

/-- The ticks within the second in hand; they run on the 32.768 kHz clock, whether or not the core clock does (03 R74;
02 R71). (DEDUCED, log 71.) -/
def rtcSub (s : State) : Nat := min 32767 ((s.time - s.canopy.secAt) * 32768 / 200000000)

/-- The count moves from `old` to `new`: RTC_SEC reaches or passes RTC_ALARM (03 Table 3.6). -/
def alarmPassed (s : State) (old new : Word) : Bool :=
  decide (old.toNat < s.canopy.rtcAlarm.toNat) && decide (s.canopy.rtcAlarm.toNat ≤ new.toNat)

/-- RTC_SECOND_TICK: the second advances; reaching or passing RTC_ALARM latches the RTC source. (DEDUCED, log 71.) -/
def rtcTick (s : State) : State :=
  let old := s.canopy.rtcSec
  let fire := s.alarmPassed old (old + 1)
  let s := s.modCanopy fun c => { c with rtcSec := old + 1, secAt := s.time }
  if fire then s.wakeLatch 0x080 else s

/-- RTC_SEC_WRITE (03 R108; 17 R645): a count set past RTC_ALARM fires the alarm. (DEDUCED, log 71.) -/
def rtcSecWrite (s : State) (w : Word) : State :=
  let fire := s.alarmPassed s.canopy.rtcSec w
  let s := (s.modCanopy fun c => { c with rtcSec := w, secAt := s.time, rtcValid := true }).pmClockSet
  if fire then s.wakeLatch 0x080 else s

/-- A write of RTC_ALARM: a value at or before the count fires the alarm (03 R119). (DEDUCED, log 71.) -/
def alarmWrite (s : State) (w : Word) : State :=
  let s := s.modCanopy fun c => { c with rtcAlarm := w }
  if w.toNat ≤ s.canopy.rtcSec.toNat then s.wakeLatch 0x080 else s

/-- TAMPER_EVENT (03 R109). -/
def tamperEvent (s : State) (n : Fin 2) : State :=
  let s := s.modCanopy fun c => { c with tampEvt := c.tampEvt ||| oneBit 2 n.val, tampTime := c.rtcSec }
  (s.hwSet 0x444 (oneBit 32 n.val)).wakeLatch (oneBit 10 (8 + n.val))

/-- LSE_FAIL and LSE_RECOVER (03 R107). -/
def lseFail (s : State) : State :=
  ((s.modCanopy fun c => { c with lseFail := true, rtcValid := false }).hwSet 0x43C 2).modPwr fun p => { p with lseOk := false }
def lseRecover (s : State) : State := s.modPwr fun p => { p with lseOk := true }

/-! ## Clock fault (03 Table 3.8, R102–R106, R117) -/

/-- A clock fault is counted and reported (03 R102, R106). -/
def noteClockFault (s : State) (sub : Fin 32768) : State :=
  let t := s.canopy.rtcSec.toNat * 32768 + sub.val
  let recent := (t :: s.pwr.recent.filter fun x => decide (t ≤ x + 32768)).take 3
  (s.modPwr fun p =>
    { p with faults := satInc p.faults, recent := recent, needRec := p.needRec || decide (3 ≤ recent.length) }).report 0x17 0 0 0

/-- The core clock is lost: PD2–PD7 are in reset with their arrays kept, every pin at its Clearing level; `k` is the state
from which PD1, the supervisor's blocks and the power registers go on (03 R103–R105). -/
def stopClock (s k : State) (levels : List (Nat × Level)) : State :=
  let t := ({ s with pwr := { s.pwr with kept := 0xF } } : State).retState
  { t with
    pwr := { k.pwr with st := .clockFault, coreOnRc := true, pllLock := false, pdUp := false, refOk := false }
    pins := { t.pins with keeper := levels }
    mem := { t.mem with banks := k.mem.banks }
    hp := k.hp, sc := k.sc, smb := k.smb, pack := k.pack, svc := k.svc, rs := k.rs
    tbs := { k.tbs with run := false }, reports := k.reports }

/-- The monitor can declare a fault: the core clock runs, or ran (03 R102). -/
def monitored (s : State) : Bool :=
  s.pwr.pllLock && (decide (s.pwr.st = .run) || decide (s.pwr.st = .entering) || decide (s.pwr.st = .exiting))

/-- CLOCK_FAULT is declared `sub` ticks into the RTC second. The third within 1 s needs CLKREC. During PARK entry the fault
is recorded and the entry goes on (03 R117). -/
def clockFault (s : State) (sub : Fin 32768) : State :=
  if !s.monitored then s
  else
    let s := s.noteClockFault sub
    if s.pwr.st = .entering then s.modPwr fun p => { p with faultEntry := true }
    else
      let levels := s.clearingLevels
      let s := (s.stopTraffic xCLOCK eCLOCK).discardQueue (fun e => pdAddr e.addr.toNat) kRESET
      s.stopClock s levels

/-! ## Registers (03 Tables 3.11–3.14) -/

/-- (DEDUCED, log 72.) -/
def pwrStateCode (s : State) : Nat :=
  match s.pwr.st with
  | .run => if s.pwr.dozeEn then 1 else 0
  | .entering => 2 | .exiting => 3 | .clockFault => 4 | .park => 5 | .off => 6

/-- A read of PWR_STATE clears REFUSE. -/
def pwrStateRead (s : State) : Word × State :=
  (packw [(s.pwr.refuse.toNat, 4), (s.pwrStateCode, 0)], s.modPwr fun p => { p with refuse := 0 })

def pwrRead (s : State) (a : Nat) : Option (Word × State) :=
  let v (w : Word) : Option (Word × State) := some (w, s)
  let c := s.canopy
  let p := s.pwr
  match a with
  | 0x400 => some s.pwrStateRead
  | 0x404 => v 0
  | 0x408 => v (packw [(p.keep.toNat, 4), (b2n p.dozeEn, 0)])
  | 0x40C => v (c.wakeEn.setWidth 32)
  | 0x410 => v (packw [(b2n c.retValid, 31), (c.wakeSrc.toNat, 0)])
  | 0x414 => v (packw [(c.watchWin.toNat, 16), (c.watchEdges.toNat, 8), (c.watchMask.toNat, 0)])
  | 0x418 => v c.parkTicks
  | 0x41C => v (packw [(p.faults.toNat, 16), (b2n p.coreOnRc, 3), (b2n p.lseOk, 2), (b2n p.pllLock, 1), (b2n p.refOk, 0)])
  | 0x430 => v c.rtcSec
  | 0x434 => v (.ofNat 32 s.rtcSub)
  | 0x438 => v c.rtcAlarm
  | 0x43C => v (packw [(b2n c.lseFail, 1), (b2n c.rtcValid, 0)])
  | 0x440 => v (c.tampCfg.setWidth 32)
  | 0x444 => v (c.tampEvt.setWidth 32)
  | 0x448 => v c.tampTime
  | _ => none

/-- A write of PWR_CMD. -/
def writePwrCmd (s : State) (w : Word) : State :=
  let key := fld w 31 16
  match fld w 3 0 with
  | 1 => s.pwrPark key false
  | 2 => s.pwrPark key true
  | 3 => s.pwrReset key 0
  | 4 => s.pwrClkrec key
  | _ => s

def pwrWrite (s : State) (a : Nat) (w : Word) : Option State :=
  match a with
  | 0x404 => some (s.writePwrCmd w)
  | 0x408 => some (s.modPwr fun p => { p with keep := .ofNat 4 (fld w 7 4), dozeEn := bit w 0 })
  | 0x40C => some (s.modCanopy fun c => { c with wakeEn := w.setWidth 10 })
  | 0x410 => some (s.modCanopy fun c => { c with wakeSrc := c.wakeSrc &&& ~~~(w.setWidth 10) })
  | 0x414 =>
    some (s.modCanopy fun c =>
      { c with watchWin := .ofNat 8 (fld w 23 16), watchEdges := .ofNat 8 (fld w 15 8), watchMask := .ofNat 4 (fld w 3 0) })
  | 0x430 => some (s.rtcSecWrite w)
  | 0x438 => some (s.alarmWrite w)
  | 0x43C => some (s.modCanopy fun c => { c with lseFail := c.lseFail && !bit w 1 })
  | 0x440 => some (s.modCanopy fun c => { c with tampCfg := w.setWidth 2 })
  | 0x444 => some (s.modCanopy fun c => { c with tampEvt := c.tampEvt &&& ~~~(w.setWidth 2) })
  | 0x400 | 0x418 | 0x41C | 0x434 | 0x448 => some s
  | _ => none

end State
end Sys2Proof.Machine
end

