-- ==== Sys2Proof/Machine/Upd.lean ====
section
/-!
DEFINITION. Machine/Upd.lean: the update agent, its records and node campaigns, and the registers of UPD and SVC (20).
-/
namespace Sys2Proof.Machine

/-- UPD_FLAG bits (20 Table 20.16). -/
def vDONE : BitVec 7 := 0x01
def vERR : BitVec 7 := 0x02
def vCONFIRMED : BitVec 7 := 0x04
def vFALLBACK : BitVec 7 := 0x08
def vNODEDONE : BitVec 7 := 0x10
def vNODEERR : BitVec 7 := 0x20
def vUPDWWR : BitVec 7 := 0x40

/-- Error codes (20 Table 20.9). -/
def eMAGIC : Nat := 1
def eHWTYPE : Nat := 2
def eUNIT : Nat := 3
def eLAYOUT : Nat := 4
def eKEY : Nat := 5
def eSEQ : Nat := 6
def eBUSY : Nat := 7
def eORDER : Nat := 8
def eSHORT : Nat := 9
def eBLKCRC : Nat := 10
def eFLASH : Nat := 11
def eSIG : Nat := 12
def eINNER : Nat := 13
def eNOTREADY : Nat := 14

/-- Bytes o to o + n of an object; bytes past its end read as zero. -/
def slice (bs : List Byte) (o n : Nat) : List Byte := padTo 0 n ((bs.drop o).take n)
/-- A little-endian field of an object (00 R5). -/
def field (bs : List Byte) (o n : Nat) : Nat := leNat (slice bs o n)
def allZero (bs : List Byte) : Bool := bs.all fun b => b == 0

/-! ## The flash (02 Table 2.1, R35) -/

/-- Offsets of the flash layout. -/
def slotBase (b : Bool) : Nat := if b then 0x200000 else 0x100000
def copyBase (c : Bool) : Nat := if c then 0x011000 else 0x001000
def stagingBase : Nat := 0x300000

/-- The boot state (20 Table 20.10). -/
structure BootRec where
  active : Bool := false
  trial : Option Bool := none
  started : Bool := false
  writing : Option Bool := none
  minSeq : Word := 0
  deriving DecidableEq, Repr

def slotOf (b : Byte) : Option Bool := if b = 0 then some false else if b = 1 then some true else none
def slotByte : Option Bool → Byte
  | none => 0xFF
  | some b => if b then 1 else 0

def BootRec.ofBytes (d : List Byte) : BootRec :=
  { active := d.getD 0 0 = 1, trial := slotOf (d.getD 1 0), started := d.getD 2 0 = 1, writing := slotOf (d.getD 3 0),
    minSeq := .ofNat 32 (field d 4 4) }
def BootRec.bytes (b : BootRec) : List Byte :=
  [if b.active then 1 else 0, slotByte b.trial, if b.started then 1 else 0, slotByte b.writing] ++ wordBytes b.minSeq ++
    List.replicate 40 0

/-- Progress STATE (20 Table 20.11). -/
def pNONE : Nat := 0
def pRECEIVING : Nat := 1
def pVERIFIED : Nat := 2
def pTRIAL : Nat := 3
def pNODES : Nat := 4

def cfgTrialCode : CfgTrial → Nat
  | .none => 0 | .armed => 1 | .started => 2

namespace State

def updFlag (s : State) (b : BitVec 7) : State :=
  (s.modUpd fun u => { u with flag := u.flag ||| b }).hwSet 0xC418 (b.setWidth 32)

/-- The agent starts nothing: during a clock fault, and while the supervisor is in reset (20 R762; 19 R701). -/
def updWaits (s : State) : Bool := s.pwr.st == .clockFault || s.flt.supReset

/-- n bytes of flash from an offset. (DEDUCED, log 86.) -/
def flashRead (s : State) (o n : Nat) : List Byte :=
  let cs := s.xf.cells.filter fun p => decide (o ≤ p.1) && decide (p.1 < o + n)
  cellReadList 0xFF cs o n
/-- Erase n bytes from an offset. -/
def flashErase (s : State) (o n : Nat) : State :=
  { s with xf := { s.xf with cells := s.xf.cells.filter fun p => decide (p.1 < o) || decide (o + n ≤ p.1) } }
/-- Program bytes at an offset that was erased. -/
def flashProgram (s : State) (o : Nat) (bs : List Byte) : State :=
  { s with xf := { s.xf with cells := cellWriteList 0xFF s.xf.cells o bs } }

/-- The boot state in force; defaults where it cannot be read (02 R45). -/
def bootRec (s : State) : BootRec :=
  match s.rsCurrent 0x01 0 with
  | some v => BootRec.ofBytes v.data
  | none => {}
def writeBootRec (s : State) (b : BootRec) : State := s.rsCommit 0x01 0 b.bytes

/-- The progress record as the agent's state stands, with a progress STATE; HDIG is in the digest's byte order (20 Table 20.11;
00 R6). -/
def progressBytes (s : State) (st target : Nat) : List Byte :=
  let u := s.upd
  digestBytes u.hdig ++ leBytes 2 u.next ++ leBytes 2 u.nblk ++
    [BitVec.ofNat 8 u.kind.toNat, BitVec.ofNat 8 st, BitVec.ofNat 8 target,
     BitVec.ofNat 8 (64 * cfgTrialCode u.cfgTrial + b2n u.cfgCopy)] ++
    leBytes 2 u.confWin.toNat ++ [u.flags] ++ wordBytes u.seq ++ [0]
/-- (DEDUCED, log 84.) -/
def writeProgress (s : State) (st target : Nat) : State := s.rsCommit 0x03 0 (s.progressBytes st target)

/-! ## State and events (20 Tables 20.16, 20.18) -/

def updStateCode (s : State) : Nat :=
  match s.upd.st with
  | .idle => 0 | .receiving => 1 | .programming => 2 | .verifying => 3 | .verified => 4 | .trial => 5 | .resumable => 6
  | .nodes => 7 | .error => 8
def updErrWord (s : State) : Word :=
  packw [(s.upd.errCode.toNat, 24), (s.upd.errInner.toNat, 16), (s.upd.errBlock.toNat, 0)]

/-- Client 0, the owner, and every client with FLT-class read rights. -/
def updReaders (s : State) : List (Fin 256) :=
  let rs := s.readers 14
  match s.upd.owner with
  | some c => if rs.contains c then rs else rs ++ [c]
  | none => rs

/-- STATE changes, and UPD_STATE is posted. (DEDUCED, log 83.) -/
def setUpd (s : State) (st : UpdState) : State :=
  if s.upd.st = st then s
  else
    let s := s.modUpd fun u => { u with st := st }
    s.postAll 4 s.updReaders 0x30 true (s.upd.kind.toNat * 64 + s.updStateCode) s.updErrWord s.upd.seq 0

/-- An error: STATE reads ERROR and UPD_ERR holds the code. -/
def updError (s : State) (code inner block : Nat) : State :=
  ((s.modUpd fun u => { u with errCode := .ofNat 8 code, errInner := .ofNat 8 inner, errBlock := .ofNat 10 block }).updFlag
    vERR).setUpd .error

def postConfirm (s : State) (cfg ok : Bool) (which : Bool) : State :=
  s.postAll 4 s.updReaders 0x31 true (2 * b2n cfg + b2n ok) (.ofNat 32 (b2n which)) s.upd.seq 0

/-- May the client use UPD_CMD and UPD_DATA now (20 R735)? -/
def updMine (s : State) (c : Fin 256) : Bool :=
  match s.upd.owner with
  | none => true
  | some o => decide (o = c)

/-- A word for the block buffer (20 R735, Table 20.16). -/
def updData (s : State) (c : Fin 256) (w : Word) : State :=
  if !s.updMine c || decide (1024 ≤ s.upd.buf.length) then s.updFlag vUPDWWR
  else s.modUpd fun u => { u with buf := u.buf ++ [w] }

def bufBytes (s : State) : List Byte := padTo 0 4096 (s.upd.buf.flatMap wordBytes)

/-- Is a signing key trusted as a bundle's is (02 R56, R57)? -/
def fleetTrusts (s : State) (key : List Byte) : Bool :=
  s.otp.fleetHash == 0 || sha256 key == s.otp.fleetHash

/-- The block an update image's payload of a kind takes: its limits of NBLK (20 Table 20.7). -/
def nblkMax (kind : Nat) : Nat := if kind = 1 then 97 else if kind = 2 then 16 else 896

/-- The first failing check of block 0, 0 when all pass (20 R736, Table 20.9). (DEDUCED, log 83.) -/
def beginCheck (s : State) (b : List Byte) : Nat :=
  let kind := field b 0x10 1
  let nblk := field b 0x12 2
  let plen := field b 0x14 4
  let confwin := field b 0x1C 2
  let seq := field b 0x18 4
  let br := s.bootRec
  let resv := allZero (slice b 0x1E 98) && decide (field b 0x11 1 ≤ 1) && allZero (slice b 0x120 224) &&
    (kind != 3 || (allZero (slice b 0x89 3) && allZero (slice b 0x90 48)))
  if field b 0 4 ≠ 0x5055584A ∨ field b 4 2 ≠ 1 ∨ !resv then eMAGIC
  else if field b 6 2 ≠ 0x0640 then eHWTYPE
  else if field b 8 8 ≠ 0 ∧ field b 8 8 ≠ s.otp.unitId.toNat then eUNIT
  else if kind < 1 ∨ 3 < kind ∨ (kind = 3 ∧ s.boot.st = .noBundle) ∨ nblk < (if kind = 1 then 2 else 1) ∨ nblkMax kind < nblk ∨
      nblk ≠ (plen + 4095) / 4096 ∨ (confwin ≠ 0 ∧ (confwin < 10 ∨ 3600 < confwin)) ∨
      (kind ≠ 3 ∧ allZero (slice b 0x80 64) = false) then eLAYOUT
  else if !s.fleetTrusts (slice b 0xC0 32) then eKEY
  else if (kind = 1 ∧ seq < br.minSeq.toNat) ∨ (kind = 2 ∧ seq ≤ s.boot.cfgSeq.toNat) then eSEQ
  else if s.upd.block ≠ [] ∨ s.upd.st = .programming ∨ s.upd.st = .verifying ∨ s.upd.st = .trial ∨ s.upd.st = .nodes ∨
      br.trial.isSome = true then eBUSY
  else 0

/-- UPD_CMD BEGIN by client c (20 R735–R737, R757, R759). (DEDUCED, log 83.) -/
def updBegin (s : State) (c : Fin 256) : State :=
  if !s.updMine c then s.updFlag vUPDWWR
  else
    let b := s.bufBytes
    let s := s.modUpd fun u => { u with buf := [] }
    let code := s.beginCheck b
    if code ≠ 0 then s.updError code 0 0
    else
      let dig := sha256 b
      let keep := (s.upd.st = .resumable ∨ s.upd.st = .receiving) ∧ dig = s.upd.hdig
      let kind := field b 0x10 1
      let win := field b 0x1C 2
      let target := if kind = 1 then !s.boot.slot else if kind = 2 then !s.boot.cfgCopy else false
      let s := s.modUpd fun u =>
        { u with owner := some c, head := b, hdig := dig, kind := .ofNat 2 kind, nblk := field b 0x12 2,
                 next := if keep then u.next else 1, seq := .ofNat 32 (field b 0x18 4), flags := .ofNat 8 (field b 0x11 1),
                 confWin := if win = 0 then u.win else .ofNat 16 win, target := target, confReq := false }
      let s := if kind = 1 ∧ s.bootRec.writing ≠ some target then s.writeBootRec { s.bootRec with writing := some target } else s
      let s := if keep then s else s.writeProgress pRECEIVING (b2n target)
      s.setUpd .receiving

/-- The flash offset of the update's target (20 R737). -/
def targetBase (s : State) : Nat :=
  if s.upd.kind = 1 then slotBase s.upd.target else if s.upd.kind = 2 then copyBase s.upd.target else stagingBase

/-- UPD_CMD BLOCK n by client c (20 R738, R739). (DEDUCED, log 83.) -/
def updBlock (s : State) (c : Fin 256) (n : Nat) : State :=
  if !s.updMine c || decide (s.upd.st ≠ .receiving) then s.updFlag vUPDWWR
  else if n ≠ s.upd.next ∨ s.upd.nblk < n then s.updError eORDER 0 n
  else if s.upd.buf.length < 1024 then s.updError eSHORT 0 n
  else
    let b := s.bufBytes
    let s := s.modUpd fun u => { u with buf := [] }
    if (crc32c b).toNat ≠ field s.upd.head (0x200 + 4 * (n - 1)) 4 then s.updError eBLKCRC 0 n
    else (s.modUpd fun u => { u with block := b, tries := 0 }).setUpd .programming

/-- An abort takes effect (20 R741): the target's first sector, or the staging blocks reached, are erased. -/
def doAbort (s : State) : State :=
  let u := s.upd
  let s :=
    if u.kind = 0 then s
    else if u.kind = 3 then s.flashErase stagingBase (((u.next - 1) * 4096 + 65535) / 65536 * 65536)
    else s.flashErase s.targetBase 4096
  let s := if u.kind = 1 then s.writeBootRec { s.bootRec with writing := none } else s
  let s := s.modUpd fun u =>
    { u with hdig := 0, next := 0, nblk := 0, kind := 0, head := [], block := [], abortPend := false, camp := none, seq := 0, flags := 0 }
  (s.writeProgress pNONE 0).setUpd .idle |>.modUpd fun u => { u with owner := none }

/-- UPD_BLOCK_PROGRAMMED: one attempt at the sector ends, with the read-back matching or not (20 R738, R760); an attempt that a
clock fault meets ends after it (R762). (DEDUCED, log 59.) -/
def updProgrammed (s : State) (ok : Bool) : State :=
  if s.upd.block = [] || s.updWaits then s
  else
    let u := s.upd
    let at_ := s.targetBase + 4096 * (u.next - 1)
    let s := s.flashErase at_ 4096
    if ok then
      let s := (s.flashProgram at_ u.block).modUpd fun u => { u with block := [], next := u.next + 1 }
      let s := s.writeProgress pRECEIVING (b2n u.target)
      let s := if s.upd.st = .programming then s.setUpd .receiving else s
      if u.abortPend then s.doAbort else s
    else if u.tries + 1 < 3 then s.modUpd fun u => { u with tries := u.tries + 1 }
    else
      let s := s.modUpd fun u => { u with block := [] }
      if u.abortPend then s.doAbort else s.updError eFLASH 0 u.next

/-- UPD_CMD END by client c (20 R740). (DEDUCED, log 83.) -/
def updEnd (s : State) (c : Fin 256) : State :=
  if !s.updMine c || decide (s.upd.st ≠ .receiving) then s.updFlag vUPDWWR
  else if s.upd.next ≠ s.upd.nblk + 1 then s.updError eSHORT 0 s.upd.next
  else s.setUpd .verifying

/-- UPD_CMD ABORT by client c (20 R741, R760). -/
def updAbort (s : State) (c : Fin 256) : State :=
  if !s.updMine c || decide (s.upd.st = .trial) then s.updFlag vUPDWWR
  else if s.upd.block ≠ [] then s.modUpd fun u => { u with abortPend := true }
  else s.doAbort

/-- UPD_CMD CONFIRM (20 R743, R761). -/
def updConfirm (s : State) : State := if s.upd.window then s.modUpd fun u => { u with confReq := true } else s

/-! ## Node campaigns (20 R750–R754) -/

def setNode (s : State) (l : Fin 4) (r : Nat) : State := s.modUpd fun u => { u with node := vset u.node l fun _ => .ofNat 4 r }

/-- FWVER of the node's identity, 0 where none is held. -/
def nodeFw (s : State) (l : Fin 4) : BitVec 16 := .ofNat 16 (field (s.link l).idrx 10 2)

/-- PLEN, ICRC, NEW_FWVER of the staged image. -/
def nodePlen (s : State) : Nat := field s.upd.head 0x14 4
def nodeIcrc (s : State) : Nat := field s.upd.head 0x8C 4
def nodeNewFw (s : State) : Nat := field s.upd.head 0x86 2

/-- The result of judging link l (20 Table 20.12): 0 NONE, 2 SENDING, 4 CURRENT, 5 SKIPPED. (DEDUCED, log 85.) -/
def nodeJudge (s : State) (l : Fin 4) : Nat :=
  let h := s.link l
  let d := s.upd.head
  let fw := (s.nodeFw l).toNat
  if !bit (d.getD 0x88 0) l.val then 0
  else if !h.en || h.fenced || h.mdcsel != 0 || h.idrx == [] then 5
  else if field h.idrx 0 2 ≠ field d 0x80 2 ∨ !bit (h.idrx.getD 12 0) 2 then 5
  else if fw = s.nodeNewFw then 4
  else if fw < field d 0x82 2 ∨ field d 0x84 2 < fw then 5
  else 2

/-- A client-0 message joins link l's egress, ahead of client messages (15 R594), with the next MSGID (20 R751). -/
def sendNode (s : State) (l : Fin 4) (req : Bool) (payload : List Byte) : State :=
  let id := s.upd.nextMsg
  let m : MdcMsg := { client := 0, buf := none, msgid := id, req := req, payload := payload }
  let s := s.modLink l fun h =>
    { h with mdcq := (h.mdcq.takeWhile fun x => x.buf.isNone) ++ m :: (h.mdcq.dropWhile fun x => x.buf.isNone) }
  s.modUpd fun u =>
    { u with nextMsg := if id = 0xFFF then 0x800 else id + 1
             camp := u.camp.map fun k => { k with msg := id, inFlight := true, acked := false, lost := false } }

/-- Send what the campaign's phase asks for (20 Table 20.13). (DEDUCED, log 85.) -/
def campSend (s : State) : State :=
  match s.upd.camp with
  | none => s
  | some k =>
    let plen := s.nodePlen
    match k.phase with
    | .start => s.sendNode k.link true ([0x41, 0] ++ leBytes 2 s.nodeNewFw ++ leBytes 4 plen ++ leBytes 4 s.nodeIcrc)
    | .data =>
      s.sendNode k.link false ([0x42, 0] ++ leBytes 4 k.offset ++ s.flashRead (stagingBase + k.offset) (min 54 (plen - k.offset)))
    | .end_ => s.sendNode k.link true ([0x43, 0] ++ leBytes 4 plen ++ leBytes 4 s.nodeIcrc)
    | .act => s.sendNode k.link true [0x44, 0]
    | .boot => s

/-- The campaign ends; NODE_UPD is posted for each link it touched (20 R754). -/
def campDone (s : State) (ok : Bool) : State :=
  let s := (s.modUpd fun u => { u with camp := none, nodeResp := none }).updFlag (if ok then vNODEDONE else vNODEERR)
  let told := s.updReaders
  let s := foldFin 4 (fun l s =>
    let r := (at_ s.upd.node l).toNat
    if 3 ≤ r then
      s.postAll 4 told 0x32 false (l.val * 4096 + r) (packw [((at_ s.upd.fw l).toNat, 16), ((s.nodeFw l).toNat, 0)]) 0 0
    else s) s
  (s.writeProgress pVERIFIED 0).setUpd .verified

/-- Judge links from `l` on, and start sending at the first that asks for it; `fuel` counts the links left (20 R750). -/
def campNext : Nat → Nat → State → State
  | 0, _, s => s.campDone true
  | fuel + 1, l, s =>
    if 4 ≤ l then s.campDone true
    else
      let k : Fin 4 := Fin.ofNat 4 l
      let r := s.nodeJudge k
      let s := (s.setNode k r).modUpd fun u => { u with fw := vset u.fw k fun _ => s.nodeFw k }
      if r = 2 then
        let s := s.modUpd fun u => { u with camp := some { link := k, phase := .start, offset := 0 } }
        (s.writeProgress pNODES l).campSend
      else campNext fuel (l + 1) s

/-- A campaign starts, or resumes at a link: links still to come are pending. -/
def campStart (s : State) (from_ : Nat) : State :=
  let s := foldFin 4 (fun l s =>
    if l.val < from_ then s else s.setNode l (if bit (s.upd.head.getD 0x88 0) l.val then 1 else 0)) s
  campNext 4 from_ (s.setUpd .nodes)

/-- A link fails, and the campaign stops (20 R753, R754). -/
def campFail (s : State) : State :=
  match s.upd.camp with
  | none => s
  | some k => (s.setNode k.link 6).campDone false

/-- A link is done, and the next is judged. (DEDUCED, log 85.) -/
def campLinkDone (s : State) : State :=
  match s.upd.camp with
  | none => s
  | some k => campNext (4 - (k.link.val + 1)) (k.link.val + 1) (s.setNode k.link 3)

def campGo (s : State) (p : CampPhase) (offset : Nat) : State :=
  (s.modUpd fun u => { u with camp := u.camp.map fun k => { k with phase := p, offset := offset, resends := 0 } }).campSend

/-- Data from an offset, or NU_END when nothing is left. -/
def campData (s : State) (offset : Nat) : State :=
  if offset < s.nodePlen then s.campGo .data offset else s.campGo .end_ offset

/-- A node's response (20 R752, R753). -/
def campResponse (s : State) : State :=
  match s.upd.nodeResp, s.upd.camp with
  | some (l, id, p), some k =>
    let s := s.modUpd fun u => { u with nodeResp := none }
    let opc := field p 0 1
    let st := field p 1 1
    if l ≠ k.link ∨ id ≠ k.msg then s
    else
      let s := s.modUpd fun u => { u with camp := u.camp.map fun k => { k with inFlight := false } }
      match k.phase with
      | .start => if opc = 0x41 ∧ st = 0 then s.campData (field p 2 4) else s.campFail
      | .end_ =>
        if opc = 0x43 ∧ st = 0 then s.campGo .act k.offset
        else if opc = 0x43 ∧ st = 6 ∧ k.ends < 2 then
          (s.modUpd fun u => { u with camp := u.camp.map fun k => { k with ends := k.ends + 1 } }).campData (field p 2 4)
        else s.campFail
      | .act => if opc = 0x44 ∧ st = 0 then s.modUpd fun u => { u with camp := u.camp.map fun k => { k with phase := .boot, at_ := s.time } } else s.campFail
      | _ => s
  | _, _ => s.modUpd fun u => { u with nodeResp := none }

/-- Is the campaign's message still with the link? -/
def campHeld (s : State) (k : Campaign) : Bool :=
  let h := s.link k.link
  h.mdcq.any (fun m => m.buf.isNone && m.msgid == k.msg) || h.out.any fun o => o.msg.buf.isNone && o.msg.msgid == k.msg

/-- The agent takes what the links told it: a lost NU_DATA message is sent again up to three times and another message's loss
fails the link, an acknowledgement moves NU_DATA on, a response is taken, and an identity that changed restarts the link's
judgement or ends its restart (20 R753, R754). (DEDUCED, log 85.) -/
def campStep (s : State) : State :=
  match s.upd.camp with
  | none => s
  | some k =>
    if s.updWaits then s
    else
      let s := s.modUpd fun u => { u with camp := u.camp.map fun k => { k with acked := false, lost := false, idChg := false } }
      let s :=
        if k.lost then
          (if k.phase = .data ∧ k.resends < 3 then
            (s.modUpd fun u => { u with camp := u.camp.map fun k => { k with resends := k.resends + 1 } }).campSend
          else s.campFail)
        else if k.acked && decide (k.phase = .data) then s.campData (k.offset + min 54 (s.nodePlen - k.offset))
        else s
      let s := s.campResponse
      if !k.idChg then s
      else
        match s.upd.camp with
        | none => s
        | some k =>
          if k.phase = .boot then (if (s.nodeFw k.link).toNat = s.nodeNewFw then s.campLinkDone else s)
          else campNext (4 - k.link.val) k.link.val s

/-- After a link event: what it tells the campaign. `s0` is the state before the event. -/
def campLink (s0 s : State) : State :=
  match s.upd.camp with
  | none => s
  | some k =>
    let acked := k.inFlight && s0.campHeld k && !s.campHeld k
    let chg := decide ((s0.link k.link).idrx ≠ (s.link k.link).idrx)
    (s.modUpd fun u =>
      { u with camp := u.camp.map fun k =>
          { k with inFlight := k.inFlight && !acked, at_ := if acked then s.time else k.at_, acked := k.acked || acked,
                   idChg := k.idChg || chg } }).campStep

/-- After MDC_GIVEUP: the message in hand may be lost (20 R753). (DEDUCED, log 85.) -/
def campGiveup (s0 s : State) : State :=
  match s.upd.camp with
  | none => s
  | some k =>
    if k.inFlight && s0.campHeld k && !s.campHeld k then
      (s.modUpd fun u => { u with camp := u.camp.map fun k => { k with inFlight := false, lost := true } }).campStep
    else s

/-- NODE_RESPONSE_TIMEOUT: 200 ms after the request was acknowledged no response came (20 R751). -/
def nodeRespTimeout (s : State) : State :=
  match s.upd.camp with
  | some k =>
    if k.phase = .boot ∨ k.phase = .data ∨ k.inFlight ∨ s.updWaits ∨ s.time < k.at_ + 40000000 then s else s.campFail
  | none => s

/-- NODE_BOOT_TIMEOUT: no new identity within NUBOOT seconds (20 R753). -/
def nodeBootTimeout (s : State) : State :=
  match s.upd.camp with
  | some k =>
    if k.phase = .boot ∧ s.updWaits = false ∧ k.at_ + 200000000 * s.upd.nuboot.toNat ≤ s.time then s.campFail else s
  | none => s

/-! ## Activation, confirmation and fall-back (20 R742–R749, R765) -/

/-- UPD_CMD ACTIVATE by client c. (DEDUCED, log 84.) -/
def updActivate (s : State) (c : Fin 256) : State :=
  if !s.updMine c then s.updFlag vUPDWWR
  else if s.upd.st ≠ .verified then s.updError eNOTREADY 0 0
  else
    let u := s.upd
    if u.kind = 1 then
      if s.boot.st = .noBundle then
        ((s.writeBootRec { s.bootRec with active := u.target, trial := none, started := false, writing := none }).writeProgress
          pNONE 0).resetBy 7
      else
        ((s.writeBootRec { s.bootRec with trial := some u.target, started := false, writing := none }).writeProgress
          pTRIAL (b2n u.target)).resetBy 7
    else if u.kind = 2 then
      let s := s.modUpd fun u => { u with cfgTrial := .armed, cfgCopy := u.target }
      let s := s.writeProgress pNONE (b2n u.target)
      let fmt := field (s.flashRead (copyBase u.target) 6) 4 2
      if s.boot.fmtMin.toNat ≤ fmt ∧ fmt ≤ s.boot.fmtMax.toNat then s.resetBy 7
      else (s.setUpd .idle).modUpd fun u => { u with owner := none }
    else s.campStart 0

/-- The conditions of R743 hold, but the window's end. -/
def trialGood (s : State) : Bool :=
  decide (s.boot.st = .running) && !s.upd.lasting && decide (s.flt.st = .run) && decide (100 ≤ s.upd.periods) &&
  (!s.upd.hostOk || s.upd.confReq)

/-- A trial is confirmed (20 R744). -/
def updConfirmed (s : State) : State :=
  let u := s.upd
  let b := s.bootRec
  let bundle := s.boot.trial
  let s :=
    if bundle then
      s.writeBootRec { b with active := s.boot.slot, trial := none, started := false,
                              minSeq := if bit u.flags 0 then u.seq else b.minSeq }
    else s
  let s := (s.modUpd fun u => { u with cfgTrial := .none, window := false, confReq := false }).writeProgress pNONE 0
  let s := (s.updFlag vCONFIRMED).postConfirm (!bundle) true (if bundle then s.boot.slot else u.cfgCopy)
  (s.setUpd .idle).modUpd fun u => { u with owner := none }

/-- The window fails (20 R745). -/
def updFallback (s : State) : State :=
  let bundle := s.boot.trial
  ((s.updFlag vFALLBACK).postConfirm (!bundle) false (if bundle then s.boot.slot else s.upd.cfgCopy)).resetBy 7

/-- A Roll Call period ends: the evidence of R743 is judged. -/
def updPeriod (s : State) : State :=
  let clean := s.flt.periodClean
  let s := (s.modFlt fun f => { f with periodClean := true }).modUpd fun u =>
    { u with periods := if clean then min 100 (u.periods + 1) else 0 }
  if s.upd.window && !s.updWaits && decide (s.time < s.upd.winEnd) && s.trialGood then s.updConfirmed else s

/-- ROLL_CALL_SLOT with the confirmation at a period's end (19 R703, 20 R743). -/
def rollCall (s : State) (answer : Option Bool) : State :=
  let t := s.rollCallSlot answer
  if s.flt.slot = 31 ∧ t.flt.slot ≠ 31 then t.updPeriod else t

/-- A record by FLT; a LASTING one during the window falls back, as soon as the supervisor runs (20 R743, R745). -/
def watchLasting (s : State) (f : State → State) : State :=
  let was := s.upd.lasting
  let s := f (s.modUpd fun u => { u with lasting := false })
  let now := s.upd.lasting
  let s := s.modUpd fun u => { u with lasting := was || now }
  if now && s.upd.window && !s.updWaits then s.updFallback else s

/-- UPD_CONFIRM_TIMEOUT: the window has run out (20 R745). (DEDUCED, log 73.) -/
def updTimeout (s : State) : State :=
  if s.upd.window && !s.updWaits && decide (s.upd.winEnd ≤ s.time) then s.updFallback else s

/-- The window of R743 opens. -/
def openWindow_ (s : State) : State :=
  (s.modUpd fun u =>
    { u with window := true, confReq := false, periods := 0, winEnd := s.time + u.confWin.toNat * 200000000 }).setUpd .trial

/-- The progress record's fields, taken at a start (20 Table 20.11). -/
def loadProgress (s : State) : Nat × Nat × State :=
  let r := s.rsRead 0x03 0
  let s := r.2
  match r.1 with
  | none => (0, 0, s)
  | some d =>
    let ct := field d 39 1
    (field d 37 1, field d 38 1, s.modUpd fun u =>
      { u with hdig := .ofNat 256 (leNat (slice d 0 32).reverse), next := field d 32 2, nblk := field d 34 2, kind := .ofNat 2 (field d 36 1)
               target := bit (d.getD 38 0) 0, confWin := .ofNat 16 (field d 40 2), flags := d.getD 42 0
               seq := .ofNat 32 (field d 43 4), cfgCopy := bit (d.getD 39 0) 0
               cfgTrial := if ct / 64 = 1 then .armed else if ct / 64 = 2 then .started else .none })

/-- The configuration trial at a start (20 R748, R749). -/
def startCfgTrial (s : State) (st : Nat) : State :=
  let u := s.upd
  match u.cfgTrial with
  | .none => s
  | .armed =>
    let code := (if u.cfgCopy then s.boot.errC1 else s.boot.errC0).toNat
    if s.boot.applied ∧ s.boot.cfgCopy = u.cfgCopy then
      let s := (s.modUpd fun u => { u with cfgTrial := .started }).writeProgress st (b2n u.target)
      s.openWindow_
    else if code = 0x0D then s
    else
      let s := s.modUpd fun u => { u with cfgTrial := .none, errCode := .ofNat 8 eINNER, errInner := .ofNat 8 code }
      ((s.writeProgress st (b2n u.target)).updFlag vFALLBACK).postConfirm true false u.cfgCopy
  | .started =>
    let s := (s.flashErase (copyBase u.cfgCopy) 4096).modUpd fun u => { u with cfgTrial := .none }
    let s := s.writeProgress st (b2n u.target)
    if s.boot.cfgCopy = u.cfgCopy then s.resetBy 7 else s

/-- UPD_AGENT_START: the agent sets STATE from the progress record (20 R746, R748, R749, R756, R765). -/
def updStart (s : State) : State :=
  if !s.rs.ready || s.boot.st == .loading || s.boot.st == .clockHold || s.upd.begun then s
  else
    let p := (s.modUpd fun u => { u with begun := true }).loadProgress
    let st := p.1
    let s := p.2.2
    let rom := decide (s.boot.st = .noBundle)
    let s :=
      if st = pRECEIVING then s.setUpd .resumable
      else if st = pVERIFIED then s.setUpd .verified
      else if st = pTRIAL ∧ !rom then
        if s.boot.trial then s.openWindow_
        else
          let s := (s.writeProgress pVERIFIED (b2n s.upd.target)).setUpd .verified
          if s.boot.trialFailed then (s.updFlag vFALLBACK).postConfirm false false s.upd.target else s
      else s
    let s := if rom then s else s.startCfgTrial (if st = pTRIAL ∧ !s.boot.trial then pVERIFIED else st)
    if st = pNODES ∧ !rom ∧ s.boot.applied then s.campStart (p.2.1) else s

/-- The agent carries out a command of UPD_CMD but CONFIRM. -/
def updRun (s : State) (c : Fin 256) (op n : Nat) : State :=
  match op with
  | 1 => s.updBegin c
  | 2 => s.updBlock c n
  | 3 => s.updEnd c
  | 4 => s.updActivate c
  | _ => s.updAbort c

/-- A command of UPD_CMD but CONFIRM: carried out at once, or when the agent may start a flash operation (20 R735, R762). -/
def updCmd (s : State) (c : Fin 256) (op n : Nat) : State :=
  if s.updWaits then s.modUpd fun u => { u with waits := u.waits ++ [(c, op, n)] } else s.updRun c op n

/-- The agent goes on after a clock fault or the supervisor's restart (20 R745, R762; 19 R701). (DEDUCED, log 83.) -/
def updResume (s : State) : State :=
  if s.updWaits then s
  else if s.upd.window && s.upd.lasting then s.updFallback
  else (s.upd.waits.foldl (fun s x => s.updRun x.1 x.2.1 x.2.2) (s.modUpd fun u => { u with waits := [] })).campStep

/-- The agent over PARK (20 R763): the block in hand is lost; a campaign resumes at its link. -/
def updParkExit (s : State) : State :=
  let u := s.upd
  let s := s.modUpd fun u =>
    { u with buf := [], block := [], abortPend := false, owner := none, camp := none, nodeResp := none, waits := [] }
  match u.st with
  | .receiving | .programming | .verifying => s.setUpd .resumable
  | .nodes => s.campStart ((u.camp.map fun k => k.link.val).getD 0)
  | _ => s

/-! ## Registers (20 Tables 20.16, 20.17) -/

/-- Seconds until a deadline of the model's time, rounded up. -/
def secondsTo (s : State) (end_ : Nat) : Nat := min 0xFFFF ((end_ - s.time + 199999999) / 200000000)

def svcFlag (s : State) (b : BitVec 4) : State :=
  (s.modSvc fun v => { v with flag := v.flag ||| b }).hwSet 0xC444 (b.setWidth 32)

/-- A read of SVC_CNT clears it. -/
def svcCntRead (s : State) : Word × State :=
  (packw [(s.svc.frames.toNat, 16), (s.svc.crcErr.toNat, 0)], s.modSvc fun v => { v with frames := 0, crcErr := 0 })

def updRead (s : State) (a : Nat) : Option (Word × State) :=
  let u := s.upd
  let x := s.svc
  let v (w : Word) : Option (Word × State) := some (w, s)
  match a with
  | 0xC400 => v (packw [(u.nuboot.toNat, 24), (b2n u.hostOk, 16), (u.win.toNat, 0)])
  | 0xC404 | 0xC408 => v 0
  | 0xC40C =>
    v (packw [(s.updStateCode, 28), (u.kind.toNat, 26), (b2n u.owner.isSome, 25), (b2n u.confReq, 24),
      ((u.owner.map fun c => c.val).getD 0, 16), (u.buf.length, 0)])
  | 0xC410 => v (packw [(u.next % 1024, 16), (u.nblk, 0)])
  | 0xC414 => v s.updErrWord
  | 0xC418 => v (u.flag.setWidth 32)
  | 0xC41C => v (u.ien.setWidth 32)
  | 0xC420 => v (.ofNat 32 (if u.window then s.secondsTo u.winEnd else 0))
  | 0xC424 =>
    v (packw [((u.node[0]).toNat, 0), ((u.node[1]).toNat, 4), ((u.node[2]).toNat, 8), ((u.node[3]).toNat, 12)])
  | 0xC440 =>
    v (packw [(b2n x.open_, 31), (b2n x.issuer, 30), (b2n x.window, 29), (b2n x.rom, 28),
      (if x.open_ then s.secondsTo x.endAt else 0, 0)])
  | 0xC444 => v (x.flag.setWidth 32)
  | 0xC448 => v (x.ien.setWidth 32)
  | 0xC44C => some s.svcCntRead
  | 0xC450 => v (x.hold[0])
  | 0xC454 => v (x.hold[1])
  | 0xC458 => v (x.hold[2])
  | 0xC45C => v (x.hold[3])
  | _ => none

/-- A write of UPD_CMD by client c. -/
def writeUpdCmd (s : State) (c : Fin 256) (w : Word) : State :=
  match fld w 31 28 with
  | 1 => s.updCmd c 1 0
  | 2 => s.updCmd c 2 (fld w 9 0)
  | 3 => s.updCmd c 3 0
  | 4 => s.updCmd c 4 0
  | 5 => s.updCmd c 5 0
  | 6 => s.updConfirm
  | _ => if s.updMine c then s else s.updFlag vUPDWWR

def updWrite (s : State) (c : Fin 256) (a : Nat) (w : Word) : Option State :=
  match a with
  | 0xC400 =>
    some (if fld w 15 0 < 10 ∨ 3600 < fld w 15 0 ∨ fld w 31 24 = 0 then s.updFlag vUPDWWR
          else if s.boot.locked then s
          else s.modUpd fun u => { u with nuboot := .ofNat 8 (fld w 31 24), hostOk := bit w 16, win := .ofNat 16 (fld w 15 0) })
  | 0xC404 => some (s.writeUpdCmd c w)
  | 0xC408 => some (s.updData c w)
  | 0xC418 => some (s.modUpd fun u => { u with flag := u.flag &&& ~~~(w.setWidth 7) })
  | 0xC41C => some (s.modUpd fun u => { u with ien := w.setWidth 7 })
  | 0xC444 => some (s.modSvc fun v => { v with flag := v.flag &&& ~~~(w.setWidth 4) })
  | 0xC448 => some (s.modSvc fun v => { v with ien := w.setWidth 4 })
  | 0xC40C | 0xC410 | 0xC414 | 0xC420 | 0xC424 | 0xC440 | 0xC44C | 0xC450 | 0xC454 | 0xC458 | 0xC45C => some s
  | _ => none

end State
end Sys2Proof.Machine
end

