-- ==== Sys2Proof/Machine/Regs.lean ====
section
/-!
DEFINITION. Machine/Regs.lean: the host address map (23 R825–R827, R839) and the register maps of GLB, TIME, GRV, CH, AD,
PL, TT, ME, HP, the Seating Chart, the client windows and the calendar. A read answers the word and the state after it;
none is an address that is not a register.
-/
namespace Sys2Proof.Machine

/-- The native address of an alias address (23 R839, Tables 23.5, 23.6); any other address is itself. (DEDUCED, log 90.) -/
def unalias (a : Nat) : Nat :=
  if 0xF0000 ≤ a ∧ a < 0xF0800 then
    let o := (a - 0xF0000) % 0x40
    let native :=
      if o < 0x10 then o
      else if o < 0x18 then o + 4
      else o + 8
    let native := if o = 0x38 then 0x50 else if o = 0x3C then 0x54 else native
    0x2000 + 0x80 * ((a - 0xF0000) / 0x40) + native
  else if 0xF0800 ≤ a ∧ a < 0xF0880 then
    let o := (a - 0xF0800) % 0x20
    if o < 0x10 then 0x1000 + 0x100 * ((a - 0xF0800) / 0x20) + o else a
  else a

namespace State

/-- The native address an access reaches: the alias exists in JX32 mode only (23 R839). -/
def nativeAddr (s : State) (a : Nat) : Nat := if s.compat then unalias a else a

/-! ## GLB and TIME (00 Table 0.2, 02 Tables 2.13–2.16, 03 Tables 3.12, 3.13, 04 Table 4.7) -/

/-- GLB_BOOT (02 Table 2.13). -/
def bootWord (s : State) : Word :=
  let b := s.boot
  let st := match b.st with
    | .loading => 0 | .running => 1 | .unlocked => 2 | .noConfig => 3 | .noBundle => 4 | .clockHold => 5
  packw [(st, 28), (b2n b.open_, 23), (b2n b.quadFallback, 22), (b2n b.trial, 21), (b2n b.trialFailed, 20),
        (b2n b.slotFallback, 19), (b2n b.cfgFallback, 18), (b2n b.slot, 17), (b2n b.cfgCopy, 16), (b.loaderErr.toNat, 0)]

/-- GLB_LOCK.REMAIN: milliseconds left before deferred lock (02 Table 2.16). (DESIGN CHOICE, log 105.) -/
def lockRemain (s : State) : Nat :=
  if s.boot.st = .unlocked ∧ (s.boot.lockAt - s.tb).toNat < 2 ^ 47 then ((s.boot.lockAt - s.tb).toNat + 199999) / 200000 else 0

/-- A grove released at lock: from a VALLEY, with its stagger (02 R63). (DEDUCED, log 77, DESIGN CHOICE, log 96.) -/
def releaseGrove (s : State) (g : Fin 8) : State :=
  s.groveTickWith g ((groveChans g).filter fun n => (s.chan n).c.en) true true

def glbRead (s : State) (a : Nat) : Option (Word × State) :=
  let v (w : Word) : Option (Word × State) := some (w, s)
  match a with
  | 0x00 => v 0x0640B000
  | 0x04 => v (packw [(b2n s.pwr.compat, 0)])
  | 0x08 => v (packw [(s.canopy.cause.toNat, 0)])
  | 0x10 => v s.bootWord
  | 0x14 => v (packw [(s.boot.errA.toNat, 24), (s.boot.errB.toNat, 16), (s.boot.errC0.toNat, 8), (s.boot.errC1.toNat, 0)])
  | 0x18 => v s.boot.tApply
  | 0x1C => v s.boot.ver
  | 0x20 => v s.boot.cfgSeq
  | 0x24 => v (packw [(s.lockRemain, 16), (b2n s.boot.deferred, 1), (b2n s.boot.locked, 0)])
  | 0x40 => some (s.readTb false)
  | 0x44 => some (s.readTb true)
  | 0x48 => v 0
  | 0x4C => v (packw [(s.tbs.seq.toNat, 8), (b2n s.tbs.valid, 1), (b2n s.tbs.rwr, 0)])
  | 0x50 => v (lo32 s.tbs.snap)
  | 0x54 => v (hi16 s.tbs.snap)
  | _ => none

/-! ## Groves (04 Table 4.6, 05 Table 5.10) -/

/-- GRV_ISTAT.OERR and GRV_RDM.HELD: a bit for each channel of the grove that p picks. -/
def groveBits (s : State) (g : Fin 8) (p : Chan → Bool) : Nat :=
  (List.finRange 8).foldl (fun a k => a + b2n (p (s.chan (chanOf g k))) * 2 ^ k.val) 0

/-- GRV_STAT.ANYRUN (04 R129, Table 4.6). -/
def groveRuns (s : State) (g : Fin 8) : Bool := (groveChans g).any fun n => s.runs n

def grvRead (s : State) (g : Fin 8) (o : Nat) : Option (Word × State) :=
  let x := s.grove g
  let v (w : Word) : Option (Word × State) := some (w, s)
  match o with
  | 0x00 => v (x.psc.setWidth 32)
  | 0x04 => v 0
  | 0x08 => v (packw [(b2n x.serr, 2), (b2n x.wwr, 1), (b2n (s.groveRuns g), 0)])
  | 0x0C => v (x.stag.setWidth 32)
  | 0x10 => v (packw [(b2n x.arm, 0)])
  | 0x14 => v 0
  | 0x18 => v (packw [(s.groveBits g (fun c => bit c.o.clr 9), 8), (b2n x.rdmActive, 1)])
  | 0x1C => v (packw [(b2n x.rdmIe, 16), (b2n x.rdmDone, 8),
      (s.groveBits g (fun c => (c.o.ostat &&& (c.o.ocfg >>> 16).setWidth 8) != 0), 0)])
  | _ => none

/-- GRV_CMD (04 R163): STOP wins over START. -/
def grvCmd (s : State) (g : Fin 8) (w : Word) : State :=
  if bit w 1 then s.groveStop g else if bit w 0 then s.groveStart g else s

/-- CH_OCMD.CLR and GRV_CLRCMD.CLR set SW (05 Table 5.4). -/
def setSw (s : State) (n : Fin 64) : State := s.setCause n cSW

/-- GRV_CLRCMD: SW ends set when CLR and REL come together (05 Table 5.4). -/
def grvClrcmd (s : State) (g : Fin 8) (w : Word) : State :=
  let s := if bit w 2 then s.releaseTrip g else s
  let s := if bit w 1 then (groveChans g).foldl (fun s n => s.releaseSw n) s else s
  if bit w 0 then (groveChans g).foldl (fun s n => s.setSw n) s else s

def grvWrite (s : State) (g : Fin 8) (o : Nat) (w : Word) : Option State :=
  match o with
  | 0x00 => some (s.writePsc g w)
  | 0x04 => some (s.grvCmd g w)
  | 0x08 => some (s.modGrove g fun x => { x with serr := x.serr && !bit w 2, wwr := x.wwr && !bit w 1 })
  | 0x0C => some (s.modGrove g fun x => { x with stag := .ofNat 9 (fld w 8 0) })
  | 0x10 => some (if bit w 0 then s.armGrove g else s)
  | 0x14 => some (s.grvClrcmd g w)
  | 0x18 => some (if bit w 0 then s.rdmGo g else s)
  | 0x1C => some (s.modGrove g fun x => { x with rdmIe := bit w 16, rdmDone := x.rdmDone && !bit w 8 })
  | _ => none

/-! ## Channels (04 Tables 4.2–4.5, 05 Tables 5.7–5.9) -/

/-- CH_STAT (04 Table 4.3); CLEARING is the channel's being in Clearing. (DESIGN CHOICE, log 99.) -/
def chStat (s : State) (n : Fin 64) : Word :=
  let c := s.chan n
  let mpend := (List.finRange 4).foldl (fun a i => a + b2n (at_ c.c.mats i).pending.isSome * 2 ^ i.val) 0
  packw [(mpend, 20), (b2n c.c.cfgErr, 19), (b2n c.cp.sw, 18), (b2n c.cp.dirDown, 17), (b2n c.fenced, 16),
        (c.cp.ovrCnt.toNat, 8), (b2n c.c.rldPending.isSome, 3), (b2n c.o.inClr, 2), (b2n c.c.down, 1), (b2n (s.runs n), 0)]

def chOstat (s : State) (n : Fin 64) : Word :=
  let o := (s.chan n).o
  let shd := o.queue.foldl (fun a e => if e.shadow.isSome then a + 2 ^ e.slot.val else a) 0
  packw [(o.ostat.toNat, 24), (shd, 16), (o.last.val, 8), ((o.queue.head?.map fun e => e.slot.val).getD 0, 4),
        (o.queue.length, 0)]

def chPair (s : State) (n : Fin 64) : Word :=
  let p := (s.chan n).o.pair
  packw [(b2n p.forcePend, 22), (p.forceAct.toNat, 20), (p.force.toNat, 18), (b2n p.mode, 16), (p.dt.toNat, 0)]

def chRead (s : State) (n : Fin 64) (o : Nat) : Option (Word × State) :=
  let c := s.chan n
  let v (w : Word) : Option (Word × State) := some (w, s)
  if 0x30 ≤ o ∧ o < 0x50 then
    let m := at_ c.c.mats (Fin.ofNat 4 ((o - 0x30) / 8))
    v (if o % 8 = 0 then lo32 m.value else hi16 m.value)
  else
    match o with
    | 0x00 => v (c.c.ctl.setWidth 32)
    | 0x04 => v (s.chStat n)
    | 0x08 => v (c.ev.flag.setWidth 32)
    | 0x0C => v c.ev.readEven
    | 0x10 => v c.ev.readSvc
    | 0x14 => v 0
    | 0x18 => v (c.cp.cfg.setWidth 32)
    | 0x1C => v (c.c.matcfg.setWidth 32)
    | 0x20 => some (s.readCnt n false)
    | 0x24 => some (s.readCnt n true)
    | 0x28 => v (lo32 c.c.reload)
    | 0x2C => v (hi16 c.c.reload)
    | 0x50 => some (s.readCapLo n)
    | 0x54 => v (c.cp.hold.setWidth 32)
    | 0x58 => v (c.o.ocfg.setWidth 32)
    | 0x5C => v (s.chOstat n)
    | 0x60 => v (c.o.clr.setWidth 32)
    | 0x64 => v 0
    | 0x68 => v 0
    | 0x6C => v 0
    | 0x70 => v 0
    | 0x74 => v (if n.val % 2 = 1 then 0 else s.chPair n)
    | 0x78 => v (c.o.link.setWidth 32)
    | 0x7C => v (c.o.lkout.setWidth 32)
    | _ => none

/-- CH_CMD.OVRCLR (04 R147). -/
def ovrClr (s : State) (n : Fin 64) : State := s.modChan n fun c => { c with cp := { c.cp with ovrCnt := 0 } }

/-- CH_CMD: STOP wins over GO (04 R163); OVRCLR comes before SWCAP. (DESIGN CHOICE, log 97.) -/
def chCmd (s : State) (n : Fin 64) (w : Word) : State :=
  let s := if bit w 3 then s.ovrClr n else s
  let s := if bit w 0 then s.swCapture n else s
  if bit w 1 then s.stopChan n else if bit w 2 then s.chanGo n else s

/-- CH_OCMD: SW ends set when CLR and REL come together (05 Table 5.4). -/
def chOcmd (s : State) (n : Fin 64) (w : Word) : State :=
  let s := if bit w 3 then s.flushCmd n else s
  let s := if bit w 2 then s.releaseSync n else s
  let s := if bit w 1 then s.releaseSw n else s
  if bit w 0 then s.setSw n else s

/-- EQ_ARG of a writer path (05 R172). -/
def eqArg (s : State) (n : Fin 64) (p : Path) (w : Word) : State :=
  s.modOut n fun o => { o with args := vset o.args (pathIx p) fun _ => w }
/-- EQ_PUSH and EQ_SHD take the target's low bits from the path's EQ_ARG (05 R172). -/
def eqPush (s : State) (n : Fin 64) (p : Path) (w : Word) : State :=
  s.pushEdge n w (wide w (at_ (s.chan n).o.args (pathIx p)))
def eqShd (s : State) (n : Fin 64) (p : Path) (w : Word) : State :=
  s.loadShadow n w (wide w (at_ (s.chan n).o.args (pathIx p)))

def chWrite (s : State) (p : Path) (n : Fin 64) (o : Nat) (w : Word) : Option State :=
  if 0x30 ≤ o ∧ o < 0x50 then
    let i : Fin 4 := Fin.ofNat 4 ((o - 0x30) / 8)
    some (if o % 8 = 0 then s.writeMatLo n i w else s.writeMatHi n i w)
  else
    match o with
    | 0x00 => some (s.writeCtl n w)
    | 0x08 => some (s.modChan n fun c => { c with ev := c.ev.clear w })
    | 0x0C => some (s.modChan n fun c => { c with ev := c.ev.writeEven 0x7FF w })
    | 0x10 => some (s.modChan n fun c => { c with ev := c.ev.writeSvc w })
    | 0x14 => some (s.chCmd n w)
    | 0x18 => some (s.writeCapcfg n w)
    | 0x1C => some (s.modCnt n fun c => { c with matcfg := .ofNat 12 (fld w 11 0) })
    | 0x20 => some (s.writeCnt n false w)
    | 0x24 => some (s.writeCnt n true w)
    | 0x28 => some (s.writeReloadLo n w)
    | 0x2C => some (s.writeReloadHi n w)
    | 0x58 => some (s.writeOcfg n w)
    | 0x5C => some ((s.modOut n fun x => { x with ostat := x.ostat &&& ~~~((w >>> 24).setWidth 8) }).lasting n)
    | 0x64 => some (s.chOcmd n w)
    | 0x68 => some (s.eqArg n p w)
    | 0x6C => some (s.eqPush n p w)
    | 0x70 => some (s.eqShd n p w)
    | 0x74 => some (s.writePair n w)
    | 0x78 => some (s.modOut n fun x => { x with link := .ofNat 8 (fld w 7 0) })
    | 0x7C => some (s.modOut n fun x => { x with lkout := .ofNat 13 (fld w 12 0) }).settleLkdup
    | _ => (s.chRead n o).map fun _ => s

/-! ## Angle domains and checkers (06 Tables 6.7–6.11) -/

/-- AD_STAT (06 Table 6.9). -/
def adStat (s : State) (d : Fin 3) : Word :=
  let a := s.ad d
  let st := match a.st with | .off => 0 | .search => 1 | .candidate => 2 | .locked => 3 | .lost => 4
  packw [(st, 28), (a.reason.toNat, 24), (b2n (s.held d), 23), (b2n a.govAct, 22), (b2n a.rev, 21), (b2n a.cfgErr, 20),
        (a.sector.val, 13), (a.pitch, 0)]

def adRead (s : State) (d : Fin 3) (o : Nat) : Option (Word × State) :=
  let a := s.ad d
  let v (w : Word) : Option (Word × State) := some (w, s)
  if 0x50 ≤ o ∧ o < 0x60 then v (at_ a.atrig (Fin.ofNat 4 ((o - 0x50) / 4)))
  else if 0x100 ≤ o ∧ o < 0x200 then v (at_ a.code (Fin.ofNat 64 ((o - 0x100) / 4)))
  else
    match o with
    | 0x00 => v (a.ctl.setWidth 32)
    | 0x04 => v a.wheel
    | 0x08 => v (a.src.setWidth 32)
    | 0x0C => v a.sync
    | 0x10 => v (a.codecfg.setWidth 32)
    | 0x14 => v (a.zero.setWidth 32)
    | 0x18 => v a.slow
    | 0x1C => v (a.hall.setWidth 32)
    | 0x20 => v (s.adStat d)
    | 0x24 => v (a.ev.flag.setWidth 32)
    | 0x28 => v a.ev.readEven
    | 0x2C => v a.ev.readSvc
    | 0x30 => v (a.position s.tb)
    | 0x34 => v (if a.st = .locked then a.per else a.k.raw)
    | 0x38 => v a.pred
    | 0x3C => v 0
    | 0x40 => v (a.gov.setWidth 32)
    | 0x44 => v a.govMin
    | 0x48 => v a.govClr
    | 0x4C => v (packw [(a.losts.toNat, 16), (a.govs.toNat, 0)])
    | _ => none

/-- A write to a wheel description register: lockable, and refused with WWR while EN is 1 if it would change it (06 R260). -/
def adWheel (s : State) (d : Fin 3) (old new : Word) (put : AngleDom → AngleDom) : State :=
  if s.boot.locked then s
  else if (s.ad d).en then (if old = new then s else s.raiseAd d aWWR)
  else s.modAd d put

/-- AD_CMD: LOSE wins over DROP (06 R231). -/
def adCmd (s : State) (d : Fin 3) (w : Word) : State :=
  if bit w 1 then s.adLose d else if bit w 0 then s.adDrop d else s

def adWrite (s : State) (d : Fin 3) (o : Nat) (w : Word) : Option State :=
  let a := s.ad d
  if 0x50 ≤ o ∧ o < 0x60 then some (s.writeTrig d (Fin.ofNat 4 ((o - 0x50) / 4)) w)
  else if 0x100 ≤ o ∧ o < 0x200 then
    let i : Fin 64 := Fin.ofNat 64 ((o - 0x100) / 4)
    some (s.adWheel d (at_ a.code i) w fun a => { a with code := vset a.code i fun _ => w })
  else
    match o with
    | 0x00 => some (s.writeAdCtl d w)
    | 0x04 => some (s.adWheel d a.wheel (w &&& 0xFFFF03FF) fun a => { a with wheel := w &&& 0xFFFF03FF })
    | 0x08 => some (s.adWheel d (a.src.setWidth 32) (w &&& 0xFFF) fun a => { a with src := .ofNat 12 (fld w 11 0) })
    | 0x0C => some (s.adWheel d a.sync w fun a => { a with sync := w })
    | 0x10 => some (s.adWheel d (a.codecfg.setWidth 32) (w &&& 0x7F1F) fun a => { a with codecfg := .ofNat 15 (fld (w &&& 0x7F1F) 14 0) })
    | 0x14 => some (s.writeZero d w)
    | 0x18 => some (s.adWheel d a.slow w fun a => { a with slow := w })
    | 0x1C => some (s.adWheel d (a.hall.setWidth 32) (w &&& 0x3FFFF) fun a => { a with hall := .ofNat 18 (fld w 17 0) })
    | 0x24 => some (s.modAd d fun a => { a with ev := a.ev.clear w })
    | 0x28 => some (s.modAd d fun a => { a with ev := a.ev.writeEven 0x7FFF w })
    | 0x2C => some (s.modAd d fun a => { a with ev := a.ev.writeSvc w })
    | 0x3C => some (s.adCmd d w)
    | 0x40 => some (s.writeGov d w)
    | 0x44 => some (if s.boot.locked then s else s.modAd d fun a => { a with govMin := w })
    | 0x48 => some (if s.boot.locked then s else s.modAd d fun a => { a with govClr := w })
    | _ => (s.adRead d o).map fun _ => s

def plRead (s : State) (i : Fin 2) (o : Nat) : Option (Word × State) :=
  let p := s.pl i
  let v (w : Word) : Option (Word × State) := some (w, s)
  match o with
  | 0x00 => v (p.ctl.setWidth 32)
  | 0x04 => v p.ratio
  | 0x08 => v (p.win.setWidth 32)
  | 0x0C => v p.minper
  | 0x10 => v (packw [(p.trips.toNat, 16), (p.cnt.toNat, 8), (b2n p.cfgErr, 2), (b2n p.viol, 1), (b2n p.trip, 0)])
  | _ => none

def plWrite (s : State) (i : Fin 2) (o : Nat) (w : Word) : Option State :=
  match o with
  | 0x00 => some (s.writePlCtl i w)
  | 0x04 => some (if s.boot.locked then s else s.modPl i fun p => { p with ratio := w })
  | 0x08 => some (if s.boot.locked then s else s.modPl i fun p => { p with win := .ofNat 16 (fld w 15 0) })
  | 0x0C => some (if s.boot.locked then s else s.modPl i fun p => { p with minper := w })
  | 0x10 => some (if bit w 0 then s.clearTrip i else s)
  | _ => none

/-! ## Timetable and microengine (07 Tables 7.11, 7.12, 08 Table 8.10) -/

/-- TT_LAT reads and clears the largest latency (07 Table 7.11). -/
def ttLatRead (s : State) : Word × State := (s.tt.lat, s.modTt fun t => { t with lat := 0 })

def ttRead (s : State) (a : Nat) : Option (Word × State) :=
  let v (w : Word) : Option (Word × State) := some (w, s)
  match a with
  | 0x4800 => v s.ttStat
  | 0x4804 => v (s.tt.flag.setWidth 32)
  | 0x4808 => v (s.tt.ien.setWidth 32)
  | 0x480C => v (packw [(s.tt.herrStatus.toNat, 28), (s.tt.herrClient.val, 16), (s.tt.herrHandle.toNat, 0)])
  | 0x4810 => v (s.ttReq 0)
  | 0x4814 => v (s.ttReq 1)
  | 0x4818 => v (s.ttReq 2)
  | 0x481C => some s.ttLatRead
  | 0x4820 => v s.tt.cnt
  | _ => none

def ttWrite (s : State) (a : Nat) (w : Word) : Option State :=
  match a with
  | 0x4804 => some (s.modTt fun t => { t with flag := t.flag &&& ~~~(w.setWidth 5) })
  | 0x4808 => some (s.modTt fun t => { t with ien := w.setWidth 5 })
  | _ => (s.ttRead a).map fun _ => s

def meRead (s : State) (a : Nat) : Option (Word × State) :=
  let v (w : Word) : Option (Word × State) := some (w, s)
  let m := s.me
  if 0x4C40 ≤ a ∧ a < 0x4C60 then v (at_ m.g (Fin.ofNat 8 ((a - 0x4C40) / 4)))
  else
    match a with
    | 0x4C00 => v (packw [(m.trapEntry.toNat, 16), (b2n m.hen, 1), (b2n m.en, 0)])
    | 0x4C04 => v s.meStat
    | 0x4C08 => v s.mePc
    | 0x4C0C => v (packw [(m.spillFrames.toNat, 16), (m.spillBase.toNat, 0)])
    | 0x4C10 => v (packw [(m.trapCode.toNat, 28), (m.trapOwner.val, 16), (m.trapPc.toNat, 0)])
    | 0x4C14 => v m.trapAddr
    | 0x4C18 => v (m.lstep.setWidth 32)
    | 0x4C1C => v (m.wdog.setWidth 32)
    | 0x4C20 => v (packw [(m.eccAddr.toNat, 16), (m.eccCorr.toNat, 0)])
    | 0x4C60 => v (m.sig.setWidth 32)
    | _ => none

def meWrite (s : State) (a : Nat) (w : Word) : Option State :=
  if 0x4C40 ≤ a ∧ a < 0x4C60 then some (s.writeG (Fin.ofNat 8 ((a - 0x4C40) / 4)) w)
  else
    match a with
    | 0x4C00 => some (s.writeMeCtl w)
    | 0x4C0C => some (s.writeSpill w)
    | 0x4C1C => some (if s.boot.locked then s else s.modMe fun m => { m with wdog := .ofNat 24 (fld w 23 0) })
    | 0x4C60 => some (s.modMe fun m => { m with sig := m.sig &&& ~~~(w.setWidth 8) })
    | _ => (s.meRead a).map fun _ => s

def calRead (s : State) (a : Nat) : Word := s.readCalWord (Fin.ofNat 1024 ((a - 0x88000) / 0x10)) ((a - 0x88000) / 4 % 4)
/-- A write to a calendar word: word 3 inserts with ARM 1 and cancels with ARM 0 (07 R278, R279). -/
def calWrite (s : State) (c : Fin 256) (a : Nat) (w : Word) : State :=
  let h : Fin 1024 := Fin.ofNat 1024 ((a - 0x88000) / 0x10)
  let i := (a - 0x88000) / 4 % 4
  if i < 3 then s.writeCalWord h i w else if bit w 31 then s.hostInsert c h w else s.hostCancel c h

/-! ## Host port (13 Table 13.7) -/

/-- HP_CNT0–HP_CNT2: a read clears both counts (13 Table 13.7). -/
def hpCntRead (s : State) (i : Fin 3) : Word × State :=
  let h := s.hp
  match i with
  | 0 => (packw [(h.cntPar.toNat, 16), (h.cntCrc.toNat, 0)], s.modHp fun h => { h with cntPar := 0, cntCrc := 0 })
  | 1 => (packw [(h.cntAbort.toNat, 16), (h.cntBusy.toNat, 0)], s.modHp fun h => { h with cntAbort := 0, cntBusy := 0 })
  | 2 => (packw [(h.cntWerr.toNat, 16), (h.cntMissed.toNat, 0)], s.modHp fun h => { h with cntWerr := 0, cntMissed := 0 })

def hpRegRead (s : State) (a : Nat) : Option (Word × State) :=
  let v (w : Word) : Option (Word × State) := some (w, s)
  let h := s.hp
  match a with
  | 0x6400 => v (h.csen.setWidth 32)
  | 0x6404 => v (packw [(min 16 h.queue.length, 0)])
  | 0x6408 => v (h.flag.setWidth 32)
  | 0x640C => v (packw [(h.errClient.val, 24), (h.errCause.toNat, 21), (h.errCs.val, 20), (h.errAddr.toNat, 0)])
  | 0x6410 => some (s.hpCntRead 0)
  | 0x6414 => some (s.hpCntRead 1)
  | 0x6418 => some (s.hpCntRead 2)
  | _ => none

def hpRegWrite (s : State) (a : Nat) (w : Word) : Option State :=
  match a with
  | 0x6400 => some (if s.boot.locked then s else s.modHp fun h => { h with csen := w.setWidth 2 })
  | 0x6408 => some (s.modHp fun h => { h with flag := h.flag &&& ~~~(w.setWidth 5) })
  | _ => (s.hpRegRead a).map fun _ => s

/-! ## Seating Chart and client windows (14 Tables 14.10–14.12) -/

def scRead (s : State) (a : Nat) : Option (Word × State) :=
  let v (w : Word) : Option (Word × State) := some (w, s)
  if 0x10020 ≤ a ∧ a < 0x12000 then v (s.readRecord (Fin.ofNat 256 ((a - 0x10000) / 0x20)) ((a - 0x10000) / 4 % 8))
  else
    match a with
    | 0x10000 => v 0
    | 0x10004 => v s.scGstat
    | 0x10008 => v (s.sc.flag.setWidth 32)
    | 0x1000C => v (packw [(s.bufFree.length, 0)])
    | 0x10010 => v (packw [(s.sc.frecClient.val, 24), (s.sc.frecCause.toNat, 20)])
    | 0x10014 => v (packw [(s.sc.werrRecord.val, 24), (s.sc.werrReason.toNat, 20)])
    | _ => none

def scWrite (s : State) (p : Path) (c : Fin 256) (a : Nat) (w : Word) : Option State :=
  if 0x10020 ≤ a ∧ a < 0x12000 then
    some (s.recordWrite (decide (p = .sup)) c (Fin.ofNat 256 ((a - 0x10000) / 0x20)) ((a - 0x10000) / 4 % 8) w)
  else
    match a with
    | 0x10000 => some (s.scCmd w)
    | 0x10008 => some (s.modSc fun x => { x with flag := x.flag &&& ~~~(w.setWidth 6) })
    | _ => (s.scRead a).map fun _ => s

def winRead (s : State) (a : Nat) : Option (Word × State) :=
  let n : Fin 256 := Fin.ofNat 256 ((a - 0x12000) / 0x10)
  match (a - 0x12000) % 0x10 with
  | 0x0 => some (s.evPop n)
  | 0x4 => some (s.evStat n, s)
  | 0x8 => some (s.bufAlloc n)
  | 0xC => some (0, s)
  | _ => none

/-- A write to a client window acts as the writing client (14 R528). -/
def winWrite (s : State) (c : Fin 256) (a : Nat) (w : Word) : Option State :=
  match (a - 0x12000) % 0x10 with
  | 0xC => some (s.bufCmd c w)
  | 0x0 => some s
  | 0x4 => some s
  | 0x8 => some s
  | _ => none

/-! ## The whole map (23 R825, R826, Table 23.1) -/

/-- Read of the register at a native address; the banks and the program store are not registers of this function. -/
def regRead (s : State) (a : Nat) : Option (Word × State) :=
  if a % 4 ≠ 0 then none
  else if a < 0x400 then s.glbRead a
  else if a < 0x800 then s.pwrRead a
  else if a < 0x1000 then s.intcRead a
  else if a < 0x1800 then s.grvRead (Fin.ofNat 8 ((a - 0x1000) / 0x100)) (a % 0x100)
  else if a < 0x2000 then none
  else if a < 0x4000 then s.chRead (Fin.ofNat 64 ((a - 0x2000) / 0x80)) (a % 0x80)
  else if a < 0x4600 then s.adRead (Fin.ofNat 3 ((a - 0x4000) / 0x200)) ((a - 0x4000) % 0x200)
  else if a < 0x4640 then s.plRead (Fin.ofNat 2 ((a - 0x4600) / 0x20)) (a % 0x20)
  else if a < 0x4800 then none
  else if a < 0x4C00 then s.ttRead a
  else if a < 0x5000 then s.meRead a
  else if a < 0x5200 then s.psRead (Fin.ofNat 8 ((a - 0x5000) / 0x40)) (a % 0x40)
  else if a = 0x5200 then some (packw [(s.ps.eccCorr.toNat, 16), (s.ps.eccAddr.toNat, 0)], s)
  else if a < 0x5300 then none
  else if a < 0x53C0 then some ((cellRead (0 : BitVec 24) s.ps.store ((a - 0x5300) / 4)).setWidth 32, s)
  else if a < 0x5400 then none
  else if a < 0x5C00 then s.afeRead a
  else if a < 0x6000 then s.memRegRead a
  else if a < 0x6400 then s.dmaRegRead a
  else if a < 0x6800 then s.hpRegRead a
  else if a < 0x6A00 then s.smbRead (Fin.ofNat 2 ((a - 0x6800) / 0x100)) (a % 0x100)
  else if a < 0x6C00 then s.packRead (a - 0x6A00)
  else if a < 0x6D00 then s.mspRead (Fin.ofNat 2 ((a - 0x6C00) / 0x80)) (a % 0x80)
  else if a < 0x7000 then none
  else if a < 0x8000 then s.hlRead (Fin.ofNat 4 ((a - 0x7000) / 0x400)) (a % 0x400)
  else if a < 0xB000 then s.tsiRead a
  else if a < 0xC000 then s.pmRead a
  else if a < 0xC400 then s.rsRegRead a
  else if a < 0xC800 then s.updRead a
  else if a < 0xD000 then s.fltRead a
  else if a < 0x10000 then none
  else if a < 0x12000 then s.scRead a
  else if a < 0x13000 then s.winRead a
  else if a < 0x88000 then none
  else if a < 0x8C000 then some (s.calRead a, s)
  else if a < 0x90000 then none
  else if a < 0x90800 then s.tsiRead a
  else none

/-- A block of PD2–PD5 that stays in reset until configuration is applied: GRV, CH, AD, TT, ME, PS, HL, TSI (02 R70).
(DEDUCED, log 93.) -/
def heldAddr (a : Nat) : Bool :=
  (decide (0x1000 ≤ a) && decide (a < 0x5400)) || (decide (0x7000 ≤ a) && decide (a < 0xB000)) ||
    (decide (0x88000 ≤ a) && decide (a < 0x90800))

/-- Write of a register outside GLB, by client c over path p. (DESIGN CHOICE, log 5.) -/
def blockWrite (s : State) (p : Path) (c : Fin 256) (a : Nat) (w : Word) : Option State :=
  if a < 0x800 then s.pwrWrite a w
  else if a < 0x1000 then s.intcWrite a w
  else if a < 0x1800 then s.grvWrite (Fin.ofNat 8 ((a - 0x1000) / 0x100)) (a % 0x100) w
  else if a < 0x2000 then none
  else if a < 0x4000 then s.chWrite p (Fin.ofNat 64 ((a - 0x2000) / 0x80)) (a % 0x80) w
  else if a < 0x4600 then s.adWrite (Fin.ofNat 3 ((a - 0x4000) / 0x200)) ((a - 0x4000) % 0x200) w
  else if a < 0x4640 then s.plWrite (Fin.ofNat 2 ((a - 0x4600) / 0x20)) (a % 0x20) w
  else if a < 0x4800 then none
  else if a < 0x4C00 then s.ttWrite a w
  else if a < 0x5000 then s.meWrite a w
  else if a < 0x5200 then s.psWrite (txRank p) (Fin.ofNat 8 ((a - 0x5000) / 0x40)) (a % 0x40) w
  else if a < 0x5400 then (s.regRead a).map fun _ => s
  else if a < 0x5C00 then s.afeWrite c a w
  else if a < 0x6000 then s.memRegWrite a w
  else if a < 0x6400 then s.dmaRegWrite c a w
  else if a < 0x6800 then s.hpRegWrite a w
  else if a < 0x6A00 then s.smbWrite (Fin.ofNat 2 ((a - 0x6800) / 0x100)) c (a % 0x100) w
  else if a < 0x6C00 then s.packWrite (a - 0x6A00) w
  else if a < 0x6D00 then s.mspWrite (Fin.ofNat 2 ((a - 0x6C00) / 0x80)) (a % 0x80) w
  else if a < 0x7000 then none
  else if a < 0x8000 then s.hlWrite (Fin.ofNat 4 ((a - 0x7000) / 0x400)) (a % 0x400) w
  else if a < 0xB000 then s.tsiWrite c a w
  else if a < 0xC000 then s.pmWrite a w
  else if a < 0xC400 then s.rsRegWrite a w
  else if a < 0xC800 then s.updWrite c a w
  else if a < 0xD000 then s.fltWrite a w
  else if a < 0x10000 then none
  else if a < 0x12000 then s.scWrite p c a w
  else if a < 0x13000 then s.winWrite c a w
  else if a < 0x88000 then none
  else if a < 0x8C000 then some (s.calWrite c a w)
  else if a < 0x90000 then none
  else if a < 0x90800 then s.tsiWrite c a w
  else none

/-- The fields of a register that the configuration lock freezes (access code RWL, 00 Table 0.4). -/
def rwlMask (a : Nat) : Word :=
  let o := a % 0x80
  if a < 0x2000 then 0
  else if a < 0x4000 then (if o = 0x58 then 0x237 else if o = 0x74 then 0x103FF else 0)
  else if a < 0x4600 then
    let o := a % 0x200
    if o = 0x00 then 0xFFD else if o < 0x20 ∨ 0x100 ≤ o then 0xFFFFFFFF
    else if o = 0x40 then 0xFFFF else if o = 0x44 ∨ o = 0x48 then 0xFFFFFFFF else 0
  else if a < 0x4640 then (if a % 0x20 < 0x10 then 0xFFFFFFFF else 0)
  else if a < 0x5000 then (if a = 0x4C00 ∨ a = 0x4C0C ∨ a = 0x4C1C then 0xFFFFFFFF else 0)
  else if a < 0x5200 then
    let o := a % 0x40
    if o = 0x00 then 0x3F00 else if o < 0x10 ∨ o = 0x3C then 0xFFFFFFFF else 0
  else if 0x5440 ≤ a ∧ a < 0x5540 then (if a % 16 < 8 then 0xFFFFFFFF else 0)
  else if 0x5560 ≤ a ∧ a < 0x55C0 then (if a % 16 = 0 then 0xEEFC3FFF else if a % 16 = 4 then 0xFFFFFFFF else 0)
  else if a = 0x574C then 0xFF00000F
  else if a = 0x5750 ∨ a = 0x5C40 ∨ a = 0x6400 ∨ a = 0x6800 ∨ a = 0x6900 ∨ a = 0x6A00 ∨ (0x6A80 ≤ a ∧ a < 0x6B00) ∨
      a = 0x6C00 ∨ a = 0x6C80 then 0xFFFFFFFF
  else if 0x7000 ≤ a ∧ a < 0x8000 then
    let o := a % 0x400
    if o = 0x00 then 0xE else if o = 0x10 ∨ o = 0x14 ∨ o = 0x18 then 0xFFFFFFFF else 0
  else if a = 0xB000 ∨ a = 0xB004 ∨ a = 0xB008 ∨ a = 0xC400 ∨ (0xC800 ≤ a ∧ a < 0xC818) then 0xFFFFFFFF
  else 0

/-- What a register holds, as a read would answer it. -/
def regValue (s : State) (a : Nat) : Word := ((s.regRead a).map Prod.fst).getD 0

/-- A client's write to a lockable register is noted with what the register held (02 R67). -/
def noteRwl (s : State) (a : Nat) : State :=
  if rwlMask a = 0 ∨ s.boot.locked = true then s
  else
    let old := s.regValue a
    s.modCyc fun c => { c with rwl := (a, old) :: c.rwl }

/-- Lockable fields that clients wrote in the cycle of the lock hold what they held before, the latest undone first (02 R67). -/
def undoRwl (s : State) : State :=
  s.cyc.rwl.foldl (fun s p =>
    let m := rwlMask p.1
    (s.blockWrite .sup 0 p.1 ((s.regValue p.1 &&& ~~~m) ||| (p.2 &&& m))).getD s) s

/-- The configuration locks: RUNNING, and the groves of START_MASK start (02 R60–R63, R67). (DEDUCED, log 77.) -/
def lockConfig (s : State) : State :=
  if s.boot.applied ∧ s.boot.locked = false then
    let s := s.undoRwl.modBoot fun b => { b with locked := true, st := .running }
    foldFin 8 (fun g s => if bit s.boot.startMask g.val then s.releaseGrove g else s) s
  else s

def glbWrite (s : State) (a : Nat) (w : Word) : Option State :=
  match a with
  | 0x24 => some (if bit w 0 then s.lockConfig else s)
  | 0x48 => some (if bit w 0 then s.tbSnap else s)
  | 0x4C => some (if bit w 0 then s.modTbs fun t => { t with rwr := false } else s)
  | _ => (s.glbRead a).map fun _ => s

/-- Write of the register at a native address, by client c over path p. A block held in reset keeps its reset values (02
R70), and a write-1-to-clear bit that hardware sets in the same cycle stays set (00 R9). (DESIGN CHOICE, log 5.) -/
def regWrite (s : State) (p : Path) (c : Fin 256) (a : Nat) (w : Word) : Option State :=
  if a % 4 ≠ 0 then none
  else if heldAddr a && !s.pwr.pdUp then (s.regRead a).map fun _ => s
  else if a < 0x400 then s.glbWrite a (s.w1c a w)
  else s.blockWrite p c a (s.w1c a w)

/-- A write by a client after start-up: lockable fields are noted against a lock in the same cycle (02 R67). -/
def clientWrite (s : State) (p : Path) (c : Fin 256) (a : Nat) (w : Word) : Option State := (s.noteRwl a).regWrite p c a w

/-- Is the native address a register, a program-store word, or a bank or aperture word? -/
def isReg (s : State) (a : Nat) : Bool :=
  decide (a % 4 = 0) && ((s.regRead a).isSome || (decide (0x80000 ≤ a) && decide (a < 0x88000)) || isMemAddr a)

/-- A read of the register at a. -/
def answerReg (s : State) (a : Nat) : State :=
  match s.regRead a with
  | some x => s.answered x
  | none => s

/-- REGISTER_WRITE: a register write by client c over path p, under its rights, lock and access codes (00 R7, R9–R11; 14
R525–R530). One that is refused changes nothing here: its transaction reports it. (DESIGN CHOICE, log 5.) -/
def registerWrite (s : State) (p : Path) (c : Fin 256) (a : Nat) (w : Word) : State :=
  let n := s.nativeAddr a
  if s.permits c n true w then (s.clientWrite p c n w).getD s else s

/-- Wrong bits in the stored word w of the program store (07 R295). -/
def storeBad (s : State) (w : Nat) : Nat := cellRead 0 s.me.storeErr w

/-- A program-store word as the host's read port serves it (23 R827): none with an uncorrectable error. -/
def storeWord (s : State) (a : Nat) : Option Word :=
  let w := (a - 0x80000) / 4
  if 2 ≤ s.storeBad w then none else some (cellRead 0 s.me.store w)

end State
end Sys2Proof.Machine
end

