-- ==== Sys2Proof/Machine/Operands.lean ====
section
/-!
DEFINITION. Machine/Operands.lean: the microengine's instructions as its words encode them, and its registers
(08 R311–R315, Tables 8.1, 8.2).
-/
namespace Sys2Proof.Machine

/-- The immediate forms of Table 8.4 that read RA. -/
inductive ImmOp | addi | andi | ori | xori | shli | shri | sari | cmpi | tsti
  deriving DecidableEq, Repr
/-- Loads and stores of Table 8.5. -/
inductive LdOp | ldw | ldh | ldhu | ldb | ldbu
  deriving DecidableEq, Repr
inductive StOp | stw | sth | stb
  deriving DecidableEq, Repr
/-- The atomic operations of Table 8.6. -/
inductive AtomOp | xadd | xchg | xset | xclr | cas
  deriving DecidableEq, Repr

/-- One instruction of the microengine (08 Table 8.2). Register fields name G0–G7 as 0–7 and W0–W7 as 8–15 (R311). -/
inductive MeInstr
  | alu (op : AluOp) (rd ra rb : Fin 16)
  | imm (op : ImmOp) (rd ra : Fin 16) (imm : BitVec 18)
  | movi (rd : Fin 16) (imm : BitVec 18)
  | movhi (rd : Fin 16) (imm : BitVec 16)
  | load (op : LdOp) (rd ra : Fin 16) (imm : BitVec 18)
  | store (op : StOp) (rd ra : Fin 16) (imm : BitVec 18)
  /-- `g`: the target is the G register RA names. -/
  | atom (op : AtomOp) (g : Bool) (rd ra rb : Fin 16)
  | b (cond : Fin 16) (target : BitVec 13)
  | call (target : BitVec 13)
  | jr (ra : Fin 16)
  | ret
  | yield
  | nop
  | sched (rd ra : Fin 16)
  | cancel (rd ra : Fin 16)
  | edge (rc ra rb : Fin 16) (shd chr : Bool) (ch : Fin 64)
  | snap (rd re : Fin 16) (sel : BitVec 7)
  | att (rd re ra : Fin 16) (dom : BitVec 2)
  | signal (n : Fin 8)
  | post (ra rb : Fin 16) (client : Fin 256)
  | trap (code : BitVec 16)
  deriving DecidableEq, Repr

/-! ## Encoding (08 R313–R315) -/

/-- FN of the ALU group (08 Table 8.3). -/
def AluOp.fn : AluOp → Nat
  | .add => 0x00 | .adc => 0x01 | .sub => 0x02 | .sbc => 0x03 | .and => 0x04 | .or => 0x05 | .xor => 0x06 | .andn => 0x07
  | .shl => 0x08 | .shr => 0x09 | .sar => 0x0A | .mul => 0x0C | .mulhu => 0x0D | .divu => 0x0E | .remu => 0x0F
  | .minu => 0x10 | .maxu => 0x11 | .cmp => 0x14 | .tst => 0x15 | .mov => 0x18
def aluOfFn (n : Nat) : Option AluOp :=
  [AluOp.add, .adc, .sub, .sbc, .and, .or, .xor, .andn, .shl, .shr, .sar, .mul, .mulhu, .divu, .remu, .minu, .maxu, .cmp,
    .tst, .mov].find? fun o => o.fn == n
/-- FN[4:0] of the ATOM group (08 Table 8.6). -/
def AtomOp.fn : AtomOp → Nat
  | .xadd => 0 | .xchg => 1 | .xset => 2 | .xclr => 3 | .cas => 4
def atomOfFn (n : Nat) : Option AtomOp := [AtomOp.xadd, .xchg, .xset, .xclr, .cas].find? fun o => o.fn == n
/-- OP of the immediate forms, the loads and the stores (08 Table 8.2). -/
def ImmOp.op : ImmOp → Nat
  | .addi => 0x02 | .andi => 0x03 | .ori => 0x04 | .xori => 0x05 | .shli => 0x06 | .shri => 0x07 | .sari => 0x08
  | .cmpi => 0x09 | .tsti => 0x0A
def LdOp.op : LdOp → Nat
  | .ldw => 0x10 | .ldh => 0x11 | .ldhu => 0x12 | .ldb => 0x13 | .ldbu => 0x14
def StOp.op : StOp → Nat
  | .stw => 0x18 | .sth => 0x19 | .stb => 0x1A

/-- CMP, TST and their immediate forms need RD 0; MOV needs RB 0; shift counts need IMM[17:5] 0 (08 R323, Table 8.4). -/
def aluLegal (op : AluOp) (rd rb : Fin 16) : Bool :=
  match op with
  | .cmp => rd == 0
  | .tst => rd == 0
  | .mov => rb == 0
  | _ => true
def immLegal (op : ImmOp) (rd : Fin 16) (imm : BitVec 18) : Bool :=
  match op with
  | .shli => fld imm 17 5 == 0
  | .shri => fld imm 17 5 == 0
  | .sari => fld imm 17 5 == 0
  | .cmpi => rd == 0
  | .tsti => rd == 0
  | _ => true

/-- The register and field values an instruction's description allows (08 R314). -/
def MeInstr.legal : MeInstr → Bool
  | .alu op rd _ rb => aluLegal op rd rb
  | .imm op rd _ i => immLegal op rd i
  | .atom _ g _ ra _ => !g || decide (ra.val < 8)
  | .b cond _ => cond.val != 15
  | .sched _ ra => ra.val % 4 == 0
  | .edge _ _ _ _ chr ch => !chr || ch == 0
  | .snap rd re sel => rd != re && decide (sel.toNat ≤ 64)
  | .att rd re _ dom => rd != re && dom != 3
  | _ => true

/-- Does the word hold zero in [hi:lo]? -/
def zf (w : Word) (hi lo : Nat) : Bool := fld w hi lo == 0

/-- The instruction a word names by its OP, FN and formats (08 Tables 8.1, 8.2), before the field values are checked. -/
def meFields (w : Word) : Option MeInstr :=
  let op := fld w 31 26
  let rd : Fin 16 := Fin.ofNat 16 (fld w 25 22)
  let ra : Fin 16 := Fin.ofNat 16 (fld w 21 18)
  let rb : Fin 16 := Fin.ofNat 16 (fld w 17 14)
  let imm : BitVec 18 := .ofNat 18 (fld w 17 0)
  let keep (c : Bool) (i : MeInstr) : Option MeInstr := if c then some i else none
  match op with
  | 0x01 => if zf w 13 6 then (aluOfFn (fld w 5 0)).map fun o => .alu o rd ra rb else none
  | 0x02 => some (.imm .addi rd ra imm)
  | 0x03 => some (.imm .andi rd ra imm)
  | 0x04 => some (.imm .ori rd ra imm)
  | 0x05 => some (.imm .xori rd ra imm)
  | 0x06 => some (.imm .shli rd ra imm)
  | 0x07 => some (.imm .shri rd ra imm)
  | 0x08 => some (.imm .sari rd ra imm)
  | 0x09 => some (.imm .cmpi rd ra imm)
  | 0x0A => some (.imm .tsti rd ra imm)
  | 0x0B => keep (zf w 21 18) (.movi rd imm)
  | 0x0C => keep (zf w 21 16) (.movhi rd (.ofNat 16 (fld w 15 0)))
  | 0x10 => some (.load .ldw rd ra imm)
  | 0x11 => some (.load .ldh rd ra imm)
  | 0x12 => some (.load .ldhu rd ra imm)
  | 0x13 => some (.load .ldb rd ra imm)
  | 0x14 => some (.load .ldbu rd ra imm)
  | 0x18 => some (.store .stw rd ra imm)
  | 0x19 => some (.store .sth rd ra imm)
  | 0x1A => some (.store .stb rd ra imm)
  | 0x1C => if zf w 13 6 then (atomOfFn (fld w 4 0)).map fun o => .atom o (bit w 5) rd ra rb else none
  | 0x20 => keep (zf w 21 13) (.b rd (.ofNat 13 (fld w 12 0)))
  | 0x21 => keep (zf w 25 13) (.call (.ofNat 13 (fld w 12 0)))
  | 0x22 => keep (zf w 25 22 && zf w 17 0) (.jr ra)
  | 0x23 => keep (zf w 25 0) .ret
  | 0x24 => keep (zf w 25 0) .yield
  | 0x25 => keep (zf w 25 0) .nop
  | 0x28 => keep (zf w 17 0) (.sched rd ra)
  | 0x29 => keep (zf w 17 0) (.cancel rd ra)
  | 0x2A => keep (zf w 5 0) (.edge rd ra rb (bit w 13) (bit w 12) (Fin.ofNat 64 (fld w 11 6)))
  | 0x2B => keep (zf w 17 7) (.snap rd ra (.ofNat 7 (fld w 6 0)))
  | 0x2C => keep (zf w 13 2) (.att rd ra rb (.ofNat 2 (fld w 1 0)))
  | 0x2D => keep (zf w 25 3) (.signal (Fin.ofNat 8 (fld w 2 0)))
  | 0x2E => keep (zf w 25 22 && zf w 13 8) (.post ra rb (Fin.ofNat 256 (fld w 7 0)))
  | 0x2F => keep (zf w 25 16) (.trap (.ofNat 16 (fld w 15 0)))
  | _ => none

/-- The instruction a word encodes; none is a word that raises ILLEGAL (08 R313, R314). -/
def meDecode (w : Word) : Option MeInstr := (meFields w).filter MeInstr.legal

/-- The word of an instruction (08 Tables 8.1, 8.2). -/
def MeInstr.encode : MeInstr → Word
  | .alu op rd ra rb => packw [(0x01, 26), (rd.val, 22), (ra.val, 18), (rb.val, 14), (op.fn, 0)]
  | .imm op rd ra i => packw [(op.op, 26), (rd.val, 22), (ra.val, 18), (i.toNat, 0)]
  | .movi rd i => packw [(0x0B, 26), (rd.val, 22), (i.toNat, 0)]
  | .movhi rd i => packw [(0x0C, 26), (rd.val, 22), (i.toNat, 0)]
  | .load op rd ra i => packw [(op.op, 26), (rd.val, 22), (ra.val, 18), (i.toNat, 0)]
  | .store op rd ra i => packw [(op.op, 26), (rd.val, 22), (ra.val, 18), (i.toNat, 0)]
  | .atom op g rd ra rb => packw [(0x1C, 26), (rd.val, 22), (ra.val, 18), (rb.val, 14), (b2n g, 5), (op.fn, 0)]
  | .b cond t => packw [(0x20, 26), (cond.val, 22), (t.toNat, 0)]
  | .call t => packw [(0x21, 26), (t.toNat, 0)]
  | .jr ra => packw [(0x22, 26), (ra.val, 18)]
  | .ret => packw [(0x23, 26)]
  | .yield => packw [(0x24, 26)]
  | .nop => packw [(0x25, 26)]
  | .sched rd ra => packw [(0x28, 26), (rd.val, 22), (ra.val, 18)]
  | .cancel rd ra => packw [(0x29, 26), (rd.val, 22), (ra.val, 18)]
  | .edge rc ra rb shd chr ch =>
    packw [(0x2A, 26), (rc.val, 22), (ra.val, 18), (rb.val, 14), (b2n shd, 13), (b2n chr, 12), (ch.val, 6)]
  | .snap rd re sel => packw [(0x2B, 26), (rd.val, 22), (re.val, 18), (sel.toNat, 0)]
  | .att rd re ra dom => packw [(0x2C, 26), (rd.val, 22), (re.val, 18), (ra.val, 14), (dom.toNat, 0)]
  | .signal n => packw [(0x2D, 26), (n.val, 0)]
  | .post ra rb c => packw [(0x2E, 26), (ra.val, 18), (rb.val, 14), (c.val, 0)]
  | .trap code => packw [(0x2F, 26), (code.toNat, 0)]

/-! ## Registers and immediates -/

/-- An 18-bit immediate, sign-extended or zero-extended (08 R315). -/
def sext18 (i : BitVec 18) : Word := i.signExtend 32
def zext18 (i : BitVec 18) : Word := i.setWidth 32

/-- The registers an instruction reads or writes, for the waits of 08 R317. -/
def MeInstr.regs : MeInstr → List (Fin 16)
  | .alu op rd ra rb => (if op.writes then [rd] else []) ++ [ra] ++ (if op = .mov then [] else [rb])
  | .imm op rd ra _ => (if op = .cmpi ∨ op = .tsti then [] else [rd]) ++ [ra]
  | .movi rd _ => [rd]
  | .movhi rd _ => [rd]
  | .load _ rd ra _ => [rd, ra]
  | .store _ rd ra _ => [rd, ra]
  | .atom _ _ rd ra rb => [rd, ra, rb]
  | .jr ra => [ra]
  | .sched rd ra => [rd, ra, ra + 1, ra + 2, ra + 3]
  | .cancel rd ra => [rd, ra]
  | .edge rc ra rb _ _ _ => [rc, ra, rb]
  | .snap rd re _ => [rd, re]
  | .att rd re ra _ => [rd, re, ra]
  | .post ra rb _ => [ra, rb]
  | _ => []

/-- A register of a frame, or a G register (08 R311). -/
def frameReg (g : Vector Word 8) (f : Frame) (r : Fin 16) : Word :=
  if h : r.val < 8 then at_ g ⟨r.val, h⟩ else at_ f.w ⟨r.val - 8, by omega⟩

namespace State

/-- The register of the current window, or a G register. -/
def reg (s : State) (r : Fin 16) : Word := frameReg s.me.g (s.curFrame.getD {}) r

/-- The current window changes (the trap window, or the newest frame). -/
def modCur (s : State) (f : Frame → Frame) : State :=
  s.modMe fun m =>
    match m.trapWin with
    | some x => { m with trapWin := some (f x) }
    | none => { m with frames := match m.frames with | [] => [] | x :: xs => f x :: xs }

/-- Write a register (08 R311). -/
def setReg (s : State) (r : Fin 16) (v : Word) : State :=
  if h : r.val < 8 then s.modMe fun m => { m with g := vset m.g ⟨r.val, h⟩ fun _ => v }
  else s.modCur fun x => { x with w := vset x.w ⟨r.val - 8, by omega⟩ fun _ => v }

/-- The flags of the current window. -/
def flags (s : State) : Flags := Flags.ofBits (s.curFrame.getD {}).flags
def setFlags (s : State) (f : Flags) : State := s.modCur fun x => { x with flags := f.bits }

/-- PC of the current window, and a jump (08 R312). -/
def pc (s : State) : BitVec 13 := (s.curFrame.getD {}).pc
def jump (s : State) (t : BitVec 13) : State := s.modCur fun x => { x with pc := t }
/-- The next word, modulo 8,192 (08 R312). -/
def pcNext (s : State) : State := s.modCur fun x => { x with pc := x.pc + 1 }

/-- The owner the current window acts for; window 0 acts as client 0 (07 R293). -/
def meOwner (s : State) : Fin 256 :=
  match s.me.trapWin with
  | some _ => 0
  | none => (s.me.frames.head?.map Frame.owner).getD 0

/-- Is a trap handler's window current? -/
def inTrap (s : State) : Bool := s.me.trapWin.isSome

end State
end Sys2Proof.Machine
end

