-- ==== Sys2Proof/Machine/Engine.lean ====
section
/-!
DEFINITION. Machine/Engine.lean: the microengine's fetch, traps, data space, held requests and instructions
(07 R290–R297; 08 R311–R353).
-/
namespace Sys2Proof.Machine

/-- Trap codes (07 Table 7.6). -/
def trILLEGAL : Nat := 3
def trALIGN : Nat := 4
def trBUS : Nat := 5
def trRIGHTS : Nat := 6
def trSOFT : Nat := 7
def trWATCHDOG : Nat := 8

namespace State

/-- An instruction of the current window can issue: a program runs, or a trap handler does (07 Table 7.12 STATE). (DEDUCED, log 16.) -/
def meCan (s : State) : Bool :=
  s.pwr.st == .run &&
    match s.me.trapWin with
    | some _ => s.me.st == .trap
    | none => s.me.st == .running && !s.me.frames.isEmpty

/-- Fetch the word at PC: a wrong bit is corrected and the stored word rewritten, an uncorrectable word fences the engine
(07 R295); three or more wrong bits give one of three outcomes, left open (23 R841). -/
def meFetch (s : State) : Option Word × State :=
  let pc := s.pc.toNat
  let w := cellRead 0 s.me.store pc
  let good (s : State) : State :=
    s.modMe fun m => { m with storeErr := cellErase pc m.storeErr, eccCorr := satInc m.eccCorr, eccAddr := .ofNat 13 pc }
  match cellRead 0 s.me.storeErr pc with
  | 0 => (some w, s)
  | 1 => (some w, good s)
  | 2 => (none, s.meFence 2)
  | _ =>
    let r := s.free
    let s := r.2
    let wrong : Word := (r.1 >>> 8).setWidth 32
    let put (s : State) : State :=
      s.modMe fun m => { m with store := cellWrite 0 m.store pc wrong, storeErr := cellErase pc m.storeErr }
    match r.1.toNat % 3 with
    | 0 => (none, s.meFence 2)
    | 1 => (some wrong, good (put s))
    | _ => (some wrong, put s)

/-- Every frame of the current dispatch goes, and selection follows (07 R286, R291). (DEDUCED, log 21.) -/
def endDispatch (s : State) : State := (s.closeDispatch maxFrames).selectNext

/-- ME_TRAPREC and ME_TRAPADDR take a trap; one with no data address records a free value there (07 R291). (DESIGN CHOICE, log 19.) -/
def recordTrap (s : State) (code : Nat) (addr : Option Word) : State :=
  let owner := s.meOwner
  let pc := s.pc
  let x : Word × State := match addr with
    | some a => (a, s)
    | none => (s.free.1.setWidth 32, s.free.2)
  x.2.modMe fun m => { m with trapCode := .ofNat 4 code, trapOwner := owner, trapPc := pc, trapAddr := x.1 }

/-- A trap of codes 3–8 (07 R291, R292): recorded, a fault counted against the owner, then the handler in window 0 or the
discard; in window 0 the engine is fenced. (DESIGN CHOICE, log 19, DEDUCED, log 21.) -/
def meTrap (s : State) (code : Nat) (addr : Option Word) : State :=
  let owner := s.meOwner
  let desc := (s.curFrame.getD {}).desc
  let inTrap := s.inTrap
  let s := s.recordTrap code addr
  let s :=
    if inTrap then s.meFence 4
    else if s.me.hen then
      s.modMe fun m =>
        { m with
          st := .trap, trapLive := true, nextUid := m.nextUid + 1
          trapWin := some
            { w := #v[.ofNat 32 code, desc, m.trapPc.setWidth 32, m.trapAddr, 0, 0, 0, 0], pc := m.trapEntry, win := 0,
              uid := m.nextUid } }
    else s.endDispatch
  s.countFault owner

/-! ## Held requests (07 R296; 08 R320) -/

/-- A request waits for the checker. -/
def hold (s : State) (r : MeReq) : State := s.modMe fun m => { m with outbox := m.outbox ++ [r] }

/-- A store leaves the engine. -/
def doStore (s : State) (o : Fin 256) (a size : Nat) (d : Word) : State :=
  if isMemAddr a then (s.memWrite a size d).2 else (s.clientWrite .me o a d).getD s

/-- The Timetable's answer goes on its way to RD (08 R334). -/
def putResult (s : State) (uid : Nat) (rd : Fin 16) (status handle : Nat) : State :=
  s.modMe fun m => { m with results := m.results ++ [{ uid := uid, rd := rd, value := packw [(status, 28), (handle, 0)] }] }

/-- What a released request does. -/
def doRequest (s : State) (r : MeReq) : State :=
  match r with
  | .store o a size d => s.doStore o a.toNat size d
  | .edge _ n shd ctl tgt =>
    let w : Word := ctl.setWidth 32 <<< 16
    if shd then s.loadShadow n w tgt else s.pushEdge n w tgt
  | .sched o win0 uid rd keylo keyhi arg ctl =>
    let x := s.schedInsert (decide (o = 0) || win0) keylo keyhi arg ctl
    x.2.2.putResult uid rd x.1 x.2.1
  | .cancel o _ uid rd h =>
    if s.mayCancel o h.toNat then (s.freeEntry h.toNat).putResult uid rd iOK h.toNat
    else s.putResult uid rd iGONE h.toNat
  | .signal n => (s.modMe fun m => { m with sig := m.sig ||| oneBit 8 n.val }).hwSet 0x4C60 (oneBit 32 n.val)
  | .post o c a b => s.post 2 c 0x01 false o.val a b (lo32 s.tb)
  | .atomic _ a d => ((s.doStore 0 a.toNat 2 d)).modMem fun m => { m with lock := none }

/-- A held store waits for a bank that restores a region first (11 R462). -/
def reqShut (s : State) : MeReq → Bool
  | .store _ a _ _ => s.bankShut a.toNat
  | .atomic _ a _ => s.bankShut a.toNat
  | _ => false

/-- The oldest held request matches in the checker and leaves (07 R296). -/
def meRelease (s : State) : State :=
  match s.me.outbox with
  | [] => s
  | r :: rest => if s.reqShut r then s else (s.modMe fun m => { m with outbox := rest }).doRequest r

/-- Every held request leaves, in order (08 R319, R320). (DEDUCED, log 18.) -/
def releaseAll : Nat → State → State
  | 0, s => s
  | n + 1, s => releaseAll n s.meRelease

/-- The oldest answer is written into the window that asked; one for a closed window is discarded (08 R334, R344, R345). -/
def meResult (s : State) : State :=
  match s.me.results with
  | [] => s
  | r :: rest =>
    let put (f : Frame) : Frame :=
      if h : ¬ r.rd.val < 8 then
        if f.uid = r.uid then { f with w := vset f.w ⟨r.rd.val - 8, by omega⟩ fun _ => r.value } else f
      else f
    s.modMe fun m =>
      let live := m.frames.any (fun f => decide (f.uid = r.uid)) || m.trapWin.any fun f => decide (f.uid = r.uid)
      { m with results := rest, frames := m.frames.map put, trapWin := m.trapWin.map put
               g := if h : r.rd.val < 8 then (if live then vset m.g ⟨r.rd.val, h⟩ fun _ => r.value else m.g) else m.g }

def resultAll : Nat → State → State
  | 0, s => s
  | n + 1, s => resultAll n s.meResult

/-- Is a Timetable answer for register r of the current window still on its way? (08 R317) -/
def pendingReg (s : State) (r : Fin 16) : Bool :=
  let uid := (s.curFrame.getD {}).uid
  let hit (u : Nat) (rd : Fin 16) : Bool := decide (rd = r) && (decide (r.val < 8) || decide (u = uid))
  (s.me.results.any fun x => hit x.uid x.rd) ||
    s.me.outbox.any fun q =>
      match q with
      | .sched _ _ u rd _ _ _ _ => hit u rd
      | .cancel _ _ u rd _ => hit u rd
      | _ => false

/-- An instruction that uses a pending register waits until its result is written (08 R317). -/
def meSettle (s : State) (rs : List (Fin 16)) : State :=
  if rs.any s.pendingReg then
    let s := releaseAll s.me.outbox.length s
    resultAll s.me.results.length s
  else s

/-! ## The data space (07 R293, R294, Table 7.7; 08 R318–R328) -/

/-- Is a bank address in the frames ME_SPILL names? -/
def inSpill (s : State) (p : Nat) : Bool :=
  decide (0x34000 + 0x40 * s.me.spillBase.toNat ≤ p) && decide (p < 0x34000 + 0x40 * (s.me.spillBase.toNat + s.spillCap))

/-- The trap an access of 2^size bytes raises by its address (08 R326; 07 Table 7.7). (DEDUCED, log 17.) -/
def addrTrap (s : State) (ea : Word) (size : Nat) (write : Bool) : Option Nat :=
  let a := ea.toNat
  if 2 ^ 20 ≤ a ∨ (0x80000 ≤ a ∧ a < 0x88000) ∨ (0x12000 ≤ a ∧ a < 0x13000) ∨ 0xF0000 ≤ a then some trBUS
  else if write = true ∧ 0x88000 ≤ a ∧ a < 0x8C000 then some trBUS
  else if size ≠ 2 ∧ isMemAddr a = false then some trBUS
  else if a % 2 ^ size ≠ 0 then some trALIGN
  else if isMemAddr a then
    match s.resolve a with
    | none => some trBUS
    | some p => if write = true ∧ (s.inSpill p = true ∨ (s.bank (bankOf p)).st ≠ .on) then some trBUS else none
  else if (s.regRead a).isSome then none else some trBUS

/-- The trap a data access raises before it is made: its address, then the owner's rights (08 R321, R325). (DEDUCED, log 17.) -/
def accessTrap (s : State) (ea : Word) (size : Nat) (write : Bool) (data : Word) : Option Nat :=
  match s.addrTrap ea size write with
  | some c => some c
  | none => if s.permits s.meOwner ea.toNat write data then none else some trRIGHTS

/-- A bank word with the engine's own held stores laid over it (07 R296). (DEDUCED, log 18.) -/
def overlay (s : State) (p : Nat) (w : Word) : Word :=
  s.me.outbox.foldl (fun w q =>
    let lay (a size : Nat) (d : Word) : Word :=
      match s.resolve a with
      | some x => if wordOf x = p then mergeBytes w (x % 4) size d else w
      | none => w
    match q with
    | .store _ a size d => if isMemAddr a.toNat then lay a.toNat size d else w
    | .atomic _ a d => lay a.toNat 2 d
    | _ => w) w

/-- Read the bank word an address reaches, as the engine sees it. -/
def meBankWord (s : State) (ea : Word) : Except MemErr Word × State :=
  match s.resolve ea.toNat with
  | none => (.error .window, s)
  | some p =>
    match s.bankReadWord (wordOf p) with
    | (.ok w, s) => (.ok (s.overlay (wordOf p) w), s)
    | r => r

end State

/-- Sizes of Table 8.5, as powers of two, and the value loaded. -/
def LdOp.size : LdOp → Nat
  | .ldw => 2 | .ldh => 1 | .ldhu => 1 | .ldb => 0 | .ldbu => 0
def StOp.size : StOp → Nat
  | .stw => 2 | .sth => 1 | .stb => 0
/-- The value loaded from a word, at byte offset o in it (08 Table 8.5, R326 little-endian). -/
def LdOp.value (op : LdOp) (w : Word) (o : Nat) : Word :=
  let v := w >>> (8 * o)
  match op with
  | .ldw => w
  | .ldh => (v.setWidth 16).signExtend 32
  | .ldhu => (v.setWidth 16).setWidth 32
  | .ldb => (v.setWidth 8).signExtend 32
  | .ldbu => (v.setWidth 8).setWidth 32

/-- The new target of an atomic; `cmp` is the old RD (08 R327). -/
def AtomOp.next (op : AtomOp) (old b cmp : Word) : Word :=
  match op with
  | .xadd => old + b
  | .xchg => b
  | .xset => old ||| b
  | .xclr => old &&& ~~~b
  | .cas => if old = cmp then b else old

/-- CAS sets Z to whether it stored; the others change no flag. -/
def AtomOp.flags (op : AtomOp) (f : Flags) (old cmp : Word) : Flags :=
  match op with
  | .cas => { f with z := decide (old = cmp) }
  | _ => f

namespace State

/-- A load (08 R318, R319, R325): a bank word with the engine's own stores over it, or a register once every held request
has left. (DEDUCED, log 18.) -/
def meLoad (s : State) (op : LdOp) (rd ra : Fin 16) (imm : BitVec 18) : State :=
  let ea := s.reg ra + sext18 imm
  match s.accessTrap ea op.size false 0 with
  | some c => s.meTrap c (some ea)
  | none =>
    if isMemAddr ea.toNat then
      if s.bankShut ea.toNat then s
      else
      match s.meBankWord ea with
      | (.ok w, s) => (s.setReg rd (op.value w (ea.toNat % 4))).pcNext
      | (.error _, s) => s.meTrap trBUS (some ea)
    else
      let s := releaseAll s.me.outbox.length s
      if !s.meCan then s
      else
        match s.regRead ea.toNat with
        | some (w, s) => (s.setReg rd w).pcNext
        | none => s.meTrap trBUS (some ea)

/-- A store is held until the checker matches it (08 R320, R325). -/
def meStore (s : State) (op : StOp) (rd ra : Fin 16) (imm : BitVec 18) : State :=
  let ea := s.reg ra + sext18 imm
  match s.accessTrap ea op.size true (s.reg rd) with
  | some c => s.meTrap c (some ea)
  | none => (s.hold (.store s.meOwner (ea.setWidth 20) op.size (s.reg rd))).pcNext

/-- An atomic on a G register (08 R327). -/
def meAtomG (s : State) (op : AtomOp) (rd ra rb : Fin 16) : State :=
  let old := s.reg ra
  let cmp := s.reg rd
  (((s.setReg ra (op.next old (s.reg rb) cmp)).setReg rd old).setFlags (op.flags s.flags old cmp)).pcNext

/-- An atomic on a bank word: the word is held until its write leaves the engine (08 R327, R328). (DEDUCED, log 18.) -/
def meAtomBank (s : State) (op : AtomOp) (rd ra rb : Fin 16) : State :=
  let ea := s.reg ra
  if isMemAddr ea.toNat = false then
    s.meTrap ((s.addrTrap ea 2 true).getD trBUS) (some ea)
  else
    match s.accessTrap ea 2 true (s.reg rb) with
    | some c => s.meTrap c (some ea)
    | none =>
      match s.accessTrap ea 2 false 0 with
      | some c => s.meTrap c (some ea)
      | none =>
        let s := if s.mem.lock = none then s else releaseAll s.me.outbox.length s
        if s.bankShut ea.toNat then s
        else
        match s.meBankWord ea with
        | (.error _, s) => s.meTrap trBUS (some ea)
        | (.ok old, s) =>
          let cmp := s.reg rd
          let s := s.hold (.atomic s.meOwner (ea.setWidth 20) (op.next old (s.reg rb) cmp))
          let s := s.modMem fun m => { m with lock := (s.resolve ea.toNat).map wordOf }
          ((s.setReg rd old).setFlags (op.flags s.flags old cmp)).pcNext

/-! ## Control flow (08 R329–R331) -/

/-- CALL: the caller's PC is saved in its window, and a window with W0–W7 and flags zero is opened for the called frame. (DEDUCED, log 21.) -/
def meCall (s : State) (t : BitVec 13) : State :=
  if s.inTrap then s.meTrap trILLEGAL none
  else
    let desc := (s.curFrame.getD {}).desc
    s.pcNext.openWindow { pc := t, called := true, desc := desc }

/-- RET: only from a frame CALL opened; the window below resumes, read back from BANK5 if it was spilled. -/
def meRet (s : State) : State :=
  match s.inTrap, s.me.frames with
  | true, _ => s.meTrap trILLEGAL none
  | false, [] => s
  | false, f :: rest =>
    if f.called = false then s.meTrap trILLEGAL none
    else ((s.modMe fun m => { m with frames := rest, below := prevWin f.win }).pruneResults).fillWindow

/-- YIELD ends the dispatch; in window 0 it ends the handler and discards the faulting dispatch (07 R291; 08 R330). (DEDUCED, log 21.) -/
def meYield (s : State) : State :=
  if s.inTrap then
    let live := s.me.trapLive
    let s := s.modMe fun m => { m with trapWin := none, trapLive := false }
    (if live then s.closeDispatch maxFrames else s).selectNext
  else s.endDispatch

/-! ## Requests to other blocks (08 R332–R343) -/

/-- SCHED (08 R332–R334). -/
def meSched (s : State) (rd ra : Fin 16) : State :=
  let ctl := s.reg (ra + 3)
  let owner := s.meOwner
  if owner ≠ 0 ∧ fld ctl 7 0 ≠ owner.val then s.meTrap trRIGHTS none
  else
    (s.hold (.sched owner s.inTrap (s.curFrame.getD {}).uid rd (s.reg ra) (s.reg (ra + 1)) (s.reg (ra + 2)) ctl)).pcNext

/-- CANCEL (08 R335). -/
def meCancel (s : State) (rd ra : Fin 16) : State :=
  (s.hold (.cancel s.meOwner s.inTrap (s.curFrame.getD {}).uid rd ((s.reg ra).setWidth 10))).pcNext

/-- The channel EDGE names (08 R336). -/
def edgeChan (s : State) (rc : Fin 16) (chr : Bool) (ch : Fin 64) : Fin 64 :=
  if chr then Fin.ofNat 64 (fld (s.reg rc) 5 0) else ch

/-- EDGE: checked as a write of the channel's EQ_PUSH or EQ_SHD (08 R336, R337). -/
def meEdge (s : State) (rc ra rb : Fin 16) (shd chr : Bool) (ch : Fin 64) : State :=
  let n := s.edgeChan rc chr ch
  let a := 0x2000 + 0x80 * n.val + (if shd then 0x70 else 0x6C)
  if s.permits s.meOwner a true 0 then
    (s.hold (.edge s.meOwner n shd (.ofNat 16 (fld (s.reg rc) 31 16)) (wide (s.reg rb) (s.reg ra)))).pcNext
  else s.meTrap trRIGHTS (some (.ofNat 32 a))

/-- The wide value SNAP reads, and the address it is checked at (08 R339). -/
def snapSource (s : State) (sel : BitVec 7) : W48 × Nat :=
  if sel.toNat < 64 then ((s.chan (Fin.ofNat 64 sel.toNat)).c.cnt, 0x2020 + 0x80 * sel.toNat) else (s.tb, 0x40)

/-- A wide value into two registers: [31:0] and [47:32]. -/
def setPair (s : State) (rd re : Fin 16) (v : W48) : State := (s.setReg rd (lo32 v)).setReg re (hi16 v)

/-- SNAP (08 R339). -/
def meSnap (s : State) (rd re : Fin 16) (sel : BitVec 7) : State :=
  let x := s.snapSource sel
  if s.permits s.meOwner x.2 false 0 then (s.setPair rd re x.1).pcNext else s.meTrap trRIGHTS (some (.ofNat 32 x.2))

/-- Cycles from now to position T at the domain's rate, and whether they were cut to 2^47 − 1 (08 R340). A rate of zero,
which the pseudocode divides by, leaves the count to a free value. (DESIGN CHOICE, log 20.) -/
def attCycles (s : State) (rate : Nat) (d : Word) : Nat × Bool :=
  let c := if rate = 0 then s.free.1.toNat % 2 ^ 47 else (d.toNat * 2 ^ 32 + rate - 1) / rate
  if 2 ^ 47 - 1 < c then (2 ^ 47 - 1, true) else (c, false)

/-- ATT (08 R340). (DESIGN CHOICE, log 20.) -/
def meAtt (s : State) (rd re ra : Fin 16) (dom : BitVec 2) : State :=
  match domOf dom with
  | none => s
  | some k =>
    let a := 0x4030 + 0x200 * k.val
    if !s.permits s.meOwner a false 0 then s.meTrap trRIGHTS (some (.ofNat 32 a))
    else
      match s.domPos dom with
      | none => ((s.setPair rd re 0).setFlags { s.flags with c := true, z := false, v := false }).pcNext
      | some pos =>
        let d := s.reg ra - pos
        if d = 0 ∨ 0x80000000 ≤ d.toNat then
          ((s.setPair rd re s.tb).setFlags { s.flags with c := false, z := true, v := false }).pcNext
        else
          let rate := (s.ad k).k.rate
          let x := s.attCycles rate d
          let t := if rate = 0 then s.free.2 else s
          ((t.setPair rd re (s.tb + .ofNat 48 x.1)).setFlags { s.flags with c := false, z := false, v := x.2 }).pcNext

/-- SIGNAL: checked as a write of ME_SIG (08 R341). -/
def meSignal (s : State) (n : Fin 8) : State :=
  if s.permits s.meOwner 0x4C60 true 0 then (s.hold (.signal n)).pcNext else s.meTrap trRIGHTS (some 0x4C60)

/-- POST: a window of another owner than client 0 names only itself (08 R342). -/
def mePost (s : State) (ra rb : Fin 16) (client : Fin 256) : State :=
  let o := s.meOwner
  if o = 0 ∨ client = o then (s.hold (.post o client (s.reg ra) (s.reg rb))).pcNext else s.meTrap trRIGHTS none

/-! ## Issue -/

/-- The effect of an instruction whose registers are all at hand. (DEDUCED, log 16.) -/
def meRun (s : State) : MeInstr → State
  | .alu op rd ra rb =>
    let x := alu op s.flags (s.reg ra) (s.reg rb)
    ((if op.writes then s.setReg rd x.value else s).setFlags x.flags).pcNext
  | .imm op rd ra i =>
    let go (o : AluOp) (b : Word) : State :=
      let x := alu o s.flags (s.reg ra) b
      ((if o.writes then s.setReg rd x.value else s).setFlags x.flags).pcNext
    match op with
    | .addi => go .add (sext18 i)
    | .andi => go .and (zext18 i)
    | .ori => go .or (zext18 i)
    | .xori => go .xor (zext18 i)
    | .shli => go .shl (zext18 i)
    | .shri => go .shr (zext18 i)
    | .sari => go .sar (zext18 i)
    | .cmpi => go .cmp (sext18 i)
    | .tsti => go .tst (zext18 i)
  | .movi rd i => (s.setReg rd (sext18 i)).pcNext
  | .movhi rd i => (s.setReg rd (i.setWidth 32 <<< 16)).pcNext
  | .load op rd ra i => s.meLoad op rd ra i
  | .store op rd ra i => s.meStore op rd ra i
  | .atom op g rd ra rb => if g then s.meAtomG op rd ra rb else s.meAtomBank op rd ra rb
  | .b cond t => if condHolds cond s.flags then s.jump t else s.pcNext
  | .call t => s.meCall t
  | .jr ra => s.jump ((s.reg ra).setWidth 13)
  | .ret => s.meRet
  | .yield => s.meYield
  | .nop => s.pcNext
  | .sched rd ra => s.meSched rd ra
  | .cancel rd ra => s.meCancel rd ra
  | .edge rc ra rb shd chr ch => s.meEdge rc ra rb shd chr ch
  | .snap rd re sel => s.meSnap rd re sel
  | .att rd re ra dom => s.meAtt rd re ra dom
  | .signal n => s.meSignal n
  | .post ra rb c => s.mePost ra rb c
  | .trap code => s.meTrap trSOFT (some (code.setWidth 32))

/-- The engine issues the instruction at PC, which is i; where it issues nothing, or the store holds another instruction
there, nothing happens (07 R295; 08 R312–R317). (DEDUCED, log 16.) -/
def meExec (s : State) (i : MeInstr) : State :=
  if !s.meCan then s
  else
    match s.meFetch with
    | (none, t) => t
    | (some w, t) =>
      if meDecode w = some i then
        let t := t.meSettle i.regs
        if t.meCan then t.meRun i else t
      else s

/-- The word at PC is a reserved encoding: the ILLEGAL trap (08 R314). -/
def meIllegal (s : State) : State :=
  if !s.meCan then s
  else
    match s.meFetch with
    | (none, t) => t
    | (some w, t) => if meDecode w = none then t.meTrap trILLEGAL none else s

/-- The dispatch that holds the engine has reached ME_WDOG.LIMIT (07 Table 7.6). -/
def meWatchdog (s : State) : State :=
  if s.meCan && s.me.wdog != 0 then s.meTrap trWATCHDOG none else s

/-- The checker disagrees: no held request leaves and the engine is fenced (07 R297). (DEDUCED, log 22.) -/
def lockstepMismatch (s : State) : State :=
  if s.me.st = .stopped ∨ s.me.st = .fenced then s
  else (s.modMe fun m => { m with lstep := satInc m.lstep }).meFence 1

/-- Wrong bits have appeared in stored program words; then the Timetable dispatches (07 R270, R295). -/
def dispatchWith (s : State) (flips : List (Fin 8192 × Fin 40)) : State :=
  let s := flips.foldl (fun s p =>
    s.modMe fun m => { m with storeErr := cellWrite 0 m.storeErr p.1.val (cellRead 0 m.storeErr p.1.val + p.2.val) }) s
  s.dispatch

/-! ## Edges at a time or an angle (05 R173, R175) -/

/-- The head time entry of channel n fires when TB has come to its target; a new head waits one cycle (05 R174). -/
def edgeTimeFire (s : State) (n : Fin 64) : State :=
  match (s.chan n).o.queue with
  | e :: _ => if s.headCompared n = true ∧ e.kind = 1 ∧ reached s.tb e.tgt = true then s.fireHead n else s
  | [] => s

/-- The head angle entry of channel n fires when its domain's position has come to its target; a new head waits one cycle. -/
def edgeAngleFire (s : State) (n : Fin 64) : State :=
  match (s.chan n).o.queue with
  | e :: _ =>
    match s.domPos e.dom with
    | some p => if s.headCompared n = true ∧ e.kind = 2 ∧ posReached p (e.tgt.setWidth 32) = true then s.fireHead n else s
    | none => s
  | [] => s

end State
end Sys2Proof.Machine
end

