-- ==== Sys2Proof/Machine/ExecAfe.lean ====
section
/-!
DEFINITION. Machine/ExecAfe.lean: the commands of the analogue front end (10).
-/
namespace Sys2Proof.Machine
open State

/-- SENS_OUTPUT_CHANGE (R387): A SENS comparator output switches and its adaptive threshold and amplitude are updated. -/
def execSensOutputChange (n : Fin 16) (v : Nat) (peak : Byte) (trough : Byte) (s : State) : Host.Outcome State Fault Refusal :=
  .next (s.whenUp s.pwr.pllLock fun s => s.sensChange n v peak trough)

/-- SPARE_VISIT (R390): Every 0.5 ms the spare comparator moves to the next enabled SENS input, comparing and
auto-zeroing it. -/
def execSpareVisit (e0 : BitVec 68) (e1 : BitVec 68) (b0 : BitVec 68) (b1 : BitVec 68) (s : State) : Host.Outcome State Fault Refusal :=
  .next (s.whenUp s.pwr.pllLock fun s => s.spareVisit e0 e1 b0 b1)

/-- ITRIP_TRIP (R393): An ITRIP input outside its window for FILT + 1 samples sets the latch and ITRIP Clearing on its
groves. -/
def execItripTrip (n : Fin 6) (vs : List Nat) (s : State) : Host.Outcome State Fault Refusal :=
  .next (s.whenUp s.pwr.pllLock fun s => s.itripTrip n vs)

/-- AFE_ITCMD_CLEAR (R396): A write of AFE_ITCMD bit n clears an ITRIP latch when the input is inside its window. -/
def execAfeItcmdClear (clr : BitVec 6) (s : State) : Host.Outcome State Fault Refusal :=
  .next (s.whenUp s.pwr.pllLock fun s => s.writeItcmd (clr.setWidth 32))

/-- ADC_TRIGGER (R399): The current entry's trigger event starts a conversion or is latched. -/
def execAdcTrigger (a : Fin 2) (trig : BitVec 3) (idx : BitVec 6) (s : State) : Host.Outcome State Fault Refusal :=
  .next (s.whenUp s.pwr.pllLock fun s => s.adcEvent a trig.toNat idx.toNat)

/-- ADC_RESULT (R400): A conversion result is registered and the next entry becomes current. -/
def execAdcResult (a : Fin 2) (code : BitVec 12) (s : State) : Host.Outcome State Fault Refusal :=
  .next (s.whenUp s.pwr.pllLock fun s => s.adcResult a code)

/-- ADC_CMD_TRIG (R399): ADC_CMD.TRIG is the software trigger of the current entry. -/
def execAdcCmdTrig (a : Fin 2) (s : State) : Host.Outcome State Fault Refusal :=
  .next (s.whenUp s.pwr.pllLock fun s => s.adcEvent a 4 0)

/-- ADC_CMD_RESTART (R419): ADC_CMD.RESTART makes entry 0 current and discards a latched trigger. -/
def execAdcCmdRestart (a : Fin 2) (s : State) : Host.Outcome State Fault Refusal :=
  .next (s.whenUp s.pwr.pllLock fun s => s.adcRestart a)

/-- CAL_MEASURE (R404): Every 1 µs one fine-delay table entry is measured and validity is judged. -/
def execCalMeasure (lock : Bool) (step : BitVec 6) (err : Nat) (s : State) : Host.Outcome State Fault Refusal :=
  .next (s.whenUp s.pwr.pllLock fun s => s.calMeasure lock step err)

/-- SIG_CMD_MEASURE (R420): SIG_CMD MEASURE starts a signature measurement on a link. -/
def execSigCmdMeasure (l : Fin 4) (s : State) : Host.Outcome State Fault Refusal :=
  .next (s.whenUp s.pwr.pllLock fun s => s.sigMeasure l)

/-- SIG_CMD_ENROL (R408): SIG_CMD ENROL runs 4 measurements and writes their mean into a template slot. -/
def execSigCmdEnrol (c : Fin 256) (l : Fin 4) (k : Fin 16) (s : State) : Host.Outcome State Fault Refusal :=
  .next (s.whenUp s.pwr.pllLock fun s => s.sigEnrol c l k)

/-- SIG_CMD_ABORT (R406): SIG_CMD ABORT ends the measurement with verdict ABORT. -/
def execSigCmdAbort (s : State) : Host.Outcome State Fault Refusal := .next (s.whenUp s.pwr.pllLock fun s => s.sigAbort)

/-- SIG_MEASUREMENT_END (R406): A signature measurement completes and the verdict is given against the templates. -/
def execSigMeasurementEnd (f : List Byte) (s : State) : Host.Outcome State Fault Refusal :=
  .next (s.whenUp s.pwr.pllLock fun s => s.sigEnd f)

/-- SIG_WINDOW_TIMEOUT (R405): A measurement receives no signature window for 1 s and ends with ABORT. -/
def execSigWindowTimeout (s : State) : Host.Outcome State Fault Refusal :=
  .next (s.whenUp s.pwr.pllLock fun s => s.sigTimeout)

/-- SIG_AUTO_PERIOD (R409): Every PERIOD seconds an automatic measurement starts on the selected links. -/
def execSigAutoPeriod (s : State) : Host.Outcome State Fault Refusal := .next (s.whenUp s.pwr.pllLock fun s => s.sigAuto)

/-- HEALTH_CHECK (R411): The monitor converter runs a 1 ms health check of the front end. -/
def execHealthCheck (dac : List Nat) (adc0 : Option Nat) (adc1 : Option Nat) (vref : Bool) (vdda : Nat) (mon : List Nat) (s : State) : Host.Outcome State Fault Refusal :=
  .next (s.whenUp s.pwr.pllLock fun s => s.healthCheck dac adc0 adc1 vref vdda mon)

/-- ITRIP_PAIR_DISAGREE (R411): The two comparators watching one ITRIP threshold disagree for 1 µs and the shell sets
AFE_HEALTH.ITRIPFn. -/
def execItripPairDisagree (n : Fin 6) (differ : Bool) (s : State) : Host.Outcome State Fault Refusal :=
  .next (s.whenUp s.pwr.pllLock fun s => s.itripPair n differ)

end Sys2Proof.Machine
end

