-- ==== Sys2Proof/Machine/ExecAngle.lean ====
section
/-!
DEFINITION. Machine/ExecAngle.lean: the commands of the angle domains and plausibility checkers (06).
-/
namespace Sys2Proof.Machine
open State

/-- AD_INPUT_EDGE (R212): A filtered domain input edge registers and drives pitch handling, synchronisation, governor
and plausibility. -/
def execAdInputEdge (d : Fin 3) (k : Fin 3) (level : Bool) (s : State) : Host.Outcome State Fault Refusal :=
  .next (s.whenUp s.pwr.pdUp fun s => s.adInputEdge d k level)

/-- AD_WINDOW_CLOSE (R232): An expected pitch window closes with no edge and the domain exits with LATE, NOREF or SLOW. -/
def execAdWindowClose (d : Fin 3) (s : State) : Host.Outcome State Fault Refusal :=
  .next (s.whenUp s.pwr.pdUp fun s => s.windowClose d)

/-- ANGLE_TRIGGER (R251): An enabled angle trigger's angle is reached and it pulses and sets its flag. -/
def execAngleTrigger (d : Fin 3) (k : Fin 4) (s : State) : Host.Outcome State Fault Refusal :=
  .next (s.whenUp s.pwr.pdUp fun s => s.angleTrigger d k)

/-- AD_CTL_ENABLE (R252): A write setting AD_CTL.EN enables the domain into SEARCH, or is refused with CFG_ERR. -/
def execAdCtlEnable (d : Fin 3) (w : Word) (s : State) : Host.Outcome State Fault Refusal :=
  .next (s.whenUp s.pwr.pdUp fun s => s.writeAdCtl d (w ||| 1))

/-- AD_CMD_LOSE (R231): AD_CMD.LOSE moves a LOCKED domain to LOST with reason CMD. -/
def execAdCmdLose (d : Fin 3) (s : State) : Host.Outcome State Fault Refusal :=
  .next (s.whenUp s.pwr.pdUp fun s => s.adLose d)

/-- AD_CMD_DROP (R231): AD_CMD.DROP moves a LOCKED domain to SEARCH with reason CMD. -/
def execAdCmdDrop (d : Fin 3) (s : State) : Host.Outcome State Fault Refusal :=
  .next (s.whenUp s.pwr.pdUp fun s => s.adDrop d)

/-- PL_CTL_WRITE (R247): A PL_CTL write enables a checker, or leaves EN 0 with CFG_ERR on invalid domains. -/
def execPlCtlWrite (k : Fin 2) (w : Word) (s : State) : Host.Outcome State Fault Refusal :=
  .next (s.whenUp s.pwr.pdUp fun s => s.writePlCtl k w)

/-- PL_TRIP_CLEAR (R246): A W1C of PL_STAT.TRIP resets the checker's count and ends its hold. -/
def execPlTripClear (k : Fin 2) (s : State) : Host.Outcome State Fault Refusal :=
  .next (s.whenUp s.pwr.pdUp fun s => s.clearTrip k)

/-- DOMAIN_SWEEP (R280): From L + 16 the Timetable cancels the lost or dropped domain's entries one handle per cycle
with notices. -/
def execDomainSweep (d : Fin 3) (s : State) : Host.Outcome State Fault Refusal :=
  .next (s.whenUp s.pwr.pdUp fun s => s.domainSweep d)

end Sys2Proof.Machine
end

