-- ==== Sys2Proof/Machine/ExecChannels.lean ====
section
/-!
DEFINITION. Machine/ExecChannels.lean: the commands of groves, channels, captures, edge queues, pairs and Clearing (04, 05).
-/
namespace Sys2Proof.Machine
open State

/-- GROVE_TICK (R122): A grove's prescaler count expires and each running channel of the grove takes one counter step. -/
def execGroveTick (g : Fin 8) (s : State) : Host.Outcome State Fault Refusal :=
  .next (s.whenUp s.pwr.pdUp fun s => s.groveTick g)

/-- EDGE_TIME_FIRE (R173): TB reaches a head time entry's target and the entry fires. -/
def execEdgeTimeFire (n : Fin 64) (s : State) : Host.Outcome State Fault Refusal :=
  .next (s.whenUp s.pwr.pdUp fun s => s.edgeTimeFire n)

/-- EDGE_ANGLE_FIRE (R221): A domain's position reaches a head angle entry's target and the entry fires. -/
def execEdgeAngleFire (n : Fin 64) (s : State) : Host.Outcome State Fault Refusal :=
  .next (s.whenUp s.pwr.pdUp fun s => s.edgeAngleFire n)

/-- GRV_CMD_START (R125): GRV_CMD.START starts every enabled channel of the grove in one cycle, with stagger when enabled. -/
def execGrvCmdStart (g : Fin 8) (s : State) : Host.Outcome State Fault Refusal :=
  .next (s.whenUp s.pwr.pdUp fun s => s.groveStart g)

/-- GRV_CMD_STOP (R129): GRV_CMD.STOP stops every channel of the grove. -/
def execGrvCmdStop (g : Fin 8) (s : State) : Host.Outcome State Fault Refusal :=
  .next (s.whenUp s.pwr.pdUp fun s => s.groveStop g)

/-- GRV_PSC_WRITE (R130): A GRV_PSC write restarts the prescaler, or is refused while a channel runs. -/
def execGrvPscWrite (g : Fin 8) (w : Word) (s : State) : Host.Outcome State Fault Refusal :=
  .next (s.whenUp s.pwr.pdUp fun s => s.writePsc g w)

/-- CH_CMD_GO (R126): CH_CMD.GO starts one channel at its grove's next tick. -/
def execChCmdGo (n : Fin 64) (s : State) : Host.Outcome State Fault Refusal :=
  .next (s.whenUp s.pwr.pdUp fun s => s.chanGo n)

/-- CH_CMD_STOP (R129): CH_CMD.STOP stops one channel, holding its count. -/
def execChCmdStop (n : Fin 64) (s : State) : Host.Outcome State Fault Refusal :=
  .next (s.whenUp s.pwr.pdUp fun s => s.stopChan n)

/-- CH_CMD_SWCAP (R148): CH_CMD.SWCAP takes a software capture in the cycle it arrives. -/
def execChCmdSwcap (n : Fin 64) (s : State) : Host.Outcome State Fault Refusal :=
  .next (s.whenUp s.pwr.pdUp fun s => s.swCapture n)

/-- CH_CMD_OVRCLR (R147): CH_CMD.OVRCLR clears the channel's OVRCNT. -/
def execChCmdOvrclr (n : Fin 64) (s : State) : Host.Outcome State Fault Refusal :=
  .next (s.whenUp s.pwr.pdUp fun s => s.ovrClr n)

/-- CH_CTL_WRITE (R123): A CH_CTL write takes effect, except a CLKSRC change while running, which sets WWR. -/
def execChCtlWrite (n : Fin 64) (w : Word) (s : State) : Host.Outcome State Fault Refusal :=
  .next (s.whenUp s.pwr.pdUp fun s => s.writeCtl n w)

/-- RELOAD_LO_WRITE (R131): A RELOAD_LO write goes to the staging register. -/
def execReloadLoWrite (n : Fin 64) (w : Word) (s : State) : Host.Outcome State Fault Refusal :=
  .next (s.whenUp s.pwr.pdUp fun s => s.writeReloadLo n w)

/-- RELOAD_HI_WRITE (R133): A RELOAD_HI write commits RELOAD, at once when stopped or pending when running. -/
def execReloadHiWrite (n : Fin 64) (w : Word) (s : State) : Host.Outcome State Fault Refusal :=
  .next (s.whenUp s.pwr.pdUp fun s => s.writeReloadHi n w)

/-- MAT_LO_WRITE (R137): A MATx_LO write goes to the match staging register. -/
def execMatLoWrite (n : Fin 64) (k : Fin 4) (w : Word) (s : State) : Host.Outcome State Fault Refusal :=
  .next (s.whenUp s.pwr.pdUp fun s => s.writeMatLo n k w)

/-- MAT_HI_WRITE (R137): A MATx_HI write commits the match value, at once or at the next VALLEY. -/
def execMatHiWrite (n : Fin 64) (k : Fin 4) (w : Word) (s : State) : Host.Outcome State Fault Refusal :=
  .next (s.whenUp s.pwr.pdUp fun s => s.writeMatHi n k w)

/-- CNT_WRITE (R152): A CNT_LO or CNT_HI write sets the counter half when stopped, or is refused with WWR when running. -/
def execCntWrite (n : Fin 64) (hi : Bool) (w : Word) (s : State) : Host.Outcome State Fault Refusal :=
  .next (s.whenUp s.pwr.pdUp fun s => s.writeCnt n hi w)

/-- CNT_READ (R150): A CNT_LO or CNT_HI read returns the held count, or 0xFFFF_FFFF with RWR set while running. -/
def execCntRead (n : Fin 64) (hi : Bool) (s : State) : Host.Outcome State Fault Refusal :=
  .next (s.whenUp s.pwr.pd1Up fun s => if s.compat then s else s.answered (s.readCnt n hi))

/-- CNT_READ_COMPAT (R835): In JX32 mode a running counter half is read live without setting a flag. -/
def execCntReadCompat (n : Fin 64) (hi : Bool) (s : State) : Host.Outcome State Fault Refusal :=
  .next (s.whenUp s.pwr.pd1Up fun s => if s.compat then s.answered (s.readCnt n hi) else s)

/-- CAPTURE_EDGE (R144): A filtered hardware capture edge loads CAP and sets the CAP flag. -/
def execCaptureEdge (n : Fin 64) (level : Bool) (s : State) : Host.Outcome State Fault Refusal :=
  .next (s.whenUp s.pwr.pdUp fun s => s.captureEdge n level)

/-- CAP_LO_READ (R149): A CAP_LO read clears the CAP flag and copies the high half into the hold register. -/
def execCapLoRead (n : Fin 64) (s : State) : Host.Outcome State Fault Refusal :=
  .next (s.whenUp s.pwr.pd1Up fun s => s.answered (s.readCapLo n))

/-- GLB_TB_READ (R154): A GLB_TB_LO or GLB_TB_HI read returns 0xFFFF_FFFF and sets RWR while TB runs. -/
def execGlbTbRead (hi : Bool) (s : State) : Host.Outcome State Fault Refusal := .next (s.answered (s.readTb hi))

/-- TB_SNAP (R155): GLB_TB_REQ.SNAP copies TB into TB_SNAP and increments SEQ. -/
def execTbSnap (s : State) : Host.Outcome State Fault Refusal := .next s.tbSnap

/-- EQ_PUSH (R169): An EQ_PUSH write pushes an edge entry into the lowest free slot, or is refused. -/
def execEqPush (p : Path) (n : Fin 64) (w : Word) (s : State) : Host.Outcome State Fault Refusal :=
  .next (s.whenUp s.pwr.pdUp fun s => s.eqPush n p w)

/-- EQ_SHD (R182): An EQ_SHD write loads a slot's shadow, or is refused with EQERR. -/
def execEqShd (p : Path) (n : Fin 64) (w : Word) (s : State) : Host.Outcome State Fault Refusal :=
  .next (s.whenUp s.pwr.pdUp fun s => s.eqShd n p w)

/-- GRV_UPD_ARM (R184): A write of GRV_UPD.ARM arms the grove-wide shadow transfer. -/
def execGrvUpdArm (g : Fin 8) (s : State) : Host.Outcome State Fault Refusal :=
  .next (s.whenUp s.pwr.pdUp fun s => s.armGrove g)

/-- CH_PAIR_WRITE (R191): A CH_PAIR write stages FORCE and sets FORCE_PEND. -/
def execChPairWrite (n : Fin 64) (w : Word) (s : State) : Host.Outcome State Fault Refusal :=
  .next (s.whenUp s.pwr.pdUp fun s => s.writePair n w)

/-- CH_OCFG_WRITE (R843): A CH_OCFG write changes the Clearing level or polarity, refusing reserved values. -/
def execChOcfgWrite (n : Fin 64) (w : Word) (s : State) : Host.Outcome State Fault Refusal :=
  .next (s.whenUp s.pwr.pdUp fun s => s.writeOcfg n w)

/-- CH_OCMD_CLR (R198): CH_OCMD.CLR sets Clearing cause SW. -/
def execChOcmdClr (n : Fin 64) (s : State) : Host.Outcome State Fault Refusal :=
  .next (s.whenUp s.pwr.pdUp fun s => s.setSw n)

/-- CH_OCMD_REL (R198): CH_OCMD.REL releases SW, RDBK and UNDR. -/
def execChOcmdRel (n : Fin 64) (s : State) : Host.Outcome State Fault Refusal :=
  .next (s.whenUp s.pwr.pdUp fun s => s.releaseSw n)

/-- CH_OCMD_REL_SYNC (R198): CH_OCMD.REL_SYNC releases SYNC when the bound domain is LOCKED or none. -/
def execChOcmdRelSync (n : Fin 64) (s : State) : Host.Outcome State Fault Refusal :=
  .next (s.whenUp s.pwr.pdUp fun s => s.releaseSync n)

/-- CH_OCMD_FLUSH (R205): CH_OCMD.FLUSH frees every slot of the edge queue and clears SHDPEND. -/
def execChOcmdFlush (n : Fin 64) (s : State) : Host.Outcome State Fault Refusal :=
  .next (s.whenUp s.pwr.pdUp fun s => s.flushCmd n)

/-- GRV_CLRCMD_CLR (R198): GRV_CLRCMD.CLR sets SW on all 8 channels. -/
def execGrvClrcmdClr (g : Fin 8) (s : State) : Host.Outcome State Fault Refusal :=
  .next (s.whenUp s.pwr.pdUp fun s => s.grvClrcmd g 1)

/-- GRV_CLRCMD_REL (R198): GRV_CLRCMD.REL releases SW, RDBK and UNDR on all 8 channels. -/
def execGrvClrcmdRel (g : Fin 8) (s : State) : Host.Outcome State Fault Refusal :=
  .next (s.whenUp s.pwr.pdUp fun s => s.grvClrcmd g 2)

/-- GRV_CLRCMD_REL_TRIP (R198): GRV_CLRCMD.REL_TRIP releases ITRIP when the grove's trip latch is clear. -/
def execGrvClrcmdRelTrip (g : Fin 8) (s : State) : Host.Outcome State Fault Refusal :=
  .next (s.whenUp s.pwr.pdUp fun s => s.grvClrcmd g 4)

/-- READBACK_MISMATCH (R202): A run of 64 differing compared cycles sets RDBK, enters Clearing and reports to FLT. -/
def execReadbackMismatch (n : Fin 64) (s : State) : Host.Outcome State Fault Refusal :=
  .next (s.whenUp s.pwr.pdUp fun s => s.readbackMismatch n)

/-- GRV_RDM_GO (R844): GRV_RDM.GO starts the grove's re-admission, or is refused with SERR when no channel holds READMIT. -/
def execGrvRdmGo (g : Fin 8) (s : State) : Host.Outcome State Fault Refusal := .next (s.whenUp s.pwr.pdUp fun s => s.rdmGo g)

end Sys2Proof.Machine
end

