-- ==== Sys2Proof/Machine/ExecEngine.lean ====
section
/-!
DEFINITION. Machine/ExecEngine.lean: the microengine's instructions and events (07, 08).
-/
namespace Sys2Proof.Machine
open State

/-- ADD (R323): ALU add of two registers with flags. -/
def execAdd (rd : Fin 16) (ra : Fin 16) (rb : Fin 16) (s : State) : Host.Outcome State Fault Refusal :=
  .next (s.whenUp s.pwr.pdUp fun s => s.meExec (.alu .add rd ra rb))

/-- ADC (R323): ALU add with carry. -/
def execAdc (rd : Fin 16) (ra : Fin 16) (rb : Fin 16) (s : State) : Host.Outcome State Fault Refusal :=
  .next (s.whenUp s.pwr.pdUp fun s => s.meExec (.alu .adc rd ra rb))

/-- SUB (R323): ALU subtract. -/
def execSub (rd : Fin 16) (ra : Fin 16) (rb : Fin 16) (s : State) : Host.Outcome State Fault Refusal :=
  .next (s.whenUp s.pwr.pdUp fun s => s.meExec (.alu .sub rd ra rb))

/-- SBC (R323): ALU subtract with borrow. -/
def execSbc (rd : Fin 16) (ra : Fin 16) (rb : Fin 16) (s : State) : Host.Outcome State Fault Refusal :=
  .next (s.whenUp s.pwr.pdUp fun s => s.meExec (.alu .sbc rd ra rb))

/-- AND (R323): Bitwise AND. -/
def execAnd (rd : Fin 16) (ra : Fin 16) (rb : Fin 16) (s : State) : Host.Outcome State Fault Refusal :=
  .next (s.whenUp s.pwr.pdUp fun s => s.meExec (.alu .and rd ra rb))

/-- OR (R323): Bitwise OR. -/
def execOr (rd : Fin 16) (ra : Fin 16) (rb : Fin 16) (s : State) : Host.Outcome State Fault Refusal :=
  .next (s.whenUp s.pwr.pdUp fun s => s.meExec (.alu .or rd ra rb))

/-- XOR (R323): Bitwise XOR. -/
def execXor (rd : Fin 16) (ra : Fin 16) (rb : Fin 16) (s : State) : Host.Outcome State Fault Refusal :=
  .next (s.whenUp s.pwr.pdUp fun s => s.meExec (.alu .xor rd ra rb))

/-- ANDN (R323): Bitwise AND with complement. -/
def execAndn (rd : Fin 16) (ra : Fin 16) (rb : Fin 16) (s : State) : Host.Outcome State Fault Refusal :=
  .next (s.whenUp s.pwr.pdUp fun s => s.meExec (.alu .andn rd ra rb))

/-- SHL (R323): Shift left by a register count. -/
def execShl (rd : Fin 16) (ra : Fin 16) (rb : Fin 16) (s : State) : Host.Outcome State Fault Refusal :=
  .next (s.whenUp s.pwr.pdUp fun s => s.meExec (.alu .shl rd ra rb))

/-- SHR (R323): Logical shift right by a register count. -/
def execShr (rd : Fin 16) (ra : Fin 16) (rb : Fin 16) (s : State) : Host.Outcome State Fault Refusal :=
  .next (s.whenUp s.pwr.pdUp fun s => s.meExec (.alu .shr rd ra rb))

/-- SAR (R323): Arithmetic shift right by a register count. -/
def execSar (rd : Fin 16) (ra : Fin 16) (rb : Fin 16) (s : State) : Host.Outcome State Fault Refusal :=
  .next (s.whenUp s.pwr.pdUp fun s => s.meExec (.alu .sar rd ra rb))

/-- MUL (R323): Multiply, low 32 bits. -/
def execMul (rd : Fin 16) (ra : Fin 16) (rb : Fin 16) (s : State) : Host.Outcome State Fault Refusal :=
  .next (s.whenUp s.pwr.pdUp fun s => s.meExec (.alu .mul rd ra rb))

/-- MULHU (R323): Unsigned multiply, high 32 bits. -/
def execMulhu (rd : Fin 16) (ra : Fin 16) (rb : Fin 16) (s : State) : Host.Outcome State Fault Refusal :=
  .next (s.whenUp s.pwr.pdUp fun s => s.meExec (.alu .mulhu rd ra rb))

/-- DIVU (R323): Unsigned divide in 18 cycles. -/
def execDivu (rd : Fin 16) (ra : Fin 16) (rb : Fin 16) (s : State) : Host.Outcome State Fault Refusal :=
  .next (s.whenUp s.pwr.pdUp fun s => s.meExec (.alu .divu rd ra rb))

/-- REMU (R323): Unsigned remainder in 18 cycles. -/
def execRemu (rd : Fin 16) (ra : Fin 16) (rb : Fin 16) (s : State) : Host.Outcome State Fault Refusal :=
  .next (s.whenUp s.pwr.pdUp fun s => s.meExec (.alu .remu rd ra rb))

/-- MINU (R323): Unsigned minimum. -/
def execMinu (rd : Fin 16) (ra : Fin 16) (rb : Fin 16) (s : State) : Host.Outcome State Fault Refusal :=
  .next (s.whenUp s.pwr.pdUp fun s => s.meExec (.alu .minu rd ra rb))

/-- MAXU (R323): Unsigned maximum. -/
def execMaxu (rd : Fin 16) (ra : Fin 16) (rb : Fin 16) (s : State) : Host.Outcome State Fault Refusal :=
  .next (s.whenUp s.pwr.pdUp fun s => s.meExec (.alu .maxu rd ra rb))

/-- CMP (R323): Compare two registers, setting flags only. -/
def execCmp (ra : Fin 16) (rb : Fin 16) (s : State) : Host.Outcome State Fault Refusal :=
  .next (s.whenUp s.pwr.pdUp fun s => s.meExec (.alu .cmp 0 ra rb))

/-- TST (R323): Test bits of two registers, setting flags only. -/
def execTst (ra : Fin 16) (rb : Fin 16) (s : State) : Host.Outcome State Fault Refusal :=
  .next (s.whenUp s.pwr.pdUp fun s => s.meExec (.alu .tst 0 ra rb))

/-- MOV (R323): Copy a register. -/
def execMov (rd : Fin 16) (ra : Fin 16) (s : State) : Host.Outcome State Fault Refusal :=
  .next (s.whenUp s.pwr.pdUp fun s => s.meExec (.alu .mov rd ra 0))

/-- ADDI (R324): Add a sign-extended immediate. -/
def execAddi (rd : Fin 16) (ra : Fin 16) (imm : BitVec 18) (s : State) : Host.Outcome State Fault Refusal :=
  .next (s.whenUp s.pwr.pdUp fun s => s.meExec (.imm .addi rd ra imm))

/-- ANDI (R324): AND with a zero-extended immediate. -/
def execAndi (rd : Fin 16) (ra : Fin 16) (imm : BitVec 18) (s : State) : Host.Outcome State Fault Refusal :=
  .next (s.whenUp s.pwr.pdUp fun s => s.meExec (.imm .andi rd ra imm))

/-- ORI (R324): OR with a zero-extended immediate. -/
def execOri (rd : Fin 16) (ra : Fin 16) (imm : BitVec 18) (s : State) : Host.Outcome State Fault Refusal :=
  .next (s.whenUp s.pwr.pdUp fun s => s.meExec (.imm .ori rd ra imm))

/-- XORI (R324): XOR with a zero-extended immediate. -/
def execXori (rd : Fin 16) (ra : Fin 16) (imm : BitVec 18) (s : State) : Host.Outcome State Fault Refusal :=
  .next (s.whenUp s.pwr.pdUp fun s => s.meExec (.imm .xori rd ra imm))

/-- SHLI (R324): Shift left by an immediate count. -/
def execShli (rd : Fin 16) (ra : Fin 16) (n : Fin 32) (s : State) : Host.Outcome State Fault Refusal :=
  .next (s.whenUp s.pwr.pdUp fun s => s.meExec (.imm .shli rd ra (.ofNat 18 n.val)))

/-- SHRI (R324): Logical shift right by an immediate count. -/
def execShri (rd : Fin 16) (ra : Fin 16) (n : Fin 32) (s : State) : Host.Outcome State Fault Refusal :=
  .next (s.whenUp s.pwr.pdUp fun s => s.meExec (.imm .shri rd ra (.ofNat 18 n.val)))

/-- SARI (R324): Arithmetic shift right by an immediate count. -/
def execSari (rd : Fin 16) (ra : Fin 16) (n : Fin 32) (s : State) : Host.Outcome State Fault Refusal :=
  .next (s.whenUp s.pwr.pdUp fun s => s.meExec (.imm .sari rd ra (.ofNat 18 n.val)))

/-- CMPI (R324): Compare with a sign-extended immediate. -/
def execCmpi (ra : Fin 16) (imm : BitVec 18) (s : State) : Host.Outcome State Fault Refusal :=
  .next (s.whenUp s.pwr.pdUp fun s => s.meExec (.imm .cmpi 0 ra imm))

/-- TSTI (R324): Test bits against a zero-extended immediate. -/
def execTsti (ra : Fin 16) (imm : BitVec 18) (s : State) : Host.Outcome State Fault Refusal :=
  .next (s.whenUp s.pwr.pdUp fun s => s.meExec (.imm .tsti 0 ra imm))

/-- MOVI (R324): Load a sign-extended immediate. -/
def execMovi (rd : Fin 16) (imm : BitVec 18) (s : State) : Host.Outcome State Fault Refusal :=
  .next (s.whenUp s.pwr.pdUp fun s => s.meExec (.movi rd imm))

/-- MOVHI (R324): Load a 16-bit immediate into the upper half. -/
def execMovhi (rd : Fin 16) (imm : BitVec 16) (s : State) : Host.Outcome State Fault Refusal :=
  .next (s.whenUp s.pwr.pdUp fun s => s.meExec (.movhi rd imm))

/-- LDW (R325): Load a word from the data space. -/
def execLdw (rd : Fin 16) (ra : Fin 16) (imm : BitVec 18) (s : State) : Host.Outcome State Fault Refusal :=
  .next (s.whenUp s.pwr.pdUp fun s => s.meExec (.load .ldw rd ra imm))

/-- LDH (R325): Load a sign-extended half-word. -/
def execLdh (rd : Fin 16) (ra : Fin 16) (imm : BitVec 18) (s : State) : Host.Outcome State Fault Refusal :=
  .next (s.whenUp s.pwr.pdUp fun s => s.meExec (.load .ldh rd ra imm))

/-- LDHU (R325): Load a zero-extended half-word. -/
def execLdhu (rd : Fin 16) (ra : Fin 16) (imm : BitVec 18) (s : State) : Host.Outcome State Fault Refusal :=
  .next (s.whenUp s.pwr.pdUp fun s => s.meExec (.load .ldhu rd ra imm))

/-- LDB (R325): Load a sign-extended byte. -/
def execLdb (rd : Fin 16) (ra : Fin 16) (imm : BitVec 18) (s : State) : Host.Outcome State Fault Refusal :=
  .next (s.whenUp s.pwr.pdUp fun s => s.meExec (.load .ldb rd ra imm))

/-- LDBU (R325): Load a zero-extended byte. -/
def execLdbu (rd : Fin 16) (ra : Fin 16) (imm : BitVec 18) (s : State) : Host.Outcome State Fault Refusal :=
  .next (s.whenUp s.pwr.pdUp fun s => s.meExec (.load .ldbu rd ra imm))

/-- STW (R325): Store a word. -/
def execStw (rd : Fin 16) (ra : Fin 16) (imm : BitVec 18) (s : State) : Host.Outcome State Fault Refusal :=
  .next (s.whenUp s.pwr.pdUp fun s => s.meExec (.store .stw rd ra imm))

/-- STH (R325): Store a half-word. -/
def execSth (rd : Fin 16) (ra : Fin 16) (imm : BitVec 18) (s : State) : Host.Outcome State Fault Refusal :=
  .next (s.whenUp s.pwr.pdUp fun s => s.meExec (.store .sth rd ra imm))

/-- STB (R325): Store a byte. -/
def execStb (rd : Fin 16) (ra : Fin 16) (imm : BitVec 18) (s : State) : Host.Outcome State Fault Refusal :=
  .next (s.whenUp s.pwr.pdUp fun s => s.meExec (.store .stb rd ra imm))

/-- XADD (R327): Atomic fetch-and-add on a bank word or G register. -/
def execXadd (g : Bool) (rd : Fin 16) (ra : Fin 16) (rb : Fin 16) (s : State) : Host.Outcome State Fault Refusal :=
  .next (s.whenUp s.pwr.pdUp fun s => s.meExec (.atom .xadd g rd ra rb))

/-- XCHG (R327): Atomic exchange. -/
def execXchg (g : Bool) (rd : Fin 16) (ra : Fin 16) (rb : Fin 16) (s : State) : Host.Outcome State Fault Refusal :=
  .next (s.whenUp s.pwr.pdUp fun s => s.meExec (.atom .xchg g rd ra rb))

/-- XSET (R327): Atomic fetch-and-OR. -/
def execXset (g : Bool) (rd : Fin 16) (ra : Fin 16) (rb : Fin 16) (s : State) : Host.Outcome State Fault Refusal :=
  .next (s.whenUp s.pwr.pdUp fun s => s.meExec (.atom .xset g rd ra rb))

/-- XCLR (R327): Atomic fetch-and-clear. -/
def execXclr (g : Bool) (rd : Fin 16) (ra : Fin 16) (rb : Fin 16) (s : State) : Host.Outcome State Fault Refusal :=
  .next (s.whenUp s.pwr.pdUp fun s => s.meExec (.atom .xclr g rd ra rb))

/-- CAS (R327): Atomic compare-and-swap. -/
def execCas (g : Bool) (rd : Fin 16) (ra : Fin 16) (rb : Fin 16) (s : State) : Host.Outcome State Fault Refusal :=
  .next (s.whenUp s.pwr.pdUp fun s => s.meExec (.atom .cas g rd ra rb))

/-- B (R329): Conditional branch to an absolute word. -/
def execB (cond : Fin 16) (target : BitVec 13) (s : State) : Host.Outcome State Fault Refusal :=
  .next (s.whenUp s.pwr.pdUp fun s => s.meExec (.b cond target))

/-- CALL (R329): Call a subroutine in a new window. -/
def execCall (target : BitVec 13) (s : State) : Host.Outcome State Fault Refusal :=
  .next (s.whenUp s.pwr.pdUp fun s => s.meExec (.call target))

/-- JR (R329): Jump to the word in a register. -/
def execJr (ra : Fin 16) (s : State) : Host.Outcome State Fault Refusal :=
  .next (s.whenUp s.pwr.pdUp fun s => s.meExec (.jr ra))

/-- RET (R329): Close the current window and return to the caller. -/
def execRet (s : State) : Host.Outcome State Fault Refusal := .next (s.whenUp s.pwr.pdUp fun s => s.meExec .ret)

/-- YIELD (R273): Close every window of the dispatch and select the next program. -/
def execYield (s : State) : Host.Outcome State Fault Refusal := .next (s.whenUp s.pwr.pdUp fun s => s.meExec .yield)

/-- NOP (R329): Do nothing for one cycle. -/
def execNop (s : State) : Host.Outcome State Fault Refusal := .next (s.whenUp s.pwr.pdUp fun s => s.meExec .nop)

/-- SCHED (R332): Insert a calendar entry from four registers. -/
def execSched (rd : Fin 16) (ra : Fin 16) (s : State) : Host.Outcome State Fault Refusal :=
  .next (s.whenUp s.pwr.pdUp fun s => s.meExec (.sched rd ra))

/-- CANCEL (R335): Cancel a calendar entry by handle. -/
def execCancel (rd : Fin 16) (ra : Fin 16) (s : State) : Host.Outcome State Fault Refusal :=
  .next (s.whenUp s.pwr.pdUp fun s => s.meExec (.cancel rd ra))

/-- SCHED_RESULT (R334): The Timetable's status and handle for a SCHED or CANCEL are written into RD. -/
def execSchedResult (s : State) : Host.Outcome State Fault Refusal := .next (s.whenUp s.pwr.pdUp fun s => s.meResult)

/-- EDGE (R336): Push an edge entry or load a shadow in one channel. -/
def execEdge (rc : Fin 16) (ra : Fin 16) (rb : Fin 16) (shd : Bool) (chr : Bool) (ch : Fin 64) (s : State) : Host.Outcome State Fault Refusal :=
  .next (s.whenUp s.pwr.pdUp fun s => s.meExec (.edge rc ra rb shd chr ch))

/-- SNAP (R339): Read a running counter or TB exactly into two registers. -/
def execSnap (rd : Fin 16) (re : Fin 16) (sel : BitVec 7) (s : State) : Host.Outcome State Fault Refusal :=
  .next (s.whenUp s.pwr.pdUp fun s => s.meExec (.snap rd re sel))

/-- ATT (R340): Convert an angle target into a timebase value. -/
def execAtt (rd : Fin 16) (re : Fin 16) (ra : Fin 16) (dom : BitVec 2) (s : State) : Host.Outcome State Fault Refusal :=
  .next (s.whenUp s.pwr.pdUp fun s => s.meExec (.att rd re ra dom))

/-- SIGNAL (R341): Set an ME_SIG bit, asserting an interrupt source. -/
def execSignal (n : Fin 8) (s : State) : Host.Outcome State Fault Refusal :=
  .next (s.whenUp s.pwr.pdUp fun s => s.meExec (.signal n))

/-- POST (R342): Post a USER event to a client's event queue. -/
def execPost (ra : Fin 16) (rb : Fin 16) (client : Fin 256) (s : State) : Host.Outcome State Fault Refusal :=
  .next (s.whenUp s.pwr.pdUp fun s => s.meExec (.post ra rb client))

/-- TRAP (R343): Raise the SOFT trap with a code. -/
def execTrap (code : BitVec 16) (s : State) : Host.Outcome State Fault Refusal :=
  .next (s.whenUp s.pwr.pdUp fun s => s.meExec (.trap code))

/-- ILLEGAL_INSTRUCTION (R314): A reserved encoding raises the ILLEGAL trap. -/
def execIllegalInstruction (s : State) : Host.Outcome State Fault Refusal := .next (s.whenUp s.pwr.pdUp fun s => s.meIllegal)

/-- REQUEST_RELEASE (R296): A held microengine request leaves the engine two cycles after issue once the checker agrees. -/
def execRequestRelease (s : State) : Host.Outcome State Fault Refusal := .next (s.whenUp s.pwr.pdUp fun s => s.meRelease)

/-- WATCHDOG_TRAP (R290): A dispatch reaches ME_WDOG.LIMIT cycles and the WATCHDOG trap is raised. -/
def execWatchdogTrap (s : State) : Host.Outcome State Fault Refusal := .next (s.whenUp s.pwr.pdUp fun s => s.meWatchdog)

/-- LOCKSTEP_MISMATCH (R297): The lockstep checker disagrees and the microengine is fenced with cause LOCKSTEP. -/
def execLockstepMismatch (s : State) : Host.Outcome State Fault Refusal :=
  .next (s.whenUp s.pwr.pdUp fun s => s.lockstepMismatch)

end Sys2Proof.Machine
end

