-- ==== Sys2Proof/Machine/ExecFlt.lean ====
section
/-!
DEFINITION. Machine/ExecFlt.lean: the commands of the fault block (19).
-/
namespace Sys2Proof.Machine
open State

/-- ROLL_CALL_SLOT (R703): A Roll Call slot ends and FLT judges the checker's token report. -/
def execRollCallSlot (answer : Option Bool) (s : State) : Host.Outcome State Fault Refusal :=
  .next (s.whenUp s.pwr.pd1Up fun s => s.rollCall answer)

/-- FLT_RECORD (R700): A mechanism report reaches FLT, which records, classes and acts on it. -/
def execFltRecord (f : Option Internal) (s : State) : Host.Outcome State Fault Refusal :=
  .next (s.whenUp s.pwr.pd1Up fun s => watchLasting s fun s => s.fltRecord f)

/-- CENSUS_MISMATCH (R704): The census twins disagree and the device forces Clearing and enters CENSUS. -/
def execCensusMismatch (s : State) : Host.Outcome State Fault Refusal :=
  .next (s.whenUp s.pwr.pd1Up fun s => watchLasting s fun s => s.censusMismatch)

/-- SUP_RESTART (R701): After 1 µs in reset the supervisor restarts at its warm entry point. -/
def execSupRestart (s : State) : Host.Outcome State Fault Refusal :=
  .next (s.whenUp s.pwr.pd1Up fun s => if s.flt.supReset then s.supRestart.updResume else s)

/-- FLT_CMD_FENCE (R715): FLT_CMD FENCE fences the named unit. -/
def execFltCmdFence (kind : Fin 16) (index : Fin 256) (s : State) : Host.Outcome State Fault Refusal :=
  .next (s.whenUp s.pwr.pd1Up fun s => s.cmdFence kind.val index.val)

/-- FLT_CMD_READMIT (R711): FLT_CMD READMIT lifts a LASTING fence. -/
def execFltCmdReadmit (kind : Fin 16) (index : Fin 256) (s : State) : Host.Outcome State Fault Refusal :=
  .next (s.whenUp s.pwr.pd1Up fun s => s.cmdReadmit kind.val index.val)

/-- FLT_CMD_CLRLOG (R715): FLT_CMD CLRLOG empties the log ring. -/
def execFltCmdClrlog (s : State) : Host.Outcome State Fault Refusal := .next (s.whenUp s.pwr.pd1Up fun s => s.cmdClrlog)

/-- FLT_LOGFULL_CLEAR (R714): A write of 1 to FLT_FLAG.LOGFULL clears UNREAD. -/
def execFltLogfullClear (s : State) : Host.Outcome State Fault Refusal :=
  .next (s.whenUp s.pwr.pd1Up fun s => s.clearLogfull)

end Sys2Proof.Machine
end

