-- ==== Sys2Proof/Machine/Image.lean ====
section
/-!
DEFINITION. Machine/Image.lean: the loader's checks of the parameter block, boot images and configuration records
(02 Tables 2.2, 2.4–2.15, R49–R58), and the end of an update's verification (20 R740).
-/
namespace Sys2Proof.Machine

/-- Object codes (02 Table 2.15). -/
def oPASS : Nat := 0x01
def oREAD : Nat := 0x02
def oMAGIC : Nat := 0x03
def oFMT : Nat := 0x04
def oHWTYPE : Nat := 0x05
def oUNIT : Nat := 0x06
def oLAYOUT : Nat := 0x07
def oCRC : Nat := 0x08
def oKEY : Nat := 0x09
def oSIG : Nat := 0x0A
def oVENDOR : Nat := 0x0B
def oSEQ : Nat := 0x0C
def oRANGE : Nat := 0x0D

/-- The first failing check of a list, in order; `oPASS` when none fails (02 R55). -/
def firstFail : List (Bool × Nat) → Nat
  | [] => oPASS
  | (bad, code) :: cs => if bad then code else firstFail cs

/-! ## The loader parameter block (02 Table 2.2, R72) -/

/-- LOADER_ERR of a parameter block, 0 when it passes. (DEDUCED, log 75.) -/
def lpbError (b : List Byte) : Nat :=
  let cmd := field b 0x09 1
  if field b 0 4 ≠ 0x42504C4A then 0x21
  else if (crc32c (b.take 0x1C)).toNat ≠ field b 0x1C 4 then 0x22
  else if field b 4 2 ≠ 1 ∨ field b 6 2 ≠ 0x0640 ∨ field b 8 1 < 4 ∨
      (cmd ≠ 0 ∧ cmd ≠ 0x0B ∧ cmd ≠ 0x6B ∧ cmd ≠ 0xEB) ∨ (cmd ≠ 0 ∧ 15 < field b 0x0A 1) ∨ 3 < field b 0x0B 1 ∨
      (field b 0x0C 1 ≠ 8 ∧ field b 0x0C 1 ≠ 16) then 0x23
  else 0

/-- The read command the parameter block chooses, with its dummy clocks (02 R35, R36, Table 2.2). A 0x0B that the
discoverable parameters leave takes 8 dummy clocks. (PRESUMED, log 91.) -/
def Flash.chosen (x : Flash) (lpb : List Byte) : BitVec 8 × BitVec 5 :=
  let cmd := field lpb 0x09 1
  if cmd ≠ 0 then (.ofNat 8 cmd, .ofNat 5 (field lpb 0x0A 1))
  else if x.quad144 then (0xEB, x.dummy144)
  else if x.quad114 then (0x6B, x.dummy114)
  else (0x0B, 8)

/-! ## Boot images (02 Tables 2.4–2.7) -/

/-- A section-table entry (02 Table 2.6). -/
structure Section where
  type : Nat
  first : Nat
  len : Nat
  target : Nat
  deriving DecidableEq, Repr

def Section.blocks (x : Section) : Nat := (x.len + 4095) / 4096

/-- The used entries of the section table. -/
def sections (b0 : List Byte) : List Section :=
  (List.range (field b0 0x1A 1)).map fun i =>
    let o := 0x80 + 16 * i
    { type := field b0 o 1, first := field b0 (o + 2) 2, len := field b0 (o + 4) 4, target := field b0 (o + 8) 4 }

/-- The bytes of a section. -/
def sectBytes (blk : Nat → List Byte) (x : Section) : List Byte :=
  ((List.range x.blocks).flatMap fun i => blk (x.first + i)).take x.len

/-- The rule of a section's type (02 Table 2.7), without its content. -/
def Section.ok (x : Section) : Bool :=
  match x.type with
  | 1 => decide (4096 ≤ x.len) && decide (x.len ≤ 327680) && decide (x.target = 0)
  | 2 => decide (x.len % 4 = 0) && decide (x.len ≤ 32768) && decide (x.target + x.len / 4 ≤ 8192)
  | 3 => decide (x.len = 192) && decide (x.target = 0)
  | 4 =>
    let b := (x.target - 0x20000) / 0x4000
    decide (x.len % 4 = 0) && decide (4 ≤ x.len) && decide (x.len ≤ 16384) && isBankAddr x.target &&
      (decide (b ≤ 4) || decide (b = 6)) && decide (x.target + x.len ≤ 0x20000 + 0x4000 * (b + 1))
  | _ => false

def Section.apart (x y : Section) : Bool := decide (x.first + x.blocks ≤ y.first) || decide (y.first + y.blocks ≤ x.first)

/-- Do no two of the sections overlap? -/
def allApart : List Section → Bool
  | [] => true
  | x :: xs => xs.all x.apart && allApart xs

/-- The header's block and entry counts, and the section table (02 R49). -/
def layoutOk (b0 : List Byte) : Bool :=
  let nb := field b0 0x18 2
  let ns := field b0 0x1A 1
  let xs := sections b0
  let count (t : Nat) : Nat := (xs.filter fun x => decide (x.type = t)).length
  decide (2 ≤ nb) && decide (nb ≤ 97) && decide (2 ≤ ns) && decide (ns ≤ 8) &&
    allZero (slice b0 (0x80 + 16 * ns) (128 - 16 * ns)) &&
    xs.all (fun x => x.ok && decide (1 ≤ x.first) && decide (x.first + x.blocks ≤ nb)) &&
    decide (count 1 = 1) && decide (count 2 = 1) && decide (count 3 ≤ 1) && decide (count 4 ≤ 5) && allApart xs

/-- The blocks' CRC-32C values match the table (02 Table 2.4). -/
def imageCrcs (blk : Nat → List Byte) : Bool :=
  let b0 := blk 0
  decide ((crc32c (b0.take 0x120)).toNat = field b0 0x400 4) &&
    (List.range (field b0 0x18 2)).all fun n => decide (n = 0) || decide ((crc32c (blk n)).toNat = field b0 (0x400 + 4 * n) 4)

/-- The bytes of the firmware section. -/
def fwBytes (blk : Nat → List Byte) : List Byte :=
  match (sections (blk 0)).find? fun x => decide (x.type = 1) with
  | some x => sectBytes blk x
  | none => []

/-- The message of the bundle signature (02 Table 2.11). -/
def bundleMsg (blk : Nat → List Byte) : List Byte :=
  let b0 := blk 0
  b0.take 0x120 ++ slice b0 0x400 0x400 ++ (List.range (field b0 0x18 2 - 1)).flatMap fun i => blk (i + 1)

/-! ## Configuration records (02 Tables 2.8–2.10) -/

/-- The writes of n packed groups, in order; none when the groups do not fill the bytes exactly or a head is invalid
(02 R52, Table 2.9). -/
def parseGroups : Nat → List Byte → Option (List (Nat × Word))
  | 0, bs => if bs.isEmpty then some [] else none
  | n + 1, bs =>
    let addr := field bs 0 4
    let count := field bs 4 2
    let mode := field bs 6 1
    let vals := if mode = 0 then count else 1
    if bs.length < 8 + 4 * vals ∨ (mode ≠ 0 ∧ mode ≠ 2) ∨ field bs 7 1 ≠ 0 ∨ count < 1 ∨ 4096 < count then none
    else
      let ws := wordsOf vals (bs.drop 8)
      let here := (List.range count).map fun i => (addr + 4 * i, if mode = 0 then ws.getD i 0 else ws.headD 0)
      (parseGroups n (bs.drop (8 + 4 * vals))).map fun rest => here ++ rest

/-- Ranges a configuration record may write (02 Table 2.10), registers or not. -/
def recordRange (a : Nat) : Bool :=
  (decide (0x400 ≤ a) && decide (a < 0x5300)) || (decide (0x5400 ≤ a) && decide (a < 0xCC00)) ||
  (decide (0x10000 ≤ a) && decide (a < 0x12000)) || (decide (0x88000 ≤ a) && decide (a < 0x8C000)) ||
  (decide (0x90000 ≤ a) && decide (a < 0x90800))

/-- The record of a copy: its first LENGTH bytes. -/
def recordLen (r : List Byte) : Nat := field r 0x14 4

namespace State

/-- Is a UNIT_ID field for this device (02 R58)? -/
def unitOk (s : State) (id : Nat) : Bool := decide (id = 0) || decide (id = s.otp.unitId.toNat)

/-- Does a signature of SHA-256 digests verify (02 R56, Table 2.11)? -/
def sigOk (key sig msg : List Byte) : Bool := ed25519Verify key sig (digestBytes (sha256 msg))

/-- The firmware's vendor key and signature (02 Table 2.11). -/
def vendorOk (s : State) (fw : List Byte) : Bool :=
  let key := slice fw (fw.length - 96) 32
  decide (sha256 key = s.otp.vendorHash) && sigOk key (slice fw (fw.length - 64) 64) (fw.take (fw.length - 96))

/-- The code of a boot image whose blocks `blk` gives (02 R49, R55–R58, Table 2.15). (DEDUCED, log 75.) -/
def imageCode (s : State) (blk : Nat → List Byte) (minSeq : Nat) : Nat :=
  let b0 := blk 0
  firstFail
    [(decide (field b0 0 4 ≠ 0x4942584A), oMAGIC), (decide (field b0 4 2 ≠ 1), oFMT), (decide (field b0 6 2 ≠ 0x0640), oHWTYPE),
     (!s.unitOk (field b0 8 8), oUNIT), (decide (field b0 0x14 4 < minSeq), oSEQ), (!layoutOk b0, oLAYOUT),
     (!imageCrcs blk, oCRC),
     ((sections b0).any fun x => decide (x.type = 3) && (List.range 48).any fun i => decide (field (sectBytes blk x) (4 * i + 3) 1 ≠ 0),
      oLAYOUT),
     (!s.vendorOk (fwBytes blk), oVENDOR), (!s.fleetTrusts (slice b0 0x100 32), oKEY),
     (!sigOk (slice b0 0x100 32) (slice b0 0x120 64) (bundleMsg blk), oSIG)]

/-- The code of a copy's header (02 Table 2.8, R58). (DEDUCED, log 75.) -/
def headCode (s : State) (r : List Byte) : Nat :=
  let len := recordLen r
  firstFail
    [(decide (field r 0 4 ≠ 0x4643584A), oMAGIC), (decide (field r 6 2 ≠ 0x0640), oHWTYPE), (!s.unitOk (field r 8 8), oUNIT),
     (decide (len < 200) || decide (65536 < len) || decide (len % 4 ≠ 0) || decide (field r 0x18 2 < 1) ||
      decide (8192 < field r 0x18 2), oLAYOUT)]

/-- The writes of a record, none when its groups are invalid. -/
def recordWrites (r : List Byte) : Option (List (Nat × Word)) :=
  parseGroups (field r 0x18 2) (slice r 0x40 (recordLen r - 132))

/-- Is every address written an accepted register (02 R52)? -/
def groupsOk (s : State) (ws : Option (List (Nat × Word))) : Bool :=
  match ws with
  | none => false
  | some ws => ws.all fun p => recordRange p.1 && (s.regRead p.1).isSome

/-- The code of a copy: header, CRC, signature, groups (02 R52, R55–R58). (DEDUCED, log 75.) -/
def recordCode (s : State) (r : List Byte) : Nat :=
  let h := s.headCode r
  let len := recordLen r
  if h ≠ oPASS then h
  else firstFail
    [(decide ((crc32c (r.take (len - 68))).toNat ≠ field r (len - 68) 4), oCRC), (!s.fleetTrusts (slice r 0x20 32), oKEY),
     (!sigOk (slice r 0x20 32) (slice r (len - 64) 64) (r.take (len - 64)), oSIG), (!s.groupsOk (recordWrites r), oLAYOUT)]

/-! ## UPD_VERIFY_DONE (20 R740) -/

/-- Block n (from 0) of the update's target. -/
def targetBlock (s : State) (n : Nat) : List Byte := s.flashRead (s.targetBase + 4096 * n) 4096

/-- The message of the outer signature (20 Table 20.7): block 0 without its signature, then the payload's blocks. -/
def outerMsg (s : State) : List Byte :=
  slice s.upd.head 0 0xE0 ++ slice s.upd.head 0x120 0xEE0 ++ (List.range s.upd.nblk).flatMap fun n => s.targetBlock n

/-- The code of the payload (20 R740, Table 2.15). -/
def payloadCode (s : State) : Nat :=
  if s.upd.kind = 1 ∧ bit s.xf.unread (b2n s.upd.target) = true ∨ s.upd.kind = 2 ∧ bit s.xf.unread (2 + b2n s.upd.target) = true then oREAD
  else if s.upd.kind = 1 then s.imageCode s.targetBlock s.bootRec.minSeq.toNat
  else if s.upd.kind = 2 then s.recordCode (s.flashRead s.targetBase 65536)
  else if (crc32c (s.flashRead stagingBase s.nodePlen)).toNat ≠ s.nodeIcrc then oCRC
  else oPASS

/-- UPD_VERIFY_DONE: the outer signature, then the loader's checks of the payload. (DEDUCED, log 84.) -/
def updVerifyDone (s : State) : State :=
  if s.upd.st ≠ .verifying ∨ s.updWaits then s
  else if !sigOk (slice s.upd.head 0xC0 32) (slice s.upd.head 0xE0 64) s.outerMsg then s.updError eSIG 0 0
  else
    let code := s.payloadCode
    if code ≠ oPASS then s.updError eINNER code 0
    else (s.setUpd .verified).updFlag vDONE

end State
end Sys2Proof.Machine
end

