-- ==== Sys2Proof/Machine/Boot.lean ====
section
/-!
DEFINITION. Machine/Boot.lean: the start sequence of the resident loader, configuration lock, PARK exit and recovery from a
clock fault (02 R31–R73; 03 R80–R84, R98–R106).
-/
namespace Sys2Proof.Machine
namespace State

/-! ## Register writes of a record (02 R53; 03 R81–R83) -/

/-- One write of the loader or of the supervisor's re-apply, as client 0. Record 255 is the supervisor's own, written from a
Hall Pass only (14 R522). -/
def recordWriteAt (s : State) (p : Nat × Word) : State :=
  (s.regWrite (if 0x11FE0 ≤ p.1 ∧ p.1 < 0x12000 then .hp else .sup) 0 p.1 p.2).getD s

/-- The write groups are applied in order (02 R53); a reset that one of them commands ends the work (02 R65). -/
def applyWrites (s : State) (ws : List (Nat × Word)) : State :=
  ws.foldl (fun s p => if s.pwr.pdUp then s.recordWriteAt p else s) s

/-- Registers the Canopy keeps: a re-apply leaves them (03 R81, Tables 3.11–3.14). (DEDUCED, log 78.) -/
def canopyAddr (a : Nat) : Bool := (decide (0x40C ≤ a) && decide (a < 0x41C)) || (decide (0x430 ≤ a) && decide (a < 0x44C)) || decide (a = 0x5540)

/-- Memory arrays a record can name: Seating Chart records and the calendar, those of PD5, and the templates of PD6 (03
Table 3.2). (DEDUCED, log 78.) -/
def arrayAddr (pd5Kept pd6Kept : Bool) (a : Nat) : Bool :=
  (decide (0x10020 ≤ a) && decide (a < 0x12000)) || (decide (0x88000 ≤ a) && decide (a < 0x8C000)) ||
    (pd5Kept && ((decide (0x8000 ≤ a) && decide (a < 0xA800)) || (decide (0x90000 ≤ a) && decide (a < 0x90800)))) ||
    (pd6Kept && ((decide (0x5780 ≤ a) && decide (a < 0x57C0)) || (decide (0x5800 ≤ a) && decide (a < 0x5C00))))

/-- The re-apply: the record's writes in PD2–PD7 and PD1, RWL fields despite the lock (03 R81–R83). (DEDUCED, log 78.) -/
def reapply (s : State) (pd5Kept pd6Kept : Bool) : State :=
  let locked := s.boot.locked
  let ws := (s.boot.record.map fun p => (p.1.toNat, p.2)).filter fun p => !canopyAddr p.1 && !arrayAddr pd5Kept pd6Kept p.1
  let s := (s.modBoot fun b => { b with locked := false }).applyWrites ws
  if s.pwr.pdUp then s.modBoot fun b => { b with locked := locked } else s

/-! ## What the supervisor loads from the record store -/

/-- Stored template slots are written back (10 R410). -/
def loadTemplates (s : State) : State :=
  foldFin 16 (fun k s =>
    let r := s.rsRead 0x02 k.val
    match r.1 with
    | none => r.2
    | some d =>
      let w := bytesWord (d.take 4)
      r.2.modSig fun x =>
        { x with slots := vset x.slots k fun _ => { valid := bit w 31, en := bit w 30, link := Fin.ofNat 4 (fld w 1 0) },
                 tmpl := cellWriteList 0 x.tmpl (64 * k.val) (slice d 4 64) }) s

/-- Put a bin in place, latest START first. (DEDUCED, log 78.) -/
def byStart (b : List Byte) : List (List Byte) → List (List Byte)
  | [] => [b]
  | x :: xs => if field x 0 4 ≤ field b 0 4 then b :: x :: xs else x :: byStart b xs

/-- The supervisor firmware starts: it loads the fault log and the stored bins (17 R650; 19 R724). -/
def firmwareStart (s : State) : State :=
  let log := s.rsRead 0x04 0
  let s := match log.1 with
    | some d => log.2.loadLog d
    | none => log.2
  let days := (List.range 7).foldl (fun (acc : List (List Byte) × State) i =>
    let r := acc.2.rsRead 0x10 (i + 1)
    (match r.1 with
      | some d => byStart d acc.1
      | none => acc.1, r.2)) ([], s)
  let day := days.2.rsRead 0x10 0
  let life := day.2.rsRead 0x11 0
  let s := life.2.pmLoad day.1 life.1 days.1
  s.modFlt fun f => { f with slot := 0, slotAt := s.time }

/-- A PM second begins that PD5 has not seen whole (17 R635). -/
def freshSecond (s : State) : State := s.modPm fun p => { p with sec := { s.newSecond with observed := false } }

/-! ## The start sequence (02 Table 2.3) -/

/-- The sparse memory of n values from key k. -/
def denseCells {α : Type} [DecidableEq α] (d : α) (n : Nat) (f : Nat → α) : List (Nat × α) :=
  ((List.range n).map fun i => (i, f i)).filter fun p => p.2 ≠ d

/-- The sections of an accepted image go to their targets (02 R50, R51). -/
def loadSection (s : State) (blk : Nat → List Byte) (x : Section) : State :=
  let bytes := sectBytes blk x
  match x.type with
  | 2 =>
    s.modMe fun m =>
      { m with storeErr := [], store := denseCells 0 8192 fun w =>
        if x.target ≤ w ∧ w < x.target + x.len / 4 then bytesWord (slice bytes (4 * (w - x.target)) 4) else 0xFFFFFFFF }
  | 3 =>
    { s with ps := { s.ps with storeErr := [], store := denseCells 0 48 fun w => BitVec.ofNat 24 (field bytes (4 * w) 3) } }
  | 4 => s.modMem fun m => { m with cells := cellWriteList 0 m.cells x.target bytes }
  | _ => s

/-- The loader stops (02 R69–R72). -/
def stopLoader (s : State) (st : BootState) : State :=
  let s := s.modBoot fun b => { b with st := st }
  if st = .noBundle then s.modSvc fun v => { v with rom := true } else s

/-- Set a slot's or a copy's code. -/
def setSlotCode (s : State) (slot : Bool) (code : Nat) : State :=
  s.modBoot fun b => if slot then { b with errB := .ofNat 8 code } else { b with errA := .ofNat 8 code }
def setCopyCode (s : State) (c : Bool) (code : Nat) : State :=
  s.modBoot fun b => if c then { b with errC1 := .ofNat 8 code } else { b with errC0 := .ofNat 8 code }

/-- Block n of a slot. -/
def slotBlock (s : State) (slot : Bool) (n : Nat) : List Byte := s.flashRead (slotBase slot + 4096 * n) 4096

/-- Try a slot: its code, and whether it passes. -/
def trySlot (s : State) (slot : Bool) : Bool × State :=
  let code := if bit s.xf.unread (b2n slot) then oREAD else s.imageCode (s.slotBlock slot) s.bootRec.minSeq.toNat
  (decide (code = oPASS), s.setSlotCode slot code)

/-- A slot that passed is booted. -/
def bootSlot (s : State) (slot trial : Bool) : State :=
  let blk := s.slotBlock slot
  let b0 := blk 0
  let s := (sections b0).foldl (fun s x => s.loadSection blk x) s.fillBanks
  s.modBoot fun b =>
    { b with slot := slot, trial := trial, ver := .ofNat 32 (field b0 0x10 4), fmtMin := .ofNat 16 (field b0 0x1C 2),
             fmtMax := .ofNat 16 (field b0 0x1E 2) }

/-- The slot to boot first, whether as a trial, and the boot state's marks (02 R42–R45); `stuck`: the record store cannot
record. (DEDUCED, log 76.) -/
def chooseSlot (s : State) (stuck : Bool) : Bool × Bool × State :=
  let s := (s.rsRead 0x01 0).2
  let r := s.bootRec
  if r.started then
    let s := if stuck then s else s.writeBootRec { r with trial := none, started := false }
    (r.active, false, s.modBoot fun b => { b with trialFailed := true })
  else
    match r.trial with
    | none => (r.active, false, s)
    | some t => if stuck || s.rs.ro then (r.active, false, s) else (t, true, s.writeBootRec { r with started := true })

/-- Choose and boot a slot (02 R46); false when both fail. (DESIGN CHOICE, log 103.) -/
def bootBundle (s : State) (stuck : Bool) : Bool × State :=
  let c := s.chooseSlot stuck
  let first := c.1
  let s := c.2.2
  let writing := s.bootRec.writing
  let a : Bool × State := if writing = some first then (false, s) else s.trySlot first
  if a.1 then (true, a.2.bootSlot first c.2.1)
  else
    let s := a.2.modBoot fun b => { b with slotFallback := true }
    if writing = some (!first) then (false, s)
    else
      let b := s.trySlot (!first)
      if b.1 then (true, b.2.bootSlot (!first) false) else (false, b.2)

/-- The 64 KiB of a configuration copy. -/
def copyBytes (s : State) (c : Bool) : List Byte := s.flashRead (copyBase c) 65536

/-- The code of a copy by its header and the bundle's format range (02 R47, R73). -/
def copyHead (s : State) (c : Bool) : Nat :=
  let r := s.copyBytes c
  let h := if bit s.xf.unread (2 + b2n c) then oREAD else s.headCode r
  if h ≠ oPASS then h
  else if field r 4 2 < s.boot.fmtMin.toNat ∨ s.boot.fmtMax.toNat < field r 4 2 then oRANGE
  else oPASS

/-- The copy to apply (02 R47, R48): none when neither is accepted. A copy that loses on SEQ is judged by its header. (DEDUCED, log 76.) -/
def chooseCopy (s : State) : Option Bool × State :=
  let h0 := s.copyHead false
  let h1 := s.copyHead true
  let s := (s.setCopyCode false h0).setCopyCode true h1
  if h0 ≠ oPASS ∧ h1 ≠ oPASS then (none, s)
  else
    let first : Bool :=
      if h0 ≠ oPASS then true else if h1 ≠ oPASS then false
      else decide (field (s.copyBytes false) 0x10 4 < field (s.copyBytes true) 0x10 4)
    let c1 := s.recordCode (s.copyBytes first)
    let s := s.setCopyCode first c1
    if c1 = oPASS then (some first, s)
    else
      let s := s.modBoot fun b => { b with cfgFallback := true }
      if (if first then h0 else h1) ≠ oPASS then (none, s)
      else
        let c2 := s.recordCode (s.copyBytes (!first))
        let s := s.setCopyCode (!first) c2
        if c2 = oPASS then (some (!first), s) else (none, s)

/-- Steps 10 and 11: PD2–PD7 leave reset, the groups are applied, immediate lock follows (02 R53, R60, R63). A group that
commands a reset ends the sequence (02 R65). (DEDUCED, log 76, DESIGN CHOICE, log 104.) -/
def applyCopy (s : State) (c : Bool) (tApply : Word) : State :=
  let r := s.copyBytes c
  let ws := (recordWrites r).getD []
  let s := (s.modPwr fun p => { p with pdUp := true }).loadTemplates
  let s := s.modBoot fun b =>
    { b with cfgCopy := c, cfgSeq := .ofNat 32 (field r 0x10 4), startMask := .ofNat 8 (field r 0x1B 1),
             deferred := decide (field r 0x1A 1 ≠ 0), record := ws.map fun p => (BitVec.ofNat 20 p.1, p.2) }
  let s := s.applyWrites ws
  if !s.pwr.pdUp then s else
  let now := s.tb
  let s := (s.modBoot fun b =>
    { b with applied := true, tApply := tApply, st := .unlocked,
             lockAt := now + BitVec.ofNat 48 (field r 0x1C 2 * 200000) }).settleMe
  let s := if s.boot.deferred then s else s.lockConfig
  s.freshSecond.packTrigger

/-- RST_N rises: EXTEST, CLAMP or HIGHZ ends in Test-Logic-Reset (21 R795). -/
def rstRise (s : State) : State := s.modPins fun p => { p with rstN := true, tap := if p.rstN then p.tap else 15 }

/-- The shell has calibrated since the lock: the fine-delay table is valid, with settings and a largest error that the spec
leaves open (10 R404, R422). (DEDUCED, log 43.) -/
def calibrated (s : State) : State :=
  let worst := s.free.1.toNat % 41
  let s := foldFin 32 (fun t s =>
    let r := s.free
    r.2.modAfe fun x => { x with cal := { x.cal with table := vset x.cal.table t fun _ => r.1.setWidth 6 } }) s.free.2
  s.modAfe fun x => { x with cal := { x.cal with valid := true, lock := true, wasValid := true, worst := .ofNat 8 worst } }

/-- The PLL locks `tLock` µs after reset release: TB counts from that cycle to the end of the sequence, `tApply` µs after
the release (04 R840; 02 Table 2.3 steps 1, 2). (DESIGN CHOICE, log 11.) -/
def bootClock (s : State) (tApply tLock : Word) : State :=
  if s.pwr.pllLock then s
  else
    let s := s.pllLocked.modTbs fun t => { t with tb := .ofNat 48 (200 * (tApply.toNat - tLock.toNat)) }
    { s.calibrated with time := s.time + 200 * tApply.toNat }

/-- Steps 3 and 4: the commands the flash is given, and the read command in use from then on (02 R35, R36, R40).
(PRESUMED, log 91.) -/
def chooseRead (s : State) (lpb : List Byte) : State :=
  let r := s.xf.chosen lpb
  let s := { s with xf := { s.xf with readCmd := r.1, dummy := r.2, issued := [0x9F, 0x5A, 0x03, r.1] } }
  if s.xf.quadAgrees then s
  else
    let s := { s with xf := { s.xf with readCmd := 0x0B, dummy := if r.1 = 0x0B then r.2 else 8, issued := s.xf.issued ++ [0x0B] } }
    s.modBoot fun b => { b with quadFallback := true }

/-- START_SEQUENCE: the whole start sequence, in which the record store's scan ends (02 R37–R73; 17 R668); `tApply` is the time to configuration applied. PD1 leaves reset
only with RST_N high. (DESIGN CHOICE, log 11, DEDUCED, log 74, DEDUCED, log 86.) -/
def startSequence (s : State) (tApply tLock : Word) (stuck : Bool) : State :=
  if s.boot.st ≠ .loading ∨ !s.pwr.pd1Up ∨ !s.pwr.vioGood then s
  else
    let s := (s.rstRise.bootClock tApply tLock).rsScan []
    let s := s.modBoot fun b => { b with open_ := decide (s.otp.fleetHash = 0) }
    let lpb := s.flashRead 0 32
    let err :=
      if s.xf.size = 0 then 0x24
      else if lpbError lpb ≠ 0 then lpbError lpb
      else if s.xf.size < field lpb 0x0C 1 * 1048576 then 0x25
      else 0
    if err ≠ 0 then
      let s := { s with xf := { s.xf with readCmd := 0x03, dummy := 0, issued := [0x9F, 0x5A, 0x03] } }
      (s.modBoot fun b => { b with loaderErr := .ofNat 8 err }).stopLoader .noBundle
    else
      let b := (s.chooseRead lpb).bootBundle stuck
      if !b.1 then b.2.stopLoader .noBundle
      else
        let c := b.2.chooseCopy
        match c.1 with
        | none => (c.2.stopLoader .noConfig).firmwareStart
        | some k =>
          let s := c.2.applyCopy k tApply
          if s.boot.applied then s.firmwareStart else s

/-! ## Lock (02 R60–R63) -/

/-- LOCK_DEADLINE_EXPIRY (02 R61). -/
def lockDeadline (s : State) : State :=
  if s.boot.st = .unlocked ∧ reached s.tb s.boot.lockAt = true then s.lockConfig else s

/-! ## PARK exit and clock recovery (03 Table 3.5, R80–R84, R105) -/

/-- The PLL has locked: the core clock runs, and PD2–PD7 leave reset (03 Table 3.5 step 5, R105); a device whose
configuration was not applied keeps them in reset (02 R70). -/
def coreBack (s : State) : State :=
  (s.modPwr fun p => { p with pllLock := true, coreOnRc := false, refOk := true, pdUp := s.boot.applied }).modTbs fun t =>
    { t with run := true }

/-- PARK_EXIT_PLL_LOCK: the core clock runs, PD2–PD7 leave reset where they lost power or logic, and the record is
re-applied; `ticks` is the length of the PARK (03 Table 3.5 step 5). (DEDUCED, log 73, DESIGN CHOICE, log 101.) -/
def parkExit (s : State) (ticks : Word) : State :=
  if s.pwr.st ≠ .exiting then s
  else
    let down := !s.pwr.pdUp
    let pd5 := bit s.pwr.kept 2
    let pd6 := bit s.pwr.kept 3
    let s := s.coreBack
    if down then
      let s := if pd6 then s else s.loadTemplates
      let s := (s.modCanopy fun c => { c with parkTicks := ticks }).reapply pd5 pd6
      s.freshSecond.settleMe
    else s.reapply true true

/-- REAPPLY_COMPLETE: FLT's fences stand again, RUN, and WAKE is posted (03 Table 3.5 step 6; 18 R677; 19 R723; 20 R763). -/
def reapplyComplete (s : State) : State :=
  if s.pwr.st ≠ .exiting ∨ !s.pwr.pdUp then s
  else
    let s := s.supSteps.fltRefence.modPwr fun p => { p with st := .run }
    let s := s.settleMe.updParkExit.packTrigger
    s.postAll 3 (s.readers 2) 0x03 true 0 (s.canopy.wakeSrc.setWidth 32) s.canopy.rtcSec 0

/-- CLOCK_RECOVERY: the reference passed for 10 ms and the PLL locked again; the record is re-applied and the device runs
with every grove in Clearing (03 R105, R106). (DEDUCED, log 78.) -/
def clockRecovery (s : State) : State :=
  if s.pwr.st ≠ .clockFault ∨ s.pwr.needRec then s
  else
    let s := (s.coreBack.testRecover.reapply true true).modPins fun p => { p with keeper := [] }
    let s := s.freshSecond.fltRefence.modPwr fun p => { p with st := .run }
    (s.settleMe.fltBack 0).updResume

end State
end Sys2Proof.Machine
end

