-- ==== Sys2Proof/Machine/HostPort.lean ====
section
/-!
DEFINITION. Machine/HostPort.lean: transactions of the host port and of the links' transaction channels, and the write
queue (13 R491–R519; 15 R596–R598).
-/
namespace Sys2Proof

/-- Header fields and the bytes the header carries (13 Table 13.2). -/
def Header.words (h : Header) : Nat := h.len.val + 1
def Header.cmd (h : Header) (op : Nat) : Byte := BitVec.ofNat 8 (128 * b2n h.p + 32 * op + 16 * b2n h.inc + h.len.val)
def Header.bytes (h : Header) (op : Nat) : List Byte := [h.cmd op, BitVec.ofNat 8 h.client.val] ++ leBytes 3 h.addr.toNat
/-- The address of word k. -/
def Header.word (h : Header) (k : Nat) : Nat := if h.inc then h.addr.toNat + 4 * k else h.addr.toNat
def Header.addrs (h : Header) : List Nat := (List.range h.words).map h.word
/-- Even parity over the five bytes (13 R495). -/
def Header.parityOk (h : Header) (op : Nat) : Bool := decide (((h.bytes op).foldl (fun n b => n + Machine.popCount b) 0) % 2 = 0)
/-- A header that fails the format check (13 Table 13.4 BADHDR); a NOP's address is ignored. -/
def Header.bad (h : Header) (op : Nat) : Bool :=
  decide (op = 3) || (decide (op = 0) && decide (h.len ≠ 0)) ||
    (decide (op ≠ 0) && (decide (2 ^ 20 ≤ h.addr.toNat) || decide (h.addr.toNat % 4 ≠ 0)))

end Sys2Proof

namespace Sys2Proof.Machine

/-- Status codes (13 Table 13.4). -/
def cOK : Nat := 0
def cBUSY : Nat := 1
def cNOTREADY : Nat := 2
def cRIGHTS : Nat := 3
def cBINDING : Nat := 4
def cFENCED : Nat := 5
def cRATE : Nat := 6
def cHPAR : Nat := 7
def cHCRC : Nat := 8
def cBADHDR : Nat := 9
def cNOREG : Nat := 10
def cMISSED : Nat := 11
def cMEMERR : Nat := 12

/-- Where a transaction comes from (14 Table 14.2): a chip select, or a link's channel with the slot that carried CMD. -/
inductive Source | hp (cs : Fin 2) | link (l : Fin 4) (slot : Fin 256)
  deriving DecidableEq, Repr

namespace State

/-! ## Header checks (13 Table 13.5) -/

/-- Only GLB reads are answered: until configuration is applied, and in PARK exit (01 R29, 13 R519). (DEDUCED, log 47.) -/
def glbOnly (s : State) : Bool := !s.boot.applied || decide (s.pwr.st = .exiting)

/-- Is a host address in the GLB block? -/
def inGlb (a : Nat) : Bool := decide (a < 0x400)
/-- Blocks that answer during a clock fault (13 R517). (DEDUCED, log 47.) -/
def clockFaultBlock (a : Nat) : Bool := decide (a < 0x1000) || (decide (0xC800 ≤ a) && decide (a < 0xD000))

/-- The device is ready for the transaction (13 Table 13.5 order 3). -/
def ready (s : State) (op : Nat) (as : List Nat) : Bool :=
  if s.glbOnly then decide (op = 1) && as.all inGlb
  else if s.pwr.st = .clockFault then decide (op = 0) || as.all fun a => clockFaultBlock (s.nativeAddr a)
  else true

/-- Does the client's binding match the source (14 R524)? -/
def bound (s : State) (c : Fin 256) (src : Source) : Bool :=
  let r := s.clientAt c
  decide (c ≠ 0) && r.en &&
    match src with
    | .hp cs => decide (r.kind = 1 + cs.val)
    | .link l slot =>
      decide (r.kind = 3) && decide (r.link = l.val) && decide (r.slotLo ≤ slot.val) && decide (slot.val ≤ r.slotHi)

/-- The rate limit finds the bucket empty (14 R532). -/
def outOfTokens (s : State) (c : Fin 256) : Bool :=
  decide (fld (s.clientAt c).rate 7 0 ≠ 0) && decide ((s.clientAt c).tokens = 0)
/-- A READ or WRITE takes one token. -/
def takeToken (s : State) (c : Fin 256) : State :=
  if fld (s.clientAt c).rate 7 0 ≠ 0 then s.modClient c fun r => { r with tokens := r.tokens - 1 } else s

/-- The code of the header checks, in the order of Table 13.5. (DEDUCED, log 47.) -/
def headerCode (s : State) (src : Source) (op : Nat) (h : Header) : Nat :=
  if !h.parityOk op then cHPAR
  else if h.bad op then cBADHDR
  else if !s.ready op h.addrs then cNOTREADY
  else if s.glbOnly then cOK
  else if !s.bound h.client src then cBINDING
  else if (s.clientAt h.client).st = .fenced then cFENCED
  else if op ≠ 0 ∧ s.outOfTokens h.client = true then cRATE
  else cOK

/-! ## Words (13 R496–R498, R508, R509) -/

/-- What the register at p held before a queued write that retired to it in this cycle (13 R513). -/
def heldBefore (s : State) (p : Nat) (w : Word) : Word :=
  match s.cyc.hpWas.reverse.find? (·.1 = p) with
  | some x => x.2
  | none => w

/-- One word of a read in its sample cycle: its code, its value and the state after it. -/
def readWord (s : State) (c : Fin 256) (free missed : Bool) (a : Nat) : Nat × Word × State :=
  let p := s.nativeAddr a
  if !s.isReg p then (cNOREG, 0, s)
  else if !free && !s.permits c p false 0 then (cRIGHTS, 0, s)
  else if isMemAddr p then
    if missed || s.waits p then (cMISSED, 0, s.modHp fun x => { x with cntMissed := satInc x.cntMissed })
    else
      match s.memRead p 2 with
      | (.ok w, s) => (cOK, w, s)
      | (.error _, s) => (cMEMERR, 0, s)
  else if 0x80000 ≤ p ∧ p < 0x88000 then
    match s.storeWord p with
    | some w => (cOK, w, s)
    | none => (cMEMERR, 0, s)
  else
    match s.regRead p with
    | some (w, t) => (cOK, s.heldBefore p w, t)
    | none => (cNOREG, 0, s)

/-- What a run of read words gave: codes and values in order, and whether a queued write targeted one of them (HAZ). -/
structure ReadRun where
  s : State
  codes : List Nat := []
  data : List Word := []
  haz : Bool := false

/-- The words of a read, in order. -/
def hpWords (s : State) (c : Fin 256) (free : Bool) (missed : Nat → Bool) (as : List Nat) : ReadRun :=
  ((List.range as.length).zip as).foldl (fun (r : ReadRun) p =>
    let n := r.s.nativeAddr p.2
    let haz := r.s.hp.queue.any (fun e => decide (r.s.nativeAddr e.addr.toNat = n)) || r.s.cyc.hpWas.any (·.1 = n)
    let x := readWord r.s c free (missed p.1) p.2
    { s := x.2.2, codes := r.codes ++ [x.1], data := r.data ++ [x.2.1], haz := r.haz || haz }) { s := s }

/-- The code a transaction reports: its first failing word's. (DEDUCED, log 47.) -/
def firstCode (codes : List Nat) : Nat := (codes.find? fun c => decide (c ≠ 0)).getD 0

/-- A refusal RIGHTS, NOREG or BADHDR counts one fault against the client (14 R549). -/
def countRefusal (s : State) (c : Fin 256) (codes : List Nat) : State :=
  if codes.any fun k => decide (k = cRIGHTS) || decide (k = cNOREG) || decide (k = cBADHDR) then s.countFault c else s

/-- The code of a word of a write (13 Table 13.5 orders 7 and 8). -/
def writeWordCode (s : State) (c : Fin 256) (a : Nat) (w : Word) : Nat :=
  let p := s.nativeAddr a
  if !s.isReg p then cNOREG else if !s.permits c p true w then cRIGHTS else cOK

/-! ## Status (13 R506, R507, Table 13.3) -/

/-- The queue's level as the port sees it: entries that retired within the last 2 cycles may still count, how many is left
open (13 R501). (DESIGN CHOICE, log 112.) -/
def portLevel (s : State) : Nat × State :=
  match (s.hp.retired.filter fun t => decide (s.time < t + 2)).length with
  | 0 => (s.hp.queue.length, s)
  | n + 1 => (s.hp.queue.length + s.free.1.toNat % (n + 2), s.free.2)

/-- The queue-empty, ABT, WERR and HAZ bits with a code; ABT and WERR clear as they are sent. (DEDUCED, log 48.) -/
def status (s : State) (src : Source) (code : Nat) (haz : Bool) : Byte × State :=
  let lvl := s.portLevel
  let s := lvl.2
  let qe := decide (lvl.1 = 0)
  match src with
  | .hp cs =>
    (BitVec.ofNat 8 (16 * code + 8 * b2n qe + 4 * b2n (bit s.hp.abt cs.val) + 2 * b2n (bit s.hp.werr cs.val) + b2n haz),
     s.modHp fun h => { h with abt := h.abt &&& ~~~(oneBit 2 cs.val), werr := h.werr &&& ~~~(oneBit 2 cs.val) })
  | .link l _ =>
    (BitVec.ofNat 8 (16 * code + 8 * b2n qe + 2 * b2n (s.link l).xwerr + b2n haz), s.modLink l fun x => { x with xwerr := false })

/-- A refused header: parity failures are counted, and a BADHDR counts a fault (13 Table 13.7; 14 R549). -/
def noteHeader (s : State) (c : Fin 256) (code : Nat) : State :=
  let s := if code = cHPAR then (s.hpFlag 1).modHp fun h => { h with cntPar := satInc h.cntPar } else s
  s.countRefusal c [code]

/-- What a transaction does up to its status: code, HAZ, the data the device sends, and the state. -/
structure TxRun where
  s : State
  code : Nat
  haz : Bool := false
  data : List Word := []

/-- NOP. -/
def nopRun (s : State) (src : Source) (op : Nat) (h : Header) : TxRun :=
  let code := s.headerCode src op h
  { s := s.noteHeader h.client code, code := code }

/-- READ of the first `n` words of the transaction. (DEDUCED, log 47.) -/
def readRun (s : State) (src : Source) (h : Header) (n : Nat) (missed : List (Fin 16)) : TxRun :=
  let code := s.headerCode src 1 h
  let s := s.noteHeader h.client code
  if code ≠ cOK then { s := s, code := code, data := List.replicate n 0 }
  else
    let free := s.glbOnly
    let s := if free then s else s.takeToken h.client
    let r := s.hpWords h.client free (fun k => missed.any fun m => decide (m.val = k)) (h.addrs.take n)
    { s := if free then r.s else r.s.countRefusal h.client r.codes, code := firstCode r.codes, haz := r.haz, data := r.data }

/-- Queue the words of an accepted write (13 R499). -/
def enqueue (s : State) (c : Fin 256) (path : Path) (cs : Fin 2) (ws : List (Nat × Word)) : State :=
  s.modHp fun h =>
    { h with queue := h.queue ++ ws.map fun p =>
        { client := c, path := path, cs := cs, addr := BitVec.ofNat 20 p.1, data := p.2, at_ := s.time } }

def Source.path : Source → Path
  | .hp _ => .hp
  | .link l _ => .link l
def Source.cs : Source → Fin 2
  | .hp cs => cs
  | .link _ _ => 0

/-- WRITE up to its decision point (13 R499, R500, R508). -/
def writeRun (s : State) (src : Source) (h : Header) (data : List Word) (hcrc : Byte) : TxRun :=
  let data := padTo 0 h.words data
  let code := s.headerCode src 2 h
  let s := s.noteHeader h.client code
  if code ≠ cOK then { s := s, code := code }
  else
    let s := s.takeToken h.client
    let ws := h.addrs.zip data
    let codes := ws.map fun p => s.writeWordCode h.client p.1 p.2
    let bad := firstCode codes
    if bad ≠ cOK then { s := s.countRefusal h.client [bad], code := bad }
    else if hcrc ≠ crc8 (h.bytes 2 ++ data.flatMap wordBytes) then
      { s := (s.hpFlag 2).modHp fun x => { x with cntCrc := satInc x.cntCrc }, code := cHCRC }
    else
      let lvl := s.portLevel
      let s := lvl.2
      if 16 < lvl.1 + h.words then { s := (s.hpFlag 4).modHp fun x => { x with cntBusy := satInc x.cntBusy }, code := cBUSY }
      else { s := s.enqueue h.client (Source.path src) (Source.cs src) ws, code := cOK }

/-! ## Host-port transactions (13 R491–R519) -/

/-- The port hears this chip select: PD1 up, and the select enabled (13 R519, Table 13.7). (DEDUCED, log 48.) -/
def hears (s : State) (cs : Fin 2) : Bool := s.pwr.vioGood && s.pwr.pd1Up && bit s.hp.csen cs.val

/-- A byte on the line, most significant bit first (13 R494). -/
def lineBits (b : Byte) : List Level := (List.range 8).map fun i => if bit b (7 - i) then .high else .low

/-- HP_MISO over the fields of Table 13.1: 0 in the host's `n` bytes, then the device's, then released as the select rises
(13 R493, R494, R497). -/
def misoLine (n : Nat) (dev : List Byte) : List Level := List.replicate (8 * n) .low ++ dev.flatMap lineBits ++ [.released]

/-- A transaction ends with its status and CRC (13 R506, R510); `host` is the data the host sent. -/
def hpFinish (r : TxRun) (cs : Fin 2) (op : Nat) (h : Header) (host : List Word) : State :=
  let t := r.s.status (.hp cs) r.code r.haz
  let crc := crc8 (h.bytes op ++ (host ++ r.data).flatMap wordBytes ++ [t.1])
  t.2.modHp fun x =>
    { x with
      resp := some { status := t.1, data := r.data, crc := crc }
      miso := misoLine (5 + 4 * host.length + (if op = 2 then 1 else 0)) (r.data.flatMap wordBytes ++ [t.1, crc]) }

def hpNop (s : State) (cs : Fin 2) (h : Header) : State :=
  if s.hears cs then hpFinish (s.nopRun (.hp cs) 0 h) cs 0 h [] else s
def hpRead (s : State) (cs : Fin 2) (h : Header) (missed : List (Fin 16)) : State :=
  if s.hears cs then hpFinish (s.readRun (.hp cs) h h.words missed) cs 1 h [] else s
def hpWrite (s : State) (cs : Fin 2) (h : Header) (data : List Word) (hcrc : Byte) : State :=
  if s.hears cs then hpFinish (s.writeRun (.hp cs) h data hcrc) cs 2 h (padTo 0 h.words data) else s

/-- HP_BADHDR: OP 3 or a bad header field. (DEDUCED, log 48.) -/
def hpBadhdr (s : State) (cs : Fin 2) (op : Fin 4) (h : Header) : State :=
  if s.hears cs && h.bad op.val then
    let r := s.nopRun (.hp cs) op.val h
    hpFinish { r with data := if op = 1 then List.replicate h.words 0 else [] } cs op.val h []
  else s

/-- The effects a cut transaction keeps (13 R511). -/
def partRun (s : State) (cs : Fin 2) : HpPart → State
  | .early => s
  | .nop h => (s.nopRun (.hp cs) 0 h).s
  | .read h n missed => (s.readRun (.hp cs) h (min n.val h.words) missed).s
  | .write h data hcrc => (s.writeRun (.hp cs) h data hcrc).s

/-- HP_MISO of a cut transaction, up to the last field sent whole (13 R493). -/
def partMiso (s : State) (cs : Fin 2) : HpPart → List Level
  | .early => [.released]
  | .nop _ => misoLine 5 []
  | .read h n missed => misoLine 5 ((s.readRun (.hp cs) h (min n.val h.words) missed).data.flatMap wordBytes)
  | .write h _ _ => misoLine (6 + 4 * h.words) []

/-- HP_ABORT (13 R511). (DEDUCED, log 48.) -/
def hpAbort (s : State) (cs : Fin 2) (part : HpPart) : State :=
  if s.hears cs then
    ((s.partRun cs part).hpFlag 8).modHp fun x =>
      { x with abt := x.abt ||| oneBit 2 cs.val, cntAbort := satInc x.cntAbort, resp := none, miso := s.partMiso cs part }
  else s

/-- HP_CS_COLLISION: the running transaction is aborted, and the other is not started (13 R514). (DEDUCED, log 48.) -/
def hpCollision (s : State) (cs : Fin 2) (part : HpPart) : State :=
  if s.hears 0 && s.hears 1 then s.hpAbort cs part else s

/-! ## The write queue (13 R502–R504) -/

/-- An entry at retirement: the state after it, or why it cannot be carried out (13 R504). -/
def carryOut (s : State) (e : HpEntry) : Except Nat State × State :=
  let p := s.nativeAddr e.addr.toNat
  if (s.client e.client).st = .fenced ∧ e.client ≠ 0 then (.error kFENCED, s)
  else if pdAddr p && !s.pwr.pdUp then (.error kRESET, s)
  else if isMemAddr p then
    match s.memWrite p 2 e.data with
    | (none, t) => (.ok t, t)
    | (some .window, t) => (.error kWINDOW, t)
    | (some .memory, t) => (.error kMEMORY, t)
  else
    let old := s.regValue p
    (.ok (((s.clientWrite e.path e.client p e.data).getD s).modCyc fun c => { c with hpWas := (p, old) :: c.hpWas }), s)

/-- HP_QUEUE_RETIRE: the head retires, one entry in a cycle and no earlier than the third after its decision point; a bank
word waits for its port, and for an atomic that holds it (13 R502, R503; 08 R328). -/
def hpRetire (s : State) : State :=
  match s.hp.queue with
  | [] => s
  | e :: q =>
    let a := s.nativeAddr e.addr.toNat
    let port := s.portOf a true
    if s.time < e.at_ + 3 ∨ s.time ∈ s.hp.retired ∨ s.waits a ∨ port.any s.portUsed then s
    else
      let s := (s.usePort port).modHp fun h =>
        { h with queue := q, retired := s.time :: h.retired.filter fun t => decide (s.time < t + 2) }
      match s.carryOut e with
      | (.ok t, _) => t
      | (.error k, t) => t.queueFail e k

/-! ## Transaction channels of the links (15 R596–R598) -/

/-- The channel takes a request that began in this slot: one of its own, handed as received; a fenced or defective link hands
substituted bytes only, which start nothing (15 R576, R596, R597). -/
def xchOn (s : State) (l : Fin 4) (slot : Fin 256) (sub : Bool) : Bool :=
  let h := s.link l
  s.pwr.pdUp && h.en && h.xen && decide (h.xlo ≤ slot.val) && decide (slot.val ≤ h.xhi) && (sub || !h.substituted)

/-- A request with a substituted byte is discarded (15 R597). -/
def xchErr (s : State) (l : Fin 4) : State := s.hlFlag l lXERR

/-- The reply goes to the reply stream (15 R598). -/
def xchReply (r : TxRun) (l : Fin 4) (slot : Fin 256) (op : Nat) (h : Header) (host : List Word) : State :=
  let t := r.s.status (.link l slot) r.code r.haz
  let sent := r.data.flatMap wordBytes
  let crc := crc8 (h.bytes op ++ host.flatMap wordBytes ++ sent ++ [t.1])
  t.2.modLink l fun x => { x with xchOut := x.xchOut ++ [0x5A] ++ sent ++ [t.1, crc] }

/-- NODE_XCH_NOP, with OP 0 or 3. -/
def xchNop (s : State) (l : Fin 4) (slot : Fin 256) (op3 : Bool) (h : Header) (sub : Bool) : State :=
  if !s.xchOn l slot sub then s
  else if sub then s.xchErr l
  else
    let op := if op3 then 3 else 0
    xchReply (s.nopRun (.link l slot) op h) l slot op h []
def xchRead (s : State) (l : Fin 4) (slot : Fin 256) (h : Header) (missed : List (Fin 16)) (sub : Bool) : State :=
  if !s.xchOn l slot sub then s
  else if sub then s.xchErr l
  else xchReply (s.readRun (.link l slot) h h.words missed) l slot 1 h []
def xchWrite (s : State) (l : Fin 4) (slot : Fin 256) (h : Header) (data : List Word) (hcrc : Byte) (sub : Bool) : State :=
  if !s.xchOn l slot sub then s
  else if sub then s.xchErr l
  else xchReply (s.writeRun (.link l slot) h data hcrc) l slot 2 h (padTo 0 h.words data)

end State
end Sys2Proof.Machine
end

