-- ==== Sys2Proof/Machine/ExecHost.lean ====
section
/-!
DEFINITION. Machine/ExecHost.lean: host-port transactions, reads that clear, and register writes (13, 00 R7–R11).
-/
namespace Sys2Proof.Machine
open State

/-- HP_NOP (R509): A host-port NOP transaction reports status, including QE. -/
def execHpNop (cs : Fin 2) (h : Header) (s : State) : Host.Outcome State Fault Refusal :=
  .next (s.whenUp s.pwr.pd1Up fun s => s.hpNop cs h)

/-- HP_READ (R496): A host-port READ samples each word in its sample cycle and returns status and CRC. -/
def execHpRead (cs : Fin 2) (h : Header) (missed : List (Fin 16)) (s : State) : Host.Outcome State Fault Refusal :=
  .next (s.whenUp s.pwr.pd1Up fun s => s.hpRead cs h missed)

/-- HP_WRITE (R499): A host-port WRITE is checked and queued whole at its decision point, or refused. -/
def execHpWrite (cs : Fin 2) (h : Header) (data : List Word) (hcrc : Byte) (s : State) : Host.Outcome State Fault Refusal :=
  .next (s.whenUp s.pwr.pd1Up fun s => s.hpWrite cs h data hcrc)

/-- HP_BADHDR (R508): A transaction with OP 3 or a bad header field is refused with BADHDR. -/
def execHpBadhdr (cs : Fin 2) (op : Fin 4) (h : Header) (s : State) : Host.Outcome State Fault Refusal :=
  .next (s.whenUp s.pwr.pd1Up fun s => s.hpBadhdr cs op h)

/-- HP_ABORT (R511): A chip select rises before the last CRC bit and the transaction is aborted. -/
def execHpAbort (cs : Fin 2) (part : HpPart) (s : State) : Host.Outcome State Fault Refusal :=
  .next (s.whenUp s.pwr.pd1Up fun s => s.hpAbort cs part)

/-- HP_CS_COLLISION (R514): A chip select falls while the other is low, aborting the running transaction. -/
def execHpCsCollision (cs : Fin 2) (part : HpPart) (s : State) : Host.Outcome State Fault Refusal :=
  .next (s.whenUp s.pwr.pd1Up fun s => s.hpCollision cs part)

/-- HP_QUEUE_RETIRE (R502): The head entry of the host write queue retires and its write takes effect or fails. -/
def execHpQueueRetire (s : State) : Host.Outcome State Fault Refusal := .next (s.whenUp s.pwr.pd1Up fun s => s.hpRetire)

/-- PWR_STATE_READ (R8): A read of PWR_STATE returns REFUSE and clears it. -/
def execPwrStateRead (s : State) : Host.Outcome State Fault Refusal :=
  .next (s.whenUp s.pwr.pd1Up fun s => s.answered s.pwrStateRead)

/-- TT_LAT_READ (R8): A read of TT_LAT returns the largest latency and clears it. -/
def execTtLatRead (s : State) : Host.Outcome State Fault Refusal :=
  .next (s.whenUp s.pwr.pd1Up fun s => s.answered s.ttLatRead)

/-- DMA_REM_READ (R8): A read of DMA_REM returns MAXWAIT and clears it. -/
def execDmaRemRead (c : Fin 8) (s : State) : Host.Outcome State Fault Refusal :=
  .next (s.whenUp s.pwr.pd1Up fun s => s.answerReg (0x6014 + 0x20 * c.val))

/-- HP_CNT_READ (R8): A read of HP_CNT0–2 returns the host-port counters and clears them. -/
def execHpCntRead (k : Fin 3) (s : State) : Host.Outcome State Fault Refusal :=
  .next (s.whenUp s.pwr.pd1Up fun s => s.answered (s.hpCntRead k))

/-- HL_CNT_READ (R8): A read of HL_CNT0–3 returns the link counters and clears them. -/
def execHlCntRead (l : Fin 4) (k : Fin 4) (s : State) : Host.Outcome State Fault Refusal :=
  .next (s.whenUp s.pwr.pd1Up fun s => s.answerReg (0x7020 + 0x400 * l.val + 4 * k.val))

/-- SMB_CNT_READ (R8): A read of SMB_CNT returns the SMBus counters and clears them. -/
def execSmbCntRead (k : Fin 2) (s : State) : Host.Outcome State Fault Refusal :=
  .next (s.whenUp s.pwr.pd1Up fun s => s.answerReg (0x681C + 0x100 * k.val))

/-- MSP_CNT_READ (R8): A read of MSP_CNT0–1 returns the serial-port counters and clears them. -/
def execMspCntRead (m : Fin 2) (k : Fin 2) (s : State) : Host.Outcome State Fault Refusal :=
  .next (s.whenUp s.pwr.pd1Up fun s => s.answerReg (0x6C10 + 0x80 * m.val + 4 * k.val))

/-- SVC_CNT_READ (R8): A read of SVC_CNT returns the service counters and clears them. -/
def execSvcCntRead (s : State) : Host.Outcome State Fault Refusal :=
  .next (s.whenUp s.pwr.pd1Up fun s => s.answered s.svcCntRead)

/-- RS_CNT_READ (R8): A read of RS_CNT returns the record-store counters and clears them. -/
def execRsCntRead (s : State) : Host.Outcome State Fault Refusal := .next (s.whenUp s.pwr.pd1Up fun s => s.answerReg 0xC018)

/-- REGISTER_WRITE (R7): A write to a register with no row of its own takes effect under its access codes, rights and
lock. -/
def execRegisterWrite (p : Path) (c : Fin 256) (a : BitVec 20) (w : Word) (s : State) : Host.Outcome State Fault Refusal :=
  .next (s.whenUp s.pwr.pd1Up fun s => s.registerWrite p c a.toNat w)

end Sys2Proof.Machine
end

