-- ==== Sys2Proof/Machine/ExecIrq.lean ====
section
/-!
DEFINITION. Machine/ExecIrq.lean: the commands of the interrupt controller (12).
-/
namespace Sys2Proof.Machine
open State

/-- INTC_PEND (R465): An asserted source line sets its pending bit and may assert a host pin. -/
def execIntcPend (n : Fin 192) (s : State) : Host.Outcome State Fault Refusal := .next (s.intcPend n)

/-- INTC_PSET_WRITE (R466): A write to INTC_PSET sets pending bits by software. -/
def execIntcPsetWrite (k : Fin 6) (w : Word) (s : State) : Host.Outcome State Fault Refusal :=
  .next (s.whenUp s.pwr.pd1Up fun s => s.intcPset k.val w)

/-- INTC_PCLR_WRITE (R465): A write to INTC_PCLR clears pending bits. -/
def execIntcPclrWrite (k : Fin 6) (w : Word) (s : State) : Host.Outcome State Fault Refusal :=
  .next (s.whenUp s.pwr.pd1Up fun s => s.intcPclr k.val w)

/-- INTC_ENABLE_WRITE (R469): A write to an enable array takes effect unless it would enable a source for both S and a
pin. -/
def execIntcEnableWrite (target : Fin 5) (k : Fin 6) (w : Word) (s : State) : Host.Outcome State Fault Refusal :=
  .next (s.whenUp s.pwr.pd1Up fun s => s.intcEnable target k.val w)

/-- INTC_CLAIM (R472): A CLAIM read selects and claims the most urgent qualified source of a pin. -/
def execIntcClaim (pin : Fin 4) (s : State) : Host.Outcome State Fault Refusal :=
  .next (s.whenUp s.pwr.pd1Up fun s => s.answered (s.intcClaim pin))

/-- INTC_COMPLETE (R474): A COMPLETE write clears a source's in-service bit. -/
def execIntcComplete (pin : Fin 4) (n : BitVec 8) (s : State) : Host.Outcome State Fault Refusal :=
  .next (s.whenUp s.pwr.pd1Up fun s => s.intcComplete pin n.toNat)

/-- SUP_ENTRY (R476): A source taken by the supervisor starts the entry sequence to its handler. -/
def execSupEntry (s : State) : Host.Outcome State Fault Refusal := .next (s.whenUp s.pwr.pd1Up fun s => s.supEntry)

/-- SUP_EXIT (R479): A supervisor handler ends and the 4-cycle exit restores the context. -/
def execSupExit (s : State) : Host.Outcome State Fault Refusal := .next (s.whenUp s.pwr.pd1Up fun s => s.supExit)

end Sys2Proof.Machine
end

