-- ==== Sys2Proof/Machine/ExecLinks.lean ====
section
/-!
DEFINITION. Machine/ExecLinks.lean: the commands of the harness links, the management channel and the TSI (15, 16).
-/
namespace Sys2Proof.Machine
open State

/-- LOCAL_FRAME_BOUNDARY (R568): Every 50,000 cycles every link starts a frame and the slip buffers, TSI and defect
intervals advance. -/
def execLocalFrameBoundary (parts : List Nat) (s : State) : Host.Outcome State Fault Refusal :=
  .next (s.whenUp s.pwr.pdUp fun s => (s.frameBoundary parts).supCopy)

/-- HL_FRAME_RECEIVED (R573): A received frame is aligned, BIP-checked and its overhead interpreted. -/
def execHlFrameReceived (l : Fin 4) (comma : Bool) (k1 : Bool) (o1 : Option Byte) (bytes : List (Option Byte)) (s : State) : Host.Outcome State Fault Refusal :=
  .next (s.whenUp s.pwr.pdUp fun s => campLink s (s.hlFrame l comma k1 o1 bytes))

/-- MDC_FRAME_RECEIVED (R591): A management frame is validated, acknowledged and delivered as response or message. -/
def execMdcFrameReceived (l : Fin 4) (octets : List Byte) (bad : Bool) (s : State) : Host.Outcome State Fault Refusal :=
  .next (s.whenUp s.pwr.pdUp fun s => campLink s (s.mdcReceive l octets bad))

/-- MDC_TX_START (R594): The management egress starts the first transmission of the next message. -/
def execMdcTxStart (l : Fin 4) (s : State) : Host.Outcome State Fault Refusal :=
  .next (s.whenUp s.pwr.pdUp fun s => s.mdcTxStart l)

/-- MDC_RETRY (R593): At B_k with no acknowledgement, the sender retransmits the message. -/
def execMdcRetry (l : Fin 4) (s : State) : Host.Outcome State Fault Refusal :=
  .next (s.whenUp s.pwr.pdUp fun s => s.mdcRetry l)

/-- MDC_GIVEUP (R593): At B4 with no acknowledgement, the sender gives up and the message closes. -/
def execMdcGiveup (l : Fin 4) (s : State) : Host.Outcome State Fault Refusal :=
  .next (s.whenUp s.pwr.pdUp fun s => s.mdcGiveup l)

/-- NODE_XCH_NOP (R597): A NOP request on a node transaction channel is executed and replied. -/
def execNodeXchNop (l : Fin 4) (slot : Fin 256) (op3 : Bool) (h : Header) (sub : Bool) (s : State) : Host.Outcome State Fault Refusal :=
  .next (s.whenUp s.pwr.pdUp fun s => s.xchNop l slot op3 h sub)

/-- NODE_XCH_READ (R597): A READ request on a node transaction channel is executed and replied. -/
def execNodeXchRead (l : Fin 4) (slot : Fin 256) (h : Header) (missed : List (Fin 16)) (sub : Bool) (s : State) : Host.Outcome State Fault Refusal :=
  .next (s.whenUp s.pwr.pdUp fun s => s.xchRead l slot h missed sub)

/-- NODE_XCH_WRITE (R597): A WRITE request on a node transaction channel is checked, queued and replied. -/
def execNodeXchWrite (l : Fin 4) (slot : Fin 256) (h : Header) (data : List Word) (hcrc : Byte) (sub : Bool) (s : State) : Host.Outcome State Fault Refusal :=
  .next (s.whenUp s.pwr.pdUp fun s => s.xchWrite l slot h data hcrc sub)

/-- HL_ENABLE (R610): HL_CFG.EN from 0 to 1 starts transmission with defects declared. -/
def execHlEnable (l : Fin 4) (s : State) : Host.Outcome State Fault Refusal :=
  .next (s.whenUp s.pwr.pdUp fun s => settleMsp s (s.hlEnable l))

/-- HL_CMD_RESYNC (R573): HL_CMD.RESYNC returns the frame state to HUNT. -/
def execHlCmdResync (l : Fin 4) (s : State) : Host.Outcome State Fault Refusal :=
  .next (s.whenUp s.pwr.pdUp fun s => s.hlResync l)

/-- TSI_CMD_COPY (R623): TSI_CMD.COPY starts copying the active page to the standby page. -/
def execTsiCmdCopy (c : Fin 256) (s : State) : Host.Outcome State Fault Refusal :=
  .next (s.whenUp s.pwr.pdUp fun s => s.tsiCopy c)

/-- TSI_COPY_DONE (R623): The page copy ends after 1,280 cycles and COPYDONE is set. -/
def execTsiCopyDone (s : State) : Host.Outcome State Fault Refusal := .next (s.whenUp s.pwr.pdUp fun s => s.copyDone)

/-- TSI_SWAP_REQ (R624): TSI_SWAP.REQ requests a page swap with an ADMIT mask. -/
def execTsiSwapReq (c : Fin 256) (admMask : BitVec 4) (s : State) : Host.Outcome State Fault Refusal :=
  .next (s.whenUp s.pwr.pdUp fun s => s.tsiSwapReq c admMask)

/-- TSI_SWAP_CANCEL (R627): TSI_SWAP.CANCEL ends a pending swap request. -/
def execTsiSwapCancel (c : Fin 256) (s : State) : Host.Outcome State Fault Refusal :=
  .next (s.whenUp s.pwr.pdUp fun s => s.tsiCancel c)

/-- TSI_ENTRY_WRITE (R622): A connection-entry write takes effect or is refused. -/
def execTsiEntryWrite (c : Fin 256) (k : Fin 2560) (w : Word) (s : State) : Host.Outcome State Fault Refusal :=
  .next (s.whenUp s.pwr.pdUp fun s => s.writeEntry c k.val w)

/-- HL_COMMA_DETECT (R572): In frame state HUNT the receiver detects a comma, or the complement of K28.5, takes its
character boundary from it, enters PRESYNC on K28.5 and sets RXINV on the complement. -/
def execHlCommaDetect (l : Fin 4) (k285 : Bool) (complement : Bool) (s : State) : Host.Outcome State Fault Refusal :=
  .next (s.whenUp s.pwr.pdUp fun s => s.hlComma l k285 complement)

/-- HL_RAW_LOS_CHANGE (R574): The receive amplitude falls below the LOS threshold, or no transition is seen for 32 bit
periods, and STABLE clears in that cycle; the return of signal ends the raw condition. -/
def execHlRawLosChange (l : Fin 4) (los : Bool) (s : State) : Host.Outcome State Fault Refusal :=
  .next (s.whenUp s.pwr.pdUp fun s => s.hlLos l los)

end Sys2Proof.Machine
end

