-- ==== Sys2Proof/Machine/ExecMemory.lean ====
section
/-!
DEFINITION. Machine/ExecMemory.lean: the commands of the banks, circular windows and DMA (11).
-/
namespace Sys2Proof.Machine
open State

/-- BANK_ACCESS_GRANT (R429): A bank port grants the highest-ranked request and the access completes. -/
def execBankAccessGrant (q : BankReq) (flips : Nat) (s : State) : Host.Outcome State Fault Refusal :=
  if s.pwr.pllLock then s.bankGrant q flips else .next s

/-- DMA_STARVE (R432): A DMA channel waits 4,096 cycles without a grant and sets STARVE. -/
def execDmaStarve (c : Fin 8) (s : State) : Host.Outcome State Fault Refusal :=
  .next (s.whenUp s.pwr.pllLock fun s => s.dmaStarve c)

/-- CW_BASE_WRITE (R434): A CW_BASE write enables or disables a circular window, refusing invalid settings. -/
def execCwBaseWrite (n : Fin 16) (w : Word) (s : State) : Host.Outcome State Fault Refusal :=
  .next (s.whenUp s.pwr.pllLock fun s => s.writeCwBase n w)

/-- CW_SIZE_WRITE (R435): A CW_SIZE write is refused while the window is enabled. -/
def execCwSizeWrite (n : Fin 16) (w : Word) (s : State) : Host.Outcome State Fault Refusal :=
  .next (s.whenUp s.pwr.pllLock fun s => s.writeCwSize n w)

/-- BG_TEST_REGION_START (R437): At a bank's 1 ms start time the background tester starts the next region. -/
def execBgTestRegionStart (b : Fin 8) (s : State) : Host.Outcome State Fault Refusal :=
  .next (s.whenUp s.pwr.pllLock fun s => s.bgStart b)

/-- MEM_TCTL_WRITE (R437): A MEM_TCTL write starts or stops background testing of banks. -/
def execMemTctlWrite (w : Word) (s : State) : Host.Outcome State Fault Refusal :=
  .next (s.whenUp s.pwr.pllLock fun s => s.writeTctl w)

/-- MEM_CMD_READMIT (R443): MEM_CMD.READMIT starts the re-admission march of a fenced bank. -/
def execMemCmdReadmit (b : Fin 8) (s : State) : Host.Outcome State Fault Refusal :=
  .next (s.whenUp s.pwr.pllLock fun s => s.readmit b)

/-- BANK_READMIT_DONE (R443): The re-admission march and zero-fill end and the bank returns to ON, or stays fenced on
failure. -/
def execBankReadmitDone (b : Fin 8) (pass : Bool) (word : Fin 4096) (s : State) : Host.Outcome State Fault Refusal :=
  .next (s.whenUp s.pwr.pllLock fun s => s.readmitDone b pass word)

/-- DMA_ENABLE (R444): DMA_CTL.EN from 0 to 1 records OWNER and loads the first descriptor. -/
def execDmaEnable (c : Fin 8) (client : Fin 256) (s : State) : Host.Outcome State Fault Refusal :=
  .next (s.whenUp s.pwr.pllLock fun s => s.dmaEnable c client)

/-- DMA_DISABLE (R450): DMA_CTL.EN written to 0 stops the channel after its current beat. -/
def execDmaDisable (c : Fin 8) (s : State) : Host.Outcome State Fault Refusal :=
  .next (s.whenUp s.pwr.pllLock fun s => s.dmaDisable c)

/-- DMA_REQ_PULSE (R448): A pulse request arrives for a DMA channel and starts or is held for a burst. -/
def execDmaReqPulse (c : Fin 8) (s : State) : Host.Outcome State Fault Refusal :=
  .next (s.whenUp s.pwr.pllLock fun s => s.dmaPulse c)

/-- DMA_BEAT (R447): A DMA beat reads one unit and writes it to the destination. -/
def execDmaBeat (c : Fin 8) (s : State) : Host.Outcome State Fault Refusal :=
  .next (s.whenUp s.pwr.pllLock fun s => s.dmaBeat c)

end Sys2Proof.Machine
end

