-- ==== Sys2Proof/Machine/ExecPerf.lean ====
section
/-!
DEFINITION. Machine/ExecPerf.lean: the commands of the performance bins and the record store (17).
-/
namespace Sys2Proof.Machine
open State

/-- PM_SECOND (R636): A PM second ends and each link's verdicts and DEG judgement are formed. -/
def execPmSecond (s : State) : Host.Outcome State Fault Refusal := .next (s.whenUp s.pwr.pllLock fun s => s.pmSecond)

/-- PM_BIN_PLACE (R638): Ten seconds after a second ends, its verdicts are placed in the bins. -/
def execPmBinPlace (s : State) : Host.Outcome State Fault Refusal := .next (s.whenUp s.pwr.pllLock fun s => s.pmBinPlace)

/-- RUN_TIME_MS (R640): At each millisecond of TB with the motor running, 1 ms of run time is added. -/
def execRunTimeMs (s : State) : Host.Outcome State Fault Refusal := .next (s.whenUp s.pwr.pllLock fun s => s.runTimeMs)

/-- PM_SEL_WRITE (R648): A PM_SEL write selects a history bin to copy into PM_WIN. -/
def execPmSelWrite (w : Word) (s : State) : Host.Outcome State Fault Refusal :=
  .next (s.whenUp s.pwr.pllLock fun s => s.writePmSel w)

/-- PM_WIN_READY (R648): The supervisor completes the copy of the selected bin and sets RDY. -/
def execPmWinReady (s : State) : Host.Outcome State Fault Refusal := .next (s.whenUp s.pwr.pllLock fun s => s.pmWinReady)

/-- RS_RECORD_WRITE (R652): The record-store controller writes a queued record, committing it last. -/
def execRsRecordWrite (pages : Nat) (retries : Nat) (fails : Nat) (badErase : Bool) (s : State) : Host.Outcome State Fault Refusal :=
  .next (s.whenUp s.pwr.pd1Up fun s => s.rsRecordWrite pages retries fails badErase)

/-- RS_SCAN (R668): After reset release the controller scans the store and sets READY. -/
def execRsScan (bad : List Nat) (s : State) : Host.Outcome State Fault Refusal :=
  .next (s.whenUp s.pwr.pd1Up fun s => s.rsScan bad)

end Sys2Proof.Machine
end

