-- ==== Sys2Proof/Machine/ExecPinSeq.lean ====
section
/-!
DEFINITION. Machine/ExecPinSeq.lean: the commands of the pin sequencers (09).
-/
namespace Sys2Proof.Machine
open State

/-- PS_TICK (R354): A pin-sequencer tick occurs and the engine executes or waits on its current instruction. -/
def execPsTick (e : Fin 8) (flips : List (Fin 48 × Fin 32)) (s : State) : Host.Outcome State Fault Refusal :=
  .next (s.whenUp s.pwr.pdUp fun s => s.psTickWith e flips)

/-- PS_ENABLE (R358): PS_CTL.EN from 0 to 1 claims the engine's pins and starts it, or is refused. -/
def execPsEnable (e : Fin 8) (s : State) : Host.Outcome State Fault Refusal :=
  .next (s.whenUp s.pwr.pdUp fun s => s.psEnable e)

/-- PS_DISABLE (R364): PS_CTL.EN written to 0 stops the engine and hands its pins back. -/
def execPsDisable (e : Fin 8) (s : State) : Host.Outcome State Fault Refusal :=
  .next (s.whenUp s.pwr.pdUp fun s => s.psDisable e)

/-- PS_CMD_HALT (R376): PS_CMD.HALT stops the engine at its next tick. -/
def execPsCmdHalt (e : Fin 8) (s : State) : Host.Outcome State Fault Refusal :=
  .next (s.whenUp s.pwr.pdUp fun s => s.psCmdHalt e)

/-- PS_CMD_GO (R377): PS_CMD.GO restarts a halted engine from START. -/
def execPsCmdGo (e : Fin 8) (s : State) : Host.Outcome State Fault Refusal :=
  .next (s.whenUp s.pwr.pdUp fun s => s.psCmdGo e)

/-- PS_CMD_TXFLUSH (R384): PS_CMD.TXFLUSH empties the transmit FIFO. -/
def execPsCmdTxflush (e : Fin 8) (s : State) : Host.Outcome State Fault Refusal :=
  .next (s.whenUp s.pwr.pdUp fun s => s.psTxFlush e)

/-- PS_CMD_RXFLUSH (R384): PS_CMD.RXFLUSH empties the receive FIFO. -/
def execPsCmdRxflush (e : Fin 8) (s : State) : Host.Outcome State Fault Refusal :=
  .next (s.whenUp s.pwr.pdUp fun s => s.psRxFlush e)

/-- PS_TX_WRITE (R372): A PS_TX write appends a word, or sets TXREF when full. -/
def execPsTxWrite (p : Path) (e : Fin 8) (w : Word) (s : State) : Host.Outcome State Fault Refusal :=
  .next (s.whenUp s.pwr.pdUp fun s => s.psTxWrite e (txRank p) w)

/-- PS_RX_READ (R372): A PS_RX read pops a word, or sets RXEMPTY when empty. -/
def execPsRxRead (e : Fin 8) (s : State) : Host.Outcome State Fault Refusal :=
  .next (s.whenUp s.pwr.pd1Up fun s => if s.pwr.pdUp then s.answered (s.psRxRead e) else s.answered (0, s))

end Sys2Proof.Machine
end

