-- ==== Sys2Proof/Machine/ExecPower.lean ====
section
/-!
DEFINITION. Machine/ExecPower.lean: the commands of supplies, resets, start, power states, the Canopy and the clocks (02, 03).
-/
namespace Sys2Proof.Machine
open State

/-- VIO_FALL (R75): VIO drops below VIO-good: PD1–PD7 reset within 1 µs and every channel pin enters Clearing, with no
retention save. -/
def execVioFall (s : State) : Host.Outcome State Fault Refusal := .next s.vioFall

/-- VIO_RISE (R96): VIO returns through VIO-good: PD1–PD7 are released from reset with cause VIO_POR and any saved
retention is discarded. -/
def execVioRise (s : State) : Host.Outcome State Fault Refusal := .next s.vioRise

/-- VDDA_FALL (R76): VDDA drops below its good threshold while VIO is good, and a supply fault is reported to FLT. -/
def execVddaFall (s : State) : Host.Outcome State Fault Refusal := .next s.vddaFall

/-- CANOPY_POR (R97): The Canopy supply falls below its reset threshold: Canopy state and RTC_STAT.VALID are cleared. -/
def execCanopyPor (s : State) : Host.Outcome State Fault Refusal := .next s.canopyPor

/-- PIN_RESET (R804): RST_N is held low for at least 1 µs and PD1–PD7 are reset with cause PIN. -/
def execPinReset (also : Fin 9) (s : State) : Host.Outcome State Fault Refusal := .next (s.pinReset also.val)

/-- START_SEQUENCE (R37): At each release of PD1 from reset, the resident loader runs the start sequence from the
attached flash. -/
def execStartSequence (tApply : Word) (tLock : Word) (stuck : Bool) (s : State) : Host.Outcome State Fault Refusal :=
  .next (s.startSequence tApply tLock stuck)

/-- PLL_LOCKED (R840): The PLL locks: the core runs at 200 MHz and TB starts counting. -/
def execPllLocked (s : State) : Host.Outcome State Fault Refusal := .next s.pllLocked

/-- PLL_LOCK_TIMEOUT (R41): The PLL is not locked 10 ms after reset release, and the loader stops in CLOCK_HOLD with
LOADER_ERR 0x20. -/
def execPllLockTimeout (s : State) : Host.Outcome State Fault Refusal := .next s.pllTimeout

/-- CLKHOLD_RETRY (R110): One second after the loader stops in CLOCK_HOLD, the device resets itself with cause CLKHOLD. -/
def execClkholdRetry (s : State) : Host.Outcome State Fault Refusal := .next s.clkholdRetry

/-- GLB_LOCK_WRITE (R61): A client with GLB-class write rights writes GLB_LOCK.LOCK to end deferred lock. -/
def execGlbLockWrite (client : Fin 256) (lock : Bool) (s : State) : Host.Outcome State Fault Refusal :=
  .next (if lock && s.permits client 0x24 true 1 then s.lockConfig else s)

/-- LOCK_DEADLINE_EXPIRY (R61): LOCK_DEADLINE elapses after configuration applied and the configuration locks. -/
def execLockDeadlineExpiry (s : State) : Host.Outcome State Fault Refusal := .next s.lockDeadline

/-- PWR_CMD_PARK (R78): A keyed PWR_CMD PARK is checked and, when accepted, stops dispatch, forces Clearing and
bulk-cancels the calendar. -/
def execPwrCmdPark (key : BitVec 16) (s : State) : Host.Outcome State Fault Refusal := .next (s.pwrPark key.toNat false)

/-- PWR_CMD_OFF (R78): A keyed PWR_CMD OFF is checked and, when accepted, begins the entry of Table 3.4 towards OFF. -/
def execPwrCmdOff (key : BitVec 16) (s : State) : Host.Outcome State Fault Refusal := .next (s.pwrPark key.toNat true)

/-- PWR_CMD_RESET (R78): A client writes PWR_CMD RESET and PD1–PD7 are reset with cause CMD. -/
def execPwrCmdReset (key : BitVec 16) (also : Fin 9) (s : State) : Host.Outcome State Fault Refusal :=
  .next (s.pwrReset key.toNat also.val)

/-- PWR_CMD_CLKREC (R106): A client writes PWR_CMD CLKREC to allow recovery after a third clock fault within 1 s. -/
def execPwrCmdClkrec (key : BitVec 16) (s : State) : Host.Outcome State Fault Refusal := .next (s.pwrClkrec key.toNat)

/-- PARK_ENTRY_COMPLETE (R79): After any record-store write in progress and the current harness frames end, the INTC
save runs and the domains enter RET or power off. -/
def execParkEntryComplete (s : State) : Host.Outcome State Fault Refusal := .next s.parkComplete

/-- WAKE_LATCH (R88): A wake condition is latched in PWR_WAKE_SRC and, when enabled in PARK or OFF, starts the exit. -/
def execWakeLatch (src : BitVec 10) (s : State) : Host.Outcome State Fault Refusal := .next (s.wakeLatch src)

/-- PARK_EXIT_PLL_LOCK (R81): On PARK exit the PLL locks, PD2–PD7 leave reset and the supervisor re-applies the retained
configuration record. -/
def execParkExitPllLock (ticks : Word) (s : State) : Host.Outcome State Fault Refusal := .next (s.parkExit ticks)

/-- REAPPLY_COMPLETE (R85): The re-apply completes, PWR_STATE reads RUN and WAKE events are posted. -/
def execReapplyComplete (s : State) : Host.Outcome State Fault Refusal := .next s.reapplyComplete

/-- WAKE_FROM_OFF (R87): A wake from OFF powers PD1–PD7, restores the INTC retention and runs the start sequence. -/
def execWakeFromOff (s : State) : Host.Outcome State Fault Refusal := .next s.wakeFromOff

/-- PARK_WATCH_EDGE (R90): A Canopy twin edge is counted and WATCH is latched when the count reaches EDGES within the
window. -/
def execParkWatchEdge (k : Fin 4) (v : Nat) (s : State) : Host.Outcome State Fault Refusal := .next (s.watchEdge k v)

/-- PARK_WATCH_WINDOW (R90): The park-watch window of WIN seconds expires and the edge count restarts. -/
def execParkWatchWindow (s : State) : Host.Outcome State Fault Refusal := .next s.watchWindow

/-- RTC_SECOND_TICK (R108): The real-time clock advances RTC_SEC by one second. -/
def execRtcSecondTick (s : State) : Host.Outcome State Fault Refusal := .next s.rtcTick

/-- RTC_SEC_WRITE (R108): A write to RTC_SEC sets the seconds, clears RTC_SUB and sets RTC_STAT.VALID. -/
def execRtcSecWrite (w : Word) (s : State) : Host.Outcome State Fault Refusal := .next (s.rtcSecWrite w)

/-- TAMPER_EVENT (R109): A tamper input held at its active level for 32 ticks latches a tamper event with TAMP_TIME. -/
def execTamperEvent (n : Fin 2) (s : State) : Host.Outcome State Fault Refusal := .next (s.tamperEvent n)

/-- CLOCK_FAULT (R102): The clock monitor declares a clock fault, forces Clearing, holds PD2–PD7 in reset and stops TB. -/
def execClockFault (sub : Fin 32768) (s : State) : Host.Outcome State Fault Refusal := .next (s.clockFault sub)

/-- CLOCK_RECOVERY (R105): After the reference has passed the monitor for 10 ms, the PLL restarts and configuration is
re-applied. -/
def execClockRecovery (s : State) : Host.Outcome State Fault Refusal := .next s.clockRecovery

/-- LSE_FAIL (R107): The 32.768 kHz crystal stops and the Canopy switches to the LPO, setting LSE_FAIL. -/
def execLseFail (s : State) : Host.Outcome State Fault Refusal := .next s.lseFail

/-- LSE_RECOVER (R107): After the crystal has run for 1 s without fault, the Canopy switches back to it. -/
def execLseRecover (s : State) : Host.Outcome State Fault Refusal := .next s.lseRecover

end Sys2Proof.Machine
end

