-- ==== Sys2Proof/Machine/ExecSeating.lean ====
section
/-!
DEFINITION. Machine/ExecSeating.lean: the commands of the Seating Chart, events and message buffers (14).
-/
namespace Sys2Proof.Machine
open State

/-- SC_RECORD_WRITE (R523): A write to a Seating Chart record word takes effect or is refused by the rules of R523. -/
def execScRecordWrite (sup : Bool) (c : Fin 256) (n : Fin 256) (k : Fin 8) (w : Word) (s : State) : Host.Outcome State Fault Refusal :=
  .next (s.whenUp s.pwr.pd1Up fun s => s.recordWrite sup c n k.val w)

/-- SC_EN_SET (R553): Writing SC_BIND.EN from 0 to 1 brings a client into existence afresh. -/
def execScEnSet (sup : Bool) (c : Fin 256) (n : Fin 256) (w : Word) (s : State) : Host.Outcome State Fault Refusal :=
  .next (s.whenUp s.pwr.pd1Up fun s => s.recordWrite sup c n 0 (w ||| 0x80000000))

/-- SC_EN_CLEAR (R552): Writing SC_BIND.EN from 1 to 0 disables the client with the effects of a fence. -/
def execScEnClear (sup : Bool) (c : Fin 256) (n : Fin 256) (w : Word) (s : State) : Host.Outcome State Fault Refusal :=
  .next (s.whenUp s.pwr.pd1Up fun s => s.recordWrite sup c n 0 (w &&& 0x7FFFFFFF))

/-- SC_CMD_FENCE (R551): SC_CMD FENCE fences the named client. -/
def execScCmdFence (n : Fin 256) (s : State) : Host.Outcome State Fault Refusal :=
  .next (s.whenUp s.pwr.pd1Up fun s => s.scCmd (packw [(1, 28), (n.val, 0)]))

/-- SC_CMD_RESTORE (R553): SC_CMD RESTORE brings a fenced client back with a fresh queue and freed buffers. -/
def execScCmdRestore (n : Fin 256) (s : State) : Host.Outcome State Fault Refusal :=
  .next (s.whenUp s.pwr.pd1Up fun s => s.scCmd (packw [(2, 28), (n.val, 0)]))

/-- SC_CMD_CLRCNT (R549): SC_CMD CLRCNT clears the named client's SC_CNT. -/
def execScCmdClrcnt (n : Fin 256) (s : State) : Host.Outcome State Fault Refusal :=
  .next (s.whenUp s.pwr.pd1Up fun s => s.scCmd (packw [(3, 28), (n.val, 0)]))

/-- RATE_TOKEN (R532): A client's rate bucket gains one token every PERIOD × 10 µs. -/
def execRateToken (c : Fin 256) (s : State) : Host.Outcome State Fault Refusal :=
  .next (s.whenUp s.pwr.pd1Up fun s => s.rateToken c)

/-- EVENT_ADMIT (R533): The event pool admits a posted event into the client's queue, discarding under credit rules. -/
def execEventAdmit (s : State) : Host.Outcome State Fault Refusal := .next (s.whenUp s.pwr.pd1Up fun s => s.eventAdmit)

/-- EV_POP (R538): A read of EV_POP returns the next word of the head event and advances the cursor. -/
def execEvPop (c : Fin 256) (s : State) : Host.Outcome State Fault Refusal :=
  .next (s.whenUp s.pwr.pd1Up fun s => s.answered (s.evPop c))

/-- BUF_ALLOC (R540): A read of BUF_ALLOC allocates the lowest free message buffer to the reader. -/
def execBufAlloc (c : Fin 256) (s : State) : Host.Outcome State Fault Refusal :=
  .next (s.whenUp s.pwr.pd1Up fun s => s.answered (s.bufAlloc c))

/-- BUF_CMD_FREE (R541): BUF_CMD FREE returns a checked buffer to FREE. -/
def execBufCmdFree (c : Fin 256) (handle : BitVec 16) (s : State) : Host.Outcome State Fault Refusal :=
  .next (s.whenUp s.pwr.pd1Up fun s => s.bufCmd c (packw [(1, 28), (handle.toNat, 0)]))

/-- BUF_CMD_SEND (R543): BUF_CMD SEND queues a buffer one-way on a link's management egress. -/
def execBufCmdSend (c : Fin 256) (l : Fin 4) (handle : BitVec 16) (s : State) : Host.Outcome State Fault Refusal :=
  .next (s.whenUp s.pwr.pd1Up fun s => s.bufCmd c (packw [(2, 28), (l.val, 24), (handle.toNat, 0)]))

/-- BUF_CMD_REQUEST (R544): BUF_CMD REQUEST queues a buffer and opens a request with its timeout. -/
def execBufCmdRequest (c : Fin 256) (l : Fin 4) (handle : BitVec 16) (s : State) : Host.Outcome State Fault Refusal :=
  .next (s.whenUp s.pwr.pd1Up fun s => s.bufCmd c (packw [(3, 28), (l.val, 24), (handle.toNat, 0)]))

/-- REQUEST_TIMEOUT (R546): A request's timeout expires, its retries are cancelled and FAILED TIMEOUT is posted. -/
def execRequestTimeout (c : Fin 256) (l : Fin 4) (msgid : BitVec 12) (s : State) : Host.Outcome State Fault Refusal :=
  .next (s.whenUp s.pwr.pd1Up fun s => s.requestTimeout c l msgid)

end Sys2Proof.Machine
end

