-- ==== Sys2Proof/Machine/ExecSerial.lean ====
section
/-!
DEFINITION. Machine/ExecSerial.lean: the commands of SMBus, the pack service and the management serial ports (18).
-/
namespace Sys2Proof.Machine
open State

/-- SMB_XFER_WRITE (R674): A write to SMB_XFER starts a client SMBus transaction, or is refused. -/
def execSmbXferWrite (k : Fin 2) (c : Fin 256) (w : Word) (s : State) : Host.Outcome State Fault Refusal :=
  .next (s.whenUp s.pwr.pd1Up fun s => s.smbXfer k c w)

/-- SMB_TRANSFER_END (R675): An SMBus transaction ends and its result is written. -/
def execSmbTransferEnd (k : Fin 2) (code : Fin 16) (data : List Byte) (s : State) : Host.Outcome State Fault Refusal :=
  .next (s.whenUp s.pwr.pd1Up fun s => s.smbEnd k code.val data)

/-- SMB_CLOCK_LOW_TIMEOUT (R672): SCL stays low for 30 ms and the transfer ends with TIMEOUT. -/
def execSmbClockLowTimeout (k : Fin 2) (s : State) : Host.Outcome State Fault Refusal :=
  .next (s.whenUp s.pwr.pd1Up fun s => s.smbTimeout k)

/-- SMB_CMD_ABORT (R691): SMB_CMD.ABORT releases the lines, ends the transfer and runs the bus check. -/
def execSmbCmdAbort (k : Fin 2) (s : State) : Host.Outcome State Fault Refusal :=
  .next (s.whenUp s.pwr.pd1Up fun s => s.smbAbort k)

/-- SMB_CMD_CLRSTUCK (R684): SMB_CMD.CLRSTUCK runs one bus check on a stuck controller. -/
def execSmbCmdClrstuck (k : Fin 2) (s : State) : Host.Outcome State Fault Refusal :=
  .next (s.whenUp s.pwr.pd1Up fun s => s.smbClrStuck k)

/-- SMB_ENABLE (R683): SMB_CFG.EN enables a controller and starts its bus check. -/
def execSmbEnable (k : Fin 2) (s : State) : Host.Outcome State Fault Refusal :=
  .next (s.whenUp s.pwr.pd1Up fun s => s.smbEnable k)

/-- SMB_BUS_CHECK (R683): Five microseconds after releasing the lines, SDA is sampled and the controller goes IDLE or
clears. -/
def execSmbBusCheck (k : Fin 2) (sda : Bool) (s : State) : Host.Outcome State Fault Refusal :=
  .next (s.whenUp s.pwr.pd1Up fun s => s.smbBusCheck k sda)

/-- SMB_BUS_CLEAR (R683): The bus-clear pulses end with a STOP, or with STUCK and a fence. -/
def execSmbBusClear (k : Fin 2) (freed : Bool) (s : State) : Host.Outcome State Fault Refusal :=
  .next (s.whenUp s.pwr.pd1Up fun s => s.smbBusClear k freed)

/-- SMB_STUCK_RETRY (R684): Every 1 s a stuck controller repeats its bus check. -/
def execSmbStuckRetry (k : Fin 2) (s : State) : Host.Outcome State Fault Refusal :=
  .next (s.whenUp s.pwr.pd1Up fun s => s.smbRetry k)

/-- PACK_SWAP_READ (R677): A swap-read trigger starts the pack service's read of the pack on SMB0. -/
def execPackSwapRead (s : State) : Host.Outcome State Fault Refusal := .next (s.whenUp s.pwr.pd1Up fun s => s.packTrigger)

/-- SMB_PCMD_REREAD (R677): SMB_PCMD.REREAD triggers a swap read. -/
def execSmbPcmdReread (s : State) : Host.Outcome State Fault Refusal := .next (s.whenUp s.pwr.pd1Up fun s => s.packTrigger)

/-- PACK_RETRY (R678): Twenty milliseconds after a failed pack transaction, the service repeats it. -/
def execPackRetry (s : State) : Host.Outcome State Fault Refusal := .next (s.whenUp s.pwr.pd1Up fun s => s.packRetry)

/-- PACK_AUTH_WAIT (R679): AUTHWAIT elapses after the challenge and the signature read begins. -/
def execPackAuthWait (s : State) : Host.Outcome State Fault Refusal := .next (s.whenUp s.pwr.pd1Up fun s => s.packAuthWait)

/-- PACK_POLL (R682): Every POLL seconds the pack service runs its poll commands. -/
def execPackPoll (s : State) : Host.Outcome State Fault Refusal := .next (s.whenUp s.pwr.pd1Up fun s => s.packPoll)

/-- MSP_RX_FRAME (R687): An MSP releases a received frame to its bound link on its closing flag, or discards it. -/
def execMspRxFrame (m : Fin 2) (s : State) : Host.Outcome State Fault Refusal :=
  .next (s.whenUp s.pwr.pllLock fun s => s.mspRxFrame m)

/-- MSP_RX_BYTE (R688): A character arrives on MSPm_RX and enters the receive FIFO, moving RTS_N at 192 and 64 bytes,
forwarding a flag outside a frame at once, or discarding the frame on a framing error or a full FIFO. -/
def execMspRxByte (m : Fin 2) (b : Byte) (ferr : Bool) (s : State) : Host.Outcome State Fault Refusal :=
  .next (s.whenUp s.pwr.pllLock fun s => s.mspRxByte m b ferr)

/-- MSP_TX_BYTE (R689): An MSP finishes sending a character, or CTS_N allows it, and starts the next byte from its
transmit FIFO, setting TXFRAME when a frame has gone out. -/
def execMspTxByte (m : Fin 2) (cts : Bool) (s : State) : Host.Outcome State Fault Refusal :=
  .next (s.whenUp s.pwr.pllLock fun s => s.mspTxByte m cts)

end Sys2Proof.Machine
end

