-- ==== Sys2Proof/Machine/Service.lean ====
section
/-!
DEFINITION. Machine/Service.lean: the service port: frames, Hall Passes and sessions (20 R725–R733, R764).
-/
namespace Sys2Proof.Machine

/-- SVC_FLAG bits (20 Table 20.17). -/
def wCRC : BitVec 4 := 1
def wOPENED : BitVec 4 := 2
def wCLOSED : BitVec 4 := 4
def wREFUSED : BitVec 4 := 8

/-- Service status codes (20 Table 20.3). -/
def yNOSESSION : Nat := 0x10
def yBADLEN : Nat := 0x11
def yBADTYPE : Nat := 0x12
def yPASSREF : Nat := 0x13
def ySESSION : Nat := 0x14

/-- A response frame (20 Table 20.1). -/
def svcFrame (type : Nat) (tag : Byte) (payload : List Byte) : List Byte :=
  let body := [BitVec.ofNat 8 (type + 0x80), tag] ++ leBytes 2 payload.length ++ payload
  [0x4A, 0x53] ++ body ++ wordBytes (crc32c body)

namespace State

/-- SVC serves frames: RUN or DOZE with the configuration applied, or NO_BUNDLE or NO_CONFIG (20 R725); the supervisor
serves it, so not while it is held in reset (19 R701). -/
def svcServes (s : State) : Bool :=
  s.pwr.vioGood && s.pwr.pd1Up && !s.flt.supReset &&
    (match s.boot.st with
     | .noBundle | .noConfig => true
     | .running | .unlocked => decide (s.pwr.st = .run)
     | _ => false)

/-- (DEDUCED, log 81.) -/
def inRom (s : State) : Bool := decide (s.boot.st = .noBundle)

/-- A valid frame was served with this response. (DEDUCED, log 80.) -/
def svcAnswer (s : State) (type : Nat) (tag : Byte) (payload : List Byte) : State :=
  s.modSvc fun v => { v with frames := satInc v.frames, lastAt := s.time, resp := svcFrame type tag payload }

/-- A frame discarded without response (20 R726). -/
def svcDiscard (s : State) : State := s.modSvc fun v => { v with resp := [] }

/-- SVC_SESSION is posted (20 Table 20.18). -/
def postSession (s : State) (reason : Nat) (opened : Bool) : State :=
  if s.inRom then s
  else s.postAll 3 (s.readers 14) 0x33 true (2 * reason + b2n opened) (s.svc.hold[0]) (s.svc.hold[1]) (s.svc.hold[2])

/-- SVC_HELLO (20 R730, Table 20.2). (DEDUCED, log 82.) -/
def svcHello (s : State) (tag : Byte) : State :=
  if !s.svcServes then s
  else
    let r := randomBytes 2 s
    let s := r.2.modSvc fun v => { v with chal := some r.1 }
    s.svcAnswer 0x01 tag
      ([0, if s.inRom then 0 else 1] ++ leBytes 2 0x0640 ++ [0xB0, 0] ++ leBytes 8 s.otp.unitId.toNat ++ wordBytes s.bootWord ++
        wordBytes (((s.glbRead 0x14).map (·.1)).getD 0) ++ wordBytes s.boot.ver ++ r.1)

/-- The record a pass asks for (20 R732). -/
def passRecord (p : List Byte) : ClientRec :=
  { bind := packw [(1, 31), (4, 28)], rights := .ofNat 32 (field p 0x1C 4), grant := .ofNat 64 (field p 0x20 8),
    quota := .ofNat 32 (field p 0x28 4), rate := .ofNat 32 (field p 0x2C 4) }

/-- The pass's key is the fleet's or the vendor's (20 Table 20.5 reason 5). -/
def passFleet (s : State) (p : List Byte) : Bool :=
  decide (s.otp.fleetHash ≠ 0) && decide (sha256 (slice p 0x50 32) = s.otp.fleetHash)
def passVendor (s : State) (p : List Byte) : Bool := decide (sha256 (slice p 0x50 32) = s.otp.vendorHash)

/-- REASON of a pass, 0 when it is accepted (20 R731, Table 20.5). -/
def passReason (s : State) (p : List Byte) (chal : Option (List Byte)) : Nat :=
  let flags := field p 0x10 2
  let dur := field p 0x12 2
  let now := s.canopy.rtcSec.toNat
  if field p 0 4 ≠ 0x5048584A ∨ field p 4 2 ≠ 1 ∨ 4 ≤ flags then 1
  else if field p 6 2 ≠ 0x0640 then 2
  else if field p 8 8 = 0 ∨ field p 8 8 ≠ s.otp.unitId.toNat then 3
  else if flags % 4 = 0 ∨ dur < 1 ∨ 480 < dur then 4
  else if !s.passFleet p && !s.passVendor p then 5
  else if !sigOk (slice p 0x50 32) (slice p 0x70 64) (p.take 0x70) then 6
  else if flags % 2 = 1 ∧ chal ≠ some (slice p 0x30 16) then 7
  else if 2 ≤ flags ∧ (!s.canopy.rtcValid ∨ now < field p 0x14 4 ∨ field p 0x18 4 < now) then 8
  else if !s.inRom ∧ s.recordFault 255 (passRecord p) ≠ 0 then 9
  else 0

/-- Record 255 is written from the pass (20 R732): word by word as the supervisor. (DEDUCED, log 82.) -/
def writePassRecord (s : State) (r : ClientRec) : State :=
  let put (s : State) (i : Nat) (w : Word) : State := s.recordWrite true 0 255 i w
  put (put (put (put (put (put s 0 r.bind) 1 r.rights) 2 (r.grant.setWidth 32)) 3 ((r.grant >>> 32).setWidth 32)) 4 r.quota) 5 r.rate

/-- The session of an accepted pass opens (20 R732). (DEDUCED, log 82.) -/
def openSession (s : State) (p : List Byte) : State :=
  let s := if s.inRom then s else s.writePassRecord (passRecord p)
  let vendor := !s.passFleet p
  let s := s.modSvc fun v =>
    { v with open_ := true, issuer := vendor, window := decide (2 ≤ field p 0x10 2), rom := s.inRom,
             endAt := s.time + field p 0x12 2 * 60 * 200000000,
             hold := Vector.ofFn fun i => BitVec.ofNat 32 (field p (0x40 + 4 * i.val) 4) }
  (s.svcFlag wOPENED).postSession 0 true

/-- SVC_PASS (20 R730–R732, R764). (DEDUCED, log 80.) -/
def svcPass (s : State) (tag : Byte) (p : List Byte) : State :=
  if !s.svcServes then s
  else if s.svc.open_ then s.svcAnswer 0x02 tag [BitVec.ofNat 8 ySESSION, 0]
  else
    let chal := s.svc.chal
    let s := s.modSvc fun v => { v with chal := none }
    if p.length ≠ 176 then s.svcAnswer 0x02 tag [BitVec.ofNat 8 yBADLEN, 0]
    else
      let r := s.passReason p chal
      if r = 0 then (s.openSession p).svcAnswer 0x02 tag [0, 0]
      else
        let s := if r = 9 then s.scWerr 255 (s.recordFault 255 (passRecord p)) else s
        (s.svcFlag wREFUSED).svcAnswer 0x02 tag [BitVec.ofNat 8 yPASSREF, BitVec.ofNat 8 r]

/-- A session ends (20 R733, R758): record 255 is cleared, an update loses its owner, SVC_SESSION is posted. (DEDUCED, log 82.) -/
def endSession (s : State) (reason : Nat) : State :=
  if !s.svc.open_ then s
  else
    let s := if s.inRom then s
      else
        let old := s.client 255
        let s := (s.noteRec 255).modClient 255 fun r => { r with bind := 0, rights := 0, grant := 0, quota := 0, rate := 0 }
        s.disableNext 255 old
    let s := s.modUpd fun u => if u.owner = some 255 then { u with owner := none } else u
    ((s.postSession reason false).svcFlag wCLOSED).modSvc fun v =>
      { v with open_ := false, issuer := false, window := false, hold := .replicate 4 0 }

/-! ## READ and WRITE (20 R728) -/

/-- Addresses of the words of a frame. (DEDUCED, log 80.) -/
def svcAddrs (p : List Byte) : List Nat :=
  (List.range (field p 6 2)).map fun k => field p 0 4 + (if field p 4 1 = 0 then 0 else 4 * k)

/-- The boot ROM reaches GLB and the UPD/SVC block only (20 R728, R733). (DEDUCED, log 81.) -/
def romBlock (a : Nat) : Bool := inGlb a || (decide (0xC400 ≤ a) && decide (a < 0xC800))

/-- Codes of a READ or WRITE frame that stop it whole (20 R728; 14 R525, R532). (DEDUCED, log 80.) -/
def svcHeadCode (s : State) (p : List Byte) (len : Nat) : Nat :=
  if !s.svc.open_ then yNOSESSION
  else if p.length < 8 ∨ p.length ≠ len ∨ field p 6 2 < 1 ∨ 1024 < field p 6 2 then yBADLEN
  else if 2 ^ 20 ≤ field p 0 4 ∨ field p 0 4 % 4 ≠ 0 then cBADHDR
  else if s.inRom then cOK
  else if (s.clientAt 255).st = .fenced then cFENCED
  else if s.outOfTokens 255 then cRATE
  else cOK

/-- One word read as client 255. (DEDUCED, log 81.) -/
def svcReadWord (s : State) (a : Nat) : Nat × Word × State :=
  if s.inRom then
    if romBlock a then s.readWord 255 true false a else (cNOREG, 0, s)
  else s.readWord 255 false false a

/-- SVC_READ. -/
def svcRead (s : State) (tag : Byte) (p : List Byte) : State :=
  if !s.svcServes then s
  else
    let code := s.svcHeadCode p 8
    if code ≠ cOK then
      let s := if code = cBADHDR ∧ !s.inRom then s.countFault 255 else s
      s.svcAnswer 0x03 tag ([BitVec.ofNat 8 code, 0] ++ leBytes 2 0)
    else
      let s := if s.inRom then s else s.takeToken 255
      let r := (svcAddrs p).foldl (fun (r : ReadRun) a =>
        let x := r.s.svcReadWord a
        { s := x.2.2, codes := r.codes ++ [x.1], data := r.data ++ [x.2.1] }) ({ s := s } : ReadRun)
      let s := if r.s.inRom then r.s else r.s.countRefusal 255 r.codes
      s.svcAnswer 0x03 tag ([BitVec.ofNat 8 (firstCode r.codes), 0] ++ leBytes 2 r.data.length ++ r.data.flatMap wordBytes)

/-- The code of one word of a WRITE. -/
def svcWriteCode (s : State) (a : Nat) (w : Word) : Nat :=
  if s.inRom then
    if !(romBlock a && s.isReg a) then cNOREG else if inGlb a then cRIGHTS else cOK
  else s.writeWordCode 255 a w

/-- The words of a WRITE up to its first refused one: the words to queue, and the code that stopped it. -/
def svcAccept (s : State) : List (Nat × Word) → List (Nat × Word) × Nat
  | [] => ([], cOK)
  | x :: xs =>
    let code := s.svcWriteCode x.1 x.2
    if code ≠ cOK then ([], code) else let r := svcAccept s xs; (x :: r.1, r.2)

/-- SVC_WRITE: entries past the sixteenth of the queue are words that wait for one (20 R728). -/
def svcWrite (s : State) (tag : Byte) (p : List Byte) : State :=
  if !s.svcServes then s
  else
    let code := s.svcHeadCode p (8 + 4 * field p 6 2)
    if code ≠ cOK then
      let s := if code = cBADHDR ∧ !s.inRom then s.countFault 255 else s
      s.svcAnswer 0x04 tag ([BitVec.ofNat 8 code, 0] ++ leBytes 2 0)
    else
      let s := if s.inRom then s else s.takeToken 255
      let r := s.svcAccept ((svcAddrs p).zip (wordsOf (field p 6 2) (p.drop 8)))
      let s := s.enqueue 255 .svc 0 r.1
      let s := if s.inRom then s else s.countRefusal 255 [r.2]
      s.svcAnswer 0x04 tag ([BitVec.ofNat 8 r.2, 0] ++ leBytes 2 r.1.length)

/-! ## CLOSE, RESET, discards and timeouts -/

def svcClose (s : State) (tag : Byte) (p : List Byte) : State :=
  if !s.svcServes then s
  else if !s.svc.open_ then s.svcAnswer 0x05 tag [BitVec.ofNat 8 yNOSESSION]
  else if p.length ≠ 0 then s.svcAnswer 0x05 tag [BitVec.ofNat 8 yBADLEN]
  else (s.endSession 1).svcAnswer 0x05 tag [0]

/-- SVC_RESET (20 R729). -/
def svcReset (s : State) (tag : Byte) (p : List Byte) : State :=
  if !s.svcServes then s
  else if !s.svc.open_ then s.svcAnswer 0x06 tag [BitVec.ofNat 8 yNOSESSION]
  else if p.length ≠ 2 ∨ field p 0 2 ≠ 0x5A3C then s.svcAnswer 0x06 tag [BitVec.ofNat 8 yBADLEN]
  else (s.svcAnswer 0x06 tag [0]).modSvc fun v => { v with resetPend := true, resetAt := s.time }

/-- SVC_RESET_EXEC: the reset of an answered RESET, cause SVC, 1 ms after the 110 µs of its response (20 R725, R729).
(DEDUCED, log 80.) -/
def svcResetExec (s : State) (also : Nat) : State :=
  if s.svc.resetPend ∧ s.svc.resetAt + 222000 ≤ s.time then s.resetWith 6 also else s

/-- SVC_BAD_FRAME: discarded, or answered BADTYPE (20 R726, Table 20.3). -/
def svcBadFrame (s : State) (b : BadFrame) : State :=
  if !s.svcServes then s
  else
    match b with
    | .crc => ((s.modSvc fun v => { v with crcErr := satInc v.crcErr }).svcFlag wCRC).svcDiscard
    | .length => s.svcDiscard
    | .type t tag =>
      if 1 ≤ t.toNat ∧ t.toNat ≤ 6 then s else s.svcAnswer t.toNat tag [BitVec.ofNat 8 yBADTYPE]

/-- SVC_SESSION_EXPIRE: DURATION has elapsed (20 R733). -/
def svcExpire (s : State) : State := if s.svc.open_ && decide (s.svc.endAt ≤ s.time) then s.endSession 2 else s

/-- SVC_IDLE_TIMEOUT: 60 s without a valid frame (20 R733). (DEDUCED, log 89.) -/
def svcIdle (s : State) : State :=
  if s.svc.open_ && decide (s.svc.lastAt + 12000000000 ≤ s.time) then s.endSession 3 else s

end State
end Sys2Proof.Machine
end

