-- ==== Sys2Proof/Machine/ExecService.lean ====
section
/-!
DEFINITION. Machine/ExecService.lean: the frames and timers of the service port (20).
-/
namespace Sys2Proof.Machine
open State

/-- SVC_HELLO (R730): A HELLO frame returns status and a fresh challenge. -/
def execSvcHello (tag : Byte) (s : State) : Host.Outcome State Fault Refusal :=
  .next (s.whenUp s.pwr.pd1Up fun s => s.svcHello tag)

/-- SVC_PASS (R731): A PASS frame checks a Hall Pass and opens a session when accepted. -/
def execSvcPass (tag : Byte) (p : List Byte) (s : State) : Host.Outcome State Fault Refusal :=
  .next (s.whenUp s.pwr.pd1Up fun s => s.svcPass tag p)

/-- SVC_READ (R728): A READ frame reads words as client 255. -/
def execSvcRead (tag : Byte) (p : List Byte) (s : State) : Host.Outcome State Fault Refusal :=
  .next (s.whenUp s.pwr.pd1Up fun s => s.svcRead tag p)

/-- SVC_WRITE (R728): A WRITE frame writes words as client 255 through the host write queue. -/
def execSvcWrite (tag : Byte) (p : List Byte) (s : State) : Host.Outcome State Fault Refusal :=
  .next (s.whenUp s.pwr.pd1Up fun s => s.svcWrite tag p)

/-- SVC_CLOSE (R733): A CLOSE frame ends the session. -/
def execSvcClose (tag : Byte) (p : List Byte) (s : State) : Host.Outcome State Fault Refusal :=
  .next (s.whenUp s.pwr.pd1Up fun s => s.svcClose tag p)

/-- SVC_RESET (R729): A keyed RESET frame schedules a reset with cause SVC. -/
def execSvcReset (tag : Byte) (p : List Byte) (s : State) : Host.Outcome State Fault Refusal :=
  .next (s.whenUp s.pwr.pd1Up fun s => s.svcReset tag p)

/-- SVC_RESET_EXEC (R729): One millisecond after the RESET response ends, PD1–PD7 are reset. -/
def execSvcResetExec (also : Fin 9) (s : State) : Host.Outcome State Fault Refusal :=
  .next (s.whenUp s.pwr.pd1Up fun s => s.svcResetExec also.val)

/-- SVC_BAD_FRAME (R726): A received frame with a bad CRC or length is discarded without response. -/
def execSvcBadFrame (b : BadFrame) (s : State) : Host.Outcome State Fault Refusal :=
  .next (s.whenUp s.pwr.pd1Up fun s => s.svcBadFrame b)

/-- SVC_BYTE_TIMEOUT (R726): More than 1 ms passes between bytes of a frame, which is discarded. -/
def execSvcByteTimeout (s : State) : Host.Outcome State Fault Refusal := .next (s.whenUp s.pwr.pd1Up fun s => s.svcDiscard)

/-- SVC_SESSION_EXPIRE (R733): The session's DURATION elapses and the session ends. -/
def execSvcSessionExpire (s : State) : Host.Outcome State Fault Refusal := .next (s.whenUp s.pwr.pd1Up fun s => s.svcExpire)

/-- SVC_IDLE_TIMEOUT (R733): Sixty seconds pass without a valid frame and the session ends. -/
def execSvcIdleTimeout (s : State) : Host.Outcome State Fault Refusal := .next (s.whenUp s.pwr.pd1Up fun s => s.svcIdle)

end Sys2Proof.Machine
end

