-- ==== Sys2Proof/Machine/Tap.lean ====
section
/-!
DEFINITION. Machine/Tap.lean: the test access port (21 R787–R790, R795, R799).
-/
namespace Sys2Proof.Machine.State

/-- Update-IR loads the code of Table 21.7 while RST_N is low and OTP BSDIS is clear, else BYPASS (21 R787–R789). (PRESUMED, log 79.) -/
def tapUpdate (s : State) (code : BitVec 4) : State :=
  s.modPins fun p => { p with tap := if p.rstN || s.otp.bsdis then 15 else if code.toNat < 4 then code else 15 }

/-- EXTEST and SAMPLE/PRELOAD select the boundary register, and the scan that follows leaves `cells` in it (21 Table 21.7,
R790). (PRESUMED, log 79.) -/
def tapBoundary (s : State) (code : BitVec 4) (cells : BitVec 266) : State :=
  let s := s.tapUpdate code
  if s.pins.tap = code then s.modPins fun p => { p with boundary := cells } else s

/-- Test-Logic-Reset selects BYPASS: TRST_N is low, or RST_N rises (21 R787, R795). (PRESUMED, log 79.) -/
def tapReset (s : State) (rise : Bool) : State :=
  if rise then s.rstRise else s.modPins fun p => { p with tap := 15 }

end Sys2Proof.Machine.State
end

