-- ==== Sys2Proof/Machine/ExecTap.lean ====
section
/-!
DEFINITION. Machine/ExecTap.lean: the test access port's commands (21).
-/
namespace Sys2Proof.Machine
open State

/-- TAP_EXTEST (R788): TAP instruction EXTEST drives balls from the boundary register while RST_N is low. -/
def execTapExtest (cells : BitVec 266) (s : State) : Host.Outcome State Fault Refusal := .next (s.tapBoundary 0 cells)

/-- TAP_SAMPLE_PRELOAD (R787): TAP instruction SAMPLE/PRELOAD selects the boundary register. -/
def execTapSamplePreload (cells : BitVec 266) (s : State) : Host.Outcome State Fault Refusal := .next (s.tapBoundary 1 cells)

/-- TAP_CLAMP (R787): TAP instruction CLAMP holds the boundary outputs and selects bypass. -/
def execTapClamp (s : State) : Host.Outcome State Fault Refusal := .next (s.tapUpdate 2)

/-- TAP_HIGHZ (R787): TAP instruction HIGHZ releases the outputs and selects bypass. -/
def execTapHighz (s : State) : Host.Outcome State Fault Refusal := .next (s.tapUpdate 3)

/-- TAP_BYPASS (R787): TAP instruction BYPASS selects the bypass register. -/
def execTapBypass (s : State) : Host.Outcome State Fault Refusal := .next (s.tapUpdate 15)

/-- TAP_RESET (R787): TRST_N low or RST_N rising puts the TAP in Test-Logic-Reset. -/
def execTapReset (rise : Bool) (s : State) : Host.Outcome State Fault Refusal := .next (s.tapReset rise)

end Sys2Proof.Machine
end

