-- ==== Sys2Proof/Machine/ExecTimetable.lean ====
section
/-!
DEFINITION. Machine/ExecTimetable.lean: the commands of the calendar and the dispatch (07).
-/
namespace Sys2Proof.Machine
open State

/-- CALENDAR_TIME_DUE (R266): TB equals a time entry's key and the entry falls due and becomes READY. -/
def execCalendarTimeDue (s : State) : Host.Outcome State Fault Refusal :=
  .next (s.whenUp s.pwr.pdUp fun s => s.calendarTimeDue)

/-- CALENDAR_ANGLE_DUE (R266): A LOCKED domain reaches an angle entry's key and the entry falls due and becomes READY. -/
def execCalendarAngleDue (d : Fin 3) (s : State) : Host.Outcome State Fault Refusal :=
  .next (s.whenUp s.pwr.pdUp fun s => s.calendarAngleDue d)

/-- DISPATCH (R270): The Timetable selects the most urgent READY candidate and the microengine opens a window for it. -/
def execDispatch (flips : List (Fin 8192 × Fin 40)) (s : State) : Host.Outcome State Fault Refusal :=
  .next (s.whenUp s.pwr.pdUp fun s => s.dispatchWith flips)

/-- CALENDAR_INSERT (R278): A client writes word 3 with ARM 1 to insert a calendar entry. -/
def execCalendarInsert (c : Fin 256) (h : Fin 1024) (w : Word) (s : State) : Host.Outcome State Fault Refusal :=
  .next (s.whenUp s.pwr.pdUp fun s => s.hostInsert c h w)

/-- CALENDAR_CANCEL (R279): A client writes word 3 with ARM 0 to cancel its entry. -/
def execCalendarCancel (c : Fin 256) (h : Fin 1024) (s : State) : Host.Outcome State Fault Refusal :=
  .next (s.whenUp s.pwr.pdUp fun s => s.hostCancel c h)

/-- ME_SPILL_WRITE (R310): An ME_SPILL write takes effect unless it places a frame beyond BANK5. -/
def execMeSpillWrite (w : Word) (s : State) : Host.Outcome State Fault Refusal :=
  .next (s.whenUp s.pwr.pdUp fun s => s.writeSpill w)

/-- ME_G_WRITE (R284): A host write to ME_G0–7 takes effect only while the microengine is STOPPED or FENCED. -/
def execMeGWrite (k : Fin 8) (w : Word) (s : State) : Host.Outcome State Fault Refusal :=
  .next (s.whenUp s.pwr.pdUp fun s => s.writeG k w)

end Sys2Proof.Machine
end

