-- ==== Sys2Proof/Machine/ExecUpd.lean ====
section
/-!
DEFINITION. Machine/ExecUpd.lean: the commands of field update (20).
-/
namespace Sys2Proof.Machine
open State

/-- UPD_DATA_WRITE (R735): A UPD_DATA write appends one word to the block buffer. -/
def execUpdDataWrite (c : Fin 256) (w : Word) (s : State) : Host.Outcome State Fault Refusal :=
  .next (s.whenUp s.pwr.pd1Up fun s => s.updData c w)

/-- UPD_BEGIN (R736): BEGIN takes block 0, checks the header and starts or resumes an update. -/
def execUpdBegin (c : Fin 256) (s : State) : Host.Outcome State Fault Refusal :=
  .next (s.whenUp s.pwr.pd1Up fun s => s.updCmd c 1 0)

/-- UPD_BLOCK (R738): BLOCK checks a block's CRC and starts programming its sector. -/
def execUpdBlock (c : Fin 256) (n : Fin 1024) (s : State) : Host.Outcome State Fault Refusal :=
  .next (s.whenUp s.pwr.pd1Up fun s => s.updCmd c 2 n.val)

/-- UPD_BLOCK_PROGRAMMED (R738): A sector is erased, programmed and read back, and progress is recorded. -/
def execUpdBlockProgrammed (ok : Bool) (s : State) : Host.Outcome State Fault Refusal :=
  .next (s.whenUp s.pwr.pd1Up fun s => s.updProgrammed ok)

/-- UPD_END (R740): END starts verification of the complete target. -/
def execUpdEnd (c : Fin 256) (s : State) : Host.Outcome State Fault Refusal :=
  .next (s.whenUp s.pwr.pd1Up fun s => s.updCmd c 3 0)

/-- UPD_VERIFY_DONE (R740): Verification completes and the update reads VERIFIED or ERROR. -/
def execUpdVerifyDone (s : State) : Host.Outcome State Fault Refusal := .next (s.whenUp s.pwr.pd1Up fun s => s.updVerifyDone)

/-- UPD_ACTIVATE (R742): ACTIVATE arms a bundle trial, a configuration trial or a node campaign. -/
def execUpdActivate (c : Fin 256) (s : State) : Host.Outcome State Fault Refusal :=
  .next (s.whenUp s.pwr.pd1Up fun s => s.updCmd c 4 0)

/-- UPD_ABORT (R741): ABORT erases the start of the target and returns the agent to IDLE. -/
def execUpdAbort (c : Fin 256) (s : State) : Host.Outcome State Fault Refusal :=
  .next (s.whenUp s.pwr.pd1Up fun s => s.updCmd c 5 0)

/-- UPD_CONFIRM (R761): CONFIRM records the host's confirmation of a trial. -/
def execUpdConfirm (s : State) : Host.Outcome State Fault Refusal := .next (s.whenUp s.pwr.pd1Up fun s => s.updConfirm)

/-- UPD_CONFIRM_TIMEOUT (R745): The confirmation window runs out and the trial falls back with a reset. -/
def execUpdConfirmTimeout (s : State) : Host.Outcome State Fault Refusal :=
  .next (s.whenUp s.pwr.pd1Up fun s => s.updTimeout)

/-- UPD_AGENT_START (R765): After RS READY the agent sets its state from the progress record and handles trial outcomes. -/
def execUpdAgentStart (s : State) : Host.Outcome State Fault Refusal := .next (s.whenUp s.pwr.pd1Up fun s => s.updStart)

/-- NODE_RESPONSE_TIMEOUT (R751): A node-update request gets no response within 200 ms and the link fails. -/
def execNodeResponseTimeout (s : State) : Host.Outcome State Fault Refusal :=
  .next (s.whenUp s.pwr.pd1Up fun s => s.nodeRespTimeout)

/-- NODE_BOOT_TIMEOUT (R753): NUBOOT passes without the node's new identity and the link fails. -/
def execNodeBootTimeout (s : State) : Host.Outcome State Fault Refusal :=
  .next (s.whenUp s.pwr.pd1Up fun s => s.nodeBootTimeout)

end Sys2Proof.Machine
end

