-- ==== Sys2Proof/Machine/Dispatch.lean ====
section
/-!
DEFINITION. Machine/Dispatch.lean: every command and its meaning.
-/
namespace Sys2Proof.Machine

def exec (i : Instr) (s : State) : Host.Outcome State Fault Refusal :=
  match i with
  | .vioFall => Sys2Proof.Machine.execVioFall s
  | .vioRise => Sys2Proof.Machine.execVioRise s
  | .vddaFall => Sys2Proof.Machine.execVddaFall s
  | .canopyPor => Sys2Proof.Machine.execCanopyPor s
  | .pinReset also => Sys2Proof.Machine.execPinReset also s
  | .startSequence tApply tLock stuck => Sys2Proof.Machine.execStartSequence tApply tLock stuck s
  | .pllLocked => Sys2Proof.Machine.execPllLocked s
  | .pllLockTimeout => Sys2Proof.Machine.execPllLockTimeout s
  | .clkholdRetry => Sys2Proof.Machine.execClkholdRetry s
  | .glbLockWrite client lock => Sys2Proof.Machine.execGlbLockWrite client lock s
  | .lockDeadlineExpiry => Sys2Proof.Machine.execLockDeadlineExpiry s
  | .pwrCmdPark key => Sys2Proof.Machine.execPwrCmdPark key s
  | .pwrCmdOff key => Sys2Proof.Machine.execPwrCmdOff key s
  | .pwrCmdReset key also => Sys2Proof.Machine.execPwrCmdReset key also s
  | .pwrCmdClkrec key => Sys2Proof.Machine.execPwrCmdClkrec key s
  | .parkEntryComplete => Sys2Proof.Machine.execParkEntryComplete s
  | .wakeLatch src => Sys2Proof.Machine.execWakeLatch src s
  | .parkExitPllLock ticks => Sys2Proof.Machine.execParkExitPllLock ticks s
  | .reapplyComplete => Sys2Proof.Machine.execReapplyComplete s
  | .wakeFromOff => Sys2Proof.Machine.execWakeFromOff s
  | .parkWatchEdge k v => Sys2Proof.Machine.execParkWatchEdge k v s
  | .parkWatchWindow => Sys2Proof.Machine.execParkWatchWindow s
  | .rtcSecondTick => Sys2Proof.Machine.execRtcSecondTick s
  | .rtcSecWrite w => Sys2Proof.Machine.execRtcSecWrite w s
  | .tamperEvent n => Sys2Proof.Machine.execTamperEvent n s
  | .clockFault sub => Sys2Proof.Machine.execClockFault sub s
  | .clockRecovery => Sys2Proof.Machine.execClockRecovery s
  | .lseFail => Sys2Proof.Machine.execLseFail s
  | .lseRecover => Sys2Proof.Machine.execLseRecover s
  | .groveTick g => Sys2Proof.Machine.execGroveTick g s
  | .edgeTimeFire n => Sys2Proof.Machine.execEdgeTimeFire n s
  | .edgeAngleFire n => Sys2Proof.Machine.execEdgeAngleFire n s
  | .grvCmdStart g => Sys2Proof.Machine.execGrvCmdStart g s
  | .grvCmdStop g => Sys2Proof.Machine.execGrvCmdStop g s
  | .grvPscWrite g w => Sys2Proof.Machine.execGrvPscWrite g w s
  | .chCmdGo n => Sys2Proof.Machine.execChCmdGo n s
  | .chCmdStop n => Sys2Proof.Machine.execChCmdStop n s
  | .chCmdSwcap n => Sys2Proof.Machine.execChCmdSwcap n s
  | .chCmdOvrclr n => Sys2Proof.Machine.execChCmdOvrclr n s
  | .chCtlWrite n w => Sys2Proof.Machine.execChCtlWrite n w s
  | .reloadLoWrite n w => Sys2Proof.Machine.execReloadLoWrite n w s
  | .reloadHiWrite n w => Sys2Proof.Machine.execReloadHiWrite n w s
  | .matLoWrite n k w => Sys2Proof.Machine.execMatLoWrite n k w s
  | .matHiWrite n k w => Sys2Proof.Machine.execMatHiWrite n k w s
  | .cntWrite n hi w => Sys2Proof.Machine.execCntWrite n hi w s
  | .cntRead n hi => Sys2Proof.Machine.execCntRead n hi s
  | .cntReadCompat n hi => Sys2Proof.Machine.execCntReadCompat n hi s
  | .captureEdge n level => Sys2Proof.Machine.execCaptureEdge n level s
  | .capLoRead n => Sys2Proof.Machine.execCapLoRead n s
  | .glbTbRead hi => Sys2Proof.Machine.execGlbTbRead hi s
  | .tbSnap => Sys2Proof.Machine.execTbSnap s
  | .eqPush p n w => Sys2Proof.Machine.execEqPush p n w s
  | .eqShd p n w => Sys2Proof.Machine.execEqShd p n w s
  | .grvUpdArm g => Sys2Proof.Machine.execGrvUpdArm g s
  | .chPairWrite n w => Sys2Proof.Machine.execChPairWrite n w s
  | .chOcfgWrite n w => Sys2Proof.Machine.execChOcfgWrite n w s
  | .chOcmdClr n => Sys2Proof.Machine.execChOcmdClr n s
  | .chOcmdRel n => Sys2Proof.Machine.execChOcmdRel n s
  | .chOcmdRelSync n => Sys2Proof.Machine.execChOcmdRelSync n s
  | .chOcmdFlush n => Sys2Proof.Machine.execChOcmdFlush n s
  | .grvClrcmdClr g => Sys2Proof.Machine.execGrvClrcmdClr g s
  | .grvClrcmdRel g => Sys2Proof.Machine.execGrvClrcmdRel g s
  | .grvClrcmdRelTrip g => Sys2Proof.Machine.execGrvClrcmdRelTrip g s
  | .readbackMismatch n => Sys2Proof.Machine.execReadbackMismatch n s
  | .grvRdmGo g => Sys2Proof.Machine.execGrvRdmGo g s
  | .adInputEdge d k level => Sys2Proof.Machine.execAdInputEdge d k level s
  | .adWindowClose d => Sys2Proof.Machine.execAdWindowClose d s
  | .angleTrigger d k => Sys2Proof.Machine.execAngleTrigger d k s
  | .adCtlEnable d w => Sys2Proof.Machine.execAdCtlEnable d w s
  | .adCmdLose d => Sys2Proof.Machine.execAdCmdLose d s
  | .adCmdDrop d => Sys2Proof.Machine.execAdCmdDrop d s
  | .plCtlWrite k w => Sys2Proof.Machine.execPlCtlWrite k w s
  | .plTripClear k => Sys2Proof.Machine.execPlTripClear k s
  | .domainSweep d => Sys2Proof.Machine.execDomainSweep d s
  | .calendarTimeDue => Sys2Proof.Machine.execCalendarTimeDue s
  | .calendarAngleDue d => Sys2Proof.Machine.execCalendarAngleDue d s
  | .dispatch flips => Sys2Proof.Machine.execDispatch flips s
  | .calendarInsert c h w => Sys2Proof.Machine.execCalendarInsert c h w s
  | .calendarCancel c h => Sys2Proof.Machine.execCalendarCancel c h s
  | .meSpillWrite w => Sys2Proof.Machine.execMeSpillWrite w s
  | .meGWrite k w => Sys2Proof.Machine.execMeGWrite k w s
  | .add rd ra rb => Sys2Proof.Machine.execAdd rd ra rb s
  | .adc rd ra rb => Sys2Proof.Machine.execAdc rd ra rb s
  | .sub rd ra rb => Sys2Proof.Machine.execSub rd ra rb s
  | .sbc rd ra rb => Sys2Proof.Machine.execSbc rd ra rb s
  | .and rd ra rb => Sys2Proof.Machine.execAnd rd ra rb s
  | .or rd ra rb => Sys2Proof.Machine.execOr rd ra rb s
  | .xor rd ra rb => Sys2Proof.Machine.execXor rd ra rb s
  | .andn rd ra rb => Sys2Proof.Machine.execAndn rd ra rb s
  | .shl rd ra rb => Sys2Proof.Machine.execShl rd ra rb s
  | .shr rd ra rb => Sys2Proof.Machine.execShr rd ra rb s
  | .sar rd ra rb => Sys2Proof.Machine.execSar rd ra rb s
  | .mul rd ra rb => Sys2Proof.Machine.execMul rd ra rb s
  | .mulhu rd ra rb => Sys2Proof.Machine.execMulhu rd ra rb s
  | .divu rd ra rb => Sys2Proof.Machine.execDivu rd ra rb s
  | .remu rd ra rb => Sys2Proof.Machine.execRemu rd ra rb s
  | .minu rd ra rb => Sys2Proof.Machine.execMinu rd ra rb s
  | .maxu rd ra rb => Sys2Proof.Machine.execMaxu rd ra rb s
  | .cmp ra rb => Sys2Proof.Machine.execCmp ra rb s
  | .tst ra rb => Sys2Proof.Machine.execTst ra rb s
  | .mov rd ra => Sys2Proof.Machine.execMov rd ra s
  | .addi rd ra imm => Sys2Proof.Machine.execAddi rd ra imm s
  | .andi rd ra imm => Sys2Proof.Machine.execAndi rd ra imm s
  | .ori rd ra imm => Sys2Proof.Machine.execOri rd ra imm s
  | .xori rd ra imm => Sys2Proof.Machine.execXori rd ra imm s
  | .shli rd ra n => Sys2Proof.Machine.execShli rd ra n s
  | .shri rd ra n => Sys2Proof.Machine.execShri rd ra n s
  | .sari rd ra n => Sys2Proof.Machine.execSari rd ra n s
  | .cmpi ra imm => Sys2Proof.Machine.execCmpi ra imm s
  | .tsti ra imm => Sys2Proof.Machine.execTsti ra imm s
  | .movi rd imm => Sys2Proof.Machine.execMovi rd imm s
  | .movhi rd imm => Sys2Proof.Machine.execMovhi rd imm s
  | .ldw rd ra imm => Sys2Proof.Machine.execLdw rd ra imm s
  | .ldh rd ra imm => Sys2Proof.Machine.execLdh rd ra imm s
  | .ldhu rd ra imm => Sys2Proof.Machine.execLdhu rd ra imm s
  | .ldb rd ra imm => Sys2Proof.Machine.execLdb rd ra imm s
  | .ldbu rd ra imm => Sys2Proof.Machine.execLdbu rd ra imm s
  | .stw rd ra imm => Sys2Proof.Machine.execStw rd ra imm s
  | .sth rd ra imm => Sys2Proof.Machine.execSth rd ra imm s
  | .stb rd ra imm => Sys2Proof.Machine.execStb rd ra imm s
  | .xadd g rd ra rb => Sys2Proof.Machine.execXadd g rd ra rb s
  | .xchg g rd ra rb => Sys2Proof.Machine.execXchg g rd ra rb s
  | .xset g rd ra rb => Sys2Proof.Machine.execXset g rd ra rb s
  | .xclr g rd ra rb => Sys2Proof.Machine.execXclr g rd ra rb s
  | .cas g rd ra rb => Sys2Proof.Machine.execCas g rd ra rb s
  | .b cond target => Sys2Proof.Machine.execB cond target s
  | .call target => Sys2Proof.Machine.execCall target s
  | .jr ra => Sys2Proof.Machine.execJr ra s
  | .ret => Sys2Proof.Machine.execRet s
  | .yield => Sys2Proof.Machine.execYield s
  | .nop => Sys2Proof.Machine.execNop s
  | .sched rd ra => Sys2Proof.Machine.execSched rd ra s
  | .cancel rd ra => Sys2Proof.Machine.execCancel rd ra s
  | .schedResult => Sys2Proof.Machine.execSchedResult s
  | .edge rc ra rb shd chr ch => Sys2Proof.Machine.execEdge rc ra rb shd chr ch s
  | .snap rd re sel => Sys2Proof.Machine.execSnap rd re sel s
  | .att rd re ra dom => Sys2Proof.Machine.execAtt rd re ra dom s
  | .signal n => Sys2Proof.Machine.execSignal n s
  | .post ra rb client => Sys2Proof.Machine.execPost ra rb client s
  | .trap code => Sys2Proof.Machine.execTrap code s
  | .illegalInstruction => Sys2Proof.Machine.execIllegalInstruction s
  | .requestRelease => Sys2Proof.Machine.execRequestRelease s
  | .watchdogTrap => Sys2Proof.Machine.execWatchdogTrap s
  | .lockstepMismatch => Sys2Proof.Machine.execLockstepMismatch s
  | .psTick e flips => Sys2Proof.Machine.execPsTick e flips s
  | .psEnable e => Sys2Proof.Machine.execPsEnable e s
  | .psDisable e => Sys2Proof.Machine.execPsDisable e s
  | .psCmdHalt e => Sys2Proof.Machine.execPsCmdHalt e s
  | .psCmdGo e => Sys2Proof.Machine.execPsCmdGo e s
  | .psCmdTxflush e => Sys2Proof.Machine.execPsCmdTxflush e s
  | .psCmdRxflush e => Sys2Proof.Machine.execPsCmdRxflush e s
  | .psTxWrite p e w => Sys2Proof.Machine.execPsTxWrite p e w s
  | .psRxRead e => Sys2Proof.Machine.execPsRxRead e s
  | .sensOutputChange n v peak trough => Sys2Proof.Machine.execSensOutputChange n v peak trough s
  | .spareVisit e0 e1 b0 b1 => Sys2Proof.Machine.execSpareVisit e0 e1 b0 b1 s
  | .itripTrip n vs => Sys2Proof.Machine.execItripTrip n vs s
  | .afeItcmdClear clr => Sys2Proof.Machine.execAfeItcmdClear clr s
  | .adcTrigger a trig idx => Sys2Proof.Machine.execAdcTrigger a trig idx s
  | .adcResult a code => Sys2Proof.Machine.execAdcResult a code s
  | .adcCmdTrig a => Sys2Proof.Machine.execAdcCmdTrig a s
  | .adcCmdRestart a => Sys2Proof.Machine.execAdcCmdRestart a s
  | .calMeasure lock step err => Sys2Proof.Machine.execCalMeasure lock step err s
  | .sigCmdMeasure l => Sys2Proof.Machine.execSigCmdMeasure l s
  | .sigCmdEnrol c l k => Sys2Proof.Machine.execSigCmdEnrol c l k s
  | .sigCmdAbort => Sys2Proof.Machine.execSigCmdAbort s
  | .sigMeasurementEnd f => Sys2Proof.Machine.execSigMeasurementEnd f s
  | .sigWindowTimeout => Sys2Proof.Machine.execSigWindowTimeout s
  | .sigAutoPeriod => Sys2Proof.Machine.execSigAutoPeriod s
  | .healthCheck dac adc0 adc1 vref vdda mon => Sys2Proof.Machine.execHealthCheck dac adc0 adc1 vref vdda mon s
  | .bankAccessGrant q flips => Sys2Proof.Machine.execBankAccessGrant q flips s
  | .dmaStarve c => Sys2Proof.Machine.execDmaStarve c s
  | .cwBaseWrite n w => Sys2Proof.Machine.execCwBaseWrite n w s
  | .cwSizeWrite n w => Sys2Proof.Machine.execCwSizeWrite n w s
  | .bgTestRegionStart b => Sys2Proof.Machine.execBgTestRegionStart b s
  | .memTctlWrite w => Sys2Proof.Machine.execMemTctlWrite w s
  | .memCmdReadmit b => Sys2Proof.Machine.execMemCmdReadmit b s
  | .bankReadmitDone b pass word => Sys2Proof.Machine.execBankReadmitDone b pass word s
  | .dmaEnable c client => Sys2Proof.Machine.execDmaEnable c client s
  | .dmaDisable c => Sys2Proof.Machine.execDmaDisable c s
  | .dmaReqPulse c => Sys2Proof.Machine.execDmaReqPulse c s
  | .dmaBeat c => Sys2Proof.Machine.execDmaBeat c s
  | .intcPend n => Sys2Proof.Machine.execIntcPend n s
  | .intcPsetWrite k w => Sys2Proof.Machine.execIntcPsetWrite k w s
  | .intcPclrWrite k w => Sys2Proof.Machine.execIntcPclrWrite k w s
  | .intcEnableWrite target k w => Sys2Proof.Machine.execIntcEnableWrite target k w s
  | .intcClaim pin => Sys2Proof.Machine.execIntcClaim pin s
  | .intcComplete pin n => Sys2Proof.Machine.execIntcComplete pin n s
  | .supEntry => Sys2Proof.Machine.execSupEntry s
  | .supExit => Sys2Proof.Machine.execSupExit s
  | .hpNop cs h => Sys2Proof.Machine.execHpNop cs h s
  | .hpRead cs h missed => Sys2Proof.Machine.execHpRead cs h missed s
  | .hpWrite cs h data hcrc => Sys2Proof.Machine.execHpWrite cs h data hcrc s
  | .hpBadhdr cs op h => Sys2Proof.Machine.execHpBadhdr cs op h s
  | .hpAbort cs part => Sys2Proof.Machine.execHpAbort cs part s
  | .hpCsCollision cs part => Sys2Proof.Machine.execHpCsCollision cs part s
  | .hpQueueRetire => Sys2Proof.Machine.execHpQueueRetire s
  | .scRecordWrite sup c n k w => Sys2Proof.Machine.execScRecordWrite sup c n k w s
  | .scEnSet sup c n w => Sys2Proof.Machine.execScEnSet sup c n w s
  | .scEnClear sup c n w => Sys2Proof.Machine.execScEnClear sup c n w s
  | .scCmdFence n => Sys2Proof.Machine.execScCmdFence n s
  | .scCmdRestore n => Sys2Proof.Machine.execScCmdRestore n s
  | .scCmdClrcnt n => Sys2Proof.Machine.execScCmdClrcnt n s
  | .rateToken c => Sys2Proof.Machine.execRateToken c s
  | .eventAdmit => Sys2Proof.Machine.execEventAdmit s
  | .evPop c => Sys2Proof.Machine.execEvPop c s
  | .bufAlloc c => Sys2Proof.Machine.execBufAlloc c s
  | .bufCmdFree c handle => Sys2Proof.Machine.execBufCmdFree c handle s
  | .bufCmdSend c l handle => Sys2Proof.Machine.execBufCmdSend c l handle s
  | .bufCmdRequest c l handle => Sys2Proof.Machine.execBufCmdRequest c l handle s
  | .requestTimeout c l msgid => Sys2Proof.Machine.execRequestTimeout c l msgid s
  | .localFrameBoundary parts => Sys2Proof.Machine.execLocalFrameBoundary parts s
  | .hlFrameReceived l comma k1 o1 bytes => Sys2Proof.Machine.execHlFrameReceived l comma k1 o1 bytes s
  | .mdcFrameReceived l octets bad => Sys2Proof.Machine.execMdcFrameReceived l octets bad s
  | .mdcTxStart l => Sys2Proof.Machine.execMdcTxStart l s
  | .mdcRetry l => Sys2Proof.Machine.execMdcRetry l s
  | .mdcGiveup l => Sys2Proof.Machine.execMdcGiveup l s
  | .nodeXchNop l slot op3 h sub => Sys2Proof.Machine.execNodeXchNop l slot op3 h sub s
  | .nodeXchRead l slot h missed sub => Sys2Proof.Machine.execNodeXchRead l slot h missed sub s
  | .nodeXchWrite l slot h data hcrc sub => Sys2Proof.Machine.execNodeXchWrite l slot h data hcrc sub s
  | .hlEnable l => Sys2Proof.Machine.execHlEnable l s
  | .hlCmdResync l => Sys2Proof.Machine.execHlCmdResync l s
  | .tsiCmdCopy c => Sys2Proof.Machine.execTsiCmdCopy c s
  | .tsiCopyDone => Sys2Proof.Machine.execTsiCopyDone s
  | .tsiSwapReq c admMask => Sys2Proof.Machine.execTsiSwapReq c admMask s
  | .tsiSwapCancel c => Sys2Proof.Machine.execTsiSwapCancel c s
  | .tsiEntryWrite c k w => Sys2Proof.Machine.execTsiEntryWrite c k w s
  | .pmSecond => Sys2Proof.Machine.execPmSecond s
  | .pmBinPlace => Sys2Proof.Machine.execPmBinPlace s
  | .runTimeMs => Sys2Proof.Machine.execRunTimeMs s
  | .pmSelWrite w => Sys2Proof.Machine.execPmSelWrite w s
  | .pmWinReady => Sys2Proof.Machine.execPmWinReady s
  | .rsRecordWrite pages retries fails badErase => Sys2Proof.Machine.execRsRecordWrite pages retries fails badErase s
  | .rsScan bad => Sys2Proof.Machine.execRsScan bad s
  | .smbXferWrite k c w => Sys2Proof.Machine.execSmbXferWrite k c w s
  | .smbTransferEnd k code data => Sys2Proof.Machine.execSmbTransferEnd k code data s
  | .smbClockLowTimeout k => Sys2Proof.Machine.execSmbClockLowTimeout k s
  | .smbCmdAbort k => Sys2Proof.Machine.execSmbCmdAbort k s
  | .smbCmdClrstuck k => Sys2Proof.Machine.execSmbCmdClrstuck k s
  | .smbEnable k => Sys2Proof.Machine.execSmbEnable k s
  | .smbBusCheck k sda => Sys2Proof.Machine.execSmbBusCheck k sda s
  | .smbBusClear k freed => Sys2Proof.Machine.execSmbBusClear k freed s
  | .smbStuckRetry k => Sys2Proof.Machine.execSmbStuckRetry k s
  | .packSwapRead => Sys2Proof.Machine.execPackSwapRead s
  | .smbPcmdReread => Sys2Proof.Machine.execSmbPcmdReread s
  | .packRetry => Sys2Proof.Machine.execPackRetry s
  | .packAuthWait => Sys2Proof.Machine.execPackAuthWait s
  | .packPoll => Sys2Proof.Machine.execPackPoll s
  | .mspRxFrame m => Sys2Proof.Machine.execMspRxFrame m s
  | .rollCallSlot answer => Sys2Proof.Machine.execRollCallSlot answer s
  | .fltRecord f => Sys2Proof.Machine.execFltRecord f s
  | .censusMismatch => Sys2Proof.Machine.execCensusMismatch s
  | .supRestart => Sys2Proof.Machine.execSupRestart s
  | .fltCmdFence kind index => Sys2Proof.Machine.execFltCmdFence kind index s
  | .fltCmdReadmit kind index => Sys2Proof.Machine.execFltCmdReadmit kind index s
  | .fltCmdClrlog => Sys2Proof.Machine.execFltCmdClrlog s
  | .fltLogfullClear => Sys2Proof.Machine.execFltLogfullClear s
  | .svcHello tag => Sys2Proof.Machine.execSvcHello tag s
  | .svcPass tag p => Sys2Proof.Machine.execSvcPass tag p s
  | .svcRead tag p => Sys2Proof.Machine.execSvcRead tag p s
  | .svcWrite tag p => Sys2Proof.Machine.execSvcWrite tag p s
  | .svcClose tag p => Sys2Proof.Machine.execSvcClose tag p s
  | .svcReset tag p => Sys2Proof.Machine.execSvcReset tag p s
  | .svcResetExec also => Sys2Proof.Machine.execSvcResetExec also s
  | .svcBadFrame b => Sys2Proof.Machine.execSvcBadFrame b s
  | .svcByteTimeout => Sys2Proof.Machine.execSvcByteTimeout s
  | .svcSessionExpire => Sys2Proof.Machine.execSvcSessionExpire s
  | .svcIdleTimeout => Sys2Proof.Machine.execSvcIdleTimeout s
  | .updDataWrite c w => Sys2Proof.Machine.execUpdDataWrite c w s
  | .updBegin c => Sys2Proof.Machine.execUpdBegin c s
  | .updBlock c n => Sys2Proof.Machine.execUpdBlock c n s
  | .updBlockProgrammed ok => Sys2Proof.Machine.execUpdBlockProgrammed ok s
  | .updEnd c => Sys2Proof.Machine.execUpdEnd c s
  | .updVerifyDone => Sys2Proof.Machine.execUpdVerifyDone s
  | .updActivate c => Sys2Proof.Machine.execUpdActivate c s
  | .updAbort c => Sys2Proof.Machine.execUpdAbort c s
  | .updConfirm => Sys2Proof.Machine.execUpdConfirm s
  | .updConfirmTimeout => Sys2Proof.Machine.execUpdConfirmTimeout s
  | .updAgentStart => Sys2Proof.Machine.execUpdAgentStart s
  | .nodeResponseTimeout => Sys2Proof.Machine.execNodeResponseTimeout s
  | .nodeBootTimeout => Sys2Proof.Machine.execNodeBootTimeout s
  | .tapExtest cells => Sys2Proof.Machine.execTapExtest cells s
  | .tapSamplePreload cells => Sys2Proof.Machine.execTapSamplePreload cells s
  | .tapClamp => Sys2Proof.Machine.execTapClamp s
  | .tapHighz => Sys2Proof.Machine.execTapHighz s
  | .tapBypass => Sys2Proof.Machine.execTapBypass s
  | .tapReset rise => Sys2Proof.Machine.execTapReset rise s
  | .pwrStateRead => Sys2Proof.Machine.execPwrStateRead s
  | .ttLatRead => Sys2Proof.Machine.execTtLatRead s
  | .dmaRemRead c => Sys2Proof.Machine.execDmaRemRead c s
  | .hpCntRead k => Sys2Proof.Machine.execHpCntRead k s
  | .hlCntRead l k => Sys2Proof.Machine.execHlCntRead l k s
  | .smbCntRead k => Sys2Proof.Machine.execSmbCntRead k s
  | .mspCntRead m k => Sys2Proof.Machine.execMspCntRead m k s
  | .svcCntRead => Sys2Proof.Machine.execSvcCntRead s
  | .rsCntRead => Sys2Proof.Machine.execRsCntRead s
  | .registerWrite p c a w => Sys2Proof.Machine.execRegisterWrite p c a w s
  | .hlCommaDetect l k285 complement => Sys2Proof.Machine.execHlCommaDetect l k285 complement s
  | .hlRawLosChange l los => Sys2Proof.Machine.execHlRawLosChange l los s
  | .itripPairDisagree n differ => Sys2Proof.Machine.execItripPairDisagree n differ s
  | .mspRxByte m b ferr => Sys2Proof.Machine.execMspRxByte m b ferr s
  | .mspTxByte m cts => Sys2Proof.Machine.execMspTxByte m cts s

end Sys2Proof.Machine
end

