-- ==== Sys2Proof/Machine/Tick.lean ====
section
/-!
DEFINITION. Machine/Tick.lean: one core cycle in which no command comes (04 R122, R840; DESIGN CHOICE, log 2).
-/
namespace Sys2Proof.Machine.State

/-- The messages of which this cycle is the last are given up; an acknowledgement of the cycle counts as late (15 R593, R603,
R604). -/
def giveUps (s : State) : State :=
  s.cyc.giveups.foldl (fun s g =>
    let s := campGiveup s (s.giveUp g.1)
    if g.2 && (s.link g.1).gone.isSome then s.lateAck g.1 else s) s

/-- What waits for the end of the cycle: FLT's lifts, responses, give-ups, admitted events, and the pin sequencers' flags and pads (14 R556,
R557; 15 R603, R604; 09 R366, R373; 19 R718, R719). (DESIGN CHOICE, log 2.) -/
def endCycle (s : State) (on : Bool) : State :=
  let s := s.settleLifts.matchAll.giveUps.admitAll
  let s := if on then foldFin 8 (fun e s => s.psEnd e) (foldFin 64 (fun n s => s.shiftStage n) s) else s
  if s.pwr.pd1Up then s.irqCycle else s

/-- The frame counter of the links, from the release of PD5; at a boundary what the TSI judges is kept (15 R568; 16 R614,
R616). (DESIGN CHOICE, log 2.) -/
def frameCycle (s : State) (on : Bool) : State :=
  if !on then s.modTsi fun t => { t with frameCnt := 0 }
  else
    let v : FrameView := { tsi := s.tsi, hl := s.hl, meFenced := s.me.st == .fenced, recs := s.sc.recs }
    let s := s.modTsi fun t => { t with frameCnt := t.frameCnt + 1 }
    if 50000 ≤ s.tsi.frameCnt then s.modCyc fun y => { y with bound := some v } else s

/-- A core cycle: what waits for its end is settled, time passes, and the next cycle begins: TB counts while the core clock
runs, and each block moves on. (DESIGN CHOICE, log 2, DESIGN CHOICE, log 92.) -/
def coreCycle (s : State) : State :=
  let on := s.tbs.run && s.pwr.pdUp
  let s := s.endCycle on
  let s : State := { s with time := s.time + 1, cyc := {} }
  let s := if s.tbs.run then s.modTbs fun t => { t with tb := t.tb + 1 } else s
  let s := (s.frameCycle on).applyCuts.rsCycle
  if on then (foldFin 8 (fun e s => s.psBegin e) s.channelCycle.angleCycle.timetableCycle).sigCycle |> foldFin 8 (fun c s => s.dmaCycle c) else s

end Sys2Proof.Machine.State
end

