-- ==== Sys2Proof/WellFormed.lean ====
section
/-!
DEFINITION. WellFormed.lean: the operands the spec gives a command room for.
-/
namespace Sys2Proof

/-- The command's operands are ones its rule describes. Widths hold by type; here are the forbidden register and field
values of the microengine (08 R314, R323–R340), and the lengths and alignments of what arrives from outside. -/
def WellFormed : Instr → Bool
  | .xadd g _ ra _ => !g || decide (ra.val < 8)
  | .xchg g _ ra _ => !g || decide (ra.val < 8)
  | .xset g _ ra _ => !g || decide (ra.val < 8)
  | .xclr g _ ra _ => !g || decide (ra.val < 8)
  | .cas g _ ra _ => !g || decide (ra.val < 8)
  | .b cond _ => decide (cond.val ≠ 15)
  | .sched _ ra => decide (ra.val % 4 = 0)
  | .edge _ _ _ _ chr ch => !chr || decide (ch = 0)
  | .snap rd re sel => decide (rd ≠ re) && decide (sel.toNat ≤ 64)
  | .att rd re _ dom => decide (rd ≠ re) && decide (dom ≠ 3)
  -- 10 R405: a fingerprint has 64 taps
  | .sigMeasurementEnd f => decide (f.length = 64)
  -- 11 R424: an access is aligned to its size and lies in the banks or the apertures
  | .bankAccessGrant q _ =>
    match q with
    | .read a n => decide (a.toNat % 2 ^ n.val = 0) && Machine.isMemAddr a.toNat
    | .write a n _ => decide (a.toNat % 2 ^ n.val = 0) && Machine.isMemAddr a.toNat
    | _ => true
  -- 13 Table 13.1: a WRITE carries LEN words, and a READ samples no more words than it asks for
  | .hpRead _ h missed => missed.all fun k => decide (k.val < h.words)
  | .hpWrite _ h data _ => decide (data.length = h.words)
  | .nodeXchRead _ _ h missed _ => missed.all fun k => decide (k.val < h.words)
  | .nodeXchWrite _ _ h data _ _ => decide (data.length = h.words)
  -- 00 R7: a register address is a word address
  | .registerWrite _ _ a _ => decide (a.toNat % 4 = 0)
  -- 15 Table 15.1: a frame is 272 characters; O0 and O1 are told apart
  | .hlFrameReceived _ _ _ _ bytes => decide (bytes.length = 270)
  | .localFrameBoundary parts => decide (parts.length = 4)
  -- 18 R675: at most 32 data bytes
  | .smbTransferEnd _ _ data => decide (data.length ≤ 32)
  | _ => true

end Sys2Proof
end

