-- ==== Sys2Proof/Safety.lean ====
section
/-!
DEFINITION. Safety.lean: what counts as a safe step and a canonical state, in the terms the statements use.
-/
namespace Sys2Proof.Machine

/-- The step does not stop. -/
def Runs (s : State) : Prop := ∃ t, step s = .next t

/-- Bank memory is in its canonical form: addresses strictly rising, no byte equal to what an unlisted address reads as. -/
def MemCanonical (s : State) : Prop := Memory.wf s.mem.cells = true

/-- The calendar, the client records and the connection memory are in their canonical form. -/
def TablesCanonical (s : State) : Prop :=
  cellWf {} s.tt.cal = true ∧ cellWf {} s.sc.recs = true ∧ cellWf 0 s.tsi.conn = true

/-- No FIFO of a pin sequencer holds more than its 8 words (09 R372). -/
def FifosBounded (s : State) : Prop :=
  ∀ e : Fin 8, (at_ s.ps.eng e).tx.length ≤ 8 ∧ (at_ s.ps.eng e).rx.length ≤ 8

/-- Every waiting command has operands its rule describes. -/
def QueueWellFormed (s : State) : Prop := ∀ c ∈ s.pending, WellFormed c = true

/-- The parts of the state, by field: all of it but `cyc`, the marks of the core cycle in hand, which hold no register, FIFO,
buffer or pin of the device (DESIGN CHOICE, log 92). -/
inductive Part
  | boot | xf | otp | pwr | canopy | tbs | chans | groves | ads | pls | tt | me | ps | afe | sc | mem | cw | dma
  | intc | hp | hl | tsi | smb | pack | msp | flt | upd | svc | pm | rs | pins | reports | rdata | time | freeCtr | pending
  deriving DecidableEq, Repr

/-- A part is the same in two states. -/
def Part.Same (s t : State) : Part → Prop
  | .boot => t.boot = s.boot
  | .xf => t.xf = s.xf
  | .otp => t.otp = s.otp
  | .pwr => t.pwr = s.pwr
  | .canopy => t.canopy = s.canopy
  | .tbs => t.tbs = s.tbs
  | .chans => t.chans = s.chans
  | .groves => t.groves = s.groves
  | .ads => t.ads = s.ads
  | .pls => t.pls = s.pls
  | .tt => t.tt = s.tt
  | .me => t.me = s.me
  | .ps => t.ps = s.ps
  | .afe => t.afe = s.afe
  | .sc => t.sc = s.sc
  | .mem => t.mem = s.mem
  | .cw => t.cw = s.cw
  | .dma => t.dma = s.dma
  | .intc => t.intc = s.intc
  | .hp => t.hp = s.hp
  | .hl => t.hl = s.hl
  | .tsi => t.tsi = s.tsi
  | .smb => t.smb = s.smb
  | .pack => t.pack = s.pack
  | .msp => t.msp = s.msp
  | .flt => t.flt = s.flt
  | .upd => t.upd = s.upd
  | .svc => t.svc = s.svc
  | .pm => t.pm = s.pm
  | .rs => t.rs = s.rs
  | .pins => t.pins = s.pins
  | .reports => t.reports = s.reports
  | .rdata => t.rdata = s.rdata
  | .time => t.time = s.time
  | .freeCtr => t.freeCtr = s.freeCtr
  | .pending => t.pending = s.pending

/-- From s to t every part is unchanged except, at most, the ones listed. -/
def OnlyChanges (ps : List Part) (s t : State) : Prop := ∀ p : Part, p ∉ ps → p.Same s t

/-- The listed parts are the same in two states. -/
def Keeps (ps : List Part) (s t : State) : Prop := ∀ p ∈ ps, p.Same s t

/-- From s the command answers a next state in which P holds, and every part not listed is unchanged. -/
def Completes (c : Instr) (s : State) (ps : List Part) (P : State → Prop) : Prop :=
  ∃ t, exec c s = .next t ∧ P t ∧ OnlyChanges ps s t

/-- PD1–PD7 are at their reset values: every part but the ones a reset keeps or sets from the pins and supplies. -/
def DomainsAtReset (t : State) : Prop :=
  OnlyChanges [.xf, .otp, .pwr, .canopy, .rs, .pins, .upd, .rdata, .time, .freeCtr, .pending] State.reset t

/-- What a reset of PD1–PD7 with the given cause leaves: the domains at their reset values, the Canopy with the cause in
GLB_RST and saved retention discarded, COMPAT taken from the strap, the loader about to run; flash and OTP as they were. -/
def AfterReset (s t : State) (cause : Nat) : Prop :=
  DomainsAtReset t ∧ Keeps [.xf, .otp, .rdata, .time, .freeCtr, .pending] s t ∧
  t.canopy = { s.canopy with cause := .ofNat 4 cause, retValid := false, catch_ := 0 } ∧
  t.pwr.compat = s.pins.compat ∧ t.pwr.refuse = 0 ∧ t.pwr.dozeEn = false

/-! ## The microengine's instructions -/

/-- The commands of a load, a store and an atomic. -/
def LdOp.command (op : LdOp) (rd ra : Fin 16) (imm : BitVec 18) : Instr :=
  match op with
  | .ldw => .ldw rd ra imm
  | .ldh => .ldh rd ra imm
  | .ldhu => .ldhu rd ra imm
  | .ldb => .ldb rd ra imm
  | .ldbu => .ldbu rd ra imm
def StOp.command (op : StOp) (rd ra : Fin 16) (imm : BitVec 18) : Instr :=
  match op with
  | .stw => .stw rd ra imm
  | .sth => .sth rd ra imm
  | .stb => .stb rd ra imm
def AtomOp.command (op : AtomOp) (g : Bool) (rd ra rb : Fin 16) : Instr :=
  match op with
  | .xadd => .xadd g rd ra rb
  | .xchg => .xchg g rd ra rb
  | .xset => .xset g rd ra rb
  | .xclr => .xclr g rd ra rb
  | .cas => .cas g rd ra rb

/-- The engine issues i now: its domain is out of reset, it can issue, the store word at PC has no wrong bit and encodes i,
and no register i uses still waits for the Timetable (08 R313, R316, R317). -/
def State.Issues (s : State) (i : MeInstr) : Prop :=
  s.pwr.pdUp = true ∧ s.meCan = true ∧ cellRead 0 s.me.storeErr s.pc.toNat = 0 ∧ meDecode (cellRead 0 s.me.store s.pc.toNat) = some i ∧
    i.regs.any s.pendingReg = false

/-- A frame without what an instruction changes in it. -/
def Frame.shell (f : Frame) : Frame := { f with w := .replicate 8 0, flags := 0, pc := 0 }

/-- In the microengine nothing changes but the registers, flags and PC of the current window, G0–G7 and the requests held. -/
def OnlyWindow (s t : State) : Prop :=
  t.me = { s.me with g := t.me.g, frames := t.me.frames, trapWin := t.me.trapWin, outbox := t.me.outbox } ∧
  t.me.frames.map Frame.shell = s.me.frames.map Frame.shell ∧ t.me.frames.tail = s.me.frames.tail ∧
  t.me.trapWin.map Frame.shell = s.me.trapWin.map Frame.shell ∧ (s.inTrap = true → t.me.frames = s.me.frames)

/-- What holds after an instruction that leaves these registers, these flags and this PC, and holds these new requests. -/
def Left (s t : State) (vals : Fin 16 → Word) (f : Flags) (pc : BitVec 13) (reqs : List MeReq) : Prop :=
  (∀ r, t.reg r = vals r) ∧ t.flags = f ∧ t.pc = pc ∧ t.me.outbox = s.me.outbox ++ reqs ∧ OnlyWindow s t

/-- The command completes in the microengine alone, and leaves that. -/
def Retires (c : Instr) (s : State) (vals : Fin 16 → Word) (f : Flags) (pc : BitVec 13) (reqs : List MeReq) : Prop :=
  Completes c s [.me] fun t => Left s t vals f pc reqs

/-- A trap taken with its handler enabled: recorded in the ME_TRAP registers, window 0 opened at TRAPENTRY with W0 to W3 of
07 R291, a fault counted against the owner, and nothing else of the engine changed. -/
def EntersTrap (c : Instr) (s : State) (code : Nat) (addr : Option Word) : Prop :=
  Completes c s [.me, .sc, .freeCtr] fun t =>
    t.me.trapCode.toNat = code ∧ t.me.trapOwner = s.meOwner ∧ t.me.trapPc = s.pc ∧ (∀ a, addr = some a → t.me.trapAddr = a) ∧
    t.me.st = .trap ∧ t.me.frames = s.me.frames ∧ t.me.outbox = s.me.outbox ∧ t.me.g = s.me.g ∧ t.me.sig = s.me.sig ∧
    (t.client s.meOwner).faults = satInc (s.client s.meOwner).faults ∧
    ∃ f : Frame, t.me.trapWin = some f ∧ f.flags = 0 ∧ f.pc = s.me.trapEntry ∧ f.win = 0 ∧
      f.w = #v[.ofNat 32 code, (s.curFrame.getD {}).desc, s.pc.setWidth 32, t.me.trapAddr, 0, 0, 0, 0]

end Sys2Proof.Machine
end

