-- ==== Sys2Proof/Certificates/Slice0/Obligations.lean ====
section
/-!
DEFINITION. Certificates/Slice0/Obligations.lean: the statements for the provers.
-/
open Sys2Proof Sys2Proof.Machine

/-! ## The queue, the step and the invariants -/

/-- A step runs the command at the front of the queue with the queue's rest, for every command and state. -/
def Obligations.StepRunsFrontCommand : Prop :=
  ∀ (c : Instr) (rest : List Instr) (s : State),
    step { s with pending := c :: rest } = exec c { s with pending := rest }

/-- With no command waiting a step is one core cycle (the model's choice, log 2): the model's time goes up by one; TB counts
modulo 2^48 while it runs and nothing else of the timebase changes; every grove's prescaler count goes up by one while TB
runs and PD2 and PD3 are up, and stands otherwise; and the start-up registers, flash, OTP, power state, Canopy, circular
windows, host port, management serial ports, service port, pins, the last read value and the queue are as they were. -/
def Obligations.IdleStepIsOneCoreCycle : Prop :=
  ∀ s : State, s.pending = [] →
    ∃ t, step s = .next t ∧ t.time = s.time + 1 ∧
      t.tbs = { s.tbs with tb := if s.tbs.run then s.tbs.tb + 1 else s.tbs.tb } ∧
      (∀ g, (t.grove g).pscCount =
        if s.tbs.run && s.pwr.pdUp then (s.grove g).pscCount + 1 else (s.grove g).pscCount) ∧
      Keeps [.boot, .xf, .otp, .pwr, .canopy, .cw, .hp, .msp, .svc, .pins, .rdata, .pending] s t

/-- No command is ever refused, and the only fault is a bank port access at an address that neither a bank nor an
aperture has (11 R424, R433); a command whose operands its rule describes always answers a next state. -/
def Obligations.OnlyFaultIsAnAbsentAddress : Prop :=
  ∀ (c : Instr) (s : State),
    (WellFormed c = true → ∃ t, exec c s = .next t) ∧
    ((∃ t, exec c s = .next t) ∨
    (exec c s = .fault .noAddress ∧
      ((∃ a n flips, c = .bankAccessGrant (.read a n) flips ∧ ¬ (0x20000 ≤ a.toNat ∧ a.toNat < 0x80000)) ∨
       (∃ a n d flips, c = .bankAccessGrant (.write a n d) flips ∧ ¬ (0x20000 ≤ a.toNat ∧ a.toNat < 0x80000)))))

/-- A queue of well-formed commands runs to its end: after k steps no step has stopped, and exactly the first k commands
have left the queue (past the end of the queue the steps are core cycles). -/
def Obligations.QueueRunsToItsEnd : Prop :=
  ∀ (k : Nat) (s : State), QueueWellFormed s →
    ∃ t, Host.Core.run Sys2Proof.core k s = .next t ∧ t.pending = s.pending.drop k ∧ QueueWellFormed t

/-- Every step keeps bank memory in its canonical form: addresses strictly rising, no byte listed that equals what an
unlisted address reads as. -/
def Obligations.MemoryStaysCanonical : Prop :=
  ∀ s t : State, MemCanonical s → step s = .next t → MemCanonical t

/-- Every step keeps the calendar, the client records and the connection memory in their canonical form: keys strictly
rising, no entry listed that equals an unlisted one. -/
def Obligations.TablesStayCanonical : Prop :=
  ∀ s t : State, TablesCanonical s → step s = .next t → TablesCanonical t

/-- No step lets a FIFO of a pin sequencer hold more than its 8 words. -/
def Obligations.FifosNeverOverfill : Prop :=
  ∀ s t : State, FifosBounded s → step s = .next t → FifosBounded t

/-- The invariants hold right after reset, where nothing waits. -/
def Obligations.InvariantsHoldAtReset : Prop :=
  MemCanonical State.reset ∧ TablesCanonical State.reset ∧ FifosBounded State.reset ∧ QueueWellFormed State.reset ∧ State.reset.pending = []

/-! ## Supplies, resets, start-up, PARK and the clocks (02, 03) -/

/-- Every reset of PD1–PD7 leaves the domains at their reset values, the cause of Table 3.9 in GLB_RST and no saved
retention (03 R93, R96, R111, R112, R121), also with a second source `also` of the same cycle, of which the lower code is
named; a Canopy power-on reset clears the Canopy too (R97); a fall of VIO resets the domains with every channel in Clearing,
saves nothing and keeps the Canopy (R74, R75); a command of any of these where it does not apply changes nothing. -/
def Obligations.ResetsNameTheirCause : Prop :=
  ∀ s : State,
    (s.pwr.vioGood = false → s.cyc.reset = none → ∃ t, exec .vioRise s = .next t ∧ AfterReset s t 2 ∧ t.pwr.vioGood = true) ∧
    (s.pwr.vioGood = true → ∃ t, exec .vioFall s = .next t ∧ DomainsAtReset t ∧ t.pwr.vioGood = false ∧ t.pwr.st = .off ∧
      t.canopy = s.canopy ∧ ∀ n, (t.chan n).o.inClr = true) ∧
    (∃ t, exec .canopyPor s = .next t ∧ DomainsAtReset t ∧ t.canopy = { State.reset.canopy with secAt := s.time } ∧
      t.canopy.cause = 1 ∧ t.canopy.rtcValid = false ∧ Keeps [.xf, .otp] s t) ∧
    (∀ also : Fin 9, s.pwr.vioGood = true → s.cyc.reset = none → also ≠ 1 →
      ∃ t, exec (.pinReset also) s = .next t ∧ AfterReset s t (if 2 ≤ also.val then min 3 also.val else 3)) ∧
    (∀ also : Fin 9, s.cyc.reset = none → also ≠ 1 →
      ∃ t, exec (.pwrCmdReset 0x5A3C also) s = .next t ∧ AfterReset s t (if 2 ≤ also.val then min 5 also.val else 5)) ∧
    (s.boot.st = .clockHold → s.cyc.reset = none → ∃ t, exec .clkholdRetry s = .next t ∧ AfterReset s t 8) ∧
    (∀ c : Fin 16, s.cyc.reset = some c →
      ∃ t, exec (.pwrCmdReset 0x5A3C 0) s = .next t ∧ AfterReset s t (min c.val 5)) ∧
    (s.pwr.vioGood = true → Completes .vioRise s [] fun _ => True) ∧
    (s.pwr.vioGood = false → Completes .vioFall s [] (fun _ => True) ∧ ∀ also, Completes (.pinReset also) s [] fun _ => True) ∧
    (s.boot.st ≠ .clockHold → Completes .clkholdRetry s [] fun _ => True) ∧
    (∀ (key : BitVec 16) (also : Fin 9), key ≠ 0x5A3C →
      Completes (.pwrCmdReset key also) s [.pwr] fun t => t.pwr = { s.pwr with refuse := 2 })

/-- The start sequence: the PLL lock starts TB; 10 ms without it is CLOCK_HOLD with 0x20; a flash that does not identify
itself is NO_BUNDLE with 0x24 and the boot ROM's service, with PD2–PD5 as they were; otherwise the sequence ends in
NO_BUNDLE, in NO_CONFIG, with the configuration applied at the time given (RUNNING or UNLOCKED), or, where a group of the
record commands a reset, with PD2–PD7 in reset (02 R37, R41, R53, R60, R65, R69; 04 R840). -/
def Obligations.StartSequenceEnds : Prop :=
  ∀ (s : State) (tApply tLock : Word) (stuck : Bool), s.boot.st = .loading → s.pwr.pd1Up = true →
    (s.pwr.pllLock = false →
      Completes .pllLocked s [.pwr, .tbs] fun t =>
        t.tbs = { s.tbs with run := true } ∧ t.pwr = { s.pwr with pllLock := true, coreOnRc := false, refOk := true }) ∧
    (s.pwr.pllLock = false →
      Completes .pllLockTimeout s [.boot] fun t =>
        t.boot = { s.boot with st := .clockHold, loaderErr := 0x20, open_ := decide (s.otp.fleetHash = 0) }) ∧
    (s.pwr.vioGood = true → ∃ t, exec (.startSequence tApply tLock stuck) s = .next t ∧
      (t.boot.st = .noBundle ∨ t.boot.st = .noConfig ∨ t.pwr.pdUp = false ∨
        ((t.boot.st = .running ∨ t.boot.st = .unlocked) ∧ t.boot.applied = true ∧ t.boot.tApply = tApply)) ∧
      (s.xf.size = 0 → t.boot.st = .noBundle ∧ t.boot.loaderErr = 0x24 ∧ t.svc.rom = true ∧
        Keeps [.chans, .groves, .ads, .pls, .tt, .me, .ps, .mem, .cw, .dma, .hp, .hl, .tsi] s t) ∧
      (s.xf.size = 0 → s.pwr.pllLock = false → t.tb = .ofNat 48 (200 * (tApply.toNat - tLock.toNat)) ∧ t.tbs.run = true))

/-- The configuration locks by a write of GLB_LOCK.LOCK from a client with GLB-class write rights, or when LOCK_DEADLINE
elapses: GLB_LOCK.LOCK reads 1, the state is RUNNING, nothing else of the start-up registers changes, and the groves of
START_MASK take their start in ascending order, and only they; a write of 0, or one without the rights, changes nothing
(02 R60, R61, R63). -/
def Obligations.ConfigurationLocks : Prop :=
  ∀ (s : State) (client : Fin 256), s.boot.applied = true → s.boot.locked = false → s.cyc.rwl = [] →
    let locked : State := { s with boot := { s.boot with locked := true, st := .running } }
    let started : State := foldFin 8 (fun g u => if bit s.boot.startMask g.val then u.releaseGrove g else u) locked
    (s.permits client 0x24 true 1 = true →
      exec (.glbLockWrite client true) s = .next started ∧
      Completes (.glbLockWrite client true) s [.boot, .chans, .groves, .tt] fun t =>
        t.boot = { s.boot with locked := true, st := .running } ∧ (s.boot.startMask = 0 → OnlyChanges [.boot] s t)) ∧
    Completes (.glbLockWrite client false) s [] (fun _ => True) ∧
    (s.permits client 0x24 true 1 = false → Completes (.glbLockWrite client true) s [] fun _ => True) ∧
    (s.boot.st = .unlocked → reached s.tb s.boot.lockAt = true →
      exec .lockDeadlineExpiry s = .next started ∧
      Completes .lockDeadlineExpiry s [.boot, .chans, .groves, .tt] fun t =>
        t.boot = { s.boot with locked := true, st := .running } ∧ (s.boot.startMask = 0 → OnlyChanges [.boot] s t)) ∧
    (s.boot.st = .unlocked → reached s.tb s.boot.lockAt = false → Completes .lockDeadlineExpiry s [] (fun _ => True))

/-- PWR_CMD PARK and OFF are accepted only in RUN with the configuration locked, the key, no slot in WRITING and no
session: the device is then ENTERING with every channel in Clearing for cause PARK, no service request left and TB noted;
otherwise only REFUSE changes, to the code of Table 3.12 (03 R78, R114). -/
def Obligations.ParkEntryIsGuarded : Prop :=
  ∀ (s : State) (key : BitVec 16),
    (s.pwr.st = .run → s.boot.locked = true → s.slotWriting = false → s.svc.open_ = false →
      ∀ off : Bool, ∃ t, exec (if off then .pwrCmdOff 0x5A3C else .pwrCmdPark 0x5A3C) s = .next t ∧
        t.pwr.st = .entering ∧ t.pwr.toOff = off ∧ t.pwr.tbPark = s.tb ∧ t.tb = s.tb ∧ t.tt.reqs = [] ∧ t.hp.queue = [] ∧
        (∀ n, bit (t.chan n).o.clr 8 = true ∧ (t.chan n).o.inClr = true) ∧
        OnlyChanges [.pwr, .chans, .ads, .tt, .me, .ps, .afe, .sc, .mem, .hp, .hl, .tsi, .smb, .pack, .flt] s t) ∧
    (∀ c ∈ [Instr.pwrCmdPark key, .pwrCmdOff key],
      (s.pwr.st ≠ .run → Completes c s [.pwr] fun t => t.pwr = { s.pwr with refuse := 5 }) ∧
      (s.pwr.st = .run → s.boot.locked = false → Completes c s [.pwr] fun t => t.pwr = { s.pwr with refuse := 1 }) ∧
      (s.pwr.st = .run → s.boot.locked = true → key ≠ 0x5A3C →
        Completes c s [.pwr] fun t => t.pwr = { s.pwr with refuse := 2 }) ∧
      (s.pwr.st = .run → s.boot.locked = true → key = 0x5A3C → s.slotWriting = true →
        Completes c s [.pwr] fun t => t.pwr = { s.pwr with refuse := 3 }) ∧
      (s.pwr.st = .run → s.boot.locked = true → key = 0x5A3C → s.slotWriting = false → s.svc.open_ = true →
        Completes c s [.pwr] fun t => t.pwr = { s.pwr with refuse := 4 }))

/-- At the end of the restore each pending bit is the OR of its saved pending bit and its catch bit, and the catch register
is clear: on a wake from PARK, on a wake from OFF with RET_VALID, and when a wake turns a PARK entry back. A source that
becomes pending while PD1 is down sets its catch bit and nothing else. -/
def Obligations.RetentionRestoresPending : Prop :=
  ∀ (s : State) (src : BitVec 10) (n : Fin 192),
    (s.pwr.st = .park → src &&& s.canopy.wakeEn ≠ 0 →
      Completes (.wakeLatch src) s [.canopy, .pwr, .intc, .pins, .flt, .upd] fun t =>
        t.intc.pend = s.canopy.retPend ||| s.canopy.catch_ ∧ t.canopy.catch_ = 0 ∧ t.canopy.retValid = false ∧
        t.canopy.wakeSrc = s.canopy.wakeSrc ||| src ∧ t.pwr.st = .exiting) ∧
    (s.pwr.st = .off → s.pwr.vioGood = true → s.canopy.wakeSrc &&& s.canopy.wakeEn ≠ 0 → s.canopy.retValid = true →
      s.cyc.reset = none →
      ∃ t, exec .wakeFromOff s = .next t ∧ t.intc.pend = s.canopy.retPend ||| s.canopy.catch_ ∧ t.canopy.catch_ = 0 ∧
        t.intc.pri = s.canopy.retPri ∧ t.canopy.cause = 4 ∧ t.canopy.retValid = false ∧ t.boot.st = .loading) ∧
    (s.pwr.st = .entering → s.rs.op = false → s.pwr.wakeEntry = true → s.pwr.faultEntry = false →
      Completes .parkEntryComplete s [.canopy, .pwr, .intc] fun t =>
        t.intc.pend = s.intc.pend ||| s.intc.insv ||| s.canopy.catch_ ∧ t.canopy.catch_ = 0 ∧ t.pwr.st = .exiting) ∧
    (s.pwr.pd1Up = false → s.lineOf n.val = true → reservedSrc n.val = false →
      Completes (.intcPend n) s [.canopy] fun t =>
        t.canopy = { s.canopy with catch_ := s.canopy.catch_ ||| oneBit 192 n.val })

/-- The end of PARK entry, which waits for the record store's operation in progress, saves the INTC fields, sets RET_VALID,
and leaves PARK or OFF with TB's value kept (PARK) and the channel pins at the Clearing levels they held; the exit restarts
TB where it stood and keeps the lock over the re-apply; the end of the re-apply reaches RUN (03 R80, R82, R85, R86, R93). -/
def Obligations.ParkEntryEndsAndExits : Prop :=
  ∀ (s : State) (ticks : Word),
    let saved : Canopy := { s.canopy with
      retPend := s.intc.pend ||| s.intc.insv, retS := s.intc.sen, retPen := s.intc.pen, retPri := s.intc.pri,
      retThr := s.intc.thr, retPcfg := s.intc.pcfg, retValid := true }
    let levels := (List.finRange 64).map fun n => (n.val, (s.chan n).o.clrLvl)
    (s.pwr.st = .entering → s.rs.op = true → Completes .parkEntryComplete s [] fun _ => True) ∧
    (s.pwr.st = .entering → s.rs.op = false → s.pwr.wakeEntry = false → s.pwr.toOff = false →
      ∃ t, exec .parkEntryComplete s = .next t ∧ t.pwr.st = .park ∧ t.canopy = saved ∧ t.tb = s.pwr.tbPark ∧
        t.tbs.run = false ∧ t.pwr.pdUp = false ∧ t.pwr.pd1Up = false ∧ t.mem.cells = s.mem.cells ∧
        t.pins = { s.pins with keeper := levels } ∧ Keeps [.xf, .otp, .boot, .time] s t) ∧
    (s.pwr.st = .entering → s.rs.op = false → s.pwr.wakeEntry = false → s.pwr.toOff = true →
      ∃ t, exec .parkEntryComplete s = .next t ∧ t.pwr.st = .off ∧ DomainsAtReset t ∧ t.canopy = saved ∧
        t.pins = { s.pins with keeper := levels } ∧ Keeps [.xf, .otp, .time] s t) ∧
    (s.pwr.st = .exiting →
      ∃ t, exec (.parkExitPllLock ticks) s = .next t ∧ (t.pwr.pdUp = true → t.boot.locked = s.boot.locked) ∧
        (s.boot.record = [] → t.pwr.pdUp = s.boot.applied ∧ t.pwr.pllLock = true ∧ t.tbs.run = true ∧ t.tb = s.tb ∧
          (s.pwr.pdUp = false → t.canopy.parkTicks = ticks) ∧ Keeps [.chans, .mem, .hp] s t)) ∧
    (s.pwr.st = .exiting → s.pwr.pdUp = true →
      ∃ t, exec .reapplyComplete s = .next t ∧ t.pwr = { s.pwr with st := .run } ∧
        Keeps [.canopy, .boot, .tbs, .intc, .xf, .otp, .pins, .time] s t)

/-- The Canopy's clock, watch and tamper events. A write to RTC_SEC sets the seconds, clears RTC_SUB and sets
RTC_STAT.VALID. A second adds one to RTC_SEC and clears RTC_SUB. Either latches the RTC source exactly when the count
reaches or passes RTC_ALARM. An edge of a masked twin counts, and latches WATCH exactly when the count reaches EDGES, unless
the twin counted one within 125 µs; the window clears the count; a tamper event latches its bit and RTC_SEC and its wake
source in every power state; a latched source does nothing else outside PARK; the crystal's failure clears RTC_STAT.VALID,
latches LSE_FAIL and clears LSE_OK, which its return sets (03 R88, R89, R90, R107, R109, R116). -/
def Obligations.CanopyEventsLatch : Prop :=
  ∀ (s : State) (k : Fin 4) (n : Fin 2) (src : BitVec 10) (w : Word) (v : Nat),
    let alarm (a b : Word) : BitVec 10 :=
      if a.toNat < s.canopy.rtcAlarm.toNat ∧ s.canopy.rtcAlarm.toNat ≤ b.toNat then s.canopy.wakeSrc ||| 0x080
      else s.canopy.wakeSrc
    let moves : Bool := s.canopy.watchMask.getLsbD k.val && (s.twinOf k v != s.canopy.twinOut.getLsbD k.val)
    let again : Bool := (at_ s.canopy.twinAt k).any fun t => decide (s.time < t + 25000)
    Completes (.rtcSecWrite w) s [.canopy, .pwr, .intc, .pins, .upd, .sc, .hl, .flt, .pm, .rs] (fun t =>
      t.canopy.rtcSec = w ∧ t.rtcSub = 0 ∧ t.canopy.rtcValid = true ∧ t.canopy.wakeSrc = alarm s.canopy.rtcSec w) ∧
    Completes .rtcSecondTick s [.canopy, .pwr, .intc, .pins, .flt, .upd] (fun t =>
      t.canopy.rtcSec = s.canopy.rtcSec + 1 ∧ t.rtcSub = 0 ∧ t.canopy.rtcValid = s.canopy.rtcValid ∧
      t.canopy.wakeSrc = alarm s.canopy.rtcSec (s.canopy.rtcSec + 1)) ∧
    (moves = true → again = false → Completes (.parkWatchEdge k v) s [.canopy, .pwr, .intc, .pins, .flt, .upd] fun t =>
      t.canopy.watchCount = s.canopy.watchCount + 1 ∧
      t.canopy.wakeSrc = if s.canopy.watchCount + 1 = s.canopy.watchEdges.toNat then s.canopy.wakeSrc ||| 0x040
        else s.canopy.wakeSrc) ∧
    (moves = true → again = true → Completes (.parkWatchEdge k v) s [.canopy] fun t =>
      t.canopy = { s.canopy with twinOut := s.canopy.twinOut ^^^ oneBit 4 k.val }) ∧
    (moves = false → Completes (.parkWatchEdge k v) s [] fun _ => True) ∧
    Completes .parkWatchWindow s [.canopy] (fun t => t.canopy = { s.canopy with watchCount := 0 }) ∧
    Completes (.tamperEvent n) s [.canopy, .pwr, .intc, .pins, .flt, .upd] (fun t =>
      t.canopy.tampEvt = s.canopy.tampEvt ||| oneBit 2 n.val ∧ t.canopy.tampTime = s.canopy.rtcSec ∧
      t.canopy.wakeSrc = s.canopy.wakeSrc ||| oneBit 10 (8 + n.val) ∧ t.canopy.rtcSec = s.canopy.rtcSec) ∧
    (s.pwr.st ≠ .park → s.pwr.st ≠ .entering →
      Completes (.wakeLatch src) s [.canopy] fun t => t.canopy = { s.canopy with wakeSrc := s.canopy.wakeSrc ||| src }) ∧
    Completes .lseFail s [.canopy, .pwr] (fun t =>
      t.canopy = { s.canopy with lseFail := true, rtcValid := false } ∧ t.pwr = { s.pwr with lseOk := false }) ∧
    Completes .lseRecover s [.pwr] (fun t => t.pwr = { s.pwr with lseOk := true })

/-- A clock fault in RUN is counted and reported, stops TB, holds PD2–PD7 in reset with bank memory and program store kept
and every channel pin at its Clearing level; the third within 1 s waits for CLKREC, without which recovery does nothing;
recovery otherwise returns to RUN. In PARK entry a fault is counted and reported, and the entry goes on. A fall of VDDA sets
the supply bit of AFE health and reports a supply fault, and nothing else changes (03 R76, R102–R106, R117). -/
def Obligations.ClockFaultStopsAndRecovers : Prop :=
  ∀ (s : State) (sub : Fin 32768),
    let now := s.canopy.rtcSec.toNat * 32768 + sub.val
    let third : Bool := decide (2 ≤ (s.pwr.recent.filter fun x => decide (now ≤ x + 32768)).length)
    let noted (t : State) : Prop := t.pwr.faults = satInc s.pwr.faults ∧ t.pwr.needRec = (s.pwr.needRec || third) ∧
      t.reports = s.reports ++ [{ mech := 0x17, kind := 0, index := 0, detail := 0, at_ := s.time }]
    (s.pwr.st = .run → s.pwr.pllLock = true →
      ∃ t, exec (.clockFault sub) s = .next t ∧ t.pwr.st = .clockFault ∧ noted t ∧ t.pwr.coreOnRc = true ∧
        t.pwr.pdUp = false ∧ t.tb = s.tb ∧ t.tbs.run = false ∧ t.mem.cells = s.mem.cells ∧ t.me.store = s.me.store ∧
        t.canopy = s.canopy ∧ t.intc = s.intc ∧ t.xf = s.xf ∧
        (∀ n, t.pins.keeper.find? (fun p => p.1 = n) =
          if h : n < 64 then some (n, (s.chan ⟨n, h⟩).o.clrLvl) else none)) ∧
    (s.pwr.st = .entering → s.pwr.pllLock = true → Completes (.clockFault sub) s [.pwr, .reports] fun t =>
      noted t ∧ t.pwr.st = .entering) ∧
    (s.pwr.pllLock = false → Completes (.clockFault sub) s [] fun _ => True) ∧
    (s.pwr.st = .clockFault → s.pwr.needRec = true → Completes .clockRecovery s [] fun _ => True) ∧
    Completes (.pwrCmdClkrec 0x5A3C) s [.pwr] (fun t => t.pwr = { s.pwr with needRec := false }) ∧
    (∀ key : BitVec 16, key ≠ 0x5A3C →
      Completes (.pwrCmdClkrec key) s [.pwr] fun t => t.pwr = { s.pwr with refuse := 2 }) ∧
    (s.pwr.st = .clockFault → s.pwr.needRec = false → ∃ t, exec .clockRecovery s = .next t ∧ t.pwr.st = .run ∧
      t.pins.keeper = []) ∧
    (s.pwr.vioGood = true → Completes .vddaFall s [.afe, .reports] fun t =>
      t.afe = { s.afe with health := s.afe.health ||| oneBit 28 25 } ∧
      t.reports = s.reports ++ [{ mech := 0x11, kind := 12, index := 32, detail := 0, at_ := s.time }])

/-! ## Channel counters, capture and the timebase (04, 23) -/

/-- When a client writes GRV_PSC while any channel of the grove is running, the device ignores the write and sets
GRV_STAT.WWR; with every channel of the grove stopped the value is written and no tick is due before the next core cycle,
which is one. A grove held in reset takes no GRV command. -/
def Obligations.PrescalerWriteNeedsStoppedGrove : Prop :=
  ∀ (s : State) (g : Fin 8) (w : Word),
    (s.pwr.pdUp = true → (∃ k, s.runs (State.chanOf g k) = true) →
      Completes (.grvPscWrite g w) s [.groves] fun t =>
        t.grove g = { s.grove g with wwr := true } ∧ ∀ h, h ≠ g → t.grove h = s.grove h) ∧
    (s.pwr.pdUp = true → (∀ k, s.runs (State.chanOf g k) = false) →
      Completes (.grvPscWrite g w) s [.groves] fun t =>
        (t.grove g).psc = w.setWidth 16 ∧ (t.grove g).wwr = (s.grove g).wwr ∧
        t.tickDue g = false ∧ (t.grove g).psc.toNat < (t.grove g).pscCount + 1 ∧ ∀ h, h ≠ g → t.grove h = s.grove h) ∧
    (s.pwr.pdUp = false →
      ∀ c ∈ [Instr.grvPscWrite g w, .grvCmdStart g, .grvCmdStop g, .groveTick g, .grvUpdArm g, .grvRdmGo g],
        Completes c s [] fun _ => True)

/-- A write to CNT_LO or CNT_HI while the channel is running is ignored and sets CH_FLAG.WWR; while it is stopped the write
sets its half of the counter. A read of a stopped channel returns the counter value, the high half above zeros; a read of a
running one in native mode returns all ones and sets CH_FLAG.RWR, and in JX32 mode the live value with no flag. RELOAD is
committed as one 48-bit value by the write of its high half from the staging register; a stopped channel takes it at once and
loses a pending one, a running channel makes it pending, and a value below 2 is ignored with WWR, which a fenced channel does
not set. A channel runs to the end of the core cycle in which it stops; one held in reset takes no write. -/
def Obligations.CounterAndReloadAccess : Prop :=
  ∀ (s : State) (n : Fin 64) (w : Word),
    let v := wide w (s.chan n).c.rldStage
    let others (t : State) : Prop := ∀ m, m ≠ n → t.chan m = s.chan m
    let flagged (t : State) (b : BitVec 16) : Prop :=
      (t.chan n).c = (s.chan n).c ∧ (t.chan n).o = (s.chan n).o ∧ (t.chan n).cp = (s.chan n).cp ∧
      (t.chan n).ev.flag = (if (s.chan n).fenced then (s.chan n).ev.flag else (s.chan n).ev.flag ||| b) ∧ others t
    -- RELOAD
    (s.pwr.pdUp = true → Completes (.reloadLoWrite n w) s [.chans] fun t =>
      t.chan n = { s.chan n with c := { (s.chan n).c with rldStage := w } } ∧ others t) ∧
    (s.pwr.pdUp = true → 2 ≤ v.toNat → s.runs n = false →
      Completes (.reloadHiWrite n w) s [.chans] fun t =>
        t.chan n = { s.chan n with c := { (s.chan n).c with reload := v, rldPending := none } } ∧ others t) ∧
    (s.pwr.pdUp = true → 2 ≤ v.toNat → s.runs n = true →
      Completes (.reloadHiWrite n w) s [.chans] fun t =>
        t.chan n = { s.chan n with c := { (s.chan n).c with rldPending := some v } } ∧ others t) ∧
    (s.pwr.pdUp = true → v.toNat < 2 → Completes (.reloadHiWrite n w) s [.chans, .tt] fun t => flagged t 0x200) ∧
    -- CNT
    (s.pwr.pdUp = true → s.runs n = false →
      (Completes (.cntWrite n false w) s [.chans] fun t =>
        (t.chan n).c = { (s.chan n).c with cnt := wide (hi16 (s.chan n).c.cnt) w, hist := (t.chan n).c.hist } ∧ others t) ∧
      (Completes (.cntWrite n true w) s [.chans] fun t =>
        (t.chan n).c = { (s.chan n).c with cnt := wide w (lo32 (s.chan n).c.cnt), hist := (t.chan n).c.hist } ∧ others t)) ∧
    (s.pwr.pd1Up = true → s.runs n = false → s.compat = false →
      (Completes (.cntRead n false) s [.rdata] fun t => t.rdata = (s.chan n).c.cnt.setWidth 32) ∧
      (Completes (.cntRead n true) s [.rdata] fun t =>
        t.rdata.toNat = (s.chan n).c.cnt.toNat / 2 ^ 32 ∧ t.rdata >>> 16 = 0)) ∧
    (s.pwr.pdUp = true → s.runs n = true → ∀ hi, Completes (.cntWrite n hi w) s [.chans, .tt] fun t => flagged t 0x200) ∧
    (s.pwr.pd1Up = true → s.runs n = true → s.compat = false → ∀ hi,
      Completes (.cntRead n hi) s [.chans, .tt, .rdata] fun t => t.rdata = 0xFFFFFFFF ∧ flagged t 0x100) ∧
    (s.pwr.pd1Up = true → s.compat = true →
      (Completes (.cntReadCompat n false) s [.rdata] fun t => t.rdata = (s.chan n).c.cnt.setWidth 32) ∧
      (Completes (.cntReadCompat n true) s [.rdata] fun t => t.rdata.toNat = (s.chan n).c.cnt.toNat / 2 ^ 32)) ∧
    (s.pwr.pdUp = false → ∀ c ∈ [Instr.reloadLoWrite n w, .reloadHiWrite n w, .cntWrite n false w, .cntWrite n true w],
      Completes c s [] fun _ => True)

/-- A running channel of the core clock, acting on no link, in a tick of its grove in native mode: the count goes up by one
to RELOAD, where it turns with PEAK, and down by one to 0, where it turns with VALLEY; no other tick signals either; a
pending RELOAD transfers at VALLEY, and at PEAK when RLD_AT is 1, with RLDX. The prescaler count starts anew, and no counter
of another grove moves. With no tick due nothing happens (04 R122–R124, R133, R134, R138). -/
def Obligations.GroveTickCountsTriangular : Prop :=
  ∀ (s : State) (n : Fin 64), let g := State.groveOf n; let c := (s.chan n).c
    (s.tickDue g = true → s.compat = false → (s.chan n).fenced = false → c.run = true → c.clkSrc = 0 → s.pulsed n = false →
      (s.chan n).o.action = 0 → 2 ≤ c.reload.toNat → c.cnt.toNat ≤ c.reload.toNat →
      (c.down = true → 0 < c.cnt.toNat) → (c.down = false → c.cnt.toNat < c.reload.toNat) →
      Completes (.groveTick g) s [.chans, .groves, .tt] fun t =>
        let c' := (t.chan n).c
        c'.run = true ∧ (t.grove g).psc = (s.grove g).psc ∧ (t.grove g).pscCount = 0 ∧
        (∀ m, State.groveOf m ≠ g → (t.chan m).c = (s.chan m).c) ∧
        (c.down = false → c'.cnt = c.cnt + 1 ∧
          c'.down = decide (c.cnt.toNat + 1 = c.reload.toNat)) ∧
        (c.down = true → c'.cnt = c.cnt - 1 ∧ c'.down = decide (c.cnt.toNat ≠ 1)) ∧
        ((t.chan n).ev.flag &&& 0x10 ≠ 0 ↔
          (s.chan n).ev.flag &&& 0x10 ≠ 0 ∨ (c.down = false ∧ c.cnt.toNat + 1 = c.reload.toNat)) ∧
        ((t.chan n).ev.flag &&& 0x20 ≠ 0 ↔ (s.chan n).ev.flag &&& 0x20 ≠ 0 ∨ (c.down = true ∧ c.cnt.toNat = 1)) ∧
        (∀ v, c.rldPending = some v →
          (c.down = true ∧ c.cnt.toNat = 1) ∨ (c.down = false ∧ c.cnt.toNat + 1 = c.reload.toNat ∧ c.rldAt = true) →
          c'.reload = v ∧ c'.rldPending = none ∧ (t.chan n).ev.flag &&& 0x400 ≠ 0) ∧
        (¬ ((c.down = true ∧ c.cnt.toNat = 1) ∨ (c.down = false ∧ c.cnt.toNat + 1 = c.reload.toNat ∧ c.rldAt = true)) →
          c'.reload = c.reload ∧ c'.rldPending = c.rldPending)) ∧
    (s.tickDue g = false → Completes (.groveTick g) s [] fun _ => True)

/-- Starts and stops. GRV_CMD.START is ignored with SERR while an enabled channel of the grove runs; otherwise an enabled,
unfenced channel that acts on no link runs from its CNT, signals VALLEY at 0 and PEAK at RELOAD, and leaves HOLD, and one
that may not start sets CFG_ERR; GO waits for the next tick, which starts the channel, and is ignored while the channel
runs, waits or is fenced; STOP holds the count and sets HOLD (04 R125–R129, R164, R168), and drops a GO that waits (the
model's choice, log 95). -/
def Obligations.StartsAndStops : Prop :=
  ∀ (s : State) (n : Fin 64), let g := State.groveOf n; let c := (s.chan n).c
    s.pwr.pdUp = true →
    ((∃ k, (s.chan (State.chanOf g k)).c.en = true ∧ s.runs (State.chanOf g k) = true) →
      Completes (.grvCmdStart g) s [.groves] fun t =>
        t.grove g = { s.grove g with serr := true } ∧ ∀ h, h ≠ g → t.grove h = s.grove h) ∧
    ((∀ k, (s.chan (State.chanOf g k)).c.en = true → s.runs (State.chanOf g k) = false) →
      s.compat = false → (s.chan n).fenced = false → c.en = true → (s.chan n).o.action = 0 → c.clkSrc = 0 →
      bit (s.grove g).stag 8 = false → s.linkOk n = true → s.pulsed n = false →
      (2 ≤ c.reload.toNat → c.cnt.toNat ≤ c.reload.toNat →
        Completes (.grvCmdStart g) s [.chans, .groves, .tt] fun t =>
          (t.chan n).c.run = true ∧ (t.chan n).c.cnt = c.cnt ∧ (t.chan n).c.cfgErr = false ∧
          bit (t.chan n).o.clr 0 = false ∧
          (t.chan n).c.down = (if c.cnt = 0 then false else if c.cnt = c.reload then true else c.startDown) ∧
          (c.cnt = 0 → (t.chan n).ev.flag &&& 0x20 ≠ 0) ∧ (c.cnt = c.reload → (t.chan n).ev.flag &&& 0x10 ≠ 0)) ∧
      (c.reload.toNat < 2 ∨ c.reload.toNat < c.cnt.toNat →
        Completes (.grvCmdStart g) s [.chans, .groves, .tt] fun t =>
          (t.chan n).c = { c with cfgErr := true, goPend := false })) ∧
    ((s.chan n).fenced = false → s.runs n = false → c.goPend = false →
      Completes (.chCmdGo n) s [.chans] fun t =>
        t.chan n = { s.chan n with c := { c with goPend := true } } ∧ ∀ m, m ≠ n → t.chan m = s.chan m) ∧
    (s.tickDue g = true → s.compat = false → (s.chan n).fenced = false → c.run = false → c.goPend = true →
      c.clkSrc = 0 → (s.chan n).o.action = 0 → s.linkOk n = true → 2 ≤ c.reload.toNat → c.cnt.toNat ≤ c.reload.toNat →
      Completes (.groveTick g) s [.chans, .groves, .tt] fun t =>
        (t.chan n).c.run = true ∧ (t.chan n).c.cnt = c.cnt ∧ (t.chan n).c.goPend = false) ∧
    ((s.chan n).fenced = true ∨ s.runs n = true ∨ c.goPend = true → Completes (.chCmdGo n) s [] fun _ => True) ∧
    (Completes (.chCmdStop n) s [.chans, .groves] fun t =>
      (t.chan n).c = { c with run := false, goPend := false } ∧ (t.chan n).ev = (s.chan n).ev ∧
      bit (t.chan n).o.clr 0 = true ∧ (t.chan n).o.inClr = true ∧ t.runs n = s.runs n ∧
      ∀ m, m ≠ n → m ≠ partner n → t.chan m = s.chan m) ∧
    (Completes (.grvCmdStop g) s [.chans, .groves] fun t =>
      ∀ k, (t.chan (State.chanOf g k)).c =
          { (s.chan (State.chanOf g k)).c with run := false, goPend := false } ∧
        bit (t.chan (State.chanOf g k)).o.clr 0 = true ∧ (t.chan (State.chanOf g k)).o.inClr = true)

/-- CH_CTL and the match registers. A write of CH_CTL takes effect, but in native mode a running channel keeps CLKSRC and
sets WWR where the write would change it; a match's low half is staged and its high half commits the pair, at once, or
pending until VALLEY when UPD is 1 and the channel runs; a channel held in reset takes no write (04 R123, R137, R157). -/
def Obligations.ControlAndMatchWrites : Prop :=
  ∀ (s : State) (n : Fin 64) (k : Fin 4) (w : Word), let c := (s.chan n).c
    let others (t : State) : Prop := ∀ m, m ≠ n → t.chan m = s.chan m
    let onlyMat (t : State) : Prop :=
      (∀ j, j ≠ k → at_ (t.chan n).c.mats j = at_ c.mats j) ∧ (t.chan n).c = { c with mats := (t.chan n).c.mats } ∧
      t.chan n = { s.chan n with c := (t.chan n).c } ∧ others t
    (s.pwr.pdUp = true → s.runs n = false ∨ s.compat = true ∨ fld w 3 2 = c.clkSrc →
      Completes (.chCtlWrite n w) s [.chans] fun t =>
        t.chan n = { s.chan n with c := { c with ctl := w.setWidth 5 } } ∧ others t) ∧
    (s.pwr.pdUp = true → s.runs n = true → s.compat = false → fld w 3 2 ≠ c.clkSrc →
      Completes (.chCtlWrite n w) s [.chans, .tt] fun t =>
        (t.chan n).c.clkSrc = c.clkSrc ∧ (t.chan n).c.en = bit w 0 ∧ (t.chan n).c.startDown = bit w 1 ∧
        (t.chan n).c.rldAt = bit w 4 ∧ (t.chan n).c = { c with ctl := (t.chan n).c.ctl } ∧
        (t.chan n).ev.flag = (if (s.chan n).fenced then (s.chan n).ev.flag else (s.chan n).ev.flag ||| 0x200) ∧ others t) ∧
    (s.pwr.pdUp = true → Completes (.matLoWrite n k w) s [.chans] fun t =>
      at_ (t.chan n).c.mats k = { at_ c.mats k with stage := w } ∧ onlyMat t) ∧
    (s.pwr.pdUp = true → bit c.matcfg (8 + k.val) = false ∨ s.runs n = false →
      Completes (.matHiWrite n k w) s [.chans] fun t =>
        at_ (t.chan n).c.mats k = { at_ c.mats k with value := wide w (at_ c.mats k).stage, pending := none } ∧ onlyMat t) ∧
    (s.pwr.pdUp = true → bit c.matcfg (8 + k.val) = true → s.runs n = true →
      Completes (.matHiWrite n k w) s [.chans] fun t =>
        at_ (t.chan n).c.mats k = { at_ c.mats k with pending := some (wide w (at_ c.mats k).stage) } ∧ onlyMat t) ∧
    (s.pwr.pdUp = false → ∀ i ∈ [Instr.chCtlWrite n w, .matLoWrite n k w, .matHiWrite n k w, .chCmdGo n, .chCmdStop n,
      .chCmdSwcap n, .chCmdOvrclr n, .captureEdge n (bit w 0)], Completes i s [] fun _ => True)

/-- Captures. A software capture of the counter loads CAP with the count, sets CAP and CAPSW, and with CAP already set
overwrites it, sets OVR and counts in OVRCNT up to 255; an accepted hardware edge of a selected direction captures with
CAPSW 0; both in one core cycle are one capture, the hardware's, with CAPSW 0 and no OVR; a fenced channel captures nothing;
a read of CAP_LO answers the low half, clears CAP and loads the hold register; OVRCLR clears OVRCNT
(04 R144–R149, R158, R168). -/
def Obligations.CapturesAndOverrun : Prop :=
  ∀ (s : State) (n : Fin 64) (level : Bool), let x := s.chan n
    let captured : Bool := s.cyc.captures.any fun p => p.chan = n
    let others (t : State) : Prop := ∀ m, m ≠ n → t.chan m = s.chan m
    let accepted : Bool := decide (fld x.cp.cfg 1 0 ≠ 0) && (x.cp.level != level) && bit x.cp.cfg (if level then 6 else 7)
    let flags (t : State) : Prop :=
      (t.chan n).cp.ovrCnt = (if x.ev.flag &&& 0x40 ≠ 0 then satInc x.cp.ovrCnt else x.cp.ovrCnt) ∧
      (t.chan n).ev.flag = x.ev.flag ||| 0x40 ||| (if x.ev.flag &&& 0x40 ≠ 0 then 0x80 else 0) ∧
      (t.chan n).c = x.c ∧ (t.chan n).o = x.o ∧ others t
    (s.pwr.pdUp = true → x.fenced = false → bit x.cp.cfg 8 = false → captured = false →
      Completes (.chCmdSwcap n) s [.chans, .groves, .tt] fun t =>
        (t.chan n).cp = { x.cp with cap := x.c.cnt, sw := true, dirDown := x.c.down, ovrCnt := (t.chan n).cp.ovrCnt } ∧
        flags t) ∧
    (s.pwr.pdUp = true → x.fenced = false → accepted = true → captured = false →
      Completes (.captureEdge n level) s [.chans, .groves, .tt] fun t =>
        (t.chan n).cp.level = level ∧ (t.chan n).cp.sw = false ∧
        (t.chan n).cp.cap = (s.captureValue n (fld x.cp.cfg 12 9 + 2)).1 ∧ flags t) ∧
    (s.pwr.pdUp = true → x.fenced = false → captured = true →
      (Completes (.chCmdSwcap n) s [] fun _ => True) ∧
      (accepted = true → Completes (.captureEdge n level) s [.chans] fun t =>
        t.chan n = { x with cp := { x.cp with
          level := level, sw := false, cap := (s.captureValue n (fld x.cp.cfg 12 9 + 2)).1, dirDown := (t.chan n).cp.dirDown } } ∧
        others t)) ∧
    (x.fenced = true → Completes (.chCmdSwcap n) s [] (fun _ => True) ∧
      Completes (.captureEdge n level) s [] fun _ => True) ∧
    (s.pwr.pd1Up = true → captured = false → Completes (.capLoRead n) s [.chans, .rdata] fun t =>
      t.rdata = x.cp.cap.setWidth 32 ∧
      t.chan n = { x with ev := { x.ev with flag := x.ev.flag &&& ~~~0x40 },
                          cp := { x.cp with hold := (x.cp.cap >>> 32).setWidth 16 } } ∧ others t) ∧
    (s.pwr.pdUp = true → Completes (.chCmdOvrclr n) s [.chans] fun t =>
      t.chan n = { x with cp := { x.cp with ovrCnt := 0 } } ∧ others t)

/-! ## Edge queues, Clearing and output configuration (05) -/

/-- A push carries its target's high bits in EQ_PUSH and takes the low ones from its own path's EQ_ARG. It takes the
lowest-numbered free slot at the tail of the order, reported in CH_OSTAT.LAST; a slot freed in the same core cycle is still
taken. With all 8 slots occupied it is refused with FULL, and an invalid combination, a fenced channel or a pair's refusal
gives EQERR; a refused push changes no slot (05 R169, R170, R172, R190, R204, R210). A channel held in reset takes none. -/
def Obligations.EdgePushes : Prop :=
  ∀ (s : State) (p : Path) (n : Fin 64) (w : Word), let x := s.chan n
    let tgt := wide w (at_ x.o.args (State.pathIx p))
    let ok := ∃ l, State.levelOf (fld w 19 18) = some l ∧ s.pairRefuses n l = false ∧
      s.edgeValid (.ofNat 2 (fld w 17 16)) (.ofNat 2 (fld w 29 28)) (.ofNat 2 (fld w 27 26)) (bit w 25) tgt = true
    let taken (k : Fin 8) : Prop := (∃ e ∈ x.o.queue, e.slot = k) ∨ (n, k) ∈ s.cyc.freed
    let flagged (t : State) (b : BitVec 8) : Prop :=
      t.chan n = { x with o := { x.o with ostat := x.o.ostat ||| b } } ∧ ∀ m, m ≠ n → t.chan m = s.chan m
    (s.pwr.pdUp = true → x.fenced = true → Completes (.eqPush p n w) s [.chans] fun t => flagged t 2) ∧
    (s.pwr.pdUp = true → x.fenced = false → ¬ ok → (∃ k, ¬ taken k) → Completes (.eqPush p n w) s [.chans] fun t => flagged t 2) ∧
    (s.pwr.pdUp = true → x.fenced = false → ¬ ok → (∀ k, taken k) → Completes (.eqPush p n w) s [.chans] fun t => flagged t 3) ∧
    (s.pwr.pdUp = true → x.fenced = false → ok → (∀ k, taken k) → Completes (.eqPush p n w) s [.chans] fun t => flagged t 1) ∧
    (s.pwr.pdUp = true → x.fenced = false → ok → ∀ k : Fin 8, (∀ j, j < k → taken j) → ¬ taken k →
      Completes (.eqPush p n w) s [.chans] fun t =>
        (∃ e : Edge, (t.chan n).o.queue = x.o.queue ++ [e] ∧ e.slot = k ∧ e.kind = .ofNat 2 (fld w 17 16) ∧
          e.dom = .ofNat 2 (fld w 29 28) ∧ e.slope = .ofNat 2 (fld w 27 26) ∧ e.rearm = bit w 25 ∧
          some e.level = State.levelOf (fld w 19 18) ∧ e.tap = .ofNat 5 (fld w 24 20) ∧ e.tgt = tgt ∧ e.shadow = none) ∧
        (t.chan n).o = { x.o with queue := (t.chan n).o.queue, last := k } ∧ (t.chan n).c = x.c ∧ (t.chan n).ev = x.ev ∧
        ∀ m, m ≠ n → t.chan m = s.chan m) ∧
    (s.pwr.pdUp = false → ∀ c ∈ [Instr.eqPush p n w, .eqShd p n w, .edgeTimeFire n, .edgeAngleFire n, .readbackMismatch n],
      Completes c s [] fun _ => True)

/-- A shadow loads into the slot its write names, of the fields written and the path's EQ_ARG; an empty slot or a fenced
channel gives EQERR. ARM is set and waits for the grove's running GRPUPD channels, none of whose VALLEYs has counted, and a
write while it is set changes nothing. FLUSH empties the queue, with UNDR on a channel that underruns by it, and on a fenced
channel gives EQERR (05 R182, R184, R205, R210). -/
def Obligations.ShadowsArmAndFlush : Prop :=
  ∀ (s : State) (p : Path) (n : Fin 64) (g : Fin 8) (w : Word), let x := s.chan n
    let tgt := wide w (at_ x.o.args (State.pathIx p))
    let k : Fin 8 := Fin.ofNat 8 (fld w 27 25)
    let others (t : State) : Prop := ∀ m, m ≠ n → t.chan m = s.chan m
    s.pwr.pdUp = true →
    (∀ e l, x.fenced = false → x.o.queue.find? (fun e => e.slot = k) = some e → State.levelOf (fld w 22 21) = some l →
      s.edgeValid e.kind e.dom (.ofNat 2 (fld w 24 23)) e.rearm tgt = true → s.pairRefuses n l = false →
      Completes (.eqShd p n w) s [.chans] fun t =>
        (t.chan n).o.queue = x.o.queue.map (fun y => if y.slot = k then
          { y with shadow := some { slope := .ofNat 2 (fld w 24 23), level := l, tap := .ofNat 5 (fld w 20 16), tgt := tgt } }
          else y) ∧ t.chan n = { x with o := { x.o with queue := (t.chan n).o.queue } } ∧ others t) ∧
    (x.fenced = true ∨ (∀ e ∈ x.o.queue, e.slot ≠ k) → Completes (.eqShd p n w) s [.chans] fun t =>
      t.chan n = { x with o := { x.o with ostat := x.o.ostat ||| 2 } } ∧ others t) ∧
    ((s.grove g).arm = true → Completes (.grvUpdArm g) s [] fun _ => True) ∧
    ((s.grove g).arm = false → Completes (.grvUpdArm g) s [.groves] fun t =>
      (t.grove g).arm = true ∧ (t.grove g).armDone = 0 ∧
      (∀ j, bit (t.grove g).armWait j.val = true ↔
        s.runs (State.chanOf g j) = true ∧ (s.chan (State.chanOf g j)).o.grpupd = true) ∧
      ∀ h, h ≠ g → t.grove h = s.grove h) ∧
    (x.fenced = true → Completes (.chOcmdFlush n) s [.chans] fun t =>
      t.chan n = { x with o := { x.o with ostat := x.o.ostat ||| 2 } } ∧ others t) ∧
    (x.fenced = false → Completes (.chOcmdFlush n) s [.chans] fun t =>
      (t.chan n).o.queue = [] ∧ (t.chan n).c = x.c ∧ ((∀ f ∈ s.cyc.fired, f.1 ≠ n) → (t.chan n).o.outl = x.o.outl) ∧
      (x.c.run = true → x.o.uwatch = true → bit (t.chan n).o.ostat 4 = true ∧
        (x.o.undrClr = true → bit (t.chan n).o.clr 7 = true ∧ (t.chan n).o.inClr = true)) ∧
      ∀ m, m ≠ n → m ≠ partner n → t.chan m = s.chan m)

/-- A head time entry fires when TB has come to its target, a head angle entry when its LOCKED domain's position has come to
its own: OUTL takes the entry's level, the slot frees or, with REARM, the entry goes to the tail with an angle's tag one
higher, LATE and TAP0 are marked, and Clearing does not hinder it; an entry not yet due stays, and so does one that became
the head in this core cycle (05 R173–R178, R186; 06 R221). -/
def Obligations.EdgesFire : Prop :=
  ∀ (s : State) (n : Fin 64) (e : Edge) (q : List Edge), let x := s.chan n
    s.pwr.pdUp = true → x.o.queue = e :: q →
    let fires (c : Instr) : Prop :=
      Completes c s [.chans] fun t =>
        (t.chan n).o.outl = e.level ∧
        (t.chan n).o.queue.map Edge.slot = ((if e.rearm then q ++ [e] else q).map Edge.slot) ∧
        (e.rearm = true → (t.chan n).o.queue.getLast?.map Edge.tgt =
          some (if e.kind = 2 then ((e.tgt.setWidth 32 + 0x01000000 : Word)).setWidth 48 else e.tgt)) ∧
        (bit (t.chan n).o.ostat 2 = (bit x.o.ostat 2 || e.late)) ∧
        (bit (t.chan n).o.ostat 7 = (bit x.o.ostat 7 || !s.calValid)) ∧
        (t.chan n).c = x.c ∧ (t.chan n).ev = x.ev ∧ ∀ m, m ≠ n → m ≠ partner n → t.chan m = s.chan m
    (s.headCompared n = true → e.kind = 1 → reached s.tb e.tgt = true → fires (.edgeTimeFire n)) ∧
    (s.headCompared n = true → e.kind = 2 → (s.domPos e.dom).any (fun pos => posReached pos (e.tgt.setWidth 32)) = true →
      fires (.edgeAngleFire n)) ∧
    (e.kind ≠ 1 ∨ reached s.tb e.tgt = false ∨ s.headCompared n = false →
      Completes (.edgeTimeFire n) s [] fun _ => True) ∧
    (e.kind ≠ 2 ∨ (s.domPos e.dom).any (fun pos => posReached pos (e.tgt.setWidth 32)) = false ∨ s.headCompared n = false →
      Completes (.edgeAngleFire n) s [] fun _ => True)

/-- CLR sets cause SW and Clearing on the channel, or on all 8 of the grove; REL clears SW and RDBK, and UNDR unless the
channel underruns now, when UNDR stays and UNDR_CLR sets it; REL_SYNC clears SYNC only when the channel is bound to no
domain or to a LOCKED one; REL_TRIP clears ITRIP of the grove only when its trip latch is clear. A released channel stays in
Clearing (05 R181, R198, R199, Table 5.4). A channel held in reset takes none of these. -/
def Obligations.ClearingCauses : Prop :=
  ∀ (s : State) (n : Fin 64) (g k : Fin 8), let x := s.chan n; let y := s.chan (State.chanOf g k)
    (s.pwr.pdUp = false → ∀ c ∈ [Instr.chOcmdClr n, .chOcmdRel n, .chOcmdRelSync n, .chOcmdFlush n, .grvClrcmdClr g,
      .grvClrcmdRel g, .grvClrcmdRelTrip g], Completes c s [] fun _ => True) ∧
    (s.pwr.pdUp = true →
      (Completes (.chOcmdClr n) s [.chans] fun t =>
        bit (t.chan n).o.clr 1 = true ∧ (t.chan n).o.inClr = true ∧ (t.chan n).c = x.c ∧ (t.chan n).o.queue = x.o.queue ∧
        ∀ m, m ≠ n → m ≠ partner n → t.chan m = s.chan m) ∧
      (Completes (.grvClrcmdClr g) s [.chans] fun t =>
        bit (t.chan (State.chanOf g k)).o.clr 1 = true ∧ (t.chan (State.chanOf g k)).o.inClr = true ∧
        (t.chan (State.chanOf g k)).c = y.c) ∧
      (Completes (.chOcmdRel n) s [.chans] fun t =>
        bit (t.chan n).o.clr 1 = false ∧ bit (t.chan n).o.clr 6 = false ∧
        bit (t.chan n).o.clr 7 = (s.underruns n && (bit x.o.clr 7 || x.o.undrClr)) ∧
        (∀ i, i = 0 ∨ i = 2 ∨ i = 3 ∨ i = 4 ∨ i = 5 ∨ i = 8 ∨ i = 9 → bit (t.chan n).o.clr i = bit x.o.clr i) ∧
        (x.o.inClr = true → (t.chan n).o.inClr = true) ∧ ∀ m, m ≠ n → m ≠ partner n → t.chan m = s.chan m) ∧
      (Completes (.grvClrcmdRel g) s [.chans] fun t =>
        bit (t.chan (State.chanOf g k)).o.clr 1 = false ∧ bit (t.chan (State.chanOf g k)).o.clr 6 = false ∧
        (y.o.inClr = true → (t.chan (State.chanOf g k)).o.inClr = true)) ∧
      (x.o.domain = 0 ∨ s.domLocked (BitVec.ofNat 2 (x.o.domain - 1)) = true →
        Completes (.chOcmdRelSync n) s [.chans] fun t =>
          bit (t.chan n).o.clr 3 = false ∧ (x.o.inClr = true → (t.chan n).o.inClr = true) ∧
          ∀ m, m ≠ n → m ≠ partner n → t.chan m = s.chan m) ∧
      (x.o.domain ≠ 0 → s.domLocked (BitVec.ofNat 2 (x.o.domain - 1)) = false →
        Completes (.chOcmdRelSync n) s [] fun _ => True) ∧
      (s.tripLatch g = true → Completes (.grvClrcmdRelTrip g) s [] fun _ => True) ∧
      (s.tripLatch g = false → Completes (.grvClrcmdRelTrip g) s [.chans] fun t =>
        bit (t.chan (State.chanOf g k)).o.clr 2 = false ∧ (y.o.inClr = true → (t.chan (State.chanOf g k)).o.inClr = true)))

/-- A readback run of 64 sets RDBK, Clearing cause RDBK and one report of the channel, where readback is on, a level is
intended and RB_BLANK has passed since it changed. A write of GRV_RDM.GO while no channel of the grove holds READMIT is
ignored and sets GRV_STAT.SERR; otherwise the enabled, stopped, unfenced channels that act on no link start at CNT 0 with
VALLEY (05 R201, R202, R844, Table 5.6). -/
def Obligations.ReadbackAndReadmit : Prop :=
  ∀ (s : State) (n : Fin 64), let g := State.groveOf n; let x := s.chan n
    let compared : Bool := bit x.o.ocfg 9 && (s.intended n != .released) && decide (fld x.o.ocfg 15 10 + x.o.chgAt ≤ s.time)
    s.pwr.pdUp = true →
    (compared = true → x.o.chgAt ≤ s.time →
      Completes (.readbackMismatch n) s [.chans, .reports] fun t =>
        bit (t.chan n).o.ostat 5 = true ∧ bit (t.chan n).o.clr 6 = true ∧ (t.chan n).o.inClr = true ∧
        t.reports = s.reports ++ [{ mech := 0x08, kind := 1, index := .ofNat 8 n.val, detail := 0, at_ := s.time }] ∧
        ∀ m, m ≠ n → m ≠ partner n → t.chan m = s.chan m) ∧
    (compared = false → x.o.chgAt ≤ s.time → Completes (.readbackMismatch n) s [] fun _ => True) ∧
    ((∀ k, bit (s.chan (State.chanOf g k)).o.clr 9 = false) →
      Completes (.grvRdmGo g) s [.groves] fun t =>
        t.grove g = { s.grove g with serr := true } ∧ ∀ h, h ≠ g → t.grove h = s.grove h) ∧
    ((∃ k, bit (s.chan (State.chanOf g k)).o.clr 9 = true) →
      Completes (.grvRdmGo g) s [.chans, .groves, .tt] fun t =>
        ((t.grove g).rdmActive = true ∨ (t.grove g).rdmDone = true) ∧
        (s.compat = false → x.c.en = true → x.fenced = false → x.c.run = false → x.o.action = 0 → x.c.clkSrc = 0 →
          s.linkOk n = true → 2 ≤ x.c.reload.toNat → bit (s.grove g).stag 8 = false → s.pulsed n = false →
          (t.chan n).c.run = true ∧ (t.chan n).c.cnt = 0 ∧ (t.chan n).ev.flag &&& 0x20 ≠ 0))

/-- CH_OCFG.CLR_LVL 0b11 and CH_PAIR.FORCE 0b11 are reserved: a write that carries one leaves that field unchanged and sets
CH_FLAG.WWR (a fenced channel sets no flag), and its other fields take effect; lockable fields keep their values once the
configuration is locked, and CH_PAIR of an odd channel takes nothing (05 R191, R842, Tables 5.7, 5.8; 00 R10). A channel held
in reset takes no write. -/
def Obligations.OutputConfigurationWrites : Prop :=
  ∀ (s : State) (n : Fin 64) (w : Word), let x := s.chan n
    let wwr (bad : Prop) [Decidable bad] : BitVec 16 := if bad ∧ x.fenced = false then x.ev.flag ||| 0x200 else x.ev.flag
    let others (t : State) : Prop := ∀ m, m ≠ n → m ≠ partner n → t.chan m = s.chan m
    (s.pwr.pdUp = true → Completes (.chOcfgWrite n w) s [.chans, .tt] fun t =>
      (t.chan n).ev.flag = wwr (fld w 1 0 = 3) ∧ (t.chan n).c = x.c ∧ (t.chan n).o.queue = x.o.queue ∧
      (s.boot.locked = false → fld w 1 0 ≠ 3 → (t.chan n).o.ocfg = w.setWidth 24) ∧
      (s.boot.locked = false → fld w 1 0 = 3 → (t.chan n).o.ocfg = (x.o.ocfg &&& 3) ||| (w.setWidth 24 &&& 0xFFFFFC)) ∧
      (s.boot.locked = true → (t.chan n).o.ocfg = (x.o.ocfg &&& 0x000237) ||| (w.setWidth 24 &&& 0xFFFDC8)) ∧ others t) ∧
    (n.val % 2 = 1 → Completes (.chPairWrite n w) s [] fun _ => True) ∧
    (s.pwr.pdUp = true → n.val % 2 = 0 → Completes (.chPairWrite n w) s [.chans, .tt, .ps] fun t =>
      (t.chan n).ev.flag = wwr (fld w 19 18 = 3) ∧ (t.chan n).c = x.c ∧
      (fld w 19 18 = 3 → (t.chan n).o.pair.force = x.o.pair.force ∧ (t.chan n).o.pair.forcePend = x.o.pair.forcePend) ∧
      (fld w 19 18 ≠ 3 → (t.chan n).o.pair.force.toNat = fld w 19 18 ∧ (t.chan n).o.pair.forcePend = true) ∧
      (s.boot.locked = false → (t.chan n).o.pair.mode = bit w 16 ∧ (t.chan n).o.pair.dt = w.setWidth 10) ∧
      (s.boot.locked = true → (t.chan n).o.pair.mode = x.o.pair.mode ∧ (t.chan n).o.pair.dt = x.o.pair.dt) ∧
      (t.chan n).o.pair.forceAct = x.o.pair.forceAct ∧ others t) ∧
    (s.pwr.pdUp = false → ∀ c ∈ [Instr.chOcfgWrite n w, .chPairWrite n w], Completes c s [] fun _ => True)


/-! ## Angle domains and checkers (06) -/

/-- The exits of a LOCKED domain. LOSE, and a window that closes below SLOWPER, are LOST: reason and count are noted, every
angle entry keyed to the domain leaves every queue, its calendar entries are frozen for the sweep, and the angle step of the
next core cycle sets Clearing cause SYNC on every channel bound to it. DROP, and a window that closes at or above SLOWPER,
return to SEARCH and set no SYNC; in the reference gap a window that closes with no gap edge, or with one that fell in the
second window, is LOST with reason 3. A domain that is not LOCKED takes neither command, and a closing window returns a
CANDIDATE to SEARCH (06 R231–R234, R259, Tables 6.4, 6.5; 07 R280). A domain held in reset takes none of these. -/
def Obligations.DomainExits : Prop :=
  ∀ (s : State) (d : Fin 3), let a := s.ad d
    let left (reason : Nat) (t : State) : Prop :=
      (t.ad d).reason = .ofNat 4 reason ∧
      (∀ n, ∀ e ∈ (t.chan n).o.queue, ¬ (e.kind = 2 ∧ e.dom.toNat = d.val)) ∧
      (∀ n, bit (t.chan n).o.clr 3 = bit (s.chan n).o.clr 3) ∧
      (∀ h, (s.calEntry h).st ≠ .free → (s.calEntry h).keysel.toNat = d.val + 1 → (t.calEntry h).doomed = true) ∧
      ∀ e, e ≠ d → t.ad e = s.ad e
    let lost (reason : Nat) (t : State) : Prop :=
      (t.ad d).st = .lost ∧ (t.ad d).losts = satInc a.losts ∧ bit (t.ad d).ev.flag 1 = true ∧
      at_ t.tt.sweeps d = some .lost ∧ (t.ad d).k.syncDue = true ∧ left reason t
    let dropped (reason : Nat) (t : State) : Prop :=
      (t.ad d).st = .search ∧ (t.ad d).losts = a.losts ∧ bit (t.ad d).ev.flag 2 = true ∧
      at_ t.tt.sweeps d = some .drop ∧ (t.ad d).k.syncDue = a.k.syncDue ∧ left reason t
    let inGap : Prop := a.scheme = 0 ∧ a.pitch + 1 = a.pitches ∧ (a.k.gap = none ∨ a.k.gapHeld = true)
    (s.pwr.pdUp = false → Completes (.adCmdLose d) s [] (fun _ => True) ∧ Completes (.adCmdDrop d) s [] (fun _ => True) ∧
      Completes (.adWindowClose d) s [] fun _ => True) ∧
    (a.k.syncDue = true → ∀ n, (s.chan n).o.domain = d.val + 1 →
      bit (s.angleCycle.chan n).o.clr 3 = true ∧ (s.angleCycle.chan n).o.inClr = true) ∧
    (s.pwr.pdUp = true → s.exitedNow d = false → (∀ p ∈ s.cyc.exits, p.1 ≠ d) →
      (a.st = .locked → Completes (.adCmdLose d) s [.chans, .ads, .tt] (lost 9) ∧
        Completes (.adCmdDrop d) s [.chans, .ads, .tt] (dropped 9)) ∧
      (a.st ≠ .locked → Completes (.adCmdLose d) s [] (fun _ => True) ∧ Completes (.adCmdDrop d) s [] fun _ => True) ∧
      (a.st = .locked → a.windowOver s.tb = true → ¬ inGap →
        (a.pred.toNat * (256 + a.whi) < a.slow.toNat * 256 →
          Completes (.adWindowClose d) s [.chans, .ads, .tt] (lost 2)) ∧
        (a.slow.toNat * 256 ≤ a.pred.toNat * (256 + a.whi) →
          Completes (.adWindowClose d) s [.chans, .ads, .tt] (dropped 8))) ∧
      (a.st = .locked → a.windowOver s.tb = true → inGap → Completes (.adWindowClose d) s [.chans, .ads, .tt] (lost 3)) ∧
      (a.st = .candidate → a.windowOver s.tb = true → Completes (.adWindowClose d) s [.ads] fun t =>
        (t.ad d).st = .search ∧ ∀ e, e ≠ d → t.ad e = s.ad e) ∧
      (a.windowOver s.tb = false → Completes (.adWindowClose d) s [] fun _ => True))

/-- A valid change of the Hall code sets SECT and moves SECTOR in every state but OFF, held in LOST, or in the cycle of an
exit, included; an edge at a domain that is OFF, or to the level already accepted, changes nothing; an enabled trigger of a
LOCKED domain whose angle is reached sets its flag and waits for its angle's next occurrence, and one that is not enabled, or
whose domain is not LOCKED, does nothing (06 R212, R218, R250, R251). -/
def Obligations.HallChangesAndTriggers : Prop :=
  ∀ (s : State) (d i : Fin 3) (k : Fin 4) (level : Bool) (x : Fin 6), let a := s.ad d
    let lv := if level then a.k.levels ||| oneBit 3 i.val else a.k.levels &&& ~~~ oneBit 3 i.val
    (s.pwr.pdUp = true → a.st ≠ .off → a.scheme = 3 → bit a.k.levels i.val ≠ level →
      a.k.sectorKnown = true → a.sectorOf lv.toNat = some x →
      x.val = (a.sector.val + 1) % 6 ∨ (x.val + 1) % 6 = a.sector.val →
      Completes (.adInputEdge d i level) s [.chans, .ads, .pls, .tt, .flt, .pm, .rs] fun t =>
        (t.ad d).sector = x ∧ bit (t.ad d).ev.flag 5 = true ∧ (t.ad d).k.levels = lv) ∧
    (s.pwr.pdUp = false ∨ a.st = .off ∨ bit a.k.levels i.val = level →
      Completes (.adInputEdge d i level) s [] fun _ => True) ∧
    (s.pwr.pdUp = true → a.st = .locked → bit (at_ a.atrig k) 31 = true →
      posReached (a.position s.tb) (at_ a.trigDue k) = true →
      Completes (.angleTrigger d k) s [.ads, .tt] fun t =>
        bit (t.ad d).ev.flag (11 + k.val) = true ∧ at_ (t.ad d).trigDue k = at_ a.trigDue k + 0x01000000 ∧
        (∀ j, j ≠ k → at_ (t.ad d).trigDue j = at_ a.trigDue j) ∧ (t.ad d).st = .locked ∧ ∀ e, e ≠ d → t.ad e = s.ad e) ∧
    (s.pwr.pdUp = false ∨ a.st ≠ .locked ∨ bit (at_ a.atrig k) 31 = false →
      Completes (.angleTrigger d k) s [] fun _ => True)

/-- Enabling a domain. With the configuration unlocked and EN 0, a field outside its limits leaves EN 0 and sets CFG_ERR,
and valid fields set EN with CFG_ERR clear; the domain enters SEARCH in the next core cycle (the model's choice, log 35), or
LOST when it is held. With EN 1 a write that would change another field is ignored whole and sets WWR; once locked nothing
changes, nor while the domain is held in reset (06 R252, R260, R262; 00 R10). -/
def Obligations.DomainEnable : Prop :=
  ∀ (s : State) (d : Fin 3) (w : Word), let a := s.ad d
    let v : BitVec 12 := (w ||| 1).setWidth 12 &&& 0xFFD
    (s.boot.locked = true ∨ s.pwr.pdUp = false → Completes (.adCtlEnable d w) s [] fun _ => True) ∧
    (s.pwr.pdUp = true → s.boot.locked = false →
      (a.en = true → v ≠ a.ctl ||| 1 →
        Completes (.adCtlEnable d w) s [.ads, .tt] fun t =>
          (t.ad d).ctl = a.ctl ∧ (t.ad d).st = a.st ∧ bit (t.ad d).ev.flag 10 = true ∧ ∀ e, e ≠ d → t.ad e = s.ad e) ∧
      (a.en = true → v = a.ctl ||| 1 → Completes (.adCtlEnable d w) s [] fun _ => True) ∧
      (a.en = false → ({ a with ctl := v } : AngleDom).badConfig = true →
        Completes (.adCtlEnable d w) s [.ads] fun t =>
          t.ad d = { a with ctl := v &&& 0xFFE, cfgErr := true } ∧ ∀ e, e ≠ d → t.ad e = s.ad e) ∧
      (a.en = false → ({ a with ctl := v } : AngleDom).badConfig = false →
        Completes (.adCtlEnable d w) s [.ads] fun t =>
          t.ad d = { a with ctl := v, cfgErr := false, k := { a.k with begins := true } } ∧ (t.ad d).en = true ∧
          ∀ e, e ≠ d → t.ad e = s.ad e)) ∧
    (a.k.begins = true → ((s.beginDomain d).ad d).k.begins = false ∧
      ((s.beginDomain d).ad d).st = (if s.held d then .lost else .search))

/-- When a write to PL_CTL sets EN while SRC, REF or CUT is 3, or while SRC equals REF, the device leaves EN 0 and sets
PL_STAT.CFG_ERR; the other fields of the write take effect; a later write that sets EN with valid fields clears CFG_ERR.
Once the configuration is locked, or in reset, nothing changes. Clearing TRIP resets the count, and a domain it held alone
enters SEARCH; a trip of the clearing's own core cycle stays (06 R237, R246, R247; 00 R9). -/
def Obligations.CheckerControl : Prop :=
  ∀ (s : State) (k : Fin 2) (w : Word), let p := s.pl k
    let bad := fld w 5 4 = 3 ∨ fld w 7 6 = 3 ∨ fld w 9 8 = 3 ∨ fld w 5 4 = fld w 7 6
    let fields (q : Checker) : Prop := fld q.ctl 1 1 = fld w 1 1 ∧ fld q.ctl 5 4 = fld w 5 4 ∧ fld q.ctl 7 6 = fld w 7 6 ∧
      fld q.ctl 9 8 = fld w 9 8 ∧ fld q.ctl 15 12 = fld w 15 12 ∧ q = { p with ctl := q.ctl, cfgErr := q.cfgErr }
    let freed (t : State) : Prop :=
      ∀ d, (s.ad d).st = .lost → s.held d = true → t.held d = false → (t.ad d).st = .search
    (s.boot.locked = true ∨ s.pwr.pdUp = false → Completes (.plCtlWrite k w) s [] fun _ => True) ∧
    (s.pwr.pdUp = true → s.boot.locked = false → Completes (.plCtlWrite k w) s [.chans, .ads, .pls, .tt] fun t =>
      fields (t.pl k) ∧ (bit (t.pl k).ctl 0 = true ↔ bit w 0 = true ∧ ¬ bad) ∧
      (bit w 0 = true → ((t.pl k).cfgErr = true ↔ bad)) ∧ (bit w 0 = false → (t.pl k).cfgErr = p.cfgErr) ∧ freed t ∧
      (∀ d, (s.ad d).st ≠ .off → s.held d = false → t.held d = true → (t.ad d).st = .lost) ∧
      ∀ j, j ≠ k → t.pl j = s.pl j) ∧
    (s.pwr.pdUp = true → p.trip = true → s.w1c (0x4610 + 0x20 * k.val) 1 ≠ 0 →
      Completes (.plTripClear k) s [.ads, .pls] fun t =>
        t.pl k = { p with trip := false, cnt := 0 } ∧ (∀ j, j ≠ k → t.pl j = s.pl j) ∧ freed t) ∧
    (s.pwr.pdUp = false ∨ p.trip = false ∨ s.w1c (0x4610 + 0x20 * k.val) 1 = 0 →
      Completes (.plTripClear k) s [] fun _ => True)

/-! ## Timetable (07) -/

/-- A client's write of word 3. ARM 1 inserts a FREE ordinary entry with its staged key and argument, WAITING, owned by the
writer, or by whom client 0 names; a refusal changes no entry and records status, client and handle with HERR: BUSY for an
entry that is not FREE or was selected in this core cycle, FULL for one that SCHED took in it as the last free entry, else
what the key, the handle or the quota gives. ARM 0 frees a WAITING or READY entry of the canceller's own, or any for client 0,
with no notice; a FREE entry stays, and another owner's is refused with RIGHTS (07 R275, R276, R278, R279, R301, R305, Table
7.2). In reset neither does anything. -/
def Obligations.CalendarWrites : Prop :=
  ∀ (s : State) (c : Fin 256) (h : Fin 1024) (w : Word), TablesCanonical s → let e := s.calEntry h.val
    let owner : Fin 256 := if c = 0 then Fin.ofNat 256 (fld w 7 0) else c
    let herr (status : Nat) (t : State) : Prop :=
      t.tt.herrStatus = .ofNat 4 status ∧ t.tt.herrClient = c ∧ t.tt.herrHandle.toNat = h.val ∧ bit t.tt.flag 1 = true ∧
      t.tt.cal = s.tt.cal
    let open_ : Prop := e.st = .free ∧ h.val ∉ s.cyc.selected
    (s.pwr.pdUp = false → Completes (.calendarInsert c h w) s [] (fun _ => True) ∧
      Completes (.calendarCancel c h) s [] fun _ => True) ∧
    (s.pwr.pdUp = true →
      (e.st ≠ .free → s.cyc.lastFree ≠ some h.val → Completes (.calendarInsert c h w) s [.tt] (herr 6)) ∧
      (e.st ≠ .free → s.cyc.lastFree = some h.val →
        Completes (.calendarInsert c h w) s [.tt] fun t => herr 1 t ∧ bit t.tt.flag 0 = true) ∧
      (e.st = .free → h.val ∈ s.cyc.selected → Completes (.calendarInsert c h w) s [.tt] (herr 6)) ∧
      (open_ → s.keyStatus (hi16 e.key) w = 0 → h.val < 1016 → s.overQuota owner = false →
        Completes (.calendarInsert c h w) s [.tt] fun t => let f := t.calEntry h.val
          f.st = .waiting ∧ f.key = e.key ∧ f.arg = e.arg ∧ f.pri.toNat = fld w 28 26 ∧ f.keysel.toNat = fld w 25 24 ∧
          f.entry.toNat = fld w 20 8 ∧ f.owner = owner ∧
          (∀ k, k ≠ h.val → t.calEntry k = s.calEntry k) ∧ t.tt.flag = s.tt.flag) ∧
      (open_ → s.keyStatus (hi16 e.key) w ≠ 0 →
        Completes (.calendarInsert c h w) s [.tt] (herr (s.keyStatus (hi16 e.key) w))) ∧
      (open_ → s.keyStatus (hi16 e.key) w = 0 → 1016 ≤ h.val →
        Completes (.calendarInsert c h w) s [.tt] fun t => herr 1 t ∧ bit t.tt.flag 0 = true) ∧
      (open_ → s.keyStatus (hi16 e.key) w = 0 → h.val < 1016 → s.overQuota owner = true →
        Completes (.calendarInsert c h w) s [.tt] fun t => herr 2 t ∧ bit t.tt.flag 0 = true) ∧
      (e.st ≠ .free → c = 0 ∨ e.owner = c →
        Completes (.calendarCancel c h) s [.tt] fun t =>
          (t.calEntry h.val).st = .free ∧ (t.calEntry h.val).key = e.key ∧ (t.calEntry h.val).arg = e.arg ∧
          (∀ k, k ≠ h.val → t.calEntry k = s.calEntry k) ∧ t.tt.flag = s.tt.flag) ∧
      (e.st = .free → Completes (.calendarCancel c h) s [] fun _ => True) ∧
      (e.st ≠ .free → c ≠ 0 → e.owner ≠ c → Completes (.calendarCancel c h) s [.tt] (herr 5)))

/-- What falls due becomes READY from the next core cycle, one entry of a heap in a cycle: a WAITING time entry whose due
cycle has come, and a WAITING entry of a LOCKED domain whose key is reached in a cycle after its insertion; every other entry
stays as it was, but for noting that it fell due too; with none due, or one of the heap moved in this cycle already, no entry
becomes READY. Where several are due, one of them that is due becomes READY (07 R266–R268, R308). In reset nothing does. -/
def Obligations.DueEntriesBecomeReady : Prop :=
  ∀ (s : State) (d : Fin 3),
    let dueT (e : CalEntry) : Prop := e.st = .waiting ∧ e.keysel = 0 ∧ reached s.tb e.dueAt = true
    let dueA (pos : Word) (e : CalEntry) : Prop :=
      e.st = .waiting ∧ e.keysel.toNat = d.val + 1 ∧ e.doomed = false ∧
        (e.fell = true ∨ (e.insAt < s.time ∧ posReached pos (lo32 e.key) = true))
    let made (due : CalEntry → Prop) (fell : CalEntry → CalEntry) (t : State) : Prop :=
      ∃ h, due (s.calEntry h) ∧ t.calEntry h = { fell (s.calEntry h) with
          st := .ready, readyAt := s.time + 1, late := (fell (s.calEntry h)).late || !(s.boot.applied && s.me.en) } ∧
        ∀ k, k ≠ h → t.calEntry k = fell (s.calEntry k)
    let falls (pos : Word) (e : CalEntry) : CalEntry :=
      if e.keysel.toNat = d.val + 1 then e.fallDue pos s.tb s.time else e
    TablesCanonical s →
    (s.pwr.pdUp = false → Completes .calendarTimeDue s [] (fun _ => True) ∧
      Completes (.calendarAngleDue d) s [] fun _ => True) ∧
    (0 ∈ s.cyc.moved → Completes .calendarTimeDue s [] fun _ => True) ∧
    (BitVec.ofNat 2 (d.val + 1) ∈ s.cyc.moved → Completes (.calendarAngleDue d) s [] fun _ => True) ∧
    (s.pwr.pdUp = true →
      (0 ∉ s.cyc.moved → (∃ h, dueT (s.calEntry h)) → Completes .calendarTimeDue s [.tt] (made dueT id)) ∧
      ((∀ h, ¬ dueT (s.calEntry h)) → Completes .calendarTimeDue s [] fun _ => True) ∧
      (∀ pos, s.domPos (.ofNat 2 d.val) = some pos →
        (BitVec.ofNat 2 (d.val + 1) ∉ s.cyc.moved → (∃ h, dueA pos (s.calEntry h)) →
          Completes (.calendarAngleDue d) s [.tt] (made (dueA pos) (falls pos))) ∧
        ((∀ h, ¬ dueA pos (s.calEntry h)) → Completes (.calendarAngleDue d) s [] fun _ => True)) ∧
      (s.domPos (.ofNat 2 d.val) = none → Completes (.calendarAngleDue d) s [] fun _ => True))

/-- The sweep of a domain frees exactly the entries frozen at its LOST or DROP, posts one cancel notice for each, and ends;
with no sweep pending, or in reset, nothing changes (07 R280, R281). -/
def Obligations.SweepCancelsFrozenEntries : Prop :=
  ∀ (s : State) (d : Fin 3), TablesCanonical s →
    (∀ why, s.pwr.pdUp = true → at_ s.tt.sweeps d = some why →
      Completes (.domainSweep d) s [.tt, .sc] fun t =>
        at_ t.tt.sweeps d = none ∧ (∀ e, e ≠ d → at_ t.tt.sweeps e = at_ s.tt.sweeps e) ∧
        (∀ h, (s.calEntry h).st ≠ .free → (s.calEntry h).doomed = true → (s.calEntry h).keysel.toNat = d.val + 1 →
          (t.calEntry h).st = .free) ∧
        (∀ h, (s.calEntry h).st = .free ∨ (s.calEntry h).doomed = false ∨ (s.calEntry h).keysel.toNat ≠ d.val + 1 →
          t.calEntry h = s.calEntry h) ∧
        t.sc.posted.length = s.sc.posted.length + (s.tt.cal.filter fun p =>
          decide (p.2.st ≠ .free) && p.2.doomed && decide (p.2.keysel.toNat = d.val + 1)).length) ∧
    (s.pwr.pdUp = false ∨ at_ s.tt.sweeps d = none → Completes (.domainSweep d) s [] fun _ => True)

/-- Dispatch of the candidate that R270 selects, a calendar entry, by an idle engine with configuration applied in RUN: the
entry is FREE, the engine runs in a new window with W0 to W3 of Table 7.3, W4 to W7 zero, flags clear and PC at the entry point; nothing
is dispatched before configuration is applied, while EN is 0 or in a trap (07 R271, R285, R292, R308), nor in reset. -/
def Obligations.DispatchOpensAWindow : Prop :=
  ∀ (s : State) (h : Nat) (e : CalEntry), TablesCanonical s →
    (s.boot.applied = false ∨ s.me.en = false ∨ s.me.trapWin ≠ none ∨ s.pwr.pdUp = false →
      Completes (.dispatch []) s [] fun _ => True) ∧
    (s.pwr.pdUp = true → s.mayDispatch = true → s.me.st = .idle → s.bestCand = some (.entry h e) → s.calEntry h = e → h < 1024 →
      s.me.frames.length < 15 →
      Completes (.dispatch []) s [.tt, .me, .flt] fun t =>
        (t.calEntry h).st = .free ∧ t.me.st = .running ∧ t.tt.cnt = satInc s.tt.cnt ∧
        ∃ f : Frame, t.me.frames = f :: s.me.frames ∧
          f.w = #v[e.arg, f.desc, lo32 e.key, (if e.keysel = 0 then hi16 e.key else 0), 0, 0, 0, 0] ∧
          f.flags = 0 ∧ f.pc = e.entry ∧ f.called = false ∧ f.desc.toNat / 2 ^ 16 % 256 = e.owner.val ∧
          f.desc.toNat / 2 ^ 30 = 0)

/-- ME_SPILL takes no value that places a frame beyond BANK5, or any once the configuration is locked; a write of ME_G takes
effect only while the engine is STOPPED or FENCED, and leaves the other registers (07 R310, Table 7.12); in reset neither is
written. -/
def Obligations.EngineRegisterWrites : Prop :=
  ∀ (s : State) (w : Word) (k : Fin 8),
    let frames := if fld w 23 16 = 0 then 256 else fld w 23 16
    (s.pwr.pdUp = false ∨ s.boot.locked = true ∨ 256 < fld w 7 0 + frames → Completes (.meSpillWrite w) s [] fun _ => True) ∧
    (s.pwr.pdUp = true → s.boot.locked = false → fld w 7 0 + frames ≤ 256 → Completes (.meSpillWrite w) s [.me] fun t =>
      t.me.spillFrames.toNat = fld w 23 16 ∧ t.me.spillBase.toNat = fld w 7 0 ∧
      t.me = { s.me with spillFrames := t.me.spillFrames, spillBase := t.me.spillBase }) ∧
    (s.pwr.pdUp = true → s.me.st = .stopped ∨ s.me.st = .fenced → Completes (.meGWrite k w) s [.me] fun t =>
      at_ t.me.g k = w ∧ (∀ j, j ≠ k → at_ t.me.g j = at_ s.me.g j) ∧ t.me = { s.me with g := t.me.g }) ∧
    (s.pwr.pdUp = false ∨ (s.me.st ≠ .stopped ∧ s.me.st ≠ .fenced) → Completes (.meGWrite k w) s [] fun _ => True)

/-! ## The microengine (07, 08) -/

/-- The ALU group and the immediate forms leave the result of Tables 8.3 and 8.4 in RD, the flags they mark from it and the
others as they were, and go to the next word; CMP, TST and their immediate forms write no register (08 R311, R312,
R322–R324). -/
def Obligations.ArithmeticInstructions : Prop :=
  ∀ (s : State) (rd ra rb : Fin 16) (imm : BitVec 18) (k : BitVec 16) (n : Fin 32),
    let a := s.reg ra
    let b := s.reg rb
    let f := s.flags
    let sx : Word := imm.signExtend 32
    let zx : Word := imm.setWidth 32
    let wr (v : Word) (q : Fin 16) : Word := if q = rd then v else s.reg q
    let zn (r : Word) : Flags := { f with n := r.getLsbD 31, z := decide (r = 0) }
    let sum (x : Word) (cin : Bool) : Flags :=
      let r := a + x + .ofNat 32 (b2n cin)
      { zn r with c := decide (2 ^ 32 ≤ a.toNat + x.toNat + b2n cin), v := decide (r.toInt ≠ a.toInt + x.toInt + (b2n cin : Int)) }
    let dif (x : Word) (bin : Bool) : Flags :=
      let r := a - x - .ofNat 32 (b2n bin)
      { zn r with c := decide (x.toNat + b2n bin ≤ a.toNat), v := decide (r.toInt ≠ a.toInt - x.toInt - (b2n bin : Int)) }
    let sh (r : Word) (m : Nat) (out : Bool) : Flags := { zn r with c := if m = 0 then f.c else out }
    let shl (m : Nat) : Word := .ofNat 32 (a.toNat * 2 ^ m)
    let shr (m : Nat) : Word := .ofNat 32 (a.toNat / 2 ^ m)
    let sar (m : Nat) : Word := .ofInt 32 (a.toInt / 2 ^ m)
    let m := b.toNat % 32
    let does (i : MeInstr) (c : Instr) (v : Fin 16 → Word) (fl : Flags) : Prop :=
      s.Issues i → Retires c s v fl (s.pc + 1) []
    let alu (o : AluOp) (c : Instr) (v : Word) (fl : Flags) : Prop := does (.alu o rd ra rb) c (wr v) fl
    let im (o : ImmOp) (c : Instr) (v : Word) (fl : Flags) : Prop := does (.imm o rd ra imm) c (wr v) fl
    let shi (o : ImmOp) (c : Instr) (v : Word) (fl : Flags) : Prop := does (.imm o rd ra (.ofNat 18 n.val)) c (wr v) fl
    let bor : Bool := !f.c
    alu .add (.add rd ra rb) (a + b) (sum b false) ∧
    alu .adc (.adc rd ra rb) (a + b + .ofNat 32 (b2n f.c)) (sum b f.c) ∧
    alu .sub (.sub rd ra rb) (a - b) (dif b false) ∧
    alu .sbc (.sbc rd ra rb) (a - b - .ofNat 32 (b2n bor)) (dif b bor) ∧
    alu .and (.and rd ra rb) (a &&& b) (zn (a &&& b)) ∧
    alu .or (.or rd ra rb) (a ||| b) (zn (a ||| b)) ∧
    alu .xor (.xor rd ra rb) (a ^^^ b) (zn (a ^^^ b)) ∧
    alu .andn (.andn rd ra rb) (a &&& ~~~b) (zn (a &&& ~~~b)) ∧
    alu .shl (.shl rd ra rb) (shl m) (sh (shl m) m (a.getLsbD (32 - m))) ∧
    alu .shr (.shr rd ra rb) (shr m) (sh (shr m) m (a.getLsbD (m - 1))) ∧
    alu .sar (.sar rd ra rb) (sar m) (sh (sar m) m (a.getLsbD (m - 1))) ∧
    alu .mul (.mul rd ra rb) (.ofNat 32 (a.toNat * b.toNat)) (zn (.ofNat 32 (a.toNat * b.toNat))) ∧
    alu .mulhu (.mulhu rd ra rb) (.ofNat 32 (a.toNat * b.toNat / 2 ^ 32)) (zn (.ofNat 32 (a.toNat * b.toNat / 2 ^ 32))) ∧
    (let q : Word := if b = 0 then 0xFFFFFFFF else .ofNat 32 (a.toNat / b.toNat)
     alu .divu (.divu rd ra rb) q { zn q with v := decide (b = 0) }) ∧
    (let q : Word := if b = 0 then a else .ofNat 32 (a.toNat % b.toNat)
     alu .remu (.remu rd ra rb) q { zn q with v := decide (b = 0) }) ∧
    alu .minu (.minu rd ra rb) (.ofNat 32 (min a.toNat b.toNat)) (zn (.ofNat 32 (min a.toNat b.toNat))) ∧
    alu .maxu (.maxu rd ra rb) (.ofNat 32 (max a.toNat b.toNat)) (zn (.ofNat 32 (max a.toNat b.toNat))) ∧
    does (.alu .cmp 0 ra rb) (.cmp ra rb) s.reg (dif b false) ∧
    does (.alu .tst 0 ra rb) (.tst ra rb) s.reg (zn (a &&& b)) ∧
    does (.alu .mov rd ra 0) (.mov rd ra) (wr a) (zn a) ∧
    im .addi (.addi rd ra imm) (a + sx) (sum sx false) ∧
    im .andi (.andi rd ra imm) (a &&& zx) (zn (a &&& zx)) ∧
    im .ori (.ori rd ra imm) (a ||| zx) (zn (a ||| zx)) ∧
    im .xori (.xori rd ra imm) (a ^^^ zx) (zn (a ^^^ zx)) ∧
    shi .shli (.shli rd ra n) (shl n.val) (sh (shl n.val) n.val (a.getLsbD (32 - n.val))) ∧
    shi .shri (.shri rd ra n) (shr n.val) (sh (shr n.val) n.val (a.getLsbD (n.val - 1))) ∧
    shi .sari (.sari rd ra n) (sar n.val) (sh (sar n.val) n.val (a.getLsbD (n.val - 1))) ∧
    does (.imm .cmpi 0 ra imm) (.cmpi ra imm) s.reg (dif sx false) ∧
    does (.imm .tsti 0 ra imm) (.tsti ra imm) s.reg (zn (a &&& zx)) ∧
    does (.movi rd imm) (.movi rd imm) (wr sx) f ∧
    does (.movhi rd k) (.movhi rd k) (wr (.ofNat 32 (k.toNat * 2 ^ 16))) f

/-- A load puts the bank word's part that its address names into RD, sign- or zero-extended, with the engine's own held
stores seen, and counts as its saving in a region under test; a register load gives the register's value once nothing is held; a store is held with its owner, address,
size and data until it is released; an atomic gives RD the old value and its target the new one, a bank target held until
its write is released; CAS alone changes a flag, Z (08 R318–R320, R325, R327, R328, Tables 8.5, 8.6). -/
def Obligations.DataAccessInstructions : Prop :=
  ∀ (s : State) (rd ra rb : Fin 16) (imm : BitVec 18),
    let ea : Word := s.reg ra + imm.signExtend 32
    let at0 : Word := s.reg ra
    let wr (v : Word) (q : Fin 16) : Word := if q = rd then v else s.reg q
    let part (w : Word) (o size : Nat) : Word := .ofNat 32 (w.toNat / 2 ^ (8 * o) % 2 ^ (8 * 2 ^ size))
    let loaded (op : LdOp) (w : Word) : Word :=
      match op with
      | .ldw => w
      | .ldh => ((part w (ea.toNat % 4) 1).setWidth 16).signExtend 32
      | .ldhu => part w (ea.toNat % 4) 1
      | .ldb => ((part w (ea.toNat % 4) 0).setWidth 8).signExtend 32
      | .ldbu => part w (ea.toNat % 4) 0
    let sound (p : Nat) : Prop :=
      (s.bank (bankOf p)).st = .on ∧ (s.bank (bankOf p)).recov = false ∧ cellRead 0 s.mem.errs (p / 4 * 4) = 0
    (∀ (op : LdOp) (p : Nat), s.Issues (.load op rd ra imm) → isMemAddr ea.toNat = true → ea.toNat % 2 ^ op.size = 0 →
      s.resolve ea.toNat = some p → sound p → s.permits s.meOwner ea.toNat false 0 = true → bankOf (p / 4 * 4) = bankOf p →
      Completes (op.command rd ra imm) s [.me, .mem] (fun t =>
        Left s t (wr (loaded op (s.overlay (p / 4 * 4) (s.bankData (p / 4 * 4))))) s.flags (s.pc + 1) [] ∧
        t.mem = (s.markSaved (p / 4 * 4)).mem) ∧
      (s.me.outbox = [] → s.overlay (p / 4 * 4) (s.bankData (p / 4 * 4)) = s.bankData (p / 4 * 4))) ∧
    (∀ (w : Word) (u : State), s.Issues (.load .ldw rd ra imm) → s.addrTrap ea 2 false = none → isMemAddr ea.toNat = false →
      s.permits s.meOwner ea.toNat false 0 = true → s.me.outbox = [] → s.regRead ea.toNat = some (w, u) →
      exec (.ldw rd ra imm) s = .next ((u.setReg rd w).pcNext)) ∧
    (∀ op : StOp, s.Issues (.store op rd ra imm) → s.addrTrap ea op.size true = none →
      s.permits s.meOwner ea.toNat true (s.reg rd) = true →
      Retires (op.command rd ra imm) s s.reg s.flags (s.pc + 1) [.store s.meOwner (ea.setWidth 20) op.size (s.reg rd)]) ∧
    (∀ op : AtomOp,
      let next (old : Word) : Word :=
        match op with
        | .xadd => old + s.reg rb
        | .xchg => s.reg rb
        | .xset => old ||| s.reg rb
        | .xclr => old &&& ~~~s.reg rb
        | .cas => if old = s.reg rd then s.reg rb else old
      let fl (old : Word) : Flags := if op = .cas then { s.flags with z := decide (old = s.reg rd) } else s.flags
      (s.Issues (.atom op true rd ra rb) → ra.val < 8 →
        Retires (op.command true rd ra rb) s
          (fun q => if q = rd then at0 else if q = ra then next at0 else s.reg q) (fl at0) (s.pc + 1) []) ∧
      (∀ p : Nat, s.Issues (.atom op false rd ra rb) → isMemAddr at0.toNat = true → at0.toNat % 4 = 0 →
        s.resolve at0.toNat = some p → p % 4 = 0 → sound p → s.inSpill p = false → s.mem.lock = none → s.me.outbox = [] →
        s.permits s.meOwner at0.toNat true (s.reg rb) = true → s.permits s.meOwner at0.toNat false 0 = true →
        Completes (op.command false rd ra rb) s [.me, .mem] fun t =>
          Left s t (wr (s.bankData p)) (fl (s.bankData p)) (s.pc + 1) [.atomic s.meOwner (at0.setWidth 20) (next (s.bankData p))] ∧
          t.mem = { (s.markSaved p).mem with lock := some p }))

/-- A branch is taken on its condition of Table 8.8; JR goes to the word in its register; NOP does nothing; CALL opens the
next window of the ring for the called frame, spilling the oldest frame to BANK5 when all 15 are live; RET closes a frame
that CALL opened and resumes the one below, refilled from BANK5 when it was spilled; YIELD ends the dispatch, in window 0
the handler and the faulting dispatch, and the suspended program or idle follows when nothing is READY (07 R286–R288, R291;
08 R329–R331). -/
def Obligations.ControlFlowInstructions : Prop :=
  ∀ (s : State) (cond ra : Fin 16) (target : BitVec 13),
    let f := s.flags
    let taken : Bool := [true, f.z, !f.z, f.c, !f.c, f.n, !f.n, f.v, !f.v, f.c && !f.z, !f.c || f.z, f.n == f.v, f.n != f.v,
      !f.z && f.n == f.v, f.z || f.n != f.v].getD cond.val false
    let next (w : Nat) : Nat := if w = 15 then 1 else w + 1
    (s.Issues (.b cond target) → cond ≠ 15 →
      Retires (.b cond target) s s.reg f (if taken then target else s.pc + 1) []) ∧
    (s.Issues (.jr ra) → Retires (.jr ra) s s.reg f ((s.reg ra).setWidth 13) []) ∧
    (s.Issues .nop → Retires .nop s s.reg f (s.pc + 1) []) ∧
    (∀ (cur : Frame) (rest : List Frame), s.Issues (.call target) → s.inTrap = false → s.me.frames = cur :: rest →
      let opens (t : State) : Prop := ∃ new : Frame,
        new.w = .replicate 8 0 ∧ new.flags = 0 ∧ new.pc = target ∧ new.called = true ∧ new.desc = cur.desc ∧
        new.win = next cur.win ∧ t.me.g = s.me.g ∧
        t.me.frames = new :: { cur with pc := cur.pc + 1 } :: (if rest.length < 14 then rest else rest.dropLast)
      (rest.length < 14 → Completes (.call target) s [.me] fun t => opens t ∧ t.me.spilled = s.me.spilled) ∧
      (rest.length = 14 → MemCanonical s → s.me.spilled < s.spillCap → (s.bank 5).st = .on →
        Completes (.call target) s [.me, .mem] fun t => opens t ∧ t.me.spilled = s.me.spilled + 1 ∧
          ∀ i : Fin 16, ∀ old, rest.getLast? = some old →
            t.bankData (s.spillAddr s.me.spilled i.val) = old.record.getD i.val 0)) ∧
    (∀ (cur below : Frame) (rest : List Frame), s.Issues .ret → s.inTrap = false → s.me.frames = cur :: below :: rest →
      cur.called = true → Completes .ret s [.me] fun t =>
        t.me.frames = below :: rest ∧ t.me = { s.me with frames := t.me.frames, results := t.me.results, below := t.me.below }) ∧
    (∀ (cur : Frame) (k : Nat), s.Issues .ret → s.inTrap = false → s.me.frames = [cur] → cur.called = true →
      s.me.spilled = k + 1 →
      (∀ i : Fin 16, (s.bank (bankOf (s.spillAddr k i.val))).st = .on ∧ cellRead 0 s.mem.errs (s.spillAddr k i.val) = 0) →
      Completes .ret s [.me, .mem] fun t => (∀ q, t.bankData q = s.bankData q) ∧ t.me.spilled = k ∧
        ∃ g : Frame, t.me.frames = [g] ∧
        (∀ i : Fin 8, at_ g.w i = s.bankData (s.spillAddr k i.val)) ∧ g.desc = s.bankData (s.spillAddr k 9) ∧
        g.pc.toNat = (s.bankData (s.spillAddr k 8)).toNat % 2 ^ 13) ∧
    (∀ (cur : Frame) (rest : List Frame), s.Issues .yield → s.inTrap = false ∨ s.me.trapLive = true →
      s.me.frames = cur :: rest → cur.called = false → s.readyCand 0 = none → rest ≠ [] ∨ s.me.spilled = 0 →
      Completes .yield s [.me] fun t => t.me.frames = rest ∧ t.me.trapWin = none ∧ t.me.g = s.me.g ∧
        t.me.st = (if rest = [] then .idle else .running))

/-- SCHED, CANCEL, EDGE, SIGNAL and POST are held as the requests their registers give, changing no register or flag; SNAP
and ATT write their 48-bit values, ATT with C for a domain not LOCKED, Z for a target reached, V for a time cut at
2^47 − 1 (08 R320, R332–R342). -/
def Obligations.RequestInstructions : Prop :=
  ∀ (s : State) (rd re ra rb rc : Fin 16) (shd chr : Bool) (ch : Fin 64) (n : Fin 8) (cl : Fin 256) (sel : BitVec 7) (d : Fin 3),
    let o := s.meOwner
    let uid := (s.curFrame.getD {}).uid
    let pair (v : W48) (q : Fin 16) : Word := if q = re then hi16 v else if q = rd then lo32 v else s.reg q
    let held (c : Instr) (r : MeReq) : Prop := Retires c s s.reg s.flags (s.pc + 1) [r]
    let dom : BitVec 2 := .ofNat 2 d.val
    (s.Issues (.sched rd ra) → o = 0 ∨ fld (s.reg (ra + 3)) 7 0 = o.val →
      held (.sched rd ra) (.sched o s.inTrap uid rd (s.reg ra) (s.reg (ra + 1)) (s.reg (ra + 2)) (s.reg (ra + 3)))) ∧
    (s.Issues (.cancel rd ra) → held (.cancel rd ra) (.cancel o s.inTrap uid rd ((s.reg ra).setWidth 10))) ∧
    (let k : Nat := if chr then (s.reg rc).toNat % 64 else ch.val
     s.Issues (.edge rc ra rb shd chr ch) → s.permits o (0x2000 + 0x80 * k + (if shd then 0x70 else 0x6C)) true 0 = true →
      held (.edge rc ra rb shd chr ch)
        (.edge o (Fin.ofNat 64 k) shd (.ofNat 16 ((s.reg rc).toNat / 2 ^ 16)) (wide (s.reg rb) (s.reg ra)))) ∧
    (s.Issues (.signal n) → s.permits o 0x4C60 true 0 = true → held (.signal n) (.signal n)) ∧
    (s.Issues (.post ra rb cl) → o = 0 ∨ cl = o → held (.post ra rb cl) (.post o cl (s.reg ra) (s.reg rb))) ∧
    (s.Issues (.snap rd re sel) → sel.toNat < 64 → s.permits o (0x2020 + 0x80 * sel.toNat) false 0 = true →
      Retires (.snap rd re sel) s (pair (s.chan (Fin.ofNat 64 sel.toNat)).c.cnt) s.flags (s.pc + 1) []) ∧
    (s.Issues (.snap rd re 0x40) → s.permits o 0x40 false 0 = true →
      Retires (.snap rd re 0x40) s (pair s.tb) s.flags (s.pc + 1) []) ∧
    (s.Issues (.att rd re ra dom) → s.permits o (0x4030 + 0x200 * d.val) false 0 = true →
      let gives (v : W48) (c z v' : Bool) : Prop :=
        Retires (.att rd re ra dom) s (pair v) { s.flags with c := c, z := z, v := v' } (s.pc + 1) []
      (s.domPos dom = none → gives 0 true false false) ∧
      (∀ pos, s.domPos dom = some pos →
        let dist := (s.reg ra - pos).toNat
        let rate := (s.ad d).k.rate
        (dist = 0 ∨ 2 ^ 31 ≤ dist → gives s.tb false true false) ∧
        (0 < dist → dist < 2 ^ 31 → 0 < rate →
          let cyc := (dist * 2 ^ 32 + rate - 1) / rate
          (cyc ≤ 2 ^ 47 - 1 → gives (s.tb + .ofNat 48 cyc) false false false) ∧
          (2 ^ 47 - 1 < cyc → gives (s.tb + .ofNat 48 (2 ^ 47 - 1)) false false true))))

/-- The oldest held request leaves and takes effect: a store in a bank, ME_SIG, an event in transit, an insertion or a
cancel whose status and handle then go to RD of the window that asked; with none held nothing changes (07 R296;
08 R317, R334, R335, R341, R342, R344). -/
def Obligations.HeldRequestsTakeEffect : Prop :=
  ∀ (s : State) (rest : List MeReq), s.pwr.pdUp = true → TablesCanonical s → MemCanonical s →
    let left (t : State) : Prop := t.me.outbox = rest
    (s.me.outbox = [] → Completes .requestRelease s [] fun _ => True) ∧
    (∀ (o : Fin 256) (a : BitVec 20) (d : Word) (p : Nat), s.me.outbox = .store o a 2 d :: rest → isMemAddr a.toNat = true →
      s.resolve a.toNat = some p → (s.bank (bankOf p)).st = .on → (s.bank (bankOf p)).recov = false →
      Completes .requestRelease s [.me, .mem] fun t => left t ∧ t.bankData p = d ∧
        ∀ q, q + 4 ≤ p ∨ p + 4 ≤ q → t.bankData q = s.bankData q) ∧
    (∀ n : Fin 8, s.me.outbox = .signal n :: rest →
      Completes .requestRelease s [.me] fun t => left t ∧ ∀ k, bit t.me.sig k = (bit s.me.sig k || decide (k = n.val))) ∧
    (∀ (o cl : Fin 256) (a b : Word), s.me.outbox = .post o cl a b :: rest →
      Completes .requestRelease s [.me, .sc] fun t => left t ∧ ∃ e : Event,
        t.sc.posted = s.sc.posted ++ [{ client := cl, ev := e, at_ := s.time, rank := 2 }] ∧ e.w1 = a ∧ e.w2 = b ∧ e.w3 = lo32 s.tb ∧
        e.w0.toNat = (s.client cl).seq.toNat * 2 ^ 24 + o.val * 2 ^ 8 + 1) ∧
    (∀ (o : Fin 256) (w0 : Bool) (uid : Nat) (rd : Fin 16) (lo hi arg ctl : Word),
      s.me.outbox = .sched o w0 uid rd lo hi arg ctl :: rest →
      let back (t : State) (v : Word) : Prop :=
        left t ∧ t.me.results = s.me.results ++ [{ uid := uid, rd := rd, value := v }]
      (s.keyStatus hi ctl ≠ 0 →
        Completes .requestRelease s [.me] fun t => back t (.ofNat 32 (s.keyStatus hi ctl * 2 ^ 28))) ∧
      (s.keyStatus hi ctl = 0 → (∃ h, h < 1016 ∧ (s.calEntry h).st = .free) →
        (s.overQuota (Fin.ofNat 256 (fld ctl 7 0)) = true →
          Completes .requestRelease s [.me, .tt] fun t =>
            back t (2 * 2 ^ 28) ∧ t.tt.cal = s.tt.cal ∧ bit t.tt.flag 0 = true) ∧
        (s.overQuota (Fin.ofNat 256 (fld ctl 7 0)) = false →
          Completes .requestRelease s [.me, .tt, .freeCtr] fun t => ∃ h, h < 1016 ∧ (s.calEntry h).st = .free ∧
            back t (.ofNat 32 h) ∧ (t.calEntry h).st = .waiting ∧ (t.calEntry h).key = wide hi lo ∧ (t.calEntry h).arg = arg ∧
            (t.calEntry h).owner.val = fld ctl 7 0 ∧ ∀ j, j ≠ h → t.calEntry j = s.calEntry j))) ∧
    (∀ (o : Fin 256) (w0 : Bool) (uid : Nat) (rd : Fin 16) (h : BitVec 10), s.me.outbox = .cancel o w0 uid rd h :: rest →
      let e := s.calEntry h.toNat
      let back (t : State) (v : Nat) : Prop :=
        left t ∧ t.me.results = s.me.results ++ [{ uid := uid, rd := rd, value := .ofNat 32 (v * 2 ^ 28 + h.toNat) }]
      (e.st ≠ .free → o = 0 ∨ e.owner = o →
        Completes .requestRelease s [.me, .tt] fun t => back t 0 ∧ (t.calEntry h.toNat).st = .free) ∧
      (e.st = .free ∨ (o ≠ 0 ∧ e.owner ≠ o) → Completes .requestRelease s [.me] fun t => back t 7)) ∧
    (s.me.results = [] → Completes .schedResult s [] fun _ => True) ∧
    (∀ (r : MeResult) (more : List MeResult), s.me.results = r :: more →
      Completes .schedResult s [.me] fun t => t.me.results = more ∧
        (∀ (j : Fin 8) (f : Frame), f ∈ s.me.frames ∨ s.me.trapWin = some f → f.uid = r.uid →
          at_ t.me.g j = if j.val = r.rd.val then r.value else at_ s.me.g j) ∧
        ∀ (k : Nat) (f : Frame), s.me.frames[k]? = some f → ∃ g, t.me.frames[k]? = some g ∧ g.shell = f.shell ∧
          g.pc = f.pc ∧ g.flags = f.flags ∧
          ∀ j : Fin 8, at_ g.w j = if f.uid = r.uid ∧ j.val + 8 = r.rd.val then r.value else at_ f.w j)

/-- Traps with the handler enabled: TRAP takes SOFT with its code, a reserved encoding ILLEGAL, a dispatch at its limit
WATCHDOG; a data access out of reach takes BUS, a misaligned one ALIGN, one the owner may not make RIGHTS; SCHED or POST for
another owner RIGHTS, each with the address checked where there is one; a trap inside the handler, recorded like any other,
or a lockstep mismatch fences the engine and cancels the calendar (07 R291, R292, R297, R298; 08 R314, R321, R326, R333, R342,
R343). -/
def Obligations.TrapsAndFences : Prop :=
  ∀ (s : State) (code : BitVec 16) (rd ra rb : Fin 16) (imm : BitVec 18) (cl : Fin 256), TablesCanonical s →
    let ea : Word := s.reg ra + imm.signExtend 32
    let word := cellRead 0 s.me.store s.pc.toNat
    let fenced (c : Instr) (cause mech : Nat) (P : State → Prop) : Prop :=
      Completes c s [.chans, .groves, .ads, .tt, .me, .ps, .afe, .sc, .mem, .tsi, .reports] fun t =>
        P t ∧ t.me.st = .fenced ∧ t.me.fcause.toNat = cause ∧ t.me.frames = [] ∧ t.me.trapWin = none ∧ t.me.outbox = [] ∧
        t.me.results = [] ∧ t.me.g = s.me.g ∧ t.me.sig = s.me.sig ∧ (∀ h, (t.calEntry h).st = .free) ∧
        ∃ r ∈ t.reports, r.mech.toNat = mech ∧ r.kind.toNat = 4
    let wild (c : Instr) (size : Nat) (write : Bool) : Prop :=
      (2 ^ 20 ≤ ea.toNat → EntersTrap c s 5 (some ea)) ∧
      (ea.toNat < 2 ^ 20 → size ≠ 2 → ea.toNat < 0x20000 ∨ 0x80000 ≤ ea.toNat → EntersTrap c s 5 (some ea)) ∧
      (0x20000 ≤ ea.toNat → ea.toNat < 0x80000 → ea.toNat % 2 ^ size ≠ 0 → EntersTrap c s 4 (some ea)) ∧
      (s.addrTrap ea size write = none → s.permits s.meOwner ea.toNat write (if write then s.reg rd else 0) = false →
        EntersTrap c s 6 (some ea))
    let few : Prop := s.meOwner = 0 ∨ (s.client s.meOwner).faultTimes.length < 7
    s.pwr.pdUp = true →
    (s.inTrap = false → s.me.hen = true → few →
      (s.Issues (.trap code) → EntersTrap (.trap code) s 7 (some (code.setWidth 32))) ∧
      (s.meCan = true → cellRead 0 s.me.storeErr s.pc.toNat = 0 → meDecode word = none →
        EntersTrap .illegalInstruction s 3 none) ∧
      (s.meCan = true → s.me.wdog ≠ 0 → EntersTrap .watchdogTrap s 8 none) ∧
      (∀ op : LdOp, s.Issues (.load op rd ra imm) → wild (op.command rd ra imm) op.size false) ∧
      (∀ op : StOp, s.Issues (.store op rd ra imm) → wild (op.command rd ra imm) op.size true) ∧
      (∀ op : AtomOp, s.Issues (.atom op false rd ra rb) → 2 ^ 20 ≤ (s.reg ra).toNat →
        EntersTrap (op.command false rd ra rb) s 5 (some (s.reg ra))) ∧
      (s.Issues (.sched rd ra) → s.meOwner ≠ 0 → fld (s.reg (ra + 3)) 7 0 ≠ s.meOwner.val →
        EntersTrap (.sched rd ra) s 6 none) ∧
      (s.Issues (.post ra rb cl) → s.meOwner ≠ 0 → cl ≠ s.meOwner → EntersTrap (.post ra rb cl) s 6 none)) ∧
    (s.inTrap = true → few → s.Issues (.trap code) → fenced (.trap code) 4 3 (fun t =>
      t.me.trapCode.toNat = 7 ∧ t.me.trapOwner = s.meOwner ∧ t.me.trapPc = s.pc ∧ t.me.trapAddr = code.setWidth 32)) ∧
    (s.me.st ≠ .stopped → s.me.st ≠ .fenced → fenced .lockstepMismatch 1 1 (fun t => t.me.lstep = satInc s.me.lstep)) ∧
    (s.me.st = .stopped ∨ s.me.st = .fenced → Completes .lockstepMismatch s [] fun _ => True)

/-- Every instruction the encodings allow decodes to itself: no field of Tables 8.1 to 8.8 is dropped, whatever the
registers and immediates (08 R313). -/
def Obligations.EncodedInstructionsDecode : Prop := ∀ i : MeInstr, i.legal = true → meDecode i.encode = some i

/-! ## Pin sequencers (09) -/

/-- Enable claims the pins of its map and starts the engine at START with its FIFOs kept, a fenced one still FENCED, or is
refused with CFG_ERR and PINERR when a valid pin is named twice, claimed elsewhere or in a MODE 1 pair; of two enables of one
core cycle that share a pin the lower number keeps it and the other is refused. Disable gives the pins back; HALT waits for
the next tick; GO restarts a halted engine. The FIFOs take 8 words, refuse more with TXREF, answer 0 with RXEMPTY when empty,
and are emptied by the flushes; TX takes one word in a core cycle, the lowest rank first, while the others wait, and a word
pushed in a cycle is not read in it (09 R358, R359, R364, R372, R376–R378, R380, R381, R384, R386). In reset nothing changes,
and RX answers 0. -/
def Obligations.SequencersStartAndStop : Prop :=
  ∀ (s : State) (src : Path) (e : Fin 8) (w : Word),
    let p := s.eng e
    let may (k : Fin 8) : Prop := e < k ∧ ∃ x ∈ s.cyc.claims, x.1 = k
    let shares (k : Fin 8) : Prop := k ≠ e ∧ (s.eng k).en = true ∧ ∃ n ∈ p.wants, n ∈ (s.eng k).channels
    let rest (t : State) : Prop := (∀ k, k ≠ e → t.eng k = s.eng k) ∧ t.ps.store = s.ps.store
    let flagged (t : State) (b : BitVec 16) : Prop := (t.eng e).ev.flag = p.ev.flag ||| b
    let same (t : State) (q : PinSeq) : Prop := t.eng e = { q with ev := (t.eng e).ev } ∧ rest t
    let fresh (t : State) : Prop := let q := t.eng e; q.st = (if p.st = .fenced then .fenced else .run) ∧ q.pc = p.start ∧
      q.ow = 0 ∧ q.iw = 0 ∧ q.l0 = 0 ∧ q.l1 = 0 ∧ q.ls0 = 0 ∧ q.ls1 = 0 ∧ q.t = false ∧ q.orr = 0 ∧ q.ic = 0 ∧ q.tx = p.tx ∧
      q.rx = p.rx ∧ (∀ i, at_ q.drive i = .released) ∧ q.pin0 = p.pin0 ∧ q.pin1 = p.pin1 ∧ q.ev = p.ev ∧
      q.cnt = p.div.toNat ∧ t.ps.store = s.ps.store
    let seen : List Word := p.rx.take (p.rx.length - if e ∈ s.cyc.rxNew then 1 else 0)
    (s.pwr.pdUp = false → ∀ c ∈ [Instr.psEnable e, .psDisable e, .psCmdHalt e, .psCmdGo e, .psCmdTxflush e, .psCmdRxflush e,
      .psTxWrite src e w], Completes c s [] fun _ => True) ∧
    (s.pwr.pd1Up = true → s.pwr.pdUp = false → Completes (.psRxRead e) s [.rdata] fun t => t.rdata = 0) ∧
    (s.pwr.pdUp = true →
      (p.en = true → Completes (.psEnable e) s [] fun _ => True) ∧
      (p.en = false →
        (¬ p.wants.Nodup ∨ (∃ n ∈ p.wants, s.paired n = true) ∨ (∃ k, shares k ∧ ¬ may k) →
          Completes (.psEnable e) s [.ps, .tt] fun t => same t { p with cfgErr := true } ∧ flagged t 0x020) ∧
        (p.wants.Nodup → (∀ n ∈ p.wants, s.paired n = false) → (∀ k, shares k → may k) →
          Completes (.psEnable e) s [.ps, .tt] fun t => fresh t ∧ (t.eng e).en = true ∧ (t.eng e).cfgErr = false ∧
            (t.eng e).claim0 = p.pin0 ∧ (t.eng e).claim1 = p.pin1 ∧ (∀ k, k ≠ e → ¬ shares k → t.eng k = s.eng k) ∧
            ∀ k, shares k → (t.eng k).cfgErr = true ∧ bit (t.eng k).ev.flag 5 = true ∧
              ∀ x, s.cyc.claims.find? (fun y => decide (y.1 = k)) = some x → (t.eng k).en = x.2.en)) ∧
      (Completes (.psDisable e) s [.ps] fun t =>
        (t.eng e).en = false ∧ (t.eng e).st = (if p.st = .fenced then .fenced else .off) ∧ (t.eng e).tx = p.tx ∧
        (t.eng e).rx = p.rx ∧ rest t) ∧
      (p.st = .run ∨ p.st = .wait → Completes (.psCmdHalt e) s [.ps] fun t => same t { p with haltReq := true }) ∧
      (p.st ≠ .run → p.st ≠ .wait → Completes (.psCmdHalt e) s [] fun _ => True) ∧
      (p.st = .halt → p.en = true → Completes (.psCmdGo e) s [.ps, .flt] fun t => fresh t ∧ rest t) ∧
      (p.st ≠ .halt ∨ p.en = false → Completes (.psCmdGo e) s [] fun _ => True) ∧
      (Completes (.psCmdTxflush e) s [.ps, .tt] fun t => same t { p with tx := [] } ∧
        flagged t (if p.txth < p.tx.length then 0x002 else 0)) ∧
      (Completes (.psCmdRxflush e) s [.ps] fun t => same t { p with rx := [] }) ∧
      ((∀ x ∈ s.cyc.txNew, x.1 ≠ e) →
        (p.tx.length < 8 → Completes (.psTxWrite src e w) s [.ps] fun t => same t { p with tx := p.tx ++ [w] }) ∧
        (8 ≤ p.tx.length → Completes (.psTxWrite src e w) s [.ps, .tt] fun t => same t p ∧ flagged t 0x080)) ∧
      (∀ x, s.cyc.txNew.find? (fun y => decide (y.1 = e)) = some x →
        Completes (.psTxWrite src e w) s [.ps] fun t => same t { p with tx := (t.eng e).tx, txWait := (t.eng e).txWait } ∧
          (t.eng e).tx = (if State.txRank src < x.2 then p.tx.dropLast ++ [w] else p.tx) ∧
          (t.eng e).txWait.length = p.txWait.length + 1 ∧
          (if State.txRank src < x.2 then (x.2, p.tx.getLast?.getD 0) else (State.txRank src, w)) ∈ (t.eng e).txWait)) ∧
    (s.pwr.pd1Up = true → s.pwr.pdUp = true →
      (seen = [] → Completes (.psRxRead e) s [.ps, .tt, .rdata] fun t => same t p ∧ flagged t 0x100 ∧ t.rdata = 0) ∧
      (∀ x r, seen = x :: r → Completes (.psRxRead e) s [.ps, .rdata] fun t =>
        same t { p with rx := p.rx.drop 1 } ∧ t.rdata = x))

/-- A tick of a running engine, DIV + 1 core cycles after the last: a requested halt; a tick of a delay; or the word at PC, with its DLY ticks to follow. An
illegal word halts the engine with ILL and HALTED and its pins at Clearing levels; DRIVE and FLOAT change the pins their
mask names; SEND drives its pins from the outgoing word; AWAIT ends at its level; BRANCH 0 jumps; LOOP loads a counter and
the loop start; NEXT counts and returns; PAUSE idles. Before
its time, in no running state or in reset a tick does nothing (09 R354, R357, R367, R369–R371, R376, R379). -/
def Obligations.SequencerTicks : Prop :=
  ∀ (s : State) (e : Fin 8),
    let p := { s.eng e with cnt := 0 }
    let w := cellRead 0 s.ps.store p.pc.toNat
    let op := fld w 18 16
    let nx : BitVec 6 := .ofNat 6 ((p.pc.toNat + 1) % 48)
    let rest (t : State) : Prop := (∀ k, k ≠ e → t.eng k = s.eng k) ∧ t.ps.store = s.ps.store
    let ticks (q : PinSeq) : Prop := Completes (.psTick e []) s [.ps] fun t => t.eng e = q ∧ rest t
    let done (q : PinSeq) : Prop := ticks { q with st := .run, busy := fld w 23 19 }
    let ends (flags : BitVec 16) (parts : List Part) (hold : Bool) : Prop := Completes (.psTick e []) s parts fun t =>
      (t.eng e).st = .halt ∧ (t.eng e).clrHold = hold ∧ (t.eng e).ev.flag = p.ev.flag ||| flags ∧ (t.eng e).drive = p.drive ∧
      (t.eng e).tx = p.tx ∧ (t.eng e).rx = p.rx ∧ rest t
    (s.pwr.pdUp = false ∨ (s.eng e).due = false ∨ (p.st ≠ .run ∧ p.st ≠ .wait) →
      Completes (.psTick e []) s [] fun _ => True) ∧
    (s.pwr.pdUp = true → (s.eng e).due = true → p.st = .run ∨ p.st = .wait →
      (p.haltReq = true → ends 0x008 [.ps, .tt] p.clrHold) ∧
      (p.haltReq = false →
        (p.busy ≠ 0 → ticks { p with busy := p.busy - 1 }) ∧
        (p.busy = 0 → cellRead 0 s.ps.storeErr p.pc.toNat = 0 →
          (psIllegal p w = true → ends 0x018 [.ps, .tt, .reports, .freeCtr] true) ∧
          (psIllegal p w = false →
            (op = 0 → Completes (.psTick e []) s [.ps] fun t => rest t ∧
              t.eng e = { p with drive := (t.eng e).drive, pc := nx, st := .run, busy := fld w 23 19 } ∧
              ∀ i : Fin 8, at_ (t.eng e).drive i =
                if bit w (8 + i.val) then (if bit w i.val then .high else .low) else at_ p.drive i) ∧
            (op = 1 → Completes (.psTick e []) s [.ps] fun t => rest t ∧
              t.eng e = { p with drive := (t.eng e).drive, pc := nx, st := .run, busy := fld w 23 19 } ∧
              ∀ i : Fin 8, at_ (t.eng e).drive i = if bit w (8 + i.val) then .released else at_ p.drive i) ∧
            (let n := fld w 12 10 + 1
             op = 2 → n ≤ p.orr → Completes (.psTick e []) s [.ps] fun t => rest t ∧
              t.eng e = { p with drive := (t.eng e).drive, ow := p.ow <<< n, orr := p.orr - n, pc := nx, st := .run,
                                 busy := fld w 23 19 } ∧
              ∀ i : Fin 8, at_ (t.eng e).drive i =
                if fld w 15 13 ≤ i.val ∧ i.val < fld w 15 13 + n then
                  (if p.ow.getLsbD (31 - (i.val - fld w 15 13)) then .high else .low)
                else at_ p.drive i) ∧
            (op = 2 → p.orr < fld w 12 10 + 1 → p.tx.length ≤ s.psUnseen e → ticks { p with orr := 0, st := .wait }) ∧
            (op = 4 → bit w 10 = false → s.psSample p (pinIx (fld w 15 13)) = bit w 12 →
              done { p with t := false, pc := nx }) ∧
            (op = 4 → bit w 10 = false → s.psSample p (pinIx (fld w 15 13)) ≠ bit w 12 → bit w 11 = false →
              ticks { p with st := .wait }) ∧
            (op = 5 → fld w 15 10 = 0 → done { p with pc := .ofNat 6 (fld w 5 0) }) ∧
            (op = 5 → fld w 15 12 = 4 → done { p with l0 := .ofNat 16 (fld w 11 0), ls0 := nx, pc := nx }) ∧
            (op = 5 → fld w 15 12 = 6 → done { p with l1 := .ofNat 16 (fld w 11 0), ls1 := nx, pc := nx }) ∧
            (op = 5 → fld w 15 13 = 4 → done (if p.l0 = 0 then { p with pc := nx } else { p with l0 := p.l0 - 1, pc := p.ls0 })) ∧
            (op = 5 → fld w 15 13 = 5 → done (if p.l1 = 0 then { p with pc := nx } else { p with l1 := p.l1 - 1, pc := p.ls1 })) ∧
            (op = 6 → ticks { p with pc := nx, st := .run, busy := fld w 23 19 + fld w 15 0 })))))

/-! ## Analogue front end (10) -/

/-- A comparator switches by Table 10.1 and its output follows INV and its mode, with the threshold of each completed cycle
and LOWAMP held below AMIN; the spare moves to the next enabled input, and a comparison of 64 cycles in which steady outputs
differ fails the visited one; a trip needs FILT + 1 samples outside the window, none of them blanked, latches and sets ITRIP
Clearing on its groves; a latch clears only inside its window; each failed check sets its AFE_HEALTH bit and is reported once,
an ADC's at the third error in a row; the fine-delay table takes the measured step, and is valid only after a full sweep that
passed (10 R387–R391, R393–R396, R403, R404, R411, R415). Before the PLL locks none of this happens. -/
def Obligations.SensorsTripsAndChecks : Prop :=
  ∀ (s : State) (n : Fin 16) (k : Fin 6) (v : Nat) (peak trough : Byte) (differ lock vref : Bool) (clr step : BitVec 6)
    (e0 e1 b0 b1 : BitVec 68) (vs dac mon : List Nat) (adc0 adc1 : Option Nat) (vdda err : Nat),
    let x := at_ s.afe.sens n
    let vr : Bool := decide (fld x.cfg 1 0 = 2)
    let thr := 20000 * x.thrNow.toNat
    let hyst := 20000 * fld x.cfg 10 8
    let high : Bool :=
      if vr then !decide (thr < v) && (decide (v < 1600000) && x.armed || x.cmp)
      else decide (thr + hyst < v) || (!decide (v + hyst < thr) && x.cmp)
    let armed : Bool := if vr then !high && (x.armed || decide (thr < v)) else x.armed
    let level : Bool := high != bit x.cfg 11
    let y0 : Sens := { x with cmp := high, armed := armed }
    let change := Instr.sensOutputChange n v peak trough
    let leaves (y : Sens) (lowamp : Bool) : Prop := Completes change s [.afe] fun t =>
      at_ t.afe.sens n = y ∧ (∀ j, j ≠ n → at_ t.afe.sens j = at_ s.afe.sens j) ∧
      ∀ j, bit t.afe.sflag j = (bit s.afe.sflag j || (lowamp && decide (j = n.val)))
    let amp := fld x.cfg 23 16
    let frac : Int := fld x.cfg 15 12
    let low : Int := if fld x.cfg 1 0 = 2 then 80 else trough.toNat
    let base := match s.afe.spare with | some j => j.val | none => 15
    let next (t : State) : Prop :=
      ((∃ j, bit (at_ s.afe.sens j).cfg 31 = true) → t.afe.spare ≠ none) ∧
      ∀ j, t.afe.spare = some j → bit (at_ s.afe.sens j).cfg 31 = true ∧ t.afe.spareCopy = at_ s.afe.sens j ∧
        ∀ i, bit (at_ s.afe.sens i).cfg 31 = true → (j.val + 15 - base) % 16 ≤ (i.val + 15 - base) % 16
    let differs (a b : BitVec 68) : Prop := ∃ i, i < 64 ∧ bit a (i + 4) ≠ bit b (i + 4) ∧
      ∀ m, m < 4 → bit a (i + m) = bit a (i + 4) ∧ bit b (i + m) = bit b (i + 4)
    let y := at_ s.afe.itrip k
    let out (u : Nat) : Bool := bit y.cfg 31 &&
      (bit y.cfg 30 && decide (10000 * fld y.thr 15 8 < u) || bit y.cfg 29 && decide (u < 10000 * fld y.thr 7 0))
    let bch : Fin 64 := Fin.ofNat 64 (fld y.cfg 13 8)
    let blind (b : Nat) : Prop := bit y.cfg 25 = true ∧ ∃ p : Fin 64,
      (p = bch ∨ (p = partner bch ∧ bch.val % 2 = 0 ∧ s.paired bch = true)) ∧
      (s.chan p).o.chgAt + b ≤ s.time ∧ s.time < (s.chan p).o.chgAt + b + fld y.cfg 23 18
    let filt := fld y.cfg 27 26 + 1
    let trips : Prop := filt ≤ vs.length ∧ (∀ b, b < filt → out (vs.getD b 0) = true ∧ ¬ blind b)
    let failed (t : State) (mech kind idx : Nat) : Prop :=
      ∃ r ∈ t.reports, r.mech.toNat = mech ∧ r.kind.toNat = kind ∧ r.index.toNat = idx
    let errs (a : Fin 2) : Nat := match if a = 0 then adc0 else adc1 with
      | none => (s.adc a).errRun
      | some e => if 61440 < 1000 * e then (s.adc a).errRun + 1 else 0
    let told (a : Fin 2) : Prop := (if a = 0 then adc0 else adc1) ≠ none
    let c := s.afe.cal
    (s.pwr.pllLock = false → ∀ i ∈ [change, .spareVisit e0 e1 b0 b1, .itripTrip k vs, .afeItcmdClear clr,
      .healthCheck dac adc0 adc1 vref vdda mon, .itripPairDisagree k differ, .calMeasure lock step err],
      Completes i s [] fun _ => True) ∧
    (s.pwr.pllLock = true →
      (bit x.cfg 31 = false → Completes change s [] fun _ => True) ∧
      (bit x.cfg 31 = true →
        (high = x.cmp → leaves { x with armed := armed } false) ∧
        (high ≠ x.cmp → fld x.cfg 1 0 = 0 → leaves { y0 with out := level } false) ∧
        (high ≠ x.cmp → fld x.cfg 1 0 ≠ 0 → level = false → leaves (if x.lowamp then y0 else { y0 with out := false }) false) ∧
        (high ≠ x.cmp → fld x.cfg 1 0 ≠ 0 → level = true → x.cycles = 0 → leaves { y0 with out := true, cycles := 1 } false) ∧
        (high ≠ x.cmp → fld x.cfg 1 0 ≠ 0 → level = true → x.cycles ≠ 0 → peak.toNat < trough.toNat + amp →
          leaves { y0 with peak := peak, trough := trough, cycles := min (x.cycles + 1) 3, lowamp := true } (!x.lowamp)) ∧
        (high ≠ x.cmp → fld x.cfg 1 0 ≠ 0 → level = true → x.cycles ≠ 0 → trough.toNat + amp ≤ peak.toNat →
          leaves { y0 with peak := peak, trough := trough, cycles := min (x.cycles + 1) 3, lowamp := false, out := true,
                           thrNow := if x.cycles = 1 then x.thrNow else .ofInt 8 (low + frac * ((peak.toNat : Int) - low) / 16) }
            false)) ∧
      (Completes (.spareVisit e0 e1 b0 b1) s [.afe, .reports] fun t =>
        next t ∧ (∀ j, s.afe.spare = some j → differs e0 e1 → bit s.afe.health j.val = false → failed t 0x0D 12 j.val) ∧
        ∀ i : Fin 16, bit t.afe.health i.val = true ↔ bit s.afe.health i.val = true ∨ (s.afe.spare = some i ∧ differs e0 e1) ∨
          (t.afe.spare = some i ∧ differs b0 b1)) ∧
      (trips → Completes (.itripTrip k vs) s [.afe, .chans] fun t =>
        at_ t.afe.itrip k = { y with latch := true, input := vs.headD y.input, trips := satInc y.trips,
                                     clrref := y.clrref || decide (k ∈ s.cyc.itClr) } ∧
        (∀ j, j ≠ k → at_ t.afe.itrip j = at_ s.afe.itrip j) ∧
        ∀ g m : Fin 8, bit y.cfg g.val = true →
          bit (t.chan (State.chanOf g m)).o.clr 2 = true ∧ (t.chan (State.chanOf g m)).o.inClr = true) ∧
      (¬ trips → Completes (.itripTrip k vs) s [.afe] fun t =>
        at_ t.afe.itrip k = { y with input := vs.headD y.input } ∧ ∀ j, j ≠ k → at_ t.afe.itrip j = at_ s.afe.itrip j) ∧
      (Completes (.afeItcmdClear clr) s [.afe] fun t =>
        at_ t.afe.itrip k = { y with latch := y.latch && !(bit clr k.val && !out y.input)
                                     clrref := y.clrref || (bit clr k.val && out y.input) }) ∧
      (Completes (.healthCheck dac adc0 adc1 vref vdda mon) s [.afe, .reports] fun t =>
        (∀ i, bit t.afe.health i = true ↔ bit s.afe.health i = true ∨
          (∃ j : Fin 6, i = 16 + j.val ∧ (2 < dac.getD (2 * j.val) 0 ∨ 2 < dac.getD (2 * j.val + 1) 0)) ∨
          (∃ a : Fin 2, i = 22 + a.val ∧ told a ∧ 3 ≤ errs a) ∨ (i = 24 ∧ vref = true) ∨
          (i = 25 ∧ (vdda < 3000 ∨ 3600 < vdda)) ∨ (i = 27 ∧ ∃ e ∈ mon, 4 < e)) ∧
        (∀ a : Fin 2, (t.adc a).errRun = errs a) ∧
        (∀ j : Fin 6, 2 < dac.getD (2 * j.val) 0 → bit s.afe.health (16 + j.val) = false → failed t 0x0E 12 (16 + j.val)) ∧
        (∀ a : Fin 2, told a → 3 ≤ errs a → bit s.afe.health (22 + a.val) = false → failed t 0x0F 6 a.val) ∧
        (vref = true → bit s.afe.health 24 = false → failed t 0x10 12 32) ∧
        (vdda < 3000 ∨ 3600 < vdda → bit s.afe.health 25 = false → failed t 0x11 12 32) ∧
        ((∃ e ∈ mon, 4 < e) → bit s.afe.health 27 = false → failed t 0x13 12 32)) ∧
      (Completes (.itripPairDisagree k differ) s [.afe, .reports] fun t =>
        at_ t.afe.itrip k = { y with dupf := differ } ∧
        (∀ i, bit t.afe.health i = (bit s.afe.health i || (differ && decide (i = 16 + k.val)))) ∧
        (differ = true → bit s.afe.health (16 + k.val) = false → failed t 0x0E 12 (16 + k.val))) ∧
      (lock = false ∨ 40 < err → Completes (.calMeasure lock step err) s [.afe, .reports] fun t =>
        t.afe.cal.valid = false ∧ t.afe.cal.lock = lock ∧ t.afe.cal.idx = c.idx + 1 ∧
        (∀ i : Fin 32, at_ t.afe.cal.table i = if i.val = c.idx.toNat then step else at_ c.table i) ∧
        (c.valid = true → t.afe.cal.invals = satInc c.invals ∧ bit t.afe.cal.flag 0 = true) ∧
        (c.idx ≠ 31 → t.afe.cal.sweepFail = true) ∧ (1000 ≤ c.invalidUs → bit t.afe.health 26 = true)) ∧
      (lock = true → err ≤ 40 → Completes (.calMeasure lock step err) s [.afe, .reports] fun t =>
        t.afe.cal.valid = (c.valid || (decide (c.idx = 31) && !c.sweepFail)) ∧ t.afe.cal.lock = true ∧
        t.afe.cal.idx = c.idx + 1 ∧ t.afe.cal.invals = c.invals ∧
        (∀ i : Fin 32, at_ t.afe.cal.table i = if i.val = c.idx.toNat then step else at_ c.table i) ∧
        (c.valid = false → c.idx = 31 → c.sweepFail = false → c.wasValid = true → bit t.afe.cal.flag 1 = true)))

/-- A trigger of the entry to be started next starts a conversion, is latched during one, or overruns; a result is
registered with its sequence number and input and the next entry becomes current, chained or latched entries starting at
once; RESTART returns to entry 0. A result comes 50 core cycles after its start. A signature measurement runs on one link at a time,
ends after 1,024 pulses with the verdict of Table 10.4 against the nearest template, or with ABORT, by command or with no
window for 1 s; an automatic period marks its links due and starts the lowest (10 R398–R400, R405–R409, R418–R420). Before the
PLL locks none of this happens. -/
def Obligations.ConversionsAndSignatures : Prop :=
  ∀ (s : State) (a : Fin 2) (trig : BitVec 3) (idx : BitVec 6) (code : BitVec 12) (l : Fin 4) (k : Fin 16) (cl : Fin 256)
    (f : List Byte),
    let x := s.adc a
    let others (t : State) : Prop := (∀ b, b ≠ a → t.adc b = s.adc b) ∧ t.afe.sig = s.afe.sig
    let only (t : State) (y : Adc) : Prop := t.adc a = { y with ev := (t.adc a).ev } ∧ others t
    let flagged (t : State) (b : BitVec 16) : Prop := (t.adc a).ev.flag = x.ev.flag ||| b
    let triggered (c : Instr) (tr ix : Nat) : Prop :=
      (x.watched = none → Completes c s [] fun _ => True) ∧
      (∀ e, x.watched = some e →
        (fld (at_ x.seq e) 6 4 ≠ tr ∨ fld (at_ x.seq e) 13 8 ≠ ix → Completes c s [] fun _ => True) ∧
        (fld (at_ x.seq e) 6 4 = tr → fld (at_ x.seq e) 13 8 = ix →
          (x.conv = none → Completes c s [.afe] fun t => only t { x with conv := some e, convAt := s.time, latched := false, noadv := false } ∧ flagged t 0) ∧
          (x.conv ≠ none → x.latched = false → Completes c s [.afe] fun t => only t { x with latched := true } ∧ flagged t 0) ∧
          (x.conv ≠ none → x.latched = true → Completes c s [.afe, .tt] fun t => only t x ∧ flagged t 4)))
    let g := s.afe.sig
    let sigOnly (t : State) (h : Sig) : Prop := t.afe.sig = h ∧ t.afe.adc = s.afe.adc
    let bound (j : Fin 16) : Prop := (at_ g.slots j).valid = true ∧ (at_ g.slots j).en = true
    let d (j : Fin 16) (t : Nat) : Nat := ((f.getD t 0).toInt - (s.tmplTap j t).toInt).natAbs
    let D (j : Fin 16) : Nat := ((List.range 64).map (d j)).sum
    (s.pwr.pllLock = false → ∀ c ∈ [Instr.adcTrigger a trig idx, .adcCmdTrig a, .adcCmdRestart a, .adcResult a code,
      .sigCmdMeasure l, .sigCmdEnrol cl l k, .sigCmdAbort, .sigWindowTimeout, .sigMeasurementEnd f, .sigAutoPeriod],
      Completes c s [] fun _ => True) ∧
    (s.pwr.pllLock = true →
    triggered (.adcTrigger a trig idx) trig.toNat idx.toNat ∧ triggered (.adcCmdTrig a) 4 0 ∧
    (Completes (.adcCmdRestart a) s [.afe] fun t => flagged t 0 ∧
      only t { x with entry := 0, latched := false, noadv := x.conv.isSome }) ∧
    (x.conv = none ∨ s.time - x.convAt < 50 → Completes (.adcResult a code) s [] fun _ => True) ∧
    (∀ e, x.conv = some e → 50 ≤ s.time - x.convAt → x.run = true → x.fenced = false → x.noadv = false →
      let last := bit (at_ x.seq e) 15 = true ∨ e = 15
      Completes (.adcResult a code) s [.afe, .tt] fun t => others t ∧
        (at_ (t.adc a).res e).toNat = x.seqno.toNat * 2 ^ 24 + 2 ^ 16 + fld (at_ x.seq e) 3 0 * 2 ^ 12 + code.toNat ∧
        (∀ j, j ≠ e → at_ (t.adc a).res j = at_ x.res j) ∧
        (last → (t.adc a).seqno = x.seqno + 1 ∧ bit (t.adc a).ev.flag 0 = true) ∧ (¬ last → (t.adc a).seqno = x.seqno) ∧
        (last → x.loop = false → (t.adc a).run = false ∧ (t.adc a).conv = none) ∧
        (¬ last ∨ x.loop = true →
          let nx : Fin 16 := if bit (at_ x.seq e) 15 = true ∨ e = 15 then 0 else e + 1
          (t.adc a).run = true ∧ (t.adc a).entry = nx ∧
          (x.latched = true → (t.adc a).conv = some nx ∧ (a ∉ s.cyc.adcTrig → bit (t.adc a).ev.flag 1 = true)) ∧
          (x.latched = false → fld (at_ x.seq nx) 6 4 = 0 → fld (at_ x.seq nx) 13 8 = 0 → (t.adc a).conv = some nx) ∧
          (x.latched = false → fld (at_ x.seq nx) 6 4 ≠ 0 → (t.adc a).conv = none))) ∧
    (g.run ≠ none → ∀ c ∈ [Instr.sigCmdMeasure l, .sigCmdEnrol cl l k],
      Completes c s [.afe] fun t => sigOnly t { g with flag := g.flag ||| 0x10 }) ∧
    (g.run = none →
      (Completes (.sigCmdMeasure l) s [.afe] fun t => sigOnly t { g with run := some { link := l, enrol := none, since := s.time } }) ∧
      (cl = 0 ∨ cl = 255 → Completes (.sigCmdEnrol cl l k) s [.afe] fun t =>
        sigOnly t { g with run := some { link := l, enrol := some k, since := s.time } }) ∧
      (cl ≠ 0 → cl ≠ 255 → Completes (.sigCmdEnrol cl l k) s [.afe] fun t => sigOnly t { g with flag := g.flag ||| 0x10 }) ∧
      (∀ c ∈ [Instr.sigCmdAbort, .sigWindowTimeout, .sigMeasurementEnd f], Completes c s [] fun _ => True) ∧
      (fld g.cfg 15 8 ≠ 0 → (bit g.due l.val || bit g.cfg (16 + l.val)) = true →
        (∀ j, j < l.val → (bit g.due j || bit g.cfg (16 + j)) = false) →
        Completes .sigAutoPeriod s [.afe] fun t => t.afe.sig.run = some { link := l, enrol := none, since := s.time } ∧
          ∀ j, j < 4 → bit t.afe.sig.due j = ((bit g.due j || bit g.cfg (16 + j)) && decide (j ≠ l.val)))) ∧
    (fld g.cfg 15 8 = 0 → Completes .sigAutoPeriod s [] fun _ => True) ∧
    (∀ r, g.run = some r → g.due = 0 →
      (r.pulses ≠ 1024 → Completes (.sigMeasurementEnd f) s [] fun _ => True) ∧
      (s.time - r.since < 200000000 → Completes .sigWindowTimeout s [] fun _ => True) ∧
      (∀ c, c = Instr.sigCmdAbort ∨ (c = .sigWindowTimeout ∧ 200000000 ≤ s.time - r.since) → Completes c s [.afe] fun t =>
        sigOnly t { g with run := none, verdict := 5, link := r.link, flag := g.flag ||| 0x09 }) ∧
      (r.enrol = none → r.pulses = 1024 → f.length = 64 →
        ((∀ j, ¬ (bound j ∧ (at_ g.slots j).link = r.link)) → Completes (.sigMeasurementEnd f) s [.afe] fun t =>
          t.afe.sig.verdict = 4 ∧ t.afe.sig.link = r.link ∧ t.afe.sig.flag = g.flag ||| 0x01 ∧ t.afe.sig.run = none) ∧
        (∀ j, bound j → (at_ g.slots j).link = r.link →
          (∀ i, bound i → (at_ g.slots i).link = r.link → i ≠ j → D j < D i ∨ (D j = D i ∧ j < i)) →
          Completes (.sigMeasurementEnd f) s [.afe, .pm, .reports, .freeCtr] fun t =>
            let h := t.afe.sig
            h.run = none ∧ h.link = r.link ∧ h.slot = j ∧ h.dist.toNat = D j ∧ (∀ i, i < 64 → d j i ≤ h.m.toNat) ∧
            d j h.mt.toNat = h.m.toNat ∧ bit h.flag 0 = true ∧
            (h.verdict = 1 ↔ D j ≤ fld g.thr 13 0 ∧ h.m.toNat ≤ fld g.cfg 31 24) ∧
            (h.verdict = 2 ↔ ¬ (D j ≤ fld g.thr 13 0 ∧ h.m.toNat ≤ fld g.cfg 31 24) ∧ D j ≤ fld g.thr 29 16) ∧
            (h.verdict = 1 ∨ h.verdict = 2 ∨ h.verdict = 3) ∧
            (h.verdict = 3 → bit h.flag 1 = true ∧
              (bit g.cfg r.link.val = true → ∃ q ∈ t.reports, q.mech = 0x21 ∧ q.kind = 7 ∧ q.index.toNat = r.link.val)) ∧
            (h.verdict = 2 → bit h.flag 2 = true)))))

/-! ## Banks, windows and DMA (11) -/

/-- The bank port serves one access in a core cycle, reads and writes of bytes, half-words and words little-endian; a single
wrong bit is corrected and counted, two are reported and leave the word; a word an atomic holds and a bank that is filled or
restores a region first wait; windows and sizes are refused as their rules say; the tester, the re-admission and its zero-fill
follow their phases; a DMA channel loads, beats, starves and stops, and stays in ERROR when it is disabled in the cycle of an
error (11 R424–R430, R432–R435, R437, R440, R443, R444, R447–R450, R455, R456; 08 R328; 03 R98). Before the PLL locks nothing
happens. -/
def Obligations.MemoryAndDmaCommands : Prop :=
  ∀ (s : State) (addr : BitVec 20) (size : Fin 3) (data : Word) (p : Nat) (n : Fin 16) (w : Word) (b c : Fin 8) (pass : Bool)
    (word : Fin 4096) (cl : Fin 256) (ad : Fin 2),
    let a := addr.toNat
    let o := p / 4 * 4
    let bk := s.bank b
    let x := s.dmac c
    let flagged (t : State) (i : Nat) : Prop := bit t.mem.flag i = true
    let byteAt (t : State) (q : Nat) : Byte := cellRead 0 t.mem.cells q
    let reachable : Prop := isMemAddr a = true ∧ a % 2 ^ size.val = 0 ∧ s.resolve a = some p ∧ p % 2 ^ size.val = 0 ∧
      s.mem.lock = none ∧ (s.bank (bankOf p)).st = .on ∧ (s.bank (bankOf p)).recov = false ∧ bankOf p ∉ s.cyc.ports ∧
      (s.bank (bankOf o)).st = .on ∧ cellRead 0 s.mem.errs o = 0 ∧
      cellWf 0 s.mem.errs = true
    let value : Word := .ofNat 32 ((s.bankData o).toNat / 2 ^ (8 * (p % 4)) % 2 ^ (8 * 2 ^ size.val))
    let y := s.cwin n
    let base := fld w 17 6
    (s.pwr.pllLock = false → ∀ i ∈ [Instr.bankAccessGrant (.read addr size) 0, .bankAccessGrant (.write addr size data) 0,
      .cwBaseWrite n w, .cwSizeWrite n w, .bgTestRegionStart b, .memTctlWrite w, .memCmdReadmit b, .bankReadmitDone b pass word,
      .dmaStarve c, .dmaDisable c, .dmaReqPulse c, .dmaEnable c cl, .dmaBeat c], Completes i s [] fun _ => True) ∧
    (s.pwr.pllLock = true → MemCanonical s →
    (reachable →
      (Completes (.bankAccessGrant (.read addr size) 0) s [.mem, .rdata] fun t =>
        t.rdata = value ∧ t.mem.cells = s.mem.cells ∧ t.mem.flag = s.mem.flag) ∧
      (Completes (.bankAccessGrant (.read addr size) 1) s [.mem, .rdata] fun t => t.rdata = value ∧ t.mem.cells = s.mem.cells ∧
        flagged t 0 ∧ t.mem.ekind = 1 ∧ t.mem.eaddr.toNat = o % 2 ^ 20 ∧ o ∈ t.mem.wb ∧
        (t.bank (bankOf o)).corr = satInc (s.bank (bankOf o)).corr) ∧
      (Completes (.bankAccessGrant (.read addr size) 2) s [.mem, .reports] fun t => t.mem.cells = s.mem.cells ∧
        flagged t 1 ∧ t.mem.ekind = 2 ∧ (t.bank (bankOf o)).unc = satInc (s.bank (bankOf o)).unc ∧
        ∃ r ∈ t.reports, r.mech = 0x0A ∧ r.kind = 8) ∧
      (Completes (.bankAccessGrant (.write addr size data) 0) s [.mem] fun t =>
        (∀ j, j < 2 ^ size.val → byteAt t (p + j) = .ofNat 8 (data.toNat / 2 ^ (8 * j))) ∧
        ∀ q, q < p ∨ p + 2 ^ size.val ≤ q → byteAt t q = byteAt s q)) ∧
    (isMemAddr a = true → a % 2 ^ size.val ≠ 0 ∨ (∃ q, s.resolve a = some q ∧
        (s.mem.lock = some (q / 4 * 4) ∨ (s.bank (bankOf q)).st = .fill ∨ (s.bank (bankOf q)).recov = true)) →
      Completes (.bankAccessGrant (.read addr size) 0) s [] (fun _ => True) ∧
      Completes (.bankAccessGrant (.write addr size data) 0) s [] fun _ => True) ∧
    (b ∈ s.cyc.ports → Completes (.bankAccessGrant (.tester b pass) 0) s [] fun _ => True) ∧
    (b ∉ s.cyc.ports → bk.st = .on → bk.phase = .march → bk.done < 191 → s.mem.lock = none →
      Completes (.bankAccessGrant (.tester b false) 0) s [.mem] fun t => t.bank b = { bk with done := bk.done + 1 } ∧
        t.mem.cells = s.mem.cells ∧ ∀ k, k ≠ b → t.bank k = s.bank k) ∧
    (∀ e code rest q, (s.adc ad).copies = (e, code) :: rest → State.adcAddr (s.adc ad) e = some q → isBankAddr q = true → q % 2 = 0 →
      s.mem.lock = none → (s.bank (bankOf q)).st = .on → (s.bank (bankOf q)).recov = false → (s.bank (bankOf q)).phase = .none →
      (s.bank (bankOf (q / 4 * 4))).st = .on → cellRead 0 s.mem.errs (q / 4 * 4) = 0 → bankOf q ∉ s.cyc.ports →
      ad = 0 ∨ (s.adc 0).copies = [] →
      Completes (.bankAccessGrant (.adc ad) 0) s [.mem, .afe] fun t => (t.adc ad).copies = rest ∧
        (∀ j, j < 2 → byteAt t (q + j) = .ofNat 8 (code.toNat / 2 ^ (8 * j))) ∧
        ∀ j, j < q ∨ q + 2 ≤ j → byteAt t j = byteAt s j) ∧
    (isMemAddr a = false → exec (.bankAccessGrant (.read addr size) 0) s = .fault .noAddress ∧
      exec (.bankAccessGrant (.write addr size data) 0) s = .fault .noAddress) ∧
    -- windows
    (y.en = true → bit w 31 = true → Completes (.cwBaseWrite n w) s [.mem] fun t => flagged t 6) ∧
    (y.en = false → bit w 31 = true → y.log2.toNat < 6 ∨ 14 < y.log2.toNat ∨ base * 64 % 2 ^ y.log2.toNat ≠ 0 ∨ base < 2048 →
      Completes (.cwBaseWrite n w) s [.cw, .mem] fun t => flagged t 6 ∧ (t.cwin n).en = false) ∧
    (y.en = false → bit w 31 = true → 6 ≤ y.log2.toNat → y.log2.toNat ≤ 14 → base * 64 % 2 ^ y.log2.toNat = 0 → 2048 ≤ base →
      Completes (.cwBaseWrite n w) s [.cw] fun t => t.cwin n = { y with en := true, base := .ofNat 12 base } ∧
        ∀ m, m ≠ n → t.cwin m = s.cwin m) ∧
    (bit w 31 = false → Completes (.cwBaseWrite n w) s [.cw] fun t => t.cwin n = { y with en := false, base := .ofNat 12 base }) ∧
    (y.en = true → Completes (.cwSizeWrite n w) s [.mem] fun t => flagged t 6) ∧
    (y.en = false → Completes (.cwSizeWrite n w) s [.cw] fun t => t.cwin n = { y with log2 := .ofNat 4 (fld w 3 0) }) ∧
    -- the tester and re-admission
    (s.testDue b = true → bk.phase = .none → Completes (.bgTestRegionStart b) s [.mem] fun t =>
      t.bank b = { bk with phase := .save, saved := 0, done := 0 } ∧ ∀ k, k ≠ b → t.bank k = s.bank k) ∧
    (s.testDue b = true → bk.phase ≠ .none → Completes (.bgTestRegionStart b) s [.mem, .reports] fun t =>
      t.bank b = { bk with startPend := true } ∧ flagged t 3 ∧ ∃ r ∈ t.reports, r.mech = 0x0C ∧ r.kind = 8) ∧
    (s.testDue b = false → Completes (.bgTestRegionStart b) s [] fun _ => True) ∧
    (s.boot.locked = true → Completes (.memTctlWrite w) s [] fun _ => True) ∧
    (s.boot.locked = false → Completes (.memTctlWrite w) s [.mem] fun t => t.mem.tctl = w.setWidth 8 ∧
      t.mem.cells = s.mem.cells ∧ t.bank b = if bit w b.val then bk else
        { bk with phase := .none, saved := 0, done := 0, startPend := false, recov := false }) ∧
    (bk.st = .fenced → Completes (.memCmdReadmit b) s [.mem] fun t => t.bank b = { bk with st := .rdmTest }) ∧
    (bk.st ≠ .fenced → Completes (.memCmdReadmit b) s [.mem] fun t => flagged t 6 ∧ t.bank b = bk) ∧
    (bk.st = .rdmTest → Completes (.bankReadmitDone b true word) s [.mem] fun t => t.bank b = { bk with st := .rdmFill }) ∧
    (bk.st = .rdmTest → Completes (.bankReadmitDone b false word) s [.mem, .reports] fun t =>
      t.bank b = { bk with st := .fenced, tfail := satInc bk.tfail } ∧ flagged t 5 ∧ t.mem.ekind = 3 ∧
      t.mem.eaddr.toNat = 0x20000 + 0x4000 * b.val + 4 * word.val ∧ ∃ r ∈ t.reports, r.mech = 0x0B ∧ r.kind = 8) ∧
    (bk.st = .rdmFill → Completes (.bankReadmitDone b pass word) s [.mem, .flt] fun t =>
      t.bank b = { bk with st := .on, region := 0 } ∧ flagged t 4 ∧
      ∀ q, byteAt t q = if 0x20000 + 0x4000 * b.val ≤ q ∧ q < 0x24000 + 0x4000 * b.val then 0 else byteAt s q) ∧
    (bk.st = .on ∨ bk.st = .fill ∨ bk.st = .fenced → Completes (.bankReadmitDone b pass word) s [] fun _ => True) ∧
    -- DMA
    (4096 ≤ x.wait → Completes (.dmaStarve c) s [.dma] fun t =>
      t.dmac c = { x with starv := true, flag := x.flag ||| 16 } ∧ ∀ k, k ≠ c → t.dmac k = s.dmac k) ∧
    (x.wait < 4096 → Completes (.dmaStarve c) s [] fun _ => True) ∧
    (Completes (.dmaDisable c) s [.dma] fun t => (t.dmac c).en = false ∧ (t.dmac c).flag = x.flag ∧
      (t.dmac c).st = (if c ∈ s.cyc.dmaErr then x.st else .idle) ∧ ∀ k, k ≠ c → t.dmac k = s.dmac k) ∧
    (x.st = .move ∨ x.st = .load → reqPulse x.reqsel = true →
      (x.st = .move → x.burst = 0 → Completes (.dmaReqPulse c) s [.dma] fun t =>
        t.dmac c = { x with burst := if fld x.w2 23 16 = 0 then x.rem.toNat else fld x.w2 23 16 }) ∧
      (x.st = .load ∨ x.burst ≠ 0 → x.heldPulse = false → Completes (.dmaReqPulse c) s [.dma] fun t => t.dmac c = { x with heldPulse := true }) ∧
      (x.st = .load ∨ x.burst ≠ 0 → x.heldPulse = true → Completes (.dmaReqPulse c) s [.dma] fun t => t.dmac c = { x with flag := x.flag ||| 4 })) ∧
    ((x.st ≠ .move ∧ x.st ≠ .load) ∨ reqPulse x.reqsel = false → Completes (.dmaReqPulse c) s [] fun _ => True) ∧
    (x.en = true → x.st ≠ .done → x.st ≠ .error → Completes (.dmaEnable c cl) s [] fun _ => True) ∧
    (x.en = false ∨ x.st = .done ∨ x.st = .error →
      let d := x.first.toNat * 16
      (d < 0x20000 ∨ 0x40000 ≤ d → Completes (.dmaEnable c cl) s [.dma] fun t => (t.dmac c).en = true ∧ (t.dmac c).owner = cl ∧
        (t.dmac c).st = .error ∧ (t.dmac c).err = 4 ∧ bit (t.dmac c).flag 3 = true) ∧
      (0x20000 ≤ d → d < 0x40000 → s.mem.lock = some d ∨ (s.bank (bankOf d)).st = .fill ∨ (s.bank (bankOf d)).recov = true →
        Completes (.dmaEnable c cl) s [.dma] fun t => (t.dmac c).en = true ∧ (t.dmac c).owner = cl ∧ (t.dmac c).st = .load ∧
          (t.dmac c).desc.toNat = d) ∧
      (0x20000 ≤ d → d < 0x40000 → (s.bank (bankOf d)).st = .on → (s.bank (bankOf d)).recov = false → s.mem.lock = none →
        (∀ i : Fin 4, cellRead 0 s.mem.errs (d + 4 * i.val) = 0 ∧ bankOf (d + 4 * i.val) = bankOf d) →
        s.dmaCheck cl (s.bankData d) (s.bankData (d + 4)) (s.bankData (d + 8)) (s.bankData (d + 12))
          ((s.bankData (d + 4)).toNat % 2 ^ 20) = 0 →
        Completes (.dmaEnable c cl) s [.dma, .mem] fun t => let z := t.dmac c
          (∀ q, t.bankData q = s.bankData q) ∧
          z.en = true ∧ z.owner = cl ∧ z.st = .move ∧ z.err = 0 ∧ z.desc.toNat = d ∧
          z.src.toNat = (s.bankData d).toNat % 2 ^ 20 ∧ z.dst.toNat = (s.bankData (d + 4)).toNat % 2 ^ 20 ∧
          z.rem.toNat = (s.bankData (d + 8)).toNat % 2 ^ 16 ∧ z.w3 = s.bankData (d + 12))) ∧
    ((∀ y ∈ s.cyc.dmaOff, y.1 ≠ c) →
    (s.dmaAsks c = false → Completes (.dmaBeat c) s [] fun _ => True) ∧
    (x.en = true → s.dmaReady c = true → x.freeAt ≤ s.time → x.size = 2 → isBankAddr x.src.toNat = true → isBankAddr x.dst.toNat = true → x.src.toNat % 4 = 0 →
      x.dst.toNat % 4 = 0 → s.mem.lock = none → (s.bank (bankOf x.src.toNat)).st = .on → (s.bank (bankOf x.dst.toNat)).st = .on →
      (s.bank (bankOf x.src.toNat)).recov = false → (s.bank (bankOf x.dst.toNat)).recov = false →
      s.dmaLoses c (bankOf x.src.toNat) = false → s.dmaLoses c (bankOf x.dst.toNat) = false →
      cellRead 0 s.mem.errs x.src.toNat = 0 → reqPulse x.reqsel = false → x.rem ≠ 0 → x.next = 0 →
      Completes (.dmaBeat c) s [.dma, .mem] fun t => let z := t.dmac c
        t.bankData x.dst.toNat = s.bankData x.src.toNat ∧
        (∀ q, q + 4 ≤ x.dst.toNat ∨ x.dst.toNat + 4 ≤ q → t.bankData q = s.bankData q) ∧ z.rem = x.rem - 1 ∧
        (x.sinc = true → z.src = x.src + 4) ∧ (x.sinc = false → z.src = x.src) ∧
        (x.dinc = true → z.dst = x.dst + 4) ∧ (x.dinc = false → z.dst = x.dst) ∧
        (x.rem ≠ 1 → z.st = .move) ∧ (x.rem = 1 → z.st = .done ∧ bit z.flag 0 = true))))

/-! ## Interrupt controller and host port (12, 13) -/

/-- A line sets its pending bit, PSET and PCLR the bits they name, but for sources in service or reserved; no source is enabled
for the supervisor and a pin; a claim takes the most urgent qualified source of its pin, and COMPLETE ends it; the supervisor
enters its most urgent source and leaves it. A source that became pending in this core cycle is neither selected nor cleared
in it, and a priority, an enable or a threshold written in it counts from the next (12 R465, R466, R468, R469, R472–R474, R476,
R479, R482, R484). In reset the controller takes no write, and a line only reaches the Canopy's catch. -/
def Obligations.InterruptCommands : Prop :=
  ∀ (s : State) (n : Fin 192) (k : Fin 6) (w : Word) (p : Fin 4) (num : BitVec 8),
    let x := s.intc
    let mine : Bool := decide (n.val / 32 = k.val) && bit w (n.val % 32) && !reservedSrc n.val
    let pends (m : Fin 192) : Prop := bit x.pend m.val = true ∧ bit s.cyc.pended m.val = false
    let qual (m : Fin 192) : Prop :=
      pends m ∧ bit (at_ s.sel.pen p) m.val = true ∧ s.priOf m.val < (s.sel.thr[p.val + 1]).toNat
    let urgent (q : Fin 192 → Prop) (m : Fin 192) : Prop :=
      q m ∧ ∀ j, q j → s.priOf m.val < s.priOf j.val ∨ (s.priOf m.val = s.priOf j.val ∧ m ≤ j)
    let taken (lvl : Nat) (m : Fin 192) : Prop :=
      pends m ∧ bit s.sel.sen m.val = true ∧ s.priOf m.val < (s.sel.thr[0]).toNat ∧ s.priOf m.val < lvl
    let claimed (t : State) (m : Fin 192) : Prop :=
      ∀ j, bit t.intc.pend j = (bit x.pend j && decide (j ≠ m.val)) ∧ bit t.intc.insv j = (bit x.insv j || decide (j = m.val))
    (s.lineOf n.val = true → reservedSrc n.val = false → s.pwr.pd1Up = true →
      Completes (.intcPend n) s [.intc] fun t => t.intc.insv = x.insv ∧
        ∀ j, bit t.intc.pend j = (bit x.pend j || (decide (j = n.val) && !bit x.insv n.val))) ∧
    (s.lineOf n.val = true → reservedSrc n.val = false → s.pwr.pd1Up = false →
      Completes (.intcPend n) s [.canopy] fun t => ∀ j, bit t.canopy.catch_ j = (bit s.canopy.catch_ j || decide (j = n.val))) ∧
    (s.lineOf n.val = false ∨ reservedSrc n.val = true → Completes (.intcPend n) s [] fun _ => True) ∧
    (s.pwr.pd1Up = false → ∀ c ∈ [Instr.intcPsetWrite k w, .intcPclrWrite k w, .intcEnableWrite 0 k w, .intcClaim p,
      .intcComplete p num, .supEntry, .supExit], Completes c s [] fun _ => True) ∧
    (s.pwr.pd1Up = true →
    (Completes (.intcPsetWrite k w) s [.intc] fun t => t.intc.insv = x.insv ∧
      bit t.intc.pend n.val = (bit x.pend n.val || (mine && !bit x.insv n.val)) ∧
      (mine = true → bit x.insv n.val = true → bit t.intc.flag 2 = true)) ∧
    (Completes (.intcPclrWrite k w) s [.intc] fun t => t.intc.insv = x.insv ∧
      bit t.intc.pend n.val = (bit x.pend n.val && !(mine && !bit s.cyc.pended n.val))) ∧
    (Completes (.intcEnableWrite 0 k w) s [.intc] fun t =>
      let on : Prop := ∃ q, bit (at_ x.pen q) n.val = true
      t.intc.pen = x.pen ∧
      (n.val / 32 ≠ k.val → bit t.intc.sen n.val = bit x.sen n.val) ∧
      (n.val / 32 = k.val → mine = false → bit t.intc.sen n.val = false) ∧
      (mine = true → bit x.sen n.val = true ∨ ¬ on → bit t.intc.sen n.val = true) ∧
      (mine = true → bit x.sen n.val = false → on → bit t.intc.sen n.val = false ∧ bit t.intc.flag 0 = true)) ∧
    (Completes (.intcEnableWrite ⟨p.val + 1, by omega⟩ k w) s [.intc] fun t =>
      t.intc.sen = x.sen ∧ (∀ q, q ≠ p → at_ t.intc.pen q = at_ x.pen q) ∧
      (n.val / 32 ≠ k.val → bit (at_ t.intc.pen p) n.val = bit (at_ x.pen p) n.val) ∧
      (n.val / 32 = k.val → bit (at_ t.intc.pen p) n.val =
        (mine && (bit (at_ x.pen p) n.val || !bit x.sen n.val))) ∧
      (mine = true → bit (at_ x.pen p) n.val = false → bit x.sen n.val = true → bit t.intc.flag 0 = true)) ∧
    ((∀ m, ¬ qual m) → Completes (.intcClaim p) s [.rdata] fun t => t.rdata = 0) ∧
    (urgent qual n → Completes (.intcClaim p) s [.intc, .rdata] fun t =>
      t.rdata.toNat = 2 ^ 31 + n.val ∧ claimed t n ∧ cellRead 0 t.intc.claimant n.val = 1 + p.val ∧ at_ t.intc.last p = some n) ∧
    (num.toNat < 192 → bit x.insv num.toNat = true → cellRead 0 x.claimant num.toNat = 1 + p.val →
      Completes (.intcComplete p num) s [.intc] fun t => t.intc.flag = x.flag ∧
        ∀ j, bit t.intc.insv j = (bit x.insv j && decide (j ≠ num.toNat)) ∧
          bit t.intc.pend j = (bit x.pend j || (decide (j = num.toNat) && s.lineOf num.toNat))) ∧
    (192 ≤ num.toNat ∨ bit x.insv num.toNat = false ∨ cellRead 0 x.claimant num.toNat ≠ 1 + p.val →
      Completes (.intcComplete p num) s [.intc] fun t => t.intc = { x with flag := x.flag ||| 2 }) ∧
    (urgent (taken s.supLevel) n → x.handlers.length < 16 → s.flt.supReset = false →
      Completes .supEntry s [.intc] fun t =>
        claimed t n ∧ cellRead 1 t.intc.claimant n.val = 0 ∧ t.intc.handlers = (n, s.priOf n.val) :: x.handlers) ∧
    ((∀ m, ¬ taken s.supLevel m) → Completes .supEntry s [] fun _ => True) ∧
    (x.handlers = [] → Completes .supExit s [] fun _ => True) ∧
    (∀ h rest, x.handlers = h :: rest → (∀ m, ¬ taken ((rest.head?.map (·.2)).getD 16) m) →
      Completes .supExit s [.intc] fun t => t.intc.handlers = rest ∧ t.intc.pend = x.pend ∧
        ∀ j, bit t.intc.insv j = (bit x.insv j && decide (j ≠ h.1.val))))

/-- The header is checked in the order of Table 13.5; every heard transaction answers its status byte and CRC on HP_MISO, which
is low in the host's bytes and released at the end; a read word of a bank is served or MISSED; a write is queued whole, or
refused with HCRC or BUSY; an abort sets ABT and queues nothing; the head of the queue takes effect at its retirement, one in a
core cycle and no earlier than the third after its decision, or fails with WERR. Where an entry retired within 2 cycles the
queue level is open (13 R493, R495, R499–R504, R506–R511, R514). -/
def Obligations.HostPortTransactions : Prop :=
  ∀ (s : State) (cs : Fin 2) (h : Header) (op : Fin 4) (data : List Word) (hcrc : Byte) (e : HpEntry) (q : List HpEntry)
    (p : Nat),
    let src : Source := .hp cs
    let x := s.hp
    let st (code : Nat) : Nat :=
      16 * code + 8 * b2n x.queue.isEmpty + 4 * b2n (bit x.abt cs.val) + 2 * b2n (bit x.werr cs.val)
    let answers (t : State) (o : Nat) (sent : List Word) (code : Nat) (d : List Word) : Prop :=
      ∃ r : HpResp, t.hp.resp = some r ∧ r.status.toNat / 2 * 2 = st code ∧ r.data = d ∧
        r.crc = crc8 (h.bytes o ++ (sent ++ d).flatMap wordBytes ++ [r.status]) ∧
        bit t.hp.abt cs.val = false ∧ bit t.hp.werr cs.val = false ∧
        t.hp.miso = List.replicate (8 * (5 + 4 * sent.length + if o = 2 then 1 else 0)) .low ++
          (d.flatMap wordBytes ++ [r.status, r.crc]).flatMap (fun b => (List.range 8).map fun i =>
            if bit b (7 - i) then Level.high else .low) ++ [.released]
    let code := s.headerCode src op.val h
    let bad := [Part.chans, .groves, .ads, .tt, .me, .ps, .afe, .sc, .mem, .dma, .hp, .hl, .tsi, .flt, .reports, .freeCtr]
    let as := h.addrs.zip data
    (h.parityOk op.val = false → code = 7) ∧
    (h.parityOk op.val = true →
      (h.bad op.val = true → code = 9) ∧
      (h.bad op.val = false →
        (s.ready op.val h.addrs = false → code = 2) ∧
        (s.ready op.val h.addrs = true → s.glbOnly = false →
          (s.bound h.client src = false → code = 4) ∧
          (s.bound h.client src = true →
            ((s.clientAt h.client).st = .fenced → code = 5) ∧
            ((s.clientAt h.client).st ≠ .fenced →
              (op ≠ 0 → s.outOfTokens h.client = true → code = 6) ∧
              (op = 0 ∨ s.outOfTokens h.client = false → code = 0)))))) ∧
    (s.hears cs = false → ∀ c ∈ [Instr.hpNop cs h, .hpRead cs h [], .hpWrite cs h data hcrc, .hpBadhdr cs op h, .hpAbort cs .early],
      Completes c s [] fun _ => True) ∧
    (s.hears cs = true → (∀ u ∈ x.retired, u + 2 ≤ s.time) →
      (op = 0 → Completes (.hpNop cs h) s bad fun t => answers t 0 [] code [] ∧ t.hp.queue = x.queue) ∧
      (h.bad op.val = true → h.parityOk op.val = true → op ≠ 1 → Completes (.hpBadhdr cs op h) s bad fun t => answers t op.val [] 9 []) ∧
      (h.bad op.val = false → Completes (.hpBadhdr cs op h) s [] fun _ => True) ∧
      (op = 1 → code = 0 → s.glbOnly = false → fld (s.clientAt h.client).rate 7 0 = 0 → h.len = 0 →
        s.nativeAddr h.addr.toNat = p → s.isReg p = true → s.permits h.client p false 0 = true → isBankAddr p = true → p % 4 = 0 →
        s.mem.lock = none → (s.bank (bankOf p)).st = .on → (s.bank (bankOf p)).recov = false →
        (∀ z ∈ x.queue, s.nativeAddr z.addr.toNat ≠ p) → (∀ z ∈ s.cyc.hpWas, z.1 ≠ p) → cellRead 0 s.mem.errs p = 0 →
        (Completes (.hpRead cs h []) s [.hp, .mem] fun t => (∀ a, t.bankData a = s.bankData a) ∧ answers t 1 [] 0 [s.bankData p]) ∧
        (Completes (.hpRead cs h [0]) s [.hp] fun t => answers t 1 [] 11 [0] ∧ t.hp.cntMissed = satInc x.cntMissed)) ∧
      (op = 2 → code = 0 → s.glbOnly = false → fld (s.clientAt h.client).rate 7 0 = 0 → data.length = h.words →
        (∀ y ∈ as, s.writeWordCode h.client y.1 y.2 = 0) →
        (hcrc ≠ crc8 (h.bytes 2 ++ data.flatMap wordBytes) → Completes (.hpWrite cs h data hcrc) s [.hp] fun t =>
          answers t 2 data 8 [] ∧ t.hp.queue = x.queue ∧ bit t.hp.flag 1 = true) ∧
        (hcrc = crc8 (h.bytes 2 ++ data.flatMap wordBytes) →
          (16 < x.queue.length + h.words → Completes (.hpWrite cs h data hcrc) s [.hp] fun t =>
            answers t 2 data 1 [] ∧ t.hp.queue = x.queue ∧ bit t.hp.flag 2 = true) ∧
          (x.queue.length + h.words ≤ 16 → Completes (.hpWrite cs h data hcrc) s [.hp] fun t =>
            t.hp.queue = x.queue ++ as.map fun y =>
              { client := h.client, path := .hp, cs := cs, addr := .ofNat 20 y.1, data := y.2, at_ := s.time }))) ∧
      (Completes (.hpAbort cs .early) s [.hp] fun t => t.hp.queue = x.queue ∧ bit t.hp.abt cs.val = true ∧
        bit t.hp.flag 3 = true ∧ t.hp.cntAbort = satInc x.cntAbort ∧ t.hp.resp = none)) ∧
    (s.hears 0 = true → s.hears 1 = true → Completes (.hpCsCollision cs .early) s [.hp] fun t => t.hp.queue = x.queue ∧
      bit t.hp.abt cs.val = true ∧ bit t.hp.flag 3 = true ∧ t.hp.cntAbort = satInc x.cntAbort) ∧
    (x.queue = [] ∨ s.pwr.pd1Up = false → Completes .hpQueueRetire s [] fun _ => True) ∧
    (x.queue = e :: q → s.time < e.at_ + 3 ∨ s.time ∈ x.retired ∨ s.waits (s.nativeAddr e.addr.toNat) = true →
      Completes .hpQueueRetire s [] fun _ => True) ∧
    (x.queue = e :: q → s.nativeAddr e.addr.toNat = p → s.waits p = false → e.at_ + 3 ≤ s.time → s.time ∉ x.retired →
      s.pwr.pd1Up = true → (s.portOf p true).any s.portUsed = false →
      ((s.client e.client).st = .fenced → e.client ≠ 0 → e.path = .hp → Completes .hpQueueRetire s [.hp] fun t =>
        t.hp.queue = q ∧ bit t.hp.flag 4 = true ∧ t.hp.errClient = e.client ∧ t.hp.errCause = 1 ∧ t.hp.errAddr = e.addr ∧
        bit t.hp.werr e.cs.val = true) ∧
      ((s.client e.client).st ≠ .fenced ∨ e.client = 0 → s.pwr.pdUp = true →
        (isBankAddr p = true → p % 4 = 0 → (s.bank (bankOf p)).st = .on → MemCanonical s →
          Completes .hpQueueRetire s [.hp, .mem] fun t => t.hp.queue = q ∧ t.bankData p = e.data ∧
            ∀ a, a + 4 ≤ p ∨ p + 4 ≤ a → t.bankData a = s.bankData a) ∧
        (isMemAddr p = false →
          let u := s.modHp fun y => { y with queue := q, retired := s.time :: y.retired.filter fun t => decide (s.time < t + 2) }
          exec .hpQueueRetire s = .next (((u.clientWrite e.path e.client p e.data).getD u).modCyc fun y =>
            { y with hpWas := (p, u.regValue p) :: y.hpWas }))))

/-! ## Clients and the Seating Chart (14) -/

/-- A record word is written or refused with its reason; a client is brought into existence and restored at once, and disabled
and fenced as the core cycle after the command cuts it, as R551 to R553 say; tokens, events, buffers, messages and requests
follow their rules (14 R522, R523, R532–R538, R540–R546, R551–R553, R556, R558). In reset none of these commands does anything. -/
def Obligations.SeatingChartCommands : Prop :=
  ∀ (s : State) (sup : Bool) (c n : Fin 256) (k : Fin 8) (w : Word) (handle : BitVec 16) (l : Fin 4) (msgid : BitVec 12)
    (i : Fin 256),
    TablesCanonical s → cellWf {} s.sc.bufs = true →
    let r := s.client n
    let me := s.client c
    let writer : Prop := (c = 0 ∨ (c = 255 ∧ (s.client 255).canWrite 15 = true)) ∧ (n = 255 → sup = true)
    let others (t : State) : Prop := ∀ j, j ≠ n → t.client j = s.client j
    let flagged (t : State) (b : Nat) : Prop := bit t.sc.flag b = true
    let fresh (t : State) (cause : Nat) : Prop :=
      (t.client n).st = .active ∧ (t.client n).overflowed = false ∧ (t.client n).cursor = 0 ∧ (t.client n).faultTimes = [] ∧
      (∃ e : Event, (t.client n).queue = [e] ∧ e.w0.toNat % 256 = 0x8A ∧ e.w1.toNat = cause) ∧
      (∀ b, b ∈ s.bufHeld n → (t.bufRec b).st = .free)
    let wide := [Part.chans, .sc, .hl, .flt]
    let set := r.setWord k.val w
    let on : Word := w ||| 0x80000000
    let off : Word := w &&& 0x7FFFFFFF
    let low := handle.toNat % 256
    let b := s.bufRec (Fin.ofNat 256 low)
    let head := s.bankData (0x3C000 + 0x40 * low)
    let len := fld head 23 16
    let id : BitVec 12 := .ofNat 12 (fld head 11 0)
    let owner := State.bufOwner b
    let sendable : Prop := s.bufCheck c handle.toNat = 0 ∧ 1 ≤ len ∧ len ≤ 60 ∧ fld head 15 12 = 0 ∧ fld head 31 24 = 0
    let queued (t : State) (req : Bool) : Prop :=
      (t.bufRec (Fin.ofNat 256 low)).st = .queued owner l req ∧
      ∃ m : MdcMsg, (t.link l).mdcq = (s.link l).mdcq ++ [m] ∧ m.client = owner ∧ m.msgid = id ∧ m.req = req ∧
        m.buf = some (Fin.ofNat 256 low) ∧ m.payload = cellReadList 0 s.mem.cells (0x3C000 + 0x40 * low + 4) len
    let faulty (cmd : Instr) (op : Nat) : Prop := ∀ kind, s.bufCheck c handle.toNat = kind → kind ≠ 0 → c = 0 ∨ me.faultTimes.length < 7 →
      Completes cmd s [.sc] fun t => t.sc.bufs = s.sc.bufs ∧ flagged t 2 ∧ (t.client c).faults = satInc me.faults ∧
        ∃ p ∈ t.sc.posted, p.client = c ∧ p.ev.w0.toNat % 2 ^ 24 = (kind * 4096 + op * 256) * 256 + 0x88 ∧ p.ev.w1.toNat = handle.toNat
    (s.pwr.pd1Up = false → ∀ cmd ∈ [Instr.scRecordWrite sup c n k w, .scEnSet sup c n w, .scEnClear sup c n w, .scCmdFence n,
      .scCmdRestore n, .scCmdClrcnt n, .rateToken n, .eventAdmit, .evPop c, .bufAlloc c, .bufCmdFree c handle,
      .bufCmdSend c l handle, .bufCmdRequest c l handle, .requestTimeout c l msgid], Completes cmd s [] fun _ => True) ∧
    (s.pwr.pd1Up = true →
    -- records
    (6 ≤ k.val ∨ n = 0 → Completes (.scRecordWrite sup c n k w) s [] fun _ => True) ∧
    (k.val < 6 → n ≠ 0 →
      (¬ writer → Completes (.scRecordWrite sup c n k w) s [.sc] fun t =>
        t.sc.recs = s.sc.recs ∧ flagged t 0 ∧ t.sc.werrRecord = n ∧ t.sc.werrReason = 5) ∧
      (writer → s.recordFault n set ≠ 0 → Completes (.scRecordWrite sup c n k w) s [.sc] fun t =>
        t.sc.recs = s.sc.recs ∧ flagged t 0 ∧ t.sc.werrRecord = n ∧ t.sc.werrReason.toNat = s.recordFault n set) ∧
      (writer → s.recordFault n set = 0 → k ≠ 0 ∨ bit w 31 = r.en → Completes (.scRecordWrite sup c n k w) s [.sc] fun t =>
        t.client n = (if k.val = 5 then { set with tokAt := s.time } else set) ∧ others t ∧ t.sc.flag = s.sc.flag)) ∧
    (n ≠ 0 → writer → r.en = false → r.st = .disabled → s.recordFault n { r with bind := on } = 0 → 0 < r.credit →
      Completes (.scEnSet sup c n w) s wide fun t => fresh t 0 ∧ (t.client n).bind = on ∧ (t.client n).tokens = fld r.rate 15 8) ∧
    (n ≠ 0 → writer → r.en = true → s.recordFault n { r with bind := off } = 0 →
      Completes (.scEnClear sup c n w) s wide fun t => t.client n = { r with bind := off } ∧ others t ∧
        t.sc.cuts = s.sc.cuts ++ [{ client := n, cause := 0, grant := r.grant }]) ∧
    (∀ g, r.en = false → let t := s.applyCut { client := n, cause := 0, grant := g }
      (t.client n).st = .disabled ∧ (t.client n).bind = r.bind ∧ (t.client n).queue = r.queue ∧
      (∀ q ∈ t.sc.reqs, q.client ≠ n) ∧ ∀ h, (s.calEntry h).st ≠ .free → (s.calEntry h).owner = n → (t.calEntry h).st = .free) ∧
    -- fence, restore, counters
    (n = 0 → ∀ cmd ∈ [Instr.scCmdFence n, .scCmdRestore n, .scCmdClrcnt n], Completes cmd s [.sc] fun t =>
      flagged t 0 ∧ t.sc.recs = s.sc.recs) ∧
    (n ≠ 0 → r.st = .active → Completes (.scCmdFence n) s [.sc] fun t =>
      t.sc = { s.sc with cuts := s.sc.cuts ++ [{ client := n, cause := 2, grant := 0 }] }) ∧
    (n ≠ 0 → r.st = .active → let t := s.applyCut { client := n, cause := 2, grant := 0 }
      (t.client n).st = .fenced ∧ (t.client n).fcause = 2 ∧ (t.client n).queue = r.queue ∧ flagged t 1 ∧
      t.sc.frecClient = n ∧ t.sc.frecCause = 2 ∧ (∀ q ∈ t.sc.reqs, q.client ≠ n) ∧
      (∀ h, (s.calEntry h).st ≠ .free → (s.calEntry h).owner = n → (t.calEntry h).st = .free) ∧
      (∀ j : Fin 64, State.grants r j = true → bit (t.chan j).o.clr 4 = true ∧ (t.chan j).o.inClr = true) ∧
      ∃ q ∈ t.reports, q.mech = 0x22 ∧ q.kind = 9 ∧ q.index.toNat = n.val) ∧
    (n ≠ 0 → r.st ≠ .active → Completes (.scCmdFence n) s [] fun _ => True) ∧
    (n ≠ 0 → r.st = .fenced → n ∉ s.cyc.cut → 0 < r.credit → Completes (.scCmdRestore n) s wide fun t =>
      fresh t r.fcause.toNat ∧ (t.client n).tokens = fld r.rate 15 8) ∧
    (n ≠ 0 → r.st ≠ .fenced ∨ n ∈ s.cyc.cut → Completes (.scCmdRestore n) s [] fun _ => True) ∧
    (n ≠ 0 → Completes (.scCmdClrcnt n) s [.sc] fun t =>
      t.client n = { r with dropped := 0, late := 0, faults := 0 } ∧ others t) ∧
    (Completes (.rateToken n) s [.sc] fun t => others t ∧
      t.client n = if fld r.rate 7 0 ≠ 0 ∧ bit r.bind 31 = true ∧ r.tokAt + 2000 * fld r.rate 7 0 ≤ s.time then
        { r with tokens := min (fld r.rate 15 8) (r.tokens + 1), tokAt := r.tokAt + 2000 * fld r.rate 7 0 } else r) ∧
    -- events
    (s.sc.posted = [] → Completes .eventAdmit s [] fun _ => True) ∧
    (∀ p rest, s.sc.posted = p :: rest → s.time ≤ p.at_ → Completes .eventAdmit s [] fun _ => True) ∧
    (∀ p rest, s.sc.posted = p :: rest → p.at_ < s.time → Completes .eventAdmit s [.sc] fun t => ∃ j q,
      s.sc.posted[j]? = some q ∧ q.at_ = p.at_ ∧ t.sc = { s.sc with posted := s.sc.posted.eraseIdx j } ∧
      t.cyc.admits = s.cyc.admits ++ [q] ∧ ∀ m y, s.sc.posted[m]? = some y → y.at_ = p.at_ →
        q.client < y.client ∨ (q.client = y.client ∧ (q.rank < y.rank ∨ (q.rank = y.rank ∧ j ≤ m)))) ∧
    (∀ ev : Event, n ≠ 0 → let t := s.admitEvent n ev
      (r.st ≠ .active → t.client n = { r with dropped := satInc r.dropped }) ∧
      (r.st = .active → (r.queue.filter fun e => !e.ov).length < r.credit → t.client n = { r with queue := r.queue ++ [ev] }) ∧
      (r.st = .active → r.credit ≤ (r.queue.filter fun e => !e.ov).length → r.overflowed = false →
        (∀ e ∈ r.queue, bit e.w0 7 = true) → bit ev.w0 7 = false →
          flagged t 3 ∧ (t.client n).dropped = satInc r.dropped ∧ (t.client n).overflowed = true ∧
          ∃ e : Event, (t.client n).queue = r.queue ++ [e] ∧ e.ov = true ∧ e.w1 = 1 ∧ e.w0.toNat % 256 = 0x89)) ∧
    (me.queue = [] → Completes (.evPop c) s [.rdata] fun t => t.rdata = 0) ∧
    (∀ e rest, me.queue = e :: rest → Completes (.evPop c) s [.sc, .rdata] fun t =>
      (me.cursor = 0 → t.rdata = e.w0) ∧ (me.cursor = 1 → t.rdata = e.w1) ∧ (me.cursor = 2 → t.rdata = e.w2) ∧
      (me.cursor = 3 → t.rdata = e.w3) ∧ (me.cursor ≠ 3 → t.client c = { me with cursor := me.cursor + 1 }) ∧
      (me.cursor = 3 → t.client c = { me with queue := rest, cursor := 0, overflowed := me.overflowed && !e.ov })) ∧
    -- buffers
    (c ≠ 0 → fld me.quota 10 2 ≤ (s.bufHeld c).length → Completes (.bufAlloc c) s [.rdata] fun t => t.rdata.toNat = 2 ^ 28) ∧
    (c = 0 ∨ (s.bufHeld c).length < fld me.quota 10 2 →
      ((∀ j, (s.bufRec j).st ≠ .free) → Completes (.bufAlloc c) s [.rdata] fun t => t.rdata.toNat = 2 * 2 ^ 28) ∧
      ((s.bufRec i).st = .free → (∀ j, j < i → (s.bufRec j).st ≠ .free) →
        ((s.bank 7).st = .fenced → Completes (.bufAlloc c) s [.rdata] fun t => t.rdata.toNat = 3 * 2 ^ 28) ∧
        ((s.bank 7).st ≠ .fenced → Completes (.bufAlloc c) s [.sc, .rdata] fun t =>
          (t.bufRec i).st = .owned c ∧ (t.bufRec i).gen = (if (s.bufRec i).gen = 0xFF then 1 else (s.bufRec i).gen + 1) ∧
          t.rdata.toNat = (t.bufRec i).gen.toNat * 256 + i.val ∧ (t.client c).lastAlloc.toNat = t.rdata.toNat ∧
          ∀ j, j ≠ i → t.bufRec j = s.bufRec j))) ∧
    (s.bufCheck c handle.toNat = 0 → Completes (.bufCmdFree c handle) s [.sc, .hl] fun t =>
      t.bufRec (Fin.ofNat 256 low) = { b with st := .free } ∧ ∀ j, j ≠ Fin.ofNat 256 low → t.bufRec j = s.bufRec j) ∧
    faulty (.bufCmdFree c handle) 1 ∧ faulty (.bufCmdSend c l handle) 2 ∧ faulty (.bufCmdRequest c l handle) 3 ∧
    (sendable → Completes (.bufCmdSend c l handle) s [.sc, .hl] fun t => queued t false ∧ t.sc.reqs = s.sc.reqs) ∧
    (sendable → (∀ q ∈ s.sc.reqs, ¬ (q.client = owner ∧ q.link = l ∧ q.msgid = id)) →
      Completes (.bufCmdRequest c l handle) s [.sc, .hl] fun t => queued t true ∧
        ∃ q : OpenReq, t.sc.reqs = s.sc.reqs ++ [q] ∧ q.client = owner ∧ q.link = l ∧ q.msgid = id ∧ q.at_ = s.tb ∧
          q.timeoutMs = max 20 (fld (s.client owner).rate 31 16)) ∧
    -- the timeout of a request
    ((∀ q ∈ s.sc.reqs, ¬ (q.client = c ∧ q.link = l ∧ q.msgid = msgid)) → Completes (.requestTimeout c l msgid) s [] fun _ => True) ∧
    (∀ q, s.sc.reqs = [q] → q.client = c → q.link = l → q.msgid = msgid →
      reached s.tb (q.at_ + .ofNat 48 (q.timeoutMs * 200000)) = true →
      Completes (.requestTimeout c l msgid) s [.sc, .hl] fun t => t.sc.reqs = [] ∧ (t.bufRec q.buf).st = .owned c ∧ flagged t 5 ∧
        (∀ m ∈ (t.link l).mdcq, m.buf ≠ some q.buf) ∧
        ∃ p ∈ t.sc.posted, p.client = c ∧ p.ev.w0.toNat % 256 = 0x85 ∧ p.ev.w1.toNat / 2 ^ 28 = 1))

/-! ## Harness links and the time-slot interchange (15, 16) -/

/-- A link's enable, resync, comma and loss of signal; a received frame moves the frame and multiframe states by Table 15.3,
counts BIP errors and REI, and carries acknowledgements; a management message is sent, retried, given up, received and
delivered, a response and a give-up at the end of their core cycle; a node's register transaction is answered (15 R566,
R571–R573, R576, R582, R590–R593, R597, R598, R603, R604, R610; 14 R546, R547). Where a queued write retired within 2 cycles the
queue bit of an answer is open (13 R501). In reset none of these commands does anything. -/
def Obligations.HarnessLinkCommands : Prop :=
  ∀ (s : State) (l : Fin 4) (b1 b2 : Bool) (o1 : Option Byte) (bytes : List Byte) (octets : List Byte) (i : Fin 256)
    (c : Fin 256) (msgid : BitVec 12) (payload : List Byte) (seq : Bool) (slot : Fin 256) (h : Header) (m : MdcMsg)
    (o : MdcOut) (rest : List MdcMsg) (p : Nat),
    (s.pwr.pdUp = false → ∀ cmd ∈ [Instr.hlEnable l, .hlCmdResync l, .hlCommaDetect l b1 b2, .hlRawLosChange l b1,
      .hlFrameReceived l b1 b2 o1 (bytes.map some), .mdcTxStart l, .mdcRetry l, .mdcGiveup l, .mdcFrameReceived l octets b1,
      .nodeXchNop l slot b1 h b2, .nodeXchRead l slot h [] b2, .nodeXchWrite l slot h [] 0 b2], Completes cmd s [] fun _ => True) ∧
    (s.pwr.pdUp = true → s.upd.camp = none → TablesCanonical s → cellWf {} s.sc.bufs = true →
    let x := s.link l
    let others (t : State) : Prop := ∀ j, j ≠ l → t.link j = s.link j
    let hunting (y : Hl) : Prop := y.fst_ = .hunt ∧ y.mfst = .hunt ∧ y.stable = false
    let counts (y : Hl) : Prop := y.bip = x.bip ∧ y.rep = x.rep ∧ y.drop = x.drop ∧ y.rei = x.rei
    -- enable, resync, comma, loss of signal
    (x.en = true → Completes (.hlEnable l) s [] fun _ => True) ∧
    (x.en = false → Completes (.hlEnable l) s [.hl, .msp] fun t => others t ∧ hunting (t.link l) ∧ counts (t.link l) ∧
      (t.link l).en = true ∧ (t.link l).defects = 7 ∧ (t.link l).tseq = false ∧ bit (t.link l).ackTx 15 = false ∧
      (t.link l).flag = x.flag ∧ (t.link l).rd = false) ∧
    (x.en = true → Completes (.hlCmdResync l) s [.hl] fun t => others t ∧ hunting (t.link l) ∧ counts (t.link l) ∧
      (t.link l).defects = x.defects ∧ (t.link l).flag = x.flag) ∧
    (x.en = false → ∀ cmd ∈ [Instr.hlCmdResync l, .hlCommaDetect l b1 b2, .hlRawLosChange l b1, .mdcTxStart l,
      .mdcFrameReceived l octets b1, .hlFrameReceived l b1 b2 o1 (bytes.map some)], Completes cmd s [] fun _ => True) ∧
    (x.en = true → x.fst_ ≠ .hunt → Completes (.hlCommaDetect l b1 b2) s [] fun _ => True) ∧
    (x.en = true → x.fst_ = .hunt →
      (Completes (.hlCommaDetect l b1 true) s [.hl] fun t => others t ∧ t.link l = { x with rxinv := true }) ∧
      (Completes (.hlCommaDetect l true false) s [.hl] fun t => others t ∧
        t.link l = { x with fst_ := .presync, preCount := 0 })) ∧
    (x.en = true → Completes (.hlRawLosChange l b1) s [.hl] fun t => others t ∧ (t.link l).rawLos = b1 ∧ counts (t.link l) ∧
      (t.link l).fst_ = x.fst_ ∧ (b1 = true → (t.link l).stable = false ∧ bit (t.link l).seen 0 = true) ∧
      (b1 = false → x.fst_ = .sync → x.mfst = .sync → (t.link l).stable = x.stable)) ∧
    -- received frames
    (x.en = true → bytes.length = 270 →
      let cmd (comma k1 : Bool) : Instr := .hlFrameReceived l comma k1 o1 (bytes.map some)
      let parts := [Part.sc, .hl, .smb, .pack, .upd, .pm, .rs]
      let place := (x.fn.toNat + 1) % 16
      let inPlace : Prop := if place = 0 then b2 = true else b2 = false ∧ o1 = some (.ofNat 8 place)
      (x.fst_ = .hunt → Completes (cmd b1 b2) s [] fun _ => True) ∧
      (x.fst_ = .presync → Completes (cmd false b2) s parts fun t => others t ∧ hunting (t.link l)) ∧
      (x.fst_ = .presync → x.preCount = 0 → Completes (cmd true b2) s parts fun t =>
        others t ∧ (t.link l).fst_ = .presync ∧ (t.link l).preCount = 1) ∧
      (x.fst_ = .presync → x.preCount = 1 → Completes (cmd true b2) s parts fun t => others t ∧ (t.link l).fst_ = .sync) ∧
      (x.fst_ = .sync → x.badO0 = 3 → Completes (cmd false b2) s parts fun t => others t ∧ hunting (t.link l)) ∧
      (x.fst_ = .sync → b1 = true ∨ x.badO0 < 3 → Completes (cmd b1 b2) s parts fun t =>
        others t ∧ (t.link l).fst_ = .sync ∧ (t.link l).badO0 = (if b1 then 0 else x.badO0 + 1) ∧
        (t.link l).rei = satOf 16 (x.rei.toNat + (bytes.getD 0 0).toNat % 16) ∧
        (t.link l).rawRdi = bit (bytes.getD 0 0) 7 ∧
        (t.link l).bip = (match x.bipExp with | none => x.bip | some e => satOf 32 (x.bip.toNat + popCount (e ^^^ bytes.getD 1 0))) ∧
        (t.link l).bipExp = some (xorBytes (bytes.take 12 ++ bytes.drop 14)) ∧
        (t.link l).ackRx.toNat = (bytes.getD 7 0).toNat + 256 * (bytes.getD 8 0).toNat ∧
        (x.mfst = .hunt → b2 = false → (t.link l).mfst = .hunt) ∧
        (x.mfst = .hunt → b2 = true → (t.link l).mfst = .presync ∧ (t.link l).fn = 0) ∧
        (x.mfst = .presync → ¬ inPlace → (t.link l).mfst = .hunt) ∧
        (x.mfst = .presync → inPlace → x.mfCount = 15 → (t.link l).mfst = .sync) ∧
        (x.mfst = .presync → inPlace → x.mfCount < 15 → (t.link l).mfst = .presync ∧ (t.link l).mfCount = x.mfCount + 1) ∧
        (x.mfst = .sync → inPlace → (t.link l).mfst = .sync ∧ (t.link l).badO1 = 0) ∧
        (x.mfst = .sync → ¬ inPlace → x.badO1 = 0 → (t.link l).mfst = .sync ∧ (t.link l).badO1 = 1) ∧
        (x.mfst = .sync → ¬ inPlace → x.badO1 = 1 → (t.link l).mfst = .hunt) ∧
        -- the acknowledgement it carries
        (x.mdcsel = 0 → x.out = some o → reached s.tb (o.b0 + 3200000) = false → (bytes.getD 8 0).toNat = 128 + 64 * b2n o.seq + o.msg.msgid.toNat / 256 →
          (bytes.getD 7 0).toNat = o.msg.msgid.toNat % 256 → (t.link l).out = none ∧
          (o.msg.buf = some i → o.msg.req = false → (t.bufRec i).st = .owned o.msg.client)))) ∧
    -- sending
    (x.en = true → x.mdcsel = 0 → x.out = none → x.mdcOut = [] → x.mdcq = m :: rest →
      Completes (.mdcTxStart l) s [.hl] fun t => others t ∧
        let bs := framed ([BitVec.ofNat 8 (16 + 8 * b2n m.req + 2 * b2n x.tseq), BitVec.ofNat 8 m.client.val] ++
          leBytes 2 m.msgid.toNat ++ m.payload)
        t.link l = { x with
          mdcq := rest
          tseq := !x.tseq
          mdcOut := if x.fenced then [] else bs
          out := some { msg := m, seq := x.tseq, tx := if x.fenced then 0 else 1, b0 := s.tb, len := bs.length } }) ∧
    (x.out = none → Completes (.mdcRetry l) s [] (fun _ => True) ∧ (s.giveUp l) = s) ∧
    (Completes (.mdcGiveup l) s [] fun t => t.cyc.giveups = s.cyc.giveups ++ [(l, false)]) ∧
    (x.out = some o →
      let bs := o.msg.octets o.seq
      (∀ k : Nat, 1 ≤ k → k ≤ 3 → s.tb = o.b0 + .ofNat 48 (800000 * k) → x.en = true → x.mdcsel = 0 → x.fenced = false →
        (x.mdcOut = [] → 64 * k + o.len ≤ 224 → Completes (.mdcRetry l) s [.hl] fun t => others t ∧
          t.link l = { x with mdcOut := bs, out := some { o with tx := o.tx + 1 }, retry := satInc x.retry }) ∧
        (x.mdcOut ≠ [] ∨ 224 < 64 * k + o.len → Completes (.mdcRetry l) s [] fun _ => True)) ∧
      (reached s.tb (o.b0 + 3200000) = false → (s.giveUp l) = s) ∧
      (reached s.tb (o.b0 + 3200000) = true → o.msg.req = false → o.msg.buf = some i →
        let t := s.giveUp l
        OnlyChanges [.sc, .hl] s t ∧ others t ∧ (t.link l).out = none ∧
          (t.link l).giveup = satInc x.giveup ∧ bit (t.link l).flag 11 = true ∧ (t.bufRec i).st = .owned o.msg.client ∧
          ∃ q ∈ t.sc.posted, q.client = o.msg.client ∧ q.ev.w0.toNat % 256 = 0x85 ∧ q.ev.w2 = .ofNat 32 o.tx)) ∧
    -- receiving a management frame: discarded, repeated, delivered
    (x.en = true → x.mdcsel ≠ 0 ∨ x.fenced = true → Completes (.mdcFrameReceived l octets b1) s [] fun _ => True) ∧
    (x.en = true → x.mdcsel = 0 → x.fenced = false → x.defects &&& 7 = 0 →
      let head (kind : Nat) : List Byte :=
        [BitVec.ofNat 8 (kind + 2 * b2n seq), BitVec.ofNat 8 c.val] ++ leBytes 2 msgid.toNat ++ payload
      let whole (kind : Nat) : List Byte := head kind ++ leBytes 2 (fcs16 (head kind)).toNat
      let acked (y : Hl) : Prop := y.ackTx.toNat = 0x8000 + 0x4000 * b2n seq + msgid.toNat
      (b1 = true ∨ octets.length < 6 ∨ 66 < octets.length ∨
          leBytes 2 (fcs16 (octets.take (octets.length - 2))).toNat ≠ octets.drop (octets.length - 2) →
        Completes (.mdcFrameReceived l octets b1) s [.hl] fun t => others t ∧ (t.link l).fcs = satInc x.fcs ∧
          bit (t.link l).flag 9 = true ∧ (t.link l).ackTx = x.ackTx) ∧
      (1 ≤ payload.length → payload.length ≤ 60 →
        (∀ y, x.seenMsg = some y → y.seq = seq → y.client = c → y.msgid = msgid → y.rsp = b2 →
            (s.tb - y.at_).toNat ≤ 3200000 →
          Completes (.mdcFrameReceived l (whole (16 + 4 * b2n b2)) false) s [.hl] fun t => others t ∧ acked (t.link l)) ∧
        (x.seenMsg = none → Completes (.mdcFrameReceived l (whole 20) false) s [.hl] fun t => others t ∧ acked (t.link l) ∧
          t.cyc.responses = s.cyc.responses ++ [{ link := l, client := c, msgid := msgid, payload := payload }]) ∧
        let t := s.matchResponse { link := l, client := c, msgid := msgid, payload := payload }
        (∀ q, s.sc.reqs = [q] → q.client = c → q.link = l → q.msgid = msgid → MemCanonical s → s.mem.errs = [] →
          (s.bank 7).st = .on →
          t.sc.reqs = [] ∧ (t.bufRec q.buf).st = .owned c ∧
            cellReadList 0 t.mem.cells (0x3C000 + 64 * q.buf.val + 4) payload.length = payload ∧
            (∀ a, a < 0x3C000 + 64 * q.buf.val ∨ 0x3C040 + 64 * q.buf.val ≤ a →
              cellRead 0 t.mem.cells a = cellRead 0 s.mem.cells a) ∧
            ∃ e ∈ t.sc.posted, e.client = c ∧ e.ev.w0.toNat % 256 = 0x84) ∧
        (s.sc.reqs = [] → t.sc.bufs = s.sc.bufs ∧ (t.client c).late = satInc (s.client c).late))) ∧
    -- register transactions of a node
    (∀ op3 sub, s.xchOn l slot sub = false → ∀ cmd ∈ [Instr.nodeXchNop l slot op3 h sub, .nodeXchRead l slot h [] sub,
      .nodeXchWrite l slot h [] 0 sub], Completes cmd s [] fun _ => True) ∧
    (s.xchOn l slot true = true →
      ∀ cmd ∈ [Instr.nodeXchNop l slot b1 h true, .nodeXchRead l slot h [] true, .nodeXchWrite l slot h [] 0 true],
        Completes cmd s [.hl] fun t => others t ∧ t.link l = { x with flag := x.flag ||| 0x2000 }) ∧
    (s.xchOn l slot false = true → (∀ u ∈ s.hp.retired, u + 2 ≤ s.time) →
      let code (op : Nat) := s.headerCode (.link l slot) op h
      let st (code : Nat) : Nat := 16 * code + 8 * b2n s.hp.queue.isEmpty + 2 * b2n x.xwerr
      let replies (t : State) (op : Nat) (sent : List Word) (code : Nat) (d : List Word) : Prop :=
        ∃ y : Byte, y.toNat / 2 * 2 = st code ∧ (t.link l).xwerr = false ∧
          (t.link l).xchOut = x.xchOut ++ [0x5A] ++ d.flatMap wordBytes ++
            [y, crc8 (h.bytes op ++ (sent ++ d).flatMap wordBytes ++ [y])]
      (code 0 = 0 → Completes (.nodeXchNop l slot false h false) s [.hl] fun t => others t ∧ replies t 0 [] 0 []) ∧
      (code 1 = 0 → s.glbOnly = false → fld (s.clientAt h.client).rate 7 0 = 0 → h.len = 0 → s.nativeAddr h.addr.toNat = p →
        s.isReg p = true → s.permits h.client p false 0 = true → isBankAddr p = true → p % 4 = 0 →
        s.mem.lock = none → (s.bank (bankOf p)).st = .on → (s.bank (bankOf p)).recov = false → cellRead 0 s.mem.errs p = 0 →
        (∀ z ∈ s.hp.queue, s.nativeAddr z.addr.toNat ≠ p) → (∀ z ∈ s.cyc.hpWas, z.1 ≠ p) →
        Completes (.nodeXchRead l slot h [] false) s [.hl, .mem] fun t => (∀ a, t.bankData a = s.bankData a) ∧ others t ∧ replies t 1 [] 0 [s.bankData p]) ∧
      (∀ d, code 2 = 0 → s.glbOnly = false → fld (s.clientAt h.client).rate 7 0 = 0 → h.len = 0 →
        s.writeWordCode h.client h.addr.toNat d = 0 → s.hp.queue.length < 16 →
        Completes (.nodeXchWrite l slot h [d] (crc8 (h.bytes 2 ++ wordBytes d)) false) s [.hp, .hl] fun t => others t ∧
          t.hp.queue = s.hp.queue ++ 
                            [{ client := h.client, path := .link l, cs := 0, addr := .ofNat 20 h.addr.toNat, data := d, at_ := s.time }])))

/-- At a local frame boundary, after 50,000 core cycles, each enabled link starts a frame with Table 15.2's overhead, the TSI
builds every egress frame and IV_RX by R616 and R617 from the page in force as the cycle before left it, and FRAME steps; the
copy ends after 1,280 cycles; the swap request, its cancel and an entry write take effect or are refused, a write of the
request's own cycle among the entries it compares (15 R568, R581, R611; 16 R614–R618, R622–R624, R627, R629). In reset none of
these commands does anything. -/
def Obligations.FrameBoundaryAndInterchange : Prop :=
  ∀ (s : State) (parts : List Nat) (l : Fin 4) (k : Fin 256) (c : Fin 256) (admMask : BitVec 4) (n : Fin 2560) (w : Word),
    TablesCanonical s →
    let x := s.tsi
    let v := s.frameView
    let e (p : Nat) : Word := v.entry (512 * p + 256 * b2n v.tsi.active + k.val)
    let owned (p : Nat) : Prop := fld (e p) 31 24 = 0 ∨ v.clientState (Fin.ofNat 256 (fld (e p) 31 24)) = .active
    let writer : Prop := c = 0 ∨ c = 255
    let busy : Prop := x.copying = true ∨ x.pend ≠ none
    let shut : Prop := x.copying = true ∨ ∃ q, x.pend = some q ∧ q.at_ ≠ s.tb
    let flagged (t : State) (b : Nat) : Prop := bit t.tsi.ev.flag b = true
    let page (i : Nat) : Bool := decide (i / 256 % 2 = 1)
    (s.pwr.pdUp = false → ∀ i ∈ [Instr.localFrameBoundary parts, .tsiCmdCopy c, .tsiCopyDone, .tsiSwapReq c admMask,
      .tsiSwapCancel c, .tsiEntryWrite c n w], Completes i s [] fun _ => True) ∧
    (s.pwr.pdUp = true →
    (s.flt.admMask = 0 → x.frameCnt < 50000 → Completes (.localFrameBoundary parts) s [] fun _ => True) ∧
    (s.flt.admMask = 0 → 50000 ≤ x.frameCnt → x.fn ≠ 15 →
      Completes (.localFrameBoundary parts) s [.tt, .afe, .hl, .tsi, .msp, .pm, .reports] fun t =>
        let rx := t.tsi.ivRx.getD k.val 0
        t.tsi.fn = x.fn + 1 ∧ t.tsi.frame = x.frame + 1 ∧ flagged t 0 ∧ t.tsi.conn = x.conn ∧ t.tsi.active = x.active ∧
        t.tsi.adm = x.adm ∧ t.tsi.frameCnt = x.frameCnt - 50000 ∧
        (fld (e 4) 23 22 = 0 ∨ ¬ owned 4 → rx = 0x1FF) ∧
        (fld (e 4) 23 22 = 2 → owned 4 → rx.toNat = fld (e 4) 7 0) ∧
        (fld (e 4) 23 22 = 1 → owned 4 → fld (e 4) 21 19 = 4 →
          rx = if v.me.st = .fenced then 0x1FF else (cellRead (0 : Byte) v.tsi.ivTx (fld (e 4) 15 8)).setWidth 9) ∧
        (fld (e 4) 23 22 = 1 → fld (e 4) 21 19 = l.val → bit v.tsi.adm l.val = false → rx = 0x1FF) ∧
        (fld (e 4) 23 22 = 1 → owned 4 → fld (e 4) 21 19 = l.val → (s.link l).fenced = true ∨ (s.link l).en = false → rx = 0x1FF) ∧
        ((s.link l).en = true → s.pwr.st ≠ .entering → ∃ f, (t.link l).tx = some f ∧ f.idb = s.identity.getD (x.fn + 1).toNat 0 ∧
          (bit f.stat 7 = true ↔ (s.link l).fenced = true ∨ (v.link l).defects &&& 7 ≠ 0) ∧
          (∀ y, (s.link l).tx = some y →
            f.bip = xorBytes ([y.stat, y.bip] ++ y.mdc ++ [y.idb] ++ leBytes 2 y.ack.toNat ++ y.slots)) ∧
          ((s.link l).fenced = true → f.slots = .replicate 256 0xFF ∧ f.mdc = .replicate 4 0x7E) ∧
          ((s.link l).fenced = false → (s.link l).xen = false →
            (fld (e l.val) 23 22 = 0 ∨ ¬ owned l.val ∨ bit v.tsi.adm l.val = false → f.slots.getD k.val 0 = 0xFF) ∧
            (fld (e l.val) 23 22 = 2 → owned l.val → bit v.tsi.adm l.val = true →
              (f.slots.getD k.val 0).toNat = fld (e l.val) 7 0)))) ∧
    -- the copy
    (¬ writer ∨ busy → Completes (.tsiCmdCopy c) s [.tt, .tsi] fun t =>
      flagged t 6 ∧ t.tsi.conn = x.conn ∧ t.tsi.copying = x.copying ∧ t.tsi.pend = x.pend) ∧
    (writer → ¬ busy → Completes (.tsiCmdCopy c) s [.tsi] fun t => t.tsi = { x with copying := true, copyAt := s.time }) ∧
    (x.copying = true → x.copyAt + 1280 ≤ s.time → s.flt.admMask = 0 → Completes .tsiCopyDone s [.tt, .tsi] fun t =>
      flagged t 5 ∧ t.tsi.copying = false ∧ t.tsi.active = x.active ∧
      t.entry n.val = s.entry (if page n.val = x.active then n.val else if x.active then n.val + 256 else n.val - 256)) ∧
    (x.copying = false ∨ s.time < x.copyAt + 1280 → s.flt.admMask = 0 ∨ x.copying = true → Completes .tsiCopyDone s [] fun _ => True) ∧
    (¬ writer → Completes (.tsiSwapCancel c) s [.tt, .tsi] fun t => flagged t 6 ∧ t.tsi.pend = x.pend) ∧
    -- the swap
    (¬ writer ∨ busy → Completes (.tsiSwapReq c admMask) s [.tt, .tsi] fun t => flagged t 6 ∧ t.tsi.pend = x.pend) ∧
    (writer → ¬ busy → Completes (.tsiSwapReq c admMask) s [.tsi] fun t =>
      ∃ q, t.tsi = { x with admMask := admMask, defers := 0, pend := some q } ∧ q.admMask = admMask ∧ q.at_ = s.tb ∧
        (bit q.taken l.val = true ↔ bit admMask l.val = true ∨ ∃ p : Fin 5, ∃ j : Fin 256,
          let a := s.entry (512 * p.val + 256 * b2n x.active + j.val)
          let b := s.entry (512 * p.val + 256 * b2n (!x.active) + j.val)
          a ≠ b ∧ ((fld b 23 22 = 1 ∧ fld b 21 19 = l.val) ∨ (p.val = l.val ∧ fld b 23 22 ≠ 0)))) ∧
    (writer → Completes (.tsiSwapCancel c) s [.tsi] fun t => t.tsi = { x with pend := none }) ∧
    -- an entry
    (let refused (reason : Nat) : Prop := Completes (.tsiEntryWrite c n w) s [.tt, .tsi] fun t =>
      flagged t 6 ∧ t.tsi.conn = x.conn ∧ t.tsi.werrReason.toNat = reason ∧ t.tsi.werrOffset.toNat = 4 * n.val
    (¬ writer → refused 1) ∧
    (writer → page n.val = x.active → s.boot.locked = true → refused 2) ∧
    (writer → page n.val ≠ x.active → shut → refused 3) ∧
    (writer → (page n.val = x.active ∧ s.boot.locked = false) ∨ (page n.val ≠ x.active ∧ ¬ shut) →
      (badEntry w = true → refused 4) ∧
      (badEntry w = false → Completes (.tsiEntryWrite c n w) s [.tsi] fun t =>
        t.entry n.val = w ∧ ∀ j, j ≠ n.val → t.entry j = s.entry j))))

/-! ## Performance bins and the record store (17) -/

/-- A PM second's verdicts wait ten seconds and go into the bins, DEG is judged, run time counts, and a history bin is copied
into PM_WIN; the operation of the store in progress ends: a queued record is written, retried, or refused by a read-only store,
or a compaction copies one record or erases its sector (15 R578; 17 R636–R638, R640, R642, R648, R652, R655–R659, R663, R668; 19
R701). In reset none of these commands does anything. -/
def Obligations.PerformanceAndRecordStore : Prop :=
  ∀ (s : State) (l : Fin 4) (w : Word) (d : DoneSecond) (rest : List DoneSecond) (q : RsWrite) (qs : List RsWrite)
    (pages retries fails k : Nat) (badErase : Bool) (bad : List Nat) (x y : RsVersion) (xs : List RsVersion),
    let p := s.pm
    let h := s.link l
    let c := at_ p.sec.links l
    let r := s.rs
    let thr := p.sesthr.toNat
    let un := bit p.unav l.val
    let ses : Bool := decide (thr ≤ c.bip) || c.severe
    let counts : Bool := p.sec.observed && c.enabled
    let up : Prop := s.pwr.pllLock = true
    (∀ i ∈ [.pmSecond, .pmBinPlace, .runTimeMs, .pmSelWrite w, .pmWinReady], ¬ up → Completes i s [] fun _ => True) ∧
    (∀ i ∈ [.rsScan bad, .rsRecordWrite pages retries fails badErase], s.pwr.pd1Up = false → Completes i s [] fun _ => True) ∧
    -- seconds
    (s.pwr.pdUp = false ∨ s.canopy.rtcSec = p.sec.at_ → Completes .pmSecond s [] fun _ => True) ∧
    (up → s.pwr.pdUp = true → s.canopy.rtcSec ≠ p.sec.at_ → Completes .pmSecond s [.hl, .pm, .reports] fun t =>
      (∃ v : DoneSecond, ∃ old, t.pm.waiting = old ++ [v] ∧ old.length = p.waiting.length ∧
        v.at_ = p.sec.at_.toNat ∧ v.suspect = !s.canopy.rtcValid ∧ v.observed = p.sec.observed ∧ v.gov = p.sec.gov ∧
        v.plaus = p.sec.plaus ∧ v.tamper = p.sec.tamper ∧ v.odo = p.sec.odo ∧ v.run = p.sec.run ∧
        (at_ v.v l).bip = c.bip ∧ (at_ v.v l).es = (decide (0 < c.bip) || c.errored) ∧ (at_ v.v l).ses = ses ∧
        (at_ v.v l).slips = c.slips ∧ (at_ v.v l).ds = c.defect ∧ (at_ v.v l).counts = counts ∧
        (c.fenced = true → (at_ v.v l).uas = true) ∧
        (counts = false → bit t.pm.unav l.val = un ∧ at_ t.pm.against l = at_ p.against l) ∧
        (counts = true → ses = un → bit t.pm.unav l.val = un ∧ at_ t.pm.against l = 0 ∧ (at_ v.v l).uas = (un || c.fenced)) ∧
        (counts = true → ses ≠ un → at_ p.against l ≠ 9 →
          bit t.pm.unav l.val = un ∧ at_ t.pm.against l = at_ p.against l + 1 ∧ (at_ v.v l).uas = (un || c.fenced)) ∧
        (counts = true → ses ≠ un → at_ p.against l = 9 →
          bit t.pm.unav l.val = !un ∧ at_ t.pm.against l = 0 ∧ (at_ v.v l).uas = (!un || c.fenced))) ∧
      t.pm.sec.at_ = s.canopy.rtcSec ∧ (at_ t.pm.sec.links l).bip = 0 ∧
      (s.flt.supReset = false → ∃ b, at_ t.pm.views 0 = some b ∧ b.upd = ((at_ p.views 0).getD {}).upd + 1 ∧ b.start = p.cur15.start) ∧
      -- DEG
      (h.en = true → (t.link l).secBip = 0 ∧
        (h.secRaw = false → bit h.defects 4 = false → fld h.deg 15 0 ≤ h.secBip → fld h.deg 19 16 = at_ h.integ 4 + 1 →
          (t.link l).defects = h.defects ||| 0x10 ∧ bit (t.link l).flag 4 = true) ∧
        (h.secRaw = false → bit h.defects 4 = true → h.secBip < fld h.deg 15 0 → fld h.deg 23 20 = at_ h.integ 4 + 1 →
          (t.link l).defects = h.defects &&& 0x2F ∧ bit (t.link l).flag 6 = true) ∧
        (h.secRaw = true → (t.link l).defects = h.defects ∧ at_ (t.link l).integ 4 = at_ h.integ 4))) ∧
    -- bins
    (p.waiting = [] ∨ s.flt.supReset = true → Completes .pmBinPlace s [] fun _ => True) ∧
    (up → p.waiting = d :: rest → s.flt.supReset = false →
      let v := at_ d.v l
      let b := at_ p.cur15.links l
      let added (x : Word) (n : Nat) : Word := satOf 32 (x.toNat + n)
      ((s.canopy.rtcSec - .ofNat 32 d.at_).toNat < 11 → Completes .pmBinPlace s [] fun _ => True) ∧
      (11 ≤ (s.canopy.rtcSec - .ofNat 32 d.at_).toNat → d.observed = true → p.tca = 0 → p.open15 = true → p.openDay = true →
        p.cur15.start.toNat = d.at_ / 900 * 900 → p.curDay.start.toNat = d.at_ / 86400 * 86400 → d.at_ % 86400 ≠ 86399 →
        (d.at_ % 900 ≠ 899 → Completes .pmBinPlace s [.pm] fun t =>
          t.pm.waiting = rest ∧ t.pm.cur15.obs = p.cur15.obs + 1 ∧ t.pm.curDay.obs = p.curDay.obs + 1 ∧
          t.pm.cur15.gov = added p.cur15.gov d.gov ∧ t.pm.cur15.tamper = added p.cur15.tamper d.tamper ∧
          (d.suspect = true → bit t.pm.cur15.flags 0 = true) ∧ t.pm.hist15 = p.hist15 ∧
          (v.counts = false → at_ t.pm.cur15.links l = b) ∧
          (v.counts = true → at_ t.pm.cur15.links l =
            #v[added b[0] v.bip, added b[1] (b2n (v.es && !v.uas)), added b[2] (b2n (v.ses && !v.uas)), added b[3] (b2n v.uas),
               added b[4] v.slips, added b[5] (b2n v.ds), added b[6] 1])) ∧
        (d.at_ % 900 = 899 → Completes .pmBinPlace s [.sc, .flt, .pm, .rs] fun t =>
          t.pm.waiting = rest ∧ bit t.pm.flag 0 = true ∧ t.pm.cur15.obs = 0 ∧ t.pm.cur15.start = .ofNat 32 (d.at_ + 1) ∧
          ∃ y : Bin, t.pm.hist15 = (y :: p.hist15).take 32 ∧ y.kind = 1 ∧ y.start = p.cur15.start ∧ y.obs = p.cur15.obs + 1 ∧
            (bit y.flags 1 = true ↔ bit p.cur15.flags 1 = true ∨ y.obs < 900)))) ∧
    -- run time
    (let on : Prop := up ∧ s.cyc.runMs = false ∧ bit p.cfg 3 = true ∧ s.tbs.run = true ∧ s.tb.toNat % 200000 = 0 ∧ (s.ad 0).st = .locked ∧
        ∃ k, (s.chan (State.chanOf (Fin.ofNat 8 (fld p.cfg 6 4)) k)).o.inClr = false;
      (¬ on → Completes .runTimeMs s [] fun _ => True) ∧
      (on → p.runMs < 1000 → Completes .runTimeMs s [.pm] fun t => t.pm.sec.run = p.sec.run + 1 ∧
        (p.runMs < 999 → t.pm.runMs = p.runMs + 1 ∧ t.pm.runSec = p.runSec) ∧
        (p.runMs = 999 → t.pm.runMs = 0 ∧ t.pm.runSec = satOf 32 (p.runSec.toNat + 1)))) ∧
    -- history selection
    (let good : Prop := (fld w 10 8 = 1 ∧ 1 ≤ fld w 5 0 ∧ fld w 5 0 ≤ 32) ∨ (fld w 10 8 = 3 ∧ 1 ≤ fld w 5 0 ∧ fld w 5 0 ≤ 7);
      (up → good → Completes (.pmSelWrite w) s [.pm] fun t =>
        t.pm.selRdy = false ∧ t.pm.win = none ∧ t.pm.selKind.toNat = fld w 10 8 ∧ t.pm.selAge.toNat = fld w 5 0 ∧ t.pm.flag = p.flag) ∧
      (up → ¬ good → Completes (.pmSelWrite w) s [.pm] fun t => t.pm = { p with flag := p.flag ||| 0x10 })) ∧
    (p.selKind = 0 ∨ p.selRdy = true ∨ s.flt.supReset = true → Completes .pmWinReady s [] fun _ => True) ∧
    (up → p.selKind = 1 → p.selRdy = false → s.flt.supReset = false → Completes .pmWinReady s [.pm] fun t =>
      t.pm = { p with selRdy := true, win := some ((p.hist15[p.selAge.toNat - 1]?).getD {}) }) ∧
    (up → p.selKind = 3 → p.selRdy = false → s.flt.supReset = false → Completes .pmWinReady s [.pm] fun t =>
      t.pm = { p with selRdy := true, win := some ((p.histDay[p.selAge.toNat - 1]?).getD {}) }) ∧
    -- the record store
    (r.ready = true → Completes (.rsScan bad) s [] fun _ => True) ∧
    (s.pwr.pd1Up = true → r.ready = false → Completes (.rsScan bad) s [.rs] fun t => t.rs.ready = true ∧ t.rs.sectors = r.sectors ∧ t.rs.ro = r.ro ∧
      ∀ (i : Nat) (x : RsVersion), r.versions[i]? = some x →
        t.rs.versions[i]? = some (if i ∈ bad then { x with crcOk := false } else x)) ∧
    (r.op = false ∨ r.ready = false → Completes (.rsRecordWrite pages retries fails badErase) s [] fun _ => True) ∧
    (s.pwr.pd1Up = true → r.op = true → r.ready = true → cellWf {} r.sectors = true →
      let need := (16 + q.data.length + 63) / 64
      let head := s.sector r.head
      let roomy : Prop := head.st = .service ∧ head.used + need ≤ 63
      let write : Prop := r.compact = none ∧ r.queue = q :: qs
      (r.compact = none → r.queue = [] → Completes (.rsRecordWrite pages retries fails badErase) s [.rs] fun t =>
        t.rs = { r with op := false }) ∧
      (write → r.ro = true → Completes (.rsRecordWrite pages retries fails badErase) s [.sc, .rs] fun t =>
        t.rs.op = false ∧ t.rs.queue = qs ∧ t.rs.versions = r.versions ∧ t.rs.cntRefused = satInc r.cntRefused ∧ bit t.rs.flag 3 = true) ∧
      (write → r.ro = false → roomy →
        Completes (.rsRecordWrite pages retries 0 badErase) s [.pm, .rs] fun t =>
          t.rs.op = false ∧ t.rs.queue = qs ∧ (t.sector r.head).used = head.used + need ∧ t.rs.head = r.head ∧
          (2 ≤ s.blankSectors.length → t.rs.compact = none) ∧
          (s.blankSectors.length < 2 → ∀ k, t.rs.compact = some k → k < 64 ∧ k ≠ r.head ∧ (s.sector k).st = .service ∧
            (s.sector k).used ≠ 0 ∧ ∀ j < 64, j ≠ r.head → (s.sector j).st = .service → (s.sector j).used ≠ 0 →
              t.currentPages k < t.currentPages j ∨
                t.currentPages k = t.currentPages j ∧ (s.sector k).cycles ≤ (s.sector j).cycles) ∧
          (∃ v, t.rs.versions = r.versions ++ [v] ∧ v.type = q.type ∧ v.index = q.index ∧ v.data = q.data ∧ v.pages = need ∧
            v.sector = r.head ∧ v.committed = true ∧
            ∀ x ∈ r.versions, x.type = q.type → x.index = q.index → x.seq.toNat < 2 ^ 32 - 1 →
              (∀ y ∈ r.versions, y.type = q.type → y.index = q.index → y.seq.toNat ≤ x.seq.toNat) → v.seq = x.seq + 1) ∧
          (retries = 0 → OnlyChanges [.rs] s t ∧ t.rs.flag = r.flag) ∧
          (retries ≠ 0 → bit t.rs.flag 0 = true ∧ t.rs.retries = satOf 16 (r.retries.toNat + retries) ∧
            t.rs.retryPages = satOf 16 (r.retryPages.toNat + pages))) ∧
      (write → r.ro = false → roomy → s.spareSectors ≠ [] →
        Completes (.rsRecordWrite pages 0 1 false) s [.sc, .rs] fun t =>
          t.rs.queue = qs ∧ (t.sector r.head).st = .retired ∧ t.rs.lastRetired = .ofNat 6 r.head ∧ bit t.rs.flag 1 = true ∧ t.rs.ro = false) ∧
      (write → r.ro = false → roomy → s.spareSectors = [] →
        Completes (.rsRecordWrite pages 0 1 false) s [.sc, .rs] fun t =>
          t.rs.queue = qs ∧ t.rs.ro = true ∧ t.rs.versions = r.versions ∧ bit t.rs.flag 2 = true ∧ bit t.rs.flag 3 = true) ∧
      -- the compaction of sector k
      (r.compact = some k → s.currentIn k = x :: xs → r.ro = false → head.st = .service → head.used + (16 + x.data.length + 63) / 64 ≤ 63 →
        Completes (.rsRecordWrite 0 0 0 badErase) s [.rs] fun t =>
          t.rs.op = false ∧ t.rs.compact = some k ∧ t.rs.queue = r.queue ∧ t.rs.head = r.head ∧
          (t.sector r.head).used = head.used + (16 + x.data.length + 63) / 64 ∧
          ∃ v, t.rs.versions = r.versions ++ [v] ∧ v.type = x.type ∧ v.index = x.index ∧ v.seq = x.seq ∧ v.data = x.data ∧
            v.sector = r.head ∧ v.committed = true) ∧
      (r.compact = some k → s.currentIn k = [] → Completes (.rsRecordWrite pages retries fails false) s [.rs] fun t =>
          t.rs.op = false ∧ t.rs.compact = none ∧ t.rs.queue = r.queue ∧ t.rs.ro = r.ro ∧
          t.sector k = { s.sector k with used := 0, cycles := (s.sector k).cycles + 1 } ∧
          (y ∈ t.rs.versions ↔ y ∈ r.versions ∧ y.sector ≠ k)))

/-! ## SMBus, the pack service and the management serial ports (18) -/

/-- A client transfer is started or refused and ends with its result; a bus check after 5 µs, a bus clear, STUCK and its
repeats follow Table 18.3; the pack service starts a read, stores its first result, retries after 20 ms, ends without a pack
after three attempts, waits, and polls; the serial ports move, release and discard frames (18 R671–R675, R677–R679, R682–R684,
R687–R689, R691, R694; 19 R701). In reset none of these commands does anything. -/
def Obligations.SerialCommands : Prop :=
  ∀ (s : State) (k : Fin 2) (c : Fin 256) (w : Word) (code : Fin 16) (data : List Byte) (sda : Bool) (y : SmbXfer)
    (u : PackStep) (m : Fin 2) (b : Byte) (l : Fin 4) (rest : List Byte),
    let x := s.smbc k
    let p := s.pack
    let others (t : State) : Prop := ∀ j, j ≠ k → t.smbc j = s.smbc j
    let flagged (t : State) (n : Nat) : Prop := bit (t.smbc k).flag n = true
    let posted (t : State) (to_ : Fin 256) (type : Nat) : Prop := ∃ q ∈ t.sc.posted, q.client = to_ ∧ q.ev.w0.toNat % 256 = type
    let checks (t : State) : Prop := (t.smbc k).check = true ∧ (t.smbc k).checkAt = s.time ∧ (t.smbc k).st = .busy
    (s.pwr.pd1Up = false → ∀ cmd ∈ [.smbXferWrite k c w, .smbTransferEnd k code data, .smbClockLowTimeout k, .smbCmdAbort k,
      .smbEnable k, .smbStuckRetry k, .smbCmdClrstuck k, .smbBusCheck k sda, .smbBusClear k sda, .packSwapRead, .smbPcmdReread,
      .packPoll, .packRetry, .packAuthWait], Completes cmd s [] fun _ => True) ∧
    (s.pwr.pllLock = false → ∀ cmd ∈ [Instr.mspRxByte m b sda, .mspRxFrame m, .mspTxByte m sda], Completes cmd s [] fun _ => True) ∧
    (s.pwr.pd1Up = true →
    -- client transfers
    (let refused : Prop := x.st ≠ .idle ∨ x.fenced = true ∨ (k = 0 ∧ bit p.cfg 0 = true) ∨ (fld w 27 23 ≠ 0 ∧ fld w 31 29 ≠ 6);
      (refused → Completes (.smbXferWrite k c w) s [.smb] fun t => others t ∧ t.smbc k = { x with flag := x.flag ||| 0x100 }) ∧
      (¬ refused → Completes (.smbXferWrite k c w) s [.smb] fun t => others t ∧
        t.smbc k = { x with st := .busy, owner := c, xfer := some { word := w, owner := c, pack := false } })) ∧
    (x.xfer = none → ∀ cmd ∈ [Instr.smbTransferEnd k code data, .smbClockLowTimeout k, .smbCmdAbort k],
      Completes cmd s [] fun _ => True) ∧
    (code ∉ [(1 : Fin 16), 2, 3, 5, 6, 8] → Completes (.smbTransferEnd k code data) s [] fun _ => True) ∧
    (x.xfer = some y → y.pack = false →
      (Completes (.smbTransferEnd k 1 data) s [.smb] fun t => others t ∧ (t.smbc k).st = .idle ∧ (t.smbc k).xfer = none ∧
        (t.smbc k).code = 1 ∧ (t.smbc k).bytes.toNat = min 32 data.length ∧ (t.smbc k).flag = x.flag ||| 1 ∧
        ∀ i : Fin 32, at_ (t.smbc k).data i = if i.val < data.length then data.getD i.val 0 else at_ x.data i) ∧
      (code = 2 ∨ code = 3 → Completes (.smbTransferEnd k code data) s [.smb] fun t => others t ∧ (t.smbc k).st = .idle ∧
        (t.smbc k).xfer = none ∧ (t.smbc k).code.toNat = code.val ∧ (t.smbc k).flag = x.flag ||| 3 ∧
        (t.smbc k).nacks = satInc x.nacks ∧ (t.smbc k).data = x.data) ∧
      (code = 5 ∨ code = 8 → Completes (.smbTransferEnd k code data) s [.smb] fun t => others t ∧ (t.smbc k).st = .idle ∧
        (t.smbc k).xfer = none ∧ (t.smbc k).code.toNat = code.val ∧ flagged t 0 ∧ (flagged t 3 ↔ bit x.flag 3 = true ∨ code = 5)) ∧
      (Completes (.smbTransferEnd k 6 data) s [.smb] fun t => others t ∧ (t.smbc k).code = 6 ∧ checks t ∧
        (t.smbc k).xfer = none ∧ flagged t 0 ∧ flagged t 4) ∧
      (Completes (.smbClockLowTimeout k) s [.sc, .smb] fun t => others t ∧ (t.smbc k).code = 4 ∧ checks t ∧
        (t.smbc k).xfer = none ∧ (t.smbc k).tmo = satInc x.tmo ∧ flagged t 0 ∧ flagged t 2 ∧ posted t y.owner 0x95 ∧ posted t 0 0x95) ∧
      (Completes (.smbCmdAbort k) s [.smb] fun t => others t ∧ (t.smbc k).code = 7 ∧ checks t ∧
        (t.smbc k).xfer = none ∧ flagged t 0)) ∧
    -- bus check and bus clear
    (x.en = true → Completes (.smbEnable k) s [] fun _ => True) ∧
    (x.en = false → x.fenced = false ∨ x.fails ≠ 0 → Completes (.smbEnable k) s [.smb] fun t => others t ∧
      t.smbc k = { x with en := true, st := .busy, check := true, checkAt := s.time, xfer := none }) ∧
    (x.en = false → x.fenced = true → x.fails = 0 → Completes (.smbEnable k) s [.smb] fun t => others t ∧
      t.smbc k = { x with en := true, st := .busy }) ∧
    (x.st = .stuck → x.check = false → x.checkAt + 200000000 ≤ s.time → Completes (.smbStuckRetry k) s [.smb] fun t =>
      others t ∧ t.smbc k = { x with check := true, checkAt := s.time }) ∧
    (x.st ≠ .stuck ∨ x.check = true ∨ s.time < x.checkAt + 200000000 → Completes (.smbStuckRetry k) s [] fun _ => True) ∧
    (x.st = .stuck ∨ x.st = .lasting → x.check = false → Completes (.smbCmdClrstuck k) s [.smb] fun t => others t ∧
      t.smbc k = { x with check := true, checkAt := s.time }) ∧
    (x.st = .stuck ∨ x.st = .lasting → x.check = true → Completes (.smbCmdClrstuck k) s [] fun _ => True) ∧
    (x.st ≠ .stuck → x.st ≠ .lasting → Completes (.smbCmdClrstuck k) s [.smb] fun t => others t ∧
      t.smbc k = { x with flag := x.flag ||| 0x100 }) ∧
    (x.check = false ∨ s.time < x.checkAt + 1000 → Completes (.smbBusCheck k sda) s [] fun _ => True) ∧
    (x.check = true → x.checkAt + 1000 ≤ s.time →
      (Completes (.smbBusCheck k false) s [.smb] fun t => others t ∧
        t.smbc k = { x with check := false, sda := false, st := .clear, clears := satInc x.clears }) ∧
      (x.fenced = false → k = 1 ∨ p.step = none → Completes (.smbBusCheck k true) s [.smb] fun t => others t ∧
        t.smbc k = { x with check := false, sda := true, st := .idle }) ∧
      (x.fenced = true → k = 1 → Completes (.smbBusCheck k true) s [.smb, .flt] fun t => others t ∧
        t.smbc k = { x with check := false, sda := true, st := .idle, fenced := false, fails := 0 })) ∧
    (x.st ≠ .clear ∨ s.time < x.checkAt + (if sda then 5000 else 19000) → Completes (.smbBusClear k sda) s [] fun _ => True) ∧
    (x.st = .clear → x.checkAt + 5000 ≤ s.time →
      (x.fenced = false → k = 1 ∨ p.step = none → Completes (.smbBusClear k true) s [.smb] fun t => others t ∧
        t.smbc k = { x with sda := true, st := .idle, check := false, flag := x.flag ||| 0x40 }) ∧
      (x.fenced = true → k = 1 → Completes (.smbBusClear k true) s [.smb, .flt] fun t => others t ∧ (t.smbc k).fenced = false ∧
        (t.smbc k).fails = 0 ∧ (t.smbc k).st = .idle ∧ flagged t 6) ∧
      (x.checkAt + 19000 ≤ s.time → Completes (.smbBusClear k false) s [.sc, .smb, .pack, .reports] fun t => others t ∧ (t.smbc k).fenced = true ∧
        flagged t 5 ∧ posted t 0 0x95 ∧ (∃ r ∈ t.reports, r.mech = 0x23 ∧ r.kind = 10 ∧ r.index.toNat = k.val ∧ r.at_ = s.time) ∧
        (x.fails = 0 → (t.smbc k).st = .stuck ∧ (t.smbc k).fails = 1 ∧ (t.smbc k).firstStuck = s.time) ∧
        (x.fails = 1 → (t.smbc k).st = .stuck ∧ (t.smbc k).fails = 2) ∧
        (x.fails = 2 → s.time ≤ x.firstStuck + 2000000000 →
          (t.smbc k).st = .lasting ∧ (t.smbc k).fails = 3 ∧ flagged t 7) ∧
        (k = 0 → bit p.cfg 0 = true → p.st ≠ .busFault → t.pack.st = .busFault ∧ t.pack.auth = 2 ∧ t.pack.reason = 4))) ∧
    -- the pack service
    (bit p.cfg 0 = false → ∀ cmd ∈ [Instr.packSwapRead, .smbPcmdReread, .packPoll], Completes cmd s [] fun _ => True) ∧
    (bit p.cfg 0 = true → ∀ cmd ∈ [Instr.packSwapRead, .smbPcmdReread],
      (s.flt.supReset = true ∨ (∃ z, (s.smbc 0).xfer = some z ∧ z.pack = true) → Completes cmd s [.pack] fun t => t.pack = { p with again := true }) ∧
      (s.flt.supReset = false → (s.smbc 0).xfer = none → (s.smbc 0).st = .idle → (s.smbc 0).fenced = false →
       Completes cmd s [.smb, .pack] fun t =>
        t.pack.swaps = p.swaps + 1 ∧ t.pack.st = .reading ∧ t.pack.auth = 0 ∧ t.pack.step = some (.swap 0) ∧
        (t.smbc 0).st = .busy ∧ ∃ z, (t.smbc 0).xfer = some z ∧ z.pack = true ∧ z.word = 0xB00B1C00)) ∧
    (let retried : Prop := p.wait = .retry ∧ p.waitAt + 4000000 ≤ s.time
     let waited : Prop := p.wait = .auth ∧ p.waitAt + 200000 * fld p.cfg 31 24 ≤ s.time
     (¬ retried → Completes .packRetry s [] fun _ => True) ∧
     (¬ waited → Completes .packAuthWait s [] fun _ => True) ∧
     (p.step = some u → s.flt.supReset = false → (s.smbc 0).st = .idle → (s.smbc 0).fenced = false →
      ∀ cmd, (cmd = .packRetry ∧ retried) ∨ (cmd = .packAuthWait ∧ waited) →
        Completes cmd s [.smb, .pack] fun t => t.pack.step = p.step ∧ (t.smbc 0).st = .busy ∧
          (t.smbc 0).xfer = some { word := PackStep.xfer p u, owner := 0, pack := true })) ∧
    (p.step ≠ none ∨ (p.st ≠ .ready ∧ p.st ≠ .noPack) ∨ s.flt.supReset = true ∨ s.time < p.pollAt + 200000000 * fld p.cfg 23 16 →
      Completes .packPoll s [] fun _ => True) ∧
    (bit p.cfg 0 = true → p.step = none → s.flt.supReset = false → p.pollAt + 200000000 * fld p.cfg 23 16 ≤ s.time → (s.smbc 0).st = .idle → (s.smbc 0).fenced = false →
      (p.st = .ready → Completes .packPoll s [.smb, .pack] fun t => t.pack.step = some (.poll 0) ∧ t.pack.pollAt = s.time ∧
        (t.smbc 0).xfer = some { word := 0xB00B1C00, owner := 0, pack := true }) ∧
      (p.st = .noPack → Completes .packPoll s [.smb, .pack] fun t => t.pack.step = some (.swap 0) ∧ t.pack.swaps = p.swaps + 1 ∧ t.pack.pollAt = s.time)) ∧
    (k = 0 → x.xfer = some y → y.pack = true → p.step = some (.swap 0) → p.again = false → s.flt.supReset = false →
      (x.fenced = false → Completes (.smbTransferEnd 0 1 data) s [.smb, .pack] fun t =>
        t.pack.serial = (bytesWord (data.take 2)).setWidth 16 ∧ t.pack.step = some (.swap 1) ∧
        (t.smbc 0).xfer = some { word := 0xB00B1B00, owner := 0, pack := true }) ∧
      (p.attempts < 2 → Completes (.smbTransferEnd 0 2 data) s [.smb, .pack] fun t =>
        t.pack = { p with wait := .retry, waitAt := s.time, attempts := p.attempts + 1 }) ∧
      (2 ≤ p.attempts → Completes (.smbTransferEnd 0 2 data) s [.sc, .smb, .pack] fun t =>
        t.pack.st = .noPack ∧ t.pack.auth = 2 ∧ t.pack.reason = 1 ∧ t.pack.step = none ∧ flagged t 9 ∧ posted t 0 0x94))) ∧
    -- the serial ports
    (s.pwr.pllLock = true →
     let z := s.mspm m
     let apart (t : State) : Prop := ∀ j, j ≠ m → t.mspm j = s.mspm j
     let rts (n : Nat) : Bool := if z.flow = false ∨ 192 ≤ n then true else if n ≤ 64 then false else z.rts
     let put (t : State) (bs : List Byte) : Prop := (t.mspm m).rx = bs ∧ (t.mspm m).rts = rts bs.length
     let before := z.rx.take (z.rx.length - z.rxHeld)
     let dropped (t : State) (n : Nat) : Prop := bit (t.mspm m).flag n = true ∧ (t.mspm m).rxDrops = satInc z.rxDrops ∧
       (t.mspm m).rxHeld = 0
     (z.en = false → Completes (.mspRxByte m b sda) s [] (fun _ => True) ∧ Completes (.mspRxFrame m) s [] (fun _ => True) ∧
       Completes (.mspTxByte m sda) s [.msp] fun t => apart t ∧ t.mspm m = { z with cts := sda }) ∧
     let binds (l : Fin 4) : Prop := (s.link l).mdcsel.toNat = m.val + 1 ∧ ∀ j, j < l → (s.link j).mdcsel.toNat ≠ m.val + 1
     let open_ : Prop := ∃ l, binds l ∧ (s.link l).en = true ∧ (s.link l).fenced = false
     (z.en = true → z.rxBad = true →
       (Completes (.mspRxByte m b true) s [] fun _ => True) ∧ (b ≠ 0x7E → Completes (.mspRxByte m b sda) s [] fun _ => True) ∧
       ∀ cmd ∈ [Instr.mspRxByte m 0x7E false, .mspRxFrame m], Completes cmd s [.msp] fun t => apart t ∧
         (t.mspm m).rxBad = false ∧ (t.mspm m).flag = z.flag ∧ (open_ → z.rx.length < 256 → put t (z.rx ++ [0x7E])) ∧
         (¬ open_ ∨ 256 ≤ z.rx.length → put t z.rx)) ∧
     (z.en = true → z.rxBad = false →
       (b ≠ 0x7E → z.rx.length < 256 → z.rxHeld < 134 → Completes (.mspRxByte m b false) s [.msp] fun t => apart t ∧
         put t (z.rx ++ [b]) ∧ (t.mspm m).rxHeld = z.rxHeld + 1 ∧ (t.mspm m).flag = z.flag) ∧
       (b ≠ 0x7E → z.rx.length < 256 → 134 ≤ z.rxHeld → Completes (.mspRxByte m b false) s [.msp] fun t => apart t ∧
         put t before ∧ dropped t 2 ∧ (t.mspm m).rxBad = true) ∧
       (b ≠ 0x7E → 256 ≤ z.rx.length → Completes (.mspRxByte m b false) s [.msp] fun t => apart t ∧
         put t before ∧ dropped t 1 ∧ (t.mspm m).rxBad = true) ∧
       (Completes (.mspRxByte m b true) s [.msp] fun t => apart t ∧
         put t before ∧ dropped t 3 ∧ (t.mspm m).rxBad = true) ∧
       (z.rxHeld = 0 → Completes (.mspRxByte m 0x7E false) s [.msp] fun t => apart t ∧ (t.mspm m).flag = z.flag ∧
         (open_ → z.rx.length < 256 → put t (z.rx ++ [0x7E])) ∧ (¬ open_ ∨ 256 ≤ z.rx.length → put t z.rx)) ∧
       (z.rxHeld = 0 → Completes (.mspRxFrame m) s [] fun _ => True) ∧
       (0 < z.rxHeld → ∀ cmd ∈ [Instr.mspRxByte m 0x7E false, .mspRxFrame m],
         ((∀ j : Fin 4, (s.link j).mdcsel.toNat ≠ m.val + 1) → Completes cmd s [.msp] fun t => apart t ∧
           put t before ∧ dropped t 4) ∧
         (binds l →
           ((s.link l).fenced = true ∨ (s.link l).en = false → Completes cmd s [.msp] fun t => apart t ∧ put t before ∧ dropped t 1) ∧
           ((s.link l).fenced = false → (s.link l).en = true → 256 ≤ z.rx.length → z.rxHeld ≤ z.rx.length → Completes cmd s [.msp] fun t =>
             apart t ∧ dropped t 1 ∧ (before.length < 256 → put t (before ++ [0x7E]))) ∧
           ((s.link l).fenced = false → (s.link l).en = true → z.rx.length < 256 →
             Completes cmd s [.msp] fun t => apart t ∧ put t (z.rx ++ [0x7E]) ∧ (t.mspm m).rxHeld = 0 ∧
               bit (t.mspm m).flag 0 = true ∧ (t.mspm m).rxFrames = satInc z.rxFrames)))) ∧
     (z.en = true → z.flow = true → Completes (.mspTxByte m true) s [.msp] fun t => apart t ∧ t.mspm m = { z with cts := true }) ∧
     (z.en = true → s.time < z.txFree ∨ z.tx = [] → Completes (.mspTxByte m sda) s [.msp] fun t => apart t ∧ t.mspm m = { z with cts := sda }) ∧
     (z.en = true → z.txFree ≤ s.time → z.tx = b :: rest →
       let next := s.time + 10 * (z.div.toNat + 1)
       (b ≠ 0x7E → Completes (.mspTxByte m false) s [.msp] fun t => apart t ∧
         t.mspm m = { z with cts := false, tx := rest, txFree := next, txHeld := z.txHeld + 1 }) ∧
       (b = 0x7E → z.txHeld = 0 → Completes (.mspTxByte m false) s [.msp] fun t => apart t ∧
         t.mspm m = { z with cts := false, tx := rest, txFree := next }) ∧
       (b = 0x7E → 0 < z.txHeld → Completes (.mspTxByte m false) s [.msp] fun t => apart t ∧
         t.mspm m = { z with cts := false, tx := rest, txFree := next, txHeld := 0, flag := z.flag ||| 0x20, txFrames := satInc z.txFrames })))

/-! ## Faults, fencing and recovery (19) -/

/-- A report is recorded, classed and acted on by Table 19.1, a fence set goes together, the Nth record within WIN is LASTING;
the census forces Clearing, the supervisor restarts after 1 µs, a silent slot is reported; what a clean slot or READMIT lifts
comes back at the end of its cycle, unless the unit has a record then; FENCE, CLRLOG and LOGFULL do what R714 and R715 say (19
R700–R704, R706, R709–R712, R714–R716, R718, R719). In reset none of these commands does anything. -/
def Obligations.FaultBlockCommands : Prop :=
  ∀ (s : State) (r : Report) (b : Fin 8) (g : Fin 8) (n : Fin 64) (kind : Fin 16) (index : Fin 256) (ans : Option Bool)
    (unit : FltUnit),
    let f := s.flt
    let entry : Nat := if f.held = 0 then 0 else (f.newest.toNat + 1) % 16
    let flagged (t : State) (i : Nat) : Prop := bit t.flt.flag i = true
    let posted (t : State) (type : Nat) : Prop := ∃ q ∈ t.sc.posted, q.client = 0 ∧ q.ev.w0.toNat % 256 = type
    -- the record: mechanism, unit, class and SET field
    let logged (t : State) (mech kind cls index set : Nat) : Prop :=
      let x := at_ t.flt.log (Fin.ofNat 16 entry)
      x.w0 = lo32 s.tb ∧ x.w2 = s.canopy.rtcSec ∧ x.w1.toNat = mech * 2 ^ 24 + kind * 2 ^ 20 + cls * 2 ^ 18 + index ∧
        fld x.w3 31 24 = set ∧ t.flt.newest.toNat = entry ∧ t.flt.unread = satInc f.unread ∧ flagged t 0 ∧ posted t 0xA8
    let named : Prop :=
      (kind = 1 ∧ index.val < 64) ∨ ((kind = 2 ∨ kind = 5 ∨ kind = 8) ∧ index.val < 8) ∨ (kind = 3 ∧ index.val < 3) ∨
      (kind = 4 ∧ index = 0) ∨ ((kind = 6 ∨ kind = 10) ∧ index.val < 2) ∨ (kind = 7 ∧ index.val < 4) ∨
      (kind = 9 ∧ index ≠ 0 ∧ index ≠ 255)
    let u := 256 * kind.val + index.val
    let bankUnit := 256 * 8 + b.val
    let slot := f.slot.toNat
    let up : Prop := s.pwr.pd1Up = true
    let record (x : Report) : Prop := s.reports = [x] ∧ x.at_ < s.time
    (¬ up → ∀ c ∈ [.fltRecord none, .fltRecord (some (.groveCompare g)), .censusMismatch, .supRestart, .fltCmdFence kind index,
      .fltCmdReadmit kind index, .fltCmdClrlog, .fltLogfullClear, .rollCallSlot ans], Completes c s [] fun _ => True) ∧
    -- records
    ((∀ x ∈ s.reports, s.time ≤ x.at_) → Completes (.fltRecord none) s [] fun _ => True) ∧
    (up → record r → r.mech ∈ [(0x0C : BitVec 8), 0x12, 0x13, 0x16] → Completes (.fltRecord none) s [.sc, .flt, .reports] fun t =>
      t.reports = [] ∧ t.flt.units = f.units ∧ logged t r.mech.toNat r.kind.toNat 0 r.index.toNat 0) ∧
    (s.upd.window = false → s.supStarted = true → 2 ≤ f.n.toNat →
      (f.units = [] → record r → r.mech = 0x0A → r.kind = 8 → r.index.toNat = b.val →
        Completes (.fltRecord none) s [.sc, .mem, .flt, .reports] fun t => t.reports = [] ∧ (t.bank b).st = .fenced ∧
          (∀ c, c ≠ b → t.bank c = s.bank c) ∧ logged t 0x0A 8 1 b.val 0 ∧ flagged t 1 ∧
          (t.fltUnit bankUnit).st = .transient ∧ (t.fltUnit bankUnit).targets = [bankUnit]) ∧
      (f.units = [(bankUnit, unit)] → record r → r.mech = 0x0A → r.kind = 8 → r.index.toNat = b.val →
        unit.st = .inService → unit.targets = [] →
        (∃ x, unit.times[f.n.toNat - 2]? = some x ∧ s.time - x ≤ f.win.toNat * 200000) →
        Completes (.fltRecord none) s [.sc, .mem, .flt, .upd, .rs, .reports] fun t => (t.bank b).st = .fenced ∧
          logged t 0x0A 8 2 b.val 0 ∧ flagged t 2 ∧ (t.fltUnit bankUnit).st = .lasting ∧
          ∃ q ∈ t.rs.queue, q.type = 4 ∧ q.index = 0) ∧
      (f.units = [] → Completes (.fltRecord (some (.groveCompare g))) s [.chans, .groves, .tt, .sc, .flt] fun t =>
        let reached : BitVec 8 := (if bit f.set0 g.val then f.set0 else 0) ||| (if bit f.set1 g.val then f.set1 else 0)
        logged t 0x07 2 1 g.val reached.toNat ∧
        (State.groveOf n = g ∨ bit reached (State.groveOf n).val = true →
          (t.chan n).fenced = true ∧ ((s.chan n).fenced = false → (t.chan n).c.run = false) ∧ bit (t.chan n).o.clr 4 = true ∧ (t.chan n).o.inClr = true) ∧
        (State.groveOf n ≠ g → bit reached (State.groveOf n).val = false → (t.chan n).fenced = (s.chan n).fenced)) ∧
      (f.units = [] → Completes (.fltRecord (some .supervisor)) s [.sc, .flt, .rs] fun t =>
        logged t 0x05 11 1 0 0 ∧ t.flt.supReset = true ∧ t.flt.supAt = s.time ∧ t.flt.st = f.st) ∧
      (f.units = [] → s.me.st ≠ .fenced → ∃ t, exec .censusMismatch s = .next t ∧ t.flt.st = .census ∧ flagged t 5 ∧
        logged t 0x18 0 1 0 0 ∧ t.me.st = .fenced ∧ t.me.fcause = 5 ∧ (t.chan n).o.inClr = true ∧
        Keeps [.boot, .xf, .otp, .pwr, .canopy, .tbs, .intc, .hp, .svc, .pm, .pins, .rdata, .time, .pending] s t)) ∧
    -- the supervisor's restart
    (f.supReset = false ∨ (s.fltUnit (256 * 11)).st = .lasting ∨ s.time < f.supAt + 200 →
      Completes .supRestart s [] fun _ => True) ∧
    (up → f.supReset = true → (s.fltUnit (256 * 11)).st ≠ .lasting → f.supAt + 200 ≤ s.time → f.steps = [] →
      s.pack.again = false → s.pack.held = none → s.pack.step = none → s.upd.waits = [] → s.upd.camp = none → s.upd.lasting = false →
      Completes .supRestart s [.flt] fun t => t.flt.supReset = false ∧ t.flt.log = f.log ∧ t.flt.st = f.st ∧
        (t.fltUnit (256 * 11)).st = .inService) ∧
    -- commands
    (up → named → Completes (.fltCmdFence kind index) s [.reports] fun t => t.reports =
      s.reports ++ [{ mech := 0x24, kind := .ofNat 4 kind.val, index := .ofNat 8 index.val, detail := 0, at_ := s.time }]) ∧
    (up → ¬ named → ∀ c ∈ [Instr.fltCmdFence kind index, .fltCmdReadmit kind index],
      Completes c s [.flt] fun t => t.flt = { f with flag := f.flag ||| 0x80 }) ∧
    (up → named → Completes (.fltCmdReadmit kind index) s [] fun t => t.cyc.lifts = s.cyc.lifts ++ [(u, true)]) ∧
    (up → Completes .fltCmdClrlog s [.flt] fun t =>
      t.flt = { f with log := .replicate 16 {}, held := 0, newest := 0, unstored := false }) ∧
    (up → bit (s.freshBits 0xC81C) 6 = false → Completes .fltLogfullClear s [.flt] fun t =>
      t.flt = { f with flag := f.flag &&& 0xBF, unread := 0 }) ∧
    (bit (s.freshBits 0xC81C) 6 = true → Completes .fltLogfullClear s [] fun _ => True) ∧
    -- the lifts at the end of the cycle
    (∀ cmd : Bool, s.cyc.lifts = [(bankUnit, cmd)] →
      let t := s.settleLifts
      let recorded : Prop := bankUnit ∈ s.cyc.recorded ∨
        ∃ q ∈ s.reports, 256 * q.kind.toNat + q.index.toNat = bankUnit ∧ q.at_ < s.time
      (recorded → cmd = true → OnlyChanges [.flt] s t ∧ t.flt = { f with flag := f.flag ||| 0x80 }) ∧
      (recorded → cmd = false → OnlyChanges [] s t) ∧
      (¬ recorded → (∀ x ∈ f.units, x.2.st ≠ .transient ∧ x.2.st ≠ .lasting) → OnlyChanges [] s t) ∧
      (¬ recorded → f.units = [(bankUnit, unit)] → unit.st = .lasting ∨ unit.st = .transient → unit.targets = [bankUnit] →
        f.supReset = false → f.steps = [] → (s.bank b).st = .fenced → OnlyChanges [.sc, .mem, .flt] s t ∧
          (t.bank b).st = .rdmTest ∧ (∀ c, c ≠ b → t.bank c = s.bank c) ∧ (t.fltUnit bankUnit).st = .returning ∧
          (t.fltUnit bankUnit).targets = [] ∧ flagged t 4 ∧ posted t 0xA9)) ∧
    -- Roll Call
    (f.rcen = false ∨ s.supStarted = false ∨ s.time < f.slotAt + 62500 → Completes (.rollCallSlot ans) s [] fun _ => True) ∧
    (f.rcen = true → s.supStarted = true → s.pwr.pdUp = true → f.supReset = false → slot < 22 → f.slotAt + 62500 ≤ s.time →
      let begins := if f.slotAt + 125000 ≤ s.time then s.time else f.slotAt + 62500
      (Completes (.rollCallSlot none) s [.flt, .reports] fun t => t.flt.slot = f.slot + 1 ∧ t.flt.slotAt = begins ∧ flagged t 3 ∧
        t.flt.silent = f.silent ||| .ofNat 32 (2 ^ slot) ∧ t.cyc.lifts = s.cyc.lifts ∧
        ∃ q : Report, t.reports = s.reports ++ [q] ∧ q.mech = 0x19 ∧ q.detail.toNat = slot ∧ q.at_ = s.time) ∧
      (∀ clean, Completes (.rollCallSlot (some clean)) s [.flt] fun t =>
        t.flt = { f with slot := f.slot + 1, slotAt := begins } ∧
        (clean = false ∨ f.units = [] → t.cyc.lifts = s.cyc.lifts) ∧
        (clean = true → slot = 8 + b.val → f.units = [(bankUnit, unit)] → unit.st = .transient → bit f.auto 7 = true →
          (unit.last + f.hold.toNat * 2000000 ≤ f.slotAt → t.cyc.lifts = s.cyc.lifts ++ [(bankUnit, false)]) ∧
          (f.slotAt < unit.last + f.hold.toNat * 2000000 → t.cyc.lifts = s.cyc.lifts))))

/-! ## The service port (20) -/

/-- Frames are served or dropped, answered with their status, TYPE + 0x80 and TAG; HELLO gives a fresh challenge and PASS
consumes it; an accepted pass writes record 255 and opens the session that CLOSE, DURATION or 60 s of silence end; READ and
WRITE act as client 255; a keyed RESET resets PD1–PD7 with cause SVC 1 ms after its response (20 R725, R726, R728–R733, R758,
R764; 14 R551). In reset none of these commands does anything. -/
def Obligations.ServicePortCommands : Prop :=
  ∀ (s : State) (tag : Byte) (p : List Byte) (b : BadFrame) (ty : Byte) (w : Word) (also : Fin 9),
    TablesCanonical s →
    let v := s.svc
    let r255 := s.client 255
    let serves : Prop := s.svcServes = true
    let firmware : Prop := s.inRom = false
    let answer (code : Nat) (rest : List Byte) : List Byte := BitVec.ofNat 8 code :: rest
    -- what an answered frame leaves in the port's record beside its own effect
    let served (x : Svc) (type : Nat) (body : List Byte) : Svc :=
      { x with frames := satInc x.frames, lastAt := s.time, resp := svcFrame type tag body }
    let posted (t : State) (info : Nat) : Prop := ∃ q ∈ t.sc.posted, q.client = 0 ∧ q.ev.w0.toNat % 2 ^ 24 = info * 256 + 0xB3
    let up : Prop := s.pwr.pd1Up = true
    let reason := s.passReason p v.chal
    let a := field p 0 4
    let count := field p 6 2
    -- a session ends
    let ended (t : State) (why : Nat) : Prop :=
      t.svc.open_ = false ∧ t.svc.hold = .replicate 4 0 ∧ t.svc.flag = v.flag ||| 4 ∧ t.svc.issuer = false ∧ t.svc.window = false ∧
      t.upd = { s.upd with owner := if s.upd.owner = some 255 then none else s.upd.owner } ∧
      (firmware → posted t (2 * why) ∧ (t.client 255).bind = 0 ∧ (t.client 255).rights = 0 ∧ (t.client 255).grant = 0 ∧
        (t.client 255).quota = 0 ∧ (t.client 255).rate = 0 ∧
        t.sc.cuts = s.sc.cuts ++ [{ client := 255, cause := 0, grant := State.ownedMask r255 }]) ∧
      (s.inRom = true → t.sc = s.sc)
    -- not served
    (¬ serves → ∀ cmd ∈ [Instr.svcHello tag, .svcPass tag p, .svcRead tag p, .svcWrite tag p, .svcClose tag p, .svcReset tag p,
        .svcBadFrame b], Completes cmd s [] fun _ => True) ∧
    (¬ up → ∀ cmd ∈ [Instr.svcResetExec also, .svcByteTimeout, .svcSessionExpire, .svcIdleTimeout],
      Completes cmd s [] fun _ => True) ∧
    -- HELLO
    (serves → Completes (.svcHello tag) s [.svc, .freeCtr] fun t =>
      let ch := t.svc.chal.getD []
      ch.length = 16 ∧ t.svc = served { v with chal := some ch } 1
        ([0, if s.boot.st = .noBundle then 0 else 1, 0x40, 0x06, 0xB0, 0] ++ leBytes 8 s.otp.unitId.toNat ++ wordBytes s.bootWord ++
          [s.boot.errC1, s.boot.errC0, s.boot.errB, s.boot.errA] ++ wordBytes s.boot.ver ++ ch)) ∧
    -- PASS
    (serves → v.open_ = true → Completes (.svcPass tag p) s [.svc] fun t => t.svc = served v 2 (answer 0x14 [0])) ∧
    (serves → v.open_ = false →
      (p.length ≠ 176 → Completes (.svcPass tag p) s [.svc] fun t => t.svc = served { v with chal := none } 2 (answer 0x11 [0])) ∧
      (p.length = 176 → reason ≠ 0 → reason ≠ 9 → Completes (.svcPass tag p) s [.svc] fun t =>
        t.svc = served { v with chal := none, flag := v.flag ||| 8 } 2 (answer 0x13 [BitVec.ofNat 8 reason])) ∧
      (p.length = 176 → reason = 9 → Completes (.svcPass tag p) s [.sc, .svc] fun t =>
        t.svc = served { v with chal := none, flag := v.flag ||| 8 } 2 (answer 0x13 [9]) ∧ t.sc.recs = s.sc.recs) ∧
      (p.length = 176 → reason = 0 → Completes (.svcPass tag p) s [.chans, .sc, .hl, .flt, .svc] fun t =>
        t.svc = served { v with chal := none, open_ := true, rom := s.inRom, flag := v.flag ||| 2,
                                issuer := (s.otp.fleetHash == 0 || sha256 (slice p 0x50 32) != s.otp.fleetHash),
                                window := decide (2 ≤ field p 0x10 2),
                                endAt := s.time + field p 0x12 2 * 60 * 200000000,
                                hold := Vector.ofFn fun i => BitVec.ofNat 32 (field p (0x40 + 4 * i.val) 4) } 2 (answer 0 [0]) ∧
        (s.inRom = true → t.sc = s.sc) ∧
        (firmware → posted t 1 ∧ (r255 = {} →
          (t.client 255).bind = 0xC0000000 ∧ (t.client 255).st = .active ∧ (t.client 255).rights.toNat = field p 0x1C 4 ∧
          (t.client 255).grant.toNat = field p 0x20 8 ∧ (t.client 255).quota.toNat = field p 0x28 4 ∧
          (t.client 255).rate.toNat = field p 0x2C 4)))) ∧
    -- READ and WRITE: what stops a whole frame
    (serves → ∀ cmd ∈ [(Instr.svcRead tag p, 3, 8), (.svcWrite tag p, 4, 8 + 4 * count)],
      (v.open_ = false → Completes cmd.1 s [.svc] fun t => t.svc = served v cmd.2.1 (answer 0x10 [0, 0, 0])) ∧
      (v.open_ = true → p.length ≠ cmd.2.2 ∨ count < 1 ∨ 1024 < count →
        Completes cmd.1 s [.svc] fun t => t.svc = served v cmd.2.1 (answer 0x11 [0, 0, 0])) ∧
      (v.open_ = true → p.length = cmd.2.2 → 1 ≤ count → count ≤ 1024 → a < 2 ^ 20 → a % 4 = 0 → firmware →
        (r255.st = .fenced → Completes cmd.1 s [.svc] fun t => t.svc = served v cmd.2.1 (answer 5 [0, 0, 0])) ∧
        (r255.st ≠ .fenced → fld r255.rate 7 0 ≠ 0 → r255.tokens = 0 →
          Completes cmd.1 s [.svc] fun t => t.svc = served v cmd.2.1 (answer 6 [0, 0, 0])))) ∧
    -- one word read or written
    (serves → v.open_ = true → count = 1 → a < 2 ^ 20 → a % 4 = 0 → firmware → r255.st ≠ .fenced → fld r255.rate 7 0 = 0 →
      let p0 := s.nativeAddr a
      (p.length = 8 → isMemAddr p0 = false → ¬ (0x80000 ≤ p0 ∧ p0 < 0x88000) →
        (s.permits 255 p0 false 0 = true → s.regRead p0 = some (w, s) → s.isReg p0 = true →
          Completes (.svcRead tag p) s [.svc] fun t => t.svc = served v 3 ([0, 0, 1, 0] ++ wordBytes (s.heldBefore p0 w))) ∧
        (s.permits 255 p0 false 0 = false ∨ s.isReg p0 = false → r255.faultTimes.length < 7 →
          Completes (.svcRead tag p) s [.sc, .svc] fun t => (t.client 255).faults = satInc r255.faults ∧
            t.svc = served v 3 ([if s.isReg p0 then 3 else 10, 0, 1, 0] ++ [0, 0, 0, 0]))) ∧
      (p.length = 12 →
        let x := bytesWord (p.drop 8)
        (s.isReg p0 = true → s.permits 255 p0 true x = true → Completes (.svcWrite tag p) s [.hp, .svc] fun t =>
          t.svc = served v 4 [0, 0, 1, 0] ∧
          t.hp = { s.hp with queue := s.hp.queue ++ [{ client := 255, path := .svc, cs := 0, addr := .ofNat 20 a, data := x, at_ := s.time }] }) ∧
        (s.permits 255 p0 true x = false ∨ s.isReg p0 = false → r255.faultTimes.length < 7 →
          Completes (.svcWrite tag p) s [.sc, .svc] fun t => (t.client 255).faults = satInc r255.faults ∧
            t.svc = served v 4 [if s.isReg p0 then 3 else 10, 0, 0, 0]))) ∧
    -- in the boot ROM
    (serves → v.open_ = true → count = 1 → a < 2 ^ 20 → a % 4 = 0 → s.inRom = true →
      (p.length = 8 → 0x400 ≤ a → ¬ (0xC400 ≤ a ∧ a < 0xC800) → Completes (.svcRead tag p) s [.svc] fun t =>
        t.svc = served v 3 [10, 0, 1, 0, 0, 0, 0, 0]) ∧
      (p.length = 12 → a = 0xC408 → s.pwr.compat = false → Completes (.svcWrite tag p) s [.hp, .svc] fun t =>
        t.svc = served v 4 [0, 0, 1, 0] ∧ t.hp.queue = s.hp.queue ++
          [{ client := 255, path := .svc, cs := 0, addr := 0xC408, data := bytesWord (p.drop 8), at_ := s.time }])) ∧
    -- CLOSE, and a session's other ends
    (serves → v.open_ = false → Completes (.svcClose tag p) s [.svc] fun t => t.svc = served v 5 [0x10]) ∧
    (serves → v.open_ = true → p ≠ [] → Completes (.svcClose tag p) s [.svc] fun t => t.svc = served v 5 [0x11]) ∧
    (serves → v.open_ = true → p = [] → Completes (.svcClose tag p) s [.sc, .upd, .svc] fun t => ended t 1 ∧
      t.svc.resp = svcFrame 5 tag [0] ∧ t.svc.frames = satInc v.frames) ∧
    (v.open_ = false ∨ s.time < v.endAt → Completes .svcSessionExpire s [] fun _ => True) ∧
    (up → v.open_ = true → v.endAt ≤ s.time → Completes .svcSessionExpire s [.sc, .upd, .svc] fun t => ended t 2) ∧
    (v.open_ = false ∨ s.time < v.lastAt + 60 * 200000000 → Completes .svcIdleTimeout s [] fun _ => True) ∧
    (up → v.open_ = true → v.lastAt + 60 * 200000000 ≤ s.time →
      Completes .svcIdleTimeout s [.sc, .upd, .svc] fun t => ended t 3) ∧
    -- RESET
    (serves → v.open_ = false → Completes (.svcReset tag p) s [.svc] fun t => t.svc = served v 6 [0x10]) ∧
    (serves → v.open_ = true → p ≠ [0x3C, 0x5A] → Completes (.svcReset tag p) s [.svc] fun t => t.svc = served v 6 [0x11]) ∧
    (serves → v.open_ = true → p = [0x3C, 0x5A] → Completes (.svcReset tag p) s [.svc] fun t =>
      t.svc = { served v 6 [0] with resetPend := true, resetAt := s.time }) ∧
    (v.resetPend = false ∨ s.time < v.resetAt + 222000 → Completes (.svcResetExec also) s [] fun _ => True) ∧
    (up → v.resetPend = true → v.resetAt + 222000 ≤ s.time → also ≠ 1 →
      ∃ t, exec (.svcResetExec also) s = .next t ∧ AfterReset s t (if 2 ≤ also.val then min 6 also.val else 6)) ∧
    -- discarded frames
    (serves →
      (Completes (.svcBadFrame .crc) s [.svc] fun t =>
        t.svc = { v with crcErr := satInc v.crcErr, flag := v.flag ||| 1, resp := [] }) ∧
      (Completes (.svcBadFrame .length) s [.svc] fun t => t.svc = { v with resp := [] }) ∧
      (¬ (1 ≤ ty.toNat ∧ ty.toNat ≤ 6) → Completes (.svcBadFrame (.type ty tag)) s [.svc] fun t =>
        t.svc = served v ty.toNat [0x12])) ∧
    (up → Completes .svcByteTimeout s [.svc] fun t => t.svc = { v with resp := [] })

/-! ## The update agent (20) -/

/-- The block buffer fills; BEGIN, BLOCK, END, ACTIVATE and ABORT check, program, verify, start and give up an image as Tables
20.7 to 20.12 say, keep the boot-state and progress records, and report UPD_ERR; the agent starts none of that during a clock
fault or in the supervisor's reset, when a command waits; confirmation, fall-back and the start of the agent follow the records;
a campaign's link fails at its time limits (19 R701; 20 R734–R744, R746, R750, R751, R753, R754, R757, R762, R765). In reset none
of these commands does anything. -/
def Obligations.UpdateAgentCommands : Prop :=
  ∀ (s : State) (c : Fin 256) (w : Word) (n : Fin 1024) (ok : Bool) (v : RsVersion) (k : Campaign),
    cellWf 0xFF s.xf.cells = true →
    let u := s.upd
    let mine : Prop := u.owner = none ∨ u.owner = some c
    let mem (t : State) (a : Nat) : Byte := cellRead 0xFF t.xf.cells a
    let flash (t : State) (f : Nat → Byte) : Prop := t.xf = { s.xf with cells := t.xf.cells } ∧ ∀ a, mem t a = f a
    let state (t : State) (to_ : Nat) (x : UpdState) : Prop :=
      u.st ≠ x → ∃ q ∈ t.sc.posted, q.client = 0 ∧ q.ev.w0.toNat % 2 ^ 24 = (t.upd.kind.toNat * 64 + to_) * 256 + 0xB0
    let wwr : State → Prop := fun t => t.upd = { u with flag := u.flag ||| 0x40 }
    let failed (t : State) (x : Upd) (code inner block : Nat) : Prop :=
      t.upd = { x with st := .error, flag := x.flag ||| 2, errCode := .ofNat 8 code, errInner := .ofNat 8 inner,
                       errBlock := .ofNat 10 block } ∧ state t 8 .error
    -- the record store has room for two records without compaction, and these records were written
    let roomy : Prop := s.rs.ro = false ∧ 4 ≤ s.blankSectors.length
    let wrote (t : State) (recs : List (BitVec 8 × List Byte)) : Prop :=
      roomy → t.rs.versions.map (fun x => (x.type, x.index, x.data)) =
        s.rs.versions.map (fun x => (x.type, x.index, x.data)) ++ recs.map fun x => (x.1, 0, x.2)
    let boot := s.bootRec
    let b := padTo 0 4096 (u.buf.flatMap wordBytes)
    let code := s.beginCheck b
    let kind := field b 0x10 1
    let keep : Prop := (u.st = .resumable ∨ u.st = .receiving) ∧ sha256 b = u.hdig
    let target : Bool := if kind = 1 then !s.boot.slot else if kind = 2 then !s.boot.cfgCopy else false
    let confwin := field b 0x1C 2
    let base := if u.kind = 1 then (if u.target then 0x200000 else 0x100000)
      else if u.kind = 2 then (if u.target then 0x011000 else 0x001000) else 0x300000
    let place := base + 4096 * (u.next - 1)
    let sector (o a : Nat) : Prop := o ≤ a ∧ a < o + 4096
    let clear : Upd := { u with hdig := 0, next := 0, nblk := 0, kind := 0, head := [], block := [], abortPend := false, camp := none,
                                seq := 0, flags := 0, st := .idle, owner := none }
    let fits : Prop := s.boot.fmtMin.toNat ≤ field (s.flashRead base 6) 4 2 ∧ field (s.flashRead base 6) 4 2 ≤ s.boot.fmtMax.toNat
    let sigGood : Prop := State.sigOk (slice u.head 0xC0 32) (slice u.head 0xE0 64) s.outerMsg = true
    let only : Prop := s.rs.versions = [v] ∧ v.type = 3 ∧ v.index = 0 ∧ v.committed = true ∧ v.crcOk = true ∧ field v.data 39 1 < 64
    let starts : Prop := s.rs.ready = true ∧ s.boot.st ≠ .loading ∧ s.boot.st ≠ .clockHold ∧ u.begun = false
    let waits : Prop := s.pwr.st = .clockFault ∨ s.flt.supReset = true
    (s.pwr.pd1Up = false → ∀ cmd ∈ [.updDataWrite c w, .updBegin c, .updBlock c n, .updBlockProgrammed ok, .updEnd c,
      .updVerifyDone, .updActivate c, .updAbort c, .updConfirm, .updConfirmTimeout, .updAgentStart, .nodeResponseTimeout,
      .nodeBootTimeout], Completes cmd s [] fun _ => True) ∧
    (s.pwr.pd1Up = true →
    -- a clock fault, or the supervisor in reset
    (u.window = false → Completes .updConfirm s [] fun _ => True) ∧
    (u.window = true → Completes .updConfirm s [.upd] fun t => t.upd = { u with confReq := true }) ∧
    (waits → ∀ x ∈ [(Instr.updBegin c, 1, 0), (.updBlock c n, 2, n.val), (.updEnd c, 3, 0), (.updActivate c, 4, 0), (.updAbort c, 5, 0)],
      Completes x.1 s [.upd] fun t => t.upd = { u with waits := u.waits ++ [(c, x.2.1, x.2.2)] }) ∧
    (waits → ∀ cmd ∈ [.updBlockProgrammed ok, .updVerifyDone, .updConfirmTimeout, .nodeResponseTimeout, .nodeBootTimeout],
      Completes cmd s [] fun _ => True) ∧
    -- UPD_DATA
    (¬ mine ∨ 1024 ≤ u.buf.length → Completes (.updDataWrite c w) s [.upd] wwr) ∧
    (mine → u.buf.length < 1024 → Completes (.updDataWrite c w) s [.upd] fun t => t.upd = { u with buf := u.buf ++ [w] }) ∧
    -- the agent's start
    (¬ starts → Completes .updAgentStart s [] fun _ => True) ∧
    (starts → s.rs.versions = [] → u.cfgTrial = .none → Completes .updAgentStart s [.upd] fun t => t.upd = { u with begun := true }) ∧
    (starts → only →
      (field v.data 37 1 = 1 → Completes .updAgentStart s [.sc, .upd] fun t => t.upd.st = .resumable ∧
        t.upd.next = field v.data 32 2 ∧ t.upd.nblk = field v.data 34 2 ∧ digestBytes t.upd.hdig = slice v.data 0 32 ∧ t.upd.owner = u.owner) ∧
      (field v.data 37 1 = 2 → Completes .updAgentStart s [.sc, .upd] fun t => t.upd.st = .verified) ∧
      (field v.data 37 1 = 3 → s.boot.st ≠ .noBundle → s.boot.trial = true → Completes .updAgentStart s [.sc, .upd] fun t =>
        t.upd.st = .trial ∧ t.upd.window = true ∧ t.upd.periods = 0 ∧
        t.upd.winEnd = s.time + field v.data 40 2 * 200000000) ∧
      (field v.data 37 1 = 3 → s.boot.st ≠ .noBundle → s.boot.trial = false → s.boot.trialFailed = true →
        Completes .updAgentStart s [.sc, .upd, .rs] fun t => t.upd.st = .verified ∧ bit t.upd.flag 3 = true ∧
          wrote t [(3, t.progressBytes 2 (b2n t.upd.target))] ∧
          ∃ q ∈ t.sc.posted, q.client = 0 ∧ q.ev.w0.toNat % 2 ^ 24 = 0xB1)) ∧
    (¬ waits →
    -- BEGIN
    (¬ mine → Completes (.updBegin c) s [.upd] wwr) ∧
    (mine → code ≠ 0 → Completes (.updBegin c) s [.sc, .upd] fun t => failed t { u with buf := [] } code 0 0) ∧
    (field b 0 4 ≠ 0x5055584A ∨ field b 4 2 ≠ 1 → code = 1) ∧
    (field b 6 2 ≠ 0x0640 → code = 1 ∨ code = 2) ∧
    (u.st = .programming ∨ u.st = .verifying ∨ u.st = .trial ∨ u.st = .nodes ∨ boot.trial ≠ none → code ≠ 0) ∧
    (mine → code = 0 → Completes (.updBegin c) s [.sc, .upd, .rs] fun t =>
      state t 1 .receiving ∧
      (keep → t.upd.next = u.next) ∧ (¬ keep → t.upd.next = 1) ∧
      t.upd = { u with st := .receiving, buf := [], owner := some c, head := b, hdig := sha256 b, kind := .ofNat 2 kind,
                       nblk := field b 0x12 2, next := t.upd.next, seq := .ofNat 32 (field b 0x18 4),
                       flags := .ofNat 8 (field b 0x11 1), target := target, confReq := false,
                       confWin := if confwin = 0 then u.win else .ofNat 16 confwin } ∧
      (keep → kind ≠ 1 ∨ boot.writing = some target → t.rs = s.rs) ∧
      (¬ keep → kind ≠ 1 ∨ boot.writing = some target → wrote t [(3, t.progressBytes 1 (b2n target))]) ∧
      (keep → kind = 1 → boot.writing ≠ some target → wrote t [(1, { boot with writing := some target }.bytes)]) ∧
      (¬ keep → kind = 1 → boot.writing ≠ some target →
        wrote t [(1, { boot with writing := some target }.bytes), (3, t.progressBytes 1 (b2n target))])) ∧
    -- BLOCK
    (¬ mine ∨ u.st ≠ .receiving → Completes (.updBlock c n) s [.upd] wwr ∧ Completes (.updEnd c) s [.upd] wwr) ∧
    (mine → u.st = .receiving →
      (n.val ≠ u.next ∨ u.nblk < n.val → Completes (.updBlock c n) s [.sc, .upd] fun t => failed t u 8 0 n.val) ∧
      (n.val = u.next → n.val ≤ u.nblk →
        (u.buf.length < 1024 → Completes (.updBlock c n) s [.sc, .upd] fun t => failed t u 9 0 n.val) ∧
        (1024 ≤ u.buf.length →
          ((crc32c b).toNat ≠ field u.head (0x200 + 4 * (n.val - 1)) 4 →
            Completes (.updBlock c n) s [.sc, .upd] fun t => failed t { u with buf := [] } 10 0 n.val) ∧
          ((crc32c b).toNat = field u.head (0x200 + 4 * (n.val - 1)) 4 → Completes (.updBlock c n) s [.sc, .upd] fun t =>
            t.upd = { u with buf := [], block := b, tries := 0, st := .programming } ∧ state t 2 .programming))) ∧
      -- END
      (u.next ≠ u.nblk + 1 → Completes (.updEnd c) s [.sc, .upd] fun t => failed t u 9 0 u.next) ∧
      (u.next = u.nblk + 1 → Completes (.updEnd c) s [.sc, .upd] fun t => t.upd = { u with st := .verifying } ∧ state t 3 .verifying)) ∧
    -- the sector
    (u.block = [] → Completes (.updBlockProgrammed ok) s [] fun _ => True) ∧
    (u.block.length = 4096 → u.abortPend = false →
      (Completes (.updBlockProgrammed true) s [.xf, .sc, .upd, .rs] fun t =>
        t.upd = { u with block := [], next := u.next + 1, st := if u.st = .programming then .receiving else u.st } ∧
        flash t (fun a => if place ≤ a ∧ a < place + 4096 then u.block.getD (a - place) 0 else mem s a) ∧
        wrote t [(3, t.progressBytes 1 (b2n u.target))]) ∧
      (u.tries < 2 → Completes (.updBlockProgrammed false) s [.xf, .upd] fun t => t.upd = { u with tries := u.tries + 1 } ∧
        flash t (fun a => if place ≤ a ∧ a < place + 4096 then 0xFF else mem s a)) ∧
      (2 ≤ u.tries → Completes (.updBlockProgrammed false) s [.xf, .sc, .upd] fun t => failed t { u with block := [] } 11 0 u.next)) ∧
    (u.block.length = 4096 → u.abortPend = true → u.kind ≠ 0 → 1 ≤ u.next → Completes (.updBlockProgrammed true) s [.xf, .sc, .upd, .rs] fun t =>
      t.upd = clear ∧ ∀ a, sector base a → mem t a = 0xFF) ∧
    -- verification
    (u.st ≠ .verifying → Completes .updVerifyDone s [] fun _ => True) ∧
    (u.st = .verifying →
      (¬ sigGood → Completes .updVerifyDone s [.sc, .upd] fun t => failed t u 12 0 0) ∧
      (sigGood → s.payloadCode ≠ 1 → Completes .updVerifyDone s [.sc, .upd] fun t => failed t u 13 s.payloadCode 0) ∧
      (u.kind = 3 → (crc32c (s.flashRead 0x300000 (field u.head 0x14 4))).toNat ≠ field u.head 0x8C 4 → s.payloadCode = 8) ∧
      (sigGood → s.payloadCode = 1 → Completes .updVerifyDone s [.sc, .upd] fun t =>
        t.upd = { u with st := .verified, flag := u.flag ||| 1 } ∧ state t 4 .verified)) ∧
    -- ACTIVATE
    (¬ mine → Completes (.updActivate c) s [.upd] wwr) ∧
    (mine → u.st ≠ .verified → Completes (.updActivate c) s [.sc, .upd] fun t => failed t u 14 0 0) ∧
    (mine → u.st = .verified →
      (u.kind = 1 → s.boot.st ≠ .noBundle → ∃ t, exec (.updActivate c) s = .next t ∧ AfterReset s t 7 ∧
        wrote t [(1, { boot with trial := some u.target, started := false, writing := none }.bytes),
          (3, s.progressBytes 3 (b2n u.target))]) ∧
      (u.kind = 1 → s.boot.st = .noBundle → ∃ t, exec (.updActivate c) s = .next t ∧ AfterReset s t 7 ∧
        wrote t [(1, { boot with active := u.target, trial := none, started := false, writing := none }.bytes),
          (3, s.progressBytes 0 0)]) ∧
      (u.kind = 2 → fits → ∃ t, exec (.updActivate c) s = .next t ∧ AfterReset s t 7 ∧
        wrote t [(3, { s with upd := { u with cfgTrial := .armed, cfgCopy := u.target } : State }.progressBytes 0 (b2n u.target))]) ∧
      (u.kind = 2 → ¬ fits → Completes (.updActivate c) s [.sc, .upd, .rs] fun t =>
        t.upd = { u with cfgTrial := .armed, cfgCopy := u.target, st := .idle, owner := none } ∧
        wrote t [(3, t.progressBytes 0 (b2n u.target))]) ∧
      (u.kind = 3 → u.head.getD 0x88 0 = 0 → Completes (.updActivate c) s [.sc, .upd, .rs] fun t =>
        t.upd.st = .verified ∧ t.upd.camp = none ∧ t.upd.node = .replicate 4 0 ∧ t.upd.flag = u.flag ||| 0x10 ∧
        wrote t [(3, t.progressBytes 2 0)]) ∧
      (u.kind = 3 → s.nodeJudge 0 = 2 → Completes (.updActivate c) s [.sc, .hl, .upd, .rs] fun t =>
        t.upd.st = .nodes ∧ (t.upd.node[0]).toNat = 2 ∧ t.upd.camp = some { link := 0, phase := .start, offset := 0, msg := u.nextMsg, inFlight := true } ∧
        wrote t [(3, t.progressBytes 4 0)] ∧ ∃ m ∈ (t.link 0).mdcq, m.client = 0 ∧ m.buf = none ∧ m.msgid = u.nextMsg ∧ m.req = true ∧
          m.payload = [0x41, 0] ++ leBytes 2 (field u.head 0x86 2) ++ leBytes 4 (field u.head 0x14 4) ++ leBytes 4 (field u.head 0x8C 4))) ∧
    -- ABORT
    (¬ mine ∨ u.st = .trial → Completes (.updAbort c) s [.upd] wwr) ∧
    (mine → u.st ≠ .trial → u.block ≠ [] → Completes (.updAbort c) s [.upd] fun t => t.upd = { u with abortPend := true }) ∧
    (mine → u.st ≠ .trial → u.block = [] →
      (u.kind = 1 → Completes (.updAbort c) s [.xf, .sc, .upd, .rs] fun t => t.upd = clear ∧
        flash t (fun a => if base ≤ a ∧ a < base + 4096 then 0xFF else mem s a) ∧
        wrote t [(1, { boot with writing := none }.bytes), (3, t.progressBytes 0 0)]) ∧
      (u.kind = 2 → Completes (.updAbort c) s [.xf, .sc, .upd, .rs] fun t => t.upd = clear ∧
        flash t (fun a => if base ≤ a ∧ a < base + 4096 then 0xFF else mem s a) ∧ wrote t [(3, t.progressBytes 0 0)]) ∧
      (u.kind = 3 → Completes (.updAbort c) s [.xf, .sc, .upd, .rs] fun t => t.upd = clear ∧
        flash t (fun a => if 0x300000 ≤ a ∧ a < 0x300000 + ((u.next - 1) * 4096 + 65535) / 65536 * 65536 then 0xFF else mem s a) ∧
        wrote t [(3, t.progressBytes 0 0)])) ∧
    -- confirmation and fall-back
    (u.window = false ∨ s.time < u.winEnd → Completes .updConfirmTimeout s [] fun _ => True) ∧
    (u.window = true → u.winEnd ≤ s.time → ∃ t, exec .updConfirmTimeout s = .next t ∧ AfterReset s t 7) ∧
    -- a campaign's time limits
    (u.camp = none → Completes .nodeResponseTimeout s [] (fun _ => True) ∧ Completes .nodeBootTimeout s [] fun _ => True) ∧
    (u.camp = some k →
      let cmd : Instr := if k.phase = .boot then .nodeBootTimeout else .nodeResponseTimeout
      let other : Instr := if k.phase = .boot then .nodeResponseTimeout else .nodeBootTimeout
      let limit := if k.phase = .boot then 200000000 * u.nuboot.toNat else 40000000
      let due : Prop := k.phase ≠ .data ∧ (k.phase = .boot ∨ k.inFlight = false) ∧ k.at_ + limit ≤ s.time
      Completes other s [] (fun _ => True) ∧ (¬ due → Completes cmd s [] fun _ => True) ∧
      (due → Completes cmd s [.sc, .upd, .rs] fun t => (at_ t.upd.node k.link).toNat = 6 ∧ t.upd.camp = none ∧ t.upd.st = .verified ∧
        bit t.upd.flag 5 = true ∧ (∀ l, l ≠ k.link → at_ t.upd.node l = at_ u.node l) ∧ wrote t [(3, t.progressBytes 2 0)] ∧
        ∃ q ∈ t.sc.posted, q.client = 0 ∧ q.ev.w0.toNat % 2 ^ 24 = (k.link.val * 4096 + 6) * 256 + 0x32))))

/-! ## Reads that clear, register writes and the test port (00, 04, 21) -/

/-- A read of a counter or status answers its value and clears what Table 0.4 says it clears; a register write takes effect
under the writer's rights, with RSV bits ignored, W1C bits cleared unless hardware sets them in the same cycle, and RWL fields
held by the lock; TB is not read while it runs, and one snapshot a cycle holds it; the TAP loads its instruction while RST_N is
low, else BYPASS (00 R8, R9, R11; 04 R154, R155, R165; 21 R787–R789). In reset no register is read or written but TB. -/
def Obligations.ReadsWritesAndTestPort : Prop :=
  ∀ (s : State) (hi : Bool) (c : Fin 8) (l : Fin 4) (k : Fin 2) (client : Fin 256) (p : Path) (a : BitVec 20) (w : Word)
    (cells : BitVec 266),
    let x := s.link l
    let d := at_ s.dma c
    let m := at_ s.msp k
    let b := at_ s.smb k
    let n := s.nativeAddr a.toNat
    let two (high low : Nat) : Nat := high * 65536 + low
    let write (w : Word) := Completes (.registerWrite p client a w) s
    let others (t : State) : Prop := ∀ j, j ≠ l → t.link j = s.link j
    -- the timebase
    (s.tbs.run = true → Completes (.glbTbRead hi) s [.tbs, .rdata] fun t =>
      t.rdata = 0xFFFFFFFF ∧ t.tbs = { s.tbs with rwr := true }) ∧
    (s.tbs.run = false → Completes (.glbTbRead hi) s [.rdata] fun t =>
      t.rdata.toNat = if hi then s.tb.toNat / 2 ^ 32 else s.tb.toNat % 2 ^ 32) ∧
    (s.cyc.snapped = true → Completes .tbSnap s [] fun _ => True) ∧
    (s.cyc.snapped = false → Completes .tbSnap s [.tbs] fun t =>
      t.tbs = { s.tbs with snap := s.tb, seq := s.tbs.seq + 1, valid := true }) ∧
    -- reads that clear
    (s.pwr.pd1Up = false → ∀ cmd ∈ [.pwrStateRead, .ttLatRead, .dmaRemRead c, .hpCntRead 0, .hpCntRead 1, .hpCntRead 2, .hlCntRead l 0,
      .hlCntRead l 1, .hlCntRead l 2, .hlCntRead l 3, .smbCntRead k, .mspCntRead k 0, .mspCntRead k 1, .svcCntRead, .rsCntRead,
      .registerWrite p client a w], Completes cmd s [] fun _ => True) ∧
    (s.pwr.pd1Up = true →
    (Completes .pwrStateRead s [.pwr, .rdata] fun t =>
      t.pwr = { s.pwr with refuse := 0 } ∧ fld t.rdata 6 4 = s.pwr.refuse.toNat % 8 ∧ fld t.rdata 3 0 = s.pwrStateCode) ∧
    (Completes .ttLatRead s [.tt, .rdata] fun t => t.rdata = s.tt.lat ∧ t.tt = { s.tt with lat := 0 }) ∧
    (Completes (.dmaRemRead c) s [.dma, .rdata] fun t =>
      t.rdata.toNat = two d.maxWait.toNat d.rem.toNat ∧ at_ t.dma c = { d with maxWait := 0 } ∧
      ∀ j, j ≠ c → at_ t.dma j = at_ s.dma j) ∧
    (Completes (.hpCntRead 0) s [.hp, .rdata] fun t =>
      t.rdata.toNat = two s.hp.cntPar.toNat s.hp.cntCrc.toNat ∧ t.hp = { s.hp with cntPar := 0, cntCrc := 0 }) ∧
    (Completes (.hpCntRead 1) s [.hp, .rdata] fun t =>
      t.rdata.toNat = two s.hp.cntAbort.toNat s.hp.cntBusy.toNat ∧ t.hp = { s.hp with cntAbort := 0, cntBusy := 0 }) ∧
    (Completes (.hpCntRead 2) s [.hp, .rdata] fun t =>
      t.rdata.toNat = two s.hp.cntWerr.toNat s.hp.cntMissed.toNat ∧ t.hp = { s.hp with cntWerr := 0, cntMissed := 0 }) ∧
    (Completes (.hlCntRead l 0) s [.hl, .rdata] fun t => others t ∧ t.rdata = x.bip ∧ t.link l = { x with bip := 0 }) ∧
    (Completes (.hlCntRead l 1) s [.hl, .rdata] fun t => others t ∧
      t.rdata.toNat = two x.rep.toNat x.drop.toNat ∧ t.link l = { x with rep := 0, drop := 0 }) ∧
    (Completes (.hlCntRead l 2) s [.hl, .rdata] fun t => others t ∧
      t.rdata.toNat = two x.cv.toNat x.rei.toNat ∧ t.link l = { x with cv := 0, rei := 0 }) ∧
    (Completes (.hlCntRead l 3) s [.hl, .rdata] fun t => others t ∧
      t.rdata.toNat = two (256 * x.late.toNat + x.giveup.toNat) (256 * x.retry.toNat + x.fcs.toNat) ∧
      t.link l = { x with late := 0, giveup := 0, retry := 0, fcs := 0 }) ∧
    (Completes (.smbCntRead k) s [.smb, .rdata] fun t =>
      t.rdata.toNat = two (256 * b.clears.toNat + b.tmo.toNat) b.nacks.toNat ∧
      at_ t.smb k = { b with clears := 0, tmo := 0, nacks := 0 } ∧ ∀ j, j ≠ k → at_ t.smb j = at_ s.smb j) ∧
    (Completes (.mspCntRead k 0) s [.msp, .rdata] fun t =>
      t.rdata.toNat = two m.rxFrames.toNat m.rxDrops.toNat ∧ at_ t.msp k = { m with rxFrames := 0, rxDrops := 0 } ∧
      ∀ j, j ≠ k → at_ t.msp j = at_ s.msp j) ∧
    (Completes (.mspCntRead k 1) s [.msp, .rdata] fun t =>
      t.rdata.toNat = two m.txFrames.toNat m.txDrops.toNat ∧ at_ t.msp k = { m with txFrames := 0, txDrops := 0 } ∧
      ∀ j, j ≠ k → at_ t.msp j = at_ s.msp j) ∧
    (Completes .svcCntRead s [.svc, .rdata] fun t => 
      t.rdata.toNat = two s.svc.frames.toNat s.svc.crcErr.toNat ∧ t.svc = { s.svc with frames := 0, crcErr := 0 }) ∧
    (Completes .rsCntRead s [.rs, .rdata] fun t =>
      t.rdata.toNat = two s.rs.cntRefused.toNat s.rs.cntCrc.toNat ∧ t.rs = { s.rs with cntRefused := 0, cntCrc := 0 }) ∧
    -- register writes
    (s.permits client n true w = false → write w [] fun _ => True) ∧
    (State.heldAddr n = true → s.pwr.pdUp = false → write w [] fun _ => True) ∧
    (s.permits client n true w = true → s.pwr.pdUp = true →
      let clears := w &&& ~~~(s.freshBits n)
      (n = 0x7008 + 0x400 * l.val → write w [.hl] fun t => others t ∧ t.link l = { x with flag := x.flag &&& ~~~(clears.setWidth 15) }) ∧
      (n = 0x700C + 0x400 * l.val → s.freshBits n = 0 → write w [.hl] fun t => others t ∧ t.link l = { x with ien := w.setWidth 15 }) ∧
      (n = 0x7018 + 0x400 * l.val → s.boot.locked = true → write w [] fun _ => True) ∧
      (n = 0x7018 + 0x400 * l.val → s.boot.locked = false → s.freshBits n = 0 → write w [.hl] fun t =>
        others t ∧ t.link l = { x with xch := w &&& 0x8000FFFF }) ∧
      (n = 0xB00C → s.freshBits n = 0 → write w [.pm] fun t => t.pm = { s.pm with tca := w }) ∧
      (n = 0xB018 → write w [.pm] fun t => t.pm = { s.pm with flag := s.pm.flag &&& ~~~(clears.setWidth 5) }) ∧
      (n = 0xC010 → write w [.rs] fun t => t.rs = { s.rs with flag := s.rs.flag &&& ~~~(clears.setWidth 5) }) ∧
      (n = 0xA818 → s.freshBits n = 0 → write w [.tsi] fun t => t.tsi = { s.tsi with watch := w &&& 0x8000FFFF }))) ∧
    -- the test access port
    (let tap (cmd : Instr) (code : BitVec 4) : Prop :=
      (s.pins.rstN = true ∨ s.otp.bsdis = true → Completes cmd s [.pins] fun t => t.pins = { s.pins with tap := 15 }) ∧
      (s.pins.rstN = false → s.otp.bsdis = false → Completes cmd s [.pins] fun t =>
        t.pins = { s.pins with tap := code, boundary := if code.toNat < 2 then cells else s.pins.boundary })
    tap (.tapExtest cells) 0 ∧ tap (.tapSamplePreload cells) 1 ∧ tap .tapClamp 2 ∧ tap .tapHighz 3 ∧ tap .tapBypass 15) ∧
    (Completes (.tapReset false) s [.pins] fun t => t.pins = { s.pins with tap := 15 }) ∧
    (s.pins.rstN = false → Completes (.tapReset true) s [.pins] fun t => t.pins = { s.pins with tap := 15, rstN := true })
end

