-- ==== Sys2Proof/Laws/Sparse.lean ====
section
/-!
SUPPORT. Laws/Sparse.lean: vectors read after a write, and sparse memories: every operation keeps the canonical form, a read
after a write gives the value written, and a write leaves every other key alone.
-/
namespace Sys2Proof

/-! ## Vectors -/

theorem at_vset {α : Type} {n : Nat} (v : Vector α n) (i j : Fin n) (f : α → α) :
    at_ (vset v i f) j = if i = j then f (at_ v i) else at_ v j := by
  simp only [at_, vset, Vector.getElem_set]
  by_cases h : i = j
  · subst h; simp
  · have : i.val ≠ j.val := fun e => h (Fin.ext e)
    simp [h, this]

@[simp] theorem at_vset_self {α : Type} {n : Nat} (v : Vector α n) (i : Fin n) (f : α → α) :
    at_ (vset v i f) i = f (at_ v i) := by simp [at_vset]

theorem at_vset_ne {α : Type} {n : Nat} (v : Vector α n) {i j : Fin n} (f : α → α) (h : i ≠ j) :
    at_ (vset v i f) j = at_ v j := by simp [at_vset, h]

@[simp] theorem at_replicate {α : Type} {n : Nat} (a : α) (i : Fin n) : at_ (Vector.replicate n a) i = a := by
  simp [at_]

/-! ## Sparse memories -/

theorem cellRead_insert {α : Type} (d : α) (k j : Nat) (v : α) (m : List (Nat × α)) :
    cellRead d (cellInsert k v m) j = if j = k then v else cellRead d m j := by
  induction m with
  | nil => by_cases h : k = j <;> simp [cellInsert, cellRead, h, eq_comm]
  | cons p m ih =>
    obtain ⟨a, w⟩ := p
    by_cases hk : k = a
    · subst hk
      by_cases h : k = j
      · subst h; simp [cellInsert, cellRead]
      · have : j ≠ k := fun e => h e.symm
        simp [cellInsert, cellRead, h, this]
    · by_cases hl : k < a
      · by_cases h : k = j
        · subst h; simp [cellInsert, cellRead, hl]
        · have : j ≠ k := fun e => h e.symm
          simp [cellInsert, cellRead, hl, h, this]
      · by_cases h : a = j
        · subst h
          have : a ≠ k := fun e => hk e.symm
          simp [cellInsert, cellRead, hl, hk, this]
        · simp [cellInsert, cellRead, hl, hk, h, ih]

/-- Every key of the list is at least k. -/
def KeysFrom {α : Type} (k : Nat) (m : List (Nat × α)) : Prop := ∀ p ∈ m, k ≤ p.1

theorem cellWf_cons {α : Type} [DecidableEq α] (d : α) (a : Nat) (v : α) (m : List (Nat × α)) :
    cellWf d ((a, v) :: m) = true ↔ v ≠ d ∧ KeysFrom (a + 1) m ∧ cellWf d m = true := by
  induction m generalizing a v with
  | nil => simp [cellWf, KeysFrom]
  | cons p m ih =>
    obtain ⟨b, w⟩ := p
    have hb := ih b w
    constructor
    · intro h
      simp only [cellWf, Bool.and_eq_true, decide_eq_true_eq] at h
      refine ⟨h.1.2, ?_, h.2⟩
      intro q hq
      rcases List.mem_cons.1 hq with rfl | hq
      · exact h.1.1
      · have := (hb.1 h.2).2.1 q hq; omega
    · rintro ⟨h1, h2, h3⟩
      simp only [cellWf, Bool.and_eq_true, decide_eq_true_eq]
      exact ⟨⟨h2 (b, w) (by simp), h1⟩, h3⟩

theorem keysFrom_insert {α : Type} (c k : Nat) (v : α) (m : List (Nat × α)) (hk : c ≤ k) (h : KeysFrom c m) :
    KeysFrom c (cellInsert k v m) := by
  induction m with
  | nil => intro q hq; simp only [cellInsert, List.mem_singleton] at hq; subst hq; exact hk
  | cons p m ih =>
    obtain ⟨a, w⟩ := p
    have h1 : KeysFrom c m := fun q hq => h q (List.mem_cons_of_mem _ hq)
    have h2 : c ≤ a := h (a, w) (by simp)
    intro q hq
    simp only [cellInsert] at hq
    split at hq
    · rcases List.mem_cons.1 hq with rfl | hq
      · exact hk
      · exact h q hq
    · split at hq
      · rcases List.mem_cons.1 hq with rfl | hq
        · exact hk
        · exact h1 q hq
      · rcases List.mem_cons.1 hq with rfl | hq
        · exact h2
        · exact ih h1 q hq

/-- Writing a value other than the default keeps the canonical form. -/
theorem cellWf_insert {α : Type} [DecidableEq α] (d : α) (k : Nat) (v : α) (m : List (Nat × α)) (hv : v ≠ d)
    (h : cellWf d m = true) : cellWf d (cellInsert k v m) = true := by
  induction m with
  | nil => simp [cellInsert, cellWf, hv]
  | cons p m ih =>
    obtain ⟨a, w⟩ := p
    obtain ⟨h1, h2, h3⟩ := (cellWf_cons d a w m).1 h
    simp only [cellInsert]
    split
    · rename_i hl
      refine (cellWf_cons d k v _).2 ⟨hv, ?_, h⟩
      intro q hq
      rcases List.mem_cons.1 hq with rfl | hq
      · exact hl
      · have := h2 q hq; omega
    · rename_i hl
      split
      · rename_i he; subst he
        exact (cellWf_cons d k v m).2 ⟨hv, h2, h3⟩
      · rename_i he
        exact (cellWf_cons d a w _).2 ⟨h1, keysFrom_insert _ _ _ _ (by omega) h2, ih h3⟩

theorem keysFrom_erase {α : Type} (c k : Nat) (m : List (Nat × α)) (h : KeysFrom c m) : KeysFrom c (cellErase k m) := by
  induction m with
  | nil => exact h
  | cons p m ih =>
    obtain ⟨a, w⟩ := p
    have h1 : KeysFrom c m := fun q hq => h q (List.mem_cons_of_mem _ hq)
    simp only [cellErase]
    split
    · exact h1
    · intro q hq
      rcases List.mem_cons.1 hq with rfl | hq
      · exact h _ (by simp)
      · exact ih h1 q hq

/-- Removing a key keeps the canonical form. -/
theorem cellWf_erase {α : Type} [DecidableEq α] (d : α) (k : Nat) (m : List (Nat × α)) (h : cellWf d m = true) :
    cellWf d (cellErase k m) = true := by
  induction m with
  | nil => rfl
  | cons p m ih =>
    obtain ⟨a, w⟩ := p
    obtain ⟨h1, h2, h3⟩ := (cellWf_cons d a w m).1 h
    simp only [cellErase]
    split
    · exact h3
    · exact (cellWf_cons d a w _).2 ⟨h1, keysFrom_erase _ _ _ h2, ih h3⟩

/-- Every write keeps the canonical form. -/
theorem cellWf_write {α : Type} [DecidableEq α] (d : α) (m : List (Nat × α)) (k : Nat) (v : α) (h : cellWf d m = true) :
    cellWf d (cellWrite d m k v) = true := by
  simp only [cellWrite]
  split
  · exact cellWf_erase d k m h
  · exact cellWf_insert d k v m ‹_› h

/-- A run of writes keeps the canonical form. -/
theorem cellWf_writeList {α : Type} [DecidableEq α] (d : α) (vs : List α) : ∀ (m : List (Nat × α)) (k : Nat),
    cellWf d m = true → cellWf d (cellWriteList d m k vs) = true := by
  induction vs with
  | nil => exact fun m k h => h
  | cons v vs ih => exact fun m k h => ih _ _ (cellWf_write d m k v h)

/-- Dropping entries keeps the canonical form. -/
theorem cellWf_filter {α : Type} [DecidableEq α] (d : α) (p : Nat × α → Bool) (m : List (Nat × α)) (h : cellWf d m = true) :
    cellWf d (m.filter p) = true := by
  induction m with
  | nil => rfl
  | cons q m ih =>
    obtain ⟨a, v⟩ := q
    obtain ⟨h1, h2, h3⟩ := (cellWf_cons d a v m).1 h
    rw [List.filter_cons]
    split
    · exact (cellWf_cons d a v _).2 ⟨h1, fun q hq => h2 q (List.mem_filter.1 hq).1, ih h3⟩
    · exact ih h3

theorem keysFrom_map {α : Type} (c : Nat) (f : Nat × α → Nat × α) (hf : ∀ p, (f p).1 = p.1) (m : List (Nat × α))
    (h : KeysFrom c m) : KeysFrom c (m.map f) := by
  intro q hq
  obtain ⟨p, hp, rfl⟩ := List.mem_map.mp hq
  rw [hf]; exact h p hp

/-- A map that keeps every key and makes no value the default one keeps the canonical form. -/
theorem cellWf_map {α : Type} [DecidableEq α] (d : α) (f : Nat × α → Nat × α) (hf : ∀ p, (f p).1 = p.1)
    (hv : ∀ p, p.2 ≠ d → (f p).2 ≠ d) (m : List (Nat × α)) (h : cellWf d m = true) : cellWf d (m.map f) = true := by
  induction m with
  | nil => rfl
  | cons q m ih =>
    obtain ⟨a, v⟩ := q
    obtain ⟨h1, h2, h3⟩ := (cellWf_cons d a v m).mp h
    have e : f (a, v) = (a, (f (a, v)).2) := Prod.ext (hf _) rfl
    rw [List.map_cons, e]
    exact (cellWf_cons d a _ _).mpr ⟨hv _ h1, keysFrom_map _ f hf m h2, ih h3⟩

/-- Values changed, and the ones that became the default dropped, keep the canonical form. -/
theorem cellWf_mapFilter {α : Type} [DecidableEq α] (d : α) (g : α → α) (m : List (Nat × α)) (h : cellWf d m = true) :
    cellWf d ((m.map fun p => (p.1, g p.2)).filter fun p => p.2 ≠ d) = true := by
  induction m with
  | nil => rfl
  | cons q m ih =>
    obtain ⟨a, v⟩ := q
    obtain ⟨_, h2, h3⟩ := (cellWf_cons d a v m).mp h
    rw [List.map_cons, List.filter_cons]
    split
    · rename_i hv
      refine (cellWf_cons d a _ _).mpr ⟨by simpa using hv, ?_, ih h3⟩
      intro q hq
      exact keysFrom_map _ (fun p => (p.1, g p.2)) (fun _ => rfl) m h2 q (List.mem_filter.mp hq).1
    · exact ih h3

theorem cellRead_erase {α : Type} [DecidableEq α] (d : α) (k j : Nat) (m : List (Nat × α)) (h : cellWf d m = true) :
    cellRead d (cellErase k m) j = if j = k then d else cellRead d m j := by
  induction m with
  | nil => simp [cellErase, cellRead]
  | cons p m ih =>
    obtain ⟨a, w⟩ := p
    obtain ⟨h1, h2, h3⟩ := (cellWf_cons d a w m).1 h
    have key : ∀ m : List (Nat × α), KeysFrom (a + 1) m → cellRead d m a = d := by
      intro m
      induction m with
      | nil => intro _; rfl
      | cons q m ih2 =>
        intro hq
        have h4 : a + 1 ≤ q.1 := hq q (by simp)
        have h5 : q.1 ≠ a := by omega
        simp only [cellRead, h5, if_false]
        exact ih2 fun r hr => hq r (List.mem_cons_of_mem _ hr)
    simp only [cellErase]
    by_cases hk : k = a
    · subst hk
      by_cases hj : j = k
      · subst hj; simp [key m h2]
      · have : ¬ k = j := fun e => hj e.symm
        simp [cellRead, hj, this]
    · by_cases hj : a = j
      · subst hj
        have : ¬ a = k := fun e => hk e.symm
        simp [cellRead, hk, this]
      · simp [cellRead, hk, hj, ih h3]

/-- A read after a write: the value written at its key, every other key as before. -/
theorem cellRead_write {α : Type} [DecidableEq α] (d : α) (m : List (Nat × α)) (k j : Nat) (v : α) (h : cellWf d m = true) :
    cellRead d (cellWrite d m k v) j = if j = k then v else cellRead d m j := by
  simp only [cellWrite]
  split
  · rename_i hv; rw [cellRead_erase d k j m h, hv]
  · exact cellRead_insert d k j v m

end Sys2Proof
end

