-- ==== Sys2Proof/Laws/KeptBase.lean ====
section
/-!
SUPPORT. Laws/KeptBase.lean: what every operation keeps: the queue of waiting commands, the canonical form of bank memory and
of the sparse tables, and the bounds of the pin sequencers' FIFOs. Here the relation, and the shared operations, channels, angle domains and memory.
-/
namespace Sys2Proof.Machine

/-- From s to t the queue is the same, and the canonical forms of memory and of the sparse tables and the FIFO bounds hold in
t if they hold in s. -/
structure Kept (s t : State) : Prop where
  queue : t.pending = s.pending
  mem : MemCanonical s → MemCanonical t
  fifo : FifosBounded s → FifosBounded t
  tab : TablesCanonical s → TablesCanonical t

/-- The same of a state beside a value, beside two, of one that may be absent, and of an outcome. -/
def KeptP {α : Type} (s : State) (p : α × State) : Prop := Kept s p.2
def KeptQ {α β : Type} (s : State) (p : α × β × State) : Prop := Kept s p.2.2
def KeptO (s : State) (o : Option State) : Prop := ∀ t, o = some t → Kept s t
def KeptOP {α : Type} (s : State) (o : Option (α × State)) : Prop := ∀ p, o = some p → Kept s p.2
def KeptR (s : State) (o : Host.Outcome State Fault Refusal) : Prop := ∀ t, o = .next t → Kept s t

namespace Kept

theorem refl (s : State) : Kept s s := ⟨rfl, id, id, id⟩
theorem trans {s t u : State} (h : Kept s t) (k : Kept t u) : Kept s u :=
  ⟨k.queue.trans h.queue, fun x => k.mem (h.mem x), fun x => k.fifo (h.fifo x),
    fun x => k.tab (h.tab x)⟩
/-- A change that leaves queue, bank bytes, engines and sparse tables as they are. -/
theorem same {s t : State} (h : t.pending = s.pending) (k : t.mem.cells = s.mem.cells) (l : t.ps.eng = s.ps.eng)
    (m : t.tt.cal = s.tt.cal) (n : t.sc.recs = s.sc.recs) (o : t.tsi.conn = s.tsi.conn) : Kept s t :=
  ⟨h, fun x => by unfold MemCanonical; rw [k]; exact x, fun x e => by rw [l]; exact x e,
   fun x => by unfold TablesCanonical; rw [m, n, o]; exact x⟩
theorem ite {s a b : State} {c : Prop} [Decidable c] (h : Kept s a) (k : Kept s b) : Kept s (if c then a else b) := by
  split <;> assumption
theorem foldl {α : Type} {f : State → α → State} (h : ∀ s a, Kept s (f s a)) (l : List α) (s : State) :
    Kept s (l.foldl f s) := by
  induction l generalizing s with
  | nil => exact refl s
  | cons a l ih => exact (h s a).trans (ih _)
theorem fin {n : Nat} {f : Fin n → State → State} (h : ∀ a s, Kept s (f a s)) (s : State) :
    Kept s (foldFin n f s) := foldl (fun s a => h a s) _ s
theorem ofP {α : Type} {s t : State} {p : α × State} {x : α} (h : p = (x, t)) (k : KeptP s p) : Kept s t := by
  subst h; exact k
theorem ofQ {α β : Type} {s t : State} {p : α × β × State} {x : α} {y : β} (h : p = (x, y, t)) (k : KeptQ s p) :
    Kept s t := by
  subst h; exact k
theorem ofO {s t : State} {o : Option State} (h : o = some t) (k : KeptO s o) : Kept s t := k t h
theorem ofOP {α : Type} {s t : State} {x : α} {o : Option (α × State)} (h : o = some (x, t)) (k : KeptOP s o) : Kept s t :=
  k _ h
theorem ofOP' {α : Type} {s : State} {o : Option (α × State)} {p : α × State} (h : o = some p) (k : KeptOP s o) :
    Kept s p.2 := k _ h

end Kept

theorem KeptO.map {α : Type} {s : State} {o : Option α} {f : α → State} (h : ∀ x, Kept s (f x)) : KeptO s (o.map f) := by
  intro t e
  cases o with
  | none => cases e
  | some x => cases e; exact h x
theorem Kept.getD {s t : State} {o : Option State} (h : KeptO s o) (k : Kept s t) : Kept s (o.getD t) := by
  cases o with
  | none => exact k
  | some x => exact h x rfl
theorem KeptP.mk {α : Type} {s t : State} {x : α} (h : Kept s t) : KeptP s (x, t) := h
theorem KeptP.ite {α : Type} {s : State} {a b : α × State} {c : Prop} [Decidable c] (h : KeptP s a) (k : KeptP s b) :
    KeptP s (if c then a else b) := by split <;> assumption
theorem KeptP.trans {α : Type} {s u : State} {p : α × State} (h : Kept s u) (k : KeptP u p) : KeptP s p := Kept.trans h k
theorem KeptQ.mk {α β : Type} {s t : State} {x : α} {y : β} (h : Kept s t) : KeptQ s (x, y, t) := h
theorem KeptQ.ite {α β : Type} {s : State} {a b : α × β × State} {c : Prop} [Decidable c] (h : KeptQ s a) (k : KeptQ s b) :
    KeptQ s (if c then a else b) := by split <;> assumption
theorem KeptQ.trans {α β : Type} {s u : State} {p : α × β × State} (h : Kept s u) (k : KeptQ u p) : KeptQ s p :=
  Kept.trans h k
theorem KeptO.mk {s t : State} (h : Kept s t) : KeptO s (some t) := fun u e => by cases e; exact h
theorem KeptO.none (s : State) : KeptO s none := fun u e => by cases e
theorem KeptO.ite {s : State} {a b : Option State} {c : Prop} [Decidable c] (h : KeptO s a) (k : KeptO s b) :
    KeptO s (if c then a else b) := by split <;> assumption
theorem KeptO.trans {s u : State} {o : Option State} (h : Kept s u) (k : KeptO u o) : KeptO s o :=
  fun t e => h.trans (k t e)
theorem KeptOP.mk {α : Type} {s : State} {p : α × State} (h : KeptP s p) : KeptOP s (some p) :=
  fun u e => by cases e; exact h
theorem KeptOP.none {α : Type} (s : State) : KeptOP (α := α) s none := fun u e => by cases e
theorem KeptOP.ite {α : Type} {s : State} {a b : Option (α × State)} {c : Prop} [Decidable c] (h : KeptOP s a)
    (k : KeptOP s b) : KeptOP s (if c then a else b) := by split <;> assumption
theorem KeptOP.trans {α : Type} {s u : State} {o : Option (α × State)} (h : Kept s u) (k : KeptOP u o) : KeptOP s o :=
  fun t e => h.trans (k t e)
theorem KeptOP.map {α : Type} {s : State} {o : Option α} {f : α → α × State} (h : ∀ x, KeptP s (f x)) :
    KeptOP s (o.map f) := by
  cases o with
  | none => exact KeptOP.none s
  | some x => exact KeptOP.mk (h x)
theorem KeptR.mk {s t : State} (h : Kept s t) : KeptR s (.next t) := fun u e => by cases e; exact h
theorem KeptR.ite {s : State} {a b : Host.Outcome State Fault Refusal} {c : Prop} [Decidable c] (h : KeptR s a)
    (k : KeptR s b) : KeptR s (if c then a else b) := by split <;> assumption
theorem KeptR.trans {s u : State} {o : Host.Outcome State Fault Refusal} (h : Kept s u) (k : KeptR u o) : KeptR s o :=
  fun t e => h.trans (k t e)
theorem KeptR.fault {s : State} {r : Fault} : KeptR s (.fault r) := fun u e => by cases e

/-! ## Ops -/

theorem State.modChan_kept (s : State) (n : Fin 64) (f : Chan → Chan) : Kept s (State.modChan s n f) := by
  unfold State.modChan
  exact Kept.same rfl rfl rfl rfl rfl rfl
theorem State.modGrove_kept (s : State) (g : Fin 8) (f : Grove → Grove) : Kept s (State.modGrove s g f) := by
  unfold State.modGrove
  exact Kept.same rfl rfl rfl rfl rfl rfl
theorem State.modAd_kept (s : State) (d : Fin 3) (f : AngleDom → AngleDom) : Kept s (State.modAd s d f) := by
  unfold State.modAd
  exact Kept.same rfl rfl rfl rfl rfl rfl
theorem State.modPl_kept (s : State) (i : Fin 2) (f : Checker → Checker) : Kept s (State.modPl s i f) := by
  unfold State.modPl
  exact Kept.same rfl rfl rfl rfl rfl rfl
theorem State.modTt_kept (s : State) (f : Timetable → Timetable) (h : ∀ x, (f x).cal = x.cal) : Kept s (s.modTt f) :=
  Kept.same rfl rfl rfl (h _) rfl rfl
theorem State.modMe_kept (s : State) (f : MicroEngine → MicroEngine) : Kept s (State.modMe s f) := by
  unfold State.modMe
  exact Kept.same rfl rfl rfl rfl rfl rfl
theorem State.modEng_kept (s : State) (e : Fin 8) (f : PinSeq → PinSeq)
    (h : ∀ p, (p.tx.length ≤ 8 → (f p).tx.length ≤ 8) ∧ (p.rx.length ≤ 8 → (f p).rx.length ≤ 8)) :
    Kept s (s.modEng e f) := by
  refine ⟨rfl, id, fun x j => ?_, id⟩
  simp only [State.modEng, at_vset]
  split
  · exact ⟨(h _).1 (x e).1, (h _).2 (x e).2⟩
  · exact x j
theorem State.modAfe_kept (s : State) (f : Afe → Afe) : Kept s (State.modAfe s f) := by
  unfold State.modAfe
  exact Kept.same rfl rfl rfl rfl rfl rfl
theorem State.modSc_kept (s : State) (f : Seating → Seating) (h : ∀ x, (f x).recs = x.recs) : Kept s (s.modSc f) :=
  Kept.same rfl rfl rfl rfl (h _) rfl
theorem State.modBoot_kept (s : State) (f : Boot → Boot) : Kept s (State.modBoot s f) := by
  unfold State.modBoot
  exact Kept.same rfl rfl rfl rfl rfl rfl
theorem State.modPwr_kept (s : State) (f : Power → Power) : Kept s (State.modPwr s f) := by
  unfold State.modPwr
  exact Kept.same rfl rfl rfl rfl rfl rfl
theorem State.modCanopy_kept (s : State) (f : Canopy → Canopy) : Kept s (State.modCanopy s f) := by
  unfold State.modCanopy
  exact Kept.same rfl rfl rfl rfl rfl rfl
theorem State.modTbs_kept (s : State) (f : Timebase → Timebase) : Kept s (State.modTbs s f) := by
  unfold State.modTbs
  exact Kept.same rfl rfl rfl rfl rfl rfl
theorem State.modPins_kept (s : State) (f : Pins → Pins) : Kept s (State.modPins s f) := by
  unfold State.modPins
  exact Kept.same rfl rfl rfl rfl rfl rfl
theorem State.modMem_kept (s : State) (f : Mem → Mem) (h : (f s.mem).cells = s.mem.cells) : Kept s (s.modMem f) :=
  Kept.same rfl h rfl rfl rfl rfl
theorem State.modBank_kept (s : State) (b : Fin 8) (f : Bank → Bank) : Kept s (State.modBank s b f) := by
  unfold State.modBank
  refine Kept.trans ?_ (State.modMem_kept _ _ rfl)
  exact Kept.refl _
theorem State.modCw_kept (s : State) (n : Fin 16) (f : CircWin → CircWin) : Kept s (State.modCw s n f) := by
  unfold State.modCw
  exact Kept.same rfl rfl rfl rfl rfl rfl
theorem State.modDma_kept (s : State) (c : Fin 8) (f : DmaChan → DmaChan) : Kept s (State.modDma s c f) := by
  unfold State.modDma
  exact Kept.same rfl rfl rfl rfl rfl rfl
theorem State.modIntc_kept (s : State) (f : Intc → Intc) : Kept s (State.modIntc s f) := by
  unfold State.modIntc
  exact Kept.same rfl rfl rfl rfl rfl rfl
theorem State.modHp_kept (s : State) (f : Hp → Hp) : Kept s (State.modHp s f) := by
  unfold State.modHp
  exact Kept.same rfl rfl rfl rfl rfl rfl
theorem State.modLink_kept (s : State) (l : Fin 4) (f : Hl → Hl) : Kept s (State.modLink s l f) := by
  unfold State.modLink
  exact Kept.same rfl rfl rfl rfl rfl rfl
theorem State.modTsi_kept (s : State) (f : Tsi → Tsi) (h : ∀ x, (f x).conn = x.conn) : Kept s (s.modTsi f) :=
  Kept.same rfl rfl rfl rfl rfl (h _)
theorem State.modSmb_kept (s : State) (k : Fin 2) (f : Smb → Smb) : Kept s (State.modSmb s k f) := by
  unfold State.modSmb
  exact Kept.same rfl rfl rfl rfl rfl rfl
theorem State.modPack_kept (s : State) (f : Pack → Pack) : Kept s (State.modPack s f) := by
  unfold State.modPack
  exact Kept.same rfl rfl rfl rfl rfl rfl
theorem State.modMsp_kept (s : State) (m : Fin 2) (f : Msp → Msp) : Kept s (State.modMsp s m f) := by
  unfold State.modMsp
  exact Kept.same rfl rfl rfl rfl rfl rfl
theorem State.modFlt_kept (s : State) (f : Flt → Flt) : Kept s (State.modFlt s f) := by
  unfold State.modFlt
  exact Kept.same rfl rfl rfl rfl rfl rfl
theorem State.modUpd_kept (s : State) (f : Upd → Upd) : Kept s (State.modUpd s f) := by
  unfold State.modUpd
  exact Kept.same rfl rfl rfl rfl rfl rfl
theorem State.modSvc_kept (s : State) (f : Svc → Svc) : Kept s (State.modSvc s f) := by
  unfold State.modSvc
  exact Kept.same rfl rfl rfl rfl rfl rfl
theorem State.modPm_kept (s : State) (f : Perf → Perf) : Kept s (State.modPm s f) := by
  unfold State.modPm
  exact Kept.same rfl rfl rfl rfl rfl rfl
theorem State.modRs_kept (s : State) (f : RecStore → RecStore) : Kept s (State.modRs s f) := by
  unfold State.modRs
  exact Kept.same rfl rfl rfl rfl rfl rfl
theorem State.modCyc_kept (s : State) (f : Cycle → Cycle) : Kept s (State.modCyc s f) := by
  unfold State.modCyc
  exact Kept.same rfl rfl rfl rfl rfl rfl
theorem State.hwSet_kept (s : State) (a : Nat) (bits : Word) : Kept s (State.hwSet s a bits) := by
  unfold State.hwSet
  exact (State.modCyc_kept _ _)
theorem State.whenUp_kept (s : State) (up : Bool) {f : State → State} (h : ∀ s, Kept s (f s)) : Kept s (State.whenUp s up f) := by
  unfold State.whenUp
  exact Kept.ite (h s) (Kept.refl s)
theorem State.modClient_kept (s : State) (c : Fin 256) (f : ClientRec → ClientRec) : Kept s (s.modClient c f) :=
  ⟨rfl, id, id, fun h => ⟨h.1, cellWf_write _ _ _ _ h.2.1, h.2.2⟩⟩
theorem State.answer_kept (s : State) (w : Word) : Kept s (State.answer s w) := by
  unfold State.answer
  exact Kept.same rfl rfl rfl rfl rfl rfl
theorem State.answered_kept (s : State) {x : Word × State} (h : Kept s x.2) : Kept s (State.answered s x) :=
  h.trans (Kept.same rfl rfl rfl rfl rfl rfl)
theorem State.free_kept (s : State) : KeptP s (State.free s) := by
  unfold State.free
  refine KeptP.mk ?_
  exact Kept.same rfl rfl rfl rfl rfl rfl
theorem State.report_kept (s : State) (mech : Nat) (kind : Nat) (index : Nat) (detail : Nat) : Kept s (State.report s mech kind index detail) := by
  unfold State.report
  exact Kept.same rfl rfl rfl rfl rfl rfl
theorem State.fltBack_kept (s : State) (u : Nat) : Kept s (State.fltBack s u) := by
  unfold State.fltBack
  exact (State.modFlt_kept _ _)
theorem State.post_kept (s : State) (rank : Nat) (c : Fin 256) (type : Nat) (crit : Bool) (info : Nat) (w1 : Word) (w2 : Word) (w3 : Word) : Kept s (State.post s rank c type crit info w1 w2 w3) := by
  unfold State.post
  try dsimp only
  refine Kept.trans ?_ (State.modSc_kept _ _ fun _ => rfl)
  exact (State.modClient_kept _ _ _)
theorem State.request_kept (s : State) (src : ReqSrc) (e : EventRegs) : Kept s (State.request s src e) := by
  unfold State.request
  refine Kept.trans ?_ (State.modTt_kept _ _ fun _ => rfl)
  exact Kept.refl _
theorem State.dropRequest_kept (s : State) (src : ReqSrc) : Kept s (State.dropRequest s src) := by
  unfold State.dropRequest
  refine Kept.trans ?_ (State.modTt_kept _ _ fun _ => rfl)
  exact Kept.refl _
theorem State.hpFlag_kept (s : State) (b : BitVec 5) : Kept s (State.hpFlag s b) := by
  unfold State.hpFlag
  refine Kept.trans ?_ (State.hwSet_kept _ _ _)
  exact (State.modHp_kept _ _)
theorem State.raiseChan_kept (s : State) (n : Fin 64) (b : BitVec 16) : Kept s (State.raiseChan s n b) := by
  unfold State.raiseChan
  try dsimp only
  refine Kept.ite ?_ ?_
  · exact Kept.refl _
  · try dsimp only
    refine Kept.ite ?_ ?_
    · refine Kept.trans ?_ (State.request_kept _ _ _)
      refine Kept.trans ?_ (State.hwSet_kept _ _ _)
      exact (State.modChan_kept _ _ _)
    · refine Kept.trans ?_ (State.hwSet_kept _ _ _)
      exact (State.modChan_kept _ _ _)
theorem State.raiseAd_kept (s : State) (d : Fin 3) (b : BitVec 16) : Kept s (State.raiseAd s d b) := by
  unfold State.raiseAd
  try dsimp only
  refine Kept.ite ?_ ?_
  · refine Kept.trans ?_ (State.request_kept _ _ _)
    refine Kept.trans ?_ (State.hwSet_kept _ _ _)
    exact (State.modAd_kept _ _ _)
  · refine Kept.trans ?_ (State.hwSet_kept _ _ _)
    exact (State.modAd_kept _ _ _)
theorem State.raisePs_kept (s : State) (e : Fin 8) (b : BitVec 16) : Kept s (State.raisePs s e b) := by
  unfold State.raisePs
  try dsimp only
  refine Kept.ite ?_ ?_
  · refine Kept.trans ?_ (State.request_kept _ _ _)
    refine Kept.trans ?_ (State.hwSet_kept _ _ _)
    refine Kept.trans ?_ (State.modEng_kept _ _ _ fun _ => by refine ⟨fun _ => ?_, fun _ => ?_⟩ <;> first | assumption | exact Nat.zero_le _)
    exact Kept.refl _
  · refine Kept.trans ?_ (State.hwSet_kept _ _ _)
    refine Kept.trans ?_ (State.modEng_kept _ _ _ fun _ => by refine ⟨fun _ => ?_, fun _ => ?_⟩ <;> first | assumption | exact Nat.zero_le _)
    exact Kept.refl _
theorem State.modAdc_kept (s : State) (a : Fin 2) (f : Adc → Adc) : Kept s (State.modAdc s a f) := by
  unfold State.modAdc
  exact (State.modAfe_kept _ _)
theorem State.raiseAdc_kept (s : State) (a : Fin 2) (b : BitVec 16) : Kept s (State.raiseAdc s a b) := by
  unfold State.raiseAdc
  try dsimp only
  refine Kept.ite ?_ ?_
  · refine Kept.trans ?_ (State.request_kept _ _ _)
    refine Kept.trans ?_ (State.hwSet_kept _ _ _)
    exact (State.modAdc_kept _ _ _)
  · refine Kept.trans ?_ (State.hwSet_kept _ _ _)
    exact (State.modAdc_kept _ _ _)
theorem State.raiseTsi_kept (s : State) (b : BitVec 16) : Kept s (State.raiseTsi s b) := by
  unfold State.raiseTsi
  try dsimp only
  refine Kept.ite ?_ ?_
  · refine Kept.trans ?_ (State.request_kept _ _ _)
    refine Kept.trans ?_ (State.hwSet_kept _ _ _)
    refine Kept.trans ?_ (State.modTsi_kept _ _ fun _ => rfl)
    exact Kept.refl _
  · refine Kept.trans ?_ (State.hwSet_kept _ _ _)
    refine Kept.trans ?_ (State.modTsi_kept _ _ fun _ => rfl)
    exact Kept.refl _
theorem State.dmaFlag_kept (s : State) (c : Fin 8) (b : BitVec 5) : Kept s (State.dmaFlag s c b) := by
  unfold State.dmaFlag
  refine Kept.trans ?_ (State.hwSet_kept _ _ _)
  exact (State.modDma_kept _ _ _)
theorem State.dmaError_kept (s : State) (c : Fin 8) (code : Nat) : Kept s (State.dmaError s c code) := by
  unfold State.dmaError
  refine Kept.trans ?_ (State.modCyc_kept _ _)
  refine Kept.trans ?_ (State.dmaFlag_kept _ _ _)
  exact (State.modDma_kept _ _ _)

/-! ## Channels -/

theorem State.modOut_kept (s : State) (n : Fin 64) (f : Output → Output) : Kept s (State.modOut s n f) := by
  unfold State.modOut
  exact (State.modChan_kept _ _ _)
theorem State.modCnt_kept (s : State) (n : Fin 64) (f : Counter → Counter) : Kept s (State.modCnt s n f) := by
  unfold State.modCnt
  exact (State.modChan_kept _ _ _)
theorem State.setOstat_kept (s : State) (n : Fin 64) (b : BitVec 8) : Kept s (State.setOstat s n b) := by
  unfold State.setOstat
  refine Kept.trans ?_ (State.hwSet_kept _ _ _)
  exact (State.modOut_kept _ _ _)
theorem State.settlePair_kept (s : State) (n : Fin 64) : Kept s (State.settlePair s n) := by
  unfold State.settlePair
  try dsimp only
  refine Kept.trans ?_ (State.modOut_kept _ _ _)
  exact (State.modOut_kept _ _ _)
theorem State.setCause_kept (s : State) (n : Fin 64) (b : BitVec 11) : Kept s (State.setCause s n b) := by
  unfold State.setCause
  refine Kept.trans ?_ (State.settlePair_kept _ _)
  exact (State.modOut_kept _ _ _)
theorem State.clearCause_kept (s : State) (n : Fin 64) (b : BitVec 11) : Kept s (State.clearCause s n b) := by
  unfold State.clearCause
  refine Kept.trans ?_ (State.settlePair_kept _ _)
  exact (State.modOut_kept _ _ _)
theorem State.unlink_kept (s : State) (m : Fin 64) : Kept s (State.unlink s m) := by
  unfold State.unlink
  refine Kept.trans ?_ (Kept.fin (fun _ _ => ?_) _)
  · exact Kept.refl _
  · refine Kept.ite ?_ ?_
    · try dsimp only
      refine Kept.ite ?_ ?_
      · refine Kept.trans ?_ (State.clearCause_kept _ _ _)
        exact (State.modOut_kept _ _ _)
      · exact (State.modOut_kept _ _ _)
    · exact Kept.refl _
theorem State.settleLkdup_kept (s : State) : Kept s (State.settleLkdup s) := by
  unfold State.settleLkdup
  refine Kept.trans ?_ (Kept.fin (fun _ _ => ?_) _)
  · exact Kept.refl _
  · try dsimp only
    refine Kept.ite ?_ ?_
    · exact (State.setOstat_kept _ _ _)
    · exact Kept.refl _
theorem State.markHead_kept (s : State) (n : Fin 64) : Kept s (State.markHead s n) := by
  unfold State.markHead
  refine Kept.trans ?_ (State.modCyc_kept _ _)
  exact (State.modOut_kept _ _ _)
theorem State.noteUnder_kept (s : State) (n : Fin 64) : Kept s (State.noteUnder s n) := by
  unfold State.noteUnder
  refine Kept.ite ?_ ?_
  · try dsimp only
    refine Kept.ite ?_ ?_
    · refine Kept.trans ?_ (State.setCause_kept _ _ _)
      refine Kept.trans ?_ (State.modOut_kept _ _ _)
      exact (State.setOstat_kept _ _ _)
    · refine Kept.trans ?_ (State.modOut_kept _ _ _)
      exact (State.setOstat_kept _ _ _)
  · exact Kept.refl _
theorem State.fireHead_kept (s : State) (n : Fin 64) : Kept s (State.fireHead s n) := by
  unfold State.fireHead
  try dsimp only
  split
  · exact Kept.refl _
  · try dsimp only
    refine Kept.trans ?_ (State.noteUnder_kept _ _)
    refine Kept.trans ?_ (State.markHead_kept _ _)
    refine Kept.trans ?_ (State.modCyc_kept _ _)
    refine Kept.trans ?_ (State.setOstat_kept _ _ _)
    exact (State.modOut_kept _ _ _)
theorem State.pushEdge_kept (s : State) (n : Fin 64) (w : Word) (tgt : W48) : Kept s (State.pushEdge s n w tgt) := by
  unfold State.pushEdge
  try dsimp only
  refine Kept.ite ?_ ?_
  · exact (State.setOstat_kept _ _ _)
  · try dsimp only
    try dsimp only
    split
    · refine Kept.trans ?_ (State.setOstat_kept _ _ _)
      refine Kept.ite ?_ ?_
      · exact (State.setOstat_kept _ _ _)
      · exact Kept.refl _
    · refine Kept.ite ?_ ?_
      · refine Kept.trans ?_ (State.setOstat_kept _ _ _)
        refine Kept.ite ?_ ?_
        · exact (State.setOstat_kept _ _ _)
        · exact Kept.refl _
      · try dsimp only
        split
        · refine Kept.ite ?_ ?_
          · exact (State.setOstat_kept _ _ _)
          · exact Kept.refl _
        · try dsimp only
          refine Kept.ite ?_ ?_
          · refine Kept.trans ?_ (State.markHead_kept _ _)
            refine Kept.trans ?_ (State.modOut_kept _ _ _)
            refine Kept.ite ?_ ?_
            · exact (State.setOstat_kept _ _ _)
            · exact Kept.refl _
          · refine Kept.trans ?_ (State.modOut_kept _ _ _)
            refine Kept.ite ?_ ?_
            · exact (State.setOstat_kept _ _ _)
            · exact Kept.refl _
theorem State.loadShadow_kept (s : State) (n : Fin 64) (w : Word) (tgt : W48) : Kept s (State.loadShadow s n w tgt) := by
  unfold State.loadShadow
  try dsimp only
  try dsimp only
  split
  · refine Kept.ite ?_ ?_
    · try dsimp only
      refine Kept.trans ?_ (State.modCyc_kept _ _)
      exact (State.modOut_kept _ _ _)
    · exact (State.setOstat_kept _ _ _)
  · exact (State.setOstat_kept _ _ _)
theorem State.unfire_kept (s : State) (n : Fin 64) : Kept s (State.unfire s n) := by
  unfold State.unfire
  try dsimp only
  split
  · exact Kept.refl _
  · try dsimp only
    exact (State.modOut_kept _ _ _)
theorem State.flushQueue_kept (s : State) (n : Fin 64) : Kept s (State.flushQueue s n) := by
  unfold State.flushQueue
  refine Kept.trans ?_ (State.noteUnder_kept _ _)
  refine Kept.trans ?_ (State.modOut_kept _ _ _)
  exact (State.unfire_kept _ _)
theorem State.discardEdges_kept (s : State) (p : Edge → Bool) : Kept s (State.discardEdges s p) := by
  unfold State.discardEdges
  refine Kept.trans ?_ (Kept.fin (fun _ _ => ?_) _)
  · exact Kept.refl _
  · refine Kept.ite ?_ ?_
    · try dsimp only
      refine Kept.trans ?_ (State.noteUnder_kept _ _)
      refine Kept.ite ?_ ?_
      · refine Kept.trans ?_ (State.markHead_kept _ _)
        exact (State.modOut_kept _ _ _)
      · exact (State.modOut_kept _ _ _)
    · exact Kept.refl _
theorem State.noteValley_kept (s : State) (n : Fin 64) : Kept s (State.noteValley s n) := by
  unfold State.noteValley
  refine Kept.ite ?_ ?_
  · exact Kept.refl _
  · exact (State.modGrove_kept _ _ _)
theorem State.tickChan_kept (s : State) (n : Fin 64) (t : Tick) : Kept s (State.tickChan s n t) := by
  unfold State.tickChan
  try dsimp only
  refine Kept.ite ?_ ?_
  · refine Kept.trans ?_ (State.noteUnder_kept _ _)
    refine Kept.ite ?_ ?_
    · refine Kept.trans ?_ (State.noteValley_kept _ _)
      refine Kept.trans ?_ (State.raiseChan_kept _ _ _)
      exact (State.modChan_kept _ _ _)
    · refine Kept.trans ?_ (State.raiseChan_kept _ _ _)
      exact (State.modChan_kept _ _ _)
  · try dsimp only
    split
    · refine Kept.ite ?_ ?_
      · refine Kept.trans ?_ (State.fireHead_kept _ _)
        refine Kept.ite ?_ ?_
        · refine Kept.trans ?_ (State.noteValley_kept _ _)
          refine Kept.trans ?_ (State.raiseChan_kept _ _ _)
          exact (State.modChan_kept _ _ _)
        · refine Kept.trans ?_ (State.raiseChan_kept _ _ _)
          exact (State.modChan_kept _ _ _)
      · refine Kept.ite ?_ ?_
        · refine Kept.trans ?_ (State.noteUnder_kept _ _)
          refine Kept.trans ?_ (State.markHead_kept _ _)
          refine Kept.trans ?_ (State.setOstat_kept _ _ _)
          refine Kept.trans ?_ (State.modOut_kept _ _ _)
          refine Kept.ite ?_ ?_
          · refine Kept.trans ?_ (State.noteValley_kept _ _)
            refine Kept.trans ?_ (State.raiseChan_kept _ _ _)
            exact (State.modChan_kept _ _ _)
          · refine Kept.trans ?_ (State.raiseChan_kept _ _ _)
            exact (State.modChan_kept _ _ _)
        · refine Kept.trans ?_ (State.noteUnder_kept _ _)
          refine Kept.ite ?_ ?_
          · refine Kept.trans ?_ (State.noteValley_kept _ _)
            refine Kept.trans ?_ (State.raiseChan_kept _ _ _)
            exact (State.modChan_kept _ _ _)
          · refine Kept.trans ?_ (State.raiseChan_kept _ _ _)
            exact (State.modChan_kept _ _ _)
    · refine Kept.trans ?_ (State.noteUnder_kept _ _)
      refine Kept.ite ?_ ?_
      · refine Kept.trans ?_ (State.noteValley_kept _ _)
        refine Kept.trans ?_ (State.raiseChan_kept _ _ _)
        exact (State.modChan_kept _ _ _)
      · refine Kept.trans ?_ (State.raiseChan_kept _ _ _)
        exact (State.modChan_kept _ _ _)
theorem State.readmitStep_kept (s : State) (n : Fin 64) : Kept s (State.readmitStep s n) := by
  unfold State.readmitStep
  try dsimp only
  refine Kept.ite ?_ ?_
  · refine Kept.ite ?_ ?_
    · refine Kept.trans ?_ (State.clearCause_kept _ _ _)
      exact (State.modOut_kept _ _ _)
    · exact (State.modOut_kept _ _ _)
  · exact Kept.refl _
theorem State.leaveClearing_kept (s1 : State) (s : State) (n : Fin 64) : Kept s (State.leaveClearing s1 s n) := by
  unfold State.leaveClearing
  try dsimp only
  refine Kept.ite ?_ ?_
  · refine Kept.ite ?_ ?_
    · try dsimp only
      refine Kept.trans ?_ (State.unlink_kept _ _)
      refine Kept.trans ?_ (State.unlink_kept _ _)
      refine Kept.trans ?_ (State.modOut_kept _ _ _)
      exact (State.modOut_kept _ _ _)
    · exact Kept.refl _
  · refine Kept.ite ?_ ?_
    · refine Kept.trans ?_ (State.unlink_kept _ _)
      exact (State.modOut_kept _ _ _)
    · exact Kept.refl _
theorem State.settleArm_kept (s : State) (g : Fin 8) : Kept s (State.settleArm s g) := by
  unfold State.settleArm
  try dsimp only
  refine Kept.ite ?_ ?_
  · exact (State.modGrove_kept _ _ _)
  · exact Kept.refl _
theorem State.settleRdm_kept (s : State) (g : Fin 8) : Kept s (State.settleRdm s g) := by
  unfold State.settleRdm
  refine Kept.ite ?_ ?_
  · refine Kept.trans ?_ (State.hwSet_kept _ _ _)
    exact (State.modGrove_kept _ _ _)
  · exact Kept.refl _
theorem State.beginRun_kept (s : State) (n : Fin 64) (cnt : W48) (down : Bool) : Kept s (State.beginRun s n cnt down) := by
  unfold State.beginRun
  try dsimp only
  refine Kept.trans ?_ (State.clearCause_kept _ _ _)
  exact (State.modChan_kept _ _ _)
theorem State.refuseStart_kept (s : State) (n : Fin 64) : Kept s (State.refuseStart s n) := by
  unfold State.refuseStart
  exact (State.modCnt_kept _ _ _)
theorem State.startChan_kept (s : State) (n : Fin 64) (v : W48 × Bool) : Kept s (State.startChan s n v) := by
  unfold State.startChan
  try dsimp only
  refine Kept.ite ?_ ?_
  · exact Kept.refl _
  · refine Kept.ite ?_ ?_
    · exact (State.beginRun_kept _ _ _ _)
    · exact (State.refuseStart_kept _ _)
theorem State.runTicks_kept (s1 : State) (s : State) (ts : List (Fin 64 × Tick)) : Kept s (State.runTicks s1 s ts) := by
  unfold State.runTicks
  try dsimp only
  refine Kept.trans ?_ (Kept.foldl (fun _ _ => ?_) _ _)
  · refine Kept.trans ?_ (Kept.foldl (fun _ _ => ?_) _ _)
    · refine Kept.trans ?_ (Kept.foldl (fun _ _ => ?_) _ _)
      · refine Kept.trans ?_ (Kept.foldl (fun _ _ => ?_) _ _)
        · exact Kept.refl _
        · exact (State.tickChan_kept _ _ _)
      · exact (State.readmitStep_kept _ _)
    · exact (State.leaveClearing_kept _ _ _)
  · exact (State.settleRdm_kept _ _)
theorem State.sendPulses_kept (s : State) (ms : List (Fin 64)) : Kept s (State.sendPulses s ms) := by
  unfold State.sendPulses
  refine Kept.ite ?_ ?_
  · exact Kept.refl _
  · try dsimp only
    refine Kept.trans ?_ (Kept.foldl (fun _ _ => ?_) _ _)
    · exact Kept.refl _
    · try dsimp only
      exact (State.modGrove_kept _ _ _)
theorem State.deliverPulses_kept (s : State) : Kept s (State.deliverPulses s) := by
  unfold State.deliverPulses
  try dsimp only
  refine Kept.ite ?_ ?_
  · exact Kept.refl _
  · try dsimp only
    refine Kept.trans ?_ (State.sendPulses_kept _ _)
    refine Kept.trans ?_ (State.modCyc_kept _ _)
    refine Kept.trans ?_ (State.runTicks_kept _ _ _)
    refine Kept.trans ?_ (Kept.foldl (fun _ _ => ?_) _ _)
    · refine Kept.trans ?_ (Kept.fin (fun _ _ => ?_) _)
      · exact Kept.refl _
      · exact (State.modGrove_kept _ _ _)
    · exact (State.startChan_kept _ _ _)
theorem State.groveTickWith_kept (s : State) (g : Fin 8) (starts : List (Fin 64)) (stagger : Bool) (zero : Bool) : Kept s (State.groveTickWith s g starts stagger zero) := by
  unfold State.groveTickWith
  try dsimp only
  refine Kept.trans ?_ (State.sendPulses_kept _ _)
  refine Kept.trans ?_ (State.runTicks_kept _ _ _)
  refine Kept.trans ?_ (Kept.foldl (fun _ _ => ?_) _ _)
  · exact (State.modGrove_kept _ _ _)
  · exact (State.startChan_kept _ _ _)
theorem State.groveTick_kept (s : State) (g : Fin 8) : Kept s (State.groveTick s g) := by
  unfold State.groveTick
  refine Kept.ite ?_ ?_
  · exact (State.groveTickWith_kept _ _ _ _ _)
  · exact Kept.refl _
theorem State.grvFlag_kept (s : State) (g : Fin 8) (b : Word) : Kept s (State.grvFlag s g b) := by
  unfold State.grvFlag
  refine Kept.trans ?_ (State.hwSet_kept _ _ _)
  exact (State.modGrove_kept _ _ _)
theorem State.groveStart_kept (s : State) (g : Fin 8) : Kept s (State.groveStart s g) := by
  unfold State.groveStart
  refine Kept.ite ?_ ?_
  · exact (State.grvFlag_kept _ _ _)
  · try dsimp only
    exact (State.groveTickWith_kept _ _ _ _ _)
theorem State.halt_kept (s : State) (n : Fin 64) : Kept s (State.halt s n) := by
  unfold State.halt
  try dsimp only
  refine Kept.trans ?_ (State.modGrove_kept _ _ _)
  refine Kept.trans ?_ (State.modCnt_kept _ _ _)
  refine Kept.ite ?_ ?_
  · exact (State.modCyc_kept _ _)
  · exact Kept.refl _
theorem State.stopChan_kept (s : State) (n : Fin 64) : Kept s (State.stopChan s n) := by
  unfold State.stopChan
  refine Kept.trans ?_ (State.setCause_kept _ _ _)
  exact (State.halt_kept _ _)
theorem State.groveStop_kept (s : State) (g : Fin 8) : Kept s (State.groveStop s g) := by
  unfold State.groveStop
  refine Kept.trans ?_ (Kept.foldl (fun _ _ => ?_) _ _)
  · exact Kept.refl _
  · exact (State.stopChan_kept _ _)
theorem State.chanGo_kept (s : State) (n : Fin 64) : Kept s (State.chanGo s n) := by
  unfold State.chanGo
  try dsimp only
  refine Kept.ite ?_ ?_
  · exact Kept.refl _
  · exact (State.modCnt_kept _ _ _)
theorem State.writePsc_kept (s : State) (g : Fin 8) (w : Word) : Kept s (State.writePsc s g w) := by
  unfold State.writePsc
  refine Kept.ite ?_ ?_
  · exact (State.grvFlag_kept _ _ _)
  · exact (State.modGrove_kept _ _ _)
theorem State.writeCtl_kept (s : State) (n : Fin 64) (w : Word) : Kept s (State.writeCtl s n w) := by
  unfold State.writeCtl
  try dsimp only
  refine Kept.ite ?_ ?_
  · refine Kept.trans ?_ (State.raiseChan_kept _ _ _)
    exact (State.modCnt_kept _ _ _)
  · exact (State.modCnt_kept _ _ _)
theorem State.writeReloadLo_kept (s : State) (n : Fin 64) (w : Word) : Kept s (State.writeReloadLo s n w) := by
  unfold State.writeReloadLo
  exact (State.modCnt_kept _ _ _)
theorem State.writeReloadHi_kept (s : State) (n : Fin 64) (w : Word) : Kept s (State.writeReloadHi s n w) := by
  unfold State.writeReloadHi
  try dsimp only
  refine Kept.ite ?_ ?_
  · exact (State.raiseChan_kept _ _ _)
  · refine Kept.ite ?_ ?_
    · exact (State.modCnt_kept _ _ _)
    · exact (State.modCnt_kept _ _ _)
theorem State.writeMatLo_kept (s : State) (n : Fin 64) (i : Fin 4) (w : Word) : Kept s (State.writeMatLo s n i w) := by
  unfold State.writeMatLo
  exact (State.modCnt_kept _ _ _)
theorem State.writeMatHi_kept (s : State) (n : Fin 64) (i : Fin 4) (w : Word) : Kept s (State.writeMatHi s n i w) := by
  unfold State.writeMatHi
  try dsimp only
  refine Kept.ite ?_ ?_
  · exact (State.modCnt_kept _ _ _)
  · refine Kept.trans ?_ (State.modCyc_kept _ _)
    exact (State.modCnt_kept _ _ _)
theorem State.writeCnt_kept (s : State) (n : Fin 64) (hi : Bool) (w : Word) : Kept s (State.writeCnt s n hi w) := by
  unfold State.writeCnt
  refine Kept.ite ?_ ?_
  · exact (State.raiseChan_kept _ _ _)
  · exact (State.modCnt_kept _ _ _)
theorem State.readCnt_kept (s : State) (n : Fin 64) (hi : Bool) : KeptP s (State.readCnt s n hi) := by
  unfold State.readCnt
  refine KeptP.ite ?_ ?_
  · refine KeptP.mk ?_
    exact (State.raiseChan_kept _ _ _)
  · refine KeptP.mk ?_
    exact Kept.refl _
theorem State.capture_kept (s : State) (n : Fin 64) (sw : Bool) (v : W48) (down : Bool) : Kept s (State.capture s n sw v down) := by
  unfold State.capture
  try dsimp only
  refine Kept.ite ?_ ?_
  · exact Kept.refl _
  · refine Kept.ite ?_ ?_
    · refine Kept.ite ?_ ?_
      · exact Kept.refl _
      · exact (State.modChan_kept _ _ _)
    · try dsimp only
      refine Kept.ite ?_ ?_
      · refine Kept.trans ?_ (State.sendPulses_kept _ _)
        refine Kept.trans ?_ (State.raiseChan_kept _ _ _)
        refine Kept.trans ?_ (State.modCyc_kept _ _)
        exact (State.modChan_kept _ _ _)
      · refine Kept.trans ?_ (State.raiseChan_kept _ _ _)
        refine Kept.trans ?_ (State.modCyc_kept _ _)
        exact (State.modChan_kept _ _ _)
theorem State.captureEdge_kept (s : State) (n : Fin 64) (level : Bool) : Kept s (State.captureEdge s n level) := by
  unfold State.captureEdge
  try dsimp only
  refine Kept.ite ?_ ?_
  · exact Kept.refl _
  · try dsimp only
    refine Kept.ite ?_ ?_
    · try dsimp only
      refine Kept.trans ?_ (State.capture_kept _ _ _ _ _)
      exact (State.modChan_kept _ _ _)
    · exact (State.modChan_kept _ _ _)
theorem State.swCapture_kept (s : State) (n : Fin 64) : Kept s (State.swCapture s n) := by
  unfold State.swCapture
  try dsimp only
  exact (State.capture_kept _ _ _ _ _)
theorem State.readCapLo_kept (s : State) (n : Fin 64) : KeptP s (State.readCapLo s n) := by
  unfold State.readCapLo
  try dsimp only
  try dsimp only
  split
  · try dsimp only
    refine KeptP.mk ?_
    refine Kept.trans ?_ (State.modChan_kept _ _ _)
    exact (State.modChan_kept _ _ _)
  · try dsimp only
    refine KeptP.mk ?_
    refine Kept.trans ?_ (State.raiseChan_kept _ _ _)
    refine Kept.trans ?_ (State.modChan_kept _ _ _)
    exact (State.modChan_kept _ _ _)
theorem State.readTb_kept (s : State) (hi : Bool) : KeptP s (State.readTb s hi) := by
  unfold State.readTb
  refine KeptP.ite ?_ ?_
  · refine KeptP.mk ?_
    refine Kept.trans ?_ (State.hwSet_kept _ _ _)
    exact (State.modTbs_kept _ _)
  · refine KeptP.mk ?_
    exact Kept.refl _
theorem State.tbSnap_kept (s : State) : Kept s (State.tbSnap s) := by
  unfold State.tbSnap
  refine Kept.ite ?_ ?_
  · exact Kept.refl _
  · refine Kept.trans ?_ (State.modCyc_kept _ _)
    exact (State.modTbs_kept _ _)
theorem State.writeOcfg_kept (s : State) (n : Fin 64) (w : Word) : Kept s (State.writeOcfg s n w) := by
  unfold State.writeOcfg
  try dsimp only
  refine Kept.trans ?_ (State.noteUnder_kept _ _)
  refine Kept.ite ?_ ?_
  · refine Kept.trans ?_ (State.raiseChan_kept _ _ _)
    exact (State.modOut_kept _ _ _)
  · exact (State.modOut_kept _ _ _)
theorem State.armGrove_kept (s : State) (g : Fin 8) : Kept s (State.armGrove s g) := by
  unfold State.armGrove
  refine Kept.ite ?_ ?_
  · exact Kept.refl _
  · try dsimp only
    refine Kept.trans ?_ (State.modCyc_kept _ _)
    exact (State.modGrove_kept _ _ _)
theorem State.release_kept (s : State) (n : Fin 64) (b : BitVec 11) : Kept s (State.release s n b) := by
  unfold State.release
  refine Kept.trans ?_ (State.modCyc_kept _ _)
  exact (State.clearCause_kept _ _ _)
theorem State.releaseSw_kept (s : State) (n : Fin 64) : Kept s (State.releaseSw s n) := by
  unfold State.releaseSw
  refine Kept.trans ?_ (State.noteUnder_kept _ _)
  exact (State.release_kept _ _ _)
theorem State.releaseSync_kept (s : State) (n : Fin 64) : Kept s (State.releaseSync s n) := by
  unfold State.releaseSync
  try dsimp only
  refine Kept.ite ?_ ?_
  · exact (State.release_kept _ _ _)
  · exact Kept.refl _
theorem State.flushCmd_kept (s : State) (n : Fin 64) : Kept s (State.flushCmd s n) := by
  unfold State.flushCmd
  refine Kept.ite ?_ ?_
  · exact (State.setOstat_kept _ _ _)
  · exact (State.flushQueue_kept _ _)
theorem State.releaseTrip_kept (s : State) (g : Fin 8) : Kept s (State.releaseTrip s g) := by
  unfold State.releaseTrip
  refine Kept.ite ?_ ?_
  · exact Kept.refl _
  · refine Kept.trans ?_ (Kept.foldl (fun _ _ => ?_) _ _)
    · exact Kept.refl _
    · exact (State.release_kept _ _ _)
theorem State.rdmGo_kept (s : State) (g : Fin 8) : Kept s (State.rdmGo s g) := by
  unfold State.rdmGo
  refine Kept.ite ?_ ?_
  · exact (State.grvFlag_kept _ _ _)
  · try dsimp only
    refine Kept.trans ?_ (State.groveTickWith_kept _ _ _ _ _)
    exact (State.modGrove_kept _ _ _)
theorem State.writeCapcfg_kept (s : State) (n : Fin 64) (w : Word) : Kept s (State.writeCapcfg s n w) := by
  unfold State.writeCapcfg
  try dsimp only
  exact (State.modChan_kept _ _ _)
theorem State.haltOnPair_kept (s : State) (n : Fin 64) : Kept s (State.haltOnPair s n) := by
  unfold State.haltOnPair
  try dsimp only
  split
  · exact Kept.refl _
  · refine Kept.trans ?_ (State.raisePs_kept _ _ _)
    refine Kept.trans ?_ (State.modEng_kept _ _ _ fun _ => by refine ⟨fun _ => ?_, fun _ => ?_⟩ <;> first | assumption | exact Nat.zero_le _)
    exact Kept.refl _
theorem State.writePair_kept (s : State) (n : Fin 64) (w : Word) : Kept s (State.writePair s n w) := by
  unfold State.writePair
  refine Kept.ite ?_ ?_
  · exact Kept.refl _
  · try dsimp only
    refine Kept.ite ?_ ?_
    · refine Kept.trans ?_ (State.haltOnPair_kept _ _)
      refine Kept.trans ?_ (State.haltOnPair_kept _ _)
      refine Kept.trans ?_ (State.settlePair_kept _ _)
      refine Kept.ite ?_ ?_
      · refine Kept.trans ?_ (State.raiseChan_kept _ _ _)
        exact (State.modOut_kept _ _ _)
      · exact (State.modOut_kept _ _ _)
    · refine Kept.trans ?_ (State.settlePair_kept _ _)
      refine Kept.ite ?_ ?_
      · refine Kept.trans ?_ (State.raiseChan_kept _ _ _)
        exact (State.modOut_kept _ _ _)
      · exact (State.modOut_kept _ _ _)
theorem State.readbackMismatch_kept (s : State) (n : Fin 64) : Kept s (State.readbackMismatch s n) := by
  unfold State.readbackMismatch
  refine Kept.ite ?_ ?_
  · refine Kept.trans ?_ (State.report_kept _ _ _ _ _)
    refine Kept.trans ?_ (State.setCause_kept _ _ _)
    exact (State.setOstat_kept _ _ _)
  · exact Kept.refl _
theorem State.fenceChan_kept (s : State) (n : Fin 64) (by_ : BitVec 4) : Kept s (State.fenceChan s n by_) := by
  unfold State.fenceChan
  try dsimp only
  refine Kept.ite ?_ ?_
  · refine Kept.trans ?_ (State.setCause_kept _ _ _)
    refine Kept.trans ?_ (State.clearCause_kept _ _ _)
    exact (State.modOut_kept _ _ _)
  · try dsimp only
    refine Kept.trans ?_ (Kept.fin (fun _ _ => ?_) _)
    · refine Kept.trans ?_ (State.setCause_kept _ _ _)
      refine Kept.trans ?_ (State.dropRequest_kept _ _)
      refine Kept.trans ?_ (State.modChan_kept _ _ _)
      refine Kept.trans ?_ (State.halt_kept _ _)
      refine Kept.trans ?_ (State.setCause_kept _ _ _)
      refine Kept.trans ?_ (State.clearCause_kept _ _ _)
      exact (State.modOut_kept _ _ _)
    · refine Kept.ite ?_ ?_
      · refine Kept.trans ?_ (State.setCause_kept _ _ _)
        exact (State.modOut_kept _ _ _)
      · exact Kept.refl _
theorem State.unfenceChan_kept (s : State) (n : Fin 64) (by_ : BitVec 4) : Kept s (State.unfenceChan s n by_) := by
  unfold State.unfenceChan
  refine Kept.ite ?_ ?_
  · exact Kept.refl _
  · try dsimp only
    refine Kept.ite ?_ ?_
    · refine Kept.trans ?_ (State.clearCause_kept _ _ _)
      refine Kept.trans ?_ (State.setCause_kept _ _ _)
      refine Kept.ite ?_ ?_
      · refine Kept.trans ?_ (State.modChan_kept _ _ _)
        exact (State.modOut_kept _ _ _)
      · exact (State.modOut_kept _ _ _)
    · refine Kept.ite ?_ ?_
      · refine Kept.trans ?_ (State.modChan_kept _ _ _)
        exact (State.modOut_kept _ _ _)
      · exact (State.modOut_kept _ _ _)
theorem State.lasting_kept (s : State) (n : Fin 64) : Kept s (State.lasting s n) := by
  unfold State.lasting
  try dsimp only
  refine Kept.trans ?_ (State.noteUnder_kept _ _)
  refine Kept.trans ?_ (State.settleLkdup_kept _)
  refine Kept.ite ?_ ?_
  · exact Kept.refl _
  · exact (State.modOut_kept _ _ _)
theorem State.shiftStage_kept (s : State) (n : Fin 64) : Kept s (State.shiftStage s n) := by
  unfold State.shiftStage
  try dsimp only
  exact (State.modOut_kept _ _ _)
theorem State.channelCycle_kept (s : State) : Kept s (State.channelCycle s) := by
  unfold State.channelCycle
  try dsimp only
  refine Kept.trans ?_ (State.deliverPulses_kept _)
  refine Kept.ite ?_ ?_
  · refine Kept.trans ?_ (Kept.fin (fun _ _ => ?_) _)
    · exact Kept.refl _
    · refine Kept.trans ?_ (State.settleArm_kept _ _)
      exact (State.modGrove_kept _ _ _)
  · refine Kept.trans ?_ (Kept.fin (fun _ _ => ?_) _)
    · refine Kept.trans ?_ (Kept.fin (fun _ _ => ?_) _)
      · exact Kept.refl _
      · refine Kept.trans ?_ (State.settleArm_kept _ _)
        exact (State.modGrove_kept _ _ _)
    · exact (State.modOut_kept _ _ _)
theorem State.fenceGrove_kept (s : State) (g : Fin 8) : Kept s (State.fenceGrove s g) := by
  unfold State.fenceGrove
  refine Kept.trans ?_ (Kept.foldl (fun _ _ => ?_) _ _)
  · exact (State.modGrove_kept _ _ _)
  · exact (State.fenceChan_kept _ _ _)
theorem State.unfenceGrove_kept (s : State) (g : Fin 8) : Kept s (State.unfenceGrove s g) := by
  unfold State.unfenceGrove
  refine Kept.trans ?_ (Kept.foldl (fun _ _ => ?_) _ _)
  · exact Kept.refl _
  · exact (State.unfenceChan_kept _ _ _)

/-! ## Store -/

theorem State.rsEnqueue_kept (s : State) (type : Nat) (index : Nat) (data : List Byte) : Kept s (State.rsEnqueue s type index data) := by
  unfold State.rsEnqueue
  try dsimp only
  exact (State.modRs_kept _ _)
theorem State.writeLife_kept (s : State) : Kept s (State.writeLife s) := by
  unfold State.writeLife
  refine Kept.trans ?_ (State.modPm_kept _ _)
  exact (State.rsEnqueue_kept _ _ _ _)
theorem State.storeLog_kept (s : State) : Kept s (State.storeLog s) := by
  unfold State.storeLog
  refine Kept.trans ?_ (State.modFlt_kept _ _)
  exact (State.rsEnqueue_kept _ _ _ _)

/-! ## Angle -/

theorem State.startSweep_kept (s : State) (d : Fin 3) (why : SweepWhy) : Kept s (State.startSweep s d why) := by
  refine ⟨rfl, id, id, fun h => ⟨cellWf_map ({} : CalEntry) _ (fun p => ?_) (fun p hp => ?_) _ h.1, h.2⟩⟩
  · split <;> rfl
  · split
    · rename_i hc
      intro e
      exact hc.1 (congrArg CalEntry.st e)
    · exact hp
theorem State.dropAngleEdges_kept (s : State) (d : Fin 3) : Kept s (State.dropAngleEdges s d) := by
  unfold State.dropAngleEdges
  exact (State.discardEdges_kept _ _)
theorem State.endAngles_kept (s : State) (d : Fin 3) (before : AngleDom) (why : SweepWhy) : Kept s (State.endAngles s d before why) := by
  unfold State.endAngles
  try dsimp only
  refine Kept.trans ?_ (State.startSweep_kept _ _ _)
  refine Kept.trans ?_ (State.dropAngleEdges_kept _ _)
  refine Kept.trans ?_ (Kept.foldl (fun _ _ => ?_) _ _)
  · exact (State.modCyc_kept _ _)
  · refine Kept.ite ?_ ?_
    · exact (State.unfire_kept _ _)
    · exact Kept.refl _
theorem State.loseDomain_kept (s : State) (d : Fin 3) (reason : Nat) : Kept s (State.loseDomain s d reason) := by
  unfold State.loseDomain
  try dsimp only
  refine Kept.ite ?_ ?_
  · exact Kept.refl _
  · refine Kept.ite ?_ ?_
    · refine Kept.ite ?_ ?_
      · exact (State.modAd_kept _ _ _)
      · exact Kept.refl _
    · try dsimp only
      refine Kept.trans ?_ (State.endAngles_kept _ _ _ _)
      refine Kept.trans ?_ (State.raiseAd_kept _ _ _)
      exact (State.modAd_kept _ _ _)
theorem State.dropDomain_kept (s : State) (d : Fin 3) (reason : Nat) : Kept s (State.dropDomain s d reason) := by
  unfold State.dropDomain
  try dsimp only
  refine Kept.ite ?_ ?_
  · try dsimp only
    refine Kept.trans ?_ (State.endAngles_kept _ _ _ _)
    refine Kept.trans ?_ (State.raiseAd_kept _ _ _)
    exact (State.modAd_kept _ _ _)
  · refine Kept.ite ?_ ?_
    · exact (State.modAd_kept _ _ _)
    · exact Kept.refl _
theorem State.exitDomain_kept (s : State) (d : Fin 3) (reason : Nat) (lost : Bool) : Kept s (State.exitDomain s d reason lost) := by
  unfold State.exitDomain
  refine Kept.ite ?_ ?_
  · exact (State.loseDomain_kept _ _ _)
  · exact (State.dropDomain_kept _ _ _)
theorem State.releaseHolds_kept (s0 s : State) : Kept s (State.releaseHolds s0 s) := by
  unfold State.releaseHolds
  exact Kept.fin (fun d s => Kept.ite (State.modAd_kept _ _ _) (Kept.refl s)) s
theorem State.takeHolds_kept (s0 : State) (s : State) : Kept s (State.takeHolds s0 s) := by
  unfold State.takeHolds
  refine Kept.trans ?_ (Kept.fin (fun _ _ => ?_) _)
  · exact Kept.refl _
  · refine Kept.ite ?_ ?_
    · exact (State.loseDomain_kept _ _ _)
    · exact Kept.refl _
theorem State.lockDomain_kept (s : State) (d : Fin 3) : Kept s (State.lockDomain s d) := by
  unfold State.lockDomain
  try dsimp only
  refine Kept.trans ?_ (State.fltBack_kept _ _)
  refine Kept.trans ?_ (State.raiseAd_kept _ _ _)
  exact (State.modAd_kept _ _ _)
theorem State.candidateCheck_kept (s : State) (d : Fin 3) (ok : Bool) : Kept s (State.candidateCheck s d ok) := by
  unfold State.candidateCheck
  refine Kept.ite ?_ ?_
  · exact (State.modAd_kept _ _ _)
  · try dsimp only
    refine Kept.ite ?_ ?_
    · refine Kept.trans ?_ (State.lockDomain_kept _ _)
      exact (State.modAd_kept _ _ _)
    · exact (State.modAd_kept _ _ _)
theorem State.governor_kept (s : State) (d : Fin 3) : Kept s (State.governor s d) := by
  unfold State.governor
  dsimp only
  refine Kept.ite (Kept.refl s) (Kept.ite (Kept.ite (Kept.ite ?_ (State.modAd_kept _ _ _)) (State.modAd_kept _ _ _))
    (Kept.ite (Kept.ite ?_ (State.modAd_kept _ _ _)) (State.modAd_kept _ _ _)))
  · have h : ∀ (p : Perf) (f : AngleDom → AngleDom), Kept s { (s.modAd d f).raiseAd d aGOV with pm := p } := fun p f =>
      ((State.modAd_kept s d f).trans (State.raiseAd_kept _ d aGOV)).trans (Kept.same rfl rfl rfl rfl rfl rfl)
    exact (h _ _).trans (State.modAd_kept _ _ _)
  · exact ((State.modAd_kept _ _ _).trans (State.raiseAd_kept _ _ _)).trans (State.releaseHolds_kept _ _)
theorem State.governorCut_kept (s : State) (d : Fin 3) : Kept s (State.governorCut s d) := by
  unfold State.governorCut
  refine Kept.ite ?_ ?_
  · try dsimp only
    try dsimp only
    split
    · try dsimp only
      refine Kept.ite ?_ ?_
      · refine Kept.trans ?_ (State.modAd_kept _ _ _)
        refine Kept.trans ?_ (State.loseDomain_kept _ _ _)
        exact (State.modAd_kept _ _ _)
      · refine Kept.trans ?_ (State.loseDomain_kept _ _ _)
        exact (State.modAd_kept _ _ _)
    · exact (State.modAd_kept _ _ _)
  · exact Kept.refl _
theorem State.checkerTrip_kept (s : State) (i : Fin 2) : Kept s (State.checkerTrip s i) := by
  unfold State.checkerTrip
  dsimp only
  refine Kept.ite ?_ (Kept.refl s)
  have h : ∀ (p : Perf) (f : Checker → Checker) (a : Nat) (w : Word), Kept s { (s.modPl i f).hwSet a w with pm := p } :=
    fun p f a w => Kept.same rfl rfl rfl rfl rfl rfl
  split
  · exact Kept.ite (((h _ _ _ _).trans (State.raiseAd_kept _ _ _)).trans (State.loseDomain_kept _ _ _))
      ((h _ _ _ _).trans (State.raiseAd_kept _ _ _))
  · exact h _ _ _ _
theorem State.evaluate_kept (s1 : State) (i : Fin 2) (d : Fin 3) (s : State) : Kept s (State.evaluate s1 i d s) := by
  unfold State.evaluate
  dsimp only
  exact Kept.ite (Kept.ite (Kept.ite (State.modPl_kept _ _ _) (State.modPl_kept _ _ _)) (State.modPl_kept _ _ _)) (Kept.refl s)
theorem State.odometer_kept (s : State) (d : Fin 3) : Kept s (State.odometer s d) := by
  unfold State.odometer
  refine Kept.ite ?_ ?_
  · try dsimp only
    refine Kept.ite ?_ ?_
    · exact Kept.refl _
    · try dsimp only
      refine Kept.ite ?_ ?_
      · refine Kept.trans ?_ (State.writeLife_kept _)
        exact (State.modPm_kept _ _)
      · exact (State.modPm_kept _ _)
  · exact Kept.refl _
theorem State.lockedPitch_kept (s : State) (d : Fin 3) (k : Nat) : Kept s (State.lockedPitch s d k) := by
  unfold State.lockedPitch
  try dsimp only
  refine Kept.trans ?_ (State.governor_kept _ _)
  refine Kept.trans ?_ (State.evaluate_kept _ _ _ _)
  refine Kept.trans ?_ (State.evaluate_kept _ _ _ _)
  refine Kept.trans ?_ (State.odometer_kept _ _)
  exact (State.raiseAd_kept _ _ _)
theorem State.windowClose_kept (s : State) (d : Fin 3) : Kept s (State.windowClose s d) := by
  unfold State.windowClose
  try dsimp only
  refine Kept.ite ?_ ?_
  · refine Kept.ite ?_ ?_
    · exact (State.exitDomain_kept _ _ _ _)
    · refine Kept.ite ?_ ?_
      · exact Kept.refl _
      · exact (State.modAd_kept _ _ _)
  · exact Kept.refl _
theorem State.edgeFlags_kept (s : State) (d : Fin 3) (w : EdgeNews) : Kept s (State.edgeFlags s d w) := by
  unfold State.edgeFlags
  try dsimp only
  refine Kept.ite ?_ ?_
  · refine Kept.trans ?_ (State.raiseAd_kept _ _ _)
    refine Kept.trans ?_ (State.modAd_kept _ _ _)
    refine Kept.ite ?_ ?_
    · exact (State.raiseAd_kept _ _ _)
    · exact Kept.refl _
  · refine Kept.ite ?_ ?_
    · exact (State.raiseAd_kept _ _ _)
    · exact Kept.refl _
theorem State.applyNews_kept (s : State) (d : Fin 3) (was : AdState) (w : EdgeNews) : Kept s (State.applyNews s d was w) := by
  unfold State.applyNews
  try dsimp only
  split
  · try dsimp only
    split
    · exact (State.lockedPitch_kept _ _ _)
    · exact Kept.refl _
  · refine Kept.ite ?_ ?_
    · exact (State.modAd_kept _ _ _)
    · try dsimp only
      split
      · exact (State.candidateCheck_kept _ _ _)
      · exact Kept.refl _
  · refine Kept.ite ?_ ?_
    · exact (State.modAd_kept _ _ _)
    · refine Kept.ite ?_ ?_
      · exact (State.modAd_kept _ _ _)
      · exact Kept.refl _
  · exact Kept.refl _
theorem State.adInputEdge_kept (s : State) (d : Fin 3) (i : Fin 3) (level : Bool) : Kept s (State.adInputEdge s d i level) := by
  unfold State.adInputEdge
  refine Kept.ite ?_ ?_
  · exact Kept.refl _
  · try dsimp only
    refine Kept.ite ?_ ?_
    · try dsimp only
      try dsimp only
      split
      · refine Kept.trans ?_ (State.exitDomain_kept _ _ _ _)
        refine Kept.ite ?_ ?_
        · refine Kept.trans ?_ (State.edgeFlags_kept _ _ _)
          refine Kept.trans ?_ (State.modAd_kept _ _ _)
          refine Kept.trans ?_ (State.modAd_kept _ _ _)
          exact (State.windowClose_kept _ _)
        · refine Kept.trans ?_ (State.modAd_kept _ _ _)
          refine Kept.trans ?_ (State.modAd_kept _ _ _)
          exact (State.windowClose_kept _ _)
      · refine Kept.ite ?_ ?_
        · refine Kept.trans ?_ (State.edgeFlags_kept _ _ _)
          refine Kept.trans ?_ (State.modAd_kept _ _ _)
          refine Kept.trans ?_ (State.modAd_kept _ _ _)
          exact (State.windowClose_kept _ _)
        · refine Kept.trans ?_ (State.modAd_kept _ _ _)
          refine Kept.trans ?_ (State.modAd_kept _ _ _)
          exact (State.windowClose_kept _ _)
    · refine Kept.ite ?_ ?_
      · refine Kept.ite ?_ ?_
        · refine Kept.trans ?_ (State.edgeFlags_kept _ _ _)
          refine Kept.trans ?_ (State.modAd_kept _ _ _)
          refine Kept.trans ?_ (State.modAd_kept _ _ _)
          exact (State.windowClose_kept _ _)
        · refine Kept.trans ?_ (State.modAd_kept _ _ _)
          refine Kept.trans ?_ (State.modAd_kept _ _ _)
          exact (State.windowClose_kept _ _)
      · try dsimp only
        try dsimp only
        split
        · refine Kept.trans ?_ (State.exitDomain_kept _ _ _ _)
          refine Kept.trans ?_ (State.edgeFlags_kept _ _ _)
          refine Kept.trans ?_ (State.modAd_kept _ _ _)
          refine Kept.trans ?_ (State.modAd_kept _ _ _)
          exact (State.windowClose_kept _ _)
        · refine Kept.trans ?_ (State.applyNews_kept _ _ _ _)
          refine Kept.trans ?_ (State.edgeFlags_kept _ _ _)
          refine Kept.trans ?_ (State.modAd_kept _ _ _)
          refine Kept.trans ?_ (State.modAd_kept _ _ _)
          exact (State.windowClose_kept _ _)
theorem State.angleTrigger_kept (s : State) (d : Fin 3) (i : Fin 4) : Kept s (State.angleTrigger s d i) := by
  unfold State.angleTrigger
  try dsimp only
  refine Kept.ite ?_ ?_
  · refine Kept.trans ?_ (State.raiseAd_kept _ _ _)
    exact (State.modAd_kept _ _ _)
  · exact Kept.refl _
theorem State.writeTrig_kept (s : State) (d : Fin 3) (i : Fin 4) (w : Word) : Kept s (State.writeTrig s d i w) := by
  unfold State.writeTrig
  exact (State.modAd_kept _ _ _)
theorem State.writeZero_kept (s : State) (d : Fin 3) (w : Word) : Kept s (State.writeZero s d w) := by
  unfold State.writeZero
  refine Kept.ite ?_ ?_
  · exact Kept.refl _
  · exact (State.modAd_kept _ _ _)
theorem State.writeGov_kept (s : State) (d : Fin 3) (w : Word) : Kept s (State.writeGov s d w) := by
  unfold State.writeGov
  refine Kept.trans ?_ (State.takeHolds_kept _ _)
  refine Kept.trans ?_ (State.releaseHolds_kept _ _)
  exact (State.modAd_kept _ _ _)
theorem State.beginDomain_kept (s : State) (d : Fin 3) : Kept s (State.beginDomain s d) := by
  unfold State.beginDomain
  refine Kept.ite ?_ ?_
  · try dsimp only
    refine Kept.ite ?_ ?_
    · refine Kept.trans ?_ (State.loseDomain_kept _ _ _)
      exact (State.modAd_kept _ _ _)
    · exact (State.modAd_kept _ _ _)
  · exact Kept.refl _
theorem State.writeAdCtl_kept (s : State) (d : Fin 3) (w : Word) : Kept s (State.writeAdCtl s d w) := by
  unfold State.writeAdCtl
  refine Kept.ite ?_ ?_
  · exact Kept.refl _
  · try dsimp only
    refine Kept.ite ?_ ?_
    · refine Kept.ite ?_ ?_
      · exact (State.raiseAd_kept _ _ _)
      · refine Kept.ite ?_ ?_
        · exact Kept.refl _
        · try dsimp only
          refine Kept.trans ?_ (State.modAd_kept _ _ _)
          refine Kept.ite ?_ ?_
          · refine Kept.trans ?_ (State.startSweep_kept _ _ _)
            exact (State.dropAngleEdges_kept _ _)
          · exact Kept.refl _
    · try dsimp only
      refine Kept.ite ?_ ?_
      · exact (State.modAd_kept _ _ _)
      · refine Kept.ite ?_ ?_
        · exact (State.modAd_kept _ _ _)
        · exact (State.modAd_kept _ _ _)
theorem State.adLose_kept (s : State) (d : Fin 3) : Kept s (State.adLose s d) := by
  unfold State.adLose
  refine Kept.ite ?_ ?_
  · exact (State.loseDomain_kept _ _ _)
  · exact Kept.refl _
theorem State.adDrop_kept (s : State) (d : Fin 3) : Kept s (State.adDrop s d) := by
  unfold State.adDrop
  exact (State.dropDomain_kept _ _ _)
theorem State.writePlCtl_kept (s : State) (i : Fin 2) (w : Word) : Kept s (State.writePlCtl s i w) := by
  unfold State.writePlCtl
  refine Kept.ite ?_ ?_
  · exact Kept.refl _
  · try dsimp only
    refine Kept.trans ?_ (State.takeHolds_kept _ _)
    refine Kept.trans ?_ (State.releaseHolds_kept _ _)
    exact (State.modPl_kept _ _ _)
theorem State.clearTrip_kept (s : State) (i : Fin 2) : Kept s (State.clearTrip s i) := by
  unfold State.clearTrip
  refine Kept.ite ?_ ?_
  · refine Kept.trans ?_ (State.releaseHolds_kept _ _)
    exact (State.modPl_kept _ _ _)
  · exact Kept.refl _
theorem State.fenceAd_kept (s : State) (d : Fin 3) : Kept s (State.fenceAd s d) := by
  unfold State.fenceAd
  refine Kept.trans ?_ (State.modAd_kept _ _ _)
  exact (State.loseDomain_kept _ _ _)
theorem State.angleCycle_kept (s : State) : Kept s (State.angleCycle s) := by
  unfold State.angleCycle
  try dsimp only
  refine Kept.trans ?_ (Kept.fin (fun _ _ => ?_) _)
  · refine Kept.trans ?_ (Kept.fin (fun _ _ => ?_) _)
    · refine Kept.trans ?_ (Kept.fin (fun _ _ => ?_) _)
      · refine Kept.trans ?_ (Kept.fin (fun _ _ => ?_) _)
        · exact Kept.refl _
        · refine Kept.ite ?_ ?_
          · refine Kept.trans ?_ (Kept.fin (fun _ _ => ?_) _)
            · exact (State.modAd_kept _ _ _)
            · refine Kept.ite ?_ ?_
              · exact (State.setCause_kept _ _ _)
              · exact Kept.refl _
          · exact Kept.refl _
      · exact (State.beginDomain_kept _ _)
    · exact (State.checkerTrip_kept _ _)
  · exact (State.governorCut_kept _ _)
theorem State.unfenceAd_kept (s : State) (d : Fin 3) : Kept s (State.unfenceAd s d) := by
  unfold State.unfenceAd
  refine Kept.trans ?_ (State.releaseHolds_kept _ _)
  exact (State.modAd_kept _ _ _)

/-! ## Memory -/

theorem State.memFlag_kept (s : State) (b : BitVec 7) : Kept s (State.memFlag s b) := by
  unfold State.memFlag
  refine Kept.trans ?_ (State.hwSet_kept _ _ _)
  refine Kept.trans ?_ (State.modMem_kept _ _ rfl)
  exact Kept.refl _
theorem State.memEvent_kept (s : State) (kind : Nat) (a : Nat) : Kept s (State.memEvent s kind a) := by
  unfold State.memEvent
  refine Kept.trans ?_ (State.modMem_kept _ _ rfl)
  exact Kept.refl _
theorem State.markSaved_kept (s : State) (p : Nat) : Kept s (State.markSaved s p) := by
  unfold State.markSaved
  refine Kept.ite ?_ ?_
  · exact (State.modBank_kept _ _ _)
  · exact Kept.refl _
theorem State.bankPut_kept (s : State) (a : Nat) (w : Word) : Kept s (s.bankPut a w) :=
  (State.markSaved_kept s a).trans ⟨rfl, fun h => cellWf_writeList 0 _ _ _ h, id, id⟩
theorem State.bankUnc_kept (s : State) (a : Nat) : Kept s (State.bankUnc s a) := by
  unfold State.bankUnc
  try dsimp only
  refine Kept.trans ?_ (State.report_kept _ _ _ _ _)
  refine Kept.trans ?_ (State.memFlag_kept _ _)
  refine Kept.trans ?_ (State.memEvent_kept _ _ _)
  exact (State.modBank_kept _ _ _)
theorem State.bankCorr_kept (s : State) (a : Nat) : Kept s (State.bankCorr s a) := by
  unfold State.bankCorr
  try dsimp only
  refine Kept.trans ?_ (State.modMem_kept _ _ rfl)
  refine Kept.trans ?_ (State.memFlag_kept _ _)
  refine Kept.trans ?_ (State.memEvent_kept _ _ _)
  exact (State.modBank_kept _ _ _)
theorem State.bankReadWord_kept (s : State) (a : Nat) : Kept s (s.bankReadWord a).2 := by
  unfold State.bankReadWord; dsimp only
  split
  · exact Kept.refl s
  · have hm : Kept s (s.markSaved a) := State.markSaved_kept s a
    split
    · exact hm
    · exact hm.trans (State.bankCorr_kept _ _)
    · exact hm.trans (State.bankUnc_kept _ _)
    · have hf : Kept s (s.markSaved a).free.2 := hm.trans (State.free_kept _)
      split
      · exact hf.trans (State.bankUnc_kept _ _)
      · refine (hf.trans ?_).trans (State.bankCorr_kept _ _)
        exact ⟨rfl, fun h => cellWf_writeList 0 _ _ _ h, id, id⟩
      · exact hf.trans ⟨rfl, fun h => cellWf_writeList 0 _ _ _ h, id, id⟩
theorem State.memRead_kept (s : State) (a size : Nat) : KeptP s (State.memRead s a size) := by
  unfold State.memRead
  split
  · exact Kept.refl s
  · have h := State.bankReadWord_kept s (wordOf ‹Nat›)
    split
    · exact KeptP.mk (Kept.ofP (by assumption) h)
    · exact h
theorem State.memWrite_kept (s : State) (a : Nat) (size : Nat) (data : Word) : KeptP s (State.memWrite s a size data) := by
  unfold State.memWrite
  try dsimp only
  split
  · refine KeptP.mk ?_
    exact Kept.refl _
  · refine KeptP.ite ?_ ?_
    · refine KeptP.mk ?_
      exact Kept.refl _
    · refine KeptP.ite ?_ ?_
      · refine KeptP.mk ?_
        exact (State.bankPut_kept _ _ _)
      · try dsimp only
        split
        · refine KeptP.mk ?_
          refine Kept.trans ?_ (State.bankPut_kept _ _ _)
          refine Kept.ofP (by assumption) ?_
          exact (State.bankReadWord_kept _ _)
        · refine KeptP.mk ?_
          refine Kept.ofP (by assumption) ?_
          exact (State.bankReadWord_kept _ _)
theorem State.usePort_kept (s : State) (b : Option (Fin 8)) : Kept s (State.usePort s b) := by
  unfold State.usePort
  try dsimp only
  split
  · exact (State.modCyc_kept _ _)
  · exact Kept.refl _
theorem State.flipBits_kept (s : State) (a : Nat) (n : Nat) : Kept s (State.flipBits s a n) := by
  unfold State.flipBits
  try dsimp only
  split
  · exact Kept.refl _
  · refine Kept.trans ?_ (State.modMem_kept _ _ rfl)
    exact Kept.refl _
theorem State.bankWriteBack_kept (s : State) (b : Fin 8) : Kept s (State.bankWriteBack s b) := by
  unfold State.bankWriteBack
  try dsimp only
  split
  · refine Kept.trans ?_ (State.modMem_kept _ _ rfl)
    exact Kept.refl _
  · exact Kept.refl _
theorem State.testStart_kept (s : State) (b : Fin 8) : Kept s (State.testStart s b) := by
  unfold State.testStart
  exact (State.modBank_kept _ _ _)
theorem State.bgStart_kept (s : State) (b : Fin 8) : Kept s (State.bgStart s b) := by
  unfold State.bgStart
  refine Kept.ite ?_ ?_
  · refine Kept.ite ?_ ?_
    · exact (State.testStart_kept _ _)
    · refine Kept.trans ?_ (State.report_kept _ _ _ _ _)
      refine Kept.trans ?_ (State.memFlag_kept _ _)
      exact (State.modBank_kept _ _ _)
  · exact Kept.refl _
theorem State.testEnd_kept (s : State) (b : Fin 8) : Kept s (State.testEnd s b) := by
  unfold State.testEnd
  try dsimp only
  exact (State.modBank_kept _ _ _)
theorem State.testerAccess_kept (s : State) (b : Fin 8) (fail : Bool) : Kept s (State.testerAccess s b fail) := by
  unfold State.testerAccess
  try dsimp only
  refine Kept.ite ?_ ?_
  · exact Kept.refl _
  · try dsimp only
    split
    · exact Kept.refl _
    · try dsimp only
      exact (State.modBank_kept _ _ _)
    · refine Kept.ite ?_ ?_
      · try dsimp only
        refine Kept.trans ?_ (State.report_kept _ _ _ _ _)
        refine Kept.trans ?_ (State.memFlag_kept _ _)
        refine Kept.trans ?_ (State.memEvent_kept _ _ _)
        exact (State.modBank_kept _ _ _)
      · exact (State.modBank_kept _ _ _)
    · refine Kept.ite ?_ ?_
      · try dsimp only
        refine Kept.ite ?_ ?_
        · refine Kept.trans ?_ (State.testStart_kept _ _)
          exact (State.testEnd_kept _ _)
        · exact (State.testEnd_kept _ _)
      · exact (State.modBank_kept _ _ _)
theorem State.testAbandon_kept (s : State) (b : Fin 8) : Kept s (State.testAbandon s b) := by
  unfold State.testAbandon
  exact (State.modBank_kept _ _ _)
theorem State.testRecover_kept (s : State) : Kept s (State.testRecover s) := by
  unfold State.testRecover
  refine Kept.trans ?_ (Kept.fin (fun _ _ => ?_) _)
  · exact Kept.refl _
  · exact (State.modBank_kept _ _ _)
theorem State.writeTctl_kept (s : State) (w : Word) : Kept s (State.writeTctl s w) := by
  unfold State.writeTctl
  refine Kept.ite ?_ ?_
  · exact Kept.refl _
  · try dsimp only
    refine Kept.trans ?_ (Kept.fin (fun _ _ => ?_) _)
    · refine Kept.trans ?_ (State.modMem_kept _ _ rfl)
      exact Kept.refl _
    · refine Kept.ite ?_ ?_
      · exact Kept.refl _
      · exact (State.testAbandon_kept _ _)
theorem State.zeroFill_kept (s : State) (b : Fin 8) : Kept s (s.zeroFill b) :=
  ⟨rfl, fun h => cellWf_filter 0 _ _ h, id, id⟩
theorem State.fenceBank_kept (s : State) (b : Fin 8) : Kept s (State.fenceBank s b) := by
  unfold State.fenceBank
  refine Kept.trans ?_ (State.modBank_kept _ _ _)
  exact (State.testAbandon_kept _ _)
theorem State.readmit_kept (s : State) (b : Fin 8) : Kept s (State.readmit s b) := by
  unfold State.readmit
  refine Kept.ite ?_ ?_
  · exact (State.modBank_kept _ _ _)
  · exact (State.memFlag_kept _ _)
theorem State.readmitDone_kept (s : State) (b : Fin 8) (pass : Bool) (word : Fin 4096) : Kept s (State.readmitDone s b pass word) := by
  unfold State.readmitDone
  try dsimp only
  split
  · refine Kept.ite ?_ ?_
    · exact (State.modBank_kept _ _ _)
    · try dsimp only
      refine Kept.trans ?_ (State.report_kept _ _ _ _ _)
      refine Kept.trans ?_ (State.memFlag_kept _ _)
      refine Kept.trans ?_ (State.memEvent_kept _ _ _)
      exact (State.modBank_kept _ _ _)
  · refine Kept.trans ?_ (State.fltBack_kept _ _)
    refine Kept.trans ?_ (State.memFlag_kept _ _)
    refine Kept.trans ?_ (State.modBank_kept _ _ _)
    exact (State.zeroFill_kept _ _)
  · exact Kept.refl _
theorem State.fillBanks_kept (s : State) : Kept s (State.fillBanks s) := by
  unfold State.fillBanks
  refine Kept.trans ?_ (Kept.fin (fun _ _ => ?_) _)
  · exact Kept.refl _
  · refine Kept.trans ?_ (State.modBank_kept _ _ _)
    exact (State.zeroFill_kept _ _)
theorem State.writeCwBase_kept (s : State) (n : Fin 16) (w : Word) : Kept s (State.writeCwBase s n w) := by
  unfold State.writeCwBase
  try dsimp only
  refine Kept.ite ?_ ?_
  · refine Kept.ite ?_ ?_
    · exact (State.memFlag_kept _ _)
    · refine Kept.ite ?_ ?_
      · refine Kept.trans ?_ (State.memFlag_kept _ _)
        exact (State.modCw_kept _ _ _)
      · exact (State.modCw_kept _ _ _)
  · exact (State.modCw_kept _ _ _)
theorem State.writeCwSize_kept (s : State) (n : Fin 16) (w : Word) : Kept s (State.writeCwSize s n w) := by
  unfold State.writeCwSize
  refine Kept.ite ?_ ?_
  · exact (State.memFlag_kept _ _)
  · exact (State.modCw_kept _ _ _)

end Sys2Proof.Machine
end

