-- ==== Sys2Proof/Laws/KeptBlocks.lean ====
section
/-!
SUPPORT. Laws/KeptBlocks.lean: what every operation keeps (Laws/KeptBase.lean): the blocks from the Timetable to the interrupt controller.
-/
namespace Sys2Proof.Machine

/-! ## Timetable -/

theorem State.setCal_kept (s : State) (h : Nat) (e : CalEntry) : Kept s (s.setCal h e) :=
  ⟨rfl, id, id, fun x => ⟨cellWf_write _ _ _ _ x.1, x.2⟩⟩
theorem State.ttFlag_kept (s : State) (b : BitVec 5) : Kept s (State.ttFlag s b) := by
  unfold State.ttFlag
  refine Kept.trans ?_ (State.hwSet_kept _ _ _)
  refine Kept.trans ?_ (State.modTt_kept _ _ fun _ => rfl)
  exact Kept.refl _
theorem State.freeEntry_kept (s : State) (h : Nat) : Kept s (State.freeEntry s h) := by
  unfold State.freeEntry
  exact (State.setCal_kept _ _ _)
theorem State.schedInsert_kept (s : State) (reserved : Bool) (keylo : Word) (keyhi : Word) (arg : Word) (ctl : Word) : KeptQ s (State.schedInsert s reserved keylo keyhi arg ctl) := by
  unfold State.schedInsert
  try dsimp only
  refine KeptQ.ite ?_ ?_
  · refine KeptQ.mk ?_
    exact Kept.refl _
  · try dsimp only
    refine KeptQ.ite ?_ ?_
    · refine KeptQ.ite ?_ ?_
      · refine KeptQ.mk ?_
        exact (State.ttFlag_kept _ _)
      · try dsimp only
        refine KeptQ.mk ?_
        refine Kept.trans ?_ (State.modCyc_kept _ _)
        refine Kept.trans ?_ (State.setCal_kept _ _ _)
        refine KeptP.mk ?_
        exact (State.free_kept _)
    · try dsimp only
      refine KeptQ.ite ?_ ?_
      · refine KeptQ.mk ?_
        exact (State.ttFlag_kept _ _)
      · try dsimp only
        refine KeptQ.mk ?_
        refine Kept.trans ?_ (State.ttFlag_kept _ _)
        refine Kept.trans ?_ (State.setCal_kept _ _ _)
        refine KeptP.mk ?_
        exact (State.free_kept _)
theorem State.hostHerr_kept (s : State) (c : Fin 256) (h : Fin 1024) (st : Nat) : Kept s (State.hostHerr s c h st) := by
  unfold State.hostHerr
  try dsimp only
  refine Kept.trans ?_ (State.modTt_kept _ _ fun _ => rfl)
  refine Kept.trans ?_ (State.ttFlag_kept _ _)
  refine Kept.ite ?_ ?_
  · exact (State.ttFlag_kept _ _)
  · exact Kept.refl _
theorem State.hostInsert_kept (s : State) (c : Fin 256) (h : Fin 1024) (w : Word) : Kept s (State.hostInsert s c h w) := by
  unfold State.hostInsert
  try dsimp only
  refine Kept.ite ?_ ?_
  · exact (State.hostHerr_kept _ _ _ _)
  · refine Kept.ite ?_ ?_
    · exact (State.hostHerr_kept _ _ _ _)
    · try dsimp only
      refine Kept.ite ?_ ?_
      · exact (State.hostHerr_kept _ _ _ _)
      · refine Kept.ite ?_ ?_
        · exact (State.hostHerr_kept _ _ _ _)
        · refine Kept.ite ?_ ?_
          · exact (State.hostHerr_kept _ _ _ _)
          · exact (State.setCal_kept _ _ _)
theorem State.hostCancel_kept (s : State) (c : Fin 256) (h : Fin 1024) : Kept s (State.hostCancel s c h) := by
  unfold State.hostCancel
  refine Kept.ite ?_ ?_
  · exact (State.freeEntry_kept _ _)
  · refine Kept.ite ?_ ?_
    · exact Kept.refl _
    · exact (State.hostHerr_kept _ _ _ _)
theorem State.writeCalWord_kept (s : State) (h : Fin 1024) (i : Nat) (w : Word) : Kept s (State.writeCalWord s h i w) := by
  unfold State.writeCalWord
  try dsimp only
  refine Kept.ite ?_ ?_
  · exact Kept.refl _
  · refine Kept.ite ?_ ?_
    · exact (State.setCal_kept _ _ _)
    · refine Kept.ite ?_ ?_
      · exact (State.setCal_kept _ _ _)
      · exact (State.setCal_kept _ _ _)
theorem State.makeReady_kept (s : State) (h : Nat) (e : CalEntry) : Kept s (State.makeReady s h e) := by
  unfold State.makeReady
  try dsimp only
  refine Kept.ite ?_ ?_
  · refine Kept.trans ?_ (State.ttFlag_kept _ _)
    refine Kept.trans ?_ (State.modCyc_kept _ _)
    exact (State.setCal_kept _ _ _)
  · refine Kept.trans ?_ (State.modCyc_kept _ _)
    exact (State.setCal_kept _ _ _)
theorem State.calendarTimeDue_kept (s : State) : Kept s (State.calendarTimeDue s) := by
  unfold State.calendarTimeDue
  refine Kept.ite ?_ ?_
  · exact Kept.refl _
  · try dsimp only
    split
    · exact (State.makeReady_kept _ _ _)
    · exact Kept.refl _
theorem State.anglesFall_kept (s : State) (d : Fin 3) : Kept s (State.anglesFall s d) := by
  unfold State.anglesFall
  split
  · exact Kept.refl _
  · refine ⟨rfl, id, id, fun h => ⟨cellWf_map ({} : CalEntry) _ (fun p => ?_) (fun p hp => ?_) _ h.1, h.2⟩⟩
    · split <;> rfl
    · split
      · unfold CalEntry.fallDue
        split
        · rename_i hc
          intro h
          have := congrArg CalEntry.fell h
          cases this
        · exact hp
      · exact hp
theorem State.calendarAngleDue_kept (s : State) (d : Fin 3) : Kept s (State.calendarAngleDue s d) := by
  unfold State.calendarAngleDue
  refine Kept.ite ?_ ?_
  · exact Kept.refl _
  · try dsimp only
    try dsimp only
    split
    · refine Kept.trans ?_ (State.makeReady_kept _ _ _)
      exact (State.anglesFall_kept _ _)
    · exact (State.anglesFall_kept _ _)
theorem State.timetableCycle_kept (s : State) : Kept s (State.timetableCycle s) := by
  unfold State.timetableCycle
  refine Kept.trans ?_ (Kept.fin (fun _ _ => ?_) _)
  · exact Kept.refl _
  · exact (State.anglesFall_kept _ _)
theorem State.cancelNotice_kept (s : State) (h : Nat) (e : CalEntry) (reason : Nat) : Kept s (State.cancelNotice s h e reason) := by
  unfold State.cancelNotice
  exact (State.post_kept _ _ _ _ _ _ _ _ _)
theorem State.domainSweep_kept (s : State) (d : Fin 3) : Kept s (State.domainSweep s d) := by
  unfold State.domainSweep
  try dsimp only
  split
  · exact Kept.refl _
  · try dsimp only
    refine Kept.trans ?_ (State.modTt_kept _ _ fun _ => rfl)
    refine Kept.trans ?_ (Kept.foldl (fun _ _ => ?_) _ _)
    · exact Kept.refl _
    · refine Kept.trans ?_ (State.freeEntry_kept _ _)
      exact (State.cancelNotice_kept _ _ _ _)
theorem State.dropAllRequests_kept (s : State) : Kept s (State.dropAllRequests s) := by
  unfold State.dropAllRequests
  try dsimp only
  refine Kept.trans ?_ (State.modTt_kept _ _ fun _ => rfl)
  refine Kept.trans ?_ (Kept.foldl (fun _ _ => ?_) _ _)
  · exact Kept.refl _
  · try dsimp only
    split
    · exact (State.modChan_kept _ _ _)
    · exact (State.modAd_kept _ _ _)
    · refine Kept.trans ?_ (State.modEng_kept _ _ _ fun _ => by refine ⟨fun _ => ?_, fun _ => ?_⟩ <;> first | assumption | exact Nat.zero_le _)
      exact Kept.refl _
    · refine Kept.trans ?_ (State.modTsi_kept _ _ fun _ => rfl)
      exact Kept.refl _
    · exact (State.modAdc_kept _ _ _)
theorem State.bulkCancel_kept (s : State) (reason : Nat) : Kept s (State.bulkCancel s reason) := by
  unfold State.bulkCancel
  try dsimp only
  refine Kept.trans ?_ (State.ttFlag_kept _ _)
  refine Kept.trans ?_ (Kept.fin (fun _ _ => ?_) _)
  · refine Kept.trans ?_ (State.modTt_kept _ _ fun _ => rfl)
    refine Kept.trans ?_ (State.dropAllRequests_kept _)
    refine Kept.trans ?_ (Kept.foldl (fun _ _ => ?_) _ _)
    · exact Kept.refl _
    · exact (State.freeEntry_kept _ _)
  · try dsimp only
    refine Kept.ite ?_ ?_
    · exact Kept.refl _
    · exact (State.post_kept _ _ _ _ _ _ _ _ _)
theorem State.freeClientEntries_kept (s : State) (c : Fin 256) : Kept s (State.freeClientEntries s c) := by
  unfold State.freeClientEntries
  refine Kept.trans ?_ (State.ttFlag_kept _ _)
  refine Kept.trans ?_ (Kept.foldl (fun _ _ => ?_) _ _)
  · exact Kept.refl _
  · exact (State.freeEntry_kept _ _)
theorem State.putRecord_kept (s : State) (k : Nat) (r : List Word) : Kept s (State.putRecord s k r) := by
  unfold State.putRecord
  refine Kept.trans ?_ (Kept.foldl (fun _ _ => ?_) _ _)
  · exact Kept.refl _
  · exact (State.bankPut_kept _ _ _)
theorem State.meFence_kept (s : State) (cause : Nat) : Kept s (State.meFence s cause) := by
  unfold State.meFence
  refine Kept.ite ?_ ?_
  · exact Kept.refl _
  · try dsimp only
    refine Kept.ite ?_ ?_
    · refine Kept.trans ?_ (State.report_kept _ _ _ _ _)
      refine Kept.trans ?_ (Kept.fin (fun _ _ => ?_) _)
      · refine Kept.trans ?_ (State.bulkCancel_kept _ _)
        refine Kept.trans ?_ (State.modMem_kept _ _ rfl)
        exact (State.modMe_kept _ _)
      · exact (State.fenceChan_kept _ _ _)
    · refine Kept.ite ?_ ?_
      · refine Kept.trans ?_ (State.report_kept _ _ _ _ _)
        refine Kept.trans ?_ (Kept.fin (fun _ _ => ?_) _)
        · refine Kept.trans ?_ (State.bulkCancel_kept _ _)
          refine Kept.trans ?_ (State.modMem_kept _ _ rfl)
          exact (State.modMe_kept _ _)
        · exact (State.fenceChan_kept _ _ _)
      · refine Kept.ite ?_ ?_
        · refine Kept.trans ?_ (State.report_kept _ _ _ _ _)
          refine Kept.trans ?_ (Kept.fin (fun _ _ => ?_) _)
          · refine Kept.trans ?_ (State.bulkCancel_kept _ _)
            refine Kept.trans ?_ (State.modMem_kept _ _ rfl)
            exact (State.modMe_kept _ _)
          · exact (State.fenceChan_kept _ _ _)
        · refine Kept.trans ?_ (Kept.fin (fun _ _ => ?_) _)
          · refine Kept.trans ?_ (State.bulkCancel_kept _ _)
            refine Kept.trans ?_ (State.modMem_kept _ _ rfl)
            exact (State.modMe_kept _ _)
          · exact (State.fenceChan_kept _ _ _)
theorem State.openWindow_kept (s : State) (f : Frame) : Kept s (State.openWindow s f) := by
  unfold State.openWindow
  try dsimp only
  refine Kept.ite ?_ ?_
  · exact (State.modMe_kept _ _)
  · refine Kept.ite ?_ ?_
    · exact (State.meFence_kept _ _)
    · try dsimp only
      refine Kept.trans ?_ (State.modMe_kept _ _)
      refine Kept.trans ?_ (State.modMe_kept _ _)
      exact (State.putRecord_kept _ _ _)
theorem State.fillWindow_kept (s : State) : Kept s (State.fillWindow s) := by
  unfold State.fillWindow
  split
  · exact Kept.refl s
  · dsimp only
    generalize hr : List.foldl _ (some [], s) (List.range 16) = r
    have h : Kept s r.2 := by
      rw [← hr]
      have key : ∀ (l : List Nat) (p : Option (List Word) × State), Kept p.2
          (l.foldl (fun (p : Option (List Word) × State) i =>
            match p.1 with
            | none => p
            | some ws => match p.2.bankReadWord (p.2.spillAddr (s.me.spilled - 1) i) with
              | (.ok w, s) => (some (ws ++ [w]), s)
              | (.error _, s) => (none, s)) p).2 := by
        intro l
        induction l with
        | nil => exact fun p => Kept.refl _
        | cons i l ih =>
          intro p
          refine Kept.trans ?_ (ih _)
          dsimp only
          split
          · exact Kept.refl _
          · split
            · exact Kept.ofP (by assumption) (State.bankReadWord_kept _ _)
            · exact Kept.ofP (by assumption) (State.bankReadWord_kept _ _)
      exact key _ (some [], s)
    split
    · exact h.trans (State.meFence_kept _ _)
    · exact h.trans (State.modMe_kept _ _)
theorem State.pruneResults_kept (s : State) : Kept s (State.pruneResults s) := by
  unfold State.pruneResults
  try dsimp only
  exact (State.modMe_kept _ _)
theorem State.closeDispatch_kept (n : Nat) : ∀ s : State, Kept s (State.closeDispatch n s) := by
  induction n with
  | zero => exact fun s => Kept.refl s
  | succ n ih =>
    intro s
    unfold State.closeDispatch
    dsimp only
    split
    · exact Kept.ite ((State.modMe_kept _ _).trans (ih _)) (State.modMe_kept _ _)
    · exact Kept.ite (Kept.refl s) (Kept.ite ((State.modMe_kept _ _).trans (ih _)) (State.modMe_kept _ _))
theorem State.takeCause_kept (s : State) (src : ReqSrc) : KeptP s (State.takeCause s src) := by
  unfold State.takeCause
  try dsimp only
  try dsimp only
  split
  · refine KeptP.mk ?_
    refine Kept.trans ?_ (State.modChan_kept _ _ _)
    exact (State.dropRequest_kept _ _)
  · refine KeptP.mk ?_
    refine Kept.trans ?_ (State.modAd_kept _ _ _)
    exact (State.dropRequest_kept _ _)
  · refine KeptP.mk ?_
    refine Kept.trans ?_ (State.modEng_kept _ _ _ fun _ => by refine ⟨fun _ => ?_, fun _ => ?_⟩ <;> first | assumption | exact Nat.zero_le _)
    exact (State.dropRequest_kept _ _)
  · refine KeptP.mk ?_
    refine Kept.trans ?_ (State.modTsi_kept _ _ fun _ => rfl)
    exact (State.dropRequest_kept _ _)
  · refine KeptP.mk ?_
    refine Kept.trans ?_ (State.modAdc_kept _ _ _)
    exact (State.dropRequest_kept _ _)
theorem State.countDispatch_kept (s : State) (due : W48) (n : Nat) : Kept s (State.countDispatch s due n) := by
  unfold State.countDispatch
  try dsimp only
  refine Kept.trans ?_ (State.modTt_kept _ _ fun _ => rfl)
  exact Kept.refl _
theorem State.dispatchCand_kept (s : State) (c : Cand) (n : Nat) : Kept s (State.dispatchCand s c n) := by
  unfold State.dispatchCand
  try dsimp only
  try dsimp only
  split
  · try dsimp only
    refine Kept.ite ?_ ?_
    · refine Kept.trans ?_ (State.openWindow_kept _ _)
      refine Kept.trans ?_ (State.modCyc_kept _ _)
      refine Kept.trans ?_ (State.countDispatch_kept _ _ _)
      exact (State.freeEntry_kept _ _)
    · refine Kept.trans ?_ (State.fltBack_kept _ _)
      refine Kept.trans ?_ (State.modMe_kept _ _)
      refine Kept.trans ?_ (State.openWindow_kept _ _)
      refine Kept.trans ?_ (State.modCyc_kept _ _)
      refine Kept.trans ?_ (State.countDispatch_kept _ _ _)
      exact (State.freeEntry_kept _ _)
  · try dsimp only
    refine Kept.ite ?_ ?_
    · refine Kept.trans ?_ (State.openWindow_kept _ _)
      refine Kept.trans ?_ (State.countDispatch_kept _ _ _)
      exact (State.takeCause_kept _ _)
    · refine Kept.trans ?_ (State.fltBack_kept _ _)
      refine Kept.trans ?_ (State.modMe_kept _ _)
      refine Kept.trans ?_ (State.openWindow_kept _ _)
      refine Kept.trans ?_ (State.countDispatch_kept _ _ _)
      exact (State.takeCause_kept _ _)
theorem State.dispatch_kept (s : State) : Kept s (State.dispatch s) := by
  unfold State.dispatch
  refine Kept.ite ?_ ?_
  · exact Kept.refl _
  · try dsimp only
    split
    · exact Kept.refl _
    · refine Kept.ite ?_ ?_
      · exact (State.dispatchCand_kept _ _ _)
      · try dsimp only
        split
        · refine Kept.ite ?_ ?_
          · exact (State.dispatchCand_kept _ _ _)
          · exact Kept.refl _
        · exact (State.dispatchCand_kept _ _ _)
theorem State.selectNext_kept (s : State) : Kept s (State.selectNext s) := by
  unfold State.selectNext
  split
  · exact Kept.refl s
  · have r : ∀ (s : State), Kept s
        (if (s.fillWindow).me.st = .fenced then s.fillWindow
          else (s.fillWindow).modMe fun m => { m with st := .running }) := fun s =>
      Kept.ite (State.fillWindow_kept _) ((State.fillWindow_kept _).trans (State.modMe_kept _ _))
    have h : ∀ f, Kept s (s.pruneResults.modMe f) := fun f => (State.pruneResults_kept s).trans (State.modMe_kept _ _)
    dsimp only
    generalize hu : (s.pruneResults.modMe fun m => { m with st := .idle }) = u
    have k : Kept s u := hu ▸ h _
    generalize (if u.mayDispatch = true then u.readyCand 0 else none) = o
    cases o with
    | some c =>
      cases u.suspendedPri with
      | some p =>
        by_cases x : c.pri < p
        · simp only [x, if_true]; exact k.trans (State.dispatchCand_kept _ _ _)
        · simp only [x, if_false]; exact k.trans (r u)
      | none => exact k.trans (State.dispatchCand_kept _ _ _)
    | none =>
      cases u.suspendedPri with
      | some p => exact k.trans (r u)
      | none => exact k
theorem State.discardWindows_kept (s : State) (c : Fin 256) : Kept s (State.discardWindows s c) := by
  unfold State.discardWindows
  try dsimp only
  try dsimp only
  split
  · refine Kept.ite ?_ ?_
    · refine Kept.trans ?_ (State.selectNext_kept _)
      refine Kept.trans ?_ (State.modMe_kept _ _)
      refine Kept.ite ?_ ?_
      · exact Kept.refl _
      · refine Kept.trans ?_ (State.modMe_kept _ _)
        refine Kept.trans ?_ (Kept.foldl (fun _ _ => ?_) _ _)
        · exact Kept.refl _
        · exact (State.putRecord_kept _ _ _)
    · refine Kept.trans ?_ (State.pruneResults_kept _)
      refine Kept.trans ?_ (State.modMe_kept _ _)
      refine Kept.ite ?_ ?_
      · exact Kept.refl _
      · refine Kept.trans ?_ (State.modMe_kept _ _)
        refine Kept.trans ?_ (Kept.foldl (fun _ _ => ?_) _ _)
        · exact Kept.refl _
        · exact (State.putRecord_kept _ _ _)
  · refine Kept.trans ?_ (State.pruneResults_kept _)
    refine Kept.trans ?_ (State.modMe_kept _ _)
    refine Kept.ite ?_ ?_
    · exact Kept.refl _
    · refine Kept.trans ?_ (State.modMe_kept _ _)
      refine Kept.trans ?_ (Kept.foldl (fun _ _ => ?_) _ _)
      · exact Kept.refl _
      · exact (State.putRecord_kept _ _ _)
theorem State.writeSpill_kept (s : State) (w : Word) : Kept s (State.writeSpill s w) := by
  unfold State.writeSpill
  try dsimp only
  refine Kept.ite ?_ ?_
  · exact Kept.refl _
  · exact (State.modMe_kept _ _)
theorem State.writeG_kept (s : State) (i : Fin 8) (w : Word) : Kept s (State.writeG s i w) := by
  unfold State.writeG
  refine Kept.ite ?_ ?_
  · exact (State.modMe_kept _ _)
  · exact Kept.refl _
theorem State.settleMe_kept (s : State) : Kept s (State.settleMe s) := by
  unfold State.settleMe
  exact (State.modMe_kept _ _)
theorem State.writeMeCtl_kept (s : State) (w : Word) : Kept s (State.writeMeCtl s w) := by
  unfold State.writeMeCtl
  refine Kept.ite ?_ ?_
  · exact Kept.refl _
  · refine Kept.trans ?_ (State.settleMe_kept _)
    exact (State.modMe_kept _ _)

/-! ## Seating -/

theorem State.scFlag_kept (s : State) (b : BitVec 6) : Kept s (State.scFlag s b) := by
  unfold State.scFlag
  refine Kept.trans ?_ (State.hwSet_kept _ _ _)
  refine Kept.trans ?_ (State.modSc_kept _ _ fun _ => rfl)
  exact Kept.refl _
theorem State.noteRec_kept (s : State) (c : Fin 256) : Kept s (State.noteRec s c) := by
  unfold State.noteRec
  refine Kept.ite ?_ ?_
  · exact Kept.refl _
  · exact (State.modCyc_kept _ _)
theorem State.setBuf_kept (s : State) (i : Fin 256) (f : BufRec → BufRec) : Kept s (State.setBuf s i f) := by
  unfold State.setBuf
  refine Kept.trans ?_ (State.modSc_kept _ _ fun _ => rfl)
  exact Kept.refl _
theorem State.postAll_kept (s : State) (rank : Nat) (cs : List (Fin 256)) (type : Nat) (crit : Bool) (info : Nat) (w1 : Word) (w2 : Word) (w3 : Word) : Kept s (State.postAll s rank cs type crit info w1 w2 w3) := by
  unfold State.postAll
  refine Kept.trans ?_ (Kept.foldl (fun _ _ => ?_) _ _)
  · exact Kept.refl _
  · exact (State.post_kept _ _ _ _ _ _ _ _ _)
theorem State.countDrop_kept (s : State) (c : Fin 256) : Kept s (State.countDrop s c) := by
  unfold State.countDrop
  try dsimp only
  refine Kept.ite ?_ ?_
  · refine Kept.trans ?_ (State.modClient_kept _ _ _)
    refine Kept.trans ?_ (State.scFlag_kept _ _)
    exact (State.modClient_kept _ _ _)
  · try dsimp only
    refine Kept.trans ?_ (State.modClient_kept _ _ _)
    refine Kept.trans ?_ (State.scFlag_kept _ _)
    exact (State.modClient_kept _ _ _)
theorem State.dropEvent_kept (s : State) (c : Fin 256) (p : Event → Bool) : Kept s (State.dropEvent s c p) := by
  unfold State.dropEvent
  exact (State.modClient_kept _ _ _)
theorem State.admitEvent_kept (s : State) (c : Fin 256) (e : Event) : Kept s (State.admitEvent s c e) := by
  unfold State.admitEvent
  refine Kept.ite ?_ ?_
  · exact (State.modClient_kept _ _ _)
  · try dsimp only
    refine Kept.ite ?_ ?_
    · exact (State.modClient_kept _ _ _)
    · try dsimp only
      refine Kept.ite ?_ ?_
      · refine Kept.trans ?_ (State.modClient_kept _ _ _)
        refine Kept.trans ?_ (State.countDrop_kept _ _)
        exact (State.dropEvent_kept _ _ _)
      · refine Kept.ite ?_ ?_
        · exact (State.countDrop_kept _ _)
        · refine Kept.ite ?_ ?_
          · refine Kept.trans ?_ (State.modClient_kept _ _ _)
            refine Kept.trans ?_ (State.countDrop_kept _ _)
            exact (State.dropEvent_kept _ _ _)
          · exact (State.countDrop_kept _ _)
theorem State.eventAdmit_kept (s : State) : Kept s (State.eventAdmit s) := by
  unfold State.eventAdmit
  try dsimp only
  split
  · exact Kept.refl _
  · refine Kept.trans ?_ (State.modCyc_kept _ _)
    refine Kept.trans ?_ (State.modSc_kept _ _ fun _ => rfl)
    exact Kept.refl _
theorem State.admitAll_kept (s : State) : Kept s (State.admitAll s) := by
  unfold State.admitAll
  refine Kept.trans ?_ (Kept.foldl (fun _ _ => ?_) _ _)
  · exact Kept.refl _
  · exact (State.admitEvent_kept _ _ _)
theorem State.evPop_kept (s : State) (c : Fin 256) : KeptP s (State.evPop s c) := by
  unfold State.evPop
  try dsimp only
  try dsimp only
  split
  · refine KeptP.mk ?_
    exact Kept.refl _
  · try dsimp only
    refine KeptP.ite ?_ ?_
    · refine KeptP.mk ?_
      exact (State.modClient_kept _ _ _)
    · refine KeptP.mk ?_
      exact (State.modClient_kept _ _ _)
theorem State.postFailed_kept (s : State) (c : Fin 256) (l : Fin 4) (msgid : BitVec 12) (reason : Nat) (handle : Nat) (tx : Nat) : Kept s (State.postFailed s c l msgid reason handle tx) := by
  unfold State.postFailed
  exact (State.post_kept _ _ _ _ _ _ _ _ _)
theorem State.dropMessage_kept (s : State) (l : Fin 4) (i : Fin 256) : Kept s (State.dropMessage s l i) := by
  unfold State.dropMessage
  exact (State.modLink_kept _ _ _)
theorem State.dropRequestOf_kept (s : State) (q : OpenReq) : Kept s (State.dropRequestOf s q) := by
  unfold State.dropRequestOf
  try dsimp only
  refine Kept.trans ?_ (State.modSc_kept _ _ fun _ => rfl)
  refine Kept.trans ?_ (State.setBuf_kept _ _ _)
  exact (State.dropMessage_kept _ _ _)
theorem State.failRequests_kept (s : State) (reason : Nat) : Kept s (State.failRequests s reason) := by
  unfold State.failRequests
  refine Kept.trans ?_ (Kept.foldl (fun _ _ => ?_) _ _)
  · exact Kept.refl _
  · try dsimp only
    refine Kept.trans ?_ (State.postFailed_kept _ _ _ _ _ _ _)
    exact (State.dropRequestOf_kept _ _)
theorem State.requestTimeout_kept (s : State) (c : Fin 256) (l : Fin 4) (msgid : BitVec 12) : Kept s (State.requestTimeout s c l msgid) := by
  unfold State.requestTimeout
  try dsimp only
  split
  · exact Kept.refl _
  · refine Kept.ite ?_ ?_
    · try dsimp only
      refine Kept.trans ?_ (State.scFlag_kept _ _)
      refine Kept.trans ?_ (State.postFailed_kept _ _ _ _ _ _ _)
      exact (State.dropRequestOf_kept _ _)
    · exact Kept.refl _
theorem State.cutClient_kept (s : State) (c : Fin 256) (own : BitVec 64) : Kept s (State.cutClient s c own) := by
  unfold State.cutClient
  try dsimp only
  refine Kept.trans ?_ (Kept.foldl (fun _ _ => ?_) _ _)
  · refine Kept.trans ?_ (Kept.fin (fun _ _ => ?_) _)
    · refine Kept.trans ?_ (Kept.fin (fun _ _ => ?_) _)
      · refine Kept.trans ?_ (State.discardWindows_kept _ _)
        exact (State.freeClientEntries_kept _ _)
      · refine Kept.ite ?_ ?_
        · exact (State.fenceChan_kept _ _ _)
        · exact Kept.refl _
    · try dsimp only
      refine Kept.ite ?_ ?_
      · refine Kept.trans ?_ (State.modDma_kept _ _ _)
        exact (State.dmaError_kept _ _ _)
      · exact Kept.refl _
  · exact (State.dropRequestOf_kept _ _)
theorem State.fenceClient_kept (s : State) (c : Fin 256) (cause : Nat) : Kept s (State.fenceClient s c cause) := by
  unfold State.fenceClient
  refine Kept.ite ?_ ?_
  · exact Kept.refl _
  · try dsimp only
    refine Kept.ite ?_ ?_
    · refine Kept.trans ?_ (State.modSc_kept _ _ fun _ => rfl)
      refine Kept.trans ?_ (State.scFlag_kept _ _)
      refine Kept.trans ?_ (State.modClient_kept _ _ _)
      refine Kept.trans ?_ (State.modCyc_kept _ _)
      exact (State.cutClient_kept _ _ _)
    · refine Kept.trans ?_ (State.report_kept _ _ _ _ _)
      refine Kept.trans ?_ (State.modSc_kept _ _ fun _ => rfl)
      refine Kept.trans ?_ (State.scFlag_kept _ _)
      refine Kept.trans ?_ (State.modClient_kept _ _ _)
      refine Kept.trans ?_ (State.modCyc_kept _ _)
      exact (State.cutClient_kept _ _ _)
theorem State.fenceNext_kept (s : State) (c : Fin 256) (cause : Nat) : Kept s (State.fenceNext s c cause) := by
  unfold State.fenceNext
  refine Kept.ite ?_ ?_
  · exact Kept.refl _
  · refine Kept.trans ?_ (State.modSc_kept _ _ fun _ => rfl)
    exact Kept.refl _
theorem State.disableNext_kept (s : State) (c : Fin 256) (r : ClientRec) : Kept s (State.disableNext s c r) := by
  unfold State.disableNext
  refine Kept.trans ?_ (State.modSc_kept _ _ fun _ => rfl)
  exact Kept.refl _
theorem State.applyCut_kept (s : State) (x : Cut) : Kept s (State.applyCut s x) := by
  unfold State.applyCut
  refine Kept.ite ?_ ?_
  · exact (State.fenceClient_kept _ _ _)
  · refine Kept.ite ?_ ?_
    · exact Kept.refl _
    · refine Kept.trans ?_ (State.modClient_kept _ _ _)
      exact (State.cutClient_kept _ _ _)
theorem State.applyCuts_kept (s : State) : Kept s (State.applyCuts s) := by
  unfold State.applyCuts
  refine Kept.trans ?_ (Kept.foldl (fun _ _ => ?_) _ _)
  · refine Kept.trans ?_ (State.modSc_kept _ _ fun _ => rfl)
    exact Kept.refl _
  · exact (State.applyCut_kept _ _)
theorem State.countFault_kept (s : State) (c : Fin 256) : Kept s (State.countFault s c) := by
  unfold State.countFault
  try dsimp only
  refine Kept.ite ?_ ?_
  · refine Kept.trans ?_ (State.fenceNext_kept _ _ _)
    exact (State.modClient_kept _ _ _)
  · exact (State.modClient_kept _ _ _)
theorem State.restoreClient_kept (s : State) (c : Fin 256) : Kept s (State.restoreClient s c) := by
  unfold State.restoreClient
  try dsimp only
  refine Kept.trans ?_ (State.admitEvent_kept _ _ _)
  refine Kept.trans ?_ (State.modClient_kept _ _ _)
  refine Kept.trans ?_ (State.fltBack_kept _ _)
  refine Kept.trans ?_ (Kept.fin (fun _ _ => ?_) _)
  · refine Kept.trans ?_ (State.modClient_kept _ _ _)
    refine Kept.trans ?_ (Kept.foldl (fun _ _ => ?_) _ _)
    · refine Kept.trans ?_ (State.modCyc_kept _ _)
      refine Kept.trans ?_ (State.modSc_kept _ _ fun _ => rfl)
      exact Kept.refl _
    · try dsimp only
      refine Kept.trans ?_ (State.setBuf_kept _ _ _)
      refine Kept.trans ?_ (Kept.fin (fun _ _ => ?_) _)
      · exact Kept.refl _
      · exact (State.dropMessage_kept _ _ _)
  · refine Kept.ite ?_ ?_
    · exact (State.unfenceChan_kept _ _ _)
    · exact Kept.refl _
theorem State.restoreCmd_kept (s : State) (c : Fin 256) : Kept s (State.restoreCmd s c) := by
  unfold State.restoreCmd
  refine Kept.ite ?_ ?_
  · refine Kept.trans ?_ (State.restoreClient_kept _ _)
    exact (State.noteRec_kept _ _)
  · exact Kept.refl _
theorem State.scWerr_kept (s : State) (n : Fin 256) (reason : Nat) : Kept s (State.scWerr s n reason) := by
  unfold State.scWerr
  refine Kept.trans ?_ (State.modSc_kept _ _ fun _ => rfl)
  exact (State.scFlag_kept _ _)
theorem State.recordWrite_kept (s : State) (sup : Bool) (c : Fin 256) (n : Fin 256) (i : Nat) (w : Word) : Kept s (State.recordWrite s sup c n i w) := by
  unfold State.recordWrite
  refine Kept.ite ?_ ?_
  · exact Kept.refl _
  · refine Kept.ite ?_ ?_
    · exact (State.scWerr_kept _ _ _)
    · try dsimp only
      try dsimp only
      split
      · try dsimp only
        refine Kept.ite ?_ ?_
        · refine Kept.trans ?_ (State.disableNext_kept _ _ _)
          refine Kept.trans ?_ (State.modClient_kept _ _ _)
          exact (State.noteRec_kept _ _)
        · try dsimp only
          refine Kept.ite ?_ ?_
          · refine Kept.trans ?_ (State.restoreClient_kept _ _)
            refine Kept.trans ?_ (State.modClient_kept _ _ _)
            exact (State.noteRec_kept _ _)
          · refine Kept.trans ?_ (State.modClient_kept _ _ _)
            exact (State.noteRec_kept _ _)
      · exact (State.scWerr_kept _ _ _)
theorem State.scCmd_kept (s : State) (w : Word) : Kept s (State.scCmd s w) := by
  unfold State.scCmd
  try dsimp only
  refine Kept.ite ?_ ?_
  · exact (State.scFlag_kept _ _)
  · refine Kept.ite ?_ ?_
    · exact (State.fenceNext_kept _ _ _)
    · refine Kept.ite ?_ ?_
      · exact (State.restoreCmd_kept _ _)
      · exact (State.modClient_kept _ _ _)
theorem State.rateToken_kept (s : State) (c : Fin 256) : Kept s (State.rateToken s c) := by
  unfold State.rateToken
  try dsimp only
  exact (State.modClient_kept _ _ _)
theorem State.bufAlloc_kept (s : State) (c : Fin 256) : KeptP s (State.bufAlloc s c) := by
  unfold State.bufAlloc
  refine KeptP.ite ?_ ?_
  · refine KeptP.mk ?_
    exact Kept.refl _
  · try dsimp only
    split
    · refine KeptP.mk ?_
      exact Kept.refl _
    · refine KeptP.ite ?_ ?_
      · refine KeptP.mk ?_
        exact Kept.refl _
      · try dsimp only
        refine KeptP.mk ?_
        refine Kept.trans ?_ (State.modClient_kept _ _ _)
        exact (State.setBuf_kept _ _ _)
theorem State.bufFault_kept (s : State) (c : Fin 256) (kind : Nat) (op : Nat) (handle : Nat) : Kept s (State.bufFault s c kind op handle) := by
  unfold State.bufFault
  try dsimp only
  refine Kept.trans ?_ (State.countFault_kept _ _)
  refine Kept.trans ?_ (State.scFlag_kept _ _)
  exact (State.post_kept _ _ _ _ _ _ _ _ _)
theorem State.bufFreeOp_kept (s : State) (i : Fin 256) : Kept s (State.bufFreeOp s i) := by
  unfold State.bufFreeOp
  try dsimp only
  refine Kept.trans ?_ (State.setBuf_kept _ _ _)
  refine Kept.trans ?_ (Kept.fin (fun _ _ => ?_) _)
  · exact Kept.refl _
  · exact (State.dropMessage_kept _ _ _)
theorem State.bufSendOp_kept (s : State) (i : Fin 256) (l : Fin 4) (req : Bool) : Kept s (State.bufSendOp s i l req) := by
  unfold State.bufSendOp
  try dsimp only
  refine Kept.ite ?_ ?_
  · refine Kept.trans ?_ (State.scFlag_kept _ _)
    exact (State.postFailed_kept _ _ _ _ _ _ _)
  · refine Kept.ite ?_ ?_
    · exact (State.postFailed_kept _ _ _ _ _ _ _)
    · try dsimp only
      refine Kept.ite ?_ ?_
      · try dsimp only
        refine Kept.trans ?_ (State.modSc_kept _ _ fun _ => rfl)
        refine Kept.trans ?_ (State.modLink_kept _ _ _)
        exact (State.setBuf_kept _ _ _)
      · refine Kept.trans ?_ (State.modLink_kept _ _ _)
        exact (State.setBuf_kept _ _ _)
theorem State.bufCmd_kept (s : State) (c : Fin 256) (w : Word) : Kept s (State.bufCmd s c w) := by
  unfold State.bufCmd
  try dsimp only
  refine Kept.ite ?_ ?_
  · exact (State.scFlag_kept _ _)
  · try dsimp only
    split
    · refine Kept.ite ?_ ?_
      · exact (State.bufFreeOp_kept _ _)
      · exact (State.bufSendOp_kept _ _ _ _)
    · exact (State.bufFault_kept _ _ _ _ _)

/-! ## Perf -/

theorem State.pmFlag_kept (s : State) (b : BitVec 5) : Kept s (State.pmFlag s b) := by
  unfold State.pmFlag
  refine Kept.trans ?_ (State.hwSet_kept _ _ _)
  exact (State.modPm_kept _ _)
theorem State.rsFlag_kept (s : State) (b : BitVec 5) : Kept s (State.rsFlag s b) := by
  unfold State.rsFlag
  refine Kept.trans ?_ (State.hwSet_kept _ _ _)
  exact (State.modRs_kept _ _)
theorem State.setView_kept (s : State) (i : Fin 5) (b : Bin) : Kept s (State.setView s i b) := by
  unfold State.setView
  exact (State.modPm_kept _ _)
theorem State.updateViews_kept (s : State) : Kept s (State.updateViews s) := by
  unfold State.updateViews
  refine Kept.trans ?_ (State.setView_kept _ _ _)
  refine Kept.trans ?_ (State.setView_kept _ _ _)
  exact (State.setView_kept _ _ _)
theorem State.close15_kept (s : State) (extra : BitVec 8) : Kept s (State.close15 s extra) := by
  unfold State.close15
  try dsimp only
  refine Kept.ite ?_ ?_
  · refine Kept.trans ?_ (State.storeLog_kept _)
    refine Kept.trans ?_ (State.writeLife_kept _)
    refine Kept.trans ?_ (State.rsEnqueue_kept _ _ _ _)
    refine Kept.trans ?_ (State.setView_kept _ _ _)
    refine Kept.trans ?_ (State.pmFlag_kept _ _)
    exact (State.modPm_kept _ _)
  · refine Kept.trans ?_ (State.writeLife_kept _)
    refine Kept.trans ?_ (State.rsEnqueue_kept _ _ _ _)
    refine Kept.trans ?_ (State.setView_kept _ _ _)
    refine Kept.trans ?_ (State.pmFlag_kept _ _)
    exact (State.modPm_kept _ _)
theorem State.closeDay_kept (s : State) (extra : BitVec 8) : Kept s (State.closeDay s extra) := by
  unfold State.closeDay
  try dsimp only
  refine Kept.trans ?_ (State.rsEnqueue_kept _ _ _ _)
  refine Kept.trans ?_ (State.setView_kept _ _ _)
  refine Kept.trans ?_ (State.pmFlag_kept _ _)
  exact (State.modPm_kept _ _)
theorem State.open15_kept (s : State) (start : Nat) : Kept s (State.open15 s start) := by
  unfold State.open15
  exact (State.modPm_kept _ _)
theorem State.openDay_kept (s : State) (start : Nat) : Kept s (State.openDay s start) := by
  unfold State.openDay
  exact (State.modPm_kept _ _)
theorem State.rollBins_kept (s : State) (d : DoneSecond) : Kept s (State.rollBins s d) := by
  unfold State.rollBins
  try dsimp only
  refine Kept.trans ?_ (State.modPm_kept _ _)
  refine Kept.ite ?_ ?_
  · refine Kept.trans ?_ (State.openDay_kept _ _)
    refine Kept.ite ?_ ?_
    · exact (State.open15_kept _ _)
    · refine Kept.ite ?_ ?_
      · try dsimp only
        refine Kept.trans ?_ (State.open15_kept _ _)
        refine Kept.trans ?_ (State.modPm_kept _ _)
        exact (State.close15_kept _ _)
      · exact Kept.refl _
  · refine Kept.ite ?_ ?_
    · try dsimp only
      refine Kept.trans ?_ (State.openDay_kept _ _)
      refine Kept.trans ?_ (State.modPm_kept _ _)
      refine Kept.trans ?_ (State.closeDay_kept _ _)
      refine Kept.ite ?_ ?_
      · exact (State.open15_kept _ _)
      · refine Kept.ite ?_ ?_
        · try dsimp only
          refine Kept.trans ?_ (State.open15_kept _ _)
          refine Kept.trans ?_ (State.modPm_kept _ _)
          exact (State.close15_kept _ _)
        · exact Kept.refl _
    · refine Kept.ite ?_ ?_
      · exact (State.open15_kept _ _)
      · refine Kept.ite ?_ ?_
        · try dsimp only
          refine Kept.trans ?_ (State.open15_kept _ _)
          refine Kept.trans ?_ (State.modPm_kept _ _)
          exact (State.close15_kept _ _)
        · exact Kept.refl _
theorem State.tcaLink_kept (s : State) (l : Fin 4) : Kept s (State.tcaLink s l) := by
  unfold State.tcaLink
  try dsimp only
  refine Kept.ite ?_ ?_
  · refine Kept.trans ?_ (State.postAll_kept _ _ _ _ _ _ _ _ _)
    refine Kept.trans ?_ (State.pmFlag_kept _ _)
    refine Kept.trans ?_ (State.modPm_kept _ _)
    refine Kept.ite ?_ ?_
    · refine Kept.trans ?_ (State.postAll_kept _ _ _ _ _ _ _ _ _)
      refine Kept.trans ?_ (State.pmFlag_kept _ _)
      exact (State.modPm_kept _ _)
    · exact Kept.refl _
  · refine Kept.ite ?_ ?_
    · refine Kept.trans ?_ (State.postAll_kept _ _ _ _ _ _ _ _ _)
      refine Kept.trans ?_ (State.pmFlag_kept _ _)
      exact (State.modPm_kept _ _)
    · exact Kept.refl _
theorem State.placeSecond_kept (s : State) (d : DoneSecond) : Kept s (State.placeSecond s d) := by
  unfold State.placeSecond
  try dsimp only
  refine Kept.ite ?_ ?_
  · refine Kept.trans ?_ (State.openDay_kept _ _)
    refine Kept.trans ?_ (State.closeDay_kept _ _)
    refine Kept.ite ?_ ?_
    · refine Kept.trans ?_ (State.open15_kept _ _)
      refine Kept.trans ?_ (State.close15_kept _ _)
      refine Kept.trans ?_ (Kept.fin (fun _ _ => ?_) _)
      · refine Kept.trans ?_ (State.modPm_kept _ _)
        refine Kept.ite ?_ ?_
        · exact (State.rollBins_kept _ _)
        · exact Kept.refl _
      · exact (State.tcaLink_kept _ _)
    · refine Kept.trans ?_ (Kept.fin (fun _ _ => ?_) _)
      · refine Kept.trans ?_ (State.modPm_kept _ _)
        refine Kept.ite ?_ ?_
        · exact (State.rollBins_kept _ _)
        · exact Kept.refl _
      · exact (State.tcaLink_kept _ _)
  · refine Kept.ite ?_ ?_
    · refine Kept.trans ?_ (State.open15_kept _ _)
      refine Kept.trans ?_ (State.close15_kept _ _)
      refine Kept.trans ?_ (Kept.fin (fun _ _ => ?_) _)
      · refine Kept.trans ?_ (State.modPm_kept _ _)
        refine Kept.ite ?_ ?_
        · exact (State.rollBins_kept _ _)
        · exact Kept.refl _
      · exact (State.tcaLink_kept _ _)
    · refine Kept.trans ?_ (Kept.fin (fun _ _ => ?_) _)
      · refine Kept.trans ?_ (State.modPm_kept _ _)
        refine Kept.ite ?_ ?_
        · exact (State.rollBins_kept _ _)
        · exact Kept.refl _
      · exact (State.tcaLink_kept _ _)
theorem State.pmBinPlace_kept (s : State) : Kept s (State.pmBinPlace s) := by
  unfold State.pmBinPlace
  refine Kept.ite ?_ ?_
  · exact Kept.refl _
  · try dsimp only
    split
    · exact Kept.refl _
    · refine Kept.ite ?_ ?_
      · refine Kept.trans ?_ (State.placeSecond_kept _ _)
        exact (State.modPm_kept _ _)
      · exact Kept.refl _
theorem State.pmVerdicts_kept (s : State) : Kept s (State.pmVerdicts s) := by
  unfold State.pmVerdicts
  try dsimp only
  exact (State.modPm_kept _ _)
theorem State.pmClockSet_kept (s : State) : Kept s (State.pmClockSet s) := by
  unfold State.pmClockSet
  try dsimp only
  refine Kept.trans ?_ (State.pmFlag_kept _ _)
  refine Kept.trans ?_ (State.modPm_kept _ _)
  refine Kept.trans ?_ (Kept.fin (fun _ _ => ?_) _)
  · refine Kept.ite ?_ ?_
    · refine Kept.trans ?_ (State.closeDay_kept _ _)
      refine Kept.ite ?_ ?_
      · refine Kept.trans ?_ (State.close15_kept _ _)
        refine Kept.trans ?_ (Kept.foldl (fun _ _ => ?_) _ _)
        · exact (State.modPm_kept _ _)
        · exact (State.placeSecond_kept _ _)
      · refine Kept.trans ?_ (Kept.foldl (fun _ _ => ?_) _ _)
        · exact (State.modPm_kept _ _)
        · exact (State.placeSecond_kept _ _)
    · refine Kept.ite ?_ ?_
      · refine Kept.trans ?_ (State.close15_kept _ _)
        refine Kept.trans ?_ (Kept.foldl (fun _ _ => ?_) _ _)
        · exact (State.modPm_kept _ _)
        · exact (State.placeSecond_kept _ _)
      · refine Kept.trans ?_ (Kept.foldl (fun _ _ => ?_) _ _)
        · exact (State.modPm_kept _ _)
        · exact (State.placeSecond_kept _ _)
  · exact (State.modLink_kept _ _ _)
theorem State.runTimeMs_kept (s : State) : Kept s (State.runTimeMs s) := by
  unfold State.runTimeMs
  try dsimp only
  refine Kept.ite ?_ ?_
  · refine Kept.trans ?_ (State.modCyc_kept _ _)
    exact (State.modPm_kept _ _)
  · exact Kept.refl _
theorem State.writePmSel_kept (s : State) (w : Word) : Kept s (State.writePmSel s w) := by
  unfold State.writePmSel
  try dsimp only
  refine Kept.ite ?_ ?_
  · exact (State.modPm_kept _ _)
  · exact (State.pmFlag_kept _ _)
theorem State.pmWinReady_kept (s : State) : Kept s (State.pmWinReady s) := by
  unfold State.pmWinReady
  refine Kept.ite ?_ ?_
  · exact Kept.refl _
  · exact (State.modPm_kept _ _)
theorem State.pmLoad_kept (s : State) (day : Option (List Byte)) (life : Option (List Byte)) (hist : List (List Byte)) : Kept s (State.pmLoad s day life hist) := by
  unfold State.pmLoad
  try dsimp only
  try dsimp only
  split
  · try dsimp only
    split
    · try dsimp only
      refine Kept.trans ?_ (State.modPm_kept _ _)
      exact (State.modPm_kept _ _)
    · exact (State.modPm_kept _ _)
  · try dsimp only
    refine Kept.ite ?_ ?_
    · refine Kept.trans ?_ (State.modPm_kept _ _)
      try dsimp only
      split
      · try dsimp only
        refine Kept.trans ?_ (State.modPm_kept _ _)
        exact (State.modPm_kept _ _)
      · exact (State.modPm_kept _ _)
    · try dsimp only
      refine Kept.ite ?_ ?_
      · try dsimp only
        refine Kept.trans ?_ (State.modPm_kept _ _)
        refine Kept.trans ?_ (State.closeDay_kept _ _)
        refine Kept.trans ?_ (State.modPm_kept _ _)
        try dsimp only
        split
        · try dsimp only
          refine Kept.trans ?_ (State.modPm_kept _ _)
          exact (State.modPm_kept _ _)
        · exact (State.modPm_kept _ _)
      · refine Kept.trans ?_ (State.closeDay_kept _ _)
        refine Kept.trans ?_ (State.modPm_kept _ _)
        try dsimp only
        split
        · try dsimp only
          refine Kept.trans ?_ (State.modPm_kept _ _)
          exact (State.modPm_kept _ _)
        · exact (State.modPm_kept _ _)
theorem State.pmRead_kept (s : State) (a : Nat) : KeptOP s (State.pmRead s a) := by
  unfold State.pmRead
  try dsimp only
  try dsimp only
  split
  · refine KeptOP.mk ?_
    refine KeptP.mk ?_
    exact Kept.refl _
  · refine KeptOP.mk ?_
    refine KeptP.mk ?_
    exact Kept.refl _
  · refine KeptOP.mk ?_
    refine KeptP.mk ?_
    exact Kept.refl _
  · refine KeptOP.mk ?_
    refine KeptP.mk ?_
    exact Kept.refl _
  · refine KeptOP.mk ?_
    refine KeptP.mk ?_
    exact Kept.refl _
  · refine KeptOP.mk ?_
    refine KeptP.mk ?_
    exact Kept.refl _
  · refine KeptOP.mk ?_
    refine KeptP.mk ?_
    exact Kept.refl _
  · refine KeptOP.mk ?_
    refine KeptP.mk ?_
    exact Kept.refl _
  · refine KeptOP.mk ?_
    refine KeptP.mk ?_
    exact Kept.refl _
  · refine KeptOP.mk ?_
    refine KeptP.mk ?_
    exact Kept.refl _
  · refine KeptOP.mk ?_
    refine KeptP.mk ?_
    exact Kept.refl _
  · refine KeptOP.ite ?_ ?_
    · refine KeptOP.mk ?_
      refine KeptP.mk ?_
      exact Kept.refl _
    · refine KeptOP.ite ?_ ?_
      · refine KeptOP.mk ?_
        refine KeptP.mk ?_
        exact Kept.refl _
      · exact KeptOP.none _
theorem State.pmWrite_kept (s : State) (a : Nat) (w : Word) : KeptO s (State.pmWrite s a w) := by
  unfold State.pmWrite
  try dsimp only
  split
  · refine KeptO.mk ?_
    refine Kept.ite ?_ ?_
    · exact (State.pmFlag_kept _ _)
    · exact (State.modPm_kept _ _)
  · refine KeptO.mk ?_
    exact (State.modPm_kept _ _)
  · refine KeptO.mk ?_
    refine Kept.ite ?_ ?_
    · exact (State.pmFlag_kept _ _)
    · exact (State.modPm_kept _ _)
  · refine KeptO.mk ?_
    exact (State.modPm_kept _ _)
  · refine KeptO.mk ?_
    exact (State.modPm_kept _ _)
  · refine KeptO.mk ?_
    exact (State.modPm_kept _ _)
  · refine KeptO.mk ?_
    exact (State.writePmSel_kept _ _)
  · refine KeptO.map fun _ => ?_
    exact Kept.refl _
theorem State.setSector_kept (s : State) (n : Nat) (x : Sector) : Kept s (State.setSector s n x) := by
  unfold State.setSector
  exact (State.modRs_kept _ _)
theorem State.rsRead_kept (s : State) (type : Nat) (index : Nat) : KeptP s (State.rsRead s type index) := by
  unfold State.rsRead
  try dsimp only
  refine KeptP.mk ?_
  refine Kept.ite ?_ ?_
  · exact Kept.refl _
  · refine Kept.trans ?_ (State.rsFlag_kept _ _)
    exact (State.modRs_kept _ _)
theorem State.rsRoom_kept (s : State) (n : Nat) : Kept s (State.rsRoom s n) := by
  unfold State.rsRoom
  try dsimp only
  refine Kept.ite ?_ ?_
  · exact Kept.refl _
  · try dsimp only
    split
    · exact (State.modRs_kept _ _)
    · exact Kept.refl _
theorem State.rsPut_kept (s : State) (type : BitVec 8) (index : BitVec 8) (seq : Word) (data : List Byte) : Kept s (State.rsPut s type index seq data) := by
  unfold State.rsPut
  try dsimp only
  refine Kept.trans ?_ (State.modRs_kept _ _)
  refine Kept.trans ?_ (State.setSector_kept _ _ _)
  exact (State.rsRoom_kept _ _)
theorem State.rsMoveOut_kept (s : State) (k : Nat) : Kept s (State.rsMoveOut s k) := by
  unfold State.rsMoveOut
  try dsimp only
  refine Kept.trans ?_ (Kept.foldl (fun _ _ => ?_) _ _)
  · exact (State.modRs_kept _ _)
  · exact (State.rsPut_kept _ _ _ _ _)
theorem State.rsRefuse_kept (s : State) (type : BitVec 8) : Kept s (State.rsRefuse s type) := by
  unfold State.rsRefuse
  try dsimp only
  refine Kept.trans ?_ (State.postAll_kept _ _ _ _ _ _ _ _ _)
  refine Kept.trans ?_ (State.rsFlag_kept _ _)
  exact (State.modRs_kept _ _)
theorem State.rsRetire_kept (s : State) (k : Nat) : Kept s (State.rsRetire s k) := by
  unfold State.rsRetire
  try dsimp only
  split
  · try dsimp only
    refine Kept.trans ?_ (State.postAll_kept _ _ _ _ _ _ _ _ _)
    refine Kept.trans ?_ (State.rsFlag_kept _ _)
    exact (State.modRs_kept _ _)
  · try dsimp only
    refine Kept.trans ?_ (State.postAll_kept _ _ _ _ _ _ _ _ _)
    refine Kept.trans ?_ (State.rsFlag_kept _ _)
    refine Kept.trans ?_ (State.modRs_kept _ _)
    refine Kept.trans ?_ (State.rsMoveOut_kept _ _)
    refine Kept.trans ?_ (State.setSector_kept _ _ _)
    exact (State.setSector_kept _ _ _)
theorem State.rsCompact_kept (s : State) : Kept s (State.rsCompact s) := by
  unfold State.rsCompact
  refine Kept.ite ?_ ?_
  · exact Kept.refl _
  · try dsimp only
    exact (State.modRs_kept _ _)
theorem State.rsErase_kept (s : State) (k : Nat) (bad : Bool) : Kept s (State.rsErase s k bad) := by
  unfold State.rsErase
  try dsimp only
  refine Kept.ite ?_ ?_
  · refine Kept.trans ?_ (State.rsRetire_kept _ _)
    refine Kept.trans ?_ (State.setSector_kept _ _ _)
    exact (State.modRs_kept _ _)
  · refine Kept.trans ?_ (State.setSector_kept _ _ _)
    exact (State.modRs_kept _ _)
theorem State.rsCommit_kept (s : State) (type : BitVec 8) (index : BitVec 8) (data : List Byte) : Kept s (State.rsCommit s type index data) := by
  unfold State.rsCommit
  refine Kept.ite ?_ ?_
  · exact (State.rsRefuse_kept _ _)
  · refine Kept.trans ?_ (State.rsCompact_kept _)
    exact (State.rsPut_kept _ _ _ _ _)
theorem State.rsFails_kept (pg n : Nat) : ∀ s : State, Kept s (State.rsFails pg n s) := by
  induction n with
  | zero => exact fun s => Kept.refl s
  | succ n ih =>
    intro s
    unfold State.rsFails
    exact Kept.ite (Kept.refl s) (((State.rsRoom_kept _ _).trans (State.rsRetire_kept _ _)).trans (ih _))
theorem State.rsRetries_kept (s : State) (pages : Nat) (retries : Nat) : Kept s (State.rsRetries s pages retries) := by
  unfold State.rsRetries
  refine Kept.ite ?_ ?_
  · exact Kept.refl _
  · try dsimp only
    refine Kept.trans ?_ (State.modPm_kept _ _)
    refine Kept.trans ?_ (State.rsFlag_kept _ _)
    exact (State.modRs_kept _ _)
theorem State.rsCycle_kept (s : State) : Kept s (State.rsCycle s) := by
  unfold State.rsCycle
  refine Kept.ite ?_ ?_
  · exact (State.modRs_kept _ _)
  · exact Kept.refl _
theorem State.rsCompactStep_kept (s : State) (k : Nat) (pages : Nat) (retries : Nat) (fails : Nat) (badErase : Bool) : Kept s (State.rsCompactStep s k pages retries fails badErase) := by
  unfold State.rsCompactStep
  try dsimp only
  split
  · try dsimp only
    refine Kept.ite ?_ ?_
    · refine Kept.trans ?_ (State.modRs_kept _ _)
      refine Kept.trans ?_ (State.rsFails_kept _ _ _)
      exact (State.rsRetries_kept _ _ _)
    · refine Kept.trans ?_ (State.rsPut_kept _ _ _ _ _)
      refine Kept.trans ?_ (State.rsFails_kept _ _ _)
      exact (State.rsRetries_kept _ _ _)
  · exact (State.rsErase_kept _ _ _)
theorem State.rsRecordWrite_kept (s : State) (pages : Nat) (retries : Nat) (fails : Nat) (badErase : Bool) : Kept s (State.rsRecordWrite s pages retries fails badErase) := by
  unfold State.rsRecordWrite
  refine Kept.ite ?_ ?_
  · exact Kept.refl _
  · try dsimp only
    try dsimp only
    split
    · refine Kept.trans ?_ (State.rsCompactStep_kept _ _ _ _ _ _)
      exact (State.modRs_kept _ _)
    · exact (State.modRs_kept _ _)
    · try dsimp only
      refine Kept.ite ?_ ?_
      · refine Kept.trans ?_ (State.rsRefuse_kept _ _)
        refine Kept.trans ?_ (State.modRs_kept _ _)
        exact (State.modRs_kept _ _)
      · refine Kept.trans ?_ (State.rsCommit_kept _ _ _ _)
        refine Kept.trans ?_ (State.rsFails_kept _ _ _)
        refine Kept.trans ?_ (State.rsRetries_kept _ _ _)
        refine Kept.trans ?_ (State.modRs_kept _ _)
        exact (State.modRs_kept _ _)
theorem State.rsScan_kept (s : State) (bad : List Nat) : Kept s (State.rsScan s bad) := by
  unfold State.rsScan
  refine Kept.ite ?_ ?_
  · exact Kept.refl _
  · exact (State.modRs_kept _ _)
theorem State.rsRegRead_kept (s : State) (a : Nat) : KeptOP s (State.rsRegRead s a) := by
  unfold State.rsRegRead
  try dsimp only
  try dsimp only
  split
  · refine KeptOP.mk ?_
    refine KeptP.mk ?_
    exact Kept.refl _
  · refine KeptOP.mk ?_
    refine KeptP.mk ?_
    exact Kept.refl _
  · refine KeptOP.mk ?_
    refine KeptP.mk ?_
    exact Kept.refl _
  · refine KeptOP.mk ?_
    refine KeptP.mk ?_
    exact Kept.refl _
  · refine KeptOP.mk ?_
    refine KeptP.mk ?_
    exact Kept.refl _
  · refine KeptOP.mk ?_
    refine KeptP.mk ?_
    exact Kept.refl _
  · refine KeptOP.mk ?_
    refine KeptP.mk ?_
    exact (State.modRs_kept _ _)
  · exact KeptOP.none _
theorem State.rsRegWrite_kept (s : State) (a : Nat) (w : Word) : KeptO s (State.rsRegWrite s a w) := by
  unfold State.rsRegWrite
  try dsimp only
  split
  · refine KeptO.mk ?_
    exact (State.modRs_kept _ _)
  · refine KeptO.mk ?_
    exact (State.modRs_kept _ _)
  · refine KeptO.mk ?_
    exact Kept.refl _
  · refine KeptO.mk ?_
    exact Kept.refl _
  · refine KeptO.mk ?_
    exact Kept.refl _
  · refine KeptO.mk ?_
    exact Kept.refl _
  · refine KeptO.mk ?_
    exact Kept.refl _
  · exact KeptO.none _

/-! ## Afe -/

theorem State.modSens_kept (s : State) (n : Fin 16) (f : Sens → Sens) : Kept s (State.modSens s n f) := by
  unfold State.modSens
  exact (State.modAfe_kept _ _)
theorem State.modItrip_kept (s : State) (n : Fin 6) (f : Itrip → Itrip) : Kept s (State.modItrip s n f) := by
  unfold State.modItrip
  exact (State.modAfe_kept _ _)
theorem State.modSig_kept (s : State) (f : Sig → Sig) : Kept s (State.modSig s f) := by
  unfold State.modSig
  exact (State.modAfe_kept _ _)
theorem State.modCal_kept (s : State) (f : Cal → Cal) : Kept s (State.modCal s f) := by
  unfold State.modCal
  exact (State.modAfe_kept _ _)
theorem State.sigFlag_kept (s : State) (b : BitVec 5) : Kept s (State.sigFlag s b) := by
  unfold State.sigFlag
  refine Kept.trans ?_ (State.hwSet_kept _ _ _)
  exact (State.modSig_kept _ _)
theorem State.afeWwr_kept (s : State) : Kept s (State.afeWwr s) := by
  unfold State.afeWwr
  refine Kept.trans ?_ (State.hwSet_kept _ _ _)
  exact (State.modAfe_kept _ _)
theorem State.healthFail_kept (s : State) (i : Nat) (mech : Nat) (kind : Nat) (index : Nat) : Kept s (State.healthFail s i mech kind index) := by
  unfold State.healthFail
  try dsimp only
  refine Kept.ite ?_ ?_
  · exact (State.hwSet_kept _ _ _)
  · refine Kept.trans ?_ (State.report_kept _ _ _ _ _)
    refine Kept.trans ?_ (State.modAfe_kept _ _)
    exact (State.hwSet_kept _ _ _)
theorem State.sensChange_kept (s : State) (n : Fin 16) (v : Nat) (peak : Byte) (trough : Byte) : Kept s (State.sensChange s n v peak trough) := by
  unfold State.sensChange
  try dsimp only
  refine Kept.ite ?_ ?_
  · exact Kept.refl _
  · try dsimp only
    refine Kept.ite ?_ ?_
    · exact (State.modSens_kept _ _ _)
    · try dsimp only
      refine Kept.ite ?_ ?_
      · refine Kept.trans ?_ (State.hwSet_kept _ _ _)
        refine Kept.trans ?_ (State.modAfe_kept _ _)
        exact (State.modSens_kept _ _ _)
      · exact (State.modSens_kept _ _ _)
theorem State.spareTo_kept (s : State) (nx : Option (Fin 16)) : Kept s (State.spareTo s nx) := by
  unfold State.spareTo
  exact (State.modAfe_kept _ _)
theorem State.spareVisit_kept (s : State) (e0 : BitVec 68) (e1 : BitVec 68) (b0 : BitVec 68) (b1 : BitVec 68) : Kept s (State.spareVisit s e0 e1 b0 b1) := by
  unfold State.spareVisit
  try dsimp only
  try dsimp only
  split
  · refine Kept.ite ?_ ?_
    · refine Kept.trans ?_ (State.healthFail_kept _ _ _ _ _)
      refine Kept.trans ?_ (State.spareTo_kept _ _)
      try dsimp only
      split
      · refine Kept.ite ?_ ?_
        · exact (State.healthFail_kept _ _ _ _ _)
        · exact Kept.refl _
      · exact Kept.refl _
    · refine Kept.trans ?_ (State.spareTo_kept _ _)
      try dsimp only
      split
      · refine Kept.ite ?_ ?_
        · exact (State.healthFail_kept _ _ _ _ _)
        · exact Kept.refl _
      · exact Kept.refl _
  · refine Kept.trans ?_ (State.spareTo_kept _ _)
    try dsimp only
    split
    · refine Kept.ite ?_ ?_
      · exact (State.healthFail_kept _ _ _ _ _)
      · exact Kept.refl _
    · exact Kept.refl _
theorem State.writeSensCfg_kept (s : State) (n : Fin 16) (w : Word) : Kept s (State.writeSensCfg s n w) := by
  unfold State.writeSensCfg
  try dsimp only
  refine Kept.ite ?_ ?_
  · exact (State.afeWwr_kept _)
  · refine Kept.ite ?_ ?_
    · exact (State.afeWwr_kept _)
    · refine Kept.ite ?_ ?_
      · exact Kept.refl _
      · try dsimp only
        refine Kept.ite ?_ ?_
        · refine Kept.trans ?_ (State.spareTo_kept _ _)
          exact (State.modSens_kept _ _ _)
        · exact (State.modSens_kept _ _ _)
theorem State.writeSensThr_kept (s : State) (n : Fin 16) (w : Word) : Kept s (State.writeSensThr s n w) := by
  unfold State.writeSensThr
  refine Kept.ite ?_ ?_
  · exact (State.afeWwr_kept _)
  · refine Kept.ite ?_ ?_
    · exact Kept.refl _
    · exact (State.modSens_kept _ _ _)
theorem State.itripRef_kept (s : State) (n : Fin 6) : Kept s (State.itripRef s n) := by
  unfold State.itripRef
  refine Kept.trans ?_ (State.hwSet_kept _ _ _)
  exact (State.modItrip_kept _ _ _)
theorem State.itripFire_kept (s : State) (n : Fin 6) : Kept s (State.itripFire s n) := by
  unfold State.itripFire
  try dsimp only
  refine Kept.trans ?_ (Kept.fin (fun _ _ => ?_) _)
  · refine Kept.ite ?_ ?_
    · refine Kept.trans ?_ (State.itripRef_kept _ _)
      exact (State.modItrip_kept _ _ _)
    · exact (State.modItrip_kept _ _ _)
  · refine Kept.ite ?_ ?_
    · refine Kept.trans ?_ (Kept.foldl (fun _ _ => ?_) _ _)
      · exact Kept.refl _
      · exact (State.setCause_kept _ _ _)
    · exact Kept.refl _
theorem State.itripTrip_kept (s : State) (n : Fin 6) (vs : List Nat) : Kept s (State.itripTrip s n vs) := by
  unfold State.itripTrip
  try dsimp only
  refine Kept.ite ?_ ?_
  · refine Kept.trans ?_ (State.itripFire_kept _ _)
    exact (State.modItrip_kept _ _ _)
  · exact (State.modItrip_kept _ _ _)
theorem State.itripClear_kept (s : State) (n : Fin 6) : Kept s (State.itripClear s n) := by
  unfold State.itripClear
  try dsimp only
  refine Kept.ite ?_ ?_
  · refine Kept.trans ?_ (State.itripRef_kept _ _)
    exact (State.modCyc_kept _ _)
  · refine Kept.trans ?_ (State.modItrip_kept _ _ _)
    exact (State.modCyc_kept _ _)
theorem State.writeItcmd_kept (s : State) (w : Word) : Kept s (State.writeItcmd s w) := by
  unfold State.writeItcmd
  refine Kept.trans ?_ (Kept.fin (fun _ _ => ?_) _)
  · exact Kept.refl _
  · refine Kept.ite ?_ ?_
    · exact (State.itripClear_kept _ _)
    · exact Kept.refl _
theorem State.itripPair_kept (s : State) (n : Fin 6) (differ : Bool) : Kept s (State.itripPair s n differ) := by
  unfold State.itripPair
  try dsimp only
  refine Kept.ite ?_ ?_
  · refine Kept.trans ?_ (State.healthFail_kept _ _ _ _ _)
    exact (State.modItrip_kept _ _ _)
  · exact (State.modItrip_kept _ _ _)
theorem State.writeItripCfg_kept (s : State) (n : Fin 6) (w : Word) : Kept s (State.writeItripCfg s n w) := by
  unfold State.writeItripCfg
  refine Kept.ite ?_ ?_
  · exact (State.afeWwr_kept _)
  · exact (State.modItrip_kept _ _ _)
theorem State.adcStart_kept (s : State) (a : Fin 2) (e : Fin 16) : Kept s (State.adcStart s a e) := by
  unfold State.adcStart
  exact (State.modAdc_kept _ _ _)
theorem State.adcEvent_kept (s : State) (a : Fin 2) (trig : Nat) (idx : Nat) : Kept s (State.adcEvent s a trig idx) := by
  unfold State.adcEvent
  try dsimp only
  try dsimp only
  split
  · exact Kept.refl _
  · try dsimp only
    refine Kept.ite ?_ ?_
    · try dsimp only
      split
      · exact (State.adcStart_kept _ _ _)
      · refine Kept.ite ?_ ?_
        · exact (State.raiseAdc_kept _ _ _)
        · refine Kept.trans ?_ (State.modCyc_kept _ _)
          exact (State.modAdc_kept _ _ _)
    · exact Kept.refl _
theorem State.adcCopy_kept (s : State) (a : Fin 2) (e : Fin 16) (code : BitVec 12) : Kept s (State.adcCopy s a e code) := by
  unfold State.adcCopy
  try dsimp only
  try dsimp only
  split
  · exact Kept.refl _
  · try dsimp only
    refine Kept.ite ?_ ?_
    · refine Kept.trans ?_ (State.raiseAdc_kept _ _ _)
      exact (State.modAdc_kept _ _ _)
    · exact (State.modAdc_kept _ _ _)
theorem State.adcResult_kept (s : State) (a : Fin 2) (code : BitVec 12) : Kept s (State.adcResult s a code) := by
  unfold State.adcResult
  try dsimp only
  try dsimp only
  split
  · exact Kept.refl _
  · try dsimp only
    refine Kept.ite ?_ ?_
    · refine Kept.ite ?_ ?_
      · refine Kept.trans ?_ (State.raiseAdc_kept _ _ _)
        refine Kept.trans ?_ (State.adcStart_kept _ _ _)
        refine Kept.ite ?_ ?_
        · refine Kept.trans ?_ (State.raiseAdc_kept _ _ _)
          refine Kept.trans ?_ (State.adcCopy_kept _ _ _ _)
          exact (State.modAdc_kept _ _ _)
        · refine Kept.trans ?_ (State.adcCopy_kept _ _ _ _)
          exact (State.modAdc_kept _ _ _)
      · refine Kept.ite ?_ ?_
        · refine Kept.trans ?_ (State.adcStart_kept _ _ _)
          refine Kept.ite ?_ ?_
          · refine Kept.trans ?_ (State.raiseAdc_kept _ _ _)
            refine Kept.trans ?_ (State.adcCopy_kept _ _ _ _)
            exact (State.modAdc_kept _ _ _)
          · refine Kept.trans ?_ (State.adcCopy_kept _ _ _ _)
            exact (State.modAdc_kept _ _ _)
        · refine Kept.ite ?_ ?_
          · refine Kept.trans ?_ (State.raiseAdc_kept _ _ _)
            refine Kept.trans ?_ (State.adcCopy_kept _ _ _ _)
            exact (State.modAdc_kept _ _ _)
          · refine Kept.trans ?_ (State.adcCopy_kept _ _ _ _)
            exact (State.modAdc_kept _ _ _)
    · refine Kept.ite ?_ ?_
      · refine Kept.trans ?_ (State.raiseAdc_kept _ _ _)
        refine Kept.trans ?_ (State.adcCopy_kept _ _ _ _)
        exact (State.modAdc_kept _ _ _)
      · refine Kept.trans ?_ (State.adcCopy_kept _ _ _ _)
        exact (State.modAdc_kept _ _ _)
theorem State.adcRestart_kept (s : State) (a : Fin 2) : Kept s (State.adcRestart s a) := by
  unfold State.adcRestart
  exact (State.modAdc_kept _ _ _)
theorem State.writeAdcCmd_kept (s : State) (a : Fin 2) (w : Word) : Kept s (State.writeAdcCmd s a w) := by
  unfold State.writeAdcCmd
  refine Kept.ite ?_ ?_
  · exact (State.adcRestart_kept _ _)
  · refine Kept.ite ?_ ?_
    · exact (State.adcEvent_kept _ _ _ _)
    · exact Kept.refl _
theorem State.writeAdcCtl_kept (s : State) (a : Fin 2) (w : Word) : Kept s (State.writeAdcCtl s a w) := by
  unfold State.writeAdcCtl
  exact (State.modAdc_kept _ _ _)
theorem State.fenceAdc_kept (s : State) (a : Fin 2) : Kept s (State.fenceAdc s a) := by
  unfold State.fenceAdc
  refine Kept.trans ?_ (State.dropRequest_kept _ _)
  exact (State.modAdc_kept _ _ _)
theorem State.unfenceAdc_kept (s : State) (a : Fin 2) : Kept s (State.unfenceAdc s a) := by
  unfold State.unfenceAdc
  exact (State.modAdc_kept _ _ _)
theorem State.calMeasure_kept (s : State) (lock : Bool) (step : BitVec 6) (err : Nat) : Kept s (State.calMeasure s lock step err) := by
  unfold State.calMeasure
  refine Kept.ite ?_ ?_
  · exact Kept.refl _
  · try dsimp only
    refine Kept.ite ?_ ?_
    · refine Kept.trans ?_ (State.healthFail_kept _ _ _ _ _)
      refine Kept.trans ?_ (State.hwSet_kept _ _ _)
      exact (State.modCal_kept _ _)
    · refine Kept.trans ?_ (State.hwSet_kept _ _ _)
      exact (State.modCal_kept _ _)
theorem State.sigStart_kept (s : State) (l : Fin 4) (enrol : Option (Fin 16)) : Kept s (State.sigStart s l enrol) := by
  unfold State.sigStart
  exact (State.modSig_kept _ _)
theorem State.sigOpen_kept (s : State) (l : Fin 4) (after : Nat) : Kept s (State.sigOpen s l after) := by
  unfold State.sigOpen
  exact (State.modSig_kept _ _)
theorem State.sigCycle_kept (s : State) : Kept s (State.sigCycle s) := by
  unfold State.sigCycle
  try dsimp only
  split
  · exact Kept.refl _
  · try dsimp only
    split
    · exact Kept.refl _
    · try dsimp only
      refine Kept.ite ?_ ?_
      · exact (State.modSig_kept _ _)
      · refine Kept.ite ?_ ?_
        · exact Kept.refl _
        · refine Kept.ite ?_ ?_
          · exact (State.modSig_kept _ _)
          · refine Kept.ite ?_ ?_
            · exact (State.modSig_kept _ _)
            · exact Kept.refl _
theorem State.sigNextDue_kept (s : State) : Kept s (State.sigNextDue s) := by
  unfold State.sigNextDue
  refine Kept.ite ?_ ?_
  · exact Kept.refl _
  · try dsimp only
    split
    · exact Kept.refl _
    · refine Kept.trans ?_ (State.sigStart_kept _ _ _)
      exact (State.modSig_kept _ _)
theorem State.sigVerdict_kept (s : State) (l : Fin 4) (f : List Byte) : Kept s (State.sigVerdict s l f) := by
  unfold State.sigVerdict
  try dsimp only
  try dsimp only
  split
  · refine Kept.trans ?_ (State.sigFlag_kept _ _)
    exact (State.modSig_kept _ _)
  · try dsimp only
    refine Kept.ite ?_ ?_
    · try dsimp only
      refine Kept.ite ?_ ?_
      · refine Kept.trans ?_ (State.report_kept _ _ _ _ _)
        refine Kept.trans ?_ (State.modPm_kept _ _)
        refine Kept.trans ?_ (State.sigFlag_kept _ _)
        refine Kept.trans ?_ (State.sigFlag_kept _ _)
        refine Kept.trans ?_ (State.modSig_kept _ _)
        refine KeptP.ite ?_ ?_
        · refine KeptP.mk ?_
          exact Kept.refl _
        · refine KeptP.mk ?_
          exact (State.free_kept _)
      · refine Kept.trans ?_ (State.modPm_kept _ _)
        refine Kept.trans ?_ (State.sigFlag_kept _ _)
        refine Kept.trans ?_ (State.sigFlag_kept _ _)
        refine Kept.trans ?_ (State.modSig_kept _ _)
        refine KeptP.ite ?_ ?_
        · refine KeptP.mk ?_
          exact Kept.refl _
        · refine KeptP.mk ?_
          exact (State.free_kept _)
    · refine Kept.ite ?_ ?_
      · refine Kept.trans ?_ (State.sigFlag_kept _ _)
        refine Kept.trans ?_ (State.sigFlag_kept _ _)
        refine Kept.trans ?_ (State.modSig_kept _ _)
        refine KeptP.ite ?_ ?_
        · refine KeptP.mk ?_
          exact Kept.refl _
        · refine KeptP.mk ?_
          exact (State.free_kept _)
      · refine Kept.trans ?_ (State.sigFlag_kept _ _)
        refine Kept.trans ?_ (State.modSig_kept _ _)
        refine KeptP.ite ?_ ?_
        · refine KeptP.mk ?_
          exact Kept.refl _
        · refine KeptP.mk ?_
          exact (State.free_kept _)
theorem State.enrolSlot_kept (s : State) (k : Fin 16) (l : Fin 4) (f : List Byte) : Kept s (State.enrolSlot s k l f) := by
  unfold State.enrolSlot
  try dsimp only
  refine Kept.trans ?_ (State.rsEnqueue_kept _ _ _ _)
  exact (State.modSig_kept _ _)
theorem State.sigEnd_kept (s : State) (f : List Byte) : Kept s (State.sigEnd s f) := by
  unfold State.sigEnd
  try dsimp only
  split
  · exact Kept.refl _
  · try dsimp only
    try dsimp only
    split
    · refine Kept.trans ?_ (State.sigNextDue_kept _)
      refine Kept.trans ?_ (State.modSig_kept _ _)
      refine Kept.trans ?_ (State.sigVerdict_kept _ _ _)
      exact (State.modSig_kept _ _)
    · refine Kept.ite ?_ ?_
      · refine Kept.trans ?_ (State.modSig_kept _ _)
        refine Kept.trans ?_ (State.sigVerdict_kept _ _ _)
        exact (State.modSig_kept _ _)
      · refine Kept.trans ?_ (State.sigNextDue_kept _)
        refine Kept.trans ?_ (State.enrolSlot_kept _ _ _ _)
        refine Kept.trans ?_ (State.modSig_kept _ _)
        refine Kept.trans ?_ (State.sigVerdict_kept _ _ _)
        exact (State.modSig_kept _ _)
theorem State.sigAbort_kept (s : State) : Kept s (State.sigAbort s) := by
  unfold State.sigAbort
  try dsimp only
  split
  · exact Kept.refl _
  · refine Kept.trans ?_ (State.sigNextDue_kept _)
    refine Kept.trans ?_ (State.sigFlag_kept _ _)
    exact (State.modSig_kept _ _)
theorem State.sigTimeout_kept (s : State) : Kept s (State.sigTimeout s) := by
  unfold State.sigTimeout
  refine Kept.ite ?_ ?_
  · exact (State.sigAbort_kept _)
  · exact Kept.refl _
theorem State.sigMeasure_kept (s : State) (l : Fin 4) : Kept s (State.sigMeasure s l) := by
  unfold State.sigMeasure
  refine Kept.ite ?_ ?_
  · exact (State.sigFlag_kept _ _)
  · exact (State.sigStart_kept _ _ _)
theorem State.sigEnrol_kept (s : State) (c : Fin 256) (l : Fin 4) (k : Fin 16) : Kept s (State.sigEnrol s c l k) := by
  unfold State.sigEnrol
  refine Kept.ite ?_ ?_
  · exact (State.sigFlag_kept _ _)
  · exact (State.sigStart_kept _ _ _)
theorem State.writeSigCmd_kept (s : State) (c : Fin 256) (w : Word) : Kept s (State.writeSigCmd s c w) := by
  unfold State.writeSigCmd
  try dsimp only
  try dsimp only
  split
  · exact (State.sigMeasure_kept _ _)
  · exact (State.sigEnrol_kept _ _ _ _)
  · exact (State.sigAbort_kept _)
  · exact Kept.refl _
theorem State.sigAuto_kept (s : State) : Kept s (State.sigAuto s) := by
  unfold State.sigAuto
  refine Kept.ite ?_ ?_
  · exact Kept.refl _
  · refine Kept.trans ?_ (State.sigNextDue_kept _)
    exact (State.modSig_kept _ _)
theorem State.adcCheck_kept (s : State) (a : Fin 2) (err : Option Nat) : Kept s (State.adcCheck s a err) := by
  unfold State.adcCheck
  try dsimp only
  split
  · exact Kept.refl _
  · try dsimp only
    refine Kept.ite ?_ ?_
    · refine Kept.trans ?_ (State.healthFail_kept _ _ _ _ _)
      exact (State.modAdc_kept _ _ _)
    · exact (State.modAdc_kept _ _ _)
theorem State.healthCheck_kept (s : State) (dac : List Nat) (adc0 : Option Nat) (adc1 : Option Nat) (vref : Bool) (vdda : Nat) (mon : List Nat) : Kept s (State.healthCheck s dac adc0 adc1 vref vdda mon) := by
  unfold State.healthCheck
  try dsimp only
  refine Kept.ite ?_ ?_
  · refine Kept.trans ?_ (State.healthFail_kept _ _ _ _ _)
    refine Kept.ite ?_ ?_
    · refine Kept.trans ?_ (State.healthFail_kept _ _ _ _ _)
      refine Kept.ite ?_ ?_
      · refine Kept.trans ?_ (State.healthFail_kept _ _ _ _ _)
        refine Kept.trans ?_ (State.adcCheck_kept _ _ _)
        refine Kept.trans ?_ (State.adcCheck_kept _ _ _)
        refine Kept.trans ?_ (Kept.fin (fun _ _ => ?_) _)
        · exact Kept.refl _
        · refine Kept.ite ?_ ?_
          · exact (State.healthFail_kept _ _ _ _ _)
          · exact Kept.refl _
      · refine Kept.trans ?_ (State.adcCheck_kept _ _ _)
        refine Kept.trans ?_ (State.adcCheck_kept _ _ _)
        refine Kept.trans ?_ (Kept.fin (fun _ _ => ?_) _)
        · exact Kept.refl _
        · refine Kept.ite ?_ ?_
          · exact (State.healthFail_kept _ _ _ _ _)
          · exact Kept.refl _
    · refine Kept.ite ?_ ?_
      · refine Kept.trans ?_ (State.healthFail_kept _ _ _ _ _)
        refine Kept.trans ?_ (State.adcCheck_kept _ _ _)
        refine Kept.trans ?_ (State.adcCheck_kept _ _ _)
        refine Kept.trans ?_ (Kept.fin (fun _ _ => ?_) _)
        · exact Kept.refl _
        · refine Kept.ite ?_ ?_
          · exact (State.healthFail_kept _ _ _ _ _)
          · exact Kept.refl _
      · refine Kept.trans ?_ (State.adcCheck_kept _ _ _)
        refine Kept.trans ?_ (State.adcCheck_kept _ _ _)
        refine Kept.trans ?_ (Kept.fin (fun _ _ => ?_) _)
        · exact Kept.refl _
        · refine Kept.ite ?_ ?_
          · exact (State.healthFail_kept _ _ _ _ _)
          · exact Kept.refl _
  · refine Kept.ite ?_ ?_
    · refine Kept.trans ?_ (State.healthFail_kept _ _ _ _ _)
      refine Kept.ite ?_ ?_
      · refine Kept.trans ?_ (State.healthFail_kept _ _ _ _ _)
        refine Kept.trans ?_ (State.adcCheck_kept _ _ _)
        refine Kept.trans ?_ (State.adcCheck_kept _ _ _)
        refine Kept.trans ?_ (Kept.fin (fun _ _ => ?_) _)
        · exact Kept.refl _
        · refine Kept.ite ?_ ?_
          · exact (State.healthFail_kept _ _ _ _ _)
          · exact Kept.refl _
      · refine Kept.trans ?_ (State.adcCheck_kept _ _ _)
        refine Kept.trans ?_ (State.adcCheck_kept _ _ _)
        refine Kept.trans ?_ (Kept.fin (fun _ _ => ?_) _)
        · exact Kept.refl _
        · refine Kept.ite ?_ ?_
          · exact (State.healthFail_kept _ _ _ _ _)
          · exact Kept.refl _
    · refine Kept.ite ?_ ?_
      · refine Kept.trans ?_ (State.healthFail_kept _ _ _ _ _)
        refine Kept.trans ?_ (State.adcCheck_kept _ _ _)
        refine Kept.trans ?_ (State.adcCheck_kept _ _ _)
        refine Kept.trans ?_ (Kept.fin (fun _ _ => ?_) _)
        · exact Kept.refl _
        · refine Kept.ite ?_ ?_
          · exact (State.healthFail_kept _ _ _ _ _)
          · exact Kept.refl _
      · refine Kept.trans ?_ (State.adcCheck_kept _ _ _)
        refine Kept.trans ?_ (State.adcCheck_kept _ _ _)
        refine Kept.trans ?_ (Kept.fin (fun _ _ => ?_) _)
        · exact Kept.refl _
        · refine Kept.ite ?_ ?_
          · exact (State.healthFail_kept _ _ _ _ _)
          · exact Kept.refl _
theorem State.adcWrite_kept (s : State) (a : Fin 2) (o : Nat) (w : Word) : Kept s (State.adcWrite s a o w) := by
  unfold State.adcWrite
  try dsimp only
  refine Kept.ite ?_ ?_
  · refine Kept.ite ?_ ?_
    · refine Kept.trans ?_ (State.raiseAdc_kept _ _ _)
      exact (State.afeWwr_kept _)
    · exact (State.modAdc_kept _ _ _)
  · try dsimp only
    split
    · exact (State.writeAdcCtl_kept _ _ _)
    · exact (State.modAdc_kept _ _ _)
    · exact (State.modAdc_kept _ _ _)
    · exact (State.modAdc_kept _ _ _)
    · exact (State.writeAdcCmd_kept _ _ _)
    · refine Kept.ite ?_ ?_
      · refine Kept.trans ?_ (State.raiseAdc_kept _ _ _)
        exact (State.afeWwr_kept _)
      · exact (State.modAdc_kept _ _ _)
    · exact Kept.refl _
theorem State.afeRead_kept (s : State) (a : Nat) : KeptOP s (State.afeRead s a) := by
  unfold State.afeRead
  try dsimp only
  refine KeptOP.ite ?_ ?_
  · refine KeptOP.mk ?_
    refine KeptP.mk ?_
    exact Kept.refl _
  · refine KeptOP.ite ?_ ?_
    · refine KeptOP.mk ?_
      refine KeptP.mk ?_
      exact Kept.refl _
    · refine KeptOP.ite ?_ ?_
      · refine KeptOP.mk ?_
        refine KeptP.mk ?_
        exact Kept.refl _
      · refine KeptOP.ite ?_ ?_
        · refine KeptOP.map fun _ => ?_
          refine KeptP.mk ?_
          exact Kept.refl _
        · refine KeptOP.ite ?_ ?_
          · refine KeptOP.mk ?_
            refine KeptP.mk ?_
            exact Kept.refl _
          · refine KeptOP.ite ?_ ?_
            · refine KeptOP.mk ?_
              refine KeptP.mk ?_
              exact Kept.refl _
            · refine KeptOP.ite ?_ ?_
              · refine KeptOP.mk ?_
                refine KeptP.mk ?_
                exact Kept.refl _
              · try dsimp only
                split
                · refine KeptOP.mk ?_
                  refine KeptP.mk ?_
                  exact Kept.refl _
                · refine KeptOP.mk ?_
                  refine KeptP.mk ?_
                  exact Kept.refl _
                · refine KeptOP.mk ?_
                  refine KeptP.mk ?_
                  exact Kept.refl _
                · refine KeptOP.mk ?_
                  refine KeptP.mk ?_
                  exact Kept.refl _
                · refine KeptOP.mk ?_
                  refine KeptP.mk ?_
                  exact Kept.refl _
                · refine KeptOP.mk ?_
                  refine KeptP.mk ?_
                  exact Kept.refl _
                · refine KeptOP.mk ?_
                  refine KeptP.mk ?_
                  exact Kept.refl _
                · refine KeptOP.mk ?_
                  refine KeptP.mk ?_
                  exact Kept.refl _
                · exact KeptOP.none _
theorem State.afeWrite_kept (s : State) (c : Fin 256) (a : Nat) (w : Word) : KeptO s (State.afeWrite s c a w) := by
  unfold State.afeWrite
  refine KeptO.ite ?_ ?_
  · try dsimp only
    refine KeptO.mk ?_
    try dsimp only
    split
    · exact (State.writeSensCfg_kept _ _ _)
    · exact (State.writeSensThr_kept _ _ _)
    · exact Kept.refl _
  · refine KeptO.ite ?_ ?_
    · try dsimp only
      refine KeptO.mk ?_
      try dsimp only
      split
      · exact (State.writeItripCfg_kept _ _ _)
      · exact (State.modItrip_kept _ _ _)
      · exact (State.modItrip_kept _ _ _)
      · exact Kept.refl _
    · refine KeptO.ite ?_ ?_
      · refine KeptO.mk ?_
        exact (State.adcWrite_kept _ _ _ _)
      · refine KeptO.ite ?_ ?_
        · refine KeptO.mk ?_
          refine Kept.ite ?_ ?_
          · exact (State.modSig_kept _ _)
          · exact (State.sigFlag_kept _ _)
        · refine KeptO.ite ?_ ?_
          · refine KeptO.mk ?_
            refine Kept.ite ?_ ?_
            · exact (State.modSig_kept _ _)
            · exact Kept.refl _
          · try dsimp only
            split
            · refine KeptO.mk ?_
              exact (State.modAfe_kept _ _)
            · refine KeptO.mk ?_
              exact (State.modAfe_kept _ _)
            · refine KeptO.mk ?_
              exact (State.modAfe_kept _ _)
            · refine KeptO.mk ?_
              exact (State.modAfe_kept _ _)
            · refine KeptO.mk ?_
              exact (State.writeItcmd_kept _ _)
            · refine KeptO.mk ?_
              exact (State.modCanopy_kept _ _)
            · refine KeptO.mk ?_
              exact (State.modCal_kept _ _)
            · refine KeptO.mk ?_
              exact (State.writeSigCmd_kept _ _ _)
            · refine KeptO.mk ?_
              exact (State.modSig_kept _ _)
            · refine KeptO.mk ?_
              exact (State.modSig_kept _ _)
            · refine KeptO.mk ?_
              exact (State.modSig_kept _ _)
            · refine KeptO.map fun _ => ?_
              exact Kept.refl _

/-! ## Msp -/

theorem State.mspRun_kept (s : State) (m : Fin 2) (f : Msp → Msp) : Kept s (State.mspRun s m f) := by
  unfold State.mspRun
  try dsimp only
  refine Kept.trans ?_ (State.hwSet_kept _ _ _)
  exact (State.modMsp_kept _ _ _)
theorem State.mspFlagOctet_kept (s : State) (m : Fin 2) : Kept s (State.mspFlagOctet s m) := by
  unfold State.mspFlagOctet
  exact (State.mspRun_kept _ _ _)
theorem State.mspRxFrame_kept (s : State) (m : Fin 2) : Kept s (State.mspRxFrame s m) := by
  unfold State.mspRxFrame
  try dsimp only
  refine Kept.ite ?_ ?_
  · exact Kept.refl _
  · refine Kept.ite ?_ ?_
    · refine Kept.trans ?_ (State.mspFlagOctet_kept _ _)
      exact (State.mspRun_kept _ _ _)
    · refine Kept.ite ?_ ?_
      · exact Kept.refl _
      · try dsimp only
        try dsimp only
        split
        · refine Kept.trans ?_ (State.mspFlagOctet_kept _ _)
          exact (State.mspRun_kept _ _ _)
        · try dsimp only
          refine Kept.ite ?_ ?_
          · refine Kept.trans ?_ (State.mspFlagOctet_kept _ _)
            exact (State.mspRun_kept _ _ _)
          · exact (State.mspRun_kept _ _ _)
theorem State.mspRxByte_kept (s : State) (m : Fin 2) (b : Byte) (ferr : Bool) : Kept s (State.mspRxByte s m b ferr) := by
  unfold State.mspRxByte
  try dsimp only
  refine Kept.ite ?_ ?_
  · exact Kept.refl _
  · refine Kept.ite ?_ ?_
    · refine Kept.ite ?_ ?_
      · exact (State.mspFlagOctet_kept _ _)
      · exact (State.mspRxFrame_kept _ _)
    · refine Kept.ite ?_ ?_
      · exact Kept.refl _
      · refine Kept.ite ?_ ?_
        · exact (State.mspRun_kept _ _ _)
        · refine Kept.ite ?_ ?_
          · exact (State.mspRun_kept _ _ _)
          · refine Kept.ite ?_ ?_
            · exact (State.mspRun_kept _ _ _)
            · exact (State.modMsp_kept _ _ _)
theorem State.mspTxByte_kept (s : State) (m : Fin 2) (cts : Bool) : Kept s (State.mspTxByte s m cts) := by
  unfold State.mspTxByte
  exact (State.mspRun_kept _ _ _)
theorem State.mspRead_kept (s : State) (m : Fin 2) (o : Nat) : KeptOP s (State.mspRead s m o) := by
  unfold State.mspRead
  try dsimp only
  try dsimp only
  split
  · refine KeptOP.mk ?_
    refine KeptP.mk ?_
    exact Kept.refl _
  · refine KeptOP.mk ?_
    refine KeptP.mk ?_
    exact Kept.refl _
  · refine KeptOP.mk ?_
    refine KeptP.mk ?_
    exact Kept.refl _
  · refine KeptOP.mk ?_
    refine KeptP.mk ?_
    exact Kept.refl _
  · refine KeptOP.mk ?_
    refine KeptP.mk ?_
    exact (State.modMsp_kept _ _ _)
  · refine KeptOP.mk ?_
    refine KeptP.mk ?_
    exact (State.modMsp_kept _ _ _)
  · exact KeptOP.none _
theorem State.mspWrite_kept (s : State) (m : Fin 2) (o : Nat) (w : Word) : KeptO s (State.mspWrite s m o w) := by
  unfold State.mspWrite
  try dsimp only
  split
  · refine KeptO.mk ?_
    refine Kept.ite ?_ ?_
    · exact (State.mspRun_kept _ _ _)
    · refine Kept.ite ?_ ?_
      · exact Kept.refl _
      · exact (State.modMsp_kept _ _ _)
  · refine KeptO.mk ?_
    exact (State.modMsp_kept _ _ _)
  · refine KeptO.mk ?_
    exact (State.modMsp_kept _ _ _)
  · refine KeptO.mk ?_
    exact Kept.refl _
  · refine KeptO.mk ?_
    exact Kept.refl _
  · refine KeptO.mk ?_
    exact Kept.refl _
  · exact KeptO.none _

/-! ## Smb -/

theorem State.smbFlag_kept (s : State) (k : Fin 2) (b : BitVec 10) : Kept s (State.smbFlag s k b) := by
  unfold State.smbFlag
  refine Kept.trans ?_ (State.hwSet_kept _ _ _)
  exact (State.modSmb_kept _ _ _)
theorem State.smbErr_kept (s : State) (k : Fin 2) (kind : Nat) (more : List (Fin 256)) : Kept s (State.smbErr s k kind more) := by
  unfold State.smbErr
  try dsimp only
  exact (State.postAll_kept _ _ _ _ _ _ _ _ _)
theorem State.packPost_kept (s : State) : Kept s (State.packPost s) := by
  unfold State.packPost
  try dsimp only
  refine Kept.trans ?_ (State.smbFlag_kept _ _ _)
  exact (State.postAll_kept _ _ _ _ _ _ _ _ _)
theorem State.packKick_kept (s : State) : Kept s (State.packKick s) := by
  unfold State.packKick
  refine Kept.ite ?_ ?_
  · exact Kept.refl _
  · try dsimp only
    split
    · try dsimp only
      refine Kept.ite ?_ ?_
      · try dsimp only
        refine Kept.trans ?_ (State.modSmb_kept _ _ _)
        exact (State.modPack_kept _ _)
      · exact Kept.refl _
    · exact Kept.refl _
theorem State.packGo_kept (s : State) (t : PackStep) : Kept s (State.packGo s t) := by
  unfold State.packGo
  refine Kept.trans ?_ (State.packKick_kept _)
  exact (State.modPack_kept _ _)
theorem State.packStart_kept (s : State) : Kept s (State.packStart s) := by
  unfold State.packStart
  refine Kept.trans ?_ (State.packGo_kept _ _)
  exact (State.modPack_kept _ _)
theorem State.packTrigger_kept (s : State) : Kept s (State.packTrigger s) := by
  unfold State.packTrigger
  refine Kept.ite ?_ ?_
  · exact Kept.refl _
  · refine Kept.ite ?_ ?_
    · exact (State.modPack_kept _ _)
    · exact (State.packStart_kept _)
theorem State.packDone_kept (s : State) : Kept s (State.packDone s) := by
  unfold State.packDone
  refine Kept.trans ?_ (State.packPost_kept _)
  exact (State.modPack_kept _ _)
theorem State.packFail_kept (s : State) (code : Nat) : Kept s (State.packFail s code) := by
  unfold State.packFail
  try dsimp only
  refine Kept.trans ?_ (State.packPost_kept _)
  refine Kept.trans ?_ (State.modPack_kept _ _)
  refine KeptP.ite ?_ ?_
  · refine KeptP.mk ?_
    exact (State.free_kept _)
  · refine KeptP.mk ?_
    exact Kept.refl _
theorem State.packVerify_kept (s : State) : Kept s (State.packVerify s) := by
  unfold State.packVerify
  try dsimp only
  refine Kept.trans ?_ (State.packDone_kept _)
  try dsimp only
  split
  · exact (State.modPack_kept _ _)
  · exact (State.modPack_kept _ _)
theorem State.randomBytes_kept (n : Nat) : ∀ s : State, KeptP s (State.randomBytes n s) := by
  induction n with
  | zero => exact fun s => Kept.refl s
  | succ n ih => exact fun s => Kept.trans (State.free_kept s) (ih _)
theorem State.packOk_kept (s : State) (t : PackStep) (data : List Byte) : Kept s (State.packOk s t data) := by
  unfold State.packOk
  try dsimp only
  try dsimp only
  split
  · try dsimp only
    refine Kept.ite ?_ ?_
    · refine Kept.trans ?_ (State.packGo_kept _ _)
      try dsimp only
      split
      · exact (State.modPack_kept _ _)
      · exact (State.modPack_kept _ _)
      · exact Kept.refl _
    · refine Kept.ite ?_ ?_
      · try dsimp only
        refine Kept.trans ?_ (State.packGo_kept _ _)
        refine Kept.trans ?_ (State.modPack_kept _ _)
        refine KeptP.trans ?_ (State.randomBytes_kept _ _)
        try dsimp only
        split
        · exact (State.modPack_kept _ _)
        · exact (State.modPack_kept _ _)
        · exact Kept.refl _
      · refine Kept.trans ?_ (State.packDone_kept _)
        refine Kept.trans ?_ (State.modPack_kept _ _)
        try dsimp only
        split
        · exact (State.modPack_kept _ _)
        · exact (State.modPack_kept _ _)
        · exact Kept.refl _
  · refine Kept.ite ?_ ?_
    · exact (State.packStart_kept _)
    · try dsimp only
      refine Kept.ite ?_ ?_
      · refine Kept.trans ?_ (State.packGo_kept _ _)
        exact (State.modPack_kept _ _)
      · refine Kept.trans ?_ (State.modPack_kept _ _)
        exact (State.modPack_kept _ _)
  · try dsimp only
    split
    · exact (State.packGo_kept _ _)
    · exact (State.modPack_kept _ _)
    · refine Kept.trans ?_ (State.packGo_kept _ _)
      exact (State.modPack_kept _ _)
    · refine Kept.trans ?_ (State.packVerify_kept _)
      exact (State.modPack_kept _ _)
    · exact (State.packGo_kept _ _)
theorem State.packBad_kept (s : State) (t : PackStep) (code : Nat) : Kept s (State.packBad s t code) := by
  unfold State.packBad
  try dsimp only
  try dsimp only
  split
  · refine Kept.ite ?_ ?_
    · refine Kept.ite ?_ ?_
      · exact (State.modPack_kept _ _)
      · exact (State.packFail_kept _ _)
    · refine Kept.ite ?_ ?_
      · exact (State.modPack_kept _ _)
      · exact (State.packFail_kept _ _)
  · refine Kept.ite ?_ ?_
    · refine Kept.ite ?_ ?_
      · exact (State.modPack_kept _ _)
      · exact (State.packFail_kept _ _)
    · refine Kept.ite ?_ ?_
      · exact (State.modPack_kept _ _)
      · exact (State.packFail_kept _ _)
  · refine Kept.ite ?_ ?_
    · refine Kept.ite ?_ ?_
      · exact (State.modPack_kept _ _)
      · exact (State.packFail_kept _ _)
    · refine Kept.ite ?_ ?_
      · exact (State.modPack_kept _ _)
      · exact (State.packFail_kept _ _)
  · refine Kept.ite ?_ ?_
    · refine Kept.ite ?_ ?_
      · exact (State.modPack_kept _ _)
      · exact (State.packFail_kept _ _)
    · refine Kept.ite ?_ ?_
      · exact (State.modPack_kept _ _)
      · exact (State.packFail_kept _ _)
  · refine Kept.ite ?_ ?_
    · exact (State.modPack_kept _ _)
    · exact (State.packFail_kept _ _)
theorem State.packResult_kept (s : State) (code : Nat) (data : List Byte) : Kept s (State.packResult s code data) := by
  unfold State.packResult
  try dsimp only
  split
  · exact Kept.refl _
  · refine Kept.ite ?_ ?_
    · exact (State.modPack_kept _ _)
    · refine Kept.ite ?_ ?_
      · exact (State.packStart_kept _)
      · refine Kept.ite ?_ ?_
        · exact (State.packOk_kept _ _ _)
        · exact (State.packBad_kept _ _ _)
theorem State.packResume_kept (s : State) : Kept s (State.packResume s) := by
  unfold State.packResume
  refine Kept.ite ?_ ?_
  · exact (State.packStart_kept _)
  · try dsimp only
    split
    · refine Kept.trans ?_ (State.packResult_kept _ _ _)
      exact (State.modPack_kept _ _)
    · exact (State.packKick_kept _)
theorem State.packRetry_kept (s : State) : Kept s (State.packRetry s) := by
  unfold State.packRetry
  refine Kept.ite ?_ ?_
  · refine Kept.trans ?_ (State.packKick_kept _)
    exact (State.modPack_kept _ _)
  · exact Kept.refl _
theorem State.packAuthWait_kept (s : State) : Kept s (State.packAuthWait s) := by
  unfold State.packAuthWait
  refine Kept.ite ?_ ?_
  · refine Kept.trans ?_ (State.packKick_kept _)
    exact (State.modPack_kept _ _)
  · exact Kept.refl _
theorem State.packPoll_kept (s : State) : Kept s (State.packPoll s) := by
  unfold State.packPoll
  refine Kept.ite ?_ ?_
  · exact Kept.refl _
  · try dsimp only
    split
    · refine Kept.trans ?_ (State.packGo_kept _ _)
      exact (State.modPack_kept _ _)
    · exact (State.packStart_kept _)
    · exact Kept.refl _
theorem State.packBusFault_kept (s : State) : Kept s (State.packBusFault s) := by
  unfold State.packBusFault
  refine Kept.ite ?_ ?_
  · exact Kept.refl _
  · refine Kept.trans ?_ (State.packPost_kept _)
    exact (State.modPack_kept _ _)
theorem State.smbCheck_kept (s : State) (k : Fin 2) : Kept s (State.smbCheck s k) := by
  unfold State.smbCheck
  exact (State.modSmb_kept _ _ _)
theorem State.smbIdle_kept (s : State) (k : Fin 2) : Kept s (State.smbIdle s k) := by
  unfold State.smbIdle
  try dsimp only
  refine Kept.ite ?_ ?_
  · refine Kept.trans ?_ (State.packKick_kept _)
    exact (State.modSmb_kept _ _ _)
  · exact (State.modSmb_kept _ _ _)
theorem State.smbLifted_kept (s : State) (k : Fin 2) : Kept s (State.smbLifted s k) := by
  unfold State.smbLifted
  try dsimp only
  refine Kept.ite ?_ ?_
  · refine Kept.trans ?_ (State.packTrigger_kept _)
    refine Kept.trans ?_ (State.fltBack_kept _ _)
    exact (State.modSmb_kept _ _ _)
  · refine Kept.trans ?_ (State.fltBack_kept _ _)
    exact (State.modSmb_kept _ _ _)
theorem State.smbXfer_kept (s : State) (k : Fin 2) (c : Fin 256) (w : Word) : Kept s (State.smbXfer s k c w) := by
  unfold State.smbXfer
  try dsimp only
  refine Kept.ite ?_ ?_
  · exact (State.smbFlag_kept _ _ _)
  · exact (State.modSmb_kept _ _ _)
theorem State.smbResult_kept (s : State) (k : Fin 2) (code : Nat) (t : SmbXfer) (data : List Byte) : Kept s (State.smbResult s k code t data) := by
  unfold State.smbResult
  try dsimp only
  refine Kept.ite ?_ ?_
  · refine Kept.trans ?_ (State.packResult_kept _ _ _)
    refine Kept.ite ?_ ?_
    · refine Kept.trans ?_ (State.smbCheck_kept _ _)
      refine Kept.ite ?_ ?_
      · refine Kept.trans ?_ (State.smbErr_kept _ _ _ _)
        refine Kept.trans ?_ (State.smbFlag_kept _ _ _)
        exact (State.modSmb_kept _ _ _)
      · refine Kept.trans ?_ (State.smbFlag_kept _ _ _)
        exact (State.modSmb_kept _ _ _)
    · refine Kept.ite ?_ ?_
      · refine Kept.trans ?_ (State.smbErr_kept _ _ _ _)
        refine Kept.trans ?_ (State.smbFlag_kept _ _ _)
        exact (State.modSmb_kept _ _ _)
      · refine Kept.trans ?_ (State.smbFlag_kept _ _ _)
        exact (State.modSmb_kept _ _ _)
  · refine Kept.ite ?_ ?_
    · refine Kept.trans ?_ (State.smbCheck_kept _ _)
      refine Kept.ite ?_ ?_
      · refine Kept.trans ?_ (State.smbErr_kept _ _ _ _)
        refine Kept.trans ?_ (State.smbFlag_kept _ _ _)
        exact (State.modSmb_kept _ _ _)
      · refine Kept.trans ?_ (State.smbFlag_kept _ _ _)
        exact (State.modSmb_kept _ _ _)
    · refine Kept.ite ?_ ?_
      · refine Kept.trans ?_ (State.smbErr_kept _ _ _ _)
        refine Kept.trans ?_ (State.smbFlag_kept _ _ _)
        exact (State.modSmb_kept _ _ _)
      · refine Kept.trans ?_ (State.smbFlag_kept _ _ _)
        exact (State.modSmb_kept _ _ _)
theorem State.smbEnd_kept (s : State) (k : Fin 2) (code : Nat) (data : List Byte) : Kept s (State.smbEnd s k code data) := by
  unfold State.smbEnd
  try dsimp only
  split
  · exact Kept.refl _
  · refine Kept.ite ?_ ?_
    · exact (State.smbResult_kept _ _ _ _ _)
    · exact Kept.refl _
theorem State.smbTimeout_kept (s : State) (k : Fin 2) : Kept s (State.smbTimeout s k) := by
  unfold State.smbTimeout
  try dsimp only
  split
  · exact Kept.refl _
  · exact (State.smbResult_kept _ _ _ _ _)
theorem State.smbAbort_kept (s : State) (k : Fin 2) : Kept s (State.smbAbort s k) := by
  unfold State.smbAbort
  try dsimp only
  split
  · exact Kept.refl _
  · exact (State.smbResult_kept _ _ _ _ _)
theorem State.smbClrStuck_kept (s : State) (k : Fin 2) : Kept s (State.smbClrStuck s k) := by
  unfold State.smbClrStuck
  try dsimp only
  refine Kept.ite ?_ ?_
  · refine Kept.ite ?_ ?_
    · exact Kept.refl _
    · exact (State.modSmb_kept _ _ _)
  · exact (State.smbFlag_kept _ _ _)
theorem State.smbBusCheck_kept (s : State) (k : Fin 2) (sda : Bool) : Kept s (State.smbBusCheck s k sda) := by
  unfold State.smbBusCheck
  try dsimp only
  refine Kept.ite ?_ ?_
  · exact Kept.refl _
  · try dsimp only
    refine Kept.ite ?_ ?_
    · try dsimp only
      refine Kept.trans ?_ (State.smbIdle_kept _ _)
      refine Kept.ite ?_ ?_
      · refine Kept.trans ?_ (State.smbLifted_kept _ _)
        exact (State.modSmb_kept _ _ _)
      · exact (State.modSmb_kept _ _ _)
    · refine Kept.trans ?_ (State.modSmb_kept _ _ _)
      exact (State.modSmb_kept _ _ _)
theorem State.smbBusClear_kept (s : State) (k : Fin 2) (freed : Bool) : Kept s (State.smbBusClear s k freed) := by
  unfold State.smbBusClear
  try dsimp only
  refine Kept.ite ?_ ?_
  · exact Kept.refl _
  · refine Kept.ite ?_ ?_
    · try dsimp only
      refine Kept.trans ?_ (State.smbIdle_kept _ _)
      refine Kept.ite ?_ ?_
      · refine Kept.trans ?_ (State.smbLifted_kept _ _)
        refine Kept.trans ?_ (State.smbFlag_kept _ _ _)
        exact (State.modSmb_kept _ _ _)
      · refine Kept.trans ?_ (State.smbFlag_kept _ _ _)
        exact (State.modSmb_kept _ _ _)
    · try dsimp only
      refine Kept.ite ?_ ?_
      · refine Kept.trans ?_ (State.packBusFault_kept _)
        refine Kept.ite ?_ ?_
        · refine Kept.trans ?_ (State.smbErr_kept _ _ _ _)
          refine Kept.trans ?_ (State.smbFlag_kept _ _ _)
          refine Kept.trans ?_ (State.report_kept _ _ _ _ _)
          refine Kept.trans ?_ (State.smbErr_kept _ _ _ _)
          refine Kept.trans ?_ (State.smbFlag_kept _ _ _)
          exact (State.modSmb_kept _ _ _)
        · refine Kept.trans ?_ (State.report_kept _ _ _ _ _)
          refine Kept.trans ?_ (State.smbErr_kept _ _ _ _)
          refine Kept.trans ?_ (State.smbFlag_kept _ _ _)
          exact (State.modSmb_kept _ _ _)
      · refine Kept.ite ?_ ?_
        · refine Kept.trans ?_ (State.smbErr_kept _ _ _ _)
          refine Kept.trans ?_ (State.smbFlag_kept _ _ _)
          refine Kept.trans ?_ (State.report_kept _ _ _ _ _)
          refine Kept.trans ?_ (State.smbErr_kept _ _ _ _)
          refine Kept.trans ?_ (State.smbFlag_kept _ _ _)
          exact (State.modSmb_kept _ _ _)
        · refine Kept.trans ?_ (State.report_kept _ _ _ _ _)
          refine Kept.trans ?_ (State.smbErr_kept _ _ _ _)
          refine Kept.trans ?_ (State.smbFlag_kept _ _ _)
          exact (State.modSmb_kept _ _ _)
theorem State.smbRetry_kept (s : State) (k : Fin 2) : Kept s (State.smbRetry s k) := by
  unfold State.smbRetry
  try dsimp only
  refine Kept.ite ?_ ?_
  · exact (State.modSmb_kept _ _ _)
  · exact Kept.refl _
theorem State.smbEnable_kept (s : State) (k : Fin 2) : Kept s (State.smbEnable s k) := by
  unfold State.smbEnable
  try dsimp only
  refine Kept.ite ?_ ?_
  · exact Kept.refl _
  · try dsimp only
    refine Kept.ite ?_ ?_
    · refine Kept.trans ?_ (State.modSmb_kept _ _ _)
      exact (State.modSmb_kept _ _ _)
    · refine Kept.trans ?_ (State.smbCheck_kept _ _)
      exact (State.modSmb_kept _ _ _)
theorem State.smbDisable_kept (s : State) (k : Fin 2) : Kept s (State.smbDisable s k) := by
  unfold State.smbDisable
  exact (State.modSmb_kept _ _ _)
theorem State.fenceSmb_kept (s : State) (k : Fin 2) : Kept s (State.fenceSmb s k) := by
  unfold State.fenceSmb
  try dsimp only
  refine Kept.trans ?_ (State.modSmb_kept _ _ _)
  try dsimp only
  split
  · refine Kept.trans ?_ (State.smbResult_kept _ _ _ _ _)
    refine Kept.ite ?_ ?_
    · exact (State.packBusFault_kept _)
    · exact Kept.refl _
  · refine Kept.ite ?_ ?_
    · exact (State.packBusFault_kept _)
    · exact Kept.refl _
theorem State.unfenceSmb_kept (s : State) (k : Fin 2) : Kept s (State.unfenceSmb s k) := by
  unfold State.unfenceSmb
  try dsimp only
  refine Kept.ite ?_ ?_
  · refine Kept.trans ?_ (State.smbCheck_kept _ _)
    exact (State.smbLifted_kept _ _)
  · exact (State.smbLifted_kept _ _)
theorem State.smbRead_kept (s : State) (k : Fin 2) (o : Nat) : KeptOP s (State.smbRead s k o) := by
  unfold State.smbRead
  try dsimp only
  try dsimp only
  split
  · refine KeptOP.mk ?_
    refine KeptP.mk ?_
    exact Kept.refl _
  · try dsimp only
    refine KeptOP.ite ?_ ?_
    · refine KeptOP.mk ?_
      refine KeptP.mk ?_
      exact Kept.refl _
    · try dsimp only
      refine KeptOP.mk ?_
      refine KeptP.mk ?_
      exact (State.free_kept _)
  · refine KeptOP.mk ?_
    refine KeptP.mk ?_
    exact Kept.refl _
  · refine KeptOP.mk ?_
    refine KeptP.mk ?_
    exact Kept.refl _
  · refine KeptOP.mk ?_
    refine KeptP.mk ?_
    exact Kept.refl _
  · refine KeptOP.mk ?_
    refine KeptP.mk ?_
    exact Kept.refl _
  · refine KeptOP.mk ?_
    refine KeptP.mk ?_
    exact Kept.refl _
  · refine KeptOP.mk ?_
    refine KeptP.mk ?_
    exact (State.modSmb_kept _ _ _)
  · refine KeptOP.mk ?_
    refine KeptP.mk ?_
    exact Kept.refl _
  · refine KeptOP.ite ?_ ?_
    · refine KeptOP.mk ?_
      refine KeptP.mk ?_
      exact Kept.refl _
    · exact KeptOP.none _
theorem State.smbWrite_kept (s : State) (k : Fin 2) (c : Fin 256) (o : Nat) (w : Word) : KeptO s (State.smbWrite s k c o w) := by
  unfold State.smbWrite
  try dsimp only
  split
  · refine KeptO.mk ?_
    refine Kept.ite ?_ ?_
    · exact Kept.refl _
    · try dsimp only
      refine Kept.ite ?_ ?_
      · refine Kept.trans ?_ (State.smbEnable_kept _ _)
        exact (State.modSmb_kept _ _ _)
      · refine Kept.trans ?_ (State.smbDisable_kept _ _)
        exact (State.modSmb_kept _ _ _)
  · refine KeptO.mk ?_
    exact (State.modSmb_kept _ _ _)
  · refine KeptO.mk ?_
    exact (State.modSmb_kept _ _ _)
  · refine KeptO.mk ?_
    exact (State.smbXfer_kept _ _ _ _)
  · try dsimp only
    refine KeptO.mk ?_
    refine Kept.ite ?_ ?_
    · refine Kept.trans ?_ (State.smbClrStuck_kept _ _)
      refine Kept.ite ?_ ?_
      · exact (State.smbAbort_kept _ _)
      · exact Kept.refl _
    · refine Kept.ite ?_ ?_
      · exact (State.smbAbort_kept _ _)
      · exact Kept.refl _
  · refine KeptO.mk ?_
    exact Kept.refl _
  · refine KeptO.mk ?_
    exact Kept.refl _
  · refine KeptO.mk ?_
    exact Kept.refl _
  · refine KeptO.mk ?_
    exact Kept.refl _
  · refine KeptO.ite ?_ ?_
    · refine KeptO.mk ?_
      exact (State.modSmb_kept _ _ _)
    · exact KeptO.none _
theorem State.packRead_kept (s : State) (o : Nat) : KeptOP s (State.packRead s o) := by
  unfold State.packRead
  try dsimp only
  try dsimp only
  split
  · refine KeptOP.mk ?_
    refine KeptP.mk ?_
    exact Kept.refl _
  · refine KeptOP.mk ?_
    refine KeptP.mk ?_
    exact Kept.refl _
  · refine KeptOP.mk ?_
    refine KeptP.mk ?_
    exact Kept.refl _
  · refine KeptOP.mk ?_
    refine KeptP.mk ?_
    exact Kept.refl _
  · refine KeptOP.mk ?_
    refine KeptP.mk ?_
    exact Kept.refl _
  · refine KeptOP.mk ?_
    refine KeptP.mk ?_
    exact Kept.refl _
  · refine KeptOP.mk ?_
    refine KeptP.mk ?_
    exact Kept.refl _
  · refine KeptOP.mk ?_
    refine KeptP.mk ?_
    exact Kept.refl _
  · refine KeptOP.mk ?_
    refine KeptP.mk ?_
    exact Kept.refl _
  · refine KeptOP.mk ?_
    refine KeptP.mk ?_
    exact Kept.refl _
  · refine KeptOP.mk ?_
    refine KeptP.mk ?_
    exact Kept.refl _
  · refine KeptOP.ite ?_ ?_
    · refine KeptOP.mk ?_
      refine KeptP.mk ?_
      exact Kept.refl _
    · refine KeptOP.ite ?_ ?_
      · refine KeptOP.mk ?_
        refine KeptP.mk ?_
        exact Kept.refl _
      · exact KeptOP.none _
theorem State.packWrite_kept (s : State) (o : Nat) (w : Word) : KeptO s (State.packWrite s o w) := by
  unfold State.packWrite
  try dsimp only
  split
  · refine KeptO.mk ?_
    refine Kept.ite ?_ ?_
    · exact (State.smbFlag_kept _ _ _)
    · refine Kept.ite ?_ ?_
      · exact Kept.refl _
      · try dsimp only
        refine Kept.ite ?_ ?_
        · exact (State.modPack_kept _ _)
        · refine Kept.trans ?_ (State.modPack_kept _ _)
          exact (State.modPack_kept _ _)
  · refine KeptO.mk ?_
    refine Kept.ite ?_ ?_
    · exact (State.packTrigger_kept _)
    · exact Kept.refl _
  · refine KeptO.ite ?_ ?_
    · refine KeptO.mk ?_
      refine Kept.ite ?_ ?_
      · exact Kept.refl _
      · exact (State.modPack_kept _ _)
    · refine KeptO.map fun _ => ?_
      exact Kept.refl _

/-! ## Tsi -/

theorem State.swapAt_kept (v : State) (s : State) : KeptP s (State.swapAt v s) := by
  unfold State.swapAt
  try dsimp only
  split
  · refine KeptP.mk ?_
    exact Kept.refl _
  · refine KeptP.ite ?_ ?_
    · refine KeptP.mk ?_
      exact Kept.refl _
    · try dsimp only
      refine KeptP.ite ?_ ?_
      · refine KeptP.mk ?_
        refine Kept.trans ?_ (State.raiseTsi_kept _ _)
        refine Kept.trans ?_ (State.modTsi_kept _ _ fun _ => rfl)
        exact Kept.refl _
      · try dsimp only
        refine KeptP.mk ?_
        refine Kept.trans ?_ (Kept.fin (fun _ _ => ?_) _)
        · refine Kept.trans ?_ (State.raiseTsi_kept _ _)
          refine Kept.trans ?_ (State.modTsi_kept _ _ fun _ => rfl)
          exact Kept.refl _
        · refine Kept.ite ?_ ?_
          · exact (State.fltBack_kept _ _)
          · exact Kept.refl _
theorem State.tsiPage_kept (v : State) (s : State) (mf : Bool) : KeptP s (State.tsiPage v s mf) := by
  unfold State.tsiPage
  refine KeptP.ite ?_ ?_
  · exact (State.swapAt_kept _ _)
  · refine KeptP.mk ?_
    exact Kept.refl _
theorem State.tsiFrame_kept (s : State) (rx : List (BitVec 9)) (fn : BitVec 4) : Kept s (State.tsiFrame s rx fn) := by
  unfold State.tsiFrame
  try dsimp only
  refine Kept.trans ?_ (State.raiseTsi_kept _ _)
  refine Kept.trans ?_ (State.modTsi_kept _ _ fun _ => rfl)
  exact Kept.refl _
theorem State.tsiWerr_kept (s : State) (reason : Nat) (i : Nat) : Kept s (State.tsiWerr s reason i) := by
  unfold State.tsiWerr
  refine Kept.trans ?_ (State.raiseTsi_kept _ _)
  refine Kept.trans ?_ (State.modTsi_kept _ _ fun _ => rfl)
  exact Kept.refl _
theorem State.retake_kept (s : State) : Kept s (State.retake s) := by
  unfold State.retake
  try dsimp only
  split
  · refine Kept.trans ?_ (State.modTsi_kept _ _ fun _ => rfl)
    exact Kept.refl _
  · exact Kept.refl _
theorem State.writeEntry_kept (s : State) (c : Fin 256) (i : Nat) (w : Word) : Kept s (State.writeEntry s c i w) := by
  unfold State.writeEntry
  dsimp only
  refine Kept.ite (State.tsiWerr_kept _ _ _) (Kept.ite (State.tsiWerr_kept _ _ _) (Kept.ite (State.tsiWerr_kept _ _ _)
    (Kept.ite (State.tsiWerr_kept _ _ _) ?_)))
  have h : Kept s (s.modTsi fun t => { t with conn := cellWrite 0 t.conn i w }) :=
    ⟨rfl, id, id, fun h => ⟨h.1, h.2.1, cellWf_write _ _ _ _ h.2.2⟩⟩
  exact h.trans (State.retake_kept _)
theorem State.tsiCopy_kept (s : State) (c : Fin 256) : Kept s (State.tsiCopy s c) := by
  unfold State.tsiCopy
  refine Kept.ite ?_ ?_
  · exact (State.raiseTsi_kept _ _)
  · refine Kept.trans ?_ (State.modTsi_kept _ _ fun _ => rfl)
    exact Kept.refl _
theorem State.tsiCopyDone_kept (s : State) : Kept s (State.tsiCopyDone s) := by
  unfold State.tsiCopyDone
  refine Kept.ite (Kept.refl _) ?_
  refine Kept.trans ?_ (State.raiseTsi_kept _ _)
  refine ⟨rfl, id, id, fun h => ⟨h.1, h.2.1, ?_⟩⟩
  have key : ∀ (l : List (Nat × Word)) (m : List (Nat × Word)), cellWf 0 m = true →
      cellWf 0 (l.foldl (fun m x => cellWrite 0 m (if s.tsi.active = true then x.1 - 256 else x.1 + 256) x.2) m) = true := by
    intro l
    induction l with
    | nil => exact fun _ h => h
    | cons x l ih => exact fun m h => ih _ (cellWf_write _ _ _ _ h)
  exact key _ _ (cellWf_filter _ _ _ h.2.2)
theorem State.tsiSwapReq_kept (s : State) (c : Fin 256) (admMask : BitVec 4) : Kept s (State.tsiSwapReq s c admMask) := by
  unfold State.tsiSwapReq
  refine Kept.ite ?_ ?_
  · exact (State.raiseTsi_kept _ _)
  · refine Kept.trans ?_ (State.modTsi_kept _ _ fun _ => rfl)
    exact Kept.refl _
theorem State.tsiCancel_kept (s : State) (c : Fin 256) : Kept s (State.tsiCancel s c) := by
  unfold State.tsiCancel
  refine Kept.ite ?_ ?_
  · exact (State.raiseTsi_kept _ _)
  · refine Kept.trans ?_ (State.modTsi_kept _ _ fun _ => rfl)
    exact Kept.refl _
theorem State.writeSwap_kept (s : State) (c : Fin 256) (w : Word) : Kept s (State.writeSwap s c w) := by
  unfold State.writeSwap
  refine Kept.ite ?_ ?_
  · exact (State.tsiCancel_kept _ _)
  · refine Kept.ite ?_ ?_
    · exact (State.tsiSwapReq_kept _ _ _)
    · refine Kept.ite ?_ ?_
      · exact (State.raiseTsi_kept _ _)
      · refine Kept.trans ?_ (State.modTsi_kept _ _ fun _ => rfl)
        exact Kept.refl _
theorem State.tsiRead_kept (s : State) (a : Nat) : KeptOP s (State.tsiRead s a) := by
  unfold State.tsiRead
  try dsimp only
  refine KeptOP.ite ?_ ?_
  · refine KeptOP.mk ?_
    refine KeptP.mk ?_
    exact Kept.refl _
  · refine KeptOP.ite ?_ ?_
    · refine KeptOP.mk ?_
      refine KeptP.mk ?_
      exact Kept.refl _
    · refine KeptOP.ite ?_ ?_
      · refine KeptOP.mk ?_
        refine KeptP.mk ?_
        exact Kept.refl _
      · try dsimp only
        split
        · refine KeptOP.mk ?_
          refine KeptP.mk ?_
          exact Kept.refl _
        · refine KeptOP.mk ?_
          refine KeptP.mk ?_
          exact Kept.refl _
        · refine KeptOP.mk ?_
          refine KeptP.mk ?_
          exact Kept.refl _
        · refine KeptOP.mk ?_
          refine KeptP.mk ?_
          exact Kept.refl _
        · refine KeptOP.mk ?_
          refine KeptP.mk ?_
          exact Kept.refl _
        · refine KeptOP.mk ?_
          refine KeptP.mk ?_
          exact Kept.refl _
        · refine KeptOP.mk ?_
          refine KeptP.mk ?_
          exact Kept.refl _
        · refine KeptOP.mk ?_
          refine KeptP.mk ?_
          exact Kept.refl _
        · exact KeptOP.none _
theorem State.tsiWrite_kept (s : State) (c : Fin 256) (a : Nat) (w : Word) : KeptO s (State.tsiWrite s c a w) := by
  unfold State.tsiWrite
  refine KeptO.ite ?_ ?_
  · refine KeptO.mk ?_
    exact (State.writeEntry_kept _ _ _ _)
  · refine KeptO.ite ?_ ?_
    · refine KeptO.mk ?_
      exact Kept.refl _
    · refine KeptO.ite ?_ ?_
      · refine KeptO.mk ?_
        refine Kept.trans ?_ (State.modTsi_kept _ _ fun _ => rfl)
        exact Kept.refl _
      · try dsimp only
        split
        · refine KeptO.mk ?_
          refine Kept.ite ?_ ?_
          · exact (State.tsiCopy_kept _ _)
          · refine Kept.ite ?_ ?_
            · exact (State.raiseTsi_kept _ _)
            · exact Kept.refl _
        · refine KeptO.mk ?_
          exact (State.writeSwap_kept _ _ _)
        · refine KeptO.mk ?_
          refine Kept.trans ?_ (State.modTsi_kept _ _ fun _ => rfl)
          exact Kept.refl _
        · refine KeptO.mk ?_
          refine Kept.trans ?_ (State.modTsi_kept _ _ fun _ => rfl)
          exact Kept.refl _
        · refine KeptO.mk ?_
          refine Kept.trans ?_ (State.modTsi_kept _ _ fun _ => rfl)
          exact Kept.refl _
        · refine KeptO.mk ?_
          refine Kept.trans ?_ (State.modTsi_kept _ _ fun _ => rfl)
          exact Kept.refl _
        · refine KeptO.mk ?_
          exact Kept.refl _
        · refine KeptO.mk ?_
          exact Kept.refl _
        · exact KeptO.none _

/-! ## Links -/

theorem State.linkSec_kept (s : State) (l : Fin 4) (f : LinkSec → LinkSec) : Kept s (State.linkSec s l f) := by
  unfold State.linkSec
  exact (State.modPm_kept _ _)
theorem State.hlFlag_kept (s : State) (l : Fin 4) (b : BitVec 15) : Kept s (State.hlFlag s l b) := by
  unfold State.hlFlag
  refine Kept.trans ?_ (State.hwSet_kept _ _ _)
  exact (State.modLink_kept _ _ _)
theorem State.mdcAcked_kept (s : State) (l : Fin 4) (o : MdcOut) : Kept s (State.mdcAcked s l o) := by
  unfold State.mdcAcked
  try dsimp only
  try dsimp only
  split
  · exact (State.modLink_kept _ _ _)
  · refine Kept.ite ?_ ?_
    · exact (State.modLink_kept _ _ _)
    · try dsimp only
      refine Kept.trans ?_ (State.post_kept _ _ _ _ _ _ _ _ _)
      refine Kept.trans ?_ (State.setBuf_kept _ _ _)
      exact (State.modLink_kept _ _ _)
theorem State.lateAck_kept (s : State) (l : Fin 4) : Kept s (State.lateAck s l) := by
  unfold State.lateAck
  refine Kept.trans ?_ (State.hlFlag_kept _ _ _)
  exact (State.modLink_kept _ _ _)
theorem State.mdcAck_kept (s : State) (l : Fin 4) (ack : BitVec 16) : Kept s (State.mdcAck s l ack) := by
  unfold State.mdcAck
  try dsimp only
  refine Kept.ite ?_ ?_
  · exact (State.modLink_kept _ _ _)
  · try dsimp only
    try dsimp only
    split
    · refine Kept.ite ?_ ?_
      · exact (State.modLink_kept _ _ _)
      · refine Kept.ite ?_ ?_
        · refine Kept.trans ?_ (State.modCyc_kept _ _)
          exact (State.modLink_kept _ _ _)
        · refine Kept.trans ?_ (State.mdcAcked_kept _ _ _)
          exact (State.modLink_kept _ _ _)
    · refine Kept.ite ?_ ?_
      · refine Kept.trans ?_ (State.lateAck_kept _ _)
        exact (State.modLink_kept _ _ _)
      · exact (State.modLink_kept _ _ _)
theorem State.mdcTxStart_kept (s : State) (l : Fin 4) : Kept s (State.mdcTxStart s l) := by
  unfold State.mdcTxStart
  try dsimp only
  refine Kept.ite ?_ ?_
  · exact Kept.refl _
  · try dsimp only
    split
    · exact Kept.refl _
    · try dsimp only
      exact (State.modLink_kept _ _ _)
theorem State.mdcRetry_kept (s : State) (l : Fin 4) : Kept s (State.mdcRetry s l) := by
  unfold State.mdcRetry
  try dsimp only
  try dsimp only
  split
  · exact Kept.refl _
  · try dsimp only
    refine Kept.ite ?_ ?_
    · exact (State.modLink_kept _ _ _)
    · exact Kept.refl _
theorem State.mdcGiveup_kept (s : State) (l : Fin 4) : Kept s (State.mdcGiveup s l) := by
  unfold State.mdcGiveup
  exact (State.modCyc_kept _ _)
theorem State.giveUp_kept (s : State) (l : Fin 4) : Kept s (State.giveUp s l) := by
  unfold State.giveUp
  try dsimp only
  split
  · exact Kept.refl _
  · refine Kept.ite ?_ ?_
    · try dsimp only
      try dsimp only
      split
      · refine Kept.trans ?_ (State.hlFlag_kept _ _ _)
        exact (State.modLink_kept _ _ _)
      · try dsimp only
        refine Kept.trans ?_ (State.postFailed_kept _ _ _ _ _ _ _)
        try dsimp only
        split
        · refine Kept.trans ?_ (State.dropRequestOf_kept _ _)
          refine Kept.trans ?_ (State.hlFlag_kept _ _ _)
          exact (State.modLink_kept _ _ _)
        · refine Kept.trans ?_ (State.setBuf_kept _ _ _)
          refine Kept.trans ?_ (State.hlFlag_kept _ _ _)
          exact (State.modLink_kept _ _ _)
    · exact Kept.refl _
theorem State.putBytes_kept (bs : List Byte) : ∀ (s : State) (a : Nat), Kept s (State.putBytes s a bs) := by
  induction bs with
  | nil => exact fun s _ => Kept.refl s
  | cons b bs ih => exact fun s a => Kept.trans (State.memWrite_kept s a 0 _) (ih _ _)
theorem State.fillBuf_kept (s : State) (i : Fin 256) (msgid : BitVec 12) (payload : List Byte) : Kept s (State.fillBuf s i msgid payload) := by
  unfold State.fillBuf
  refine Kept.trans ?_ (State.putBytes_kept _ _ _)
  exact (State.memWrite_kept _ _ _ _)
theorem State.deliverResponse_kept (s : State) (l : Fin 4) (c : Fin 256) (msgid : BitVec 12) (payload : List Byte) : Kept s (State.deliverResponse s l c msgid payload) := by
  unfold State.deliverResponse
  refine Kept.ite ?_ ?_
  · exact (State.modUpd_kept _ _)
  · exact (State.modCyc_kept _ _)
theorem State.matchResponse_kept (s : State) (x : Response) : Kept s (State.matchResponse s x) := by
  unfold State.matchResponse
  try dsimp only
  split
  · try dsimp only
    refine Kept.trans ?_ (State.post_kept _ _ _ _ _ _ _ _ _)
    refine Kept.trans ?_ (State.fillBuf_kept _ _ _ _)
    exact (State.dropRequestOf_kept _ _)
  · refine Kept.trans ?_ (State.scFlag_kept _ _)
    exact (State.modClient_kept _ _ _)
theorem State.matchAll_kept (s : State) : Kept s (State.matchAll s) := by
  unfold State.matchAll
  refine Kept.trans ?_ (Kept.foldl (fun _ _ => ?_) _ _)
  · exact Kept.refl _
  · exact (State.matchResponse_kept _ _)
theorem State.dropMsg_kept (s : State) (c : Fin 256) : Kept s (State.dropMsg s c) := by
  unfold State.dropMsg
  exact (State.modClient_kept _ _ _)
theorem State.deliverMessage_kept (s : State) (l : Fin 4) (c : Fin 256) (msgid : BitVec 12) (payload : List Byte) : Kept s (State.deliverMessage s l c msgid payload) := by
  unfold State.deliverMessage
  refine Kept.ite ?_ ?_
  · exact (State.dropMsg_kept _ _)
  · try dsimp only
    refine Kept.ite ?_ ?_
    · exact (State.dropMsg_kept _ _)
    · try dsimp only
      refine Kept.trans ?_ (State.post_kept _ _ _ _ _ _ _ _ _)
      refine Kept.trans ?_ (State.fillBuf_kept _ _ _ _)
      exact (State.bufAlloc_kept _ _)
theorem State.mdcReceive_kept (s : State) (l : Fin 4) (octets : List Byte) (bad : Bool) : Kept s (State.mdcReceive s l octets bad) := by
  unfold State.mdcReceive
  try dsimp only
  refine Kept.ite ?_ ?_
  · exact Kept.refl _
  · refine Kept.ite ?_ ?_
    · refine Kept.trans ?_ (State.hlFlag_kept _ _ _)
      exact (State.modLink_kept _ _ _)
    · try dsimp only
      refine Kept.ite ?_ ?_
      · exact (State.modLink_kept _ _ _)
      · try dsimp only
        refine Kept.ite ?_ ?_
        · refine Kept.trans ?_ (State.deliverResponse_kept _ _ _ _ _)
          refine Kept.trans ?_ (State.modLink_kept _ _ _)
          exact (State.modLink_kept _ _ _)
        · refine Kept.trans ?_ (State.deliverMessage_kept _ _ _ _ _)
          refine Kept.trans ?_ (State.modLink_kept _ _ _)
          exact (State.modLink_kept _ _ _)
theorem State.countBip_kept (s : State) (l : Fin 4) (e : Nat) : Kept s (State.countBip s l e) := by
  unfold State.countBip
  try dsimp only
  refine Kept.trans ?_ (State.linkSec_kept _ _ _)
  exact (State.modLink_kept _ _ _)
theorem State.hlFrame_kept (s : State) (l : Fin 4) (comma : Bool) (k1 : Bool) (o1 : Option Byte) (bytes : List (Option Byte)) : Kept s (State.hlFrame s l comma k1 o1 bytes) := by
  unfold State.hlFrame
  try dsimp only
  refine Kept.ite ?_ ?_
  · exact Kept.refl _
  · try dsimp only
    refine Kept.ite ?_ ?_
    · refine Kept.trans ?_ (State.modLink_kept _ _ _)
      refine Kept.ite ?_ ?_
      · refine Kept.trans ?_ (State.linkSec_kept _ _ _)
        exact (State.modLink_kept _ _ _)
      · exact (State.modLink_kept _ _ _)
    · try dsimp only
      refine Kept.ite ?_ ?_
      · try dsimp only
        refine Kept.ite ?_ ?_
        · refine Kept.trans ?_ (State.modLink_kept _ _ _)
          try dsimp only
          split
          · refine Kept.trans ?_ (State.mdcAck_kept _ _ _)
            refine Kept.trans ?_ (State.modLink_kept _ _ _)
            try dsimp only
            split
            · refine Kept.trans ?_ (State.countBip_kept _ _ _)
              refine Kept.ite ?_ ?_
              · refine Kept.trans ?_ (State.linkSec_kept _ _ _)
                exact (State.modLink_kept _ _ _)
              · exact (State.modLink_kept _ _ _)
            · refine Kept.ite ?_ ?_
              · refine Kept.trans ?_ (State.linkSec_kept _ _ _)
                exact (State.modLink_kept _ _ _)
              · exact (State.modLink_kept _ _ _)
          · refine Kept.trans ?_ (State.modLink_kept _ _ _)
            try dsimp only
            split
            · refine Kept.trans ?_ (State.countBip_kept _ _ _)
              refine Kept.ite ?_ ?_
              · refine Kept.trans ?_ (State.linkSec_kept _ _ _)
                exact (State.modLink_kept _ _ _)
              · exact (State.modLink_kept _ _ _)
            · refine Kept.ite ?_ ?_
              · refine Kept.trans ?_ (State.linkSec_kept _ _ _)
                exact (State.modLink_kept _ _ _)
              · exact (State.modLink_kept _ _ _)
        · try dsimp only
          refine Kept.ite ?_ ?_
          · refine Kept.trans ?_ (State.packTrigger_kept _)
            refine Kept.trans ?_ (State.hlFlag_kept _ _ _)
            refine Kept.trans ?_ (State.modLink_kept _ _ _)
            try dsimp only
            split
            · refine Kept.trans ?_ (State.mdcAck_kept _ _ _)
              refine Kept.trans ?_ (State.modLink_kept _ _ _)
              try dsimp only
              split
              · refine Kept.trans ?_ (State.countBip_kept _ _ _)
                refine Kept.ite ?_ ?_
                · refine Kept.trans ?_ (State.linkSec_kept _ _ _)
                  exact (State.modLink_kept _ _ _)
                · exact (State.modLink_kept _ _ _)
              · refine Kept.ite ?_ ?_
                · refine Kept.trans ?_ (State.linkSec_kept _ _ _)
                  exact (State.modLink_kept _ _ _)
                · exact (State.modLink_kept _ _ _)
            · refine Kept.trans ?_ (State.modLink_kept _ _ _)
              try dsimp only
              split
              · refine Kept.trans ?_ (State.countBip_kept _ _ _)
                refine Kept.ite ?_ ?_
                · refine Kept.trans ?_ (State.linkSec_kept _ _ _)
                  exact (State.modLink_kept _ _ _)
                · exact (State.modLink_kept _ _ _)
              · refine Kept.ite ?_ ?_
                · refine Kept.trans ?_ (State.linkSec_kept _ _ _)
                  exact (State.modLink_kept _ _ _)
                · exact (State.modLink_kept _ _ _)
          · refine Kept.trans ?_ (State.hlFlag_kept _ _ _)
            refine Kept.trans ?_ (State.modLink_kept _ _ _)
            try dsimp only
            split
            · refine Kept.trans ?_ (State.mdcAck_kept _ _ _)
              refine Kept.trans ?_ (State.modLink_kept _ _ _)
              try dsimp only
              split
              · refine Kept.trans ?_ (State.countBip_kept _ _ _)
                refine Kept.ite ?_ ?_
                · refine Kept.trans ?_ (State.linkSec_kept _ _ _)
                  exact (State.modLink_kept _ _ _)
                · exact (State.modLink_kept _ _ _)
              · refine Kept.ite ?_ ?_
                · refine Kept.trans ?_ (State.linkSec_kept _ _ _)
                  exact (State.modLink_kept _ _ _)
                · exact (State.modLink_kept _ _ _)
            · refine Kept.trans ?_ (State.modLink_kept _ _ _)
              try dsimp only
              split
              · refine Kept.trans ?_ (State.countBip_kept _ _ _)
                refine Kept.ite ?_ ?_
                · refine Kept.trans ?_ (State.linkSec_kept _ _ _)
                  exact (State.modLink_kept _ _ _)
                · exact (State.modLink_kept _ _ _)
              · refine Kept.ite ?_ ?_
                · refine Kept.trans ?_ (State.linkSec_kept _ _ _)
                  exact (State.modLink_kept _ _ _)
                · exact (State.modLink_kept _ _ _)
      · try dsimp only
        split
        · refine Kept.trans ?_ (State.mdcAck_kept _ _ _)
          refine Kept.trans ?_ (State.modLink_kept _ _ _)
          try dsimp only
          split
          · refine Kept.trans ?_ (State.countBip_kept _ _ _)
            refine Kept.ite ?_ ?_
            · refine Kept.trans ?_ (State.linkSec_kept _ _ _)
              exact (State.modLink_kept _ _ _)
            · exact (State.modLink_kept _ _ _)
          · refine Kept.ite ?_ ?_
            · refine Kept.trans ?_ (State.linkSec_kept _ _ _)
              exact (State.modLink_kept _ _ _)
            · exact (State.modLink_kept _ _ _)
        · refine Kept.trans ?_ (State.modLink_kept _ _ _)
          try dsimp only
          split
          · refine Kept.trans ?_ (State.countBip_kept _ _ _)
            refine Kept.ite ?_ ?_
            · refine Kept.trans ?_ (State.linkSec_kept _ _ _)
              exact (State.modLink_kept _ _ _)
            · exact (State.modLink_kept _ _ _)
          · refine Kept.ite ?_ ?_
            · refine Kept.trans ?_ (State.linkSec_kept _ _ _)
              exact (State.modLink_kept _ _ _)
            · exact (State.modLink_kept _ _ _)
theorem State.hlComma_kept (s : State) (l : Fin 4) (k285 : Bool) (complement : Bool) : Kept s (State.hlComma s l k285 complement) := by
  unfold State.hlComma
  exact (State.modLink_kept _ _ _)
theorem State.hlLos_kept (s : State) (l : Fin 4) (los : Bool) : Kept s (State.hlLos s l los) := by
  unfold State.hlLos
  exact (State.modLink_kept _ _ _)
theorem State.hlResync_kept (s : State) (l : Fin 4) : Kept s (State.hlResync s l) := by
  unfold State.hlResync
  exact (State.modLink_kept _ _ _)
theorem State.declare_kept (s : State) (l : Fin 4) (d : Fin 6) : Kept s (State.declare s l d) := by
  unfold State.declare
  try dsimp only
  refine Kept.trans ?_ (State.report_kept _ _ _ _ _)
  refine Kept.trans ?_ (State.linkSec_kept _ _ _)
  refine Kept.trans ?_ (State.hlFlag_kept _ _ _)
  exact (State.modLink_kept _ _ _)
theorem State.undeclare_kept (s : State) (l : Fin 4) (d : Fin 6) : Kept s (State.undeclare s l d) := by
  unfold State.undeclare
  refine Kept.trans ?_ (State.hlFlag_kept _ _ _)
  exact (State.modLink_kept _ _ _)
theorem State.integrate_kept (s : State) (l : Fin 4) (d : Fin 6) (present : Bool) : Kept s (State.integrate s l d present) := by
  unfold State.integrate
  try dsimp only
  refine Kept.ite ?_ ?_
  · exact (State.modLink_kept _ _ _)
  · try dsimp only
    refine Kept.ite ?_ ?_
    · refine Kept.ite ?_ ?_
      · exact (State.undeclare_kept _ _ _)
      · exact (State.modLink_kept _ _ _)
    · refine Kept.ite ?_ ?_
      · exact (State.declare_kept _ _ _)
      · exact (State.modLink_kept _ _ _)
theorem State.endInterval_kept (s : State) (l : Fin 4) : Kept s (State.endInterval s l) := by
  unfold State.endInterval
  try dsimp only
  refine Kept.ite ?_ ?_
  · exact Kept.refl _
  · try dsimp only
    refine Kept.ite ?_ ?_
    · refine Kept.trans ?_ (State.hlFlag_kept _ _ _)
      refine Kept.trans ?_ (State.modLink_kept _ _ _)
      refine Kept.ite ?_ ?_
      · refine Kept.trans ?_ (State.linkSec_kept _ _ _)
        refine Kept.trans ?_ (State.integrate_kept _ _ _ _)
        refine Kept.trans ?_ (State.integrate_kept _ _ _ _)
        refine Kept.trans ?_ (State.integrate_kept _ _ _ _)
        refine Kept.trans ?_ (State.integrate_kept _ _ _ _)
        exact (State.integrate_kept _ _ _ _)
      · refine Kept.trans ?_ (State.integrate_kept _ _ _ _)
        refine Kept.trans ?_ (State.integrate_kept _ _ _ _)
        refine Kept.trans ?_ (State.integrate_kept _ _ _ _)
        refine Kept.trans ?_ (State.integrate_kept _ _ _ _)
        exact (State.integrate_kept _ _ _ _)
    · refine Kept.trans ?_ (State.modLink_kept _ _ _)
      refine Kept.ite ?_ ?_
      · refine Kept.trans ?_ (State.linkSec_kept _ _ _)
        refine Kept.trans ?_ (State.integrate_kept _ _ _ _)
        refine Kept.trans ?_ (State.integrate_kept _ _ _ _)
        refine Kept.trans ?_ (State.integrate_kept _ _ _ _)
        refine Kept.trans ?_ (State.integrate_kept _ _ _ _)
        exact (State.integrate_kept _ _ _ _)
      · refine Kept.trans ?_ (State.integrate_kept _ _ _ _)
        refine Kept.trans ?_ (State.integrate_kept _ _ _ _)
        refine Kept.trans ?_ (State.integrate_kept _ _ _ _)
        refine Kept.trans ?_ (State.integrate_kept _ _ _ _)
        exact (State.integrate_kept _ _ _ _)
theorem State.degJudge_kept (s : State) (l : Fin 4) : Kept s (State.degJudge s l) := by
  unfold State.degJudge
  try dsimp only
  refine Kept.ite ?_ ?_
  · exact Kept.refl _
  · try dsimp only
    refine Kept.trans ?_ (State.modLink_kept _ _ _)
    refine Kept.ite ?_ ?_
    · exact Kept.refl _
    · try dsimp only
      refine Kept.ite ?_ ?_
      · refine Kept.ite ?_ ?_
        · refine Kept.trans ?_ (State.undeclare_kept _ _ _)
          exact (State.modLink_kept _ _ _)
        · exact (State.modLink_kept _ _ _)
      · refine Kept.ite ?_ ?_
        · refine Kept.trans ?_ (State.declare_kept _ _ _)
          exact (State.modLink_kept _ _ _)
        · exact (State.modLink_kept _ _ _)
theorem State.pmSecond_kept (s : State) : Kept s (State.pmSecond s) := by
  unfold State.pmSecond
  refine Kept.ite ?_ ?_
  · exact Kept.refl _
  · try dsimp only
    refine Kept.ite ?_ ?_
    · refine Kept.trans ?_ (State.modPm_kept _ _)
      refine Kept.trans ?_ (Kept.fin (fun _ _ => ?_) _)
      · exact (State.pmVerdicts_kept _)
      · exact (State.degJudge_kept _ _)
    · refine Kept.trans ?_ (State.updateViews_kept _)
      refine Kept.trans ?_ (State.modPm_kept _ _)
      refine Kept.trans ?_ (Kept.fin (fun _ _ => ?_) _)
      · exact (State.pmVerdicts_kept _)
      · exact (State.degJudge_kept _ _)
theorem State.startFrame_kept (v : State) (s : State) (l : Fin 4) (fn : BitVec 4) (slots : List (BitVec 9)) : Kept s (State.startFrame v s l fn slots) := by
  unfold State.startFrame
  try dsimp only
  refine Kept.trans ?_ (State.modLink_kept _ _ _)
  refine Kept.ite ?_ ?_
  · refine Kept.trans ?_ (State.sigOpen_kept _ _ _)
    try dsimp only
    split
    · refine Kept.ite ?_ ?_
      · exact Kept.refl _
      · exact (State.modMsp_kept _ _ _)
    · exact Kept.refl _
  · try dsimp only
    split
    · refine Kept.ite ?_ ?_
      · exact Kept.refl _
      · exact (State.modMsp_kept _ _ _)
    · exact Kept.refl _
theorem State.handFrame_kept (s : State) (l : Fin 4) : Kept s (State.handFrame s l) := by
  unfold State.handFrame
  try dsimp only
  refine Kept.trans ?_ (State.modLink_kept _ _ _)
  refine Kept.ite ?_ ?_
  · refine Kept.ite ?_ ?_
    · refine Kept.trans ?_ (State.mspRun_kept _ _ _)
      refine Kept.trans ?_ (State.modTsi_kept _ _ fun _ => rfl)
      exact Kept.refl _
    · refine Kept.trans ?_ (State.modTsi_kept _ _ fun _ => rfl)
      exact Kept.refl _
  · refine Kept.ite ?_ ?_
    · refine Kept.ite ?_ ?_
      · refine Kept.trans ?_ (State.mspRun_kept _ _ _)
        refine Kept.trans ?_ (State.modTsi_kept _ _ fun _ => rfl)
        exact Kept.refl _
      · refine Kept.trans ?_ (State.modTsi_kept _ _ fun _ => rfl)
        exact Kept.refl _
    · refine Kept.trans ?_ (State.modTsi_kept _ _ fun _ => rfl)
      exact Kept.refl _
theorem State.decideHand_kept (s : State) (l : Fin 4) (part : Nat) : Kept s (State.decideHand s l part) := by
  unfold State.decideHand
  try dsimp only
  refine Kept.ite ?_ ?_
  · exact (State.modLink_kept _ _ _)
  · refine Kept.trans ?_ (State.hlFlag_kept _ _ _)
    refine Kept.trans ?_ (State.linkSec_kept _ _ _)
    exact (State.modLink_kept _ _ _)
theorem State.frameBoundary_kept (s : State) (parts : List Nat) : Kept s (State.frameBoundary s parts) := by
  unfold State.frameBoundary
  refine Kept.ite (Kept.refl s) ?_
  dsimp only
  have g : ∀ (l : Fin 4) (s : State), Kept s (if (s.link l).en = true then s.handFrame l
      else s.modTsi fun t => { t with ingress := vset t.ingress l fun _ => [] }) := fun l s =>
    Kept.ite (State.handFrame_kept _ _) (State.modTsi_kept s (fun t => { t with ingress := vset t.ingress l fun _ => [] }) fun _ => rfl)
  have h := Kept.fin g s
  revert h
  generalize foldFin 4 _ s = u
  intro h
  have k : Kept s (State.tsiPage u.frameView u (decide (u.tsi.fn + 1 = 0))).2 := h.trans (State.tsiPage_kept _ _ _)
  refine Kept.trans ?_ (Kept.fin (fun _ _ => State.endInterval_kept _ _) _)
  refine Kept.trans ?_ (Kept.fin (fun _ _ => Kept.ite (State.decideHand_kept _ _ _) (Kept.refl _)) _)
  refine Kept.trans ?_ (State.modTsi_kept _ _ fun _ => rfl)
  refine Kept.trans ?_ (State.tsiFrame_kept _ _ _)
  exact k.trans (Kept.fin (fun _ _ => Kept.ite (State.startFrame_kept _ _ _ _ _) (State.modLink_kept _ _ _)) _)
theorem State.settleMsp_kept (s0 s : State) : Kept s (State.settleMsp s0 s) := by
  unfold State.settleMsp
  refine Kept.fin (fun m s => ?_) s
  dsimp only
  have h : Kept s (if s0.mspLink m = s.mspLink m then s else s.modMsp m fun x => x.empty) :=
    Kept.ite (Kept.refl s) (State.modMsp_kept _ _ _)
  exact Kept.ite (h.trans (State.mspRun_kept _ _ _)) h
theorem State.hlEnable_kept (s : State) (l : Fin 4) : Kept s (State.hlEnable s l) := by
  unfold State.hlEnable
  refine Kept.ite ?_ ?_
  · exact Kept.refl _
  · exact (State.modLink_kept _ _ _)
theorem State.hlDisable_kept (s : State) (l : Fin 4) : Kept s (State.hlDisable s l) := by
  unfold State.hlDisable
  try dsimp only
  refine Kept.trans ?_ (State.linkSec_kept _ _ _)
  exact (State.modLink_kept _ _ _)
theorem State.fenceLink_kept (s : State) (l : Fin 4) : Kept s (State.fenceLink s l) := by
  unfold State.fenceLink
  refine Kept.trans ?_ (State.linkSec_kept _ _ _)
  refine Kept.trans ?_ (State.modTsi_kept _ _ fun _ => rfl)
  exact (State.modLink_kept _ _ _)
theorem State.unfenceLink_kept (s : State) (l : Fin 4) : Kept s (State.unfenceLink s l) := by
  unfold State.unfenceLink
  exact (State.modLink_kept _ _ _)
theorem State.writeHlCfg_kept (s : State) (l : Fin 4) (w : Word) : Kept s (State.writeHlCfg s l w) := by
  unfold State.writeHlCfg
  try dsimp only
  refine Kept.trans ?_ (State.settleMsp_kept _ _)
  refine Kept.ite ?_ ?_
  · refine Kept.trans ?_ (State.hlEnable_kept _ _)
    refine Kept.ite ?_ ?_
    · exact Kept.refl _
    · exact (State.modLink_kept _ _ _)
  · refine Kept.trans ?_ (State.hlDisable_kept _ _)
    refine Kept.ite ?_ ?_
    · exact Kept.refl _
    · exact (State.modLink_kept _ _ _)
theorem State.hlRead_kept (s : State) (l : Fin 4) (o : Nat) : KeptOP s (State.hlRead s l o) := by
  unfold State.hlRead
  try dsimp only
  try dsimp only
  split
  · refine KeptOP.mk ?_
    refine KeptP.mk ?_
    exact Kept.refl _
  · refine KeptOP.mk ?_
    refine KeptP.mk ?_
    exact Kept.refl _
  · refine KeptOP.mk ?_
    refine KeptP.mk ?_
    exact Kept.refl _
  · refine KeptOP.mk ?_
    refine KeptP.mk ?_
    exact Kept.refl _
  · refine KeptOP.mk ?_
    refine KeptP.mk ?_
    exact Kept.refl _
  · refine KeptOP.mk ?_
    refine KeptP.mk ?_
    exact Kept.refl _
  · refine KeptOP.mk ?_
    refine KeptP.mk ?_
    exact Kept.refl _
  · refine KeptOP.mk ?_
    refine KeptP.mk ?_
    exact Kept.refl _
  · refine KeptOP.mk ?_
    refine KeptP.mk ?_
    exact (State.modLink_kept _ _ _)
  · refine KeptOP.mk ?_
    refine KeptP.mk ?_
    exact (State.modLink_kept _ _ _)
  · refine KeptOP.mk ?_
    refine KeptP.mk ?_
    exact (State.modLink_kept _ _ _)
  · refine KeptOP.mk ?_
    refine KeptP.mk ?_
    exact (State.modLink_kept _ _ _)
  · refine KeptOP.mk ?_
    refine KeptP.mk ?_
    exact Kept.refl _
  · refine KeptOP.mk ?_
    refine KeptP.mk ?_
    exact Kept.refl _
  · refine KeptOP.ite ?_ ?_
    · refine KeptOP.mk ?_
      refine KeptP.mk ?_
      exact Kept.refl _
    · refine KeptOP.ite ?_ ?_
      · refine KeptOP.mk ?_
        refine KeptP.mk ?_
        exact Kept.refl _
      · exact KeptOP.none _
theorem State.hlWrite_kept (s : State) (l : Fin 4) (o : Nat) (w : Word) : KeptO s (State.hlWrite s l o w) := by
  unfold State.hlWrite
  try dsimp only
  try dsimp only
  split
  · refine KeptO.mk ?_
    exact (State.writeHlCfg_kept _ _ _)
  · refine KeptO.mk ?_
    exact (State.modLink_kept _ _ _)
  · refine KeptO.mk ?_
    exact (State.modLink_kept _ _ _)
  · try dsimp only
    refine KeptO.mk ?_
    refine Kept.ite ?_ ?_
    · exact (State.hlFlag_kept _ _ _)
    · refine Kept.ite ?_ ?_
      · exact Kept.refl _
      · exact (State.modLink_kept _ _ _)
  · refine KeptO.mk ?_
    refine Kept.ite ?_ ?_
    · exact (State.hlFlag_kept _ _ _)
    · refine Kept.ite ?_ ?_
      · exact Kept.refl _
      · exact (State.modLink_kept _ _ _)
  · refine KeptO.mk ?_
    refine Kept.ite ?_ ?_
    · exact Kept.refl _
    · exact (State.modLink_kept _ _ _)
  · refine KeptO.mk ?_
    refine Kept.ite ?_ ?_
    · exact (State.hlResync_kept _ _)
    · exact Kept.refl _
  · refine KeptO.map fun _ => ?_
    exact Kept.refl _

/-! ## PinSeq -/

theorem State.psIll_kept (s : State) (e : Fin 8) : Kept s (State.psIll s e) := by
  unfold State.psIll
  try dsimp only
  refine Kept.trans ?_ (State.report_kept _ _ _ _ _)
  refine Kept.trans ?_ (State.raisePs_kept _ _ _)
  refine Kept.trans ?_ (State.modEng_kept _ _ _ fun _ => by refine ⟨fun _ => ?_, fun _ => ?_⟩ <;> first | assumption | exact Nat.zero_le _)
  exact (State.free_kept _)
theorem State.fencePs_kept (s : State) (e : Fin 8) : Kept s (State.fencePs s e) := by
  unfold State.fencePs
  refine Kept.trans ?_ (State.modCyc_kept _ _)
  refine Kept.trans ?_ (State.modEng_kept _ _ _ fun _ => by refine ⟨fun _ => ?_, fun _ => ?_⟩ <;> first | assumption | exact Nat.zero_le _)
  exact Kept.refl _
theorem State.unfencePs_kept (s : State) (e : Fin 8) : Kept s (State.unfencePs s e) := by
  unfold State.unfencePs
  refine State.modEng_kept _ _ _ fun p => ?_
  split <;> exact ⟨id, id⟩
theorem State.psFetch_kept (s : State) (e : Fin 8) : KeptP s (State.psFetch s e) := by
  unfold State.psFetch
  dsimp only
  have bad : ∀ s : State, Kept s ((s.fencePs e).report 0x06 5 e.val 0) := fun s =>
    (State.fencePs_kept s e).trans (State.report_kept _ _ _ _ _)
  have ps : ∀ (s : State) (p : PinSeqs), p.eng = s.ps.eng → Kept s { s with ps := p } := fun s p h => Kept.same rfl rfl h rfl rfl rfl
  have fr := State.free_kept s
  split
  · exact Kept.refl s
  · exact ps _ _ rfl
  · exact bad _
  · split
    · exact Kept.trans fr (bad _)
    · exact Kept.trans fr ((ps _ _ rfl).trans (ps _ _ rfl))
    · exact Kept.trans fr (ps _ _ rfl)
/-- TX holds no more than n words, RX no more than 8. -/
def PsOut.Bounded (n : Nat) (o : PsOut) : Prop := o.p.tx.length ≤ n ∧ o.p.rx.length ≤ 8
theorem PsOut.Bounded.ite {n : Nat} {a b : PsOut} {c : Prop} [Decidable c] (h : c → a.Bounded n) (k : ¬c → b.Bounded n) :
    (if c then a else b).Bounded n := by
  split
  · exact h ‹_›
  · exact k ‹_›
theorem PsOut.Bounded.pick {n : Nat} {p q : PinSeq} {f : BitVec 16} {d : Bool} {x : Nat} (c : Prop) [Decidable c]
    (h : p.tx.length ≤ n ∧ p.rx.length ≤ 8) (k : q.tx.length ≤ n ∧ q.rx.length ≤ 8) :
    PsOut.Bounded n { p := if c then p else q, flags := f, done := d, extra := x } := by
  unfold PsOut.Bounded
  dsimp only
  split <;> assumption
theorem PinSeq.bits_bound {k : Nat} (p : PinSeq) (n : Nat) (h : p.tx.length ≤ k ∧ p.rx.length ≤ 8) :
    (p.bits n).1.tx.length ≤ k ∧ (p.bits n).1.rx.length ≤ 8 := by
  unfold PinSeq.bits
  dsimp only
  split
  · exact h
  · split
    · exact h
    · rename_i w rest hx
      refine ⟨?_, h.2⟩
      have := h.1
      rw [hx] at this
      exact Nat.le_of_succ_le this
theorem PinSeq.setPins_fifos (g : Nat → Option (Nat × Bool)) (l : List Nat) : ∀ q : PinSeq,
    (l.foldl (fun q i => match g i with | some x => q.setPin x.1 x.2 | none => q) q).tx = q.tx ∧
    (l.foldl (fun q i => match g i with | some x => q.setPin x.1 x.2 | none => q) q).rx = q.rx := by
  induction l with
  | nil => exact fun q => ⟨rfl, rfl⟩
  | cons i l ih =>
    intro q
    rw [List.foldl_cons]
    refine ⟨(ih _).1.trans ?_, (ih _).2.trans ?_⟩ <;> (split <;> rfl)
theorem foldl_fifos (f : PinSeq → Nat → PinSeq) (h : ∀ q i, (f q i).tx = q.tx ∧ (f q i).rx = q.rx) (l : List Nat) :
    ∀ q : PinSeq, (l.foldl f q).tx = q.tx ∧ (l.foldl f q).rx = q.rx := by
  induction l with
  | nil => exact fun q => ⟨rfl, rfl⟩
  | cons i l ih =>
    intro q
    rw [List.foldl_cons]
    exact ⟨(ih _).1.trans (h q i).1, (ih _).2.trans (h q i).2⟩
theorem psExec_bound {k : Nat} (p : PinSeq) (f : Fin 8 → Bool) (w : BitVec 24) (h : p.tx.length ≤ k ∧ p.rx.length ≤ 8) :
    (psExec p f w).Bounded k := by
  have one : p.rx.length < 8 → ∀ w : Word, (p.rx ++ [w]).length ≤ 8 := by
    intro k w; rw [List.length_append]; simp only [List.length_cons, List.length_nil]; omega
  unfold psExec
  refine PsOut.Bounded.ite (fun _ => ?_) fun _ => PsOut.Bounded.ite (fun _ => h) fun _ =>
    PsOut.Bounded.ite (fun _ => ?_) fun _ => PsOut.Bounded.ite (fun _ => ?_) fun _ =>
    PsOut.Bounded.ite (fun _ => ?_) fun _ => PsOut.Bounded.ite (fun _ => ?_) fun _ => h
  · have k := foldl_fifos (fun q i => if bit w (8 + i) then q.setPin i (bit w i) else q)
      (fun q i => by split <;> exact ⟨rfl, rfl⟩) (List.range 8) p
    exact ⟨Nat.le_trans (Nat.le_of_eq (congrArg List.length k.1)) h.1, Nat.le_trans (Nat.le_of_eq (congrArg List.length k.2)) h.2⟩
  · have b := PinSeq.bits_bound p (fld w 12 10 + 1) h
    revert b
    generalize p.bits (fld w 12 10 + 1) = x
    intro b
    obtain ⟨q, o⟩ := x
    cases o with
    | some v =>
      have k := foldl_fifos (fun (q : PinSeq) i => q.setPin (fld w 15 13 + i) (decide (v / 2 ^ (fld w 12 10 + 1 - 1 - i) % 2 = 1)))
        (fun q i => ⟨rfl, rfl⟩) (List.range (fld w 12 10 + 1)) q
      exact ⟨Nat.le_trans (Nat.le_of_eq (congrArg List.length k.1)) b.1, Nat.le_trans (Nat.le_of_eq (congrArg List.length k.2)) b.2⟩
    | none => exact b
  · refine PsOut.Bounded.ite (fun _ => h) fun hn => ?_
    have g : ∀ b n, (p.ibits.toNat + 1 ≤ p.ic + n → p.rx.length < 8) →
        (p.gather b n).tx.length ≤ k ∧ (p.gather b n).rx.length ≤ 8 := by
      intro b n hh
      unfold PinSeq.gather
      dsimp only
      split
      · exact ⟨h.1, one (hh ‹_›) _⟩
      · exact h
    exact g _ _ fun x => by
      have : ¬ 8 ≤ p.rx.length := fun y => hn ⟨x, y⟩
      omega
  · exact PsOut.Bounded.ite (fun _ => PsOut.Bounded.ite (fun _ => h) fun _ => h) fun _ =>
      PsOut.Bounded.ite (fun _ => h) fun _ => PsOut.Bounded.ite
        (fun _ => PsOut.Bounded.ite (fun _ => h) fun _ => h) fun _ => h
  · split
    · exact PsOut.Bounded.pick _ h h
    · refine PsOut.Bounded.ite (fun _ => ?_) fun _ => ?_
      · have b := PinSeq.bits_bound p 16 h
        revert b
        generalize p.bits 16 = x
        intro b
        obtain ⟨q, o⟩ := x
        cases o with
        | some v => exact PsOut.Bounded.pick _ b b
        | none => exact b
      · exact PsOut.Bounded.pick _ h h
    · refine PsOut.Bounded.ite (fun _ => ?_) fun _ => ?_
      · exact PsOut.Bounded.pick _ h h
      · exact PsOut.Bounded.pick _ h h
    · refine PsOut.Bounded.ite (fun _ => PsOut.Bounded.ite (fun _ => h) fun hn => ?_) fun _ => h
      exact ⟨h.1, one (by omega) _⟩
theorem State.psRun_kept (s : State) (e : Fin 8) (w : BitVec 24) : Kept s (State.psRun s e w) := by
  have key : ∀ (t : State), t.ps = s.ps → t.pending = s.pending → t.mem = s.mem → t.tt = s.tt → t.sc = s.sc → t.tsi = s.tsi →
      ∀ q : PinSeq, (((s.eng e).tx.length ≤ 8 ∧ (s.eng e).rx.length ≤ 8) → q.tx.length ≤ 8 ∧ q.rx.length ≤ 8) →
      Kept s (t.modEng e fun _ => q) := by
    intro t h1 h2 h3 h4 h5 h6 q hq
    refine ⟨h2, fun x => ?_, fun x j => ?_, fun x => ?_⟩
    · unfold MemCanonical; simp only [State.modEng, h3]; exact x
    · simp only [State.modEng, h1, at_vset]
      split
      · exact hq (x e)
      · exact x j
    · unfold TablesCanonical; simp only [State.modEng, h4, h5, h6]; exact x
  unfold State.psRun
  dsimp only
  have kc : ∀ (c : Prop) [Decidable c] (f : Cycle → Cycle) (q : PinSeq),
      (((s.eng e).tx.length ≤ 8 ∧ (s.eng e).rx.length ≤ 8) → q.tx.length ≤ 8 ∧ q.rx.length ≤ 8) →
      Kept s ((if c then s.modCyc f else s).modEng e fun _ => q) := by
    intro c _ f q hq
    split
    · exact key (s.modCyc f) rfl rfl rfl rfl rfl rfl q hq
    · exact key s rfl rfl rfl rfl rfl rfl q hq
  refine Kept.trans (kc _ _ _ fun h => ?_) (State.raisePs_kept _ _ _)
  have b := psExec_bound (k := (s.eng e).tx.length - s.psUnseen e) { s.eng e with tx := (s.eng e).tx.take ((s.eng e).tx.length - s.psUnseen e) }
    (s.psSample (s.eng e)) w ⟨by rw [List.length_take]; omega, h.2⟩
  revert b
  generalize psExec _ _ _ = o
  intro b
  have hl : (o.p.tx ++ (s.eng e).tx.drop ((s.eng e).tx.length - s.psUnseen e)).length ≤ 8 := by
    rw [List.length_append, List.length_drop]
    have := b.1
    have := h.1
    omega
  cases o.done <;> exact ⟨hl, b.2⟩
theorem State.psTick_kept (s : State) (e : Fin 8) : Kept s (State.psTick s e) := by
  unfold State.psTick
  dsimp only
  refine Kept.ite (Kept.refl s) ?_
  have c : Kept s (s.modEng e fun p => { p with cnt := 0 }) := State.modEng_kept _ _ _ fun _ => ⟨id, id⟩
  revert c
  generalize (s.modEng e fun p => { p with cnt := 0 }) = u
  intro c
  refine c.trans (Kept.ite ?_ (Kept.ite (State.modEng_kept _ _ _ fun _ => ⟨id, id⟩) ?_))
  · exact Kept.trans (t := u.modEng e fun p => { p with st := .halt, haltReq := false, busy := 0 })
      (State.modEng_kept _ _ _ fun _ => ⟨id, id⟩) (State.raisePs_kept _ _ _)
  · have k := State.psFetch_kept u e
    split
    · exact Kept.ofP (by assumption) k
    · exact (Kept.ofP (by assumption) k).trans (Kept.ite (State.psIll_kept _ _) (State.psRun_kept _ _ _))
theorem State.psTickWith_kept (s : State) (e : Fin 8) (flips : List (Fin 48 × Fin 32)) : Kept s (State.psTickWith s e flips) := by
  unfold State.psTickWith
  try dsimp only
  refine Kept.trans ?_ (State.psTick_kept _ _)
  refine Kept.trans ?_ (Kept.foldl (fun _ _ => ?_) _ _)
  · exact Kept.refl _
  · exact Kept.same rfl rfl rfl rfl rfl rfl
theorem State.psRefuse_kept (s : State) (e : Fin 8) : Kept s (State.psRefuse s e) := by
  unfold State.psRefuse
  refine Kept.trans ?_ (State.raisePs_kept _ _ _)
  refine Kept.trans ?_ (State.modEng_kept _ _ _ fun _ => by refine ⟨fun _ => ?_, fun _ => ?_⟩ <;> first | assumption | exact Nat.zero_le _)
  exact Kept.refl _
theorem State.psRevoke_kept (s : State) (k : Fin 8) : Kept s (State.psRevoke s k) := by
  unfold State.psRevoke
  try dsimp only
  split
  · exact Kept.refl _
  · refine Kept.trans ?_ (State.psRefuse_kept _ _)
    refine Kept.trans ?_ (State.modEng_kept _ _ _ fun _ => by refine ⟨fun _ => ?_, fun _ => ?_⟩ <;> first | assumption | exact Nat.zero_le _)
    exact Kept.refl _
theorem State.psEnable_kept (s : State) (e : Fin 8) : Kept s (State.psEnable s e) := by
  unfold State.psEnable
  refine Kept.ite (Kept.refl s) (Kept.ite (State.psRefuse_kept _ _) ?_)
  dsimp only
  have h : Kept s (foldFin 8 (fun k t => if s.psShares e k then t.psRevoke k else t) s) :=
    Kept.fin (fun _ _ => Kept.ite (State.psRevoke_kept _ _) (Kept.refl _)) s
  exact (h.trans (State.modEng_kept _ e (fun p => { p.start_ with en := true, cfgErr := false, claim0 := p.pin0, claim1 := p.pin1 })
    fun _ => ⟨id, id⟩)).trans (State.modCyc_kept _ _)
theorem State.psDisable_kept (s : State) (e : Fin 8) : Kept s (State.psDisable s e) := by
  unfold State.psDisable
  refine Kept.trans ?_ (State.modEng_kept _ _ _ fun _ => by refine ⟨fun _ => ?_, fun _ => ?_⟩ <;> first | assumption | exact Nat.zero_le _)
  exact Kept.refl _
theorem State.psCmdHalt_kept (s : State) (e : Fin 8) : Kept s (State.psCmdHalt s e) := by
  unfold State.psCmdHalt
  refine State.modEng_kept _ _ _ fun p => ?_
  split <;> exact ⟨id, id⟩
theorem State.psCmdGo_kept (s : State) (e : Fin 8) : Kept s (State.psCmdGo s e) := by
  unfold State.psCmdGo
  refine Kept.ite ?_ ?_
  · refine Kept.trans ?_ (State.fltBack_kept _ _)
    refine Kept.trans ?_ (State.modEng_kept _ _ _ fun _ => by refine ⟨fun _ => ?_, fun _ => ?_⟩ <;> first | assumption | exact Nat.zero_le _)
    exact Kept.refl _
  · exact Kept.refl _
theorem State.psTxFlush_kept (s : State) (e : Fin 8) : Kept s (State.psTxFlush s e) := by
  unfold State.psTxFlush
  try dsimp only
  refine Kept.trans ?_ (State.raisePs_kept _ _ _)
  refine Kept.trans ?_ (State.modCyc_kept _ _)
  refine Kept.trans ?_ (State.modEng_kept _ _ _ fun _ => by refine ⟨fun _ => ?_, fun _ => ?_⟩ <;> first | assumption | exact Nat.zero_le _)
  exact Kept.refl _
theorem State.psRxFlush_kept (s : State) (e : Fin 8) : Kept s (State.psRxFlush s e) := by
  unfold State.psRxFlush
  refine Kept.trans ?_ (State.modCyc_kept _ _)
  refine Kept.trans ?_ (State.modEng_kept _ _ _ fun _ => by refine ⟨fun _ => ?_, fun _ => ?_⟩ <;> first | assumption | exact Nat.zero_le _)
  exact Kept.refl _
theorem State.psTake_kept (s : State) (e : Fin 8) (r : Nat) (w : Word) : Kept s (State.psTake s e r w) := by
  unfold State.psTake
  split
  · exact State.raisePs_kept _ _ _
  · rename_i h
    refine Kept.trans (t := s.modEng e fun p => { p with tx := p.tx ++ [w] }) ⟨rfl, id, fun x j => ?_, id⟩ (State.modCyc_kept _ _)
    simp only [State.modEng, at_vset]
    split
    · refine ⟨?_, (x e).2⟩
      simp only [List.length_append, List.length_cons, List.length_nil]
      simp only [State.eng] at h
      omega
    · exact x j
theorem State.psTxWrite_kept (s : State) (e : Fin 8) (r : Nat) (w : Word) : Kept s (State.psTxWrite s e r w) := by
  unfold State.psTxWrite
  split
  · exact State.psTake_kept _ _ _ _
  · rename_i old _
    refine Kept.ite ?_ (State.modEng_kept _ _ _ fun _ => ⟨id, id⟩)
    refine Kept.trans (State.modEng_kept s e
      (fun p => { p with tx := p.tx.dropLast ++ [w], txWait := waitIn old (p.tx.getLast?.getD 0) p.txWait }) fun p => ⟨fun h => ?_, id⟩)
      (State.modCyc_kept _ _)
    simp only [List.length_append, List.length_dropLast, List.length_cons, List.length_nil]
    omega
theorem State.psRxRead_kept (s : State) (e : Fin 8) : KeptP s (State.psRxRead s e) := by
  unfold State.psRxRead
  split
  · exact KeptP.mk (State.raisePs_kept _ _ _)
  · refine KeptP.mk (State.modEng_kept _ _ _ fun p => ⟨id, fun h => ?_⟩)
    simp only [List.length_drop]
    omega
theorem State.psEnd_kept (s : State) (e : Fin 8) : Kept s (State.psEnd s e) := by
  unfold State.psEnd
  try dsimp only
  exact (State.raisePs_kept _ _ _)
theorem State.psBegin_kept (s : State) (e : Fin 8) : Kept s (State.psBegin s e) := by
  unfold State.psBegin
  try dsimp only
  try dsimp only
  split
  · refine Kept.trans ?_ (State.modEng_kept _ _ _ fun _ => by refine ⟨fun _ => ?_, fun _ => ?_⟩ <;> first | assumption | exact Nat.zero_le _)
    exact Kept.refl _
  · refine Kept.trans ?_ (State.psTake_kept _ _ _ _)
    refine Kept.trans ?_ (State.modEng_kept _ _ _ fun _ => by refine ⟨fun _ => ?_, fun _ => ?_⟩ <;> first | assumption | exact Nat.zero_le _)
    refine Kept.trans ?_ (State.modEng_kept _ _ _ fun _ => by refine ⟨fun _ => ?_, fun _ => ?_⟩ <;> first | assumption | exact Nat.zero_le _)
    exact Kept.refl _
theorem State.psRead_kept (s : State) (e : Fin 8) (o : Nat) : KeptOP s (State.psRead s e o) := by
  unfold State.psRead
  try dsimp only
  try dsimp only
  split
  · refine KeptOP.mk ?_
    refine KeptP.mk ?_
    exact Kept.refl _
  · refine KeptOP.mk ?_
    refine KeptP.mk ?_
    exact Kept.refl _
  · refine KeptOP.mk ?_
    refine KeptP.mk ?_
    exact Kept.refl _
  · refine KeptOP.mk ?_
    refine KeptP.mk ?_
    exact Kept.refl _
  · refine KeptOP.mk ?_
    refine KeptP.mk ?_
    exact Kept.refl _
  · refine KeptOP.mk ?_
    refine KeptP.mk ?_
    exact Kept.refl _
  · refine KeptOP.mk ?_
    refine KeptP.mk ?_
    exact Kept.refl _
  · refine KeptOP.mk ?_
    refine KeptP.mk ?_
    exact Kept.refl _
  · refine KeptOP.mk ?_
    refine KeptP.mk ?_
    exact Kept.refl _
  · refine KeptOP.mk ?_
    exact (State.psRxRead_kept _ _)
  · refine KeptOP.mk ?_
    refine KeptP.mk ?_
    exact Kept.refl _
  · refine KeptOP.mk ?_
    refine KeptP.mk ?_
    exact Kept.refl _
  · refine KeptOP.mk ?_
    refine KeptP.mk ?_
    exact Kept.refl _
  · refine KeptOP.mk ?_
    refine KeptP.mk ?_
    exact Kept.refl _
  · refine KeptOP.mk ?_
    refine KeptP.mk ?_
    exact Kept.refl _
  · refine KeptOP.mk ?_
    refine KeptP.mk ?_
    exact Kept.refl _
  · exact KeptOP.none _
theorem State.psWrite_kept (s : State) (r : Nat) (e : Fin 8) (o : Nat) (w : Word) : KeptO s (State.psWrite s r e o w) := by
  have one : ∀ (u : State) (f : PinSeq → PinSeq), (∀ p, (f p).tx = p.tx ∧ (f p).rx = p.rx) → Kept u (u.modEng e f) := fun u f h =>
    State.modEng_kept _ _ _ fun p => by rw [(h p).1, (h p).2]; exact ⟨id, id⟩
  unfold State.psWrite
  dsimp only
  split
  · refine KeptO.mk (Kept.ite (Kept.trans ?_ (State.psEnable_kept _ _)) (Kept.trans ?_ (State.psDisable_kept _ _))) <;>
      exact Kept.ite (Kept.refl s) (one _ _ fun _ => ⟨rfl, rfl⟩)
  · exact KeptO.mk (Kept.ite (Kept.refl s) (one _ _ fun _ => ⟨rfl, rfl⟩))
  · exact KeptO.mk (Kept.ite (Kept.refl s) (one _ _ fun _ => ⟨rfl, rfl⟩))
  · exact KeptO.mk (Kept.ite (Kept.refl s) (one _ _ fun _ => ⟨rfl, rfl⟩))
  · exact KeptO.mk (one _ _ fun _ => ⟨rfl, rfl⟩)
  · exact KeptO.mk (one _ _ fun _ => ⟨rfl, rfl⟩)
  · exact KeptO.mk (one _ _ fun _ => ⟨rfl, rfl⟩)
  · exact KeptO.mk (State.psTxWrite_kept _ _ _ _)
  · exact KeptO.mk (one _ _ fun _ => ⟨rfl, rfl⟩)
  · have a : Kept s (if bit w 2 then s.psTxFlush e else s) := Kept.ite (State.psTxFlush_kept _ _) (Kept.refl s)
    refine KeptO.mk (Kept.ite (Kept.trans (a.trans (Kept.ite (State.psRxFlush_kept _ _) (Kept.refl _))) (State.psCmdHalt_kept _ _))
      (Kept.ite (Kept.trans (a.trans (Kept.ite (State.psRxFlush_kept _ _) (Kept.refl _))) (State.psCmdGo_kept _ _))
        (a.trans (Kept.ite (State.psRxFlush_kept _ _) (Kept.refl _)))))
  · exact KeptO.mk (Kept.ite (Kept.refl s) (one _ _ fun _ => ⟨rfl, rfl⟩))
  all_goals first | exact KeptO.mk (Kept.refl s) | exact KeptO.none s

/-! ## Dma -/

theorem State.readWords_kept (s : State) (a : Nat) (n : Nat) : KeptP s (State.readWords s a n) := by
  induction n generalizing s a with
  | zero => exact Kept.refl s
  | succ n ih =>
    unfold State.readWords
    have h := State.memRead_kept s a 2
    split
    · exact KeptP.mk (Kept.ofP (by assumption) h)
    · have k := Kept.ofP (by assumption) h
      split
      · exact KeptP.mk (k.trans (Kept.ofP (by assumption) (ih _ _)))
      · exact KeptP.mk (k.trans (Kept.ofP (by assumption) (ih _ _)))
theorem State.dmaFetch_kept (s : State) (c : Fin 8) : Kept s (State.dmaFetch s c) := by
  unfold State.dmaFetch
  try dsimp only
  refine Kept.ite ?_ ?_
  · exact Kept.refl _
  · try dsimp only
    split
    · try dsimp only
      try dsimp only
      split
      · refine Kept.trans ?_ (State.modDma_kept _ _ _)
        refine Kept.ofP (by assumption) ?_
        exact (State.readWords_kept _ _ _)
      · refine Kept.trans ?_ (State.dmaError_kept _ _ _)
        refine Kept.ofP (by assumption) ?_
        exact (State.readWords_kept _ _ _)
    · refine Kept.trans ?_ (State.dmaError_kept _ _ _)
      refine Kept.ofP (by assumption) ?_
      exact (State.readWords_kept _ _ _)
theorem State.dmaLoad_kept (s : State) (c : Fin 8) (a : Nat) (viaNext : Bool) : Kept s (State.dmaLoad s c a viaNext) := by
  unfold State.dmaLoad
  try dsimp only
  refine Kept.ite ?_ ?_
  · refine Kept.trans ?_ (State.dmaError_kept _ _ _)
    exact (State.modDma_kept _ _ _)
  · refine Kept.trans ?_ (State.dmaFetch_kept _ _)
    exact (State.modDma_kept _ _ _)
theorem State.dmaEnable_kept (s : State) (c : Fin 8) (w : Fin 256) : Kept s (State.dmaEnable s c w) := by
  unfold State.dmaEnable
  try dsimp only
  refine Kept.ite ?_ ?_
  · exact Kept.refl _
  · refine Kept.trans ?_ (State.dmaLoad_kept _ _ _ _)
    exact (State.modDma_kept _ _ _)
theorem State.dmaDisable_kept (s : State) (c : Fin 8) : Kept s (State.dmaDisable s c) := by
  unfold State.dmaDisable
  refine Kept.ite ?_ ?_
  · exact (State.modDma_kept _ _ _)
  · refine Kept.trans ?_ (State.modCyc_kept _ _)
    exact (State.modDma_kept _ _ _)
theorem State.dmaPulse_kept (s : State) (c : Fin 8) : Kept s (State.dmaPulse s c) := by
  unfold State.dmaPulse
  try dsimp only
  refine Kept.ite ?_ ?_
  · exact Kept.refl _
  · refine Kept.ite ?_ ?_
    · exact (State.modDma_kept _ _ _)
    · refine Kept.ite ?_ ?_
      · exact (State.modDma_kept _ _ _)
      · exact (State.dmaFlag_kept _ _ _)
theorem State.dmaRead_kept (s : State) (a size : Nat) : KeptP s (State.dmaRead s a size) := by
  unfold State.dmaRead
  refine KeptP.ite ?_ (KeptP.ite ?_ (KeptP.ite ?_ ?_))
  · have h := State.memRead_kept s a size
    split
    · exact KeptP.mk (Kept.ofP (by assumption) h)
    · exact KeptP.mk (Kept.ofP (by assumption) h)
  · split
    · rename_i h
      exact State.tsiRead_kept _ _ _ h
    · exact Kept.refl s
  · split
    · rename_i h
      exact State.afeRead_kept _ _ _ h
    · exact Kept.refl s
  · split
    · rename_i h
      exact State.psRead_kept _ _ _ _ h
    · exact Kept.refl s
theorem State.dmaWrite_kept (s : State) (owner : Fin 256) (a : Nat) (size : Nat) (w : Word) : KeptP s (State.dmaWrite s owner a size w) := by
  unfold State.dmaWrite
  refine KeptP.ite ?_ ?_
  · try dsimp only
    refine KeptP.mk ?_
    exact (State.memWrite_kept _ _ _ _)
  · refine KeptP.ite ?_ ?_
    · refine KeptP.mk ?_
      refine Kept.getD ?_ ?_
      · exact (State.tsiWrite_kept _ _ _ _)
      · exact Kept.refl _
    · refine KeptP.ite ?_ ?_
      · refine KeptP.mk ?_
        refine Kept.getD ?_ ?_
        · exact (State.afeWrite_kept _ _ _ _)
        · exact Kept.refl _
      · try dsimp only
        refine KeptP.mk ?_
        refine Kept.getD ?_ ?_
        · exact (State.psWrite_kept _ _ _ _ _)
        · exact Kept.refl _
theorem State.dmaAfter_kept (s : State) (c : Fin 8) : Kept s (State.dmaAfter s c) := by
  unfold State.dmaAfter
  try dsimp only
  refine Kept.ite ?_ ?_
  · exact (State.modDma_kept _ _ _)
  · try dsimp only
    refine Kept.ite ?_ ?_
    · refine Kept.trans ?_ (State.dmaFlag_kept _ _ _)
      refine Kept.trans ?_ (State.modDma_kept _ _ _)
      refine Kept.ite ?_ ?_
      · refine Kept.trans ?_ (State.dmaFlag_kept _ _ _)
        exact (State.modDma_kept _ _ _)
      · exact (State.modDma_kept _ _ _)
    · refine Kept.trans ?_ (State.dmaLoad_kept _ _ _ _)
      refine Kept.ite ?_ ?_
      · refine Kept.trans ?_ (State.dmaFlag_kept _ _ _)
        exact (State.modDma_kept _ _ _)
      · exact (State.modDma_kept _ _ _)
theorem State.dmaMove_kept (s : State) (c : Fin 8) : Kept s (State.dmaMove s c) := by
  unfold State.dmaMove
  try dsimp only
  try dsimp only
  split
  · refine Kept.trans ?_ (State.dmaError_kept _ _ _)
    refine Kept.ofP (by assumption) ?_
    refine KeptP.trans ?_ (State.dmaRead_kept _ _ _)
    refine Kept.trans ?_ (State.modDma_kept _ _ _)
    refine Kept.trans ?_ (Kept.foldl (fun _ _ => ?_) _ _)
    · exact Kept.refl _
    · exact (State.usePort_kept _ _)
  · try dsimp only
    split
    · refine Kept.trans ?_ (State.dmaError_kept _ _ _)
      refine Kept.ofP (by assumption) ?_
      refine KeptP.trans ?_ (State.dmaWrite_kept _ _ _ _ _)
      refine Kept.ofP (by assumption) ?_
      refine KeptP.trans ?_ (State.dmaRead_kept _ _ _)
      refine Kept.trans ?_ (State.modDma_kept _ _ _)
      refine Kept.trans ?_ (Kept.foldl (fun _ _ => ?_) _ _)
      · exact Kept.refl _
      · exact (State.usePort_kept _ _)
    · refine Kept.trans ?_ (State.dmaAfter_kept _ _)
      refine Kept.ofP (by assumption) ?_
      refine KeptP.trans ?_ (State.dmaWrite_kept _ _ _ _ _)
      refine Kept.ofP (by assumption) ?_
      refine KeptP.trans ?_ (State.dmaRead_kept _ _ _)
      refine Kept.trans ?_ (State.modDma_kept _ _ _)
      refine Kept.trans ?_ (Kept.foldl (fun _ _ => ?_) _ _)
      · exact Kept.refl _
      · exact (State.usePort_kept _ _)
theorem State.dmaLast_kept (s : State) (c : Fin 8) : Kept s (State.dmaLast s c) := by
  unfold State.dmaLast
  try dsimp only
  split
  · refine Kept.trans ?_ (State.modCyc_kept _ _)
    exact (State.modDma_kept _ _ _)
  · exact Kept.refl _
theorem State.dmaBeat_kept (s : State) (c : Fin 8) : Kept s (State.dmaBeat s c) := by
  unfold State.dmaBeat
  try dsimp only
  refine Kept.ite ?_ ?_
  · try dsimp only
    refine Kept.ite ?_ ?_
    · refine Kept.trans ?_ (State.dmaMove_kept _ _)
      exact (State.dmaLast_kept _ _)
    · refine Kept.trans ?_ (State.modDma_kept _ _ _)
      refine Kept.trans ?_ (State.dmaMove_kept _ _)
      exact (State.dmaLast_kept _ _)
  · exact Kept.refl _
theorem State.dmaCycle_kept (s : State) (c : Fin 8) : Kept s (State.dmaCycle s c) := by
  unfold State.dmaCycle
  try dsimp only
  refine Kept.trans ?_ (State.modDma_kept _ _ _)
  exact (State.dmaFetch_kept _ _)
theorem State.dmaStarve_kept (s : State) (c : Fin 8) : Kept s (State.dmaStarve s c) := by
  unfold State.dmaStarve
  refine Kept.ite ?_ ?_
  · refine Kept.trans ?_ (State.dmaFlag_kept _ _ _)
    exact (State.modDma_kept _ _ _)
  · exact Kept.refl _
theorem State.adcGrant_kept (s : State) (a : Fin 2) : Kept s (State.adcGrant s a) := by
  unfold State.adcGrant
  try dsimp only
  split
  · exact Kept.refl _
  · try dsimp only
    split
    · exact (State.modAdc_kept _ _ _)
    · try dsimp only
      refine Kept.ite ?_ ?_
      · exact Kept.refl _
      · refine KeptP.trans ?_ (State.memWrite_kept _ _ _ _)
        refine Kept.trans ?_ (State.modAdc_kept _ _ _)
        exact (State.usePort_kept _ _)
theorem State.grantRead_kept (s : State) (a : Nat) (size : Nat) : Kept s (State.grantRead s a size) := by
  unfold State.grantRead
  try dsimp only
  split
  · refine Kept.trans ?_ (State.answer_kept _ _)
    refine Kept.ofP (by assumption) ?_
    exact (State.memRead_kept _ _ _)
  · refine Kept.ofP (by assumption) ?_
    exact (State.memRead_kept _ _ _)
theorem State.backGrant_kept (s : State) (b : Fin 8) : Kept s (State.backGrant s b) := by
  unfold State.backGrant
  refine Kept.ite ?_ ?_
  · exact Kept.refl _
  · refine Kept.trans ?_ (State.bankWriteBack_kept _ _)
    exact (State.usePort_kept _ _)
theorem State.bankGrant_kept (s : State) (q : BankReq) (flips : Nat) : KeptR s (State.bankGrant s q flips) := by
  unfold State.bankGrant
  try dsimp only
  split
  · try dsimp only
    refine KeptR.ite ?_ ?_
    · exact KeptR.fault
    · refine KeptR.ite ?_ ?_
      · refine KeptR.mk ?_
        exact Kept.refl _
      · refine KeptR.mk ?_
        refine Kept.trans ?_ (State.grantRead_kept _ _ _)
        refine Kept.trans ?_ (State.flipBits_kept _ _ _)
        exact (State.usePort_kept _ _)
  · try dsimp only
    refine KeptR.ite ?_ ?_
    · exact KeptR.fault
    · refine KeptR.ite ?_ ?_
      · refine KeptR.mk ?_
        exact Kept.refl _
      · refine KeptR.mk ?_
        refine KeptP.trans ?_ (State.memWrite_kept _ _ _ _)
        refine Kept.trans ?_ (State.flipBits_kept _ _ _)
        exact (State.usePort_kept _ _)
  · refine KeptR.mk ?_
    refine Kept.ite ?_ ?_
    · exact Kept.refl _
    · refine Kept.trans ?_ (State.testerAccess_kept _ _ _)
      exact (State.usePort_kept _ _)
  · refine KeptR.mk ?_
    exact (State.adcGrant_kept _ _)
  · refine KeptR.mk ?_
    exact (State.backGrant_kept _ _)
theorem State.memRegRead_kept (s : State) (a : Nat) : KeptOP s (State.memRegRead s a) := by
  unfold State.memRegRead
  try dsimp only
  refine KeptOP.ite ?_ ?_
  · refine KeptOP.mk ?_
    refine KeptP.mk ?_
    exact Kept.refl _
  · refine KeptOP.ite ?_ ?_
    · refine KeptOP.mk ?_
      refine KeptP.mk ?_
      exact Kept.refl _
    · refine KeptOP.ite ?_ ?_
      · try dsimp only
        refine KeptOP.mk ?_
        refine KeptP.mk ?_
        exact Kept.refl _
      · try dsimp only
        split
        · refine KeptOP.mk ?_
          refine KeptP.mk ?_
          exact Kept.refl _
        · refine KeptOP.mk ?_
          refine KeptP.mk ?_
          exact Kept.refl _
        · refine KeptOP.mk ?_
          refine KeptP.mk ?_
          exact Kept.refl _
        · refine KeptOP.mk ?_
          refine KeptP.mk ?_
          exact Kept.refl _
        · refine KeptOP.mk ?_
          refine KeptP.mk ?_
          exact Kept.refl _
        · exact KeptOP.none _
theorem State.memRegWrite_kept (s : State) (a : Nat) (w : Word) : KeptO s (State.memRegWrite s a w) := by
  unfold State.memRegWrite
  refine KeptO.ite ?_ ?_
  · try dsimp only
    refine KeptO.mk ?_
    refine Kept.ite ?_ ?_
    · exact (State.writeCwBase_kept _ _ _)
    · exact (State.writeCwSize_kept _ _ _)
  · try dsimp only
    split
    · refine KeptO.mk ?_
      exact (State.writeTctl_kept _ _)
    · refine KeptO.mk ?_
      refine Kept.trans ?_ (State.modMem_kept _ _ rfl)
      exact Kept.refl _
    · refine KeptO.mk ?_
      refine Kept.trans ?_ (State.modMem_kept _ _ rfl)
      exact Kept.refl _
    · refine KeptO.mk ?_
      refine Kept.ite ?_ ?_
      · exact (State.readmit_kept _ _)
      · exact Kept.refl _
    · refine KeptO.map fun _ => ?_
      exact Kept.refl _
theorem State.dmaRegRead_kept (s : State) (a : Nat) : KeptOP s (State.dmaRegRead s a) := by
  unfold State.dmaRegRead
  try dsimp only
  refine KeptOP.ite ?_ ?_
  · try dsimp only
    try dsimp only
    split
    · refine KeptOP.mk ?_
      refine KeptP.mk ?_
      exact Kept.refl _
    · refine KeptOP.mk ?_
      refine KeptP.mk ?_
      exact Kept.refl _
    · refine KeptOP.mk ?_
      refine KeptP.mk ?_
      exact Kept.refl _
    · refine KeptOP.mk ?_
      refine KeptP.mk ?_
      exact Kept.refl _
    · refine KeptOP.mk ?_
      refine KeptP.mk ?_
      exact Kept.refl _
    · refine KeptOP.mk ?_
      refine KeptP.mk ?_
      exact (State.modDma_kept _ _ _)
    · refine KeptOP.mk ?_
      refine KeptP.mk ?_
      exact Kept.refl _
    · refine KeptOP.mk ?_
      refine KeptP.mk ?_
      exact Kept.refl _
  · refine KeptOP.ite ?_ ?_
    · refine KeptOP.mk ?_
      refine KeptP.mk ?_
      exact Kept.refl _
    · exact KeptOP.none _
theorem State.dmaRegWrite_kept (s : State) (w : Fin 256) (a : Nat) (d : Word) : KeptO s (State.dmaRegWrite s w a d) := by
  unfold State.dmaRegWrite
  refine KeptO.ite ?_ ?_
  · try dsimp only
    try dsimp only
    split
    · refine KeptO.mk ?_
      refine Kept.ite ?_ ?_
      · exact (State.dmaEnable_kept _ _ _)
      · exact (State.dmaDisable_kept _ _)
    · refine KeptO.mk ?_
      exact (State.modDma_kept _ _ _)
    · refine KeptO.mk ?_
      exact (State.modDma_kept _ _ _)
    · refine KeptO.mk ?_
      exact (State.modDma_kept _ _ _)
    · refine KeptO.mk ?_
      exact Kept.refl _
  · refine KeptO.ite ?_ ?_
    · refine KeptO.mk ?_
      exact Kept.refl _
    · exact KeptO.none _

/-! ## Irq -/

theorem State.keepSel_kept (s : State) : Kept s (State.keepSel s) := by
  unfold State.keepSel
  refine Kept.ite ?_ ?_
  · exact Kept.refl _
  · exact (State.modCyc_kept _ _)
theorem State.intcFlag_kept (s : State) (b : BitVec 3) : Kept s (State.intcFlag s b) := by
  unfold State.intcFlag
  refine Kept.trans ?_ (State.hwSet_kept _ _ _)
  exact (State.modIntc_kept _ _)
theorem State.irqCycle_kept (s : State) : Kept s (State.irqCycle s) := by
  unfold State.irqCycle
  try dsimp only
  exact (State.modIntc_kept _ _)
theorem State.intcPend_kept (s : State) (n : Fin 192) : Kept s (State.intcPend s n) := by
  unfold State.intcPend
  refine Kept.ite ?_ ?_
  · exact Kept.refl _
  · refine Kept.ite ?_ ?_
    · exact (State.modCanopy_kept _ _)
    · refine Kept.ite ?_ ?_
      · exact Kept.refl _
      · refine Kept.trans ?_ (State.modCyc_kept _ _)
        exact (State.modIntc_kept _ _)
theorem State.claimSrc_kept (s : State) (n : Fin 192) (target : Nat) : Kept s (State.claimSrc s n target) := by
  unfold State.claimSrc
  try dsimp only
  refine Kept.trans ?_ (State.modIntc_kept _ _)
  refine Kept.ite ?_ ?_
  · exact (State.intcFlag_kept _ _)
  · exact Kept.refl _
theorem State.leaveSrc_kept (s : State) (n : Fin 192) : Kept s (State.leaveSrc s n) := by
  unfold State.leaveSrc
  exact (State.modIntc_kept _ _)
theorem State.intcClaim_kept (s : State) (n : Fin 4) : KeptP s (State.intcClaim s n) := by
  unfold State.intcClaim
  try dsimp only
  split
  · refine KeptP.mk ?_
    exact Kept.refl _
  · refine KeptP.mk ?_
    refine Kept.trans ?_ (State.modIntc_kept _ _)
    exact (State.claimSrc_kept _ _ _)
theorem State.intcComplete_kept (s : State) (n : Fin 4) (k : Nat) : Kept s (State.intcComplete s n k) := by
  unfold State.intcComplete
  split
  · refine Kept.ite ?_ ?_
    · try dsimp only
      refine Kept.ite ?_ ?_
      · refine Kept.trans ?_ (State.modIntc_kept _ _)
        exact (State.leaveSrc_kept _ _)
      · exact (State.leaveSrc_kept _ _)
    · exact (State.intcFlag_kept _ _)
  · exact (State.intcFlag_kept _ _)
theorem State.intcPset_kept (s : State) (w : Nat) (v : Word) : Kept s (State.intcPset s w v) := by
  unfold State.intcPset
  try dsimp only
  refine Kept.ite ?_ ?_
  · refine Kept.trans ?_ (State.intcFlag_kept _ _)
    refine Kept.trans ?_ (State.modIntc_kept _ _)
    exact (State.modCyc_kept _ _)
  · refine Kept.trans ?_ (State.modIntc_kept _ _)
    exact (State.modCyc_kept _ _)
theorem State.intcPclr_kept (s : State) (w : Nat) (v : Word) : Kept s (State.intcPclr s w v) := by
  unfold State.intcPclr
  try dsimp only
  exact (State.modIntc_kept _ _)
theorem State.intcEnable_kept (s : State) (target : Fin 5) (w : Nat) (v : Word) : Kept s (State.intcEnable s target w v) := by
  unfold State.intcEnable
  try dsimp only
  refine Kept.ite ?_ ?_
  · refine Kept.trans ?_ (State.intcFlag_kept _ _)
    refine Kept.ite ?_ ?_
    · refine Kept.trans ?_ (State.modIntc_kept _ _)
      exact (State.keepSel_kept _)
    · refine Kept.trans ?_ (State.modIntc_kept _ _)
      exact (State.keepSel_kept _)
  · refine Kept.ite ?_ ?_
    · refine Kept.trans ?_ (State.modIntc_kept _ _)
      exact (State.keepSel_kept _)
    · refine Kept.trans ?_ (State.modIntc_kept _ _)
      exact (State.keepSel_kept _)
theorem State.intcPri_kept (s : State) (w : Nat) (v : Word) : Kept s (State.intcPri s w v) := by
  unfold State.intcPri
  try dsimp only
  refine Kept.trans ?_ (State.modIntc_kept _ _)
  exact (State.keepSel_kept _)
theorem State.supEntry_kept (s : State) : Kept s (State.supEntry s) := by
  unfold State.supEntry
  try dsimp only
  split
  · exact Kept.refl _
  · refine Kept.ite ?_ ?_
    · exact Kept.refl _
    · refine Kept.trans ?_ (State.modIntc_kept _ _)
      exact (State.claimSrc_kept _ _ _)
theorem State.supExit_kept (s : State) : Kept s (State.supExit s) := by
  unfold State.supExit
  try dsimp only
  split
  · exact Kept.refl _
  · refine Kept.trans ?_ (State.supEntry_kept _)
    refine Kept.trans ?_ (State.modIntc_kept _ _)
    exact (State.leaveSrc_kept _ _)
theorem State.intcRead_kept (s : State) (a : Nat) : KeptOP s (State.intcRead s a) := by
  unfold State.intcRead
  try dsimp only
  refine KeptOP.ite ?_ ?_
  · exact KeptOP.none _
  · refine KeptOP.ite ?_ ?_
    · refine KeptOP.mk ?_
      refine KeptP.mk ?_
      exact Kept.refl _
    · refine KeptOP.ite ?_ ?_
      · refine KeptOP.mk ?_
        refine KeptP.mk ?_
        exact Kept.refl _
      · refine KeptOP.ite ?_ ?_
        · refine KeptOP.mk ?_
          refine KeptP.mk ?_
          exact Kept.refl _
        · refine KeptOP.ite ?_ ?_
          · refine KeptOP.mk ?_
            refine KeptP.mk ?_
            exact Kept.refl _
          · refine KeptOP.ite ?_ ?_
            · refine KeptOP.mk ?_
              refine KeptP.mk ?_
              exact Kept.refl _
            · refine KeptOP.ite ?_ ?_
              · refine KeptOP.mk ?_
                refine KeptP.mk ?_
                exact Kept.refl _
              · refine KeptOP.ite ?_ ?_
                · refine KeptOP.mk ?_
                  refine KeptP.mk ?_
                  exact Kept.refl _
                · refine KeptOP.ite ?_ ?_
                  · refine KeptOP.mk ?_
                    refine KeptP.mk ?_
                    exact Kept.refl _
                  · refine KeptOP.ite ?_ ?_
                    · refine KeptOP.mk ?_
                      refine KeptP.mk ?_
                      exact Kept.refl _
                    · refine KeptOP.ite ?_ ?_
                      · refine KeptOP.mk ?_
                        refine KeptP.mk ?_
                        exact Kept.refl _
                      · refine KeptOP.ite ?_ ?_
                        · try dsimp only
                          refine KeptOP.ite ?_ ?_
                          · refine KeptOP.mk ?_
                            refine KeptP.mk ?_
                            exact Kept.refl _
                          · try dsimp only
                            split
                            · refine KeptOP.mk ?_
                              refine KeptP.mk ?_
                              exact Kept.refl _
                            · refine KeptOP.mk ?_
                              refine KeptP.mk ?_
                              exact Kept.refl _
                            · refine KeptOP.mk ?_
                              exact (State.intcClaim_kept _ _)
                            · refine KeptOP.mk ?_
                              refine KeptP.mk ?_
                              exact Kept.refl _
                            · refine KeptOP.mk ?_
                              refine KeptP.mk ?_
                              exact Kept.refl _
                            · refine KeptOP.mk ?_
                              refine KeptP.mk ?_
                              exact Kept.refl _
                            · exact KeptOP.none _
                        · exact KeptOP.none _
theorem State.intcWrite_kept (s : State) (a : Nat) (w : Word) : KeptO s (State.intcWrite s a w) := by
  unfold State.intcWrite
  try dsimp only
  refine KeptO.ite ?_ ?_
  · exact KeptO.none _
  · refine KeptO.ite ?_ ?_
    · refine KeptO.mk ?_
      exact (State.intcPri_kept _ _ _)
    · refine KeptO.ite ?_ ?_
      · refine KeptO.mk ?_
        exact (State.intcPset_kept _ _ _)
      · refine KeptO.ite ?_ ?_
        · refine KeptO.mk ?_
          exact (State.intcPclr_kept _ _ _)
        · refine KeptO.ite ?_ ?_
          · refine KeptO.mk ?_
            exact (State.intcEnable_kept _ _ _ _)
          · refine KeptO.ite ?_ ?_
            · refine KeptO.mk ?_
              refine Kept.trans ?_ (State.modIntc_kept _ _)
              exact (State.keepSel_kept _)
            · refine KeptO.ite ?_ ?_
              · refine KeptO.mk ?_
                exact (State.modIntc_kept _ _)
              · refine KeptO.ite ?_ ?_
                · try dsimp only
                  refine KeptO.ite ?_ ?_
                  · refine KeptO.mk ?_
                    exact (State.intcEnable_kept _ _ _ _)
                  · try dsimp only
                    split
                    · refine KeptO.mk ?_
                      exact (State.modIntc_kept _ _)
                    · refine KeptO.mk ?_
                      refine Kept.trans ?_ (State.modIntc_kept _ _)
                      exact (State.keepSel_kept _)
                    · refine KeptO.mk ?_
                      exact (State.intcComplete_kept _ _ _)
                    · refine KeptO.mk ?_
                      exact Kept.refl _
                    · refine KeptO.mk ?_
                      exact Kept.refl _
                    · refine KeptO.mk ?_
                      exact Kept.refl _
                    · exact KeptO.none _
                · refine KeptO.ite ?_ ?_
                  · refine KeptO.mk ?_
                    exact Kept.refl _
                  · exact KeptO.none _

end Sys2Proof.Machine
end

