-- ==== Sys2Proof/Laws/KeptSystem.lean ====
section
/-!
SUPPORT. Laws/KeptSystem.lean: what every operation keeps (Laws/KeptBase.lean): faults, power, updates, the register map and start-up.
-/
namespace Sys2Proof.Machine

/-! ## Flt -/

theorem State.modUnit_kept (s : State) (u : Nat) (f : FltUnit → FltUnit) : Kept s (State.modUnit s u f) := by
  unfold State.modUnit
  exact (State.modFlt_kept _ _)
theorem State.fltFlag_kept (s : State) (b : BitVec 8) : Kept s (State.fltFlag s b) := by
  unfold State.fltFlag
  refine Kept.trans ?_ (State.hwSet_kept _ _ _)
  exact (State.modFlt_kept _ _)
theorem State.meUnfence_kept (s : State) : Kept s (State.meUnfence s) := by
  unfold State.meUnfence
  try dsimp only
  refine Kept.trans ?_ (Kept.fin (fun _ _ => ?_) _)
  · refine Kept.trans ?_ (State.modMe_kept _ _)
    refine Kept.ite ?_ ?_
    · exact Kept.refl _
    · exact (State.bulkCancel_kept _ _)
  · exact (State.unfenceChan_kept _ _ _)
theorem State.fenceUnit_kept (s : State) (u : Nat) : Kept s (State.fenceUnit s u) := by
  unfold State.fenceUnit
  try dsimp only
  try dsimp only
  split
  · exact (State.fenceChan_kept _ _ _)
  · exact (State.fenceGrove_kept _ _)
  · exact (State.fenceAd_kept _ _)
  · exact (State.meFence_kept _ _)
  · exact (State.fencePs_kept _ _)
  · exact (State.fenceAdc_kept _ _)
  · exact (State.fenceLink_kept _ _)
  · exact (State.fenceBank_kept _ _)
  · exact (State.fenceClient_kept _ _ _)
  · exact (State.fenceSmb_kept _ _)
  · exact Kept.refl _
theorem State.supCopy_kept (s : State) : Kept s (State.supCopy s) := by
  unfold State.supCopy
  refine Kept.ite ?_ ?_
  · exact (State.tsiCopy_kept _ _)
  · exact Kept.refl _
theorem State.copyDone_kept (s : State) : Kept s (State.copyDone s) := by
  unfold State.copyDone
  try dsimp only
  refine Kept.ite ?_ ?_
  · refine Kept.trans ?_ (State.modFlt_kept _ _)
    refine Kept.trans ?_ (State.tsiSwapReq_kept _ _ _)
    exact (State.tsiCopyDone_kept _)
  · exact (State.tsiCopyDone_kept _)
theorem State.supStep_kept (s : State) (u : Nat) : Kept s (State.supStep s u) := by
  unfold State.supStep
  try dsimp only
  try dsimp only
  split
  · refine Kept.trans ?_ (State.supCopy_kept _)
    exact (State.modFlt_kept _ _)
  · refine Kept.ite ?_ ?_
    · exact (State.readmit_kept _ _)
    · exact Kept.refl _
  · exact (State.restoreCmd_kept _ _)
  · exact Kept.refl _
theorem State.supSteps_kept (s : State) : Kept s (State.supSteps s) := by
  unfold State.supSteps
  refine Kept.ite ?_ ?_
  · exact Kept.refl _
  · refine Kept.trans ?_ (Kept.foldl (fun _ _ => ?_) _ _)
    · exact (State.modFlt_kept _ _)
    · exact (State.supStep_kept _ _)
theorem State.liftUnit_kept (s : State) (u : Nat) : Kept s (State.liftUnit s u) := by
  unfold State.liftUnit
  try dsimp only
  try dsimp only
  split
  · refine Kept.trans ?_ (State.unfenceChan_kept _ _ _)
    exact (State.modUnit_kept _ _ _)
  · refine Kept.trans ?_ (State.unfenceGrove_kept _ _)
    exact (State.modUnit_kept _ _ _)
  · refine Kept.trans ?_ (State.unfenceAd_kept _ _)
    exact (State.modUnit_kept _ _ _)
  · refine Kept.trans ?_ (State.meUnfence_kept _)
    exact (State.modUnit_kept _ _ _)
  · refine Kept.trans ?_ (State.unfencePs_kept _ _)
    exact (State.modUnit_kept _ _ _)
  · refine Kept.trans ?_ (State.fltBack_kept _ _)
    refine Kept.trans ?_ (State.unfenceAdc_kept _ _)
    exact (State.modUnit_kept _ _ _)
  · refine Kept.trans ?_ (State.unfenceLink_kept _ _)
    exact (State.modUnit_kept _ _ _)
  · refine Kept.trans ?_ (State.unfenceSmb_kept _ _)
    exact (State.modUnit_kept _ _ _)
  · exact (State.modUnit_kept _ _ _)
theorem State.lift_kept (s : State) (u : Nat) : Kept s (State.lift s u) := by
  unfold State.lift
  try dsimp only
  refine Kept.trans ?_ (State.postAll_kept _ _ _ _ _ _ _ _ _)
  refine Kept.trans ?_ (State.fltFlag_kept _ _)
  refine Kept.trans ?_ (State.supSteps_kept _)
  refine Kept.trans ?_ (State.modFlt_kept _ _)
  refine Kept.trans ?_ (Kept.foldl (fun _ _ => ?_) _ _)
  · exact (State.modUnit_kept _ _ _)
  · exact (State.liftUnit_kept _ _)
theorem State.fltLog_kept (s : State) (r : Report) (cls : Nat) (set : BitVec 8) : Kept s (State.fltLog s r cls set) := by
  unfold State.fltLog
  try dsimp only
  refine Kept.trans ?_ (State.postAll_kept _ _ _ _ _ _ _ _ _)
  refine Kept.trans ?_ (State.fltFlag_kept _ _)
  exact (State.modFlt_kept _ _)
theorem State.loadLog_kept (s : State) (bytes : List Byte) : Kept s (State.loadLog s bytes) := by
  unfold State.loadLog
  try dsimp only
  exact (State.modFlt_kept _ _)
theorem State.applyFence_kept (s : State) (u : Nat) (us : List Nat) (sets : List Nat) (own : Bool) : Kept s (State.applyFence s u us sets own) := by
  unfold State.applyFence
  try dsimp only
  refine Kept.trans ?_ (State.modUnit_kept _ _ _)
  refine Kept.trans ?_ (State.modFlt_kept _ _)
  refine Kept.trans ?_ (Kept.foldl (fun _ _ => ?_) _ _)
  · refine Kept.ite ?_ ?_
    · exact Kept.refl _
    · refine Kept.trans ?_ (Kept.foldl (fun _ _ => ?_) _ _)
      · exact Kept.refl _
      · exact (State.fenceUnit_kept _ _)
  · exact (State.modUnit_kept _ _ _)
theorem State.census_kept (s : State) : Kept s (State.census s) := by
  unfold State.census
  try dsimp only
  refine Kept.trans ?_ (State.fltFlag_kept _ _)
  refine Kept.trans ?_ (State.modFlt_kept _ _)
  exact (State.applyFence_kept _ _ _ _ _)
theorem State.chargeUnit_kept (s : State) (r : Report) (u : Nat) (cls : Nat) (act : FltAct) : Kept s (State.chargeUnit s r u cls act) := by
  unfold State.chargeUnit
  try dsimp only
  refine Kept.ite ?_ ?_
  · exact (State.modUnit_kept _ _ _)
  · refine Kept.trans ?_ (State.applyFence_kept _ _ _ _ _)
    exact (State.modUnit_kept _ _ _)
theorem State.actBeside_kept (s : State) (u cls : Nat) (act : FltAct) : Kept s (State.actBeside s u cls act) := by
  cases act with
  | report => exact Kept.refl s
  | own us => exact Kept.refl s
  | fence us => exact Kept.refl s
  | census => exact State.census_kept s
  | restart =>
    have r : Kept s ((s.modFlt fun f => { f with supReset := true, supAt := s.time }).modRs fun r => { r with op := false }) :=
      (State.modFlt_kept _ _).trans (State.modRs_kept _ _)
    simp only [State.actBeside]
    revert r
    generalize ((s.modFlt fun f => { f with supReset := true, supAt := s.time }).modRs fun r => { r with op := false }) = t
    intro r
    exact r.trans (Kept.ite ((State.applyFence_kept _ _ _ _ _).trans (State.modFlt_kept _ _)) (Kept.refl _))
theorem State.logAct_kept (s : State) (r : Report) (cls : Nat) (set : BitVec 8) : Kept s (State.logAct s r cls set) := by
  unfold State.logAct
  have k := State.fltLog_kept s r (if s.supStarted then cls else 0) set
  revert k
  generalize s.fltLog r (if s.supStarted then cls else 0) set = u
  intro k
  dsimp only
  refine k.trans (Kept.ite ?_ (Kept.refl u))
  exact Kept.trans (t := { u with upd := { u.upd with lasting := true } }) (Kept.same rfl rfl rfl rfl rfl rfl) (State.storeLog_kept _)
theorem State.recordAct_kept (s : State) (r : Report) (act : FltAct) : Kept s (State.recordAct s r act) := by
  unfold State.recordAct
  try dsimp only
  try dsimp only
  split
  · refine Kept.trans ?_ (State.fltLog_kept _ _ _ _)
    exact (State.modCyc_kept _ _)
  · try dsimp only
    refine Kept.trans ?_ (State.logAct_kept _ _ _ _)
    refine Kept.trans ?_ (State.actBeside_kept _ _ _ _)
    refine Kept.trans ?_ (State.chargeUnit_kept _ _ _ _ _)
    exact (State.modCyc_kept _ _)
theorem State.recordReport_kept (s : State) (r : Report) : Kept s (State.recordReport s r) := by
  unfold State.recordReport
  exact (State.recordAct_kept _ _ _)
theorem State.discardBad_kept (s : State) (c : Fin 256) : Kept s (State.discardBad s c) := by
  unfold State.discardBad
  refine Kept.ite ?_ ?_
  · refine Kept.trans ?_ (State.modClient_kept _ _ _)
    exact (State.dropEvent_kept _ _ _)
  · exact Kept.refl _
theorem State.fltRecord_kept (s : State) (f : Option Internal) : Kept s (State.fltRecord s f) := by
  unfold State.fltRecord
  try dsimp only
  split
  · refine Kept.trans ?_ (State.recordAct_kept _ _ _)
    exact (State.discardBad_kept _ _)
  · exact (State.recordReport_kept _ _)
  · try dsimp only
    split
    · exact Kept.refl _
    · refine Kept.trans ?_ (State.recordReport_kept _ _)
      exact Kept.same rfl rfl rfl rfl rfl rfl
theorem State.censusMismatch_kept (s : State) : Kept s (State.censusMismatch s) := by
  unfold State.censusMismatch
  exact (State.recordReport_kept _ _)
theorem State.supRestart_kept (s : State) : Kept s (State.supRestart s) := by
  unfold State.supRestart
  refine Kept.ite ?_ ?_
  · exact Kept.refl _
  · refine Kept.trans ?_ (State.packResume_kept _)
    refine Kept.trans ?_ (State.supSteps_kept _)
    refine Kept.trans ?_ (State.fltBack_kept _ _)
    exact (State.modFlt_kept _ _)
theorem State.liftNow_kept (s : State) (u : Nat) (cmd : Bool) : Kept s (State.liftNow s u cmd) := by
  unfold State.liftNow
  refine Kept.ite ?_ ?_
  · refine Kept.ite ?_ ?_
    · exact (State.fltFlag_kept _ _)
    · exact Kept.refl _
  · refine Kept.ite ?_ ?_
    · refine Kept.ite ?_ ?_
      · exact (State.lift_kept _ _)
      · exact Kept.refl _
    · try dsimp only
      refine Kept.trans ?_ (Kept.foldl (fun _ _ => ?_) _ _)
      · exact Kept.refl _
      · exact (State.lift_kept _ _)
theorem State.settleLifts_kept (s : State) : Kept s (State.settleLifts s) := by
  unfold State.settleLifts
  refine Kept.trans ?_ (Kept.foldl (fun _ _ => ?_) _ _)
  · exact Kept.refl _
  · exact (State.liftNow_kept _ _ _)
theorem State.rollCallSlot_kept (s : State) (answer : Option Bool) : Kept s (State.rollCallSlot s answer) := by
  unfold State.rollCallSlot
  refine Kept.ite ?_ ?_
  · exact Kept.refl _
  · try dsimp only
    refine Kept.trans ?_ (State.modFlt_kept _ _)
    refine Kept.ite ?_ ?_
    · exact Kept.refl _
    · try dsimp only
      split
      · try dsimp only
        refine Kept.trans ?_ (State.report_kept _ _ _ _ _)
        refine Kept.trans ?_ (State.hwSet_kept _ _ _)
        refine Kept.trans ?_ (State.modFlt_kept _ _)
        exact (State.fltFlag_kept _ _)
      · refine Kept.ite ?_ ?_
        · exact (State.modCyc_kept _ _)
        · exact Kept.refl _
theorem State.cmdFence_kept (s : State) (kind : Nat) (index : Nat) : Kept s (State.cmdFence s kind index) := by
  unfold State.cmdFence
  refine Kept.ite ?_ ?_
  · exact (State.report_kept _ _ _ _ _)
  · exact (State.fltFlag_kept _ _)
theorem State.cmdReadmit_kept (s : State) (kind : Nat) (index : Nat) : Kept s (State.cmdReadmit s kind index) := by
  unfold State.cmdReadmit
  refine Kept.ite ?_ ?_
  · exact (State.fltFlag_kept _ _)
  · exact (State.modCyc_kept _ _)
theorem State.cmdClrlog_kept (s : State) : Kept s (State.cmdClrlog s) := by
  unfold State.cmdClrlog
  exact (State.modFlt_kept _ _)
theorem State.clearLogfull_kept (s : State) : Kept s (State.clearLogfull s) := by
  unfold State.clearLogfull
  refine Kept.ite ?_ ?_
  · exact Kept.refl _
  · exact (State.modFlt_kept _ _)
theorem State.fltRead_kept (s : State) (a : Nat) : KeptOP s (State.fltRead s a) := by
  unfold State.fltRead
  try dsimp only
  refine KeptOP.ite ?_ ?_
  · try dsimp only
    refine KeptOP.mk ?_
    refine KeptP.mk ?_
    exact Kept.refl _
  · try dsimp only
    split
    · refine KeptOP.mk ?_
      refine KeptP.mk ?_
      exact Kept.refl _
    · refine KeptOP.mk ?_
      refine KeptP.mk ?_
      exact Kept.refl _
    · refine KeptOP.mk ?_
      refine KeptP.mk ?_
      exact Kept.refl _
    · refine KeptOP.mk ?_
      refine KeptP.mk ?_
      exact Kept.refl _
    · refine KeptOP.mk ?_
      refine KeptP.mk ?_
      exact Kept.refl _
    · refine KeptOP.mk ?_
      refine KeptP.mk ?_
      exact Kept.refl _
    · refine KeptOP.mk ?_
      refine KeptP.mk ?_
      exact Kept.refl _
    · refine KeptOP.mk ?_
      refine KeptP.mk ?_
      exact Kept.refl _
    · refine KeptOP.mk ?_
      refine KeptP.mk ?_
      exact Kept.refl _
    · refine KeptOP.mk ?_
      refine KeptP.mk ?_
      exact Kept.refl _
    · refine KeptOP.mk ?_
      refine KeptP.mk ?_
      exact Kept.refl _
    · refine KeptOP.mk ?_
      refine KeptP.mk ?_
      exact Kept.refl _
    · refine KeptOP.mk ?_
      refine KeptP.mk ?_
      exact Kept.refl _
    · refine KeptOP.mk ?_
      refine KeptP.mk ?_
      exact Kept.refl _
    · exact KeptOP.none _
theorem State.writeFltCmd_kept (s : State) (w : Word) : Kept s (State.writeFltCmd s w) := by
  unfold State.writeFltCmd
  try dsimp only
  try dsimp only
  split
  · exact (State.cmdFence_kept _ _ _)
  · exact (State.cmdReadmit_kept _ _ _)
  · exact (State.cmdClrlog_kept _)
  · exact (State.fltFlag_kept _ _)
theorem State.fltWrite_kept (s : State) (a : Nat) (w : Word) : KeptO s (State.fltWrite s a w) := by
  unfold State.fltWrite
  try dsimp only
  refine KeptO.ite ?_ ?_
  · refine KeptO.mk ?_
    exact Kept.refl _
  · try dsimp only
    split
    · refine KeptO.mk ?_
      refine Kept.ite ?_ ?_
      · exact (State.fltFlag_kept _ _)
      · refine Kept.ite ?_ ?_
        · exact Kept.refl _
        · exact (State.modFlt_kept _ _)
    · refine KeptO.mk ?_
      refine Kept.ite ?_ ?_
      · exact (State.fltFlag_kept _ _)
      · refine Kept.ite ?_ ?_
        · exact Kept.refl _
        · exact (State.modFlt_kept _ _)
    · refine KeptO.mk ?_
      refine Kept.ite ?_ ?_
      · exact Kept.refl _
      · exact (State.modFlt_kept _ _)
    · refine KeptO.mk ?_
      refine Kept.ite ?_ ?_
      · exact Kept.refl _
      · exact (State.modFlt_kept _ _)
    · refine KeptO.mk ?_
      refine Kept.ite ?_ ?_
      · exact Kept.refl _
      · exact (State.modFlt_kept _ _)
    · refine KeptO.mk ?_
      refine Kept.ite ?_ ?_
      · exact Kept.refl _
      · exact (State.modFlt_kept _ _)
    · try dsimp only
      refine KeptO.mk ?_
      refine Kept.trans ?_ (State.modFlt_kept _ _)
      refine Kept.ite ?_ ?_
      · exact (State.clearLogfull_kept _)
      · exact Kept.refl _
    · refine KeptO.mk ?_
      exact (State.modFlt_kept _ _)
    · refine KeptO.mk ?_
      exact (State.writeFltCmd_kept _ _)
    · refine KeptO.mk ?_
      exact (State.modFlt_kept _ _)
    · refine KeptO.mk ?_
      exact (State.modFlt_kept _ _)
    · refine KeptO.mk ?_
      exact Kept.refl _
    · refine KeptO.mk ?_
      exact Kept.refl _
    · refine KeptO.mk ?_
      exact Kept.refl _
    · exact KeptO.none _
theorem State.fltParkEntry_kept (s : State) : Kept s (State.fltParkEntry s) := by
  unfold State.fltParkEntry
  refine Kept.trans ?_ (Kept.foldl (fun _ _ => ?_) _ _)
  · exact Kept.refl _
  · try dsimp only
    refine Kept.ite ?_ ?_
    · refine Kept.trans ?_ (State.modFlt_kept _ _)
      refine Kept.trans ?_ (Kept.foldl (fun _ _ => ?_) _ _)
      · exact (State.modUnit_kept _ _ _)
      · exact (State.liftUnit_kept _ _)
    · refine Kept.trans ?_ (Kept.foldl (fun _ _ => ?_) _ _)
      · refine Kept.trans ?_ (State.modFlt_kept _ _)
        refine Kept.trans ?_ (Kept.foldl (fun _ _ => ?_) _ _)
        · exact (State.modUnit_kept _ _ _)
        · exact (State.liftUnit_kept _ _)
      · exact (State.supStep_kept _ _)
theorem State.fltRefence_kept (s : State) : Kept s (State.fltRefence s) := by
  unfold State.fltRefence
  refine Kept.trans ?_ (Kept.foldl (fun _ _ => ?_) _ _)
  · exact Kept.refl _
  · refine Kept.trans ?_ (Kept.foldl (fun _ _ => ?_) _ _)
    · exact Kept.refl _
    · exact (State.fenceUnit_kept _ _)

/-! ## Power -/

theorem State.queueFail_kept (s : State) (e : HpEntry) (cause : Nat) : Kept s (State.queueFail s e cause) := by
  unfold State.queueFail
  try dsimp only
  try dsimp only
  split
  · refine Kept.trans ?_ (State.modHp_kept _ _)
    refine Kept.trans ?_ (State.modHp_kept _ _)
    exact (State.hpFlag_kept _ _)
  · refine Kept.trans ?_ (State.modLink_kept _ _ _)
    refine Kept.trans ?_ (State.modHp_kept _ _)
    exact (State.hpFlag_kept _ _)
  · refine Kept.trans ?_ (State.modHp_kept _ _)
    exact (State.hpFlag_kept _ _)
theorem State.discardQueue_kept (s : State) (p : HpEntry → Bool) (cause : Nat) : Kept s (State.discardQueue s p cause) := by
  unfold State.discardQueue
  try dsimp only
  refine Kept.trans ?_ (Kept.foldl (fun _ _ => ?_) _ _)
  · exact (State.modHp_kept _ _)
  · exact (State.queueFail_kept _ _ _)
theorem State.intcSave_kept (s : State) : Kept s (State.intcSave s) := by
  unfold State.intcSave
  try dsimp only
  exact (State.modCanopy_kept _ _)
theorem State.intcRestore_kept (s : State) : Kept s (State.intcRestore s) := by
  unfold State.intcRestore
  try dsimp only
  exact Kept.same rfl rfl rfl rfl rfl rfl
theorem State.resetPd_kept (s : State) : Kept s (State.resetPd s) := by
  refine ⟨rfl, fun _ => rfl, fun _ e => ?_, fun _ => ⟨rfl, rfl, rfl⟩⟩
  simp [State.resetPd]
theorem State.resetBy_kept (s : State) (cause : Fin 16) : Kept s (State.resetBy s cause) := by
  unfold State.resetBy
  try dsimp only
  refine Kept.trans ?_ (State.modCyc_kept _ _)
  refine Kept.trans ?_ (State.modCanopy_kept _ _)
  exact (State.resetPd_kept _)
theorem State.canopyPor_kept (s : State) : Kept s (State.canopyPor s) :=
  (State.resetPd_kept s).trans (Kept.same rfl rfl rfl rfl rfl rfl)
theorem State.resetWith_kept (s : State) (cause : Fin 16) (also : Nat) : Kept s (State.resetWith s cause also) := by
  unfold State.resetWith
  refine Kept.ite ?_ ?_
  · exact (State.canopyPor_kept _)
  · refine Kept.ite ?_ ?_
    · exact (State.resetBy_kept _ _)
    · exact (State.resetBy_kept _ _)
theorem State.vioFall_kept (s : State) : Kept s (State.vioFall s) := by
  unfold State.vioFall
  refine Kept.ite ?_ ?_
  · exact Kept.refl _
  · refine Kept.trans ?_ (State.resetPd_kept _)
    exact (State.modPwr_kept _ _)
theorem State.vioRise_kept (s : State) : Kept s (State.vioRise s) := by
  unfold State.vioRise
  refine Kept.ite ?_ ?_
  · exact Kept.refl _
  · refine Kept.trans ?_ (State.resetBy_kept _ _)
    exact (State.modPwr_kept _ _)
theorem State.vddaFall_kept (s : State) : Kept s (State.vddaFall s) := by
  unfold State.vddaFall
  refine Kept.ite ?_ ?_
  · exact Kept.refl _
  · refine Kept.trans ?_ (State.report_kept _ _ _ _ _)
    refine Kept.trans ?_ (State.hwSet_kept _ _ _)
    exact (State.modAfe_kept _ _)
theorem State.pinReset_kept (s : State) (also : Nat) : Kept s (State.pinReset s also) := by
  unfold State.pinReset
  refine Kept.ite ?_ ?_
  · refine Kept.trans ?_ (State.modPins_kept _ _)
    exact (State.resetWith_kept _ _ _)
  · exact Kept.refl _
theorem State.pllLocked_kept (s : State) : Kept s (State.pllLocked s) := by
  unfold State.pllLocked
  refine Kept.ite ?_ ?_
  · exact Kept.refl _
  · refine Kept.trans ?_ (State.modTbs_kept _ _)
    exact (State.modPwr_kept _ _)
theorem State.pllTimeout_kept (s : State) : Kept s (State.pllTimeout s) := by
  unfold State.pllTimeout
  refine Kept.ite ?_ ?_
  · exact Kept.refl _
  · exact (State.modBoot_kept _ _)
theorem State.clkholdRetry_kept (s : State) : Kept s (State.clkholdRetry s) := by
  unfold State.clkholdRetry
  refine Kept.ite ?_ ?_
  · exact (State.resetBy_kept _ _)
  · exact Kept.refl _
theorem State.stopTraffic_kept (s : State) (cancel : Nat) (fail : Nat) : Kept s (State.stopTraffic s cancel fail) := by
  unfold State.stopTraffic
  try dsimp only
  refine Kept.trans ?_ (State.bulkCancel_kept _ _)
  refine Kept.trans ?_ (State.failRequests_kept _ _)
  refine Kept.trans ?_ (State.modTsi_kept _ _ fun _ => rfl)
  exact Kept.refl _
theorem State.parkEntry_kept (s : State) (off : Bool) : Kept s (State.parkEntry s off) := by
  unfold State.parkEntry
  dsimp only
  refine Kept.trans ?_ (State.discardQueue_kept _ _ _)
  refine Kept.trans ?_ (Kept.fin (fun _ _ => State.testAbandon_kept _ _) _)
  refine Kept.trans ?_ (Kept.fin (fun _ _ => State.modAd_kept _ _ _) _)
  refine Kept.trans ?_ (State.stopTraffic_kept _ _ _)
  refine Kept.trans ?_ (State.modMe_kept _ _)
  refine Kept.trans ?_ (Kept.fin (fun e s => State.modEng_kept _ _ _ fun p => ?_) _)
  · exact ((State.modPwr_kept _ _).trans (State.fltParkEntry_kept _)).trans (Kept.fin (fun _ _ => State.setCause_kept _ _ _) _)
  · split <;> exact ⟨id, id⟩
theorem State.pwrPark_kept (s : State) (key : Nat) (off : Bool) : Kept s (State.pwrPark s key off) := by
  unfold State.pwrPark
  try dsimp only
  refine Kept.ite ?_ ?_
  · exact (State.parkEntry_kept _ _)
  · exact (State.modPwr_kept _ _)
theorem State.pwrReset_kept (s : State) (key : Nat) (also : Nat) : Kept s (State.pwrReset s key also) := by
  unfold State.pwrReset
  refine Kept.ite ?_ ?_
  · exact (State.modPwr_kept _ _)
  · exact (State.resetWith_kept _ _ _)
theorem State.pwrClkrec_kept (s : State) (key : Nat) : Kept s (State.pwrClkrec s key) := by
  unfold State.pwrClkrec
  refine Kept.ite ?_ ?_
  · exact (State.modPwr_kept _ _)
  · exact (State.modPwr_kept _ _)
theorem State.retState_kept (s : State) : Kept s (State.retState s) := by
  refine ⟨rfl, fun h => h, fun _ e => ?_, fun h => ⟨h.1, cellWf_mapFilter ({} : ClientRec) (fun r => { r with faultTimes := [] }) _ h.2.1, ?_⟩⟩
  · simp [State.retState]
  · simp only [State.retState]
    split
    · exact h.2.2
    · rfl
theorem State.parkWake_kept (s : State) : Kept s (State.parkWake s) := by
  unfold State.parkWake
  try dsimp only
  refine Kept.trans ?_ (State.modUpd_kept _ _)
  refine Kept.trans ?_ (State.modFlt_kept _ _)
  refine Kept.trans ?_ (State.modPins_kept _ _)
  refine Kept.trans ?_ (State.intcRestore_kept _)
  exact (State.modPwr_kept _ _)
theorem State.enterPark_kept (s : State) : Kept s (State.enterPark s) := by
  unfold State.enterPark
  dsimp only
  refine (State.modPwr_kept s fun p => { p with kept := p.keep }).trans ?_
  generalize (s.modPwr fun p => { p with kept := p.keep }) = v
  have h : ∀ f i t r u, Kept v { v.retState with flt := f, intc := i, tbs := t, reports := r, upd := u } := fun f i t r u =>
    (State.retState_kept v).trans (Kept.same rfl rfl rfl rfl rfl rfl)
  exact (h _ _ _ _ _).trans (State.modPwr_kept _ _)
theorem State.enterOff_kept (s : State) : Kept s (State.enterOff s) := by
  unfold State.enterOff
  try dsimp only
  refine Kept.trans ?_ (State.modPwr_kept _ _)
  refine Kept.trans ?_ (State.modPins_kept _ _)
  exact (State.resetPd_kept _)
theorem State.parkComplete_kept (s : State) : Kept s (State.parkComplete s) := by
  unfold State.parkComplete
  refine Kept.ite (Kept.refl s) ((State.intcSave_kept s).trans ?_)
  generalize s.intcSave = s
  dsimp only
  refine Kept.ite ((State.intcRestore_kept s).trans (State.modPwr_kept _ _)) ?_
  have w := State.modPins_kept s fun p => { p with keeper := s.clearingLevels }
  revert w
  generalize (s.modPins fun p => { p with keeper := s.clearingLevels }) = u
  intro w
  refine w.trans ?_
  refine Kept.ite (State.enterOff_kept _) (Kept.ite ?_ (State.enterPark_kept _))
  exact (State.enterPark_kept _).trans (State.parkWake_kept _)
theorem State.wakeLatch_kept (s : State) (src : BitVec 10) : Kept s (State.wakeLatch s src) := by
  unfold State.wakeLatch
  try dsimp only
  refine Kept.ite ?_ ?_
  · refine Kept.trans ?_ (State.hwSet_kept _ _ _)
    exact (State.modCanopy_kept _ _)
  · try dsimp only
    try dsimp only
    split
    · refine Kept.trans ?_ (State.modPwr_kept _ _)
      refine Kept.trans ?_ (State.modCyc_kept _ _)
      refine Kept.trans ?_ (State.hwSet_kept _ _ _)
      exact (State.modCanopy_kept _ _)
    · refine Kept.trans ?_ (State.parkWake_kept _)
      refine Kept.trans ?_ (State.modCyc_kept _ _)
      refine Kept.trans ?_ (State.hwSet_kept _ _ _)
      exact (State.modCanopy_kept _ _)
    · refine Kept.trans ?_ (State.modCyc_kept _ _)
      refine Kept.trans ?_ (State.hwSet_kept _ _ _)
      exact (State.modCanopy_kept _ _)
theorem State.wakeFromOff_kept (s : State) : Kept s (State.wakeFromOff s) := by
  unfold State.wakeFromOff
  refine Kept.ite ?_ ?_
  · exact Kept.refl _
  · try dsimp only
    refine Kept.ite ?_ ?_
    · refine Kept.trans ?_ (State.intcRestore_kept _)
      refine Kept.trans ?_ (State.modCyc_kept _ _)
      refine Kept.trans ?_ (State.modCanopy_kept _ _)
      exact (State.resetPd_kept _)
    · refine Kept.trans ?_ (State.modCanopy_kept _ _)
      refine Kept.trans ?_ (State.modCyc_kept _ _)
      refine Kept.trans ?_ (State.modCanopy_kept _ _)
      exact (State.resetPd_kept _)
theorem State.watchWindow_kept (s : State) : Kept s (State.watchWindow s) := by
  unfold State.watchWindow
  exact (State.modCanopy_kept _ _)
theorem State.watchEdge_kept (s : State) (k : Fin 4) (v : Nat) : Kept s (State.watchEdge s k v) := by
  unfold State.watchEdge
  try dsimp only
  refine Kept.ite ?_ ?_
  · exact Kept.refl _
  · try dsimp only
    refine Kept.ite ?_ ?_
    · exact (State.modCanopy_kept _ _)
    · try dsimp only
      refine Kept.ite ?_ ?_
      · refine Kept.trans ?_ (State.wakeLatch_kept _ _)
        refine Kept.trans ?_ (State.modCanopy_kept _ _)
        exact (State.modCanopy_kept _ _)
      · refine Kept.trans ?_ (State.modCanopy_kept _ _)
        exact (State.modCanopy_kept _ _)
theorem State.rtcTick_kept (s : State) : Kept s (State.rtcTick s) := by
  unfold State.rtcTick
  try dsimp only
  refine Kept.ite ?_ ?_
  · refine Kept.trans ?_ (State.wakeLatch_kept _ _)
    exact (State.modCanopy_kept _ _)
  · exact (State.modCanopy_kept _ _)
theorem State.rtcSecWrite_kept (s : State) (w : Word) : Kept s (State.rtcSecWrite s w) := by
  unfold State.rtcSecWrite
  try dsimp only
  refine Kept.ite ?_ ?_
  · refine Kept.trans ?_ (State.wakeLatch_kept _ _)
    refine Kept.trans ?_ (State.pmClockSet_kept _)
    exact (State.modCanopy_kept _ _)
  · refine Kept.trans ?_ (State.pmClockSet_kept _)
    exact (State.modCanopy_kept _ _)
theorem State.alarmWrite_kept (s : State) (w : Word) : Kept s (State.alarmWrite s w) := by
  unfold State.alarmWrite
  try dsimp only
  refine Kept.ite ?_ ?_
  · refine Kept.trans ?_ (State.wakeLatch_kept _ _)
    exact (State.modCanopy_kept _ _)
  · exact (State.modCanopy_kept _ _)
theorem State.tamperEvent_kept (s : State) (n : Fin 2) : Kept s (State.tamperEvent s n) := by
  unfold State.tamperEvent
  try dsimp only
  refine Kept.trans ?_ (State.wakeLatch_kept _ _)
  refine Kept.trans ?_ (State.hwSet_kept _ _ _)
  exact (State.modCanopy_kept _ _)
theorem State.lseFail_kept (s : State) : Kept s (State.lseFail s) := by
  unfold State.lseFail
  refine Kept.trans ?_ (State.modPwr_kept _ _)
  refine Kept.trans ?_ (State.hwSet_kept _ _ _)
  exact (State.modCanopy_kept _ _)
theorem State.lseRecover_kept (s : State) : Kept s (State.lseRecover s) := by
  unfold State.lseRecover
  exact (State.modPwr_kept _ _)
theorem State.noteClockFault_kept (s : State) (sub : Fin 32768) : Kept s (State.noteClockFault s sub) := by
  unfold State.noteClockFault
  try dsimp only
  refine Kept.trans ?_ (State.report_kept _ _ _ _ _)
  exact (State.modPwr_kept _ _)
theorem State.stopClock_kept (s k : State) (levels : List (Nat × Level)) (h : TablesCanonical s → TablesCanonical k) :
    Kept s (State.stopClock s k levels) := by
  have r : ∀ p, Kept s ({ s with pwr := p } : State).retState := fun p =>
    Kept.trans (t := { s with pwr := p }) (Kept.same rfl rfl rfl rfl rfl rfl) (State.retState_kept _)
  have k := r { s.pwr with kept := 0xF }
  exact ⟨k.queue, k.mem, k.fifo, fun x => ⟨(k.tab x).1, (h x).2.1, (k.tab x).2.2⟩⟩
theorem State.clockFault_kept (s : State) (sub : Fin 32768) : Kept s (State.clockFault s sub) := by
  unfold State.clockFault
  dsimp only
  refine Kept.ite (Kept.refl _) (Kept.ite ((State.noteClockFault_kept _ _).trans (State.modPwr_kept _ _)) ?_)
  refine Kept.trans ?_ (State.stopClock_kept _ _ _ id)
  refine Kept.trans ?_ (State.discardQueue_kept _ _ _)
  exact (State.noteClockFault_kept _ _).trans (State.stopTraffic_kept _ _ _)
theorem State.pwrStateRead_kept (s : State) : KeptP s (State.pwrStateRead s) := by
  unfold State.pwrStateRead
  refine KeptP.mk ?_
  exact (State.modPwr_kept _ _)
theorem State.pwrRead_kept (s : State) (a : Nat) : KeptOP s (State.pwrRead s a) := by
  unfold State.pwrRead
  try dsimp only
  try dsimp only
  split
  · refine KeptOP.mk ?_
    exact (State.pwrStateRead_kept _)
  · refine KeptOP.mk ?_
    refine KeptP.mk ?_
    exact Kept.refl _
  · refine KeptOP.mk ?_
    refine KeptP.mk ?_
    exact Kept.refl _
  · refine KeptOP.mk ?_
    refine KeptP.mk ?_
    exact Kept.refl _
  · refine KeptOP.mk ?_
    refine KeptP.mk ?_
    exact Kept.refl _
  · refine KeptOP.mk ?_
    refine KeptP.mk ?_
    exact Kept.refl _
  · refine KeptOP.mk ?_
    refine KeptP.mk ?_
    exact Kept.refl _
  · refine KeptOP.mk ?_
    refine KeptP.mk ?_
    exact Kept.refl _
  · refine KeptOP.mk ?_
    refine KeptP.mk ?_
    exact Kept.refl _
  · refine KeptOP.mk ?_
    refine KeptP.mk ?_
    exact Kept.refl _
  · refine KeptOP.mk ?_
    refine KeptP.mk ?_
    exact Kept.refl _
  · refine KeptOP.mk ?_
    refine KeptP.mk ?_
    exact Kept.refl _
  · refine KeptOP.mk ?_
    refine KeptP.mk ?_
    exact Kept.refl _
  · refine KeptOP.mk ?_
    refine KeptP.mk ?_
    exact Kept.refl _
  · refine KeptOP.mk ?_
    refine KeptP.mk ?_
    exact Kept.refl _
  · exact KeptOP.none _
theorem State.writePwrCmd_kept (s : State) (w : Word) : Kept s (State.writePwrCmd s w) := by
  unfold State.writePwrCmd
  try dsimp only
  try dsimp only
  split
  · exact (State.pwrPark_kept _ _ _)
  · exact (State.pwrPark_kept _ _ _)
  · exact (State.pwrReset_kept _ _ _)
  · exact (State.pwrClkrec_kept _ _)
  · exact Kept.refl _
theorem State.pwrWrite_kept (s : State) (a : Nat) (w : Word) : KeptO s (State.pwrWrite s a w) := by
  unfold State.pwrWrite
  try dsimp only
  split
  · refine KeptO.mk ?_
    exact (State.writePwrCmd_kept _ _)
  · refine KeptO.mk ?_
    exact (State.modPwr_kept _ _)
  · refine KeptO.mk ?_
    exact (State.modCanopy_kept _ _)
  · refine KeptO.mk ?_
    exact (State.modCanopy_kept _ _)
  · refine KeptO.mk ?_
    exact (State.modCanopy_kept _ _)
  · refine KeptO.mk ?_
    exact (State.rtcSecWrite_kept _ _)
  · refine KeptO.mk ?_
    exact (State.alarmWrite_kept _ _)
  · refine KeptO.mk ?_
    exact (State.modCanopy_kept _ _)
  · refine KeptO.mk ?_
    exact (State.modCanopy_kept _ _)
  · refine KeptO.mk ?_
    exact (State.modCanopy_kept _ _)
  · refine KeptO.mk ?_
    exact Kept.refl _
  · refine KeptO.mk ?_
    exact Kept.refl _
  · refine KeptO.mk ?_
    exact Kept.refl _
  · refine KeptO.mk ?_
    exact Kept.refl _
  · refine KeptO.mk ?_
    exact Kept.refl _
  · exact KeptO.none _

/-! ## Upd -/

theorem State.updFlag_kept (s : State) (b : BitVec 7) : Kept s (State.updFlag s b) := by
  unfold State.updFlag
  refine Kept.trans ?_ (State.hwSet_kept _ _ _)
  exact (State.modUpd_kept _ _)
theorem State.flashErase_kept (s : State) (o : Nat) (n : Nat) : Kept s (State.flashErase s o n) := by
  unfold State.flashErase
  exact Kept.same rfl rfl rfl rfl rfl rfl
theorem State.flashProgram_kept (s : State) (o : Nat) (bs : List Byte) : Kept s (State.flashProgram s o bs) := by
  unfold State.flashProgram
  exact Kept.same rfl rfl rfl rfl rfl rfl
theorem State.writeBootRec_kept (s : State) (b : BootRec) : Kept s (State.writeBootRec s b) := by
  unfold State.writeBootRec
  exact (State.rsCommit_kept _ _ _ _)
theorem State.writeProgress_kept (s : State) (st : Nat) (target : Nat) : Kept s (State.writeProgress s st target) := by
  unfold State.writeProgress
  exact (State.rsCommit_kept _ _ _ _)
theorem State.setUpd_kept (s : State) (st : UpdState) : Kept s (State.setUpd s st) := by
  unfold State.setUpd
  refine Kept.ite ?_ ?_
  · exact Kept.refl _
  · try dsimp only
    refine Kept.trans ?_ (State.postAll_kept _ _ _ _ _ _ _ _ _)
    exact (State.modUpd_kept _ _)
theorem State.updError_kept (s : State) (code : Nat) (inner : Nat) (block : Nat) : Kept s (State.updError s code inner block) := by
  unfold State.updError
  refine Kept.trans ?_ (State.setUpd_kept _ _)
  refine Kept.trans ?_ (State.updFlag_kept _ _)
  exact (State.modUpd_kept _ _)
theorem State.postConfirm_kept (s : State) (cfg : Bool) (ok : Bool) (which : Bool) : Kept s (State.postConfirm s cfg ok which) := by
  unfold State.postConfirm
  exact (State.postAll_kept _ _ _ _ _ _ _ _ _)
theorem State.updData_kept (s : State) (c : Fin 256) (w : Word) : Kept s (State.updData s c w) := by
  unfold State.updData
  refine Kept.ite ?_ ?_
  · exact (State.updFlag_kept _ _)
  · exact (State.modUpd_kept _ _)
theorem State.updBegin_kept (s : State) (c : Fin 256) : Kept s (State.updBegin s c) := by
  unfold State.updBegin
  refine Kept.ite ?_ ?_
  · exact (State.updFlag_kept _ _)
  · try dsimp only
    refine Kept.ite ?_ ?_
    · refine Kept.trans ?_ (State.updError_kept _ _ _ _)
      exact (State.modUpd_kept _ _)
    · try dsimp only
      refine Kept.trans ?_ (State.setUpd_kept _ _)
      refine Kept.ite ?_ ?_
      · refine Kept.ite ?_ ?_
        · refine Kept.trans ?_ (State.writeBootRec_kept _ _)
          refine Kept.trans ?_ (State.modUpd_kept _ _)
          exact (State.modUpd_kept _ _)
        · refine Kept.trans ?_ (State.modUpd_kept _ _)
          exact (State.modUpd_kept _ _)
      · refine Kept.trans ?_ (State.writeProgress_kept _ _ _)
        refine Kept.ite ?_ ?_
        · refine Kept.trans ?_ (State.writeBootRec_kept _ _)
          refine Kept.trans ?_ (State.modUpd_kept _ _)
          exact (State.modUpd_kept _ _)
        · refine Kept.trans ?_ (State.modUpd_kept _ _)
          exact (State.modUpd_kept _ _)
theorem State.updBlock_kept (s : State) (c : Fin 256) (n : Nat) : Kept s (State.updBlock s c n) := by
  unfold State.updBlock
  refine Kept.ite ?_ ?_
  · exact (State.updFlag_kept _ _)
  · refine Kept.ite ?_ ?_
    · exact (State.updError_kept _ _ _ _)
    · refine Kept.ite ?_ ?_
      · exact (State.updError_kept _ _ _ _)
      · try dsimp only
        refine Kept.ite ?_ ?_
        · refine Kept.trans ?_ (State.updError_kept _ _ _ _)
          exact (State.modUpd_kept _ _)
        · refine Kept.trans ?_ (State.setUpd_kept _ _)
          refine Kept.trans ?_ (State.modUpd_kept _ _)
          exact (State.modUpd_kept _ _)
theorem State.doAbort_kept (s : State) : Kept s (State.doAbort s) := by
  unfold State.doAbort
  try dsimp only
  refine Kept.trans ?_ (State.modUpd_kept _ _)
  refine Kept.trans ?_ (State.setUpd_kept _ _)
  refine Kept.trans ?_ (State.writeProgress_kept _ _ _)
  refine Kept.trans ?_ (State.modUpd_kept _ _)
  refine Kept.ite ?_ ?_
  · refine Kept.trans ?_ (State.writeBootRec_kept _ _)
    refine Kept.ite ?_ ?_
    · exact Kept.refl _
    · refine Kept.ite ?_ ?_
      · exact (State.flashErase_kept _ _ _)
      · exact (State.flashErase_kept _ _ _)
  · refine Kept.ite ?_ ?_
    · exact Kept.refl _
    · refine Kept.ite ?_ ?_
      · exact (State.flashErase_kept _ _ _)
      · exact (State.flashErase_kept _ _ _)
theorem State.updProgrammed_kept (s : State) (ok : Bool) : Kept s (State.updProgrammed s ok) := by
  unfold State.updProgrammed
  refine Kept.ite ?_ ?_
  · exact Kept.refl _
  · try dsimp only
    refine Kept.ite ?_ ?_
    · try dsimp only
      refine Kept.ite ?_ ?_
      · refine Kept.trans ?_ (State.doAbort_kept _)
        refine Kept.ite ?_ ?_
        · refine Kept.trans ?_ (State.setUpd_kept _ _)
          refine Kept.trans ?_ (State.writeProgress_kept _ _ _)
          refine Kept.trans ?_ (State.modUpd_kept _ _)
          refine Kept.trans ?_ (State.flashProgram_kept _ _ _)
          exact (State.flashErase_kept _ _ _)
        · refine Kept.trans ?_ (State.writeProgress_kept _ _ _)
          refine Kept.trans ?_ (State.modUpd_kept _ _)
          refine Kept.trans ?_ (State.flashProgram_kept _ _ _)
          exact (State.flashErase_kept _ _ _)
      · refine Kept.ite ?_ ?_
        · refine Kept.trans ?_ (State.setUpd_kept _ _)
          refine Kept.trans ?_ (State.writeProgress_kept _ _ _)
          refine Kept.trans ?_ (State.modUpd_kept _ _)
          refine Kept.trans ?_ (State.flashProgram_kept _ _ _)
          exact (State.flashErase_kept _ _ _)
        · refine Kept.trans ?_ (State.writeProgress_kept _ _ _)
          refine Kept.trans ?_ (State.modUpd_kept _ _)
          refine Kept.trans ?_ (State.flashProgram_kept _ _ _)
          exact (State.flashErase_kept _ _ _)
    · refine Kept.ite ?_ ?_
      · refine Kept.trans ?_ (State.modUpd_kept _ _)
        exact (State.flashErase_kept _ _ _)
      · try dsimp only
        refine Kept.ite ?_ ?_
        · refine Kept.trans ?_ (State.doAbort_kept _)
          refine Kept.trans ?_ (State.modUpd_kept _ _)
          exact (State.flashErase_kept _ _ _)
        · refine Kept.trans ?_ (State.updError_kept _ _ _ _)
          refine Kept.trans ?_ (State.modUpd_kept _ _)
          exact (State.flashErase_kept _ _ _)
theorem State.updEnd_kept (s : State) (c : Fin 256) : Kept s (State.updEnd s c) := by
  unfold State.updEnd
  refine Kept.ite ?_ ?_
  · exact (State.updFlag_kept _ _)
  · refine Kept.ite ?_ ?_
    · exact (State.updError_kept _ _ _ _)
    · exact (State.setUpd_kept _ _)
theorem State.updAbort_kept (s : State) (c : Fin 256) : Kept s (State.updAbort s c) := by
  unfold State.updAbort
  refine Kept.ite ?_ ?_
  · exact (State.updFlag_kept _ _)
  · refine Kept.ite ?_ ?_
    · exact (State.modUpd_kept _ _)
    · exact (State.doAbort_kept _)
theorem State.updConfirm_kept (s : State) : Kept s (State.updConfirm s) := by
  unfold State.updConfirm
  refine Kept.ite ?_ ?_
  · exact (State.modUpd_kept _ _)
  · exact Kept.refl _
theorem State.setNode_kept (s : State) (l : Fin 4) (r : Nat) : Kept s (State.setNode s l r) := by
  unfold State.setNode
  exact (State.modUpd_kept _ _)
theorem State.sendNode_kept (s : State) (l : Fin 4) (req : Bool) (payload : List Byte) : Kept s (State.sendNode s l req payload) := by
  unfold State.sendNode
  try dsimp only
  refine Kept.trans ?_ (State.modUpd_kept _ _)
  exact (State.modLink_kept _ _ _)
theorem State.campSend_kept (s : State) : Kept s (State.campSend s) := by
  unfold State.campSend
  try dsimp only
  split
  · exact Kept.refl _
  · try dsimp only
    try dsimp only
    split
    · exact (State.sendNode_kept _ _ _ _)
    · exact (State.sendNode_kept _ _ _ _)
    · exact (State.sendNode_kept _ _ _ _)
    · exact (State.sendNode_kept _ _ _ _)
    · exact Kept.refl _
theorem State.campDone_kept (s : State) (ok : Bool) : Kept s (State.campDone s ok) := by
  unfold State.campDone
  try dsimp only
  refine Kept.trans ?_ (State.setUpd_kept _ _)
  refine Kept.trans ?_ (State.writeProgress_kept _ _ _)
  refine Kept.trans ?_ (Kept.fin (fun _ _ => ?_) _)
  · refine Kept.trans ?_ (State.updFlag_kept _ _)
    exact (State.modUpd_kept _ _)
  · try dsimp only
    refine Kept.ite ?_ ?_
    · exact (State.postAll_kept _ _ _ _ _ _ _ _ _)
    · exact Kept.refl _
theorem State.campNext_kept (fuel : Nat) : ∀ (l : Nat) (s : State), Kept s (State.campNext fuel l s) := by
  induction fuel with
  | zero => exact fun _ s => State.campDone_kept _ _
  | succ n ih =>
    intro l s
    unfold State.campNext
    dsimp only
    refine Kept.ite (State.campDone_kept _ _) (Kept.ite ?_ ?_)
    · exact ((((State.setNode_kept _ _ _).trans (State.modUpd_kept _ _)).trans (State.modUpd_kept _ _)).trans
        (State.writeProgress_kept _ _ _)).trans (State.campSend_kept _)
    · exact ((State.setNode_kept _ _ _).trans (State.modUpd_kept _ _)).trans (ih _ _)
theorem State.campStart_kept (s : State) (from_ : Nat) : Kept s (State.campStart s from_) := by
  unfold State.campStart
  try dsimp only
  refine Kept.trans ?_ (State.campNext_kept _ _ _)
  refine Kept.trans ?_ (State.setUpd_kept _ _)
  refine Kept.trans ?_ (Kept.fin (fun _ _ => ?_) _)
  · exact Kept.refl _
  · refine Kept.ite ?_ ?_
    · exact Kept.refl _
    · exact (State.setNode_kept _ _ _)
theorem State.campFail_kept (s : State) : Kept s (State.campFail s) := by
  unfold State.campFail
  try dsimp only
  split
  · exact Kept.refl _
  · refine Kept.trans ?_ (State.campDone_kept _ _)
    exact (State.setNode_kept _ _ _)
theorem State.campLinkDone_kept (s : State) : Kept s (State.campLinkDone s) := by
  unfold State.campLinkDone
  try dsimp only
  split
  · exact Kept.refl _
  · refine Kept.trans ?_ (State.campNext_kept _ _ _)
    exact (State.setNode_kept _ _ _)
theorem State.campGo_kept (s : State) (p : CampPhase) (offset : Nat) : Kept s (State.campGo s p offset) := by
  unfold State.campGo
  refine Kept.trans ?_ (State.campSend_kept _)
  exact (State.modUpd_kept _ _)
theorem State.campData_kept (s : State) (offset : Nat) : Kept s (State.campData s offset) := by
  unfold State.campData
  refine Kept.ite ?_ ?_
  · exact (State.campGo_kept _ _ _)
  · exact (State.campGo_kept _ _ _)
theorem State.campResponse_kept (s : State) : Kept s (State.campResponse s) := by
  unfold State.campResponse
  try dsimp only
  split
  · try dsimp only
    refine Kept.ite ?_ ?_
    · exact (State.modUpd_kept _ _)
    · try dsimp only
      try dsimp only
      split
      · refine Kept.ite ?_ ?_
        · refine Kept.trans ?_ (State.campData_kept _ _)
          refine Kept.trans ?_ (State.modUpd_kept _ _)
          exact (State.modUpd_kept _ _)
        · refine Kept.trans ?_ (State.campFail_kept _)
          refine Kept.trans ?_ (State.modUpd_kept _ _)
          exact (State.modUpd_kept _ _)
      · refine Kept.ite ?_ ?_
        · refine Kept.trans ?_ (State.campGo_kept _ _ _)
          refine Kept.trans ?_ (State.modUpd_kept _ _)
          exact (State.modUpd_kept _ _)
        · refine Kept.ite ?_ ?_
          · refine Kept.trans ?_ (State.campData_kept _ _)
            refine Kept.trans ?_ (State.modUpd_kept _ _)
            refine Kept.trans ?_ (State.modUpd_kept _ _)
            exact (State.modUpd_kept _ _)
          · refine Kept.trans ?_ (State.campFail_kept _)
            refine Kept.trans ?_ (State.modUpd_kept _ _)
            exact (State.modUpd_kept _ _)
      · refine Kept.ite ?_ ?_
        · refine Kept.trans ?_ (State.modUpd_kept _ _)
          refine Kept.trans ?_ (State.modUpd_kept _ _)
          exact (State.modUpd_kept _ _)
        · refine Kept.trans ?_ (State.campFail_kept _)
          refine Kept.trans ?_ (State.modUpd_kept _ _)
          exact (State.modUpd_kept _ _)
      · refine Kept.trans ?_ (State.modUpd_kept _ _)
        exact (State.modUpd_kept _ _)
  · exact (State.modUpd_kept _ _)
theorem State.campStep_kept (s : State) : Kept s (State.campStep s) := by
  unfold State.campStep
  try dsimp only
  split
  · exact Kept.refl _
  · refine Kept.ite ?_ ?_
    · exact Kept.refl _
    · try dsimp only
      refine Kept.ite ?_ ?_
      · refine Kept.trans ?_ (State.campResponse_kept _)
        refine Kept.ite ?_ ?_
        · refine Kept.ite ?_ ?_
          · refine Kept.trans ?_ (State.campSend_kept _)
            refine Kept.trans ?_ (State.modUpd_kept _ _)
            exact (State.modUpd_kept _ _)
          · refine Kept.trans ?_ (State.campFail_kept _)
            exact (State.modUpd_kept _ _)
        · refine Kept.ite ?_ ?_
          · refine Kept.trans ?_ (State.campData_kept _ _)
            exact (State.modUpd_kept _ _)
          · exact (State.modUpd_kept _ _)
      · try dsimp only
        split
        · refine Kept.trans ?_ (State.campResponse_kept _)
          refine Kept.ite ?_ ?_
          · refine Kept.ite ?_ ?_
            · refine Kept.trans ?_ (State.campSend_kept _)
              refine Kept.trans ?_ (State.modUpd_kept _ _)
              exact (State.modUpd_kept _ _)
            · refine Kept.trans ?_ (State.campFail_kept _)
              exact (State.modUpd_kept _ _)
          · refine Kept.ite ?_ ?_
            · refine Kept.trans ?_ (State.campData_kept _ _)
              exact (State.modUpd_kept _ _)
            · exact (State.modUpd_kept _ _)
        · refine Kept.ite ?_ ?_
          · refine Kept.ite ?_ ?_
            · refine Kept.trans ?_ (State.campLinkDone_kept _)
              refine Kept.trans ?_ (State.campResponse_kept _)
              refine Kept.ite ?_ ?_
              · refine Kept.ite ?_ ?_
                · refine Kept.trans ?_ (State.campSend_kept _)
                  refine Kept.trans ?_ (State.modUpd_kept _ _)
                  exact (State.modUpd_kept _ _)
                · refine Kept.trans ?_ (State.campFail_kept _)
                  exact (State.modUpd_kept _ _)
              · refine Kept.ite ?_ ?_
                · refine Kept.trans ?_ (State.campData_kept _ _)
                  exact (State.modUpd_kept _ _)
                · exact (State.modUpd_kept _ _)
            · refine Kept.trans ?_ (State.campResponse_kept _)
              refine Kept.ite ?_ ?_
              · refine Kept.ite ?_ ?_
                · refine Kept.trans ?_ (State.campSend_kept _)
                  refine Kept.trans ?_ (State.modUpd_kept _ _)
                  exact (State.modUpd_kept _ _)
                · refine Kept.trans ?_ (State.campFail_kept _)
                  exact (State.modUpd_kept _ _)
              · refine Kept.ite ?_ ?_
                · refine Kept.trans ?_ (State.campData_kept _ _)
                  exact (State.modUpd_kept _ _)
                · exact (State.modUpd_kept _ _)
          · refine Kept.trans ?_ (State.campNext_kept _ _ _)
            refine Kept.trans ?_ (State.campResponse_kept _)
            refine Kept.ite ?_ ?_
            · refine Kept.ite ?_ ?_
              · refine Kept.trans ?_ (State.campSend_kept _)
                refine Kept.trans ?_ (State.modUpd_kept _ _)
                exact (State.modUpd_kept _ _)
              · refine Kept.trans ?_ (State.campFail_kept _)
                exact (State.modUpd_kept _ _)
            · refine Kept.ite ?_ ?_
              · refine Kept.trans ?_ (State.campData_kept _ _)
                exact (State.modUpd_kept _ _)
              · exact (State.modUpd_kept _ _)
theorem State.campLink_kept (s0 s : State) : Kept s (State.campLink s0 s) := by
  unfold State.campLink
  split
  · exact Kept.refl s
  · exact (State.modUpd_kept _ _).trans (State.campStep_kept _)
theorem State.campGiveup_kept (s0 s : State) : Kept s (State.campGiveup s0 s) := by
  unfold State.campGiveup
  split
  · exact Kept.refl s
  · exact Kept.ite ((State.modUpd_kept _ _).trans (State.campStep_kept _)) (Kept.refl s)
theorem State.nodeRespTimeout_kept (s : State) : Kept s (State.nodeRespTimeout s) := by
  unfold State.nodeRespTimeout
  try dsimp only
  split
  · refine Kept.ite ?_ ?_
    · exact Kept.refl _
    · exact (State.campFail_kept _)
  · exact Kept.refl _
theorem State.nodeBootTimeout_kept (s : State) : Kept s (State.nodeBootTimeout s) := by
  unfold State.nodeBootTimeout
  try dsimp only
  split
  · refine Kept.ite ?_ ?_
    · exact (State.campFail_kept _)
    · exact Kept.refl _
  · exact Kept.refl _
theorem State.updActivate_kept (s : State) (c : Fin 256) : Kept s (State.updActivate s c) := by
  unfold State.updActivate
  refine Kept.ite ?_ ?_
  · exact (State.updFlag_kept _ _)
  · refine Kept.ite ?_ ?_
    · exact (State.updError_kept _ _ _ _)
    · try dsimp only
      refine Kept.ite ?_ ?_
      · refine Kept.ite ?_ ?_
        · refine Kept.trans ?_ (State.resetBy_kept _ _)
          refine Kept.trans ?_ (State.writeProgress_kept _ _ _)
          exact (State.writeBootRec_kept _ _)
        · refine Kept.trans ?_ (State.resetBy_kept _ _)
          refine Kept.trans ?_ (State.writeProgress_kept _ _ _)
          exact (State.writeBootRec_kept _ _)
      · refine Kept.ite ?_ ?_
        · try dsimp only
          refine Kept.ite ?_ ?_
          · refine Kept.trans ?_ (State.resetBy_kept _ _)
            refine Kept.trans ?_ (State.writeProgress_kept _ _ _)
            exact (State.modUpd_kept _ _)
          · refine Kept.trans ?_ (State.modUpd_kept _ _)
            refine Kept.trans ?_ (State.setUpd_kept _ _)
            refine Kept.trans ?_ (State.writeProgress_kept _ _ _)
            exact (State.modUpd_kept _ _)
        · exact (State.campStart_kept _ _)
theorem State.updConfirmed_kept (s : State) : Kept s (State.updConfirmed s) := by
  unfold State.updConfirmed
  try dsimp only
  refine Kept.trans ?_ (State.modUpd_kept _ _)
  refine Kept.trans ?_ (State.setUpd_kept _ _)
  refine Kept.trans ?_ (State.postConfirm_kept _ _ _ _)
  refine Kept.trans ?_ (State.updFlag_kept _ _)
  refine Kept.trans ?_ (State.writeProgress_kept _ _ _)
  refine Kept.trans ?_ (State.modUpd_kept _ _)
  refine Kept.ite ?_ ?_
  · exact (State.writeBootRec_kept _ _)
  · exact Kept.refl _
theorem State.updFallback_kept (s : State) : Kept s (State.updFallback s) := by
  unfold State.updFallback
  try dsimp only
  refine Kept.trans ?_ (State.resetBy_kept _ _)
  refine Kept.trans ?_ (State.postConfirm_kept _ _ _ _)
  exact (State.updFlag_kept _ _)
theorem State.updPeriod_kept (s : State) : Kept s (State.updPeriod s) := by
  unfold State.updPeriod
  try dsimp only
  refine Kept.ite ?_ ?_
  · refine Kept.trans ?_ (State.updConfirmed_kept _)
    refine Kept.trans ?_ (State.modUpd_kept _ _)
    exact (State.modFlt_kept _ _)
  · refine Kept.trans ?_ (State.modUpd_kept _ _)
    exact (State.modFlt_kept _ _)
theorem State.rollCall_kept (s : State) (answer : Option Bool) : Kept s (State.rollCall s answer) := by
  unfold State.rollCall
  try dsimp only
  refine Kept.ite ?_ ?_
  · refine Kept.trans ?_ (State.updPeriod_kept _)
    exact (State.rollCallSlot_kept _ _)
  · exact (State.rollCallSlot_kept _ _)
theorem State.watchLasting_kept (s : State) {f : State → State} (h : ∀ s, Kept s (f s)) :
    Kept s (State.watchLasting s f) := by
  unfold State.watchLasting
  dsimp only
  have k : ∀ g e, Kept s ((f (s.modUpd g)).modUpd e) := fun g e =>
    ((State.modUpd_kept s g).trans (h _)).trans (State.modUpd_kept _ e)
  exact Kept.ite ((k _ _).trans (State.updFallback_kept _)) (k _ _)
theorem State.updTimeout_kept (s : State) : Kept s (State.updTimeout s) := by
  unfold State.updTimeout
  refine Kept.ite ?_ ?_
  · exact (State.updFallback_kept _)
  · exact Kept.refl _
theorem State.openWindow__kept (s : State) : Kept s (State.openWindow_ s) := by
  unfold State.openWindow_
  refine Kept.trans ?_ (State.setUpd_kept _ _)
  exact (State.modUpd_kept _ _)
theorem State.loadProgress_kept (s : State) : KeptQ s (State.loadProgress s) := by
  unfold State.loadProgress
  try dsimp only
  try dsimp only
  split
  · refine KeptQ.mk ?_
    exact (State.rsRead_kept _ _ _)
  · try dsimp only
    refine KeptQ.mk ?_
    refine Kept.trans ?_ (State.modUpd_kept _ _)
    exact (State.rsRead_kept _ _ _)
theorem State.startCfgTrial_kept (s : State) (st : Nat) : Kept s (State.startCfgTrial s st) := by
  unfold State.startCfgTrial
  try dsimp only
  try dsimp only
  split
  · exact Kept.refl _
  · try dsimp only
    refine Kept.ite ?_ ?_
    · try dsimp only
      refine Kept.trans ?_ (State.openWindow__kept _)
      refine Kept.trans ?_ (State.writeProgress_kept _ _ _)
      exact (State.modUpd_kept _ _)
    · refine Kept.ite ?_ ?_
      · exact Kept.refl _
      · try dsimp only
        refine Kept.trans ?_ (State.postConfirm_kept _ _ _ _)
        refine Kept.trans ?_ (State.updFlag_kept _ _)
        refine Kept.trans ?_ (State.writeProgress_kept _ _ _)
        exact (State.modUpd_kept _ _)
  · try dsimp only
    refine Kept.ite ?_ ?_
    · refine Kept.trans ?_ (State.resetBy_kept _ _)
      refine Kept.trans ?_ (State.writeProgress_kept _ _ _)
      refine Kept.trans ?_ (State.modUpd_kept _ _)
      exact (State.flashErase_kept _ _ _)
    · refine Kept.trans ?_ (State.writeProgress_kept _ _ _)
      refine Kept.trans ?_ (State.modUpd_kept _ _)
      exact (State.flashErase_kept _ _ _)
theorem State.updStart_kept (s : State) : Kept s (State.updStart s) := by
  unfold State.updStart
  refine Kept.ite ?_ ?_
  · exact Kept.refl _
  · try dsimp only
    refine Kept.ite ?_ ?_
    · refine Kept.trans ?_ (State.campStart_kept _ _)
      refine Kept.ite ?_ ?_
      · refine Kept.ite ?_ ?_
        · refine Kept.trans ?_ (State.setUpd_kept _ _)
          refine KeptQ.trans ?_ (State.loadProgress_kept _)
          exact (State.modUpd_kept _ _)
        · refine Kept.ite ?_ ?_
          · refine Kept.trans ?_ (State.setUpd_kept _ _)
            refine KeptQ.trans ?_ (State.loadProgress_kept _)
            exact (State.modUpd_kept _ _)
          · refine Kept.ite ?_ ?_
            · refine Kept.ite ?_ ?_
              · refine Kept.trans ?_ (State.openWindow__kept _)
                refine KeptQ.trans ?_ (State.loadProgress_kept _)
                exact (State.modUpd_kept _ _)
              · try dsimp only
                refine Kept.ite ?_ ?_
                · refine Kept.trans ?_ (State.postConfirm_kept _ _ _ _)
                  refine Kept.trans ?_ (State.updFlag_kept _ _)
                  refine Kept.trans ?_ (State.setUpd_kept _ _)
                  refine Kept.trans ?_ (State.writeProgress_kept _ _ _)
                  refine KeptQ.trans ?_ (State.loadProgress_kept _)
                  exact (State.modUpd_kept _ _)
                · refine Kept.trans ?_ (State.setUpd_kept _ _)
                  refine Kept.trans ?_ (State.writeProgress_kept _ _ _)
                  refine KeptQ.trans ?_ (State.loadProgress_kept _)
                  exact (State.modUpd_kept _ _)
            · refine KeptQ.trans ?_ (State.loadProgress_kept _)
              exact (State.modUpd_kept _ _)
      · refine Kept.trans ?_ (State.startCfgTrial_kept _ _)
        refine Kept.ite ?_ ?_
        · refine Kept.trans ?_ (State.setUpd_kept _ _)
          refine KeptQ.trans ?_ (State.loadProgress_kept _)
          exact (State.modUpd_kept _ _)
        · refine Kept.ite ?_ ?_
          · refine Kept.trans ?_ (State.setUpd_kept _ _)
            refine KeptQ.trans ?_ (State.loadProgress_kept _)
            exact (State.modUpd_kept _ _)
          · refine Kept.ite ?_ ?_
            · refine Kept.ite ?_ ?_
              · refine Kept.trans ?_ (State.openWindow__kept _)
                refine KeptQ.trans ?_ (State.loadProgress_kept _)
                exact (State.modUpd_kept _ _)
              · try dsimp only
                refine Kept.ite ?_ ?_
                · refine Kept.trans ?_ (State.postConfirm_kept _ _ _ _)
                  refine Kept.trans ?_ (State.updFlag_kept _ _)
                  refine Kept.trans ?_ (State.setUpd_kept _ _)
                  refine Kept.trans ?_ (State.writeProgress_kept _ _ _)
                  refine KeptQ.trans ?_ (State.loadProgress_kept _)
                  exact (State.modUpd_kept _ _)
                · refine Kept.trans ?_ (State.setUpd_kept _ _)
                  refine Kept.trans ?_ (State.writeProgress_kept _ _ _)
                  refine KeptQ.trans ?_ (State.loadProgress_kept _)
                  exact (State.modUpd_kept _ _)
            · refine KeptQ.trans ?_ (State.loadProgress_kept _)
              exact (State.modUpd_kept _ _)
    · refine Kept.ite ?_ ?_
      · refine Kept.ite ?_ ?_
        · refine Kept.trans ?_ (State.setUpd_kept _ _)
          refine KeptQ.trans ?_ (State.loadProgress_kept _)
          exact (State.modUpd_kept _ _)
        · refine Kept.ite ?_ ?_
          · refine Kept.trans ?_ (State.setUpd_kept _ _)
            refine KeptQ.trans ?_ (State.loadProgress_kept _)
            exact (State.modUpd_kept _ _)
          · refine Kept.ite ?_ ?_
            · refine Kept.ite ?_ ?_
              · refine Kept.trans ?_ (State.openWindow__kept _)
                refine KeptQ.trans ?_ (State.loadProgress_kept _)
                exact (State.modUpd_kept _ _)
              · try dsimp only
                refine Kept.ite ?_ ?_
                · refine Kept.trans ?_ (State.postConfirm_kept _ _ _ _)
                  refine Kept.trans ?_ (State.updFlag_kept _ _)
                  refine Kept.trans ?_ (State.setUpd_kept _ _)
                  refine Kept.trans ?_ (State.writeProgress_kept _ _ _)
                  refine KeptQ.trans ?_ (State.loadProgress_kept _)
                  exact (State.modUpd_kept _ _)
                · refine Kept.trans ?_ (State.setUpd_kept _ _)
                  refine Kept.trans ?_ (State.writeProgress_kept _ _ _)
                  refine KeptQ.trans ?_ (State.loadProgress_kept _)
                  exact (State.modUpd_kept _ _)
            · refine KeptQ.trans ?_ (State.loadProgress_kept _)
              exact (State.modUpd_kept _ _)
      · refine Kept.trans ?_ (State.startCfgTrial_kept _ _)
        refine Kept.ite ?_ ?_
        · refine Kept.trans ?_ (State.setUpd_kept _ _)
          refine KeptQ.trans ?_ (State.loadProgress_kept _)
          exact (State.modUpd_kept _ _)
        · refine Kept.ite ?_ ?_
          · refine Kept.trans ?_ (State.setUpd_kept _ _)
            refine KeptQ.trans ?_ (State.loadProgress_kept _)
            exact (State.modUpd_kept _ _)
          · refine Kept.ite ?_ ?_
            · refine Kept.ite ?_ ?_
              · refine Kept.trans ?_ (State.openWindow__kept _)
                refine KeptQ.trans ?_ (State.loadProgress_kept _)
                exact (State.modUpd_kept _ _)
              · try dsimp only
                refine Kept.ite ?_ ?_
                · refine Kept.trans ?_ (State.postConfirm_kept _ _ _ _)
                  refine Kept.trans ?_ (State.updFlag_kept _ _)
                  refine Kept.trans ?_ (State.setUpd_kept _ _)
                  refine Kept.trans ?_ (State.writeProgress_kept _ _ _)
                  refine KeptQ.trans ?_ (State.loadProgress_kept _)
                  exact (State.modUpd_kept _ _)
                · refine Kept.trans ?_ (State.setUpd_kept _ _)
                  refine Kept.trans ?_ (State.writeProgress_kept _ _ _)
                  refine KeptQ.trans ?_ (State.loadProgress_kept _)
                  exact (State.modUpd_kept _ _)
            · refine KeptQ.trans ?_ (State.loadProgress_kept _)
              exact (State.modUpd_kept _ _)
theorem State.updRun_kept (s : State) (c : Fin 256) (op : Nat) (n : Nat) : Kept s (State.updRun s c op n) := by
  unfold State.updRun
  try dsimp only
  split
  · exact (State.updBegin_kept _ _)
  · exact (State.updBlock_kept _ _ _)
  · exact (State.updEnd_kept _ _)
  · exact (State.updActivate_kept _ _)
  · exact (State.updAbort_kept _ _)
theorem State.updCmd_kept (s : State) (c : Fin 256) (op : Nat) (n : Nat) : Kept s (State.updCmd s c op n) := by
  unfold State.updCmd
  refine Kept.ite ?_ ?_
  · exact (State.modUpd_kept _ _)
  · exact (State.updRun_kept _ _ _ _)
theorem State.updResume_kept (s : State) : Kept s (State.updResume s) := by
  unfold State.updResume
  refine Kept.ite ?_ ?_
  · exact Kept.refl _
  · refine Kept.ite ?_ ?_
    · exact (State.updFallback_kept _)
    · refine Kept.trans ?_ (State.campStep_kept _)
      refine Kept.trans ?_ (Kept.foldl (fun _ _ => ?_) _ _)
      · exact (State.modUpd_kept _ _)
      · exact (State.updRun_kept _ _ _ _)
theorem State.updParkExit_kept (s : State) : Kept s (State.updParkExit s) := by
  unfold State.updParkExit
  try dsimp only
  try dsimp only
  split
  · refine Kept.trans ?_ (State.setUpd_kept _ _)
    exact (State.modUpd_kept _ _)
  · refine Kept.trans ?_ (State.setUpd_kept _ _)
    exact (State.modUpd_kept _ _)
  · refine Kept.trans ?_ (State.setUpd_kept _ _)
    exact (State.modUpd_kept _ _)
  · refine Kept.trans ?_ (State.campStart_kept _ _)
    exact (State.modUpd_kept _ _)
  · exact (State.modUpd_kept _ _)
theorem State.svcFlag_kept (s : State) (b : BitVec 4) : Kept s (State.svcFlag s b) := by
  unfold State.svcFlag
  refine Kept.trans ?_ (State.hwSet_kept _ _ _)
  exact (State.modSvc_kept _ _)
theorem State.svcCntRead_kept (s : State) : KeptP s (State.svcCntRead s) := by
  unfold State.svcCntRead
  refine KeptP.mk ?_
  exact (State.modSvc_kept _ _)
theorem State.updRead_kept (s : State) (a : Nat) : KeptOP s (State.updRead s a) := by
  unfold State.updRead
  try dsimp only
  try dsimp only
  split
  · refine KeptOP.mk ?_
    refine KeptP.mk ?_
    exact Kept.refl _
  · refine KeptOP.mk ?_
    refine KeptP.mk ?_
    exact Kept.refl _
  · refine KeptOP.mk ?_
    refine KeptP.mk ?_
    exact Kept.refl _
  · refine KeptOP.mk ?_
    refine KeptP.mk ?_
    exact Kept.refl _
  · refine KeptOP.mk ?_
    refine KeptP.mk ?_
    exact Kept.refl _
  · refine KeptOP.mk ?_
    refine KeptP.mk ?_
    exact Kept.refl _
  · refine KeptOP.mk ?_
    refine KeptP.mk ?_
    exact Kept.refl _
  · refine KeptOP.mk ?_
    refine KeptP.mk ?_
    exact Kept.refl _
  · refine KeptOP.mk ?_
    refine KeptP.mk ?_
    exact Kept.refl _
  · refine KeptOP.mk ?_
    refine KeptP.mk ?_
    exact Kept.refl _
  · refine KeptOP.mk ?_
    refine KeptP.mk ?_
    exact Kept.refl _
  · refine KeptOP.mk ?_
    refine KeptP.mk ?_
    exact Kept.refl _
  · refine KeptOP.mk ?_
    refine KeptP.mk ?_
    exact Kept.refl _
  · refine KeptOP.mk ?_
    exact (State.svcCntRead_kept _)
  · refine KeptOP.mk ?_
    refine KeptP.mk ?_
    exact Kept.refl _
  · refine KeptOP.mk ?_
    refine KeptP.mk ?_
    exact Kept.refl _
  · refine KeptOP.mk ?_
    refine KeptP.mk ?_
    exact Kept.refl _
  · refine KeptOP.mk ?_
    refine KeptP.mk ?_
    exact Kept.refl _
  · exact KeptOP.none _
theorem State.writeUpdCmd_kept (s : State) (c : Fin 256) (w : Word) : Kept s (State.writeUpdCmd s c w) := by
  unfold State.writeUpdCmd
  try dsimp only
  split
  · exact (State.updCmd_kept _ _ _ _)
  · exact (State.updCmd_kept _ _ _ _)
  · exact (State.updCmd_kept _ _ _ _)
  · exact (State.updCmd_kept _ _ _ _)
  · exact (State.updCmd_kept _ _ _ _)
  · exact (State.updConfirm_kept _)
  · refine Kept.ite ?_ ?_
    · exact Kept.refl _
    · exact (State.updFlag_kept _ _)
theorem State.updWrite_kept (s : State) (c : Fin 256) (a : Nat) (w : Word) : KeptO s (State.updWrite s c a w) := by
  unfold State.updWrite
  try dsimp only
  split
  · refine KeptO.mk ?_
    refine Kept.ite ?_ ?_
    · exact (State.updFlag_kept _ _)
    · refine Kept.ite ?_ ?_
      · exact Kept.refl _
      · exact (State.modUpd_kept _ _)
  · refine KeptO.mk ?_
    exact (State.writeUpdCmd_kept _ _ _)
  · refine KeptO.mk ?_
    exact (State.updData_kept _ _ _)
  · refine KeptO.mk ?_
    exact (State.modUpd_kept _ _)
  · refine KeptO.mk ?_
    exact (State.modUpd_kept _ _)
  · refine KeptO.mk ?_
    exact (State.modSvc_kept _ _)
  · refine KeptO.mk ?_
    exact (State.modSvc_kept _ _)
  · refine KeptO.mk ?_
    exact Kept.refl _
  · refine KeptO.mk ?_
    exact Kept.refl _
  · refine KeptO.mk ?_
    exact Kept.refl _
  · refine KeptO.mk ?_
    exact Kept.refl _
  · refine KeptO.mk ?_
    exact Kept.refl _
  · refine KeptO.mk ?_
    exact Kept.refl _
  · refine KeptO.mk ?_
    exact Kept.refl _
  · refine KeptO.mk ?_
    exact Kept.refl _
  · refine KeptO.mk ?_
    exact Kept.refl _
  · refine KeptO.mk ?_
    exact Kept.refl _
  · refine KeptO.mk ?_
    exact Kept.refl _
  · exact KeptO.none _

/-! ## Regs -/

theorem State.releaseGrove_kept (s : State) (g : Fin 8) : Kept s (State.releaseGrove s g) := by
  unfold State.releaseGrove
  exact (State.groveTickWith_kept _ _ _ _ _)
theorem State.glbRead_kept (s : State) (a : Nat) : KeptOP s (State.glbRead s a) := by
  unfold State.glbRead
  try dsimp only
  try dsimp only
  split
  · refine KeptOP.mk ?_
    refine KeptP.mk ?_
    exact Kept.refl _
  · refine KeptOP.mk ?_
    refine KeptP.mk ?_
    exact Kept.refl _
  · refine KeptOP.mk ?_
    refine KeptP.mk ?_
    exact Kept.refl _
  · refine KeptOP.mk ?_
    refine KeptP.mk ?_
    exact Kept.refl _
  · refine KeptOP.mk ?_
    refine KeptP.mk ?_
    exact Kept.refl _
  · refine KeptOP.mk ?_
    refine KeptP.mk ?_
    exact Kept.refl _
  · refine KeptOP.mk ?_
    refine KeptP.mk ?_
    exact Kept.refl _
  · refine KeptOP.mk ?_
    refine KeptP.mk ?_
    exact Kept.refl _
  · refine KeptOP.mk ?_
    refine KeptP.mk ?_
    exact Kept.refl _
  · refine KeptOP.mk ?_
    exact (State.readTb_kept _ _)
  · refine KeptOP.mk ?_
    exact (State.readTb_kept _ _)
  · refine KeptOP.mk ?_
    refine KeptP.mk ?_
    exact Kept.refl _
  · refine KeptOP.mk ?_
    refine KeptP.mk ?_
    exact Kept.refl _
  · refine KeptOP.mk ?_
    refine KeptP.mk ?_
    exact Kept.refl _
  · refine KeptOP.mk ?_
    refine KeptP.mk ?_
    exact Kept.refl _
  · exact KeptOP.none _
theorem State.grvRead_kept (s : State) (g : Fin 8) (o : Nat) : KeptOP s (State.grvRead s g o) := by
  unfold State.grvRead
  try dsimp only
  try dsimp only
  split
  · refine KeptOP.mk ?_
    refine KeptP.mk ?_
    exact Kept.refl _
  · refine KeptOP.mk ?_
    refine KeptP.mk ?_
    exact Kept.refl _
  · refine KeptOP.mk ?_
    refine KeptP.mk ?_
    exact Kept.refl _
  · refine KeptOP.mk ?_
    refine KeptP.mk ?_
    exact Kept.refl _
  · refine KeptOP.mk ?_
    refine KeptP.mk ?_
    exact Kept.refl _
  · refine KeptOP.mk ?_
    refine KeptP.mk ?_
    exact Kept.refl _
  · refine KeptOP.mk ?_
    refine KeptP.mk ?_
    exact Kept.refl _
  · refine KeptOP.mk ?_
    refine KeptP.mk ?_
    exact Kept.refl _
  · exact KeptOP.none _
theorem State.grvCmd_kept (s : State) (g : Fin 8) (w : Word) : Kept s (State.grvCmd s g w) := by
  unfold State.grvCmd
  refine Kept.ite ?_ ?_
  · exact (State.groveStop_kept _ _)
  · refine Kept.ite ?_ ?_
    · exact (State.groveStart_kept _ _)
    · exact Kept.refl _
theorem State.setSw_kept (s : State) (n : Fin 64) : Kept s (State.setSw s n) := by
  unfold State.setSw
  exact (State.setCause_kept _ _ _)
theorem State.grvClrcmd_kept (s : State) (g : Fin 8) (w : Word) : Kept s (State.grvClrcmd s g w) := by
  unfold State.grvClrcmd
  try dsimp only
  refine Kept.ite ?_ ?_
  · refine Kept.trans ?_ (Kept.foldl (fun _ _ => ?_) _ _)
    · refine Kept.ite ?_ ?_
      · refine Kept.trans ?_ (Kept.foldl (fun _ _ => ?_) _ _)
        · refine Kept.ite ?_ ?_
          · exact (State.releaseTrip_kept _ _)
          · exact Kept.refl _
        · exact (State.releaseSw_kept _ _)
      · refine Kept.ite ?_ ?_
        · exact (State.releaseTrip_kept _ _)
        · exact Kept.refl _
    · exact (State.setSw_kept _ _)
  · refine Kept.ite ?_ ?_
    · refine Kept.trans ?_ (Kept.foldl (fun _ _ => ?_) _ _)
      · refine Kept.ite ?_ ?_
        · exact (State.releaseTrip_kept _ _)
        · exact Kept.refl _
      · exact (State.releaseSw_kept _ _)
    · refine Kept.ite ?_ ?_
      · exact (State.releaseTrip_kept _ _)
      · exact Kept.refl _
theorem State.grvWrite_kept (s : State) (g : Fin 8) (o : Nat) (w : Word) : KeptO s (State.grvWrite s g o w) := by
  unfold State.grvWrite
  try dsimp only
  split
  · refine KeptO.mk ?_
    exact (State.writePsc_kept _ _ _)
  · refine KeptO.mk ?_
    exact (State.grvCmd_kept _ _ _)
  · refine KeptO.mk ?_
    exact (State.modGrove_kept _ _ _)
  · refine KeptO.mk ?_
    exact (State.modGrove_kept _ _ _)
  · refine KeptO.mk ?_
    refine Kept.ite ?_ ?_
    · exact (State.armGrove_kept _ _)
    · exact Kept.refl _
  · refine KeptO.mk ?_
    exact (State.grvClrcmd_kept _ _ _)
  · refine KeptO.mk ?_
    refine Kept.ite ?_ ?_
    · exact (State.rdmGo_kept _ _)
    · exact Kept.refl _
  · refine KeptO.mk ?_
    exact (State.modGrove_kept _ _ _)
  · exact KeptO.none _
theorem State.chRead_kept (s : State) (n : Fin 64) (o : Nat) : KeptOP s (State.chRead s n o) := by
  unfold State.chRead
  try dsimp only
  refine KeptOP.ite ?_ ?_
  · try dsimp only
    refine KeptOP.mk ?_
    refine KeptP.mk ?_
    exact Kept.refl _
  · try dsimp only
    split
    · refine KeptOP.mk ?_
      refine KeptP.mk ?_
      exact Kept.refl _
    · refine KeptOP.mk ?_
      refine KeptP.mk ?_
      exact Kept.refl _
    · refine KeptOP.mk ?_
      refine KeptP.mk ?_
      exact Kept.refl _
    · refine KeptOP.mk ?_
      refine KeptP.mk ?_
      exact Kept.refl _
    · refine KeptOP.mk ?_
      refine KeptP.mk ?_
      exact Kept.refl _
    · refine KeptOP.mk ?_
      refine KeptP.mk ?_
      exact Kept.refl _
    · refine KeptOP.mk ?_
      refine KeptP.mk ?_
      exact Kept.refl _
    · refine KeptOP.mk ?_
      refine KeptP.mk ?_
      exact Kept.refl _
    · refine KeptOP.mk ?_
      exact (State.readCnt_kept _ _ _)
    · refine KeptOP.mk ?_
      exact (State.readCnt_kept _ _ _)
    · refine KeptOP.mk ?_
      refine KeptP.mk ?_
      exact Kept.refl _
    · refine KeptOP.mk ?_
      refine KeptP.mk ?_
      exact Kept.refl _
    · refine KeptOP.mk ?_
      exact (State.readCapLo_kept _ _)
    · refine KeptOP.mk ?_
      refine KeptP.mk ?_
      exact Kept.refl _
    · refine KeptOP.mk ?_
      refine KeptP.mk ?_
      exact Kept.refl _
    · refine KeptOP.mk ?_
      refine KeptP.mk ?_
      exact Kept.refl _
    · refine KeptOP.mk ?_
      refine KeptP.mk ?_
      exact Kept.refl _
    · refine KeptOP.mk ?_
      refine KeptP.mk ?_
      exact Kept.refl _
    · refine KeptOP.mk ?_
      refine KeptP.mk ?_
      exact Kept.refl _
    · refine KeptOP.mk ?_
      refine KeptP.mk ?_
      exact Kept.refl _
    · refine KeptOP.mk ?_
      refine KeptP.mk ?_
      exact Kept.refl _
    · refine KeptOP.mk ?_
      refine KeptP.mk ?_
      exact Kept.refl _
    · refine KeptOP.mk ?_
      refine KeptP.mk ?_
      exact Kept.refl _
    · refine KeptOP.mk ?_
      refine KeptP.mk ?_
      exact Kept.refl _
    · exact KeptOP.none _
theorem State.ovrClr_kept (s : State) (n : Fin 64) : Kept s (State.ovrClr s n) := by
  unfold State.ovrClr
  exact (State.modChan_kept _ _ _)
theorem State.chCmd_kept (s : State) (n : Fin 64) (w : Word) : Kept s (State.chCmd s n w) := by
  unfold State.chCmd
  try dsimp only
  refine Kept.ite ?_ ?_
  · refine Kept.trans ?_ (State.stopChan_kept _ _)
    refine Kept.ite ?_ ?_
    · refine Kept.trans ?_ (State.swCapture_kept _ _)
      refine Kept.ite ?_ ?_
      · exact (State.ovrClr_kept _ _)
      · exact Kept.refl _
    · refine Kept.ite ?_ ?_
      · exact (State.ovrClr_kept _ _)
      · exact Kept.refl _
  · refine Kept.ite ?_ ?_
    · refine Kept.trans ?_ (State.chanGo_kept _ _)
      refine Kept.ite ?_ ?_
      · refine Kept.trans ?_ (State.swCapture_kept _ _)
        refine Kept.ite ?_ ?_
        · exact (State.ovrClr_kept _ _)
        · exact Kept.refl _
      · refine Kept.ite ?_ ?_
        · exact (State.ovrClr_kept _ _)
        · exact Kept.refl _
    · refine Kept.ite ?_ ?_
      · refine Kept.trans ?_ (State.swCapture_kept _ _)
        refine Kept.ite ?_ ?_
        · exact (State.ovrClr_kept _ _)
        · exact Kept.refl _
      · refine Kept.ite ?_ ?_
        · exact (State.ovrClr_kept _ _)
        · exact Kept.refl _
theorem State.chOcmd_kept (s : State) (n : Fin 64) (w : Word) : Kept s (State.chOcmd s n w) := by
  unfold State.chOcmd
  try dsimp only
  refine Kept.ite ?_ ?_
  · refine Kept.trans ?_ (State.setSw_kept _ _)
    refine Kept.ite ?_ ?_
    · refine Kept.trans ?_ (State.releaseSw_kept _ _)
      refine Kept.ite ?_ ?_
      · refine Kept.trans ?_ (State.releaseSync_kept _ _)
        refine Kept.ite ?_ ?_
        · exact (State.flushCmd_kept _ _)
        · exact Kept.refl _
      · refine Kept.ite ?_ ?_
        · exact (State.flushCmd_kept _ _)
        · exact Kept.refl _
    · refine Kept.ite ?_ ?_
      · refine Kept.trans ?_ (State.releaseSync_kept _ _)
        refine Kept.ite ?_ ?_
        · exact (State.flushCmd_kept _ _)
        · exact Kept.refl _
      · refine Kept.ite ?_ ?_
        · exact (State.flushCmd_kept _ _)
        · exact Kept.refl _
  · refine Kept.ite ?_ ?_
    · refine Kept.trans ?_ (State.releaseSw_kept _ _)
      refine Kept.ite ?_ ?_
      · refine Kept.trans ?_ (State.releaseSync_kept _ _)
        refine Kept.ite ?_ ?_
        · exact (State.flushCmd_kept _ _)
        · exact Kept.refl _
      · refine Kept.ite ?_ ?_
        · exact (State.flushCmd_kept _ _)
        · exact Kept.refl _
    · refine Kept.ite ?_ ?_
      · refine Kept.trans ?_ (State.releaseSync_kept _ _)
        refine Kept.ite ?_ ?_
        · exact (State.flushCmd_kept _ _)
        · exact Kept.refl _
      · refine Kept.ite ?_ ?_
        · exact (State.flushCmd_kept _ _)
        · exact Kept.refl _
theorem State.eqArg_kept (s : State) (n : Fin 64) (p : Path) (w : Word) : Kept s (State.eqArg s n p w) := by
  unfold State.eqArg
  exact (State.modOut_kept _ _ _)
theorem State.eqPush_kept (s : State) (n : Fin 64) (p : Path) (w : Word) : Kept s (State.eqPush s n p w) := by
  unfold State.eqPush
  exact (State.pushEdge_kept _ _ _ _)
theorem State.eqShd_kept (s : State) (n : Fin 64) (p : Path) (w : Word) : Kept s (State.eqShd s n p w) := by
  unfold State.eqShd
  exact (State.loadShadow_kept _ _ _ _)
theorem State.chWrite_kept (s : State) (p : Path) (n : Fin 64) (o : Nat) (w : Word) : KeptO s (State.chWrite s p n o w) := by
  unfold State.chWrite
  refine KeptO.ite ?_ ?_
  · try dsimp only
    refine KeptO.mk ?_
    refine Kept.ite ?_ ?_
    · exact (State.writeMatLo_kept _ _ _ _)
    · exact (State.writeMatHi_kept _ _ _ _)
  · try dsimp only
    split
    · refine KeptO.mk ?_
      exact (State.writeCtl_kept _ _ _)
    · refine KeptO.mk ?_
      exact (State.modChan_kept _ _ _)
    · refine KeptO.mk ?_
      exact (State.modChan_kept _ _ _)
    · refine KeptO.mk ?_
      exact (State.modChan_kept _ _ _)
    · refine KeptO.mk ?_
      exact (State.chCmd_kept _ _ _)
    · refine KeptO.mk ?_
      exact (State.writeCapcfg_kept _ _ _)
    · refine KeptO.mk ?_
      exact (State.modCnt_kept _ _ _)
    · refine KeptO.mk ?_
      exact (State.writeCnt_kept _ _ _ _)
    · refine KeptO.mk ?_
      exact (State.writeCnt_kept _ _ _ _)
    · refine KeptO.mk ?_
      exact (State.writeReloadLo_kept _ _ _)
    · refine KeptO.mk ?_
      exact (State.writeReloadHi_kept _ _ _)
    · refine KeptO.mk ?_
      exact (State.writeOcfg_kept _ _ _)
    · refine KeptO.mk ?_
      refine Kept.trans ?_ (State.lasting_kept _ _)
      exact (State.modOut_kept _ _ _)
    · refine KeptO.mk ?_
      exact (State.chOcmd_kept _ _ _)
    · refine KeptO.mk ?_
      exact (State.eqArg_kept _ _ _ _)
    · refine KeptO.mk ?_
      exact (State.eqPush_kept _ _ _ _)
    · refine KeptO.mk ?_
      exact (State.eqShd_kept _ _ _ _)
    · refine KeptO.mk ?_
      exact (State.writePair_kept _ _ _)
    · refine KeptO.mk ?_
      exact (State.modOut_kept _ _ _)
    · refine KeptO.mk ?_
      refine Kept.trans ?_ (State.settleLkdup_kept _)
      exact (State.modOut_kept _ _ _)
    · refine KeptO.map fun _ => ?_
      exact Kept.refl _
theorem State.adRead_kept (s : State) (d : Fin 3) (o : Nat) : KeptOP s (State.adRead s d o) := by
  unfold State.adRead
  try dsimp only
  refine KeptOP.ite ?_ ?_
  · refine KeptOP.mk ?_
    refine KeptP.mk ?_
    exact Kept.refl _
  · refine KeptOP.ite ?_ ?_
    · refine KeptOP.mk ?_
      refine KeptP.mk ?_
      exact Kept.refl _
    · try dsimp only
      split
      · refine KeptOP.mk ?_
        refine KeptP.mk ?_
        exact Kept.refl _
      · refine KeptOP.mk ?_
        refine KeptP.mk ?_
        exact Kept.refl _
      · refine KeptOP.mk ?_
        refine KeptP.mk ?_
        exact Kept.refl _
      · refine KeptOP.mk ?_
        refine KeptP.mk ?_
        exact Kept.refl _
      · refine KeptOP.mk ?_
        refine KeptP.mk ?_
        exact Kept.refl _
      · refine KeptOP.mk ?_
        refine KeptP.mk ?_
        exact Kept.refl _
      · refine KeptOP.mk ?_
        refine KeptP.mk ?_
        exact Kept.refl _
      · refine KeptOP.mk ?_
        refine KeptP.mk ?_
        exact Kept.refl _
      · refine KeptOP.mk ?_
        refine KeptP.mk ?_
        exact Kept.refl _
      · refine KeptOP.mk ?_
        refine KeptP.mk ?_
        exact Kept.refl _
      · refine KeptOP.mk ?_
        refine KeptP.mk ?_
        exact Kept.refl _
      · refine KeptOP.mk ?_
        refine KeptP.mk ?_
        exact Kept.refl _
      · refine KeptOP.mk ?_
        refine KeptP.mk ?_
        exact Kept.refl _
      · refine KeptOP.mk ?_
        refine KeptP.mk ?_
        exact Kept.refl _
      · refine KeptOP.mk ?_
        refine KeptP.mk ?_
        exact Kept.refl _
      · refine KeptOP.mk ?_
        refine KeptP.mk ?_
        exact Kept.refl _
      · refine KeptOP.mk ?_
        refine KeptP.mk ?_
        exact Kept.refl _
      · refine KeptOP.mk ?_
        refine KeptP.mk ?_
        exact Kept.refl _
      · refine KeptOP.mk ?_
        refine KeptP.mk ?_
        exact Kept.refl _
      · refine KeptOP.mk ?_
        refine KeptP.mk ?_
        exact Kept.refl _
      · exact KeptOP.none _
theorem State.adWheel_kept (s : State) (d : Fin 3) (old : Word) (new : Word) (put : AngleDom → AngleDom) : Kept s (State.adWheel s d old new put) := by
  unfold State.adWheel
  refine Kept.ite ?_ ?_
  · exact Kept.refl _
  · refine Kept.ite ?_ ?_
    · refine Kept.ite ?_ ?_
      · exact Kept.refl _
      · exact (State.raiseAd_kept _ _ _)
    · exact (State.modAd_kept _ _ _)
theorem State.adCmd_kept (s : State) (d : Fin 3) (w : Word) : Kept s (State.adCmd s d w) := by
  unfold State.adCmd
  refine Kept.ite ?_ ?_
  · exact (State.adLose_kept _ _)
  · refine Kept.ite ?_ ?_
    · exact (State.adDrop_kept _ _)
    · exact Kept.refl _
theorem State.adWrite_kept (s : State) (d : Fin 3) (o : Nat) (w : Word) : KeptO s (State.adWrite s d o w) := by
  unfold State.adWrite
  try dsimp only
  refine KeptO.ite ?_ ?_
  · refine KeptO.mk ?_
    exact (State.writeTrig_kept _ _ _ _)
  · refine KeptO.ite ?_ ?_
    · try dsimp only
      refine KeptO.mk ?_
      exact (State.adWheel_kept _ _ _ _ _)
    · try dsimp only
      split
      · refine KeptO.mk ?_
        exact (State.writeAdCtl_kept _ _ _)
      · refine KeptO.mk ?_
        exact (State.adWheel_kept _ _ _ _ _)
      · refine KeptO.mk ?_
        exact (State.adWheel_kept _ _ _ _ _)
      · refine KeptO.mk ?_
        exact (State.adWheel_kept _ _ _ _ _)
      · refine KeptO.mk ?_
        exact (State.adWheel_kept _ _ _ _ _)
      · refine KeptO.mk ?_
        exact (State.writeZero_kept _ _ _)
      · refine KeptO.mk ?_
        exact (State.adWheel_kept _ _ _ _ _)
      · refine KeptO.mk ?_
        exact (State.adWheel_kept _ _ _ _ _)
      · refine KeptO.mk ?_
        exact (State.modAd_kept _ _ _)
      · refine KeptO.mk ?_
        exact (State.modAd_kept _ _ _)
      · refine KeptO.mk ?_
        exact (State.modAd_kept _ _ _)
      · refine KeptO.mk ?_
        exact (State.adCmd_kept _ _ _)
      · refine KeptO.mk ?_
        exact (State.writeGov_kept _ _ _)
      · refine KeptO.mk ?_
        refine Kept.ite ?_ ?_
        · exact Kept.refl _
        · exact (State.modAd_kept _ _ _)
      · refine KeptO.mk ?_
        refine Kept.ite ?_ ?_
        · exact Kept.refl _
        · exact (State.modAd_kept _ _ _)
      · refine KeptO.map fun _ => ?_
        exact Kept.refl _
theorem State.plRead_kept (s : State) (i : Fin 2) (o : Nat) : KeptOP s (State.plRead s i o) := by
  unfold State.plRead
  try dsimp only
  try dsimp only
  split
  · refine KeptOP.mk ?_
    refine KeptP.mk ?_
    exact Kept.refl _
  · refine KeptOP.mk ?_
    refine KeptP.mk ?_
    exact Kept.refl _
  · refine KeptOP.mk ?_
    refine KeptP.mk ?_
    exact Kept.refl _
  · refine KeptOP.mk ?_
    refine KeptP.mk ?_
    exact Kept.refl _
  · refine KeptOP.mk ?_
    refine KeptP.mk ?_
    exact Kept.refl _
  · exact KeptOP.none _
theorem State.plWrite_kept (s : State) (i : Fin 2) (o : Nat) (w : Word) : KeptO s (State.plWrite s i o w) := by
  unfold State.plWrite
  try dsimp only
  split
  · refine KeptO.mk ?_
    exact (State.writePlCtl_kept _ _ _)
  · refine KeptO.mk ?_
    refine Kept.ite ?_ ?_
    · exact Kept.refl _
    · exact (State.modPl_kept _ _ _)
  · refine KeptO.mk ?_
    refine Kept.ite ?_ ?_
    · exact Kept.refl _
    · exact (State.modPl_kept _ _ _)
  · refine KeptO.mk ?_
    refine Kept.ite ?_ ?_
    · exact Kept.refl _
    · exact (State.modPl_kept _ _ _)
  · refine KeptO.mk ?_
    refine Kept.ite ?_ ?_
    · exact (State.clearTrip_kept _ _)
    · exact Kept.refl _
  · exact KeptO.none _
theorem State.ttLatRead_kept (s : State) : KeptP s (State.ttLatRead s) := by
  unfold State.ttLatRead
  refine KeptP.mk ?_
  refine Kept.trans ?_ (State.modTt_kept _ _ fun _ => rfl)
  exact Kept.refl _
theorem State.ttRead_kept (s : State) (a : Nat) : KeptOP s (State.ttRead s a) := by
  unfold State.ttRead
  try dsimp only
  try dsimp only
  split
  · refine KeptOP.mk ?_
    refine KeptP.mk ?_
    exact Kept.refl _
  · refine KeptOP.mk ?_
    refine KeptP.mk ?_
    exact Kept.refl _
  · refine KeptOP.mk ?_
    refine KeptP.mk ?_
    exact Kept.refl _
  · refine KeptOP.mk ?_
    refine KeptP.mk ?_
    exact Kept.refl _
  · refine KeptOP.mk ?_
    refine KeptP.mk ?_
    exact Kept.refl _
  · refine KeptOP.mk ?_
    refine KeptP.mk ?_
    exact Kept.refl _
  · refine KeptOP.mk ?_
    refine KeptP.mk ?_
    exact Kept.refl _
  · refine KeptOP.mk ?_
    exact (State.ttLatRead_kept _)
  · refine KeptOP.mk ?_
    refine KeptP.mk ?_
    exact Kept.refl _
  · exact KeptOP.none _
theorem State.ttWrite_kept (s : State) (a : Nat) (w : Word) : KeptO s (State.ttWrite s a w) := by
  unfold State.ttWrite
  try dsimp only
  split
  · refine KeptO.mk ?_
    refine Kept.trans ?_ (State.modTt_kept _ _ fun _ => rfl)
    exact Kept.refl _
  · refine KeptO.mk ?_
    refine Kept.trans ?_ (State.modTt_kept _ _ fun _ => rfl)
    exact Kept.refl _
  · refine KeptO.map fun _ => ?_
    exact Kept.refl _
theorem State.meRead_kept (s : State) (a : Nat) : KeptOP s (State.meRead s a) := by
  unfold State.meRead
  try dsimp only
  refine KeptOP.ite ?_ ?_
  · refine KeptOP.mk ?_
    refine KeptP.mk ?_
    exact Kept.refl _
  · try dsimp only
    split
    · refine KeptOP.mk ?_
      refine KeptP.mk ?_
      exact Kept.refl _
    · refine KeptOP.mk ?_
      refine KeptP.mk ?_
      exact Kept.refl _
    · refine KeptOP.mk ?_
      refine KeptP.mk ?_
      exact Kept.refl _
    · refine KeptOP.mk ?_
      refine KeptP.mk ?_
      exact Kept.refl _
    · refine KeptOP.mk ?_
      refine KeptP.mk ?_
      exact Kept.refl _
    · refine KeptOP.mk ?_
      refine KeptP.mk ?_
      exact Kept.refl _
    · refine KeptOP.mk ?_
      refine KeptP.mk ?_
      exact Kept.refl _
    · refine KeptOP.mk ?_
      refine KeptP.mk ?_
      exact Kept.refl _
    · refine KeptOP.mk ?_
      refine KeptP.mk ?_
      exact Kept.refl _
    · refine KeptOP.mk ?_
      refine KeptP.mk ?_
      exact Kept.refl _
    · exact KeptOP.none _
theorem State.meWrite_kept (s : State) (a : Nat) (w : Word) : KeptO s (State.meWrite s a w) := by
  unfold State.meWrite
  refine KeptO.ite ?_ ?_
  · refine KeptO.mk ?_
    exact (State.writeG_kept _ _ _)
  · try dsimp only
    split
    · refine KeptO.mk ?_
      exact (State.writeMeCtl_kept _ _)
    · refine KeptO.mk ?_
      exact (State.writeSpill_kept _ _)
    · refine KeptO.mk ?_
      refine Kept.ite ?_ ?_
      · exact Kept.refl _
      · exact (State.modMe_kept _ _)
    · refine KeptO.mk ?_
      exact (State.modMe_kept _ _)
    · refine KeptO.map fun _ => ?_
      exact Kept.refl _
theorem State.calWrite_kept (s : State) (c : Fin 256) (a : Nat) (w : Word) : Kept s (State.calWrite s c a w) := by
  unfold State.calWrite
  try dsimp only
  refine Kept.ite ?_ ?_
  · exact (State.writeCalWord_kept _ _ _ _)
  · refine Kept.ite ?_ ?_
    · exact (State.hostInsert_kept _ _ _ _)
    · exact (State.hostCancel_kept _ _ _)
theorem State.hpCntRead_kept (s : State) (i : Fin 3) : KeptP s (State.hpCntRead s i) := by
  unfold State.hpCntRead
  try dsimp only
  try dsimp only
  split
  · refine KeptP.mk ?_
    exact (State.modHp_kept _ _)
  · refine KeptP.mk ?_
    exact (State.modHp_kept _ _)
  · refine KeptP.mk ?_
    exact (State.modHp_kept _ _)
theorem State.hpRegRead_kept (s : State) (a : Nat) : KeptOP s (State.hpRegRead s a) := by
  unfold State.hpRegRead
  try dsimp only
  try dsimp only
  split
  · refine KeptOP.mk ?_
    refine KeptP.mk ?_
    exact Kept.refl _
  · refine KeptOP.mk ?_
    refine KeptP.mk ?_
    exact Kept.refl _
  · refine KeptOP.mk ?_
    refine KeptP.mk ?_
    exact Kept.refl _
  · refine KeptOP.mk ?_
    refine KeptP.mk ?_
    exact Kept.refl _
  · refine KeptOP.mk ?_
    exact (State.hpCntRead_kept _ _)
  · refine KeptOP.mk ?_
    exact (State.hpCntRead_kept _ _)
  · refine KeptOP.mk ?_
    exact (State.hpCntRead_kept _ _)
  · exact KeptOP.none _
theorem State.hpRegWrite_kept (s : State) (a : Nat) (w : Word) : KeptO s (State.hpRegWrite s a w) := by
  unfold State.hpRegWrite
  try dsimp only
  split
  · refine KeptO.mk ?_
    refine Kept.ite ?_ ?_
    · exact Kept.refl _
    · exact (State.modHp_kept _ _)
  · refine KeptO.mk ?_
    exact (State.modHp_kept _ _)
  · refine KeptO.map fun _ => ?_
    exact Kept.refl _
theorem State.scRead_kept (s : State) (a : Nat) : KeptOP s (State.scRead s a) := by
  unfold State.scRead
  try dsimp only
  refine KeptOP.ite ?_ ?_
  · refine KeptOP.mk ?_
    refine KeptP.mk ?_
    exact Kept.refl _
  · try dsimp only
    split
    · refine KeptOP.mk ?_
      refine KeptP.mk ?_
      exact Kept.refl _
    · refine KeptOP.mk ?_
      refine KeptP.mk ?_
      exact Kept.refl _
    · refine KeptOP.mk ?_
      refine KeptP.mk ?_
      exact Kept.refl _
    · refine KeptOP.mk ?_
      refine KeptP.mk ?_
      exact Kept.refl _
    · refine KeptOP.mk ?_
      refine KeptP.mk ?_
      exact Kept.refl _
    · refine KeptOP.mk ?_
      refine KeptP.mk ?_
      exact Kept.refl _
    · exact KeptOP.none _
theorem State.scWrite_kept (s : State) (p : Path) (c : Fin 256) (a : Nat) (w : Word) : KeptO s (State.scWrite s p c a w) := by
  unfold State.scWrite
  refine KeptO.ite ?_ ?_
  · refine KeptO.mk ?_
    exact (State.recordWrite_kept _ _ _ _ _ _)
  · try dsimp only
    split
    · refine KeptO.mk ?_
      exact (State.scCmd_kept _ _)
    · refine KeptO.mk ?_
      refine Kept.trans ?_ (State.modSc_kept _ _ fun _ => rfl)
      exact Kept.refl _
    · refine KeptO.map fun _ => ?_
      exact Kept.refl _
theorem State.winRead_kept (s : State) (a : Nat) : KeptOP s (State.winRead s a) := by
  unfold State.winRead
  try dsimp only
  try dsimp only
  split
  · refine KeptOP.mk ?_
    exact (State.evPop_kept _ _)
  · refine KeptOP.mk ?_
    refine KeptP.mk ?_
    exact Kept.refl _
  · refine KeptOP.mk ?_
    exact (State.bufAlloc_kept _ _)
  · refine KeptOP.mk ?_
    refine KeptP.mk ?_
    exact Kept.refl _
  · exact KeptOP.none _
theorem State.winWrite_kept (s : State) (c : Fin 256) (a : Nat) (w : Word) : KeptO s (State.winWrite s c a w) := by
  unfold State.winWrite
  try dsimp only
  split
  · refine KeptO.mk ?_
    exact (State.bufCmd_kept _ _ _)
  · refine KeptO.mk ?_
    exact Kept.refl _
  · refine KeptO.mk ?_
    exact Kept.refl _
  · refine KeptO.mk ?_
    exact Kept.refl _
  · exact KeptO.none _
theorem State.regRead_kept (s : State) (a : Nat) : KeptOP s (State.regRead s a) := by
  unfold State.regRead
  refine KeptOP.ite ?_ ?_
  · exact KeptOP.none _
  · refine KeptOP.ite ?_ ?_
    · exact (State.glbRead_kept _ _)
    · refine KeptOP.ite ?_ ?_
      · exact (State.pwrRead_kept _ _)
      · refine KeptOP.ite ?_ ?_
        · exact (State.intcRead_kept _ _)
        · refine KeptOP.ite ?_ ?_
          · exact (State.grvRead_kept _ _ _)
          · refine KeptOP.ite ?_ ?_
            · exact KeptOP.none _
            · refine KeptOP.ite ?_ ?_
              · exact (State.chRead_kept _ _ _)
              · refine KeptOP.ite ?_ ?_
                · exact (State.adRead_kept _ _ _)
                · refine KeptOP.ite ?_ ?_
                  · exact (State.plRead_kept _ _ _)
                  · refine KeptOP.ite ?_ ?_
                    · exact KeptOP.none _
                    · refine KeptOP.ite ?_ ?_
                      · exact (State.ttRead_kept _ _)
                      · refine KeptOP.ite ?_ ?_
                        · exact (State.meRead_kept _ _)
                        · refine KeptOP.ite ?_ ?_
                          · exact (State.psRead_kept _ _ _)
                          · refine KeptOP.ite ?_ ?_
                            · refine KeptOP.mk ?_
                              refine KeptP.mk ?_
                              exact Kept.refl _
                            · refine KeptOP.ite ?_ ?_
                              · exact KeptOP.none _
                              · refine KeptOP.ite ?_ ?_
                                · refine KeptOP.mk ?_
                                  refine KeptP.mk ?_
                                  exact Kept.refl _
                                · refine KeptOP.ite ?_ ?_
                                  · exact KeptOP.none _
                                  · refine KeptOP.ite ?_ ?_
                                    · exact (State.afeRead_kept _ _)
                                    · refine KeptOP.ite ?_ ?_
                                      · exact (State.memRegRead_kept _ _)
                                      · refine KeptOP.ite ?_ ?_
                                        · exact (State.dmaRegRead_kept _ _)
                                        · refine KeptOP.ite ?_ ?_
                                          · exact (State.hpRegRead_kept _ _)
                                          · refine KeptOP.ite ?_ ?_
                                            · exact (State.smbRead_kept _ _ _)
                                            · refine KeptOP.ite ?_ ?_
                                              · exact (State.packRead_kept _ _)
                                              · refine KeptOP.ite ?_ ?_
                                                · exact (State.mspRead_kept _ _ _)
                                                · refine KeptOP.ite ?_ ?_
                                                  · exact KeptOP.none _
                                                  · refine KeptOP.ite ?_ ?_
                                                    · exact (State.hlRead_kept _ _ _)
                                                    · refine KeptOP.ite ?_ ?_
                                                      · exact (State.tsiRead_kept _ _)
                                                      · refine KeptOP.ite ?_ ?_
                                                        · exact (State.pmRead_kept _ _)
                                                        · refine KeptOP.ite ?_ ?_
                                                          · exact (State.rsRegRead_kept _ _)
                                                          · refine KeptOP.ite ?_ ?_
                                                            · exact (State.updRead_kept _ _)
                                                            · refine KeptOP.ite ?_ ?_
                                                              · exact (State.fltRead_kept _ _)
                                                              · refine KeptOP.ite ?_ ?_
                                                                · exact KeptOP.none _
                                                                · refine KeptOP.ite ?_ ?_
                                                                  · exact (State.scRead_kept _ _)
                                                                  · refine KeptOP.ite ?_ ?_
                                                                    · exact (State.winRead_kept _ _)
                                                                    · refine KeptOP.ite ?_ ?_
                                                                      · exact KeptOP.none _
                                                                      · refine KeptOP.ite ?_ ?_
                                                                        · refine KeptOP.mk ?_
                                                                          refine KeptP.mk ?_
                                                                          exact Kept.refl _
                                                                        · refine KeptOP.ite ?_ ?_
                                                                          · exact KeptOP.none _
                                                                          · refine KeptOP.ite ?_ ?_
                                                                            · exact (State.tsiRead_kept _ _)
                                                                            · exact KeptOP.none _
theorem State.blockWrite_kept (s : State) (p : Path) (c : Fin 256) (a : Nat) (w : Word) : KeptO s (State.blockWrite s p c a w) := by
  unfold State.blockWrite
  refine KeptO.ite ?_ ?_
  · exact (State.pwrWrite_kept _ _ _)
  · refine KeptO.ite ?_ ?_
    · exact (State.intcWrite_kept _ _ _)
    · refine KeptO.ite ?_ ?_
      · exact (State.grvWrite_kept _ _ _ _)
      · refine KeptO.ite ?_ ?_
        · exact KeptO.none _
        · refine KeptO.ite ?_ ?_
          · exact (State.chWrite_kept _ _ _ _ _)
          · refine KeptO.ite ?_ ?_
            · exact (State.adWrite_kept _ _ _ _)
            · refine KeptO.ite ?_ ?_
              · exact (State.plWrite_kept _ _ _ _)
              · refine KeptO.ite ?_ ?_
                · exact KeptO.none _
                · refine KeptO.ite ?_ ?_
                  · exact (State.ttWrite_kept _ _ _)
                  · refine KeptO.ite ?_ ?_
                    · exact (State.meWrite_kept _ _ _)
                    · refine KeptO.ite ?_ ?_
                      · exact (State.psWrite_kept _ _ _ _ _)
                      · refine KeptO.ite ?_ ?_
                        · refine KeptO.map fun _ => ?_
                          exact Kept.refl _
                        · refine KeptO.ite ?_ ?_
                          · exact (State.afeWrite_kept _ _ _ _)
                          · refine KeptO.ite ?_ ?_
                            · exact (State.memRegWrite_kept _ _ _)
                            · refine KeptO.ite ?_ ?_
                              · exact (State.dmaRegWrite_kept _ _ _ _)
                              · refine KeptO.ite ?_ ?_
                                · exact (State.hpRegWrite_kept _ _ _)
                                · refine KeptO.ite ?_ ?_
                                  · exact (State.smbWrite_kept _ _ _ _ _)
                                  · refine KeptO.ite ?_ ?_
                                    · exact (State.packWrite_kept _ _ _)
                                    · refine KeptO.ite ?_ ?_
                                      · exact (State.mspWrite_kept _ _ _ _)
                                      · refine KeptO.ite ?_ ?_
                                        · exact KeptO.none _
                                        · refine KeptO.ite ?_ ?_
                                          · exact (State.hlWrite_kept _ _ _ _)
                                          · refine KeptO.ite ?_ ?_
                                            · exact (State.tsiWrite_kept _ _ _ _)
                                            · refine KeptO.ite ?_ ?_
                                              · exact (State.pmWrite_kept _ _ _)
                                              · refine KeptO.ite ?_ ?_
                                                · exact (State.rsRegWrite_kept _ _ _)
                                                · refine KeptO.ite ?_ ?_
                                                  · exact (State.updWrite_kept _ _ _ _)
                                                  · refine KeptO.ite ?_ ?_
                                                    · exact (State.fltWrite_kept _ _ _)
                                                    · refine KeptO.ite ?_ ?_
                                                      · exact KeptO.none _
                                                      · refine KeptO.ite ?_ ?_
                                                        · exact (State.scWrite_kept _ _ _ _ _)
                                                        · refine KeptO.ite ?_ ?_
                                                          · exact (State.winWrite_kept _ _ _ _)
                                                          · refine KeptO.ite ?_ ?_
                                                            · exact KeptO.none _
                                                            · refine KeptO.ite ?_ ?_
                                                              · refine KeptO.mk ?_
                                                                exact (State.calWrite_kept _ _ _ _)
                                                              · refine KeptO.ite ?_ ?_
                                                                · exact KeptO.none _
                                                                · refine KeptO.ite ?_ ?_
                                                                  · exact (State.tsiWrite_kept _ _ _ _)
                                                                  · exact KeptO.none _
theorem State.noteRwl_kept (s : State) (a : Nat) : Kept s (State.noteRwl s a) := by
  unfold State.noteRwl
  refine Kept.ite ?_ ?_
  · exact Kept.refl _
  · try dsimp only
    exact (State.modCyc_kept _ _)
theorem State.undoRwl_kept (s : State) : Kept s (State.undoRwl s) := by
  unfold State.undoRwl
  refine Kept.trans ?_ (Kept.foldl (fun _ _ => ?_) _ _)
  · exact Kept.refl _
  · try dsimp only
    refine Kept.getD ?_ ?_
    · exact (State.blockWrite_kept _ _ _ _ _)
    · exact Kept.refl _
theorem State.lockConfig_kept (s : State) : Kept s (State.lockConfig s) := by
  unfold State.lockConfig
  refine Kept.ite ?_ ?_
  · try dsimp only
    refine Kept.trans ?_ (Kept.fin (fun _ _ => ?_) _)
    · refine Kept.trans ?_ (State.modBoot_kept _ _)
      exact (State.undoRwl_kept _)
    · refine Kept.ite ?_ ?_
      · exact (State.releaseGrove_kept _ _)
      · exact Kept.refl _
  · exact Kept.refl _
theorem State.glbWrite_kept (s : State) (a : Nat) (w : Word) : KeptO s (State.glbWrite s a w) := by
  unfold State.glbWrite
  try dsimp only
  split
  · refine KeptO.mk ?_
    refine Kept.ite ?_ ?_
    · exact (State.lockConfig_kept _)
    · exact Kept.refl _
  · refine KeptO.mk ?_
    refine Kept.ite ?_ ?_
    · exact (State.tbSnap_kept _)
    · exact Kept.refl _
  · refine KeptO.mk ?_
    refine Kept.ite ?_ ?_
    · exact (State.modTbs_kept _ _)
    · exact Kept.refl _
  · refine KeptO.map fun _ => ?_
    exact Kept.refl _
theorem State.regWrite_kept (s : State) (p : Path) (c : Fin 256) (a : Nat) (w : Word) : KeptO s (State.regWrite s p c a w) := by
  unfold State.regWrite
  refine KeptO.ite ?_ ?_
  · exact KeptO.none _
  · refine KeptO.ite ?_ ?_
    · refine KeptO.map fun _ => ?_
      exact Kept.refl _
    · refine KeptO.ite ?_ ?_
      · exact (State.glbWrite_kept _ _ _)
      · exact (State.blockWrite_kept _ _ _ _ _)
theorem State.clientWrite_kept (s : State) (p : Path) (c : Fin 256) (a : Nat) (w : Word) : KeptO s (State.clientWrite s p c a w) := by
  unfold State.clientWrite
  refine KeptO.trans ?_ (State.regWrite_kept _ _ _ _ _)
  exact (State.noteRwl_kept _ _)
theorem State.answerReg_kept (s : State) (a : Nat) : Kept s (State.answerReg s a) := by
  unfold State.answerReg
  split
  · exact State.answered_kept _ (Kept.ofOP' (by assumption) (State.regRead_kept _ _))
  · exact Kept.refl s
theorem State.registerWrite_kept (s : State) (p : Path) (c : Fin 256) (a : Nat) (w : Word) : Kept s (State.registerWrite s p c a w) := by
  unfold State.registerWrite
  try dsimp only
  refine Kept.ite ?_ ?_
  · refine Kept.getD ?_ ?_
    · exact (State.clientWrite_kept _ _ _ _ _)
    · exact Kept.refl _
  · exact Kept.refl _

/-! ## Image -/

theorem State.updVerifyDone_kept (s : State) : Kept s (State.updVerifyDone s) := by
  unfold State.updVerifyDone
  refine Kept.ite ?_ ?_
  · exact Kept.refl _
  · refine Kept.ite ?_ ?_
    · exact (State.updError_kept _ _ _ _)
    · try dsimp only
      refine Kept.ite ?_ ?_
      · exact (State.updError_kept _ _ _ _)
      · refine Kept.trans ?_ (State.updFlag_kept _ _)
        exact (State.setUpd_kept _ _)

/-! ## Boot -/

theorem State.recordWriteAt_kept (s : State) (p : Nat × Word) : Kept s (State.recordWriteAt s p) := by
  unfold State.recordWriteAt
  refine Kept.getD ?_ ?_
  · exact (State.regWrite_kept _ _ _ _ _)
  · exact Kept.refl _
theorem State.applyWrites_kept (s : State) (ws : List (Nat × Word)) : Kept s (State.applyWrites s ws) := by
  unfold State.applyWrites
  refine Kept.trans ?_ (Kept.foldl (fun _ _ => ?_) _ _)
  · exact Kept.refl _
  · refine Kept.ite ?_ ?_
    · exact (State.recordWriteAt_kept _ _)
    · exact Kept.refl _
theorem State.reapply_kept (s : State) (pd5Kept : Bool) (pd6Kept : Bool) : Kept s (State.reapply s pd5Kept pd6Kept) := by
  unfold State.reapply
  try dsimp only
  refine Kept.ite ?_ ?_
  · refine Kept.trans ?_ (State.modBoot_kept _ _)
    refine Kept.trans ?_ (State.applyWrites_kept _ _)
    exact (State.modBoot_kept _ _)
  · refine Kept.trans ?_ (State.applyWrites_kept _ _)
    exact (State.modBoot_kept _ _)
theorem State.loadTemplates_kept (s : State) : Kept s (State.loadTemplates s) := by
  unfold State.loadTemplates
  refine Kept.trans ?_ (Kept.fin (fun _ _ => ?_) _)
  · exact Kept.refl _
  · try dsimp only
    try dsimp only
    split
    · exact (State.rsRead_kept _ _ _)
    · try dsimp only
      refine Kept.trans ?_ (State.modSig_kept _ _)
      exact (State.rsRead_kept _ _ _)
theorem State.firmwareStart_kept (s : State) : Kept s (State.firmwareStart s) := by
  unfold State.firmwareStart
  dsimp only
  refine Kept.trans ?_ (State.modFlt_kept _ _)
  refine Kept.trans ?_ (State.pmLoad_kept _ _ _ _)
  refine Kept.trans ?_ (State.rsRead_kept _ _ _)
  refine Kept.trans ?_ (State.rsRead_kept _ _ _)
  have h : ∀ (f : Option (List Byte)) (u : State), Kept u (match f with | some d => u.loadLog d | none => u) := by
    intro f u
    cases f with
    | none => exact Kept.refl u
    | some d => exact State.loadLog_kept _ _
  have key : ∀ (l : List Nat) (p : List (List Byte) × State), Kept p.2
      (l.foldl (fun (acc : List (List Byte) × State) i =>
        (match (acc.2.rsRead 0x10 (i + 1)).1 with
          | some d => byStart d acc.1
          | none => acc.1, (acc.2.rsRead 0x10 (i + 1)).2)) p).2 := by
    intro l
    induction l with
    | nil => exact fun p => Kept.refl _
    | cons i l ih =>
      intro p
      refine Kept.trans ?_ (ih _)
      exact State.rsRead_kept _ _ _
  have e : Kept s (s.rsRead 0x04 0).2 := State.rsRead_kept _ _ _
  exact (e.trans (h _ _)).trans (key _ ([], _))
theorem State.freshSecond_kept (s : State) : Kept s (State.freshSecond s) := by
  unfold State.freshSecond
  exact (State.modPm_kept _ _)
theorem State.loadSection_kept (s : State) (blk : Nat → List Byte) (x : Section) : Kept s (State.loadSection s blk x) := by
  unfold State.loadSection
  dsimp only
  split
  · exact State.modMe_kept _ _
  · exact ⟨rfl, fun h => h, fun h e => h e, id⟩
  · exact ⟨rfl, fun h => cellWf_writeList 0 _ _ _ h, fun h => h, id⟩
  · exact Kept.refl s
theorem State.stopLoader_kept (s : State) (st : BootState) : Kept s (State.stopLoader s st) := by
  unfold State.stopLoader
  try dsimp only
  refine Kept.ite ?_ ?_
  · refine Kept.trans ?_ (State.modSvc_kept _ _)
    exact (State.modBoot_kept _ _)
  · exact (State.modBoot_kept _ _)
theorem State.setSlotCode_kept (s : State) (slot : Bool) (code : Nat) : Kept s (State.setSlotCode s slot code) := by
  unfold State.setSlotCode
  exact (State.modBoot_kept _ _)
theorem State.setCopyCode_kept (s : State) (c : Bool) (code : Nat) : Kept s (State.setCopyCode s c code) := by
  unfold State.setCopyCode
  exact (State.modBoot_kept _ _)
theorem State.trySlot_kept (s : State) (slot : Bool) : KeptP s (State.trySlot s slot) := by
  unfold State.trySlot
  try dsimp only
  refine KeptP.mk ?_
  exact (State.setSlotCode_kept _ _ _)
theorem State.bootSlot_kept (s : State) (slot : Bool) (trial : Bool) : Kept s (State.bootSlot s slot trial) := by
  unfold State.bootSlot
  try dsimp only
  refine Kept.trans ?_ (State.modBoot_kept _ _)
  refine Kept.trans ?_ (Kept.foldl (fun _ _ => ?_) _ _)
  · exact (State.fillBanks_kept _)
  · exact (State.loadSection_kept _ _ _)
theorem State.chooseSlot_kept (s : State) (stuck : Bool) : KeptQ s (State.chooseSlot s stuck) := by
  unfold State.chooseSlot
  try dsimp only
  refine KeptQ.ite ?_ ?_
  · try dsimp only
    refine KeptQ.mk ?_
    refine Kept.trans ?_ (State.modBoot_kept _ _)
    refine Kept.ite ?_ ?_
    · exact (State.rsRead_kept _ _ _)
    · refine Kept.trans ?_ (State.writeBootRec_kept _ _)
      exact (State.rsRead_kept _ _ _)
  · try dsimp only
    split
    · refine KeptQ.mk ?_
      exact (State.rsRead_kept _ _ _)
    · refine KeptQ.ite ?_ ?_
      · refine KeptQ.mk ?_
        exact (State.rsRead_kept _ _ _)
      · refine KeptQ.mk ?_
        refine Kept.trans ?_ (State.writeBootRec_kept _ _)
        exact (State.rsRead_kept _ _ _)
theorem State.bootBundle_kept (s : State) (stuck : Bool) : KeptP s (State.bootBundle s stuck) := by
  unfold State.bootBundle
  try dsimp only
  refine KeptP.ite ?_ ?_
  · refine KeptP.mk ?_
    refine Kept.trans ?_ (State.bootSlot_kept _ _ _)
    refine KeptP.ite ?_ ?_
    · refine KeptP.mk ?_
      exact (State.chooseSlot_kept _ _)
    · refine KeptP.trans ?_ (State.trySlot_kept _ _)
      exact (State.chooseSlot_kept _ _)
  · try dsimp only
    refine KeptP.ite ?_ ?_
    · refine KeptP.mk ?_
      refine Kept.trans ?_ (State.modBoot_kept _ _)
      refine KeptP.ite ?_ ?_
      · refine KeptP.mk ?_
        exact (State.chooseSlot_kept _ _)
      · refine KeptP.trans ?_ (State.trySlot_kept _ _)
        exact (State.chooseSlot_kept _ _)
    · try dsimp only
      refine KeptP.ite ?_ ?_
      · refine KeptP.mk ?_
        refine Kept.trans ?_ (State.bootSlot_kept _ _ _)
        refine KeptP.trans ?_ (State.trySlot_kept _ _)
        refine Kept.trans ?_ (State.modBoot_kept _ _)
        refine KeptP.ite ?_ ?_
        · refine KeptP.mk ?_
          exact (State.chooseSlot_kept _ _)
        · refine KeptP.trans ?_ (State.trySlot_kept _ _)
          exact (State.chooseSlot_kept _ _)
      · refine KeptP.mk ?_
        refine KeptP.trans ?_ (State.trySlot_kept _ _)
        refine Kept.trans ?_ (State.modBoot_kept _ _)
        refine KeptP.ite ?_ ?_
        · refine KeptP.mk ?_
          exact (State.chooseSlot_kept _ _)
        · refine KeptP.trans ?_ (State.trySlot_kept _ _)
          exact (State.chooseSlot_kept _ _)
theorem State.chooseCopy_kept (s : State) : KeptP s (State.chooseCopy s) := by
  unfold State.chooseCopy
  try dsimp only
  refine KeptP.ite ?_ ?_
  · refine KeptP.mk ?_
    refine Kept.trans ?_ (State.setCopyCode_kept _ _ _)
    exact (State.setCopyCode_kept _ _ _)
  · try dsimp only
    refine KeptP.ite ?_ ?_
    · refine KeptP.mk ?_
      refine Kept.trans ?_ (State.setCopyCode_kept _ _ _)
      refine Kept.trans ?_ (State.setCopyCode_kept _ _ _)
      exact (State.setCopyCode_kept _ _ _)
    · try dsimp only
      refine KeptP.ite ?_ ?_
      · refine KeptP.mk ?_
        refine Kept.trans ?_ (State.modBoot_kept _ _)
        refine Kept.trans ?_ (State.setCopyCode_kept _ _ _)
        refine Kept.trans ?_ (State.setCopyCode_kept _ _ _)
        exact (State.setCopyCode_kept _ _ _)
      · try dsimp only
        refine KeptP.ite ?_ ?_
        · refine KeptP.mk ?_
          refine Kept.trans ?_ (State.setCopyCode_kept _ _ _)
          refine Kept.trans ?_ (State.modBoot_kept _ _)
          refine Kept.trans ?_ (State.setCopyCode_kept _ _ _)
          refine Kept.trans ?_ (State.setCopyCode_kept _ _ _)
          exact (State.setCopyCode_kept _ _ _)
        · refine KeptP.mk ?_
          refine Kept.trans ?_ (State.setCopyCode_kept _ _ _)
          refine Kept.trans ?_ (State.modBoot_kept _ _)
          refine Kept.trans ?_ (State.setCopyCode_kept _ _ _)
          refine Kept.trans ?_ (State.setCopyCode_kept _ _ _)
          exact (State.setCopyCode_kept _ _ _)
theorem State.applyCopy_kept (s : State) (c : Bool) (tApply : Word) : Kept s (State.applyCopy s c tApply) := by
  unfold State.applyCopy
  try dsimp only
  refine Kept.ite ?_ ?_
  · refine Kept.trans ?_ (State.applyWrites_kept _ _)
    refine Kept.trans ?_ (State.modBoot_kept _ _)
    refine Kept.trans ?_ (State.loadTemplates_kept _)
    exact (State.modPwr_kept _ _)
  · try dsimp only
    refine Kept.trans ?_ (State.packTrigger_kept _)
    refine Kept.trans ?_ (State.freshSecond_kept _)
    refine Kept.ite ?_ ?_
    · refine Kept.trans ?_ (State.settleMe_kept _)
      refine Kept.trans ?_ (State.modBoot_kept _ _)
      refine Kept.trans ?_ (State.applyWrites_kept _ _)
      refine Kept.trans ?_ (State.modBoot_kept _ _)
      refine Kept.trans ?_ (State.loadTemplates_kept _)
      exact (State.modPwr_kept _ _)
    · refine Kept.trans ?_ (State.lockConfig_kept _)
      refine Kept.trans ?_ (State.settleMe_kept _)
      refine Kept.trans ?_ (State.modBoot_kept _ _)
      refine Kept.trans ?_ (State.applyWrites_kept _ _)
      refine Kept.trans ?_ (State.modBoot_kept _ _)
      refine Kept.trans ?_ (State.loadTemplates_kept _)
      exact (State.modPwr_kept _ _)
theorem State.rstRise_kept (s : State) : Kept s (State.rstRise s) := by
  unfold State.rstRise
  exact (State.modPins_kept _ _)
theorem State.calibrated_kept (s : State) : Kept s (State.calibrated s) := by
  unfold State.calibrated
  try dsimp only
  refine Kept.trans ?_ (State.modAfe_kept _ _)
  refine Kept.trans ?_ (Kept.fin (fun _ _ => ?_) _)
  · exact (State.free_kept _)
  · try dsimp only
    refine Kept.trans ?_ (State.modAfe_kept _ _)
    exact (State.free_kept _)
theorem State.bootClock_kept (s : State) (tApply tLock : Word) : Kept s (State.bootClock s tApply tLock) := by
  unfold State.bootClock
  refine Kept.ite (Kept.refl _) ?_
  dsimp only
  have h : ∀ u n, Kept u { (State.calibrated u) with time := n } := fun u n =>
    (State.calibrated_kept u).trans (Kept.same rfl rfl rfl rfl rfl rfl)
  exact ((State.pllLocked_kept s).trans (State.modTbs_kept _ _)).trans (h _ _)
theorem State.chooseRead_kept (s : State) (lpb : List Byte) : Kept s (State.chooseRead s lpb) := by
  unfold State.chooseRead
  try dsimp only
  refine Kept.ite ?_ ?_
  · exact Kept.same rfl rfl rfl rfl rfl rfl
  · try dsimp only
    refine Kept.trans ?_ (State.modBoot_kept _ _)
    refine Kept.trans ?_ (Kept.same rfl rfl rfl rfl rfl rfl)
    exact Kept.same rfl rfl rfl rfl rfl rfl
theorem State.startSequence_kept (s : State) (tApply tLock : Word) (stuck : Bool) :
    Kept s (State.startSequence s tApply tLock stuck) := by
  unfold State.startSequence
  refine Kept.ite (Kept.refl _) ?_
  dsimp only
  have p := ((State.rstRise_kept s).trans (State.bootClock_kept s.rstRise tApply tLock)).trans (State.rsScan_kept _ [])
  revert p
  generalize (s.rstRise.bootClock tApply tLock).rsScan [] = v
  intro p
  refine p.trans ?_
  refine (State.modBoot_kept v fun b => { b with open_ := decide (v.otp.fleetHash = 0) }).trans ?_
  generalize (v.modBoot fun b => { b with open_ := decide (v.otp.fleetHash = 0) }) = u
  have x : ∀ f, Kept u { u with xf := f } := fun f => Kept.same rfl rfl rfl rfl rfl rfl
  refine Kept.ite (((x _).trans (State.modBoot_kept _ _)).trans (State.stopLoader_kept _ _)) ?_
  have b := KeptP.trans (State.chooseRead_kept u (u.flashRead 0 32)) (State.bootBundle_kept _ stuck)
  revert b
  generalize (u.chooseRead (u.flashRead 0 32)).bootBundle stuck = y
  intro b
  refine Kept.ite (Kept.trans b (State.stopLoader_kept _ _)) ?_
  have c := KeptP.trans b (State.chooseCopy_kept y.2)
  split
  · exact (Kept.trans c (State.stopLoader_kept _ _)).trans (State.firmwareStart_kept _)
  · exact Kept.ite ((Kept.trans c (State.applyCopy_kept _ _ _)).trans (State.firmwareStart_kept _))
      (Kept.trans c (State.applyCopy_kept _ _ _))
theorem State.lockDeadline_kept (s : State) : Kept s (State.lockDeadline s) := by
  unfold State.lockDeadline
  refine Kept.ite ?_ ?_
  · exact (State.lockConfig_kept _)
  · exact Kept.refl _
theorem State.coreBack_kept (s : State) : Kept s (State.coreBack s) := by
  unfold State.coreBack
  refine Kept.trans ?_ (State.modTbs_kept _ _)
  exact (State.modPwr_kept _ _)
theorem State.parkExit_kept (s : State) (ticks : Word) : Kept s (State.parkExit s ticks) := by
  unfold State.parkExit
  refine Kept.ite ?_ ?_
  · exact Kept.refl _
  · try dsimp only
    refine Kept.ite ?_ ?_
    · try dsimp only
      refine Kept.trans ?_ (State.settleMe_kept _)
      refine Kept.trans ?_ (State.freshSecond_kept _)
      refine Kept.trans ?_ (State.reapply_kept _ _ _)
      refine Kept.trans ?_ (State.modCanopy_kept _ _)
      refine Kept.ite ?_ ?_
      · exact (State.coreBack_kept _)
      · refine Kept.trans ?_ (State.loadTemplates_kept _)
        exact (State.coreBack_kept _)
    · refine Kept.trans ?_ (State.reapply_kept _ _ _)
      exact (State.coreBack_kept _)
theorem State.reapplyComplete_kept (s : State) : Kept s (State.reapplyComplete s) := by
  unfold State.reapplyComplete
  refine Kept.ite ?_ ?_
  · exact Kept.refl _
  · try dsimp only
    refine Kept.trans ?_ (State.postAll_kept _ _ _ _ _ _ _ _ _)
    refine Kept.trans ?_ (State.packTrigger_kept _)
    refine Kept.trans ?_ (State.updParkExit_kept _)
    refine Kept.trans ?_ (State.settleMe_kept _)
    refine Kept.trans ?_ (State.modPwr_kept _ _)
    refine Kept.trans ?_ (State.fltRefence_kept _)
    exact (State.supSteps_kept _)
theorem State.clockRecovery_kept (s : State) : Kept s (State.clockRecovery s) := by
  unfold State.clockRecovery
  refine Kept.ite ?_ ?_
  · exact Kept.refl _
  · try dsimp only
    refine Kept.trans ?_ (State.updResume_kept _)
    refine Kept.trans ?_ (State.fltBack_kept _ _)
    refine Kept.trans ?_ (State.settleMe_kept _)
    refine Kept.trans ?_ (State.modPwr_kept _ _)
    refine Kept.trans ?_ (State.fltRefence_kept _)
    refine Kept.trans ?_ (State.freshSecond_kept _)
    refine Kept.trans ?_ (State.modPins_kept _ _)
    refine Kept.trans ?_ (State.reapply_kept _ _ _)
    refine Kept.trans ?_ (State.testRecover_kept _)
    exact (State.coreBack_kept _)

end Sys2Proof.Machine
end

