-- ==== Sys2Proof/Laws/KeptCommands.lean ====
section
/-!
SUPPORT. Laws/KeptCommands.lean: what every operation keeps (Laws/KeptBase.lean): the engine, the host port, the service port and the meaning of every command.
-/
namespace Sys2Proof.Machine

/-! ## ExecPower -/

theorem execVioFall_kept (s : State) : KeptR s (execVioFall s) := by
  unfold execVioFall
  refine KeptR.mk ?_
  exact (State.vioFall_kept _)
theorem execVioRise_kept (s : State) : KeptR s (execVioRise s) := by
  unfold execVioRise
  refine KeptR.mk ?_
  exact (State.vioRise_kept _)
theorem execVddaFall_kept (s : State) : KeptR s (execVddaFall s) := by
  unfold execVddaFall
  refine KeptR.mk ?_
  exact (State.vddaFall_kept _)
theorem execCanopyPor_kept (s : State) : KeptR s (execCanopyPor s) := by
  unfold execCanopyPor
  refine KeptR.mk ?_
  exact (State.canopyPor_kept _)
theorem execPinReset_kept (also : Fin 9) (s : State) : KeptR s (execPinReset also s) := by
  unfold execPinReset
  refine KeptR.mk ?_
  exact (State.pinReset_kept _ _)
theorem execStartSequence_kept (tApply : Word) (tLock : Word) (stuck : Bool) (s : State) : KeptR s (execStartSequence tApply tLock stuck s) := by
  unfold execStartSequence
  refine KeptR.mk ?_
  exact (State.startSequence_kept _ _ _ _)
theorem execPllLocked_kept (s : State) : KeptR s (execPllLocked s) := by
  unfold execPllLocked
  refine KeptR.mk ?_
  exact (State.pllLocked_kept _)
theorem execPllLockTimeout_kept (s : State) : KeptR s (execPllLockTimeout s) := by
  unfold execPllLockTimeout
  refine KeptR.mk ?_
  exact (State.pllTimeout_kept _)
theorem execClkholdRetry_kept (s : State) : KeptR s (execClkholdRetry s) := by
  unfold execClkholdRetry
  refine KeptR.mk ?_
  exact (State.clkholdRetry_kept _)
theorem execGlbLockWrite_kept (client : Fin 256) (lock : Bool) (s : State) : KeptR s (execGlbLockWrite client lock s) := by
  unfold execGlbLockWrite
  refine KeptR.mk ?_
  refine Kept.ite ?_ ?_
  · exact (State.lockConfig_kept _)
  · exact Kept.refl _
theorem execLockDeadlineExpiry_kept (s : State) : KeptR s (execLockDeadlineExpiry s) := by
  unfold execLockDeadlineExpiry
  refine KeptR.mk ?_
  exact (State.lockDeadline_kept _)
theorem execPwrCmdPark_kept (key : BitVec 16) (s : State) : KeptR s (execPwrCmdPark key s) := by
  unfold execPwrCmdPark
  refine KeptR.mk ?_
  exact (State.pwrPark_kept _ _ _)
theorem execPwrCmdOff_kept (key : BitVec 16) (s : State) : KeptR s (execPwrCmdOff key s) := by
  unfold execPwrCmdOff
  refine KeptR.mk ?_
  exact (State.pwrPark_kept _ _ _)
theorem execPwrCmdReset_kept (key : BitVec 16) (also : Fin 9) (s : State) : KeptR s (execPwrCmdReset key also s) := by
  unfold execPwrCmdReset
  refine KeptR.mk ?_
  exact (State.pwrReset_kept _ _ _)
theorem execPwrCmdClkrec_kept (key : BitVec 16) (s : State) : KeptR s (execPwrCmdClkrec key s) := by
  unfold execPwrCmdClkrec
  refine KeptR.mk ?_
  exact (State.pwrClkrec_kept _ _)
theorem execParkEntryComplete_kept (s : State) : KeptR s (execParkEntryComplete s) := by
  unfold execParkEntryComplete
  refine KeptR.mk ?_
  exact (State.parkComplete_kept _)
theorem execWakeLatch_kept (src : BitVec 10) (s : State) : KeptR s (execWakeLatch src s) := by
  unfold execWakeLatch
  refine KeptR.mk ?_
  exact (State.wakeLatch_kept _ _)
theorem execParkExitPllLock_kept (ticks : Word) (s : State) : KeptR s (execParkExitPllLock ticks s) := by
  unfold execParkExitPllLock
  refine KeptR.mk ?_
  exact (State.parkExit_kept _ _)
theorem execReapplyComplete_kept (s : State) : KeptR s (execReapplyComplete s) := by
  unfold execReapplyComplete
  refine KeptR.mk ?_
  exact (State.reapplyComplete_kept _)
theorem execWakeFromOff_kept (s : State) : KeptR s (execWakeFromOff s) := by
  unfold execWakeFromOff
  refine KeptR.mk ?_
  exact (State.wakeFromOff_kept _)
theorem execParkWatchEdge_kept (k : Fin 4) (v : Nat) (s : State) : KeptR s (execParkWatchEdge k v s) := by
  unfold execParkWatchEdge
  refine KeptR.mk ?_
  exact (State.watchEdge_kept _ _ _)
theorem execParkWatchWindow_kept (s : State) : KeptR s (execParkWatchWindow s) := by
  unfold execParkWatchWindow
  refine KeptR.mk ?_
  exact (State.watchWindow_kept _)
theorem execRtcSecondTick_kept (s : State) : KeptR s (execRtcSecondTick s) := by
  unfold execRtcSecondTick
  refine KeptR.mk ?_
  exact (State.rtcTick_kept _)
theorem execRtcSecWrite_kept (w : Word) (s : State) : KeptR s (execRtcSecWrite w s) := by
  unfold execRtcSecWrite
  refine KeptR.mk ?_
  exact (State.rtcSecWrite_kept _ _)
theorem execTamperEvent_kept (n : Fin 2) (s : State) : KeptR s (execTamperEvent n s) := by
  unfold execTamperEvent
  refine KeptR.mk ?_
  exact (State.tamperEvent_kept _ _)
theorem execClockFault_kept (sub : Fin 32768) (s : State) : KeptR s (execClockFault sub s) := by
  unfold execClockFault
  refine KeptR.mk ?_
  exact (State.clockFault_kept _ _)
theorem execClockRecovery_kept (s : State) : KeptR s (execClockRecovery s) := by
  unfold execClockRecovery
  refine KeptR.mk ?_
  exact (State.clockRecovery_kept _)
theorem execLseFail_kept (s : State) : KeptR s (execLseFail s) := by
  unfold execLseFail
  refine KeptR.mk ?_
  exact (State.lseFail_kept _)
theorem execLseRecover_kept (s : State) : KeptR s (execLseRecover s) := by
  unfold execLseRecover
  refine KeptR.mk ?_
  exact (State.lseRecover_kept _)

/-! ## Operands -/

theorem State.modCur_kept (s : State) (f : Frame → Frame) : Kept s (State.modCur s f) := by
  unfold State.modCur
  exact (State.modMe_kept _ _)
theorem State.setReg_kept (s : State) (r : Fin 16) (v : Word) : Kept s (State.setReg s r v) := by
  unfold State.setReg
  split
  · exact (State.modMe_kept _ _)
  · exact (State.modCur_kept _ _)
theorem State.setFlags_kept (s : State) (f : Flags) : Kept s (State.setFlags s f) := by
  unfold State.setFlags
  exact (State.modCur_kept _ _)
theorem State.jump_kept (s : State) (t : BitVec 13) : Kept s (State.jump s t) := by
  unfold State.jump
  exact (State.modCur_kept _ _)
theorem State.pcNext_kept (s : State) : Kept s (State.pcNext s) := by
  unfold State.pcNext
  exact (State.modCur_kept _ _)

/-! ## Engine -/

theorem State.meFetch_kept (s : State) : KeptP s (State.meFetch s) := by
  unfold State.meFetch
  try dsimp only
  try dsimp only
  split
  · refine KeptP.mk ?_
    exact Kept.refl _
  · refine KeptP.mk ?_
    exact (State.modMe_kept _ _)
  · refine KeptP.mk ?_
    exact (State.meFence_kept _ _)
  · try dsimp only
    try dsimp only
    split
    · refine KeptP.mk ?_
      refine Kept.trans ?_ (State.meFence_kept _ _)
      exact (State.free_kept _)
    · refine KeptP.mk ?_
      refine Kept.trans ?_ (State.modMe_kept _ _)
      refine Kept.trans ?_ (State.modMe_kept _ _)
      exact (State.free_kept _)
    · refine KeptP.mk ?_
      refine Kept.trans ?_ (State.modMe_kept _ _)
      exact (State.free_kept _)
theorem State.endDispatch_kept (s : State) : Kept s (State.endDispatch s) := by
  unfold State.endDispatch
  refine Kept.trans ?_ (State.selectNext_kept _)
  exact (State.closeDispatch_kept _ _)
theorem State.recordTrap_kept (s : State) (code : Nat) (addr : Option Word) : Kept s (State.recordTrap s code addr) := by
  unfold State.recordTrap
  try dsimp only
  refine Kept.trans ?_ (State.modMe_kept _ _)
  try dsimp only
  split
  · refine KeptP.mk ?_
    exact Kept.refl _
  · refine KeptP.mk ?_
    exact (State.free_kept _)
theorem State.meTrap_kept (s : State) (code : Nat) (addr : Option Word) : Kept s (State.meTrap s code addr) := by
  unfold State.meTrap
  try dsimp only
  refine Kept.trans ?_ (State.countFault_kept _ _)
  refine Kept.ite ?_ ?_
  · refine Kept.trans ?_ (State.meFence_kept _ _)
    exact (State.recordTrap_kept _ _ _)
  · refine Kept.ite ?_ ?_
    · refine Kept.trans ?_ (State.modMe_kept _ _)
      exact (State.recordTrap_kept _ _ _)
    · refine Kept.trans ?_ (State.endDispatch_kept _)
      exact (State.recordTrap_kept _ _ _)
theorem State.hold_kept (s : State) (r : MeReq) : Kept s (State.hold s r) := by
  unfold State.hold
  exact (State.modMe_kept _ _)
theorem State.doStore_kept (s : State) (o : Fin 256) (a : Nat) (size : Nat) (d : Word) : Kept s (State.doStore s o a size d) := by
  unfold State.doStore
  refine Kept.ite ?_ ?_
  · exact (State.memWrite_kept _ _ _ _)
  · refine Kept.getD ?_ ?_
    · exact (State.clientWrite_kept _ _ _ _ _)
    · exact Kept.refl _
theorem State.putResult_kept (s : State) (uid : Nat) (rd : Fin 16) (status : Nat) (handle : Nat) : Kept s (State.putResult s uid rd status handle) := by
  unfold State.putResult
  exact (State.modMe_kept _ _)
theorem State.doRequest_kept (s : State) (r : MeReq) : Kept s (State.doRequest s r) := by
  unfold State.doRequest
  try dsimp only
  split
  · exact (State.doStore_kept _ _ _ _ _)
  · try dsimp only
    refine Kept.ite ?_ ?_
    · exact (State.loadShadow_kept _ _ _ _)
    · exact (State.pushEdge_kept _ _ _ _)
  · try dsimp only
    refine Kept.trans ?_ (State.putResult_kept _ _ _ _ _)
    exact (State.schedInsert_kept _ _ _ _ _ _)
  · refine Kept.ite ?_ ?_
    · refine Kept.trans ?_ (State.putResult_kept _ _ _ _ _)
      exact (State.freeEntry_kept _ _)
    · exact (State.putResult_kept _ _ _ _ _)
  · refine Kept.trans ?_ (State.hwSet_kept _ _ _)
    exact (State.modMe_kept _ _)
  · exact (State.post_kept _ _ _ _ _ _ _ _ _)
  · refine Kept.trans ?_ (State.modMem_kept _ _ rfl)
    exact (State.doStore_kept _ _ _ _ _)
theorem State.meRelease_kept (s : State) : Kept s (State.meRelease s) := by
  unfold State.meRelease
  try dsimp only
  split
  · exact Kept.refl _
  · refine Kept.ite ?_ ?_
    · exact Kept.refl _
    · refine Kept.trans ?_ (State.doRequest_kept _ _)
      exact (State.modMe_kept _ _)
theorem State.releaseAll_kept (n : Nat) : ∀ s : State, Kept s (State.releaseAll n s) := by
  induction n with
  | zero => exact fun s => Kept.refl s
  | succ n ih => exact fun s => (State.meRelease_kept s).trans (ih _)
theorem State.meResult_kept (s : State) : Kept s (State.meResult s) := by
  unfold State.meResult
  try dsimp only
  split
  · exact Kept.refl _
  · try dsimp only
    exact (State.modMe_kept _ _)
theorem State.resultAll_kept (n : Nat) : ∀ s : State, Kept s (State.resultAll n s) := by
  induction n with
  | zero => exact fun s => Kept.refl s
  | succ n ih => exact fun s => (State.meResult_kept s).trans (ih _)
theorem State.meSettle_kept (s : State) (rs : List (Fin 16)) : Kept s (State.meSettle s rs) := by
  unfold State.meSettle
  refine Kept.ite ?_ ?_
  · try dsimp only
    refine Kept.trans ?_ (State.resultAll_kept _ _)
    exact (State.releaseAll_kept _ _)
  · exact Kept.refl _
theorem State.meBankWord_kept (s : State) (ea : Word) : KeptP s (State.meBankWord s ea) := by
  unfold State.meBankWord
  split
  · exact Kept.refl s
  · have h := State.bankReadWord_kept s (wordOf ‹Nat›)
    split
    · exact KeptP.mk (Kept.ofP (by assumption) h)
    · exact h
theorem State.meLoad_kept (s : State) (op : LdOp) (rd : Fin 16) (ra : Fin 16) (imm : BitVec 18) : Kept s (State.meLoad s op rd ra imm) := by
  unfold State.meLoad
  try dsimp only
  try dsimp only
  split
  · exact (State.meTrap_kept _ _ _)
  · refine Kept.ite ?_ ?_
    · refine Kept.ite ?_ ?_
      · exact Kept.refl _
      · try dsimp only
        split
        · refine Kept.trans ?_ (State.pcNext_kept _)
          refine Kept.trans ?_ (State.setReg_kept _ _ _)
          refine Kept.ofP (by assumption) ?_
          exact (State.meBankWord_kept _ _)
        · refine Kept.trans ?_ (State.meTrap_kept _ _ _)
          refine Kept.ofP (by assumption) ?_
          exact (State.meBankWord_kept _ _)
    · try dsimp only
      refine Kept.ite ?_ ?_
      · exact (State.releaseAll_kept _ _)
      · try dsimp only
        split
        · refine Kept.trans ?_ (State.pcNext_kept _)
          refine Kept.trans ?_ (State.setReg_kept _ _ _)
          refine Kept.ofOP (by assumption) ?_
          refine KeptOP.trans ?_ (State.regRead_kept _ _)
          exact (State.releaseAll_kept _ _)
        · refine Kept.trans ?_ (State.meTrap_kept _ _ _)
          exact (State.releaseAll_kept _ _)
theorem State.meStore_kept (s : State) (op : StOp) (rd : Fin 16) (ra : Fin 16) (imm : BitVec 18) : Kept s (State.meStore s op rd ra imm) := by
  unfold State.meStore
  try dsimp only
  try dsimp only
  split
  · exact (State.meTrap_kept _ _ _)
  · refine Kept.trans ?_ (State.pcNext_kept _)
    exact (State.hold_kept _ _)
theorem State.meAtomG_kept (s : State) (op : AtomOp) (rd : Fin 16) (ra : Fin 16) (rb : Fin 16) : Kept s (State.meAtomG s op rd ra rb) := by
  unfold State.meAtomG
  try dsimp only
  refine Kept.trans ?_ (State.pcNext_kept _)
  refine Kept.trans ?_ (State.setFlags_kept _ _)
  refine Kept.trans ?_ (State.setReg_kept _ _ _)
  exact (State.setReg_kept _ _ _)
theorem State.meAtomBank_kept (s : State) (op : AtomOp) (rd : Fin 16) (ra : Fin 16) (rb : Fin 16) : Kept s (State.meAtomBank s op rd ra rb) := by
  unfold State.meAtomBank
  try dsimp only
  refine Kept.ite ?_ ?_
  · exact (State.meTrap_kept _ _ _)
  · try dsimp only
    split
    · exact (State.meTrap_kept _ _ _)
    · try dsimp only
      split
      · exact (State.meTrap_kept _ _ _)
      · try dsimp only
        refine Kept.ite ?_ ?_
        · refine Kept.ite ?_ ?_
          · exact Kept.refl _
          · exact (State.releaseAll_kept _ _)
        · try dsimp only
          split
          · refine Kept.trans ?_ (State.meTrap_kept _ _ _)
            refine Kept.ofP (by assumption) ?_
            refine KeptP.trans ?_ (State.meBankWord_kept _ _)
            refine Kept.ite ?_ ?_
            · exact Kept.refl _
            · exact (State.releaseAll_kept _ _)
          · try dsimp only
            refine Kept.trans ?_ (State.pcNext_kept _)
            refine Kept.trans ?_ (State.setFlags_kept _ _)
            refine Kept.trans ?_ (State.setReg_kept _ _ _)
            refine Kept.trans ?_ (State.modMem_kept _ _ rfl)
            refine Kept.trans ?_ (State.hold_kept _ _)
            refine Kept.ofP (by assumption) ?_
            refine KeptP.trans ?_ (State.meBankWord_kept _ _)
            refine Kept.ite ?_ ?_
            · exact Kept.refl _
            · exact (State.releaseAll_kept _ _)
theorem State.meCall_kept (s : State) (t : BitVec 13) : Kept s (State.meCall s t) := by
  unfold State.meCall
  refine Kept.ite ?_ ?_
  · exact (State.meTrap_kept _ _ _)
  · try dsimp only
    refine Kept.trans ?_ (State.openWindow_kept _ _)
    exact (State.pcNext_kept _)
theorem State.meRet_kept (s : State) : Kept s (State.meRet s) := by
  unfold State.meRet
  try dsimp only
  split
  · exact (State.meTrap_kept _ _ _)
  · exact Kept.refl _
  · refine Kept.ite ?_ ?_
    · exact (State.meTrap_kept _ _ _)
    · refine Kept.trans ?_ (State.fillWindow_kept _)
      refine Kept.trans ?_ (State.pruneResults_kept _)
      exact (State.modMe_kept _ _)
theorem State.meYield_kept (s : State) : Kept s (State.meYield s) := by
  unfold State.meYield
  refine Kept.ite ?_ ?_
  · try dsimp only
    refine Kept.trans ?_ (State.selectNext_kept _)
    refine Kept.ite ?_ ?_
    · refine Kept.trans ?_ (State.closeDispatch_kept _ _)
      exact (State.modMe_kept _ _)
    · exact (State.modMe_kept _ _)
  · exact (State.endDispatch_kept _)
theorem State.meSched_kept (s : State) (rd : Fin 16) (ra : Fin 16) : Kept s (State.meSched s rd ra) := by
  unfold State.meSched
  try dsimp only
  refine Kept.ite ?_ ?_
  · exact (State.meTrap_kept _ _ _)
  · refine Kept.trans ?_ (State.pcNext_kept _)
    exact (State.hold_kept _ _)
theorem State.meCancel_kept (s : State) (rd : Fin 16) (ra : Fin 16) : Kept s (State.meCancel s rd ra) := by
  unfold State.meCancel
  refine Kept.trans ?_ (State.pcNext_kept _)
  exact (State.hold_kept _ _)
theorem State.meEdge_kept (s : State) (rc : Fin 16) (ra : Fin 16) (rb : Fin 16) (shd : Bool) (chr : Bool) (ch : Fin 64) : Kept s (State.meEdge s rc ra rb shd chr ch) := by
  unfold State.meEdge
  try dsimp only
  refine Kept.ite ?_ ?_
  · refine Kept.trans ?_ (State.pcNext_kept _)
    exact (State.hold_kept _ _)
  · exact (State.meTrap_kept _ _ _)
theorem State.setPair_kept (s : State) (rd : Fin 16) (re : Fin 16) (v : W48) : Kept s (State.setPair s rd re v) := by
  unfold State.setPair
  refine Kept.trans ?_ (State.setReg_kept _ _ _)
  exact (State.setReg_kept _ _ _)
theorem State.meSnap_kept (s : State) (rd : Fin 16) (re : Fin 16) (sel : BitVec 7) : Kept s (State.meSnap s rd re sel) := by
  unfold State.meSnap
  try dsimp only
  refine Kept.ite ?_ ?_
  · refine Kept.trans ?_ (State.pcNext_kept _)
    exact (State.setPair_kept _ _ _ _)
  · exact (State.meTrap_kept _ _ _)
theorem State.meAtt_kept (s : State) (rd : Fin 16) (re : Fin 16) (ra : Fin 16) (dom : BitVec 2) : Kept s (State.meAtt s rd re ra dom) := by
  unfold State.meAtt
  try dsimp only
  split
  · exact Kept.refl _
  · try dsimp only
    refine Kept.ite ?_ ?_
    · exact (State.meTrap_kept _ _ _)
    · try dsimp only
      split
      · refine Kept.trans ?_ (State.pcNext_kept _)
        refine Kept.trans ?_ (State.setFlags_kept _ _)
        exact (State.setPair_kept _ _ _ _)
      · try dsimp only
        refine Kept.ite ?_ ?_
        · refine Kept.trans ?_ (State.pcNext_kept _)
          refine Kept.trans ?_ (State.setFlags_kept _ _)
          exact (State.setPair_kept _ _ _ _)
        · try dsimp only
          refine Kept.trans ?_ (State.pcNext_kept _)
          refine Kept.trans ?_ (State.setFlags_kept _ _)
          refine Kept.trans ?_ (State.setPair_kept _ _ _ _)
          refine Kept.ite ?_ ?_
          · exact (State.free_kept _)
          · exact Kept.refl _
theorem State.meSignal_kept (s : State) (n : Fin 8) : Kept s (State.meSignal s n) := by
  unfold State.meSignal
  refine Kept.ite ?_ ?_
  · refine Kept.trans ?_ (State.pcNext_kept _)
    exact (State.hold_kept _ _)
  · exact (State.meTrap_kept _ _ _)
theorem State.mePost_kept (s : State) (ra : Fin 16) (rb : Fin 16) (client : Fin 256) : Kept s (State.mePost s ra rb client) := by
  unfold State.mePost
  try dsimp only
  refine Kept.ite ?_ ?_
  · refine Kept.trans ?_ (State.pcNext_kept _)
    exact (State.hold_kept _ _)
  · exact (State.meTrap_kept _ _ _)
theorem State.meRun_kept (s : State) (a1 : MeInstr) : Kept s (State.meRun s a1) := by
  unfold State.meRun
  try dsimp only
  split
  · try dsimp only
    refine Kept.trans ?_ (State.pcNext_kept _)
    refine Kept.trans ?_ (State.setFlags_kept _ _)
    refine Kept.ite ?_ ?_
    · exact (State.setReg_kept _ _ _)
    · exact Kept.refl _
  · try dsimp only
    try dsimp only
    split
    · refine Kept.trans ?_ (State.pcNext_kept _)
      refine Kept.trans ?_ (State.setFlags_kept _ _)
      refine Kept.ite ?_ ?_
      · exact (State.setReg_kept _ _ _)
      · exact Kept.refl _
    · refine Kept.trans ?_ (State.pcNext_kept _)
      refine Kept.trans ?_ (State.setFlags_kept _ _)
      refine Kept.ite ?_ ?_
      · exact (State.setReg_kept _ _ _)
      · exact Kept.refl _
    · refine Kept.trans ?_ (State.pcNext_kept _)
      refine Kept.trans ?_ (State.setFlags_kept _ _)
      refine Kept.ite ?_ ?_
      · exact (State.setReg_kept _ _ _)
      · exact Kept.refl _
    · refine Kept.trans ?_ (State.pcNext_kept _)
      refine Kept.trans ?_ (State.setFlags_kept _ _)
      refine Kept.ite ?_ ?_
      · exact (State.setReg_kept _ _ _)
      · exact Kept.refl _
    · refine Kept.trans ?_ (State.pcNext_kept _)
      refine Kept.trans ?_ (State.setFlags_kept _ _)
      refine Kept.ite ?_ ?_
      · exact (State.setReg_kept _ _ _)
      · exact Kept.refl _
    · refine Kept.trans ?_ (State.pcNext_kept _)
      refine Kept.trans ?_ (State.setFlags_kept _ _)
      refine Kept.ite ?_ ?_
      · exact (State.setReg_kept _ _ _)
      · exact Kept.refl _
    · refine Kept.trans ?_ (State.pcNext_kept _)
      refine Kept.trans ?_ (State.setFlags_kept _ _)
      refine Kept.ite ?_ ?_
      · exact (State.setReg_kept _ _ _)
      · exact Kept.refl _
    · refine Kept.trans ?_ (State.pcNext_kept _)
      refine Kept.trans ?_ (State.setFlags_kept _ _)
      refine Kept.ite ?_ ?_
      · exact (State.setReg_kept _ _ _)
      · exact Kept.refl _
    · refine Kept.trans ?_ (State.pcNext_kept _)
      refine Kept.trans ?_ (State.setFlags_kept _ _)
      refine Kept.ite ?_ ?_
      · exact (State.setReg_kept _ _ _)
      · exact Kept.refl _
  · refine Kept.trans ?_ (State.pcNext_kept _)
    exact (State.setReg_kept _ _ _)
  · refine Kept.trans ?_ (State.pcNext_kept _)
    exact (State.setReg_kept _ _ _)
  · exact (State.meLoad_kept _ _ _ _ _)
  · exact (State.meStore_kept _ _ _ _ _)
  · refine Kept.ite ?_ ?_
    · exact (State.meAtomG_kept _ _ _ _ _)
    · exact (State.meAtomBank_kept _ _ _ _ _)
  · refine Kept.ite ?_ ?_
    · exact (State.jump_kept _ _)
    · exact (State.pcNext_kept _)
  · exact (State.meCall_kept _ _)
  · exact (State.jump_kept _ _)
  · exact (State.meRet_kept _)
  · exact (State.meYield_kept _)
  · exact (State.pcNext_kept _)
  · exact (State.meSched_kept _ _ _)
  · exact (State.meCancel_kept _ _ _)
  · exact (State.meEdge_kept _ _ _ _ _ _ _)
  · exact (State.meSnap_kept _ _ _ _)
  · exact (State.meAtt_kept _ _ _ _ _)
  · exact (State.meSignal_kept _ _)
  · exact (State.mePost_kept _ _ _ _)
  · exact (State.meTrap_kept _ _ _)
theorem State.meExec_kept (s : State) (i : MeInstr) : Kept s (State.meExec s i) := by
  unfold State.meExec
  refine Kept.ite ?_ ?_
  · exact Kept.refl _
  · try dsimp only
    split
    · refine Kept.ofP (by assumption) ?_
      exact (State.meFetch_kept _)
    · refine Kept.ite ?_ ?_
      · try dsimp only
        refine Kept.ite ?_ ?_
        · refine Kept.trans ?_ (State.meRun_kept _ _)
          refine Kept.trans ?_ (State.meSettle_kept _ _)
          refine Kept.ofP (by assumption) ?_
          exact (State.meFetch_kept _)
        · refine Kept.trans ?_ (State.meSettle_kept _ _)
          refine Kept.ofP (by assumption) ?_
          exact (State.meFetch_kept _)
      · exact Kept.refl _
theorem State.meIllegal_kept (s : State) : Kept s (State.meIllegal s) := by
  unfold State.meIllegal
  refine Kept.ite ?_ ?_
  · exact Kept.refl _
  · try dsimp only
    split
    · refine Kept.ofP (by assumption) ?_
      exact (State.meFetch_kept _)
    · refine Kept.ite ?_ ?_
      · refine Kept.trans ?_ (State.meTrap_kept _ _ _)
        refine Kept.ofP (by assumption) ?_
        exact (State.meFetch_kept _)
      · exact Kept.refl _
theorem State.meWatchdog_kept (s : State) : Kept s (State.meWatchdog s) := by
  unfold State.meWatchdog
  refine Kept.ite ?_ ?_
  · exact (State.meTrap_kept _ _ _)
  · exact Kept.refl _
theorem State.lockstepMismatch_kept (s : State) : Kept s (State.lockstepMismatch s) := by
  unfold State.lockstepMismatch
  refine Kept.ite ?_ ?_
  · exact Kept.refl _
  · refine Kept.trans ?_ (State.meFence_kept _ _)
    exact (State.modMe_kept _ _)
theorem State.dispatchWith_kept (s : State) (flips : List (Fin 8192 × Fin 40)) : Kept s (State.dispatchWith s flips) := by
  unfold State.dispatchWith
  try dsimp only
  refine Kept.trans ?_ (State.dispatch_kept _)
  refine Kept.trans ?_ (Kept.foldl (fun _ _ => ?_) _ _)
  · exact Kept.refl _
  · exact (State.modMe_kept _ _)
theorem State.edgeTimeFire_kept (s : State) (n : Fin 64) : Kept s (State.edgeTimeFire s n) := by
  unfold State.edgeTimeFire
  try dsimp only
  split
  · refine Kept.ite ?_ ?_
    · exact (State.fireHead_kept _ _)
    · exact Kept.refl _
  · exact Kept.refl _
theorem State.edgeAngleFire_kept (s : State) (n : Fin 64) : Kept s (State.edgeAngleFire s n) := by
  unfold State.edgeAngleFire
  try dsimp only
  split
  · try dsimp only
    split
    · refine Kept.ite ?_ ?_
      · exact (State.fireHead_kept _ _)
      · exact Kept.refl _
    · exact Kept.refl _
  · exact Kept.refl _

/-! ## ExecChannels -/

theorem execGroveTick_kept (g : Fin 8) (s : State) : KeptR s (execGroveTick g s) := by
  unfold execGroveTick
  refine KeptR.mk ?_
  refine State.whenUp_kept _ _ fun _ => ?_
  · exact (State.groveTick_kept _ _)
theorem execEdgeTimeFire_kept (n : Fin 64) (s : State) : KeptR s (execEdgeTimeFire n s) := by
  unfold execEdgeTimeFire
  refine KeptR.mk ?_
  refine State.whenUp_kept _ _ fun _ => ?_
  · exact (State.edgeTimeFire_kept _ _)
theorem execEdgeAngleFire_kept (n : Fin 64) (s : State) : KeptR s (execEdgeAngleFire n s) := by
  unfold execEdgeAngleFire
  refine KeptR.mk ?_
  refine State.whenUp_kept _ _ fun _ => ?_
  · exact (State.edgeAngleFire_kept _ _)
theorem execGrvCmdStart_kept (g : Fin 8) (s : State) : KeptR s (execGrvCmdStart g s) := by
  unfold execGrvCmdStart
  refine KeptR.mk ?_
  refine State.whenUp_kept _ _ fun _ => ?_
  · exact (State.groveStart_kept _ _)
theorem execGrvCmdStop_kept (g : Fin 8) (s : State) : KeptR s (execGrvCmdStop g s) := by
  unfold execGrvCmdStop
  refine KeptR.mk ?_
  refine State.whenUp_kept _ _ fun _ => ?_
  · exact (State.groveStop_kept _ _)
theorem execGrvPscWrite_kept (g : Fin 8) (w : Word) (s : State) : KeptR s (execGrvPscWrite g w s) := by
  unfold execGrvPscWrite
  refine KeptR.mk ?_
  refine State.whenUp_kept _ _ fun _ => ?_
  · exact (State.writePsc_kept _ _ _)
theorem execChCmdGo_kept (n : Fin 64) (s : State) : KeptR s (execChCmdGo n s) := by
  unfold execChCmdGo
  refine KeptR.mk ?_
  refine State.whenUp_kept _ _ fun _ => ?_
  · exact (State.chanGo_kept _ _)
theorem execChCmdStop_kept (n : Fin 64) (s : State) : KeptR s (execChCmdStop n s) := by
  unfold execChCmdStop
  refine KeptR.mk ?_
  refine State.whenUp_kept _ _ fun _ => ?_
  · exact (State.stopChan_kept _ _)
theorem execChCmdSwcap_kept (n : Fin 64) (s : State) : KeptR s (execChCmdSwcap n s) := by
  unfold execChCmdSwcap
  refine KeptR.mk ?_
  refine State.whenUp_kept _ _ fun _ => ?_
  · exact (State.swCapture_kept _ _)
theorem execChCmdOvrclr_kept (n : Fin 64) (s : State) : KeptR s (execChCmdOvrclr n s) := by
  unfold execChCmdOvrclr
  refine KeptR.mk ?_
  refine State.whenUp_kept _ _ fun _ => ?_
  · exact (State.ovrClr_kept _ _)
theorem execChCtlWrite_kept (n : Fin 64) (w : Word) (s : State) : KeptR s (execChCtlWrite n w s) := by
  unfold execChCtlWrite
  refine KeptR.mk ?_
  refine State.whenUp_kept _ _ fun _ => ?_
  · exact (State.writeCtl_kept _ _ _)
theorem execReloadLoWrite_kept (n : Fin 64) (w : Word) (s : State) : KeptR s (execReloadLoWrite n w s) := by
  unfold execReloadLoWrite
  refine KeptR.mk ?_
  refine State.whenUp_kept _ _ fun _ => ?_
  · exact (State.writeReloadLo_kept _ _ _)
theorem execReloadHiWrite_kept (n : Fin 64) (w : Word) (s : State) : KeptR s (execReloadHiWrite n w s) := by
  unfold execReloadHiWrite
  refine KeptR.mk ?_
  refine State.whenUp_kept _ _ fun _ => ?_
  · exact (State.writeReloadHi_kept _ _ _)
theorem execMatLoWrite_kept (n : Fin 64) (k : Fin 4) (w : Word) (s : State) : KeptR s (execMatLoWrite n k w s) := by
  unfold execMatLoWrite
  refine KeptR.mk ?_
  refine State.whenUp_kept _ _ fun _ => ?_
  · exact (State.writeMatLo_kept _ _ _ _)
theorem execMatHiWrite_kept (n : Fin 64) (k : Fin 4) (w : Word) (s : State) : KeptR s (execMatHiWrite n k w s) := by
  unfold execMatHiWrite
  refine KeptR.mk ?_
  refine State.whenUp_kept _ _ fun _ => ?_
  · exact (State.writeMatHi_kept _ _ _ _)
theorem execCntWrite_kept (n : Fin 64) (hi : Bool) (w : Word) (s : State) : KeptR s (execCntWrite n hi w s) := by
  unfold execCntWrite
  refine KeptR.mk ?_
  refine State.whenUp_kept _ _ fun _ => ?_
  · exact (State.writeCnt_kept _ _ _ _)
theorem execCntRead_kept (n : Fin 64) (hi : Bool) (s : State) : KeptR s (execCntRead n hi s) := by
  unfold execCntRead
  refine KeptR.mk ?_
  refine State.whenUp_kept _ _ fun _ => ?_
  · refine Kept.ite ?_ ?_
    · exact Kept.refl _
    · refine State.answered_kept _ ?_
      exact (State.readCnt_kept _ _ _)
theorem execCntReadCompat_kept (n : Fin 64) (hi : Bool) (s : State) : KeptR s (execCntReadCompat n hi s) := by
  unfold execCntReadCompat
  refine KeptR.mk ?_
  refine State.whenUp_kept _ _ fun _ => ?_
  · refine Kept.ite ?_ ?_
    · refine State.answered_kept _ ?_
      exact (State.readCnt_kept _ _ _)
    · exact Kept.refl _
theorem execCaptureEdge_kept (n : Fin 64) (level : Bool) (s : State) : KeptR s (execCaptureEdge n level s) := by
  unfold execCaptureEdge
  refine KeptR.mk ?_
  refine State.whenUp_kept _ _ fun _ => ?_
  · exact (State.captureEdge_kept _ _ _)
theorem execCapLoRead_kept (n : Fin 64) (s : State) : KeptR s (execCapLoRead n s) := by
  unfold execCapLoRead
  refine KeptR.mk ?_
  refine State.whenUp_kept _ _ fun _ => ?_
  · refine State.answered_kept _ ?_
    exact (State.readCapLo_kept _ _)
theorem execGlbTbRead_kept (hi : Bool) (s : State) : KeptR s (execGlbTbRead hi s) := by
  unfold execGlbTbRead
  refine KeptR.mk ?_
  refine State.answered_kept _ ?_
  exact (State.readTb_kept _ _)
theorem execTbSnap_kept (s : State) : KeptR s (execTbSnap s) := by
  unfold execTbSnap
  refine KeptR.mk ?_
  exact (State.tbSnap_kept _)
theorem execEqPush_kept (p : Path) (n : Fin 64) (w : Word) (s : State) : KeptR s (execEqPush p n w s) := by
  unfold execEqPush
  refine KeptR.mk ?_
  refine State.whenUp_kept _ _ fun _ => ?_
  · exact (State.eqPush_kept _ _ _ _)
theorem execEqShd_kept (p : Path) (n : Fin 64) (w : Word) (s : State) : KeptR s (execEqShd p n w s) := by
  unfold execEqShd
  refine KeptR.mk ?_
  refine State.whenUp_kept _ _ fun _ => ?_
  · exact (State.eqShd_kept _ _ _ _)
theorem execGrvUpdArm_kept (g : Fin 8) (s : State) : KeptR s (execGrvUpdArm g s) := by
  unfold execGrvUpdArm
  refine KeptR.mk ?_
  refine State.whenUp_kept _ _ fun _ => ?_
  · exact (State.armGrove_kept _ _)
theorem execChPairWrite_kept (n : Fin 64) (w : Word) (s : State) : KeptR s (execChPairWrite n w s) := by
  unfold execChPairWrite
  refine KeptR.mk ?_
  refine State.whenUp_kept _ _ fun _ => ?_
  · exact (State.writePair_kept _ _ _)
theorem execChOcfgWrite_kept (n : Fin 64) (w : Word) (s : State) : KeptR s (execChOcfgWrite n w s) := by
  unfold execChOcfgWrite
  refine KeptR.mk ?_
  refine State.whenUp_kept _ _ fun _ => ?_
  · exact (State.writeOcfg_kept _ _ _)
theorem execChOcmdClr_kept (n : Fin 64) (s : State) : KeptR s (execChOcmdClr n s) := by
  unfold execChOcmdClr
  refine KeptR.mk ?_
  refine State.whenUp_kept _ _ fun _ => ?_
  · exact (State.setSw_kept _ _)
theorem execChOcmdRel_kept (n : Fin 64) (s : State) : KeptR s (execChOcmdRel n s) := by
  unfold execChOcmdRel
  refine KeptR.mk ?_
  refine State.whenUp_kept _ _ fun _ => ?_
  · exact (State.releaseSw_kept _ _)
theorem execChOcmdRelSync_kept (n : Fin 64) (s : State) : KeptR s (execChOcmdRelSync n s) := by
  unfold execChOcmdRelSync
  refine KeptR.mk ?_
  refine State.whenUp_kept _ _ fun _ => ?_
  · exact (State.releaseSync_kept _ _)
theorem execChOcmdFlush_kept (n : Fin 64) (s : State) : KeptR s (execChOcmdFlush n s) := by
  unfold execChOcmdFlush
  refine KeptR.mk ?_
  refine State.whenUp_kept _ _ fun _ => ?_
  · exact (State.flushCmd_kept _ _)
theorem execGrvClrcmdClr_kept (g : Fin 8) (s : State) : KeptR s (execGrvClrcmdClr g s) := by
  unfold execGrvClrcmdClr
  refine KeptR.mk ?_
  refine State.whenUp_kept _ _ fun _ => ?_
  · exact (State.grvClrcmd_kept _ _ _)
theorem execGrvClrcmdRel_kept (g : Fin 8) (s : State) : KeptR s (execGrvClrcmdRel g s) := by
  unfold execGrvClrcmdRel
  refine KeptR.mk ?_
  refine State.whenUp_kept _ _ fun _ => ?_
  · exact (State.grvClrcmd_kept _ _ _)
theorem execGrvClrcmdRelTrip_kept (g : Fin 8) (s : State) : KeptR s (execGrvClrcmdRelTrip g s) := by
  unfold execGrvClrcmdRelTrip
  refine KeptR.mk ?_
  refine State.whenUp_kept _ _ fun _ => ?_
  · exact (State.grvClrcmd_kept _ _ _)
theorem execReadbackMismatch_kept (n : Fin 64) (s : State) : KeptR s (execReadbackMismatch n s) := by
  unfold execReadbackMismatch
  refine KeptR.mk ?_
  refine State.whenUp_kept _ _ fun _ => ?_
  · exact (State.readbackMismatch_kept _ _)
theorem execGrvRdmGo_kept (g : Fin 8) (s : State) : KeptR s (execGrvRdmGo g s) := by
  unfold execGrvRdmGo
  refine KeptR.mk ?_
  refine State.whenUp_kept _ _ fun _ => ?_
  · exact (State.rdmGo_kept _ _)

/-! ## ExecAngle -/

theorem execAdInputEdge_kept (d : Fin 3) (k : Fin 3) (level : Bool) (s : State) : KeptR s (execAdInputEdge d k level s) := by
  unfold execAdInputEdge
  refine KeptR.mk ?_
  refine State.whenUp_kept _ _ fun _ => ?_
  · exact (State.adInputEdge_kept _ _ _ _)
theorem execAdWindowClose_kept (d : Fin 3) (s : State) : KeptR s (execAdWindowClose d s) := by
  unfold execAdWindowClose
  refine KeptR.mk ?_
  refine State.whenUp_kept _ _ fun _ => ?_
  · exact (State.windowClose_kept _ _)
theorem execAngleTrigger_kept (d : Fin 3) (k : Fin 4) (s : State) : KeptR s (execAngleTrigger d k s) := by
  unfold execAngleTrigger
  refine KeptR.mk ?_
  refine State.whenUp_kept _ _ fun _ => ?_
  · exact (State.angleTrigger_kept _ _ _)
theorem execAdCtlEnable_kept (d : Fin 3) (w : Word) (s : State) : KeptR s (execAdCtlEnable d w s) := by
  unfold execAdCtlEnable
  refine KeptR.mk ?_
  refine State.whenUp_kept _ _ fun _ => ?_
  · exact (State.writeAdCtl_kept _ _ _)
theorem execAdCmdLose_kept (d : Fin 3) (s : State) : KeptR s (execAdCmdLose d s) := by
  unfold execAdCmdLose
  refine KeptR.mk ?_
  refine State.whenUp_kept _ _ fun _ => ?_
  · exact (State.adLose_kept _ _)
theorem execAdCmdDrop_kept (d : Fin 3) (s : State) : KeptR s (execAdCmdDrop d s) := by
  unfold execAdCmdDrop
  refine KeptR.mk ?_
  refine State.whenUp_kept _ _ fun _ => ?_
  · exact (State.adDrop_kept _ _)
theorem execPlCtlWrite_kept (k : Fin 2) (w : Word) (s : State) : KeptR s (execPlCtlWrite k w s) := by
  unfold execPlCtlWrite
  refine KeptR.mk ?_
  refine State.whenUp_kept _ _ fun _ => ?_
  · exact (State.writePlCtl_kept _ _ _)
theorem execPlTripClear_kept (k : Fin 2) (s : State) : KeptR s (execPlTripClear k s) := by
  unfold execPlTripClear
  refine KeptR.mk ?_
  refine State.whenUp_kept _ _ fun _ => ?_
  · exact (State.clearTrip_kept _ _)
theorem execDomainSweep_kept (d : Fin 3) (s : State) : KeptR s (execDomainSweep d s) := by
  unfold execDomainSweep
  refine KeptR.mk ?_
  refine State.whenUp_kept _ _ fun _ => ?_
  · exact (State.domainSweep_kept _ _)

/-! ## ExecTimetable -/

theorem execCalendarTimeDue_kept (s : State) : KeptR s (execCalendarTimeDue s) := by
  unfold execCalendarTimeDue
  refine KeptR.mk ?_
  refine State.whenUp_kept _ _ fun _ => ?_
  · exact (State.calendarTimeDue_kept _)
theorem execCalendarAngleDue_kept (d : Fin 3) (s : State) : KeptR s (execCalendarAngleDue d s) := by
  unfold execCalendarAngleDue
  refine KeptR.mk ?_
  refine State.whenUp_kept _ _ fun _ => ?_
  · exact (State.calendarAngleDue_kept _ _)
theorem execDispatch_kept (flips : List (Fin 8192 × Fin 40)) (s : State) : KeptR s (execDispatch flips s) := by
  unfold execDispatch
  refine KeptR.mk ?_
  refine State.whenUp_kept _ _ fun _ => ?_
  · exact (State.dispatchWith_kept _ _)
theorem execCalendarInsert_kept (c : Fin 256) (h : Fin 1024) (w : Word) (s : State) : KeptR s (execCalendarInsert c h w s) := by
  unfold execCalendarInsert
  refine KeptR.mk ?_
  refine State.whenUp_kept _ _ fun _ => ?_
  · exact (State.hostInsert_kept _ _ _ _)
theorem execCalendarCancel_kept (c : Fin 256) (h : Fin 1024) (s : State) : KeptR s (execCalendarCancel c h s) := by
  unfold execCalendarCancel
  refine KeptR.mk ?_
  refine State.whenUp_kept _ _ fun _ => ?_
  · exact (State.hostCancel_kept _ _ _)
theorem execMeSpillWrite_kept (w : Word) (s : State) : KeptR s (execMeSpillWrite w s) := by
  unfold execMeSpillWrite
  refine KeptR.mk ?_
  refine State.whenUp_kept _ _ fun _ => ?_
  · exact (State.writeSpill_kept _ _)
theorem execMeGWrite_kept (k : Fin 8) (w : Word) (s : State) : KeptR s (execMeGWrite k w s) := by
  unfold execMeGWrite
  refine KeptR.mk ?_
  refine State.whenUp_kept _ _ fun _ => ?_
  · exact (State.writeG_kept _ _ _)

/-! ## ExecEngine -/

theorem execAdd_kept (rd : Fin 16) (ra : Fin 16) (rb : Fin 16) (s : State) : KeptR s (execAdd rd ra rb s) := by
  unfold execAdd
  refine KeptR.mk ?_
  refine State.whenUp_kept _ _ fun _ => ?_
  · exact (State.meExec_kept _ _)
theorem execAdc_kept (rd : Fin 16) (ra : Fin 16) (rb : Fin 16) (s : State) : KeptR s (execAdc rd ra rb s) := by
  unfold execAdc
  refine KeptR.mk ?_
  refine State.whenUp_kept _ _ fun _ => ?_
  · exact (State.meExec_kept _ _)
theorem execSub_kept (rd : Fin 16) (ra : Fin 16) (rb : Fin 16) (s : State) : KeptR s (execSub rd ra rb s) := by
  unfold execSub
  refine KeptR.mk ?_
  refine State.whenUp_kept _ _ fun _ => ?_
  · exact (State.meExec_kept _ _)
theorem execSbc_kept (rd : Fin 16) (ra : Fin 16) (rb : Fin 16) (s : State) : KeptR s (execSbc rd ra rb s) := by
  unfold execSbc
  refine KeptR.mk ?_
  refine State.whenUp_kept _ _ fun _ => ?_
  · exact (State.meExec_kept _ _)
theorem execAnd_kept (rd : Fin 16) (ra : Fin 16) (rb : Fin 16) (s : State) : KeptR s (execAnd rd ra rb s) := by
  unfold execAnd
  refine KeptR.mk ?_
  refine State.whenUp_kept _ _ fun _ => ?_
  · exact (State.meExec_kept _ _)
theorem execOr_kept (rd : Fin 16) (ra : Fin 16) (rb : Fin 16) (s : State) : KeptR s (execOr rd ra rb s) := by
  unfold execOr
  refine KeptR.mk ?_
  refine State.whenUp_kept _ _ fun _ => ?_
  · exact (State.meExec_kept _ _)
theorem execXor_kept (rd : Fin 16) (ra : Fin 16) (rb : Fin 16) (s : State) : KeptR s (execXor rd ra rb s) := by
  unfold execXor
  refine KeptR.mk ?_
  refine State.whenUp_kept _ _ fun _ => ?_
  · exact (State.meExec_kept _ _)
theorem execAndn_kept (rd : Fin 16) (ra : Fin 16) (rb : Fin 16) (s : State) : KeptR s (execAndn rd ra rb s) := by
  unfold execAndn
  refine KeptR.mk ?_
  refine State.whenUp_kept _ _ fun _ => ?_
  · exact (State.meExec_kept _ _)
theorem execShl_kept (rd : Fin 16) (ra : Fin 16) (rb : Fin 16) (s : State) : KeptR s (execShl rd ra rb s) := by
  unfold execShl
  refine KeptR.mk ?_
  refine State.whenUp_kept _ _ fun _ => ?_
  · exact (State.meExec_kept _ _)
theorem execShr_kept (rd : Fin 16) (ra : Fin 16) (rb : Fin 16) (s : State) : KeptR s (execShr rd ra rb s) := by
  unfold execShr
  refine KeptR.mk ?_
  refine State.whenUp_kept _ _ fun _ => ?_
  · exact (State.meExec_kept _ _)
theorem execSar_kept (rd : Fin 16) (ra : Fin 16) (rb : Fin 16) (s : State) : KeptR s (execSar rd ra rb s) := by
  unfold execSar
  refine KeptR.mk ?_
  refine State.whenUp_kept _ _ fun _ => ?_
  · exact (State.meExec_kept _ _)
theorem execMul_kept (rd : Fin 16) (ra : Fin 16) (rb : Fin 16) (s : State) : KeptR s (execMul rd ra rb s) := by
  unfold execMul
  refine KeptR.mk ?_
  refine State.whenUp_kept _ _ fun _ => ?_
  · exact (State.meExec_kept _ _)
theorem execMulhu_kept (rd : Fin 16) (ra : Fin 16) (rb : Fin 16) (s : State) : KeptR s (execMulhu rd ra rb s) := by
  unfold execMulhu
  refine KeptR.mk ?_
  refine State.whenUp_kept _ _ fun _ => ?_
  · exact (State.meExec_kept _ _)
theorem execDivu_kept (rd : Fin 16) (ra : Fin 16) (rb : Fin 16) (s : State) : KeptR s (execDivu rd ra rb s) := by
  unfold execDivu
  refine KeptR.mk ?_
  refine State.whenUp_kept _ _ fun _ => ?_
  · exact (State.meExec_kept _ _)
theorem execRemu_kept (rd : Fin 16) (ra : Fin 16) (rb : Fin 16) (s : State) : KeptR s (execRemu rd ra rb s) := by
  unfold execRemu
  refine KeptR.mk ?_
  refine State.whenUp_kept _ _ fun _ => ?_
  · exact (State.meExec_kept _ _)
theorem execMinu_kept (rd : Fin 16) (ra : Fin 16) (rb : Fin 16) (s : State) : KeptR s (execMinu rd ra rb s) := by
  unfold execMinu
  refine KeptR.mk ?_
  refine State.whenUp_kept _ _ fun _ => ?_
  · exact (State.meExec_kept _ _)
theorem execMaxu_kept (rd : Fin 16) (ra : Fin 16) (rb : Fin 16) (s : State) : KeptR s (execMaxu rd ra rb s) := by
  unfold execMaxu
  refine KeptR.mk ?_
  refine State.whenUp_kept _ _ fun _ => ?_
  · exact (State.meExec_kept _ _)
theorem execCmp_kept (ra : Fin 16) (rb : Fin 16) (s : State) : KeptR s (execCmp ra rb s) := by
  unfold execCmp
  refine KeptR.mk ?_
  refine State.whenUp_kept _ _ fun _ => ?_
  · exact (State.meExec_kept _ _)
theorem execTst_kept (ra : Fin 16) (rb : Fin 16) (s : State) : KeptR s (execTst ra rb s) := by
  unfold execTst
  refine KeptR.mk ?_
  refine State.whenUp_kept _ _ fun _ => ?_
  · exact (State.meExec_kept _ _)
theorem execMov_kept (rd : Fin 16) (ra : Fin 16) (s : State) : KeptR s (execMov rd ra s) := by
  unfold execMov
  refine KeptR.mk ?_
  refine State.whenUp_kept _ _ fun _ => ?_
  · exact (State.meExec_kept _ _)
theorem execAddi_kept (rd : Fin 16) (ra : Fin 16) (imm : BitVec 18) (s : State) : KeptR s (execAddi rd ra imm s) := by
  unfold execAddi
  refine KeptR.mk ?_
  refine State.whenUp_kept _ _ fun _ => ?_
  · exact (State.meExec_kept _ _)
theorem execAndi_kept (rd : Fin 16) (ra : Fin 16) (imm : BitVec 18) (s : State) : KeptR s (execAndi rd ra imm s) := by
  unfold execAndi
  refine KeptR.mk ?_
  refine State.whenUp_kept _ _ fun _ => ?_
  · exact (State.meExec_kept _ _)
theorem execOri_kept (rd : Fin 16) (ra : Fin 16) (imm : BitVec 18) (s : State) : KeptR s (execOri rd ra imm s) := by
  unfold execOri
  refine KeptR.mk ?_
  refine State.whenUp_kept _ _ fun _ => ?_
  · exact (State.meExec_kept _ _)
theorem execXori_kept (rd : Fin 16) (ra : Fin 16) (imm : BitVec 18) (s : State) : KeptR s (execXori rd ra imm s) := by
  unfold execXori
  refine KeptR.mk ?_
  refine State.whenUp_kept _ _ fun _ => ?_
  · exact (State.meExec_kept _ _)
theorem execShli_kept (rd : Fin 16) (ra : Fin 16) (n : Fin 32) (s : State) : KeptR s (execShli rd ra n s) := by
  unfold execShli
  refine KeptR.mk ?_
  refine State.whenUp_kept _ _ fun _ => ?_
  · exact (State.meExec_kept _ _)
theorem execShri_kept (rd : Fin 16) (ra : Fin 16) (n : Fin 32) (s : State) : KeptR s (execShri rd ra n s) := by
  unfold execShri
  refine KeptR.mk ?_
  refine State.whenUp_kept _ _ fun _ => ?_
  · exact (State.meExec_kept _ _)
theorem execSari_kept (rd : Fin 16) (ra : Fin 16) (n : Fin 32) (s : State) : KeptR s (execSari rd ra n s) := by
  unfold execSari
  refine KeptR.mk ?_
  refine State.whenUp_kept _ _ fun _ => ?_
  · exact (State.meExec_kept _ _)
theorem execCmpi_kept (ra : Fin 16) (imm : BitVec 18) (s : State) : KeptR s (execCmpi ra imm s) := by
  unfold execCmpi
  refine KeptR.mk ?_
  refine State.whenUp_kept _ _ fun _ => ?_
  · exact (State.meExec_kept _ _)
theorem execTsti_kept (ra : Fin 16) (imm : BitVec 18) (s : State) : KeptR s (execTsti ra imm s) := by
  unfold execTsti
  refine KeptR.mk ?_
  refine State.whenUp_kept _ _ fun _ => ?_
  · exact (State.meExec_kept _ _)
theorem execMovi_kept (rd : Fin 16) (imm : BitVec 18) (s : State) : KeptR s (execMovi rd imm s) := by
  unfold execMovi
  refine KeptR.mk ?_
  refine State.whenUp_kept _ _ fun _ => ?_
  · exact (State.meExec_kept _ _)
theorem execMovhi_kept (rd : Fin 16) (imm : BitVec 16) (s : State) : KeptR s (execMovhi rd imm s) := by
  unfold execMovhi
  refine KeptR.mk ?_
  refine State.whenUp_kept _ _ fun _ => ?_
  · exact (State.meExec_kept _ _)
theorem execLdw_kept (rd : Fin 16) (ra : Fin 16) (imm : BitVec 18) (s : State) : KeptR s (execLdw rd ra imm s) := by
  unfold execLdw
  refine KeptR.mk ?_
  refine State.whenUp_kept _ _ fun _ => ?_
  · exact (State.meExec_kept _ _)
theorem execLdh_kept (rd : Fin 16) (ra : Fin 16) (imm : BitVec 18) (s : State) : KeptR s (execLdh rd ra imm s) := by
  unfold execLdh
  refine KeptR.mk ?_
  refine State.whenUp_kept _ _ fun _ => ?_
  · exact (State.meExec_kept _ _)
theorem execLdhu_kept (rd : Fin 16) (ra : Fin 16) (imm : BitVec 18) (s : State) : KeptR s (execLdhu rd ra imm s) := by
  unfold execLdhu
  refine KeptR.mk ?_
  refine State.whenUp_kept _ _ fun _ => ?_
  · exact (State.meExec_kept _ _)
theorem execLdb_kept (rd : Fin 16) (ra : Fin 16) (imm : BitVec 18) (s : State) : KeptR s (execLdb rd ra imm s) := by
  unfold execLdb
  refine KeptR.mk ?_
  refine State.whenUp_kept _ _ fun _ => ?_
  · exact (State.meExec_kept _ _)
theorem execLdbu_kept (rd : Fin 16) (ra : Fin 16) (imm : BitVec 18) (s : State) : KeptR s (execLdbu rd ra imm s) := by
  unfold execLdbu
  refine KeptR.mk ?_
  refine State.whenUp_kept _ _ fun _ => ?_
  · exact (State.meExec_kept _ _)
theorem execStw_kept (rd : Fin 16) (ra : Fin 16) (imm : BitVec 18) (s : State) : KeptR s (execStw rd ra imm s) := by
  unfold execStw
  refine KeptR.mk ?_
  refine State.whenUp_kept _ _ fun _ => ?_
  · exact (State.meExec_kept _ _)
theorem execSth_kept (rd : Fin 16) (ra : Fin 16) (imm : BitVec 18) (s : State) : KeptR s (execSth rd ra imm s) := by
  unfold execSth
  refine KeptR.mk ?_
  refine State.whenUp_kept _ _ fun _ => ?_
  · exact (State.meExec_kept _ _)
theorem execStb_kept (rd : Fin 16) (ra : Fin 16) (imm : BitVec 18) (s : State) : KeptR s (execStb rd ra imm s) := by
  unfold execStb
  refine KeptR.mk ?_
  refine State.whenUp_kept _ _ fun _ => ?_
  · exact (State.meExec_kept _ _)
theorem execXadd_kept (g : Bool) (rd : Fin 16) (ra : Fin 16) (rb : Fin 16) (s : State) : KeptR s (execXadd g rd ra rb s) := by
  unfold execXadd
  refine KeptR.mk ?_
  refine State.whenUp_kept _ _ fun _ => ?_
  · exact (State.meExec_kept _ _)
theorem execXchg_kept (g : Bool) (rd : Fin 16) (ra : Fin 16) (rb : Fin 16) (s : State) : KeptR s (execXchg g rd ra rb s) := by
  unfold execXchg
  refine KeptR.mk ?_
  refine State.whenUp_kept _ _ fun _ => ?_
  · exact (State.meExec_kept _ _)
theorem execXset_kept (g : Bool) (rd : Fin 16) (ra : Fin 16) (rb : Fin 16) (s : State) : KeptR s (execXset g rd ra rb s) := by
  unfold execXset
  refine KeptR.mk ?_
  refine State.whenUp_kept _ _ fun _ => ?_
  · exact (State.meExec_kept _ _)
theorem execXclr_kept (g : Bool) (rd : Fin 16) (ra : Fin 16) (rb : Fin 16) (s : State) : KeptR s (execXclr g rd ra rb s) := by
  unfold execXclr
  refine KeptR.mk ?_
  refine State.whenUp_kept _ _ fun _ => ?_
  · exact (State.meExec_kept _ _)
theorem execCas_kept (g : Bool) (rd : Fin 16) (ra : Fin 16) (rb : Fin 16) (s : State) : KeptR s (execCas g rd ra rb s) := by
  unfold execCas
  refine KeptR.mk ?_
  refine State.whenUp_kept _ _ fun _ => ?_
  · exact (State.meExec_kept _ _)
theorem execB_kept (cond : Fin 16) (target : BitVec 13) (s : State) : KeptR s (execB cond target s) := by
  unfold execB
  refine KeptR.mk ?_
  refine State.whenUp_kept _ _ fun _ => ?_
  · exact (State.meExec_kept _ _)
theorem execCall_kept (target : BitVec 13) (s : State) : KeptR s (execCall target s) := by
  unfold execCall
  refine KeptR.mk ?_
  refine State.whenUp_kept _ _ fun _ => ?_
  · exact (State.meExec_kept _ _)
theorem execJr_kept (ra : Fin 16) (s : State) : KeptR s (execJr ra s) := by
  unfold execJr
  refine KeptR.mk ?_
  refine State.whenUp_kept _ _ fun _ => ?_
  · exact (State.meExec_kept _ _)
theorem execRet_kept (s : State) : KeptR s (execRet s) := by
  unfold execRet
  refine KeptR.mk ?_
  refine State.whenUp_kept _ _ fun _ => ?_
  · exact (State.meExec_kept _ _)
theorem execYield_kept (s : State) : KeptR s (execYield s) := by
  unfold execYield
  refine KeptR.mk ?_
  refine State.whenUp_kept _ _ fun _ => ?_
  · exact (State.meExec_kept _ _)
theorem execNop_kept (s : State) : KeptR s (execNop s) := by
  unfold execNop
  refine KeptR.mk ?_
  refine State.whenUp_kept _ _ fun _ => ?_
  · exact (State.meExec_kept _ _)
theorem execSched_kept (rd : Fin 16) (ra : Fin 16) (s : State) : KeptR s (execSched rd ra s) := by
  unfold execSched
  refine KeptR.mk ?_
  refine State.whenUp_kept _ _ fun _ => ?_
  · exact (State.meExec_kept _ _)
theorem execCancel_kept (rd : Fin 16) (ra : Fin 16) (s : State) : KeptR s (execCancel rd ra s) := by
  unfold execCancel
  refine KeptR.mk ?_
  refine State.whenUp_kept _ _ fun _ => ?_
  · exact (State.meExec_kept _ _)
theorem execSchedResult_kept (s : State) : KeptR s (execSchedResult s) := by
  unfold execSchedResult
  refine KeptR.mk ?_
  refine State.whenUp_kept _ _ fun _ => ?_
  · exact (State.meResult_kept _)
theorem execEdge_kept (rc : Fin 16) (ra : Fin 16) (rb : Fin 16) (shd : Bool) (chr : Bool) (ch : Fin 64) (s : State) : KeptR s (execEdge rc ra rb shd chr ch s) := by
  unfold execEdge
  refine KeptR.mk ?_
  refine State.whenUp_kept _ _ fun _ => ?_
  · exact (State.meExec_kept _ _)
theorem execSnap_kept (rd : Fin 16) (re : Fin 16) (sel : BitVec 7) (s : State) : KeptR s (execSnap rd re sel s) := by
  unfold execSnap
  refine KeptR.mk ?_
  refine State.whenUp_kept _ _ fun _ => ?_
  · exact (State.meExec_kept _ _)
theorem execAtt_kept (rd : Fin 16) (re : Fin 16) (ra : Fin 16) (dom : BitVec 2) (s : State) : KeptR s (execAtt rd re ra dom s) := by
  unfold execAtt
  refine KeptR.mk ?_
  refine State.whenUp_kept _ _ fun _ => ?_
  · exact (State.meExec_kept _ _)
theorem execSignal_kept (n : Fin 8) (s : State) : KeptR s (execSignal n s) := by
  unfold execSignal
  refine KeptR.mk ?_
  refine State.whenUp_kept _ _ fun _ => ?_
  · exact (State.meExec_kept _ _)
theorem execPost_kept (ra : Fin 16) (rb : Fin 16) (client : Fin 256) (s : State) : KeptR s (execPost ra rb client s) := by
  unfold execPost
  refine KeptR.mk ?_
  refine State.whenUp_kept _ _ fun _ => ?_
  · exact (State.meExec_kept _ _)
theorem execTrap_kept (code : BitVec 16) (s : State) : KeptR s (execTrap code s) := by
  unfold execTrap
  refine KeptR.mk ?_
  refine State.whenUp_kept _ _ fun _ => ?_
  · exact (State.meExec_kept _ _)
theorem execIllegalInstruction_kept (s : State) : KeptR s (execIllegalInstruction s) := by
  unfold execIllegalInstruction
  refine KeptR.mk ?_
  refine State.whenUp_kept _ _ fun _ => ?_
  · exact (State.meIllegal_kept _)
theorem execRequestRelease_kept (s : State) : KeptR s (execRequestRelease s) := by
  unfold execRequestRelease
  refine KeptR.mk ?_
  refine State.whenUp_kept _ _ fun _ => ?_
  · exact (State.meRelease_kept _)
theorem execWatchdogTrap_kept (s : State) : KeptR s (execWatchdogTrap s) := by
  unfold execWatchdogTrap
  refine KeptR.mk ?_
  refine State.whenUp_kept _ _ fun _ => ?_
  · exact (State.meWatchdog_kept _)
theorem execLockstepMismatch_kept (s : State) : KeptR s (execLockstepMismatch s) := by
  unfold execLockstepMismatch
  refine KeptR.mk ?_
  refine State.whenUp_kept _ _ fun _ => ?_
  · exact (State.lockstepMismatch_kept _)

/-! ## ExecPinSeq -/

theorem execPsTick_kept (e : Fin 8) (flips : List (Fin 48 × Fin 32)) (s : State) : KeptR s (execPsTick e flips s) := by
  unfold execPsTick
  refine KeptR.mk ?_
  refine State.whenUp_kept _ _ fun _ => ?_
  · exact (State.psTickWith_kept _ _ _)
theorem execPsEnable_kept (e : Fin 8) (s : State) : KeptR s (execPsEnable e s) := by
  unfold execPsEnable
  refine KeptR.mk ?_
  refine State.whenUp_kept _ _ fun _ => ?_
  · exact (State.psEnable_kept _ _)
theorem execPsDisable_kept (e : Fin 8) (s : State) : KeptR s (execPsDisable e s) := by
  unfold execPsDisable
  refine KeptR.mk ?_
  refine State.whenUp_kept _ _ fun _ => ?_
  · exact (State.psDisable_kept _ _)
theorem execPsCmdHalt_kept (e : Fin 8) (s : State) : KeptR s (execPsCmdHalt e s) := by
  unfold execPsCmdHalt
  refine KeptR.mk ?_
  refine State.whenUp_kept _ _ fun _ => ?_
  · exact (State.psCmdHalt_kept _ _)
theorem execPsCmdGo_kept (e : Fin 8) (s : State) : KeptR s (execPsCmdGo e s) := by
  unfold execPsCmdGo
  refine KeptR.mk ?_
  refine State.whenUp_kept _ _ fun _ => ?_
  · exact (State.psCmdGo_kept _ _)
theorem execPsCmdTxflush_kept (e : Fin 8) (s : State) : KeptR s (execPsCmdTxflush e s) := by
  unfold execPsCmdTxflush
  refine KeptR.mk ?_
  refine State.whenUp_kept _ _ fun _ => ?_
  · exact (State.psTxFlush_kept _ _)
theorem execPsCmdRxflush_kept (e : Fin 8) (s : State) : KeptR s (execPsCmdRxflush e s) := by
  unfold execPsCmdRxflush
  refine KeptR.mk ?_
  refine State.whenUp_kept _ _ fun _ => ?_
  · exact (State.psRxFlush_kept _ _)
theorem execPsTxWrite_kept (p : Path) (e : Fin 8) (w : Word) (s : State) : KeptR s (execPsTxWrite p e w s) := by
  unfold execPsTxWrite
  refine KeptR.mk ?_
  refine State.whenUp_kept _ _ fun _ => ?_
  · exact (State.psTxWrite_kept _ _ _ _)
theorem execPsRxRead_kept (e : Fin 8) (s : State) : KeptR s (execPsRxRead e s) := by
  unfold execPsRxRead
  refine KeptR.mk ?_
  refine State.whenUp_kept _ _ fun _ => ?_
  · refine Kept.ite ?_ ?_
    · refine State.answered_kept _ ?_
      exact (State.psRxRead_kept _ _)
    · refine State.answered_kept _ ?_
      refine KeptP.mk ?_
      exact Kept.refl _

/-! ## ExecAfe -/

theorem execSensOutputChange_kept (n : Fin 16) (v : Nat) (peak : Byte) (trough : Byte) (s : State) : KeptR s (execSensOutputChange n v peak trough s) := by
  unfold execSensOutputChange
  refine KeptR.mk ?_
  refine State.whenUp_kept _ _ fun _ => ?_
  · exact (State.sensChange_kept _ _ _ _ _)
theorem execSpareVisit_kept (e0 : BitVec 68) (e1 : BitVec 68) (b0 : BitVec 68) (b1 : BitVec 68) (s : State) : KeptR s (execSpareVisit e0 e1 b0 b1 s) := by
  unfold execSpareVisit
  refine KeptR.mk ?_
  refine State.whenUp_kept _ _ fun _ => ?_
  · exact (State.spareVisit_kept _ _ _ _ _)
theorem execItripTrip_kept (n : Fin 6) (vs : List Nat) (s : State) : KeptR s (execItripTrip n vs s) := by
  unfold execItripTrip
  refine KeptR.mk ?_
  refine State.whenUp_kept _ _ fun _ => ?_
  · exact (State.itripTrip_kept _ _ _)
theorem execAfeItcmdClear_kept (clr : BitVec 6) (s : State) : KeptR s (execAfeItcmdClear clr s) := by
  unfold execAfeItcmdClear
  refine KeptR.mk ?_
  refine State.whenUp_kept _ _ fun _ => ?_
  · exact (State.writeItcmd_kept _ _)
theorem execAdcTrigger_kept (a : Fin 2) (trig : BitVec 3) (idx : BitVec 6) (s : State) : KeptR s (execAdcTrigger a trig idx s) := by
  unfold execAdcTrigger
  refine KeptR.mk ?_
  refine State.whenUp_kept _ _ fun _ => ?_
  · exact (State.adcEvent_kept _ _ _ _)
theorem execAdcResult_kept (a : Fin 2) (code : BitVec 12) (s : State) : KeptR s (execAdcResult a code s) := by
  unfold execAdcResult
  refine KeptR.mk ?_
  refine State.whenUp_kept _ _ fun _ => ?_
  · exact (State.adcResult_kept _ _ _)
theorem execAdcCmdTrig_kept (a : Fin 2) (s : State) : KeptR s (execAdcCmdTrig a s) := by
  unfold execAdcCmdTrig
  refine KeptR.mk ?_
  refine State.whenUp_kept _ _ fun _ => ?_
  · exact (State.adcEvent_kept _ _ _ _)
theorem execAdcCmdRestart_kept (a : Fin 2) (s : State) : KeptR s (execAdcCmdRestart a s) := by
  unfold execAdcCmdRestart
  refine KeptR.mk ?_
  refine State.whenUp_kept _ _ fun _ => ?_
  · exact (State.adcRestart_kept _ _)
theorem execCalMeasure_kept (lock : Bool) (step : BitVec 6) (err : Nat) (s : State) : KeptR s (execCalMeasure lock step err s) := by
  unfold execCalMeasure
  refine KeptR.mk ?_
  refine State.whenUp_kept _ _ fun _ => ?_
  · exact (State.calMeasure_kept _ _ _ _)
theorem execSigCmdMeasure_kept (l : Fin 4) (s : State) : KeptR s (execSigCmdMeasure l s) := by
  unfold execSigCmdMeasure
  refine KeptR.mk ?_
  refine State.whenUp_kept _ _ fun _ => ?_
  · exact (State.sigMeasure_kept _ _)
theorem execSigCmdEnrol_kept (c : Fin 256) (l : Fin 4) (k : Fin 16) (s : State) : KeptR s (execSigCmdEnrol c l k s) := by
  unfold execSigCmdEnrol
  refine KeptR.mk ?_
  refine State.whenUp_kept _ _ fun _ => ?_
  · exact (State.sigEnrol_kept _ _ _ _)
theorem execSigCmdAbort_kept (s : State) : KeptR s (execSigCmdAbort s) := by
  unfold execSigCmdAbort
  refine KeptR.mk ?_
  refine State.whenUp_kept _ _ fun _ => ?_
  · exact (State.sigAbort_kept _)
theorem execSigMeasurementEnd_kept (f : List Byte) (s : State) : KeptR s (execSigMeasurementEnd f s) := by
  unfold execSigMeasurementEnd
  refine KeptR.mk ?_
  refine State.whenUp_kept _ _ fun _ => ?_
  · exact (State.sigEnd_kept _ _)
theorem execSigWindowTimeout_kept (s : State) : KeptR s (execSigWindowTimeout s) := by
  unfold execSigWindowTimeout
  refine KeptR.mk ?_
  refine State.whenUp_kept _ _ fun _ => ?_
  · exact (State.sigTimeout_kept _)
theorem execSigAutoPeriod_kept (s : State) : KeptR s (execSigAutoPeriod s) := by
  unfold execSigAutoPeriod
  refine KeptR.mk ?_
  refine State.whenUp_kept _ _ fun _ => ?_
  · exact (State.sigAuto_kept _)
theorem execHealthCheck_kept (dac : List Nat) (adc0 : Option Nat) (adc1 : Option Nat) (vref : Bool) (vdda : Nat) (mon : List Nat) (s : State) : KeptR s (execHealthCheck dac adc0 adc1 vref vdda mon s) := by
  unfold execHealthCheck
  refine KeptR.mk ?_
  refine State.whenUp_kept _ _ fun _ => ?_
  · exact (State.healthCheck_kept _ _ _ _ _ _ _)
theorem execItripPairDisagree_kept (n : Fin 6) (differ : Bool) (s : State) : KeptR s (execItripPairDisagree n differ s) := by
  unfold execItripPairDisagree
  refine KeptR.mk ?_
  refine State.whenUp_kept _ _ fun _ => ?_
  · exact (State.itripPair_kept _ _ _)

/-! ## ExecMemory -/

theorem execBankAccessGrant_kept (q : BankReq) (flips : Nat) (s : State) : KeptR s (execBankAccessGrant q flips s) := by
  unfold execBankAccessGrant
  refine KeptR.ite ?_ ?_
  · exact (State.bankGrant_kept _ _ _)
  · refine KeptR.mk ?_
    exact Kept.refl _
theorem execDmaStarve_kept (c : Fin 8) (s : State) : KeptR s (execDmaStarve c s) := by
  unfold execDmaStarve
  refine KeptR.mk ?_
  refine State.whenUp_kept _ _ fun _ => ?_
  · exact (State.dmaStarve_kept _ _)
theorem execCwBaseWrite_kept (n : Fin 16) (w : Word) (s : State) : KeptR s (execCwBaseWrite n w s) := by
  unfold execCwBaseWrite
  refine KeptR.mk ?_
  refine State.whenUp_kept _ _ fun _ => ?_
  · exact (State.writeCwBase_kept _ _ _)
theorem execCwSizeWrite_kept (n : Fin 16) (w : Word) (s : State) : KeptR s (execCwSizeWrite n w s) := by
  unfold execCwSizeWrite
  refine KeptR.mk ?_
  refine State.whenUp_kept _ _ fun _ => ?_
  · exact (State.writeCwSize_kept _ _ _)
theorem execBgTestRegionStart_kept (b : Fin 8) (s : State) : KeptR s (execBgTestRegionStart b s) := by
  unfold execBgTestRegionStart
  refine KeptR.mk ?_
  refine State.whenUp_kept _ _ fun _ => ?_
  · exact (State.bgStart_kept _ _)
theorem execMemTctlWrite_kept (w : Word) (s : State) : KeptR s (execMemTctlWrite w s) := by
  unfold execMemTctlWrite
  refine KeptR.mk ?_
  refine State.whenUp_kept _ _ fun _ => ?_
  · exact (State.writeTctl_kept _ _)
theorem execMemCmdReadmit_kept (b : Fin 8) (s : State) : KeptR s (execMemCmdReadmit b s) := by
  unfold execMemCmdReadmit
  refine KeptR.mk ?_
  refine State.whenUp_kept _ _ fun _ => ?_
  · exact (State.readmit_kept _ _)
theorem execBankReadmitDone_kept (b : Fin 8) (pass : Bool) (word : Fin 4096) (s : State) : KeptR s (execBankReadmitDone b pass word s) := by
  unfold execBankReadmitDone
  refine KeptR.mk ?_
  refine State.whenUp_kept _ _ fun _ => ?_
  · exact (State.readmitDone_kept _ _ _ _)
theorem execDmaEnable_kept (c : Fin 8) (client : Fin 256) (s : State) : KeptR s (execDmaEnable c client s) := by
  unfold execDmaEnable
  refine KeptR.mk ?_
  refine State.whenUp_kept _ _ fun _ => ?_
  · exact (State.dmaEnable_kept _ _ _)
theorem execDmaDisable_kept (c : Fin 8) (s : State) : KeptR s (execDmaDisable c s) := by
  unfold execDmaDisable
  refine KeptR.mk ?_
  refine State.whenUp_kept _ _ fun _ => ?_
  · exact (State.dmaDisable_kept _ _)
theorem execDmaReqPulse_kept (c : Fin 8) (s : State) : KeptR s (execDmaReqPulse c s) := by
  unfold execDmaReqPulse
  refine KeptR.mk ?_
  refine State.whenUp_kept _ _ fun _ => ?_
  · exact (State.dmaPulse_kept _ _)
theorem execDmaBeat_kept (c : Fin 8) (s : State) : KeptR s (execDmaBeat c s) := by
  unfold execDmaBeat
  refine KeptR.mk ?_
  refine State.whenUp_kept _ _ fun _ => ?_
  · exact (State.dmaBeat_kept _ _)

/-! ## ExecIrq -/

theorem execIntcPend_kept (n : Fin 192) (s : State) : KeptR s (execIntcPend n s) := by
  unfold execIntcPend
  refine KeptR.mk ?_
  exact (State.intcPend_kept _ _)
theorem execIntcPsetWrite_kept (k : Fin 6) (w : Word) (s : State) : KeptR s (execIntcPsetWrite k w s) := by
  unfold execIntcPsetWrite
  refine KeptR.mk ?_
  refine State.whenUp_kept _ _ fun _ => ?_
  · exact (State.intcPset_kept _ _ _)
theorem execIntcPclrWrite_kept (k : Fin 6) (w : Word) (s : State) : KeptR s (execIntcPclrWrite k w s) := by
  unfold execIntcPclrWrite
  refine KeptR.mk ?_
  refine State.whenUp_kept _ _ fun _ => ?_
  · exact (State.intcPclr_kept _ _ _)
theorem execIntcEnableWrite_kept (target : Fin 5) (k : Fin 6) (w : Word) (s : State) : KeptR s (execIntcEnableWrite target k w s) := by
  unfold execIntcEnableWrite
  refine KeptR.mk ?_
  refine State.whenUp_kept _ _ fun _ => ?_
  · exact (State.intcEnable_kept _ _ _ _)
theorem execIntcClaim_kept (pin : Fin 4) (s : State) : KeptR s (execIntcClaim pin s) := by
  unfold execIntcClaim
  refine KeptR.mk ?_
  refine State.whenUp_kept _ _ fun _ => ?_
  · refine State.answered_kept _ ?_
    exact (State.intcClaim_kept _ _)
theorem execIntcComplete_kept (pin : Fin 4) (n : BitVec 8) (s : State) : KeptR s (execIntcComplete pin n s) := by
  unfold execIntcComplete
  refine KeptR.mk ?_
  refine State.whenUp_kept _ _ fun _ => ?_
  · exact (State.intcComplete_kept _ _ _)
theorem execSupEntry_kept (s : State) : KeptR s (execSupEntry s) := by
  unfold execSupEntry
  refine KeptR.mk ?_
  refine State.whenUp_kept _ _ fun _ => ?_
  · exact (State.supEntry_kept _)
theorem execSupExit_kept (s : State) : KeptR s (execSupExit s) := by
  unfold execSupExit
  refine KeptR.mk ?_
  refine State.whenUp_kept _ _ fun _ => ?_
  · exact (State.supExit_kept _)

/-! ## HostPort -/

theorem State.takeToken_kept (s : State) (c : Fin 256) : Kept s (State.takeToken s c) := by
  unfold State.takeToken
  refine Kept.ite ?_ ?_
  · exact (State.modClient_kept _ _ _)
  · exact Kept.refl _
theorem State.readWord_kept (s : State) (c : Fin 256) (free : Bool) (missed : Bool) (a : Nat) : KeptQ s (State.readWord s c free missed a) := by
  unfold State.readWord
  try dsimp only
  refine KeptQ.ite ?_ ?_
  · refine KeptQ.mk ?_
    exact Kept.refl _
  · refine KeptQ.ite ?_ ?_
    · refine KeptQ.mk ?_
      exact Kept.refl _
    · refine KeptQ.ite ?_ ?_
      · refine KeptQ.ite ?_ ?_
        · refine KeptQ.mk ?_
          exact (State.modHp_kept _ _)
        · try dsimp only
          split
          · refine KeptQ.mk ?_
            refine Kept.ofP (by assumption) ?_
            exact (State.memRead_kept _ _ _)
          · refine KeptQ.mk ?_
            refine Kept.ofP (by assumption) ?_
            exact (State.memRead_kept _ _ _)
      · refine KeptQ.ite ?_ ?_
        · try dsimp only
          split
          · refine KeptQ.mk ?_
            exact Kept.refl _
          · refine KeptQ.mk ?_
            exact Kept.refl _
        · try dsimp only
          split
          · refine KeptQ.mk ?_
            refine Kept.ofOP (by assumption) ?_
            exact (State.regRead_kept _ _)
          · refine KeptQ.mk ?_
            exact Kept.refl _
theorem State.countRefusal_kept (s : State) (c : Fin 256) (codes : List Nat) : Kept s (State.countRefusal s c codes) := by
  unfold State.countRefusal
  refine Kept.ite ?_ ?_
  · exact (State.countFault_kept _ _)
  · exact Kept.refl _
theorem State.portLevel_kept (s : State) : KeptP s (State.portLevel s) := by
  unfold State.portLevel
  try dsimp only
  split
  · refine KeptP.mk ?_
    exact Kept.refl _
  · refine KeptP.mk ?_
    exact (State.free_kept _)
theorem State.status_kept (s : State) (src : Source) (code : Nat) (haz : Bool) : KeptP s (State.status s src code haz) := by
  unfold State.status
  try dsimp only
  try dsimp only
  split
  · refine KeptP.mk ?_
    refine Kept.trans ?_ (State.modHp_kept _ _)
    exact (State.portLevel_kept _)
  · refine KeptP.mk ?_
    refine Kept.trans ?_ (State.modLink_kept _ _ _)
    exact (State.portLevel_kept _)
theorem State.noteHeader_kept (s : State) (c : Fin 256) (code : Nat) : Kept s (State.noteHeader s c code) := by
  unfold State.noteHeader
  try dsimp only
  refine Kept.trans ?_ (State.countRefusal_kept _ _ _)
  refine Kept.ite ?_ ?_
  · refine Kept.trans ?_ (State.modHp_kept _ _)
    exact (State.hpFlag_kept _ _)
  · exact Kept.refl _
theorem State.enqueue_kept (s : State) (c : Fin 256) (path : Path) (cs : Fin 2) (ws : List (Nat × Word)) : Kept s (State.enqueue s c path cs ws) := by
  unfold State.enqueue
  exact (State.modHp_kept _ _)
theorem State.nopRun_kept (s : State) (src : Source) (op : Nat) (h : Header) : Kept s (State.nopRun s src op h).s :=
  State.noteHeader_kept _ _ _
theorem State.ReadRun.foldl_kept {α : Type} (f : State.ReadRun → α → State.ReadRun) (h : ∀ r a, Kept r.s (f r a).s)
    (l : List α) : ∀ r : State.ReadRun, Kept r.s (l.foldl f r).s := by
  induction l with
  | nil => exact fun r => Kept.refl _
  | cons a l ih =>
    intro r
    rw [List.foldl_cons]
    exact (h r a).trans (ih _)
theorem State.hpWords_kept (s : State) (c : Fin 256) (free : Bool) (missed : Nat → Bool) (as : List Nat) :
    Kept s (State.hpWords s c free missed as).s :=
  State.ReadRun.foldl_kept (fun (r : State.ReadRun) (p : Nat × Nat) =>
    { s := (State.readWord r.s c free (missed p.1) p.2).2.2,
      codes := r.codes ++ [(State.readWord r.s c free (missed p.1) p.2).1],
      data := r.data ++ [(State.readWord r.s c free (missed p.1) p.2).2.1],
      haz := r.haz || (r.s.hp.queue.any (fun e => decide (r.s.nativeAddr e.addr.toNat = r.s.nativeAddr p.2)) ||
        r.s.cyc.hpWas.any (·.1 = r.s.nativeAddr p.2)) })
    (fun r p => State.readWord_kept r.s c free (missed p.1) p.2) ((List.range as.length).zip as) { s := s }
theorem State.readRun_kept (s : State) (src : Source) (h : Header) (n : Nat) (missed : List (Fin 16)) :
    Kept s (State.readRun s src h n missed).s := by
  unfold State.readRun
  have k := State.noteHeader_kept s h.client (s.headerCode src 1 h)
  dsimp only
  revert k
  generalize s.noteHeader h.client (s.headerCode src 1 h) = u
  intro k
  split
  · exact k
  · have t : Kept u (if u.glbOnly then u else u.takeToken h.client) := Kept.ite (Kept.refl u) (State.takeToken_kept _ _)
    have w := k.trans (t.trans (State.hpWords_kept _ h.client u.glbOnly
      (fun k => missed.any fun m => decide (m.val = k)) (h.addrs.take n)))
    exact Kept.ite w (w.trans (State.countRefusal_kept _ _ _))
theorem State.writeRun_kept (s : State) (src : Source) (h : Header) (data : List Word) (hcrc : Byte) :
    Kept s (State.writeRun s src h data hcrc).s := by
  have k := State.noteHeader_kept s h.client (s.headerCode src 2 h)
  unfold State.writeRun
  dsimp only
  revert k
  generalize s.noteHeader h.client (s.headerCode src 2 h) = u
  intro k
  have t := k.trans (State.takeToken_kept u h.client)
  revert t
  generalize u.takeToken h.client = v
  intro t
  split
  · exact k
  split
  · exact t.trans (State.countRefusal_kept _ _ _)
  split
  · exact (t.trans (State.hpFlag_kept v 2)).trans (State.modHp_kept (v.hpFlag 2) fun x => { x with cntCrc := satInc x.cntCrc })
  have l := t.trans (State.portLevel_kept v)
  split
  · exact (Kept.trans l (State.hpFlag_kept _ 4)).trans (State.modHp_kept (v.portLevel.2.hpFlag 4) fun x => { x with cntBusy := satInc x.cntBusy })
  · exact Kept.trans l (State.enqueue_kept _ _ _ _ _)
theorem State.hpFinish_kept (r : State.TxRun) (cs : Fin 2) (op : Nat) (h : Header) (host : List Word) :
    Kept r.s (State.hpFinish r cs op h host) := by
  unfold State.hpFinish
  exact Kept.trans (State.status_kept _ _ _ _) (State.modHp_kept _ _)
theorem State.hpNop_kept (s : State) (cs : Fin 2) (h : Header) : Kept s (State.hpNop s cs h) := by
  unfold State.hpNop
  exact Kept.ite ((State.nopRun_kept s _ _ _).trans (State.hpFinish_kept _ _ _ _ _)) (Kept.refl s)
theorem State.hpRead_kept (s : State) (cs : Fin 2) (h : Header) (missed : List (Fin 16)) :
    Kept s (State.hpRead s cs h missed) := by
  unfold State.hpRead
  exact Kept.ite ((State.readRun_kept s _ _ _ _).trans (State.hpFinish_kept _ _ _ _ _)) (Kept.refl s)
theorem State.hpWrite_kept (s : State) (cs : Fin 2) (h : Header) (data : List Word) (hcrc : Byte) :
    Kept s (State.hpWrite s cs h data hcrc) := by
  unfold State.hpWrite
  exact Kept.ite ((State.writeRun_kept s _ _ _ _).trans (State.hpFinish_kept _ _ _ _ _)) (Kept.refl s)
theorem State.hpBadhdr_kept (s : State) (cs : Fin 2) (op : Fin 4) (h : Header) : Kept s (State.hpBadhdr s cs op h) := by
  unfold State.hpBadhdr
  refine Kept.ite ?_ (Kept.refl s)
  exact (State.nopRun_kept s (.hp cs) op.val h).trans (State.hpFinish_kept
    { State.nopRun s (.hp cs) op.val h with data := if op = 1 then List.replicate h.words 0 else [] } _ _ _ _)
theorem State.partRun_kept (s : State) (cs : Fin 2) (p : HpPart) : Kept s (State.partRun s cs p) := by
  cases p with
  | early => exact Kept.refl s
  | nop h => exact State.nopRun_kept _ _ _ _
  | read h n missed => exact State.readRun_kept _ _ _ _ _
  | write h data hcrc => exact State.writeRun_kept _ _ _ _ _
theorem State.hpAbort_kept (s : State) (cs : Fin 2) (part : HpPart) : Kept s (State.hpAbort s cs part) := by
  unfold State.hpAbort
  refine Kept.ite ?_ ?_
  · refine Kept.trans ?_ (State.modHp_kept _ _)
    refine Kept.trans ?_ (State.hpFlag_kept _ _)
    exact (State.partRun_kept _ _ _)
  · exact Kept.refl _
theorem State.hpCollision_kept (s : State) (cs : Fin 2) (part : HpPart) : Kept s (State.hpCollision s cs part) := by
  unfold State.hpCollision
  refine Kept.ite ?_ ?_
  · exact (State.hpAbort_kept _ _ _)
  · exact Kept.refl _
theorem State.carryOut_kept (s : State) (e : HpEntry) : KeptP s (State.carryOut s e) := by
  unfold State.carryOut
  try dsimp only
  refine KeptP.ite ?_ ?_
  · refine KeptP.mk ?_
    exact Kept.refl _
  · refine KeptP.ite ?_ ?_
    · refine KeptP.mk ?_
      exact Kept.refl _
    · refine KeptP.ite ?_ ?_
      · try dsimp only
        split
        · refine KeptP.mk ?_
          refine Kept.ofP (by assumption) ?_
          exact (State.memWrite_kept _ _ _ _)
        · refine KeptP.mk ?_
          refine Kept.ofP (by assumption) ?_
          exact (State.memWrite_kept _ _ _ _)
        · refine KeptP.mk ?_
          refine Kept.ofP (by assumption) ?_
          exact (State.memWrite_kept _ _ _ _)
      · try dsimp only
        refine KeptP.mk ?_
        exact Kept.refl _
theorem State.carryOut_ok (s : State) (e : HpEntry) {t : State} (h : (State.carryOut s e).1 = .ok t) : Kept s t := by
  unfold State.carryOut at h
  dsimp only at h
  split at h
  · cases h
  split at h
  · cases h
  split at h
  · have k := State.memWrite_kept s (s.nativeAddr e.addr.toNat) 2 e.data
    split at h
    · cases h
      exact Kept.ofP (by assumption) k
    · cases h
    · cases h
  · cases h
    exact (Kept.getD (State.clientWrite_kept _ _ _ _ _) (Kept.refl s)).trans (State.modCyc_kept _ _)
theorem State.hpRetire_kept (s : State) : Kept s (State.hpRetire s) := by
  unfold State.hpRetire
  dsimp only
  split
  · exact Kept.refl s
  · rename_i e q _
    refine Kept.ite (Kept.refl s) ?_
    have m : ∀ f, Kept s ((s.usePort (s.portOf (s.nativeAddr e.addr.toNat) true)).modHp f) := fun f =>
      (State.usePort_kept _ _).trans (State.modHp_kept _ _)
    split
    · rename_i h
      exact (m _).trans (State.carryOut_ok _ _ (congrArg Prod.fst h))
    · exact ((m _).trans (Kept.ofP (by assumption) (State.carryOut_kept _ _))).trans (State.queueFail_kept _ _ _)
theorem State.xchErr_kept (s : State) (l : Fin 4) : Kept s (State.xchErr s l) := by
  unfold State.xchErr
  exact (State.hlFlag_kept _ _ _)
theorem State.xchReply_kept (r : State.TxRun) (l : Fin 4) (slot : Fin 256) (op : Nat) (h : Header) (host : List Word) :
    Kept r.s (State.xchReply r l slot op h host) := by
  unfold State.xchReply
  exact Kept.trans (State.status_kept _ _ _ _) (State.modLink_kept _ _ _)
theorem State.xchNop_kept (s : State) (l : Fin 4) (slot : Fin 256) (op3 : Bool) (h : Header) (sub : Bool) :
    Kept s (State.xchNop s l slot op3 h sub) := by
  unfold State.xchNop
  exact Kept.ite (Kept.refl s) (Kept.ite (State.xchErr_kept _ _)
    ((State.nopRun_kept s _ _ _).trans (State.xchReply_kept _ _ _ _ _ _)))
theorem State.xchRead_kept (s : State) (l : Fin 4) (slot : Fin 256) (h : Header) (missed : List (Fin 16)) (sub : Bool) :
    Kept s (State.xchRead s l slot h missed sub) := by
  unfold State.xchRead
  exact Kept.ite (Kept.refl s) (Kept.ite (State.xchErr_kept _ _)
    ((State.readRun_kept s _ _ _ _).trans (State.xchReply_kept _ _ _ _ _ _)))
theorem State.xchWrite_kept (s : State) (l : Fin 4) (slot : Fin 256) (h : Header) (data : List Word) (hcrc : Byte)
    (sub : Bool) : Kept s (State.xchWrite s l slot h data hcrc sub) := by
  unfold State.xchWrite
  exact Kept.ite (Kept.refl s) (Kept.ite (State.xchErr_kept _ _)
    ((State.writeRun_kept s _ _ _ _).trans (State.xchReply_kept _ _ _ _ _ _)))

/-! ## ExecHost -/

theorem execHpNop_kept (cs : Fin 2) (h : Header) (s : State) : KeptR s (execHpNop cs h s) := by
  unfold execHpNop
  refine KeptR.mk ?_
  refine State.whenUp_kept _ _ fun _ => ?_
  · exact (State.hpNop_kept _ _ _)
theorem execHpRead_kept (cs : Fin 2) (h : Header) (missed : List (Fin 16)) (s : State) : KeptR s (execHpRead cs h missed s) := by
  unfold execHpRead
  refine KeptR.mk ?_
  refine State.whenUp_kept _ _ fun _ => ?_
  · exact (State.hpRead_kept _ _ _ _)
theorem execHpWrite_kept (cs : Fin 2) (h : Header) (data : List Word) (hcrc : Byte) (s : State) : KeptR s (execHpWrite cs h data hcrc s) := by
  unfold execHpWrite
  refine KeptR.mk ?_
  refine State.whenUp_kept _ _ fun _ => ?_
  · exact (State.hpWrite_kept _ _ _ _ _)
theorem execHpBadhdr_kept (cs : Fin 2) (op : Fin 4) (h : Header) (s : State) : KeptR s (execHpBadhdr cs op h s) := by
  unfold execHpBadhdr
  refine KeptR.mk ?_
  refine State.whenUp_kept _ _ fun _ => ?_
  · exact (State.hpBadhdr_kept _ _ _ _)
theorem execHpAbort_kept (cs : Fin 2) (part : HpPart) (s : State) : KeptR s (execHpAbort cs part s) := by
  unfold execHpAbort
  refine KeptR.mk ?_
  refine State.whenUp_kept _ _ fun _ => ?_
  · exact (State.hpAbort_kept _ _ _)
theorem execHpCsCollision_kept (cs : Fin 2) (part : HpPart) (s : State) : KeptR s (execHpCsCollision cs part s) := by
  unfold execHpCsCollision
  refine KeptR.mk ?_
  refine State.whenUp_kept _ _ fun _ => ?_
  · exact (State.hpCollision_kept _ _ _)
theorem execHpQueueRetire_kept (s : State) : KeptR s (execHpQueueRetire s) := by
  unfold execHpQueueRetire
  refine KeptR.mk ?_
  refine State.whenUp_kept _ _ fun _ => ?_
  · exact (State.hpRetire_kept _)
theorem execPwrStateRead_kept (s : State) : KeptR s (execPwrStateRead s) := by
  unfold execPwrStateRead
  refine KeptR.mk ?_
  refine State.whenUp_kept _ _ fun _ => ?_
  · refine State.answered_kept _ ?_
    exact (State.pwrStateRead_kept _)
theorem execTtLatRead_kept (s : State) : KeptR s (execTtLatRead s) := by
  unfold execTtLatRead
  refine KeptR.mk ?_
  refine State.whenUp_kept _ _ fun _ => ?_
  · refine State.answered_kept _ ?_
    exact (State.ttLatRead_kept _)
theorem execDmaRemRead_kept (c : Fin 8) (s : State) : KeptR s (execDmaRemRead c s) := by
  unfold execDmaRemRead
  refine KeptR.mk ?_
  refine State.whenUp_kept _ _ fun _ => ?_
  · exact (State.answerReg_kept _ _)
theorem execHpCntRead_kept (k : Fin 3) (s : State) : KeptR s (execHpCntRead k s) := by
  unfold execHpCntRead
  refine KeptR.mk ?_
  refine State.whenUp_kept _ _ fun _ => ?_
  · refine State.answered_kept _ ?_
    exact (State.hpCntRead_kept _ _)
theorem execHlCntRead_kept (l : Fin 4) (k : Fin 4) (s : State) : KeptR s (execHlCntRead l k s) := by
  unfold execHlCntRead
  refine KeptR.mk ?_
  refine State.whenUp_kept _ _ fun _ => ?_
  · exact (State.answerReg_kept _ _)
theorem execSmbCntRead_kept (k : Fin 2) (s : State) : KeptR s (execSmbCntRead k s) := by
  unfold execSmbCntRead
  refine KeptR.mk ?_
  refine State.whenUp_kept _ _ fun _ => ?_
  · exact (State.answerReg_kept _ _)
theorem execMspCntRead_kept (m : Fin 2) (k : Fin 2) (s : State) : KeptR s (execMspCntRead m k s) := by
  unfold execMspCntRead
  refine KeptR.mk ?_
  refine State.whenUp_kept _ _ fun _ => ?_
  · exact (State.answerReg_kept _ _)
theorem execSvcCntRead_kept (s : State) : KeptR s (execSvcCntRead s) := by
  unfold execSvcCntRead
  refine KeptR.mk ?_
  refine State.whenUp_kept _ _ fun _ => ?_
  · refine State.answered_kept _ ?_
    exact (State.svcCntRead_kept _)
theorem execRsCntRead_kept (s : State) : KeptR s (execRsCntRead s) := by
  unfold execRsCntRead
  refine KeptR.mk ?_
  refine State.whenUp_kept _ _ fun _ => ?_
  · exact (State.answerReg_kept _ _)
theorem execRegisterWrite_kept (p : Path) (c : Fin 256) (a : BitVec 20) (w : Word) (s : State) : KeptR s (execRegisterWrite p c a w s) := by
  unfold execRegisterWrite
  refine KeptR.mk ?_
  refine State.whenUp_kept _ _ fun _ => ?_
  · exact (State.registerWrite_kept _ _ _ _ _)

/-! ## ExecSeating -/

theorem execScRecordWrite_kept (sup : Bool) (c : Fin 256) (n : Fin 256) (k : Fin 8) (w : Word) (s : State) : KeptR s (execScRecordWrite sup c n k w s) := by
  unfold execScRecordWrite
  refine KeptR.mk ?_
  refine State.whenUp_kept _ _ fun _ => ?_
  · exact (State.recordWrite_kept _ _ _ _ _ _)
theorem execScEnSet_kept (sup : Bool) (c : Fin 256) (n : Fin 256) (w : Word) (s : State) : KeptR s (execScEnSet sup c n w s) := by
  unfold execScEnSet
  refine KeptR.mk ?_
  refine State.whenUp_kept _ _ fun _ => ?_
  · exact (State.recordWrite_kept _ _ _ _ _ _)
theorem execScEnClear_kept (sup : Bool) (c : Fin 256) (n : Fin 256) (w : Word) (s : State) : KeptR s (execScEnClear sup c n w s) := by
  unfold execScEnClear
  refine KeptR.mk ?_
  refine State.whenUp_kept _ _ fun _ => ?_
  · exact (State.recordWrite_kept _ _ _ _ _ _)
theorem execScCmdFence_kept (n : Fin 256) (s : State) : KeptR s (execScCmdFence n s) := by
  unfold execScCmdFence
  refine KeptR.mk ?_
  refine State.whenUp_kept _ _ fun _ => ?_
  · exact (State.scCmd_kept _ _)
theorem execScCmdRestore_kept (n : Fin 256) (s : State) : KeptR s (execScCmdRestore n s) := by
  unfold execScCmdRestore
  refine KeptR.mk ?_
  refine State.whenUp_kept _ _ fun _ => ?_
  · exact (State.scCmd_kept _ _)
theorem execScCmdClrcnt_kept (n : Fin 256) (s : State) : KeptR s (execScCmdClrcnt n s) := by
  unfold execScCmdClrcnt
  refine KeptR.mk ?_
  refine State.whenUp_kept _ _ fun _ => ?_
  · exact (State.scCmd_kept _ _)
theorem execRateToken_kept (c : Fin 256) (s : State) : KeptR s (execRateToken c s) := by
  unfold execRateToken
  refine KeptR.mk ?_
  refine State.whenUp_kept _ _ fun _ => ?_
  · exact (State.rateToken_kept _ _)
theorem execEventAdmit_kept (s : State) : KeptR s (execEventAdmit s) := by
  unfold execEventAdmit
  refine KeptR.mk ?_
  refine State.whenUp_kept _ _ fun _ => ?_
  · exact (State.eventAdmit_kept _)
theorem execEvPop_kept (c : Fin 256) (s : State) : KeptR s (execEvPop c s) := by
  unfold execEvPop
  refine KeptR.mk ?_
  refine State.whenUp_kept _ _ fun _ => ?_
  · refine State.answered_kept _ ?_
    exact (State.evPop_kept _ _)
theorem execBufAlloc_kept (c : Fin 256) (s : State) : KeptR s (execBufAlloc c s) := by
  unfold execBufAlloc
  refine KeptR.mk ?_
  refine State.whenUp_kept _ _ fun _ => ?_
  · refine State.answered_kept _ ?_
    exact (State.bufAlloc_kept _ _)
theorem execBufCmdFree_kept (c : Fin 256) (handle : BitVec 16) (s : State) : KeptR s (execBufCmdFree c handle s) := by
  unfold execBufCmdFree
  refine KeptR.mk ?_
  refine State.whenUp_kept _ _ fun _ => ?_
  · exact (State.bufCmd_kept _ _ _)
theorem execBufCmdSend_kept (c : Fin 256) (l : Fin 4) (handle : BitVec 16) (s : State) : KeptR s (execBufCmdSend c l handle s) := by
  unfold execBufCmdSend
  refine KeptR.mk ?_
  refine State.whenUp_kept _ _ fun _ => ?_
  · exact (State.bufCmd_kept _ _ _)
theorem execBufCmdRequest_kept (c : Fin 256) (l : Fin 4) (handle : BitVec 16) (s : State) : KeptR s (execBufCmdRequest c l handle s) := by
  unfold execBufCmdRequest
  refine KeptR.mk ?_
  refine State.whenUp_kept _ _ fun _ => ?_
  · exact (State.bufCmd_kept _ _ _)
theorem execRequestTimeout_kept (c : Fin 256) (l : Fin 4) (msgid : BitVec 12) (s : State) : KeptR s (execRequestTimeout c l msgid s) := by
  unfold execRequestTimeout
  refine KeptR.mk ?_
  refine State.whenUp_kept _ _ fun _ => ?_
  · exact (State.requestTimeout_kept _ _ _ _)

/-! ## ExecLinks -/

theorem execLocalFrameBoundary_kept (parts : List Nat) (s : State) : KeptR s (execLocalFrameBoundary parts s) := by
  unfold execLocalFrameBoundary
  refine KeptR.mk ?_
  refine State.whenUp_kept _ _ fun _ => ?_
  · refine Kept.trans ?_ (State.supCopy_kept _)
    exact (State.frameBoundary_kept _ _)
theorem execHlFrameReceived_kept (l : Fin 4) (comma : Bool) (k1 : Bool) (o1 : Option Byte) (bytes : List (Option Byte)) (s : State) : KeptR s (execHlFrameReceived l comma k1 o1 bytes s) := by
  unfold execHlFrameReceived
  refine KeptR.mk ?_
  refine State.whenUp_kept _ _ fun _ => ?_
  · refine Kept.trans ?_ (State.campLink_kept _ _)
    exact (State.hlFrame_kept _ _ _ _ _ _)
theorem execMdcFrameReceived_kept (l : Fin 4) (octets : List Byte) (bad : Bool) (s : State) : KeptR s (execMdcFrameReceived l octets bad s) := by
  unfold execMdcFrameReceived
  refine KeptR.mk ?_
  refine State.whenUp_kept _ _ fun _ => ?_
  · refine Kept.trans ?_ (State.campLink_kept _ _)
    exact (State.mdcReceive_kept _ _ _ _)
theorem execMdcTxStart_kept (l : Fin 4) (s : State) : KeptR s (execMdcTxStart l s) := by
  unfold execMdcTxStart
  refine KeptR.mk ?_
  refine State.whenUp_kept _ _ fun _ => ?_
  · exact (State.mdcTxStart_kept _ _)
theorem execMdcRetry_kept (l : Fin 4) (s : State) : KeptR s (execMdcRetry l s) := by
  unfold execMdcRetry
  refine KeptR.mk ?_
  refine State.whenUp_kept _ _ fun _ => ?_
  · exact (State.mdcRetry_kept _ _)
theorem execMdcGiveup_kept (l : Fin 4) (s : State) : KeptR s (execMdcGiveup l s) := by
  unfold execMdcGiveup
  refine KeptR.mk ?_
  refine State.whenUp_kept _ _ fun _ => ?_
  · exact (State.mdcGiveup_kept _ _)
theorem execNodeXchNop_kept (l : Fin 4) (slot : Fin 256) (op3 : Bool) (h : Header) (sub : Bool) (s : State) : KeptR s (execNodeXchNop l slot op3 h sub s) := by
  unfold execNodeXchNop
  refine KeptR.mk ?_
  refine State.whenUp_kept _ _ fun _ => ?_
  · exact (State.xchNop_kept _ _ _ _ _ _)
theorem execNodeXchRead_kept (l : Fin 4) (slot : Fin 256) (h : Header) (missed : List (Fin 16)) (sub : Bool) (s : State) : KeptR s (execNodeXchRead l slot h missed sub s) := by
  unfold execNodeXchRead
  refine KeptR.mk ?_
  refine State.whenUp_kept _ _ fun _ => ?_
  · exact (State.xchRead_kept _ _ _ _ _ _)
theorem execNodeXchWrite_kept (l : Fin 4) (slot : Fin 256) (h : Header) (data : List Word) (hcrc : Byte) (sub : Bool) (s : State) : KeptR s (execNodeXchWrite l slot h data hcrc sub s) := by
  unfold execNodeXchWrite
  refine KeptR.mk ?_
  refine State.whenUp_kept _ _ fun _ => ?_
  · exact (State.xchWrite_kept _ _ _ _ _ _ _)
theorem execHlEnable_kept (l : Fin 4) (s : State) : KeptR s (execHlEnable l s) := by
  unfold execHlEnable
  refine KeptR.mk ?_
  refine State.whenUp_kept _ _ fun _ => ?_
  · refine Kept.trans ?_ (State.settleMsp_kept _ _)
    exact (State.hlEnable_kept _ _)
theorem execHlCmdResync_kept (l : Fin 4) (s : State) : KeptR s (execHlCmdResync l s) := by
  unfold execHlCmdResync
  refine KeptR.mk ?_
  refine State.whenUp_kept _ _ fun _ => ?_
  · exact (State.hlResync_kept _ _)
theorem execTsiCmdCopy_kept (c : Fin 256) (s : State) : KeptR s (execTsiCmdCopy c s) := by
  unfold execTsiCmdCopy
  refine KeptR.mk ?_
  refine State.whenUp_kept _ _ fun _ => ?_
  · exact (State.tsiCopy_kept _ _)
theorem execTsiCopyDone_kept (s : State) : KeptR s (execTsiCopyDone s) := by
  unfold execTsiCopyDone
  refine KeptR.mk ?_
  refine State.whenUp_kept _ _ fun _ => ?_
  · exact (State.copyDone_kept _)
theorem execTsiSwapReq_kept (c : Fin 256) (admMask : BitVec 4) (s : State) : KeptR s (execTsiSwapReq c admMask s) := by
  unfold execTsiSwapReq
  refine KeptR.mk ?_
  refine State.whenUp_kept _ _ fun _ => ?_
  · exact (State.tsiSwapReq_kept _ _ _)
theorem execTsiSwapCancel_kept (c : Fin 256) (s : State) : KeptR s (execTsiSwapCancel c s) := by
  unfold execTsiSwapCancel
  refine KeptR.mk ?_
  refine State.whenUp_kept _ _ fun _ => ?_
  · exact (State.tsiCancel_kept _ _)
theorem execTsiEntryWrite_kept (c : Fin 256) (k : Fin 2560) (w : Word) (s : State) : KeptR s (execTsiEntryWrite c k w s) := by
  unfold execTsiEntryWrite
  refine KeptR.mk ?_
  refine State.whenUp_kept _ _ fun _ => ?_
  · exact (State.writeEntry_kept _ _ _ _)
theorem execHlCommaDetect_kept (l : Fin 4) (k285 : Bool) (complement : Bool) (s : State) : KeptR s (execHlCommaDetect l k285 complement s) := by
  unfold execHlCommaDetect
  refine KeptR.mk ?_
  refine State.whenUp_kept _ _ fun _ => ?_
  · exact (State.hlComma_kept _ _ _ _)
theorem execHlRawLosChange_kept (l : Fin 4) (los : Bool) (s : State) : KeptR s (execHlRawLosChange l los s) := by
  unfold execHlRawLosChange
  refine KeptR.mk ?_
  refine State.whenUp_kept _ _ fun _ => ?_
  · exact (State.hlLos_kept _ _ _)

/-! ## ExecPerf -/

theorem execPmSecond_kept (s : State) : KeptR s (execPmSecond s) := by
  unfold execPmSecond
  refine KeptR.mk ?_
  refine State.whenUp_kept _ _ fun _ => ?_
  · exact (State.pmSecond_kept _)
theorem execPmBinPlace_kept (s : State) : KeptR s (execPmBinPlace s) := by
  unfold execPmBinPlace
  refine KeptR.mk ?_
  refine State.whenUp_kept _ _ fun _ => ?_
  · exact (State.pmBinPlace_kept _)
theorem execRunTimeMs_kept (s : State) : KeptR s (execRunTimeMs s) := by
  unfold execRunTimeMs
  refine KeptR.mk ?_
  refine State.whenUp_kept _ _ fun _ => ?_
  · exact (State.runTimeMs_kept _)
theorem execPmSelWrite_kept (w : Word) (s : State) : KeptR s (execPmSelWrite w s) := by
  unfold execPmSelWrite
  refine KeptR.mk ?_
  refine State.whenUp_kept _ _ fun _ => ?_
  · exact (State.writePmSel_kept _ _)
theorem execPmWinReady_kept (s : State) : KeptR s (execPmWinReady s) := by
  unfold execPmWinReady
  refine KeptR.mk ?_
  refine State.whenUp_kept _ _ fun _ => ?_
  · exact (State.pmWinReady_kept _)
theorem execRsRecordWrite_kept (pages : Nat) (retries : Nat) (fails : Nat) (badErase : Bool) (s : State) : KeptR s (execRsRecordWrite pages retries fails badErase s) := by
  unfold execRsRecordWrite
  refine KeptR.mk ?_
  refine State.whenUp_kept _ _ fun _ => ?_
  · exact (State.rsRecordWrite_kept _ _ _ _ _)
theorem execRsScan_kept (bad : List Nat) (s : State) : KeptR s (execRsScan bad s) := by
  unfold execRsScan
  refine KeptR.mk ?_
  refine State.whenUp_kept _ _ fun _ => ?_
  · exact (State.rsScan_kept _ _)

/-! ## ExecSerial -/

theorem execSmbXferWrite_kept (k : Fin 2) (c : Fin 256) (w : Word) (s : State) : KeptR s (execSmbXferWrite k c w s) := by
  unfold execSmbXferWrite
  refine KeptR.mk ?_
  refine State.whenUp_kept _ _ fun _ => ?_
  · exact (State.smbXfer_kept _ _ _ _)
theorem execSmbTransferEnd_kept (k : Fin 2) (code : Fin 16) (data : List Byte) (s : State) : KeptR s (execSmbTransferEnd k code data s) := by
  unfold execSmbTransferEnd
  refine KeptR.mk ?_
  refine State.whenUp_kept _ _ fun _ => ?_
  · exact (State.smbEnd_kept _ _ _ _)
theorem execSmbClockLowTimeout_kept (k : Fin 2) (s : State) : KeptR s (execSmbClockLowTimeout k s) := by
  unfold execSmbClockLowTimeout
  refine KeptR.mk ?_
  refine State.whenUp_kept _ _ fun _ => ?_
  · exact (State.smbTimeout_kept _ _)
theorem execSmbCmdAbort_kept (k : Fin 2) (s : State) : KeptR s (execSmbCmdAbort k s) := by
  unfold execSmbCmdAbort
  refine KeptR.mk ?_
  refine State.whenUp_kept _ _ fun _ => ?_
  · exact (State.smbAbort_kept _ _)
theorem execSmbCmdClrstuck_kept (k : Fin 2) (s : State) : KeptR s (execSmbCmdClrstuck k s) := by
  unfold execSmbCmdClrstuck
  refine KeptR.mk ?_
  refine State.whenUp_kept _ _ fun _ => ?_
  · exact (State.smbClrStuck_kept _ _)
theorem execSmbEnable_kept (k : Fin 2) (s : State) : KeptR s (execSmbEnable k s) := by
  unfold execSmbEnable
  refine KeptR.mk ?_
  refine State.whenUp_kept _ _ fun _ => ?_
  · exact (State.smbEnable_kept _ _)
theorem execSmbBusCheck_kept (k : Fin 2) (sda : Bool) (s : State) : KeptR s (execSmbBusCheck k sda s) := by
  unfold execSmbBusCheck
  refine KeptR.mk ?_
  refine State.whenUp_kept _ _ fun _ => ?_
  · exact (State.smbBusCheck_kept _ _ _)
theorem execSmbBusClear_kept (k : Fin 2) (freed : Bool) (s : State) : KeptR s (execSmbBusClear k freed s) := by
  unfold execSmbBusClear
  refine KeptR.mk ?_
  refine State.whenUp_kept _ _ fun _ => ?_
  · exact (State.smbBusClear_kept _ _ _)
theorem execSmbStuckRetry_kept (k : Fin 2) (s : State) : KeptR s (execSmbStuckRetry k s) := by
  unfold execSmbStuckRetry
  refine KeptR.mk ?_
  refine State.whenUp_kept _ _ fun _ => ?_
  · exact (State.smbRetry_kept _ _)
theorem execPackSwapRead_kept (s : State) : KeptR s (execPackSwapRead s) := by
  unfold execPackSwapRead
  refine KeptR.mk ?_
  refine State.whenUp_kept _ _ fun _ => ?_
  · exact (State.packTrigger_kept _)
theorem execSmbPcmdReread_kept (s : State) : KeptR s (execSmbPcmdReread s) := by
  unfold execSmbPcmdReread
  refine KeptR.mk ?_
  refine State.whenUp_kept _ _ fun _ => ?_
  · exact (State.packTrigger_kept _)
theorem execPackRetry_kept (s : State) : KeptR s (execPackRetry s) := by
  unfold execPackRetry
  refine KeptR.mk ?_
  refine State.whenUp_kept _ _ fun _ => ?_
  · exact (State.packRetry_kept _)
theorem execPackAuthWait_kept (s : State) : KeptR s (execPackAuthWait s) := by
  unfold execPackAuthWait
  refine KeptR.mk ?_
  refine State.whenUp_kept _ _ fun _ => ?_
  · exact (State.packAuthWait_kept _)
theorem execPackPoll_kept (s : State) : KeptR s (execPackPoll s) := by
  unfold execPackPoll
  refine KeptR.mk ?_
  refine State.whenUp_kept _ _ fun _ => ?_
  · exact (State.packPoll_kept _)
theorem execMspRxFrame_kept (m : Fin 2) (s : State) : KeptR s (execMspRxFrame m s) := by
  unfold execMspRxFrame
  refine KeptR.mk ?_
  refine State.whenUp_kept _ _ fun _ => ?_
  · exact (State.mspRxFrame_kept _ _)
theorem execMspRxByte_kept (m : Fin 2) (b : Byte) (ferr : Bool) (s : State) : KeptR s (execMspRxByte m b ferr s) := by
  unfold execMspRxByte
  refine KeptR.mk ?_
  refine State.whenUp_kept _ _ fun _ => ?_
  · exact (State.mspRxByte_kept _ _ _ _)
theorem execMspTxByte_kept (m : Fin 2) (cts : Bool) (s : State) : KeptR s (execMspTxByte m cts s) := by
  unfold execMspTxByte
  refine KeptR.mk ?_
  refine State.whenUp_kept _ _ fun _ => ?_
  · exact (State.mspTxByte_kept _ _ _)

/-! ## ExecFlt -/

theorem execRollCallSlot_kept (answer : Option Bool) (s : State) : KeptR s (execRollCallSlot answer s) := by
  unfold execRollCallSlot
  refine KeptR.mk ?_
  refine State.whenUp_kept _ _ fun _ => ?_
  · exact (State.rollCall_kept _ _)
theorem execFltRecord_kept (f : Option Internal) (s : State) : KeptR s (execFltRecord f s) := by
  unfold execFltRecord
  refine KeptR.mk ?_
  refine State.whenUp_kept _ _ fun _ => ?_
  · refine State.watchLasting_kept _ fun _ => ?_
    · exact (State.fltRecord_kept _ _)
theorem execCensusMismatch_kept (s : State) : KeptR s (execCensusMismatch s) := by
  unfold execCensusMismatch
  refine KeptR.mk ?_
  refine State.whenUp_kept _ _ fun _ => ?_
  · refine State.watchLasting_kept _ fun _ => ?_
    · exact (State.censusMismatch_kept _)
theorem execSupRestart_kept (s : State) : KeptR s (execSupRestart s) := by
  unfold execSupRestart
  refine KeptR.mk ?_
  refine State.whenUp_kept _ _ fun _ => ?_
  · refine Kept.ite ?_ ?_
    · refine Kept.trans ?_ (State.updResume_kept _)
      exact (State.supRestart_kept _)
    · exact Kept.refl _
theorem execFltCmdFence_kept (kind : Fin 16) (index : Fin 256) (s : State) : KeptR s (execFltCmdFence kind index s) := by
  unfold execFltCmdFence
  refine KeptR.mk ?_
  refine State.whenUp_kept _ _ fun _ => ?_
  · exact (State.cmdFence_kept _ _ _)
theorem execFltCmdReadmit_kept (kind : Fin 16) (index : Fin 256) (s : State) : KeptR s (execFltCmdReadmit kind index s) := by
  unfold execFltCmdReadmit
  refine KeptR.mk ?_
  refine State.whenUp_kept _ _ fun _ => ?_
  · exact (State.cmdReadmit_kept _ _ _)
theorem execFltCmdClrlog_kept (s : State) : KeptR s (execFltCmdClrlog s) := by
  unfold execFltCmdClrlog
  refine KeptR.mk ?_
  refine State.whenUp_kept _ _ fun _ => ?_
  · exact (State.cmdClrlog_kept _)
theorem execFltLogfullClear_kept (s : State) : KeptR s (execFltLogfullClear s) := by
  unfold execFltLogfullClear
  refine KeptR.mk ?_
  refine State.whenUp_kept _ _ fun _ => ?_
  · exact (State.clearLogfull_kept _)

/-! ## Service -/

theorem State.svcAnswer_kept (s : State) (type : Nat) (tag : Byte) (payload : List Byte) : Kept s (State.svcAnswer s type tag payload) := by
  unfold State.svcAnswer
  exact (State.modSvc_kept _ _)
theorem State.svcDiscard_kept (s : State) : Kept s (State.svcDiscard s) := by
  unfold State.svcDiscard
  exact (State.modSvc_kept _ _)
theorem State.postSession_kept (s : State) (reason : Nat) (opened : Bool) : Kept s (State.postSession s reason opened) := by
  unfold State.postSession
  refine Kept.ite ?_ ?_
  · exact Kept.refl _
  · exact (State.postAll_kept _ _ _ _ _ _ _ _ _)
theorem State.svcHello_kept (s : State) (tag : Byte) : Kept s (State.svcHello s tag) := by
  unfold State.svcHello
  refine Kept.ite ?_ ?_
  · exact Kept.refl _
  · try dsimp only
    refine Kept.trans ?_ (State.svcAnswer_kept _ _ _ _)
    refine Kept.trans ?_ (State.modSvc_kept _ _)
    exact (State.randomBytes_kept _ _)
theorem State.writePassRecord_kept (s : State) (r : ClientRec) : Kept s (State.writePassRecord s r) := by
  unfold State.writePassRecord
  try dsimp only
  refine Kept.trans ?_ (State.recordWrite_kept _ _ _ _ _ _)
  refine Kept.trans ?_ (State.recordWrite_kept _ _ _ _ _ _)
  refine Kept.trans ?_ (State.recordWrite_kept _ _ _ _ _ _)
  refine Kept.trans ?_ (State.recordWrite_kept _ _ _ _ _ _)
  refine Kept.trans ?_ (State.recordWrite_kept _ _ _ _ _ _)
  exact (State.recordWrite_kept _ _ _ _ _ _)
theorem State.openSession_kept (s : State) (p : List Byte) : Kept s (State.openSession s p) := by
  unfold State.openSession
  try dsimp only
  refine Kept.trans ?_ (State.postSession_kept _ _ _)
  refine Kept.trans ?_ (State.svcFlag_kept _ _)
  refine Kept.trans ?_ (State.modSvc_kept _ _)
  refine Kept.ite ?_ ?_
  · exact Kept.refl _
  · exact (State.writePassRecord_kept _ _)
theorem State.svcPass_kept (s : State) (tag : Byte) (p : List Byte) : Kept s (State.svcPass s tag p) := by
  unfold State.svcPass
  refine Kept.ite ?_ ?_
  · exact Kept.refl _
  · refine Kept.ite ?_ ?_
    · exact (State.svcAnswer_kept _ _ _ _)
    · try dsimp only
      refine Kept.ite ?_ ?_
      · refine Kept.trans ?_ (State.svcAnswer_kept _ _ _ _)
        exact (State.modSvc_kept _ _)
      · try dsimp only
        refine Kept.ite ?_ ?_
        · refine Kept.trans ?_ (State.svcAnswer_kept _ _ _ _)
          refine Kept.trans ?_ (State.openSession_kept _ _)
          exact (State.modSvc_kept _ _)
        · try dsimp only
          refine Kept.trans ?_ (State.svcAnswer_kept _ _ _ _)
          refine Kept.trans ?_ (State.svcFlag_kept _ _)
          refine Kept.ite ?_ ?_
          · refine Kept.trans ?_ (State.scWerr_kept _ _ _)
            exact (State.modSvc_kept _ _)
          · exact (State.modSvc_kept _ _)
theorem State.endSession_kept (s : State) (reason : Nat) : Kept s (State.endSession s reason) := by
  unfold State.endSession
  refine Kept.ite ?_ ?_
  · exact Kept.refl _
  · try dsimp only
    refine Kept.trans ?_ (State.modSvc_kept _ _)
    refine Kept.trans ?_ (State.svcFlag_kept _ _)
    refine Kept.trans ?_ (State.postSession_kept _ _ _)
    refine Kept.trans ?_ (State.modUpd_kept _ _)
    refine Kept.ite ?_ ?_
    · exact Kept.refl _
    · try dsimp only
      refine Kept.trans ?_ (State.disableNext_kept _ _ _)
      refine Kept.trans ?_ (State.modClient_kept _ _ _)
      exact (State.noteRec_kept _ _)
theorem State.svcReadWord_kept (s : State) (a : Nat) : KeptQ s (State.svcReadWord s a) := by
  unfold State.svcReadWord
  refine KeptQ.ite ?_ ?_
  · refine KeptQ.ite ?_ ?_
    · exact (State.readWord_kept _ _ _ _ _)
    · refine KeptQ.mk ?_
      exact Kept.refl _
  · exact (State.readWord_kept _ _ _ _ _)
theorem State.svcRead_kept (s : State) (tag : Byte) (p : List Byte) : Kept s (State.svcRead s tag p) := by
  unfold State.svcRead
  dsimp only
  refine Kept.ite (Kept.refl s) (Kept.ite ?_ ?_)
  · exact (Kept.ite (State.countFault_kept _ _) (Kept.refl s)).trans (State.svcAnswer_kept _ _ _ _)
  · have t : Kept s (if s.inRom then s else s.takeToken 255) := Kept.ite (Kept.refl s) (State.takeToken_kept _ _)
    have k := t.trans (State.ReadRun.foldl_kept (fun (r : State.ReadRun) a =>
      { s := (r.s.svcReadWord a).2.2, codes := r.codes ++ [(r.s.svcReadWord a).1],
        data := r.data ++ [(r.s.svcReadWord a).2.1] }) (fun r a => State.svcReadWord_kept r.s a) (State.svcAddrs p)
      { s := if s.inRom then s else s.takeToken 255 })
    exact (Kept.ite k (k.trans (State.countRefusal_kept _ _ _))).trans (State.svcAnswer_kept _ _ _ _)
theorem State.svcWrite_kept (s : State) (tag : Byte) (p : List Byte) : Kept s (State.svcWrite s tag p) := by
  unfold State.svcWrite
  refine Kept.ite ?_ ?_
  · exact Kept.refl _
  · try dsimp only
    refine Kept.ite ?_ ?_
    · try dsimp only
      refine Kept.trans ?_ (State.svcAnswer_kept _ _ _ _)
      refine Kept.ite ?_ ?_
      · exact (State.countFault_kept _ _)
      · exact Kept.refl _
    · try dsimp only
      refine Kept.trans ?_ (State.svcAnswer_kept _ _ _ _)
      refine Kept.ite ?_ ?_
      · refine Kept.trans ?_ (State.enqueue_kept _ _ _ _ _)
        refine Kept.ite ?_ ?_
        · exact Kept.refl _
        · exact (State.takeToken_kept _ _)
      · refine Kept.trans ?_ (State.countRefusal_kept _ _ _)
        refine Kept.trans ?_ (State.enqueue_kept _ _ _ _ _)
        refine Kept.ite ?_ ?_
        · exact Kept.refl _
        · exact (State.takeToken_kept _ _)
theorem State.svcClose_kept (s : State) (tag : Byte) (p : List Byte) : Kept s (State.svcClose s tag p) := by
  unfold State.svcClose
  refine Kept.ite ?_ ?_
  · exact Kept.refl _
  · refine Kept.ite ?_ ?_
    · exact (State.svcAnswer_kept _ _ _ _)
    · refine Kept.ite ?_ ?_
      · exact (State.svcAnswer_kept _ _ _ _)
      · refine Kept.trans ?_ (State.svcAnswer_kept _ _ _ _)
        exact (State.endSession_kept _ _)
theorem State.svcReset_kept (s : State) (tag : Byte) (p : List Byte) : Kept s (State.svcReset s tag p) := by
  unfold State.svcReset
  refine Kept.ite ?_ ?_
  · exact Kept.refl _
  · refine Kept.ite ?_ ?_
    · exact (State.svcAnswer_kept _ _ _ _)
    · refine Kept.ite ?_ ?_
      · exact (State.svcAnswer_kept _ _ _ _)
      · refine Kept.trans ?_ (State.modSvc_kept _ _)
        exact (State.svcAnswer_kept _ _ _ _)
theorem State.svcResetExec_kept (s : State) (also : Nat) : Kept s (State.svcResetExec s also) := by
  unfold State.svcResetExec
  refine Kept.ite ?_ ?_
  · exact (State.resetWith_kept _ _ _)
  · exact Kept.refl _
theorem State.svcBadFrame_kept (s : State) (b : BadFrame) : Kept s (State.svcBadFrame s b) := by
  unfold State.svcBadFrame
  refine Kept.ite ?_ ?_
  · exact Kept.refl _
  · try dsimp only
    split
    · refine Kept.trans ?_ (State.svcDiscard_kept _)
      refine Kept.trans ?_ (State.svcFlag_kept _ _)
      exact (State.modSvc_kept _ _)
    · exact (State.svcDiscard_kept _)
    · refine Kept.ite ?_ ?_
      · exact Kept.refl _
      · exact (State.svcAnswer_kept _ _ _ _)
theorem State.svcExpire_kept (s : State) : Kept s (State.svcExpire s) := by
  unfold State.svcExpire
  refine Kept.ite ?_ ?_
  · exact (State.endSession_kept _ _)
  · exact Kept.refl _
theorem State.svcIdle_kept (s : State) : Kept s (State.svcIdle s) := by
  unfold State.svcIdle
  refine Kept.ite ?_ ?_
  · exact (State.endSession_kept _ _)
  · exact Kept.refl _

/-! ## ExecService -/

theorem execSvcHello_kept (tag : Byte) (s : State) : KeptR s (execSvcHello tag s) := by
  unfold execSvcHello
  refine KeptR.mk ?_
  refine State.whenUp_kept _ _ fun _ => ?_
  · exact (State.svcHello_kept _ _)
theorem execSvcPass_kept (tag : Byte) (p : List Byte) (s : State) : KeptR s (execSvcPass tag p s) := by
  unfold execSvcPass
  refine KeptR.mk ?_
  refine State.whenUp_kept _ _ fun _ => ?_
  · exact (State.svcPass_kept _ _ _)
theorem execSvcRead_kept (tag : Byte) (p : List Byte) (s : State) : KeptR s (execSvcRead tag p s) := by
  unfold execSvcRead
  refine KeptR.mk ?_
  refine State.whenUp_kept _ _ fun _ => ?_
  · exact (State.svcRead_kept _ _ _)
theorem execSvcWrite_kept (tag : Byte) (p : List Byte) (s : State) : KeptR s (execSvcWrite tag p s) := by
  unfold execSvcWrite
  refine KeptR.mk ?_
  refine State.whenUp_kept _ _ fun _ => ?_
  · exact (State.svcWrite_kept _ _ _)
theorem execSvcClose_kept (tag : Byte) (p : List Byte) (s : State) : KeptR s (execSvcClose tag p s) := by
  unfold execSvcClose
  refine KeptR.mk ?_
  refine State.whenUp_kept _ _ fun _ => ?_
  · exact (State.svcClose_kept _ _ _)
theorem execSvcReset_kept (tag : Byte) (p : List Byte) (s : State) : KeptR s (execSvcReset tag p s) := by
  unfold execSvcReset
  refine KeptR.mk ?_
  refine State.whenUp_kept _ _ fun _ => ?_
  · exact (State.svcReset_kept _ _ _)
theorem execSvcResetExec_kept (also : Fin 9) (s : State) : KeptR s (execSvcResetExec also s) := by
  unfold execSvcResetExec
  refine KeptR.mk ?_
  refine State.whenUp_kept _ _ fun _ => ?_
  · exact (State.svcResetExec_kept _ _)
theorem execSvcBadFrame_kept (b : BadFrame) (s : State) : KeptR s (execSvcBadFrame b s) := by
  unfold execSvcBadFrame
  refine KeptR.mk ?_
  refine State.whenUp_kept _ _ fun _ => ?_
  · exact (State.svcBadFrame_kept _ _)
theorem execSvcByteTimeout_kept (s : State) : KeptR s (execSvcByteTimeout s) := by
  unfold execSvcByteTimeout
  refine KeptR.mk ?_
  refine State.whenUp_kept _ _ fun _ => ?_
  · exact (State.svcDiscard_kept _)
theorem execSvcSessionExpire_kept (s : State) : KeptR s (execSvcSessionExpire s) := by
  unfold execSvcSessionExpire
  refine KeptR.mk ?_
  refine State.whenUp_kept _ _ fun _ => ?_
  · exact (State.svcExpire_kept _)
theorem execSvcIdleTimeout_kept (s : State) : KeptR s (execSvcIdleTimeout s) := by
  unfold execSvcIdleTimeout
  refine KeptR.mk ?_
  refine State.whenUp_kept _ _ fun _ => ?_
  · exact (State.svcIdle_kept _)

/-! ## ExecUpd -/

theorem execUpdDataWrite_kept (c : Fin 256) (w : Word) (s : State) : KeptR s (execUpdDataWrite c w s) := by
  unfold execUpdDataWrite
  refine KeptR.mk ?_
  refine State.whenUp_kept _ _ fun _ => ?_
  · exact (State.updData_kept _ _ _)
theorem execUpdBegin_kept (c : Fin 256) (s : State) : KeptR s (execUpdBegin c s) := by
  unfold execUpdBegin
  refine KeptR.mk ?_
  refine State.whenUp_kept _ _ fun _ => ?_
  · exact (State.updCmd_kept _ _ _ _)
theorem execUpdBlock_kept (c : Fin 256) (n : Fin 1024) (s : State) : KeptR s (execUpdBlock c n s) := by
  unfold execUpdBlock
  refine KeptR.mk ?_
  refine State.whenUp_kept _ _ fun _ => ?_
  · exact (State.updCmd_kept _ _ _ _)
theorem execUpdBlockProgrammed_kept (ok : Bool) (s : State) : KeptR s (execUpdBlockProgrammed ok s) := by
  unfold execUpdBlockProgrammed
  refine KeptR.mk ?_
  refine State.whenUp_kept _ _ fun _ => ?_
  · exact (State.updProgrammed_kept _ _)
theorem execUpdEnd_kept (c : Fin 256) (s : State) : KeptR s (execUpdEnd c s) := by
  unfold execUpdEnd
  refine KeptR.mk ?_
  refine State.whenUp_kept _ _ fun _ => ?_
  · exact (State.updCmd_kept _ _ _ _)
theorem execUpdVerifyDone_kept (s : State) : KeptR s (execUpdVerifyDone s) := by
  unfold execUpdVerifyDone
  refine KeptR.mk ?_
  refine State.whenUp_kept _ _ fun _ => ?_
  · exact (State.updVerifyDone_kept _)
theorem execUpdActivate_kept (c : Fin 256) (s : State) : KeptR s (execUpdActivate c s) := by
  unfold execUpdActivate
  refine KeptR.mk ?_
  refine State.whenUp_kept _ _ fun _ => ?_
  · exact (State.updCmd_kept _ _ _ _)
theorem execUpdAbort_kept (c : Fin 256) (s : State) : KeptR s (execUpdAbort c s) := by
  unfold execUpdAbort
  refine KeptR.mk ?_
  refine State.whenUp_kept _ _ fun _ => ?_
  · exact (State.updCmd_kept _ _ _ _)
theorem execUpdConfirm_kept (s : State) : KeptR s (execUpdConfirm s) := by
  unfold execUpdConfirm
  refine KeptR.mk ?_
  refine State.whenUp_kept _ _ fun _ => ?_
  · exact (State.updConfirm_kept _)
theorem execUpdConfirmTimeout_kept (s : State) : KeptR s (execUpdConfirmTimeout s) := by
  unfold execUpdConfirmTimeout
  refine KeptR.mk ?_
  refine State.whenUp_kept _ _ fun _ => ?_
  · exact (State.updTimeout_kept _)
theorem execUpdAgentStart_kept (s : State) : KeptR s (execUpdAgentStart s) := by
  unfold execUpdAgentStart
  refine KeptR.mk ?_
  refine State.whenUp_kept _ _ fun _ => ?_
  · exact (State.updStart_kept _)
theorem execNodeResponseTimeout_kept (s : State) : KeptR s (execNodeResponseTimeout s) := by
  unfold execNodeResponseTimeout
  refine KeptR.mk ?_
  refine State.whenUp_kept _ _ fun _ => ?_
  · exact (State.nodeRespTimeout_kept _)
theorem execNodeBootTimeout_kept (s : State) : KeptR s (execNodeBootTimeout s) := by
  unfold execNodeBootTimeout
  refine KeptR.mk ?_
  refine State.whenUp_kept _ _ fun _ => ?_
  · exact (State.nodeBootTimeout_kept _)

/-! ## Tap -/

theorem State.tapUpdate_kept (s : State) (code : BitVec 4) : Kept s (State.tapUpdate s code) := by
  unfold State.tapUpdate
  exact (State.modPins_kept _ _)
theorem State.tapBoundary_kept (s : State) (code : BitVec 4) (cells : BitVec 266) : Kept s (State.tapBoundary s code cells) := by
  unfold State.tapBoundary
  try dsimp only
  refine Kept.ite ?_ ?_
  · refine Kept.trans ?_ (State.modPins_kept _ _)
    exact (State.tapUpdate_kept _ _)
  · exact (State.tapUpdate_kept _ _)
theorem State.tapReset_kept (s : State) (rise : Bool) : Kept s (State.tapReset s rise) := by
  unfold State.tapReset
  refine Kept.ite ?_ ?_
  · exact (State.rstRise_kept _)
  · exact (State.modPins_kept _ _)

/-! ## ExecTap -/

theorem execTapExtest_kept (cells : BitVec 266) (s : State) : KeptR s (execTapExtest cells s) := by
  unfold execTapExtest
  refine KeptR.mk ?_
  exact (State.tapBoundary_kept _ _ _)
theorem execTapSamplePreload_kept (cells : BitVec 266) (s : State) : KeptR s (execTapSamplePreload cells s) := by
  unfold execTapSamplePreload
  refine KeptR.mk ?_
  exact (State.tapBoundary_kept _ _ _)
theorem execTapClamp_kept (s : State) : KeptR s (execTapClamp s) := by
  unfold execTapClamp
  refine KeptR.mk ?_
  exact (State.tapUpdate_kept _ _)
theorem execTapHighz_kept (s : State) : KeptR s (execTapHighz s) := by
  unfold execTapHighz
  refine KeptR.mk ?_
  exact (State.tapUpdate_kept _ _)
theorem execTapBypass_kept (s : State) : KeptR s (execTapBypass s) := by
  unfold execTapBypass
  refine KeptR.mk ?_
  exact (State.tapUpdate_kept _ _)
theorem execTapReset_kept (rise : Bool) (s : State) : KeptR s (execTapReset rise s) := by
  unfold execTapReset
  refine KeptR.mk ?_
  exact (State.tapReset_kept _ _)

/-! ## Tick -/

theorem State.giveUps_kept (s : State) : Kept s (State.giveUps s) := by
  unfold State.giveUps
  refine Kept.trans ?_ (Kept.foldl (fun _ _ => ?_) _ _)
  · exact Kept.refl _
  · try dsimp only
    refine Kept.ite ?_ ?_
    · refine Kept.trans ?_ (State.lateAck_kept _ _)
      refine Kept.trans ?_ (State.campGiveup_kept _ _)
      exact (State.giveUp_kept _ _)
    · refine Kept.trans ?_ (State.campGiveup_kept _ _)
      exact (State.giveUp_kept _ _)
theorem State.endCycle_kept (s : State) (on : Bool) : Kept s (State.endCycle s on) := by
  unfold State.endCycle
  try dsimp only
  refine Kept.ite ?_ ?_
  · refine Kept.trans ?_ (State.irqCycle_kept _)
    refine Kept.ite ?_ ?_
    · refine Kept.trans ?_ (Kept.fin (fun _ _ => ?_) _)
      · refine Kept.trans ?_ (Kept.fin (fun _ _ => ?_) _)
        · refine Kept.trans ?_ (State.admitAll_kept _)
          refine Kept.trans ?_ (State.giveUps_kept _)
          refine Kept.trans ?_ (State.matchAll_kept _)
          exact (State.settleLifts_kept _)
        · exact (State.shiftStage_kept _ _)
      · exact (State.psEnd_kept _ _)
    · refine Kept.trans ?_ (State.admitAll_kept _)
      refine Kept.trans ?_ (State.giveUps_kept _)
      refine Kept.trans ?_ (State.matchAll_kept _)
      exact (State.settleLifts_kept _)
  · refine Kept.ite ?_ ?_
    · refine Kept.trans ?_ (Kept.fin (fun _ _ => ?_) _)
      · refine Kept.trans ?_ (Kept.fin (fun _ _ => ?_) _)
        · refine Kept.trans ?_ (State.admitAll_kept _)
          refine Kept.trans ?_ (State.giveUps_kept _)
          refine Kept.trans ?_ (State.matchAll_kept _)
          exact (State.settleLifts_kept _)
        · exact (State.shiftStage_kept _ _)
      · exact (State.psEnd_kept _ _)
    · refine Kept.trans ?_ (State.admitAll_kept _)
      refine Kept.trans ?_ (State.giveUps_kept _)
      refine Kept.trans ?_ (State.matchAll_kept _)
      exact (State.settleLifts_kept _)
theorem State.frameCycle_kept (s : State) (on : Bool) : Kept s (State.frameCycle s on) := by
  unfold State.frameCycle
  refine Kept.ite ?_ ?_
  · refine Kept.trans ?_ (State.modTsi_kept _ _ fun _ => rfl)
    exact Kept.refl _
  · try dsimp only
    refine Kept.ite ?_ ?_
    · refine Kept.trans ?_ (State.modCyc_kept _ _)
      refine Kept.trans ?_ (State.modTsi_kept _ _ fun _ => rfl)
      exact Kept.refl _
    · refine Kept.trans ?_ (State.modTsi_kept _ _ fun _ => rfl)
      exact Kept.refl _
theorem State.coreCycle_kept (s : State) : Kept s (State.coreCycle s) := by
  unfold State.coreCycle
  dsimp only
  generalize (s.tbs.run && s.pwr.pdUp) = on
  refine (State.endCycle_kept s on).trans ?_
  generalize s.endCycle on = u
  refine Kept.trans (t := { u with time := u.time + 1, cyc := {} }) (Kept.same rfl rfl rfl rfl rfl rfl) ?_
  have a : Kept ({ u with time := u.time + 1, cyc := {} } : State)
      (if ({ u with time := u.time + 1, cyc := {} } : State).tbs.run = true then
        ({ u with time := u.time + 1, cyc := {} } : State).modTbs fun t => { t with tb := t.tb + 1 }
      else { u with time := u.time + 1, cyc := {} }) :=
    Kept.ite (State.modTbs_kept _ _) (Kept.refl _)
  have b := ((a.trans (State.frameCycle_kept _ on)).trans (State.applyCuts_kept _)).trans (State.rsCycle_kept _)
  refine Kept.ite ?_ b
  have c := ((b.trans (State.channelCycle_kept _)).trans (State.angleCycle_kept _)).trans (State.timetableCycle_kept _)
  exact ((c.trans (Kept.fin (fun _ _ => State.psBegin_kept _ _) _)).trans (State.sigCycle_kept _)).trans
    (Kept.fin (fun _ _ => State.dmaCycle_kept _ _) _)

end Sys2Proof.Machine
end

