-- ==== Sys2Proof/Laws/State.lean ====
section
/-!
SUPPORT. Laws/State.lean: one lemma per field per update of State, so that no proof unfolds a record update, and what the
accessors read after the update of their own part.
-/
namespace Sys2Proof.Machine
namespace State

variable (s : State)

/-! ## modChan -/

@[simp] theorem modChan_boot (n : Fin 64) (f : Chan → Chan) : (s.modChan n f).boot = s.boot := rfl
@[simp] theorem modChan_xf (n : Fin 64) (f : Chan → Chan) : (s.modChan n f).xf = s.xf := rfl
@[simp] theorem modChan_otp (n : Fin 64) (f : Chan → Chan) : (s.modChan n f).otp = s.otp := rfl
@[simp] theorem modChan_pwr (n : Fin 64) (f : Chan → Chan) : (s.modChan n f).pwr = s.pwr := rfl
@[simp] theorem modChan_canopy (n : Fin 64) (f : Chan → Chan) : (s.modChan n f).canopy = s.canopy := rfl
@[simp] theorem modChan_tbs (n : Fin 64) (f : Chan → Chan) : (s.modChan n f).tbs = s.tbs := rfl
theorem modChan_chans (n : Fin 64) (f : Chan → Chan) : (s.modChan n f).chans = vset s.chans n f := rfl
@[simp] theorem modChan_groves (n : Fin 64) (f : Chan → Chan) : (s.modChan n f).groves = s.groves := rfl
@[simp] theorem modChan_ads (n : Fin 64) (f : Chan → Chan) : (s.modChan n f).ads = s.ads := rfl
@[simp] theorem modChan_pls (n : Fin 64) (f : Chan → Chan) : (s.modChan n f).pls = s.pls := rfl
@[simp] theorem modChan_tt (n : Fin 64) (f : Chan → Chan) : (s.modChan n f).tt = s.tt := rfl
@[simp] theorem modChan_me (n : Fin 64) (f : Chan → Chan) : (s.modChan n f).me = s.me := rfl
@[simp] theorem modChan_ps (n : Fin 64) (f : Chan → Chan) : (s.modChan n f).ps = s.ps := rfl
@[simp] theorem modChan_afe (n : Fin 64) (f : Chan → Chan) : (s.modChan n f).afe = s.afe := rfl
@[simp] theorem modChan_sc (n : Fin 64) (f : Chan → Chan) : (s.modChan n f).sc = s.sc := rfl
@[simp] theorem modChan_mem (n : Fin 64) (f : Chan → Chan) : (s.modChan n f).mem = s.mem := rfl
@[simp] theorem modChan_cw (n : Fin 64) (f : Chan → Chan) : (s.modChan n f).cw = s.cw := rfl
@[simp] theorem modChan_dma (n : Fin 64) (f : Chan → Chan) : (s.modChan n f).dma = s.dma := rfl
@[simp] theorem modChan_intc (n : Fin 64) (f : Chan → Chan) : (s.modChan n f).intc = s.intc := rfl
@[simp] theorem modChan_hp (n : Fin 64) (f : Chan → Chan) : (s.modChan n f).hp = s.hp := rfl
@[simp] theorem modChan_hl (n : Fin 64) (f : Chan → Chan) : (s.modChan n f).hl = s.hl := rfl
@[simp] theorem modChan_tsi (n : Fin 64) (f : Chan → Chan) : (s.modChan n f).tsi = s.tsi := rfl
@[simp] theorem modChan_smb (n : Fin 64) (f : Chan → Chan) : (s.modChan n f).smb = s.smb := rfl
@[simp] theorem modChan_pack (n : Fin 64) (f : Chan → Chan) : (s.modChan n f).pack = s.pack := rfl
@[simp] theorem modChan_msp (n : Fin 64) (f : Chan → Chan) : (s.modChan n f).msp = s.msp := rfl
@[simp] theorem modChan_flt (n : Fin 64) (f : Chan → Chan) : (s.modChan n f).flt = s.flt := rfl
@[simp] theorem modChan_upd (n : Fin 64) (f : Chan → Chan) : (s.modChan n f).upd = s.upd := rfl
@[simp] theorem modChan_svc (n : Fin 64) (f : Chan → Chan) : (s.modChan n f).svc = s.svc := rfl
@[simp] theorem modChan_pm (n : Fin 64) (f : Chan → Chan) : (s.modChan n f).pm = s.pm := rfl
@[simp] theorem modChan_rs (n : Fin 64) (f : Chan → Chan) : (s.modChan n f).rs = s.rs := rfl
@[simp] theorem modChan_pins (n : Fin 64) (f : Chan → Chan) : (s.modChan n f).pins = s.pins := rfl
@[simp] theorem modChan_reports (n : Fin 64) (f : Chan → Chan) : (s.modChan n f).reports = s.reports := rfl
@[simp] theorem modChan_rdata (n : Fin 64) (f : Chan → Chan) : (s.modChan n f).rdata = s.rdata := rfl
@[simp] theorem modChan_freeCtr (n : Fin 64) (f : Chan → Chan) : (s.modChan n f).freeCtr = s.freeCtr := rfl
@[simp] theorem modChan_pending (n : Fin 64) (f : Chan → Chan) : (s.modChan n f).pending = s.pending := rfl
@[simp] theorem modChan_time (n : Fin 64) (f : Chan → Chan) : (s.modChan n f).time = s.time := rfl
@[simp] theorem modChan_cyc (n : Fin 64) (f : Chan → Chan) : (s.modChan n f).cyc = s.cyc := rfl

/-! ## modGrove -/

@[simp] theorem modGrove_boot (g : Fin 8) (f : Grove → Grove) : (s.modGrove g f).boot = s.boot := rfl
@[simp] theorem modGrove_xf (g : Fin 8) (f : Grove → Grove) : (s.modGrove g f).xf = s.xf := rfl
@[simp] theorem modGrove_otp (g : Fin 8) (f : Grove → Grove) : (s.modGrove g f).otp = s.otp := rfl
@[simp] theorem modGrove_pwr (g : Fin 8) (f : Grove → Grove) : (s.modGrove g f).pwr = s.pwr := rfl
@[simp] theorem modGrove_canopy (g : Fin 8) (f : Grove → Grove) : (s.modGrove g f).canopy = s.canopy := rfl
@[simp] theorem modGrove_tbs (g : Fin 8) (f : Grove → Grove) : (s.modGrove g f).tbs = s.tbs := rfl
@[simp] theorem modGrove_chans (g : Fin 8) (f : Grove → Grove) : (s.modGrove g f).chans = s.chans := rfl
theorem modGrove_groves (g : Fin 8) (f : Grove → Grove) : (s.modGrove g f).groves = vset s.groves g f := rfl
@[simp] theorem modGrove_ads (g : Fin 8) (f : Grove → Grove) : (s.modGrove g f).ads = s.ads := rfl
@[simp] theorem modGrove_pls (g : Fin 8) (f : Grove → Grove) : (s.modGrove g f).pls = s.pls := rfl
@[simp] theorem modGrove_tt (g : Fin 8) (f : Grove → Grove) : (s.modGrove g f).tt = s.tt := rfl
@[simp] theorem modGrove_me (g : Fin 8) (f : Grove → Grove) : (s.modGrove g f).me = s.me := rfl
@[simp] theorem modGrove_ps (g : Fin 8) (f : Grove → Grove) : (s.modGrove g f).ps = s.ps := rfl
@[simp] theorem modGrove_afe (g : Fin 8) (f : Grove → Grove) : (s.modGrove g f).afe = s.afe := rfl
@[simp] theorem modGrove_sc (g : Fin 8) (f : Grove → Grove) : (s.modGrove g f).sc = s.sc := rfl
@[simp] theorem modGrove_mem (g : Fin 8) (f : Grove → Grove) : (s.modGrove g f).mem = s.mem := rfl
@[simp] theorem modGrove_cw (g : Fin 8) (f : Grove → Grove) : (s.modGrove g f).cw = s.cw := rfl
@[simp] theorem modGrove_dma (g : Fin 8) (f : Grove → Grove) : (s.modGrove g f).dma = s.dma := rfl
@[simp] theorem modGrove_intc (g : Fin 8) (f : Grove → Grove) : (s.modGrove g f).intc = s.intc := rfl
@[simp] theorem modGrove_hp (g : Fin 8) (f : Grove → Grove) : (s.modGrove g f).hp = s.hp := rfl
@[simp] theorem modGrove_hl (g : Fin 8) (f : Grove → Grove) : (s.modGrove g f).hl = s.hl := rfl
@[simp] theorem modGrove_tsi (g : Fin 8) (f : Grove → Grove) : (s.modGrove g f).tsi = s.tsi := rfl
@[simp] theorem modGrove_smb (g : Fin 8) (f : Grove → Grove) : (s.modGrove g f).smb = s.smb := rfl
@[simp] theorem modGrove_pack (g : Fin 8) (f : Grove → Grove) : (s.modGrove g f).pack = s.pack := rfl
@[simp] theorem modGrove_msp (g : Fin 8) (f : Grove → Grove) : (s.modGrove g f).msp = s.msp := rfl
@[simp] theorem modGrove_flt (g : Fin 8) (f : Grove → Grove) : (s.modGrove g f).flt = s.flt := rfl
@[simp] theorem modGrove_upd (g : Fin 8) (f : Grove → Grove) : (s.modGrove g f).upd = s.upd := rfl
@[simp] theorem modGrove_svc (g : Fin 8) (f : Grove → Grove) : (s.modGrove g f).svc = s.svc := rfl
@[simp] theorem modGrove_pm (g : Fin 8) (f : Grove → Grove) : (s.modGrove g f).pm = s.pm := rfl
@[simp] theorem modGrove_rs (g : Fin 8) (f : Grove → Grove) : (s.modGrove g f).rs = s.rs := rfl
@[simp] theorem modGrove_pins (g : Fin 8) (f : Grove → Grove) : (s.modGrove g f).pins = s.pins := rfl
@[simp] theorem modGrove_reports (g : Fin 8) (f : Grove → Grove) : (s.modGrove g f).reports = s.reports := rfl
@[simp] theorem modGrove_rdata (g : Fin 8) (f : Grove → Grove) : (s.modGrove g f).rdata = s.rdata := rfl
@[simp] theorem modGrove_freeCtr (g : Fin 8) (f : Grove → Grove) : (s.modGrove g f).freeCtr = s.freeCtr := rfl
@[simp] theorem modGrove_pending (g : Fin 8) (f : Grove → Grove) : (s.modGrove g f).pending = s.pending := rfl
@[simp] theorem modGrove_time (g : Fin 8) (f : Grove → Grove) : (s.modGrove g f).time = s.time := rfl
@[simp] theorem modGrove_cyc (g : Fin 8) (f : Grove → Grove) : (s.modGrove g f).cyc = s.cyc := rfl

/-! ## modAd -/

@[simp] theorem modAd_boot (d : Fin 3) (f : AngleDom → AngleDom) : (s.modAd d f).boot = s.boot := rfl
@[simp] theorem modAd_xf (d : Fin 3) (f : AngleDom → AngleDom) : (s.modAd d f).xf = s.xf := rfl
@[simp] theorem modAd_otp (d : Fin 3) (f : AngleDom → AngleDom) : (s.modAd d f).otp = s.otp := rfl
@[simp] theorem modAd_pwr (d : Fin 3) (f : AngleDom → AngleDom) : (s.modAd d f).pwr = s.pwr := rfl
@[simp] theorem modAd_canopy (d : Fin 3) (f : AngleDom → AngleDom) : (s.modAd d f).canopy = s.canopy := rfl
@[simp] theorem modAd_tbs (d : Fin 3) (f : AngleDom → AngleDom) : (s.modAd d f).tbs = s.tbs := rfl
@[simp] theorem modAd_chans (d : Fin 3) (f : AngleDom → AngleDom) : (s.modAd d f).chans = s.chans := rfl
@[simp] theorem modAd_groves (d : Fin 3) (f : AngleDom → AngleDom) : (s.modAd d f).groves = s.groves := rfl
theorem modAd_ads (d : Fin 3) (f : AngleDom → AngleDom) : (s.modAd d f).ads = vset s.ads d f := rfl
@[simp] theorem modAd_pls (d : Fin 3) (f : AngleDom → AngleDom) : (s.modAd d f).pls = s.pls := rfl
@[simp] theorem modAd_tt (d : Fin 3) (f : AngleDom → AngleDom) : (s.modAd d f).tt = s.tt := rfl
@[simp] theorem modAd_me (d : Fin 3) (f : AngleDom → AngleDom) : (s.modAd d f).me = s.me := rfl
@[simp] theorem modAd_ps (d : Fin 3) (f : AngleDom → AngleDom) : (s.modAd d f).ps = s.ps := rfl
@[simp] theorem modAd_afe (d : Fin 3) (f : AngleDom → AngleDom) : (s.modAd d f).afe = s.afe := rfl
@[simp] theorem modAd_sc (d : Fin 3) (f : AngleDom → AngleDom) : (s.modAd d f).sc = s.sc := rfl
@[simp] theorem modAd_mem (d : Fin 3) (f : AngleDom → AngleDom) : (s.modAd d f).mem = s.mem := rfl
@[simp] theorem modAd_cw (d : Fin 3) (f : AngleDom → AngleDom) : (s.modAd d f).cw = s.cw := rfl
@[simp] theorem modAd_dma (d : Fin 3) (f : AngleDom → AngleDom) : (s.modAd d f).dma = s.dma := rfl
@[simp] theorem modAd_intc (d : Fin 3) (f : AngleDom → AngleDom) : (s.modAd d f).intc = s.intc := rfl
@[simp] theorem modAd_hp (d : Fin 3) (f : AngleDom → AngleDom) : (s.modAd d f).hp = s.hp := rfl
@[simp] theorem modAd_hl (d : Fin 3) (f : AngleDom → AngleDom) : (s.modAd d f).hl = s.hl := rfl
@[simp] theorem modAd_tsi (d : Fin 3) (f : AngleDom → AngleDom) : (s.modAd d f).tsi = s.tsi := rfl
@[simp] theorem modAd_smb (d : Fin 3) (f : AngleDom → AngleDom) : (s.modAd d f).smb = s.smb := rfl
@[simp] theorem modAd_pack (d : Fin 3) (f : AngleDom → AngleDom) : (s.modAd d f).pack = s.pack := rfl
@[simp] theorem modAd_msp (d : Fin 3) (f : AngleDom → AngleDom) : (s.modAd d f).msp = s.msp := rfl
@[simp] theorem modAd_flt (d : Fin 3) (f : AngleDom → AngleDom) : (s.modAd d f).flt = s.flt := rfl
@[simp] theorem modAd_upd (d : Fin 3) (f : AngleDom → AngleDom) : (s.modAd d f).upd = s.upd := rfl
@[simp] theorem modAd_svc (d : Fin 3) (f : AngleDom → AngleDom) : (s.modAd d f).svc = s.svc := rfl
@[simp] theorem modAd_pm (d : Fin 3) (f : AngleDom → AngleDom) : (s.modAd d f).pm = s.pm := rfl
@[simp] theorem modAd_rs (d : Fin 3) (f : AngleDom → AngleDom) : (s.modAd d f).rs = s.rs := rfl
@[simp] theorem modAd_pins (d : Fin 3) (f : AngleDom → AngleDom) : (s.modAd d f).pins = s.pins := rfl
@[simp] theorem modAd_reports (d : Fin 3) (f : AngleDom → AngleDom) : (s.modAd d f).reports = s.reports := rfl
@[simp] theorem modAd_rdata (d : Fin 3) (f : AngleDom → AngleDom) : (s.modAd d f).rdata = s.rdata := rfl
@[simp] theorem modAd_freeCtr (d : Fin 3) (f : AngleDom → AngleDom) : (s.modAd d f).freeCtr = s.freeCtr := rfl
@[simp] theorem modAd_pending (d : Fin 3) (f : AngleDom → AngleDom) : (s.modAd d f).pending = s.pending := rfl
@[simp] theorem modAd_time (d : Fin 3) (f : AngleDom → AngleDom) : (s.modAd d f).time = s.time := rfl
@[simp] theorem modAd_cyc (d : Fin 3) (f : AngleDom → AngleDom) : (s.modAd d f).cyc = s.cyc := rfl

/-! ## modPl -/

@[simp] theorem modPl_boot (k : Fin 2) (f : Checker → Checker) : (s.modPl k f).boot = s.boot := rfl
@[simp] theorem modPl_xf (k : Fin 2) (f : Checker → Checker) : (s.modPl k f).xf = s.xf := rfl
@[simp] theorem modPl_otp (k : Fin 2) (f : Checker → Checker) : (s.modPl k f).otp = s.otp := rfl
@[simp] theorem modPl_pwr (k : Fin 2) (f : Checker → Checker) : (s.modPl k f).pwr = s.pwr := rfl
@[simp] theorem modPl_canopy (k : Fin 2) (f : Checker → Checker) : (s.modPl k f).canopy = s.canopy := rfl
@[simp] theorem modPl_tbs (k : Fin 2) (f : Checker → Checker) : (s.modPl k f).tbs = s.tbs := rfl
@[simp] theorem modPl_chans (k : Fin 2) (f : Checker → Checker) : (s.modPl k f).chans = s.chans := rfl
@[simp] theorem modPl_groves (k : Fin 2) (f : Checker → Checker) : (s.modPl k f).groves = s.groves := rfl
@[simp] theorem modPl_ads (k : Fin 2) (f : Checker → Checker) : (s.modPl k f).ads = s.ads := rfl
theorem modPl_pls (k : Fin 2) (f : Checker → Checker) : (s.modPl k f).pls = vset s.pls k f := rfl
@[simp] theorem modPl_tt (k : Fin 2) (f : Checker → Checker) : (s.modPl k f).tt = s.tt := rfl
@[simp] theorem modPl_me (k : Fin 2) (f : Checker → Checker) : (s.modPl k f).me = s.me := rfl
@[simp] theorem modPl_ps (k : Fin 2) (f : Checker → Checker) : (s.modPl k f).ps = s.ps := rfl
@[simp] theorem modPl_afe (k : Fin 2) (f : Checker → Checker) : (s.modPl k f).afe = s.afe := rfl
@[simp] theorem modPl_sc (k : Fin 2) (f : Checker → Checker) : (s.modPl k f).sc = s.sc := rfl
@[simp] theorem modPl_mem (k : Fin 2) (f : Checker → Checker) : (s.modPl k f).mem = s.mem := rfl
@[simp] theorem modPl_cw (k : Fin 2) (f : Checker → Checker) : (s.modPl k f).cw = s.cw := rfl
@[simp] theorem modPl_dma (k : Fin 2) (f : Checker → Checker) : (s.modPl k f).dma = s.dma := rfl
@[simp] theorem modPl_intc (k : Fin 2) (f : Checker → Checker) : (s.modPl k f).intc = s.intc := rfl
@[simp] theorem modPl_hp (k : Fin 2) (f : Checker → Checker) : (s.modPl k f).hp = s.hp := rfl
@[simp] theorem modPl_hl (k : Fin 2) (f : Checker → Checker) : (s.modPl k f).hl = s.hl := rfl
@[simp] theorem modPl_tsi (k : Fin 2) (f : Checker → Checker) : (s.modPl k f).tsi = s.tsi := rfl
@[simp] theorem modPl_smb (k : Fin 2) (f : Checker → Checker) : (s.modPl k f).smb = s.smb := rfl
@[simp] theorem modPl_pack (k : Fin 2) (f : Checker → Checker) : (s.modPl k f).pack = s.pack := rfl
@[simp] theorem modPl_msp (k : Fin 2) (f : Checker → Checker) : (s.modPl k f).msp = s.msp := rfl
@[simp] theorem modPl_flt (k : Fin 2) (f : Checker → Checker) : (s.modPl k f).flt = s.flt := rfl
@[simp] theorem modPl_upd (k : Fin 2) (f : Checker → Checker) : (s.modPl k f).upd = s.upd := rfl
@[simp] theorem modPl_svc (k : Fin 2) (f : Checker → Checker) : (s.modPl k f).svc = s.svc := rfl
@[simp] theorem modPl_pm (k : Fin 2) (f : Checker → Checker) : (s.modPl k f).pm = s.pm := rfl
@[simp] theorem modPl_rs (k : Fin 2) (f : Checker → Checker) : (s.modPl k f).rs = s.rs := rfl
@[simp] theorem modPl_pins (k : Fin 2) (f : Checker → Checker) : (s.modPl k f).pins = s.pins := rfl
@[simp] theorem modPl_reports (k : Fin 2) (f : Checker → Checker) : (s.modPl k f).reports = s.reports := rfl
@[simp] theorem modPl_rdata (k : Fin 2) (f : Checker → Checker) : (s.modPl k f).rdata = s.rdata := rfl
@[simp] theorem modPl_freeCtr (k : Fin 2) (f : Checker → Checker) : (s.modPl k f).freeCtr = s.freeCtr := rfl
@[simp] theorem modPl_pending (k : Fin 2) (f : Checker → Checker) : (s.modPl k f).pending = s.pending := rfl
@[simp] theorem modPl_time (k : Fin 2) (f : Checker → Checker) : (s.modPl k f).time = s.time := rfl
@[simp] theorem modPl_cyc (k : Fin 2) (f : Checker → Checker) : (s.modPl k f).cyc = s.cyc := rfl

/-! ## modTt -/

@[simp] theorem modTt_boot (f : Timetable → Timetable) : (s.modTt f).boot = s.boot := rfl
@[simp] theorem modTt_xf (f : Timetable → Timetable) : (s.modTt f).xf = s.xf := rfl
@[simp] theorem modTt_otp (f : Timetable → Timetable) : (s.modTt f).otp = s.otp := rfl
@[simp] theorem modTt_pwr (f : Timetable → Timetable) : (s.modTt f).pwr = s.pwr := rfl
@[simp] theorem modTt_canopy (f : Timetable → Timetable) : (s.modTt f).canopy = s.canopy := rfl
@[simp] theorem modTt_tbs (f : Timetable → Timetable) : (s.modTt f).tbs = s.tbs := rfl
@[simp] theorem modTt_chans (f : Timetable → Timetable) : (s.modTt f).chans = s.chans := rfl
@[simp] theorem modTt_groves (f : Timetable → Timetable) : (s.modTt f).groves = s.groves := rfl
@[simp] theorem modTt_ads (f : Timetable → Timetable) : (s.modTt f).ads = s.ads := rfl
@[simp] theorem modTt_pls (f : Timetable → Timetable) : (s.modTt f).pls = s.pls := rfl
theorem modTt_tt (f : Timetable → Timetable) : (s.modTt f).tt = f s.tt := rfl
@[simp] theorem modTt_me (f : Timetable → Timetable) : (s.modTt f).me = s.me := rfl
@[simp] theorem modTt_ps (f : Timetable → Timetable) : (s.modTt f).ps = s.ps := rfl
@[simp] theorem modTt_afe (f : Timetable → Timetable) : (s.modTt f).afe = s.afe := rfl
@[simp] theorem modTt_sc (f : Timetable → Timetable) : (s.modTt f).sc = s.sc := rfl
@[simp] theorem modTt_mem (f : Timetable → Timetable) : (s.modTt f).mem = s.mem := rfl
@[simp] theorem modTt_cw (f : Timetable → Timetable) : (s.modTt f).cw = s.cw := rfl
@[simp] theorem modTt_dma (f : Timetable → Timetable) : (s.modTt f).dma = s.dma := rfl
@[simp] theorem modTt_intc (f : Timetable → Timetable) : (s.modTt f).intc = s.intc := rfl
@[simp] theorem modTt_hp (f : Timetable → Timetable) : (s.modTt f).hp = s.hp := rfl
@[simp] theorem modTt_hl (f : Timetable → Timetable) : (s.modTt f).hl = s.hl := rfl
@[simp] theorem modTt_tsi (f : Timetable → Timetable) : (s.modTt f).tsi = s.tsi := rfl
@[simp] theorem modTt_smb (f : Timetable → Timetable) : (s.modTt f).smb = s.smb := rfl
@[simp] theorem modTt_pack (f : Timetable → Timetable) : (s.modTt f).pack = s.pack := rfl
@[simp] theorem modTt_msp (f : Timetable → Timetable) : (s.modTt f).msp = s.msp := rfl
@[simp] theorem modTt_flt (f : Timetable → Timetable) : (s.modTt f).flt = s.flt := rfl
@[simp] theorem modTt_upd (f : Timetable → Timetable) : (s.modTt f).upd = s.upd := rfl
@[simp] theorem modTt_svc (f : Timetable → Timetable) : (s.modTt f).svc = s.svc := rfl
@[simp] theorem modTt_pm (f : Timetable → Timetable) : (s.modTt f).pm = s.pm := rfl
@[simp] theorem modTt_rs (f : Timetable → Timetable) : (s.modTt f).rs = s.rs := rfl
@[simp] theorem modTt_pins (f : Timetable → Timetable) : (s.modTt f).pins = s.pins := rfl
@[simp] theorem modTt_reports (f : Timetable → Timetable) : (s.modTt f).reports = s.reports := rfl
@[simp] theorem modTt_rdata (f : Timetable → Timetable) : (s.modTt f).rdata = s.rdata := rfl
@[simp] theorem modTt_freeCtr (f : Timetable → Timetable) : (s.modTt f).freeCtr = s.freeCtr := rfl
@[simp] theorem modTt_pending (f : Timetable → Timetable) : (s.modTt f).pending = s.pending := rfl
@[simp] theorem modTt_time (f : Timetable → Timetable) : (s.modTt f).time = s.time := rfl
@[simp] theorem modTt_cyc (f : Timetable → Timetable) : (s.modTt f).cyc = s.cyc := rfl

/-! ## modMe -/

@[simp] theorem modMe_boot (f : MicroEngine → MicroEngine) : (s.modMe f).boot = s.boot := rfl
@[simp] theorem modMe_xf (f : MicroEngine → MicroEngine) : (s.modMe f).xf = s.xf := rfl
@[simp] theorem modMe_otp (f : MicroEngine → MicroEngine) : (s.modMe f).otp = s.otp := rfl
@[simp] theorem modMe_pwr (f : MicroEngine → MicroEngine) : (s.modMe f).pwr = s.pwr := rfl
@[simp] theorem modMe_canopy (f : MicroEngine → MicroEngine) : (s.modMe f).canopy = s.canopy := rfl
@[simp] theorem modMe_tbs (f : MicroEngine → MicroEngine) : (s.modMe f).tbs = s.tbs := rfl
@[simp] theorem modMe_chans (f : MicroEngine → MicroEngine) : (s.modMe f).chans = s.chans := rfl
@[simp] theorem modMe_groves (f : MicroEngine → MicroEngine) : (s.modMe f).groves = s.groves := rfl
@[simp] theorem modMe_ads (f : MicroEngine → MicroEngine) : (s.modMe f).ads = s.ads := rfl
@[simp] theorem modMe_pls (f : MicroEngine → MicroEngine) : (s.modMe f).pls = s.pls := rfl
@[simp] theorem modMe_tt (f : MicroEngine → MicroEngine) : (s.modMe f).tt = s.tt := rfl
theorem modMe_me (f : MicroEngine → MicroEngine) : (s.modMe f).me = f s.me := rfl
@[simp] theorem modMe_ps (f : MicroEngine → MicroEngine) : (s.modMe f).ps = s.ps := rfl
@[simp] theorem modMe_afe (f : MicroEngine → MicroEngine) : (s.modMe f).afe = s.afe := rfl
@[simp] theorem modMe_sc (f : MicroEngine → MicroEngine) : (s.modMe f).sc = s.sc := rfl
@[simp] theorem modMe_mem (f : MicroEngine → MicroEngine) : (s.modMe f).mem = s.mem := rfl
@[simp] theorem modMe_cw (f : MicroEngine → MicroEngine) : (s.modMe f).cw = s.cw := rfl
@[simp] theorem modMe_dma (f : MicroEngine → MicroEngine) : (s.modMe f).dma = s.dma := rfl
@[simp] theorem modMe_intc (f : MicroEngine → MicroEngine) : (s.modMe f).intc = s.intc := rfl
@[simp] theorem modMe_hp (f : MicroEngine → MicroEngine) : (s.modMe f).hp = s.hp := rfl
@[simp] theorem modMe_hl (f : MicroEngine → MicroEngine) : (s.modMe f).hl = s.hl := rfl
@[simp] theorem modMe_tsi (f : MicroEngine → MicroEngine) : (s.modMe f).tsi = s.tsi := rfl
@[simp] theorem modMe_smb (f : MicroEngine → MicroEngine) : (s.modMe f).smb = s.smb := rfl
@[simp] theorem modMe_pack (f : MicroEngine → MicroEngine) : (s.modMe f).pack = s.pack := rfl
@[simp] theorem modMe_msp (f : MicroEngine → MicroEngine) : (s.modMe f).msp = s.msp := rfl
@[simp] theorem modMe_flt (f : MicroEngine → MicroEngine) : (s.modMe f).flt = s.flt := rfl
@[simp] theorem modMe_upd (f : MicroEngine → MicroEngine) : (s.modMe f).upd = s.upd := rfl
@[simp] theorem modMe_svc (f : MicroEngine → MicroEngine) : (s.modMe f).svc = s.svc := rfl
@[simp] theorem modMe_pm (f : MicroEngine → MicroEngine) : (s.modMe f).pm = s.pm := rfl
@[simp] theorem modMe_rs (f : MicroEngine → MicroEngine) : (s.modMe f).rs = s.rs := rfl
@[simp] theorem modMe_pins (f : MicroEngine → MicroEngine) : (s.modMe f).pins = s.pins := rfl
@[simp] theorem modMe_reports (f : MicroEngine → MicroEngine) : (s.modMe f).reports = s.reports := rfl
@[simp] theorem modMe_rdata (f : MicroEngine → MicroEngine) : (s.modMe f).rdata = s.rdata := rfl
@[simp] theorem modMe_freeCtr (f : MicroEngine → MicroEngine) : (s.modMe f).freeCtr = s.freeCtr := rfl
@[simp] theorem modMe_pending (f : MicroEngine → MicroEngine) : (s.modMe f).pending = s.pending := rfl
@[simp] theorem modMe_time (f : MicroEngine → MicroEngine) : (s.modMe f).time = s.time := rfl
@[simp] theorem modMe_cyc (f : MicroEngine → MicroEngine) : (s.modMe f).cyc = s.cyc := rfl

/-! ## modEng -/

@[simp] theorem modEng_boot (e : Fin 8) (f : PinSeq → PinSeq) : (s.modEng e f).boot = s.boot := rfl
@[simp] theorem modEng_xf (e : Fin 8) (f : PinSeq → PinSeq) : (s.modEng e f).xf = s.xf := rfl
@[simp] theorem modEng_otp (e : Fin 8) (f : PinSeq → PinSeq) : (s.modEng e f).otp = s.otp := rfl
@[simp] theorem modEng_pwr (e : Fin 8) (f : PinSeq → PinSeq) : (s.modEng e f).pwr = s.pwr := rfl
@[simp] theorem modEng_canopy (e : Fin 8) (f : PinSeq → PinSeq) : (s.modEng e f).canopy = s.canopy := rfl
@[simp] theorem modEng_tbs (e : Fin 8) (f : PinSeq → PinSeq) : (s.modEng e f).tbs = s.tbs := rfl
@[simp] theorem modEng_chans (e : Fin 8) (f : PinSeq → PinSeq) : (s.modEng e f).chans = s.chans := rfl
@[simp] theorem modEng_groves (e : Fin 8) (f : PinSeq → PinSeq) : (s.modEng e f).groves = s.groves := rfl
@[simp] theorem modEng_ads (e : Fin 8) (f : PinSeq → PinSeq) : (s.modEng e f).ads = s.ads := rfl
@[simp] theorem modEng_pls (e : Fin 8) (f : PinSeq → PinSeq) : (s.modEng e f).pls = s.pls := rfl
@[simp] theorem modEng_tt (e : Fin 8) (f : PinSeq → PinSeq) : (s.modEng e f).tt = s.tt := rfl
@[simp] theorem modEng_me (e : Fin 8) (f : PinSeq → PinSeq) : (s.modEng e f).me = s.me := rfl
theorem modEng_ps (e : Fin 8) (f : PinSeq → PinSeq) : (s.modEng e f).ps = { s.ps with eng := vset s.ps.eng e f } := rfl
@[simp] theorem modEng_afe (e : Fin 8) (f : PinSeq → PinSeq) : (s.modEng e f).afe = s.afe := rfl
@[simp] theorem modEng_sc (e : Fin 8) (f : PinSeq → PinSeq) : (s.modEng e f).sc = s.sc := rfl
@[simp] theorem modEng_mem (e : Fin 8) (f : PinSeq → PinSeq) : (s.modEng e f).mem = s.mem := rfl
@[simp] theorem modEng_cw (e : Fin 8) (f : PinSeq → PinSeq) : (s.modEng e f).cw = s.cw := rfl
@[simp] theorem modEng_dma (e : Fin 8) (f : PinSeq → PinSeq) : (s.modEng e f).dma = s.dma := rfl
@[simp] theorem modEng_intc (e : Fin 8) (f : PinSeq → PinSeq) : (s.modEng e f).intc = s.intc := rfl
@[simp] theorem modEng_hp (e : Fin 8) (f : PinSeq → PinSeq) : (s.modEng e f).hp = s.hp := rfl
@[simp] theorem modEng_hl (e : Fin 8) (f : PinSeq → PinSeq) : (s.modEng e f).hl = s.hl := rfl
@[simp] theorem modEng_tsi (e : Fin 8) (f : PinSeq → PinSeq) : (s.modEng e f).tsi = s.tsi := rfl
@[simp] theorem modEng_smb (e : Fin 8) (f : PinSeq → PinSeq) : (s.modEng e f).smb = s.smb := rfl
@[simp] theorem modEng_pack (e : Fin 8) (f : PinSeq → PinSeq) : (s.modEng e f).pack = s.pack := rfl
@[simp] theorem modEng_msp (e : Fin 8) (f : PinSeq → PinSeq) : (s.modEng e f).msp = s.msp := rfl
@[simp] theorem modEng_flt (e : Fin 8) (f : PinSeq → PinSeq) : (s.modEng e f).flt = s.flt := rfl
@[simp] theorem modEng_upd (e : Fin 8) (f : PinSeq → PinSeq) : (s.modEng e f).upd = s.upd := rfl
@[simp] theorem modEng_svc (e : Fin 8) (f : PinSeq → PinSeq) : (s.modEng e f).svc = s.svc := rfl
@[simp] theorem modEng_pm (e : Fin 8) (f : PinSeq → PinSeq) : (s.modEng e f).pm = s.pm := rfl
@[simp] theorem modEng_rs (e : Fin 8) (f : PinSeq → PinSeq) : (s.modEng e f).rs = s.rs := rfl
@[simp] theorem modEng_pins (e : Fin 8) (f : PinSeq → PinSeq) : (s.modEng e f).pins = s.pins := rfl
@[simp] theorem modEng_reports (e : Fin 8) (f : PinSeq → PinSeq) : (s.modEng e f).reports = s.reports := rfl
@[simp] theorem modEng_rdata (e : Fin 8) (f : PinSeq → PinSeq) : (s.modEng e f).rdata = s.rdata := rfl
@[simp] theorem modEng_freeCtr (e : Fin 8) (f : PinSeq → PinSeq) : (s.modEng e f).freeCtr = s.freeCtr := rfl
@[simp] theorem modEng_pending (e : Fin 8) (f : PinSeq → PinSeq) : (s.modEng e f).pending = s.pending := rfl
@[simp] theorem modEng_time (e : Fin 8) (f : PinSeq → PinSeq) : (s.modEng e f).time = s.time := rfl
@[simp] theorem modEng_cyc (e : Fin 8) (f : PinSeq → PinSeq) : (s.modEng e f).cyc = s.cyc := rfl

/-! ## modAfe -/

@[simp] theorem modAfe_boot (f : Afe → Afe) : (s.modAfe f).boot = s.boot := rfl
@[simp] theorem modAfe_xf (f : Afe → Afe) : (s.modAfe f).xf = s.xf := rfl
@[simp] theorem modAfe_otp (f : Afe → Afe) : (s.modAfe f).otp = s.otp := rfl
@[simp] theorem modAfe_pwr (f : Afe → Afe) : (s.modAfe f).pwr = s.pwr := rfl
@[simp] theorem modAfe_canopy (f : Afe → Afe) : (s.modAfe f).canopy = s.canopy := rfl
@[simp] theorem modAfe_tbs (f : Afe → Afe) : (s.modAfe f).tbs = s.tbs := rfl
@[simp] theorem modAfe_chans (f : Afe → Afe) : (s.modAfe f).chans = s.chans := rfl
@[simp] theorem modAfe_groves (f : Afe → Afe) : (s.modAfe f).groves = s.groves := rfl
@[simp] theorem modAfe_ads (f : Afe → Afe) : (s.modAfe f).ads = s.ads := rfl
@[simp] theorem modAfe_pls (f : Afe → Afe) : (s.modAfe f).pls = s.pls := rfl
@[simp] theorem modAfe_tt (f : Afe → Afe) : (s.modAfe f).tt = s.tt := rfl
@[simp] theorem modAfe_me (f : Afe → Afe) : (s.modAfe f).me = s.me := rfl
@[simp] theorem modAfe_ps (f : Afe → Afe) : (s.modAfe f).ps = s.ps := rfl
theorem modAfe_afe (f : Afe → Afe) : (s.modAfe f).afe = f s.afe := rfl
@[simp] theorem modAfe_sc (f : Afe → Afe) : (s.modAfe f).sc = s.sc := rfl
@[simp] theorem modAfe_mem (f : Afe → Afe) : (s.modAfe f).mem = s.mem := rfl
@[simp] theorem modAfe_cw (f : Afe → Afe) : (s.modAfe f).cw = s.cw := rfl
@[simp] theorem modAfe_dma (f : Afe → Afe) : (s.modAfe f).dma = s.dma := rfl
@[simp] theorem modAfe_intc (f : Afe → Afe) : (s.modAfe f).intc = s.intc := rfl
@[simp] theorem modAfe_hp (f : Afe → Afe) : (s.modAfe f).hp = s.hp := rfl
@[simp] theorem modAfe_hl (f : Afe → Afe) : (s.modAfe f).hl = s.hl := rfl
@[simp] theorem modAfe_tsi (f : Afe → Afe) : (s.modAfe f).tsi = s.tsi := rfl
@[simp] theorem modAfe_smb (f : Afe → Afe) : (s.modAfe f).smb = s.smb := rfl
@[simp] theorem modAfe_pack (f : Afe → Afe) : (s.modAfe f).pack = s.pack := rfl
@[simp] theorem modAfe_msp (f : Afe → Afe) : (s.modAfe f).msp = s.msp := rfl
@[simp] theorem modAfe_flt (f : Afe → Afe) : (s.modAfe f).flt = s.flt := rfl
@[simp] theorem modAfe_upd (f : Afe → Afe) : (s.modAfe f).upd = s.upd := rfl
@[simp] theorem modAfe_svc (f : Afe → Afe) : (s.modAfe f).svc = s.svc := rfl
@[simp] theorem modAfe_pm (f : Afe → Afe) : (s.modAfe f).pm = s.pm := rfl
@[simp] theorem modAfe_rs (f : Afe → Afe) : (s.modAfe f).rs = s.rs := rfl
@[simp] theorem modAfe_pins (f : Afe → Afe) : (s.modAfe f).pins = s.pins := rfl
@[simp] theorem modAfe_reports (f : Afe → Afe) : (s.modAfe f).reports = s.reports := rfl
@[simp] theorem modAfe_rdata (f : Afe → Afe) : (s.modAfe f).rdata = s.rdata := rfl
@[simp] theorem modAfe_freeCtr (f : Afe → Afe) : (s.modAfe f).freeCtr = s.freeCtr := rfl
@[simp] theorem modAfe_pending (f : Afe → Afe) : (s.modAfe f).pending = s.pending := rfl
@[simp] theorem modAfe_time (f : Afe → Afe) : (s.modAfe f).time = s.time := rfl
@[simp] theorem modAfe_cyc (f : Afe → Afe) : (s.modAfe f).cyc = s.cyc := rfl

/-! ## modSc -/

@[simp] theorem modSc_boot (f : Seating → Seating) : (s.modSc f).boot = s.boot := rfl
@[simp] theorem modSc_xf (f : Seating → Seating) : (s.modSc f).xf = s.xf := rfl
@[simp] theorem modSc_otp (f : Seating → Seating) : (s.modSc f).otp = s.otp := rfl
@[simp] theorem modSc_pwr (f : Seating → Seating) : (s.modSc f).pwr = s.pwr := rfl
@[simp] theorem modSc_canopy (f : Seating → Seating) : (s.modSc f).canopy = s.canopy := rfl
@[simp] theorem modSc_tbs (f : Seating → Seating) : (s.modSc f).tbs = s.tbs := rfl
@[simp] theorem modSc_chans (f : Seating → Seating) : (s.modSc f).chans = s.chans := rfl
@[simp] theorem modSc_groves (f : Seating → Seating) : (s.modSc f).groves = s.groves := rfl
@[simp] theorem modSc_ads (f : Seating → Seating) : (s.modSc f).ads = s.ads := rfl
@[simp] theorem modSc_pls (f : Seating → Seating) : (s.modSc f).pls = s.pls := rfl
@[simp] theorem modSc_tt (f : Seating → Seating) : (s.modSc f).tt = s.tt := rfl
@[simp] theorem modSc_me (f : Seating → Seating) : (s.modSc f).me = s.me := rfl
@[simp] theorem modSc_ps (f : Seating → Seating) : (s.modSc f).ps = s.ps := rfl
@[simp] theorem modSc_afe (f : Seating → Seating) : (s.modSc f).afe = s.afe := rfl
theorem modSc_sc (f : Seating → Seating) : (s.modSc f).sc = f s.sc := rfl
@[simp] theorem modSc_mem (f : Seating → Seating) : (s.modSc f).mem = s.mem := rfl
@[simp] theorem modSc_cw (f : Seating → Seating) : (s.modSc f).cw = s.cw := rfl
@[simp] theorem modSc_dma (f : Seating → Seating) : (s.modSc f).dma = s.dma := rfl
@[simp] theorem modSc_intc (f : Seating → Seating) : (s.modSc f).intc = s.intc := rfl
@[simp] theorem modSc_hp (f : Seating → Seating) : (s.modSc f).hp = s.hp := rfl
@[simp] theorem modSc_hl (f : Seating → Seating) : (s.modSc f).hl = s.hl := rfl
@[simp] theorem modSc_tsi (f : Seating → Seating) : (s.modSc f).tsi = s.tsi := rfl
@[simp] theorem modSc_smb (f : Seating → Seating) : (s.modSc f).smb = s.smb := rfl
@[simp] theorem modSc_pack (f : Seating → Seating) : (s.modSc f).pack = s.pack := rfl
@[simp] theorem modSc_msp (f : Seating → Seating) : (s.modSc f).msp = s.msp := rfl
@[simp] theorem modSc_flt (f : Seating → Seating) : (s.modSc f).flt = s.flt := rfl
@[simp] theorem modSc_upd (f : Seating → Seating) : (s.modSc f).upd = s.upd := rfl
@[simp] theorem modSc_svc (f : Seating → Seating) : (s.modSc f).svc = s.svc := rfl
@[simp] theorem modSc_pm (f : Seating → Seating) : (s.modSc f).pm = s.pm := rfl
@[simp] theorem modSc_rs (f : Seating → Seating) : (s.modSc f).rs = s.rs := rfl
@[simp] theorem modSc_pins (f : Seating → Seating) : (s.modSc f).pins = s.pins := rfl
@[simp] theorem modSc_reports (f : Seating → Seating) : (s.modSc f).reports = s.reports := rfl
@[simp] theorem modSc_rdata (f : Seating → Seating) : (s.modSc f).rdata = s.rdata := rfl
@[simp] theorem modSc_freeCtr (f : Seating → Seating) : (s.modSc f).freeCtr = s.freeCtr := rfl
@[simp] theorem modSc_pending (f : Seating → Seating) : (s.modSc f).pending = s.pending := rfl
@[simp] theorem modSc_time (f : Seating → Seating) : (s.modSc f).time = s.time := rfl
@[simp] theorem modSc_cyc (f : Seating → Seating) : (s.modSc f).cyc = s.cyc := rfl

/-! ## modBoot -/

theorem modBoot_boot (f : Boot → Boot) : (s.modBoot f).boot = f s.boot := rfl
@[simp] theorem modBoot_xf (f : Boot → Boot) : (s.modBoot f).xf = s.xf := rfl
@[simp] theorem modBoot_otp (f : Boot → Boot) : (s.modBoot f).otp = s.otp := rfl
@[simp] theorem modBoot_pwr (f : Boot → Boot) : (s.modBoot f).pwr = s.pwr := rfl
@[simp] theorem modBoot_canopy (f : Boot → Boot) : (s.modBoot f).canopy = s.canopy := rfl
@[simp] theorem modBoot_tbs (f : Boot → Boot) : (s.modBoot f).tbs = s.tbs := rfl
@[simp] theorem modBoot_chans (f : Boot → Boot) : (s.modBoot f).chans = s.chans := rfl
@[simp] theorem modBoot_groves (f : Boot → Boot) : (s.modBoot f).groves = s.groves := rfl
@[simp] theorem modBoot_ads (f : Boot → Boot) : (s.modBoot f).ads = s.ads := rfl
@[simp] theorem modBoot_pls (f : Boot → Boot) : (s.modBoot f).pls = s.pls := rfl
@[simp] theorem modBoot_tt (f : Boot → Boot) : (s.modBoot f).tt = s.tt := rfl
@[simp] theorem modBoot_me (f : Boot → Boot) : (s.modBoot f).me = s.me := rfl
@[simp] theorem modBoot_ps (f : Boot → Boot) : (s.modBoot f).ps = s.ps := rfl
@[simp] theorem modBoot_afe (f : Boot → Boot) : (s.modBoot f).afe = s.afe := rfl
@[simp] theorem modBoot_sc (f : Boot → Boot) : (s.modBoot f).sc = s.sc := rfl
@[simp] theorem modBoot_mem (f : Boot → Boot) : (s.modBoot f).mem = s.mem := rfl
@[simp] theorem modBoot_cw (f : Boot → Boot) : (s.modBoot f).cw = s.cw := rfl
@[simp] theorem modBoot_dma (f : Boot → Boot) : (s.modBoot f).dma = s.dma := rfl
@[simp] theorem modBoot_intc (f : Boot → Boot) : (s.modBoot f).intc = s.intc := rfl
@[simp] theorem modBoot_hp (f : Boot → Boot) : (s.modBoot f).hp = s.hp := rfl
@[simp] theorem modBoot_hl (f : Boot → Boot) : (s.modBoot f).hl = s.hl := rfl
@[simp] theorem modBoot_tsi (f : Boot → Boot) : (s.modBoot f).tsi = s.tsi := rfl
@[simp] theorem modBoot_smb (f : Boot → Boot) : (s.modBoot f).smb = s.smb := rfl
@[simp] theorem modBoot_pack (f : Boot → Boot) : (s.modBoot f).pack = s.pack := rfl
@[simp] theorem modBoot_msp (f : Boot → Boot) : (s.modBoot f).msp = s.msp := rfl
@[simp] theorem modBoot_flt (f : Boot → Boot) : (s.modBoot f).flt = s.flt := rfl
@[simp] theorem modBoot_upd (f : Boot → Boot) : (s.modBoot f).upd = s.upd := rfl
@[simp] theorem modBoot_svc (f : Boot → Boot) : (s.modBoot f).svc = s.svc := rfl
@[simp] theorem modBoot_pm (f : Boot → Boot) : (s.modBoot f).pm = s.pm := rfl
@[simp] theorem modBoot_rs (f : Boot → Boot) : (s.modBoot f).rs = s.rs := rfl
@[simp] theorem modBoot_pins (f : Boot → Boot) : (s.modBoot f).pins = s.pins := rfl
@[simp] theorem modBoot_reports (f : Boot → Boot) : (s.modBoot f).reports = s.reports := rfl
@[simp] theorem modBoot_rdata (f : Boot → Boot) : (s.modBoot f).rdata = s.rdata := rfl
@[simp] theorem modBoot_freeCtr (f : Boot → Boot) : (s.modBoot f).freeCtr = s.freeCtr := rfl
@[simp] theorem modBoot_pending (f : Boot → Boot) : (s.modBoot f).pending = s.pending := rfl
@[simp] theorem modBoot_time (f : Boot → Boot) : (s.modBoot f).time = s.time := rfl
@[simp] theorem modBoot_cyc (f : Boot → Boot) : (s.modBoot f).cyc = s.cyc := rfl

/-! ## modPwr -/

@[simp] theorem modPwr_boot (f : Power → Power) : (s.modPwr f).boot = s.boot := rfl
@[simp] theorem modPwr_xf (f : Power → Power) : (s.modPwr f).xf = s.xf := rfl
@[simp] theorem modPwr_otp (f : Power → Power) : (s.modPwr f).otp = s.otp := rfl
theorem modPwr_pwr (f : Power → Power) : (s.modPwr f).pwr = f s.pwr := rfl
@[simp] theorem modPwr_canopy (f : Power → Power) : (s.modPwr f).canopy = s.canopy := rfl
@[simp] theorem modPwr_tbs (f : Power → Power) : (s.modPwr f).tbs = s.tbs := rfl
@[simp] theorem modPwr_chans (f : Power → Power) : (s.modPwr f).chans = s.chans := rfl
@[simp] theorem modPwr_groves (f : Power → Power) : (s.modPwr f).groves = s.groves := rfl
@[simp] theorem modPwr_ads (f : Power → Power) : (s.modPwr f).ads = s.ads := rfl
@[simp] theorem modPwr_pls (f : Power → Power) : (s.modPwr f).pls = s.pls := rfl
@[simp] theorem modPwr_tt (f : Power → Power) : (s.modPwr f).tt = s.tt := rfl
@[simp] theorem modPwr_me (f : Power → Power) : (s.modPwr f).me = s.me := rfl
@[simp] theorem modPwr_ps (f : Power → Power) : (s.modPwr f).ps = s.ps := rfl
@[simp] theorem modPwr_afe (f : Power → Power) : (s.modPwr f).afe = s.afe := rfl
@[simp] theorem modPwr_sc (f : Power → Power) : (s.modPwr f).sc = s.sc := rfl
@[simp] theorem modPwr_mem (f : Power → Power) : (s.modPwr f).mem = s.mem := rfl
@[simp] theorem modPwr_cw (f : Power → Power) : (s.modPwr f).cw = s.cw := rfl
@[simp] theorem modPwr_dma (f : Power → Power) : (s.modPwr f).dma = s.dma := rfl
@[simp] theorem modPwr_intc (f : Power → Power) : (s.modPwr f).intc = s.intc := rfl
@[simp] theorem modPwr_hp (f : Power → Power) : (s.modPwr f).hp = s.hp := rfl
@[simp] theorem modPwr_hl (f : Power → Power) : (s.modPwr f).hl = s.hl := rfl
@[simp] theorem modPwr_tsi (f : Power → Power) : (s.modPwr f).tsi = s.tsi := rfl
@[simp] theorem modPwr_smb (f : Power → Power) : (s.modPwr f).smb = s.smb := rfl
@[simp] theorem modPwr_pack (f : Power → Power) : (s.modPwr f).pack = s.pack := rfl
@[simp] theorem modPwr_msp (f : Power → Power) : (s.modPwr f).msp = s.msp := rfl
@[simp] theorem modPwr_flt (f : Power → Power) : (s.modPwr f).flt = s.flt := rfl
@[simp] theorem modPwr_upd (f : Power → Power) : (s.modPwr f).upd = s.upd := rfl
@[simp] theorem modPwr_svc (f : Power → Power) : (s.modPwr f).svc = s.svc := rfl
@[simp] theorem modPwr_pm (f : Power → Power) : (s.modPwr f).pm = s.pm := rfl
@[simp] theorem modPwr_rs (f : Power → Power) : (s.modPwr f).rs = s.rs := rfl
@[simp] theorem modPwr_pins (f : Power → Power) : (s.modPwr f).pins = s.pins := rfl
@[simp] theorem modPwr_reports (f : Power → Power) : (s.modPwr f).reports = s.reports := rfl
@[simp] theorem modPwr_rdata (f : Power → Power) : (s.modPwr f).rdata = s.rdata := rfl
@[simp] theorem modPwr_freeCtr (f : Power → Power) : (s.modPwr f).freeCtr = s.freeCtr := rfl
@[simp] theorem modPwr_pending (f : Power → Power) : (s.modPwr f).pending = s.pending := rfl
@[simp] theorem modPwr_time (f : Power → Power) : (s.modPwr f).time = s.time := rfl
@[simp] theorem modPwr_cyc (f : Power → Power) : (s.modPwr f).cyc = s.cyc := rfl

/-! ## modCanopy -/

@[simp] theorem modCanopy_boot (f : Canopy → Canopy) : (s.modCanopy f).boot = s.boot := rfl
@[simp] theorem modCanopy_xf (f : Canopy → Canopy) : (s.modCanopy f).xf = s.xf := rfl
@[simp] theorem modCanopy_otp (f : Canopy → Canopy) : (s.modCanopy f).otp = s.otp := rfl
@[simp] theorem modCanopy_pwr (f : Canopy → Canopy) : (s.modCanopy f).pwr = s.pwr := rfl
theorem modCanopy_canopy (f : Canopy → Canopy) : (s.modCanopy f).canopy = f s.canopy := rfl
@[simp] theorem modCanopy_tbs (f : Canopy → Canopy) : (s.modCanopy f).tbs = s.tbs := rfl
@[simp] theorem modCanopy_chans (f : Canopy → Canopy) : (s.modCanopy f).chans = s.chans := rfl
@[simp] theorem modCanopy_groves (f : Canopy → Canopy) : (s.modCanopy f).groves = s.groves := rfl
@[simp] theorem modCanopy_ads (f : Canopy → Canopy) : (s.modCanopy f).ads = s.ads := rfl
@[simp] theorem modCanopy_pls (f : Canopy → Canopy) : (s.modCanopy f).pls = s.pls := rfl
@[simp] theorem modCanopy_tt (f : Canopy → Canopy) : (s.modCanopy f).tt = s.tt := rfl
@[simp] theorem modCanopy_me (f : Canopy → Canopy) : (s.modCanopy f).me = s.me := rfl
@[simp] theorem modCanopy_ps (f : Canopy → Canopy) : (s.modCanopy f).ps = s.ps := rfl
@[simp] theorem modCanopy_afe (f : Canopy → Canopy) : (s.modCanopy f).afe = s.afe := rfl
@[simp] theorem modCanopy_sc (f : Canopy → Canopy) : (s.modCanopy f).sc = s.sc := rfl
@[simp] theorem modCanopy_mem (f : Canopy → Canopy) : (s.modCanopy f).mem = s.mem := rfl
@[simp] theorem modCanopy_cw (f : Canopy → Canopy) : (s.modCanopy f).cw = s.cw := rfl
@[simp] theorem modCanopy_dma (f : Canopy → Canopy) : (s.modCanopy f).dma = s.dma := rfl
@[simp] theorem modCanopy_intc (f : Canopy → Canopy) : (s.modCanopy f).intc = s.intc := rfl
@[simp] theorem modCanopy_hp (f : Canopy → Canopy) : (s.modCanopy f).hp = s.hp := rfl
@[simp] theorem modCanopy_hl (f : Canopy → Canopy) : (s.modCanopy f).hl = s.hl := rfl
@[simp] theorem modCanopy_tsi (f : Canopy → Canopy) : (s.modCanopy f).tsi = s.tsi := rfl
@[simp] theorem modCanopy_smb (f : Canopy → Canopy) : (s.modCanopy f).smb = s.smb := rfl
@[simp] theorem modCanopy_pack (f : Canopy → Canopy) : (s.modCanopy f).pack = s.pack := rfl
@[simp] theorem modCanopy_msp (f : Canopy → Canopy) : (s.modCanopy f).msp = s.msp := rfl
@[simp] theorem modCanopy_flt (f : Canopy → Canopy) : (s.modCanopy f).flt = s.flt := rfl
@[simp] theorem modCanopy_upd (f : Canopy → Canopy) : (s.modCanopy f).upd = s.upd := rfl
@[simp] theorem modCanopy_svc (f : Canopy → Canopy) : (s.modCanopy f).svc = s.svc := rfl
@[simp] theorem modCanopy_pm (f : Canopy → Canopy) : (s.modCanopy f).pm = s.pm := rfl
@[simp] theorem modCanopy_rs (f : Canopy → Canopy) : (s.modCanopy f).rs = s.rs := rfl
@[simp] theorem modCanopy_pins (f : Canopy → Canopy) : (s.modCanopy f).pins = s.pins := rfl
@[simp] theorem modCanopy_reports (f : Canopy → Canopy) : (s.modCanopy f).reports = s.reports := rfl
@[simp] theorem modCanopy_rdata (f : Canopy → Canopy) : (s.modCanopy f).rdata = s.rdata := rfl
@[simp] theorem modCanopy_freeCtr (f : Canopy → Canopy) : (s.modCanopy f).freeCtr = s.freeCtr := rfl
@[simp] theorem modCanopy_pending (f : Canopy → Canopy) : (s.modCanopy f).pending = s.pending := rfl
@[simp] theorem modCanopy_time (f : Canopy → Canopy) : (s.modCanopy f).time = s.time := rfl
@[simp] theorem modCanopy_cyc (f : Canopy → Canopy) : (s.modCanopy f).cyc = s.cyc := rfl

/-! ## modTbs -/

@[simp] theorem modTbs_boot (f : Timebase → Timebase) : (s.modTbs f).boot = s.boot := rfl
@[simp] theorem modTbs_xf (f : Timebase → Timebase) : (s.modTbs f).xf = s.xf := rfl
@[simp] theorem modTbs_otp (f : Timebase → Timebase) : (s.modTbs f).otp = s.otp := rfl
@[simp] theorem modTbs_pwr (f : Timebase → Timebase) : (s.modTbs f).pwr = s.pwr := rfl
@[simp] theorem modTbs_canopy (f : Timebase → Timebase) : (s.modTbs f).canopy = s.canopy := rfl
theorem modTbs_tbs (f : Timebase → Timebase) : (s.modTbs f).tbs = f s.tbs := rfl
@[simp] theorem modTbs_chans (f : Timebase → Timebase) : (s.modTbs f).chans = s.chans := rfl
@[simp] theorem modTbs_groves (f : Timebase → Timebase) : (s.modTbs f).groves = s.groves := rfl
@[simp] theorem modTbs_ads (f : Timebase → Timebase) : (s.modTbs f).ads = s.ads := rfl
@[simp] theorem modTbs_pls (f : Timebase → Timebase) : (s.modTbs f).pls = s.pls := rfl
@[simp] theorem modTbs_tt (f : Timebase → Timebase) : (s.modTbs f).tt = s.tt := rfl
@[simp] theorem modTbs_me (f : Timebase → Timebase) : (s.modTbs f).me = s.me := rfl
@[simp] theorem modTbs_ps (f : Timebase → Timebase) : (s.modTbs f).ps = s.ps := rfl
@[simp] theorem modTbs_afe (f : Timebase → Timebase) : (s.modTbs f).afe = s.afe := rfl
@[simp] theorem modTbs_sc (f : Timebase → Timebase) : (s.modTbs f).sc = s.sc := rfl
@[simp] theorem modTbs_mem (f : Timebase → Timebase) : (s.modTbs f).mem = s.mem := rfl
@[simp] theorem modTbs_cw (f : Timebase → Timebase) : (s.modTbs f).cw = s.cw := rfl
@[simp] theorem modTbs_dma (f : Timebase → Timebase) : (s.modTbs f).dma = s.dma := rfl
@[simp] theorem modTbs_intc (f : Timebase → Timebase) : (s.modTbs f).intc = s.intc := rfl
@[simp] theorem modTbs_hp (f : Timebase → Timebase) : (s.modTbs f).hp = s.hp := rfl
@[simp] theorem modTbs_hl (f : Timebase → Timebase) : (s.modTbs f).hl = s.hl := rfl
@[simp] theorem modTbs_tsi (f : Timebase → Timebase) : (s.modTbs f).tsi = s.tsi := rfl
@[simp] theorem modTbs_smb (f : Timebase → Timebase) : (s.modTbs f).smb = s.smb := rfl
@[simp] theorem modTbs_pack (f : Timebase → Timebase) : (s.modTbs f).pack = s.pack := rfl
@[simp] theorem modTbs_msp (f : Timebase → Timebase) : (s.modTbs f).msp = s.msp := rfl
@[simp] theorem modTbs_flt (f : Timebase → Timebase) : (s.modTbs f).flt = s.flt := rfl
@[simp] theorem modTbs_upd (f : Timebase → Timebase) : (s.modTbs f).upd = s.upd := rfl
@[simp] theorem modTbs_svc (f : Timebase → Timebase) : (s.modTbs f).svc = s.svc := rfl
@[simp] theorem modTbs_pm (f : Timebase → Timebase) : (s.modTbs f).pm = s.pm := rfl
@[simp] theorem modTbs_rs (f : Timebase → Timebase) : (s.modTbs f).rs = s.rs := rfl
@[simp] theorem modTbs_pins (f : Timebase → Timebase) : (s.modTbs f).pins = s.pins := rfl
@[simp] theorem modTbs_reports (f : Timebase → Timebase) : (s.modTbs f).reports = s.reports := rfl
@[simp] theorem modTbs_rdata (f : Timebase → Timebase) : (s.modTbs f).rdata = s.rdata := rfl
@[simp] theorem modTbs_freeCtr (f : Timebase → Timebase) : (s.modTbs f).freeCtr = s.freeCtr := rfl
@[simp] theorem modTbs_pending (f : Timebase → Timebase) : (s.modTbs f).pending = s.pending := rfl
@[simp] theorem modTbs_time (f : Timebase → Timebase) : (s.modTbs f).time = s.time := rfl
@[simp] theorem modTbs_cyc (f : Timebase → Timebase) : (s.modTbs f).cyc = s.cyc := rfl

/-! ## modPins -/

@[simp] theorem modPins_boot (f : Pins → Pins) : (s.modPins f).boot = s.boot := rfl
@[simp] theorem modPins_xf (f : Pins → Pins) : (s.modPins f).xf = s.xf := rfl
@[simp] theorem modPins_otp (f : Pins → Pins) : (s.modPins f).otp = s.otp := rfl
@[simp] theorem modPins_pwr (f : Pins → Pins) : (s.modPins f).pwr = s.pwr := rfl
@[simp] theorem modPins_canopy (f : Pins → Pins) : (s.modPins f).canopy = s.canopy := rfl
@[simp] theorem modPins_tbs (f : Pins → Pins) : (s.modPins f).tbs = s.tbs := rfl
@[simp] theorem modPins_chans (f : Pins → Pins) : (s.modPins f).chans = s.chans := rfl
@[simp] theorem modPins_groves (f : Pins → Pins) : (s.modPins f).groves = s.groves := rfl
@[simp] theorem modPins_ads (f : Pins → Pins) : (s.modPins f).ads = s.ads := rfl
@[simp] theorem modPins_pls (f : Pins → Pins) : (s.modPins f).pls = s.pls := rfl
@[simp] theorem modPins_tt (f : Pins → Pins) : (s.modPins f).tt = s.tt := rfl
@[simp] theorem modPins_me (f : Pins → Pins) : (s.modPins f).me = s.me := rfl
@[simp] theorem modPins_ps (f : Pins → Pins) : (s.modPins f).ps = s.ps := rfl
@[simp] theorem modPins_afe (f : Pins → Pins) : (s.modPins f).afe = s.afe := rfl
@[simp] theorem modPins_sc (f : Pins → Pins) : (s.modPins f).sc = s.sc := rfl
@[simp] theorem modPins_mem (f : Pins → Pins) : (s.modPins f).mem = s.mem := rfl
@[simp] theorem modPins_cw (f : Pins → Pins) : (s.modPins f).cw = s.cw := rfl
@[simp] theorem modPins_dma (f : Pins → Pins) : (s.modPins f).dma = s.dma := rfl
@[simp] theorem modPins_intc (f : Pins → Pins) : (s.modPins f).intc = s.intc := rfl
@[simp] theorem modPins_hp (f : Pins → Pins) : (s.modPins f).hp = s.hp := rfl
@[simp] theorem modPins_hl (f : Pins → Pins) : (s.modPins f).hl = s.hl := rfl
@[simp] theorem modPins_tsi (f : Pins → Pins) : (s.modPins f).tsi = s.tsi := rfl
@[simp] theorem modPins_smb (f : Pins → Pins) : (s.modPins f).smb = s.smb := rfl
@[simp] theorem modPins_pack (f : Pins → Pins) : (s.modPins f).pack = s.pack := rfl
@[simp] theorem modPins_msp (f : Pins → Pins) : (s.modPins f).msp = s.msp := rfl
@[simp] theorem modPins_flt (f : Pins → Pins) : (s.modPins f).flt = s.flt := rfl
@[simp] theorem modPins_upd (f : Pins → Pins) : (s.modPins f).upd = s.upd := rfl
@[simp] theorem modPins_svc (f : Pins → Pins) : (s.modPins f).svc = s.svc := rfl
@[simp] theorem modPins_pm (f : Pins → Pins) : (s.modPins f).pm = s.pm := rfl
@[simp] theorem modPins_rs (f : Pins → Pins) : (s.modPins f).rs = s.rs := rfl
theorem modPins_pins (f : Pins → Pins) : (s.modPins f).pins = f s.pins := rfl
@[simp] theorem modPins_reports (f : Pins → Pins) : (s.modPins f).reports = s.reports := rfl
@[simp] theorem modPins_rdata (f : Pins → Pins) : (s.modPins f).rdata = s.rdata := rfl
@[simp] theorem modPins_freeCtr (f : Pins → Pins) : (s.modPins f).freeCtr = s.freeCtr := rfl
@[simp] theorem modPins_pending (f : Pins → Pins) : (s.modPins f).pending = s.pending := rfl
@[simp] theorem modPins_time (f : Pins → Pins) : (s.modPins f).time = s.time := rfl
@[simp] theorem modPins_cyc (f : Pins → Pins) : (s.modPins f).cyc = s.cyc := rfl

/-! ## modMem -/

@[simp] theorem modMem_boot (f : Mem → Mem) : (s.modMem f).boot = s.boot := rfl
@[simp] theorem modMem_xf (f : Mem → Mem) : (s.modMem f).xf = s.xf := rfl
@[simp] theorem modMem_otp (f : Mem → Mem) : (s.modMem f).otp = s.otp := rfl
@[simp] theorem modMem_pwr (f : Mem → Mem) : (s.modMem f).pwr = s.pwr := rfl
@[simp] theorem modMem_canopy (f : Mem → Mem) : (s.modMem f).canopy = s.canopy := rfl
@[simp] theorem modMem_tbs (f : Mem → Mem) : (s.modMem f).tbs = s.tbs := rfl
@[simp] theorem modMem_chans (f : Mem → Mem) : (s.modMem f).chans = s.chans := rfl
@[simp] theorem modMem_groves (f : Mem → Mem) : (s.modMem f).groves = s.groves := rfl
@[simp] theorem modMem_ads (f : Mem → Mem) : (s.modMem f).ads = s.ads := rfl
@[simp] theorem modMem_pls (f : Mem → Mem) : (s.modMem f).pls = s.pls := rfl
@[simp] theorem modMem_tt (f : Mem → Mem) : (s.modMem f).tt = s.tt := rfl
@[simp] theorem modMem_me (f : Mem → Mem) : (s.modMem f).me = s.me := rfl
@[simp] theorem modMem_ps (f : Mem → Mem) : (s.modMem f).ps = s.ps := rfl
@[simp] theorem modMem_afe (f : Mem → Mem) : (s.modMem f).afe = s.afe := rfl
@[simp] theorem modMem_sc (f : Mem → Mem) : (s.modMem f).sc = s.sc := rfl
theorem modMem_mem (f : Mem → Mem) : (s.modMem f).mem = f s.mem := rfl
@[simp] theorem modMem_cw (f : Mem → Mem) : (s.modMem f).cw = s.cw := rfl
@[simp] theorem modMem_dma (f : Mem → Mem) : (s.modMem f).dma = s.dma := rfl
@[simp] theorem modMem_intc (f : Mem → Mem) : (s.modMem f).intc = s.intc := rfl
@[simp] theorem modMem_hp (f : Mem → Mem) : (s.modMem f).hp = s.hp := rfl
@[simp] theorem modMem_hl (f : Mem → Mem) : (s.modMem f).hl = s.hl := rfl
@[simp] theorem modMem_tsi (f : Mem → Mem) : (s.modMem f).tsi = s.tsi := rfl
@[simp] theorem modMem_smb (f : Mem → Mem) : (s.modMem f).smb = s.smb := rfl
@[simp] theorem modMem_pack (f : Mem → Mem) : (s.modMem f).pack = s.pack := rfl
@[simp] theorem modMem_msp (f : Mem → Mem) : (s.modMem f).msp = s.msp := rfl
@[simp] theorem modMem_flt (f : Mem → Mem) : (s.modMem f).flt = s.flt := rfl
@[simp] theorem modMem_upd (f : Mem → Mem) : (s.modMem f).upd = s.upd := rfl
@[simp] theorem modMem_svc (f : Mem → Mem) : (s.modMem f).svc = s.svc := rfl
@[simp] theorem modMem_pm (f : Mem → Mem) : (s.modMem f).pm = s.pm := rfl
@[simp] theorem modMem_rs (f : Mem → Mem) : (s.modMem f).rs = s.rs := rfl
@[simp] theorem modMem_pins (f : Mem → Mem) : (s.modMem f).pins = s.pins := rfl
@[simp] theorem modMem_reports (f : Mem → Mem) : (s.modMem f).reports = s.reports := rfl
@[simp] theorem modMem_rdata (f : Mem → Mem) : (s.modMem f).rdata = s.rdata := rfl
@[simp] theorem modMem_freeCtr (f : Mem → Mem) : (s.modMem f).freeCtr = s.freeCtr := rfl
@[simp] theorem modMem_pending (f : Mem → Mem) : (s.modMem f).pending = s.pending := rfl
@[simp] theorem modMem_time (f : Mem → Mem) : (s.modMem f).time = s.time := rfl
@[simp] theorem modMem_cyc (f : Mem → Mem) : (s.modMem f).cyc = s.cyc := rfl

/-! ## modBank -/

@[simp] theorem modBank_boot (b : Fin 8) (f : Bank → Bank) : (s.modBank b f).boot = s.boot := rfl
@[simp] theorem modBank_xf (b : Fin 8) (f : Bank → Bank) : (s.modBank b f).xf = s.xf := rfl
@[simp] theorem modBank_otp (b : Fin 8) (f : Bank → Bank) : (s.modBank b f).otp = s.otp := rfl
@[simp] theorem modBank_pwr (b : Fin 8) (f : Bank → Bank) : (s.modBank b f).pwr = s.pwr := rfl
@[simp] theorem modBank_canopy (b : Fin 8) (f : Bank → Bank) : (s.modBank b f).canopy = s.canopy := rfl
@[simp] theorem modBank_tbs (b : Fin 8) (f : Bank → Bank) : (s.modBank b f).tbs = s.tbs := rfl
@[simp] theorem modBank_chans (b : Fin 8) (f : Bank → Bank) : (s.modBank b f).chans = s.chans := rfl
@[simp] theorem modBank_groves (b : Fin 8) (f : Bank → Bank) : (s.modBank b f).groves = s.groves := rfl
@[simp] theorem modBank_ads (b : Fin 8) (f : Bank → Bank) : (s.modBank b f).ads = s.ads := rfl
@[simp] theorem modBank_pls (b : Fin 8) (f : Bank → Bank) : (s.modBank b f).pls = s.pls := rfl
@[simp] theorem modBank_tt (b : Fin 8) (f : Bank → Bank) : (s.modBank b f).tt = s.tt := rfl
@[simp] theorem modBank_me (b : Fin 8) (f : Bank → Bank) : (s.modBank b f).me = s.me := rfl
@[simp] theorem modBank_ps (b : Fin 8) (f : Bank → Bank) : (s.modBank b f).ps = s.ps := rfl
@[simp] theorem modBank_afe (b : Fin 8) (f : Bank → Bank) : (s.modBank b f).afe = s.afe := rfl
@[simp] theorem modBank_sc (b : Fin 8) (f : Bank → Bank) : (s.modBank b f).sc = s.sc := rfl
theorem modBank_mem (b : Fin 8) (f : Bank → Bank) : (s.modBank b f).mem = { s.mem with banks := vset s.mem.banks b f } := rfl
@[simp] theorem modBank_cw (b : Fin 8) (f : Bank → Bank) : (s.modBank b f).cw = s.cw := rfl
@[simp] theorem modBank_dma (b : Fin 8) (f : Bank → Bank) : (s.modBank b f).dma = s.dma := rfl
@[simp] theorem modBank_intc (b : Fin 8) (f : Bank → Bank) : (s.modBank b f).intc = s.intc := rfl
@[simp] theorem modBank_hp (b : Fin 8) (f : Bank → Bank) : (s.modBank b f).hp = s.hp := rfl
@[simp] theorem modBank_hl (b : Fin 8) (f : Bank → Bank) : (s.modBank b f).hl = s.hl := rfl
@[simp] theorem modBank_tsi (b : Fin 8) (f : Bank → Bank) : (s.modBank b f).tsi = s.tsi := rfl
@[simp] theorem modBank_smb (b : Fin 8) (f : Bank → Bank) : (s.modBank b f).smb = s.smb := rfl
@[simp] theorem modBank_pack (b : Fin 8) (f : Bank → Bank) : (s.modBank b f).pack = s.pack := rfl
@[simp] theorem modBank_msp (b : Fin 8) (f : Bank → Bank) : (s.modBank b f).msp = s.msp := rfl
@[simp] theorem modBank_flt (b : Fin 8) (f : Bank → Bank) : (s.modBank b f).flt = s.flt := rfl
@[simp] theorem modBank_upd (b : Fin 8) (f : Bank → Bank) : (s.modBank b f).upd = s.upd := rfl
@[simp] theorem modBank_svc (b : Fin 8) (f : Bank → Bank) : (s.modBank b f).svc = s.svc := rfl
@[simp] theorem modBank_pm (b : Fin 8) (f : Bank → Bank) : (s.modBank b f).pm = s.pm := rfl
@[simp] theorem modBank_rs (b : Fin 8) (f : Bank → Bank) : (s.modBank b f).rs = s.rs := rfl
@[simp] theorem modBank_pins (b : Fin 8) (f : Bank → Bank) : (s.modBank b f).pins = s.pins := rfl
@[simp] theorem modBank_reports (b : Fin 8) (f : Bank → Bank) : (s.modBank b f).reports = s.reports := rfl
@[simp] theorem modBank_rdata (b : Fin 8) (f : Bank → Bank) : (s.modBank b f).rdata = s.rdata := rfl
@[simp] theorem modBank_freeCtr (b : Fin 8) (f : Bank → Bank) : (s.modBank b f).freeCtr = s.freeCtr := rfl
@[simp] theorem modBank_pending (b : Fin 8) (f : Bank → Bank) : (s.modBank b f).pending = s.pending := rfl
@[simp] theorem modBank_time (b : Fin 8) (f : Bank → Bank) : (s.modBank b f).time = s.time := rfl
@[simp] theorem modBank_cyc (b : Fin 8) (f : Bank → Bank) : (s.modBank b f).cyc = s.cyc := rfl

/-! ## modCw -/

@[simp] theorem modCw_boot (n : Fin 16) (f : CircWin → CircWin) : (s.modCw n f).boot = s.boot := rfl
@[simp] theorem modCw_xf (n : Fin 16) (f : CircWin → CircWin) : (s.modCw n f).xf = s.xf := rfl
@[simp] theorem modCw_otp (n : Fin 16) (f : CircWin → CircWin) : (s.modCw n f).otp = s.otp := rfl
@[simp] theorem modCw_pwr (n : Fin 16) (f : CircWin → CircWin) : (s.modCw n f).pwr = s.pwr := rfl
@[simp] theorem modCw_canopy (n : Fin 16) (f : CircWin → CircWin) : (s.modCw n f).canopy = s.canopy := rfl
@[simp] theorem modCw_tbs (n : Fin 16) (f : CircWin → CircWin) : (s.modCw n f).tbs = s.tbs := rfl
@[simp] theorem modCw_chans (n : Fin 16) (f : CircWin → CircWin) : (s.modCw n f).chans = s.chans := rfl
@[simp] theorem modCw_groves (n : Fin 16) (f : CircWin → CircWin) : (s.modCw n f).groves = s.groves := rfl
@[simp] theorem modCw_ads (n : Fin 16) (f : CircWin → CircWin) : (s.modCw n f).ads = s.ads := rfl
@[simp] theorem modCw_pls (n : Fin 16) (f : CircWin → CircWin) : (s.modCw n f).pls = s.pls := rfl
@[simp] theorem modCw_tt (n : Fin 16) (f : CircWin → CircWin) : (s.modCw n f).tt = s.tt := rfl
@[simp] theorem modCw_me (n : Fin 16) (f : CircWin → CircWin) : (s.modCw n f).me = s.me := rfl
@[simp] theorem modCw_ps (n : Fin 16) (f : CircWin → CircWin) : (s.modCw n f).ps = s.ps := rfl
@[simp] theorem modCw_afe (n : Fin 16) (f : CircWin → CircWin) : (s.modCw n f).afe = s.afe := rfl
@[simp] theorem modCw_sc (n : Fin 16) (f : CircWin → CircWin) : (s.modCw n f).sc = s.sc := rfl
@[simp] theorem modCw_mem (n : Fin 16) (f : CircWin → CircWin) : (s.modCw n f).mem = s.mem := rfl
theorem modCw_cw (n : Fin 16) (f : CircWin → CircWin) : (s.modCw n f).cw = vset s.cw n f := rfl
@[simp] theorem modCw_dma (n : Fin 16) (f : CircWin → CircWin) : (s.modCw n f).dma = s.dma := rfl
@[simp] theorem modCw_intc (n : Fin 16) (f : CircWin → CircWin) : (s.modCw n f).intc = s.intc := rfl
@[simp] theorem modCw_hp (n : Fin 16) (f : CircWin → CircWin) : (s.modCw n f).hp = s.hp := rfl
@[simp] theorem modCw_hl (n : Fin 16) (f : CircWin → CircWin) : (s.modCw n f).hl = s.hl := rfl
@[simp] theorem modCw_tsi (n : Fin 16) (f : CircWin → CircWin) : (s.modCw n f).tsi = s.tsi := rfl
@[simp] theorem modCw_smb (n : Fin 16) (f : CircWin → CircWin) : (s.modCw n f).smb = s.smb := rfl
@[simp] theorem modCw_pack (n : Fin 16) (f : CircWin → CircWin) : (s.modCw n f).pack = s.pack := rfl
@[simp] theorem modCw_msp (n : Fin 16) (f : CircWin → CircWin) : (s.modCw n f).msp = s.msp := rfl
@[simp] theorem modCw_flt (n : Fin 16) (f : CircWin → CircWin) : (s.modCw n f).flt = s.flt := rfl
@[simp] theorem modCw_upd (n : Fin 16) (f : CircWin → CircWin) : (s.modCw n f).upd = s.upd := rfl
@[simp] theorem modCw_svc (n : Fin 16) (f : CircWin → CircWin) : (s.modCw n f).svc = s.svc := rfl
@[simp] theorem modCw_pm (n : Fin 16) (f : CircWin → CircWin) : (s.modCw n f).pm = s.pm := rfl
@[simp] theorem modCw_rs (n : Fin 16) (f : CircWin → CircWin) : (s.modCw n f).rs = s.rs := rfl
@[simp] theorem modCw_pins (n : Fin 16) (f : CircWin → CircWin) : (s.modCw n f).pins = s.pins := rfl
@[simp] theorem modCw_reports (n : Fin 16) (f : CircWin → CircWin) : (s.modCw n f).reports = s.reports := rfl
@[simp] theorem modCw_rdata (n : Fin 16) (f : CircWin → CircWin) : (s.modCw n f).rdata = s.rdata := rfl
@[simp] theorem modCw_freeCtr (n : Fin 16) (f : CircWin → CircWin) : (s.modCw n f).freeCtr = s.freeCtr := rfl
@[simp] theorem modCw_pending (n : Fin 16) (f : CircWin → CircWin) : (s.modCw n f).pending = s.pending := rfl
@[simp] theorem modCw_time (n : Fin 16) (f : CircWin → CircWin) : (s.modCw n f).time = s.time := rfl
@[simp] theorem modCw_cyc (n : Fin 16) (f : CircWin → CircWin) : (s.modCw n f).cyc = s.cyc := rfl

/-! ## modDma -/

@[simp] theorem modDma_boot (c : Fin 8) (f : DmaChan → DmaChan) : (s.modDma c f).boot = s.boot := rfl
@[simp] theorem modDma_xf (c : Fin 8) (f : DmaChan → DmaChan) : (s.modDma c f).xf = s.xf := rfl
@[simp] theorem modDma_otp (c : Fin 8) (f : DmaChan → DmaChan) : (s.modDma c f).otp = s.otp := rfl
@[simp] theorem modDma_pwr (c : Fin 8) (f : DmaChan → DmaChan) : (s.modDma c f).pwr = s.pwr := rfl
@[simp] theorem modDma_canopy (c : Fin 8) (f : DmaChan → DmaChan) : (s.modDma c f).canopy = s.canopy := rfl
@[simp] theorem modDma_tbs (c : Fin 8) (f : DmaChan → DmaChan) : (s.modDma c f).tbs = s.tbs := rfl
@[simp] theorem modDma_chans (c : Fin 8) (f : DmaChan → DmaChan) : (s.modDma c f).chans = s.chans := rfl
@[simp] theorem modDma_groves (c : Fin 8) (f : DmaChan → DmaChan) : (s.modDma c f).groves = s.groves := rfl
@[simp] theorem modDma_ads (c : Fin 8) (f : DmaChan → DmaChan) : (s.modDma c f).ads = s.ads := rfl
@[simp] theorem modDma_pls (c : Fin 8) (f : DmaChan → DmaChan) : (s.modDma c f).pls = s.pls := rfl
@[simp] theorem modDma_tt (c : Fin 8) (f : DmaChan → DmaChan) : (s.modDma c f).tt = s.tt := rfl
@[simp] theorem modDma_me (c : Fin 8) (f : DmaChan → DmaChan) : (s.modDma c f).me = s.me := rfl
@[simp] theorem modDma_ps (c : Fin 8) (f : DmaChan → DmaChan) : (s.modDma c f).ps = s.ps := rfl
@[simp] theorem modDma_afe (c : Fin 8) (f : DmaChan → DmaChan) : (s.modDma c f).afe = s.afe := rfl
@[simp] theorem modDma_sc (c : Fin 8) (f : DmaChan → DmaChan) : (s.modDma c f).sc = s.sc := rfl
@[simp] theorem modDma_mem (c : Fin 8) (f : DmaChan → DmaChan) : (s.modDma c f).mem = s.mem := rfl
@[simp] theorem modDma_cw (c : Fin 8) (f : DmaChan → DmaChan) : (s.modDma c f).cw = s.cw := rfl
theorem modDma_dma (c : Fin 8) (f : DmaChan → DmaChan) : (s.modDma c f).dma = vset s.dma c f := rfl
@[simp] theorem modDma_intc (c : Fin 8) (f : DmaChan → DmaChan) : (s.modDma c f).intc = s.intc := rfl
@[simp] theorem modDma_hp (c : Fin 8) (f : DmaChan → DmaChan) : (s.modDma c f).hp = s.hp := rfl
@[simp] theorem modDma_hl (c : Fin 8) (f : DmaChan → DmaChan) : (s.modDma c f).hl = s.hl := rfl
@[simp] theorem modDma_tsi (c : Fin 8) (f : DmaChan → DmaChan) : (s.modDma c f).tsi = s.tsi := rfl
@[simp] theorem modDma_smb (c : Fin 8) (f : DmaChan → DmaChan) : (s.modDma c f).smb = s.smb := rfl
@[simp] theorem modDma_pack (c : Fin 8) (f : DmaChan → DmaChan) : (s.modDma c f).pack = s.pack := rfl
@[simp] theorem modDma_msp (c : Fin 8) (f : DmaChan → DmaChan) : (s.modDma c f).msp = s.msp := rfl
@[simp] theorem modDma_flt (c : Fin 8) (f : DmaChan → DmaChan) : (s.modDma c f).flt = s.flt := rfl
@[simp] theorem modDma_upd (c : Fin 8) (f : DmaChan → DmaChan) : (s.modDma c f).upd = s.upd := rfl
@[simp] theorem modDma_svc (c : Fin 8) (f : DmaChan → DmaChan) : (s.modDma c f).svc = s.svc := rfl
@[simp] theorem modDma_pm (c : Fin 8) (f : DmaChan → DmaChan) : (s.modDma c f).pm = s.pm := rfl
@[simp] theorem modDma_rs (c : Fin 8) (f : DmaChan → DmaChan) : (s.modDma c f).rs = s.rs := rfl
@[simp] theorem modDma_pins (c : Fin 8) (f : DmaChan → DmaChan) : (s.modDma c f).pins = s.pins := rfl
@[simp] theorem modDma_reports (c : Fin 8) (f : DmaChan → DmaChan) : (s.modDma c f).reports = s.reports := rfl
@[simp] theorem modDma_rdata (c : Fin 8) (f : DmaChan → DmaChan) : (s.modDma c f).rdata = s.rdata := rfl
@[simp] theorem modDma_freeCtr (c : Fin 8) (f : DmaChan → DmaChan) : (s.modDma c f).freeCtr = s.freeCtr := rfl
@[simp] theorem modDma_pending (c : Fin 8) (f : DmaChan → DmaChan) : (s.modDma c f).pending = s.pending := rfl
@[simp] theorem modDma_time (c : Fin 8) (f : DmaChan → DmaChan) : (s.modDma c f).time = s.time := rfl
@[simp] theorem modDma_cyc (c : Fin 8) (f : DmaChan → DmaChan) : (s.modDma c f).cyc = s.cyc := rfl

/-! ## modIntc -/

@[simp] theorem modIntc_boot (f : Intc → Intc) : (s.modIntc f).boot = s.boot := rfl
@[simp] theorem modIntc_xf (f : Intc → Intc) : (s.modIntc f).xf = s.xf := rfl
@[simp] theorem modIntc_otp (f : Intc → Intc) : (s.modIntc f).otp = s.otp := rfl
@[simp] theorem modIntc_pwr (f : Intc → Intc) : (s.modIntc f).pwr = s.pwr := rfl
@[simp] theorem modIntc_canopy (f : Intc → Intc) : (s.modIntc f).canopy = s.canopy := rfl
@[simp] theorem modIntc_tbs (f : Intc → Intc) : (s.modIntc f).tbs = s.tbs := rfl
@[simp] theorem modIntc_chans (f : Intc → Intc) : (s.modIntc f).chans = s.chans := rfl
@[simp] theorem modIntc_groves (f : Intc → Intc) : (s.modIntc f).groves = s.groves := rfl
@[simp] theorem modIntc_ads (f : Intc → Intc) : (s.modIntc f).ads = s.ads := rfl
@[simp] theorem modIntc_pls (f : Intc → Intc) : (s.modIntc f).pls = s.pls := rfl
@[simp] theorem modIntc_tt (f : Intc → Intc) : (s.modIntc f).tt = s.tt := rfl
@[simp] theorem modIntc_me (f : Intc → Intc) : (s.modIntc f).me = s.me := rfl
@[simp] theorem modIntc_ps (f : Intc → Intc) : (s.modIntc f).ps = s.ps := rfl
@[simp] theorem modIntc_afe (f : Intc → Intc) : (s.modIntc f).afe = s.afe := rfl
@[simp] theorem modIntc_sc (f : Intc → Intc) : (s.modIntc f).sc = s.sc := rfl
@[simp] theorem modIntc_mem (f : Intc → Intc) : (s.modIntc f).mem = s.mem := rfl
@[simp] theorem modIntc_cw (f : Intc → Intc) : (s.modIntc f).cw = s.cw := rfl
@[simp] theorem modIntc_dma (f : Intc → Intc) : (s.modIntc f).dma = s.dma := rfl
theorem modIntc_intc (f : Intc → Intc) : (s.modIntc f).intc = f s.intc := rfl
@[simp] theorem modIntc_hp (f : Intc → Intc) : (s.modIntc f).hp = s.hp := rfl
@[simp] theorem modIntc_hl (f : Intc → Intc) : (s.modIntc f).hl = s.hl := rfl
@[simp] theorem modIntc_tsi (f : Intc → Intc) : (s.modIntc f).tsi = s.tsi := rfl
@[simp] theorem modIntc_smb (f : Intc → Intc) : (s.modIntc f).smb = s.smb := rfl
@[simp] theorem modIntc_pack (f : Intc → Intc) : (s.modIntc f).pack = s.pack := rfl
@[simp] theorem modIntc_msp (f : Intc → Intc) : (s.modIntc f).msp = s.msp := rfl
@[simp] theorem modIntc_flt (f : Intc → Intc) : (s.modIntc f).flt = s.flt := rfl
@[simp] theorem modIntc_upd (f : Intc → Intc) : (s.modIntc f).upd = s.upd := rfl
@[simp] theorem modIntc_svc (f : Intc → Intc) : (s.modIntc f).svc = s.svc := rfl
@[simp] theorem modIntc_pm (f : Intc → Intc) : (s.modIntc f).pm = s.pm := rfl
@[simp] theorem modIntc_rs (f : Intc → Intc) : (s.modIntc f).rs = s.rs := rfl
@[simp] theorem modIntc_pins (f : Intc → Intc) : (s.modIntc f).pins = s.pins := rfl
@[simp] theorem modIntc_reports (f : Intc → Intc) : (s.modIntc f).reports = s.reports := rfl
@[simp] theorem modIntc_rdata (f : Intc → Intc) : (s.modIntc f).rdata = s.rdata := rfl
@[simp] theorem modIntc_freeCtr (f : Intc → Intc) : (s.modIntc f).freeCtr = s.freeCtr := rfl
@[simp] theorem modIntc_pending (f : Intc → Intc) : (s.modIntc f).pending = s.pending := rfl
@[simp] theorem modIntc_time (f : Intc → Intc) : (s.modIntc f).time = s.time := rfl
@[simp] theorem modIntc_cyc (f : Intc → Intc) : (s.modIntc f).cyc = s.cyc := rfl

/-! ## modHp -/

@[simp] theorem modHp_boot (f : Hp → Hp) : (s.modHp f).boot = s.boot := rfl
@[simp] theorem modHp_xf (f : Hp → Hp) : (s.modHp f).xf = s.xf := rfl
@[simp] theorem modHp_otp (f : Hp → Hp) : (s.modHp f).otp = s.otp := rfl
@[simp] theorem modHp_pwr (f : Hp → Hp) : (s.modHp f).pwr = s.pwr := rfl
@[simp] theorem modHp_canopy (f : Hp → Hp) : (s.modHp f).canopy = s.canopy := rfl
@[simp] theorem modHp_tbs (f : Hp → Hp) : (s.modHp f).tbs = s.tbs := rfl
@[simp] theorem modHp_chans (f : Hp → Hp) : (s.modHp f).chans = s.chans := rfl
@[simp] theorem modHp_groves (f : Hp → Hp) : (s.modHp f).groves = s.groves := rfl
@[simp] theorem modHp_ads (f : Hp → Hp) : (s.modHp f).ads = s.ads := rfl
@[simp] theorem modHp_pls (f : Hp → Hp) : (s.modHp f).pls = s.pls := rfl
@[simp] theorem modHp_tt (f : Hp → Hp) : (s.modHp f).tt = s.tt := rfl
@[simp] theorem modHp_me (f : Hp → Hp) : (s.modHp f).me = s.me := rfl
@[simp] theorem modHp_ps (f : Hp → Hp) : (s.modHp f).ps = s.ps := rfl
@[simp] theorem modHp_afe (f : Hp → Hp) : (s.modHp f).afe = s.afe := rfl
@[simp] theorem modHp_sc (f : Hp → Hp) : (s.modHp f).sc = s.sc := rfl
@[simp] theorem modHp_mem (f : Hp → Hp) : (s.modHp f).mem = s.mem := rfl
@[simp] theorem modHp_cw (f : Hp → Hp) : (s.modHp f).cw = s.cw := rfl
@[simp] theorem modHp_dma (f : Hp → Hp) : (s.modHp f).dma = s.dma := rfl
@[simp] theorem modHp_intc (f : Hp → Hp) : (s.modHp f).intc = s.intc := rfl
theorem modHp_hp (f : Hp → Hp) : (s.modHp f).hp = f s.hp := rfl
@[simp] theorem modHp_hl (f : Hp → Hp) : (s.modHp f).hl = s.hl := rfl
@[simp] theorem modHp_tsi (f : Hp → Hp) : (s.modHp f).tsi = s.tsi := rfl
@[simp] theorem modHp_smb (f : Hp → Hp) : (s.modHp f).smb = s.smb := rfl
@[simp] theorem modHp_pack (f : Hp → Hp) : (s.modHp f).pack = s.pack := rfl
@[simp] theorem modHp_msp (f : Hp → Hp) : (s.modHp f).msp = s.msp := rfl
@[simp] theorem modHp_flt (f : Hp → Hp) : (s.modHp f).flt = s.flt := rfl
@[simp] theorem modHp_upd (f : Hp → Hp) : (s.modHp f).upd = s.upd := rfl
@[simp] theorem modHp_svc (f : Hp → Hp) : (s.modHp f).svc = s.svc := rfl
@[simp] theorem modHp_pm (f : Hp → Hp) : (s.modHp f).pm = s.pm := rfl
@[simp] theorem modHp_rs (f : Hp → Hp) : (s.modHp f).rs = s.rs := rfl
@[simp] theorem modHp_pins (f : Hp → Hp) : (s.modHp f).pins = s.pins := rfl
@[simp] theorem modHp_reports (f : Hp → Hp) : (s.modHp f).reports = s.reports := rfl
@[simp] theorem modHp_rdata (f : Hp → Hp) : (s.modHp f).rdata = s.rdata := rfl
@[simp] theorem modHp_freeCtr (f : Hp → Hp) : (s.modHp f).freeCtr = s.freeCtr := rfl
@[simp] theorem modHp_pending (f : Hp → Hp) : (s.modHp f).pending = s.pending := rfl
@[simp] theorem modHp_time (f : Hp → Hp) : (s.modHp f).time = s.time := rfl
@[simp] theorem modHp_cyc (f : Hp → Hp) : (s.modHp f).cyc = s.cyc := rfl

/-! ## modLink -/

@[simp] theorem modLink_boot (l : Fin 4) (f : Hl → Hl) : (s.modLink l f).boot = s.boot := rfl
@[simp] theorem modLink_xf (l : Fin 4) (f : Hl → Hl) : (s.modLink l f).xf = s.xf := rfl
@[simp] theorem modLink_otp (l : Fin 4) (f : Hl → Hl) : (s.modLink l f).otp = s.otp := rfl
@[simp] theorem modLink_pwr (l : Fin 4) (f : Hl → Hl) : (s.modLink l f).pwr = s.pwr := rfl
@[simp] theorem modLink_canopy (l : Fin 4) (f : Hl → Hl) : (s.modLink l f).canopy = s.canopy := rfl
@[simp] theorem modLink_tbs (l : Fin 4) (f : Hl → Hl) : (s.modLink l f).tbs = s.tbs := rfl
@[simp] theorem modLink_chans (l : Fin 4) (f : Hl → Hl) : (s.modLink l f).chans = s.chans := rfl
@[simp] theorem modLink_groves (l : Fin 4) (f : Hl → Hl) : (s.modLink l f).groves = s.groves := rfl
@[simp] theorem modLink_ads (l : Fin 4) (f : Hl → Hl) : (s.modLink l f).ads = s.ads := rfl
@[simp] theorem modLink_pls (l : Fin 4) (f : Hl → Hl) : (s.modLink l f).pls = s.pls := rfl
@[simp] theorem modLink_tt (l : Fin 4) (f : Hl → Hl) : (s.modLink l f).tt = s.tt := rfl
@[simp] theorem modLink_me (l : Fin 4) (f : Hl → Hl) : (s.modLink l f).me = s.me := rfl
@[simp] theorem modLink_ps (l : Fin 4) (f : Hl → Hl) : (s.modLink l f).ps = s.ps := rfl
@[simp] theorem modLink_afe (l : Fin 4) (f : Hl → Hl) : (s.modLink l f).afe = s.afe := rfl
@[simp] theorem modLink_sc (l : Fin 4) (f : Hl → Hl) : (s.modLink l f).sc = s.sc := rfl
@[simp] theorem modLink_mem (l : Fin 4) (f : Hl → Hl) : (s.modLink l f).mem = s.mem := rfl
@[simp] theorem modLink_cw (l : Fin 4) (f : Hl → Hl) : (s.modLink l f).cw = s.cw := rfl
@[simp] theorem modLink_dma (l : Fin 4) (f : Hl → Hl) : (s.modLink l f).dma = s.dma := rfl
@[simp] theorem modLink_intc (l : Fin 4) (f : Hl → Hl) : (s.modLink l f).intc = s.intc := rfl
@[simp] theorem modLink_hp (l : Fin 4) (f : Hl → Hl) : (s.modLink l f).hp = s.hp := rfl
theorem modLink_hl (l : Fin 4) (f : Hl → Hl) : (s.modLink l f).hl = vset s.hl l f := rfl
@[simp] theorem modLink_tsi (l : Fin 4) (f : Hl → Hl) : (s.modLink l f).tsi = s.tsi := rfl
@[simp] theorem modLink_smb (l : Fin 4) (f : Hl → Hl) : (s.modLink l f).smb = s.smb := rfl
@[simp] theorem modLink_pack (l : Fin 4) (f : Hl → Hl) : (s.modLink l f).pack = s.pack := rfl
@[simp] theorem modLink_msp (l : Fin 4) (f : Hl → Hl) : (s.modLink l f).msp = s.msp := rfl
@[simp] theorem modLink_flt (l : Fin 4) (f : Hl → Hl) : (s.modLink l f).flt = s.flt := rfl
@[simp] theorem modLink_upd (l : Fin 4) (f : Hl → Hl) : (s.modLink l f).upd = s.upd := rfl
@[simp] theorem modLink_svc (l : Fin 4) (f : Hl → Hl) : (s.modLink l f).svc = s.svc := rfl
@[simp] theorem modLink_pm (l : Fin 4) (f : Hl → Hl) : (s.modLink l f).pm = s.pm := rfl
@[simp] theorem modLink_rs (l : Fin 4) (f : Hl → Hl) : (s.modLink l f).rs = s.rs := rfl
@[simp] theorem modLink_pins (l : Fin 4) (f : Hl → Hl) : (s.modLink l f).pins = s.pins := rfl
@[simp] theorem modLink_reports (l : Fin 4) (f : Hl → Hl) : (s.modLink l f).reports = s.reports := rfl
@[simp] theorem modLink_rdata (l : Fin 4) (f : Hl → Hl) : (s.modLink l f).rdata = s.rdata := rfl
@[simp] theorem modLink_freeCtr (l : Fin 4) (f : Hl → Hl) : (s.modLink l f).freeCtr = s.freeCtr := rfl
@[simp] theorem modLink_pending (l : Fin 4) (f : Hl → Hl) : (s.modLink l f).pending = s.pending := rfl
@[simp] theorem modLink_time (l : Fin 4) (f : Hl → Hl) : (s.modLink l f).time = s.time := rfl
@[simp] theorem modLink_cyc (l : Fin 4) (f : Hl → Hl) : (s.modLink l f).cyc = s.cyc := rfl

/-! ## modTsi -/

@[simp] theorem modTsi_boot (f : Tsi → Tsi) : (s.modTsi f).boot = s.boot := rfl
@[simp] theorem modTsi_xf (f : Tsi → Tsi) : (s.modTsi f).xf = s.xf := rfl
@[simp] theorem modTsi_otp (f : Tsi → Tsi) : (s.modTsi f).otp = s.otp := rfl
@[simp] theorem modTsi_pwr (f : Tsi → Tsi) : (s.modTsi f).pwr = s.pwr := rfl
@[simp] theorem modTsi_canopy (f : Tsi → Tsi) : (s.modTsi f).canopy = s.canopy := rfl
@[simp] theorem modTsi_tbs (f : Tsi → Tsi) : (s.modTsi f).tbs = s.tbs := rfl
@[simp] theorem modTsi_chans (f : Tsi → Tsi) : (s.modTsi f).chans = s.chans := rfl
@[simp] theorem modTsi_groves (f : Tsi → Tsi) : (s.modTsi f).groves = s.groves := rfl
@[simp] theorem modTsi_ads (f : Tsi → Tsi) : (s.modTsi f).ads = s.ads := rfl
@[simp] theorem modTsi_pls (f : Tsi → Tsi) : (s.modTsi f).pls = s.pls := rfl
@[simp] theorem modTsi_tt (f : Tsi → Tsi) : (s.modTsi f).tt = s.tt := rfl
@[simp] theorem modTsi_me (f : Tsi → Tsi) : (s.modTsi f).me = s.me := rfl
@[simp] theorem modTsi_ps (f : Tsi → Tsi) : (s.modTsi f).ps = s.ps := rfl
@[simp] theorem modTsi_afe (f : Tsi → Tsi) : (s.modTsi f).afe = s.afe := rfl
@[simp] theorem modTsi_sc (f : Tsi → Tsi) : (s.modTsi f).sc = s.sc := rfl
@[simp] theorem modTsi_mem (f : Tsi → Tsi) : (s.modTsi f).mem = s.mem := rfl
@[simp] theorem modTsi_cw (f : Tsi → Tsi) : (s.modTsi f).cw = s.cw := rfl
@[simp] theorem modTsi_dma (f : Tsi → Tsi) : (s.modTsi f).dma = s.dma := rfl
@[simp] theorem modTsi_intc (f : Tsi → Tsi) : (s.modTsi f).intc = s.intc := rfl
@[simp] theorem modTsi_hp (f : Tsi → Tsi) : (s.modTsi f).hp = s.hp := rfl
@[simp] theorem modTsi_hl (f : Tsi → Tsi) : (s.modTsi f).hl = s.hl := rfl
theorem modTsi_tsi (f : Tsi → Tsi) : (s.modTsi f).tsi = f s.tsi := rfl
@[simp] theorem modTsi_smb (f : Tsi → Tsi) : (s.modTsi f).smb = s.smb := rfl
@[simp] theorem modTsi_pack (f : Tsi → Tsi) : (s.modTsi f).pack = s.pack := rfl
@[simp] theorem modTsi_msp (f : Tsi → Tsi) : (s.modTsi f).msp = s.msp := rfl
@[simp] theorem modTsi_flt (f : Tsi → Tsi) : (s.modTsi f).flt = s.flt := rfl
@[simp] theorem modTsi_upd (f : Tsi → Tsi) : (s.modTsi f).upd = s.upd := rfl
@[simp] theorem modTsi_svc (f : Tsi → Tsi) : (s.modTsi f).svc = s.svc := rfl
@[simp] theorem modTsi_pm (f : Tsi → Tsi) : (s.modTsi f).pm = s.pm := rfl
@[simp] theorem modTsi_rs (f : Tsi → Tsi) : (s.modTsi f).rs = s.rs := rfl
@[simp] theorem modTsi_pins (f : Tsi → Tsi) : (s.modTsi f).pins = s.pins := rfl
@[simp] theorem modTsi_reports (f : Tsi → Tsi) : (s.modTsi f).reports = s.reports := rfl
@[simp] theorem modTsi_rdata (f : Tsi → Tsi) : (s.modTsi f).rdata = s.rdata := rfl
@[simp] theorem modTsi_freeCtr (f : Tsi → Tsi) : (s.modTsi f).freeCtr = s.freeCtr := rfl
@[simp] theorem modTsi_pending (f : Tsi → Tsi) : (s.modTsi f).pending = s.pending := rfl
@[simp] theorem modTsi_time (f : Tsi → Tsi) : (s.modTsi f).time = s.time := rfl
@[simp] theorem modTsi_cyc (f : Tsi → Tsi) : (s.modTsi f).cyc = s.cyc := rfl

/-! ## modSmb -/

@[simp] theorem modSmb_boot (k : Fin 2) (f : Smb → Smb) : (s.modSmb k f).boot = s.boot := rfl
@[simp] theorem modSmb_xf (k : Fin 2) (f : Smb → Smb) : (s.modSmb k f).xf = s.xf := rfl
@[simp] theorem modSmb_otp (k : Fin 2) (f : Smb → Smb) : (s.modSmb k f).otp = s.otp := rfl
@[simp] theorem modSmb_pwr (k : Fin 2) (f : Smb → Smb) : (s.modSmb k f).pwr = s.pwr := rfl
@[simp] theorem modSmb_canopy (k : Fin 2) (f : Smb → Smb) : (s.modSmb k f).canopy = s.canopy := rfl
@[simp] theorem modSmb_tbs (k : Fin 2) (f : Smb → Smb) : (s.modSmb k f).tbs = s.tbs := rfl
@[simp] theorem modSmb_chans (k : Fin 2) (f : Smb → Smb) : (s.modSmb k f).chans = s.chans := rfl
@[simp] theorem modSmb_groves (k : Fin 2) (f : Smb → Smb) : (s.modSmb k f).groves = s.groves := rfl
@[simp] theorem modSmb_ads (k : Fin 2) (f : Smb → Smb) : (s.modSmb k f).ads = s.ads := rfl
@[simp] theorem modSmb_pls (k : Fin 2) (f : Smb → Smb) : (s.modSmb k f).pls = s.pls := rfl
@[simp] theorem modSmb_tt (k : Fin 2) (f : Smb → Smb) : (s.modSmb k f).tt = s.tt := rfl
@[simp] theorem modSmb_me (k : Fin 2) (f : Smb → Smb) : (s.modSmb k f).me = s.me := rfl
@[simp] theorem modSmb_ps (k : Fin 2) (f : Smb → Smb) : (s.modSmb k f).ps = s.ps := rfl
@[simp] theorem modSmb_afe (k : Fin 2) (f : Smb → Smb) : (s.modSmb k f).afe = s.afe := rfl
@[simp] theorem modSmb_sc (k : Fin 2) (f : Smb → Smb) : (s.modSmb k f).sc = s.sc := rfl
@[simp] theorem modSmb_mem (k : Fin 2) (f : Smb → Smb) : (s.modSmb k f).mem = s.mem := rfl
@[simp] theorem modSmb_cw (k : Fin 2) (f : Smb → Smb) : (s.modSmb k f).cw = s.cw := rfl
@[simp] theorem modSmb_dma (k : Fin 2) (f : Smb → Smb) : (s.modSmb k f).dma = s.dma := rfl
@[simp] theorem modSmb_intc (k : Fin 2) (f : Smb → Smb) : (s.modSmb k f).intc = s.intc := rfl
@[simp] theorem modSmb_hp (k : Fin 2) (f : Smb → Smb) : (s.modSmb k f).hp = s.hp := rfl
@[simp] theorem modSmb_hl (k : Fin 2) (f : Smb → Smb) : (s.modSmb k f).hl = s.hl := rfl
@[simp] theorem modSmb_tsi (k : Fin 2) (f : Smb → Smb) : (s.modSmb k f).tsi = s.tsi := rfl
theorem modSmb_smb (k : Fin 2) (f : Smb → Smb) : (s.modSmb k f).smb = vset s.smb k f := rfl
@[simp] theorem modSmb_pack (k : Fin 2) (f : Smb → Smb) : (s.modSmb k f).pack = s.pack := rfl
@[simp] theorem modSmb_msp (k : Fin 2) (f : Smb → Smb) : (s.modSmb k f).msp = s.msp := rfl
@[simp] theorem modSmb_flt (k : Fin 2) (f : Smb → Smb) : (s.modSmb k f).flt = s.flt := rfl
@[simp] theorem modSmb_upd (k : Fin 2) (f : Smb → Smb) : (s.modSmb k f).upd = s.upd := rfl
@[simp] theorem modSmb_svc (k : Fin 2) (f : Smb → Smb) : (s.modSmb k f).svc = s.svc := rfl
@[simp] theorem modSmb_pm (k : Fin 2) (f : Smb → Smb) : (s.modSmb k f).pm = s.pm := rfl
@[simp] theorem modSmb_rs (k : Fin 2) (f : Smb → Smb) : (s.modSmb k f).rs = s.rs := rfl
@[simp] theorem modSmb_pins (k : Fin 2) (f : Smb → Smb) : (s.modSmb k f).pins = s.pins := rfl
@[simp] theorem modSmb_reports (k : Fin 2) (f : Smb → Smb) : (s.modSmb k f).reports = s.reports := rfl
@[simp] theorem modSmb_rdata (k : Fin 2) (f : Smb → Smb) : (s.modSmb k f).rdata = s.rdata := rfl
@[simp] theorem modSmb_freeCtr (k : Fin 2) (f : Smb → Smb) : (s.modSmb k f).freeCtr = s.freeCtr := rfl
@[simp] theorem modSmb_pending (k : Fin 2) (f : Smb → Smb) : (s.modSmb k f).pending = s.pending := rfl
@[simp] theorem modSmb_time (k : Fin 2) (f : Smb → Smb) : (s.modSmb k f).time = s.time := rfl
@[simp] theorem modSmb_cyc (k : Fin 2) (f : Smb → Smb) : (s.modSmb k f).cyc = s.cyc := rfl

/-! ## modPack -/

@[simp] theorem modPack_boot (f : Pack → Pack) : (s.modPack f).boot = s.boot := rfl
@[simp] theorem modPack_xf (f : Pack → Pack) : (s.modPack f).xf = s.xf := rfl
@[simp] theorem modPack_otp (f : Pack → Pack) : (s.modPack f).otp = s.otp := rfl
@[simp] theorem modPack_pwr (f : Pack → Pack) : (s.modPack f).pwr = s.pwr := rfl
@[simp] theorem modPack_canopy (f : Pack → Pack) : (s.modPack f).canopy = s.canopy := rfl
@[simp] theorem modPack_tbs (f : Pack → Pack) : (s.modPack f).tbs = s.tbs := rfl
@[simp] theorem modPack_chans (f : Pack → Pack) : (s.modPack f).chans = s.chans := rfl
@[simp] theorem modPack_groves (f : Pack → Pack) : (s.modPack f).groves = s.groves := rfl
@[simp] theorem modPack_ads (f : Pack → Pack) : (s.modPack f).ads = s.ads := rfl
@[simp] theorem modPack_pls (f : Pack → Pack) : (s.modPack f).pls = s.pls := rfl
@[simp] theorem modPack_tt (f : Pack → Pack) : (s.modPack f).tt = s.tt := rfl
@[simp] theorem modPack_me (f : Pack → Pack) : (s.modPack f).me = s.me := rfl
@[simp] theorem modPack_ps (f : Pack → Pack) : (s.modPack f).ps = s.ps := rfl
@[simp] theorem modPack_afe (f : Pack → Pack) : (s.modPack f).afe = s.afe := rfl
@[simp] theorem modPack_sc (f : Pack → Pack) : (s.modPack f).sc = s.sc := rfl
@[simp] theorem modPack_mem (f : Pack → Pack) : (s.modPack f).mem = s.mem := rfl
@[simp] theorem modPack_cw (f : Pack → Pack) : (s.modPack f).cw = s.cw := rfl
@[simp] theorem modPack_dma (f : Pack → Pack) : (s.modPack f).dma = s.dma := rfl
@[simp] theorem modPack_intc (f : Pack → Pack) : (s.modPack f).intc = s.intc := rfl
@[simp] theorem modPack_hp (f : Pack → Pack) : (s.modPack f).hp = s.hp := rfl
@[simp] theorem modPack_hl (f : Pack → Pack) : (s.modPack f).hl = s.hl := rfl
@[simp] theorem modPack_tsi (f : Pack → Pack) : (s.modPack f).tsi = s.tsi := rfl
@[simp] theorem modPack_smb (f : Pack → Pack) : (s.modPack f).smb = s.smb := rfl
theorem modPack_pack (f : Pack → Pack) : (s.modPack f).pack = f s.pack := rfl
@[simp] theorem modPack_msp (f : Pack → Pack) : (s.modPack f).msp = s.msp := rfl
@[simp] theorem modPack_flt (f : Pack → Pack) : (s.modPack f).flt = s.flt := rfl
@[simp] theorem modPack_upd (f : Pack → Pack) : (s.modPack f).upd = s.upd := rfl
@[simp] theorem modPack_svc (f : Pack → Pack) : (s.modPack f).svc = s.svc := rfl
@[simp] theorem modPack_pm (f : Pack → Pack) : (s.modPack f).pm = s.pm := rfl
@[simp] theorem modPack_rs (f : Pack → Pack) : (s.modPack f).rs = s.rs := rfl
@[simp] theorem modPack_pins (f : Pack → Pack) : (s.modPack f).pins = s.pins := rfl
@[simp] theorem modPack_reports (f : Pack → Pack) : (s.modPack f).reports = s.reports := rfl
@[simp] theorem modPack_rdata (f : Pack → Pack) : (s.modPack f).rdata = s.rdata := rfl
@[simp] theorem modPack_freeCtr (f : Pack → Pack) : (s.modPack f).freeCtr = s.freeCtr := rfl
@[simp] theorem modPack_pending (f : Pack → Pack) : (s.modPack f).pending = s.pending := rfl
@[simp] theorem modPack_time (f : Pack → Pack) : (s.modPack f).time = s.time := rfl
@[simp] theorem modPack_cyc (f : Pack → Pack) : (s.modPack f).cyc = s.cyc := rfl

/-! ## modMsp -/

@[simp] theorem modMsp_boot (m : Fin 2) (f : Msp → Msp) : (s.modMsp m f).boot = s.boot := rfl
@[simp] theorem modMsp_xf (m : Fin 2) (f : Msp → Msp) : (s.modMsp m f).xf = s.xf := rfl
@[simp] theorem modMsp_otp (m : Fin 2) (f : Msp → Msp) : (s.modMsp m f).otp = s.otp := rfl
@[simp] theorem modMsp_pwr (m : Fin 2) (f : Msp → Msp) : (s.modMsp m f).pwr = s.pwr := rfl
@[simp] theorem modMsp_canopy (m : Fin 2) (f : Msp → Msp) : (s.modMsp m f).canopy = s.canopy := rfl
@[simp] theorem modMsp_tbs (m : Fin 2) (f : Msp → Msp) : (s.modMsp m f).tbs = s.tbs := rfl
@[simp] theorem modMsp_chans (m : Fin 2) (f : Msp → Msp) : (s.modMsp m f).chans = s.chans := rfl
@[simp] theorem modMsp_groves (m : Fin 2) (f : Msp → Msp) : (s.modMsp m f).groves = s.groves := rfl
@[simp] theorem modMsp_ads (m : Fin 2) (f : Msp → Msp) : (s.modMsp m f).ads = s.ads := rfl
@[simp] theorem modMsp_pls (m : Fin 2) (f : Msp → Msp) : (s.modMsp m f).pls = s.pls := rfl
@[simp] theorem modMsp_tt (m : Fin 2) (f : Msp → Msp) : (s.modMsp m f).tt = s.tt := rfl
@[simp] theorem modMsp_me (m : Fin 2) (f : Msp → Msp) : (s.modMsp m f).me = s.me := rfl
@[simp] theorem modMsp_ps (m : Fin 2) (f : Msp → Msp) : (s.modMsp m f).ps = s.ps := rfl
@[simp] theorem modMsp_afe (m : Fin 2) (f : Msp → Msp) : (s.modMsp m f).afe = s.afe := rfl
@[simp] theorem modMsp_sc (m : Fin 2) (f : Msp → Msp) : (s.modMsp m f).sc = s.sc := rfl
@[simp] theorem modMsp_mem (m : Fin 2) (f : Msp → Msp) : (s.modMsp m f).mem = s.mem := rfl
@[simp] theorem modMsp_cw (m : Fin 2) (f : Msp → Msp) : (s.modMsp m f).cw = s.cw := rfl
@[simp] theorem modMsp_dma (m : Fin 2) (f : Msp → Msp) : (s.modMsp m f).dma = s.dma := rfl
@[simp] theorem modMsp_intc (m : Fin 2) (f : Msp → Msp) : (s.modMsp m f).intc = s.intc := rfl
@[simp] theorem modMsp_hp (m : Fin 2) (f : Msp → Msp) : (s.modMsp m f).hp = s.hp := rfl
@[simp] theorem modMsp_hl (m : Fin 2) (f : Msp → Msp) : (s.modMsp m f).hl = s.hl := rfl
@[simp] theorem modMsp_tsi (m : Fin 2) (f : Msp → Msp) : (s.modMsp m f).tsi = s.tsi := rfl
@[simp] theorem modMsp_smb (m : Fin 2) (f : Msp → Msp) : (s.modMsp m f).smb = s.smb := rfl
@[simp] theorem modMsp_pack (m : Fin 2) (f : Msp → Msp) : (s.modMsp m f).pack = s.pack := rfl
theorem modMsp_msp (m : Fin 2) (f : Msp → Msp) : (s.modMsp m f).msp = vset s.msp m f := rfl
@[simp] theorem modMsp_flt (m : Fin 2) (f : Msp → Msp) : (s.modMsp m f).flt = s.flt := rfl
@[simp] theorem modMsp_upd (m : Fin 2) (f : Msp → Msp) : (s.modMsp m f).upd = s.upd := rfl
@[simp] theorem modMsp_svc (m : Fin 2) (f : Msp → Msp) : (s.modMsp m f).svc = s.svc := rfl
@[simp] theorem modMsp_pm (m : Fin 2) (f : Msp → Msp) : (s.modMsp m f).pm = s.pm := rfl
@[simp] theorem modMsp_rs (m : Fin 2) (f : Msp → Msp) : (s.modMsp m f).rs = s.rs := rfl
@[simp] theorem modMsp_pins (m : Fin 2) (f : Msp → Msp) : (s.modMsp m f).pins = s.pins := rfl
@[simp] theorem modMsp_reports (m : Fin 2) (f : Msp → Msp) : (s.modMsp m f).reports = s.reports := rfl
@[simp] theorem modMsp_rdata (m : Fin 2) (f : Msp → Msp) : (s.modMsp m f).rdata = s.rdata := rfl
@[simp] theorem modMsp_freeCtr (m : Fin 2) (f : Msp → Msp) : (s.modMsp m f).freeCtr = s.freeCtr := rfl
@[simp] theorem modMsp_pending (m : Fin 2) (f : Msp → Msp) : (s.modMsp m f).pending = s.pending := rfl
@[simp] theorem modMsp_time (m : Fin 2) (f : Msp → Msp) : (s.modMsp m f).time = s.time := rfl
@[simp] theorem modMsp_cyc (m : Fin 2) (f : Msp → Msp) : (s.modMsp m f).cyc = s.cyc := rfl

/-! ## modFlt -/

@[simp] theorem modFlt_boot (f : Flt → Flt) : (s.modFlt f).boot = s.boot := rfl
@[simp] theorem modFlt_xf (f : Flt → Flt) : (s.modFlt f).xf = s.xf := rfl
@[simp] theorem modFlt_otp (f : Flt → Flt) : (s.modFlt f).otp = s.otp := rfl
@[simp] theorem modFlt_pwr (f : Flt → Flt) : (s.modFlt f).pwr = s.pwr := rfl
@[simp] theorem modFlt_canopy (f : Flt → Flt) : (s.modFlt f).canopy = s.canopy := rfl
@[simp] theorem modFlt_tbs (f : Flt → Flt) : (s.modFlt f).tbs = s.tbs := rfl
@[simp] theorem modFlt_chans (f : Flt → Flt) : (s.modFlt f).chans = s.chans := rfl
@[simp] theorem modFlt_groves (f : Flt → Flt) : (s.modFlt f).groves = s.groves := rfl
@[simp] theorem modFlt_ads (f : Flt → Flt) : (s.modFlt f).ads = s.ads := rfl
@[simp] theorem modFlt_pls (f : Flt → Flt) : (s.modFlt f).pls = s.pls := rfl
@[simp] theorem modFlt_tt (f : Flt → Flt) : (s.modFlt f).tt = s.tt := rfl
@[simp] theorem modFlt_me (f : Flt → Flt) : (s.modFlt f).me = s.me := rfl
@[simp] theorem modFlt_ps (f : Flt → Flt) : (s.modFlt f).ps = s.ps := rfl
@[simp] theorem modFlt_afe (f : Flt → Flt) : (s.modFlt f).afe = s.afe := rfl
@[simp] theorem modFlt_sc (f : Flt → Flt) : (s.modFlt f).sc = s.sc := rfl
@[simp] theorem modFlt_mem (f : Flt → Flt) : (s.modFlt f).mem = s.mem := rfl
@[simp] theorem modFlt_cw (f : Flt → Flt) : (s.modFlt f).cw = s.cw := rfl
@[simp] theorem modFlt_dma (f : Flt → Flt) : (s.modFlt f).dma = s.dma := rfl
@[simp] theorem modFlt_intc (f : Flt → Flt) : (s.modFlt f).intc = s.intc := rfl
@[simp] theorem modFlt_hp (f : Flt → Flt) : (s.modFlt f).hp = s.hp := rfl
@[simp] theorem modFlt_hl (f : Flt → Flt) : (s.modFlt f).hl = s.hl := rfl
@[simp] theorem modFlt_tsi (f : Flt → Flt) : (s.modFlt f).tsi = s.tsi := rfl
@[simp] theorem modFlt_smb (f : Flt → Flt) : (s.modFlt f).smb = s.smb := rfl
@[simp] theorem modFlt_pack (f : Flt → Flt) : (s.modFlt f).pack = s.pack := rfl
@[simp] theorem modFlt_msp (f : Flt → Flt) : (s.modFlt f).msp = s.msp := rfl
theorem modFlt_flt (f : Flt → Flt) : (s.modFlt f).flt = f s.flt := rfl
@[simp] theorem modFlt_upd (f : Flt → Flt) : (s.modFlt f).upd = s.upd := rfl
@[simp] theorem modFlt_svc (f : Flt → Flt) : (s.modFlt f).svc = s.svc := rfl
@[simp] theorem modFlt_pm (f : Flt → Flt) : (s.modFlt f).pm = s.pm := rfl
@[simp] theorem modFlt_rs (f : Flt → Flt) : (s.modFlt f).rs = s.rs := rfl
@[simp] theorem modFlt_pins (f : Flt → Flt) : (s.modFlt f).pins = s.pins := rfl
@[simp] theorem modFlt_reports (f : Flt → Flt) : (s.modFlt f).reports = s.reports := rfl
@[simp] theorem modFlt_rdata (f : Flt → Flt) : (s.modFlt f).rdata = s.rdata := rfl
@[simp] theorem modFlt_freeCtr (f : Flt → Flt) : (s.modFlt f).freeCtr = s.freeCtr := rfl
@[simp] theorem modFlt_pending (f : Flt → Flt) : (s.modFlt f).pending = s.pending := rfl
@[simp] theorem modFlt_time (f : Flt → Flt) : (s.modFlt f).time = s.time := rfl
@[simp] theorem modFlt_cyc (f : Flt → Flt) : (s.modFlt f).cyc = s.cyc := rfl

/-! ## modUpd -/

@[simp] theorem modUpd_boot (f : Upd → Upd) : (s.modUpd f).boot = s.boot := rfl
@[simp] theorem modUpd_xf (f : Upd → Upd) : (s.modUpd f).xf = s.xf := rfl
@[simp] theorem modUpd_otp (f : Upd → Upd) : (s.modUpd f).otp = s.otp := rfl
@[simp] theorem modUpd_pwr (f : Upd → Upd) : (s.modUpd f).pwr = s.pwr := rfl
@[simp] theorem modUpd_canopy (f : Upd → Upd) : (s.modUpd f).canopy = s.canopy := rfl
@[simp] theorem modUpd_tbs (f : Upd → Upd) : (s.modUpd f).tbs = s.tbs := rfl
@[simp] theorem modUpd_chans (f : Upd → Upd) : (s.modUpd f).chans = s.chans := rfl
@[simp] theorem modUpd_groves (f : Upd → Upd) : (s.modUpd f).groves = s.groves := rfl
@[simp] theorem modUpd_ads (f : Upd → Upd) : (s.modUpd f).ads = s.ads := rfl
@[simp] theorem modUpd_pls (f : Upd → Upd) : (s.modUpd f).pls = s.pls := rfl
@[simp] theorem modUpd_tt (f : Upd → Upd) : (s.modUpd f).tt = s.tt := rfl
@[simp] theorem modUpd_me (f : Upd → Upd) : (s.modUpd f).me = s.me := rfl
@[simp] theorem modUpd_ps (f : Upd → Upd) : (s.modUpd f).ps = s.ps := rfl
@[simp] theorem modUpd_afe (f : Upd → Upd) : (s.modUpd f).afe = s.afe := rfl
@[simp] theorem modUpd_sc (f : Upd → Upd) : (s.modUpd f).sc = s.sc := rfl
@[simp] theorem modUpd_mem (f : Upd → Upd) : (s.modUpd f).mem = s.mem := rfl
@[simp] theorem modUpd_cw (f : Upd → Upd) : (s.modUpd f).cw = s.cw := rfl
@[simp] theorem modUpd_dma (f : Upd → Upd) : (s.modUpd f).dma = s.dma := rfl
@[simp] theorem modUpd_intc (f : Upd → Upd) : (s.modUpd f).intc = s.intc := rfl
@[simp] theorem modUpd_hp (f : Upd → Upd) : (s.modUpd f).hp = s.hp := rfl
@[simp] theorem modUpd_hl (f : Upd → Upd) : (s.modUpd f).hl = s.hl := rfl
@[simp] theorem modUpd_tsi (f : Upd → Upd) : (s.modUpd f).tsi = s.tsi := rfl
@[simp] theorem modUpd_smb (f : Upd → Upd) : (s.modUpd f).smb = s.smb := rfl
@[simp] theorem modUpd_pack (f : Upd → Upd) : (s.modUpd f).pack = s.pack := rfl
@[simp] theorem modUpd_msp (f : Upd → Upd) : (s.modUpd f).msp = s.msp := rfl
@[simp] theorem modUpd_flt (f : Upd → Upd) : (s.modUpd f).flt = s.flt := rfl
theorem modUpd_upd (f : Upd → Upd) : (s.modUpd f).upd = f s.upd := rfl
@[simp] theorem modUpd_svc (f : Upd → Upd) : (s.modUpd f).svc = s.svc := rfl
@[simp] theorem modUpd_pm (f : Upd → Upd) : (s.modUpd f).pm = s.pm := rfl
@[simp] theorem modUpd_rs (f : Upd → Upd) : (s.modUpd f).rs = s.rs := rfl
@[simp] theorem modUpd_pins (f : Upd → Upd) : (s.modUpd f).pins = s.pins := rfl
@[simp] theorem modUpd_reports (f : Upd → Upd) : (s.modUpd f).reports = s.reports := rfl
@[simp] theorem modUpd_rdata (f : Upd → Upd) : (s.modUpd f).rdata = s.rdata := rfl
@[simp] theorem modUpd_freeCtr (f : Upd → Upd) : (s.modUpd f).freeCtr = s.freeCtr := rfl
@[simp] theorem modUpd_pending (f : Upd → Upd) : (s.modUpd f).pending = s.pending := rfl
@[simp] theorem modUpd_time (f : Upd → Upd) : (s.modUpd f).time = s.time := rfl
@[simp] theorem modUpd_cyc (f : Upd → Upd) : (s.modUpd f).cyc = s.cyc := rfl

/-! ## modSvc -/

@[simp] theorem modSvc_boot (f : Svc → Svc) : (s.modSvc f).boot = s.boot := rfl
@[simp] theorem modSvc_xf (f : Svc → Svc) : (s.modSvc f).xf = s.xf := rfl
@[simp] theorem modSvc_otp (f : Svc → Svc) : (s.modSvc f).otp = s.otp := rfl
@[simp] theorem modSvc_pwr (f : Svc → Svc) : (s.modSvc f).pwr = s.pwr := rfl
@[simp] theorem modSvc_canopy (f : Svc → Svc) : (s.modSvc f).canopy = s.canopy := rfl
@[simp] theorem modSvc_tbs (f : Svc → Svc) : (s.modSvc f).tbs = s.tbs := rfl
@[simp] theorem modSvc_chans (f : Svc → Svc) : (s.modSvc f).chans = s.chans := rfl
@[simp] theorem modSvc_groves (f : Svc → Svc) : (s.modSvc f).groves = s.groves := rfl
@[simp] theorem modSvc_ads (f : Svc → Svc) : (s.modSvc f).ads = s.ads := rfl
@[simp] theorem modSvc_pls (f : Svc → Svc) : (s.modSvc f).pls = s.pls := rfl
@[simp] theorem modSvc_tt (f : Svc → Svc) : (s.modSvc f).tt = s.tt := rfl
@[simp] theorem modSvc_me (f : Svc → Svc) : (s.modSvc f).me = s.me := rfl
@[simp] theorem modSvc_ps (f : Svc → Svc) : (s.modSvc f).ps = s.ps := rfl
@[simp] theorem modSvc_afe (f : Svc → Svc) : (s.modSvc f).afe = s.afe := rfl
@[simp] theorem modSvc_sc (f : Svc → Svc) : (s.modSvc f).sc = s.sc := rfl
@[simp] theorem modSvc_mem (f : Svc → Svc) : (s.modSvc f).mem = s.mem := rfl
@[simp] theorem modSvc_cw (f : Svc → Svc) : (s.modSvc f).cw = s.cw := rfl
@[simp] theorem modSvc_dma (f : Svc → Svc) : (s.modSvc f).dma = s.dma := rfl
@[simp] theorem modSvc_intc (f : Svc → Svc) : (s.modSvc f).intc = s.intc := rfl
@[simp] theorem modSvc_hp (f : Svc → Svc) : (s.modSvc f).hp = s.hp := rfl
@[simp] theorem modSvc_hl (f : Svc → Svc) : (s.modSvc f).hl = s.hl := rfl
@[simp] theorem modSvc_tsi (f : Svc → Svc) : (s.modSvc f).tsi = s.tsi := rfl
@[simp] theorem modSvc_smb (f : Svc → Svc) : (s.modSvc f).smb = s.smb := rfl
@[simp] theorem modSvc_pack (f : Svc → Svc) : (s.modSvc f).pack = s.pack := rfl
@[simp] theorem modSvc_msp (f : Svc → Svc) : (s.modSvc f).msp = s.msp := rfl
@[simp] theorem modSvc_flt (f : Svc → Svc) : (s.modSvc f).flt = s.flt := rfl
@[simp] theorem modSvc_upd (f : Svc → Svc) : (s.modSvc f).upd = s.upd := rfl
theorem modSvc_svc (f : Svc → Svc) : (s.modSvc f).svc = f s.svc := rfl
@[simp] theorem modSvc_pm (f : Svc → Svc) : (s.modSvc f).pm = s.pm := rfl
@[simp] theorem modSvc_rs (f : Svc → Svc) : (s.modSvc f).rs = s.rs := rfl
@[simp] theorem modSvc_pins (f : Svc → Svc) : (s.modSvc f).pins = s.pins := rfl
@[simp] theorem modSvc_reports (f : Svc → Svc) : (s.modSvc f).reports = s.reports := rfl
@[simp] theorem modSvc_rdata (f : Svc → Svc) : (s.modSvc f).rdata = s.rdata := rfl
@[simp] theorem modSvc_freeCtr (f : Svc → Svc) : (s.modSvc f).freeCtr = s.freeCtr := rfl
@[simp] theorem modSvc_pending (f : Svc → Svc) : (s.modSvc f).pending = s.pending := rfl
@[simp] theorem modSvc_time (f : Svc → Svc) : (s.modSvc f).time = s.time := rfl
@[simp] theorem modSvc_cyc (f : Svc → Svc) : (s.modSvc f).cyc = s.cyc := rfl

/-! ## modPm -/

@[simp] theorem modPm_boot (f : Perf → Perf) : (s.modPm f).boot = s.boot := rfl
@[simp] theorem modPm_xf (f : Perf → Perf) : (s.modPm f).xf = s.xf := rfl
@[simp] theorem modPm_otp (f : Perf → Perf) : (s.modPm f).otp = s.otp := rfl
@[simp] theorem modPm_pwr (f : Perf → Perf) : (s.modPm f).pwr = s.pwr := rfl
@[simp] theorem modPm_canopy (f : Perf → Perf) : (s.modPm f).canopy = s.canopy := rfl
@[simp] theorem modPm_tbs (f : Perf → Perf) : (s.modPm f).tbs = s.tbs := rfl
@[simp] theorem modPm_chans (f : Perf → Perf) : (s.modPm f).chans = s.chans := rfl
@[simp] theorem modPm_groves (f : Perf → Perf) : (s.modPm f).groves = s.groves := rfl
@[simp] theorem modPm_ads (f : Perf → Perf) : (s.modPm f).ads = s.ads := rfl
@[simp] theorem modPm_pls (f : Perf → Perf) : (s.modPm f).pls = s.pls := rfl
@[simp] theorem modPm_tt (f : Perf → Perf) : (s.modPm f).tt = s.tt := rfl
@[simp] theorem modPm_me (f : Perf → Perf) : (s.modPm f).me = s.me := rfl
@[simp] theorem modPm_ps (f : Perf → Perf) : (s.modPm f).ps = s.ps := rfl
@[simp] theorem modPm_afe (f : Perf → Perf) : (s.modPm f).afe = s.afe := rfl
@[simp] theorem modPm_sc (f : Perf → Perf) : (s.modPm f).sc = s.sc := rfl
@[simp] theorem modPm_mem (f : Perf → Perf) : (s.modPm f).mem = s.mem := rfl
@[simp] theorem modPm_cw (f : Perf → Perf) : (s.modPm f).cw = s.cw := rfl
@[simp] theorem modPm_dma (f : Perf → Perf) : (s.modPm f).dma = s.dma := rfl
@[simp] theorem modPm_intc (f : Perf → Perf) : (s.modPm f).intc = s.intc := rfl
@[simp] theorem modPm_hp (f : Perf → Perf) : (s.modPm f).hp = s.hp := rfl
@[simp] theorem modPm_hl (f : Perf → Perf) : (s.modPm f).hl = s.hl := rfl
@[simp] theorem modPm_tsi (f : Perf → Perf) : (s.modPm f).tsi = s.tsi := rfl
@[simp] theorem modPm_smb (f : Perf → Perf) : (s.modPm f).smb = s.smb := rfl
@[simp] theorem modPm_pack (f : Perf → Perf) : (s.modPm f).pack = s.pack := rfl
@[simp] theorem modPm_msp (f : Perf → Perf) : (s.modPm f).msp = s.msp := rfl
@[simp] theorem modPm_flt (f : Perf → Perf) : (s.modPm f).flt = s.flt := rfl
@[simp] theorem modPm_upd (f : Perf → Perf) : (s.modPm f).upd = s.upd := rfl
@[simp] theorem modPm_svc (f : Perf → Perf) : (s.modPm f).svc = s.svc := rfl
theorem modPm_pm (f : Perf → Perf) : (s.modPm f).pm = f s.pm := rfl
@[simp] theorem modPm_rs (f : Perf → Perf) : (s.modPm f).rs = s.rs := rfl
@[simp] theorem modPm_pins (f : Perf → Perf) : (s.modPm f).pins = s.pins := rfl
@[simp] theorem modPm_reports (f : Perf → Perf) : (s.modPm f).reports = s.reports := rfl
@[simp] theorem modPm_rdata (f : Perf → Perf) : (s.modPm f).rdata = s.rdata := rfl
@[simp] theorem modPm_freeCtr (f : Perf → Perf) : (s.modPm f).freeCtr = s.freeCtr := rfl
@[simp] theorem modPm_pending (f : Perf → Perf) : (s.modPm f).pending = s.pending := rfl
@[simp] theorem modPm_time (f : Perf → Perf) : (s.modPm f).time = s.time := rfl
@[simp] theorem modPm_cyc (f : Perf → Perf) : (s.modPm f).cyc = s.cyc := rfl

/-! ## modRs -/

@[simp] theorem modRs_boot (f : RecStore → RecStore) : (s.modRs f).boot = s.boot := rfl
@[simp] theorem modRs_xf (f : RecStore → RecStore) : (s.modRs f).xf = s.xf := rfl
@[simp] theorem modRs_otp (f : RecStore → RecStore) : (s.modRs f).otp = s.otp := rfl
@[simp] theorem modRs_pwr (f : RecStore → RecStore) : (s.modRs f).pwr = s.pwr := rfl
@[simp] theorem modRs_canopy (f : RecStore → RecStore) : (s.modRs f).canopy = s.canopy := rfl
@[simp] theorem modRs_tbs (f : RecStore → RecStore) : (s.modRs f).tbs = s.tbs := rfl
@[simp] theorem modRs_chans (f : RecStore → RecStore) : (s.modRs f).chans = s.chans := rfl
@[simp] theorem modRs_groves (f : RecStore → RecStore) : (s.modRs f).groves = s.groves := rfl
@[simp] theorem modRs_ads (f : RecStore → RecStore) : (s.modRs f).ads = s.ads := rfl
@[simp] theorem modRs_pls (f : RecStore → RecStore) : (s.modRs f).pls = s.pls := rfl
@[simp] theorem modRs_tt (f : RecStore → RecStore) : (s.modRs f).tt = s.tt := rfl
@[simp] theorem modRs_me (f : RecStore → RecStore) : (s.modRs f).me = s.me := rfl
@[simp] theorem modRs_ps (f : RecStore → RecStore) : (s.modRs f).ps = s.ps := rfl
@[simp] theorem modRs_afe (f : RecStore → RecStore) : (s.modRs f).afe = s.afe := rfl
@[simp] theorem modRs_sc (f : RecStore → RecStore) : (s.modRs f).sc = s.sc := rfl
@[simp] theorem modRs_mem (f : RecStore → RecStore) : (s.modRs f).mem = s.mem := rfl
@[simp] theorem modRs_cw (f : RecStore → RecStore) : (s.modRs f).cw = s.cw := rfl
@[simp] theorem modRs_dma (f : RecStore → RecStore) : (s.modRs f).dma = s.dma := rfl
@[simp] theorem modRs_intc (f : RecStore → RecStore) : (s.modRs f).intc = s.intc := rfl
@[simp] theorem modRs_hp (f : RecStore → RecStore) : (s.modRs f).hp = s.hp := rfl
@[simp] theorem modRs_hl (f : RecStore → RecStore) : (s.modRs f).hl = s.hl := rfl
@[simp] theorem modRs_tsi (f : RecStore → RecStore) : (s.modRs f).tsi = s.tsi := rfl
@[simp] theorem modRs_smb (f : RecStore → RecStore) : (s.modRs f).smb = s.smb := rfl
@[simp] theorem modRs_pack (f : RecStore → RecStore) : (s.modRs f).pack = s.pack := rfl
@[simp] theorem modRs_msp (f : RecStore → RecStore) : (s.modRs f).msp = s.msp := rfl
@[simp] theorem modRs_flt (f : RecStore → RecStore) : (s.modRs f).flt = s.flt := rfl
@[simp] theorem modRs_upd (f : RecStore → RecStore) : (s.modRs f).upd = s.upd := rfl
@[simp] theorem modRs_svc (f : RecStore → RecStore) : (s.modRs f).svc = s.svc := rfl
@[simp] theorem modRs_pm (f : RecStore → RecStore) : (s.modRs f).pm = s.pm := rfl
theorem modRs_rs (f : RecStore → RecStore) : (s.modRs f).rs = f s.rs := rfl
@[simp] theorem modRs_pins (f : RecStore → RecStore) : (s.modRs f).pins = s.pins := rfl
@[simp] theorem modRs_reports (f : RecStore → RecStore) : (s.modRs f).reports = s.reports := rfl
@[simp] theorem modRs_rdata (f : RecStore → RecStore) : (s.modRs f).rdata = s.rdata := rfl
@[simp] theorem modRs_freeCtr (f : RecStore → RecStore) : (s.modRs f).freeCtr = s.freeCtr := rfl
@[simp] theorem modRs_pending (f : RecStore → RecStore) : (s.modRs f).pending = s.pending := rfl
@[simp] theorem modRs_time (f : RecStore → RecStore) : (s.modRs f).time = s.time := rfl
@[simp] theorem modRs_cyc (f : RecStore → RecStore) : (s.modRs f).cyc = s.cyc := rfl

/-! ## modOut -/

@[simp] theorem modOut_boot (n : Fin 64) (f : Output → Output) : (s.modOut n f).boot = s.boot := rfl
@[simp] theorem modOut_xf (n : Fin 64) (f : Output → Output) : (s.modOut n f).xf = s.xf := rfl
@[simp] theorem modOut_otp (n : Fin 64) (f : Output → Output) : (s.modOut n f).otp = s.otp := rfl
@[simp] theorem modOut_pwr (n : Fin 64) (f : Output → Output) : (s.modOut n f).pwr = s.pwr := rfl
@[simp] theorem modOut_canopy (n : Fin 64) (f : Output → Output) : (s.modOut n f).canopy = s.canopy := rfl
@[simp] theorem modOut_tbs (n : Fin 64) (f : Output → Output) : (s.modOut n f).tbs = s.tbs := rfl
theorem modOut_chans (n : Fin 64) (f : Output → Output) : (s.modOut n f).chans = vset s.chans n fun c => { c with o := f c.o } := rfl
@[simp] theorem modOut_groves (n : Fin 64) (f : Output → Output) : (s.modOut n f).groves = s.groves := rfl
@[simp] theorem modOut_ads (n : Fin 64) (f : Output → Output) : (s.modOut n f).ads = s.ads := rfl
@[simp] theorem modOut_pls (n : Fin 64) (f : Output → Output) : (s.modOut n f).pls = s.pls := rfl
@[simp] theorem modOut_tt (n : Fin 64) (f : Output → Output) : (s.modOut n f).tt = s.tt := rfl
@[simp] theorem modOut_me (n : Fin 64) (f : Output → Output) : (s.modOut n f).me = s.me := rfl
@[simp] theorem modOut_ps (n : Fin 64) (f : Output → Output) : (s.modOut n f).ps = s.ps := rfl
@[simp] theorem modOut_afe (n : Fin 64) (f : Output → Output) : (s.modOut n f).afe = s.afe := rfl
@[simp] theorem modOut_sc (n : Fin 64) (f : Output → Output) : (s.modOut n f).sc = s.sc := rfl
@[simp] theorem modOut_mem (n : Fin 64) (f : Output → Output) : (s.modOut n f).mem = s.mem := rfl
@[simp] theorem modOut_cw (n : Fin 64) (f : Output → Output) : (s.modOut n f).cw = s.cw := rfl
@[simp] theorem modOut_dma (n : Fin 64) (f : Output → Output) : (s.modOut n f).dma = s.dma := rfl
@[simp] theorem modOut_intc (n : Fin 64) (f : Output → Output) : (s.modOut n f).intc = s.intc := rfl
@[simp] theorem modOut_hp (n : Fin 64) (f : Output → Output) : (s.modOut n f).hp = s.hp := rfl
@[simp] theorem modOut_hl (n : Fin 64) (f : Output → Output) : (s.modOut n f).hl = s.hl := rfl
@[simp] theorem modOut_tsi (n : Fin 64) (f : Output → Output) : (s.modOut n f).tsi = s.tsi := rfl
@[simp] theorem modOut_smb (n : Fin 64) (f : Output → Output) : (s.modOut n f).smb = s.smb := rfl
@[simp] theorem modOut_pack (n : Fin 64) (f : Output → Output) : (s.modOut n f).pack = s.pack := rfl
@[simp] theorem modOut_msp (n : Fin 64) (f : Output → Output) : (s.modOut n f).msp = s.msp := rfl
@[simp] theorem modOut_flt (n : Fin 64) (f : Output → Output) : (s.modOut n f).flt = s.flt := rfl
@[simp] theorem modOut_upd (n : Fin 64) (f : Output → Output) : (s.modOut n f).upd = s.upd := rfl
@[simp] theorem modOut_svc (n : Fin 64) (f : Output → Output) : (s.modOut n f).svc = s.svc := rfl
@[simp] theorem modOut_pm (n : Fin 64) (f : Output → Output) : (s.modOut n f).pm = s.pm := rfl
@[simp] theorem modOut_rs (n : Fin 64) (f : Output → Output) : (s.modOut n f).rs = s.rs := rfl
@[simp] theorem modOut_pins (n : Fin 64) (f : Output → Output) : (s.modOut n f).pins = s.pins := rfl
@[simp] theorem modOut_reports (n : Fin 64) (f : Output → Output) : (s.modOut n f).reports = s.reports := rfl
@[simp] theorem modOut_rdata (n : Fin 64) (f : Output → Output) : (s.modOut n f).rdata = s.rdata := rfl
@[simp] theorem modOut_freeCtr (n : Fin 64) (f : Output → Output) : (s.modOut n f).freeCtr = s.freeCtr := rfl
@[simp] theorem modOut_pending (n : Fin 64) (f : Output → Output) : (s.modOut n f).pending = s.pending := rfl
@[simp] theorem modOut_time (n : Fin 64) (f : Output → Output) : (s.modOut n f).time = s.time := rfl
@[simp] theorem modOut_cyc (n : Fin 64) (f : Output → Output) : (s.modOut n f).cyc = s.cyc := rfl

/-! ## modCnt -/

@[simp] theorem modCnt_boot (n : Fin 64) (f : Counter → Counter) : (s.modCnt n f).boot = s.boot := rfl
@[simp] theorem modCnt_xf (n : Fin 64) (f : Counter → Counter) : (s.modCnt n f).xf = s.xf := rfl
@[simp] theorem modCnt_otp (n : Fin 64) (f : Counter → Counter) : (s.modCnt n f).otp = s.otp := rfl
@[simp] theorem modCnt_pwr (n : Fin 64) (f : Counter → Counter) : (s.modCnt n f).pwr = s.pwr := rfl
@[simp] theorem modCnt_canopy (n : Fin 64) (f : Counter → Counter) : (s.modCnt n f).canopy = s.canopy := rfl
@[simp] theorem modCnt_tbs (n : Fin 64) (f : Counter → Counter) : (s.modCnt n f).tbs = s.tbs := rfl
theorem modCnt_chans (n : Fin 64) (f : Counter → Counter) : (s.modCnt n f).chans = vset s.chans n fun c => { c with c := f c.c } := rfl
@[simp] theorem modCnt_groves (n : Fin 64) (f : Counter → Counter) : (s.modCnt n f).groves = s.groves := rfl
@[simp] theorem modCnt_ads (n : Fin 64) (f : Counter → Counter) : (s.modCnt n f).ads = s.ads := rfl
@[simp] theorem modCnt_pls (n : Fin 64) (f : Counter → Counter) : (s.modCnt n f).pls = s.pls := rfl
@[simp] theorem modCnt_tt (n : Fin 64) (f : Counter → Counter) : (s.modCnt n f).tt = s.tt := rfl
@[simp] theorem modCnt_me (n : Fin 64) (f : Counter → Counter) : (s.modCnt n f).me = s.me := rfl
@[simp] theorem modCnt_ps (n : Fin 64) (f : Counter → Counter) : (s.modCnt n f).ps = s.ps := rfl
@[simp] theorem modCnt_afe (n : Fin 64) (f : Counter → Counter) : (s.modCnt n f).afe = s.afe := rfl
@[simp] theorem modCnt_sc (n : Fin 64) (f : Counter → Counter) : (s.modCnt n f).sc = s.sc := rfl
@[simp] theorem modCnt_mem (n : Fin 64) (f : Counter → Counter) : (s.modCnt n f).mem = s.mem := rfl
@[simp] theorem modCnt_cw (n : Fin 64) (f : Counter → Counter) : (s.modCnt n f).cw = s.cw := rfl
@[simp] theorem modCnt_dma (n : Fin 64) (f : Counter → Counter) : (s.modCnt n f).dma = s.dma := rfl
@[simp] theorem modCnt_intc (n : Fin 64) (f : Counter → Counter) : (s.modCnt n f).intc = s.intc := rfl
@[simp] theorem modCnt_hp (n : Fin 64) (f : Counter → Counter) : (s.modCnt n f).hp = s.hp := rfl
@[simp] theorem modCnt_hl (n : Fin 64) (f : Counter → Counter) : (s.modCnt n f).hl = s.hl := rfl
@[simp] theorem modCnt_tsi (n : Fin 64) (f : Counter → Counter) : (s.modCnt n f).tsi = s.tsi := rfl
@[simp] theorem modCnt_smb (n : Fin 64) (f : Counter → Counter) : (s.modCnt n f).smb = s.smb := rfl
@[simp] theorem modCnt_pack (n : Fin 64) (f : Counter → Counter) : (s.modCnt n f).pack = s.pack := rfl
@[simp] theorem modCnt_msp (n : Fin 64) (f : Counter → Counter) : (s.modCnt n f).msp = s.msp := rfl
@[simp] theorem modCnt_flt (n : Fin 64) (f : Counter → Counter) : (s.modCnt n f).flt = s.flt := rfl
@[simp] theorem modCnt_upd (n : Fin 64) (f : Counter → Counter) : (s.modCnt n f).upd = s.upd := rfl
@[simp] theorem modCnt_svc (n : Fin 64) (f : Counter → Counter) : (s.modCnt n f).svc = s.svc := rfl
@[simp] theorem modCnt_pm (n : Fin 64) (f : Counter → Counter) : (s.modCnt n f).pm = s.pm := rfl
@[simp] theorem modCnt_rs (n : Fin 64) (f : Counter → Counter) : (s.modCnt n f).rs = s.rs := rfl
@[simp] theorem modCnt_pins (n : Fin 64) (f : Counter → Counter) : (s.modCnt n f).pins = s.pins := rfl
@[simp] theorem modCnt_reports (n : Fin 64) (f : Counter → Counter) : (s.modCnt n f).reports = s.reports := rfl
@[simp] theorem modCnt_rdata (n : Fin 64) (f : Counter → Counter) : (s.modCnt n f).rdata = s.rdata := rfl
@[simp] theorem modCnt_freeCtr (n : Fin 64) (f : Counter → Counter) : (s.modCnt n f).freeCtr = s.freeCtr := rfl
@[simp] theorem modCnt_pending (n : Fin 64) (f : Counter → Counter) : (s.modCnt n f).pending = s.pending := rfl
@[simp] theorem modCnt_time (n : Fin 64) (f : Counter → Counter) : (s.modCnt n f).time = s.time := rfl
@[simp] theorem modCnt_cyc (n : Fin 64) (f : Counter → Counter) : (s.modCnt n f).cyc = s.cyc := rfl

/-! ## modAdc -/

@[simp] theorem modAdc_boot (a : Fin 2) (f : Adc → Adc) : (s.modAdc a f).boot = s.boot := rfl
@[simp] theorem modAdc_xf (a : Fin 2) (f : Adc → Adc) : (s.modAdc a f).xf = s.xf := rfl
@[simp] theorem modAdc_otp (a : Fin 2) (f : Adc → Adc) : (s.modAdc a f).otp = s.otp := rfl
@[simp] theorem modAdc_pwr (a : Fin 2) (f : Adc → Adc) : (s.modAdc a f).pwr = s.pwr := rfl
@[simp] theorem modAdc_canopy (a : Fin 2) (f : Adc → Adc) : (s.modAdc a f).canopy = s.canopy := rfl
@[simp] theorem modAdc_tbs (a : Fin 2) (f : Adc → Adc) : (s.modAdc a f).tbs = s.tbs := rfl
@[simp] theorem modAdc_chans (a : Fin 2) (f : Adc → Adc) : (s.modAdc a f).chans = s.chans := rfl
@[simp] theorem modAdc_groves (a : Fin 2) (f : Adc → Adc) : (s.modAdc a f).groves = s.groves := rfl
@[simp] theorem modAdc_ads (a : Fin 2) (f : Adc → Adc) : (s.modAdc a f).ads = s.ads := rfl
@[simp] theorem modAdc_pls (a : Fin 2) (f : Adc → Adc) : (s.modAdc a f).pls = s.pls := rfl
@[simp] theorem modAdc_tt (a : Fin 2) (f : Adc → Adc) : (s.modAdc a f).tt = s.tt := rfl
@[simp] theorem modAdc_me (a : Fin 2) (f : Adc → Adc) : (s.modAdc a f).me = s.me := rfl
@[simp] theorem modAdc_ps (a : Fin 2) (f : Adc → Adc) : (s.modAdc a f).ps = s.ps := rfl
theorem modAdc_afe (a : Fin 2) (f : Adc → Adc) : (s.modAdc a f).afe = { s.afe with adc := vset s.afe.adc a f } := rfl
@[simp] theorem modAdc_sc (a : Fin 2) (f : Adc → Adc) : (s.modAdc a f).sc = s.sc := rfl
@[simp] theorem modAdc_mem (a : Fin 2) (f : Adc → Adc) : (s.modAdc a f).mem = s.mem := rfl
@[simp] theorem modAdc_cw (a : Fin 2) (f : Adc → Adc) : (s.modAdc a f).cw = s.cw := rfl
@[simp] theorem modAdc_dma (a : Fin 2) (f : Adc → Adc) : (s.modAdc a f).dma = s.dma := rfl
@[simp] theorem modAdc_intc (a : Fin 2) (f : Adc → Adc) : (s.modAdc a f).intc = s.intc := rfl
@[simp] theorem modAdc_hp (a : Fin 2) (f : Adc → Adc) : (s.modAdc a f).hp = s.hp := rfl
@[simp] theorem modAdc_hl (a : Fin 2) (f : Adc → Adc) : (s.modAdc a f).hl = s.hl := rfl
@[simp] theorem modAdc_tsi (a : Fin 2) (f : Adc → Adc) : (s.modAdc a f).tsi = s.tsi := rfl
@[simp] theorem modAdc_smb (a : Fin 2) (f : Adc → Adc) : (s.modAdc a f).smb = s.smb := rfl
@[simp] theorem modAdc_pack (a : Fin 2) (f : Adc → Adc) : (s.modAdc a f).pack = s.pack := rfl
@[simp] theorem modAdc_msp (a : Fin 2) (f : Adc → Adc) : (s.modAdc a f).msp = s.msp := rfl
@[simp] theorem modAdc_flt (a : Fin 2) (f : Adc → Adc) : (s.modAdc a f).flt = s.flt := rfl
@[simp] theorem modAdc_upd (a : Fin 2) (f : Adc → Adc) : (s.modAdc a f).upd = s.upd := rfl
@[simp] theorem modAdc_svc (a : Fin 2) (f : Adc → Adc) : (s.modAdc a f).svc = s.svc := rfl
@[simp] theorem modAdc_pm (a : Fin 2) (f : Adc → Adc) : (s.modAdc a f).pm = s.pm := rfl
@[simp] theorem modAdc_rs (a : Fin 2) (f : Adc → Adc) : (s.modAdc a f).rs = s.rs := rfl
@[simp] theorem modAdc_pins (a : Fin 2) (f : Adc → Adc) : (s.modAdc a f).pins = s.pins := rfl
@[simp] theorem modAdc_reports (a : Fin 2) (f : Adc → Adc) : (s.modAdc a f).reports = s.reports := rfl
@[simp] theorem modAdc_rdata (a : Fin 2) (f : Adc → Adc) : (s.modAdc a f).rdata = s.rdata := rfl
@[simp] theorem modAdc_freeCtr (a : Fin 2) (f : Adc → Adc) : (s.modAdc a f).freeCtr = s.freeCtr := rfl
@[simp] theorem modAdc_pending (a : Fin 2) (f : Adc → Adc) : (s.modAdc a f).pending = s.pending := rfl
@[simp] theorem modAdc_time (a : Fin 2) (f : Adc → Adc) : (s.modAdc a f).time = s.time := rfl
@[simp] theorem modAdc_cyc (a : Fin 2) (f : Adc → Adc) : (s.modAdc a f).cyc = s.cyc := rfl

/-! ## request -/

@[simp] theorem request_boot (r : ReqSrc) (e : EventRegs) : (s.request r e).boot = s.boot := rfl
@[simp] theorem request_xf (r : ReqSrc) (e : EventRegs) : (s.request r e).xf = s.xf := rfl
@[simp] theorem request_otp (r : ReqSrc) (e : EventRegs) : (s.request r e).otp = s.otp := rfl
@[simp] theorem request_pwr (r : ReqSrc) (e : EventRegs) : (s.request r e).pwr = s.pwr := rfl
@[simp] theorem request_canopy (r : ReqSrc) (e : EventRegs) : (s.request r e).canopy = s.canopy := rfl
@[simp] theorem request_tbs (r : ReqSrc) (e : EventRegs) : (s.request r e).tbs = s.tbs := rfl
@[simp] theorem request_chans (r : ReqSrc) (e : EventRegs) : (s.request r e).chans = s.chans := rfl
@[simp] theorem request_groves (r : ReqSrc) (e : EventRegs) : (s.request r e).groves = s.groves := rfl
@[simp] theorem request_ads (r : ReqSrc) (e : EventRegs) : (s.request r e).ads = s.ads := rfl
@[simp] theorem request_pls (r : ReqSrc) (e : EventRegs) : (s.request r e).pls = s.pls := rfl
theorem request_tt (r : ReqSrc) (e : EventRegs) : (s.request r e).tt = { s.tt with reqs := s.tt.reqs ++ [{ src := r, entry := e.entry, pri := e.pri, at_ := s.tb + 1, readyAt := s.time + 2 }] } := rfl
@[simp] theorem request_me (r : ReqSrc) (e : EventRegs) : (s.request r e).me = s.me := rfl
@[simp] theorem request_ps (r : ReqSrc) (e : EventRegs) : (s.request r e).ps = s.ps := rfl
@[simp] theorem request_afe (r : ReqSrc) (e : EventRegs) : (s.request r e).afe = s.afe := rfl
@[simp] theorem request_sc (r : ReqSrc) (e : EventRegs) : (s.request r e).sc = s.sc := rfl
@[simp] theorem request_mem (r : ReqSrc) (e : EventRegs) : (s.request r e).mem = s.mem := rfl
@[simp] theorem request_cw (r : ReqSrc) (e : EventRegs) : (s.request r e).cw = s.cw := rfl
@[simp] theorem request_dma (r : ReqSrc) (e : EventRegs) : (s.request r e).dma = s.dma := rfl
@[simp] theorem request_intc (r : ReqSrc) (e : EventRegs) : (s.request r e).intc = s.intc := rfl
@[simp] theorem request_hp (r : ReqSrc) (e : EventRegs) : (s.request r e).hp = s.hp := rfl
@[simp] theorem request_hl (r : ReqSrc) (e : EventRegs) : (s.request r e).hl = s.hl := rfl
@[simp] theorem request_tsi (r : ReqSrc) (e : EventRegs) : (s.request r e).tsi = s.tsi := rfl
@[simp] theorem request_smb (r : ReqSrc) (e : EventRegs) : (s.request r e).smb = s.smb := rfl
@[simp] theorem request_pack (r : ReqSrc) (e : EventRegs) : (s.request r e).pack = s.pack := rfl
@[simp] theorem request_msp (r : ReqSrc) (e : EventRegs) : (s.request r e).msp = s.msp := rfl
@[simp] theorem request_flt (r : ReqSrc) (e : EventRegs) : (s.request r e).flt = s.flt := rfl
@[simp] theorem request_upd (r : ReqSrc) (e : EventRegs) : (s.request r e).upd = s.upd := rfl
@[simp] theorem request_svc (r : ReqSrc) (e : EventRegs) : (s.request r e).svc = s.svc := rfl
@[simp] theorem request_pm (r : ReqSrc) (e : EventRegs) : (s.request r e).pm = s.pm := rfl
@[simp] theorem request_rs (r : ReqSrc) (e : EventRegs) : (s.request r e).rs = s.rs := rfl
@[simp] theorem request_pins (r : ReqSrc) (e : EventRegs) : (s.request r e).pins = s.pins := rfl
@[simp] theorem request_reports (r : ReqSrc) (e : EventRegs) : (s.request r e).reports = s.reports := rfl
@[simp] theorem request_rdata (r : ReqSrc) (e : EventRegs) : (s.request r e).rdata = s.rdata := rfl
@[simp] theorem request_freeCtr (r : ReqSrc) (e : EventRegs) : (s.request r e).freeCtr = s.freeCtr := rfl
@[simp] theorem request_pending (r : ReqSrc) (e : EventRegs) : (s.request r e).pending = s.pending := rfl
@[simp] theorem request_time (r : ReqSrc) (e : EventRegs) : (s.request r e).time = s.time := rfl
@[simp] theorem request_cyc (r : ReqSrc) (e : EventRegs) : (s.request r e).cyc = s.cyc := rfl

/-! ## dropRequest -/

@[simp] theorem dropRequest_boot (r : ReqSrc) : (s.dropRequest r).boot = s.boot := rfl
@[simp] theorem dropRequest_xf (r : ReqSrc) : (s.dropRequest r).xf = s.xf := rfl
@[simp] theorem dropRequest_otp (r : ReqSrc) : (s.dropRequest r).otp = s.otp := rfl
@[simp] theorem dropRequest_pwr (r : ReqSrc) : (s.dropRequest r).pwr = s.pwr := rfl
@[simp] theorem dropRequest_canopy (r : ReqSrc) : (s.dropRequest r).canopy = s.canopy := rfl
@[simp] theorem dropRequest_tbs (r : ReqSrc) : (s.dropRequest r).tbs = s.tbs := rfl
@[simp] theorem dropRequest_chans (r : ReqSrc) : (s.dropRequest r).chans = s.chans := rfl
@[simp] theorem dropRequest_groves (r : ReqSrc) : (s.dropRequest r).groves = s.groves := rfl
@[simp] theorem dropRequest_ads (r : ReqSrc) : (s.dropRequest r).ads = s.ads := rfl
@[simp] theorem dropRequest_pls (r : ReqSrc) : (s.dropRequest r).pls = s.pls := rfl
theorem dropRequest_tt (r : ReqSrc) : (s.dropRequest r).tt = { s.tt with reqs := s.tt.reqs.filter fun x => x.src ≠ r } := rfl
@[simp] theorem dropRequest_me (r : ReqSrc) : (s.dropRequest r).me = s.me := rfl
@[simp] theorem dropRequest_ps (r : ReqSrc) : (s.dropRequest r).ps = s.ps := rfl
@[simp] theorem dropRequest_afe (r : ReqSrc) : (s.dropRequest r).afe = s.afe := rfl
@[simp] theorem dropRequest_sc (r : ReqSrc) : (s.dropRequest r).sc = s.sc := rfl
@[simp] theorem dropRequest_mem (r : ReqSrc) : (s.dropRequest r).mem = s.mem := rfl
@[simp] theorem dropRequest_cw (r : ReqSrc) : (s.dropRequest r).cw = s.cw := rfl
@[simp] theorem dropRequest_dma (r : ReqSrc) : (s.dropRequest r).dma = s.dma := rfl
@[simp] theorem dropRequest_intc (r : ReqSrc) : (s.dropRequest r).intc = s.intc := rfl
@[simp] theorem dropRequest_hp (r : ReqSrc) : (s.dropRequest r).hp = s.hp := rfl
@[simp] theorem dropRequest_hl (r : ReqSrc) : (s.dropRequest r).hl = s.hl := rfl
@[simp] theorem dropRequest_tsi (r : ReqSrc) : (s.dropRequest r).tsi = s.tsi := rfl
@[simp] theorem dropRequest_smb (r : ReqSrc) : (s.dropRequest r).smb = s.smb := rfl
@[simp] theorem dropRequest_pack (r : ReqSrc) : (s.dropRequest r).pack = s.pack := rfl
@[simp] theorem dropRequest_msp (r : ReqSrc) : (s.dropRequest r).msp = s.msp := rfl
@[simp] theorem dropRequest_flt (r : ReqSrc) : (s.dropRequest r).flt = s.flt := rfl
@[simp] theorem dropRequest_upd (r : ReqSrc) : (s.dropRequest r).upd = s.upd := rfl
@[simp] theorem dropRequest_svc (r : ReqSrc) : (s.dropRequest r).svc = s.svc := rfl
@[simp] theorem dropRequest_pm (r : ReqSrc) : (s.dropRequest r).pm = s.pm := rfl
@[simp] theorem dropRequest_rs (r : ReqSrc) : (s.dropRequest r).rs = s.rs := rfl
@[simp] theorem dropRequest_pins (r : ReqSrc) : (s.dropRequest r).pins = s.pins := rfl
@[simp] theorem dropRequest_reports (r : ReqSrc) : (s.dropRequest r).reports = s.reports := rfl
@[simp] theorem dropRequest_rdata (r : ReqSrc) : (s.dropRequest r).rdata = s.rdata := rfl
@[simp] theorem dropRequest_freeCtr (r : ReqSrc) : (s.dropRequest r).freeCtr = s.freeCtr := rfl
@[simp] theorem dropRequest_pending (r : ReqSrc) : (s.dropRequest r).pending = s.pending := rfl
@[simp] theorem dropRequest_time (r : ReqSrc) : (s.dropRequest r).time = s.time := rfl
@[simp] theorem dropRequest_cyc (r : ReqSrc) : (s.dropRequest r).cyc = s.cyc := rfl

/-! ## answer -/

@[simp] theorem answer_boot (w : Word) : (s.answer w).boot = s.boot := rfl
@[simp] theorem answer_xf (w : Word) : (s.answer w).xf = s.xf := rfl
@[simp] theorem answer_otp (w : Word) : (s.answer w).otp = s.otp := rfl
@[simp] theorem answer_pwr (w : Word) : (s.answer w).pwr = s.pwr := rfl
@[simp] theorem answer_canopy (w : Word) : (s.answer w).canopy = s.canopy := rfl
@[simp] theorem answer_tbs (w : Word) : (s.answer w).tbs = s.tbs := rfl
@[simp] theorem answer_chans (w : Word) : (s.answer w).chans = s.chans := rfl
@[simp] theorem answer_groves (w : Word) : (s.answer w).groves = s.groves := rfl
@[simp] theorem answer_ads (w : Word) : (s.answer w).ads = s.ads := rfl
@[simp] theorem answer_pls (w : Word) : (s.answer w).pls = s.pls := rfl
@[simp] theorem answer_tt (w : Word) : (s.answer w).tt = s.tt := rfl
@[simp] theorem answer_me (w : Word) : (s.answer w).me = s.me := rfl
@[simp] theorem answer_ps (w : Word) : (s.answer w).ps = s.ps := rfl
@[simp] theorem answer_afe (w : Word) : (s.answer w).afe = s.afe := rfl
@[simp] theorem answer_sc (w : Word) : (s.answer w).sc = s.sc := rfl
@[simp] theorem answer_mem (w : Word) : (s.answer w).mem = s.mem := rfl
@[simp] theorem answer_cw (w : Word) : (s.answer w).cw = s.cw := rfl
@[simp] theorem answer_dma (w : Word) : (s.answer w).dma = s.dma := rfl
@[simp] theorem answer_intc (w : Word) : (s.answer w).intc = s.intc := rfl
@[simp] theorem answer_hp (w : Word) : (s.answer w).hp = s.hp := rfl
@[simp] theorem answer_hl (w : Word) : (s.answer w).hl = s.hl := rfl
@[simp] theorem answer_tsi (w : Word) : (s.answer w).tsi = s.tsi := rfl
@[simp] theorem answer_smb (w : Word) : (s.answer w).smb = s.smb := rfl
@[simp] theorem answer_pack (w : Word) : (s.answer w).pack = s.pack := rfl
@[simp] theorem answer_msp (w : Word) : (s.answer w).msp = s.msp := rfl
@[simp] theorem answer_flt (w : Word) : (s.answer w).flt = s.flt := rfl
@[simp] theorem answer_upd (w : Word) : (s.answer w).upd = s.upd := rfl
@[simp] theorem answer_svc (w : Word) : (s.answer w).svc = s.svc := rfl
@[simp] theorem answer_pm (w : Word) : (s.answer w).pm = s.pm := rfl
@[simp] theorem answer_rs (w : Word) : (s.answer w).rs = s.rs := rfl
@[simp] theorem answer_pins (w : Word) : (s.answer w).pins = s.pins := rfl
@[simp] theorem answer_reports (w : Word) : (s.answer w).reports = s.reports := rfl
theorem answer_rdata (w : Word) : (s.answer w).rdata = w := rfl
@[simp] theorem answer_freeCtr (w : Word) : (s.answer w).freeCtr = s.freeCtr := rfl
@[simp] theorem answer_pending (w : Word) : (s.answer w).pending = s.pending := rfl
@[simp] theorem answer_time (w : Word) : (s.answer w).time = s.time := rfl
@[simp] theorem answer_cyc (w : Word) : (s.answer w).cyc = s.cyc := rfl

/-! ## report -/

@[simp] theorem report_boot (m k i d : Nat) : (s.report m k i d).boot = s.boot := rfl
@[simp] theorem report_xf (m k i d : Nat) : (s.report m k i d).xf = s.xf := rfl
@[simp] theorem report_otp (m k i d : Nat) : (s.report m k i d).otp = s.otp := rfl
@[simp] theorem report_pwr (m k i d : Nat) : (s.report m k i d).pwr = s.pwr := rfl
@[simp] theorem report_canopy (m k i d : Nat) : (s.report m k i d).canopy = s.canopy := rfl
@[simp] theorem report_tbs (m k i d : Nat) : (s.report m k i d).tbs = s.tbs := rfl
@[simp] theorem report_chans (m k i d : Nat) : (s.report m k i d).chans = s.chans := rfl
@[simp] theorem report_groves (m k i d : Nat) : (s.report m k i d).groves = s.groves := rfl
@[simp] theorem report_ads (m k i d : Nat) : (s.report m k i d).ads = s.ads := rfl
@[simp] theorem report_pls (m k i d : Nat) : (s.report m k i d).pls = s.pls := rfl
@[simp] theorem report_tt (m k i d : Nat) : (s.report m k i d).tt = s.tt := rfl
@[simp] theorem report_me (m k i d : Nat) : (s.report m k i d).me = s.me := rfl
@[simp] theorem report_ps (m k i d : Nat) : (s.report m k i d).ps = s.ps := rfl
@[simp] theorem report_afe (m k i d : Nat) : (s.report m k i d).afe = s.afe := rfl
@[simp] theorem report_sc (m k i d : Nat) : (s.report m k i d).sc = s.sc := rfl
@[simp] theorem report_mem (m k i d : Nat) : (s.report m k i d).mem = s.mem := rfl
@[simp] theorem report_cw (m k i d : Nat) : (s.report m k i d).cw = s.cw := rfl
@[simp] theorem report_dma (m k i d : Nat) : (s.report m k i d).dma = s.dma := rfl
@[simp] theorem report_intc (m k i d : Nat) : (s.report m k i d).intc = s.intc := rfl
@[simp] theorem report_hp (m k i d : Nat) : (s.report m k i d).hp = s.hp := rfl
@[simp] theorem report_hl (m k i d : Nat) : (s.report m k i d).hl = s.hl := rfl
@[simp] theorem report_tsi (m k i d : Nat) : (s.report m k i d).tsi = s.tsi := rfl
@[simp] theorem report_smb (m k i d : Nat) : (s.report m k i d).smb = s.smb := rfl
@[simp] theorem report_pack (m k i d : Nat) : (s.report m k i d).pack = s.pack := rfl
@[simp] theorem report_msp (m k i d : Nat) : (s.report m k i d).msp = s.msp := rfl
@[simp] theorem report_flt (m k i d : Nat) : (s.report m k i d).flt = s.flt := rfl
@[simp] theorem report_upd (m k i d : Nat) : (s.report m k i d).upd = s.upd := rfl
@[simp] theorem report_svc (m k i d : Nat) : (s.report m k i d).svc = s.svc := rfl
@[simp] theorem report_pm (m k i d : Nat) : (s.report m k i d).pm = s.pm := rfl
@[simp] theorem report_rs (m k i d : Nat) : (s.report m k i d).rs = s.rs := rfl
@[simp] theorem report_pins (m k i d : Nat) : (s.report m k i d).pins = s.pins := rfl
@[simp] theorem report_rdata (m k i d : Nat) : (s.report m k i d).rdata = s.rdata := rfl
@[simp] theorem report_freeCtr (m k i d : Nat) : (s.report m k i d).freeCtr = s.freeCtr := rfl
@[simp] theorem report_pending (m k i d : Nat) : (s.report m k i d).pending = s.pending := rfl
@[simp] theorem report_time (m k i d : Nat) : (s.report m k i d).time = s.time := rfl
@[simp] theorem report_cyc (m k i d : Nat) : (s.report m k i d).cyc = s.cyc := rfl

/-! ## modCyc -/

@[simp] theorem modCyc_boot (f : Cycle → Cycle) : (s.modCyc f).boot = s.boot := rfl
@[simp] theorem modCyc_xf (f : Cycle → Cycle) : (s.modCyc f).xf = s.xf := rfl
@[simp] theorem modCyc_otp (f : Cycle → Cycle) : (s.modCyc f).otp = s.otp := rfl
@[simp] theorem modCyc_pwr (f : Cycle → Cycle) : (s.modCyc f).pwr = s.pwr := rfl
@[simp] theorem modCyc_canopy (f : Cycle → Cycle) : (s.modCyc f).canopy = s.canopy := rfl
@[simp] theorem modCyc_tbs (f : Cycle → Cycle) : (s.modCyc f).tbs = s.tbs := rfl
@[simp] theorem modCyc_chans (f : Cycle → Cycle) : (s.modCyc f).chans = s.chans := rfl
@[simp] theorem modCyc_groves (f : Cycle → Cycle) : (s.modCyc f).groves = s.groves := rfl
@[simp] theorem modCyc_ads (f : Cycle → Cycle) : (s.modCyc f).ads = s.ads := rfl
@[simp] theorem modCyc_pls (f : Cycle → Cycle) : (s.modCyc f).pls = s.pls := rfl
@[simp] theorem modCyc_tt (f : Cycle → Cycle) : (s.modCyc f).tt = s.tt := rfl
@[simp] theorem modCyc_me (f : Cycle → Cycle) : (s.modCyc f).me = s.me := rfl
@[simp] theorem modCyc_ps (f : Cycle → Cycle) : (s.modCyc f).ps = s.ps := rfl
@[simp] theorem modCyc_afe (f : Cycle → Cycle) : (s.modCyc f).afe = s.afe := rfl
@[simp] theorem modCyc_sc (f : Cycle → Cycle) : (s.modCyc f).sc = s.sc := rfl
@[simp] theorem modCyc_mem (f : Cycle → Cycle) : (s.modCyc f).mem = s.mem := rfl
@[simp] theorem modCyc_cw (f : Cycle → Cycle) : (s.modCyc f).cw = s.cw := rfl
@[simp] theorem modCyc_dma (f : Cycle → Cycle) : (s.modCyc f).dma = s.dma := rfl
@[simp] theorem modCyc_intc (f : Cycle → Cycle) : (s.modCyc f).intc = s.intc := rfl
@[simp] theorem modCyc_hp (f : Cycle → Cycle) : (s.modCyc f).hp = s.hp := rfl
@[simp] theorem modCyc_hl (f : Cycle → Cycle) : (s.modCyc f).hl = s.hl := rfl
@[simp] theorem modCyc_tsi (f : Cycle → Cycle) : (s.modCyc f).tsi = s.tsi := rfl
@[simp] theorem modCyc_smb (f : Cycle → Cycle) : (s.modCyc f).smb = s.smb := rfl
@[simp] theorem modCyc_pack (f : Cycle → Cycle) : (s.modCyc f).pack = s.pack := rfl
@[simp] theorem modCyc_msp (f : Cycle → Cycle) : (s.modCyc f).msp = s.msp := rfl
@[simp] theorem modCyc_flt (f : Cycle → Cycle) : (s.modCyc f).flt = s.flt := rfl
@[simp] theorem modCyc_upd (f : Cycle → Cycle) : (s.modCyc f).upd = s.upd := rfl
@[simp] theorem modCyc_svc (f : Cycle → Cycle) : (s.modCyc f).svc = s.svc := rfl
@[simp] theorem modCyc_pm (f : Cycle → Cycle) : (s.modCyc f).pm = s.pm := rfl
@[simp] theorem modCyc_rs (f : Cycle → Cycle) : (s.modCyc f).rs = s.rs := rfl
@[simp] theorem modCyc_pins (f : Cycle → Cycle) : (s.modCyc f).pins = s.pins := rfl
@[simp] theorem modCyc_reports (f : Cycle → Cycle) : (s.modCyc f).reports = s.reports := rfl
@[simp] theorem modCyc_rdata (f : Cycle → Cycle) : (s.modCyc f).rdata = s.rdata := rfl
@[simp] theorem modCyc_freeCtr (f : Cycle → Cycle) : (s.modCyc f).freeCtr = s.freeCtr := rfl
@[simp] theorem modCyc_pending (f : Cycle → Cycle) : (s.modCyc f).pending = s.pending := rfl
@[simp] theorem modCyc_time (f : Cycle → Cycle) : (s.modCyc f).time = s.time := rfl
theorem modCyc_cyc (f : Cycle → Cycle) : (s.modCyc f).cyc = f s.cyc := rfl

/-! ## hwSet -/

@[simp] theorem hwSet_boot (ad : Nat) (w : Word) : (s.hwSet ad w).boot = s.boot := rfl
@[simp] theorem hwSet_xf (ad : Nat) (w : Word) : (s.hwSet ad w).xf = s.xf := rfl
@[simp] theorem hwSet_otp (ad : Nat) (w : Word) : (s.hwSet ad w).otp = s.otp := rfl
@[simp] theorem hwSet_pwr (ad : Nat) (w : Word) : (s.hwSet ad w).pwr = s.pwr := rfl
@[simp] theorem hwSet_canopy (ad : Nat) (w : Word) : (s.hwSet ad w).canopy = s.canopy := rfl
@[simp] theorem hwSet_tbs (ad : Nat) (w : Word) : (s.hwSet ad w).tbs = s.tbs := rfl
@[simp] theorem hwSet_chans (ad : Nat) (w : Word) : (s.hwSet ad w).chans = s.chans := rfl
@[simp] theorem hwSet_groves (ad : Nat) (w : Word) : (s.hwSet ad w).groves = s.groves := rfl
@[simp] theorem hwSet_ads (ad : Nat) (w : Word) : (s.hwSet ad w).ads = s.ads := rfl
@[simp] theorem hwSet_pls (ad : Nat) (w : Word) : (s.hwSet ad w).pls = s.pls := rfl
@[simp] theorem hwSet_tt (ad : Nat) (w : Word) : (s.hwSet ad w).tt = s.tt := rfl
@[simp] theorem hwSet_me (ad : Nat) (w : Word) : (s.hwSet ad w).me = s.me := rfl
@[simp] theorem hwSet_ps (ad : Nat) (w : Word) : (s.hwSet ad w).ps = s.ps := rfl
@[simp] theorem hwSet_afe (ad : Nat) (w : Word) : (s.hwSet ad w).afe = s.afe := rfl
@[simp] theorem hwSet_sc (ad : Nat) (w : Word) : (s.hwSet ad w).sc = s.sc := rfl
@[simp] theorem hwSet_mem (ad : Nat) (w : Word) : (s.hwSet ad w).mem = s.mem := rfl
@[simp] theorem hwSet_cw (ad : Nat) (w : Word) : (s.hwSet ad w).cw = s.cw := rfl
@[simp] theorem hwSet_dma (ad : Nat) (w : Word) : (s.hwSet ad w).dma = s.dma := rfl
@[simp] theorem hwSet_intc (ad : Nat) (w : Word) : (s.hwSet ad w).intc = s.intc := rfl
@[simp] theorem hwSet_hp (ad : Nat) (w : Word) : (s.hwSet ad w).hp = s.hp := rfl
@[simp] theorem hwSet_hl (ad : Nat) (w : Word) : (s.hwSet ad w).hl = s.hl := rfl
@[simp] theorem hwSet_tsi (ad : Nat) (w : Word) : (s.hwSet ad w).tsi = s.tsi := rfl
@[simp] theorem hwSet_smb (ad : Nat) (w : Word) : (s.hwSet ad w).smb = s.smb := rfl
@[simp] theorem hwSet_pack (ad : Nat) (w : Word) : (s.hwSet ad w).pack = s.pack := rfl
@[simp] theorem hwSet_msp (ad : Nat) (w : Word) : (s.hwSet ad w).msp = s.msp := rfl
@[simp] theorem hwSet_flt (ad : Nat) (w : Word) : (s.hwSet ad w).flt = s.flt := rfl
@[simp] theorem hwSet_upd (ad : Nat) (w : Word) : (s.hwSet ad w).upd = s.upd := rfl
@[simp] theorem hwSet_svc (ad : Nat) (w : Word) : (s.hwSet ad w).svc = s.svc := rfl
@[simp] theorem hwSet_pm (ad : Nat) (w : Word) : (s.hwSet ad w).pm = s.pm := rfl
@[simp] theorem hwSet_rs (ad : Nat) (w : Word) : (s.hwSet ad w).rs = s.rs := rfl
@[simp] theorem hwSet_pins (ad : Nat) (w : Word) : (s.hwSet ad w).pins = s.pins := rfl
@[simp] theorem hwSet_reports (ad : Nat) (w : Word) : (s.hwSet ad w).reports = s.reports := rfl
@[simp] theorem hwSet_rdata (ad : Nat) (w : Word) : (s.hwSet ad w).rdata = s.rdata := rfl
@[simp] theorem hwSet_freeCtr (ad : Nat) (w : Word) : (s.hwSet ad w).freeCtr = s.freeCtr := rfl
@[simp] theorem hwSet_pending (ad : Nat) (w : Word) : (s.hwSet ad w).pending = s.pending := rfl
@[simp] theorem hwSet_time (ad : Nat) (w : Word) : (s.hwSet ad w).time = s.time := rfl
theorem hwSet_cyc (ad : Nat) (w : Word) : (s.hwSet ad w).cyc = { s.cyc with fresh := (ad, w) :: s.cyc.fresh } := rfl

/-! ## Parts read after an update -/

@[simp] theorem chan_modChan (i j : Fin 64) (f : Chan → Chan) :
    (s.modChan i f).chan j = if i = j then f (s.chan i) else s.chan j := at_vset _ i j f
theorem chan_modChan_self (i : Fin 64) (f : Chan → Chan) : (s.modChan i f).chan i = f (s.chan i) := at_vset_self _ i f
@[simp] theorem chan_modGrove (g : Fin 8) (f : Grove → Grove) (j : Fin 64) : (s.modGrove g f).chan j = s.chan j := rfl
@[simp] theorem chan_modAd (d : Fin 3) (f : AngleDom → AngleDom) (j : Fin 64) : (s.modAd d f).chan j = s.chan j := rfl
@[simp] theorem chan_modPl (k : Fin 2) (f : Checker → Checker) (j : Fin 64) : (s.modPl k f).chan j = s.chan j := rfl
@[simp] theorem chan_modTt (f : Timetable → Timetable) (j : Fin 64) : (s.modTt f).chan j = s.chan j := rfl
@[simp] theorem chan_modMe (f : MicroEngine → MicroEngine) (j : Fin 64) : (s.modMe f).chan j = s.chan j := rfl
@[simp] theorem chan_modEng (e : Fin 8) (f : PinSeq → PinSeq) (j : Fin 64) : (s.modEng e f).chan j = s.chan j := rfl
@[simp] theorem chan_modAfe (f : Afe → Afe) (j : Fin 64) : (s.modAfe f).chan j = s.chan j := rfl
@[simp] theorem chan_modSc (f : Seating → Seating) (j : Fin 64) : (s.modSc f).chan j = s.chan j := rfl
@[simp] theorem chan_modBoot (f : Boot → Boot) (j : Fin 64) : (s.modBoot f).chan j = s.chan j := rfl
@[simp] theorem chan_modPwr (f : Power → Power) (j : Fin 64) : (s.modPwr f).chan j = s.chan j := rfl
@[simp] theorem chan_modCanopy (f : Canopy → Canopy) (j : Fin 64) : (s.modCanopy f).chan j = s.chan j := rfl
@[simp] theorem chan_modTbs (f : Timebase → Timebase) (j : Fin 64) : (s.modTbs f).chan j = s.chan j := rfl
@[simp] theorem chan_modPins (f : Pins → Pins) (j : Fin 64) : (s.modPins f).chan j = s.chan j := rfl
@[simp] theorem chan_modMem (f : Mem → Mem) (j : Fin 64) : (s.modMem f).chan j = s.chan j := rfl
@[simp] theorem chan_modBank (b : Fin 8) (f : Bank → Bank) (j : Fin 64) : (s.modBank b f).chan j = s.chan j := rfl
@[simp] theorem chan_modCw (n : Fin 16) (f : CircWin → CircWin) (j : Fin 64) : (s.modCw n f).chan j = s.chan j := rfl
@[simp] theorem chan_modDma (c : Fin 8) (f : DmaChan → DmaChan) (j : Fin 64) : (s.modDma c f).chan j = s.chan j := rfl
@[simp] theorem chan_modIntc (f : Intc → Intc) (j : Fin 64) : (s.modIntc f).chan j = s.chan j := rfl
@[simp] theorem chan_modHp (f : Hp → Hp) (j : Fin 64) : (s.modHp f).chan j = s.chan j := rfl
@[simp] theorem chan_modLink (l : Fin 4) (f : Hl → Hl) (j : Fin 64) : (s.modLink l f).chan j = s.chan j := rfl
@[simp] theorem chan_modTsi (f : Tsi → Tsi) (j : Fin 64) : (s.modTsi f).chan j = s.chan j := rfl
@[simp] theorem chan_modSmb (k : Fin 2) (f : Smb → Smb) (j : Fin 64) : (s.modSmb k f).chan j = s.chan j := rfl
@[simp] theorem chan_modPack (f : Pack → Pack) (j : Fin 64) : (s.modPack f).chan j = s.chan j := rfl
@[simp] theorem chan_modMsp (m : Fin 2) (f : Msp → Msp) (j : Fin 64) : (s.modMsp m f).chan j = s.chan j := rfl
@[simp] theorem chan_modFlt (f : Flt → Flt) (j : Fin 64) : (s.modFlt f).chan j = s.chan j := rfl
@[simp] theorem chan_modUpd (f : Upd → Upd) (j : Fin 64) : (s.modUpd f).chan j = s.chan j := rfl
@[simp] theorem chan_modSvc (f : Svc → Svc) (j : Fin 64) : (s.modSvc f).chan j = s.chan j := rfl
@[simp] theorem chan_modPm (f : Perf → Perf) (j : Fin 64) : (s.modPm f).chan j = s.chan j := rfl
@[simp] theorem chan_modRs (f : RecStore → RecStore) (j : Fin 64) : (s.modRs f).chan j = s.chan j := rfl
@[simp] theorem chan_modAdc (a : Fin 2) (f : Adc → Adc) (j : Fin 64) : (s.modAdc a f).chan j = s.chan j := rfl
@[simp] theorem chan_request (r : ReqSrc) (e : EventRegs) (j : Fin 64) : (s.request r e).chan j = s.chan j := rfl
@[simp] theorem chan_dropRequest (r : ReqSrc) (j : Fin 64) : (s.dropRequest r).chan j = s.chan j := rfl
@[simp] theorem chan_answer (w : Word) (j : Fin 64) : (s.answer w).chan j = s.chan j := rfl
@[simp] theorem chan_report (m k i d : Nat) (j : Fin 64) : (s.report m k i d).chan j = s.chan j := rfl
@[simp] theorem chan_modCyc (f : Cycle → Cycle) (j : Fin 64) : (s.modCyc f).chan j = s.chan j := rfl
@[simp] theorem chan_hwSet (ad : Nat) (w : Word) (j : Fin 64) : (s.hwSet ad w).chan j = s.chan j := rfl
@[simp] theorem grove_modGrove (i j : Fin 8) (f : Grove → Grove) :
    (s.modGrove i f).grove j = if i = j then f (s.grove i) else s.grove j := at_vset _ i j f
theorem grove_modGrove_self (i : Fin 8) (f : Grove → Grove) : (s.modGrove i f).grove i = f (s.grove i) := at_vset_self _ i f
@[simp] theorem grove_modChan (n : Fin 64) (f : Chan → Chan) (j : Fin 8) : (s.modChan n f).grove j = s.grove j := rfl
@[simp] theorem grove_modAd (d : Fin 3) (f : AngleDom → AngleDom) (j : Fin 8) : (s.modAd d f).grove j = s.grove j := rfl
@[simp] theorem grove_modPl (k : Fin 2) (f : Checker → Checker) (j : Fin 8) : (s.modPl k f).grove j = s.grove j := rfl
@[simp] theorem grove_modTt (f : Timetable → Timetable) (j : Fin 8) : (s.modTt f).grove j = s.grove j := rfl
@[simp] theorem grove_modMe (f : MicroEngine → MicroEngine) (j : Fin 8) : (s.modMe f).grove j = s.grove j := rfl
@[simp] theorem grove_modEng (e : Fin 8) (f : PinSeq → PinSeq) (j : Fin 8) : (s.modEng e f).grove j = s.grove j := rfl
@[simp] theorem grove_modAfe (f : Afe → Afe) (j : Fin 8) : (s.modAfe f).grove j = s.grove j := rfl
@[simp] theorem grove_modSc (f : Seating → Seating) (j : Fin 8) : (s.modSc f).grove j = s.grove j := rfl
@[simp] theorem grove_modBoot (f : Boot → Boot) (j : Fin 8) : (s.modBoot f).grove j = s.grove j := rfl
@[simp] theorem grove_modPwr (f : Power → Power) (j : Fin 8) : (s.modPwr f).grove j = s.grove j := rfl
@[simp] theorem grove_modCanopy (f : Canopy → Canopy) (j : Fin 8) : (s.modCanopy f).grove j = s.grove j := rfl
@[simp] theorem grove_modTbs (f : Timebase → Timebase) (j : Fin 8) : (s.modTbs f).grove j = s.grove j := rfl
@[simp] theorem grove_modPins (f : Pins → Pins) (j : Fin 8) : (s.modPins f).grove j = s.grove j := rfl
@[simp] theorem grove_modMem (f : Mem → Mem) (j : Fin 8) : (s.modMem f).grove j = s.grove j := rfl
@[simp] theorem grove_modBank (b : Fin 8) (f : Bank → Bank) (j : Fin 8) : (s.modBank b f).grove j = s.grove j := rfl
@[simp] theorem grove_modCw (n : Fin 16) (f : CircWin → CircWin) (j : Fin 8) : (s.modCw n f).grove j = s.grove j := rfl
@[simp] theorem grove_modDma (c : Fin 8) (f : DmaChan → DmaChan) (j : Fin 8) : (s.modDma c f).grove j = s.grove j := rfl
@[simp] theorem grove_modIntc (f : Intc → Intc) (j : Fin 8) : (s.modIntc f).grove j = s.grove j := rfl
@[simp] theorem grove_modHp (f : Hp → Hp) (j : Fin 8) : (s.modHp f).grove j = s.grove j := rfl
@[simp] theorem grove_modLink (l : Fin 4) (f : Hl → Hl) (j : Fin 8) : (s.modLink l f).grove j = s.grove j := rfl
@[simp] theorem grove_modTsi (f : Tsi → Tsi) (j : Fin 8) : (s.modTsi f).grove j = s.grove j := rfl
@[simp] theorem grove_modSmb (k : Fin 2) (f : Smb → Smb) (j : Fin 8) : (s.modSmb k f).grove j = s.grove j := rfl
@[simp] theorem grove_modPack (f : Pack → Pack) (j : Fin 8) : (s.modPack f).grove j = s.grove j := rfl
@[simp] theorem grove_modMsp (m : Fin 2) (f : Msp → Msp) (j : Fin 8) : (s.modMsp m f).grove j = s.grove j := rfl
@[simp] theorem grove_modFlt (f : Flt → Flt) (j : Fin 8) : (s.modFlt f).grove j = s.grove j := rfl
@[simp] theorem grove_modUpd (f : Upd → Upd) (j : Fin 8) : (s.modUpd f).grove j = s.grove j := rfl
@[simp] theorem grove_modSvc (f : Svc → Svc) (j : Fin 8) : (s.modSvc f).grove j = s.grove j := rfl
@[simp] theorem grove_modPm (f : Perf → Perf) (j : Fin 8) : (s.modPm f).grove j = s.grove j := rfl
@[simp] theorem grove_modRs (f : RecStore → RecStore) (j : Fin 8) : (s.modRs f).grove j = s.grove j := rfl
@[simp] theorem grove_modOut (n : Fin 64) (f : Output → Output) (j : Fin 8) : (s.modOut n f).grove j = s.grove j := rfl
@[simp] theorem grove_modCnt (n : Fin 64) (f : Counter → Counter) (j : Fin 8) : (s.modCnt n f).grove j = s.grove j := rfl
@[simp] theorem grove_modAdc (a : Fin 2) (f : Adc → Adc) (j : Fin 8) : (s.modAdc a f).grove j = s.grove j := rfl
@[simp] theorem grove_request (r : ReqSrc) (e : EventRegs) (j : Fin 8) : (s.request r e).grove j = s.grove j := rfl
@[simp] theorem grove_dropRequest (r : ReqSrc) (j : Fin 8) : (s.dropRequest r).grove j = s.grove j := rfl
@[simp] theorem grove_answer (w : Word) (j : Fin 8) : (s.answer w).grove j = s.grove j := rfl
@[simp] theorem grove_report (m k i d : Nat) (j : Fin 8) : (s.report m k i d).grove j = s.grove j := rfl
@[simp] theorem grove_modCyc (f : Cycle → Cycle) (j : Fin 8) : (s.modCyc f).grove j = s.grove j := rfl
@[simp] theorem grove_hwSet (ad : Nat) (w : Word) (j : Fin 8) : (s.hwSet ad w).grove j = s.grove j := rfl
@[simp] theorem ad_modAd (i j : Fin 3) (f : AngleDom → AngleDom) :
    (s.modAd i f).ad j = if i = j then f (s.ad i) else s.ad j := at_vset _ i j f
theorem ad_modAd_self (i : Fin 3) (f : AngleDom → AngleDom) : (s.modAd i f).ad i = f (s.ad i) := at_vset_self _ i f
@[simp] theorem ad_modChan (n : Fin 64) (f : Chan → Chan) (j : Fin 3) : (s.modChan n f).ad j = s.ad j := rfl
@[simp] theorem ad_modGrove (g : Fin 8) (f : Grove → Grove) (j : Fin 3) : (s.modGrove g f).ad j = s.ad j := rfl
@[simp] theorem ad_modPl (k : Fin 2) (f : Checker → Checker) (j : Fin 3) : (s.modPl k f).ad j = s.ad j := rfl
@[simp] theorem ad_modTt (f : Timetable → Timetable) (j : Fin 3) : (s.modTt f).ad j = s.ad j := rfl
@[simp] theorem ad_modMe (f : MicroEngine → MicroEngine) (j : Fin 3) : (s.modMe f).ad j = s.ad j := rfl
@[simp] theorem ad_modEng (e : Fin 8) (f : PinSeq → PinSeq) (j : Fin 3) : (s.modEng e f).ad j = s.ad j := rfl
@[simp] theorem ad_modAfe (f : Afe → Afe) (j : Fin 3) : (s.modAfe f).ad j = s.ad j := rfl
@[simp] theorem ad_modSc (f : Seating → Seating) (j : Fin 3) : (s.modSc f).ad j = s.ad j := rfl
@[simp] theorem ad_modBoot (f : Boot → Boot) (j : Fin 3) : (s.modBoot f).ad j = s.ad j := rfl
@[simp] theorem ad_modPwr (f : Power → Power) (j : Fin 3) : (s.modPwr f).ad j = s.ad j := rfl
@[simp] theorem ad_modCanopy (f : Canopy → Canopy) (j : Fin 3) : (s.modCanopy f).ad j = s.ad j := rfl
@[simp] theorem ad_modTbs (f : Timebase → Timebase) (j : Fin 3) : (s.modTbs f).ad j = s.ad j := rfl
@[simp] theorem ad_modPins (f : Pins → Pins) (j : Fin 3) : (s.modPins f).ad j = s.ad j := rfl
@[simp] theorem ad_modMem (f : Mem → Mem) (j : Fin 3) : (s.modMem f).ad j = s.ad j := rfl
@[simp] theorem ad_modBank (b : Fin 8) (f : Bank → Bank) (j : Fin 3) : (s.modBank b f).ad j = s.ad j := rfl
@[simp] theorem ad_modCw (n : Fin 16) (f : CircWin → CircWin) (j : Fin 3) : (s.modCw n f).ad j = s.ad j := rfl
@[simp] theorem ad_modDma (c : Fin 8) (f : DmaChan → DmaChan) (j : Fin 3) : (s.modDma c f).ad j = s.ad j := rfl
@[simp] theorem ad_modIntc (f : Intc → Intc) (j : Fin 3) : (s.modIntc f).ad j = s.ad j := rfl
@[simp] theorem ad_modHp (f : Hp → Hp) (j : Fin 3) : (s.modHp f).ad j = s.ad j := rfl
@[simp] theorem ad_modLink (l : Fin 4) (f : Hl → Hl) (j : Fin 3) : (s.modLink l f).ad j = s.ad j := rfl
@[simp] theorem ad_modTsi (f : Tsi → Tsi) (j : Fin 3) : (s.modTsi f).ad j = s.ad j := rfl
@[simp] theorem ad_modSmb (k : Fin 2) (f : Smb → Smb) (j : Fin 3) : (s.modSmb k f).ad j = s.ad j := rfl
@[simp] theorem ad_modPack (f : Pack → Pack) (j : Fin 3) : (s.modPack f).ad j = s.ad j := rfl
@[simp] theorem ad_modMsp (m : Fin 2) (f : Msp → Msp) (j : Fin 3) : (s.modMsp m f).ad j = s.ad j := rfl
@[simp] theorem ad_modFlt (f : Flt → Flt) (j : Fin 3) : (s.modFlt f).ad j = s.ad j := rfl
@[simp] theorem ad_modUpd (f : Upd → Upd) (j : Fin 3) : (s.modUpd f).ad j = s.ad j := rfl
@[simp] theorem ad_modSvc (f : Svc → Svc) (j : Fin 3) : (s.modSvc f).ad j = s.ad j := rfl
@[simp] theorem ad_modPm (f : Perf → Perf) (j : Fin 3) : (s.modPm f).ad j = s.ad j := rfl
@[simp] theorem ad_modRs (f : RecStore → RecStore) (j : Fin 3) : (s.modRs f).ad j = s.ad j := rfl
@[simp] theorem ad_modOut (n : Fin 64) (f : Output → Output) (j : Fin 3) : (s.modOut n f).ad j = s.ad j := rfl
@[simp] theorem ad_modCnt (n : Fin 64) (f : Counter → Counter) (j : Fin 3) : (s.modCnt n f).ad j = s.ad j := rfl
@[simp] theorem ad_modAdc (a : Fin 2) (f : Adc → Adc) (j : Fin 3) : (s.modAdc a f).ad j = s.ad j := rfl
@[simp] theorem ad_request (r : ReqSrc) (e : EventRegs) (j : Fin 3) : (s.request r e).ad j = s.ad j := rfl
@[simp] theorem ad_dropRequest (r : ReqSrc) (j : Fin 3) : (s.dropRequest r).ad j = s.ad j := rfl
@[simp] theorem ad_answer (w : Word) (j : Fin 3) : (s.answer w).ad j = s.ad j := rfl
@[simp] theorem ad_report (m k i d : Nat) (j : Fin 3) : (s.report m k i d).ad j = s.ad j := rfl
@[simp] theorem ad_modCyc (f : Cycle → Cycle) (j : Fin 3) : (s.modCyc f).ad j = s.ad j := rfl
@[simp] theorem ad_hwSet (ad : Nat) (w : Word) (j : Fin 3) : (s.hwSet ad w).ad j = s.ad j := rfl
@[simp] theorem pl_modPl (i j : Fin 2) (f : Checker → Checker) :
    (s.modPl i f).pl j = if i = j then f (s.pl i) else s.pl j := at_vset _ i j f
theorem pl_modPl_self (i : Fin 2) (f : Checker → Checker) : (s.modPl i f).pl i = f (s.pl i) := at_vset_self _ i f
@[simp] theorem pl_modChan (n : Fin 64) (f : Chan → Chan) (j : Fin 2) : (s.modChan n f).pl j = s.pl j := rfl
@[simp] theorem pl_modGrove (g : Fin 8) (f : Grove → Grove) (j : Fin 2) : (s.modGrove g f).pl j = s.pl j := rfl
@[simp] theorem pl_modAd (d : Fin 3) (f : AngleDom → AngleDom) (j : Fin 2) : (s.modAd d f).pl j = s.pl j := rfl
@[simp] theorem pl_modTt (f : Timetable → Timetable) (j : Fin 2) : (s.modTt f).pl j = s.pl j := rfl
@[simp] theorem pl_modMe (f : MicroEngine → MicroEngine) (j : Fin 2) : (s.modMe f).pl j = s.pl j := rfl
@[simp] theorem pl_modEng (e : Fin 8) (f : PinSeq → PinSeq) (j : Fin 2) : (s.modEng e f).pl j = s.pl j := rfl
@[simp] theorem pl_modAfe (f : Afe → Afe) (j : Fin 2) : (s.modAfe f).pl j = s.pl j := rfl
@[simp] theorem pl_modSc (f : Seating → Seating) (j : Fin 2) : (s.modSc f).pl j = s.pl j := rfl
@[simp] theorem pl_modBoot (f : Boot → Boot) (j : Fin 2) : (s.modBoot f).pl j = s.pl j := rfl
@[simp] theorem pl_modPwr (f : Power → Power) (j : Fin 2) : (s.modPwr f).pl j = s.pl j := rfl
@[simp] theorem pl_modCanopy (f : Canopy → Canopy) (j : Fin 2) : (s.modCanopy f).pl j = s.pl j := rfl
@[simp] theorem pl_modTbs (f : Timebase → Timebase) (j : Fin 2) : (s.modTbs f).pl j = s.pl j := rfl
@[simp] theorem pl_modPins (f : Pins → Pins) (j : Fin 2) : (s.modPins f).pl j = s.pl j := rfl
@[simp] theorem pl_modMem (f : Mem → Mem) (j : Fin 2) : (s.modMem f).pl j = s.pl j := rfl
@[simp] theorem pl_modBank (b : Fin 8) (f : Bank → Bank) (j : Fin 2) : (s.modBank b f).pl j = s.pl j := rfl
@[simp] theorem pl_modCw (n : Fin 16) (f : CircWin → CircWin) (j : Fin 2) : (s.modCw n f).pl j = s.pl j := rfl
@[simp] theorem pl_modDma (c : Fin 8) (f : DmaChan → DmaChan) (j : Fin 2) : (s.modDma c f).pl j = s.pl j := rfl
@[simp] theorem pl_modIntc (f : Intc → Intc) (j : Fin 2) : (s.modIntc f).pl j = s.pl j := rfl
@[simp] theorem pl_modHp (f : Hp → Hp) (j : Fin 2) : (s.modHp f).pl j = s.pl j := rfl
@[simp] theorem pl_modLink (l : Fin 4) (f : Hl → Hl) (j : Fin 2) : (s.modLink l f).pl j = s.pl j := rfl
@[simp] theorem pl_modTsi (f : Tsi → Tsi) (j : Fin 2) : (s.modTsi f).pl j = s.pl j := rfl
@[simp] theorem pl_modSmb (k : Fin 2) (f : Smb → Smb) (j : Fin 2) : (s.modSmb k f).pl j = s.pl j := rfl
@[simp] theorem pl_modPack (f : Pack → Pack) (j : Fin 2) : (s.modPack f).pl j = s.pl j := rfl
@[simp] theorem pl_modMsp (m : Fin 2) (f : Msp → Msp) (j : Fin 2) : (s.modMsp m f).pl j = s.pl j := rfl
@[simp] theorem pl_modFlt (f : Flt → Flt) (j : Fin 2) : (s.modFlt f).pl j = s.pl j := rfl
@[simp] theorem pl_modUpd (f : Upd → Upd) (j : Fin 2) : (s.modUpd f).pl j = s.pl j := rfl
@[simp] theorem pl_modSvc (f : Svc → Svc) (j : Fin 2) : (s.modSvc f).pl j = s.pl j := rfl
@[simp] theorem pl_modPm (f : Perf → Perf) (j : Fin 2) : (s.modPm f).pl j = s.pl j := rfl
@[simp] theorem pl_modRs (f : RecStore → RecStore) (j : Fin 2) : (s.modRs f).pl j = s.pl j := rfl
@[simp] theorem pl_modOut (n : Fin 64) (f : Output → Output) (j : Fin 2) : (s.modOut n f).pl j = s.pl j := rfl
@[simp] theorem pl_modCnt (n : Fin 64) (f : Counter → Counter) (j : Fin 2) : (s.modCnt n f).pl j = s.pl j := rfl
@[simp] theorem pl_modAdc (a : Fin 2) (f : Adc → Adc) (j : Fin 2) : (s.modAdc a f).pl j = s.pl j := rfl
@[simp] theorem pl_request (r : ReqSrc) (e : EventRegs) (j : Fin 2) : (s.request r e).pl j = s.pl j := rfl
@[simp] theorem pl_dropRequest (r : ReqSrc) (j : Fin 2) : (s.dropRequest r).pl j = s.pl j := rfl
@[simp] theorem pl_answer (w : Word) (j : Fin 2) : (s.answer w).pl j = s.pl j := rfl
@[simp] theorem pl_report (m k i d : Nat) (j : Fin 2) : (s.report m k i d).pl j = s.pl j := rfl
@[simp] theorem pl_modCyc (f : Cycle → Cycle) (j : Fin 2) : (s.modCyc f).pl j = s.pl j := rfl
@[simp] theorem pl_hwSet (ad : Nat) (w : Word) (j : Fin 2) : (s.hwSet ad w).pl j = s.pl j := rfl
@[simp] theorem eng_modEng (i j : Fin 8) (f : PinSeq → PinSeq) :
    (s.modEng i f).eng j = if i = j then f (s.eng i) else s.eng j := at_vset _ i j f
theorem eng_modEng_self (i : Fin 8) (f : PinSeq → PinSeq) : (s.modEng i f).eng i = f (s.eng i) := at_vset_self _ i f
@[simp] theorem eng_modChan (n : Fin 64) (f : Chan → Chan) (j : Fin 8) : (s.modChan n f).eng j = s.eng j := rfl
@[simp] theorem eng_modGrove (g : Fin 8) (f : Grove → Grove) (j : Fin 8) : (s.modGrove g f).eng j = s.eng j := rfl
@[simp] theorem eng_modAd (d : Fin 3) (f : AngleDom → AngleDom) (j : Fin 8) : (s.modAd d f).eng j = s.eng j := rfl
@[simp] theorem eng_modPl (k : Fin 2) (f : Checker → Checker) (j : Fin 8) : (s.modPl k f).eng j = s.eng j := rfl
@[simp] theorem eng_modTt (f : Timetable → Timetable) (j : Fin 8) : (s.modTt f).eng j = s.eng j := rfl
@[simp] theorem eng_modMe (f : MicroEngine → MicroEngine) (j : Fin 8) : (s.modMe f).eng j = s.eng j := rfl
@[simp] theorem eng_modAfe (f : Afe → Afe) (j : Fin 8) : (s.modAfe f).eng j = s.eng j := rfl
@[simp] theorem eng_modSc (f : Seating → Seating) (j : Fin 8) : (s.modSc f).eng j = s.eng j := rfl
@[simp] theorem eng_modBoot (f : Boot → Boot) (j : Fin 8) : (s.modBoot f).eng j = s.eng j := rfl
@[simp] theorem eng_modPwr (f : Power → Power) (j : Fin 8) : (s.modPwr f).eng j = s.eng j := rfl
@[simp] theorem eng_modCanopy (f : Canopy → Canopy) (j : Fin 8) : (s.modCanopy f).eng j = s.eng j := rfl
@[simp] theorem eng_modTbs (f : Timebase → Timebase) (j : Fin 8) : (s.modTbs f).eng j = s.eng j := rfl
@[simp] theorem eng_modPins (f : Pins → Pins) (j : Fin 8) : (s.modPins f).eng j = s.eng j := rfl
@[simp] theorem eng_modMem (f : Mem → Mem) (j : Fin 8) : (s.modMem f).eng j = s.eng j := rfl
@[simp] theorem eng_modBank (b : Fin 8) (f : Bank → Bank) (j : Fin 8) : (s.modBank b f).eng j = s.eng j := rfl
@[simp] theorem eng_modCw (n : Fin 16) (f : CircWin → CircWin) (j : Fin 8) : (s.modCw n f).eng j = s.eng j := rfl
@[simp] theorem eng_modDma (c : Fin 8) (f : DmaChan → DmaChan) (j : Fin 8) : (s.modDma c f).eng j = s.eng j := rfl
@[simp] theorem eng_modIntc (f : Intc → Intc) (j : Fin 8) : (s.modIntc f).eng j = s.eng j := rfl
@[simp] theorem eng_modHp (f : Hp → Hp) (j : Fin 8) : (s.modHp f).eng j = s.eng j := rfl
@[simp] theorem eng_modLink (l : Fin 4) (f : Hl → Hl) (j : Fin 8) : (s.modLink l f).eng j = s.eng j := rfl
@[simp] theorem eng_modTsi (f : Tsi → Tsi) (j : Fin 8) : (s.modTsi f).eng j = s.eng j := rfl
@[simp] theorem eng_modSmb (k : Fin 2) (f : Smb → Smb) (j : Fin 8) : (s.modSmb k f).eng j = s.eng j := rfl
@[simp] theorem eng_modPack (f : Pack → Pack) (j : Fin 8) : (s.modPack f).eng j = s.eng j := rfl
@[simp] theorem eng_modMsp (m : Fin 2) (f : Msp → Msp) (j : Fin 8) : (s.modMsp m f).eng j = s.eng j := rfl
@[simp] theorem eng_modFlt (f : Flt → Flt) (j : Fin 8) : (s.modFlt f).eng j = s.eng j := rfl
@[simp] theorem eng_modUpd (f : Upd → Upd) (j : Fin 8) : (s.modUpd f).eng j = s.eng j := rfl
@[simp] theorem eng_modSvc (f : Svc → Svc) (j : Fin 8) : (s.modSvc f).eng j = s.eng j := rfl
@[simp] theorem eng_modPm (f : Perf → Perf) (j : Fin 8) : (s.modPm f).eng j = s.eng j := rfl
@[simp] theorem eng_modRs (f : RecStore → RecStore) (j : Fin 8) : (s.modRs f).eng j = s.eng j := rfl
@[simp] theorem eng_modOut (n : Fin 64) (f : Output → Output) (j : Fin 8) : (s.modOut n f).eng j = s.eng j := rfl
@[simp] theorem eng_modCnt (n : Fin 64) (f : Counter → Counter) (j : Fin 8) : (s.modCnt n f).eng j = s.eng j := rfl
@[simp] theorem eng_modAdc (a : Fin 2) (f : Adc → Adc) (j : Fin 8) : (s.modAdc a f).eng j = s.eng j := rfl
@[simp] theorem eng_request (r : ReqSrc) (e : EventRegs) (j : Fin 8) : (s.request r e).eng j = s.eng j := rfl
@[simp] theorem eng_dropRequest (r : ReqSrc) (j : Fin 8) : (s.dropRequest r).eng j = s.eng j := rfl
@[simp] theorem eng_answer (w : Word) (j : Fin 8) : (s.answer w).eng j = s.eng j := rfl
@[simp] theorem eng_report (m k i d : Nat) (j : Fin 8) : (s.report m k i d).eng j = s.eng j := rfl
@[simp] theorem eng_modCyc (f : Cycle → Cycle) (j : Fin 8) : (s.modCyc f).eng j = s.eng j := rfl
@[simp] theorem eng_hwSet (ad : Nat) (w : Word) (j : Fin 8) : (s.hwSet ad w).eng j = s.eng j := rfl
@[simp] theorem bank_modBank (i j : Fin 8) (f : Bank → Bank) :
    (s.modBank i f).bank j = if i = j then f (s.bank i) else s.bank j := at_vset _ i j f
theorem bank_modBank_self (i : Fin 8) (f : Bank → Bank) : (s.modBank i f).bank i = f (s.bank i) := at_vset_self _ i f
@[simp] theorem bank_modChan (n : Fin 64) (f : Chan → Chan) (j : Fin 8) : (s.modChan n f).bank j = s.bank j := rfl
@[simp] theorem bank_modGrove (g : Fin 8) (f : Grove → Grove) (j : Fin 8) : (s.modGrove g f).bank j = s.bank j := rfl
@[simp] theorem bank_modAd (d : Fin 3) (f : AngleDom → AngleDom) (j : Fin 8) : (s.modAd d f).bank j = s.bank j := rfl
@[simp] theorem bank_modPl (k : Fin 2) (f : Checker → Checker) (j : Fin 8) : (s.modPl k f).bank j = s.bank j := rfl
@[simp] theorem bank_modTt (f : Timetable → Timetable) (j : Fin 8) : (s.modTt f).bank j = s.bank j := rfl
@[simp] theorem bank_modMe (f : MicroEngine → MicroEngine) (j : Fin 8) : (s.modMe f).bank j = s.bank j := rfl
@[simp] theorem bank_modEng (e : Fin 8) (f : PinSeq → PinSeq) (j : Fin 8) : (s.modEng e f).bank j = s.bank j := rfl
@[simp] theorem bank_modAfe (f : Afe → Afe) (j : Fin 8) : (s.modAfe f).bank j = s.bank j := rfl
@[simp] theorem bank_modSc (f : Seating → Seating) (j : Fin 8) : (s.modSc f).bank j = s.bank j := rfl
@[simp] theorem bank_modBoot (f : Boot → Boot) (j : Fin 8) : (s.modBoot f).bank j = s.bank j := rfl
@[simp] theorem bank_modPwr (f : Power → Power) (j : Fin 8) : (s.modPwr f).bank j = s.bank j := rfl
@[simp] theorem bank_modCanopy (f : Canopy → Canopy) (j : Fin 8) : (s.modCanopy f).bank j = s.bank j := rfl
@[simp] theorem bank_modTbs (f : Timebase → Timebase) (j : Fin 8) : (s.modTbs f).bank j = s.bank j := rfl
@[simp] theorem bank_modPins (f : Pins → Pins) (j : Fin 8) : (s.modPins f).bank j = s.bank j := rfl
@[simp] theorem bank_modCw (n : Fin 16) (f : CircWin → CircWin) (j : Fin 8) : (s.modCw n f).bank j = s.bank j := rfl
@[simp] theorem bank_modDma (c : Fin 8) (f : DmaChan → DmaChan) (j : Fin 8) : (s.modDma c f).bank j = s.bank j := rfl
@[simp] theorem bank_modIntc (f : Intc → Intc) (j : Fin 8) : (s.modIntc f).bank j = s.bank j := rfl
@[simp] theorem bank_modHp (f : Hp → Hp) (j : Fin 8) : (s.modHp f).bank j = s.bank j := rfl
@[simp] theorem bank_modLink (l : Fin 4) (f : Hl → Hl) (j : Fin 8) : (s.modLink l f).bank j = s.bank j := rfl
@[simp] theorem bank_modTsi (f : Tsi → Tsi) (j : Fin 8) : (s.modTsi f).bank j = s.bank j := rfl
@[simp] theorem bank_modSmb (k : Fin 2) (f : Smb → Smb) (j : Fin 8) : (s.modSmb k f).bank j = s.bank j := rfl
@[simp] theorem bank_modPack (f : Pack → Pack) (j : Fin 8) : (s.modPack f).bank j = s.bank j := rfl
@[simp] theorem bank_modMsp (m : Fin 2) (f : Msp → Msp) (j : Fin 8) : (s.modMsp m f).bank j = s.bank j := rfl
@[simp] theorem bank_modFlt (f : Flt → Flt) (j : Fin 8) : (s.modFlt f).bank j = s.bank j := rfl
@[simp] theorem bank_modUpd (f : Upd → Upd) (j : Fin 8) : (s.modUpd f).bank j = s.bank j := rfl
@[simp] theorem bank_modSvc (f : Svc → Svc) (j : Fin 8) : (s.modSvc f).bank j = s.bank j := rfl
@[simp] theorem bank_modPm (f : Perf → Perf) (j : Fin 8) : (s.modPm f).bank j = s.bank j := rfl
@[simp] theorem bank_modRs (f : RecStore → RecStore) (j : Fin 8) : (s.modRs f).bank j = s.bank j := rfl
@[simp] theorem bank_modOut (n : Fin 64) (f : Output → Output) (j : Fin 8) : (s.modOut n f).bank j = s.bank j := rfl
@[simp] theorem bank_modCnt (n : Fin 64) (f : Counter → Counter) (j : Fin 8) : (s.modCnt n f).bank j = s.bank j := rfl
@[simp] theorem bank_modAdc (a : Fin 2) (f : Adc → Adc) (j : Fin 8) : (s.modAdc a f).bank j = s.bank j := rfl
@[simp] theorem bank_request (r : ReqSrc) (e : EventRegs) (j : Fin 8) : (s.request r e).bank j = s.bank j := rfl
@[simp] theorem bank_dropRequest (r : ReqSrc) (j : Fin 8) : (s.dropRequest r).bank j = s.bank j := rfl
@[simp] theorem bank_answer (w : Word) (j : Fin 8) : (s.answer w).bank j = s.bank j := rfl
@[simp] theorem bank_report (m k i d : Nat) (j : Fin 8) : (s.report m k i d).bank j = s.bank j := rfl
@[simp] theorem bank_modCyc (f : Cycle → Cycle) (j : Fin 8) : (s.modCyc f).bank j = s.bank j := rfl
@[simp] theorem bank_hwSet (ad : Nat) (w : Word) (j : Fin 8) : (s.hwSet ad w).bank j = s.bank j := rfl
@[simp] theorem cwin_modCw (i j : Fin 16) (f : CircWin → CircWin) :
    (s.modCw i f).cwin j = if i = j then f (s.cwin i) else s.cwin j := at_vset _ i j f
theorem cwin_modCw_self (i : Fin 16) (f : CircWin → CircWin) : (s.modCw i f).cwin i = f (s.cwin i) := at_vset_self _ i f
@[simp] theorem cwin_modChan (n : Fin 64) (f : Chan → Chan) (j : Fin 16) : (s.modChan n f).cwin j = s.cwin j := rfl
@[simp] theorem cwin_modGrove (g : Fin 8) (f : Grove → Grove) (j : Fin 16) : (s.modGrove g f).cwin j = s.cwin j := rfl
@[simp] theorem cwin_modAd (d : Fin 3) (f : AngleDom → AngleDom) (j : Fin 16) : (s.modAd d f).cwin j = s.cwin j := rfl
@[simp] theorem cwin_modPl (k : Fin 2) (f : Checker → Checker) (j : Fin 16) : (s.modPl k f).cwin j = s.cwin j := rfl
@[simp] theorem cwin_modTt (f : Timetable → Timetable) (j : Fin 16) : (s.modTt f).cwin j = s.cwin j := rfl
@[simp] theorem cwin_modMe (f : MicroEngine → MicroEngine) (j : Fin 16) : (s.modMe f).cwin j = s.cwin j := rfl
@[simp] theorem cwin_modEng (e : Fin 8) (f : PinSeq → PinSeq) (j : Fin 16) : (s.modEng e f).cwin j = s.cwin j := rfl
@[simp] theorem cwin_modAfe (f : Afe → Afe) (j : Fin 16) : (s.modAfe f).cwin j = s.cwin j := rfl
@[simp] theorem cwin_modSc (f : Seating → Seating) (j : Fin 16) : (s.modSc f).cwin j = s.cwin j := rfl
@[simp] theorem cwin_modBoot (f : Boot → Boot) (j : Fin 16) : (s.modBoot f).cwin j = s.cwin j := rfl
@[simp] theorem cwin_modPwr (f : Power → Power) (j : Fin 16) : (s.modPwr f).cwin j = s.cwin j := rfl
@[simp] theorem cwin_modCanopy (f : Canopy → Canopy) (j : Fin 16) : (s.modCanopy f).cwin j = s.cwin j := rfl
@[simp] theorem cwin_modTbs (f : Timebase → Timebase) (j : Fin 16) : (s.modTbs f).cwin j = s.cwin j := rfl
@[simp] theorem cwin_modPins (f : Pins → Pins) (j : Fin 16) : (s.modPins f).cwin j = s.cwin j := rfl
@[simp] theorem cwin_modMem (f : Mem → Mem) (j : Fin 16) : (s.modMem f).cwin j = s.cwin j := rfl
@[simp] theorem cwin_modBank (b : Fin 8) (f : Bank → Bank) (j : Fin 16) : (s.modBank b f).cwin j = s.cwin j := rfl
@[simp] theorem cwin_modDma (c : Fin 8) (f : DmaChan → DmaChan) (j : Fin 16) : (s.modDma c f).cwin j = s.cwin j := rfl
@[simp] theorem cwin_modIntc (f : Intc → Intc) (j : Fin 16) : (s.modIntc f).cwin j = s.cwin j := rfl
@[simp] theorem cwin_modHp (f : Hp → Hp) (j : Fin 16) : (s.modHp f).cwin j = s.cwin j := rfl
@[simp] theorem cwin_modLink (l : Fin 4) (f : Hl → Hl) (j : Fin 16) : (s.modLink l f).cwin j = s.cwin j := rfl
@[simp] theorem cwin_modTsi (f : Tsi → Tsi) (j : Fin 16) : (s.modTsi f).cwin j = s.cwin j := rfl
@[simp] theorem cwin_modSmb (k : Fin 2) (f : Smb → Smb) (j : Fin 16) : (s.modSmb k f).cwin j = s.cwin j := rfl
@[simp] theorem cwin_modPack (f : Pack → Pack) (j : Fin 16) : (s.modPack f).cwin j = s.cwin j := rfl
@[simp] theorem cwin_modMsp (m : Fin 2) (f : Msp → Msp) (j : Fin 16) : (s.modMsp m f).cwin j = s.cwin j := rfl
@[simp] theorem cwin_modFlt (f : Flt → Flt) (j : Fin 16) : (s.modFlt f).cwin j = s.cwin j := rfl
@[simp] theorem cwin_modUpd (f : Upd → Upd) (j : Fin 16) : (s.modUpd f).cwin j = s.cwin j := rfl
@[simp] theorem cwin_modSvc (f : Svc → Svc) (j : Fin 16) : (s.modSvc f).cwin j = s.cwin j := rfl
@[simp] theorem cwin_modPm (f : Perf → Perf) (j : Fin 16) : (s.modPm f).cwin j = s.cwin j := rfl
@[simp] theorem cwin_modRs (f : RecStore → RecStore) (j : Fin 16) : (s.modRs f).cwin j = s.cwin j := rfl
@[simp] theorem cwin_modOut (n : Fin 64) (f : Output → Output) (j : Fin 16) : (s.modOut n f).cwin j = s.cwin j := rfl
@[simp] theorem cwin_modCnt (n : Fin 64) (f : Counter → Counter) (j : Fin 16) : (s.modCnt n f).cwin j = s.cwin j := rfl
@[simp] theorem cwin_modAdc (a : Fin 2) (f : Adc → Adc) (j : Fin 16) : (s.modAdc a f).cwin j = s.cwin j := rfl
@[simp] theorem cwin_request (r : ReqSrc) (e : EventRegs) (j : Fin 16) : (s.request r e).cwin j = s.cwin j := rfl
@[simp] theorem cwin_dropRequest (r : ReqSrc) (j : Fin 16) : (s.dropRequest r).cwin j = s.cwin j := rfl
@[simp] theorem cwin_answer (w : Word) (j : Fin 16) : (s.answer w).cwin j = s.cwin j := rfl
@[simp] theorem cwin_report (m k i d : Nat) (j : Fin 16) : (s.report m k i d).cwin j = s.cwin j := rfl
@[simp] theorem cwin_modCyc (f : Cycle → Cycle) (j : Fin 16) : (s.modCyc f).cwin j = s.cwin j := rfl
@[simp] theorem cwin_hwSet (ad : Nat) (w : Word) (j : Fin 16) : (s.hwSet ad w).cwin j = s.cwin j := rfl
@[simp] theorem dmac_modDma (i j : Fin 8) (f : DmaChan → DmaChan) :
    (s.modDma i f).dmac j = if i = j then f (s.dmac i) else s.dmac j := at_vset _ i j f
theorem dmac_modDma_self (i : Fin 8) (f : DmaChan → DmaChan) : (s.modDma i f).dmac i = f (s.dmac i) := at_vset_self _ i f
@[simp] theorem dmac_modChan (n : Fin 64) (f : Chan → Chan) (j : Fin 8) : (s.modChan n f).dmac j = s.dmac j := rfl
@[simp] theorem dmac_modGrove (g : Fin 8) (f : Grove → Grove) (j : Fin 8) : (s.modGrove g f).dmac j = s.dmac j := rfl
@[simp] theorem dmac_modAd (d : Fin 3) (f : AngleDom → AngleDom) (j : Fin 8) : (s.modAd d f).dmac j = s.dmac j := rfl
@[simp] theorem dmac_modPl (k : Fin 2) (f : Checker → Checker) (j : Fin 8) : (s.modPl k f).dmac j = s.dmac j := rfl
@[simp] theorem dmac_modTt (f : Timetable → Timetable) (j : Fin 8) : (s.modTt f).dmac j = s.dmac j := rfl
@[simp] theorem dmac_modMe (f : MicroEngine → MicroEngine) (j : Fin 8) : (s.modMe f).dmac j = s.dmac j := rfl
@[simp] theorem dmac_modEng (e : Fin 8) (f : PinSeq → PinSeq) (j : Fin 8) : (s.modEng e f).dmac j = s.dmac j := rfl
@[simp] theorem dmac_modAfe (f : Afe → Afe) (j : Fin 8) : (s.modAfe f).dmac j = s.dmac j := rfl
@[simp] theorem dmac_modSc (f : Seating → Seating) (j : Fin 8) : (s.modSc f).dmac j = s.dmac j := rfl
@[simp] theorem dmac_modBoot (f : Boot → Boot) (j : Fin 8) : (s.modBoot f).dmac j = s.dmac j := rfl
@[simp] theorem dmac_modPwr (f : Power → Power) (j : Fin 8) : (s.modPwr f).dmac j = s.dmac j := rfl
@[simp] theorem dmac_modCanopy (f : Canopy → Canopy) (j : Fin 8) : (s.modCanopy f).dmac j = s.dmac j := rfl
@[simp] theorem dmac_modTbs (f : Timebase → Timebase) (j : Fin 8) : (s.modTbs f).dmac j = s.dmac j := rfl
@[simp] theorem dmac_modPins (f : Pins → Pins) (j : Fin 8) : (s.modPins f).dmac j = s.dmac j := rfl
@[simp] theorem dmac_modMem (f : Mem → Mem) (j : Fin 8) : (s.modMem f).dmac j = s.dmac j := rfl
@[simp] theorem dmac_modBank (b : Fin 8) (f : Bank → Bank) (j : Fin 8) : (s.modBank b f).dmac j = s.dmac j := rfl
@[simp] theorem dmac_modCw (n : Fin 16) (f : CircWin → CircWin) (j : Fin 8) : (s.modCw n f).dmac j = s.dmac j := rfl
@[simp] theorem dmac_modIntc (f : Intc → Intc) (j : Fin 8) : (s.modIntc f).dmac j = s.dmac j := rfl
@[simp] theorem dmac_modHp (f : Hp → Hp) (j : Fin 8) : (s.modHp f).dmac j = s.dmac j := rfl
@[simp] theorem dmac_modLink (l : Fin 4) (f : Hl → Hl) (j : Fin 8) : (s.modLink l f).dmac j = s.dmac j := rfl
@[simp] theorem dmac_modTsi (f : Tsi → Tsi) (j : Fin 8) : (s.modTsi f).dmac j = s.dmac j := rfl
@[simp] theorem dmac_modSmb (k : Fin 2) (f : Smb → Smb) (j : Fin 8) : (s.modSmb k f).dmac j = s.dmac j := rfl
@[simp] theorem dmac_modPack (f : Pack → Pack) (j : Fin 8) : (s.modPack f).dmac j = s.dmac j := rfl
@[simp] theorem dmac_modMsp (m : Fin 2) (f : Msp → Msp) (j : Fin 8) : (s.modMsp m f).dmac j = s.dmac j := rfl
@[simp] theorem dmac_modFlt (f : Flt → Flt) (j : Fin 8) : (s.modFlt f).dmac j = s.dmac j := rfl
@[simp] theorem dmac_modUpd (f : Upd → Upd) (j : Fin 8) : (s.modUpd f).dmac j = s.dmac j := rfl
@[simp] theorem dmac_modSvc (f : Svc → Svc) (j : Fin 8) : (s.modSvc f).dmac j = s.dmac j := rfl
@[simp] theorem dmac_modPm (f : Perf → Perf) (j : Fin 8) : (s.modPm f).dmac j = s.dmac j := rfl
@[simp] theorem dmac_modRs (f : RecStore → RecStore) (j : Fin 8) : (s.modRs f).dmac j = s.dmac j := rfl
@[simp] theorem dmac_modOut (n : Fin 64) (f : Output → Output) (j : Fin 8) : (s.modOut n f).dmac j = s.dmac j := rfl
@[simp] theorem dmac_modCnt (n : Fin 64) (f : Counter → Counter) (j : Fin 8) : (s.modCnt n f).dmac j = s.dmac j := rfl
@[simp] theorem dmac_modAdc (a : Fin 2) (f : Adc → Adc) (j : Fin 8) : (s.modAdc a f).dmac j = s.dmac j := rfl
@[simp] theorem dmac_request (r : ReqSrc) (e : EventRegs) (j : Fin 8) : (s.request r e).dmac j = s.dmac j := rfl
@[simp] theorem dmac_dropRequest (r : ReqSrc) (j : Fin 8) : (s.dropRequest r).dmac j = s.dmac j := rfl
@[simp] theorem dmac_answer (w : Word) (j : Fin 8) : (s.answer w).dmac j = s.dmac j := rfl
@[simp] theorem dmac_report (m k i d : Nat) (j : Fin 8) : (s.report m k i d).dmac j = s.dmac j := rfl
@[simp] theorem dmac_modCyc (f : Cycle → Cycle) (j : Fin 8) : (s.modCyc f).dmac j = s.dmac j := rfl
@[simp] theorem dmac_hwSet (ad : Nat) (w : Word) (j : Fin 8) : (s.hwSet ad w).dmac j = s.dmac j := rfl
@[simp] theorem link_modLink (i j : Fin 4) (f : Hl → Hl) :
    (s.modLink i f).link j = if i = j then f (s.link i) else s.link j := at_vset _ i j f
theorem link_modLink_self (i : Fin 4) (f : Hl → Hl) : (s.modLink i f).link i = f (s.link i) := at_vset_self _ i f
@[simp] theorem link_modChan (n : Fin 64) (f : Chan → Chan) (j : Fin 4) : (s.modChan n f).link j = s.link j := rfl
@[simp] theorem link_modGrove (g : Fin 8) (f : Grove → Grove) (j : Fin 4) : (s.modGrove g f).link j = s.link j := rfl
@[simp] theorem link_modAd (d : Fin 3) (f : AngleDom → AngleDom) (j : Fin 4) : (s.modAd d f).link j = s.link j := rfl
@[simp] theorem link_modPl (k : Fin 2) (f : Checker → Checker) (j : Fin 4) : (s.modPl k f).link j = s.link j := rfl
@[simp] theorem link_modTt (f : Timetable → Timetable) (j : Fin 4) : (s.modTt f).link j = s.link j := rfl
@[simp] theorem link_modMe (f : MicroEngine → MicroEngine) (j : Fin 4) : (s.modMe f).link j = s.link j := rfl
@[simp] theorem link_modEng (e : Fin 8) (f : PinSeq → PinSeq) (j : Fin 4) : (s.modEng e f).link j = s.link j := rfl
@[simp] theorem link_modAfe (f : Afe → Afe) (j : Fin 4) : (s.modAfe f).link j = s.link j := rfl
@[simp] theorem link_modSc (f : Seating → Seating) (j : Fin 4) : (s.modSc f).link j = s.link j := rfl
@[simp] theorem link_modBoot (f : Boot → Boot) (j : Fin 4) : (s.modBoot f).link j = s.link j := rfl
@[simp] theorem link_modPwr (f : Power → Power) (j : Fin 4) : (s.modPwr f).link j = s.link j := rfl
@[simp] theorem link_modCanopy (f : Canopy → Canopy) (j : Fin 4) : (s.modCanopy f).link j = s.link j := rfl
@[simp] theorem link_modTbs (f : Timebase → Timebase) (j : Fin 4) : (s.modTbs f).link j = s.link j := rfl
@[simp] theorem link_modPins (f : Pins → Pins) (j : Fin 4) : (s.modPins f).link j = s.link j := rfl
@[simp] theorem link_modMem (f : Mem → Mem) (j : Fin 4) : (s.modMem f).link j = s.link j := rfl
@[simp] theorem link_modBank (b : Fin 8) (f : Bank → Bank) (j : Fin 4) : (s.modBank b f).link j = s.link j := rfl
@[simp] theorem link_modCw (n : Fin 16) (f : CircWin → CircWin) (j : Fin 4) : (s.modCw n f).link j = s.link j := rfl
@[simp] theorem link_modDma (c : Fin 8) (f : DmaChan → DmaChan) (j : Fin 4) : (s.modDma c f).link j = s.link j := rfl
@[simp] theorem link_modIntc (f : Intc → Intc) (j : Fin 4) : (s.modIntc f).link j = s.link j := rfl
@[simp] theorem link_modHp (f : Hp → Hp) (j : Fin 4) : (s.modHp f).link j = s.link j := rfl
@[simp] theorem link_modTsi (f : Tsi → Tsi) (j : Fin 4) : (s.modTsi f).link j = s.link j := rfl
@[simp] theorem link_modSmb (k : Fin 2) (f : Smb → Smb) (j : Fin 4) : (s.modSmb k f).link j = s.link j := rfl
@[simp] theorem link_modPack (f : Pack → Pack) (j : Fin 4) : (s.modPack f).link j = s.link j := rfl
@[simp] theorem link_modMsp (m : Fin 2) (f : Msp → Msp) (j : Fin 4) : (s.modMsp m f).link j = s.link j := rfl
@[simp] theorem link_modFlt (f : Flt → Flt) (j : Fin 4) : (s.modFlt f).link j = s.link j := rfl
@[simp] theorem link_modUpd (f : Upd → Upd) (j : Fin 4) : (s.modUpd f).link j = s.link j := rfl
@[simp] theorem link_modSvc (f : Svc → Svc) (j : Fin 4) : (s.modSvc f).link j = s.link j := rfl
@[simp] theorem link_modPm (f : Perf → Perf) (j : Fin 4) : (s.modPm f).link j = s.link j := rfl
@[simp] theorem link_modRs (f : RecStore → RecStore) (j : Fin 4) : (s.modRs f).link j = s.link j := rfl
@[simp] theorem link_modOut (n : Fin 64) (f : Output → Output) (j : Fin 4) : (s.modOut n f).link j = s.link j := rfl
@[simp] theorem link_modCnt (n : Fin 64) (f : Counter → Counter) (j : Fin 4) : (s.modCnt n f).link j = s.link j := rfl
@[simp] theorem link_modAdc (a : Fin 2) (f : Adc → Adc) (j : Fin 4) : (s.modAdc a f).link j = s.link j := rfl
@[simp] theorem link_request (r : ReqSrc) (e : EventRegs) (j : Fin 4) : (s.request r e).link j = s.link j := rfl
@[simp] theorem link_dropRequest (r : ReqSrc) (j : Fin 4) : (s.dropRequest r).link j = s.link j := rfl
@[simp] theorem link_answer (w : Word) (j : Fin 4) : (s.answer w).link j = s.link j := rfl
@[simp] theorem link_report (m k i d : Nat) (j : Fin 4) : (s.report m k i d).link j = s.link j := rfl
@[simp] theorem link_modCyc (f : Cycle → Cycle) (j : Fin 4) : (s.modCyc f).link j = s.link j := rfl
@[simp] theorem link_hwSet (ad : Nat) (w : Word) (j : Fin 4) : (s.hwSet ad w).link j = s.link j := rfl
@[simp] theorem smbc_modSmb (i j : Fin 2) (f : Smb → Smb) :
    (s.modSmb i f).smbc j = if i = j then f (s.smbc i) else s.smbc j := at_vset _ i j f
theorem smbc_modSmb_self (i : Fin 2) (f : Smb → Smb) : (s.modSmb i f).smbc i = f (s.smbc i) := at_vset_self _ i f
@[simp] theorem smbc_modChan (n : Fin 64) (f : Chan → Chan) (j : Fin 2) : (s.modChan n f).smbc j = s.smbc j := rfl
@[simp] theorem smbc_modGrove (g : Fin 8) (f : Grove → Grove) (j : Fin 2) : (s.modGrove g f).smbc j = s.smbc j := rfl
@[simp] theorem smbc_modAd (d : Fin 3) (f : AngleDom → AngleDom) (j : Fin 2) : (s.modAd d f).smbc j = s.smbc j := rfl
@[simp] theorem smbc_modPl (k : Fin 2) (f : Checker → Checker) (j : Fin 2) : (s.modPl k f).smbc j = s.smbc j := rfl
@[simp] theorem smbc_modTt (f : Timetable → Timetable) (j : Fin 2) : (s.modTt f).smbc j = s.smbc j := rfl
@[simp] theorem smbc_modMe (f : MicroEngine → MicroEngine) (j : Fin 2) : (s.modMe f).smbc j = s.smbc j := rfl
@[simp] theorem smbc_modEng (e : Fin 8) (f : PinSeq → PinSeq) (j : Fin 2) : (s.modEng e f).smbc j = s.smbc j := rfl
@[simp] theorem smbc_modAfe (f : Afe → Afe) (j : Fin 2) : (s.modAfe f).smbc j = s.smbc j := rfl
@[simp] theorem smbc_modSc (f : Seating → Seating) (j : Fin 2) : (s.modSc f).smbc j = s.smbc j := rfl
@[simp] theorem smbc_modBoot (f : Boot → Boot) (j : Fin 2) : (s.modBoot f).smbc j = s.smbc j := rfl
@[simp] theorem smbc_modPwr (f : Power → Power) (j : Fin 2) : (s.modPwr f).smbc j = s.smbc j := rfl
@[simp] theorem smbc_modCanopy (f : Canopy → Canopy) (j : Fin 2) : (s.modCanopy f).smbc j = s.smbc j := rfl
@[simp] theorem smbc_modTbs (f : Timebase → Timebase) (j : Fin 2) : (s.modTbs f).smbc j = s.smbc j := rfl
@[simp] theorem smbc_modPins (f : Pins → Pins) (j : Fin 2) : (s.modPins f).smbc j = s.smbc j := rfl
@[simp] theorem smbc_modMem (f : Mem → Mem) (j : Fin 2) : (s.modMem f).smbc j = s.smbc j := rfl
@[simp] theorem smbc_modBank (b : Fin 8) (f : Bank → Bank) (j : Fin 2) : (s.modBank b f).smbc j = s.smbc j := rfl
@[simp] theorem smbc_modCw (n : Fin 16) (f : CircWin → CircWin) (j : Fin 2) : (s.modCw n f).smbc j = s.smbc j := rfl
@[simp] theorem smbc_modDma (c : Fin 8) (f : DmaChan → DmaChan) (j : Fin 2) : (s.modDma c f).smbc j = s.smbc j := rfl
@[simp] theorem smbc_modIntc (f : Intc → Intc) (j : Fin 2) : (s.modIntc f).smbc j = s.smbc j := rfl
@[simp] theorem smbc_modHp (f : Hp → Hp) (j : Fin 2) : (s.modHp f).smbc j = s.smbc j := rfl
@[simp] theorem smbc_modLink (l : Fin 4) (f : Hl → Hl) (j : Fin 2) : (s.modLink l f).smbc j = s.smbc j := rfl
@[simp] theorem smbc_modTsi (f : Tsi → Tsi) (j : Fin 2) : (s.modTsi f).smbc j = s.smbc j := rfl
@[simp] theorem smbc_modPack (f : Pack → Pack) (j : Fin 2) : (s.modPack f).smbc j = s.smbc j := rfl
@[simp] theorem smbc_modMsp (m : Fin 2) (f : Msp → Msp) (j : Fin 2) : (s.modMsp m f).smbc j = s.smbc j := rfl
@[simp] theorem smbc_modFlt (f : Flt → Flt) (j : Fin 2) : (s.modFlt f).smbc j = s.smbc j := rfl
@[simp] theorem smbc_modUpd (f : Upd → Upd) (j : Fin 2) : (s.modUpd f).smbc j = s.smbc j := rfl
@[simp] theorem smbc_modSvc (f : Svc → Svc) (j : Fin 2) : (s.modSvc f).smbc j = s.smbc j := rfl
@[simp] theorem smbc_modPm (f : Perf → Perf) (j : Fin 2) : (s.modPm f).smbc j = s.smbc j := rfl
@[simp] theorem smbc_modRs (f : RecStore → RecStore) (j : Fin 2) : (s.modRs f).smbc j = s.smbc j := rfl
@[simp] theorem smbc_modOut (n : Fin 64) (f : Output → Output) (j : Fin 2) : (s.modOut n f).smbc j = s.smbc j := rfl
@[simp] theorem smbc_modCnt (n : Fin 64) (f : Counter → Counter) (j : Fin 2) : (s.modCnt n f).smbc j = s.smbc j := rfl
@[simp] theorem smbc_modAdc (a : Fin 2) (f : Adc → Adc) (j : Fin 2) : (s.modAdc a f).smbc j = s.smbc j := rfl
@[simp] theorem smbc_request (r : ReqSrc) (e : EventRegs) (j : Fin 2) : (s.request r e).smbc j = s.smbc j := rfl
@[simp] theorem smbc_dropRequest (r : ReqSrc) (j : Fin 2) : (s.dropRequest r).smbc j = s.smbc j := rfl
@[simp] theorem smbc_answer (w : Word) (j : Fin 2) : (s.answer w).smbc j = s.smbc j := rfl
@[simp] theorem smbc_report (m k i d : Nat) (j : Fin 2) : (s.report m k i d).smbc j = s.smbc j := rfl
@[simp] theorem smbc_modCyc (f : Cycle → Cycle) (j : Fin 2) : (s.modCyc f).smbc j = s.smbc j := rfl
@[simp] theorem smbc_hwSet (ad : Nat) (w : Word) (j : Fin 2) : (s.hwSet ad w).smbc j = s.smbc j := rfl
@[simp] theorem mspm_modMsp (i j : Fin 2) (f : Msp → Msp) :
    (s.modMsp i f).mspm j = if i = j then f (s.mspm i) else s.mspm j := at_vset _ i j f
theorem mspm_modMsp_self (i : Fin 2) (f : Msp → Msp) : (s.modMsp i f).mspm i = f (s.mspm i) := at_vset_self _ i f
@[simp] theorem mspm_modChan (n : Fin 64) (f : Chan → Chan) (j : Fin 2) : (s.modChan n f).mspm j = s.mspm j := rfl
@[simp] theorem mspm_modGrove (g : Fin 8) (f : Grove → Grove) (j : Fin 2) : (s.modGrove g f).mspm j = s.mspm j := rfl
@[simp] theorem mspm_modAd (d : Fin 3) (f : AngleDom → AngleDom) (j : Fin 2) : (s.modAd d f).mspm j = s.mspm j := rfl
@[simp] theorem mspm_modPl (k : Fin 2) (f : Checker → Checker) (j : Fin 2) : (s.modPl k f).mspm j = s.mspm j := rfl
@[simp] theorem mspm_modTt (f : Timetable → Timetable) (j : Fin 2) : (s.modTt f).mspm j = s.mspm j := rfl
@[simp] theorem mspm_modMe (f : MicroEngine → MicroEngine) (j : Fin 2) : (s.modMe f).mspm j = s.mspm j := rfl
@[simp] theorem mspm_modEng (e : Fin 8) (f : PinSeq → PinSeq) (j : Fin 2) : (s.modEng e f).mspm j = s.mspm j := rfl
@[simp] theorem mspm_modAfe (f : Afe → Afe) (j : Fin 2) : (s.modAfe f).mspm j = s.mspm j := rfl
@[simp] theorem mspm_modSc (f : Seating → Seating) (j : Fin 2) : (s.modSc f).mspm j = s.mspm j := rfl
@[simp] theorem mspm_modBoot (f : Boot → Boot) (j : Fin 2) : (s.modBoot f).mspm j = s.mspm j := rfl
@[simp] theorem mspm_modPwr (f : Power → Power) (j : Fin 2) : (s.modPwr f).mspm j = s.mspm j := rfl
@[simp] theorem mspm_modCanopy (f : Canopy → Canopy) (j : Fin 2) : (s.modCanopy f).mspm j = s.mspm j := rfl
@[simp] theorem mspm_modTbs (f : Timebase → Timebase) (j : Fin 2) : (s.modTbs f).mspm j = s.mspm j := rfl
@[simp] theorem mspm_modPins (f : Pins → Pins) (j : Fin 2) : (s.modPins f).mspm j = s.mspm j := rfl
@[simp] theorem mspm_modMem (f : Mem → Mem) (j : Fin 2) : (s.modMem f).mspm j = s.mspm j := rfl
@[simp] theorem mspm_modBank (b : Fin 8) (f : Bank → Bank) (j : Fin 2) : (s.modBank b f).mspm j = s.mspm j := rfl
@[simp] theorem mspm_modCw (n : Fin 16) (f : CircWin → CircWin) (j : Fin 2) : (s.modCw n f).mspm j = s.mspm j := rfl
@[simp] theorem mspm_modDma (c : Fin 8) (f : DmaChan → DmaChan) (j : Fin 2) : (s.modDma c f).mspm j = s.mspm j := rfl
@[simp] theorem mspm_modIntc (f : Intc → Intc) (j : Fin 2) : (s.modIntc f).mspm j = s.mspm j := rfl
@[simp] theorem mspm_modHp (f : Hp → Hp) (j : Fin 2) : (s.modHp f).mspm j = s.mspm j := rfl
@[simp] theorem mspm_modLink (l : Fin 4) (f : Hl → Hl) (j : Fin 2) : (s.modLink l f).mspm j = s.mspm j := rfl
@[simp] theorem mspm_modTsi (f : Tsi → Tsi) (j : Fin 2) : (s.modTsi f).mspm j = s.mspm j := rfl
@[simp] theorem mspm_modSmb (k : Fin 2) (f : Smb → Smb) (j : Fin 2) : (s.modSmb k f).mspm j = s.mspm j := rfl
@[simp] theorem mspm_modPack (f : Pack → Pack) (j : Fin 2) : (s.modPack f).mspm j = s.mspm j := rfl
@[simp] theorem mspm_modFlt (f : Flt → Flt) (j : Fin 2) : (s.modFlt f).mspm j = s.mspm j := rfl
@[simp] theorem mspm_modUpd (f : Upd → Upd) (j : Fin 2) : (s.modUpd f).mspm j = s.mspm j := rfl
@[simp] theorem mspm_modSvc (f : Svc → Svc) (j : Fin 2) : (s.modSvc f).mspm j = s.mspm j := rfl
@[simp] theorem mspm_modPm (f : Perf → Perf) (j : Fin 2) : (s.modPm f).mspm j = s.mspm j := rfl
@[simp] theorem mspm_modRs (f : RecStore → RecStore) (j : Fin 2) : (s.modRs f).mspm j = s.mspm j := rfl
@[simp] theorem mspm_modOut (n : Fin 64) (f : Output → Output) (j : Fin 2) : (s.modOut n f).mspm j = s.mspm j := rfl
@[simp] theorem mspm_modCnt (n : Fin 64) (f : Counter → Counter) (j : Fin 2) : (s.modCnt n f).mspm j = s.mspm j := rfl
@[simp] theorem mspm_modAdc (a : Fin 2) (f : Adc → Adc) (j : Fin 2) : (s.modAdc a f).mspm j = s.mspm j := rfl
@[simp] theorem mspm_request (r : ReqSrc) (e : EventRegs) (j : Fin 2) : (s.request r e).mspm j = s.mspm j := rfl
@[simp] theorem mspm_dropRequest (r : ReqSrc) (j : Fin 2) : (s.dropRequest r).mspm j = s.mspm j := rfl
@[simp] theorem mspm_answer (w : Word) (j : Fin 2) : (s.answer w).mspm j = s.mspm j := rfl
@[simp] theorem mspm_report (m k i d : Nat) (j : Fin 2) : (s.report m k i d).mspm j = s.mspm j := rfl
@[simp] theorem mspm_modCyc (f : Cycle → Cycle) (j : Fin 2) : (s.modCyc f).mspm j = s.mspm j := rfl
@[simp] theorem mspm_hwSet (ad : Nat) (w : Word) (j : Fin 2) : (s.hwSet ad w).mspm j = s.mspm j := rfl
@[simp] theorem adc_modAdc (i j : Fin 2) (f : Adc → Adc) :
    (s.modAdc i f).adc j = if i = j then f (s.adc i) else s.adc j := at_vset _ i j f
theorem adc_modAdc_self (i : Fin 2) (f : Adc → Adc) : (s.modAdc i f).adc i = f (s.adc i) := at_vset_self _ i f
@[simp] theorem adc_modChan (n : Fin 64) (f : Chan → Chan) (j : Fin 2) : (s.modChan n f).adc j = s.adc j := rfl
@[simp] theorem adc_modGrove (g : Fin 8) (f : Grove → Grove) (j : Fin 2) : (s.modGrove g f).adc j = s.adc j := rfl
@[simp] theorem adc_modAd (d : Fin 3) (f : AngleDom → AngleDom) (j : Fin 2) : (s.modAd d f).adc j = s.adc j := rfl
@[simp] theorem adc_modPl (k : Fin 2) (f : Checker → Checker) (j : Fin 2) : (s.modPl k f).adc j = s.adc j := rfl
@[simp] theorem adc_modTt (f : Timetable → Timetable) (j : Fin 2) : (s.modTt f).adc j = s.adc j := rfl
@[simp] theorem adc_modMe (f : MicroEngine → MicroEngine) (j : Fin 2) : (s.modMe f).adc j = s.adc j := rfl
@[simp] theorem adc_modEng (e : Fin 8) (f : PinSeq → PinSeq) (j : Fin 2) : (s.modEng e f).adc j = s.adc j := rfl
@[simp] theorem adc_modSc (f : Seating → Seating) (j : Fin 2) : (s.modSc f).adc j = s.adc j := rfl
@[simp] theorem adc_modBoot (f : Boot → Boot) (j : Fin 2) : (s.modBoot f).adc j = s.adc j := rfl
@[simp] theorem adc_modPwr (f : Power → Power) (j : Fin 2) : (s.modPwr f).adc j = s.adc j := rfl
@[simp] theorem adc_modCanopy (f : Canopy → Canopy) (j : Fin 2) : (s.modCanopy f).adc j = s.adc j := rfl
@[simp] theorem adc_modTbs (f : Timebase → Timebase) (j : Fin 2) : (s.modTbs f).adc j = s.adc j := rfl
@[simp] theorem adc_modPins (f : Pins → Pins) (j : Fin 2) : (s.modPins f).adc j = s.adc j := rfl
@[simp] theorem adc_modMem (f : Mem → Mem) (j : Fin 2) : (s.modMem f).adc j = s.adc j := rfl
@[simp] theorem adc_modBank (b : Fin 8) (f : Bank → Bank) (j : Fin 2) : (s.modBank b f).adc j = s.adc j := rfl
@[simp] theorem adc_modCw (n : Fin 16) (f : CircWin → CircWin) (j : Fin 2) : (s.modCw n f).adc j = s.adc j := rfl
@[simp] theorem adc_modDma (c : Fin 8) (f : DmaChan → DmaChan) (j : Fin 2) : (s.modDma c f).adc j = s.adc j := rfl
@[simp] theorem adc_modIntc (f : Intc → Intc) (j : Fin 2) : (s.modIntc f).adc j = s.adc j := rfl
@[simp] theorem adc_modHp (f : Hp → Hp) (j : Fin 2) : (s.modHp f).adc j = s.adc j := rfl
@[simp] theorem adc_modLink (l : Fin 4) (f : Hl → Hl) (j : Fin 2) : (s.modLink l f).adc j = s.adc j := rfl
@[simp] theorem adc_modTsi (f : Tsi → Tsi) (j : Fin 2) : (s.modTsi f).adc j = s.adc j := rfl
@[simp] theorem adc_modSmb (k : Fin 2) (f : Smb → Smb) (j : Fin 2) : (s.modSmb k f).adc j = s.adc j := rfl
@[simp] theorem adc_modPack (f : Pack → Pack) (j : Fin 2) : (s.modPack f).adc j = s.adc j := rfl
@[simp] theorem adc_modMsp (m : Fin 2) (f : Msp → Msp) (j : Fin 2) : (s.modMsp m f).adc j = s.adc j := rfl
@[simp] theorem adc_modFlt (f : Flt → Flt) (j : Fin 2) : (s.modFlt f).adc j = s.adc j := rfl
@[simp] theorem adc_modUpd (f : Upd → Upd) (j : Fin 2) : (s.modUpd f).adc j = s.adc j := rfl
@[simp] theorem adc_modSvc (f : Svc → Svc) (j : Fin 2) : (s.modSvc f).adc j = s.adc j := rfl
@[simp] theorem adc_modPm (f : Perf → Perf) (j : Fin 2) : (s.modPm f).adc j = s.adc j := rfl
@[simp] theorem adc_modRs (f : RecStore → RecStore) (j : Fin 2) : (s.modRs f).adc j = s.adc j := rfl
@[simp] theorem adc_modOut (n : Fin 64) (f : Output → Output) (j : Fin 2) : (s.modOut n f).adc j = s.adc j := rfl
@[simp] theorem adc_modCnt (n : Fin 64) (f : Counter → Counter) (j : Fin 2) : (s.modCnt n f).adc j = s.adc j := rfl
@[simp] theorem adc_request (r : ReqSrc) (e : EventRegs) (j : Fin 2) : (s.request r e).adc j = s.adc j := rfl
@[simp] theorem adc_dropRequest (r : ReqSrc) (j : Fin 2) : (s.dropRequest r).adc j = s.adc j := rfl
@[simp] theorem adc_answer (w : Word) (j : Fin 2) : (s.answer w).adc j = s.adc j := rfl
@[simp] theorem adc_report (m k i d : Nat) (j : Fin 2) : (s.report m k i d).adc j = s.adc j := rfl
@[simp] theorem adc_modCyc (f : Cycle → Cycle) (j : Fin 2) : (s.modCyc f).adc j = s.adc j := rfl
@[simp] theorem adc_hwSet (ad : Nat) (w : Word) (j : Fin 2) : (s.hwSet ad w).adc j = s.adc j := rfl

@[simp] theorem chan_modOut (i j : Fin 64) (f : Output → Output) :
    (s.modOut i f).chan j = if i = j then { s.chan i with o := f (s.chan i).o } else s.chan j := at_vset _ i j _
@[simp] theorem chan_modCnt (i j : Fin 64) (f : Counter → Counter) :
    (s.modCnt i f).chan j = if i = j then { s.chan i with c := f (s.chan i).c } else s.chan j := at_vset _ i j _
@[simp] theorem tb_modChan (n : Fin 64) (f : Chan → Chan) : (s.modChan n f).tb = s.tb := rfl
@[simp] theorem client_modChan (n : Fin 64) (f : Chan → Chan) (cl : Fin 256) : (s.modChan n f).client cl = s.client cl := rfl
@[simp] theorem tb_modGrove (g : Fin 8) (f : Grove → Grove) : (s.modGrove g f).tb = s.tb := rfl
@[simp] theorem client_modGrove (g : Fin 8) (f : Grove → Grove) (cl : Fin 256) : (s.modGrove g f).client cl = s.client cl := rfl
@[simp] theorem tb_modAd (d : Fin 3) (f : AngleDom → AngleDom) : (s.modAd d f).tb = s.tb := rfl
@[simp] theorem client_modAd (d : Fin 3) (f : AngleDom → AngleDom) (cl : Fin 256) : (s.modAd d f).client cl = s.client cl := rfl
@[simp] theorem tb_modPl (k : Fin 2) (f : Checker → Checker) : (s.modPl k f).tb = s.tb := rfl
@[simp] theorem client_modPl (k : Fin 2) (f : Checker → Checker) (cl : Fin 256) : (s.modPl k f).client cl = s.client cl := rfl
@[simp] theorem tb_modTt (f : Timetable → Timetable) : (s.modTt f).tb = s.tb := rfl
@[simp] theorem client_modTt (f : Timetable → Timetable) (cl : Fin 256) : (s.modTt f).client cl = s.client cl := rfl
@[simp] theorem tb_modMe (f : MicroEngine → MicroEngine) : (s.modMe f).tb = s.tb := rfl
@[simp] theorem client_modMe (f : MicroEngine → MicroEngine) (cl : Fin 256) : (s.modMe f).client cl = s.client cl := rfl
@[simp] theorem tb_modEng (e : Fin 8) (f : PinSeq → PinSeq) : (s.modEng e f).tb = s.tb := rfl
@[simp] theorem client_modEng (e : Fin 8) (f : PinSeq → PinSeq) (cl : Fin 256) : (s.modEng e f).client cl = s.client cl := rfl
@[simp] theorem tb_modAfe (f : Afe → Afe) : (s.modAfe f).tb = s.tb := rfl
@[simp] theorem client_modAfe (f : Afe → Afe) (cl : Fin 256) : (s.modAfe f).client cl = s.client cl := rfl
@[simp] theorem tb_modSc (f : Seating → Seating) : (s.modSc f).tb = s.tb := rfl
@[simp] theorem tb_modBoot (f : Boot → Boot) : (s.modBoot f).tb = s.tb := rfl
@[simp] theorem client_modBoot (f : Boot → Boot) (cl : Fin 256) : (s.modBoot f).client cl = s.client cl := rfl
@[simp] theorem tb_modPwr (f : Power → Power) : (s.modPwr f).tb = s.tb := rfl
@[simp] theorem client_modPwr (f : Power → Power) (cl : Fin 256) : (s.modPwr f).client cl = s.client cl := rfl
@[simp] theorem tb_modCanopy (f : Canopy → Canopy) : (s.modCanopy f).tb = s.tb := rfl
@[simp] theorem client_modCanopy (f : Canopy → Canopy) (cl : Fin 256) : (s.modCanopy f).client cl = s.client cl := rfl
@[simp] theorem client_modTbs (f : Timebase → Timebase) (cl : Fin 256) : (s.modTbs f).client cl = s.client cl := rfl
@[simp] theorem tb_modPins (f : Pins → Pins) : (s.modPins f).tb = s.tb := rfl
@[simp] theorem client_modPins (f : Pins → Pins) (cl : Fin 256) : (s.modPins f).client cl = s.client cl := rfl
@[simp] theorem tb_modMem (f : Mem → Mem) : (s.modMem f).tb = s.tb := rfl
@[simp] theorem client_modMem (f : Mem → Mem) (cl : Fin 256) : (s.modMem f).client cl = s.client cl := rfl
@[simp] theorem tb_modBank (b : Fin 8) (f : Bank → Bank) : (s.modBank b f).tb = s.tb := rfl
@[simp] theorem client_modBank (b : Fin 8) (f : Bank → Bank) (cl : Fin 256) : (s.modBank b f).client cl = s.client cl := rfl
@[simp] theorem tb_modCw (n : Fin 16) (f : CircWin → CircWin) : (s.modCw n f).tb = s.tb := rfl
@[simp] theorem client_modCw (n : Fin 16) (f : CircWin → CircWin) (cl : Fin 256) : (s.modCw n f).client cl = s.client cl := rfl
@[simp] theorem tb_modDma (c : Fin 8) (f : DmaChan → DmaChan) : (s.modDma c f).tb = s.tb := rfl
@[simp] theorem client_modDma (c : Fin 8) (f : DmaChan → DmaChan) (cl : Fin 256) : (s.modDma c f).client cl = s.client cl := rfl
@[simp] theorem tb_modIntc (f : Intc → Intc) : (s.modIntc f).tb = s.tb := rfl
@[simp] theorem client_modIntc (f : Intc → Intc) (cl : Fin 256) : (s.modIntc f).client cl = s.client cl := rfl
@[simp] theorem tb_modHp (f : Hp → Hp) : (s.modHp f).tb = s.tb := rfl
@[simp] theorem client_modHp (f : Hp → Hp) (cl : Fin 256) : (s.modHp f).client cl = s.client cl := rfl
@[simp] theorem tb_modLink (l : Fin 4) (f : Hl → Hl) : (s.modLink l f).tb = s.tb := rfl
@[simp] theorem client_modLink (l : Fin 4) (f : Hl → Hl) (cl : Fin 256) : (s.modLink l f).client cl = s.client cl := rfl
@[simp] theorem tb_modTsi (f : Tsi → Tsi) : (s.modTsi f).tb = s.tb := rfl
@[simp] theorem client_modTsi (f : Tsi → Tsi) (cl : Fin 256) : (s.modTsi f).client cl = s.client cl := rfl
@[simp] theorem tb_modSmb (k : Fin 2) (f : Smb → Smb) : (s.modSmb k f).tb = s.tb := rfl
@[simp] theorem client_modSmb (k : Fin 2) (f : Smb → Smb) (cl : Fin 256) : (s.modSmb k f).client cl = s.client cl := rfl
@[simp] theorem tb_modPack (f : Pack → Pack) : (s.modPack f).tb = s.tb := rfl
@[simp] theorem client_modPack (f : Pack → Pack) (cl : Fin 256) : (s.modPack f).client cl = s.client cl := rfl
@[simp] theorem tb_modMsp (m : Fin 2) (f : Msp → Msp) : (s.modMsp m f).tb = s.tb := rfl
@[simp] theorem client_modMsp (m : Fin 2) (f : Msp → Msp) (cl : Fin 256) : (s.modMsp m f).client cl = s.client cl := rfl
@[simp] theorem tb_modFlt (f : Flt → Flt) : (s.modFlt f).tb = s.tb := rfl
@[simp] theorem client_modFlt (f : Flt → Flt) (cl : Fin 256) : (s.modFlt f).client cl = s.client cl := rfl
@[simp] theorem tb_modUpd (f : Upd → Upd) : (s.modUpd f).tb = s.tb := rfl
@[simp] theorem client_modUpd (f : Upd → Upd) (cl : Fin 256) : (s.modUpd f).client cl = s.client cl := rfl
@[simp] theorem tb_modSvc (f : Svc → Svc) : (s.modSvc f).tb = s.tb := rfl
@[simp] theorem client_modSvc (f : Svc → Svc) (cl : Fin 256) : (s.modSvc f).client cl = s.client cl := rfl
@[simp] theorem tb_modPm (f : Perf → Perf) : (s.modPm f).tb = s.tb := rfl
@[simp] theorem client_modPm (f : Perf → Perf) (cl : Fin 256) : (s.modPm f).client cl = s.client cl := rfl
@[simp] theorem tb_modRs (f : RecStore → RecStore) : (s.modRs f).tb = s.tb := rfl
@[simp] theorem client_modRs (f : RecStore → RecStore) (cl : Fin 256) : (s.modRs f).client cl = s.client cl := rfl
@[simp] theorem tb_modOut (n : Fin 64) (f : Output → Output) : (s.modOut n f).tb = s.tb := rfl
@[simp] theorem client_modOut (n : Fin 64) (f : Output → Output) (cl : Fin 256) : (s.modOut n f).client cl = s.client cl := rfl
@[simp] theorem tb_modCnt (n : Fin 64) (f : Counter → Counter) : (s.modCnt n f).tb = s.tb := rfl
@[simp] theorem client_modCnt (n : Fin 64) (f : Counter → Counter) (cl : Fin 256) : (s.modCnt n f).client cl = s.client cl := rfl
@[simp] theorem tb_modAdc (a : Fin 2) (f : Adc → Adc) : (s.modAdc a f).tb = s.tb := rfl
@[simp] theorem client_modAdc (a : Fin 2) (f : Adc → Adc) (cl : Fin 256) : (s.modAdc a f).client cl = s.client cl := rfl
@[simp] theorem tb_request (r : ReqSrc) (e : EventRegs) : (s.request r e).tb = s.tb := rfl
@[simp] theorem client_request (r : ReqSrc) (e : EventRegs) (cl : Fin 256) : (s.request r e).client cl = s.client cl := rfl
@[simp] theorem tb_dropRequest (r : ReqSrc) : (s.dropRequest r).tb = s.tb := rfl
@[simp] theorem client_dropRequest (r : ReqSrc) (cl : Fin 256) : (s.dropRequest r).client cl = s.client cl := rfl
@[simp] theorem tb_answer (w : Word) : (s.answer w).tb = s.tb := rfl
@[simp] theorem client_answer (w : Word) (cl : Fin 256) : (s.answer w).client cl = s.client cl := rfl
@[simp] theorem tb_report (m k i d : Nat) : (s.report m k i d).tb = s.tb := rfl
@[simp] theorem client_report (m k i d : Nat) (cl : Fin 256) : (s.report m k i d).client cl = s.client cl := rfl
@[simp] theorem tb_modCyc (f : Cycle → Cycle) : (s.modCyc f).tb = s.tb := rfl
@[simp] theorem client_modCyc (f : Cycle → Cycle) (cl : Fin 256) : (s.modCyc f).client cl = s.client cl := rfl
@[simp] theorem tb_hwSet (ad : Nat) (w : Word) : (s.hwSet ad w).tb = s.tb := rfl
@[simp] theorem client_hwSet (ad : Nat) (w : Word) (cl : Fin 256) : (s.hwSet ad w).client cl = s.client cl := rfl

end State

/-! ## Frames -/

theorem OnlyChanges.refl (ps : List Part) (s : State) : OnlyChanges ps s s := fun p _ => by cases p <;> rfl
theorem OnlyChanges.trans {ps qs : List Part} {s t u : State} (h : OnlyChanges ps s t) (k : OnlyChanges qs t u) :
    OnlyChanges (ps ++ qs) s u := by
  intro p hp
  have h1 := h p fun x => hp (List.mem_append.2 (.inl x))
  have h2 := k p fun x => hp (List.mem_append.2 (.inr x))
  cases p <;> exact Eq.trans h2 h1
theorem OnlyChanges.mono {ps qs : List Part} {s t : State} (h : OnlyChanges ps s t) (k : ∀ p ∈ ps, p ∈ qs) :
    OnlyChanges qs s t := fun p hp => h p fun x => hp (k p x)
/-- Two changes inside the same parts. -/
theorem OnlyChanges.both {ps : List Part} {s t u : State} (h : OnlyChanges ps s t) (k : OnlyChanges ps t u) :
    OnlyChanges ps s u := (h.trans k).mono fun p hp => (List.mem_append.1 hp).elim id id
theorem OnlyChanges.ite {ps : List Part} {s t u : State} {c : Prop} [Decidable c] (h : OnlyChanges ps s t)
    (k : OnlyChanges ps s u) : OnlyChanges ps s (if c then t else u) := by split <;> assumption
theorem OnlyChanges.foldl {α : Type} {ps : List Part} {f : State → α → State} (h : ∀ s a, OnlyChanges ps s (f s a))
    (l : List α) (s : State) : OnlyChanges ps s (l.foldl f s) := by
  induction l generalizing s with
  | nil => exact OnlyChanges.refl ps s
  | cons a l ih => exact (h s a).both (ih _)

namespace State
variable (s : State)

theorem only_modChan (n : Fin 64) (f : Chan → Chan) : OnlyChanges [.chans] s (s.modChan n f) := by
  intro p hp; cases p <;> first | rfl | exact absurd (List.mem_singleton.2 rfl) hp
theorem only_modGrove (g : Fin 8) (f : Grove → Grove) : OnlyChanges [.groves] s (s.modGrove g f) := by
  intro p hp; cases p <;> first | rfl | exact absurd (List.mem_singleton.2 rfl) hp
theorem only_modAd (d : Fin 3) (f : AngleDom → AngleDom) : OnlyChanges [.ads] s (s.modAd d f) := by
  intro p hp; cases p <;> first | rfl | exact absurd (List.mem_singleton.2 rfl) hp
theorem only_modPl (k : Fin 2) (f : Checker → Checker) : OnlyChanges [.pls] s (s.modPl k f) := by
  intro p hp; cases p <;> first | rfl | exact absurd (List.mem_singleton.2 rfl) hp
theorem only_modTt (f : Timetable → Timetable) : OnlyChanges [.tt] s (s.modTt f) := by
  intro p hp; cases p <;> first | rfl | exact absurd (List.mem_singleton.2 rfl) hp
theorem only_modMe (f : MicroEngine → MicroEngine) : OnlyChanges [.me] s (s.modMe f) := by
  intro p hp; cases p <;> first | rfl | exact absurd (List.mem_singleton.2 rfl) hp
theorem only_modEng (e : Fin 8) (f : PinSeq → PinSeq) : OnlyChanges [.ps] s (s.modEng e f) := by
  intro p hp; cases p <;> first | rfl | exact absurd (List.mem_singleton.2 rfl) hp
theorem only_modAfe (f : Afe → Afe) : OnlyChanges [.afe] s (s.modAfe f) := by
  intro p hp; cases p <;> first | rfl | exact absurd (List.mem_singleton.2 rfl) hp
theorem only_modSc (f : Seating → Seating) : OnlyChanges [.sc] s (s.modSc f) := by
  intro p hp; cases p <;> first | rfl | exact absurd (List.mem_singleton.2 rfl) hp
theorem only_modBoot (f : Boot → Boot) : OnlyChanges [.boot] s (s.modBoot f) := by
  intro p hp; cases p <;> first | rfl | exact absurd (List.mem_singleton.2 rfl) hp
theorem only_modPwr (f : Power → Power) : OnlyChanges [.pwr] s (s.modPwr f) := by
  intro p hp; cases p <;> first | rfl | exact absurd (List.mem_singleton.2 rfl) hp
theorem only_modCanopy (f : Canopy → Canopy) : OnlyChanges [.canopy] s (s.modCanopy f) := by
  intro p hp; cases p <;> first | rfl | exact absurd (List.mem_singleton.2 rfl) hp
theorem only_modTbs (f : Timebase → Timebase) : OnlyChanges [.tbs] s (s.modTbs f) := by
  intro p hp; cases p <;> first | rfl | exact absurd (List.mem_singleton.2 rfl) hp
theorem only_modPins (f : Pins → Pins) : OnlyChanges [.pins] s (s.modPins f) := by
  intro p hp; cases p <;> first | rfl | exact absurd (List.mem_singleton.2 rfl) hp
theorem only_modMem (f : Mem → Mem) : OnlyChanges [.mem] s (s.modMem f) := by
  intro p hp; cases p <;> first | rfl | exact absurd (List.mem_singleton.2 rfl) hp
theorem only_modBank (b : Fin 8) (f : Bank → Bank) : OnlyChanges [.mem] s (s.modBank b f) := by
  intro p hp; cases p <;> first | rfl | exact absurd (List.mem_singleton.2 rfl) hp
theorem only_modCw (n : Fin 16) (f : CircWin → CircWin) : OnlyChanges [.cw] s (s.modCw n f) := by
  intro p hp; cases p <;> first | rfl | exact absurd (List.mem_singleton.2 rfl) hp
theorem only_modDma (c : Fin 8) (f : DmaChan → DmaChan) : OnlyChanges [.dma] s (s.modDma c f) := by
  intro p hp; cases p <;> first | rfl | exact absurd (List.mem_singleton.2 rfl) hp
theorem only_modIntc (f : Intc → Intc) : OnlyChanges [.intc] s (s.modIntc f) := by
  intro p hp; cases p <;> first | rfl | exact absurd (List.mem_singleton.2 rfl) hp
theorem only_modHp (f : Hp → Hp) : OnlyChanges [.hp] s (s.modHp f) := by
  intro p hp; cases p <;> first | rfl | exact absurd (List.mem_singleton.2 rfl) hp
theorem only_modLink (l : Fin 4) (f : Hl → Hl) : OnlyChanges [.hl] s (s.modLink l f) := by
  intro p hp; cases p <;> first | rfl | exact absurd (List.mem_singleton.2 rfl) hp
theorem only_modTsi (f : Tsi → Tsi) : OnlyChanges [.tsi] s (s.modTsi f) := by
  intro p hp; cases p <;> first | rfl | exact absurd (List.mem_singleton.2 rfl) hp
theorem only_modSmb (k : Fin 2) (f : Smb → Smb) : OnlyChanges [.smb] s (s.modSmb k f) := by
  intro p hp; cases p <;> first | rfl | exact absurd (List.mem_singleton.2 rfl) hp
theorem only_modPack (f : Pack → Pack) : OnlyChanges [.pack] s (s.modPack f) := by
  intro p hp; cases p <;> first | rfl | exact absurd (List.mem_singleton.2 rfl) hp
theorem only_modMsp (m : Fin 2) (f : Msp → Msp) : OnlyChanges [.msp] s (s.modMsp m f) := by
  intro p hp; cases p <;> first | rfl | exact absurd (List.mem_singleton.2 rfl) hp
theorem only_modFlt (f : Flt → Flt) : OnlyChanges [.flt] s (s.modFlt f) := by
  intro p hp; cases p <;> first | rfl | exact absurd (List.mem_singleton.2 rfl) hp
theorem only_modUpd (f : Upd → Upd) : OnlyChanges [.upd] s (s.modUpd f) := by
  intro p hp; cases p <;> first | rfl | exact absurd (List.mem_singleton.2 rfl) hp
theorem only_modSvc (f : Svc → Svc) : OnlyChanges [.svc] s (s.modSvc f) := by
  intro p hp; cases p <;> first | rfl | exact absurd (List.mem_singleton.2 rfl) hp
theorem only_modPm (f : Perf → Perf) : OnlyChanges [.pm] s (s.modPm f) := by
  intro p hp; cases p <;> first | rfl | exact absurd (List.mem_singleton.2 rfl) hp
theorem only_modRs (f : RecStore → RecStore) : OnlyChanges [.rs] s (s.modRs f) := by
  intro p hp; cases p <;> first | rfl | exact absurd (List.mem_singleton.2 rfl) hp
theorem only_modOut (n : Fin 64) (f : Output → Output) : OnlyChanges [.chans] s (s.modOut n f) := by
  intro p hp; cases p <;> first | rfl | exact absurd (List.mem_singleton.2 rfl) hp
theorem only_modCnt (n : Fin 64) (f : Counter → Counter) : OnlyChanges [.chans] s (s.modCnt n f) := by
  intro p hp; cases p <;> first | rfl | exact absurd (List.mem_singleton.2 rfl) hp
theorem only_modAdc (a : Fin 2) (f : Adc → Adc) : OnlyChanges [.afe] s (s.modAdc a f) := by
  intro p hp; cases p <;> first | rfl | exact absurd (List.mem_singleton.2 rfl) hp
theorem only_request (r : ReqSrc) (e : EventRegs) : OnlyChanges [.tt] s (s.request r e) := by
  intro p hp; cases p <;> first | rfl | exact absurd (List.mem_singleton.2 rfl) hp
theorem only_dropRequest (r : ReqSrc) : OnlyChanges [.tt] s (s.dropRequest r) := by
  intro p hp; cases p <;> first | rfl | exact absurd (List.mem_singleton.2 rfl) hp
theorem only_answer (w : Word) : OnlyChanges [.rdata] s (s.answer w) := by
  intro p hp; cases p <;> first | rfl | exact absurd (List.mem_singleton.2 rfl) hp
theorem only_report (m k i d : Nat) : OnlyChanges [.reports] s (s.report m k i d) := by
  intro p hp; cases p <;> first | rfl | exact absurd (List.mem_singleton.2 rfl) hp
theorem only_modCyc (f : Cycle → Cycle) (ps : List Part) : OnlyChanges ps s (s.modCyc f) := by intro p hp; cases p <;> rfl
theorem only_hwSet (ad : Nat) (w : Word) (ps : List Part) : OnlyChanges ps s (s.hwSet ad w) := by intro p hp; cases p <;> rfl

end State
end Sys2Proof.Machine
end

