-- ==== Sys2Proof/Tests/Slice0.lean ====
section
/-!
SUPPORT. Tests/Slice0.lean: a state that meets the hypotheses of each clause of each statement, the commands WellFormed
refuses, and worked values of the spec. A witness's name is its statement's; helper definitions stand before it.
-/
namespace Sys2Proof.Tests
set_option linter.all false
-- one theorem at a time: each waiting for its kernel check would otherwise hold a thread
set_option Elab.async false
open Sys2Proof Sys2Proof.Machine
def st (_ : Nat) : State := State.reset
def up0 (k : Nat) (s : State) : State := { s with cyc := {}, time := 10 ^ 12 + k, pwr := { s.pwr with pdUp := true, pllLock := true, pd1Up := true, vioGood := true, st := .run }, flt := { s.flt with supReset := false } }
def su (k : Nat) : State := up0 k State.reset
def dn (s : State) : State := { s with pwr := { s.pwr with pdUp := false, pllLock := false, pd1Up := false } }
def P (f : Power → Power) (s : State) : State := { s with pwr := f s.pwr }
def B (f : Boot → Boot) (s : State) : State := { s with boot := f s.boot }
def CH (n : Fin 64) (f : Chan → Chan) (s : State) : State := s.modChan n f
def GR (n : Fin 8) (f : Grove → Grove) (s : State) : State := { s with groves := vset s.groves n f }
def CHG (g : Fin 8) (f : Chan → Chan) (s : State) : State := (List.finRange 8).foldl (fun s k => s.modChan (State.chanOf g k) f) s
def AD (n : Fin 3) (f : AngleDom → AngleDom) (s : State) : State := { s with ads := vset s.ads n f }
def Y (f : Cycle → Cycle) (s : State) : State := { s with cyc := f s.cyc }


namespace W03
def s1 := (su 1)
def s2 := (su 2)
def ld (s : State) := B (fun b => { b with st := .loading }) (P (fun p => { p with pd1Up := true }) s)
def cw (at_ : Nat) (tw : BitVec 4) (n : Nat) (s : State) : State := { s with canopy := { s.canopy with watchMask := 15, twinOut := tw, twinAt := .replicate 4 (some at_), watchCount := n, watchEdges := 6, rtcSec := 5, rtcAlarm := 6 } }

/-! ### ResetsNameTheirCause -/
namespace ResetsNameTheirCause
def w0 : State := P (fun p => { p with vioGood := false }) s1
def w2 : State := P (fun p => { p with vioGood := true }) s1
def w3 : State := B (fun p => { p with st := .clockHold }) s2
def w5 : State := Y (fun c => { c with reset := some 0 }) s1
theorem witness :
    ((w0.pwr.vioGood = false) ∧ (w0.cyc.reset = Option.none)) ∧
    ((w0.cyc.reset = Option.none) ∧ (Fin.ofNat 9 0 ≠ (1 : Fin 9))) ∧
    ((w0.boot.st ≠ BootState.clockHold)) ∧
    ((BitVec.ofNat 16 0 ≠ (23100 : BitVec 16))) ∧
    ((w2.pwr.vioGood = true) ∧ (w2.cyc.reset = Option.none) ∧ (Fin.ofNat 9 0 ≠ (1 : Fin 9))) ∧
    ((w3.boot.st = BootState.clockHold) ∧ (w3.cyc.reset = Option.none)) ∧
    ((w5.cyc.reset = Option.some (Fin.ofNat 16 0))) := by
  (repeat' apply And.intro) <;> first | decide +kernel | (unfold MemCanonical; decide +kernel)
end ResetsNameTheirCause

/-! ### StartSequenceEnds -/
namespace StartSequenceEnds
def w0 : State := P (fun p => { p with pllLock := false }) (ld s1)
theorem witness :
    ((w0.boot.st = BootState.loading) ∧ (w0.pwr.pd1Up = true) ∧ (w0.pwr.pllLock = false)) ∧
    ((w0.boot.st = BootState.loading) ∧ (w0.pwr.pd1Up = true) ∧ (w0.pwr.vioGood = true)) := by
  (repeat' apply And.intro) <;> first | decide +kernel | (unfold MemCanonical; decide +kernel)
end StartSequenceEnds

/-! ### ConfigurationLocks -/
namespace ConfigurationLocks
def w0 : State := (B (fun b => { b with applied := true, locked := false }) s1)
def w2 : State := (B (fun b => { b with applied := true, locked := false, st := .unlocked }) s1)
def w4 : State := (B (fun b => { b with applied := true, locked := false, startMask := 0, deferred := true, st := .unlocked, lockAt := s2.tb + 3 }) s2)
def w5 : State := { (B (fun b => { b with applied := true, locked := false, st := .unlocked }) s1) with sc := { s1.sc with recs := [] } }
theorem witness :
    ((w0.boot.applied = true) ∧ (w0.boot.locked = false) ∧ (w0.cyc.rwl = []) ∧ (w0.permits (0 : Fin 256) 36 true (1 : Word) = true)) ∧
    ((w2.boot.applied = true) ∧ (w2.boot.locked = false) ∧ (w2.cyc.rwl = []) ∧ (w2.boot.st = BootState.unlocked) ∧ (reached w2.tb w2.boot.lockAt = true)) ∧
    ((w4.boot.applied = true) ∧ (w4.boot.locked = false) ∧ (w4.cyc.rwl = []) ∧ (w4.boot.st = BootState.unlocked) ∧ (reached w4.tb w4.boot.lockAt = false)) ∧
    ((w5.boot.applied = true) ∧ (w5.boot.locked = false) ∧ (w5.cyc.rwl = []) ∧ (w5.permits (9 : Fin 256) 36 true (1 : Word) = false)) := by
  (repeat' apply And.intro) <;> first | decide +kernel | (unfold MemCanonical; decide +kernel)
end ConfigurationLocks

/-! ### ParkEntryIsGuarded -/
namespace ParkEntryIsGuarded
def w0 : State := P (fun p => { p with st := .entering }) s1
def w2 : State := s1
def w4 : State := P (fun p => { p with st := .run }) (B (fun b => { b with locked := true }) s1)
def w7 : State := { P (fun p => { p with st := .run }) (B (fun b => { b with locked := true }) s2) with svc := { s2.svc with open_ := true }, rs := {s2.rs with versions := [] }  }
def w8 : State := { P (fun p => { p with st := .run }) (B (fun b => { b with locked := true }) s2) with svc := { s2.svc with open_ := true }, rs := {s2.rs with versions := [{ type := 1, index := 0, seq := 1, pages := 1, sector := 0, data := ({ writing := some true } : BootRec).bytes }] }  }
theorem witness :
    ((w0.pwr.st ≠ PwrState.run)) ∧
    ((w2.pwr.st = PwrState.run) ∧ (w2.boot.locked = false)) ∧
    ((w4.pwr.st = PwrState.run) ∧ (w4.boot.locked = true) ∧ (w4.slotWriting = false) ∧ (w4.svc.open_ = false)) ∧
    ((w4.pwr.st = PwrState.run) ∧ (w4.boot.locked = true) ∧ ((4 : BitVec 16) ≠ (23100 : BitVec 16))) ∧
    ((w7.pwr.st = PwrState.run) ∧ (w7.boot.locked = true) ∧ ((23100 : BitVec 16) = (23100 : BitVec 16)) ∧ (w7.slotWriting = false) ∧ (w7.svc.open_ = true)) ∧
    ((w8.pwr.st = PwrState.run) ∧ (w8.boot.locked = true) ∧ ((23100 : BitVec 16) = (23100 : BitVec 16)) ∧ (w8.slotWriting = true)) := by
  (repeat' apply And.intro) <;> first | decide +kernel | (unfold MemCanonical; decide +kernel)
end ParkEntryIsGuarded

/-! ### RetentionRestoresPending -/
namespace RetentionRestoresPending
def w0 : State := P (fun p => { p with st := .park }) s1
def w2 : State := P (fun p => { p with st := .off, vioGood := true }) { s1 with canopy := { s1.canopy with wakeSrc := 1, wakeEn := 1, retValid := true } }
def w3 : State := P (fun p => { p with st := .entering, wakeEntry := true }) s1
def w6 : State := P (fun p => { p with pd1Up := false }) { s1 with flt := { s1.flt with flag := 1, ien := 1 } }
theorem witness :
    ((w0.pwr.st = PwrState.park) ∧ ((1023 : BitVec 10) &&& w0.canopy.wakeEn ≠ (0 : BitVec 10))) ∧
    ((w2.pwr.st = PwrState.off) ∧ (w2.pwr.vioGood = true) ∧ (w2.canopy.wakeSrc &&& w2.canopy.wakeEn ≠ (0 : BitVec 10)) ∧ (w2.canopy.retValid = true) ∧ (w2.cyc.reset = Option.none)) ∧
    ((w3.pwr.st = PwrState.entering) ∧ (w3.rs.op = false) ∧ (w3.pwr.wakeEntry = true) ∧ (w3.pwr.faultEntry = false)) ∧
    ((w6.pwr.pd1Up = false) ∧ (w6.lineOf (152 : Fin 192).val = true) ∧ (reservedSrc (152 : Fin 192).val = false)) := by
  (repeat' apply And.intro) <;> first | decide +kernel | (unfold MemCanonical; decide +kernel)
end RetentionRestoresPending

/-! ### ParkEntryEndsAndExits -/
namespace ParkEntryEndsAndExits
def w0 : State := P (fun p => { p with st := .entering, wakeEntry := false, toOff := false }) { s1 with rs := { s1.rs with op := false } }
def w2 : State := P (fun p => { p with st := .entering, wakeEntry := false, toOff := true }) { s1 with rs := { s1.rs with op := false } }
def w3 : State := P (fun p => { p with st := .entering, wakeEntry := false, toOff := true }) { s1 with rs := { s1.rs with op := true } }
def w4 : State := P (fun p => { p with st := .exiting, pdUp := false }) s1
def w6 : State := P (fun p => { p with st := .exiting, pdUp := true }) s1
theorem witness :
    ((w0.pwr.st = PwrState.entering) ∧ (w0.rs.op = false) ∧ (w0.pwr.wakeEntry = false) ∧ (w0.pwr.toOff = false)) ∧
    ((w2.pwr.st = PwrState.entering) ∧ (w2.rs.op = false) ∧ (w2.pwr.wakeEntry = false) ∧ (w2.pwr.toOff = true)) ∧
    ((w3.pwr.st = PwrState.entering) ∧ (w3.rs.op = true)) ∧
    ((w4.pwr.st = PwrState.exiting)) ∧
    ((w6.pwr.st = PwrState.exiting) ∧ (w6.pwr.pdUp = true)) := by
  (repeat' apply And.intro) <;> first | decide +kernel | (unfold MemCanonical; decide +kernel)
end ParkEntryEndsAndExits

/-! ### CanopyEventsLatch -/
namespace CanopyEventsLatch
def w0 : State := s1
def w3 : State := cw (s1.time - 30000) 15 5 s1
def w5 : State := cw (s1.time - 3000) 15 3 s1
theorem witness :
    (((w0.canopy.watchMask.getLsbD (0 : Fin 4).val && w0.twinOf (0 : Fin 4) 0 != w0.canopy.twinOut.getLsbD (0 : Fin 4).val) = false)) ∧
    ((w0.pwr.st ≠ PwrState.park) ∧ (w0.pwr.st ≠ PwrState.entering)) ∧
    (((w3.canopy.watchMask.getLsbD (1 : Fin 4).val && w3.twinOf (1 : Fin 4) 0 != w3.canopy.twinOut.getLsbD (1 : Fin 4).val) = true) ∧ (Option.any (fun t => Decidable.decide (w3.time < t + 25000)) (at_ w3.canopy.twinAt (1 : Fin 4)) = false)) ∧
    (((w5.canopy.watchMask.getLsbD (1 : Fin 4).val && w5.twinOf (1 : Fin 4) 0 != w5.canopy.twinOut.getLsbD (1 : Fin 4).val) = true) ∧ (Option.any (fun t => Decidable.decide (w5.time < t + 25000)) (at_ w5.canopy.twinAt (1 : Fin 4)) = true)) := by
  (repeat' apply And.intro) <;> first | decide +kernel | (unfold MemCanonical; decide +kernel)
end CanopyEventsLatch

/-! ### ClockFaultStopsAndRecovers -/
namespace ClockFaultStopsAndRecovers
def w0 : State := P (fun p => { p with st := .run, vioGood := true }) s1
def w1 : State := dn (P (fun p => { p with st := .run, vioGood := true }) s1)
def w2 : State := P (fun p => { p with st := .clockFault, needRec := true, vioGood := true }) s1
def w3 : State := P (fun p => { p with st := .clockFault, needRec := false, vioGood := true }) s1
def w4 : State := P (fun p => { p with st := .entering }) s1
theorem witness :
    ((w0.pwr.st = PwrState.run) ∧ (w0.pwr.pllLock = true)) ∧
    ((BitVec.ofNat 16 0 ≠ (23100 : BitVec 16))) ∧
    ((w0.pwr.vioGood = true)) ∧
    ((w1.pwr.pllLock = false)) ∧
    ((w2.pwr.st = PwrState.clockFault) ∧ (w2.pwr.needRec = true)) ∧
    ((w3.pwr.st = PwrState.clockFault) ∧ (w3.pwr.needRec = false)) ∧
    ((w4.pwr.st = PwrState.entering) ∧ (w4.pwr.pllLock = true)) := by
  (repeat' apply And.intro) <;> first | decide +kernel | (unfold MemCanonical; decide +kernel)
end ClockFaultStopsAndRecovers
end W03

namespace W04
def noRun (c : Chan) : Chan := { c with c := { c.c with run := false } }
def doRun (c : Chan) : Chan := { c with c := { c.c with run := true } }
def cfgT (cnt : Nat) (down : Bool) (c : Chan) : Chan := { c with fenced := false, o := { c.o with link := 0 }, c := { c.c with run := true, ctl := c.c.ctl &&& 0x13, reload := 9, cnt := BitVec.ofNat 48 cnt, down := down } }
def due (g : Fin 8) (s : State) : State := GR g (fun x => { x with psc := 3, pscCount := 5 }) (P (fun p => {p with compat := false, pdUp := true}) s)
def goodS (cnt rl : Nat) (s : State) : State := P (fun p => {p with compat := false}) <| GR 2 (fun x => { x with stag := 0 }) <| CH 20 (fun c => { c with fenced := false, o := { c.o with link := 0 }, c := { c.c with ctl := 1, reload := BitVec.ofNat 48 rl, cnt := BitVec.ofNat 48 cnt }}) (CHG 2 noRun s)

/-! ### PrescalerWriteNeedsStoppedGrove -/
namespace PrescalerWriteNeedsStoppedGrove
def w0 : State := (su 3)
def w1 : State := dn ((su 3))
def w3 : State := CH 24 doRun (su 0)
theorem witness :
    ((w0.pwr.pdUp = true) ∧ (∀ (k : Fin 8), w0.runs (State.chanOf (3 : Fin 8) k) = false)) ∧
    ((w1.pwr.pdUp = false)) ∧
    ((w3.pwr.pdUp = true) ∧ (∃ k, w3.runs (State.chanOf (3 : Fin 8) k) = true)) := by
  (repeat' apply And.intro) <;> first | decide +kernel | (unfold MemCanonical; decide +kernel)
end PrescalerWriteNeedsStoppedGrove

/-! ### CounterAndReloadAccess -/
namespace CounterAndReloadAccess
def w0 : State := (su 8)
def w1 : State := dn ((su 8))
def w3 : State := CH 5 doRun (su 11)
def w4 : State := P (fun p => {p with compat := true}) (su 12)
def w5 : State := CH 5 (fun c => {c with c := {c.c with rldStage := 1}}) (su 3)
theorem witness :
    ((w0.pwr.pdUp = true) ∧ (2 ≤ BitVec.toNat (wide (7 : Word) (w0.chan (0 : Fin 64)).c.rldStage)) ∧ (w0.runs (0 : Fin 64) = false)) ∧
    ((w0.pwr.pd1Up = true) ∧ (w0.runs (0 : Fin 64) = false) ∧ (w0.compat = false)) ∧
    ((w1.pwr.pdUp = false)) ∧
    ((w3.pwr.pdUp = true) ∧ (2 ≤ BitVec.toNat (wide (7 : Word) (w3.chan (5 : Fin 64)).c.rldStage)) ∧ (w3.runs (5 : Fin 64) = true)) ∧
    ((w3.pwr.pd1Up = true) ∧ (w3.runs (5 : Fin 64) = true) ∧ (w3.compat = false)) ∧
    ((w4.pwr.pd1Up = true) ∧ (w4.compat = true)) ∧
    ((w5.pwr.pdUp = true) ∧ (BitVec.toNat (wide (0 : Word) (w5.chan (5 : Fin 64)).c.rldStage) < 2)) := by
  (repeat' apply And.intro) <;> first | decide +kernel | (unfold MemCanonical; decide +kernel)
end CounterAndReloadAccess

/-! ### GroveTickCountsTriangular -/
namespace GroveTickCountsTriangular
def w0 : State := CH 20 (cfgT 3 false) (due 2 (su 20))
def w1 : State := dn (CH 20 (cfgT 3 false) (due 2 (su 20)))
theorem witness :
    ((w0.tickDue (State.groveOf (20 : Fin 64)) = true) ∧ (w0.compat = false) ∧ ((w0.chan (20 : Fin 64)).fenced = false) ∧ ((w0.chan (20 : Fin 64)).c.run = true) ∧ ((w0.chan (20 : Fin 64)).c.clkSrc = 0) ∧ (w0.pulsed (20 : Fin 64) = false) ∧ ((w0.chan (20 : Fin 64)).o.action = 0) ∧ (2 ≤ BitVec.toNat (w0.chan (20 : Fin 64)).c.reload) ∧ (BitVec.toNat (w0.chan (20 : Fin 64)).c.cnt ≤ BitVec.toNat (w0.chan (20 : Fin 64)).c.reload) ∧ ((w0.chan (20 : Fin 64)).c.down = true → 0 < BitVec.toNat (w0.chan (20 : Fin 64)).c.cnt) ∧ ((w0.chan (20 : Fin 64)).c.down = false → BitVec.toNat (w0.chan (20 : Fin 64)).c.cnt < BitVec.toNat (w0.chan (20 : Fin 64)).c.reload)) ∧
    ((w1.tickDue (State.groveOf (20 : Fin 64)) = false)) := by
  (repeat' apply And.intro) <;> first | decide +kernel | (unfold MemCanonical; decide +kernel)
end GroveTickCountsTriangular

/-! ### StartsAndStops -/
namespace StartsAndStops
def w0 : State := CH 21 (fun c => { c with c := { c.c with run := true, ctl := 1 } }) (su 29)
def w2 : State := goodS 0 7 (su 31)
def w5 : State := goodS 8 7 (su 34)
def w8 : State := CH 21 (fun c => { c with fenced := true }) (su 37)
def w9 : State := CH 20 (fun c => { c with c := { c.c with goPend := true } }) (due 2 (goodS 3 7 (su 3)))
theorem witness :
    ((w0.pwr.pdUp = true) ∧ (∃ k, (w0.chan (State.chanOf (State.groveOf (20 : Fin 64)) k)).c.en = true ∧ w0.runs (State.chanOf (State.groveOf (20 : Fin 64)) k) = true)) ∧
    ((w0.pwr.pdUp = true) ∧ ((w0.chan (20 : Fin 64)).fenced = false) ∧ (w0.runs (20 : Fin 64) = false) ∧ ((w0.chan (20 : Fin 64)).c.goPend = false)) ∧
    ((w2.pwr.pdUp = true) ∧ (∀ (k : Fin 8), (w2.chan (State.chanOf (State.groveOf (20 : Fin 64)) k)).c.en = true → w2.runs (State.chanOf (State.groveOf (20 : Fin 64)) k) = false) ∧ (w2.compat = false) ∧ ((w2.chan (20 : Fin 64)).fenced = false) ∧ ((w2.chan (20 : Fin 64)).c.en = true) ∧ ((w2.chan (20 : Fin 64)).o.action = 0) ∧ ((w2.chan (20 : Fin 64)).c.clkSrc = 0) ∧ (bit (w2.grove (State.groveOf (20 : Fin 64))).stag 8 = false) ∧ (w2.linkOk (20 : Fin 64) = true) ∧ (w2.pulsed (20 : Fin 64) = false) ∧ (2 ≤ BitVec.toNat (w2.chan (20 : Fin 64)).c.reload) ∧ (BitVec.toNat (w2.chan (20 : Fin 64)).c.cnt ≤ BitVec.toNat (w2.chan (20 : Fin 64)).c.reload)) ∧
    ((w5.pwr.pdUp = true) ∧ (∀ (k : Fin 8), (w5.chan (State.chanOf (State.groveOf (20 : Fin 64)) k)).c.en = true → w5.runs (State.chanOf (State.groveOf (20 : Fin 64)) k) = false) ∧ (w5.compat = false) ∧ ((w5.chan (20 : Fin 64)).fenced = false) ∧ ((w5.chan (20 : Fin 64)).c.en = true) ∧ ((w5.chan (20 : Fin 64)).o.action = 0) ∧ ((w5.chan (20 : Fin 64)).c.clkSrc = 0) ∧ (bit (w5.grove (State.groveOf (20 : Fin 64))).stag 8 = false) ∧ (w5.linkOk (20 : Fin 64) = true) ∧ (w5.pulsed (20 : Fin 64) = false) ∧ (BitVec.toNat (w5.chan (20 : Fin 64)).c.reload < 2 ∨ BitVec.toNat (w5.chan (20 : Fin 64)).c.reload < BitVec.toNat (w5.chan (20 : Fin 64)).c.cnt)) ∧
    ((w8.pwr.pdUp = true) ∧ ((w8.chan (21 : Fin 64)).fenced = true ∨ w8.runs (21 : Fin 64) = true ∨ (w8.chan (21 : Fin 64)).c.goPend = true)) ∧
    ((w9.pwr.pdUp = true) ∧ (w9.tickDue (State.groveOf (20 : Fin 64)) = true) ∧ (w9.compat = false) ∧ ((w9.chan (20 : Fin 64)).fenced = false) ∧ ((w9.chan (20 : Fin 64)).c.run = false) ∧ ((w9.chan (20 : Fin 64)).c.goPend = true) ∧ ((w9.chan (20 : Fin 64)).c.clkSrc = 0) ∧ ((w9.chan (20 : Fin 64)).o.action = 0) ∧ (w9.linkOk (20 : Fin 64) = true) ∧ (2 ≤ BitVec.toNat (w9.chan (20 : Fin 64)).c.reload) ∧ (BitVec.toNat (w9.chan (20 : Fin 64)).c.cnt ≤ BitVec.toNat (w9.chan (20 : Fin 64)).c.reload)) := by
  (repeat' apply And.intro) <;> first | decide +kernel | (unfold MemCanonical; decide +kernel)
end StartsAndStops

/-! ### ControlAndMatchWrites -/
namespace ControlAndMatchWrites
def w0 : State := (su 40)
def w1 : State := dn ((su 40))
def w3 : State := CH 6 (fun c => { c with c := { c.c with run := true, matcfg := 0xFFFF } }) (su 43)
theorem witness :
    ((w0.pwr.pdUp = true) ∧ (w0.runs (5 : Fin 64) = false ∨ w0.compat = true ∨ fld (255 : Word) 3 2 = (w0.chan (5 : Fin 64)).c.clkSrc)) ∧
    ((w0.pwr.pdUp = true) ∧ (bit (w0.chan (5 : Fin 64)).c.matcfg (8 + (0 : Fin 4).val) = false ∨ w0.runs (5 : Fin 64) = false)) ∧
    ((w1.pwr.pdUp = false)) ∧
    ((w3.pwr.pdUp = true) ∧ (w3.runs (6 : Fin 64) = true) ∧ (w3.compat = false) ∧ (fld (247 : Word) 3 2 ≠ (w3.chan (6 : Fin 64)).c.clkSrc)) ∧
    ((w3.pwr.pdUp = true) ∧ (bit (w3.chan (6 : Fin 64)).c.matcfg (8 + (3 : Fin 4).val) = true) ∧ (w3.runs (6 : Fin 64) = true)) := by
  (repeat' apply And.intro) <;> first | decide +kernel | (unfold MemCanonical; decide +kernel)
end ControlAndMatchWrites

/-! ### CapturesAndOverrun -/
namespace CapturesAndOverrun
def w0 : State := (su 45)
def w2 : State := CH 5 (fun c => { c with fenced := false, o := { c.o with lkout := 0 }, cp := { c.cp with cfg := 0xC1, level := false } }) (su 47)
def w3 : State := CH 5 (fun c => { c with fenced := true, o := { c.o with lkout := 0 }, cp := { c.cp with cfg := 0x0C1, level := true } }) (su 48)
def w4 : State := Y (fun c => { c with captures := [{ chan := 5, sw := true, cap := 1, ovr := false, ovrCnt := 0 }] }) (CH 5 (fun c => { c with fenced := false, o := { c.o with lkout := 0 }, cp := { c.cp with cfg := 0xC1, level := false } }) (su 3))
theorem witness :
    ((w0.pwr.pdUp = true) ∧ ((w0.chan (5 : Fin 64)).fenced = false) ∧ (bit (w0.chan (5 : Fin 64)).cp.cfg 8 = false) ∧ ((w0.cyc.captures.any fun p => Decidable.decide (p.chan = (5 : Fin 64))) = false)) ∧
    ((w0.pwr.pd1Up = true) ∧ ((w0.cyc.captures.any fun p => Decidable.decide (p.chan = (5 : Fin 64))) = false)) ∧
    ((w2.pwr.pdUp = true) ∧ ((w2.chan (5 : Fin 64)).fenced = false) ∧ ((Decidable.decide (fld (w2.chan (5 : Fin 64)).cp.cfg 1 0 ≠ 0) && (w2.chan (5 : Fin 64)).cp.level != true && bit (w2.chan (5 : Fin 64)).cp.cfg (if true = true then 6 else 7)) = true) ∧ ((w2.cyc.captures.any fun p => Decidable.decide (p.chan = (5 : Fin 64))) = false)) ∧
    (((w3.chan (5 : Fin 64)).fenced = true)) ∧
    ((w4.pwr.pdUp = true) ∧ ((w4.chan (5 : Fin 64)).fenced = false) ∧ ((w4.cyc.captures.any fun p => Decidable.decide (p.chan = (5 : Fin 64))) = true) ∧ ((Decidable.decide (fld (w4.chan (5 : Fin 64)).cp.cfg 1 0 ≠ 0) && (w4.chan (5 : Fin 64)).cp.level != true && bit (w4.chan (5 : Fin 64)).cp.cfg (if true = true then 6 else 7)) = true)) := by
  (repeat' apply And.intro) <;> first | decide +kernel | (unfold MemCanonical; decide +kernel)
end CapturesAndOverrun
end W04

namespace W05
def qs (l : List Nat) : List Edge := l.map fun k => { slot := Fin.ofNat 8 k, kind := 1, dom := 0, slope := 0, rearm := false, level := .low, tap := 0, tgt := 5 }
def okp (l : List Nat) (s : State) : State := CH 5 (fun c => { c with fenced := false, o := { c.o with queue := qs l, link := 0 } }) (CH 4 (fun c => {c with o := {c.o with pair := {c.o.pair with mode := false}}}) s)
def e0 : Edge := { slot := 3, kind := 1, dom := 0, slope := 0, rearm := true, level := .high, tap := 0, tgt := 5 }
def eA : Edge := { slot := 3, kind := 2, dom := 1, slope := 0, rearm := true, level := .high, tap := 0, tgt := 5, late := true }
def eS : Edge := { slot := 2, kind := 1, dom := 0, slope := 0, rearm := false, level := .low, tap := 0, tgt := 5 }
def withQ (q : List Edge) (s : State) : State := CH 5 (fun c => { c with o := { c.o with queue := q } }) s
def go1 (s : State) : State := P (fun p => {p with compat := false}) (CH 20 (fun c => { c with fenced := false, o := { c.o with link := 0, clr := 0x200 }, c := { c.c with run := false, ctl := 1, reload := 7 } }) (GR 2 (fun g => {g with stag := 0}) s))
def drv (s : State) : State := P (fun p => { p with vioGood := true, pd1Up := true, pdUp := true }) (CH 20 (fun c => { c with o := { c.o with ocfg := 0x202, inClr := false, clr := 0, outl := .high } }) s)

/-! ### EdgePushes -/
namespace EdgePushes
def w0 : State := (su 7)
def w1 : State := dn ((su 7))
def w3 : State := okp [0,1,2,3,4,5,6,7] (su 10)
def w6 : State := CH 5 (fun c => {c with fenced := true}) (su 13)
def w7 : State := okp [2,3] (su 3)
def w8 : State := okp [0,1,2,3,4,5,6,7] (su 3)
theorem witness_1 :
    (w0.pwr.pdUp = true) ∧ ((w0.chan (5 : Fin 64)).fenced = false) ∧ (∃ l, State.levelOf (fld (65536 : Word) 19 18) = Option.some l ∧ w0.pairRefuses (5 : Fin 64) l = false ∧ w0.edgeValid (BitVec.ofNat 2 (fld (65536 : Word) 17 16)) (BitVec.ofNat 2 (fld (65536 : Word) 29 28)) (BitVec.ofNat 2 (fld (65536 : Word) 27 26)) (bit (65536 : Word) 25) (wide (65536 : Word) (at_ (w0.chan (5 : Fin 64)).o.args (State.pathIx Path.hp))) = true) ∧ (∀ j < Fin.ofNat 8 0, (∃ e ∈ (w0.chan (5 : Fin 64)).o.queue, e.slot = j) ∨ ((5 : Fin 64), j) ∈ w0.cyc.freed) ∧ (¬((∃ e ∈ (w0.chan (5 : Fin 64)).o.queue, e.slot = Fin.ofNat 8 0) ∨ ((5 : Fin 64), Fin.ofNat 8 0) ∈ w0.cyc.freed)) := by
  (repeat' apply And.intro) <;> first | exact ⟨_, rfl, by decide +kernel⟩ | decide +kernel | (unfold MemCanonical; decide +kernel)
theorem witness_2 :
    (w3.pwr.pdUp = true) ∧ ((w3.chan (5 : Fin 64)).fenced = false) ∧ (∃ l, State.levelOf (fld (327680 : Word) 19 18) = Option.some l ∧ w3.pairRefuses (5 : Fin 64) l = false ∧ w3.edgeValid (BitVec.ofNat 2 (fld (327680 : Word) 17 16)) (BitVec.ofNat 2 (fld (327680 : Word) 29 28)) (BitVec.ofNat 2 (fld (327680 : Word) 27 26)) (bit (327680 : Word) 25) (wide (327680 : Word) (at_ (w3.chan (5 : Fin 64)).o.args (State.pathIx Path.sup))) = true) ∧ (∀ (k : Fin 8), (∃ e ∈ (w3.chan (5 : Fin 64)).o.queue, e.slot = k) ∨ ((5 : Fin 64), k) ∈ w3.cyc.freed) := by
  (repeat' apply And.intro) <;> first | exact ⟨_, rfl, by decide +kernel⟩ | decide +kernel | (unfold MemCanonical; decide +kernel)
theorem witness_3 :
    (w7.pwr.pdUp = true) ∧ ((w7.chan (5 : Fin 64)).fenced = false) ∧ (¬∃ l, State.levelOf (fld (17563648 : Word) 19 18) = Option.some l ∧ w7.pairRefuses (5 : Fin 64) l = false ∧ w7.edgeValid (BitVec.ofNat 2 (fld (17563648 : Word) 17 16)) (BitVec.ofNat 2 (fld (17563648 : Word) 29 28)) (BitVec.ofNat 2 (fld (17563648 : Word) 27 26)) (bit (17563648 : Word) 25) (wide (17563648 : Word) (at_ (w7.chan (5 : Fin 64)).o.args (State.pathIx Path.me))) = true) ∧ (∃ k, ¬((∃ e ∈ (w7.chan (5 : Fin 64)).o.queue, e.slot = k) ∨ ((5 : Fin 64), k) ∈ w7.cyc.freed)) := by
  (repeat' apply And.intro) <;> first | exact ⟨_, rfl, by decide +kernel⟩ | decide +kernel | (unfold MemCanonical; decide +kernel)
theorem witness_4 :
    (w8.pwr.pdUp = true) ∧ ((w8.chan (5 : Fin 64)).fenced = false) ∧ (¬∃ l, State.levelOf (fld (17563648 : Word) 19 18) = Option.some l ∧ w8.pairRefuses (5 : Fin 64) l = false ∧ w8.edgeValid (BitVec.ofNat 2 (fld (17563648 : Word) 17 16)) (BitVec.ofNat 2 (fld (17563648 : Word) 29 28)) (BitVec.ofNat 2 (fld (17563648 : Word) 27 26)) (bit (17563648 : Word) 25) (wide (17563648 : Word) (at_ (w8.chan (5 : Fin 64)).o.args (State.pathIx Path.me))) = true) ∧ (∀ (k : Fin 8), (∃ e ∈ (w8.chan (5 : Fin 64)).o.queue, e.slot = k) ∨ ((5 : Fin 64), k) ∈ w8.cyc.freed) := by
  (repeat' apply And.intro) <;> first | exact ⟨_, rfl, by decide +kernel⟩ | decide +kernel | (unfold MemCanonical; decide +kernel)
theorem witness_5 :
    ((w1.pwr.pdUp = false)) ∧
    ((w6.pwr.pdUp = true) ∧ ((w6.chan (5 : Fin 64)).fenced = true)) := by
  (repeat' apply And.intro) <;> first | decide +kernel | (unfold MemCanonical; decide +kernel)
end EdgePushes

/-! ### ShadowsArmAndFlush -/
namespace ShadowsArmAndFlush
def w0 : State := (su 17)
def w2 : State := CH 5 (fun c => { c with fenced := false, o := { c.o with queue := [eS], link := 0 } }) (CH 4 (fun c => {c with o := {c.o with pair := {c.o.pair with mode := false}}}) (su 0))
def w4 : State := GR 0 (fun g => {g with arm := true}) (okp [2,3] (su 21))
def w7 : State := (CH 5 (fun c => { c with fenced := true }) (su 24))
theorem witness :
    ((w0.pwr.pdUp = true) ∧ ((w0.chan (0 : Fin 64)).fenced = true ∨ ∀ e ∈ (w0.chan (0 : Fin 64)).o.queue, e.slot ≠ Fin.ofNat 8 (fld (0 : Word) 27 25))) ∧
    ((w0.pwr.pdUp = true) ∧ ((w0.grove (0 : Fin 8)).arm = false)) ∧
    ((w0.pwr.pdUp = true) ∧ ((w0.chan (0 : Fin 64)).fenced = false)) ∧
    ((w2.pwr.pdUp = true) ∧ ((w2.chan (5 : Fin 64)).fenced = false) ∧ (List.find? (fun e => Decidable.decide (e.slot = Fin.ofNat 8 (fld (69206016 : Word) 27 25))) (w2.chan (5 : Fin 64)).o.queue = Option.some eS) ∧ (State.levelOf (fld (69206016 : Word) 22 21) = Option.some Level.high) ∧ (w2.edgeValid eS.kind eS.dom (BitVec.ofNat 2 (fld (69206016 : Word) 24 23)) eS.rearm (wide (69206016 : Word) (at_ (w2.chan (5 : Fin 64)).o.args (State.pathIx Path.hp))) = true) ∧ (w2.pairRefuses (5 : Fin 64) Level.high = false)) ∧
    ((w4.pwr.pdUp = true) ∧ ((w4.grove (0 : Fin 8)).arm = true)) ∧
    ((w7.pwr.pdUp = true) ∧ ((w7.chan (5 : Fin 64)).fenced = true)) := by
  (repeat' apply And.intro) <;> first | decide +kernel | (unfold MemCanonical; decide +kernel)
end ShadowsArmAndFlush

/-! ### EdgesFire -/
namespace EdgesFire
def w0 : State := { (withQ (e0 :: qs [1]) (su 27)) with tbs := { tb := 100 } }
def x2_0 : Edge := e0
def x3_0 : List Edge := qs [1]
def w2 : State := { (withQ (e0 :: qs [1]) (su 29)) with tbs := { tb := 3 } }
def x2_2 : Edge := e0
def x3_2 : List Edge := qs [1]
def w6 : State := AD 1 (fun a => { a with ctl := a.ctl ||| 1, wheel := 0x0180003A, st := .locked, k := { a.k with tau := some 77, rate := 500000000, count := 2 }, per := 500 }) { (withQ (eA :: qs []) (su 0)) with tbs := { tb := 100000 } }
def x2_6 : Edge := eA
def x3_6 : List Edge := []
theorem witness :
    ((w0.pwr.pdUp = true) ∧ ((w0.chan (5 : Fin 64)).o.queue = x2_0 :: x3_0) ∧ (w0.headCompared (5 : Fin 64) = true) ∧ (x2_0.kind = (1 : BitVec 2)) ∧ (reached w0.tb x2_0.tgt = true)) ∧
    ((w0.pwr.pdUp = true) ∧ ((w0.chan (5 : Fin 64)).o.queue = x2_0 :: x3_0) ∧ (x2_0.kind ≠ (2 : BitVec 2) ∨ Option.any (fun pos => posReached pos (BitVec.setWidth 32 x2_0.tgt)) (w0.domPos x2_0.dom) = false ∨ w0.headCompared (5 : Fin 64) = false)) ∧
    ((w2.pwr.pdUp = true) ∧ ((w2.chan (5 : Fin 64)).o.queue = x2_2 :: x3_2) ∧ (x2_2.kind ≠ (1 : BitVec 2) ∨ reached w2.tb x2_2.tgt = false ∨ w2.headCompared (5 : Fin 64) = false)) ∧
    ((w6.pwr.pdUp = true) ∧ ((w6.chan (5 : Fin 64)).o.queue = x2_6 :: x3_6) ∧ (w6.headCompared (5 : Fin 64) = true) ∧ (x2_6.kind = (2 : BitVec 2)) ∧ (Option.any (fun pos => posReached pos (BitVec.setWidth 32 x2_6.tgt)) (w6.domPos x2_6.dom) = true)) := by
  (repeat' apply And.intro) <;> first | decide +kernel | (unfold MemCanonical; decide +kernel)
end EdgesFire

/-! ### ClearingCauses -/
namespace ClearingCauses
def w0 : State := (su 35)
def w1 : State := dn ((su 35))
def w4 : State := CH 9 (fun c => { c with o := { c.o with ocfg := 0x10 } }) (AD 0 (fun a => { a with st := .lost }) (su 39))
def w7 : State := { (su 4) with afe := { (su 4).afe with itrip := vset (su 4).afe.itrip 2 (fun _ => ({ cfg := 2, latch := true } : Itrip)) } }
theorem witness :
    ((w0.pwr.pdUp = true) ∧ ((w0.chan (9 : Fin 64)).o.domain = 0 ∨ w0.domLocked (BitVec.ofNat 2 ((w0.chan (9 : Fin 64)).o.domain - 1)) = true)) ∧
    ((w0.pwr.pdUp = true) ∧ (w0.tripLatch (1 : Fin 8) = false)) ∧
    ((w1.pwr.pdUp = false)) ∧
    ((w4.pwr.pdUp = true) ∧ ((w4.chan (9 : Fin 64)).o.domain ≠ 0) ∧ (w4.domLocked (BitVec.ofNat 2 ((w4.chan (9 : Fin 64)).o.domain - 1)) = false)) ∧
    ((w7.pwr.pdUp = true) ∧ (w7.tripLatch (1 : Fin 8) = true)) := by
  (repeat' apply And.intro) <;> first | decide +kernel | (unfold MemCanonical; decide +kernel)
end ClearingCauses

/-! ### ReadbackAndReadmit -/
namespace ReadbackAndReadmit
def w0 : State := drv (su 0)
def w2 : State := (su 48)
def w5 : State := go1 (CHG 2 (fun c => {c with c := {c.c with run := false}}) (su 51))
theorem witness :
    ((w0.pwr.pdUp = true) ∧ ((bit (w0.chan (20 : Fin 64)).o.ocfg 9 && w0.intended (20 : Fin 64) != Level.released && Decidable.decide (fld (w0.chan (20 : Fin 64)).o.ocfg 15 10 + (w0.chan (20 : Fin 64)).o.chgAt ≤ w0.time)) = true) ∧ ((w0.chan (20 : Fin 64)).o.chgAt ≤ w0.time)) ∧
    ((w0.pwr.pdUp = true) ∧ (∀ (k : Fin 8), bit (w0.chan (State.chanOf (State.groveOf (20 : Fin 64)) k)).o.clr 9 = false)) ∧
    ((w2.pwr.pdUp = true) ∧ ((bit (w2.chan (20 : Fin 64)).o.ocfg 9 && w2.intended (20 : Fin 64) != Level.released && Decidable.decide (fld (w2.chan (20 : Fin 64)).o.ocfg 15 10 + (w2.chan (20 : Fin 64)).o.chgAt ≤ w2.time)) = false) ∧ ((w2.chan (20 : Fin 64)).o.chgAt ≤ w2.time)) ∧
    ((w5.pwr.pdUp = true) ∧ (∃ k, bit (w5.chan (State.chanOf (State.groveOf (20 : Fin 64)) k)).o.clr 9 = true)) := by
  (repeat' apply And.intro) <;> first | decide +kernel | (unfold MemCanonical; decide +kernel)
end ReadbackAndReadmit

/-! ### OutputConfigurationWrites -/
namespace OutputConfigurationWrites
def w0 : State := (su 55)
def w1 : State := dn ((su 55))
theorem witness :
    ((w0.pwr.pdUp = true) ∧ ((20 : Fin 64).val % 2 = 0)) ∧
    ((w1.pwr.pdUp = false)) ∧
    (((21 : Fin 64).val % 2 = 1)) := by
  (repeat' apply And.intro) <;> first | decide +kernel | (unfold MemCanonical; decide +kernel)
end OutputConfigurationWrites
end W05

namespace W06a
def CAL (s : State) : State := { s with tt := { s.tt with cal := [(2, { st := .ready, keysel := 2 })] } }
def win (c : BitVec 12) (stt : AdState) (pr : BitVec 32) (pi : Nat) (s : State) : State := AD 1 (fun a => { a with ctl := c, wheel := 0x0180003A, pitch := pi, st := stt, pred := pr, slow := 5000, sync := 0x02C04040, k := {a.k with exitAt := none, count := 1, tau := some 1000, gap := none }}) { s with tbs := { tb := 100000 } }

/-! ### DomainExits -/
namespace DomainExits
def w0 : State := CAL (AD 1 (fun a => { a with st := .locked, k := {a.k with exitAt := none }}) (su 10))
def w1 : State := dn (CAL (AD 1 (fun a => { a with st := .locked, k := {a.k with exitAt := none }}) (su 10)))
def w3 : State := AD 1 (fun a => { a with st := .search, k := {a.k with exitAt := none }}) (su 13)
def w9 : State := win 5 .locked 100 3 (su 0)
def w10 : State := win 5 .locked 6000 3 (su 0)
def w11 : State := win 1 .locked 100 57 (su 0)
def w12 : State := win 5 .candidate 100 3 (su 0)
def w13 : State := AD 1 (fun a => { a with k := { a.k with syncDue := true } }) (CH 0 (fun c => { c with o := { c.o with ocfg := 0x22 } }) (su 3))
theorem witness_1 :
    ((w0.pwr.pdUp = true) ∧ (w0.exitedNow (1 : Fin 3) = false) ∧ (∀ p ∈ w0.cyc.exits, p.1 ≠ (1 : Fin 3)) ∧ ((w0.ad (1 : Fin 3)).st = AdState.locked)) ∧
    ((w0.pwr.pdUp = true) ∧ (w0.exitedNow (1 : Fin 3) = false) ∧ (∀ p ∈ w0.cyc.exits, p.1 ≠ (1 : Fin 3)) ∧ ((w0.ad (1 : Fin 3)).windowOver w0.tb = false)) ∧
    ((w1.pwr.pdUp = false)) ∧
    ((w3.pwr.pdUp = true) ∧ (w3.exitedNow (1 : Fin 3) = false) ∧ (∀ p ∈ w3.cyc.exits, p.1 ≠ (1 : Fin 3)) ∧ ((w3.ad (1 : Fin 3)).st ≠ AdState.locked)) ∧
    ((w9.pwr.pdUp = true) ∧ (w9.exitedNow (1 : Fin 3) = false) ∧ (∀ p ∈ w9.cyc.exits, p.1 ≠ (1 : Fin 3)) ∧ ((w9.ad (1 : Fin 3)).st = AdState.locked) ∧ ((w9.ad (1 : Fin 3)).windowOver w9.tb = true) ∧ (¬((w9.ad (1 : Fin 3)).scheme = 0 ∧ (w9.ad (1 : Fin 3)).pitch + 1 = (w9.ad (1 : Fin 3)).pitches ∧ ((w9.ad (1 : Fin 3)).k.gap = Option.none ∨ (w9.ad (1 : Fin 3)).k.gapHeld = true))) ∧ (BitVec.toNat (w9.ad (1 : Fin 3)).pred * (256 + (w9.ad (1 : Fin 3)).whi) < BitVec.toNat (w9.ad (1 : Fin 3)).slow * 256)) ∧
    ((w10.pwr.pdUp = true) ∧ (w10.exitedNow (1 : Fin 3) = false) ∧ (∀ p ∈ w10.cyc.exits, p.1 ≠ (1 : Fin 3)) ∧ ((w10.ad (1 : Fin 3)).st = AdState.locked) ∧ ((w10.ad (1 : Fin 3)).windowOver w10.tb = true) ∧ (¬((w10.ad (1 : Fin 3)).scheme = 0 ∧ (w10.ad (1 : Fin 3)).pitch + 1 = (w10.ad (1 : Fin 3)).pitches ∧ ((w10.ad (1 : Fin 3)).k.gap = Option.none ∨ (w10.ad (1 : Fin 3)).k.gapHeld = true))) ∧ (BitVec.toNat (w10.ad (1 : Fin 3)).slow * 256 ≤ BitVec.toNat (w10.ad (1 : Fin 3)).pred * (256 + (w10.ad (1 : Fin 3)).whi))) ∧
    ((w11.pwr.pdUp = true) ∧ (w11.exitedNow (1 : Fin 3) = false) ∧ (∀ p ∈ w11.cyc.exits, p.1 ≠ (1 : Fin 3)) ∧ ((w11.ad (1 : Fin 3)).st = AdState.locked) ∧ ((w11.ad (1 : Fin 3)).windowOver w11.tb = true) ∧ ((w11.ad (1 : Fin 3)).scheme = 0 ∧ (w11.ad (1 : Fin 3)).pitch + 1 = (w11.ad (1 : Fin 3)).pitches ∧ ((w11.ad (1 : Fin 3)).k.gap = Option.none ∨ (w11.ad (1 : Fin 3)).k.gapHeld = true))) ∧
    ((w12.pwr.pdUp = true) ∧ (w12.exitedNow (1 : Fin 3) = false) ∧ (∀ p ∈ w12.cyc.exits, p.1 ≠ (1 : Fin 3)) ∧ ((w12.ad (1 : Fin 3)).st = AdState.candidate) ∧ ((w12.ad (1 : Fin 3)).windowOver w12.tb = true)) := by
  (repeat' apply And.intro) <;> first | decide +kernel | (unfold MemCanonical; decide +kernel)
theorem witness_2 :
    ((w13.ad (1 : Fin 3)).k.syncDue = true) ∧ ((w13.chan (Fin.ofNat 64 0)).o.domain = (1 : Fin 3).val + 1) := by
  (repeat' apply And.intro) <;> first | decide +kernel | (unfold MemCanonical; decide +kernel)
end DomainExits

/-! ### HallChangesAndTriggers -/
namespace HallChangesAndTriggers
def w0 : State := (su 25)
def w4 : State := AD 1 (fun a => { a with st := .locked, atrig := .replicate 4 0x80000007, trigDue := .replicate 4 (a.position 100000), k := {a.k with tau := some 100, rate := 5000000, exitAt := none } }) {((su 29)) with tbs := { tb := 100000 } }
def w5 : State := AD 1 (fun a => { a with st := .search, ctl := 0x0D, hall := 0x2CC99, sector := 2, k := {a.k with levels := 2, sectorKnown := true, tau := none, exitAt := none } }) {((su 30)) with tbs := { tb := 100000 } }
theorem witness :
    ((w0.pwr.pdUp = false ∨ (w0.ad (1 : Fin 3)).st = AdState.off ∨ bit (w0.ad (1 : Fin 3)).k.levels (2 : Fin 3).val = true)) ∧
    ((w0.pwr.pdUp = false ∨ (w0.ad (1 : Fin 3)).st ≠ AdState.locked ∨ bit (at_ (w0.ad (1 : Fin 3)).atrig (3 : Fin 4)) 31 = false)) ∧
    ((w4.pwr.pdUp = true) ∧ ((w4.ad (1 : Fin 3)).st = AdState.locked) ∧ (bit (at_ (w4.ad (1 : Fin 3)).atrig (3 : Fin 4)) 31 = true) ∧ (posReached ((w4.ad (1 : Fin 3)).position w4.tb) (at_ (w4.ad (1 : Fin 3)).trigDue (3 : Fin 4)) = true)) ∧
    ((w5.pwr.pdUp = true) ∧ ((w5.ad (1 : Fin 3)).st ≠ AdState.off) ∧ ((w5.ad (1 : Fin 3)).scheme = 3) ∧ (bit (w5.ad (1 : Fin 3)).k.levels (2 : Fin 3).val ≠ true) ∧ ((w5.ad (1 : Fin 3)).k.sectorKnown = true) ∧ ((w5.ad (1 : Fin 3)).sectorOf (if true = true then (w5.ad (1 : Fin 3)).k.levels ||| oneBit 3 (2 : Fin 3).val else (w5.ad (1 : Fin 3)).k.levels &&& ~~~oneBit 3 (2 : Fin 3).val).toNat = Option.some (3 : Fin 6)) ∧ ((3 : Fin 6).val = ((↑(w5.ad (1 : Fin 3)).sector : Nat) + 1) % 6 ∨ ((3 : Fin 6).val + 1) % 6 = (↑(w5.ad (1 : Fin 3)).sector : Nat))) := by
  (repeat' apply And.intro) <;> first | decide +kernel | (unfold MemCanonical; decide +kernel)
end HallChangesAndTriggers
end W06a

namespace W06b
def PLm (k : Fin 2) (f : Checker → Checker) (s : State) : State := { s with pls := vset s.pls k f }

/-! ### DomainEnable -/
namespace DomainEnable
def w0 : State := (su 1)
def w1 : State := dn ((su 1))
def w3 : State := B (fun b => {b with locked := false}) (AD 1 (fun a => {a with ctl := 0x41}) (su 4))
def w9 : State := B (fun b => {b with locked := false}) (AD 1 (fun a => {a with ctl := 0x41}) (su 0))
def w14 : State := AD 1 (fun a => {a with ctl := 0x40, govClr := 1, gov := 0x1000, wheel := 0x0180003A}) (su 3)
def w15 : State := AD 1 (fun a => {a with k := { a.k with begins := true } }) (su 3)
theorem witness :
    ((w0.pwr.pdUp = true) ∧ (w0.boot.locked = false) ∧ ((w0.ad (1 : Fin 3)).en = false) ∧ (({ w0.ad (1 : Fin 3) with ctl := BitVec.setWidth 12 ((65 : Word) ||| (1 : Word)) &&& (4093 : BitVec 12) } : AngleDom).badConfig = true)) ∧
    ((w1.boot.locked = true ∨ w1.pwr.pdUp = false)) ∧
    ((w3.pwr.pdUp = true) ∧ (w3.boot.locked = false) ∧ ((w3.ad (1 : Fin 3)).en = true) ∧ (BitVec.setWidth 12 ((65 : Word) ||| (1 : Word)) &&& (4093 : BitVec 12) = (w3.ad (1 : Fin 3)).ctl ||| (1 : BitVec 12))) ∧
    ((w9.pwr.pdUp = true) ∧ (w9.boot.locked = false) ∧ ((w9.ad (1 : Fin 3)).en = true) ∧ (BitVec.setWidth 12 ((69 : Word) ||| (1 : Word)) &&& (4093 : BitVec 12) ≠ (w9.ad (1 : Fin 3)).ctl ||| (1 : BitVec 12))) ∧
    ((w14.pwr.pdUp = true) ∧ (w14.boot.locked = false) ∧ ((w14.ad (1 : Fin 3)).en = false) ∧ (({ w14.ad (1 : Fin 3) with ctl := BitVec.setWidth 12 ((65 : Word) ||| (1 : Word)) &&& (4093 : BitVec 12) } : AngleDom).badConfig = false)) ∧
    (((w15.ad (1 : Fin 3)).k.begins = true)) := by
  (repeat' apply And.intro) <;> first | decide +kernel | (unfold MemCanonical; decide +kernel)
end DomainEnable

/-! ### CheckerControl -/
namespace CheckerControl
def w0 : State := (su 20)
def w1 : State := dn ((su 20))
def w6 : State := PLm 1 (fun p => {p with trip := true, ctl := 0x1103 }) (AD 1 (fun a => { a with st := .lost, fenced := false }) (su 26))
theorem witness :
    ((w0.pwr.pdUp = true) ∧ (w0.boot.locked = false)) ∧
    ((w0.pwr.pdUp = false ∨ (w0.pl (1 : Fin 2)).trip = false ∨ w0.w1c (17936 + 32 * (1 : Fin 2).val) (1 : Word) = (0 : Word))) ∧
    ((w1.boot.locked = true ∨ w1.pwr.pdUp = false)) ∧
    ((w6.pwr.pdUp = true) ∧ ((w6.pl (1 : Fin 2)).trip = true) ∧ (w6.w1c (17936 + 32 * (1 : Fin 2).val) (1 : Word) ≠ (0 : Word))) := by
  (repeat' apply And.intro) <;> first | decide +kernel | (unfold MemCanonical; decide +kernel)
end CheckerControl
end W06b

namespace W07
def cn (s : State) : State := { s with tsi := { s.tsi with conn := [] }, sc := { s.sc with recs := [(7, { bind := 0x80000000, rights := 0xFFFFFFFF, quota := 0x01000004 })] } }
def cal (l : List (Nat × CalEntry)) (s : State) : State := cn { s with tt := { s.tt with cal := l } }
def tb (n : Nat) (s : State) : State := { s with tbs := { run := true, tb := BitVec.ofNat 48 n } }
def aw (s : State) : State := cal [(3, { st := .waiting, owner := 7, key := 0x999 }), (4, { st := .free, key := 0x500000, arg := 9 }), (9, { st := .ready, owner := 8, key := 0x333 }), (1020, { st := .free, key := 0x500000, arg := 9 })] (tb 0x1000 s)
def dl (b1 b2 : Bool) (s : State) : State := cal ((if b1 then [(3, { st := .waiting, owner := 7, key := 0x999, dueAt := 0x999 })] else []) ++ (if b2 then [(4, { st := .waiting, owner := 7, key := 0x888, dueAt := 0x888 })] else [])  ++ [(9, { st := .ready, owner := 8, key := 0x333, dueAt := 0x333 }), (12, { st := .waiting, owner := 8, key := 0x1333, dueAt := 0x1333 })]) (tb 0x1000 s)
def idleS (s : State) : State := { s with boot := { s.boot with applied := true }, pwr := { s.pwr with st := .run }, me := { s.me with en := true, st := .idle, frames := [], trapWin := none } }

/-! ### CalendarWrites -/
namespace CalendarWrites
def w0 : State := aw (su 3)
def w1 : State := dn (aw (su 3))
def w3 : State := aw (su 3)
def w4 : State := aw (su 3)
def w5 : State := aw (su 3)
def w7 : State := aw (su 3)
def w9 : State := aw (su 3)
def w14 : State := Y (fun c => { c with lastFree := some 3 }) (aw (su 3))
def w15 : State := Y (fun c => { c with selected := [4] }) (aw (su 3))
theorem witness_1 :
    ((TablesCanonical w0) ∧ (w0.pwr.pdUp = true) ∧ ((w0.calEntry (4 : Fin 1024).val).st = CalState.free ∧ (4 : Fin 1024).val ∉ w0.cyc.selected) ∧ (w0.keyStatus (hi16 (w0.calEntry (4 : Fin 1024).val).key) (2625638919 : Word) = 0) ∧ ((4 : Fin 1024).val < 1016) ∧ (w0.overQuota (if (0 : Fin 256) = (0 : Fin 256) then Fin.ofNat 256 (fld (2625638919 : Word) 7 0) else (0 : Fin 256)) = false)) ∧
    ((TablesCanonical w0) ∧ (w0.pwr.pdUp = true) ∧ ((w0.calEntry (4 : Fin 1024).val).st = CalState.free)) ∧
    ((TablesCanonical w1) ∧ (w1.pwr.pdUp = false)) ∧
    ((TablesCanonical w3) ∧ (w3.pwr.pdUp = true) ∧ ((w3.calEntry (4 : Fin 1024).val).st = CalState.free ∧ (4 : Fin 1024).val ∉ w3.cyc.selected) ∧ (w3.keyStatus (hi16 (w3.calEntry (4 : Fin 1024).val).key) (2147483657 : Word) = 0) ∧ ((4 : Fin 1024).val < 1016) ∧ (w3.overQuota (if (9 : Fin 256) = (0 : Fin 256) then Fin.ofNat 256 (fld (2147483657 : Word) 7 0) else (9 : Fin 256)) = true)) ∧
    ((TablesCanonical w4) ∧ (w4.pwr.pdUp = true) ∧ ((w4.calEntry (4 : Fin 1024).val).st = CalState.free ∧ (4 : Fin 1024).val ∉ w4.cyc.selected) ∧ (w4.keyStatus (hi16 (w4.calEntry (4 : Fin 1024).val).key) (2399141897 : Word) ≠ 0)) ∧
    ((TablesCanonical w5) ∧ (w5.pwr.pdUp = true) ∧ ((w5.calEntry (3 : Fin 1024).val).st ≠ CalState.free) ∧ (w5.cyc.lastFree ≠ Option.some (3 : Fin 1024).val)) ∧
    ((TablesCanonical w5) ∧ (w5.pwr.pdUp = true) ∧ ((w5.calEntry (3 : Fin 1024).val).st ≠ CalState.free) ∧ ((7 : Fin 256) = (0 : Fin 256) ∨ (w5.calEntry (3 : Fin 1024).val).owner = (7 : Fin 256))) ∧
    ((TablesCanonical w7) ∧ (w7.pwr.pdUp = true) ∧ ((w7.calEntry (1020 : Fin 1024).val).st = CalState.free ∧ (1020 : Fin 1024).val ∉ w7.cyc.selected) ∧ (w7.keyStatus (hi16 (w7.calEntry (1020 : Fin 1024).val).key) (2147483657 : Word) = 0) ∧ (1016 ≤ (1020 : Fin 1024).val)) := by
  (repeat' apply And.intro) <;> first | decide +kernel | (unfold MemCanonical; decide +kernel)
theorem witness_2 :
    ((TablesCanonical w9) ∧ (w9.pwr.pdUp = true) ∧ ((w9.calEntry (9 : Fin 1024).val).st ≠ CalState.free) ∧ ((7 : Fin 256) ≠ (0 : Fin 256)) ∧ ((w9.calEntry (9 : Fin 1024).val).owner ≠ (7 : Fin 256))) ∧
    ((TablesCanonical w14) ∧ (w14.pwr.pdUp = true) ∧ ((w14.calEntry (3 : Fin 1024).val).st ≠ CalState.free) ∧ (w14.cyc.lastFree = Option.some (3 : Fin 1024).val)) ∧
    ((TablesCanonical w15) ∧ (w15.pwr.pdUp = true) ∧ ((w15.calEntry (4 : Fin 1024).val).st = CalState.free) ∧ ((4 : Fin 1024).val ∈ w15.cyc.selected)) := by
  (repeat' apply And.intro) <;> first | decide +kernel | (unfold MemCanonical; decide +kernel)
end CalendarWrites

/-! ### DueEntriesBecomeReady -/
namespace DueEntriesBecomeReady
def w0 : State := dl true false (su 3)
def w1 : State := dn (dl true false (su 3))
theorem witness :
    ((TablesCanonical w0) ∧ (w0.pwr.pdUp = true) ∧ (w0.domPos (BitVec.ofNat 2 (0 : Fin 3).val) = Option.none)) ∧
    ((TablesCanonical w1) ∧ (w1.pwr.pdUp = false)) := by
  (repeat' apply And.intro) <;> first | decide +kernel | (unfold MemCanonical; decide +kernel)
end DueEntriesBecomeReady

/-! ### SweepCancelsFrozenEntries -/
namespace SweepCancelsFrozenEntries
def w0 : State := { (dl true true (su 3)) with tt := { (dl true true (su 3)).tt with sweeps := #v[some .drop, none, none] } }
def w1 : State := dn ({ (dl true true (su 3)) with tt := { (dl true true (su 3)).tt with sweeps := #v[some .drop, none, none] } })
theorem witness :
    ((TablesCanonical w0) ∧ (w0.pwr.pdUp = true) ∧ (at_ w0.tt.sweeps (0 : Fin 3) = Option.some SweepWhy.drop)) ∧
    ((TablesCanonical w1) ∧ (w1.pwr.pdUp = false ∨ at_ w1.tt.sweeps (0 : Fin 3) = Option.none)) := by
  (repeat' apply And.intro) <;> first | decide +kernel | (unfold MemCanonical; decide +kernel)
end SweepCancelsFrozenEntries

/-! ### DispatchOpensAWindow -/
namespace DispatchOpensAWindow
def w0 : State := dl true false (su 3)
def w2 : State := idleS (dl true false (su 3))
def x2_2 : CalEntry := ((dl true false (su 3)).calEntry 9)
theorem witness :
    ((TablesCanonical w0) ∧ (w0.boot.applied = false ∨ w0.me.en = false ∨ w0.me.trapWin ≠ Option.none ∨ w0.pwr.pdUp = false)) ∧
    ((TablesCanonical w2) ∧ (w2.pwr.pdUp = true) ∧ (w2.mayDispatch = true) ∧ (w2.me.st = MeState.idle) ∧ (w2.bestCand = Option.some (Cand.entry 9 x2_2)) ∧ (w2.calEntry 9 = x2_2) ∧ (9 < 1024) ∧ (w2.me.frames.length < 15)) := by
  (repeat' apply And.intro) <;> first | decide +kernel | (unfold MemCanonical; decide +kernel)
end DispatchOpensAWindow

/-! ### EngineRegisterWrites -/
namespace EngineRegisterWrites
def w0 : State := { su 3 with me := { (su 3).me with st := .running } }
def w2 : State := (su 46)
theorem witness :
    ((w0.pwr.pdUp = false ∨ w0.boot.locked = true ∨ 256 < fld (7 : Word) 7 0 + if fld (7 : Word) 23 16 = 0 then 256 else fld (7 : Word) 23 16)) ∧
    ((w0.pwr.pdUp = false ∨ w0.me.st ≠ MeState.stopped ∧ w0.me.st ≠ MeState.fenced)) ∧
    ((w2.pwr.pdUp = true) ∧ (w2.boot.locked = false) ∧ ((fld (8388736 : Word) 7 0 + if fld (8388736 : Word) 23 16 = 0 then 256 else fld (8388736 : Word) 23 16) ≤ 256)) ∧
    ((w2.pwr.pdUp = true) ∧ (w2.me.st = MeState.stopped ∨ w2.me.st = MeState.fenced)) := by
  (repeat' apply And.intro) <;> first | decide +kernel | (unfold MemCanonical; decide +kernel)
end EngineRegisterWrites
end W07

namespace W08a
def fr (k : Nat) (regs : Nat → Word) : Frame := { w := Vector.ofFn fun i => regs i.val, flags := BitVec.ofNat 4 k, pc := 5, desc := 0x00070000, win := 3, uid := 9 }
def vals : Nat → Nat → Word := fun seed i => match (seed + i * 3) % 9 with | 0 => 0 | 1 => 0xFFFFFFFF | 2 => 0x80000000 | 3 => 0x7FFFFFFF | 4 => 5 | 5 => 33 | 6 => 32 | 7 => 0x12345678 | _ => 0x80000001
def eng (seed : Nat) (i : MeInstr) (s : State) : State :=
  { s with pwr := { s.pwr with st := .run }, me := { s.me with st := .running, trapWin := none, frames := [fr seed (vals seed)], store := [(5, i.encode)], storeErr := [], outbox := [], results := [], g := Vector.ofFn fun i => vals (seed + 4) i.val } }

/-! ### ArithmeticInstructions -/
namespace ArithmeticInstructions
def w0 : State := eng 0 (.alu .add 8 9 10) (su 0)
def w5 : State := eng 1 (.alu .adc 8 9 10) (su 1)
def w9 : State := eng 2 (.alu .sub 8 9 10) (su 2)
def w13 : State := eng 3 (.alu .sbc 8 9 10) (su 3)
def w17 : State := eng 4 (.alu .and 8 9 10) (su 4)
def w21 : State := eng 5 (.alu .or 8 9 10) (su 5)
def w25 : State := eng 6 (.alu .xor 8 9 10) (su 6)
def w29 : State := eng 7 (.alu .andn 8 9 10) (su 7)
def w33 : State := eng 8 (.alu .shl 8 9 10) (su 8)
def w37 : State := eng 9 (.alu .shr 8 9 10) (su 9)
def w41 : State := eng 10 (.alu .sar 8 9 10) (su 10)
def w45 : State := eng 11 (.alu .mul 8 9 10) (su 11)
def w49 : State := eng 12 (.alu .mulhu 8 9 10) (su 12)
def w53 : State := eng 13 (.alu .divu 8 9 10) (su 13)
def w57 : State := eng 14 (.alu .remu 8 9 10) (su 14)
def w61 : State := eng 15 (.alu .minu 8 9 10) (su 15)
def w65 : State := eng 16 (.alu .maxu 8 9 10) (su 16)
def w69 : State := eng 17 (.alu .cmp 0 9 10) (su 17)
def w73 : State := eng 18 (.alu .tst 0 9 10) (su 18)
def w77 : State := eng 19 (.alu .mov 8 9 0) (su 19)
def w81 : State := eng 0 (.imm .addi 8 9 262143) (su 0)
def w84 : State := eng 1 (.imm .andi 8 9 262143) (su 1)
def w87 : State := eng 2 (.imm .ori 8 9 262143) (su 2)
def w90 : State := eng 3 (.imm .xori 8 9 262143) (su 3)
def w93 : State := eng 4 (.imm .shli 8 9 0) (su 4)
def w96 : State := eng 5 (.imm .shri 8 9 0) (su 5)
def w99 : State := eng 6 (.imm .sari 8 9 0) (su 6)
def w102 : State := eng 7 (.imm .cmpi 0 9 262143) (su 7)
def w105 : State := eng 8 (.imm .tsti 0 9 262143) (su 8)
def w108 : State := eng 1 (.movi 8 0x3FFFF) (su 3)
def w109 : State := eng 1 (.movhi 8 0xF007) (su 3)
theorem witness_1 :
    ((w0.Issues (MeInstr.alu AluOp.add (8 : Fin 16) (9 : Fin 16) (10 : Fin 16)))) ∧
    ((w5.Issues (MeInstr.alu AluOp.adc (8 : Fin 16) (9 : Fin 16) (10 : Fin 16)))) ∧
    ((w9.Issues (MeInstr.alu AluOp.sub (8 : Fin 16) (9 : Fin 16) (10 : Fin 16)))) ∧
    ((w13.Issues (MeInstr.alu AluOp.sbc (8 : Fin 16) (9 : Fin 16) (10 : Fin 16)))) ∧
    ((w17.Issues (MeInstr.alu AluOp.and (8 : Fin 16) (9 : Fin 16) (10 : Fin 16)))) ∧
    ((w21.Issues (MeInstr.alu AluOp.or (8 : Fin 16) (9 : Fin 16) (10 : Fin 16)))) ∧
    ((w25.Issues (MeInstr.alu AluOp.xor (8 : Fin 16) (9 : Fin 16) (10 : Fin 16)))) ∧
    ((w29.Issues (MeInstr.alu AluOp.andn (8 : Fin 16) (9 : Fin 16) (10 : Fin 16)))) := by
  (repeat' apply And.intro) <;> first | decide +kernel | (unfold MemCanonical; decide +kernel)
theorem witness_2 :
    ((w33.Issues (MeInstr.alu AluOp.shl (8 : Fin 16) (9 : Fin 16) (10 : Fin 16)))) ∧
    ((w37.Issues (MeInstr.alu AluOp.shr (8 : Fin 16) (9 : Fin 16) (10 : Fin 16)))) ∧
    ((w41.Issues (MeInstr.alu AluOp.sar (8 : Fin 16) (9 : Fin 16) (10 : Fin 16)))) ∧
    ((w45.Issues (MeInstr.alu AluOp.mul (8 : Fin 16) (9 : Fin 16) (10 : Fin 16)))) ∧
    ((w49.Issues (MeInstr.alu AluOp.mulhu (8 : Fin 16) (9 : Fin 16) (10 : Fin 16)))) ∧
    ((w53.Issues (MeInstr.alu AluOp.divu (8 : Fin 16) (9 : Fin 16) (10 : Fin 16)))) ∧
    ((w57.Issues (MeInstr.alu AluOp.remu (8 : Fin 16) (9 : Fin 16) (10 : Fin 16)))) ∧
    ((w61.Issues (MeInstr.alu AluOp.minu (8 : Fin 16) (9 : Fin 16) (10 : Fin 16)))) := by
  (repeat' apply And.intro) <;> first | decide +kernel | (unfold MemCanonical; decide +kernel)
theorem witness_3 :
    ((w65.Issues (MeInstr.alu AluOp.maxu (8 : Fin 16) (9 : Fin 16) (10 : Fin 16)))) ∧
    ((w69.Issues (MeInstr.alu AluOp.cmp (0 : Fin 16) (9 : Fin 16) (10 : Fin 16)))) ∧
    ((w73.Issues (MeInstr.alu AluOp.tst (0 : Fin 16) (9 : Fin 16) (10 : Fin 16)))) ∧
    ((w77.Issues (MeInstr.alu AluOp.mov (8 : Fin 16) (9 : Fin 16) (0 : Fin 16)))) ∧
    ((w81.Issues (MeInstr.imm ImmOp.addi (8 : Fin 16) (9 : Fin 16) (262143 : BitVec 18)))) ∧
    ((w84.Issues (MeInstr.imm ImmOp.andi (8 : Fin 16) (9 : Fin 16) (262143 : BitVec 18)))) ∧
    ((w87.Issues (MeInstr.imm ImmOp.ori (8 : Fin 16) (9 : Fin 16) (262143 : BitVec 18)))) ∧
    ((w90.Issues (MeInstr.imm ImmOp.xori (8 : Fin 16) (9 : Fin 16) (262143 : BitVec 18)))) := by
  (repeat' apply And.intro) <;> first | decide +kernel | (unfold MemCanonical; decide +kernel)
theorem witness_4 :
    ((w93.Issues (MeInstr.imm ImmOp.shli (8 : Fin 16) (9 : Fin 16) (BitVec.ofNat 18 (0 : Fin 32).val)))) ∧
    ((w96.Issues (MeInstr.imm ImmOp.shri (8 : Fin 16) (9 : Fin 16) (BitVec.ofNat 18 (0 : Fin 32).val)))) ∧
    ((w99.Issues (MeInstr.imm ImmOp.sari (8 : Fin 16) (9 : Fin 16) (BitVec.ofNat 18 (0 : Fin 32).val)))) ∧
    ((w102.Issues (MeInstr.imm ImmOp.cmpi (0 : Fin 16) (9 : Fin 16) (262143 : BitVec 18)))) ∧
    ((w105.Issues (MeInstr.imm ImmOp.tsti (0 : Fin 16) (9 : Fin 16) (262143 : BitVec 18)))) ∧
    ((w108.Issues (MeInstr.movi (8 : Fin 16) (262143 : BitVec 18)))) ∧
    ((w109.Issues (MeInstr.movhi (8 : Fin 16) (61447 : BitVec 16)))) := by
  (repeat' apply And.intro) <;> first | decide +kernel | (unfold MemCanonical; decide +kernel)
end ArithmeticInstructions
end W08a

namespace W08b
def fr (k : Nat) (regs : Nat → Word) : Frame := { w := Vector.ofFn fun i => regs i.val, flags := BitVec.ofNat 4 k, pc := 5, desc := 0x00070000, win := 3, uid := 9 }
def frO (o : Nat) (regs : Nat → Word) : Frame := { fr 3 regs with desc := BitVec.ofNat 32 (o * 65536) }
def engF (fs : List Frame) (i : MeInstr) (s : State) : State :=
  { s with pwr := { s.pwr with st := .run }, sc := { s.sc with recs := [(7, { bind := 0x80000000, rights := 0xFFFFFFFF, grant := 0xFFFFFFFFFFFFFFFF })] }, me := { s.me with st := .running, trapWin := none, frames := fs, store := [(5, i.encode)], storeErr := [], outbox := [], results := [], hen := true, trapLive := true, spilled := 0 } }
def bankOn (cells : List Host.Cell) (s : State) : State := { s with mem := { s.mem with cells := cells, errs := [], banks := .replicate 8 { st := .on }, lock := none }, cw := .replicate 16 {} }
def cells0 : List Host.Cell := [(0x20000, 0x81), (0x20001, 0x92), (0x20002, 0xA3), (0x20003, 0xF4)]
def rg (a b : Word) : Nat → Word := fun i => if i = 0 then a else if i = 1 then b else BitVec.ofNat 32 (i * 0x11111111)
def ldG : State := engF [frO 0 (rg 0 5)] (.load .ldw 9 8 0) (su 3)
def curA : Frame := { fr 3 (rg 1 2) with called := true }
def curB : Frame := { fr 9 (rg 3 4) with win := 15, uid := 10 }
def curC : Frame := { fr 5 (rg 5 6) with win := 14, uid := 11 }
def rest14 : List Frame := List.replicate 14 curC
def noCand (s : State) : State := { s with tt := { s.tt with cal := [], reqs := [] } }

/-! ### DataAccessInstructions -/
namespace DataAccessInstructions
def w0 : State := ldG
def w2 : State := bankOn cells0 (engF [frO 0 (rg 131073 5)] (.load .ldw 9 8 262143) (su 3))
def w14 : State := bankOn cells0 (engF [frO 0 (rg 0x20004 5)] (.store .stw 9 8 262140) (su 3))
def w17 : State := bankOn cells0 (engF [frO 0 (rg 0x20000 0xF0F0)] (.atom .xadd false 10 8 9) (su 3))
def w18 : State := bankOn cells0 (engF [frO 0 (rg 0x20000 0xF0F0)] (.atom .xadd true 10 3 9) (su 3))
theorem witness :
    ((w0.Issues (MeInstr.load LdOp.ldw (9 : Fin 16) (8 : Fin 16) (0 : BitVec 18))) ∧ (w0.addrTrap (w0.reg (8 : Fin 16) + BitVec.signExtend 32 (0 : BitVec 18)) 2 false = Option.none) ∧ (isMemAddr (BitVec.toNat (w0.reg (8 : Fin 16) + BitVec.signExtend 32 (0 : BitVec 18))) = false) ∧ (w0.permits w0.meOwner (BitVec.toNat (w0.reg (8 : Fin 16) + BitVec.signExtend 32 (0 : BitVec 18))) false (0 : Word) = true) ∧ (w0.me.outbox = []) ∧ (w0.regRead (BitVec.toNat (w0.reg (8 : Fin 16) + BitVec.signExtend 32 (0 : BitVec 18))) = Option.some ((104902656 : Word), ldG))) ∧
    ((w2.Issues (MeInstr.load LdOp.ldw (9 : Fin 16) (8 : Fin 16) (262143 : BitVec 18))) ∧ (isMemAddr (BitVec.toNat (w2.reg (8 : Fin 16) + BitVec.signExtend 32 (262143 : BitVec 18))) = true) ∧ (BitVec.toNat (w2.reg (8 : Fin 16) + BitVec.signExtend 32 (262143 : BitVec 18)) % 2 ^ LdOp.ldw.size = 0) ∧ (w2.resolve (BitVec.toNat (w2.reg (8 : Fin 16) + BitVec.signExtend 32 (262143 : BitVec 18))) = Option.some 131072) ∧ ((w2.bank (bankOf 131072)).st = BankState.on ∧ (w2.bank (bankOf 131072)).recov = false ∧ cellRead 0 w2.mem.errs ((131072 / 4 : Nat) * 4) = 0) ∧ (w2.permits w2.meOwner (BitVec.toNat (w2.reg (8 : Fin 16) + BitVec.signExtend 32 (262143 : BitVec 18))) false (0 : Word) = true) ∧ (bankOf ((131072 / 4 : Nat) * 4) = bankOf 131072) ∧ (w2.me.outbox = [])) ∧
    ((w14.Issues (MeInstr.store StOp.stw (9 : Fin 16) (8 : Fin 16) (262140 : BitVec 18))) ∧ (w14.addrTrap (w14.reg (8 : Fin 16) + BitVec.signExtend 32 (262140 : BitVec 18)) StOp.stw.size true = Option.none) ∧ (w14.permits w14.meOwner (BitVec.toNat (w14.reg (8 : Fin 16) + BitVec.signExtend 32 (262140 : BitVec 18))) true (w14.reg (9 : Fin 16)) = true)) ∧
    ((w17.Issues (MeInstr.atom AtomOp.xadd false (10 : Fin 16) (8 : Fin 16) (9 : Fin 16))) ∧ (isMemAddr (BitVec.toNat (w17.reg (8 : Fin 16))) = true) ∧ (BitVec.toNat (w17.reg (8 : Fin 16)) % 4 = 0) ∧ (w17.resolve (BitVec.toNat (w17.reg (8 : Fin 16))) = Option.some 131072) ∧ (131072 % 4 = 0) ∧ ((w17.bank (bankOf 131072)).st = BankState.on ∧ (w17.bank (bankOf 131072)).recov = false ∧ cellRead 0 w17.mem.errs ((131072 / 4 : Nat) * 4) = 0) ∧ (w17.inSpill 131072 = false) ∧ (w17.mem.lock = Option.none) ∧ (w17.me.outbox = []) ∧ (w17.permits w17.meOwner (BitVec.toNat (w17.reg (8 : Fin 16))) true (w17.reg (9 : Fin 16)) = true) ∧ (w17.permits w17.meOwner (BitVec.toNat (w17.reg (8 : Fin 16))) false (0 : Word) = true)) ∧
    ((w18.Issues (MeInstr.atom AtomOp.xadd true (10 : Fin 16) (3 : Fin 16) (9 : Fin 16))) ∧ ((3 : Fin 16).val < 8)) := by
  (repeat' apply And.intro) <;> first | decide +kernel | (unfold MemCanonical; decide +kernel)
end DataAccessInstructions

/-! ### ControlFlowInstructions -/
namespace ControlFlowInstructions
def w0 : State := engF [{ fr 0 (rg 1 2) with called := true }] (.b 0 77) (su 3)
def w21 : State := engF [curA] (.jr 9) (su 3)
def w22 : State := engF [curA] .nop (su 3)
def w23 : State := engF [curA] (.call 77) (su 3)
def w25 : State := { (bankOn cells0 (engF (curA :: rest14) (.call 77) (su 3))) with me := { (engF (curA :: rest14) (.call 77) (su 3)).me with spilled := 2, spillFrames := 9, spillBase := 3 } }
def w26 : State := engF [curA, curB] .ret (su 3)
def w29 : State := { (bankOn [(0x34000, 5), (0x34020, 0xFF), (0x34021, 0xFF)] (engF [curA] .ret (su 3))) with me := { (engF [curA] .ret (su 3)).me with spilled := 1, spillFrames := 9, spillBase := 0 } }
def w30 : State := noCand (engF [curB] .yield (su 3))
theorem witness :
    ((w0.Issues (MeInstr.b (0 : Fin 16) (77 : BitVec 13))) ∧ ((0 : Fin 16) ≠ (15 : Fin 16))) ∧
    ((w21.Issues (MeInstr.jr (9 : Fin 16)))) ∧
    ((w22.Issues MeInstr.nop)) ∧
    ((w23.Issues (MeInstr.call (77 : BitVec 13))) ∧ (w23.inTrap = false) ∧ (w23.me.frames = [curA]) ∧ (([] : List Frame).length < 14)) ∧
    ((w25.Issues (MeInstr.call (77 : BitVec 13))) ∧ (w25.inTrap = false) ∧ (w25.me.frames = curA :: rest14) ∧ (rest14.length = 14) ∧ (MemCanonical w25) ∧ (w25.me.spilled < w25.spillCap) ∧ ((w25.bank (5 : Fin 8)).st = BankState.on)) ∧
    ((w26.Issues MeInstr.ret) ∧ (w26.inTrap = false) ∧ (w26.me.frames = [curA, curB]) ∧ (curA.called = true)) ∧
    ((w29.Issues MeInstr.ret) ∧ (w29.inTrap = false) ∧ (w29.me.frames = [curA]) ∧ (curA.called = true) ∧ (w29.me.spilled = 0 + 1) ∧ (∀ (i : Fin 16), (w29.bank (bankOf (w29.spillAddr 0 (↑i : Nat)))).st = BankState.on ∧ cellRead 0 w29.mem.errs (w29.spillAddr 0 (↑i : Nat)) = 0)) ∧
    ((w30.Issues MeInstr.yield) ∧ (w30.inTrap = false ∨ w30.me.trapLive = true) ∧ (w30.me.frames = [curB]) ∧ (curB.called = false) ∧ (w30.readyCand 0 = Option.none) ∧ (([] : List Frame) ≠ [] ∨ w30.me.spilled = 0)) := by
  (repeat' apply And.intro) <;> first | decide +kernel | (unfold MemCanonical; decide +kernel)
end ControlFlowInstructions
end W08b

namespace W08d
def fr (k : Nat) (regs : Nat → Word) : Frame := { w := Vector.ofFn fun i => regs i.val, flags := BitVec.ofNat 4 k, pc := 5, desc := 0x00070000, win := 3, uid := 9 }
def frO (o : Nat) (regs : Nat → Word) : Frame := { fr 3 regs with desc := BitVec.ofNat 32 (o * 65536) }
def engF (fs : List Frame) (i : MeInstr) (s : State) : State :=
  { s with pwr := { s.pwr with st := .run }, sc := { s.sc with recs := [(7, { bind := 0x80000000, rights := 0xFFFFFFFF, grant := 0xFFFFFFFFFFFFFFFF })] }, me := { s.me with st := .running, trapWin := none, frames := fs, store := [(5, i.encode)], storeErr := [], outbox := [], results := [], hen := true, trapLive := true, spilled := 0 } }
def rg (a b : Word) : Nat → Word := fun i => if i = 0 then a else if i = 1 then b else BitVec.ofNat 32 (i * 0x11111111)
def setB (s : State) : State := AD 1 (fun a => { a with ctl := 1, wheel := 0x0180003A, pitch := 3, st := .locked, k := { a.k with tau := some 1000, rate := 40000000, rev := 3, tagBase := 0 } }) { s with tbs := { tb := 2000, run := true } }
def posS : Word := 51199444

/-! ### RequestInstructions -/
namespace RequestInstructions
def w0 : State := engF [frO 0 (rg 1 5)] (.sched 9 8) (su 3)
def w2 : State := engF [frO 7 (rg 1 5)] (.cancel 9 8) (su 3)
def w3 : State := engF [frO 7 (rg 1 5)] (.edge 10 8 9 true true 0) (su 3)
def w5 : State := engF [frO 7 (rg 1 5)] (.signal 3) (su 3)
def w6 : State := engF [frO 7 (rg 1 5)] (.post 8 9 7) (su 3)
def w7 : State := engF [frO 7 (rg 1 5)] (.snap 9 10 7) (su 3)
def w8 : State := engF [frO 7 (rg 1 5)] (.snap 9 10 0x40) (su 3)
def w9 : State := engF [frO 7 (rg 1 5)] (.att 9 10 8 1) (su 3)
def w10 : State := setB (engF [frO 7 (rg (posS) 5)] (.att 9 10 8 1) (su 3))
def w12 : State := setB (engF [frO 7 (rg (posS + 100) 5)] (.att 9 10 8 1) (su 3))
def w13 : State := AD 1 (fun a => { a with k := { a.k with rate := 1 } }) (setB (engF [frO 7 (rg (51199435 + 0x7FFFFFFF) 5)] (.att 9 10 8 1) (su 3)))
theorem witness_1 :
    ((w0.Issues (MeInstr.sched (9 : Fin 16) (8 : Fin 16))) ∧ (w0.meOwner = (0 : Fin 256) ∨ fld (w0.reg ((8 : Fin 16) + (3 : Fin 16))) 7 0 = (↑w0.meOwner : Nat))) ∧
    ((w2.Issues (MeInstr.cancel (9 : Fin 16) (8 : Fin 16)))) ∧
    ((w3.Issues (MeInstr.edge (10 : Fin 16) (8 : Fin 16) (9 : Fin 16) true true (0 : Fin 64))) ∧ (w3.permits w3.meOwner ((8192 + 128 * if true = true then BitVec.toNat (w3.reg (10 : Fin 16)) % 64 else (0 : Fin 64).val) + if true = true then 112 else 108) true (0 : Word) = true)) ∧
    ((w5.Issues (MeInstr.signal (3 : Fin 8))) ∧ (w5.permits w5.meOwner 19552 true (0 : Word) = true)) ∧
    ((w6.Issues (MeInstr.post (8 : Fin 16) (9 : Fin 16) (7 : Fin 256))) ∧ (w6.meOwner = (0 : Fin 256) ∨ (7 : Fin 256) = w6.meOwner)) ∧
    ((w7.Issues (MeInstr.snap (9 : Fin 16) (10 : Fin 16) (7 : BitVec 7))) ∧ (BitVec.toNat (7 : BitVec 7) < 64) ∧ (w7.permits w7.meOwner (8224 + 128 * BitVec.toNat (7 : BitVec 7)) false (0 : Word) = true)) ∧
    ((w8.Issues (MeInstr.snap (9 : Fin 16) (10 : Fin 16) (64 : BitVec 7))) ∧ (w8.permits w8.meOwner 64 false (0 : Word) = true)) ∧
    ((w9.Issues (MeInstr.att (9 : Fin 16) (10 : Fin 16) (8 : Fin 16) (BitVec.ofNat 2 (1 : Fin 3).val))) ∧ (w9.permits w9.meOwner (16432 + 512 * (1 : Fin 3).val) false (0 : Word) = true) ∧ (w9.domPos (BitVec.ofNat 2 (1 : Fin 3).val) = Option.none)) := by
  (repeat' apply And.intro) <;> first | decide +kernel | (unfold MemCanonical; decide +kernel)
theorem witness_2 :
    ((w10.Issues (MeInstr.att (9 : Fin 16) (10 : Fin 16) (8 : Fin 16) (BitVec.ofNat 2 (1 : Fin 3).val))) ∧ (w10.permits w10.meOwner (16432 + 512 * (1 : Fin 3).val) false (0 : Word) = true) ∧ (w10.domPos (BitVec.ofNat 2 (1 : Fin 3).val) = Option.some (51199444 : Word)) ∧ (BitVec.toNat (w10.reg (8 : Fin 16) - (51199444 : Word)) = 0 ∨ 2 ^ 31 ≤ BitVec.toNat (w10.reg (8 : Fin 16) - (51199444 : Word)))) ∧
    ((w12.Issues (MeInstr.att (9 : Fin 16) (10 : Fin 16) (8 : Fin 16) (BitVec.ofNat 2 (1 : Fin 3).val))) ∧ (w12.permits w12.meOwner (16432 + 512 * (1 : Fin 3).val) false (0 : Word) = true) ∧ (w12.domPos (BitVec.ofNat 2 (1 : Fin 3).val) = Option.some (51199444 : Word)) ∧ (0 < BitVec.toNat (w12.reg (8 : Fin 16) - (51199444 : Word))) ∧ (BitVec.toNat (w12.reg (8 : Fin 16) - (51199444 : Word)) < 2 ^ 31) ∧ (0 < (w12.ad (1 : Fin 3)).k.rate) ∧ ((BitVec.toNat (w12.reg (8 : Fin 16) - (51199444 : Word)) * 2 ^ 32 + (w12.ad (1 : Fin 3)).k.rate - 1) / (w12.ad (1 : Fin 3)).k.rate ≤ 2 ^ 47 - 1)) ∧
    ((w13.Issues (MeInstr.att (9 : Fin 16) (10 : Fin 16) (8 : Fin 16) (BitVec.ofNat 2 (1 : Fin 3).val))) ∧ (w13.permits w13.meOwner (16432 + 512 * (1 : Fin 3).val) false (0 : Word) = true) ∧ (w13.domPos (BitVec.ofNat 2 (1 : Fin 3).val) = Option.some (51199435 : Word)) ∧ (0 < BitVec.toNat (w13.reg (8 : Fin 16) - (51199435 : Word))) ∧ (BitVec.toNat (w13.reg (8 : Fin 16) - (51199435 : Word)) < 2 ^ 31) ∧ (0 < (w13.ad (1 : Fin 3)).k.rate) ∧ (2 ^ 47 - 1 < (BitVec.toNat (w13.reg (8 : Fin 16) - (51199435 : Word)) * 2 ^ 32 + (w13.ad (1 : Fin 3)).k.rate - 1) / (w13.ad (1 : Fin 3)).k.rate)) := by
  (repeat' apply And.intro) <;> first | decide +kernel | (unfold MemCanonical; decide +kernel)
end RequestInstructions
end W08d

namespace W08h
def fr (k : Nat) (regs : Nat → Word) : Frame := { w := Vector.ofFn fun i => regs i.val, flags := BitVec.ofNat 4 k, pc := 5, desc := 0x00070000, win := 3, uid := 9 }
def frO (o : Nat) (regs : Nat → Word) : Frame := { fr 3 regs with desc := BitVec.ofNat 32 (o * 65536) }
def engF (fs : List Frame) (i : MeInstr) (s : State) : State :=
  { s with pwr := { s.pwr with st := .run }, sc := { s.sc with recs := [(7, { bind := 0x80000000, rights := 0xFFFFFFFF, grant := 0xFFFFFFFFFFFFFFFF })] }, me := { s.me with st := .running, trapWin := none, frames := fs, store := [(5, i.encode)], storeErr := [], outbox := [], results := [], hen := true, trapLive := true, spilled := 0 } }
def bankOn (cells : List Host.Cell) (s : State) : State := { s with mem := { s.mem with cells := cells, errs := [], banks := .replicate 8 { st := .on }, lock := none }, cw := .replicate 16 {} }
def cells0 : List Host.Cell := [(0x20000, 0x81), (0x20001, 0x92), (0x20002, 0xA3), (0x20003, 0xF4)]
def rg (a b : Word) : Nat → Word := fun i => if i = 0 then a else if i = 1 then b else BitVec.ofNat 32 (i * 0x11111111)
def st7 (s : State) (q : List MeReq) : State := let u := bankOn cells0 (engF [frO 7 (rg 1 2)] .nop s); { u with me := { u.me with outbox := q }, tt := { u.tt with cal := [(3, { st := .waiting, owner := 7 }), (4, { st := .ready, owner := 8 })] } }
def withRes (s : State) (r : List MeResult) : State := { s with me := { s.me with results := r, trapWin := some { frO 7 (rg 1 2) with uid := 77 } } }
def rr : MeResult := { uid := 9, rd := 9, value := 0xABCD }
def cn (s : State) : State := { s with tsi := { s.tsi with conn := [] } }

/-! ### HeldRequestsTakeEffect -/
namespace HeldRequestsTakeEffect
def w0 : State := cn (st7 (su 3) [])
def w2 : State := cn (st7 (su 3) [.store 7 0x20008 2 7, .signal 2])
def x1_2 : List MeReq := [.signal 2]
def w4 : State := cn (st7 (su 3) [.signal 6, .signal 2])
def x1_4 : List MeReq := [.signal 2]
def w5 : State := cn (st7 (su 3) [.post 7 7 0 7, .signal 2])
def x1_5 : List MeReq := [.signal 2]
def w6 : State := cn (st7 (su 3) [.sched 7 true 5 9 0 0 0 0x02000000, .signal 2])
def x1_6 : List MeReq := [.signal 2]
def w7 : State := cn (st7 (su 3) [.sched 7 true 5 9 0 0 7 7, .signal 2])
def x1_7 : List MeReq := [.signal 2]
def w8 : State := cn ({ (st7 (su 3) [.sched 7 true 5 9 0 0 7 7, .signal 2]) with sc := { (su 3).sc with recs := [(7, { bind := 0x80000000, quota := 0xFFFFFFFC })] } })
def x1_8 : List MeReq := [.signal 2]
def w9 : State := cn (st7 (su 3) [.cancel 7 true 5 9 3, .signal 2])
def x1_9 : List MeReq := [.signal 2]
def w10 : State := cn (st7 (su 3) [.cancel 7 true 5 9 4, .signal 2])
def x1_10 : List MeReq := [.signal 2]
def w12 : State := cn (withRes (st7 (su 3) []) [rr])
theorem witness_1 :
    ((w0.pwr.pdUp = true) ∧ (TablesCanonical w0) ∧ (MemCanonical w0) ∧ (w0.me.outbox = [])) ∧
    ((w0.pwr.pdUp = true) ∧ (TablesCanonical w0) ∧ (MemCanonical w0) ∧ (w0.me.results = [])) ∧
    ((w2.pwr.pdUp = true) ∧ (TablesCanonical w2) ∧ (MemCanonical w2) ∧ (w2.me.outbox = MeReq.store (7 : Fin 256) (131080 : BitVec 20) 2 (7 : Word) :: x1_2) ∧ (isMemAddr (BitVec.toNat (131080 : BitVec 20)) = true) ∧ (w2.resolve (BitVec.toNat (131080 : BitVec 20)) = Option.some 131080) ∧ ((w2.bank (bankOf 131080)).st = BankState.on) ∧ ((w2.bank (bankOf 131080)).recov = false)) ∧
    ((w4.pwr.pdUp = true) ∧ (TablesCanonical w4) ∧ (MemCanonical w4) ∧ (w4.me.outbox = MeReq.signal (6 : Fin 8) :: x1_4)) ∧
    ((w5.pwr.pdUp = true) ∧ (TablesCanonical w5) ∧ (MemCanonical w5) ∧ (w5.me.outbox = MeReq.post (7 : Fin 256) (7 : Fin 256) (0 : Word) (7 : Word) :: x1_5)) ∧
    ((w6.pwr.pdUp = true) ∧ (TablesCanonical w6) ∧ (MemCanonical w6) ∧ (w6.me.outbox = MeReq.sched (7 : Fin 256) true 5 (9 : Fin 16) (0 : Word) (0 : Word) (0 : Word) (33554432 : Word) :: x1_6) ∧ (w6.keyStatus (0 : Word) (33554432 : Word) ≠ 0)) ∧
    ((w7.pwr.pdUp = true) ∧ (TablesCanonical w7) ∧ (MemCanonical w7) ∧ (w7.me.outbox = MeReq.sched (7 : Fin 256) true 5 (9 : Fin 16) (0 : Word) (0 : Word) (7 : Word) (7 : Word) :: x1_7) ∧ (w7.keyStatus (0 : Word) (7 : Word) = 0) ∧ (∃ h < 1016, (w7.calEntry h).st = CalState.free) ∧ (w7.overQuota (Fin.ofNat 256 (fld (7 : Word) 7 0)) = true)) ∧
    ((w8.pwr.pdUp = true) ∧ (TablesCanonical w8) ∧ (MemCanonical w8) ∧ (w8.me.outbox = MeReq.sched (7 : Fin 256) true 5 (9 : Fin 16) (0 : Word) (0 : Word) (7 : Word) (7 : Word) :: x1_8) ∧ (w8.keyStatus (0 : Word) (7 : Word) = 0) ∧ (∃ h < 1016, (w8.calEntry h).st = CalState.free) ∧ (w8.overQuota (Fin.ofNat 256 (fld (7 : Word) 7 0)) = false)) := by
  (repeat' apply And.intro) <;> first | decide +kernel | (unfold MemCanonical; decide +kernel)
theorem witness_2 :
    ((w9.pwr.pdUp = true) ∧ (TablesCanonical w9) ∧ (MemCanonical w9) ∧ (w9.me.outbox = MeReq.cancel (7 : Fin 256) true 5 (9 : Fin 16) (3 : BitVec 10) :: x1_9) ∧ ((w9.calEntry (BitVec.toNat (3 : BitVec 10))).st ≠ CalState.free) ∧ ((7 : Fin 256) = (0 : Fin 256) ∨ (w9.calEntry (BitVec.toNat (3 : BitVec 10))).owner = (7 : Fin 256))) ∧
    ((w10.pwr.pdUp = true) ∧ (TablesCanonical w10) ∧ (MemCanonical w10) ∧ (w10.me.outbox = MeReq.cancel (7 : Fin 256) true 5 (9 : Fin 16) (4 : BitVec 10) :: x1_10) ∧ ((w10.calEntry (BitVec.toNat (4 : BitVec 10))).st = CalState.free ∨ (7 : Fin 256) ≠ (0 : Fin 256) ∧ (w10.calEntry (BitVec.toNat (4 : BitVec 10))).owner ≠ (7 : Fin 256))) ∧
    ((w12.pwr.pdUp = true) ∧ (TablesCanonical w12) ∧ (MemCanonical w12) ∧ (w12.me.results = [rr])) := by
  (repeat' apply And.intro) <;> first | decide +kernel | (unfold MemCanonical; decide +kernel)
end HeldRequestsTakeEffect
end W08h

namespace W08f
def fr (k : Nat) (regs : Nat → Word) : Frame := { w := Vector.ofFn fun i => regs i.val, flags := BitVec.ofNat 4 k, pc := 5, desc := 0x00070000, win := 3, uid := 9 }
def frO (o : Nat) (regs : Nat → Word) : Frame := { fr 3 regs with desc := BitVec.ofNat 32 (o * 65536) }
def engF (fs : List Frame) (i : MeInstr) (s : State) : State :=
  { s with pwr := { s.pwr with st := .run }, sc := { s.sc with recs := [(7, { bind := 0x80000000, rights := 0xFFFFFFFF, grant := 0xFFFFFFFFFFFFFFFF })] }, me := { s.me with st := .running, trapWin := none, frames := fs, store := [(5, i.encode)], storeErr := [], outbox := [], results := [], hen := true, trapLive := true, spilled := 0 } }
def bankOn (cells : List Host.Cell) (s : State) : State := { s with mem := { s.mem with cells := cells, errs := [], banks := .replicate 8 { st := .on }, lock := none }, cw := .replicate 16 {} }
def rg (a b : Word) : Nat → Word := fun i => if i = 0 then a else if i = 1 then b else BitVec.ofNat 32 (i * 0x11111111)
def trapS (i : MeInstr) (s : State) : State := engF [frO 7 (rg 1 2)] i s
def canon (s : State) : State := { s with tt := { s.tt with cal := [(3, { st := .waiting, owner := 7 }), (4, { st := .ready, owner := 8 })] }, tsi := { s.tsi with conn := [] } }
def ft0 (s : State) : State := canon { s with sc := { s.sc with recs := [(7, { bind := 0x80000000, rights := 0xFFFFFFFF, grant := 0xFFFFFFFFFFFFFFFF })] } }

/-! ### TrapsAndFences -/
namespace TrapsAndFences
def w0 : State := ft0 (trapS (.trap 0xBEEF) (su 3))
def w2 : State := ft0 (bankOn [] { (trapS .nop (su 3)) with me := { (trapS .nop (su 3)).me with store := [(5, 0xFFFFFFFF)] } })
def w3 : State := ft0 (bankOn [] (engF [frO 7 (rg 0x100000 2)] (.load .ldw 9 8 0) (su 3)))
def w4 : State := ft0 (bankOn [] (engF [frO 7 (rg 0x10 2)] (.load .ldh 9 8 0) (su 3)))
def w5 : State := ft0 (bankOn [] (engF [frO 7 (rg 0x20001 2)] (.load .ldhu 9 8 0) (su 3)))
def w6 : State := ft0 (bankOn [] (engF [frO 8 (rg 0x20000 2)] (.load .ldhu 9 8 0) (su 3)))
def w9 : State := ft0 (bankOn [] (engF [frO 8 (rg 0x20000 2)] (.store .stw 9 8 0) (su 3)))
def w10 : State := ft0 (bankOn [] (engF [frO 8 (rg 0x20001 2)] (.store .sth 9 8 0) (su 3)))
def w11 : State := ft0 (bankOn [] (engF [frO 8 (rg 0x100001 2)] (.store .stb 9 8 0) (su 3)))
def w12 : State := ft0 (bankOn [] (engF [frO 8 (rg 0x80000 2)] (.store .stb 9 8 0) (su 3)))
def w13 : State := ft0 (bankOn [] (engF [frO 8 (rg 0x100000 2)] (.atom .cas false 9 8 10) (su 3)))
def w15 : State := ft0 (bankOn [] (engF [frO 7 (rg 0x100000 2)] (.sched 9 8) (su 3)))
def w16 : State := ft0 (bankOn [] (engF [frO 7 (rg 0x100000 2)] (.post 8 10 8) (su 3)))
def w17 : State := ft0 { (engF [frO 7 (rg 0x100000 2)] (.trap 7) (su 3)) with me := { (engF [frO 7 (rg 0x100000 2)] (.trap 7) (su 3)).me with trapWin := some (frO 0 (rg 1 2)), st := .trap } }
def w18 : State := ft0 { (engF [frO 7 (rg 0x100000 2)] (.trap 7) (su 3)) with me := { (engF [frO 7 (rg 0x100000 2)] (.trap 7) (su 3)).me with st := .stopped } }
theorem witness_1 :
    ((TablesCanonical w0) ∧ (w0.pwr.pdUp = true) ∧ (w0.inTrap = false) ∧ (w0.me.hen = true) ∧ (w0.meOwner = (0 : Fin 256) ∨ (w0.client w0.meOwner).faultTimes.length < 7) ∧ (w0.Issues (MeInstr.trap (48879 : BitVec 16)))) ∧
    ((TablesCanonical w0) ∧ (w0.pwr.pdUp = true) ∧ (w0.inTrap = false) ∧ (w0.me.hen = true) ∧ (w0.meOwner = (0 : Fin 256) ∨ (w0.client w0.meOwner).faultTimes.length < 7) ∧ (w0.meCan = true) ∧ (w0.me.wdog ≠ (0 : BitVec 24))) ∧
    ((TablesCanonical w0) ∧ (w0.pwr.pdUp = true) ∧ (w0.me.st ≠ MeState.stopped) ∧ (w0.me.st ≠ MeState.fenced)) ∧
    ((TablesCanonical w2) ∧ (w2.pwr.pdUp = true) ∧ (w2.inTrap = false) ∧ (w2.me.hen = true) ∧ (w2.meOwner = (0 : Fin 256) ∨ (w2.client w2.meOwner).faultTimes.length < 7) ∧ (w2.meCan = true) ∧ (cellRead 0 w2.me.storeErr w2.pc.toNat = 0) ∧ (meDecode (cellRead (0 : Word) w2.me.store w2.pc.toNat) = Option.none)) ∧
    ((TablesCanonical w3) ∧ (w3.pwr.pdUp = true) ∧ (w3.inTrap = false) ∧ (w3.me.hen = true) ∧ (w3.meOwner = (0 : Fin 256) ∨ (w3.client w3.meOwner).faultTimes.length < 7) ∧ (w3.Issues (MeInstr.load LdOp.ldw (9 : Fin 16) (8 : Fin 16) (0 : BitVec 18))) ∧ (2 ^ 20 ≤ BitVec.toNat (w3.reg (8 : Fin 16) + BitVec.signExtend 32 (0 : BitVec 18)))) ∧
    ((TablesCanonical w4) ∧ (w4.pwr.pdUp = true) ∧ (w4.inTrap = false) ∧ (w4.me.hen = true) ∧ (w4.meOwner = (0 : Fin 256) ∨ (w4.client w4.meOwner).faultTimes.length < 7) ∧ (w4.Issues (MeInstr.load LdOp.ldh (9 : Fin 16) (8 : Fin 16) (0 : BitVec 18))) ∧ (BitVec.toNat (w4.reg (8 : Fin 16) + BitVec.signExtend 32 (0 : BitVec 18)) < 2 ^ 20) ∧ (LdOp.ldh.size ≠ 2) ∧ (BitVec.toNat (w4.reg (8 : Fin 16) + BitVec.signExtend 32 (0 : BitVec 18)) < 131072 ∨ 524288 ≤ BitVec.toNat (w4.reg (8 : Fin 16) + BitVec.signExtend 32 (0 : BitVec 18)))) ∧
    ((TablesCanonical w5) ∧ (w5.pwr.pdUp = true) ∧ (w5.inTrap = false) ∧ (w5.me.hen = true) ∧ (w5.meOwner = (0 : Fin 256) ∨ (w5.client w5.meOwner).faultTimes.length < 7) ∧ (w5.Issues (MeInstr.load LdOp.ldhu (9 : Fin 16) (8 : Fin 16) (0 : BitVec 18))) ∧ (131072 ≤ BitVec.toNat (w5.reg (8 : Fin 16) + BitVec.signExtend 32 (0 : BitVec 18))) ∧ (BitVec.toNat (w5.reg (8 : Fin 16) + BitVec.signExtend 32 (0 : BitVec 18)) < 524288) ∧ (BitVec.toNat (w5.reg (8 : Fin 16) + BitVec.signExtend 32 (0 : BitVec 18)) % 2 ^ LdOp.ldhu.size ≠ 0)) ∧
    ((TablesCanonical w6) ∧ (w6.pwr.pdUp = true) ∧ (w6.inTrap = false) ∧ (w6.me.hen = true) ∧ (w6.meOwner = (0 : Fin 256) ∨ (w6.client w6.meOwner).faultTimes.length < 7) ∧ (w6.Issues (MeInstr.load LdOp.ldhu (9 : Fin 16) (8 : Fin 16) (0 : BitVec 18))) ∧ (w6.addrTrap (w6.reg (8 : Fin 16) + BitVec.signExtend 32 (0 : BitVec 18)) LdOp.ldhu.size false = Option.none) ∧ (w6.permits w6.meOwner (BitVec.toNat (w6.reg (8 : Fin 16) + BitVec.signExtend 32 (0 : BitVec 18))) false (if false = true then w6.reg (9 : Fin 16) else (0 : Word)) = false)) := by
  (repeat' apply And.intro) <;> first | decide +kernel | (unfold MemCanonical; decide +kernel)
theorem witness_2 :
    ((TablesCanonical w9) ∧ (w9.pwr.pdUp = true) ∧ (w9.inTrap = false) ∧ (w9.me.hen = true) ∧ (w9.meOwner = (0 : Fin 256) ∨ (w9.client w9.meOwner).faultTimes.length < 7) ∧ (w9.Issues (MeInstr.store StOp.stw (9 : Fin 16) (8 : Fin 16) (0 : BitVec 18))) ∧ (w9.addrTrap (w9.reg (8 : Fin 16) + BitVec.signExtend 32 (0 : BitVec 18)) StOp.stw.size true = Option.none) ∧ (w9.permits w9.meOwner (BitVec.toNat (w9.reg (8 : Fin 16) + BitVec.signExtend 32 (0 : BitVec 18))) true (if true = true then w9.reg (9 : Fin 16) else (0 : Word)) = false)) ∧
    ((TablesCanonical w10) ∧ (w10.pwr.pdUp = true) ∧ (w10.inTrap = false) ∧ (w10.me.hen = true) ∧ (w10.meOwner = (0 : Fin 256) ∨ (w10.client w10.meOwner).faultTimes.length < 7) ∧ (w10.Issues (MeInstr.store StOp.sth (9 : Fin 16) (8 : Fin 16) (0 : BitVec 18))) ∧ (131072 ≤ BitVec.toNat (w10.reg (8 : Fin 16) + BitVec.signExtend 32 (0 : BitVec 18))) ∧ (BitVec.toNat (w10.reg (8 : Fin 16) + BitVec.signExtend 32 (0 : BitVec 18)) < 524288) ∧ (BitVec.toNat (w10.reg (8 : Fin 16) + BitVec.signExtend 32 (0 : BitVec 18)) % 2 ^ StOp.sth.size ≠ 0)) ∧
    ((TablesCanonical w11) ∧ (w11.pwr.pdUp = true) ∧ (w11.inTrap = false) ∧ (w11.me.hen = true) ∧ (w11.meOwner = (0 : Fin 256) ∨ (w11.client w11.meOwner).faultTimes.length < 7) ∧ (w11.Issues (MeInstr.store StOp.stb (9 : Fin 16) (8 : Fin 16) (0 : BitVec 18))) ∧ (2 ^ 20 ≤ BitVec.toNat (w11.reg (8 : Fin 16) + BitVec.signExtend 32 (0 : BitVec 18)))) ∧
    ((TablesCanonical w12) ∧ (w12.pwr.pdUp = true) ∧ (w12.inTrap = false) ∧ (w12.me.hen = true) ∧ (w12.meOwner = (0 : Fin 256) ∨ (w12.client w12.meOwner).faultTimes.length < 7) ∧ (w12.Issues (MeInstr.store StOp.stb (9 : Fin 16) (8 : Fin 16) (0 : BitVec 18))) ∧ (BitVec.toNat (w12.reg (8 : Fin 16) + BitVec.signExtend 32 (0 : BitVec 18)) < 2 ^ 20) ∧ (StOp.stb.size ≠ 2) ∧ (BitVec.toNat (w12.reg (8 : Fin 16) + BitVec.signExtend 32 (0 : BitVec 18)) < 131072 ∨ 524288 ≤ BitVec.toNat (w12.reg (8 : Fin 16) + BitVec.signExtend 32 (0 : BitVec 18)))) ∧
    ((TablesCanonical w13) ∧ (w13.pwr.pdUp = true) ∧ (w13.inTrap = false) ∧ (w13.me.hen = true) ∧ (w13.meOwner = (0 : Fin 256) ∨ (w13.client w13.meOwner).faultTimes.length < 7) ∧ (w13.Issues (MeInstr.atom AtomOp.cas false (9 : Fin 16) (8 : Fin 16) (10 : Fin 16))) ∧ (2 ^ 20 ≤ BitVec.toNat (w13.reg (8 : Fin 16)))) ∧
    ((TablesCanonical w15) ∧ (w15.pwr.pdUp = true) ∧ (w15.inTrap = false) ∧ (w15.me.hen = true) ∧ (w15.meOwner = (0 : Fin 256) ∨ (w15.client w15.meOwner).faultTimes.length < 7) ∧ (w15.Issues (MeInstr.sched (9 : Fin 16) (8 : Fin 16))) ∧ (w15.meOwner ≠ (0 : Fin 256)) ∧ (fld (w15.reg ((8 : Fin 16) + (3 : Fin 16))) 7 0 ≠ (↑w15.meOwner : Nat))) ∧
    ((TablesCanonical w16) ∧ (w16.pwr.pdUp = true) ∧ (w16.inTrap = false) ∧ (w16.me.hen = true) ∧ (w16.meOwner = (0 : Fin 256) ∨ (w16.client w16.meOwner).faultTimes.length < 7) ∧ (w16.Issues (MeInstr.post (8 : Fin 16) (10 : Fin 16) (8 : Fin 256))) ∧ (w16.meOwner ≠ (0 : Fin 256)) ∧ ((8 : Fin 256) ≠ w16.meOwner)) ∧
    ((TablesCanonical w17) ∧ (w17.pwr.pdUp = true) ∧ (w17.inTrap = true) ∧ (w17.meOwner = (0 : Fin 256) ∨ (w17.client w17.meOwner).faultTimes.length < 7) ∧ (w17.Issues (MeInstr.trap (7 : BitVec 16)))) := by
  (repeat' apply And.intro) <;> first | decide +kernel | (unfold MemCanonical; decide +kernel)
theorem witness_3 :
    (TablesCanonical w18) ∧ (w18.pwr.pdUp = true) ∧ (w18.me.st = MeState.stopped ∨ w18.me.st = MeState.fenced) := by
  (repeat' apply And.intro) <;> first | decide +kernel | (unfold MemCanonical; decide +kernel)
end TrapsAndFences
end W08f

namespace W09
def E (e : Fin 8) (f : PinSeq → PinSeq) (s : State) : State := { s with ps := { s.ps with eng := vset s.ps.eng e f } }
def allOff (s : State) : State := { s with pwr := { s.pwr with compat := false }, ps := { s.ps with storeErr := [], eng := s.ps.eng.map fun p => { p with en := false, st := .off } } }
def noLink (s : State) : State := { s with chans := s.chans.map fun c => { c with o := { c.o with inClr := false, pair := { c.o.pair with mode := false }, link := 0, lkout := 0 } } }
def pp : PinSeq := { pin0 := 0x00008381, pin1 := 0x0, start := 3, div := 2 }
def T (w : BitVec 24) (f : PinSeq → PinSeq) (s : State) : State := noLink (E 3 (fun _ => f { pp with pin0 := 0x87868584, pin1 := 0x8b8a8988, claim0 := 0x87868584, claim1 := 0x8b8a8988, st := .run, cnt := 3, pc := 5, tx := [5], orr := 9, ow := 0x80345678, l0 := 3, l1 := 0, ls0 := 40, ls1 := 41 }) { (allOff s) with ps := { (allOff s).ps with store := [(5, w)] } })

/-! ### SequencersStartAndStop -/
namespace SequencersStartAndStop
def w0 : State := noLink (E 3 (fun _ => pp) (allOff (su 3)))
def w1 : State := dn (noLink (E 3 (fun _ => pp) (allOff (su 3))))
def w2 : State := noLink (E 3 (fun _ => { pp with pin0 := 0x00008181 }) (allOff (su 3)))
def w3 : State := noLink (E 3 (fun _ => { pp with st := .halt, en := true, tx := [1,2] }) (allOff (su 3)))
def w4 : State := noLink (E 3 (fun _ => { pp with st := .run, en := true, rx := [7] }) (allOff (su 3)))
def w5 : State := noLink (E 3 (fun _ => { pp with st := .run, en := true, rx := [7,7,8,9], tx := [1,2,3,4,5,6,7,8] }) (allOff (su 3)))
def w8 : State := Y (fun c => { c with txNew := [(3, 0)] }) (noLink (E 3 (fun _ => { pp with st := .run, en := true, rx := [7,7,8,9], tx := [1,2,3] }) (allOff (su 3))))
def w12 : State := P (fun p => { p with pd1Up := true, pdUp := false }) (noLink (E 3 (fun _ => pp) (allOff (su 3))))
theorem witness_1 :
    ((w0.pwr.pdUp = true) ∧ ((w0.eng (3 : Fin 8)).en = false) ∧ ((w0.eng (3 : Fin 8)).wants.Nodup) ∧ (∀ n ∈ (w0.eng (3 : Fin 8)).wants, w0.paired n = false) ∧ (∀ (k : Fin 8), (k ≠ (3 : Fin 8) ∧ (w0.eng k).en = true ∧ ∃ n ∈ (w0.eng (3 : Fin 8)).wants, n ∈ (w0.eng k).channels) → (3 : Fin 8) < k ∧ ∃ x ∈ w0.cyc.claims, x.1 = k)) ∧
    ((w0.pwr.pdUp = true) ∧ ((w0.eng (3 : Fin 8)).st ≠ PsState.run) ∧ ((w0.eng (3 : Fin 8)).st ≠ PsState.wait)) ∧
    ((w0.pwr.pdUp = true) ∧ ((w0.eng (3 : Fin 8)).st ≠ PsState.halt ∨ (w0.eng (3 : Fin 8)).en = false)) ∧
    ((w0.pwr.pdUp = true) ∧ (∀ x ∈ w0.cyc.txNew, x.1 ≠ (3 : Fin 8)) ∧ ((w0.eng (3 : Fin 8)).tx.length < 8)) ∧
    ((w0.pwr.pd1Up = true) ∧ (w0.pwr.pdUp = true) ∧ (List.take ((w0.eng (3 : Fin 8)).rx.length - if (3 : Fin 8) ∈ w0.cyc.rxNew then 1 else 0) (w0.eng (3 : Fin 8)).rx = [])) ∧
    ((w1.pwr.pdUp = false)) ∧
    ((w2.pwr.pdUp = true) ∧ ((w2.eng (3 : Fin 8)).en = false) ∧ (¬(w2.eng (3 : Fin 8)).wants.Nodup ∨ (∃ n ∈ (w2.eng (3 : Fin 8)).wants, w2.paired n = true) ∨ ∃ k, (k ≠ (3 : Fin 8) ∧ (w2.eng k).en = true ∧ ∃ n ∈ (w2.eng (3 : Fin 8)).wants, n ∈ (w2.eng k).channels) ∧ ¬((3 : Fin 8) < k ∧ ∃ x ∈ w2.cyc.claims, x.1 = k))) ∧
    ((w3.pwr.pdUp = true) ∧ ((w3.eng (3 : Fin 8)).st = PsState.halt) ∧ ((w3.eng (3 : Fin 8)).en = true)) := by
  (repeat' apply And.intro) <;> first | decide +kernel | (unfold MemCanonical; decide +kernel)
theorem witness_2 :
    ((w4.pwr.pdUp = true) ∧ ((w4.eng (3 : Fin 8)).st = PsState.run ∨ (w4.eng (3 : Fin 8)).st = PsState.wait)) ∧
    ((w4.pwr.pd1Up = true) ∧ (w4.pwr.pdUp = true) ∧ (List.take ((w4.eng (3 : Fin 8)).rx.length - if (3 : Fin 8) ∈ w4.cyc.rxNew then 1 else 0) (w4.eng (3 : Fin 8)).rx = [(7 : Word)])) ∧
    ((w5.pwr.pdUp = true) ∧ (∀ x ∈ w5.cyc.txNew, x.1 ≠ (3 : Fin 8)) ∧ (8 ≤ (w5.eng (3 : Fin 8)).tx.length)) ∧
    ((w8.pwr.pdUp = true) ∧ (List.find? (fun y => Decidable.decide (y.1 = (3 : Fin 8))) w8.cyc.txNew = Option.some ((3 : Fin 8), 0))) ∧
    ((w12.pwr.pd1Up = true) ∧ (w12.pwr.pdUp = false)) := by
  (repeat' apply And.intro) <;> first | decide +kernel | (unfold MemCanonical; decide +kernel)
end SequencersStartAndStop

/-! ### SequencerTicks -/
namespace SequencerTicks
def w0 : State := (su 24)
def w2 : State := T 0x28A5F0 id (su 3)
def w3 : State := T 0x29A500 id (su 3)
def w4 : State := T 0x2A3400 id (su 3)
def w5 : State := T 0x2A3C00 id (su 3)
def w7 : State := T 0x2A3400 (fun p => { p with orr := 2, tx := [] }) (su 3)
def w9 : State := T 0x2C0000 id (su 3)
def w10 : State := T 0x2C1000 id (su 3)
def w13 : State := T 0x2D0011 id (su 3)
def w14 : State := T 0x2D4FFF id (su 3)
def w15 : State := T 0x2D6123 id (su 3)
def w16 : State := T 0x2D8000 id (su 3)
def w17 : State := T 0x2DA000 id (su 3)
def w20 : State := T 0x2E0100 id (su 3)
def w23 : State := T 0x2E0100 (fun p => { p with busy := 3 }) (su 3)
def w24 : State := T 0x2E0100 (fun p => { p with haltReq := true }) (su 3)
theorem witness_1 :
    ((w0.pwr.pdUp = false ∨ (w0.eng (3 : Fin 8)).due = false ∨ ({ (w0.eng (3 : Fin 8)) with cnt := 0 } : PinSeq).st ≠ PsState.run ∧ ({ (w0.eng (3 : Fin 8)) with cnt := 0 } : PinSeq).st ≠ PsState.wait)) ∧
    ((w2.pwr.pdUp = true) ∧ ((w2.eng (3 : Fin 8)).due = true) ∧ (({ (w2.eng (3 : Fin 8)) with cnt := 0 } : PinSeq).st = PsState.run ∨ ({ (w2.eng (3 : Fin 8)) with cnt := 0 } : PinSeq).st = PsState.wait) ∧ (({ (w2.eng (3 : Fin 8)) with cnt := 0 } : PinSeq).haltReq = false) ∧ (({ (w2.eng (3 : Fin 8)) with cnt := 0 } : PinSeq).busy = 0) ∧ (cellRead 0 w2.ps.storeErr ({ (w2.eng (3 : Fin 8)) with cnt := 0 } : PinSeq).pc.toNat = 0) ∧ (psIllegal ({ (w2.eng (3 : Fin 8)) with cnt := 0 } : PinSeq) (cellRead (0 : BitVec 24) w2.ps.store ({ (w2.eng (3 : Fin 8)) with cnt := 0 } : PinSeq).pc.toNat) = false) ∧ (fld (cellRead (0 : BitVec 24) w2.ps.store ({ (w2.eng (3 : Fin 8)) with cnt := 0 } : PinSeq).pc.toNat) 18 16 = 0)) ∧
    ((w3.pwr.pdUp = true) ∧ ((w3.eng (3 : Fin 8)).due = true) ∧ (({ (w3.eng (3 : Fin 8)) with cnt := 0 } : PinSeq).st = PsState.run ∨ ({ (w3.eng (3 : Fin 8)) with cnt := 0 } : PinSeq).st = PsState.wait) ∧ (({ (w3.eng (3 : Fin 8)) with cnt := 0 } : PinSeq).haltReq = false) ∧ (({ (w3.eng (3 : Fin 8)) with cnt := 0 } : PinSeq).busy = 0) ∧ (cellRead 0 w3.ps.storeErr ({ (w3.eng (3 : Fin 8)) with cnt := 0 } : PinSeq).pc.toNat = 0) ∧ (psIllegal ({ (w3.eng (3 : Fin 8)) with cnt := 0 } : PinSeq) (cellRead (0 : BitVec 24) w3.ps.store ({ (w3.eng (3 : Fin 8)) with cnt := 0 } : PinSeq).pc.toNat) = false) ∧ (fld (cellRead (0 : BitVec 24) w3.ps.store ({ (w3.eng (3 : Fin 8)) with cnt := 0 } : PinSeq).pc.toNat) 18 16 = 1)) ∧
    ((w4.pwr.pdUp = true) ∧ ((w4.eng (3 : Fin 8)).due = true) ∧ (({ (w4.eng (3 : Fin 8)) with cnt := 0 } : PinSeq).st = PsState.run ∨ ({ (w4.eng (3 : Fin 8)) with cnt := 0 } : PinSeq).st = PsState.wait) ∧ (({ (w4.eng (3 : Fin 8)) with cnt := 0 } : PinSeq).haltReq = false) ∧ (({ (w4.eng (3 : Fin 8)) with cnt := 0 } : PinSeq).busy = 0) ∧ (cellRead 0 w4.ps.storeErr ({ (w4.eng (3 : Fin 8)) with cnt := 0 } : PinSeq).pc.toNat = 0) ∧ (psIllegal ({ (w4.eng (3 : Fin 8)) with cnt := 0 } : PinSeq) (cellRead (0 : BitVec 24) w4.ps.store ({ (w4.eng (3 : Fin 8)) with cnt := 0 } : PinSeq).pc.toNat) = false) ∧ (fld (cellRead (0 : BitVec 24) w4.ps.store ({ (w4.eng (3 : Fin 8)) with cnt := 0 } : PinSeq).pc.toNat) 18 16 = 2) ∧ (fld (cellRead (0 : BitVec 24) w4.ps.store ({ (w4.eng (3 : Fin 8)) with cnt := 0 } : PinSeq).pc.toNat) 12 10 + 1 ≤ ({ (w4.eng (3 : Fin 8)) with cnt := 0 } : PinSeq).orr)) ∧
    ((w5.pwr.pdUp = true) ∧ ((w5.eng (3 : Fin 8)).due = true) ∧ (({ (w5.eng (3 : Fin 8)) with cnt := 0 } : PinSeq).st = PsState.run ∨ ({ (w5.eng (3 : Fin 8)) with cnt := 0 } : PinSeq).st = PsState.wait) ∧ (({ (w5.eng (3 : Fin 8)) with cnt := 0 } : PinSeq).haltReq = false) ∧ (({ (w5.eng (3 : Fin 8)) with cnt := 0 } : PinSeq).busy = 0) ∧ (cellRead 0 w5.ps.storeErr ({ (w5.eng (3 : Fin 8)) with cnt := 0 } : PinSeq).pc.toNat = 0) ∧ (psIllegal ({ (w5.eng (3 : Fin 8)) with cnt := 0 } : PinSeq) (cellRead (0 : BitVec 24) w5.ps.store ({ (w5.eng (3 : Fin 8)) with cnt := 0 } : PinSeq).pc.toNat) = true)) ∧
    ((w7.pwr.pdUp = true) ∧ ((w7.eng (3 : Fin 8)).due = true) ∧ (({ (w7.eng (3 : Fin 8)) with cnt := 0 } : PinSeq).st = PsState.run ∨ ({ (w7.eng (3 : Fin 8)) with cnt := 0 } : PinSeq).st = PsState.wait) ∧ (({ (w7.eng (3 : Fin 8)) with cnt := 0 } : PinSeq).haltReq = false) ∧ (({ (w7.eng (3 : Fin 8)) with cnt := 0 } : PinSeq).busy = 0) ∧ (cellRead 0 w7.ps.storeErr ({ (w7.eng (3 : Fin 8)) with cnt := 0 } : PinSeq).pc.toNat = 0) ∧ (psIllegal ({ (w7.eng (3 : Fin 8)) with cnt := 0 } : PinSeq) (cellRead (0 : BitVec 24) w7.ps.store ({ (w7.eng (3 : Fin 8)) with cnt := 0 } : PinSeq).pc.toNat) = false) ∧ (fld (cellRead (0 : BitVec 24) w7.ps.store ({ (w7.eng (3 : Fin 8)) with cnt := 0 } : PinSeq).pc.toNat) 18 16 = 2) ∧ (({ (w7.eng (3 : Fin 8)) with cnt := 0 } : PinSeq).orr < fld (cellRead (0 : BitVec 24) w7.ps.store ({ (w7.eng (3 : Fin 8)) with cnt := 0 } : PinSeq).pc.toNat) 12 10 + 1) ∧ (({ (w7.eng (3 : Fin 8)) with cnt := 0 } : PinSeq).tx.length ≤ w7.psUnseen (3 : Fin 8))) := by
  (repeat' apply And.intro) <;> first | decide +kernel | (unfold MemCanonical; decide +kernel)
theorem witness_2 :
    ((w9.pwr.pdUp = true) ∧ ((w9.eng (3 : Fin 8)).due = true) ∧ (({ (w9.eng (3 : Fin 8)) with cnt := 0 } : PinSeq).st = PsState.run ∨ ({ (w9.eng (3 : Fin 8)) with cnt := 0 } : PinSeq).st = PsState.wait) ∧ (({ (w9.eng (3 : Fin 8)) with cnt := 0 } : PinSeq).haltReq = false) ∧ (({ (w9.eng (3 : Fin 8)) with cnt := 0 } : PinSeq).busy = 0) ∧ (cellRead 0 w9.ps.storeErr ({ (w9.eng (3 : Fin 8)) with cnt := 0 } : PinSeq).pc.toNat = 0) ∧ (psIllegal ({ (w9.eng (3 : Fin 8)) with cnt := 0 } : PinSeq) (cellRead (0 : BitVec 24) w9.ps.store ({ (w9.eng (3 : Fin 8)) with cnt := 0 } : PinSeq).pc.toNat) = false) ∧ (fld (cellRead (0 : BitVec 24) w9.ps.store ({ (w9.eng (3 : Fin 8)) with cnt := 0 } : PinSeq).pc.toNat) 18 16 = 4) ∧ (bit (cellRead (0 : BitVec 24) w9.ps.store ({ (w9.eng (3 : Fin 8)) with cnt := 0 } : PinSeq).pc.toNat) 10 = false) ∧ (w9.psSample ({ (w9.eng (3 : Fin 8)) with cnt := 0 } : PinSeq) (pinIx (fld (cellRead (0 : BitVec 24) w9.ps.store ({ (w9.eng (3 : Fin 8)) with cnt := 0 } : PinSeq).pc.toNat) 15 13)) = bit (cellRead (0 : BitVec 24) w9.ps.store ({ (w9.eng (3 : Fin 8)) with cnt := 0 } : PinSeq).pc.toNat) 12)) ∧
    ((w10.pwr.pdUp = true) ∧ ((w10.eng (3 : Fin 8)).due = true) ∧ (({ (w10.eng (3 : Fin 8)) with cnt := 0 } : PinSeq).st = PsState.run ∨ ({ (w10.eng (3 : Fin 8)) with cnt := 0 } : PinSeq).st = PsState.wait) ∧ (({ (w10.eng (3 : Fin 8)) with cnt := 0 } : PinSeq).haltReq = false) ∧ (({ (w10.eng (3 : Fin 8)) with cnt := 0 } : PinSeq).busy = 0) ∧ (cellRead 0 w10.ps.storeErr ({ (w10.eng (3 : Fin 8)) with cnt := 0 } : PinSeq).pc.toNat = 0) ∧ (psIllegal ({ (w10.eng (3 : Fin 8)) with cnt := 0 } : PinSeq) (cellRead (0 : BitVec 24) w10.ps.store ({ (w10.eng (3 : Fin 8)) with cnt := 0 } : PinSeq).pc.toNat) = false) ∧ (fld (cellRead (0 : BitVec 24) w10.ps.store ({ (w10.eng (3 : Fin 8)) with cnt := 0 } : PinSeq).pc.toNat) 18 16 = 4) ∧ (bit (cellRead (0 : BitVec 24) w10.ps.store ({ (w10.eng (3 : Fin 8)) with cnt := 0 } : PinSeq).pc.toNat) 10 = false) ∧ (w10.psSample ({ (w10.eng (3 : Fin 8)) with cnt := 0 } : PinSeq) (pinIx (fld (cellRead (0 : BitVec 24) w10.ps.store ({ (w10.eng (3 : Fin 8)) with cnt := 0 } : PinSeq).pc.toNat) 15 13)) ≠ bit (cellRead (0 : BitVec 24) w10.ps.store ({ (w10.eng (3 : Fin 8)) with cnt := 0 } : PinSeq).pc.toNat) 12) ∧ (bit (cellRead (0 : BitVec 24) w10.ps.store ({ (w10.eng (3 : Fin 8)) with cnt := 0 } : PinSeq).pc.toNat) 11 = false)) ∧
    ((w13.pwr.pdUp = true) ∧ ((w13.eng (3 : Fin 8)).due = true) ∧ (({ (w13.eng (3 : Fin 8)) with cnt := 0 } : PinSeq).st = PsState.run ∨ ({ (w13.eng (3 : Fin 8)) with cnt := 0 } : PinSeq).st = PsState.wait) ∧ (({ (w13.eng (3 : Fin 8)) with cnt := 0 } : PinSeq).haltReq = false) ∧ (({ (w13.eng (3 : Fin 8)) with cnt := 0 } : PinSeq).busy = 0) ∧ (cellRead 0 w13.ps.storeErr ({ (w13.eng (3 : Fin 8)) with cnt := 0 } : PinSeq).pc.toNat = 0) ∧ (psIllegal ({ (w13.eng (3 : Fin 8)) with cnt := 0 } : PinSeq) (cellRead (0 : BitVec 24) w13.ps.store ({ (w13.eng (3 : Fin 8)) with cnt := 0 } : PinSeq).pc.toNat) = false) ∧ (fld (cellRead (0 : BitVec 24) w13.ps.store ({ (w13.eng (3 : Fin 8)) with cnt := 0 } : PinSeq).pc.toNat) 18 16 = 5) ∧ (fld (cellRead (0 : BitVec 24) w13.ps.store ({ (w13.eng (3 : Fin 8)) with cnt := 0 } : PinSeq).pc.toNat) 15 10 = 0)) ∧
    ((w14.pwr.pdUp = true) ∧ ((w14.eng (3 : Fin 8)).due = true) ∧ (({ (w14.eng (3 : Fin 8)) with cnt := 0 } : PinSeq).st = PsState.run ∨ ({ (w14.eng (3 : Fin 8)) with cnt := 0 } : PinSeq).st = PsState.wait) ∧ (({ (w14.eng (3 : Fin 8)) with cnt := 0 } : PinSeq).haltReq = false) ∧ (({ (w14.eng (3 : Fin 8)) with cnt := 0 } : PinSeq).busy = 0) ∧ (cellRead 0 w14.ps.storeErr ({ (w14.eng (3 : Fin 8)) with cnt := 0 } : PinSeq).pc.toNat = 0) ∧ (psIllegal ({ (w14.eng (3 : Fin 8)) with cnt := 0 } : PinSeq) (cellRead (0 : BitVec 24) w14.ps.store ({ (w14.eng (3 : Fin 8)) with cnt := 0 } : PinSeq).pc.toNat) = false) ∧ (fld (cellRead (0 : BitVec 24) w14.ps.store ({ (w14.eng (3 : Fin 8)) with cnt := 0 } : PinSeq).pc.toNat) 18 16 = 5) ∧ (fld (cellRead (0 : BitVec 24) w14.ps.store ({ (w14.eng (3 : Fin 8)) with cnt := 0 } : PinSeq).pc.toNat) 15 12 = 4)) := by
  (repeat' apply And.intro) <;> first | decide +kernel | (unfold MemCanonical; decide +kernel)
theorem witness_3 :
    ((w15.pwr.pdUp = true) ∧ ((w15.eng (3 : Fin 8)).due = true) ∧ (({ (w15.eng (3 : Fin 8)) with cnt := 0 } : PinSeq).st = PsState.run ∨ ({ (w15.eng (3 : Fin 8)) with cnt := 0 } : PinSeq).st = PsState.wait) ∧ (({ (w15.eng (3 : Fin 8)) with cnt := 0 } : PinSeq).haltReq = false) ∧ (({ (w15.eng (3 : Fin 8)) with cnt := 0 } : PinSeq).busy = 0) ∧ (cellRead 0 w15.ps.storeErr ({ (w15.eng (3 : Fin 8)) with cnt := 0 } : PinSeq).pc.toNat = 0) ∧ (psIllegal ({ (w15.eng (3 : Fin 8)) with cnt := 0 } : PinSeq) (cellRead (0 : BitVec 24) w15.ps.store ({ (w15.eng (3 : Fin 8)) with cnt := 0 } : PinSeq).pc.toNat) = false) ∧ (fld (cellRead (0 : BitVec 24) w15.ps.store ({ (w15.eng (3 : Fin 8)) with cnt := 0 } : PinSeq).pc.toNat) 18 16 = 5) ∧ (fld (cellRead (0 : BitVec 24) w15.ps.store ({ (w15.eng (3 : Fin 8)) with cnt := 0 } : PinSeq).pc.toNat) 15 12 = 6)) ∧
    ((w16.pwr.pdUp = true) ∧ ((w16.eng (3 : Fin 8)).due = true) ∧ (({ (w16.eng (3 : Fin 8)) with cnt := 0 } : PinSeq).st = PsState.run ∨ ({ (w16.eng (3 : Fin 8)) with cnt := 0 } : PinSeq).st = PsState.wait) ∧ (({ (w16.eng (3 : Fin 8)) with cnt := 0 } : PinSeq).haltReq = false) ∧ (({ (w16.eng (3 : Fin 8)) with cnt := 0 } : PinSeq).busy = 0) ∧ (cellRead 0 w16.ps.storeErr ({ (w16.eng (3 : Fin 8)) with cnt := 0 } : PinSeq).pc.toNat = 0) ∧ (psIllegal ({ (w16.eng (3 : Fin 8)) with cnt := 0 } : PinSeq) (cellRead (0 : BitVec 24) w16.ps.store ({ (w16.eng (3 : Fin 8)) with cnt := 0 } : PinSeq).pc.toNat) = false) ∧ (fld (cellRead (0 : BitVec 24) w16.ps.store ({ (w16.eng (3 : Fin 8)) with cnt := 0 } : PinSeq).pc.toNat) 18 16 = 5) ∧ (fld (cellRead (0 : BitVec 24) w16.ps.store ({ (w16.eng (3 : Fin 8)) with cnt := 0 } : PinSeq).pc.toNat) 15 13 = 4)) ∧
    ((w17.pwr.pdUp = true) ∧ ((w17.eng (3 : Fin 8)).due = true) ∧ (({ (w17.eng (3 : Fin 8)) with cnt := 0 } : PinSeq).st = PsState.run ∨ ({ (w17.eng (3 : Fin 8)) with cnt := 0 } : PinSeq).st = PsState.wait) ∧ (({ (w17.eng (3 : Fin 8)) with cnt := 0 } : PinSeq).haltReq = false) ∧ (({ (w17.eng (3 : Fin 8)) with cnt := 0 } : PinSeq).busy = 0) ∧ (cellRead 0 w17.ps.storeErr ({ (w17.eng (3 : Fin 8)) with cnt := 0 } : PinSeq).pc.toNat = 0) ∧ (psIllegal ({ (w17.eng (3 : Fin 8)) with cnt := 0 } : PinSeq) (cellRead (0 : BitVec 24) w17.ps.store ({ (w17.eng (3 : Fin 8)) with cnt := 0 } : PinSeq).pc.toNat) = false) ∧ (fld (cellRead (0 : BitVec 24) w17.ps.store ({ (w17.eng (3 : Fin 8)) with cnt := 0 } : PinSeq).pc.toNat) 18 16 = 5) ∧ (fld (cellRead (0 : BitVec 24) w17.ps.store ({ (w17.eng (3 : Fin 8)) with cnt := 0 } : PinSeq).pc.toNat) 15 13 = 5)) ∧
    ((w20.pwr.pdUp = true) ∧ ((w20.eng (3 : Fin 8)).due = true) ∧ (({ (w20.eng (3 : Fin 8)) with cnt := 0 } : PinSeq).st = PsState.run ∨ ({ (w20.eng (3 : Fin 8)) with cnt := 0 } : PinSeq).st = PsState.wait) ∧ (({ (w20.eng (3 : Fin 8)) with cnt := 0 } : PinSeq).haltReq = false) ∧ (({ (w20.eng (3 : Fin 8)) with cnt := 0 } : PinSeq).busy = 0) ∧ (cellRead 0 w20.ps.storeErr ({ (w20.eng (3 : Fin 8)) with cnt := 0 } : PinSeq).pc.toNat = 0) ∧ (psIllegal ({ (w20.eng (3 : Fin 8)) with cnt := 0 } : PinSeq) (cellRead (0 : BitVec 24) w20.ps.store ({ (w20.eng (3 : Fin 8)) with cnt := 0 } : PinSeq).pc.toNat) = false) ∧ (fld (cellRead (0 : BitVec 24) w20.ps.store ({ (w20.eng (3 : Fin 8)) with cnt := 0 } : PinSeq).pc.toNat) 18 16 = 6)) ∧
    ((w23.pwr.pdUp = true) ∧ ((w23.eng (3 : Fin 8)).due = true) ∧ (({ (w23.eng (3 : Fin 8)) with cnt := 0 } : PinSeq).st = PsState.run ∨ ({ (w23.eng (3 : Fin 8)) with cnt := 0 } : PinSeq).st = PsState.wait) ∧ (({ (w23.eng (3 : Fin 8)) with cnt := 0 } : PinSeq).haltReq = false) ∧ (({ (w23.eng (3 : Fin 8)) with cnt := 0 } : PinSeq).busy ≠ 0)) := by
  (repeat' apply And.intro) <;> first | decide +kernel | (unfold MemCanonical; decide +kernel)
theorem witness_4 :
    (w24.pwr.pdUp = true) ∧ ((w24.eng (3 : Fin 8)).due = true) ∧ (({ (w24.eng (3 : Fin 8)) with cnt := 0 } : PinSeq).st = PsState.run ∨ ({ (w24.eng (3 : Fin 8)) with cnt := 0 } : PinSeq).st = PsState.wait) ∧ (({ (w24.eng (3 : Fin 8)) with cnt := 0 } : PinSeq).haltReq = true) := by
  (repeat' apply And.intro) <;> first | decide +kernel | (unfold MemCanonical; decide +kernel)
end SequencerTicks
end W09

namespace W10
def A (f : Afe → Afe) (s : State) : State := { s with afe := f s.afe, pwr := { s.pwr with pllLock := true }, boot := { s.boot with applied := true } }
def SN (n : Fin 16) (x : Sens) : State → State := A fun a => { a with sens := vset a.sens n (fun _ => x) }
def x1 : Sens := { cfg := 0x80408101, cycles := 2, lowamp := true }
def I (k : Fin 6) (y : Itrip) : State → State := A fun a => { a with itrip := vset a.itrip k (fun _ => y) }
def ADC (x : Adc) : State → State := A fun a => { a with adc := vset a.adc 1 (fun _ => x) }
def ax : Adc := { en := true, run := true, entry := 4, seq := (Vector.replicate 16 0x0513) }
def fp : List Byte := (List.range 64).map fun k => BitVec.ofNat 8 (k * 3)
def SG (g : Sig) : State → State := A fun a => { a with sig := g }
def g1 : Sig := { run := some { link := 2, enrol := none }, slots := Vector.ofFn fun i => if i.val = 3 ∨ i.val = 5 then { valid := true, en := true, link := 2 } else {}, tmpl := [(192+1, 3), (192+2, 6), (192+5, 15), (192+60, 180)] ++ (List.range 64).map (fun k => (320 + k, BitVec.ofNat 8 (k * 3))), cfg := 0x20040300 }

/-! ### SensorsTripsAndChecks -/
namespace SensorsTripsAndChecks
def w0 : State := (su 3)
def x15_0 : List Nat := []
def w1 : State := dn ((su 3))
def w2 : State := (su 9)
def w4 : State := SN 5 { x1 with cfg := 0x80408100, lowamp := false } (su 3)
def w10 : State := SN 5 { x1 with cfg := 0x80408101, cycles := 2, lowamp := true, cmp := true, thrNow := 200 } (su 3)
def w12 : State := SN 5 { x1 with cfg := 0x80408102, cycles := 2, lowamp := false, cmp := false, armed := true, thrNow := 50, out := false } (su 3)
def w18 : State := A (fun a => { a with health := 0 }) (I 2 { cfg := 0xC4000081, thr := 0x5005 } (su 3))
def x15_18 : List Nat := [900000, 900001, 5]
def w32 : State := SN 5 { x1 with cfg := 0x80408000, cycles := 2, lowamp := false, cmp := false, thrNow := 50, out := false } (su 3)
def w33 : State := SN 5 { x1 with cfg := 0x80408001, cycles := 0, lowamp := false, cmp := false, thrNow := 50, out := false } (su 3)
def w35 : State := SN 5 { x1 with cfg := 0x80708001, cycles := 2, lowamp := false, cmp := false, thrNow := 50, out := false } (su 3)
theorem witness_1 :
    ((w0.pwr.pllLock = true) ∧ (bit (at_ w0.afe.sens (5 : Fin 16)).cfg 31 = false)) ∧
    ((w0.pwr.pllLock = true) ∧ (¬(fld (at_ w0.afe.itrip (2 : Fin 6)).cfg 27 26 + 1 ≤ x15_0.length ∧ ∀ b < fld (at_ w0.afe.itrip (2 : Fin 6)).cfg 27 26 + 1, (bit (at_ w0.afe.itrip (2 : Fin 6)).cfg 31 && (bit (at_ w0.afe.itrip (2 : Fin 6)).cfg 30 && Decidable.decide (10000 * fld (at_ w0.afe.itrip (2 : Fin 6)).thr 15 8 < x15_0.getD b 0) || bit (at_ w0.afe.itrip (2 : Fin 6)).cfg 29 && Decidable.decide (x15_0.getD b 0 < 10000 * fld (at_ w0.afe.itrip (2 : Fin 6)).thr 7 0))) = true ∧ ¬(bit (at_ w0.afe.itrip (2 : Fin 6)).cfg 25 = true ∧ ∃ p, (p = Fin.ofNat 64 (fld (at_ w0.afe.itrip (2 : Fin 6)).cfg 13 8) ∨ p = partner (Fin.ofNat 64 (fld (at_ w0.afe.itrip (2 : Fin 6)).cfg 13 8)) ∧ (↑(Fin.ofNat 64 (fld (at_ w0.afe.itrip (2 : Fin 6)).cfg 13 8)) : Nat) % 2 = 0 ∧ w0.paired (Fin.ofNat 64 (fld (at_ w0.afe.itrip (2 : Fin 6)).cfg 13 8)) = true) ∧ (w0.chan p).o.chgAt + b ≤ w0.time ∧ w0.time < (w0.chan p).o.chgAt + b + fld (at_ w0.afe.itrip (2 : Fin 6)).cfg 23 18)))) ∧
    ((w0.pwr.pllLock = true) ∧ (true = true) ∧ (30 ≤ 40)) ∧
    ((w1.pwr.pllLock = false)) ∧
    ((w2.pwr.pllLock = true) ∧ (false = false ∨ 40 < 30)) ∧
    ((w4.pwr.pllLock = true) ∧ (bit (at_ w4.afe.sens (5 : Fin 16)).cfg 31 = true) ∧ ((if Decidable.decide (fld (at_ w4.afe.sens (5 : Fin 16)).cfg 1 0 = 2) = true then !Decidable.decide (20000 * (at_ w4.afe.sens (5 : Fin 16)).thrNow.toNat < 1000000) && (Decidable.decide (1000000 < 1600000) && (at_ w4.afe.sens (5 : Fin 16)).armed || (at_ w4.afe.sens (5 : Fin 16)).cmp) else Decidable.decide (20000 * (at_ w4.afe.sens (5 : Fin 16)).thrNow.toNat + 20000 * fld (at_ w4.afe.sens (5 : Fin 16)).cfg 10 8 < 1000000) || !Decidable.decide (1000000 + 20000 * fld (at_ w4.afe.sens (5 : Fin 16)).cfg 10 8 < 20000 * (at_ w4.afe.sens (5 : Fin 16)).thrNow.toNat) && (at_ w4.afe.sens (5 : Fin 16)).cmp) = (at_ w4.afe.sens (5 : Fin 16)).cmp)) ∧
    ((w10.pwr.pllLock = true) ∧ (bit (at_ w10.afe.sens (5 : Fin 16)).cfg 31 = true) ∧ ((if Decidable.decide (fld (at_ w10.afe.sens (5 : Fin 16)).cfg 1 0 = 2) = true then !Decidable.decide (20000 * (at_ w10.afe.sens (5 : Fin 16)).thrNow.toNat < 100) && (Decidable.decide (100 < 1600000) && (at_ w10.afe.sens (5 : Fin 16)).armed || (at_ w10.afe.sens (5 : Fin 16)).cmp) else Decidable.decide (20000 * (at_ w10.afe.sens (5 : Fin 16)).thrNow.toNat + 20000 * fld (at_ w10.afe.sens (5 : Fin 16)).cfg 10 8 < 100) || !Decidable.decide (100 + 20000 * fld (at_ w10.afe.sens (5 : Fin 16)).cfg 10 8 < 20000 * (at_ w10.afe.sens (5 : Fin 16)).thrNow.toNat) && (at_ w10.afe.sens (5 : Fin 16)).cmp) ≠ (at_ w10.afe.sens (5 : Fin 16)).cmp) ∧ (fld (at_ w10.afe.sens (5 : Fin 16)).cfg 1 0 ≠ 0) ∧ (((if Decidable.decide (fld (at_ w10.afe.sens (5 : Fin 16)).cfg 1 0 = 2) = true then !Decidable.decide (20000 * (at_ w10.afe.sens (5 : Fin 16)).thrNow.toNat < 100) && (Decidable.decide (100 < 1600000) && (at_ w10.afe.sens (5 : Fin 16)).armed || (at_ w10.afe.sens (5 : Fin 16)).cmp) else Decidable.decide (20000 * (at_ w10.afe.sens (5 : Fin 16)).thrNow.toNat + 20000 * fld (at_ w10.afe.sens (5 : Fin 16)).cfg 10 8 < 100) || !Decidable.decide (100 + 20000 * fld (at_ w10.afe.sens (5 : Fin 16)).cfg 10 8 < 20000 * (at_ w10.afe.sens (5 : Fin 16)).thrNow.toNat) && (at_ w10.afe.sens (5 : Fin 16)).cmp) != bit (at_ w10.afe.sens (5 : Fin 16)).cfg 11) = false)) ∧
    ((w12.pwr.pllLock = true) ∧ (bit (at_ w12.afe.sens (5 : Fin 16)).cfg 31 = true) ∧ ((if Decidable.decide (fld (at_ w12.afe.sens (5 : Fin 16)).cfg 1 0 = 2) = true then !Decidable.decide (20000 * (at_ w12.afe.sens (5 : Fin 16)).thrNow.toNat < 900000) && (Decidable.decide (900000 < 1600000) && (at_ w12.afe.sens (5 : Fin 16)).armed || (at_ w12.afe.sens (5 : Fin 16)).cmp) else Decidable.decide (20000 * (at_ w12.afe.sens (5 : Fin 16)).thrNow.toNat + 20000 * fld (at_ w12.afe.sens (5 : Fin 16)).cfg 10 8 < 900000) || !Decidable.decide (900000 + 20000 * fld (at_ w12.afe.sens (5 : Fin 16)).cfg 10 8 < 20000 * (at_ w12.afe.sens (5 : Fin 16)).thrNow.toNat) && (at_ w12.afe.sens (5 : Fin 16)).cmp) ≠ (at_ w12.afe.sens (5 : Fin 16)).cmp) ∧ (fld (at_ w12.afe.sens (5 : Fin 16)).cfg 1 0 ≠ 0) ∧ (((if Decidable.decide (fld (at_ w12.afe.sens (5 : Fin 16)).cfg 1 0 = 2) = true then !Decidable.decide (20000 * (at_ w12.afe.sens (5 : Fin 16)).thrNow.toNat < 900000) && (Decidable.decide (900000 < 1600000) && (at_ w12.afe.sens (5 : Fin 16)).armed || (at_ w12.afe.sens (5 : Fin 16)).cmp) else Decidable.decide (20000 * (at_ w12.afe.sens (5 : Fin 16)).thrNow.toNat + 20000 * fld (at_ w12.afe.sens (5 : Fin 16)).cfg 10 8 < 900000) || !Decidable.decide (900000 + 20000 * fld (at_ w12.afe.sens (5 : Fin 16)).cfg 10 8 < 20000 * (at_ w12.afe.sens (5 : Fin 16)).thrNow.toNat) && (at_ w12.afe.sens (5 : Fin 16)).cmp) != bit (at_ w12.afe.sens (5 : Fin 16)).cfg 11) = true) ∧ ((at_ w12.afe.sens (5 : Fin 16)).cycles ≠ 0) ∧ (BitVec.toNat (32 : Byte) + fld (at_ w12.afe.sens (5 : Fin 16)).cfg 23 16 ≤ BitVec.toNat (128 : Byte))) := by
  (repeat' apply And.intro) <;> first | decide +kernel | (unfold MemCanonical; decide +kernel)
theorem witness_2 :
    ((w18.pwr.pllLock = true) ∧ (fld (at_ w18.afe.itrip (2 : Fin 6)).cfg 27 26 + 1 ≤ x15_18.length ∧ ∀ b < fld (at_ w18.afe.itrip (2 : Fin 6)).cfg 27 26 + 1, (bit (at_ w18.afe.itrip (2 : Fin 6)).cfg 31 && (bit (at_ w18.afe.itrip (2 : Fin 6)).cfg 30 && Decidable.decide (10000 * fld (at_ w18.afe.itrip (2 : Fin 6)).thr 15 8 < x15_18.getD b 0) || bit (at_ w18.afe.itrip (2 : Fin 6)).cfg 29 && Decidable.decide (x15_18.getD b 0 < 10000 * fld (at_ w18.afe.itrip (2 : Fin 6)).thr 7 0))) = true ∧ ¬(bit (at_ w18.afe.itrip (2 : Fin 6)).cfg 25 = true ∧ ∃ p, (p = Fin.ofNat 64 (fld (at_ w18.afe.itrip (2 : Fin 6)).cfg 13 8) ∨ p = partner (Fin.ofNat 64 (fld (at_ w18.afe.itrip (2 : Fin 6)).cfg 13 8)) ∧ (↑(Fin.ofNat 64 (fld (at_ w18.afe.itrip (2 : Fin 6)).cfg 13 8)) : Nat) % 2 = 0 ∧ w18.paired (Fin.ofNat 64 (fld (at_ w18.afe.itrip (2 : Fin 6)).cfg 13 8)) = true) ∧ (w18.chan p).o.chgAt + b ≤ w18.time ∧ w18.time < (w18.chan p).o.chgAt + b + fld (at_ w18.afe.itrip (2 : Fin 6)).cfg 23 18))) ∧
    ((w32.pwr.pllLock = true) ∧ (bit (at_ w32.afe.sens (5 : Fin 16)).cfg 31 = true) ∧ ((if Decidable.decide (fld (at_ w32.afe.sens (5 : Fin 16)).cfg 1 0 = 2) = true then !Decidable.decide (20000 * (at_ w32.afe.sens (5 : Fin 16)).thrNow.toNat < 1900000) && (Decidable.decide (1900000 < 1600000) && (at_ w32.afe.sens (5 : Fin 16)).armed || (at_ w32.afe.sens (5 : Fin 16)).cmp) else Decidable.decide (20000 * (at_ w32.afe.sens (5 : Fin 16)).thrNow.toNat + 20000 * fld (at_ w32.afe.sens (5 : Fin 16)).cfg 10 8 < 1900000) || !Decidable.decide (1900000 + 20000 * fld (at_ w32.afe.sens (5 : Fin 16)).cfg 10 8 < 20000 * (at_ w32.afe.sens (5 : Fin 16)).thrNow.toNat) && (at_ w32.afe.sens (5 : Fin 16)).cmp) ≠ (at_ w32.afe.sens (5 : Fin 16)).cmp) ∧ (fld (at_ w32.afe.sens (5 : Fin 16)).cfg 1 0 = 0)) ∧
    ((w33.pwr.pllLock = true) ∧ (bit (at_ w33.afe.sens (5 : Fin 16)).cfg 31 = true) ∧ ((if Decidable.decide (fld (at_ w33.afe.sens (5 : Fin 16)).cfg 1 0 = 2) = true then !Decidable.decide (20000 * (at_ w33.afe.sens (5 : Fin 16)).thrNow.toNat < 1900000) && (Decidable.decide (1900000 < 1600000) && (at_ w33.afe.sens (5 : Fin 16)).armed || (at_ w33.afe.sens (5 : Fin 16)).cmp) else Decidable.decide (20000 * (at_ w33.afe.sens (5 : Fin 16)).thrNow.toNat + 20000 * fld (at_ w33.afe.sens (5 : Fin 16)).cfg 10 8 < 1900000) || !Decidable.decide (1900000 + 20000 * fld (at_ w33.afe.sens (5 : Fin 16)).cfg 10 8 < 20000 * (at_ w33.afe.sens (5 : Fin 16)).thrNow.toNat) && (at_ w33.afe.sens (5 : Fin 16)).cmp) ≠ (at_ w33.afe.sens (5 : Fin 16)).cmp) ∧ (fld (at_ w33.afe.sens (5 : Fin 16)).cfg 1 0 ≠ 0) ∧ (((if Decidable.decide (fld (at_ w33.afe.sens (5 : Fin 16)).cfg 1 0 = 2) = true then !Decidable.decide (20000 * (at_ w33.afe.sens (5 : Fin 16)).thrNow.toNat < 1900000) && (Decidable.decide (1900000 < 1600000) && (at_ w33.afe.sens (5 : Fin 16)).armed || (at_ w33.afe.sens (5 : Fin 16)).cmp) else Decidable.decide (20000 * (at_ w33.afe.sens (5 : Fin 16)).thrNow.toNat + 20000 * fld (at_ w33.afe.sens (5 : Fin 16)).cfg 10 8 < 1900000) || !Decidable.decide (1900000 + 20000 * fld (at_ w33.afe.sens (5 : Fin 16)).cfg 10 8 < 20000 * (at_ w33.afe.sens (5 : Fin 16)).thrNow.toNat) && (at_ w33.afe.sens (5 : Fin 16)).cmp) != bit (at_ w33.afe.sens (5 : Fin 16)).cfg 11) = true) ∧ ((at_ w33.afe.sens (5 : Fin 16)).cycles = 0)) ∧
    ((w35.pwr.pllLock = true) ∧ (bit (at_ w35.afe.sens (5 : Fin 16)).cfg 31 = true) ∧ ((if Decidable.decide (fld (at_ w35.afe.sens (5 : Fin 16)).cfg 1 0 = 2) = true then !Decidable.decide (20000 * (at_ w35.afe.sens (5 : Fin 16)).thrNow.toNat < 1900000) && (Decidable.decide (1900000 < 1600000) && (at_ w35.afe.sens (5 : Fin 16)).armed || (at_ w35.afe.sens (5 : Fin 16)).cmp) else Decidable.decide (20000 * (at_ w35.afe.sens (5 : Fin 16)).thrNow.toNat + 20000 * fld (at_ w35.afe.sens (5 : Fin 16)).cfg 10 8 < 1900000) || !Decidable.decide (1900000 + 20000 * fld (at_ w35.afe.sens (5 : Fin 16)).cfg 10 8 < 20000 * (at_ w35.afe.sens (5 : Fin 16)).thrNow.toNat) && (at_ w35.afe.sens (5 : Fin 16)).cmp) ≠ (at_ w35.afe.sens (5 : Fin 16)).cmp) ∧ (fld (at_ w35.afe.sens (5 : Fin 16)).cfg 1 0 ≠ 0) ∧ (((if Decidable.decide (fld (at_ w35.afe.sens (5 : Fin 16)).cfg 1 0 = 2) = true then !Decidable.decide (20000 * (at_ w35.afe.sens (5 : Fin 16)).thrNow.toNat < 1900000) && (Decidable.decide (1900000 < 1600000) && (at_ w35.afe.sens (5 : Fin 16)).armed || (at_ w35.afe.sens (5 : Fin 16)).cmp) else Decidable.decide (20000 * (at_ w35.afe.sens (5 : Fin 16)).thrNow.toNat + 20000 * fld (at_ w35.afe.sens (5 : Fin 16)).cfg 10 8 < 1900000) || !Decidable.decide (1900000 + 20000 * fld (at_ w35.afe.sens (5 : Fin 16)).cfg 10 8 < 20000 * (at_ w35.afe.sens (5 : Fin 16)).thrNow.toNat) && (at_ w35.afe.sens (5 : Fin 16)).cmp) != bit (at_ w35.afe.sens (5 : Fin 16)).cfg 11) = true) ∧ ((at_ w35.afe.sens (5 : Fin 16)).cycles ≠ 0) ∧ (BitVec.toNat (128 : Byte) < BitVec.toNat (32 : Byte) + fld (at_ w35.afe.sens (5 : Fin 16)).cfg 23 16)) := by
  (repeat' apply And.intro) <;> first | decide +kernel | (unfold MemCanonical; decide +kernel)
end SensorsTripsAndChecks

/-! ### ConversionsAndSignatures -/
namespace ConversionsAndSignatures
def w0 : State := (su 50)
def w1 : State := dn ((su 50))
def w2 : State := ADC ax (su 3)
def w3 : State := ADC { ax with conv := some 4 } (su 3)
def w4 : State := ADC { ax with conv := some 4, latched := true } (su 3)
def w7 : State := ADC { ax with conv := some 4, seq := .replicate 16 0x0003, entry := 4, loop := true } (su 3)
def w8 : State := ADC { ax with conv := some 15, seq := .replicate 16 0x0043, entry := 15, loop := true } (su 3)
def w9 : State := ADC { ax with conv := some 4, seq := .replicate 16 0x0043, entry := 4, latched := true } (su 3)
def w10 : State := ADC { ax with conv := none, seq := .replicate 16 0x0043, entry := 4 } (su 3)
def w12 : State := SG g1 (su 3)
def w13 : State := SG { g1 with run := none } (su 3)
def w24 : State := SG { g1 with run := none, cfg := 0x20C40300, due := 0 } (su 3)
def w30 : State := SG { g1 with run := some { link := 2, enrol := none, pulses := 1024 }, due := 0 } (su 3)
def x8_30 : List Byte := fp
def w31 : State := SG { g1 with slots := .replicate 16 {}, run := some { link := 2, enrol := none, pulses := 1024 }, due := 0 } (su 3)
def x8_31 : List Byte := fp
def w32 : State := SG { g1 with run := some { link := 2, enrol := none, since := 999999999999 }, due := 0 } (su 3)
theorem witness_1 :
    ((w0.pwr.pllLock = true) ∧ ((w0.adc (1 : Fin 2)).watched = Option.none)) ∧
    ((w0.pwr.pllLock = true) ∧ ((w0.adc (1 : Fin 2)).conv = Option.none ∨ w0.time - (w0.adc (1 : Fin 2)).convAt < 50)) ∧
    ((w0.pwr.pllLock = true) ∧ (w0.afe.sig.run = Option.none) ∧ ((9 : Fin 256) ≠ (0 : Fin 256)) ∧ ((9 : Fin 256) ≠ (255 : Fin 256))) ∧
    ((w0.pwr.pllLock = true) ∧ (fld w0.afe.sig.cfg 15 8 = 0)) ∧
    ((w1.pwr.pllLock = false)) ∧
    ((w2.pwr.pllLock = true) ∧ ((w2.adc (1 : Fin 2)).watched = Option.some (Fin.ofNat 16 4)) ∧ (fld (at_ (w2.adc (1 : Fin 2)).seq (Fin.ofNat 16 4)) 6 4 = BitVec.toNat (1 : BitVec 3)) ∧ (fld (at_ (w2.adc (1 : Fin 2)).seq (Fin.ofNat 16 4)) 13 8 = BitVec.toNat (5 : BitVec 6)) ∧ ((w2.adc (1 : Fin 2)).conv = Option.none)) ∧
    ((w2.pwr.pllLock = true) ∧ ((w2.adc (1 : Fin 2)).watched = Option.some (Fin.ofNat 16 4)) ∧ (fld (at_ (w2.adc (1 : Fin 2)).seq (Fin.ofNat 16 4)) 6 4 ≠ 4 ∨ fld (at_ (w2.adc (1 : Fin 2)).seq (Fin.ofNat 16 4)) 13 8 ≠ 0)) ∧
    ((w3.pwr.pllLock = true) ∧ ((w3.adc (1 : Fin 2)).watched = Option.some (Fin.ofNat 16 5)) ∧ (fld (at_ (w3.adc (1 : Fin 2)).seq (Fin.ofNat 16 5)) 6 4 = BitVec.toNat (1 : BitVec 3)) ∧ (fld (at_ (w3.adc (1 : Fin 2)).seq (Fin.ofNat 16 5)) 13 8 = BitVec.toNat (5 : BitVec 6)) ∧ ((w3.adc (1 : Fin 2)).conv ≠ Option.none) ∧ ((w3.adc (1 : Fin 2)).latched = false)) := by
  (repeat' apply And.intro) <;> first | decide +kernel | (unfold MemCanonical; decide +kernel)
theorem witness_2 :
    ((w3.pwr.pllLock = true) ∧ ((w3.adc (1 : Fin 2)).conv = Option.some (Fin.ofNat 16 4)) ∧ (50 ≤ w3.time - (w3.adc (1 : Fin 2)).convAt) ∧ ((w3.adc (1 : Fin 2)).run = true) ∧ ((w3.adc (1 : Fin 2)).fenced = false) ∧ ((w3.adc (1 : Fin 2)).noadv = false)) ∧
    ((w4.pwr.pllLock = true) ∧ ((w4.adc (1 : Fin 2)).watched = Option.some (Fin.ofNat 16 5)) ∧ (fld (at_ (w4.adc (1 : Fin 2)).seq (Fin.ofNat 16 5)) 6 4 = BitVec.toNat (1 : BitVec 3)) ∧ (fld (at_ (w4.adc (1 : Fin 2)).seq (Fin.ofNat 16 5)) 13 8 = BitVec.toNat (5 : BitVec 6)) ∧ ((w4.adc (1 : Fin 2)).conv ≠ Option.none) ∧ ((w4.adc (1 : Fin 2)).latched = true)) ∧
    ((w7.pwr.pllLock = true) ∧ ((w7.adc (1 : Fin 2)).watched = Option.some (Fin.ofNat 16 5)) ∧ (fld (at_ (w7.adc (1 : Fin 2)).seq (Fin.ofNat 16 5)) 6 4 ≠ BitVec.toNat (1 : BitVec 3) ∨ fld (at_ (w7.adc (1 : Fin 2)).seq (Fin.ofNat 16 5)) 13 8 ≠ BitVec.toNat (5 : BitVec 6))) ∧
    ((w8.pwr.pllLock = true) ∧ ((w8.adc (1 : Fin 2)).watched = Option.some (Fin.ofNat 16 0)) ∧ (fld (at_ (w8.adc (1 : Fin 2)).seq (Fin.ofNat 16 0)) 6 4 = 4) ∧ (fld (at_ (w8.adc (1 : Fin 2)).seq (Fin.ofNat 16 0)) 13 8 = 0) ∧ ((w8.adc (1 : Fin 2)).conv ≠ Option.none) ∧ ((w8.adc (1 : Fin 2)).latched = false)) ∧
    ((w9.pwr.pllLock = true) ∧ ((w9.adc (1 : Fin 2)).watched = Option.some (Fin.ofNat 16 5)) ∧ (fld (at_ (w9.adc (1 : Fin 2)).seq (Fin.ofNat 16 5)) 6 4 = 4) ∧ (fld (at_ (w9.adc (1 : Fin 2)).seq (Fin.ofNat 16 5)) 13 8 = 0) ∧ ((w9.adc (1 : Fin 2)).conv ≠ Option.none) ∧ ((w9.adc (1 : Fin 2)).latched = true)) ∧
    ((w10.pwr.pllLock = true) ∧ ((w10.adc (1 : Fin 2)).watched = Option.some (Fin.ofNat 16 4)) ∧ (fld (at_ (w10.adc (1 : Fin 2)).seq (Fin.ofNat 16 4)) 6 4 = 4) ∧ (fld (at_ (w10.adc (1 : Fin 2)).seq (Fin.ofNat 16 4)) 13 8 = 0) ∧ ((w10.adc (1 : Fin 2)).conv = Option.none)) ∧
    ((w12.pwr.pllLock = true) ∧ (w12.afe.sig.run ≠ Option.none)) ∧
    ((w12.pwr.pllLock = true) ∧ (w12.afe.sig.run = Option.some { link := (2 : Fin 4), enrol := Option.none }) ∧ (w12.afe.sig.due = (0 : BitVec 4)) ∧ (({ link := (2 : Fin 4), enrol := Option.none } : SigRun).pulses ≠ 1024)) := by
  (repeat' apply And.intro) <;> first | decide +kernel | (unfold MemCanonical; decide +kernel)
theorem witness_3 :
    ((w12.pwr.pllLock = true) ∧ (w12.afe.sig.run = Option.some { link := (2 : Fin 4), enrol := Option.none }) ∧ (w12.afe.sig.due = (0 : BitVec 4)) ∧ (Instr.sigCmdAbort = Instr.sigCmdAbort ∨ Instr.sigCmdAbort = Instr.sigWindowTimeout ∧ 200000000 ≤ w12.time - ({ link := (2 : Fin 4), enrol := Option.none } : SigRun).since)) ∧
    ((w13.pwr.pllLock = true) ∧ (w13.afe.sig.run = Option.none) ∧ (fld w13.afe.sig.cfg 15 8 ≠ 0) ∧ ((bit w13.afe.sig.due (2 : Fin 4).val || bit w13.afe.sig.cfg (16 + (2 : Fin 4).val)) = true) ∧ (∀ j < (2 : Fin 4).val, (bit w13.afe.sig.due j || bit w13.afe.sig.cfg (16 + j)) = false)) ∧
    ((w24.pwr.pllLock = true) ∧ (w24.afe.sig.run = Option.none) ∧ ((0 : Fin 256) = (0 : Fin 256) ∨ (0 : Fin 256) = (255 : Fin 256))) ∧
    ((w30.pwr.pllLock = true) ∧ (w30.afe.sig.run = Option.some { link := (2 : Fin 4), enrol := Option.none, pulses := 1024 }) ∧ (w30.afe.sig.due = (0 : BitVec 4)) ∧ (({ link := (2 : Fin 4), enrol := Option.none, pulses := 1024 } : SigRun).enrol = Option.none) ∧ (({ link := (2 : Fin 4), enrol := Option.none, pulses := 1024 } : SigRun).pulses = 1024) ∧ (x8_30.length = 64) ∧ ((at_ w30.afe.sig.slots (Fin.ofNat 16 5)).valid = true ∧ (at_ w30.afe.sig.slots (Fin.ofNat 16 5)).en = true) ∧ ((at_ w30.afe.sig.slots (Fin.ofNat 16 5)).link = ({ link := (2 : Fin 4), enrol := Option.none, pulses := 1024 } : SigRun).link) ∧ (∀ (i : Fin 16), (at_ w30.afe.sig.slots i).valid = true ∧ (at_ w30.afe.sig.slots i).en = true → (at_ w30.afe.sig.slots i).link = ({ link := (2 : Fin 4), enrol := Option.none, pulses := 1024 } : SigRun).link → i ≠ Fin.ofNat 16 5 → (List.map (fun t => (BitVec.toInt (x8_30.getD t (0 : Byte)) - BitVec.toInt (w30.tmplTap (Fin.ofNat 16 5) t)).natAbs) (List.range 64)).sum < (List.map (fun t => (BitVec.toInt (x8_30.getD t (0 : Byte)) - BitVec.toInt (w30.tmplTap i t)).natAbs) (List.range 64)).sum ∨ (List.map (fun t => (BitVec.toInt (x8_30.getD t (0 : Byte)) - BitVec.toInt (w30.tmplTap (Fin.ofNat 16 5) t)).natAbs) (List.range 64)).sum = (List.map (fun t => (BitVec.toInt (x8_30.getD t (0 : Byte)) - BitVec.toInt (w30.tmplTap i t)).natAbs) (List.range 64)).sum ∧ Fin.ofNat 16 5 < i)) ∧
    ((w31.pwr.pllLock = true) ∧ (w31.afe.sig.run = Option.some { link := (2 : Fin 4), enrol := Option.none, pulses := 1024 }) ∧ (w31.afe.sig.due = (0 : BitVec 4)) ∧ (({ link := (2 : Fin 4), enrol := Option.none, pulses := 1024 } : SigRun).enrol = Option.none) ∧ (({ link := (2 : Fin 4), enrol := Option.none, pulses := 1024 } : SigRun).pulses = 1024) ∧ (x8_31.length = 64) ∧ (∀ (j : Fin 16), ¬(((at_ w31.afe.sig.slots j).valid = true ∧ (at_ w31.afe.sig.slots j).en = true) ∧ (at_ w31.afe.sig.slots j).link = ({ link := (2 : Fin 4), enrol := Option.none, pulses := 1024 } : SigRun).link))) ∧
    ((w32.pwr.pllLock = true) ∧ (w32.afe.sig.run = Option.some { link := (2 : Fin 4), enrol := Option.none, since := 999999999999 }) ∧ (w32.afe.sig.due = (0 : BitVec 4)) ∧ (w32.time - ({ link := (2 : Fin 4), enrol := Option.none, since := 999999999999 } : SigRun).since < 200000000)) := by
  (repeat' apply And.intro) <;> first | decide +kernel | (unfold MemCanonical; decide +kernel)
end ConversionsAndSignatures
end W10

namespace W11
def cn (s : State) : State := { s with tsi := { s.tsi with conn := [] }, sc := { s.sc with recs := [(7, { bind := 0x80000000, rights := 0xFFFFFFFF, grant := 0xFFFFFFFFFFFFFFFF, quota := 0x00000004 })] } }
def bankOn (cells : List Host.Cell) (s : State) : State := cn { s with mem := { s.mem with cells := cells, errs := [], banks := .replicate 8 { st := .on }, lock := none }, cw := .replicate 16 {} }
def cells0 : List Host.Cell := [(0x20000, 0x81), (0x20001, 0x92), (0x20002, 0xA3), (0x20003, 0xF4), (0x20008, 9), (0x2400A, 7)]
def B0 := bankOn cells0
def BK (b : Fin 8) (x : Bank) (s : State) : State := { s with mem := { s.mem with banks := vset s.mem.banks b (fun _ => x) } }
def CW (n : Fin 16) (x : CircWin) (s : State) : State := { s with cw := vset s.cw n (fun _ => x) }
def DM (c : Fin 8) (x : DmaChan) (s : State) : State := { s with dma := vset s.dma c (fun _ => x) }
def due (s : State) (b : Nat) : State := { s with tbs := { run := true, tb := BitVec.ofNat 48 (200000 * 77 + 25000 * b) }, mem := { s.mem with tctl := 0xFF } }
def quiet (s : State) : State := { s with dma := .replicate 8 {}, afe := { s.afe with adc := s.afe.adc.map fun a => { a with copies := [] } } }

/-! ### MemoryAndDmaCommands -/
namespace MemoryAndDmaCommands
def w0 : State := B (fun b => { b with locked := true }) (B0 (su 3))
def w1 : State := dn (B (fun b => { b with locked := true }) (B0 (su 3)))
def w2 : State := B0 (su 3)
def w7 : State := B0 (su 3)
def w8 : State := CW 3 { en := true, base := 0x800, log2 := 6 } (due (B0 (su 3)) 1)
def w9 : State := CW 3 { en := false, base := 0x800, log2 := 6 } (due (B0 (su 3)) 1)
def w14 : State := CW 3 { en := false, base := 0x800, log2 := 7 } (due (B0 (su 3)) 1)
def w15 : State := BK 1 { st := .on, phase := .march } (due (B0 (su 3)) 1)
def w18 : State := BK 1 { st := .fenced } (B0 (su 3))
def w19 : State := BK 1 { st := .rdmTest } (B0 (su 3))
def w20 : State := BK 1 { st := .rdmFill } (B0 (su 3))
def w23 : State := B0 (DM 2 { en := true, st := .move, src := 0x20000, dst := 0x24008, rem := 5, w2 := 0x02000005, w3 := 0 } (su 3))
def w24 : State := DM 2 { en := true, st := .move, src := 0x20000, dst := 0x24008, rem := 1, w2 := 0x02000005, w3 := 0x2C00 } (B0 (su 3))
def w26 : State := DM 2 { en := true, st := .move, src := 0x20000, dst := 0x24008, rem := 5, w2 := 0x02000005, w3 := 0x2420 } (B0 (su 3))
def w27 : State := DM 2 { en := true, st := .move, src := 0x20000, dst := 0x24008, rem := 5, w2 := 0x02000005, w3 := 0x2420, burst := 2 } (B0 (su 3))
def w28 : State := DM 2 { en := true, st := .move, src := 0x20000, dst := 0x24008, rem := 5, w2 := 0x02000005, w3 := 0x2420, burst := 2, heldPulse := true } (B0 (su 3))
def w29 : State := DM 2 { en := false, st := .done, first := 0x2000 } (bankOn [(0x20002,2),(0x20005,0x40),(0x20006,2),(0x20008,5),(0x2000D,0x2C)] (su 3))
def w45 : State := Y (fun c => { c with ports := [1] }) (B0 (su 3))
def w46 : State := DM 2 { en := true, st := .move, wait := 4096 } (B0 (su 3))
def w47 : State := DM 2 { en := false, st := .done, first := 0x2000 } (quiet ((fun s : State => { s with mem := { s.mem with lock := some 0x20000 } }) <| bankOn [] { su 3 with mem := (su 3).mem }))
def w53 : State := (fun s : State => { s with afe := { s.afe with adc := vset s.afe.adc 0 (fun x => { x with copies := [(0, 0x1234)], dst := 0x80020040 }) } }) (quiet (B0 (su 3)))
theorem witness_1 :
    ((w0.pwr.pllLock = true) ∧ (MemCanonical w0) ∧ (isMemAddr (BitVec.toNat (131072 : BitVec 20)) = true ∧ BitVec.toNat (131072 : BitVec 20) % 2 ^ (2 : Fin 3).val = 0 ∧ w0.resolve (BitVec.toNat (131072 : BitVec 20)) = Option.some 131072 ∧ 131072 % 2 ^ (2 : Fin 3).val = 0 ∧ w0.mem.lock = Option.none ∧ (w0.bank (bankOf 131072)).st = BankState.on ∧ (w0.bank (bankOf 131072)).recov = false ∧ bankOf 131072 ∉ w0.cyc.ports ∧ (w0.bank (bankOf ((131072 / 4 : Nat) * 4))).st = BankState.on ∧ cellRead 0 w0.mem.errs ((131072 / 4 : Nat) * 4) = 0 ∧ cellWf 0 w0.mem.errs = true)) ∧
    ((w0.pwr.pllLock = true) ∧ (MemCanonical w0) ∧ ((w0.cwin (3 : Fin 16)).en = false) ∧ (bit (2147487744 : Word) 31 = true) ∧ ((w0.cwin (3 : Fin 16)).log2.toNat < 6 ∨ 14 < (w0.cwin (3 : Fin 16)).log2.toNat ∨ fld (2147487744 : Word) 17 6 * 64 % 2 ^ (w0.cwin (3 : Fin 16)).log2.toNat ≠ 0 ∨ fld (2147487744 : Word) 17 6 < 2048)) ∧
    ((w0.pwr.pllLock = true) ∧ (MemCanonical w0) ∧ (w0.testDue (1 : Fin 8) = false)) ∧
    ((w0.pwr.pllLock = true) ∧ (MemCanonical w0) ∧ (w0.boot.locked = true)) ∧
    ((w0.pwr.pllLock = true) ∧ (MemCanonical w0) ∧ ((w0.bank (1 : Fin 8)).st ≠ BankState.fenced)) ∧
    ((w0.pwr.pllLock = true) ∧ (MemCanonical w0) ∧ ((w0.bank (1 : Fin 8)).st = BankState.on ∨ (w0.bank (1 : Fin 8)).st = BankState.fill ∨ (w0.bank (1 : Fin 8)).st = BankState.fenced)) ∧
    ((w0.pwr.pllLock = true) ∧ (MemCanonical w0) ∧ ((w0.dmac (2 : Fin 8)).wait < 4096)) ∧
    ((w0.pwr.pllLock = true) ∧ (MemCanonical w0) ∧ ((w0.dmac (2 : Fin 8)).st ≠ DmaState.move ∧ (w0.dmac (2 : Fin 8)).st ≠ DmaState.load ∨ reqPulse (w0.dmac (2 : Fin 8)).reqsel = false)) := by
  (repeat' apply And.intro) <;> first | decide +kernel | (unfold MemCanonical; decide +kernel)
theorem witness_2 :
    ((w0.pwr.pllLock = true) ∧ (MemCanonical w0) ∧ ((w0.dmac (2 : Fin 8)).en = false ∨ (w0.dmac (2 : Fin 8)).st = DmaState.done ∨ (w0.dmac (2 : Fin 8)).st = DmaState.error) ∧ ((w0.dmac (2 : Fin 8)).first.toNat * 16 < 131072 ∨ 262144 ≤ (w0.dmac (2 : Fin 8)).first.toNat * 16)) ∧
    ((w0.pwr.pllLock = true) ∧ (MemCanonical w0) ∧ (∀ y ∈ w0.cyc.dmaOff, y.1 ≠ (2 : Fin 8)) ∧ (w0.dmaAsks (2 : Fin 8) = false)) ∧
    ((w1.pwr.pllLock = false)) ∧
    ((w2.pwr.pllLock = true) ∧ (MemCanonical w2) ∧ (w2.boot.locked = false)) ∧
    ((w7.pwr.pllLock = true) ∧ (MemCanonical w7) ∧ (isMemAddr (BitVec.toNat (524288 : BitVec 20)) = false)) ∧
    ((w8.pwr.pllLock = true) ∧ (MemCanonical w8) ∧ ((w8.cwin (3 : Fin 16)).en = true) ∧ (bit (2147614721 : Word) 31 = true)) ∧
    ((w8.pwr.pllLock = true) ∧ (MemCanonical w8) ∧ (w8.testDue (1 : Fin 8) = true) ∧ ((w8.bank (1 : Fin 8)).phase = TestPhase.none)) ∧
    ((w9.pwr.pllLock = true) ∧ (MemCanonical w9) ∧ ((w9.cwin (3 : Fin 16)).en = false) ∧ (bit (2147614724 : Word) 31 = true) ∧ (6 ≤ (w9.cwin (3 : Fin 16)).log2.toNat) ∧ ((w9.cwin (3 : Fin 16)).log2.toNat ≤ 14) ∧ (fld (2147614724 : Word) 17 6 * 64 % 2 ^ (w9.cwin (3 : Fin 16)).log2.toNat = 0) ∧ (2048 ≤ fld (2147614724 : Word) 17 6)) := by
  (repeat' apply And.intro) <;> first | decide +kernel | (unfold MemCanonical; decide +kernel)
theorem witness_3 :
    ((w14.pwr.pllLock = true) ∧ (MemCanonical w14) ∧ (bit (131136 : Word) 31 = false)) ∧
    ((w15.pwr.pllLock = true) ∧ (MemCanonical w15) ∧ ((1 : Fin 8) ∉ w15.cyc.ports) ∧ ((w15.bank (1 : Fin 8)).st = BankState.on) ∧ ((w15.bank (1 : Fin 8)).phase = TestPhase.march) ∧ ((w15.bank (1 : Fin 8)).done < 191) ∧ (w15.mem.lock = Option.none)) ∧
    ((w15.pwr.pllLock = true) ∧ (MemCanonical w15) ∧ (w15.testDue (1 : Fin 8) = true) ∧ ((w15.bank (1 : Fin 8)).phase ≠ TestPhase.none)) ∧
    ((w18.pwr.pllLock = true) ∧ (MemCanonical w18) ∧ ((w18.bank (1 : Fin 8)).st = BankState.fenced)) ∧
    ((w19.pwr.pllLock = true) ∧ (MemCanonical w19) ∧ ((w19.bank (1 : Fin 8)).st = BankState.rdmTest)) ∧
    ((w20.pwr.pllLock = true) ∧ (MemCanonical w20) ∧ ((w20.bank (1 : Fin 8)).st = BankState.rdmFill)) ∧
    ((w23.pwr.pllLock = true) ∧ (MemCanonical w23) ∧ ((w23.dmac (2 : Fin 8)).en = true) ∧ ((w23.dmac (2 : Fin 8)).st ≠ DmaState.done) ∧ ((w23.dmac (2 : Fin 8)).st ≠ DmaState.error)) ∧
    ((w24.pwr.pllLock = true) ∧ (MemCanonical w24) ∧ (∀ y ∈ w24.cyc.dmaOff, y.1 ≠ (2 : Fin 8)) ∧ ((w24.dmac (2 : Fin 8)).en = true) ∧ (w24.dmaReady (2 : Fin 8) = true) ∧ ((w24.dmac (2 : Fin 8)).freeAt ≤ w24.time) ∧ ((w24.dmac (2 : Fin 8)).size = 2) ∧ (isBankAddr (w24.dmac (2 : Fin 8)).src.toNat = true) ∧ (isBankAddr (w24.dmac (2 : Fin 8)).dst.toNat = true) ∧ ((w24.dmac (2 : Fin 8)).src.toNat % 4 = 0) ∧ ((w24.dmac (2 : Fin 8)).dst.toNat % 4 = 0) ∧ (w24.mem.lock = Option.none) ∧ ((w24.bank (bankOf (w24.dmac (2 : Fin 8)).src.toNat)).st = BankState.on) ∧ ((w24.bank (bankOf (w24.dmac (2 : Fin 8)).dst.toNat)).st = BankState.on) ∧ ((w24.bank (bankOf (w24.dmac (2 : Fin 8)).src.toNat)).recov = false) ∧ ((w24.bank (bankOf (w24.dmac (2 : Fin 8)).dst.toNat)).recov = false) ∧ (w24.dmaLoses (2 : Fin 8) (bankOf (w24.dmac (2 : Fin 8)).src.toNat) = false) ∧ (w24.dmaLoses (2 : Fin 8) (bankOf (w24.dmac (2 : Fin 8)).dst.toNat) = false) ∧ (cellRead 0 w24.mem.errs (w24.dmac (2 : Fin 8)).src.toNat = 0) ∧ (reqPulse (w24.dmac (2 : Fin 8)).reqsel = false) ∧ ((w24.dmac (2 : Fin 8)).rem ≠ (0 : BitVec 16)) ∧ ((w24.dmac (2 : Fin 8)).next = 0)) := by
  (repeat' apply And.intro) <;> first | decide +kernel | (unfold MemCanonical; decide +kernel)
theorem witness_4 :
    (w47.pwr.pllLock = true) ∧ (MemCanonical w47) ∧ (isMemAddr (BitVec.toNat (131072 : BitVec 20)) = true) ∧ (BitVec.toNat (131072 : BitVec 20) % 2 ^ (2 : Fin 3).val ≠ 0 ∨ ∃ q, w47.resolve (BitVec.toNat (131072 : BitVec 20)) = Option.some q ∧ (w47.mem.lock = Option.some (q / 4 * 4) ∨ (w47.bank (bankOf q)).st = BankState.fill ∨ (w47.bank (bankOf q)).recov = true)) := by
  (repeat' apply And.intro) <;> first | exact ⟨_, rfl, by decide +kernel⟩ | decide +kernel | (unfold MemCanonical; decide +kernel)
theorem witness_5 :
    ((w26.pwr.pllLock = true) ∧ (MemCanonical w26) ∧ ((w26.dmac (2 : Fin 8)).st = DmaState.move ∨ (w26.dmac (2 : Fin 8)).st = DmaState.load) ∧ (reqPulse (w26.dmac (2 : Fin 8)).reqsel = true) ∧ ((w26.dmac (2 : Fin 8)).st = DmaState.move) ∧ ((w26.dmac (2 : Fin 8)).burst = 0)) ∧
    ((w27.pwr.pllLock = true) ∧ (MemCanonical w27) ∧ ((w27.dmac (2 : Fin 8)).st = DmaState.move ∨ (w27.dmac (2 : Fin 8)).st = DmaState.load) ∧ (reqPulse (w27.dmac (2 : Fin 8)).reqsel = true) ∧ ((w27.dmac (2 : Fin 8)).st = DmaState.load ∨ (w27.dmac (2 : Fin 8)).burst ≠ 0) ∧ ((w27.dmac (2 : Fin 8)).heldPulse = false)) ∧
    ((w28.pwr.pllLock = true) ∧ (MemCanonical w28) ∧ ((w28.dmac (2 : Fin 8)).st = DmaState.move ∨ (w28.dmac (2 : Fin 8)).st = DmaState.load) ∧ (reqPulse (w28.dmac (2 : Fin 8)).reqsel = true) ∧ ((w28.dmac (2 : Fin 8)).st = DmaState.load ∨ (w28.dmac (2 : Fin 8)).burst ≠ 0) ∧ ((w28.dmac (2 : Fin 8)).heldPulse = true)) ∧
    ((w29.pwr.pllLock = true) ∧ (MemCanonical w29) ∧ ((w29.dmac (2 : Fin 8)).en = false ∨ (w29.dmac (2 : Fin 8)).st = DmaState.done ∨ (w29.dmac (2 : Fin 8)).st = DmaState.error) ∧ (131072 ≤ (w29.dmac (2 : Fin 8)).first.toNat * 16) ∧ ((w29.dmac (2 : Fin 8)).first.toNat * 16 < 262144) ∧ ((w29.bank (bankOf ((w29.dmac (2 : Fin 8)).first.toNat * 16))).st = BankState.on) ∧ ((w29.bank (bankOf ((w29.dmac (2 : Fin 8)).first.toNat * 16))).recov = false) ∧ (w29.mem.lock = Option.none) ∧ (∀ (i : Fin 4), cellRead 0 w29.mem.errs ((w29.dmac (2 : Fin 8)).first.toNat * 16 + 4 * (↑i : Nat)) = 0 ∧ bankOf ((w29.dmac (2 : Fin 8)).first.toNat * 16 + 4 * (↑i : Nat)) = bankOf ((w29.dmac (2 : Fin 8)).first.toNat * 16)) ∧ (w29.dmaCheck (7 : Fin 256) (w29.bankData ((w29.dmac (2 : Fin 8)).first.toNat * 16)) (w29.bankData ((w29.dmac (2 : Fin 8)).first.toNat * 16 + 4)) (w29.bankData ((w29.dmac (2 : Fin 8)).first.toNat * 16 + 8)) (w29.bankData ((w29.dmac (2 : Fin 8)).first.toNat * 16 + 12)) (BitVec.toNat (w29.bankData ((w29.dmac (2 : Fin 8)).first.toNat * 16 + 4)) % 2 ^ 20) = 0)) ∧
    ((w45.pwr.pllLock = true) ∧ (MemCanonical w45) ∧ ((1 : Fin 8) ∈ w45.cyc.ports)) ∧
    ((w46.pwr.pllLock = true) ∧ (MemCanonical w46) ∧ (4096 ≤ (w46.dmac (2 : Fin 8)).wait)) ∧
    ((w47.pwr.pllLock = true) ∧ (MemCanonical w47) ∧ ((w47.dmac (2 : Fin 8)).en = false ∨ (w47.dmac (2 : Fin 8)).st = DmaState.done ∨ (w47.dmac (2 : Fin 8)).st = DmaState.error) ∧ (131072 ≤ (w47.dmac (2 : Fin 8)).first.toNat * 16) ∧ ((w47.dmac (2 : Fin 8)).first.toNat * 16 < 262144) ∧ (w47.mem.lock = Option.some ((w47.dmac (2 : Fin 8)).first.toNat * 16) ∨ (w47.bank (bankOf ((w47.dmac (2 : Fin 8)).first.toNat * 16))).st = BankState.fill ∨ (w47.bank (bankOf ((w47.dmac (2 : Fin 8)).first.toNat * 16))).recov = true)) ∧
    ((w53.pwr.pllLock = true) ∧ (MemCanonical w53) ∧ ((w53.adc (0 : Fin 2)).copies = [((0 : Fin 16), (4660 : BitVec 16))]) ∧ (State.adcAddr (w53.adc (0 : Fin 2)) (0 : Fin 16) = Option.some 131136) ∧ (isBankAddr 131136 = true) ∧ (131136 % 2 = 0) ∧ (w53.mem.lock = Option.none) ∧ ((w53.bank (bankOf 131136)).st = BankState.on) ∧ ((w53.bank (bankOf 131136)).recov = false) ∧ ((w53.bank (bankOf 131136)).phase = TestPhase.none) ∧ ((w53.bank (bankOf ((131136 / 4 : Nat) * 4))).st = BankState.on) ∧ (cellRead 0 w53.mem.errs ((131136 / 4 : Nat) * 4) = 0) ∧ (bankOf 131136 ∉ w53.cyc.ports) ∧ ((0 : Fin 2) = (0 : Fin 2) ∨ (w53.adc (0 : Fin 2)).copies = [])) := by
  (repeat' apply And.intro) <;> first | decide +kernel | (unfold MemCanonical; decide +kernel)
end MemoryAndDmaCommands
end W11

namespace W12
def IN (f : Intc → Intc) (s : State) : State := { s with pwr := { s.pwr with pd1Up := true, pdUp := true }, flt := { s.flt with supReset := false }, intc := f s.intc }
def i0 (pend insv : Nat) : Intc := { pri := [(3,1),(5,1),(40,2),(41,0)], pend := BitVec.ofNat 192 pend, insv := BitVec.ofNat 192 insv, sen := BitVec.ofNat 192 (2^3+2^40+2^41), pen := #v[BitVec.ofNat 192 (2^5+2^41),BitVec.ofNat 192 (2^5+2^42),0,0], claimant := [(6, 1), (7, 2), (8, 0)] }
def rec7 (k : Nat) : ClientRec := { bind := BitVec.ofNat 32 (0x80000000 + k * 0x10000000), rights := 0xFFFFFFFF, grant := 0xFFFFFFFFFFFFFFFF }
def hpS (k : Nat) (s : State) : State := { s with pwr := { s.pwr with vioGood := true, pd1Up := true, pdUp := true, st := .run, compat := false }, boot := { s.boot with applied := true }, sc := { s.sc with recs := [(7, rec7 k)] }, mem := { s.mem with cells := [(0x20000, 0x81), (0x20001, 0x92)], errs := [], banks := .replicate 8 { st := .on }, lock := none }, cw := .replicate 16 {}, hp := { s.hp with csen := 3, queue := [] } }
def hd (p inc : Bool) (n : Fin 16) (c : Fin 256) (a : BitVec 24) : Header := { p := p, inc := inc, len := n, client := c, addr := a }
def ee : HpEntry := { client := 7, path := .hp, cs := 1, addr := 0x20004, data := 0xCAFE1234 }
def wc (h : Header) (d : List Word) : Byte := crc8 (h.bytes 2 ++ d.flatMap wordBytes)
def qd (q : List HpEntry) (s : State) : State := { s with hp := { s.hp with queue := q } }
def fen (s : State) : State := { s with sc := { s.sc with recs := [(7, { rec7 1 with st := .fenced })] } }

/-! ### InterruptCommands -/
namespace InterruptCommands
def w0 : State := CH 40 (fun c => { c with ev := { c.ev with flag := 1, ien := 1 } }) (IN (fun _ => i0 0 0) (su 3))
def w1 : State := dn (CH 40 (fun c => { c with ev := { c.ev with flag := 1, ien := 1 } }) (IN (fun _ => i0 0 0) (su 3)))
def w2 : State := P (fun p => { p with pd1Up := false }) (CH 40 (fun c => { c with ev := { c.ev with flag := 1, ien := 1 } }) (IN (fun _ => i0 0 0) (su 3)))
def w5 : State := IN (fun _ => i0 (2^5+2^41+2^3) (2^6+2^7)) (su 3)
def w6 : State := IN (fun _ => i0 (2^5+2^41+2^3) (2^6+2^7)) (su 3)
def w10 : State := IN (fun _ => { i0 (2^5+2^40) (2^3+2^7) with handlers := [(3,1),(40,2)] }) (su 3)
theorem witness_1 :
    ((w0.lineOf (40 : Fin 192).val = true) ∧ (reservedSrc (40 : Fin 192).val = false) ∧ (w0.pwr.pd1Up = true)) ∧
    ((w0.pwr.pd1Up = true) ∧ (∀ (m : Fin 192), ¬((bit w0.intc.pend (↑m : Nat) = true ∧ bit w0.cyc.pended (↑m : Nat) = false) ∧ bit (at_ w0.sel.pen (0 : Fin 4)) (↑m : Nat) = true ∧ w0.priOf (↑m : Nat) < w0.sel.thr[(0 : Fin 4).val + 1].toNat))) ∧
    ((w0.pwr.pd1Up = true) ∧ (192 ≤ BitVec.toNat (7 : BitVec 8) ∨ bit w0.intc.insv (BitVec.toNat (7 : BitVec 8)) = false ∨ cellRead 0 w0.intc.claimant (BitVec.toNat (7 : BitVec 8)) ≠ 1 + (0 : Fin 4).val)) ∧
    ((w0.pwr.pd1Up = true) ∧ (∀ (m : Fin 192), ¬((bit w0.intc.pend (↑m : Nat) = true ∧ bit w0.cyc.pended (↑m : Nat) = false) ∧ bit w0.sel.sen (↑m : Nat) = true ∧ w0.priOf (↑m : Nat) < w0.sel.thr[0].toNat ∧ w0.priOf (↑m : Nat) < w0.supLevel))) ∧
    ((w0.pwr.pd1Up = true) ∧ (w0.intc.handlers = [])) ∧
    ((w1.lineOf (40 : Fin 192).val = false ∨ reservedSrc (40 : Fin 192).val = true)) ∧
    ((w1.pwr.pd1Up = false)) ∧
    ((w2.lineOf (40 : Fin 192).val = true) ∧ (reservedSrc (40 : Fin 192).val = false) ∧ (w2.pwr.pd1Up = false)) := by
  (repeat' apply And.intro) <;> first | decide +kernel | (unfold MemCanonical; decide +kernel)
theorem witness_2 :
    ((w5.pwr.pd1Up = true) ∧ (BitVec.toNat (6 : BitVec 8) < 192) ∧ (bit w5.intc.insv (BitVec.toNat (6 : BitVec 8)) = true) ∧ (cellRead 0 w5.intc.claimant (BitVec.toNat (6 : BitVec 8)) = 1 + (0 : Fin 4).val)) ∧
    ((w6.pwr.pd1Up = true) ∧ (((bit w6.intc.pend (41 : Fin 192).val = true ∧ bit w6.cyc.pended (41 : Fin 192).val = false) ∧ bit (at_ w6.sel.pen (0 : Fin 4)) (41 : Fin 192).val = true ∧ w6.priOf (41 : Fin 192).val < w6.sel.thr[(0 : Fin 4).val + 1].toNat) ∧ ∀ (j : Fin 192), (bit w6.intc.pend (↑j : Nat) = true ∧ bit w6.cyc.pended (↑j : Nat) = false) ∧ bit (at_ w6.sel.pen (0 : Fin 4)) (↑j : Nat) = true ∧ w6.priOf (↑j : Nat) < w6.sel.thr[(0 : Fin 4).val + 1].toNat → w6.priOf (41 : Fin 192).val < w6.priOf (↑j : Nat) ∨ w6.priOf (41 : Fin 192).val = w6.priOf (↑j : Nat) ∧ (41 : Fin 192) ≤ j)) ∧
    ((w6.pwr.pd1Up = true) ∧ (((bit w6.intc.pend (41 : Fin 192).val = true ∧ bit w6.cyc.pended (41 : Fin 192).val = false) ∧ bit w6.sel.sen (41 : Fin 192).val = true ∧ w6.priOf (41 : Fin 192).val < w6.sel.thr[0].toNat ∧ w6.priOf (41 : Fin 192).val < w6.supLevel) ∧ ∀ (j : Fin 192), (bit w6.intc.pend (↑j : Nat) = true ∧ bit w6.cyc.pended (↑j : Nat) = false) ∧ bit w6.sel.sen (↑j : Nat) = true ∧ w6.priOf (↑j : Nat) < w6.sel.thr[0].toNat ∧ w6.priOf (↑j : Nat) < w6.supLevel → w6.priOf (41 : Fin 192).val < w6.priOf (↑j : Nat) ∨ w6.priOf (41 : Fin 192).val = w6.priOf (↑j : Nat) ∧ (41 : Fin 192) ≤ j) ∧ (w6.intc.handlers.length < 16) ∧ (w6.flt.supReset = false)) ∧
    ((w10.pwr.pd1Up = true) ∧ (w10.intc.handlers = [((3 : Fin 192), 1), ((40 : Fin 192), 2)]) ∧ (∀ (m : Fin 192), ¬((bit w10.intc.pend (↑m : Nat) = true ∧ bit w10.cyc.pended (↑m : Nat) = false) ∧ bit w10.sel.sen (↑m : Nat) = true ∧ w10.priOf (↑m : Nat) < w10.sel.thr[0].toNat ∧ w10.priOf (↑m : Nat) < (Option.map (fun x => x.2) [((40 : Fin 192), 2)].head?).getD 16))) := by
  (repeat' apply And.intro) <;> first | decide +kernel | (unfold MemCanonical; decide +kernel)
end InterruptCommands

/-! ### HostPortTransactions -/
namespace HostPortTransactions
def w0 : State := { (hpS 1 (su 3)) with hp := { csen := 0 } }
def w2 : State := B (fun b => { b with applied := false }) (hpS 1 (su 3))
def w3 : State := fen (hpS 1 (su 3))
def w4 : State := { (hpS 1 (su 3)) with sc := { recs := [(7, { rec7 1 with rate := 0x00000A02, tokens := 0 })] } }
def w6 : State := hpS 1 (su 3)
def w8 : State := hpS 1 (su 3)
def w10 : State := hpS 1 (su 3)
def w15 : State := hpS 1 (su 3)
def w16 : State := hpS 1 (su 3)
def x4_16 : List Word := [5, 6]
def w19 : State := hpS 1 (su 3)
def x4_19 : List Word := [5, 6]
def w20 : State := qd (List.replicate 15 ee) (hpS 1 (su 3))
def x4_20 : List Word := [5, 6]
def w21 : State := qd (List.replicate 15 ee) (hpS 1 (su 3))
def x6_21 : HpEntry := ee
def x7_21 : List HpEntry := List.replicate 14 ee
def w23 : State := qd (List.replicate 14 ee) (fen (hpS 1 (su 3)))
def x6_23 : HpEntry := ee
def x7_23 : List HpEntry := List.replicate 13 ee
def w24 : State := qd (List.replicate 14 { ee with addr := 0x2004 }) (hpS 1 (su 3))
def x6_24 : HpEntry := { ee with addr := 0x2004 }
def x7_24 : List HpEntry := List.replicate 13 { ee with addr := 0x2004 }
def w25 : State := qd [{ ee with at_ := 1000000000001 }] (hpS 1 (su 3))
def x6_25 : HpEntry := { ee with at_ := 1000000000001 }
def x7_25 : List HpEntry := []
theorem witness_1 :
    (((hd true false (0 : Fin 16) (7 : Fin 256) (131072 : BitVec 24)).parityOk (1 : Fin 4).val = true) ∧ ((hd true false (0 : Fin 16) (7 : Fin 256) (131072 : BitVec 24)).bad (1 : Fin 4).val = false) ∧ (w0.ready (1 : Fin 4).val (hd true false (0 : Fin 16) (7 : Fin 256) (131072 : BitVec 24)).addrs = true) ∧ (w0.glbOnly = false) ∧ (w0.bound (hd true false (0 : Fin 16) (7 : Fin 256) (131072 : BitVec 24)).client (Source.hp (0 : Fin 2)) = true) ∧ ((w0.clientAt (hd true false (0 : Fin 16) (7 : Fin 256) (131072 : BitVec 24)).client).st ≠ ClientState.fenced) ∧ ((1 : Fin 4) = (0 : Fin 4) ∨ w0.outOfTokens (hd true false (0 : Fin 16) (7 : Fin 256) (131072 : BitVec 24)).client = false)) ∧
    ((w0.hears (0 : Fin 2) = false)) ∧
    ((w0.hp.queue = [] ∨ w0.pwr.pd1Up = false)) ∧
    (((hd true false (0 : Fin 16) (7 : Fin 256) (131072 : BitVec 24)).parityOk (1 : Fin 4).val = true) ∧ ((hd true false (0 : Fin 16) (7 : Fin 256) (131072 : BitVec 24)).bad (1 : Fin 4).val = false) ∧ (w2.ready (1 : Fin 4).val (hd true false (0 : Fin 16) (7 : Fin 256) (131072 : BitVec 24)).addrs = false)) ∧
    ((w2.hears (0 : Fin 2) = true) ∧ (∀ u ∈ w2.hp.retired, u + 2 ≤ w2.time) ∧ ((hd true false (0 : Fin 16) (7 : Fin 256) (131072 : BitVec 24)).bad (1 : Fin 4).val = false)) ∧
    ((w2.hears (0 : Fin 2) = true) ∧ (w2.hears (1 : Fin 2) = true)) ∧
    (((hd true false (0 : Fin 16) (7 : Fin 256) (131072 : BitVec 24)).parityOk (1 : Fin 4).val = true) ∧ ((hd true false (0 : Fin 16) (7 : Fin 256) (131072 : BitVec 24)).bad (1 : Fin 4).val = false) ∧ (w3.ready (1 : Fin 4).val (hd true false (0 : Fin 16) (7 : Fin 256) (131072 : BitVec 24)).addrs = true) ∧ (w3.glbOnly = false) ∧ (w3.bound (hd true false (0 : Fin 16) (7 : Fin 256) (131072 : BitVec 24)).client (Source.hp (0 : Fin 2)) = true) ∧ ((w3.clientAt (hd true false (0 : Fin 16) (7 : Fin 256) (131072 : BitVec 24)).client).st = ClientState.fenced)) ∧
    (((hd true false (0 : Fin 16) (7 : Fin 256) (131072 : BitVec 24)).parityOk (1 : Fin 4).val = true) ∧ ((hd true false (0 : Fin 16) (7 : Fin 256) (131072 : BitVec 24)).bad (1 : Fin 4).val = false) ∧ (w4.ready (1 : Fin 4).val (hd true false (0 : Fin 16) (7 : Fin 256) (131072 : BitVec 24)).addrs = true) ∧ (w4.glbOnly = false) ∧ (w4.bound (hd true false (0 : Fin 16) (7 : Fin 256) (131072 : BitVec 24)).client (Source.hp (0 : Fin 2)) = true) ∧ ((w4.clientAt (hd true false (0 : Fin 16) (7 : Fin 256) (131072 : BitVec 24)).client).st ≠ ClientState.fenced) ∧ ((1 : Fin 4) ≠ (0 : Fin 4)) ∧ (w4.outOfTokens (hd true false (0 : Fin 16) (7 : Fin 256) (131072 : BitVec 24)).client = true)) := by
  (repeat' apply And.intro) <;> first | decide +kernel | (unfold MemCanonical; decide +kernel)
theorem witness_2 :
    (((hd false false (0 : Fin 16) (7 : Fin 256) (131072 : BitVec 24)).parityOk (1 : Fin 4).val = false)) ∧
    ((w6.hears (0 : Fin 2) = true) ∧ (∀ u ∈ w6.hp.retired, u + 2 ≤ w6.time) ∧ ((0 : Fin 4) = (0 : Fin 4))) ∧
    (((hd true false (0 : Fin 16) (7 : Fin 256) (0 : BitVec 24)).parityOk (0 : Fin 4).val = true) ∧ ((hd true false (0 : Fin 16) (7 : Fin 256) (0 : BitVec 24)).bad (0 : Fin 4).val = false) ∧ (w8.ready (0 : Fin 4).val (hd true false (0 : Fin 16) (7 : Fin 256) (0 : BitVec 24)).addrs = true) ∧ (w8.glbOnly = false) ∧ (w8.bound (hd true false (0 : Fin 16) (7 : Fin 256) (0 : BitVec 24)).client (Source.hp (1 : Fin 2)) = false)) ∧
    ((w10.hears (0 : Fin 2) = true) ∧ (∀ u ∈ w10.hp.retired, u + 2 ≤ w10.time) ∧ ((hd true false (3 : Fin 16) (7 : Fin 256) (1048579 : BitVec 24)).bad (2 : Fin 4).val = true) ∧ ((hd true false (3 : Fin 16) (7 : Fin 256) (1048579 : BitVec 24)).parityOk (2 : Fin 4).val = true) ∧ ((2 : Fin 4) ≠ (1 : Fin 4))) ∧
    ((w15.hears (0 : Fin 2) = true) ∧ (∀ u ∈ w15.hp.retired, u + 2 ≤ w15.time) ∧ ((1 : Fin 4) = (1 : Fin 4)) ∧ (w15.headerCode (Source.hp (0 : Fin 2)) (1 : Fin 4).val (hd true false (0 : Fin 16) (7 : Fin 256) (131072 : BitVec 24)) = 0) ∧ (w15.glbOnly = false) ∧ (fld (w15.clientAt (hd true false (0 : Fin 16) (7 : Fin 256) (131072 : BitVec 24)).client).rate 7 0 = 0) ∧ ((hd true false (0 : Fin 16) (7 : Fin 256) (131072 : BitVec 24)).len = (0 : Fin 16)) ∧ (w15.nativeAddr (hd true false (0 : Fin 16) (7 : Fin 256) (131072 : BitVec 24)).addr.toNat = 131072) ∧ (w15.isReg 131072 = true) ∧ (w15.permits (hd true false (0 : Fin 16) (7 : Fin 256) (131072 : BitVec 24)).client 131072 false (0 : Word) = true) ∧ (isBankAddr 131072 = true) ∧ (131072 % 4 = 0) ∧ (w15.mem.lock = Option.none) ∧ ((w15.bank (bankOf 131072)).st = BankState.on) ∧ ((w15.bank (bankOf 131072)).recov = false) ∧ (∀ z ∈ w15.hp.queue, w15.nativeAddr z.addr.toNat ≠ 131072) ∧ (∀ z ∈ w15.cyc.hpWas, z.1 ≠ 131072) ∧ (cellRead 0 w15.mem.errs 131072 = 0)) ∧
    ((w16.hears (0 : Fin 2) = true) ∧ (∀ u ∈ w16.hp.retired, u + 2 ≤ w16.time) ∧ ((2 : Fin 4) = (2 : Fin 4)) ∧ (w16.headerCode (Source.hp (0 : Fin 2)) (2 : Fin 4).val (hd true true (1 : Fin 16) (7 : Fin 256) (131072 : BitVec 24)) = 0) ∧ (w16.glbOnly = false) ∧ (fld (w16.clientAt (hd true true (1 : Fin 16) (7 : Fin 256) (131072 : BitVec 24)).client).rate 7 0 = 0) ∧ (x4_16.length = (hd true true (1 : Fin 16) (7 : Fin 256) (131072 : BitVec 24)).words) ∧ (∀ y ∈ (hd true true (1 : Fin 16) (7 : Fin 256) (131072 : BitVec 24)).addrs.zip x4_16, w16.writeWordCode (hd true true (1 : Fin 16) (7 : Fin 256) (131072 : BitVec 24)).client y.1 y.2 = 0) ∧ (wc (hd true true (1 : Fin 16) (7 : Fin 256) (131072 : BitVec 24)) [(5 : Word), (6 : Word)] = crc8 ((hd true true (1 : Fin 16) (7 : Fin 256) (131072 : BitVec 24)).bytes 2 ++ List.flatMap wordBytes x4_16)) ∧ (w16.hp.queue.length + (hd true true (1 : Fin 16) (7 : Fin 256) (131072 : BitVec 24)).words ≤ 16)) ∧
    ((w19.hears (0 : Fin 2) = true) ∧ (∀ u ∈ w19.hp.retired, u + 2 ≤ w19.time) ∧ ((2 : Fin 4) = (2 : Fin 4)) ∧ (w19.headerCode (Source.hp (0 : Fin 2)) (2 : Fin 4).val (hd true true (1 : Fin 16) (7 : Fin 256) (131072 : BitVec 24)) = 0) ∧ (w19.glbOnly = false) ∧ (fld (w19.clientAt (hd true true (1 : Fin 16) (7 : Fin 256) (131072 : BitVec 24)).client).rate 7 0 = 0) ∧ (x4_19.length = (hd true true (1 : Fin 16) (7 : Fin 256) (131072 : BitVec 24)).words) ∧ (∀ y ∈ (hd true true (1 : Fin 16) (7 : Fin 256) (131072 : BitVec 24)).addrs.zip x4_19, w19.writeWordCode (hd true true (1 : Fin 16) (7 : Fin 256) (131072 : BitVec 24)).client y.1 y.2 = 0) ∧ (wc (hd true true (1 : Fin 16) (7 : Fin 256) (131072 : BitVec 24)) [(5 : Word), (6 : Word)] + (1 : Byte) ≠ crc8 ((hd true true (1 : Fin 16) (7 : Fin 256) (131072 : BitVec 24)).bytes 2 ++ List.flatMap wordBytes x4_19))) := by
  (repeat' apply And.intro) <;> first | decide +kernel | (unfold MemCanonical; decide +kernel)
theorem witness_3 :
    ((w20.hears (0 : Fin 2) = true) ∧ (∀ u ∈ w20.hp.retired, u + 2 ≤ w20.time) ∧ ((2 : Fin 4) = (2 : Fin 4)) ∧ (w20.headerCode (Source.hp (0 : Fin 2)) (2 : Fin 4).val (hd true true (1 : Fin 16) (7 : Fin 256) (131072 : BitVec 24)) = 0) ∧ (w20.glbOnly = false) ∧ (fld (w20.clientAt (hd true true (1 : Fin 16) (7 : Fin 256) (131072 : BitVec 24)).client).rate 7 0 = 0) ∧ (x4_20.length = (hd true true (1 : Fin 16) (7 : Fin 256) (131072 : BitVec 24)).words) ∧ (∀ y ∈ (hd true true (1 : Fin 16) (7 : Fin 256) (131072 : BitVec 24)).addrs.zip x4_20, w20.writeWordCode (hd true true (1 : Fin 16) (7 : Fin 256) (131072 : BitVec 24)).client y.1 y.2 = 0) ∧ (wc (hd true true (1 : Fin 16) (7 : Fin 256) (131072 : BitVec 24)) [(5 : Word), (6 : Word)] = crc8 ((hd true true (1 : Fin 16) (7 : Fin 256) (131072 : BitVec 24)).bytes 2 ++ List.flatMap wordBytes x4_20)) ∧ (16 < w20.hp.queue.length + (hd true true (1 : Fin 16) (7 : Fin 256) (131072 : BitVec 24)).words)) ∧
    ((w21.hp.queue = x6_21 :: x7_21) ∧ (w21.nativeAddr x6_21.addr.toNat = 131076) ∧ (w21.waits 131076 = false) ∧ (x6_21.at_ + 3 ≤ w21.time) ∧ (w21.time ∉ w21.hp.retired) ∧ (w21.pwr.pd1Up = true) ∧ (Option.any w21.portUsed (w21.portOf 131076 true) = false) ∧ ((w21.client x6_21.client).st ≠ ClientState.fenced ∨ x6_21.client = (0 : Fin 256)) ∧ (w21.pwr.pdUp = true) ∧ (isBankAddr 131076 = true) ∧ (131076 % 4 = 0) ∧ ((w21.bank (bankOf 131076)).st = BankState.on) ∧ (MemCanonical w21)) ∧
    ((w23.hp.queue = x6_23 :: x7_23) ∧ (w23.nativeAddr x6_23.addr.toNat = 131076) ∧ (w23.waits 131076 = false) ∧ (x6_23.at_ + 3 ≤ w23.time) ∧ (w23.time ∉ w23.hp.retired) ∧ (w23.pwr.pd1Up = true) ∧ (Option.any w23.portUsed (w23.portOf 131076 true) = false) ∧ ((w23.client x6_23.client).st = ClientState.fenced) ∧ (x6_23.client ≠ (0 : Fin 256)) ∧ (x6_23.path = Path.hp)) ∧
    ((w24.hp.queue = x6_24 :: x7_24) ∧ (w24.nativeAddr x6_24.addr.toNat = 8196) ∧ (w24.waits 8196 = false) ∧ (x6_24.at_ + 3 ≤ w24.time) ∧ (w24.time ∉ w24.hp.retired) ∧ (w24.pwr.pd1Up = true) ∧ (Option.any w24.portUsed (w24.portOf 8196 true) = false) ∧ ((w24.client x6_24.client).st ≠ ClientState.fenced ∨ x6_24.client = (0 : Fin 256)) ∧ (w24.pwr.pdUp = true) ∧ (isMemAddr 8196 = false)) ∧
    ((w25.hp.queue = x6_25 :: x7_25) ∧ (w25.time < x6_25.at_ + 3 ∨ w25.time ∈ w25.hp.retired ∨ w25.waits (w25.nativeAddr x6_25.addr.toNat) = true)) := by
  (repeat' apply And.intro) <;> first | decide +kernel | (unfold MemCanonical; decide +kernel)
end HostPortTransactions
end W12

namespace W14
def R0 : ClientRec := { bind := 0x90000000, rights := 0xFFFFFFFF, grant := 0x00FF, quota := 0x00C02008, rate := 0x00640A02, st := .active, tokens := 9 }
def ev (k : Nat) (o : Bool) : Event := { w0 := BitVec.ofNat 32 k, w1 := 1, w2 := 2, w3 := 3, ov := o }
def cn (s : State) : State := { s with tsi := { s.tsi with conn := [] }, sc := { s.sc with bufs := [], reqs := [] , posted := [] }, tt := { s.tt with cal := [(3, { st := .waiting, owner := 7 }), (4, { st := .ready, owner := 8 })] } }
def SC (l : List (Nat × ClientRec)) (s : State) : State := { (cn s) with sc := { (cn s).sc with recs := l } }
def S7 (r : ClientRec) : State → State := SC [(7, r), (9, R0), (255, { R0 with bind := 0xC0000000 })]
def BUFS (l : List (Nat × BufRec)) (s : State) : State := { s with sc := { s.sc with bufs := l }, mem := { s.mem with cells := [(0x3C000+0x40*3, 0x45), (0x3C001+0x40*3, 0x01), (0x3C002+0x40*3, 5), (0x3C004+0x40*3, 5)], errs := [], banks := .replicate 8 { st := .on } } }
def PO (l : List Posted) (s : State) : State := { s with sc := { s.sc with posted := l } }
def RQ (l : List OpenReq) (s : State) : State := { s with sc := { s.sc with reqs := l } }
def po : Posted := { client := 7, ev := ev 0x123405 false, at_ := 5, rank := 2 }
def rq : OpenReq := { client := 9, link := 2, msgid := 0x145, buf := 3, at_ := 0x1000, timeoutMs := 20 }
def TBs (n : Nat) (s : State) : State := { s with tbs := { run := true, tb := BitVec.ofNat 48 n } }

/-! ### SeatingChartCommands -/
namespace SeatingChartCommands
def w0 : State := SC [(7, R0)] (su 3)
def w1 : State := dn (SC [(7, R0)] (su 3))
def w2 : State := SC [(7, { R0 with bind := 0x10000000, st := .disabled })] (su 3)
def w3 : State := SC [(7, R0)] (su 3)
def w4 : State := BUFS ((List.range 256).map fun i => (i, { st := .owned 9, gen := 2 })) (SC [(7, R0)] (su 3))
def w5 : State := { BUFS [] (SC [(7, R0)] (su 3)) with mem := { banks := .replicate 8 { st := .fenced } } }
def w6 : State := S7 R0 (su 3)
def w7 : State := S7 R0 (su 3)
def w13 : State := S7 R0 (su 3)
def w17 : State := RQ [rq] (BUFS [(3, { st := .owned 7, gen := 2 })] (S7 { R0 with st := .fenced } (su 3)))
def w18 : State := PO [po] (S7 R0 (su 3))
def w20 : State := PO [po] (S7 { R0 with quota := 0x00C00808, queue := [ev 0x80 false] } (su 3))
def w22 : State := PO [] (S7 { R0 with quota := 0x00C00808, queue := [ev 8 false, ev 9 false], cursor := 0 } (su 3))
def w26 : State := BUFS [(3, { st := .owned 7, gen := 2 }), (4, { st := .owned 7, gen := 2 })] (S7 R0 (su 3))
def w34 : State := TBs (0x1000 + 4000000) (RQ [rq] (BUFS [(3, { st := .queued 9 2 true, gen := 2 })] (S7 R0 (su 3))))
def w36 : State := RQ [rq, { rq with client := 7 }] (BUFS [(3, { st := .owned 7, gen := 2 })] (S7 R0 (su 3)))
def w37 : State := { PO [po] (S7 R0 (su 3)) with time := 3 }
theorem witness_1 :
    ((TablesCanonical w0) ∧ (cellWf { } w0.sc.bufs = true) ∧ (w0.pwr.pd1Up = true) ∧ ((3 : Fin 8).val < 6) ∧ ((7 : Fin 256) ≠ (0 : Fin 256)) ∧ (((0 : Fin 256) = (0 : Fin 256) ∨ (0 : Fin 256) = (255 : Fin 256) ∧ (w0.client (255 : Fin 256)).canWrite 15 = true) ∧ ((7 : Fin 256) = (255 : Fin 256) → true = true)) ∧ (w0.recordFault (7 : Fin 256) ((w0.client (7 : Fin 256)).setWord (3 : Fin 8).val (12591112 : Word)) = 0) ∧ ((3 : Fin 8) ≠ (0 : Fin 8) ∨ bit (12591112 : Word) 31 = (w0.client (7 : Fin 256)).en)) ∧
    ((TablesCanonical w0) ∧ (cellWf { } w0.sc.bufs = true) ∧ (w0.pwr.pd1Up = true) ∧ ((7 : Fin 256) ≠ (0 : Fin 256)) ∧ ((w0.client (7 : Fin 256)).st = ClientState.active) ∧ ((w0.calEntry 3).st ≠ CalState.free) ∧ ((w0.calEntry 3).owner = (7 : Fin 256))) ∧
    ((TablesCanonical w0) ∧ (cellWf { } w0.sc.bufs = true) ∧ (w0.pwr.pd1Up = true) ∧ ((7 : Fin 256) ≠ (0 : Fin 256)) ∧ ((w0.client (7 : Fin 256)).st = ClientState.active) ∧ (State.grants (w0.client (7 : Fin 256)) (Fin.ofNat 64 0) = true)) ∧
    ((TablesCanonical w0) ∧ (cellWf { } w0.sc.bufs = true) ∧ (w0.pwr.pd1Up = true) ∧ ((7 : Fin 256) ≠ (0 : Fin 256)) ∧ ((w0.client (7 : Fin 256)).st ≠ ClientState.fenced ∨ (7 : Fin 256) ∈ w0.cyc.cut)) ∧
    ((TablesCanonical w0) ∧ (cellWf { } w0.sc.bufs = true) ∧ (w0.pwr.pd1Up = true) ∧ (w0.sc.posted = [])) ∧
    ((TablesCanonical w0) ∧ (cellWf { } w0.sc.bufs = true) ∧ (w0.pwr.pd1Up = true) ∧ ((7 : Fin 256) ≠ (0 : Fin 256)) ∧ ((w0.client (7 : Fin 256)).st = ClientState.active) ∧ ((List.filter (fun e => !e.ov) (w0.client (7 : Fin 256)).queue).length < (w0.client (7 : Fin 256)).credit)) ∧
    ((TablesCanonical w0) ∧ (cellWf { } w0.sc.bufs = true) ∧ (w0.pwr.pd1Up = true) ∧ ((w0.client (0 : Fin 256)).queue = [])) ∧
    ((TablesCanonical w0) ∧ (cellWf { } w0.sc.bufs = true) ∧ (w0.pwr.pd1Up = true) ∧ ((0 : Fin 256) = (0 : Fin 256) ∨ (w0.bufHeld (0 : Fin 256)).length < fld (w0.client (0 : Fin 256)).quota 10 2) ∧ ((w0.bufRec (0 : Fin 256)).st = BufState.free) ∧ (∀ j < (0 : Fin 256), (w0.bufRec j).st ≠ BufState.free) ∧ ((w0.bank (7 : Fin 8)).st ≠ BankState.fenced)) := by
  (repeat' apply And.intro) <;> first | decide +kernel | (unfold MemCanonical; decide +kernel)
theorem witness_2 :
    ((TablesCanonical w0) ∧ (cellWf { } w0.sc.bufs = true) ∧ (w0.pwr.pd1Up = true) ∧ (w0.bufCheck (0 : Fin 256) (BitVec.toNat (515 : BitVec 16)) = 3) ∧ (3 ≠ 0) ∧ ((0 : Fin 256) = (0 : Fin 256) ∨ (w0.client (0 : Fin 256)).faultTimes.length < 7)) ∧
    ((TablesCanonical w0) ∧ (cellWf { } w0.sc.bufs = true) ∧ (w0.pwr.pd1Up = true) ∧ (∀ q ∈ w0.sc.reqs, ¬(q.client = (0 : Fin 256) ∧ q.link = (2 : Fin 4) ∧ q.msgid = (325 : BitVec 12)))) ∧
    ((TablesCanonical w1) ∧ (cellWf { } w1.sc.bufs = true) ∧ (w1.pwr.pd1Up = false)) ∧
    ((TablesCanonical w2) ∧ (cellWf { } w2.sc.bufs = true) ∧ (w2.pwr.pd1Up = true) ∧ ((7 : Fin 256) ≠ (0 : Fin 256)) ∧ (((0 : Fin 256) = (0 : Fin 256) ∨ (0 : Fin 256) = (255 : Fin 256) ∧ (w2.client (255 : Fin 256)).canWrite 15 = true) ∧ ((7 : Fin 256) = (255 : Fin 256) → true = true)) ∧ ((w2.client (7 : Fin 256)).en = false) ∧ ((w2.client (7 : Fin 256)).st = ClientState.disabled) ∧ (w2.recordFault (7 : Fin 256) { bind := (268435456 : Word) ||| (2147483648 : Word), rights := (w2.client (7 : Fin 256)).rights, grant := (w2.client (7 : Fin 256)).grant, quota := (w2.client (7 : Fin 256)).quota, rate := (w2.client (7 : Fin 256)).rate, st := (w2.client (7 : Fin 256)).st, fcause := (w2.client (7 : Fin 256)).fcause, dropped := (w2.client (7 : Fin 256)).dropped, late := (w2.client (7 : Fin 256)).late, faults := (w2.client (7 : Fin 256)).faults, tokens := (w2.client (7 : Fin 256)).tokens, tokAt := (w2.client (7 : Fin 256)).tokAt, faultTimes := (w2.client (7 : Fin 256)).faultTimes, seq := (w2.client (7 : Fin 256)).seq, queue := (w2.client (7 : Fin 256)).queue, cursor := (w2.client (7 : Fin 256)).cursor, overflowed := (w2.client (7 : Fin 256)).overflowed, lastAlloc := (w2.client (7 : Fin 256)).lastAlloc } = 0) ∧ (0 < (w2.client (7 : Fin 256)).credit)) ∧
    ((TablesCanonical w2) ∧ (cellWf { } w2.sc.bufs = true) ∧ (w2.pwr.pd1Up = true) ∧ ((w2.client (7 : Fin 256)).en = false) ∧ ((w2.calEntry 3).st ≠ CalState.free) ∧ ((w2.calEntry 3).owner = (7 : Fin 256))) ∧
    ((TablesCanonical w2) ∧ (cellWf { } w2.sc.bufs = true) ∧ (w2.pwr.pd1Up = true) ∧ ((7 : Fin 256) ≠ (0 : Fin 256)) ∧ ((w2.client (7 : Fin 256)).st ≠ ClientState.active)) ∧
    ((TablesCanonical w3) ∧ (cellWf { } w3.sc.bufs = true) ∧ (w3.pwr.pd1Up = true) ∧ ((7 : Fin 256) ≠ (0 : Fin 256)) ∧ (((0 : Fin 256) = (0 : Fin 256) ∨ (0 : Fin 256) = (255 : Fin 256) ∧ (w3.client (255 : Fin 256)).canWrite 15 = true) ∧ ((7 : Fin 256) = (255 : Fin 256) → true = true)) ∧ ((w3.client (7 : Fin 256)).en = true) ∧ (w3.recordFault (7 : Fin 256) { bind := (2415919104 : Word) &&& (2147483647 : Word), rights := (w3.client (7 : Fin 256)).rights, grant := (w3.client (7 : Fin 256)).grant, quota := (w3.client (7 : Fin 256)).quota, rate := (w3.client (7 : Fin 256)).rate, st := (w3.client (7 : Fin 256)).st, fcause := (w3.client (7 : Fin 256)).fcause, dropped := (w3.client (7 : Fin 256)).dropped, late := (w3.client (7 : Fin 256)).late, faults := (w3.client (7 : Fin 256)).faults, tokens := (w3.client (7 : Fin 256)).tokens, tokAt := (w3.client (7 : Fin 256)).tokAt, faultTimes := (w3.client (7 : Fin 256)).faultTimes, seq := (w3.client (7 : Fin 256)).seq, queue := (w3.client (7 : Fin 256)).queue, cursor := (w3.client (7 : Fin 256)).cursor, overflowed := (w3.client (7 : Fin 256)).overflowed, lastAlloc := (w3.client (7 : Fin 256)).lastAlloc } = 0)) ∧
    ((TablesCanonical w4) ∧ (cellWf { } w4.sc.bufs = true) ∧ (w4.pwr.pd1Up = true) ∧ ((0 : Fin 8).val < 6) ∧ ((7 : Fin 256) ≠ (0 : Fin 256)) ∧ (¬(((7 : Fin 256) = (0 : Fin 256) ∨ (7 : Fin 256) = (255 : Fin 256) ∧ (w4.client (255 : Fin 256)).canWrite 15 = true) ∧ ((7 : Fin 256) = (255 : Fin 256) → true = true)))) := by
  (repeat' apply And.intro) <;> first | decide +kernel | (unfold MemCanonical; decide +kernel)
theorem witness_3 :
    ((TablesCanonical w4) ∧ (cellWf { } w4.sc.bufs = true) ∧ (w4.pwr.pd1Up = true) ∧ ((7 : Fin 256) = (0 : Fin 256) ∨ (w4.bufHeld (7 : Fin 256)).length < fld (w4.client (7 : Fin 256)).quota 10 2) ∧ (∀ (j : Fin 256), (w4.bufRec j).st ≠ BufState.free)) ∧
    ((TablesCanonical w5) ∧ (cellWf { } w5.sc.bufs = true) ∧ (w5.pwr.pd1Up = true) ∧ ((7 : Fin 256) = (0 : Fin 256) ∨ (w5.bufHeld (7 : Fin 256)).length < fld (w5.client (7 : Fin 256)).quota 10 2) ∧ ((w5.bufRec (0 : Fin 256)).st = BufState.free) ∧ (∀ j < (0 : Fin 256), (w5.bufRec j).st ≠ BufState.free) ∧ ((w5.bank (7 : Fin 8)).st = BankState.fenced)) ∧
    ((TablesCanonical w6) ∧ (cellWf { } w6.sc.bufs = true) ∧ (w6.pwr.pd1Up = true) ∧ ((0 : Fin 8).val < 6) ∧ ((7 : Fin 256) ≠ (0 : Fin 256)) ∧ (((0 : Fin 256) = (0 : Fin 256) ∨ (0 : Fin 256) = (255 : Fin 256) ∧ (w6.client (255 : Fin 256)).canWrite 15 = true) ∧ ((7 : Fin 256) = (255 : Fin 256) → true = true)) ∧ (w6.recordFault (7 : Fin 256) ((w6.client (7 : Fin 256)).setWord (0 : Fin 8).val (2432828164 : Word)) ≠ 0)) ∧
    ((TablesCanonical w7) ∧ (cellWf { } w7.sc.bufs = true) ∧ (w7.pwr.pd1Up = true) ∧ (6 ≤ (6 : Fin 8).val ∨ (7 : Fin 256) = (0 : Fin 256))) ∧
    ((TablesCanonical w13) ∧ (cellWf { } w13.sc.bufs = true) ∧ (w13.pwr.pd1Up = true) ∧ ((0 : Fin 256) = (0 : Fin 256))) ∧
    ((TablesCanonical w17) ∧ (cellWf { } w17.sc.bufs = true) ∧ (w17.pwr.pd1Up = true) ∧ ((7 : Fin 256) ≠ (0 : Fin 256)) ∧ ((w17.client (7 : Fin 256)).st = ClientState.fenced) ∧ ((7 : Fin 256) ∉ w17.cyc.cut) ∧ (0 < (w17.client (7 : Fin 256)).credit)) ∧
    ((TablesCanonical w18) ∧ (cellWf { } w18.sc.bufs = true) ∧ (w18.pwr.pd1Up = true) ∧ (w18.sc.posted = [po]) ∧ (po.at_ < w18.time)) ∧
    ((TablesCanonical w20) ∧ (cellWf { } w20.sc.bufs = true) ∧ (w20.pwr.pd1Up = true) ∧ ((7 : Fin 256) ≠ (0 : Fin 256)) ∧ ((w20.client (7 : Fin 256)).st = ClientState.active) ∧ ((w20.client (7 : Fin 256)).credit ≤ (List.filter (fun e => !e.ov) (w20.client (7 : Fin 256)).queue).length) ∧ ((w20.client (7 : Fin 256)).overflowed = false) ∧ (∀ e ∈ (w20.client (7 : Fin 256)).queue, bit e.w0 7 = true) ∧ (bit (ev 8 false).w0 7 = false)) := by
  (repeat' apply And.intro) <;> first | decide +kernel | (unfold MemCanonical; decide +kernel)
theorem witness_4 :
    ((TablesCanonical w22) ∧ (cellWf { } w22.sc.bufs = true) ∧ (w22.pwr.pd1Up = true) ∧ ((w22.client (7 : Fin 256)).queue = [ev 8 false, ev 9 false])) ∧
    ((TablesCanonical w26) ∧ (cellWf { } w26.sc.bufs = true) ∧ (w26.pwr.pd1Up = true) ∧ ((7 : Fin 256) ≠ (0 : Fin 256)) ∧ (fld (w26.client (7 : Fin 256)).quota 10 2 ≤ (w26.bufHeld (7 : Fin 256)).length)) ∧
    ((TablesCanonical w26) ∧ (cellWf { } w26.sc.bufs = true) ∧ (w26.pwr.pd1Up = true) ∧ (w26.bufCheck (7 : Fin 256) (BitVec.toNat (515 : BitVec 16)) = 0)) ∧
    ((TablesCanonical w26) ∧ (cellWf { } w26.sc.bufs = true) ∧ (w26.pwr.pd1Up = true) ∧ (w26.bufCheck (7 : Fin 256) (BitVec.toNat (515 : BitVec 16)) = 0 ∧ 1 ≤ fld (w26.bankData (245760 + 64 * (BitVec.toNat (515 : BitVec 16) % 256))) 23 16 ∧ fld (w26.bankData (245760 + 64 * (BitVec.toNat (515 : BitVec 16) % 256))) 23 16 ≤ 60 ∧ fld (w26.bankData (245760 + 64 * (BitVec.toNat (515 : BitVec 16) % 256))) 15 12 = 0 ∧ fld (w26.bankData (245760 + 64 * (BitVec.toNat (515 : BitVec 16) % 256))) 31 24 = 0) ∧ (∀ q ∈ w26.sc.reqs, ¬(q.client = State.bufOwner (w26.bufRec (Fin.ofNat 256 (BitVec.toNat (515 : BitVec 16) % 256))) ∧ q.link = (2 : Fin 4) ∧ q.msgid = BitVec.ofNat 12 (fld (w26.bankData (245760 + 64 * (BitVec.toNat (515 : BitVec 16) % 256))) 11 0)))) ∧
    ((TablesCanonical w34) ∧ (cellWf { } w34.sc.bufs = true) ∧ (w34.pwr.pd1Up = true) ∧ (w34.sc.reqs = [rq]) ∧ (rq.client = (9 : Fin 256)) ∧ (rq.link = (2 : Fin 4)) ∧ (rq.msgid = (325 : BitVec 12)) ∧ (reached w34.tb (rq.at_ + BitVec.ofNat 48 (rq.timeoutMs * 200000)) = true)) ∧
    ((TablesCanonical w36) ∧ (cellWf { } w36.sc.bufs = true) ∧ (w36.pwr.pd1Up = true) ∧ ((7 : Fin 256) ≠ (0 : Fin 256)) ∧ ((w36.client (7 : Fin 256)).st = ClientState.active)) ∧
    ((TablesCanonical w37) ∧ (cellWf { } w37.sc.bufs = true) ∧ (w37.pwr.pd1Up = true) ∧ (w37.sc.posted = [po]) ∧ (w37.time ≤ po.at_)) := by
  (repeat' apply And.intro) <;> first | decide +kernel | (unfold MemCanonical; decide +kernel)
end SeatingChartCommands
end W14

namespace W15
def cn (s : State) : State := { s with upd := { s.upd with camp := none }, tsi := { s.tsi with conn := [] }, sc := { s.sc with recs := [], bufs := [], reqs := [] , posted := [] }, tt := { s.tt with cal := [] }, mem := { s.mem with cells := [], errs := [], banks := .replicate 8 { st := .on }, lock := none }, pwr := { s.pwr with pdUp := true, pd1Up := true, st := .run }, boot := { s.boot with applied := true } }
def L (l : Fin 4) (f : Hl → Hl) (s : State) : State := let u := cn s; { u with hl := vset u.hl l f }
def by_ : List Byte := (List.range 270).map fun k => BitVec.ofNat 8 (k * 7 + 3)
def mm : MdcMsg := { client := 9, buf := some 3, msgid := 0x145, req := false, payload := [1,2,3] }
def oo : MdcOut := { msg := mm, seq := true, tx := 1, b0 := 0x1000, len := 12 }
def TBs (n : Nat) (s : State) : State := { s with tbs := { run := true, tb := BitVec.ofNat 48 n } }
def hd (p inc : Bool) (n : Fin 16) (c : Fin 256) (a : BitVec 24) : Header := { p := p, inc := inc, len := n, client := c, addr := a }
def sn : MdcSeen := { seq := true, client := 9, msgid := 0x145, rsp := true, at_ := 0x900 }
def rq : OpenReq := { client := 9, link := 2, msgid := 0x145, buf := 3, at_ := 0x1000, timeoutMs := 20 }
def RQ (l : List OpenReq) (s : State) : State := { s with sc := { s.sc with reqs := l, bufs := [(3, { st := .queued 9 2 true, gen := 2 })] } }
def BF (s : State) : State := { s with sc := { s.sc with bufs := [(3, { st := .queued 9 2 false, gen := 2 })] } }

/-! ### HarnessLinkCommands -/
namespace HarnessLinkCommands
def w0 : State := L 2 (fun x => { x with en := false }) (su 18)
def w1 : State := dn (L 2 (fun x => { x with en := false }) (su 18))
def w2 : State := L 2 (fun x => { x with en := true, fst_ := .hunt }) (su 20)
def x5_2 : List Byte := by_
def w3 : State := L 2 (fun x => { x with en := true, fst_ := .presync, preCount := 0 }) (su 21)
def x5_3 : List Byte := by_
def w4 : State := L 2 (fun x => { x with en := true, fst_ := .presync, preCount := 1 }) (su 22)
def x5_4 : List Byte := by_
def w5 : State := L 2 (fun x => { x with en := true, fst_ := .sync, badO0 := 3, mfst := .hunt }) (su 4)
def x5_5 : List Byte := by_
def w14 : State := BF (L 2 (fun x => { x with en := true, fst_ := .sync, badO0 := 1, mfst := .sync, fn := 14, badO1 := 1, bipExp := none, mdcsel := 0, out := some oo }) (su 4))
def x15_14 : MdcOut := oo
def w15 : State := L 2 (fun x => { x with en := true, fst_ := .hunt, mdcsel := 0, out := none, mdcOut := [], mdcq := [mm], fenced := false }) (su 4)
def x14_15 : MdcMsg := mm
def x16_15 : List MdcMsg := []
def w16 : State := TBs (0x1000 + 800000) (L 2 (fun x => { x with en := true, fst_ := .hunt, mdcsel := 0, out := some oo, mdcOut := [], mdcq := [mm], fenced := false }) (su 4))
def x15_16 : MdcOut := oo
def w17 : State := TBs (0x1000 + 1600000) (L 2 (fun x => { x with en := true, fst_ := .hunt, mdcsel := 0, out := some oo, mdcOut := [1], mdcq := [mm], fenced := false }) (su 4))
def x15_17 : MdcOut := oo
def w19 : State := BF (TBs (0x1000 + 3200000) (L 2 (fun x => { x with en := true, fst_ := .hunt, mdcsel := 0, out := some oo, mdcOut := [1], mdcq := [mm], fenced := false }) (su 4)))
def x15_19 : MdcOut := oo
def w25 : State := { (L 2 (fun x => { x with en := true, xch := 0x8000FF00, defects := 0, fenced := false }) (su 4)) with hp := { (su 4).hp with queue := [], retired := [] }, sc := { (L 2 (fun x => x) (su 4)).sc with recs := [(7, { bind := 0xB8FF0000, rights := 0xFFFFFFFF, grant := 0xFF })] } }
def x6_25 : List Byte := [1,2,3,4,5,6]
def x10_25 : List Byte := [1,2,3,4,5]
def w26 : State := { (L 2 (fun x => { x with en := true, xch := 0x8000FF00, defects := 0, fenced := false }) (su 4)) with hp := { (su 4).hp with queue := [], retired := [] }, sc := { (L 2 (fun x => x) (su 4)).sc with recs := [(7, { bind := 0xB8FF0000, rights := 0xFFFFFFFF, grant := 0xFF })] } }
def w27 : State := { (L 2 (fun x => { x with en := true, xch := 0x8000FF00, defects := 0, fenced := false }) (su 4)) with hp := { (su 4).hp with queue := [], retired := [] }, sc := { (L 2 (fun x => x) (su 4)).sc with recs := [(7, { bind := 0xB8FF0000, rights := 0xFFFFFFFF, grant := 0xFF })] } }
def w30 : State := L 2 (fun x => { x with en := true, mdcsel := 1, defects := 0 }) (su 4)
def w31 : State := (TBs (0x1000 + 100) (L 2 (fun x => { x with en := true, mdcsel := 0, out := none, defects := 0, fenced := false, seenMsg := some sn }) (su 4)))
def x10_31 : List Byte := [1,2,3]
def w32 : State := RQ [rq] (TBs (0x1000 + 100) (L 2 (fun x => { x with en := true, mdcsel := 0, out := none, defects := 0, fenced := false, seenMsg := none }) (su 4)))
def x10_32 : List Byte := [1,2,3,4,5]
theorem witness_1 :
    ((w0.pwr.pdUp = true) ∧ (w0.upd.camp = Option.none) ∧ (TablesCanonical w0) ∧ (cellWf { } w0.sc.bufs = true) ∧ ((w0.link (2 : Fin 4)).en = false)) ∧
    ((w0.pwr.pdUp = true) ∧ (w0.upd.camp = Option.none) ∧ (TablesCanonical w0) ∧ (cellWf { } w0.sc.bufs = true) ∧ ((w0.link (2 : Fin 4)).out = Option.none)) ∧
    ((w0.pwr.pdUp = true) ∧ (w0.upd.camp = Option.none) ∧ (TablesCanonical w0) ∧ (cellWf { } w0.sc.bufs = true) ∧ (w0.xchOn (2 : Fin 4) (7 : Fin 256) true = false)) ∧
    ((w1.pwr.pdUp = false)) ∧
    ((w2.pwr.pdUp = true) ∧ (w2.upd.camp = Option.none) ∧ (TablesCanonical w2) ∧ (cellWf { } w2.sc.bufs = true) ∧ ((w2.link (2 : Fin 4)).en = true) ∧ (x5_2.length = 270) ∧ ((w2.link (2 : Fin 4)).fst_ = Align.hunt)) ∧
    ((w3.pwr.pdUp = true) ∧ (w3.upd.camp = Option.none) ∧ (TablesCanonical w3) ∧ (cellWf { } w3.sc.bufs = true) ∧ ((w3.link (2 : Fin 4)).en = true) ∧ ((w3.link (2 : Fin 4)).fst_ ≠ Align.hunt)) ∧
    ((w3.pwr.pdUp = true) ∧ (w3.upd.camp = Option.none) ∧ (TablesCanonical w3) ∧ (cellWf { } w3.sc.bufs = true) ∧ ((w3.link (2 : Fin 4)).en = true) ∧ (x5_3.length = 270) ∧ ((w3.link (2 : Fin 4)).fst_ = Align.presync) ∧ ((w3.link (2 : Fin 4)).preCount = 0)) ∧
    ((w4.pwr.pdUp = true) ∧ (w4.upd.camp = Option.none) ∧ (TablesCanonical w4) ∧ (cellWf { } w4.sc.bufs = true) ∧ ((w4.link (2 : Fin 4)).en = true) ∧ (x5_4.length = 270) ∧ ((w4.link (2 : Fin 4)).fst_ = Align.presync) ∧ ((w4.link (2 : Fin 4)).preCount = 1)) := by
  (repeat' apply And.intro) <;> first | decide +kernel | (unfold MemCanonical; decide +kernel)
theorem witness_2 :
    ((w5.pwr.pdUp = true) ∧ (w5.upd.camp = Option.none) ∧ (TablesCanonical w5) ∧ (cellWf { } w5.sc.bufs = true) ∧ ((w5.link (2 : Fin 4)).en = true) ∧ (x5_5.length = 270) ∧ ((w5.link (2 : Fin 4)).fst_ = Align.sync) ∧ ((w5.link (2 : Fin 4)).badO0 = 3)) ∧
    ((w5.pwr.pdUp = true) ∧ (w5.upd.camp = Option.none) ∧ (TablesCanonical w5) ∧ (cellWf { } w5.sc.bufs = true) ∧ ((w5.link (2 : Fin 4)).en = true) ∧ (x5_5.length = 270) ∧ ((w5.link (2 : Fin 4)).fst_ = Align.sync) ∧ (true = true ∨ (w5.link (2 : Fin 4)).badO0 < 3)) ∧
    ((w14.pwr.pdUp = true) ∧ (w14.upd.camp = Option.none) ∧ (TablesCanonical w14) ∧ (cellWf { } w14.sc.bufs = true) ∧ ((w14.link (2 : Fin 4)).out = Option.some x15_14) ∧ (reached w14.tb (x15_14.b0 + (3200000 : W48)) = false)) ∧
    ((w15.pwr.pdUp = true) ∧ (w15.upd.camp = Option.none) ∧ (TablesCanonical w15) ∧ (cellWf { } w15.sc.bufs = true) ∧ ((w15.link (2 : Fin 4)).en = true) ∧ ((w15.link (2 : Fin 4)).mdcsel = (0 : BitVec 2)) ∧ ((w15.link (2 : Fin 4)).out = Option.none) ∧ ((w15.link (2 : Fin 4)).mdcOut = []) ∧ ((w15.link (2 : Fin 4)).mdcq = x14_15 :: x16_15)) ∧
    ((w16.pwr.pdUp = true) ∧ (w16.upd.camp = Option.none) ∧ (TablesCanonical w16) ∧ (cellWf { } w16.sc.bufs = true) ∧ ((w16.link (2 : Fin 4)).out = Option.some x15_16) ∧ (1 ≤ 1) ∧ (1 ≤ 3) ∧ (w16.tb = x15_16.b0 + BitVec.ofNat 48 (800000 * 1)) ∧ ((w16.link (2 : Fin 4)).en = true) ∧ ((w16.link (2 : Fin 4)).mdcsel = (0 : BitVec 2)) ∧ ((w16.link (2 : Fin 4)).fenced = false) ∧ ((w16.link (2 : Fin 4)).mdcOut = []) ∧ (64 * 1 + x15_16.len ≤ 224)) ∧
    ((w17.pwr.pdUp = true) ∧ (w17.upd.camp = Option.none) ∧ (TablesCanonical w17) ∧ (cellWf { } w17.sc.bufs = true) ∧ ((w17.link (2 : Fin 4)).out = Option.some x15_17) ∧ (1 ≤ 2) ∧ (2 ≤ 3) ∧ (w17.tb = x15_17.b0 + BitVec.ofNat 48 (800000 * 2)) ∧ ((w17.link (2 : Fin 4)).en = true) ∧ ((w17.link (2 : Fin 4)).mdcsel = (0 : BitVec 2)) ∧ ((w17.link (2 : Fin 4)).fenced = false) ∧ ((w17.link (2 : Fin 4)).mdcOut ≠ [] ∨ 224 < 64 * 2 + x15_17.len)) ∧
    ((w19.pwr.pdUp = true) ∧ (w19.upd.camp = Option.none) ∧ (TablesCanonical w19) ∧ (cellWf { } w19.sc.bufs = true) ∧ ((w19.link (2 : Fin 4)).out = Option.some x15_19) ∧ (reached w19.tb (x15_19.b0 + (3200000 : W48)) = true) ∧ (x15_19.msg.req = false) ∧ (x15_19.msg.buf = Option.some (3 : Fin 256)) ∧ (Part.boot ∉ [Part.sc, Part.hl])) ∧
    ((w19.pwr.pdUp = true) ∧ (w19.upd.camp = Option.none) ∧ (TablesCanonical w19) ∧ (cellWf { } w19.sc.bufs = true) ∧ ((w19.link (2 : Fin 4)).out = Option.some x15_19) ∧ (reached w19.tb (x15_19.b0 + (3200000 : W48)) = true) ∧ (x15_19.msg.req = false) ∧ (x15_19.msg.buf = Option.some (3 : Fin 256)) ∧ (Fin.ofNat 4 0 ≠ (2 : Fin 4))) := by
  (repeat' apply And.intro) <;> first | decide +kernel | (unfold MemCanonical; decide +kernel)
theorem witness_3 :
    ((w25.pwr.pdUp = true) ∧ (w25.upd.camp = Option.none) ∧ (TablesCanonical w25) ∧ (cellWf { } w25.sc.bufs = true) ∧ ((w25.link (2 : Fin 4)).en = true) ∧ ((w25.link (2 : Fin 4)).mdcsel = (0 : BitVec 2)) ∧ ((w25.link (2 : Fin 4)).fenced = false) ∧ ((w25.link (2 : Fin 4)).defects &&& (7 : BitVec 6) = (0 : BitVec 6)) ∧ (false = true ∨ x6_25.length < 6 ∨ 66 < x6_25.length ∨ leBytes 2 (fcs16 (List.take (x6_25.length - 2) x6_25)).toNat ≠ List.drop (x6_25.length - 2) x6_25)) ∧
    ((w25.pwr.pdUp = true) ∧ (w25.upd.camp = Option.none) ∧ (TablesCanonical w25) ∧ (cellWf { } w25.sc.bufs = true) ∧ ((w25.link (2 : Fin 4)).en = true) ∧ ((w25.link (2 : Fin 4)).mdcsel = (0 : BitVec 2)) ∧ ((w25.link (2 : Fin 4)).fenced = false) ∧ ((w25.link (2 : Fin 4)).defects &&& (7 : BitVec 6) = (0 : BitVec 6)) ∧ (1 ≤ x10_25.length) ∧ (x10_25.length ≤ 60) ∧ ((w25.link (2 : Fin 4)).seenMsg = Option.none)) ∧
    ((w25.pwr.pdUp = true) ∧ (w25.upd.camp = Option.none) ∧ (TablesCanonical w25) ∧ (cellWf { } w25.sc.bufs = true) ∧ ((w25.link (2 : Fin 4)).en = true) ∧ ((w25.link (2 : Fin 4)).mdcsel = (0 : BitVec 2)) ∧ ((w25.link (2 : Fin 4)).fenced = false) ∧ ((w25.link (2 : Fin 4)).defects &&& (7 : BitVec 6) = (0 : BitVec 6)) ∧ (1 ≤ x10_25.length) ∧ (x10_25.length ≤ 60) ∧ (w25.sc.reqs = [])) ∧
    ((w25.pwr.pdUp = true) ∧ (w25.upd.camp = Option.none) ∧ (TablesCanonical w25) ∧ (cellWf { } w25.sc.bufs = true) ∧ (w25.xchOn (2 : Fin 4) (7 : Fin 256) true = true)) ∧
    ((w25.pwr.pdUp = true) ∧ (w25.upd.camp = Option.none) ∧ (TablesCanonical w25) ∧ (cellWf { } w25.sc.bufs = true) ∧ (w25.xchOn (2 : Fin 4) (7 : Fin 256) false = true) ∧ (∀ u ∈ w25.hp.retired, u + 2 ≤ w25.time) ∧ (w25.headerCode (Source.link (2 : Fin 4) (7 : Fin 256)) 2 (hd false false (0 : Fin 16) (7 : Fin 256) (0 : BitVec 24)) = 0) ∧ (w25.glbOnly = false) ∧ (fld (w25.clientAt (hd false false (0 : Fin 16) (7 : Fin 256) (0 : BitVec 24)).client).rate 7 0 = 0) ∧ ((hd false false (0 : Fin 16) (7 : Fin 256) (0 : BitVec 24)).len = (0 : Fin 16)) ∧ (w25.writeWordCode (hd false false (0 : Fin 16) (7 : Fin 256) (0 : BitVec 24)).client (hd false false (0 : Fin 16) (7 : Fin 256) (0 : BitVec 24)).addr.toNat (7 : Word) = 0) ∧ (w25.hp.queue.length < 16)) ∧
    ((w26.pwr.pdUp = true) ∧ (w26.upd.camp = Option.none) ∧ (TablesCanonical w26) ∧ (cellWf { } w26.sc.bufs = true) ∧ (w26.xchOn (2 : Fin 4) (7 : Fin 256) false = true) ∧ (∀ u ∈ w26.hp.retired, u + 2 ≤ w26.time) ∧ (w26.headerCode (Source.link (2 : Fin 4) (7 : Fin 256)) 1 (hd true false (0 : Fin 16) (7 : Fin 256) (131072 : BitVec 24)) = 0) ∧ (w26.glbOnly = false) ∧ (fld (w26.clientAt (hd true false (0 : Fin 16) (7 : Fin 256) (131072 : BitVec 24)).client).rate 7 0 = 0) ∧ ((hd true false (0 : Fin 16) (7 : Fin 256) (131072 : BitVec 24)).len = (0 : Fin 16)) ∧ (w26.nativeAddr (hd true false (0 : Fin 16) (7 : Fin 256) (131072 : BitVec 24)).addr.toNat = 131072) ∧ (w26.isReg 131072 = true) ∧ (w26.permits (hd true false (0 : Fin 16) (7 : Fin 256) (131072 : BitVec 24)).client 131072 false (0 : Word) = true) ∧ (isBankAddr 131072 = true) ∧ (131072 % 4 = 0) ∧ (w26.mem.lock = Option.none) ∧ ((w26.bank (bankOf 131072)).st = BankState.on) ∧ ((w26.bank (bankOf 131072)).recov = false) ∧ (cellRead 0 w26.mem.errs 131072 = 0) ∧ (∀ z ∈ w26.hp.queue, w26.nativeAddr z.addr.toNat ≠ 131072) ∧ (∀ z ∈ w26.cyc.hpWas, z.1 ≠ 131072)) ∧
    ((w27.pwr.pdUp = true) ∧ (w27.upd.camp = Option.none) ∧ (TablesCanonical w27) ∧ (cellWf { } w27.sc.bufs = true) ∧ (w27.xchOn (2 : Fin 4) (7 : Fin 256) false = true) ∧ (∀ u ∈ w27.hp.retired, u + 2 ≤ w27.time) ∧ (w27.headerCode (Source.link (2 : Fin 4) (7 : Fin 256)) 0 (hd true true (0 : Fin 16) (7 : Fin 256) (131072 : BitVec 24)) = 0)) := by
  (repeat' apply And.intro) <;> first | decide +kernel | (unfold MemCanonical; decide +kernel)
theorem witness_4 :
    ((w30.pwr.pdUp = true) ∧ (w30.upd.camp = Option.none) ∧ (TablesCanonical w30) ∧ (cellWf { } w30.sc.bufs = true) ∧ ((w30.link (2 : Fin 4)).en = true) ∧ ((w30.link (2 : Fin 4)).mdcsel ≠ (0 : BitVec 2) ∨ (w30.link (2 : Fin 4)).fenced = true)) ∧
    ((w31.pwr.pdUp = true) ∧ (w31.upd.camp = Option.none) ∧ (TablesCanonical w31) ∧ (cellWf { } w31.sc.bufs = true) ∧ ((w31.link (2 : Fin 4)).en = true) ∧ ((w31.link (2 : Fin 4)).mdcsel = (0 : BitVec 2)) ∧ ((w31.link (2 : Fin 4)).fenced = false) ∧ ((w31.link (2 : Fin 4)).defects &&& (7 : BitVec 6) = (0 : BitVec 6)) ∧ (1 ≤ x10_31.length) ∧ (x10_31.length ≤ 60) ∧ ((w31.link (2 : Fin 4)).seenMsg = Option.some sn) ∧ (sn.seq = true) ∧ (sn.client = (9 : Fin 256)) ∧ (sn.msgid = (325 : BitVec 12)) ∧ (sn.rsp = true) ∧ (BitVec.toNat (w31.tb - sn.at_) ≤ 3200000)) ∧
    ((w32.pwr.pdUp = true) ∧ (w32.upd.camp = Option.none) ∧ (TablesCanonical w32) ∧ (cellWf { } w32.sc.bufs = true) ∧ ((w32.link (2 : Fin 4)).en = true) ∧ ((w32.link (2 : Fin 4)).mdcsel = (0 : BitVec 2)) ∧ ((w32.link (2 : Fin 4)).fenced = false) ∧ ((w32.link (2 : Fin 4)).defects &&& (7 : BitVec 6) = (0 : BitVec 6)) ∧ (1 ≤ x10_32.length) ∧ (x10_32.length ≤ 60) ∧ (w32.sc.reqs = [rq]) ∧ (rq.client = (9 : Fin 256)) ∧ (rq.link = (2 : Fin 4)) ∧ (rq.msgid = (325 : BitVec 12)) ∧ (MemCanonical w32) ∧ (w32.mem.errs = []) ∧ ((w32.bank (7 : Fin 8)).st = BankState.on) ∧ (0 < 245760 + 64 * (↑rq.buf : Nat) ∨ 245824 + 64 * (↑rq.buf : Nat) ≤ 0)) := by
  (repeat' apply And.intro) <;> first | decide +kernel | (unfold MemCanonical; decide +kernel)
end HarnessLinkCommands
end W15

namespace W16
def cn (s : State) : State := { s with pwr := { s.pwr with pdUp := true, st := .run }, flt := { s.flt with admMask := 0 }, sc := { s.sc with recs := [(9, { bind := 0xB8FF0000, st := .active }), (10, { bind := 0xB8FF0000, st := .fenced })], bufs := [], reqs := [], posted := [] }, tt := { s.tt with cal := [] } }
def T (f : Tsi → Tsi) (s : State) : State := let u := cn s; { u with tsi := f u.tsi }
def L (l : Fin 4) (f : Hl → Hl) (s : State) : State := { s with hl := vset s.hl l f }
def W (ty src slot o : Nat) : Word := BitVec.ofNat 32 (ty * 2^22 + src * 2^19 + slot * 2^8 + o * 2^24 + 0x5A)
def cA : List (Nat × Word) := [(7, W 2 0 0 0), (8, W 2 0 0 9), (9, W 2 0 0 10), (10, W 1 2 5 0), (256+7, W 1 2 0 0), (512*2+7, W 2 0 0 0), (512*2+8, W 1 1 3 9), (512*2+256+8, W 2 1 3 9), (512*4+7, W 2 0 0 9), (512*4+8, W 1 4 3 9), (512*4+9, W 1 2 3 9),(512*4+10, W 2 0 0 10)]

/-! ### FrameBoundaryAndInterchange -/
namespace FrameBoundaryAndInterchange
def w0 : State := { (cn (su 3)) with pwr := { (su 3).pwr with pdUp := false } }
def w2 : State := L 2 (fun x => { x with en := true, fenced := false, xch := 0 }) (T (fun t => { t with conn := cA, active := false, fn := 3, frameCnt := 50003, adm := 0xF, ivTx := [(3, 9)] }) (su 3))
def w5 : State := L 2 (fun x => { x with en := true, fenced := false, xch := 0 }) (T (fun t => { t with conn := cA, active := false, fn := 3, frameCnt := 50003, adm := 0xB, ivTx := [(3, 9)], copying := true, pend := none }) (su 3))
def w6 : State := L 2 (fun x => { x with en := true, fenced := false, xch := 0 }) (T (fun t => { t with conn := cA, active := false, fn := 3, frameCnt := 50003, adm := 0xB, ivTx := [(3, 9)], copying := false, pend := none }) (su 3))
def w7 : State := L 2 (fun x => { x with en := true, fenced := false, xch := 0 }) (T (fun t => { t with conn := cA, active := true, fn := 3, frameCnt := 50003, adm := 0xF, ivTx := [(3, 9)], copying := false, pend := none }) (su 4))
def w9 : State := { L 2 (fun x => { x with en := true, fenced := false, xch := 0 }) (T (fun t => { t with conn := cA, active := true, fn := 3, frameCnt := 50003, adm := 0xF, ivTx := [(3, 9)], copying := true, pend := none }) (su 4)) with boot := { (su 4).boot with locked := true } }
def w13 : State := T (fun t => { t with frameCnt := 49999 }) (su 3)
theorem witness_1 :
    (TablesCanonical w2) ∧ (w2.pwr.pdUp = true) ∧ ((0 : Fin 256) = (0 : Fin 256) ∨ (0 : Fin 256) = (255 : Fin 256)) ∧ (Decidable.decide ((7 : Fin 2560).val / 256 % 2 = 1) = w2.tsi.active ∧ w2.boot.locked = false ∨ Decidable.decide ((7 : Fin 2560).val / 256 % 2 = 1) ≠ w2.tsi.active ∧ ¬(w2.tsi.copying = true ∨ ∃ q, w2.tsi.pend = Option.some q ∧ q.at_ ≠ w2.tb)) ∧ (badEntry (0 : Word) = false) := by
  (repeat' apply And.intro) <;> first | exact ⟨_, rfl, by decide +kernel⟩ | decide +kernel | (unfold MemCanonical; decide +kernel)
theorem witness_2 :
    (TablesCanonical w5) ∧ (w5.pwr.pdUp = true) ∧ ((255 : Fin 256) = (0 : Fin 256) ∨ (255 : Fin 256) = (255 : Fin 256)) ∧ (Decidable.decide ((263 : Fin 2560).val / 256 % 2 = 1) ≠ w5.tsi.active) ∧ (w5.tsi.copying = true ∨ ∃ q, w5.tsi.pend = Option.some q ∧ q.at_ ≠ w5.tb) := by
  (repeat' apply And.intro) <;> first | exact ⟨_, rfl, by decide +kernel⟩ | decide +kernel | (unfold MemCanonical; decide +kernel)
theorem witness_3 :
    (TablesCanonical w7) ∧ (w7.pwr.pdUp = true) ∧ ((0 : Fin 256) = (0 : Fin 256) ∨ (0 : Fin 256) = (255 : Fin 256)) ∧ (Decidable.decide ((7 : Fin 2560).val / 256 % 2 = 1) = w7.tsi.active ∧ w7.boot.locked = false ∨ Decidable.decide ((7 : Fin 2560).val / 256 % 2 = 1) ≠ w7.tsi.active ∧ ¬(w7.tsi.copying = true ∨ ∃ q, w7.tsi.pend = Option.some q ∧ q.at_ ≠ w7.tb)) ∧ (badEntry (15728657 : Word) = true) := by
  (repeat' apply And.intro) <;> first | exact ⟨_, rfl, by decide +kernel⟩ | decide +kernel | (unfold MemCanonical; decide +kernel)
theorem witness_4 :
    ((TablesCanonical w0) ∧ (w0.pwr.pdUp = false)) ∧
    ((TablesCanonical w2) ∧ (w2.pwr.pdUp = true) ∧ (w2.flt.admMask = (0 : BitVec 4)) ∧ (50000 ≤ w2.tsi.frameCnt) ∧ (w2.tsi.fn ≠ (15 : BitVec 4))) ∧
    ((TablesCanonical w2) ∧ (w2.pwr.pdUp = true) ∧ ((0 : Fin 256) = (0 : Fin 256) ∨ (0 : Fin 256) = (255 : Fin 256)) ∧ (¬(w2.tsi.copying = true ∨ w2.tsi.pend ≠ Option.none))) ∧
    ((TablesCanonical w2) ∧ (w2.pwr.pdUp = true) ∧ (w2.tsi.copying = false ∨ w2.time < w2.tsi.copyAt + 1280) ∧ (w2.flt.admMask = (0 : BitVec 4) ∨ w2.tsi.copying = true)) ∧
    ((TablesCanonical w5) ∧ (w5.pwr.pdUp = true) ∧ (¬((255 : Fin 256) = (0 : Fin 256) ∨ (255 : Fin 256) = (255 : Fin 256)) ∨ w5.tsi.copying = true ∨ w5.tsi.pend ≠ Option.none)) ∧
    ((TablesCanonical w5) ∧ (w5.pwr.pdUp = true) ∧ (w5.tsi.copying = true) ∧ (w5.tsi.copyAt + 1280 ≤ w5.time) ∧ (w5.flt.admMask = (0 : BitVec 4))) ∧
    ((TablesCanonical w6) ∧ (w6.pwr.pdUp = true) ∧ (¬((7 : Fin 256) = (0 : Fin 256) ∨ (7 : Fin 256) = (255 : Fin 256)))) ∧
    ((TablesCanonical w9) ∧ (w9.pwr.pdUp = true) ∧ ((0 : Fin 256) = (0 : Fin 256) ∨ (0 : Fin 256) = (255 : Fin 256)) ∧ (Decidable.decide ((263 : Fin 2560).val / 256 % 2 = 1) = w9.tsi.active) ∧ (w9.boot.locked = true)) := by
  (repeat' apply And.intro) <;> first | decide +kernel | (unfold MemCanonical; decide +kernel)
theorem witness_5 :
    (TablesCanonical w13) ∧ (w13.pwr.pdUp = true) ∧ (w13.flt.admMask = (0 : BitVec 4)) ∧ (w13.tsi.frameCnt < 50000) := by
  (repeat' apply And.intro) <;> first | decide +kernel | (unfold MemCanonical; decide +kernel)
end FrameBoundaryAndInterchange
end W16

namespace W17
def up (s : State) : State := { s with pwr := { s.pwr with pdUp := true }, sc := { s.sc with recs := [] } }
def dd (t : Nat) (o : Bool) (u : Verdict) : DoneSecond := { at_ := t, suspect := true, observed := o, v := .replicate 4 u, gov := 3, plaus := 4, tamper := 5, odo := 6, run := 7 }
def v1 : Verdict := { bip := 7, es := true, ses := true, uas := false, slips := 2, ds := true, counts := true }
def rq : RsWrite := { type := 3, index := 2, data := List.replicate 100 7 }
def PMs (f : Perf → Perf) (s : State) : State := let u := up s; { u with pm := f { u.pm with sec := { u.pm.sec with at_ := 1 } }, canopy := { u.canopy with rtcSec := 2 } }
def RSs (f : RecStore → RecStore) (s : State) : State := let u := up s; { u with rs := f { u.rs with op := true, compact := none } }
def L (l : Fin 4) (f : Hl → Hl) (s : State) : State := { s with hl := vset s.hl l f }
def RTC (n : Nat) (s : State) : State := { s with canopy := { s.canopy with rtcSec := BitVec.ofNat 32 n } }
def vv : RsVersion := { type := 3, index := 2, seq := 9, pages := 2, sector := 5, data := [1] }
def lk (b : Nat) (se : Bool) (en : Bool) : LinkSec := { bip := b, severe := se, enabled := en, errored := false }

/-! ### PerformanceAndRecordStore -/
namespace PerformanceAndRecordStore
def w0 : State := { (up (su 3)) with pwr := { (su 3).pwr with pdUp := false } }
def w1 : State := dn ({ (up (su 3)) with pwr := { (su 3).pwr with pdUp := false } })
def w2 : State := PMs (fun p => { p with waiting := [], sec := { p.sec with observed := true, links := .replicate 4 (lk 3 false true) }, sesthr := 9, unav := 0, against := .replicate 4 3 }) (L 2 (fun x => { x with en := true, secRaw := false, defects := 0, deg := 0x32001, secBip := 5, integ := .replicate 6 2}) (su 3))
def w5 : State := PMs (fun p => { p with waiting := [dd 1000 true v1], sec := { p.sec with observed := false, links := .replicate 4 (lk 9 false true) }, sesthr := 9, unav := 0, against := .replicate 4 9 }) (su 3)
def w6 : State := RTC 1010 (PMs (fun p => { p with waiting := [dd 1000 true v1]}) (su 3))
def x3_6 : DoneSecond := dd 1000 true v1
def x4_6 : List DoneSecond := []
def w7 : State := RTC 1011 (PMs (fun p => { p with waiting := [dd 1000 true v1], tca := 0, open15 := true, openDay := true, cur15 := { p.cur15 with start := 900 }, curDay := { p.curDay with start := 0 }}) (su 3))
def x3_7 : DoneSecond := dd 1000 true v1
def x4_7 : List DoneSecond := []
def w8 : State := RTC 1811 (PMs (fun p => { p with waiting := [dd 1799 true { v1 with counts := false }], tca := 0, open15 := true, openDay := true, cur15 := { p.cur15 with start := 900 }, curDay := { p.curDay with start := 0 }}) (su 3))
def x3_8 : DoneSecond := dd 1799 true { v1 with counts := false }
def x4_8 : List DoneSecond := []
def w11 : State := PMs (fun p => { p with cfg := 0x28, runMs := 999, selKind := 1, selRdy := false, selAge := 3 }) { (su 3) with tbs := { run := true, tb := 400000 }, ads := vset (su 3).ads 0 (fun a => { a with st := .locked }), chans := (su 3).chans.map fun c => { c with o := { c.o with inClr := false } } }
def w12 : State := PMs (fun p => { p with cfg := 0x28, runMs := 99, selKind := 3, selRdy := false, selAge := 3 }) { (su 3) with tbs := { run := true, tb := 400000 }, ads := vset (su 3).ads 0 (fun a => { a with st := .locked }), chans := (su 3).chans.map fun c => { c with o := { c.o with inClr := false } } }
def w14 : State := RSs (fun r => { r with ready := true, versions := [vv, vv], queue := [rq], sectors := [], head := 5, ro := false }) (su 3)
def x5_14 : RsWrite := rq
def x6_14 : List RsWrite := []
def w16 : State := RSs (fun r => { r with ready := true, versions := [vv, vv], queue := [rq], sectors := [(5, { used := 61 }), (7, { st := .spare })], head := 5, ro := false }) (su 3)
def x5_16 : RsWrite := rq
def x6_16 : List RsWrite := []
def w17 : State := RSs (fun r => { r with ready := true, versions := [vv, vv], queue := [rq], sectors := [(5, { used := 61 }), (7, { st := .spare })], head := 5, ro := true }) (su 3)
def x5_17 : RsWrite := rq
def x6_17 : List RsWrite := []
def w22 : State := RSs (fun r => { r with versions := [vv, { vv with seq := 3 }], sectors := [(5, { used := 4 })], queue := [rq], ro := false, ready := true, head := 7, compact := some 5 }) (su 3)
def x13_22 : RsVersion := vv
def x15_22 : List RsVersion := []
def w23 : State := RSs (fun r => { r with versions := [vv, { vv with seq := 3 }], sectors := [(5, { used := 4 })], queue := [rq], ro := false, ready := true, head := 7, compact := some 4 }) (su 3)
def w25 : State := RSs (fun r => { r with versions := [vv, { vv with seq := 3 }], sectors := [(5, { used := 4 })], ro := false, ready := true, head := 7, compact := none, queue := [] }) (su 3)
theorem witness_1 :
    ((w0.pwr.pdUp = false ∨ w0.canopy.rtcSec = w0.pm.sec.at_)) ∧
    ((w0.pm.waiting = [] ∨ w0.flt.supReset = true)) ∧
    ((¬(w0.pwr.pllLock = true ∧ w0.cyc.runMs = false ∧ bit w0.pm.cfg 3 = true ∧ w0.tbs.run = true ∧ BitVec.toNat w0.tb % 200000 = 0 ∧ (w0.ad (0 : Fin 3)).st = AdState.locked ∧ ∃ k, (w0.chan (State.chanOf (Fin.ofNat 8 (fld w0.pm.cfg 6 4)) k)).o.inClr = false))) ∧
    ((w0.pwr.pllLock = true) ∧ (fld (261 : Word) 10 8 = 1 ∧ 1 ≤ fld (261 : Word) 5 0 ∧ fld (261 : Word) 5 0 ≤ 32 ∨ fld (261 : Word) 10 8 = 3 ∧ 1 ≤ fld (261 : Word) 5 0 ∧ fld (261 : Word) 5 0 ≤ 7)) ∧
    ((w0.pm.selKind = (0 : BitVec 3) ∨ w0.pm.selRdy = true ∨ w0.flt.supReset = true)) ∧
    ((w0.pwr.pd1Up = true) ∧ (w0.rs.ready = false)) ∧
    ((w0.rs.op = false ∨ w0.rs.ready = false)) ∧
    ((¬w1.pwr.pllLock = true)) := by
  (repeat' apply And.intro) <;> first | decide +kernel | (unfold MemCanonical; decide +kernel)
theorem witness_2 :
    ((w1.pwr.pd1Up = false)) ∧
    ((w2.pwr.pllLock = true) ∧ (w2.pwr.pdUp = true) ∧ (w2.canopy.rtcSec ≠ w2.pm.sec.at_)) ∧
    ((w5.pwr.pllLock = true) ∧ (¬(fld (1313 : Word) 10 8 = 1 ∧ 1 ≤ fld (1313 : Word) 5 0 ∧ fld (1313 : Word) 5 0 ≤ 32 ∨ fld (1313 : Word) 10 8 = 3 ∧ 1 ≤ fld (1313 : Word) 5 0 ∧ fld (1313 : Word) 5 0 ≤ 7))) ∧
    ((w6.pwr.pllLock = true) ∧ (w6.pm.waiting = x3_6 :: x4_6) ∧ (w6.flt.supReset = false) ∧ (BitVec.toNat (w6.canopy.rtcSec - BitVec.ofNat 32 x3_6.at_) < 11)) ∧
    ((w7.pwr.pllLock = true) ∧ (w7.pm.waiting = x3_7 :: x4_7) ∧ (w7.flt.supReset = false) ∧ (11 ≤ BitVec.toNat (w7.canopy.rtcSec - BitVec.ofNat 32 x3_7.at_)) ∧ (x3_7.observed = true) ∧ (w7.pm.tca = (0 : Word)) ∧ (w7.pm.open15 = true) ∧ (w7.pm.openDay = true) ∧ (BitVec.toNat w7.pm.cur15.start = x3_7.at_ / 900 * 900) ∧ (BitVec.toNat w7.pm.curDay.start = x3_7.at_ / 86400 * 86400) ∧ (x3_7.at_ % 86400 ≠ 86399) ∧ (x3_7.at_ % 900 ≠ 899)) ∧
    ((w8.pwr.pllLock = true) ∧ (w8.pm.waiting = x3_8 :: x4_8) ∧ (w8.flt.supReset = false) ∧ (11 ≤ BitVec.toNat (w8.canopy.rtcSec - BitVec.ofNat 32 x3_8.at_)) ∧ (x3_8.observed = true) ∧ (w8.pm.tca = (0 : Word)) ∧ (w8.pm.open15 = true) ∧ (w8.pm.openDay = true) ∧ (BitVec.toNat w8.pm.cur15.start = x3_8.at_ / 900 * 900) ∧ (BitVec.toNat w8.pm.curDay.start = x3_8.at_ / 86400 * 86400) ∧ (x3_8.at_ % 86400 ≠ 86399) ∧ (x3_8.at_ % 900 = 899)) ∧
    ((w11.pwr.pllLock = true ∧ w11.cyc.runMs = false ∧ bit w11.pm.cfg 3 = true ∧ w11.tbs.run = true ∧ BitVec.toNat w11.tb % 200000 = 0 ∧ (w11.ad (0 : Fin 3)).st = AdState.locked ∧ ∃ k, (w11.chan (State.chanOf (Fin.ofNat 8 (fld w11.pm.cfg 6 4)) k)).o.inClr = false) ∧ (w11.pm.runMs < 1000)) ∧
    ((w11.pwr.pllLock = true) ∧ (w11.pm.selKind = (1 : BitVec 3)) ∧ (w11.pm.selRdy = false) ∧ (w11.flt.supReset = false)) := by
  (repeat' apply And.intro) <;> first | decide +kernel | (unfold MemCanonical; decide +kernel)
theorem witness_3 :
    ((w12.pwr.pllLock = true) ∧ (w12.pm.selKind = (3 : BitVec 3)) ∧ (w12.pm.selRdy = false) ∧ (w12.flt.supReset = false)) ∧
    ((w14.pwr.pd1Up = true) ∧ (w14.rs.op = true) ∧ (w14.rs.ready = true) ∧ (cellWf { } w14.rs.sectors = true) ∧ (w14.rs.compact = Option.none ∧ w14.rs.queue = x5_14 :: x6_14) ∧ (w14.rs.ro = false) ∧ ((w14.sector w14.rs.head).st = SectorState.service ∧ (w14.sector w14.rs.head).used + (16 + x5_14.data.length + 63) / 64 ≤ 63) ∧ (w14.spareSectors = [])) ∧
    ((w16.pwr.pd1Up = true) ∧ (w16.rs.op = true) ∧ (w16.rs.ready = true) ∧ (cellWf { } w16.rs.sectors = true) ∧ (w16.rs.compact = Option.none ∧ w16.rs.queue = x5_16 :: x6_16) ∧ (w16.rs.ro = false) ∧ ((w16.sector w16.rs.head).st = SectorState.service ∧ (w16.sector w16.rs.head).used + (16 + x5_16.data.length + 63) / 64 ≤ 63) ∧ (w16.spareSectors ≠ [])) ∧
    ((w17.pwr.pd1Up = true) ∧ (w17.rs.op = true) ∧ (w17.rs.ready = true) ∧ (cellWf { } w17.rs.sectors = true) ∧ (w17.rs.compact = Option.none ∧ w17.rs.queue = x5_17 :: x6_17) ∧ (w17.rs.ro = true)) ∧
    ((w22.pwr.pd1Up = true) ∧ (w22.rs.op = true) ∧ (w22.rs.ready = true) ∧ (cellWf { } w22.rs.sectors = true) ∧ (w22.rs.compact = Option.some 5) ∧ (w22.currentIn 5 = x13_22 :: x15_22) ∧ (w22.rs.ro = false) ∧ ((w22.sector w22.rs.head).st = SectorState.service) ∧ ((w22.sector w22.rs.head).used + (16 + x13_22.data.length + 63) / 64 ≤ 63)) ∧
    ((w23.pwr.pd1Up = true) ∧ (w23.rs.op = true) ∧ (w23.rs.ready = true) ∧ (cellWf { } w23.rs.sectors = true) ∧ (w23.rs.compact = Option.some 4) ∧ (w23.currentIn 4 = [])) ∧
    ((w25.pwr.pd1Up = true) ∧ (w25.rs.op = true) ∧ (w25.rs.ready = true) ∧ (cellWf { } w25.rs.sectors = true) ∧ (w25.rs.compact = Option.none) ∧ (w25.rs.queue = [])) := by
  (repeat' apply And.intro) <;> first | decide +kernel | (unfold MemCanonical; decide +kernel)
end PerformanceAndRecordStore
end W17

namespace W18
def up (s : State) : State := { s with sc := { s.sc with recs := [], posted := [] }, pack := { s.pack with cfg := 0x32052F04 } }
def SM (k : Fin 2) (f : Smb → Smb) (s : State) : State := let u := up s; { u with smb := vset u.smb k (fun x => f { x with checkAt := 0 }) }
def PK (f : Pack → Pack) (s : State) : State := { s with pack := f { s.pack with waitAt := 0, pollAt := 0, again := false } }
def MS (m : Fin 2) (f : Msp → Msp) (s : State) : State := { s with msp := vset s.msp m (fun x => f { x with txFree := 0 }) }
def LS (d : Nat → BitVec 2) (en fe : Bool) (s : State) : State := { s with hl := Vector.ofFn fun (i : Fin 4) => { at_ s.hl i with mdcsel := d i.val, en := en, fenced := fe } }
def xc : SmbXfer := { word := 0x1234, owner := 9, pack := false }
def xp : SmbXfer := { word := 0x1234, owner := 0, pack := true }

/-! ### SerialCommands -/
namespace SerialCommands
def w0 : State := SM 1 (fun x => { x with st := .idle, fenced := false, xfer := none, check := true }) (su 3)
def w1 : State := dn (SM 1 (fun x => { x with st := .idle, fenced := false, xfer := none, check := true }) (su 3))
def w2 : State := SM 1 (fun x => { x with st := .busy, fenced := true, xfer := some xc, check := true }) (su 3)
def x7_2 : SmbXfer := xc
def w3 : State := SM 1 (fun x => { x with st := .busy, fenced := true, xfer := some xc, check := false }) (su 3)
def x7_3 : SmbXfer := xc
def w6 : State := SM 1 (fun x => { x with st := .stuck, fenced := false, xfer := none, check := false, en := true }) (PK (fun p => { p with step := none }) (su 3))
def w7 : State := SM 0 (fun x => { x with st := .lasting, fenced := false, xfer := none, check := true, en := true }) (PK (fun p => { p with step := none }) (su 3))
def w8 : State := SM 0 (fun x => { x with st := .clear, fenced := false, xfer := none, check := true, en := true, fails := 0 }) (PK (fun p => { p with step := none }) (su 3))
def w10 : State := SM 1 (fun x => { x with st := .clear, fenced := true, xfer := none, check := true, en := false, fails := 2, firstStuck := 10 ^ 12 }) (PK (fun p => { p with step := none }) (su 3))
def w11 : State := PK (fun p => { p with cfg := 5, st := .ready, step := none, wait := .nothing }) (SM 0 (fun x => { x with st := .idle, fenced := false, xfer := none, check := false, en := true, fails := 2, firstStuck := 10 ^ 12 }) (PK (fun p => { p with step := none }) (su 3)))
def w12 : State := PK (fun p => { p with cfg := 5, st := .noPack, step := none, wait := .nothing }) (SM 0 (fun x => { x with st := .idle, fenced := false, xfer := none, check := false, en := true, fails := 2, firstStuck := 10 ^ 12 }) (PK (fun p => { p with step := none }) (su 3)))
def w13 : State := PK (fun p => { p with cfg := 5, st := .reading, step := some (.swap 3), wait := .retry }) (SM 0 (fun x => { x with st := .idle, fenced := false, xfer := none, check := false, en := true, fails := 2, firstStuck := 10 ^ 12 }) (PK (fun p => { p with step := none }) (su 3)))
def x8_13 : PackStep := .swap 3
def w15 : State := PK (fun p => { p with cfg := 5, st := .reading, step := some (.swap 0), wait := .nothing, attempts := 1, again := false }) (SM 0 (fun x => { x with st := .busy, fenced := false, xfer := some xp, check := false, en := true, fails := 2, firstStuck := 10 ^ 12 }) (PK (fun p => { p with step := none }) (su 3)))
def x7_15 : SmbXfer := xp
def w16 : State := PK (fun p => { p with cfg := 5, st := .reading, step := some (.swap 0), wait := .nothing, attempts := 2, again := false }) (SM 0 (fun x => { x with st := .busy, fenced := false, xfer := some xp, check := false, en := true, fails := 2, firstStuck := 10 ^ 12 }) (PK (fun p => { p with step := none }) (su 3)))
def x7_16 : SmbXfer := xp
def w18 : State := MS 1 (fun z => { z with en := true, rxBad := false, flow := true, rx := List.replicate 191 5, rxHeld := 3, tx := [0x55, 7], txHeld := 0 }) (up (su 3))
def x12_18 : List Byte := [7]
def w19 : State := MS 1 (fun z => { z with en := true, rxBad := false, flow := true, rx := List.replicate 191 5, rxHeld := 134, tx := [0x55, 7], txHeld := 0 }) (up (su 3))
def w20 : State := MS 1 (fun z => { z with en := true, rxBad := false, flow := true, rx := List.replicate 256 5, rxHeld := 134, tx := [0x55, 7], txHeld := 0 }) (up (su 3))
def w21 : State := MS 1 (fun z => { z with en := true, rxBad := false, flow := true, rx := List.replicate 200 5, rxHeld := 134, tx := [0x7E, 7], txHeld := 4 }) (up (su 3))
def x12_21 : List Byte := [7]
def w22 : State := MS 1 (fun z => { z with en := true, rxBad := false, flow := true, rx := List.replicate 100 5, rxHeld := 0, tx := [0x7E, 7], txHeld := 4 }) (up (su 3))
def w24 : State := LS (fun i => if i = 2 then 2 else 1) true true (MS 1 (fun z => { z with en := true, rxBad := false, flow := true, rx := List.replicate 100 5, rxHeld := 7, tx := [0x56, 7], txHeld := 4 }) (up (su 3)))
def w25 : State := LS (fun i => if i = 2 then 2 else 1) true false (MS 1 (fun z => { z with en := true, rxBad := false, flow := true, rx := List.replicate 100 5, rxHeld := 7, tx := [0x56, 7], txHeld := 4 }) (up (su 3)))
def w32 : State := MS 1 (fun z => { z with en := true, txFree := 10 ^ 13, rxBad := false, flow := true, rx := List.replicate 191 5, rxHeld := 3, tx := [0x55, 7], txHeld := 0 }) (up (su 3))
def w35 : State := MS 1 (fun z => { z with en := true, rxBad := true, flow := true, rx := List.replicate 191 5, rxHeld := 0, tx := [0x55, 7], txHeld := 0 }) (up (su 3))
def w36 : State := LS (fun i => if i = 2 then 2 else 1) true false (MS 1 (fun z => { z with en := true, rxBad := true, flow := true, rx := List.replicate 191 5, rxHeld := 0, tx := [0x7E, 7], txHeld := 0 }) (up (su 3)))
def x12_36 : List Byte := [7]
def w38 : State := LS (fun i => if i = 2 then 2 else 1) true false (MS 1 (fun z => { z with en := true, rxBad := false, flow := true, rx := List.replicate 256 5, rxHeld := 7, tx := [0x7E, 7], txHeld := 0 }) (up (su 3)))
theorem witness_1 :
    ((w0.pwr.pd1Up = true) ∧ (¬((w0.smbc (1 : Fin 2)).st ≠ SmbState.idle ∨ (w0.smbc (1 : Fin 2)).fenced = true ∨ (1 : Fin 2) = (0 : Fin 2) ∧ bit w0.pack.cfg 0 = true ∨ fld (3221225477 : Word) 27 23 ≠ 0 ∧ fld (3221225477 : Word) 31 29 ≠ 6))) ∧
    ((w0.pwr.pd1Up = true) ∧ ((w0.smbc (1 : Fin 2)).xfer = Option.none)) ∧
    ((w0.pwr.pd1Up = true) ∧ ((4 : Fin 16) ∉ [(1 : Fin 16), (2 : Fin 16), (3 : Fin 16), (5 : Fin 16), (6 : Fin 16), (8 : Fin 16)])) ∧
    ((w0.pwr.pd1Up = true) ∧ ((w0.smbc (1 : Fin 2)).en = false) ∧ ((w0.smbc (1 : Fin 2)).fenced = false ∨ (w0.smbc (1 : Fin 2)).fails ≠ (0 : BitVec 2))) ∧
    ((w0.pwr.pd1Up = true) ∧ ((w0.smbc (1 : Fin 2)).st ≠ SmbState.stuck ∨ (w0.smbc (1 : Fin 2)).check = true ∨ w0.time < (w0.smbc (1 : Fin 2)).checkAt + 200000000)) ∧
    ((w0.pwr.pd1Up = true) ∧ ((w0.smbc (1 : Fin 2)).st ≠ SmbState.stuck) ∧ ((w0.smbc (1 : Fin 2)).st ≠ SmbState.lasting)) ∧
    ((w0.pwr.pd1Up = true) ∧ ((w0.smbc (1 : Fin 2)).check = true) ∧ ((w0.smbc (1 : Fin 2)).checkAt + 1000 ≤ w0.time) ∧ ((w0.smbc (1 : Fin 2)).fenced = false) ∧ ((1 : Fin 2) = (1 : Fin 2) ∨ w0.pack.step = Option.none)) ∧
    ((w0.pwr.pd1Up = true) ∧ ((w0.smbc (1 : Fin 2)).st ≠ SmbState.clear ∨ w0.time < (w0.smbc (1 : Fin 2)).checkAt + if true = true then 5000 else 19000)) := by
  (repeat' apply And.intro) <;> first | decide +kernel | (unfold MemCanonical; decide +kernel)
theorem witness_2 :
    ((w0.pwr.pd1Up = true) ∧ (bit w0.pack.cfg 0 = false)) ∧
    ((w0.pwr.pd1Up = true) ∧ (¬(w0.pack.wait = PackWait.retry ∧ w0.pack.waitAt + 4000000 ≤ w0.time))) ∧
    ((w0.pwr.pd1Up = true) ∧ (¬(w0.pack.wait = PackWait.auth ∧ w0.pack.waitAt + 200000 * fld w0.pack.cfg 31 24 ≤ w0.time))) ∧
    ((w0.pwr.pd1Up = true) ∧ (w0.pack.step ≠ Option.none ∨ w0.pack.st ≠ PackState.ready ∧ w0.pack.st ≠ PackState.noPack ∨ w0.flt.supReset = true ∨ w0.time < w0.pack.pollAt + 200000000 * fld w0.pack.cfg 23 16)) ∧
    ((w0.pwr.pllLock = true) ∧ ((w0.mspm (1 : Fin 2)).en = false)) ∧
    ((w1.pwr.pd1Up = false)) ∧
    ((w1.pwr.pllLock = false)) ∧
    ((w2.pwr.pd1Up = true) ∧ ((w2.smbc (1 : Fin 2)).st ≠ SmbState.idle ∨ (w2.smbc (1 : Fin 2)).fenced = true ∨ (1 : Fin 2) = (0 : Fin 2) ∧ bit w2.pack.cfg 0 = true ∨ fld (3221225477 : Word) 27 23 ≠ 0 ∧ fld (3221225477 : Word) 31 29 ≠ 6)) := by
  (repeat' apply And.intro) <;> first | decide +kernel | (unfold MemCanonical; decide +kernel)
theorem witness_3 :
    ((w2.pwr.pd1Up = true) ∧ ((w2.smbc (1 : Fin 2)).xfer = Option.some x7_2) ∧ (x7_2.pack = false) ∧ ((2 : Fin 16) = (2 : Fin 16) ∨ (2 : Fin 16) = (3 : Fin 16))) ∧
    ((w2.pwr.pd1Up = true) ∧ ((w2.smbc (1 : Fin 2)).en = false) ∧ ((w2.smbc (1 : Fin 2)).fenced = true) ∧ ((w2.smbc (1 : Fin 2)).fails = (0 : BitVec 2))) ∧
    ((w2.pwr.pd1Up = true) ∧ ((w2.smbc (1 : Fin 2)).check = true) ∧ ((w2.smbc (1 : Fin 2)).checkAt + 1000 ≤ w2.time) ∧ ((w2.smbc (1 : Fin 2)).fenced = true) ∧ ((1 : Fin 2) = (1 : Fin 2))) ∧
    ((w3.pwr.pd1Up = true) ∧ ((w3.smbc (1 : Fin 2)).xfer = Option.some x7_3) ∧ (x7_3.pack = false) ∧ ((5 : Fin 16) = (5 : Fin 16) ∨ (5 : Fin 16) = (8 : Fin 16))) ∧
    ((w3.pwr.pd1Up = true) ∧ ((w3.smbc (1 : Fin 2)).check = false ∨ w3.time < (w3.smbc (1 : Fin 2)).checkAt + 1000)) ∧
    ((w6.pwr.pd1Up = true) ∧ ((w6.smbc (1 : Fin 2)).en = true)) ∧
    ((w6.pwr.pd1Up = true) ∧ ((w6.smbc (1 : Fin 2)).st = SmbState.stuck) ∧ ((w6.smbc (1 : Fin 2)).check = false) ∧ ((w6.smbc (1 : Fin 2)).checkAt + 200000000 ≤ w6.time)) ∧
    ((w6.pwr.pd1Up = true) ∧ ((w6.smbc (1 : Fin 2)).st = SmbState.stuck ∨ (w6.smbc (1 : Fin 2)).st = SmbState.lasting) ∧ ((w6.smbc (1 : Fin 2)).check = false)) := by
  (repeat' apply And.intro) <;> first | decide +kernel | (unfold MemCanonical; decide +kernel)
theorem witness_4 :
    ((w7.pwr.pd1Up = true) ∧ ((w7.smbc (0 : Fin 2)).st = SmbState.stuck ∨ (w7.smbc (0 : Fin 2)).st = SmbState.lasting) ∧ ((w7.smbc (0 : Fin 2)).check = true)) ∧
    ((w8.pwr.pd1Up = true) ∧ ((w8.smbc (0 : Fin 2)).st = SmbState.clear) ∧ ((w8.smbc (0 : Fin 2)).checkAt + 5000 ≤ w8.time) ∧ ((w8.smbc (0 : Fin 2)).fenced = false) ∧ ((0 : Fin 2) = (1 : Fin 2) ∨ w8.pack.step = Option.none)) ∧
    ((w8.pwr.pd1Up = true) ∧ ((w8.smbc (0 : Fin 2)).st = SmbState.clear) ∧ ((w8.smbc (0 : Fin 2)).checkAt + 5000 ≤ w8.time) ∧ ((w8.smbc (0 : Fin 2)).checkAt + 19000 ≤ w8.time)) ∧
    ((w10.pwr.pd1Up = true) ∧ ((w10.smbc (1 : Fin 2)).st = SmbState.clear) ∧ ((w10.smbc (1 : Fin 2)).checkAt + 5000 ≤ w10.time) ∧ ((w10.smbc (1 : Fin 2)).fenced = true) ∧ ((1 : Fin 2) = (1 : Fin 2))) ∧
    ((w11.pwr.pd1Up = true) ∧ (bit w11.pack.cfg 0 = true) ∧ (w11.flt.supReset = false) ∧ ((w11.smbc (0 : Fin 2)).xfer = Option.none) ∧ ((w11.smbc (0 : Fin 2)).st = SmbState.idle) ∧ ((w11.smbc (0 : Fin 2)).fenced = false)) ∧
    ((w11.pwr.pd1Up = true) ∧ (bit w11.pack.cfg 0 = true) ∧ (w11.pack.step = Option.none) ∧ (w11.flt.supReset = false) ∧ (w11.pack.pollAt + 200000000 * fld w11.pack.cfg 23 16 ≤ w11.time) ∧ ((w11.smbc (0 : Fin 2)).st = SmbState.idle) ∧ ((w11.smbc (0 : Fin 2)).fenced = false) ∧ (w11.pack.st = PackState.ready)) ∧
    ((w12.pwr.pd1Up = true) ∧ (bit w12.pack.cfg 0 = true) ∧ (w12.pack.step = Option.none) ∧ (w12.flt.supReset = false) ∧ (w12.pack.pollAt + 200000000 * fld w12.pack.cfg 23 16 ≤ w12.time) ∧ ((w12.smbc (0 : Fin 2)).st = SmbState.idle) ∧ ((w12.smbc (0 : Fin 2)).fenced = false) ∧ (w12.pack.st = PackState.noPack)) ∧
    ((w13.pwr.pd1Up = true) ∧ (w13.pack.step = Option.some x8_13) ∧ (w13.flt.supReset = false) ∧ ((w13.smbc (0 : Fin 2)).st = SmbState.idle) ∧ ((w13.smbc (0 : Fin 2)).fenced = false) ∧ (Instr.packRetry = Instr.packRetry ∧ w13.pack.wait = PackWait.retry ∧ w13.pack.waitAt + 4000000 ≤ w13.time ∨ Instr.packRetry = Instr.packAuthWait ∧ w13.pack.wait = PackWait.auth ∧ w13.pack.waitAt + 200000 * fld w13.pack.cfg 31 24 ≤ w13.time)) := by
  (repeat' apply And.intro) <;> first | decide +kernel | (unfold MemCanonical; decide +kernel)
theorem witness_5 :
    (w15.pwr.pd1Up = true) ∧ (bit w15.pack.cfg 0 = true) ∧ (w15.flt.supReset = true ∨ ∃ z, (w15.smbc (0 : Fin 2)).xfer = Option.some z ∧ z.pack = true) := by
  (repeat' apply And.intro) <;> first | exact ⟨_, rfl, by decide +kernel⟩ | decide +kernel | (unfold MemCanonical; decide +kernel)
theorem witness_6 :
    ((w15.pwr.pd1Up = true) ∧ ((0 : Fin 2) = (0 : Fin 2)) ∧ ((w15.smbc (0 : Fin 2)).xfer = Option.some x7_15) ∧ (x7_15.pack = true) ∧ (w15.pack.step = Option.some (PackStep.swap 0)) ∧ (w15.pack.again = false) ∧ (w15.flt.supReset = false) ∧ ((w15.smbc (0 : Fin 2)).fenced = false)) ∧
    ((w15.pwr.pd1Up = true) ∧ ((0 : Fin 2) = (0 : Fin 2)) ∧ ((w15.smbc (0 : Fin 2)).xfer = Option.some x7_15) ∧ (x7_15.pack = true) ∧ (w15.pack.step = Option.some (PackStep.swap 0)) ∧ (w15.pack.again = false) ∧ (w15.flt.supReset = false) ∧ (w15.pack.attempts < 2)) ∧
    ((w16.pwr.pd1Up = true) ∧ ((0 : Fin 2) = (0 : Fin 2)) ∧ ((w16.smbc (0 : Fin 2)).xfer = Option.some x7_16) ∧ (x7_16.pack = true) ∧ (w16.pack.step = Option.some (PackStep.swap 0)) ∧ (w16.pack.again = false) ∧ (w16.flt.supReset = false) ∧ (2 ≤ w16.pack.attempts)) ∧
    ((w18.pwr.pllLock = true) ∧ ((w18.mspm (1 : Fin 2)).en = true) ∧ ((w18.mspm (1 : Fin 2)).rxBad = false) ∧ ((85 : Byte) ≠ (126 : Byte)) ∧ ((w18.mspm (1 : Fin 2)).rx.length < 256) ∧ ((w18.mspm (1 : Fin 2)).rxHeld < 134)) ∧
    ((w18.pwr.pllLock = true) ∧ ((w18.mspm (1 : Fin 2)).en = true) ∧ ((w18.mspm (1 : Fin 2)).rxBad = false) ∧ (0 < (w18.mspm (1 : Fin 2)).rxHeld) ∧ (∀ (j : Fin 4), (w18.link j).mdcsel.toNat ≠ (1 : Fin 2).val + 1)) ∧
    ((w18.pwr.pllLock = true) ∧ ((w18.mspm (1 : Fin 2)).en = true) ∧ ((w18.mspm (1 : Fin 2)).flow = true)) ∧
    ((w18.pwr.pllLock = true) ∧ ((w18.mspm (1 : Fin 2)).en = true) ∧ ((w18.mspm (1 : Fin 2)).txFree ≤ w18.time) ∧ ((w18.mspm (1 : Fin 2)).tx = (85 : Byte) :: x12_18) ∧ ((85 : Byte) ≠ (126 : Byte))) ∧
    ((w19.pwr.pllLock = true) ∧ ((w19.mspm (1 : Fin 2)).en = true) ∧ ((w19.mspm (1 : Fin 2)).rxBad = false) ∧ ((85 : Byte) ≠ (126 : Byte)) ∧ ((w19.mspm (1 : Fin 2)).rx.length < 256) ∧ (134 ≤ (w19.mspm (1 : Fin 2)).rxHeld)) := by
  (repeat' apply And.intro) <;> first | decide +kernel | (unfold MemCanonical; decide +kernel)
theorem witness_7 :
    ((w20.pwr.pllLock = true) ∧ ((w20.mspm (1 : Fin 2)).en = true) ∧ ((w20.mspm (1 : Fin 2)).rxBad = false) ∧ ((85 : Byte) ≠ (126 : Byte)) ∧ (256 ≤ (w20.mspm (1 : Fin 2)).rx.length)) ∧
    ((w21.pwr.pllLock = true) ∧ ((w21.mspm (1 : Fin 2)).en = true) ∧ ((w21.mspm (1 : Fin 2)).txFree ≤ w21.time) ∧ ((w21.mspm (1 : Fin 2)).tx = (126 : Byte) :: x12_21) ∧ ((126 : Byte) = (126 : Byte)) ∧ (0 < (w21.mspm (1 : Fin 2)).txHeld)) ∧
    ((w22.pwr.pllLock = true) ∧ ((w22.mspm (1 : Fin 2)).en = true) ∧ ((w22.mspm (1 : Fin 2)).rxBad = false) ∧ ((w22.mspm (1 : Fin 2)).rxHeld = 0)) ∧
    ((w24.pwr.pllLock = true) ∧ ((w24.mspm (1 : Fin 2)).en = true) ∧ ((w24.mspm (1 : Fin 2)).rxBad = false) ∧ (0 < (w24.mspm (1 : Fin 2)).rxHeld) ∧ ((w24.link (2 : Fin 4)).mdcsel.toNat = (1 : Fin 2).val + 1 ∧ ∀ j < (2 : Fin 4), (w24.link j).mdcsel.toNat ≠ (1 : Fin 2).val + 1) ∧ ((w24.link (2 : Fin 4)).fenced = true ∨ (w24.link (2 : Fin 4)).en = false)) ∧
    ((w25.pwr.pllLock = true) ∧ ((w25.mspm (1 : Fin 2)).en = true) ∧ ((w25.mspm (1 : Fin 2)).rxBad = false) ∧ (0 < (w25.mspm (1 : Fin 2)).rxHeld) ∧ ((w25.link (2 : Fin 4)).mdcsel.toNat = (1 : Fin 2).val + 1 ∧ ∀ j < (2 : Fin 4), (w25.link j).mdcsel.toNat ≠ (1 : Fin 2).val + 1) ∧ ((w25.link (2 : Fin 4)).fenced = false) ∧ ((w25.link (2 : Fin 4)).en = true) ∧ ((w25.mspm (1 : Fin 2)).rx.length < 256)) ∧
    ((w32.pwr.pllLock = true) ∧ ((w32.mspm (1 : Fin 2)).en = true) ∧ (w32.time < (w32.mspm (1 : Fin 2)).txFree ∨ (w32.mspm (1 : Fin 2)).tx = [])) ∧
    ((w35.pwr.pllLock = true) ∧ ((w35.mspm (1 : Fin 2)).en = true) ∧ ((w35.mspm (1 : Fin 2)).rxBad = true) ∧ ((85 : Byte) ≠ (126 : Byte))) ∧
    ((w36.pwr.pllLock = true) ∧ ((w36.mspm (1 : Fin 2)).en = true) ∧ ((w36.mspm (1 : Fin 2)).txFree ≤ w36.time) ∧ ((w36.mspm (1 : Fin 2)).tx = (126 : Byte) :: x12_36) ∧ ((126 : Byte) = (126 : Byte)) ∧ ((w36.mspm (1 : Fin 2)).txHeld = 0)) := by
  (repeat' apply And.intro) <;> first | decide +kernel | (unfold MemCanonical; decide +kernel)
theorem witness_8 :
    (w38.pwr.pllLock = true) ∧ ((w38.mspm (1 : Fin 2)).en = true) ∧ ((w38.mspm (1 : Fin 2)).rxBad = false) ∧ (0 < (w38.mspm (1 : Fin 2)).rxHeld) ∧ ((w38.link (2 : Fin 4)).mdcsel.toNat = (1 : Fin 2).val + 1 ∧ ∀ j < (2 : Fin 4), (w38.link j).mdcsel.toNat ≠ (1 : Fin 2).val + 1) ∧ ((w38.link (2 : Fin 4)).fenced = false) ∧ ((w38.link (2 : Fin 4)).en = true) ∧ (256 ≤ (w38.mspm (1 : Fin 2)).rx.length) ∧ ((w38.mspm (1 : Fin 2)).rxHeld ≤ (w38.mspm (1 : Fin 2)).rx.length) := by
  (repeat' apply And.intro) <;> first | decide +kernel | (unfold MemCanonical; decide +kernel)
end SerialCommands
end W18

namespace W19
def cn (s : State) : State := { s with reports := [], upd := { s.upd with window := false }, boot := { s.boot with applied := true, st := .running }, pwr := { s.pwr with pdUp := true, pd1Up := true, st := .run }, sc := { s.sc with recs := [(0, {}), (7, { bind := 0x90000000, quota := 0x00C02008, st := .active })], bufs := [], reqs := [] , posted := [] }, tt := { s.tt with cal := [] }, mem := { s.mem with banks := .replicate 8 { st := .on } } }
def F (f : Flt → Flt) (s : State) : State := let u := cn s; { u with flt := f { u.flt with units := [], n := 3, win := 100, supReset := false, st := .run } }
def BK (b : Fin 8) (x : Bank) (s : State) : State := { s with mem := { s.mem with banks := vset s.mem.banks b (fun _ => x) } }
def RP (r : List Report) (s : State) : State := { s with reports := r }
def rp (m k i : Nat) : Report := { mech := BitVec.ofNat 8 m, kind := BitVec.ofNat 4 k, index := BitVec.ofNat 8 i, detail := 7 }
def u2 : FltUnit := { st := .inService, times := [0x1000, 0x900], last := 0x1000, targets := [] }

/-! ### FaultBlockCommands -/
namespace FaultBlockCommands
def w0 : State := (su 8)
def w1 : State := dn ((su 8))
def w2 : State := RP [rp 0x0C 8 3] (F id (su 3))
def x1_2 : Report := rp 0x0C 8 3
def w3 : State := RP [rp 0x0A 8 3] (F id (su 3))
def x1_3 : Report := rp 0x0A 8 3
def w5 : State := F (fun f => { f with set0 := 0x0C, set1 := 0x80, supReset := true, steps := [] }) (su 4)
def w6 : State := F (fun f => { f with set0 := 0x0C, set1 := 0x80, supReset := true, steps := [], st := .supHold }) (su 4)
def w13 : State := Y (fun c => { c with lifts := [(0x803, true)] }) (BK 3 { st := .fenced } (F (fun f => { f with units := [(0x803, { u2 with st := .lasting, targets := [0x803] })], steps := [] }) (su 4)))
def x8_13 : FltUnit := { u2 with st := .lasting, targets := [0x803] }
def w14 : State := Y (fun c => { c with lifts := [(0x803, true)], recorded := [0x803] }) (BK 3 { st := .fenced } (F (fun f => { f with units := [(0x803, { u2 with st := .lasting, targets := [0x803] })], steps := [] }) (su 4)))
def w19 : State := Y (fun c => { c with lifts := [(0x803, true)] }) (F (fun f => { f with units := [] }) (su 4))
def w21 : State := Y (fun c => { c with lifts := [(0x803, false)], recorded := [0x803] }) (BK 3 { st := .fenced } (F (fun f => { f with units := [(0x803, { u2 with st := .lasting, targets := [0x803] })], steps := [] }) (su 4)))
def w27 : State := Y (fun c => { c with fresh := [(0xC81C, 0x40)] }) (F id (su 4))
def w28 : State := RP [rp 0x0A 8 3] (F (fun f => { f with units := [(0x803, { u2 with times := [10 ^ 12 - 5, 10 ^ 12 - 9], last := 10 ^ 12 - 5 })] }) (su 3))
def x1_28 : Report := rp 0x0A 8 3
def x8_28 : FltUnit := { u2 with times := [10 ^ 12 - 5, 10 ^ 12 - 9], last := 10 ^ 12 - 5 }
theorem witness_1 :
    ((∀ x ∈ w0.reports, w0.time ≤ x.at_)) ∧
    ((w0.flt.supReset = false ∨ (w0.fltUnit (256 * 11)).st = UnitState.lasting ∨ w0.time < w0.flt.supAt + 200)) ∧
    ((w0.pwr.pd1Up = true) ∧ ((8 : Fin 16) = (1 : Fin 16) ∧ (3 : Fin 256).val < 64 ∨ ((8 : Fin 16) = (2 : Fin 16) ∨ (8 : Fin 16) = (5 : Fin 16) ∨ (8 : Fin 16) = (8 : Fin 16)) ∧ (3 : Fin 256).val < 8 ∨ (8 : Fin 16) = (3 : Fin 16) ∧ (3 : Fin 256).val < 3 ∨ (8 : Fin 16) = (4 : Fin 16) ∧ (3 : Fin 256) = (0 : Fin 256) ∨ ((8 : Fin 16) = (6 : Fin 16) ∨ (8 : Fin 16) = (10 : Fin 16)) ∧ (3 : Fin 256).val < 2 ∨ (8 : Fin 16) = (7 : Fin 16) ∧ (3 : Fin 256).val < 4 ∨ (8 : Fin 16) = (9 : Fin 16) ∧ (3 : Fin 256) ≠ (0 : Fin 256) ∧ (3 : Fin 256) ≠ (255 : Fin 256))) ∧
    ((w0.pwr.pd1Up = true) ∧ (bit (w0.freshBits 51228) 6 = false)) ∧
    ((w0.flt.rcen = false ∨ w0.supStarted = false ∨ w0.time < w0.flt.slotAt + 62500)) ∧
    ((¬w1.pwr.pd1Up = true)) ∧
    ((w2.pwr.pd1Up = true) ∧ (w2.reports = [x1_2] ∧ x1_2.at_ < w2.time) ∧ (x1_2.mech ∈ [(12 : BitVec 8), (18 : BitVec 8), (19 : BitVec 8), (22 : BitVec 8)])) ∧
    ((w2.upd.window = false) ∧ (w2.supStarted = true) ∧ (2 ≤ w2.flt.n.toNat) ∧ (w2.flt.units = []) ∧ (w2.me.st ≠ MeState.fenced)) := by
  (repeat' apply And.intro) <;> first | decide +kernel | (unfold MemCanonical; decide +kernel)
theorem witness_2 :
    ((w2.flt.rcen = true) ∧ (w2.supStarted = true) ∧ (w2.pwr.pdUp = true) ∧ (w2.flt.supReset = false) ∧ (w2.flt.slot.toNat < 22) ∧ (w2.flt.slotAt + 62500 ≤ w2.time)) ∧
    ((w3.upd.window = false) ∧ (w3.supStarted = true) ∧ (2 ≤ w3.flt.n.toNat) ∧ (w3.flt.units = []) ∧ (w3.reports = [x1_3] ∧ x1_3.at_ < w3.time) ∧ (x1_3.mech = (10 : BitVec 8)) ∧ (x1_3.kind = (8 : BitVec 4)) ∧ (x1_3.index.toNat = (3 : Fin 8).val)) ∧
    ((w5.pwr.pd1Up = true) ∧ (w5.flt.supReset = true) ∧ ((w5.fltUnit (256 * 11)).st ≠ UnitState.lasting) ∧ (w5.flt.supAt + 200 ≤ w5.time) ∧ (w5.flt.steps = []) ∧ (w5.pack.again = false) ∧ (w5.pack.held = Option.none) ∧ (w5.pack.step = Option.none) ∧ (w5.upd.waits = []) ∧ (w5.upd.camp = Option.none) ∧ (w5.upd.lasting = false)) ∧
    ((w6.pwr.pd1Up = true) ∧ (¬((11 : Fin 16) = (1 : Fin 16) ∧ (3 : Fin 256).val < 64 ∨ ((11 : Fin 16) = (2 : Fin 16) ∨ (11 : Fin 16) = (5 : Fin 16) ∨ (11 : Fin 16) = (8 : Fin 16)) ∧ (3 : Fin 256).val < 8 ∨ (11 : Fin 16) = (3 : Fin 16) ∧ (3 : Fin 256).val < 3 ∨ (11 : Fin 16) = (4 : Fin 16) ∧ (3 : Fin 256) = (0 : Fin 256) ∨ ((11 : Fin 16) = (6 : Fin 16) ∨ (11 : Fin 16) = (10 : Fin 16)) ∧ (3 : Fin 256).val < 2 ∨ (11 : Fin 16) = (7 : Fin 16) ∧ (3 : Fin 256).val < 4 ∨ (11 : Fin 16) = (9 : Fin 16) ∧ (3 : Fin 256) ≠ (0 : Fin 256) ∧ (3 : Fin 256) ≠ (255 : Fin 256)))) ∧
    ((w13.cyc.lifts = [(256 * 8 + (3 : Fin 8).val, true)]) ∧ (¬(256 * 8 + (3 : Fin 8).val ∈ w13.cyc.recorded ∨ ∃ q ∈ w13.reports, 256 * q.kind.toNat + q.index.toNat = 256 * 8 + (3 : Fin 8).val ∧ q.at_ < w13.time)) ∧ (w13.flt.units = [(256 * 8 + (3 : Fin 8).val, x8_13)]) ∧ (x8_13.st = UnitState.lasting ∨ x8_13.st = UnitState.transient) ∧ (x8_13.targets = [256 * 8 + (3 : Fin 8).val]) ∧ (w13.flt.supReset = false) ∧ (w13.flt.steps = []) ∧ ((w13.bank (3 : Fin 8)).st = BankState.fenced) ∧ (Part.boot ∉ [Part.sc, Part.mem, Part.flt])) ∧
    ((w13.cyc.lifts = [(256 * 8 + (3 : Fin 8).val, true)]) ∧ (¬(256 * 8 + (3 : Fin 8).val ∈ w13.cyc.recorded ∨ ∃ q ∈ w13.reports, 256 * q.kind.toNat + q.index.toNat = 256 * 8 + (3 : Fin 8).val ∧ q.at_ < w13.time)) ∧ (w13.flt.units = [(256 * 8 + (3 : Fin 8).val, x8_13)]) ∧ (x8_13.st = UnitState.lasting ∨ x8_13.st = UnitState.transient) ∧ (x8_13.targets = [256 * 8 + (3 : Fin 8).val]) ∧ (w13.flt.supReset = false) ∧ (w13.flt.steps = []) ∧ ((w13.bank (3 : Fin 8)).st = BankState.fenced) ∧ (Fin.ofNat 8 0 ≠ (3 : Fin 8))) ∧
    ((w14.cyc.lifts = [(256 * 8 + (3 : Fin 8).val, true)]) ∧ (256 * 8 + (3 : Fin 8).val ∈ w14.cyc.recorded ∨ ∃ q ∈ w14.reports, 256 * q.kind.toNat + q.index.toNat = 256 * 8 + (3 : Fin 8).val ∧ q.at_ < w14.time) ∧ (true = true) ∧ (Part.boot ∉ [Part.flt])) ∧
    ((w19.cyc.lifts = [(256 * 8 + (3 : Fin 8).val, true)]) ∧ (¬(256 * 8 + (3 : Fin 8).val ∈ w19.cyc.recorded ∨ ∃ q ∈ w19.reports, 256 * q.kind.toNat + q.index.toNat = 256 * 8 + (3 : Fin 8).val ∧ q.at_ < w19.time)) ∧ (∀ x ∈ w19.flt.units, x.2.st ≠ UnitState.transient ∧ x.2.st ≠ UnitState.lasting) ∧ (Part.boot ∉ [])) := by
  (repeat' apply And.intro) <;> first | decide +kernel | (unfold MemCanonical; decide +kernel)
theorem witness_3 :
    (w28.upd.window = false) ∧ (w28.supStarted = true) ∧ (2 ≤ w28.flt.n.toNat) ∧ (w28.flt.units = [(256 * 8 + (3 : Fin 8).val, x8_28)]) ∧ (w28.reports = [x1_28] ∧ x1_28.at_ < w28.time) ∧ (x1_28.mech = (10 : BitVec 8)) ∧ (x1_28.kind = (8 : BitVec 4)) ∧ (x1_28.index.toNat = (3 : Fin 8).val) ∧ (x8_28.st = UnitState.inService) ∧ (x8_28.targets = []) ∧ (∃ x, x8_28.times[w28.flt.n.toNat - 2]? = Option.some x ∧ w28.time - x ≤ w28.flt.win.toNat * 200000) := by
  (repeat' apply And.intro) <;> first | exact ⟨_, rfl, by decide +kernel⟩ | decide +kernel | (unfold MemCanonical; decide +kernel)
theorem witness_4 :
    ((w21.cyc.lifts = [(256 * 8 + (3 : Fin 8).val, false)]) ∧ (256 * 8 + (3 : Fin 8).val ∈ w21.cyc.recorded ∨ ∃ q ∈ w21.reports, 256 * q.kind.toNat + q.index.toNat = 256 * 8 + (3 : Fin 8).val ∧ q.at_ < w21.time) ∧ (false = false) ∧ (Part.boot ∉ [])) ∧
    ((bit (w27.freshBits 51228) 6 = true)) := by
  (repeat' apply And.intro) <;> first | decide +kernel | (unfold MemCanonical; decide +kernel)
end FaultBlockCommands
end W19

namespace W20a
def up (b : BootState) (v : Svc) : State :=
  { (su 0) with boot := { State.reset.boot with st := b }, svc := v }
def rd (a n : Nat) : List Byte := leBytes 4 a ++ [1, 0] ++ leBytes 2 n
def rec255 (s : State) (r : ClientRec) : State := { s with sc := { s.sc with recs := [(255, r)] } }
def r1 : ClientRec := { bind := 0xC0000000, rights := 0xFFFFFFFF, st := .active }
def fwO : State := rec255 (up .running { open_ := true }) r1
def keyB : List Byte := leBytes 32 0x1a5107f7681a02af2523a6daf372e10e3a0764c9d3fe4bd5b70ab18201985ad7
def sig1 : List Byte := leBytes 32 0xf5f90e88151c422f35090407593d7a25d4d753492a6998f979e15558a9e4be01 ++ leBytes 32 0xe12673bbfa4a40547bf635fb7936bf222f344eb87d1ad9d330213ba8c2b38dc
def sig2 : List Byte := leBytes 32 0x57b34a779209d53d325b860d24a7e733761f37cf608b14ad63512d69123fd301 ++ leBytes 32 0x4fe11a385abcd9a22a610d074dbdd115b0c93d1c403863c411fea177fffca78
def pass2 (fl : Byte) : List Byte := padTo 0 0x70 (padTo 0 0x50 ([0x4A,0x58,0x48,0x50,1,0,0x40,6] ++ leBytes 8 5 ++ [fl,0] ++ leBytes 2 10 ++ leBytes 8 0 ++ leBytes 4 5 ++ leBytes 8 0x0F ++ leBytes 4 0x8020 ++ leBytes 4 0) ++ keyB) ++ if fl = 1 then sig1 else sig2
def otp1 : Otp := { State.reset.otp with unitId := 5, fleetHash := sha256 keyB }
def pst (s : State) : State := { s with otp := otp1, canopy := { s.canopy with rtcValid := true } }
def pass (s : State) (resv : Byte) : List Byte := padTo 0 176 ([0x4A,0x58,0x48,0x50,1,0,0x40,6] ++ leBytes 8 5 ++ [1,resv] ++ leBytes 2 10)

/-! ### ServicePortCommands -/
namespace ServicePortCommands
def w0 : State := up .loading {}
def w1 : State := dn (up .loading {})
def w2 : State := up .running {}
def x2_2 : List Byte := []
def w4 : State := up .running {open_ := true, endAt := 77, lastAt := 90}
def x2_4 : List Byte := []
def w5 : State := up .running {open_ := true, endAt := 77, lastAt := 90}
def x2_5 : List Byte := pass State.reset 0
def w6 : State := up .running { chal := some [] }
def x2_6 : List Byte := pass State.reset 0
def w9 : State := pst (up .running { chal := some (List.replicate 16 0) })
def x2_9 : List Byte := pass2 1
def w11 : State := { (pst (up .running { chal := some (List.replicate 16 0) })) with sc := { State.reset.sc with recs := [(7, { r1 with grant := 1 })] } }
def x2_11 : List Byte := pass2 2
def w12 : State := { (up .noBundle {open_ := true}) with tbs := { tb := 12000000005 } }
def x2_12 : List Byte := [0x3C, 0x5A]
def w13 : State := rec255 (up .running {open_ := true}) { r1 with st := .fenced }
def x2_13 : List Byte := rd 0 1
def w15 : State := rec255 (up .running {open_ := true}) { r1 with rate := 0x0101 }
def x2_15 : List Byte := rd 0 1
def w17 : State := fwO
def x2_17 : List Byte := rd 4 1
def w18 : State := fwO
def x2_18 : List Byte := rd 0x3F0 1
def w19 : State := fwO
def x2_19 : List Byte := rd 0xC400 1 ++ [1,2,3,4]
def w20 : State := fwO
def x2_20 : List Byte := rd 0x3F0 1 ++ [1,2,3,4]
def w24 : State := up .noBundle {open_ := true}
def x2_24 : List Byte := rd 0x400 1
def w25 : State := up .noBundle {open_ := true}
def x2_25 : List Byte := rd 0xC408 1 ++ [1,2,3,4]
def w29 : State := { fwO with svc := { open_ := true, resetPend := true } }
theorem witness_1 :
    ((TablesCanonical w0) ∧ (¬w0.svcServes = true)) ∧
    ((TablesCanonical w0) ∧ (w0.svc.open_ = false ∨ w0.time < w0.svc.endAt)) ∧
    ((TablesCanonical w0) ∧ (w0.svc.open_ = false ∨ w0.time < w0.svc.lastAt + 60 * 200000000)) ∧
    ((TablesCanonical w0) ∧ (w0.svc.resetPend = false ∨ w0.time < w0.svc.resetAt + 222000)) ∧
    ((TablesCanonical w0) ∧ (w0.pwr.pd1Up = true)) ∧
    ((TablesCanonical w1) ∧ (¬w1.pwr.pd1Up = true)) ∧
    ((TablesCanonical w2) ∧ (w2.svcServes = true) ∧ (w2.svc.open_ = false) ∧ (x2_2.length ≠ 176)) ∧
    ((TablesCanonical w2) ∧ (w2.svcServes = true) ∧ (¬(1 ≤ BitVec.toNat (9 : Byte) ∧ BitVec.toNat (9 : Byte) ≤ 6))) := by
  (repeat' apply And.intro) <;> first | decide +kernel | (unfold MemCanonical; decide +kernel)
theorem witness_2 :
    ((TablesCanonical w4) ∧ (w4.svcServes = true) ∧ (w4.svc.open_ = true) ∧ (x2_4.length ≠ (Instr.svcRead (1 : Byte) x2_4, 3, 8).2.2 ∨ field x2_4 6 2 < 1 ∨ 1024 < field x2_4 6 2)) ∧
    ((TablesCanonical w4) ∧ (w4.svcServes = true) ∧ (w4.svc.open_ = true) ∧ (x2_4 = [])) ∧
    ((TablesCanonical w4) ∧ (w4.pwr.pd1Up = true) ∧ (w4.svc.open_ = true) ∧ (w4.svc.endAt ≤ w4.time)) ∧
    ((TablesCanonical w4) ∧ (w4.pwr.pd1Up = true) ∧ (w4.svc.open_ = true) ∧ (w4.svc.lastAt + 60 * 200000000 ≤ w4.time)) ∧
    ((TablesCanonical w4) ∧ (w4.svcServes = true) ∧ (w4.svc.open_ = true) ∧ (x2_4 ≠ [(60 : Byte), (90 : Byte)])) ∧
    ((TablesCanonical w5) ∧ (w5.svcServes = true) ∧ (w5.svc.open_ = true) ∧ (x2_5 ≠ [])) ∧
    ((TablesCanonical w6) ∧ (w6.svcServes = true) ∧ (w6.svc.open_ = false) ∧ (x2_6.length = 176) ∧ (w6.passReason x2_6 w6.svc.chal ≠ 0) ∧ (w6.passReason x2_6 w6.svc.chal ≠ 9)) ∧
    ((TablesCanonical w9) ∧ (w9.svcServes = true) ∧ (w9.svc.open_ = false) ∧ (x2_9.length = 176) ∧ (w9.passReason x2_9 w9.svc.chal = 0)) := by
  (repeat' apply And.intro) <;> first | decide +kernel | (unfold MemCanonical; decide +kernel)
theorem witness_3 :
    ((TablesCanonical w11) ∧ (w11.svcServes = true) ∧ (w11.svc.open_ = false) ∧ (x2_11.length = 176) ∧ (w11.passReason x2_11 w11.svc.chal = 9)) ∧
    ((TablesCanonical w12) ∧ (w12.svcServes = true) ∧ (w12.svc.open_ = true) ∧ (x2_12 = [(60 : Byte), (90 : Byte)])) ∧
    ((TablesCanonical w13) ∧ (w13.svcServes = true) ∧ (w13.svc.open_ = true) ∧ (x2_13.length = (Instr.svcRead (1 : Byte) x2_13, 3, 8).2.2) ∧ (1 ≤ field x2_13 6 2) ∧ (field x2_13 6 2 ≤ 1024) ∧ (field x2_13 0 4 < 2 ^ 20) ∧ (field x2_13 0 4 % 4 = 0) ∧ (w13.inRom = false) ∧ ((w13.client (255 : Fin 256)).st = ClientState.fenced)) ∧
    ((TablesCanonical w15) ∧ (w15.svcServes = true) ∧ (w15.svc.open_ = true) ∧ (x2_15.length = (Instr.svcRead (1 : Byte) x2_15, 3, 8).2.2) ∧ (1 ≤ field x2_15 6 2) ∧ (field x2_15 6 2 ≤ 1024) ∧ (field x2_15 0 4 < 2 ^ 20) ∧ (field x2_15 0 4 % 4 = 0) ∧ (w15.inRom = false) ∧ ((w15.client (255 : Fin 256)).st ≠ ClientState.fenced) ∧ (fld (w15.client (255 : Fin 256)).rate 7 0 ≠ 0) ∧ ((w15.client (255 : Fin 256)).tokens = 0)) ∧
    ((TablesCanonical w17) ∧ (w17.svcServes = true) ∧ (w17.svc.open_ = true) ∧ (field x2_17 6 2 = 1) ∧ (field x2_17 0 4 < 2 ^ 20) ∧ (field x2_17 0 4 % 4 = 0) ∧ (w17.inRom = false) ∧ ((w17.client (255 : Fin 256)).st ≠ ClientState.fenced) ∧ (fld (w17.client (255 : Fin 256)).rate 7 0 = 0) ∧ (x2_17.length = 8) ∧ (isMemAddr (w17.nativeAddr (field x2_17 0 4)) = false) ∧ (¬(524288 ≤ w17.nativeAddr (field x2_17 0 4) ∧ w17.nativeAddr (field x2_17 0 4) < 557056)) ∧ (w17.permits (255 : Fin 256) (w17.nativeAddr (field x2_17 0 4)) false (0 : Word) = true) ∧ (w17.regRead (w17.nativeAddr (field x2_17 0 4)) = Option.some ((Option.map (fun x => x.1) (fwO.regRead 4)).getD (0 : Word), w17)) ∧ (w17.isReg (w17.nativeAddr (field x2_17 0 4)) = true)) ∧
    ((TablesCanonical w18) ∧ (w18.svcServes = true) ∧ (w18.svc.open_ = true) ∧ (field x2_18 6 2 = 1) ∧ (field x2_18 0 4 < 2 ^ 20) ∧ (field x2_18 0 4 % 4 = 0) ∧ (w18.inRom = false) ∧ ((w18.client (255 : Fin 256)).st ≠ ClientState.fenced) ∧ (fld (w18.client (255 : Fin 256)).rate 7 0 = 0) ∧ (x2_18.length = 8) ∧ (isMemAddr (w18.nativeAddr (field x2_18 0 4)) = false) ∧ (¬(524288 ≤ w18.nativeAddr (field x2_18 0 4) ∧ w18.nativeAddr (field x2_18 0 4) < 557056)) ∧ (w18.permits (255 : Fin 256) (w18.nativeAddr (field x2_18 0 4)) false (0 : Word) = false ∨ w18.isReg (w18.nativeAddr (field x2_18 0 4)) = false) ∧ ((w18.client (255 : Fin 256)).faultTimes.length < 7)) ∧
    ((TablesCanonical w19) ∧ (w19.svcServes = true) ∧ (w19.svc.open_ = true) ∧ (field x2_19 6 2 = 1) ∧ (field x2_19 0 4 < 2 ^ 20) ∧ (field x2_19 0 4 % 4 = 0) ∧ (w19.inRom = false) ∧ ((w19.client (255 : Fin 256)).st ≠ ClientState.fenced) ∧ (fld (w19.client (255 : Fin 256)).rate 7 0 = 0) ∧ (x2_19.length = 12) ∧ (w19.isReg (w19.nativeAddr (field x2_19 0 4)) = true) ∧ (w19.permits (255 : Fin 256) (w19.nativeAddr (field x2_19 0 4)) true (bytesWord (List.drop 8 x2_19)) = true)) ∧
    ((TablesCanonical w20) ∧ (w20.svcServes = true) ∧ (w20.svc.open_ = true) ∧ (field x2_20 6 2 = 1) ∧ (field x2_20 0 4 < 2 ^ 20) ∧ (field x2_20 0 4 % 4 = 0) ∧ (w20.inRom = false) ∧ ((w20.client (255 : Fin 256)).st ≠ ClientState.fenced) ∧ (fld (w20.client (255 : Fin 256)).rate 7 0 = 0) ∧ (x2_20.length = 12) ∧ (w20.permits (255 : Fin 256) (w20.nativeAddr (field x2_20 0 4)) true (bytesWord (List.drop 8 x2_20)) = false ∨ w20.isReg (w20.nativeAddr (field x2_20 0 4)) = false) ∧ ((w20.client (255 : Fin 256)).faultTimes.length < 7)) := by
  (repeat' apply And.intro) <;> first | decide +kernel | (unfold MemCanonical; decide +kernel)
theorem witness_4 :
    ((TablesCanonical w24) ∧ (w24.svcServes = true) ∧ (w24.svc.open_ = true) ∧ (field x2_24 6 2 = 1) ∧ (field x2_24 0 4 < 2 ^ 20) ∧ (field x2_24 0 4 % 4 = 0) ∧ (w24.inRom = true) ∧ (x2_24.length = 8) ∧ (1024 ≤ field x2_24 0 4) ∧ (¬(50176 ≤ field x2_24 0 4 ∧ field x2_24 0 4 < 51200))) ∧
    ((TablesCanonical w25) ∧ (w25.svcServes = true) ∧ (w25.svc.open_ = true) ∧ (field x2_25 6 2 = 1) ∧ (field x2_25 0 4 < 2 ^ 20) ∧ (field x2_25 0 4 % 4 = 0) ∧ (w25.inRom = true) ∧ (x2_25.length = 12) ∧ (field x2_25 0 4 = 50184) ∧ (w25.pwr.compat = false)) ∧
    ((TablesCanonical w29) ∧ (w29.pwr.pd1Up = true) ∧ (w29.svc.resetPend = true) ∧ (w29.svc.resetAt + 222000 ≤ w29.time) ∧ ((0 : Fin 9) ≠ (1 : Fin 9))) := by
  (repeat' apply And.intro) <;> first | decide +kernel | (unfold MemCanonical; decide +kernel)
end ServicePortCommands
end W20a

namespace W20b
/-- One byte of a CRC-32C. -/
def crcStep (r : Word) (b : Byte) : Word := iter8 (crcRight 0x82F63B78) (r ^^^ b.setWidth 32)
/-- 256 blank bytes of it. -/
def crcPart (r : Word) : Word := (List.replicate 256 (0 : Byte)).foldl crcStep r
def crcParts : Nat → Word → Word
  | 0, r => r
  | n + 1, r => crcParts n (crcPart r)
theorem crc_parts (n : Nat) (r : Word) : (List.replicate (256 * n) (0 : Byte)).foldl crcStep r = crcParts n r := by
  induction n generalizing r with
  | zero => rfl
  | succ n ih =>
    rw [Nat.mul_succ, Nat.add_comm, ← List.replicate_append_replicate, List.foldl_append, ih, crcParts, crcPart]
set_option maxRecDepth 20000 in
theorem crc_part0 : crcPart 0xFFFFFFFF = 0x478D4E6F := by decide +kernel
set_option maxRecDepth 20000 in
theorem crc_part1 : crcPart 0x478D4E6F = 0xCF03123F := by decide +kernel
set_option maxRecDepth 20000 in
theorem crc_part2 : crcPart 0xCF03123F = 0xC5C4C2F9 := by decide +kernel
set_option maxRecDepth 20000 in
theorem crc_part3 : crcPart 0xC5C4C2F9 = 0x11512183 := by decide +kernel
set_option maxRecDepth 20000 in
theorem crc_part4 : crcPart 0x11512183 = 0x72802FED := by decide +kernel
set_option maxRecDepth 20000 in
theorem crc_part5 : crcPart 0x72802FED = 0x0A6FD2D2 := by decide +kernel
set_option maxRecDepth 20000 in
theorem crc_part6 : crcPart 0x0A6FD2D2 = 0x5BCB999C := by decide +kernel
set_option maxRecDepth 20000 in
theorem crc_part7 : crcPart 0x5BCB999C = 0x5B767CB0 := by decide +kernel
set_option maxRecDepth 20000 in
theorem crc_part8 : crcPart 0x5B767CB0 = 0x13CA39CB := by decide +kernel
set_option maxRecDepth 20000 in
theorem crc_part9 : crcPart 0x13CA39CB = 0x4DF00A81 := by decide +kernel
set_option maxRecDepth 20000 in
theorem crc_part10 : crcPart 0x4DF00A81 = 0x24571252 := by decide +kernel
set_option maxRecDepth 20000 in
theorem crc_part11 : crcPart 0x24571252 = 0xDF52BE5C := by decide +kernel
set_option maxRecDepth 20000 in
theorem crc_part12 : crcPart 0xDF52BE5C = 0x0A82160E := by decide +kernel
set_option maxRecDepth 20000 in
theorem crc_part13 : crcPart 0x0A82160E = 0xF76F41EA := by decide +kernel
set_option maxRecDepth 20000 in
theorem crc_part14 : crcPart 0xF76F41EA = 0x142AC051 := by decide +kernel
set_option maxRecDepth 20000 in
theorem crc_part15 : crcPart 0x142AC051 = 0x6706BE76 := by decide +kernel
theorem crc_blank : crc32c (List.replicate 4096 0) = 0x98F94189 := by
  have h : crcParts 16 0xFFFFFFFF = 0x6706BE76 := by
    simp only [crcParts, crc_part0, crc_part1, crc_part2, crc_part3, crc_part4, crc_part5, crc_part6, crc_part7, crc_part8, crc_part9, crc_part10, crc_part11, crc_part12, crc_part13, crc_part14, crc_part15]
  have g := congrArg (fun r : Word => ~~~r) (crc_parts 16 0xFFFFFFFF)
  rw [h] at g; exact g
theorem pad_self (l : List Byte) : padTo 0 l.length l = l := by
  induction l with
  | nil => rfl
  | cons x l ih => simp only [List.length_cons, padTo, ih]
theorem blank_words (n : Nat) : (List.replicate n (0 : Word)).flatMap wordBytes = List.replicate (n * 4) 0 := by
  induction n with
  | zero => rfl
  | succ n ih => rw [List.replicate_succ, List.flatMap_cons, ih, Nat.succ_mul, Nat.add_comm, ← List.replicate_append_replicate]; rfl
theorem blank_block : padTo (0 : Byte) 4096 (List.flatMap wordBytes (List.replicate 1024 (0 : Word))) = List.replicate 4096 0 := by
  rw [blank_words]
  have h := pad_self (List.replicate (1024 * 4) 0)
  rw [List.length_replicate] at h; exact h
def keyB : List Byte := leBytes 32 0x1a5107f7681a02af2523a6daf372e10e3a0764c9d3fe4bd5b70ab18201985ad7
def sigU : List Byte := leBytes 32 0xed53af24770ff09c329b898ade1570a2c32de4e996eebbdd70e43c1e3b763601 ++ leBytes 32 0x9d663553e8e92d515a8048047c73e47a57e7aeb52e721d13943e0cb98f7e22e
def headU : List Byte := padTo 0 0xC0 [] ++ keyB ++ sigU
def words (n : Nat) : List Word := List.replicate n 0
def rs1 (vs : List RsVersion) : RecStore := { State.reset.rs with ready := true, sectors := (List.range 8).map (fun k => (k, {  })), versions := vs }
def uSt (u : Upd) : State := { (su 0) with upd := u, rs := rs1 [] }
def v0 : RsVersion := { type := 3, index := 0, seq := 1, pages := 1, sector := 0, data := [] }
def prog (n : Nat) (st : Byte) (ct : Byte) : RsVersion := { v0 with data := List.replicate 32 0xAB ++ [BitVec.ofNat 8 n, 0, 7, 0, 1, st, 1, ct, 60, 0, 0, 9, 0, 0, 0, 0] }
def k0 : Campaign := { link := 1, phase := .start, offset := 0 }
def hdr (magic kind : Nat) (hw : Nat) (flags : List Byte := [0]) : List Word :=
  [BitVec.ofNat 32 magic, BitVec.ofNat 32 (1 + hw * 65536), 0, 0, BitVec.ofNat 32 (kind + 65536 * (if kind = 1 then 2 else 1)), if kind = 1 then 4097 else 4, 7, 0] ++ List.replicate 1016 0
def nodeHead : List Byte := padTo 0 4096 ((List.replicate 0x10 (0:Byte)) ++ [3, 0, 1, 0, 4, 0, 0, 0] ++ List.replicate 0x68 0 ++ [0x34, 0x12, 1, 0, 9, 0, 10, 0, 1])
def id0 : List Byte := [0x34, 0x12, 0, 0, 0, 0, 0, 0, 0, 0, 2, 0, 4, 0]
def run (s : State) : State := { s with boot := { s.boot with st := .running } }
def withV (s : State) (v : RsVersion) : State := { s with rs := { s.rs with versions := [v] } }

theorem sig_ok : State.sigOk (slice headU 192 32) (slice headU 224 64)
    (slice headU 0 0xE0 ++ slice headU 0x120 0xEE0 ++ []) = true := by decide +kernel
/-! ### UpdateAgentCommands -/
namespace UpdateAgentCommands
def w0 : State := uSt {}
def w1 : State := dn (uSt {})
def w2 : State := uSt { owner := some 3, buf := words 1024 }
def w4 : State := uSt { owner := some 0, buf := hdr 0x5055584A 1 0x0320, st := .verifying, head := padTo 0 0xC0 [] ++ keyB ++ List.replicate 64 0xFF }
def w6 : State := uSt { owner := some 0, buf := hdr 0x5055584A 1 0x0640, st := .resumable, hdig := 1 }
def w11 : State := uSt { buf := hdr 0x5055584A 2 0x0640, hdig := 1, st := .receiving, next := 2, nblk := 1 }
def w12 : State := uSt { buf := words 5, st := .receiving, next := 1, nblk := 1 }
def w13 : State := uSt { buf := words 1024, st := .receiving, next := 1, nblk := 1, head := nodeHead }
def w14 : State := uSt { buf := words 1024, st := .receiving, next := 1, nblk := 1, head := padTo 0 0x200 [] ++ wordBytes 0x98F94189 }
def w15 : State := uSt { kind := 1, target := true, block := List.replicate 4096 0x5A, st := .programming, next := 3, nblk := 4, tries := 0 }
def w16 : State := uSt { kind := 2, target := true, block := List.replicate 4096 0x5A, st := .programming, next := 3, nblk := 4, tries := 2 }
def w17 : State := uSt { kind := 1, target := false, block := List.replicate 4096 0x5A, st := .programming, next := 3, nblk := 4, abortPend := true }
def w19 : State := uSt { kind := 3, st := .verifying, head := nodeHead }
def w20 : State := run (uSt { kind := 3, st := .verifying, head := headU })
def w21 : State := run (uSt { kind := 1, st := .verifying, head := headU })
def w22 : State := run (uSt { kind := 1, st := .verified, target := true })
def w23 : State := { (uSt { kind := 1, st := .verified, target := true }) with boot := { State.reset.boot with st := .noBundle } }
def w24 : State := run (uSt { kind := 2, st := .verified, target := true })
def w25 : State := { (uSt { kind := 2, st := .verified, target := true }) with boot := { State.reset.boot with st := .noConfig, fmtMax := 0xFFFF } }
def w26 : State := run (uSt { kind := 3, st := .verified, target := true })
def w27 : State := { (run (uSt { kind := 3, st := .verified, head := nodeHead })) with hl := vset State.reset.hl 0 fun h => { h with en := true, idrx := id0, mdcsel := 0 } }
def w32 : State := uSt { st := .trial, window := true }
def w34 : State := run (withV (uSt { }) (prog 50 1 1))
def x5_34 : RsVersion := prog 50 1 1
def w35 : State := run (withV (uSt { }) (prog 50 2 1))
def x5_35 : RsVersion := prog 50 2 1
def w36 : State := { (withV (uSt { }) (prog 50 3 1)) with boot := { State.reset.boot with st := .running, trial := true } }
def x5_36 : RsVersion := prog 50 3 1
def w37 : State := { (withV (uSt { }) (prog 50 3 1)) with boot := { State.reset.boot with st := .running, trialFailed := true } }
def x5_37 : RsVersion := prog 50 3 1
def w38 : State := uSt { st := .nodes, camp := some k0 }
def x6_38 : Campaign := k0
def w40 : State := { uSt { owner := some 0 } with pwr := { (su 0).pwr with st := .clockFault } }
def w42 : State := { uSt { kind := 3, st := .nodes, camp := some { k0 with at_ := 10 ^ 12 } } with time := 10 ^ 12 }
def x6_42 : Campaign := { k0 with at_ := 10 ^ 12 }
theorem witness_1 :
    ((cellWf (255 : Byte) w0.xf.cells = true) ∧ (w0.pwr.pd1Up = true) ∧ (w0.upd.window = false)) ∧
    ((cellWf (255 : Byte) w0.xf.cells = true) ∧ (w0.pwr.pd1Up = true) ∧ (w0.upd.owner = Option.none ∨ w0.upd.owner = Option.some (0 : Fin 256)) ∧ (w0.upd.buf.length < 1024)) ∧
    ((cellWf (255 : Byte) w0.xf.cells = true) ∧ (w0.pwr.pd1Up = true) ∧ (¬(w0.rs.ready = true ∧ w0.boot.st ≠ BootState.loading ∧ w0.boot.st ≠ BootState.clockHold ∧ w0.upd.begun = false))) ∧
    ((cellWf (255 : Byte) w0.xf.cells = true) ∧ (w0.pwr.pd1Up = true) ∧ (¬(w0.pwr.st = PwrState.clockFault ∨ w0.flt.supReset = true)) ∧ (w0.upd.owner = Option.none ∨ w0.upd.owner = Option.some (0 : Fin 256)) ∧ (w0.beginCheck (padTo (0 : Byte) 4096 (List.flatMap wordBytes w0.upd.buf)) ≠ 0)) ∧
    ((cellWf (255 : Byte) w0.xf.cells = true) ∧ (w0.pwr.pd1Up = true) ∧ (¬(w0.pwr.st = PwrState.clockFault ∨ w0.flt.supReset = true)) ∧ (field (padTo (0 : Byte) 4096 (List.flatMap wordBytes w0.upd.buf)) 0 4 ≠ 1347770442 ∨ field (padTo (0 : Byte) 4096 (List.flatMap wordBytes w0.upd.buf)) 4 2 ≠ 1)) ∧
    ((cellWf (255 : Byte) w0.xf.cells = true) ∧ (w0.pwr.pd1Up = true) ∧ (¬(w0.pwr.st = PwrState.clockFault ∨ w0.flt.supReset = true)) ∧ (field (padTo (0 : Byte) 4096 (List.flatMap wordBytes w0.upd.buf)) 6 2 ≠ 1600)) ∧
    ((cellWf (255 : Byte) w0.xf.cells = true) ∧ (w0.pwr.pd1Up = true) ∧ (¬(w0.pwr.st = PwrState.clockFault ∨ w0.flt.supReset = true)) ∧ (¬(w0.upd.owner = Option.none ∨ w0.upd.owner = Option.some (0 : Fin 256)) ∨ w0.upd.st ≠ UpdState.receiving)) ∧
    ((cellWf (255 : Byte) w0.xf.cells = true) ∧ (w0.pwr.pd1Up = true) ∧ (¬(w0.pwr.st = PwrState.clockFault ∨ w0.flt.supReset = true)) ∧ (w0.upd.block = [])) := by
  (repeat' apply And.intro) <;> first | ((with_reducible show State.sigOk _ _ _ = true); exact sig_ok) | decide +kernel | (unfold MemCanonical; decide +kernel) | (show (crc32c (padTo 0 4096 (List.flatMap wordBytes (List.replicate 1024 (0 : Word))))).toNat = _; rw [blank_block, crc_blank]; decide +kernel) | (show (crc32c (padTo 0 4096 (List.flatMap wordBytes (List.replicate 1024 (0 : Word))))).toNat ≠ _; rw [blank_block, crc_blank]; decide +kernel)
theorem witness_2 :
    ((cellWf (255 : Byte) w0.xf.cells = true) ∧ (w0.pwr.pd1Up = true) ∧ (¬(w0.pwr.st = PwrState.clockFault ∨ w0.flt.supReset = true)) ∧ (w0.upd.st ≠ UpdState.verifying)) ∧
    ((cellWf (255 : Byte) w0.xf.cells = true) ∧ (w0.pwr.pd1Up = true) ∧ (¬(w0.pwr.st = PwrState.clockFault ∨ w0.flt.supReset = true)) ∧ (w0.upd.owner = Option.none ∨ w0.upd.owner = Option.some (0 : Fin 256)) ∧ (w0.upd.st ≠ UpdState.verified)) ∧
    ((cellWf (255 : Byte) w0.xf.cells = true) ∧ (w0.pwr.pd1Up = true) ∧ (¬(w0.pwr.st = PwrState.clockFault ∨ w0.flt.supReset = true)) ∧ (w0.upd.window = false ∨ w0.time < w0.upd.winEnd)) ∧
    ((cellWf (255 : Byte) w0.xf.cells = true) ∧ (w0.pwr.pd1Up = true) ∧ (¬(w0.pwr.st = PwrState.clockFault ∨ w0.flt.supReset = true)) ∧ (w0.upd.camp = Option.none)) ∧
    ((cellWf (255 : Byte) w1.xf.cells = true) ∧ (w1.pwr.pd1Up = false)) ∧
    ((cellWf (255 : Byte) w2.xf.cells = true) ∧ (w2.pwr.pd1Up = true) ∧ (¬(w2.upd.owner = Option.none ∨ w2.upd.owner = Option.some (0 : Fin 256)) ∨ 1024 ≤ w2.upd.buf.length)) ∧
    ((cellWf (255 : Byte) w2.xf.cells = true) ∧ (w2.pwr.pd1Up = true) ∧ (¬(w2.pwr.st = PwrState.clockFault ∨ w2.flt.supReset = true)) ∧ (¬(w2.upd.owner = Option.none ∨ w2.upd.owner = Option.some (0 : Fin 256)))) ∧
    ((cellWf (255 : Byte) w2.xf.cells = true) ∧ (w2.pwr.pd1Up = true) ∧ (¬(w2.pwr.st = PwrState.clockFault ∨ w2.flt.supReset = true)) ∧ (¬(w2.upd.owner = Option.none ∨ w2.upd.owner = Option.some (0 : Fin 256)) ∨ w2.upd.st = UpdState.trial)) := by
  (repeat' apply And.intro) <;> first | ((with_reducible show State.sigOk _ _ _ = true); exact sig_ok) | decide +kernel | (unfold MemCanonical; decide +kernel) | (show (crc32c (padTo 0 4096 (List.flatMap wordBytes (List.replicate 1024 (0 : Word))))).toNat = _; rw [blank_block, crc_blank]; decide +kernel) | (show (crc32c (padTo 0 4096 (List.flatMap wordBytes (List.replicate 1024 (0 : Word))))).toNat ≠ _; rw [blank_block, crc_blank]; decide +kernel)
theorem witness_3 :
    ((cellWf (255 : Byte) w4.xf.cells = true) ∧ (w4.pwr.pd1Up = true) ∧ (¬(w4.pwr.st = PwrState.clockFault ∨ w4.flt.supReset = true)) ∧ (w4.upd.st = UpdState.programming ∨ w4.upd.st = UpdState.verifying ∨ w4.upd.st = UpdState.trial ∨ w4.upd.st = UpdState.nodes ∨ w4.bootRec.trial ≠ Option.none)) ∧
    ((cellWf (255 : Byte) w4.xf.cells = true) ∧ (w4.pwr.pd1Up = true) ∧ (¬(w4.pwr.st = PwrState.clockFault ∨ w4.flt.supReset = true)) ∧ (w4.upd.st = UpdState.verifying) ∧ (¬State.sigOk (slice w4.upd.head 192 32) (slice w4.upd.head 224 64) w4.outerMsg = true)) ∧
    ((cellWf (255 : Byte) w6.xf.cells = true) ∧ (w6.pwr.pd1Up = true) ∧ (¬(w6.pwr.st = PwrState.clockFault ∨ w6.flt.supReset = true)) ∧ (w6.upd.owner = Option.none ∨ w6.upd.owner = Option.some (0 : Fin 256)) ∧ (w6.beginCheck (padTo (0 : Byte) 4096 (List.flatMap wordBytes w6.upd.buf)) = 0)) ∧
    ((cellWf (255 : Byte) w11.xf.cells = true) ∧ (w11.pwr.pd1Up = true) ∧ (¬(w11.pwr.st = PwrState.clockFault ∨ w11.flt.supReset = true)) ∧ (w11.upd.owner = Option.none ∨ w11.upd.owner = Option.some (0 : Fin 256)) ∧ (w11.upd.st = UpdState.receiving) ∧ ((2 : Fin 1024).val ≠ w11.upd.next ∨ w11.upd.nblk < (2 : Fin 1024).val)) ∧
    ((cellWf (255 : Byte) w11.xf.cells = true) ∧ (w11.pwr.pd1Up = true) ∧ (¬(w11.pwr.st = PwrState.clockFault ∨ w11.flt.supReset = true)) ∧ (w11.upd.owner = Option.none ∨ w11.upd.owner = Option.some (0 : Fin 256)) ∧ (w11.upd.st = UpdState.receiving) ∧ (w11.upd.next = w11.upd.nblk + 1)) ∧
    ((cellWf (255 : Byte) w12.xf.cells = true) ∧ (w12.pwr.pd1Up = true) ∧ (¬(w12.pwr.st = PwrState.clockFault ∨ w12.flt.supReset = true)) ∧ (w12.upd.owner = Option.none ∨ w12.upd.owner = Option.some (0 : Fin 256)) ∧ (w12.upd.st = UpdState.receiving) ∧ ((1 : Fin 1024).val = w12.upd.next) ∧ ((1 : Fin 1024).val ≤ w12.upd.nblk) ∧ (w12.upd.buf.length < 1024)) ∧
    ((cellWf (255 : Byte) w12.xf.cells = true) ∧ (w12.pwr.pd1Up = true) ∧ (¬(w12.pwr.st = PwrState.clockFault ∨ w12.flt.supReset = true)) ∧ (w12.upd.owner = Option.none ∨ w12.upd.owner = Option.some (0 : Fin 256)) ∧ (w12.upd.st = UpdState.receiving) ∧ (w12.upd.next ≠ w12.upd.nblk + 1)) ∧
    ((cellWf (255 : Byte) w13.xf.cells = true) ∧ (w13.pwr.pd1Up = true) ∧ (¬(w13.pwr.st = PwrState.clockFault ∨ w13.flt.supReset = true)) ∧ (w13.upd.owner = Option.none ∨ w13.upd.owner = Option.some (0 : Fin 256)) ∧ (w13.upd.st = UpdState.receiving) ∧ ((1 : Fin 1024).val = w13.upd.next) ∧ ((1 : Fin 1024).val ≤ w13.upd.nblk) ∧ (1024 ≤ w13.upd.buf.length) ∧ (BitVec.toNat (crc32c (padTo (0 : Byte) 4096 (List.flatMap wordBytes w13.upd.buf))) ≠ field w13.upd.head (512 + 4 * ((1 : Fin 1024).val - 1)) 4)) := by
  (repeat' apply And.intro) <;> first | ((with_reducible show State.sigOk _ _ _ = true); exact sig_ok) | decide +kernel | (unfold MemCanonical; decide +kernel) | (show (crc32c (padTo 0 4096 (List.flatMap wordBytes (List.replicate 1024 (0 : Word))))).toNat = _; rw [blank_block, crc_blank]; decide +kernel) | (show (crc32c (padTo 0 4096 (List.flatMap wordBytes (List.replicate 1024 (0 : Word))))).toNat ≠ _; rw [blank_block, crc_blank]; decide +kernel)
theorem witness_4 :
    ((cellWf (255 : Byte) w14.xf.cells = true) ∧ (w14.pwr.pd1Up = true) ∧ (¬(w14.pwr.st = PwrState.clockFault ∨ w14.flt.supReset = true)) ∧ (w14.upd.owner = Option.none ∨ w14.upd.owner = Option.some (0 : Fin 256)) ∧ (w14.upd.st = UpdState.receiving) ∧ ((1 : Fin 1024).val = w14.upd.next) ∧ ((1 : Fin 1024).val ≤ w14.upd.nblk) ∧ (1024 ≤ w14.upd.buf.length) ∧ (BitVec.toNat (crc32c (padTo (0 : Byte) 4096 (List.flatMap wordBytes w14.upd.buf))) = field w14.upd.head (512 + 4 * ((1 : Fin 1024).val - 1)) 4)) ∧
    ((cellWf (255 : Byte) w15.xf.cells = true) ∧ (w15.pwr.pd1Up = true) ∧ (¬(w15.pwr.st = PwrState.clockFault ∨ w15.flt.supReset = true)) ∧ (w15.upd.block.length = 4096) ∧ (w15.upd.abortPend = false) ∧ (w15.upd.tries < 2)) ∧
    ((cellWf (255 : Byte) w15.xf.cells = true) ∧ (w15.pwr.pd1Up = true) ∧ (¬(w15.pwr.st = PwrState.clockFault ∨ w15.flt.supReset = true)) ∧ (w15.upd.owner = Option.none ∨ w15.upd.owner = Option.some (0 : Fin 256)) ∧ (w15.upd.st ≠ UpdState.trial) ∧ (w15.upd.block ≠ [])) ∧
    ((cellWf (255 : Byte) w16.xf.cells = true) ∧ (w16.pwr.pd1Up = true) ∧ (¬(w16.pwr.st = PwrState.clockFault ∨ w16.flt.supReset = true)) ∧ (w16.upd.block.length = 4096) ∧ (w16.upd.abortPend = false) ∧ (2 ≤ w16.upd.tries)) ∧
    ((cellWf (255 : Byte) w17.xf.cells = true) ∧ (w17.pwr.pd1Up = true) ∧ (¬(w17.pwr.st = PwrState.clockFault ∨ w17.flt.supReset = true)) ∧ (w17.upd.block.length = 4096) ∧ (w17.upd.abortPend = true) ∧ (w17.upd.kind ≠ (0 : BitVec 2)) ∧ (1 ≤ w17.upd.next)) ∧
    ((cellWf (255 : Byte) w19.xf.cells = true) ∧ (w19.pwr.pd1Up = true) ∧ (¬(w19.pwr.st = PwrState.clockFault ∨ w19.flt.supReset = true)) ∧ (w19.upd.st = UpdState.verifying) ∧ (w19.upd.kind = (3 : BitVec 2)) ∧ (BitVec.toNat (crc32c (w19.flashRead 3145728 (field w19.upd.head 20 4))) ≠ field w19.upd.head 140 4)) ∧
    ((cellWf (255 : Byte) w19.xf.cells = true) ∧ (w19.pwr.pd1Up = true) ∧ (¬(w19.pwr.st = PwrState.clockFault ∨ w19.flt.supReset = true)) ∧ (w19.upd.owner = Option.none ∨ w19.upd.owner = Option.some (0 : Fin 256)) ∧ (w19.upd.st ≠ UpdState.trial) ∧ (w19.upd.block = []) ∧ (w19.upd.kind = (3 : BitVec 2))) ∧
    ((cellWf (255 : Byte) w20.xf.cells = true) ∧ (w20.pwr.pd1Up = true) ∧ (w20.rs.ready = true ∧ w20.boot.st ≠ BootState.loading ∧ w20.boot.st ≠ BootState.clockHold ∧ w20.upd.begun = false) ∧ (w20.rs.versions = []) ∧ (w20.upd.cfgTrial = CfgTrial.none)) := by
  (repeat' apply And.intro) <;> first | ((with_reducible show State.sigOk _ _ _ = true); exact sig_ok) | decide +kernel | (unfold MemCanonical; decide +kernel) | (show (crc32c (padTo 0 4096 (List.flatMap wordBytes (List.replicate 1024 (0 : Word))))).toNat = _; rw [blank_block, crc_blank]; decide +kernel) | (show (crc32c (padTo 0 4096 (List.flatMap wordBytes (List.replicate 1024 (0 : Word))))).toNat ≠ _; rw [blank_block, crc_blank]; decide +kernel)
theorem witness_5 :
    ((cellWf (255 : Byte) w20.xf.cells = true) ∧ (w20.pwr.pd1Up = true) ∧ (¬(w20.pwr.st = PwrState.clockFault ∨ w20.flt.supReset = true)) ∧ (w20.upd.st = UpdState.verifying) ∧ (State.sigOk (slice w20.upd.head 192 32) (slice w20.upd.head 224 64) w20.outerMsg = true) ∧ (w20.payloadCode = 1)) ∧
    ((cellWf (255 : Byte) w21.xf.cells = true) ∧ (w21.pwr.pd1Up = true) ∧ (¬(w21.pwr.st = PwrState.clockFault ∨ w21.flt.supReset = true)) ∧ (w21.upd.st = UpdState.verifying) ∧ (State.sigOk (slice w21.upd.head 192 32) (slice w21.upd.head 224 64) w21.outerMsg = true) ∧ (w21.payloadCode ≠ 1)) ∧
    ((cellWf (255 : Byte) w21.xf.cells = true) ∧ (w21.pwr.pd1Up = true) ∧ (¬(w21.pwr.st = PwrState.clockFault ∨ w21.flt.supReset = true)) ∧ (w21.upd.owner = Option.none ∨ w21.upd.owner = Option.some (0 : Fin 256)) ∧ (w21.upd.st ≠ UpdState.trial) ∧ (w21.upd.block = []) ∧ (w21.upd.kind = (1 : BitVec 2))) ∧
    ((cellWf (255 : Byte) w22.xf.cells = true) ∧ (w22.pwr.pd1Up = true) ∧ (¬(w22.pwr.st = PwrState.clockFault ∨ w22.flt.supReset = true)) ∧ (w22.upd.owner = Option.none ∨ w22.upd.owner = Option.some (0 : Fin 256)) ∧ (w22.upd.st = UpdState.verified) ∧ (w22.upd.kind = (1 : BitVec 2)) ∧ (w22.boot.st ≠ BootState.noBundle)) ∧
    ((cellWf (255 : Byte) w23.xf.cells = true) ∧ (w23.pwr.pd1Up = true) ∧ (¬(w23.pwr.st = PwrState.clockFault ∨ w23.flt.supReset = true)) ∧ (w23.upd.owner = Option.none ∨ w23.upd.owner = Option.some (0 : Fin 256)) ∧ (w23.upd.st = UpdState.verified) ∧ (w23.upd.kind = (1 : BitVec 2)) ∧ (w23.boot.st = BootState.noBundle)) ∧
    ((cellWf (255 : Byte) w24.xf.cells = true) ∧ (w24.pwr.pd1Up = true) ∧ (¬(w24.pwr.st = PwrState.clockFault ∨ w24.flt.supReset = true)) ∧ (w24.upd.owner = Option.none ∨ w24.upd.owner = Option.some (0 : Fin 256)) ∧ (w24.upd.st = UpdState.verified) ∧ (w24.upd.kind = (2 : BitVec 2)) ∧ (¬(w24.boot.fmtMin.toNat ≤ field (w24.flashRead (if w24.upd.kind = (1 : BitVec 2) then if w24.upd.target = true then 2097152 else 1048576 else if w24.upd.kind = (2 : BitVec 2) then if w24.upd.target = true then 69632 else 4096 else 3145728) 6) 4 2 ∧ field (w24.flashRead (if w24.upd.kind = (1 : BitVec 2) then if w24.upd.target = true then 2097152 else 1048576 else if w24.upd.kind = (2 : BitVec 2) then if w24.upd.target = true then 69632 else 4096 else 3145728) 6) 4 2 ≤ w24.boot.fmtMax.toNat))) ∧
    ((cellWf (255 : Byte) w24.xf.cells = true) ∧ (w24.pwr.pd1Up = true) ∧ (¬(w24.pwr.st = PwrState.clockFault ∨ w24.flt.supReset = true)) ∧ (w24.upd.owner = Option.none ∨ w24.upd.owner = Option.some (0 : Fin 256)) ∧ (w24.upd.st ≠ UpdState.trial) ∧ (w24.upd.block = []) ∧ (w24.upd.kind = (2 : BitVec 2))) ∧
    ((cellWf (255 : Byte) w25.xf.cells = true) ∧ (w25.pwr.pd1Up = true) ∧ (¬(w25.pwr.st = PwrState.clockFault ∨ w25.flt.supReset = true)) ∧ (w25.upd.owner = Option.none ∨ w25.upd.owner = Option.some (0 : Fin 256)) ∧ (w25.upd.st = UpdState.verified) ∧ (w25.upd.kind = (2 : BitVec 2)) ∧ (w25.boot.fmtMin.toNat ≤ field (w25.flashRead (if w25.upd.kind = (1 : BitVec 2) then if w25.upd.target = true then 2097152 else 1048576 else if w25.upd.kind = (2 : BitVec 2) then if w25.upd.target = true then 69632 else 4096 else 3145728) 6) 4 2 ∧ field (w25.flashRead (if w25.upd.kind = (1 : BitVec 2) then if w25.upd.target = true then 2097152 else 1048576 else if w25.upd.kind = (2 : BitVec 2) then if w25.upd.target = true then 69632 else 4096 else 3145728) 6) 4 2 ≤ w25.boot.fmtMax.toNat)) := by
  (repeat' apply And.intro) <;> first | ((with_reducible show State.sigOk _ _ _ = true); exact sig_ok) | decide +kernel | (unfold MemCanonical; decide +kernel) | (show (crc32c (padTo 0 4096 (List.flatMap wordBytes (List.replicate 1024 (0 : Word))))).toNat = _; rw [blank_block, crc_blank]; decide +kernel) | (show (crc32c (padTo 0 4096 (List.flatMap wordBytes (List.replicate 1024 (0 : Word))))).toNat ≠ _; rw [blank_block, crc_blank]; decide +kernel)
theorem witness_6 :
    ((cellWf (255 : Byte) w26.xf.cells = true) ∧ (w26.pwr.pd1Up = true) ∧ (¬(w26.pwr.st = PwrState.clockFault ∨ w26.flt.supReset = true)) ∧ (w26.upd.owner = Option.none ∨ w26.upd.owner = Option.some (0 : Fin 256)) ∧ (w26.upd.st = UpdState.verified) ∧ (w26.upd.kind = (3 : BitVec 2)) ∧ (w26.upd.head.getD 136 (0 : Byte) = (0 : Byte))) ∧
    ((cellWf (255 : Byte) w27.xf.cells = true) ∧ (w27.pwr.pd1Up = true) ∧ (¬(w27.pwr.st = PwrState.clockFault ∨ w27.flt.supReset = true)) ∧ (w27.upd.owner = Option.none ∨ w27.upd.owner = Option.some (0 : Fin 256)) ∧ (w27.upd.st = UpdState.verified) ∧ (w27.upd.kind = (3 : BitVec 2)) ∧ (w27.nodeJudge (0 : Fin 4) = 2)) ∧
    ((cellWf (255 : Byte) w32.xf.cells = true) ∧ (w32.pwr.pd1Up = true) ∧ (¬(w32.pwr.st = PwrState.clockFault ∨ w32.flt.supReset = true)) ∧ (w32.upd.window = true) ∧ (w32.upd.winEnd ≤ w32.time)) ∧
    ((cellWf (255 : Byte) w34.xf.cells = true) ∧ (w34.pwr.pd1Up = true) ∧ (w34.rs.ready = true ∧ w34.boot.st ≠ BootState.loading ∧ w34.boot.st ≠ BootState.clockHold ∧ w34.upd.begun = false) ∧ (w34.rs.versions = [x5_34] ∧ x5_34.type = (3 : BitVec 8) ∧ x5_34.index = (0 : BitVec 8) ∧ x5_34.committed = true ∧ x5_34.crcOk = true ∧ field x5_34.data 39 1 < 64) ∧ (field x5_34.data 37 1 = 1)) ∧
    ((cellWf (255 : Byte) w35.xf.cells = true) ∧ (w35.pwr.pd1Up = true) ∧ (w35.rs.ready = true ∧ w35.boot.st ≠ BootState.loading ∧ w35.boot.st ≠ BootState.clockHold ∧ w35.upd.begun = false) ∧ (w35.rs.versions = [x5_35] ∧ x5_35.type = (3 : BitVec 8) ∧ x5_35.index = (0 : BitVec 8) ∧ x5_35.committed = true ∧ x5_35.crcOk = true ∧ field x5_35.data 39 1 < 64) ∧ (field x5_35.data 37 1 = 2)) ∧
    ((cellWf (255 : Byte) w36.xf.cells = true) ∧ (w36.pwr.pd1Up = true) ∧ (w36.rs.ready = true ∧ w36.boot.st ≠ BootState.loading ∧ w36.boot.st ≠ BootState.clockHold ∧ w36.upd.begun = false) ∧ (w36.rs.versions = [x5_36] ∧ x5_36.type = (3 : BitVec 8) ∧ x5_36.index = (0 : BitVec 8) ∧ x5_36.committed = true ∧ x5_36.crcOk = true ∧ field x5_36.data 39 1 < 64) ∧ (field x5_36.data 37 1 = 3) ∧ (w36.boot.st ≠ BootState.noBundle) ∧ (w36.boot.trial = true)) ∧
    ((cellWf (255 : Byte) w37.xf.cells = true) ∧ (w37.pwr.pd1Up = true) ∧ (w37.rs.ready = true ∧ w37.boot.st ≠ BootState.loading ∧ w37.boot.st ≠ BootState.clockHold ∧ w37.upd.begun = false) ∧ (w37.rs.versions = [x5_37] ∧ x5_37.type = (3 : BitVec 8) ∧ x5_37.index = (0 : BitVec 8) ∧ x5_37.committed = true ∧ x5_37.crcOk = true ∧ field x5_37.data 39 1 < 64) ∧ (field x5_37.data 37 1 = 3) ∧ (w37.boot.st ≠ BootState.noBundle) ∧ (w37.boot.trial = false) ∧ (w37.boot.trialFailed = true)) ∧
    ((cellWf (255 : Byte) w38.xf.cells = true) ∧ (w38.pwr.pd1Up = true) ∧ (¬(w38.pwr.st = PwrState.clockFault ∨ w38.flt.supReset = true)) ∧ (w38.upd.camp = Option.some x6_38) ∧ (x6_38.phase ≠ CampPhase.data ∧ (x6_38.phase = CampPhase.boot ∨ x6_38.inFlight = false) ∧ (x6_38.at_ + if x6_38.phase = CampPhase.boot then 200000000 * w38.upd.nuboot.toNat else 40000000) ≤ w38.time)) := by
  (repeat' apply And.intro) <;> first | ((with_reducible show State.sigOk _ _ _ = true); exact sig_ok) | decide +kernel | (unfold MemCanonical; decide +kernel) | (show (crc32c (padTo 0 4096 (List.flatMap wordBytes (List.replicate 1024 (0 : Word))))).toNat = _; rw [blank_block, crc_blank]; decide +kernel) | (show (crc32c (padTo 0 4096 (List.flatMap wordBytes (List.replicate 1024 (0 : Word))))).toNat ≠ _; rw [blank_block, crc_blank]; decide +kernel)
theorem witness_7 :
    ((cellWf (255 : Byte) w40.xf.cells = true) ∧ (w40.pwr.pd1Up = true) ∧ (w40.pwr.st = PwrState.clockFault ∨ w40.flt.supReset = true)) ∧
    ((cellWf (255 : Byte) w42.xf.cells = true) ∧ (w42.pwr.pd1Up = true) ∧ (¬(w42.pwr.st = PwrState.clockFault ∨ w42.flt.supReset = true)) ∧ (w42.upd.camp = Option.some x6_42) ∧ (¬(x6_42.phase ≠ CampPhase.data ∧ (x6_42.phase = CampPhase.boot ∨ x6_42.inFlight = false) ∧ (x6_42.at_ + if x6_42.phase = CampPhase.boot then 200000000 * w42.upd.nuboot.toNat else 40000000) ≤ w42.time))) := by
  (repeat' apply And.intro) <;> first | ((with_reducible show State.sigOk _ _ _ = true); exact sig_ok) | decide +kernel | (unfold MemCanonical; decide +kernel) | (show (crc32c (padTo 0 4096 (List.flatMap wordBytes (List.replicate 1024 (0 : Word))))).toNat = _; rw [blank_block, crc_blank]; decide +kernel) | (show (crc32c (padTo 0 4096 (List.flatMap wordBytes (List.replicate 1024 (0 : Word))))).toNat ≠ _; rw [blank_block, crc_blank]; decide +kernel)
end UpdateAgentCommands
end W20b

namespace W23
def rt (s : State) : State := { s with sc := { s.sc with recs := [(0, {}), (7, { bind := 0x90000000, quota := 0x00C02008, rights := 0xFFFFFFFF, st := .active })] } }

/-! ### ReadsWritesAndTestPort -/
namespace ReadsWritesAndTestPort
def w0 : State := rt (su 3)
def w1 : State := dn (rt (su 3))
def w2 : State := rt (su 5)
def w3 : State := { rt (su 5) with boot := { (su 5).boot with locked := true } }
def w4 : State := { rt (su 5) with boot := { (su 5).boot with locked := false } }
def w5 : State := rt (su 6)
def w6 : State := rt (su 6)
def w7 : State := rt (su 6)
def w8 : State := rt (su 6)
def w9 : State := rt (su 6)
def w11 : State := { rt (su 6) with pins := { (su 6).pins with rstN := false }, otp := { (su 6).otp with bsdis := false }, tbs := { run := false, tb := 0x123456789ABC } }
def w12 : State := { rt (su 6) with pins := { (su 6).pins with rstN := false }, otp := { (su 6).otp with bsdis := true }, tbs := { run := true, tb := 0x123456789ABC } }
def w13 : State := Y (fun c => { c with snapped := true }) (rt (su 3))
def w14 : State := P (fun p => { p with pdUp := false }) (rt (su 3))
theorem witness_1 :
    ((w0.tbs.run = false)) ∧
    ((w0.cyc.snapped = false)) ∧
    ((w0.pwr.pd1Up = true) ∧ (w0.permits (0 : Fin 256) (w0.nativeAddr (BitVec.toNat (30728 : BitVec 20))) true (305419896 : Word) = true) ∧ (w0.pwr.pdUp = true) ∧ (w0.nativeAddr (BitVec.toNat (30728 : BitVec 20)) = 28680 + 1024 * (2 : Fin 4).val)) ∧
    ((w0.pins.rstN = true ∨ w0.otp.bsdis = true)) ∧
    ((w1.pwr.pd1Up = false)) ∧
    ((w2.pwr.pd1Up = true) ∧ (w2.permits (0 : Fin 256) (w2.nativeAddr (BitVec.toNat (30732 : BitVec 20))) true (305419896 : Word) = true) ∧ (w2.pwr.pdUp = true) ∧ (w2.nativeAddr (BitVec.toNat (30732 : BitVec 20)) = 28684 + 1024 * (2 : Fin 4).val) ∧ (w2.freshBits (w2.nativeAddr (BitVec.toNat (30732 : BitVec 20))) = (0 : Word))) ∧
    ((w3.pwr.pd1Up = true) ∧ (w3.permits (0 : Fin 256) (w3.nativeAddr (BitVec.toNat (30744 : BitVec 20))) true (2452903544 : Word) = true) ∧ (w3.pwr.pdUp = true) ∧ (w3.nativeAddr (BitVec.toNat (30744 : BitVec 20)) = 28696 + 1024 * (2 : Fin 4).val) ∧ (w3.boot.locked = true)) ∧
    ((w4.pwr.pd1Up = true) ∧ (w4.permits (0 : Fin 256) (w4.nativeAddr (BitVec.toNat (30744 : BitVec 20))) true (2452903544 : Word) = true) ∧ (w4.pwr.pdUp = true) ∧ (w4.nativeAddr (BitVec.toNat (30744 : BitVec 20)) = 28696 + 1024 * (2 : Fin 4).val) ∧ (w4.boot.locked = false) ∧ (w4.freshBits (w4.nativeAddr (BitVec.toNat (30744 : BitVec 20))) = (0 : Word))) := by
  (repeat' apply And.intro) <;> first | ((with_reducible show State.sigOk _ _ _ = true); exact sig_ok) | decide +kernel | (unfold MemCanonical; decide +kernel) | (show (crc32c (padTo 0 4096 (List.flatMap wordBytes (List.replicate 1024 (0 : Word))))).toNat = _; rw [blank_block, crc_blank]; decide +kernel) | (show (crc32c (padTo 0 4096 (List.flatMap wordBytes (List.replicate 1024 (0 : Word))))).toNat ≠ _; rw [blank_block, crc_blank]; decide +kernel)
theorem witness_2 :
    ((w5.pwr.pd1Up = true) ∧ (w5.permits (0 : Fin 256) (w5.nativeAddr (BitVec.toNat (45068 : BitVec 20))) true (2452903544 : Word) = true) ∧ (w5.pwr.pdUp = true) ∧ (w5.nativeAddr (BitVec.toNat (45068 : BitVec 20)) = 45068) ∧ (w5.freshBits (w5.nativeAddr (BitVec.toNat (45068 : BitVec 20))) = (0 : Word))) ∧
    ((w6.pwr.pd1Up = true) ∧ (w6.permits (0 : Fin 256) (w6.nativeAddr (BitVec.toNat (45080 : BitVec 20))) true (2452903541 : Word) = true) ∧ (w6.pwr.pdUp = true) ∧ (w6.nativeAddr (BitVec.toNat (45080 : BitVec 20)) = 45080)) ∧
    ((w7.pwr.pd1Up = true) ∧ (w7.permits (0 : Fin 256) (w7.nativeAddr (BitVec.toNat (49168 : BitVec 20))) true (2452903541 : Word) = true) ∧ (w7.pwr.pdUp = true) ∧ (w7.nativeAddr (BitVec.toNat (49168 : BitVec 20)) = 49168)) ∧
    ((w8.pwr.pd1Up = true) ∧ (w8.permits (0 : Fin 256) (w8.nativeAddr (BitVec.toNat (43032 : BitVec 20))) true (2452903541 : Word) = true) ∧ (w8.pwr.pdUp = true) ∧ (w8.nativeAddr (BitVec.toNat (43032 : BitVec 20)) = 43032) ∧ (w8.freshBits (w8.nativeAddr (BitVec.toNat (43032 : BitVec 20))) = (0 : Word))) ∧
    ((w9.pwr.pd1Up = true) ∧ (w9.permits (9 : Fin 256) (w9.nativeAddr (BitVec.toNat (43032 : BitVec 20))) true (2452903541 : Word) = false)) ∧
    ((w11.pins.rstN = false) ∧ (w11.otp.bsdis = false)) ∧
    ((w12.tbs.run = true)) ∧
    ((w13.cyc.snapped = true)) := by
  (repeat' apply And.intro) <;> first | ((with_reducible show State.sigOk _ _ _ = true); exact sig_ok) | decide +kernel | (unfold MemCanonical; decide +kernel) | (show (crc32c (padTo 0 4096 (List.flatMap wordBytes (List.replicate 1024 (0 : Word))))).toNat = _; rw [blank_block, crc_blank]; decide +kernel) | (show (crc32c (padTo 0 4096 (List.flatMap wordBytes (List.replicate 1024 (0 : Word))))).toNat ≠ _; rw [blank_block, crc_blank]; decide +kernel)
theorem witness_3 :
    (w14.pwr.pd1Up = true) ∧ (State.heldAddr (w14.nativeAddr (BitVec.toNat (30732 : BitVec 20))) = true) ∧ (w14.pwr.pdUp = false) := by
  (repeat' apply And.intro) <;> first | ((with_reducible show State.sigOk _ _ _ = true); exact sig_ok) | decide +kernel | (unfold MemCanonical; decide +kernel) | (show (crc32c (padTo 0 4096 (List.flatMap wordBytes (List.replicate 1024 (0 : Word))))).toNat = _; rw [blank_block, crc_blank]; decide +kernel) | (show (crc32c (padTo 0 4096 (List.flatMap wordBytes (List.replicate 1024 (0 : Word))))).toNat ≠ _; rw [blank_block, crc_blank]; decide +kernel)
end ReadsWritesAndTestPort
end W23
/-! ### Statements about every state: a state that meets their hypotheses -/

/-- Two commands wait in a state with a byte of memory, a calendar entry and a word in a FIFO. -/
def waitingS : State :=
  { (su 1) with
    pending := [.grvCmdStop 3, .rtcSecondTick]
    mem := { cells := [(0x20000, 0x81)] }
    tt := { cal := [(3, { st := .waiting, owner := 7 })] }
    ps := { eng := vset State.reset.ps.eng 2 fun p => { p with tx := [5], rx := [6, 7] } } }

namespace MemoryStaysCanonical
theorem witness : MemCanonical waitingS ∧ ∃ t, step waitingS = .next t := ⟨by unfold MemCanonical; decide +kernel, _, rfl⟩
end MemoryStaysCanonical
namespace TablesStayCanonical
theorem witness : TablesCanonical waitingS ∧ ∃ t, step waitingS = .next t := ⟨by unfold TablesCanonical; decide +kernel, _, rfl⟩
end TablesStayCanonical
namespace FifosNeverOverfill
theorem witness : FifosBounded waitingS ∧ ∃ t, step waitingS = .next t := ⟨by unfold FifosBounded; decide +kernel, _, rfl⟩
end FifosNeverOverfill
namespace QueueRunsToItsEnd
theorem witness : QueueWellFormed waitingS ∧ waitingS.pending.length = 2 := ⟨by unfold QueueWellFormed; decide, rfl⟩
end QueueRunsToItsEnd
namespace IdleStepIsOneCoreCycle
theorem witness : ({ waitingS with pending := [], tbs := { run := true } } : State).pending = [] := rfl
end IdleStepIsOneCoreCycle
namespace EncodedInstructionsDecode
theorem witness : (MeInstr.edge 12 1 11 true false 63).legal = true ∧ (MeInstr.att 8 9 10 2).legal = true ∧
    (MeInstr.b 14 8191).legal = true ∧ (MeInstr.snap 8 9 64).legal = true := by decide
end EncodedInstructionsDecode
namespace OnlyFaultIsAnAbsentAddress
theorem witness : WellFormed (.bankAccessGrant (.read 0x20000 2) 0) = true := by decide
/-- The fault is reached: no bank has this address. -/
theorem fault : exec (.bankAccessGrant (.read 0x1FFFC 2) 0) (su 1) = .fault .noAddress := rfl
end OnlyFaultIsAnAbsentAddress

namespace DueEntriesBecomeReady
def calS (l : List (Nat × CalEntry)) : State := { (su 1) with tt := { cal := l }, tbs := { run := true, tb := 0x1000 } }
def lockS (l : List (Nat × CalEntry)) : State :=
  AD 0 (fun a => { a with ctl := 1, wheel := 0x0180003A, pitch := 3, st := .locked,
                          k := { a.k with tau := some 0xF00, rate := 40000000, rev := 3 } }) (calS l)
def eT : CalEntry := { st := .waiting, owner := 7, key := 0x999, dueAt := 0x999 }
def eA : CalEntry := { st := .waiting, owner := 7, key := 0x1000, keysel := 1 }
theorem time_due : TablesCanonical (calS [(3, eT)]) ∧ (calS [(3, eT)]).pwr.pdUp = true ∧ (0 : BitVec 2) ∉ (calS [(3, eT)]).cyc.moved ∧
    ∃ h, ((calS [(3, eT)]).calEntry h).st = .waiting ∧ ((calS [(3, eT)]).calEntry h).keysel = 0 ∧
      reached (calS [(3, eT)]).tb ((calS [(3, eT)]).calEntry h).dueAt = true :=
  ⟨by unfold TablesCanonical; decide +kernel, rfl, by decide +kernel, 3, by decide +kernel⟩
theorem none_due : TablesCanonical (calS []) ∧ (calS []).pwr.pdUp = true ∧ ∀ h, ¬ ((calS []).calEntry h).st = .waiting :=
  ⟨by unfold TablesCanonical; decide +kernel, rfl, fun h => by rw [show (calS []).calEntry h = {} from rfl]; decide⟩
theorem angle_due : TablesCanonical (lockS [(4, eA)]) ∧ (lockS [(4, eA)]).pwr.pdUp = true ∧ (1 : BitVec 2) ∉ (lockS [(4, eA)]).cyc.moved ∧
    ∃ pos, (lockS [(4, eA)]).domPos 0 = some pos ∧ ∃ h, ((lockS [(4, eA)]).calEntry h).st = .waiting ∧
      ((lockS [(4, eA)]).calEntry h).keysel.toNat = 1 ∧ ((lockS [(4, eA)]).calEntry h).doomed = false ∧
      ((lockS [(4, eA)]).calEntry h).insAt < (lockS [(4, eA)]).time ∧
      posReached pos (lo32 ((lockS [(4, eA)]).calEntry h).key) = true :=
  ⟨by unfold TablesCanonical; decide +kernel, rfl, by decide +kernel, ((lockS [(4, eA)]).domPos 0).getD 0, by decide +kernel, 4, by decide +kernel⟩
theorem angle_none : (lockS []).pwr.pdUp = true ∧ ((lockS []).domPos 0).isSome = true ∧ ∀ h, ¬ ((lockS []).calEntry h).st = .waiting :=
  ⟨rfl, by decide +kernel, fun h => by rw [show (lockS []).calEntry h = {} from rfl]; decide⟩
theorem moved : (0 : BitVec 2) ∈ (Y (fun c => { c with moved := [0, 1] }) (calS [])).cyc.moved ∧
    (BitVec.ofNat 2 ((0 : Fin 3).val + 1)) ∈ (Y (fun c => { c with moved := [0, 1] }) (calS [])).cyc.moved := by decide +kernel
end DueEntriesBecomeReady

/-! ### WellFormed refuses an ill-formed operand of each kind -/

def rdH (n : Fin 16) : Header := { p := false, inc := false, len := n, client := 7, addr := 0x20000 }
theorem test_wf_refuses_atomics_on_no_g : ∀ c ∈ [Instr.xadd true 8 9 10, .xchg true 8 9 10, .xset true 8 9 10, .xclr true 8 9 10,
    .cas true 8 9 10], WellFormed c = false := by decide
theorem test_wf_accepts_atomics : ∀ c ∈ [Instr.xadd true 8 7 10, .xchg false 8 9 10, .cas true 8 0 10], WellFormed c = true := by decide
theorem test_wf_refuses_condition_15 : WellFormed (.b 15 5) = false ∧ WellFormed (.b 14 5) = true := by decide
theorem test_wf_refuses_sched_pair : WellFormed (.sched 8 9) = false ∧ WellFormed (.sched 8 12) = true := by decide
theorem test_wf_refuses_edge_channel : WellFormed (.edge 8 9 10 true true 5) = false ∧ WellFormed (.edge 8 9 10 true false 5) = true := by decide
theorem test_wf_refuses_snap : WellFormed (.snap 8 8 5) = false ∧ WellFormed (.snap 8 9 65) = false ∧ WellFormed (.snap 8 9 64) = true := by decide
theorem test_wf_refuses_att : WellFormed (.att 8 8 9 1) = false ∧ WellFormed (.att 8 9 10 3) = false ∧ WellFormed (.att 8 9 10 2) = true := by decide
theorem test_wf_refuses_short_fingerprint : WellFormed (.sigMeasurementEnd [1, 2]) = false := by decide
theorem test_wf_refuses_bank_access : WellFormed (.bankAccessGrant (.read 0x20001 2) 0) = false ∧
    WellFormed (.bankAccessGrant (.write 0x20001 1 0) 0) = false ∧ WellFormed (.bankAccessGrant (.read 0x1FFFC 2) 0) = false := by decide
theorem test_wf_refuses_host_lengths : WellFormed (.hpRead 0 (rdH 1) [2]) = false ∧ WellFormed (.hpWrite 0 (rdH 1) [5] 0) = false ∧
    WellFormed (.nodeXchRead 2 7 (rdH 1) [2] false) = false ∧ WellFormed (.nodeXchWrite 2 7 (rdH 1) [5] 0 false) = false := by decide
theorem test_wf_accepts_host_lengths : WellFormed (.hpRead 0 (rdH 1) [1]) = true ∧ WellFormed (.hpWrite 0 (rdH 1) [5, 6] 0) = true := by decide
theorem test_wf_refuses_odd_register : WellFormed (.registerWrite .hp 7 0x402 0) = false ∧ WellFormed (.registerWrite .hp 7 0x404 0) = true := by decide
theorem test_wf_refuses_short_frame : WellFormed (.hlFrameReceived 0 true true none [none]) = false := by decide
theorem test_wf_refuses_frame_parts : WellFormed (.localFrameBoundary [0, 0, 0]) = false ∧ WellFormed (.localFrameBoundary [0, 0, 0, 0]) = true := by decide
theorem test_wf_refuses_long_transfer : WellFormed (.smbTransferEnd 0 0 (List.replicate 33 0)) = false := by decide

/-! ### Worked values of the spec -/

/-- Words of 08 Table 8.12, as the table prints them. -/
theorem test_decode_commutation_program :
    meDecode 0x330000A0 = some (.movhi 12 0x00A0) ∧ meDecode 0xAB06E000 = some (.edge 12 1 11 true false 0) ∧
    meDecode 0xAB46E100 = some (.edge 13 1 11 true false 4) ∧ meDecode 0x13B88000 = some (.imm .ori 14 14 0x8000) ∧
    meDecode 0x1BE00004 = some (.imm .shli 15 8 4) ∧ meDecode 0x07BBC000 = some (.alu .add 14 14 15) ∧
    meDecode 0x43780004 = some (.load .ldw 13 14 4) ∧ meDecode 0x632C2074 = some (.store .stw 12 11 0x2074) ∧
    meDecode 0x2F000001 = some (.movi 12 1) ∧ meDecode 0xA2300000 = some (.sched 8 12) ∧
    meDecode 0xAF340040 = some (.snap 12 13 0x40) ∧ meDecode 0x243C0000 = some (.imm .cmpi 0 15 0) ∧
    meDecode 0x80800426 = some (.b 2 1062) ∧ meDecode 0x90000000 = some .yield ∧ meDecode 0xB4000000 = some (.signal 0) := by decide +kernel
/-- The same words, encoded. -/
theorem test_encode_commutation_program :
    (MeInstr.edge 12 1 11 true false 0).encode = 0xAB06E000 ∧ (MeInstr.store .stw 12 11 0x2074).encode = 0x632C2074 ∧
    (MeInstr.alu .add 14 14 15).encode = 0x07BBC000 ∧ (MeInstr.b 2 1062).encode = 0x80800426 ∧
    (MeInstr.sched 8 12).encode = 0xA2300000 ∧ (MeInstr.snap 12 13 0x40).encode = 0xAF340040 := by decide +kernel
/-- The nine ASCII bytes 123456789. -/
def nine : List Byte := [0x31, 0x32, 0x33, 0x34, 0x35, 0x36, 0x37, 0x38, 0x39]
/-- 02, after Table 2.4. -/
theorem test_crc32c_check : crc32c nine = 0xE3069283 := by decide +kernel
/-- 13, after R510. -/
theorem test_crc8_check : crc8 nine = 0xF4 := by decide +kernel
/-- Published check values: FIPS 180-4 (abc), RFC 8032 test 1 (log 9). -/
theorem test_sha256_abc : sha256 [0x61, 0x62, 0x63] =
    0xba7816bf8f01cfea414140de5dae2223b00361a396177a9cb410ff61f20015ad := by decide +kernel
def rfcKey : List Byte := leBytes 32 0x1a5107f7681a02af2523a6daf372e10e3a0764c9d3fe4bd5b70ab18201985ad7
def rfcSig : List Byte := leBytes 32 0x5501492265e073d874d9e5b81e7f87848a826e80cce2869072ac60c3004356e5 ++
  leBytes 32 0xb107a8e4341516524be5b59f0f55bd26bb4f91c70391ec6ac3ba3901582b85f
theorem test_ed25519_rfc : ed25519Verify rfcKey rfcSig [] = true := by decide +kernel
theorem test_ed25519_other_message : ed25519Verify rfcKey rfcSig [0] = false := by decide +kernel
/-- The published 8b/10b code: K28.5 in either disparity (15 R564, log 110). -/
theorem test_k28_5 : (enc8b10b true 0xBC false).1.toNat = 0b0011111010 ∧ (enc8b10b true 0xBC true).1.toNat = 0b1100000101 := by decide +kernel

end Sys2Proof.Tests
end

section
/-!
PROOFS. The start sequence (02 R31–R73): its ends (O10). The loader locks the configuration at the end of the sequence, and
the lock first writes back lockable registers (02 R67), so the proof needs what any register write leaves of the start-up
registers: all of them, unless it resets the device. The first part says so of every operation a register write can call.
-/
namespace Sys2Proof.Machine

/-! ## The start-up registers and PD2–PD7 under the operations of a register write -/

/-- The start-up registers, and whether PD2–PD7 are out of reset: what no register write changes short of a reset. -/
def State.startUp (s : State) : Boot × Bool := (s.boot, s.pwr.pdUp)

namespace State

theorem boot_of_startUp {s t : State} (h : t.startUp = s.startUp) : t.boot = s.boot := congrArg Prod.fst h
theorem pdUp_of_startUp {s t : State} (h : t.startUp = s.startUp) : t.pwr.pdUp = s.pwr.pdUp := congrArg Prod.snd h

@[simp] theorem startUp_ite (c : Prop) [Decidable c] (a b : State) :
    (if c then a else b).startUp = if c then a.startUp else b.startUp := apply_ite _ _ _ _
@[simp] theorem foldl_startUp {α : Type} {f : State → α → State} (h : ∀ s a, (f s a).startUp = s.startUp) (l : List α)
    (s : State) : (l.foldl f s).startUp = s.startUp := by
  induction l generalizing s with
  | nil => rfl
  | cons a l ih => exact (ih _).trans (h s a)
@[simp] theorem foldFin_startUp {n : Nat} {f : Fin n → State → State} (h : ∀ a s, (f a s).startUp = s.startUp)
    (s : State) : (foldFin n f s).startUp = s.startUp := foldl_startUp (fun s a => h a s) _ s
@[simp] theorem map_const_getD {α : Type} (o : Option α) (s : State) : (o.map fun _ => s).getD s = s := by cases o <;> rfl
@[simp] theorem modPwr_startUp {s : State} {f : Power → Power} (h : (f s.pwr).pdUp = s.pwr.pdUp) :
    (s.modPwr f).startUp = s.startUp := Prod.ext rfl h

/-! ### Ops

The lemmas of single updates are proved `by rfl`: as definitional lemmas, `simp` does not discharge the steps of a fold with
them. -/

@[simp] theorem modChan_startUp (s : State) (n : Fin 64) (f : Chan → Chan) : (s.modChan n f).startUp = s.startUp := by rfl
@[simp] theorem modGrove_startUp (s : State) (g : Fin 8) (f : Grove → Grove) : (s.modGrove g f).startUp = s.startUp := by rfl
@[simp] theorem modAd_startUp (s : State) (d : Fin 3) (f : AngleDom → AngleDom) : (s.modAd d f).startUp = s.startUp := by rfl
@[simp] theorem modPl_startUp (s : State) (i : Fin 2) (f : Checker → Checker) : (s.modPl i f).startUp = s.startUp := by rfl
@[simp] theorem modTt_startUp (s : State) (f : Timetable → Timetable) : (s.modTt f).startUp = s.startUp := by rfl
@[simp] theorem modMe_startUp (s : State) (f : MicroEngine → MicroEngine) : (s.modMe f).startUp = s.startUp := by rfl
@[simp] theorem modEng_startUp (s : State) (e : Fin 8) (f : PinSeq → PinSeq) : (s.modEng e f).startUp = s.startUp := by rfl
@[simp] theorem modAfe_startUp (s : State) (f : Afe → Afe) : (s.modAfe f).startUp = s.startUp := by rfl
@[simp] theorem modSc_startUp (s : State) (f : Seating → Seating) : (s.modSc f).startUp = s.startUp := by rfl
@[simp] theorem modCanopy_startUp (s : State) (f : Canopy → Canopy) : (s.modCanopy f).startUp = s.startUp := by rfl
@[simp] theorem modPins_startUp (s : State) (f : Pins → Pins) : (s.modPins f).startUp = s.startUp := by rfl
@[simp] theorem modMem_startUp (s : State) (f : Mem → Mem) : (s.modMem f).startUp = s.startUp := by rfl
@[simp] theorem modBank_startUp (s : State) (b : Fin 8) (f : Bank → Bank) : (s.modBank b f).startUp = s.startUp := by
  simp [modBank]
@[simp] theorem modCw_startUp (s : State) (n : Fin 16) (f : CircWin → CircWin) : (s.modCw n f).startUp = s.startUp := by rfl
@[simp] theorem modDma_startUp (s : State) (c : Fin 8) (f : DmaChan → DmaChan) : (s.modDma c f).startUp = s.startUp := by rfl
@[simp] theorem modIntc_startUp (s : State) (f : Intc → Intc) : (s.modIntc f).startUp = s.startUp := by rfl
@[simp] theorem modHp_startUp (s : State) (f : Hp → Hp) : (s.modHp f).startUp = s.startUp := by rfl
@[simp] theorem modLink_startUp (s : State) (l : Fin 4) (f : Hl → Hl) : (s.modLink l f).startUp = s.startUp := by rfl
@[simp] theorem modTsi_startUp (s : State) (f : Tsi → Tsi) : (s.modTsi f).startUp = s.startUp := by rfl
@[simp] theorem modSmb_startUp (s : State) (k : Fin 2) (f : Smb → Smb) : (s.modSmb k f).startUp = s.startUp := by rfl
@[simp] theorem modPack_startUp (s : State) (f : Pack → Pack) : (s.modPack f).startUp = s.startUp := by rfl
@[simp] theorem modMsp_startUp (s : State) (m : Fin 2) (f : Msp → Msp) : (s.modMsp m f).startUp = s.startUp := by rfl
@[simp] theorem modFlt_startUp (s : State) (f : Flt → Flt) : (s.modFlt f).startUp = s.startUp := by rfl
@[simp] theorem modUpd_startUp (s : State) (f : Upd → Upd) : (s.modUpd f).startUp = s.startUp := by rfl
@[simp] theorem modSvc_startUp (s : State) (f : Svc → Svc) : (s.modSvc f).startUp = s.startUp := by rfl
@[simp] theorem modPm_startUp (s : State) (f : Perf → Perf) : (s.modPm f).startUp = s.startUp := by rfl
@[simp] theorem modRs_startUp (s : State) (f : RecStore → RecStore) : (s.modRs f).startUp = s.startUp := by rfl
@[simp] theorem modCyc_startUp (s : State) (f : Cycle → Cycle) : (s.modCyc f).startUp = s.startUp := by rfl
@[simp] theorem hwSet_startUp (s : State) (a : Nat) (bits : Word) : (s.hwSet a bits).startUp = s.startUp := by simp [hwSet]
@[simp] theorem modClient_startUp (s : State) (c : Fin 256) (f : ClientRec → ClientRec) :
    (s.modClient c f).startUp = s.startUp := by simp [modClient]
@[simp] theorem free_startUp (s : State) : s.free.2.startUp = s.startUp := by rfl
@[simp] theorem report_startUp (s : State) (mech kind index detail : Nat) :
    (s.report mech kind index detail).startUp = s.startUp := by rfl
@[simp] theorem fltBack_startUp (s : State) (u : Nat) : (s.fltBack u).startUp = s.startUp := by simp [fltBack]
@[simp] theorem post_startUp (s : State) (rank : Nat) (c : Fin 256) (type : Nat) (crit : Bool) (info : Nat) (w1 w2 w3 : Word) :
    (s.post rank c type crit info w1 w2 w3).startUp = s.startUp := by simp [post]
@[simp] theorem request_startUp (s : State) (src : ReqSrc) (e : EventRegs) : (s.request src e).startUp = s.startUp := by
  simp [request]
@[simp] theorem hpFlag_startUp (s : State) (b : BitVec 5) : (s.hpFlag b).startUp = s.startUp := by simp [hpFlag]
@[simp] theorem raiseChan_startUp (s : State) (n : Fin 64) (b : BitVec 16) : (s.raiseChan n b).startUp = s.startUp := by
  simp [raiseChan]
@[simp] theorem raiseAd_startUp (s : State) (d : Fin 3) (b : BitVec 16) : (s.raiseAd d b).startUp = s.startUp := by
  simp [raiseAd]
@[simp] theorem raisePs_startUp (s : State) (e : Fin 8) (b : BitVec 16) : (s.raisePs e b).startUp = s.startUp := by
  simp [raisePs]
@[simp] theorem modAdc_startUp (s : State) (a : Fin 2) (f : Adc → Adc) : (s.modAdc a f).startUp = s.startUp := by
  simp [modAdc]
@[simp] theorem raiseAdc_startUp (s : State) (a : Fin 2) (b : BitVec 16) : (s.raiseAdc a b).startUp = s.startUp := by
  simp [raiseAdc]
@[simp] theorem raiseTsi_startUp (s : State) (b : BitVec 16) : (s.raiseTsi b).startUp = s.startUp := by simp [raiseTsi]
@[simp] theorem dmaFlag_startUp (s : State) (c : Fin 8) (b : BitVec 5) : (s.dmaFlag c b).startUp = s.startUp := by
  simp [dmaFlag]
@[simp] theorem dmaError_startUp (s : State) (c : Fin 8) (code : Nat) : (s.dmaError c code).startUp = s.startUp := by
  simp [dmaError]

/-! ### Channels -/

@[simp] theorem modOut_startUp (s : State) (n : Fin 64) (f : Output → Output) : (s.modOut n f).startUp = s.startUp := by
  simp [modOut]
@[simp] theorem modCnt_startUp (s : State) (n : Fin 64) (f : Counter → Counter) : (s.modCnt n f).startUp = s.startUp := by
  simp [modCnt]
@[simp] theorem setOstat_startUp (s : State) (n : Fin 64) (b : BitVec 8) : (s.setOstat n b).startUp = s.startUp := by
  simp [setOstat]
@[simp] theorem settlePair_startUp (s : State) (n : Fin 64) : (s.settlePair n).startUp = s.startUp := by simp [settlePair]
@[simp] theorem setCause_startUp (s : State) (n : Fin 64) (b : BitVec 11) : (s.setCause n b).startUp = s.startUp := by
  simp [setCause]
@[simp] theorem clearCause_startUp (s : State) (n : Fin 64) (b : BitVec 11) : (s.clearCause n b).startUp = s.startUp := by
  simp [clearCause]
@[simp] theorem unlink_startUp (s : State) (m : Fin 64) : (s.unlink m).startUp = s.startUp := by simp [unlink]
@[simp] theorem settleLkdup_startUp (s : State) : s.settleLkdup.startUp = s.startUp := by simp [settleLkdup]
@[simp] theorem markHead_startUp (s : State) (n : Fin 64) : (s.markHead n).startUp = s.startUp := by simp [markHead]
@[simp] theorem noteUnder_startUp (s : State) (n : Fin 64) : (s.noteUnder n).startUp = s.startUp := by simp [noteUnder]
@[simp] theorem fireHead_startUp (s : State) (n : Fin 64) : (s.fireHead n).startUp = s.startUp := by
  unfold fireHead
  split <;> simp
@[simp] theorem pushEdge_startUp (s : State) (n : Fin 64) (w : Word) (tgt : W48) :
    (s.pushEdge n w tgt).startUp = s.startUp := by
  unfold pushEdge
  dsimp only
  repeat' split
  all_goals simp
@[simp] theorem loadShadow_startUp (s : State) (n : Fin 64) (w : Word) (tgt : W48) :
    (s.loadShadow n w tgt).startUp = s.startUp := by
  unfold loadShadow
  dsimp only
  split <;> simp
@[simp] theorem unfire_startUp (s : State) (n : Fin 64) : (s.unfire n).startUp = s.startUp := by
  unfold unfire
  split <;> simp
@[simp] theorem flushQueue_startUp (s : State) (n : Fin 64) : (s.flushQueue n).startUp = s.startUp := by simp [flushQueue]
@[simp] theorem discardEdges_startUp (s : State) (p : Edge → Bool) : (s.discardEdges p).startUp = s.startUp := by
  simp [discardEdges]
@[simp] theorem noteValley_startUp (s : State) (n : Fin 64) : (s.noteValley n).startUp = s.startUp := by simp [noteValley]
@[simp] theorem tickChan_startUp (s : State) (n : Fin 64) (t : Tick) : (s.tickChan n t).startUp = s.startUp := by
  unfold tickChan
  dsimp only
  repeat' split
  all_goals simp
@[simp] theorem readmitStep_startUp (s : State) (n : Fin 64) : (s.readmitStep n).startUp = s.startUp := by simp [readmitStep]
@[simp] theorem leaveClearing_startUp (s1 s : State) (n : Fin 64) : (State.leaveClearing s1 s n).startUp = s.startUp := by
  simp [leaveClearing]
@[simp] theorem settleRdm_startUp (s : State) (g : Fin 8) : (s.settleRdm g).startUp = s.startUp := by simp [settleRdm]
@[simp] theorem beginRun_startUp (s : State) (n : Fin 64) (cnt : W48) (down : Bool) :
    (s.beginRun n cnt down).startUp = s.startUp := by simp [beginRun]
@[simp] theorem refuseStart_startUp (s : State) (n : Fin 64) : (s.refuseStart n).startUp = s.startUp := by simp [refuseStart]
@[simp] theorem startChan_startUp (s : State) (n : Fin 64) (v : W48 × Bool) : (s.startChan n v).startUp = s.startUp := by
  simp [startChan]
@[simp] theorem runTicks_startUp (s1 s : State) (ts : List (Fin 64 × Tick)) :
    (State.runTicks s1 s ts).startUp = s.startUp := by simp [runTicks]
@[simp] theorem sendPulses_startUp (s : State) (ms : List (Fin 64)) : (s.sendPulses ms).startUp = s.startUp := by
  simp [sendPulses]
@[simp] theorem groveTickWith_startUp (s : State) (g : Fin 8) (starts : List (Fin 64)) (stagger zero : Bool) :
    (s.groveTickWith g starts stagger zero).startUp = s.startUp := by simp [groveTickWith]
@[simp] theorem grvFlag_startUp (s : State) (g : Fin 8) (b : Word) : (s.grvFlag g b).startUp = s.startUp := by simp [grvFlag]
@[simp] theorem groveStart_startUp (s : State) (g : Fin 8) : (s.groveStart g).startUp = s.startUp := by simp [groveStart]
@[simp] theorem halt_startUp (s : State) (n : Fin 64) : (s.halt n).startUp = s.startUp := by simp [halt]
@[simp] theorem stopChan_startUp (s : State) (n : Fin 64) : (s.stopChan n).startUp = s.startUp := by simp [stopChan]
@[simp] theorem groveStop_startUp (s : State) (g : Fin 8) : (s.groveStop g).startUp = s.startUp := by simp [groveStop]
@[simp] theorem chanGo_startUp (s : State) (n : Fin 64) : (s.chanGo n).startUp = s.startUp := by simp [chanGo]
@[simp] theorem writePsc_startUp (s : State) (g : Fin 8) (w : Word) : (s.writePsc g w).startUp = s.startUp := by
  simp [writePsc]
@[simp] theorem writeCtl_startUp (s : State) (n : Fin 64) (w : Word) : (s.writeCtl n w).startUp = s.startUp := by
  simp [writeCtl]
@[simp] theorem writeReloadLo_startUp (s : State) (n : Fin 64) (w : Word) : (s.writeReloadLo n w).startUp = s.startUp := by
  simp [writeReloadLo]
@[simp] theorem writeReloadHi_startUp (s : State) (n : Fin 64) (w : Word) : (s.writeReloadHi n w).startUp = s.startUp := by
  simp [writeReloadHi]
@[simp] theorem writeMatLo_startUp (s : State) (n : Fin 64) (i : Fin 4) (w : Word) :
    (s.writeMatLo n i w).startUp = s.startUp := by simp [writeMatLo]
@[simp] theorem writeMatHi_startUp (s : State) (n : Fin 64) (i : Fin 4) (w : Word) :
    (s.writeMatHi n i w).startUp = s.startUp := by simp [writeMatHi]
@[simp] theorem writeCnt_startUp (s : State) (n : Fin 64) (hi : Bool) (w : Word) :
    (s.writeCnt n hi w).startUp = s.startUp := by simp [writeCnt]
@[simp] theorem capture_startUp (s : State) (n : Fin 64) (sw : Bool) (v : W48) (down : Bool) :
    (s.capture n sw v down).startUp = s.startUp := by simp [capture]
@[simp] theorem swCapture_startUp (s : State) (n : Fin 64) : (s.swCapture n).startUp = s.startUp := by simp [swCapture]
@[simp] theorem writeOcfg_startUp (s : State) (n : Fin 64) (w : Word) : (s.writeOcfg n w).startUp = s.startUp := by
  simp [writeOcfg]
@[simp] theorem armGrove_startUp (s : State) (g : Fin 8) : (s.armGrove g).startUp = s.startUp := by simp [armGrove]
@[simp] theorem release_startUp (s : State) (n : Fin 64) (b : BitVec 11) : (s.release n b).startUp = s.startUp := by
  simp [release]
@[simp] theorem releaseSw_startUp (s : State) (n : Fin 64) : (s.releaseSw n).startUp = s.startUp := by simp [releaseSw]
@[simp] theorem releaseSync_startUp (s : State) (n : Fin 64) : (s.releaseSync n).startUp = s.startUp := by simp [releaseSync]
@[simp] theorem flushCmd_startUp (s : State) (n : Fin 64) : (s.flushCmd n).startUp = s.startUp := by simp [flushCmd]
@[simp] theorem releaseTrip_startUp (s : State) (g : Fin 8) : (s.releaseTrip g).startUp = s.startUp := by simp [releaseTrip]
@[simp] theorem rdmGo_startUp (s : State) (g : Fin 8) : (s.rdmGo g).startUp = s.startUp := by simp [rdmGo]
@[simp] theorem writeCapcfg_startUp (s : State) (n : Fin 64) (w : Word) : (s.writeCapcfg n w).startUp = s.startUp := by
  simp [writeCapcfg]
@[simp] theorem haltOnPair_startUp (s : State) (n : Fin 64) : (s.haltOnPair n).startUp = s.startUp := by
  unfold haltOnPair
  split <;> simp
@[simp] theorem writePair_startUp (s : State) (n : Fin 64) (w : Word) : (s.writePair n w).startUp = s.startUp := by
  simp [writePair]
@[simp] theorem unfenceChan_startUp (s : State) (n : Fin 64) (by_ : BitVec 4) :
    (s.unfenceChan n by_).startUp = s.startUp := by simp [unfenceChan]
@[simp] theorem lasting_startUp (s : State) (n : Fin 64) : (s.lasting n).startUp = s.startUp := by simp [lasting]
@[simp] theorem unfenceGrove_startUp (s : State) (g : Fin 8) : (s.unfenceGrove g).startUp = s.startUp := by
  simp [unfenceGrove]

/-! ### Store -/

@[simp] theorem rsEnqueue_startUp (s : State) (type index : Nat) (data : List Byte) :
    (s.rsEnqueue type index data).startUp = s.startUp := by simp [rsEnqueue]
@[simp] theorem writeLife_startUp (s : State) : s.writeLife.startUp = s.startUp := by simp [writeLife]
@[simp] theorem storeLog_startUp (s : State) : s.storeLog.startUp = s.startUp := by simp [storeLog]

/-! ### Angle -/

@[simp] theorem startSweep_startUp (s : State) (d : Fin 3) (why : SweepWhy) : (s.startSweep d why).startUp = s.startUp := by
  simp [startSweep]
@[simp] theorem dropAngleEdges_startUp (s : State) (d : Fin 3) : (s.dropAngleEdges d).startUp = s.startUp := by
  simp [dropAngleEdges]
@[simp] theorem endAngles_startUp (s : State) (d : Fin 3) (before : AngleDom) (why : SweepWhy) :
    (s.endAngles d before why).startUp = s.startUp := by simp [endAngles]
@[simp] theorem loseDomain_startUp (s : State) (d : Fin 3) (reason : Nat) : (s.loseDomain d reason).startUp = s.startUp := by
  simp [loseDomain]
@[simp] theorem dropDomain_startUp (s : State) (d : Fin 3) (reason : Nat) : (s.dropDomain d reason).startUp = s.startUp := by
  simp [dropDomain]
@[simp] theorem releaseHolds_startUp (s0 s : State) : (State.releaseHolds s0 s).startUp = s.startUp := by simp [releaseHolds]
@[simp] theorem takeHolds_startUp (s0 s : State) : (State.takeHolds s0 s).startUp = s.startUp := by simp [takeHolds]
@[simp] theorem writeTrig_startUp (s : State) (d : Fin 3) (i : Fin 4) (w : Word) :
    (s.writeTrig d i w).startUp = s.startUp := by simp [writeTrig]
@[simp] theorem writeZero_startUp (s : State) (d : Fin 3) (w : Word) : (s.writeZero d w).startUp = s.startUp := by
  simp [writeZero]
@[simp] theorem writeGov_startUp (s : State) (d : Fin 3) (w : Word) : (s.writeGov d w).startUp = s.startUp := by
  simp [writeGov]
@[simp] theorem writeAdCtl_startUp (s : State) (d : Fin 3) (w : Word) : (s.writeAdCtl d w).startUp = s.startUp := by
  simp [writeAdCtl]
@[simp] theorem adLose_startUp (s : State) (d : Fin 3) : (s.adLose d).startUp = s.startUp := by simp [adLose]
@[simp] theorem adDrop_startUp (s : State) (d : Fin 3) : (s.adDrop d).startUp = s.startUp := by simp [adDrop]
@[simp] theorem writePlCtl_startUp (s : State) (i : Fin 2) (w : Word) : (s.writePlCtl i w).startUp = s.startUp := by
  simp [writePlCtl]
@[simp] theorem clearTrip_startUp (s : State) (i : Fin 2) : (s.clearTrip i).startUp = s.startUp := by simp [clearTrip]
@[simp] theorem unfenceAd_startUp (s : State) (d : Fin 3) : (s.unfenceAd d).startUp = s.startUp := by simp [unfenceAd]

/-! ### Memory -/

@[simp] theorem memFlag_startUp (s : State) (b : BitVec 7) : (s.memFlag b).startUp = s.startUp := by simp [memFlag]
@[simp] theorem memEvent_startUp (s : State) (kind a : Nat) : (s.memEvent kind a).startUp = s.startUp := by simp [memEvent]
@[simp] theorem markSaved_startUp (s : State) (p : Nat) : (s.markSaved p).startUp = s.startUp := by simp [markSaved]
@[simp] theorem bankUnc_startUp (s : State) (a : Nat) : (s.bankUnc a).startUp = s.startUp := by simp [bankUnc]
@[simp] theorem bankCorr_startUp (s : State) (a : Nat) : (s.bankCorr a).startUp = s.startUp := by simp [bankCorr]
@[simp] theorem bankReadWord_startUp (s : State) (a : Nat) : (s.bankReadWord a).2.startUp = s.startUp := by
  unfold bankReadWord
  dsimp only
  repeat' split
  all_goals simp
@[simp] theorem memRead_startUp (s : State) (a size : Nat) : (s.memRead a size).2.startUp = s.startUp := by
  unfold memRead
  split
  · rfl
  · next p _ =>
    have h := s.bankReadWord_startUp (wordOf p)
    split <;> simp_all
@[simp] theorem testAbandon_startUp (s : State) (b : Fin 8) : (s.testAbandon b).startUp = s.startUp := by simp [testAbandon]
@[simp] theorem writeTctl_startUp (s : State) (w : Word) : (s.writeTctl w).startUp = s.startUp := by simp [writeTctl]
@[simp] theorem readmit_startUp (s : State) (b : Fin 8) : (s.readmit b).startUp = s.startUp := by simp [readmit]
@[simp] theorem writeCwBase_startUp (s : State) (n : Fin 16) (w : Word) : (s.writeCwBase n w).startUp = s.startUp := by
  simp [writeCwBase]
@[simp] theorem writeCwSize_startUp (s : State) (n : Fin 16) (w : Word) : (s.writeCwSize n w).startUp = s.startUp := by
  simp [writeCwSize]

/-! ### Timetable -/

@[simp] theorem setCal_startUp (s : State) : (s.setCal h e).startUp = s.startUp := by simp [setCal]
@[simp] theorem ttFlag_startUp (s : State) (b : BitVec 5) : (s.ttFlag b).startUp = s.startUp := by simp [ttFlag]
@[simp] theorem freeEntry_startUp (s : State) : (s.freeEntry h).startUp = s.startUp := by simp [freeEntry]
@[simp] theorem hostHerr_startUp (s : State) (c : Fin 256) : (s.hostHerr c h st).startUp = s.startUp := by simp [hostHerr]
@[simp] theorem hostInsert_startUp (s : State) (c : Fin 256) : (s.hostInsert c h w).startUp = s.startUp := by
  simp [hostInsert]
@[simp] theorem hostCancel_startUp (s : State) (c : Fin 256) : (s.hostCancel c h).startUp = s.startUp := by simp [hostCancel]
@[simp] theorem writeCalWord_startUp (s : State) : (s.writeCalWord h i w).startUp = s.startUp := by simp [writeCalWord]
@[simp] theorem dropAllRequests_startUp (s : State) : s.dropAllRequests.startUp = s.startUp := by
  refine (modTt_startUp _ _).trans (foldl_startUp (fun u r => ?_) _ _)
  cases r.src <;> simp
@[simp] theorem bulkCancel_startUp (s : State) (reason : Nat) : (s.bulkCancel reason).startUp = s.startUp := by
  simp [bulkCancel]
@[simp] theorem writeSpill_startUp (s : State) (w : Word) : (s.writeSpill w).startUp = s.startUp := by simp [writeSpill]
@[simp] theorem writeG_startUp (s : State) (i : Fin 8) (w : Word) : (s.writeG i w).startUp = s.startUp := by simp [writeG]
@[simp] theorem settleMe_startUp (s : State) : s.settleMe.startUp = s.startUp := by simp [settleMe]
@[simp] theorem writeMeCtl_startUp (s : State) (w : Word) : (s.writeMeCtl w).startUp = s.startUp := by simp [writeMeCtl]

/-! ### Seating -/

@[simp] theorem scFlag_startUp (s : State) (b : BitVec 6) : (s.scFlag b).startUp = s.startUp := by simp [scFlag]
@[simp] theorem noteRec_startUp (s : State) (c : Fin 256) : (s.noteRec c).startUp = s.startUp := by simp [noteRec]
@[simp] theorem setBuf_startUp (s : State) (i : Fin 256) (f : BufRec → BufRec) : (s.setBuf i f).startUp = s.startUp := by
  simp [setBuf]
@[simp] theorem postAll_startUp (s : State) (rank : Nat) (cs : List (Fin 256)) (type : Nat) (crit : Bool) (info : Nat)
    (w1 w2 w3 : Word) : (s.postAll rank cs type crit info w1 w2 w3).startUp = s.startUp := by simp [postAll]
@[simp] theorem countDrop_startUp (s : State) (c : Fin 256) : (s.countDrop c).startUp = s.startUp := by simp [countDrop]
@[simp] theorem dropEvent_startUp (s : State) (c : Fin 256) (p : Event → Bool) : (s.dropEvent c p).startUp = s.startUp := by
  simp [dropEvent]
@[simp] theorem admitEvent_startUp (s : State) (c : Fin 256) (e : Event) : (s.admitEvent c e).startUp = s.startUp := by
  simp [admitEvent]
@[simp] theorem postFailed_startUp (s : State) (c : Fin 256) (l : Fin 4) (msgid : BitVec 12) (reason handle tx : Nat) :
    (s.postFailed c l msgid reason handle tx).startUp = s.startUp := by simp [postFailed]
@[simp] theorem dropMessage_startUp (s : State) (l : Fin 4) (i : Fin 256) : (s.dropMessage l i).startUp = s.startUp := by
  simp [dropMessage]
@[simp] theorem dropRequestOf_startUp (s : State) (q : OpenReq) : (s.dropRequestOf q).startUp = s.startUp := by
  simp [dropRequestOf]
@[simp] theorem failRequests_startUp (s : State) (reason : Nat) : (s.failRequests reason).startUp = s.startUp := by
  simp [failRequests]
@[simp] theorem fenceNext_startUp (s : State) (c : Fin 256) (cause : Nat) : (s.fenceNext c cause).startUp = s.startUp := by
  simp [fenceNext]
@[simp] theorem disableNext_startUp (s : State) (c : Fin 256) (r : ClientRec) : (s.disableNext c r).startUp = s.startUp := by
  simp [disableNext]
@[simp] theorem countFault_startUp (s : State) (c : Fin 256) : (s.countFault c).startUp = s.startUp := by simp [countFault]
@[simp] theorem restoreClient_startUp (s : State) (c : Fin 256) : (s.restoreClient c).startUp = s.startUp := by
  simp [restoreClient]
@[simp] theorem restoreCmd_startUp (s : State) (c : Fin 256) : (s.restoreCmd c).startUp = s.startUp := by simp [restoreCmd]
@[simp] theorem scWerr_startUp (s : State) (n : Fin 256) (reason : Nat) : (s.scWerr n reason).startUp = s.startUp := by
  simp [scWerr]
@[simp] theorem recordWrite_startUp (s : State) (sup : Bool) (c n : Fin 256) (i : Nat) (w : Word) :
    (s.recordWrite sup c n i w).startUp = s.startUp := by
  unfold recordWrite
  dsimp only
  repeat' split
  all_goals simp
@[simp] theorem scCmd_startUp (s : State) (w : Word) : (s.scCmd w).startUp = s.startUp := by simp [scCmd]
@[simp] theorem bufFault_startUp (s : State) (c : Fin 256) (kind op handle : Nat) :
    (s.bufFault c kind op handle).startUp = s.startUp := by simp [bufFault]
@[simp] theorem bufFreeOp_startUp (s : State) (i : Fin 256) : (s.bufFreeOp i).startUp = s.startUp := by simp [bufFreeOp]
@[simp] theorem bufSendOp_startUp (s : State) (i : Fin 256) (l : Fin 4) (req : Bool) :
    (s.bufSendOp i l req).startUp = s.startUp := by simp [bufSendOp]
@[simp] theorem bufCmd_startUp (s : State) (c : Fin 256) (w : Word) : (s.bufCmd c w).startUp = s.startUp := by
  unfold bufCmd
  dsimp only
  repeat' split
  all_goals simp

/-! ### Perf -/

@[simp] theorem pmFlag_startUp (s : State) (b : BitVec 5) : (s.pmFlag b).startUp = s.startUp := by simp [pmFlag]
@[simp] theorem rsFlag_startUp (s : State) (b : BitVec 5) : (s.rsFlag b).startUp = s.startUp := by simp [rsFlag]
@[simp] theorem setView_startUp (s : State) (i : Fin 5) (b : Bin) : (s.setView i b).startUp = s.startUp := by simp [setView]
@[simp] theorem close15_startUp (s : State) (extra : BitVec 8) : (s.close15 extra).startUp = s.startUp := by
  unfold close15
  dsimp only
  split <;> simp
@[simp] theorem closeDay_startUp (s : State) (extra : BitVec 8) : (s.closeDay extra).startUp = s.startUp := by
  simp [closeDay]
@[simp] theorem open15_startUp (s : State) (start : Nat) : (s.open15 start).startUp = s.startUp := by simp [open15]
@[simp] theorem openDay_startUp (s : State) (start : Nat) : (s.openDay start).startUp = s.startUp := by simp [openDay]
@[simp] theorem rollBins_startUp (s : State) (d : DoneSecond) : (s.rollBins d).startUp = s.startUp := by simp [rollBins]
@[simp] theorem tcaLink_startUp (s : State) (l : Fin 4) : (s.tcaLink l).startUp = s.startUp := by simp [tcaLink]
@[simp] theorem placeSecond_startUp (s : State) (d : DoneSecond) : (s.placeSecond d).startUp = s.startUp := by
  simp [placeSecond]
@[simp] theorem pmClockSet_startUp (s : State) : s.pmClockSet.startUp = s.startUp := by simp [pmClockSet]
@[simp] theorem writePmSel_startUp (s : State) (w : Word) : (s.writePmSel w).startUp = s.startUp := by simp [writePmSel]
@[simp] theorem pmWrite_startUp (s : State) (a : Nat) (w : Word) : ((s.pmWrite a w).getD s).startUp = s.startUp := by
  unfold pmWrite
  split <;> simp
@[simp] theorem setSector_startUp (s : State) (n : Nat) (x : Sector) : (s.setSector n x).startUp = s.startUp := by
  simp [setSector]
@[simp] theorem rsRoom_startUp (s : State) (n : Nat) : (s.rsRoom n).startUp = s.startUp := by
  unfold rsRoom
  split <;> simp
@[simp] theorem rsPut_startUp (s : State) (type index : BitVec 8) (seq : Word) (data : List Byte) :
    (s.rsPut type index seq data).startUp = s.startUp := by simp [rsPut]
@[simp] theorem rsRefuse_startUp (s : State) (type : BitVec 8) : (s.rsRefuse type).startUp = s.startUp := by simp [rsRefuse]
@[simp] theorem rsCompact_startUp (s : State) : s.rsCompact.startUp = s.startUp := by simp [rsCompact]
@[simp] theorem rsCommit_startUp (s : State) (type index : BitVec 8) (data : List Byte) :
    (s.rsCommit type index data).startUp = s.startUp := by simp [rsCommit]
@[simp] theorem rsRegWrite_startUp (s : State) (a : Nat) (w : Word) : ((s.rsRegWrite a w).getD s).startUp = s.startUp := by
  unfold rsRegWrite
  split <;> simp

/-! ### Afe -/

@[simp] theorem modSens_startUp (s : State) (n : Fin 16) (f : Sens → Sens) : (s.modSens n f).startUp = s.startUp := by
  simp [modSens]
@[simp] theorem modItrip_startUp (s : State) (n : Fin 6) (f : Itrip → Itrip) : (s.modItrip n f).startUp = s.startUp := by
  simp [modItrip]
@[simp] theorem modSig_startUp (s : State) (f : Sig → Sig) : (s.modSig f).startUp = s.startUp := by simp [modSig]
@[simp] theorem modCal_startUp (s : State) (f : Cal → Cal) : (s.modCal f).startUp = s.startUp := by simp [modCal]
@[simp] theorem sigFlag_startUp (s : State) (b : BitVec 5) : (s.sigFlag b).startUp = s.startUp := by simp [sigFlag]
@[simp] theorem afeWwr_startUp (s : State) : s.afeWwr.startUp = s.startUp := by simp [afeWwr]
@[simp] theorem spareTo_startUp (s : State) (nx : Option (Fin 16)) : (s.spareTo nx).startUp = s.startUp := by simp [spareTo]
@[simp] theorem writeSensCfg_startUp (s : State) (n : Fin 16) (w : Word) : (s.writeSensCfg n w).startUp = s.startUp := by
  simp [writeSensCfg]
@[simp] theorem writeSensThr_startUp (s : State) (n : Fin 16) (w : Word) : (s.writeSensThr n w).startUp = s.startUp := by
  simp [writeSensThr]
@[simp] theorem itripRef_startUp (s : State) (n : Fin 6) : (s.itripRef n).startUp = s.startUp := by simp [itripRef]
@[simp] theorem itripClear_startUp (s : State) (n : Fin 6) : (s.itripClear n).startUp = s.startUp := by
  unfold itripClear
  dsimp only
  split <;> simp
@[simp] theorem writeItcmd_startUp (s : State) (w : Word) : (s.writeItcmd w).startUp = s.startUp := by simp [writeItcmd]
@[simp] theorem writeItripCfg_startUp (s : State) (n : Fin 6) (w : Word) : (s.writeItripCfg n w).startUp = s.startUp := by
  simp [writeItripCfg]
@[simp] theorem adcStart_startUp (s : State) (a : Fin 2) (e : Fin 16) : (s.adcStart a e).startUp = s.startUp := by
  simp [adcStart]
@[simp] theorem adcEvent_startUp (s : State) (a : Fin 2) (trig idx : Nat) : (s.adcEvent a trig idx).startUp = s.startUp := by
  unfold adcEvent
  dsimp only
  repeat' split
  all_goals simp
@[simp] theorem adcRestart_startUp (s : State) (a : Fin 2) : (s.adcRestart a).startUp = s.startUp := by simp [adcRestart]
@[simp] theorem writeAdcCmd_startUp (s : State) (a : Fin 2) (w : Word) : (s.writeAdcCmd a w).startUp = s.startUp := by
  simp [writeAdcCmd]
@[simp] theorem writeAdcCtl_startUp (s : State) (a : Fin 2) (w : Word) : (s.writeAdcCtl a w).startUp = s.startUp := by
  simp [writeAdcCtl]
@[simp] theorem unfenceAdc_startUp (s : State) (a : Fin 2) : (s.unfenceAdc a).startUp = s.startUp := by simp [unfenceAdc]
@[simp] theorem sigStart_startUp (s : State) (l : Fin 4) (enrol : Option (Fin 16)) :
    (s.sigStart l enrol).startUp = s.startUp := by simp [sigStart]
@[simp] theorem sigNextDue_startUp (s : State) : s.sigNextDue.startUp = s.startUp := by
  unfold sigNextDue
  repeat' split
  all_goals simp
@[simp] theorem sigAbort_startUp (s : State) : s.sigAbort.startUp = s.startUp := by
  unfold sigAbort
  split <;> simp
@[simp] theorem sigMeasure_startUp (s : State) (l : Fin 4) : (s.sigMeasure l).startUp = s.startUp := by simp [sigMeasure]
@[simp] theorem sigEnrol_startUp (s : State) (c : Fin 256) (l : Fin 4) (k : Fin 16) :
    (s.sigEnrol c l k).startUp = s.startUp := by simp [sigEnrol]
@[simp] theorem writeSigCmd_startUp (s : State) (c : Fin 256) (w : Word) : (s.writeSigCmd c w).startUp = s.startUp := by
  unfold writeSigCmd
  split <;> simp
@[simp] theorem adcWrite_startUp (s : State) (a : Fin 2) (o : Nat) (w : Word) : (s.adcWrite a o w).startUp = s.startUp := by
  unfold adcWrite
  dsimp only
  repeat' split
  all_goals simp
@[simp] theorem afeWrite_startUp (s : State) (c : Fin 256) (a : Nat) (w : Word) :
    ((s.afeWrite c a w).getD s).startUp = s.startUp := by
  unfold afeWrite
  split
  · rw [Option.getD_some]
    split
    · exact writeSensCfg_startUp ..
    · exact writeSensThr_startUp ..
    · rfl
  split
  · rw [Option.getD_some]
    split
    · exact writeItripCfg_startUp ..
    · exact modItrip_startUp ..
    · exact modItrip_startUp ..
    · rfl
  split
  · rw [Option.getD_some, adcWrite_startUp]
  split
  · rw [Option.getD_some, startUp_ite, modSig_startUp, sigFlag_startUp, ite_self]
  split
  · rw [Option.getD_some, startUp_ite, modSig_startUp, ite_self]
  · split <;> simp

/-! ### Msp -/

@[simp] theorem mspRun_startUp (s : State) (m : Fin 2) (f : Msp → Msp) : (s.mspRun m f).startUp = s.startUp := by
  simp [mspRun]
@[simp] theorem mspWrite_startUp (s : State) (m : Fin 2) (o : Nat) (w : Word) :
    ((s.mspWrite m o w).getD s).startUp = s.startUp := by
  unfold mspWrite
  split <;> simp

/-! ### Smb -/

@[simp] theorem smbFlag_startUp (s : State) (k : Fin 2) (b : BitVec 10) : (s.smbFlag k b).startUp = s.startUp := by
  simp [smbFlag]
@[simp] theorem smbErr_startUp (s : State) (k : Fin 2) (kind : Nat) (more : List (Fin 256)) :
    (s.smbErr k kind more).startUp = s.startUp := by simp [smbErr]
@[simp] theorem packPost_startUp (s : State) : s.packPost.startUp = s.startUp := by simp [packPost]
@[simp] theorem packKick_startUp (s : State) : s.packKick.startUp = s.startUp := by
  unfold packKick
  dsimp only
  repeat' split
  all_goals simp
@[simp] theorem packGo_startUp (s : State) (t : PackStep) : (s.packGo t).startUp = s.startUp := by simp [packGo]
@[simp] theorem packStart_startUp (s : State) : s.packStart.startUp = s.startUp := by simp [packStart]
@[simp] theorem packTrigger_startUp (s : State) : s.packTrigger.startUp = s.startUp := by simp [packTrigger]
@[simp] theorem packDone_startUp (s : State) : s.packDone.startUp = s.startUp := by simp [packDone]
@[simp] theorem packFail_startUp (s : State) (code : Nat) : (s.packFail code).startUp = s.startUp := by
  unfold packFail
  split <;> simp
@[simp] theorem packVerify_startUp (s : State) : s.packVerify.startUp = s.startUp := by
  unfold packVerify
  dsimp only
  split <;> simp
@[simp] theorem randomBytes_startUp (n : Nat) (s : State) : (randomBytes n s).2.startUp = s.startUp := by
  induction n generalizing s with
  | zero => rfl
  | succ n ih => simp [randomBytes, ih]
@[simp] theorem packOk_startUp (s : State) (t : PackStep) (data : List Byte) : (s.packOk t data).startUp = s.startUp := by
  unfold packOk
  dsimp only
  repeat' split
  all_goals simp
@[simp] theorem packBad_startUp (s : State) (t : PackStep) (code : Nat) : (s.packBad t code).startUp = s.startUp := by
  unfold packBad
  split <;> simp
@[simp] theorem packResult_startUp (s : State) (code : Nat) (data : List Byte) :
    (s.packResult code data).startUp = s.startUp := by
  unfold packResult
  split <;> simp
@[simp] theorem smbCheck_startUp (s : State) (k : Fin 2) : (s.smbCheck k).startUp = s.startUp := by simp [smbCheck]
@[simp] theorem smbLifted_startUp (s : State) (k : Fin 2) : (s.smbLifted k).startUp = s.startUp := by simp [smbLifted]
@[simp] theorem smbXfer_startUp (s : State) (k : Fin 2) (c : Fin 256) (w : Word) :
    (s.smbXfer k c w).startUp = s.startUp := by simp [smbXfer]
@[simp] theorem smbResult_startUp (s : State) (k : Fin 2) (code : Nat) (t : SmbXfer) (data : List Byte) :
    (s.smbResult k code t data).startUp = s.startUp := by
  unfold smbResult
  extract_lets fl u v x y
  have hv : v.startUp = s.startUp := (smbFlag_startUp ..).trans (modSmb_startUp ..)
  have hx : x.startUp = s.startUp := by simp [x, hv]
  have hy : y.startUp = s.startUp := by simp [y, hx]
  simp [hy]
@[simp] theorem smbAbort_startUp (s : State) (k : Fin 2) : (s.smbAbort k).startUp = s.startUp := by
  unfold smbAbort
  split <;> simp
@[simp] theorem smbClrStuck_startUp (s : State) (k : Fin 2) : (s.smbClrStuck k).startUp = s.startUp := by simp [smbClrStuck]
@[simp] theorem smbEnable_startUp (s : State) (k : Fin 2) : (s.smbEnable k).startUp = s.startUp := by simp [smbEnable]
@[simp] theorem smbDisable_startUp (s : State) (k : Fin 2) : (s.smbDisable k).startUp = s.startUp := by simp [smbDisable]
@[simp] theorem unfenceSmb_startUp (s : State) (k : Fin 2) : (s.unfenceSmb k).startUp = s.startUp := by simp [unfenceSmb]
@[simp] theorem smbWrite_startUp (s : State) (k : Fin 2) (c : Fin 256) (o : Nat) (w : Word) :
    ((s.smbWrite k c o w).getD s).startUp = s.startUp := by
  unfold smbWrite
  dsimp only
  repeat' split
  all_goals simp
@[simp] theorem packWrite_startUp (s : State) (o : Nat) (w : Word) : ((s.packWrite o w).getD s).startUp = s.startUp := by
  unfold packWrite
  dsimp only
  repeat' split
  all_goals simp

/-! ### Tsi -/

@[simp] theorem tsiWerr_startUp (s : State) (reason i : Nat) : (s.tsiWerr reason i).startUp = s.startUp := by simp [tsiWerr]
@[simp] theorem retake_startUp (s : State) : s.retake.startUp = s.startUp := by
  unfold retake
  split <;> simp
@[simp] theorem writeEntry_startUp (s : State) (c : Fin 256) (i : Nat) (w : Word) :
    (s.writeEntry c i w).startUp = s.startUp := by simp [writeEntry]
@[simp] theorem tsiCopy_startUp (s : State) (c : Fin 256) : (s.tsiCopy c).startUp = s.startUp := by simp [tsiCopy]
@[simp] theorem tsiSwapReq_startUp (s : State) (c : Fin 256) (admMask : BitVec 4) :
    (s.tsiSwapReq c admMask).startUp = s.startUp := by simp [tsiSwapReq]
@[simp] theorem tsiCancel_startUp (s : State) (c : Fin 256) : (s.tsiCancel c).startUp = s.startUp := by simp [tsiCancel]
@[simp] theorem writeSwap_startUp (s : State) (c : Fin 256) (w : Word) : (s.writeSwap c w).startUp = s.startUp := by
  simp [writeSwap]
@[simp] theorem tsiWrite_startUp (s : State) (c : Fin 256) (a : Nat) (w : Word) :
    ((s.tsiWrite c a w).getD s).startUp = s.startUp := by
  unfold tsiWrite
  repeat' split
  all_goals simp

/-! ### Links -/

@[simp] theorem linkSec_startUp (s : State) (l : Fin 4) (f : LinkSec → LinkSec) : (s.linkSec l f).startUp = s.startUp := by
  simp [linkSec]
@[simp] theorem hlFlag_startUp (s : State) (l : Fin 4) (b : BitVec 15) : (s.hlFlag l b).startUp = s.startUp := by
  simp [hlFlag]
@[simp] theorem hlResync_startUp (s : State) (l : Fin 4) : (s.hlResync l).startUp = s.startUp := by simp [hlResync]
@[simp] theorem settleMsp_startUp (s0 s : State) : (State.settleMsp s0 s).startUp = s.startUp := by simp [settleMsp]
@[simp] theorem hlEnable_startUp (s : State) (l : Fin 4) : (s.hlEnable l).startUp = s.startUp := by simp [hlEnable]
@[simp] theorem hlDisable_startUp (s : State) (l : Fin 4) : (s.hlDisable l).startUp = s.startUp := by simp [hlDisable]
@[simp] theorem unfenceLink_startUp (s : State) (l : Fin 4) : (s.unfenceLink l).startUp = s.startUp := by simp [unfenceLink]
@[simp] theorem writeHlCfg_startUp (s : State) (l : Fin 4) (w : Word) : (s.writeHlCfg l w).startUp = s.startUp := by
  simp [writeHlCfg]
@[simp] theorem hlWrite_startUp (s : State) (l : Fin 4) (o : Nat) (w : Word) :
    ((s.hlWrite l o w).getD s).startUp = s.startUp := by
  unfold hlWrite
  split <;> simp

/-! ### PinSeq -/

@[simp] theorem unfencePs_startUp (s : State) (e : Fin 8) : (s.unfencePs e).startUp = s.startUp := by simp [unfencePs]
@[simp] theorem psRefuse_startUp (s : State) (e : Fin 8) : (s.psRefuse e).startUp = s.startUp := by simp [psRefuse]
@[simp] theorem psRevoke_startUp (s : State) (k : Fin 8) : (s.psRevoke k).startUp = s.startUp := by
  unfold psRevoke
  split <;> simp
@[simp] theorem psEnable_startUp (s : State) (e : Fin 8) : (s.psEnable e).startUp = s.startUp := by simp [psEnable]
@[simp] theorem psDisable_startUp (s : State) (e : Fin 8) : (s.psDisable e).startUp = s.startUp := by simp [psDisable]
@[simp] theorem psCmdHalt_startUp (s : State) (e : Fin 8) : (s.psCmdHalt e).startUp = s.startUp := by simp [psCmdHalt]
@[simp] theorem psCmdGo_startUp (s : State) (e : Fin 8) : (s.psCmdGo e).startUp = s.startUp := by simp [psCmdGo]
@[simp] theorem psTxFlush_startUp (s : State) (e : Fin 8) : (s.psTxFlush e).startUp = s.startUp := by simp [psTxFlush]
@[simp] theorem psRxFlush_startUp (s : State) (e : Fin 8) : (s.psRxFlush e).startUp = s.startUp := by simp [psRxFlush]
@[simp] theorem psTake_startUp (s : State) (e : Fin 8) (r : Nat) (w : Word) : (s.psTake e r w).startUp = s.startUp := by
  simp [psTake]
@[simp] theorem psTxWrite_startUp (s : State) (e : Fin 8) (r : Nat) (w : Word) :
    (s.psTxWrite e r w).startUp = s.startUp := by
  unfold psTxWrite
  split <;> simp
@[simp] theorem psWrite_startUp (s : State) (r : Nat) (e : Fin 8) (o : Nat) (w : Word) :
    ((s.psWrite r e o w).getD s).startUp = s.startUp := by
  unfold psWrite
  split <;> simp

/-! ### Dma -/

@[simp] theorem readWords_startUp (s : State) (a n : Nat) : (s.readWords a n).2.startUp = s.startUp := by
  induction n generalizing s a with
  | zero => rfl
  | succ n ih =>
    have h := s.memRead_startUp a 2
    unfold readWords
    split
    · simp_all
    · next u hu =>
      have k := ih u (a + 4)
      split <;> simp_all
@[simp] theorem dmaFetch_startUp (s : State) (c : Fin 8) : (s.dmaFetch c).startUp = s.startUp := by
  have h := s.readWords_startUp (s.dmac c).desc.toNat 4
  unfold dmaFetch
  dsimp only
  split
  · rfl
  · split
    · split <;> simp_all
    · simp_all
@[simp] theorem dmaLoad_startUp (s : State) (c : Fin 8) (a : Nat) (viaNext : Bool) :
    (s.dmaLoad c a viaNext).startUp = s.startUp := by simp [dmaLoad]
@[simp] theorem dmaEnable_startUp (s : State) (c : Fin 8) (w : Fin 256) : (s.dmaEnable c w).startUp = s.startUp := by
  simp [dmaEnable]
@[simp] theorem dmaDisable_startUp (s : State) (c : Fin 8) : (s.dmaDisable c).startUp = s.startUp := by simp [dmaDisable]
@[simp] theorem memRegWrite_startUp (s : State) (a : Nat) (w : Word) : ((s.memRegWrite a w).getD s).startUp = s.startUp := by
  unfold memRegWrite
  dsimp only
  repeat' split
  all_goals simp
@[simp] theorem dmaRegWrite_startUp (s : State) (w : Fin 256) (a : Nat) (d : Word) :
    ((s.dmaRegWrite w a d).getD s).startUp = s.startUp := by
  unfold dmaRegWrite
  dsimp only
  repeat' split
  all_goals simp

/-! ### Irq -/

@[simp] theorem keepSel_startUp (s : State) : s.keepSel.startUp = s.startUp := by simp [keepSel]
@[simp] theorem intcFlag_startUp (s : State) (b : BitVec 3) : (s.intcFlag b).startUp = s.startUp := by simp [intcFlag]
@[simp] theorem leaveSrc_startUp (s : State) (n : Fin 192) : (s.leaveSrc n).startUp = s.startUp := by simp [leaveSrc]
@[simp] theorem intcComplete_startUp (s : State) (n : Fin 4) (k : Nat) : (s.intcComplete n k).startUp = s.startUp := by
  unfold intcComplete
  split <;> simp
@[simp] theorem intcPset_startUp (s : State) (w : Nat) (v : Word) : (s.intcPset w v).startUp = s.startUp := by
  simp [intcPset]
@[simp] theorem intcPclr_startUp (s : State) (w : Nat) (v : Word) : (s.intcPclr w v).startUp = s.startUp := by
  simp [intcPclr]
@[simp] theorem intcEnable_startUp (s : State) (target : Fin 5) (w : Nat) (v : Word) :
    (s.intcEnable target w v).startUp = s.startUp := by simp [intcEnable]
@[simp] theorem intcPri_startUp (s : State) (w : Nat) (v : Word) : (s.intcPri w v).startUp = s.startUp := by simp [intcPri]
@[simp] theorem intcWrite_startUp (s : State) (a : Nat) (w : Word) : ((s.intcWrite a w).getD s).startUp = s.startUp := by
  unfold intcWrite
  extract_lets o n p
  clear_value o n p
  repeat' split
  all_goals simp

/-! ### Flt -/

@[simp] theorem modUnit_startUp (s : State) (u : Nat) (f : FltUnit → FltUnit) : (s.modUnit u f).startUp = s.startUp := by
  simp [modUnit]
@[simp] theorem fltFlag_startUp (s : State) (b : BitVec 8) : (s.fltFlag b).startUp = s.startUp := by simp [fltFlag]
@[simp] theorem meUnfence_startUp (s : State) : s.meUnfence.startUp = s.startUp := by simp [meUnfence]
@[simp] theorem supCopy_startUp (s : State) : s.supCopy.startUp = s.startUp := by simp [supCopy]
@[simp] theorem supStep_startUp (s : State) (u : Nat) : (s.supStep u).startUp = s.startUp := by
  unfold supStep
  split <;> simp
@[simp] theorem liftUnit_startUp (s : State) (u : Nat) : (s.liftUnit u).startUp = s.startUp := by
  unfold liftUnit
  split <;> simp
@[simp] theorem cmdFence_startUp (s : State) (kind index : Nat) : (s.cmdFence kind index).startUp = s.startUp := by
  simp [cmdFence]
@[simp] theorem cmdReadmit_startUp (s : State) (kind index : Nat) : (s.cmdReadmit kind index).startUp = s.startUp := by
  simp [cmdReadmit]
@[simp] theorem cmdClrlog_startUp (s : State) : s.cmdClrlog.startUp = s.startUp := by simp [cmdClrlog]
@[simp] theorem clearLogfull_startUp (s : State) : s.clearLogfull.startUp = s.startUp := by simp [clearLogfull]
@[simp] theorem writeFltCmd_startUp (s : State) (w : Word) : (s.writeFltCmd w).startUp = s.startUp := by
  unfold writeFltCmd
  split <;> simp
@[simp] theorem fltWrite_startUp (s : State) (a : Nat) (w : Word) : ((s.fltWrite a w).getD s).startUp = s.startUp := by
  unfold fltWrite
  dsimp only
  repeat' split
  all_goals simp
@[simp] theorem fltParkEntry_startUp (s : State) : s.fltParkEntry.startUp = s.startUp := by simp [fltParkEntry]

/-! ### Power -/

@[simp] theorem queueFail_startUp (s : State) (e : HpEntry) (cause : Nat) : (s.queueFail e cause).startUp = s.startUp := by
  unfold queueFail
  split <;> simp
@[simp] theorem discardQueue_startUp (s : State) (p : HpEntry → Bool) (cause : Nat) :
    (s.discardQueue p cause).startUp = s.startUp := by simp [discardQueue]
@[simp] theorem intcRestore_startUp (s : State) : s.intcRestore.startUp = s.startUp := by rfl
@[simp] theorem stopTraffic_startUp (s : State) (cancel fail : Nat) : (s.stopTraffic cancel fail).startUp = s.startUp := by
  simp [stopTraffic]
@[simp] theorem parkEntry_startUp (s : State) (off : Bool) : (s.parkEntry off).startUp = s.startUp := by simp [parkEntry]
@[simp] theorem pwrPark_startUp (s : State) (key : Nat) (off : Bool) : (s.pwrPark key off).startUp = s.startUp := by
  simp [pwrPark]
@[simp] theorem pwrClkrec_startUp (s : State) (key : Nat) : (s.pwrClkrec key).startUp = s.startUp := by simp [pwrClkrec]
@[simp] theorem parkWake_startUp (s : State) : s.parkWake.startUp = s.startUp := by simp [parkWake]
@[simp] theorem wakeLatch_startUp (s : State) (src : BitVec 10) : (s.wakeLatch src).startUp = s.startUp := by
  unfold wakeLatch
  extract_lets u v
  have hu : u.startUp = s.startUp := by simp [u]
  split
  · exact hu
  · have hv : v.startUp = s.startUp := (modCyc_startUp ..).trans hu
    split
    · exact (modPwr_startUp rfl).trans hv
    · exact (parkWake_startUp v).trans hv
    · exact hv
@[simp] theorem rtcSecWrite_startUp (s : State) (w : Word) : (s.rtcSecWrite w).startUp = s.startUp := by simp [rtcSecWrite]
@[simp] theorem alarmWrite_startUp (s : State) (w : Word) : (s.alarmWrite w).startUp = s.startUp := by simp [alarmWrite]

/-! ### Upd -/

@[simp] theorem updFlag_startUp (s : State) (b : BitVec 7) : (s.updFlag b).startUp = s.startUp := by simp [updFlag]
@[simp] theorem flashErase_startUp (s : State) (o n : Nat) : (s.flashErase o n).startUp = s.startUp := by rfl
@[simp] theorem writeBootRec_startUp (s : State) (b : BootRec) : (s.writeBootRec b).startUp = s.startUp := by
  simp [writeBootRec]
@[simp] theorem writeProgress_startUp (s : State) (st target : Nat) : (s.writeProgress st target).startUp = s.startUp := by
  simp [writeProgress]
@[simp] theorem setUpd_startUp (s : State) (st : UpdState) : (s.setUpd st).startUp = s.startUp := by simp [setUpd]
@[simp] theorem updError_startUp (s : State) (code inner block : Nat) :
    (s.updError code inner block).startUp = s.startUp := by simp [updError]
@[simp] theorem updData_startUp (s : State) (c : Fin 256) (w : Word) : (s.updData c w).startUp = s.startUp := by
  simp [updData]
@[simp] theorem updBegin_startUp (s : State) (c : Fin 256) : (s.updBegin c).startUp = s.startUp := by simp [updBegin]
@[simp] theorem updBlock_startUp (s : State) (c : Fin 256) (n : Nat) : (s.updBlock c n).startUp = s.startUp := by
  simp [updBlock]
@[simp] theorem doAbort_startUp (s : State) : s.doAbort.startUp = s.startUp := by simp [doAbort]
@[simp] theorem updEnd_startUp (s : State) (c : Fin 256) : (s.updEnd c).startUp = s.startUp := by simp [updEnd]
@[simp] theorem updAbort_startUp (s : State) (c : Fin 256) : (s.updAbort c).startUp = s.startUp := by simp [updAbort]
@[simp] theorem updConfirm_startUp (s : State) : s.updConfirm.startUp = s.startUp := by simp [updConfirm]
@[simp] theorem setNode_startUp (s : State) (l : Fin 4) (r : Nat) : (s.setNode l r).startUp = s.startUp := by simp [setNode]
@[simp] theorem sendNode_startUp (s : State) (l : Fin 4) (req : Bool) (payload : List Byte) :
    (s.sendNode l req payload).startUp = s.startUp := by simp [sendNode]
@[simp] theorem campSend_startUp (s : State) : s.campSend.startUp = s.startUp := by
  unfold campSend
  dsimp only
  repeat' split
  all_goals simp
@[simp] theorem campDone_startUp (s : State) (ok : Bool) : (s.campDone ok).startUp = s.startUp := by simp [campDone]
@[simp] theorem campNext_startUp (fuel l : Nat) (s : State) : (campNext fuel l s).startUp = s.startUp := by
  induction fuel generalizing l s with
  | zero => simp [campNext]
  | succ n ih => simp [campNext, ih]
@[simp] theorem campStart_startUp (s : State) (from_ : Nat) : (s.campStart from_).startUp = s.startUp := by simp [campStart]

/-! ### Regs -/

@[simp] theorem releaseGrove_startUp (s : State) (g : Fin 8) : (s.releaseGrove g).startUp = s.startUp := by
  simp [releaseGrove]
@[simp] theorem grvCmd_startUp (s : State) (g : Fin 8) (w : Word) : (s.grvCmd g w).startUp = s.startUp := by simp [grvCmd]
@[simp] theorem setSw_startUp (s : State) (n : Fin 64) : (s.setSw n).startUp = s.startUp := by simp [setSw]
@[simp] theorem grvClrcmd_startUp (s : State) (g : Fin 8) (w : Word) : (s.grvClrcmd g w).startUp = s.startUp := by
  simp [grvClrcmd]
@[simp] theorem grvWrite_startUp (s : State) (g : Fin 8) (o : Nat) (w : Word) :
    ((s.grvWrite g o w).getD s).startUp = s.startUp := by
  unfold grvWrite
  split <;> simp
@[simp] theorem ovrClr_startUp (s : State) (n : Fin 64) : (s.ovrClr n).startUp = s.startUp := by simp [ovrClr]
@[simp] theorem chCmd_startUp (s : State) (n : Fin 64) (w : Word) : (s.chCmd n w).startUp = s.startUp := by simp [chCmd]
@[simp] theorem chOcmd_startUp (s : State) (n : Fin 64) (w : Word) : (s.chOcmd n w).startUp = s.startUp := by simp [chOcmd]
@[simp] theorem eqArg_startUp (s : State) (n : Fin 64) (p : Path) (w : Word) : (s.eqArg n p w).startUp = s.startUp := by
  simp [eqArg]
@[simp] theorem eqPush_startUp (s : State) (n : Fin 64) (p : Path) (w : Word) : (s.eqPush n p w).startUp = s.startUp := by
  simp [eqPush]
@[simp] theorem eqShd_startUp (s : State) (n : Fin 64) (p : Path) (w : Word) : (s.eqShd n p w).startUp = s.startUp := by
  simp [eqShd]
@[simp] theorem chWrite_startUp (s : State) (p : Path) (n : Fin 64) (o : Nat) (w : Word) :
    ((s.chWrite p n o w).getD s).startUp = s.startUp := by
  unfold chWrite
  split
  · dsimp only
    rw [Option.getD_some, startUp_ite, writeMatLo_startUp, writeMatHi_startUp, ite_self]
  · split
    case h_11 => rw [Option.getD_some, writeReloadHi_startUp]
    all_goals simp
@[simp] theorem adWheel_startUp (s : State) (d : Fin 3) (old new : Word) (put : AngleDom → AngleDom) :
    (s.adWheel d old new put).startUp = s.startUp := by simp [adWheel]
@[simp] theorem adCmd_startUp (s : State) (d : Fin 3) (w : Word) : (s.adCmd d w).startUp = s.startUp := by simp [adCmd]
@[simp] theorem adWrite_startUp (s : State) (d : Fin 3) (o : Nat) (w : Word) :
    ((s.adWrite d o w).getD s).startUp = s.startUp := by
  unfold adWrite
  dsimp only
  repeat' split
  all_goals simp
@[simp] theorem plWrite_startUp (s : State) (i : Fin 2) (o : Nat) (w : Word) :
    ((s.plWrite i o w).getD s).startUp = s.startUp := by
  unfold plWrite
  split <;> simp
@[simp] theorem ttWrite_startUp (s : State) (a : Nat) (w : Word) : ((s.ttWrite a w).getD s).startUp = s.startUp := by
  unfold ttWrite
  split <;> simp
@[simp] theorem meWrite_startUp (s : State) (a : Nat) (w : Word) : ((s.meWrite a w).getD s).startUp = s.startUp := by
  unfold meWrite
  repeat' split
  all_goals simp
@[simp] theorem calWrite_startUp (s : State) (c : Fin 256) (a : Nat) (w : Word) :
    (s.calWrite c a w).startUp = s.startUp := by simp [calWrite]
@[simp] theorem hpRegWrite_startUp (s : State) (a : Nat) (w : Word) : ((s.hpRegWrite a w).getD s).startUp = s.startUp := by
  unfold hpRegWrite
  split <;> simp
@[simp] theorem scWrite_startUp (s : State) (p : Path) (c : Fin 256) (a : Nat) (w : Word) :
    ((s.scWrite p c a w).getD s).startUp = s.startUp := by
  unfold scWrite
  split
  · rw [Option.getD_some, recordWrite_startUp]
  · split <;> simp
@[simp] theorem winWrite_startUp (s : State) (c : Fin 256) (a : Nat) (w : Word) :
    ((s.winWrite c a w).getD s).startUp = s.startUp := by
  unfold winWrite
  split
  · exact bufCmd_startUp ..
  all_goals rfl

end State

/-! ## A register write, short of a reset -/

/-- From s to t the start-up registers and PD2–PD7 are as they were, unless a reset put PD2–PD7 in reset. -/
def KeepsStartUp (s t : State) : Prop := t.pwr.pdUp = false ∨ t.startUp = s.startUp

namespace KeepsStartUp

theorem of_eq {s t : State} (h : t.startUp = s.startUp) : KeepsStartUp s t := .inr h
theorem of_down {s t : State} (h : t.pwr.pdUp = false) : KeepsStartUp s t := .inl h
theorem trans {s t u : State} (h : KeepsStartUp s t) (k : KeepsStartUp t u) : KeepsStartUp s u := by
  rcases k with k | k
  · exact .inl k
  · rcases h with h | h
    · exact .inl ((State.pdUp_of_startUp k).trans h)
    · exact .inr (k.trans h)
theorem ite {s t u : State} {c : Prop} [Decidable c] (h : KeepsStartUp s t) (k : KeepsStartUp s u) :
    KeepsStartUp s (if c then t else u) := by split <;> assumption
theorem of_none {s : State} : KeepsStartUp s (none.getD s) := .inr rfl
theorem of_some {s t : State} (h : t.startUp = s.startUp) : KeepsStartUp s ((some t).getD s) := .inr h
theorem of_map {α : Type} {s : State} {o : Option α} : KeepsStartUp s ((o.map fun _ => s).getD s) :=
  .inr (by rw [State.map_const_getD])
theorem getD_ite {s : State} {a b : Option State} {c : Prop} [Decidable c] (h : KeepsStartUp s (a.getD s))
    (k : KeepsStartUp s (b.getD s)) : KeepsStartUp s ((if c then a else b).getD s) := by split <;> assumption
theorem foldl {α : Type} {f : State → α → State} (h : ∀ s a, KeepsStartUp s (f s a)) (l : List α) (s : State) :
    KeepsStartUp s (l.foldl f s) := by
  induction l generalizing s with
  | nil => exact .of_eq rfl
  | cons a l ih => exact (h s a).trans (ih _)

end KeepsStartUp

namespace State

theorem resetBy_pdUp (s : State) (cause : Fin 16) : (s.resetBy cause).pwr.pdUp = false := by rfl
theorem canopyPor_pdUp (s : State) : s.canopyPor.pwr.pdUp = false := by rfl
theorem resetWith_pdUp (s : State) (cause : Fin 16) (also : Nat) : (s.resetWith cause also).pwr.pdUp = false := by
  unfold resetWith
  split
  · exact canopyPor_pdUp s
  · split <;> exact resetBy_pdUp ..

theorem pwrReset_keepsStartUp (s : State) (key also : Nat) : KeepsStartUp s (s.pwrReset key also) :=
  .ite (.of_eq (modPwr_startUp rfl)) (.of_down (resetWith_pdUp ..))
theorem writePwrCmd_keepsStartUp (s : State) (w : Word) : KeepsStartUp s (s.writePwrCmd w) := by
  unfold writePwrCmd
  dsimp only
  split
  case h_3 => exact pwrReset_keepsStartUp ..
  all_goals exact .of_eq (by simp)
theorem pwrWrite_keepsStartUp (s : State) (a : Nat) (w : Word) : KeepsStartUp s ((s.pwrWrite a w).getD s) := by
  unfold pwrWrite
  split
  case h_1 => exact writePwrCmd_keepsStartUp s w
  all_goals exact .of_eq (by simp)

theorem updActivate_keepsStartUp (s : State) (c : Fin 256) : KeepsStartUp s (s.updActivate c) := by
  unfold updActivate
  dsimp only
  split
  · exact .of_eq (updFlag_startUp ..)
  · split
    · exact .of_eq (updError_startUp ..)
    · split
      · exact .ite (.of_down (resetBy_pdUp ..)) (.of_down (resetBy_pdUp ..))
      · split
        · exact .ite (.of_down (resetBy_pdUp ..)) (.of_eq (by simp))
        · exact .of_eq (campStart_startUp ..)
theorem updRun_keepsStartUp (s : State) (c : Fin 256) (op n : Nat) : KeepsStartUp s (s.updRun c op n) := by
  unfold updRun
  split
  case h_4 => exact updActivate_keepsStartUp s c
  all_goals exact .of_eq (by simp)
theorem updCmd_keepsStartUp (s : State) (c : Fin 256) (op n : Nat) : KeepsStartUp s (s.updCmd c op n) :=
  .ite (.of_eq (modUpd_startUp ..)) (updRun_keepsStartUp ..)
theorem writeUpdCmd_keepsStartUp (s : State) (c : Fin 256) (w : Word) : KeepsStartUp s (s.writeUpdCmd c w) := by
  unfold writeUpdCmd
  split
  case h_6 => exact .of_eq (updConfirm_startUp s)
  case h_7 => exact .of_eq (by simp)
  all_goals exact updCmd_keepsStartUp ..
theorem updWrite_keepsStartUp (s : State) (c : Fin 256) (a : Nat) (w : Word) :
    KeepsStartUp s ((s.updWrite c a w).getD s) := by
  unfold updWrite
  split
  case h_2 => exact writeUpdCmd_keepsStartUp s c w
  all_goals exact .of_eq (by simp)

theorem blockWrite_keepsStartUp (s : State) (p : Path) (c : Fin 256) (a : Nat) (w : Word) :
    KeepsStartUp s ((s.blockWrite p c a w).getD s) := by
  unfold blockWrite
  refine .getD_ite (pwrWrite_keepsStartUp ..) ?_
  refine .getD_ite (.of_eq (intcWrite_startUp ..)) ?_
  refine .getD_ite (.of_eq (grvWrite_startUp ..)) ?_
  refine .getD_ite (.of_none) ?_
  refine .getD_ite (.of_eq (chWrite_startUp ..)) ?_
  refine .getD_ite (.of_eq (adWrite_startUp ..)) ?_
  refine .getD_ite (.of_eq (plWrite_startUp ..)) ?_
  refine .getD_ite (.of_none) ?_
  refine .getD_ite (.of_eq (ttWrite_startUp ..)) ?_
  refine .getD_ite (.of_eq (meWrite_startUp ..)) ?_
  refine .getD_ite (.of_eq (psWrite_startUp ..)) ?_
  refine .getD_ite (.of_map) ?_
  refine .getD_ite (.of_eq (afeWrite_startUp ..)) ?_
  refine .getD_ite (.of_eq (memRegWrite_startUp ..)) ?_
  refine .getD_ite (.of_eq (dmaRegWrite_startUp ..)) ?_
  refine .getD_ite (.of_eq (hpRegWrite_startUp ..)) ?_
  refine .getD_ite (.of_eq (smbWrite_startUp ..)) ?_
  refine .getD_ite (.of_eq (packWrite_startUp ..)) ?_
  refine .getD_ite (.of_eq (mspWrite_startUp ..)) ?_
  refine .getD_ite (.of_none) ?_
  refine .getD_ite (.of_eq (hlWrite_startUp ..)) ?_
  refine .getD_ite (.of_eq (tsiWrite_startUp ..)) ?_
  refine .getD_ite (.of_eq (pmWrite_startUp ..)) ?_
  refine .getD_ite (.of_eq (rsRegWrite_startUp ..)) ?_
  refine .getD_ite (updWrite_keepsStartUp ..) ?_
  refine .getD_ite (.of_eq (fltWrite_startUp ..)) ?_
  refine .getD_ite (.of_none) ?_
  refine .getD_ite (.of_eq (scWrite_startUp ..)) ?_
  refine .getD_ite (.of_eq (winWrite_startUp ..)) ?_
  refine .getD_ite (.of_none) ?_
  refine .getD_ite (.of_some (calWrite_startUp ..)) ?_
  refine .getD_ite (.of_none) ?_
  refine .getD_ite (.of_eq (tsiWrite_startUp ..)) ?_
  exact .of_none

/-- Undoing writes to lockable registers leaves the start-up registers alone, unless a write resets the device. -/
theorem undoRwl_keepsStartUp (s : State) : KeepsStartUp s s.undoRwl :=
  .foldl (fun _ _ => blockWrite_keepsStartUp ..) _ _

end State

/-! ## The lock -/

namespace State

/-- The lock sets LOCK and RUNNING and nothing else of the start-up registers, where it is due and nothing resets the device. -/
theorem lockConfig_boot (s : State) :
    s.lockConfig.pwr.pdUp = false ∨ s.lockConfig.boot = s.boot ∨
      s.lockConfig.boot = { s.boot with locked := true, st := .running } := by
  unfold lockConfig
  split
  · have hf : ∀ u : State, (foldFin 8 (fun g s => if bit s.boot.startMask g.val then s.releaseGrove g else s) u).startUp =
        u.startUp := fun u => by simp
    dsimp only
    rw [boot_of_startUp (hf _), pdUp_of_startUp (hf _), modBoot_boot, modBoot_pwr]
    rcases undoRwl_keepsStartUp s with h | h
    · exact .inl h
    · exact .inr (.inr (by rw [boot_of_startUp h]))
  · exact .inr (.inl rfl)

/-! ## What the supervisor loads at a start -/

@[simp] theorem rsRead_startUp (s : State) (type index : Nat) : (s.rsRead type index).2.startUp = s.startUp := by
  simp [rsRead]
@[simp] theorem loadLog_startUp (s : State) (bytes : List Byte) : (s.loadLog bytes).startUp = s.startUp := by simp [loadLog]
@[simp] theorem pmLoad_startUp (s : State) (day life : Option (List Byte)) (hist : List (List Byte)) :
    (s.pmLoad day life hist).startUp = s.startUp := by
  unfold pmLoad
  extract_lets u v
  have hv : v.startUp = s.startUp := by
    unfold v
    split <;> simp [u]
  split
  · exact hv
  · simp [hv]
@[simp] theorem freshSecond_startUp (s : State) : s.freshSecond.startUp = s.startUp := by simp [freshSecond]

/-- A fold that carries a value beside the state. -/
theorem foldl_snd_startUp {α β : Type} {f : α × State → β → α × State} (h : ∀ x b, (f x b).2.startUp = x.2.startUp)
    (l : List β) (x : α × State) : (l.foldl f x).2.startUp = x.2.startUp := by
  induction l generalizing x with
  | nil => rfl
  | cons b l ih => exact (ih _).trans (h x b)

@[simp] theorem firmwareStart_startUp (s : State) : s.firmwareStart.startUp = s.startUp := by
  unfold firmwareStart
  extract_lets log u days day life v
  have hu : u.startUp = s.startUp := by
    unfold u
    split <;> simp [log]
  clear_value u
  have hdays : days.2.startUp = u.startUp := by
    unfold days
    refine (foldl_snd_startUp ?_ _ _).trans rfl
    intro x i
    exact rsRead_startUp x.2 0x10 (i + 1)
  clear_value days
  simp [v, life, day, hdays, hu]

end State

/-! ## The ends of the start sequence -/

/-- How a start sequence ends: without a bundle, without a configuration, with the configuration applied at the time given,
or, where a group of the record commands a reset, with PD2–PD7 in reset. -/
def StartEnded (tApply : Word) (t : State) : Prop :=
  t.boot.st = .noBundle ∨ t.boot.st = .noConfig ∨ t.pwr.pdUp = false ∨
    ((t.boot.st = .running ∨ t.boot.st = .unlocked) ∧ t.boot.applied = true ∧ t.boot.tApply = tApply)

theorem StartEnded.of_startUp {tApply : Word} {s t : State} (h : StartEnded tApply s) (k : t.startUp = s.startUp) :
    StartEnded tApply t := by
  unfold StartEnded
  rwa [State.boot_of_startUp k, State.pdUp_of_startUp k]

namespace State

theorem stopLoader_boot (s : State) (st : BootState) : (s.stopLoader st).boot = { s.boot with st := st } := by
  unfold stopLoader
  split <;> rfl

/-- The record's groups are applied and the configuration locks or waits for its lock, or a group has commanded a reset. -/
theorem applyCopy_ended (s : State) (c : Bool) (tApply : Word) : StartEnded tApply (s.applyCopy c tApply) := by
  unfold applyCopy
  extract_lets r ws u v x now y z
  split
  · next hx => exact .inr (.inr (.inl (by simpa using hx)))
  · refine .of_startUp (s := z) ?_ (by simp)
    have hy : y.boot = { x.boot with applied := true, tApply := tApply, st := .unlocked, lockAt := y.boot.lockAt } := rfl
    unfold z
    split
    · exact .inr (.inr (.inr ⟨.inr (by rw [hy]), by rw [hy], by rw [hy]⟩))
    · rcases lockConfig_boot y with h | h | h
      · exact .inr (.inr (.inl h))
      · exact .inr (.inr (.inr (by rw [h, hy]; exact ⟨.inr rfl, rfl, rfl⟩)))
      · exact .inr (.inr (.inr (by rw [h, hy]; exact ⟨.inl rfl, rfl, rfl⟩)))

end State

/-! ## The clock at the start -/

namespace State

theorem only_rstRise (s : State) : OnlyChanges [.pins] s s.rstRise := only_modPins s _

theorem only_free (s : State) : OnlyChanges [.freeCtr] s s.free.2 := by
  intro p hp; cases p <;> first | rfl | exact absurd (List.mem_singleton.2 rfl) hp

theorem only_calibrated (s : State) : OnlyChanges [.afe, .freeCtr] s s.calibrated := by
  have step : ∀ (u : State) (f : Afe → Afe), OnlyChanges [.afe, .freeCtr] u (u.free.2.modAfe f) := fun u f =>
    ((only_free u).trans (only_modAfe _ f)).mono (by decide)
  refine (((only_free s).mono (by decide)).both ?_).both ((only_modAfe _ _).mono (by decide))
  exact OnlyChanges.foldl (fun u t => step u _) _ _

theorem calibrated_tbs (s : State) : s.calibrated.tbs = s.tbs := only_calibrated s .tbs (by decide)

theorem pllLocked_eq {s : State} (hl : s.boot.st = .loading) (hu : s.pwr.pd1Up = true) (hp : s.pwr.pllLock = false) :
    s.pllLocked = (s.modPwr fun p => { p with pllLock := true, coreOnRc := false, refOk := true }).modTbs fun t =>
      { t with run := true } := by
  simp [pllLocked, hl, hu, hp]

theorem only_pllLocked (s : State) : OnlyChanges [.pwr, .tbs] s s.pllLocked :=
  .ite (.refl _ _) ((only_modPwr s _).trans (only_modTbs _ _))

theorem only_bootClock (s : State) (tApply tLock : Word) :
    OnlyChanges [.pwr, .tbs, .afe, .freeCtr, .time] s (s.bootClock tApply tLock) := by
  refine .ite (.refl _ _) ?_
  have ht : ∀ (u : State) (n : Nat), OnlyChanges [.time] u { u with time := n } := fun u n p hp => by
    cases p <;> first | rfl | exact absurd (List.mem_singleton.2 rfl) hp
  exact ((((only_pllLocked s).trans (only_modTbs _ _)).trans (only_calibrated _)).trans (ht _ _)).mono (by decide)

/-- Where the PLL has not locked before, TB counts from the lock to the end of the sequence (log 11). -/
theorem bootClock_tbs {s : State} (tApply tLock : Word) (hl : s.boot.st = .loading) (hu : s.pwr.pd1Up = true)
    (hp : s.pwr.pllLock = false) :
    (s.bootClock tApply tLock).tbs = { s.tbs with run := true, tb := .ofNat 48 (200 * (tApply.toNat - tLock.toNat)) } := by
  unfold bootClock
  rw [if_neg (by simp [hp]), pllLocked_eq hl hu hp]
  dsimp only
  rw [calibrated_tbs]
  rfl

theorem only_rsScan (s : State) (bad : List Nat) : OnlyChanges [.rs] s (s.rsScan bad) :=
  .ite (.refl _ _) (only_modRs s _)

theorem only_stopLoader (s : State) (st : BootState) : OnlyChanges [.boot, .svc] s (s.stopLoader st) :=
  .ite ((only_modBoot s _).trans (only_modSvc _ _)) ((only_modBoot s _).mono (by decide))

/-- The state in which the loader reads the flash: RST_N is high, the clock runs, the record store's scan has ended, and the
loader has read the OTP. -/
def loaderReady (s : State) (tApply tLock : Word) : State :=
  let u := (s.rstRise.bootClock tApply tLock).rsScan []
  u.modBoot fun b => { b with open_ := decide (u.otp.fleetHash = 0) }

/-- What the loader finds wrong with the flash: no identity, its parameter block, or its size (02 R36–R39); 0 when nothing. -/
def flashError (s : State) : Nat :=
  if s.xf.size = 0 then 0x24
  else if lpbError (s.flashRead 0 32) ≠ 0 then lpbError (s.flashRead 0 32)
  else if s.xf.size < field (s.flashRead 0 32) 0x0C 1 * 1048576 then 0x25
  else 0

/-- The loader stops at a flash error `err`, having tried the plain read command. -/
def stopAtFlash (s : State) (err : Nat) : State :=
  (({ s with xf := { s.xf with readCmd := 0x03, dummy := 0, issued := [0x9F, 0x5A, 0x03] } } : State).modBoot fun b =>
    { b with loaderErr := .ofNat 8 err }).stopLoader .noBundle

theorem only_loaderReady (s : State) (tApply tLock : Word) :
    OnlyChanges [.pins, .pwr, .tbs, .afe, .freeCtr, .time, .rs, .boot] s (s.loaderReady tApply tLock) :=
  ((((only_rstRise s).trans (only_bootClock _ tApply tLock)).trans (only_rsScan _ [])).trans
    (only_modBoot _ _)).mono (by decide)

theorem loaderReady_xf (s : State) (tApply tLock : Word) : (s.loaderReady tApply tLock).xf = s.xf :=
  only_loaderReady s tApply tLock .xf (by decide)

theorem loaderReady_tbs {s : State} (tApply tLock : Word) (hl : s.boot.st = .loading) (hu : s.pwr.pd1Up = true)
    (hp : s.pwr.pllLock = false) :
    (s.loaderReady tApply tLock).tbs = { s.tbs with run := true, tb := .ofNat 48 (200 * (tApply.toNat - tLock.toNat)) } :=
  (only_rsScan _ [] .tbs (by decide)).trans (bootClock_tbs (s := s.rstRise) tApply tLock hl hu hp)

theorem only_stopAtFlash (s : State) (err : Nat) : OnlyChanges [.xf, .boot, .svc] s (s.stopAtFlash err) := by
  have hx : ∀ f, OnlyChanges [.xf] s { s with xf := f } := fun f p hp => by
    cases p <;> first | rfl | exact absurd (List.mem_singleton.2 rfl) hp
  exact (((hx _).trans (only_modBoot _ _)).trans (only_stopLoader _ _)).mono (by decide)

theorem stopAtFlash_boot (s : State) (err : Nat) :
    (s.stopAtFlash err).boot = { s.boot with loaderErr := .ofNat 8 err, st := .noBundle } := stopLoader_boot _ _

theorem stopAtFlash_rom (s : State) (err : Nat) : (s.stopAtFlash err).svc.rom = true := by rfl

/-- The sequence from the bundle on: it ends in NO_BUNDLE, in NO_CONFIG, or with a configuration copy applied. -/
def bootFrom (s : State) (tApply : Word) (stuck : Bool) : State :=
  let b := (s.chooseRead (s.flashRead 0 32)).bootBundle stuck
  if !b.1 then b.2.stopLoader .noBundle
  else
    match b.2.chooseCopy.1 with
    | none => (b.2.chooseCopy.2.stopLoader .noConfig).firmwareStart
    | some k =>
      let t := b.2.chooseCopy.2.applyCopy k tApply
      if t.boot.applied then t.firmwareStart else t

theorem bootFrom_ended (s : State) (tApply : Word) (stuck : Bool) : StartEnded tApply (s.bootFrom tApply stuck) := by
  unfold bootFrom
  extract_lets b
  split
  · exact .inl (by rw [stopLoader_boot])
  · split
    · exact .of_startUp (.inr (.inl (by rw [stopLoader_boot]))) (firmwareStart_startUp _)
    · next k _ =>
      extract_lets t
      have ht : StartEnded tApply t := applyCopy_ended ..
      split
      · exact ht.of_startUp (firmwareStart_startUp t)
      · exact ht

theorem startSequence_eq {s : State} (tApply tLock : Word) (stuck : Bool) (hl : s.boot.st = .loading)
    (hu : s.pwr.pd1Up = true) (hv : s.pwr.vioGood = true) :
    s.startSequence tApply tLock stuck =
      if (s.loaderReady tApply tLock).flashError = 0 then (s.loaderReady tApply tLock).bootFrom tApply stuck
      else (s.loaderReady tApply tLock).stopAtFlash (s.loaderReady tApply tLock).flashError := by
  rw [← ite_not]
  unfold startSequence
  rw [if_neg (by simp [hl, hu, hv])]
  rfl

theorem startSequence_ended {s : State} (tApply tLock : Word) (stuck : Bool) (hl : s.boot.st = .loading)
    (hu : s.pwr.pd1Up = true) (hv : s.pwr.vioGood = true) : StartEnded tApply (s.startSequence tApply tLock stuck) := by
  rw [startSequence_eq tApply tLock stuck hl hu hv]
  split
  · exact bootFrom_ended ..
  · exact .inl (by rw [stopAtFlash_boot])

theorem flashError_of_noFlash {s : State} (h : s.xf.size = 0) : s.flashError = 0x24 := if_pos h

theorem startSequence_noFlash {s : State} (tApply tLock : Word) (stuck : Bool) (hl : s.boot.st = .loading)
    (hu : s.pwr.pd1Up = true) (hv : s.pwr.vioGood = true) (hx : s.xf.size = 0) :
    s.startSequence tApply tLock stuck = (s.loaderReady tApply tLock).stopAtFlash 0x24 := by
  rw [startSequence_eq tApply tLock stuck hl hu hv,
    flashError_of_noFlash ((congrArg Flash.size (loaderReady_xf s tApply tLock)).trans hx), if_neg (by decide)]

end State

/-- Settles O10: the two events of the PLL, then the sequence by its cases: a flash error, or the ends of the boot. -/
theorem startSequenceEnds : Obligations.StartSequenceEnds := by
  unfold Obligations.StartSequenceEnds
  intro s tApply tLock stuck hl hu
  refine ⟨fun hp => ?_, fun hp => ?_, fun hv => ⟨s.startSequence tApply tLock stuck, rfl, ?_⟩⟩
  · refine ⟨s.pllLocked, rfl, ?_, State.only_pllLocked s⟩
    rw [State.pllLocked_eq hl hu hp]
    exact ⟨rfl, rfl⟩
  · refine ⟨s.pllTimeout, rfl, ?_, .ite (.refl _ _) (State.only_modBoot s _)⟩
    simp [State.pllTimeout, hl, hu, hp, State.modBoot_boot]
  · refine ⟨State.startSequence_ended tApply tLock stuck hl hu hv, fun hx => ?_, fun hx hp => ?_⟩
    · rw [State.startSequence_noFlash tApply tLock stuck hl hu hv hx]
      have hb := State.stopAtFlash_boot (s.loaderReady tApply tLock) 0x24
      refine ⟨by rw [hb], by rw [hb]; rfl, State.stopAtFlash_rom _ _, fun p hp => ?_⟩
      exact ((State.only_loaderReady s tApply tLock).trans (State.only_stopAtFlash _ _)) p (by revert p; decide)
    · rw [State.startSequence_noFlash tApply tLock stuck hl hu hv hx]
      have ht := (State.only_stopAtFlash (s.loaderReady tApply tLock) 0x24 .tbs (by decide)).trans
        (State.loaderReady_tbs tApply tLock hl hu hp)
      exact ⟨congrArg Timebase.tb ht, congrArg Timebase.run ht⟩

end Sys2Proof.Machine
end

section
/-!
PROOFS. Frames: the parts of the state that the operations shared by PARK entry, a lift of fences and a write of RTC_SEC change.
-/
namespace Sys2Proof.Machine

theorem OnlyChanges.foldFin {n : Nat} {ps : List Part} {f : Fin n → State → State}
    (h : ∀ a s, OnlyChanges ps s (f a s)) (s : State) : OnlyChanges ps s (foldFin n f s) :=
  .foldl (fun s a => h a s) _ s

namespace State
variable (s : State)

/-! ## Frames of the operations that a clock set, a lift and PARK entry share -/

theorem only_modClient (c : Fin 256) (f : ClientRec → ClientRec) : OnlyChanges [.sc] s (s.modClient c f) := only_modSc _ _
theorem only_post (rank : Nat) (c : Fin 256) (type : Nat) (crit : Bool) (info : Nat) (w1 w2 w3 : Word) :
    OnlyChanges [.sc] s (s.post rank c type crit info w1 w2 w3) := (only_modClient _ _ _).both (only_modSc _ _)
theorem only_postAll (rank : Nat) (cs : List (Fin 256)) (type : Nat) (crit : Bool) (info : Nat) (w1 w2 w3 : Word) :
    OnlyChanges [.sc] s (s.postAll rank cs type crit info w1 w2 w3) := .foldl (fun _ _ => only_post _ _ _ _ _ _ _ _ _) _ _
theorem only_scFlag (b : BitVec 6) : OnlyChanges [.sc] s (s.scFlag b) := (only_modSc _ _).both (only_hwSet _ _ _ _)
theorem only_hpFlag (b : BitVec 5) : OnlyChanges [.hp] s (s.hpFlag b) := (only_modHp _ _).both (only_hwSet _ _ _ _)
theorem only_memFlag (b : BitVec 7) : OnlyChanges [.mem] s (s.memFlag b) := (only_modMem _ _).both (only_hwSet _ _ _ _)
theorem only_ttFlag (b : BitVec 5) : OnlyChanges [.tt] s (s.ttFlag b) := (only_modTt _ _).both (only_hwSet _ _ _ _)
theorem only_raiseTsi (b : BitVec 16) : OnlyChanges [.tsi, .tt] s (s.raiseTsi b) := by
  have h : OnlyChanges [.tsi, .tt] s
      ((s.modTsi fun t => { t with ev := (s.tsi.ev.set b).1 }).hwSet 0xA80C (b.setWidth 32)) :=
    ((only_modTsi _ _).both (only_hwSet _ _ _ _)).mono (by decide)
  exact .ite (h.both ((only_request _ _ _).mono (by decide))) h
theorem only_fltBack (u : Nat) : OnlyChanges [.flt] s (s.fltBack u) := only_modFlt _ _
theorem only_modUnit (u : Nat) (f : FltUnit → FltUnit) : OnlyChanges [.flt] s (s.modUnit u f) := only_modFlt _ _

/-! ### Channels and angle domains -/

theorem only_settlePair (n : Fin 64) : OnlyChanges [.chans] s (s.settlePair n) := (only_modOut _ _ _).both (only_modOut _ _ _)
theorem only_setCause (n : Fin 64) (b : BitVec 11) : OnlyChanges [.chans] s (s.setCause n b) :=
  (only_modOut _ _ _).both (only_settlePair _ _)
theorem only_clearCause (n : Fin 64) (b : BitVec 11) : OnlyChanges [.chans] s (s.clearCause n b) :=
  (only_modOut _ _ _).both (only_settlePair _ _)
theorem only_unfenceChan (n : Fin 64) (by_ : BitVec 4) : OnlyChanges [.chans] s (s.unfenceChan n by_) := by
  unfold unfenceChan
  refine .ite (.refl _ _) ?_
  extract_lets u f v
  have hv : OnlyChanges [.chans] s v := (only_modOut _ _ _).both (.ite (only_modChan _ _ _) (.refl _ _))
  exact .ite (hv.both ((only_setCause _ _ _).both (only_clearCause _ _ _))) hv
theorem only_unfenceGrove (g : Fin 8) : OnlyChanges [.chans] s (s.unfenceGrove g) :=
  .foldl (fun _ _ => only_unfenceChan _ _ _) _ _
theorem only_releaseHolds (s0 : State) : OnlyChanges [.ads] s (releaseHolds s0 s) :=
  .foldFin (fun _ _ => .ite (only_modAd _ _ _) (.refl _ _)) _
theorem only_unfenceAd (d : Fin 3) : OnlyChanges [.ads] s (s.unfenceAd d) := (only_modAd _ _ _).both (only_releaseHolds _ _)

/-! ### The calendar's cancels -/

theorem only_setCal (h : Nat) (e : CalEntry) : OnlyChanges [.tt] s (s.setCal h e) := only_modTt _ _
theorem only_freeEntry (h : Nat) : OnlyChanges [.tt] s (s.freeEntry h) := only_setCal _ _ _

/-- What a discard of the pending requests changes: the sources' event registers, and the Timetable. -/
theorem only_dropAllRequests : OnlyChanges [.chans, .ads, .ps, .tsi, .afe, .tt] s s.dropAllRequests := by
  unfold dropAllRequests
  refine .both (.foldl (fun t r => ?_) _ _) ((only_modTt _ _).mono (by decide))
  cases r.src with
  | chan n => exact (only_modChan _ _ _).mono (by decide)
  | dom d => exact (only_modAd _ _ _).mono (by decide)
  | ps e => exact (only_modEng _ _ _).mono (by decide)
  | iv => exact (only_modTsi _ _).mono (by decide)
  | adc k => exact (only_modAdc _ _ _).mono (by decide)

/-- A bulk cancel in its stages: the entries go, the requests and the sweeps go, the owners are told, and BULK is set. -/
theorem bulkCancel_stages (reason : Nat) : ∃ t u, OnlyChanges [.tt] s t ∧
    OnlyChanges [.sc] (t.dropAllRequests.modTt fun x => { x with sweeps := .replicate 3 none }) u ∧
    s.bulkCancel reason = u.ttFlag tBULK :=
  ⟨_, _, .foldl (fun _ _ => only_freeEntry _ _) _ _,
    .foldFin (fun _ _ => .ite (.refl _ _) (only_post _ _ _ _ _ _ _ _ _)) _, rfl⟩

theorem only_bulkCancel (reason : Nat) :
    OnlyChanges [.chans, .ads, .ps, .tsi, .afe, .tt, .sc] s (s.bulkCancel reason) := by
  obtain ⟨t, u, ht, hu, h⟩ := s.bulkCancel_stages reason
  rw [h]
  exact ((((ht.trans t.only_dropAllRequests).trans (only_modTt _ _)).trans hu).trans (only_ttFlag _ _)).mono (by decide)

/-! ### The Seating Chart's requests and restores -/

theorem only_setBuf (i : Fin 256) (f : BufRec → BufRec) : OnlyChanges [.sc] s (s.setBuf i f) := only_modSc _ _
theorem only_dropMessage (l : Fin 4) (i : Fin 256) : OnlyChanges [.hl] s (s.dropMessage l i) := only_modLink _ _ _
theorem only_dropRequestOf (q : OpenReq) : OnlyChanges [.hl, .sc] s (s.dropRequestOf q) :=
  (((only_dropMessage _ _ _).trans (only_setBuf _ _ _)).trans (only_modSc _ _)).mono (by decide)
theorem only_failRequests (reason : Nat) : OnlyChanges [.hl, .sc] s (s.failRequests reason) :=
  .foldl (fun _ _ => (only_dropRequestOf _ _).both ((only_post _ _ _ _ _ _ _ _ _).mono (by decide))) _ _
theorem only_countDrop (c : Fin 256) : OnlyChanges [.sc] s (s.countDrop c) :=
  ((only_modClient _ _ _).both (only_scFlag _ _)).both (.ite (only_modClient _ _ _) (only_modClient _ _ _))
theorem only_dropEvent (c : Fin 256) (p : Event → Bool) : OnlyChanges [.sc] s (s.dropEvent c p) := only_modClient _ _ _
theorem only_admitEvent (c : Fin 256) (e : Event) : OnlyChanges [.sc] s (s.admitEvent c e) := by
  have replaced : ∀ p, OnlyChanges [.sc] s (((s.dropEvent c p).countDrop c).modClient c fun r =>
      { r with queue := r.queue ++ [e] }) := fun p =>
    ((only_dropEvent _ _ _).both (only_countDrop _ _)).both (only_modClient _ _ _)
  exact .ite (only_modClient _ _ _) (.ite (only_modClient _ _ _) (.ite (replaced _)
    (.ite (only_countDrop _ _) (.ite (replaced _) (only_countDrop _ _)))))
theorem only_noteRec (c : Fin 256) (ps : List Part) : OnlyChanges ps s (s.noteRec c) := .ite (.refl _ _) (only_modCyc _ _ _)
theorem only_restoreClient (c : Fin 256) : OnlyChanges [.sc, .hl, .chans, .flt] s (s.restoreClient c) := by
  unfold restoreClient
  extract_lets was cause late u v w r x y e
  have hu : OnlyChanges [.sc] s u := (only_modSc _ _).both (only_modCyc _ _ _)
  have hv : OnlyChanges [.sc, .hl] u v := .foldl (fun _ _ =>
    ((OnlyChanges.foldFin (fun _ _ => only_dropMessage _ _ _) _).trans (only_setBuf _ _ _)).mono (by decide)) _ _
  have hx : OnlyChanges [.chans] w x := .foldFin (fun _ _ => .ite (only_unfenceChan _ _ _) (.refl _ _)) _
  exact ((((((hu.trans hv).trans (only_modClient _ _ _)).trans hx).trans (only_fltBack _ _)).trans
    (only_modClient _ _ _)).trans (only_admitEvent _ _ _)).mono (by decide)
theorem only_restoreCmd (c : Fin 256) : OnlyChanges [.sc, .hl, .chans, .flt] s (s.restoreCmd c) :=
  .ite ((only_noteRec _ _ _).both (only_restoreClient _ _)) (.refl _ _)

/-! ### The blocks a lift returns -/

theorem only_packKick : OnlyChanges [.pack, .smb] s s.packKick := by
  unfold packKick
  split
  · exact .refl _ _
  · split
    · exact .ite (((only_modPack _ _).trans (only_modSmb _ _ _)).mono (by decide)) (.refl _ _)
    · exact .refl _ _
theorem only_packGo (t : PackStep) : OnlyChanges [.pack, .smb] s (s.packGo t) :=
  ((only_modPack _ _).mono (by decide)).both (only_packKick _)
theorem only_packStart : OnlyChanges [.pack, .smb] s s.packStart := ((only_modPack _ _).mono (by decide)).both (only_packGo _ _)
theorem only_packTrigger : OnlyChanges [.pack, .smb] s s.packTrigger :=
  .ite (.refl _ _) (.ite ((only_modPack _ _).mono (by decide)) (only_packStart _))
theorem only_smbLifted (k : Fin 2) : OnlyChanges [.smb, .flt, .pack] s (s.smbLifted k) := by
  have h : OnlyChanges [.smb, .flt, .pack] s
      ((s.modSmb k fun x => { x with fenced := false, fails := 0 }).fltBack (unitKey 10 k.val)) :=
    ((only_modSmb _ _ _).trans (only_fltBack _ _)).mono (by decide)
  exact .ite (h.both ((only_packTrigger _).mono (by decide))) h
theorem only_smbCheck (k : Fin 2) : OnlyChanges [.smb] s (s.smbCheck k) := only_modSmb _ _ _
theorem only_unfenceSmb (k : Fin 2) : OnlyChanges [.smb, .flt, .pack] s (s.unfenceSmb k) :=
  (only_smbLifted _ _).both (.ite ((only_smbCheck _ _).mono (by decide)) (.refl _ _))
theorem only_unfenceAdc (a : Fin 2) : OnlyChanges [.afe] s (s.unfenceAdc a) := only_modAdc _ _ _
theorem only_unfenceLink (l : Fin 4) : OnlyChanges [.hl] s (s.unfenceLink l) := only_modLink _ _ _
theorem only_unfencePs (e : Fin 8) : OnlyChanges [.ps] s (s.unfencePs e) := only_modEng _ _ _
theorem only_testAbandon (b : Fin 8) : OnlyChanges [.mem] s (s.testAbandon b) := only_modBank _ _ _
theorem only_readmit (b : Fin 8) : OnlyChanges [.mem] s (s.readmit b) := .ite (only_modBank _ _ _) (only_memFlag _ _)
theorem only_tsiCopy (c : Fin 256) : OnlyChanges [.tsi, .tt] s (s.tsiCopy c) :=
  .ite (only_raiseTsi _ _) ((only_modTsi _ _).mono (by decide))
theorem only_meUnfence : OnlyChanges [.chans, .ads, .ps, .tsi, .afe, .tt, .sc, .me] s s.meUnfence := by
  unfold meUnfence
  extract_lets u v
  have hu : OnlyChanges [.chans, .ads, .ps, .tsi, .afe, .tt, .sc, .me] s u :=
    .ite (.refl _ _) ((only_bulkCancel _ _).mono (by decide))
  have hv : OnlyChanges [.me] u v := only_modMe _ _
  exact ((hu.trans hv).trans (.foldFin (fun _ _ => only_unfenceChan _ _ _) _)).mono (by decide)

end State

/-- The parts a lift of FLT fences can change. -/
def liftParts : List Part := [.chans, .ads, .tt, .me, .ps, .afe, .sc, .mem, .hl, .tsi, .smb, .pack, .flt]

namespace State
variable (s : State)

theorem only_liftUnit (u : Nat) : OnlyChanges liftParts s (s.liftUnit u) := by
  unfold liftUnit
  extract_lets i ret t
  have ht : OnlyChanges liftParts s t := (only_modUnit _ _ _).mono (by decide)
  refine ht.both ?_
  split
  · exact (only_unfenceChan _ _ _).mono (by decide)
  · exact (only_unfenceGrove _ _).mono (by decide)
  · exact (only_unfenceAd _ _).mono (by decide)
  · exact (only_meUnfence _).mono (by decide)
  · exact (only_unfencePs _ _).mono (by decide)
  · exact ((only_unfenceAdc _ _).trans (only_fltBack _ _)).mono (by decide)
  · exact (only_unfenceLink _ _).mono (by decide)
  · exact (only_unfenceSmb _ _).mono (by decide)
  · exact .refl _ _

theorem only_supStep (u : Nat) : OnlyChanges liftParts s (s.supStep u) := by
  unfold supStep
  dsimp only
  split
  · exact ((only_modFlt _ _).mono (by decide)).both (.ite ((only_tsiCopy _ _).mono (by decide)) (.refl _ _))
  · exact .ite ((only_readmit _ _).mono (by decide)) (.refl _ _)
  · exact (only_restoreCmd _ _).mono (by decide)
  · exact .refl _ _

theorem only_fltParkEntry : OnlyChanges liftParts s s.fltParkEntry := by
  refine .foldl (fun t p => ?_) _ _
  extract_lets free u v w
  have hu : OnlyChanges liftParts t u := (only_modUnit _ _ _).mono (by decide)
  have hv : OnlyChanges liftParts u v := .foldl (fun _ _ => only_liftUnit _ _) _ _
  have hw : OnlyChanges liftParts v w := (only_modFlt _ _).mono (by decide)
  exact ((hu.both hv).both hw).both (.ite (.refl _ _) (.foldl (fun _ _ => only_supStep _ _) _ _))

/-! ### The host port's queue -/

theorem only_queueFail (e : HpEntry) (cause : Nat) : OnlyChanges [.hp, .hl] s (s.queueFail e cause) := by
  unfold queueFail
  extract_lets t
  have ht : OnlyChanges [.hp, .hl] s t := ((only_hpFlag _ _).both (only_modHp _ _)).mono (by decide)
  refine ht.both ?_
  split
  · exact (only_modHp _ _).mono (by decide)
  · exact (only_modLink _ _ _).mono (by decide)
  · exact .refl _ _
theorem only_discardQueue (p : HpEntry → Bool) (cause : Nat) : OnlyChanges [.hp, .hl] s (s.discardQueue p cause) :=
  ((only_modHp _ _).mono (by decide)).both (.foldl (fun _ _ => only_queueFail _ _ _) _ _)

/-! ### The performance bins -/

theorem only_pmFlag (b : BitVec 5) : OnlyChanges [.pm] s (s.pmFlag b) := (only_modPm _ _).both (only_hwSet _ _ _ _)
theorem only_setView (i : Fin 5) (b : Bin) : OnlyChanges [.pm] s (s.setView i b) := only_modPm _ _
theorem only_rsEnqueue (type index : Nat) (data : List Byte) : OnlyChanges [.rs] s (s.rsEnqueue type index data) := only_modRs _ _
theorem only_writeLife : OnlyChanges [.rs, .pm] s s.writeLife := (only_rsEnqueue _ _ _ _).trans (only_modPm _ _)
theorem only_storeLog : OnlyChanges [.rs, .flt] s s.storeLog := (only_rsEnqueue _ _ _ _).trans (only_modFlt _ _)
theorem only_close15 (extra : BitVec 8) : OnlyChanges [.pm, .rs, .flt] s (s.close15 extra) := by
  unfold close15
  extract_lets b u v w
  have hw : OnlyChanges [.pm, .rs, .flt] s w :=
    (((((only_modPm _ _).both (only_pmFlag _ _)).both (only_setView _ _ _)).trans (only_rsEnqueue _ _ _ _)).trans
      (only_writeLife _)).mono (by decide)
  exact .ite (hw.both ((only_storeLog _).mono (by decide))) hw
theorem only_closeDay (extra : BitVec 8) : OnlyChanges [.pm, .rs, .flt] s (s.closeDay extra) :=
  ((((only_modPm _ _).both (only_pmFlag _ _)).both (only_setView _ _ _)).trans (only_rsEnqueue _ _ _ _)).mono (by decide)
theorem only_open15 (start : Nat) : OnlyChanges [.pm, .rs, .flt] s (s.open15 start) := (only_modPm _ _).mono (by decide)
theorem only_openDay (start : Nat) : OnlyChanges [.pm, .rs, .flt] s (s.openDay start) := (only_modPm _ _).mono (by decide)
theorem only_rollBins (d : DoneSecond) : OnlyChanges [.pm, .rs, .flt] s (s.rollBins d) := by
  have hpm : ∀ (t : State) f, OnlyChanges [.pm, .rs, .flt] t (t.modPm f) := fun t f => (only_modPm t f).mono (by decide)
  have next15 : ∀ (t : State) f n, OnlyChanges [.pm, .rs, .flt] t (((t.close15 0).modPm f).open15 n) := fun t f n =>
    ((only_close15 t 0).both (hpm _ f)).both (only_open15 _ n)
  have nextDay : ∀ (t : State) f n, OnlyChanges [.pm, .rs, .flt] t (((t.closeDay 0).modPm f).openDay n) := fun t f n =>
    ((only_closeDay t 0).both (hpm _ f)).both (only_openDay _ n)
  unfold rollBins
  extract_lets i15 iDay c15 cDay t15 n15 u tDay nDay v
  have hu : OnlyChanges [.pm, .rs, .flt] s u := .ite (only_open15 s i15) (.ite (next15 s _ i15) (.refl _ s))
  have hv : OnlyChanges [.pm, .rs, .flt] u v := .ite (only_openDay u iDay) (.ite (nextDay u _ iDay) (.refl _ u))
  exact (hu.both hv).both (hpm v _)
theorem only_tcaLink (l : Fin 4) : OnlyChanges [.pm, .sc] s (s.tcaLink l) := by
  unfold tcaLink
  extract_lets es ses tes tses alert u
  have halert : ∀ (t : State) f k c, OnlyChanges [.pm, .sc] t (alert (t.modPm f) k c) := fun t f k c =>
    (((only_modPm _ _).both (only_pmFlag _ _)).trans (only_postAll _ _ _ _ _ _ _ _ _)).mono (by decide)
  have hu : OnlyChanges [.pm, .sc] s u := .ite (halert _ _ _ _) (.refl _ _)
  exact .ite (hu.both (halert _ _ _ _)) hu
theorem only_placeSecond (d : DoneSecond) : OnlyChanges [.pm, .rs, .flt, .sc] s (s.placeSecond d) := by
  unfold placeSecond
  extract_lets u v w x
  have hu : OnlyChanges [.pm, .rs, .flt] s u := .ite (only_rollBins _ _) (.refl _ _)
  have hv : OnlyChanges [.pm] u v := only_modPm _ _
  have hw : OnlyChanges [.pm, .sc] v w := .foldFin (fun _ _ => only_tcaLink _ _) _
  have hx : OnlyChanges [.pm, .rs, .flt] w x := .ite ((only_close15 _ _).both (only_open15 _ _)) (.refl _ _)
  have hy := OnlyChanges.ite (c := x.pm.openDay = true ∧ x.pm.curDay.start.toNat + 86399 = d.at_)
    ((only_closeDay x 0).both (only_openDay _ (d.at_ + 1))) (.refl _ x)
  exact ((((hu.trans hv).trans hw).trans hx).trans hy).mono (by decide)
theorem only_pmClockSet : OnlyChanges [.pm, .rs, .flt, .sc, .hl] s s.pmClockSet := by
  unfold pmClockSet
  extract_lets u v w x
  have hu : OnlyChanges [.pm, .rs, .flt, .sc] s u :=
    ((only_modPm _ _).mono (by decide)).both (.foldl (fun _ _ => only_placeSecond _ _) _ _)
  have hv : OnlyChanges [.pm, .rs, .flt] u v := .ite (only_close15 _ _) (.refl _ _)
  have hw : OnlyChanges [.pm, .rs, .flt] v w := .ite (only_closeDay _ _) (.refl _ _)
  have hx : OnlyChanges [.hl] w x := .foldFin (fun _ _ => only_modLink _ _ _) _
  exact (((((hu.trans hv).trans hw).trans hx).trans (only_modPm _ _)).trans (only_pmFlag _ _)).mono (by decide)

end State
end Sys2Proof.Machine
end

section
/-!
PROOFS. The wake and the Canopy's events (03 R87–R95, R107–R109): the retention's restore (O13), the latches (O15).
-/
namespace Sys2Proof.Machine
namespace State

/-! ## The wake latch -/

/-- The wake conditions `src` are latched in PWR_WAKE_SRC: the part of `wakeLatch` that every power state has. -/
def latched (s : State) (src : BitVec 10) : State :=
  (s.modCanopy fun c => { c with wakeSrc := c.wakeSrc ||| src }).hwSet 0x410 (src.setWidth 32)

/-- The mark of a cycle in which an enabled condition was latched. -/
def woken (s : State) (src : BitVec 10) : State := (s.latched src).modCyc fun c => { c with woke := true }

theorem wakeLatch_eq (s : State) (src : BitVec 10) :
    s.wakeLatch src =
      if src &&& s.canopy.wakeEn = 0 then s.latched src
      else if s.pwr.st = .entering then (s.woken src).modPwr fun p => { p with wakeEntry := true }
      else if s.pwr.st = .park then (s.woken src).parkWake
      else s.woken src := by
  by_cases h : src &&& s.canopy.wakeEn = 0
  · rw [if_pos h]
    exact if_pos h
  · rw [if_neg h]
    refine (if_neg h).trans ?_
    split
    · next hst => exact (if_pos hst).symm
    · next hst =>
      have hst : s.pwr.st = .park := hst
      exact ((if_neg (by rw [hst]; decide)).trans (if_pos hst)).symm
    · next he hp => exact ((if_neg he).trans (if_neg hp)).symm

theorem wakeLatch_park {s : State} {src : BitVec 10} (hst : s.pwr.st = .park) (h : src &&& s.canopy.wakeEn ≠ 0) :
    s.wakeLatch src = (s.woken src).parkWake := by
  rw [wakeLatch_eq, if_neg h, if_neg (by simp [hst]), if_pos hst]

theorem only_latched (s : State) (src : BitVec 10) : OnlyChanges [.canopy] s (s.latched src) :=
  (only_modCanopy _ _).both (only_hwSet _ _ _ _)
theorem only_woken (s : State) (src : BitVec 10) : OnlyChanges [.canopy] s (s.woken src) :=
  (only_latched s src).both (only_modCyc _ _ _)

theorem latched_canopy (s : State) (src : BitVec 10) :
    (s.latched src).canopy = { s.canopy with wakeSrc := s.canopy.wakeSrc ||| src } := rfl
theorem woken_canopy (s : State) (src : BitVec 10) :
    (s.woken src).canopy = { s.canopy with wakeSrc := s.canopy.wakeSrc ||| src } := rfl

/-- Outside PARK and its entry a wake condition is latched and nothing else happens (03 R88). -/
theorem wakeLatch_outsidePark {s : State} (src : BitVec 10) (hp : s.pwr.st ≠ .park) (he : s.pwr.st ≠ .entering) :
    (s.wakeLatch src).canopy = { s.canopy with wakeSrc := s.canopy.wakeSrc ||| src } ∧
      OnlyChanges [.canopy] s (s.wakeLatch src) := by
  rw [wakeLatch_eq, if_neg he, if_neg hp]
  split
  · exact ⟨rfl, only_latched s src⟩
  · exact ⟨rfl, only_woken s src⟩

theorem only_intcRestore (s : State) : OnlyChanges [.canopy, .intc] s s.intcRestore := by
  intro p hp; cases p <;> first | rfl | exact absurd (by decide) hp
theorem only_parkWake (s : State) : OnlyChanges [.canopy, .pwr, .intc, .pins, .flt, .upd] s s.parkWake :=
  (((((only_modPwr _ _).trans (only_intcRestore _)).trans (only_modPins _ _)).trans (only_modFlt _ _)).trans
    (only_modUpd _ _)).mono (by decide)
theorem parkWake_canopy (s : State) : s.parkWake.canopy = { s.canopy with retValid := false, catch_ := 0 } := rfl
theorem parkWake_pend (s : State) : s.parkWake.intc.pend = s.canopy.retPend ||| s.canopy.catch_ := rfl

theorem only_wakeLatch (s : State) (src : BitVec 10) :
    OnlyChanges [.canopy, .pwr, .intc, .pins, .flt, .upd] s (s.wakeLatch src) := by
  rw [wakeLatch_eq]
  have hw := (only_woken s src).mono (qs := [.canopy, .pwr, .intc, .pins, .flt, .upd]) (by decide)
  exact .ite ((only_latched s src).mono (by decide)) (.ite (hw.both ((only_modPwr _ _).mono (by decide)))
    (.ite (hw.both (only_parkWake _)) hw))

/-- Of the Canopy a wake condition changes PWR_WAKE_SRC, and, where it ends PARK, the saved interrupt state. -/
theorem wakeLatch_canopy (s : State) (src : BitVec 10) : ∃ valid caught, (s.wakeLatch src).canopy =
    { s.canopy with wakeSrc := s.canopy.wakeSrc ||| src, retValid := valid, catch_ := caught } := by
  rw [wakeLatch_eq]
  split
  · exact ⟨_, _, latched_canopy s src⟩
  · split
    · exact ⟨_, _, woken_canopy s src⟩
    · split
      · exact ⟨_, _, parkWake_canopy _⟩
      · exact ⟨_, _, woken_canopy s src⟩

/-- A wake condition that is latched under a condition `c`. -/
theorem ite_wakeLatch_canopy (s : State) (c : Prop) [Decidable c] (src : BitVec 10) : ∃ valid caught,
    (if c then s.wakeLatch src else s).canopy =
      { s.canopy with wakeSrc := if c then s.canopy.wakeSrc ||| src else s.canopy.wakeSrc, retValid := valid,
                      catch_ := caught } := by
  split
  · exact wakeLatch_canopy s src
  · exact ⟨_, _, rfl⟩

/-! ## The restore of the interrupt controller -/

/-- A wake from commanded OFF whose saved state is valid, in a cycle without another reset (03 R87, R94). -/
theorem wakeFromOff_eq {s : State} (hst : s.pwr.st = .off) (hv : s.pwr.vioGood = true)
    (hw : s.canopy.wakeSrc &&& s.canopy.wakeEn ≠ 0) (hr : s.canopy.retValid = true) (hc : s.cyc.reset = none) :
    s.wakeFromOff =
      ((s.resetPd.modCanopy fun c => { c with cause := 4 }).modCyc fun c => { c with reset := some 4 }).intcRestore := by
  have hm : s.metCause 4 = 4 := by simp [metCause, hc]
  unfold wakeFromOff
  rw [if_neg (by simpa [hst, hv] using hw), hm]
  exact if_pos hr

/-- A wake latched during PARK entry turns the entry back: the save is restored at once (03 R95). -/
theorem parkComplete_turnedBack {s : State} (hst : s.pwr.st = .entering) (ho : s.rs.op = false)
    (hw : s.pwr.wakeEntry = true) (hf : s.pwr.faultEntry = false) :
    s.parkComplete = (s.intcSave.intcRestore).modPwr fun p => { p with st := .exiting, wakeEntry := false } := by
  have h1 : s.intcSave.pwr = s.pwr := rfl
  unfold parkComplete
  rw [if_neg (by simp [hst, ho])]
  dsimp only
  rw [if_pos (by simp [h1, hw, hf])]

/-- While PD1 is down the Canopy catches a source that becomes pending (03 R91). -/
theorem intcPend_caught {s : State} {n : Fin 192} (hd : s.pwr.pd1Up = false) (hl : s.lineOf n.val = true)
    (hr : reservedSrc n.val = false) :
    s.intcPend n = s.modCanopy fun c => { c with catch_ := c.catch_ ||| oneBit 192 n.val } := by
  simp [intcPend, hd, hl, hr]

end State

/-- Settles O13: each restore is `intcRestore` of the saved state, and the catch is the one path while PD1 is down. -/
theorem retentionRestoresPending : Obligations.RetentionRestoresPending := by
  unfold Obligations.RetentionRestoresPending
  intro s src n
  refine ⟨fun hst hw => ?_, fun hst hv hw hr hc => ?_, fun hst ho hw hf => ?_, fun hd hl hr => ?_⟩
  · refine ⟨s.wakeLatch src, rfl, ?_, s.only_wakeLatch src⟩
    rw [State.wakeLatch_park hst hw]
    exact ⟨rfl, rfl, rfl, rfl, rfl⟩
  · refine ⟨s.wakeFromOff, rfl, ?_⟩
    rw [State.wakeFromOff_eq hst hv hw hr hc]
    exact ⟨rfl, rfl, rfl, rfl, rfl, rfl⟩
  · refine ⟨s.parkComplete, rfl, ?_⟩
    rw [State.parkComplete_turnedBack hst ho hw hf]
    exact ⟨⟨rfl, rfl, rfl⟩, (((State.only_modCanopy _ _).trans (State.only_intcRestore _)).trans
      (State.only_modPwr _ _)).mono (by decide)⟩
  · refine ⟨s.intcPend n, rfl, ?_⟩
    rw [State.intcPend_caught hd hl hr]
    exact ⟨rfl, State.only_modCanopy _ _⟩

namespace State

/-! ## The real-time clock -/

theorem rtcSub_of_secondStart {s : State} (h : s.canopy.secAt = s.time) : s.rtcSub = 0 := by simp [rtcSub, h]

theorem alarmPassed_iff (s : State) (a b : Word) :
    s.alarmPassed a b = true ↔ a.toNat < s.canopy.rtcAlarm.toNat ∧ s.canopy.rtcAlarm.toNat ≤ b.toNat := by
  simp [alarmPassed]

/-- A second passes: RTC_SEC counts, and the alarm may fire (03 R108). -/
theorem rtcTick_canopy (s : State) : ∃ valid caught, s.rtcTick.canopy =
    { s.canopy with
      rtcSec := s.canopy.rtcSec + 1, secAt := s.time, retValid := valid, catch_ := caught
      wakeSrc := if s.alarmPassed s.canopy.rtcSec (s.canopy.rtcSec + 1) = true then s.canopy.wakeSrc ||| 0x080
        else s.canopy.wakeSrc } :=
  ite_wakeLatch_canopy (s.modCanopy fun c => { c with rtcSec := c.rtcSec + 1, secAt := s.time }) _ _

theorem only_rtcTick (s : State) : OnlyChanges [.canopy, .pwr, .intc, .pins, .flt, .upd] s s.rtcTick :=
  ((only_modCanopy s _).mono (by decide)).both (.ite (only_wakeLatch _ _) (.refl _ _))

/-- A write of RTC_SEC: the count is set and valid, and the alarm may fire (03 R108). -/
theorem rtcSecWrite_canopy (s : State) (w : Word) : ∃ valid caught, (s.rtcSecWrite w).canopy =
    { s.canopy with
      rtcSec := w, secAt := s.time, rtcValid := true, retValid := valid, catch_ := caught
      wakeSrc := if s.alarmPassed s.canopy.rtcSec w = true then s.canopy.wakeSrc ||| 0x080 else s.canopy.wakeSrc } := by
  let u := (s.modCanopy fun c => { c with rtcSec := w, secAt := s.time, rtcValid := true }).pmClockSet
  have hu : u.canopy = { s.canopy with rtcSec := w, secAt := s.time, rtcValid := true } :=
    only_pmClockSet _ .canopy (by decide)
  obtain ⟨valid, caught, h⟩ := u.ite_wakeLatch_canopy (s.alarmPassed s.canopy.rtcSec w = true) 0x080
  rw [hu] at h
  exact ⟨valid, caught, h⟩

theorem only_rtcSecWrite (s : State) (w : Word) :
    OnlyChanges [.canopy, .pwr, .intc, .pins, .upd, .sc, .hl, .flt, .pm, .rs] s (s.rtcSecWrite w) :=
  (((only_modCanopy s _).trans (only_pmClockSet _)).mono (by decide)).both
    (.ite ((only_wakeLatch _ _).mono (by decide)) (.refl _ _))

/-! ## The twins -/

/-- The level a twin leaves (10 R392). -/
def twinMoved (s : State) (k : Fin 4) : State := s.modCanopy fun c => { c with twinOut := c.twinOut ^^^ oneBit 4 k.val }

/-- An edge of twin k is counted. -/
def twinCounted (s : State) (k : Fin 4) : State :=
  (s.twinMoved k).modCanopy fun c =>
    { c with watchCount := s.canopy.watchCount + 1, twinAt := vset c.twinAt k fun _ => some s.time }

/-- The twin of SENS k is watched, and its level changes at `v` microvolts. -/
def twinMoves (s : State) (k : Fin 4) (v : Nat) : Bool :=
  s.canopy.watchMask.getLsbD k.val && (s.twinOf k v != s.canopy.twinOut.getLsbD k.val)

/-- Twin k counted an edge less than 125 µs ago. -/
def twinAgain (s : State) (k : Fin 4) : Bool := (at_ s.canopy.twinAt k).any fun t => decide (s.time < t + 25000)

theorem watchEdge_eq (s : State) (k : Fin 4) (v : Nat) :
    s.watchEdge k v =
      if s.twinMoves k v = false then s
      else if s.twinAgain k = true then s.twinMoved k
      else if s.canopy.watchCount + 1 = s.canopy.watchEdges.toNat then (s.twinCounted k).wakeLatch 0x040
      else s.twinCounted k := by
  have hm : (!bit s.canopy.watchMask k.val || s.twinOf k v == bit s.canopy.twinOut k.val) = !s.twinMoves k v := by
    simp [twinMoves, bit, bne]
  have ha : ((at_ s.canopy.twinAt k).any fun t => decide (s.time - t < 25000)) = s.twinAgain k := by
    refine congrArg (fun p => (at_ s.canopy.twinAt k).any p) (funext fun t => decide_eq_decide.2 ?_)
    omega
  by_cases h : s.twinMoves k v = false
  · rw [if_pos h]
    exact if_pos (by rw [hm, h]; rfl)
  · rw [if_neg h]
    refine (if_neg (by rw [hm]; simpa using h)).trans ?_
    rw [← ha]
    rfl

theorem watchEdge_still {s : State} {k : Fin 4} {v : Nat} (hm : s.twinMoves k v = false) : s.watchEdge k v = s := by
  rw [watchEdge_eq, if_pos hm]

theorem watchEdge_again {s : State} {k : Fin 4} {v : Nat} (hm : s.twinMoves k v = true) (ha : s.twinAgain k = true) :
    s.watchEdge k v = s.twinMoved k := by
  rw [watchEdge_eq, if_neg (by simp [hm]), if_pos ha]

theorem watchEdge_counts {s : State} {k : Fin 4} {v : Nat} (hm : s.twinMoves k v = true) (ha : s.twinAgain k = false) :
    s.watchEdge k v = if s.canopy.watchCount + 1 = s.canopy.watchEdges.toNat then (s.twinCounted k).wakeLatch 0x040
      else s.twinCounted k := by
  rw [watchEdge_eq, if_neg (by simp [hm]), if_neg (by simp [ha])]

theorem only_watchEdge (s : State) (k : Fin 4) (v : Nat) :
    OnlyChanges [.canopy, .pwr, .intc, .pins, .flt, .upd] s (s.watchEdge k v) := by
  have hm : OnlyChanges [.canopy, .pwr, .intc, .pins, .flt, .upd] s (s.twinMoved k) := (only_modCanopy _ _).mono (by decide)
  have hc : OnlyChanges [.canopy, .pwr, .intc, .pins, .flt, .upd] s (s.twinCounted k) :=
    hm.both ((only_modCanopy _ _).mono (by decide))
  rw [watchEdge_eq]
  exact .ite (.refl _ _) (.ite hm (.ite (hc.both (only_wakeLatch _ _)) hc))

/-! ## The tamper inputs -/

/-- A tamper event latches its bit, its time and its wake source (03 R109). -/
theorem tamperEvent_canopy (s : State) (n : Fin 2) : ∃ valid caught, (s.tamperEvent n).canopy =
    { s.canopy with
      tampEvt := s.canopy.tampEvt ||| oneBit 2 n.val, tampTime := s.canopy.rtcSec, retValid := valid, catch_ := caught
      wakeSrc := s.canopy.wakeSrc ||| oneBit 10 (8 + n.val) } := wakeLatch_canopy _ _

theorem only_tamperEvent (s : State) (n : Fin 2) :
    OnlyChanges [.canopy, .pwr, .intc, .pins, .flt, .upd] s (s.tamperEvent n) :=
  (((only_modCanopy _ _).both (only_hwSet _ _ _ _)).mono (by decide)).both (only_wakeLatch _ _)

end State

/-- Settles O15: each event is its own update of the Canopy, followed, where it fires, by the wake latch. -/
theorem canopyEventsLatch : Obligations.CanopyEventsLatch := by
  unfold Obligations.CanopyEventsLatch
  intro s k n src w v alarm moves again
  have halarm : ∀ a b, alarm a b =
      if s.alarmPassed a b = true then s.canopy.wakeSrc ||| 0x080 else s.canopy.wakeSrc := fun a b =>
    (ite_congr (propext (s.alarmPassed_iff a b)) (fun _ => rfl) fun _ => rfl).symm
  refine ⟨⟨s.rtcSecWrite w, rfl, ?_, s.only_rtcSecWrite w⟩, ⟨s.rtcTick, rfl, ?_, s.only_rtcTick⟩, fun hm ha => ?_,
    fun hm ha => ?_, fun hm => ?_, ⟨s.watchWindow, rfl, rfl, State.only_modCanopy _ _⟩,
    ⟨s.tamperEvent n, rfl, ?_, s.only_tamperEvent n⟩,
    fun hp he => ⟨s.wakeLatch src, rfl, State.wakeLatch_outsidePark src hp he⟩,
    ⟨s.lseFail, rfl, ⟨rfl, rfl⟩, ?_⟩, ⟨s.lseRecover, rfl, rfl, State.only_modPwr _ _⟩⟩
  · obtain ⟨valid, caught, h⟩ := s.rtcSecWrite_canopy w
    have ht : (s.rtcSecWrite w).time = s.time := s.only_rtcSecWrite w .time (by decide)
    exact ⟨by rw [h], State.rtcSub_of_secondStart (by rw [h, ht]), by rw [h], by rw [h, halarm]⟩
  · obtain ⟨valid, caught, h⟩ := s.rtcTick_canopy
    have ht : s.rtcTick.time = s.time := s.only_rtcTick .time (by decide)
    exact ⟨by rw [h], State.rtcSub_of_secondStart (by rw [h, ht]), by rw [h], by rw [h, halarm]⟩
  · refine ⟨s.watchEdge k v, rfl, ?_, s.only_watchEdge k v⟩
    rw [State.watchEdge_counts hm ha]
    obtain ⟨valid, caught, h⟩ := (s.twinCounted k).ite_wakeLatch_canopy
      (s.canopy.watchCount + 1 = s.canopy.watchEdges.toNat) 0x040
    rw [h]
    exact ⟨rfl, rfl⟩
  · refine ⟨s.watchEdge k v, rfl, ?_⟩
    rw [State.watchEdge_again hm ha]
    exact ⟨rfl, State.only_modCanopy _ _⟩
  · refine ⟨s.watchEdge k v, rfl, trivial, ?_⟩
    rw [State.watchEdge_still hm]
    exact .refl _ _
  · obtain ⟨valid, caught, h⟩ := s.tamperEvent_canopy n
    rw [h]
    exact ⟨rfl, rfl, rfl, rfl⟩
  · exact ((State.only_modCanopy _ _).both (State.only_hwSet _ _ _ _)).trans (State.only_modPwr _ _)

end Sys2Proof.Machine
end

section
/-!
PROOFS. PARK entry (03 R78, R114): what it leaves of the channels, requests and queues, and its guard (O12).
-/
namespace Sys2Proof.Machine

/-- A fold over all indices in which step i brings about Q i and no step ends any Q j ends with every Q j. -/
theorem foldFin_all {σ : Type} {n : Nat} {f : Fin n → σ → σ} {Q : Fin n → σ → Prop} (make : ∀ i s, Q i (f i s))
    (keep : ∀ i j s, Q j s → Q j (f i s)) (s : σ) (j : Fin n) : Q j (foldFin n f s) := by
  have hkeep : ∀ (l : List (Fin n)) (u : σ), Q j u → Q j (l.foldl (fun s i => f i s) u) := by
    intro l
    induction l with
    | nil => exact fun _ h => h
    | cons a l ih => exact fun u h => ih _ (keep a j u h)
  obtain ⟨as, bs, hl⟩ := List.append_of_mem (List.mem_finRange j)
  unfold foldFin
  rw [hl, List.foldl_append, List.foldl_cons]
  exact hkeep bs _ (make j _)

theorem OnlyChanges.chan {ps : List Part} {s t : State} (h : OnlyChanges ps s t) (hc : Part.chans ∉ ps) (n : Fin 64) :
    t.chan n = s.chan n := congrArg (fun v => at_ v n) (h .chans hc)

/-- The output is in Clearing for cause PARK (05 Table 5.4). -/
def Output.ParkClears (o : Output) : Prop := bit o.clr 8 = true ∧ o.inClr = true

/-- Cause PAIR put or taken leaves a Clearing for cause PARK. -/
theorem Output.ParkClears.pairCause {o : Output} (h : o.ParkClears) (b : Bool) :
    Output.ParkClears (if b then { o with clr := o.clr ||| cPAIR, inClr := true } else { o with clr := o.clr &&& ~~~cPAIR }) := by
  obtain ⟨hc, hi⟩ := h
  have hc' : o.clr.getLsbD 8 = true := hc
  cases b
  · exact ⟨by simp [bit, cPAIR, hc'], hi⟩
  · exact ⟨by simp [bit, hc'], rfl⟩

namespace State

/-! ## Clearing for cause PARK -/

theorem parkClears_modOut {s : State} {j : Fin 64} (h : (s.chan j).o.ParkClears) (n : Fin 64) {f : Output → Output}
    (hf : ∀ o : Output, o.ParkClears → (f o).ParkClears) : ((s.modOut n f).chan j).o.ParkClears := by
  rw [chan_modOut]
  split
  · next hn => exact hf _ (hn ▸ h)
  · exact h

theorem parkClears_settlePair {s : State} {j : Fin 64} (h : (s.chan j).o.ParkClears) (n : Fin 64) :
    ((s.settlePair n).chan j).o.ParkClears :=
  parkClears_modOut (parkClears_modOut h _ fun _ ho => ho.pairCause _) _ fun _ ho => ho.pairCause _

/-- Cause PARK set puts the output in Clearing for it. -/
theorem parkClears_put (o : Output) : Output.ParkClears { o with clr := o.clr ||| cPARK, inClr := true } :=
  ⟨by simp [bit, cPARK], rfl⟩

theorem parkClears_setCause_self (s : State) (n : Fin 64) : ((s.setCause n cPARK).chan n).o.ParkClears := by
  refine parkClears_settlePair ?_ n
  rw [chan_modOut, if_pos rfl]
  exact parkClears_put _

theorem parkClears_setCause {s : State} {j : Fin 64} (h : (s.chan j).o.ParkClears) (n : Fin 64) :
    ((s.setCause n cPARK).chan j).o.ParkClears :=
  parkClears_settlePair (parkClears_modOut h n fun o _ => parkClears_put o) n

theorem parkClears_all (s : State) (j : Fin 64) :
    ((foldFin 64 (fun n s => s.setCause n cPARK) s).chan j).o.ParkClears :=
  foldFin_all (Q := fun j s => (s.chan j).o.ParkClears) (fun i s => parkClears_setCause_self s i)
    (fun i _ _ h => parkClears_setCause h i) s j

/-! ## The end of the traffic -/

/-- A discard of the pending requests leaves the outputs alone. -/
theorem dropAllRequests_output (s : State) (n : Fin 64) : (s.dropAllRequests.chan n).o = (s.chan n).o := by
  unfold dropAllRequests
  dsimp only
  rw [chan_modTt]
  generalize s.tt.reqs = rs
  induction rs generalizing s with
  | nil => rfl
  | cons r rs ih =>
    rw [List.foldl_cons, ih]
    cases r.src with
    | chan k =>
      dsimp only
      rw [chan_modChan]
      split
      · next hk => rw [hk]
      · rfl
    | dom d => rfl
    | ps e => rfl
    | iv => rfl
    | adc k => rfl

theorem bulkCancel_output (s : State) (reason : Nat) (n : Fin 64) : ((s.bulkCancel reason).chan n).o = (s.chan n).o := by
  obtain ⟨t, u, ht, hu, h⟩ := s.bulkCancel_stages reason
  rw [h, (only_ttFlag u tBULK).chan (by decide), hu.chan (by decide), chan_modTt, dropAllRequests_output, ht.chan (by decide)]

theorem bulkCancel_reqs (s : State) (reason : Nat) : (s.bulkCancel reason).tt.reqs = [] := by
  obtain ⟨t, u, -, hu, h⟩ := s.bulkCancel_stages reason
  have hr : u.tt.reqs = [] := congrArg Timetable.reqs (hu .tt (by decide))
  rw [h]
  exact hr

/-- The requests close before the bulk cancel, and with them the interchange's swap and copy. -/
theorem stopTraffic_stages (s : State) (cancel fail : Nat) : ∃ t, OnlyChanges [.tsi, .hl, .sc] s t ∧
    s.stopTraffic cancel fail = t.bulkCancel cancel :=
  ⟨_, (only_modTsi s _).trans (only_failRequests _ fail), rfl⟩

theorem stopTraffic_output (s : State) (cancel fail : Nat) (n : Fin 64) :
    ((s.stopTraffic cancel fail).chan n).o = (s.chan n).o := by
  obtain ⟨t, ht, h⟩ := s.stopTraffic_stages cancel fail
  rw [h, bulkCancel_output, ht.chan (by decide)]

theorem stopTraffic_reqs (s : State) (cancel fail : Nat) : (s.stopTraffic cancel fail).tt.reqs = [] := bulkCancel_reqs _ _

theorem only_stopTraffic (s : State) (cancel fail : Nat) :
    OnlyChanges [.tsi, .hl, .sc, .chans, .ads, .ps, .afe, .tt] s (s.stopTraffic cancel fail) := by
  obtain ⟨t, ht, h⟩ := s.stopTraffic_stages cancel fail
  rw [h]
  exact (ht.trans (only_bulkCancel t cancel)).mono (by decide)

/-! ## The host port's queue -/

theorem queueFail_queue (s : State) (e : HpEntry) (cause : Nat) : (s.queueFail e cause).hp.queue = s.hp.queue := by
  unfold queueFail
  split <;> rfl

/-- A discard keeps the queued writes that it does not pick. -/
theorem discardQueue_queue (s : State) (p : HpEntry → Bool) (cause : Nat) :
    (s.discardQueue p cause).hp.queue = s.hp.queue.filter fun e => !p e := by
  have hfold : ∀ (l : List HpEntry) (t : State), (l.foldl (fun s e => s.queueFail e cause) t).hp.queue = t.hp.queue := by
    intro l
    induction l with
    | nil => exact fun _ => rfl
    | cons e l ih => exact fun t => (ih _).trans (queueFail_queue t e cause)
  exact hfold _ _

theorem discardQueue_all (s : State) (cause : Nat) : (s.discardQueue (fun _ => true) cause).hp.queue = [] := by
  rw [discardQueue_queue]
  simp

/-! ## PARK entry -/

/-- The entry noted in the power state (03 Table 3.4 step 1). -/
def parkNoted (s : State) (off : Bool) : State :=
  s.modPwr fun p => { p with st := .entering, toOff := off, tbPark := s.tb, faultEntry := false, wakeEntry := s.cyc.woke }

/-- PARK entry in its stages: TRANSIENT fences end, every channel enters Clearing, the engines stop, the traffic ends, domains
and testers give up, and the queued writes are discarded. -/
theorem parkEntry_stages (s : State) (off : Bool) : ∃ t u v, OnlyChanges liftParts (s.parkNoted off) t ∧
    OnlyChanges [.ps, .me] (foldFin 64 (fun n s => s.setCause n cPARK) t) u ∧
    OnlyChanges [.ads, .mem] (u.stopTraffic xPARK ePARK) v ∧ s.parkEntry off = v.discardQueue (fun _ => true) kPARK := by
  unfold parkEntry
  extract_lets now noted t clr eng u traffic ads v
  have hu : OnlyChanges [.ps, .me] clr u :=
    (OnlyChanges.foldFin (fun _ _ => only_modEng _ _ _) clr).trans (only_modMe eng _)
  have hv : OnlyChanges [.ads, .mem] traffic v :=
    (OnlyChanges.foldFin (fun _ _ => only_modAd _ _ _) traffic).trans (.foldFin (fun _ _ => only_testAbandon _ _) ads)
  exact ⟨t, u, v, only_fltParkEntry noted, hu, hv, rfl⟩

/-- The parts PARK entry can change. -/
def parkParts : List Part := .hp :: liftParts

theorem only_parkEntry (s : State) (off : Bool) : OnlyChanges parkParts (s.parkNoted off) (s.parkEntry off) := by
  obtain ⟨t, u, v, ht, hu, hv, h⟩ := s.parkEntry_stages off
  have hclr : OnlyChanges [.chans] t _ := .foldFin (fun n s => only_setCause s n cPARK) t
  rw [h]
  exact (((((ht.trans hclr).trans hu).trans (only_stopTraffic u _ _)).trans hv).trans (only_discardQueue v _ _)).mono (by decide)

theorem parkEntry_reqs (s : State) (off : Bool) : (s.parkEntry off).tt.reqs = [] := by
  obtain ⟨t, u, v, -, -, hv, h⟩ := s.parkEntry_stages off
  have hd : (v.discardQueue (fun _ => true) kPARK).tt = v.tt := only_discardQueue v _ _ .tt (by decide)
  have ht : v.tt = (u.stopTraffic xPARK ePARK).tt := hv .tt (by decide)
  rw [h, hd, ht, stopTraffic_reqs]

theorem parkEntry_queue (s : State) (off : Bool) : (s.parkEntry off).hp.queue = [] := by
  obtain ⟨t, u, v, -, -, -, h⟩ := s.parkEntry_stages off
  rw [h, discardQueue_all]

theorem parkEntry_clears (s : State) (off : Bool) (n : Fin 64) : ((s.parkEntry off).chan n).o.ParkClears := by
  obtain ⟨t, u, v, -, hu, hv, h⟩ := s.parkEntry_stages off
  rw [h, (only_discardQueue v _ _).chan (by decide), hv.chan (by decide), stopTraffic_output, hu.chan (by decide)]
  exact parkClears_all t n

/-! ## The guard (03 R78, R114, Table 3.12) -/

theorem pwrPark_accepted {s : State} {key : Nat} {off : Bool} (h : s.parkRefuse key = 0) :
    s.pwrPark key off = s.parkEntry off := if_pos h

theorem pwrPark_refused {s : State} {key r : Nat} {off : Bool} (h : s.parkRefuse key = r) (hr : r ≠ 0) :
    s.pwrPark key off = s.modPwr fun p => { p with refuse := .ofNat 4 r } := by
  subst h
  exact if_neg hr

end State

/-- A refused PARK or OFF command changes REFUSE alone. -/
theorem completes_refused {s : State} {key : BitVec 16} {r : Nat} (h : s.parkRefuse key.toNat = r) (hr : r ≠ 0) :
    ∀ c ∈ [Instr.pwrCmdPark key, .pwrCmdOff key],
      Completes c s [.pwr] fun t => t.pwr = { s.pwr with refuse := .ofNat 4 r } := by
  have refused : ∀ off, (s.pwrPark key.toNat off).pwr = { s.pwr with refuse := .ofNat 4 r } ∧
      OnlyChanges [.pwr] s (s.pwrPark key.toNat off) := fun off => by
    rw [State.pwrPark_refused h hr]
    exact ⟨rfl, State.only_modPwr _ _⟩
  intro c hc
  obtain rfl | hc := List.mem_cons.1 hc
  · exact ⟨_, rfl, refused false⟩
  · obtain rfl := List.mem_singleton.1 hc
    exact ⟨_, rfl, refused true⟩

/-- Settles O12: an accepted command is the entry, of which each part is read off its stage; a refused one gives its code. -/
theorem parkEntryIsGuarded : Obligations.ParkEntryIsGuarded := by
  unfold Obligations.ParkEntryIsGuarded
  intro s key
  refine ⟨fun hst hl hw ho off => ?_, fun c hc => ⟨fun hst => ?_, fun hst hl => ?_, fun hst hl hk => ?_,
    fun hst hl hk hw => ?_, fun hst hl hk hw ho => ?_⟩⟩
  · have hr : s.parkRefuse (0x5A3C : BitVec 16).toNat = 0 := by simp [State.parkRefuse, hst, hl, hw, ho]
    have he : ∀ b, s.pwrPark (0x5A3C : BitVec 16).toNat b = s.parkEntry b := fun b => State.pwrPark_accepted hr
    have hp : (s.parkEntry off).pwr = (s.parkNoted off).pwr := s.only_parkEntry off .pwr (by decide)
    have hb : (s.parkEntry off).tbs = s.tbs := s.only_parkEntry off .tbs (by decide)
    refine ⟨s.parkEntry off, ?_, by rw [hp]; rfl, by rw [hp]; rfl, by rw [hp]; rfl, congrArg Timebase.tb hb,
      s.parkEntry_reqs off, s.parkEntry_queue off, s.parkEntry_clears off,
      ((State.only_modPwr s _).trans (s.only_parkEntry off)).mono (by decide)⟩
    cases off
    · exact congrArg Host.Outcome.next (he false)
    · exact congrArg Host.Outcome.next (he true)
  · exact completes_refused (by simp [State.parkRefuse, hst]) (by decide) c hc
  · exact completes_refused (by simp [State.parkRefuse, hst, hl]) (by decide) c hc
  · have hn : key.toNat ≠ 0x5A3C := fun h => hk (BitVec.eq_of_toNat_eq h)
    exact completes_refused (by simp [State.parkRefuse, hst, hl, hn]) (by decide) c hc
  · exact completes_refused (by simp [State.parkRefuse, hst, hl, hk, hw]) (by decide) c hc
  · exact completes_refused (by simp [State.parkRefuse, hst, hl, hk, hw, ho]) (by decide) c hc

end Sys2Proof.Machine
end

section
/-!
PROOFS. Channels: what the operations on outputs, flags and Clearing leave of each channel and grove (04, 05). The frames come
first; then the view of a channel that Clearing, flags of the output and underrun keep, with one lemma per operation.
-/
namespace Sys2Proof.Machine

/-! ## Folds -/

/-- A fold whose steps keep a view of the state keeps it. -/
theorem foldl_keeps {σ α β : Type} {p : σ → β} {f : σ → α → σ} (l : List α) (h : ∀ s, ∀ a ∈ l, p (f s a) = p s) (s : σ) :
    p (l.foldl f s) = p s := by
  induction l generalizing s with
  | nil => rfl
  | cons a l ih => exact (ih (fun s b hb => h s b (List.mem_cons_of_mem a hb)) _).trans (h s a List.mem_cons_self)

/-- Where only the step at a changes the view, the fold's view is that of a's step alone. -/
theorem foldl_at {σ α β : Type} {p : σ → β} {f : σ → α → σ} {l : List α} {a : α} (ha : a ∈ l) (hl : l.Nodup)
    (h : ∀ s, ∀ b ∈ l, b ≠ a → p (f s b) = p s) (s : σ) : ∃ u, p u = p s ∧ p (l.foldl f s) = p (f u a) := by
  obtain ⟨as, bs, rfl⟩ := List.append_of_mem ha
  obtain ⟨-, hbs, hne⟩ := List.nodup_append.1 hl
  have hab : a ∉ as ++ bs := fun hm =>
    (List.mem_append.1 hm).elim (fun has => hne a has a List.mem_cons_self rfl) (List.nodup_cons.1 hbs).1
  have keeps : ∀ cs : List α, (∀ c ∈ cs, c ∈ as ++ bs) → ∀ t, p (cs.foldl f t) = p t := fun cs hcs =>
    foldl_keeps cs fun t c hc => h t c
      ((List.mem_append.1 (hcs c hc)).elim (List.mem_append_left _) fun hb => List.mem_append_right _ (List.mem_cons_of_mem a hb))
      fun hca => hab (hca ▸ hcs c hc)
  refine ⟨as.foldl f s, keeps as (fun c hc => List.mem_append_left _ hc) s, ?_⟩
  rw [List.foldl_append, List.foldl_cons]
  exact keeps bs (fun c hc => List.mem_append_right _ hc) _

theorem OnlyChanges.grove {ps : List Part} {s t : State} (h : OnlyChanges ps s t) (hg : Part.groves ∉ ps) (g : Fin 8) :
    t.grove g = s.grove g := congrArg (fun v => at_ v g) (h .groves hg)

/-! ## Frames -/

namespace State
variable (s : State)

theorem only_raiseChan (n : Fin 64) (b : BitVec 16) : OnlyChanges [.chans, .tt] s (s.raiseChan n b) := by
  unfold raiseChan
  extract_lets c r t
  have ht : OnlyChanges [.chans, .tt] s t := ((only_modChan _ _ _).both (only_hwSet _ _ _ _)).mono (by decide)
  exact .ite (.refl _ _) (.ite (ht.both ((only_request _ _ _).mono (by decide))) ht)
theorem only_setOstat (n : Fin 64) (b : BitVec 8) : OnlyChanges [.chans] s (s.setOstat n b) :=
  (only_modOut _ _ _).both (only_hwSet _ _ _ _)
theorem only_noteUnder (n : Fin 64) : OnlyChanges [.chans] s (s.noteUnder n) := by
  have hmark : ∀ f, OnlyChanges [.chans] s ((s.setOstat n oUNDR).modOut n f) := fun f =>
    (only_setOstat _ _ _).both (only_modOut _ _ _)
  exact .ite (.ite ((hmark _).both (only_setCause _ _ _)) (hmark _)) (.refl _ _)
theorem only_grvFlag (g : Fin 8) (b : Word) : OnlyChanges [.groves] s (s.grvFlag g b) :=
  (only_modGrove _ _ _).both (only_hwSet _ _ _ _)

end State

/-! ## The views -/

/-- An output with cause PAIR put or taken (05 Table 5.4). -/
def Output.pairCause (o : Output) (b : Bool) : Output :=
  if b then { o with clr := o.clr ||| cPAIR, inClr := true } else { o with clr := o.clr &&& ~~~cPAIR }

/-- An output without its Clearing state, its flags and the mark of an underrun. -/
def Output.steady (o : Output) : Output := { o with clr := 0, inClr := false, ostat := 0, rdmUnder := false }

/-- A channel without the Clearing state, flags and underrun mark of its output: what Clearing and underrun leave. -/
def Chan.steady (x : Chan) : Chan := { x with o := x.o.steady }

/-- A channel without its output: what the edge queue's work leaves. -/
def Chan.logic (x : Chan) : Chan := { x with o := {} }

theorem Chan.logic_of_steady {x y : Chan} (h : x.steady = y.steady) : x.logic = y.logic := by
  have hl := congrArg Chan.logic h
  exact hl

theorem Output.steady_pairCause (o : Output) (b : Bool) : (o.pairCause b).steady = o.steady := by cases b <;> rfl

/-- The channels that a pair's settlement visits are the channel and its partner. -/
theorem evenOf_cases (n : Fin 64) :
    (evenOf n = n ∧ partner (evenOf n) = partner n) ∨ (evenOf n = partner n ∧ partner (evenOf n) = n) := by
  by_cases h : n.val % 2 = 0
  · have he : evenOf n = n := Fin.ext (show n.val / 2 * 2 = n.val by omega)
    exact .inl ⟨he, congrArg partner he⟩
  · have he : evenOf n = partner n := by
      unfold partner
      rw [dif_neg h]
      exact Fin.ext (show n.val / 2 * 2 = n.val - 1 by omega)
    refine .inr ⟨he, ?_⟩
    have h2 : (evenOf n).val % 2 = 0 := show n.val / 2 * 2 % 2 = 0 by omega
    unfold partner
    rw [dif_pos h2]
    exact Fin.ext (show n.val / 2 * 2 + 1 = n.val by omega)

namespace State
variable {s : State}

/-! ## Pairs and Clearing -/

/-- Settling a pair puts or takes cause PAIR, and that alone. -/
theorem output_settlePair {P : Output → Prop} (hP : ∀ o b, P o → P (o.pairCause b)) {m : Fin 64} (h : P (s.chan m).o)
    (n : Fin 64) : P ((s.settlePair n).chan m).o := by
  have hmod : ∀ (t : State) (k : Fin 64) (b : Bool), P (t.chan m).o → P ((t.modOut k fun o => o.pairCause b).chan m).o := by
    intro t k b ht
    rw [chan_modOut]
    split
    · next hk => exact hP _ b (hk ▸ ht)
    · exact ht
  exact hmod _ _ _ (hmod _ _ _ h)

theorem steady_modOut {n : Fin 64} {f : Output → Output} (hf : ∀ o, (f o).steady = o.steady) (m : Fin 64) :
    ((s.modOut n f).chan m).steady = (s.chan m).steady := by
  rw [chan_modOut]
  split
  · next h => subst h; exact congrArg (fun o => { s.chan n with o := o }) (hf _)
  · rfl

theorem chan_modOut_ne {m n : Fin 64} (h : m ≠ n) (f : Output → Output) : (s.modOut n f).chan m = s.chan m := by
  rw [chan_modOut, if_neg (Ne.symm h)]

variable (s)

@[simp] theorem steady_settlePair (n m : Fin 64) : ((s.settlePair n).chan m).steady = (s.chan m).steady :=
  (steady_modOut (fun o => o.steady_pairCause _) m).trans (steady_modOut (fun o => o.steady_pairCause _) m)
@[simp] theorem steady_setCause (n m : Fin 64) (b : BitVec 11) : ((s.setCause n b).chan m).steady = (s.chan m).steady :=
  (steady_settlePair _ n m).trans (steady_modOut (fun _ => by rfl) m)
@[simp] theorem steady_clearCause (n m : Fin 64) (b : BitVec 11) : ((s.clearCause n b).chan m).steady = (s.chan m).steady :=
  (steady_settlePair _ n m).trans (steady_modOut (fun _ => by rfl) m)
@[simp] theorem steady_setOstat (n m : Fin 64) (b : BitVec 8) : ((s.setOstat n b).chan m).steady = (s.chan m).steady := by
  unfold setOstat
  rw [chan_hwSet]
  exact steady_modOut (fun _ => by rfl) m
@[simp] theorem steady_noteUnder (n m : Fin 64) : ((s.noteUnder n).chan m).steady = (s.chan m).steady := by
  have hmark : (((s.setOstat n oUNDR).modOut n fun o => { o with rdmUnder := true }).chan m).steady = (s.chan m).steady :=
    (steady_modOut (fun _ => by rfl) m).trans (steady_setOstat s n m _)
  unfold noteUnder
  dsimp only
  split
  · split
    · exact (steady_setCause _ n m _).trans hmark
    · exact hmark
  · rfl

variable {s} {n m : Fin 64}

theorem chan_settlePair_ne (hn : m ≠ n) (hp : m ≠ partner n) : (s.settlePair n).chan m = s.chan m := by
  have hed : m ≠ evenOf n ∧ m ≠ partner (evenOf n) := by
    obtain ⟨he, hd⟩ | ⟨he, hd⟩ := evenOf_cases n
    · rw [hd, he]
      exact ⟨hn, hp⟩
    · rw [hd, he]
      exact ⟨hp, hn⟩
  exact (chan_modOut_ne hed.2 _).trans (chan_modOut_ne hed.1 _)
theorem chan_setCause_ne (hn : m ≠ n) (hp : m ≠ partner n) (b : BitVec 11) : (s.setCause n b).chan m = s.chan m :=
  (chan_settlePair_ne hn hp).trans (chan_modOut_ne hn _)
theorem chan_setOstat_ne (hn : m ≠ n) (b : BitVec 8) : (s.setOstat n b).chan m = s.chan m := by
  unfold setOstat
  rw [chan_hwSet, chan_modOut_ne hn]
theorem chan_noteUnder_ne (hn : m ≠ n) (hp : m ≠ partner n) : (s.noteUnder n).chan m = s.chan m := by
  have hmark : ((s.setOstat n oUNDR).modOut n fun o => { o with rdmUnder := true }).chan m = s.chan m :=
    (chan_modOut_ne hn _).trans (chan_setOstat_ne hn _)
  unfold noteUnder
  dsimp only
  split
  · split
    · exact (chan_setCause_ne hn hp _).trans hmark
    · exact hmark
  · rfl

/-! ## Flags -/

/-- Setting flags changes the events of a channel that is not fenced, and nothing else of any channel (04 R139, R168). -/
theorem chan_raiseChan (b : BitVec 16) (m : Fin 64) : (s.raiseChan n b).chan m =
    if (s.chan n).fenced || b == 0 then s.chan m
    else (s.modChan n fun x => { x with ev := ((s.chan n).ev.set b).1 }).chan m := by
  unfold raiseChan
  dsimp only
  split
  · rfl
  · split <;> rfl

theorem chan_raiseChan_ne (h : m ≠ n) (b : BitVec 16) : (s.raiseChan n b).chan m = s.chan m := by
  rw [chan_raiseChan, chan_modChan, if_neg (Ne.symm h), ite_self]

theorem chan_raiseChan_self (n : Fin 64) (b : BitVec 16) : ∃ ev : EventRegs,
    (s.raiseChan n b).chan n = { s.chan n with ev := ev } ∧
    ev.flag = if (s.chan n).fenced = false then (s.chan n).ev.flag ||| b else (s.chan n).ev.flag := by
  rw [chan_raiseChan, chan_modChan, if_pos rfl]
  cases hf : (s.chan n).fenced
  · by_cases hb : b = 0#16
    · exact ⟨(s.chan n).ev, by simp [hb, ← hf], by simp [hb]⟩
    · exact ⟨((s.chan n).ev.set b).1, by simp [hb, hf], by simp [EventRegs.set]⟩
  · exact ⟨(s.chan n).ev, by simp [← hf], by simp⟩

end State
end Sys2Proof.Machine
end

section
/-!
PROOFS. Output configuration (05 R191, R842, R843, Tables 5.7, 5.8): writes of CH_OCFG and CH_PAIR (O28).
-/
namespace Sys2Proof.Machine

/-! ## Commands of a block that reset can hold -/

theorem completes_up {c : Instr} {s : State} {f : State → State} {ps : List Part} {P : State → Prop}
    (hc : exec c s = .next (s.whenUp s.pwr.pdUp f)) (hup : s.pwr.pdUp = true) (hP : P (f s)) (ho : OnlyChanges ps s (f s)) :
    Completes c s ps P :=
  ⟨f s, hc.trans (congrArg Host.Outcome.next (if_pos hup)), hP, ho⟩

theorem completes_held {c : Instr} {s : State} {f : State → State}
    (hc : exec c s = .next (s.whenUp s.pwr.pdUp f)) (hdown : s.pwr.pdUp = false) : Completes c s [] fun _ => True :=
  ⟨s, hc.trans (congrArg Host.Outcome.next (if_neg (by simp [hdown]))), trivial, .refl _ _⟩

/-- A command that changes nothing here changes nothing, whether or not its block is held in reset. -/
theorem completes_unchanged {c : Instr} {s : State} {f : State → State}
    (hc : exec c s = .next (s.whenUp s.pwr.pdUp f)) (hf : f s = s) : Completes c s [] fun _ => True := by
  have hs : s.whenUp s.pwr.pdUp f = s := (congrArg (ite _ · s) hf).trans (ite_self s)
  exact ⟨s, hc.trans (congrArg Host.Outcome.next hs), trivial, .refl _ _⟩

namespace State
variable (s : State)

/-! ## Reserved values and lockable fields -/

/-- A reserved value in a write sets WWR, where the channel is not fenced, and changes nothing else of the channel. -/
theorem chan_reserved (n : Fin 64) (bad : Prop) [Decidable bad] : ∃ ev : EventRegs,
    (if bad then s.raiseChan n fWWR else s).chan n = { s.chan n with ev := ev } ∧
    ev.flag = if bad ∧ (s.chan n).fenced = false then (s.chan n).ev.flag ||| 0x200 else (s.chan n).ev.flag := by
  by_cases hb : bad
  · obtain ⟨ev, hev, hfl⟩ := s.chan_raiseChan_self n fWWR
    exact ⟨ev, by rw [if_pos hb, hev], by simpa [hb, fWWR] using hfl⟩
  · exact ⟨(s.chan n).ev, by rw [if_neg hb], by simp [hb]⟩

theorem chan_reserved_ne {m n : Fin 64} (h : m ≠ n) (bad : Prop) [Decidable bad] :
    (if bad then s.raiseChan n fWWR else s).chan m = s.chan m := by
  split
  · exact chan_raiseChan_ne h _
  · rfl

theorem only_reserved (n : Fin 64) (bad : Prop) [Decidable bad] :
    OnlyChanges [.chans, .tt] s (if bad then s.raiseChan n fWWR else s) := .ite (only_raiseChan _ _ _) (.refl _ _)

variable {s}

theorem regBits_unlocked {k : Nat} (h : s.boot.locked = false) (old : BitVec k) (w : Word) (mask rwl : BitVec k) :
    s.regBits old w mask rwl = (old &&& ~~~mask) ||| (w.setWidth k &&& mask) := by simp [regBits, h]
theorem regBits_locked {k : Nat} (h : s.boot.locked = true) (old : BitVec k) (w : Word) (mask rwl : BitVec k) :
    s.regBits old w mask rwl = (old &&& ~~~(mask &&& ~~~rwl)) ||| (w.setWidth k &&& (mask &&& ~~~rwl)) := by simp [regBits, h]

/-! ## CH_OCFG -/

/-- What a write of CH_OCFG leaves in the register (05 R842, Table 5.7). -/
def ocfgWritten (s : State) (old : BitVec 24) (w : Word) : BitVec 24 :=
  s.regBits old w (if fld w 1 0 = 3 then 0xFFFFFC else 0xFFFFFF) 0x000237

/-- A write of CH_OCFG in its stages: the register, the flag for a reserved CLR_LVL, and an underrun that it makes. -/
theorem writeOcfg_stages (s : State) (n : Fin 64) (w : Word) : ∃ t u,
    t = s.modOut n (fun o => { o with ocfg := s.ocfgWritten o.ocfg w }) ∧
    u = (if fld w 1 0 = 3 then t.raiseChan n fWWR else t) ∧ s.writeOcfg n w = u.noteUnder n := ⟨_, _, rfl, rfl, rfl⟩

theorem only_writeOcfg (s : State) (n : Fin 64) (w : Word) : OnlyChanges [.chans, .tt] s (s.writeOcfg n w) := by
  obtain ⟨t, u, rfl, rfl, h⟩ := s.writeOcfg_stages n w
  rw [h]
  exact (((only_modOut s _ _).trans (only_reserved _ _ _)).trans (only_noteUnder _ _)).mono (by decide)

theorem chan_writeOcfg_ne {m n : Fin 64} (hn : m ≠ n) (hp : m ≠ partner n) (w : Word) :
    (s.writeOcfg n w).chan m = s.chan m := by
  obtain ⟨t, u, rfl, rfl, h⟩ := s.writeOcfg_stages n w
  rw [h, chan_noteUnder_ne hn hp, chan_reserved_ne _ hn, chan_modOut_ne hn]

theorem steady_writeOcfg (s : State) (n : Fin 64) (w : Word) : ∃ ev : EventRegs,
    ((s.writeOcfg n w).chan n).steady =
      Chan.steady { s.chan n with ev := ev, o := { (s.chan n).o with ocfg := s.ocfgWritten (s.chan n).o.ocfg w } } ∧
    ev.flag = if fld w 1 0 = 3 ∧ (s.chan n).fenced = false then (s.chan n).ev.flag ||| 0x200 else (s.chan n).ev.flag := by
  obtain ⟨t, u, ht, hu, h⟩ := s.writeOcfg_stages n w
  obtain ⟨ev, hev, hfl⟩ := t.chan_reserved n (fld w 1 0 = 3)
  have htn : t.chan n = { s.chan n with o := { (s.chan n).o with ocfg := s.ocfgWritten (s.chan n).o.ocfg w } } := by
    rw [ht, chan_modOut, if_pos rfl]
  exact ⟨ev, by rw [h, steady_noteUnder, hu, hev, htn], by rw [hfl, htn]⟩

theorem ocfgWritten_unlocked (h : s.boot.locked = false) {w : Word} (hw : fld w 1 0 ≠ 3) (old : BitVec 24) :
    s.ocfgWritten old w = w.setWidth 24 := by
  have hall : (0xFFFFFF : BitVec 24) = BitVec.allOnes 24 := by decide
  rw [ocfgWritten, regBits_unlocked h, if_neg hw, hall, BitVec.not_allOnes, BitVec.and_zero, BitVec.zero_or,
    BitVec.and_allOnes]
theorem ocfgWritten_reserved (h : s.boot.locked = false) {w : Word} (hw : fld w 1 0 = 3) (old : BitVec 24) :
    s.ocfgWritten old w = (old &&& 3) ||| (w.setWidth 24 &&& 0xFFFFFC) := by
  rw [ocfgWritten, regBits_unlocked h, if_pos hw]
  rfl
theorem ocfgWritten_locked (h : s.boot.locked = true) (w : Word) (old : BitVec 24) :
    s.ocfgWritten old w = (old &&& 0x000237) ||| (w.setWidth 24 &&& 0xFFFDC8) := by
  rw [ocfgWritten, regBits_locked h]
  split <;> rfl

/-! ## CH_PAIR -/

/-- What a write of CH_PAIR leaves in the register (05 R191, R842, Table 5.8). -/
def pairWritten (s : State) (p : Pair) (w : Word) : Pair :=
  { p with
    force := if fld w 19 18 = 3 then p.force else .ofNat 2 (fld w 19 18)
    forcePend := if fld w 19 18 = 3 then p.forcePend else true
    mode := if s.boot.locked then p.mode else bit w 16
    dt := if s.boot.locked then p.dt else .ofNat 10 (fld w 9 0) }

theorem only_raisePs (s : State) (e : Fin 8) (b : BitVec 16) : OnlyChanges [.ps, .tt] s (s.raisePs e b) := by
  unfold raisePs
  extract_lets r t
  have ht : OnlyChanges [.ps, .tt] s t := ((only_modEng _ _ _).both (only_hwSet _ _ _ _)).mono (by decide)
  exact .ite (ht.both ((only_request _ _ _).mono (by decide))) ht
theorem only_haltOnPair (s : State) (n : Fin 64) : OnlyChanges [.ps, .tt] s (s.haltOnPair n) := by
  unfold haltOnPair
  split
  · exact .refl _ _
  · exact ((only_modEng _ _ _).mono (by decide)).both (only_raisePs _ _ _)

theorem writePair_odd {n : Fin 64} (h : n.val % 2 = 1) (w : Word) : s.writePair n w = s := if_pos h

/-- A write of an even channel's CH_PAIR in its stages: the register, the flag for a reserved FORCE, cause PAIR, and the
sequencers that a pair entering MODE 1 halts (09 R365). -/
theorem writePair_stages {n : Fin 64} (h : n.val % 2 = 0) (s : State) (w : Word) : ∃ t u,
    t = s.modOut n (fun o => { o with pair := s.pairWritten o.pair w }) ∧
    u = (if fld w 19 18 = 3 then t.raiseChan n fWWR else t) ∧
    OnlyChanges [.ps, .tt] (u.settlePair n) (s.writePair n w) := by
  refine ⟨_, _, rfl, rfl, ?_⟩
  have hodd : ¬ n.val % 2 = 1 := by omega
  unfold writePair
  rw [if_neg hodd]
  extract_lets bad lock was t u v
  have hv : OnlyChanges [.ps, .tt] v ((v.haltOnPair n).haltOnPair (partner n)) :=
    (only_haltOnPair _ _).both (only_haltOnPair _ _)
  exact .ite hv (.refl _ _)

theorem only_writePair (s : State) {n : Fin 64} (hn : n.val % 2 = 0) (w : Word) :
    OnlyChanges [.chans, .tt, .ps] s (s.writePair n w) := by
  obtain ⟨t, u, rfl, rfl, h⟩ := writePair_stages hn s w
  exact ((((only_modOut s _ _).trans (only_reserved _ _ _)).trans (only_settlePair _ _)).trans h).mono (by decide)

theorem chan_writePair_ne {m n : Fin 64} (h : n.val % 2 = 0) (hn : m ≠ n) (hp : m ≠ partner n) (w : Word) :
    (s.writePair n w).chan m = s.chan m := by
  obtain ⟨t, u, rfl, rfl, hu⟩ := writePair_stages h s w
  rw [hu.chan (by decide), chan_settlePair_ne hn hp, chan_reserved_ne _ hn, chan_modOut_ne hn]

theorem steady_writePair (s : State) {n : Fin 64} (h : n.val % 2 = 0) (w : Word) : ∃ ev : EventRegs,
    ((s.writePair n w).chan n).steady =
      Chan.steady { s.chan n with ev := ev, o := { (s.chan n).o with pair := s.pairWritten (s.chan n).o.pair w } } ∧
    ev.flag = if fld w 19 18 = 3 ∧ (s.chan n).fenced = false then (s.chan n).ev.flag ||| 0x200 else (s.chan n).ev.flag := by
  obtain ⟨t, u, ht, hu, hs⟩ := writePair_stages h s w
  obtain ⟨ev, hev, hfl⟩ := t.chan_reserved n (fld w 19 18 = 3)
  have htn : t.chan n = { s.chan n with o := { (s.chan n).o with pair := s.pairWritten (s.chan n).o.pair w } } := by
    rw [ht, chan_modOut, if_pos rfl]
  exact ⟨ev, by rw [hs.chan (by decide), steady_settlePair, hu, hev, htn], by rw [hfl, htn]⟩

end State

theorem fld_lt {k : Nat} (w : BitVec k) (hi lo : Nat) : fld w hi lo < 2 ^ (hi - lo + 1) := Nat.mod_lt _ (Nat.two_pow_pos _)

theorem ofNat_fld_low (w : Word) (hi : Nat) : BitVec.ofNat (hi + 1) (fld w hi 0) = w.setWidth (hi + 1) :=
  BitVec.eq_of_toNat_eq (by simp [fld])

/-- Settles O28: each write's channel is read off its steady view, and a reserved value reaches the flag alone. -/
theorem outputConfigurationWrites : Obligations.OutputConfigurationWrites := by
  unfold Obligations.OutputConfigurationWrites
  intro s n w x wwr others
  refine ⟨fun hup => ?_, fun hodd => ?_, fun hup heven => ?_, fun hdown c hc => ?_⟩
  · obtain ⟨ev, hst, hfl⟩ := s.steady_writeOcfg n w
    have hocfg : ((s.writeOcfg n w).chan n).o.ocfg = s.ocfgWritten x.o.ocfg w := congrArg (·.o.ocfg) hst
    refine completes_up rfl hup ⟨?_, congrArg (·.c) hst, congrArg (·.o.queue) hst, fun hl hw => ?_, fun hl hw => ?_, fun hl => ?_,
      fun m hn hp => State.chan_writeOcfg_ne hn hp w⟩ (s.only_writeOcfg n w)
    · exact (congrArg (·.ev.flag) hst).trans hfl
    · exact hocfg.trans (State.ocfgWritten_unlocked hl hw _)
    · exact hocfg.trans (State.ocfgWritten_reserved hl hw _)
    · exact hocfg.trans (State.ocfgWritten_locked hl w _)
  · exact completes_unchanged rfl (State.writePair_odd hodd w)
  · obtain ⟨ev, hst, hfl⟩ := s.steady_writePair heven w
    have hpair : ((s.writePair n w).chan n).o.pair = s.pairWritten x.o.pair w := congrArg (·.o.pair) hst
    refine completes_up rfl hup ⟨?_, congrArg (·.c) hst, fun hw => ?_, fun hw => ?_, fun hl => ?_, fun hl => ?_, ?_,
      fun m hn hp => State.chan_writePair_ne heven hn hp w⟩ (s.only_writePair heven w)
    · exact (congrArg (·.ev.flag) hst).trans hfl
    · rw [hpair]
      exact ⟨if_pos hw, if_pos hw⟩
    · rw [hpair]
      exact ⟨by simpa [State.pairWritten, hw] using fld_lt w 19 18, by simp [State.pairWritten, hw]⟩
    · rw [hpair]
      exact ⟨by simp [State.pairWritten, hl], by simpa [State.pairWritten, hl] using ofNat_fld_low w 9⟩
    · rw [hpair]
      exact ⟨if_pos hl, if_pos hl⟩
    · rw [hpair]
      rfl
  · obtain rfl | hc := List.mem_cons.1 hc
    · exact completes_held rfl hdown
    · obtain rfl := List.mem_singleton.1 hc
      exact completes_held rfl hdown

end Sys2Proof.Machine
end

section
/-!
PROOFS. A tick of a grove in which channels start (04 R122–R128, 05 Table 5.6): its frame, what it leaves of a re-admission, and
the channel that starts at CNT 0 in it. A tick of a channel is its counter's part, its edge queue's part, and VALLEY's work
on Clearing; the last two change outputs alone.
-/
namespace Sys2Proof.Machine

/-! ## Changes of outputs alone -/

/-- From s to t nothing changes but the outputs of channels. -/
structure OnlyOutputs (s t : State) : Prop where
  frame : OnlyChanges [.chans] s t
  logic : ∀ m, (t.chan m).logic = (s.chan m).logic

namespace OnlyOutputs
variable {s t u : State}

theorem refl (s : State) : OnlyOutputs s s := ⟨.refl _ _, fun _ => rfl⟩
theorem trans (h : OnlyOutputs s t) (k : OnlyOutputs t u) : OnlyOutputs s u :=
  ⟨h.frame.both k.frame, fun m => (k.logic m).trans (h.logic m)⟩
theorem ite {c : Prop} [Decidable c] (h : OnlyOutputs s t) (k : OnlyOutputs s u) : OnlyOutputs s (if c then t else u) := by
  split <;> assumption
theorem foldl {α : Type} {f : State → α → State} (h : ∀ s a, OnlyOutputs s (f s a)) (l : List α) (s : State) :
    OnlyOutputs s (l.foldl f s) :=
  ⟨.foldl (fun s a => (h s a).frame) l s,
    fun m => foldl_keeps (p := fun s : State => (s.chan m).logic) l (fun s a _ => (h s a).logic m) s⟩

variable (s) (n : Fin 64)

theorem modOut (f : Output → Output) : OnlyOutputs s (s.modOut n f) := by
  refine ⟨State.only_modOut s n f, fun m => ?_⟩
  rw [State.chan_modOut]
  split
  · next h => subst h; rfl
  · rfl
theorem modCyc (f : Cycle → Cycle) : OnlyOutputs s (s.modCyc f) := ⟨State.only_modCyc s f _, fun _ => rfl⟩
theorem setOstat (b : BitVec 8) : OnlyOutputs s (s.setOstat n b) :=
  ⟨s.only_setOstat n b, fun m => Chan.logic_of_steady (s.steady_setOstat n m b)⟩
theorem clearCause (b : BitVec 11) : OnlyOutputs s (s.clearCause n b) :=
  ⟨s.only_clearCause n b, fun m => Chan.logic_of_steady (s.steady_clearCause n m b)⟩
theorem noteUnder : OnlyOutputs s (s.noteUnder n) :=
  ⟨s.only_noteUnder n, fun m => Chan.logic_of_steady (s.steady_noteUnder n m)⟩
theorem markHead : OnlyOutputs s (s.markHead n) := (modOut s n _).trans (modCyc _ _)
theorem fireHead : OnlyOutputs s (s.fireHead n) := by
  unfold State.fireHead
  split
  · exact refl s
  · exact ((((modOut s n _).trans (setOstat _ n _)).trans (modCyc _ _)).trans (markHead _ n)).trans (noteUnder _ n)
theorem readmitStep : OnlyOutputs s (s.readmitStep n) :=
  ite (ite ((modOut s n _).trans (clearCause _ n _)) (modOut s n _)) (refl s)
theorem unlink : OnlyOutputs s (s.unlink n) :=
  foldl (fun s k => ite (ite ((modOut s k _).trans (clearCause _ k _)) (modOut s k _)) (refl s)) _ s
theorem leaveClearing (s1 : State) : OnlyOutputs s (State.leaveClearing s1 s n) :=
  ite (ite ((((modOut s n _).trans (modOut _ _ _)).trans (unlink _ n)).trans (unlink _ _)) (refl s))
    (ite ((modOut s n _).trans (unlink _ n)) (refl s))

end OnlyOutputs

/-! ## Changes of groves alone that leave a re-admission -/

/-- The grove's re-admission is in progress or has ended (05 Table 5.6). -/
def Grove.readmits (x : Grove) : Bool := x.rdmActive || x.rdmDone

/-- From s to t nothing changes but groves, and each grove readmits, or does not, as before. -/
structure KeepsReadmits (s t : State) : Prop where
  frame : OnlyChanges [.groves] s t
  readmits : ∀ g, (t.grove g).readmits = (s.grove g).readmits

namespace KeepsReadmits
variable {s t u : State}

theorem refl (s : State) : KeepsReadmits s s := ⟨.refl _ _, fun _ => rfl⟩
theorem ite {c : Prop} [Decidable c] (h : c → KeepsReadmits s t) (k : KeepsReadmits s u) :
    KeepsReadmits s (if c then t else u) := by
  split
  · next hc => exact h hc
  · exact k
theorem foldl {α : Type} {f : State → α → State} (h : ∀ s a, KeepsReadmits s (f s a)) (l : List α) (s : State) :
    KeepsReadmits s (l.foldl f s) :=
  ⟨.foldl (fun s a => (h s a).frame) l s,
    fun g => foldl_keeps (p := fun s : State => (s.grove g).readmits) l (fun s a _ => (h s a).readmits g) s⟩
theorem modGrove (g : Fin 8) {f : Grove → Grove} (hf : (f (s.grove g)).readmits = (s.grove g).readmits) :
    KeepsReadmits s (s.modGrove g f) := by
  refine ⟨State.only_modGrove s g f, fun h => ?_⟩
  rw [State.grove_modGrove]
  split
  · next hg => exact hg ▸ hf
  · rfl

variable (s)

theorem noteValley (n : Fin 64) : KeepsReadmits s (s.noteValley n) := ite (fun _ => refl s) (modGrove _ rfl)
theorem sendPulses (ms : List (Fin 64)) : KeepsReadmits s (s.sendPulses ms) :=
  ite (fun _ => refl s) (foldl (fun _ _ => modGrove _ rfl) _ s)
/-- The end of a re-admission is noted as it leaves progress. -/
theorem settleRdm (g : Fin 8) : KeepsReadmits s (s.settleRdm g) := by
  refine ite (fun hc => ?_) (refl s)
  have hact : (s.grove g).rdmActive = true := (Bool.and_eq_true_iff.1 hc).1
  have hmod := modGrove (s := s) g (f := fun x => { x with rdmActive := false, rdmDone := true }) (by simp [Grove.readmits, hact])
  exact ⟨hmod.frame.both (State.only_hwSet _ _ _ _), hmod.readmits⟩

end KeepsReadmits

namespace State
variable (s : State)

/-! ## A tick of a channel in its stages -/

/-- What a tick does to the counter and the transfers, and the flags it sets. -/
def tickCount (s : State) (n : Fin 64) (t : Tick) : State :=
  (s.modChan n fun x =>
    { x with
      c := Counter.take s.compat s.tb x.c t
      o := if t.valley && s.shadowsMove n then
          { (Output.takeForce x.o s.time) with queue := x.o.queue.map (Edge.transfer (s.freshShadows n)) }
        else x.o }).raiseChan n (tickFlags s.compat (s.compared n) t (reloadMoves s.compat (s.chan n).c t))

/-- What a tick does to the edge queue: a counter entry fires, or is discarded beyond RELOAD, and an underrun is noted. -/
def tickQueue (s : State) (compat : Bool) (n : Fin 64) (t : Tick) : State :=
  if !s.headCompared n then s.noteUnder n else
  match (s.chan n).o.queue with
  | e :: q =>
    if e.kind = 0 ∧ e.tgt = t.cnt ∧ slopeTakes compat e.slope.toNat t = true then s.fireHead n
    else if t.peak ∧ e.kind = 0 ∧ (s.chan n).c.reload.toNat < e.tgt.toNat then
      (((s.modOut n fun o => { o with queue := q }).setOstat n oBADTGT).markHead n).noteUnder n
    else s.noteUnder n
  | [] => s.noteUnder n

theorem onlyOutputs_tickQueue (compat : Bool) (n : Fin 64) (t : Tick) : OnlyOutputs s (s.tickQueue compat n t) := by
  refine .ite (.noteUnder s n) ?_
  split
  · exact .ite (.fireHead s n) (.ite ((((OnlyOutputs.modOut s n _).trans (.setOstat _ n _)).trans (.markHead _ n)).trans
      (.noteUnder _ n)) (.noteUnder s n))
  · exact .noteUnder s n

/-- A channel's tick: the counter's part, the VALLEY noted for ARM, the edge queue's part. -/
theorem tickChan_stages (n : Fin 64) (t : Tick) : ∃ u, KeepsReadmits (s.tickCount n t) u ∧ OnlyOutputs u (s.tickChan n t) := by
  have hv : KeepsReadmits (s.tickCount n t) (if t.valley then (s.tickCount n t).noteValley n else s.tickCount n t) :=
    .ite (fun _ => .noteValley _ n) (.refl _)
  exact ⟨_, hv, onlyOutputs_tickQueue _ s.compat n t⟩

theorem only_tickCount (n : Fin 64) (t : Tick) : OnlyChanges [.chans, .tt] s (s.tickCount n t) :=
  ((only_modChan s n _).trans (only_raiseChan _ n _)).mono (by decide)

theorem only_tickChan (n : Fin 64) (t : Tick) : OnlyChanges [.chans, .groves, .tt] s (s.tickChan n t) := by
  obtain ⟨u, hu, ho⟩ := s.tickChan_stages n t
  exact (((s.only_tickCount n t).trans hu.frame).trans ho.frame).mono (by decide)

theorem readmits_tickChan (n : Fin 64) (t : Tick) (g : Fin 8) :
    ((s.tickChan n t).grove g).readmits = (s.grove g).readmits := by
  obtain ⟨u, hu, ho⟩ := s.tickChan_stages n t
  rw [ho.frame.grove (by decide), hu.readmits, (s.only_tickCount n t).grove (by decide)]

/-- Outside its outputs, a channel's tick is its counter's part. -/
theorem logic_tickChan (n m : Fin 64) (t : Tick) : ((s.tickChan n t).chan m).logic = ((s.tickCount n t).chan m).logic := by
  obtain ⟨u, hu, ho⟩ := s.tickChan_stages n t
  rw [ho.logic, hu.frame.chan (by decide)]

theorem logic_tickChan_ne {n m : Fin 64} (h : m ≠ n) (t : Tick) : ((s.tickChan n t).chan m).logic = (s.chan m).logic := by
  rw [logic_tickChan, tickCount, chan_raiseChan_ne h, chan_modChan, if_neg (Ne.symm h)]

/-- VALLEY is a bit of the flags that a VALLEY tick sets (04 R138). -/
theorem valley_tickFlags {t : Tick} (h : t.valley = true) (compat : Bool) (c : Counter) (xfer : Bool) :
    (tickFlags compat c t xfer).getLsbD 5 = true := by simp [tickFlags, h, fVALLEY]

/-- A VALLEY tick of a channel that is not fenced: the counter takes the tick, and VALLEY is set (04 R134, R138). -/
theorem tickChan_valley {n : Fin 64} {t : Tick} (hf : (s.chan n).fenced = false) (ht : t.valley = true) :
    ((s.tickChan n t).chan n).c = Counter.take s.compat s.tb (s.chan n).c t ∧
    ((s.tickChan n t).chan n).ev.flag.getLsbD 5 = true := by
  have hl := s.logic_tickChan n n t
  have hc : ((s.tickChan n t).chan n).c = ((s.tickCount n t).chan n).c := congrArg (·.c) hl
  have he : ((s.tickChan n t).chan n).ev = ((s.tickCount n t).chan n).ev := congrArg (·.ev) hl
  rw [hc, he]
  unfold tickCount
  generalize hb : tickFlags _ _ t _ = b
  have h5 : b.getLsbD 5 = true := hb ▸ valley_tickFlags ht _ _ _
  obtain ⟨ev, hev, hfl⟩ := chan_raiseChan_self (s := s.modChan n _) n b
  rw [hev]
  rw [chan_modChan_self] at hfl ⊢
  rw [if_pos hf] at hfl
  exact ⟨rfl, by rw [hfl, BitVec.getLsbD_or, h5, Bool.or_true]⟩

/-! ## Ticks of several channels -/

/-- Ticks of channels: each channel's, then VALLEY's work on Clearing, then the end of a re-admission. -/
theorem runTicks_stages (s1 : State) (ts : List (Fin 64 × Tick)) : ∃ v,
    OnlyOutputs (ts.foldl (fun s p => s.tickChan p.1 p.2) s) v ∧ KeepsReadmits v (runTicks s1 s ts) := by
  unfold runTicks
  extract_lets u vs v w
  have hv : OnlyOutputs u v :=
    .foldl (f := fun s (p : Fin 64 × Tick) => s.readmitStep p.1) (fun t p => .readmitStep t p.1) vs u
  have hw : OnlyOutputs v w :=
    .foldl (f := fun s (p : Fin 64 × Tick) => leaveClearing s1 s p.1) (fun t p => .leaveClearing t p.1 s1) vs v
  have hx : KeepsReadmits w (vs.foldl (fun s p => s.settleRdm (groveOf p.1)) w) :=
    .foldl (fun t p => .settleRdm t (groveOf p.1)) vs w
  exact ⟨w, hv.trans hw, hx⟩

theorem only_runTicks (s1 : State) (ts : List (Fin 64 × Tick)) : OnlyChanges [.chans, .groves, .tt] s (runTicks s1 s ts) := by
  obtain ⟨v, hv, hr⟩ := s.runTicks_stages s1 ts
  exact (((OnlyChanges.foldl (fun t p => t.only_tickChan p.1 p.2) ts s).trans hv.frame).trans hr.frame).mono (by decide)

theorem readmits_runTicks (s1 : State) (ts : List (Fin 64 × Tick)) (g : Fin 8) :
    ((runTicks s1 s ts).grove g).readmits = (s.grove g).readmits := by
  obtain ⟨v, hv, hr⟩ := s.runTicks_stages s1 ts
  rw [hr.readmits, hv.frame.grove (by decide)]
  exact foldl_keeps (p := fun s : State => (s.grove g).readmits) ts (fun t p _ => t.readmits_tickChan p.1 p.2 g) s

theorem logic_runTicks (s1 : State) (ts : List (Fin 64 × Tick)) (m : Fin 64) :
    ((runTicks s1 s ts).chan m).logic = ((ts.foldl (fun s p => s.tickChan p.1 p.2) s).chan m).logic := by
  obtain ⟨v, hv, hr⟩ := s.runTicks_stages s1 ts
  rw [hr.frame.chan (by decide), hv.logic]

end State
end Sys2Proof.Machine
end

section
/-!
PROOFS. Starts at CNT 0 in a grove's tick (04 R126–R128, 05 Table 5.6 step 3), readback (05 R201, R202), and re-admission (O27).
-/
namespace Sys2Proof.Machine

/-- The tick that a counter takes as it starts at CNT 0 (04 R127). -/
def zeroTick : Tick := { cnt := 0, down := false, peak := false, valley := true }

namespace State

/-- The channel is not fenced, stands, acts on no link, and its RELOAD and link setting allow a start. -/
structure StartsAlone (s : State) (n : Fin 64) : Prop where
  unfenced : (s.chan n).fenced = false
  stopped : (s.chan n).c.run = false
  action : (s.chan n).o.action = 0
  clkSrc : (s.chan n).c.clkSrc = 0
  linkOk : s.linkOk n = true
  reload : 2 ≤ (s.chan n).c.reload.toNat

/-! ## A start -/

variable {s t : State} {n : Fin 64}

/-- A channel that acts on no link may start unless it names itself as its peer (05 R194). -/
theorem linkOk_unlinked (ha : (s.chan n).o.action = 0) (hc : (s.chan n).c.clkSrc = 0) :
    s.linkOk n = decide (¬ ((s.chan n).o.linkSrc = 1 ∧ (s.chan n).o.linkIdx = n.val % 8)) := by
  unfold linkOk
  dsimp only
  split
  · next h => simp [h]
  · next h => simp [h, ha, hc]

theorem StartsAlone.of_steady (h : s.StartsAlone n) (hst : (t.chan n).steady = (s.chan n).steady) : t.StartsAlone n := by
  have hc : (t.chan n).c = (s.chan n).c := congrArg (·.c) hst
  have hf : (t.chan n).fenced = (s.chan n).fenced := congrArg (·.fenced) hst
  have hl : (t.chan n).o.link = (s.chan n).o.link := congrArg (·.o.link) hst
  have ha : (t.chan n).o.action = 0 := (congrArg (fld · 7 6) hl).trans h.action
  have hk : (t.chan n).c.clkSrc = 0 := hc ▸ h.clkSrc
  have hok : t.linkOk n = s.linkOk n := by
    rw [linkOk_unlinked ha hk, linkOk_unlinked h.action h.clkSrc, Output.linkSrc, Output.linkIdx, hl]
    rfl
  exact ⟨hf.trans h.unfenced, hc ▸ h.stopped, ha, hk, hok.trans h.linkOk, hc ▸ h.reload⟩

theorem steady_startChan_ne {m : Fin 64} (h : m ≠ n) (v : W48 × Bool) :
    ((s.startChan n v).chan m).steady = (s.chan m).steady := by
  unfold startChan beginRun refuseStart
  dsimp only
  split
  · rfl
  · split
    · rw [steady_clearCause, chan_modChan, if_neg (Ne.symm h)]
    · rw [chan_modCnt, if_neg (Ne.symm h)]

theorem only_startChan (s : State) (n : Fin 64) (v : W48 × Bool) : OnlyChanges [.chans] s (s.startChan n v) :=
  .ite (.refl _ _) (.ite ((only_modChan _ _ _).both (only_clearCause _ _ _)) (only_modCnt _ _ _))

theorem cyc_startChan (s : State) (n : Fin 64) (v : W48 × Bool) : (s.startChan n v).cyc = s.cyc := by
  unfold startChan
  dsimp only
  split
  · rfl
  · split <;> rfl

/-- A start at CNT 0 of a channel that acts on no link is made. -/
theorem startChan_zero (h : s.StartsAlone n) : ((s.startChan n (0, false)).chan n).c.run = true ∧
    ((s.startChan n (0, false)).chan n).c.cnt = 0 ∧ ((s.startChan n (0, false)).chan n).fenced = false := by
  have hcan : s.canStart n 0 = true := by simp [canStart, h.reload, h.clkSrc, h.linkOk]
  have hidle : ¬ ((s.chan n).fenced || (s.chan n).c.run) = true := by simp [h.unfenced, h.stopped]
  have hgo : s.startChan n (0, false) = s.beginRun n 0 false := (if_neg hidle).trans (if_pos hcan)
  have hst := steady_clearCause (s.modChan n fun c =>
    { c with
      c := { c.c.move s.tb 0 false with run := true, goPend := false, cfgErr := false }
      o := { c.o with outl := if bit c.o.ocfg 3 then .high else .low, outTap := 0, deadOn := false, rdmRun := false } }) n n cHOLD
  rw [chan_modChan_self] at hst
  rw [hgo]
  exact ⟨congrArg (·.c.run) hst, congrArg (·.c.cnt) hst, (congrArg (·.fenced) hst).trans h.unfenced⟩

/-- Without stagger a re-admission's start is at CNT 0, up (05 Table 5.6 step 3). -/
theorem startValue_zero (h : bit (s.grove (groveOf n)).stag 8 = false) (stagger : Bool) :
    s.startValue stagger true n = (0, false) := by simp [startValue, staggerSet, h]

/-! ## The channels of a grove -/

theorem mem_groveChans (n : Fin 64) : n ∈ groveChans (groveOf n) :=
  List.mem_map.2 ⟨⟨n.val % 8, by omega⟩, List.mem_finRange _, Fin.ext (Nat.div_add_mod n.val 8)⟩

theorem nodup_groveChans (g : Fin 8) : (groveChans g).Nodup := by
  have hinj : ∀ k l : Fin 8, chanOf g k = chanOf g l → k = l := fun k l h => by
    have hv : 8 * g.val + k.val = 8 * g.val + l.val := congrArg Fin.val h
    omega
  exact List.pairwise_map.2 ((List.nodup_finRange 8).imp fun {k l} hkl h => hkl (hinj k l h))

/-! ## A grove's tick in its stages -/

/-- The grove after the starts of a tick. -/
def groveStarted (s : State) (g : Fin 8) (starts : List (Fin 64)) (stagger zero : Bool) : State :=
  starts.foldl (fun t n => t.startChan n (s.startValue stagger zero n)) (s.modGrove g fun x => { x with pscCount := 0 })

/-- The ticks that the channels of a grove take after the starts. -/
def groveTicks (s u : State) (g : Fin 8) : List (Fin 64 × Tick) :=
  (groveChans g).filterMap fun n => (s.dueTick u n).map fun t => (n, t)

theorem groveTickWith_eq (s : State) (g : Fin 8) (starts : List (Fin 64)) (stagger zero : Bool) :
    let u := s.groveStarted g starts stagger zero
    s.groveTickWith g starts stagger zero = (runTicks u u (s.groveTicks u g)).sendPulses (u.pulsesOf (s.groveTicks u g)) := rfl

theorem only_groveStarted (s : State) (g : Fin 8) (starts : List (Fin 64)) (stagger zero : Bool) :
    OnlyChanges [.chans] (s.modGrove g fun x => { x with pscCount := 0 }) (s.groveStarted g starts stagger zero) :=
  .foldl (fun _ _ => only_startChan _ _ _) _ _

theorem only_groveTickWith (s : State) (g : Fin 8) (starts : List (Fin 64)) (stagger zero : Bool) :
    OnlyChanges [.chans, .groves, .tt] s (s.groveTickWith g starts stagger zero) := by
  rw [groveTickWith_eq]
  exact ((((only_modGrove s g _).trans (s.only_groveStarted g starts stagger zero)).trans (only_runTicks _ _ _)).trans
    (KeepsReadmits.sendPulses _ _).frame).mono (by decide)

theorem readmits_groveTickWith (s : State) (g : Fin 8) (starts : List (Fin 64)) (stagger zero : Bool) (h : Fin 8) :
    ((s.groveTickWith g starts stagger zero).grove h).readmits = (s.grove h).readmits := by
  rw [groveTickWith_eq, (KeepsReadmits.sendPulses _ _).readmits, readmits_runTicks,
    (s.only_groveStarted g starts stagger zero).grove (by decide)]
  exact (KeepsReadmits.modGrove g rfl).readmits h

theorem mem_groveTicks {u : State} {g : Fin 8} {p : Fin 64 × Tick} :
    p ∈ s.groveTicks u g ↔ p.1 ∈ groveChans g ∧ s.dueTick u p.1 = some p.2 := by
  obtain ⟨m, t⟩ := p
  simp [groveTicks]

theorem nodup_groveTicks (s u : State) (g : Fin 8) : (s.groveTicks u g).Nodup := by
  have hfst : ∀ (n : Fin 64) (p : Fin 64 × Tick), ((s.dueTick u n).map fun t => (n, t)) = some p → p.1 = n := fun n p h => by
    obtain ⟨t, -, rfl⟩ := Option.map_eq_some_iff.1 h
    rfl
  refine List.pairwise_filterMap.2 ((nodup_groveChans g).imp fun {m n} hmn p hp q hq hpq => hmn ?_)
  rw [← hfst m p hp, hpq, hfst n q hq]

/-! ## A start at CNT 0 in a grove's tick -/

/-- A channel that starts at CNT 0 takes the tick of that start. -/
theorem dueTick_zero {u : State} (hp : u.pulsed n = false) (h0 : (s.chan n).c.run = false) (hr : (u.chan n).c.run = true)
    (hc : (u.chan n).c.cnt = 0) : s.dueTick u n = some zeroTick := by
  simp [dueTick, hp, h0, hr, startTick, hc, zeroTick]

/-- Among the starts of a grove's tick, a channel that acts on no link starts at CNT 0. -/
theorem groveStarted_zero (h : s.StartsAlone n) {g : Fin 8} {starts : List (Fin 64)} (hn : n ∈ starts) (hd : starts.Nodup)
    {stagger zero : Bool} (hv : s.startValue stagger zero n = (0, false)) :
    ((s.groveStarted g starts stagger zero).chan n).c.run = true ∧
    ((s.groveStarted g starts stagger zero).chan n).c.cnt = 0 ∧
    ((s.groveStarted g starts stagger zero).chan n).fenced = false := by
  obtain ⟨u, hu, hst⟩ := foldl_at (p := fun t : State => (t.chan n).steady)
    (f := fun t m => t.startChan m (s.startValue stagger zero m)) hn hd (fun t m _ hm => steady_startChan_ne (Ne.symm hm) _)
    (s.modGrove g fun x => { x with pscCount := 0 })
  rw [hv] at hst
  obtain ⟨hrun, hcnt, hf⟩ := startChan_zero (h.of_steady hu)
  exact ⟨(congrArg (·.c.run) hst).trans hrun, (congrArg (·.c.cnt) hst).trans hcnt, (congrArg (·.fenced) hst).trans hf⟩

theorem cyc_groveStarted (s : State) (g : Fin 8) (starts : List (Fin 64)) (stagger zero : Bool) :
    (s.groveStarted g starts stagger zero).cyc = s.cyc :=
  foldl_keeps starts (fun t n _ => cyc_startChan t n _) _

/-- Among a grove's ticks, the tick of a start at CNT 0 leaves the channel running at CNT 0 with VALLEY. -/
theorem foldl_tickChan_zero {u : State} {ts : List (Fin 64 × Tick)} (hz : (n, zeroTick) ∈ ts) (hd : ts.Nodup)
    (huniq : ∀ p ∈ ts, p.1 = n → p.2 = zeroTick) (hr : (u.chan n).c.run = true) (hf : (u.chan n).fenced = false) :
    let v := ts.foldl (fun s p => s.tickChan p.1 p.2) u
    (v.chan n).c.run = true ∧ (v.chan n).c.cnt = 0 ∧ (v.chan n).ev.flag.getLsbD 5 = true := by
  intro v
  have hne : ∀ t : State, ∀ p ∈ ts, p ≠ (n, zeroTick) → ((t.tickChan p.1 p.2).chan n).logic = (t.chan n).logic := by
    intro t p hp hpn
    exact t.logic_tickChan_ne (fun hn => hpn (Prod.ext hn.symm (huniq p hp hn.symm))) p.2
  obtain ⟨w, hw, hv⟩ := foldl_at (p := fun t : State => (t.chan n).logic)
    (f := fun t (p : Fin 64 × Tick) => t.tickChan p.1 p.2) hz hd hne u
  have hwr : (w.chan n).c.run = true := (congrArg (·.c.run) hw).trans hr
  have hwf : (w.chan n).fenced = false := (congrArg (·.fenced) hw).trans hf
  obtain ⟨hc, h5⟩ := w.tickChan_valley (t := zeroTick) hwf rfl
  have hvc : (v.chan n).c = Counter.take w.compat w.tb (w.chan n).c zeroTick := (congrArg (·.c) hv).trans hc
  have hve : (v.chan n).ev = ((w.tickChan n zeroTick).chan n).ev := congrArg (·.ev) hv
  exact ⟨(congrArg Counter.run hvc).trans hwr, congrArg Counter.cnt hvc, hve ▸ h5⟩

theorem groveTickWith_zero (h : s.StartsAlone n) (hp : s.pulsed n = false) {starts : List (Fin 64)} (hn : n ∈ starts)
    (hd : starts.Nodup) {stagger zero : Bool} (hv : s.startValue stagger zero n = (0, false)) :
    let t := s.groveTickWith (groveOf n) starts stagger zero
    (t.chan n).c.run = true ∧ (t.chan n).c.cnt = 0 ∧ (t.chan n).ev.flag.getLsbD 5 = true := by
  intro t
  obtain ⟨hrun, hcnt, hf⟩ := groveStarted_zero (g := groveOf n) h hn hd hv
  generalize hu : s.groveStarted (groveOf n) starts stagger zero = u at hrun hcnt hf
  have hcyc : u.cyc = s.cyc := hu ▸ s.cyc_groveStarted (groveOf n) starts stagger zero
  have hup : u.pulsed n = false := (congrArg (fun c : Cycle => c.ticked.contains n) hcyc).trans hp
  have hdue : s.dueTick u n = some zeroTick := dueTick_zero hup h.stopped hrun hcnt
  have hmem : (n, zeroTick) ∈ s.groveTicks u (groveOf n) := mem_groveTicks.2 ⟨mem_groveChans n, hdue⟩
  have huniq : ∀ p ∈ s.groveTicks u (groveOf n), p.1 = n → p.2 = zeroTick := by
    intro p hp hpn
    have hd := (mem_groveTicks.1 hp).2
    rw [hpn, hdue] at hd
    exact (Option.some.inj hd).symm
  obtain ⟨hr, hc, h5⟩ := foldl_tickChan_zero hmem (s.nodup_groveTicks u _) huniq hrun hf
  have hl : (t.chan n).logic = (((s.groveTicks u (groveOf n)).foldl (fun s p => s.tickChan p.1 p.2) u).chan n).logic := by
    rw [show t = _ from s.groveTickWith_eq (groveOf n) starts stagger zero, hu, (KeepsReadmits.sendPulses _ _).frame.chan (by decide),
      logic_runTicks]
  exact ⟨(congrArg (·.c.run) hl).trans hr, (congrArg (·.c.cnt) hl).trans hc,
    (congrArg (·.ev.flag.getLsbD 5) hl).trans h5⟩

/-! ## Re-admission -/

theorem noReadmit_iff (s : State) (g : Fin 8) : ((groveChans g).all fun n => !bit (s.chan n).o.clr 9) = true ↔
    ∀ k, bit (s.chan (chanOf g k)).o.clr 9 = false := by simp [groveChans]

theorem grove_serr_self (s : State) (g : Fin 8) : (s.grvFlag g 4).grove g = { s.grove g with serr := true } := by
  simp [grvFlag, bit]
theorem grove_serr_ne {g h : Fin 8} (hg : h ≠ g) : (s.grvFlag g 4).grove h = s.grove h := by
  rw [grvFlag, grove_hwSet, grove_modGrove, if_neg (Ne.symm hg)]

theorem rdmGo_refused {g : Fin 8} (h : ∀ k, bit (s.chan (chanOf g k)).o.clr 9 = false) : s.rdmGo g = s.grvFlag g 4 :=
  if_pos ((s.noReadmit_iff g).2 h)

/-- The re-admission noted, before the tick in which its channels start. -/
def readmitting (s : State) (g : Fin 8) : State := s.modGrove g fun x => { x with rdmActive := true }

theorem rdmGo_accepted {g : Fin 8} (h : ∃ k, bit (s.chan (chanOf g k)).o.clr 9 = true) : s.rdmGo g =
    (s.readmitting g).groveTickWith g ((groveChans g).filter fun n => ((s.readmitting g).chan n).c.en) true true := by
  obtain ⟨k, hk⟩ := h
  exact if_neg fun hall => Bool.false_ne_true (((s.noReadmit_iff g).1 hall k).symm.trans hk)

theorem only_rdmGo (s : State) (g : Fin 8) : OnlyChanges [.chans, .groves, .tt] s (s.rdmGo g) :=
  .ite ((only_grvFlag s g _).mono (by decide))
    (((only_modGrove s g _).mono (by decide)).both (only_groveTickWith _ _ _ _ _))

theorem readmits_rdmGo {g : Fin 8} (h : ∃ k, bit (s.chan (chanOf g k)).o.clr 9 = true) :
    ((s.rdmGo g).grove g).readmits = true := by
  rw [rdmGo_accepted h, readmits_groveTickWith, readmitting, grove_modGrove_self]
  rfl

theorem rdmGo_starts (h : ∃ k, bit (s.chan (chanOf (groveOf n) k)).o.clr 9 = true) (hs : s.StartsAlone n)
    (he : (s.chan n).c.en = true) (hg : bit (s.grove (groveOf n)).stag 8 = false) (hp : s.pulsed n = false) :
    ((s.rdmGo (groveOf n)).chan n).c.run = true ∧ ((s.rdmGo (groveOf n)).chan n).c.cnt = 0 ∧
    ((s.rdmGo (groveOf n)).chan n).ev.flag.getLsbD 5 = true := by
  rw [rdmGo_accepted h]
  have hstag : bit ((s.readmitting (groveOf n)).grove (groveOf n)).stag 8 = false := by
    rw [readmitting, grove_modGrove_self]
    exact hg
  exact groveTickWith_zero (s := s.readmitting (groveOf n)) (hs.of_steady rfl) hp
    (List.mem_filter.2 ⟨mem_groveChans n, he⟩) (List.Pairwise.filter _ (nodup_groveChans _)) (startValue_zero hstag true)

/-! ## Readback -/

theorem rbCompares_eq (h : (s.chan n).o.chgAt ≤ s.time) : s.rbCompares n = (bit (s.chan n).o.ocfg 9 &&
    (s.intended n != .released) && decide (fld (s.chan n).o.ocfg 15 10 + (s.chan n).o.chgAt ≤ s.time)) := by
  have hiff : fld (s.chan n).o.ocfg 15 10 ≤ s.time - (s.chan n).o.chgAt ↔
      fld (s.chan n).o.ocfg 15 10 + (s.chan n).o.chgAt ≤ s.time := Nat.le_sub_iff_add_le h
  simp only [rbCompares, hiff]

theorem readbackMismatch_compared (h : s.rbCompares n = true) :
    s.readbackMismatch n = ((s.setOstat n oRDBK).setCause n cRDBK).report 0x08 1 n.val 0 := if_pos h
theorem readbackMismatch_idle (h : s.rbCompares n = false) : s.readbackMismatch n = s := if_neg (by simp [h])


end State

/-- The output shows a readback error and is in Clearing for it (05 R202, Tables 5.4, 5.7). -/
def Output.ReadbackClears (o : Output) : Prop := bit o.ostat 5 = true ∧ bit o.clr 6 = true ∧ o.inClr = true

theorem Output.ReadbackClears.pairCause {o : Output} (h : o.ReadbackClears) (b : Bool) : (o.pairCause b).ReadbackClears := by
  obtain ⟨hs, hc, hi⟩ := h
  have hc' : o.clr.getLsbD 6 = true := hc
  cases b
  · exact ⟨hs, by simp [Output.pairCause, bit, cPAIR, hc'], hi⟩
  · exact ⟨hs, by simp [Output.pairCause, bit, hc'], rfl⟩

namespace State
variable {s : State} {n : Fin 64}

theorem setRdbk_clears (s : State) (n : Fin 64) : (((s.setOstat n oRDBK).setCause n cRDBK).chan n).o.ReadbackClears := by
  refine output_settlePair (fun o b h => h.pairCause b) ?_ n
  rw [chan_modOut, if_pos rfl, setOstat, chan_hwSet, chan_modOut, if_pos rfl]
  exact ⟨by simp [bit, oRDBK], by simp [bit, cRDBK], rfl⟩

theorem chan_readbackMismatch_ne {m : Fin 64} (hn : m ≠ n) (hp : m ≠ partner n) :
    (s.readbackMismatch n).chan m = s.chan m := by
  unfold readbackMismatch
  split
  · rw [chan_report, chan_setCause_ne hn hp, chan_setOstat_ne hn]
  · rfl

theorem only_readbackMismatch (s : State) (n : Fin 64) : OnlyChanges [.chans, .reports] s (s.readbackMismatch n) :=
  .ite ((((only_setOstat s n _).both (only_setCause _ n _)).trans (only_report _ _ _ _ _)).mono (by decide)) (.refl _ _)

end State

theorem and_valley_ne_zero {b : BitVec 16} (h : b.getLsbD 5 = true) : b &&& 0x20 ≠ 0 := by
  intro h0
  have hb : (b &&& 0x20).getLsbD 5 = true := by
    rw [BitVec.getLsbD_and, h]
    rfl
  exact absurd (h0 ▸ hb) (by decide)

/-- Settles O27: a compared mismatch is RDBK, its cause and one report; GO without READMIT is SERR alone, and else a tick of the
grove in which the enabled channels start at CNT 0. -/
theorem readbackAndReadmit : Obligations.ReadbackAndReadmit := by
  unfold Obligations.ReadbackAndReadmit
  intro s n g x compared hup
  refine ⟨fun hc hat => ?_, fun hc hat => ?_, fun hnone => ?_, fun hsome => ?_⟩
  · have hrb := State.readbackMismatch_compared ((State.rbCompares_eq hat).trans hc)
    obtain ⟨hostat, hclr, hin⟩ := s.setRdbk_clears n
    have hset : OnlyChanges [.chans] s ((s.setOstat n oRDBK).setCause n cRDBK) :=
      (s.only_setOstat n _).both (State.only_setCause _ n _)
    have hrep : ((s.setOstat n oRDBK).setCause n cRDBK).reports = s.reports := hset .reports (by decide)
    have htime : ((s.setOstat n oRDBK).setCause n cRDBK).time = s.time := hset .time (by decide)
    refine completes_up rfl hup ⟨?_, ?_, ?_, ?_, fun m hn hp => State.chan_readbackMismatch_ne hn hp⟩
      (s.only_readbackMismatch n) <;> rw [hrb]
    · exact hostat
    · exact hclr
    · exact hin
    · rw [State.report, hrep, htime]
      rfl
  · exact completes_unchanged rfl (State.readbackMismatch_idle ((State.rbCompares_eq hat).trans hc))
  · refine completes_up rfl hup ?_ ?_ <;> rw [State.rdmGo_refused hnone]
    · exact ⟨State.grove_serr_self s g, fun h hh => State.grove_serr_ne hh⟩
    · exact s.only_grvFlag g 4
  · refine completes_up rfl hup ⟨?_, fun _ he hf hr ha hk hl hld hst hp => ?_⟩ (s.only_rdmGo g)
    · simpa [Grove.readmits] using State.readmits_rdmGo hsome
    · obtain ⟨hrun, hcnt, h5⟩ := State.rdmGo_starts hsome ⟨hf, hr, ha, hk, hl, hld⟩ he hst hp
      exact ⟨hrun, hcnt, and_valley_ne_zero h5⟩

end Sys2Proof.Machine
end

section
/-!
PROOFS. Plausibility checkers (06 R236, R237, R246, R247; 00 R9): a write of PL_CTL and a clear of PL_STAT.TRIP (O32). The holds
come first: what an entry into LOST, the end of a hold and its start leave of the domains.
-/
namespace Sys2Proof.Machine

theorem OnlyChanges.ad {ps : List Part} {s t : State} (h : OnlyChanges ps s t) (ha : Part.ads ∉ ps) (d : Fin 3) :
    t.ad d = s.ad d := congrArg (fun v => at_ v d) (h .ads ha)
theorem OnlyChanges.pl {ps : List Part} {s t : State} (h : OnlyChanges ps s t) (hp : Part.pls ∉ ps) (i : Fin 2) :
    t.pl i = s.pl i := congrArg (fun v => at_ v i) (h .pls hp)

namespace State
variable (s : State)

/-! ## Frames of a domain's exit -/

theorem only_unfire (n : Fin 64) : OnlyChanges [.chans] s (s.unfire n) := by
  unfold unfire
  split
  · exact .refl _ _
  · exact only_modOut _ _ _
theorem only_markHead (n : Fin 64) : OnlyChanges [.chans] s (s.markHead n) := (only_modOut _ _ _).both (only_modCyc _ _ _)
theorem only_discardEdges (p : Edge → Bool) : OnlyChanges [.chans] s (s.discardEdges p) :=
  .foldFin (fun n u => .ite
    (((only_modOut u n _).both (.ite (only_markHead _ n) (.refl _ _))).both (only_noteUnder _ n)) (.refl _ _)) s
theorem only_startSweep (d : Fin 3) (why : SweepWhy) : OnlyChanges [.tt] s (s.startSweep d why) := only_modTt _ _
theorem only_endAngles (d : Fin 3) (before : AngleDom) (why : SweepWhy) :
    OnlyChanges [.chans, .tt] s (s.endAngles d before why) := by
  unfold endAngles
  extract_lets u v
  have hv : OnlyChanges [.chans] s v :=
    (only_modCyc s _ _).both (.foldl (fun t _ => .ite (only_unfire t _) (.refl _ _)) _ _)
  exact (hv.both (only_discardEdges v _)).trans (only_startSweep _ d why)
theorem only_raiseAd (d : Fin 3) (b : BitVec 16) : OnlyChanges [.ads, .tt] s (s.raiseAd d b) := by
  have h : OnlyChanges [.ads, .tt] s
      ((s.modAd d fun a => { a with ev := ((s.ad d).ev.set b).1 }).hwSet (0x4024 + 0x200 * d.val) (b.setWidth 32)) :=
    ((only_modAd _ _ _).both (only_hwSet _ _ _ _)).mono (by decide)
  exact .ite (h.both ((only_request _ _ _).mono (by decide))) h
theorem only_loseDomain (d : Fin 3) (reason : Nat) : OnlyChanges [.chans, .ads, .tt] s (s.loseDomain d reason) := by
  have hmod : ∀ f, OnlyChanges [.chans, .ads, .tt] s (s.modAd d f) := fun f => (only_modAd s d f).mono (by decide)
  exact .ite (.refl _ _) (.ite (.ite (hmod _) (.refl _ _))
    (((hmod _).both ((only_raiseAd _ d _).mono (by decide))).both ((only_endAngles _ d _ _).mono (by decide))))
theorem only_takeHolds (s0 : State) : OnlyChanges [.chans, .ads, .tt] s (takeHolds s0 s) :=
  .foldFin (fun d u => .ite (only_loseDomain u d _) (.refl _ _)) s

theorem ad_raiseAd (d j : Fin 3) (b : BitVec 16) :
    (s.raiseAd d b).ad j = if d = j then { s.ad d with ev := ((s.ad d).ev.set b).1 } else s.ad j := by
  unfold raiseAd
  dsimp only
  split <;> simp

/-- An exit of domain d changes no other domain, and of d the fields that it sets, and the flags. -/
theorem ad_exit (d : Fin 3) (f : AngleDom → AngleDom) (b : BitVec 16) (before : AngleDom) (why : SweepWhy) (j : Fin 3) :
    (((s.modAd d f).raiseAd d b).endAngles d before why).ad j =
      if d = j then { f (s.ad d) with ev := ((f (s.ad d)).ev.set b).1 } else s.ad j := by
  rw [(only_endAngles _ d before why).ad (by decide), ad_raiseAd, ad_modAd_self, ad_modAd]
  split <;> rfl

end State

/-! ## What the holds rest on -/

/-- The fields of a domain that hold it or another one: its fence and its governor (06 R236). -/
def AngleDom.holdTerms (a : AngleDom) : Bool × Bool × BitVec 16 := (a.fenced, a.govAct, a.gov)

namespace State

/-- What the holds of all domains rest on: the checkers, and each domain's fence and governor (06 R236). -/
def holdInputs (s : State) : Vector Checker 2 × (Fin 3 → Bool × Bool × BitVec 16) := (s.pls, fun e => (s.ad e).holdTerms)

variable {s t : State}

theorem held_of_holdInputs (h : t.holdInputs = s.holdInputs) (d : Fin 3) : t.held d = s.held d := by
  obtain ⟨hpls, had⟩ := Prod.mk.inj h
  have hpl : ∀ i, t.pl i = s.pl i := fun i => congrArg (fun v => at_ v i) hpls
  have hf : ∀ e, (t.ad e).fenced = (s.ad e).fenced := fun e => congrArg (·.1) (congrFun had e)
  have ha : ∀ e, (t.ad e).govAct = (s.ad e).govAct := fun e => congrArg (·.2.1) (congrFun had e)
  have hg : ∀ e, (t.ad e).gov = (s.ad e).gov := fun e => congrArg (·.2.2) (congrFun had e)
  unfold held AngleDom.govAct_ AngleDom.govCut
  simp only [hpl, hf, ha, hg]

/-- From s to t domain d alone changes, and no hold arises or ends. -/
def OnlyMoves (d : Fin 3) (s t : State) : Prop := t.holdInputs = s.holdInputs ∧ ∀ j, j ≠ d → t.ad j = s.ad j

theorem OnlyMoves.refl (d : Fin 3) (s : State) : OnlyMoves d s s := ⟨rfl, fun _ _ => rfl⟩
theorem OnlyMoves.ite {d : Fin 3} {u : State} {c : Prop} [Decidable c] (h : OnlyMoves d s t) (k : OnlyMoves d s u) :
    OnlyMoves d s (if c then t else u) := by split <;> assumption

/-- A state whose checkers are the same, and whose domains differ in d alone, which keeps its fence and its governor. -/
theorem onlyMoves_of_ad {d : Fin 3} {a : AngleDom} (hpls : t.pls = s.pls) (ha : a.holdTerms = (s.ad d).holdTerms)
    (had : ∀ j, t.ad j = if d = j then a else s.ad j) : OnlyMoves d s t := by
  refine ⟨Prod.ext hpls (funext fun e => ?_), fun j hj => (had j).trans (if_neg hj.symm)⟩
  change (t.ad e).holdTerms = (s.ad e).holdTerms
  rw [had]
  split
  · next he => rw [ha, he]
  · rfl

/-- A pass over the domains, each step of which moves its own one: d moves by its own step. -/
theorem foldFin_moves {f : Fin 3 → State → State} (hf : ∀ i u, OnlyMoves i u (f i u)) (s : State) (d : Fin 3) :
    (foldFin 3 f s).holdInputs = s.holdInputs ∧
    ∃ u, u.ad d = s.ad d ∧ u.holdInputs = s.holdInputs ∧ (foldFin 3 f s).ad d = (f d u).ad d := by
  obtain ⟨u, hu, hfold⟩ := foldl_at (p := fun u : State => (u.ad d, u.holdInputs)) (List.mem_finRange d)
    (List.nodup_finRange 3) (fun u i _ hi => Prod.ext ((hf i u).2 d hi.symm) (hf i u).1) s
  exact ⟨foldl_keeps _ (fun u i _ => (hf i u).1) s, u, congrArg Prod.fst hu, congrArg Prod.snd hu, congrArg Prod.fst hfold⟩

/-! ## LOST, and the ends and starts of holds -/

variable {s0 : State} {d : Fin 3}

/-- An entry into LOST moves one domain; one that is OFF stays so, and any other ends in LOST (06 R233, R256). -/
theorem ad_loseDomain (s : State) (d : Fin 3) (reason : Nat) : ∃ a : AngleDom, a.holdTerms = (s.ad d).holdTerms ∧
    ((s.ad d).st ≠ .off → a.st = .lost) ∧ ∀ j, (s.loseDomain d reason).ad j = if d = j then a else s.ad j := by
  have hsame : ∀ j, s.ad j = if d = j then s.ad d else s.ad j := fun j => by split <;> simp_all
  unfold loseDomain
  dsimp only
  split
  · next hoff => exact ⟨s.ad d, rfl, fun h => absurd hoff h, hsame⟩
  · split
    · next hlost =>
      split
      · exact ⟨{ s.ad d with reason := s.exitReason d reason }, rfl, fun _ => hlost, fun j => ad_modAd s d j _⟩
      · exact ⟨s.ad d, rfl, fun _ => hlost, hsame⟩
    · refine ⟨_, ?_, ?_, s.ad_exit d _ _ _ _⟩
      · rfl
      · exact fun _ => rfl

theorem loseDomain_moves (s : State) (d : Fin 3) (reason : Nat) : OnlyMoves d s (s.loseDomain d reason) := by
  obtain ⟨a, ha, -, had⟩ := s.ad_loseDomain d reason
  exact onlyMoves_of_ad (only_loseDomain s d reason .pls (by decide)) ha had

theorem st_loseDomain (h : (s.ad d).st ≠ .off) (reason : Nat) : ((s.loseDomain d reason).ad d).st = .lost := by
  obtain ⟨a, -, hst, had⟩ := s.ad_loseDomain d reason
  rw [had, if_pos rfl, hst h]

/-- One domain whose last hold ended since s0 enters SEARCH (06 R237). -/
theorem release_moves (s0 s : State) (d : Fin 3) : OnlyMoves d s
    (if s0.held d && !s.held d && (s.ad d).st == .lost then s.modAd d AngleDom.search else s) :=
  .ite (onlyMoves_of_ad (a := (s.ad d).search) rfl rfl fun j => ad_modAd s d j _) (.refl d s)

theorem held_releaseHolds (s0 s : State) (d : Fin 3) : (releaseHolds s0 s).held d = s.held d :=
  held_of_holdInputs (foldFin_moves (fun i u => release_moves s0 u i) s d).1 d

theorem ad_releaseHolds (s0 s : State) (d : Fin 3) : (releaseHolds s0 s).ad d =
    if s0.held d = true ∧ s.held d = false ∧ (s.ad d).st = .lost then (s.ad d).search else s.ad d := by
  obtain ⟨-, u, had, hin, h⟩ := foldFin_moves (fun i u => release_moves s0 u i) s d
  rw [releaseHolds, h, held_of_holdInputs hin, had]
  simp only [Bool.and_eq_true, Bool.not_eq_true', beq_iff_eq, and_assoc]
  split
  · rw [ad_modAd_self, had]
  · exact had

theorem take_moves (s0 s : State) (d : Fin 3) : OnlyMoves d s
    (if !s0.held d && s.held d then s.loseDomain d (s.holdReason d) else s) :=
  .ite (loseDomain_moves s d _) (.refl d s)

theorem held_takeHolds (s0 s : State) (d : Fin 3) : (takeHolds s0 s).held d = s.held d :=
  held_of_holdInputs (foldFin_moves (fun i u => take_moves s0 u i) s d).1 d

theorem ad_takeHolds_old (h : s0.held d = true ∨ s.held d = false) : (takeHolds s0 s).ad d = s.ad d := by
  obtain ⟨-, u, had, hin, hfold⟩ := foldFin_moves (fun i u => take_moves s0 u i) s d
  rw [takeHolds, hfold, held_of_holdInputs hin, if_neg (by rcases h with h | h <;> simp [h]), had]

theorem st_takeHolds_new (h0 : s0.held d = false) (h : s.held d = true) (hoff : (s.ad d).st ≠ .off) :
    ((takeHolds s0 s).ad d).st = .lost := by
  obtain ⟨-, u, had, hin, hfold⟩ := foldFin_moves (fun i u => take_moves s0 u i) s d
  rw [takeHolds, hfold, held_of_holdInputs hin, if_pos (by simp [h0, h]), st_loseDomain (by rwa [had])]

/-! ### A change of the checkers alone -/

/-- A LOST domain whose last hold ends with the change from s to t enters SEARCH. -/
theorem st_releaseHolds_freed (hads : t.ad d = s.ad d) (hst : (s.ad d).st = .lost) (h0 : s.held d = true)
    (h : t.held d = false) : ((releaseHolds s t).ad d).st = .search := by
  rw [ad_releaseHolds, if_pos ⟨h0, h, hads ▸ hst⟩]
  rfl

/-- A domain that is not OFF and whose first hold starts with the change from s to t enters LOST. -/
theorem st_takeHolds_held (hads : t.ad d = s.ad d) (hoff : (s.ad d).st ≠ .off) (h0 : s.held d = false)
    (h : t.held d = true) : ((takeHolds s (releaseHolds s t)).ad d).st = .lost := by
  refine st_takeHolds_new h0 ((held_releaseHolds s t d).trans h) ?_
  rwa [ad_releaseHolds, if_neg (by simp [h0]), hads]

end State

/-! ## Fields of a masked word -/

theorem testBit_fld {k : Nat} (w : BitVec k) (hi lo j : Nat) :
    (fld w hi lo).testBit j = (decide (j < hi - lo + 1) && w.getLsbD (lo + j)) := by
  rw [fld, Nat.testBit_mod_two_pow, Nat.testBit_div_two_pow, Nat.add_comm j lo]
  rfl

theorem fld_and {k : Nat} (x y : BitVec k) (hi lo : Nat) : fld (x &&& y) hi lo = fld x hi lo &&& fld y hi lo := by
  refine Nat.eq_of_testBit_eq fun j => ?_
  simp only [testBit_fld, Nat.testBit_and, BitVec.getLsbD_and]
  cases decide (j < hi - lo + 1) <;> simp

theorem fld_setWidth {k m : Nat} (w : BitVec k) {hi lo : Nat} (hm : hi < m) (hlo : lo ≤ hi) :
    fld (w.setWidth m) hi lo = fld w hi lo := by
  refine Nat.eq_of_testBit_eq fun j => ?_
  rw [testBit_fld, testBit_fld, BitVec.getLsbD_setWidth]
  by_cases hj : j < hi - lo + 1
  · have hmj : lo + j < m := by omega
    simp [hmj]
  · simp [hj]

/-- A mask that is all ones over a field passes the field. -/
theorem fld_masked {k m : Nat} (w : BitVec k) {mask : BitVec m} {hi lo : Nat} (hm : hi < m) (hlo : lo ≤ hi)
    (hmask : fld mask hi lo = 2 ^ (hi - lo + 1) - 1) : fld (w.setWidth m &&& mask) hi lo = fld w hi lo := by
  rw [fld_and, hmask, fld_setWidth w hm hlo, Nat.and_two_pow_sub_one_eq_mod, Nat.mod_eq_of_lt (fld_lt w hi lo)]

/-! ## PL_CTL and PL_STAT.TRIP -/

/-- The fields of a PL_CTL value refuse its EN: a domain 3, or SRC equal to REF (06 R247). -/
def plCtlRefused {k : Nat} (w : BitVec k) : Bool :=
  decide (fld w 5 4 = 3 ∨ fld w 7 6 = 3 ∨ fld w 9 8 = 3 ∨ fld w 5 4 = fld w 7 6)

/-- The fields that a write of PL_CTL takes: all, or all but EN (06 Table 6.11, R247). -/
def plCtlMask (noEn : Bool) : BitVec 16 := if noEn then 0xF3F2 else 0xF3F3

/-- A checker after a write of its PL_CTL (06 R247). -/
def Checker.written (p : Checker) (w : Word) : Checker :=
  { p with ctl := w.setWidth 16 &&& plCtlMask (bit w 0 && plCtlRefused w)
           cfgErr := if bit w 0 then plCtlRefused w else p.cfgErr }

theorem bit_plCtl (w : Word) (noEn : Bool) : bit (w.setWidth 16 &&& plCtlMask noEn) 0 = (bit w 0 && !noEn) := by
  cases noEn <;> simp [bit, plCtlMask]

theorem fld_plCtl (w : Word) (noEn : Bool) {hi lo : Nat} (hm : hi < 16 := by decide) (hlo : lo ≤ hi := by decide)
    (hmask : ∀ b, fld (plCtlMask b) hi lo = 2 ^ (hi - lo + 1) - 1 := by decide) :
    fld (w.setWidth 16 &&& plCtlMask noEn) hi lo = fld w hi lo := fld_masked w hm hlo (hmask noEn)

theorem Checker.written_fields (p : Checker) (w : Word) : let q := p.written w
    fld q.ctl 1 1 = fld w 1 1 ∧ fld q.ctl 5 4 = fld w 5 4 ∧ fld q.ctl 7 6 = fld w 7 6 ∧ fld q.ctl 9 8 = fld w 9 8 ∧
      fld q.ctl 15 12 = fld w 15 12 ∧ q = { p with ctl := q.ctl, cfgErr := q.cfgErr } :=
  ⟨fld_plCtl w _, fld_plCtl w _, fld_plCtl w _, fld_plCtl w _, fld_plCtl w _, rfl⟩

theorem plCtlRefused_masked (w : Word) : plCtlRefused (w.setWidth 16 &&& 0xF3F3 : BitVec 16) = plCtlRefused w := by
  have h54 : fld (w.setWidth 16 &&& 0xF3F3 : BitVec 16) 5 4 = fld w 5 4 := fld_plCtl w false
  have h76 : fld (w.setWidth 16 &&& 0xF3F3 : BitVec 16) 7 6 = fld w 7 6 := fld_plCtl w false
  have h98 : fld (w.setWidth 16 &&& 0xF3F3 : BitVec 16) 9 8 = fld w 9 8 := fld_plCtl w false
  simp only [plCtlRefused, h54, h76, h98]

namespace State
variable {s : State} {k : Fin 2}

theorem writePlCtl_locked (h : s.boot.locked = true) (w : Word) : s.writePlCtl k w = s := if_pos h

theorem writePlCtl_unlocked (h : s.boot.locked = false) (w : Word) :
    s.writePlCtl k w = takeHolds s (releaseHolds s (s.modPl k (·.written w))) := by
  have hen : bit (w.setWidth 16 &&& 0xF3F3) 0 = bit w 0 := (bit_plCtl w false).trans (Bool.and_true _)
  have hbad := decide_eq_true_iff.symm.trans (Bool.eq_iff_iff.1 (plCtlRefused_masked w))
  refine (if_neg (by simp [h])).trans (congrArg (fun f => takeHolds s (releaseHolds s (s.modPl k f))) (funext fun p => ?_))
  simp only [hen, hbad, Checker.written]
  cases bit w 0
  · rfl
  · cases plCtlRefused w
    · rfl
    · simp [plCtlMask, BitVec.and_assoc]

theorem pl_writePlCtl (h : s.boot.locked = false) (w : Word) (j : Fin 2) :
    (s.writePlCtl k w).pl j = if k = j then (s.pl k).written w else s.pl j := by
  rw [writePlCtl_unlocked h, (only_takeHolds _ s).pl (by decide), (only_releaseHolds _ s).pl (by decide), pl_modPl]

theorem only_writePlCtl (h : s.boot.locked = false) (k : Fin 2) (w : Word) :
    OnlyChanges [.chans, .ads, .pls, .tt] s (s.writePlCtl k w) := by
  rw [writePlCtl_unlocked h]
  exact (((only_modPl s k _).trans (only_releaseHolds _ s)).trans (only_takeHolds _ s)).mono (by decide)

/-- A LOST domain whose last hold the write ends enters SEARCH (06 R237). -/
theorem st_writePlCtl_freed {w : Word} {d : Fin 3} (hl : s.boot.locked = false) (hst : (s.ad d).st = .lost)
    (h0 : s.held d = true) (h : (s.writePlCtl k w).held d = false) : ((s.writePlCtl k w).ad d).st = .search := by
  rw [writePlCtl_unlocked hl, held_takeHolds, held_releaseHolds] at h
  rw [writePlCtl_unlocked hl, ad_takeHolds_old (.inl h0)]
  exact st_releaseHolds_freed rfl hst h0 h

/-- A domain that is not OFF and whose first hold the write starts enters LOST (06 R236). -/
theorem st_writePlCtl_held {w : Word} {d : Fin 3} (hl : s.boot.locked = false) (hoff : (s.ad d).st ≠ .off)
    (h0 : s.held d = false) (h : (s.writePlCtl k w).held d = true) : ((s.writePlCtl k w).ad d).st = .lost := by
  rw [writePlCtl_unlocked hl, held_takeHolds, held_releaseHolds] at h
  rw [writePlCtl_unlocked hl]
  exact st_takeHolds_held rfl hoff h0 h

theorem clearTrip_cleared (htrip : (s.pl k).trip = true) (hw : s.w1c (0x4610 + 0x20 * k.val) 1 ≠ 0) :
    s.clearTrip k = releaseHolds s (s.modPl k fun p => { p with trip := false, cnt := 0 }) := if_pos (by simpa [htrip] using hw)

/-- A trip that is not there, or that hardware sets in this cycle, is not cleared (00 R9). -/
theorem clearTrip_idle (h : (s.pl k).trip = false ∨ s.w1c (0x4610 + 0x20 * k.val) 1 = 0) : s.clearTrip k = s := by
  refine if_neg fun hc => ?_
  obtain ⟨htrip, hw⟩ := Bool.and_eq_true_iff.1 hc
  rcases h with h | h
  · exact absurd htrip (by simp [h])
  · exact absurd h (bne_iff_ne.1 hw)

end State

/-- Settles O32: the write puts the checked value in the checker and then ends and starts the holds that this changes; a clear of
TRIP puts the count to 0 and ends holds only. -/
theorem checkerControl : Obligations.CheckerControl := by
  unfold Obligations.CheckerControl
  intro s k w p bad fields freed
  refine ⟨fun h => ?_, fun hup hl => ?_, fun hup htrip hw => ?_, fun h => ?_⟩
  · rcases h with hl | hdown
    · exact completes_unchanged rfl (State.writePlCtl_locked hl w)
    · exact completes_held rfl hdown
  · have hpl : (s.writePlCtl k w).pl k = p.written w := (State.pl_writePlCtl hl w k).trans (if_pos rfl)
    refine completes_up rfl hup ⟨?_, ?_, ?_, ?_, ?_, ?_, fun j hj => ?_⟩ (State.only_writePlCtl hl k w)
    · rw [hpl]
      exact p.written_fields w
    · rw [hpl, Checker.written, bit_plCtl]
      cases bit w 0 <;> simp [plCtlRefused, bad]
    · intro hen
      simp [hpl, Checker.written, hen, plCtlRefused, bad]
    · intro hen
      simp [hpl, Checker.written, hen]
    · exact fun d => State.st_writePlCtl_freed hl
    · exact fun d => State.st_writePlCtl_held hl
    · rw [State.pl_writePlCtl hl, if_neg hj.symm]
  · refine completes_up rfl hup ?_ ?_ <;> rw [State.clearTrip_cleared htrip hw]
    · refine ⟨?_, fun j hj => ?_, fun d hst h0 h => ?_⟩
      · rw [(State.only_releaseHolds _ s).pl (by decide), State.pl_modPl_self]
      · rw [(State.only_releaseHolds _ s).pl (by decide), State.pl_modPl, if_neg hj.symm]
      · exact State.st_releaseHolds_freed rfl hst h0 ((State.held_releaseHolds _ _ d).symm.trans h)
    · exact ((State.only_modPl s k _).trans (State.only_releaseHolds _ s)).mono (by decide)
  · rcases h with hdown | h
    · exact completes_held rfl hdown
    · exact completes_unchanged rfl (State.clearTrip_idle h)

end Sys2Proof.Machine
end

section
/-!
PROOFS. Registers of the microengine (07 R310, R284, Table 7.12): writes of ME_SPILL and of ME_G0–ME_G7 (O37).
-/
namespace Sys2Proof.Machine

/-- A field fits a register of the field's width. -/
theorem toNat_ofNat_fld {k : Nat} (w : BitVec k) (hi lo : Nat) :
    (BitVec.ofNat (hi - lo + 1) (fld w hi lo)).toNat = fld w hi lo :=
  (BitVec.toNat_ofNat _ _).trans (Nat.mod_eq_of_lt (fld_lt w hi lo))

namespace State
variable {s : State} {w : Word}

/-! ## ME_SPILL -/

/-- The frames that a value of ME_SPILL gives the spill stack: 0 stands for all 256 (07 Table 7.12). -/
def spillDepth (w : Word) : Nat := if fld w 23 16 = 0 then 256 else fld w 23 16

/-- The write is ignored when the configuration is locked or a frame would lie beyond BANK5 (07 R310). -/
theorem writeSpill_ignored (h : s.boot.locked = true ∨ 256 < fld w 7 0 + spillDepth w) : s.writeSpill w = s := if_pos h

theorem writeSpill_taken (hl : s.boot.locked = false) (hw : fld w 7 0 + spillDepth w ≤ 256) :
    s.writeSpill w = s.modMe fun m => { m with spillFrames := .ofNat 8 (fld w 23 16), spillBase := .ofNat 8 (fld w 7 0) } :=
  if_neg (not_or.2 ⟨Bool.eq_false_iff.1 hl, Nat.not_lt.2 hw⟩)

/-! ## ME_G -/

theorem writeG_taken (k : Fin 8) (w : Word) (h : s.me.st = .stopped ∨ s.me.st = .fenced) :
    s.writeG k w = s.modMe fun m => { m with g := vset m.g k fun _ => w } := if_pos h

theorem writeG_ignored (k : Fin 8) (w : Word) (h : s.me.st ≠ .stopped ∧ s.me.st ≠ .fenced) : s.writeG k w = s :=
  if_neg (not_or.2 h)

end State

/-- Settles O37: each write is either the one change of the engine that its register names or no change at all; the fields of
ME_SPILL fit the 8 bits that hold them. -/
theorem engineRegisterWrites : Obligations.EngineRegisterWrites := by
  unfold Obligations.EngineRegisterWrites
  intro s w k frames
  refine ⟨fun h => ?_, fun hup hl hw => ?_, fun hup hst => ?_, fun h => ?_⟩
  · rcases h with hdown | h
    · exact completes_held rfl hdown
    · exact completes_unchanged rfl (State.writeSpill_ignored h)
  · refine completes_up rfl hup ?_ ?_ <;> rw [State.writeSpill_taken hl hw]
    · exact ⟨toNat_ofNat_fld w 23 16, toNat_ofNat_fld w 7 0, rfl⟩
    · exact s.only_modMe _
  · refine completes_up rfl hup ?_ ?_ <;> rw [State.writeG_taken k w hst]
    · exact ⟨at_vset_self _ _ _, fun j hj => at_vset_ne _ _ hj.symm, rfl⟩
    · exact s.only_modMe _
  · rcases h with hdown | h
    · exact completes_held rfl hdown
    · exact completes_unchanged rfl (State.writeG_ignored k w h)

end Sys2Proof.Machine
end

section
/-!
PROOFS. Pin sequencers: what a command of one engine leaves of the others; the enable, the stop and the FIFOs (09 R358–R384)
(O45).
-/
namespace Sys2Proof.Machine

/-! ## Changes of one engine -/

/-- From s to t no engine but e changes, and the store of program words keeps its contents. -/
def OnlyEngine (e : Fin 8) (s t : State) : Prop := (∀ k, k ≠ e → t.eng k = s.eng k) ∧ t.ps.store = s.ps.store

theorem OnlyEngine.refl (e : Fin 8) (s : State) : OnlyEngine e s s := ⟨fun _ _ => rfl, rfl⟩
theorem OnlyEngine.trans {e : Fin 8} {s t u : State} (h : OnlyEngine e s t) (k : OnlyEngine e t u) : OnlyEngine e s u :=
  ⟨fun j hj => (k.1 j hj).trans (h.1 j hj), k.2.trans h.2⟩
theorem OnlyEngine.ite {e : Fin 8} {s t u : State} {c : Prop} [Decidable c] (h : OnlyEngine e s t) (k : OnlyEngine e s u) :
    OnlyEngine e s (if c then t else u) := by split <;> assumption

namespace PinSeq
variable (p : PinSeq)

/-- Engine p once it has claimed the pins of its map and started (09 R358, R378). -/
def enabled : PinSeq := { p.start_ with en := true, cfgErr := false, claim0 := p.pin0, claim1 := p.pin1 }

/-- Of a word of rank r and the one of rank old that the FIFO took earlier in the cycle, the one that waits (09 R381). -/
def heldBack (r old : Nat) (w : Word) : Nat × Word := if r < old then (old, p.tx.getLast?.getD 0) else (r, w)

/-- Engine p after a write of rank r in a cycle in which its FIFO took a word of rank old (09 R381). -/
def written (r old : Nat) (w : Word) : PinSeq :=
  { p with tx := if r < old then p.tx.dropLast ++ [w] else p.tx
           txWait := State.waitIn (p.heldBack r old w).1 (p.heldBack r old w).2 p.txWait }

end PinSeq

namespace State
variable (s : State)

theorem eng_raisePs (e j : Fin 8) (b : BitVec 16) :
    (s.raisePs e b).eng j = if e = j then { s.eng e with ev := ((s.eng e).ev.set b).1 } else s.eng j := by
  unfold raisePs
  dsimp only
  split <;> simp
theorem eng_raisePs_self (e : Fin 8) (b : BitVec 16) :
    (s.raisePs e b).eng e = { s.eng e with ev := ((s.eng e).ev.set b).1 } := (s.eng_raisePs e e b).trans (if_pos rfl)
theorem store_raisePs (e : Fin 8) (b : BitVec 16) : (s.raisePs e b).ps.store = s.ps.store := by
  unfold raisePs
  dsimp only
  split <;> rfl
theorem claims_raisePs (e : Fin 8) (b : BitVec 16) : (s.raisePs e b).cyc.claims = s.cyc.claims := by
  unfold raisePs
  dsimp only
  split <;> rfl

theorem onlyEngine_modEng (e : Fin 8) (f : PinSeq → PinSeq) : OnlyEngine e s (s.modEng e f) :=
  ⟨fun j hj => (eng_modEng s e j f).trans (if_neg hj.symm), rfl⟩
theorem onlyEngine_modCyc (e : Fin 8) (f : Cycle → Cycle) : OnlyEngine e s (s.modCyc f) := .refl e s
theorem onlyEngine_raisePs (e : Fin 8) (b : BitVec 16) : OnlyEngine e s (s.raisePs e b) :=
  ⟨fun j hj => (eng_raisePs s e j b).trans (if_neg hj.symm), store_raisePs s e b⟩

variable {s} {e k : Fin 8}

/-- A change of engine e that leaves it as it is changes nothing. -/
theorem modEng_unchanged {f : PinSeq → PinSeq} (h : f (s.eng e) = s.eng e) : s.modEng e f = s := by
  have hv : vset s.ps.eng e f = s.ps.eng :=
    (congrArg (fun q => s.ps.eng.set e.val q e.isLt) h).trans (Vector.set_getElem_self _)
  exact congrArg (fun v => { s with ps := { s.ps with eng := v } }) hv

/-! ## Enable (09 R358, R359, R378) -/

theorem psShares_iff : s.psShares e k = true ↔
    k ≠ e ∧ (s.eng k).en = true ∧ ∃ n ∈ (s.eng e).wants, n ∈ (s.eng k).channels := by simp [psShares, and_assoc]
theorem psYields_iff : s.psYields e k = true ↔ e < k ∧ ∃ x ∈ s.cyc.claims, x.1 = k := by simp [psYields]
theorem psBadPins_iff : s.psBadPins e = true ↔ ¬ (s.eng e).wants.Nodup ∨ (∃ n ∈ (s.eng e).wants, s.paired n = true) ∨
    ∃ k, s.psShares e k = true ∧ ¬ s.psYields e k = true := by simp [psBadPins, or_assoc]

theorem psShares_self (s : State) (e : Fin 8) : s.psShares e e = false :=
  Bool.eq_false_iff.2 fun h => (psShares_iff.1 h).1 rfl

theorem eng_psRefuse (s : State) (e k : Fin 8) : (s.psRefuse e).eng k =
    if e = k then { s.eng e with cfgErr := true, ev := ((s.eng e).ev.set pPINERR).1 } else s.eng k := by
  rw [psRefuse, eng_raisePs, eng_modEng_self, eng_modEng]
  split <;> rfl
theorem onlyEngine_psRefuse (s : State) (e : Fin 8) : OnlyEngine e s (s.psRefuse e) :=
  (onlyEngine_modEng _ _ _).trans (onlyEngine_raisePs _ _ _)
theorem only_psRefuse (s : State) (e : Fin 8) : OnlyChanges [.ps, .tt] s (s.psRefuse e) :=
  ((only_modEng _ _ _).trans (only_raisePs _ _ _)).mono (by decide)

theorem psRevoke_claimed {x : Fin 8 × PinSeq} (h : s.cyc.claims.find? (·.1 = k) = some x) : s.psRevoke k =
    (s.modEng k fun p => { x.2 with tx := p.tx, rx := p.rx, txWait := p.txWait, ev := p.ev, fifo := p.fifo }).psRefuse k := by
  rw [psRevoke, h]

/-- The enable that a lower number takes back is one of the cycle's claims. -/
theorem exists_claim_of_psYields (h : s.psYields e k = true) : ∃ x, s.cyc.claims.find? (·.1 = k) = some x := by
  obtain ⟨-, x, hx, hk⟩ := psYields_iff.1 h
  have hsome : (s.cyc.claims.find? (·.1 = k)).isSome := List.find?_isSome.2 ⟨x, hx, decide_eq_true hk⟩
  exact Option.isSome_iff_exists.1 hsome

/-- An enable that is taken back leaves the engine refused, with the EN it had before the enable (09 R359). -/
theorem eng_psRevoke {x : Fin 8 × PinSeq} (h : s.cyc.claims.find? (·.1 = k) = some x) :
    ((s.psRevoke k).eng k).cfgErr = true ∧ bit ((s.psRevoke k).eng k).ev.flag 5 = true ∧
      ((s.psRevoke k).eng k).en = x.2.en := by
  rw [psRevoke_claimed h, eng_psRefuse, if_pos rfl, eng_modEng_self]
  exact ⟨rfl, by simp [EventRegs.set, bit, pPINERR], rfl⟩

/-- An engine with no claim in this cycle stays as it is; one with a claim goes back to before it, and is refused. -/
theorem psRevoke_cases (s : State) (k : Fin 8) : s.psRevoke k = s ∨ ∃ f, s.psRevoke k = (s.modEng k f).psRefuse k := by
  cases h : s.cyc.claims.find? (·.1 = k) with
  | none => exact .inl (by rw [psRevoke, h])
  | some x => exact .inr ⟨_, psRevoke_claimed h⟩
theorem onlyEngine_psRevoke (s : State) (k : Fin 8) : OnlyEngine k s (s.psRevoke k) := by
  obtain h | ⟨f, h⟩ := s.psRevoke_cases k <;> rw [h]
  · exact .refl k s
  · exact (onlyEngine_modEng _ _ _).trans (onlyEngine_psRefuse _ _)
theorem claims_psRevoke (s : State) (k : Fin 8) : (s.psRevoke k).cyc.claims = s.cyc.claims := by
  obtain h | ⟨f, h⟩ := s.psRevoke_cases k <;> rw [h]
  exact claims_raisePs _ _ _
theorem only_psRevoke (s : State) (k : Fin 8) : OnlyChanges [.ps, .tt] s (s.psRevoke k) := by
  obtain h | ⟨f, h⟩ := s.psRevoke_cases k <;> rw [h]
  · exact .refl _ _
  · exact ((only_modEng _ _ _).trans (only_psRefuse _ _)).mono (by decide)

/-- The pass of an accepted enable of engine e over the others: the enables of this cycle that lose a pin to it are taken
back (09 R359). -/
def psRevokeSharers (s : State) (e : Fin 8) : State := foldFin 8 (fun k t => if s.psShares e k then t.psRevoke k else t) s

/-- One step of that pass changes its own engine alone. -/
theorem onlyEngine_revokeStep (s t : State) (e k : Fin 8) :
    OnlyEngine k t (if s.psShares e k then t.psRevoke k else t) := .ite (onlyEngine_psRevoke t k) (.refl k t)
theorem claims_revokeStep (s t : State) (e k : Fin 8) :
    (if s.psShares e k then t.psRevoke k else t).cyc.claims = t.cyc.claims := by
  split
  · exact claims_psRevoke t k
  · rfl

/-- Each engine comes out of the pass as its own step leaves it, with the claims of the cycle still there. -/
theorem eng_psRevokeSharers (s : State) (e k : Fin 8) : ∃ u : State, u.eng k = s.eng k ∧ u.cyc.claims = s.cyc.claims ∧
    (s.psRevokeSharers e).eng k = if s.psShares e k then (u.psRevoke k).eng k else s.eng k := by
  obtain ⟨u, hu, hfold⟩ := foldl_at (p := fun u : State => (u.eng k, u.cyc.claims))
    (f := fun t j => if s.psShares e j then t.psRevoke j else t) (List.mem_finRange k) (List.nodup_finRange 8)
    (fun t j _ hj => Prod.ext ((onlyEngine_revokeStep s t e j).1 k hj.symm) (claims_revokeStep s t e j)) s
  obtain ⟨heng, hclaims⟩ := Prod.mk.inj hu
  refine ⟨u, heng, hclaims, (congrArg Prod.fst hfold).trans ?_⟩
  dsimp only
  split
  · rfl
  · exact heng

theorem eng_psRevokeSharers_apart (h : s.psShares e k = false) : (s.psRevokeSharers e).eng k = s.eng k := by
  obtain ⟨u, -, -, hk⟩ := s.eng_psRevokeSharers e k
  rw [hk, if_neg (by simp [h])]

/-- An engine that shares a pin, and was enabled in this cycle, ends refused (09 R359). -/
theorem eng_psRevokeSharers_shared {x : Fin 8 × PinSeq} (h : s.psShares e k = true)
    (hx : s.cyc.claims.find? (·.1 = k) = some x) :
    ((s.psRevokeSharers e).eng k).cfgErr = true ∧ bit ((s.psRevokeSharers e).eng k).ev.flag 5 = true ∧
      ((s.psRevokeSharers e).eng k).en = x.2.en := by
  obtain ⟨u, -, hclaims, hk⟩ := s.eng_psRevokeSharers e k
  rw [hk, if_pos h]
  exact eng_psRevoke (hclaims ▸ hx)

theorem store_psRevokeSharers (s : State) (e : Fin 8) : (s.psRevokeSharers e).ps.store = s.ps.store :=
  foldl_keeps (p := fun t : State => t.ps.store) _ (fun t k _ => (onlyEngine_revokeStep s t e k).2) s
theorem only_psRevokeSharers (s : State) (e : Fin 8) : OnlyChanges [.ps, .tt] s (s.psRevokeSharers e) :=
  .foldFin (fun k t => .ite (only_psRevoke t k) (.refl _ _)) s

theorem psEnable_enabled (h : (s.eng e).en = true) : s.psEnable e = s := if_pos h
theorem psEnable_refused (h : (s.eng e).en = false) (hb : s.psBadPins e = true) : s.psEnable e = s.psRefuse e :=
  (if_neg (by simp [h])).trans (if_pos hb)

section
variable (hen : (s.eng e).en = false) (hb : s.psBadPins e = false)
include hen hb

theorem psEnable_granted : s.psEnable e =
    ((s.psRevokeSharers e).modEng e (·.enabled)).modCyc fun c => { c with claims := (e, s.eng e) :: c.claims } :=
  (if_neg (by simp [hen])).trans (if_neg (by simp [hb]))

theorem eng_psEnable_granted : (s.psEnable e).eng e = (s.eng e).enabled := by
  rw [psEnable_granted hen hb, eng_modCyc, eng_modEng_self, eng_psRevokeSharers_apart (psShares_self s e)]
theorem eng_psEnable_other (hk : k ≠ e) : (s.psEnable e).eng k = (s.psRevokeSharers e).eng k := by
  rw [psEnable_granted hen hb, eng_modCyc, eng_modEng, if_neg hk.symm]
theorem store_psEnable_granted : (s.psEnable e).ps.store = s.ps.store := by
  rw [psEnable_granted hen hb]
  exact s.store_psRevokeSharers e
theorem only_psEnable_granted : OnlyChanges [.ps, .tt] s (s.psEnable e) := by
  rw [psEnable_granted hen hb]
  exact ((s.only_psRevokeSharers e).trans (only_modEng _ _ _)).mono (by decide)

end

/-! ## Disable, HALT, GO and the flushes (09 R364, R376, R377, R384) -/

theorem eng_psDisable (s : State) (e : Fin 8) : (s.psDisable e).eng e = { s.eng e with
    en := false, st := if (s.eng e).st = .fenced then .fenced else .off, clrHold := false, busy := 0, haltReq := false } :=
  eng_modEng_self _ _ _

theorem psCmdHalt_running (h : (s.eng e).st = .run ∨ (s.eng e).st = .wait) :
    (s.psCmdHalt e).eng e = { s.eng e with haltReq := true } := (eng_modEng_self _ _ _).trans (if_pos h)
theorem psCmdHalt_stopped (hr : (s.eng e).st ≠ .run) (hw : (s.eng e).st ≠ .wait) : s.psCmdHalt e = s :=
  modEng_unchanged (if_neg (not_or.2 ⟨hr, hw⟩))

theorem psCmdGo_halted (h : (s.eng e).st = .halt) (hen : (s.eng e).en = true) :
    s.psCmdGo e = (s.modEng e (·.start_)).fltBack (unitKey 5 e.val) := if_pos ⟨h, hen⟩
theorem psCmdGo_ignored (h : (s.eng e).st ≠ .halt ∨ (s.eng e).en = false) : s.psCmdGo e = s :=
  if_neg fun ⟨hst, hen⟩ => h.elim (· hst) fun h => by simp [h] at hen

theorem eng_psTxFlush (s : State) (e : Fin 8) : (s.psTxFlush e).eng e = { s.eng e with
    tx := [], ev := ((s.eng e).ev.set (if (s.eng e).txth < (s.eng e).tx.length then 0x002 else 0)).1 } := by
  rw [psTxFlush, eng_raisePs_self, eng_modCyc, eng_modEng_self]
  simp only [decide_eq_true_eq, pTXLOW]

theorem eng_psRxFlush (s : State) (e : Fin 8) : (s.psRxFlush e).eng e = { s.eng e with rx := [] } := eng_modEng_self _ _ _

theorem onlyEngine_psTxFlush (s : State) (e : Fin 8) : OnlyEngine e s (s.psTxFlush e) :=
  ((onlyEngine_modEng _ _ _).trans (onlyEngine_modCyc _ _ _)).trans (onlyEngine_raisePs _ _ _)
theorem only_psTxFlush (s : State) (e : Fin 8) : OnlyChanges [.ps, .tt] s (s.psTxFlush e) :=
  (((only_modEng _ _ _).both (only_modCyc _ _ _)).trans (only_raisePs _ _ _)).mono (by decide)

/-! ## The FIFOs (09 R372, R380, R381) -/

theorem length_waitIn (r : Nat) (w : Word) (l : List (Nat × Word)) : (waitIn r w l).length = l.length + 1 := by
  induction l with
  | nil => rfl
  | cons x l ih =>
    unfold waitIn
    split
    · rfl
    · exact congrArg (· + 1) ih
theorem mem_waitIn (r : Nat) (w : Word) (l : List (Nat × Word)) : (r, w) ∈ waitIn r w l := by
  induction l with
  | nil => exact List.mem_cons_self
  | cons x l ih =>
    unfold waitIn
    split
    · exact List.mem_cons_self
    · exact List.mem_cons_of_mem x ih

/-- A word written in a cycle in which the FIFO has taken none. -/
theorem psTxWrite_first (h : ∀ x ∈ s.cyc.txNew, x.1 ≠ e) (r : Nat) (w : Word) : s.psTxWrite e r w = s.psTake e r w := by
  have hnone : s.cyc.txNew.find? (·.1 = e) = none := List.find?_eq_none.2 fun x hx => by simpa using h x hx
  rw [psTxWrite, hnone]
theorem psTake_full (h : 8 ≤ (s.eng e).tx.length) (r : Nat) (w : Word) : s.psTake e r w = s.raisePs e pTXREF := if_pos h
theorem psTake_room (h : (s.eng e).tx.length < 8) (r : Nat) (w : Word) : s.psTake e r w =
    (s.modEng e fun p => { p with tx := p.tx ++ [w] }).modCyc fun c => { c with txNew := (e, r) :: c.txNew } :=
  if_neg (Nat.not_le.2 h)

theorem psTxWrite_again {x : Fin 8 × Nat} (h : s.cyc.txNew.find? (·.1 = e) = some x) (r : Nat) (w : Word) :
    (s.psTxWrite e r w).eng e = (s.eng e).written r x.2 w ∧ OnlyEngine e s (s.psTxWrite e r w) ∧
      OnlyChanges [.ps] s (s.psTxWrite e r w) := by
  rw [psTxWrite, h]
  dsimp only
  unfold PinSeq.written PinSeq.heldBack
  split
  · refine ⟨eng_modEng_self _ _ _, (onlyEngine_modEng _ _ _).trans (onlyEngine_modCyc _ _ _), ?_⟩
    exact (only_modEng _ _ _).both (only_modCyc _ _ _)
  · exact ⟨eng_modEng_self _ _ _, onlyEngine_modEng _ _ _, only_modEng _ _ _⟩

/-- The words of RX that engine e shows in this cycle: all but the one pushed in it (09 R380). -/
def rxSeen (s : State) (e : Fin 8) : List Word :=
  (s.eng e).rx.take ((s.eng e).rx.length - if e ∈ s.cyc.rxNew then 1 else 0)

theorem psRxRead_empty (h : s.rxSeen e = []) : s.psRxRead e = (0, s.raisePs e pRXEMPTY) := by
  unfold rxSeen at h
  rw [psRxRead, h]
theorem psRxRead_word {x : Word} {r : List Word} (h : s.rxSeen e = x :: r) :
    s.psRxRead e = (x, s.modEng e fun p => { p with rx := p.rx.drop 1 }) := by
  unfold rxSeen at h
  rw [psRxRead, h]

end State

/-- A read of PS_RX with PD1 out of reset answers the engine's word, or 0 while the engines are held. -/
theorem completes_psRxRead {e : Fin 8} {s : State} {x : Word × State} {ps : List Part} {P : State → Prop}
    (hup : s.pwr.pd1Up = true) (hx : (if s.pwr.pdUp then s.psRxRead e else (0, s)) = x) (hP : P (x.2.answer x.1))
    (ho : OnlyChanges ps s x.2) (hps : .rdata ∈ ps := by decide) : Completes (.psRxRead e) s ps P := by
  subst hx
  refine ⟨_, congrArg Host.Outcome.next ((if_pos hup).trans (apply_ite s.answered _ _ _).symm), hP, ?_⟩
  exact ho.both ((State.only_answer _ _).mono (by simpa using hps))

/-- Settles O45: each command is one change of its engine, or none; an enable that is granted first takes back those of this
cycle that lose a pin to it. -/
theorem sequencersStartAndStop : Obligations.SequencersStartAndStop := by
  unfold Obligations.SequencersStartAndStop
  intro s src e w p may shares rest flagged same fresh seen
  have shares_iff : ∀ k, s.psShares e k = true ↔ shares k := fun k => State.psShares_iff
  have may_iff : ∀ k, s.psYields e k = true ↔ may k := fun k => State.psYields_iff
  have bad_iff : s.psBadPins e = true ↔
      ¬ p.wants.Nodup ∨ (∃ n ∈ p.wants, s.paired n = true) ∨ ∃ k, shares k ∧ ¬ may k := by
    simp only [State.psBadPins_iff, shares_iff, may_iff, p]
  have raised : ∀ {t q b}, t.eng e = { q with ev := (p.ev.set b).1 } → OnlyEngine e s t → same t q ∧ flagged t b :=
    fun ht hrest => ⟨⟨by rw [ht], hrest⟩, by simp only [flagged, ht]; rfl⟩
  have fresh_of : ∀ {t en cfgErr claim0 claim1}, t.eng e = { p.start_ with en, cfgErr, claim0, claim1 } →
      t.ps.store = s.ps.store → fresh t := fun ht hstore => by
    simp only [fresh, ht, hstore, PinSeq.start_, at_replicate, implies_true, and_self]
  refine ⟨fun hdown c hc => ?_, fun hup1 hdown => completes_psRxRead hup1 (if_neg (by simp [hdown])) rfl (.refl _ _),
    fun hup => ⟨fun hen => completes_unchanged rfl (State.psEnable_enabled hen),
      fun hen => ⟨fun hbad => ?refused, fun hnodup hpair hshare => ?granted⟩, ?disable, fun hst => ?halt,
      fun hr hw => completes_unchanged rfl (State.psCmdHalt_stopped hr hw), fun hst hen => ?go,
      fun h => completes_unchanged rfl (State.psCmdGo_ignored h), ?txflush, ?rxflush,
      fun hnew => ⟨fun hroom => ?taken, fun hfull => ?full⟩, fun x hx => ?waits⟩,
    fun hup1 hup => ⟨fun hseen => ?empty, fun x r hseen => ?word⟩⟩
  · simp only [List.mem_cons, List.not_mem_nil, or_false] at hc
    obtain rfl | rfl | rfl | rfl | rfl | rfl | rfl := hc <;> exact completes_held rfl hdown
  case refused =>
    refine completes_up rfl hup ?_ ?_ <;> rw [State.psEnable_refused hen (bad_iff.2 hbad)]
    · exact raised ((s.eng_psRefuse e e).trans (if_pos rfl)) (s.onlyEngine_psRefuse e)
    · exact s.only_psRefuse e
  case granted =>
    have hbad : s.psBadPins e = false := by
      refine Bool.eq_false_iff.2 fun hb => ?_
      obtain h | ⟨n, hn, h⟩ | ⟨k, hk, h⟩ := bad_iff.1 hb
      · exact h hnodup
      · exact absurd h (by simp [hpair n hn])
      · exact h (hshare k hk)
    have hself := State.eng_psEnable_granted hen hbad
    refine completes_up rfl hup ⟨fresh_of hself (State.store_psEnable_granted hen hbad), congrArg PinSeq.en hself,
      congrArg PinSeq.cfgErr hself, congrArg PinSeq.claim0 hself, congrArg PinSeq.claim1 hself, fun k hk hns => ?_,
      fun k hk => ?_⟩ (State.only_psEnable_granted hen hbad)
    · rw [State.eng_psEnable_other hen hbad hk]
      exact State.eng_psRevokeSharers_apart (Bool.eq_false_iff.2 fun h => hns ((shares_iff k).1 h))
    · rw [State.eng_psEnable_other hen hbad hk.1]
      obtain ⟨y, hy⟩ := State.exists_claim_of_psYields ((may_iff k).2 (hshare k hk))
      obtain ⟨hcfg, hflag, hen⟩ := State.eng_psRevokeSharers_shared ((shares_iff k).2 hk) hy
      exact ⟨hcfg, hflag, fun z hz => hen.trans (by rw [Option.some.inj (hy.symm.trans hz)])⟩
  case disable =>
    refine completes_up rfl hup ⟨?_, ?_, ?_, ?_, s.onlyEngine_modEng e _⟩ (s.only_modEng e _) <;> rw [State.eng_psDisable]
  case halt =>
    exact completes_up rfl hup ⟨by rw [State.psCmdHalt_running hst], s.onlyEngine_modEng e _⟩ (s.only_modEng e _)
  case go =>
    refine completes_up rfl hup ?_ ?_ <;> rw [State.psCmdGo_halted hst hen]
    · exact ⟨fresh_of (s.eng_modEng_self e _) rfl, s.onlyEngine_modEng e _⟩
    · exact ((s.only_modEng e _).trans (State.only_fltBack _ _)).mono (by decide)
  case txflush => exact completes_up rfl hup (raised (s.eng_psTxFlush e) (s.onlyEngine_psTxFlush e)) (s.only_psTxFlush e)
  case rxflush =>
    exact completes_up rfl hup ⟨by rw [State.eng_psRxFlush], s.onlyEngine_modEng e _⟩ (s.only_modEng e _)
  case taken =>
    have heng := s.eng_modEng_self e fun p => { p with tx := p.tx ++ [w] }
    refine completes_up rfl hup ?_ ?_ <;> rw [State.psTxWrite_first hnew, State.psTake_room hroom]
    · exact ⟨by rw [State.eng_modCyc, heng], s.onlyEngine_modEng e _⟩
    · exact s.only_modEng e _
  case full =>
    refine completes_up rfl hup ?_ ?_ <;> rw [State.psTxWrite_first hnew, State.psTake_full hfull]
    · exact raised (s.eng_raisePs_self e _) (s.onlyEngine_raisePs e _)
    · exact s.only_raisePs e _
  case waits =>
    obtain ⟨heng, hrest, honly⟩ := State.psTxWrite_again hx (State.txRank src) w
    refine completes_up rfl hup ⟨⟨?_, hrest⟩, ?_, ?_, ?_⟩ honly <;> rw [heng]
    · rfl
    · rfl
    · exact State.length_waitIn _ _ _
    · exact State.mem_waitIn _ _ _
  case empty =>
    obtain ⟨hsame, hflag⟩ := raised (s.eng_raisePs_self e _) (s.onlyEngine_raisePs e _)
    exact completes_psRxRead hup1 ((if_pos hup).trans (State.psRxRead_empty hseen)) ⟨hsame, hflag, rfl⟩
      ((s.only_raisePs e _).mono (by decide))
  case word =>
    have heng := s.eng_modEng_self e fun p => { p with rx := p.rx.drop 1 }
    exact completes_psRxRead hup1 ((if_pos hup).trans (State.psRxRead_word hseen))
      ⟨⟨by rw [State.eng_answer, heng], s.onlyEngine_modEng e _⟩, rfl⟩ ((s.only_modEng e _).mono (by decide))

end Sys2Proof.Machine
end

section
/-!
PROOFS. Words and bytes (00 R5; 11 R424): a run of bytes read after it was written, and the bytes of a word.
-/
namespace Sys2Proof

/-! ## Runs of a sparse memory -/

section
variable {α : Type} [DecidableEq α] {d : α}

theorem cellRead_writeList_outside {vs : List α} : ∀ {m : List (Nat × α)} {k j : Nat}, cellWf d m = true →
    j < k ∨ k + vs.length ≤ j → cellRead d (cellWriteList d m k vs) j = cellRead d m j := by
  induction vs with
  | nil => exact fun _ _ => rfl
  | cons v vs ih =>
    intro m k j hm hj
    rw [List.length_cons] at hj
    have hne : j ≠ k := by omega
    exact (ih (cellWf_write d m k v hm) (by omega)).trans ((cellRead_write d m k j v hm).trans (if_neg hne))

theorem cellRead_writeList_inside {vs : List α} : ∀ {m : List (Nat × α)} {k i : Nat}, cellWf d m = true →
    (hi : i < vs.length) → cellRead d (cellWriteList d m k vs) (k + i) = vs[i] := by
  induction vs with
  | nil => exact fun _ hi => absurd hi (Nat.not_lt_zero _)
  | cons v vs ih =>
    intro m k i hm hi
    have hw := cellWf_write d m k v hm
    cases i with
    | zero =>
      have hkept := cellRead_writeList_outside (vs := vs) hw (.inl (Nat.lt_succ_self k))
      exact hkept.trans ((cellRead_write d m k k v hm).trans (if_pos rfl))
    | succ i =>
      have hki : k + (i + 1) = k + 1 + i := by omega
      rw [hki]
      exact ih hw (Nat.lt_of_succ_lt_succ hi)

end

theorem length_cellReadList {α : Type} (d : α) (m : List (Nat × α)) (k n : Nat) : (cellReadList d m k n).length = n := by
  induction n generalizing k with
  | zero => rfl
  | succ n ih => exact congrArg (· + 1) (ih (k + 1))

theorem getElem_cellReadList {α : Type} (d : α) (m : List (Nat × α)) {k n i : Nat} (hi : i < (cellReadList d m k n).length) :
    (cellReadList d m k n)[i] = cellRead d m (k + i) := by
  induction n generalizing k i with
  | zero => exact absurd hi (Nat.not_lt_zero i)
  | succ n ih =>
    cases i with
    | zero => rfl
    | succ i =>
      have hki : k + (i + 1) = k + 1 + i := by omega
      rw [hki]
      exact ih (Nat.lt_of_succ_lt_succ hi)

/-! ## Bytes of a number -/

theorem length_leBytes (n v : Nat) : (leBytes n v).length = n := by
  induction n generalizing v with
  | zero => rfl
  | succ n ih => exact congrArg (· + 1) (ih (v / 256))

theorem getElem_leBytes {n v i : Nat} (hi : i < (leBytes n v).length) : (leBytes n v)[i] = .ofNat 8 (v / 256 ^ i) := by
  induction n generalizing v i with
  | zero => exact absurd hi (Nat.not_lt_zero i)
  | succ n ih =>
    cases i with
    | zero => exact congrArg (BitVec.ofNat 8) (by simp)
    | succ i =>
      have hdiv : v / 256 ^ (i + 1) = v / 256 / 256 ^ i := by rw [Nat.div_div_eq_div_mul, Nat.pow_succ, Nat.mul_comm]
      rw [hdiv]
      exact ih (Nat.lt_of_succ_lt_succ hi)

theorem leNat_lt (bs : List Byte) : leNat bs < 256 ^ bs.length := by
  induction bs with
  | nil => exact Nat.one_pos
  | cons b bs ih =>
    have hb := b.isLt
    simp only [leNat, List.length_cons, Nat.pow_succ]
    omega

theorem ofNat_leNat_div {bs : List Byte} {i : Nat} (hi : i < bs.length) : BitVec.ofNat 8 (leNat bs / 256 ^ i) = bs[i] := by
  induction bs generalizing i with
  | nil => exact absurd hi (Nat.not_lt_zero i)
  | cons b bs ih =>
    have hb := b.isLt
    cases i with
    | zero =>
      refine BitVec.eq_of_toNat_eq ?_
      simp only [leNat, BitVec.toNat_ofNat, Nat.pow_zero, Nat.div_one, List.getElem_cons_zero]
      omega
    | succ i =>
      have htail : leNat (b :: bs) / 256 = leNat bs := by
        simp only [leNat]
        omega
      have hdiv : leNat (b :: bs) / 256 ^ (i + 1) = leNat bs / 256 ^ i := by
        rw [Nat.pow_succ, Nat.mul_comm, ← Nat.div_div_eq_div_mul, htail]
      rw [hdiv]
      exact ih (Nat.lt_of_succ_lt_succ hi)

/-! ## Bytes of a word -/

/-- Byte j of a word, counted from the least significant. -/
def wordByte (w : Word) (j : Nat) : Byte := .ofNat 8 (w.toNat / 2 ^ (8 * j))

theorem pow_byte (j : Nat) : 2 ^ (8 * j) = 256 ^ j := Nat.pow_mul 2 8 j

theorem getLsbD_wordByte (w : Word) (j i : Nat) : (wordByte w j).getLsbD i = (decide (i < 8) && w.getLsbD (8 * j + i)) := by
  simp only [wordByte, BitVec.getLsbD_ofNat, Nat.testBit_div_two_pow, Nat.add_comm i]
  rfl

theorem getElem_wordBytes {w : Word} {j : Nat} (hj : j < (wordBytes w).length) : (wordBytes w)[j] = wordByte w j := by
  rw [wordByte, pow_byte]
  exact getElem_leBytes hj

theorem length_wordBytes (w : Word) : (wordBytes w).length = 4 := length_leBytes 4 _

theorem wordByte_bytesWord {bs : List Byte} (hl : bs.length = 4) {j : Nat} (hj : j < bs.length) :
    wordByte (bytesWord bs) j = bs[j] := by
  have hlt : leNat bs < 2 ^ 32 := by simpa [hl] using leNat_lt bs
  rw [wordByte, bytesWord, BitVec.toNat_ofNat, Nat.mod_eq_of_lt hlt, pow_byte]
  exact ofNat_leNat_div hj

/-- A word is known by its four bytes. -/
theorem word_ext {v w : Word} (h : ∀ j, j < 4 → wordByte v j = wordByte w j) : v = w := by
  refine BitVec.eq_of_getLsbD_eq fun i hi => ?_
  have hbit := congrArg (·.getLsbD (i % 8)) (h (i / 8) (by omega))
  simpa only [getLsbD_wordByte, Nat.div_add_mod, decide_eq_true (Nat.mod_lt i (by decide : 0 < 8)), Bool.true_and] using hbit

end Sys2Proof
end

section
/-!
PROOFS. Bank words (11 R424–R433, R438): what reads, writes, corrections and the port's grant leave of the banks' bytes and
counters. A read of a bank under test changes only the tester's notes of the words saved; two states that differ in these
alone have the same form without them.
-/
namespace Sys2Proof.Machine

/-- A bank without what its tester notes of the region in SAVE (11 R438). -/
def Bank.untested (x : Bank) : Bank := { x with phase := .none, saved := 0 }

theorem bit_or {n : Nat} (v w : BitVec n) (i : Nat) : bit (v ||| w) i = (bit v i || bit w i) := BitVec.getLsbD_or

namespace State
variable {s t : State} {a p size : Nat} {b : Fin 8} {w : Word}

theorem wordOf_of_aligned (h : a % 4 = 0) : wordOf a = a := by
  unfold wordOf
  omega

/-! ## The tester's notes -/

/-- The state without what the testers note of their regions. -/
def unmarked (s : State) : State := s.modMem fun m => { m with banks := m.banks.map Bank.untested }

theorem bank_unmarked (s : State) (b : Fin 8) : s.unmarked.bank b = (s.bank b).untested :=
  Vector.getElem_map Bank.untested b.isLt

theorem untested_bank_of_unmarked (h : t.unmarked = s.unmarked) (b : Fin 8) : (t.bank b).untested = (s.bank b).untested := by
  rw [← bank_unmarked, h, bank_unmarked]
theorem st_of_unmarked (h : t.unmarked = s.unmarked) (b : Fin 8) : (t.bank b).st = (s.bank b).st :=
  (congrArg Bank.st (untested_bank_of_unmarked h b) :)
theorem corr_of_unmarked (h : t.unmarked = s.unmarked) (b : Fin 8) : (t.bank b).corr = (s.bank b).corr :=
  (congrArg Bank.corr (untested_bank_of_unmarked h b) :)
theorem unc_of_unmarked (h : t.unmarked = s.unmarked) (b : Fin 8) : (t.bank b).unc = (s.bank b).unc :=
  (congrArg Bank.unc (untested_bank_of_unmarked h b) :)
theorem flag_of_unmarked (h : t.unmarked = s.unmarked) : t.mem.flag = s.mem.flag :=
  (congrArg (·.mem.flag) h :)
theorem cells_of_unmarked (h : t.unmarked = s.unmarked) : t.mem.cells = s.mem.cells :=
  (congrArg (·.mem.cells) h :)
theorem errs_of_unmarked (h : t.unmarked = s.unmarked) : t.mem.errs = s.mem.errs :=
  (congrArg (·.mem.errs) h :)
theorem bankData_of_unmarked (h : t.unmarked = s.unmarked) (a : Nat) : t.bankData a = s.bankData a :=
  (congrArg (·.bankData a) h :)

theorem only_of_unmarked (h : t.unmarked = s.unmarked) : OnlyChanges [.mem] s t := by
  have hback : OnlyChanges [.mem] t.unmarked t := by
    intro p hp
    cases p
    case mem => exact absurd (List.mem_singleton.2 rfl) hp
    all_goals rfl
  exact (only_modMem s _).both (h ▸ hback)

theorem unmarked_modBank {f : Bank → Bank} (hf : (f (s.bank b)).untested = (s.bank b).untested) :
    (s.modBank b f).unmarked = s.unmarked := by
  have hmap : (vset s.mem.banks b f).map Bank.untested = s.mem.banks.map Bank.untested := by
    refine Vector.ext fun i hi => ?_
    rw [Vector.getElem_map, Vector.getElem_map]
    by_cases h : b = ⟨i, hi⟩
    · subst h
      exact (congrArg Bank.untested (at_vset_self s.mem.banks ⟨i, hi⟩ f)).trans hf
    · exact congrArg Bank.untested (at_vset_ne s.mem.banks f h)
  exact congrArg (fun v => { s with mem := { s.mem with banks := v } }) hmap

@[simp] theorem unmarked_markSaved (s : State) (a : Nat) : (s.markSaved a).unmarked = s.unmarked := by
  unfold markSaved
  split
  · exact unmarked_modBank rfl
  · rfl

/-! ## Waiting and the port (08 R328; 11 R429, R438) -/

/-- A master waits for a word that an atomic holds, and for a bank that is filled or restores a region first. -/
theorem waits_iff (h : s.resolve a = some p) : s.waits a = true ↔
    s.mem.lock = some (wordOf p) ∨ (s.bank (bankOf p)).st = .fill ∨ (s.bank (bankOf p)).recov = true := by
  unfold waits wordHeld bankShut
  rw [h]
  cases s.mem.lock <;> simp

theorem waits_eq_false (h : s.resolve a = some p) (hlock : s.mem.lock = none) (hst : (s.bank (bankOf p)).st = .on)
    (hrecov : (s.bank (bankOf p)).recov = false) : s.waits a = false :=
  Bool.eq_false_iff.2 fun hw => by simp [waits_iff h, hlock, hst, hrecov] at hw

theorem resolve_bank (h : isBankAddr a = true) : s.resolve a = some a := if_pos h

theorem portOf_eq {write : Bool} (h : s.resolve a = some p) :
    s.portOf a write = if s.needsPort p write then some (bankOf p) else none := by
  unfold portOf
  rw [h]

/-- Outside a region under test every access takes the port of its bank. -/
theorem portOf_untested {write : Bool} (h : s.resolve a = some p) (hp : (s.bank (bankOf p)).phase = .none) :
    s.portOf a write = some (bankOf p) := by
  rw [portOf_eq h]
  simp [needsPort, inRegion, hp]

/-- The port an access takes is that of its bank. -/
theorem eq_of_mem_portOf {write : Bool} (h : s.resolve a = some p) (hb : s.portOf a write = some b) : b = bankOf p := by
  rw [portOf_eq h] at hb
  split at hb
  · exact (Option.some.inj hb).symm
  · nomatch hb

theorem port_free {write : Bool} (h : s.resolve a = some p) (hfree : bankOf p ∉ s.cyc.ports) :
    (s.portOf a write).any s.portUsed = false := by
  refine Bool.eq_false_iff.2 fun hany => ?_
  obtain ⟨b, hb, hused⟩ := (Option.any_eq_true _ _).1 hany
  exact hfree (eq_of_mem_portOf h hb ▸ of_decide_eq_true hused)

theorem usePort_eq (s : State) (b : Option (Fin 8)) : ∃ f, s.usePort b = s.modCyc f := by
  cases b with
  | none => exact ⟨id, rfl⟩
  | some b => exact ⟨fun c => { c with ports := b :: c.ports }, rfl⟩

/-! ## Flags and reports -/

theorem bit_flag_memFlag {f : BitVec 7} {i : Nat} (h : bit f i = true) : bit (s.memFlag f).mem.flag i = true := by
  rw [memFlag, hwSet_mem, modMem_mem, bit_or, h, Bool.or_true]

theorem exists_report (s : State) (m k i d : Nat) :
    ∃ r ∈ (s.report m k i d).reports, r.mech = .ofNat 8 m ∧ r.kind = .ofNat 4 k :=
  ⟨_, List.mem_append_right _ (List.mem_singleton_self _), rfl, rfl⟩

@[simp] theorem bank_memFlag (s : State) (f : BitVec 7) (j : Fin 8) : (s.memFlag f).bank j = s.bank j := rfl
@[simp] theorem bank_memEvent (s : State) (k a : Nat) (j : Fin 8) : (s.memEvent k a).bank j = s.bank j := rfl
@[simp] theorem cwin_memFlag (s : State) (f : BitVec 7) (j : Fin 16) : (s.memFlag f).cwin j = s.cwin j := rfl
theorem only_memEvent (s : State) (k a : Nat) : OnlyChanges [.mem] s (s.memEvent k a) := only_modMem _ _

/-! ## A word read (11 R425–R427) -/

/-- A corrected word counted and recorded, before its write-back is noted. -/
def noteCorr (s : State) (a : Nat) : State :=
  ((s.modBank (bankOf a) fun x => { x with corr := satInc x.corr }).memEvent 1 a).memFlag mCORR

theorem bankCorr_eq (s : State) (a : Nat) : s.bankCorr a =
    (s.noteCorr a).modMem fun m => { m with wb := if a ∈ m.wb then m.wb else m.wb ++ [a] } := rfl

theorem only_bankCorr (s : State) (a : Nat) : OnlyChanges [.mem] s (s.bankCorr a) :=
  (((only_modBank _ _ _).both (only_memEvent _ _ _)).both (only_memFlag _ _)).both (only_modMem (s.noteCorr a) _)
theorem only_bankUnc (s : State) (a : Nat) : OnlyChanges [.mem, .reports] s (s.bankUnc a) := by
  unfold bankUnc
  exact (((only_modBank _ _ _).both (only_memEvent _ _ _)).both (only_memFlag _ _)).trans (only_report _ _ _ _ _)

theorem cells_bankCorr (s : State) (a : Nat) : (s.bankCorr a).mem.cells = s.mem.cells := rfl
theorem cells_bankUnc (s : State) (a : Nat) : (s.bankUnc a).mem.cells = s.mem.cells := rfl
theorem event_bankCorr (s : State) (a : Nat) : bit (s.bankCorr a).mem.flag 0 = true ∧ (s.bankCorr a).mem.ekind = 1 ∧
    (s.bankCorr a).mem.eaddr.toNat = a % 2 ^ 20 := by
  have hflag : bit (s.noteCorr a).mem.flag 0 = true := bit_flag_memFlag (by decide)
  exact ⟨hflag, rfl, BitVec.toNat_ofNat a 20⟩
theorem event_bankUnc (s : State) (a : Nat) : bit (s.bankUnc a).mem.flag 1 = true ∧ (s.bankUnc a).mem.ekind = 2 ∧
    ∃ r ∈ (s.bankUnc a).reports, r.mech = 0x0A ∧ r.kind = 8 := by
  unfold bankUnc
  exact ⟨bit_flag_memFlag (by decide), rfl, exists_report _ _ _ _ _⟩
theorem mem_wb_bankCorr (s : State) (a : Nat) : a ∈ (s.bankCorr a).mem.wb := by
  rw [bankCorr_eq, modMem_mem]
  dsimp only
  split
  · assumption
  · exact List.mem_append_right _ (List.mem_singleton_self a)
theorem bank_bankCorr (s : State) (a : Nat) :
    (s.bankCorr a).bank (bankOf a) = { s.bank (bankOf a) with corr := satInc (s.bank (bankOf a)).corr } := by
  have hnote : (s.bankCorr a).bank (bankOf a) = (s.noteCorr a).bank (bankOf a) := rfl
  rw [hnote, noteCorr, bank_memFlag, bank_memEvent, bank_modBank_self]
theorem bank_bankUnc (s : State) (a : Nat) :
    (s.bankUnc a).bank (bankOf a) = { s.bank (bankOf a) with unc := satInc (s.bank (bankOf a)).unc } := by
  rw [bankUnc, bank_report, bank_memFlag, bank_memEvent, bank_modBank_self]

section
variable (hst : (s.bank (bankOf a)).st = .on)
include hst

theorem bankReadWord_clean (he : cellRead 0 s.mem.errs a = 0) : s.bankReadWord a = (.ok (s.bankData a), s.markSaved a) := by
  have hm := s.unmarked_markSaved a
  rw [bankReadWord, if_neg (by simp [hst])]
  simp only [errs_of_unmarked hm, he, bankData_of_unmarked hm]
theorem bankReadWord_single (he : cellRead 0 s.mem.errs a = 1) :
    s.bankReadWord a = (.ok (s.bankData a), (s.markSaved a).bankCorr a) := by
  have hm := s.unmarked_markSaved a
  rw [bankReadWord, if_neg (by simp [hst])]
  simp only [errs_of_unmarked hm, he, bankData_of_unmarked hm]
theorem bankReadWord_double (he : cellRead 0 s.mem.errs a = 2) :
    s.bankReadWord a = (.error .memory, (s.markSaved a).bankUnc a) := by
  rw [bankReadWord, if_neg (by simp [hst])]
  simp only [errs_of_unmarked (s.unmarked_markSaved a), he]

end

theorem memRead_ok (h : s.resolve a = some p) (hw : s.bankReadWord (wordOf p) = (.ok w, t)) :
    s.memRead a size = (.ok (.ofNat 32 (w.toNat / 2 ^ (8 * (p % 4)) % 2 ^ (8 * 2 ^ size))), t) := by
  rw [memRead, h]
  dsimp only
  rw [hw]
theorem memRead_error {e : MemErr} (h : s.resolve a = some p) (hw : s.bankReadWord (wordOf p) = (.error e, t)) :
    s.memRead a size = (.error e, t) := by
  rw [memRead, h]
  dsimp only
  rw [hw]

/-- A whole clean word of a bank is read as it is stored. -/
theorem memRead_word (ha : isBankAddr a = true) (hal : a % 4 = 0) (hst : (s.bank (bankOf a)).st = .on)
    (he : cellRead 0 s.mem.errs a = 0) : s.memRead a 2 = (.ok (s.bankData a), s.markSaved a) := by
  have hw := bankReadWord_clean hst he
  rw [← wordOf_of_aligned hal] at hw
  have hwhole : BitVec.ofNat 32 ((s.bankData a).toNat / 2 ^ (8 * (a % 4)) % 2 ^ (8 * 2 ^ 2)) = s.bankData a := by
    refine BitVec.eq_of_toNat_eq ?_
    have hlt := (s.bankData a).isLt
    simp only [hal, BitVec.toNat_ofNat]
    omega
  rw [memRead_ok (resolve_bank ha) hw, wordOf_of_aligned hal, hwhole]

/-! ## Bytes stored (11 R424, R428) -/

/-- From s to t the n bytes from p become those of the word, and no other bank byte changes. -/
def Stores (p n : Nat) (w : Word) (s t : State) : Prop :=
  (∀ j, j < n → cellRead 0 t.mem.cells (p + j) = wordByte w j) ∧
  ∀ q, q < p ∨ p + n ≤ q → cellRead 0 t.mem.cells q = cellRead 0 s.mem.cells q

theorem wordByte_bankData (s : State) (a : Nat) {j : Nat} (hj : j < 4) :
    wordByte (s.bankData a) j = cellRead 0 s.mem.cells (a + j) := by
  have hl := length_cellReadList (0 : Byte) s.mem.cells a 4
  have hj' : j < (cellReadList 0 s.mem.cells a 4).length := by omega
  exact (wordByte_bytesWord hl hj').trans (getElem_cellReadList 0 s.mem.cells hj')

theorem bankData_congr (h : ∀ j, j < 4 → cellRead 0 t.mem.cells (p + j) = cellRead 0 s.mem.cells (a + j)) :
    t.bankData p = s.bankData a :=
  word_ext fun j hj => by rw [wordByte_bankData t p hj, wordByte_bankData s a hj, h j hj]

theorem Stores.bankData (h : Stores p 4 w s t) : t.bankData p = w :=
  word_ext fun j hj => (t.wordByte_bankData p hj).trans (h.1 j hj)
theorem Stores.bankData_apart (h : Stores p 4 w s t) {q : Nat} (hq : q + 4 ≤ p ∨ p + 4 ≤ q) :
    t.bankData q = s.bankData q := bankData_congr fun j hj => h.2 (q + j) (by omega)

theorem Stores.of_cells {u : State} {n : Nat} (h : Stores p n w u t) (hu : u.mem.cells = s.mem.cells) : Stores p n w s t :=
  ⟨h.1, fun q hq => (h.2 q hq).trans (congrArg (cellRead 0 · q) hu)⟩

theorem stores_bankPut (h : MemCanonical s) (a : Nat) (w : Word) : Stores a 4 w s (s.bankPut a w) := by
  have hm := cells_of_unmarked (s.unmarked_markSaved a)
  have hcells : (s.bankPut a w).mem.cells = cellWriteList 0 s.mem.cells a (wordBytes w) :=
    congrArg (cellWriteList 0 · a (wordBytes w)) hm
  have hl := length_wordBytes w
  refine ⟨fun j hj => ?_, fun q hq => ?_⟩ <;> rw [hcells]
  · have hj' : j < (wordBytes w).length := by omega
    exact (cellRead_writeList_inside h hj').trans (getElem_wordBytes hj')
  · exact cellRead_writeList_outside h (by omega)
theorem only_bankPut (s : State) (a : Nat) (w : Word) : OnlyChanges [.mem] s (s.bankPut a w) :=
  (only_of_unmarked (s.unmarked_markSaved a)).both (only_modMem _ _)

theorem getLsbD_mergeBytes (w data : Word) (o size : Nat) {i : Nat} (hi : i < 32) :
    (mergeBytes w o size data).getLsbD i =
      if 8 * o ≤ i ∧ i < 8 * o + 8 * 2 ^ size then data.getLsbD (i - 8 * o) else w.getLsbD i := by
  have hmask : ((2 ^ (8 * 2 ^ size) - 1) * 2 ^ (8 * o)).testBit i = decide (8 * o ≤ i ∧ i < 8 * o + 8 * 2 ^ size) := by
    rw [Nat.testBit_mul_two_pow, Nat.testBit_two_pow_sub_one, ← Bool.decide_and]
    exact decide_eq_decide.2 (by omega)
  have hdata : (data.toNat * 2 ^ (8 * o)).testBit i = (decide (8 * o ≤ i) && data.getLsbD (i - 8 * o)) :=
    Nat.testBit_mul_two_pow _ _ _
  simp only [mergeBytes, BitVec.getLsbD_or, BitVec.getLsbD_and, BitVec.getLsbD_not, BitVec.getLsbD_ofNat, hmask, hdata,
    decide_eq_true hi, Bool.true_and]
  split
  · next h => simp [h]
  · next h => simp [h]

/-- A merged word has the data's bytes in the place written, and the others of the word. -/
theorem wordByte_mergeBytes (w data : Word) (o size : Nat) {j : Nat} (hj : j < 4) :
    wordByte (mergeBytes w o size data) j = if o ≤ j ∧ j < o + 2 ^ size then wordByte data (j - o) else wordByte w j := by
  refine BitVec.eq_of_getLsbD_eq fun i hi => ?_
  have hin : (8 * o ≤ 8 * j + i ∧ 8 * j + i < 8 * o + 8 * 2 ^ size) ↔ (o ≤ j ∧ j < o + 2 ^ size) := by omega
  rw [getLsbD_wordByte, getLsbD_mergeBytes _ _ _ _ (by omega)]
  simp only [hin]
  split
  · next h =>
    have hoff : 8 * j + i - 8 * o = 8 * (j - o) + i := by omega
    rw [getLsbD_wordByte, hoff]
  · rw [getLsbD_wordByte]

/-- An aligned piece lies within its word. -/
theorem piece_fits (hsize : size ≤ 2) (hal : p % 2 ^ size = 0) : p % 4 + 2 ^ size ≤ 4 := by
  obtain rfl | rfl | rfl : size = 0 ∨ size = 1 ∨ size = 2 := by omega
  all_goals omega

/-- The word with the piece merged into it, put back, stores the piece alone. -/
theorem Stores.piece {data : Word} (hsize : size ≤ 2) (hal : p % 2 ^ size = 0)
    (h : Stores (wordOf p) 4 (mergeBytes (s.bankData (wordOf p)) (p % 4) size data) s t) : Stores p (2 ^ size) data s t := by
  have hfit := piece_fits hsize hal
  have hp : wordOf p + p % 4 = p := Nat.div_add_mod' p 4
  refine ⟨fun j hj => ?_, fun q hq => ?_⟩
  · have hbyte := h.1 (p % 4 + j) (by omega)
    rw [wordByte_mergeBytes _ _ _ _ (by omega), if_pos (by omega), Nat.add_sub_cancel_left, ← Nat.add_assoc, hp] at hbyte
    exact hbyte
  · by_cases hin : wordOf p ≤ q ∧ q < wordOf p + 4
    · obtain ⟨i, rfl⟩ := Nat.exists_eq_add_of_le hin.1
      have hi : i < 4 := by omega
      rw [h.1 i hi, wordByte_mergeBytes _ _ _ _ hi, if_neg (by omega), wordByte_bankData s _ hi]
    · exact h.2 q (by omega)

theorem memWrite_word (h : s.resolve a = some p) (hst : (s.bank (bankOf p)).st = .on) (w : Word) :
    s.memWrite a 2 w = (none, s.bankPut p w) := by
  rw [memWrite, h]
  dsimp only
  rw [if_neg (by simp [hst]), if_pos rfl]
theorem memWrite_part {v : Word} (h : s.resolve a = some p) (hst : (s.bank (bankOf p)).st = .on) (hsize : size ≠ 2)
    (hw : s.bankReadWord (wordOf p) = (.ok v, t)) (w : Word) :
    s.memWrite a size w = (none, t.bankPut (wordOf p) (mergeBytes v (p % 4) size w)) := by
  rw [memWrite, h]
  dsimp only
  rw [if_neg (by simp [hst]), if_neg hsize, hw]

/-- A write into a clean word stores its bytes and changes nothing but the banks. -/
theorem memWrite_stores (hcan : MemCanonical s) (h : s.resolve a = some p) (hsize : size ≤ 2) (hal : p % 2 ^ size = 0)
    (hst : (s.bank (bankOf p)).st = .on) (hsto : (s.bank (bankOf (wordOf p))).st = .on)
    (he : cellRead 0 s.mem.errs (wordOf p) = 0) (w : Word) :
    Stores p (2 ^ size) w s (s.memWrite a size w).2 ∧ OnlyChanges [.mem] s (s.memWrite a size w).2 := by
  by_cases h2 : size = 2
  · subst h2
    rw [memWrite_word h hst]
    exact ⟨stores_bankPut hcan p w, s.only_bankPut p w⟩
  · have hm := s.unmarked_markSaved (wordOf p)
    rw [memWrite_part h hst h2 (bankReadWord_clean hsto he)]
    exact ⟨((stores_bankPut ((markSaved_kept s (wordOf p)).mem hcan) _ _).of_cells (cells_of_unmarked hm)).piece hsize hal,
      (only_of_unmarked hm).both (only_bankPut _ _ _)⟩

end State
end Sys2Proof.Machine
end

section
/-!
PROOFS. The banks' port, tester, re-admission and circular windows (11 R424–R443).
-/
namespace Sys2Proof.Machine

/-- The piece of 2^size bytes of a word that an access at byte p reads. -/
def wordPiece (w : Word) (p size : Nat) : Word := .ofNat 32 (w.toNat / 2 ^ (8 * (p % 4)) % 2 ^ (8 * 2 ^ size))

/-- Dropping the keys that a test refuses leaves the default there, and the others as they were. -/
theorem cellRead_filter {α : Type} (d : α) (keep : Nat → Bool) (m : List (Nat × α)) (k : Nat) :
    cellRead d (m.filter fun p => keep p.1) k = if keep k then cellRead d m k else d := by
  induction m with
  | nil => exact (ite_self d).symm
  | cons x m ih =>
    obtain ⟨a, v⟩ := x
    rw [List.filter_cons]
    by_cases ha : keep a = true
    · rw [if_pos ha]
      by_cases hk : a = k
      · simp [cellRead, ← hk, ha]
      · simpa [cellRead, hk] using ih
    · rw [if_neg ha]
      by_cases hk : a = k
      · simpa [← hk, ha] using ih
      · simpa [cellRead, hk] using ih

namespace State
variable {s t : State} {a p n : Nat} {write : Bool} {b : Fin 8}

/-! ## The grant of a processor's access (11 R424–R430) -/

/-- The state in which a granted access at a takes place: its port used, and n bits of the word it reaches turned wrong. -/
def granted (s : State) (a : Nat) (write : Bool) (n : Nat) : State := (s.usePort (s.portOf a write)).flipBits a n

theorem bankGrant_read {addr : BitVec 20} {size : Fin 3} (hm : isMemAddr addr.toNat = true)
    (hal : addr.toNat % 2 ^ size.val = 0) (hw : s.waits addr.toNat = false)
    (hport : (s.portOf addr.toNat false).any s.portUsed = false) (n : Nat) :
    s.bankGrant (.read addr size) n = .next ((s.granted addr.toNat false n).grantRead addr.toNat size.val) := by
  simp [bankGrant, granted, hm, hal, hw, hport]
theorem bankGrant_write {addr : BitVec 20} {size : Fin 3} (hm : isMemAddr addr.toNat = true)
    (hal : addr.toNat % 2 ^ size.val = 0) (hw : s.waits addr.toNat = false)
    (hport : (s.portOf addr.toNat true).any s.portUsed = false) (n : Nat) (data : Word) :
    s.bankGrant (.write addr size data) n =
      .next ((s.granted addr.toNat true n).memWrite addr.toNat size.val data).2 := by
  simp [bankGrant, granted, hm, hal, hw, hport]

/-- A misaligned access, or one that has to wait, changes nothing. -/
theorem bankGrant_none {addr : BitVec 20} {size : Fin 3} (hm : isMemAddr addr.toNat = true)
    (h : addr.toNat % 2 ^ size.val ≠ 0 ∨ s.waits addr.toNat = true) (n : Nat) (data : Word) :
    s.bankGrant (.read addr size) n = .next s ∧ s.bankGrant (.write addr size data) n = .next s := by
  constructor <;> obtain h | h := h <;> simp [bankGrant, hm, h]

/-- An address that is no bank's and no aperture's is absent. -/
theorem bankGrant_absent {addr : BitVec 20} (h : isMemAddr addr.toNat = false) (size : Fin 3) (n : Nat) (data : Word) :
    s.bankGrant (.read addr size) n = .fault .noAddress ∧ s.bankGrant (.write addr size data) n = .fault .noAddress :=
  ⟨if_pos (by simp [h]), if_pos (by simp [h])⟩

section
variable (h : s.resolve a = some p)
include h

theorem granted_eq (write : Bool) (n : Nat) : ∃ f, s.granted a write n = (s.modCyc f).modMem fun m =>
    { m with errs := cellWrite 0 m.errs (wordOf p) (cellRead 0 m.errs (wordOf p) + n) } := by
  obtain ⟨f, hf⟩ := s.usePort_eq (s.portOf a write)
  have hr : (s.modCyc f).resolve a = some p := h
  exact ⟨f, by rw [granted, hf, flipBits, hr]⟩

theorem mem_granted (write : Bool) (n : Nat) : (s.granted a write n).mem =
    { s.mem with errs := cellWrite 0 s.mem.errs (wordOf p) (cellRead 0 s.mem.errs (wordOf p) + n) } := by
  obtain ⟨f, hf⟩ := granted_eq h write n
  rw [hf]
  rfl
theorem resolve_granted (write : Bool) (n : Nat) : (s.granted a write n).resolve a = some p := by
  obtain ⟨f, hf⟩ := granted_eq h write n
  rw [hf]
  exact h
theorem only_granted (write : Bool) (n : Nat) : OnlyChanges [.mem] s (s.granted a write n) := by
  obtain ⟨f, hf⟩ := granted_eq h write n
  rw [hf]
  exact (only_modCyc _ _ _).both (only_modMem _ _)
theorem bank_granted (write : Bool) (n : Nat) (j : Fin 8) : (s.granted a write n).bank j = s.bank j := by
  rw [bank, mem_granted h write n]
  rfl
theorem cells_granted (write : Bool) (n : Nat) : (s.granted a write n).mem.cells = s.mem.cells :=
  (congrArg Mem.cells (mem_granted h write n) :)
theorem flag_granted (write : Bool) (n : Nat) : (s.granted a write n).mem.flag = s.mem.flag :=
  (congrArg Mem.flag (mem_granted h write n) :)
theorem bankData_granted (write : Bool) (n q : Nat) : (s.granted a write n).bankData q = s.bankData q := by
  rw [bankData, cells_granted h write n]
  rfl
theorem errs_granted (hwf : cellWf 0 s.mem.errs = true) (he : cellRead 0 s.mem.errs (wordOf p) = 0) (write : Bool)
    (n : Nat) : cellRead 0 (s.granted a write n).mem.errs (wordOf p) = n := by
  rw [mem_granted h write n, cellRead_write _ _ _ _ _ hwf, if_pos rfl, he, Nat.zero_add]

end

theorem grantRead_ok {size : Nat} {w : Word} (h : s.memRead a size = (.ok w, t)) : s.grantRead a size = t.answer w := by
  rw [grantRead, h]
theorem grantRead_error {size : Nat} {e : MemErr} (h : s.memRead a size = (.error e, t)) : s.grantRead a size = t := by
  rw [grantRead, h]

/-! ## The grant of an ADC's copy (10 R401; 11 R429) -/

theorem adcGrant_alone {ad : Fin 2} {e : Fin 16} {code : BitVec 16} {rest : List (Fin 16 × BitVec 16)}
    (hcopies : (s.adc ad).copies = (e, code) :: rest) (haddr : adcAddr (s.adc ad) e = some a) (h : s.resolve a = some a)
    (hw : s.waits a = false) (hphase : (s.bank (bankOf a)).phase = .none) (hport : bankOf a ∉ s.cyc.ports)
    (hfirst : ad = 0 ∨ (s.adc 0).copies = []) :
    s.adcGrant ad = (((s.usePort (some (bankOf a))).modAdc ad fun x => { x with copies := rest }).memWrite a 1
      (code.setWidth 32)).2 := by
  have hadc : (decide (ad = 1) && s.adcAsks 0 (bankOf a)) = false := by
    obtain rfl | h0 := hfirst
    · rfl
    · simp [adcAsks, h0]
  have htester : s.testerAsks (bankOf a) = false := by simp [testerAsks, hphase]
  have hused : s.portUsed (bankOf a) = false := decide_eq_false hport
  rw [adcGrant, hcopies]
  dsimp only
  rw [haddr]
  dsimp only
  rw [portOf_untested h hphase, if_neg (by simp [hw, hused, htester, hadc])]

/-! ## The tester (11 R437–R440) -/

theorem modBank_congr {f g : Bank → Bank} (h : f (s.bank b) = g (s.bank b)) : s.modBank b f = s.modBank b g :=
  congrArg (fun x => { s with mem := { s.mem with banks := s.mem.banks.set b.val x b.isLt } }) h

/-- A march access short of the last, in which nothing differs, only counts. -/
theorem testerAccess_march (hst : (s.bank b).st = .on) (hphase : (s.bank b).phase = .march) (hdone : (s.bank b).done < 191)
    (hlock : s.mem.lock = none) : s.testerAccess b false = s.modBank b fun x => { x with done := x.done + 1 } := by
  have hheld : s.wordHeld (s.testerAt b) = false := by simp [wordHeld, hlock]
  unfold testerAccess
  dsimp only
  rw [if_neg (by simp [hst, hheld]), hphase]
  exact modBank_congr (if_neg (by omega))

theorem bank_writeTctl (h : s.boot.locked = false) (w : Word) (b : Fin 8) : (s.writeTctl w).bank b =
    if bit w b.val then s.bank b
    else { s.bank b with phase := .none, saved := 0, done := 0, startPend := false, recov := false } := by
  have hw : bit (w.setWidth 8) b.val = bit w b.val := by simp [bit, b.isLt]
  obtain ⟨u, hu, hfold⟩ := foldl_at (p := fun u : State => u.bank b)
    (f := fun t k => if bit (w.setWidth 8) k.val then t else t.testAbandon k) (List.mem_finRange b) (List.nodup_finRange 8)
    (fun t k _ hk => by
      split
      · rfl
      · exact (bank_modBank t k b _).trans (if_neg hk)) (s.modMem fun m => { m with tctl := w.setWidth 8 })
  have hu' : u.bank b = s.bank b := hu
  rw [writeTctl, if_neg (by simp [h])]
  refine hfold.trans ?_
  dsimp only
  rw [hw]
  split
  · exact hu'
  · rw [testAbandon, bank_modBank_self, hu']

theorem writeTctl_keeps {α : Type} {view : Mem → α} (hv : ∀ m v, view { m with banks := v } = view m)
    (h : s.boot.locked = false) (w : Word) :
    view (s.writeTctl w).mem = view { s.mem with tctl := w.setWidth 8 } := by
  rw [writeTctl, if_neg (by simp [h])]
  refine foldl_keeps (p := fun t : State => view t.mem) _ (fun t k _ => ?_) _
  dsimp only
  split
  · rfl
  · exact hv _ _
theorem only_writeTctl (s : State) (w : Word) : OnlyChanges [.mem] s (s.writeTctl w) :=
  .ite (.refl _ _) ((only_modMem _ _).both (.foldFin (fun _ _ => .ite (.refl _ _) (only_modBank _ _ _)) _))

/-! ## Re-admission (11 R443) -/

theorem cellRead_zeroFill (s : State) (b : Fin 8) (q : Nat) : cellRead 0 (s.zeroFill b).mem.cells q =
    if 0x20000 + 0x4000 * b.val ≤ q ∧ q < 0x24000 + 0x4000 * b.val then 0 else cellRead 0 s.mem.cells q := by
  refine (cellRead_filter 0 (fun a => decide (a < 0x20000 + 0x4000 * b.val) ||
    decide (0x20000 + 0x4000 * b.val + 0x4000 ≤ a)) s.mem.cells q).trans ?_
  by_cases hq : 0x20000 + 0x4000 * b.val ≤ q ∧ q < 0x24000 + 0x4000 * b.val
  · rw [if_pos hq, if_neg (by simp; omega)]
  · rw [if_neg hq, if_pos (by simp; omega)]

theorem only_zeroFill (s : State) (b : Fin 8) : OnlyChanges [.mem] s (s.zeroFill b) := only_modMem _ _

theorem readmitDone_passed (h : (s.bank b).st = .rdmTest) (word : Fin 4096) :
    s.readmitDone b true word = s.modBank b fun x => { x with st := .rdmFill } := by
  rw [readmitDone, h]
  rfl
theorem readmitDone_failed (h : (s.bank b).st = .rdmTest) (word : Fin 4096) : s.readmitDone b false word =
    (((s.modBank b fun x => { x with st := .fenced, tfail := satInc x.tfail }).memEvent 3
      (0x20000 + 0x4000 * b.val + 4 * word.val)).memFlag mRDMFAIL).report 0x0B 8 b.val
      (0x20000 + 0x4000 * b.val + 4 * word.val) := by
  rw [readmitDone, h]
  rfl
/-- The zero-fill's end returns the bank, with every byte zero. -/
theorem readmitDone_filled (h : (s.bank b).st = .rdmFill) (pass : Bool) (word : Fin 4096) : ∃ u : State,
    s.readmitDone b pass word = (u.memFlag mRDMDONE).fltBack (unitKey 8 b.val) ∧
    u.bank b = { s.bank b with st := .on, region := 0 } ∧ (∀ q, cellRead 0 u.mem.cells q =
      if 0x20000 + 0x4000 * b.val ≤ q ∧ q < 0x24000 + 0x4000 * b.val then 0 else cellRead 0 s.mem.cells q) ∧
    OnlyChanges [.mem] s u := by
  refine ⟨(s.zeroFill b).modBank b fun x => { x with st := .on, region := 0 }, ?_, bank_modBank_self (s.zeroFill b) b _,
    s.cellRead_zeroFill b, (s.only_zeroFill b).both (only_modBank _ _ _)⟩
  rw [readmitDone, h]
theorem readmitDone_none (h : (s.bank b).st = .on ∨ (s.bank b).st = .fill ∨ (s.bank b).st = .fenced) (pass : Bool)
    (word : Fin 4096) : s.readmitDone b pass word = s := by
  obtain h | h | h := h <;> rw [readmitDone, h]

/-! ## Circular windows (11 R434) -/

section
variable {n : Fin 16} {w : Word}

/-- BASE of a write to CW_BASE, as a number. -/
theorem toNat_cwBase (w : Word) : (BitVec.ofNat 12 (fld w 17 6)).toNat = fld w 17 6 := by
  rw [BitVec.toNat_ofNat]
  exact Nat.mod_eq_of_lt (Nat.mod_lt _ (by decide))

/-- A BASE below the banks has bit 11 clear. -/
theorem bit_cwBase_eq_false_iff (w : Word) : bit (BitVec.ofNat 12 (fld w 17 6)) 11 = false ↔ fld w 17 6 < 2048 := by
  have hlt : fld w 17 6 < 4096 := Nat.mod_lt _ (by decide)
  rw [bit, BitVec.getLsbD_eq_getElem (by decide), BitVec.getElem_eq_testBit_toNat, toNat_cwBase,
    Nat.testBit_eq_decide_div_mod_eq]
  simp only [decide_eq_false_iff_not]
  omega

theorem writeCwBase_enabled (hen : (s.cwin n).en = true) (hw : bit w 31 = true) : s.writeCwBase n w = s.memFlag mWWR :=
  (if_pos hw).trans (if_pos hen)
theorem writeCwBase_disable (hw : bit w 31 = false) :
    s.writeCwBase n w = s.modCw n fun c => { c with en := false, base := .ofNat 12 (fld w 17 6) } := if_neg (by simp [hw])

section
variable (hen : (s.cwin n).en = false) (hw : bit w 31 = true)
include hen hw

theorem writeCwBase_refused (hbad : (s.cwin n).log2.toNat < 6 ∨ 14 < (s.cwin n).log2.toNat ∨
    fld w 17 6 * 64 % 2 ^ (s.cwin n).log2.toNat ≠ 0 ∨ fld w 17 6 < 2048) :
    s.writeCwBase n w = (s.modCw n fun c => { c with base := .ofNat 12 (fld w 17 6) }).memFlag mWWR := by
  rw [writeCwBase]
  rw [if_pos hw, if_neg (by simp [hen]), toNat_cwBase]
  exact if_pos (by rwa [bit_cwBase_eq_false_iff])
theorem writeCwBase_accepted (hlo : 6 ≤ (s.cwin n).log2.toNat) (hhi : (s.cwin n).log2.toNat ≤ 14)
    (hal : fld w 17 6 * 64 % 2 ^ (s.cwin n).log2.toNat = 0) (hbase : 2048 ≤ fld w 17 6) :
    s.writeCwBase n w = s.modCw n fun c => { c with en := true, base := .ofNat 12 (fld w 17 6) } := by
  rw [writeCwBase]
  rw [if_pos hw, if_neg (by simp [hen]), toNat_cwBase]
  exact if_neg (by rw [bit_cwBase_eq_false_iff]; omega)

end
end
end State
end Sys2Proof.Machine
end

section
/-!
PROOFS. DMA channels (11 R444–R451, R455): the load of a descriptor, the stop, and a beat between two banks.
-/
namespace Sys2Proof.Machine

namespace DmaChan
variable (x : DmaChan)

/-- The channel enabled by client w, about to load the descriptor that DMA_FIRST names (11 R444). -/
def started (w : Fin 256) : DmaChan :=
  { x with en := true, owner := w, err := 0, burst := 0, heldPulse := false, starv := false,
           desc := .ofNat 20 (x.first.toNat * 16), st := .load, loadNext := false }

/-- The channel with the descriptor of four words loaded (11 R444, Table 11.6). -/
def loaded (w0 w1 w2 w3 : Word) : DmaChan :=
  { x with st := .move, src := w0.setWidth 20, dst := w1.setWidth 20, rem := .ofNat 16 (fld w2 15 0), w2 := w2, w3 := w3,
           burst := 0 }

/-- The channel after a beat of a descriptor with no pulse request (11 R446). -/
def stepped : DmaChan :=
  { x with src := if x.sinc then .ofNat 20 (dmaStep x.src.toNat (2 ^ x.size)) else x.src,
           dst := if x.dinc then .ofNat 20 (dmaStep x.dst.toNat (2 ^ x.size)) else x.dst,
           rem := x.rem - 1, burst := x.burst - 1, starv := false }

end DmaChan

theorem isMemAddr_of_bank {a : Nat} (h : isBankAddr a = true) : isMemAddr a = true := by
  simp only [isBankAddr, isMemAddr, Bool.and_eq_true, decide_eq_true_eq] at h ⊢
  omega

/-- In a bank an address steps to the next unit. -/
theorem ofNat_dmaStep {a : BitVec 20} (h : isBankAddr a.toNat = true) (n : Nat) :
    BitVec.ofNat 20 (dmaStep a.toNat n) = a + .ofNat 20 n := by
  have hap : ¬ isAperture a.toNat = true := by
    simp only [isBankAddr, isAperture, Bool.and_eq_true, decide_eq_true_eq] at h ⊢
    omega
  rw [dmaStep, if_neg hap, BitVec.ofNat_add, BitVec.ofNat_toNat, BitVec.setWidth_eq]

namespace DmaChan
variable {x : DmaChan}

theorem src_stepped (hsize : x.size = 2) (h : isBankAddr x.src.toNat = true) :
    x.stepped.src = if x.sinc then x.src + 4 else x.src := by
  rw [stepped, ofNat_dmaStep h, hsize]
  rfl
theorem dst_stepped (hsize : x.size = 2) (h : isBankAddr x.dst.toNat = true) :
    x.stepped.dst = if x.dinc then x.dst + 4 else x.dst := by
  rw [stepped, ofNat_dmaStep h, hsize]
  rfl

end DmaChan

namespace State
variable {s t : State} {a n : Nat} {c : Fin 8} {cl : Fin 256}

theorem modDma_congr {f g : DmaChan → DmaChan} (h : f (s.dmac c) = g (s.dmac c)) : s.modDma c f = s.modDma c g :=
  congrArg (fun x => { s with dma := s.dma.set c.val x c.isLt }) h

theorem only_dmaFlag (s : State) (c : Fin 8) (b : BitVec 5) : OnlyChanges [.dma] s (s.dmaFlag c b) :=
  (only_modDma _ _ _).both (only_hwSet _ _ _ _)
theorem dmac_dmaFlag_self (s : State) (c : Fin 8) (b : BitVec 5) :
    (s.dmaFlag c b).dmac c = { s.dmac c with flag := (s.dmac c).flag ||| b } := dmac_modDma_self s c _
theorem dmac_dmaFlag_ne {k : Fin 8} (h : k ≠ c) (b : BitVec 5) : (s.dmaFlag c b).dmac k = s.dmac k :=
  (dmac_modDma s c k _).trans (if_neg h.symm)
theorem dmac_modDma_ne {k : Fin 8} (h : k ≠ c) (f : DmaChan → DmaChan) : (s.modDma c f).dmac k = s.dmac k :=
  (dmac_modDma s c k _).trans (if_neg h.symm)
theorem only_dmaError (s : State) (c : Fin 8) (code : Nat) : OnlyChanges [.dma] s (s.dmaError c code) :=
  ((only_modDma _ _ _).both (only_dmaFlag _ _ _)).both (only_modCyc _ _ _)

theorem dmac_dmaError_self (s : State) (c : Fin 8) (code : Nat) : (s.dmaError c code).dmac c = { s.dmac c with
    st := .error, err := .ofNat 4 code, burst := 0, heldPulse := false, flag := (s.dmac c).flag ||| xERR } := by
  rw [dmaError, dmac_modCyc, dmac_dmaFlag_self, dmac_modDma_self]

/-! ## The load (11 R444, R445) -/

/-- The word at address a lies in a bank in service, aligned, with no wrong bit. -/
def CleanWord (s : State) (a : Nat) : Prop :=
  isBankAddr a = true ∧ a % 4 = 0 ∧ (s.bank (bankOf a)).st = .on ∧ cellRead 0 s.mem.errs a = 0

theorem CleanWord.of_unmarked (ht : t.unmarked = s.unmarked) (h : CleanWord s a) : CleanWord t a := by
  obtain ⟨ha, hal, hst, he⟩ := h
  exact ⟨ha, hal, (st_of_unmarked ht _).trans hst, (congrArg (cellRead 0 · a) (errs_of_unmarked ht)).trans he⟩

/-- Clean words are read in turn, and only the tester's notes change. -/
theorem readWords_clean (n : Nat) : ∀ {s : State} {a : Nat}, (∀ i, i < n → CleanWord s (a + 4 * i)) →
    ∃ t, s.readWords a n = (.ok ((List.range n).map fun i => s.bankData (a + 4 * i)), t) ∧ t.unmarked = s.unmarked := by
  induction n with
  | zero => exact fun _ => ⟨_, rfl, rfl⟩
  | succ n ih =>
    intro s a h
    obtain ⟨ha, hal, hst, he⟩ := h 0 (Nat.succ_pos n)
    have hm := s.unmarked_markSaved a
    have hshift : ∀ i, a + 4 + 4 * i = a + 4 * (i + 1) := fun i => by omega
    obtain ⟨t, hread, ht⟩ := ih (s := s.markSaved a) (a := a + 4) fun i hi => by
      rw [hshift]
      exact (h (i + 1) (Nat.succ_lt_succ hi)).of_unmarked hm
    refine ⟨t, ?_, ht.trans hm⟩
    have hfirst : s.memRead a 2 = (.ok (s.bankData a), s.markSaved a) := memRead_word ha hal hst he
    rw [readWords, hfirst]
    dsimp only
    rw [hread, List.range_succ_eq_map, List.map_cons, List.map_map]
    simp only [hshift, bankData_of_unmarked hm]
    rfl

theorem dmaCheck_of_unmarked (h : t.unmarked = s.unmarked) (w : Fin 256) (w0 w1 w2 w3 : Word) (dst : Nat) :
    t.dmaCheck w w0 w1 w2 w3 dst = s.dmaCheck w w0 w1 w2 w3 dst :=
  (congrArg (fun u : State => u.dmaCheck w w0 w1 w2 w3 dst) h :)

/-- A load of four words, none of which waits, and which pass the checks: the channel moves on. -/
theorem dmaFetch_loads {d : Nat} (hst : (s.dmac c).st = .load) (hnext : (s.dmac c).loadNext = false)
    (hheld : (s.dmac c).heldPulse = false) (hd : (s.dmac c).desc.toNat = d)
    (hw : ∀ i, i < 4 → s.waits (d + 4 * i) = false) (hclean : ∀ i, i < 4 → CleanWord s (d + 4 * i))
    (hcheck : s.dmaCheck (s.dmac c).owner (s.bankData d) (s.bankData (d + 4)) (s.bankData (d + 8)) (s.bankData (d + 12))
      ((s.bankData (d + 4)).setWidth 20).toNat = 0) :
    ∃ t : State, t.unmarked = s.unmarked ∧ s.dmaFetch c = t.modDma c fun x =>
      x.loaded (s.bankData d) (s.bankData (d + 4)) (s.bankData (d + 8)) (s.bankData (d + 12)) := by
  obtain ⟨t, hread, ht⟩ := readWords_clean 4 hclean
  have hx : t.dmac c = s.dmac c :=
    (congrArg (·.dmac c) ht :)
  have hwait : (List.range 4).any (fun i => s.waits (d + 4 * i)) = false := by
    simpa [List.any_eq_false] using hw
  refine ⟨t, ht, ?_⟩
  rw [dmaFetch, hd, if_neg (by simp [hst, hwait]), hread]
  simp only [List.range, List.range.loop, List.map_cons, List.map_nil, Nat.mul_zero, Nat.add_zero, Nat.mul_one, hx, hnext,
    dmaCheck_of_unmarked ht, Bool.false_eq_true, false_and, if_false, hcheck]
  refine modDma_congr ?_
  rw [hx]
  exact if_neg (by simp [hheld])

theorem dmaFetch_waits (h : s.waits (s.dmac c).desc.toNat = true) : s.dmaFetch c = s :=
  if_pos (.inr (List.any_eq_true.2 ⟨0, by decide, h⟩))

/-- The state in which an enabled channel starts to load its first descriptor (11 R444). -/
def dmaStart (s : State) (c : Fin 8) (cl : Fin 256) : State :=
  (s.modDma c fun x => { x with en := true, owner := cl, err := 0, burst := 0, heldPulse := false, starv := false }).modDma c
    fun x => { x with desc := .ofNat 20 ((s.dmac c).first.toNat * 16), st := .load, loadNext := false }

theorem dmac_dmaStart (s : State) (c : Fin 8) (cl : Fin 256) : (s.dmaStart c cl).dmac c = (s.dmac c).started cl := by
  rw [dmaStart, dmac_modDma_self, dmac_modDma_self]
  rfl
theorem only_dmaStart (s : State) (c : Fin 8) (cl : Fin 256) : OnlyChanges [.dma] s (s.dmaStart c cl) :=
  (only_modDma _ _ _).both (only_modDma _ _ _)

theorem dmaEnable_running (hen : (s.dmac c).en = true) (hdone : (s.dmac c).st ≠ .done) (herr : (s.dmac c).st ≠ .error) :
    s.dmaEnable c cl = s := if_pos ⟨hen, hdone, herr⟩

section
variable (h : (s.dmac c).en = false ∨ (s.dmac c).st = .done ∨ (s.dmac c).st = .error)
include h

theorem dmaEnable_stopped : s.dmaEnable c cl =
    if !isBankAddr ((s.dmac c).first.toNat * 16) then (s.dmaStart c cl).dmaError c 4 else (s.dmaStart c cl).dmaFetch c := by
  refine if_neg fun ⟨hen, hdone, herr⟩ => ?_
  obtain h | h | h := h
  · simp [h] at hen
  · exact hdone h
  · exact herr h
theorem dmaEnable_apart (ha : isBankAddr ((s.dmac c).first.toNat * 16) = false) :
    s.dmaEnable c cl = (s.dmaStart c cl).dmaError c 4 := (dmaEnable_stopped h).trans (if_pos (by simp [ha]))
theorem dmaEnable_bank (ha : isBankAddr ((s.dmac c).first.toNat * 16) = true) :
    s.dmaEnable c cl = (s.dmaStart c cl).dmaFetch c := (dmaEnable_stopped h).trans (if_neg (by simp [ha]))

end

/-! ## Pulses and the stop (11 R448, R450, R455) -/

theorem dmaPulse_none (h : ((s.dmac c).st ≠ .move ∧ (s.dmac c).st ≠ .load) ∨ reqPulse (s.dmac c).reqsel = false) :
    s.dmaPulse c = s := if_pos (by obtain ⟨hm, hl⟩ | h := h <;> simp [*])

section
variable (hst : (s.dmac c).st = .move ∨ (s.dmac c).st = .load) (hreq : reqPulse (s.dmac c).reqsel = true)
include hst hreq

theorem dmaPulse_serves (hm : (s.dmac c).st = .move) (hburst : (s.dmac c).burst = 0) : s.dmaPulse c = s.modDma c fun x =>
    { x with burst := if x.burstLen = 0 then x.rem.toNat else x.burstLen } :=
  (if_neg (by obtain h | h := hst <;> simp [h, hreq])).trans (if_pos ⟨hm, hburst⟩)

section
variable (hbusy : (s.dmac c).st = .load ∨ (s.dmac c).burst ≠ 0)
include hbusy

theorem dmaPulse_busy : s.dmaPulse c = if !(s.dmac c).heldPulse then s.modDma c fun x => { x with heldPulse := true }
    else s.dmaFlag c xREQOVR :=
  (if_neg (by obtain h | h := hst <;> simp [h, hreq])).trans
    (if_neg fun ⟨hm, hb⟩ => hbusy.elim (fun hl => nomatch hl.symm.trans hm) (· hb))
theorem dmaPulse_held (hheld : (s.dmac c).heldPulse = false) :
    s.dmaPulse c = s.modDma c fun x => { x with heldPulse := true } :=
  (dmaPulse_busy hst hreq hbusy).trans (if_pos (by simp [hheld]))
theorem dmaPulse_lost (hheld : (s.dmac c).heldPulse = true) : s.dmaPulse c = s.dmaFlag c xREQOVR :=
  (dmaPulse_busy hst hreq hbusy).trans (if_neg (by simp [hheld]))

end
end

theorem dmac_dmaDisable (s : State) (c : Fin 8) :
    (s.dmaDisable c).dmac c = if c ∈ s.cyc.dmaErr then { s.dmac c with en := false } else DmaChan.off (s.dmac c) := by
  unfold dmaDisable
  split
  · exact dmac_modDma_self s c _
  · exact dmac_modDma_self s c _
theorem dmac_dmaDisable_ne {k : Fin 8} (h : k ≠ c) : (s.dmaDisable c).dmac k = s.dmac k := by
  unfold dmaDisable
  split <;> exact dmac_modDma_ne h _
theorem only_dmaDisable (s : State) (c : Fin 8) : OnlyChanges [.dma] s (s.dmaDisable c) :=
  .ite (only_modDma _ _ _) ((only_modDma _ _ _).both (only_modCyc _ _ _))

/-! ## A beat (11 R446–R449) -/

theorem st_of_dmaReady (h : s.dmaReady c = true) : (s.dmac c).st = .move := by
  simp only [dmaReady, Bool.and_eq_true, decide_eq_true_eq] at h
  exact h.1.1

theorem dmaLast_none (h : ∀ y ∈ s.cyc.dmaOff, y.1 ≠ c) : s.dmaLast c = s := by
  have hnone : s.cyc.dmaOff.find? (·.1 = c) = none := List.find?_eq_none.2 fun y hy => by simpa using h y hy
  rw [dmaLast, hnone]

theorem dmaBeat_none (h : ∀ y ∈ s.cyc.dmaOff, y.1 ≠ c) (hasks : s.dmaAsks c = false) : s.dmaBeat c = s := by
  rw [dmaBeat, dmaLast_none h]
  exact if_neg (by simp [hasks])
theorem dmaBeat_moves (h : ∀ y ∈ s.cyc.dmaOff, y.1 ≠ c) (hasks : s.dmaAsks c = true)
    (hports : ∀ b ∈ s.dmaPorts c, s.dmaLoses c b = false) (hen : ((s.dmaMove c).dmac c).en = true) :
    s.dmaBeat c = s.dmaMove c := by
  have hnone : (s.dmaPorts c).any (s.dmaLoses c) = false := List.any_eq_false.2 fun b hb => by simp [hports b hb]
  rw [dmaBeat, dmaLast_none h]
  exact (if_pos (by simp [hasks, hnone])).trans (if_pos (by simp [hen]))

/-- The ports of a beat are those of its two banks. -/
theorem dmaPorts_cases {p q : Nat} {b : Fin 8} (hp : s.resolve (s.dmac c).src.toNat = some p)
    (hq : s.resolve (s.dmac c).dst.toNat = some q) (hb : b ∈ s.dmaPorts c) : b = bankOf p ∨ b = bankOf q := by
  obtain ⟨o, ho, hob⟩ := List.mem_filterMap.1 hb
  simp only [List.mem_cons, List.not_mem_nil, or_false] at ho
  obtain rfl | rfl := ho
  · exact .inl (eq_of_mem_portOf hp hob)
  · exact .inr (eq_of_mem_portOf hq hob)

theorem dmaRead_ok {size : Nat} {w : Word} (ha : isMemAddr a = true) (h : s.memRead a size = (.ok w, t)) :
    s.dmaRead a size = (some w, t) := by
  rw [dmaRead, if_pos ha, h]
theorem dmaWrite_ok {size : Nat} {w : Word} (ha : isMemAddr a = true) (h : s.memWrite a size w = (none, t)) (cl : Fin 256) :
    s.dmaWrite cl a size w = (true, t) := by
  rw [dmaWrite, if_pos ha, h]
  rfl

/-- The channel whose beat is granted: its wait ends, and the beat takes its time (11 R447). -/
def dmaTaken (s : State) (c : Fin 8) : State :=
  let t := (s.dmaPorts c).foldl (fun s b => s.usePort (some b)) s
  t.modDma c fun x => { x with wait := 0, starv := false, freeAt := t.time + dmaCost x.src.toNat + dmaCost x.dst.toNat }

theorem foldl_usePort (bs : List (Fin 8)) (s : State) : ∃ f, bs.foldl (fun s b => s.usePort (some b)) s = s.modCyc f := by
  induction bs generalizing s with
  | nil => exact ⟨id, rfl⟩
  | cons b bs ih =>
    obtain ⟨f, hf⟩ := ih (s.usePort (some b))
    exact ⟨fun c => f { c with ports := b :: c.ports }, hf⟩

theorem mem_dmaTaken (s : State) (c : Fin 8) : (s.dmaTaken c).mem = s.mem := by
  obtain ⟨f, hf⟩ := foldl_usePort (s.dmaPorts c) s
  rw [dmaTaken, hf]
  rfl
theorem only_dmaTaken (s : State) (c : Fin 8) : OnlyChanges [.dma] s (s.dmaTaken c) := by
  obtain ⟨f, hf⟩ := foldl_usePort (s.dmaPorts c) s
  rw [dmaTaken, hf]
  exact (only_modCyc _ _ _).both (only_modDma _ _ _)
theorem dmac_dmaTaken (s : State) (c : Fin 8) : (s.dmaTaken c).dmac c = { s.dmac c with
    wait := 0, starv := false, freeAt := s.time + dmaCost (s.dmac c).src.toNat + dmaCost (s.dmac c).dst.toNat } := by
  obtain ⟨f, hf⟩ := foldl_usePort (s.dmaPorts c) s
  rw [dmaTaken, hf]
  exact dmac_modDma_self (s.modCyc f) c _

theorem dmaMove_ok {u v : State} {w : Word}
    (hread : (s.dmaTaken c).dmaRead (s.dmac c).src.toNat (s.dmac c).size = (some w, u))
    (hwrite : u.dmaWrite (s.dmac c).owner (s.dmac c).dst.toNat (s.dmac c).size w = (true, v)) :
    s.dmaMove c = v.dmaAfter c := by
  unfold dmaTaken at hread
  unfold dmaMove
  dsimp only at hread ⊢
  rw [hread]
  dsimp only
  rw [hwrite]

section
variable (hreq : reqPulse (s.dmac c).reqsel = false)
include hreq

/-- A beat that leaves units to move only steps the channel. -/
theorem dmaAfter_more (hrem : (s.dmac c).rem - 1 ≠ 0) : s.dmaAfter c = s.modDma c (·.stepped) := by
  unfold dmaAfter
  extract_lets t x
  have ht : t = s.modDma c (·.stepped) := modDma_congr (if_neg (by simp [hreq]))
  have hx : x = (s.dmac c).stepped := (congrArg (·.dmac c) ht).trans (dmac_modDma_self s c _)
  rw [if_pos (by rwa [hx]), ht]

/-- The beat that moves the last unit of the last descriptor ends in DONE (11 R449). -/
theorem dmaAfter_last (hrem : (s.dmac c).rem - 1 = 0) (hnext : (s.dmac c).next = 0) : s.dmaAfter c =
    ((if (s.dmac c).irq then (s.modDma c (·.stepped)).dmaFlag c xDESCDONE else s.modDma c (·.stepped)).modDma c
      fun x => { x with st := .done, burst := 0 }).dmaFlag c xDONE := by
  unfold dmaAfter
  extract_lets t x u
  have ht : t = s.modDma c (·.stepped) := modDma_congr (if_neg (by simp [hreq]))
  have hx : x = (s.dmac c).stepped := (congrArg (·.dmac c) ht).trans (dmac_modDma_self s c _)
  have hu : u = if (s.dmac c).irq then (s.modDma c (·.stepped)).dmaFlag c xDESCDONE else s.modDma c (·.stepped) := by
    unfold u
    rw [hx, ht]
    rfl
  rw [if_neg (by rw [hx]; exact fun hne => hne hrem), if_pos (by rw [hx]; exact hnext), hu]

/-- After a beat without a further descriptor the channel has stepped, and is DONE where that was its last unit. -/
theorem dmac_dmaAfter (hnext : (s.dmac c).next = 0) : ∃ burst flag, (s.dmaAfter c).dmac c = { (s.dmac c).stepped with
    st := if (s.dmac c).rem - 1 = 0 then .done else (s.dmac c).st, burst := burst, flag := flag } ∧
    ((s.dmac c).rem - 1 = 0 → bit flag 0 = true) := by
  by_cases hrem : (s.dmac c).rem - 1 = 0
  · have hdone : ∀ f : BitVec 5, bit (f ||| xDONE) 0 = true := fun f => by rw [bit_or, Bool.or_eq_true]; exact .inr rfl
    rw [dmaAfter_last hreq hrem hnext, dmac_dmaFlag_self, dmac_modDma_self, if_pos hrem]
    split
    · rw [dmac_dmaFlag_self, dmac_modDma_self]
      exact ⟨_, _, rfl, fun _ => hdone _⟩
    · rw [dmac_modDma_self]
      exact ⟨_, _, rfl, fun _ => hdone _⟩
  · rw [dmaAfter_more hreq hrem, dmac_modDma_self, if_neg hrem]
    exact ⟨_, _, rfl, fun h => absurd h hrem⟩

theorem only_dmaAfter (hnext : (s.dmac c).next = 0) : OnlyChanges [.dma] s (s.dmaAfter c) := by
  by_cases hrem : (s.dmac c).rem - 1 = 0
  · rw [dmaAfter_last hreq hrem hnext]
    exact ((OnlyChanges.ite ((only_modDma _ _ _).both (only_dmaFlag _ _ _)) (only_modDma _ _ _)).both
      (only_modDma _ _ _)).both (only_dmaFlag _ _ _)
  · rw [dmaAfter_more hreq hrem]
    exact only_modDma _ _ _

end

/-- A beat of a clean word from bank to bank (11 R446, R447): before the channel steps, the word is moved and nothing but the
channel and the banks has changed. -/
theorem dmaMove_word (hcan : MemCanonical s) (hsize : (s.dmac c).size = 2) (hsrc : s.CleanWord (s.dmac c).src.toNat)
    (hdst : isBankAddr (s.dmac c).dst.toNat = true) (hst : (s.bank (bankOf (s.dmac c).dst.toNat)).st = .on) :
    ∃ t, s.dmaMove c = t.dmaAfter c ∧
      Stores (s.dmac c).dst.toNat 4 (s.bankData (s.dmac c).src.toNat) s t ∧ t.dmac c = (s.dmaTaken c).dmac c ∧
      OnlyChanges [.dma, .mem] s t := by
  obtain ⟨ha, hal, hon, he⟩ := hsrc
  have hmem := s.mem_dmaTaken c
  have hbank : ∀ b, (s.dmaTaken c).bank b = s.bank b := fun b => congrArg (fun m : Mem => at_ m.banks b) hmem
  have hmark := (s.dmaTaken c).unmarked_markSaved (s.dmac c).src.toNat
  have hdata : (s.dmaTaken c).bankData (s.dmac c).src.toNat = s.bankData (s.dmac c).src.toNat :=
    bankData_congr fun j _ => congrArg (fun m : Mem => cellRead 0 m.cells _) hmem
  have hread := memRead_word (s := s.dmaTaken c) ha hal (by rwa [hbank]) (by rwa [hmem])
  rw [hdata] at hread
  have hwrite := memWrite_word (resolve_bank hdst) ((st_of_unmarked hmark _).trans ((congrArg Bank.st (hbank _)).trans hst))
    (s.bankData (s.dmac c).src.toNat)
  have honly := (only_of_unmarked hmark).both (only_bankPut _ (s.dmac c).dst.toNat (s.bankData (s.dmac c).src.toNat))
  rw [← hsize] at hread hwrite
  have hmove := dmaMove_ok (dmaRead_ok (isMemAddr_of_bank ha) hread) (dmaWrite_ok (isMemAddr_of_bank hdst) hwrite _)
  refine ⟨_, hmove, ?_, ?_, ?_⟩
  · have hcells := (cells_of_unmarked hmark).trans (congrArg Mem.cells hmem)
    have hcan' : MemCanonical ((s.dmaTaken c).markSaved (s.dmac c).src.toNat) := by
      unfold MemCanonical
      rwa [hcells]
    exact (stores_bankPut hcan' _ _).of_cells hcells
  · exact congrArg (fun v => at_ v c) (honly .dma (by decide))
  · exact (only_dmaTaken s c).trans honly

end State
end Sys2Proof.Machine
end

section
/-!
PROOFS. The banks, windows and DMA (11 R424–R456): the commands of O49.
-/
namespace Sys2Proof.Machine
open State

/-! ## Commands that need the PLL -/

section
variable {i : Instr} {s t : State} {f : State → State} {ps : List Part} {P : State → Prop}

theorem completes_clocked (hc : exec i s = .next (s.whenUp s.pwr.pllLock f)) (hup : s.pwr.pllLock = true) (hf : f s = t)
    (hP : P t) (ho : OnlyChanges ps s t) : Completes i s ps P :=
  ⟨t, hc.trans (congrArg Host.Outcome.next ((if_pos hup).trans hf)), hP, ho⟩

/-- A command that changes nothing here changes nothing, whether or not the PLL is locked. -/
theorem completes_same (hc : exec i s = .next (s.whenUp s.pwr.pllLock f)) (hf : f s = s) :
    Completes i s [] fun _ => True := by
  have hs : s.whenUp s.pwr.pllLock f = s := (congrArg (ite _ · s) hf).trans (ite_self s)
  exact ⟨s, hc.trans (congrArg Host.Outcome.next hs), trivial, .refl _ _⟩

theorem completes_unclocked (hc : exec i s = .next (s.whenUp s.pwr.pllLock f)) (hdown : s.pwr.pllLock = false) :
    Completes i s [] fun _ => True :=
  ⟨s, hc.trans (congrArg Host.Outcome.next (if_neg (by simp [hdown]))), trivial, .refl _ _⟩

theorem completes_grant {q : BankReq} {n : Nat} (hup : s.pwr.pllLock = true) (hg : s.bankGrant q n = .next t) (hP : P t)
    (ho : OnlyChanges ps s t) : Completes (.bankAccessGrant q n) s ps P := ⟨t, (if_pos hup).trans hg, hP, ho⟩

theorem completes_grant_unclocked (hdown : s.pwr.pllLock = false) (q : BankReq) (n : Nat) :
    Completes (.bankAccessGrant q n) s [] fun _ => True := ⟨s, if_neg (by simp [hdown]), trivial, .refl _ _⟩

end

/-! ## Accesses of a processor -/

/-- An access of 2^size bytes at address a reaches the bank byte p now: it is aligned, waits for nothing, and finds the port
free, the bank in service and the word clean. -/
structure State.Reaches (s : State) (a size p : Nat) : Prop where
  inMem : isMemAddr a = true
  aligned : a % 2 ^ size = 0
  resolves : s.resolve a = some p
  fits : p % 2 ^ size = 0
  unlocked : s.mem.lock = none
  on : (s.bank (bankOf p)).st = .on
  restored : (s.bank (bankOf p)).recov = false
  portFree : bankOf p ∉ s.cyc.ports
  wordOn : (s.bank (bankOf (wordOf p))).st = .on
  clean : cellRead 0 s.mem.errs (wordOf p) = 0
  errsWf : cellWf 0 s.mem.errs = true

namespace State.Reaches
variable {s : State} {addr : BitVec 20} {size : Fin 3} {p : Nat} (h : s.Reaches addr.toNat size.val p)
include h

theorem waits_eq_false : s.waits addr.toNat = false := State.waits_eq_false h.resolves h.unlocked h.on h.restored
theorem grant_read (n : Nat) :
    s.bankGrant (.read addr size) n = .next ((s.granted addr.toNat false n).grantRead addr.toNat size.val) :=
  bankGrant_read h.inMem h.aligned h.waits_eq_false (port_free h.resolves h.portFree) n
theorem grant_write (n : Nat) (data : Word) : s.bankGrant (.write addr size data) n =
    .next ((s.granted addr.toNat true n).memWrite addr.toNat size.val data).2 :=
  bankGrant_write h.inMem h.aligned h.waits_eq_false (port_free h.resolves h.portFree) n data

theorem wordOn_granted (write : Bool) (n : Nat) :
    ((s.granted addr.toNat write n).bank (bankOf (wordOf p))).st = .on := by rw [bank_granted h.resolves, h.wordOn]
theorem errs_granted (write : Bool) (n : Nat) :
    cellRead 0 (s.granted addr.toNat write n).mem.errs (wordOf p) = n :=
  State.errs_granted h.resolves h.errsWf h.clean write n

variable (hup : s.pwr.pllLock = true)
include hup

theorem completes_read : Completes (.bankAccessGrant (.read addr size) 0) s [.mem, .rdata] fun t =>
    t.rdata = wordPiece (s.bankData (wordOf p)) p size.val ∧ t.mem.cells = s.mem.cells ∧ t.mem.flag = s.mem.flag := by
  have hm := (s.granted addr.toNat false 0).unmarked_markSaved (wordOf p)
  have hread := memRead_ok (size := size.val) (resolve_granted h.resolves false 0)
    (bankReadWord_clean (h.wordOn_granted false 0) (h.errs_granted false 0))
  rw [bankData_granted h.resolves] at hread
  refine completes_grant hup ((h.grant_read 0).trans (congrArg Host.Outcome.next (grantRead_ok hread))) ⟨rfl, ?_, ?_⟩ ?_
  · exact (cells_of_unmarked hm).trans (cells_granted h.resolves _ _)
  · exact (flag_of_unmarked hm).trans (flag_granted h.resolves _ _)
  · exact ((only_granted h.resolves _ _).both (only_of_unmarked hm)).trans (only_answer _ _)

theorem completes_read_single : Completes (.bankAccessGrant (.read addr size) 1) s [.mem, .rdata] fun t =>
    t.rdata = wordPiece (s.bankData (wordOf p)) p size.val ∧ t.mem.cells = s.mem.cells ∧ bit t.mem.flag 0 = true ∧
    t.mem.ekind = 1 ∧ t.mem.eaddr.toNat = wordOf p % 2 ^ 20 ∧ wordOf p ∈ t.mem.wb ∧
    (t.bank (bankOf (wordOf p))).corr = satInc (s.bank (bankOf (wordOf p))).corr := by
  have hm := (s.granted addr.toNat false 1).unmarked_markSaved (wordOf p)
  have hread := memRead_ok (size := size.val) (resolve_granted h.resolves false 1)
    (bankReadWord_single (h.wordOn_granted false 1) (h.errs_granted false 1))
  rw [bankData_granted h.resolves] at hread
  have hcells := (cells_of_unmarked hm).trans (cells_granted h.resolves _ _)
  have hcorr := (corr_of_unmarked hm (bankOf (wordOf p))).trans (congrArg Bank.corr (bank_granted h.resolves _ _ _))
  have honly := (only_granted h.resolves _ _).both (only_of_unmarked hm)
  generalize (s.granted addr.toNat false 1).markSaved (wordOf p) = v at hread hcells hcorr honly
  obtain ⟨hflag, hkind, haddr⟩ := event_bankCorr v (wordOf p)
  refine completes_grant hup ((h.grant_read 1).trans (congrArg Host.Outcome.next (grantRead_ok hread)))
    ⟨rfl, (cells_bankCorr v (wordOf p)).trans hcells, hflag, hkind, haddr, mem_wb_bankCorr v (wordOf p), ?_⟩
    ((honly.both (only_bankCorr v _)).trans (only_answer _ _))
  rw [bank_answer, bank_bankCorr, hcorr]

theorem completes_read_double : Completes (.bankAccessGrant (.read addr size) 2) s [.mem, .reports] fun t =>
    t.mem.cells = s.mem.cells ∧ bit t.mem.flag 1 = true ∧ t.mem.ekind = 2 ∧
    (t.bank (bankOf (wordOf p))).unc = satInc (s.bank (bankOf (wordOf p))).unc ∧
    ∃ r ∈ t.reports, r.mech = 0x0A ∧ r.kind = 8 := by
  have hm := (s.granted addr.toNat false 2).unmarked_markSaved (wordOf p)
  have hread := memRead_error (size := size.val) (resolve_granted h.resolves false 2)
    (bankReadWord_double (h.wordOn_granted false 2) (h.errs_granted false 2))
  have hcells := (cells_of_unmarked hm).trans (cells_granted h.resolves _ _)
  have hunc := (unc_of_unmarked hm (bankOf (wordOf p))).trans (congrArg Bank.unc (bank_granted h.resolves _ _ _))
  have honly := (only_granted h.resolves _ _).both (only_of_unmarked hm)
  generalize (s.granted addr.toNat false 2).markSaved (wordOf p) = v at hread hcells hunc honly
  obtain ⟨hflag, hkind, hreport⟩ := event_bankUnc v (wordOf p)
  refine completes_grant hup ((h.grant_read 2).trans (congrArg Host.Outcome.next (grantRead_error hread)))
    ⟨(cells_bankUnc v (wordOf p)).trans hcells, hflag, hkind, ?_, hreport⟩ ((honly.trans (only_bankUnc v _)).mono
      (by decide))
  rw [bank_bankUnc, hunc]

theorem completes_write (hcan : MemCanonical s) (data : Word) :
    Completes (.bankAccessGrant (.write addr size data) 0) s [.mem] (Stores p (2 ^ size.val) data s) := by
  have hcells := cells_granted h.resolves true 0
  have hcan' : MemCanonical (s.granted addr.toNat true 0) := by
    unfold MemCanonical
    rwa [hcells]
  obtain ⟨hstores, honly⟩ := memWrite_stores hcan' (resolve_granted h.resolves true 0) (Nat.le_of_lt_succ size.isLt) h.fits
    (by rw [bank_granted h.resolves, h.on]) (h.wordOn_granted true 0) (h.errs_granted true 0) data
  exact completes_grant hup (h.grant_write 0 data) (hstores.of_cells hcells) ((only_granted h.resolves _ _).both honly)

end State.Reaches

/-! ## The tester's march (11 R440) -/

theorem completes_march {s : State} {b : Fin 8} (hup : s.pwr.pllLock = true) (hfree : b ∉ s.cyc.ports)
    (hst : (s.bank b).st = .on) (hphase : (s.bank b).phase = .march) (hdone : (s.bank b).done < 191)
    (hlock : s.mem.lock = none) : Completes (.bankAccessGrant (.tester b false) 0) s [.mem] fun t =>
      t.bank b = { s.bank b with done := (s.bank b).done + 1 } ∧ t.mem.cells = s.mem.cells ∧
      ∀ k, k ≠ b → t.bank k = s.bank k := by
  obtain ⟨f, hf⟩ := s.usePort_eq (some b)
  have hport : s.portUsed b = false := decide_eq_false hfree
  have hgrant : s.bankGrant (.tester b false) 0 = .next ((s.modCyc f).testerAccess b false) :=
    congrArg Host.Outcome.next ((if_neg (by simp [hport])).trans (congrArg (·.testerAccess b false) hf))
  rw [testerAccess_march (s := s.modCyc f) hst hphase hdone hlock] at hgrant
  exact completes_grant hup hgrant
    ⟨bank_modBank_self (s.modCyc f) b _, rfl, fun k hk => (bank_modBank (s.modCyc f) b k _).trans (if_neg hk.symm)⟩
    ((only_modCyc _ _ _).both (only_modBank _ _ _))

/-! ## The copy of an ADC's result (10 R401) -/

theorem completes_copy {s : State} {ad : Fin 2} {e : Fin 16} {code : BitVec 16} {rest : List (Fin 16 × BitVec 16)} {q : Nat}
    (hup : s.pwr.pllLock = true) (hcan : MemCanonical s) (hcopies : (s.adc ad).copies = (e, code) :: rest)
    (haddr : adcAddr (s.adc ad) e = some q) (hbank : isBankAddr q = true) (hal : q % 2 = 0) (hlock : s.mem.lock = none)
    (hst : (s.bank (bankOf q)).st = .on) (hrecov : (s.bank (bankOf q)).recov = false)
    (hphase : (s.bank (bankOf q)).phase = .none) (hsto : (s.bank (bankOf (wordOf q))).st = .on)
    (he : cellRead 0 s.mem.errs (wordOf q) = 0) (hfree : bankOf q ∉ s.cyc.ports) (hfirst : ad = 0 ∨ (s.adc 0).copies = []) :
    Completes (.bankAccessGrant (.adc ad) 0) s [.mem, .afe] fun t => (t.adc ad).copies = rest ∧
      (∀ j, j < 2 → cellRead 0 t.mem.cells (q + j) = .ofNat 8 (code.toNat / 2 ^ (8 * j))) ∧
      ∀ j, j < q ∨ q + 2 ≤ j → cellRead 0 t.mem.cells j = cellRead 0 s.mem.cells j := by
  have hr := resolve_bank (s := s) hbank
  have hgrant := adcGrant_alone hcopies haddr hr (waits_eq_false hr hlock hst hrecov) hphase hfree hfirst
  obtain ⟨f, hf⟩ := s.usePort_eq (some (bankOf q))
  rw [hf] at hgrant
  obtain ⟨⟨hin, hout⟩, honly⟩ := memWrite_stores (s := (s.modCyc f).modAdc ad fun x => { x with copies := rest }) hcan hr
    (by decide : 1 ≤ 2) hal hst hsto he (code.setWidth 32)
  have hcode : (code.setWidth 32).toNat = code.toNat := BitVec.toNat_setWidth_of_le (by decide)
  refine completes_grant hup (congrArg Host.Outcome.next hgrant) ⟨?_, fun j hj => ?_, hout⟩
    (((only_modCyc s f _).both (only_modAdc _ _ _)).trans honly |>.mono (by decide))
  · have hafe := honly .afe (by decide)
    exact (congrArg (fun v => (at_ v.adc ad).copies) hafe).trans (congrArg Adc.copies (at_vset_self s.afe.adc ad _))
  · rw [hin j hj, wordByte, hcode]

/-! ## Loads and beats of a DMA channel -/

namespace State
variable {s : State} {c : Fin 8} {cl : Fin 256}

/-- A first descriptor's address lies within 20 bits. -/
theorem toNat_desc_started (x : DmaChan) (cl : Fin 256) : (x.started cl).desc.toNat = x.first.toNat * 16 := by
  have hlt := x.first.isLt
  exact (BitVec.toNat_ofNat _ _).trans (Nat.mod_eq_of_lt (by omega))

theorem toNat_rem_loaded (x : DmaChan) (w0 w1 w2 w3 : Word) : (x.loaded w0 w1 w2 w3).rem.toNat = w2.toNat % 2 ^ 16 := by
  simp [DmaChan.loaded, fld]

theorem isBankAddr_of_range {a : Nat} (hlo : 0x20000 ≤ a) (hhi : a < 0x40000) : isBankAddr a = true := by
  simp [isBankAddr, hlo, hhi]

section
variable (hup : s.pwr.pllLock = true) (hstop : (s.dmac c).en = false ∨ (s.dmac c).st = .done ∨ (s.dmac c).st = .error)
include hup hstop

theorem completes_apart (hd : (s.dmac c).first.toNat * 16 < 0x20000 ∨ 0x40000 ≤ (s.dmac c).first.toNat * 16) :
    Completes (.dmaEnable c cl) s [.dma] fun t => (t.dmac c).en = true ∧ (t.dmac c).owner = cl ∧ (t.dmac c).st = .error ∧
      (t.dmac c).err = 4 ∧ bit (t.dmac c).flag 3 = true := by
  have hbank : isBankAddr ((s.dmac c).first.toNat * 16) = false := by
    simp only [isBankAddr, Bool.and_eq_false_iff, decide_eq_false_iff_not]
    omega
  have hself := dmac_dmaError_self (s.dmaStart c cl) c 4
  rw [dmac_dmaStart] at hself
  refine completes_clocked rfl hup (dmaEnable_apart hstop hbank) ?_ ((only_dmaStart s c cl).both (only_dmaError _ c 4))
  rw [hself]
  exact ⟨rfl, rfl, rfl, rfl, by rw [bit_or, Bool.or_eq_true]; exact .inr rfl⟩

variable (hlo : 0x20000 ≤ (s.dmac c).first.toNat * 16) (hhi : (s.dmac c).first.toNat * 16 < 0x40000)
include hlo hhi

theorem completes_loadWaits (hwait : s.mem.lock = some ((s.dmac c).first.toNat * 16) ∨
    (s.bank (bankOf ((s.dmac c).first.toNat * 16))).st = .fill ∨
    (s.bank (bankOf ((s.dmac c).first.toNat * 16))).recov = true) :
    Completes (.dmaEnable c cl) s [.dma] fun t => (t.dmac c).en = true ∧ (t.dmac c).owner = cl ∧ (t.dmac c).st = .load ∧
      (t.dmac c).desc.toNat = (s.dmac c).first.toNat * 16 := by
  have hbank := isBankAddr_of_range hlo hhi
  have hself := s.dmac_dmaStart c cl
  have hdesc : ((s.dmaStart c cl).dmac c).desc.toNat = (s.dmac c).first.toNat * 16 := by rw [hself, toNat_desc_started]
  have hw : (s.dmaStart c cl).waits ((s.dmaStart c cl).dmac c).desc.toNat = true := by
    rw [hdesc, waits_iff (resolve_bank hbank), wordOf_of_aligned (by omega)]
    exact hwait
  refine completes_clocked rfl hup ((dmaEnable_bank hstop hbank).trans (dmaFetch_waits hw)) ?_ (only_dmaStart s c cl)
  rw [hself]
  exact ⟨rfl, rfl, rfl, toNat_desc_started _ cl⟩

theorem completes_loads {d : Nat} (hd : d = (s.dmac c).first.toNat * 16) (hst : (s.bank (bankOf d)).st = .on)
    (hrecov : (s.bank (bankOf d)).recov = false) (hlock : s.mem.lock = none)
    (hwords : ∀ i : Fin 4, cellRead 0 s.mem.errs (d + 4 * i.val) = 0 ∧ bankOf (d + 4 * i.val) = bankOf d)
    (hcheck : s.dmaCheck cl (s.bankData d) (s.bankData (d + 4)) (s.bankData (d + 8)) (s.bankData (d + 12))
      ((s.bankData (d + 4)).toNat % 2 ^ 20) = 0) :
    Completes (.dmaEnable c cl) s [.dma, .mem] fun t => (∀ q, t.bankData q = s.bankData q) ∧
      (t.dmac c).en = true ∧ (t.dmac c).owner = cl ∧ (t.dmac c).st = .move ∧ (t.dmac c).err = 0 ∧
      (t.dmac c).desc.toNat = d ∧ (t.dmac c).src.toNat = (s.bankData d).toNat % 2 ^ 20 ∧
      (t.dmac c).dst.toNat = (s.bankData (d + 4)).toNat % 2 ^ 20 ∧
      (t.dmac c).rem.toNat = (s.bankData (d + 8)).toNat % 2 ^ 16 ∧ (t.dmac c).w3 = s.bankData (d + 12) := by
  have hself := s.dmac_dmaStart c cl
  have hdesc : ((s.dmaStart c cl).dmac c).desc.toNat = d := by rw [hself, toNat_desc_started, hd]
  have hbank : ∀ i, i < 4 → isBankAddr (d + 4 * i) = true := fun i hi => isBankAddr_of_range (by omega) (by omega)
  have hclean : ∀ i, i < 4 → (s.dmaStart c cl).CleanWord (d + 4 * i) := fun i hi => by
    obtain ⟨he, hb⟩ := hwords ⟨i, hi⟩
    exact ⟨hbank i hi, by omega, (congrArg (fun b => (s.bank b).st) hb).trans hst, he⟩
  have hw : ∀ i, i < 4 → (s.dmaStart c cl).waits (d + 4 * i) = false := fun i hi => by
    obtain ⟨-, hb⟩ := hwords ⟨i, hi⟩
    exact waits_eq_false (resolve_bank (hbank i hi)) hlock ((congrArg (fun b => (s.bank b).st) hb).trans hst)
      ((congrArg (fun b => (s.bank b).recov) hb).trans hrecov)
  have hcheck' : (s.dmaStart c cl).dmaCheck ((s.dmaStart c cl).dmac c).owner (s.bankData d) (s.bankData (d + 4))
      (s.bankData (d + 8)) (s.bankData (d + 12)) ((s.bankData (d + 4)).setWidth 20).toNat = 0 := by
    rw [hself, BitVec.toNat_setWidth]
    exact hcheck
  obtain ⟨t, ht, hfetch⟩ := dmaFetch_loads (congrArg DmaChan.st hself) (congrArg DmaChan.loadNext hself)
    (congrArg DmaChan.heldPulse hself) hdesc hw hclean hcheck'
  have hx : t.dmac c = (s.dmac c).started cl := (congrArg (·.dmac c) ht).trans hself
  refine completes_clocked rfl hup ((dmaEnable_bank hstop (isBankAddr_of_range hlo hhi)).trans hfetch)
    ⟨fun q => bankData_of_unmarked ht q, ?_⟩
    (((only_dmaStart s c cl).trans (only_of_unmarked ht)).both ((only_modDma _ _ _).mono (by decide)))
  rw [dmac_modDma_self, hx]
  exact ⟨rfl, rfl, rfl, rfl, (toNat_desc_started _ cl).trans hd.symm, BitVec.toNat_setWidth 20 _, BitVec.toNat_setWidth 20 _,
    toNat_rem_loaded _ _ _ _ _, rfl⟩

end

/-- A beat of a clean word from bank to bank, with the ports free, of a descriptor that answers no pulse and names no other:
the word is moved, the channel steps, and is DONE where the word was its last (11 R446–R449). -/
theorem completes_beat (hup : s.pwr.pllLock = true) (hcan : MemCanonical s) (hoff : ∀ y ∈ s.cyc.dmaOff, y.1 ≠ c)
    (hen : (s.dmac c).en = true) (hready : s.dmaReady c = true) (hfree : (s.dmac c).freeAt ≤ s.time)
    (hsize : (s.dmac c).size = 2) (hsrc : s.CleanWord (s.dmac c).src.toNat) (hdst : isBankAddr (s.dmac c).dst.toNat = true)
    (hlock : s.mem.lock = none) (hdon : (s.bank (bankOf (s.dmac c).dst.toNat)).st = .on)
    (hsrec : (s.bank (bankOf (s.dmac c).src.toNat)).recov = false)
    (hdrec : (s.bank (bankOf (s.dmac c).dst.toNat)).recov = false)
    (hsport : s.dmaLoses c (bankOf (s.dmac c).src.toNat) = false)
    (hdport : s.dmaLoses c (bankOf (s.dmac c).dst.toNat) = false)
    (hreq : reqPulse (s.dmac c).reqsel = false) (hnext : (s.dmac c).next = 0) :
    ∃ burst freeAt flag, Completes (.dmaBeat c) s [.dma, .mem] fun t =>
      t.bankData (s.dmac c).dst.toNat = s.bankData (s.dmac c).src.toNat ∧
      (∀ q, q + 4 ≤ (s.dmac c).dst.toNat ∨ (s.dmac c).dst.toNat + 4 ≤ q → t.bankData q = s.bankData q) ∧
      t.dmac c = { (s.dmac c).stepped with
        wait := 0, freeAt := freeAt, burst := burst, flag := flag,
        st := if (s.dmac c).rem - 1 = 0 then .done else (s.dmac c).st } ∧
      ((s.dmac c).rem - 1 = 0 → bit flag 0 = true) := by
  have hasks : s.dmaAsks c = true := by
    obtain ⟨hbank, -, hon, -⟩ := hsrc
    simp [dmaAsks, hready, hfree, waits_eq_false (resolve_bank hbank) hlock hon hsrec,
      waits_eq_false (resolve_bank hdst) hlock hdon hdrec]
  have hports : ∀ b ∈ s.dmaPorts c, s.dmaLoses c b = false := fun b hb => by
    obtain rfl | rfl := dmaPorts_cases (resolve_bank hsrc.1) (resolve_bank hdst) hb
    · exact hsport
    · exact hdport
  obtain ⟨t, hmove, hstores, hdmac, honly⟩ := dmaMove_word hcan hsize hsrc hdst hdon
  have hx := hdmac.trans (s.dmac_dmaTaken c)
  have hreq' : reqPulse (t.dmac c).reqsel = false := by rw [hx]; exact hreq
  have hnext' : (t.dmac c).next = 0 := by rw [hx]; exact hnext
  obtain ⟨burst, flag, hz, hdone⟩ := dmac_dmaAfter hreq' hnext'
  have hafter := only_dmaAfter hreq' hnext'
  have hdata : ∀ q, (t.dmaAfter c).bankData q = t.bankData q := fun q =>
    congrArg (fun m : Mem => bytesWord (cellReadList 0 m.cells q 4)) (hafter .mem (by decide))
  have hbeat : s.dmaBeat c = t.dmaAfter c := by
    refine (dmaBeat_moves hoff hasks hports ?_).trans hmove
    rw [hmove, hz, hx]
    exact hen
  rw [hx] at hz hdone
  exact ⟨burst, _, flag, completes_clocked rfl hup hbeat ⟨(hdata _).trans hstores.bankData,
    fun q hq => (hdata q).trans (hstores.bankData_apart hq), hz, hdone⟩ ((honly.trans hafter).mono (by decide))⟩

end State

/-! ## O49 -/

/-- Settles O49: each command is one change of the banks, windows or channels, or none. Reads and writes reach the word
through the port; a load and a beat are runs of such accesses. -/
theorem memoryAndDmaCommands : Obligations.MemoryAndDmaCommands := by
  unfold Obligations.MemoryAndDmaCommands
  intro s addr size data p n w b c pass word cl ad a o bk x flagged byteAt reachable value y base
  refine ⟨fun hdown i hi => ?down, fun hup hcan => ⟨
    fun ⟨hm, hal, hr, hfits, hlock, hst, hrecov, hfree, hsto, he, hwf⟩ => ?access, fun hm hwait => ?waits,
    fun hused => ?used, fun hfree hst hphase hdone hlock => ?march,
    fun e code rest q hcopies haddr hbank hal hlock hst hrecov hphase hsto he hfree hfirst => ?copy, fun hm => ?absent,
    fun hen hw => ?cwEnabled, fun hen hw hbad => ?cwRefused, fun hen hw hlo hhi hal hbase => ?cwAccepted,
    fun hw => ?cwOff, fun hen => ?sizeEnabled, fun hen => ?size,
    fun hdue hphase => ?start, fun hdue hphase => ?late, fun hdue => ?notDue,
    fun hl => ?tctlLocked, fun hl => ?tctl, fun hst => ?readmit, fun hst => ?readmitNot,
    fun hst => ?passed, fun hst => ?failed, fun hst => ?filled, fun hst => ?noReadmission,
    fun hw => ?starve, fun hw => ?noStarve, ?disable,
    fun hst hreq => ⟨fun hm hb => ?serves, fun hbusy hheld => ?held, fun hbusy hheld => ?lost⟩, fun h => ?noPulse,
    fun hen hdone herr => ?running, fun hstop => ⟨fun hd => ?apart, fun hlo hhi hwait => ?loadWaits,
      fun hlo hhi hst hrecov hlock hclean hcheck => ?loads⟩,
    fun hoff => ⟨fun hasks => ?noBeat, fun hen hready hfree hsize hsrc hdst hsal _ hlock hson hdon hsrec hdrec hsport hdport
      he hreq _ hnext => ?beat⟩⟩⟩
  case down =>
    simp only [List.mem_cons, List.not_mem_nil, or_false] at hi
    obtain rfl | rfl | rfl | rfl | rfl | rfl | rfl | rfl | rfl | rfl | rfl | rfl | rfl := hi
    · exact completes_grant_unclocked hdown _ _
    · exact completes_grant_unclocked hdown _ _
    all_goals exact completes_unclocked rfl hdown
  case access =>
    have h : s.Reaches a size.val p := ⟨hm, hal, hr, hfits, hlock, hst, hrecov, hfree, hsto, he, hwf⟩
    exact ⟨h.completes_read hup, h.completes_read_single hup, h.completes_read_double hup, h.completes_write hup hcan data⟩
  case waits =>
    have hnone : a % 2 ^ size.val ≠ 0 ∨ s.waits a = true := hwait.imp_right fun ⟨q, hq, h⟩ => (waits_iff hq).2 h
    obtain ⟨hread, hwrite⟩ := bankGrant_none hm hnone 0 data
    exact ⟨completes_grant hup hread trivial (.refl _ _), completes_grant hup hwrite trivial (.refl _ _)⟩
  case used => exact completes_grant hup (congrArg Host.Outcome.next (if_pos (decide_eq_true hused))) trivial (.refl _ _)
  case march => exact completes_march hup hfree hst hphase hdone hlock
  case copy => exact completes_copy hup hcan hcopies haddr hbank hal hlock hst hrecov hphase hsto he hfree hfirst
  case absent =>
    obtain ⟨hread, hwrite⟩ := bankGrant_absent hm size 0 data
    exact ⟨(if_pos hup).trans hread, (if_pos hup).trans hwrite⟩
  case cwEnabled =>
    exact completes_clocked rfl hup (writeCwBase_enabled hen hw) (bit_flag_memFlag (by decide)) (only_memFlag _ _)
  case cwRefused =>
    refine completes_clocked rfl hup (writeCwBase_refused hen hw hbad) ⟨bit_flag_memFlag (by decide), ?_⟩
      ((only_modCw _ _ _).trans (only_memFlag _ _))
    rw [cwin_memFlag, cwin_modCw_self]
    exact hen
  case cwAccepted =>
    exact completes_clocked rfl hup (writeCwBase_accepted hen hw hlo hhi hal hbase)
      ⟨cwin_modCw_self s n _, fun m hm => (cwin_modCw s n m _).trans (if_neg hm.symm)⟩ (only_modCw _ _ _)
  case cwOff =>
    exact completes_clocked rfl hup (writeCwBase_disable hw) (cwin_modCw_self s n _) (only_modCw _ _ _)
  case sizeEnabled =>
    exact completes_clocked rfl hup (if_pos hen) (bit_flag_memFlag (by decide)) (only_memFlag _ _)
  case size =>
    exact completes_clocked rfl hup (if_neg (by simp [y, hen])) (cwin_modCw_self s n _) (only_modCw _ _ _)
  case start =>
    exact completes_clocked rfl hup ((if_pos hdue).trans (if_pos hphase))
      ⟨bank_modBank_self s b _, fun k hk => (bank_modBank s b k _).trans (if_neg hk.symm)⟩ (only_modBank _ _ _)
  case late =>
    refine completes_clocked rfl hup ((if_pos hdue).trans (if_neg hphase))
      ⟨?_, bit_flag_memFlag (by decide), exists_report _ 0x0C 8 b.val 0⟩
      (((only_modBank _ _ _).both (only_memFlag _ _)).trans (only_report _ _ _ _ _))
    rw [bank_report, bank_memFlag, bank_modBank_self]
  case notDue => exact completes_same rfl (if_neg (by simp [hdue]))
  case tctlLocked => exact completes_same rfl (if_pos hl)
  case tctl =>
    exact completes_clocked rfl hup rfl ⟨writeTctl_keeps (view := Mem.tctl) (fun _ _ => rfl) hl w,
      writeTctl_keeps (view := Mem.cells) (fun _ _ => rfl) hl w, bank_writeTctl hl w b⟩ (only_writeTctl s w)
  case readmit =>
    exact completes_clocked rfl hup (if_pos hst) (bank_modBank_self s b _) (only_modBank _ _ _)
  case readmitNot =>
    exact completes_clocked rfl hup (if_neg hst) ⟨bit_flag_memFlag (by decide), bank_memFlag s _ b⟩ (only_memFlag _ _)
  case passed =>
    exact completes_clocked rfl hup (readmitDone_passed hst word) (bank_modBank_self s b _) (only_modBank _ _ _)
  case failed =>
    have haddr := (BitVec.toNat_ofNat (0x20000 + 0x4000 * b.val + 4 * word.val) 20).trans (Nat.mod_eq_of_lt (by omega))
    refine completes_clocked rfl hup (readmitDone_failed hst word)
      ⟨?_, bit_flag_memFlag (by decide), rfl, haddr, exists_report _ 0x0B 8 b.val _⟩
      ((((only_modBank _ _ _).both (only_memEvent _ _ _)).both (only_memFlag _ _)).trans (only_report _ _ _ _ _))
    rw [bank_report, bank_memFlag, bank_memEvent, bank_modBank_self]
  case filled =>
    obtain ⟨u, hu, hbank, hcells, honly⟩ := readmitDone_filled hst pass word
    exact completes_clocked rfl hup hu ⟨hbank, bit_flag_memFlag (s := u) (by decide), hcells⟩
      ((honly.both (only_memFlag u _)).trans (only_fltBack _ _))
  case noReadmission => exact completes_same rfl (readmitDone_none hst pass word)
  case starve =>
    refine completes_clocked rfl hup (if_pos hw)
      ⟨?_, fun k hk => (dmac_dmaFlag_ne hk _).trans (dmac_modDma_ne hk _)⟩ ((only_modDma _ _ _).both (only_dmaFlag _ _ _))
    rw [dmac_dmaFlag_self, dmac_modDma_self]
    rfl
  case noStarve => exact completes_same rfl (if_neg (Nat.not_le.2 hw))
  case disable =>
    refine completes_clocked rfl hup rfl ⟨?_, ?_, ?_, fun k hk => dmac_dmaDisable_ne hk⟩ (only_dmaDisable s c) <;>
      rw [dmac_dmaDisable] <;> split <;> rfl
  case serves =>
    exact completes_clocked rfl hup (dmaPulse_serves hst hreq hm hb) (dmac_modDma_self s c _) (only_modDma _ _ _)
  case held =>
    exact completes_clocked rfl hup (dmaPulse_held hst hreq hbusy hheld) (dmac_modDma_self s c _) (only_modDma _ _ _)
  case lost =>
    exact completes_clocked rfl hup (dmaPulse_lost hst hreq hbusy hheld) (dmac_dmaFlag_self s c _) (only_dmaFlag _ _ _)
  case noPulse => exact completes_same rfl (dmaPulse_none h)
  case running => exact completes_same rfl (dmaEnable_running hen hdone herr)
  case apart => exact completes_apart hup hstop hd
  case loadWaits => exact completes_loadWaits hup hstop hlo hhi hwait
  case loads => exact completes_loads hup hstop hlo hhi rfl hst hrecov hlock hclean hcheck
  case noBeat => exact completes_same rfl (dmaBeat_none hoff hasks)
  case beat =>
    have hlast : x.rem - 1 = 0 ↔ x.rem = 1 := BitVec.sub_eq_iff_eq_add
    have hnsrc := DmaChan.src_stepped hsize hsrc
    have hndst := DmaChan.dst_stepped hsize hdst
    obtain ⟨burst, freeAt, flag, t, hexec, ⟨hmoved, hrest, hz, hdone⟩, honly⟩ := completes_beat hup hcan hoff hen hready
      hfree hsize ⟨hsrc, hsal, hson, he⟩ hdst hlock hdon hsrec hdrec hsport hdport hreq hnext
    refine ⟨t, hexec, ⟨hmoved, hrest, ?_⟩, honly⟩
    rw [hz]
    exact ⟨rfl, fun h => hnsrc.trans (if_pos h), fun h => hnsrc.trans (if_neg (by simp [h])),
      fun h => hndst.trans (if_pos h), fun h => hndst.trans (if_neg (by simp [h])),
      fun h => (if_neg fun h0 => h (hlast.1 h0)).trans (st_of_dmaReady hready),
      fun h => ⟨if_pos (hlast.2 h), hdone (hlast.2 h)⟩⟩

end Sys2Proof.Machine
end

section
/-!
PROOFS. Interrupt controller (12 R465–R484): the bits of the per-source arrays, the most urgent source, and the commands (O50).
-/
namespace Sys2Proof.Machine

/-! ## Commands of a block that a reset holds -/

section
variable {c : Instr} {s t : State} {up : Bool} {f : State → State} {ps : List Part} {P : State → Prop}

theorem completes_live (hc : exec c s = .next (s.whenUp up f)) (hup : up = true) (hf : f s = t) (hP : P t)
    (ho : OnlyChanges ps s t) : Completes c s ps P :=
  ⟨t, hc.trans (congrArg Host.Outcome.next ((if_pos hup).trans hf)), hP, ho⟩

theorem completes_inReset (hc : exec c s = .next (s.whenUp up f)) (hdown : up = false) : Completes c s [] fun _ => True :=
  ⟨s, hc.trans (congrArg Host.Outcome.next (if_neg (by simp [hdown]))), trivial, .refl _ _⟩

/-- A command that changes nothing here changes nothing, whether or not its block is held in reset. -/
theorem completes_idle (hc : exec c s = .next (s.whenUp up f)) (hf : f s = s) : Completes c s [] fun _ => True :=
  ⟨s, hc.trans (congrArg Host.Outcome.next ((congrArg (ite _ · s) hf).trans (ite_self s))), trivial, .refl _ _⟩

end

/-! ## The bits of the per-source arrays -/

theorem bit_and {k : Nat} (v w : BitVec k) (i : Nat) : bit (v &&& w) i = (bit v i && bit w i) := BitVec.getLsbD_and
theorem bit_not {k : Nat} (v : BitVec k) (i : Fin k) : bit (~~~v) i.val = !bit v i.val := by simp [bit]
theorem bit_andNot {k : Nat} (v w : BitVec k) (i : Nat) : bit (v &&& ~~~w) i = (bit v i && !bit w i) := by
  by_cases hi : i < k
  · simp [bit, hi]
  · simp [bit, BitVec.getLsbD_of_ge _ _ (Nat.le_of_not_lt hi)]

theorem bit_oneBit {k i : Nat} (hi : i < k) (j : Nat) : bit (oneBit k i) j = decide (j = i) := by
  rw [bit, oneBit, BitVec.getLsbD_ofNat, Nat.testBit_two_pow]
  by_cases hj : j = i
  · simp [hj, hi]
  · simp [hj, Ne.symm hj]

theorem bit_setBit (v : BitVec 192) (n : Fin 192) (j : Nat) :
    bit (v ||| oneBit 192 n.val) j = (bit v j || decide (j = n.val)) := by rw [bit_or, bit_oneBit n.isLt]
theorem bit_setBitIf (v : BitVec 192) (n : Fin 192) (c : Bool) (j : Nat) :
    bit (if c then v ||| oneBit 192 n.val else v) j = (bit v j || (decide (j = n.val) && c)) := by
  cases c
  · simp
  · simpa using bit_setBit v n j
theorem bit_clearBit (v : BitVec 192) (n : Fin 192) (j : Nat) :
    bit (v &&& ~~~oneBit 192 n.val) j = (bit v j && decide (j ≠ n.val)) := by
  rw [bit_andNot, bit_oneBit n.isLt, decide_not]

theorem bit_foldl_or {k : Nat} (l : List (BitVec k)) (v : BitVec k) (i : Nat) :
    bit (l.foldl (fun a b => a ||| b) v) i = (bit v i || l.any (bit · i)) := by
  induction l generalizing v with
  | nil => simp
  | cons w l ih => rw [List.foldl_cons, ih, bit_or, List.any_cons, Bool.or_assoc]

/-- Some pin is enabled for source i. -/
theorem bit_pins {k m : Nat} (v : Vector (BitVec k) m) (i : Nat) :
    bit (v.toList.foldl (fun a b => a ||| b) 0) i = true ↔ ∃ q, bit (at_ v q) i = true := by
  rw [bit_foldl_or]
  simp [bit, at_, Vector.any_eq_true, Fin.exists_iff]

theorem bit_foldl_unless {k : Nat} (skip : Nat → Bool) (l : List Nat) (hl : ∀ i ∈ l, i < k) (v : BitVec k) (j : Nat) :
    bit (l.foldl (fun m n => if skip n then m else m ||| oneBit k n) v) j = (bit v j || (decide (j ∈ l) && !skip j)) := by
  induction l generalizing v with
  | nil => simp
  | cons i l ih =>
    rw [List.foldl_cons, ih (fun a ha => hl a (List.mem_cons_of_mem _ ha))]
    by_cases hs : skip i
    · by_cases hj : j = i <;> simp [hs, hj]
    · rw [if_neg hs, bit_or, bit_oneBit (hl i List.mem_cons_self)]
      by_cases hj : j = i <;> simp [hs, hj]

theorem bit_srcMask (n : Fin 192) : bit srcMask n.val = !reservedSrc n.val := by
  rw [srcMask, bit_foldl_unless reservedSrc _ (fun i hi => Nat.lt_trans (List.mem_range.1 hi) (by decide))]
  by_cases h : n.val < 160
  · simp [bit, h]
  · simp [bit, h, reservedSrc, Nat.le_of_not_lt h]

/-- A write of w to word k of a per-source array names source n: its bit is set, and the source exists (12 Table 12.6). -/
def namesSrc (k : Fin 6) (w : Word) (n : Fin 192) : Bool :=
  decide (n.val / 32 = k.val) && bit w (n.val % 32) && !reservedSrc n.val

theorem index_of_namesSrc {k : Fin 6} {w : Word} {n : Fin 192} (h : namesSrc k w n = true) : n.val / 32 = k.val := by
  simp only [namesSrc, Bool.and_eq_true, decide_eq_true_eq] at h
  exact h.1.1

theorem bit_srcPut (b : BitVec 192) (k : Fin 6) (w : Word) (n : Fin 192) :
    bit (srcPut b k.val w) n.val = if n.val / 32 = k.val then namesSrc k w n else bit b n.val := by
  have hones : (0xFFFFFFFF : BitVec 192) = (BitVec.allOnes 32).setWidth 192 := rfl
  have hn := n.isLt
  rw [srcPut, bit_or, bit_andNot, bit_and, bit_srcMask, hones]
  simp only [namesSrc, bit, BitVec.getLsbD_shiftLeft, BitVec.getLsbD_setWidth, BitVec.getLsbD_allOnes]
  by_cases hk : n.val / 32 = k.val
  · have hlo : ¬ n.val < 32 * k.val := by omega
    have hin : n.val - 32 * k.val = n.val % 32 := by omega
    have hlt : n.val % 32 < 192 := by omega
    simp [hk, hlo, hin, hlt, Nat.mod_lt]
  · by_cases hlo : n.val < 32 * k.val
    · simp [hk, hlo]
    · have hout : ¬ n.val - 32 * k.val < 32 := by omega
      simp [hk, hout, BitVec.getLsbD_of_ge w _ (Nat.le_of_not_lt hout)]

theorem bit_srcPut_zero (k : Fin 6) (w : Word) (n : Fin 192) : bit (srcPut 0 k.val w) n.val = namesSrc k w n := by
  rw [bit_srcPut]
  split
  · rfl
  · next h => simp [namesSrc, h, bit]

theorem ne_zero_of_bit {k : Nat} {v : BitVec k} {i : Nat} (h : bit v i = true) : v ≠ 0 := by
  rintro rfl
  simp [bit] at h

/-- A flag that an event sets. -/
theorem bit_flagged {k i : Nat} {flag b : BitVec k} {c : Prop} [Decidable c] (hc : c) (hb : bit b i = true) :
    bit (if c then flag ||| b else flag) i = true := by
  rw [if_pos hc, bit_or, hb, Bool.or_true]

/-! ## The least of a list -/

theorem lexLt_asymm {a b : List Nat} (h : lexLt a b = true) : lexLt b a = false := by
  induction a generalizing b with
  | nil => cases h
  | cons x a ih =>
    cases b with
    | nil => cases h
    | cons y b =>
      simp only [lexLt, Bool.or_eq_true, Bool.and_eq_true, decide_eq_true_eq] at h
      obtain h | ⟨rfl, h⟩ := h
      · simp [lexLt, Nat.lt_asymm h, Nat.ne_of_gt h]
      · simp [lexLt, ih h]

section
variable {α : Type} {key : α → List Nat}

theorem mem_of_leastBy {l : List α} {a : α} (h : leastBy key l = some a) : a ∈ l := by
  induction l generalizing a with
  | nil => cases h
  | cons x l ih =>
    rw [leastBy] at h
    split at h
    · exact Option.some.inj h ▸ List.mem_cons_self
    · next b hb =>
      split at h
      · exact Option.some.inj h ▸ List.mem_cons_of_mem x (ih hb)
      · exact Option.some.inj h ▸ List.mem_cons_self

/-- An element whose key lies strictly before every other element's is the least. -/
theorem leastBy_eq_some {l : List α} {a : α} (ha : a ∈ l) (hl : ∀ b ∈ l, b = a ∨ lexLt (key a) (key b) = true) :
    leastBy key l = some a := by
  induction l with
  | nil => cases ha
  | cons x l ih =>
    have hrest : ∀ b ∈ l, b = a ∨ lexLt (key a) (key b) = true := fun b hb => hl b (List.mem_cons_of_mem x hb)
    rw [leastBy]
    by_cases hal : a ∈ l
    · rw [ih hal hrest]
      obtain rfl | hx := hl x List.mem_cons_self
      · exact ite_self _
      · exact if_pos hx
    · obtain rfl : a = x := (List.mem_cons.1 ha).resolve_right hal
      split
      · rfl
      · next b hb =>
        have hmem := mem_of_leastBy hb
        have hlt := (hrest b hmem).resolve_left fun e => hal (e ▸ hmem)
        exact if_neg (by simp [lexLt_asymm hlt])

end

namespace State
variable {s t : State} {n : Fin 192} {en : BitVec 192} {thr : Nat}

/-! ## The most urgent source (12 R467, R468) -/

/-- Source m is pending since an earlier cycle, enabled in en and of a priority below thr. -/
def Competes (s : State) (en : BitVec 192) (thr : Nat) (m : Fin 192) : Prop :=
  (bit s.intc.pend m.val = true ∧ bit s.cyc.pended m.val = false) ∧ bit en m.val = true ∧ s.priOf m.val < thr

/-- Source n competes, and no other that does is more urgent. -/
def MostUrgent (s : State) (q : Fin 192 → Prop) (n : Fin 192) : Prop :=
  q n ∧ ∀ j, q j → s.priOf n.val < s.priOf j.val ∨ (s.priOf n.val = s.priOf j.val ∧ n ≤ j)

theorem mem_competitors {m : Fin 192} : (m ∈ (List.finRange 192).filter fun n =>
    bit (s.intc.pend &&& ~~~s.cyc.pended &&& en) n.val && decide (s.priOf n.val < thr)) ↔ s.Competes en thr m := by
  simp [Competes, bit_and, bit_not, and_assoc]

theorem bestSrc_none (h : ∀ m, ¬ s.Competes en thr m) : s.bestSrc en thr = none := by
  rw [bestSrc, List.eq_nil_iff_forall_not_mem.2 fun m hm => h m (mem_competitors.1 hm)]
  rfl

theorem bestSrc_some (h : s.MostUrgent (s.Competes en thr) n) : s.bestSrc en thr = some n := by
  obtain ⟨hn, hleast⟩ := h
  refine leastBy_eq_some (mem_competitors.2 hn) fun m hm => ?_
  obtain hlt | ⟨heq, hle⟩ := hleast m (mem_competitors.1 hm)
  · exact .inr (by simp [lexLt, hlt])
  · by_cases hm : m = n
    · exact .inl hm
    · have hlt : n.val < m.val := Nat.lt_of_le_of_ne hle fun e => hm (Fin.ext e.symm)
      exact .inr (by simp [lexLt, heq, hlt])

/-- Source m would be taken by a supervisor at level lvl (12, before R476). -/
def Taken (s : State) (lvl : Nat) (m : Fin 192) : Prop :=
  (bit s.intc.pend m.val = true ∧ bit s.cyc.pended m.val = false) ∧ bit s.sel.sen m.val = true ∧
    s.priOf m.val < (s.sel.thr[0]).toNat ∧ s.priOf m.val < lvl

theorem taken_iff {lvl : Nat} {m : Fin 192} : s.Taken lvl m ↔ s.Competes s.sel.sen (min (s.sel.thr[0]).toNat lvl) m := by
  rw [Taken, Competes, Nat.lt_min]

theorem supBest_none (h : ∀ m, ¬ s.Taken s.supLevel m) : s.supBest = none := bestSrc_none fun m hm => h m (taken_iff.2 hm)
theorem supBest_some (h : s.MostUrgent (s.Taken s.supLevel) n) : s.supBest = some n :=
  bestSrc_some ⟨taken_iff.1 h.1, fun j hj => h.2 j (taken_iff.2 hj)⟩

/-! ## The controller's flags and its settings of the last cycle -/

theorem intc_flagIf (s : State) (c : Prop) [Decidable c] (b : BitVec 3) : (if c then s.intcFlag b else s).intc =
    { s.intc with flag := if c then s.intc.flag ||| b else s.intc.flag } := by split <;> rfl
theorem only_intcFlag (s : State) (b : BitVec 3) : OnlyChanges [.intc] s (s.intcFlag b) :=
  (only_modIntc _ _).both (only_hwSet _ _ _ _)
theorem only_flagIf (s : State) (c : Prop) [Decidable c] (b : BitVec 3) :
    OnlyChanges [.intc] s (if c then s.intcFlag b else s) := .ite (only_intcFlag s b) (.refl _ _)

theorem keepSel_intc (s : State) : s.keepSel.intc = s.intc := by unfold keepSel; split <;> rfl
theorem only_keepSel (s : State) : OnlyChanges [.intc] s s.keepSel := .ite (.refl _ _) (only_modCyc _ _ _)

/-- What selects is as before where neither the settings nor the notes of the cycle changed. -/
theorem Taken.of_settings {lvl : Nat} {m : Fin 192} (hcyc : t.cyc = s.cyc) (hpend : t.intc.pend = s.intc.pend)
    (hpri : t.intc.pri = s.intc.pri) (hsen : t.intc.sen = s.intc.sen) (hthr : t.intc.thr = s.intc.thr)
    (h : t.Taken lvl m) : s.Taken lvl m := by
  have hsel : t.sel.pri = s.sel.pri ∧ t.sel.sen = s.sel.sen ∧ t.sel.thr = s.sel.thr := by
    unfold sel
    rw [hcyc]
    split
    · exact ⟨rfl, rfl, rfl⟩
    · exact ⟨hpri, hsen, hthr⟩
  obtain ⟨hp, hs, ht⟩ := hsel
  simpa only [Taken, priOf, hp, hs, ht, hpend, hcyc] using h

/-! ## Pending bits (12 R465, R466) -/

theorem intcPend_none (h : s.lineOf n.val = false ∨ reservedSrc n.val = true) : s.intcPend n = s :=
  if_pos (by simpa using h)

theorem intcPend_up (hup : s.pwr.pd1Up = true) (hl : s.lineOf n.val = true) (hr : reservedSrc n.val = false) :
    s.intcPend n = if bit s.intc.pend n.val || bit s.intc.insv n.val then s else
      (s.modIntc fun x => { x with pend := x.pend ||| oneBit 192 n.val }).modCyc fun c =>
        { c with pended := c.pended ||| oneBit 192 n.val } := by
  simp [intcPend, hup, hl, hr]

theorem only_intcPend (hup : s.pwr.pd1Up = true) (hl : s.lineOf n.val = true) (hr : reservedSrc n.val = false) :
    OnlyChanges [.intc] s (s.intcPend n) := by
  rw [intcPend_up hup hl hr]
  exact .ite (.refl _ _) ((only_modIntc _ _).both (only_modCyc _ _ _))

theorem insv_intcPend (hup : s.pwr.pd1Up = true) (hl : s.lineOf n.val = true) (hr : reservedSrc n.val = false) :
    (s.intcPend n).intc.insv = s.intc.insv := by
  rw [intcPend_up hup hl hr]
  split <;> rfl

theorem pend_intcPend (hup : s.pwr.pd1Up = true) (hl : s.lineOf n.val = true) (hr : reservedSrc n.val = false) (j : Nat) :
    bit (s.intcPend n).intc.pend j = (bit s.intc.pend j || (decide (j = n.val) && !bit s.intc.insv n.val)) := by
  rw [intcPend_up hup hl hr]
  split
  · next h =>
    obtain hp | hi := (Bool.or_eq_true_iff).1 h
    · by_cases hj : j = n.val <;> simp [hj, hp]
    · simp [hi]
  · next h =>
    have hi : bit s.intc.insv n.val = false := (Bool.or_eq_false_iff.1 (Bool.eq_false_iff.2 h)).2
    rw [hi, Bool.not_false, Bool.and_true]
    exact bit_setBit _ n j

theorem intcPset_intc (s : State) (k : Nat) (w : Word) : (s.intcPset k w).intc = { s.intc with
    pend := s.intc.pend ||| (srcPut 0 k w &&& ~~~s.intc.insv)
    flag := if srcPut 0 k w &&& s.intc.insv ≠ 0 then s.intc.flag ||| iPSREF else s.intc.flag } := intc_flagIf _ _ _

theorem only_intcPset (s : State) (k : Nat) (w : Word) : OnlyChanges [.intc] s (s.intcPset k w) :=
  ((only_modCyc _ _ _).both (only_modIntc _ _)).both (only_flagIf _ _ _)

/-! ## Enables (12 R469) -/

/-- Of a write of w to word k of an enable array that holds old, the sources that another target's enable refuses. -/
def refusedEnables (old other : BitVec 192) (k : Nat) (w : Word) : BitVec 192 := srcPut old k w &&& ~~~old &&& other

/-- What that write leaves in the array. -/
def grantedEnables (old other : BitVec 192) (k : Nat) (w : Word) : BitVec 192 :=
  srcPut old k w &&& ~~~refusedEnables old other k w

section
variable {old other : BitVec 192} {k : Fin 6} {w : Word}

theorem grantedEnables_elsewhere (hk : n.val / 32 ≠ k.val) : bit (grantedEnables old other k.val w) n.val = bit old n.val := by
  simp only [grantedEnables, refusedEnables, bit_and, bit_not, bit_srcPut, if_neg hk]
  cases bit old n.val <;> simp

theorem grantedEnables_here (hk : n.val / 32 = k.val) :
    bit (grantedEnables old other k.val w) n.val = (namesSrc k w n && (bit old n.val || !bit other n.val)) := by
  simp only [grantedEnables, refusedEnables, bit_and, bit_not, bit_srcPut, if_pos hk]
  cases namesSrc k w n <;> simp

theorem grantedEnables_unnamed (hk : n.val / 32 = k.val) (hm : namesSrc k w n = false) :
    bit (grantedEnables old other k.val w) n.val = false := by rw [grantedEnables_here hk, hm, Bool.false_and]

theorem grantedEnables_named (hm : namesSrc k w n = true) (h : bit old n.val = true ∨ ¬ bit other n.val = true) :
    bit (grantedEnables old other k.val w) n.val = true := by
  rw [grantedEnables_here (index_of_namesSrc hm), hm]
  simpa using h

theorem grantedEnables_refused (hm : namesSrc k w n = true) (hold : bit old n.val = false) (hother : bit other n.val = true) :
    bit (grantedEnables old other k.val w) n.val = false := by
  rw [grantedEnables_here (index_of_namesSrc hm), hold, hother, Bool.not_true, Bool.or_false, Bool.and_false]

theorem refusedEnables_ne_zero (hm : namesSrc k w n = true) (hold : bit old n.val = false) (hother : bit other n.val = true) :
    refusedEnables old other k.val w ≠ 0 := by
  refine ne_zero_of_bit (i := n.val) ?_
  simp [refusedEnables, bit_and, bit_not, bit_srcPut, index_of_namesSrc hm, hm, hold, hother]

end

/-- The sources that some pin has enabled. -/
def pinEnables (x : Intc) : BitVec 192 := x.pen.toList.foldl (fun a b => a ||| b) 0

theorem intcEnable_sup (s : State) (k : Nat) (w : Word) : (s.intcEnable 0 k w).intc = { s.intc with
    sen := grantedEnables s.intc.sen (pinEnables s.intc) k w
    flag := if refusedEnables s.intc.sen (pinEnables s.intc) k w ≠ 0 then s.intc.flag ||| iWWR else s.intc.flag } := by
  refine (intc_flagIf _ _ _).trans ?_
  rw [if_pos rfl, modIntc_intc, keepSel_intc]
  rfl

theorem intcEnable_pin (s : State) (p : Fin 4) (h : p.val + 1 < 5) (k : Nat) (w : Word) :
    (s.intcEnable ⟨p.val + 1, h⟩ k w).intc = { s.intc with
      pen := vset s.intc.pen p fun _ => grantedEnables (at_ s.intc.pen p) s.intc.sen k w
      flag := if refusedEnables (at_ s.intc.pen p) s.intc.sen k w ≠ 0 then s.intc.flag ||| iWWR else s.intc.flag } := by
  have h0 : (⟨p.val + 1, h⟩ : Fin 5) ≠ 0 := Fin.ne_of_val_ne (Nat.succ_ne_zero _)
  have hp : Fin.ofNat 4 p.val = p := Fin.ext (Nat.mod_eq_of_lt p.isLt)
  refine (intc_flagIf _ _ _).trans ?_
  simp only [if_neg h0, modIntc_intc, keepSel_intc, Nat.add_sub_cancel, hp]
  rfl

theorem only_intcEnable (s : State) (target : Fin 5) (k : Nat) (w : Word) : OnlyChanges [.intc] s (s.intcEnable target k w) :=
  ((only_keepSel s).both (.ite (only_modIntc _ _) (only_modIntc _ _))).both (only_flagIf _ _ _)

/-! ## Service (12 R472–R474, R476, R479) -/

/-- From x to y source n went from pending into service. -/
def Claimed (x y : Intc) (n : Fin 192) : Prop :=
  ∀ j, bit y.pend j = (bit x.pend j && decide (j ≠ n.val)) ∧ bit y.insv j = (bit x.insv j || decide (j = n.val))

theorem claimSrc_intc (s : State) (n : Fin 192) (target : Nat) : (s.claimSrc n target).intc = { s.intc with
    pend := s.intc.pend &&& ~~~oneBit 192 n.val
    insv := s.intc.insv ||| oneBit 192 n.val
    claimant := cellInsert n.val target s.intc.claimant
    flag := if bit s.cyc.pset n.val then s.intc.flag ||| iPSREF else s.intc.flag } := by
  refine (modIntc_intc _ _).trans ?_
  rw [intc_flagIf]

theorem only_claimSrc (s : State) (n : Fin 192) (target : Nat) : OnlyChanges [.intc] s (s.claimSrc n target) :=
  (only_flagIf _ _ _).both (only_modIntc _ _)

theorem claimed_claimSrc (s : State) (n : Fin 192) (target : Nat) : Claimed s.intc (s.claimSrc n target).intc n := fun j => by
  rw [claimSrc_intc]
  exact ⟨bit_clearBit _ _ _, bit_setBit _ _ _⟩

theorem claimant_claimSrc (s : State) (n : Fin 192) (target d : Nat) :
    cellRead d (s.claimSrc n target).intc.claimant n.val = target := by
  rw [claimSrc_intc]
  exact (cellRead_insert _ _ _ _ _).trans (if_pos rfl)

theorem intcClaim_none {p : Fin 4} (h : ∀ m, ¬ s.Competes (at_ s.sel.pen p) (s.sel.thr[p.val + 1]).toNat m) :
    s.intcClaim p = (0, s) := by
  rw [intcClaim, pinBest, bestSrc_none h]

theorem intcClaim_some {p : Fin 4} (h : s.MostUrgent (s.Competes (at_ s.sel.pen p) (s.sel.thr[p.val + 1]).toNat) n) :
    ∃ t, s.intcClaim p = (packw [(1, 31), (n.val, 0)], t) ∧ Claimed s.intc t.intc n ∧
      cellRead 0 t.intc.claimant n.val = 1 + p.val ∧ at_ t.intc.last p = some n ∧ OnlyChanges [.intc] s t := by
  refine ⟨(s.claimSrc n (1 + p.val)).modIntc fun x => { x with last := vset x.last p fun _ => some n },
    by rw [intcClaim, pinBest, bestSrc_some h], ?_⟩
  rw [modIntc_intc]
  exact ⟨s.claimed_claimSrc n (1 + p.val), s.claimant_claimSrc n (1 + p.val) 0, at_vset_self _ _ _,
    (s.only_claimSrc n _).both (only_modIntc _ _)⟩

/-- A CLAIM word that names a source (12 R472). -/
theorem toNat_claimWord (n : Fin 192) : (packw [(1, 31), (n.val, 0)]).toNat = 2 ^ 31 + n.val := by
  have := n.isLt
  simp only [packw, List.foldl_cons, List.foldl_nil, BitVec.toNat_ofNat]
  omega

theorem intcComplete_leaves {p : Fin 4} {k : Nat} (hk : k < 192) (hi : bit s.intc.insv k = true)
    (hc : cellRead 0 s.intc.claimant k = 1 + p.val) : s.intcComplete p k = (s.leaveSrc ⟨k, hk⟩).modIntc fun x =>
      { x with pend := if s.lineOf k then x.pend ||| oneBit 192 k else x.pend } := by
  rw [intcComplete, dif_pos hk, if_pos (by simp [hi, hc])]
  cases hl : s.lineOf k
  · exact if_neg (ne_true_of_eq_false hl)
  · exact if_pos hl

theorem intcComplete_refused {p : Fin 4} {k : Nat}
    (h : 192 ≤ k ∨ bit s.intc.insv k = false ∨ cellRead 0 s.intc.claimant k ≠ 1 + p.val) :
    s.intcComplete p k = s.intcFlag iCERR := by
  unfold intcComplete
  split
  · next hk =>
    obtain h | h | h := h
    · exact absurd hk (Nat.not_lt.2 h)
    · exact if_neg (by simp [h])
    · exact if_neg (by simp [h])
  · rfl

theorem supEntry_none (h : ∀ m, ¬ s.Taken s.supLevel m) : s.supEntry = s := by rw [supEntry, supBest_none h]

theorem supEntry_some (h : s.MostUrgent (s.Taken s.supLevel) n) (hroom : s.intc.handlers.length < 16)
    (hreset : s.flt.supReset = false) :
    Claimed s.intc s.supEntry.intc n ∧ cellRead 1 s.supEntry.intc.claimant n.val = 0 ∧
      s.supEntry.intc.handlers = (n, s.priOf n.val) :: s.intc.handlers ∧ OnlyChanges [.intc] s s.supEntry := by
  have he : s.supEntry = (s.claimSrc n 0).modIntc fun x => { x with handlers := (n, s.priOf n.val) :: x.handlers } := by
    simp only [supEntry, supBest_some h]
    exact if_neg (by simp [hroom, hreset])
  rw [he, modIntc_intc]
  exact ⟨s.claimed_claimSrc n 0, s.claimant_claimSrc n 0 1, by rw [claimSrc_intc],
    (s.only_claimSrc n 0).both (only_modIntc _ _)⟩

theorem supExit_none (h : s.intc.handlers = []) : s.supExit = s := by rw [supExit, h]

theorem supExit_returns {h : Fin 192 × Nat} {rest : List (Fin 192 × Nat)} (hh : s.intc.handlers = h :: rest)
    (hnone : ∀ m, ¬ s.Taken ((rest.head?.map (·.2)).getD 16) m) :
    s.supExit = (s.leaveSrc h.1).modIntc fun x => { x with handlers := rest } := by
  simp only [supExit, hh]
  refine supEntry_none fun m hm => hnone m ?_
  have hlvl : ((s.leaveSrc h.1).modIntc fun x => { x with handlers := rest }).supLevel = (rest.head?.map (·.2)).getD 16 := by
    cases rest <;> rfl
  rw [← hlvl]
  exact Taken.of_settings (t := (s.leaveSrc h.1).modIntc fun x => { x with handlers := rest }) rfl rfl rfl rfl rfl hm

end State
open State

/-- Settles O50: each command is one change of the controller, or none; a selection is the least of the competing sources by
priority and number. -/
theorem interruptCommands : Obligations.InterruptCommands := by
  unfold Obligations.InterruptCommands
  intro s n k w p num x mine pends qual urgent taken claimed
  refine ⟨fun hl hr hup => ?line, fun hl hr hdown => ?caught, fun h => ?noLine, fun hdown c hc => ?inReset, fun hup =>
    ⟨?pset, ?pclr, ?enableSup, ?enablePin, fun hq => ?claimNone, fun hu => ?claim, fun hk hi hc => ?complete,
      fun h => ?notInService, fun hu hroom hreset => ?entry, fun hn => completes_idle rfl (supEntry_none hn),
      fun hh => completes_idle rfl (supExit_none hh), fun h rest hh hn => ?exit⟩⟩
  case line => exact ⟨_, rfl, ⟨insv_intcPend hup hl hr, pend_intcPend hup hl hr⟩, only_intcPend hup hl hr⟩
  case caught =>
    refine ⟨s.intcPend n, rfl, ?_⟩
    rw [intcPend_caught hdown hl hr]
    exact ⟨bit_setBit _ n, only_modCanopy _ _⟩
  case noLine => exact ⟨s, congrArg Host.Outcome.next (intcPend_none h), trivial, .refl _ _⟩
  case inReset =>
    simp only [List.mem_cons, List.not_mem_nil, or_false] at hc
    obtain rfl | rfl | rfl | rfl | rfl | rfl | rfl := hc <;> exact completes_inReset rfl hdown
  case pset =>
    refine completes_live rfl hup rfl ?_ (s.only_intcPset k.val w)
    rw [intcPset_intc]
    refine ⟨rfl, ?_, fun hm hi => ?_⟩
    · rw [bit_or, bit_and, bit_not, bit_srcPut_zero]
      rfl
    · have hmet : srcPut 0 k.val w &&& s.intc.insv ≠ 0 := ne_zero_of_bit (i := n.val) (by
        rw [bit_and, bit_srcPut_zero]
        exact Bool.and_eq_true_iff.2 ⟨hm, hi⟩)
      exact bit_flagged hmet (by decide)
  case pclr =>
    refine completes_live rfl hup rfl ⟨rfl, ?_⟩ (only_modIntc _ _)
    exact (bit_andNot _ _ _).trans (by rw [bit_and, bit_not, bit_srcPut_zero]; rfl)
  case enableSup =>
    have hon : bit (pinEnables s.intc) n.val = true ↔ ∃ q, bit (at_ x.pen q) n.val = true := bit_pins _ _
    refine completes_live rfl hup rfl ?_ (s.only_intcEnable 0 k.val w)
    rw [intcEnable_sup]
    exact ⟨rfl, grantedEnables_elsewhere, grantedEnables_unnamed, fun hm h => grantedEnables_named hm (h.imp_right (mt hon.1)),
      fun hm hs h => ⟨grantedEnables_refused hm hs (hon.2 h),
        bit_flagged (refusedEnables_ne_zero hm hs (hon.2 h)) (by decide)⟩⟩
  case enablePin =>
    have hself := congrArg (bit · n.val)
      (at_vset_self s.intc.pen p fun _ => grantedEnables (at_ s.intc.pen p) s.intc.sen k.val w)
    refine completes_live rfl hup rfl ?_ (s.only_intcEnable _ k.val w)
    rw [intcEnable_pin]
    exact ⟨rfl, fun q hq => at_vset_ne _ _ hq.symm, fun hk => hself.trans (grantedEnables_elsewhere hk),
      fun hk => hself.trans (grantedEnables_here hk),
      fun hm hp hs => bit_flagged (refusedEnables_ne_zero hm hp hs) (by decide)⟩
  case claimNone => exact completes_live rfl hup (congrArg s.answered (intcClaim_none hq)) rfl (only_answer _ _)
  case claim =>
    obtain ⟨t, hc, hclaimed, hby, hlast, honly⟩ := intcClaim_some hu
    exact completes_live rfl hup (congrArg s.answered hc) ⟨toNat_claimWord n, hclaimed, hby, hlast⟩
      (honly.trans (only_answer _ _))
  case complete =>
    exact completes_live rfl hup (intcComplete_leaves hk hi hc)
      ⟨rfl, fun j => ⟨bit_clearBit _ ⟨num.toNat, hk⟩ j, bit_setBitIf _ ⟨num.toNat, hk⟩ _ j⟩⟩
      ((only_modIntc _ _).both (only_modIntc _ _))
  case notInService => exact completes_live rfl hup (intcComplete_refused h) rfl (only_intcFlag _ _)
  case entry =>
    obtain ⟨hclaimed, hby, hhandlers, honly⟩ := supEntry_some hu hroom hreset
    exact completes_live rfl hup rfl ⟨hclaimed, hby, hhandlers⟩ honly
  case exit =>
    exact completes_live rfl hup (supExit_returns hh hn) ⟨rfl, rfl, bit_clearBit _ h.1⟩
      ((only_modIntc _ _).both (only_modIntc _ _))

end Sys2Proof.Machine
end

section
/-!
PROOFS. The time-slot interchange (16 R622–R629): the copy of a page, the swap request and its cancel, the write of an entry.
-/
namespace Sys2Proof

/-! ## A sparse memory whose entries are written at other keys -/

section
variable {α : Type} [DecidableEq α] {d : α} {f : Nat → Nat}

/-- A key that no entry moves to holds what it held. -/
theorem cellRead_moved_outside {src : List (Nat × α)} {n : Nat} : ∀ {base : List (Nat × α)}, cellWf d base = true →
    (∀ x ∈ src, f x.1 ≠ n) → cellRead d (src.foldl (fun m x => cellWrite d m (f x.1) x.2) base) n = cellRead d base n := by
  induction src with
  | nil => exact fun _ _ => rfl
  | cons x src ih =>
    intro base hb hf
    have hne : n ≠ f x.1 := fun h => hf x List.mem_cons_self h.symm
    rw [List.foldl_cons, ih (cellWf_write d base _ _ hb) fun y hy => hf y (List.mem_cons_of_mem x hy),
      cellRead_write d base _ _ _ hb, if_neg hne]

/-- A key that held the default holds what stood at the one key that moves to it. -/
theorem cellRead_moved {src : List (Nat × α)} {n j : Nat} : ∀ {base : List (Nat × α)}, cellWf d base = true →
    cellWf d src = true → cellRead d base n = d → (∀ x ∈ src, f x.1 = n ↔ x.1 = j) →
    cellRead d (src.foldl (fun m x => cellWrite d m (f x.1) x.2) base) n = cellRead d src j := by
  induction src with
  | nil => exact fun _ _ hn _ => hn
  | cons x src ih =>
    obtain ⟨a, v⟩ := x
    intro base hb hs hn hf
    obtain ⟨-, hkeys, hsrc⟩ := (cellWf_cons d a v src).1 hs
    have hhead := hf (a, v) List.mem_cons_self
    have htail : ∀ y ∈ src, f y.1 = n ↔ y.1 = j := fun y hy => hf y (List.mem_cons_of_mem _ hy)
    have hbase := cellRead_write d base (f a) n v hb
    rw [List.foldl_cons, cellRead]
    by_cases ha : a = j
    · rw [if_pos ha, cellRead_moved_outside (cellWf_write d base _ _ hb), hbase, if_pos (hhead.2 ha).symm]
      intro y hy hfy
      have hlt : a + 1 ≤ y.1 := hkeys y hy
      exact absurd ((htail y hy).1 hfy) (by omega)
    · rw [if_neg ha]
      exact ih (cellWf_write d base _ _ hb) hsrc (hbase.trans ((if_neg fun h => ha (hhead.1 h.symm)).trans hn)) htail

end

namespace Machine

theorem bit_foldl_oneBit {k : Nat} (p : Fin k → Bool) (l : List (Fin k)) (v : BitVec k) (j : Fin k) :
    bit (l.foldl (fun b i => if p i then b ||| oneBit k i.val else b) v) j.val =
      (bit v j.val || (decide (j ∈ l) && p j)) := by
  induction l generalizing v with
  | nil => simp
  | cons i l ih =>
    rw [List.foldl_cons, ih]
    by_cases hj : j = i
    · subst hj
      cases p j <;> simp [bit_or, bit_oneBit j.isLt]
    · have hv : bit (if p i then v ||| oneBit k i.val else v) j.val = bit v j.val := by
        split
        · simp [bit_or, bit_oneBit i.isLt, Fin.val_inj, hj]
        · rfl
      simp [hv, hj]

/-- Flags that hardware sets stand in the flag register (04 R139). -/
theorem bit_flag_set (e : EventRegs) {b : BitVec 16} {i : Nat} (hb : bit b i = true) : bit (e.set b).1.flag i = true :=
  (bit_or e.flag b i).trans (by rw [hb, Bool.or_true])

namespace State
variable (s : State)

/-! ## Flags -/

theorem tsi_raiseTsi (b : BitVec 16) : (s.raiseTsi b).tsi = { s.tsi with ev := (s.tsi.ev.set b).1 } := by
  unfold raiseTsi
  dsimp only
  split <;> rfl
theorem only_tsiWerr (reason i : Nat) : OnlyChanges [.tsi, .tt] s (s.tsiWerr reason i) :=
  ((only_modTsi s _).mono (by decide)).both (only_raiseTsi _ _)

theorem flagged_raiseTsi {b : BitVec 16} {i : Nat} (hb : bit b i = true) : bit (s.raiseTsi b).tsi.ev.flag i = true := by
  rw [tsi_raiseTsi]
  exact bit_flag_set _ hb

/-! ## The writers of the connection memory (16 R622–R627) -/

variable {s} {c : Fin 256} {i : Nat} {w : Word}

theorem turnedAway_iff : ((c ≠ 0 ∧ c ≠ 255) ∨ s.tsi.copying = true ∨ s.tsi.pend.isSome = true) ↔
    ¬(c = 0 ∨ c = 255) ∨ s.tsi.copying = true ∨ s.tsi.pend ≠ none := by rw [not_or, Option.isSome_iff_ne_none]

theorem not_barred_of_writer (hc : c = 0 ∨ c = 255) : ¬(c ≠ 0 ∧ c ≠ 255) := fun h => hc.elim h.1 h.2
theorem not_turnedAway (hc : c = 0 ∨ c = 255) (hb : ¬(s.tsi.copying = true ∨ s.tsi.pend ≠ none)) :
    ¬((c ≠ 0 ∧ c ≠ 255) ∨ s.tsi.copying = true ∨ s.tsi.pend.isSome = true) := fun h =>
  (turnedAway_iff.1 h).elim (fun hn => hn hc) hb

theorem tsiCopy_refused (h : ¬(c = 0 ∨ c = 255) ∨ s.tsi.copying = true ∨ s.tsi.pend ≠ none) :
    s.tsiCopy c = s.raiseTsi vTSIWWR := if_pos (turnedAway_iff.2 h)
theorem tsiCopy_taken (hc : c = 0 ∨ c = 255) (hb : ¬(s.tsi.copying = true ∨ s.tsi.pend ≠ none)) :
    s.tsiCopy c = s.modTsi fun t => { t with copying := true, copyAt := s.time } :=
  if_neg (not_turnedAway hc hb)
theorem tsiSwapReq_refused {m : BitVec 4} (h : ¬(c = 0 ∨ c = 255) ∨ s.tsi.copying = true ∨ s.tsi.pend ≠ none) :
    s.tsiSwapReq c m = s.raiseTsi vTSIWWR := if_pos (turnedAway_iff.2 h)
theorem tsiSwapReq_taken {m : BitVec 4} (hc : c = 0 ∨ c = 255) (hb : ¬(s.tsi.copying = true ∨ s.tsi.pend ≠ none)) :
    s.tsiSwapReq c m = s.modTsi fun t =>
      { t with admMask := m, defers := 0, pend := some { admMask := m, taken := s.takenSet m, at_ := s.tb } } :=
  if_neg (not_turnedAway hc hb)
theorem tsiCancel_refused (hc : ¬(c = 0 ∨ c = 255)) : s.tsiCancel c = s.raiseTsi vTSIWWR := if_pos (not_or.1 hc)
theorem tsiCancel_taken (hc : c = 0 ∨ c = 255) : s.tsiCancel c = s.modTsi fun t => { t with pend := none } :=
  if_neg (not_barred_of_writer hc)

/-- A command turned away sets TSIWWR and changes nothing else of the interchange (16 R623, R624, R627). -/
theorem completes_turnedAway {cmd : Instr} {f : State → State} {P : State → Prop}
    (hcmd : exec cmd s = .next (s.whenUp s.pwr.pdUp f)) (hup : s.pwr.pdUp = true) (hf : f s = s.raiseTsi vTSIWWR)
    (hP : ∀ t : State, bit t.tsi.ev.flag 6 = true → t.tsi.conn = s.tsi.conn → t.tsi.copying = s.tsi.copying →
      t.tsi.pend = s.tsi.pend → P t) : Completes cmd s [.tt, .tsi] P := by
  have htsi := s.tsi_raiseTsi vTSIWWR
  exact completes_live hcmd hup hf (hP _ (flagged_raiseTsi s (by decide)) (by rw [htsi]) (by rw [htsi]) (by rw [htsi]))
    ((only_raiseTsi s _).mono (by decide))

/-- The links a swap takes in: those its mask names, and those at either end of an entry that differs (16 R624). -/
theorem bit_takenSet (s : State) (m : BitVec 4) (l : Fin 4) : bit (s.takenSet m) l.val = true ↔
    bit m l.val = true ∨ ∃ p : Fin 5, ∃ j : Fin 256,
      let a := s.entry (512 * p.val + 256 * b2n s.tsi.active + j.val)
      let b := s.entry (512 * p.val + 256 * b2n (!s.tsi.active) + j.val)
      a ≠ b ∧ ((fld b 23 22 = 1 ∧ fld b 21 19 = l.val) ∨ (p.val = l.val ∧ fld b 23 22 ≠ 0)) := by
  have hzero : bit (0 : BitVec 4) l.val = false := by simp [bit]
  rw [takenSet, bit_foldl_oneBit (s.takenIn m), hzero, takenIn]
  simp only [Fin.exists_iff, Bool.false_or, List.mem_finRange, decide_true, Bool.true_and, Bool.or_eq_true,
    List.any_eq_true, List.mem_range, Bool.and_eq_true, decide_eq_true_eq, exists_prop]
  rfl

/-! ## The write of an entry (16 R622, R629) -/

/-- The page of the connection memory that an entry belongs to. -/
def pageOf (i : Nat) : Bool := decide (i / 256 % 2 = 1)

/-- A swap of an earlier cycle holds the standby page (16 R622, R629). -/
theorem swapHeld_iff : s.swapHeld = true ↔ ∃ q, s.tsi.pend = some q ∧ q.at_ ≠ s.tb := by
  unfold swapHeld
  cases s.tsi.pend <;> simp

theorem writeEntry_notWriter (hc : ¬(c = 0 ∨ c = 255)) : s.writeEntry c i w = s.tsiWerr 1 i := if_pos (not_or.1 hc)
theorem writeEntry_locked (hc : c = 0 ∨ c = 255) (hp : pageOf i = s.tsi.active) (hl : s.boot.locked = true) :
    s.writeEntry c i w = s.tsiWerr 2 i := (if_neg (not_barred_of_writer hc)).trans (if_pos ⟨hp, hl⟩)
theorem writeEntry_shut (hc : c = 0 ∨ c = 255) (hp : pageOf i ≠ s.tsi.active)
    (hs : s.tsi.copying = true ∨ s.swapHeld = true) : s.writeEntry c i w = s.tsiWerr 3 i :=
  (if_neg (not_barred_of_writer hc)).trans ((if_neg fun h => hp h.1).trans (if_pos ⟨hp, hs⟩))
/-- An entry that may be written is judged by its value alone (16 R622). -/
theorem writeEntry_open (hc : c = 0 ∨ c = 255) (h : (pageOf i = s.tsi.active ∧ s.boot.locked = false) ∨
    (pageOf i ≠ s.tsi.active ∧ ¬(s.tsi.copying = true ∨ s.swapHeld = true))) : s.writeEntry c i w =
      if badEntry w then s.tsiWerr 4 i else (s.modTsi fun t => { t with conn := cellWrite 0 t.conn i w }).retake := by
  refine (if_neg (not_barred_of_writer hc)).trans ?_
  obtain ⟨hp, hl⟩ | ⟨hp, hs⟩ := h
  · exact (if_neg fun hn => absurd (hl.symm.trans hn.2) (by decide)).trans (if_neg fun hn => hn.1 hp)
  · exact (if_neg fun hn => hp hn.1).trans (if_neg fun hn => hs hn.2)

theorem only_retake (s : State) : OnlyChanges [.tsi] s s.retake := by
  unfold retake
  split
  · exact only_modTsi _ _
  · exact .refl _ _
theorem conn_retake (s : State) : s.retake.tsi.conn = s.tsi.conn := by
  unfold retake
  split <;> rfl

/-- A write refused for a reason: the interchange flags it and notes the reason and the entry's offset (16 Table 16.4). -/
theorem completes_refusedEntry {n : Fin 2560} {reason : Nat} (hup : s.pwr.pdUp = true) (hr : reason < 16)
    (h : s.writeEntry c n.val w = s.tsiWerr reason n.val) : Completes (.tsiEntryWrite c n w) s [.tt, .tsi] fun t =>
      bit t.tsi.ev.flag 6 = true ∧ t.tsi.conn = s.tsi.conn ∧ t.tsi.werrReason.toNat = reason ∧
      t.tsi.werrOffset.toNat = 4 * n.val := by
  have hn := n.isLt
  refine completes_live rfl hup h ⟨flagged_raiseTsi _ (by decide), ?_⟩ ((only_tsiWerr s _ _).mono (by decide))
  rw [tsiWerr, tsi_raiseTsi]
  exact ⟨rfl, Nat.mod_eq_of_lt hr, Nat.mod_eq_of_lt (show 4 * n.val < 2 ^ 14 by omega)⟩

theorem completes_takenEntry {n : Fin 2560} (hup : s.pwr.pdUp = true) (hcan : cellWf 0 s.tsi.conn = true)
    (h : s.writeEntry c n.val w = (s.modTsi fun t => { t with conn := cellWrite 0 t.conn n.val w }).retake) :
    Completes (.tsiEntryWrite c n w) s [.tsi] fun t => t.entry n.val = w ∧ ∀ j, j ≠ n.val → t.entry j = s.entry j := by
  refine completes_live rfl hup h ?_ ((only_modTsi s _).both (only_retake _))
  have hread : ∀ j, (s.modTsi fun t => { t with conn := cellWrite 0 t.conn n.val w }).retake.entry j =
      if j = n.val then w else s.entry j := fun j => by
    rw [entry, conn_retake]
    exact cellRead_write 0 s.tsi.conn n.val j w hcan
  exact ⟨(hread n.val).trans (if_pos rfl), fun j hj => (hread j).trans (if_neg hj)⟩

/-! ## The copy of the active page (16 R623) -/

/-- The place of an entry on the other page. -/
def mirrored (act : Bool) (i : Nat) : Nat := if act then i - 256 else i + 256

theorem pageOf_mirrored {act : Bool} {i : Nat} (h : pageOf i = act) : pageOf (mirrored act i) = !act := by
  cases act <;> simp [pageOf, mirrored] at h ⊢ <;> omega
theorem mirrored_eq_iff {act : Bool} {i n : Nat} (hi : pageOf i = act) (hn : pageOf n = !act) :
    mirrored act i = n ↔ i = mirrored (!act) n := by
  cases act <;> simp [pageOf, mirrored] at hi hn ⊢ <;> omega

/-- The connection memory once the active page `act` is copied to the standby page. -/
def copiedConn (act : Bool) (conn : List (Nat × Word)) : List (Nat × Word) :=
  let keep := conn.filter fun x => decide ((x.1 / 256 % 2 = 1) = (act = true))
  keep.foldl (fun m x => cellWrite 0 m (mirrored act x.1) x.2) keep

theorem tsiCopyDone_due (hcopy : s.tsi.copying = true) (hdue : s.tsi.copyAt + 1280 ≤ s.time) : s.tsiCopyDone =
    (s.modTsi fun t => { t with conn := copiedConn s.tsi.active t.conn, copying := false }).raiseTsi vCOPYDONE :=
  if_neg (by simp [hcopy, hdue])
theorem tsiCopyDone_early (h : s.tsi.copying = false ∨ s.time < s.tsi.copyAt + 1280) : s.tsiCopyDone = s :=
  if_pos (by simpa using h)

/-- Each entry of the standby page becomes that of the active page; the active page stays. -/
theorem cellRead_copiedConn {conn : List (Nat × Word)} (hcan : cellWf 0 conn = true) (act : Bool) (n : Nat) :
    cellRead 0 (copiedConn act conn) n = cellRead 0 conn (if pageOf n = act then n else mirrored (!act) n) := by
  unfold copiedConn
  extract_lets keep
  have hwf : cellWf 0 keep = true := cellWf_filter 0 _ conn hcan
  have hread : ∀ k, cellRead 0 keep k = if pageOf k = act then cellRead 0 conn k else 0 := fun k =>
    (cellRead_filter 0 (fun k => decide ((k / 256 % 2 = 1) = (act = true))) conn k).trans (by
      cases act <;> simp [pageOf])
  have hkeep : ∀ x ∈ keep, pageOf x.1 = act := fun x hx => by
    have h := (List.mem_filter.1 hx).2
    cases act <;> simpa [pageOf] using h
  by_cases hn : pageOf n = act
  · have houtside : ∀ x ∈ keep, mirrored act x.1 ≠ n := fun x hx hm => by
      have hp := pageOf_mirrored (hkeep x hx)
      rw [hm, hn] at hp
      exact (Bool.eq_not_self act).1 hp
    rw [if_pos hn, cellRead_moved_outside hwf houtside, hread, if_pos hn]
  · have hstandby : pageOf n = !act := Bool.eq_not.2 hn
    have hactive : pageOf (mirrored (!act) n) = act := (pageOf_mirrored hstandby).trans (Bool.not_not act)
    rw [if_neg hn, cellRead_moved hwf hwf ((hread n).trans (if_neg hn)) fun x hx => mirrored_eq_iff (hkeep x hx) hstandby,
      hread, if_pos hactive]

theorem only_tsiCopyDone (s : State) : OnlyChanges [.tt, .tsi] s s.tsiCopyDone :=
  .ite (.refl _ _) (((only_modTsi s _).mono (by decide)).both ((only_raiseTsi _ _).mono (by decide)))

/-- With no link waiting for re-admission, the supervisor asks for no swap after the copy. -/
theorem copyDone_noAdmit (h : s.flt.admMask = 0) : s.copyDone = s.tsiCopyDone :=
  if_neg fun hn => hn.1 ((congrArg Flt.admMask (only_tsiCopyDone s .flt (by decide))).trans h)
theorem copyDone_early (h : s.tsi.copying = false ∨ s.time < s.tsi.copyAt + 1280)
    (hadm : s.flt.admMask = 0 ∨ s.tsi.copying = true) : s.copyDone = s := by
  unfold copyDone
  rw [tsiCopyDone_early h]
  refine if_neg fun ⟨hn, hc, _⟩ => ?_
  obtain h0 | h1 := hadm
  · exact hn h0
  · exact absurd (h1.symm.trans hc) (by decide)

end State
end Machine
end Sys2Proof
end

section
/-!
PROOFS. The local frame boundary (15 R568–R586, 16 R613–R620): what the links hand, the slots the interchange builds from the
page in force, the frames the links start to send, and what the end of the interval leaves of them.
-/
namespace Sys2Proof.Machine

theorem getElem?_padTo {α : Type} (d : α) {n k : Nat} (hk : k < n) (xs : List α) :
    (padTo d n xs)[k]? = some (xs.getD k d) := by
  induction n generalizing k xs with
  | zero => exact absurd hk (Nat.not_lt_zero k)
  | succ n ih =>
    cases k with
    | zero => cases xs <;> rfl
    | succ k =>
      have hk' : k < n := Nat.lt_of_succ_lt_succ hk
      cases xs with
      | nil => exact ih hk' []
      | cons x xs => exact ih hk' xs

/-- A byte, as it stands inside the device, has SUB clear (15 R576). -/
theorem bit_byte_sub (b : Byte) : bit (b.setWidth 9) 8 = false := by simp [bit]

/-- The byte of an entry of a fixed byte, as a slot and as it is sent (16 R616). -/
theorem toNat_fixedSlot (e : Word) : (BitVec.ofNat 9 (fld e 7 0)).toNat = fld e 7 0 :=
  Nat.mod_eq_of_lt (Nat.lt_trans (fld_lt e 7 0) (by decide))
theorem toNat_fixedByte (e : Word) : ((BitVec.ofNat 9 (fld e 7 0)).setWidth 8 : Byte).toNat = fld e 7 0 := by
  rw [BitVec.toNat_setWidth, toNat_fixedSlot]
  exact Nat.mod_eq_of_lt (fld_lt e 7 0)

/-! ## The read side of a link -/

namespace Hl
variable (h : Hl)

/-- A link without what its read side holds: the frames stored, the decision in force and the frame handed last (15 R575). -/
def readless : Hl := { h with hand := .nothing, last := none, store := [] }

/-- The slots a link gives the interchange in the frame that ends: none while it is disabled (15 R576, 16 R614). -/
def given : List (BitVec 9) := if h.en then h.handed.1 else []

theorem en_of_readless {h h' : Hl} (hr : h.readless = h'.readless) : h.en = h'.en := (congrArg Hl.en hr :)
theorem defects_of_readless {h h' : Hl} (hr : h.readless = h'.readless) : h.defects = h'.defects :=
  (congrArg Hl.defects hr :)

theorem readless_afterHand : h.afterHand.readless = h.readless := by
  unfold afterHand
  split <;> rfl

theorem handed_fenced (hf : h.fenced = true) : h.handed.1 = List.replicate 256 subSlot := by
  have hs : h.substituted = true := by simp [substituted, hf]
  unfold handed
  extract_lets f
  cases f with
  | none => rfl
  | some f => exact congrArg Prod.fst (if_pos (by simp [hs]))

/-- A fenced or disabled link gives substituted bytes only (15 R576, R611). -/
theorem getD_given_sub (hs : h.fenced = true ∨ h.en = false) (k : Nat) : h.given.getD k subSlot = subSlot := by
  unfold given
  split
  · next hen =>
    have hf : h.fenced = true := hs.resolve_right (by simp [hen])
    rw [h.handed_fenced hf, List.getD_eq_getElem?_getD, List.getElem?_replicate]
    split <;> rfl
  · rfl

theorem tx_decide (part : Nat) : (h.decide_ part).1.tx = h.tx := by
  unfold decide_
  dsimp only
  repeat' split
  all_goals rfl

end Hl

theorem OnlyChanges.link {ps : List Part} {s t : State} (h : OnlyChanges ps s t) (hl : Part.hl ∉ ps) (l : Fin 4) :
    t.link l = s.link l := congrArg (fun v => at_ v l) (h .hl hl)
theorem OnlyChanges.identity {ps : List Part} {s t : State} (h : OnlyChanges ps s t) (ho : Part.otp ∉ ps)
    (hb : Part.boot ∉ ps) : t.identity = s.identity := by
  have hotp : t.otp = s.otp := h .otp ho
  have hboot : t.boot = s.boot := h .boot hb
  rw [State.identity, State.identity, hotp, hboot]

/-- The interchange without the bytes that the links handed it. -/
def Tsi.dry (x : Tsi) : Tsi := { x with ingress := .replicate 4 [] }

theorem Tsi.eq_of_dry {x y : Tsi} (h : x.dry = y.dry) : x = { y with ingress := x.ingress } :=
  congrArg (fun z : Tsi => { z with ingress := x.ingress }) h
theorem Tsi.fn_of_dry {x y : Tsi} (h : x.dry = y.dry) : x.fn = y.fn := (congrArg Tsi.fn h :)

/-- Frame f is what a link in state h starts to send as frame fn of the multiframe, from the slots of the interchange, the
device's identity and the defects of the cycle before (15 R569, R581, R586, R605, R611). -/
structure TxFrame.Starts (f : TxFrame) (h : Hl) (id : List Byte) (defects : BitVec 6) (fn : BitVec 4)
    (slots : List (BitVec 9)) : Prop where
  idb : f.idb = id.getD fn.toNat 0
  rdi : bit f.stat 7 = true ↔ h.fenced = true ∨ defects &&& 7 ≠ 0
  bip : ∀ y, h.tx = some y → f.bip = xorBytes ([y.stat, y.bip] ++ y.mdc ++ [y.idb] ++ leBytes 2 y.ack.toNat ++ y.slots)
  fenced : h.fenced = true → f.slots = .replicate 256 0xFF ∧ f.mdc = .replicate 4 0x7E
  plain : h.fenced = false → h.xen = false → ∀ k < 256, f.slots.getD k 0 = (slots.getD k subSlot).setWidth 8

/-- What a link starts to send does not rest on its read side. -/
theorem TxFrame.Starts.of_readless {f : TxFrame} {h h' : Hl} {id : List Byte} {defects : BitVec 6} {fn : BitVec 4}
    {slots : List (BitVec 9)} (hs : f.Starts h id defects fn slots) (hr : h.readless = h'.readless) :
    f.Starts h' id defects fn slots := by
  have hread : f.Starts h.readless id defects fn slots := ⟨hs.idb, hs.rdi, hs.bip, hs.fenced, hs.plain⟩
  rw [hr] at hread
  exact ⟨hread.idb, hread.rdi, hread.bip, hread.fenced, hread.plain⟩

namespace State

/-! ## The links hand their frames (15 R575, R576) -/

/-- Link l's part at a boundary: it hands the frame it decided on, or gives nothing while it is disabled. -/
def handLink (l : Fin 4) (s : State) : State :=
  if (s.link l).en then s.handFrame l else s.modTsi fun t => { t with ingress := vset t.ingress l fun _ => [] }
/-- Every link's part, in order. -/
def handLinks (s : State) : State := foldFin 4 handLink s

/-- From s to t link l has handed its frame, and nothing else has happened. -/
structure HandsOver (l : Fin 4) (s t : State) : Prop where
  dry : t.tsi.dry = s.tsi.dry
  given : at_ t.tsi.ingress l = (s.link l).given
  own : (t.link l).readless = (s.link l).readless
  other : ∀ m, m ≠ l → t.link m = s.link m ∧ at_ t.tsi.ingress m = at_ s.tsi.ingress m
  bound : t.cyc.bound = s.cyc.bound
  frame : OnlyChanges [.tsi, .msp, .hl] s t

theorem only_mspRun (s : State) (m : Fin 2) (f : Msp → Msp) : OnlyChanges [.msp] s (s.mspRun m f) :=
  (only_modMsp _ _ _).both (only_hwSet _ _ _ _)

/-- A link hands its frame: the slots go to the interchange, the octets to the port it is bound to. -/
theorem handFrame_stages (s : State) (l : Fin 4) : ∃ u : State, u.cyc.bound = s.cyc.bound ∧
    OnlyChanges [.msp] (s.modTsi fun t => { t with ingress := vset t.ingress l fun _ => (s.link l).handed.1 }) u ∧
    s.handFrame l = u.modLink l fun h => h.afterHand := by
  have hpass : ∀ (t : State) (m : Fin 2) f (c : Prop) [Decidable c],
      (if c then t.mspRun m f else t).cyc.bound = t.cyc.bound ∧ OnlyChanges [.msp] t (if c then t.mspRun m f else t) := by
    intro t m f c _
    split
    · exact ⟨rfl, only_mspRun _ _ _⟩
    · exact ⟨rfl, .refl _ _⟩
  unfold handFrame
  extract_lets h r t pass u
  have hu : u.cyc.bound = t.cyc.bound ∧ OnlyChanges [.msp] t u := by
    unfold u
    split
    · exact hpass t 0 _ _
    · split
      · exact hpass t 1 _ _
      · exact ⟨rfl, .refl _ _⟩
  exact ⟨u, hu.1, hu.2, rfl⟩

theorem handLink_handsOver (l : Fin 4) (s : State) : HandsOver l s (handLink l s) := by
  unfold handLink
  split
  · next hen =>
    obtain ⟨u, hbound, honly, heq⟩ := s.handFrame_stages l
    have hlink : ∀ m, u.link m = s.link m := honly.link (by decide)
    have htsi := honly .tsi (by decide)
    have hslots : ∀ m, at_ u.tsi.ingress m = if l = m then (s.link l).handed.1 else at_ s.tsi.ingress m := fun m =>
      (congrArg (fun x : Tsi => at_ x.ingress m) htsi).trans (at_vset s.tsi.ingress l m _)
    rw [heq]
    refine ⟨(congrArg Tsi.dry htsi :), ?_, ?_, fun m hm => ⟨?_, (hslots m).trans (if_neg hm.symm)⟩, hbound,
      ((only_modTsi s _).trans (honly.trans (only_modLink u l _))).mono (by decide)⟩
    · rw [Hl.given, if_pos hen]
      exact (hslots l).trans (if_pos rfl)
    · rw [link_modLink_self, Hl.readless_afterHand, hlink]
    · rw [link_modLink, if_neg hm.symm, hlink]
  · next hen =>
    refine ⟨rfl, ?_, rfl, fun m hm => ⟨rfl, at_vset_ne _ _ hm.symm⟩, rfl, (only_modTsi s _).mono (by decide)⟩
    rw [Hl.given, if_neg hen]
    exact at_vset_self s.tsi.ingress l _

theorem only_handLinks (s : State) : OnlyChanges [.tsi, .msp, .hl] s s.handLinks :=
  .foldFin (fun l t => (handLink_handsOver l t).frame) s
theorem bound_handLinks (s : State) : s.handLinks.cyc.bound = s.cyc.bound :=
  foldl_keeps (p := fun t : State => t.cyc.bound) _ (fun t l _ => (handLink_handsOver l t).bound) s
theorem readless_handLinks (s : State) (l : Fin 4) : (s.handLinks.link l).readless = (s.link l).readless := by
  refine foldl_keeps (p := fun t : State => (t.link l).readless) _ (fun t m _ => ?_) s
  by_cases hm : l = m
  · subst hm
    exact (handLink_handsOver l t).own
  · exact congrArg Hl.readless ((handLink_handsOver m t).other l hm).1

/-- The slots the interchange holds of a link are those it gave. -/
theorem ingress_handLinks (s : State) (l : Fin 4) : at_ s.handLinks.tsi.ingress l = (s.link l).given := by
  obtain ⟨u, hu, hfold⟩ := foldl_at (p := fun t : State => (t.link l, at_ t.tsi.ingress l)) (List.mem_finRange l)
    (List.nodup_finRange 4) (fun t m _ hm =>
      have hother := (handLink_handsOver m t).other l hm.symm
      Prod.ext hother.1 hother.2) s
  have hlink : u.link l = s.link l := congrArg Prod.fst hu
  exact (congrArg Prod.snd hfold).trans ((handLink_handsOver l u).given.trans (congrArg Hl.given hlink))

theorem dry_handLinks (s : State) : s.handLinks.tsi.dry = s.tsi.dry :=
  foldl_keeps (p := fun t : State => t.tsi.dry) _ (fun t l _ => (handLink_handsOver l t).dry) s

/-! ## The slots that the interchange builds (16 R614–R618) -/

/-- Entry k of port p on the page in force. -/
def inForce (v : State) (p k : Nat) : Word := v.entry (entryIx p v.tsi.active k)
/-- The owner of an entry (16 Table 16.1). -/
def ownerOf (e : Word) : Fin 256 := Fin.ofNat 256 (fld e 31 24)
/-- The owner of an entry is in service (16 R617). -/
def Owned (v : State) (e : Word) : Prop := fld e 31 24 = 0 ∨ v.clientState (ownerOf e) = .active

theorem not_owned_iff {v : State} {e : Word} :
    (ownerOf e ≠ 0 ∧ v.clientState (ownerOf e) ≠ .active) ↔ ¬v.Owned e := by
  have hlt : fld e 31 24 < 256 := fld_lt e 31 24
  have hzero : ownerOf e = 0 ↔ fld e 31 24 = 0 := by
    simp [ownerOf, Fin.ext_iff, Nat.mod_eq_of_lt hlt]
  rw [Owned, not_or, Ne, hzero]

/-- View w has all of view v that a frame is built from, except what the links hand. -/
structure Feeds (v w : State) : Prop where
  dry : w.tsi.dry = v.tsi.dry
  sc : w.sc = v.sc
  me : w.me = v.me
  link : ∀ l, (w.link l).readless = (v.link l).readless

theorem frameView_none {s : State} (h : s.cyc.bound = none) : s.frameView = s := by rw [frameView, h]
theorem frameView_some {s : State} {b : FrameView} (h : s.cyc.bound = some b) : s.frameView =
    { s with tsi := { b.tsi with ingress := s.tsi.ingress }, hl := b.hl
             me := { s.me with st := if b.meFenced then .fenced else if s.me.st = .fenced then .idle else s.me.st }
             sc := { s.sc with recs := b.recs } } := by rw [frameView, h]

/-- Where two states differ at most in what the links hand, so do their views. -/
theorem feeds_frameView {s t : State} (hbound : t.cyc.bound = s.cyc.bound) (h : Feeds s t) :
    Feeds s.frameView t.frameView := by
  obtain ⟨hdry, hsc, hme, hlink⟩ := h
  cases hb : s.cyc.bound with
  | none =>
    rw [frameView_none hb, frameView_none (hbound.trans hb)]
    exact ⟨hdry, hsc, hme, hlink⟩
  | some b =>
    rw [frameView_some hb, frameView_some (hbound.trans hb), hme, hsc]
    exact ⟨rfl, rfl, rfl, fun _ => rfl⟩

/-- The bytes a boundary uses are those the links hand at it; all else is as the cycle before left it (log 56). -/
theorem feeds_handLinks (s : State) : Feeds s.frameView s.handLinks.frameView :=
  feeds_frameView s.bound_handLinks ⟨s.dry_handLinks, s.only_handLinks .sc (by decide), s.only_handLinks .me (by decide),
    s.readless_handLinks⟩

theorem ingress_frameView (s : State) : s.frameView.tsi.ingress = s.tsi.ingress := by
  cases h : s.cyc.bound with
  | none => rw [frameView_none h]
  | some b => rw [frameView_some h]

theorem ingressSlot_link (w : State) (l : Fin 4) (n : Nat) : w.ingressSlot l.val n = (at_ w.tsi.ingress l).getD n subSlot :=
  dif_pos l.isLt
/-- The view's byte of a link's ingress slot is the one the link has handed (16 R614). -/
theorem ingressSlot_handLinks (s : State) (l : Fin 4) (n : Nat) :
    s.handLinks.frameView.ingressSlot l.val n = (s.link l).given.getD n subSlot := by
  rw [ingressSlot_link, ingress_frameView, ingress_handLinks]

section
variable {v w : State} {p k : Nat}

/-- A slot by the entry of the page in force and the owners and links of v, with the bytes that w has of the links. -/
theorem egressSlot_of_feeds (hw : Feeds v w) (p k : Nat) : w.egressSlot w.tsi.active p k =
    if fld (v.inForce p k) 23 22 = 0 ∨ (ownerOf (v.inForce p k) ≠ 0 ∧ v.clientState (ownerOf (v.inForce p k)) ≠ .active) ∨
      (p < 4 ∧ bit v.tsi.adm p = false) then subSlot
    else if fld (v.inForce p k) 23 22 = 2 then BitVec.ofNat 9 (fld (v.inForce p k) 7 0)
    else if fld (v.inForce p k) 21 19 < 4 ∧ bit v.tsi.adm (fld (v.inForce p k) 21 19) = false then subSlot
    else if bit (w.ingressSlot (fld (v.inForce p k) 21 19) (fld (v.inForce p k) 15 8)) 8 then subSlot
    else w.ingressSlot (fld (v.inForce p k) 21 19) (fld (v.inForce p k) 15 8) := by
  have hentry : w.entry (entryIx p w.tsi.active k) = v.inForce p k :=
    (congrArg (fun x : Tsi => cellRead 0 x.conn (entryIx p x.active k)) hw.dry :)
  have hadm : w.tsi.adm = v.tsi.adm := (congrArg Tsi.adm hw.dry :)
  have hclient : ∀ c, w.clientState c = v.clientState c := fun c => by unfold clientState client; rw [hw.sc]
  unfold egressSlot
  rw [hentry, hadm]
  simp only [hclient]
  rfl

/-- An entry that is idle, whose owner is out of service, or whose egress link is not admitted gives SUB (16 R616, R617). -/
theorem egressSlot_idle (hw : Feeds v w) (h : fld (v.inForce p k) 23 22 = 0 ∨ ¬v.Owned (v.inForce p k) ∨
    (p < 4 ∧ bit v.tsi.adm p = false)) : w.egressSlot w.tsi.active p k = subSlot :=
  (egressSlot_of_feeds hw p k).trans (if_pos (h.imp_right (Or.imp_left not_owned_iff.2)))

/-- An entry of a fixed byte gives it (16 R616). -/
theorem egressSlot_fixed (hw : Feeds v w) (hm : fld (v.inForce p k) 23 22 = 2) (ho : v.Owned (v.inForce p k))
    (ha : p < 4 → bit v.tsi.adm p = true) :
    w.egressSlot w.tsi.active p k = BitVec.ofNat 9 (fld (v.inForce p k) 7 0) := by
  rw [egressSlot_of_feeds hw, if_neg, if_pos hm]
  rintro (h | h | ⟨hp, h⟩)
  · exact absurd (hm.symm.trans h) (by decide)
  · exact not_owned_iff.1 h ho
  · exact absurd ((ha hp).symm.trans h) (by decide)

/-- An entry that names an ingress slot gives SUB where its link is not admitted or hands SUB (16 R616, R618). -/
theorem egressSlot_sub (hw : Feeds v w) (hm : fld (v.inForce p k) 23 22 = 1)
    (h : (fld (v.inForce p k) 21 19 < 4 ∧ bit v.tsi.adm (fld (v.inForce p k) 21 19) = false) ∨
      w.ingressSlot (fld (v.inForce p k) 21 19) (fld (v.inForce p k) 15 8) = subSlot) :
    w.egressSlot w.tsi.active p k = subSlot := by
  rw [egressSlot_of_feeds hw, if_neg (c := _ = 2) (by simp [hm])]
  obtain h | h := h
  · rw [if_pos h, ite_self]
  · simp [h]

/-- An entry of the microengine's port that an owner in service holds gives its byte, or SUB while it is fenced (16 R618). -/
theorem egressSlot_engine (hw : Feeds v w) (hm : fld (v.inForce 4 k) 23 22 = 1) (ho : v.Owned (v.inForce 4 k))
    (hs : fld (v.inForce 4 k) 21 19 = 4) : w.egressSlot w.tsi.active 4 k =
      if v.me.st = .fenced then subSlot else (cellRead (0 : Byte) v.tsi.ivTx (fld (v.inForce 4 k) 15 8)).setWidth 9 := by
  have hivTx : w.tsi.ivTx = v.tsi.ivTx := (congrArg Tsi.ivTx hw.dry :)
  have hin : ∀ n, w.ingressSlot 4 n = if v.me.st = .fenced then subSlot else (cellRead (0 : Byte) v.tsi.ivTx n).setWidth 9 :=
    fun n => by rw [ingressSlot, dif_neg (by decide), hw.me, hivTx]
  have hmode : ¬(fld (v.inForce 4 k) 23 22 = 0 ∨ (ownerOf (v.inForce 4 k) ≠ 0 ∧
      v.clientState (ownerOf (v.inForce 4 k)) ≠ .active) ∨ (4 < 4 ∧ bit v.tsi.adm 4 = false)) := by
    rw [not_owned_iff]
    simp [hm, ho]
  rw [egressSlot_of_feeds hw, if_neg hmode, if_neg (by simp [hm]), if_neg (by simp [hs]), hs, hin]
  split
  · exact ite_self _
  · exact if_neg (by simp [bit_byte_sub])

end

/-- The frame that the interchange builds for port p. -/
def frameSlots (v : State) (p : Nat) : List (BitVec 9) := (List.range 256).map fun k => v.egressSlot v.tsi.active p k

theorem getD_frameSlots (v : State) (p : Nat) (k : Fin 256) (d : BitVec 9) :
    (v.frameSlots p).getD k.val d = v.egressSlot v.tsi.active p k.val := by
  simp [frameSlots]

/-! ## The frames that the links start to send (15 Table 15.2) -/

/-- STAT carries RDI in bit 7, above the window grant and REI (15 R581). -/
theorem bit_stat_rdi (rdi sq : Bool) {rei : Nat} (h : rei ≤ 15) :
    bit (BitVec.ofNat 8 (128 * b2n rdi + 64 * b2n sq + rei)) 7 = rdi := by
  have hall : ∀ r : Fin 16, ∀ a b : Bool, bit (BitVec.ofNat 8 (128 * b2n a + 64 * b2n b + r.val)) 7 = a := by decide
  exact hall ⟨rei, Nat.lt_succ_of_le h⟩ rdi sq

theorem startFrame_stages (v s : State) (l : Fin 4) (fn : BitVec 4) (slots : List (BitVec 9)) :
    ∃ (u : State) (g : Hl → Hl) (f : TxFrame), OnlyChanges [.afe, .msp] s u ∧ startFrame v s l fn slots = u.modLink l g ∧
      (∀ h, (g h).tx = some f) ∧ f.Starts (s.link l) s.identity (v.link l).defects fn slots := by
  unfold startFrame
  extract_lets h idle w xs plain mixed body port fill mdc t sq rdi rei st bip ack u f
  have ht : OnlyChanges [.msp] s t := by
    unfold t
    generalize port = o
    cases o with
    | none => exact .refl _ _
    | some m => exact .ite (.refl _ _) (only_modMsp _ _ _)
  have hu : OnlyChanges [.afe, .msp] s u :=
    (ht.mono (by decide)).both (.ite ((only_modAfe _ _).mono (by decide)) (.refl _ _))
  refine ⟨u, _, f, hu, rfl, fun _ => rfl, ?_, ?_, fun y hy => ?_, fun hf => ⟨?_, ?_⟩, fun hf hx k hk => ?_⟩
  · exact congrArg (·.getD fn.toNat 0) (hu.identity (by decide) (by decide))
  · rw [show bit f.stat 7 = rdi from bit_stat_rdi rdi sq (Nat.min_le_right rei 15)]
    simp [rdi, h]
  · change bip = _
    simp only [bip, h, hy]
  · exact if_pos hf
  · exact if_pos hf
  · have hw : w = 0 := by simp [w, h, hx]
    have hbody : body = plain := (if_neg (by simp [h, hf])).trans (if_pos hw)
    change body.getD k 0 = _
    rw [hbody, List.getD_eq_getElem?_getD, List.getElem?_map, getElem?_padTo subSlot hk]
    rfl

end State
end Sys2Proof.Machine
end

section
/-!
PROOFS. The local frame boundary as one step, and the commands of the interchange (O54).
-/
namespace Sys2Proof.Machine

namespace State
variable {s v u : State} {l : Fin 4} {parts : List Nat}

/-! ## Every link starts its frame -/

/-- Link l's part in starting frame fn: a frame from its port's slots, or none while it is disabled or in PARK entry. -/
def sendLink (v : State) (fn : BitVec 4) (l : Fin 4) (t : State) : State :=
  if (t.link l).en && t.pwr.st != .entering then startFrame v t l fn (v.frameSlots l.val)
  else t.modLink l fun h => { h with tx := none }
/-- Every link's part, in order. -/
def sendLinks (v : State) (fn : BitVec 4) (u : State) : State := foldFin 4 (sendLink v fn) u

theorem only_startFrame (v s : State) (l : Fin 4) (fn : BitVec 4) (slots : List (BitVec 9)) :
    OnlyChanges [.afe, .msp, .hl] s (startFrame v s l fn slots) := by
  obtain ⟨u, g, f, hu, heq, -⟩ := startFrame_stages v s l fn slots
  rw [heq]
  exact (hu.trans (only_modLink u l g)).mono (by decide)
theorem only_sendLink (v : State) (fn : BitVec 4) (l : Fin 4) (s : State) :
    OnlyChanges [.afe, .msp, .hl] s (sendLink v fn l s) :=
  .ite (only_startFrame _ _ _ _ _) ((only_modLink _ _ _).mono (by decide))
theorem only_sendLinks (v : State) (fn : BitVec 4) (s : State) : OnlyChanges [.afe, .msp, .hl] s (sendLinks v fn s) :=
  .foldFin (fun l t => only_sendLink v fn l t) s

theorem link_sendLink_ne (v s : State) (fn : BitVec 4) {m : Fin 4} (hm : m ≠ l) :
    (sendLink v fn m s).link l = s.link l := by
  unfold sendLink
  split
  · obtain ⟨u, g, f, hu, heq, -⟩ := startFrame_stages v s m fn (v.frameSlots m.val)
    rw [heq, link_modLink, if_neg hm, hu.link (by decide)]
  · rw [link_modLink, if_neg hm]

theorem sendLinks_starts (v : State) (fn : BitVec 4) (hen : (s.link l).en = true) (hst : s.pwr.st ≠ .entering) :
    ∃ f, ((sendLinks v fn s).link l).tx = some f ∧
      f.Starts (s.link l) s.identity (v.link l).defects fn (v.frameSlots l.val) := by
  obtain ⟨u, hu, hfold⟩ := foldl_at (p := fun t : State => (t.link l, t.pwr, t.identity)) (List.mem_finRange l)
    (List.nodup_finRange 4) (fun t m _ hm => by
      have honly := only_sendLink v fn m t
      have hpwr : (sendLink v fn m t).pwr = t.pwr := honly .pwr (by decide)
      rw [link_sendLink_ne v t fn hm, hpwr, honly.identity (by decide) (by decide)]) s
  have hlink : u.link l = s.link l := congrArg Prod.fst hu
  have hpwr : u.pwr = s.pwr := congrArg (fun x => x.2.1) hu
  have hid : u.identity = s.identity := congrArg (fun x => x.2.2) hu
  have hsend : sendLink v fn l u = startFrame v u l fn (v.frameSlots l.val) := if_pos (by simp [hlink, hpwr, hen, hst])
  obtain ⟨w, g, f, -, heq, htx, hstarts⟩ := startFrame_stages v u l fn (v.frameSlots l.val)
  rw [hlink, hid] at hstarts
  have hown : (sendLinks v fn s).link l = (sendLink v fn l u).link l := congrArg Prod.fst hfold
  exact ⟨f, by rw [hown, hsend, heq, link_modLink_self, htx], hstarts⟩

/-! ## The interval ends -/

/-- The read sides decide what they hand next, and the interval of every link ends (15 R575, R577). -/
def settleLinks (parts : List Nat) (s : State) : State :=
  foldFin 4 (fun l t => t.endInterval l)
    (foldFin 4 (fun l t => if (t.link l).en then t.decideHand l (parts.getD l.val 0) else t) s)

/-- What an end of interval may change: the links but for the frames they send, the second in hand and the reports. -/
structure Settles (s t : State) : Prop where
  frame : OnlyChanges [.hl, .pm, .reports] s t
  tx : ∀ l, (t.link l).tx = (s.link l).tx

namespace Settles
variable {t w : State}

theorem refl (s : State) : Settles s s := ⟨.refl _ _, fun _ => rfl⟩
theorem trans (h : Settles s t) (k : Settles t w) : Settles s w := ⟨h.frame.both k.frame, fun l => (k.tx l).trans (h.tx l)⟩
theorem ite {c : Prop} [Decidable c] (h : Settles s t) (k : Settles s w) : Settles s (if c then t else w) := by
  split <;> assumption
theorem foldFin {n : Nat} {f : Fin n → State → State} (h : ∀ i s, Settles s (f i s)) (s : State) :
    Settles s (foldFin n f s) :=
  ⟨.foldFin (fun i s => (h i s).frame) s,
    fun l => foldl_keeps (p := fun t : State => (t.link l).tx) _ (fun s i _ => (h i s).tx l) s⟩
theorem modLink (s : State) (l : Fin 4) (f : Hl → Hl) (h : (f (s.link l)).tx = (s.link l).tx) :
    Settles s (s.modLink l f) := by
  refine ⟨(only_modLink s l f).mono (by decide), fun m => ?_⟩
  rw [link_modLink]
  split
  · next hm => subst hm; exact h
  · rfl
theorem linkSec (s : State) (l : Fin 4) (f : LinkSec → LinkSec) : Settles s (s.linkSec l f) :=
  ⟨(only_modPm s _).mono (by decide), fun _ => rfl⟩
theorem report (s : State) (m k i d : Nat) : Settles s (s.report m k i d) :=
  ⟨(only_report s _ _ _ _).mono (by decide), fun _ => rfl⟩
theorem hlFlag (s : State) (l : Fin 4) (b : BitVec 15) : Settles s (s.hlFlag l b) :=
  (modLink s l _ rfl).trans ⟨only_hwSet _ _ _ _, fun _ => rfl⟩

theorem declare (s : State) (l : Fin 4) (d : Fin 6) : Settles s (s.declare l d) :=
  (((modLink s l _ rfl).trans (hlFlag _ _ _)).trans (linkSec _ _ _)).trans (report _ _ _ _ _)
theorem undeclare (s : State) (l : Fin 4) (d : Fin 6) : Settles s (s.undeclare l d) :=
  (modLink s l _ rfl).trans (hlFlag _ _ _)
theorem integrate (s : State) (l : Fin 4) (d : Fin 6) (present : Bool) : Settles s (s.integrate l d present) :=
  .ite (modLink s l _ rfl) (.ite (.ite (undeclare s l d) (modLink s l _ rfl)) (.ite (declare s l d) (modLink s l _ rfl)))
theorem endInterval (s : State) (l : Fin 4) : Settles s (s.endInterval l) := by
  unfold State.endInterval
  extract_lets h seen a b c d e out f n stable g
  have he : Settles s e := ((((integrate s l 0 _).trans (integrate a l 1 _)).trans (integrate b l 2 _)).trans
    (integrate c l 3 _)).trans (integrate d l 5 _)
  have hf : Settles e f := .ite (linkSec _ _ _) (refl _)
  have hg : Settles f g := modLink f l _ rfl
  exact .ite (refl s) (.ite (((he.trans hf).trans hg).trans (hlFlag _ _ _)) ((he.trans hf).trans hg))
theorem decideHand (s : State) (l : Fin 4) (part : Nat) : Settles s (s.decideHand l part) := by
  have hmod := modLink s l (fun _ => ((s.link l).decide_ part).1) ((s.link l).tx_decide part)
  exact .ite hmod ((hmod.trans (linkSec _ _ _)).trans (hlFlag _ _ _))
theorem settleLinks (parts : List Nat) (s : State) : Settles s (s.settleLinks parts) :=
  (foldFin (fun l s => .ite (decideHand s l _) (refl s)) s).trans (foldFin (fun l s => endInterval s l) _)

end Settles

/-! ## The boundary (15 R568, 16 R615, R619–R621) -/

theorem only_tsiFrame (s : State) (rx : List (BitVec 9)) (fn : BitVec 4) : OnlyChanges [.tsi, .tt] s (s.tsiFrame rx fn) :=
  ((only_modTsi s _).mono (by decide)).both (only_raiseTsi _ _)

theorem tsi_tsiFrame (s : State) (rx : List (BitVec 9)) (fn : BitVec 4) : ∃ ev : EventRegs, bit ev.flag 0 = true ∧
    (s.tsiFrame rx fn).tsi = { s.tsi with ivRx := rx, frame := s.tsi.frame + 1, fn := fn, ev := ev } := by
  unfold tsiFrame
  extract_lets w chg t
  rw [tsi_raiseTsi]
  refine ⟨_, bit_flag_set t.tsi.ev ?_, rfl⟩
  rw [bit_or, bit_or]
  rfl

/-- The boundary before the interval ends: the links have started the frames built from view v, and the frame steps. -/
def framed (v : State) (fn : BitVec 4) (u : State) : State :=
  ((sendLinks v fn u).tsiFrame (v.frameSlots 4) fn).modTsi fun t => { t with frameCnt := t.frameCnt - 50000 }

theorem only_framed (v : State) (fn : BitVec 4) (u : State) : OnlyChanges [.afe, .msp, .hl, .tsi, .tt] u (framed v fn u) :=
  (((only_sendLinks v fn u).trans (only_tsiFrame _ _ _)).trans (only_modTsi _ _)).mono (by decide)

theorem link_framed (v : State) (fn : BitVec 4) (u : State) (l : Fin 4) :
    (framed v fn u).link l = (sendLinks v fn u).link l := by
  rw [framed, link_modTsi]
  exact (only_tsiFrame _ _ _).link (by decide) l

theorem tsi_framed (v : State) (fn : BitVec 4) (u : State) : ∃ ev : EventRegs, bit ev.flag 0 = true ∧ (framed v fn u).tsi =
    { u.tsi with ivRx := v.frameSlots 4, frame := u.tsi.frame + 1, fn := fn, ev := ev
                 frameCnt := u.tsi.frameCnt - 50000 } := by
  obtain ⟨ev, hflag, htsi⟩ := tsi_tsiFrame (sendLinks v fn u) (v.frameSlots 4) fn
  have hsent : (sendLinks v fn u).tsi = u.tsi := only_sendLinks v fn u .tsi (by decide)
  rw [hsent] at htsi
  exact ⟨ev, hflag, congrArg (fun x : Tsi => { x with frameCnt := x.frameCnt - 50000 }) htsi⟩

/-- The frame after any but the last of a multiframe does not begin one (15 R568). -/
theorem succ_ne_zero_of_ne_last {n : BitVec 4} (h : n ≠ 15) : n + 1 ≠ 0 := by bv_omega

theorem modTsi_adm_self (v : State) : (v.modTsi fun t => { t with adm := v.tsi.adm }) = v := rfl

/-- Within a multiframe a boundary builds from the page and the links in force (16 R625). -/
theorem frameBoundary_eq (hup : s.pwr.pdUp = true) (hdue : 50000 ≤ s.tsi.frameCnt) (hfn : s.tsi.fn ≠ 15)
    (parts : List Nat) :
    s.frameBoundary parts = ((framed s.handLinks.frameView (s.tsi.fn + 1) s.handLinks).settleLinks parts) := by
  have hnum : s.handLinks.tsi.fn = s.tsi.fn := Tsi.fn_of_dry s.dry_handLinks
  have hwithin : s.tsi.fn + 1 ≠ 0 := succ_ne_zero_of_ne_last hfn
  have hpage : ∀ v u : State, tsiPage v u (decide (s.tsi.fn + 1 = 0)) = ((v.tsi.active, v.tsi.adm), u) := fun v u =>
    if_neg (mt of_decide_eq_true hwithin)
  rw [← hnum] at hpage ⊢
  unfold frameBoundary
  rw [if_neg (by simp [hup, hdue])]
  extract_lets u v fn pg w
  have hpg : pg = ((v.tsi.active, v.tsi.adm), u) := hpage v u
  clear_value pg
  subst hpg
  have hw : w = v := modTsi_adm_self v
  clear_value w
  subst hw
  rfl

theorem frameBoundary_early (h : s.tsi.frameCnt < 50000) (parts : List Nat) : s.frameBoundary parts = s :=
  if_pos (by simp [h])

section
variable (hup : s.pwr.pdUp = true) (hdue : 50000 ≤ s.tsi.frameCnt) (hfn : s.tsi.fn ≠ 15) (parts : List Nat)
include hup hdue hfn

theorem only_frameBoundary : OnlyChanges [.tt, .afe, .hl, .tsi, .msp, .pm, .reports] s (s.frameBoundary parts) := by
  rw [frameBoundary_eq hup hdue hfn]
  exact ((s.only_handLinks.trans (only_framed _ _ _)).trans (Settles.settleLinks parts _).frame).mono (by decide)

/-- The interchange after a boundary: a new IV_RX, the next frame, FRAME set, and nothing else but the bytes handed. -/
theorem frameBoundary_tsi : ∃ ev : EventRegs, bit ev.flag 0 = true ∧ (s.frameBoundary parts).tsi =
    { s.tsi with ingress := s.handLinks.tsi.ingress, ivRx := s.handLinks.frameView.frameSlots 4, frame := s.tsi.frame + 1
                 fn := s.tsi.fn + 1, ev := ev, frameCnt := s.tsi.frameCnt - 50000 } := by
  obtain ⟨ev, hflag, htsi⟩ := tsi_framed s.handLinks.frameView (s.tsi.fn + 1) s.handLinks
  rw [Tsi.eq_of_dry s.dry_handLinks] at htsi
  refine ⟨ev, hflag, ?_⟩
  rw [frameBoundary_eq hup hdue hfn]
  exact ((Settles.settleLinks parts _).frame .tsi (by decide)).trans htsi

/-- IV_RX is the frame built for port 4 (16 R615). -/
theorem frameBoundary_ivRx (k : Fin 256) : (s.frameBoundary parts).tsi.ivRx.getD k.val 0 =
    s.handLinks.frameView.egressSlot s.handLinks.frameView.tsi.active 4 k.val := by
  obtain ⟨ev, -, htsi⟩ := frameBoundary_tsi hup hdue hfn parts
  rw [htsi]
  exact getD_frameSlots _ 4 k 0

/-- Each enabled link starts a frame from the slots of its port. -/
theorem frameBoundary_starts (hen : (s.link l).en = true) (hst : s.pwr.st ≠ .entering) :
    ∃ f, ((s.frameBoundary parts).link l).tx = some f ∧ f.Starts (s.link l) s.identity (s.frameView.link l).defects
      (s.tsi.fn + 1) (s.handLinks.frameView.frameSlots l.val) := by
  have hsame := s.readless_handLinks l
  have hid : s.handLinks.identity = s.identity := s.only_handLinks.identity (by decide) (by decide)
  have hpwr : s.handLinks.pwr = s.pwr := s.only_handLinks .pwr (by decide)
  have hdef : (s.handLinks.frameView.link l).defects = (s.frameView.link l).defects :=
    Hl.defects_of_readless (s.feeds_handLinks.link l)
  obtain ⟨f, htx, hstarts⟩ := sendLinks_starts (l := l) (s := s.handLinks) s.handLinks.frameView (s.tsi.fn + 1)
    ((Hl.en_of_readless hsame).trans hen) (hpwr ▸ hst)
  refine ⟨f, ?_, ?_⟩
  · rw [frameBoundary_eq hup hdue hfn, (Settles.settleLinks parts _).tx l, link_framed, htx]
  · rw [hid, hdef] at hstarts
    exact hstarts.of_readless hsame

end

/-- With no link waiting for re-admission, the supervisor starts no copy. -/
theorem supCopy_noAdmit (h : s.flt.admMask = 0) : s.supCopy = s := if_neg fun hn => hn.1 h

end State

open State

/-- Settles O54: the boundary by its stages (the links hand, the frames are built from the view and started, the interval
ends), the other commands by the cases of their definitions. -/
theorem frameBoundaryAndInterchange : Obligations.FrameBoundaryAndInterchange := by
  unfold Obligations.FrameBoundaryAndInterchange
  intro s parts l k c admMask n w hcan x v e owned writer busy shut flagged page
  obtain ⟨-, -, hconn⟩ := hcan
  refine ⟨fun hdown i hi => ?inReset, fun hup => ⟨fun hadm h => ?early, fun hadm hdue hfn => ?boundary,
    fun h => ?copyRefused, fun hw hb => ?copyTaken, fun hc ht hadm => ?copyDone, fun h hadm => ?copyEarly,
    fun hw => ?cancelRefused, fun h => ?swapRefused, fun hw hb => ?swapTaken, fun hw => ?cancelTaken, ?entry⟩⟩
  case inReset =>
    simp only [List.mem_cons, List.not_mem_nil, or_false] at hi
    obtain rfl | rfl | rfl | rfl | rfl | rfl := hi <;> exact completes_inReset rfl hdown
  case early => exact completes_idle rfl ((congrArg supCopy (frameBoundary_early h parts)).trans (supCopy_noAdmit hadm))
  case boundary =>
    have honly := only_frameBoundary hup hdue hfn parts
    have hadm' : (s.frameBoundary parts).flt.admMask = 0 := (congrArg Flt.admMask (honly .flt (by decide))).trans hadm
    refine completes_live rfl hup (supCopy_noAdmit hadm') ?_ honly
    have hfeeds := s.feeds_handLinks
    obtain ⟨ev, hflag, htsi⟩ := frameBoundary_tsi hup hdue hfn parts
    have hrx := frameBoundary_ivRx hup hdue hfn parts k
    intro rx
    refine ⟨by rw [htsi], by rw [htsi], (congrArg (fun y : Tsi => bit y.ev.flag 0) htsi).trans hflag, by rw [htsi],
      by rw [htsi], by rw [htsi], by rw [htsi], fun h => ?rxIdle, fun hm ho => ?rxFixed, fun hm ho hsrc => ?rxEngine,
      fun hm hsrc ha => ?rxNotAdmitted, fun hm ho hsrc hs => ?rxSub, fun hen hst => ?frame⟩
    case rxIdle => exact hrx.trans (egressSlot_idle hfeeds (h.imp_right Or.inl))
    case rxFixed =>
      rw [show rx = _ from hrx.trans (egressSlot_fixed hfeeds hm ho fun h => absurd h (by decide))]
      exact toNat_fixedSlot _
    case rxEngine => exact hrx.trans (egressSlot_engine hfeeds hm ho hsrc)
    case rxNotAdmitted => exact hrx.trans (egressSlot_sub hfeeds hm (.inl ⟨hsrc ▸ l.isLt, hsrc ▸ ha⟩))
    case rxSub =>
      have hsub := fun i => (s.ingressSlot_handLinks l i).trans ((s.link l).getD_given_sub hs i)
      exact hrx.trans (egressSlot_sub hfeeds hm (.inr (hsrc ▸ hsub _)))
    case frame =>
      obtain ⟨f, htx, hstarts⟩ := frameBoundary_starts hup hdue hfn parts hen hst
      refine ⟨f, htx, hstarts.idb, hstarts.rdi, hstarts.bip, hstarts.fenced, fun hf hx => ?_⟩
      have hslot : f.slots.getD k.val 0 = _ := (hstarts.plain hf hx k.val k.isLt).trans
        (congrArg (BitVec.setWidth 8) (getD_frameSlots _ l.val k subSlot))
      refine ⟨fun h => ?_, fun hm ho ha => ?_⟩
      · rw [hslot, egressSlot_idle hfeeds (h.imp_right (Or.imp_right fun ha => ⟨l.isLt, ha⟩))]
        rfl
      · rw [hslot, egressSlot_fixed hfeeds hm ho fun _ => ha]
        exact toNat_fixedByte _
  case copyRefused => exact completes_turnedAway rfl hup (tsiCopy_refused h) fun t hf hm hc hp => ⟨hf, hm, hc, hp⟩
  case copyTaken => exact completes_live rfl hup (tsiCopy_taken hw hb) rfl (only_modTsi s _)
  case copyDone =>
    refine completes_live rfl hup ((copyDone_noAdmit hadm).trans (tsiCopyDone_due hc ht))
      ⟨flagged_raiseTsi _ (by decide), ?_⟩ (((only_modTsi s _).mono (by decide)).both ((only_raiseTsi _ _).mono (by decide)))
    rw [entry, tsi_raiseTsi]
    refine ⟨rfl, rfl, (cellRead_copiedConn hconn x.active n.val).trans ?_⟩
    cases x.active <;> rfl
  case copyEarly => exact completes_idle rfl (copyDone_early h hadm)
  case cancelRefused => exact completes_turnedAway rfl hup (tsiCancel_refused hw) fun t hf _ _ hp => ⟨hf, hp⟩
  case swapRefused => exact completes_turnedAway rfl hup (tsiSwapReq_refused h) fun t hf _ _ hp => ⟨hf, hp⟩
  case swapTaken =>
    exact completes_live rfl hup (tsiSwapReq_taken hw hb) ⟨_, rfl, rfl, rfl, bit_takenSet s admMask l⟩ (only_modTsi s _)
  case cancelTaken => exact completes_live rfl hup (tsiCancel_taken hw) rfl (only_modTsi s _)
  case entry =>
    have hshut : shut ↔ s.tsi.copying = true ∨ s.swapHeld = true := or_congr_right swapHeld_iff.symm
    refine ⟨fun hw => ?notWriter, fun hw hp hl => ?locked, fun hw hp hs => ?shut, fun hw h => ?mayWrite⟩
    case notWriter => exact completes_refusedEntry hup (by decide) (writeEntry_notWriter hw)
    case locked => exact completes_refusedEntry hup (by decide) (writeEntry_locked hw hp hl)
    case shut => exact completes_refusedEntry hup (by decide) (writeEntry_shut hw hp (hshut.1 hs))
    case mayWrite =>
      have hopen := writeEntry_open (w := w) hw (h.imp_right (And.imp_right (mt hshut.2)))
      exact ⟨fun hb => completes_refusedEntry hup (by decide) (hopen.trans (if_pos hb)),
        fun hb => completes_takenEntry hup hconn (hopen.trans (if_neg (by simp [hb])))⟩

end Sys2Proof.Machine
end

section
/-!
PROOFS. The management serial ports (18 R686–R689): what each operation leaves of a port, and the link a port is bound to.
-/
namespace Sys2Proof.Machine

/-! ## The record of one port -/

namespace Msp

/-- The same port with flags c. -/
def withFlags (c : BitVec 9) (x : Msp) : Msp := { x with flag := c }
/-- f sets the flags b, leaves the others, and goes by none of them. -/
def Sets (b : BitVec 9) (f : Msp → Msp) : Prop := ∀ x c, f (x.withFlags c) = (f x).withFlags (c ||| b)
/-- The port goes through f, and the flags f sets join those that are set (00 R9). -/
def run (f : Msp → Msp) (x : Msp) : Msp := (f (x.withFlags 0)).withFlags (x.flag ||| (f (x.withFlags 0)).flag)

/-- The level of RTS_N while n octets stand in the receive FIFO of a port that is on (18 R688). -/
def rtsAt (x : Msp) (n : Nat) : Bool := if x.flow = false ∨ 192 ≤ n then true else if n ≤ 64 then false else x.rts

theorem settleRts_eq (x : Msp) : x.settleRts = { x with rts := x.en = false || x.rtsAt x.rx.length } := by
  rcases x with ⟨div, _ | _, _ | _, rts, cts, flag, ien, rxFrames, rxDrops, txFrames, txDrops, rx⟩
  case true.true =>
    simp only [settleRts, rtsAt]
    by_cases h192 : 192 ≤ rx.length
    · simp [h192]
    · by_cases h64 : rx.length ≤ 64 <;> simp [h192, h64]
  all_goals rfl
theorem settleRts_of_en {x : Msp} (h : x.en = true) : x.settleRts = { x with rts := x.rtsAt x.rx.length } := by
  rw [settleRts_eq, h]
  rfl

theorem settleRts_withFlags (x : Msp) (c : BitVec 9) : (x.withFlags c).settleRts = x.settleRts.withFlags c := by
  rw [settleRts_eq, settleRts_eq]
  rfl

theorem Sets.settled {b : BitVec 9} {f : Msp → Msp} (h : Sets b f) : Sets b fun x => (f x).settleRts := fun x c =>
  (congrArg settleRts (h x c)).trans (settleRts_withFlags _ _)
/-- No flag stands in the way of joining: what a run leaves is what f leaves. -/
theorem Sets.run_eq {b : BitVec 9} {f : Msp → Msp} (h : Sets b f) (x : Msp) : run f x = f x := by
  have hx : f x = (f x).withFlags (x.flag ||| b) := h x x.flag
  calc run f x = (f x).withFlags (x.flag ||| (0 ||| b)) := by rw [run, h]; rfl
    _ = (f x).withFlags (x.flag ||| b) := by simp
    _ = f x := hx.symm

/-- A frame in hand is discarded for cause b; with `more`, so are its octets until the flag that ends it (18 R687). -/
def dropped (more : Bool) (b : BitVec 9) (x : Msp) : Msp := { x.dropFrame b with rxBad := more }
/-- The receive FIFO after a flag outside a frame, which goes on when the bound link is open and there is room (18 R687). -/
def afterFlag (isOpen : Bool) (x : Msp) : List Byte := if x.rx.length < 256 && isOpen then x.rx ++ [0x7E] else x.rx
def flagPassed (isOpen : Bool) (x : Msp) : Msp := ({ x with rx := x.afterFlag isOpen }).settleRts
/-- The closing flag completes the frame in hand, which goes to the bound link (18 R687). -/
def frameReleased (x : Msp) : Msp :=
  ({ x with rx := x.rx ++ [0x7E], rxHeld := 0, flag := x.flag ||| qRXFRAME, rxFrames := satInc x.rxFrames }).settleRts

theorem sets_dropped (more : Bool) (b : BitVec 9) : Sets b (dropped more b) := fun _ _ => rfl
theorem sets_frameReleased : Sets qRXFRAME frameReleased := Sets.settled fun _ _ => rfl
theorem sets_zero {f : Msp → Msp} (h : ∀ x c, f (x.withFlags c) = (f x).withFlags c) : Sets 0 f := fun x c => by
  rw [h]
  simp
theorem sets_flagPassed (o : Bool) : Sets 0 (flagPassed o) :=
  Sets.settled (f := fun x => { x with rx := x.afterFlag o }) (sets_zero fun _ _ => rfl)

theorem afterFlag_forwarded {x : Msp} (hroom : x.rx.length < 256) : x.afterFlag true = x.rx ++ [0x7E] :=
  if_pos (by simp [hroom])
theorem afterFlag_withheld {x : Msp} {o : Bool} (h : o = false ∨ 256 ≤ x.rx.length) : x.afterFlag o = x.rx :=
  if_neg (by
    obtain h | h := h
    · simp [h]
    · simp [Nat.not_lt.2 h])

/-- The receive FIFO holds bs, and RTS_N follows from its level and what port x showed before. -/
def Holds (x : Msp) (bs : List Byte) (y : Msp) : Prop := y.rx = bs ∧ y.rts = x.rtsAt bs.length
/-- The frame that port x held is gone: it is counted, and flag n says why. -/
def Lost (x : Msp) (n : Nat) (y : Msp) : Prop := bit y.flag n = true ∧ y.rxDrops = satInc x.rxDrops ∧ y.rxHeld = 0

section
variable {x y : Msp} (hen : x.en = true)
include hen

theorem flagPassed_eq (o : Bool) :
    flagPassed o x = { x with rx := x.afterFlag o, rts := x.rtsAt (x.afterFlag o).length } := settleRts_of_en hen

theorem holds_flagPassed {o : Bool} (hy : y = x.flagPassed o) : x.Holds (x.afterFlag o) y ∧ y.flag = x.flag := by
  rw [hy, flagPassed_eq hen]
  exact ⟨⟨rfl, rfl⟩, rfl⟩
/-- The port once the flag that ends a discarded frame has come. -/
theorem holds_ended {o : Bool} (hy : y = ({ x with rxBad := false } : Msp).flagPassed o) :
    x.Holds (x.afterFlag o) y ∧ y.rxBad = false ∧ y.flag = x.flag := by
  rw [hy, flagPassed_eq (show ({ x with rxBad := false } : Msp).en = true from hen)]
  exact ⟨⟨rfl, rfl⟩, rfl, rfl⟩
theorem holds_dropped {b : BitVec 9} {n : Nat} (hb : bit b n = true) (hy : y = (x.dropped true b).settleRts) :
    x.Holds x.released y ∧ x.Lost n y ∧ y.rxBad = true := by
  rw [hy, settleRts_of_en (show (x.dropped true b).en = true from hen)]
  exact ⟨⟨rfl, rfl⟩, ⟨(bit_or _ _ _).trans (by rw [hb, Bool.or_true]), rfl, rfl⟩, rfl⟩
/-- A frame discarded as its closing flag comes: the flag may still go on alone. -/
theorem holds_dropped_flag {b : BitVec 9} {n : Nat} {o : Bool} (hb : bit b n = true)
    (hy : y = (x.dropped false b).flagPassed o) : x.Holds ((x.dropped false b).afterFlag o) y ∧ x.Lost n y := by
  rw [hy, flagPassed_eq (show (x.dropped false b).en = true from hen)]
  exact ⟨⟨rfl, rfl⟩, (bit_or _ _ _).trans (by rw [hb, Bool.or_true]), rfl, rfl⟩
theorem holds_taken {b : Byte} (hy : y = ({ x with rx := x.rx ++ [b], rxHeld := x.rxHeld + 1 } : Msp).settleRts) :
    x.Holds (x.rx ++ [b]) y ∧ y.rxHeld = x.rxHeld + 1 ∧ y.flag = x.flag := by
  rw [hy, settleRts_of_en (show ({ x with rx := x.rx ++ [b], rxHeld := x.rxHeld + 1 } : Msp).en = true from hen)]
  exact ⟨⟨rfl, rfl⟩, rfl, rfl⟩
theorem holds_frameReleased (hy : y = x.frameReleased) : x.Holds (x.rx ++ [0x7E]) y ∧ y.rxHeld = 0 ∧
    bit y.flag 0 = true ∧ y.rxFrames = satInc x.rxFrames := by
  rw [hy, frameReleased, settleRts_of_en (by exact hen)]
  exact ⟨⟨rfl, rfl⟩, rfl, (bit_or _ _ _).trans (by simp [qRXFRAME, bit]), rfl⟩

end

/-! ### Transmission (18 R689) -/

/-- The port sends octet b, which heads its FIFO, and is free again after 10 bit times. -/
def sends (now : Nat) (b : Byte) (rest : List Byte) (x : Msp) : Msp :=
  let next := now + 10 * (x.div.toNat + 1)
  if b = 0x7E then
    if x.txHeld = 0 then { x with tx := rest, txFree := next }
    else { x with tx := rest, txFree := next, txHeld := 0, flag := x.flag ||| qTXFRAME, txFrames := satInc x.txFrames }
  else { x with tx := rest, txFree := next, txHeld := x.txHeld + 1 }
/-- The port may send its next octet, with the level cts on CTS_N. -/
def transmit (now : Nat) (cts : Bool) (x : Msp) : Msp :=
  let x := { x with cts := cts }
  if !x.en || (x.flow && cts) || decide (now < x.txFree) then x
  else match x.tx with
    | [] => x
    | b :: rest => x.sends now b rest

/-- A run is known from what f does without flags. -/
theorem run_eq_of {f : Msp → Msp} {x y : Msp} (b : BitVec 9) (h : f (x.withFlags 0) = y.withFlags b)
    (hy : x.flag ||| b = y.flag) : run f x = y := by
  rw [run, h]
  exact congrArg (fun c => y.withFlags c) hy

section
variable {x : Msp} {now : Nat} {cts : Bool}

theorem run_transmit_waits (h : x.en = false ∨ (x.flow = true ∧ cts = true) ∨ now < x.txFree ∨ x.tx = []) :
    run (transmit now cts) x = { x with cts := cts } := by
  have hf : transmit now cts (x.withFlags 0) = ({ x with cts := cts } : Msp).withFlags 0 := by
    obtain h | ⟨hflow, hcts⟩ | h | h := h
    · exact if_pos (by simp [withFlags, h])
    · exact if_pos (by simp [withFlags, hflow, hcts])
    · exact if_pos (by simp [withFlags, h])
    · simp [transmit, withFlags, h]
  exact run_eq_of 0 hf (by simp)

section
variable {b : Byte} {rest : List Byte} (hen : x.en = true) (hfree : x.txFree ≤ now) (htx : x.tx = b :: rest)
include hen hfree htx

theorem transmit_sends :
    transmit now false (x.withFlags 0) = ({ x with cts := false, flag := 0 } : Msp).sends now b rest := by
  refine (if_neg (by simp [withFlags, hen, hfree])).trans ?_
  simp only [withFlags, htx]
theorem run_transmit_octet (hb : b ≠ 0x7E) : run (transmit now false) x =
    { x with cts := false, tx := rest, txFree := now + 10 * (x.div.toNat + 1), txHeld := x.txHeld + 1 } :=
  run_eq_of 0 ((transmit_sends hen hfree htx).trans (if_neg hb)) (by simp)
theorem run_transmit_flag (hb : b = 0x7E) (hheld : x.txHeld = 0) : run (transmit now false) x =
    { x with cts := false, tx := rest, txFree := now + 10 * (x.div.toNat + 1) } :=
  run_eq_of 0 ((transmit_sends hen hfree htx).trans ((if_pos hb).trans (if_pos hheld))) (by simp)
theorem run_transmit_frame (hb : b = 0x7E) (hheld : 0 < x.txHeld) : run (transmit now false) x =
    { x with cts := false, tx := rest, txFree := now + 10 * (x.div.toNat + 1), txHeld := 0, flag := x.flag ||| qTXFRAME
             txFrames := satInc x.txFrames } :=
  run_eq_of (0 ||| qTXFRAME) ((transmit_sends hen hfree htx).trans ((if_pos hb).trans (if_neg (Nat.ne_of_gt hheld)))) (by simp)

end
end

end Msp

/-! ## One port of a state -/

/-- From s to t port m goes through g and nothing else changes. -/
structure MspStep (m : Fin 2) (g : Msp → Msp) (s t : State) : Prop where
  frame : OnlyChanges [.msp] s t
  others : ∀ j, j ≠ m → t.mspm j = s.mspm j
  here : t.mspm m = g (s.mspm m)

namespace MspStep
variable {m : Fin 2} {f g : Msp → Msp} {s t u : State}

theorem trans (h : MspStep m f s t) (k : MspStep m g t u) : MspStep m (fun x => g (f x)) s u :=
  ⟨h.frame.both k.frame, fun j hj => (k.others j hj).trans (h.others j hj), k.here.trans (congrArg g h.here)⟩
theorem congr (h : MspStep m f s t) (k : ∀ x, f x = g x) : MspStep m g s t := ⟨h.frame, h.others, h.here.trans (k _)⟩

theorem modMsp (s : State) (m : Fin 2) (g : Msp → Msp) : MspStep m g s (s.modMsp m g) :=
  ⟨s.only_modMsp m g, fun _ hj => at_vset_ne _ _ hj.symm, s.mspm_modMsp_self m g⟩
theorem run (s : State) (m : Fin 2) (f : Msp → Msp) : MspStep m (Msp.run f) s (s.mspRun m f) :=
  have h : MspStep m (fun _ => Msp.run f (s.mspm m)) s (s.modMsp m fun _ => Msp.run f (s.mspm m)) := modMsp s m _
  ⟨h.frame.both (State.only_hwSet _ _ _ _), h.others, h.here⟩
theorem sets {b : BitVec 9} (h : Msp.Sets b f) : MspStep m f s (s.mspRun m f) := (run s m f).congr h.run_eq

end MspStep

namespace State
variable {s : State} {m : Fin 2} {l : Fin 4} {b : Byte}

/-! ## The link a port is bound to (18 R686) -/

/-- Link l is the lowest whose MDCSEL names port m. -/
def Binds (s : State) (m : Fin 2) (l : Fin 4) : Prop :=
  (s.link l).mdcsel.toNat = m.val + 1 ∧ ∀ j, j < l → (s.link j).mdcsel.toNat ≠ m.val + 1

theorem mspLink_eq_some_iff : s.mspLink m = some l ↔ s.Binds m l := by
  rw [mspLink, mspLinks, List.head?_filter, List.find?_eq_some_iff_getElem]
  simp only [List.getElem_finRange, decide_eq_true_eq, Bool.not_eq_true', decide_eq_false_iff_not]
  refine and_congr_right fun _ => ⟨?_, fun h => ⟨l.val, by simp, rfl, fun j hj => h ⟨j, Nat.lt_trans hj l.isLt⟩ hj⟩⟩
  rintro ⟨i, hi, rfl, h⟩ j hj
  exact h j.val hj
theorem mspLink_eq_none_iff : s.mspLink m = none ↔ ∀ j, (s.link j).mdcsel.toNat ≠ m.val + 1 := by
  simp [mspLink, mspLinks]
theorem mspOpen_iff : s.mspOpen m = true ↔ ∃ l, s.Binds m l ∧ (s.link l).en = true ∧ (s.link l).fenced = false := by
  simp [mspOpen, Option.any_eq_true, mspLink_eq_some_iff]

theorem mspOpen_eq_false (h : ¬∃ l, s.Binds m l ∧ (s.link l).en = true ∧ (s.link l).fenced = false) : s.mspOpen m = false :=
  Bool.eq_false_iff.2 (mt mspOpen_iff.1 h)
theorem mspOpen_of_shut (hl : s.Binds m l) (h : (s.link l).fenced = true ∨ (s.link l).en = false) :
    s.mspOpen m = false := by
  rw [mspOpen, mspLink_eq_some_iff.2 hl]
  obtain h | h := h <;> simp [h]

theorem mspOpen_of_unbound (h : ∀ j, (s.link j).mdcsel.toNat ≠ m.val + 1) : s.mspOpen m = false :=
  mspOpen_eq_false fun ⟨l, hl, _⟩ => h l hl.1

/-! ## Reception (18 R687, R688) -/

theorem flagOctet_step (s : State) (m : Fin 2) : MspStep m (Msp.flagPassed (s.mspOpen m)) s (s.mspFlagOctet m) :=
  .sets (Msp.sets_flagPassed _)

/-- A port discards a frame as its closing flag comes; the flag may then go on alone. -/
def mspDrop (s : State) (m : Fin 2) (why : BitVec 9) : State := (s.mspRun m (Msp.dropped false why)).mspFlagOctet m

theorem drop_step (s : State) (m : Fin 2) (why : BitVec 9) :
    MspStep m (fun x => (x.dropped false why).flagPassed (s.mspOpen m)) s (s.mspDrop m why) :=
  (MspStep.sets (Msp.sets_dropped false why)).trans (flagOctet_step (s.mspRun m (Msp.dropped false why)) m)

theorem rxFrame_off (h : (s.mspm m).en = false) : s.mspRxFrame m = s := if_pos (by simp [h])
theorem rxByte_off (h : (s.mspm m).en = false) (b : Byte) (ferr : Bool) : s.mspRxByte m b ferr = s := if_pos (by simp [h])

section
variable (hen : (s.mspm m).en = true)
include hen

/-- The flag that ends a frame being discarded. -/
theorem rxFrame_bad (h : (s.mspm m).rxBad = true) :
    MspStep m (fun x => ({ x with rxBad := false } : Msp).flagPassed (s.mspOpen m)) s (s.mspRxFrame m) := by
  have heq : s.mspRxFrame m = (s.mspRun m fun x => { x with rxBad := false }).mspFlagOctet m :=
    (if_neg (by simp [hen])).trans (if_pos h)
  rw [heq]
  exact (MspStep.sets (Msp.sets_zero fun _ _ => rfl)).trans
    (flagOctet_step (s.mspRun m fun x => { x with rxBad := false }) m)

theorem rxByte_flag : s.mspRxByte m 0x7E false =
    if (s.mspm m).rxHeld = 0 ∧ !(s.mspm m).rxBad then s.mspFlagOctet m else s.mspRxFrame m :=
  (if_neg (by simp [hen])).trans (if_pos ⟨rfl, rfl⟩)
/-- A flag that is not outside a frame is the one that ends it. -/
theorem rxByte_flag_closing (h : 0 < (s.mspm m).rxHeld ∨ (s.mspm m).rxBad = true) :
    s.mspRxByte m 0x7E false = s.mspRxFrame m :=
  (rxByte_flag hen).trans (if_neg fun ⟨h0, hb⟩ => h.elim (fun h => Nat.ne_of_gt h h0) fun h => by simp [h] at hb)

theorem rxByte_octet {ferr : Bool} (hb : b ≠ 0x7E ∨ ferr = true) : s.mspRxByte m b ferr =
    if (s.mspm m).rxBad then s
    else if ferr then s.mspRun m fun x => (x.dropped true qFERR).settleRts
    else if 256 ≤ (s.mspm m).rx.length then s.mspRun m fun x => (x.dropped true qRXDROP).settleRts
    else if 134 ≤ (s.mspm m).rxHeld then s.mspRun m fun x => (x.dropped true qRXLONG).settleRts
    else s.modMsp m fun x => ({ x with rx := x.rx ++ [b], rxHeld := x.rxHeld + 1 }).settleRts :=
  (if_neg (by simp [hen])).trans (if_neg fun ⟨h, hf⟩ => hb.elim (· h) fun h => by simp [h] at hf)
theorem rxByte_lost {ferr : Bool} (hb : b ≠ 0x7E ∨ ferr = true) (hbad : (s.mspm m).rxBad = true) :
    s.mspRxByte m b ferr = s := (rxByte_octet hen hb).trans (if_pos hbad)

section
variable (hbad : (s.mspm m).rxBad = false)
include hbad

theorem rxFrame_empty (h : (s.mspm m).rxHeld = 0) : s.mspRxFrame m = s :=
  (if_neg (by simp [hen])).trans ((if_neg (by simp [hbad])).trans (if_pos h))
theorem rxByte_flag_alone (h : (s.mspm m).rxHeld = 0) : s.mspRxByte m 0x7E false = s.mspFlagOctet m :=
  (rxByte_flag hen).trans (if_pos ⟨h, by simp [hbad]⟩)

/-! ### The closing flag of a frame -/

section
variable (hheld : 0 < (s.mspm m).rxHeld)
include hheld

theorem rxFrame_held : s.mspRxFrame m = match s.mspLink m with
    | none => s.mspDrop m qUNBOUND
    | some l => if (s.link l).fenced || !(s.link l).en || decide (256 ≤ (s.mspm m).rx.length) then s.mspDrop m qRXDROP
      else s.mspRun m Msp.frameReleased :=
  (if_neg (by simp [hen])).trans ((if_neg (by simp [hbad])).trans (if_neg (Nat.ne_of_gt hheld)))
theorem rxFrame_unbound (h : ∀ j, (s.link j).mdcsel.toNat ≠ m.val + 1) :
    MspStep m (fun x => (x.dropped false qUNBOUND).flagPassed (s.mspOpen m)) s (s.mspRxFrame m) := by
  rw [rxFrame_held hen hbad hheld, mspLink_eq_none_iff.2 h]
  exact drop_step s m qUNBOUND
theorem rxFrame_refused (hl : s.Binds m l)
    (h : ((s.link l).fenced = true ∨ (s.link l).en = false) ∨ 256 ≤ (s.mspm m).rx.length) :
    MspStep m (fun x => (x.dropped false qRXDROP).flagPassed (s.mspOpen m)) s (s.mspRxFrame m) := by
  rw [rxFrame_held hen hbad hheld, mspLink_eq_some_iff.2 hl]
  simp only
  rw [if_pos (by obtain (h | h) | h := h <;> simp [h])]
  exact drop_step s m qRXDROP
theorem rxFrame_released (hl : s.Binds m l) (hf : (s.link l).fenced = false) (he : (s.link l).en = true)
    (hroom : (s.mspm m).rx.length < 256) : MspStep m Msp.frameReleased s (s.mspRxFrame m) := by
  rw [rxFrame_held hen hbad hheld, mspLink_eq_some_iff.2 hl]
  simp only
  rw [if_neg (by simp [hf, he, hroom])]
  exact .sets Msp.sets_frameReleased

end

/-! ### Octets -/

theorem rxByte_framing (b : Byte) : MspStep m (fun x => (x.dropped true qFERR).settleRts) s (s.mspRxByte m b true) := by
  rw [rxByte_octet hen (.inr rfl), if_neg (by simp [hbad]), if_pos rfl]
  exact .sets (Msp.sets_dropped true qFERR).settled

section
variable (hb : b ≠ 0x7E)
include hb

theorem rxByte_sound : s.mspRxByte m b false =
    if 256 ≤ (s.mspm m).rx.length then s.mspRun m fun x => (x.dropped true qRXDROP).settleRts
    else if 134 ≤ (s.mspm m).rxHeld then s.mspRun m fun x => (x.dropped true qRXLONG).settleRts
    else s.modMsp m fun x => ({ x with rx := x.rx ++ [b], rxHeld := x.rxHeld + 1 }).settleRts :=
  (rxByte_octet hen (.inl hb)).trans ((if_neg (by simp [hbad])).trans (if_neg (by decide)))
theorem rxByte_full (h : 256 ≤ (s.mspm m).rx.length) :
    MspStep m (fun x => (x.dropped true qRXDROP).settleRts) s (s.mspRxByte m b false) := by
  rw [rxByte_sound hen hbad hb, if_pos h]
  exact .sets (Msp.sets_dropped true qRXDROP).settled
theorem rxByte_long (hroom : (s.mspm m).rx.length < 256) (h : 134 ≤ (s.mspm m).rxHeld) :
    MspStep m (fun x => (x.dropped true qRXLONG).settleRts) s (s.mspRxByte m b false) := by
  rw [rxByte_sound hen hbad hb, if_neg (Nat.not_le.2 hroom), if_pos h]
  exact .sets (Msp.sets_dropped true qRXLONG).settled
theorem rxByte_taken (hroom : (s.mspm m).rx.length < 256) (h : (s.mspm m).rxHeld < 134) :
    MspStep m (fun x => ({ x with rx := x.rx ++ [b], rxHeld := x.rxHeld + 1 }).settleRts) s (s.mspRxByte m b false) := by
  rw [rxByte_sound hen hbad hb, if_neg (Nat.not_le.2 hroom), if_neg (Nat.not_le.2 h)]
  exact .modMsp s m _

end
end
end

/-! ## Transmission (18 R689) -/

theorem txByte_step (s : State) (m : Fin 2) (cts : Bool) :
    MspStep m (Msp.run (Msp.transmit s.time cts)) s (s.mspTxByte m cts) := MspStep.run s m (Msp.transmit s.time cts)

end State

end Sys2Proof.Machine
end

section
/-!
PROOFS. The SMBus controllers (18 R670–R675, R691): the events they post, and the start and the end of a client's transfer.
-/
namespace Sys2Proof.Machine

namespace State

/-! ## Events posted -/

/-- An event whose CRIT and TYPE are the byte n waits to be admitted to client c. -/
def Told (t : State) (c : Fin 256) (n : Nat) : Prop := ∃ q ∈ t.sc.posted, q.client = c ∧ q.ev.w0.toNat % 256 = n

theorem Told.of_posted {s t : State} {c : Fin 256} {n : Nat} (h : s.Told c n) (k : ∀ q ∈ s.sc.posted, q ∈ t.sc.posted) :
    t.Told c n :=
  have ⟨q, hq, hqc⟩ := h
  ⟨q, k q hq, hqc⟩
theorem Told.of_sc {s t : State} {c : Fin 256} {n : Nat} (h : s.Told c n) (k : t.sc = s.sc) : t.Told c n :=
  h.of_posted fun _ hq => k ▸ hq

theorem eventWord0_crit (seq info : Nat) {type : Nat} (h : type < 128) :
    (eventWord0 seq info true type).toNat % 256 = 128 + type := by
  simp only [eventWord0, packw, List.foldl_cons, List.foldl_nil, b2n, BitVec.toNat_ofNat, if_true]
  omega

theorem posted_postAll (rank type info : Nat) (crit : Bool) (w1 w2 w3 : Word) (cs : List (Fin 256)) (s : State) :
    ∃ qs, (s.postAll rank cs type crit info w1 w2 w3).sc.posted = s.sc.posted ++ qs ∧ qs.map Posted.client = cs ∧
      ∀ q ∈ qs, ∃ seq, q.ev.w0 = eventWord0 seq info crit type := by
  induction cs generalizing s with
  | nil => exact ⟨[], by simp [postAll]⟩
  | cons c cs ih =>
    obtain ⟨qs, hqs, hcs, htype⟩ := ih (s.post rank c type crit info w1 w2 w3)
    refine ⟨{ client := c, ev := { w0 := eventWord0 (s.client c).seq.toNat info crit type, w1, w2, w3 }
              at_ := s.time, rank } :: qs, hqs.trans (List.append_assoc _ _ _), congrArg (c :: ·) hcs, ?_⟩
    simp only [List.mem_cons, forall_eq_or_imp]
    exact ⟨⟨_, rfl⟩, htype⟩

theorem told_postAll {rank type info : Nat} {w1 w2 w3 : Word} {cs : List (Fin 256)} {c : Fin 256} (s : State) (hc : c ∈ cs)
    (ht : type < 128) : (s.postAll rank cs type true info w1 w2 w3).Told c (128 + type) := by
  obtain ⟨qs, hqs, rfl, htype⟩ := posted_postAll rank type info true w1 w2 w3 cs s
  obtain ⟨q, hq, rfl⟩ := List.mem_map.1 hc
  obtain ⟨seq, hw⟩ := htype q hq
  exact ⟨q, hqs ▸ List.mem_append_right _ hq, rfl, hw ▸ eventWord0_crit seq info ht⟩

theorem zero_mem_readers (s : State) (cls : Nat) : 0 ∈ s.readers cls := by simp [readers]

theorem only_smbErr (s : State) (k : Fin 2) (kind : Nat) (more : List (Fin 256)) :
    OnlyChanges [.sc] s (s.smbErr k kind more) := only_postAll _ _ _ _ _ _ _ _ _
theorem told_smbErr {s : State} {k : Fin 2} {kind : Nat} {more : List (Fin 256)} {c : Fin 256} (hc : c = 0 ∨ c ∈ more) :
    (s.smbErr k kind more).Told c 0x95 := by
  refine told_postAll s ?_ (by decide)
  by_cases hr : c ∈ s.readers 11
  · exact List.mem_append_left _ hr
  · have hmore : c ∈ more := hc.resolve_left fun h => hr (h ▸ s.zero_mem_readers 11)
    exact List.mem_append_right _ (List.mem_filter.2 ⟨hmore, decide_eq_true hr⟩)

end State

/-! ## The record of one controller -/

namespace Smb

def flagged (b : BitVec 10) (x : Smb) : Smb := { x with flag := x.flag ||| b }
/-- Both lines are released, and the bus check is to run (18 R683). -/
def checked (now : Nat) (x : Smb) : Smb := { x with st := .busy, check := true, checkAt := now, xfer := none }

/-- A client's transfer has started (18 R674). -/
def started (c : Fin 256) (w : Word) (x : Smb) : Smb :=
  { x with st := .busy, owner := c, xfer := some { word := w, owner := c, pack := false } }

/-- The flags of a result code (18 R670–R673). -/
def resultBits (code : Nat) : BitVec 10 :=
  match code with
  | 2 | 3 => uNACK
  | 4 => uTIMEOUT
  | 5 => uPECERR
  | 6 => uARBLOST
  | _ => 0
/-- The result of a transfer of a client (or, with `pack`, of the pack service) is in the registers (18 R670–R675). -/
def entered (code : Nat) (pack : Bool) (data : List Byte) (x : Smb) : Smb :=
  { x with code := .ofNat 4 code, bytes := .ofNat 8 data.length, xfer := none, st := .idle
           nacks := if code = 2 ∨ code = 3 then satInc x.nacks else x.nacks
           tmo := if code = 4 then satInc x.tmo else x.tmo
           data := if code = 1 ∧ !pack then State.putData x.data data else x.data }
/-- The same with the flags of the result, of which DONE is a client's alone. -/
def ended (code : Nat) (pack : Bool) (data : List Byte) (x : Smb) : Smb :=
  (x.entered code pack data).flagged (resultBits code ||| if pack then 0 else uDONE)

theorem bit_flagged {b : BitVec 10} {n : Nat} (hb : bit b n = true) (x : Smb) : bit (x.flagged b).flag n = true :=
  (bit_or _ _ _).trans (by rw [hb, Bool.or_true])
theorem flagged_flagged (a b : BitVec 10) (x : Smb) : (x.flagged a).flagged b = x.flagged (a ||| b) :=
  congrArg (fun c => { x with flag := c }) (BitVec.or_assoc _ _ _)

theorem at_putData (d : Vector Byte 32) (bs : List Byte) (i : Fin 32) :
    at_ (State.putData d (bs.take 32)) i = if i.val < bs.length then bs.getD i.val 0 else at_ d i := by
  simp [at_, State.putData, List.getD_eq_getElem?_getD, Nat.lt_min]

section
variable {x y : Smb} {data : List Byte} {code : Nat}

theorem ended_ok (h : y = x.ended 1 false (data.take 32)) : y.st = .idle ∧ y.xfer = none ∧ y.code = 1 ∧
    y.bytes.toNat = min 32 data.length ∧ y.flag = x.flag ||| 1 ∧
    ∀ i : Fin 32, at_ y.data i = if i.val < data.length then data.getD i.val 0 else at_ x.data i := by
  subst h
  refine ⟨rfl, rfl, rfl, ?_, congrArg (x.flag ||| ·) (by decide), fun i => at_putData x.data data i⟩
  exact (Nat.mod_eq_of_lt (Nat.lt_of_le_of_lt (List.length_take_le 32 data) (by decide))).trans List.length_take
theorem ended_nack (hc : code = 2 ∨ code = 3) (h : y = x.ended code false []) : y.st = .idle ∧ y.xfer = none ∧
    y.code.toNat = code ∧ y.flag = x.flag ||| 3 ∧ y.nacks = satInc x.nacks ∧ y.data = x.data := by
  subst h
  obtain rfl | rfl := hc <;> exact ⟨rfl, rfl, rfl, congrArg (x.flag ||| ·) (by decide), rfl, rfl⟩
theorem ended_error (hc : code = 5 ∨ code = 8) (h : y = x.ended code false []) : y.st = .idle ∧ y.xfer = none ∧
    y.code.toNat = code ∧ bit y.flag 0 = true ∧ (bit y.flag 3 = true ↔ bit x.flag 3 = true ∨ code = 5) := by
  subst h
  obtain rfl | rfl := hc
  · exact ⟨rfl, rfl, rfl, bit_flagged (by decide) _, iff_of_true (bit_flagged (by decide) _) (.inr rfl)⟩
  · refine ⟨rfl, rfl, rfl, bit_flagged (by decide) _, ?_⟩
    have h3 : bit (x.ended 8 false []).flag 3 = (bit x.flag 3 || false) := bit_or _ _ _
    simp [h3]
/-- A result that has released the lines: the bus check is to run. -/
theorem ended_checked {now : Nat} (h : y = (x.ended code false data).checked now) : y.code = .ofNat 4 code ∧
    (y.check = true ∧ y.checkAt = now ∧ y.st = .busy) ∧ y.xfer = none ∧ bit y.flag 0 = true ∧
    ∀ n, bit (resultBits code) n = true → bit y.flag n = true := by
  subst h
  refine ⟨rfl, ⟨rfl, rfl, rfl⟩, rfl, bit_flagged ?_ _, fun n hn => bit_flagged ?_ _⟩
  · exact (bit_or _ _ _).trans (Bool.or_eq_true_iff.2 (.inr (by decide)))
  · exact (bit_or _ _ _).trans (Bool.or_eq_true_iff.2 (.inl hn))

end

end Smb

/-! ## One controller of a state -/

/-- From s to t controller k goes through g, the other stays, and nothing outside the parts ps changes. -/
structure SmbStep (ps : List Part) (k : Fin 2) (g : Smb → Smb) (s t : State) : Prop where
  frame : OnlyChanges ps s t
  others : ∀ j, j ≠ k → t.smbc j = s.smbc j
  here : t.smbc k = g (s.smbc k)

namespace SmbStep
variable {ps qs : List Part} {k : Fin 2} {f g : Smb → Smb} {s t u : State}

theorem trans (h : SmbStep ps k f s t) (h' : SmbStep ps k g t u) : SmbStep ps k (fun x => g (f x)) s u :=
  ⟨h.frame.both h'.frame, fun j hj => (h'.others j hj).trans (h.others j hj), h'.here.trans (congrArg g h.here)⟩
theorem mono (h : SmbStep ps k g s t) (hps : ∀ p ∈ ps, p ∈ qs) : SmbStep qs k g s t := ⟨h.frame.mono hps, h.others, h.here⟩
theorem congr (h : SmbStep ps k f s t) (hg : f (s.smbc k) = g (s.smbc k)) : SmbStep ps k g s t :=
  ⟨h.frame, h.others, h.here.trans hg⟩

/-- A change of other parts leaves both controllers. -/
theorem of_only (h : OnlyChanges ps s t) (hps : Part.smb ∉ ps) (k : Fin 2) : SmbStep ps k id s t :=
  have hsmb : ∀ j, t.smbc j = s.smbc j := fun j => congrArg (at_ · j) (h .smb hps)
  ⟨h, fun j _ => hsmb j, hsmb k⟩
theorem modSmb (s : State) (k : Fin 2) (g : Smb → Smb) : SmbStep [.smb] k g s (s.modSmb k g) :=
  ⟨s.only_modSmb k g, fun _ hj => at_vset_ne _ _ hj.symm, s.smbc_modSmb_self k g⟩
theorem flag (s : State) (k : Fin 2) (b : BitVec 10) : SmbStep [.smb] k (·.flagged b) s (s.smbFlag k b) :=
  have h := modSmb s k (·.flagged b)
  ⟨h.frame.both (State.only_hwSet _ _ _ _), h.others, h.here⟩
theorem then_modSmb (h : SmbStep ps k f s t) (g : Smb → Smb) (hps : ∀ p ∈ [Part.smb], p ∈ ps := by decide) :
    SmbStep ps k (fun x => g (f x)) s (t.modSmb k g) := h.trans ((modSmb t k g).mono hps)
theorem then_flag (h : SmbStep ps k f s t) (b : BitVec 10) (hps : ∀ p ∈ [Part.smb], p ∈ ps := by decide) :
    SmbStep ps k (fun x => (f x).flagged b) s (t.smbFlag k b) := h.trans ((flag t k b).mono hps)
/-- A change of other parts after a step. -/
theorem then_only (h : SmbStep ps k f s t) (hu : OnlyChanges qs t u) (hsmb : Part.smb ∉ qs := by decide)
    (hps : ∀ p ∈ qs, p ∈ ps := by decide) : SmbStep ps k f s u := h.trans ((of_only hu hsmb k).mono hps)
theorem check (k : Fin 2) {now : Nat} (h : s.time = now) : SmbStep [.smb] k (·.checked now) s (s.smbCheck k) :=
  h ▸ modSmb s k _
theorem time (h : SmbStep ps k g s t) (hps : Part.time ∉ ps) : t.time = s.time := h.frame .time hps

theorem bit_flag {b : BitVec 10} {n : Nat} (h : SmbStep ps k (fun x => (f x).flagged b) s t) (hb : bit b n = true) :
    bit (t.smbc k).flag n = true := by
  rw [h.here]
  exact Smb.bit_flagged hb _
theorem completes {c : Instr} {e : State → State} {Q : State → Prop} (h : SmbStep ps k g s t)
    (hc : exec c s = .next (s.whenUp s.pwr.pd1Up e)) (hup : s.pwr.pd1Up = true) (he : e s = t)
    (hQ : t.smbc k = g (s.smbc k) → Q t) : Completes c s ps fun t => (∀ j, j ≠ k → t.smbc j = s.smbc j) ∧ Q t :=
  completes_live hc hup he ⟨h.others, hQ h.here⟩ h.frame

end SmbStep

namespace State
variable {s : State} {k : Fin 2} {y : SmbXfer} {data : List Byte}

/-! ## The start of a client's transfer (18 R674) -/

section
variable {c : Fin 256} {w : Word}

theorem smbXfer_refused (h : (s.smbc k).st ≠ .idle ∨ (s.smbc k).fenced = true ∨ (k = 0 ∧ s.pack.en = true) ∨
    (fld w 27 23 ≠ 0 ∧ fld w 31 29 ≠ 6)) : SmbStep [.smb] k (·.flagged uWWR) s (s.smbXfer k c w) := by
  rw [show s.smbXfer k c w = s.smbFlag k uWWR from if_pos h]
  exact .flag s k uWWR
theorem smbXfer_started (h : ¬((s.smbc k).st ≠ .idle ∨ (s.smbc k).fenced = true ∨ (k = 0 ∧ s.pack.en = true) ∨
    (fld w 27 23 ≠ 0 ∧ fld w 31 29 ≠ 6))) : SmbStep [.smb] k (·.started c w) s (s.smbXfer k c w) := by
  rw [show s.smbXfer k c w = s.modSmb k (·.started c w) from if_neg h]
  exact .modSmb s k _

end

/-! ## The end of a transfer (18 R670–R675, R691) -/

theorem smbEnd_none (h : (s.smbc k).xfer = none) (code : Nat) (data : List Byte) : s.smbEnd k code data = s := by
  rw [smbEnd, h]
theorem smbTimeout_none (h : (s.smbc k).xfer = none) : s.smbTimeout k = s := by rw [smbTimeout, h]
theorem smbAbort_none (h : (s.smbc k).xfer = none) : s.smbAbort k = s := by rw [smbAbort, h]
theorem smbEnd_unnamed {code : Nat} (h : ¬(code = 1 ∨ code = 2 ∨ code = 3 ∨ code = 5 ∨ code = 6 ∨ code = 8)) :
    s.smbEnd k code data = s := by
  unfold smbEnd
  split
  · rfl
  · exact if_neg h

section
variable (hx : (s.smbc k).xfer = some y)
include hx

theorem smbEnd_some {code : Nat} (h : code = 1 ∨ code = 2 ∨ code = 3 ∨ code = 5 ∨ code = 6 ∨ code = 8) :
    s.smbEnd k code data = s.smbResult k code y (if code = 1 then data.take 32 else []) := by
  rw [smbEnd, hx]
  exact if_pos h
theorem smbTimeout_some : s.smbTimeout k = s.smbResult k 4 y [] := by rw [smbTimeout, hx]
theorem smbAbort_some : s.smbAbort k = s.smbResult k 7 y [] := by rw [smbAbort, hx]

end

/-- The result is in the registers, and neither event, bus check nor pack service has followed yet. -/
def resulted (s : State) (k : Fin 2) (code : Nat) (y : SmbXfer) (data : List Byte) : State :=
  (s.modSmb k (·.entered code y.pack data)).smbFlag k (Smb.resultBits code ||| if y.pack then 0 else uDONE)

theorem resulted_step (s : State) (k : Fin 2) (code : Nat) (y : SmbXfer) (data : List Byte) :
    SmbStep [.smb] k (·.ended code y.pack data) s (s.resulted k code y data) :=
  (SmbStep.modSmb s k (·.entered code y.pack data)).then_flag _

theorem smbResult_eq (s : State) (k : Fin 2) (code : Nat) (y : SmbXfer) (data : List Byte) :
    s.smbResult k code y data =
      let u := s.resulted k code y data
      let v := if code = 4 then u.smbErr k 1 (if y.pack then [] else [y.owner]) else u
      let w := if code = 4 ∨ code = 6 ∨ code = 7 then v.smbCheck k else v
      if y.pack then w.packResult code data else w := rfl

section
variable (hy : y.pack = false)
include hy

theorem result_step {code : Nat} (h4 : code ≠ 4) (h6 : code ≠ 6) (h7 : code ≠ 7) :
    SmbStep [.smb] k (·.ended code false data) s (s.smbResult k code y data) := by
  have heq : s.smbResult k code y data = s.resulted k code y data := by simp [smbResult_eq, hy, h4, h6, h7]
  rw [heq, ← hy]
  exact resulted_step s k code y data
/-- A result that asks for no bus check ends a client's transfer. -/
theorem transferEnd_step {code : Nat} (hx : (s.smbc k).xfer = some y)
    (hc : code = 1 ∨ code = 2 ∨ code = 3 ∨ code = 5 ∨ code = 8) :
    SmbStep [.smb] k (·.ended code false (if code = 1 then data.take 32 else [])) s (s.smbEnd k code data) := by
  rw [smbEnd_some hx (by omega)]
  exact result_step hy (by omega) (by omega) (by omega)
theorem result_checks {code : Nat} (h : code = 6 ∨ code = 7) :
    SmbStep [.smb] k (fun x => (x.ended code false data).checked s.time) s (s.smbResult k code y data) := by
  have heq : s.smbResult k code y data = (s.resulted k code y data).smbCheck k := by
    obtain rfl | rfl := h <;> simp [smbResult_eq, hy]
  rw [heq, ← hy]
  have hstep := resulted_step s k code y data
  exact hstep.trans (.check k (hstep.time (by decide)))
theorem result_timeout : SmbStep [.sc, .smb] k (fun x => (x.ended 4 false data).checked s.time) s (s.smbResult k 4 y data) ∧
    (s.smbResult k 4 y data).Told y.owner 0x95 ∧ (s.smbResult k 4 y data).Told 0 0x95 := by
  let u := s.resulted k 4 y data
  have heq : s.smbResult k 4 y data = (u.smbErr k 1 [y.owner]).smbCheck k := by simp [smbResult_eq, hy, u]
  rw [heq, ← hy]
  have hstep := ((resulted_step s k 4 y data).mono (qs := [.sc, .smb]) (by decide)).then_only
    (only_smbErr u k 1 [y.owner])
  have hcheck := SmbStep.check k (hstep.time (by decide))
  have told {c : Fin 256} (hc : c = 0 ∨ c ∈ [y.owner]) : ((u.smbErr k 1 [y.owner]).smbCheck k).Told c 0x95 :=
    (told_smbErr hc).of_sc (hcheck.frame .sc (by decide))
  exact ⟨hstep.trans (hcheck.mono (by decide)), told (.inr (List.mem_singleton.2 rfl)), told (.inl rfl)⟩

end

end State

end Sys2Proof.Machine
end

section
/-!
PROOFS. The pack service (18 R673, R676–R682; 19 R701): how it starts a transaction, takes a result, and stops.
-/
namespace Sys2Proof.Machine

/-! ## The transactions -/

theorem PackStep.xfer_swap0 (p : Pack) : PackStep.xfer p (.swap 0) = 0xB00B1C00 := by
  change packXfer 5 0x1C 1 = 0xB00B1C00
  decide
theorem PackStep.xfer_swap1 (p : Pack) : PackStep.xfer p (.swap 1) = 0xB00B1B00 := by
  change packXfer 5 0x1B 1 = 0xB00B1B00
  decide
theorem PackStep.xfer_poll0 (p : Pack) : PackStep.xfer p (.poll 0) = 0xB00B1C00 := by
  change packXfer 5 0x1C 1 = 0xB00B1C00
  decide
/-- Of the pack service, a transaction goes by SMB_PCFG alone. -/
theorem PackStep.xfer_congr {p q : Pack} (h : p.cfg = q.cfg) (t : PackStep) : PackStep.xfer p t = PackStep.xfer q t := by
  have hcmd : p.authCmd = q.authCmd := congrArg (fld · 15 8) h
  unfold PackStep.xfer
  rw [hcmd]

namespace Pack

/-- The transaction of step t begins; the first of a read shows READING, that of an authentication AUTHING (18 R677). -/
def begun (t : PackStep) (p : Pack) : Pack :=
  match t with
  | .swap 0 => { p with st := .reading, auth := 0, reason := 0, key := 0, wait := .nothing }
  | .auth 0 => { p with st := .authing, wait := .nothing }
  | _ => { p with wait := .nothing }
/-- The service is at step t and waits for the bus. -/
def goes (t : PackStep) (p : Pack) : Pack := { p with step := some t, wait := .bus, attempts := 0 }
/-- A swap read is about to start (18 R677). -/
def restarted (now : Nat) (p : Pack) : Pack :=
  { p with swaps := p.swaps + 1, again := false, authTries := 0, chal := [], sig := [], got := [], held := none
           pollAt := now }
/-- After a failed result, the transaction is to be made once more (18 R678). -/
def retries (now : Nat) (p : Pack) : Pack := { p with wait := .retry, waitAt := now, attempts := p.attempts + 1 }
/-- The pack does not answer (18 R678). -/
def absent (p : Pack) : Pack := { p with st := .noPack, auth := 2, reason := 1, step := none, wait := .nothing }

theorem cfg_begun (t : PackStep) (p : Pack) : (p.begun t).cfg = p.cfg := by unfold begun; split <;> rfl
theorem step_begun (t : PackStep) (p : Pack) : (p.begun t).step = p.step := by unfold begun; split <;> rfl

end Pack

/-- The pack service goes through g and starts a transaction on SMB0 with the SMB_XFER word w. -/
structure PackBegins (g : Pack → Pack) (w : Word) (s t : State) : Prop where
  frame : OnlyChanges [.smb, .pack] s t
  pack : t.pack = g s.pack
  busy : (t.smbc 0).st = .busy
  xfer : (t.smbc 0).xfer = some { word := w, owner := 0, pack := true }

theorem PackBegins.after (f : Pack → Pack) {g : Pack → Pack} {w : Word} {s t : State} (h : PackBegins g w (s.modPack f) t) :
    PackBegins (fun p => g (f p)) w s t :=
  ⟨((s.only_modPack f).mono (by decide)).both h.frame, h.pack, h.busy, h.xfer⟩

namespace State
variable {s : State}

/-! ## Starts -/

theorem packKick_none (h : s.pack.step = none) : s.packKick = s := by simp [packKick, h]

/-- The bus is free for the pack service, and the supervisor runs. -/
structure PackFree (s : State) : Prop where
  sup : s.flt.supReset = false
  idle : (s.smbc 0).st = .idle
  unfenced : (s.smbc 0).fenced = false

theorem PackFree.modPack (h : s.PackFree) (f : Pack → Pack) : (s.modPack f).PackFree := ⟨h.sup, h.idle, h.unfenced⟩

theorem packKick_begins (h : s.PackFree) {t : PackStep} (ht : s.pack.step = some t) (hw : s.pack.wait = .bus) :
    PackBegins (·.begun t) (t.xfer s.pack) s s.packKick := by
  have heq : s.packKick = (s.modPack fun _ => s.pack.begun t).modSmb 0 fun x =>
      { x with st := .busy, xfer := some { word := t.xfer (s.pack.begun t), owner := 0, pack := true } } := by
    rw [packKick, if_neg (by simp [h.sup]), ht, hw]
    exact if_pos ⟨h.idle, by simp [h.unfenced]⟩
  have hsmb := smbc_modSmb_self (s.modPack fun _ => s.pack.begun t) 0 fun x =>
      { x with st := .busy, xfer := some { word := t.xfer (s.pack.begun t), owner := 0, pack := true } }
  rw [heq, ← PackStep.xfer_congr (Pack.cfg_begun t s.pack) t]
  exact ⟨((only_modPack _ _).trans (only_modSmb _ _ _)).mono (by decide), rfl, congrArg Smb.st hsmb, congrArg Smb.xfer hsmb⟩
/-- The service changes by f and goes to step t, whose transaction starts at once. -/
theorem packGo_begins (h : s.PackFree) (f : Pack → Pack) (t : PackStep) {w : Word} (hw : t.xfer (f s.pack) = w) :
    PackBegins (fun p => ((f p).goes t).begun t) w s ((s.modPack f).packGo t) := by
  have hkick : PackBegins (·.begun t) (t.xfer ((f s.pack).goes t)) ((s.modPack f).modPack (·.goes t))
      ((s.modPack f).packGo t) := packKick_begins ((h.modPack f).modPack (·.goes t)) rfl rfl
  rw [PackStep.xfer_congr (show ((f s.pack).goes t).cfg = (f s.pack).cfg from rfl) t, hw] at hkick
  exact (hkick.after (·.goes t)).after f
theorem packStart_begins (h : s.PackFree) :
    PackBegins (fun p => ((p.restarted s.time).goes (.swap 0)).begun (.swap 0)) 0xB00B1C00 s s.packStart :=
  packGo_begins h (·.restarted s.time) (.swap 0) (PackStep.xfer_swap0 _)

/-! ## The commands (18 R677–R679, R682) -/

theorem packTrigger_off (h : s.pack.en = false) : s.packTrigger = s := if_pos (by simp [h])
theorem packTrigger_later (hen : s.pack.en = true)
    (h : s.flt.supReset = true ∨ ∃ z, (s.smbc 0).xfer = some z ∧ z.pack = true) :
    s.packTrigger = s.modPack fun p => { p with again := true } := by
  refine (if_neg (by simp [hen])).trans (if_pos ?_)
  obtain h | ⟨z, hz, hp⟩ := h
  · simp [h]
  · simp [hz, hp]
theorem packTrigger_now (hen : s.pack.en = true) (h : s.PackFree) (hx : (s.smbc 0).xfer = none) :
    s.packTrigger = s.packStart := (if_neg (by simp [hen])).trans (if_neg (by simp [hx, h.sup]))

theorem packRetry_waits (h : ¬(s.pack.wait = .retry ∧ s.pack.waitAt + 4000000 ≤ s.time)) : s.packRetry = s := if_neg h
theorem packAuthWait_waits (h : ¬(s.pack.wait = .auth ∧ s.pack.waitAt + 200000 * fld s.pack.cfg 31 24 ≤ s.time)) :
    s.packAuthWait = s := if_neg h
/-- A wait of the pack service is over, and its step's transaction is made. -/
theorem waited_begins (h : s.PackFree) {t : PackStep} (ht : s.pack.step = some t) :
    PackBegins (fun p => ({ p with wait := .bus } : Pack).begun t) (t.xfer s.pack) s
      (s.modPack fun p => { p with wait := .bus }).packKick := by
  have hkick := packKick_begins (h.modPack fun p => { p with wait := .bus }) (t := t) ht rfl
  rw [PackStep.xfer_congr (show (s.modPack fun p => { p with wait := .bus }).pack.cfg = s.pack.cfg from rfl) t] at hkick
  exact hkick.after _

theorem packPoll_idle (h : s.pack.en = false ∨ s.pack.step ≠ none ∨ (s.pack.st ≠ .ready ∧ s.pack.st ≠ .noPack) ∨
    s.flt.supReset = true ∨ s.time < s.pack.pollAt + 200000000 * fld s.pack.cfg 23 16) : s.packPoll = s := by
  obtain h | h | ⟨hr, hn⟩ | h | h := h
  · exact if_pos (by simp [h])
  · exact if_pos (by simp [Option.isSome_iff_ne_none.2 h])
  · rw [packPoll]
    split
    · rfl
    · split
      · next hst => exact absurd hst hr
      · next hst => exact absurd hst hn
      · rfl
  · exact if_pos (by simp [h])
  · exact if_pos (by simp [h])

section
variable (hen : s.pack.en = true) (hstep : s.pack.step = none) (h : s.PackFree)
  (hdue : s.pack.pollAt + 200000000 * fld s.pack.cfg 23 16 ≤ s.time)
include hen hstep h hdue

theorem packPoll_due : s.packPoll = match s.pack.st with
    | .ready => (s.modPack fun p => { p with got := [], pollAt := s.time }).packGo (.poll 0)
    | .noPack => s.packStart
    | _ => s := if_neg (by simp [hen, hstep, h.sup, hdue])
theorem packPoll_ready (hst : s.pack.st = .ready) :
    PackBegins (fun p => (({ p with got := [], pollAt := s.time } : Pack).goes (.poll 0)).begun (.poll 0)) 0xB00B1C00 s
      s.packPoll := by
  rw [packPoll_due hen hstep h hdue, hst]
  exact packGo_begins h (fun p => { p with got := [], pollAt := s.time }) (.poll 0) (PackStep.xfer_poll0 _)
theorem packPoll_noPack (hst : s.pack.st = .noPack) : s.packPoll = s.packStart := by
  rw [packPoll_due hen hstep h hdue, hst]

end

/-! ## PACK is posted (18 R681, R685) -/

/-- The event of packPost is posted, and its flag is not set yet. -/
theorem packPost_eq (s : State) : ∃ u, OnlyChanges [.sc] s u ∧ u.Told 0 0x94 ∧ (∀ q ∈ s.sc.posted, q ∈ u.sc.posted) ∧
    s.packPost = u.smbFlag 0 uPACK := by
  refine ⟨_, only_postAll s _ _ _ _ _ _ _ _, told_postAll s (s.zero_mem_readers 11) (by decide), fun q hq => ?_, rfl⟩
  obtain ⟨qs, hqs, -⟩ := posted_postAll 4 _ _ true _ _ _ (s.readers 11) s
  exact hqs ▸ List.mem_append_left _ hq
theorem packPost_step (s : State) : SmbStep [.sc, .smb] 0 (·.flagged uPACK) s s.packPost := by
  obtain ⟨u, hu, -, -, heq⟩ := s.packPost_eq
  rw [heq]
  exact ((SmbStep.of_only hu (by decide) 0).mono (by decide)).trans ((SmbStep.flag u 0 uPACK).mono (by decide))
theorem told_packPost (s : State) : s.packPost.Told 0 0x94 := by
  obtain ⟨u, -, hu, -, heq⟩ := s.packPost_eq
  exact heq ▸ hu
theorem posted_packPost (s : State) : ∀ q ∈ s.sc.posted, q ∈ s.packPost.sc.posted := by
  obtain ⟨u, -, -, hu, heq⟩ := s.packPost_eq
  exact heq ▸ hu

/-! ## Results (18 R677, R678) -/

section
variable {data : List Byte} {code : Nat} (hstep : s.pack.step = some (.swap 0)) (hsup : s.flt.supReset = false)
  (hagain : s.pack.again = false)
include hstep hsup hagain

theorem packResult_ok : s.packResult 1 data =
    (s.modPack (·.store 0x1C (bytesWord (data.take 2)))).packGo (.swap 1) := by
  rw [packResult, hstep]
  exact (if_neg (by simp [hsup])).trans ((if_neg (by simp [hagain])).trans (if_pos rfl))
theorem packResult_bad (h : code ≠ 1) : s.packResult code data =
    if s.pack.attempts + 1 < 3 then s.modPack (·.retries s.time) else s.packFail code := by
  rw [packResult, hstep]
  exact (if_neg (by simp [hsup])).trans ((if_neg (by simp [hagain])).trans (if_neg h))

theorem packResult_again (h : code ≠ 1) (hmore : s.pack.attempts < 2) :
    s.packResult code data = s.modPack (·.retries s.time) :=
  (packResult_bad hstep hsup hagain h).trans (if_pos (by omega))
theorem packResult_fail (h : code ≠ 1) (hlast : 2 ≤ s.pack.attempts) : s.packResult code data = s.packFail code :=
  (packResult_bad hstep hsup hagain h).trans (if_neg (by omega))

end

/-- A pack transaction ends with a result that asks for no bus check: the pack service takes it (18 R677). -/
theorem packEnd_eq {y : SmbXfer} {data : List Byte} {code : Nat} (hx : (s.smbc 0).xfer = some y) (hy : y.pack = true)
    (h : code = 1 ∨ code = 2) :
    let read := if code = 1 then data.take 32 else []
    s.smbEnd 0 code data = (s.resulted 0 code y read).packResult code read := by
  intro read
  rw [smbEnd_some hx (by omega), smbResult_eq]
  obtain rfl | rfl := h <;> simp [hy, read]

section
variable {y : SmbXfer} {data : List Byte} (hx : (s.smbc 0).xfer = some y) (hy : y.pack = true)
  (hstep : s.pack.step = some (.swap 0)) (hsup : s.flt.supReset = false) (hagain : s.pack.again = false)
include hx hy hstep hsup hagain

theorem packEnd_ok (hf : (s.smbc 0).fenced = false) : PackBegins
    (fun p => ((p.store 0x1C (bytesWord (data.take 2))).goes (.swap 1)).begun (.swap 1)) 0xB00B1B00 s
    (s.smbEnd 0 1 data) := by
  have hu := s.resulted_step 0 1 y (data.take 32)
  have hpack := hu.frame .pack (by decide)
  have hsup' := (congrArg Flt.supReset (hu.frame .flt (by decide))).trans hsup
  have hfree : (s.resulted 0 1 y (data.take 32)).PackFree :=
    ⟨hsup', congrArg Smb.st hu.here, (congrArg Smb.fenced hu.here).trans hf⟩
  have htake : (data.take 32).take 2 = data.take 2 := by rw [List.take_take]; rfl
  have hbegins := packGo_begins hfree (·.store 0x1C (bytesWord (data.take 2))) (.swap 1) (PackStep.xfer_swap1 _)
  rw [packEnd_eq hx hy (.inl rfl), if_pos rfl,
    packResult_ok (hpack ▸ hstep) hsup' (hpack ▸ hagain), htake]
  exact ⟨(hu.frame.mono (by decide)).both hbegins.frame, hpack ▸ hbegins.pack, hbegins.busy, hbegins.xfer⟩

theorem packEnd_again (hmore : s.pack.attempts < 2) :
    OnlyChanges [.smb, .pack] s (s.smbEnd 0 2 data) ∧ (s.smbEnd 0 2 data).pack = s.pack.retries s.time := by
  have hu := s.resulted_step 0 2 y []
  have hpack := hu.frame .pack (by decide)
  have hsup' := (congrArg Flt.supReset (hu.frame .flt (by decide))).trans hsup
  rw [packEnd_eq hx hy (.inr rfl), if_neg (by decide),
    packResult_again (hpack ▸ hstep) hsup' (hpack ▸ hagain) (by decide) (hpack ▸ hmore), hu.time (by decide)]
  exact ⟨(hu.frame.mono (by decide)).both ((only_modPack _ _).mono (by decide)), congrArg (Pack.retries s.time) hpack⟩

theorem packEnd_fail (hlast : 2 ≤ s.pack.attempts) :
    OnlyChanges [.sc, .smb, .pack] s (s.smbEnd 0 2 data) ∧ (s.smbEnd 0 2 data).pack = s.pack.absent ∧
      bit ((s.smbEnd 0 2 data).smbc 0).flag 9 = true ∧ (s.smbEnd 0 2 data).Told 0 0x94 := by
  have hu := s.resulted_step 0 2 y []
  have hpack := hu.frame .pack (by decide)
  have hsup' := (congrArg Flt.supReset (hu.frame .flt (by decide))).trans hsup
  have heq : s.smbEnd 0 2 data = ((s.resulted 0 2 y []).modPack Pack.absent).packPost := by
    rw [packEnd_eq hx hy (.inr rfl), if_neg (by decide),
      packResult_fail (hpack ▸ hstep) hsup' (hpack ▸ hagain) (by decide) (hpack ▸ hlast)]
    rfl
  have hpost := packPost_step ((s.resulted 0 2 y []).modPack Pack.absent)
  rw [heq]
  exact ⟨((hu.frame.mono (by decide)).both ((only_modPack _ _).mono (by decide))).both (hpost.frame.mono (by decide)),
    (hpost.frame .pack (by decide)).trans (congrArg Pack.absent hpack), SmbStep.bit_flag (f := id) hpost (by decide),
    told_packPost _⟩

end

end State

end Sys2Proof.Machine
end

section
/-!
PROOFS. The bus of an SMBus controller (18 R683–R685, R692–R694, Table 18.3): its check, its clear, and STUCK.
-/
namespace Sys2Proof.Machine

namespace Smb

/-- The bus check is to run again (18 R684). -/
def rechecked (now : Nat) (x : Smb) : Smb := { x with check := true, checkAt := now }
/-- The bus check has sampled SDA (18 R683). -/
def sampled (sda : Bool) (x : Smb) : Smb := { x with check := false, sda := sda }
/-- The bus clear begins (18 Table 18.3). -/
def clearing (x : Smb) : Smb := { x with st := .clear, clears := satInc x.clears }
/-- The bus clear has freed SDA (18 Table 18.3). -/
def cleared (x : Smb) : Smb := ({ x with sda := true } : Smb).flagged uCLEARED
/-- The controller's bus is free. -/
def freed (x : Smb) : Smb := { x with st := .idle, check := false }
/-- The controller's fence has ended (18 R684). -/
def lifted (x : Smb) : Smb := { x with fenced := false, fails := 0 }
/-- FAILS after a bus clear that fails (18 R684). -/
def failCount (now : Nat) (x : Smb) : Nat :=
  if x.fails = 0 then 1 else if x.fails = 1 then 2
  else if decide (x.fails = 3) = true ∨ decide (now ≤ x.firstStuck + 2000000000) = true then 3 else 1
/-- The n-th failure of a bus clear fences the controller (18 R684). -/
def failed (n now : Nat) (x : Smb) : Smb :=
  { x with st := if n = 3 then .lasting else .stuck, fenced := true, fails := .ofNat 2 n
           firstStuck := if n = 1 then now else x.firstStuck }

section
variable {x : Smb} {now : Nat}

theorem failCount_first (h : x.fails = 0) : x.failCount now = 1 := if_pos h
theorem failCount_second (h : x.fails = 1) : x.failCount now = 2 := by simp [failCount, h]
/-- The third failure within 10 s of the first makes LASTING. -/
theorem failCount_third (h : x.fails = 2) (ht : now ≤ x.firstStuck + 2000000000) : x.failCount now = 3 := by
  simp [failCount, h, ht]

end

end Smb

/-- SMB0's fence has stopped the pack service (18 R685). -/
def Pack.stopped (p : Pack) : Pack :=
  { p with st := .busFault, auth := 2, reason := 4, step := none, wait := .nothing, again := false }

/-- From s to t controller k is only flagged, and every event and report waiting in s still waits in t. -/
structure Signals (k : Fin 2) (s t : State) : Prop where
  step : ∃ b, SmbStep [.sc, .smb, .pack, .reports] k (·.flagged b) s t
  posted : ∀ q ∈ s.sc.posted, q ∈ t.sc.posted
  reports : ∀ r ∈ s.reports, r ∈ t.reports

namespace Signals
variable {k : Fin 2} {s t u : State}

theorem refl (k : Fin 2) (s : State) : Signals k s s :=
  ⟨⟨0, .refl _ _, fun _ _ => rfl, by simp [Smb.flagged]⟩, fun _ => id, fun _ => id⟩
theorem trans (h : Signals k s t) (h' : Signals k t u) : Signals k s u := by
  obtain ⟨a, ha⟩ := h.step
  obtain ⟨b, hb⟩ := h'.step
  exact ⟨⟨a ||| b, (ha.trans hb).congr (Smb.flagged_flagged a b _)⟩, fun q hq => h'.posted q (h.posted q hq),
    fun r hr => h'.reports r (h.reports r hr)⟩
theorem flag (k : Fin 2) (s : State) (b : BitVec 10) : Signals k s (s.smbFlag k b) :=
  ⟨⟨b, (SmbStep.flag s k b).mono (by decide)⟩, fun _ => id, fun _ => id⟩
/-- A change outside the controllers that keeps what waits. -/
theorem of_only {ps : List Part} (h : OnlyChanges ps s t) (hps : ∀ p ∈ ps, p ∈ [Part.sc, .pack, .reports])
    (posted : ∀ q ∈ s.sc.posted, q ∈ t.sc.posted) (reports : ∀ r ∈ s.reports, r ∈ t.reports) : Signals k s t :=
  have hstep := SmbStep.of_only (h.mono hps) (by decide) k
  ⟨⟨0, (hstep.mono (by decide)).congr (by simp [Smb.flagged])⟩, posted, reports⟩
theorem err (k : Fin 2) (s : State) (kind : Nat) (more : List (Fin 256)) : Signals k s (s.smbErr k kind more) :=
  have h := s.only_smbErr k kind more
  .of_only h (by decide) (fun q hq => by
    obtain ⟨qs, hqs, -⟩ := State.posted_postAll 4 0x15 _ true _ _ _ _ s
    exact hqs ▸ List.mem_append_left _ hq) (fun _ hr => h .reports (by decide) ▸ hr)
theorem report (k : Fin 2) (s : State) (m n i d : Nat) : Signals k s (s.report m n i d) :=
  .of_only (s.only_report m n i d) (by decide) (fun _ => id) fun _ => List.mem_append_left _
theorem bit_flag (h : Signals k s t) {n : Nat} (hb : bit (s.smbc k).flag n = true) : bit (t.smbc k).flag n = true := by
  obtain ⟨b, hstep⟩ := h.step
  rw [hstep.here]
  exact (bit_or _ _ _).trans (by rw [hb, Bool.true_or])
theorem told (h : Signals k s t) {c : Fin 256} {n : Nat} (hc : s.Told c n) : t.Told c n := hc.of_posted h.posted

end Signals

namespace State
variable {s : State} {k : Fin 2}

/-- SMB0's fence stops the pack service (18 R685). -/
theorem packBusFault_eq (hen : s.pack.en = true) (hst : s.pack.st ≠ .busFault) :
    s.packBusFault = (s.modPack Pack.stopped).packPost := if_neg (by simp [hen, hst])
theorem signals_packBusFault (s : State) : Signals 0 s s.packBusFault := by
  unfold packBusFault
  split
  · exact .refl 0 s
  · have hmod : Signals 0 s (s.modPack Pack.stopped) :=
      .of_only (s.only_modPack _) (by decide) (fun _ => id) fun _ => id
    have hpost := packPost_step (s.modPack Pack.stopped)
    exact hmod.trans ⟨⟨uPACK, hpost.mono (by decide)⟩, posted_packPost _, fun _ hr => hpost.frame .reports (by decide) ▸ hr⟩

/-! ## Enabling, and requests for a check (18 R683, R684, R692, R694) -/

theorem smbEnable_on (h : (s.smbc k).en = true) : s.smbEnable k = s := if_pos h
theorem smbEnable_eq (h : (s.smbc k).en = false) : s.smbEnable k =
    if (s.smbc k).fenced ∧ (s.smbc k).fails = 0 then (s.modSmb k fun x => { x with en := true }).modSmb k fun x =>
      { x with st := .busy } else (s.modSmb k fun x => { x with en := true }).smbCheck k := if_neg (by simp [h])
theorem smbEnable_checks (h : (s.smbc k).en = false) (hf : (s.smbc k).fenced = false ∨ (s.smbc k).fails ≠ 0) :
    SmbStep [.smb] k (fun x => ({ x with en := true } : Smb).checked s.time) s (s.smbEnable k) := by
  rw [smbEnable_eq h, if_neg fun ⟨h1, h2⟩ => hf.elim (fun hf => by simp [hf] at h1) (· h2)]
  exact (SmbStep.modSmb s k _).trans (.check k rfl)
theorem smbEnable_fenced (h : (s.smbc k).en = false) (hf : (s.smbc k).fenced = true) (h0 : (s.smbc k).fails = 0) :
    SmbStep [.smb] k (fun x => { x with en := true, st := .busy }) s (s.smbEnable k) := by
  rw [smbEnable_eq h, if_pos ⟨hf, h0⟩]
  exact (SmbStep.modSmb s k fun x => { x with en := true }).then_modSmb fun x => { x with st := .busy }

theorem smbRetry_waits (h : (s.smbc k).st ≠ .stuck ∨ (s.smbc k).check = true ∨ s.time < (s.smbc k).checkAt + 200000000) :
    s.smbRetry k = s :=
  if_neg fun ⟨hst, hc, ht⟩ => h.elim (· hst) (·.elim (fun h => by simp [h] at hc) fun h => Nat.not_le_of_lt h ht)

theorem smbRetry_due (hst : (s.smbc k).st = .stuck) (hc : (s.smbc k).check = false)
    (ht : (s.smbc k).checkAt + 200000000 ≤ s.time) :
    SmbStep [.smb] k (·.rechecked s.time) s (s.smbRetry k) := by
  rw [show s.smbRetry k = s.modSmb k (·.rechecked s.time) from if_pos ⟨hst, hc, ht⟩]
  exact .modSmb s k _

theorem smbClrStuck_checks (hst : (s.smbc k).st = .stuck ∨ (s.smbc k).st = .lasting) (hc : (s.smbc k).check = false) :
    SmbStep [.smb] k (·.rechecked s.time) s (s.smbClrStuck k) := by
  rw [show s.smbClrStuck k = s.modSmb k (·.rechecked s.time) from (if_pos hst).trans (if_neg (by simp [hc]))]
  exact .modSmb s k _
theorem smbClrStuck_checking (hst : (s.smbc k).st = .stuck ∨ (s.smbc k).st = .lasting) (hc : (s.smbc k).check = true) :
    s.smbClrStuck k = s := (if_pos hst).trans (if_pos hc)
theorem smbClrStuck_ignored (hs : (s.smbc k).st ≠ .stuck) (hl : (s.smbc k).st ≠ .lasting) :
    SmbStep [.smb] k (·.flagged uWWR) s (s.smbClrStuck k) := by
  rw [show s.smbClrStuck k = s.smbFlag k uWWR from if_neg (not_or.2 ⟨hs, hl⟩)]
  exact .flag s k uWWR

/-! ## The bus check (18 R683) -/

/-- A free bus: on SMB0 the pack service may have a transaction to start. -/
theorem smbIdle_step (h : k = 1 ∨ s.pack.step = none) : SmbStep [.smb] k (·.freed) s (s.smbIdle k) := by
  have heq : s.smbIdle k = s.modSmb k (·.freed) := by
    unfold smbIdle
    obtain rfl | h := h
    · rfl
    · have hkick : (s.modSmb k (·.freed)).packKick = s.modSmb k (·.freed) := packKick_none h
      exact (congrArg (fun t => if k = 0 then t else s.modSmb k (·.freed)) hkick).trans (ite_self _)
  rw [heq]
  exact .modSmb s k _
theorem smbLifted_step (s : State) : SmbStep [.smb, .flt] 1 (·.lifted) s (s.smbLifted 1) :=
  ((SmbStep.modSmb s 1 (·.lifted)).mono (by decide)).then_only (only_fltBack _ (unitKey 10 1))

theorem smbBusCheck_waits (h : (s.smbc k).check = false ∨ s.time < (s.smbc k).checkAt + 1000) (sda : Bool) :
    s.smbBusCheck k sda = s := if_pos (by obtain h | h := h <;> simp [h])

section
variable (hc : (s.smbc k).check = true) (ht : (s.smbc k).checkAt + 1000 ≤ s.time)
include hc ht

theorem smbBusCheck_low : SmbStep [.smb] k (fun x => (x.sampled false).clearing) s (s.smbBusCheck k false) := by
  rw [show s.smbBusCheck k false = (s.modSmb k (·.sampled false)).modSmb k (·.clearing) from
    (if_neg (by simp [hc, ht])).trans (if_neg (by decide))]
  exact (SmbStep.modSmb s k (·.sampled false)).then_modSmb (·.clearing)
theorem smbBusCheck_free (hf : (s.smbc k).fenced = false) (h : k = 1 ∨ s.pack.step = none) :
    SmbStep [.smb] k (fun x => (x.sampled true).freed) s (s.smbBusCheck k true) := by
  rw [show s.smbBusCheck k true = (s.modSmb k (·.sampled true)).smbIdle k from
    (if_neg (by simp [hc, ht])).trans ((if_pos rfl).trans (congrArg (smbIdle · k) (if_neg (by simp [hf]))))]
  exact (SmbStep.modSmb s k (·.sampled true)).trans (smbIdle_step h)

end
theorem smbBusCheck_lifted (hc : (s.smbc 1).check = true) (ht : (s.smbc 1).checkAt + 1000 ≤ s.time)
    (hf : (s.smbc 1).fenced = true) :
    SmbStep [.smb, .flt] 1 (fun x => (x.sampled true).lifted.freed) s (s.smbBusCheck 1 true) := by
  rw [show s.smbBusCheck 1 true = ((s.modSmb 1 (·.sampled true)).smbLifted 1).smbIdle 1 from
    (if_neg (by simp [hc, ht])).trans ((if_pos rfl).trans (congrArg (smbIdle · 1) (if_pos hf)))]
  exact (((SmbStep.modSmb s 1 (·.sampled true)).mono (by decide)).trans (smbLifted_step _)).trans
    ((smbIdle_step (.inl rfl)).mono (by decide))

/-! ## The bus clear (18 Table 18.3, R684) -/

/-- A clear that freed SDA sets CLEARED. -/
def smbCleared (s : State) (k : Fin 2) : State := (s.modSmb k fun x => { x with sda := true }).smbFlag k uCLEARED
theorem smbCleared_step (s : State) (k : Fin 2) : SmbStep [.smb] k (·.cleared) s (s.smbCleared k) :=
  (SmbStep.modSmb s k fun x => { x with sda := true }).then_flag uCLEARED

/-- A failed clear fences the controller, sets STUCK and posts its event (18 R684). -/
def stuckTold (s : State) (k : Fin 2) : State :=
  ((s.modSmb k (·.failed ((s.smbc k).failCount s.time) s.time)).smbFlag k uSTUCK).smbErr k 2 []
/-- Then the mechanism reports it. -/
def smbFail (s : State) (k : Fin 2) : State := (s.stuckTold k).report 0x23 10 k.val 0
/-- After that, the clear that makes LASTING is told as such. -/
def smbFailTold (s : State) (k : Fin 2) : State :=
  if (s.smbc k).failCount s.time = 3 ∧ decide ((s.smbc k).fails = 3) = false then
    ((s.smbFail k).smbFlag k uLASTING).smbErr k 3 []
  else s.smbFail k

theorem stuckTold_step (s : State) (k : Fin 2) : SmbStep [.sc, .smb] k
    (fun x => (x.failed ((s.smbc k).failCount s.time) s.time).flagged uSTUCK) s (s.stuckTold k) :=
  (((SmbStep.modSmb s k (·.failed ((s.smbc k).failCount s.time) s.time)).then_flag uSTUCK).mono (by decide)).then_only
    (only_smbErr _ k 2 [])
theorem smbFail_step (s : State) (k : Fin 2) : SmbStep [.sc, .smb, .reports] k
    (fun x => (x.failed ((s.smbc k).failCount s.time) s.time).flagged uSTUCK) s (s.smbFail k) :=
  ((stuckTold_step s k).mono (by decide)).then_only (only_report (s.stuckTold k) 0x23 10 k.val 0)
theorem told_smbFail (s : State) (k : Fin 2) : (s.smbFail k).Told 0 0x95 :=
  have h : (s.stuckTold k).Told 0 0x95 := told_smbErr (.inl rfl)
  h.of_sc (only_report (s.stuckTold k) 0x23 10 k.val 0 .sc (by decide))
theorem report_smbFail (s : State) (k : Fin 2) :
    ∃ r ∈ (s.smbFail k).reports, r.mech = 0x23 ∧ r.kind = 10 ∧ r.index.toNat = k.val ∧ r.at_ = s.time :=
  ⟨_, List.mem_append_right _ (List.mem_singleton_self _), rfl, rfl, Nat.mod_eq_of_lt (Nat.lt_trans k.isLt (by decide)),
    (stuckTold_step s k).time (by decide)⟩

theorem only_smbFailTold (s : State) (k : Fin 2) : OnlyChanges [.sc, .smb, .reports] (s.smbFail k) (s.smbFailTold k) :=
  .ite (((SmbStep.flag (s.smbFail k) k uLASTING).frame.mono (by decide)).both ((only_smbErr _ k 3 []).mono (by decide)))
    (.refl _ _)
theorem signals_smbFailTold (s : State) (k : Fin 2) : Signals k (s.smbFail k) (s.smbFailTold k) := by
  unfold smbFailTold
  split
  · exact (Signals.flag k _ uLASTING).trans (.err k _ 3 [])
  · exact .refl k _
theorem flag_smbFailTold (h3 : (s.smbc k).failCount s.time = 3) (hf : (s.smbc k).fails ≠ 3) :
    bit ((s.smbFailTold k).smbc k).flag 7 = true := by
  rw [smbFailTold, if_pos ⟨h3, decide_eq_false hf⟩]
  exact (Signals.err k _ 3 []).bit_flag (SmbStep.bit_flag (f := id) (SmbStep.flag (s.smbFail k) k uLASTING) (by decide))
/-- On SMB0 the pack service stops with the bus. -/
theorem signals_packStop (s : State) (k : Fin 2) : Signals k s (if k = 0 then s.packBusFault else s) := by
  split
  · next h => exact h ▸ s.signals_packBusFault
  · exact .refl k s

/-- The pulses of a bus clear begin when the check is over. -/
theorem clearTime (n : Nat) (freed : Bool) :
    n + 1000 + (if freed then 4000 else 18000) = n + (if freed then 5000 else 19000) := by
  cases freed <;> simp [Nat.add_assoc]
theorem smbBusClear_waits {freed : Bool}
    (h : (s.smbc k).st ≠ .clear ∨ s.time < (s.smbc k).checkAt + (if freed then 5000 else 19000)) :
    s.smbBusClear k freed = s := if_pos (h.imp_right fun h => clearTime _ freed ▸ h)

section
variable (hst : (s.smbc k).st = .clear)
include hst

theorem clear_due {freed : Bool} (ht : (s.smbc k).checkAt + (if freed then 5000 else 19000) ≤ s.time) :
    ¬((s.smbc k).st ≠ .clear ∨ s.time < (s.smbc k).checkAt + 1000 + (if freed then 4000 else 18000)) :=
  fun h => h.elim (· hst) fun h => Nat.not_le_of_lt (clearTime _ freed ▸ h) ht

section
variable (ht : (s.smbc k).checkAt + 5000 ≤ s.time)
include ht

theorem smbBusClear_free (hf : (s.smbc k).fenced = false) (h : k = 1 ∨ s.pack.step = none) :
    SmbStep [.smb] k (fun x => x.cleared.freed) s (s.smbBusClear k true) := by
  rw [show s.smbBusClear k true = (s.smbCleared k).smbIdle k from (if_neg (clear_due hst (freed := true) ht)).trans
    ((if_pos rfl).trans (congrArg (smbIdle · k) (if_neg (by simp [hf]))))]
  exact (smbCleared_step s k).trans (smbIdle_step h)

end

section
variable (ht : (s.smbc k).checkAt + 19000 ≤ s.time)
include ht

theorem smbBusClear_low : s.smbBusClear k false = if k = 0 then (s.smbFailTold k).packBusFault else s.smbFailTold k :=
  (if_neg (clear_due hst (freed := false) ht)).trans (if_neg (by decide))
theorem signals_clearLow : Signals k (s.smbFail k) (s.smbBusClear k false) := by
  rw [smbBusClear_low hst ht]
  exact (signals_smbFailTold s k).trans (signals_packStop _ k)
theorem step_clearLow : ∃ b, SmbStep [.sc, .smb, .pack, .reports] k
    (fun x => (x.failed ((s.smbc k).failCount s.time) s.time).flagged (uSTUCK ||| b)) s (s.smbBusClear k false) := by
  obtain ⟨b, hb⟩ := (signals_clearLow hst ht).step
  exact ⟨b, (((smbFail_step s k).mono (by decide)).trans hb).congr (Smb.flagged_flagged uSTUCK b _)⟩
theorem lasting_clearLow (h3 : (s.smbc k).failCount s.time = 3) (hf : (s.smbc k).fails ≠ 3) :
    bit ((s.smbBusClear k false).smbc k).flag 7 = true := by
  rw [smbBusClear_low hst ht]
  exact (signals_packStop _ k).bit_flag (flag_smbFailTold h3 hf)

end
end

theorem pack_clearLow (hst : (s.smbc 0).st = .clear) (ht : (s.smbc 0).checkAt + 19000 ≤ s.time)
    (hen : s.pack.en = true) (hp : s.pack.st ≠ .busFault) : (s.smbBusClear 0 false).pack = s.pack.stopped := by
  have hpack : (s.smbFailTold 0).pack = s.pack := ((smbFail_step s 0).frame.both (only_smbFailTold s 0)) .pack (by decide)
  rw [smbBusClear_low hst ht, if_pos rfl, packBusFault_eq (hpack ▸ hen) (hpack ▸ hp)]
  exact ((packPost_step _).frame .pack (by decide)).trans (congrArg Pack.stopped hpack)
theorem smbBusClear_lifted (hst : (s.smbc 1).st = .clear) (ht : (s.smbc 1).checkAt + 5000 ≤ s.time)
    (hf : (s.smbc 1).fenced = true) :
    SmbStep [.smb, .flt] 1 (fun x => x.cleared.lifted.freed) s (s.smbBusClear 1 true) := by
  rw [show s.smbBusClear 1 true = ((s.smbCleared 1).smbLifted 1).smbIdle 1 from
    (if_neg (clear_due hst (freed := true) ht)).trans ((if_pos rfl).trans (congrArg (smbIdle · 1) (if_pos hf)))]
  exact (((smbCleared_step s 1).mono (by decide)).trans (smbLifted_step _)).trans ((smbIdle_step (.inl rfl)).mono (by decide))

end State

end Sys2Proof.Machine
end

section
/-!
PROOFS. The commands of the SMBus controllers, the pack service and the management serial ports (18) (O56).
-/
namespace Sys2Proof.Machine

theorem MspStep.completes {c : Instr} {f : State → State} {m : Fin 2} {g : Msp → Msp} {s t : State} {Q : State → Prop}
    (h : MspStep m g s t) (hc : exec c s = .next (s.whenUp s.pwr.pllLock f)) (hup : s.pwr.pllLock = true) (hf : f s = t)
    (hQ : t.mspm m = g (s.mspm m) → Q t) : Completes c s [.msp] fun t => (∀ j, j ≠ m → t.mspm j = s.mspm j) ∧ Q t :=
  completes_live hc hup hf ⟨h.others, hQ h.here⟩ h.frame

open State

/-- The closing flag of a frame as an octet and as a command of its own. -/
theorem completes_closing {m : Fin 2} {g : Msp → Msp} {s : State} {Q : State → Prop} (hen : (s.mspm m).en = true)
    (hclose : 0 < (s.mspm m).rxHeld ∨ (s.mspm m).rxBad = true) (hup : s.pwr.pllLock = true)
    (h : MspStep m g s (s.mspRxFrame m)) (hQ : (s.mspRxFrame m).mspm m = g (s.mspm m) → Q (s.mspRxFrame m)) :
    ∀ cmd ∈ [Instr.mspRxByte m 0x7E false, .mspRxFrame m],
      Completes cmd s [.msp] fun t => (∀ j, j ≠ m → t.mspm j = s.mspm j) ∧ Q t := by
  simp only [List.mem_cons, List.not_mem_nil, or_false]
  rintro cmd (rfl | rfl)
  · exact h.completes rfl hup (rxByte_flag_closing hen hclose) hQ
  · exact h.completes rfl hup rfl hQ

theorem completes_txByte {m : Fin 2} {cts : Bool} {s : State} {z : Msp} (hup : s.pwr.pllLock = true)
    (hz : (s.mspm m).run (Msp.transmit s.time cts) = z) :
    Completes (.mspTxByte m cts) s [.msp] fun t => (∀ j, j ≠ m → t.mspm j = s.mspm j) ∧ t.mspm m = z :=
  (txByte_step s m cts).completes rfl hup rfl (·.trans hz)

/-- Settles O56: a command of a controller or a port is the step of its one record, and a command of the pack service either
starts the transaction of its next step or is a change of the service alone; each case is its branch of the command. -/
theorem serialCommands : Obligations.SerialCommands := by
  unfold Obligations.SerialCommands
  intro s k c w code data sda y u m b l rest x p others flagged posted checks
  refine ⟨fun hdown cmd hcmd => ?inReset, fun hdown cmd hcmd => ?unclocked, fun hup => ?smb, fun hup => ?ports⟩
  case inReset =>
    simp only [List.mem_cons, List.not_mem_nil, or_false] at hcmd
    obtain rfl | rfl | rfl | rfl | rfl | rfl | rfl | rfl | rfl | rfl | rfl | rfl | rfl | rfl := hcmd <;>
      exact completes_inReset rfl hdown
  case unclocked =>
    simp only [List.mem_cons, List.not_mem_nil, or_false] at hcmd
    obtain rfl | rfl | rfl := hcmd <;> exact completes_inReset rfl hdown
  case smb =>
    refine ⟨?start, fun hx cmd hcmd => ?noTransfer, fun hcode => ?unnamed, fun hx hy => ?ends,
      fun hen => completes_idle rfl (smbEnable_on hen), fun hen hf => ?enabled, fun hen hf h0 => ?enabledFenced,
      fun hst hc ht => ?retry, fun h => completes_idle rfl (smbRetry_waits h), fun hst hc => ?clrStuck,
      fun hst hc => ?clrStuckBusy, fun hs hl => ?clrStuckIgnored, fun h => completes_idle rfl (smbBusCheck_waits h sda),
      fun hc ht => ?check, fun h => completes_idle rfl (smbBusClear_waits h), fun hst ht => ?clear,
      fun hen cmd hcmd => ?packOff, fun hen cmd hcmd => ?packOn, ?packWaits,
      fun h => completes_idle rfl (packPoll_idle (.inr h)), fun hen hstep hsup hdue hst hf => ?poll,
      fun hk hx hy hstep hagain hsup => ?packEnds⟩
    case start =>
      exact ⟨fun h => (smbXfer_refused h).completes rfl hup rfl id, fun h => (smbXfer_started h).completes rfl hup rfl id⟩
    case noTransfer =>
      simp only [List.mem_cons, List.not_mem_nil, or_false] at hcmd
      obtain rfl | rfl | rfl := hcmd
      · exact completes_idle rfl (smbEnd_none hx _ _)
      · exact completes_idle rfl (smbTimeout_none hx)
      · exact completes_idle rfl (smbAbort_none hx)
    case unnamed =>
      refine completes_idle rfl (smbEnd_unnamed fun h => hcode ?_)
      revert code
      decide
    case ends =>
      refine ⟨?ok, fun hcode => ?nack, fun hcode => ?error, ?arbLost, ?timeout, ?abort⟩
      case ok => exact (transferEnd_step hy hx (.inl rfl)).completes rfl hup rfl Smb.ended_ok
      case nack =>
        have hn : code.val = 2 ∨ code.val = 3 := hcode.imp (congrArg Fin.val) (congrArg Fin.val)
        have hstep := transferEnd_step (data := data) hy hx (code := code.val) (by omega)
        rw [if_neg (by omega)] at hstep
        exact hstep.completes rfl hup rfl (Smb.ended_nack hn)
      case error =>
        have hn : code.val = 5 ∨ code.val = 8 := hcode.imp (congrArg Fin.val) (congrArg Fin.val)
        have hstep := transferEnd_step (data := data) hy hx (code := code.val) (by omega)
        rw [if_neg (by omega)] at hstep
        refine hstep.completes rfl hup rfl fun hz => ?_
        obtain ⟨hst, hxfer, hc, h0, h3⟩ := Smb.ended_error hn hz
        exact ⟨hst, hxfer, hc, h0, h3.trans (or_congr_right (Fin.ext_iff (a := code) (b := 5)).symm)⟩
      case arbLost =>
        refine (result_checks hy (.inl rfl)).completes rfl hup (smbEnd_some hx (by decide)) fun hz => ?_
        obtain ⟨hc, hchecks, hxfer, h0, hbits⟩ := Smb.ended_checked hz
        exact ⟨hc, hchecks, hxfer, h0, hbits 4 (by decide)⟩
      case timeout =>
        obtain ⟨hstep, howner, hzero⟩ := result_timeout (k := k) (data := []) hy
        refine hstep.completes rfl hup (smbTimeout_some hx) fun hz => ?_
        obtain ⟨hc, hchecks, hxfer, h0, hbits⟩ := Smb.ended_checked hz
        exact ⟨hc, hchecks, hxfer, congrArg Smb.tmo hz, h0, hbits 2 (by decide), howner, hzero⟩
      case abort =>
        refine (result_checks hy (.inr rfl)).completes rfl hup (smbAbort_some hx) fun hz => ?_
        obtain ⟨hc, hchecks, hxfer, h0, -⟩ := Smb.ended_checked hz
        exact ⟨hc, hchecks, hxfer, h0⟩
    case enabled => exact (smbEnable_checks hen hf).completes rfl hup rfl id
    case enabledFenced => exact (smbEnable_fenced hen hf h0).completes rfl hup rfl id
    case retry => exact (smbRetry_due hst hc ht).completes rfl hup rfl id
    case clrStuck => exact (smbClrStuck_checks hst hc).completes rfl hup rfl id
    case clrStuckBusy => exact completes_idle rfl (smbClrStuck_checking hst hc)
    case clrStuckIgnored => exact (smbClrStuck_ignored hs hl).completes rfl hup rfl id
    case check =>
      refine ⟨(smbBusCheck_low hc ht).completes rfl hup rfl id,
        fun hf h => (smbBusCheck_free hc ht hf h).completes rfl hup rfl id, fun hf hk => ?_⟩
      subst hk
      exact (smbBusCheck_lifted hc ht hf).completes rfl hup rfl id
    case clear =>
      refine ⟨fun hf h => (smbBusClear_free hst ht hf h).completes rfl hup rfl id, fun hf hk => ?lifted, fun ht => ?low⟩
      case lifted =>
        subst hk
        exact (smbBusClear_lifted hst ht hf).completes rfl hup rfl fun hz =>
          ⟨congrArg Smb.fenced hz, congrArg Smb.fails hz, congrArg Smb.st hz,
            (congrArg (fun x : Smb => bit x.flag 6) hz).trans (Smb.bit_flagged (by decide) _)⟩
      case low =>
        obtain ⟨bits, hstep⟩ := step_clearLow hst ht
        have hsignals := signals_clearLow hst ht
        refine hstep.completes rfl hup rfl fun hz => ?_
        refine ⟨congrArg Smb.fenced hz, ?stuck, hsignals.told (told_smbFail s k), ?reported, fun h0 => ?first,
          fun h1 => ?second, fun h2 hin => ?third, fun hk hen hp => ?packStops⟩
        case stuck => exact hsignals.bit_flag (SmbStep.bit_flag (smbFail_step s k) (by decide))
        case reported =>
          obtain ⟨r, hr, hfields⟩ := report_smbFail s k
          exact ⟨r, hsignals.reports r hr, hfields⟩
        case first =>
          rw [Smb.failCount_first h0] at hz
          exact ⟨congrArg Smb.st hz, congrArg Smb.fails hz, congrArg Smb.firstStuck hz⟩
        case second =>
          rw [Smb.failCount_second h1] at hz
          exact ⟨congrArg Smb.st hz, congrArg Smb.fails hz⟩
        case third =>
          have h3 := Smb.failCount_third h2 hin
          rw [h3] at hz
          exact ⟨congrArg Smb.st hz, congrArg Smb.fails hz, lasting_clearLow hst ht h3 fun h => by rw [h2] at h; cases h⟩
        case packStops =>
          subst hk
          have hpack := pack_clearLow hst ht hen hp
          exact ⟨congrArg Pack.st hpack, congrArg Pack.auth hpack, congrArg Pack.reason hpack⟩
    case packOff =>
      have hoff : p.en = false := hen
      simp only [List.mem_cons, List.not_mem_nil, or_false] at hcmd
      obtain rfl | rfl | rfl := hcmd
      · exact completes_idle rfl (packTrigger_off hoff)
      · exact completes_idle rfl (packTrigger_off hoff)
      · exact completes_idle rfl (packPoll_idle (.inl hoff))
    case packOn =>
      have hexec : exec cmd s = .next (s.whenUp s.pwr.pd1Up fun s => s.packTrigger) := by
        simp only [List.mem_cons, List.not_mem_nil, or_false] at hcmd
        obtain rfl | rfl := hcmd <;> rfl
      refine ⟨fun h => completes_live hexec hup (packTrigger_later hen h) rfl (only_modPack s _), fun hsup hx hst hf => ?_⟩
      have hbegins := packStart_begins ⟨hsup, hst, hf⟩
      exact completes_live hexec hup (packTrigger_now hen ⟨hsup, hst, hf⟩ hx)
        ⟨congrArg Pack.swaps hbegins.pack, congrArg Pack.st hbegins.pack, congrArg Pack.auth hbegins.pack,
          congrArg Pack.step hbegins.pack, hbegins.busy, _, hbegins.xfer, rfl, rfl⟩ hbegins.frame
    case packWaits =>
      intro retried waited
      refine ⟨fun h => completes_idle rfl (packRetry_waits h), fun h => completes_idle rfl (packAuthWait_waits h),
        fun hstep hsup hst hf cmd hcmd => ?_⟩
      have hbegins := waited_begins ⟨hsup, hst, hf⟩ hstep
      have hkeeps := (congrArg Pack.step hbegins.pack).trans (Pack.step_begun u _)
      obtain ⟨rfl, h⟩ | ⟨rfl, h⟩ := hcmd
      · exact completes_live rfl hup (if_pos h) ⟨hkeeps, hbegins.busy, hbegins.xfer⟩ hbegins.frame
      · exact completes_live rfl hup (if_pos h) ⟨hkeeps, hbegins.busy, hbegins.xfer⟩ hbegins.frame
    case poll =>
      have hfree : s.PackFree := ⟨hsup, hst, hf⟩
      refine ⟨fun hready => ?ready, fun hnone => ?noPack⟩
      case ready =>
        have hbegins := packPoll_ready hen hstep hfree hdue hready
        exact completes_live rfl hup rfl ⟨congrArg Pack.step hbegins.pack, congrArg Pack.pollAt hbegins.pack, hbegins.xfer⟩
          hbegins.frame
      case noPack =>
        have hbegins := packStart_begins hfree
        exact completes_live rfl hup (packPoll_noPack hen hstep hfree hdue hnone)
          ⟨congrArg Pack.step hbegins.pack, congrArg Pack.swaps hbegins.pack, congrArg Pack.pollAt hbegins.pack⟩ hbegins.frame
    case packEnds =>
      subst hk
      refine ⟨fun hf => ?ok, fun hmore => ?again, fun hlast => ?fail⟩
      case ok =>
        have hbegins := packEnd_ok (data := data) hx hy hstep hsup hagain hf
        exact completes_live rfl hup rfl ⟨congrArg Pack.serial hbegins.pack, congrArg Pack.step hbegins.pack, hbegins.xfer⟩
          hbegins.frame
      case again =>
        obtain ⟨honly, hpack⟩ := packEnd_again (data := data) hx hy hstep hsup hagain hmore
        exact completes_live rfl hup rfl hpack honly
      case fail =>
        obtain ⟨honly, hpack, hflag, htold⟩ := packEnd_fail (data := data) hx hy hstep hsup hagain hlast
        exact completes_live rfl hup rfl ⟨congrArg Pack.st hpack, congrArg Pack.auth hpack, congrArg Pack.reason hpack,
          congrArg Pack.step hpack, hflag, htold⟩ honly
  case ports =>
    intro z apart rts put before dropped
    refine ⟨fun hoff => ?off, ?_⟩
    case off =>
      exact ⟨completes_idle rfl (rxByte_off hoff b sda), completes_idle rfl (rxFrame_off hoff),
        completes_txByte hup (Msp.run_transmit_waits (.inl hoff))⟩
    intro binds open_
    have forwarded : open_ → z.rx.length < 256 → z.afterFlag (s.mspOpen m) = z.rx ++ [0x7E] := fun ho hroom =>
      (congrArg (Msp.afterFlag · z) (mspOpen_iff.2 ho)).trans (Msp.afterFlag_forwarded hroom)
    have withheld : ¬open_ ∨ 256 ≤ z.rx.length → z.afterFlag (s.mspOpen m) = z.rx := fun h =>
      Msp.afterFlag_withheld (h.imp_left mspOpen_eq_false)
    refine ⟨fun hen hbad => ?bad, fun hen hbad => ?good, fun hen hflow => ?ctsHigh, fun hen h => ?txWaits,
      fun hen hfree htx => ?txSends⟩
    case ctsHigh => exact completes_txByte hup (Msp.run_transmit_waits (.inr (.inl ⟨hflow, rfl⟩)))
    case txWaits => exact completes_txByte hup (Msp.run_transmit_waits (.inr (.inr h)))
    case txSends =>
      exact ⟨fun hb => completes_txByte hup (Msp.run_transmit_octet hen hfree htx hb),
        fun hb h => completes_txByte hup (Msp.run_transmit_flag hen hfree htx hb h),
        fun hb h => completes_txByte hup (Msp.run_transmit_frame hen hfree htx hb h)⟩
    case bad =>
      refine ⟨completes_idle rfl (rxByte_lost hen (.inr rfl) hbad),
        fun hb => completes_idle rfl (rxByte_lost hen (.inl hb) hbad),
        completes_closing hen (.inr hbad) hup (rxFrame_bad hen hbad) fun hz => ?_⟩
      obtain ⟨hput, hended, hflag⟩ := Msp.holds_ended hen hz
      exact ⟨hended, hflag, fun ho hroom => forwarded ho hroom ▸ hput, fun h => withheld h ▸ hput⟩
    case good =>
      refine ⟨fun hb hroom hheld => ?taken, fun hb hroom hheld => ?long, fun hb hfull => ?full, ?framing,
        fun hheld => ?alone, fun hheld => completes_idle rfl (rxFrame_empty hen hbad hheld), fun hheld => ?closing⟩
      case taken =>
        exact (rxByte_taken hen hbad hb hroom hheld).completes rfl hup rfl fun hz => Msp.holds_taken hen hz
      case long =>
        exact (rxByte_long hen hbad hb hroom hheld).completes rfl hup rfl fun hz => Msp.holds_dropped hen (by decide) hz
      case full =>
        exact (rxByte_full hen hbad hb hfull).completes rfl hup rfl fun hz => Msp.holds_dropped hen (by decide) hz
      case framing =>
        exact (rxByte_framing hen hbad b).completes rfl hup rfl fun hz => Msp.holds_dropped hen (by decide) hz
      case alone =>
        refine (flagOctet_step s m).completes rfl hup (rxByte_flag_alone hen hbad hheld) fun hz => ?_
        obtain ⟨hput, hflag⟩ := Msp.holds_flagPassed hen hz
        exact ⟨hflag, fun ho hroom => forwarded ho hroom ▸ hput, fun h => withheld h ▸ hput⟩
      case closing =>
        intro cmd hcmd
        refine ⟨fun hun => ?unbound, fun hl =>
          ⟨fun h => ?shut, fun hf he hfull _ => ?overfull, fun hf he hroom => ?released⟩⟩
        case unbound =>
          refine completes_closing hen (.inl hheld) hup (rxFrame_unbound hen hbad hheld hun) (fun hz => ?_) cmd hcmd
          obtain ⟨hput, hlost⟩ := Msp.holds_dropped_flag (n := 4) hen (by decide) hz
          rw [Msp.afterFlag_withheld (.inl (mspOpen_of_unbound hun))] at hput
          exact ⟨hput, hlost⟩
        case shut =>
          refine completes_closing hen (.inl hheld) hup (rxFrame_refused hen hbad hheld hl (.inl h)) (fun hz => ?_) cmd hcmd
          obtain ⟨hput, hlost⟩ := Msp.holds_dropped_flag (n := 1) hen (by decide) hz
          rw [Msp.afterFlag_withheld (.inl (mspOpen_of_shut hl h))] at hput
          exact ⟨hput, hlost⟩
        case overfull =>
          have hstep := rxFrame_refused hen hbad hheld hl (.inr hfull)
          refine completes_closing hen (.inl hheld) hup hstep (fun hz => ?_) cmd hcmd
          obtain ⟨hput, hlost⟩ := Msp.holds_dropped_flag (n := 1) hen (by decide) hz
          refine ⟨hlost, fun hroom => ?_⟩
          rw [mspOpen_iff.2 ⟨l, hl, he, hf⟩, Msp.afterFlag_forwarded hroom] at hput
          exact hput
        case released =>
          exact completes_closing hen (.inl hheld) hup (rxFrame_released hen hbad hheld hl hf he hroom)
            (fun hz => Msp.holds_frameReleased hen hz) cmd hcmd

end Sys2Proof.Machine
end

section
/-!
# What every step keeps

Every command keeps the queue of waiting commands, the canonical forms of bank memory and of the sparse tables, and the
bounds of the pin sequencers' FIFOs; so does an idle step, but for the queue, which it leaves empty.
-/
namespace Sys2Proof.Machine

/-- Each command's own law, by its constructor. -/
theorem exec_kept (c : Instr) (s : State) : KeptR s (exec c s) :=
  match c with
  | .vioFall => execVioFall_kept s
  | .vioRise => execVioRise_kept s
  | .vddaFall => execVddaFall_kept s
  | .canopyPor => execCanopyPor_kept s
  | .pinReset also => execPinReset_kept also s
  | .startSequence tApply tLock stuck => execStartSequence_kept tApply tLock stuck s
  | .pllLocked => execPllLocked_kept s
  | .pllLockTimeout => execPllLockTimeout_kept s
  | .clkholdRetry => execClkholdRetry_kept s
  | .glbLockWrite client lock => execGlbLockWrite_kept client lock s
  | .lockDeadlineExpiry => execLockDeadlineExpiry_kept s
  | .pwrCmdPark key => execPwrCmdPark_kept key s
  | .pwrCmdOff key => execPwrCmdOff_kept key s
  | .pwrCmdReset key also => execPwrCmdReset_kept key also s
  | .pwrCmdClkrec key => execPwrCmdClkrec_kept key s
  | .parkEntryComplete => execParkEntryComplete_kept s
  | .wakeLatch src => execWakeLatch_kept src s
  | .parkExitPllLock ticks => execParkExitPllLock_kept ticks s
  | .reapplyComplete => execReapplyComplete_kept s
  | .wakeFromOff => execWakeFromOff_kept s
  | .parkWatchEdge k v => execParkWatchEdge_kept k v s
  | .parkWatchWindow => execParkWatchWindow_kept s
  | .rtcSecondTick => execRtcSecondTick_kept s
  | .rtcSecWrite w => execRtcSecWrite_kept w s
  | .tamperEvent n => execTamperEvent_kept n s
  | .clockFault sub => execClockFault_kept sub s
  | .clockRecovery => execClockRecovery_kept s
  | .lseFail => execLseFail_kept s
  | .lseRecover => execLseRecover_kept s
  | .groveTick g => execGroveTick_kept g s
  | .edgeTimeFire n => execEdgeTimeFire_kept n s
  | .edgeAngleFire n => execEdgeAngleFire_kept n s
  | .grvCmdStart g => execGrvCmdStart_kept g s
  | .grvCmdStop g => execGrvCmdStop_kept g s
  | .grvPscWrite g w => execGrvPscWrite_kept g w s
  | .chCmdGo n => execChCmdGo_kept n s
  | .chCmdStop n => execChCmdStop_kept n s
  | .chCmdSwcap n => execChCmdSwcap_kept n s
  | .chCmdOvrclr n => execChCmdOvrclr_kept n s
  | .chCtlWrite n w => execChCtlWrite_kept n w s
  | .reloadLoWrite n w => execReloadLoWrite_kept n w s
  | .reloadHiWrite n w => execReloadHiWrite_kept n w s
  | .matLoWrite n k w => execMatLoWrite_kept n k w s
  | .matHiWrite n k w => execMatHiWrite_kept n k w s
  | .cntWrite n hi w => execCntWrite_kept n hi w s
  | .cntRead n hi => execCntRead_kept n hi s
  | .cntReadCompat n hi => execCntReadCompat_kept n hi s
  | .captureEdge n level => execCaptureEdge_kept n level s
  | .capLoRead n => execCapLoRead_kept n s
  | .glbTbRead hi => execGlbTbRead_kept hi s
  | .tbSnap => execTbSnap_kept s
  | .eqPush p n w => execEqPush_kept p n w s
  | .eqShd p n w => execEqShd_kept p n w s
  | .grvUpdArm g => execGrvUpdArm_kept g s
  | .chPairWrite n w => execChPairWrite_kept n w s
  | .chOcfgWrite n w => execChOcfgWrite_kept n w s
  | .chOcmdClr n => execChOcmdClr_kept n s
  | .chOcmdRel n => execChOcmdRel_kept n s
  | .chOcmdRelSync n => execChOcmdRelSync_kept n s
  | .chOcmdFlush n => execChOcmdFlush_kept n s
  | .grvClrcmdClr g => execGrvClrcmdClr_kept g s
  | .grvClrcmdRel g => execGrvClrcmdRel_kept g s
  | .grvClrcmdRelTrip g => execGrvClrcmdRelTrip_kept g s
  | .readbackMismatch n => execReadbackMismatch_kept n s
  | .grvRdmGo g => execGrvRdmGo_kept g s
  | .adInputEdge d k level => execAdInputEdge_kept d k level s
  | .adWindowClose d => execAdWindowClose_kept d s
  | .angleTrigger d k => execAngleTrigger_kept d k s
  | .adCtlEnable d w => execAdCtlEnable_kept d w s
  | .adCmdLose d => execAdCmdLose_kept d s
  | .adCmdDrop d => execAdCmdDrop_kept d s
  | .plCtlWrite k w => execPlCtlWrite_kept k w s
  | .plTripClear k => execPlTripClear_kept k s
  | .domainSweep d => execDomainSweep_kept d s
  | .calendarTimeDue => execCalendarTimeDue_kept s
  | .calendarAngleDue d => execCalendarAngleDue_kept d s
  | .dispatch flips => execDispatch_kept flips s
  | .calendarInsert c h w => execCalendarInsert_kept c h w s
  | .calendarCancel c h => execCalendarCancel_kept c h s
  | .meSpillWrite w => execMeSpillWrite_kept w s
  | .meGWrite k w => execMeGWrite_kept k w s
  | .add rd ra rb => execAdd_kept rd ra rb s
  | .adc rd ra rb => execAdc_kept rd ra rb s
  | .sub rd ra rb => execSub_kept rd ra rb s
  | .sbc rd ra rb => execSbc_kept rd ra rb s
  | .and rd ra rb => execAnd_kept rd ra rb s
  | .or rd ra rb => execOr_kept rd ra rb s
  | .xor rd ra rb => execXor_kept rd ra rb s
  | .andn rd ra rb => execAndn_kept rd ra rb s
  | .shl rd ra rb => execShl_kept rd ra rb s
  | .shr rd ra rb => execShr_kept rd ra rb s
  | .sar rd ra rb => execSar_kept rd ra rb s
  | .mul rd ra rb => execMul_kept rd ra rb s
  | .mulhu rd ra rb => execMulhu_kept rd ra rb s
  | .divu rd ra rb => execDivu_kept rd ra rb s
  | .remu rd ra rb => execRemu_kept rd ra rb s
  | .minu rd ra rb => execMinu_kept rd ra rb s
  | .maxu rd ra rb => execMaxu_kept rd ra rb s
  | .cmp ra rb => execCmp_kept ra rb s
  | .tst ra rb => execTst_kept ra rb s
  | .mov rd ra => execMov_kept rd ra s
  | .addi rd ra imm => execAddi_kept rd ra imm s
  | .andi rd ra imm => execAndi_kept rd ra imm s
  | .ori rd ra imm => execOri_kept rd ra imm s
  | .xori rd ra imm => execXori_kept rd ra imm s
  | .shli rd ra n => execShli_kept rd ra n s
  | .shri rd ra n => execShri_kept rd ra n s
  | .sari rd ra n => execSari_kept rd ra n s
  | .cmpi ra imm => execCmpi_kept ra imm s
  | .tsti ra imm => execTsti_kept ra imm s
  | .movi rd imm => execMovi_kept rd imm s
  | .movhi rd imm => execMovhi_kept rd imm s
  | .ldw rd ra imm => execLdw_kept rd ra imm s
  | .ldh rd ra imm => execLdh_kept rd ra imm s
  | .ldhu rd ra imm => execLdhu_kept rd ra imm s
  | .ldb rd ra imm => execLdb_kept rd ra imm s
  | .ldbu rd ra imm => execLdbu_kept rd ra imm s
  | .stw rd ra imm => execStw_kept rd ra imm s
  | .sth rd ra imm => execSth_kept rd ra imm s
  | .stb rd ra imm => execStb_kept rd ra imm s
  | .xadd g rd ra rb => execXadd_kept g rd ra rb s
  | .xchg g rd ra rb => execXchg_kept g rd ra rb s
  | .xset g rd ra rb => execXset_kept g rd ra rb s
  | .xclr g rd ra rb => execXclr_kept g rd ra rb s
  | .cas g rd ra rb => execCas_kept g rd ra rb s
  | .b cond target => execB_kept cond target s
  | .call target => execCall_kept target s
  | .jr ra => execJr_kept ra s
  | .ret => execRet_kept s
  | .yield => execYield_kept s
  | .nop => execNop_kept s
  | .sched rd ra => execSched_kept rd ra s
  | .cancel rd ra => execCancel_kept rd ra s
  | .schedResult => execSchedResult_kept s
  | .edge rc ra rb shd chr ch => execEdge_kept rc ra rb shd chr ch s
  | .snap rd re sel => execSnap_kept rd re sel s
  | .att rd re ra dom => execAtt_kept rd re ra dom s
  | .signal n => execSignal_kept n s
  | .post ra rb client => execPost_kept ra rb client s
  | .trap code => execTrap_kept code s
  | .illegalInstruction => execIllegalInstruction_kept s
  | .requestRelease => execRequestRelease_kept s
  | .watchdogTrap => execWatchdogTrap_kept s
  | .lockstepMismatch => execLockstepMismatch_kept s
  | .psTick e flips => execPsTick_kept e flips s
  | .psEnable e => execPsEnable_kept e s
  | .psDisable e => execPsDisable_kept e s
  | .psCmdHalt e => execPsCmdHalt_kept e s
  | .psCmdGo e => execPsCmdGo_kept e s
  | .psCmdTxflush e => execPsCmdTxflush_kept e s
  | .psCmdRxflush e => execPsCmdRxflush_kept e s
  | .psTxWrite p e w => execPsTxWrite_kept p e w s
  | .psRxRead e => execPsRxRead_kept e s
  | .sensOutputChange n v peak trough => execSensOutputChange_kept n v peak trough s
  | .spareVisit e0 e1 b0 b1 => execSpareVisit_kept e0 e1 b0 b1 s
  | .itripTrip n vs => execItripTrip_kept n vs s
  | .afeItcmdClear clr => execAfeItcmdClear_kept clr s
  | .adcTrigger a trig idx => execAdcTrigger_kept a trig idx s
  | .adcResult a code => execAdcResult_kept a code s
  | .adcCmdTrig a => execAdcCmdTrig_kept a s
  | .adcCmdRestart a => execAdcCmdRestart_kept a s
  | .calMeasure lock step err => execCalMeasure_kept lock step err s
  | .sigCmdMeasure l => execSigCmdMeasure_kept l s
  | .sigCmdEnrol c l k => execSigCmdEnrol_kept c l k s
  | .sigCmdAbort => execSigCmdAbort_kept s
  | .sigMeasurementEnd f => execSigMeasurementEnd_kept f s
  | .sigWindowTimeout => execSigWindowTimeout_kept s
  | .sigAutoPeriod => execSigAutoPeriod_kept s
  | .healthCheck dac adc0 adc1 vref vdda mon => execHealthCheck_kept dac adc0 adc1 vref vdda mon s
  | .bankAccessGrant q flips => execBankAccessGrant_kept q flips s
  | .dmaStarve c => execDmaStarve_kept c s
  | .cwBaseWrite n w => execCwBaseWrite_kept n w s
  | .cwSizeWrite n w => execCwSizeWrite_kept n w s
  | .bgTestRegionStart b => execBgTestRegionStart_kept b s
  | .memTctlWrite w => execMemTctlWrite_kept w s
  | .memCmdReadmit b => execMemCmdReadmit_kept b s
  | .bankReadmitDone b pass word => execBankReadmitDone_kept b pass word s
  | .dmaEnable c client => execDmaEnable_kept c client s
  | .dmaDisable c => execDmaDisable_kept c s
  | .dmaReqPulse c => execDmaReqPulse_kept c s
  | .dmaBeat c => execDmaBeat_kept c s
  | .intcPend n => execIntcPend_kept n s
  | .intcPsetWrite k w => execIntcPsetWrite_kept k w s
  | .intcPclrWrite k w => execIntcPclrWrite_kept k w s
  | .intcEnableWrite target k w => execIntcEnableWrite_kept target k w s
  | .intcClaim pin => execIntcClaim_kept pin s
  | .intcComplete pin n => execIntcComplete_kept pin n s
  | .supEntry => execSupEntry_kept s
  | .supExit => execSupExit_kept s
  | .hpNop cs h => execHpNop_kept cs h s
  | .hpRead cs h missed => execHpRead_kept cs h missed s
  | .hpWrite cs h data hcrc => execHpWrite_kept cs h data hcrc s
  | .hpBadhdr cs op h => execHpBadhdr_kept cs op h s
  | .hpAbort cs part => execHpAbort_kept cs part s
  | .hpCsCollision cs part => execHpCsCollision_kept cs part s
  | .hpQueueRetire => execHpQueueRetire_kept s
  | .scRecordWrite sup c n k w => execScRecordWrite_kept sup c n k w s
  | .scEnSet sup c n w => execScEnSet_kept sup c n w s
  | .scEnClear sup c n w => execScEnClear_kept sup c n w s
  | .scCmdFence n => execScCmdFence_kept n s
  | .scCmdRestore n => execScCmdRestore_kept n s
  | .scCmdClrcnt n => execScCmdClrcnt_kept n s
  | .rateToken c => execRateToken_kept c s
  | .eventAdmit => execEventAdmit_kept s
  | .evPop c => execEvPop_kept c s
  | .bufAlloc c => execBufAlloc_kept c s
  | .bufCmdFree c handle => execBufCmdFree_kept c handle s
  | .bufCmdSend c l handle => execBufCmdSend_kept c l handle s
  | .bufCmdRequest c l handle => execBufCmdRequest_kept c l handle s
  | .requestTimeout c l msgid => execRequestTimeout_kept c l msgid s
  | .localFrameBoundary parts => execLocalFrameBoundary_kept parts s
  | .hlFrameReceived l comma k1 o1 bytes => execHlFrameReceived_kept l comma k1 o1 bytes s
  | .mdcFrameReceived l octets bad => execMdcFrameReceived_kept l octets bad s
  | .mdcTxStart l => execMdcTxStart_kept l s
  | .mdcRetry l => execMdcRetry_kept l s
  | .mdcGiveup l => execMdcGiveup_kept l s
  | .nodeXchNop l slot op3 h sub => execNodeXchNop_kept l slot op3 h sub s
  | .nodeXchRead l slot h missed sub => execNodeXchRead_kept l slot h missed sub s
  | .nodeXchWrite l slot h data hcrc sub => execNodeXchWrite_kept l slot h data hcrc sub s
  | .hlEnable l => execHlEnable_kept l s
  | .hlCmdResync l => execHlCmdResync_kept l s
  | .tsiCmdCopy c => execTsiCmdCopy_kept c s
  | .tsiCopyDone => execTsiCopyDone_kept s
  | .tsiSwapReq c admMask => execTsiSwapReq_kept c admMask s
  | .tsiSwapCancel c => execTsiSwapCancel_kept c s
  | .tsiEntryWrite c k w => execTsiEntryWrite_kept c k w s
  | .pmSecond => execPmSecond_kept s
  | .pmBinPlace => execPmBinPlace_kept s
  | .runTimeMs => execRunTimeMs_kept s
  | .pmSelWrite w => execPmSelWrite_kept w s
  | .pmWinReady => execPmWinReady_kept s
  | .rsRecordWrite pages retries fails badErase => execRsRecordWrite_kept pages retries fails badErase s
  | .rsScan bad => execRsScan_kept bad s
  | .smbXferWrite k c w => execSmbXferWrite_kept k c w s
  | .smbTransferEnd k code data => execSmbTransferEnd_kept k code data s
  | .smbClockLowTimeout k => execSmbClockLowTimeout_kept k s
  | .smbCmdAbort k => execSmbCmdAbort_kept k s
  | .smbCmdClrstuck k => execSmbCmdClrstuck_kept k s
  | .smbEnable k => execSmbEnable_kept k s
  | .smbBusCheck k sda => execSmbBusCheck_kept k sda s
  | .smbBusClear k freed => execSmbBusClear_kept k freed s
  | .smbStuckRetry k => execSmbStuckRetry_kept k s
  | .packSwapRead => execPackSwapRead_kept s
  | .smbPcmdReread => execSmbPcmdReread_kept s
  | .packRetry => execPackRetry_kept s
  | .packAuthWait => execPackAuthWait_kept s
  | .packPoll => execPackPoll_kept s
  | .mspRxFrame m => execMspRxFrame_kept m s
  | .rollCallSlot answer => execRollCallSlot_kept answer s
  | .fltRecord f => execFltRecord_kept f s
  | .censusMismatch => execCensusMismatch_kept s
  | .supRestart => execSupRestart_kept s
  | .fltCmdFence kind index => execFltCmdFence_kept kind index s
  | .fltCmdReadmit kind index => execFltCmdReadmit_kept kind index s
  | .fltCmdClrlog => execFltCmdClrlog_kept s
  | .fltLogfullClear => execFltLogfullClear_kept s
  | .svcHello tag => execSvcHello_kept tag s
  | .svcPass tag p => execSvcPass_kept tag p s
  | .svcRead tag p => execSvcRead_kept tag p s
  | .svcWrite tag p => execSvcWrite_kept tag p s
  | .svcClose tag p => execSvcClose_kept tag p s
  | .svcReset tag p => execSvcReset_kept tag p s
  | .svcResetExec also => execSvcResetExec_kept also s
  | .svcBadFrame b => execSvcBadFrame_kept b s
  | .svcByteTimeout => execSvcByteTimeout_kept s
  | .svcSessionExpire => execSvcSessionExpire_kept s
  | .svcIdleTimeout => execSvcIdleTimeout_kept s
  | .updDataWrite c w => execUpdDataWrite_kept c w s
  | .updBegin c => execUpdBegin_kept c s
  | .updBlock c n => execUpdBlock_kept c n s
  | .updBlockProgrammed ok => execUpdBlockProgrammed_kept ok s
  | .updEnd c => execUpdEnd_kept c s
  | .updVerifyDone => execUpdVerifyDone_kept s
  | .updActivate c => execUpdActivate_kept c s
  | .updAbort c => execUpdAbort_kept c s
  | .updConfirm => execUpdConfirm_kept s
  | .updConfirmTimeout => execUpdConfirmTimeout_kept s
  | .updAgentStart => execUpdAgentStart_kept s
  | .nodeResponseTimeout => execNodeResponseTimeout_kept s
  | .nodeBootTimeout => execNodeBootTimeout_kept s
  | .tapExtest cells => execTapExtest_kept cells s
  | .tapSamplePreload cells => execTapSamplePreload_kept cells s
  | .tapClamp => execTapClamp_kept s
  | .tapHighz => execTapHighz_kept s
  | .tapBypass => execTapBypass_kept s
  | .tapReset rise => execTapReset_kept rise s
  | .pwrStateRead => execPwrStateRead_kept s
  | .ttLatRead => execTtLatRead_kept s
  | .dmaRemRead c => execDmaRemRead_kept c s
  | .hpCntRead k => execHpCntRead_kept k s
  | .hlCntRead l k => execHlCntRead_kept l k s
  | .smbCntRead k => execSmbCntRead_kept k s
  | .mspCntRead m k => execMspCntRead_kept m k s
  | .svcCntRead => execSvcCntRead_kept s
  | .rsCntRead => execRsCntRead_kept s
  | .registerWrite p c a w => execRegisterWrite_kept p c a w s
  | .hlCommaDetect l k285 complement => execHlCommaDetect_kept l k285 complement s
  | .hlRawLosChange l los => execHlRawLosChange_kept l los s
  | .itripPairDisagree n differ => execItripPairDisagree_kept n differ s
  | .mspRxByte m b ferr => execMspRxByte_kept m b ferr s
  | .mspTxByte m cts => execMspTxByte_kept m cts s

/-- A step takes the front command's effect on the state without it, or is a core cycle. -/
theorem step_cases {s t : State} (h : step s = .next t) :
    (s.pending = [] ∧ t = s.coreCycle) ∨
      ∃ c rest, s.pending = c :: rest ∧ exec c { s with pending := rest } = .next t := by
  unfold step at h
  split at h
  · cases h
    exact .inl ⟨‹_›, rfl⟩
  · exact .inr ⟨_, _, ‹_›, h⟩

/-- What a step keeps, seen from the state whose front command has left the queue. -/
theorem step_kept {s t : State} (h : step s = .next t) : Kept { s with pending := s.pending.tail } t := by
  obtain ⟨hp, rfl⟩ | ⟨c, rest, hp, hc⟩ := step_cases h
  · rw [show ({ s with pending := s.pending.tail } : State) = s by rw [hp, List.tail_nil, ← hp]]
    exact State.coreCycle_kept s
  · rw [hp, List.tail_cons]
    exact exec_kept c _ t hc

/-- Settles O5: the queue takes no part in the canonical form of bank memory. -/
theorem memoryStaysCanonical : Obligations.MemoryStaysCanonical := by
  unfold Obligations.MemoryStaysCanonical
  exact fun s t hs ht => (step_kept ht).mem hs

/-- Settles O6: the queue takes no part in the canonical forms of the tables. -/
theorem tablesStayCanonical : Obligations.TablesStayCanonical := by
  unfold Obligations.TablesStayCanonical
  exact fun s t hs ht => (step_kept ht).tab hs

/-- Settles O7: the queue takes no part in the bounds of the FIFOs. -/
theorem fifosNeverOverfill : Obligations.FifosNeverOverfill := by
  unfold Obligations.FifosNeverOverfill
  exact fun s t hs ht => (step_kept ht).fifo hs

/-- Settles O1: the front of the queue is what `step` matches on. -/
theorem stepRunsFrontCommand : Obligations.StepRunsFrontCommand := by
  unfold Obligations.StepRunsFrontCommand
  exact fun c rest s => rfl

/-- Settles O8: after reset the sparse memories and the FIFOs are empty, and nothing waits. -/
theorem invariantsHoldAtReset : Obligations.InvariantsHoldAtReset := by
  unfold Obligations.InvariantsHoldAtReset
  refine ⟨rfl, ⟨rfl, rfl, rfl⟩, fun e => ?_, fun c hc => absurd hc (List.not_mem_nil), rfl⟩
  rw [show at_ State.reset.ps.eng e = {} from at_replicate _ e]
  exact ⟨Nat.zero_le _, Nat.zero_le _⟩

end Sys2Proof.Machine
end

section
/-!
# A command answers a next state, and a queue runs to its end

Every command answers a next state but a bank port's access at an address that neither a bank nor an aperture has.
-/
namespace Sys2Proof

/-- A port's own access, where it names an address, lies in the banks or the apertures. -/
def BankReq.InMemory : BankReq → Prop
  | .read a _ => Machine.isMemAddr a.toNat = true
  | .write a _ _ => Machine.isMemAddr a.toNat = true
  | _ => True

/-- The accesses the rule describes are to memory (11 R424). -/
theorem BankReq.inMemory_of_wellFormed {q : BankReq} {flips : Nat} (h : WellFormed (.bankAccessGrant q flips) = true) :
    q.InMemory := by
  cases q with
  | read a n => exact (Bool.and_eq_true_iff.1 h).2
  | write a n d => exact (Bool.and_eq_true_iff.1 h).2
  | _ => trivial

end Sys2Proof

namespace Sys2Proof.Machine

theorem isMemAddr_iff {a : Nat} : isMemAddr a = true ↔ 0x20000 ≤ a ∧ a < 0x80000 := by
  simp [isMemAddr]

/-- A port answers, or the address is none of memory's. -/
theorem bankGrant_answer (s : State) (q : BankReq) (flips : Nat) :
    (∃ t, s.bankGrant q flips = .next t) ∨ (s.bankGrant q flips = .fault .noAddress ∧ ¬ q.InMemory) := by
  cases q with
  | read a n =>
    simp only [State.bankGrant, BankReq.InMemory]
    cases isMemAddr a.toNat with
    | false => exact .inr ⟨rfl, Bool.false_ne_true⟩
    | true => simp only [Bool.not_true, Bool.false_eq_true, if_false]; split <;> exact .inl ⟨_, rfl⟩
  | write a n d =>
    simp only [State.bankGrant, BankReq.InMemory]
    cases isMemAddr a.toNat with
    | false => exact .inr ⟨rfl, Bool.false_ne_true⟩
    | true => simp only [Bool.not_true, Bool.false_eq_true, if_false]; split <;> exact .inl ⟨_, rfl⟩
  | _ => exact .inl ⟨_, rfl⟩

/-- A command answers, or it is a port's access outside memory. -/
theorem exec_answer (c : Instr) (s : State) :
    (∃ t, exec c s = .next t) ∨
      (exec c s = .fault .noAddress ∧ ∃ q flips, c = .bankAccessGrant q flips ∧ ¬ q.InMemory) := by
  cases c with
  | bankAccessGrant q flips =>
    rw [show exec (.bankAccessGrant q flips) s = if s.pwr.pllLock then s.bankGrant q flips else .next s from rfl]
    split
    · exact (bankGrant_answer s q flips).imp_right fun h => ⟨h.1, q, flips, rfl, h.2⟩
    · exact .inl ⟨_, rfl⟩
  | _ => exact .inl ⟨_, rfl⟩

/-- A command whose operands its rule describes answers a next state. -/
theorem exec_next_of_wellFormed {c : Instr} (s : State) (h : WellFormed c = true) : ∃ t, exec c s = .next t := by
  obtain ht | ⟨_, q, flips, rfl, hq⟩ := exec_answer c s
  · exact ht
  · exact absurd (BankReq.inMemory_of_wellFormed h) hq

/-- Settles O3: a command answers, or it is a bank port's access outside memory, which no rule describes. -/
theorem onlyFaultIsAnAbsentAddress : Obligations.OnlyFaultIsAnAbsentAddress := by
  unfold Obligations.OnlyFaultIsAnAbsentAddress
  refine fun c s => ⟨exec_next_of_wellFormed s, (exec_answer c s).imp_right ?_⟩
  rintro ⟨hfault, q, flips, rfl, hq⟩
  refine ⟨hfault, ?_⟩
  cases q with
  | read a n => exact .inl ⟨a, n, flips, rfl, fun h => hq (isMemAddr_iff.2 h)⟩
  | write a n d => exact .inr ⟨a, n, d, flips, rfl, fun h => hq (isMemAddr_iff.2 h)⟩
  | _ => exact absurd trivial hq

/-- A step of a well-formed queue does not stop, and takes the front command off. -/
theorem step_of_queueWellFormed {s : State} (h : QueueWellFormed s) :
    ∃ t, step s = .next t ∧ t.pending = s.pending.tail := by
  have hruns : ∃ t, step s = .next t := by
    unfold step
    split
    · exact ⟨_, rfl⟩
    · rename_i c rest hp
      exact exec_next_of_wellFormed _ (h c (by simp [hp]))
  obtain ⟨t, ht⟩ := hruns
  exact ⟨t, ht, (step_kept ht).queue⟩

/-- A run whose first step answers goes on from there. -/
theorem run_succ_of_step (M : Host.Core) {s u : M.State} (h : M.step s = .next u) (k : Nat) :
    M.run (k + 1) s = M.run k u := by
  simp only [Host.Core.run, h]

/-- Settles O4, by induction on the number of steps. -/
theorem queueRunsToItsEnd : Obligations.QueueRunsToItsEnd := by
  unfold Obligations.QueueRunsToItsEnd
  intro k
  induction k with
  | zero => exact fun s hs => ⟨s, rfl, List.drop_zero.symm, hs⟩
  | succ k ih =>
    intro s hs
    obtain ⟨u, hu, hrest⟩ := step_of_queueWellFormed hs
    have hwf : QueueWellFormed u := fun c hc => hs c (List.mem_of_mem_tail (hrest ▸ hc))
    obtain ⟨t, ht, hdrop, htwf⟩ := ih u hwf
    exact ⟨t, (run_succ_of_step core hu k).trans ht, by rw [hdrop, hrest, List.drop_tail], htwf⟩

end Sys2Proof.Machine
end

section
/-!
# The microengine's words: decoding an encoded instruction

An encoding is OP, up to three register fields and the bits below them (08 Table 8.1); its word's number is their sum, so that
each field of the word is arithmetic.
-/
namespace Sys2Proof.Machine

/-- The number that fields at their places add to n. -/
def packNumber (n : Nat) (l : List (Nat × Nat)) : Nat := l.foldl (fun n f => n + f.1 * 2 ^ f.2) n

theorem packw_eq (l : List (Nat × Nat)) : packw l = .ofNat 32 (packNumber 0 l) := rfl

theorem packNumber_nil (n : Nat) : packNumber n [] = n := by rw [packNumber, List.foldl_nil]

theorem packNumber_cons (n v p : Nat) (l : List (Nat × Nat)) :
    packNumber n ((v, p) :: l) = packNumber (n + v * 2 ^ p) l := by rw [packNumber, List.foldl_cons, packNumber]

/-- The number of a word with OP, the three register fields and the bits below them. -/
def meNumber (op a b c low : Nat) : Nat := op * 2 ^ 26 + a * 2 ^ 22 + b * 2 ^ 18 + c * 2 ^ 14 + low

/-- The word has OP, the register fields and the bits below them. -/
structure HasFields (w : Word) (op a b c low : Nat) : Prop where
  num : w.toNat = meNumber op a b c low
  op_lt : op < 64
  a_lt : a < 16
  b_lt : b < 16
  c_lt : c < 16
  low_lt : low < 2 ^ 14

theorem hasFields_packw {l : List (Nat × Nat)} {op a b c low : Nat}
    (hl : packNumber 0 l = meNumber op a b c low)
    (hop : op < 64) (ha : a < 16) (hb : b < 16) (hc : c < 16) (hlow : low < 2 ^ 14) : HasFields (packw l) op a b c low := by
  refine ⟨?_, hop, ha, hb, hc, hlow⟩
  rw [packw_eq, hl, BitVec.toNat_ofNat, Nat.mod_eq_of_lt]
  unfold meNumber
  omega

/-- An immediate takes the third register field and the bits below it. -/
theorem hasFields_packw_imm {l : List (Nat × Nat)} {op a b imm : Nat}
    (hl : packNumber 0 l = op * 2 ^ 26 + a * 2 ^ 22 + b * 2 ^ 18 + imm)
    (hop : op < 64) (ha : a < 16) (hb : b < 16) (himm : imm < 2 ^ 18) :
    HasFields (packw l) op a b (imm / 2 ^ 14) (imm % 2 ^ 14) :=
  hasFields_packw (by rw [hl]; unfold meNumber; omega) hop ha hb (by omega) (by omega)

namespace HasFields
variable {w : Word} {op a b c low : Nat} (h : HasFields w op a b c low)
include h

/-- Below bit 26 stand the register fields and the bits below them. -/
theorem mod_26 : w.toNat % 2 ^ 26 = a * 2 ^ 22 + b * 2 ^ 18 + c * 2 ^ 14 + low := by
  obtain ⟨hw, _, _, _, _, _⟩ := h
  unfold meNumber at hw
  omega

theorem fld_op : fld w 31 26 = op := by
  obtain ⟨hw, _, _, _, _, _⟩ := h
  unfold meNumber at hw
  simp only [fld]
  omega

theorem fld_a : fld w 25 22 = a := by
  obtain ⟨hw, _, _, _, _, _⟩ := h
  unfold meNumber at hw
  simp only [fld]
  omega

theorem fld_b : fld w 21 18 = b := by
  obtain ⟨hw, _, _, _, _, _⟩ := h
  unfold meNumber at hw
  simp only [fld]
  omega

theorem fld_c : fld w 17 14 = c := by
  obtain ⟨hw, _, _, _, _, _⟩ := h
  unfold meNumber at hw
  simp only [fld]
  omega

theorem fld_imm : fld w 17 0 = c * 2 ^ 14 + low := by
  obtain ⟨hw, _, _, _, _, _⟩ := h
  unfold meNumber at hw
  simp only [fld]
  omega

end HasFields

/-- A field is what stands below its top, without what stands below its bottom. -/
theorem fld_eq_mod_div (w : Word) {hi lo : Nat} (h : lo ≤ hi) : fld w hi lo = w.toNat % 2 ^ (hi + 1) / 2 ^ lo := by
  have hsplit : 2 ^ (hi + 1) = 2 ^ lo * 2 ^ (hi - lo + 1) := by rw [← Nat.pow_add]; congr 1; omega
  rw [fld, hsplit, Nat.mod_mul_right_div_self]

/-- A field that nothing reaches holds zero. -/
theorem zf_of_lt {w : Word} {hi lo : Nat} (h : lo ≤ hi) (hlt : w.toNat % 2 ^ (hi + 1) < 2 ^ lo) : zf w hi lo = true := by
  rw [zf, fld_eq_mod_div w h, Nat.div_eq_of_lt hlt]
  rfl

/-- A bit is its field of width one. -/
theorem bit_eq_decide (w : Word) (i : Nat) : bit w i = decide (w.toNat / 2 ^ i % 2 = 1) := by
  rw [bit, ← BitVec.testBit_toNat, Nat.testBit_eq_decide_div_mod_eq]

/-- A flag stands in its bit. -/
theorem bit_of_b2n {w : Word} {i : Nat} {x : Bool} (h : w.toNat / 2 ^ i % 2 = b2n x) : bit w i = x := by
  rw [bit_eq_decide, h]
  cases x <;> rfl

theorem b2n_lt (x : Bool) : b2n x < 2 := by cases x <;> decide

/-- A register or number field of the right size. -/
theorem finOfNat_val {n : Nat} [NeZero n] (i : Fin n) : Fin.ofNat n i.val = i := Fin.ext (Nat.mod_eq_of_lt i.isLt)

theorem aluOfFn_fn (o : AluOp) : aluOfFn o.fn = some o := by cases o <;> rfl
theorem atomOfFn_fn (o : AtomOp) : atomOfFn o.fn = some o := by cases o <;> rfl
theorem AluOp.fn_lt (o : AluOp) : o.fn < 32 := by cases o <;> decide
theorem AtomOp.fn_lt (o : AtomOp) : o.fn < 32 := by cases o <;> decide
theorem ImmOp.op_lt (o : ImmOp) : o.op < 64 := by cases o <;> decide
theorem LdOp.op_lt (o : LdOp) : o.op < 64 := by cases o <;> decide
theorem StOp.op_lt (o : StOp) : o.op < 64 := by cases o <;> decide

/-! ## What a word with given fields decodes to -/

section
variable {w : Word} {rd ra rb : Fin 16}

theorem meFields_alu {op : AluOp} (h : HasFields w 0x01 rd ra rb op.fn) : meFields w = some (.alu op rd ra rb) := by
  have hlow := h.mod_26
  have hlt := op.fn_lt
  have hz : zf w 13 6 = true := zf_of_lt (by decide) (by omega)
  have hfn : fld w 5 0 = op.fn := by rw [fld_eq_mod_div w (by decide)]; omega
  simp [meFields, h.fld_op, h.fld_a, h.fld_b, h.fld_c, hz, hfn, aluOfFn_fn]

theorem meFields_atom {op : AtomOp} {g : Bool} (h : HasFields w 0x1C rd ra rb (b2n g * 2 ^ 5 + op.fn)) :
    meFields w = some (.atom op g rd ra rb) := by
  have hlow := h.mod_26
  have hlt := op.fn_lt
  have hg := b2n_lt g
  have hz : zf w 13 6 = true := zf_of_lt (by decide) (by omega)
  have hfn : fld w 4 0 = op.fn := by rw [fld_eq_mod_div w (by decide)]; omega
  have hbit : bit w 5 = g := bit_of_b2n (by omega)
  simp [meFields, h.fld_op, h.fld_a, h.fld_b, h.fld_c, hz, hfn, hbit, atomOfFn_fn]

section
variable {c low : Nat} {imm : BitVec 18} (hi : c * 2 ^ 14 + low = imm.toNat)
include hi

theorem meFields_imm {op : ImmOp} (h : HasFields w op.op rd ra c low) : meFields w = some (.imm op rd ra imm) := by
  have himm := h.fld_imm.trans hi
  cases op <;> simp [meFields, h.fld_op, h.fld_a, h.fld_b, himm, ImmOp.op]

theorem meFields_load {op : LdOp} (h : HasFields w op.op rd ra c low) : meFields w = some (.load op rd ra imm) := by
  have himm := h.fld_imm.trans hi
  cases op <;> simp [meFields, h.fld_op, h.fld_a, h.fld_b, himm, LdOp.op]

theorem meFields_store {op : StOp} (h : HasFields w op.op rd ra c low) : meFields w = some (.store op rd ra imm) := by
  have himm := h.fld_imm.trans hi
  cases op <;> simp [meFields, h.fld_op, h.fld_a, h.fld_b, himm, StOp.op]

theorem meFields_movi (h : HasFields w 0x0B rd 0 c low) : meFields w = some (.movi rd imm) := by
  have hlow := h.mod_26
  have hlt := imm.isLt
  have hz : zf w 21 18 = true := zf_of_lt (by decide) (by omega)
  simp [meFields, h.fld_op, h.fld_a, h.fld_imm.trans hi, hz]

end

theorem meFields_movhi {c low : Nat} {imm : BitVec 16} (hi : c * 2 ^ 14 + low = imm.toNat) (h : HasFields w 0x0C rd 0 c low) :
    meFields w = some (.movhi rd imm) := by
  have hlow := h.mod_26
  have hlt := imm.isLt
  have hz : zf w 21 16 = true := zf_of_lt (by decide) (by omega)
  have himm : fld w 15 0 = imm.toNat := by rw [fld_eq_mod_div w (by decide)]; omega
  simp [meFields, h.fld_op, h.fld_a, hz, himm]

theorem meFields_b {target : BitVec 13} (h : HasFields w 0x20 rd 0 0 target.toNat) : meFields w = some (.b rd target) := by
  have hlow := h.mod_26
  have hlt := target.isLt
  have hz : zf w 21 13 = true := zf_of_lt (by decide) (by omega)
  have htarget : fld w 12 0 = target.toNat := by rw [fld_eq_mod_div w (by decide)]; omega
  simp [meFields, h.fld_op, h.fld_a, hz, htarget]

theorem meFields_call {target : BitVec 13} (h : HasFields w 0x21 0 0 0 target.toNat) : meFields w = some (.call target) := by
  have hlow := h.mod_26
  have hlt := target.isLt
  have hz : zf w 25 13 = true := zf_of_lt (by decide) (by omega)
  have htarget : fld w 12 0 = target.toNat := by rw [fld_eq_mod_div w (by decide)]; omega
  simp [meFields, h.fld_op, hz, htarget]

theorem meFields_jr (h : HasFields w 0x22 0 ra 0 0) : meFields w = some (.jr ra) := by
  simp [meFields, zf, h.fld_op, h.fld_a, h.fld_b, h.fld_imm]

/-- The three instructions without a field. -/
theorem meFields_bare {op : Nat} (h : HasFields w op 0 0 0 0) :
    (op = 0x23 → meFields w = some .ret) ∧ (op = 0x24 → meFields w = some .yield) ∧ (op = 0x25 → meFields w = some .nop) := by
  have hlow := h.mod_26
  have hz : zf w 25 0 = true := zf_of_lt (by decide) (by omega)
  refine ⟨?_, ?_, ?_⟩ <;> rintro rfl <;> simp [meFields, h.fld_op, hz]

theorem meFields_sched (h : HasFields w 0x28 rd ra 0 0) : meFields w = some (.sched rd ra) := by
  simp [meFields, zf, h.fld_op, h.fld_a, h.fld_b, h.fld_imm]

theorem meFields_cancel (h : HasFields w 0x29 rd ra 0 0) : meFields w = some (.cancel rd ra) := by
  simp [meFields, zf, h.fld_op, h.fld_a, h.fld_b, h.fld_imm]

theorem meFields_edge {shd chr : Bool} {ch : Fin 64}
    (h : HasFields w 0x2A rd ra rb (b2n shd * 2 ^ 13 + b2n chr * 2 ^ 12 + ch.val * 2 ^ 6)) :
    meFields w = some (.edge rd ra rb shd chr ch) := by
  have hlow := h.mod_26
  have hshd := b2n_lt shd
  have hchr := b2n_lt chr
  have hz : zf w 5 0 = true := by rw [zf, fld_eq_mod_div w (by decide)]; simp only [beq_iff_eq]; omega
  have hch : fld w 11 6 = ch.val := by rw [fld_eq_mod_div w (by decide)]; omega
  have hbit13 : bit w 13 = shd := bit_of_b2n (by omega)
  have hbit12 : bit w 12 = chr := bit_of_b2n (by omega)
  simp [meFields, h.fld_op, h.fld_a, h.fld_b, h.fld_c, hz, hch, hbit13, hbit12]

theorem meFields_snap {sel : BitVec 7} (h : HasFields w 0x2B rd ra 0 sel.toNat) : meFields w = some (.snap rd ra sel) := by
  have hlow := h.mod_26
  have hlt := sel.isLt
  have hz : zf w 17 7 = true := zf_of_lt (by decide) (by omega)
  have hsel : fld w 6 0 = sel.toNat := by rw [fld_eq_mod_div w (by decide)]; omega
  simp [meFields, h.fld_op, h.fld_a, h.fld_b, hz, hsel]

theorem meFields_att {dom : BitVec 2} (h : HasFields w 0x2C rd ra rb dom.toNat) : meFields w = some (.att rd ra rb dom) := by
  have hlow := h.mod_26
  have hlt := dom.isLt
  have hz : zf w 13 2 = true := zf_of_lt (by decide) (by omega)
  have hdom : fld w 1 0 = dom.toNat := by rw [fld_eq_mod_div w (by decide)]; omega
  simp [meFields, h.fld_op, h.fld_a, h.fld_b, h.fld_c, hz, hdom]

theorem meFields_signal {n : Fin 8} (h : HasFields w 0x2D 0 0 0 n) : meFields w = some (.signal n) := by
  have hlow := h.mod_26
  have hz : zf w 25 3 = true := zf_of_lt (by decide) (by omega)
  have hn : fld w 2 0 = n.val := by rw [fld_eq_mod_div w (by decide)]; omega
  simp [meFields, h.fld_op, hz, hn]

theorem meFields_post {client : Fin 256} (h : HasFields w 0x2E 0 ra rb client) : meFields w = some (.post ra rb client) := by
  have hlow := h.mod_26
  have hz : zf w 25 22 = true := by rw [zf, h.fld_a]; rfl
  have hz' : zf w 13 8 = true := zf_of_lt (by decide) (by omega)
  have hclient : fld w 7 0 = client.val := by rw [fld_eq_mod_div w (by decide)]; omega
  simp [meFields, h.fld_op, h.fld_b, h.fld_c, hz, hz', hclient]

theorem meFields_trap {c low : Nat} {code : BitVec 16} (hc : c * 2 ^ 14 + low = code.toNat) (h : HasFields w 0x2F 0 0 c low) :
    meFields w = some (.trap code) := by
  have hlow := h.mod_26
  have hlt := code.isLt
  have hz : zf w 25 16 = true := zf_of_lt (by decide) (by omega)
  have hcode : fld w 15 0 = code.toNat := by rw [fld_eq_mod_div w (by decide)]; omega
  simp [meFields, h.fld_op, hz, hcode]

end

/-- The fields of an instruction's word are the instruction's own, whatever the registers and immediates. -/
theorem meFields_encode (i : MeInstr) : meFields i.encode = some i := by
  have split (n : Nat) : n / 2 ^ 14 * 2 ^ 14 + n % 2 ^ 14 = n := Nat.div_add_mod' n _
  cases i with
  | alu op rd ra rb =>
    have := op.fn_lt
    exact meFields_alu (hasFields_packw (by simp only [packNumber_cons, packNumber_nil, meNumber]; omega) (by decide) rd.isLt ra.isLt rb.isLt (by omega))
  | atom op g rd ra rb =>
    have := op.fn_lt
    have := b2n_lt g
    exact meFields_atom (hasFields_packw (by simp only [packNumber_cons, packNumber_nil, meNumber]; omega) (by decide) rd.isLt ra.isLt rb.isLt (by omega))
  | imm op rd ra imm =>
    exact meFields_imm (split _) (hasFields_packw_imm (by simp only [packNumber_cons, packNumber_nil]; omega) op.op_lt rd.isLt ra.isLt imm.isLt)
  | load op rd ra imm =>
    exact meFields_load (split _) (hasFields_packw_imm (by simp only [packNumber_cons, packNumber_nil]; omega) op.op_lt rd.isLt ra.isLt imm.isLt)
  | store op rd ra imm =>
    exact meFields_store (split _) (hasFields_packw_imm (by simp only [packNumber_cons, packNumber_nil]; omega) op.op_lt rd.isLt ra.isLt imm.isLt)
  | movi rd imm =>
    exact meFields_movi (split _) (hasFields_packw_imm (by simp only [packNumber_cons, packNumber_nil]; omega) (by decide) rd.isLt (by decide) imm.isLt)
  | movhi rd imm =>
    have := imm.isLt
    exact meFields_movhi (split _) (hasFields_packw_imm (by simp only [packNumber_cons, packNumber_nil]; omega) (by decide) rd.isLt (by decide) (by omega))
  | b cond target =>
    have := target.isLt
    exact meFields_b (hasFields_packw (by simp only [packNumber_cons, packNumber_nil, meNumber]; omega) (by decide) cond.isLt (by decide) (by decide) (by omega))
  | call target =>
    have := target.isLt
    exact meFields_call (hasFields_packw (by simp only [packNumber_cons, packNumber_nil, meNumber]; omega) (by decide) (by decide) (by decide) (by decide) (by omega))
  | jr ra => exact meFields_jr (hasFields_packw (by simp only [packNumber_cons, packNumber_nil, meNumber]; omega) (by decide) (by decide) ra.isLt (by decide) (by decide))
  | ret => exact (meFields_bare (hasFields_packw (by simp only [packNumber_cons, packNumber_nil, meNumber]; omega) (by decide) (by decide) (by decide) (by decide) (by decide))).1 rfl
  | yield => exact (meFields_bare (hasFields_packw (by simp only [packNumber_cons, packNumber_nil, meNumber]; omega) (by decide) (by decide) (by decide) (by decide) (by decide))).2.1 rfl
  | nop => exact (meFields_bare (hasFields_packw (by simp only [packNumber_cons, packNumber_nil, meNumber]; omega) (by decide) (by decide) (by decide) (by decide) (by decide))).2.2 rfl
  | sched rd ra => exact meFields_sched (hasFields_packw (by simp only [packNumber_cons, packNumber_nil, meNumber]; omega) (by decide) rd.isLt ra.isLt (by decide) (by decide))
  | cancel rd ra => exact meFields_cancel (hasFields_packw (by simp only [packNumber_cons, packNumber_nil, meNumber]; omega) (by decide) rd.isLt ra.isLt (by decide) (by decide))
  | edge rc ra rb shd chr ch =>
    have := b2n_lt shd
    have := b2n_lt chr
    exact meFields_edge (hasFields_packw (by simp only [packNumber_cons, packNumber_nil, meNumber]; omega) (by decide) rc.isLt ra.isLt rb.isLt (by omega))
  | snap rd re sel =>
    have := sel.isLt
    exact meFields_snap (hasFields_packw (by simp only [packNumber_cons, packNumber_nil, meNumber]; omega) (by decide) rd.isLt re.isLt (by decide) (by omega))
  | att rd re ra dom =>
    have := dom.isLt
    exact meFields_att (hasFields_packw (by simp only [packNumber_cons, packNumber_nil, meNumber]; omega) (by decide) rd.isLt re.isLt ra.isLt (by omega))
  | signal n =>
    exact meFields_signal (hasFields_packw (by simp only [packNumber_cons, packNumber_nil, meNumber]; omega) (by decide) (by decide) (by decide) (by decide) (by omega))
  | post ra rb client =>
    exact meFields_post (hasFields_packw (by simp only [packNumber_cons, packNumber_nil, meNumber]; omega) (by decide) (by decide) ra.isLt rb.isLt (by omega))
  | trap code =>
    have := code.isLt
    exact meFields_trap (split _) (hasFields_packw_imm (by simp only [packNumber_cons, packNumber_nil]; omega) (by decide) (by decide) (by decide) (by omega))

/-- Settles O44: the check of the field values passes every legal instruction. -/
theorem encodedInstructionsDecode : Obligations.EncodedInstructionsDecode := by
  unfold Obligations.EncodedInstructionsDecode
  intro i hi
  rw [meDecode, meFields_encode, Option.filter_some, if_pos hi]

end Sys2Proof.Machine
end

section
/-!
# The parts of the state that the operations of a core cycle change

One frame for each operation, assembled from the frames of those it calls.
-/
namespace Sys2Proof.Machine

namespace OnlyChanges
variable {ps qs : List Part} {s t u : State}

/-- Fewer parts than allowed change. -/
theorem widen (k : OnlyChanges qs s t) (h : ∀ p ∈ qs, p ∈ ps) : OnlyChanges ps s t := k.mono h

/-- One operation more, that changes no part but those allowed. -/
theorem also (k : OnlyChanges ps s t) (l : OnlyChanges qs t u) (h : ∀ p ∈ qs, p ∈ ps) : OnlyChanges ps s u :=
  k.both (l.mono h)

/-- The state beside a value. -/
theorem of_pair {α : Type} {x : α × State} {a : α} (e : x = (a, t)) (k : OnlyChanges ps s x.2) : OnlyChanges ps s t := by
  rw [e] at k
  exact k

end OnlyChanges

namespace State
variable (s : State)

theorem only_irqCycle : OnlyChanges [.intc] s s.irqCycle := only_modIntc _ _
theorem only_admitAll : OnlyChanges [.sc] s s.admitAll := .foldl (fun _ _ => only_admitEvent _ _ _) _ _
theorem only_hlFlag (l : Fin 4) (b : BitVec 15) : OnlyChanges [.hl] s (s.hlFlag l b) :=
  (only_modLink _ _ _).both (only_hwSet _ _ _ _)
theorem only_lateAck (l : Fin 4) : OnlyChanges [.hl] s (s.lateAck l) :=
  (only_modLink _ _ _).also (only_hlFlag _ _ _) (by decide)
theorem only_sendNode (l : Fin 4) (req : Bool) (payload : List Byte) : OnlyChanges [.hl, .upd] s (s.sendNode l req payload) :=
  ((only_modLink _ _ _).widen (by decide)).also (only_modUpd _ _) (by decide)
theorem only_campSend : OnlyChanges [.hl, .upd] s s.campSend := by
  unfold campSend
  dsimp only
  split
  · exact .refl _ _
  · split
    · exact only_sendNode _ _ _ _
    · exact only_sendNode _ _ _ _
    · exact only_sendNode _ _ _ _
    · exact only_sendNode _ _ _ _
    · exact .refl _ _
theorem only_campGo (p : CampPhase) (offset : Nat) : OnlyChanges [.hl, .upd] s (s.campGo p offset) :=
  ((only_modUpd _ _).widen (by decide)).also (only_campSend _) (by decide)
theorem only_campData (offset : Nat) : OnlyChanges [.hl, .upd] s (s.campData offset) :=
  .ite (only_campGo _ _ _) (only_campGo _ _ _)
theorem only_setUpd (st : UpdState) : OnlyChanges [.sc, .upd] s (s.setUpd st) :=
  .ite (.refl _ _) (((only_modUpd _ _).widen (by decide)).also (only_postAll _ _ _ _ _ _ _ _ _) (by decide))
theorem only_rsFlag (b : BitVec 5) : OnlyChanges [.rs] s (s.rsFlag b) := (only_modRs _ _).both (only_hwSet _ _ _ _)
theorem only_rsRefuse (type : BitVec 8) : OnlyChanges [.sc, .rs] s (s.rsRefuse type) :=
  (((only_modRs _ _).widen (by decide)).also (only_rsFlag _ _) (by decide)).also (only_postAll _ _ _ _ _ _ _ _ _) (by decide)
theorem only_rsCompact : OnlyChanges [.rs] s s.rsCompact := .ite (.refl _ _) (only_modRs _ _)
theorem only_setSector (n : Nat) (x : Sector) : OnlyChanges [.rs] s (s.setSector n x) := only_modRs _ _
theorem only_rsRoom (n : Nat) : OnlyChanges [.rs] s (s.rsRoom n) := by
  unfold rsRoom
  dsimp only
  refine .ite ?_ ?_
  · exact .refl _ _
  · split
    · exact only_modRs _ _
    · exact .refl _ _
theorem only_rsPut (type : BitVec 8) (index : BitVec 8) (seq : Word) (data : List Byte) : OnlyChanges [.rs] s (s.rsPut type index seq data) :=
  ((only_rsRoom _ _).also (only_setSector _ _ _) (by decide)).also (only_modRs _ _) (by decide)
theorem only_rsCommit (type : BitVec 8) (index : BitVec 8) (data : List Byte) : OnlyChanges [.sc, .rs] s (s.rsCommit type index data) :=
  .ite (only_rsRefuse _ _) (((only_rsPut _ _ _ _ _).widen (by decide)).also (only_rsCompact _) (by decide))
theorem only_writeProgress (st : Nat) (target : Nat) : OnlyChanges [.sc, .rs] s (s.writeProgress st target) :=
  only_rsCommit _ _ _ _
theorem only_updFlag (b : BitVec 7) : OnlyChanges [.upd] s (s.updFlag b) := (only_modUpd _ _).both (only_hwSet _ _ _ _)
theorem only_campDone (ok : Bool) : OnlyChanges [.sc, .upd, .rs] s (s.campDone ok) := by
  unfold campDone
  extract_lets u told v
  have hu : OnlyChanges [.sc, .upd, .rs] s u := ((only_modUpd _ _).widen (by decide)).also (only_updFlag _ _) (by decide)
  have hv : OnlyChanges [.sc] u v := .foldFin (fun _ _ => .ite (only_postAll _ _ _ _ _ _ _ _ _) (.refl _ _)) _
  exact ((hu.also hv (by decide)).also (only_writeProgress _ _ _) (by decide)).also (only_setUpd _ _) (by decide)
theorem only_setNode (l : Fin 4) (r : Nat) : OnlyChanges [.upd] s (s.setNode l r) := only_modUpd _ _
theorem only_campFail : OnlyChanges [.sc, .upd, .rs] s s.campFail := by
  unfold campFail
  split
  · exact .refl _ _
  · exact ((only_setNode _ _ _).widen (by decide)).also (only_campDone _ _) (by decide)
theorem only_campResponse : OnlyChanges [.sc, .hl, .upd, .rs] s s.campResponse := by
  unfold campResponse
  dsimp only
  split
  · refine .ite ?_ ?_
    · exact (only_modUpd _ _).widen (by decide)
    · split
      · exact .ite ((((only_modUpd _ _).widen (by decide)).also (only_modUpd _ _) (by decide)).also (only_campData _ _) (by decide)) ((((only_modUpd _ _).widen (by decide)).also (only_modUpd _ _) (by decide)).also (only_campFail _) (by decide))
      · exact .ite ((((only_modUpd _ _).widen (by decide)).also (only_modUpd _ _) (by decide)).also (only_campGo _ _ _) (by decide)) (.ite (((((only_modUpd _ _).widen (by decide)).also (only_modUpd _ _) (by decide)).also (only_modUpd _ _) (by decide)).also (only_campData _ _) (by decide)) ((((only_modUpd _ _).widen (by decide)).also (only_modUpd _ _) (by decide)).also (only_campFail _) (by decide)))
      · exact .ite ((((only_modUpd _ _).widen (by decide)).also (only_modUpd _ _) (by decide)).also (only_modUpd _ _) (by decide)) ((((only_modUpd _ _).widen (by decide)).also (only_modUpd _ _) (by decide)).also (only_campFail _) (by decide))
      · exact ((only_modUpd _ _).widen (by decide)).also (only_modUpd _ _) (by decide)
  · exact (only_modUpd _ _).widen (by decide)
theorem only_campNext (fuel l : Nat) : OnlyChanges [.sc, .hl, .upd, .rs] s (campNext fuel l s) := by
  induction fuel generalizing l s with
  | zero => exact ((only_campDone _ _).widen (by decide))
  | succ fuel ih =>
    rw [campNext]
    refine .ite ((only_campDone _ _).widen (by decide)) ?_
    extract_lets k r u v
    have hu : OnlyChanges [.sc, .hl, .upd, .rs] s u := ((only_setNode _ _ _).widen (by decide)).also (only_modUpd _ _) (by decide)
    exact .ite (((hu.also (only_modUpd _ _) (by decide)).also (only_writeProgress _ _ _) (by decide)).also (only_campSend _) (by decide)) (hu.both (ih _ _))
theorem only_campLinkDone : OnlyChanges [.sc, .hl, .upd, .rs] s s.campLinkDone := by
  unfold campLinkDone
  split
  · exact .refl _ _
  · exact ((only_setNode _ _ _).widen (by decide)).also (only_campNext _ _ _) (by decide)
theorem only_campStep : OnlyChanges [.sc, .hl, .upd, .rs] s s.campStep := by
  unfold campStep
  split
  · exact .refl _ _
  · refine .ite (.refl _ _) ?_
    extract_lets u v w
    have hu : OnlyChanges [.sc, .hl, .upd, .rs] s u := ((only_modUpd _ _).widen (by decide))
    have hv : OnlyChanges [.sc, .hl, .upd, .rs] u v :=
      .ite (.ite (((only_modUpd _ _).widen (by decide)).also (only_campSend _) (by decide)) ((only_campFail _).widen (by decide))) (.ite ((only_campData _ _).widen (by decide)) (.refl _ _))
    have hw : OnlyChanges [.sc, .hl, .upd, .rs] s w := (hu.both hv).also (only_campResponse _) (by decide)
    refine .ite hw ?_
    split
    · exact hw
    · exact .ite (.ite (hw.also (only_campLinkDone _) (by decide)) hw) (hw.also (only_campNext _ _ _) (by decide))
theorem only_campGiveup (s0 : State) : OnlyChanges [.sc, .hl, .upd, .rs] s (campGiveup s0 s) := by
  unfold campGiveup
  split
  · exact .refl _ _
  · exact .ite (((only_modUpd _ _).widen (by decide)).also (only_campStep _) (by decide)) (.refl _ _)
theorem only_postFailed (c : Fin 256) (l : Fin 4) (msgid : BitVec 12) (reason : Nat) (handle : Nat) (tx : Nat) : OnlyChanges [.sc] s (s.postFailed c l msgid reason handle tx) :=
  only_post _ _ _ _ _ _ _ _ _
theorem only_giveUp (l : Fin 4) : OnlyChanges [.sc, .hl] s (s.giveUp l) := by
  unfold giveUp
  dsimp only
  split
  · exact .refl _ _
  · refine .ite ?_ ?_
    · split
      · exact ((only_modLink _ _ _).widen (by decide)).also (only_hlFlag _ _ _) (by decide)
      · refine .both ?_ ((only_postFailed _ _ _ _ _ _ _).widen (by decide))
        split
        · exact (((only_modLink _ _ _).widen (by decide)).also (only_hlFlag _ _ _) (by decide)).also (only_dropRequestOf _ _) (by decide)
        · exact (((only_modLink _ _ _).widen (by decide)).also (only_hlFlag _ _ _) (by decide)).also (only_setBuf _ _ _) (by decide)
    · exact .refl _ _
theorem only_giveUps : OnlyChanges [.sc, .hl, .upd, .rs] s s.giveUps :=
  .foldl (fun _ _ => .ite ((((only_giveUp _ _).widen (by decide)).also (only_campGiveup _ _) (by decide)).also (only_lateAck _ _) (by decide)) (((only_giveUp _ _).widen (by decide)).also (only_campGiveup _ _) (by decide))) _ _
theorem only_markSaved (p : Nat) : OnlyChanges [.mem] s (s.markSaved p) := .ite (only_modBank _ _ _) (.refl _ _)
theorem only_bankReadWord (a : Nat) : OnlyChanges [.mem, .reports, .freeCtr] s (s.bankReadWord a).2 := by
  have hs : OnlyChanges [.mem, .reports, .freeCtr] s (s.markSaved a) := ((only_markSaved _ _).widen (by decide))
  unfold bankReadWord
  split
  · exact .refl _ _
  · dsimp only
    split
    · exact hs
    · exact hs.also (only_bankCorr _ _) (by decide)
    · exact hs.also (only_bankUnc _ _) (by decide)
    · split
      · exact (hs.also (only_free _) (by decide)).also (only_bankUnc _ _) (by decide)
      · exact ((hs.also (only_free _) (by decide)).also (only_modMem _ _) (by decide)).also (only_bankCorr _ _) (by decide)
      · exact (hs.also (only_free _) (by decide)).also (only_modMem _ _) (by decide)
theorem only_memWrite (a size : Nat) (data : Word) : OnlyChanges [.mem, .reports, .freeCtr] s (s.memWrite a size data).2 := by
  unfold memWrite
  split
  · exact .refl _ _
  · rename_i p _
    have hr := s.only_bankReadWord (wordOf p)
    split
    · exact .refl _ _
    · split
      · exact ((only_bankPut _ _ _).widen (by decide))
      · split
        · exact (hr.of_pair ‹_›).also (only_bankPut _ _ _) (by decide)
        · exact hr.of_pair ‹_›
theorem only_putBytes (a : Nat) (bs : List Byte) : OnlyChanges [.mem, .reports, .freeCtr] s (s.putBytes a bs) := by
  induction bs generalizing s a with
  | nil => exact .refl _ _
  | cons b bs ih => exact (only_memWrite _ _ _ _).both (ih _ _)
theorem only_fillBuf (i : Fin 256) (msgid : BitVec 12) (payload : List Byte) :
    OnlyChanges [.mem, .reports, .freeCtr] s (s.fillBuf i msgid payload) := (only_memWrite _ _ _ _).both (only_putBytes _ _ _)
theorem only_matchResponse (x : Response) : OnlyChanges [.sc, .mem, .hl, .reports, .freeCtr] s (s.matchResponse x) := by
  unfold matchResponse
  dsimp only
  split
  · exact (((only_dropRequestOf _ _).widen (by decide)).also (only_fillBuf _ _ _ _) (by decide)).also (only_post _ _ _ _ _ _ _ _ _) (by decide)
  · exact ((only_modClient _ _ _).widen (by decide)).also (only_scFlag _ _) (by decide)
theorem only_matchAll : OnlyChanges [.sc, .mem, .hl, .reports, .freeCtr] s s.matchAll :=
  .foldl (fun _ _ => only_matchResponse _ _) _ _
theorem only_fltFlag (b : BitVec 8) : OnlyChanges [.flt] s (s.fltFlag b) := (only_modFlt _ _).both (only_hwSet _ _ _ _)
theorem only_supCopy : OnlyChanges [.tt, .tsi] s s.supCopy := .ite ((only_tsiCopy _ _).widen (by decide)) (.refl _ _)
theorem only_supSteps : OnlyChanges [.chans, .ads, .tt, .me, .ps, .afe, .sc, .mem, .hl, .tsi, .smb, .pack, .flt] s s.supSteps :=
  .ite (.refl _ _) (((only_modFlt _ _).widen (by decide)).both (.foldl (fun _ _ => only_supStep _ _) _ _))
theorem only_lift (u : Nat) : OnlyChanges [.chans, .ads, .tt, .me, .ps, .afe, .sc, .mem, .hl, .tsi, .smb, .pack, .flt] s (s.lift u) :=
  ((((((only_modUnit _ _ _).widen (by decide)).both (.foldl (fun _ _ => only_liftUnit _ _) _ _)).also (only_modFlt _ _) (by decide)).also (only_supSteps _) (by decide)).also (only_fltFlag _ _) (by decide)).also (only_postAll _ _ _ _ _ _ _ _ _) (by decide)
theorem only_liftNow (u : Nat) (cmd : Bool) : OnlyChanges [.chans, .ads, .tt, .me, .ps, .afe, .sc, .mem, .hl, .tsi, .smb, .pack, .flt] s (s.liftNow u cmd) :=
  .ite (.ite ((only_fltFlag _ _).widen (by decide)) (.refl _ _)) (.ite (.ite (only_lift _ _) (.refl _ _)) (.foldl (fun _ _ => only_lift _ _) _ _))
theorem only_settleLifts : OnlyChanges [.chans, .ads, .tt, .me, .ps, .afe, .sc, .mem, .hl, .tsi, .smb, .pack, .flt] s s.settleLifts :=
  .foldl (fun _ _ => only_liftNow _ _ _) _ _
theorem only_shiftStage (n : Fin 64) : OnlyChanges [.chans] s (s.shiftStage n) := only_modOut _ _ _
theorem only_psEnd (e : Fin 8) : OnlyChanges [.tt, .ps] s (s.psEnd e) := (only_raisePs _ _ _).widen (by decide)
theorem only_endCycle (on : Bool) : OnlyChanges [.chans, .ads, .tt, .me, .ps, .afe, .sc, .mem, .intc, .hl, .tsi, .smb, .pack, .flt, .upd, .rs, .reports, .freeCtr] s (s.endCycle on) :=
  .ite ((OnlyChanges.ite (((((((only_settleLifts _).widen (by decide)).also (only_matchAll _) (by decide)).also (only_giveUps _) (by decide)).also (only_admitAll _) (by decide)).both (.foldFin (fun _ _ => (only_shiftStage _ _).widen (by decide)) _)).both (.foldFin (fun _ _ => (only_psEnd _ _).widen (by decide)) _)) (((((only_settleLifts _).widen (by decide)).also (only_matchAll _) (by decide)).also (only_giveUps _) (by decide)).also (only_admitAll _) (by decide))).also (only_irqCycle _) (by decide)) (.ite (((((((only_settleLifts _).widen (by decide)).also (only_matchAll _) (by decide)).also (only_giveUps _) (by decide)).also (only_admitAll _) (by decide)).both (.foldFin (fun _ _ => (only_shiftStage _ _).widen (by decide)) _)).both (.foldFin (fun _ _ => (only_psEnd _ _).widen (by decide)) _)) (((((only_settleLifts _).widen (by decide)).also (only_matchAll _) (by decide)).also (only_giveUps _) (by decide)).also (only_admitAll _) (by decide)))
theorem only_frameCycle (on : Bool) : OnlyChanges [.tsi] s (s.frameCycle on) :=
  .ite (only_modTsi _ _) (.ite ((only_modTsi _ _).both (only_modCyc _ _ _)) (only_modTsi _ _))
theorem only_halt (n : Fin 64) : OnlyChanges [.chans, .groves] s (s.halt n) :=
  ((OnlyChanges.ite (only_modCyc _ _ _) (.refl _ _)).also (only_modCnt _ _ _) (by decide)).also (only_modGrove _ _ _) (by decide)
theorem only_fenceChan (n : Fin 64) (by_ : BitVec 4) : OnlyChanges [.chans, .groves, .tt] s (s.fenceChan n by_) :=
  .ite ((((only_modOut _ _ _).widen (by decide)).also (only_clearCause _ _ _) (by decide)).also (only_setCause _ _ _) (by decide)) (((((((((only_modOut _ _ _).widen (by decide)).also (only_clearCause _ _ _) (by decide)).also (only_setCause _ _ _) (by decide)).also (only_halt _ _) (by decide)).also (only_modChan _ _ _) (by decide)).also (only_dropRequest _ _) (by decide)).also (only_setCause _ _ _) (by decide)).both (.foldFin (fun _ _ => .ite (((only_modOut _ _ _).widen (by decide)).also (only_setCause _ _ _) (by decide)) (.refl _ _)) _))
theorem only_meFence (cause : Nat) : OnlyChanges [.chans, .groves, .ads, .tt, .me, .ps, .afe, .sc, .mem, .tsi, .reports] s (s.meFence cause) :=
  .ite (.refl _ _) (.ite ((((((only_modMe _ _).widen (by decide)).also (only_modMem _ _) (by decide)).also (only_bulkCancel _ _) (by decide)).both (.foldFin (fun _ _ => (only_fenceChan _ _ _).widen (by decide)) _)).also (only_report _ _ _ _ _) (by decide)) (.ite ((((((only_modMe _ _).widen (by decide)).also (only_modMem _ _) (by decide)).also (only_bulkCancel _ _) (by decide)).both (.foldFin (fun _ _ => (only_fenceChan _ _ _).widen (by decide)) _)).also (only_report _ _ _ _ _) (by decide)) (.ite ((((((only_modMe _ _).widen (by decide)).also (only_modMem _ _) (by decide)).also (only_bulkCancel _ _) (by decide)).both (.foldFin (fun _ _ => (only_fenceChan _ _ _).widen (by decide)) _)).also (only_report _ _ _ _ _) (by decide)) (((((only_modMe _ _).widen (by decide)).also (only_modMem _ _) (by decide)).also (only_bulkCancel _ _) (by decide)).both (.foldFin (fun _ _ => (only_fenceChan _ _ _).widen (by decide)) _)))))
/-- The words of a spilled record, read one by one. -/
theorem only_readRecord (k : Nat) (l : List Nat) (o : Option (List Word)) :
    OnlyChanges [.mem, .reports, .freeCtr] s
      (l.foldl (fun (p : Option (List Word) × State) i =>
        match p.1 with
        | none => p
        | some ws => match p.2.bankReadWord (p.2.spillAddr k i) with
          | (.ok w, s) => (some (ws ++ [w]), s)
          | (.error _, s) => (none, s)) (o, s)).2 := by
  induction l generalizing o s with
  | nil => exact .refl _ _
  | cons i l ih =>
    cases o with
    | none => exact ih _ _
    | some ws =>
      have hr := s.only_bankReadWord (s.spillAddr k i)
      rw [List.foldl_cons]
      dsimp only
      split
      · exact (hr.of_pair ‹_›).both (ih _ _)
      · exact (hr.of_pair ‹_›).both (ih _ _)
theorem only_fillWindow :
    OnlyChanges [.chans, .groves, .ads, .tt, .me, .ps, .afe, .sc, .mem, .tsi, .reports, .freeCtr] s s.fillWindow := by
  unfold fillWindow
  refine .ite (.refl _ _) ?_
  extract_lets k r
  have hr : OnlyChanges [.chans, .groves, .ads, .tt, .me, .ps, .afe, .sc, .mem, .tsi, .reports, .freeCtr] s r.2 :=
    ((only_readRecord _ _ _ _).widen (by decide))
  split
  · exact hr.also (only_meFence _ _) (by decide)
  · exact hr.also (only_modMe _ _) (by decide)
theorem only_pruneResults : OnlyChanges [.me] s s.pruneResults := only_modMe _ _
theorem only_putRecord (k : Nat) (r : List Word) : OnlyChanges [.mem] s (s.putRecord k r) :=
  .foldl (fun _ _ => only_bankPut _ _ _) _ _
theorem only_openWindow (f : Frame) : OnlyChanges [.chans, .groves, .ads, .tt, .me, .ps, .afe, .sc, .mem, .tsi, .reports] s (s.openWindow f) :=
  .ite ((only_modMe _ _).widen (by decide)) (.ite (only_meFence _ _) ((((only_putRecord _ _ _).widen (by decide)).also (only_modMe _ _) (by decide)).also (only_modMe _ _) (by decide)))
theorem only_countDispatch (due : W48) (n : Nat) : OnlyChanges [.tt] s (s.countDispatch due n) := only_modTt _ _
theorem only_takeCause (src : ReqSrc) : OnlyChanges [.chans, .ads, .tt, .ps, .afe, .tsi] s (s.takeCause src).2 := by
  unfold takeCause
  dsimp only
  split
  · exact ((only_dropRequest _ _).widen (by decide)).also (only_modChan _ _ _) (by decide)
  · exact ((only_dropRequest _ _).widen (by decide)).also (only_modAd _ _ _) (by decide)
  · exact ((only_dropRequest _ _).widen (by decide)).also (only_modEng _ _ _) (by decide)
  · exact ((only_dropRequest _ _).widen (by decide)).also (only_modTsi _ _) (by decide)
  · exact ((only_dropRequest _ _).widen (by decide)).also (only_modAdc _ _ _) (by decide)
theorem only_dispatchCand (c : Cand) (n : Nat) : OnlyChanges [.chans, .groves, .ads, .tt, .me, .ps, .afe, .sc, .mem, .tsi, .flt, .reports] s (s.dispatchCand c n) := by
  unfold dispatchCand
  dsimp only
  split
  · exact .ite (((((only_freeEntry _ _).widen (by decide)).also (only_countDispatch _ _ _) (by decide)).both (only_modCyc _ _ _)).also (only_openWindow _ _) (by decide)) (((((((only_freeEntry _ _).widen (by decide)).also (only_countDispatch _ _ _) (by decide)).both (only_modCyc _ _ _)).also (only_openWindow _ _) (by decide)).also (only_modMe _ _) (by decide)).also (only_fltBack _ _) (by decide))
  · exact .ite ((((only_takeCause _ _).widen (by decide)).also (only_countDispatch _ _ _) (by decide)).also (only_openWindow _ _) (by decide)) ((((((only_takeCause _ _).widen (by decide)).also (only_countDispatch _ _ _) (by decide)).also (only_openWindow _ _) (by decide)).also (only_modMe _ _) (by decide)).also (only_fltBack _ _) (by decide))
theorem only_selectNext : OnlyChanges [.chans, .groves, .ads, .tt, .me, .ps, .afe, .sc, .mem, .tsi, .flt, .reports, .freeCtr] s
    s.selectNext := by
  unfold selectNext
  refine .ite (.refl _ _) ?_
  extract_lets u resume v
  have hv : OnlyChanges [.chans, .groves, .ads, .tt, .me, .ps, .afe, .sc, .mem, .tsi, .flt, .reports, .freeCtr] s v :=
    ((only_pruneResults _).widen (by decide)).also (only_modMe _ _) (by decide)
  have hresume : OnlyChanges [.chans, .groves, .ads, .tt, .me, .ps, .afe, .sc, .mem, .tsi, .flt, .reports, .freeCtr] s (resume v) :=
    hv.both (.ite ((only_fillWindow _).widen (by decide)) (((only_fillWindow _).widen (by decide)).also (only_modMe _ _) (by decide)))
  split
  · exact .ite (hv.also (only_dispatchCand _ _ _) (by decide)) hresume
  · exact hv.also (only_dispatchCand _ _ _) (by decide)
  · exact hresume
  · exact hv
theorem only_discardWindows (c : Fin 256) :
    OnlyChanges [.chans, .groves, .ads, .tt, .me, .ps, .afe, .sc, .mem, .tsi, .flt, .reports, .freeCtr] s (s.discardWindows c) := by
  unfold discardWindows
  extract_lets recs kept u cur v
  have hu : OnlyChanges [.chans, .groves, .ads, .tt, .me, .ps, .afe, .sc, .mem, .tsi, .flt, .reports, .freeCtr] s u :=
    .ite (.refl _ _) ((OnlyChanges.foldl (fun _ _ => ((only_putRecord _ _ _).widen (by decide))) _ _).also (only_modMe _ _) (by decide))
  have hv : OnlyChanges [.chans, .groves, .ads, .tt, .me, .ps, .afe, .sc, .mem, .tsi, .flt, .reports, .freeCtr] s v :=
    hu.also (only_modMe _ _) (by decide)
  clear_value v cur
  cases cur with
  | some f => exact .ite (hv.also (only_selectNext _) (by decide)) (hv.also (only_pruneResults _) (by decide))
  | none => exact hv.also (only_pruneResults _) (by decide)
theorem only_freeClientEntries (c : Fin 256) : OnlyChanges [.tt] s (s.freeClientEntries c) :=
  (OnlyChanges.foldl (fun _ _ => only_freeEntry _ _) _ _).also (only_ttFlag _ _) (by decide)
theorem only_cutClient (c : Fin 256) (own : BitVec 64) : OnlyChanges [.chans, .groves, .ads, .tt, .me, .ps, .afe, .sc, .mem, .dma, .hl, .tsi, .flt, .reports, .freeCtr] s (s.cutClient c own) :=
  (((((only_freeClientEntries _ _).widen (by decide)).also (only_discardWindows _ _) (by decide)).both (.foldFin (fun _ _ => .ite ((only_fenceChan _ _ _).widen (by decide)) (.refl _ _)) _)).both (.foldFin (fun _ _ => .ite (((only_dmaError _ _ _).widen (by decide)).also (only_modDma _ _ _) (by decide)) (.refl _ _)) _)).both (.foldl (fun _ _ => (only_dropRequestOf _ _).widen (by decide)) _ _)
theorem only_fenceClient (c : Fin 256) (cause : Nat) : OnlyChanges [.chans, .groves, .ads, .tt, .me, .ps, .afe, .sc, .mem, .dma, .hl, .tsi, .flt, .reports, .freeCtr] s (s.fenceClient c cause) :=
  .ite (.refl _ _) (.ite (((((only_cutClient _ _ _).both (only_modCyc _ _ _)).also (only_modClient _ _ _) (by decide)).also (only_scFlag _ _) (by decide)).also (only_modSc _ _) (by decide)) ((((((only_cutClient _ _ _).both (only_modCyc _ _ _)).also (only_modClient _ _ _) (by decide)).also (only_scFlag _ _) (by decide)).also (only_modSc _ _) (by decide)).also (only_report _ _ _ _ _) (by decide)))
theorem only_applyCut (x : Cut) : OnlyChanges [.chans, .groves, .ads, .tt, .me, .ps, .afe, .sc, .mem, .dma, .hl, .tsi, .flt, .reports, .freeCtr] s (s.applyCut x) :=
  .ite (only_fenceClient _ _ _) (.ite (.refl _ _) ((only_cutClient _ _ _).also (only_modClient _ _ _) (by decide)))
theorem only_applyCuts : OnlyChanges [.chans, .groves, .ads, .tt, .me, .ps, .afe, .sc, .mem, .dma, .hl, .tsi, .flt, .reports, .freeCtr] s s.applyCuts :=
  ((only_modSc _ _).widen (by decide)).both (.foldl (fun _ _ => only_applyCut _ _) _ _)
theorem only_rsCycle : OnlyChanges [.rs] s s.rsCycle := .ite (only_modRs _ _) (.refl _ _)
theorem only_sendPulses (ms : List (Fin 64)) : OnlyChanges [.groves] s (s.sendPulses ms) :=
  .ite (.refl _ _) (.foldl (fun _ _ => only_modGrove _ _ _) _ _)
theorem only_noteValley (n : Fin 64) : OnlyChanges [.groves] s (s.noteValley n) := .ite (.refl _ _) (only_modGrove _ _ _)
theorem only_fireHead (n : Fin 64) : OnlyChanges [.chans] s (s.fireHead n) := by
  unfold fireHead
  dsimp only
  split
  · exact .refl _ _
  · exact ((((only_modOut _ _ _).also (only_setOstat _ _ _) (by decide)).both (only_modCyc _ _ _)).also (only_markHead _ _) (by decide)).also (only_noteUnder _ _) (by decide)
theorem only_readmitStep (n : Fin 64) : OnlyChanges [.chans] s (s.readmitStep n) :=
  .ite (.ite ((only_modOut _ _ _).also (only_clearCause _ _ _) (by decide)) (only_modOut _ _ _)) (.refl _ _)
theorem only_unlink (m : Fin 64) : OnlyChanges [.chans] s (s.unlink m) :=
  .foldFin (fun _ _ => .ite (.ite ((only_modOut _ _ _).also (only_clearCause _ _ _) (by decide)) (only_modOut _ _ _)) (.refl _ _)) _
theorem only_leaveClearing (s1 : State)  (n : Fin 64) : OnlyChanges [.chans] s (leaveClearing s1 s n) :=
  .ite (.ite ((((only_modOut _ _ _).also (only_modOut _ _ _) (by decide)).also (only_unlink _ _) (by decide)).also (only_unlink _ _) (by decide)) (.refl _ _)) (.ite ((only_modOut _ _ _).also (only_unlink _ _) (by decide)) (.refl _ _))
theorem only_settleRdm (g : Fin 8) : OnlyChanges [.groves] s (s.settleRdm g) :=
  .ite ((only_modGrove _ _ _).both (only_hwSet _ _ _ _)) (.refl _ _)
theorem only_beginRun (n : Fin 64) (cnt : W48) (down : Bool) : OnlyChanges [.chans] s (s.beginRun n cnt down) :=
  (only_modChan _ _ _).also (only_clearCause _ _ _) (by decide)
theorem only_refuseStart (n : Fin 64) : OnlyChanges [.chans] s (s.refuseStart n) := only_modCnt _ _ _
theorem only_deliverPulses : OnlyChanges [.chans, .groves, .tt] s s.deliverPulses :=
  .ite (.refl _ _) (((((OnlyChanges.foldFin (fun _ _ => (only_modGrove _ _ _).widen (by decide)) _).both (.foldl (fun _ _ => (only_startChan _ _ _).widen (by decide)) _ _)).also (only_runTicks _ _ _) (by decide)).both (only_modCyc _ _ _)).also (only_sendPulses _ _) (by decide))
theorem only_settleArm (g : Fin 8) : OnlyChanges [.groves] s (s.settleArm g) := .ite (only_modGrove _ _ _) (.refl _ _)
theorem only_channelCycle : OnlyChanges [.chans, .groves, .tt] s s.channelCycle := by
  unfold channelCycle
  extract_lets u v
  have hu : OnlyChanges [.chans, .groves, .tt] s u :=
    .foldFin (fun _ _ => ((only_modGrove _ _ _).widen (by decide)).also (only_settleArm _ _) (by decide)) _
  have hv : OnlyChanges [.chans] u v := .ite (.refl _ _) (.foldFin (fun _ _ => only_modOut _ _ _) _)
  exact (hu.also hv (by decide)).also (only_deliverPulses _) (by decide)
theorem only_dropAngleEdges (d : Fin 3) : OnlyChanges [.chans] s (s.dropAngleEdges d) := only_discardEdges _ _
theorem only_beginDomain (d : Fin 3) : OnlyChanges [.chans, .ads, .tt] s (s.beginDomain d) :=
  .ite (.ite (((only_modAd _ _ _).widen (by decide)).also (only_loseDomain _ _ _) (by decide)) ((only_modAd _ _ _).widen (by decide))) (.refl _ _)
theorem only_checkerTrip (i : Fin 2) : OnlyChanges [.chans, .ads, .pls, .tt, .pm] s (s.checkerTrip i) := by
  unfold checkerTrip
  dsimp only
  refine .ite ?_ (.refl _ _)
  have hv := ((only_modPl s i fun p => { p with tripDue := false, trip := true, trips := satInc p.trips })
    |>.widen (ps := [.chans, .ads, .pls, .tt, .pm]) (by decide)).both (only_hwSet _ (0x4610 + 0x20 * i.val) 1 _)
  have hw := hv.also (only_modPm _ fun x => { x with sec := { x.sec with plaus := x.sec.plaus + 1 } }) (by decide)
  split
  · exact .ite ((hw.also (only_raiseAd _ _ _) (by decide)).also (only_loseDomain _ _ _) (by decide)) (hw.also (only_raiseAd _ _ _) (by decide))
  · exact hw
theorem only_governorCut (d : Fin 3) : OnlyChanges [.chans, .ads, .tt] s (s.governorCut d) := by
  unfold governorCut
  dsimp only
  refine .ite ?_ ?_
  · split
    · exact .ite ((((only_modAd _ _ _).widen (by decide)).also (only_loseDomain _ _ _) (by decide)).also (only_modAd _ _ _) (by decide)) (((only_modAd _ _ _).widen (by decide)).also (only_loseDomain _ _ _) (by decide))
    · exact (only_modAd _ _ _).widen (by decide)
  · exact .refl _ _
theorem only_angleCycle : OnlyChanges [.chans, .ads, .pls, .tt, .pm] s s.angleCycle :=
  (((OnlyChanges.foldFin (fun _ _ => .ite (((only_modAd _ _ _).widen (by decide)).both (.foldFin (fun _ _ => .ite ((only_setCause _ _ _).widen (by decide)) (.refl _ _)) _)) (.refl _ _)) _).both (.foldFin (fun _ _ => (only_beginDomain _ _).widen (by decide)) _)).both (.foldFin (fun _ _ => only_checkerTrip _ _) _)).both (.foldFin (fun _ _ => (only_governorCut _ _).widen (by decide)) _)
theorem only_anglesFall (d : Fin 3) : OnlyChanges [.tt] s (s.anglesFall d) := by
  unfold anglesFall
  split
  · exact .refl _ _
  · exact only_modTt _ _
theorem only_timetableCycle : OnlyChanges [.tt] s s.timetableCycle := .foldFin (fun _ _ => only_anglesFall _ _) _
theorem only_psTake (e : Fin 8) (r : Nat) (w : Word) : OnlyChanges [.tt, .ps] s (s.psTake e r w) :=
  .ite ((only_raisePs _ _ _).widen (by decide)) (((only_modEng _ _ _).widen (by decide)).both (only_modCyc _ _ _))
theorem only_psBegin (e : Fin 8) : OnlyChanges [.tt, .ps] s (s.psBegin e) := by
  unfold psBegin
  dsimp only
  split
  · exact (only_modEng _ _ _).widen (by decide)
  · exact (((only_modEng _ _ _).widen (by decide)).also (only_modEng _ _ _) (by decide)).also (only_psTake _ _ _ _) (by decide)
theorem only_modSig (f : Sig → Sig) : OnlyChanges [.afe] s (s.modSig f) := only_modAfe _ _
theorem only_sigCycle : OnlyChanges [.afe] s s.sigCycle := by
  unfold sigCycle
  dsimp only
  split
  · exact .refl _ _
  · split
    · exact .refl _ _
    · exact .ite (only_modSig _ _) (.ite (.refl _ _) (.ite (only_modSig _ _) (.ite (only_modSig _ _) (.refl _ _))))
theorem only_memRead (a size : Nat) : OnlyChanges [.mem, .reports, .freeCtr] s (s.memRead a size).2 := by
  unfold memRead
  split
  · exact .refl _ _
  · rename_i p _
    have hr := s.only_bankReadWord (wordOf p)
    split
    · exact hr.of_pair ‹_›
    · exact hr
theorem only_readWords (a n : Nat) : OnlyChanges [.mem, .reports, .freeCtr] s (s.readWords a n).2 := by
  induction n generalizing s a with
  | zero => exact .refl _ _
  | succ n ih =>
    have hr := s.only_memRead a 2
    rw [readWords]
    split
    · exact hr.of_pair ‹_›
    · have ht := hr.of_pair ‹_›
      split
      · exact ht.both ((ih _ _).of_pair ‹_›)
      · exact ht.both ((ih _ _).of_pair ‹_›)
theorem only_dmaFetch (c : Fin 8) : OnlyChanges [.mem, .dma, .reports, .freeCtr] s (s.dmaFetch c) := by
  have hr := s.only_readWords (s.dmac c).desc.toNat 4
  unfold dmaFetch
  refine .ite (.refl _ _) ?_
  split
  · have ht : OnlyChanges [.mem, .dma, .reports, .freeCtr] s _ := ((hr.of_pair ‹_›).widen (by decide))
    dsimp only
    split
    · exact ht.also (only_modDma _ _ _) (by decide)
    · exact ht.also (only_dmaError _ _ _) (by decide)
  · have ht : OnlyChanges [.mem, .dma, .reports, .freeCtr] s _ := ((hr.of_pair ‹_›).widen (by decide))
    exact ht.also (only_dmaError _ _ _) (by decide)
theorem only_dmaCycle (c : Fin 8) : OnlyChanges [.mem, .dma, .reports, .freeCtr] s (s.dmaCycle c) :=
  (only_dmaFetch _ _).also (only_modDma _ _ _) (by decide)

end State
end Sys2Proof.Machine
end

section
/-!
# An idle step is one core cycle

The parts that no operation of a core cycle changes follow from the frames. The prescaler counts are parts of the groves, which
fences and ticks change: what holds of every grove is that its count moves at the head of the channels' cycle alone.
-/
namespace Sys2Proof.Machine

/-- A grove's prescaler: its setting and its count. -/
def Grove.prescaler (x : Grove) : BitVec 16 × Nat := (x.psc, x.pscCount)

/-- From s to t no grove's prescaler moves. -/
def KeepsCounts (s t : State) : Prop := ∀ g, (t.grove g).prescaler = (s.grove g).prescaler

namespace KeepsCounts
variable {s t u : State}

theorem refl (s : State) : KeepsCounts s s := fun _ => rfl
theorem psc (h : KeepsCounts s t) (g : Fin 8) : (t.grove g).psc = (s.grove g).psc := congrArg Prod.fst (h g)
theorem count (h : KeepsCounts s t) (g : Fin 8) : (t.grove g).pscCount = (s.grove g).pscCount := congrArg Prod.snd (h g)
theorem trans (h : KeepsCounts s t) (k : KeepsCounts t u) : KeepsCounts s u := fun g => (k g).trans (h g)
/-- A change that touches no grove. -/
theorem of_only {ps : List Part} (h : OnlyChanges ps s t) (hp : .groves ∉ ps) : KeepsCounts s t := fun g => by rw [h.grove hp]
theorem ite {c : Prop} [Decidable c] (h : KeepsCounts s t) (k : KeepsCounts s u) : KeepsCounts s (if c then t else u) := by
  split <;> assumption
theorem foldl {α : Type} {f : State → α → State} (h : ∀ s a, KeepsCounts s (f s a)) (l : List α) (s : State) :
    KeepsCounts s (l.foldl f s) := by
  induction l generalizing s with
  | nil => exact refl s
  | cons a l ih => exact (h s a).trans (ih _)
theorem foldFin {n : Nat} {f : Fin n → State → State} (h : ∀ a s, KeepsCounts s (f a s)) (s : State) :
    KeepsCounts s (foldFin n f s) := foldl (fun s a => h a s) _ s
theorem modGrove (s : State) (g : Fin 8) {f : Grove → Grove} (hf : ∀ x, (f x).prescaler = x.prescaler) :
    KeepsCounts s (s.modGrove g f) := fun h => by
  rw [State.grove_modGrove]
  split
  · next hg => rw [hf, hg]
  · rfl

theorem modCyc {f : Cycle → Cycle} (h : KeepsCounts s t) : KeepsCounts s (t.modCyc f) := h
theorem hwSet {a : Nat} {w : Word} (h : KeepsCounts s t) : KeepsCounts s (t.hwSet a w) := h

end KeepsCounts

namespace State
variable (s : State)

/-! ## Fences -/

theorem counts_halt (n : Fin 64) : KeepsCounts s (s.halt n) := by
  have h : OnlyChanges [.chans] s
      ((if (s.chan n).c.run then s.modCyc fun c => { c with stopped := n :: c.stopped } else s).modCnt n fun c =>
        { c with run := false, goPend := false }) :=
    (OnlyChanges.ite (only_modCyc _ _ _) (.refl _ _)).both (only_modCnt _ _ _)
  exact (KeepsCounts.of_only h (by decide)).trans (.modGrove _ _ fun _ => rfl)

theorem counts_fenceChan (n : Fin 64) (by_ : BitVec 4) : KeepsCounts s (s.fenceChan n by_) := by
  unfold fenceChan
  extract_lets u v w x
  have hv : OnlyChanges [.chans] s v := ((only_modOut _ _ _).both (only_clearCause _ _ _)).both (only_setCause _ _ _)
  have hw : OnlyChanges [.chans] (v.halt n) w := only_modChan _ _ _
  have hx : OnlyChanges [.chans, .tt] w x := ((only_dropRequest _ _).widen (by decide)).also (only_setCause _ _ _) (by decide)
  have hlinks : ∀ t, OnlyChanges [.chans] t (foldFin 64 (fun m s =>
      if s.isMaster n m && s.linked m then
        (s.modOut m fun o => { o with linkBy := o.linkBy ||| oneBit 64 n.val }).setCause m cLINK
      else s) t) := fun t => .foldFin (fun _ _ => .ite ((only_modOut _ _ _).both (only_setCause _ _ _)) (.refl _ _)) t
  refine .ite (.of_only hv (by decide)) ?_
  exact ((((KeepsCounts.of_only hv (by decide)).trans (v.counts_halt n)).trans (.of_only hw (by decide))).trans
    (.of_only hx (by decide))).trans (.of_only (hlinks x) (by decide))

theorem counts_meFence (cause : Nat) : KeepsCounts s (s.meFence cause) := by
  unfold meFence
  refine .ite (.refl s) ?_
  extract_lets u v w x
  have hw : OnlyChanges [.chans, .ads, .tt, .me, .ps, .afe, .sc, .mem, .tsi] s w :=
    (((only_modMe _ _).widen (by decide)).also (only_modMem _ _) (by decide)).also (only_bulkCancel _ _) (by decide)
  have hx : KeepsCounts s x := (KeepsCounts.of_only hw (by decide)).trans (.foldFin (fun _ _ => counts_fenceChan _ _ _) _)
  have reported : ∀ m, KeepsCounts s (x.report m 4 0 0) := fun m => hx.trans (.of_only (only_report _ _ _ _ _) (by decide))
  exact .ite (reported _) (.ite (reported _) (.ite (reported _) hx))

/-! ## Dispatches after windows are discarded -/

theorem counts_openWindow (f : Frame) : KeepsCounts s (s.openWindow f) := by
  have hme : ∀ (t : State) m, KeepsCounts t (t.modMe m) := fun t m => .of_only (only_modMe _ _) (by decide)
  exact .ite (hme _ _) (.ite (counts_meFence _ _)
    (((KeepsCounts.of_only (only_putRecord _ _ _) (by decide)).trans (hme _ _)).trans (hme _ _)))

theorem counts_dispatchCand (c : Cand) (n : Nat) : KeepsCounts s (s.dispatchCand c n) := by
  have hrun : ∀ t : State, KeepsCounts t (if t.me.st = .fenced then t else
      (t.modMe fun m => { m with st := .running }).fltBack (unitKey 4 0)) := fun t =>
    .ite (.refl t) (.of_only (ps := [.me, .flt]) (((only_modMe _ _).widen (by decide)).also (only_fltBack _ _) (by decide)) (by decide))
  cases c with
  | entry h e =>
    have hfree : OnlyChanges [.tt] s (((s.freeEntry h).countDispatch e.dueAt n).modCyc fun c =>
        { c with selected := h :: c.selected }) :=
      ((only_freeEntry _ _).both (only_countDispatch _ _ _)).both (only_modCyc _ _ _)
    exact ((KeepsCounts.of_only hfree (by decide)).trans (counts_openWindow _ _)).trans (hrun _)
  | req r =>
    have htake : OnlyChanges [.chans, .ads, .tt, .ps, .afe, .tsi] s ((s.takeCause r.src).2.countDispatch r.at_ n) :=
      (only_takeCause _ _).also (only_countDispatch _ _ _) (by decide)
    exact ((KeepsCounts.of_only htake (by decide)).trans (counts_openWindow _ _)).trans (hrun _)

theorem counts_fillWindow : KeepsCounts s s.fillWindow := by
  unfold fillWindow
  refine .ite (.refl s) ?_
  extract_lets k r
  have hr : KeepsCounts s r.2 := .of_only (only_readRecord _ _ _ _) (by decide)
  split
  · exact hr.trans (counts_meFence _ _)
  · exact hr.trans (.of_only (only_modMe _ _) (by decide))

theorem counts_selectNext : KeepsCounts s s.selectNext := by
  have hme : ∀ (t : State) m, KeepsCounts t (t.modMe m) := fun t m => .of_only (only_modMe _ _) (by decide)
  unfold selectNext
  refine .ite (.refl s) ?_
  extract_lets u resume v
  have hv : KeepsCounts s v := (KeepsCounts.of_only (only_pruneResults _) (by decide)).trans (hme _ _)
  have hresume : KeepsCounts s (resume v) :=
    hv.trans (.ite (counts_fillWindow _) ((counts_fillWindow _).trans (hme _ _)))
  split
  · exact .ite (hv.trans (counts_dispatchCand _ _ _)) hresume
  · exact hv.trans (counts_dispatchCand _ _ _)
  · exact hresume
  · exact hv

theorem counts_discardWindows (c : Fin 256) : KeepsCounts s (s.discardWindows c) := by
  unfold discardWindows
  extract_lets recs kept u cur v
  have hu : OnlyChanges [.mem, .me] s u :=
    .ite (.refl _ _) ((OnlyChanges.foldl (fun _ _ => (only_putRecord _ _ _).widen (by decide)) _ _).also (only_modMe _ _) (by decide))
  have hv : OnlyChanges [.mem, .me] s v := hu.also (only_modMe _ _) (by decide)
  have hcounts : KeepsCounts s v := .of_only hv (by decide)
  have hprune : KeepsCounts s v.pruneResults := hcounts.trans (.of_only (only_pruneResults _) (by decide))
  clear_value v cur
  cases cur with
  | some f => exact .ite (hcounts.trans (counts_selectNext _)) hprune
  | none => exact hprune

/-! ## Clients -/

theorem counts_cutClient (c : Fin 256) (own : BitVec 64) : KeepsCounts s (s.cutClient c own) := by
  unfold cutClient
  extract_lets u v w
  have hu : KeepsCounts s u :=
    (KeepsCounts.of_only (only_freeClientEntries _ _) (by decide)).trans (counts_discardWindows _ _)
  have hv : KeepsCounts u v := .foldFin (fun _ _ => .ite (counts_fenceChan _ _ _) (.refl _)) _
  have hw : OnlyChanges [.dma] v w := .foldFin (fun _ _ => .ite ((only_dmaError _ _ _).both (only_modDma _ _ _)) (.refl _ _)) _
  exact ((hu.trans hv).trans (.of_only hw (by decide))).trans
    (.foldl (fun _ _ => .of_only (only_dropRequestOf _ _) (by decide)) _ _)

theorem counts_fenceClient (c : Fin 256) (cause : Nat) : KeepsCounts s (s.fenceClient c cause) := by
  unfold fenceClient
  refine .ite (.refl s) ?_
  extract_lets u v w
  have hv : OnlyChanges [.sc] (s.cutClient c (ownedMask (s.client c))) w :=
    ((OnlyChanges.both (only_modCyc _ _ _) (only_modClient _ _ _)).both (only_scFlag _ _)).both (only_modSc _ _)
  have hw : KeepsCounts s w := (counts_cutClient _ _ _).trans (.of_only hv (by decide))
  exact .ite hw (hw.trans (.of_only (only_report _ _ _ _ _) (by decide)))

theorem counts_applyCuts : KeepsCounts s s.applyCuts := by
  refine (KeepsCounts.of_only (only_modSc _ _) (by decide)).trans (.foldl (fun t x => ?_) _ _)
  exact .ite (counts_fenceClient _ _ _) (.ite (.refl t)
    ((counts_cutClient _ _ _).trans (.of_only (only_modClient _ _ _) (by decide))))

/-! ## The channels' cycle -/

theorem counts_sendPulses (ms : List (Fin 64)) : KeepsCounts s (s.sendPulses ms) := by
  refine .ite (.refl s) (.foldl (fun _ _ => ?_) _ _)
  exact .modGrove _ _ fun _ => rfl

theorem counts_noteValley (n : Fin 64) : KeepsCounts s (s.noteValley n) := .ite (.refl s) (.modGrove _ _ fun _ => rfl)

theorem counts_settleRdm (g : Fin 8) : KeepsCounts s (s.settleRdm g) :=
  .ite (.hwSet (.modGrove _ _ fun _ => rfl)) (.refl s)

theorem counts_settleArm (g : Fin 8) : KeepsCounts s (s.settleArm g) := .ite (.modGrove _ _ fun _ => rfl) (.refl s)

theorem counts_tickChan (n : Fin 64) (t : Tick) : KeepsCounts s (s.tickChan n t) := by
  unfold tickChan
  extract_lets cp c fl mv fresh u v w
  have hv : OnlyChanges [.chans, .tt] s v :=
    ((only_modChan _ _ _).widen (by decide)).also (only_raiseChan _ _ _) (by decide)
  have hw : KeepsCounts s w := (KeepsCounts.of_only hv (by decide)).trans (.ite (counts_noteValley _ _) (.refl v))
  have onChans : ∀ {x}, OnlyChanges [.chans] w x → KeepsCounts s x := fun h => hw.trans (.of_only h (by decide))
  refine .ite (onChans (only_noteUnder _ _)) ?_
  split
  · exact .ite (onChans (only_fireHead _ _)) (.ite (onChans
      ((((only_modOut _ _ _).both (only_setOstat _ _ _)).both (only_markHead _ _)).both (only_noteUnder _ _)))
      (onChans (only_noteUnder _ _)))
  · exact onChans (only_noteUnder _ _)

theorem counts_runTicks (s1 : State) (ts : List (Fin 64 × Tick)) : KeepsCounts s (runTicks s1 s ts) :=
  (((KeepsCounts.foldl (fun _ _ => counts_tickChan _ _ _) _ _).trans
    (.foldl (fun _ _ => .of_only (only_readmitStep _ _) (by decide)) _ _)).trans
    (.foldl (fun _ _ => .of_only (only_leaveClearing _ _ _) (by decide)) _ _)).trans
    (.foldl (fun _ _ => counts_settleRdm _ _) _ _)

theorem counts_deliverPulses : KeepsCounts s s.deliverPulses := by
  unfold deliverPulses
  extract_lets ns u s0 go v ts w
  have hu : KeepsCounts s u := by
    refine .foldFin (fun _ _ => ?_) s
    exact .modGrove _ _ fun _ => rfl
  have hv : KeepsCounts u v := .foldl (fun _ _ => .of_only (only_startChan _ _ _) (by decide)) _ _
  have hw : KeepsCounts v w := .modCyc (counts_runTicks _ _ _)
  exact .ite (.refl s) (((hu.trans hv).trans hw).trans (counts_sendPulses _ _))

/-- The channels' cycle moves every grove's count by one. -/
theorem counts_channelCycle (g : Fin 8) : (s.channelCycle.grove g).pscCount = (s.grove g).pscCount + 1 := by
  unfold channelCycle
  extract_lets u v
  have hv : OnlyChanges [.chans] u v := .ite (.refl _ _) (.foldFin (fun _ _ => only_modOut _ _ _) _)
  have hu : (u.grove g).pscCount = (s.grove g).pscCount + 1 := by
    obtain ⟨w, hw, hat⟩ := foldl_at (p := fun s : State => (s.grove g).pscCount)
      (f := fun s g => (s.modGrove g fun x => { x with pscCount := x.pscCount + 1 }).settleArm g)
      (List.mem_finRange g) (List.nodup_finRange 8)
      (fun t h _ hne => by rw [(counts_settleArm _ _).count, grove_modGrove, if_neg hne]) s
    exact hat.trans (((counts_settleArm _ g).count g).trans (by rw [grove_modGrove_self, hw]))
  rw [(counts_deliverPulses v).count, hv.grove (by decide), hu]

/-! ## The core cycle in its stages -/

/-- Time passes, and TB counts while it runs. -/
def advanced : State :=
  let t : State := { s with time := s.time + 1, cyc := {} }
  if t.tbs.run then t.modTbs fun x => { x with tb := x.tb + 1 } else t

/-- The next cycle begins in each block. -/
def begun (on : Bool) : State :=
  let t := (s.frameCycle on).applyCuts.rsCycle
  if on then
    (foldFin 8 (fun e s => s.psBegin e) t.channelCycle.angleCycle.timetableCycle).sigCycle |> foldFin 8 (fun c s => s.dmaCycle c)
  else t

theorem coreCycle_eq :
    s.coreCycle = (s.endCycle (s.tbs.run && s.pwr.pdUp)).advanced.begun (s.tbs.run && s.pwr.pdUp) := rfl

theorem only_advanced : OnlyChanges [.tbs, .time] s s.advanced := by
  have ht : OnlyChanges [.tbs, .time] s { s with time := s.time + 1, cyc := {} } := by
    intro p hp
    cases p <;> first | rfl | exact absurd (by decide) hp
  exact .ite (ht.also (only_modTbs _ _) (by decide)) ht

theorem time_advanced : s.advanced.time = s.time + 1 := by
  unfold advanced
  dsimp only
  split <;> rfl

theorem tbs_advanced : s.advanced.tbs = { s.tbs with tb := if s.tbs.run then s.tbs.tb + 1 else s.tbs.tb } := by
  unfold advanced
  dsimp only
  split <;> rfl

/-- What the operations of a cycle change. -/
def cycleParts : List Part :=
  [.chans, .groves, .ads, .pls, .tt, .me, .ps, .afe, .sc, .mem, .dma, .intc, .hl, .tsi, .smb, .pack, .flt, .upd, .pm, .rs,
    .reports, .freeCtr]

theorem only_begun (on : Bool) : OnlyChanges cycleParts s (s.begun on) := by
  have ht : OnlyChanges cycleParts s (s.frameCycle on).applyCuts.rsCycle :=
    (((only_frameCycle _ _).widen (by decide)).also (only_applyCuts _) (by decide)).also (only_rsCycle _) (by decide)
  have hcycle : ∀ t : State, OnlyChanges cycleParts t t.channelCycle.angleCycle.timetableCycle := fun t =>
    (((only_channelCycle t).widen (by decide)).also (only_angleCycle _) (by decide)).also (only_timetableCycle _) (by decide)
  have hps : ∀ t : State, OnlyChanges cycleParts t (foldFin 8 (fun e s => s.psBegin e) t) := fun t =>
    .foldFin (fun _ _ => (only_psBegin _ _).widen (by decide)) t
  have hdma : ∀ t : State, OnlyChanges cycleParts t (foldFin 8 (fun c s => s.dmaCycle c) t) := fun t =>
    .foldFin (fun _ _ => (only_dmaCycle _ _).widen (by decide)) t
  exact .ite ((((ht.both (hcycle _)).both (hps _)).also (only_sigCycle _) (by decide)).both (hdma _)) ht

theorem only_coreCycle : OnlyChanges ([.tbs, .time] ++ cycleParts) s s.coreCycle := by
  rw [coreCycle_eq]
  exact (((only_endCycle _ _).widen (by decide)).also (only_advanced _) (by decide)).also (only_begun _ _) (by decide)

/-- The counts move where the core clock runs and the groves are out of reset. -/
theorem counts_begun (on : Bool) (g : Fin 8) :
    ((s.begun on).grove g).pscCount = if on then (s.grove g).pscCount + 1 else (s.grove g).pscCount := by
  have ht : KeepsCounts s (s.frameCycle on).applyCuts.rsCycle :=
    ((KeepsCounts.of_only (only_frameCycle _ _) (by decide)).trans (counts_applyCuts _)).trans
      (.of_only (only_rsCycle _) (by decide))
  cases on with
  | false => exact ht.count g
  | true =>
    have hrest : ∀ t : State, KeepsCounts t ((foldFin 8 (fun e s => s.psBegin e) t.angleCycle.timetableCycle).sigCycle |>
        foldFin 8 (fun c s => s.dmaCycle c)) := fun t =>
      ((((KeepsCounts.of_only (only_angleCycle _) (by decide)).trans (.of_only (only_timetableCycle _) (by decide))).trans
        (.foldFin (fun _ _ => .of_only (only_psBegin _ _) (by decide)) _)).trans (.of_only (only_sigCycle _) (by decide))).trans
        (.foldFin (fun _ _ => .of_only (only_dmaCycle _ _) (by decide)) _)
    have hone := counts_channelCycle (s.frameCycle true).applyCuts.rsCycle g
    exact ((hrest (s.frameCycle true).applyCuts.rsCycle.channelCycle).count g).trans (hone.trans (congrArg (· + 1) (ht.count g)))

end State

theorem OnlyChanges.keeps {ps qs : List Part} {s t : State} (h : OnlyChanges ps s t) (hq : ∀ p ∈ qs, p ∉ ps) : Keeps qs s t :=
  fun p hp => h p (hq p hp)

/-- Settles O2: nothing of a cycle touches the parts named, and the prescaler counts move in the channels' cycle alone. -/
theorem idleStepIsOneCoreCycle : Obligations.IdleStepIsOneCoreCycle := by
  unfold Obligations.IdleStepIsOneCoreCycle
  intro s hp
  have hend := s.only_endCycle (s.tbs.run && s.pwr.pdUp)
  have hbegun := (s.endCycle (s.tbs.run && s.pwr.pdUp)).advanced.only_begun (s.tbs.run && s.pwr.pdUp)
  have hgroves : ∀ g, (s.endCycle (s.tbs.run && s.pwr.pdUp)).advanced.grove g = s.grove g := fun g =>
    ((State.only_advanced _).grove (by decide) g).trans (hend.grove (by decide) g)
  have htime : s.coreCycle.time = s.time + 1 :=
    (hbegun .time (by decide)).trans ((State.time_advanced _).trans (congrArg (· + 1) (hend .time (by decide))))
  have htbs : s.coreCycle.tbs = { s.tbs with tb := if s.tbs.run then s.tbs.tb + 1 else s.tbs.tb } := by
    refine (hbegun .tbs (by decide)).trans ((State.tbs_advanced _).trans ?_)
    rw [show (s.endCycle _).tbs = s.tbs from hend .tbs (by decide)]
  refine ⟨s.coreCycle, by rw [step, hp], htime, htbs, fun g => ?_, s.only_coreCycle.keeps (by decide)⟩
  rw [State.coreCycle_eq, State.counts_begun, hgroves]

end Sys2Proof.Machine
end

section
/-!
# The resets of PD1–PD7 (03 Table 3.9, R93–R97, R110–R112)
-/
namespace Sys2Proof.Machine

/-- A command that answers a given state. -/
theorem completes_of_exec {c : Instr} {s t : State} {ps : List Part} {P : State → Prop} (hc : exec c s = .next t) (hP : P t)
    (ho : OnlyChanges ps s t) : Completes c s ps P := ⟨t, hc, hP, ho⟩

/-- A command that does not apply changes nothing. -/
theorem completes_nothing {c : Instr} {s : State} (hc : exec c s = .next s) : Completes c s [] fun _ => True :=
  ⟨s, hc, trivial, .refl _ _⟩

namespace State
variable (s : State)

theorem domainsAtReset_resetPd : DomainsAtReset s.resetPd := by
  intro p hp
  cases p <;> first | rfl | exact absurd (by decide) hp

theorem afterReset_resetBy (k : Fin 16) : AfterReset s (s.resetBy k) (s.metCause k).val := by
  refine ⟨fun p hp => ?_, fun p hp => ?_, rfl, rfl, rfl, rfl⟩
  · cases p <;> first | rfl | exact absurd (by decide) hp
  · simp only [List.mem_cons, List.not_mem_nil, or_false] at hp
    obtain rfl | rfl | rfl | rfl | rfl | rfl := hp <;> rfl

variable {s}

/-- The supplies and pins a reset finds are none of what it leaves of the rest. -/
theorem metCause_none (h : s.cyc.reset = none) (k : Fin 16) : s.metCause k = k := by rw [metCause, h]

theorem metCause_some {c : Fin 16} (h : s.cyc.reset = some c) (k : Fin 16) : (s.metCause k).val = min c.val k.val := by
  rw [metCause, h]
  show (if c ≤ k then c else k).val = _
  split
  · next hle => exact (Nat.min_eq_left hle).symm
  · next hle => exact (Nat.min_eq_right (Nat.le_of_not_le hle)).symm

/-- Of two sources of one cycle the lower code is named, where the second is none of the Canopy's. -/
theorem afterReset_resetWith (h : s.cyc.reset = none) (k : Fin 16) {also : Fin 9} (ha : also ≠ 1) :
    AfterReset s (s.resetWith k also.val) (if 2 ≤ also.val then min k.val also.val else k.val) := by
  have hone : ¬ (also.val = 1 ∧ k ≠ 1) := fun hc => ha (Fin.ext hc.1)
  have hlt := also.isLt
  have hval : (Fin.ofNat 16 also.val).val = also.val := Nat.mod_eq_of_lt (by omega)
  unfold resetWith
  rw [if_neg hone]
  by_cases h2 : 2 ≤ also.val
  · rw [if_pos ⟨h2, by omega⟩, if_pos h2]
    have hr := s.afterReset_resetBy (if k ≤ Fin.ofNat 16 also.val then k else Fin.ofNat 16 also.val)
    rw [metCause_none h] at hr
    convert hr using 1
    rw [apply_ite Fin.val, hval, Nat.min_def]
    simp only [Fin.le_def, hval]
  · rw [if_neg fun hc => h2 hc.1, if_neg h2]
    have hr := s.afterReset_resetBy k
    rwa [metCause_none h] at hr

end State

theorem Part.Same.trans {s t u : State} {p : Part} (h : p.Same s t) (k : p.Same t u) : p.Same s u := by
  cases p <;> exact Eq.trans k h

/-- A change that no reset undoes leaves the rest as the reset left it. -/
theorem DomainsAtReset.also {t u : State} (h : DomainsAtReset t) {ps : List Part} (k : OnlyChanges ps t u)
    (hps : ∀ p ∈ ps, p ∈ [Part.xf, .otp, .pwr, .canopy, .rs, .pins, .upd, .rdata, .time, .freeCtr, .pending]) :
    DomainsAtReset u := fun p hp => (h p hp).trans (k p fun hp' => hp (hps p hp'))

/-- The level of RST_N is none of what a reset leaves. -/
theorem AfterReset.modPins {s t : State} {cause : Nat} (h : AfterReset s t cause) (f : Pins → Pins) :
    AfterReset s (t.modPins f) cause := by
  obtain ⟨hdom, hkeeps, hcanopy, hcompat, hrefuse, hdoze⟩ := h
  exact ⟨hdom.also (State.only_modPins t f) (by decide),
    fun p hp => (hkeeps p hp).trans (State.only_modPins t f p (by revert p; decide)), hcanopy, hcompat, hrefuse, hdoze⟩

namespace State
variable {s : State}

/-- A change of the power state before a reset leaves what the reset does. -/
theorem afterReset_modPwr {f : Power → Power} {k : Nat} {t : State} (h : AfterReset (s.modPwr f) t k) :
    AfterReset s t k := by
  obtain ⟨hdom, hkeeps, hrest⟩ := h
  exact ⟨hdom, fun p hp => (only_modPwr s f p (by revert p; decide)).trans (hkeeps p hp), hrest⟩

theorem vioFall_resets (h : s.pwr.vioGood = true) :
    DomainsAtReset s.vioFall ∧ s.vioFall.pwr.vioGood = false ∧ s.vioFall.pwr.st = .off ∧ s.vioFall.canopy = s.canopy ∧
      ∀ n, (s.vioFall.chan n).o.inClr = true := by
  have ht : s.vioFall = (s.modPwr fun p => { p with vioGood := false }).resetPd := by
    rw [vioFall, h]
    rfl
  rw [ht]
  exact ⟨domainsAtReset_resetPd _, rfl, rfl, rfl, fun n => congrArg (fun c : Chan => c.o.inClr) (at_replicate _ n)⟩

theorem domainsAtReset_canopyPor : DomainsAtReset s.canopyPor := fun p hp => by
  cases p <;> first | rfl | exact absurd (by decide) hp

end State

/-- Settles O9: every source ends in the same reset, which records the cause that counts. -/
theorem resetsNameTheirCause : Obligations.ResetsNameTheirCause := by
  unfold Obligations.ResetsNameTheirCause
  intro s
  refine ⟨fun hv hc => ?rise, fun hv => ?fall, ?por, fun also hv hc ha => ?pin, fun also hc ha => ?cmd,
    fun hst hc => ?hold, fun c hc => ?met, fun hv => ?riseIdle, fun hv => ?fallIdle, fun hst => ?holdIdle,
    fun key also hkey => ?badKey⟩
  case rise =>
    have hr := State.afterReset_modPwr ((s.modPwr fun p => { p with vioGood := true }).afterReset_resetBy 2)
    rw [State.metCause_none (show (s.modPwr _).cyc.reset = none from hc)] at hr
    have ht : s.vioRise = (s.modPwr fun p => { p with vioGood := true }).resetBy 2 := by
      rw [State.vioRise, hv]
      rfl
    exact ⟨_, rfl, ht ▸ hr, ht ▸ rfl⟩
  case fall => exact ⟨_, rfl, State.vioFall_resets hv⟩
  case por =>
    refine ⟨_, rfl, State.domainsAtReset_canopyPor, rfl, rfl, rfl, fun p hp => ?_⟩
    simp only [List.mem_cons, List.not_mem_nil, or_false] at hp
    obtain rfl | rfl := hp <;> rfl
  case pin =>
    have ht : s.pinReset also.val = (s.resetWith 3 also.val).modPins fun p => { p with rstN := false } := by
      rw [State.pinReset, if_pos hv]
    exact ⟨_, rfl, ht ▸ (State.afterReset_resetWith hc 3 ha).modPins _⟩
  case cmd =>
    exact ⟨_, rfl, State.afterReset_resetWith hc 5 ha⟩
  case hold =>
    have hr := s.afterReset_resetBy 8
    rw [State.metCause_none hc] at hr
    exact ⟨_, rfl, show AfterReset s s.clkholdRetry 8 by rwa [State.clkholdRetry, if_pos hst]⟩
  case met =>
    have hr := s.afterReset_resetBy 5
    rw [State.metCause_some hc] at hr
    exact ⟨_, rfl, hr⟩
  case riseIdle => exact completes_nothing (congrArg Host.Outcome.next (by rw [State.vioRise, if_pos hv]))
  case fallIdle =>
    refine ⟨completes_nothing (congrArg Host.Outcome.next ?_), fun also => completes_nothing (congrArg Host.Outcome.next ?_)⟩
    · rw [State.vioFall, hv]
      rfl
    · rw [State.pinReset, hv]
      rfl
  case holdIdle => exact completes_nothing (congrArg Host.Outcome.next (by rw [State.clkholdRetry, if_neg hst]))
  case badKey =>
    have ht : s.pwrReset key.toNat also.val = s.modPwr fun p => { p with refuse := 2 } := by
      rw [State.pwrReset, if_pos fun h : key.toNat = 0x5A3C => hkey (BitVec.eq_of_toNat_eq h)]
    exact completes_of_exec (congrArg Host.Outcome.next ht) rfl (State.only_modPwr _ _)

end Sys2Proof.Machine
end

section
/-!
# The configuration's lock (02 R60–R63)
-/
namespace Sys2Proof.Machine

namespace State
variable {s : State}

/-- The state whose configuration is locked, before any grove starts. -/
def lockedBoot (s : State) : State := { s with boot := { s.boot with locked := true, st := .running } }

/-- The groves of START_MASK take their start. -/
def releaseMasked (m : BitVec 8) (s : State) : State :=
  foldFin 8 (fun g u => if bit m g.val then u.releaseGrove g else u) s

theorem only_releaseMasked (m : BitVec 8) (s : State) : OnlyChanges [.chans, .groves, .tt] s (s.releaseMasked m) :=
  .foldFin (fun g u => .ite (only_groveTickWith u g _ _ _) (.refl _ _)) _

/-- The model reads START_MASK anew at each grove; no start changes it. -/
theorem foldl_releaseGrove (m : BitVec 8) (l : List (Fin 8)) (s : State) (h : s.boot.startMask = m) :
    l.foldl (fun u g => if bit u.boot.startMask g.val then u.releaseGrove g else u) s =
      l.foldl (fun u g => if bit m g.val then u.releaseGrove g else u) s := by
  induction l generalizing s with
  | nil => rfl
  | cons g l ih =>
    have hstep : OnlyChanges [.chans, .groves, .tt] s (if bit m g.val then s.releaseGrove g else s) :=
      .ite (only_groveTickWith s g _ _ _) (.refl _ _)
    rw [List.foldl_cons, List.foldl_cons, h]
    exact ih _ ((congrArg Boot.startMask (hstep .boot (by decide))).trans h)

theorem releaseMasked_none (s : State) : s.releaseMasked 0 = s := by
  have hb (g : Fin 8) : bit (0 : BitVec 8) g.val = false := BitVec.getLsbD_zero
  simp only [releaseMasked, hb, Bool.false_eq_true, if_false]
  exact List.foldl_fixed _

theorem lockConfig_eq (ha : s.boot.applied = true) (hl : s.boot.locked = false) (hr : s.cyc.rwl = []) :
    s.lockConfig = s.lockedBoot.releaseMasked s.boot.startMask := by
  have hu : s.undoRwl = s := by rw [undoRwl, hr]; rfl
  rw [lockConfig, if_pos ⟨ha, hl⟩, hu]
  exact foldl_releaseGrove _ _ _ rfl

/-- What locking leaves: the lock in force, and no more than the started groves changed. -/
theorem releaseMasked_lockedBoot (s : State) :
    (s.lockedBoot.releaseMasked s.boot.startMask).boot = { s.boot with locked := true, st := .running } ∧
      (s.boot.startMask = 0 → OnlyChanges [.boot] s (s.lockedBoot.releaseMasked s.boot.startMask)) ∧
      OnlyChanges [.boot, .chans, .groves, .tt] s (s.lockedBoot.releaseMasked s.boot.startMask) := by
  have hlock : OnlyChanges [.boot] s s.lockedBoot := only_modBoot s fun b => { b with locked := true, st := .running }
  exact ⟨only_releaseMasked s.boot.startMask s.lockedBoot .boot (by decide),
    fun h => by rwa [h, releaseMasked_none], hlock.trans (only_releaseMasked _ _)⟩

end State

/-- Settles O11. -/
theorem configurationLocks : Obligations.ConfigurationLocks := by
  unfold Obligations.ConfigurationLocks
  intro s client happlied hunlocked hrwl
  have hlock := State.lockConfig_eq happlied hunlocked hrwl
  obtain ⟨hboot, hmask, honly⟩ := s.releaseMasked_lockedBoot
  have hkeep (k : Bool) (h : (k && s.permits client 0x24 true 1) = false) : exec (.glbLockWrite client k) s = .next s :=
    congrArg Host.Outcome.next (if_neg (by rw [h]; decide))
  refine ⟨fun hp => ?write, ?zero, fun hp => ?refused, fun hst hreach => ?deadline, fun hst hreach => ?early⟩
  case write =>
    have hx : exec (.glbLockWrite client true) s = .next (s.lockedBoot.releaseMasked s.boot.startMask) := by
      rw [← hlock]
      exact congrArg Host.Outcome.next (if_pos hp)
    exact ⟨hx, _, hx, ⟨hboot, hmask⟩, honly⟩
  case zero => exact completes_nothing (hkeep false rfl)
  case refused => exact completes_nothing (hkeep true hp)
  case deadline =>
    have hx : exec .lockDeadlineExpiry s = .next (s.lockedBoot.releaseMasked s.boot.startMask) := by
      rw [← hlock]
      exact congrArg Host.Outcome.next (if_pos ⟨hst, hreach⟩)
    exact ⟨hx, _, hx, ⟨hboot, hmask⟩, honly⟩
  case early =>
    exact completes_nothing (congrArg Host.Outcome.next (if_neg fun h => absurd h.2 (by rw [hreach]; decide)))

end Sys2Proof.Machine
end

section
/-!
# The parts of the state that fences, the pack interface and the update agent's start change
-/
namespace Sys2Proof.Machine
namespace State
variable (s : State)

theorem only_fenceGrove (g : Fin 8) : OnlyChanges [.chans, .groves, .tt] s (s.fenceGrove g) :=
  ((only_modGrove _ _ _).widen (by decide)).both (.foldl (fun _ _ => only_fenceChan _ _ _) _ _)
theorem only_fenceAd (d : Fin 3) : OnlyChanges [.chans, .ads, .tt] s (s.fenceAd d) :=
  (only_loseDomain _ _ _).also (only_modAd _ _ _) (by decide)
theorem only_fencePs (e : Fin 8) : OnlyChanges [.ps] s (s.fencePs e) := (only_modEng _ _ _).both (only_modCyc _ _ _)
theorem only_fenceAdc (a : Fin 2) : OnlyChanges [.tt, .afe] s (s.fenceAdc a) :=
  ((only_modAdc _ _ _).widen (by decide)).also (only_dropRequest _ _) (by decide)
theorem only_linkSec (l : Fin 4) (f : LinkSec → LinkSec) : OnlyChanges [.pm] s (s.linkSec l f) := only_modPm _ _
theorem only_fenceLink (l : Fin 4) : OnlyChanges [.hl, .tsi, .pm] s (s.fenceLink l) :=
  (((only_modLink _ _ _).widen (by decide)).also (only_modTsi _ _) (by decide)).also (only_linkSec _ _ _) (by decide)
theorem only_fenceBank (b : Fin 8) : OnlyChanges [.mem] s (s.fenceBank b) :=
  (only_testAbandon _ _).also (only_modBank _ _ _) (by decide)
theorem only_randomBytes (n : Nat) : OnlyChanges [.freeCtr] s (randomBytes n s).2 := by
  induction n generalizing s with
  | zero => exact .refl _ _
  | succ n ih => exact (only_free s).both (ih _)
theorem only_smbFlag (k : Fin 2) (b : BitVec 10) : OnlyChanges [.smb] s (s.smbFlag k b) :=
  (only_modSmb _ _ _).both (only_hwSet _ _ _ _)
theorem only_packPost : OnlyChanges [.sc, .smb] s s.packPost :=
  ((only_postAll _ _ _ _ _ _ _ _ _).widen (by decide)).also (only_smbFlag _ _ _) (by decide)
theorem only_packDone : OnlyChanges [.sc, .smb, .pack] s s.packDone :=
  ((only_modPack _ _).widen (by decide)).also (only_packPost _) (by decide)
theorem only_packVerify : OnlyChanges [.sc, .smb, .pack] s s.packVerify := by
  unfold packVerify
  dsimp only
  refine .both ?_ (only_packDone _)
  split
  · exact (only_modPack _ _).widen (by decide)
  · exact (only_modPack _ _).widen (by decide)
theorem only_packOk (t : PackStep) (data : List Byte) : OnlyChanges [.sc, .smb, .pack, .freeCtr] s (s.packOk t data) := by
  unfold packOk
  extract_lets w
  split
  next i =>
    extract_lets u
    have hu : OnlyChanges [.sc, .smb, .pack, .freeCtr] s u := by
      simp only [u]
      split
      · exact (only_modPack _ _).widen (by decide)
      · exact (only_modPack _ _).widen (by decide)
      · exact .refl _ _
    exact .ite (hu.also (only_packGo _ _) (by decide)) (.ite (((hu.also (only_randomBytes _ _) (by decide)).also
      (only_modPack _ _) (by decide)).also (only_packGo _ _) (by decide)) ((hu.also (only_modPack _ _) (by decide)).also
      (only_packDone _) (by decide)))
  next i => exact .ite ((only_packStart _).widen (by decide)) (.ite (((only_modPack _ _).widen (by decide)).also
      (only_packGo _ _)
      (by decide)) ((((only_modPack _ _).widen (by decide)).also (only_modPack _ _) (by decide))))
  next i =>
    split
    · exact (only_packGo _ _).widen (by decide)
    · exact (only_modPack _ _).widen (by decide)
    · exact ((only_modPack _ _).widen (by decide)).also (only_packGo _ _) (by decide)
    · exact ((only_modPack _ _).widen (by decide)).also (only_packVerify _) (by decide)
    · exact (only_packGo _ _).widen (by decide)
theorem only_packFail (code : Nat) : OnlyChanges [.sc, .smb, .pack, .freeCtr] s (s.packFail code) := by
  unfold packFail
  split
  · exact (((only_free s).widen (by decide)).also (only_modPack _ _) (by decide)).also (only_packPost _) (by decide)
  · exact ((only_modPack _ _).widen (by decide)).also (only_packPost _) (by decide)
theorem only_packBad (t : PackStep) (code : Nat) : OnlyChanges [.sc, .smb, .pack, .freeCtr] s (s.packBad t code) := by
  unfold packBad
  dsimp only
  split
  · exact .ite (.ite ((only_modPack _ _).widen (by decide)) (only_packFail _ _)) (.ite ((only_modPack _ _).widen (by
        decide)) (only_packFail _ _))
  · exact .ite (.ite ((only_modPack _ _).widen (by decide)) (only_packFail _ _)) (.ite ((only_modPack _ _).widen (by
        decide)) (only_packFail _ _))
  · exact .ite (.ite ((only_modPack _ _).widen (by decide)) (only_packFail _ _)) (.ite ((only_modPack _ _).widen (by
        decide)) (only_packFail _ _))
  · exact .ite (.ite ((only_modPack _ _).widen (by decide)) (only_packFail _ _)) (.ite ((only_modPack _ _).widen (by
        decide)) (only_packFail _ _))
  · exact .ite ((only_modPack _ _).widen (by decide)) (only_packFail _ _)
theorem only_packResult (code : Nat) (data : List Byte) : OnlyChanges [.sc, .smb, .pack, .freeCtr] s (s.packResult code
    data) := by
  unfold packResult
  split
  · exact .refl _ _
  · exact .ite ((only_modPack _ _).widen (by decide)) (.ite ((only_packStart _).widen (by decide)) (.ite (only_packOk _
        _ _) (only_packBad _ _ _)))
theorem only_smbResult (k : Fin 2) (code : Nat) (t : SmbXfer) (data : List Byte) :
    OnlyChanges [.sc, .smb, .pack, .freeCtr] s (s.smbResult k code t data) := by
  unfold smbResult
  extract_lets fl noted flagged told checked
  have hflagged : OnlyChanges [.sc, .smb, .pack, .freeCtr] s flagged :=
    ((only_modSmb _ _ _).widen (by decide)).also (only_smbFlag _ _ _) (by decide)
  have htold : OnlyChanges [.sc, .smb, .pack, .freeCtr] s told :=
    .ite (hflagged.also (only_smbErr _ _ _ _) (by decide)) hflagged
  have hchecked : OnlyChanges [.sc, .smb, .pack, .freeCtr] s checked :=
    .ite (htold.also (only_smbCheck _ _) (by decide)) htold
  exact .ite (hchecked.also (only_packResult _ _ _) (by decide)) hchecked
theorem only_packBusFault : OnlyChanges [.sc, .smb, .pack] s s.packBusFault :=
  .ite (.refl _ _) (((only_modPack _ _).widen (by decide)).also (only_packPost _) (by decide))
theorem only_fenceSmb (k : Fin 2) : OnlyChanges [.sc, .smb, .pack, .freeCtr] s (s.fenceSmb k) := by
  unfold fenceSmb
  dsimp only
  refine .both ?_ ((only_modSmb _ _ _).widen (by decide))
  split
  · exact (OnlyChanges.ite ((only_packBusFault _).widen (by decide)) (.refl _ _)).also (only_smbResult _ _ _ _ _) (by
        decide)
  · exact .ite ((only_packBusFault _).widen (by decide)) (.refl _ _)
theorem only_fenceUnit (u : Nat) : OnlyChanges [.chans, .groves, .ads, .tt, .me, .ps, .afe, .sc, .mem, .dma, .hl, .tsi,
    .smb, .pack, .flt, .pm, .reports, .freeCtr] s (s.fenceUnit u) := by
  unfold fenceUnit
  dsimp only
  split
  · exact (only_fenceChan _ _ _).widen (by decide)
  · exact (only_fenceGrove _ _).widen (by decide)
  · exact (only_fenceAd _ _).widen (by decide)
  · exact (only_meFence _ _).widen (by decide)
  · exact (only_fencePs _ _).widen (by decide)
  · exact (only_fenceAdc _ _).widen (by decide)
  · exact (only_fenceLink _ _).widen (by decide)
  · exact (only_fenceBank _ _).widen (by decide)
  · exact (only_fenceClient _ _ _).widen (by decide)
  · exact (only_fenceSmb _ _).widen (by decide)
  · exact .refl _ _
theorem only_fltRefence : OnlyChanges [.chans, .groves, .ads, .tt, .me, .ps, .afe, .sc, .mem, .dma, .hl, .tsi, .smb,
    .pack, .flt, .pm, .reports, .freeCtr] s s.fltRefence :=
  .foldl (fun _ _ => .foldl (fun _ _ => only_fenceUnit _ _) _ _) _ _
theorem only_campStart (from_ : Nat) : OnlyChanges [.sc, .hl, .upd, .rs] s (s.campStart from_) :=
  ((OnlyChanges.foldFin (fun _ _ => .ite (.refl _ _) ((only_setNode _ _ _).widen (by decide))) _).also (only_setUpd _
      _) (by decide)).also (only_campNext _ _ _) (by decide)
theorem only_updParkExit : OnlyChanges [.sc, .hl, .upd, .rs] s s.updParkExit := by
  unfold updParkExit
  dsimp only
  split
  · exact ((only_modUpd _ _).widen (by decide)).also (only_setUpd _ _) (by decide)
  · exact ((only_modUpd _ _).widen (by decide)).also (only_setUpd _ _) (by decide)
  · exact ((only_modUpd _ _).widen (by decide)).also (only_setUpd _ _) (by decide)
  · exact ((only_modUpd _ _).widen (by decide)).also (only_campStart _ _) (by decide)
  · exact (only_modUpd _ _).widen (by decide)
theorem only_settleMe : OnlyChanges [.me] s s.settleMe := only_modMe _ _
theorem only_freshSecond : OnlyChanges [.pm] s s.freshSecond := only_modPm _ _
theorem only_rsRead (type : Nat) (index : Nat) : OnlyChanges [.rs] s (s.rsRead type index).2 :=
  .ite (.refl _ _) ((only_modRs _ _).also (only_rsFlag _ _) (by decide))
theorem only_loadTemplates : OnlyChanges [.afe, .rs] s s.loadTemplates := by
  unfold loadTemplates
  dsimp only
  refine .both (.refl _ _) ?_
  refine .foldFin (fun _ _ => ?_) _
  split
  · exact (only_rsRead _ _ _).widen (by decide)
  · exact ((only_rsRead _ _ _).widen (by decide)).also (only_modSig _ _) (by decide)
theorem only_testRecover : OnlyChanges [.mem] s s.testRecover := .foldFin (fun _ _ => only_modBank _ _ _) _
theorem only_coreBack : OnlyChanges [.pwr, .tbs] s s.coreBack :=
  ((only_modPwr _ _).widen (by decide)).also (only_modTbs _ _) (by decide)

end State
end Sys2Proof.Machine
end

section
/-!
# The end of PARK entry and the exit from PARK (03 Tables 3.4, 3.5)
-/
namespace Sys2Proof.Machine

namespace State
variable {s : State}

/-- The re-apply changes neither the parts a domain keeps over the restart nor the lock. -/
theorem reapply_locked (pd5 pd6 : Bool) (h : (s.reapply pd5 pd6).pwr.pdUp = true) :
    (s.reapply pd5 pd6).boot.locked = s.boot.locked := by
  unfold reapply at h ⊢
  extract_lets _ _ u at h ⊢
  by_cases hu : u.pwr.pdUp = true
  · rw [if_pos hu]
    rfl
  · rw [if_neg hu] at h
    exact absurd h hu

/-- With nothing recorded, the re-apply writes no register. -/
theorem only_reapply_empty (hrec : s.boot.record = []) (pd5 pd6 : Bool) : OnlyChanges [.boot] s (s.reapply pd5 pd6) := by
  have hre : s.reapply pd5 pd6 = if s.pwr.pdUp then
      (s.modBoot fun b => { b with locked := false }).modBoot fun b => { b with locked := s.boot.locked }
      else s.modBoot fun b => { b with locked := false } := by
    rw [reapply, hrec]
    rfl
  rw [hre]
  exact .ite ((only_modBoot _ _).both (only_modBoot _ _)) (only_modBoot _ _)

/-- The exit from PARK in its stages: the clock runs again, the templates come from the record store, the ticks are noted. -/
def parkExitBegun (s : State) (ticks : Word) : State :=
  if s.pwr.pdUp then s.coreBack
  else (if bit s.pwr.kept 3 then s.coreBack else s.coreBack.loadTemplates).modCanopy fun c => { c with parkTicks := ticks }

theorem only_parkExitBegun (s : State) (ticks : Word) :
    OnlyChanges [.canopy, .afe, .rs] s.coreBack (s.parkExitBegun ticks) := by
  unfold parkExitBegun
  refine .ite (.refl _ _) (.also (.ite (.refl _ _) ?_) (only_modCanopy _ _) (by decide))
  exact (only_loadTemplates _).widen (by decide)

theorem parkExit_stages (h : s.pwr.st = .exiting) (ticks : Word) :
    ∃ a b, OnlyChanges [.me, .pm] ((s.parkExitBegun ticks).reapply a b) (s.parkExit ticks) := by
  unfold parkExit parkExitBegun
  rw [if_neg (not_not_intro h)]
  dsimp only
  cases s.pwr.pdUp with
  | true => exact ⟨true, true, .refl _ _⟩
  | false => exact ⟨_, _, ((only_modPm _ _).widen (by decide)).also (only_settleMe _) (by decide)⟩

theorem only_reapplyComplete (h : s.pwr.st = .exiting) (hup : s.pwr.pdUp = true) :
    ∃ t, OnlyChanges [.chans, .groves, .ads, .tt, .me, .ps, .afe, .sc, .mem, .dma, .hl, .tsi, .smb, .pack, .flt, .pm, .reports,
        .freeCtr]
        s t ∧
      OnlyChanges [.me, .sc, .hl, .upd, .rs, .smb, .pack] (t.modPwr fun p => { p with st := .run }) s.reapplyComplete := by
  refine ⟨s.supSteps.fltRefence, .also (.widen (only_supSteps s) (by decide)) (only_fltRefence _) (by decide), ?_⟩
  unfold reapplyComplete
  rw [if_neg (by simp [h, hup])]
  exact ((((only_settleMe _).widen (by decide)).also (only_updParkExit _) (by decide)).also (only_packTrigger _) (by decide)).also
    (only_postAll _ _ _ _ _ _ _ _ _) (by decide)

end State

/-- Settles O14. -/
theorem parkEntryEndsAndExits : Obligations.ParkEntryEndsAndExits := by
  unfold Obligations.ParkEntryEndsAndExits
  intro s ticks saved levels
  refine ⟨fun hst hop => ?busy, fun hst hop hw ho => ?park, fun hst hop hw ho => ?off, fun hst => ?exit, fun hst hup => ?run⟩
  case busy => exact completes_nothing (congrArg Host.Outcome.next (if_pos (.inr hop)))
  case park =>
    have hx : s.parkComplete = (s.intcSave.modPins fun p => { p with keeper := levels }).enterPark := by
      unfold State.parkComplete
      rw [if_neg (by simp [hst, hop])]
      simp only [show s.intcSave.pwr = s.pwr from rfl, hw, Bool.false_and, Bool.false_eq_true, if_false]
      exact if_neg (ne_true_of_eq_false ho)
    refine ⟨_, congrArg Host.Outcome.next hx, rfl, rfl, rfl, rfl, rfl, rfl, rfl, rfl, fun p hp => ?_⟩
    simp only [List.mem_cons, List.not_mem_nil, or_false] at hp
    obtain rfl | rfl | rfl | rfl := hp <;> rfl
  case off =>
    have hx : s.parkComplete = (s.intcSave.modPins fun p => { p with keeper := levels }).enterOff := by
      unfold State.parkComplete
      rw [if_neg (by simp [hst, hop])]
      simp only [show s.intcSave.pwr = s.pwr from rfl, hw, Bool.false_and, Bool.false_eq_true, if_false]
      exact if_pos ho
    refine ⟨_, congrArg Host.Outcome.next hx, rfl, ?_, rfl, rfl, fun p hp => ?_⟩
    · exact (State.domainsAtReset_resetPd _).also ((State.only_modPins _ _).trans (State.only_modPwr _ _)) (by decide)
    · simp only [List.mem_cons, List.not_mem_nil, or_false] at hp
      obtain rfl | rfl | rfl := hp <;> rfl
  case exit =>
    obtain ⟨a, b, hlast⟩ := State.parkExit_stages hst ticks
    have hbegun := s.only_parkExitBegun ticks
    have hpwr : (s.parkExit ticks).pwr = ((s.parkExitBegun ticks).reapply a b).pwr := hlast .pwr (by decide)
    have hboot : (s.parkExit ticks).boot = ((s.parkExitBegun ticks).reapply a b).boot := hlast .boot (by decide)
    have hbase : (s.parkExitBegun ticks).boot = s.boot := hbegun .boot (by decide)
    refine ⟨_, rfl, fun hup => ?_, fun hrec => ?_⟩
    · rw [hboot, State.reapply_locked a b (hpwr ▸ hup), hbase]
    · have hre := State.only_reapply_empty (hbase ▸ hrec) a b
      have hall : OnlyChanges [.boot, .canopy, .afe, .rs, .me, .pm] s.coreBack (s.parkExit ticks) :=
        ((hbegun.trans hre).trans hlast).mono (by decide)
      have hp : (s.parkExit ticks).pwr = s.coreBack.pwr := hall .pwr (by decide)
      have ht : (s.parkExit ticks).tbs = s.coreBack.tbs := hall .tbs (by decide)
      refine ⟨congrArg Power.pdUp hp, congrArg Power.pllLock hp, congrArg Timebase.run ht, (congrArg Timebase.tb ht :), fun hdown => ?_,
        fun p hp => ?_⟩
      · have hc : (s.parkExit ticks).canopy = (s.parkExitBegun ticks).canopy := (hre.trans hlast) .canopy (by decide)
        rw [hc, State.parkExitBegun, hdown]
        rfl
      · simp only [List.mem_cons, List.not_mem_nil, or_false] at hp
        obtain rfl | rfl | rfl := hp
        · exact hall .chans (by decide)
        · exact hall .mem (by decide)
        · exact hall .hp (by decide)
  case run =>
    obtain ⟨t, hfirst, hlast⟩ := State.only_reapplyComplete hst hup
    refine ⟨_, rfl, ?_, fun p hp => ?_⟩
    · have hp : s.reapplyComplete.pwr = { t.pwr with st := .run } := hlast .pwr (by decide)
      rw [hp, show t.pwr = s.pwr from hfirst .pwr (by decide)]
    · exact ((hfirst p (by revert p; decide)).trans (State.only_modPwr t _ p (by revert p; decide))).trans
        (hlast p (by revert p; decide))

end Sys2Proof.Machine
end

section
/-!
# Recovery from a clock fault (03 R105)
-/
namespace Sys2Proof.Machine

/-- A clock fault with VIO down, while the update agent waits to fall back from a confirmation window that a LASTING fault
ended. -/
def faultWithoutVio : State :=
  { State.reset with
    pwr := { State.reset.pwr with st := .clockFault, needRec := false, vioGood := false }
    upd := { State.reset.upd with window := true, lasting := true } }

/-- The fall-back resets PD1–PD7, and without VIO the reset ends in OFF. -/
theorem clockRecovery_faultWithoutVio : faultWithoutVio.clockRecovery.pwr.st = .off := rfl

/-- Refutes O16: recovery from a clock fault also lets the update agent go on, and a fall-back it then starts resets PD1–PD7;
with VIO down, which the statement does not exclude, that reset leaves OFF instead of RUN. -/
theorem not_clockFaultStopsAndRecovers : ¬ Obligations.ClockFaultStopsAndRecovers := by
  unfold Obligations.ClockFaultStopsAndRecovers
  intro h
  obtain ⟨-, -, -, -, -, -, hrecover, -⟩ := h faultWithoutVio 0
  obtain ⟨t, ht, hrun, -⟩ := hrecover rfl rfl
  have heq : t = faultWithoutVio.clockRecovery := (Host.Outcome.next.inj ht).symm
  rw [heq, clockRecovery_faultWithoutVio] at hrun
  exact absurd hrun (by decide)

end Sys2Proof.Machine
end

section
/-!
# A grove's tick of a running channel (04 R122–R124, R133, R134, R138)
-/
namespace Sys2Proof.Machine

/-! ## Flags of a tick -/

/-- A flag register's flag is set exactly when its bit is. -/
theorem and_oneBit_ne_zero {k i : Nat} (hi : i < k) (b : BitVec k) : b &&& oneBit k i ≠ 0 ↔ b.getLsbD i = true := by
  have hone (j : Nat) : (oneBit k i).getLsbD j = decide (j = i) := bit_oneBit hi j
  constructor
  · intro h
    by_contra hb
    refine h (BitVec.eq_of_getLsbD_eq fun j _ => ?_)
    rw [BitVec.getLsbD_and, hone]
    by_cases hj : j = i
    · simpa [hj] using hb
    · simp [hj]
  · intro h h0
    have hb : (b &&& oneBit k i).getLsbD i = true := by rw [BitVec.getLsbD_and, h, hone, decide_eq_true rfl, Bool.and_self]
    simp [h0] at hb

/-- Four match bits stay below PEAK. -/
theorem matchBits_lt (f : Fin 4 → Bool) : (List.finRange 4).foldl (fun a i => a + b2n (f i) * 2 ^ i.val) 0 < 2 ^ 4 := by
  have hf (i : Fin 4) : b2n (f i) < 2 := b2n_lt _
  have h0 := hf 0
  have h1 := hf 1
  have h2 := hf 2
  have h3 := hf 3
  show 0 + b2n (f 0) * 1 + b2n (f 1) * 2 + b2n (f 2) * 4 + b2n (f 3) * 8 < 16
  omega

theorem getLsbD_tickFlags (compat : Bool) (c : Counter) (t : Tick) (xfer : Bool) {i : Nat} (hi : 4 ≤ i) :
    (tickFlags compat c t xfer).getLsbD i = ((t.peak && i = 4) || (t.valley && i = 5) || (xfer && i = 10)) := by
  have hmatch :
      (BitVec.ofNat 16 ((List.finRange 4).foldl (fun a i => a + b2n (matchFires compat c t i) * 2 ^ i.val) 0)).getLsbD i = false := by
    rw [BitVec.getLsbD_ofNat, Nat.testBit_lt_two_pow ((matchBits_lt _).trans_le (Nat.pow_le_pow_right (by decide) hi)),
      Bool.and_false]
  have hif (b : Bool) (v : BitVec 16) (j : Nat) (hj : j < 16) (hv : v = oneBit 16 j) :
      (if b then v else 0).getLsbD i = (b && i = j) := by
    cases b with
    | false => exact BitVec.getLsbD_zero
    | true => rw [if_pos rfl, hv, Bool.true_and]; exact bit_oneBit hj i
  unfold tickFlags
  rw [BitVec.getLsbD_or, BitVec.getLsbD_or, BitVec.getLsbD_or, hmatch, Bool.false_or, hif t.peak fPEAK 4 (by decide) rfl,
    hif t.valley fVALLEY 5 (by decide) rfl, hif xfer fRLDX 10 (by decide) rfl]

/-! ## One step of a triangular counter -/

theorem step_up {c : Counter} (hd : c.down = false) (hlt : c.cnt.toNat < c.reload.toNat) :
    Counter.step false c = ⟨c.cnt + 1, decide (c.cnt.toNat + 1 = c.reload.toNat),
      decide (c.cnt.toNat + 1 = c.reload.toNat), false⟩ := by
  unfold Counter.step
  rw [if_neg (by decide), hd, if_neg (by decide)]
  by_cases hr : c.cnt.toNat + 1 = c.reload.toNat
  · rw [if_pos (by omega), decide_eq_true hr]
    have hw : c.reload = c.cnt + 1 := by
      apply BitVec.eq_of_toNat_eq
      have := c.reload.isLt
      rw [BitVec.toNat_add, ← hr]
      exact (Nat.mod_eq_of_lt (show c.cnt.toNat + 1 < 2 ^ 48 by omega)).symm
    rw [hw]
  · rw [if_neg (by omega), decide_eq_false hr]

theorem step_down {c : Counter} (hd : c.down = true) (hpos : 0 < c.cnt.toNat) :
    Counter.step false c = ⟨c.cnt - 1, decide (c.cnt.toNat ≠ 1), false, decide (c.cnt.toNat = 1)⟩ := by
  unfold Counter.step
  rw [if_neg (by decide), if_pos hd]
  by_cases h1 : c.cnt.toNat = 1
  · have hc : c.cnt = 1 := BitVec.eq_of_toNat_eq h1
    rw [if_pos (by omega), hc]
    rfl
  · rw [if_neg (by omega), decide_eq_true h1, decide_eq_false h1]

/-! ## The channel among the channels of its grove -/

namespace State
variable {s : State} {n : Fin 64}

/-- A tick of a channel that is not fenced: the counter takes it, and its flags are set. -/
theorem logic_tickChan_self (hf : (s.chan n).fenced = false) (t : Tick) : ∃ now k,
    ((s.tickChan n t).chan n).c = Counter.take s.compat now (s.chan n).c t ∧
    ((s.tickChan n t).chan n).ev.flag =
      (s.chan n).ev.flag ||| tickFlags s.compat k t (reloadMoves s.compat (s.chan n).c t) := by
  have hl := s.logic_tickChan n n t
  have hc : ((s.tickChan n t).chan n).c = ((s.tickCount n t).chan n).c := congrArg (·.c) hl
  have he : ((s.tickChan n t).chan n).ev = ((s.tickCount n t).chan n).ev := congrArg (·.ev) hl
  rw [hc, he]
  unfold tickCount
  generalize hb : tickFlags _ _ t _ = b
  obtain ⟨ev, hev, hfl⟩ := chan_raiseChan_self (s := s.modChan n _) n b
  rw [hev]
  rw [chan_modChan_self] at hfl ⊢
  rw [if_pos hf] at hfl
  exact ⟨s.tb, s.compared n, rfl, by rw [hfl, hb]⟩

/-- A start leaves a running channel alone. -/
theorem steady_startChan_running (h : (s.chan n).c.run = true) (m : Fin 64) (v : W48 × Bool) :
    ((s.startChan m v).chan n).steady = (s.chan n).steady := by
  by_cases hm : n = m
  · subst hm
    rw [startChan, if_pos (by rw [h, Bool.or_true])]
  · exact steady_startChan_ne hm v

theorem steady_groveStarted_running (h : (s.chan n).c.run = true) (g : Fin 8) (starts : List (Fin 64)) (stagger zero : Bool) :
    ((s.groveStarted g starts stagger zero).chan n).steady = (s.chan n).steady := by
  have hfold : ∀ (l : List (Fin 64)) (t : State), (t.chan n).steady = (s.chan n).steady →
      ((l.foldl (fun t m => t.startChan m (s.startValue stagger zero m)) t).chan n).steady = (s.chan n).steady := by
    intro l
    induction l with
    | nil => exact fun t ht => ht
    | cons m l ih =>
      exact fun t ht => ih _ ((steady_startChan_running ((congrArg (·.c.run) ht).trans h) m _).trans ht)
  exact hfold _ _ rfl

/-- What a running channel of the core clock is in its grove's tick: its counter steps once. -/
structure Counts (s : State) (n : Fin 64) : Prop where
  unfenced : (s.chan n).fenced = false
  running : (s.chan n).c.run = true
  clocked : (s.chan n).c.clkSrc = 0
  unlinked : (s.chan n).o.action = 0
  fresh : s.pulsed n = false

theorem counts_groveTickWith (h : s.Counts n) (starts : List (Fin 64)) (stagger zero : Bool) : ∃ now k,
    let t := s.groveTickWith (groveOf n) starts stagger zero
    let k' := Counter.step s.compat (s.chan n).c
    (t.chan n).c = Counter.take s.compat now (s.chan n).c k' ∧
    (t.chan n).ev.flag = (s.chan n).ev.flag ||| tickFlags s.compat k k' (reloadMoves s.compat (s.chan n).c k') := by
  have hsteady := steady_groveStarted_running h.running (groveOf n) starts stagger zero
  have hcyc := s.cyc_groveStarted (groveOf n) starts stagger zero
  have hpwr : (s.groveStarted (groveOf n) starts stagger zero).pwr = s.pwr :=
    s.only_groveStarted (groveOf n) starts stagger zero .pwr (by decide)
  generalize hu : s.groveStarted (groveOf n) starts stagger zero = u at hsteady hcyc hpwr
  have hlogic : (u.chan n).logic = (s.chan n).logic := Chan.logic_of_steady hsteady
  have ho : (u.chan n).o.action = 0 := (congrArg (·.o.action) hsteady).trans h.unlinked
  have hc : (u.chan n).c = (s.chan n).c := congrArg (·.c) hlogic
  have hcompat : u.compat = s.compat := congrArg Power.compat hpwr
  have hup : u.pulsed n = false := (congrArg (fun c : Cycle => c.ticked.contains n) hcyc).trans h.fresh
  have hdue : s.dueTick u n = some (Counter.step s.compat (s.chan n).c) := by
    unfold dueTick
    rw [hup, hc, hcompat, h.running]
    simp [h.clocked, ho]
  generalize Counter.step s.compat (s.chan n).c = k' at hdue
  have hmem : (n, k') ∈ s.groveTicks u (groveOf n) := mem_groveTicks.2 ⟨mem_groveChans n, hdue⟩
  have hne : ∀ t : State, ∀ p ∈ s.groveTicks u (groveOf n), p ≠ (n, k') →
      (((t.tickChan p.1 p.2).chan n).logic, (t.tickChan p.1 p.2).pwr) = ((t.chan n).logic, t.pwr) := by
    intro t p hp hpn
    have hdiff : n ≠ p.1 := fun hn => hpn (Prod.ext hn.symm (by
      have hd := (mem_groveTicks.1 hp).2
      rw [← hn, hdue] at hd
      exact (Option.some.inj hd).symm))
    exact Prod.ext (t.logic_tickChan_ne hdiff p.2) (t.only_tickChan p.1 p.2 .pwr (by decide))
  obtain ⟨w, hw, hv⟩ := foldl_at (p := fun t : State => ((t.chan n).logic, t.pwr))
    (f := fun t (p : Fin 64 × Tick) => t.tickChan p.1 p.2) hmem (s.nodup_groveTicks u _) hne u
  have hwl : (w.chan n).logic = (s.chan n).logic := (congrArg Prod.fst hw).trans hlogic
  have hwc : (w.chan n).c = (s.chan n).c := congrArg (·.c) hwl
  have hwcompat : w.compat = s.compat := (congrArg (fun p => p.2.compat) hw).trans hcompat
  obtain ⟨now, k, htake, hflag⟩ := logic_tickChan_self (s := w) (n := n) ((congrArg (·.fenced) hwl).trans h.unfenced) k'
  rw [hwc, hwcompat] at htake hflag
  have hfinal : ((s.groveTickWith (groveOf n) starts stagger zero).chan n).logic = ((w.tickChan n k').chan n).logic := by
    rw [groveTickWith_eq, hu, (KeepsReadmits.sendPulses _ _).frame.chan (by decide), logic_runTicks]
    exact congrArg Prod.fst hv
  refine ⟨now, k, (congrArg (·.c) hfinal).trans htake, (congrArg (·.ev.flag) hfinal).trans (hflag.trans ?_)⟩
  rw [show (w.chan n).ev.flag = (s.chan n).ev.flag from congrArg (·.ev.flag) hwl]

/-! ## The rest of the device -/

/-- A grove's tick moves no counter of another grove. -/
theorem logic_groveTickWith_other {g : Fin 8} {starts : List (Fin 64)} (hs : ∀ m ∈ starts, m ∈ groveChans g)
    (hn : n ∉ groveChans g) (stagger zero : Bool) :
    ((s.groveTickWith g starts stagger zero).chan n).logic = (s.chan n).logic := by
  have hstart : ((s.groveStarted g starts stagger zero).chan n).steady = (s.chan n).steady :=
    foldl_keeps (p := fun t : State => (t.chan n).steady) starts
      (fun t m hm => steady_startChan_ne (fun h : n = m => hn (h ▸ hs m hm)) _) _
  rw [groveTickWith_eq, (KeepsReadmits.sendPulses _ _).frame.chan (by decide), logic_runTicks]
  refine (foldl_keeps (p := fun t : State => (t.chan n).logic) _ (fun t p hp => ?_) _).trans (Chan.logic_of_steady hstart)
  exact t.logic_tickChan_ne (fun h : n = p.1 => hn (h ▸ (mem_groveTicks.1 hp).1)) p.2

theorem grove_of_mem_groveChans {g : Fin 8} (h : n ∈ groveChans g) : groveOf n = g := by
  obtain ⟨k, -, rfl⟩ := List.mem_map.1 h
  exact Fin.ext (show (8 * g.val + k.val) / 8 = g.val by omega)

/-- A grove's tick starts its prescaler count anew. -/
theorem prescaler_groveTickWith (s : State) (g : Fin 8) (starts : List (Fin 64)) (stagger zero : Bool) :
    ((s.groveTickWith g starts stagger zero).grove g).psc = (s.grove g).psc ∧
      ((s.groveTickWith g starts stagger zero).grove g).pscCount = 0 := by
  have hkeep : KeepsCounts (s.modGrove g fun x => { x with pscCount := 0 }) (s.groveTickWith g starts stagger zero) := by
    rw [groveTickWith_eq]
    exact ((KeepsCounts.of_only (s.only_groveStarted g starts stagger zero) (by decide)).trans (counts_runTicks _ _ _)).trans
      (counts_sendPulses _ _)
  exact ⟨(hkeep.psc g).trans (by rw [grove_modGrove_self]), (hkeep.count g).trans (by rw [grove_modGrove_self])⟩

end State

/-- What the tick of a running channel leaves, taken together. -/
theorem State.groveTick_counts {s : State} {n : Fin 64} (hdue : s.tickDue (State.groveOf n) = true) (h : s.Counts n) :
    ∃ t now k, s.groveTick (State.groveOf n) = t ∧ OnlyChanges [.chans, .groves, .tt] s t ∧
      (t.chan n).c = Counter.take s.compat now (s.chan n).c (Counter.step s.compat (s.chan n).c) ∧
      (t.chan n).ev.flag = (s.chan n).ev.flag ||| tickFlags s.compat k (Counter.step s.compat (s.chan n).c)
        (reloadMoves s.compat (s.chan n).c (Counter.step s.compat (s.chan n).c)) ∧
      (t.grove (State.groveOf n)).psc = (s.grove (State.groveOf n)).psc ∧ (t.grove (State.groveOf n)).pscCount = 0 ∧
      ∀ m, State.groveOf m ≠ State.groveOf n → (t.chan m).c = (s.chan m).c := by
  obtain ⟨now, k, htake, hflag⟩ := State.counts_groveTickWith h (s.waiting (State.groveOf n)) false false
  obtain ⟨hpsc, hcount⟩ := s.prescaler_groveTickWith (State.groveOf n) (s.waiting (State.groveOf n)) false false
  refine ⟨_, now, k, if_pos hdue, s.only_groveTickWith _ _ _ _, htake, hflag, hpsc, hcount, fun m hm => ?_⟩
  exact congrArg (·.c) (State.logic_groveTickWith_other (fun _ h => List.mem_of_mem_filter h)
    (fun h => hm (State.grove_of_mem_groveChans h)) false false)

/-- A pending RELOAD moves exactly in a tick that takes it. -/
theorem take_reload (compat : Bool) (now : W48) (c : Counter) (t : Tick) :
    (∀ v, c.rldPending = some v → (t.valley || (t.peak && c.rldAt && !compat)) = true →
      (Counter.take compat now c t).reload = v ∧ (Counter.take compat now c t).rldPending = none ∧
        reloadMoves compat c t = true) ∧
    ((t.valley || (t.peak && c.rldAt && !compat)) = false →
      (Counter.take compat now c t).reload = c.reload ∧ (Counter.take compat now c t).rldPending = c.rldPending) := by
  unfold Counter.take reloadMoves
  refine ⟨fun v hv ht => ?_, fun ht => ?_⟩
  · simp [hv, ht]
  · simp [ht]

/-- Settles O19. -/
theorem groveTickCountsTriangular : Obligations.GroveTickCountsTriangular := by
  unfold Obligations.GroveTickCountsTriangular
  intro s n
  dsimp only
  refine ⟨fun hdue hnative hf hrun hclk hfresh hact _ hle hdown hup => ?tick, fun hdue => ?none⟩
  case none => exact completes_unchanged rfl (if_neg (by rw [hdue]; decide))
  case tick =>
    obtain ⟨t, now, k, ht, honly, htake, hflag, hpsc, hcount, hothers⟩ :=
      State.groveTick_counts hdue ⟨hf, hrun, hclk, hact, hfresh⟩
    refine completes_up rfl (Bool.and_eq_true_iff.1 hdue).2 ?_ (by rw [ht]; exact honly)
    rw [ht]
    rw [hnative] at htake hflag
    generalize (s.chan n).c = c at *
    obtain ⟨hmoves, hstays⟩ := take_reload false now c (Counter.step false c)
    have hset (x : Bool) (i : Nat) (hi : i < 16) (h4 : 4 ≤ i) (b : BitVec 16) :
        (b ||| tickFlags false k (Counter.step false c) x) &&& oneBit 16 i ≠ 0 ↔ b &&& oneBit 16 i ≠ 0 ∨
          (((Counter.step false c).peak && i = 4) || ((Counter.step false c).valley && i = 5) || (x && i = 10)) = true := by
      rw [and_oneBit_ne_zero hi, and_oneBit_ne_zero hi, BitVec.getLsbD_or, getLsbD_tickFlags _ _ _ _ h4, Bool.or_eq_true]
    rw [htake, hflag]
    refine ⟨hrun, hpsc, hcount, hothers, ?_⟩
    cases hd : c.down with
    | false =>
      rw [step_up hd (hup hd)] at hmoves hstays hset ⊢
      refine ⟨fun _ => ⟨rfl, rfl⟩, fun h => absurd h (by decide),
        (hset _ 4 (by decide) (by decide) _).trans (or_congr_right (by simp)),
        (hset _ 5 (by decide) (by decide) _).trans (or_congr_right (by simp)),
        fun v hv hturn => ?_, fun hturn => hstays (by simpa using hturn)⟩
      obtain ⟨hr, hp, hx⟩ := hmoves v hv (by simpa using hturn)
      exact ⟨hr, hp, (hset _ 10 (by decide) (by decide) _).2 (.inr (by rw [hx]; simp))⟩
    | true =>
      rw [step_down hd (hdown hd)] at hmoves hstays hset ⊢
      refine ⟨fun h => absurd h (by decide), fun _ => ⟨rfl, rfl⟩,
        (hset _ 4 (by decide) (by decide) _).trans (or_congr_right (by simp)),
        (hset _ 5 (by decide) (by decide) _).trans (or_congr_right (by simp)),
        fun v hv hturn => ?_, fun hturn => hstays (by simpa using hturn)⟩
      obtain ⟨hr, hp, hx⟩ := hmoves v hv (by simpa using hturn)
      exact ⟨hr, hp, (hset _ 10 (by decide) (by decide) _).2 (.inr (by rw [hx]; simp))⟩

end Sys2Proof.Machine
end

section
/-!
# Writes of CH_CTL and the match registers, and captures (04 R123, R137, R144–R149)
-/
namespace Sys2Proof.Machine

namespace State
variable {s : State} {n m : Fin 64} {w : Word}

theorem chan_modCnt_self (s : State) (n : Fin 64) (f : Counter → Counter) :
    (s.modCnt n f).chan n = { s.chan n with c := f (s.chan n).c } := chan_modChan_self s n _

theorem chan_modCnt_ne (h : m ≠ n) (f : Counter → Counter) : (s.modCnt n f).chan m = s.chan m := by
  rw [chan_modCnt, if_neg (Ne.symm h)]

theorem chan_modChan_ne (h : m ≠ n) (f : Chan → Chan) : (s.modChan n f).chan m = s.chan m := by
  rw [chan_modChan, if_neg (Ne.symm h)]

/-! ## CH_CTL -/

/-- The bits of CH_CTL after a write that may not change CLKSRC. -/
def ctlKept (w : Word) (old : BitVec 5) : BitVec 5 := (w.setWidth 5 &&& 0x13) ||| (old &&& 0x0C)

theorem bit_ctlKept (w : Word) (old : BitVec 5) :
    bit (ctlKept w old) 0 = bit w 0 ∧ bit (ctlKept w old) 1 = bit w 1 ∧ bit (ctlKept w old) 4 = bit w 4 := by
  refine ⟨?_, ?_, ?_⟩ <;> simp [ctlKept, bit]

theorem fld_ctlKept (w : Word) (old : BitVec 5) : fld (ctlKept w old) 3 2 = fld old 3 2 := by
  refine Nat.eq_of_testBit_eq fun j => ?_
  rw [testBit_fld, testBit_fld]
  by_cases hj : j < 2
  · obtain rfl | rfl : j = 0 ∨ j = 1 := by omega
    · simp [ctlKept]
    · simp [ctlKept]
  · simp [hj]

theorem writeCtl_taken (h : s.runs n = false ∨ s.compat = true ∨ fld w 3 2 = (s.chan n).c.clkSrc) :
    s.writeCtl n w = s.modCnt n fun x => { x with ctl := w.setWidth 5 } := by
  unfold writeCtl
  refine if_neg fun hc => ?_
  simp only [Bool.and_eq_true, Bool.not_eq_true', decide_eq_true_eq] at hc
  obtain ⟨⟨hr, hn⟩, hk⟩ := hc
  obtain h | h | h := h
  · exact absurd hr (by rw [h]; decide)
  · exact absurd hn (by rw [h]; decide)
  · exact hk h

theorem writeCtl_running (hr : s.runs n = true) (hn : s.compat = false) (hk : fld w 3 2 ≠ (s.chan n).c.clkSrc) :
    s.writeCtl n w = (s.modCnt n fun x => { x with ctl := ctlKept w x.ctl }).raiseChan n fWWR := by
  unfold writeCtl
  exact if_pos (by simp [hr, hn, hk])

/-! ## The match registers -/

/-- A change of match k of channel n alone. -/
def modMatch (s : State) (n : Fin 64) (k : Fin 4) (f : MatchReg → MatchReg) : State :=
  s.modCnt n fun c => { c with mats := vset c.mats k f }

theorem writeMatHi_now {k : Fin 4} (h : bit (s.chan n).c.matcfg (8 + k.val) = false ∨ s.runs n = false) (w : Word) :
    s.writeMatHi n k w = (s.modMatch n k fun m =>
      { m with value := wide w (at_ (s.chan n).c.mats k).stage, pending := none }).modCyc fun c =>
        { c with mats := (n, k, (at_ (s.chan n).c.mats k).value) :: c.mats } := by
  unfold writeMatHi
  refine if_neg fun hc => ?_
  obtain ⟨hu, hr⟩ := Bool.and_eq_true_iff.1 hc
  obtain h | h := h
  · exact absurd hu (by rw [h]; decide)
  · exact absurd hr (by rw [h]; decide)

theorem writeMatHi_later {k : Fin 4} (hu : bit (s.chan n).c.matcfg (8 + k.val) = true) (hr : s.runs n = true) (w : Word) :
    s.writeMatHi n k w = s.modMatch n k fun m => { m with pending := some (wide w (at_ (s.chan n).c.mats k).stage) } := by
  unfold writeMatHi
  exact if_pos (by rw [hu, hr]; rfl)

/-- Only match k of channel n differs, and it is what f makes of it. -/
theorem modMatch_only (s : State) (n : Fin 64) (k : Fin 4) (f : MatchReg → MatchReg) :
    at_ ((s.modMatch n k f).chan n).c.mats k = f (at_ (s.chan n).c.mats k) ∧
      (∀ j, j ≠ k → at_ ((s.modMatch n k f).chan n).c.mats j = at_ (s.chan n).c.mats j) ∧
      ((s.modMatch n k f).chan n).c = { (s.chan n).c with mats := ((s.modMatch n k f).chan n).c.mats } ∧
      (s.modMatch n k f).chan n = { s.chan n with c := ((s.modMatch n k f).chan n).c } ∧
      ∀ m, m ≠ n → (s.modMatch n k f).chan m = s.chan m := by
  have hself : (s.modMatch n k f).chan n = { s.chan n with c := { (s.chan n).c with mats := vset (s.chan n).c.mats k f } } :=
    chan_modCnt_self s n _
  rw [hself]
  exact ⟨at_vset_self _ k f, fun j hj => at_vset_ne _ f (Ne.symm hj), rfl, rfl, fun m hm => chan_modCnt_ne hm _⟩

end State

/-- Settles O21. -/
theorem controlAndMatchWrites : Obligations.ControlAndMatchWrites := by
  unfold Obligations.ControlAndMatchWrites
  intro s n k w c others onlyMat
  refine ⟨fun hp h => ?taken, fun hp hr hn hk => ?running, fun hp => ?low, fun hp h => ?now, fun hp hu hr => ?later,
    fun hp i hi => ?held⟩
  case taken =>
    refine completes_up rfl hp ?_ ?_
    · rw [State.writeCtl_taken h]
      exact ⟨State.chan_modCnt_self s n _, fun m hm => State.chan_modCnt_ne hm _⟩
    · rw [State.writeCtl_taken h]
      exact State.only_modCnt s n _
  case running =>
    obtain ⟨ev, hev, hflag⟩ := State.chan_raiseChan_self (s := s.modCnt n fun x => { x with ctl := State.ctlKept w x.ctl }) n fWWR
    rw [State.chan_modCnt_self] at hev hflag
    obtain ⟨h0, h1, h4⟩ := State.bit_ctlKept w (s.chan n).c.ctl
    refine completes_up rfl hp ?_ ?_
    · rw [State.writeCtl_running hr hn hk, hev]
      refine ⟨State.fld_ctlKept w _, h0, h1, h4, rfl, hflag.trans ?_, fun m hm => ?_⟩
      · cases (s.chan n).fenced <;> rfl
      · rw [State.chan_raiseChan_ne hm, State.chan_modCnt_ne hm]
    · rw [State.writeCtl_running hr hn hk]
      exact ((State.only_modCnt s n _).trans (State.only_raiseChan _ n _)).mono (by decide)
  case low => exact completes_up rfl hp (s.modMatch_only n k _) (State.only_modCnt s n _)
  case now =>
    have hx := State.writeMatHi_now h w
    refine completes_up rfl hp ?_ ?_
    · rw [hx]
      exact s.modMatch_only n k _
    · rw [hx]
      exact (State.only_modCnt s n _).both (State.only_modCyc _ _ _)
  case later =>
    have hx := State.writeMatHi_later hu hr w
    refine completes_up rfl hp ?_ ?_
    · rw [hx]
      exact s.modMatch_only n k _
    · rw [hx]
      exact State.only_modCnt s n _
  case held =>
    simp only [List.mem_cons, List.not_mem_nil, or_false] at hi
    obtain rfl | rfl | rfl | rfl | rfl | rfl | rfl | rfl := hi <;> exact completes_held rfl hp

end Sys2Proof.Machine
end

section
/-!
# Captures (04 R144–R149, R158, R168)
-/
namespace Sys2Proof.Machine

namespace State
variable {s : State} {n : Fin 64}

/-- Is a capture of the channel noted in this cycle? -/
def captured (s : State) (n : Fin 64) : Bool := s.cyc.captures.any fun p => p.chan = n

theorem capture_fenced (h : (s.chan n).fenced = true) (sw : Bool) (v : W48) (down : Bool) : s.capture n sw v down = s := if_pos h

theorem capture_second_sw (h : s.captured n = true) (v : W48) (down : Bool) : s.capture n true v down = s := by
  unfold capture
  exact (congrArg (ite _ s) (if_pos h)).trans (ite_self s)

theorem capture_second (hf : (s.chan n).fenced = false) (h : s.captured n = true) (v : W48) (down : Bool) :
    s.capture n false v down = s.modChan n fun c => { c with cp := { c.cp with cap := v, sw := false, dirDown := down } } := by
  unfold capture
  exact (if_neg (by rw [hf]; decide)).trans ((if_pos h).trans (if_neg (by decide)))

/-- The flags of a capture: CAP, and OVR where CAP was already set. -/
def captureFlags (flag : BitVec 16) : BitVec 16 := fCAP ||| (if (flag &&& fCAP) != 0 then fOVR else 0)

theorem only_capture (s : State) (n : Fin 64) (sw : Bool) (v : W48) (down : Bool) :
    OnlyChanges [.chans, .groves, .tt] s (s.capture n sw v down) := by
  unfold capture
  extract_lets c past u w x
  have hx : OnlyChanges [.chans, .groves, .tt] s x :=
    (((only_modChan s n _).both (only_modCyc _ _ _)).widen (by decide)).also (only_raiseChan _ n _) (by decide)
  exact .ite (.refl _ _) (.ite (.ite (.refl _ _) ((only_modChan s n _).widen (by decide)))
    (.ite (hx.also (only_sendPulses _ _) (by decide)) hx))

/-- What a capture records of the channel, with the overrun count it leaves. -/
def Capture.taken (x : Capture) (past sw : Bool) (v : W48) (down : Bool) : Capture :=
  { x with cap := v, sw := sw, dirDown := down, ovrCnt := if past then satInc x.ovrCnt else x.ovrCnt }

/-- The first capture of a cycle: the channel's registers, then its flags, then its link pulses. -/
theorem capture_stages (hf : (s.chan n).fenced = false) (h : s.captured n = false) (sw : Bool) (v : W48) (down : Bool) : ∃ u : State,
    (∀ m, u.chan m = (s.modChan n fun c => { c with
      cp := Capture.taken c.cp (((s.chan n).ev.flag &&& fCAP) != 0) sw v down }).chan m) ∧
    OnlyChanges [.groves] (u.raiseChan n (captureFlags (s.chan n).ev.flag)) (s.capture n sw v down) := by
  unfold capture
  rw [if_neg (show ¬ (s.chan n).fenced = true by rw [hf]; decide)]
  rw [if_neg (show ¬ (s.cyc.captures.any fun p => p.chan = n) = true from fun hc => absurd (hc.symm.trans h) (by decide))]
  extract_lets past u w x
  exact ⟨w, fun m => rfl, .ite (only_sendPulses _ _) (.refl _ _)⟩

/-- The first capture of a cycle (04 R146, R147). -/
theorem capture_first (hf : (s.chan n).fenced = false) (h : s.captured n = false) (sw : Bool) (v : W48) (down : Bool) :
    let t := s.capture n sw v down
    (t.chan n).cp = Capture.taken (s.chan n).cp (((s.chan n).ev.flag &&& fCAP) != 0) sw v down ∧
    (t.chan n).ev.flag = (s.chan n).ev.flag ||| captureFlags (s.chan n).ev.flag ∧ (t.chan n).c = (s.chan n).c ∧
    (t.chan n).o = (s.chan n).o ∧ ∀ m, m ≠ n → t.chan m = s.chan m := by
  intro t
  obtain ⟨u, hu, hlast⟩ := capture_stages hf h sw v down
  obtain ⟨ev, hev, hflag⟩ := chan_raiseChan_self (s := u) n (captureFlags (s.chan n).ev.flag)
  have hn : t.chan n = { u.chan n with ev := ev } := (hlast.chan (by decide) n).trans hev
  rw [hn]
  rw [hu n, chan_modChan_self] at hflag ⊢
  refine ⟨rfl, hflag.trans (if_pos hf), rfl, rfl, fun m hm => ?_⟩
  exact (hlast.chan (by decide) m).trans ((chan_raiseChan_ne hm _).trans ((hu m).trans (chan_modChan_ne hm _)))

/-- The overrun rule of a first capture. -/
theorem capture_overrun (hf : (s.chan n).fenced = false) (h : s.captured n = false) (sw : Bool) (v : W48) (down : Bool) :
    let t := s.capture n sw v down
    (t.chan n).cp.ovrCnt = (if (s.chan n).ev.flag &&& 0x40 ≠ 0 then satInc (s.chan n).cp.ovrCnt else (s.chan n).cp.ovrCnt) ∧
    (t.chan n).ev.flag = (s.chan n).ev.flag ||| 0x40 ||| (if (s.chan n).ev.flag &&& 0x40 ≠ 0 then 0x80 else 0) := by
  intro t
  obtain ⟨hcp, hflag, -⟩ := capture_first hf h sw v down
  rw [hcp, hflag, captureFlags, ← BitVec.or_assoc]
  by_cases hb : (s.chan n).ev.flag &&& 0x40 = 0
  · have hpast : ((s.chan n).ev.flag &&& fCAP != 0) = false := bne_eq_false_iff_eq.2 hb
    rw [hpast, if_neg (not_not_intro hb), if_neg (not_not_intro hb)]
    exact ⟨rfl, rfl⟩
  · have hpast : ((s.chan n).ev.flag &&& fCAP != 0) = true := bne_iff_ne.2 hb
    rw [hpast, if_pos hb, if_pos hb]
    exact ⟨rfl, rfl⟩

/-! ## Edges of the capture input -/

/-- A hardware edge to a level is accepted: a source is selected, the level is new and its direction is selected. -/
def edgeAccepted (x : Chan) (level : Bool) : Bool :=
  decide (fld x.cp.cfg 1 0 ≠ 0) && (x.cp.level != level) && bit x.cp.cfg (if level then 6 else 7)

theorem captureEdge_fenced (h : (s.chan n).fenced = true) (level : Bool) : s.captureEdge n level = s := by
  unfold captureEdge
  exact if_pos (by rw [h]; rfl)

/-- The level of a channel's capture input. -/
def withLevel (s : State) (n : Fin 64) (level : Bool) : State :=
  s.modChan n fun c => { c with cp := { c.cp with level := level } }

theorem chan_withLevel (s : State) (n : Fin 64) (level : Bool) :
    (s.withLevel n level).chan n = { s.chan n with cp := { (s.chan n).cp with level := level } } := chan_modChan_self s n _

/-- An accepted edge captures; the value does not depend on the level. -/
theorem captureEdge_accepted (hf : (s.chan n).fenced = false) {level : Bool} (h : edgeAccepted (s.chan n) level = true) :
    s.captureEdge n level = (s.withLevel n level).capture n false (s.captureValue n (fld (s.chan n).cp.cfg 12 9 + 2)).1
      (s.captureValue n (fld (s.chan n).cp.cfg 12 9 + 2)).2 := by
  unfold edgeAccepted at h
  simp only [Bool.and_eq_true, decide_eq_true_eq, bne_iff_ne] at h
  obtain ⟨⟨hsrc, hlevel⟩, hdir⟩ := h
  unfold captureEdge
  rw [if_neg (by simp [hf, hsrc, hlevel])]
  refine (if_pos hdir).trans ?_
  have hv (a : Nat) : (s.withLevel n level).captureValue n a = s.captureValue n a := by
    unfold captureValue
    rw [chan_withLevel]
    rfl
  exact congrArg (fun v : W48 × Bool => (s.withLevel n level).capture n false v.1 v.2) (hv _)

theorem captureValue_now (h : bit (s.chan n).cp.cfg 8 = false) : s.captureValue n 0 = ((s.chan n).c.cnt, (s.chan n).c.down) := by
  unfold captureValue
  refine (if_neg (by rw [h]; decide)).trans ?_
  cases (s.chan n).c.hist with
  | nil => rfl
  | cons p l => exact if_neg (Nat.not_lt_zero _)

/-! ## The registers of a capture -/

theorem readCapLo_eq (h : s.captured n = false) : s.readCapLo n = (lo32 (s.chan n).cp.cap,
    (s.modChan n fun c => { c with cp := { c.cp with hold := ((s.chan n).cp.cap >>> 32).setWidth 16 } }).modChan n fun c =>
      { c with ev := { c.ev with flag := c.ev.flag &&& ~~~fCAP } }) := by
  unfold readCapLo
  have hnone : s.cyc.captures.find? (fun p => p.chan = n) = none := by
    rw [List.find?_eq_none]
    intro p hp hc
    exact absurd ((List.any_eq_true.2 ⟨p, hp, hc⟩).symm.trans h) (by decide)
  rw [hnone]

end State

/-- Settles O22. -/
theorem capturesAndOverrun : Obligations.CapturesAndOverrun := by
  unfold Obligations.CapturesAndOverrun
  intro s n level x captured others accepted flags
  refine ⟨fun hp hf hv hc => ?software, fun hp hf ha hc => ?edge, fun hp hf hc => ⟨?again, fun ha => ?both⟩, fun hf => ⟨?noSw, ?noEdge⟩,
    fun hp hc => ?read, fun hp => ?clear⟩
  case software =>
    have hx : s.swCapture n = s.capture n true x.c.cnt x.c.down := by rw [State.swCapture, State.captureValue_now hv]
    obtain ⟨hcp, -, hcnt, hout, hrest⟩ := State.capture_first hf hc true x.c.cnt x.c.down
    obtain ⟨hovr, hflag⟩ := State.capture_overrun hf hc true x.c.cnt x.c.down
    refine completes_up rfl hp ?_ ?_
    · rw [hx]
      exact ⟨by rw [hcp]; rfl, hovr, hflag, hcnt, hout, hrest⟩
    · rw [hx]
      exact s.only_capture n _ _ _
  case edge =>
    have hx := State.captureEdge_accepted hf ha
    have hw := s.chan_withLevel n level
    have hwf : ((s.withLevel n level).chan n).fenced = false := (congrArg (·.fenced) hw).trans hf
    generalize (s.captureValue n (fld x.cp.cfg 12 9 + 2)).1 = v at hx ⊢
    generalize (s.captureValue n (fld x.cp.cfg 12 9 + 2)).2 = d at hx
    obtain ⟨hcp, -, hcnt, hout, hrest⟩ := State.capture_first hwf hc false v d
    obtain ⟨hovr, hflag⟩ := State.capture_overrun hwf hc false v d
    rw [hw] at hcp hcnt hout hovr hflag
    refine completes_up rfl hp ?_ ?_
    · rw [hx]
      refine ⟨by rw [hcp]; rfl, by rw [hcp]; rfl, by rw [hcp]; rfl, hovr, hflag, hcnt, hout, fun m hm => ?_⟩
      exact (hrest m hm).trans (State.chan_modChan_ne hm _)
    · rw [hx]
      exact ((State.only_modChan s n _).trans (State.only_capture _ n _ _ _)).mono (by decide)
  case again => exact completes_unchanged rfl (State.capture_second_sw hc _ _)
  case both =>
    have hx := State.captureEdge_accepted hf ha
    have hw := s.chan_withLevel n level
    have hwf : ((s.withLevel n level).chan n).fenced = false := (congrArg (·.fenced) hw).trans hf
    rw [State.capture_second hwf hc] at hx
    refine completes_up rfl hp ?_ ?_
    · rw [hx]
      refine ⟨?_, fun m hm => ?_⟩
      · rw [State.chan_modChan_self, hw]
      · rw [State.chan_modChan_ne hm]
        exact State.chan_modChan_ne hm _
    · rw [hx]
      exact (State.only_modChan s n _).both (State.only_modChan _ n _)
  case noSw => exact completes_unchanged rfl (State.capture_fenced hf _ _ _)
  case noEdge => exact completes_unchanged rfl (State.captureEdge_fenced hf level)
  case read =>
    have hx := State.readCapLo_eq hc
    refine ⟨(s.readCapLo n).2.answer (s.readCapLo n).1, congrArg Host.Outcome.next (if_pos hp), ?_, ?_⟩
    · rw [hx]
      refine ⟨rfl, ?_, fun m hm => ?_⟩
      · exact (State.chan_modChan_self _ n _).trans (by rw [State.chan_modChan_self]; rfl)
      · exact (State.chan_modChan_ne hm _).trans (State.chan_modChan_ne hm _)
    · rw [hx]
      exact (((State.only_modChan s n _).both (State.only_modChan _ n _)).trans (State.only_answer _ _)).mono (by decide)
  case clear =>
    exact completes_up rfl hp ⟨State.chan_modChan_self s n _, fun m hm => State.chan_modChan_ne hm _⟩ (State.only_modChan s n _)

end Sys2Proof.Machine
end

section
/-!
# Clearing causes (05 R181, R198, R199, Table 5.4)

A pair's settlement moves cause PAIR alone, so the view of an output's causes without PAIR follows each command exactly.
-/
namespace Sys2Proof.Machine

/-- The causes of an output other than PAIR. -/
def Output.causes (o : Output) : BitVec 11 := o.clr &&& ~~~cPAIR

theorem Output.causes_pairCause (o : Output) (b : Bool) : (o.pairCause b).causes = o.causes := by
  refine BitVec.eq_of_getLsbD_eq fun i hi => ?_
  cases b <;> simp only [Output.causes, Output.pairCause, if_true, Bool.false_eq_true, if_false, BitVec.getLsbD_and,
    BitVec.getLsbD_or, BitVec.getLsbD_not, hi, decide_true, Bool.true_and]
  · cases o.clr.getLsbD i <;> cases cPAIR.getLsbD i <;> rfl
  · cases o.clr.getLsbD i <;> cases cPAIR.getLsbD i <;> rfl

/-- Every cause but PAIR is seen in the view. -/
theorem Output.bit_causes (o : Output) {i : Nat} (hi : i < 10) : bit o.causes i = bit o.clr i := by
  have hp : cPAIR.getLsbD i = false := (bit_oneBit (k := 11) (i := 10) (by decide) i).trans (decide_eq_false (by omega))
  simp only [bit, Output.causes, BitVec.getLsbD_and, BitVec.getLsbD_not, hp, show i < 11 by omega, decide_true, Bool.not_false,
    Bool.and_true]

/-- What Clearing and underruns do not touch agrees wherever the steady parts agree. -/
theorem Chan.view_of_steady {β : Type} {x y : Chan} (h : x.steady = y.steady) (f : Chan → β) (hf : ∀ z : Chan, f z.steady = f z) :
    f x = f y := by rw [← hf x, h, hf]

theorem bit_and_not {k i : Nat} (hi : i < k) (v w : BitVec k) : bit (v &&& ~~~w) i = (bit v i && !bit w i) := by
  simp [bit, hi]

namespace State
variable {s : State} {n m : Fin 64}

theorem chan_modOut_self (s : State) (n : Fin 64) (f : Output → Output) :
    (s.modOut n f).chan n = { s.chan n with o := f (s.chan n).o } := chan_modChan_self s n _

/-! ## The causes under the operations of Clearing -/

theorem causes_settlePair (s : State) (n m : Fin 64) : ((s.settlePair n).chan m).o.causes = (s.chan m).o.causes :=
  output_settlePair (P := fun o => o.causes = (s.chan m).o.causes) (fun o b h => (o.causes_pairCause b).trans h) rfl n

theorem causes_clearCause_self (s : State) (n : Fin 64) (b : BitVec 11) :
    ((s.clearCause n b).chan n).o.causes = (s.chan n).o.causes &&& ~~~b := by
  rw [clearCause, causes_settlePair, chan_modOut_self]
  show (s.chan n).o.clr &&& ~~~b &&& ~~~cPAIR = _
  rw [Output.causes, BitVec.and_assoc, BitVec.and_assoc, BitVec.and_comm (~~~b)]

theorem causes_setCause_self (s : State) (n : Fin 64) {b : BitVec 11} (hb : b &&& ~~~cPAIR = b) :
    ((s.setCause n b).chan n).o.causes = (s.chan n).o.causes ||| b := by
  rw [setCause, causes_settlePair, chan_modOut_self]
  show ((s.chan n).o.clr ||| b) &&& ~~~cPAIR = ((s.chan n).o.clr &&& ~~~cPAIR) ||| b
  conv_rhs => rw [← hb]
  refine BitVec.eq_of_getLsbD_eq fun i _ => ?_
  rw [BitVec.getLsbD_and, BitVec.getLsbD_or, BitVec.getLsbD_or, BitVec.getLsbD_and, BitVec.getLsbD_and, Bool.and_or_distrib_right]

theorem causes_clearCause_ne (h : m ≠ n) (b : BitVec 11) : ((s.clearCause n b).chan m).o.causes = (s.chan m).o.causes := by
  rw [clearCause, causes_settlePair, chan_modOut_ne h]

theorem causes_setCause_ne (h : m ≠ n) (b : BitVec 11) : ((s.setCause n b).chan m).o.causes = (s.chan m).o.causes := by
  rw [setCause, causes_settlePair, chan_modOut_ne h]

/-- An underrun noted on channel n. -/
def underNoted (s : State) (n : Fin 64) : State := (s.setOstat n oUNDR).modOut n fun o => { o with rdmUnder := true }

theorem noteUnder_of (h : s.underruns n = true) : s.noteUnder n =
    if (s.chan n).o.undrClr then (s.underNoted n).setCause n cUNDR else s.underNoted n := by
  have hcfg : ((s.underNoted n).chan n).o.undrClr = (s.chan n).o.undrClr := by
    rw [underNoted, chan_modOut_self, setOstat, chan_hwSet, chan_modOut_self]
    rfl
  unfold noteUnder
  rw [if_pos h]
  exact congrArg (fun b : Bool => if b then (s.underNoted n).setCause n cUNDR else s.underNoted n) hcfg

theorem noteUnder_none (h : s.underruns n = false) : s.noteUnder n = s := if_neg (by rw [h]; decide)

theorem causes_underNoted (s : State) (n m : Fin 64) : ((s.underNoted n).chan m).o.causes = (s.chan m).o.causes := by
  by_cases h : m = n
  · rw [h, underNoted, chan_modOut_self, setOstat, chan_hwSet, chan_modOut_self]
    rfl
  · rw [underNoted, chan_modOut_ne h, setOstat, chan_hwSet, chan_modOut_ne h]

theorem causes_noteUnder_self (s : State) (n : Fin 64) : ((s.noteUnder n).chan n).o.causes =
    if s.underruns n && (s.chan n).o.undrClr then (s.chan n).o.causes ||| cUNDR else (s.chan n).o.causes := by
  cases h : s.underruns n with
  | false => rw [noteUnder_none h]; rfl
  | true =>
    rw [noteUnder_of h, Bool.true_and]
    cases (s.chan n).o.undrClr with
    | false => exact causes_underNoted s n n
    | true => exact (causes_setCause_self _ n (by decide)).trans (congrArg (· ||| cUNDR) (causes_underNoted s n n))

theorem causes_noteUnder_ne (h : m ≠ n) : ((s.noteUnder n).chan m).o.causes = (s.chan m).o.causes := by
  cases hu : s.underruns n with
  | false => rw [noteUnder_none hu]
  | true =>
    rw [noteUnder_of hu]
    cases (s.chan n).o.undrClr with
    | false => exact causes_underNoted s n m
    | true => exact (causes_setCause_ne h _).trans (causes_underNoted s n m)

/-! ## Clearing lasts -/

/-- From s to t no channel leaves Clearing. -/
def StaysClear (s t : State) : Prop := ∀ m, (s.chan m).o.inClr = true → (t.chan m).o.inClr = true

theorem StaysClear.trans {t u : State} (h : StaysClear s t) (k : StaysClear t u) : StaysClear s u := fun m hm => k m (h m hm)
theorem StaysClear.foldl {α : Type} {f : State → α → State} (h : ∀ s a, StaysClear s (f s a)) (l : List α) (s : State) :
    StaysClear s (l.foldl f s) := by
  induction l generalizing s with
  | nil => exact fun _ hm => hm
  | cons a l ih => exact (h s a).trans (ih _)

theorem staysClear_modOut (s : State) (n : Fin 64) {f : Output → Output} (hf : ∀ o : Output, o.inClr = true → (f o).inClr = true) :
    StaysClear s (s.modOut n f) := fun m hm => by
  rw [chan_modOut]
  split
  · next h => exact hf _ (h ▸ hm)
  · exact hm

theorem staysClear_settlePair (s : State) (n : Fin 64) : StaysClear s (s.settlePair n) := fun m hm =>
  output_settlePair (P := fun o => o.inClr = true) (fun o b h => by cases b <;> first | exact h | rfl) hm n

theorem staysClear_clearCause (s : State) (n : Fin 64) (b : BitVec 11) : StaysClear s (s.clearCause n b) :=
  (staysClear_modOut s n (f := fun o => { o with clr := o.clr &&& ~~~b }) fun _ h => h).trans (staysClear_settlePair _ n)

theorem staysClear_setCause (s : State) (n : Fin 64) (b : BitVec 11) : StaysClear s (s.setCause n b) :=
  (staysClear_modOut s n (f := fun o => { o with clr := o.clr ||| b, inClr := true }) fun _ _ => rfl).trans (staysClear_settlePair _ n)

theorem inClr_setCause (s : State) (n : Fin 64) (b : BitVec 11) : ((s.setCause n b).chan n).o.inClr = true := by
  refine staysClear_settlePair _ n n ?_
  rw [chan_modOut_self]

theorem staysClear_noteUnder (s : State) (n : Fin 64) : StaysClear s (s.noteUnder n) := by
  have hnoted : StaysClear s (s.underNoted n) :=
    (show StaysClear s (s.setOstat n oUNDR) from
      staysClear_modOut s n (f := fun o => { o with ostat := o.ostat ||| oUNDR }) fun _ h => h).trans
    (staysClear_modOut _ n (f := fun o => { o with rdmUnder := true }) fun _ h => h)
  cases hu : s.underruns n with
  | false => rw [noteUnder_none hu]; exact fun _ hm => hm
  | true =>
    rw [noteUnder_of hu]
    cases (s.chan n).o.undrClr with
    | false => exact hnoted
    | true => exact hnoted.trans (staysClear_setCause _ n _)

/-! ## Releases -/

/-- The causes that a release of SW, RDBK and UNDR takes away. -/
def releasedSw (s : State) (n : Fin 64) : BitVec 11 := cSW ||| cRDBK ||| (if s.underruns n then 0 else cUNDR)

theorem steady_release (s : State) (n m : Fin 64) (b : BitVec 11) : ((s.release n b).chan m).steady = (s.chan m).steady :=
  steady_clearCause s n m b

theorem underruns_of_steady {t : State} (h : (t.chan n).steady = (s.chan n).steady) : t.underruns n = s.underruns n :=
  Chan.view_of_steady h (fun x => x.c.run && x.o.uwatch && x.o.queue.isEmpty) fun _ => rfl

theorem causes_releaseSw_self (s : State) (n : Fin 64) : ((s.releaseSw n).chan n).o.causes =
    if s.underruns n && (s.chan n).o.undrClr then ((s.chan n).o.causes &&& ~~~s.releasedSw n) ||| cUNDR
    else (s.chan n).o.causes &&& ~~~s.releasedSw n := by
  have hst := s.steady_release n n (s.releasedSw n)
  have hc : ((s.release n (s.releasedSw n)).chan n).o.causes = (s.chan n).o.causes &&& ~~~s.releasedSw n :=
    causes_clearCause_self s n _
  have h := causes_noteUnder_self (s.release n (s.releasedSw n)) n
  rw [underruns_of_steady hst, hc, show ((s.release n (s.releasedSw n)).chan n).o.undrClr = (s.chan n).o.undrClr from
    Chan.view_of_steady hst (fun x => x.o.undrClr) fun _ => rfl] at h
  exact h

theorem causes_releaseSw_ne (h : m ≠ n) : ((s.releaseSw n).chan m).o.causes = (s.chan m).o.causes :=
  (causes_noteUnder_ne h).trans (causes_clearCause_ne h _)

theorem staysClear_release (s : State) (n : Fin 64) (b : BitVec 11) : StaysClear s (s.release n b) :=
  staysClear_clearCause s n b

theorem staysClear_releaseSw (s : State) (n : Fin 64) : StaysClear s (s.releaseSw n) :=
  (staysClear_release s n _).trans (staysClear_noteUnder _ n)

theorem chan_releaseSw_ne (hn : m ≠ n) (hp : m ≠ partner n) : (s.releaseSw n).chan m = s.chan m :=
  (chan_noteUnder_ne hn hp).trans ((chan_settlePair_ne hn hp).trans (chan_modOut_ne hn _))

theorem only_release (s : State) (n : Fin 64) (b : BitVec 11) : OnlyChanges [.chans] s (s.release n b) :=
  (only_clearCause s n b).both (only_modCyc _ _ _)

theorem only_releaseSw (s : State) (n : Fin 64) : OnlyChanges [.chans] s (s.releaseSw n) :=
  (only_release s n _).both (only_noteUnder _ n)

/-- A release of SW, RDBK and UNDR takes SW and RDBK, and UNDR unless the channel underruns. -/
theorem bits_releaseSw (s : State) (n : Fin 64) :
    bit ((s.releaseSw n).chan n).o.clr 1 = false ∧ bit ((s.releaseSw n).chan n).o.clr 6 = false ∧
      bit ((s.releaseSw n).chan n).o.clr 7 = (s.underruns n && (bit (s.chan n).o.clr 7 || (s.chan n).o.undrClr)) ∧
      ∀ i, i = 0 ∨ i = 2 ∨ i = 3 ∨ i = 4 ∨ i = 5 ∨ i = 8 ∨ i = 9 →
        bit ((s.releaseSw n).chan n).o.clr i = bit (s.chan n).o.clr i := by
  have hbit (i : Nat) (hi : i < 10) : bit ((s.releaseSw n).chan n).o.clr i =
      ((bit (s.chan n).o.clr i && !bit (s.releasedSw n) i) || (s.underruns n && (s.chan n).o.undrClr && bit cUNDR i)) := by
    rw [← Output.bit_causes _ hi, ← Output.bit_causes (s.chan n).o hi, causes_releaseSw_self]
    cases s.underruns n && (s.chan n).o.undrClr
    · simp [bit_and_not (show i < 11 by omega)]
    · simp [bit_and_not (show i < 11 by omega), bit_or]
  have hrel (i : Nat) : bit (s.releasedSw n) i = (bit cSW i || bit cRDBK i || (!s.underruns n && bit cUNDR i)) := by
    unfold releasedSw
    rw [bit_or, bit_or]
    cases s.underruns n
    · rfl
    · simp [bit]
  refine ⟨?_, ?_, ?_, fun i hi => ?_⟩
  · rw [hbit 1 (by decide), hrel]
    simp [show bit cSW 1 = true from rfl, show bit cUNDR 1 = false from rfl]
  · rw [hbit 6 (by decide), hrel]
    simp [show bit cRDBK 6 = true from rfl, show bit cUNDR 6 = false from rfl]
  · rw [hbit 7 (by decide), hrel, show bit cSW 7 = false from rfl, show bit cRDBK 7 = false from rfl, show bit cUNDR 7 = true from rfl]
    cases s.underruns n <;> simp
  · have hnone : i < 10 ∧ bit cSW i = false ∧ bit cRDBK i = false ∧ bit cUNDR i = false := by
      obtain rfl | rfl | rfl | rfl | rfl | rfl | rfl := hi <;> decide
    obtain ⟨hlt, hsw, hrb, hun⟩ := hnone
    rw [hbit i hlt, hrel, hsw, hrb, hun]
    simp

/-! ## The 8 channels of a grove -/

theorem chanOf_mem (g k : Fin 8) : chanOf g k ∈ groveChans g := List.mem_map.2 ⟨k, List.mem_finRange k, rfl⟩

/-- Of the commands to a grove's channels, only a channel's own acts on its causes. -/
theorem causes_foldl {f : State → Fin 64 → State} (h : ∀ t n m, m ≠ n → ((f t n).chan m).o.causes = (t.chan m).o.causes)
    (s : State) (g k : Fin 8) : ∃ u : State, (((groveChans g).foldl f s).chan (chanOf g k)).o.causes =
      ((f u (chanOf g k)).chan (chanOf g k)).o.causes := by
  obtain ⟨u, -, hu⟩ := foldl_at (p := fun t : State => (t.chan (chanOf g k)).o.causes) (f := f) (chanOf_mem g k) (nodup_groveChans g)
    (fun t n _ hn => h t n _ (Ne.symm hn)) s
  exact ⟨u, hu⟩

end State

/-- Settles O26: each command's causes are read off the view without PAIR; no release leaves Clearing. -/
theorem clearingCauses : Obligations.ClearingCauses := by
  unfold Obligations.ClearingCauses
  intro s n g k x y
  refine ⟨fun hp c hc => ?held, fun hp => ⟨?clr, ?grvClr, ?rel, ?grvRel, fun hd => ?sync, fun h0 hd => ?noSync, fun ht => ?tripped,
    fun ht => ?trip⟩⟩
  case held =>
    simp only [List.mem_cons, List.not_mem_nil, or_false] at hc
    obtain rfl | rfl | rfl | rfl | rfl | rfl | rfl := hc <;> exact completes_held rfl hp
  case clr =>
    have hst := State.steady_setCause s n n cSW
    refine completes_up rfl hp ⟨?_, State.inClr_setCause s n _, Chan.view_of_steady hst (fun x => x.c) fun _ => rfl,
      Chan.view_of_steady hst (fun x => x.o.queue) fun _ => rfl, fun m hn hm => State.chan_setCause_ne hn hm _⟩ (State.only_setCause s n _)
    rw [← Output.bit_causes _ (by decide), State.setSw, State.causes_setCause_self s n (by decide), bit_or]
    exact Bool.or_true _
  case grvClr =>
    obtain ⟨u, hu⟩ := State.causes_foldl (f := fun t n => t.setSw n) (fun t n m h => State.causes_setCause_ne h _) s g k
    have hclear : ∀ (l : List (Fin 64)) (t : State), State.chanOf g k ∈ l →
        ((l.foldl (fun t n => t.setSw n) t).chan (State.chanOf g k)).o.inClr = true := by
      intro l
      induction l with
      | nil => exact fun t h => absurd h List.not_mem_nil
      | cons a l ih =>
        intro t hmem
        obtain rfl | hmem := List.mem_cons.1 hmem
        · exact State.StaysClear.foldl (fun t n => State.staysClear_setCause t n _) l _ _ (State.inClr_setCause t _ _)
        · exact ih _ hmem
    have hst := foldl_keeps (p := fun t : State => (t.chan (State.chanOf g k)).steady) (f := fun t n => t.setSw n)
      (State.groveChans g) (fun t n _ => State.steady_setCause t n _ _) s
    have hx : s.grvClrcmd g 1 = (State.groveChans g).foldl (fun t n => t.setSw n) s := rfl
    refine completes_up (f := fun s => s.grvClrcmd g 1) rfl hp ?_ ?_
    · rw [hx]
      refine ⟨?_, hclear _ s (State.chanOf_mem g k), Chan.view_of_steady hst (fun x => x.c) fun _ => rfl⟩
      rw [← Output.bit_causes _ (by decide), hu, State.setSw, State.causes_setCause_self u _ (by decide), bit_or]
      exact Bool.or_true _
    · rw [hx]
      exact .foldl (fun t n => State.only_setCause t n _) _ s
  case rel =>
    obtain ⟨h1, h6, h7, hrest⟩ := s.bits_releaseSw n
    exact completes_up rfl hp ⟨h1, h6, h7, hrest, State.staysClear_releaseSw s n n, fun m hn hm => State.chan_releaseSw_ne hn hm⟩
      (s.only_releaseSw n)
  case grvRel =>
    obtain ⟨u, hu⟩ := State.causes_foldl (f := fun t n => t.releaseSw n) (fun t n m h => State.causes_releaseSw_ne h) s g k
    obtain ⟨h1, h6, -⟩ := u.bits_releaseSw (State.chanOf g k)
    have hx : s.grvClrcmd g 2 = (State.groveChans g).foldl (fun t n => t.releaseSw n) s := rfl
    have hstay : s.StaysClear ((State.groveChans g).foldl (fun t n => t.releaseSw n) s) :=
      .foldl (f := fun t n => t.releaseSw n) (fun t n => State.staysClear_releaseSw t n) _ s
    rw [← Output.bit_causes _ (by decide)] at h1 h6
    refine completes_up (f := fun s => s.grvClrcmd g 2) rfl hp ?_ ?_
    · rw [hx]
      refine ⟨?_, ?_, hstay (State.chanOf g k)⟩
      · rw [← Output.bit_causes _ (by decide), hu]
        exact h1
      · rw [← Output.bit_causes _ (by decide), hu]
        exact h6
    · rw [hx]
      exact .foldl (fun t n => State.only_releaseSw t n) _ s
  case sync =>
    have hx : s.releaseSync n = s.release n cSYNC := if_pos hd
    refine completes_up rfl hp ?_ ?_
    · rw [hx]
      refine ⟨?_, State.staysClear_release s n _ n, fun m hn hm => (State.chan_settlePair_ne hn hm).trans (State.chan_modOut_ne hn _)⟩
      rw [← Output.bit_causes _ (by decide)]
      exact (congrArg (fun b => bit b 3) (State.causes_clearCause_self s n cSYNC)).trans
        ((bit_and_not (by decide) _ _).trans (Bool.and_false _))
    · rw [hx]
      exact State.only_release s n _
  case noSync =>
    exact completes_unchanged rfl (if_neg fun h => h.elim h0 fun h => absurd (hd.symm.trans h) (by decide))
  case tripped =>
    have hx : s.releaseTrip g = s := if_pos ht
    exact completes_unchanged rfl hx
  case trip =>
    have hx : s.grvClrcmd g 4 = (State.groveChans g).foldl (fun s n => s.release n cITRIP) s := if_neg (by rw [ht]; decide)
    obtain ⟨u, hu⟩ := State.causes_foldl (f := fun t n => t.release n cITRIP) (fun t n m h => State.causes_clearCause_ne h _) s g k
    have hstay : s.StaysClear ((State.groveChans g).foldl (fun t n => t.release n cITRIP) s) :=
      .foldl (f := fun t n => t.release n cITRIP) (fun t n => State.staysClear_release t n _) _ s
    refine completes_up (f := fun s => s.grvClrcmd g 4) rfl hp ?_ ?_
    · rw [hx]
      refine ⟨?_, hstay (State.chanOf g k)⟩
      rw [← Output.bit_causes _ (by decide), hu]
      exact (congrArg (fun b => bit b 2) (State.causes_clearCause_self u _ cITRIP)).trans
        ((bit_and_not (by decide) _ _).trans (Bool.and_false _))
    · rw [hx]
      exact .foldl (fun t n => State.only_release t n _) _ s

end Sys2Proof.Machine
end

section
/-!
# The edge queue: pushes, shadows, flushes and firings (05 R169–R184, R204, R205, R210)
-/
namespace Sys2Proof.Machine

theorem find?_finRange_eq_some {k : Nat} {p : Fin k → Bool} {i : Fin k} (hi : p i = true) (h : ∀ j, j < i → p j = false) :
    (List.finRange k).find? p = some i := by
  rw [List.find?_eq_some_iff_getElem]
  refine ⟨hi, i.val, by simp, by simp, fun j hj => ?_⟩
  rw [List.getElem_finRange, Bool.not_eq_true', h _ hj]

/-- A command of a block out of reset, that comes to a given state. -/
theorem completes_to {c : Instr} {s t : State} {f : State → State} {ps : List Part} {P : State → Prop}
    (hc : exec c s = .next (s.whenUp s.pwr.pdUp f)) (hup : s.pwr.pdUp = true) (hx : f s = t) (hP : P t) (ho : OnlyChanges ps s t) :
    Completes c s ps P := completes_up hc hup (hx.symm ▸ hP) (hx.symm ▸ ho)

namespace State
variable {s : State} {n m : Fin 64}

theorem chan_setOstat_self (s : State) (n : Fin 64) (b : BitVec 8) :
    (s.setOstat n b).chan n = { s.chan n with o := { (s.chan n).o with ostat := (s.chan n).o.ostat ||| b } } := by
  rw [setOstat, chan_hwSet, chan_modOut_self]

/-! ## Slots -/

/-- A slot that an entry holds, or that came free in this cycle (05 R169, R204). -/
def SlotTaken (s : State) (n : Fin 64) (k : Fin 8) : Prop := (∃ e ∈ (s.chan n).o.queue, e.slot = k) ∨ (n, k) ∈ s.cyc.freed

/-- Is slot k free to be taken by a push? -/
def slotFree (s : State) (n : Fin 64) (k : Fin 8) : Bool :=
  (s.chan n).o.queue.all (fun e => e.slot ≠ k) && !((s.cyc.freed.filter fun p => p.1 = n).map (·.2)).contains k

theorem slotFree_iff (s : State) (n : Fin 64) (k : Fin 8) : s.slotFree n k = true ↔ ¬ s.SlotTaken n k := by
  have hfreed : ((s.cyc.freed.filter fun p => p.1 = n).map (·.2)).contains k = true ↔ (n, k) ∈ s.cyc.freed := by
    rw [List.contains_iff_mem, List.mem_map]
    constructor
    · rintro ⟨⟨m, j⟩, hp, rfl⟩
      obtain ⟨hm, hn⟩ := List.mem_filter.1 hp
      rwa [← of_decide_eq_true hn]
    · exact fun h => ⟨(n, k), List.mem_filter.2 ⟨h, decide_eq_true rfl⟩, rfl⟩
  have hqueue : (s.chan n).o.queue.all (fun e => e.slot ≠ k) = true ↔ ¬ ∃ e ∈ (s.chan n).o.queue, e.slot = k := by
    simp [List.all_eq_true]
  rw [slotFree, Bool.and_eq_true, hqueue, Bool.not_eq_true', ← Bool.not_eq_true, hfreed, SlotTaken, not_or]

theorem slotFor_eq_none (h : ∀ k, s.SlotTaken n k) : s.slotFor n = none :=
  List.find?_eq_none.2 fun k _ hk => (s.slotFree_iff n k).1 hk (h k)

theorem slotFor_eq_some {k : Fin 8} (hk : ¬ s.SlotTaken n k) (h : ∀ j, j < k → s.SlotTaken n j) : s.slotFor n = some k :=
  find?_finRange_eq_some ((s.slotFree_iff n k).2 hk) fun j hj =>
    Bool.eq_false_iff.2 fun hf => (s.slotFree_iff n j).1 hf (h j hj)

theorem slotFor_isSome (h : ∃ k, ¬ s.SlotTaken n k) : (s.slotFor n).isNone = false := by
  obtain ⟨k, hk⟩ := h
  cases hs : s.slotFor n with
  | none => exact absurd ((s.slotFree_iff n k).2 hk) (List.find?_eq_none.1 hs k (List.mem_finRange k))
  | some _ => rfl

/-! ## Pushes -/

/-- The fields of a push are valid, and its pair takes its level (05 Table 5.1, R170, R190). -/
def PushValid (s : State) (n : Fin 64) (w : Word) (tgt : W48) (l : Level) : Prop :=
  levelOf (fld w 19 18) = some l ∧ s.pairRefuses n l = false ∧
    s.edgeValid (.ofNat 2 (fld w 17 16)) (.ofNat 2 (fld w 29 28)) (.ofNat 2 (fld w 27 26)) (bit w 25) tgt = true

/-- FULL is set where a push finds no room (05 R170). -/
def fullNoted (s : State) (n : Fin 64) : State := if (s.slotFor n).isNone then s.setOstat n oFULL else s

theorem pairRefuses_setOstat (s : State) (n : Fin 64) (b : BitVec 8) (l : Level) :
    (s.setOstat n b).pairRefuses n l = s.pairRefuses n l :=
  congrArg (fun mode : Bool => mode && (n.val % 2 == 1 || l == .released))
    (Chan.view_of_steady (steady_setOstat s n (evenOf n) b) (fun x => x.o.pair.mode) fun _ => rfl)

theorem pairRefuses_fullNoted (s : State) (n : Fin 64) (l : Level) : (s.fullNoted n).pairRefuses n l = s.pairRefuses n l := by
  unfold fullNoted
  split
  · exact pairRefuses_setOstat s n _ l
  · rfl

theorem edgeValid_fullNoted (s : State) (n : Fin 64) : (s.fullNoted n).edgeValid = s.edgeValid := by
  unfold fullNoted
  split <;> rfl

theorem pushEdge_fenced (h : (s.chan n).fenced = true) (w : Word) (tgt : W48) : s.pushEdge n w tgt = s.setOstat n oEQERR := if_pos h

theorem pushEdge_invalid (hf : (s.chan n).fenced = false) {w : Word} {tgt : W48} (h : ¬ ∃ l, s.PushValid n w tgt l) :
    s.pushEdge n w tgt = (s.fullNoted n).setOstat n oEQERR := by
  unfold pushEdge
  extract_lets c kind dom slope rearm room u
  have hu : u = s.fullNoted n := rfl
  rw [if_neg (show ¬ c.fenced = true by rw [show c.fenced = false from hf]; decide)]
  split
  next => rfl
  next _ l hl =>
    refine (if_pos ?_).trans rfl
    rw [hu, pairRefuses_fullNoted, edgeValid_fullNoted, Bool.or_eq_true, Bool.not_eq_true']
    by_contra hc
    obtain ⟨hv, hp⟩ := not_or.1 hc
    exact h ⟨l, hl, Bool.eq_false_iff.2 hp, Bool.not_eq_false _ ▸ hv⟩

/-- The entry that a push makes. -/
def pushedEdge (w : Word) (tgt : W48) (l : Level) (k : Fin 8) : Edge :=
  { slot := k, kind := .ofNat 2 (fld w 17 16), dom := .ofNat 2 (fld w 29 28), slope := .ofNat 2 (fld w 27 26),
    rearm := bit w 25, level := l, tap := .ofNat 5 (fld w 24 20), tgt := tgt }

/-- The entry at the tail, its slot noted. -/
def edgeAppended (s : State) (n : Fin 64) (e : Edge) (k : Fin 8) : State :=
  s.modOut n fun o => { o with queue := o.queue ++ [e], last := k }

theorem pushEdge_valid (hf : (s.chan n).fenced = false) {w : Word} {tgt : W48} {l : Level} (h : s.PushValid n w tgt l) :
    (s.slotFor n = none → s.pushEdge n w tgt = s.setOstat n oFULL) ∧
    ∀ k, s.slotFor n = some k → s.pushEdge n w tgt =
      if (s.chan n).o.queue.isEmpty then (s.edgeAppended n (pushedEdge w tgt l k) k).markHead n
      else s.edgeAppended n (pushedEdge w tgt l k) k := by
  obtain ⟨hl, hp, hv⟩ := h
  unfold pushEdge
  extract_lets c kind dom slope rearm room u
  have hu : u = s.fullNoted n := rfl
  have hcheck : ¬ (!u.edgeValid kind dom slope rearm tgt || u.pairRefuses n l) = true := by
    rw [hu, pairRefuses_fullNoted, edgeValid_fullNoted, hp, show s.edgeValid kind dom slope rearm tgt = true from hv]
    decide
  rw [if_neg (show ¬ c.fenced = true by rw [show c.fenced = false from hf]; decide), hl]
  dsimp only
  rw [if_neg hcheck]
  refine ⟨fun hroom => ?_, fun k hroom => ?_⟩
  · rw [show room = none from hroom]
    exact if_pos (by rw [show room = none from hroom]; rfl)
  · rw [show room = some k from hroom, hu, fullNoted, if_neg (by rw [hroom]; exact Bool.false_ne_true)]
    rfl

/-- A new head's mark alone distinguishes it from the entry as it was. -/
theorem chan_markHead_self (s : State) (n : Fin 64) : ∃ q, (s.markHead n).chan n = { s.chan n with o := { (s.chan n).o with queue := q } } ∧
    (((s.chan n).o.queue = [] ∧ q = []) ∨ ∃ e r late, (s.chan n).o.queue = e :: r ∧ q = { e with late := late } :: r) := by
  unfold markHead
  rw [chan_modCyc, chan_modOut_self]
  cases hq : (s.chan n).o.queue with
  | nil =>
    refine ⟨[], ?_, .inl ⟨rfl, rfl⟩⟩
    show s.chan n = { s.chan n with o := { (s.chan n).o with queue := [] } }
    rw [← hq]
  | cons e r => exact ⟨_, rfl, .inr ⟨e, r, _, rfl, rfl⟩⟩

theorem chan_markHead_ne (h : m ≠ n) : (s.markHead n).chan m = s.chan m := by
  rw [markHead, chan_modCyc, chan_modOut_ne h]

theorem chan_edgeAppended_self (s : State) (n : Fin 64) (e : Edge) (k : Fin 8) : (s.edgeAppended n e k).chan n =
    { s.chan n with o := { (s.chan n).o with queue := (s.chan n).o.queue ++ [e], last := k } } := chan_modOut_self s n _

end State

/-- Settles O23. -/
theorem edgePushes : Obligations.EdgePushes := by
  unfold Obligations.EdgePushes
  intro s p n w x tgt ok taken flagged
  have hok : ok ↔ ∃ l, s.PushValid n w tgt l := Iff.rfl
  have hflag (b : BitVec 8) : flagged (s.setOstat n b) b :=
    ⟨s.chan_setOstat_self n b, fun m hm => State.chan_setOstat_ne hm b⟩
  refine ⟨fun hp hf => ?fenced, fun hp hf hbad hroom => ?invalid, fun hp hf hbad hfull => ?both, fun hp hf hgood hfull => ?full,
    fun hp hf hgood k hlow hk => ?pushed, fun hp c hc => ?held⟩
  case fenced =>
    exact completes_to (f := fun s => s.eqPush n p w) rfl hp (State.pushEdge_fenced hf w tgt) (hflag 2) (State.only_setOstat s n _)
  case invalid =>
    have hx : s.eqPush n p w = s.setOstat n oEQERR := by
      rw [State.eqPush, State.pushEdge_invalid hf hbad, State.fullNoted, State.slotFor_isSome hroom]
      rfl
    exact completes_to (f := fun s => s.eqPush n p w) rfl hp hx (hflag 2) (State.only_setOstat s n _)
  case both =>
    have hx : s.eqPush n p w = (s.setOstat n oFULL).setOstat n oEQERR := by
      rw [State.eqPush, State.pushEdge_invalid hf hbad, State.fullNoted, State.slotFor_eq_none hfull]
      rfl
    refine completes_to (f := fun s => s.eqPush n p w) rfl hp hx ⟨?_, fun m hm => ?_⟩
      ((State.only_setOstat s n _).both (State.only_setOstat _ n _))
    · rw [State.chan_setOstat_self, State.chan_setOstat_self, BitVec.or_assoc]
      rfl
    · rw [State.chan_setOstat_ne hm, State.chan_setOstat_ne hm]
  case full =>
    obtain ⟨l, hl⟩ := hgood
    obtain ⟨hx, -⟩ := State.pushEdge_valid hf hl
    exact completes_to (f := fun s => s.eqPush n p w) rfl hp (hx (State.slotFor_eq_none hfull)) (hflag 1) (State.only_setOstat s n _)
  case pushed =>
    obtain ⟨l, hl⟩ := hgood
    obtain ⟨-, hx⟩ := State.pushEdge_valid hf hl
    have happend := s.chan_edgeAppended_self n (State.pushedEdge w tgt l k) k
    have hothers (m : Fin 64) (hm : m ≠ n) : (s.edgeAppended n (State.pushedEdge w tgt l k) k).chan m = s.chan m :=
      State.chan_modOut_ne hm _
    have honly : OnlyChanges [.chans] s (s.edgeAppended n (State.pushedEdge w tgt l k) k) := State.only_modOut s n _
    refine completes_to (f := fun s => s.eqPush n p w) rfl hp (hx k (State.slotFor_eq_some hk hlow)) ?_
      (.ite (honly.both (State.only_markHead _ n)) honly)
    by_cases hq : (s.chan n).o.queue.isEmpty = true
    · rw [if_pos hq]
      obtain ⟨q, hmark, hhead⟩ := (s.edgeAppended n (State.pushedEdge w tgt l k) k).chan_markHead_self n
      rw [hmark, happend]
      rw [happend, List.isEmpty_iff.1 hq] at hhead
      have hnew : ∃ late, q = [{ State.pushedEdge w tgt l k with late := late }] := by
        obtain ⟨h0, -⟩ | ⟨e, r, late, he, rfl⟩ := hhead
        · exact absurd h0 (List.cons_ne_nil _ _)
        · obtain ⟨rfl, rfl⟩ := List.cons.inj he
          exact ⟨late, rfl⟩
      obtain ⟨late, rfl⟩ := hnew
      refine ⟨⟨{ State.pushedEdge w tgt l k with late := late }, ?_, rfl, rfl, rfl, rfl, rfl, hl.1.symm, rfl, rfl, rfl⟩, rfl, rfl, rfl,
        fun m hm => (State.chan_markHead_ne hm).trans (hothers m hm)⟩
      rw [show x.o.queue = [] from List.isEmpty_iff.1 hq]
      rfl
    · rw [if_neg hq, happend]
      exact ⟨⟨State.pushedEdge w tgt l k, rfl, rfl, rfl, rfl, rfl, rfl, hl.1.symm, rfl, rfl, rfl⟩, rfl, rfl, rfl, hothers⟩
  case held =>
    simp only [List.mem_cons, List.not_mem_nil, or_false] at hc
    obtain rfl | rfl | rfl | rfl | rfl := hc <;> exact completes_held rfl hp

end Sys2Proof.Machine
end

section
/-!
# Shadows, ARM, FLUSH (05 R182, R184, R205, R210)
-/
namespace Sys2Proof.Machine
namespace State
variable {s : State} {n m : Fin 64}

/-- A shadow in the slots numbered k. -/
def shadowLoaded (k : Fin 8) (sh : Shadow) (q : List Edge) : List Edge :=
  q.map fun y => if y.slot = k then { y with shadow := some sh } else y

/-- The shadow that a write makes. -/
def writtenShadow (w : Word) (tgt : W48) (l : Level) : Shadow :=
  { slope := .ofNat 2 (fld w 24 23), level := l, tap := .ofNat 5 (fld w 20 16), tgt := tgt }

theorem loadShadow_valid {w : Word} {tgt : W48} {e : Edge} {l : Level} (hf : (s.chan n).fenced = false)
    (he : (s.chan n).o.queue.find? (fun e => e.slot = Fin.ofNat 8 (fld w 27 25)) = some e) (hl : levelOf (fld w 22 21) = some l)
    (hv : s.edgeValid e.kind e.dom (.ofNat 2 (fld w 24 23)) e.rearm tgt = true) (hp : s.pairRefuses n l = false) :
    s.loadShadow n w tgt = (s.modOut n fun o => { o with queue := shadowLoaded (Fin.ofNat 8 (fld w 27 25)) (writtenShadow w tgt l) o.queue }).modCyc
      fun c => { c with shadows := (n, Fin.ofNat 8 (fld w 27 25)) :: c.shadows } := by
  unfold loadShadow
  dsimp only
  rw [hf, he, hl]
  dsimp only
  rw [hv, hp]
  rfl

theorem loadShadow_refused {w : Word} (tgt : W48)
    (h : (s.chan n).fenced = true ∨ ∀ e ∈ (s.chan n).o.queue, e.slot ≠ Fin.ofNat 8 (fld w 27 25)) :
    s.loadShadow n w tgt = s.setOstat n oEQERR := by
  unfold loadShadow
  dsimp only
  split
  next e l hf he _ =>
    obtain h | h := h
    · exact absurd (h.symm.trans hf) (by decide)
    · exact absurd (by simpa using List.find?_some he) (h e (List.mem_of_find?_eq_some he))
  next => rfl

/-! ## ARM -/

/-- The channels of a grove that ARM waits for. -/
def armWaits (s : State) (g k : Fin 8) : Bool := s.runs (chanOf g k) && (s.chan (chanOf g k)).o.grpupd

/-- ARM set anew: it waits for the channels of `wait`. -/
def armedWith (s : State) (g : Fin 8) (wait : BitVec 8) : State :=
  (s.modGrove g fun x => { x with arm := true, armWait := wait, armDone := 0, armOwe := 0xFF }).modCyc fun c =>
    { c with armed := g :: c.armed }

theorem armGrove_set (s : State) {g : Fin 8} (h : (s.grove g).arm = false) :
    ∃ wait, (∀ j : Fin 8, bit wait j.val = true ↔ s.armWaits g j = true) ∧ s.armGrove g = s.armedWith g wait := by
  refine ⟨(List.finRange 8).foldl (fun a k => if s.armWaits g k then a ||| oneBit 8 k.val else a) 0, fun j => ?_,
    if_neg (by rw [h]; decide)⟩
  rw [bit_foldl_oneBit, decide_eq_true (List.mem_finRange j), Bool.true_and]
  simp [bit]

/-! ## FLUSH -/

theorem unfire_none (h : ∀ f ∈ s.cyc.fired, f.1 ≠ n) : s.unfire n = s := by
  unfold unfire
  have hnone : s.cyc.fired.reverse.find? (fun p => p.1 = n) = none :=
    List.find?_eq_none.2 fun p hp => by simpa using h p (List.mem_reverse.1 hp)
  rw [hnone]

/-- Undoing a firing leaves everything but the output's level, its timing and the flags of the firing. -/
def Unfires (x y : Chan) : Prop :=
  y.c = x.c ∧ y.o.queue = x.o.queue ∧ y.o.ocfg = x.o.ocfg

theorem unfires (s : State) (n : Fin 64) : Unfires (s.chan n) ((s.unfire n).chan n) := by
  unfold unfire
  split
  · exact ⟨rfl, rfl, rfl⟩
  · rw [chan_modOut_self]
    exact ⟨rfl, rfl, rfl⟩

theorem chan_unfire_ne (h : m ≠ n) : (s.unfire n).chan m = s.chan m := by
  unfold unfire
  split
  · rfl
  · exact chan_modOut_ne h _

theorem bit_ostat_setCause {i : Nat} (h : bit (s.chan m).o.ostat i = true) (b : BitVec 11) :
    bit ((s.setCause n b).chan m).o.ostat i = true := by
  refine output_settlePair (P := fun o => bit o.ostat i = true) (fun o c h => by cases c <;> exact h) ?_ n
  rw [chan_modOut]
  split
  · next hn => subst hn; exact h
  · exact h

/-- An underrun sets UNDR, and where UNDR_CLR is set its cause and Clearing (05 R181). -/
theorem noteUnder_marks (h : s.underruns n = true) : bit ((s.noteUnder n).chan n).o.ostat 4 = true ∧
    ((s.chan n).o.undrClr = true → bit ((s.noteUnder n).chan n).o.clr 7 = true ∧ ((s.noteUnder n).chan n).o.inClr = true) := by
  have hnoted : bit ((s.underNoted n).chan n).o.ostat 4 = true := by
    rw [underNoted, chan_modOut_self, chan_setOstat_self]
    exact (bit_or _ _ _).trans (Bool.or_true _)
  have hcauses := s.causes_noteUnder_self n
  rw [h, Bool.true_and] at hcauses
  rw [noteUnder_of h] at hcauses ⊢
  cases hc : (s.chan n).o.undrClr with
  | false => exact ⟨hnoted, fun h => absurd h (by decide)⟩
  | true =>
    rw [hc] at hcauses
    refine ⟨bit_ostat_setCause hnoted _, fun _ => ⟨?_, inClr_setCause _ n _⟩⟩
    rw [← Output.bit_causes _ (by decide)]
    exact (congrArg (fun b => bit b 7) hcauses).trans ((bit_or _ _ _).trans (Bool.or_true _))

/-- The queue emptied, before an underrun is noted. -/
def emptied (s : State) (n : Fin 64) : State := (s.unfire n).modOut n fun o => { o with queue := [] }

theorem chan_emptied_self (s : State) (n : Fin 64) : (s.emptied n).chan n =
    { (s.unfire n).chan n with o := { ((s.unfire n).chan n).o with queue := [] } } := chan_modOut_self _ n _

theorem only_flushQueue (s : State) (n : Fin 64) : OnlyChanges [.chans] s (s.flushQueue n) :=
  ((only_unfire s n).both (only_modOut _ _ _)).both (only_noteUnder _ n)

end State

/-- Settles O24. -/
theorem shadowsArmAndFlush : Obligations.ShadowsArmAndFlush := by
  unfold Obligations.ShadowsArmAndFlush
  intro s p n g w x tgt k others hp
  have hflag : (s.setOstat n oEQERR).chan n = { x with o := { x.o with ostat := x.o.ostat ||| 2 } } ∧ others (s.setOstat n oEQERR) :=
    ⟨s.chan_setOstat_self n _, fun m hm => State.chan_setOstat_ne hm _⟩
  refine ⟨fun e l hf he hl hv hpair => ?load, fun h => ?refused, fun ha => ?armed, fun ha => ?arm, fun hf => ?fenced, fun hf => ?flush⟩
  case load =>
    refine completes_to (f := fun s => s.eqShd n p w) rfl hp (State.loadShadow_valid hf he hl hv hpair) ?_
      ((State.only_modOut s n _).both (State.only_modCyc _ _ _))
    rw [State.chan_modCyc, State.chan_modOut_self]
    exact ⟨rfl, rfl, fun m hm => (State.chan_modCyc _ _ m).trans (State.chan_modOut_ne hm _)⟩
  case refused =>
    exact completes_to (f := fun s => s.eqShd n p w) rfl hp (State.loadShadow_refused tgt h) hflag (State.only_setOstat s n _)
  case armed => exact completes_unchanged rfl (if_pos ha)
  case arm =>
    obtain ⟨wait, hwait, hx⟩ := State.armGrove_set s ha
    refine completes_to (f := fun s => s.armGrove g) rfl hp hx ?_ ((State.only_modGrove s g _).both (State.only_modCyc _ _ _))
    rw [State.armedWith, State.grove_modCyc, State.grove_modGrove_self]
    refine ⟨rfl, rfl, fun j => (hwait j).trans Bool.and_eq_true_iff, fun h hh => ?_⟩
    rw [State.grove_modCyc, State.grove_modGrove, if_neg (Ne.symm hh)]
  case fenced =>
    exact completes_to (f := fun s => s.flushCmd n) rfl hp (if_pos hf) hflag (State.only_setOstat s n _)
  case flush =>
    have hx : s.flushCmd n = (s.emptied n).noteUnder n := if_neg (by rw [hf]; decide)
    refine completes_to (f := fun s => s.flushCmd n) rfl hp hx ?_ (s.only_flushQueue n)
    have hst := (s.emptied n).steady_noteUnder n n
    have hempty := s.chan_emptied_self n
    obtain ⟨hc, -, hcfg⟩ := s.unfires n
    refine ⟨?_, ?_, fun hfired => ?_, fun hrun hwatch => ?_, fun m hn hm => ?_⟩
    · exact (Chan.view_of_steady hst (fun x => x.o.queue) fun _ => rfl).trans (by rw [hempty])
    · exact (Chan.view_of_steady hst (fun x => x.c) fun _ => rfl).trans (by rw [hempty]; exact hc)
    · refine (Chan.view_of_steady hst (fun x => x.o.outl) fun _ => rfl).trans ?_
      rw [hempty, State.unfire_none hfired]
    · have hunder : (s.emptied n).underruns n = true := by
        unfold State.underruns
        rw [hempty]
        show (((s.unfire n).chan n).c.run && bit ((s.unfire n).chan n).o.ocfg 6 && true) = true
        rw [hc, hcfg, show (s.chan n).c.run = true from hrun, show bit (s.chan n).o.ocfg 6 = true from hwatch]
        rfl
      obtain ⟨hflag, hclr⟩ := State.noteUnder_marks hunder
      refine ⟨hflag, fun hundr => hclr ?_⟩
      rw [hempty]
      exact (congrArg (fun c : BitVec 24 => bit c 7) hcfg).trans hundr
    · exact (State.chan_noteUnder_ne hn hm).trans ((State.chan_modOut_ne hn _).trans (State.chan_unfire_ne hn))

end Sys2Proof.Machine
end

section
/-!
# Firings of head entries (05 R173–R178, R186; 06 R221)
-/
namespace Sys2Proof.Machine
namespace State
variable {s : State} {n m : Fin 64}

/-! ## CH_OSTAT under an underrun -/

theorem ostat_setCause (s : State) (n m : Fin 64) (b : BitVec 11) : ((s.setCause n b).chan m).o.ostat = (s.chan m).o.ostat := by
  refine output_settlePair (P := fun o => o.ostat = (s.chan m).o.ostat) (fun o c h => by cases c <;> exact h) ?_ n
  rw [chan_modOut]
  split
  · next hn => subst hn; rfl
  · rfl

/-- An underrun sets UNDR among the flags, and no other. -/
theorem bit_ostat_noteUnder (s : State) (n : Fin 64) {i : Nat} (hi : i ≠ 4) :
    bit ((s.noteUnder n).chan n).o.ostat i = bit (s.chan n).o.ostat i := by
  have hnoted : bit ((s.underNoted n).chan n).o.ostat i = bit (s.chan n).o.ostat i := by
    rw [underNoted, chan_modOut_self, chan_setOstat_self]
    refine (bit_or _ _ _).trans ?_
    rw [show bit oUNDR i = false from (bit_oneBit (k := 8) (i := 4) (by decide) i).trans (decide_eq_false hi), Bool.or_false]
  cases h : s.underruns n with
  | false => rw [noteUnder_none h]
  | true =>
    rw [noteUnder_of h]
    cases (s.chan n).o.undrClr with
    | false => exact hnoted
    | true => exact (congrArg (fun b => bit b i) (ostat_setCause _ n n _)).trans hnoted

/-! ## The head's firing in its stages -/

/-- The queue that the firing of its head leaves. -/
def afterFiring (e : Edge) (q : List Edge) : List Edge := if e.rearm then q ++ [Edge.rearmed e] else q

/-- The flags that the firing of an entry sets. -/
def firingFlags (s : State) (e : Edge) : BitVec 8 := (if s.calValid then 0 else oTAP0) ||| (if e.late then oLATE else 0)

/-- The output as the firing leaves it, before a new head is marked. -/
def firedOutput (o : Output) (e : Edge) (q : List Edge) (tap : BitVec 5) (step : BitVec 6) (now : Nat) (b : BitVec 8) : Output :=
  { Output.drive o e.level tap step now with
    queue := afterFiring e q
    ostat := (Output.drive o e.level tap step now).ostat ||| b }

theorem drive_keeps (o : Output) (l : Level) (tap : BitVec 5) (step : BitVec 6) (now : Nat) :
    (Output.drive o l tap step now).outl = l ∧ (Output.drive o l tap step now).ostat = o.ostat := by
  unfold Output.drive
  split
  · next h => exact ⟨h, rfl⟩
  · exact ⟨rfl, rfl⟩

theorem fireHead_stages {e : Edge} {q : List Edge} (hq : (s.chan n).o.queue = e :: q) : ∃ u : State,
    (∃ tap step, u.chan n = { s.chan n with o := firedOutput (s.chan n).o e q tap step s.time (s.firingFlags e) }) ∧
    (∀ m, m ≠ n → u.chan m = s.chan m) ∧ s.fireHead n = (u.markHead n).noteUnder n := by
  unfold fireHead
  split
  next h => exact absurd (hq.symm.trans h) (List.cons_ne_nil _ _)
  next e' q' h =>
    obtain ⟨rfl, rfl⟩ := List.cons.inj (hq.symm.trans h)
    refine ⟨_, ⟨if s.calValid then e.tap else 0, at_ s.afe.cal.table (if s.calValid then e.tap else 0).toFin, ?_⟩,
      fun m hm => ?_, rfl⟩
    · rw [chan_modCyc, chan_setOstat_self, chan_modOut_self]
      rfl
    · rw [chan_modCyc, chan_setOstat_ne hm, chan_modOut_ne hm]

/-- What a firing leaves of its channel (05 R174–R177, R186). -/
theorem fireHead_fires {e : Edge} {q : List Edge} (hq : (s.chan n).o.queue = e :: q) :
    let t := s.fireHead n
    (t.chan n).o.outl = e.level ∧
    (t.chan n).o.queue.map Edge.slot = (afterFiring e q).map Edge.slot ∧
    (t.chan n).o.queue.getLast?.map Edge.tgt = (afterFiring e q).getLast?.map Edge.tgt ∧
    bit (t.chan n).o.ostat 2 = (bit (s.chan n).o.ostat 2 || e.late) ∧
    bit (t.chan n).o.ostat 7 = (bit (s.chan n).o.ostat 7 || !s.calValid) ∧
    (t.chan n).c = (s.chan n).c ∧ (t.chan n).ev = (s.chan n).ev ∧ ∀ m, m ≠ n → m ≠ partner n → t.chan m = s.chan m := by
  intro t
  obtain ⟨u, ⟨tap, step, hu⟩, hothers, ht⟩ := fireHead_stages hq
  obtain ⟨r, hmark, hhead⟩ := u.chan_markHead_self n
  obtain ⟨hlevel, hostat⟩ := drive_keeps (s.chan n).o e.level tap step s.time
  have hst := (u.markHead n).steady_noteUnder n n
  have hbit (i : Nat) (hi : i ≠ 4) : bit (t.chan n).o.ostat i = (bit (s.chan n).o.ostat i || bit (s.firingFlags e) i) := by
    rw [show t = _ from ht, bit_ostat_noteUnder _ n hi, hmark, hu]
    refine (bit_or _ _ _).trans ?_
    rw [hostat]
  rw [hu] at hmark hhead
  have hqueue : (t.chan n).o.queue = r := by
    rw [show t = _ from ht]
    exact (Chan.view_of_steady hst (fun x => x.o.queue) fun _ => rfl).trans (by rw [hmark])
  have hview : r.map Edge.slot = (afterFiring e q).map Edge.slot ∧ r.map Edge.tgt = (afterFiring e q).map Edge.tgt := by
    obtain ⟨h0, rfl⟩ | ⟨f, w, late, h0, rfl⟩ := hhead
    · rw [show afterFiring e q = [] from h0]
      exact ⟨rfl, rfl⟩
    · rw [show afterFiring e q = f :: w from h0]
      exact ⟨rfl, rfl⟩
  rw [hqueue]
  refine ⟨?_, hview.1, ?_, ?_, ?_, ?_, ?_, fun m hn hp => ?_⟩
  · rw [show t = _ from ht]
    exact (Chan.view_of_steady hst (fun x => x.o.outl) fun _ => rfl).trans (by rw [hmark]; exact hlevel)
  · rw [← List.getLast?_map, ← List.getLast?_map, hview.2]
  · rw [hbit 2 (by decide), firingFlags, bit_or]
    cases s.calValid <;> cases e.late <;> rfl
  · rw [hbit 7 (by decide), firingFlags, bit_or]
    cases s.calValid <;> cases e.late <;> rfl
  · rw [show t = _ from ht]
    exact (Chan.view_of_steady hst (fun x => x.c) fun _ => rfl).trans (by rw [hmark])
  · rw [show t = _ from ht]
    exact (Chan.view_of_steady hst (fun x => x.ev) fun _ => rfl).trans (by rw [hmark])
  · rw [show t = _ from ht]
    exact (chan_noteUnder_ne hn hp).trans ((chan_markHead_ne hn).trans (hothers m hn))

/-- The entry that a firing with REARM puts at the tail. -/
theorem rearmed_keeps (e : Edge) : (Edge.rearmed e).slot = e.slot ∧
    (Edge.rearmed e).tgt = if e.kind = 2 then ((e.tgt.setWidth 32 + 0x01000000 : Word)).setWidth 48 else e.tgt := by
  unfold Edge.rearmed
  split <;> exact ⟨rfl, rfl⟩

end State

/-- Settles O25. -/
theorem edgesFire : Obligations.EdgesFire := by
  unfold Obligations.EdgesFire
  intro s n e q x hp hq fires
  have hfire {c : Instr} {f : State → State} (hc : exec c s = .next (s.whenUp s.pwr.pdUp f)) (hx : f s = s.fireHead n) : fires c := by
    obtain ⟨hlevel, hslot, hlast, hlate, htap, hcnt, hev, hrest⟩ := State.fireHead_fires hq
    obtain ⟨hrslot, hrtgt⟩ := State.rearmed_keeps e
    refine completes_to hc hp hx ⟨hlevel, hslot.trans ?_, fun hr => hlast.trans ?_, hlate, htap, hcnt, hev, hrest⟩ (s.only_fireHead n)
    · unfold State.afterFiring
      split
      · rw [List.map_append, List.map_append, List.map_singleton, List.map_singleton, hrslot]
      · rfl
    · rw [State.afterFiring, if_pos hr, List.getLast?_concat, Option.map_some, hrtgt]
  refine ⟨fun hcmp hk ht => ?time, fun hcmp hk hpos => ?angle, fun h => ?noTime, fun h => ?noAngle⟩
  case time =>
    refine hfire rfl ?_
    unfold State.edgeTimeFire
    rw [show (s.chan n).o.queue = e :: q from hq]
    exact if_pos ⟨hcmp, hk, ht⟩
  case angle =>
    refine hfire rfl ?_
    unfold State.edgeAngleFire
    rw [show (s.chan n).o.queue = e :: q from hq]
    dsimp only
    obtain ⟨pos, hd, hreach⟩ := (Option.any_eq_true _ _).1 hpos
    rw [hd]
    exact if_pos ⟨hcmp, hk, hreach⟩
  case noTime =>
    refine completes_unchanged rfl ?_
    unfold State.edgeTimeFire
    rw [show (s.chan n).o.queue = e :: q from hq]
    refine if_neg fun hc => ?_
    obtain ⟨hcmp, hk, hr⟩ := hc
    obtain h | h | h := h
    · exact h hk
    · exact absurd (h.symm.trans hr) (by decide)
    · exact absurd (h.symm.trans hcmp) (by decide)
  case noAngle =>
    refine completes_unchanged rfl ?_
    unfold State.edgeAngleFire
    rw [show (s.chan n).o.queue = e :: q from hq]
    dsimp only
    cases hd : s.domPos e.dom with
    | none => rfl
    | some pos =>
      refine if_neg fun hc => ?_
      obtain ⟨hcmp, hk, hr⟩ := hc
      rw [hd, Option.any_some] at h
      obtain h | h | h := h
      · exact h hk
      · exact absurd (h.symm.trans hr) (by decide)
      · exact absurd (h.symm.trans hcmp) (by decide)

end Sys2Proof.Machine
end

section
/-!
# The exits of an angle domain (06 R231–R234, R259, Tables 6.4, 6.5)
-/
namespace Sys2Proof.Machine

/-- A table's cell after every cell is mapped by a function that leaves the unlisted cell as it is. -/
theorem cellRead_map {α : Type} (d : α) (g : α → α) (hd : g d = d) (m : List (Nat × α)) (k : Nat) :
    cellRead d (m.map fun p => (p.1, g p.2)) k = g (cellRead d m k) := by
  induction m with
  | nil => exact hd.symm
  | cons p m ih =>
    obtain ⟨a, v⟩ := p
    show (if a = k then g v else cellRead d (m.map fun p => (p.1, g p.2)) k) = g (if a = k then v else cellRead d m k)
    rw [ih, apply_ite g]

/-- A fold that no step of which breaks a property keeps it. -/
theorem foldl_invariant {σ α : Type} {P : σ → Prop} {f : σ → α → σ} (h : ∀ s a, P s → P (f s a)) (l : List α) {s : σ} (hs : P s) :
    P (l.foldl f s) := by
  induction l generalizing s with
  | nil => exact hs
  | cons a l ih => exact ih (h s a hs)

/-- An angle entry keyed to domain d. -/
def Edge.keyedTo (d : Fin 3) (e : Edge) : Bool := e.kind == 2 && decide (e.dom.toNat = d.val)

theorem Edge.not_keyedTo {d : Fin 3} {e : Edge} (h : e.keyedTo d = false) : ¬ (e.kind = 2 ∧ e.dom.toNat = d.val) := by
  rintro ⟨hk, hd⟩
  simp [Edge.keyedTo, hk, hd] at h

namespace State
variable {s : State} {n m : Fin 64}

/-! ## Discarded entries -/

/-- No entry of channel n's queue satisfies p. -/
def QueueFree (p : Edge → Bool) (s : State) (n : Fin 64) : Prop := ∀ e ∈ (s.chan n).o.queue, p e = false

/-- The queue of a channel whose entries that satisfy p go, before an underrun is noted. -/
def discarded (s : State) (p : Edge → Bool) (n : Fin 64) : State :=
  let h := (s.chan n).o.queue.head?.any p
  let s := s.modOut n fun o => { o with queue := o.queue.filter fun e => !p e }
  if h then s.markHead n else s

/-- A new head's mark is none of what an entry is discarded by. -/
def MarkBlind (p : Edge → Bool) : Prop := ∀ e late, p { e with late := late } = p e

theorem queueFree_markHead {p : Edge → Bool} (hp : MarkBlind p) (h : QueueFree p s m) (n : Fin 64) : QueueFree p (s.markHead n) m := by
  by_cases hm : m = n
  · subst hm
    obtain ⟨q, hmark, hq⟩ := s.chan_markHead_self m
    intro e he
    rw [hmark] at he
    obtain ⟨-, rfl⟩ | ⟨f, r, late, hf, rfl⟩ := hq
    · exact absurd he List.not_mem_nil
    · obtain rfl | he := List.mem_cons.1 he
      · rw [hp]
        exact h f (hf ▸ List.mem_cons_self)
      · exact h e (hf ▸ List.mem_cons_of_mem f he)
  · intro e he
    rw [chan_markHead_ne hm] at he
    exact h e he

theorem queueFree_of_steady {p : Edge → Bool} {t : State} (h : QueueFree p s m) (hst : (t.chan m).steady = (s.chan m).steady) :
    QueueFree p t m := fun e he => h e (Chan.view_of_steady hst (fun x => x.o.queue) (fun _ => rfl) ▸ he)

theorem queueFree_discarded {p : Edge → Bool} (hp : MarkBlind p) (s : State) (n : Fin 64) : QueueFree p (s.discarded p n) n := by
  have hfilter : QueueFree p (s.modOut n fun o => { o with queue := o.queue.filter fun e => !p e }) n := by
    intro e he
    rw [chan_modOut_self] at he
    simpa using (List.mem_filter.1 he).2
  unfold discarded
  dsimp only
  split
  · exact queueFree_markHead hp hfilter n
  · exact hfilter

theorem chan_discarded_ne (h : m ≠ n) (p : Edge → Bool) : (s.discarded p n).chan m = s.chan m := by
  unfold discarded
  dsimp only
  split
  · rw [chan_markHead_ne h, chan_modOut_ne h]
  · rw [chan_modOut_ne h]

theorem discardEdges_eq (s : State) (p : Edge → Bool) : s.discardEdges p =
    foldFin 64 (fun n s => if (s.chan n).o.queue.any p then (s.discarded p n).noteUnder n else s) s := rfl

/-- After a discard no queue holds an entry that satisfies p. -/
theorem queueFree_discardEdges {p : Edge → Bool} (hp : MarkBlind p) (s : State) (n : Fin 64) : QueueFree p (s.discardEdges p) n := by
  rw [discardEdges_eq]
  refine foldFin_all (Q := fun n s => QueueFree p s n) (fun n s => ?_) (fun m n s h => ?_) s n
  · split
    · exact queueFree_of_steady (queueFree_discarded hp s n) (steady_noteUnder _ n n)
    · next h => exact fun e he => Bool.eq_false_iff.2 fun hpe => h (List.any_eq_true.2 ⟨e, he, hpe⟩)
  · split
    · refine queueFree_of_steady ?_ (steady_noteUnder _ m n)
      by_cases hnm : n = m
      · exact hnm ▸ queueFree_discarded hp s n
      · intro e he
        rw [chan_discarded_ne hnm] at he
        exact h e he
    · exact h

/-! ## A cause under an exit -/

/-- From s to t no channel leaves Clearing, and no cause of a channel changes but UNDR and PAIR. -/
structure KeepsCauses (s t : State) : Prop where
  bits : ∀ m i, i < 10 → i ≠ 7 → bit (t.chan m).o.causes i = bit (s.chan m).o.causes i
  stays : StaysClear s t

namespace KeepsCauses
variable {t u : State}

theorem refl (s : State) : KeepsCauses s s := ⟨fun _ _ _ _ => rfl, fun _ h => h⟩
theorem trans (h : KeepsCauses s t) (k : KeepsCauses t u) : KeepsCauses s u :=
  ⟨fun m i h1 h2 => (k.bits m i h1 h2).trans (h.bits m i h1 h2), h.stays.trans k.stays⟩
theorem ite {c : Prop} [Decidable c] (h : KeepsCauses s t) (k : KeepsCauses s u) : KeepsCauses s (if c then t else u) := by
  split <;> assumption
theorem foldl {α : Type} {f : State → α → State} (h : ∀ s a, KeepsCauses s (f s a)) (l : List α) (s : State) :
    KeepsCauses s (l.foldl f s) := foldl_invariant (P := KeepsCauses s) (fun t a k => k.trans (h t a)) l (refl s)
theorem foldFin {k : Nat} {f : Fin k → State → State} (h : ∀ a s, KeepsCauses s (f a s)) (s : State) :
    KeepsCauses s (foldFin k f s) := foldl (fun s a => h a s) _ s
theorem modOut (s : State) (n : Fin 64) {f : Output → Output} (hf : ∀ o, (f o).clr = o.clr ∧ (f o).inClr = o.inClr) :
    KeepsCauses s (s.modOut n f) := by
  refine ⟨fun m i _ _ => ?_, staysClear_modOut s n fun o h => (hf o).2.trans h⟩
  by_cases h : m = n
  · rw [h, chan_modOut_self]
    exact congrArg (fun c : BitVec 11 => bit (c &&& ~~~cPAIR) i) (hf _).1
  · rw [chan_modOut_ne h]
theorem of_only {ps : List Part} (h : OnlyChanges ps s t) (hp : Part.chans ∉ ps) : KeepsCauses s t :=
  ⟨fun m i _ _ => by rw [h.chan hp], fun m hm => by rwa [h.chan hp]⟩

theorem noteUnder (s : State) (n : Fin 64) : KeepsCauses s (s.noteUnder n) := by
  refine ⟨fun m i hi h7 => ?_, staysClear_noteUnder s n⟩
  by_cases h : m = n
  · subst h
    rw [causes_noteUnder_self]
    split
    · have hu : bit cUNDR i = false := (bit_oneBit (k := 11) (i := 7) (by decide) i).trans (decide_eq_false h7)
      rw [bit_or, hu, Bool.or_false]
    · rfl
  · rw [causes_noteUnder_ne h]

theorem unfire (s : State) (n : Fin 64) : KeepsCauses s (s.unfire n) := by
  unfold State.unfire
  split
  · exact refl s
  · exact modOut s n fun _ => ⟨rfl, rfl⟩

theorem markHead (s : State) (n : Fin 64) : KeepsCauses s (s.markHead n) := by
  have hsame : ∀ m, ((s.markHead n).chan m).o.causes = (s.chan m).o.causes ∧ ((s.markHead n).chan m).o.inClr = (s.chan m).o.inClr := by
    intro m
    by_cases h : m = n
    · subst h
      obtain ⟨q, hq, -⟩ := s.chan_markHead_self m
      rw [hq]
      exact ⟨rfl, rfl⟩
    · rw [chan_markHead_ne h]
      exact ⟨rfl, rfl⟩
  exact ⟨fun m i _ _ => by rw [(hsame m).1], fun m hm => (hsame m).2.trans hm⟩

theorem discarded (s : State) (p : Edge → Bool) (n : Fin 64) : KeepsCauses s (s.discarded p n) := by
  unfold State.discarded
  extract_lets h t
  have ht : KeepsCauses s t := modOut s n (f := fun o => { o with queue := o.queue.filter fun e => !p e }) fun _ => ⟨rfl, rfl⟩
  exact ite (ht.trans (markHead t n)) ht

theorem discardEdges (s : State) (p : Edge → Bool) : KeepsCauses s (s.discardEdges p) := by
  rw [discardEdges_eq]
  exact foldFin (fun n s => ite ((discarded s p n).trans (noteUnder _ n)) (refl s)) s

/-- An exit from a domain's synchronisation leaves every cause but UNDR and PAIR as it was. -/
theorem endAngles (s : State) (d : Fin 3) (before : AngleDom) (why : SweepWhy) : KeepsCauses s (s.endAngles d before why) := by
  unfold State.endAngles
  extract_lets u v
  have hu : KeepsCauses s u := of_only (State.only_modCyc s _ []) (by decide)
  have hv : KeepsCauses u v := foldl (fun t _ => ite (unfire t _) (refl t)) _ u
  have hsweep : KeepsCauses (v.dropAngleEdges d) ((v.dropAngleEdges d).startSweep d why) := of_only (only_startSweep _ d why) (by decide)
  exact ((hu.trans hv).trans (discardEdges v _)).trans hsweep

end KeepsCauses
end State
end Sys2Proof.Machine
end

section
/-!
# LOSE, DROP and a closing window (06 R231–R234, R259)
-/
namespace Sys2Proof.Machine
namespace State
variable {s : State}

theorem cal_raiseAd (s : State) (d : Fin 3) (b : BitVec 16) : (s.raiseAd d b).tt.cal = s.tt.cal := by
  unfold raiseAd
  dsimp only
  split <;> rfl

/-- An entry of the calendar as a sweep of domain d dooms it. -/
def swept (d : Fin 3) (e : CalEntry) : CalEntry := if e.st ≠ .free ∧ e.keysel.toNat = d.val + 1 then { e with doomed := true } else e

theorem startSweep_tt (s : State) (d : Fin 3) (why : SweepWhy) : at_ (s.startSweep d why).tt.sweeps d = some why ∧
    ∀ h, (s.startSweep d why).calEntry h = swept d (s.calEntry h) := by
  have hcal : (s.startSweep d why).tt.cal = s.tt.cal.map fun p => (p.1, swept d p.2) :=
    List.map_congr_left fun p _ => by
      unfold swept
      split <;> rfl
  refine ⟨Vector.getElem_set_self _, fun h => ?_⟩
  unfold calEntry
  rw [hcal, cellRead_map _ _ rfl]

theorem endAngles_stages (s : State) (d : Fin 3) (before : AngleDom) (why : SweepWhy) : ∃ w, OnlyChanges [.chans] s w ∧
    s.endAngles d before why = (w.dropAngleEdges d).startSweep d why := by
  unfold endAngles
  extract_lets v w
  have hw : OnlyChanges [.chans] s w := (only_modCyc s _ _).both (.foldl (fun t _ => .ite (only_unfire t _) (.refl _ _)) _ _)
  exact ⟨w, hw, rfl⟩

/-- What every exit from a domain's synchronisation leaves (06 Table 6.5 steps 1, 2). -/
structure ExitLeaves (s t : State) (d : Fin 3) (a : AngleDom) (why : SweepWhy) : Prop where
  domain : t.ad d = a
  others : ∀ e, e ≠ d → t.ad e = s.ad e
  edges : ∀ n, ∀ e ∈ (t.chan n).o.queue, ¬ (e.kind = 2 ∧ e.dom.toNat = d.val)
  causes : ∀ n, bit (t.chan n).o.clr 3 = bit (s.chan n).o.clr 3
  sweep : at_ t.tt.sweeps d = some why
  doomed : ∀ h, (s.calEntry h).st ≠ .free → (s.calEntry h).keysel.toNat = d.val + 1 → (t.calEntry h).doomed = true

theorem exit_leaves (s : State) (d : Fin 3) (f : AngleDom → AngleDom) (b : BitVec 16) (before : AngleDom) (why : SweepWhy) :
    ExitLeaves s (((s.modAd d f).raiseAd d b).endAngles d before why) d { f (s.ad d) with ev := ((f (s.ad d)).ev.set b).1 } why := by
  have had := s.ad_exit d f b before why
  have hraise : OnlyChanges [.ads, .tt] s ((s.modAd d f).raiseAd d b) := ((only_modAd s d f).trans (only_raiseAd _ d b)).mono (by decide)
  have hcal : ((s.modAd d f).raiseAd d b).tt.cal = s.tt.cal := cal_raiseAd _ d b
  generalize (s.modAd d f).raiseAd d b = u at had hraise hcal ⊢
  have hcauses : KeepsCauses s (u.endAngles d before why) := (KeepsCauses.of_only hraise (by decide)).trans (.endAngles u d before why)
  obtain ⟨w, hw, heq⟩ := u.endAngles_stages d before why
  rw [heq] at had hcauses ⊢
  have hv : OnlyChanges [.chans] u (w.dropAngleEdges d) := hw.both (only_discardEdges w _)
  obtain ⟨hsweep, hentry⟩ := (w.dropAngleEdges d).startSweep_tt d why
  refine ⟨(had d).trans (if_pos rfl), fun e he => (had e).trans (if_neg (Ne.symm he)), fun n e he => ?_, fun n => ?_, hsweep,
    fun h hst hkey => ?_⟩
  · rw [show ((w.dropAngleEdges d).startSweep d why).chan n = (w.dropAngleEdges d).chan n from chan_modTt _ _ n] at he
    have hfree : QueueFree (Edge.keyedTo d) (w.dropAngleEdges d) n := queueFree_discardEdges (fun _ _ => rfl) w n
    exact Edge.not_keyedTo (hfree e he)
  · rw [← Output.bit_causes _ (by decide), ← Output.bit_causes (s.chan n).o (by decide)]
    exact hcauses.bits n 3 (by decide) (by decide)
  · have htt : (w.dropAngleEdges d).tt = u.tt := hv .tt (by decide)
    have hsame : (w.dropAngleEdges d).calEntry h = s.calEntry h := by
      unfold calEntry
      rw [htt, hcal]
    rw [hentry, hsame, swept, if_pos ⟨hst, hkey⟩]

/-! ## The two exits -/

variable {d : Fin 3}

theorem exitReason_first (h : s.exitedNow d = false) (r : Nat) : s.exitReason d r = .ofNat 4 r := by
  unfold exitReason
  rw [h]
  rfl

/-- A LOCKED domain as it is LOST. -/
def lostDomain (s : State) (a : AngleDom) (r : Nat) : AngleDom :=
  { a with st := .lost, reason := .ofNat 4 r, losts := satInc a.losts, k := { a.search.k with exitAt := some s.tb, syncDue := true } }

/-- A LOCKED domain as it is dropped. -/
def droppedDomain (s : State) (a : AngleDom) (r : Nat) : AngleDom :=
  { a with st := .search, reason := .ofNat 4 r, k := { a.search.k with exitAt := some s.tb } }

theorem loseDomain_leaves (hl : (s.ad d).st = .locked) (hx : s.exitedNow d = false) (r : Nat) :
    ExitLeaves s (s.loseDomain d r) d
      { s.lostDomain (s.ad d) r with ev := ((s.ad d).ev.set aLOST).1 } .lost := by
  have heq : s.loseDomain d r = ((s.modAd d fun a => s.lostDomain a r).raiseAd d aLOST).endAngles d (s.ad d) .lost := by
    unfold loseDomain
    rw [if_neg (by rw [hl]; decide), if_neg (by rw [hl]; decide), exitReason_first hx]
    rfl
  rw [heq]
  exact s.exit_leaves d _ _ _ _

theorem dropDomain_leaves (hl : (s.ad d).st = .locked) (hx : s.exitedNow d = false) (r : Nat) :
    ExitLeaves s (s.dropDomain d r) d
      { s.droppedDomain (s.ad d) r with ev := ((s.ad d).ev.set aDROP).1 } .drop := by
  have heq : s.dropDomain d r = ((s.modAd d fun a => s.droppedDomain a r).raiseAd d aDROP).endAngles d (s.ad d) .drop := by
    unfold dropDomain
    rw [if_pos hl, exitReason_first hx]
    rfl
  rw [heq]
  exact s.exit_leaves d _ _ _ _

theorem only_dropDomain (s : State) (d : Fin 3) (r : Nat) : OnlyChanges [.chans, .ads, .tt] s (s.dropDomain d r) := by
  have hmod : ∀ f, OnlyChanges [.chans, .ads, .tt] s (s.modAd d f) := fun f => (only_modAd s d f).widen (by decide)
  exact .ite (((hmod _).also (only_raiseAd _ d _) (by decide)).also (only_endAngles _ d _ _) (by decide)) (.ite (hmod _) (.refl _ _))

theorem bit_flag_set (ev : EventRegs) {k i : Nat} (b : BitVec 16) (hi : k < 16) (hb : b = oneBit 16 k) (h : i = k) :
    bit (ev.set b).1.flag i = true := by
  subst hb h
  show bit (ev.flag ||| oneBit 16 i) i = true
  rw [bit_or, bit_oneBit hi, decide_eq_true rfl, Bool.or_true]

/-! ## SYNC in the next core cycle -/

/-- The SYNC that an exit of domain d left due (06 Table 6.5 step 3). -/
def syncStep (s : State) (d : Fin 3) : State :=
  if (s.ad d).k.syncDue then
    foldFin 64 (fun n s => if (s.chan n).o.domain = d.val + 1 then s.setCause n cSYNC else s)
      (s.modAd d fun a => { a with k := { a.k with syncDue := false } })
  else s

theorem angleCycle_eq (s : State) : s.angleCycle = foldFin 3 (fun d s => s.governorCut d)
    (foldFin 2 (fun i s => s.checkerTrip i) (foldFin 3 (fun d s => s.beginDomain d) (foldFin 3 (fun d s => s.syncStep d) s))) := rfl

/-- Channel n is in Clearing for SYNC. -/
def SyncClears (s : State) (n : Fin 64) : Prop := bit (s.chan n).o.clr 3 = true ∧ (s.chan n).o.inClr = true

theorem SyncClears.of_keeps {t : State} {n : Fin 64} (h : s.SyncClears n) (k : KeepsCauses s t) : t.SyncClears n := by
  refine ⟨?_, k.stays n h.2⟩
  rw [← Output.bit_causes _ (by decide), k.bits n 3 (by decide) (by decide), Output.bit_causes _ (by decide)]
  exact h.1

theorem syncClears_setCause_self (s : State) (n : Fin 64) : (s.setCause n cSYNC).SyncClears n := by
  refine ⟨?_, inClr_setCause s n _⟩
  rw [← Output.bit_causes _ (by decide), causes_setCause_self s n (by decide), bit_or]
  exact Bool.or_true _

theorem SyncClears.setSync {n : Fin 64} (h : s.SyncClears n) (m : Fin 64) : (s.setCause m cSYNC).SyncClears n := by
  by_cases hn : n = m
  · exact hn ▸ syncClears_setCause_self s m
  · refine ⟨?_, staysClear_setCause s m _ n h.2⟩
    rw [← Output.bit_causes _ (by decide), causes_setCause_ne hn, Output.bit_causes _ (by decide)]
    exact h.1

theorem keepsCauses_raiseAd (s : State) (d : Fin 3) (b : BitVec 16) : KeepsCauses s (s.raiseAd d b) :=
  .of_only (only_raiseAd s d b) (by decide)

theorem keepsCauses_modAd (s : State) (d : Fin 3) (f : AngleDom → AngleDom) : KeepsCauses s (s.modAd d f) :=
  .of_only (only_modAd s d f) (by decide)

theorem keepsCauses_loseDomain (s : State) (d : Fin 3) (r : Nat) : KeepsCauses s (s.loseDomain d r) :=
  .ite (.refl s) (.ite (.ite (keepsCauses_modAd s d _) (.refl s))
    (((keepsCauses_modAd s d _).trans (keepsCauses_raiseAd _ d _)).trans (.endAngles _ d _ _)))

theorem keepsCauses_beginDomain (s : State) (d : Fin 3) : KeepsCauses s (s.beginDomain d) :=
  .ite (.ite ((keepsCauses_modAd s d _).trans (keepsCauses_loseDomain _ d _)) (keepsCauses_modAd s d _)) (.refl s)

theorem keepsCauses_checkerTrip (s : State) (i : Fin 2) : KeepsCauses s (s.checkerTrip i) := by
  unfold checkerTrip
  dsimp only
  refine .ite ?_ (.refl s)
  have htrip := ((only_modPl s i fun p => { p with tripDue := false, trip := true, trips := satInc p.trips })
    |>.widen (ps := [.pls, .pm]) (by decide)).both (only_hwSet _ (0x4610 + 0x20 * i.val) 1 _)
  have hpm := htrip.also (only_modPm _ fun x => { x with sec := { x.sec with plaus := x.sec.plaus + 1 } }) (by decide)
  have hu := KeepsCauses.of_only hpm (by decide)
  split
  · exact .ite (hu.trans ((keepsCauses_raiseAd _ _ _).trans (keepsCauses_loseDomain _ _ _))) (hu.trans (keepsCauses_raiseAd _ _ _))
  · exact hu

theorem keepsCauses_governorCut (s : State) (d : Fin 3) : KeepsCauses s (s.governorCut d) := by
  unfold governorCut
  refine .ite ?_ (.refl s)
  dsimp only
  split
  · exact (keepsCauses_modAd s d _).trans (.ite ((keepsCauses_loseDomain _ _ _).trans (keepsCauses_modAd _ d _))
      (keepsCauses_loseDomain _ _ _))
  · exact keepsCauses_modAd s d _

theorem SyncClears.syncStep {n : Fin 64} (h : s.SyncClears n) (e : Fin 3) : (s.syncStep e).SyncClears n := by
  unfold State.syncStep
  split
  · exact foldl_invariant (P := fun t => SyncClears t n) (fun t m ht => by
      dsimp only
      split
      · exact ht.setSync m
      · exact ht) _
      (h.of_keeps (keepsCauses_modAd s e _))
  · exact h

/-- The angle step sets SYNC on every channel bound to a domain whose exit left it due. -/
theorem syncStep_sets {n : Fin 64} (hdue : (s.ad d).k.syncDue = true) (hn : (s.chan n).o.domain = d.val + 1) :
    (s.syncStep d).SyncClears n := by
  unfold syncStep
  rw [if_pos hdue]
  have hcfg : ∀ (l : List (Fin 64)) (t : State), (t.chan n).steady = (s.chan n).steady → n ∈ l →
      (l.foldl (fun s m => if (s.chan m).o.domain = d.val + 1 then s.setCause m cSYNC else s) t).SyncClears n := by
    intro l
    induction l with
    | nil => exact fun t _ h => absurd h List.not_mem_nil
    | cons m l ih =>
      intro t ht hmem
      have hdom : (t.chan n).o.domain = d.val + 1 := (Chan.view_of_steady ht (fun x => x.o.domain) fun _ => rfl).trans hn
      rw [List.foldl_cons]
      obtain rfl | hmem := List.mem_cons.1 hmem
      · rw [if_pos hdom]
        refine foldl_invariant (P := fun t => SyncClears t n) (fun t m ht => ?_) l (syncClears_setCause_self t n)
        split
        · exact ht.setSync m
        · exact ht
      · refine ih _ ?_ hmem
        split
        · exact (steady_setCause t m n _).trans ht
        · exact ht
  exact hcfg _ _ rfl (List.mem_finRange n)

/-- The step of another domain leaves what is due of domain d, and the configuration of every channel. -/
theorem syncStep_keeps {e : Fin 3} (h : e ≠ d) (n : Fin 64) : ((s.syncStep e).ad d).k.syncDue = (s.ad d).k.syncDue ∧
    ((s.syncStep e).chan n).steady = (s.chan n).steady := by
  unfold syncStep
  split
  · have honly : OnlyChanges [.chans] (s.modAd e fun a => { a with k := { a.k with syncDue := false } })
        (foldFin 64 (fun n s => if (s.chan n).o.domain = e.val + 1 then s.setCause n cSYNC else s)
          (s.modAd e fun a => { a with k := { a.k with syncDue := false } })) :=
      .foldFin (fun n t => .ite (only_setCause t n _) (.refl _ _)) _
    refine ⟨by rw [honly.ad (by decide), ad_modAd, if_neg h], ?_⟩
    refine (foldl_keeps (p := fun t : State => (t.chan n).steady) (List.finRange 64) (fun t m _ => ?_) _).trans rfl
    dsimp only
    split
    · exact steady_setCause t m n _
    · rfl
  · exact ⟨rfl, rfl⟩

theorem syncSteps_clear {n : Fin 64} (hdue : (s.ad d).k.syncDue = true) (hn : (s.chan n).o.domain = d.val + 1) :
    (foldFin 3 (fun e s => s.syncStep e) s).SyncClears n := by
  have hall : ∀ (l : List (Fin 3)) (t : State), (t.ad d).k.syncDue = true → (t.chan n).o.domain = d.val + 1 → d ∈ l →
      (l.foldl (fun t e => t.syncStep e) t).SyncClears n := by
    intro l
    induction l with
    | nil => exact fun t _ _ h => absurd h List.not_mem_nil
    | cons e l ih =>
      intro t ht hdom hmem
      rw [List.foldl_cons]
      by_cases he : e = d
      · subst he
        exact foldl_invariant (P := fun t => SyncClears t n) (fun t f h => h.syncStep f) l (syncStep_sets ht hdom)
      · obtain ⟨hk, hst⟩ := syncStep_keeps (s := t) he n
        exact ih _ (hk.trans ht) ((Chan.view_of_steady hst (fun x => x.o.domain) fun _ => rfl).trans hdom)
          ((List.mem_cons.1 hmem).resolve_left (Ne.symm he))
  exact hall _ s hdue hn (List.mem_finRange d)

/-- SYNC is set one core cycle after an exit (06 Table 6.5 step 3). -/
theorem angleCycle_sync {n : Fin 64} (hdue : (s.ad d).k.syncDue = true) (hn : (s.chan n).o.domain = d.val + 1) :
    s.angleCycle.SyncClears n := by
  rw [angleCycle_eq]
  exact (((syncSteps_clear hdue hn).of_keeps (.foldFin (fun e t => keepsCauses_beginDomain t e) _)).of_keeps
    (.foldFin (fun i t => keepsCauses_checkerTrip t i) _)).of_keeps (.foldFin (fun e t => keepsCauses_governorCut t e) _)

end State
end Sys2Proof.Machine
end

section
/-!
# The exits of a LOCKED domain, as commands and windows make them (06 R228–R234, R259)
-/
namespace Sys2Proof.Machine
namespace State
variable {s : State} {d : Fin 3}

theorem adLose_locked (h : (s.ad d).st = .locked) : s.adLose d = s.loseDomain d 9 := if_pos (.inl h)

theorem adLose_other (h : (s.ad d).st ≠ .locked) (hx : s.exitedNow d = false) : s.adLose d = s :=
  if_neg fun hc => hc.elim h fun hc => absurd (hx.symm.trans hc.2) (by decide)

theorem dropDomain_other (h : (s.ad d).st ≠ .locked) (hx : s.exitedNow d = false) (r : Nat) : s.dropDomain d r = s := by
  unfold dropDomain
  rw [if_neg h]
  exact if_neg fun hc => absurd (hx.symm.trans hc.2) (by decide)

theorem judged_first (h : ∀ p ∈ s.cyc.exits, p.1 ≠ d) : s.judged d = s.ad d := by
  unfold judged
  rw [List.find?_eq_none.2 fun p hp => by simpa using h p hp]
  rfl

/-! ## A window that closes -/

variable (hfirst : ∀ p ∈ s.cyc.exits, p.1 ≠ d)
include hfirst

theorem windowClose_open (h : (s.ad d).windowOver s.tb = false) : s.windowClose d = s := by
  unfold windowClose
  rw [judged_first hfirst]
  exact if_neg (by rw [h]; decide)

theorem windowClose_locked (h : (s.ad d).windowOver s.tb = true) (hl : (s.ad d).st = .locked) :
    s.windowClose d = s.exitDomain d (s.ad d).closeReason.1 (s.ad d).closeReason.2 := by
  unfold windowClose
  rw [judged_first hfirst]
  exact (if_pos h).trans (if_pos hl)

theorem windowClose_candidate (h : (s.ad d).windowOver s.tb = true) (hc : (s.ad d).st = .candidate) (hx : s.exitedNow d = false) :
    s.windowClose d = s.modAd d AngleDom.search := by
  unfold windowClose
  rw [judged_first hfirst]
  refine (if_pos h).trans ((if_neg (by rw [hc]; decide)).trans (if_neg ?_))
  rw [hx]
  decide

end State

/-- The reference gap, with no gap edge, or with one in the second window (06 R232). -/
def AngleDom.inGap (a : AngleDom) : Prop := a.scheme = 0 ∧ a.pitch + 1 = a.pitches ∧ (a.k.gap = none ∨ a.k.gapHeld = true)

theorem AngleDom.closeReason_gap {a : AngleDom} (h : a.inGap) : a.closeReason = (3, true) := by
  obtain ⟨hs, hp, hg⟩ := h
  refine if_pos ?_
  obtain hg | hg := hg <;> simp [hs, hp, hg]

theorem AngleDom.closeReason_other {a : AngleDom} (h : ¬ a.inGap) :
    a.closeReason = if a.slow.toNat * 256 ≤ a.pred.toNat * (256 + a.whi) then (8, false) else (2, true) := by
  refine if_neg fun hc => h ?_
  simp only [Bool.and_eq_true, Bool.or_eq_true, decide_eq_true_eq, Option.isNone_iff_eq_none] at hc
  exact ⟨hc.1.1, hc.1.2, hc.2⟩

/-- Settles O29: every exit is one of two, each with its frame of edges, causes and sweep. -/
theorem domainExits : Obligations.DomainExits := by
  unfold Obligations.DomainExits
  intro s d a left lost dropped inGap
  have hlost (hl : a.st = .locked) (hx : s.exitedNow d = false) (r : Nat) : lost r (s.loseDomain d r) := by
    have h := State.loseDomain_leaves hl hx r
    have hd := h.domain
    refine ⟨congrArg (·.st) hd, congrArg (·.losts) hd, ?_, h.sweep, congrArg (·.k.syncDue) hd, congrArg (·.reason) hd, h.edges, h.causes,
      h.doomed, h.others⟩
    rw [hd]
    exact State.bit_flag_set _ aLOST (by decide) (k := 1) rfl rfl
  have hdropped (hl : a.st = .locked) (hx : s.exitedNow d = false) (r : Nat) : dropped r (s.dropDomain d r) := by
    have h := State.dropDomain_leaves hl hx r
    have hd := h.domain
    refine ⟨congrArg (·.st) hd, congrArg (·.losts) hd, ?_, h.sweep, congrArg (·.k.syncDue) hd, congrArg (·.reason) hd, h.edges, h.causes,
      h.doomed, h.others⟩
    rw [hd]
    exact State.bit_flag_set _ aDROP (by decide) (k := 2) rfl rfl
  refine ⟨fun hp => ⟨completes_held rfl hp, completes_held rfl hp, completes_held rfl hp⟩, fun hdue n hn => State.angleCycle_sync hdue hn,
    fun hp hx hfirst => ⟨fun hl => ⟨?lose, ?drop⟩, fun hl => ⟨?noLose, ?noDrop⟩, fun hl hw hgap => ⟨fun hlate => ?late, fun hslow => ?slow⟩,
      fun hl hw hgap => ?gap, fun hc hw => ?candidate, fun hw => ?open_⟩⟩
  case lose => exact completes_to (f := fun s => s.adLose d) rfl hp (State.adLose_locked hl) (hlost hl hx 9) (State.only_loseDomain s d 9)
  case drop => exact completes_up (f := fun s => s.adDrop d) rfl hp (hdropped hl hx 9) (s.only_dropDomain d 9)
  case noLose => exact completes_unchanged rfl (State.adLose_other hl hx)
  case noDrop => exact completes_unchanged (f := fun s => s.adDrop d) rfl (State.dropDomain_other hl hx 9)
  case late =>
    have hr : a.closeReason = (2, true) := (AngleDom.closeReason_other hgap).trans (if_neg (by omega))
    have hclose := State.windowClose_locked hfirst hw hl
    rw [hr] at hclose
    exact completes_to (f := fun s => s.windowClose d) rfl hp hclose (hlost hl hx 2) (State.only_loseDomain s d 2)
  case slow =>
    have hr : a.closeReason = (8, false) := (AngleDom.closeReason_other hgap).trans (if_pos hslow)
    have hclose := State.windowClose_locked hfirst hw hl
    rw [hr] at hclose
    exact completes_to (f := fun s => s.windowClose d) rfl hp hclose (hdropped hl hx 8) (s.only_dropDomain d 8)
  case gap =>
    have hclose := State.windowClose_locked hfirst hw hl
    rw [AngleDom.closeReason_gap hgap] at hclose
    exact completes_to (f := fun s => s.windowClose d) rfl hp hclose (hlost hl hx 3) (State.only_loseDomain s d 3)
  case candidate =>
    refine completes_to (f := fun s => s.windowClose d) rfl hp (State.windowClose_candidate hfirst hw hc hx) ⟨?_, fun e he => ?_⟩
      (State.only_modAd s d _)
    · rw [State.ad_modAd_self]
      rfl
    · rw [State.ad_modAd, if_neg (Ne.symm he)]
  case open_ => exact completes_unchanged rfl (State.windowClose_open hfirst hw)

end Sys2Proof.Machine
end

section
/-!
# What no operation on a domain's synchronisation touches, and the enabling of a domain (06 R218, R252, R260, R262)
-/
namespace Sys2Proof.Machine

/-! ## The configuration and the Hall code of a domain -/

/-- What of a domain only its own writes, its start and its edges change: the configuration and the Hall sensors' state. -/
def AngleDom.hallView (a : AngleDom) : BitVec 12 × BitVec 18 × Fin 6 × BitVec 3 × Bool × Bool :=
  (a.ctl, a.hall, a.sector, a.k.levels, a.k.sectorKnown, a.k.begins)

theorem AngleDom.scheme_of_hallView {a b : AngleDom} (h : a.hallView = b.hallView) : a.scheme = b.scheme :=
  congrArg (fun v : BitVec 12 × BitVec 18 × Fin 6 × BitVec 3 × Bool × Bool => fld v.1 3 2) h
theorem AngleDom.sectorOf_of_hallView {a b : AngleDom} (h : a.hallView = b.hallView) (c : Nat) : a.sectorOf c = b.sectorOf c :=
  congrArg (fun v : BitVec 12 × BitVec 18 × Fin 6 × BitVec 3 × Bool × Bool =>
    (List.finRange 6).find? fun i : Fin 6 => decide (fld v.2.1 (3 * i.val + 2) (3 * i.val) = c)) h
theorem AngleDom.sector_of_hallView {a b : AngleDom} (h : a.hallView = b.hallView) : a.sector = b.sector :=
  congrArg (·.2.2.1) h
theorem AngleDom.levels_of_hallView {a b : AngleDom} (h : a.hallView = b.hallView) : a.k.levels = b.k.levels :=
  congrArg (·.2.2.2.1) h
theorem AngleDom.sectorKnown_of_hallView {a b : AngleDom} (h : a.hallView = b.hallView) : a.k.sectorKnown = b.k.sectorKnown :=
  congrArg (·.2.2.2.2.1) h
theorem AngleDom.begins_of_hallView {a b : AngleDom} (h : a.hallView = b.hallView) : a.k.begins = b.k.begins :=
  congrArg (·.2.2.2.2.2) h

/-- Every domain keeps its configuration and Hall state, and every flag it has set. -/
def State.KeepsHall (s t : State) : Prop :=
  ∀ e, (t.ad e).hallView = (s.ad e).hallView ∧ ∀ i, bit (s.ad e).ev.flag i = true → bit (t.ad e).ev.flag i = true

namespace State
variable (s : State)

namespace KeepsHall
variable {s} {t u : State}

theorem refl (s : State) : KeepsHall s s := fun _ => ⟨rfl, fun _ h => h⟩
theorem trans (h : KeepsHall s t) (k : KeepsHall t u) : KeepsHall s u := fun e =>
  ⟨(k e).1.trans (h e).1, fun i hi => (k e).2 i ((h e).2 i hi)⟩
theorem ite {c : Prop} [Decidable c] (h : KeepsHall s t) (k : KeepsHall s u) : KeepsHall s (if c then t else u) := by
  split <;> assumption
theorem foldFin {k : Nat} {f : Fin k → State → State} (h : ∀ a s, KeepsHall s (f a s)) (s : State) :
    KeepsHall s (foldFin k f s) := foldl_invariant (P := KeepsHall s) (fun t a k => k.trans (h a t)) _ (refl s)
theorem of_only {ps : List Part} (h : OnlyChanges ps s t) (hp : Part.ads ∉ ps) : KeepsHall s t := fun e => by
  rw [h.ad hp]; exact ⟨rfl, fun _ h => h⟩

theorem modAd (s : State) (d : Fin 3) {f : AngleDom → AngleDom} (hv : (f (s.ad d)).hallView = (s.ad d).hallView)
    (hf : (f (s.ad d)).ev = (s.ad d).ev) : KeepsHall s (s.modAd d f) := fun e => by
  rw [ad_modAd]
  split
  · next h => subst h; exact ⟨hv, fun i hi => by rwa [hf]⟩
  · exact ⟨rfl, fun _ h => h⟩

theorem raiseAd (s : State) (d : Fin 3) (b : BitVec 16) : KeepsHall s (s.raiseAd d b) := fun e => by
  rw [ad_raiseAd]
  split
  · next h =>
      subst h
      exact ⟨rfl, fun i hi => (bit_or (s.ad d).ev.flag b i).trans (by rw [hi, Bool.true_or])⟩
  · exact ⟨rfl, fun _ h => h⟩

theorem search (s : State) (d : Fin 3) : KeepsHall s (s.modAd d AngleDom.search) := modAd s d rfl rfl

theorem unfire (s : State) (n : Fin 64) : KeepsHall s (s.unfire n) := .of_only (only_unfire s n) (by decide)

theorem endAngles (s : State) (d : Fin 3) (before : AngleDom) (why : SweepWhy) : KeepsHall s (s.endAngles d before why) :=
  .of_only (only_endAngles s d before why) (by decide)

theorem loseDomain (s : State) (d : Fin 3) (r : Nat) : KeepsHall s (s.loseDomain d r) :=
  .ite (.refl s) (.ite (.ite (modAd s d rfl rfl) (.refl s))
    (((modAd s d rfl rfl).trans (raiseAd _ d _)).trans (endAngles _ d _ _)))

theorem dropDomain (s : State) (d : Fin 3) (r : Nat) : KeepsHall s (s.dropDomain d r) :=
  .ite (((modAd s d rfl rfl).trans (raiseAd _ d _)).trans (endAngles _ d _ _)) (.ite (modAd s d rfl rfl) (.refl s))

theorem exitDomain (s : State) (d : Fin 3) (r : Nat) (lost : Bool) : KeepsHall s (s.exitDomain d r lost) :=
  .ite (loseDomain s d r) (dropDomain s d r)

theorem windowClose (s : State) (d : Fin 3) : KeepsHall s (s.windowClose d) :=
  .ite (.ite (exitDomain s d _ _) (.ite (.refl s) (search s d))) (.refl s)

end KeepsHall

/-! ## Enabling a domain -/

variable {s} {d : Fin 3} {w v : Word}

/-- An enabling write carries EN. -/
theorem bit_enabling (w : Word) : bit ((w ||| 1).setWidth 12 &&& 0xFFD : BitVec 12) 0 = true := by
  simp [bit]

theorem writeAdCtl_locked (h : s.boot.locked = true) : s.writeAdCtl d w = s := if_pos h

theorem writeAdCtl_other (hl : s.boot.locked = false) (hen : (s.ad d).en = true)
    (hv : (w.setWidth 12 &&& 0xFFD : BitVec 12) ||| 1 ≠ (s.ad d).ctl ||| 1) : s.writeAdCtl d w = s.raiseAd d aWWR :=
  (if_neg (by simp [hl])).trans ((if_pos hen).trans (if_pos hv))

theorem writeAdCtl_same (hl : s.boot.locked = false) (hen : (s.ad d).en = true)
    (hv : (w.setWidth 12 &&& 0xFFD : BitVec 12) ||| 1 = (s.ad d).ctl ||| 1)
    (h0 : bit (w.setWidth 12 &&& 0xFFD : BitVec 12) 0 = true) : s.writeAdCtl d w = s :=
  (if_neg (by simp [hl])).trans ((if_pos hen).trans ((if_neg (not_not.2 hv)).trans (if_pos h0)))

theorem writeAdCtl_bad (hl : s.boot.locked = false) (hen : (s.ad d).en = false)
    (h0 : bit (w.setWidth 12 &&& 0xFFD : BitVec 12) 0 = true)
    (hbad : ({ s.ad d with ctl := w.setWidth 12 &&& 0xFFD } : AngleDom).badConfig = true) :
    s.writeAdCtl d w =
      s.modAd d fun _ => { s.ad d with ctl := (w.setWidth 12 &&& 0xFFD) &&& 0xFFE, cfgErr := true } :=
  (if_neg (by simp [hl])).trans ((if_neg (by simp [hen])).trans ((if_neg (by rw [h0]; decide)).trans (if_pos hbad)))

theorem writeAdCtl_begins (hl : s.boot.locked = false) (hen : (s.ad d).en = false)
    (h0 : bit (w.setWidth 12 &&& 0xFFD : BitVec 12) 0 = true)
    (hok : ({ s.ad d with ctl := w.setWidth 12 &&& 0xFFD } : AngleDom).badConfig = false) :
    s.writeAdCtl d w =
      s.modAd d fun _ => { s.ad d with ctl := w.setWidth 12 &&& 0xFFD, cfgErr := false,
                                       k := { (s.ad d).k with begins := true } } :=
  (if_neg (by simp [hl])).trans ((if_neg (by simp [hen])).trans ((if_neg (by rw [h0]; decide)).trans (if_neg (Bool.eq_false_iff.1 hok))))

/-- A write of one domain's registers leaves the other domains as they were. -/
theorem ad_modAd_ne (f : AngleDom → AngleDom) {e : Fin 3} (h : e ≠ d) : (s.modAd d f).ad e = s.ad e :=
  (ad_modAd s d e f).trans (if_neg h.symm)

/-- The start of a domain: SEARCH, or LOST when the domain is held. -/
theorem beginDomain_starts (hb : (s.ad d).k.begins = true) : ((s.beginDomain d).ad d).k.begins = false ∧
    ((s.beginDomain d).ad d).st = (if s.held d then .lost else .search) := by
  unfold beginDomain
  rw [if_pos hb]
  extract_lets a lv sec t
  have hself : t.ad d = { (s.ad d).search with
      sector := sec.getD (s.ad d).sector, pitch := (sec.getD 0).val,
      k := { (s.ad d).search.k with levels := lv, sectorKnown := sec.isSome, begins := false, rawTau := none } } :=
    ad_modAd_self s d _
  have hheld : t.held d = s.held d := by
    refine held_of_holdInputs (s := s) (t := t) (Prod.ext rfl (funext fun e => ?_)) d
    by_cases he : e = d
    · subst he; exact (congrArg AngleDom.holdTerms hself).trans rfl
    · exact congrArg AngleDom.holdTerms (ad_modAd_ne _ he)
  by_cases hh : s.held d = true
  · rw [if_pos (hheld.trans hh), if_pos hh]
    obtain ⟨a, -, hst, had⟩ := ad_loseDomain t d (t.holdReason d)
    refine ⟨(AngleDom.begins_of_hallView (KeepsHall.loseDomain t d _ d).1).trans (congrArg (·.k.begins) hself), ?_⟩
    rw [had d, if_pos rfl]
    exact hst (by rw [hself]; exact fun h => nomatch h)
  · rw [if_neg (hheld ▸ hh), if_neg hh, hself]
    exact ⟨rfl, rfl⟩

end State
open State

/-- Settles O31: an enabling write by the branches of AD_CTL's rule; the start of the domain by `beginDomain_starts`. -/
theorem domainEnable : Obligations.DomainEnable := by
  unfold Obligations.DomainEnable
  intro s d w a v
  have h0 : bit v 0 = true := bit_enabling w
  have hv1 : v ||| 1 = v := by
    refine BitVec.eq_of_getLsbD_eq fun i hi => ?_
    by_cases hz : i = 0
    · subst hz; simpa [bit] using h0
    · simp [hz]
  have hc : exec (.adCtlEnable d w) s = .next (s.whenUp s.pwr.pdUp fun s => s.writeAdCtl d (w ||| 1)) := rfl
  refine ⟨?_, fun hup hl => ⟨fun hen hv => ?_, fun hen hv => ?_, fun hen hbad => ?_, fun hen hok => ?_⟩, beginDomain_starts⟩
  · rintro (hl | hdown)
    · exact completes_unchanged hc (writeAdCtl_locked hl)
    · exact completes_held hc hdown
  · refine completes_to hc hup (writeAdCtl_other hl hen fun h => hv (hv1.symm.trans h)) ⟨?_, ?_, ?_, fun e he => ?_⟩ (only_raiseAd s d aWWR)
    · rw [ad_raiseAd, if_pos rfl]
    · rw [ad_raiseAd, if_pos rfl]
    · rw [ad_raiseAd, if_pos rfl]
      exact bit_flag_set _ (by decide)
    · rw [ad_raiseAd, if_neg (Ne.symm he)]
  · exact completes_unchanged hc (writeAdCtl_same hl hen (hv1.trans hv) h0)
  · exact completes_to hc hup (writeAdCtl_bad hl hen h0 hbad) ⟨ad_modAd_self s d _, fun e he => ad_modAd_ne _ he⟩ (only_modAd s d _)
  · refine completes_to hc hup (writeAdCtl_begins hl hen h0 hok) ⟨ad_modAd_self s d _, ?_, fun e he => ad_modAd_ne _ he⟩ (only_modAd s d _)
    rw [ad_modAd_self]
    exact h0

end Sys2Proof.Machine
end

section
/-!
# The edges of a Hall domain, and the angle triggers (06 R212, R218, R250, R251)
-/
namespace Sys2Proof.Machine
namespace State
variable (s : State)

/-! ## What an edge's operations write -/

theorem only_exitDomain (d : Fin 3) (reason : Nat) (lost : Bool) : OnlyChanges [.chans, .ads, .tt] s (s.exitDomain d
    reason lost) :=
  .ite (only_loseDomain _ _ _) (only_dropDomain _ _ _)
theorem only_edgeFlags (d : Fin 3) (w : EdgeNews) : OnlyChanges [.ads, .tt] s (s.edgeFlags d w) :=
  .ite (((OnlyChanges.ite (only_raiseAd _ _ _) (.refl _ _)).also (only_modAd _ _ _) (by decide)).also (only_raiseAd _ _
      _) (by decide)) (.ite (only_raiseAd _ _ _) (.refl _ _))
theorem only_windowClose (d : Fin 3) : OnlyChanges [.chans, .ads, .tt] s (s.windowClose d) :=
  .ite (.ite (only_exitDomain _ _ _ _) (.ite (.refl _ _) ((only_modAd _ _ _).widen (by decide)))) (.refl _ _)
theorem only_odometer (d : Fin 3) : OnlyChanges [.pm, .rs] s (s.odometer d) :=
  .ite (.ite (.refl _ _) (.ite (((only_modPm _ _).widen (by decide)).also (only_writeLife _) (by decide)) ((only_modPm
      _ _).widen (by decide)))) (.refl _ _)
theorem only_lockDomain (d : Fin 3) : OnlyChanges [.ads, .tt, .flt] s (s.lockDomain d) :=
  (((only_modAd _ _ _).widen (by decide)).also (only_raiseAd _ _ _) (by decide)).also (only_fltBack _ _) (by decide)
theorem only_candidateCheck (d : Fin 3) (ok : Bool) : OnlyChanges [.ads, .tt, .flt] s (s.candidateCheck d ok) :=
  .ite ((only_modAd _ _ _).widen (by decide)) (.ite (((only_modAd _ _ _).widen (by decide)).also (only_lockDomain _ _)
      (by decide)) ((only_modAd _ _ _).widen (by decide)))

theorem only_evaluate (s1 : State) (i : Fin 2) (d : Fin 3) : OnlyChanges [.pls] s (evaluate s1 i d s) :=
  .ite (.ite (.ite (only_modPl _ _ _) (only_modPl _ _ _)) (only_modPl _ _ _)) (.refl _ _)

theorem only_governor (d : Fin 3) : OnlyChanges [.ads, .tt, .pm] s (s.governor d) := by
  have had : ∀ (t : State) (f : AngleDom → AngleDom), OnlyChanges [.ads, .tt, .pm] t (t.modAd d f) := fun t f =>
    (only_modAd t d f).widen (by decide)
  have hraise : ∀ (t : State) (b : BitVec 16), OnlyChanges [.ads, .tt, .pm] t (t.raiseAd d b) := fun t b =>
    (only_raiseAd t d b).widen (by decide)
  have hpm : ∀ (t : State) (f : Perf → Perf), OnlyChanges [.ads, .tt, .pm] t (t.modPm f) := fun t f =>
    (only_modPm t f).widen (by decide)
  refine .ite (.refl _ _) (.ite (.ite (.ite ?_ (had _ _)) (had _ _)) (.ite (.ite ?_ (had _ _)) (had _ _)))
  · exact (((had s _).both (hraise _ aGOV)).both (hpm _ fun p => { p with sec := { p.sec with gov := p.sec.gov + 1 } })).both
      (had _ _)
  · exact ((had s _).both (hraise _ aGOVCLR)).both ((only_releaseHolds _ _).widen (by decide))

theorem only_lockedPitch (d : Fin 3) (k : Nat) : OnlyChanges [.ads, .pls, .tt, .pm, .rs] s (s.lockedPitch d k) :=
  (((((only_raiseAd s d _).widen (by decide)).also (only_odometer _ d) (by decide)).also (only_evaluate _ _ 0 d) (by decide)).also
    (only_evaluate _ _ 1 d) (by decide)).also (only_governor _ d) (by decide)

theorem only_applyNews (d : Fin 3) (was : AdState) (w : EdgeNews) :
    OnlyChanges [.ads, .pls, .tt, .flt, .pm, .rs] s (s.applyNews d was w) := by
  have had : ∀ f : AngleDom → AngleDom, OnlyChanges [.ads, .pls, .tt, .flt, .pm, .rs] s (s.modAd d f) := fun f =>
    (only_modAd s d f).widen (by decide)
  cases was
  case locked =>
    show OnlyChanges _ s (match w.pitch with | some k => s.lockedPitch d k | none => s)
    cases w.pitch
    · exact .refl _ _
    · exact (only_lockedPitch s d _).widen (by decide)
  case candidate =>
    refine .ite (had _) ?_
    cases w.check
    · exact .refl _ _
    · exact (only_candidateCheck s d _).widen (by decide)
  case search => exact .ite (had _) (.ite (had _) (.refl _ _))
  all_goals exact .refl _ _

/-! ## What they leave of the Hall state -/

namespace KeepsHall

theorem evaluate (s1 : State) (i : Fin 2) (d : Fin 3) : KeepsHall s (evaluate s1 i d s) :=
  .of_only (only_evaluate s s1 i d) (by decide)

theorem releaseHolds (s0 : State) : KeepsHall s (releaseHolds s0 s) := .foldFin (fun d t => .ite (search t d) (.refl t)) s

theorem governor (d : Fin 3) : KeepsHall s (s.governor d) := by
  have hpm : ∀ (t : State) (f : Perf → Perf), KeepsHall t (t.modPm f) := fun t f => .of_only (only_modPm t f) (by decide)
  refine .ite (.refl _) (.ite (.ite (.ite ?_ (modAd s d rfl rfl)) (modAd s d rfl rfl))
    (.ite (.ite ?_ (modAd s d rfl rfl)) (modAd s d rfl rfl)))
  · exact (((modAd s d rfl rfl).trans (raiseAd _ d aGOV)).trans
      (hpm _ fun p => { p with sec := { p.sec with gov := p.sec.gov + 1 } })).trans (modAd _ d rfl rfl)
  · exact ((modAd s d rfl rfl).trans (raiseAd _ d aGOVCLR)).trans (releaseHolds _ _)

theorem lockedPitch (d : Fin 3) (k : Nat) : KeepsHall s (s.lockedPitch d k) :=
  ((((raiseAd s d _).trans (.of_only (only_odometer _ d) (by decide))).trans (evaluate _ _ 0 d)).trans (evaluate _ _ 1 d)).trans
    (governor _ d)

theorem lockDomain (d : Fin 3) : KeepsHall s (s.lockDomain d) :=
  ((modAd s d rfl rfl).trans (raiseAd _ d _)).trans (.of_only (only_fltBack _ _) (by decide))

theorem candidateCheck (d : Fin 3) (ok : Bool) : KeepsHall s (s.candidateCheck d ok) :=
  .ite (search s d) (.ite ((modAd s d rfl rfl).trans (lockDomain _ d)) (modAd s d rfl rfl))

theorem applyNews (d : Fin 3) (was : AdState) (w : EdgeNews) : KeepsHall s (s.applyNews d was w) := by
  cases was
  case locked =>
    show KeepsHall s (match w.pitch with | some k => s.lockedPitch d k | none => s)
    cases w.pitch
    · exact .refl _
    · exact lockedPitch s d _
  case candidate =>
    refine .ite (search s d) ?_
    cases w.check
    · exact .refl _
    · exact candidateCheck s d _
  case search => exact .ite (search s d) (.ite (modAd s d rfl rfl) (.refl _))
  all_goals exact .refl _

end KeepsHall

/-! ## A valid change of the Hall code -/

end State

section
variable {a : AngleDom} {x : Fin 6}

theorem anew_hallView (t : W48) : (a.anew t).hallView = a.hallView := by
  unfold AngleDom.anew
  split
  · split <;> rfl
  · rfl

theorem pitchEdge_hallView (k : Nat) (t : W48) : (a.pitchEdge k t).hallView = a.hallView := by
  unfold AngleDom.pitchEdge
  split <;> rfl

/-- The neighbour of the present sector as the new code: the sector moves to it, with SECT. -/
theorem edgeHall_moves (t : W48) (hk : a.k.sectorKnown = true) (hx : a.sectorOf a.k.levels.toNat = some x)
    (hmove : x.val = (a.sector.val + 1) % 6 ∨ (x.val + 1) % 6 = a.sector.val) :
    (edgeHall a t).1.sector = x ∧ (edgeHall a t).1.k.levels = a.k.levels ∧ (edgeHall a t).2.sect = true := by
  have hv := anew_hallView (a := a) t
  unfold edgeHall
  extract_lets synced since early b invalid
  have hb : b.hallView = a.hallView := hv
  have hlv : b.k.levels = a.k.levels := AngleDom.levels_of_hallView hb
  rw [AngleDom.sectorOf_of_hallView hb, hlv, hx]
  dsimp only
  rw [AngleDom.sectorKnown_of_hallView hb, hk, AngleDom.sector_of_hallView hb, if_neg (by decide)]
  by_cases hup : x.val = (a.sector.val + 1) % 6
  · rw [if_pos hup]
    split
    · exact ⟨rfl, hlv, rfl⟩
    · exact ⟨rfl, (AngleDom.levels_of_hallView (pitchEdge_hallView x.val t)).trans hlv, rfl⟩
  · rw [if_neg hup, if_pos (hmove.resolve_left hup)]
    exact ⟨rfl, rfl, rfl⟩

/-- An edge that is not used moves the Hall sector alone. -/
theorem seen_hall (b : AngleDom) (h : a.scheme = 3) : (a.seen b).sector = b.sector ∧ (a.seen b).k.levels = a.k.levels := by
  unfold AngleDom.seen
  rw [if_pos h]
  exact ⟨rfl, rfl⟩

theorem edgeNews_hall (i : Fin 3) (level : Bool) (t : W48) (h : a.scheme = 3) : edgeNews a i level t = edgeHall a t := by
  unfold edgeNews
  rw [h]
  rfl

end
namespace State
variable {s : State} {d i : Fin 3} {x : Fin 6} {lv : BitVec 3}

/-- Domain d stands in Hall sector x, with SECT set and the levels lv accepted. -/
def HallMoved (d : Fin 3) (x : Fin 6) (lv : BitVec 3) (t : State) : Prop :=
  (t.ad d).sector = x ∧ bit (t.ad d).ev.flag 5 = true ∧ (t.ad d).k.levels = lv

theorem HallMoved.keeps {t u : State} (h : HallMoved d x lv t) (k : KeepsHall t u) : HallMoved d x lv u :=
  ⟨(AngleDom.sector_of_hallView (k d).1).trans h.1, (k d).2 5 h.2.1, (AngleDom.levels_of_hallView (k d).1).trans h.2.2⟩

theorem hallMoved_edgeFlags {w : EdgeNews} (hs : (s.ad d).sector = x) (hl : (s.ad d).k.levels = lv) (hw : w.sect = true) :
    HallMoved d x lv (s.edgeFlags d w) := by
  unfold edgeFlags
  rw [if_pos hw]
  have hraised : HallMoved d x lv (s.raiseAd d aSECT) := by
    unfold HallMoved
    rw [ad_raiseAd, if_pos rfl]
    exact ⟨hs, bit_flag_set _ (k := 5) aSECT (by decide) (by decide) rfl, hl⟩
  have hrev : KeepsHall (s.raiseAd d aSECT)
      (if w.reverse then ((s.raiseAd d aSECT).modAd d fun a => { a with rev := true }).raiseAd d aREV
       else s.raiseAd d aSECT) :=
    .ite ((KeepsHall.modAd _ d rfl rfl).trans (.raiseAd _ d aREV)) (.refl _)
  exact hraised.keeps hrev

/-- The accepted edge, in a domain whose Hall state its new code moves. -/
structure HallMoves (a : AngleDom) (x : Fin 6) (lv : BitVec 3) : Prop where
  scheme : a.scheme = 3
  levels : a.k.levels = lv
  known : a.k.sectorKnown = true
  sector : a.sectorOf a.k.levels.toNat = some x
  adjacent : x.val = (a.sector.val + 1) % 6 ∨ (x.val + 1) % 6 = a.sector.val

theorem HallMoves.of_view {a b : AngleDom} (h : HallMoves a x lv) (hv : b.hallView = a.hallView) : HallMoves b x lv where
  scheme := (AngleDom.scheme_of_hallView hv).trans h.scheme
  levels := (AngleDom.levels_of_hallView hv).trans h.levels
  known := (AngleDom.sectorKnown_of_hallView hv).trans h.known
  sector := by rw [AngleDom.sectorOf_of_hallView hv, AngleDom.levels_of_hallView hv]; exact h.sector
  adjacent := by rw [AngleDom.sector_of_hallView hv]; exact h.adjacent

/-- A domain whose input i is accepted at `level`. -/
def newLevel (a : AngleDom) (i : Fin 3) (level : Bool) : AngleDom :=
  { a with k := { a.k with levels := if level then a.k.levels ||| oneBit 3 i.val else a.k.levels &&& ~~~ oneBit 3 i.val } }

theorem accept_hallView (a : AngleDom) (i : Fin 3) (level : Bool) (t : W48) :
    (a.accept i level t).hallView = (newLevel a i level).hallView := by
  unfold AngleDom.accept
  dsimp only
  split <;> rfl

/-- An edge that moves the Hall code, whatever it does to the domain's synchronisation. -/
theorem adInputEdge_moves {level : Bool} (hoff : (s.ad d).st ≠ .off) (hnew : bit (s.ad d).k.levels i.val ≠ level)
    (hm : HallMoves (newLevel (s.ad d) i level) x lv) :
    HallMoved d x lv (s.adInputEdge d i level) ∧
    OnlyChanges [.chans, .ads, .pls, .tt, .flt, .pm, .rs] s (s.adInputEdge d i level) := by
  have hmono : ∀ {ps} {t u : State}, (∀ p ∈ ps, p ∈ [Part.chans, .ads, .pls, .tt, .flt, .pm, .rs]) → OnlyChanges ps t u →
      OnlyChanges [.chans, .ads, .pls, .tt, .flt, .pm, .rs] t u := fun h k => k.widen h
  unfold adInputEdge
  rw [if_neg (fun h => h.elim hoff hnew)]
  extract_lets late s1 t old s2 now r0 unused s3 r1 a r
  have h1 := KeepsHall.windowClose s d d
  have ho2 : OnlyChanges [.chans, .ads, .pls, .tt, .flt, .pm, .rs] s s2 :=
    (hmono (by decide) (only_windowClose s d)).both (hmono (by decide) (only_modAd s1 d _))
  have hnow : HallMoves now x lv := by
    have hself : now = (s1.ad d).accept i level t := ad_modAd_self s1 d _
    refine hm.of_view ?_
    rw [hself, accept_hallView]
    have hv : (s1.ad d).hallView = (s.ad d).hallView := h1.1
    simp only [AngleDom.hallView, newLevel, Prod.mk.injEq] at hv ⊢
    obtain ⟨hctl, hhall, hsec, hlv, hknown, hbeg⟩ := hv
    exact ⟨hctl, hhall, hsec, by rw [hlv], hknown, hbeg⟩
  have hnews : ∀ {a : AngleDom}, HallMoves a x lv → (edgeNews a i level t).1.sector = x ∧
      (edgeNews a i level t).1.k.levels = lv ∧ (edgeNews a i level t).2.sect = true := by
    intro a ha
    rw [edgeNews_hall i level t ha.scheme]
    obtain ⟨hsec, hlv, hsect⟩ := edgeHall_moves t ha.known ha.sector ha.adjacent
    exact ⟨hsec, hlv.trans ha.levels, hsect⟩
  have hunused : HallMoved d x lv (unused s2) ∧ OnlyChanges [.chans, .ads, .pls, .tt, .flt, .pm, .rs] s (unused s2) := by
    obtain ⟨hsec, -, hsect⟩ := hnews hnow
    have hu : unused s2 =
        (s2.modAd d fun a => a.seen (edgeNews now i level t).1).edgeFlags d (edgeNews now i level t).2 :=
      if_pos hnow.scheme
    rw [hu]
    refine ⟨hallMoved_edgeFlags ?_ ?_ hsect, (ho2.both (hmono (by decide) (only_modAd _ d _))).both
      (hmono (by decide) (only_edgeFlags _ d _))⟩
    · rw [ad_modAd_self]; exact (seen_hall _ hnow.scheme).1.trans hsec
    · rw [ad_modAd_self]; exact (seen_hall _ hnow.scheme).2.trans hnow.levels
  have hexit : ∀ {u : State} (o : Option (Nat × Bool)), HallMoved d x lv u →
      OnlyChanges [.chans, .ads, .pls, .tt, .flt, .pm, .rs] s u → HallMoved d x lv
        (match o with | some (why, lost) => u.exitDomain d why lost | none => u) ∧
      OnlyChanges [.chans, .ads, .pls, .tt, .flt, .pm, .rs] s
        (match o with | some (why, lost) => u.exitDomain d why lost | none => u) := by
    rintro u (_ | ⟨why, lost⟩) hu ho
    · exact ⟨hu, ho⟩
    · exact ⟨hu.keeps (.exitDomain u d why lost), ho.both (hmono (by decide) (only_exitDomain u d why lost))⟩
  split
  · exact hexit _ hunused.1 hunused.2
  · split
    · exact hunused
    · have ha : HallMoves a x lv := by
        show HallMoves (if now.st = .lost then now.search else now) x lv
        split
        · exact hnow.of_view rfl
        · exact hnow
      obtain ⟨hsec, hlv, hsect⟩ := hnews ha
      split
      · next why lost _ =>
        refine ⟨(hallMoved_edgeFlags ?_ ?_ hsect).keeps (.exitDomain _ d why lost),
          ((ho2.both (hmono (by decide) (only_modAd _ d _))).both (hmono (by decide) (only_edgeFlags _ d _))).both
            (hmono (by decide) (only_exitDomain _ d why lost))⟩
        · rw [ad_modAd_self]; exact (seen_hall _ ha.scheme).1.trans hsec
        · rw [ad_modAd_self]; exact (seen_hall _ ha.scheme).2.trans ha.levels
      · refine ⟨(hallMoved_edgeFlags ?_ ?_ hsect).keeps (.applyNews _ d a.st r.2),
          ((ho2.both (hmono (by decide) (only_modAd _ d _))).both (hmono (by decide) (only_edgeFlags _ d _))).both
            (hmono (by decide) (only_applyNews _ d a.st r.2))⟩
        · rw [ad_modAd_self]; exact hsec
        · rw [ad_modAd_self]; exact hlv

/-! ## Triggers -/

theorem angleTrigger_idle {k : Fin 4} (h : (s.ad d).st ≠ .locked ∨ bit (at_ (s.ad d).atrig k) 31 = false) :
    s.angleTrigger d k = s :=
  if_neg fun hc => h.elim (· hc.1) fun h31 => absurd (h31.symm.trans hc.2.1) (by decide)

theorem angleTrigger_due {k : Fin 4} (hl : (s.ad d).st = .locked) (h31 : bit (at_ (s.ad d).atrig k) 31 = true)
    (hp : posReached ((s.ad d).position s.tb) (at_ (s.ad d).trigDue k) = true) : s.angleTrigger d k =
      (s.modAd d fun a => { a with trigDue := vset a.trigDue k fun t => t + 0x01000000 }).raiseAd d (oneBit 16 (11 + k.val)) :=
  if_pos ⟨hl, h31, hp⟩

end State
open State

/-- Settles O30: a valid change by `adInputEdge_moves`, the triggers by the branches of their rule. -/
theorem hallChangesAndTriggers : Obligations.HallChangesAndTriggers := by
  unfold Obligations.HallChangesAndTriggers
  intro s d i k level x a lv
  have hedge : exec (.adInputEdge d i level) s = .next (s.whenUp s.pwr.pdUp fun s => s.adInputEdge d i level) := rfl
  have htrig : exec (.angleTrigger d k) s = .next (s.whenUp s.pwr.pdUp fun s => s.angleTrigger d k) := rfl
  refine ⟨fun hup hoff hsch hnew hknown hx hadj => ?_, ?_, fun hup hl h31 hp => ?_, ?_⟩
  · obtain ⟨hmoved, honly⟩ := adInputEdge_moves (s := s) (d := d) (i := i) (level := level) hoff hnew
      (x := x) (lv := lv) ⟨hsch, rfl, hknown, hx, hadj⟩
    exact completes_to hedge hup rfl hmoved honly
  · rintro (hdown | hoff)
    · exact completes_held hedge hdown
    · exact completes_unchanged hedge (if_pos hoff)
  · refine completes_to htrig hup (angleTrigger_due hl h31 hp) ?_
      ((only_modAd s d _).widen (by decide) |>.both (only_raiseAd _ d _))
    have hself : ∀ t : State, (t.raiseAd d (oneBit 16 (11 + k.val))).ad d =
        { t.ad d with ev := ((t.ad d).ev.set (oneBit 16 (11 + k.val))).1 } := fun t =>
      (ad_raiseAd t d d _).trans (if_pos rfl)
    refine ⟨?_, ?_, fun j hj => ?_, ?_, fun e he => ?_⟩
    · rw [hself]
      refine bit_flag_set _ ?_
      rw [bit_oneBit (by omega)]
      simp
    · rw [hself, ad_modAd_self]
      exact at_vset_self _ k _
    · rw [hself, ad_modAd_self]
      exact (at_vset _ k j _).trans (if_neg hj.symm)
    · rw [hself, ad_modAd_self]; exact hl
    · rw [ad_raiseAd, if_neg (Ne.symm he), ad_modAd_ne _ he]
  · rintro (hdown | hidle)
    · exact completes_held htrig hdown
    · exact completes_unchanged htrig (angleTrigger_idle hidle)

end Sys2Proof.Machine
end

section
/-!
# The calendar: its entries, a client's writes, what falls due and what a sweep frees (07 R264–R281)
-/
namespace Sys2Proof.Machine

/-! ## Reading sparse tables -/

/-- What a sparse table lists is what a read of the key finds. -/
theorem cellRead_of_mem {α : Type} [DecidableEq α] {d : α} {m : List (Nat × α)} (hm : cellWf d m = true) {k : Nat} {v : α}
    (h : (k, v) ∈ m) : cellRead d m k = v := by
  induction m with
  | nil => exact absurd h List.not_mem_nil
  | cons p m ih =>
    obtain ⟨a, w⟩ := p
    obtain ⟨-, hkeys, hwf⟩ := (cellWf_cons d a w m).1 hm
    obtain heq | hrest := List.mem_cons.1 h
    · obtain ⟨rfl, rfl⟩ := Prod.mk.inj heq
      exact if_pos rfl
    · have hlt : a + 1 ≤ k := hkeys (k, v) hrest
      exact (if_neg (by omega)).trans (ih hwf hrest)

/-- A read that finds no default finds what the table lists. -/
theorem mem_of_cellRead_ne {α : Type} {d : α} {m : List (Nat × α)} {k : Nat} (h : cellRead d m k ≠ d) :
    (k, cellRead d m k) ∈ m := by
  induction m with
  | nil => exact absurd rfl h
  | cons p m ih =>
    obtain ⟨a, w⟩ := p
    by_cases ha : a = k
    · subst ha
      rw [show cellRead d ((a, w) :: m) a = w from if_pos rfl]
      exact List.mem_cons_self
    · rw [show cellRead d ((a, w) :: m) k = cellRead d m k from if_neg ha] at h ⊢
      exact List.mem_cons_of_mem _ (ih h)

namespace State
variable {s : State}

/-! ## Entries -/

theorem calEntry_setCal (hcan : cellWf {} s.tt.cal = true) (h k : Nat) (e : CalEntry) :
    (s.setCal h e).calEntry k = if k = h then e else s.calEntry k := cellRead_write ({} : CalEntry) s.tt.cal h k e hcan

theorem calEntry_of_mem (hcan : cellWf {} s.tt.cal = true) {p : Nat × CalEntry} (h : p ∈ s.tt.cal) : s.calEntry p.1 = p.2 :=
  cellRead_of_mem hcan h

theorem mem_of_calEntry {h : Nat} (hne : (s.calEntry h).st ≠ .free) : (h, s.calEntry h) ∈ s.tt.cal :=
  mem_of_cellRead_ne fun hd => hne (congrArg CalEntry.st hd)

/-- A field of a word fits its own width. -/
theorem ofNat_fld (w : Word) (hi lo : Nat) : (BitVec.ofNat (hi - lo + 1) (fld w hi lo)).toNat = fld w hi lo :=
  (BitVec.toNat_ofNat _ _).trans (Nat.mod_eq_of_lt (fld_lt w hi lo))

/-! ## A client's writes of word 3 -/

/-- The state after a refusal of a client's write, with status, client and handle recorded (R278). -/
def Herr (s : State) (c : Fin 256) (h : Fin 1024) (status : Nat) (t : State) : Prop :=
  t.tt.herrStatus = .ofNat 4 status ∧ t.tt.herrClient = c ∧ t.tt.herrHandle.toNat = h.val ∧ bit t.tt.flag 1 = true ∧
  t.tt.cal = s.tt.cal

variable {c : Fin 256} {h : Fin 1024} {w : Word}

theorem flag_ttFlag (b : BitVec 5) : (s.ttFlag b).tt.flag = s.tt.flag ||| b := rfl

theorem hostHerr_records (status : Nat) : Herr s c h status (s.hostHerr c h status) ∧
    (status = iFULL ∨ status = iQUOTA → bit (s.hostHerr c h status).tt.flag 0 = true) := by
  unfold Herr hostHerr
  refine ⟨⟨rfl, rfl, (BitVec.toNat_ofNat h.val 10).trans (Nat.mod_eq_of_lt h.isLt), ?_, ?_⟩, fun hfull => ?_⟩
  · exact (bit_or _ tHERR 1).trans (by rw [show bit tHERR 1 = true by decide, Bool.or_true])
  · split <;> rfl
  · rw [if_pos hfull]
    refine (bit_or (s.tt.flag ||| tFULL) tHERR 0).trans ?_
    rw [bit_or, show bit tFULL 0 = true by decide, Bool.or_true, Bool.true_or]

theorem only_hostHerr (s : State) (c : Fin 256) (h : Fin 1024) (status : Nat) : OnlyChanges [.tt] s (s.hostHerr c h status) :=
  ((OnlyChanges.ite (only_ttFlag _ _) (.refl _ _)).both (only_ttFlag _ _)).both (only_modTt _ _)

/-- A refusal, as an insertion or a cancel ends in it. -/
theorem completes_herr {i : Instr} {f : State → State} {status : Nat} (hc : exec i s = .next (s.whenUp s.pwr.pdUp f))
    (hup : s.pwr.pdUp = true) (hx : f s = s.hostHerr c h status) : Completes i s [.tt] (Herr s c h status) :=
  completes_to hc hup hx (hostHerr_records status).1 (only_hostHerr s c h status)

/-- A refusal that counts as FULL too. -/
theorem completes_herrFull {i : Instr} {f : State → State} {status : Nat} (hc : exec i s = .next (s.whenUp s.pwr.pdUp f))
    (hup : s.pwr.pdUp = true) (hx : f s = s.hostHerr c h status) (hfull : status = iFULL ∨ status = iQUOTA) :
    Completes i s [.tt] fun t => Herr s c h status t ∧ bit t.tt.flag 0 = true :=
  completes_to hc hup hx ⟨(hostHerr_records status).1, (hostHerr_records status).2 hfull⟩ (only_hostHerr s c h status)

/-- The owner an insertion gives the entry: the writer, or whom client 0 names. -/
def insertOwner (c : Fin 256) (w : Word) : Fin 256 := if c = 0 then Fin.ofNat 256 (fld w 7 0) else c

/-- What an insertion does, when the entry is FREE and was not selected in this core cycle. -/
theorem hostInsert_open (hfree : (s.calEntry h.val).st = .free) (hsel : h.val ∉ s.cyc.selected) :
    s.hostInsert c h w =
      if s.keyStatus (hi16 (s.calEntry h.val).key) w ≠ iOK then
        s.hostHerr c h (s.keyStatus (hi16 (s.calEntry h.val).key) w)
      else if 1016 ≤ h.val then s.hostHerr c h iFULL
      else if s.overQuota (insertOwner c w) then s.hostHerr c h iQUOTA
      else s.setCal h.val (s.newEntry (s.calEntry h.val).key (s.calEntry h.val).arg w (insertOwner c w)) :=
  (if_neg fun hc => hc.2 hfree).trans
    (if_neg fun hc => hc.elim (fun hne => hne hfree) fun hm => hsel (List.contains_iff_mem.1 hm))

theorem hostInsert_busy (hlast : ¬ (s.cyc.lastFree = some h.val ∧ (s.calEntry h.val).st ≠ .free))
    (hbusy : (s.calEntry h.val).st ≠ .free ∨ h.val ∈ s.cyc.selected) : s.hostInsert c h w = s.hostHerr c h iBUSY :=
  (if_neg hlast).trans (if_pos (hbusy.imp_right List.contains_iff_mem.2))

theorem hostInsert_full (hbusy : (s.calEntry h.val).st ≠ .free) (hlast : s.cyc.lastFree = some h.val) :
    s.hostInsert c h w = s.hostHerr c h iFULL := if_pos ⟨hlast, hbusy⟩

theorem hostCancel_frees (hne : (s.calEntry h.val).st ≠ .free) (hown : c = 0 ∨ (s.calEntry h.val).owner = c) :
    s.hostCancel c h = s.freeEntry h.val :=
  if_pos (by simpa [mayCancel, hne] using hown)

theorem hostCancel_free (hfree : (s.calEntry h.val).st = .free) : s.hostCancel c h = s :=
  (if_neg (by simp [mayCancel, hfree])).trans (if_pos hfree)

theorem hostCancel_refused (hne : (s.calEntry h.val).st ≠ .free) (h0 : c ≠ 0) (hown : (s.calEntry h.val).owner ≠ c) :
    s.hostCancel c h = s.hostHerr c h iRIGHTS :=
  (if_neg (by simp [mayCancel, h0, hown])).trans (if_neg hne)

end State
open State

/-- Settles O33: an insertion by `hostInsert_open` and the refusals before it, a cancel by its three cases. -/
theorem calendarWrites : Obligations.CalendarWrites := by
  unfold Obligations.CalendarWrites
  intro s c h w hcan e owner herr open_
  have hins : exec (.calendarInsert c h w) s = .next (s.whenUp s.pwr.pdUp fun s => s.hostInsert c h w) := rfl
  have hcnc : exec (.calendarCancel c h) s = .next (s.whenUp s.pwr.pdUp fun s => s.hostCancel c h) := rfl
  refine ⟨fun hdown => ⟨completes_held hins hdown, completes_held hcnc hdown⟩, fun hup => ?_⟩
  refine ⟨fun hne hlast => ?_, fun hne hlast => ?_, fun hfree hsel => ?_, fun ho hk hlt hq => ?_, fun ho hk => ?_,
    fun ho hk hge => ?_, fun ho hk hlt hq => ?_, fun hne hown => ?_, fun hfree => ?_, fun hne h0 hown => ?_⟩
  · exact completes_herr hins hup (hostInsert_busy (fun hc => hlast hc.1) (.inl hne))
  · exact completes_herrFull hins hup (hostInsert_full hne hlast) (.inl rfl)
  · exact completes_herr hins hup (hostInsert_busy (fun hc => hc.2 hfree) (.inr hsel))
  · refine completes_to hins hup ((hostInsert_open ho.1 ho.2).trans
      ((if_neg (not_not.2 hk)).trans ((if_neg (by omega)).trans (if_neg (Bool.eq_false_iff.1 hq))))) ?_ (only_setCal s h.val _)
    have hself := (calEntry_setCal hcan.1 h.val h.val (s.newEntry e.key e.arg w owner)).trans (if_pos rfl)
    exact ⟨congrArg CalEntry.st hself, (congrArg CalEntry.key hself).trans rfl, (congrArg CalEntry.arg hself).trans rfl,
      (congrArg (·.pri.toNat) hself).trans (ofNat_fld w 28 26), (congrArg (·.keysel.toNat) hself).trans (ofNat_fld w 25 24),
      (congrArg (·.entry.toNat) hself).trans (ofNat_fld w 20 8), congrArg CalEntry.owner hself,
      fun k hne => (calEntry_setCal hcan.1 h.val k _).trans (if_neg hne), rfl⟩
  · exact completes_herr hins hup ((hostInsert_open ho.1 ho.2).trans (if_pos hk))
  · exact completes_herrFull hins hup
      ((hostInsert_open ho.1 ho.2).trans ((if_neg (not_not.2 hk)).trans (if_pos hge))) (.inl rfl)
  · exact completes_herrFull hins hup ((hostInsert_open ho.1 ho.2).trans
      ((if_neg (not_not.2 hk)).trans ((if_neg (by omega)).trans (if_pos hq)))) (.inr rfl)
  · refine completes_to hcnc hup (hostCancel_frees hne hown) ?_ (only_freeEntry s h.val)
    have hself : (s.freeEntry h.val).calEntry h.val = e.freed := (calEntry_setCal hcan.1 h.val h.val _).trans (if_pos rfl)
    exact ⟨congrArg CalEntry.st hself, (congrArg CalEntry.key hself).trans rfl, (congrArg CalEntry.arg hself).trans rfl,
      fun k hne => (calEntry_setCal hcan.1 h.val k _).trans (if_neg hne), rfl⟩
  · exact completes_unchanged hcnc (hostCancel_free hfree)
  · exact completes_herr hcnc hup (hostCancel_refused hne h0 hown)

end Sys2Proof.Machine
end

section
/-!
# What falls due, and the sweeps of LOST and DROP (07 R266–R268, R280, R281)
-/
namespace Sys2Proof.Machine

theorem leastBy_isSome {α : Type} {key : α → List Nat} {l : List α} {a : α} (ha : a ∈ l) : ∃ b, leastBy key l = some b := by
  cases l with
  | nil => exact absurd ha List.not_mem_nil
  | cons x l =>
    rw [leastBy]
    split
    · exact ⟨_, rfl⟩
    · split <;> exact ⟨_, rfl⟩

namespace State
variable {s : State} {d : Fin 3}

/-! ## READY -/

theorem only_makeReady (s : State) (h : Nat) (e : CalEntry) : OnlyChanges [.tt] s (s.makeReady h e) := by
  have hset := (only_setCal s h { e with st := .ready, late := e.late || !(s.boot.applied && s.me.en), readyAt := s.time + 1 }).both
    (only_modCyc _ (fun c => { c with moved := e.keysel :: c.moved }) _)
  exact .ite (hset.both (only_ttFlag _ _)) hset

/-- The entry that becomes READY, noted late when no dispatch was possible. -/
theorem calEntry_makeReady (hcan : cellWf {} s.tt.cal = true) (h k : Nat) (e : CalEntry) :
    (s.makeReady h e).calEntry k = if k = h then
      { e with st := .ready, readyAt := s.time + 1, late := e.late || !(s.boot.applied && s.me.en) } else s.calEntry k := by
  have hcal : (s.makeReady h e).tt.cal =
      (s.setCal h { e with st := .ready, late := e.late || !(s.boot.applied && s.me.en), readyAt := s.time + 1 }).tt.cal := by
    unfold makeReady
    dsimp only
    split <;> rfl
  unfold calEntry
  rw [hcal]
  exact calEntry_setCal hcan h k _

/-- A WAITING time entry whose due cycle has come. -/
def TimeIsDue (s : State) (e : CalEntry) : Prop := e.st = .waiting ∧ e.keysel = 0 ∧ reached s.tb e.dueAt = true

theorem timeDue_due (hcan : cellWf {} s.tt.cal = true) {h : Nat} {e : CalEntry} (hd : s.timeDue = some (h, e)) :
    s.calEntry h = e ∧ s.TimeIsDue e := by
  obtain ⟨hmem, hdue⟩ := List.mem_filter.1 (mem_of_leastBy hd)
  simp only [Bool.and_eq_true, decide_eq_true_eq] at hdue
  exact ⟨calEntry_of_mem hcan hmem, hdue.1.1, hdue.1.2, hdue.2⟩

theorem timeDue_some {h : Nat} (hd : s.TimeIsDue (s.calEntry h)) : ∃ p, s.timeDue = some p := by
  obtain ⟨hst, hks, hr⟩ := hd
  exact leastBy_isSome (List.mem_filter.2 ⟨mem_of_calEntry (by rw [hst]; decide), by simp [hst, hks, hr]⟩)

theorem timeDue_none (hcan : cellWf {} s.tt.cal = true) (hd : ∀ h, ¬ s.TimeIsDue (s.calEntry h)) : s.timeDue = none := by
  cases hx : s.timeDue with
  | none => rfl
  | some p =>
    obtain ⟨he, hdue⟩ := timeDue_due hcan hx
    exact absurd (he ▸ hdue) (hd p.1)

/-! ## Angle entries that fall due -/

/-- A WAITING entry of domain d that has fallen due, or falls due at the position `pos`. -/
def AngleIsDue (s : State) (d : Fin 3) (pos : Word) (e : CalEntry) : Prop :=
  e.st = .waiting ∧ e.keysel.toNat = d.val + 1 ∧ e.doomed = false ∧
    (e.fell = true ∨ (e.insAt < s.time ∧ posReached pos (lo32 e.key) = true))

/-- An entry of domain d as it stands when the position is `pos`. -/
def fallen (s : State) (d : Fin 3) (pos : Word) (e : CalEntry) : CalEntry :=
  if e.keysel.toNat = d.val + 1 then e.fallDue pos s.tb s.time else e

variable {pos : Word}

theorem anglesFall_at (hp : s.domPos (.ofNat 2 d.val) = some pos) : s.anglesFall d =
    s.modTt fun t => { t with cal := t.cal.map fun p => (p.1, s.fallen d pos p.2) } := by
  unfold anglesFall
  rw [hp]
  refine congrArg s.modTt (funext fun t => ?_)
  refine congrArg (fun l => ({ t with cal := l } : Timetable)) (List.map_congr_left fun p _ => ?_)
  unfold fallen
  split <;> rfl

theorem anglesFall_lost (hp : s.domPos (.ofNat 2 d.val) = none) : s.anglesFall d = s := by
  unfold anglesFall
  rw [hp]

theorem calEntry_anglesFall (hp : s.domPos (.ofNat 2 d.val) = some pos) (k : Nat) :
    (s.anglesFall d).calEntry k = s.fallen d pos (s.calEntry k) := by
  rw [anglesFall_at hp]
  exact cellRead_map {} (s.fallen d pos) (if_neg (by simp)) s.tt.cal k

theorem fallen_fields (s : State) (d : Fin 3) (pos : Word) (e : CalEntry) : (s.fallen d pos e).st = e.st ∧
    (s.fallen d pos e).keysel = e.keysel ∧ (s.fallen d pos e).doomed = e.doomed := by
  unfold fallen CalEntry.fallDue
  split
  · split <;> exact ⟨rfl, rfl, rfl⟩
  · exact ⟨rfl, rfl, rfl⟩

/-- Of the WAITING entries of the domain, those that are due have fallen due, and no others. -/
theorem angleIsDue_iff (e : CalEntry) : s.AngleIsDue d pos e ↔
    e.st = .waiting ∧ e.keysel.toNat = d.val + 1 ∧ e.doomed = false ∧ (s.fallen d pos e).fell = true := by
  unfold AngleIsDue
  refine and_congr_right fun hst => and_congr_right fun hks => and_congr_right fun hdoom => ?_
  unfold fallen CalEntry.fallDue
  rw [if_pos hks]
  by_cases hf : e.fell = true
  · simp [hf]
  · rw [Bool.not_eq_true] at hf
    by_cases hi : e.insAt < s.time ∧ posReached pos (lo32 e.key) = true
    · rw [if_pos ⟨hst, hf, hdoom, hi⟩]
      simp [hi]
    · rw [if_neg fun hc => hi hc.2.2.2]
      simp [hf, hi]

theorem cellWf_anglesFall (hcan : cellWf {} s.tt.cal = true) : cellWf {} (s.anglesFall d).tt.cal = true := by
  cases hp : s.domPos (.ofNat 2 d.val) with
  | none => rwa [anglesFall_lost hp]
  | some pos =>
    rw [anglesFall_at hp]
    refine cellWf_map {} (fun p => (p.1, s.fallen d pos p.2)) (fun _ => rfl) (fun p hne => ?_) _ hcan
    intro hd
    refine hne ?_
    have hks : p.2.keysel.toNat ≠ d.val + 1 := fun hks => by
      have h0 : p.2.keysel = 0 := (fallen_fields s d pos p.2).2.1.symm.trans (congrArg CalEntry.keysel hd)
      rw [h0] at hks
      exact absurd hks (by simp)
    exact (if_neg hks : s.fallen d pos p.2 = p.2).symm.trans hd

theorem domPos_anglesFall (k : BitVec 2) : (s.anglesFall d).domPos k = s.domPos k := by
  unfold anglesFall
  split <;> rfl

theorem angleDue_due (hcan : cellWf {} s.tt.cal = true) (hp : s.domPos (.ofNat 2 d.val) = some pos) {h : Nat} {e : CalEntry}
    (hd : (s.anglesFall d).angleDue d = some (h, e)) :
    e = s.fallen d pos (s.calEntry h) ∧ s.AngleIsDue d pos (s.calEntry h) := by
  unfold angleDue at hd
  rw [domPos_anglesFall, hp] at hd
  obtain ⟨hmem, hdue⟩ := List.mem_filter.1 (mem_of_leastBy hd)
  have he : s.fallen d pos (s.calEntry h) = e :=
    (calEntry_anglesFall hp h).symm.trans (calEntry_of_mem (cellWf_anglesFall hcan) hmem)
  simp only [Bool.and_eq_true, decide_eq_true_eq, Bool.not_eq_true'] at hdue
  obtain ⟨⟨⟨hst, hks⟩, hdoom⟩, hfell⟩ := hdue
  obtain ⟨fst, fks, fdoom⟩ := fallen_fields s d pos (s.calEntry h)
  rw [he] at fst fks fdoom
  exact ⟨he.symm, (angleIsDue_iff _).2 ⟨fst.symm.trans hst, fks ▸ hks, fdoom.symm.trans hdoom, by rw [he]; exact hfell⟩⟩

theorem angleDue_some (hp : s.domPos (.ofNat 2 d.val) = some pos) {h : Nat} (hd : s.AngleIsDue d pos (s.calEntry h)) :
    ∃ p, (s.anglesFall d).angleDue d = some p := by
  obtain ⟨hst, hks, hdoom, hfell⟩ := (angleIsDue_iff _).1 hd
  obtain ⟨fst, fks, fdoom⟩ := fallen_fields s d pos (s.calEntry h)
  have he := calEntry_anglesFall (d := d) hp h
  have hmem : (h, (s.anglesFall d).calEntry h) ∈ (s.anglesFall d).tt.cal :=
    mem_of_calEntry (by rw [he, fst, hst]; decide)
  unfold angleDue
  rw [domPos_anglesFall, hp]
  refine leastBy_isSome (List.mem_filter.2 ⟨hmem, ?_⟩)
  simp [he, fst, fks, fdoom, hst, hks, hdoom, hfell]

/-- With no entry due nothing falls due. -/
theorem anglesFall_none (hcan : cellWf {} s.tt.cal = true) (hp : s.domPos (.ofNat 2 d.val) = some pos)
    (hd : ∀ h, ¬ s.AngleIsDue d pos (s.calEntry h)) : s.anglesFall d = s := by
  have hsame : s.tt.cal.map (fun p => (p.1, s.fallen d pos p.2)) = s.tt.cal := by
    refine (List.map_congr_left fun p hmem => ?_).trans (List.map_id _)
    have hno := hd p.1
    rw [calEntry_of_mem hcan hmem] at hno
    refine congrArg (Prod.mk p.1) ?_
    unfold fallen
    split
    · next hks => exact if_neg fun hc => hno ⟨hc.1, hks, hc.2.2.1, .inr hc.2.2.2⟩
    · rfl
  rw [anglesFall_at hp]
  exact congrArg (fun l => ({ s with tt := { s.tt with cal := l } } : State)) hsame

theorem angleDue_none (hcan : cellWf {} s.tt.cal = true) (hp : s.domPos (.ofNat 2 d.val) = some pos)
    (hd : ∀ h, ¬ s.AngleIsDue d pos (s.calEntry h)) : (s.anglesFall d).angleDue d = none := by
  cases hx : (s.anglesFall d).angleDue d with
  | none => rfl
  | some p => exact absurd (angleDue_due hcan hp hx).2 (hd p.1)

/-! ## One entry of a heap in a core cycle -/

theorem calendarTimeDue_ready {p : Nat × CalEntry} (hm : 0 ∉ s.cyc.moved) (hd : s.timeDue = some p) :
    s.calendarTimeDue = s.makeReady p.1 p.2 := by
  unfold calendarTimeDue
  rw [if_neg fun hc => hm (List.contains_iff_mem.1 hc), hd]

theorem calendarTimeDue_moved (hm : 0 ∈ s.cyc.moved) : s.calendarTimeDue = s := if_pos (List.contains_iff_mem.2 hm)

theorem calendarTimeDue_none (hd : s.timeDue = none) : s.calendarTimeDue = s := by
  unfold calendarTimeDue
  rw [hd]
  exact ite_self s

theorem calendarAngleDue_moved (hm : BitVec.ofNat 2 (d.val + 1) ∈ s.cyc.moved) : s.calendarAngleDue d = s :=
  if_pos (List.contains_iff_mem.2 hm)

theorem calendarAngleDue_ready {p : Nat × CalEntry} (hm : BitVec.ofNat 2 (d.val + 1) ∉ s.cyc.moved)
    (hd : (s.anglesFall d).angleDue d = some p) : s.calendarAngleDue d = (s.anglesFall d).makeReady p.1 p.2 := by
  unfold calendarAngleDue
  rw [if_neg fun hc => hm (List.contains_iff_mem.1 hc)]
  dsimp only
  rw [hd]

theorem calendarAngleDue_none (hf : s.anglesFall d = s) (hd : (s.anglesFall d).angleDue d = none) :
    s.calendarAngleDue d = s := by
  unfold calendarAngleDue
  dsimp only
  rw [hd]
  dsimp only
  rw [hf]
  exact ite_self s

theorem angleDue_lost (hp : s.domPos (.ofNat 2 d.val) = none) : (s.anglesFall d).angleDue d = none := by
  unfold angleDue
  rw [domPos_anglesFall, hp]

theorem made_anglesFall (s : State) (d : Fin 3) : (s.anglesFall d).time = s.time ∧ (s.anglesFall d).boot = s.boot ∧
    (s.anglesFall d).me = s.me := by
  unfold anglesFall
  split <;> exact ⟨rfl, rfl, rfl⟩

/-! ## The sweep -/

/-- A frozen entry of the sweep: the notice to its owner, and the entry FREE. -/
def sweepEntry (reason : Nat) (s : State) (p : Nat × CalEntry) : State := (s.cancelNotice p.1 p.2 reason).freeEntry p.1

theorem only_sweepEntry (reason : Nat) (s : State) (p : Nat × CalEntry) : OnlyChanges [.tt, .sc] s (sweepEntry reason s p) :=
  ((only_post s 0 p.2.owner 0x02 true _ _ _ _).widen (by decide)).also (only_freeEntry _ p.1) (by decide)

/-- The sweep's entries are FREE, every other entry is as it was, and each took one notice. -/
theorem foldl_sweepEntry (reason : Nat) (l : List (Nat × CalEntry)) : ∀ {s : State}, cellWf {} s.tt.cal = true →
    (∀ k, (∀ p ∈ l, p.1 ≠ k) → (l.foldl (sweepEntry reason) s).calEntry k = s.calEntry k) ∧
    (∀ p ∈ l, ((l.foldl (sweepEntry reason) s).calEntry p.1).st = .free) ∧
    (l.foldl (sweepEntry reason) s).sc.posted.length = s.sc.posted.length + l.length ∧
    (l.foldl (sweepEntry reason) s).tt.sweeps = s.tt.sweeps := by
  induction l with
  | nil => exact fun _ => ⟨fun _ _ => rfl, fun _ h => absurd h List.not_mem_nil, rfl, rfl⟩
  | cons p l ih =>
    intro s hcan
    have hread : ∀ k, (sweepEntry reason s p).calEntry k = if k = p.1 then (s.calEntry p.1).freed else s.calEntry k := fun k =>
      calEntry_setCal (s := s.cancelNotice p.1 p.2 reason) hcan p.1 k _
    obtain ⟨hkeep, hfree, hlen, hsw⟩ := ih (s := sweepEntry reason s p) (cellWf_write ({} : CalEntry) _ _ _ hcan)
    refine ⟨fun k hk => ?_, fun q hq => ?_, ?_, hsw⟩
    · exact (hkeep k fun q hq => hk q (List.mem_cons_of_mem _ hq)).trans
        ((hread k).trans (if_neg (hk p List.mem_cons_self).symm))
    · by_cases hl : ∃ r ∈ l, r.1 = q.1
      · obtain ⟨r, hr, heq⟩ := hl
        exact heq ▸ hfree r hr
      · obtain rfl : q = p := (List.mem_cons.1 hq).resolve_right fun hq => hl ⟨q, hq, rfl⟩
        have hself := (hkeep q.1 fun r hr heq => hl ⟨r, hr, heq⟩).trans ((hread q.1).trans (if_pos rfl))
        exact congrArg CalEntry.st hself
    · have hone : (sweepEntry reason s p).sc.posted.length = s.sc.posted.length + 1 := List.length_append
      rw [List.foldl_cons, hlen, hone, List.length_cons]
      omega

/-- The entries of domain d that its LOST or DROP froze. -/
def sweptEntries (s : State) (d : Fin 3) : List (Nat × CalEntry) := s.tt.cal.filter fun p =>
  decide (p.2.st ≠ .free) && p.2.doomed && decide (p.2.keysel.toNat = d.val + 1)

theorem domainSweep_eq {why : SweepWhy} (hw : at_ s.tt.sweeps d = some why) : ∃ reason, s.domainSweep d =
    ((s.sweptEntries d).foldl (sweepEntry reason) s).modTt fun t => { t with sweeps := vset t.sweeps d fun _ => none } := by
  unfold domainSweep
  rw [hw]
  exact ⟨_, rfl⟩

theorem domainSweep_none (hw : at_ s.tt.sweeps d = none) : s.domainSweep d = s := by
  unfold domainSweep
  rw [hw]

/-- An entry the sweep finds is one that was frozen. -/
theorem mem_sweptEntries (hcan : cellWf {} s.tt.cal = true) {p : Nat × CalEntry} (hp : p ∈ s.sweptEntries d) :
    (s.calEntry p.1).st ≠ .free ∧ (s.calEntry p.1).doomed = true ∧ (s.calEntry p.1).keysel.toNat = d.val + 1 := by
  obtain ⟨hmem, hhit⟩ := List.mem_filter.1 hp
  rw [calEntry_of_mem hcan hmem]
  simp only [Bool.and_eq_true, decide_eq_true_eq] at hhit
  exact ⟨hhit.1.1, hhit.1.2, hhit.2⟩

end State
open State

/-- Settles O34: the entry taken is one that is due (`timeDue_due`, `angleDue_due`), and what is due is taken. -/
theorem dueEntriesBecomeReady : Obligations.DueEntriesBecomeReady := by
  unfold Obligations.DueEntriesBecomeReady
  intro s d dueT dueA made falls ⟨hcan, _⟩
  have htime : exec .calendarTimeDue s = .next (s.whenUp s.pwr.pdUp fun s => s.calendarTimeDue) := rfl
  have hang : exec (.calendarAngleDue d) s = .next (s.whenUp s.pwr.pdUp fun s => s.calendarAngleDue d) := rfl
  refine ⟨fun hdown => ⟨completes_held htime hdown, completes_held hang hdown⟩,
    fun hm => completes_unchanged htime (calendarTimeDue_moved hm),
    fun hm => completes_unchanged hang (calendarAngleDue_moved hm), fun hup => ⟨fun hm ⟨h, hdue⟩ => ?_, fun hno => ?_,
      fun pos hp => ⟨fun hm ⟨h, hdue⟩ => ?_, fun hno => ?_⟩, fun hp => ?_⟩⟩
  · obtain ⟨⟨k, e⟩, hk⟩ := timeDue_some hdue
    obtain ⟨rfl, hd⟩ := timeDue_due hcan hk
    exact completes_to htime hup (calendarTimeDue_ready hm hk)
      ⟨k, hd, (calEntry_makeReady hcan k k _).trans (if_pos rfl), fun j hj => (calEntry_makeReady hcan k j _).trans (if_neg hj)⟩
      (only_makeReady s k _)
  · exact completes_unchanged htime (calendarTimeDue_none (timeDue_none hcan hno))
  · obtain ⟨⟨k, e⟩, hk⟩ := angleDue_some hp hdue
    obtain ⟨he, hd⟩ := angleDue_due hcan hp hk
    obtain ⟨ht, hb, hme⟩ := made_anglesFall s d
    have hread := calEntry_makeReady (cellWf_anglesFall (d := d) hcan) k
    refine completes_to hang hup (calendarAngleDue_ready hm hk) ⟨k, hd, ?_, fun j hj => ?_⟩
      ((only_anglesFall s d).both (only_makeReady _ k e))
    · rw [hread, if_pos rfl, ht, hb, hme, he]
      rfl
    · exact (hread j e).trans ((if_neg hj).trans (calEntry_anglesFall hp j))
  · exact completes_unchanged hang (calendarAngleDue_none (anglesFall_none hcan hp hno) (angleDue_none hcan hp hno))
  · exact completes_unchanged hang (calendarAngleDue_none (anglesFall_lost hp) (angleDue_lost hp))

/-- Settles O35: the sweep by induction over its entries (`foldl_sweepEntry`), which are those that were frozen. -/
theorem sweepCancelsFrozenEntries : Obligations.SweepCancelsFrozenEntries := by
  unfold Obligations.SweepCancelsFrozenEntries
  intro s d ⟨hcan, _⟩
  have hc : exec (.domainSweep d) s = .next (s.whenUp s.pwr.pdUp fun s => s.domainSweep d) := rfl
  refine ⟨fun why hup hw => ?_, ?_⟩
  · obtain ⟨reason, heq⟩ := domainSweep_eq hw
    obtain ⟨hkeep, hfree, hlen, hsw⟩ := foldl_sweepEntry reason (s.sweptEntries d) hcan
    refine completes_to hc hup heq ⟨?_, fun e he => ?_, fun h hne hdoom hks => ?_, fun h hno => ?_, hlen⟩
      ((OnlyChanges.foldl (fun s p => only_sweepEntry reason s p) _ s).also (only_modTt _ _) (by decide))
    · exact at_vset_self _ d _
    · exact (at_vset _ d e _).trans ((if_neg he.symm).trans (congrArg (at_ · e) hsw))
    · exact hfree (h, s.calEntry h) (List.mem_filter.2 ⟨mem_of_calEntry hne, by simp [hne, hdoom, hks]⟩)
    · refine hkeep h fun p hp heq => ?_
      obtain ⟨hne, hdoom, hks⟩ := mem_sweptEntries hcan hp
      rw [heq] at hne hdoom hks
      exact hno.elim hne fun hno => hno.elim (fun hd => absurd (hd.symm.trans hdoom) (by decide)) fun hk => hk hks
  · rintro (hdown | hw)
    · exact completes_held hc hdown
    · exact completes_unchanged hc (domainSweep_none hw)

end Sys2Proof.Machine
end

section
/-!
# Dispatch of a calendar entry by an idle engine (07 R271, R285, R292, R308)
-/
namespace Sys2Proof.Machine
namespace State
variable {s : State} {h : Nat} {e : CalEntry}

theorem dispatch_off (hoff : s.mayDispatch = false) : s.dispatch = s := if_pos (by rw [hoff]; rfl)

theorem dispatch_idle {c : Cand} (hmay : s.mayDispatch = true) (hidle : s.me.st = .idle) (hc : s.bestCand = some c) :
    s.dispatch = s.dispatchCand c 1 := by
  unfold dispatch
  rw [if_neg (by rw [hmay]; decide), hc]
  exact if_pos hidle

/-- The frame that a calendar entry's dispatch opens. -/
def entryFrame (h : Nat) (e : CalEntry) : Frame :=
  dispatchFrame e.arg (descriptor false e.late e.pri.toNat e.keysel.toNat e.owner.val h) (lo32 e.key)
    (if e.keysel = 0 then hi16 e.key else 0) e.entry

theorem openWindow_room {f : Frame} (hroom : s.me.frames.length < 15) : s.openWindow f =
    s.modMe fun m => { m with frames := { f with win := s.nextWin, uid := m.nextUid } :: m.frames, nextUid := m.nextUid + 1 } :=
  if_pos hroom

/-- The state in which a selected entry's window opens: the entry FREE, the dispatch counted. -/
def entryTaken (s : State) (h : Nat) (e : CalEntry) : State :=
  ((s.freeEntry h).countDispatch e.dueAt 1).modCyc fun c => { c with selected := h :: c.selected }

/-- The state an idle engine's dispatch of an entry ends in, while the ring has room. -/
def entryDispatched (s : State) (h : Nat) (e : CalEntry) : State :=
  (((s.entryTaken h e).openWindow (entryFrame h e)).modMe fun m => { m with st := .running }).fltBack (unitKey 4 0)

theorem dispatchCand_entry (hidle : s.me.st = .idle) (hroom : s.me.frames.length < 15) : s.dispatchCand (.entry h e) 1 = s.entryDispatched h e := by
  refine if_neg ?_
  show ¬((s.entryTaken h e).openWindow (entryFrame h e)).me.st = .fenced
  rw [openWindow_room (s := s.entryTaken h e) hroom]
  show s.me.st ≠ .fenced
  rw [hidle]
  decide

theorem entryDispatched_tt (hroom : s.me.frames.length < 15) :
    (s.entryDispatched h e).tt = ((s.freeEntry h).countDispatch e.dueAt 1).tt := by
  unfold entryDispatched
  rw [openWindow_room (s := s.entryTaken h e) hroom]
  rfl

theorem entryDispatched_me (hroom : s.me.frames.length < 15) : (s.entryDispatched h e).me =
    { s.me with frames := { entryFrame h e with win := s.nextWin, uid := s.me.nextUid } :: s.me.frames,
                nextUid := s.me.nextUid + 1, st := .running } := by
  unfold entryDispatched
  rw [openWindow_room (s := s.entryTaken h e) hroom]
  rfl

theorem only_entryDispatch (s : State) (h : Nat) (e : CalEntry) (hroom : s.me.frames.length < 15) : 
    OnlyChanges [.tt, .me, .flt] s (s.entryDispatched h e) := by
  unfold entryDispatched
  rw [openWindow_room (s := s.entryTaken h e) hroom]
  exact ((((((only_freeEntry s h).both (only_countDispatch _ e.dueAt 1)).both (only_modCyc _ _ _)).widen (by decide)).also
    (only_modMe _ _) (by decide)).also (only_modMe _ _) (by decide)).also (only_fltBack _ _) (by decide)

/-- A calendar entry's descriptor: its fields, at the places of Table 7.4, do not overlap. -/
theorem descriptor_toNat (late : Bool) (p : BitVec 3) (k : BitVec 2) (c : Fin 256) (hh : h < 1024) :
    (descriptor false late p.toNat k.toNat c.val h).toNat =
      b2n late * 2 ^ 29 + p.toNat * 2 ^ 26 + k.toNat * 2 ^ 24 + c.val * 2 ^ 16 + h := by
  have hl : b2n late ≤ 1 := by cases late <;> decide
  have hp := p.isLt
  have hk := k.isLt
  have hc := c.isLt
  rw [descriptor, packw_eq, BitVec.toNat_ofNat]
  simp only [packNumber_cons, packNumber_nil]
  rw [show b2n false = 0 from rfl, Nat.mod_eq_of_lt (by omega)]
  omega

end State
open State

/-- Settles O36: with room for a window, dispatch is `dispatchCand_entry`, whose frame is `entryFrame`. -/
theorem dispatchOpensAWindow : Obligations.DispatchOpensAWindow := by
  unfold Obligations.DispatchOpensAWindow
  intro s h e ⟨hcan, _⟩
  have hc : exec (.dispatch []) s = .next (s.whenUp s.pwr.pdUp fun s => s.dispatch) := rfl
  refine ⟨?_, fun hup hmay hidle hbest he hh hroom => ?_⟩
  · rintro (happ | hen | htrap | hdown)
    · exact completes_unchanged hc (dispatch_off (by simp [mayDispatch, happ]))
    · exact completes_unchanged hc (dispatch_off (by simp [mayDispatch, hen]))
    · exact completes_unchanged hc (dispatch_off (by simp [mayDispatch, Option.isNone_iff_eq_none, htrap]))
    · exact completes_held hc hdown
  · refine completes_to hc hup ((dispatch_idle hmay hidle hbest).trans (dispatchCand_entry hidle hroom)) ?_
      (only_entryDispatch s h e hroom)
    have hdesc := descriptor_toNat e.late e.pri e.keysel e.owner hh
    have hl : b2n e.late ≤ 1 := by cases e.late <;> decide
    have hpri := e.pri.isLt
    have hks := e.keysel.isLt
    have hown := e.owner.isLt
    have hme := entryDispatched_me (h := h) (e := e) hroom
    have htt := entryDispatched_tt (h := h) (e := e) hroom
    have hfreed : ((s.entryDispatched h e).calEntry h) = (s.calEntry h).freed := by
      unfold calEntry
      rw [htt]
      exact (calEntry_setCal hcan h h _).trans (if_pos rfl)
    refine ⟨congrArg CalEntry.st hfreed, by rw [hme], by rw [htt]; rfl,
      { entryFrame h e with win := s.nextWin, uid := s.me.nextUid }, by rw [hme], rfl, rfl, rfl, rfl, ?_, ?_⟩
    · show (descriptor false e.late e.pri.toNat e.keysel.toNat e.owner.val h).toNat / 2 ^ 16 % 256 = e.owner.val
      rw [hdesc]
      omega
    · show (descriptor false e.late e.pri.toNat e.keysel.toNat e.owner.val h).toNat / 2 ^ 30 = 0
      rw [hdesc]
      omega

end Sys2Proof.Machine
end

section
/-!
# The microengine's current window: what a register, flag, PC or request write leaves (08 R311, R312, R320)
-/
namespace Sys2Proof.Machine

theorem Flags.ofBits_bits (f : Flags) : Flags.ofBits f.bits = f := by
  obtain ⟨n, z, c, v⟩ := f
  cases n <;> cases z <;> cases c <;> cases v <;> rfl

theorem frameReg_g {g : Vector Word 8} {f : Frame} {r : Fin 16} (h : r.val < 8) : frameReg g f r = at_ g ⟨r.val, h⟩ := dif_pos h
theorem frameReg_w {g : Vector Word 8} {f : Frame} {r : Fin 16} (h : ¬ r.val < 8) :
    frameReg g f r = at_ f.w ⟨r.val - 8, by omega⟩ := dif_neg h

theorem frameReg_setG {g : Vector Word 8} {x : Frame} {r : Fin 16} {v : Word} (hr : r.val < 8) (q : Fin 16) :
    frameReg (vset g ⟨r.val, hr⟩ fun _ => v) x q = if q = r then v else frameReg g x q := by
  by_cases heq : q = r
  · subst heq
    rw [if_pos rfl, frameReg_g hr]
    exact at_vset_self g _ _
  · rw [if_neg heq]
    by_cases hq : q.val < 8
    · rw [frameReg_g hq, frameReg_g hq]
      exact (at_vset g _ _ _).trans (if_neg fun hc => heq (Fin.ext (Fin.mk.inj hc).symm))
    · rw [frameReg_w hq, frameReg_w hq]

theorem frameReg_setW {g : Vector Word 8} {x : Frame} {r : Fin 16} {v : Word} (hr : ¬ r.val < 8) (q : Fin 16) :
    frameReg g { x with w := vset x.w ⟨r.val - 8, by omega⟩ fun _ => v } q = if q = r then v else frameReg g x q := by
  by_cases heq : q = r
  · subst heq
    rw [if_pos rfl, frameReg_w hr]
    exact at_vset_self x.w _ _
  · rw [if_neg heq]
    by_cases hq : q.val < 8
    · rw [frameReg_g hq, frameReg_g hq]
    · rw [frameReg_w hq, frameReg_w hq]
      refine (at_vset x.w _ _ _).trans (if_neg fun hc => heq (Fin.ext ?_))
      have hval : r.val - 8 = q.val - 8 := congrArg Fin.val hc
      omega

namespace State
variable {s t u : State}

/-! ## The current window -/

/-- A window is current: the trap window, or the newest frame. -/
def HasWindow (s : State) : Prop := ∃ f, s.curFrame = some f

theorem curFrame_modCur {f : Frame → Frame} {x : Frame} (h : s.curFrame = some x) : (s.modCur f).curFrame = some (f x) := by
  unfold curFrame at h ⊢
  unfold modCur modMe
  dsimp only
  cases ht : s.me.trapWin with
  | some y =>
    rw [ht] at h
    obtain rfl : y = x := Option.some.inj h
    rfl
  | none =>
    rw [ht] at h
    cases hf : s.me.frames with
    | nil => rw [hf] at h; exact absurd h (by simp)
    | cons y l =>
      rw [hf] at h
      obtain rfl : y = x := Option.some.inj h
      rfl

theorem modCur_g (f : Frame → Frame) : (s.modCur f).me.g = s.me.g := by
  unfold modCur modMe
  dsimp only
  split <;> rfl
theorem modCur_outbox (f : Frame → Frame) : (s.modCur f).me.outbox = s.me.outbox := by
  unfold modCur modMe
  dsimp only
  split <;> rfl

theorem HasWindow.modCur (h : s.HasWindow) (f : Frame → Frame) : (s.modCur f).HasWindow := by
  obtain ⟨x, hx⟩ := h
  exact ⟨f x, curFrame_modCur hx⟩

theorem meCan_hasWindow (h : s.meCan = true) : s.HasWindow := by
  unfold meCan at h
  unfold HasWindow curFrame
  cases ht : s.me.trapWin with
  | some y => exact ⟨y, rfl⟩
  | none =>
    rw [ht] at h
    cases hf : s.me.frames with
    | nil => rw [hf] at h; simp at h
    | cons y l => exact ⟨y, rfl⟩

/-! ## Only the window changes -/

/-- The operation stays in the microengine, and there in the current window, G0–G7 and the requests held. -/
def InWindow (s t : State) : Prop := OnlyWindow s t ∧ OnlyChanges [.me] s t

theorem InWindow.refl (s : State) : InWindow s s := ⟨⟨rfl, rfl, rfl, rfl, fun _ => rfl⟩, .refl _ _⟩

theorem onlyWindow_trans (h : OnlyWindow s t) (k : OnlyWindow t u) : OnlyWindow s u := by
  obtain ⟨hme, hshell, htail, htrap, hin⟩ := h
  obtain ⟨kme, kshell, ktail, ktrap, kin⟩ := k
  refine ⟨?_, kshell.trans hshell, ktail.trans htail, ktrap.trans htrap, fun hs => ?_⟩
  · rw [hme] at kme
    exact kme
  · have ht : t.inTrap = s.inTrap := by
      unfold inTrap
      simpa using congrArg Option.isSome htrap
    exact (kin (ht.trans hs)).trans (hin hs)

theorem InWindow.trans (h : InWindow s t) (k : InWindow t u) : InWindow s u :=
  ⟨onlyWindow_trans h.1 k.1, h.2.both k.2⟩

theorem InWindow.modCur (s : State) {f : Frame → Frame} (hf : ∀ x, (f x).shell = x.shell) : InWindow s (s.modCur f) := by
  refine ⟨?_, only_modMe s _⟩
  unfold OnlyWindow State.modCur modMe inTrap
  dsimp only
  cases ht : s.me.trapWin with
  | some x => exact ⟨rfl, rfl, rfl, congrArg some (hf x), fun _ => rfl⟩
  | none =>
    cases hfr : s.me.frames with
    | nil => exact ⟨rfl, rfl, rfl, rfl, fun h => absurd h (by decide)⟩
    | cons x l => exact ⟨rfl, by rw [List.map_cons, List.map_cons, hf], rfl, rfl, fun h => absurd h (by decide)⟩

theorem inWindow_setReg (s : State) (r : Fin 16) (v : Word) : InWindow s (s.setReg r v) := by
  unfold setReg
  split
  · exact ⟨⟨rfl, rfl, rfl, rfl, fun _ => rfl⟩, only_modMe s _⟩
  · exact .modCur s fun _ => rfl

theorem inWindow_setFlags (s : State) (f : Flags) : InWindow s (s.setFlags f) := .modCur s fun _ => rfl
theorem inWindow_jump (s : State) (p : BitVec 13) : InWindow s (s.jump p) := .modCur s fun _ => rfl
theorem inWindow_pcNext (s : State) : InWindow s s.pcNext := .modCur s fun _ => rfl
theorem inWindow_hold (s : State) (r : MeReq) : InWindow s (s.hold r) :=
  ⟨⟨rfl, rfl, rfl, rfl, fun _ => rfl⟩, only_modMe s _⟩

/-! ## Registers, flags, PC and requests after a write -/

/-- A change of the current window's flags or PC leaves every register as it was. -/
theorem reg_modCur {f : Frame → Frame} (hw : s.HasWindow) (hf : ∀ x, (f x).w = x.w) (r : Fin 16) :
    (s.modCur f).reg r = s.reg r := by
  obtain ⟨x, hx⟩ := hw
  unfold reg
  rw [curFrame_modCur hx, hx, modCur_g]
  show frameReg s.me.g (f x) r = frameReg s.me.g x r
  unfold frameReg
  rw [hf]

theorem flags_modCur {f : Frame → Frame} {x : Frame} (hx : s.curFrame = some x) :
    (s.modCur f).flags = Flags.ofBits (f x).flags := by
  unfold flags
  rw [curFrame_modCur hx]
  rfl

theorem pc_modCur {f : Frame → Frame} {x : Frame} (hx : s.curFrame = some x) : (s.modCur f).pc = (f x).pc := by
  unfold pc
  rw [curFrame_modCur hx]
  rfl

theorem flags_of_curFrame {x : Frame} (hx : s.curFrame = some x) : s.flags = Flags.ofBits x.flags := by
  unfold flags
  rw [hx]
  rfl

theorem pc_of_curFrame {x : Frame} (hx : s.curFrame = some x) : s.pc = x.pc := by
  unfold pc
  rw [hx]
  rfl

/-- What the current window shows of itself: the registers with G0–G7, the flags and PC; and the requests held. -/
def Shows (t : State) (vals : Fin 16 → Word) (f : Flags) (pc : BitVec 13) (out : List MeReq) : Prop :=
  t.HasWindow ∧ (∀ r, t.reg r = vals r) ∧ t.flags = f ∧ t.pc = pc ∧ t.me.outbox = out

variable {vals : Fin 16 → Word} {f : Flags} {p : BitVec 13} {out : List MeReq}

theorem shows_self (h : s.HasWindow) : s.Shows s.reg s.flags s.pc s.me.outbox := ⟨h, fun _ => rfl, rfl, rfl, rfl⟩

theorem Shows.setReg (h : s.Shows vals f p out) (r : Fin 16) (v : Word) :
    (s.setReg r v).Shows (fun q => if q = r then v else vals q) f p out := by
  obtain ⟨⟨x, hx⟩, hreg, hf, hp, hout⟩ := h
  unfold State.setReg
  split
  · next hr =>
    refine ⟨⟨x, hx⟩, fun q => ?_, hf, hp, hout⟩
    dsimp only
    rw [← hreg q]
    exact frameReg_setG hr q
  · next hr =>
    refine ⟨⟨_, curFrame_modCur hx⟩, fun q => ?_, ?_, ?_, (modCur_outbox _).trans hout⟩
    · dsimp only
      rw [← hreg q]
      unfold reg
      rw [curFrame_modCur hx, hx, modCur_g]
      exact frameReg_setW hr q
    · exact (flags_modCur hx).trans ((flags_of_curFrame hx).symm.trans hf)
    · exact (pc_modCur hx).trans ((pc_of_curFrame hx).symm.trans hp)

theorem Shows.setFlags (h : s.Shows vals f p out) (f' : Flags) : (s.setFlags f').Shows vals f' p out := by
  obtain ⟨⟨x, hx⟩, hreg, -, hp, hout⟩ := h
  exact ⟨⟨_, curFrame_modCur hx⟩, fun r => (reg_modCur (f := fun x => { x with flags := f'.bits }) ⟨x, hx⟩ (fun _ => rfl) r).trans (hreg r),
    (flags_modCur hx).trans (Flags.ofBits_bits f'), (pc_modCur hx).trans ((pc_of_curFrame hx).symm.trans hp),
    (modCur_outbox _).trans hout⟩

theorem Shows.jump (h : s.Shows vals f p out) (p' : BitVec 13) : (s.jump p').Shows vals f p' out := by
  obtain ⟨⟨x, hx⟩, hreg, hf, -, hout⟩ := h
  exact ⟨⟨_, curFrame_modCur hx⟩, fun r => (reg_modCur (f := fun x => { x with pc := p' }) ⟨x, hx⟩ (fun _ => rfl) r).trans (hreg r),
    (flags_modCur hx).trans ((flags_of_curFrame hx).symm.trans hf), pc_modCur hx, (modCur_outbox _).trans hout⟩

theorem Shows.pcNext (h : s.Shows vals f p out) : s.pcNext.Shows vals f (p + 1) out := by
  obtain ⟨⟨x, hx⟩, hreg, hf, hp, hout⟩ := h
  exact ⟨⟨_, curFrame_modCur hx⟩, fun r => (reg_modCur (f := fun x => { x with pc := x.pc + 1 }) ⟨x, hx⟩ (fun _ => rfl) r).trans (hreg r),
    (flags_modCur hx).trans ((flags_of_curFrame hx).symm.trans hf),
    (pc_modCur hx).trans (congrArg (· + 1) ((pc_of_curFrame hx).symm.trans hp)), (modCur_outbox _).trans hout⟩

theorem Shows.hold (h : s.Shows vals f p out) (r : MeReq) : (s.hold r).Shows vals f p (out ++ [r]) := by
  obtain ⟨hw, hreg, hf, hp, hout⟩ := h
  exact ⟨hw, hreg, hf, hp, congrArg (· ++ [r]) hout⟩

theorem Shows.of_eq {vals' : Fin 16 → Word} {f' : Flags} (h : s.Shows vals f p out) (hv : ∀ r, vals r = vals' r) (hf : f = f') :
    s.Shows vals' f' p out := by
  obtain ⟨hw, hreg, hf0, hp, hout⟩ := h
  exact ⟨hw, fun r => (hreg r).trans (hv r), hf0.trans hf, hp, hout⟩

theorem Shows.left {reqs : List MeReq} (h : t.Shows vals f p (s.me.outbox ++ reqs)) (hin : InWindow s t) :
    Left s t vals f p reqs := by
  obtain ⟨-, hreg, hf, hp, hout⟩ := h
  exact ⟨hreg, hf, hp, hout, hin.1⟩

/-! ## Issue -/

theorem Issues.hasWindow {i : MeInstr} (h : s.Issues i) : s.HasWindow := meCan_hasWindow h.2.1

/-- An instruction that the engine issues now does what it does. -/
theorem Issues.meExec {i : MeInstr} (h : s.Issues i) : s.meExec i = s.meRun i := by
  obtain ⟨-, hcan, herr, hdec, hset⟩ := h
  have hfetch : s.meFetch = (some (cellRead 0 s.me.store s.pc.toNat), s) := by
    unfold meFetch
    dsimp only
    rw [herr]
    rfl
  have hsettle : s.meSettle i.regs = s := if_neg (by rw [hset]; decide)
  unfold State.meExec
  rw [if_neg (by rw [hcan]; decide), hfetch]
  dsimp only
  rw [if_pos hdec, hsettle, if_pos hcan]

/-- An instruction's command, issued now, ends where `meRun` does. -/
theorem Issues.completes {c : Instr} {i : MeInstr} {ps : List Part} {P : State → Prop} (h : s.Issues i)
    (hc : exec c s = .next (s.whenUp s.pwr.pdUp fun s => s.meExec i)) (hx : s.meRun i = t) (hP : P t)
    (ho : OnlyChanges ps s t) : Completes c s ps P := completes_to hc h.1 (h.meExec.trans hx) hP ho

/-- The same, for an instruction that stays in the window. -/
theorem Issues.retires {c : Instr} {i : MeInstr} {reqs : List MeReq} (h : s.Issues i)
    (hc : exec c s = .next (s.whenUp s.pwr.pdUp fun s => s.meExec i)) (hx : s.meRun i = t)
    (hs : t.Shows vals f p (s.me.outbox ++ reqs)) (hin : InWindow s t) : Retires c s vals f p reqs :=
  h.completes hc hx (hs.left hin) hin.2

end State
end Sys2Proof.Machine
end

section
/-!
# The ALU group and the immediate forms (08 R322–R324, Tables 8.3, 8.4)
-/
namespace Sys2Proof.Machine

/-! ## Results and flags -/

section
variable (f : Flags) (a b r : Word)

/-- N and Z of a result. -/
theorem Flags.zn_eq : f.zn r = { f with n := r.getLsbD 31, z := decide (r = 0) } := by
  rw [Flags.zn, BitVec.msb_eq_getLsbD_last]

/-- Signed overflow of a sum, judged by the signs, is a result that differs from the sum of the numbers. -/
theorem add_overflow (cin : Bool) :
    (a.msb == b.msb && (a + b + .ofNat 32 (b2n cin) : Word).msb != a.msb) =
      decide ((a + b + .ofNat 32 (b2n cin) : Word).toInt ≠ a.toInt + b.toInt + (b2n cin : Int)) := by
  have ha := a.isLt
  have hb := b.isLt
  have hr : (a + b + .ofNat 32 (b2n cin) : Word).toNat = (a.toNat + b.toNat + b2n cin) % 2 ^ 32 := by
    simp only [BitVec.toNat_add, BitVec.toNat_ofNat]
    omega
  generalize (a + b + .ofNat 32 (b2n cin) : Word) = x at hr ⊢
  rw [Bool.eq_iff_iff]
  simp only [BitVec.msb_eq_decide, BitVec.toInt_eq_toNat_cond, Bool.and_eq_true, beq_iff_eq, bne_iff_ne, decide_eq_decide,
    decide_eq_true_eq, ne_eq]
  have hc : b2n cin ≤ 1 := by cases cin <;> decide
  generalize b2n cin = k at hr hc ⊢
  split <;> split <;> split <;> omega

theorem sub_overflow (bin : Bool) :
    (a.msb != b.msb && (a - b - .ofNat 32 (b2n bin) : Word).msb == b.msb) =
      decide ((a - b - .ofNat 32 (b2n bin) : Word).toInt ≠ a.toInt - b.toInt - (b2n bin : Int)) := by
  have ha := a.isLt
  have hb := b.isLt
  have hc : b2n bin ≤ 1 := by cases bin <;> decide
  have hr : (a - b - .ofNat 32 (b2n bin) : Word).toNat = (a.toNat + 2 ^ 33 - b.toNat - b2n bin) % 2 ^ 32 := by
    simp only [BitVec.toNat_sub, BitVec.toNat_ofNat]
    omega
  generalize (a - b - .ofNat 32 (b2n bin) : Word) = x at hr ⊢
  rw [Bool.eq_iff_iff]
  simp only [BitVec.msb_eq_decide, BitVec.toInt_eq_toNat_cond, Bool.and_eq_true, beq_iff_eq, bne_iff_ne, decide_eq_decide,
    decide_eq_true_eq, ne_eq]
  generalize b2n bin = k at hr hc ⊢
  split <;> split <;> split <;> omega

theorem addRes_eq (cin : Bool) : addRes f a b cin = { value := a + b + BitVec.ofNat 32 (b2n cin), flags :=
    { { f with n := (a + b + BitVec.ofNat 32 (b2n cin) : Word).getLsbD 31, z := decide ((a + b + BitVec.ofNat 32 (b2n cin) : Word) = 0) } with
      c := decide (2 ^ 32 ≤ a.toNat + b.toNat + b2n cin)
      v := decide ((a + b + BitVec.ofNat 32 (b2n cin) : Word).toInt ≠ a.toInt + b.toInt + (b2n cin : Int)) } } := by
  rw [addRes, Flags.zn_eq, ← add_overflow]

theorem subRes_eq (bin : Bool) : subRes f a b bin = { value := a - b - BitVec.ofNat 32 (b2n bin), flags :=
    { { f with n := (a - b - BitVec.ofNat 32 (b2n bin) : Word).getLsbD 31, z := decide ((a - b - BitVec.ofNat 32 (b2n bin) : Word) = 0) } with
      c := decide (b.toNat + b2n bin ≤ a.toNat)
      v := decide ((a - b - BitVec.ofNat 32 (b2n bin) : Word).toInt ≠ a.toInt - b.toInt - (b2n bin : Int)) } } := by
  rw [subRes, Flags.zn_eq, ← sub_overflow]

theorem logicRes_eq : logicRes f r = { value := r, flags := { f with n := r.getLsbD 31, z := decide (r = 0) } } := by
  rw [logicRes, Flags.zn_eq]

theorem shiftRes_eq (n : Nat) (out : Bool) : shiftRes f r n out = { value := r, flags :=
    { { f with n := r.getLsbD 31, z := decide (r = 0) } with c := if n = 0 then f.c else out } } := by
  rw [shiftRes, Flags.zn_eq]

theorem shiftLeft_eq (n : Nat) : a <<< n = .ofNat 32 (a.toNat * 2 ^ n) := by
  refine BitVec.eq_of_toNat_eq ?_
  rw [BitVec.toNat_shiftLeft, BitVec.toNat_ofNat, Nat.shiftLeft_eq]

theorem ushiftRight_eq (n : Nat) : a >>> n = .ofNat 32 (a.toNat / 2 ^ n) := by
  refine BitVec.eq_of_toNat_eq ?_
  rw [BitVec.toNat_ushiftRight, BitVec.toNat_ofNat, Nat.shiftRight_eq_div_pow,
    Nat.mod_eq_of_lt (lt_of_le_of_lt (Nat.div_le_self _ _) a.isLt)]

theorem sshiftRight_eq (n : Nat) : a.sshiftRight n = .ofInt 32 (a.toInt / 2 ^ n) := by
  rw [BitVec.sshiftRight, Int.shiftRight_eq_div_pow]
  rfl

theorem mul_eq : a * b = .ofNat 32 (a.toNat * b.toNat) := by
  refine BitVec.eq_of_toNat_eq ?_
  rw [BitVec.toNat_mul, BitVec.toNat_ofNat]

theorem udiv_eq : a / b = .ofNat 32 (a.toNat / b.toNat) := by
  refine BitVec.eq_of_toNat_eq ?_
  rw [BitVec.toNat_udiv, BitVec.toNat_ofNat, Nat.mod_eq_of_lt (lt_of_le_of_lt (Nat.div_le_self _ _) a.isLt)]

theorem umod_eq : a % b = .ofNat 32 (a.toNat % b.toNat) := by
  refine BitVec.eq_of_toNat_eq ?_
  rw [BitVec.toNat_umod, BitVec.toNat_ofNat, Nat.mod_eq_of_lt (lt_of_le_of_lt (Nat.mod_le _ _) a.isLt)]

theorem minu_eq : (if a.toNat < b.toNat then a else b) = .ofNat 32 (min a.toNat b.toNat) := by
  refine BitVec.eq_of_toNat_eq ?_
  have ha := a.isLt
  have hb := b.isLt
  rw [BitVec.toNat_ofNat]
  split <;> omega

theorem maxu_eq : (if a.toNat < b.toNat then b else a) = .ofNat 32 (max a.toNat b.toNat) := by
  refine BitVec.eq_of_toNat_eq ?_
  have ha := a.isLt
  have hb := b.isLt
  rw [BitVec.toNat_ofNat]
  split <;> omega

theorem divu_eq : alu .divu f a b = { value := if b = 0 then 0xFFFFFFFF else .ofNat 32 (a.toNat / b.toNat), flags :=
    { { f with n := (if b = 0 then 0xFFFFFFFF else .ofNat 32 (a.toNat / b.toNat) : Word).getLsbD 31
               z := decide ((if b = 0 then 0xFFFFFFFF else .ofNat 32 (a.toNat / b.toNat) : Word) = 0) } with
      v := decide (b = 0) } } := by
  rw [alu, ← udiv_eq, Flags.zn_eq, Flags.zn_eq]
  by_cases hb : b = 0
  · simp only [if_pos hb, decide_eq_true hb]
  · simp only [if_neg hb, decide_eq_false hb]

theorem remu_eq : alu .remu f a b = { value := if b = 0 then a else .ofNat 32 (a.toNat % b.toNat), flags :=
    { { f with n := (if b = 0 then a else .ofNat 32 (a.toNat % b.toNat) : Word).getLsbD 31
               z := decide ((if b = 0 then a else .ofNat 32 (a.toNat % b.toNat) : Word) = 0) } with
      v := decide (b = 0) } } := by
  rw [alu, ← umod_eq, Flags.zn_eq, Flags.zn_eq]
  by_cases hb : b = 0
  · simp only [if_pos hb, decide_eq_true hb]
  · simp only [if_neg hb, decide_eq_false hb]

end

/-! ## An operation and its step -/

namespace State
variable {s : State} {c : Instr} {i : MeInstr} {o : AluOp} {rd ra : Fin 16} {b v : Word} {fl : Flags}

/-- The step of an operation: RD where it writes, the flags, the next word. -/
def aluStep (s : State) (o : AluOp) (rd : Fin 16) (a b : Word) : State :=
  ((if o.writes then s.setReg rd (alu o s.flags a b).value else s).setFlags (alu o s.flags a b).flags).pcNext

theorem retires_alu (hw : o.writes = true) (h : s.Issues i) (hc : exec c s = .next (s.whenUp s.pwr.pdUp fun s => s.meExec i))
    (hx : s.meRun i = s.aluStep o rd (s.reg ra) b) (hr : alu o s.flags (s.reg ra) b = ⟨v, fl⟩) :
    Retires c s (fun q => if q = rd then v else s.reg q) fl (s.pc + 1) [] := by
  have hstep : s.aluStep o rd (s.reg ra) b = ((s.setReg rd v).setFlags fl).pcNext := by
    unfold aluStep
    rw [if_pos hw, hr]
  refine h.retires hc (hx.trans hstep) ?_
    (((inWindow_setReg s rd v).trans (inWindow_setFlags _ fl)).trans (inWindow_pcNext _))
  rw [List.append_nil]
  exact (((shows_self h.hasWindow).setReg rd v).setFlags fl).pcNext

theorem retires_check (hw : o.writes = false) (h : s.Issues i) (hc : exec c s = .next (s.whenUp s.pwr.pdUp fun s => s.meExec i))
    (hx : s.meRun i = s.aluStep o rd (s.reg ra) b) (hr : alu o s.flags (s.reg ra) b = ⟨v, fl⟩) :
    Retires c s s.reg fl (s.pc + 1) [] := by
  have hstep : s.aluStep o rd (s.reg ra) b = (s.setFlags fl).pcNext := by
    unfold aluStep
    rw [if_neg (by rw [hw]; decide), hr]
  refine h.retires hc (hx.trans hstep) ?_ ((inWindow_setFlags s fl).trans (inWindow_pcNext _))
  rw [List.append_nil]
  exact ((shows_self h.hasWindow).setFlags fl).pcNext

theorem retires_mov (h : s.Issues i) (hc : exec c s = .next (s.whenUp s.pwr.pdUp fun s => s.meExec i))
    (hx : s.meRun i = (s.setReg rd v).pcNext) :
    Retires c s (fun q => if q = rd then v else s.reg q) s.flags (s.pc + 1) [] := by
  refine h.retires hc hx ?_ ((inWindow_setReg s rd v).trans (inWindow_pcNext _))
  rw [List.append_nil]
  exact ((shows_self h.hasWindow).setReg rd v).pcNext

end State
open State

/-- An immediate shift distance is its own number, taken modulo 32. -/
theorem zext18_shift (n : Fin 32) : (zext18 (.ofNat 18 n.val)).toNat % 32 = n.val := by
  have hn := n.isLt
  simp only [zext18, BitVec.toNat_setWidth, BitVec.toNat_ofNat]
  omega

theorem add_no_carry (x : Word) : x + .ofNat 32 (b2n false) = x := by simp [b2n]
theorem sub_no_borrow (x : Word) : x - .ofNat 32 (b2n false) = x := by simp [b2n]


/-- A shift's result, its distance m in the low bits of its operand. -/
theorem shl_eq (f : Flags) (a b : Word) {m : Nat} (hm : b.toNat % 32 = m) : alu .shl f a b =
    ⟨.ofNat 32 (a.toNat * 2 ^ m),
     { { f with n := (BitVec.ofNat 32 (a.toNat * 2 ^ m)).getLsbD 31, z := decide (BitVec.ofNat 32 (a.toNat * 2 ^ m) = 0) } with
      c := if m = 0 then f.c else a.getLsbD (32 - m) }⟩ := by
  rw [alu, hm, shiftRes_eq, shiftLeft_eq]
  rfl

theorem shr_eq (f : Flags) (a b : Word) {m : Nat} (hm : b.toNat % 32 = m) : alu .shr f a b =
    ⟨.ofNat 32 (a.toNat / 2 ^ m),
     { { f with n := (BitVec.ofNat 32 (a.toNat / 2 ^ m)).getLsbD 31, z := decide (BitVec.ofNat 32 (a.toNat / 2 ^ m) = 0) } with
      c := if m = 0 then f.c else a.getLsbD (m - 1) }⟩ := by
  rw [alu, hm, shiftRes_eq, ushiftRight_eq]
  rfl

theorem sar_eq (f : Flags) (a b : Word) {m : Nat} (hm : b.toNat % 32 = m) : alu .sar f a b =
    ⟨.ofInt 32 (a.toInt / 2 ^ m),
     { { f with n := (BitVec.ofInt 32 (a.toInt / 2 ^ m)).getLsbD 31, z := decide (BitVec.ofInt 32 (a.toInt / 2 ^ m) = 0) } with
      c := if m = 0 then f.c else a.getLsbD (m - 1) }⟩ := by
  rw [alu, hm, shiftRes_eq, sshiftRight_eq]
  rfl

/-- Settles O38: each form is one ALU step (`retires_alu`, `retires_check`) or a move, its result by the lemma of its operation. -/
theorem arithmeticInstructions : Obligations.ArithmeticInstructions := by
  unfold Obligations.ArithmeticInstructions
  intro s rd ra rb imm k n a b f sx zx wr zn sum dif sh shl shr sar m does alu' im shi bor
  refine ⟨?_, ?_, ?_, ?_, ?_, ?_, ?_, ?_, ?_, ?_, ?_, ?_, ?_, ?_, ?_, ?_, ?_, ?_, ?_, ?_, ?_, ?_, ?_, ?_, ?_, ?_, ?_, ?_, ?_, ?_, ?_⟩
  · exact fun h => retires_alu rfl h rfl rfl ((addRes_eq f a b false).trans (congrArg (AluRes.mk · _) (add_no_carry (a + b))))
  · exact fun h => retires_alu rfl h rfl rfl (addRes_eq f a b f.c)
  · exact fun h => retires_alu rfl h rfl rfl ((subRes_eq f a b false).trans (congrArg (AluRes.mk · _) (sub_no_borrow (a - b))))
  · exact fun h => retires_alu rfl h rfl rfl (subRes_eq f a b bor)
  · exact fun h => retires_alu rfl h rfl rfl (logicRes_eq f (a &&& b))
  · exact fun h => retires_alu rfl h rfl rfl (logicRes_eq f (a ||| b))
  · exact fun h => retires_alu rfl h rfl rfl (logicRes_eq f (a ^^^ b))
  · exact fun h => retires_alu rfl h rfl rfl (logicRes_eq f (a &&& ~~~b))
  · exact fun h => retires_alu rfl h rfl rfl (shl_eq f a b rfl)
  · exact fun h => retires_alu rfl h rfl rfl (shr_eq f a b rfl)
  · exact fun h => retires_alu rfl h rfl rfl (sar_eq f a b rfl)
  · exact fun h => retires_alu rfl h rfl rfl ((congrArg (logicRes f) (mul_eq a b)).trans (logicRes_eq f _))
  · exact fun h => retires_alu rfl h rfl rfl (logicRes_eq f _)
  · exact fun h => retires_alu rfl h rfl rfl (divu_eq f a b)
  · exact fun h => retires_alu rfl h rfl rfl (remu_eq f a b)
  · exact fun h => retires_alu rfl h rfl rfl ((congrArg (logicRes f) (minu_eq a b)).trans (logicRes_eq f _))
  · exact fun h => retires_alu rfl h rfl rfl ((congrArg (logicRes f) (maxu_eq a b)).trans (logicRes_eq f _))
  · exact fun h => retires_check rfl h rfl rfl (subRes_eq f a b false)
  · exact fun h => retires_check rfl h rfl rfl (logicRes_eq f (a &&& b))
  · exact fun h => retires_alu (o := .mov) rfl h rfl rfl (logicRes_eq f a)
  · exact fun h => retires_alu (o := .add) rfl h rfl rfl ((addRes_eq f a sx false).trans (congrArg (AluRes.mk · _) (add_no_carry (a + sx))))
  · exact fun h => retires_alu (o := .and) rfl h rfl rfl (logicRes_eq f (a &&& zx))
  · exact fun h => retires_alu (o := .or) rfl h rfl rfl (logicRes_eq f (a ||| zx))
  · exact fun h => retires_alu (o := .xor) rfl h rfl rfl (logicRes_eq f (a ^^^ zx))
  · exact fun h => retires_alu (o := .shl) rfl h rfl rfl (shl_eq f a _ (zext18_shift n))
  · exact fun h => retires_alu (o := .shr) rfl h rfl rfl (shr_eq f a _ (zext18_shift n))
  · exact fun h => retires_alu (o := .sar) rfl h rfl rfl (sar_eq f a _ (zext18_shift n))
  · exact fun h => retires_check (o := .cmp) rfl h rfl rfl (subRes_eq f a sx false)
  · exact fun h => retires_check (o := .tst) rfl h rfl rfl (logicRes_eq f (a &&& zx))
  · exact fun h => retires_mov h rfl rfl
  · refine fun h => retires_mov h rfl ?_
    show (s.setReg rd (k.setWidth 32 <<< 16)).pcNext = (s.setReg rd (.ofNat 32 (k.toNat * 2 ^ 16))).pcNext
    rw [shiftLeft_eq, BitVec.toNat_setWidth, Nat.mod_eq_of_lt (lt_trans k.isLt (by decide))]

end Sys2Proof.Machine
end

section
/-!
# The microengine's requests to other blocks, SNAP and ATT (08 R332–R342)
-/
namespace Sys2Proof.Machine
namespace State
variable {s : State} {c : Instr} {i : MeInstr} {r : MeReq}

/-! ## Requests held -/

/-- An instruction that only holds a request. -/
theorem retires_hold (h : s.Issues i) (hc : exec c s = .next (s.whenUp s.pwr.pdUp fun s => s.meExec i))
    (hx : s.meRun i = (s.hold r).pcNext) : Retires c s s.reg s.flags (s.pc + 1) [r] :=
  h.retires hc hx ((shows_self h.hasWindow).hold r).pcNext ((inWindow_hold s r).trans (inWindow_pcNext _))

variable {rd re ra rb rc : Fin 16}

theorem meSched_own (h : s.meOwner = 0 ∨ fld (s.reg (ra + 3)) 7 0 = s.meOwner.val) : s.meSched rd ra =
    (s.hold (.sched s.meOwner s.inTrap (s.curFrame.getD {}).uid rd (s.reg ra) (s.reg (ra + 1)) (s.reg (ra + 2))
      (s.reg (ra + 3)))).pcNext := if_neg fun hc => h.elim hc.1 hc.2

/-- The channel that EDGE names, by its number. -/
theorem edgeChan_eq (chr : Bool) (ch : Fin 64) :
    s.edgeChan rc chr ch = Fin.ofNat 64 (if chr then (s.reg rc).toNat % 64 else ch.val) := by
  unfold edgeChan
  cases chr with
  | false => exact Fin.ext (Nat.mod_eq_of_lt ch.isLt).symm
  | true =>
    refine congrArg (Fin.ofNat 64) ?_
    show (s.reg rc).toNat / 2 ^ 0 % 2 ^ 6 = (s.reg rc).toNat % 64
    rw [pow_zero, Nat.div_one]
    rfl

theorem meEdge_allowed {shd chr : Bool} {ch n : Fin 64} (hn : s.edgeChan rc chr ch = n)
    (hp : s.permits s.meOwner (0x2000 + 0x80 * n.val + (if shd then 0x70 else 0x6C)) true 0 = true) : s.meEdge rc ra rb shd chr ch =
      (s.hold (.edge s.meOwner n shd (.ofNat 16 ((s.reg rc).toNat / 2 ^ 16)) (wide (s.reg rb) (s.reg ra)))).pcNext := by
  subst hn
  have hctl : fld (s.reg rc) 31 16 = (s.reg rc).toNat / 2 ^ 16 := Nat.mod_eq_of_lt (by have := (s.reg rc).isLt; omega)
  unfold meEdge
  dsimp only
  rw [if_pos hp, hctl]

/-! ## Values of 48 bits -/

theorem inWindow_setPair (s : State) (rd re : Fin 16) (v : W48) : InWindow s (s.setPair rd re v) :=
  (inWindow_setReg s rd _).trans (inWindow_setReg _ re _)

theorem Shows.setPair {vals : Fin 16 → Word} {f : Flags} {p : BitVec 13} {out : List MeReq} (h : s.Shows vals f p out)
    (rd re : Fin 16) (v : W48) :
    (s.setPair rd re v).Shows (fun q => if q = re then hi16 v else if q = rd then lo32 v else vals q) f p out :=
  (h.setReg rd (lo32 v)).setReg re (hi16 v)

theorem retires_pair {v : W48} (h : s.Issues i) (hc : exec c s = .next (s.whenUp s.pwr.pdUp fun s => s.meExec i))
    (hx : s.meRun i = (s.setPair rd re v).pcNext) :
    Retires c s (fun q => if q = re then hi16 v else if q = rd then lo32 v else s.reg q) s.flags (s.pc + 1) [] := by
  refine h.retires hc hx ?_ ((inWindow_setPair s rd re v).trans (inWindow_pcNext _))
  rw [List.append_nil]
  exact ((shows_self h.hasWindow).setPair rd re v).pcNext

theorem retires_pairFlags {v : W48} {f : Flags} (h : s.Issues i)
    (hc : exec c s = .next (s.whenUp s.pwr.pdUp fun s => s.meExec i))
    (hx : s.meRun i = ((s.setPair rd re v).setFlags f).pcNext) :
    Retires c s (fun q => if q = re then hi16 v else if q = rd then lo32 v else s.reg q) f (s.pc + 1) [] := by
  refine h.retires hc hx ?_ (((inWindow_setPair s rd re v).trans (inWindow_setFlags _ f)).trans (inWindow_pcNext _))
  rw [List.append_nil]
  exact (((shows_self h.hasWindow).setPair rd re v).setFlags f).pcNext

theorem meSnap_allowed {sel : BitVec 7} {v : W48} {a : Nat} (hs : s.snapSource sel = (v, a))
    (hp : s.permits s.meOwner a false 0 = true) : s.meSnap rd re sel = (s.setPair rd re v).pcNext := by
  unfold meSnap
  rw [hs]
  exact if_pos hp

/-! ## ATT -/

theorem domOf_ofNat (d : Fin 3) : domOf (.ofNat 2 d.val) = some d := by
  revert d
  decide

variable {d : Fin 3} {pos : Word}

theorem meAtt_lost (hp : s.permits s.meOwner (0x4030 + 0x200 * d.val) false 0 = true)
    (hl : s.domPos (.ofNat 2 d.val) = none) : s.meAtt rd re ra (.ofNat 2 d.val) =
      ((s.setPair rd re 0).setFlags { s.flags with c := true, z := false, v := false }).pcNext := by
  unfold meAtt
  rw [domOf_ofNat]
  dsimp only
  rw [if_neg (by rw [hp]; decide), hl]

theorem meAtt_locked (hp : s.permits s.meOwner (0x4030 + 0x200 * d.val) false 0 = true)
    (hl : s.domPos (.ofNat 2 d.val) = some pos) (hrate : 0 < (s.ad d).k.rate) : s.meAtt rd re ra (.ofNat 2 d.val) =
      if s.reg ra - pos = 0 ∨ 0x80000000 ≤ (s.reg ra - pos).toNat then
        ((s.setPair rd re s.tb).setFlags { s.flags with c := false, z := true, v := false }).pcNext
      else
        let x := s.attCycles (s.ad d).k.rate (s.reg ra - pos)
        ((s.setPair rd re (s.tb + .ofNat 48 x.1)).setFlags { s.flags with c := false, z := false, v := x.2 }).pcNext := by
  unfold meAtt
  rw [domOf_ofNat]
  dsimp only
  rw [if_neg (by rw [hp]; decide), hl]
  dsimp only
  rw [if_neg (Nat.ne_of_gt hrate)]

/-- A target that is reached, whatever the domain's rate. -/
theorem meAtt_reached (hp : s.permits s.meOwner (0x4030 + 0x200 * d.val) false 0 = true)
    (hl : s.domPos (.ofNat 2 d.val) = some pos) (hd : (s.reg ra - pos).toNat = 0 ∨ 2 ^ 31 ≤ (s.reg ra - pos).toNat) :
    s.meAtt rd re ra (.ofNat 2 d.val) =
      ((s.setPair rd re s.tb).setFlags { s.flags with c := false, z := true, v := false }).pcNext := by
  unfold meAtt
  rw [domOf_ofNat]
  dsimp only
  rw [if_neg (by rw [hp]; decide), hl]
  exact if_pos (hd.imp_left fun h0 => BitVec.eq_of_toNat_eq h0)

/-- The cycles to a target ahead, at a rate that is not 0. -/
theorem meAtt_ahead {n : Nat} {cut : Bool} (hp : s.permits s.meOwner (0x4030 + 0x200 * d.val) false 0 = true)
    (hl : s.domPos (.ofNat 2 d.val) = some pos) (h0 : 0 < (s.reg ra - pos).toNat) (h31 : (s.reg ra - pos).toNat < 2 ^ 31)
    (hrate : 0 < (s.ad d).k.rate) (hx : s.attCycles (s.ad d).k.rate (s.reg ra - pos) = (n, cut)) :
    s.meAtt rd re ra (.ofNat 2 d.val) =
      ((s.setPair rd re (s.tb + .ofNat 48 n)).setFlags { s.flags with c := false, z := false, v := cut }).pcNext := by
  rw [meAtt_locked hp hl hrate, hx]
  refine if_neg ?_
  rintro (hz | hge)
  · rw [hz] at h0
    exact absurd h0 (by decide)
  · omega

theorem attCycles_within {rate : Nat} {w : Word} (hr : 0 < rate) (h : (w.toNat * 2 ^ 32 + rate - 1) / rate ≤ 2 ^ 47 - 1) :
    s.attCycles rate w = ((w.toNat * 2 ^ 32 + rate - 1) / rate, false) := by
  unfold attCycles
  dsimp only
  rw [if_neg (Nat.ne_of_gt hr)]
  exact if_neg (Nat.not_lt.2 h)

theorem attCycles_cut {rate : Nat} {w : Word} (hr : 0 < rate) (h : 2 ^ 47 - 1 < (w.toNat * 2 ^ 32 + rate - 1) / rate) :
    s.attCycles rate w = (2 ^ 47 - 1, true) := by
  unfold attCycles
  dsimp only
  rw [if_neg (Nat.ne_of_gt hr)]
  exact if_pos h

end State
open State

/-- Settles O41: the requests by `retires_hold`, SNAP by `retires_pair`, ATT by its cases of distance and rate. -/
theorem requestInstructions : Obligations.RequestInstructions := by
  unfold Obligations.RequestInstructions
  intro s rd re ra rb rc shd chr ch n cl sel d o uid pair held dom
  refine ⟨fun h hown => retires_hold h rfl (meSched_own hown), fun h => retires_hold h rfl rfl, ?_, ?_, ?_, ?_, ?_, ?_⟩
  · intro k h hp
    have hk : (Fin.ofNat 64 k).val = k := by
      refine Nat.mod_eq_of_lt ?_
      show (if chr then (s.reg rc).toNat % 64 else ch.val) < 64
      split
      · exact Nat.mod_lt _ (by decide)
      · exact ch.isLt
    exact retires_hold h rfl (meEdge_allowed (edgeChan_eq chr ch) (by rw [hk]; exact hp))
  · exact fun h hp => retires_hold h rfl (if_pos hp)
  · exact fun h hown => retires_hold h rfl (if_pos hown)
  · exact fun h hlt hp => retires_pair h rfl (meSnap_allowed (if_pos hlt) hp)
  · exact fun h hp => retires_pair h rfl (meSnap_allowed rfl hp)
  · intro h hp gives
    refine ⟨fun hl => retires_pairFlags h rfl (meAtt_lost hp hl), fun pos hl => ?_⟩
    intro dist rate
    refine ⟨fun hd => retires_pairFlags h rfl (meAtt_reached hp hl hd), fun h0 h31 hrate => ?_⟩
    intro cyc
    exact ⟨fun hle => retires_pairFlags h rfl (meAtt_ahead hp hl h0 h31 hrate (attCycles_within hrate hle)),
      fun hlt => retires_pairFlags h rfl (meAtt_ahead hp hl h0 h31 hrate (attCycles_cut hrate hlt))⟩

end Sys2Proof.Machine
end

section
/-!
# The microengine's loads, stores and atomics (08 R318–R320, R325, R327, R328)
-/
namespace Sys2Proof.Machine

/-- An operation that stays in the window does so whatever the blocks around the engine hold. -/
theorem OnlyWindow.of_me {s t u : State} (h : OnlyWindow u t) (hme : u.me = s.me) : OnlyWindow s t := by
  unfold OnlyWindow State.inTrap at h ⊢
  rwa [hme] at h

namespace State
variable {s t u : State} {p : Nat} {ea data : Word} {size : Nat} {write : Bool}

/-- Another block's change leaves what the window shows. -/
theorem shows_of_me (hme : u.me = s.me) (hw : s.HasWindow) : u.Shows s.reg s.flags s.pc s.me.outbox := by
  have hcur : u.curFrame = s.curFrame := by unfold curFrame; rw [hme]
  obtain ⟨x, hx⟩ := hw
  refine ⟨⟨x, hcur.trans hx⟩, fun r => ?_, ?_, ?_, congrArg MicroEngine.outbox hme⟩
  · unfold reg
    rw [hcur, hme]
  · unfold flags
    rw [hcur]
  · unfold pc
    rw [hcur]

/-! ## Addresses -/

/-- An aligned address of bank memory that resolves traps nothing, a write only where the bank is on and no frame is spilled. -/
theorem addrTrap_bank (ha : isMemAddr ea.toNat = true) (hal : ea.toNat % 2 ^ size = 0) (hr : s.resolve ea.toNat = some p)
    (hw : write = true → s.inSpill p = false ∧ (s.bank (bankOf p)).st = .on) : s.addrTrap ea size write = none := by
  obtain ⟨hlo, hhi⟩ : 0x20000 ≤ ea.toNat ∧ ea.toNat < 0x80000 := by simpa [isMemAddr] using ha
  unfold addrTrap
  dsimp only
  rw [if_neg (by omega), if_neg (by omega), if_neg fun hc => absurd (hc.2.symm.trans ha) (by decide),
    if_neg (by omega), if_pos ha, hr]
  dsimp only
  refine if_neg ?_
  rintro ⟨hwr, hbad⟩
  obtain ⟨hsp, hon⟩ := hw hwr
  exact hbad.elim (fun h => absurd (hsp.symm.trans h) (by decide)) fun h => h hon

theorem accessTrap_none (ht : s.addrTrap ea size write = none) (hp : s.permits s.meOwner ea.toNat write data = true) :
    s.accessTrap ea size write data = none := by
  unfold accessTrap
  rw [ht]
  exact if_pos hp

/-- A bank word read soundly: its bank on and restoring nothing, the word with no error. -/
def SoundAt (s : State) (p : Nat) : Prop :=
  (s.bank (bankOf p)).st = .on ∧ (s.bank (bankOf p)).recov = false ∧ cellRead 0 s.mem.errs (wordOf p) = 0

theorem SoundAt.notShut (h : s.SoundAt p) (hr : s.resolve ea.toNat = some p) : s.bankShut ea.toNat = false := by
  obtain ⟨hon, hrec, -⟩ := h
  unfold bankShut
  rw [hr]
  dsimp only
  rw [hon, hrec]
  rfl

theorem overlay_markSaved (q : Nat) (w : Word) : (s.markSaved q).overlay p w = s.overlay p w := by
  unfold markSaved
  split <;> rfl

theorem resolve_markSaved (q a : Nat) : (s.markSaved q).resolve a = s.resolve a := by
  unfold markSaved
  split <;> rfl

theorem markSaved_me (q : Nat) : (s.markSaved q).me = s.me := by
  unfold markSaved
  split <;> rfl

theorem meBankWord_sound (h : s.SoundAt p) (hb : bankOf (wordOf p) = bankOf p) (hr : s.resolve ea.toNat = some p) :
    s.meBankWord ea = (.ok (s.overlay (wordOf p) (s.bankData (wordOf p))), s.markSaved (wordOf p)) := by
  obtain ⟨hon, -, herr⟩ := h
  unfold meBankWord
  rw [hr]
  dsimp only
  rw [bankReadWord_clean (by rw [hb]; exact hon) herr]
  dsimp only
  rw [overlay_markSaved]

/-! ## Loads and stores -/

variable {c : Instr} {i : MeInstr} {rd ra rb : Fin 16} {imm : BitVec 18}

theorem meLoad_bank {op : LdOp} {w : Word} (hea : ea = s.reg ra + sext18 imm) (ht : s.accessTrap ea op.size false 0 = none)
    (ha : isMemAddr ea.toNat = true) (hs : s.bankShut ea.toNat = false) (hw : s.meBankWord ea = (.ok w, u)) :
    s.meLoad op rd ra imm = (u.setReg rd (op.value w (ea.toNat % 4))).pcNext := by
  subst hea
  unfold meLoad
  dsimp only
  rw [ht]
  dsimp only
  rw [if_pos ha, if_neg (by rw [hs]; decide), hw]

theorem meLoad_register {op : LdOp} {w : Word} (hea : ea = s.reg ra + sext18 imm) (ht : s.accessTrap ea op.size false 0 = none)
    (ha : isMemAddr ea.toNat = false) (hout : s.me.outbox = []) (hcan : s.meCan = true) (hw : s.regRead ea.toNat = some (w, u)) :
    s.meLoad op rd ra imm = (u.setReg rd w).pcNext := by
  subst hea
  have hnone : releaseAll s.me.outbox.length s = s := by rw [hout]; rfl
  unfold meLoad
  dsimp only
  rw [ht]
  dsimp only
  rw [if_neg (by rw [ha]; decide), hnone, if_neg (by rw [hcan]; decide), hw]

theorem meStore_held {op : StOp} (hea : ea = s.reg ra + sext18 imm) (ht : s.accessTrap ea op.size true (s.reg rd) = none) :
    s.meStore op rd ra imm = (s.hold (.store s.meOwner (ea.setWidth 20) op.size (s.reg rd))).pcNext := by
  subst hea
  unfold meStore
  dsimp only
  rw [ht]

/-- A part of a word at a byte offset, as a number. -/
theorem part_eq (w : Word) (o n : Nat) (hn : n ≤ 32) : ((w >>> (8 * o)).setWidth n).setWidth 32 =
    BitVec.ofNat 32 (w.toNat / 2 ^ (8 * o) % 2 ^ n) := by
  refine BitVec.eq_of_toNat_eq ?_
  have hle : (2 : Nat) ^ n ≤ 2 ^ 32 := Nat.pow_le_pow_right (by decide) hn
  have hlt : w.toNat / 2 ^ (8 * o) % 2 ^ n < 2 ^ n := Nat.mod_lt _ (Nat.two_pow_pos n)
  rw [BitVec.toNat_setWidth, BitVec.toNat_setWidth, BitVec.toNat_ushiftRight, Nat.shiftRight_eq_div_pow, BitVec.toNat_ofNat]

/-- The same part, narrowed. -/
theorem part_narrow (w : Word) (o n : Nat) (hn : n ≤ 32) : (w >>> (8 * o)).setWidth n =
    (BitVec.ofNat 32 (w.toNat / 2 ^ (8 * o) % 2 ^ n)).setWidth n := by
  rw [← part_eq w o n hn, BitVec.setWidth_setWidth_of_le _ hn, BitVec.setWidth_eq]

/-! ## Atomics -/

theorem inWindow_atomG (s : State) (op : AtomOp) (rd ra rb : Fin 16) : InWindow s (s.meAtomG op rd ra rb) :=
  (((inWindow_setReg s ra _).trans (inWindow_setReg _ rd _)).trans (inWindow_setFlags _ _)).trans (inWindow_pcNext _)

theorem shows_atomG (op : AtomOp) (hw : s.HasWindow) : (s.meAtomG op rd ra rb).Shows
    (fun q => if q = rd then s.reg ra else if q = ra then op.next (s.reg ra) (s.reg rb) (s.reg rd) else s.reg q)
    (op.flags s.flags (s.reg ra) (s.reg rd)) (s.pc + 1) s.me.outbox :=
  ((((shows_self hw).setReg ra _).setReg rd _).setFlags _).pcNext

/-- The state an atomic on a bank word leaves, the word held until its write leaves the engine. -/
def atomHeld (s u : State) (op : AtomOp) (rd rb : Fin 16) (ea : Word) (p : Nat) (old : Word) : State :=
  ((((u.hold (.atomic s.meOwner (ea.setWidth 20) (op.next old (s.reg rb) (s.reg rd)))).modMem
    fun m => { m with lock := some p }).setReg rd old).setFlags (op.flags s.flags old (s.reg rd))).pcNext

theorem shows_atomHeld {op : AtomOp} {old : Word} (hme : u.me = s.me) (hw : s.HasWindow) :
    (atomHeld s u op rd rb ea p old).Shows (fun q => if q = rd then old else s.reg q) (op.flags s.flags old (s.reg rd)) (s.pc + 1)
      (s.me.outbox ++ [.atomic s.meOwner (ea.setWidth 20) (op.next old (s.reg rb) (s.reg rd))]) := by
  have hheld := (shows_of_me hme hw).hold (.atomic s.meOwner (ea.setWidth 20) (op.next old (s.reg rb) (s.reg rd)))
  obtain ⟨⟨x, hx⟩, hreg, hf, hp, hout⟩ := hheld
  have hlock : ((u.hold (.atomic s.meOwner (ea.setWidth 20) (op.next old (s.reg rb) (s.reg rd)))).modMem
      fun m => { m with lock := some p }).Shows s.reg s.flags s.pc
        (s.me.outbox ++ [.atomic s.meOwner (ea.setWidth 20) (op.next old (s.reg rb) (s.reg rd))]) :=
    ⟨⟨x, hx⟩, hreg, hf, hp, hout⟩
  exact ((hlock.setReg rd old).setFlags _).pcNext

theorem only_atomHeld (s : State) {op : AtomOp} {old : Word} (hu : OnlyChanges [.me, .mem] s u) :
    OnlyChanges [.me, .mem] s (atomHeld s u op rd rb ea p old) :=
  ((((hu.also (only_modMe _ _) (by decide)).also (only_modMem _ _) (by decide)).also (inWindow_setReg _ rd old).2 (by decide)).also
    (inWindow_setFlags _ _).2 (by decide)).also (inWindow_pcNext _).2 (by decide)

theorem onlyWindow_atomHeld {op : AtomOp} {old : Word} (hme : u.me = s.me) : OnlyWindow s (atomHeld s u op rd rb ea p old) := by
  have hrest : ∀ x : State, InWindow x (((x.setReg rd old).setFlags (op.flags s.flags old (s.reg rd))).pcNext) := fun x =>
    ((inWindow_setReg x rd old).trans (inWindow_setFlags _ _)).trans (inWindow_pcNext _)
  unfold atomHeld
  refine OnlyWindow.of_me (u := u) (onlyWindow_trans
    (inWindow_hold u (.atomic s.meOwner (ea.setWidth 20) (op.next old (s.reg rb) (s.reg rd)))).1 ?_) hme
  exact OnlyWindow.of_me (u := (u.hold (.atomic s.meOwner (ea.setWidth 20) (op.next old (s.reg rb) (s.reg rd)))).modMem
    fun m => { m with lock := some p }) (hrest _).1 rfl

theorem mem_atomHeld {op : AtomOp} {old : Word} : (atomHeld s u op rd rb ea p old).mem = { u.mem with lock := some p } := by
  have hrest : ∀ x : State, (((x.setReg rd old).setFlags (op.flags s.flags old (s.reg rd))).pcNext).mem = x.mem := fun x =>
    (((inWindow_setReg x rd old).trans (inWindow_setFlags _ _)).trans (inWindow_pcNext _)).2 .mem (by decide)
  exact hrest _

theorem meAtomBank_held {op : AtomOp} {old : Word} (ha : isMemAddr (s.reg ra).toNat = true)
    (hw : s.accessTrap (s.reg ra) 2 true (s.reg rb) = none) (hr : s.accessTrap (s.reg ra) 2 false 0 = none)
    (hlock : s.mem.lock = none) (hs : s.bankShut (s.reg ra).toNat = false) (hu : s.meBankWord (s.reg ra) = (.ok old, u))
    (hres : (u.resolve (s.reg ra).toNat).map wordOf = some p) (hme : u.me = s.me) (hwin : s.HasWindow) :
    s.meAtomBank op rd ra rb = atomHeld s u op rd rb (s.reg ra) p old := by
  have hu0 := shows_of_me hme hwin
  obtain ⟨-, hreg, hf, -, -⟩ := hu0
  have hown : u.meOwner = s.meOwner := by
    unfold meOwner
    rw [hme]
  unfold meAtomBank
  dsimp only
  rw [if_neg (by rw [ha]; decide), hw]
  dsimp only
  rw [hr]
  dsimp only
  rw [if_pos hlock, if_neg (by rw [hs]; decide), hu]
  dsimp only
  rw [hreg rd, hreg rb, hown, show (u.hold (.atomic s.meOwner ((s.reg ra).setWidth 20) (op.next old (s.reg rb) (s.reg rd)))).resolve
    (s.reg ra).toNat = u.resolve (s.reg ra).toNat from rfl, hres]
  unfold atomHeld
  rw [← hf]
  rfl

end State
open State

/-- The value that a load puts into RD, from the word its address names. -/
theorem load_value (op : LdOp) (w ea : Word) : op.value w (ea.toNat % 4) =
    match op with
    | .ldw => w
    | .ldh => ((BitVec.ofNat 32 (w.toNat / 2 ^ (8 * (ea.toNat % 4)) % 2 ^ (8 * 2 ^ 1))).setWidth 16).signExtend 32
    | .ldhu => BitVec.ofNat 32 (w.toNat / 2 ^ (8 * (ea.toNat % 4)) % 2 ^ (8 * 2 ^ 1))
    | .ldb => ((BitVec.ofNat 32 (w.toNat / 2 ^ (8 * (ea.toNat % 4)) % 2 ^ (8 * 2 ^ 0))).setWidth 8).signExtend 32
    | .ldbu => BitVec.ofNat 32 (w.toNat / 2 ^ (8 * (ea.toNat % 4)) % 2 ^ (8 * 2 ^ 0)) := by
  cases op
  case ldw => rfl
  case ldh => exact congrArg (BitVec.signExtend 32) (part_narrow w (ea.toNat % 4) 16 (by decide))
  case ldhu => exact part_eq w (ea.toNat % 4) 16 (by decide)
  case ldb => exact congrArg (BitVec.signExtend 32) (part_narrow w (ea.toNat % 4) 8 (by decide))
  case ldbu => exact part_eq w (ea.toNat % 4) 8 (by decide)

theorem exec_load (op : LdOp) (rd ra : Fin 16) (imm : BitVec 18) (s : State) : exec (op.command rd ra imm) s =
    .next (s.whenUp s.pwr.pdUp fun s => s.meExec (.load op rd ra imm)) := by cases op <;> rfl
theorem exec_store (op : StOp) (rd ra : Fin 16) (imm : BitVec 18) (s : State) : exec (op.command rd ra imm) s =
    .next (s.whenUp s.pwr.pdUp fun s => s.meExec (.store op rd ra imm)) := by cases op <;> rfl
theorem exec_atom (op : AtomOp) (g : Bool) (rd ra rb : Fin 16) (s : State) : exec (op.command g rd ra rb) s =
    .next (s.whenUp s.pwr.pdUp fun s => s.meExec (.atom op g rd ra rb)) := by cases op <;> rfl

/-- Settles O39: loads by `meLoad_bank` and `meLoad_register`, stores by `meStore_held`, atomics by `shows_atomG` and
`meAtomBank_held`. -/
theorem dataAccessInstructions : Obligations.DataAccessInstructions := by
  unfold Obligations.DataAccessInstructions
  intro s rd ra rb imm ea at0 wr part loaded sound
  refine ⟨fun op p h ha hal hr hsound hp hb => ⟨?_, fun hout => ?_⟩, fun w u h ht ha hp hout hreg => ?_, fun op h ht hp => ?_,
    fun op => ?_⟩
  · have hs : s.SoundAt p := hsound
    have hx := meLoad_bank (rd := rd) (op := op) (ea := ea) rfl
      (accessTrap_none (addrTrap_bank ha hal hr fun hc => absurd hc (by decide)) hp) ha (hs.notShut hr)
      (meBankWord_sound hs hb hr)
    rw [load_value] at hx
    have hshow := shows_of_me (markSaved_me (s := s) (wordOf p)) h.hasWindow
    have hin : ∀ v : Word, InWindow (s.markSaved (wordOf p)) ((s.markSaved (wordOf p)).setReg rd v).pcNext := fun v =>
      (inWindow_setReg _ rd v).trans (inWindow_pcNext _)
    refine h.completes (exec_load op rd ra imm s) hx ⟨?_, ?_⟩ (((only_markSaved s _).widen (by decide)).also (hin _).2 (by decide))
    · have hleft := (hshow.setReg rd (loaded op (s.overlay (wordOf p) (s.bankData (wordOf p))))).pcNext
      obtain ⟨-, hregs, hf, hpc, hout⟩ := hleft
      exact ⟨hregs, hf, hpc, hout.trans (List.append_nil _).symm, (hin _).1.of_me (markSaved_me _)⟩
    · exact (hin _).2 .mem (by decide)
  · unfold overlay
    rw [hout]
    rfl
  · have hx := meLoad_register (rd := rd) (op := .ldw) (ea := ea) rfl (accessTrap_none ht hp) ha hout h.2.1 hreg
    exact (exec_load .ldw rd ra imm s).trans (congrArg Host.Outcome.next ((if_pos h.1).trans (h.meExec.trans hx)))
  · exact retires_hold h (exec_store op rd ra imm s) (meStore_held (ea := ea) rfl (accessTrap_none ht hp))
  · intro next fl
    have hnext : ∀ old, op.next old (s.reg rb) (s.reg rd) = next old := fun old => by cases op <;> rfl
    have hfl : ∀ old, op.flags s.flags old (s.reg rd) = fl old := fun old => by cases op <;> rfl
    refine ⟨fun h _ => ?_, fun p h ha hal hr hp4 hsound hsp hlock hout hpw hpr => ?_⟩
    · have hshow := shows_atomG (rd := rd) (ra := ra) (rb := rb) op h.hasWindow
      rw [hnext, hfl] at hshow
      exact h.retires (exec_atom op true rd ra rb s) rfl (by rw [List.append_nil]; exact hshow) (inWindow_atomG s op rd ra rb)
    · have hs : s.SoundAt p := hsound
      have hword : wordOf p = p := by unfold wordOf; omega
      have hu := meBankWord_sound hs (by rw [hword]) hr
      have hover : s.overlay (wordOf p) (s.bankData (wordOf p)) = s.bankData p := by
        unfold overlay
        rw [hout, hword]
        rfl
      rw [hover, hword] at hu
      have hx := meAtomBank_held (rd := rd) (op := op) ha
        (accessTrap_none (addrTrap_bank ha hal hr fun _ => ⟨hsp, hs.1⟩) hpw)
        (accessTrap_none (addrTrap_bank ha hal hr fun hc => absurd hc (by decide)) hpr) hlock (hs.notShut hr) hu
        (p := p) (by rw [resolve_markSaved, hr]; exact congrArg some hword) (markSaved_me p) h.hasWindow
      have hshow := shows_atomHeld (u := s.markSaved p) (rd := rd) (rb := rb) (ea := at0) (p := p) (op := op) (old := s.bankData p)
        (markSaved_me p) h.hasWindow
      rw [hnext, hfl] at hshow
      obtain ⟨-, hregs, hf, hpc, hout⟩ := hshow
      exact h.completes (exec_atom op false rd ra rb s) hx
        ⟨⟨hregs, hf, hpc, hout, onlyWindow_atomHeld (markSaved_me p)⟩, mem_atomHeld⟩
        (only_atomHeld s ((only_markSaved s p).widen (by decide)))

end Sys2Proof.Machine
end

section
/-!
# The microengine's control flow (07 R286–R288, R291; 08 R329–R331)
-/
namespace Sys2Proof.Machine

/-- The conditions of Table 8.8, in the order of their numbers. -/
theorem condHolds_eq (cond : Fin 16) (f : Flags) : condHolds cond f = [true, f.z, !f.z, f.c, !f.c, f.n, !f.n, f.v, !f.v,
    f.c && !f.z, !f.c || f.z, f.n == f.v, f.n != f.v, !f.z && f.n == f.v, f.z || f.n != f.v].getD cond.val false := by
  fin_cases cond <;> rfl

namespace State
variable {s t u : State} {c : Instr} {i : MeInstr} {p : BitVec 13} {cur below : Frame} {rest : List Frame}

/-! ## Jumps -/

theorem retires_jump (h : s.Issues i) (hc : exec c s = .next (s.whenUp s.pwr.pdUp fun s => s.meExec i))
    (hx : s.meRun i = s.jump p) : Retires c s s.reg s.flags p [] := by
  refine h.retires hc hx ?_ (inWindow_jump s p)
  rw [List.append_nil]
  exact (shows_self h.hasWindow).jump p

theorem retires_next (h : s.Issues i) (hc : exec c s = .next (s.whenUp s.pwr.pdUp fun s => s.meExec i))
    (hx : s.meRun i = s.pcNext) : Retires c s s.reg s.flags (s.pc + 1) [] := by
  refine h.retires hc hx ?_ (inWindow_pcNext s)
  rw [List.append_nil]
  exact (shows_self h.hasWindow).pcNext

/-! ## CALL -/

theorem trapWin_of_inTrap (h : s.inTrap = false) : s.me.trapWin = none := by
  unfold inTrap at h
  cases ht : s.me.trapWin with
  | none => rfl
  | some x => rw [ht] at h; exact nomatch h

/-- The engine with its newest frame at the next word. -/
theorem pcNext_frames (ht : s.inTrap = false) (hf : s.me.frames = cur :: rest) :
    s.pcNext = s.modMe fun m => { m with frames := { cur with pc := cur.pc + 1 } :: rest } := by
  unfold pcNext modCur modMe
  dsimp only
  rw [trapWin_of_inTrap ht, hf]

/-- The frame that CALL opens, in the next window of the ring. -/
def calledFrame (s : State) (cur : Frame) (target : BitVec 13) : Frame :=
  { pc := target, called := true, desc := cur.desc, win := if cur.win = 15 then 1 else cur.win + 1, uid := s.me.nextUid }

theorem nextWin_eq (hf : s.me.frames = cur :: rest) : s.nextWin = if cur.win = 15 then 1 else cur.win + 1 := by
  unfold nextWin
  rw [hf]

/-- A spilled record's words go to their own places. -/
theorem bankData_foldPut (hcan : MemCanonical s) (k : Nat) (r : List Word) (n : Nat) :
    let t := (List.range n).foldl (fun s i => s.bankPut (s.spillAddr k i) (r.getD i 0)) s
    MemCanonical t ∧ t.me = s.me ∧
    ∀ j, t.bankData (s.spillAddr k j) = if j < n then r.getD j 0 else s.bankData (s.spillAddr k j) := by
  induction n with
  | zero => exact ⟨hcan, rfl, fun _ => rfl⟩
  | succ n ih =>
    intro t
    obtain ⟨hc, hme, hread⟩ := ih
    have ht : t = ((List.range n).foldl (fun s i => s.bankPut (s.spillAddr k i) (r.getD i 0)) s).bankPut
        (s.spillAddr k n) (r.getD n 0) := by
      have haddr : ∀ u : State, u.me = s.me → u.spillAddr k n = s.spillAddr k n := fun u hu => by
        unfold spillAddr
        rw [hu]
      show (List.range (n + 1)).foldl _ s = _
      rw [List.range_succ, List.foldl_append]
      exact congrArg (fun a => State.bankPut _ a _) (haddr _ hme)
    rw [ht]
    have hput_me : ∀ (u : State) (a : Nat) (w : Word), (u.bankPut a w).me = u.me := fun u a w => only_bankPut u a w .me (by decide)
    refine ⟨(bankPut_kept _ _ _).mem hc, (hput_me _ _ _).trans hme, fun j => ?_⟩
    have hput := stores_bankPut hc (s.spillAddr k n) (r.getD n 0)
    by_cases hj : j = n
    · subst hj
      rw [if_pos (Nat.lt_succ_self j)]
      exact hput.bankData
    · rw [hput.bankData_apart (by unfold spillAddr; omega), hread]
      exact if_congr (by omega) rfl rfl

/-- The record of a spilled frame is written word by word. -/
theorem bankData_putRecord (hcan : MemCanonical s) (k : Nat) (r : List Word) (j : Fin 16) :
    (s.putRecord k r).bankData (s.spillAddr k j.val) = r.getD j.val 0 :=
  ((bankData_foldPut hcan k r 16).2.2 j.val).trans (if_pos j.isLt)

theorem bankData_modMe (s : State) (f : MicroEngine → MicroEngine) (a : Nat) : (s.modMe f).bankData a = s.bankData a := rfl

theorem me_putRecord (s : State) (k : Nat) (r : List Word) : (s.putRecord k r).me = s.me :=
  (only_putRecord s k r) .me (by decide)

/-- The engine with a frame opened in the next window of the ring above the newest. -/
def opened (s : State) (f cur : Frame) (old : List Frame) (spilled : Nat) : MicroEngine :=
  { s.me with
    frames := { f with win := if cur.win = 15 then 1 else cur.win + 1, uid := s.me.nextUid } :: cur :: old
    spilled := spilled, nextUid := s.me.nextUid + 1 }

theorem openWindow_frames {f : Frame} (hf : s.me.frames = cur :: rest) (hlen : rest.length < 14) :
    s.openWindow f = s.modMe fun _ => s.opened f cur rest s.me.spilled := by
  rw [openWindow_room (by rw [hf, List.length_cons]; omega), nextWin_eq hf]
  unfold opened modMe
  dsimp only
  rw [hf]

/-- The window opens with the oldest frame spilled. -/
theorem openWindow_spills {f oldest : Frame} (hf : s.me.frames = cur :: rest) (hlen : rest.length = 14)
    (hold : rest.getLast? = some oldest) (hcap : s.me.spilled < s.spillCap) (hon : (s.bank 5).st = .on) :
    s.openWindow f = (s.putRecord s.me.spilled oldest.record).modMe fun _ =>
      s.opened f cur rest.dropLast (s.me.spilled + 1) := by
  have hne : rest ≠ [] := fun h => by rw [h] at hlen; exact absurd hlen (by decide)
  have hlast : s.me.frames.getLast? = some oldest := by
    rw [hf, List.getLast?_cons, hold]
    rfl
  have hdrop : s.me.frames.dropLast = cur :: rest.dropLast := by
    rw [hf, List.dropLast_cons_of_ne_nil hne]
  unfold openWindow
  dsimp only
  rw [if_neg (by rw [hf, List.length_cons]; omega), if_neg fun hc => hc.elim (fun h => by omega) fun h => h hon, hlast]
  have hme := me_putRecord s s.me.spilled oldest.record
  dsimp only [Option.map, Option.getD]
  generalize s.putRecord s.me.spilled oldest.record = u at hme ⊢
  have hwin : (u.modMe fun m => { m with frames := m.frames.dropLast, spilled := m.spilled + 1 }).nextWin =
      if cur.win = 15 then 1 else cur.win + 1 :=
    nextWin_eq (rest := rest.dropLast) (by show u.me.frames.dropLast = _; rw [hme, hdrop])
  rw [hwin]
  unfold modMe opened
  dsimp only
  rw [hme, hdrop]

theorem meCall_eq {target : BitVec 13} (ht : s.inTrap = false) (hf : s.me.frames = cur :: rest) : s.meCall target =
    (s.modMe fun m => { m with frames := { cur with pc := cur.pc + 1 } :: rest }).openWindow
      { pc := target, called := true, desc := cur.desc } := by
  have hcur : s.curFrame = some cur := by
    unfold curFrame
    rw [trapWin_of_inTrap ht, hf]
    rfl
  unfold meCall
  dsimp only
  rw [if_neg (by rw [ht]; decide), hcur, pcNext_frames ht hf]
  rfl

/-! ## RET -/

/-- A word of a spilled frame, read back. -/
def readBack (k : Nat) (p : Option (List Word) × State) (i : Nat) : Option (List Word) × State :=
  match p.1 with
  | none => p
  | some ws => match p.2.bankReadWord (p.2.spillAddr k i) with
    | (.ok w, s) => (some (ws ++ [w]), s)
    | (.error _, s) => (none, s)

/-- The words of a spilled frame with no error are read back as they stand. -/
theorem foldl_readBack (k n : Nat) (h : ∀ i, i < n →
    (s.bank (bankOf (s.spillAddr k i))).st = .on ∧ cellRead 0 s.mem.errs (s.spillAddr k i) = 0) :
    ∃ t, (List.range n).foldl (readBack k) (some [], s) = (some ((List.range n).map fun i => s.bankData (s.spillAddr k i)), t) ∧
      t.unmarked = s.unmarked := by
  induction n with
  | zero => exact ⟨s, rfl, rfl⟩
  | succ n ih =>
    obtain ⟨t, hfold, hun⟩ := ih fun i hi => h i (by omega)
    obtain ⟨hon, herr⟩ := h n (Nat.lt_succ_self n)
    have hme : t.me = s.me := congrArg (·.me) hun
    have haddr : t.spillAddr k n = s.spillAddr k n := by
      unfold spillAddr
      rw [hme]
    refine ⟨t.markSaved (s.spillAddr k n), ?_, (unmarked_markSaved t _).trans hun⟩
    rw [List.range_succ, List.foldl_append, hfold]
    show readBack k (some _, t) n = _
    unfold readBack
    dsimp only
    rw [haddr, bankReadWord_clean ((st_of_unmarked hun _).trans hon) ((congrArg (cellRead 0 · _) (errs_of_unmarked hun)).trans herr),
      bankData_of_unmarked hun, List.map_append]
    rfl

/-- What the words read back end in: the frame in its window, or the engine fenced. -/
def refilled (k : Nat) (r : Option (List Word) × State) : State :=
  match r.1 with
  | none => r.2.meFence 3
  | some ws => r.2.modMe fun m =>
      { m with frames := [{ Frame.ofRecord ws m.below with uid := m.nextUid }], spilled := k, nextUid := m.nextUid + 1 }

/-- The engine with the newest spilled frame back in the window below the one that closed. -/
theorem fillWindow_reads {k : Nat} (hf : s.me.frames = []) (hk : s.me.spilled = k + 1) (h : ∀ i, i < 16 →
    (s.bank (bankOf (s.spillAddr k i))).st = .on ∧ cellRead 0 s.mem.errs (s.spillAddr k i) = 0) :
    ∃ t : State, t.unmarked = s.unmarked ∧ s.fillWindow = t.modMe fun m =>
      { m with
        frames := [{ Frame.ofRecord ((List.range 16).map fun i => s.bankData (s.spillAddr k i)) m.below with uid := m.nextUid }]
        spilled := k, nextUid := m.nextUid + 1 } := by
  obtain ⟨t, hfold, hun⟩ := foldl_readBack k 16 h
  refine ⟨t, hun, ?_⟩
  unfold fillWindow
  rw [if_neg fun hc => hc.elim (fun h => h hf) fun h => by omega]
  have hk' : s.me.spilled - 1 = k := by omega
  rw [hk']
  refine (show _ = refilled k ((List.range 16).foldl (readBack k) (some [], s)) from rfl).trans ?_
  rw [hfold]
  rfl

/-- The words read back, in their order. -/
theorem getD_words (f : Nat → Word) {i : Nat} (h : i < 16) : ((List.range 16).map f).getD i 0 = f i := by
  rw [List.getD_eq_getElem?_getD, List.getElem?_map, List.getElem?_range h]
  rfl

theorem at_ofFn {α : Type} {n : Nat} (f : Fin n → α) (i : Fin n) : at_ (Vector.ofFn f) i = f i := Vector.getElem_ofFn _

theorem meRet_called (ht : s.inTrap = false) (hf : s.me.frames = cur :: rest) (hc : cur.called = true) : s.meRet =
    ((s.modMe fun m => { m with frames := rest, below := prevWin cur.win }).pruneResults).fillWindow := by
  unfold meRet
  rw [ht, hf]
  exact if_neg (by rw [hc]; decide)

/-! ## YIELD -/

theorem closeDispatch_opened (hf : s.me.frames = cur :: rest) (hc : cur.called = false) : s.closeDispatch maxFrames =
    s.modMe fun m => { m with frames := rest, below := prevWin cur.win } := by
  show s.closeDispatch (270 + 1) = _
  unfold closeDispatch
  rw [hf]
  exact if_neg (by rw [hc]; decide)

/-- Selection with nothing READY: the program below goes on, or the engine is idle. -/
theorem selectNext_none (hst : s.me.st ≠ .fenced) (hst' : s.me.st ≠ .stopped) (hcand : s.readyCand 0 = none)
    (hb : s.me.frames ≠ [] ∨ s.me.spilled = 0) : s.selectNext =
      s.pruneResults.modMe fun m => { m with st := if s.me.frames = [] then .idle else .running } := by
  unfold selectNext
  rw [if_neg fun hc => hc.elim hst hst']
  dsimp only
  rw [show (s.pruneResults.modMe fun m => { m with st := .idle }).readyCand 0 = none from hcand, ite_self]
  by_cases hf : s.me.frames = []
  · have hsus : (s.pruneResults.modMe fun m => { m with st := .idle }).suspendedPri = none := by
      unfold suspendedPri
      rw [show (s.pruneResults.modMe fun m => { m with st := .idle }).me.frames = s.me.frames from rfl, hf]
      exact if_pos (hb.resolve_left fun h => h hf)
    rw [hsus, if_pos hf]
  · obtain ⟨x, l, hx⟩ := List.exists_cons_of_ne_nil hf
    have hsus : (s.pruneResults.modMe fun m => { m with st := .idle }).suspendedPri = some x.pri := by
      unfold suspendedPri
      rw [show (s.pruneResults.modMe fun m => { m with st := .idle }).me.frames = s.me.frames from rfl, hx]
    have hfill : (s.pruneResults.modMe fun m => { m with st := .idle }).fillWindow =
        s.pruneResults.modMe fun m => { m with st := .idle } := if_pos (.inl hf)
    rw [hsus, if_neg hf]
    dsimp only
    rw [hfill]
    exact if_neg fun h => nomatch (h : MeState.idle = MeState.fenced)

/-- An engine that can issue is neither fenced nor stopped. -/
theorem meCan_live (h : s.meCan = true) : s.me.st ≠ .fenced ∧ s.me.st ≠ .stopped := by
  unfold meCan at h
  cases ht : s.me.trapWin with
  | some x =>
    rw [ht] at h
    simp only [Bool.and_eq_true, beq_iff_eq] at h
    rw [h.2]
    exact ⟨nofun, nofun⟩
  | none =>
    rw [ht] at h
    simp only [Bool.and_eq_true, beq_iff_eq] at h
    rw [h.2.1]
    exact ⟨nofun, nofun⟩

/-- The engine whose dispatch, with its handler, has ended. -/
def yielded (s : State) (cur : Frame) (rest : List Frame) : State := s.modMe fun m =>
  { m with frames := rest, below := prevWin cur.win, trapWin := none, trapLive := if s.inTrap then false else s.me.trapLive }

theorem meYield_eq (hlive : s.inTrap = true → s.me.trapLive = true) (hf : s.me.frames = cur :: rest) (hc : cur.called = false) :
    s.meYield = (s.yielded cur rest).selectNext := by
  unfold meYield yielded
  by_cases ht : s.inTrap = true
  · rw [if_pos ht, if_pos ht]
    dsimp only
    rw [if_pos (hlive ht), closeDispatch_opened (s := s.modMe fun m => { m with trapWin := none, trapLive := false }) hf hc]
    rfl
  · rw [if_neg ht, if_neg ht]
    unfold endDispatch
    rw [closeDispatch_opened hf hc]
    unfold modMe
    dsimp only
    rw [trapWin_of_inTrap (Bool.eq_false_iff.2 ht)]

end State
open State

/-- Settles O40: jumps and NOP by `retires_jump` and `retires_next`; CALL by the two ways a window opens; RET by
`meRet_called` and `fillWindow_reads`; YIELD by `closeDispatch_opened` and `selectNext_none`. -/
theorem controlFlowInstructions : Obligations.ControlFlowInstructions := by
  unfold Obligations.ControlFlowInstructions
  intro s cond ra target f taken next
  refine ⟨fun h _ => ?_, fun h => retires_jump h rfl rfl, fun h => retires_next h rfl rfl, fun cur rest h ht hf => ?_,
    fun cur below rest h ht hf hc => ?_, fun cur k h ht hf hc hk hsound => ?_, fun cur rest h htrap hf hc hcand hrest => ?_⟩
  · have hcond : condHolds cond s.flags = taken := condHolds_eq cond s.flags
    by_cases hb : taken = true
    · rw [if_pos hb]
      exact retires_jump h rfl (if_pos (hcond.trans hb))
    · rw [if_neg hb]
      exact retires_next h rfl (if_neg (by rw [hcond]; exact hb))
  · intro opens
    have hcall := meCall_eq (target := target) ht hf
    refine ⟨fun hlen => ?_, fun hlen hcan hcap hon => ?_⟩
    · refine h.completes rfl (hcall.trans (openWindow_frames rfl hlen)) ⟨⟨calledFrame s cur target, rfl, rfl, rfl, rfl, rfl, rfl, rfl, ?_⟩, rfl⟩
        ((only_modMe s _).both (only_modMe _ _))
      rw [if_pos hlen]
      rfl
    · obtain ⟨oldest, hold⟩ : ∃ oldest, rest.getLast? = some oldest := by
        cases hl : rest.getLast? with
        | some x => exact ⟨x, rfl⟩
        | none => rw [List.getLast?_eq_none_iff.1 hl] at hlen; exact absurd hlen (by decide)
      refine h.completes rfl (hcall.trans (openWindow_spills rfl hlen hold hcap hon))
        ⟨⟨calledFrame s cur target, rfl, rfl, rfl, rfl, rfl, rfl, rfl, ?_⟩, rfl, fun i old ho => ?_⟩
        ((((only_modMe s _).widen (by decide)).also (only_putRecord _ _ _) (by decide)).also (only_modMe _ _) (by decide))
      · rw [if_neg (by omega)]
        rfl
      · obtain rfl : oldest = old := Option.some.inj (hold.symm.trans ho)
        refine (bankData_modMe _ _ _).trans (bankData_putRecord ?_ s.me.spilled oldest.record i)
        exact hcan
  · refine h.completes rfl ((meRet_called ht hf hc).trans (if_pos (.inl (List.cons_ne_nil _ _)))) ⟨rfl, rfl⟩
      ((only_modMe s _).both (only_modMe _ _))
  · obtain ⟨t, hun, hfill⟩ := fillWindow_reads
      (s := (s.modMe fun m => { m with frames := [], below := prevWin cur.win }).pruneResults) (k := k) rfl hk
      fun i hi => hsound ⟨i, hi⟩
    have hdata : ∀ q, t.bankData q = s.bankData q := fun q => bankData_of_unmarked hun q
    refine h.completes rfl ((meRet_called ht hf hc).trans hfill) ⟨hdata, rfl, _, rfl, fun i => ?_, rfl, ?_⟩
      (((((only_modMe s _).both (only_modMe _ _)).widen (by decide)).also (only_of_unmarked hun) (by decide)).also
        (only_modMe _ _) (by decide))
    · show at_ (Vector.ofFn fun j : Fin 8 => ((List.range 16).map fun i => s.bankData (s.spillAddr k i)).getD j.val 0) i = _
      rw [at_ofFn]
      exact getD_words _ (Nat.lt_trans i.isLt (by decide))
    · refine (BitVec.toNat_ofNat _ 13).trans ((Nat.mod_eq_of_lt (fld_lt _ 12 0)).trans ?_)
      show _ / 2 ^ 0 % 2 ^ 13 = _
      rw [pow_zero, Nat.div_one, getD_words _ (by decide)]
      rfl
  · obtain ⟨hfen, hstop⟩ := meCan_live h.2.1
    have hlive : s.inTrap = true → s.me.trapLive = true := fun hin => htrap.resolve_left (by rw [hin]; decide)
    have hsel := selectNext_none (s := s.yielded cur rest) hfen hstop hcand hrest
    exact h.completes rfl ((meYield_eq hlive hf hc).trans hsel) ⟨rfl, rfl, rfl, rfl⟩
      (((only_modMe s _).both (only_modMe _ _)).both (only_modMe _ _))

end Sys2Proof.Machine
end

section
/-!
# Held requests that leave the engine, and the Timetable's answers (07 R296; 08 R317, R334, R335, R341, R342, R344)
-/
namespace Sys2Proof.Machine
namespace State
variable {s t : State} {r : MeReq} {rest : List MeReq} {w : Word}

/-! ## The oldest request -/

/-- The engine without its oldest request. -/
def requestTaken (s : State) (rest : List MeReq) : State := s.modMe fun m => { m with outbox := rest }

theorem meRelease_none (h : s.me.outbox = []) : s.meRelease = s := by
  unfold meRelease
  rw [h]

theorem meRelease_takes (h : s.me.outbox = r :: rest) (hs : s.reqShut r = false) :
    s.meRelease = (s.requestTaken rest).doRequest r := by
  unfold meRelease
  rw [h]
  exact if_neg (by rw [hs]; decide)

theorem only_requestTaken (s : State) (rest : List MeReq) : OnlyChanges [.me] s (s.requestTaken rest) := only_modMe s _

/-- A store leaves for its bank. -/
theorem doStore_bank {o : Fin 256} {a p : Nat} (ha : isMemAddr a = true) (hr : s.resolve a = some p)
    (hst : (s.bank (bankOf p)).st = .on) (d : Word) : s.doStore o a 2 d = s.bankPut p d := by
  unfold doStore
  rw [if_pos ha, memWrite_word hr hst]

/-! ## Insertions -/

/-- The answer that goes on its way to RD. -/
theorem results_putResult (uid : Nat) (rd : Fin 16) (status handle : Nat) :
    (s.putResult uid rd status handle).me.results =
      s.me.results ++ [{ uid := uid, rd := rd, value := .ofNat 32 (status * 2 ^ 28 + handle) }] := by
  have hv : packw [(status, 28), (handle, 0)] = .ofNat 32 (status * 2 ^ 28 + handle) := by
    rw [packw_eq, packNumber_cons, packNumber_cons, packNumber_nil, pow_zero, Nat.mul_one, Nat.zero_add]
  show s.me.results ++ [_] = _
  rw [hv]

theorem only_putResult (s : State) (uid : Nat) (rd : Fin 16) (status handle : Nat) :
    OnlyChanges [.me] s (s.putResult uid rd status handle) := only_modMe s _

variable {res : Bool} {lo hi arg ctl : Word}

theorem schedInsert_refused (h : s.keyStatus hi ctl ≠ iOK) :
    s.schedInsert res lo hi arg ctl = (s.keyStatus hi ctl, 0, s) := if_pos h

theorem mem_freeHandles {a b h : Nat} : h ∈ s.freeHandles a b ↔ a ≤ h ∧ h < b ∧ (s.calEntry h).st = .free := by
  unfold freeHandles
  rw [List.mem_filter, List.mem_map]
  constructor
  · rintro ⟨⟨k, hk, rfl⟩, hfree⟩
    exact ⟨by omega, by have := List.mem_range.1 hk; omega, by simpa using hfree⟩
  · rintro ⟨hle, hlt, hfree⟩
    exact ⟨⟨h - a, List.mem_range.2 (by omega), by omega⟩, by simpa using hfree⟩

theorem freeHandles_ne_nil (hfree : ∃ h, h < 1016 ∧ (s.calEntry h).st = .free) : s.freeHandles 0 1016 ≠ [] := by
  obtain ⟨h, hlt, hst⟩ := hfree
  exact List.ne_nil_of_mem (mem_freeHandles.2 ⟨Nat.zero_le h, hlt, hst⟩)

theorem schedInsert_quota (hk : s.keyStatus hi ctl = iOK) (hfree : ∃ h, h < 1016 ∧ (s.calEntry h).st = .free)
    (hq : s.overQuota (Fin.ofNat 256 (fld ctl 7 0)) = true) :
    s.schedInsert res lo hi arg ctl = (iQUOTA, 0, s.ttFlag tFULL) := by
  unfold schedInsert
  dsimp only
  rw [if_neg (not_not.2 hk), if_pos (freeHandles_ne_nil hfree), if_pos hq]

/-- The state with an ordinary entry taken, which may have been the last. -/
def schedTaken (s : State) (h : Nat) (lo hi arg ctl : Word) (last : Option Nat) : State :=
  (s.free.2.setCal h (s.free.2.newEntry (wide hi lo) arg ctl (Fin.ofNat 256 (fld ctl 7 0)))).modCyc
    fun c => { c with lastFree := if (s.freeHandles 0 1016).length = 1 then last else c.lastFree }

theorem getD_mem {l : List Nat} (hne : l ≠ []) (n : Nat) : l.getD (n % l.length) 0 ∈ l := by
  have hlt : n % l.length < l.length := Nat.mod_lt _ (List.length_pos_iff.2 hne)
  rw [List.getD_eq_getElem?_getD, List.getElem?_eq_getElem hlt]
  exact List.getElem_mem hlt

theorem schedInsert_takes (hk : s.keyStatus hi ctl = iOK) (hfree : ∃ h, h < 1016 ∧ (s.calEntry h).st = .free)
    (hq : s.overQuota (Fin.ofNat 256 (fld ctl 7 0)) = false) : ∃ h, h < 1016 ∧ (s.calEntry h).st = .free ∧
      s.schedInsert res lo hi arg ctl = (iOK, h, s.schedTaken h lo hi arg ctl (some h)) := by
  have hne := freeHandles_ne_nil hfree
  have hmem := getD_mem hne s.free.1.toNat
  obtain ⟨-, hlt, hst⟩ := mem_freeHandles.1 hmem
  refine ⟨(s.freeHandles 0 1016).getD (s.free.1.toNat % (s.freeHandles 0 1016).length) 0, hlt, hst, ?_⟩
  unfold schedInsert schedTaken
  dsimp only
  rw [if_neg (not_not.2 hk), if_pos hne, if_neg (Bool.eq_false_iff.1 hq)]

theorem only_schedTaken (s : State) (h : Nat) (last : Option Nat) :
    OnlyChanges [.tt, .freeCtr] s (s.schedTaken h lo hi arg ctl last) :=
  (((only_free s).widen (by decide)).also (only_setCal _ h _) (by decide)).both (only_modCyc _ _ _)

theorem calEntry_modCyc (s : State) (f : Cycle → Cycle) (k : Nat) : (s.modCyc f).calEntry k = s.calEntry k := rfl

theorem calEntry_schedTaken (hcan : cellWf {} s.tt.cal = true) (h k : Nat) (last : Option Nat) :
    (s.schedTaken h lo hi arg ctl last).calEntry k =
      if k = h then s.free.2.newEntry (wide hi lo) arg ctl (Fin.ofNat 256 (fld ctl 7 0)) else s.calEntry k :=
  (calEntry_modCyc _ _ _).trans (calEntry_setCal (s := s.free.2) hcan h k _)

/-- A request of the Timetable takes its answer with it. -/
theorem doRequest_sched {o : Fin 256} {w0 : Bool} {uid : Nat} {rd : Fin 16} {status h : Nat}
    (hx : s.schedInsert (decide (o = 0) || w0) lo hi arg ctl = (status, h, t)) :
    s.doRequest (.sched o w0 uid rd lo hi arg ctl) = t.putResult uid rd status h := by
  show (s.schedInsert (decide (o = 0) || w0) lo hi arg ctl).2.2.putResult uid rd _ _ = _
  rw [hx]

/-! ## Answers -/

/-- A frame whose window asked for r, with the answer in its register. -/
def answerIn (r : MeResult) (f : Frame) : Frame :=
  if h : ¬ r.rd.val < 8 then
    if f.uid = r.uid then { f with w := vset f.w ⟨r.rd.val - 8, by omega⟩ fun _ => r.value } else f
  else f

theorem answerIn_shell (r : MeResult) (f : Frame) : (answerIn r f).shell = f.shell ∧ (answerIn r f).pc = f.pc ∧
    (answerIn r f).flags = f.flags := by
  unfold answerIn
  split
  · split <;> exact ⟨rfl, rfl, rfl⟩
  · exact ⟨rfl, rfl, rfl⟩

theorem answerIn_w (r : MeResult) (f : Frame) (j : Fin 8) :
    at_ (answerIn r f).w j = if f.uid = r.uid ∧ j.val + 8 = r.rd.val then r.value else at_ f.w j := by
  have hj := j.isLt
  have hr := r.rd.isLt
  unfold answerIn
  split
  · next hw =>
    split
    · next hu =>
      refine (at_vset f.w _ j _).trans ?_
      by_cases heq : j.val + 8 = r.rd.val
      · rw [if_pos (Fin.ext (by show r.rd.val - 8 = j.val; omega)), if_pos ⟨hu, heq⟩]
      · rw [if_neg fun hc => heq (by have : r.rd.val - 8 = j.val := congrArg Fin.val hc; omega), if_neg fun hc => heq hc.2]
    · next hu => rw [if_neg fun hc => hu hc.1]
  · next hw => rw [if_neg fun hc => hw (by omega)]

/-- The engine once the oldest answer r is written. -/
def answerWritten (m : MicroEngine) (r : MeResult) (more : List MeResult) : MicroEngine :=
  let live := m.frames.any (fun f => decide (f.uid = r.uid)) || m.trapWin.any fun f => decide (f.uid = r.uid)
  { m with results := more, frames := m.frames.map (answerIn r), trapWin := m.trapWin.map (answerIn r)
           g := if h : r.rd.val < 8 then (if live then vset m.g ⟨r.rd.val, h⟩ fun _ => r.value else m.g) else m.g }

theorem meResult_none (h : s.me.results = []) : s.meResult = s := by
  unfold meResult
  rw [h]

theorem meResult_writes {r : MeResult} {more : List MeResult} (h : s.me.results = r :: more) :
    s.meResult = s.modMe fun m => answerWritten m r more := by
  unfold meResult
  rw [h]
  rfl

theorem answerWritten_g {m : MicroEngine} {r : MeResult} {more : List MeResult} (j : Fin 8)
    (hlive : ∃ f, (f ∈ m.frames ∨ m.trapWin = some f) ∧ f.uid = r.uid) :
    at_ (answerWritten m r more).g j = if j.val = r.rd.val then r.value else at_ m.g j := by
  obtain ⟨f, hf, hu⟩ := hlive
  have hl : (m.frames.any (fun f => decide (f.uid = r.uid)) || m.trapWin.any fun f => decide (f.uid = r.uid)) = true := by
    rw [Bool.or_eq_true]
    refine hf.imp (fun hm => List.any_eq_true.2 ⟨f, hm, decide_eq_true hu⟩) fun ht => ?_
    rw [ht]
    exact decide_eq_true hu
  unfold answerWritten
  dsimp only
  rw [hl]
  simp only [↓reduceIte]
  split
  · next hr =>
    refine (at_vset m.g _ j _).trans ?_
    by_cases heq : j.val = r.rd.val
    · rw [if_pos (Fin.ext heq.symm), if_pos heq]
    · rw [if_neg fun hc => heq (congrArg Fin.val hc).symm, if_neg heq]
  · next hr => rw [if_neg fun heq : j.val = r.rd.val => hr (heq ▸ j.isLt)]

end State
open State

/-- Settles O42: the oldest request leaves (`meRelease_takes`) for its effect; an insertion by the cases of `schedInsert`; an
answer by `meResult_writes`. -/
theorem heldRequestsTakeEffect : Obligations.HeldRequestsTakeEffect := by
  unfold Obligations.HeldRequestsTakeEffect
  intro s rest hup ⟨hcan, _⟩ hmem left
  have hrel : exec .requestRelease s = .next (s.whenUp s.pwr.pdUp fun s => s.meRelease) := rfl
  have hres : exec .schedResult s = .next (s.whenUp s.pwr.pdUp fun s => s.meResult) := rfl
  have htake : OnlyChanges [.me] s (s.requestTaken rest) := only_requestTaken s rest
  refine ⟨fun hout => completes_unchanged hrel (meRelease_none hout), fun o a d p hout ha hr hst hrecov => ?_, fun n hout => ?_,
    fun o cl a b hout => ?_, fun o w0 uid rd lo hi arg ctl hout => ?_, fun o w0 uid rd h hout => ?_, fun hno => completes_unchanged hres (meResult_none hno),
    fun r more hout => ?_⟩
  · have hshut : s.reqShut (.store o a 2 d) = false := by
      show s.bankShut a.toNat = false
      unfold bankShut
      rw [hr]
      dsimp only
      rw [hst, hrecov]
      rfl
    have hput := stores_bankPut (s := s.requestTaken rest) hmem p d
    exact completes_to hrel hup ((meRelease_takes hout hshut).trans (doStore_bank (s := s.requestTaken rest) ha hr hst d))
      ⟨congrArg MicroEngine.outbox (only_bankPut (s.requestTaken rest) p d .me (by decide)), hput.bankData,
        fun q hq => hput.bankData_apart hq⟩ ((htake.widen (by decide)).also (only_bankPut _ p d) (by decide))
  · refine completes_to hrel hup (meRelease_takes hout rfl) ⟨rfl, fun k => ?_⟩
      (htake.both ((only_modMe _ _).both (only_hwSet _ _ _ _)))
    exact (bit_or s.me.sig (oneBit 8 n.val) k).trans (by rw [bit_oneBit n.isLt])
  · refine completes_to hrel hup (meRelease_takes hout rfl)
      ⟨rfl, { w0 := eventWord0 (s.client cl).seq.toNat o.val false 0x01, w1 := a, w2 := b, w3 := lo32 s.tb }, rfl, rfl, rfl, rfl, ?_⟩
      ((htake.widen (by decide)).also (only_post _ _ _ _ _ _ _ _ _) (by decide))
    have hseq := (s.client cl).seq.isLt
    have hown := o.isLt
    show (eventWord0 _ _ _ _).toNat = _
    rw [eventWord0, packw_eq, BitVec.toNat_ofNat]
    simp only [packNumber_cons, packNumber_nil]
    rw [show b2n false = 0 from rfl]
    omega
  · intro back
    refine ⟨fun hk => ?_, fun hk hfree => ⟨fun hq => ?_, fun hq => ?_⟩⟩
    · exact completes_to hrel hup ((meRelease_takes hout rfl).trans (doRequest_sched (s := s.requestTaken rest)
          (schedInsert_refused (s := s.requestTaken rest) hk))) ⟨rfl, (results_putResult uid rd (s.keyStatus hi ctl) 0).trans (by rw [Nat.add_zero]; rfl)⟩
        (htake.both (only_putResult _ _ _ _ _))
    · have hx := schedInsert_quota (s := s.requestTaken rest) (res := decide (o = 0) || w0) (lo := lo) (arg := arg) hk hfree hq
      refine completes_to hrel hup ((meRelease_takes hout rfl).trans (doRequest_sched (s := s.requestTaken rest) hx))
        ⟨⟨rfl, (results_putResult uid rd iQUOTA 0).trans ?_⟩, rfl, ?_⟩
        (((htake.widen (by decide)).also (only_ttFlag _ _) (by decide)).also (only_putResult _ _ _ _ _) (by decide))
      · norm_num [iQUOTA]
        exact ⟨rfl, rfl⟩
      exact (bit_or s.tt.flag tFULL 0).trans (by rw [show bit tFULL 0 = true by decide, Bool.or_true])
    · obtain ⟨h, hlt, hst, hx⟩ := schedInsert_takes (s := s.requestTaken rest) (res := decide (o = 0) || w0) (lo := lo) (arg := arg)
        hk hfree hq
      have hread := calEntry_schedTaken (s := s.requestTaken rest) (lo := lo) (hi := hi) (arg := arg) (ctl := ctl) hcan h
      have hself := (hread h (some h)).trans (if_pos rfl)
      refine completes_to hrel hup ((meRelease_takes hout rfl).trans (doRequest_sched (s := s.requestTaken rest) hx))
        ⟨h, hlt, hst, ⟨rfl, ?_⟩, (congrArg CalEntry.st hself).trans rfl, (congrArg CalEntry.key hself).trans rfl,
          (congrArg CalEntry.arg hself).trans rfl, ?_, fun j hj => (hread j (some h)).trans (if_neg hj)⟩
        (((htake.widen (by decide)).also (only_schedTaken _ h _) (by decide)).also (only_putResult _ _ _ _ _) (by decide))
      · refine (results_putResult uid rd iOK h).trans ?_
        rw [show iOK * 2 ^ 28 + h = h from by rw [iOK]; omega]
        rfl
      · exact (congrArg (·.owner.val) hself).trans (Nat.mod_eq_of_lt (fld_lt ctl 7 0))
  · intro e back
    refine ⟨fun hne hown => ?_, fun hno => ?_⟩
    · have hmay : s.mayCancel o h.toNat = true := by
        simpa [mayCancel, show (s.calEntry h.toNat).st ≠ .free from hne] using hown
      refine completes_to hrel hup ((meRelease_takes hout rfl).trans (if_pos hmay))
        ⟨⟨rfl, results_putResult uid rd iOK h.toNat⟩, ?_⟩
        (((htake.widen (by decide)).also (only_freeEntry _ h.toNat) (by decide)).also (only_putResult _ _ _ _ _) (by decide))
      exact congrArg CalEntry.st ((calEntry_setCal (s := s.requestTaken rest) hcan h.toNat h.toNat _).trans (if_pos rfl))
    · have hmay : s.mayCancel o h.toNat = false := by
        obtain hfree | ⟨h0, hown⟩ := hno
        · simp [mayCancel, show (s.calEntry h.toNat).st = .free from hfree]
        · simp [mayCancel, h0, show (s.calEntry h.toNat).owner ≠ o from hown]
      exact completes_to hrel hup ((meRelease_takes hout rfl).trans (if_neg (Bool.eq_false_iff.1 hmay)))
        ⟨rfl, results_putResult uid rd iGONE h.toNat⟩ (htake.both (only_putResult _ _ _ _ _))
  · refine completes_to hres hup (meResult_writes hout) ⟨rfl, fun j f hf hu => answerWritten_g j ⟨f, hf, hu⟩, fun k f hk => ?_⟩
      (only_modMe s _)
    obtain ⟨hshell, hpc, hfl⟩ := answerIn_shell r f
    exact ⟨answerIn r f, by show (s.me.frames.map (answerIn r))[k]? = _; rw [List.getElem?_map, hk]; rfl, hshell, hpc, hfl,
      answerIn_w r f⟩

end Sys2Proof.Machine
end

section
/-!
# Traps into the handler (07 R291, R292; 08 R314, R321, R326, R333, R342, R343)
-/
namespace Sys2Proof.Machine
namespace State
variable {s t : State} {c : Fin 256} {code : Nat} {addr : Option Word}

/-! ## Client records -/

theorem client_modClient_self (hrecs : cellWf {} s.sc.recs = true) (c : Fin 256) (f : ClientRec → ClientRec) :
    (s.modClient c f).client c = f (s.client c) :=
  (cellRead_write ({} : ClientRec) s.sc.recs c.val c.val _ hrecs).trans (if_pos rfl)

theorem client_of_sc (h : t.sc = s.sc) (c : Fin 256) : t.client c = s.client c := congrArg (fun x : Seating => cellRead ({} : ClientRec) x.recs c.val) h

/-- A fault counted, with the times of the last ones within 1 s. -/
def faultCounted (now : Nat) (r : ClientRec) : ClientRec :=
  { r with faults := satInc r.faults
           faultTimes := ((now :: r.faultTimes).take 8).filter fun t => now - t ≤ 200000000 }

/-- A client that has had few faults, or client 0, is not fenced by one more. -/
def FewFaults (s : State) (c : Fin 256) : Prop := c = 0 ∨ (s.client c).faultTimes.length < 7

theorem countFault_few (hrecs : cellWf {} s.sc.recs = true) (hfew : s.FewFaults c) :
    s.countFault c = s.modClient c (faultCounted s.time) := by
  refine if_neg ?_
  rintro ⟨h0, hge⟩
  have hlt : (s.client c).faultTimes.length < 7 := hfew.resolve_left h0
  have hself := client_modClient_self hrecs c (faultCounted s.time)
  have hlen : (faultCounted s.time (s.client c)).faultTimes.length ≤ (s.client c).faultTimes.length + 1 :=
    (List.length_filter_le _ _).trans (List.length_take_le' _ _)
  have hge' : 8 ≤ ((s.modClient c (faultCounted s.time)).client c).faultTimes.length := hge
  rw [hself] at hge'
  omega

/-! ## The record of a trap -/

/-- The engine with a trap recorded: its code, owner, PC and data address. -/
def trapRecorded (s : State) (code : Nat) (a : Word) : MicroEngine :=
  { s.me with trapCode := .ofNat 4 code, trapOwner := s.meOwner, trapPc := s.pc, trapAddr := a }

theorem recordTrap_some (code : Nat) (a : Word) : s.recordTrap code (some a) = s.modMe fun _ => s.trapRecorded code a := rfl

theorem me_recordTrap : ∃ a, (∀ b, addr = some b → a = b) ∧ (s.recordTrap code addr).me = s.trapRecorded code a := by
  cases addr with
  | none => exact ⟨s.free.1.setWidth 32, nofun, rfl⟩
  | some a => exact ⟨a, fun b h => Option.some.inj h, rfl⟩

theorem sc_recordTrap : (s.recordTrap code addr).sc = s.sc := by cases addr <;> rfl
theorem time_recordTrap : (s.recordTrap code addr).time = s.time := by cases addr <;> rfl

theorem only_recordTrap (s : State) (code : Nat) (addr : Option Word) : OnlyChanges [.me, .freeCtr] s (s.recordTrap code addr) := by
  cases addr with
  | none => exact ((only_free s).widen (by decide)).also (only_modMe _ _) (by decide)
  | some a => exact (only_modMe s _).widen (by decide)

/-- The engine in its handler, with window 0 open at TRAPENTRY. -/
def trapEntered (m : MicroEngine) (code : Nat) (desc : Word) : MicroEngine :=
  { m with
    st := .trap, trapLive := true, nextUid := m.nextUid + 1
    trapWin := some
      { w := #v[.ofNat 32 code, desc, m.trapPc.setWidth 32, m.trapAddr, 0, 0, 0, 0], pc := m.trapEntry, win := 0,
        uid := m.nextUid } }

theorem meTrap_handled (hin : s.inTrap = false) (hen : s.me.hen = true) : s.meTrap code addr =
    ((s.recordTrap code addr).modMe fun m => trapEntered m code (s.curFrame.getD {}).desc).countFault s.meOwner := by
  have hen' : (s.recordTrap code addr).me.hen = true := by
    obtain ⟨a, -, hme⟩ := me_recordTrap (s := s) (code := code) (addr := addr)
    rw [hme]
    exact hen
  unfold meTrap
  dsimp only
  rw [if_neg (by rw [hin]; decide), if_pos hen']
  rfl

/-- A trap outside the handler, with the handler enabled, of an owner with few faults. -/
theorem entersTrap {i : Instr} {f : State → State} (hc : exec i s = .next (s.whenUp s.pwr.pdUp f)) (hup : s.pwr.pdUp = true)
    (hcan : TablesCanonical s) (hin : s.inTrap = false) (hen : s.me.hen = true) (hfew : s.FewFaults s.meOwner)
    (hx : f s = s.meTrap code addr) (hcode : code < 16) : EntersTrap i s code addr := by
  obtain ⟨-, hrecs, -⟩ := hcan
  obtain ⟨a, haddr, hme⟩ := me_recordTrap (s := s) (code := code) (addr := addr)
  have hsc : ∀ g, ((s.recordTrap code addr).modMe g).sc = s.sc := fun g =>
    sc_recordTrap (code := code) (addr := addr)
  have hclient : ∀ g, ((s.recordTrap code addr).modMe g).client s.meOwner = s.client s.meOwner := fun g => client_of_sc (hsc g) _
  have hcount : s.meTrap code addr =
      ((s.recordTrap code addr).modMe fun m => trapEntered m code (s.curFrame.getD {}).desc).modClient s.meOwner
        (faultCounted s.time) := by
    rw [meTrap_handled hin hen, countFault_few (by rw [hsc]; exact hrecs) (by unfold FewFaults; rw [hclient]; exact hfew)]
    exact congrArg (fun n => State.modClient _ _ (faultCounted n)) (time_recordTrap (code := code) (addr := addr))
  have hself := client_modClient_self (s := (s.recordTrap code addr).modMe fun m => trapEntered m code (s.curFrame.getD {}).desc)
    (by rw [hsc]; exact hrecs) s.meOwner (faultCounted s.time)
  rw [hclient] at hself
  have hfin : (((s.recordTrap code addr).modMe fun m => trapEntered m code (s.curFrame.getD {}).desc).modClient s.meOwner
      (faultCounted s.time)).me = trapEntered (s.trapRecorded code a) code (s.curFrame.getD {}).desc :=
    congrArg (fun m => trapEntered m code (s.curFrame.getD {}).desc) hme
  refine completes_to hc hup (hx.trans hcount) ?_
    ((((only_recordTrap s code addr).widen (by decide)).also (only_modMe _ _) (by decide)).also (only_modClient _ _ _) (by decide))
  rw [hfin, hself]
  exact ⟨(BitVec.toNat_ofNat code 4).trans (Nat.mod_eq_of_lt hcode), rfl, rfl, haddr, rfl, rfl, rfl, rfl, rfl, rfl, _, rfl, rfl,
    rfl, rfl, rfl⟩

end State
end Sys2Proof.Machine
end

section
/-!
# Fences of the microengine, and its traps one by one (07 R292, R297, R298; 08 R314, R321, R326, R333, R342, R343)
-/
namespace Sys2Proof.Machine
namespace State
variable {s t u : State}

/-! ## The calendar over a fence -/

/-- The entries freed one by one are FREE, and the others as they were. -/
theorem foldl_freeEntry (l : List (Nat × CalEntry)) : ∀ {s : State}, cellWf {} s.tt.cal = true →
    (∀ k, (s.calEntry k).st = .free → ((l.foldl (fun s p => s.freeEntry p.1) s).calEntry k).st = .free) ∧
    ∀ p ∈ l, ((l.foldl (fun s p => s.freeEntry p.1) s).calEntry p.1).st = .free := by
  induction l with
  | nil => exact fun _ => ⟨fun _ h => h, fun _ h => absurd h List.not_mem_nil⟩
  | cons p l ih =>
    intro s hcan
    have hread : ∀ k, (s.freeEntry p.1).calEntry k = if k = p.1 then (s.calEntry p.1).freed else s.calEntry k := fun k =>
      calEntry_setCal hcan p.1 k _
    have hstay : ∀ k, k = p.1 ∨ (s.calEntry k).st = .free → ((s.freeEntry p.1).calEntry k).st = .free := fun k hk => by
      rw [hread]
      split
      · rfl
      · next hne => exact hk.resolve_left hne
    obtain ⟨hkeep, hfree⟩ := ih (s := s.freeEntry p.1) (cellWf_write ({} : CalEntry) _ _ _ hcan)
    refine ⟨fun k hk => hkeep k (hstay k (.inr hk)), fun q hq => ?_⟩
    obtain rfl | hq := List.mem_cons.1 hq
    · exact hkeep q.1 (hstay q.1 (.inl rfl))
    · exact hfree q hq

/-- Every live entry goes. -/
theorem calEntry_allFreed (hcan : cellWf {} s.tt.cal = true) (k : Nat) :
    (((s.tt.cal.filter fun p => decide (p.2.st ≠ .free)).foldl (fun s p => s.freeEntry p.1) s).calEntry k).st = .free := by
  obtain ⟨hkeep, hfree⟩ := foldl_freeEntry (s.tt.cal.filter fun p => decide (p.2.st ≠ .free)) hcan
  by_cases hk : (s.calEntry k).st = .free
  · exact hkeep k hk
  · exact hfree (k, s.calEntry k) (List.mem_filter.2 ⟨mem_of_calEntry hk, decide_eq_true hk⟩)

theorem cal_dropAllRequests (s : State) : s.dropAllRequests.tt.cal = s.tt.cal := by
  refine foldl_invariant (P := fun t : State => t.tt.cal = s.tt.cal) (fun t r ht => ?_) s.tt.reqs rfl
  cases hr : r.src <;> exact ht

theorem cal_foldFin {n : Nat} {f : Fin n → State → State} {ps : List Part} (h : ∀ i s, OnlyChanges ps s (f i s)) (hp : Part.tt ∉ ps)
    (s : State) : (foldFin n f s).tt = s.tt := (OnlyChanges.foldFin h s) .tt hp

theorem me_foldFin {n : Nat} {f : Fin n → State → State} {ps : List Part} (h : ∀ i s, OnlyChanges ps s (f i s)) (hp : Part.me ∉ ps)
    (s : State) : (foldFin n f s).me = s.me := (OnlyChanges.foldFin h s) .me hp

theorem calEntry_bulkCancel (hcan : cellWf {} s.tt.cal = true) (reason k : Nat) : ((s.bulkCancel reason).calEntry k).st = .free := by
  have hcal : (s.bulkCancel reason).tt.cal =
      ((s.tt.cal.filter fun p => decide (p.2.st ≠ .free)).foldl (fun s p => s.freeEntry p.1) s).tt.cal := by
    unfold bulkCancel
    extract_lets live t u v w
    have hw : w.tt = v.tt := cal_foldFin (ps := [.sc]) (fun _ _ => .ite (.refl _ _) (only_post _ _ _ _ _ _ _ _ _)) (by decide) v
    exact (congrArg Timetable.cal hw).trans (cal_dropAllRequests t)
  have := calEntry_allFreed hcan k
  unfold calEntry at this ⊢
  rwa [hcal]

theorem cal_fenceChan (s : State) (n : Fin 64) (b : BitVec 4) : (s.fenceChan n b).tt.cal = s.tt.cal := by
  unfold fenceChan
  extract_lets t u v w
  have hu : u.tt = s.tt :=
    (((only_modOut s n _).both (only_clearCause t n cREADMIT)).both (only_setCause _ n cFENCE)) .tt (by decide)
  split
  · exact congrArg Timetable.cal hu
  · have hv : v.tt = u.tt := ((only_halt u n).also (only_modChan _ n _) (by decide)) .tt (by decide)
    have hw : w.tt = (v.dropRequest (.chan n)).tt := (only_setCause _ n cHOLD) .tt (by decide)
    have hlast := cal_foldFin (ps := [.chans]) (f := fun m s => if s.isMaster n m && s.linked m then
      (s.modOut m fun o => { o with linkBy := o.linkBy ||| oneBit 64 n.val }).setCause m cLINK else s)
      (fun m s => .ite ((only_modOut s m _).both (only_setCause _ m cLINK)) (.refl _ _)) (by decide) w
    rw [hlast, hw]
    show v.tt.cal = s.tt.cal
    rw [hv, hu]

/-! ## The fence -/

/-- The engine fenced for a cause: nothing runs, nothing is held, and ME_STAT keeps the window and priority it had. -/
def meFenced (s : State) (cause : Nat) : MicroEngine :=
  { s.me with
    st := .fenced, fcause := .ofNat 3 cause, frames := [], trapWin := none, trapLive := false, spilled := 0,
    outbox := [], results := [], keptWin := s.curWin, keptPri := s.curPri }

/-- The fence in its stages, up to its report. -/
def fencedQuiet (s : State) (cause : Nat) : State :=
  foldFin 64 (fun n s => s.fenceChan n fnMe)
    (((s.modMe fun _ => s.meFenced cause).modMem fun m => { m with lock := none }).bulkCancel xMEFENCE)

theorem fencedQuiet_leaves (hcan : cellWf {} s.tt.cal = true) (cause : Nat) :
    (s.fencedQuiet cause).me = s.meFenced cause ∧ ∀ k, ((s.fencedQuiet cause).calEntry k).st = .free := by
  unfold fencedQuiet
  generalize hb : ((s.modMe fun _ => s.meFenced cause).modMem fun m => { m with lock := none }) = b
  have hme : b.me = s.meFenced cause := by subst hb; rfl
  have hwf : cellWf {} b.tt.cal = true := by subst hb; exact hcan
  refine ⟨?_, fun k => ?_⟩
  · have hbulk : (b.bulkCancel xMEFENCE).me = b.me := only_bulkCancel b xMEFENCE .me (by decide)
    exact ((me_foldFin (fun n t => only_fenceChan t n fnMe) (by decide) _).trans hbulk).trans hme
  · have hcal : (foldFin 64 (fun n s => s.fenceChan n fnMe) (b.bulkCancel xMEFENCE)).tt.cal = (b.bulkCancel xMEFENCE).tt.cal :=
      foldl_invariant (P := fun t : State => t.tt.cal = (b.bulkCancel xMEFENCE).tt.cal)
        (fun t n ht => (cal_fenceChan t n fnMe).trans ht) _ rfl
    have := calEntry_bulkCancel hwf xMEFENCE k
    unfold calEntry at this ⊢
    rwa [hcal]

/-- The mechanism that a fence for a cause of the engine's own reports. -/
def fenceMech (cause : Nat) : Nat := if cause = 1 then 1 else if cause = 2 then 2 else 3

theorem meFence_own (hst : s.me.st ≠ .fenced) {cause : Nat} (hlo : 1 ≤ cause) (hhi : cause ≤ 4) :
    s.meFence cause = (s.fencedQuiet cause).report (fenceMech cause) 4 0 0 := by
  unfold meFence fenceMech
  rw [if_neg hst]
  obtain rfl | rfl | rfl | rfl : cause = 1 ∨ cause = 2 ∨ cause = 3 ∨ cause = 4 := by omega
  all_goals rfl

/-- What an engine fenced for a cause of its own leaves (R298). -/
def FencedFor (s t : State) (cause : Nat) : Prop :=
  t.me.st = .fenced ∧ t.me.fcause.toNat = cause ∧ t.me.frames = [] ∧ t.me.trapWin = none ∧ t.me.outbox = [] ∧
  t.me.results = [] ∧ t.me.g = s.me.g ∧ t.me.sig = s.me.sig ∧ (∀ h, (t.calEntry h).st = .free) ∧
  ∃ r ∈ t.reports, r.mech.toNat = fenceMech cause ∧ r.kind.toNat = 4

theorem fencedFor_report {q : State} {cause : Nat} (hhi : cause ≤ 4) (hme : q.me = s.meFenced cause)
    (hcal : ∀ k, (q.calEntry k).st = .free) : FencedFor s (q.report (fenceMech cause) 4 0 0) cause := by
  have hme' : (q.report (fenceMech cause) 4 0 0).me = s.meFenced cause := hme
  unfold FencedFor
  rw [hme']
  refine ⟨rfl, (BitVec.toNat_ofNat cause 3).trans (Nat.mod_eq_of_lt (by omega)), rfl, rfl, rfl, rfl, rfl, rfl, hcal, ?_⟩
  refine ⟨_, List.mem_append_right _ List.mem_cons_self, (BitVec.toNat_ofNat _ 8).trans (Nat.mod_eq_of_lt ?_), rfl⟩
  unfold fenceMech
  split
  · decide
  · split <;> decide

theorem me_report (q : State) (mech kind i d : Nat) : (q.report mech kind i d).me = q.me := rfl

theorem meFence_leaves (hcan : cellWf {} s.tt.cal = true) (hst : s.me.st ≠ .fenced) {cause : Nat} (hlo : 1 ≤ cause)
    (hhi : cause ≤ 4) : (s.meFence cause).me = s.meFenced cause ∧ FencedFor s (s.meFence cause) cause := by
  obtain ⟨hme, hcal⟩ := fencedQuiet_leaves hcan cause
  rw [meFence_own hst hlo hhi]
  exact ⟨(me_report _ _ _ _ _).trans hme, fencedFor_report hhi hme hcal⟩

/-! ## A trap inside the handler -/

variable {code : Nat}

theorem meTrap_nested (hin : s.inTrap = true) (a : Word) : s.meTrap code (some a) =
    ((s.modMe fun _ => s.trapRecorded code a).meFence 4).countFault s.meOwner := by
  unfold meTrap
  dsimp only
  rw [if_pos hin]
  rfl

theorem owner_of_inTrap (hin : s.inTrap = true) : s.meOwner = 0 := by
  unfold meOwner
  cases ht : s.me.trapWin with
  | some x => rfl
  | none => unfold inTrap at hin; rw [ht] at hin; exact nomatch hin

/-- The fault that a trap inside the handler counts is client 0's, which is not fenced for it. -/
theorem countFault_zero (s : State) : s.countFault 0 = s.modClient 0 (faultCounted s.time) := by
  unfold countFault
  dsimp only
  rw [if_neg fun h => h.1 rfl]
  rfl

/-! ## Each access's trap -/

variable {ea data : Word} {size : Nat} {write : Bool}

theorem addrTrap_beyond (h : 2 ^ 20 ≤ ea.toNat) : s.addrTrap ea size write = some trBUS := if_pos (.inl h)

/-- A byte or half-word outside bank memory. -/
theorem addrTrap_part (hsize : size ≠ 2) (h : ea.toNat < 0x20000 ∨ 0x80000 ≤ ea.toNat) :
    s.addrTrap ea size write = some trBUS := by
  have hmem : isMemAddr ea.toNat = false := by
    rw [Bool.eq_false_iff]
    intro hm
    simp only [isMemAddr, Bool.and_eq_true, decide_eq_true_eq] at hm
    omega
  unfold addrTrap
  dsimp only
  split
  · rfl
  · split
    · rfl
    · exact if_pos ⟨hsize, hmem⟩

theorem addrTrap_misaligned (hlo : 0x20000 ≤ ea.toNat) (hhi : ea.toNat < 0x80000) (hal : ea.toNat % 2 ^ size ≠ 0) :
    s.addrTrap ea size write = some trALIGN := by
  have hmem : isMemAddr ea.toNat = true := by simp [isMemAddr, hlo, hhi]
  unfold addrTrap
  dsimp only
  rw [if_neg (by omega), if_neg (by omega), if_neg fun hc => absurd (hc.2.symm.trans hmem) (by decide), if_pos hal]

theorem accessTrap_address {n : Nat} (h : s.addrTrap ea size write = some n) : s.accessTrap ea size write data = some n := by
  unfold accessTrap
  rw [h]

theorem accessTrap_rights (h : s.addrTrap ea size write = none) (hp : s.permits s.meOwner ea.toNat write data = false) :
    s.accessTrap ea size write data = some trRIGHTS := by
  unfold accessTrap
  rw [h]
  exact if_neg (Bool.eq_false_iff.1 hp)

variable {rd ra rb : Fin 16} {imm : BitVec 18}

theorem meLoad_traps {op : LdOp} {n : Nat} (hea : ea = s.reg ra + sext18 imm) (h : s.accessTrap ea op.size false 0 = some n) :
    s.meLoad op rd ra imm = s.meTrap n (some ea) := by
  subst hea
  unfold meLoad
  dsimp only
  rw [h]

theorem meStore_traps {op : StOp} {n : Nat} (hea : ea = s.reg ra + sext18 imm)
    (h : s.accessTrap ea op.size true (s.reg rd) = some n) : s.meStore op rd ra imm = s.meTrap n (some ea) := by
  subst hea
  unfold meStore
  dsimp only
  rw [h]

theorem meAtomBank_beyond {op : AtomOp} (h : 2 ^ 20 ≤ (s.reg ra).toNat) :
    s.meAtomBank op rd ra rb = s.meTrap trBUS (some (s.reg ra)) := by
  have hmem : isMemAddr (s.reg ra).toNat = false := by
    rw [Bool.eq_false_iff]
    intro hm
    simp only [isMemAddr, Bool.and_eq_true, decide_eq_true_eq] at hm
    omega
  unfold meAtomBank
  dsimp only
  rw [if_pos hmem, addrTrap_beyond h]
  rfl

theorem meIllegal_traps (hcan : s.meCan = true) (herr : cellRead 0 s.me.storeErr s.pc.toNat = 0)
    (hdec : meDecode (cellRead 0 s.me.store s.pc.toNat) = none) : s.meIllegal = s.meTrap trILLEGAL none := by
  have hfetch : s.meFetch = (some (cellRead 0 s.me.store s.pc.toNat), s) := by
    unfold meFetch
    dsimp only
    rw [herr]
    rfl
  unfold meIllegal
  rw [if_neg (by rw [hcan]; decide), hfetch]
  exact if_pos hdec

theorem meWatchdog_traps (hcan : s.meCan = true) (hw : s.me.wdog ≠ 0) : s.meWatchdog = s.meTrap trWATCHDOG none :=
  if_pos (by rw [hcan]; simpa using hw)

theorem meSched_other (h0 : s.meOwner ≠ 0) (hown : fld (s.reg (ra + 3)) 7 0 ≠ s.meOwner.val) :
    s.meSched rd ra = s.meTrap trRIGHTS none := if_pos ⟨h0, hown⟩

theorem mePost_other {cl : Fin 256} (h0 : s.meOwner ≠ 0) (hown : cl ≠ s.meOwner) : s.mePost ra rb cl = s.meTrap trRIGHTS none :=
  if_neg fun h => h.elim h0 hown

end State
open State

/-- Settles O43: the traps by `entersTrap`, one inside the handler and a lockstep mismatch by `meFence_leaves`. -/
theorem trapsAndFences : Obligations.TrapsAndFences := by
  unfold Obligations.TrapsAndFences
  intro s code rd ra rb imm cl hcan ea word fenced wild few hup
  have hwild : ∀ {c : Instr} {i : MeInstr} {size : Nat} {write : Bool}, s.inTrap = false → s.me.hen = true → few → s.Issues i →
      exec c s = .next (s.whenUp s.pwr.pdUp fun s => s.meExec i) →
      (∀ n, s.accessTrap ea size write (if write then s.reg rd else 0) = some n → s.meRun i = s.meTrap n (some ea)) →
      wild c size write := by
    intro c i size write hin hen hfew h hc hrun
    have htrap : ∀ n, n < 16 → s.accessTrap ea size write (if write then s.reg rd else 0) = some n →
        EntersTrap c s n (some ea) := fun n hn ha => entersTrap hc hup hcan hin hen hfew (h.meExec.trans (hrun n ha)) hn
    exact ⟨fun hge => htrap trBUS (by decide) (accessTrap_address (addrTrap_beyond hge)),
      fun _ hs hout => htrap trBUS (by decide) (accessTrap_address (addrTrap_part hs hout)),
      fun hlo hhi hal => htrap trALIGN (by decide) (accessTrap_address (addrTrap_misaligned hlo hhi hal)),
      fun ha hp => htrap trRIGHTS (by decide) (accessTrap_rights ha hp)⟩
  refine ⟨fun hin hen hfew => ⟨fun h => ?_, fun hmc herr hdec => ?_, fun hmc hw => ?_, fun op h => ?_, fun op h => ?_,
    fun op h hge => ?_, fun h h0 hown => ?_, fun h h0 hown => ?_⟩, fun hin hfew h => ?_, fun hstop hfen => ?_, fun hoff => ?_⟩
  · exact entersTrap (i := .trap code) rfl hup hcan hin hen hfew h.meExec (by decide)
  · exact entersTrap (i := .illegalInstruction) rfl hup hcan hin hen hfew (meIllegal_traps hmc herr hdec) (by decide)
  · exact entersTrap (i := .watchdogTrap) rfl hup hcan hin hen hfew (meWatchdog_traps hmc hw) (by decide)
  · exact hwild hin hen hfew h (exec_load op rd ra imm s) fun n ha => meLoad_traps rfl ha
  · exact hwild hin hen hfew h (exec_store op rd ra imm s) fun n ha => meStore_traps rfl ha
  · exact entersTrap (exec_atom op false rd ra rb s) hup hcan hin hen hfew (h.meExec.trans (meAtomBank_beyond hge)) (by decide)
  · exact entersTrap (i := .sched rd ra) rfl hup hcan hin hen hfew (h.meExec.trans (meSched_other h0 hown)) (by decide)
  · exact entersTrap (i := .post ra rb cl) rfl hup hcan hin hen hfew (h.meExec.trans (mePost_other h0 hown)) (by decide)
  · have hst : (s.modMe fun _ => s.trapRecorded 7 (code.setWidth 32)).me.st ≠ .fenced := (meCan_live h.2.1).1
    obtain ⟨hme, hleft⟩ := meFence_leaves (s := s.modMe fun _ => s.trapRecorded 7 (code.setWidth 32)) hcan.1 hst
      (cause := 4) (by decide) (by decide)
    have hx := (meTrap_nested (code := 7) hin (code.setWidth 32)).trans (by rw [owner_of_inTrap hin, countFault_zero])
    refine completes_to (c := .trap code) rfl hup (h.meExec.trans hx) ⟨?_, hleft⟩
      ((((only_modMe s _).widen (by decide)).both (only_meFence _ 4)).also (only_modClient _ _ _) (by decide))
    show (State.meFence _ 4).me.trapCode.toNat = 7 ∧ (State.meFence _ 4).me.trapOwner = _ ∧ (State.meFence _ 4).me.trapPc = _ ∧
      (State.meFence _ 4).me.trapAddr = _
    rw [hme]
    exact ⟨rfl, rfl, rfl, rfl⟩
  · obtain ⟨hme, hleft⟩ := meFence_leaves (s := s.modMe fun m => { m with lstep := satInc m.lstep }) hcan.1 hfen
      (cause := 1) (by decide) (by decide)
    exact completes_to (c := .lockstepMismatch) rfl hup (if_neg fun h => h.elim hstop hfen) ⟨congrArg MicroEngine.lstep hme, hleft⟩
      (((only_modMe s _).widen (by decide)).both (only_meFence _ 1))
  · exact completes_unchanged (c := .lockstepMismatch) rfl (if_pos hoff)

end Sys2Proof.Machine
end

section
/-!
# A tick of a pin sequencer (09 R354, R357, R367, R369–R371, R376, R379)
-/
namespace Sys2Proof.Machine

/-! ## Pins an instruction drives -/

/-- Pins driven in turn: each named pin gets its level, and nothing else of the engine changes. -/
theorem foldl_setPin (on high : Nat → Bool) (pin n : Nat) (h : pin + n ≤ 8) (p : PinSeq) : ∃ d : Vector Level 8,
    (List.range n).foldl (fun q i => if on i then q.setPin (pin + i) (high i) else q) p = { p with drive := d } ∧
    ∀ i : Fin 8, at_ d i = if pin ≤ i.val ∧ i.val < pin + n ∧ on (i.val - pin) = true then
      (if high (i.val - pin) then .high else .low) else at_ p.drive i := by
  induction n with
  | zero => exact ⟨p.drive, rfl, fun i => (if_neg fun hc => by omega).symm⟩
  | succ n ih =>
    obtain ⟨d, hfold, hd⟩ := ih (by omega)
    rw [List.range_succ, List.foldl_append, hfold]
    show ∃ d' : Vector Level 8, (if on n then _ else _) = _ ∧ _
    have hpin : (pinIx (pin + n)).val = pin + n := Nat.mod_eq_of_lt (by omega)
    by_cases hon : on n = true
    · refine ⟨vset d (pinIx (pin + n)) fun _ => if high n then .high else .low, if_pos hon, fun i => ?_⟩
      refine (at_vset d _ i _).trans ?_
      by_cases hi : i.val = pin + n
      · have hsub : i.val - pin = n := by omega
        refine (if_pos (Fin.ext (hpin.trans hi.symm))).trans (Eq.symm ?_)
        refine (if_pos ⟨by omega, by omega, by rw [hsub]; exact hon⟩).trans ?_
        rw [hsub]
      · rw [if_neg fun hc => hi ((congrArg Fin.val hc).symm.trans hpin), hd]
        exact if_congr (by constructor <;> rintro ⟨h1, h2, h3⟩ <;> exact ⟨h1, by omega, h3⟩) rfl rfl
    · refine ⟨d, if_neg hon, fun i => (hd i).trans ?_⟩
      by_cases hi : i.val = pin + n
      · have hsub : i.val - pin = n := by omega
        rw [if_neg fun hc => by omega, if_neg fun hc => hon (hsub ▸ hc.2.2)]
      · exact if_congr (by constructor <;> rintro ⟨h1, h2, h3⟩ <;> exact ⟨h1, by omega, h3⟩) rfl rfl

/-- The word that follows the one at PC (R357). -/
def nextPc (p : PinSeq) : BitVec 6 := .ofNat 6 ((p.pc.toNat + 1) % 48)

section
variable {p : PinSeq} {f : Fin 8 → Bool} {w : BitVec 24}

theorem psExec_drive (hop : fld w 18 16 = 0) : ∃ d : Vector Level 8,
    psExec p f w = { p := { p with drive := d, pc := nextPc p } } ∧
    ∀ i : Fin 8, at_ d i = if bit w (8 + i.val) then (if bit w i.val then .high else .low) else at_ p.drive i := by
  obtain ⟨d, hfold, hd⟩ := foldl_setPin (fun i => bit w (8 + i)) (fun i => bit w i) 0 8 (by omega) p
  refine ⟨d, ?_, fun i => (hd i).trans ?_⟩
  · have hzero : (List.range 8).foldl (fun q i => if bit w (8 + i) then q.setPin i (bit w i) else q) p = { p with drive := d } := by
      simpa only [Nat.zero_add] using hfold
    unfold psExec
    rw [hop]
    dsimp only
    rw [if_pos rfl, hzero]
    rfl
  · simp only [Nat.sub_zero]
    exact if_congr ⟨fun h => h.2.2, fun h => ⟨Nat.zero_le _, by omega, h⟩⟩ rfl rfl

theorem psExec_float (hop : fld w 18 16 = 1) : psExec p f w = { p := { p with
    drive := Vector.ofFn fun i : Fin 8 => if bit w (8 + i.val) then .released else at_ p.drive i, pc := nextPc p } } := by
  unfold psExec
  rw [hop]
  rfl

/-- Bits to send, while OW holds enough of them. -/
theorem bits_held {n : Nat} (h : n ≤ p.orr) :
    p.bits n = ({ p with ow := p.ow <<< n, orr := p.orr - n }, some (p.ow.toNat / 2 ^ (32 - n))) := if_pos h

theorem bits_none {n : Nat} (h : p.orr < n) (htx : p.tx = []) : p.bits n = ({ p with orr := 0 }, none) := by
  unfold PinSeq.bits
  dsimp only
  rw [if_neg (by omega), htx]

/-- Bit N − 1 − i of the N bits at the top of OW. -/
theorem sent_bit (ow : Word) {n i : Nat} (hn : n ≤ 32) (hi : i < n) :
    decide (ow.toNat / 2 ^ (32 - n) / 2 ^ (n - 1 - i) % 2 = 1) = ow.getLsbD (31 - i) := by
  rw [Nat.div_div_eq_div_mul, ← pow_add, show 32 - n + (n - 1 - i) = 31 - i by omega, BitVec.getLsbD, Nat.testBit_eq_decide_div_mod_eq]

theorem psExec_send (hop : fld w 18 16 = 2) (hn : fld w 12 10 + 1 ≤ p.orr) (hpin : fld w 15 13 + (fld w 12 10 + 1) ≤ 8) :
    ∃ d : Vector Level 8, psExec p f w = { p := { p with drive := d, ow := p.ow <<< (fld w 12 10 + 1)
                                                         orr := p.orr - (fld w 12 10 + 1), pc := nextPc p } } ∧
    ∀ i : Fin 8, at_ d i = if fld w 15 13 ≤ i.val ∧ i.val < fld w 15 13 + (fld w 12 10 + 1) then
      (if p.ow.getLsbD (31 - (i.val - fld w 15 13)) then .high else .low) else at_ p.drive i := by
  obtain ⟨d, hfold, hd⟩ := foldl_setPin (fun _ => true)
    (fun i => decide (p.ow.toNat / 2 ^ (32 - (fld w 12 10 + 1)) / 2 ^ (fld w 12 10 + 1 - 1 - i) % 2 = 1))
    (fld w 15 13) (fld w 12 10 + 1) hpin { p with ow := p.ow <<< (fld w 12 10 + 1), orr := p.orr - (fld w 12 10 + 1) }
  refine ⟨d, ?_, fun i => (hd i).trans ?_⟩
  · simp only [↓reduceIte] at hfold
    unfold psExec
    rw [hop]
    dsimp only
    rw [if_neg (by decide), if_neg (by decide), if_pos rfl, bits_held hn]
    dsimp only
    rw [hfold]
    rfl
  · have hw := fld_lt w 12 10
    by_cases hi : fld w 15 13 ≤ i.val ∧ i.val < fld w 15 13 + (fld w 12 10 + 1)
    · rw [if_pos ⟨hi.1, hi.2, rfl⟩, if_pos hi, sent_bit p.ow (by omega) (by omega)]
    · rw [if_neg fun hc => hi ⟨hc.1, hc.2.1⟩, if_neg hi]

theorem psExec_sendWaits (hop : fld w 18 16 = 2) (hn : p.orr < fld w 12 10 + 1) (htx : p.tx = []) :
    psExec p f w = { p := { p with orr := 0 }, done := false } := by
  unfold psExec
  rw [hop]
  dsimp only
  rw [if_neg (by decide), if_neg (by decide), if_pos rfl, bits_none hn htx]

theorem psExec_await (hop : fld w 18 16 = 4) (h10 : bit w 10 = false) : psExec p f w =
    if f (pinIx (fld w 15 13)) = bit w 12 then { p := { p with t := false, pc := nextPc p } }
    else if bit w 11 then
      let q := { p with l1 := if p.l1 = 0 then 0 else p.l1 - 1 }
      if q.l1 = 0 then { p := ({ q with t := true }).next } else { p := q, done := false }
    else { p := p, done := false } := by
  unfold psExec
  rw [hop]
  dsimp only
  rw [if_neg (by decide), if_neg (by decide), if_neg (by decide), if_neg (by decide), if_pos rfl, if_neg (by rw [h10]; decide)]
  rfl

/-- A bit of an instruction word, as arithmetic. -/
theorem bit_eq_div (w : BitVec 24) (i : Nat) : bit w i = decide (w.toNat / 2 ^ i % 2 = 1) := by
  rw [bit, BitVec.getLsbD, Nat.testBit_eq_decide_div_mod_eq]

/-- What a control instruction does, by bits 15 and 14 of its word. -/
theorem psExec_control (hop : fld w 18 16 = 5) : psExec p f w = match fld w 15 14 with
    | 0 =>
      let k := f (pinIx (fld w 9 7))
      let take := match fld w 13 10 with
        | 0 => true
        | 1 => p.t
        | 2 => !p.t
        | 3 => k
        | 4 => !k
        | 5 => decide (p.tx ≠ [])
        | 6 => decide (p.orr ≠ 0)
        | 7 => decide (p.l0 ≠ 0)
        | _ => decide (p.l1 ≠ 0)
      { p := if take then { p with pc := .ofNat 6 (fld w 5 0) } else p.next }
    | 1 =>
      let load (q : PinSeq) (v : BitVec 16) : PinSeq :=
        let q := q.next
        if bit w 13 then { q with l1 := v, ls1 := q.pc } else { q with l0 := v, ls0 := q.pc }
      if bit w 12 then
        match p.bits 16 with
        | (q, some v) => { p := load q (.ofNat 16 v) }
        | (q, none) => { p := q, done := false }
      else { p := load p (.ofNat 16 (fld w 11 0)) }
    | 2 =>
      if bit w 13 then
        { p := if p.l1 = 0 then p.next else { p with l1 := p.l1 - 1, pc := p.ls1 } }
      else { p := if p.l0 = 0 then p.next else { p with l0 := p.l0 - 1, pc := p.ls0 } }
    | _ =>
      let evt := if bit w 12 then pEVT else 0
      if bit w 13 then
        if 8 ≤ p.rx.length then { p := p, done := false }
        else { p := ({ p with rx := p.rx ++ [p.iw], iw := 0, ic := 0 }).next, flags := evt }
      else { p := p.next, flags := evt } := by
  unfold psExec
  rw [hop]
  rfl

theorem psExec_branch (hop : fld w 18 16 = 5) (hb : fld w 15 10 = 0) :
    psExec p f w = { p := { p with pc := .ofNat 6 (fld w 5 0) } } := by
  have h14 : fld w 15 14 = 0 := by unfold fld at hb ⊢; omega
  have h10 : fld w 13 10 = 0 := by unfold fld at hb ⊢; omega
  rw [psExec_control hop, h14, h10]
  rfl

theorem psExec_loop (hop : fld w 18 16 = 5) {second : Bool} (hb : fld w 15 12 = if second then 6 else 4) : psExec p f w =
    { p := if second then { p with l1 := .ofNat 16 (fld w 11 0), ls1 := nextPc p, pc := nextPc p }
           else { p with l0 := .ofNat 16 (fld w 11 0), ls0 := nextPc p, pc := nextPc p } } := by
  have h14 : fld w 15 14 = 1 := by unfold fld at hb ⊢; split at hb <;> omega
  have h12 : bit w 12 = false := by
    rw [bit_eq_div, decide_eq_false_iff_not]
    unfold fld at hb
    split at hb <;> omega
  have h13 : bit w 13 = second := by
    rw [bit_eq_div]
    unfold fld at hb
    cases second
    · exact decide_eq_false (by simp only [Bool.false_eq_true, ↓reduceIte] at hb; omega)
    · exact decide_eq_true (by simp only [↓reduceIte] at hb; omega)
  rw [psExec_control hop, h14, h12, h13]
  cases second <;> rfl

theorem psExec_next (hop : fld w 18 16 = 5) {second : Bool} (hb : fld w 15 13 = if second then 5 else 4) : psExec p f w =
    { p := if second then (if p.l1 = 0 then { p with pc := nextPc p } else { p with l1 := p.l1 - 1, pc := p.ls1 })
           else (if p.l0 = 0 then { p with pc := nextPc p } else { p with l0 := p.l0 - 1, pc := p.ls0 }) } := by
  have h14 : fld w 15 14 = 2 := by unfold fld at hb ⊢; split at hb <;> omega
  have h13 : bit w 13 = second := by
    rw [bit_eq_div]
    unfold fld at hb
    cases second
    · exact decide_eq_false (by simp only [Bool.false_eq_true, ↓reduceIte] at hb; omega)
    · exact decide_eq_true (by simp only [↓reduceIte] at hb; omega)
  rw [psExec_control hop, h14, h13]
  cases second <;> rfl

theorem psExec_pause (hop : fld w 18 16 = 6) : psExec p f w = { p := { p with pc := nextPc p }, extra := fld w 15 0 } := by
  unfold psExec
  rw [hop]
  rfl

end
end Sys2Proof.Machine
end

section
/-!
# The ticks of an engine, and what each leaves (09 R354, R367, R371, R376, R379)
-/
namespace Sys2Proof.Machine
namespace State
variable {s : State} {e : Fin 8} {w : BitVec 24}

/-! ## Flags of an engine -/

theorem set_none (ev : EventRegs) : ev.set 0 = (ev, false) := by
  unfold EventRegs.set
  simp

/-- An instruction that sets no flag presents no request. -/
theorem raisePs_none (s : State) (e : Fin 8) : (s.raisePs e 0).eng e = s.eng e ∧ OnlyChanges [.ps] s (s.raisePs e 0) := by
  refine ⟨?_, ?_⟩
  · rw [eng_raisePs_self, set_none]
  · unfold raisePs
    rw [set_none]
    exact (only_modEng s e _).both (only_hwSet _ _ _ _)

/-! ## Ticks -/

/-- The engine at its tick. -/
def atTick (s : State) (e : Fin 8) : State := s.modEng e fun p => { p with cnt := 0 }

theorem eng_atTick (s : State) (e : Fin 8) : (s.atTick e).eng e = { s.eng e with cnt := 0 } := eng_modEng_self s e _

theorem psTick_idle (h : (s.eng e).due = false ∨ ((s.eng e).st ≠ .run ∧ (s.eng e).st ≠ .wait)) : s.psTick e = s := by
  refine if_pos ?_
  obtain hd | ⟨hr, hw⟩ := h
  · simp [hd]
  · simp [hr, hw]

section
variable (hdue : (s.eng e).due = true) (hst : (s.eng e).st = .run ∨ (s.eng e).st = .wait)
include hdue hst

/-- What a tick does, on the engine's own ticks. -/
theorem psTick_due : s.psTick e =
    if (s.eng e).haltReq then
      ((s.atTick e).modEng e fun p => { p with st := .halt, haltReq := false, busy := 0 }).raisePs e pHALTED
    else if (s.eng e).busy ≠ 0 then (s.atTick e).modEng e fun p => { p with busy := p.busy - 1 }
    else
      match (s.atTick e).psFetch e with
      | (none, s) => s
      | (some w, t) => if psIllegal (s.eng e) w then t.psIll e else t.psRun e w := by
  refine if_neg ?_
  obtain hr | hw := hst
  · simp [hdue, hr]
  · simp [hdue, hw]

/-- A tick on which the word at PC is executed. -/
theorem psTick_word (hhalt : (s.eng e).haltReq = false) (hbusy : (s.eng e).busy = 0)
    (herr : cellRead 0 s.ps.storeErr (s.eng e).pc.toNat = 0) (hw : cellRead 0 s.ps.store (s.eng e).pc.toNat = w) :
    s.psTick e = if psIllegal (s.eng e) w then (s.atTick e).psIll e else (s.atTick e).psRun e w := by
  have hfetch : (s.atTick e).psFetch e = (some w, s.atTick e) := by
    have hpc : ((s.atTick e).eng e).pc = (s.eng e).pc := by rw [eng_atTick]
    have herr' : cellRead 0 (s.atTick e).ps.storeErr (s.eng e).pc.toNat = 0 := herr
    have hstore : cellRead 0 (s.atTick e).ps.store (s.eng e).pc.toNat = w := hw
    unfold psFetch
    dsimp only
    rw [hpc, herr', hstore]
    rfl
  rw [psTick_due hdue hst, if_neg (by rw [hhalt]; decide), if_neg (by rw [hbusy]; decide), hfetch]

end

/-! ## The instruction's effect -/

/-- The engine after an instruction: it runs on, with the ticks that follow, or waits. -/
def ranTo (o : PsOut) (w : BitVec 24) : PinSeq :=
  if o.done then { o.p with st := .run, busy := fld w 23 19 + o.extra } else { o.p with st := .wait }

/-- The engine as an instruction sees it: without the TX word of this cycle. -/
def seenTx (s : State) (e : Fin 8) (p : PinSeq) : PinSeq := { p with tx := p.tx.take (p.tx.length - s.psUnseen e) }

/-- An instruction that sets no flag. -/
theorem psRun_quiet {o : PsOut} (ho : psExec (s.seenTx e (s.eng e)) (s.psSample (s.eng e)) w = o) (hf : o.flags = 0) :
    (s.psRun e w).eng e = { ranTo o w with tx := (ranTo o w).tx ++ (s.eng e).tx.drop ((s.eng e).tx.length - s.psUnseen e) } ∧
    OnlyEngine e s (s.psRun e w) ∧ OnlyChanges [.ps] s (s.psRun e w) := by
  have hrun : ∃ u : State, u.ps = s.ps ∧ OnlyChanges [.ps] s u ∧ s.psRun e w =
      (u.modEng e fun _ => { ranTo o w with
        tx := (ranTo o w).tx ++ (s.eng e).tx.drop ((s.eng e).tx.length - s.psUnseen e) }).raisePs e 0 := by
    refine ⟨if (s.eng e).rx.length < (ranTo o w).rx.length then s.modCyc fun c => { c with rxNew := e :: c.rxNew } else s, ?_,
      .ite (only_modCyc s _ _) (.refl _ _), ?_⟩
    · split <;> rfl
    · rw [← hf, ← ho]
      rfl
  obtain ⟨u, hps, hu, hx⟩ := hrun
  have heng : ∀ k, u.eng k = s.eng k := fun k => congrArg (fun p : PinSeqs => at_ p.eng k) hps
  have hstay : OnlyEngine e s u := ⟨fun k _ => heng k, congrArg PinSeqs.store hps⟩
  rw [hx]
  refine ⟨(raisePs_none _ e).1.trans (eng_modEng_self u e _), ?_, (hu.both (only_modEng u e _)).both (raisePs_none _ e).2⟩
  exact (hstay.trans (onlyEngine_modEng u e _)).trans (onlyEngine_raisePs _ e 0)

/-- A tick that executes a legal instruction which takes no TX word and sets no flag. -/
theorem psTick_ran {o : PsOut} (hdue : (s.eng e).due = true) (hst : (s.eng e).st = .run ∨ (s.eng e).st = .wait)
    (hhalt : (s.eng e).haltReq = false) (hbusy : (s.eng e).busy = 0)
    (herr : cellRead 0 s.ps.storeErr (s.eng e).pc.toNat = 0) (hw : cellRead 0 s.ps.store (s.eng e).pc.toNat = w)
    (hleg : psIllegal (s.eng e) w = false)
    (ho : psExec (s.seenTx e { s.eng e with cnt := 0 }) (s.psSample { s.eng e with cnt := 0 }) w = o) (hf : o.flags = 0)
    (htx : o.p.tx = (s.eng e).tx.take ((s.eng e).tx.length - s.psUnseen e)) :
    (s.psTick e).eng e = { ranTo o w with tx := (s.eng e).tx } ∧ OnlyEngine e s (s.psTick e) ∧
    OnlyChanges [.ps] s (s.psTick e) := by
  have hstep : s.psTick e = (s.atTick e).psRun e w :=
    (psTick_word hdue hst hhalt hbusy herr hw).trans (if_neg (by rw [hleg]; decide))
  obtain ⟨heng, honly, hpart⟩ := psRun_quiet (s := s.atTick e) (e := e) (w := w) (o := o) (by rw [eng_atTick]; exact ho) hf
  have hlast : (ranTo o w).tx ++ (s.eng e).tx.drop ((s.eng e).tx.length - s.psUnseen e) = (s.eng e).tx := by
    have hran : (ranTo o w).tx = o.p.tx := by unfold ranTo; split <;> rfl
    rw [hran, htx, List.take_append_drop]
  rw [hstep]
  refine ⟨heng.trans ?_, (onlyEngine_modEng s e _).trans honly, (only_modEng s e _).both hpart⟩
  rw [eng_atTick]
  exact congrArg (fun l => { ranTo o w with tx := l }) hlast

/-- A legal SEND names pins of the map. -/
theorem send_pins {p : PinSeq} (h : psIllegal p w = false) (hop : fld w 18 16 = 2) : fld w 15 13 + (fld w 12 10 + 1) ≤ 8 := by
  unfold psIllegal at h
  rw [hop] at h
  simp only [OfNat.ofNat_ne_zero, OfNat.ofNat_ne_one, or_self, ↓reduceIte, true_or, Bool.or_eq_false_iff,
    decide_eq_false_iff_not] at h
  omega

/-- An engine that stops at its tick, with the flags it sets. -/
theorem stopped_leaves {f : PinSeq → PinSeq} (b : BitVec 16) (u : State) :
    ((u.modEng e f).raisePs e b).eng e = { f (u.eng e) with ev := ((f (u.eng e)).ev.set b).1 } := by
  rw [eng_raisePs_self, eng_modEng_self]

/-- An illegal instruction's halt, its report of a free mechanism (R371). -/
theorem psIll_eq (u : State) (e : Fin 8) : u.psIll e =
    ((u.free.2.modEng e fun p => { p with st := .halt, clrHold := true, haltReq := false, busy := 0 }).raisePs e
      (pILL ||| pHALTED)).report (u.free.1.toNat % 256) 5 e.val 0 := rfl

theorem eng_free (u : State) (k : Fin 8) : u.free.2.eng k = u.eng k := rfl

theorem only_illegal (s : State) (e : Fin 8) : OnlyChanges [.ps, .tt, .reports, .freeCtr] s
    ((((s.atTick e).free.2.modEng e fun p => { p with st := .halt, clrHold := true, haltReq := false, busy := 0 }).raisePs e
      (pILL ||| pHALTED)).report ((s.atTick e).free.1.toNat % 256) 5 e.val 0) :=
  (((((only_modEng s e _).widen (by decide)).also (only_free _) (by decide)).also (only_modEng _ e _) (by decide)).also
    (only_raisePs _ e _) (by decide)).also (only_report _ _ _ _ _) (by decide)

end State
open State

/-- Settles O46: a tick by `psTick_due`, an instruction by `psTick_ran` and the lemma of its effect. -/
theorem sequencerTicks : Obligations.SequencerTicks := by
  unfold Obligations.SequencerTicks
  intro s e p w op nx rest ticks done ends
  have hc : exec (.psTick e []) s = .next (s.whenUp s.pwr.pdUp fun s => s.psTick e) := rfl
  refine ⟨?_, fun hup hdue hst => ⟨fun hhalt => ?_, fun hhalt => ⟨fun hbusy => ?_, fun hbusy herr => ⟨fun hill => ?_, fun hleg => ?_⟩⟩⟩⟩
  · rintro (hdown | hidle)
    · exact completes_held hc hdown
    · exact completes_unchanged hc (psTick_idle hidle)
  · refine completes_to hc hup ((psTick_due hdue hst).trans (if_pos hhalt)) ?_
      (((only_modEng s e _).both (only_modEng _ e _)).widen (by decide) |>.both (only_raisePs _ e _))
    rw [stopped_leaves, eng_atTick]
    exact ⟨rfl, rfl, rfl, rfl, rfl, rfl, ((onlyEngine_modEng s e _).trans (onlyEngine_modEng _ e _)).trans (onlyEngine_raisePs _ e _)⟩
  · refine completes_to hc hup ((psTick_due hdue hst).trans
      ((if_neg (by rw [show (s.eng e).haltReq = false from hhalt]; decide)).trans (if_pos hbusy))) ⟨?_, ?_⟩
      ((only_modEng s e _).both (only_modEng _ e _))
    · rw [eng_modEng_self, eng_atTick]
    · exact (onlyEngine_modEng s e _).trans (onlyEngine_modEng _ e _)
  · have hx := (psTick_word hdue hst hhalt hbusy herr rfl).trans (if_pos hill)
    refine completes_to hc hup (hx.trans (psIll_eq _ e)) ?_ (only_illegal _ e)
    rw [eng_report, stopped_leaves, eng_free, eng_atTick]
    exact ⟨rfl, rfl, rfl, rfl, rfl, rfl, ((onlyEngine_modEng s e _).trans (onlyEngine_modEng _ e _)).trans (onlyEngine_raisePs _ e _)⟩
  · have hran := fun {o : PsOut} (ho : psExec (s.seenTx e p) (s.psSample p) w = o) =>
      psTick_ran (o := o) hdue hst hhalt hbusy herr rfl hleg ho
    have hdo : ∀ {o : PsOut} {P : State → Prop}, psExec (s.seenTx e p) (s.psSample p) w = o → o.flags = 0 →
        o.p.tx = (s.eng e).tx.take ((s.eng e).tx.length - s.psUnseen e) →
        (∀ t : State, t.eng e = { ranTo o w with tx := (s.eng e).tx } → rest t → P t) → Completes (.psTick e []) s [.ps] P := by
      intro o P ho hf htx hP
      obtain ⟨heng, honly, hpart⟩ := hran ho hf htx
      exact completes_to hc hup rfl (hP _ heng honly) hpart
    refine ⟨fun h0 => ?_, fun h1 => ?_, ?_, fun h2 hn hl => ?_, fun h4 h10 hlev => ?_, fun h4 h10 hlev h11 => ?_, fun h5 hb => ?_,
      fun h5 hb => ?_, fun h5 hb => ?_, fun h5 hb => ?_, fun h5 hb => ?_, fun h6 => ?_⟩
    · obtain ⟨d, ho, hd⟩ := psExec_drive (p := s.seenTx e p) (f := s.psSample p) h0
      exact hdo ho rfl rfl fun t ht hrest => ⟨hrest, by rw [ht]; rfl, fun i => by rw [ht]; exact hd i⟩
    · exact hdo (psExec_float h1) rfl rfl fun t ht hrest => ⟨hrest, by rw [ht]; rfl, fun i => by rw [ht]; exact Vector.getElem_ofFn _⟩
    · intro n h2 hn
      obtain ⟨d, ho, hd⟩ := psExec_send (p := s.seenTx e p) (f := s.psSample p) h2 hn (send_pins hleg h2)
      exact hdo ho rfl rfl fun t ht hrest => ⟨hrest, by rw [ht]; rfl, fun i => by rw [ht]; exact hd i⟩
    · have hnil : (s.eng e).tx.take ((s.eng e).tx.length - s.psUnseen e) = [] := by
        rw [Nat.sub_eq_zero_of_le hl, List.take_zero]
      exact hdo (psExec_sendWaits h2 hn hnil) rfl rfl fun t ht hrest => ⟨ht, hrest⟩
    · exact hdo ((psExec_await h4 h10).trans (if_pos hlev)) rfl rfl fun t ht hrest => ⟨ht, hrest⟩
    · exact hdo ((psExec_await h4 h10).trans ((if_neg hlev).trans (if_neg (by rw [h11]; decide)))) rfl rfl
        fun t ht hrest => ⟨ht, hrest⟩
    · exact hdo (psExec_branch h5 hb) rfl rfl fun t ht hrest => ⟨ht, hrest⟩
    · exact hdo (psExec_loop (second := false) h5 hb) rfl rfl fun t ht hrest => ⟨ht, hrest⟩
    · exact hdo (psExec_loop (second := true) h5 hb) rfl rfl fun t ht hrest => ⟨ht, hrest⟩
    · have ho := psExec_next (p := s.seenTx e p) (f := s.psSample p) (second := false) h5 hb
      by_cases h0 : p.l0 = 0
      · rw [if_pos h0]
        exact hdo (ho.trans (congrArg (fun q : PinSeq => ({ p := q } : PsOut)) (if_pos h0))) rfl rfl fun t ht hrest => ⟨ht, hrest⟩
      · rw [if_neg h0]
        exact hdo (ho.trans (congrArg (fun q : PinSeq => ({ p := q } : PsOut)) (if_neg h0))) rfl rfl fun t ht hrest => ⟨ht, hrest⟩
    · have ho := psExec_next (p := s.seenTx e p) (f := s.psSample p) (second := true) h5 hb
      by_cases h0 : p.l1 = 0
      · rw [if_pos h0]
        exact hdo (ho.trans (congrArg (fun q : PinSeq => ({ p := q } : PsOut)) (if_pos h0))) rfl rfl fun t ht hrest => ⟨ht, hrest⟩
      · rw [if_neg h0]
        exact hdo (ho.trans (congrArg (fun q : PinSeq => ({ p := q } : PsOut)) (if_neg h0))) rfl rfl fun t ht hrest => ⟨ht, hrest⟩
    · exact hdo (psExec_pause h6) rfl rfl fun t ht hrest => ⟨ht, hrest⟩

end Sys2Proof.Machine
end

section
/-!
# The analogue front end's checks (10 R411, Table 10.5)

Each failing check sets its AFE_HEALTH bit and is reported as the bit is set; checks made one after another compose.
-/
namespace Sys2Proof.Machine

/-- Mechanism, kind and index under which the check of health bit i is reported (10 Table 10.5). -/
def healthCode (i : Nat) : Nat × Nat × Nat :=
  if i < 16 then (0x0D, 12, i) else if i < 22 then (0x0E, 12, i) else if i < 24 then (0x0F, 6, i - 22)
  else (i - 24 + 0x10, 12, 32)

theorem healthCode_spare (n : Fin 16) : healthCode n.val = (0x0D, 12, n.val) := if_pos n.isLt
theorem healthCode_itrip (n : Fin 6) : healthCode (16 + n.val) = (0x0E, 12, 16 + n.val) := by
  have := n.isLt
  rw [healthCode, if_neg (by omega), if_pos (by omega)]
theorem healthCode_adc (a : Fin 2) : healthCode (22 + a.val) = (0x0F, 6, a.val) := by
  have := a.isLt
  rw [healthCode, if_neg (by omega), if_neg (by omega), if_pos (by omega), Nat.add_sub_cancel_left]

theorem healthCode_bounds {i : Nat} (hi : i < 28) :
    (healthCode i).1 < 2 ^ 8 ∧ (healthCode i).2.1 < 2 ^ 4 ∧ (healthCode i).2.2 < 2 ^ 8 := by
  unfold healthCode
  split
  · dsimp only; omega
  split
  · dsimp only; omega
  split <;> dsimp only <;> omega

namespace State

/-- A report with this mechanism, kind and index has been made. -/
def CheckReported (t : State) (mech kind idx : Nat) : Prop :=
  ∃ r ∈ t.reports, r.mech.toNat = mech ∧ r.kind.toNat = kind ∧ r.index.toNat = idx

theorem told_report (s : State) {m k i : Nat} (d : Nat) (hm : m < 2 ^ 8) (hk : k < 2 ^ 4) (hi : i < 2 ^ 8) :
    (s.report m k i d).CheckReported m k i :=
  ⟨_, List.mem_append_right _ (List.mem_singleton_self _), (BitVec.toNat_ofNat _ _).trans (Nat.mod_eq_of_lt hm),
    (BitVec.toNat_ofNat _ _).trans (Nat.mod_eq_of_lt hk), (BitVec.toNat_ofNat _ _).trans (Nat.mod_eq_of_lt hi)⟩

/-- From s to t the checks whose bits are in F have failed, each set and, where it was clear, told; the sensors, the trips and
the calibration stand. -/
structure Checked (s t : State) (F : Nat → Prop) : Prop where
  afe : t.afe = { s.afe with health := t.afe.health, adc := t.afe.adc }
  health : ∀ i, bit t.afe.health i = true ↔ bit s.afe.health i = true ∨ F i
  keeps : ∀ r ∈ s.reports, r ∈ t.reports
  told : ∀ i, F i → bit s.afe.health i = false → t.CheckReported (healthCode i).1 (healthCode i).2.1 (healthCode i).2.2
  frame : OnlyChanges [.afe, .reports] s t

namespace Checked
variable {s t u : State} {F G : Nat → Prop}

theorem nothing (s : State) : Checked s s fun _ => False :=
  ⟨rfl, fun _ => (or_false _).to_iff.symm, fun _ h => h, fun _ h => h.elim, .refl _ _⟩

theorem congr (h : Checked s t F) (hG : ∀ i, F i ↔ G i) : Checked s t G :=
  ⟨h.afe, fun i => (h.health i).trans (or_congr_right (hG i)), h.keeps, fun i hi => h.told i ((hG i).2 hi), h.frame⟩

theorem trans (h : Checked s t F) (k : Checked t u G) : Checked s u fun i => F i ∨ G i where
  afe := by rw [k.afe, h.afe]
  health i := by rw [k.health, h.health, or_assoc]
  keeps r hr := k.keeps r (h.keeps r hr)
  told i hi hclear := by
    by_cases hF : F i
    · obtain ⟨r, hr, hcode⟩ := h.told i hF hclear
      exact ⟨r, k.keeps r hr, hcode⟩
    · refine k.told i (hi.resolve_left hF) (Bool.eq_false_iff.2 fun hset => ?_)
      exact ((h.health i).1 hset).elim (fun hs => by rw [hclear] at hs; exact Bool.noConfusion hs) hF
  frame := h.frame.trans k.frame |>.mono (by decide)

theorem ite {c : Prop} [Decidable c] (h : Checked s t F) : Checked s (if c then t else s) fun i => c ∧ F i := by
  split
  · next hc => exact h.congr fun i => (and_iff_right hc).symm
  · next hc => exact (nothing s).congr fun i => ⟨False.elim, fun hi => hc hi.1⟩

theorem foldl {α : Type} {f : State → α → State} {H : α → Nat → Prop} (h : ∀ s a, Checked s (f s a) (H a)) (l : List α)
    (s : State) : Checked s (l.foldl f s) fun i => ∃ a ∈ l, H a i := by
  induction l generalizing s with
  | nil => exact (nothing s).congr fun i => ⟨False.elim, fun ⟨_, ha, _⟩ => nomatch ha⟩
  | cons a l ih => exact ((h s a).trans (ih _)).congr fun i => by simp only [List.mem_cons, exists_eq_or_imp]

theorem foldFin {n : Nat} {f : Fin n → State → State} {H : Fin n → Nat → Prop} (h : ∀ s a, Checked s (f a s) (H a)) (s : State) :
    Checked s (Sys2Proof.foldFin n f s) fun i => ∃ a, H a i :=
  (foldl (f := fun s i => f i s) h (List.finRange n) s).congr fun i => by simp only [List.mem_finRange, true_and]

end Checked

theorem adc_healthFail (s : State) (i m k x : Nat) : (s.healthFail i m k x).afe.adc = s.afe.adc := by
  unfold healthFail
  dsimp only
  split <;> rfl

theorem checked_healthFail (s : State) {i m k x : Nat} (hi : i < 28) (hc : healthCode i = (m, k, x)) :
    Checked s (s.healthFail i m k x) (· = i) := by
  have hcode := healthCode_bounds hi
  rw [hc] at hcode
  obtain ⟨hm, hk, hx⟩ := hcode
  unfold healthFail
  dsimp only
  split
  · next hset =>
    refine ⟨rfl, fun j => ⟨.inl, fun h => h.elim id fun hj => hj ▸ hset⟩, fun r hr => hr, fun j hj hclear => ?_, only_hwSet _ _ _ _⟩
    subst hj
    rw [hset] at hclear
    exact Bool.noConfusion hclear
  · refine ⟨rfl, fun j => ?_, fun r hr => List.mem_append_left _ hr, fun j hj _ => ?_, ?_⟩
    · show bit (s.afe.health ||| oneBit 28 i) j = true ↔ _
      rw [bit_or, bit_oneBit hi, Bool.or_eq_true, decide_eq_true_iff]
    · rw [hj, hc]
      exact told_report _ 0 hm hk hx
    · exact (((only_hwSet s _ _ _).both (only_modAfe _ _)).trans (only_report _ _ _ _ _)).mono (by decide)

end State
end Sys2Proof.Machine
end

section
/-!
# Sensors, spare, trips and calibration (10 R387–R396, R403, R404)
-/
namespace Sys2Proof.Machine

/-- A fold whose step at a makes Q, and whose every step keeps it, ends with it. -/
theorem foldl_reaches {σ α : Type} {Q : σ → Prop} {f : σ → α → σ} {l : List α} {a : α} (ha : a ∈ l) (make : ∀ s, Q (f s a))
    (keep : ∀ s b, Q s → Q (f s b)) (s : σ) : Q (l.foldl f s) := by
  have hkeep : ∀ (l : List α) (s : σ), Q s → Q (l.foldl f s) := by
    intro l
    induction l with
    | nil => exact fun _ h => h
    | cons b l ih => exact fun s h => ih _ (keep s b h)
  obtain ⟨as, bs, rfl⟩ := List.append_of_mem ha
  rw [List.foldl_append, List.foldl_cons]
  exact hkeep bs _ (make _)

/-! ## Comparators (10 Table 10.1) -/

theorem Sens.compare_eq (x : Sens) (v : Nat) : x.compare v =
    if decide (fld x.cfg 1 0 = 2) = true then
      !decide (20000 * x.thrNow.toNat < v) && (decide (v < 1600000) && x.armed || x.cmp)
    else decide (20000 * x.thrNow.toNat + 20000 * fld x.cfg 10 8 < v) ||
      (!decide (v + 20000 * fld x.cfg 10 8 < 20000 * x.thrNow.toNat) && x.cmp) := by
  unfold Sens.compare sensUv Sens.mode
  by_cases hm : fld x.cfg 1 0 = 2
  · rw [if_pos hm, if_pos (decide_eq_true hm)]
    by_cases ht : 20000 * x.thrNow.toNat < v
    · simp [ht]
    · cases x.armed <;> by_cases hv : v < 1600000 <;> simp [ht, hv]
  · rw [if_neg hm, decide_eq_false hm, if_neg Bool.false_ne_true]
    by_cases ht : 20000 * x.thrNow.toNat + 20000 * fld x.cfg 10 8 < v
    · simp [ht]
    · by_cases hv : v + 20000 * fld x.cfg 10 8 < 20000 * x.thrNow.toNat <;> simp [ht, hv]

/-- The arming of a comparator after a comparison that answered c. -/
def Sens.armedBy (x : Sens) (v : Nat) (c : Bool) : Bool :=
  if x.mode = 2 then !c && (x.armed || decide (sensUv x.thrNow.toNat < v)) else x.armed

theorem Sens.switch_raw {x : Sens} (h : fld x.cfg 1 0 = 0) (level : Bool) (p t : Byte) :
    x.switch level p t = ({ x with out := level }, false) := if_pos h

theorem Sens.switch_low {x : Sens} (h : fld x.cfg 1 0 ≠ 0) (p t : Byte) :
    x.switch false p t = (if x.lowamp then x else { x with out := false }, false) := (if_neg h).trans (if_pos rfl)

theorem Sens.switch_first {x : Sens} (h : fld x.cfg 1 0 ≠ 0) (hc : x.cycles = 0) (p t : Byte) :
    x.switch true p t = ({ x with out := true, cycles := 1 }, false) :=
  (if_neg h).trans ((if_neg (by decide)).trans (if_pos hc))

theorem Sens.switch_lowamp {x : Sens} (h : fld x.cfg 1 0 ≠ 0) (hc : x.cycles ≠ 0) {p t : Byte}
    (ha : p.toNat < t.toNat + fld x.cfg 23 16) :
    x.switch true p t = ({ x with peak := p, trough := t, cycles := min (x.cycles + 1) 3, lowamp := true }, !x.lowamp) :=
  (if_neg h).trans ((if_neg (by decide)).trans ((if_neg hc).trans (if_pos ha)))

theorem Sens.switch_cycle {x : Sens} (h : fld x.cfg 1 0 ≠ 0) (hc : x.cycles ≠ 0) {p t : Byte}
    (ha : t.toNat + fld x.cfg 23 16 ≤ p.toNat) :
    x.switch true p t = ({ x with
      peak := p, trough := t, cycles := min (x.cycles + 1) 3, lowamp := false, out := true,
      thrNow := if x.cycles = 1 then x.thrNow else x.threshold p t }, false) := by
  refine (if_neg h).trans ((if_neg (by decide)).trans ((if_neg hc).trans ((if_neg (Nat.not_lt.2 ha)).trans ?_)))
  have hthree : (min (x.cycles + 1) 3 = 3) = ¬ x.cycles = 1 := propext (by omega)
  show (({ x with
      peak := p, trough := t, cycles := min (x.cycles + 1) 3, lowamp := false, out := true,
      thrNow := if min (x.cycles + 1) 3 = 3 then x.threshold p t else x.thrNow } : Sens), false) = _
  simp only [hthree, ite_not]

namespace State
variable {s : State}

theorem only_modSens (s : State) (n : Fin 16) (f : Sens → Sens) : OnlyChanges [.afe] s (s.modSens n f) := only_modAfe _ _
theorem only_modItrip (s : State) (n : Fin 6) (f : Itrip → Itrip) : OnlyChanges [.afe] s (s.modItrip n f) := only_modAfe _ _
theorem only_modCal (s : State) (f : Cal → Cal) : OnlyChanges [.afe] s (s.modCal f) := only_modAfe _ _

/-- Comparator n becomes y, with LOWAMP entered when low is set. -/
def sensBecomes (s : State) (n : Fin 16) (r : Sens × Bool) : State :=
  if r.2 then ((s.modSens n fun _ => r.1).modAfe fun a => { a with sflag := a.sflag ||| oneBit 16 n.val }).hwSet 0x5408 (oneBit 32 n.val)
  else s.modSens n fun _ => r.1

theorem sensChange_off {n : Fin 16} (h : bit (at_ s.afe.sens n).cfg 31 = false) (v : Nat) (p t : Byte) :
    s.sensChange n v p t = s := if_pos (congrArg (! ·) h)

theorem sensChange_steady {n : Fin 16} {v : Nat} (h : bit (at_ s.afe.sens n).cfg 31 = true)
    (hc : (at_ s.afe.sens n).compare v = (at_ s.afe.sens n).cmp) (p t : Byte) : s.sensChange n v p t = s.sensBecomes n
      ({ at_ s.afe.sens n with armed := (at_ s.afe.sens n).armedBy v ((at_ s.afe.sens n).compare v) }, false) :=
  (if_neg (by rw [Sens.en, h]; decide)).trans (if_pos hc)

theorem sensChange_switch {n : Fin 16} {v : Nat} (h : bit (at_ s.afe.sens n).cfg 31 = true)
    (hc : (at_ s.afe.sens n).compare v ≠ (at_ s.afe.sens n).cmp) (p t : Byte) : s.sensChange n v p t = s.sensBecomes n
      (({ at_ s.afe.sens n with cmp := (at_ s.afe.sens n).compare v, armed := (at_ s.afe.sens n).armedBy v ((at_ s.afe.sens n).compare v) } :
        Sens).switch ((at_ s.afe.sens n).compare v != bit (at_ s.afe.sens n).cfg 11) p t) :=
  (if_neg (by rw [Sens.en, h]; decide)).trans (if_neg hc)

theorem only_sensBecomes (s : State) (n : Fin 16) (r : Sens × Bool) : OnlyChanges [.afe] s (s.sensBecomes n r) :=
  .ite (((only_modSens s n _).both (only_modAfe _ _)).both (only_hwSet _ _ _ _)) (only_modSens s n _)

theorem sensBecomes_leaves (s : State) (n : Fin 16) (y : Sens) (low : Bool) :
    at_ (s.sensBecomes n (y, low)).afe.sens n = y ∧
    (∀ j, j ≠ n → at_ (s.sensBecomes n (y, low)).afe.sens j = at_ s.afe.sens j) ∧
    ∀ j, bit (s.sensBecomes n (y, low)).afe.sflag j = (bit s.afe.sflag j || (low && decide (j = n.val))) := by
  cases low with
  | false => exact ⟨at_vset_self _ _ _, fun j hj => at_vset_ne _ _ hj.symm, fun j => (Bool.or_false _).symm⟩
  | true =>
    refine ⟨at_vset_self _ _ _, fun j hj => at_vset_ne _ _ hj.symm, fun j => ?_⟩
    rw [Bool.true_and, ← bit_oneBit n.isLt, ← bit_or]
    rfl

/-! ## The spare (10 R390, R391) -/

/-- The input before the one a sweep of the inputs in ascending order begins with. -/
def spareBase (s : State) : Nat := match s.afe.spare with | some j => j.val | none => 15

theorem nextSpare_isSome (h : ∃ j, bit (at_ s.afe.sens j).cfg 31 = true) : s.nextSpare ≠ none := by
  obtain ⟨j, hj⟩ := h
  have hfind : (List.finRange 16).find? (fun i => (at_ s.afe.sens i).en) ≠ none := fun hn =>
    List.find?_eq_none.1 hn j (List.mem_finRange j) hj
  unfold nextSpare
  dsimp only
  split
  · exact hfind
  · split
    · nofun
    · exact hfind

theorem find?_finRange {k : Nat} {p : Fin k → Bool} {i : Fin k} (h : (List.finRange k).find? p = some i) :
    p i = true ∧ ∀ j, j < i → p j = false := by
  obtain ⟨hi, n, hn, hget, hlt⟩ := List.find?_eq_some_iff_getElem.1 h
  rw [List.getElem_finRange] at hget
  subst hget
  refine ⟨hi, fun j hj => ?_⟩
  have := hlt j.val (by simpa [Fin.lt_def] using hj)
  rw [List.getElem_finRange] at this
  simpa using this

theorem nextSpare_spec {j : Fin 16} (h : s.nextSpare = some j) : bit (at_ s.afe.sens j).cfg 31 = true ∧
    ∀ i : Fin 16, bit (at_ s.afe.sens i).cfg 31 = true → (j.val + 15 - s.spareBase) % 16 ≤ (i.val + 15 - s.spareBase) % 16 := by
  unfold spareBase
  unfold nextSpare at h
  dsimp only at h
  split at h
  · next hs =>
    rw [hs]
    obtain ⟨hon, hmin⟩ := find?_finRange h
    refine ⟨hon, fun i hi => ?_⟩
    have hle : j ≤ i := not_lt.1 fun hlt => by rw [show bit _ 31 = false from hmin i hlt] at hi; exact Bool.noConfusion hi
    have := i.isLt
    simp only [Fin.le_def] at hle
    dsimp only
    omega
  · next n hs =>
    rw [hs]
    dsimp only
    split at h
    · next i hfind =>
      obtain rfl := Option.some.inj h
      obtain ⟨hon, hmin⟩ := find?_finRange hfind
      simp only [Bool.and_eq_true, decide_eq_true_eq, Bool.and_eq_false_imp, Fin.lt_def] at hon hmin
      refine ⟨hon.2, fun m hm => ?_⟩
      have hle : n.val < m.val → i.val ≤ m.val := fun hn => not_lt.1 fun hlt => by
        rw [show bit _ 31 = false from hmin m hlt hn] at hm; exact Bool.noConfusion hm
      omega
    · next hnone =>
      obtain ⟨hon, hmin⟩ := find?_finRange h
      have hup (i : Fin 16) (hi : bit (at_ s.afe.sens i).cfg 31 = true) : i.val ≤ n.val := not_lt.1 fun hlt =>
        List.find?_eq_none.1 hnone i (List.mem_finRange i) (Bool.and_eq_true_iff.2 ⟨decide_eq_true hlt, hi⟩)
      refine ⟨hon, fun i hi => ?_⟩
      have hle : j ≤ i := not_lt.1 fun hlt => by rw [show bit _ 31 = false from hmin i hlt] at hi; exact Bool.noConfusion hi
      have := hup i hi
      have := hup j hon
      simp only [Fin.le_def] at hle
      omega

theorem disagree_iff (a b : BitVec 68) : disagree a b = true ↔ ∃ i, i < 64 ∧ bit a (i + 4) ≠ bit b (i + 4) ∧
    ∀ m, m < 4 → bit a (i + m) = bit a (i + 4) ∧ bit b (i + m) = bit b (i + 4) := by
  simp only [disagree, List.any_eq_true, List.all_eq_true, List.mem_range, Bool.and_eq_true, bne_iff_ne, beq_iff_eq]
  refine exists_congr fun i => and_congr_right fun _ => ?_
  exact ⟨fun ⟨⟨hne, ha⟩, hb⟩ => ⟨hne, fun m hm => ⟨ha m hm, hb m hm⟩⟩,
    fun ⟨hne, h⟩ => ⟨⟨hne, fun m hm => (h m hm).1⟩, fun m hm => (h m hm).2⟩⟩

/-- A comparison of the visited output with the spare's. -/
def spareJudge (s : State) (a b : BitVec 68) : State :=
  match s.afe.spare with
  | some n => if disagree a b then s.healthFail n.val 0x0D 12 n.val else s
  | none => s

theorem spareVisit_eq (s : State) (e0 e1 b0 b1 : BitVec 68) :
    s.spareVisit e0 e1 b0 b1 = ((s.spareJudge e0 e1).spareTo (s.spareJudge e0 e1).nextSpare).spareJudge b0 b1 := rfl

theorem checked_spareJudge (s : State) (a b : BitVec 68) :
    Checked s (s.spareJudge a b) fun i => ∃ n : Fin 16, s.afe.spare = some n ∧ disagree a b = true ∧ i = n.val := by
  unfold spareJudge
  split
  · next n hn =>
    refine (Checked.ite (c := disagree a b = true) (s.checked_healthFail (by omega) (healthCode_spare n))).congr fun i => ?_
    simp only [hn, Option.some.injEq, exists_eq_left']
  · next hn => exact (Checked.nothing s).congr fun i => by simp [hn]

theorem only_spareTo (s : State) (nx : Option (Fin 16)) : OnlyChanges [.afe] s (s.spareTo nx) := only_modAfe _ _

end State
end Sys2Proof.Machine
end

section
/-!
# Trips, calibration and O47 (10 R393–R396, R403, R404, R411)
-/
namespace Sys2Proof.Machine

namespace State
variable {s : State}

/-! ## Trips -/

theorem itripBlind_iff (s : State) (k : Fin 6) (b : Nat) : s.itripBlind k b = true ↔
    bit (at_ s.afe.itrip k).cfg 25 = true ∧ ∃ p : Fin 64,
      (p = Fin.ofNat 64 (fld (at_ s.afe.itrip k).cfg 13 8) ∨
        (p = partner (Fin.ofNat 64 (fld (at_ s.afe.itrip k).cfg 13 8)) ∧ (Fin.ofNat 64 (fld (at_ s.afe.itrip k).cfg 13 8)).val % 2 = 0 ∧
          s.paired (Fin.ofNat 64 (fld (at_ s.afe.itrip k).cfg 13 8)) = true)) ∧
      (s.chan p).o.chgAt + b ≤ s.time ∧ s.time < (s.chan p).o.chgAt + b + fld (at_ s.afe.itrip k).cfg 23 18 := by
  unfold itripBlind
  dsimp only
  generalize Fin.ofNat 64 (fld (at_ s.afe.itrip k).cfg 13 8) = c
  rw [Bool.and_eq_true, List.any_eq_true]
  refine and_congr_right fun _ => exists_congr fun p => and_congr ?_ ?_
  · split
    · next h => simp [h]
    · next h => simp only [List.mem_singleton, not_and] at h ⊢; exact ⟨.inl, fun hp => hp.elim id fun ⟨_, he, hpair⟩ => absurd hpair (h he)⟩
  · rw [Bool.and_eq_true, decide_eq_true_iff, decide_eq_true_iff]

/-- The last sample of ITRIPk is noted. -/
def sampled (s : State) (k : Fin 6) (vs : List Nat) : State := s.modItrip k fun x => { x with input := vs.headD x.input }

/-- ITRIPk trips on these samples: FILT + 1 of them lie outside its window, none of them blanked. -/
def ItripTrips (s : State) (k : Fin 6) (vs : List Nat) : Prop :=
  fld (at_ s.afe.itrip k).cfg 27 26 + 1 ≤ vs.length ∧
    ∀ b, b < fld (at_ s.afe.itrip k).cfg 27 26 + 1 → (at_ s.afe.itrip k).outOf (vs.getD b 0) = true ∧ ¬ s.itripBlind k b = true

theorem itrip_sampled (s : State) (k : Fin 6) (vs : List Nat) :
    at_ (s.sampled k vs).afe.itrip k = { at_ s.afe.itrip k with input := vs.headD (at_ s.afe.itrip k).input } := at_vset_self _ _ _

theorem itripBlind_sampled (s : State) (k : Fin 6) (vs : List Nat) (b : Nat) : (s.sampled k vs).itripBlind k b = s.itripBlind k b := by
  rw [Bool.eq_iff_iff, itripBlind_iff, itripBlind_iff, itrip_sampled]
  rfl

theorem all_take_iff {p : Nat → Bool} {vs : List Nat} {n : Nat} (hn : n ≤ vs.length) :
    (vs.take n).all p = true ↔ ∀ b, b < n → p (vs.getD b 0) = true := by
  rw [List.all_eq_true]
  constructor
  · intro h b hb
    have hb' : b < vs.length := hb.trans_le hn
    rw [List.getD_eq_getElem _ _ hb']
    exact h _ (List.mem_take_iff_getElem.2 ⟨b, by omega, rfl⟩)
  · intro h v hv
    obtain ⟨b, hb, rfl⟩ := List.mem_take_iff_getElem.1 hv
    have := h b (by omega)
    rwa [List.getD_eq_getElem _ _ (by omega)] at this

theorem itripTrip_cond (s : State) (k : Fin 6) (vs : List Nat) :
    (fld (at_ (s.sampled k vs).afe.itrip k).cfg 27 26 + 1 ≤ vs.length &&
      (vs.take (fld (at_ (s.sampled k vs).afe.itrip k).cfg 27 26 + 1)).all (at_ (s.sampled k vs).afe.itrip k).outOf &&
      !((List.range (fld (at_ (s.sampled k vs).afe.itrip k).cfg 27 26 + 1)).any fun b => (s.sampled k vs).itripBlind k b)) = true ↔
      s.ItripTrips k vs := by
  have hout : ∀ v, (at_ (s.sampled k vs).afe.itrip k).outOf v = (at_ s.afe.itrip k).outOf v := fun v => by
    rw [itrip_sampled]; rfl
  have hcfg : (at_ (s.sampled k vs).afe.itrip k).cfg = (at_ s.afe.itrip k).cfg := by rw [itrip_sampled]
  simp only [hcfg, itripBlind_sampled, Bool.and_eq_true, decide_eq_true_iff, Bool.not_eq_true', ItripTrips, and_assoc]
  refine and_congr_right fun hn => ?_
  rw [all_take_iff hn, List.any_eq_false]
  simp only [hout, List.mem_range]
  exact ⟨fun ⟨ho, hb⟩ b h => ⟨ho b h, hb b h⟩, fun h => ⟨fun b hb => (h b hb).1, fun b hb => (h b hb).2⟩⟩

theorem itripTrip_fires {k : Fin 6} {vs : List Nat} (h : s.ItripTrips k vs) : s.itripTrip k vs = (s.sampled k vs).itripFire k :=
  if_pos ((s.itripTrip_cond k vs).2 h)
theorem itripTrip_none {k : Fin 6} {vs : List Nat} (h : ¬ s.ItripTrips k vs) : s.itripTrip k vs = s.sampled k vs :=
  if_neg fun hc => h ((s.itripTrip_cond k vs).1 hc)

/-- The latch and the count of a trip, with a clear of the same cycle refused. -/
def itripLatched (s : State) (k : Fin 6) : State :=
  let t := s.modItrip k fun x => { x with latch := true, trips := satInc x.trips }
  if k ∈ t.cyc.itClr then t.itripRef k else t

/-- Cause ITRIP on the groves that cfg names. -/
def tripGroves (s : State) (cfg : Word) : State :=
  foldFin 8 (fun g s => if bit cfg g.val then (groveChans g).foldl (fun s c => s.setCause c cITRIP) s else s) s

theorem itripFire_eq (s : State) (k : Fin 6) : s.itripFire k = (s.itripLatched k).tripGroves (at_ s.afe.itrip k).cfg := rfl

theorem itrip_modItrip (s : State) (k j : Fin 6) (f : Itrip → Itrip) :
    at_ (s.modItrip k f).afe.itrip j = if k = j then f (at_ s.afe.itrip k) else at_ s.afe.itrip j := at_vset _ _ _ _

theorem itrip_itripRef (s : State) (k j : Fin 6) :
    at_ (s.itripRef k).afe.itrip j = at_ (s.modItrip k fun x => { x with clrref := true }).afe.itrip j := rfl

theorem only_itripLatched (s : State) (k : Fin 6) : OnlyChanges [.afe] s (s.itripLatched k) :=
  (only_modItrip s k _).both (.ite ((only_modItrip _ k _).both (only_hwSet _ _ _ _)) (.refl _ _))

theorem only_tripGroves (s : State) (cfg : Word) : OnlyChanges [.chans] s (s.tripGroves cfg) :=
  .foldFin (fun _ _ => .ite (.foldl (fun t c => only_setCause t c _) _ _) (.refl _ _)) s

theorem itrip_itripLatched (s : State) (k j : Fin 6) : at_ (s.itripLatched k).afe.itrip j = if j = k then
    { at_ s.afe.itrip k with latch := true, trips := satInc (at_ s.afe.itrip k).trips,
                             clrref := (at_ s.afe.itrip k).clrref || decide (k ∈ s.cyc.itClr) } else at_ s.afe.itrip j := by
  unfold itripLatched
  dsimp only
  rw [show (s.modItrip k fun x => { x with latch := true, trips := satInc x.trips }).cyc.itClr = s.cyc.itClr from rfl]
  by_cases hc : k ∈ s.cyc.itClr
  · rw [if_pos hc, decide_eq_true hc, Bool.or_true, itrip_itripRef, itrip_modItrip, itrip_modItrip, itrip_modItrip]
    by_cases hj : j = k
    · simp only [hj, if_true]
    · simp only [hj, Ne.symm hj, if_false]
  · rw [if_neg hc, decide_eq_false hc, Bool.or_false, itrip_modItrip]
    by_cases hj : j = k
    · simp only [hj, if_true]
    · simp only [hj, Ne.symm hj, if_false]

/-- A channel in Clearing with cause ITRIP. -/
def TripClear (n : Fin 64) (t : State) : Prop := bit (t.chan n).o.clr 2 = true ∧ (t.chan n).o.inClr = true

theorem tripClear_setCause_self (s : State) (n : Fin 64) : TripClear n (s.setCause n cITRIP) := by
  refine ⟨?_, inClr_setCause s n _⟩
  rw [← Output.bit_causes _ (by decide), causes_setCause_self s n (by decide), bit_or]
  exact Bool.or_true _

theorem TripClear.setCause {n : Fin 64} (h : TripClear n s) (m : Fin 64) : TripClear n (s.setCause m cITRIP) := by
  by_cases hm : n = m
  · exact hm ▸ tripClear_setCause_self s n
  · refine ⟨?_, staysClear_setCause s m _ n h.2⟩
    rw [← Output.bit_causes _ (by decide), causes_setCause_ne hm, Output.bit_causes _ (by decide)]
    exact h.1

theorem tripClear_tripGroves (s : State) {cfg : Word} {g : Fin 8} (hg : bit cfg g.val = true) (m : Fin 8) :
    TripClear (chanOf g m) (s.tripGroves cfg) := by
  refine foldl_reaches (Q := TripClear (chanOf g m)) (List.mem_finRange g) (fun t => ?_) (fun t g' h => ?_) s
  · dsimp only
    rw [if_pos hg]
    exact foldl_reaches (Q := TripClear (chanOf g m)) (f := fun s c => s.setCause c cITRIP) (chanOf_mem g m)
      (fun u => tripClear_setCause_self u _) (fun u c h => h.setCause c) t
  · dsimp only
    split
    · exact foldl_invariant (P := TripClear (chanOf g m)) (f := fun s c => s.setCause c cITRIP) (fun u c hu => hu.setCause c) _ h
    · exact h

/-! ## Clears of latches -/

theorem only_itripClear (s : State) (k : Fin 6) : OnlyChanges [.afe] s (s.itripClear k) :=
  ((only_modCyc s _ _).both (.ite ((only_modItrip _ k _).both (only_hwSet _ _ _ _)) (only_modItrip _ k _)))

theorem itrip_itripClear_ne {k j : Fin 6} (h : j ≠ k) : at_ (s.itripClear k).afe.itrip j = at_ s.afe.itrip j := by
  unfold itripClear
  dsimp only
  split <;> exact at_vset_ne _ _ h.symm

theorem itrip_itripClear_self (s : State) (k : Fin 6) : at_ (s.itripClear k).afe.itrip k =
    { at_ s.afe.itrip k with latch := (at_ s.afe.itrip k).latch && (at_ s.afe.itrip k).outside
                             clrref := (at_ s.afe.itrip k).clrref || (at_ s.afe.itrip k).outside } := by
  unfold itripClear
  dsimp only
  rw [show (s.modCyc fun c => { c with itClr := k :: c.itClr }).afe = s.afe from rfl]
  cases h : (at_ s.afe.itrip k).outside with
  | true =>
    rw [if_pos rfl, Bool.and_true, Bool.or_true]
    exact at_vset_self _ _ _
  | false =>
    rw [if_neg Bool.false_ne_true, Bool.and_false, Bool.or_false]
    exact at_vset_self _ _ _

theorem itrip_writeItcmd (s : State) (w : Word) (k : Fin 6) : at_ (s.writeItcmd w).afe.itrip k =
    { at_ s.afe.itrip k with latch := (at_ s.afe.itrip k).latch && !(bit w k.val && !(at_ s.afe.itrip k).outside)
                             clrref := (at_ s.afe.itrip k).clrref || (bit w k.val && (at_ s.afe.itrip k).outside) } := by
  obtain ⟨u, hu, hx⟩ := foldl_at (p := fun t : State => at_ t.afe.itrip k)
    (f := fun t (n : Fin 6) => if bit w n.val then t.itripClear n else t) (List.mem_finRange k) (List.nodup_finRange 6)
    (fun t n _ hn => by split; exacts [itrip_itripClear_ne hn.symm, rfl]) s
  refine hx.trans ?_
  rw [← hu]
  cases hb : bit w k.val with
  | true =>
    simp only [if_true, Bool.true_and, Bool.not_not]
    exact itrip_itripClear_self u k
  | false =>
    simp only [Bool.false_eq_true, if_false, Bool.false_and, Bool.not_false, Bool.and_true, Bool.or_false]

theorem only_writeItcmd (s : State) (w : Word) : OnlyChanges [.afe] s (s.writeItcmd w) :=
  .foldFin (fun k t => .ite (only_itripClear t k) (.refl _ _)) s

/-! ## Converter checks -/

/-- The errors in a row of a converter after a check. -/
def adcErrs (s : State) (a : Fin 2) : Option Nat → Nat
  | none => (s.adc a).errRun
  | some e => if 61440 < 1000 * e then (s.adc a).errRun + 1 else 0

theorem adcCheck_some (s : State) (a : Fin 2) (e : Nat) : s.adcCheck a (some e) =
    if 3 ≤ s.adcErrs a (some e) then
      (s.modAdc a fun x => { x with errRun := s.adcErrs a (some e) }).healthFail (22 + a.val) 0x0F 6 a.val
    else s.modAdc a fun x => { x with errRun := s.adcErrs a (some e) } := rfl

theorem errRun_adcCheck (s : State) (a b : Fin 2) (err : Option Nat) :
    ((s.adcCheck a err).adc b).errRun = if b = a then s.adcErrs a err else (s.adc b).errRun := by
  cases err with
  | none => exact (ite_eq_right_iff.2 fun h => h ▸ rfl).symm
  | some e =>
    have hmod (n : Nat) : ((s.modAdc a fun x => { x with errRun := n }).adc b).errRun = if b = a then n else (s.adc b).errRun := by
      show (at_ (vset s.afe.adc a _) b).errRun = _
      by_cases hb : b = a
      · rw [if_pos hb, hb, at_vset_self]
      · rw [if_neg hb, at_vset_ne _ _ (Ne.symm hb)]; rfl
    refine Eq.trans ?_ (hmod (s.adcErrs a (some e)))
    rw [adcCheck_some]
    split
    · exact congrArg (fun v => (at_ v b).errRun) (adc_healthFail _ _ _ _ _)
    · rfl

theorem checked_modAdc (s : State) (a : Fin 2) (f : Adc → Adc) : Checked s (s.modAdc a f) fun _ => False :=
  ⟨rfl, fun _ => (or_false _).to_iff.symm, fun _ h => h, fun _ h => h.elim, (only_modAdc _ _ _).mono (by decide)⟩

theorem checked_adcCheck (s : State) (a : Fin 2) (err : Option Nat) :
    Checked s (s.adcCheck a err) fun i => i = 22 + a.val ∧ err ≠ none ∧ 3 ≤ s.adcErrs a err := by
  cases err with
  | none => exact (Checked.nothing s).congr fun i => ⟨False.elim, fun h => h.2.1 rfl⟩
  | some e =>
    rw [adcCheck_some]
    refine ((s.checked_modAdc a fun x => { x with errRun := s.adcErrs a (some e) }).trans
      (.ite (c := 3 ≤ s.adcErrs a (some e)) (checked_healthFail _ (by omega) (healthCode_adc a)))).congr fun i => ?_
    simp only [false_or, ne_eq, reduceCtorEq, not_false_eq_true, true_and]
    exact and_comm

/-- The check of the DACs of ITRIPn. -/
def dacCheck (dac : List Nat) (n : Fin 6) (s : State) : State :=
  if 2 < dac.getD (2 * n.val) 0 ∨ 2 < dac.getD (2 * n.val + 1) 0 then s.healthFail (16 + n.val) 0x0E 12 (16 + n.val) else s

/-- The checks of the trip DACs. -/
def dacChecks (s : State) (dac : List Nat) : State := foldFin 6 (dacCheck dac) s

theorem checked_dacCheck (dac : List Nat) (s : State) (n : Fin 6) : Checked s (dacCheck dac n s) fun i =>
    (2 < dac.getD (2 * n.val) 0 ∨ 2 < dac.getD (2 * n.val + 1) 0) ∧ i = 16 + n.val :=
  .ite (s.checked_healthFail (by omega) (healthCode_itrip n))

theorem checked_dacChecks (s : State) (dac : List Nat) : Checked s (s.dacChecks dac) fun i =>
    ∃ n : Fin 6, (2 < dac.getD (2 * n.val) 0 ∨ 2 < dac.getD (2 * n.val + 1) 0) ∧ i = 16 + n.val :=
  .foldFin (checked_dacCheck dac) s

theorem adc_dacCheck (dac : List Nat) (n : Fin 6) (s : State) : (dacCheck dac n s).afe.adc = s.afe.adc := by
  unfold dacCheck
  split
  · exact adc_healthFail _ _ _ _ _
  · rfl

theorem adc_dacChecks (s : State) (dac : List Nat) : (s.dacChecks dac).afe.adc = s.afe.adc :=
  foldl_keeps (p := fun t : State => t.afe.adc) (f := fun s n => dacCheck dac n s) _ (fun t n _ => adc_dacCheck dac n t) s

/-- The checks of the converters and the trip DACs. -/
def converterChecks (s : State) (dac : List Nat) (adc0 adc1 : Option Nat) : State :=
  ((s.dacChecks dac).adcCheck 0 adc0).adcCheck 1 adc1

/-- The checks of the reference, VDDA and the internal points. -/
def supplyChecks (s : State) (vref : Bool) (vdda : Nat) (mon : List Nat) : State :=
  let s := if vref then s.healthFail 24 0x10 12 32 else s
  let s := if vdda < 3000 ∨ 3600 < vdda then s.healthFail 25 0x11 12 32 else s
  if mon.any fun e => decide (4 < e) then s.healthFail 27 0x13 12 32 else s

theorem healthCheck_eq (s : State) (dac : List Nat) (adc0 adc1 : Option Nat) (vref : Bool) (vdda : Nat) (mon : List Nat) :
    s.healthCheck dac adc0 adc1 vref vdda mon = (s.converterChecks dac adc0 adc1).supplyChecks vref vdda mon := rfl

theorem checked_supplyChecks (s : State) (vref : Bool) (vdda : Nat) (mon : List Nat) :
    Checked s (s.supplyChecks vref vdda mon) fun i => (i = 24 ∧ vref = true) ∨ (i = 25 ∧ (vdda < 3000 ∨ 3600 < vdda)) ∨
      (i = 27 ∧ ∃ e ∈ mon, 4 < e) := by
  refine (((Checked.ite (c := vref = true) (s.checked_healthFail (i := 24) (m := 0x10) (k := 12) (x := 32) (by omega) rfl)).trans
    (.ite (c := vdda < 3000 ∨ 3600 < vdda) (checked_healthFail _ (i := 25) (m := 0x11) (k := 12) (x := 32) (by omega) rfl))).trans
    (.ite (c := (mon.any fun e => decide (4 < e)) = true)
      (checked_healthFail _ (i := 27) (m := 0x13) (k := 12) (x := 32) (by omega) rfl))).congr fun i => ?_
  simp only [List.any_eq_true, decide_eq_true_eq, and_comm, or_assoc]

theorem adc_supplyChecks (s : State) (vref : Bool) (vdda : Nat) (mon : List Nat) :
    (s.supplyChecks vref vdda mon).afe.adc = s.afe.adc := by
  have hstep (c : Prop) [Decidable c] (s : State) (i m k x : Nat) : (if c then s.healthFail i m k x else s).afe.adc = s.afe.adc := by
    split; exacts [adc_healthFail _ _ _ _ _, rfl]
  exact (hstep _ _ _ _ _ _).trans ((hstep _ _ _ _ _ _).trans (hstep _ _ _ _ _ _))

theorem errRun_converterChecks (s : State) (dac : List Nat) (adc0 adc1 : Option Nat) (a : Fin 2) :
    ((s.converterChecks dac adc0 adc1).adc a).errRun = s.adcErrs a (if a = 0 then adc0 else adc1) := by
  have hdac : ∀ (b : Fin 2) (e : Option Nat), (s.dacChecks dac).adcErrs b e = s.adcErrs b e := fun b e => by
    have h : (s.dacChecks dac).adc b = s.adc b := congrArg (at_ · b) (adc_dacChecks s dac)
    cases e <;> simp only [adcErrs, h]
  have hone : ((s.dacChecks dac).adcCheck 0 adc0).adcErrs 1 adc1 = s.adcErrs 1 adc1 := by
    have h := errRun_adcCheck (s.dacChecks dac) 0 1 adc0
    rw [if_neg (by decide)] at h
    rw [← hdac]
    cases adc1 <;> simp only [adcErrs, h]
  rw [converterChecks, errRun_adcCheck, hone, errRun_adcCheck, hdac]
  obtain rfl | rfl : a = 0 ∨ a = 1 := by omega
  · rfl
  · rfl

theorem checked_converterChecks (s : State) (dac : List Nat) (adc0 adc1 : Option Nat) :
    Checked s (s.converterChecks dac adc0 adc1) fun i =>
      (∃ n : Fin 6, (2 < dac.getD (2 * n.val) 0 ∨ 2 < dac.getD (2 * n.val + 1) 0) ∧ i = 16 + n.val) ∨
      ∃ a : Fin 2, i = 22 + a.val ∧ (if a = 0 then adc0 else adc1) ≠ none ∧ 3 ≤ s.adcErrs a (if a = 0 then adc0 else adc1) := by
  have h0 := errRun_converterChecks s dac adc0 none 0
  refine (((s.checked_dacChecks dac).trans (checked_adcCheck _ 0 adc0)).trans (checked_adcCheck _ 1 adc1)).congr fun i => ?_
  have hdac : (s.dacChecks dac).adcErrs 0 adc0 = s.adcErrs 0 adc0 := by
    have h : (s.dacChecks dac).adc 0 = s.adc 0 := congrArg (at_ · 0) (adc_dacChecks s dac)
    cases adc0 <;> simp only [adcErrs, h]
  have hone : ((s.dacChecks dac).adcCheck 0 adc0).adcErrs 1 adc1 = s.adcErrs 1 adc1 := by
    have h := errRun_adcCheck (s.dacChecks dac) 0 1 adc0
    rw [if_neg (by decide), show (s.dacChecks dac).adc 1 = s.adc 1 from congrArg (at_ · 1) (adc_dacChecks s dac)] at h
    cases adc1 <;> simp only [adcErrs, h]
  rw [hdac, hone, or_assoc, Fin.exists_fin_two]
  rfl

end State
end Sys2Proof.Machine
end

section
/-!
# O47 (10 R387–R396, R403, R404, R411)
-/
namespace Sys2Proof.Machine

/-- The calibration after a measurement (10 R403, R404). -/
def Cal.measured (c : Cal) (lock : Bool) (step : BitVec 6) (err : Nat) : Cal :=
  let ok := lock && decide (err ≤ 40)
  let fail := c.sweepFail || !ok
  let worst := if c.sweepWorst.toNat < err then satOf 8 err else c.sweepWorst
  let past := decide (c.idx = 31)
  let valid := if !ok then false else c.valid || (past && !fail)
  let inval := c.valid && !valid
  let reval := !c.valid && valid && c.wasValid
  { c with
    lock := lock, valid := valid, table := vset c.table c.idx.toFin fun _ => step, wasValid := c.wasValid || valid
    invalidUs := if valid then 0 else c.invalidUs + 1, idx := c.idx + 1
    worst := if past then worst else c.worst
    sweepWorst := if past then 0 else worst
    sweepFail := if past then false else fail
    invals := if inval then satInc c.invals else c.invals
    flag := c.flag ||| (if inval then 1 else 0) ||| (if reval then 2 else 0) }

namespace State
variable {s : State}

/-! ## A visit of the spare -/

/-- The state in which the second comparison of a visit is judged. -/
def spareMoved (s : State) (e0 e1 : BitVec 68) : State := (s.spareJudge e0 e1).spareTo (s.spareJudge e0 e1).nextSpare

theorem afe_spareJudge (s : State) (a b : BitVec 68) :
    (s.spareJudge a b).afe = { s.afe with health := (s.spareJudge a b).afe.health, adc := (s.spareJudge a b).afe.adc } :=
  (s.checked_spareJudge a b).afe

theorem nextSpare_congr {t : State} (hs : t.afe.sens = s.afe.sens) (hp : t.afe.spare = s.afe.spare) : t.nextSpare = s.nextSpare := by
  unfold nextSpare
  rw [hs, hp]

theorem nextSpare_spareJudge (s : State) (a b : BitVec 68) : (s.spareJudge a b).nextSpare = s.nextSpare :=
  nextSpare_congr (by rw [afe_spareJudge]) (by rw [afe_spareJudge])

theorem spare_spareVisit (s : State) (e0 e1 b0 b1 : BitVec 68) : (s.spareVisit e0 e1 b0 b1).afe.spare = s.nextSpare := by
  rw [spareVisit_eq, afe_spareJudge]
  exact nextSpare_spareJudge s e0 e1

theorem spareCopy_spareVisit (e0 e1 b0 b1 : BitVec 68) {j : Fin 16} (h : s.nextSpare = some j) :
    (s.spareVisit e0 e1 b0 b1).afe.spareCopy = at_ s.afe.sens j := by
  have hsens : (s.spareJudge e0 e1).afe.sens = s.afe.sens := by rw [afe_spareJudge]
  rw [spareVisit_eq, afe_spareJudge]
  show (match (s.spareJudge e0 e1).nextSpare with | some n => at_ (s.spareJudge e0 e1).afe.sens n | none => _) = _
  rw [nextSpare_spareJudge, h, hsens]

theorem health_spareVisit (s : State) (e0 e1 b0 b1 : BitVec 68) (i : Nat) :
    bit (s.spareVisit e0 e1 b0 b1).afe.health i = true ↔ bit s.afe.health i = true ∨
      (∃ n : Fin 16, s.afe.spare = some n ∧ disagree e0 e1 = true ∧ i = n.val) ∨
      ∃ n : Fin 16, s.nextSpare = some n ∧ disagree b0 b1 = true ∧ i = n.val := by
  have hmoved : (s.spareMoved e0 e1).afe.spare = s.nextSpare := nextSpare_spareJudge s e0 e1
  have h := ((s.spareMoved e0 e1).checked_spareJudge b0 b1).health i
  rw [hmoved] at h
  exact h.trans ((or_congr_left ((s.checked_spareJudge e0 e1).health i)).trans or_assoc)

theorem reports_spareVisit (s : State) (e0 e1 b0 b1 : BitVec 68) {r : Report} (h : r ∈ (s.spareJudge e0 e1).reports) :
    r ∈ (s.spareVisit e0 e1 b0 b1).reports := ((s.spareMoved e0 e1).checked_spareJudge b0 b1).keeps r h

theorem only_spareVisit (s : State) (e0 e1 b0 b1 : BitVec 68) : OnlyChanges [.afe, .reports] s (s.spareVisit e0 e1 b0 b1) :=
  (((s.checked_spareJudge e0 e1).frame.trans (only_spareTo _ _)).trans ((s.spareMoved e0 e1).checked_spareJudge b0 b1).frame).mono
    (by decide)

/-! ## Measurements of the calibration -/

theorem calMeasure_eq (hup : s.pwr.pllLock = true) (lock : Bool) (step : BitVec 6) (err : Nat) : ∃ b,
    s.calMeasure lock step err = (if 1000 < (s.afe.cal.measured lock step err).invalidUs then
      (((s.modCal fun _ => s.afe.cal.measured lock step err).hwSet 0x55C4 b).healthFail 26 0x12 12 32)
      else (s.modCal fun _ => s.afe.cal.measured lock step err).hwSet 0x55C4 b) :=
  ⟨_, if_neg (by rw [hup]; decide)⟩

theorem checked_calMeasure (hup : s.pwr.pllLock = true) (lock : Bool) (step : BitVec 6) (err : Nat) :
    Checked (s.modCal fun _ => s.afe.cal.measured lock step err) (s.calMeasure lock step err) fun i =>
      1000 < (s.afe.cal.measured lock step err).invalidUs ∧ i = 26 := by
  obtain ⟨b, hb⟩ := calMeasure_eq hup lock step err
  rw [hb]
  have hset : Checked (s.modCal fun _ => s.afe.cal.measured lock step err)
      ((s.modCal fun _ => s.afe.cal.measured lock step err).hwSet 0x55C4 b) fun _ => False :=
    ⟨rfl, fun _ => (or_false _).to_iff.symm, fun _ h => h, fun _ h => h.elim, only_hwSet _ _ _ _⟩
  exact (hset.trans (.ite (checked_healthFail _ (by omega) rfl))).congr fun i => or_iff_right id

theorem cal_calMeasure (hup : s.pwr.pllLock = true) (lock : Bool) (step : BitVec 6) (err : Nat) :
    (s.calMeasure lock step err).afe.cal = s.afe.cal.measured lock step err := by rw [(checked_calMeasure hup lock step err).afe]; rfl

theorem only_calMeasure (hup : s.pwr.pllLock = true) (lock : Bool) (step : BitVec 6) (err : Nat) :
    OnlyChanges [.afe, .reports] s (s.calMeasure lock step err) :=
  ((only_modCal s _).trans (checked_calMeasure hup lock step err).frame).mono (by decide)

theorem table_measured (c : Cal) (lock : Bool) (step : BitVec 6) (err : Nat) (i : Fin 32) :
    at_ (c.measured lock step err).table i = if i.val = c.idx.toNat then step else at_ c.table i := by
  refine (at_vset _ _ _ _).trans (if_congr ⟨fun h => ?_, fun h => ?_⟩ rfl rfl)
  · exact congrArg Fin.val h.symm
  · exact Fin.ext h.symm

/-- A measurement that fails. -/
theorem measured_bad (c : Cal) {lock : Bool} {err : Nat} (step : BitVec 6) (h : lock = false ∨ 40 < err) :
    (c.measured lock step err).valid = false ∧ (c.valid = true → (c.measured lock step err).invals = satInc c.invals ∧
      bit (c.measured lock step err).flag 0 = true) ∧ (c.idx ≠ 31 → (c.measured lock step err).sweepFail = true) ∧
      (c.measured lock step err).invalidUs = c.invalidUs + 1 := by
  have hok : (lock && decide (err ≤ 40)) = false := by
    obtain rfl | h := h
    · rfl
    · rw [decide_eq_false (Nat.not_le.2 h), Bool.and_false]
  unfold Cal.measured
  rw [hok]
  refine ⟨rfl, fun hv => ⟨by simp [hv], ?_⟩, fun hi => (if_neg (by rw [decide_eq_false hi]; decide)).trans (Bool.or_true _), rfl⟩
  simp [hv, bit]

/-- A measurement that passes. -/
theorem measured_good (c : Cal) {err : Nat} (step : BitVec 6) (h : err ≤ 40) :
    (c.measured true step err).valid = (c.valid || (decide (c.idx = 31) && !c.sweepFail)) ∧
      (c.measured true step err).invals = c.invals ∧
      (c.valid = false → c.idx = 31 → c.sweepFail = false → c.wasValid = true → bit (c.measured true step err).flag 1 = true) := by
  unfold Cal.measured
  rw [decide_eq_true h]
  refine ⟨by simp, ?_, fun hv hi hf hw => ?_⟩
  · cases c.valid <;> rfl
  · simp only [hv, hi, hf, hw, bit_or]
    exact Bool.or_true _

end State

/-- A command of the front end whose checks are F. -/
theorem completes_checked {c : Instr} {s t : State} {f : State → State} {P : State → Prop} {F : Nat → Prop}
    (hc : exec c s = .next (s.whenUp s.pwr.pllLock f)) (hup : s.pwr.pllLock = true) (hx : f s = t) (hP : P t) (h : State.Checked s t F) :
    Completes c s [.afe, .reports] P := completes_clocked hc hup hx hP h.frame

/-- Settles O47: a comparator's switch by its cases; the spare's next input as the least in the order it goes round; a trip's
samples and its Clearing; the checks composed from one rule for a failing check. -/
theorem sensorsTripsAndChecks : Obligations.SensorsTripsAndChecks := by
  unfold Obligations.SensorsTripsAndChecks
  intro s n k v peak trough differ lock vref clr step e0 e1 b0 b1 vs dac mon adc0 adc1 vdda err
    x vr thr hyst high armed level y0 change leaves amp frac low base next differs y out bch blind filt trips failed errs told c
  have hhigh : x.compare v = high := x.compare_eq v
  have hleaves {z : Sens} {lowamp : Bool} (hup : s.pwr.pllLock = true) (hx : s.sensChange n v peak trough = s.sensBecomes n (z, lowamp)) :
      leaves z lowamp := completes_clocked rfl hup hx (s.sensBecomes_leaves n z lowamp) (s.only_sensBecomes n _)
  have harmed : x.armedBy v high = armed := by
    show (if fld x.cfg 1 0 = 2 then _ else _) = if decide (fld x.cfg 1 0 = 2) = true then _ else _
    by_cases h : fld x.cfg 1 0 = 2
    · rw [if_pos h, if_pos (decide_eq_true h)]; rfl
    · rw [if_neg h, if_neg (by rw [decide_eq_false h]; decide)]
  have hdiff (a b : BitVec 68) : State.disagree a b = true ↔ differs a b := State.disagree_iff a b
  have htrips : s.ItripTrips k vs ↔ trips :=
    and_congr_right fun _ => forall₂_congr fun b _ => and_congr_right fun _ => not_congr (s.itripBlind_iff k b)
  refine ⟨fun hdown i hi => ?_, fun hup => ⟨fun hoff => completes_clocked rfl hup (State.sensChange_off hoff v peak trough) trivial (.refl _ _),
    fun hon => ?sensor, ?spare, fun ht => ?trip, fun ht => ?noTrip, ?clear, ?health, ?pair, fun hbad => ?calBad, fun hl he => ?calGood⟩⟩
  · simp only [List.mem_cons, List.not_mem_nil, or_false] at hi
    obtain rfl | rfl | rfl | rfl | rfl | rfl | rfl := hi <;> exact completes_unclocked rfl hdown
  case sensor =>
    have hswitch (h : high ≠ x.cmp) : s.sensChange n v peak trough = s.sensBecomes n (y0.switch level peak trough) := by
      have := State.sensChange_switch hon (by rw [show (at_ s.afe.sens n) = x from rfl, hhigh]; exact h) peak trough
      rw [show (at_ s.afe.sens n) = x from rfl, hhigh, harmed] at this
      exact this
    refine ⟨fun h => hleaves hup ?_, fun h hm => hleaves hup ((hswitch h).trans ?_), fun h hm hl => hleaves hup ((hswitch h).trans ?_),
      fun h hm hl hc => hleaves hup ((hswitch h).trans ?_), fun h hm hl hc ha => hleaves hup ((hswitch h).trans ?_),
      fun h hm hl hc ha => hleaves hup ((hswitch h).trans ?_)⟩
    · have := State.sensChange_steady hon (by rw [show (at_ s.afe.sens n) = x from rfl, hhigh]; exact h) peak trough
      rw [show (at_ s.afe.sens n) = x from rfl, hhigh, harmed] at this
      exact this
    · rw [Sens.switch_raw (x := y0) hm]
    · rw [hl, Sens.switch_low (x := y0) hm]
    · rw [hl, Sens.switch_first (x := y0) hm hc]
    · rw [hl, Sens.switch_lowamp (x := y0) hm hc ha]
    · rw [hl, Sens.switch_cycle (x := y0) hm hc ha]
      rfl
  case spare =>
    refine completes_clocked rfl hup rfl ⟨⟨fun h => ?_, fun j hj => ?_⟩, fun j hj hd hclear => ?_, fun i => ?_⟩ (s.only_spareVisit _ _ _ _)
    · rw [State.spare_spareVisit]
      exact State.nextSpare_isSome h
    · rw [State.spare_spareVisit] at hj
      obtain ⟨hon, hmin⟩ := State.nextSpare_spec hj
      exact ⟨hon, State.spareCopy_spareVisit e0 e1 b0 b1 hj, hmin⟩
    · obtain ⟨r, hr, hcode⟩ := (s.checked_spareJudge e0 e1).told j.val ⟨j, hj, (hdiff e0 e1).2 hd, rfl⟩ hclear
      rw [healthCode_spare] at hcode
      exact ⟨r, s.reports_spareVisit e0 e1 b0 b1 hr, hcode⟩
    · rw [State.health_spareVisit, State.spare_spareVisit, ← hdiff, ← hdiff]
      have hval {o : Option (Fin 16)} {p : Prop} : (∃ n : Fin 16, o = some n ∧ p ∧ i.val = n.val) ↔ o = some i ∧ p :=
        ⟨fun ⟨m, hm, hp, he⟩ => ⟨Fin.ext he ▸ hm, hp⟩, fun ⟨hm, hp⟩ => ⟨i, hm, hp, rfl⟩⟩
      rw [hval, hval]
  case trip =>
    have hafe : ((s.sampled k vs).itripFire k).afe = ((s.sampled k vs).itripLatched k).afe :=
      State.only_tripGroves _ _ .afe (by decide)
    refine completes_clocked rfl hup (State.itripTrip_fires (htrips.2 ht)) ⟨?_, fun j hj => ?_, fun g m hg => ?_⟩
      (((State.only_modItrip s k _).trans ((State.only_itripLatched _ k).trans (State.only_tripGroves _ _))).mono (by decide))
    · rw [hafe, State.itrip_itripLatched, if_pos rfl, State.itrip_sampled]
      rfl
    · rw [hafe, State.itrip_itripLatched, if_neg hj]
      exact at_vset_ne _ _ hj.symm
    · rw [State.itripFire_eq]
      exact State.tripClear_tripGroves _ (by rw [State.itrip_sampled]; exact hg) m
  case noTrip =>
    exact completes_clocked rfl hup (State.itripTrip_none fun h => ht (htrips.1 h))
      ⟨State.itrip_sampled s k vs, fun j hj => at_vset_ne _ _ hj.symm⟩ (State.only_modItrip s k _)
  case clear =>
    refine completes_clocked rfl hup rfl ?_ (s.only_writeItcmd _)
    have hbit : bit (clr.setWidth 32) k.val = bit clr k.val := by
      have := k.isLt
      simp [bit, show k.val < 32 by omega]
    have h := s.itrip_writeItcmd (clr.setWidth 32) k
    rw [hbit] at h
    exact h
  case health =>
    have h1 := s.checked_converterChecks dac adc0 adc1
    have h := h1.trans (State.checked_supplyChecks _ vref vdda mon)
    have herrs (a : Fin 2) : s.adcErrs a (if a = 0 then adc0 else adc1) = errs a := by
      unfold State.adcErrs
      rfl
    have herr (a : Fin 2) : ((s.healthCheck dac adc0 adc1 vref vdda mon).adc a).errRun = errs a := by
      rw [State.healthCheck_eq]
      refine (congrArg (fun v => (at_ v a).errRun) (State.adc_supplyChecks _ vref vdda mon)).trans
        ((s.errRun_converterChecks dac adc0 adc1 a).trans ?_)
      exact herrs a
    refine completes_checked rfl hup rfl ⟨fun i => ?_, herr, fun j hj hclear => ?_, fun a ht he hclear => ?_, fun hv hclear => ?_,
      fun hv hclear => ?_, fun hm hclear => ?_⟩ h
    · refine (h.health i).trans (or_congr_right ?_)
      rw [or_assoc]
      exact or_congr (exists_congr fun _ => and_comm) (or_congr_left (exists_congr fun a => and_congr_right fun _ => and_congr_right fun _ =>
        by rw [← herrs a]))
    · have := h.told (16 + j.val) (.inl (.inl ⟨j, .inl hj, rfl⟩)) hclear
      rwa [healthCode_itrip] at this
    · have := h.told (22 + a.val) (.inl (.inr ⟨a, rfl, ht, by rw [herrs a]; exact he⟩)) hclear
      rwa [healthCode_adc] at this
    · exact h.told 24 (.inr (.inl ⟨rfl, hv⟩)) hclear
    · exact h.told 25 (.inr (.inr (.inl ⟨rfl, hv⟩))) hclear
    · exact h.told 27 (.inr (.inr (.inr ⟨rfl, hm⟩))) hclear
  case pair =>
    have hmod : State.Checked (s.modItrip k fun x => { x with dupf := differ }) (s.itripPair k differ) fun i => differ = true ∧ i = 16 + k.val :=
      .ite (State.checked_healthFail _ (by omega) (healthCode_itrip k))
    refine completes_clocked rfl hup rfl ⟨?_, fun i => ?_, fun hd hclear => ?_⟩
      (((State.only_modItrip s k _).trans hmod.frame).mono (by decide))
    · rw [hmod.afe]
      exact at_vset_self _ _ _
    · rw [Bool.eq_iff_iff, hmod.health, Bool.or_eq_true, Bool.and_eq_true, decide_eq_true_iff]
      exact Iff.rfl
    · have := hmod.told (16 + k.val) ⟨hd, rfl⟩ hclear
      rwa [healthCode_itrip] at this
  case calBad =>
    obtain ⟨hvalid, hinval, hsweep, hus⟩ := State.measured_bad c step hbad
    refine completes_clocked rfl hup rfl ?_ (State.only_calMeasure hup lock step err)
    rw [State.cal_calMeasure hup]
    refine ⟨hvalid, rfl, rfl, State.table_measured c lock step err, hinval, hsweep, fun h => ?_⟩
    exact ((State.checked_calMeasure hup lock step err).health 26).2 (.inr ⟨by rw [hus]; omega, rfl⟩)
  case calGood =>
    obtain ⟨hvalid, hinvals, hflag⟩ := State.measured_good c step he
    refine completes_clocked rfl hup rfl ?_ (State.only_calMeasure hup lock step err)
    rw [State.cal_calMeasure hup, hl]
    exact ⟨hvalid, rfl, rfl, hinvals, State.table_measured c true step err, hflag⟩

end Sys2Proof.Machine
end

section
/-!
# Converters (10 R398–R400, R418, R419)
-/
namespace Sys2Proof.Machine

/-- An ADC but for its event registers and its waiting copies. -/
def Adc.core (x : Adc) : Adc := { x with ev := {}, copies := [] }

theorem Adc.view_of_core {β : Type} {x y : Adc} (h : x.core = y.core) (f : Adc → β) (hf : ∀ z : Adc, f z.core = f z) : f x = f y := by
  rw [← hf x, h, hf]

/-- The entry that follows e (10 R400). -/
theorem Adc.nextOf_eq (x : Adc) (e : Fin 16) : x.nextOf e =
    if bit (at_ x.seq e) 15 = true ∨ e = 15 then (if x.loop then some 0 else none) else some (e + 1) := by
  unfold Adc.nextOf
  refine if_congr ?_ rfl rfl
  rw [Bool.or_eq_true, decide_eq_true_iff]
  exact or_congr_right ⟨fun h => Fin.ext h, fun h => h ▸ rfl⟩

theorem Adc.watched_busy {x : Adc} {e : Fin 16} (h : x.watched = some e) : x.run = true ∧ x.fenced = false := by
  unfold Adc.watched at h
  split at h
  · exact nomatch h
  · next hc => simpa using hc

/-- ADC a after the result of entry e with the code, of a running sequence (10 R400, R418). -/
def Adc.registered (x : Adc) (e : Fin 16) (code : BitVec 12) : Adc :=
  { x with res := vset x.res e fun _ => packw [(x.seqno.toNat, 24), (1, 16), (fld (at_ x.seq e) 3 0, 12), (code.toNat, 0)]
           conv := none
           seqno := if bit (at_ x.seq e) 15 || decide (e.val = 15) then x.seqno + 1 else x.seqno
           entry := (x.nextOf e).getD x.entry, run := (x.nextOf e).isSome
           latched := if (x.nextOf e).isSome then x.latched else false }

namespace State
variable {s t u : State} {a : Fin 2}

theorem adc_modAdc_ne (s : State) {a b : Fin 2} (h : b ≠ a) (f : Adc → Adc) : (s.modAdc a f).adc b = s.adc b := at_vset_ne _ _ h.symm

/-! ## Flags and copies beside a conversion -/

theorem afe_raiseAdc (s : State) (a : Fin 2) (b : BitVec 16) :
    (s.raiseAdc a b).afe = (s.modAdc a fun x => { x with ev := ((s.adc a).ev.set b).1 }).afe := by
  unfold raiseAdc
  dsimp only
  split <;> rfl

theorem only_raiseAdc (s : State) (a : Fin 2) (b : BitVec 16) : OnlyChanges [.afe, .tt] s (s.raiseAdc a b) := by
  have ht : OnlyChanges [.afe, .tt] s ((s.modAdc a fun x => { x with ev := ((s.adc a).ev.set b).1 }).hwSet
      (0x5608 + 0xA0 * a.val) (b.setWidth 32)) := ((only_modAdc s a _).both (only_hwSet _ _ _ _)).mono (by decide)
  unfold raiseAdc
  exact .ite (ht.also (only_request _ _ _) (by decide)) ht

theorem adcTrig_raiseAdc (s : State) (a : Fin 2) (b : BitVec 16) : (s.raiseAdc a b).cyc.adcTrig = s.cyc.adcTrig := by
  unfold raiseAdc
  dsimp only
  split <;> rfl

theorem flag_raiseAdc (s : State) (a : Fin 2) (b : BitVec 16) : ((s.raiseAdc a b).adc a).ev.flag = (s.adc a).ev.flag ||| b := by
  rw [adc, afe_raiseAdc]
  exact congrArg (fun x : Adc => x.ev.flag) (adc_modAdc_self s a _)

/-- From s to t, ADC a alone has changed, and it in its event registers and its waiting copies, no flag cleared. -/
structure AdcNotes (a : Fin 2) (s t : State) : Prop where
  core : (t.adc a).core = (s.adc a).core
  others : ∀ b, b ≠ a → t.adc b = s.adc b
  sig : t.afe.sig = s.afe.sig
  trig : t.cyc.adcTrig = s.cyc.adcTrig
  flags : ∀ i, bit (s.adc a).ev.flag i = true → bit (t.adc a).ev.flag i = true
  frame : OnlyChanges [.afe, .tt] s t

namespace AdcNotes

theorem refl (a : Fin 2) (s : State) : AdcNotes a s s := ⟨rfl, fun _ _ => rfl, rfl, rfl, fun _ h => h, .refl _ _⟩

theorem trans (h : AdcNotes a s t) (k : AdcNotes a t u) : AdcNotes a s u :=
  ⟨k.core.trans h.core, fun b hb => (k.others b hb).trans (h.others b hb), k.sig.trans h.sig, k.trig.trans h.trig,
    fun i hi => k.flags i (h.flags i hi), h.frame.both k.frame⟩

theorem ite {c : Prop} [Decidable c] (h : AdcNotes a s t) (k : AdcNotes a s u) : AdcNotes a s (if c then t else u) := by
  split
  · exact h
  · exact k

end AdcNotes

theorem notes_raiseAdc (s : State) (a : Fin 2) (b : BitVec 16) : AdcNotes a s (s.raiseAdc a b) where
  core := by
    rw [adc, afe_raiseAdc]
    exact (congrArg Adc.core (adc_modAdc_self s a _)).trans rfl
  others c hc := by
    rw [adc, afe_raiseAdc]
    exact adc_modAdc_ne s hc _
  sig := by rw [afe_raiseAdc]; rfl
  trig := adcTrig_raiseAdc s a b
  flags i hi := by rw [flag_raiseAdc, bit_or, hi, Bool.true_or]
  frame := only_raiseAdc s a b

theorem notes_adcCopy (s : State) (a : Fin 2) (e : Fin 16) (code : BitVec 12) : AdcNotes a s (s.adcCopy a e code) := by
  have hmod (f : Adc → List (Fin 16 × BitVec 16)) : AdcNotes a s (s.modAdc a fun x => { x with copies := f x }) :=
    ⟨(congrArg Adc.core (adc_modAdc_self s a _)).trans rfl, fun b hb => adc_modAdc_ne s hb _, rfl, rfl,
      fun i hi => by rw [adc_modAdc_self]; exact hi, (only_modAdc _ _ _).mono (by decide)⟩
  unfold adcCopy
  dsimp only
  split
  · exact .refl a s
  · exact .ite ((hmod fun x => (x.copies.filter fun p => p.1 ≠ e) ++ [(e, code.setWidth 16)]).trans (notes_raiseAdc _ a _)) (hmod _)

/-! ## Triggers -/

theorem adcEvent_unwatched (h : (s.adc a).watched = none) (tr ix : Nat) : s.adcEvent a tr ix = s := by
  unfold adcEvent
  simp only [h]

theorem adcEvent_other {e : Fin 16} {tr ix : Nat} (h : (s.adc a).watched = some e)
    (hne : fld (at_ (s.adc a).seq e) 6 4 ≠ tr ∨ fld (at_ (s.adc a).seq e) 13 8 ≠ ix) : s.adcEvent a tr ix = s := by
  unfold adcEvent
  simp only [h]
  exact if_neg fun hc => hne.elim (fun h => h hc.1) (fun h => h hc.2)

theorem adcEvent_starts {e : Fin 16} {tr ix : Nat} (h : (s.adc a).watched = some e) (htr : fld (at_ (s.adc a).seq e) 6 4 = tr)
    (hix : fld (at_ (s.adc a).seq e) 13 8 = ix) (hc : (s.adc a).conv = none) : s.adcEvent a tr ix = s.adcStart a e := by
  unfold adcEvent
  simp only [h]
  exact (if_pos ⟨htr, hix⟩).trans (by rw [hc])

theorem adcEvent_busy {e : Fin 16} {tr ix : Nat} (h : (s.adc a).watched = some e) (htr : fld (at_ (s.adc a).seq e) 6 4 = tr)
    (hix : fld (at_ (s.adc a).seq e) 13 8 = ix) (hc : (s.adc a).conv ≠ none) : s.adcEvent a tr ix =
      if (s.adc a).latched then s.raiseAdc a dTRIGOVR
      else (s.modAdc a fun x => { x with latched := true }).modCyc fun c => { c with adcTrig := a :: c.adcTrig } := by
  obtain ⟨c, hc⟩ := Option.ne_none_iff_exists'.1 hc
  unfold adcEvent
  simp only [h]
  exact (if_pos ⟨htr, hix⟩).trans (by rw [hc])

theorem only_adcStart (s : State) (a : Fin 2) (e : Fin 16) : OnlyChanges [.afe] s (s.adcStart a e) := only_modAdc _ _ _

/-! ## Results -/

end State
end Sys2Proof.Machine
end

section
/-!
# Results of a running sequence (10 R398–R400)
-/
namespace Sys2Proof.Machine

/-- The word a result leaves (10 R400). -/
theorem toNat_resultWord (seqno : BitVec 8) (q : BitVec 16) (code : BitVec 12) :
    (packw [(seqno.toNat, 24), (1, 16), (fld q 3 0, 12), (code.toNat, 0)] : Word).toNat =
      seqno.toNat * 2 ^ 24 + 2 ^ 16 + fld q 3 0 * 2 ^ 12 + code.toNat := by
  have := seqno.isLt
  have := code.isLt
  have hq : fld q 3 0 < 16 := fld_lt q 3 0
  rw [packw_eq, BitVec.toNat_ofNat]
  simp only [packNumber_cons, packNumber_nil]
  rw [Nat.mod_eq_of_lt (by omega)]
  omega

namespace State
variable {s t : State} {a : Fin 2} {e : Fin 16}

/-- The result of entry e noted: registered, its copy waiting, and DONE flagged after the last entry. -/
def adcNoted (s : State) (a : Fin 2) (e : Fin 16) (code : BitVec 12) : State :=
  let u := (s.modAdc a fun x => x.registered e code).adcCopy a e code
  if bit (at_ (s.adc a).seq e) 15 || decide (e.val = 15) then u.raiseAdc a dDONE else u

/-- ADC a goes on with its current entry, where its trigger has come (10 R399). -/
def adcContinue (s : State) (a : Fin 2) : State :=
  let y := s.adc a
  if y.run && !y.fenced then
    if y.latched then (s.adcStart a y.entry).raiseAdc a (if a ∈ s.cyc.adcTrig then 0 else dLATE)
    else if fld (at_ y.seq y.entry) 6 4 = 0 ∧ fld (at_ y.seq y.entry) 13 8 = 0 then s.adcStart a y.entry
    else s
  else s

theorem modAdc_congr {f g : Adc → Adc} (h : f (s.adc a) = g (s.adc a)) : s.modAdc a f = s.modAdc a g := by
  show s.modAfe _ = s.modAfe _
  unfold modAfe vset
  exact congrArg (fun y => { s with afe := { s.afe with adc := s.afe.adc.set a.val y a.isLt } }) h

theorem adcResult_none (h : (s.adc a).conv = none ∨ s.time - (s.adc a).convAt < 50) (code : BitVec 12) : s.adcResult a code = s := by
  have hnone : (if 50 ≤ s.time - (s.adc a).convAt then (s.adc a).conv else none) = none := by
    split
    · next hle => exact h.resolve_right (Nat.not_lt.2 hle)
    · rfl
  unfold adcResult
  simp only [hnone]

theorem adcResult_running (hc : (s.adc a).conv = some e) (ht : 50 ≤ s.time - (s.adc a).convAt) (hrun : (s.adc a).run = true)
    (hadv : (s.adc a).noadv = false) (code : BitVec 12) : s.adcResult a code = (s.adcNoted a e code).adcContinue a := by
  have hsome : (if 50 ≤ s.time - (s.adc a).convAt then (s.adc a).conv else none) = some e := (if_pos ht).trans hc
  unfold adcResult
  dsimp only
  rw [hsome]
  dsimp only
  have hreg : (s.modAdc a fun x => (fun x : Adc => if x.noadv || !x.run then { x with noadv := false } else { x with
      seqno := if bit (at_ (s.adc a).seq e) 15 || decide (e.val = 15) then x.seqno + 1 else x.seqno
      entry := ((s.adc a).nextOf e).getD x.entry, run := ((s.adc a).nextOf e).isSome
      latched := if ((s.adc a).nextOf e).isSome then x.latched else false })
      { x with res := vset x.res e fun _ => packw [((s.adc a).seqno.toNat, 24), (1, 16), (fld (at_ (s.adc a).seq e) 3 0, 12), (code.toNat, 0)],
               conv := none }) = s.modAdc a fun x => x.registered e code :=
    modAdc_congr (if_neg (by simp [hadv, hrun]))
  dsimp only at hreg
  rw [hreg]
  unfold adcContinue adcNoted
  simp only [hadv, hrun, Bool.not_false, Bool.and_true, and_true]

/-! ## What the next entry does -/

/-- From s to t, ADC a alone has changed, and it in the conversion in hand, its latch and its flags, none cleared. -/
structure AdcGoesOn (a : Fin 2) (s t : State) : Prop where
  res : (t.adc a).res = (s.adc a).res
  seqno : (t.adc a).seqno = (s.adc a).seqno
  run : (t.adc a).run = (s.adc a).run
  entry : (t.adc a).entry = (s.adc a).entry
  others : ∀ b, b ≠ a → t.adc b = s.adc b
  sig : t.afe.sig = s.afe.sig
  flags : ∀ i, bit (s.adc a).ev.flag i = true → bit (t.adc a).ev.flag i = true
  frame : OnlyChanges [.afe, .tt] s t

theorem AdcNotes.goesOn (h : AdcNotes a s t) : AdcGoesOn a s t where
  res := Adc.view_of_core h.core Adc.res fun _ => rfl
  seqno := Adc.view_of_core h.core Adc.seqno fun _ => rfl
  run := Adc.view_of_core h.core Adc.run fun _ => rfl
  entry := Adc.view_of_core h.core Adc.entry fun _ => rfl
  others := h.others
  sig := h.sig
  flags := h.flags
  frame := h.frame

theorem AdcGoesOn.trans {u : State} (h : AdcGoesOn a s t) (k : AdcGoesOn a t u) : AdcGoesOn a s u :=
  ⟨k.res.trans h.res, k.seqno.trans h.seqno, k.run.trans h.run, k.entry.trans h.entry,
    fun b hb => (k.others b hb).trans (h.others b hb), k.sig.trans h.sig, fun i hi => k.flags i (h.flags i hi), h.frame.both k.frame⟩

theorem adc_adcStart_self (s : State) (a : Fin 2) (e : Fin 16) :
    (s.adcStart a e).adc a = { s.adc a with conv := some e, convAt := s.time, latched := false, noadv := false } :=
  adc_modAdc_self s a _

theorem goesOn_adcStart (s : State) (a : Fin 2) (e : Fin 16) : AdcGoesOn a s (s.adcStart a e) where
  res := by rw [adc_adcStart_self]
  seqno := by rw [adc_adcStart_self]
  run := by rw [adc_adcStart_self]
  entry := by rw [adc_adcStart_self]
  others b hb := adc_modAdc_ne s hb _
  sig := rfl
  flags i hi := by rw [adcStart, adc_modAdc_self]; exact hi
  frame := (only_adcStart s a e).mono (by decide)

theorem goesOn_adcContinue (s : State) (a : Fin 2) : AdcGoesOn a s (s.adcContinue a) := by
  unfold adcContinue
  dsimp only
  split
  · split
    · exact (goesOn_adcStart s a _).trans (notes_raiseAdc _ a _).goesOn
    · split
      · exact goesOn_adcStart s a _
      · exact (AdcNotes.refl a s).goesOn
  · exact (AdcNotes.refl a s).goesOn

/-- ADC a is in service and goes on with entry nx. -/
structure AdcAt (s : State) (a : Fin 2) (nx : Fin 16) : Prop where
  run : (s.adc a).run = true
  fenced : (s.adc a).fenced = false
  entry : (s.adc a).entry = nx

theorem adcContinue_stopped (h : (s.adc a).run = false) : s.adcContinue a = s := if_neg (by rw [h, Bool.false_and]; decide)

theorem adcContinue_on {nx : Fin 16} (h : s.AdcAt a nx) : s.adcContinue a =
    if (s.adc a).latched then (s.adcStart a nx).raiseAdc a (if a ∈ s.cyc.adcTrig then 0 else dLATE)
    else if fld (at_ (s.adc a).seq nx) 6 4 = 0 ∧ fld (at_ (s.adc a).seq nx) 13 8 = 0 then s.adcStart a nx
    else s := by
  obtain ⟨hr, hf, he⟩ := h
  unfold adcContinue
  dsimp only
  rw [hr, hf, he]
  exact if_pos rfl

theorem conv_raiseAdc_adcStart (s : State) (a : Fin 2) (e : Fin 16) (b : BitVec 16) :
    (((s.adcStart a e).raiseAdc a b).adc a).conv = some e :=
  (Adc.view_of_core (notes_raiseAdc (s.adcStart a e) a b).core Adc.conv fun _ => rfl).trans
    (congrArg Adc.conv (adc_modAdc_self s a _))

/-! ## The result noted -/

theorem notes_adcNoted (s : State) (a : Fin 2) (e : Fin 16) (code : BitVec 12) :
    AdcNotes a (s.modAdc a fun x => x.registered e code) (s.adcNoted a e code) :=
  .ite ((notes_adcCopy _ a e code).trans (notes_raiseAdc _ a _)) (notes_adcCopy _ a e code)

theorem core_adcNoted (s : State) (a : Fin 2) (e : Fin 16) (code : BitVec 12) :
    ((s.adcNoted a e code).adc a).core = ((s.adc a).registered e code).core :=
  (notes_adcNoted s a e code).core.trans (congrArg Adc.core (adc_modAdc_self s a _))

theorem done_adcNoted (h : bit (at_ (s.adc a).seq e) 15 = true ∨ e = 15) (code : BitVec 12) :
    bit ((s.adcNoted a e code).adc a).ev.flag 0 = true := by
  have hlast : (bit (at_ (s.adc a).seq e) 15 || decide (e.val = 15)) = true := by
    obtain h | rfl := h
    · rw [h, Bool.true_or]
    · exact Bool.or_true _
  have hx : s.adcNoted a e code = ((s.modAdc a fun x => x.registered e code).adcCopy a e code).raiseAdc a dDONE := if_pos hlast
  rw [hx, flag_raiseAdc, bit_or]
  exact Bool.or_true _

end State
end Sys2Proof.Machine
end

section
/-!
# Line signatures (10 R405–R409)
-/
namespace Sys2Proof.Machine

/-! ## Sums and largest differences over a list -/

theorem foldl_add_eq {α : Type} (g : α → Nat) (l : List α) (n : Nat) : l.foldl (fun a t => a + g t) n = n + (l.map g).sum := by
  induction l generalizing n with
  | nil => rfl
  | cons x l ih => rw [List.foldl_cons, ih, List.map_cons, List.sum_cons, Nat.add_assoc]

theorem le_foldl_max {α : Type} (g : α → Nat) (l : List α) (n : Nat) :
    n ≤ l.foldl (fun a t => max a (g t)) n ∧ ∀ t ∈ l, g t ≤ l.foldl (fun a t => max a (g t)) n := by
  induction l generalizing n with
  | nil => exact ⟨le_rfl, fun _ h => nomatch h⟩
  | cons x l ih =>
    obtain ⟨hn, hl⟩ := ih (max n (g x))
    refine ⟨(Nat.le_max_left _ _).trans hn, fun t ht => ?_⟩
    obtain rfl | ht := List.mem_cons.1 ht
    · exact (Nat.le_max_right _ _).trans hn
    · exact hl t ht

theorem foldl_max_mem {α : Type} (g : α → Nat) (l : List α) (n : Nat) :
    l.foldl (fun a t => max a (g t)) n = n ∨ ∃ t ∈ l, g t = l.foldl (fun a t => max a (g t)) n := by
  induction l generalizing n with
  | nil => exact .inl rfl
  | cons x l ih =>
    rw [List.foldl_cons]
    obtain h | ⟨t, ht, h⟩ := ih (max n (g x))
    · obtain hm | hm := Nat.le_total n (g x) |>.imp Nat.max_eq_right Nat.max_eq_left
      · exact .inr ⟨x, List.mem_cons_self, by rw [h, hm]⟩
      · exact .inl (h.trans hm)
    · exact .inr ⟨t, List.mem_cons_of_mem x ht, h⟩

theorem tapDiff_lt (a b : Byte) : tapDiff a b < 256 := by
  have h1 := a.toInt_lt
  have h2 := a.le_toInt
  have h3 := b.toInt_lt
  have h4 := b.le_toInt
  unfold tapDiff tapInt
  omega

namespace State
variable {s : State} {f : List Byte} {l : Fin 4} {j : Fin 16}

theorem sigDist_eq (s : State) (f : List Byte) (k : Fin 16) :
    s.sigDist f k = ((List.range 64).map fun t => tapDiff (f.getD t 0) (s.tmplTap k t)).sum :=
  (foldl_add_eq _ _ 0).trans (Nat.zero_add _)

theorem sigDist_lt (s : State) (f : List Byte) (k : Fin 16) : s.sigDist f k < 2 ^ 14 := by
  rw [sigDist_eq]
  have h := List.sum_le_card_nsmul ((List.range 64).map fun t => tapDiff (f.getD t 0) (s.tmplTap k t)) 255 fun x hx => by
    obtain ⟨t, -, rfl⟩ := List.mem_map.1 hx
    exact Nat.le_of_lt_succ (tapDiff_lt _ _)
  rw [List.length_map, List.length_range, smul_eq_mul] at h
  omega

theorem le_sigMax (s : State) (f : List Byte) (k : Fin 16) {t : Nat} (ht : t < 64) :
    tapDiff (f.getD t 0) (s.tmplTap k t) ≤ s.sigMax f k :=
  (le_foldl_max (fun t => tapDiff (f.getD t 0) (s.tmplTap k t)) (List.range 64) 0).2 t (List.mem_range.2 ht)

theorem sigMax_attained (s : State) (f : List Byte) (k : Fin 16) :
    ∃ t, t < 64 ∧ tapDiff (f.getD t 0) (s.tmplTap k t) = s.sigMax f k := by
  obtain h | ⟨t, ht, h⟩ := foldl_max_mem (fun t => tapDiff (f.getD t 0) (s.tmplTap k t)) (List.range 64) 0
  · exact ⟨0, by decide, Nat.le_antisymm (le_sigMax s f k (by decide)) (h.le.trans (Nat.zero_le _))⟩
  · exact ⟨t, List.mem_range.1 ht, h⟩

theorem sigMax_lt (s : State) (f : List Byte) (k : Fin 16) : s.sigMax f k < 2 ^ 8 := by
  obtain ⟨t, -, h⟩ := sigMax_attained s f k
  exact h ▸ tapDiff_lt _ _

/-! ## The next measurement -/

theorem only_sigFlag (s : State) (b : BitVec 5) : OnlyChanges [.afe] s (s.sigFlag b) := (only_modSig s _).both (only_hwSet _ _ _ _)
theorem only_sigStart (s : State) (l : Fin 4) (e : Option (Fin 16)) : OnlyChanges [.afe] s (s.sigStart l e) := only_modSig s _

theorem sigNextDue_none (h : s.afe.sig.due = 0) : s.sigNextDue = s := by
  have hfind : (List.finRange 4).find? (fun l => bit s.afe.sig.due l.val) = none :=
    List.find?_eq_none.2 fun l _ => by rw [h]; simp [bit]
  unfold sigNextDue
  rw [hfind]
  exact ite_self s

theorem sigNextDue_starts (hrun : s.afe.sig.run = none) (hl : bit s.afe.sig.due l.val = true)
    (hlow : ∀ j : Fin 4, j < l → bit s.afe.sig.due j.val = false) :
    s.sigNextDue = (s.modSig fun x => { x with due := x.due &&& ~~~(oneBit 4 l.val) }).sigStart l none := by
  unfold sigNextDue
  rw [hrun, find?_finRange_eq_some (p := fun l : Fin 4 => bit s.afe.sig.due l.val) hl hlow]
  exact if_neg (by decide)

theorem bit_ofNat_fld_auto (w : Word) {j : Nat} (hj : j < 4) : bit (.ofNat 4 (fld w 19 16) : BitVec 4) j = bit w (16 + j) := by
  rw [bit, BitVec.getLsbD_ofNat, bit, fld, Nat.testBit_mod_two_pow, Nat.testBit_div_two_pow, Nat.add_comm j]
  simp [hj, BitVec.getLsbD]

/-! ## The verdict (10 Table 10.4) -/

/-- The templates a fingerprint of link l is compared with. -/
def sigSlots (s : State) (l : Fin 4) : List (Fin 16) :=
  (List.finRange 16).filter fun k =>
    let x := at_ s.afe.sig.slots k
    x.valid && x.en && decide (x.link = l)

theorem mem_sigSlots {k : Fin 16} : k ∈ s.sigSlots l ↔
    ((at_ s.afe.sig.slots k).valid = true ∧ (at_ s.afe.sig.slots k).en = true) ∧ (at_ s.afe.sig.slots k).link = l := by
  simp only [sigSlots, List.mem_filter, List.mem_finRange, true_and, Bool.and_eq_true, decide_eq_true_iff]

/-- The taps with the largest difference. -/
def sigTaps (s : State) (f : List Byte) (k : Fin 16) : List Nat :=
  (List.range 64).filter fun t => tapDiff (f.getD t 0) (s.tmplTap k t) = s.sigMax f k

theorem mem_sigTaps {t : Nat} : t ∈ s.sigTaps f j ↔ t < 64 ∧ tapDiff (f.getD t 0) (s.tmplTap j t) = s.sigMax f j := by
  simp only [sigTaps, List.mem_filter, List.mem_range, decide_eq_true_iff]

theorem sigTaps_ne_nil (s : State) (f : List Byte) (k : Fin 16) : s.sigTaps f k ≠ [] := by
  obtain ⟨t, ht, h⟩ := sigMax_attained s f k
  exact List.ne_nil_of_mem (mem_sigTaps.2 ⟨ht, h⟩)

/-- The free choice among taps that share the largest difference. -/
def tapChoice (s : State) (f : List Byte) (k : Fin 16) : Nat × State :=
  if (s.sigTaps f k).length = 1 then (0, s) else (s.free.1.toNat, s.free.2)

theorem only_tapChoice (s : State) (f : List Byte) (k : Fin 16) : OnlyChanges [.freeCtr] s (s.tapChoice f k).2 := by
  unfold tapChoice
  split
  · exact .refl _ _
  · exact only_free s

/-- The verdict on a distance and a largest difference. -/
def verdictOf (g : Sig) (d m : Nat) : Nat :=
  if d ≤ fld g.thr 13 0 ∧ m ≤ fld g.cfg 31 24 then 1 else if d ≤ fld g.thr 29 16 then 2 else 3

/-- The verdict's fields, with DONE. -/
def sigJudged (s : State) (l : Fin 4) (k : Fin 16) (mt m d v : Nat) : State :=
  (s.modSig fun x => { x with verdict := .ofNat 4 v, link := l, slot := k, mt := .ofNat 6 mt, m := .ofNat 8 m, dist := .ofNat 14 d }).sigFlag gDONE

/-- What a verdict sets off. -/
def sigActs (s : State) (l : Fin 4) (v : Nat) : State :=
  if v = 3 then
    let s := (s.sigFlag gTAMPER).modPm fun p => { p with sec := { p.sec with tamper := p.sec.tamper + 1 } }
    if bit s.afe.sig.cfg l.val then s.report 0x21 7 l.val 0 else s
  else if v = 2 then s.sigFlag gDRIFT else s

theorem sigVerdict_none (h : s.sigSlots l = []) (f : List Byte) :
    s.sigVerdict l f = (s.modSig fun x => { x with verdict := 4, link := l }).sigFlag gDONE := by
  have hl : leastBy (fun k => [s.sigDist f k, k.val]) (s.sigSlots l) = none := by rw [h]; rfl
  unfold sigSlots at hl
  unfold sigVerdict
  dsimp only at hl ⊢
  rw [hl]

theorem sigVerdict_some (h : leastBy (fun k => [s.sigDist f k, k.val]) (s.sigSlots l) = some j) :
    s.sigVerdict l f = (((s.tapChoice f j).2.sigJudged l j
      ((s.sigTaps f j).getD ((s.tapChoice f j).1 % (s.sigTaps f j).length) 0) (s.sigMax f j) (s.sigDist f j)
      (verdictOf (s.tapChoice f j).2.afe.sig (s.sigDist f j) (s.sigMax f j))).sigActs l
      (verdictOf (s.tapChoice f j).2.afe.sig (s.sigDist f j) (s.sigMax f j))) := by
  unfold sigSlots at h
  unfold sigVerdict
  dsimp only at h ⊢
  rw [h]
  rfl

theorem sig_sigActs (s : State) (l : Fin 4) (v : Nat) : (s.sigActs l v).afe.sig =
    { s.afe.sig with flag := s.afe.sig.flag ||| (if v = 3 then gTAMPER else if v = 2 then gDRIFT else 0) } := by
  unfold sigActs
  dsimp only
  split
  · split <;> rfl
  · split
    · rfl
    · rw [show (0 : BitVec 5) = 0#5 from rfl, BitVec.or_zero]

theorem only_sigActs (s : State) (l : Fin 4) (v : Nat) : OnlyChanges [.afe, .pm, .reports] s (s.sigActs l v) := by
  have htamper : OnlyChanges [.afe, .pm, .reports] s
      ((s.sigFlag gTAMPER).modPm fun p => { p with sec := { p.sec with tamper := p.sec.tamper + 1 } }) :=
    ((only_sigFlag s _).trans (only_modPm _ _)).mono (by decide)
  exact .ite (.ite (htamper.also (only_report _ _ _ _ _) (by decide)) htamper)
    (.ite ((only_sigFlag s _).mono (by decide)) (.refl _ _))

theorem report_sigActs (h : bit s.afe.sig.cfg l.val = true) :
    ∃ q ∈ (s.sigActs l 3).reports, q.mech = 0x21 ∧ q.kind = 7 ∧ q.index.toNat = l.val := by
  have hx : s.sigActs l 3 = ((s.sigFlag gTAMPER).modPm fun p => { p with sec := { p.sec with tamper := p.sec.tamper + 1 } }).report
      0x21 7 l.val 0 := (if_pos rfl).trans (if_pos h)
  rw [hx]
  exact ⟨_, List.mem_append_right _ (List.mem_singleton_self _), rfl, rfl,
    (BitVec.toNat_ofNat _ _).trans (Nat.mod_eq_of_lt (by omega))⟩

end State
end Sys2Proof.Machine
end

section
/-!
# O48 (10 R398–R400, R405–R409, R418–R420)
-/
namespace Sys2Proof.Machine

/-- The unit's state when a verdict on template j ends the measurement. -/
def Sig.judged (g : Sig) (l : Fin 4) (j : Fin 16) (mt m d v : Nat) (last : List (Nat × Byte)) : Sig :=
  { g with verdict := .ofNat 4 v, link := l, slot := j, mt := .ofNat 6 mt, m := .ofNat 8 m, dist := .ofNat 14 d, run := none, last := last
           flag := g.flag ||| gDONE ||| (if v = 3 then gTAMPER else if v = 2 then gDRIFT else 0) }

theorem padTo_length (l : List Byte) : padTo 0 l.length l = l := by
  induction l with
  | nil => rfl
  | cons x l ih => rw [List.length_cons, padTo, ih]

namespace State
variable {s : State} {f : List Byte} {l : Fin 4} {r : SigRun}

/-! ## The end of a measurement -/

/-- The last fingerprint is kept. -/
def sigLast (s : State) (f : List Byte) : State := s.modSig fun x => { x with last := cellWriteList 0 [] 0 f }

theorem sigEnd_idle (h : s.afe.sig.run = none) (f : List Byte) : s.sigEnd f = s := by
  unfold sigEnd
  rw [h]
  rfl

theorem sigEnd_early (h : s.afe.sig.run = some r) (hp : r.pulses ≠ 1024) (f : List Byte) : s.sigEnd f = s := by
  unfold sigEnd
  rw [h, Option.filter_some, if_neg (by simpa using hp)]

theorem sigEnd_measured (h : s.afe.sig.run = some r) (he : r.enrol = none) (hp : r.pulses = 1024) (hf : f.length = 64) :
    s.sigEnd f = (((s.sigLast f).sigVerdict r.link f).modSig fun x => { x with run := none }).sigNextDue := by
  unfold sigEnd
  rw [h, Option.filter_some, if_pos (by simpa using hp)]
  dsimp only
  rw [he, show padTo 0 64 f = f from hf ▸ padTo_length f]
  rfl

theorem sigDist_sigLast (s : State) (f : List Byte) (k : Fin 16) : (s.sigLast f).sigDist f k = s.sigDist f k := rfl

/-- The state in which the free tap of a verdict on template j has been chosen. -/
def sigChosen (s : State) (f : List Byte) (j : Fin 16) : State := ((s.sigLast f).tapChoice f j).2

/-- The tap with the largest difference that the verdict names. -/
def sigTap (s : State) (f : List Byte) (j : Fin 16) : Nat :=
  (s.sigTaps f j).getD (((s.sigLast f).tapChoice f j).1 % (s.sigTaps f j).length) 0

theorem afe_sigChosen (s : State) (f : List Byte) (j : Fin 16) : (s.sigChosen f j).afe = (s.sigLast f).afe :=
  only_tapChoice (s.sigLast f) f j .afe (by decide)

/-- The measurement's end with a verdict on template j. -/
def sigDecided (s : State) (l : Fin 4) (f : List Byte) (j : Fin 16) : State :=
  ((s.sigChosen f j).sigJudged l j (s.sigTap f j) (s.sigMax f j) (s.sigDist f j) (verdictOf s.afe.sig (s.sigDist f j) (s.sigMax f j))).sigActs l
    (verdictOf s.afe.sig (s.sigDist f j) (s.sigMax f j))

theorem sigVerdict_last {j : Fin 16} (h : leastBy (fun k => [s.sigDist f k, k.val]) (s.sigSlots l) = some j) :
    (s.sigLast f).sigVerdict l f = s.sigDecided l f j := by
  have hv : verdictOf (s.sigChosen f j).afe.sig (s.sigDist f j) (s.sigMax f j) = verdictOf s.afe.sig (s.sigDist f j) (s.sigMax f j) := by
    rw [afe_sigChosen]
    rfl
  unfold sigDecided
  rw [← hv]
  exact sigVerdict_some h

theorem sig_sigDecided (s : State) (l : Fin 4) (f : List Byte) (j : Fin 16) :
    { (s.sigDecided l f j).afe.sig with run := none } = s.afe.sig.judged l j (s.sigTap f j) (s.sigMax f j) (s.sigDist f j)
      (verdictOf s.afe.sig (s.sigDist f j) (s.sigMax f j)) (cellWriteList 0 [] 0 f) := by
  have hj (u : State) (mt m d v : Nat) : (u.sigJudged l j mt m d v).afe.sig =
      { u.afe.sig with verdict := .ofNat 4 v, link := l, slot := j, mt := .ofNat 6 mt, m := .ofNat 8 m, dist := .ofNat 14 d,
                       flag := u.afe.sig.flag ||| gDONE } := rfl
  rw [sigDecided, sig_sigActs, hj, afe_sigChosen]
  rfl

theorem only_sigChosen (s : State) (f : List Byte) (j : Fin 16) : OnlyChanges [.afe, .freeCtr] s (s.sigChosen f j) :=
  (show OnlyChanges [.afe] s (s.sigLast f) from only_modSig s _).trans (only_tapChoice (s.sigLast f) f j)

theorem only_sigJudged (s : State) (l : Fin 4) (j : Fin 16) (mt m d v : Nat) : OnlyChanges [.afe] s (s.sigJudged l j mt m d v) :=
  (only_modSig s _).both (only_sigFlag _ _)

theorem only_sigDecided (s : State) (l : Fin 4) (f : List Byte) (j : Fin 16) :
    OnlyChanges [.afe, .pm, .reports, .freeCtr] s (s.sigDecided l f j) :=
  (((only_sigChosen s f j).trans (only_sigJudged _ _ _ _ _ _ _)).trans (only_sigActs _ l _)).mono (by decide)

theorem report_sigDecided {j : Fin 16} (hv : verdictOf s.afe.sig (s.sigDist f j) (s.sigMax f j) = 3) (h : bit s.afe.sig.cfg l.val = true) :
    ∃ q ∈ (s.sigDecided l f j).reports, q.mech = 0x21 ∧ q.kind = 7 ∧ q.index.toNat = l.val := by
  unfold sigDecided
  rw [hv]
  refine report_sigActs ?_
  show bit (s.sigChosen f j).afe.sig.cfg l.val = true
  rw [afe_sigChosen]
  exact h

theorem reports_modSig (s : State) (f : Sig → Sig) : (s.modSig f).reports = s.reports := rfl

theorem tap_sigTap (s : State) (f : List Byte) (j : Fin 16) :
    s.sigTap f j < 64 ∧ tapDiff (f.getD (s.sigTap f j) 0) (s.tmplTap j (s.sigTap f j)) = s.sigMax f j :=
  mem_sigTaps.1 (getD_mem (sigTaps_ne_nil s f j) _)

theorem verdictOf_spec (g : Sig) (d m : Nat) :
    (verdictOf g d m = 1 ∧ d ≤ fld g.thr 13 0 ∧ m ≤ fld g.cfg 31 24) ∨
    (verdictOf g d m = 2 ∧ ¬ (d ≤ fld g.thr 13 0 ∧ m ≤ fld g.cfg 31 24) ∧ d ≤ fld g.thr 29 16) ∨
    (verdictOf g d m = 3 ∧ ¬ (d ≤ fld g.thr 13 0 ∧ m ≤ fld g.cfg 31 24) ∧ ¬ d ≤ fld g.thr 29 16) := by
  unfold verdictOf
  split
  · next h => exact .inl ⟨rfl, h⟩
  · next h =>
    split
    · next h2 => exact .inr (.inl ⟨rfl, h, h2⟩)
    · next h2 => exact .inr (.inr ⟨rfl, h, h2⟩)

/-! ## Starts and aborts -/

theorem sigMeasure_idle (h : s.afe.sig.run = none) (l : Fin 4) : s.sigMeasure l = s.sigStart l none := if_neg (by rw [h]; decide)
theorem sigMeasure_busy (h : s.afe.sig.run ≠ none) (l : Fin 4) : s.sigMeasure l = s.sigFlag gREFUSED := if_pos (Option.isSome_iff_ne_none.2 h)
theorem sigEnrol_refused {cl : Fin 256} (h : (cl ≠ 0 ∧ cl ≠ 255) ∨ s.afe.sig.run ≠ none) (l : Fin 4) (k : Fin 16) :
    s.sigEnrol cl l k = s.sigFlag gREFUSED := if_pos (h.imp_right Option.isSome_iff_ne_none.2)
theorem sigEnrol_starts {cl : Fin 256} (hc : cl = 0 ∨ cl = 255) (h : s.afe.sig.run = none) (l : Fin 4) (k : Fin 16) :
    s.sigEnrol cl l k = s.sigStart l (some k) :=
  if_neg fun hn => hn.elim (fun hn => hc.elim hn.1 hn.2) fun hn => by rw [h] at hn; exact Bool.noConfusion hn

theorem sigAbort_idle (h : s.afe.sig.run = none) : s.sigAbort = s := by
  unfold sigAbort
  rw [h]

theorem sigAbort_running (h : s.afe.sig.run = some r) (hdue : s.afe.sig.due = 0) : s.sigAbort =
    (s.modSig fun x => { x with run := none, verdict := 5, link := r.link }).sigFlag (gDONE ||| gABORT) := by
  unfold sigAbort
  rw [h]
  exact sigNextDue_none hdue

theorem sigTimeout_idle (h : s.afe.sig.run = none) : s.sigTimeout = s :=
  if_neg (by rw [h]; exact Bool.false_ne_true)
theorem sigTimeout_waits (h : s.afe.sig.run = some r) (ht : s.time - r.since < 200000000) : s.sigTimeout = s :=
  if_neg (by rw [h]; simpa using ht)
theorem sigTimeout_ends (h : s.afe.sig.run = some r) (ht : 200000000 ≤ s.time - r.since) : s.sigTimeout = s.sigAbort :=
  if_pos (by rw [h]; simpa using ht)

theorem sigAuto_off (h : fld s.afe.sig.cfg 15 8 = 0) : s.sigAuto = s := if_pos h

/-- The links due after an automatic period. -/
def autoDue (s : State) : BitVec 4 := s.afe.sig.due ||| .ofNat 4 (fld s.afe.sig.cfg 19 16)

theorem bit_autoDue (s : State) {j : Nat} (hj : j < 4) : bit s.autoDue j = (bit s.afe.sig.due j || bit s.afe.sig.cfg (16 + j)) := by
  rw [autoDue, bit_or, bit_ofNat_fld_auto _ hj]

theorem sigAuto_starts (hp : fld s.afe.sig.cfg 15 8 ≠ 0) (hrun : s.afe.sig.run = none) (hl : bit s.autoDue l.val = true)
    (hlow : ∀ j : Fin 4, j < l → bit s.autoDue j.val = false) : s.sigAuto =
      ((s.modSig fun x => { x with due := s.autoDue }).modSig fun x => { x with due := x.due &&& ~~~(oneBit 4 l.val) }).sigStart l none :=
  (if_neg hp).trans (sigNextDue_starts (s := s.modSig fun x => { x with due := s.autoDue }) hrun hl hlow)

end State

/-- Settles O48: triggers by the entry watched; a result noted, then what the next entry does; a verdict against the template
least in distance and number. -/
theorem conversionsAndSignatures : Obligations.ConversionsAndSignatures := by
  unfold Obligations.ConversionsAndSignatures
  intro s a trig idx code l k cl f x others only flagged triggered g sigOnly bound d D
  have htrig {c : Instr} {tr ix : Nat} (hup : s.pwr.pllLock = true) (hc : exec c s = .next (s.whenUp s.pwr.pllLock fun s => s.adcEvent a tr ix)) :
      triggered c tr ix := by
    refine ⟨fun hw => completes_clocked hc hup (State.adcEvent_unwatched hw tr ix) trivial (.refl _ _), fun e hw => ⟨fun hne =>
      completes_clocked hc hup (State.adcEvent_other hw hne) trivial (.refl _ _), fun ht hi => ⟨fun hconv => ?_, fun hconv hl => ?_,
      fun hconv hl => ?_⟩⟩⟩
    · have hx := s.adc_adcStart_self a e
      refine completes_clocked hc hup (State.adcEvent_starts hw ht hi hconv)
        ⟨⟨by rw [hx], fun b hb => State.adc_modAdc_ne s hb _, rfl⟩, ?_⟩ (State.only_adcStart s a e)
      show ((s.adcStart a e).adc a).ev.flag = _
      rw [hx]
      exact (BitVec.or_zero ..).symm
    · have hx := State.adc_modAdc_self s a fun x => { x with latched := true }
      refine completes_clocked hc hup ((State.adcEvent_busy hw ht hi hconv).trans (if_neg (by rw [hl]; decide)))
        ⟨⟨hx.trans ?_, fun b hb => State.adc_modAdc_ne s hb _, rfl⟩, ?_⟩ ((State.only_modAdc _ _ _).both (State.only_modCyc _ _ _))
      · show ({ s.adc a with latched := true } : Adc) = { s.adc a with latched := true, ev := ((s.modAdc a fun x => { x with latched := true }).adc a).ev }
        rw [hx]
      · show ((s.modAdc a fun x => { x with latched := true }).adc a).ev.flag = _
        rw [hx]
        exact (BitVec.or_zero ..).symm
    · have hn := s.notes_raiseAdc a dTRIGOVR
      have hx : (s.raiseAdc a dTRIGOVR).adc a = { s.adc a with ev := ((s.raiseAdc a dTRIGOVR).adc a).ev } := by
        rw [State.adc, State.afe_raiseAdc]
        exact (State.adc_modAdc_self s a _).trans (by rw [show at_ (s.modAdc a fun x => { x with ev := ((s.adc a).ev.set dTRIGOVR).1 }).afe.adc a = _ from
          State.adc_modAdc_self s a _])
      exact completes_clocked hc hup ((State.adcEvent_busy hw ht hi hconv).trans (if_pos hl))
        ⟨⟨hx, hn.others, hn.sig⟩, s.flag_raiseAdc a dTRIGOVR⟩ hn.frame
  refine ⟨fun hdown i hi => ?_, fun hup => ⟨htrig hup rfl, htrig hup rfl, ?restart, fun h =>
    completes_clocked rfl hup (State.adcResult_none h code) trivial (.refl _ _), fun e hc ht hrun hf hadv => ?result, fun hrun c hc => ?busy,
    fun hrun => ⟨?measure, fun h => ?enrol, fun h0 h255 => ?refused, fun c hc => ?idle, fun hp hl hlow => ?auto⟩,
    fun hp => completes_clocked rfl hup (State.sigAuto_off hp) trivial (.refl _ _), fun r hr hdue => ⟨fun hp =>
      completes_clocked rfl hup (State.sigEnd_early hr hp f) trivial (.refl _ _), fun ht =>
      completes_clocked rfl hup (State.sigTimeout_waits hr ht) trivial (.refl _ _), fun c hc => ?abort, fun he hp hf =>
      ⟨fun hnone => ?unbound, fun j hj hlink hmin => ?verdict⟩⟩⟩⟩
  · simp only [List.mem_cons, List.not_mem_nil, or_false] at hi
    obtain rfl | rfl | rfl | rfl | rfl | rfl | rfl | rfl | rfl | rfl := hi <;> exact completes_unclocked rfl hdown
  case restart =>
    have hx := State.adc_modAdc_self s a fun x => { x with entry := 0, latched := false, noadv := x.conv.isSome }
    refine completes_clocked (t := s.adcRestart a) rfl hup rfl ⟨?_, ?_, fun b hb => State.adc_modAdc_ne s hb _, rfl⟩ (State.only_modAdc _ _ _)
    · show ((s.adcRestart a).adc a).ev.flag = _
      rw [show (s.adcRestart a).adc a = _ from hx]
      exact (BitVec.or_zero ..).symm
    · show (s.adcRestart a).adc a = { s.adc a with entry := 0, latched := false, noadv := (s.adc a).conv.isSome, ev := ((s.adcRestart a).adc a).ev }
      rw [show (s.adcRestart a).adc a = _ from hx]
  case result =>
    have hn := s.notes_adcNoted a e code
    have hcore := s.core_adcNoted a e code
    have hgo := (s.adcNoted a e code).goesOn_adcContinue a
    have hres : ((s.adcNoted a e code).adc a).res = _ := Adc.view_of_core hcore Adc.res fun _ => rfl
    have hseq : ((s.adcNoted a e code).adc a).seqno = _ := Adc.view_of_core hcore Adc.seqno fun _ => rfl
    have hsteps : ((s.adcNoted a e code).adc a).seq = x.seq := Adc.view_of_core hcore Adc.seq fun _ => rfl
    have hrun' : ((s.adcNoted a e code).adc a).run = (x.nextOf e).isSome := Adc.view_of_core hcore Adc.run fun _ => rfl
    have hentry : ((s.adcNoted a e code).adc a).entry = (x.nextOf e).getD x.entry := Adc.view_of_core hcore Adc.entry fun _ => rfl
    have hlatch : ((s.adcNoted a e code).adc a).latched = if (x.nextOf e).isSome then x.latched else false :=
      Adc.view_of_core hcore Adc.latched fun _ => rfl
    have hconv : ((s.adcNoted a e code).adc a).conv = none := Adc.view_of_core hcore Adc.conv fun _ => rfl
    have hfenced : ((s.adcNoted a e code).adc a).fenced = false := (Adc.view_of_core hcore Adc.fenced fun _ => rfl).trans hf
    have hlast : (bit (at_ x.seq e) 15 || decide (e.val = 15)) = decide (bit (at_ x.seq e) 15 = true ∨ e = 15) := by
      rw [Bool.eq_iff_iff, Bool.or_eq_true, decide_eq_true_iff, decide_eq_true_iff]
      exact or_congr_right ⟨fun h => Fin.ext h, fun h => congrArg Fin.val h⟩
    have hseq' : ((s.adcNoted a e code).adc a).seqno = if bit (at_ x.seq e) 15 = true ∨ e = 15 then x.seqno + 1 else x.seqno := by
      refine hseq.trans ?_
      show (if (bit (at_ x.seq e) 15 || decide (e.val = 15)) = true then _ else _) = _
      rw [hlast]
      exact if_congr decide_eq_true_iff rfl rfl
    intro last
    refine completes_clocked rfl hup (State.adcResult_running hc ht hrun hadv code) ⟨⟨fun b hb => ?_, ?_⟩, ?_, fun j hj => ?_,
      fun hl => ⟨?_, hgo.flags 0 (State.done_adcNoted hl code)⟩, fun hl => ?_, fun hl hloop => ?_, fun hon => ?_⟩
      (((State.only_modAdc s a _).mono (by decide)).both (hn.frame.both hgo.frame))
    · rw [hgo.others b hb, hn.others b hb]
      exact State.adc_modAdc_ne s hb _
    · rw [hgo.sig, hn.sig]
      rfl
    · rw [hgo.res, hres]
      exact (congrArg BitVec.toNat (at_vset_self _ _ _)).trans (toNat_resultWord _ _ _)
    · rw [hgo.res, hres]
      exact at_vset_ne _ _ hj.symm
    · rw [hgo.seqno, hseq', if_pos hl]
    · rw [hgo.seqno, hseq', if_neg hl]
    · have hstop : x.nextOf e = none := (x.nextOf_eq e).trans ((if_pos hl).trans (if_neg (by rw [hloop]; decide)))
      rw [hstop] at hrun'
      rw [State.adcContinue_stopped hrun']
      exact ⟨hrun', hconv⟩
    · intro nx
      have hnext : x.nextOf e = some nx := by
        refine (x.nextOf_eq e).trans ?_
        by_cases hl : bit (at_ x.seq e) 15 = true ∨ e = 15
        · exact (if_pos hl).trans ((if_pos (hon.resolve_left (not_not.2 hl))).trans (congrArg some (if_pos hl).symm))
        · exact (if_neg hl).trans (congrArg some (if_neg hl).symm)
      rw [hnext] at hrun' hentry hlatch
      have hat : (s.adcNoted a e code).AdcAt a nx := ⟨hrun', hfenced, hentry⟩
      have hx := State.adcContinue_on hat
      rw [hlatch.trans (if_pos rfl), hsteps, hn.trig] at hx
      refine ⟨hgo.run.trans hrun', hgo.entry.trans hentry, fun hl => ?_, fun hl h6 h13 => ?_, fun hl h6 => ?_⟩
      · rw [hx, if_pos hl]
        refine ⟨State.conv_raiseAdc_adcStart _ a nx _, fun hno => ?_⟩
        rw [if_neg (show a ∉ (s.modAdc a fun x => x.registered e code).cyc.adcTrig from hno), State.flag_raiseAdc, bit_or]
        exact Bool.or_true _
      · rw [hx, if_neg (by simp [hl]), if_pos ⟨h6, h13⟩, State.adc_adcStart_self]
      · rw [hx, if_neg (by simp [hl]), if_neg fun h => h6 h.1]
        exact hconv
  case busy =>
    simp only [List.mem_cons, List.not_mem_nil, or_false] at hc
    obtain rfl | rfl := hc
    · exact completes_clocked rfl hup (State.sigMeasure_busy hrun l) ⟨rfl, rfl⟩ (State.only_sigFlag _ _)
    · exact completes_clocked rfl hup (State.sigEnrol_refused (.inr hrun) l k) ⟨rfl, rfl⟩ (State.only_sigFlag _ _)
  case measure => exact completes_clocked rfl hup (State.sigMeasure_idle hrun l) ⟨rfl, rfl⟩ (State.only_sigStart _ _ _)
  case enrol => exact completes_clocked rfl hup (State.sigEnrol_starts h hrun l k) ⟨rfl, rfl⟩ (State.only_sigStart _ _ _)
  case refused => exact completes_clocked rfl hup (State.sigEnrol_refused (.inl ⟨h0, h255⟩) l k) ⟨rfl, rfl⟩ (State.only_sigFlag _ _)
  case idle =>
    simp only [List.mem_cons, List.not_mem_nil, or_false] at hc
    obtain rfl | rfl | rfl := hc
    · exact completes_clocked rfl hup (State.sigAbort_idle hrun) trivial (.refl _ _)
    · exact completes_clocked rfl hup (State.sigTimeout_idle hrun) trivial (.refl _ _)
    · exact completes_clocked rfl hup (State.sigEnd_idle hrun f) trivial (.refl _ _)
  case auto =>
    have hl' : bit s.autoDue l.val = true := (s.bit_autoDue l.isLt).trans hl
    have hlow' (j : Fin 4) (hj : j < l) : bit s.autoDue j.val = false := (s.bit_autoDue j.isLt).trans (hlow j.val hj)
    refine completes_clocked rfl hup (State.sigAuto_starts hp hrun hl' hlow') ⟨rfl, fun j hj => ?_⟩
      (((State.only_modSig _ _).both (State.only_modSig _ _)).both (State.only_sigStart _ _ _))
    show bit (s.autoDue &&& ~~~(oneBit 4 l.val)) j = _
    rw [bit_and_not hj, s.bit_autoDue hj, bit_oneBit l.isLt, decide_not]
  case abort =>
    have hx := State.sigAbort_running hr hdue
    obtain rfl | ⟨rfl, ht⟩ := hc
    · exact completes_clocked rfl hup hx ⟨rfl, rfl⟩ ((State.only_modSig _ _).both (State.only_sigFlag _ _))
    · exact completes_clocked rfl hup ((State.sigTimeout_ends hr ht).trans hx) ⟨rfl, rfl⟩ ((State.only_modSig _ _).both (State.only_sigFlag _ _))
  case unbound =>
    have hnil : (s.sigLast f).sigSlots r.link = [] := List.eq_nil_iff_forall_not_mem.2 fun j hj => hnone j (State.mem_sigSlots.1 hj)
    have hx := State.sigEnd_measured hr he hp hf
    rw [State.sigVerdict_none hnil, State.sigNextDue_none (by exact hdue)] at hx
    exact completes_clocked rfl hup hx ⟨rfl, rfl, rfl, rfl⟩
      ((((State.only_modSig s _).both (State.only_modSig _ _)).both (State.only_sigFlag _ _)).both (State.only_modSig _ _))
  case verdict =>
    have hD (i : Fin 16) : D i = s.sigDist f i := (s.sigDist_eq f i).symm
    have hleast : leastBy (fun k => [s.sigDist f k, k.val]) (s.sigSlots r.link) = some j := by
      refine leastBy_eq_some (State.mem_sigSlots.2 ⟨hj, hlink⟩) fun i hi => ?_
      obtain ⟨hbound, hil⟩ := State.mem_sigSlots.1 hi
      refine or_iff_not_imp_left.2 fun hne => ?_
      have h := hmin i hbound hil hne
      rw [hD, hD] at h
      simp only [lexLt, Bool.or_eq_true, Bool.and_eq_true, decide_eq_true_iff, Bool.and_false, Bool.or_false]
      exact h
    have hx := State.sigEnd_measured hr he hp hf
    rw [State.sigVerdict_last hleast] at hx
    have hsig := s.sig_sigDecided r.link f j
    have hdue' : ((s.sigDecided r.link f j).modSig fun x => { x with run := none }).afe.sig.due = 0 := (congrArg Sig.due hsig).trans hdue
    rw [State.sigNextDue_none hdue'] at hx
    have hdist : (BitVec.ofNat 14 (s.sigDist f j)).toNat = s.sigDist f j := (BitVec.toNat_ofNat _ _).trans (Nat.mod_eq_of_lt (s.sigDist_lt f j))
    have hm : (BitVec.ofNat 8 (s.sigMax f j)).toNat = s.sigMax f j := (BitVec.toNat_ofNat _ _).trans (Nat.mod_eq_of_lt (s.sigMax_lt f j))
    obtain ⟨htap, hattain⟩ := s.tap_sigTap f j
    have hmt : (BitVec.ofNat 6 (s.sigTap f j)).toNat = s.sigTap f j := (BitVec.toNat_ofNat _ _).trans (Nat.mod_eq_of_lt htap)
    refine completes_clocked rfl hup hx ?_ ((s.only_sigDecided r.link f j).also (State.only_modSig _ _) (by decide))
    intro h
    have hh : h = g.judged r.link j (s.sigTap f j) (s.sigMax f j) (s.sigDist f j) (State.verdictOf g (s.sigDist f j) (s.sigMax f j))
        (cellWriteList 0 [] 0 f) := hsig
    clear_value h
    have hverdict : h.verdict = .ofNat 4 (State.verdictOf g (s.sigDist f j) (s.sigMax f j)) := congrArg Sig.verdict hh
    have hflag : h.flag = g.flag ||| gDONE ||| (if State.verdictOf g (s.sigDist f j) (s.sigMax f j) = 3 then gTAMPER
        else if State.verdictOf g (s.sigDist f j) (s.sigMax f j) = 2 then gDRIFT else 0) := congrArg Sig.flag hh
    have hhm : h.m.toNat = s.sigMax f j := (congrArg (fun h : Sig => h.m.toNat) hh).trans hm
    have hhmt : h.mt.toNat = s.sigTap f j := (congrArg (fun h : Sig => h.mt.toNat) hh).trans hmt
    refine ⟨congrArg Sig.run hh, congrArg Sig.link hh, congrArg Sig.slot hh, ?_, fun i hi => ?_, ?_, ?_, ?_⟩
    · rw [hD]
      exact (congrArg (fun h : Sig => h.dist.toNat) hh).trans hdist
    · rw [hhm]
      exact s.le_sigMax f j hi
    · rw [hhm, hhmt]
      exact hattain
    · rw [hflag, bit_or, bit_or]
      exact (congrArg (· || _) (Bool.or_true _)).trans (Bool.true_or _)
    · rw [hhm, hD]
      obtain ⟨hv, hspec⟩ | ⟨hv, hnot, hspec⟩ | ⟨hv, hnot, hspec⟩ := State.verdictOf_spec g (s.sigDist f j) (s.sigMax f j)
      · rw [hv] at hverdict
        rw [hverdict]
        exact ⟨iff_of_true rfl hspec, iff_of_false (by decide) fun h => h.1 hspec, .inl rfl, fun h => absurd h (by decide),
          fun h => absurd h (by decide)⟩
      · rw [hv] at hverdict hflag
        rw [hverdict]
        refine ⟨iff_of_false (by decide) hnot, iff_of_true rfl ⟨hnot, hspec⟩, .inr (.inl rfl), fun h => absurd h (by decide), fun _ => ?_⟩
        rw [hflag, bit_or]
        exact Bool.or_true _
      · rw [hv] at hverdict hflag
        rw [hverdict]
        refine ⟨iff_of_false (by decide) hnot, iff_of_false (by decide) fun h => hspec h.2, .inr (.inr rfl), fun _ => ⟨?_, fun hfence => ?_⟩,
          fun h => absurd h (by decide)⟩
        · rw [hflag, bit_or]
          exact Bool.or_true _
        · obtain ⟨q, hq, hcode⟩ := State.report_sigDecided (s := s) (l := r.link) (f := f) (j := j) hv hfence
          exact ⟨q, (State.reports_modSig _ _).symm ▸ hq, hcode⟩

end Sys2Proof.Machine
end

section
/-!
# What a fence and a disable leave alone (14 R551, R552)

The operations of a cut free calendar entries and post events, but no queue or grant word of a client moves, and no entry comes
to life.
-/
namespace Sys2Proof.Machine

/-- The client records and the calendar are in their canonical form. -/
def SeatWf (s : State) : Prop := cellWf {} s.sc.recs = true ∧ cellWf {} s.tt.cal = true

/-- From s to t no client's queue or SC_BIND moves, and no calendar entry comes to life. -/
structure CutKeeps (s t : State) : Prop where
  wf : SeatWf s → SeatWf t
  queue : SeatWf s → ∀ c, (t.client c).queue = (s.client c).queue
  bind : SeatWf s → ∀ c, (t.client c).bind = (s.client c).bind
  cal : SeatWf s → ∀ h, (s.calEntry h).st = .free → (t.calEntry h).st = .free

namespace CutKeeps
variable {s t u : State}

theorem refl (s : State) : CutKeeps s s := ⟨id, fun _ _ => rfl, fun _ _ => rfl, fun _ _ h => h⟩

theorem trans (h : CutKeeps s t) (k : CutKeeps t u) : CutKeeps s u :=
  ⟨fun w => k.wf (h.wf w), fun w c => (k.queue (h.wf w) c).trans (h.queue w c), fun w c => (k.bind (h.wf w) c).trans (h.bind w c),
    fun w j hj => k.cal (h.wf w) j (h.cal w j hj)⟩

theorem of_same (hrecs : t.sc.recs = s.sc.recs) (hcal : t.tt.cal = s.tt.cal) : CutKeeps s t where
  wf w := by unfold SeatWf; rwa [hrecs, hcal]
  queue _ c := by unfold State.client; rw [hrecs]
  bind _ c := by unfold State.client; rw [hrecs]
  cal _ h hf := by unfold State.calEntry at hf ⊢; rwa [hcal]

theorem of_only {ps : List Part} (h : OnlyChanges ps s t) (hsc : .sc ∉ ps) (htt : .tt ∉ ps) : CutKeeps s t :=
  of_same (congrArg Seating.recs (h .sc hsc)) (congrArg Timetable.cal (h .tt htt))

theorem ite {c : Prop} [Decidable c] (h : CutKeeps s t) (k : CutKeeps s u) : CutKeeps s (if c then t else u) := by
  split
  · exact h
  · exact k

theorem foldl {α : Type} {f : State → α → State} (h : ∀ s a, CutKeeps s (f s a)) (l : List α) (s : State) : CutKeeps s (l.foldl f s) := by
  induction l generalizing s with
  | nil => exact refl s
  | cons a l ih => exact (h s a).trans (ih _)

theorem foldFin {n : Nat} {f : Fin n → State → State} (h : ∀ a s, CutKeeps s (f a s)) (s : State) : CutKeeps s (Sys2Proof.foldFin n f s) :=
  foldl (fun s a => h a s) _ s

/-! An operation of another part at the end. -/

theorem modMe (h : CutKeeps s t) (f : MicroEngine → MicroEngine) : CutKeeps s (t.modMe f) := ⟨h.wf, h.queue, h.bind, h.cal⟩
theorem pruneResults (h : CutKeeps s t) : CutKeeps s t.pruneResults := by
  unfold State.pruneResults
  exact h.modMe _
theorem report (h : CutKeeps s t) (m k i d : Nat) : CutKeeps s (t.report m k i d) := ⟨h.wf, h.queue, h.bind, h.cal⟩
theorem ttFlag (h : CutKeeps s t) (b : BitVec 5) : CutKeeps s (t.ttFlag b) := ⟨h.wf, h.queue, h.bind, h.cal⟩
theorem countDispatch (h : CutKeeps s t) (due : W48) (n : Nat) : CutKeeps s (t.countDispatch due n) := ⟨h.wf, h.queue, h.bind, h.cal⟩
theorem modCyc (h : CutKeeps s t) (f : Cycle → Cycle) : CutKeeps s (t.modCyc f) := ⟨h.wf, h.queue, h.bind, h.cal⟩
theorem fltBack (h : CutKeeps s t) (u : Nat) : CutKeeps s (t.fltBack u) := ⟨h.wf, h.queue, h.bind, h.cal⟩
theorem modMem (h : CutKeeps s t) (f : Mem → Mem) : CutKeeps s (t.modMem f) := ⟨h.wf, h.queue, h.bind, h.cal⟩

end CutKeeps

namespace State
variable (s : State)

theorem client_modClient_ne {s : State} (hrecs : cellWf {} s.sc.recs = true) {c d : Fin 256} (h : d ≠ c) (f : ClientRec → ClientRec) :
    (s.modClient c f).client d = s.client d :=
  (cellRead_write ({} : ClientRec) s.sc.recs c.val d.val _ hrecs).trans (if_neg fun he => h (Fin.ext he))

theorem recs_modClient {s : State} (hrecs : cellWf {} s.sc.recs = true) (c : Fin 256) (f : ClientRec → ClientRec) :
    cellWf {} (s.modClient c f).sc.recs = true := cellWf_write ({} : ClientRec) _ _ _ hrecs

theorem cutKeeps_modClient (c : Fin 256) {f : ClientRec → ClientRec} (hq : ∀ r, (f r).queue = r.queue) (hb : ∀ r, (f r).bind = r.bind) :
    CutKeeps s (s.modClient c f) where
  wf w := ⟨recs_modClient w.1 c f, w.2⟩
  queue w d := by
    by_cases h : d = c
    · rw [h, client_modClient_self w.1, hq]
    · rw [client_modClient_ne w.1 h]
  bind w d := by
    by_cases h : d = c
    · rw [h, client_modClient_self w.1, hb]
    · rw [client_modClient_ne w.1 h]
  cal _ _ h := h

theorem cutKeeps_post (rank : Nat) (c : Fin 256) (type : Nat) (crit : Bool) (info : Nat) (w1 w2 w3 : Word) :
    CutKeeps s (s.post rank c type crit info w1 w2 w3) :=
  (s.cutKeeps_modClient c (f := fun r => { r with seq := r.seq + 1 }) (fun _ => rfl) fun _ => rfl).trans (.of_same rfl rfl)

theorem cutKeeps_freeEntry (h : Nat) : CutKeeps s (s.freeEntry h) where
  wf w := ⟨w.1, cellWf_write ({} : CalEntry) _ _ _ w.2⟩
  queue _ _ := rfl
  bind _ _ := rfl
  cal w k hk := by
    rw [show (s.freeEntry h).calEntry k = _ from calEntry_setCal w.2 h k _]
    split
    · rfl
    · exact hk

theorem cutKeeps_bulkCancel (reason : Nat) : CutKeeps s (s.bulkCancel reason) := by
  unfold bulkCancel
  extract_lets live t u v w
  have ht : CutKeeps s t := .foldl (fun _ _ => cutKeeps_freeEntry _ _) _ s
  have hu : CutKeeps t u := .of_same (congrArg Seating.recs (only_dropAllRequests t .sc (by decide))) (cal_dropAllRequests t)
  have hw : CutKeeps v w := .foldFin (fun _ _ => .ite (.refl _) (cutKeeps_post _ _ _ _ _ _ _ _ _)) v
  have hv : CutKeeps u v := .of_same rfl rfl
  exact (((ht.trans hu).trans hv).trans hw).ttFlag _

theorem cutKeeps_fenceChan (n : Fin 64) (b : BitVec 4) : CutKeeps s (s.fenceChan n b) :=
  .of_same (congrArg Seating.recs (only_fenceChan s n b .sc (by decide))) (cal_fenceChan s n b)

theorem cutKeeps_meFence (cause : Nat) : CutKeeps s (s.meFence cause) := by
  unfold meFence
  refine .ite (.refl s) ?_
  extract_lets t u v w
  have hu : CutKeeps s u := ((CutKeeps.refl s).modMe _).modMem _
  have hw : CutKeeps s w := (hu.trans (cutKeeps_bulkCancel u _)).trans (.foldFin (fun n t => cutKeeps_fenceChan t n fnMe) v)
  clear_value w
  exact .ite (hw.report _ _ _ _) (.ite (hw.report _ _ _ _) (.ite (hw.report _ _ _ _) hw))

theorem cutKeeps_fillWindow : CutKeeps s s.fillWindow := by
  unfold fillWindow
  refine .ite (.refl s) ?_
  extract_lets k r
  have hr : CutKeeps s r.2 := .of_only (only_readRecord s k _ _) (by decide) (by decide)
  clear_value r
  split
  · exact hr.trans (cutKeeps_meFence _ _)
  · exact hr.modMe _

theorem cutKeeps_openWindow (f : Frame) : CutKeeps s (s.openWindow f) := by
  unfold openWindow
  extract_lets push oldest t
  have ht : CutKeeps s t := .of_only (only_putRecord s _ _) (by decide) (by decide)
  clear_value t
  exact .ite ((CutKeeps.refl s).modMe _) (.ite (cutKeeps_meFence s 3) ((ht.modMe _).modMe _))

theorem cal_takeCause (src : ReqSrc) : (s.takeCause src).2.tt.cal = s.tt.cal := by cases src <;> rfl

theorem cutKeeps_dispatched {t : State} (h : CutKeeps s t) (f : Frame) : CutKeeps s
    (if (t.openWindow f).me.st = .fenced then t.openWindow f
      else ((t.openWindow f).modMe fun m => { m with st := .running }).fltBack (unitKey 4 0)) := by
  have hu := h.trans (cutKeeps_openWindow t f)
  generalize t.openWindow f = u at hu
  exact .ite hu ((hu.modMe _).fltBack _)

theorem cutKeeps_dispatchCand (c : Cand) (n : Nat) : CutKeeps s (s.dispatchCand c n) := by
  cases c with
  | entry h e => exact cutKeeps_dispatched s (((cutKeeps_freeEntry s h).countDispatch e.dueAt n).modCyc _) _
  | req r =>
    have htake : CutKeeps s (s.takeCause r.src).2 :=
      .of_same (congrArg Seating.recs (only_takeCause s r.src .sc (by decide))) (cal_takeCause s r.src)
    exact cutKeeps_dispatched s (htake.countDispatch r.at_ n) _

theorem cutKeeps_selectNext : CutKeeps s s.selectNext := by
  unfold selectNext
  refine .ite (.refl s) ?_
  extract_lets u resume v
  have hv : CutKeeps s v := (CutKeeps.refl s).pruneResults.modMe _
  have hfill := hv.trans (cutKeeps_fillWindow v)
  have hresume : CutKeeps s (resume v) := by
    show CutKeeps s (if v.fillWindow.me.st = .fenced then v.fillWindow else v.fillWindow.modMe _)
    generalize v.fillWindow = w at hfill ⊢
    exact .ite hfill (hfill.modMe _)
  clear_value v
  split
  · exact .ite (hv.trans (cutKeeps_dispatchCand v _ _)) hresume
  · exact hv.trans (cutKeeps_dispatchCand v _ _)
  · exact hresume
  · exact hv

theorem cutKeeps_discardWindows (c : Fin 256) : CutKeeps s (s.discardWindows c) := by
  unfold discardWindows
  extract_lets recs kept u cur v
  have hu : CutKeeps s u :=
    .ite (.refl s) ((CutKeeps.foldl (fun t _ => .of_only (only_putRecord t _ _) (by decide) (by decide)) _ s).modMe _)
  have hv : CutKeeps s v := hu.modMe _
  clear_value v cur
  cases cur with
  | some f => exact .ite (hv.trans (cutKeeps_selectNext v)) hv.pruneResults
  | none => exact hv.pruneResults

theorem cutKeeps_freeClientEntries (c : Fin 256) : CutKeeps s (s.freeClientEntries c) :=
  (CutKeeps.foldl (fun _ _ => cutKeeps_freeEntry _ _) _ s).ttFlag _

end State
end Sys2Proof.Machine
end

section
/-!
# Cuts (14 R551, R552)
-/
namespace Sys2Proof.Machine

/-- A channel in Clearing with cause FENCE. -/
def FenceClear (n : Fin 64) (t : State) : Prop := bit (t.chan n).o.clr 4 = true ∧ (t.chan n).o.inClr = true

namespace State
variable {s t : State} {n m : Fin 64} {c : Fin 256}

/-! ## The channels of a fenced client -/

theorem fenceChan_client (s : State) (n : Fin 64) : s.fenceChan n fnClient =
    ((s.modOut n fun o => { o with fences := o.fences ||| fnClient, rdmRun := false }).clearCause n cREADMIT).setCause n cFENCE := by
  have hclient : (fnClient &&& (fnChan ||| fnGrove) == 0) = true := by decide
  unfold fenceChan
  dsimp only
  rw [hclient, Bool.true_or]
  exact if_pos rfl

theorem fenceClear_setCause_self (s : State) (n : Fin 64) : FenceClear n (s.setCause n cFENCE) := by
  refine ⟨?_, inClr_setCause s n _⟩
  rw [← Output.bit_causes _ (by decide), causes_setCause_self s n (by decide), bit_or]
  exact Bool.or_true _

theorem fenceClear_of_ne {f : State → State} (h : FenceClear n s) (hc : ((f s).chan n).o.causes = (s.chan n).o.causes)
    (hs : StaysClear s (f s)) : FenceClear n (f s) := by
  refine ⟨?_, hs n h.2⟩
  rw [← Output.bit_causes _ (by decide), hc, Output.bit_causes _ (by decide)]
  exact h.1

theorem fenceClear_fenceChan (h : FenceClear n s) (m : Fin 64) : FenceClear n (s.fenceChan m fnClient) := by
  rw [fenceChan_client]
  by_cases hm : n = m
  · exact hm ▸ fenceClear_setCause_self _ n
  · have h1 : FenceClear n (s.modOut m fun o => { o with fences := o.fences ||| fnClient, rdmRun := false }) :=
      fenceClear_of_ne h (f := fun s => s.modOut m fun o => { o with fences := o.fences ||| fnClient, rdmRun := false })
        (congrArg (fun x : Chan => x.o.causes) (chan_modOut_ne hm _)) (staysClear_modOut s m fun _ h => h)
    exact fenceClear_of_ne (fenceClear_of_ne h1 (f := fun s => s.clearCause m cREADMIT) (causes_clearCause_ne hm _)
      (staysClear_clearCause _ m _)) (f := fun s => s.setCause m cFENCE) (causes_setCause_ne hm _) (staysClear_setCause _ m _)

/-- The channels of a mask fenced for their client. -/
def fenceOwned (s : State) (own : BitVec 64) : State :=
  foldFin 64 (fun n s => if bit own n.val then s.fenceChan n fnClient else s) s

theorem fenceClear_fenceOwned (s : State) {own : BitVec 64} (hn : bit own n.val = true) : FenceClear n (s.fenceOwned own) := by
  refine foldl_reaches (Q := FenceClear n) (List.mem_finRange n) (fun t => ?_) (fun t m h => ?_) s
  · dsimp only
    rw [if_pos hn, fenceChan_client]
    exact fenceClear_setCause_self _ n
  · dsimp only
    split
    · exact fenceClear_fenceChan h m
    · exact h

/-! ## What a cut leaves -/

theorem freeClientEntries_frees (hcan : cellWf {} s.tt.cal = true) {h : Nat} (hlive : (s.calEntry h).st ≠ .free)
    (hown : (s.calEntry h).owner = c) : ((s.freeClientEntries c).calEntry h).st = .free :=
  (foldl_freeEntry _ hcan).2 (h, s.calEntry h) (List.mem_filter.2 ⟨mem_of_calEntry hlive, by simp [hlive, hown]⟩)

/-- The transfers of a client's DMA channels stopped. -/
def stopDma (s : State) (c : Fin 256) : State :=
  foldFin 8 (fun k s =>
    let d := s.dmac k
    if d.owner = c ∧ (d.st = .load ∨ d.st = .wait ∨ d.st = .move) then
      (s.dmaError k 3).modDma k fun d => { d with starv := false }
    else s) s

theorem only_stopDma (s : State) (c : Fin 256) : OnlyChanges [.dma] s (s.stopDma c) :=
  .foldFin (fun _ t => .ite ((only_dmaError t _ _).both (only_modDma _ _ _)) (.refl _ _)) s

/-- The open requests of a client dropped. -/
def dropRequestsOf (s : State) (c : Fin 256) : State :=
  (s.sc.reqs.filter fun q => decide (q.client = c)).foldl (fun s q => s.dropRequestOf q) s

theorem only_dropRequestsOf (s : State) (c : Fin 256) : OnlyChanges [.hl, .sc] s (s.dropRequestsOf c) :=
  .foldl (fun t q => only_dropRequestOf t q) _ s

theorem recs_dropRequestOf (s : State) (q : OpenReq) : (s.dropRequestOf q).sc.recs = s.sc.recs := rfl
theorem reqs_dropRequestOf (s : State) (q : OpenReq) : (s.dropRequestOf q).sc.reqs = s.sc.reqs.filter fun r => r ≠ q := rfl

theorem recs_dropRequestsOf (s : State) (c : Fin 256) : (s.dropRequestsOf c).sc.recs = s.sc.recs :=
  foldl_keeps (p := fun t : State => t.sc.recs) (f := fun t q => t.dropRequestOf q) _ (fun t q _ => recs_dropRequestOf t q) s

theorem mem_reqs_foldl_drop (l : List OpenReq) : ∀ {s : State} {q : OpenReq},
    q ∈ (l.foldl (fun s q => s.dropRequestOf q) s).sc.reqs → q ∈ s.sc.reqs ∧ q ∉ l := by
  induction l with
  | nil => exact fun h => ⟨h, List.not_mem_nil⟩
  | cons p l ih =>
    intro s q hq
    obtain ⟨hin, hout⟩ := ih hq
    rw [reqs_dropRequestOf, List.mem_filter] at hin
    exact ⟨hin.1, fun h => (List.mem_cons.1 h).elim (by simpa using hin.2) hout⟩

theorem reqs_dropRequestsOf {q : OpenReq} (h : q ∈ (s.dropRequestsOf c).sc.reqs) : q.client ≠ c := by
  obtain ⟨hin, hout⟩ := mem_reqs_foldl_drop _ h
  exact fun hc => hout (List.mem_filter.2 ⟨hin, decide_eq_true hc⟩)

theorem cutClient_eq (s : State) (c : Fin 256) (own : BitVec 64) : s.cutClient c own =
    ((((s.freeClientEntries c).discardWindows c).fenceOwned own).stopDma c).dropRequestsOf c := by
  unfold cutClient
  extract_lets u v w
  have hv : v = u.fenceOwned own := rfl
  have hw : w = v.stopDma c := rfl
  rw [← hv, ← hw]
  rfl

/-- What a cut of client c leaves: no queue or grant word moved, no entry or request of its own. -/
structure CutOff (c : Fin 256) (s t : State) : Prop where
  keeps : CutKeeps s t
  freed : SeatWf s → ∀ h, (s.calEntry h).st ≠ .free → (s.calEntry h).owner = c → (t.calEntry h).st = .free
  reqs : ∀ q ∈ t.sc.reqs, q.client ≠ c

theorem cutOff_cutClient (s : State) (c : Fin 256) (own : BitVec 64) : CutOff c s (s.cutClient c own) := by
  have h0 := cutKeeps_freeClientEntries s c
  have h1 := cutKeeps_discardWindows (s.freeClientEntries c) c
  rw [cutClient_eq]
  generalize (s.freeClientEntries c).discardWindows c = u at h1
  have h2 : CutKeeps u (u.fenceOwned own) := .foldFin (fun n t => .ite (cutKeeps_fenceChan t n _) (.refl t)) u
  generalize u.fenceOwned own = v at h2
  have h3 : CutKeeps v (v.stopDma c) := .of_only (only_stopDma v c) (by decide) (by decide)
  generalize v.stopDma c = w at h3
  have h4 : CutKeeps w (w.dropRequestsOf c) :=
    .of_same (recs_dropRequestsOf w c) (congrArg Timetable.cal (only_dropRequestsOf w c .tt (by decide)))
  have hrest := ((h1.trans h2).trans h3).trans h4
  exact ⟨h0.trans hrest, fun w h hlive hown => hrest.cal (h0.wf w) h (freeClientEntries_frees w.2 hlive hown),
    fun q hq => reqs_dropRequestsOf hq⟩

theorem fenceClear_cutClient (s : State) (c : Fin 256) {own : BitVec 64} (hn : bit own n.val = true) :
    FenceClear n (s.cutClient c own) := by
  rw [cutClient_eq]
  generalize (s.freeClientEntries c).discardWindows c = u
  have hu := fenceClear_fenceOwned u hn
  generalize u.fenceOwned own = v at hu
  have hchan : ((v.stopDma c).dropRequestsOf c).chan n = v.chan n :=
    congrArg (at_ · n) (((only_stopDma v c).trans (only_dropRequestsOf _ c)) .chans (by decide))
  unfold FenceClear
  rw [hchan]
  exact hu

/-- A disable of a client that is still disabled takes effect. -/
theorem applyCut_disable {g : BitVec 64} (h : (s.client c).en = false) : s.applyCut { client := c, cause := 0, grant := g } =
    (s.cutClient c g).modClient c fun r => { r with st := .disabled } :=
  (if_neg (not_not.2 rfl)).trans (if_neg (by rw [h]; decide))

/-- The record of a client whose fence has taken effect. -/
def fencedRecord (cause : Nat) (r : ClientRec) : ClientRec := { r with st := .fenced, fcause := .ofNat 4 cause }

/-- A client's fence in its stages, up to its report. -/
def clientFenced (s : State) (c : Fin 256) (cause : Nat) : State :=
  (((((s.cutClient c (ownedMask (s.client c))).modCyc fun y => { y with cut := c :: y.cut }).modClient c (fencedRecord cause)).scFlag
    sFENCE).modSc fun x => { x with frecClient := c, frecCause := .ofNat 4 cause })

theorem fenceClient_command (h0 : c ≠ 0) (hst : (s.client c).st = .active) :
    s.fenceClient c 2 = (s.clientFenced c 2).report 0x22 9 c.val 0 :=
  (if_neg fun h => h.elim h0 fun h => h hst).trans (if_neg (by decide))

theorem applyCut_fence (h0 : c ≠ 0) (hst : (s.client c).st = .active) :
    s.applyCut { client := c, cause := 2, grant := 0 } = (s.clientFenced c 2).report 0x22 9 c.val 0 :=
  (if_pos (show (2 : BitVec 4) ≠ 0 by decide)).trans (fenceClient_command h0 hst)

end State
end Sys2Proof.Machine
end

section
/-!
# Records, restores, events and buffers (14 R522, R523, R532–R546, R553)
-/
namespace Sys2Proof.Machine

/-! ## Packed words -/

/-- A command word: an operation, a link and a number of 16 bits. -/
theorem fields_command {op l h : Nat} (hop : op < 16) (hl : l < 4) (hh : h < 2 ^ 16) :
    fld (packw [(op, 28), (l, 24), (h, 0)] : Word) 31 28 = op ∧ fld (packw [(op, 28), (l, 24), (h, 0)] : Word) 25 24 = l ∧
      fld (packw [(op, 28), (l, 24), (h, 0)] : Word) 15 0 = h := by
  have hn : (packw [(op, 28), (l, 24), (h, 0)] : Word).toNat = op * 2 ^ 28 + l * 2 ^ 24 + h := by
    rw [packw_eq, BitVec.toNat_ofNat]
    simp only [packNumber_cons, packNumber_nil]
    rw [Nat.mod_eq_of_lt (by omega)]
    omega
  simp only [fld, hn]
  refine ⟨?_, ?_, ?_⟩ <;> omega

/-- A command word without a link. -/
theorem fields_command_plain {op h : Nat} (hop : op < 16) (hh : h < 2 ^ 16) :
    fld (packw [(op, 28), (h, 0)] : Word) 31 28 = op ∧ fld (packw [(op, 28), (h, 0)] : Word) 15 0 = h ∧
      fld (packw [(op, 28), (h, 0)] : Word) 7 0 = h % 256 ∧ (packw [(op, 28), (h, 0)] : Word).toNat = op * 2 ^ 28 + h := by
  have hn : (packw [(op, 28), (h, 0)] : Word).toNat = op * 2 ^ 28 + h := by
    rw [packw_eq, BitVec.toNat_ofNat]
    simp only [packNumber_cons, packNumber_nil]
    rw [Nat.mod_eq_of_lt (by omega)]
    omega
  simp only [fld, hn]
  refine ⟨?_, ?_, ?_, trivial⟩ <;> omega

theorem b2n_le (b : Bool) : b2n b ≤ 1 := by cases b <;> decide

theorem toNat_eventWord0 (seq info : Nat) (crit : Bool) (type : Nat) : (State.eventWord0 seq info crit type).toNat =
    seq % 256 * 2 ^ 24 + info % 65536 * 2 ^ 8 + b2n crit * 2 ^ 7 + type % 128 := by
  have hc := b2n_le crit
  rw [State.eventWord0, packw_eq, BitVec.toNat_ofNat]
  simp only [packNumber_cons, packNumber_nil]
  rw [Nat.mod_eq_of_lt (by omega)]
  omega

/-- A critical event's type, and its info above it. -/
theorem eventWord0_low (seq info type : Nat) (ht : type < 128) :
    (State.eventWord0 seq info true type).toNat % 256 = 128 + type ∧
      (State.eventWord0 seq info true type).toNat % 2 ^ 24 = info % 65536 * 256 + 128 + type := by
  rw [toNat_eventWord0, show b2n true = 1 from rfl, Nat.mod_eq_of_lt ht]
  omega

namespace State
variable {s t : State} {c n : Fin 256} {i j : Fin 256}

/-! ## Buffers -/

theorem bufRec_setBuf (hbufs : cellWf {} s.sc.bufs = true) (i j : Fin 256) (f : BufRec → BufRec) :
    (s.setBuf i f).bufRec j = if j = i then f (s.bufRec i) else s.bufRec j :=
  (cellRead_write ({} : BufRec) s.sc.bufs i.val j.val _ hbufs).trans (if_congr Fin.ext_iff.symm rfl rfl)

theorem bufRec_setBuf_self (hbufs : cellWf {} s.sc.bufs = true) (i : Fin 256) (f : BufRec → BufRec) :
    (s.setBuf i f).bufRec i = f (s.bufRec i) := (bufRec_setBuf hbufs i i f).trans (if_pos rfl)

theorem bufRec_setBuf_ne (hbufs : cellWf {} s.sc.bufs = true) (h : j ≠ i) (f : BufRec → BufRec) :
    (s.setBuf i f).bufRec j = s.bufRec j := (bufRec_setBuf hbufs i j f).trans (if_neg h)

theorem bufs_setBuf (hbufs : cellWf {} s.sc.bufs = true) (i : Fin 256) (f : BufRec → BufRec) :
    cellWf {} (s.setBuf i f).sc.bufs = true := cellWf_write ({} : BufRec) _ _ _ hbufs

theorem recs_setBuf (s : State) (i : Fin 256) (f : BufRec → BufRec) : (s.setBuf i f).sc.recs = s.sc.recs := rfl

/-- The links drop the message of a buffer. -/
def dropEverywhere (s : State) (i : Fin 256) : State := foldFin 4 (fun l s => s.dropMessage l i) s

theorem only_dropEverywhere (s : State) (i : Fin 256) : OnlyChanges [.hl] s (s.dropEverywhere i) :=
  .foldFin (fun l t => only_dropMessage t l i) s

theorem sc_dropEverywhere (s : State) (i : Fin 256) : (s.dropEverywhere i).sc = s.sc := only_dropEverywhere s i .sc (by decide)

theorem bufFreeOp_eq (s : State) (i : Fin 256) : s.bufFreeOp i = (s.dropEverywhere i).setBuf i fun b => { b with st := .free } := rfl

/-! ## Restores -/

/-- A buffer that comes back from its client. -/
def freedBuf (b : BufRec) : BufRec := { st := .free, gen := if b.gen = 0xFF then 1 else b.gen + 1 }

/-- The buffers listed come back. -/
def takeBuffers (s : State) (l : List (Fin 256)) : State := l.foldl (fun s i => (s.dropEverywhere i).setBuf i freedBuf) s

theorem only_takeBuffers (s : State) (l : List (Fin 256)) : OnlyChanges [.hl, .sc] s (s.takeBuffers l) :=
  .foldl (fun t i => ((only_dropEverywhere t i).trans (only_setBuf _ i _)).mono (by decide)) l s

theorem recs_takeBuffers (s : State) (l : List (Fin 256)) : (s.takeBuffers l).sc.recs = s.sc.recs :=
  foldl_keeps (p := fun t : State => t.sc.recs) (f := fun t i => (t.dropEverywhere i).setBuf i freedBuf) l
    (fun t i _ => (recs_setBuf _ i _).trans (congrArg Seating.recs (sc_dropEverywhere t i))) s

theorem takeBuffers_frees (l : List (Fin 256)) : ∀ {s : State}, cellWf {} s.sc.bufs = true →
    (∀ j, (s.bufRec j).st = .free → ((s.takeBuffers l).bufRec j).st = .free) ∧ ∀ j ∈ l, ((s.takeBuffers l).bufRec j).st = .free := by
  induction l with
  | nil => exact fun _ => ⟨fun _ h => h, fun _ h => absurd h List.not_mem_nil⟩
  | cons i l ih =>
    intro s hbufs
    have hbufs' : cellWf {} (s.dropEverywhere i).sc.bufs = true := by rwa [sc_dropEverywhere]
    have hrec (j : Fin 256) : (s.dropEverywhere i).bufRec j = s.bufRec j :=
      congrArg (fun x : Seating => cellRead ({} : BufRec) x.bufs j.val) (sc_dropEverywhere s i)
    have hself : (((s.dropEverywhere i).setBuf i freedBuf).bufRec i).st = .free := by
      rw [bufRec_setBuf_self hbufs']
      rfl
    obtain ⟨hkeep, hfree⟩ := ih (bufs_setBuf hbufs' i freedBuf)
    have hcons : s.takeBuffers (i :: l) = ((s.dropEverywhere i).setBuf i freedBuf).takeBuffers l := by
      unfold takeBuffers
      rw [List.foldl_cons]
    rw [hcons]
    refine ⟨fun j hj => hkeep j ?_, fun j hj => ?_⟩
    · by_cases hji : j = i
      · rw [hji]
        exact hself
      · rw [bufRec_setBuf_ne hbufs' hji, hrec]
        exact hj
    · obtain rfl | hj := List.mem_cons.1 hj
      · exact hkeep j hself
      · exact hfree j hj

/-- The record of a client that comes back, before its first event. -/
def restoredRecord (now late : Nat) (r : ClientRec) : ClientRec :=
  { r with queue := [], overflowed := false, cursor := 0, faultTimes := [], tokens := fld r.rate 15 8, tokAt := now, st := .active
           dropped := satOf 12 (r.dropped.toNat + late) }

/-- The events posted to a client and not yet admitted. -/
def lateEvents (s : State) (c : Fin 256) : Nat := ((s.sc.posted ++ s.cyc.admits).filter fun p => decide (p.client = c)).length

/-- The events of a client that is about to come back go. -/
def unposted (s : State) (c : Fin 256) : State :=
  (s.modSc fun x => { x with posted := x.posted.filter fun p => p.client ≠ c }).modCyc fun y =>
    { y with admits := y.admits.filter fun p => p.client ≠ c }

/-- A client back with its buffers and its record, before its channels. -/
def recordRestored (s : State) (c : Fin 256) : State :=
  ((s.unposted c).takeBuffers (s.bufHeld c)).modClient c (restoredRecord s.time (s.lateEvents c))

/-- The channels that a record grants come back. -/
def unfenceGranted (s : State) (r : ClientRec) : State := foldFin 64 (fun n s => if grants r n then s.unfenceChan n fnClient else s) s

theorem only_unfenceGranted (s : State) (r : ClientRec) : OnlyChanges [.chans] s (s.unfenceGranted r) :=
  .foldFin (fun n t => .ite (only_unfenceChan t n _) (.refl _ _)) s

/-- The cause that a client's first event names. -/
def restoreCause (r : ClientRec) : Nat := if r.st = .fenced then r.fcause.toNat else 0

/-- The first event of a client that comes back. -/
def restoredEvent (r : ClientRec) (cause : Nat) : Event :=
  { w0 := eventWord0 r.seq.toNat 0 true 0x0A, w1 := .ofNat 32 cause, w2 := 0, w3 := 0 }

theorem restoreClient_eq (s : State) (c : Fin 256) : s.restoreClient c =
    ((((s.recordRestored c).unfenceGranted ((s.recordRestored c).client c)).fltBack (unitKey 9 c.val)).modClient c fun r =>
      { r with seq := r.seq + 1 }).admitEvent c
      (restoredEvent ((((s.recordRestored c).unfenceGranted ((s.recordRestored c).client c)).fltBack (unitKey 9 c.val)).client c)
        (restoreCause (s.client c))) := by
  have htime (l : List (Fin 256)) : ((s.unposted c).takeBuffers l).time = s.time := only_takeBuffers (s.unposted c) l .time (by decide)
  unfold recordRestored
  rw [← htime (s.bufHeld c)]
  unfold restoreClient
  rfl

end State
end Sys2Proof.Machine
end

section
/-!
# Restores, record writes and admissions (14 R522, R523, R533–R538, R553)
-/
namespace Sys2Proof.Machine
namespace State
variable {s t : State} {c n : Fin 256}

/-! ## A client that comes back -/

theorem bufs_modClient (s : State) (c : Fin 256) (f : ClientRec → ClientRec) : (s.modClient c f).sc.bufs = s.sc.bufs := rfl

theorem client_recordRestored (hrecs : cellWf {} s.sc.recs = true) (c : Fin 256) :
    cellWf {} (s.recordRestored c).sc.recs = true ∧
      (s.recordRestored c).client c = restoredRecord s.time (s.lateEvents c) (s.client c) ∧
      ∀ d, d ≠ c → (s.recordRestored c).client d = s.client d := by
  have hsame : ((s.unposted c).takeBuffers (s.bufHeld c)).sc.recs = s.sc.recs := recs_takeBuffers (s.unposted c) _
  have hwf : cellWf {} ((s.unposted c).takeBuffers (s.bufHeld c)).sc.recs = true := by rwa [hsame]
  have hclient (d : Fin 256) : ((s.unposted c).takeBuffers (s.bufHeld c)).client d = s.client d := by
    unfold client
    rw [hsame]
  refine ⟨recs_modClient hwf c _, ?_, fun d hd => ?_⟩
  · rw [recordRestored, client_modClient_self hwf, hclient]
  · rw [recordRestored, client_modClient_ne hwf hd, hclient]

theorem bufRec_recordRestored (hbufs : cellWf {} s.sc.bufs = true) {b : Fin 256} (hb : b ∈ s.bufHeld c) :
    ((s.recordRestored c).bufRec b).st = .free := (takeBuffers_frees (s := s.unposted c) (s.bufHeld c) hbufs).2 b hb

theorem only_recordRestored (s : State) (c : Fin 256) : OnlyChanges [.hl, .sc] s (s.recordRestored c) := by
  have h0 : OnlyChanges [.sc] s (s.unposted c) := (only_modSc s _).both (only_modCyc _ _ _)
  exact ((h0.trans (only_takeBuffers _ _)).trans (only_modClient _ c _)).mono (by decide)

/-- A client back with its channels in service. -/
def channelsRestored (s : State) (c : Fin 256) : State :=
  ((s.recordRestored c).unfenceGranted ((s.recordRestored c).client c)).fltBack (unitKey 9 c.val)

theorem only_channelsRestored (s : State) (c : Fin 256) : OnlyChanges [.chans, .flt] (s.recordRestored c) (s.channelsRestored c) :=
  (only_unfenceGranted _ _).trans (only_fltBack _ _)

theorem sc_channelsRestored (s : State) (c : Fin 256) : (s.channelsRestored c).sc = (s.recordRestored c).sc :=
  only_channelsRestored s c .sc (by decide)

/-- An event of an active client with room joins its queue. -/
theorem admitEvent_room {e : Event} (hst : s.clientState c = .active) (hroom : eventsHeld (s.client c) < s.creditOf c) :
    s.admitEvent c e = s.modClient c fun r => { r with queue := r.queue ++ [e] } :=
  (if_neg (not_not.2 hst)).trans (if_pos hroom)

/-- What a restore leaves: the client active with one event, and its buffers free. -/
structure BackAgain (s t : State) (c : Fin 256) : Prop where
  client : ∃ e : Event, t.client c = { restoredRecord s.time (s.lateEvents c) (s.client c) with
      seq := (s.client c).seq + 1, queue := [e] } ∧ e.w0.toNat % 256 = 0x8A ∧ e.w1.toNat = restoreCause (s.client c)
  bufs : ∀ b, b ∈ s.bufHeld c → (t.bufRec b).st = .free

theorem restoreCause_lt (r : ClientRec) : restoreCause r < 16 := by
  unfold restoreCause
  split
  · exact r.fcause.isLt
  · decide

theorem restoreClient_back (hrecs : cellWf {} s.sc.recs = true) (hbufs : cellWf {} s.sc.bufs = true) (h0 : c ≠ 0)
    (hcredit : 0 < (s.client c).credit) : BackAgain s (s.restoreClient c) c := by
  obtain ⟨hwf, hself, -⟩ := client_recordRestored hrecs c
  have hb : ∀ b, b ∈ s.bufHeld c → ((s.recordRestored c).bufRec b).st = .free := fun b => bufRec_recordRestored hbufs
  have heq : s.restoreClient c = ((s.channelsRestored c).modClient c fun r => { r with seq := r.seq + 1 }).admitEvent c
      (restoredEvent ((s.channelsRestored c).client c) (restoreCause (s.client c))) := restoreClient_eq s c
  have hsc := sc_channelsRestored s c
  rw [heq]
  generalize s.channelsRestored c = u at hsc
  have hu : u.client c = restoredRecord s.time (s.lateEvents c) (s.client c) := (client_of_sc hsc c).trans hself
  have hwf' : cellWf {} u.sc.recs = true := by rwa [hsc]
  have hv := client_modClient_self hwf' c fun r => { r with seq := r.seq + 1 }
  have hvwf := recs_modClient hwf' c fun r => { r with seq := r.seq + 1 }
  have hbufs' : (u.modClient c fun r => { r with seq := r.seq + 1 }).sc.bufs = (s.recordRestored c).sc.bufs :=
    (bufs_modClient _ _ _).trans (congrArg Seating.bufs hsc)
  generalize (u.modClient c fun r => { r with seq := r.seq + 1 }) = v at hv hvwf hbufs'
  rw [hu] at hv
  have hst : v.clientState c = .active := (if_neg h0).trans (congrArg ClientRec.st hv)
  have hheld : eventsHeld (v.client c) = 0 := by rw [hv]; rfl
  have hcr : v.creditOf c = (s.client c).credit := by
    unfold creditOf
    rw [if_neg h0, hv]
    rfl
  rw [admitEvent_room hst (by rw [hheld, hcr]; exact hcredit)]
  refine ⟨⟨restoredEvent (u.client c) (restoreCause (s.client c)), ?_, ?_, ?_⟩, fun b hmem => ?_⟩
  · rw [client_modClient_self hvwf, hv]
    rfl
  · exact (eventWord0_low _ _ _ (by decide)).1
  · have := restoreCause_lt (s.client c)
    exact (BitVec.toNat_ofNat _ _).trans (Nat.mod_eq_of_lt (by omega))
  · refine (congrArg (fun l => (cellRead ({} : BufRec) l b.val).st) ((bufs_modClient v c _).trans hbufs')).trans (hb b hmem)

/-! ## Record writes -/

theorem sc_noteRec (s : State) (n : Fin 256) : (s.noteRec n).sc = s.sc := only_noteRec s n [] .sc (by decide)
theorem time_noteRec (s : State) (n : Fin 256) : (s.noteRec n).time = s.time := only_noteRec s n [] .time (by decide)

theorem client_noteRec (s : State) (n d : Fin 256) : (s.noteRec n).client d = s.client d := client_of_sc (sc_noteRec s n) d

/-- May client c, or the supervisor itself, write record n (R522)? -/
def Writer (s : State) (sup : Bool) (c n : Fin 256) : Prop :=
  (c = 0 ∨ (c = 255 ∧ (s.client 255).canWrite 15 = true)) ∧ (n = 255 → sup = true)

theorem not_writer_iff {sup : Bool} : ¬ s.Writer sup c n ↔
    (c ≠ 0 ∧ ¬(c = 255 ∧ (s.client 255).canWrite 15 = true)) ∨ (n = 255 ∧ sup = false) := by
  unfold Writer
  rw [not_and_or, not_or, Classical.not_imp, Bool.not_eq_true]

theorem recordWrite_ignored {sup : Bool} {k : Nat} (h : 6 ≤ k ∨ n = 0) (w : Word) : s.recordWrite sup c n k w = s := if_pos h

theorem recordWrite_unauthorised {sup : Bool} {k : Nat} (hk : k < 6) (h0 : n ≠ 0) (hw : ¬ s.Writer sup c n) (w : Word) :
    s.recordWrite sup c n k w = s.scWerr n 5 :=
  (if_neg fun h => h.elim (fun h => absurd h (Nat.not_le.2 hk)) h0).trans (if_pos (not_writer_iff.1 hw))

/-- A write that the rules of a record pass, with the record's old value noted. -/
def recordPut (s : State) (n : Fin 256) (i : Nat) (w : Word) : State :=
  let old := s.client n
  let new := old.setWord i w
  let s := s.noteRec n
  if i = 0 ∧ old.en ∧ !new.en then (s.modClient n fun r => { r with bind := w }).disableNext n old
  else
    let s := s.modClient n fun r => if i = 5 then { r.setWord i w with tokAt := s.time } else r.setWord i w
    if i = 0 ∧ !old.en ∧ new.en then s.restoreClient n else s

theorem recordWrite_judged {sup : Bool} {k : Nat} (hk : k < 6) (h0 : n ≠ 0) (hw : s.Writer sup c n) (w : Word) :
    s.recordWrite sup c n k w = match s.recordFault n ((s.client n).setWord k w) with | 0 => s.recordPut n k w | r => s.scWerr n r :=
  (if_neg fun h => h.elim (fun h => absurd h (Nat.not_le.2 hk)) h0).trans (if_neg fun h => not_writer_iff.2 h hw)

theorem recordFault_le (s : State) (n : Fin 256) (r : ClientRec) : s.recordFault n r ≤ 4 := by
  have hite (p : Prop) [Decidable p] {a b : Nat} (ha : a ≤ 4) (hb : b ≤ 4) : (if p then a else b) ≤ 4 := by split <;> assumption
  exact hite _ (by decide) (hite _ (by decide) (hite _ (by decide) (hite _ (by decide) (by decide))))

theorem recordWrite_refused {sup : Bool} {k : Nat} (hk : k < 6) (h0 : n ≠ 0) (hw : s.Writer sup c n) {w : Word}
    (hf : s.recordFault n ((s.client n).setWord k w) ≠ 0) :
    s.recordWrite sup c n k w = s.scWerr n (s.recordFault n ((s.client n).setWord k w)) := by
  rw [recordWrite_judged hk h0 hw]
  split
  · next h => exact absurd h hf
  · rfl

theorem recordWrite_accepted {sup : Bool} {k : Nat} (hk : k < 6) (h0 : n ≠ 0) (hw : s.Writer sup c n) {w : Word}
    (hf : s.recordFault n ((s.client n).setWord k w) = 0) : s.recordWrite sup c n k w = s.recordPut n k w := by
  rw [recordWrite_judged hk h0 hw, hf]
  rfl

/-- The record after a write of word k. -/
def wordWritten (now k : Nat) (w : Word) (r : ClientRec) : ClientRec :=
  if k = 5 then { r.setWord k w with tokAt := now } else r.setWord k w

theorem recordPut_plain {k : Nat} {w : Word} (h : k ≠ 0 ∨ bit w 31 = (s.client n).en) :
    s.recordPut n k w = (s.noteRec n).modClient n (wordWritten s.time k w) := by
  have hnew : k = 0 → ((s.client n).setWord k w).en = bit w 31 := fun hk => by subst hk; rfl
  unfold recordPut
  dsimp only
  rw [if_neg fun hc => ?_, if_neg fun hc => ?_, time_noteRec]
  · rfl
  · obtain ⟨hk, hold, hnew'⟩ := hc
    rw [hnew hk, h.resolve_left (not_not.2 hk)] at hnew'
    rw [hnew'] at hold
    exact Bool.noConfusion hold
  · obtain ⟨hk, hold, hnew'⟩ := hc
    rw [hnew hk, h.resolve_left (not_not.2 hk), hold] at hnew'
    exact Bool.noConfusion hnew'

theorem recordPut_enables {w : Word} (hold : (s.client n).en = false) (hw : bit w 31 = true) :
    s.recordPut n 0 w = ((s.noteRec n).modClient n fun r => { r with bind := w }).restoreClient n := by
  have hnew : ((s.client n).setWord 0 w).en = true := hw
  unfold recordPut
  dsimp only
  rw [if_neg fun hc => by rw [hold] at hc; exact Bool.noConfusion hc.2.1, if_pos ⟨rfl, by rw [hold]; rfl, hnew⟩]
  rfl

theorem recordPut_disables {w : Word} (hold : (s.client n).en = true) (hw : bit w 31 = false) :
    s.recordPut n 0 w = ((s.noteRec n).modClient n fun r => { r with bind := w }).disableNext n (s.client n) := by
  have hnew : ((s.client n).setWord 0 w).en = false := hw
  unfold recordPut
  dsimp only
  rw [if_pos ⟨rfl, hold, by rw [hnew]; rfl⟩]

theorem only_scWerr (s : State) (n : Fin 256) (r : Nat) : OnlyChanges [.sc] s (s.scWerr n r) := (only_scFlag s _).both (only_modSc _ _)

theorem flag_scFlag (s : State) (b : BitVec 6) (i : Nat) : bit (s.scFlag b).sc.flag i = (bit s.sc.flag i || bit b i) := bit_or _ _ _

theorem bit_enabled (w : Word) : bit (w ||| 0x80000000) 31 = true := by
  rw [bit_or]
  exact Bool.or_true _

theorem bit_disabled (w : Word) : bit (w &&& 0x7FFFFFFF) 31 = false := by
  rw [bit, BitVec.getLsbD_and]
  exact Bool.and_false _

end State
end Sys2Proof.Machine
end

section
/-!
# Admissions, buffers and requests (14 R533–R546)
-/
namespace Sys2Proof.Machine

/-! ## The least of a list -/

/-- Where no-less-than is transitive on the keys, nothing in the list lies below its least element. -/
theorem leastBy_min {α : Type} {key : α → List Nat}
    (htrans : ∀ x y z, lexLt (key x) (key y) = false → lexLt (key y) (key z) = false → lexLt (key x) (key z) = false)
    {l : List α} : ∀ {a : α}, leastBy key l = some a → ∀ b ∈ l, lexLt (key b) (key a) = false := by
  have hirrefl (x : List Nat) : lexLt x x = false := by
    cases h : lexLt x x with
    | false => rfl
    | true => exact h.symm.trans (lexLt_asymm h)
  induction l with
  | nil => exact fun h => nomatch h
  | cons x l ih =>
    intro a h b hb
    rw [leastBy] at h
    split at h
    · next hnone =>
      obtain rfl := Option.some.inj h
      obtain rfl | hb := List.mem_cons.1 hb
      · exact hirrefl _
      · obtain ⟨c, hc⟩ := leastBy_isSome (key := key) hb
        rw [hnone] at hc
        exact nomatch hc
    · next y hsome =>
      split at h
      · next hlt =>
        obtain rfl := Option.some.inj h
        obtain rfl | hb := List.mem_cons.1 hb
        · exact lexLt_asymm hlt
        · exact ih hsome b hb
      · next hlt =>
        obtain rfl := Option.some.inj h
        obtain rfl | hb := List.mem_cons.1 hb
        · exact hirrefl _
        · exact htrans _ _ _ (ih hsome b hb) (Bool.eq_false_iff.2 hlt)

theorem lexLt_three (a b c x y z : Nat) : lexLt [a, b, c] [x, y, z] = true ↔ a < x ∨ (a = x ∧ (b < y ∨ (b = y ∧ c < z))) := by
  simp only [lexLt, Bool.or_eq_true, Bool.and_eq_true, decide_eq_true_iff, Bool.and_false, Bool.or_false]

namespace State
variable {s t : State} {c n : Fin 256} {i j : Fin 256} {l : Fin 4}

/-! ## The event pool -/

theorem eventAdmit_empty (h : s.sc.posted = []) : s.eventAdmit = s := by
  unfold eventAdmit nextPosted
  rw [h]

theorem eventAdmit_early {p : Posted} {rest : List Posted} (h : s.sc.posted = p :: rest) (ht : s.time ≤ p.at_) : s.eventAdmit = s := by
  have hnone : s.nextPosted = none := by
    unfold nextPosted
    rw [h]
    exact if_pos ht
  unfold eventAdmit
  rw [hnone]

/-- The pool takes the j-th posted event. -/
def poolTakes (s : State) (j : Nat) (q : Posted) : State :=
  (s.modSc fun x => { x with posted := x.posted.eraseIdx j }).modCyc fun y => { y with admits := y.admits ++ [q] }

theorem eventAdmit_takes {p : Posted} {rest : List Posted} (h : s.sc.posted = p :: rest) (ht : p.at_ < s.time) :
    ∃ j q, s.sc.posted[j]? = some q ∧ q.at_ = p.at_ ∧ s.eventAdmit = s.poolTakes j q ∧
      ∀ (m : Nat) (y : Posted), s.sc.posted[m]? = some y → y.at_ = p.at_ →
        q.client < y.client ∨ (q.client = y.client ∧ (q.rank < y.rank ∨ (q.rank = y.rank ∧ j ≤ m))) := by
  have hnext : s.nextPosted = leastBy (fun q : Nat × Posted => [q.2.client.val, q.2.rank, q.1])
      ((s.sc.posted.zipIdx.map fun q => (q.2, q.1)).filter fun q => decide (q.2.at_ = p.at_)) := by
    unfold nextPosted
    rw [h]
    exact if_neg (Nat.not_le.2 ht)
  have hmem (m : Nat) (y : Posted) : (m, y) ∈ ((s.sc.posted.zipIdx.map fun q => (q.2, q.1)).filter fun q => decide (q.2.at_ = p.at_)) ↔
      s.sc.posted[m]? = some y ∧ y.at_ = p.at_ := by
    rw [List.mem_filter, decide_eq_true_iff]
    refine and_congr_left fun _ => ?_
    rw [List.mem_map]
    refine ⟨fun ⟨⟨a, b⟩, hab, he⟩ => ?_, fun hm => ⟨(y, m), List.mem_zipIdx_iff_getElem?.2 hm, rfl⟩⟩
    obtain ⟨rfl, rfl⟩ := Prod.mk.inj he
    exact List.mem_zipIdx_iff_getElem?.1 hab
  obtain ⟨⟨j, q⟩, hleast⟩ := leastBy_isSome (key := fun q : Nat × Posted => [q.2.client.val, q.2.rank, q.1])
    ((hmem 0 p).2 ⟨by rw [h]; rfl, rfl⟩)
  obtain ⟨hget, hat⟩ := (hmem j q).1 (mem_of_leastBy hleast)
  refine ⟨j, q, hget, hat, ?_, fun m y hy hyt => ?_⟩
  · unfold eventAdmit
    rw [hnext, hleast]
    rfl
  · have hmin := leastBy_min (fun x y z hxy hyz => by
      rw [Bool.eq_false_iff, ne_eq, lexLt_three] at *
      omega) hleast (m, y) ((hmem m y).2 ⟨hy, hyt⟩)
    rw [Bool.eq_false_iff, ne_eq, lexLt_three] at hmin
    dsimp only at hmin
    rw [Fin.lt_def, Fin.ext_iff]
    omega

/-! ## Reads of a client's queue -/

theorem evPop_empty (h : (s.client c).queue = []) : s.evPop c = (0, s) := by
  unfold evPop
  dsimp only
  rw [h]

/-- The word that the cursor names. -/
def popWord (e : Event) (k : BitVec 2) : Word := match k.toNat with | 0 => e.w0 | 1 => e.w1 | 2 => e.w2 | _ => e.w3

theorem evPop_next {e : Event} {rest : List Event} (h : (s.client c).queue = e :: rest) : s.evPop c =
    if (s.client c).cursor = 3 then
      (popWord e (s.client c).cursor, s.modClient c fun r => { r with queue := rest, cursor := 0, overflowed := r.overflowed && !e.ov })
    else (popWord e (s.client c).cursor, s.modClient c fun r => { r with cursor := r.cursor + 1 }) := by
  unfold evPop
  dsimp only
  rw [h]
  rfl

/-! ## Admission under credit -/

theorem admitEvent_inactive {e : Event} (h0 : n ≠ 0) (h : (s.client n).st ≠ .active) :
    s.admitEvent n e = s.modClient n fun r => { r with dropped := satInc r.dropped } :=
  if_pos fun ha => h ((if_neg h0).symm.trans ha)

/-- A plain event finds a queue full of critical ones. -/
theorem admitEvent_full {e : Event} (h0 : n ≠ 0) (hst : (s.client n).st = .active) (hfull : (s.client n).credit ≤ eventsHeld (s.client n))
    (hcrit : ∀ x ∈ (s.client n).queue, bit x.w0 7 = true) (hplain : bit e.w0 7 = false) : s.admitEvent n e = s.countDrop n := by
  have hact : s.clientState n = .active := (if_neg h0).trans hst
  have hcr : s.creditOf n = (s.client n).credit := if_neg h0
  have hany : ((s.client n).queue.any fun x => !x.ov && !isCrit x) = false :=
    List.any_eq_false.2 fun x hx => by rw [isCrit, hcrit x hx]; simp
  have hc : isCrit e = false := hplain
  unfold admitEvent
  rw [if_neg (not_not.2 hact)]
  dsimp only
  rw [if_neg (Nat.not_lt.2 (hcr ▸ hfull)), hany, hc]
  rfl

/-- The OVERFLOW notice with SEQ seq. -/
def overflowNotice (seq : BitVec 8) : Event := { w0 := eventWord0 seq.toNat 0 true 0x09, w1 := 1, w2 := 0, w3 := 0, ov := true }

theorem countDrop_first (hrecs : cellWf {} s.sc.recs = true) (h : (s.client c).overflowed = false) :
    bit (s.countDrop c).sc.flag 3 = true ∧ (s.countDrop c).client c = { s.client c with
      dropped := satInc (s.client c).dropped, overflowed := true, seq := (s.client c).seq + 1,
      queue := (s.client c).queue ++ [overflowNotice (s.client c).seq] } := by
  have h1 := client_modClient_self hrecs c fun r => { r with dropped := satInc r.dropped }
  have hwf := recs_modClient hrecs c fun r => { r with dropped := satInc r.dropped }
  unfold countDrop
  extract_lets u r e
  have hu : u.client c = { s.client c with dropped := satInc (s.client c).dropped } := h1
  have huwf : cellWf {} u.sc.recs = true := hwf
  have hflag : bit u.sc.flag 3 = true := (flag_scFlag _ sOVF 3).trans (Bool.or_true _)
  have he : e = overflowNotice (s.client c).seq := by
    have hr : r.seq = (s.client c).seq := by
      show (u.client c).seq = _
      rw [hu]
    unfold e overflowNotice
    rw [hr]
  have hov : r.overflowed = false := by
    show (u.client c).overflowed = _
    rw [hu]
    exact h
  rw [if_neg (by rw [hov]; decide), he]
  clear_value u
  refine ⟨hflag, ?_⟩
  rw [client_modClient_self huwf, hu]

/-! ## Buffers -/

theorem bufAlloc_quota (h0 : c ≠ 0) (h : fld (s.client c).quota 10 2 ≤ (s.bufHeld c).length) : s.bufAlloc c = (packw [(1, 28)], s) :=
  if_pos ⟨h0, h⟩

theorem bufAlloc_within (h : c = 0 ∨ (s.bufHeld c).length < fld (s.client c).quota 10 2) : s.bufAlloc c =
    match s.bufFree with
    | [] => (packw [(2, 28)], s)
    | i :: _ =>
      if (s.bank 7).st = .fenced then (packw [(3, 28)], s)
      else
        let s := s.setBuf i fun b => { st := .owned c, gen := if b.gen = 0xFF then 1 else b.gen + 1 }
        let h := s.handleOf i
        (packw [(h, 0)], s.modClient c fun r => { r with lastAlloc := .ofNat 16 h }) :=
  if_neg fun hq => h.elim hq.1 fun h => absurd hq.2 (Nat.not_le.2 h)

theorem bufFree_none (h : ∀ j, (s.bufRec j).st ≠ .free) : s.bufFree = [] :=
  List.filter_eq_nil_iff.2 fun j _ => by simp [h j]

theorem bufFree_lowest (hi : (s.bufRec i).st = .free) (h : ∀ j, j < i → (s.bufRec j).st ≠ .free) : ∃ rest, s.bufFree = i :: rest := by
  have hhead : s.bufFree.head? = some i := by
    unfold bufFree
    rw [List.head?_filter]
    exact find?_finRange_eq_some (decide_eq_true hi) fun j hj => decide_eq_false (h j hj)
  exact List.head?_eq_some_iff.1 hhead

theorem bufCmd_checked {w : Word} {op h : Nat} (hop : fld w 31 28 = op) (hh : fld w 15 0 = h) (h1 : 1 ≤ op) (h3 : op ≤ 3) :
    s.bufCmd c w = match s.bufCheck c h with
      | 0 => if op = 1 then s.bufFreeOp (Fin.ofNat 256 (h % 256)) else s.bufSendOp (Fin.ofNat 256 (h % 256)) (Fin.ofNat 4 (fld w 25 24)) (decide (op = 3))
      | k => s.bufFault c k op h := by
  subst hop hh
  exact if_neg (by omega)

theorem bufCmd_good {w : Word} {op h : Nat} (hop : fld w 31 28 = op) (hh : fld w 15 0 = h) (h1 : 1 ≤ op) (h3 : op ≤ 3)
    (hc : s.bufCheck c h = 0) : s.bufCmd c w = if op = 1 then s.bufFreeOp (Fin.ofNat 256 (h % 256))
      else s.bufSendOp (Fin.ofNat 256 (h % 256)) (Fin.ofNat 4 (fld w 25 24)) (decide (op = 3)) := by
  rw [bufCmd_checked hop hh h1 h3, hc]
  rfl

theorem bufCmd_fault {w : Word} {op h k : Nat} (hop : fld w 31 28 = op) (hh : fld w 15 0 = h) (h1 : 1 ≤ op) (h3 : op ≤ 3)
    (hc : s.bufCheck c h = k) (hk : k ≠ 0) : s.bufCmd c w = s.bufFault c k op h := by
  rw [bufCmd_checked hop hh h1 h3]
  split
  · next h0 => exact absurd (hc.symm.trans h0) hk
  · rw [hc]

theorem bufCheck_le (s : State) (c : Fin 256) (h : Nat) : s.bufCheck c h ≤ 3 := by
  unfold bufCheck
  dsimp only
  split
  · decide
  · split
    · decide
    · split <;> decide
    · split <;> decide

/-- The event of a failed check. -/
def faultEvent (s : State) (c : Fin 256) (kind op handle : Nat) : Event :=
  { w0 := eventWord0 (s.client c).seq.toNat (kind * 4096 + op * 256) true 0x08, w1 := .ofNat 32 handle
    w2 := packw [((s.bufRec (Fin.ofNat 256 (handle % 256))).gen.toNat, 8), ((bufOwner (s.bufRec (Fin.ofNat 256 (handle % 256)))).val, 0)], w3 := 0 }

/-- A fault posted and flagged, before it is counted. -/
def faultPosted (s : State) (c : Fin 256) (e : Event) : State :=
  ((s.modClient c fun r => { r with seq := r.seq + 1 }).modSc fun sc =>
    { sc with posted := sc.posted ++ [{ client := c, ev := e, at_ := s.time, rank := 1 }] }).scFlag sBUFF

theorem bufFault_eq (s : State) (c : Fin 256) (kind op handle : Nat) :
    s.bufFault c kind op handle = (s.faultPosted c (s.faultEvent c kind op handle)).countFault c := by
  unfold bufFault post faultPosted faultEvent
  rfl

theorem recs_faultPosted (s : State) (c : Fin 256) (e : Event) :
    (s.faultPosted c e).sc.recs = (s.modClient c fun r => { r with seq := r.seq + 1 }).sc.recs := rfl

theorem bufFault_leaves (hrecs : cellWf {} s.sc.recs = true) (hfew : s.FewFaults c) (kind op handle : Nat) :
    (s.bufFault c kind op handle).sc.bufs = s.sc.bufs ∧ bit (s.bufFault c kind op handle).sc.flag 2 = true ∧
      ((s.bufFault c kind op handle).client c).faults = satInc (s.client c).faults ∧
      (s.bufFault c kind op handle).sc.posted = s.sc.posted ++ [{ client := c, ev := s.faultEvent c kind op handle, at_ := s.time, rank := 1 }] ∧
      OnlyChanges [.sc] s (s.bufFault c kind op handle) := by
  rw [bufFault_eq]
  generalize s.faultEvent c kind op handle = e
  have hself := client_modClient_self hrecs c fun r => { r with seq := r.seq + 1 }
  have hwf := recs_modClient hrecs c fun r => { r with seq := r.seq + 1 }
  have hsame := recs_faultPosted s c e
  have hv : (s.faultPosted c e).client c = { s.client c with seq := (s.client c).seq + 1 } := by
    rw [← hself]
    unfold client
    rw [hsame]
  have hvwf : cellWf {} (s.faultPosted c e).sc.recs = true := by rwa [hsame]
  have hflag : bit (s.faultPosted c e).sc.flag 2 = true := (flag_scFlag _ sBUFF 2).trans (Bool.or_true _)
  have hbufs : (s.faultPosted c e).sc.bufs = s.sc.bufs := rfl
  have hposted : (s.faultPosted c e).sc.posted = s.sc.posted ++ [{ client := c, ev := e, at_ := s.time, rank := 1 }] := rfl
  have honly : OnlyChanges [.sc] s (s.faultPosted c e) := ((only_modClient s c _).both (only_modSc _ _)).both (only_scFlag _ _)
  generalize s.faultPosted c e = v at hv hvwf hflag hbufs hposted honly
  have hfew' : v.FewFaults c := hfew.imp_right fun h => by rw [hv]; exact h
  rw [countFault_few hvwf hfew']
  refine ⟨hbufs, hflag, ?_, hposted, honly.both (only_modClient _ _ _)⟩
  rw [client_modClient_self hvwf, hv]
  rfl

/-! ## Messages -/

/-- The message of buffer i as its head names it. -/
def bufMessage (s : State) (i : Fin 256) (req : Bool) : MdcMsg :=
  { client := bufOwner (s.bufRec i), buf := some i, msgid := (s.msgHead i).1, req := req
    payload := cellReadList 0 s.mem.cells (bufAddr i + 4) (s.msgHead i).2.1 }

/-- A buffer's message queued on a link. -/
def messageQueued (s : State) (i : Fin 256) (l : Fin 4) (req : Bool) : State :=
  (s.setBuf i fun b => { b with st := .queued (bufOwner (s.bufRec i)) l req }).modLink l fun x =>
    { x with mdcq := x.mdcq ++ [s.bufMessage i req] }

/-- The head of the message in buffer i passes: 1 to 60 bytes, reserved fields 0. -/
structure HeadPasses (s : State) (i : Fin 256) : Prop where
  reserved : (s.msgHead i).2.2 = true
  some : 1 ≤ (s.msgHead i).2.1
  fits : (s.msgHead i).2.1 ≤ 60

theorem bufSendOp_send (h : s.HeadPasses i) (l : Fin 4) : s.bufSendOp i l false = s.messageQueued i l false := by
  unfold bufSendOp
  dsimp only
  rw [if_neg (by simp [h.reserved, Nat.not_lt.2 h.some, Nat.not_lt.2 h.fits])]
  rfl

/-- The request that a REQUEST opens. -/
def openedRequest (s : State) (i : Fin 256) (l : Fin 4) : OpenReq :=
  { client := bufOwner (s.bufRec i), link := l, msgid := (s.msgHead i).1, buf := i, at_ := s.tb
    timeoutMs := max 20 (fld (s.client (bufOwner (s.bufRec i))).rate 31 16) }

theorem bufSendOp_request (h : s.HeadPasses i)
    (hnew : ∀ q ∈ s.sc.reqs, ¬ (q.client = bufOwner (s.bufRec i) ∧ q.link = l ∧ q.msgid = (s.msgHead i).1)) :
    s.bufSendOp i l true = (s.messageQueued i l true).modSc fun x => { x with reqs := x.reqs ++ [s.openedRequest i l] } := by
  have hany : (s.sc.reqs.any fun q => decide (q.client = bufOwner (s.bufRec i)) && decide (q.link = l) && decide (q.msgid = (s.msgHead i).1)) = false :=
    List.any_eq_false.2 fun q hq => by
      have := hnew q hq
      simpa [and_assoc] using this
  unfold bufSendOp
  dsimp only
  rw [if_neg (by simp [h.reserved, Nat.not_lt.2 h.some, Nat.not_lt.2 h.fits]), hany]
  rfl

theorem messageQueued_leaves (hbufs : cellWf {} s.sc.bufs = true) (i : Fin 256) (l : Fin 4) (req : Bool) :
    ((s.messageQueued i l req).bufRec i).st = .queued (bufOwner (s.bufRec i)) l req ∧
      ((s.messageQueued i l req).link l).mdcq = (s.link l).mdcq ++ [s.bufMessage i req] ∧
      (s.messageQueued i l req).sc.reqs = s.sc.reqs ∧ OnlyChanges [.sc, .hl] s (s.messageQueued i l req) := by
  have hbuf := bufRec_setBuf_self hbufs i fun b => { b with st := .queued (bufOwner (s.bufRec i)) l req }
  refine ⟨congrArg BufRec.st hbuf, ?_, rfl, (only_setBuf s i _).trans (only_modLink _ l _)⟩
  exact congrArg Hl.mdcq (at_vset_self _ _ _)

end State
end Sys2Proof.Machine
end

section
/-!
# O52 (14 R522, R523, R532–R538, R540–R546, R551–R553, R556, R558)
-/
namespace Sys2Proof.Machine

section
variable {i : Instr} {s t : State} {f : State → State} {ps : List Part} {P : State → Prop}

theorem completes_seated (hc : exec i s = .next (s.whenUp s.pwr.pd1Up f)) (hup : s.pwr.pd1Up = true) (hf : f s = t) (hP : P t)
    (ho : OnlyChanges ps s t) : Completes i s ps P :=
  ⟨t, hc.trans (congrArg Host.Outcome.next ((if_pos hup).trans hf)), hP, ho⟩

theorem completes_unseated (hc : exec i s = .next (s.whenUp s.pwr.pd1Up f)) (hdown : s.pwr.pd1Up = false) :
    Completes i s [] fun _ => True :=
  ⟨s, hc.trans (congrArg Host.Outcome.next (if_neg (by simp [hdown]))), trivial, .refl _ _⟩

end

namespace State
variable {s : State} {c n : Fin 256} {l : Fin 4} {msgid : BitVec 12} {q : OpenReq}

/-! ## SC_CMD -/

theorem scCmd_client0 {op : Nat} (hop : op < 16) : s.scCmd (packw [(op, 28), ((0 : Fin 256).val, 0)]) = s.scFlag sWWR := by
  obtain ⟨-, -, h7, -⟩ := fields_command_plain (h := 0) hop (by decide)
  unfold scCmd
  dsimp only
  rw [show ((0 : Fin 256).val) = 0 from rfl, h7]
  exact if_pos (.inl rfl)

theorem scCmd_of {op : Nat} (h1 : 1 ≤ op) (h3 : op ≤ 3) (hn : n ≠ 0) : s.scCmd (packw [(op, 28), (n.val, 0)]) =
    if op = 1 then s.fenceNext n 2 else if op = 2 then s.restoreCmd n
    else s.modClient n fun r => { r with dropped := 0, late := 0, faults := 0 } := by
  obtain ⟨h31, -, h7, -⟩ := fields_command_plain (h := n.val) (show op < 16 by omega) (by omega)
  have hc : Fin.ofNat 256 (n.val % 256) = n := Fin.ext (by simp [Fin.ofNat])
  unfold scCmd
  dsimp only
  rw [h31, h7, hc]
  exact if_neg fun h => h.elim hn fun h => by omega

theorem fenceNext_active {cause : Nat} (hn : n ≠ 0) (hst : (s.client n).st = .active) : s.fenceNext n cause =
    s.modSc fun x => { x with cuts := x.cuts ++ [{ client := n, cause := .ofNat 4 cause, grant := 0 }] } :=
  if_neg fun h => h.elim hn fun h => h hst

theorem fenceNext_inactive {cause : Nat} (hst : (s.client n).st ≠ .active) : s.fenceNext n cause = s := if_pos (.inr hst)

/-! ## The timeout of a request -/

theorem requestTimeout_none (h : ∀ q ∈ s.sc.reqs, ¬ (q.client = c ∧ q.link = l ∧ q.msgid = msgid)) : s.requestTimeout c l msgid = s := by
  have hfind : (s.sc.reqs.find? fun q => decide (q.client = c) && decide (q.link = l) && decide (q.msgid = msgid)) = none :=
    List.find?_eq_none.2 fun q hq => by
      have := h q hq
      simpa [and_assoc] using this
  unfold requestTimeout
  rw [hfind]

/-- An event of a producer of rank 1 posted to client c. -/
def eventPosted (s : State) (c : Fin 256) (e : Event) : State :=
  (s.modClient c fun r => { r with seq := r.seq + 1 }).modSc fun sc =>
    { sc with posted := sc.posted ++ [{ client := c, ev := e, at_ := s.time, rank := 1 }] }

theorem only_eventPosted (s : State) (c : Fin 256) (e : Event) : OnlyChanges [.sc] s (s.eventPosted c e) :=
  (only_modClient _ _ _).both (only_modSc _ _)

theorem eventPosted_leaves (s : State) (c : Fin 256) (e : Event) : (s.eventPosted c e).sc.reqs = s.sc.reqs ∧
    (s.eventPosted c e).sc.bufs = s.sc.bufs ∧ ∃ p ∈ (s.eventPosted c e).sc.posted, p.client = c ∧ p.ev = e :=
  ⟨rfl, rfl, _, List.mem_append_right _ (List.mem_singleton_self _), rfl, rfl⟩

theorem handleOf_lt (s : State) (i : Fin 256) : s.handleOf i < 2 ^ 16 := by
  have := (s.bufRec i).gen.isLt
  unfold handleOf
  omega

theorem postFailed_eq (s : State) (c : Fin 256) (l : Fin 4) (msgid : BitVec 12) {reason handle : Nat} (hr : reason < 16)
    (hh : handle < 2 ^ 16) (tx : Nat) : ∃ e : Event, s.postFailed c l msgid reason handle tx = s.eventPosted c e ∧
      e.w0.toNat % 256 = 0x85 ∧ e.w1.toNat / 2 ^ 28 = reason := by
  refine ⟨{ w0 := eventWord0 (s.client c).seq.toNat (l.val * 4096 + msgid.toNat) true 0x05
            w1 := packw [(reason, 28), (handle, 0)], w2 := .ofNat 32 tx, w3 := 0 }, ?_, (eventWord0_low _ _ _ (by decide)).1, ?_⟩
  · unfold postFailed post eventPosted
    rfl
  dsimp only
  rw [(fields_command_plain hr hh).2.2.2]
  omega

/-- The request dropped and its FAILED event posted. -/
def timedOut (s : State) (q : OpenReq) (e : Event) : State := ((s.dropRequestOf q).eventPosted q.client e).scFlag sTMO

theorem requestTimeout_expires (hreqs : s.sc.reqs = [q]) (ht : reached s.tb (q.at_ + .ofNat 48 (q.timeoutMs * 200000)) = true) :
    ∃ e : Event, s.requestTimeout q.client q.link q.msgid = s.timedOut q e ∧ e.w0.toNat % 256 = 0x85 ∧ e.w1.toNat / 2 ^ 28 = 1 := by
  have hfind : (s.sc.reqs.find? fun p => decide (p.client = q.client) && decide (p.link = q.link) && decide (p.msgid = q.msgid)) = some q := by
    rw [hreqs, List.find?_cons_of_pos (by simp)]
  have hgo : s.requestTimeout q.client q.link q.msgid =
      ((s.dropRequestOf q).postFailed q.client q.link q.msgid eTIMEOUT (s.handleOf q.buf) (s.txMade q.link q.buf)).scFlag sTMO := by
    unfold requestTimeout
    rw [hfind]
    dsimp only
    rw [if_pos ht]
  obtain ⟨e, he, h0, h1⟩ := postFailed_eq (s.dropRequestOf q) q.client q.link q.msgid (show eTIMEOUT < 16 by decide)
    (handleOf_lt s q.buf) (s.txMade q.link q.buf)
  exact ⟨e, hgo.trans (congrArg (scFlag · sTMO) he), h0, h1⟩

theorem timedOut_leaves (hbufs : cellWf {} s.sc.bufs = true) (hreqs : s.sc.reqs = [q]) (e : Event) :
    (s.timedOut q e).sc.reqs = [] ∧ ((s.timedOut q e).bufRec q.buf).st = .owned q.client ∧ bit (s.timedOut q e).sc.flag 5 = true ∧
      (∀ m ∈ ((s.timedOut q e).link q.link).mdcq, m.buf ≠ some q.buf) ∧
      (∃ p ∈ (s.timedOut q e).sc.posted, p.client = q.client ∧ p.ev = e) ∧ OnlyChanges [.sc, .hl] s (s.timedOut q e) := by
  have hdrop : (s.dropRequestOf q).sc.reqs = [] := by
    rw [reqs_dropRequestOf, hreqs]
    exact List.filter_eq_nil_iff.2 fun r hr => by simp [List.mem_singleton.1 hr]
  have hbuf : ((s.dropRequestOf q).bufRec q.buf).st = .owned q.client := by
    have h := bufRec_setBuf_self (s := s.dropMessage q.link q.buf) hbufs q.buf fun b => { b with st := .owned q.client }
    exact congrArg BufRec.st h
  have hlink : ((s.dropRequestOf q).link q.link).mdcq = (s.link q.link).mdcq.filter fun m => m.buf ≠ some q.buf :=
    congrArg Hl.mdcq (at_vset_self _ _ _)
  have honly : OnlyChanges [.sc, .hl] s (s.dropRequestOf q) := (only_dropRequestOf s q).mono (by decide)
  unfold timedOut
  generalize s.dropRequestOf q = v at hdrop hbuf hlink honly
  obtain ⟨hreqs', hbufs', hposted⟩ := v.eventPosted_leaves q.client e
  have hv := v.only_eventPosted q.client e
  generalize v.eventPosted q.client e = w at hreqs' hbufs' hposted hv
  refine ⟨hreqs'.trans hdrop, ?_, (flag_scFlag w sTMO 5).trans (Bool.or_true _), fun m hm => ?_, hposted,
    (honly.also hv (by decide)).also (only_scFlag w _) (by decide)⟩
  · exact (congrArg (fun l => (cellRead ({} : BufRec) l q.buf.val).st) hbufs').trans hbuf
  · have hw : (w.scFlag sTMO).link q.link = v.link q.link := congrArg (at_ · q.link) (hv .hl (by decide))
    rw [hw, hlink] at hm
    simpa using (List.mem_filter.1 hm).2

/-! ## Handles -/

theorem msgHead_passes {i : Fin 256} {head : Word} (h : s.bankData (bufAddr i) = head) (hlo : 1 ≤ fld head 23 16) (hhi : fld head 23 16 ≤ 60)
    (h15 : fld head 15 12 = 0) (h31 : fld head 31 24 = 0) : s.HeadPasses i := by
  subst h
  refine ⟨?_, hlo, hhi⟩
  show (decide (fld (s.bankData (bufAddr i)) 15 12 = 0) && decide (fld (s.bankData (bufAddr i)) 31 24 = 0)) = true
  rw [h15, h31]
  rfl

/-! ## Cuts that take effect -/

theorem disabled_leaves (hseat : SeatWf s) (g : BitVec 64) {t : State}
    (ht : t = (s.cutClient n g).modClient n fun r => { r with st := .disabled }) :
    (t.client n).st = .disabled ∧ (t.client n).bind = (s.client n).bind ∧ (t.client n).queue = (s.client n).queue ∧
      (∀ q ∈ t.sc.reqs, q.client ≠ n) ∧ ∀ h, (s.calEntry h).st ≠ .free → (s.calEntry h).owner = n → (t.calEntry h).st = .free := by
  obtain ⟨hkeeps, hfreed, hreqs⟩ := cutOff_cutClient s n g
  generalize s.cutClient n g = v at ht hkeeps hfreed hreqs
  have hself := client_modClient_self (hkeeps.wf hseat).1 n fun r => { r with st := .disabled }
  subst ht
  rw [hself]
  exact ⟨rfl, hkeeps.bind hseat n, hkeeps.queue hseat n, hreqs, hfreed hseat⟩

/-- The registers of a client's fence set, after its cut. -/
def fenceNoted (s : State) (c : Fin 256) (cause : Nat) : State :=
  (((s.modCyc fun y => { y with cut := c :: y.cut }).modClient c (fencedRecord cause)).scFlag sFENCE).modSc fun x =>
    { x with frecClient := c, frecCause := .ofNat 4 cause }

theorem recs_fenceNoted (s : State) (c : Fin 256) (cause : Nat) :
    (s.fenceNoted c cause).sc.recs = (s.modClient c (fencedRecord cause)).sc.recs := rfl

theorem fenceNoted_leaves (hrecs : cellWf {} s.sc.recs = true) (c : Fin 256) (cause : Nat) :
    (s.fenceNoted c cause).client c = fencedRecord cause (s.client c) ∧ bit (s.fenceNoted c cause).sc.flag 1 = true ∧
      (s.fenceNoted c cause).sc.frecClient = c ∧ (s.fenceNoted c cause).sc.frecCause = .ofNat 4 cause ∧
      (s.fenceNoted c cause).sc.reqs = s.sc.reqs ∧ OnlyChanges [.sc] s (s.fenceNoted c cause) := by
  have hself : (s.fenceNoted c cause).client c = fencedRecord cause (s.client c) := by
    rw [← client_modClient_self hrecs c (fencedRecord cause)]
    unfold client
    rw [recs_fenceNoted]
  exact ⟨hself, (flag_scFlag _ sFENCE 1).trans (Bool.or_true _), rfl, rfl, rfl,
    (((only_modCyc s _ _).both (only_modClient _ c _)).both (only_scFlag _ _)).both (only_modSc _ _)⟩

theorem clientFenced_eq (s : State) (c : Fin 256) (cause : Nat) :
    s.clientFenced c cause = (s.cutClient c (ownedMask (s.client c))).fenceNoted c cause := by
  unfold clientFenced fenceNoted
  rfl

theorem fenced_leaves (hseat : SeatWf s) {t : State} (ht : t = (s.clientFenced n 2).report 0x22 9 n.val 0) :
    (t.client n).st = .fenced ∧ (t.client n).fcause = 2 ∧ (t.client n).queue = (s.client n).queue ∧ bit t.sc.flag 1 = true ∧
      t.sc.frecClient = n ∧ t.sc.frecCause = 2 ∧ (∀ q ∈ t.sc.reqs, q.client ≠ n) ∧
      (∀ h, (s.calEntry h).st ≠ .free → (s.calEntry h).owner = n → (t.calEntry h).st = .free) ∧
      (∀ j : Fin 64, grants (s.client n) j = true → FenceClear j t) ∧
      ∃ q ∈ t.reports, q.mech = 0x22 ∧ q.kind = 9 ∧ q.index.toNat = n.val := by
  rw [clientFenced_eq] at ht
  obtain ⟨hkeeps, hfreed, hreqs⟩ := cutOff_cutClient s n (ownedMask (s.client n))
  have hchans : ∀ j : Fin 64, grants (s.client n) j = true → FenceClear j (s.cutClient n (ownedMask (s.client n))) := fun j hj => by
    obtain ⟨hen, hgrant⟩ := Bool.and_eq_true_iff.1 hj
    refine fenceClear_cutClient s n ?_
    rw [ownedMask, if_pos (show (s.client n).en = true from hen)]
    exact hgrant
  generalize s.cutClient n (ownedMask (s.client n)) = v at ht hkeeps hfreed hreqs hchans
  obtain ⟨hrec, hflag, hclient, hcause, hreqs', honly⟩ := fenceNoted_leaves (hkeeps.wf hseat).1 n 2
  generalize v.fenceNoted n 2 = w at ht hrec hflag hclient hcause hreqs' honly
  subst ht
  have hcl : (w.report 0x22 9 n.val 0).client n = fencedRecord 2 (v.client n) := hrec
  rw [hcl]
  refine ⟨rfl, rfl, hkeeps.queue hseat n, hflag, hclient, hcause, fun q hq => hreqs q ?_, fun h hl ho => ?_, fun j hj => ?_,
    _, List.mem_append_right _ (List.mem_singleton_self _), rfl, rfl, (BitVec.toNat_ofNat _ _).trans (Nat.mod_eq_of_lt n.isLt)⟩
  · rw [← hreqs']
    exact hq
  · have hw : (w.report 0x22 9 n.val 0).calEntry h = v.calEntry h := congrArg (fun y : Timetable => cellRead ({} : CalEntry) y.cal h)
      (honly .tt (by decide))
    rw [hw]
    exact hfreed hseat h hl ho
  · have hw : (w.report 0x22 9 n.val 0).chan j = v.chan j := congrArg (at_ · j) (honly .chans (by decide))
    unfold FenceClear
    rw [hw]
    exact hchans j hj

end State
end Sys2Proof.Machine
end

section
/-!
# The Seating Chart's commands (O52)
-/
namespace Sys2Proof.Machine
open State

/-- A buffer allocated to client c. -/
def allocatedBuf (c : Fin 256) (b : BufRec) : BufRec := { st := .owned c, gen := if b.gen = 0xFF then 1 else b.gen + 1 }

/-- Buffer i allocated to client c. -/
def State.allocated (s : State) (i c : Fin 256) : State := s.setBuf i (allocatedBuf c)

theorem State.client_disableNext (s : State) (n : Fin 256) (r : ClientRec) (j : Fin 256) : (s.disableNext n r).client j = s.client j := rfl

/-- Settles O52: a record write by whether the writer, the rules and EN pass it; a cut by what it leaves alone; a restore by the
record it leaves; a handle by its check. -/
theorem seatingChartCommands : Obligations.SeatingChartCommands := by
  unfold Obligations.SeatingChartCommands
  intro s sup c n k w handle l msgid i hcan hbufs
  obtain ⟨hcal, hrecs, -⟩ := hcan
  have hseat : SeatWf s := ⟨hrecs, hcal⟩
  intro r me writer others flagged fresh wide set on off low b head len id owner sendable queued faulty
  have hself (f : ClientRec → ClientRec) : (s.modClient n f).client n = f (s.client n) := client_modClient_self hrecs n f
  have hother (f : ClientRec → ClientRec) : others (s.modClient n f) := fun j hj => client_modClient_ne hrecs hj f
  have hflag {b i : Nat} {t : State} (h : t.sc.flag = (s.scFlag (.ofNat 6 b)).sc.flag) (hb : bit (.ofNat 6 b : BitVec 6) i = true) :
      flagged t i := by
    show bit t.sc.flag i = true
    rw [h, flag_scFlag, hb, Bool.or_true]
  have hwerr {cmd : Instr} {f : State → State} {reason : Nat} (hup : s.pwr.pd1Up = true)
      (hc : exec cmd s = .next (s.whenUp s.pwr.pd1Up f)) (hx : f s = s.scWerr n reason) (hr : reason < 16) :
      Completes cmd s [.sc] fun t => t.sc.recs = s.sc.recs ∧ flagged t 0 ∧ t.sc.werrRecord = n ∧ t.sc.werrReason.toNat = reason :=
    completes_seated hc hup hx ⟨rfl, (flag_scFlag s sWWR 0).trans (Bool.or_true _), rfl, (BitVec.toNat_ofNat _ _).trans (Nat.mod_eq_of_lt hr)⟩
      (only_scWerr s n reason)
  have hfresh {u : State} (hn : n ≠ 0) (huw : cellWf {} u.sc.recs = true) (hub : u.sc.bufs = s.sc.bufs)
      {f : ClientRec → ClientRec} (huc : u.client n = f r) (hq : (f r).quota = r.quota) (hcr : 0 < r.credit) :
      fresh (u.restoreClient n) (restoreCause (f r)) ∧ ((u.restoreClient n).client n).bind = (f r).bind ∧
        ((u.restoreClient n).client n).tokens = fld (f r).rate 15 8 := by
    have hcr' : 0 < (u.client n).credit := by
      rw [huc]
      show 0 < fld (f r).quota 21 11
      rw [hq]
      exact hcr
    have hback := restoreClient_back huw (by rwa [hub]) hn hcr'
    obtain ⟨⟨e, he, hlow, hcause⟩, hb⟩ := hback
    rw [huc] at he hcause
    have hheld : u.bufHeld n = s.bufHeld n := by
      unfold bufHeld bufRec
      rw [hub]
    rw [hheld] at hb
    rw [he]
    exact ⟨⟨congrArg ClientRec.st he, congrArg ClientRec.overflowed he, congrArg ClientRec.cursor he, congrArg ClientRec.faultTimes he,
      ⟨e, congrArg ClientRec.queue he, hlow, hcause⟩, hb⟩, rfl, rfl⟩
  have hfaulty {cmd : Instr} {w : Word} {op : Nat} (hup : s.pwr.pd1Up = true) (hc : exec cmd s = .next (s.whenUp s.pwr.pd1Up fun s => s.bufCmd c w))
      (hop : fld w 31 28 = op) (hh : fld w 15 0 = handle.toNat) (h1 : 1 ≤ op) (h3 : op ≤ 3) : faulty cmd op := by
    intro kind hk hk0 hfew
    obtain ⟨hb, hf, hfaults, hposted, honly⟩ := bufFault_leaves hrecs hfew kind op handle.toNat
    have hle := s.bufCheck_le c handle.toNat
    have hlt := handle.isLt
    refine completes_seated hc hup (bufCmd_fault hop hh h1 h3 hk hk0) ⟨hb, hf, hfaults, _,
      hposted ▸ List.mem_append_right _ (List.mem_singleton_self _), rfl, ?_, ?_⟩ honly
    · rw [show (s.faultEvent c kind op handle.toNat).w0 = eventWord0 (s.client c).seq.toNat (kind * 4096 + op * 256) true 0x08 from rfl,
        (eventWord0_low _ _ _ (by decide)).2]
      omega
    · exact (BitVec.toNat_ofNat _ _).trans (Nat.mod_eq_of_lt (by omega))
  have hanswer {w : Word} {v : Nat} (hup : s.pwr.pd1Up = true) (hx : s.bufAlloc c = (w, s)) (hv : w.toNat = v) :
      Completes (.bufAlloc c) s [.rdata] fun t => t.rdata.toNat = v := by
    have hans : s.answered (s.bufAlloc c) = s.answer w := by rw [hx]; rfl
    exact completes_seated rfl hup hans hv (only_answer s _)
  have hlink {w : Word} (h : fld w 25 24 = l.val) : Fin.ofNat 4 (fld w 25 24) = l := Fin.ext (by simp [Fin.ofNat, h])
  have haddr : bufAddr (Fin.ofNat 256 low) = 0x3C000 + 0x40 * low := by
    have : low < 256 := Nat.mod_lt _ (by decide)
    simp [bufAddr, Fin.ofNat, Nat.mod_eq_of_lt this]
  have hpass (hlo : 1 ≤ len) (hhi : len ≤ 60) (h15 : fld head 15 12 = 0) (h31 : fld head 31 24 = 0) : s.HeadPasses (Fin.ofNat 256 low) :=
    msgHead_passes (by rw [haddr]) hlo hhi h15 h31
  have hid : (s.msgHead (Fin.ofNat 256 low)).1 = id := by
    show BitVec.ofNat 12 (fld (s.bankData (bufAddr (Fin.ofNat 256 low))) 11 0) = _
    rw [haddr]
  have hpayload (req : Bool) : (s.bufMessage (Fin.ofNat 256 low) req).payload = cellReadList 0 s.mem.cells (0x3C000 + 0x40 * low + 4) len := by
    show cellReadList 0 s.mem.cells (bufAddr (Fin.ofNat 256 low) + 4) (fld (s.bankData (bufAddr (Fin.ofNat 256 low))) 23 16) = _
    rw [haddr]
  have hready {u : State} (hn : n ≠ 0) (hx : s.restoreCmd n = u) : s.scCmd (packw [(2, 28), (n.val, 0)]) = u :=
    (scCmd_of (by decide) (by decide) hn).trans hx
  refine ⟨fun hdown cmd hcmd => ?down, fun hup => ⟨fun h => ?ignored, fun hk h0 => ⟨fun hw => ?unauthorised, fun hw hf => ?refused,
    fun hw hf hkw => ?written⟩, fun h0 hw hen hst hf hcr => ?enSet, fun h0 hw hen hf => ?enClear, fun g hen => ?cutDisable,
    fun h0 cmd hcmd => ?client0, fun h0 hst => ?fence, fun h0 hst => ?cutFence, fun h0 hst => ?fenceNo, fun h0 hst hcut hcr => ?restore,
    fun h0 h => ?restoreNo, fun h0 => ?clrcnt, ?token, fun h => ?admitEmpty, fun p rest h ht => ?admitEarly, fun p rest h ht => ?admitTaken,
    fun ev h0 => ?event, fun h => ?popEmpty, fun e rest h => ?pop, fun h0 hq => ?allocQuota, fun hq => ⟨fun hn => ?allocNone, fun hi hlow =>
    ⟨fun hb => ?allocFenced, fun hb => ?alloc⟩⟩, fun hc => ?free, ?faultFree, ?faultSend, ?faultRequest, fun h => ?send, fun h hnew => ?request,
    fun h => ?timeoutNone, fun q hq hc hl hm ht => ?timeout⟩⟩
  case down =>
    simp only [List.mem_cons, List.not_mem_nil, or_false] at hcmd
    obtain rfl | rfl | rfl | rfl | rfl | rfl | rfl | rfl | rfl | rfl | rfl | rfl | rfl | rfl := hcmd <;>
      exact completes_unseated rfl hdown
  case ignored => exact completes_seated rfl hup (recordWrite_ignored h w) trivial (.refl _ _)
  case unauthorised =>
    exact completes_seated rfl hup (recordWrite_unauthorised hk h0 hw w) ⟨rfl, (flag_scFlag s sWWR 0).trans (Bool.or_true _), rfl, rfl⟩
      (only_scWerr s n 5)
  case refused =>
    have := s.recordFault_le n set
    exact hwerr hup rfl (recordWrite_refused hk h0 hw hf) (by omega)
  case written =>
    have hk0 : k.val ≠ 0 ∨ bit w 31 = r.en := hkw.imp_left fun h hv => h (Fin.ext hv)
    have hx := (recordWrite_accepted hk h0 hw hf).trans (recordPut_plain hk0)
    have hrecs' : cellWf {} (s.noteRec n).sc.recs = true := by rwa [sc_noteRec]
    refine completes_seated rfl hup hx ⟨?_, fun j hj => ?_, ?_⟩ ((only_noteRec s n _).both (only_modClient _ n _))
    · rw [client_modClient_self hrecs', client_noteRec]
      rfl
    · rw [client_modClient_ne hrecs' hj, client_noteRec]
    · show (s.noteRec n).sc.flag = s.sc.flag
      rw [sc_noteRec]
  case enSet =>
    have hx := (recordWrite_accepted (sup := sup) (c := c) (k := 0) (by decide) h0 hw hf).trans (recordPut_enables hen (bit_enabled w))
    have hrecs' : cellWf {} (s.noteRec n).sc.recs = true := by rwa [sc_noteRec]
    have huc : ((s.noteRec n).modClient n fun r => { r with bind := on }).client n = { r with bind := on } := by
      rw [client_modClient_self hrecs', client_noteRec]
    obtain ⟨hf, hbind, htok⟩ := hfresh (f := fun r => { r with bind := on }) h0 (recs_modClient hrecs' n _)
      ((bufs_modClient _ _ _).trans (congrArg Seating.bufs (sc_noteRec s n))) huc rfl hcr
    have hcause : restoreCause { r with bind := on } = 0 := if_neg (by rw [show ({ r with bind := on } : ClientRec).st = .disabled from hst]; decide)
    rw [hcause] at hf
    exact completes_seated rfl hup hx ⟨hf, hbind, htok⟩
      ((((only_noteRec s n _).both ((only_modClient _ n _).mono (by decide))).also (only_restoreClient _ n) (by decide)))
  case enClear =>
    have hx := (recordWrite_accepted (sup := sup) (c := c) (k := 0) (by decide) h0 hw hf).trans (recordPut_disables hen (bit_disabled w))
    have hrecs' : cellWf {} (s.noteRec n).sc.recs = true := by rwa [sc_noteRec]
    refine completes_seated rfl hup hx ⟨?_, fun j hj => ?_, ?_⟩
      (((only_noteRec s n _).both ((only_modClient _ n _).mono (by decide))).also (only_modSc _ _) (by decide))
    · rw [client_disableNext, client_modClient_self hrecs', client_noteRec]
    · rw [client_disableNext, client_modClient_ne hrecs' hj, client_noteRec]
    · have hmask : ownedMask r = r.grant := if_pos hen
      show (s.noteRec n).sc.cuts ++ [{ client := n, cause := 0, grant := ownedMask r }] = _
      rw [hmask, sc_noteRec]
  case cutDisable => exact disabled_leaves hseat g (applyCut_disable hen)
  case client0 =>
    subst h0
    simp only [List.mem_cons, List.not_mem_nil, or_false] at hcmd
    obtain rfl | rfl | rfl := hcmd <;>
      exact completes_seated rfl hup (scCmd_client0 (by decide)) ⟨(flag_scFlag s sWWR 0).trans (Bool.or_true _), rfl⟩ (only_scFlag s _)
  case fence =>
    exact completes_seated rfl hup ((scCmd_of (by decide) (by decide) h0).trans (fenceNext_active h0 hst)) rfl (only_modSc s _)
  case cutFence => exact fenced_leaves hseat (applyCut_fence h0 hst)
  case fenceNo =>
    exact completes_seated rfl hup ((scCmd_of (by decide) (by decide) h0).trans (fenceNext_inactive hst)) trivial (.refl _ _)
  case restore =>
    have hx := hready h0 (if_pos ⟨hst, hcut⟩)
    obtain ⟨hf, -, htok⟩ := hfresh (u := s.noteRec n) (f := fun r => r) h0 (by rwa [sc_noteRec]) (congrArg Seating.bufs (sc_noteRec s n))
      (client_noteRec s n n) rfl hcr
    have hcause : restoreCause r = r.fcause.toNat := if_pos hst
    rw [hcause] at hf
    exact completes_seated rfl hup hx ⟨hf, htok⟩ ((only_noteRec s n _).also (only_restoreClient _ n) (by decide))
  case restoreNo =>
    exact completes_seated rfl hup (hready h0 (if_neg fun hc => h.elim (fun h => h hc.1) fun h => hc.2 h)) trivial (.refl _ _)
  case clrcnt =>
    exact completes_seated rfl hup ((scCmd_of (by decide) (by decide) h0).trans ((if_neg (by decide)).trans (if_neg (by decide))))
      ⟨hself _, hother _⟩ (only_modClient s n _)
  case token => exact completes_seated rfl hup rfl ⟨hother _, hself _⟩ (only_modClient s n _)
  case admitEmpty => exact completes_seated rfl hup (eventAdmit_empty h) trivial (.refl _ _)
  case admitEarly => exact completes_seated rfl hup (eventAdmit_early h ht) trivial (.refl _ _)
  case admitTaken =>
    obtain ⟨j, q, hget, hat, hx, hmin⟩ := eventAdmit_takes h ht
    exact completes_seated rfl hup hx ⟨j, q, hget, hat, rfl, rfl, hmin⟩ ((only_modSc s _).both (only_modCyc _ _ _))
  case event =>
    refine ⟨fun hst => ?_, fun hst hroom => ?_, fun hst hfull hov hcrit hplain => ?_⟩
    · rw [admitEvent_inactive h0 hst]
      exact hself _
    · rw [admitEvent_room ((if_neg h0).trans hst) (hroom.trans_eq (if_neg h0).symm)]
      exact hself _
    · obtain ⟨hf, hrec⟩ := countDrop_first (c := n) hrecs hov
      rw [admitEvent_full h0 hst hfull hcrit hplain]
      refine ⟨hf, congrArg ClientRec.dropped hrec, congrArg ClientRec.overflowed hrec, overflowNotice r.seq, congrArg ClientRec.queue hrec,
        rfl, rfl, (eventWord0_low _ _ _ (by decide)).1⟩
  case popEmpty =>
    have hx : s.answered (s.evPop c) = s.answer 0 := by rw [evPop_empty h]; rfl
    exact completes_seated rfl hup hx rfl (only_answer s _)
  case pop =>
    have hx := evPop_next h
    by_cases h3 : me.cursor = 3
    · rw [if_pos h3] at hx
      have hans : s.answered (s.evPop c) = (s.modClient c fun r => { r with queue := rest, cursor := 0, overflowed := r.overflowed && !e.ov }).answer
          (popWord e me.cursor) := by rw [hx]; rfl
      refine completes_seated rfl hup hans ⟨fun h => ?_, fun h => ?_, fun h => ?_, fun _ => ?_, fun h => absurd h3 h, fun _ => ?_⟩
        (((only_modClient s c _).mono (by decide)).also (only_answer _ _) (by decide))
      · exact absurd (h3.symm.trans h) (by decide)
      · exact absurd (h3.symm.trans h) (by decide)
      · exact absurd (h3.symm.trans h) (by decide)
      · rw [h3]
        rfl
      · rw [client_answer]
        exact client_modClient_self hrecs c _
    · rw [if_neg h3] at hx
      have hans : s.answered (s.evPop c) = (s.modClient c fun r => { r with cursor := r.cursor + 1 }).answer (popWord e me.cursor) := by
        rw [hx]; rfl
      refine completes_seated rfl hup hans ⟨fun h => ?_, fun h => ?_, fun h => ?_, fun h => absurd h h3, fun _ => ?_, fun h => absurd h h3⟩
        (((only_modClient s c _).mono (by decide)).also (only_answer _ _) (by decide))
      · rw [h]
        rfl
      · rw [h]
        rfl
      · rw [h]
        rfl
      · rw [client_answer]
        exact client_modClient_self hrecs c _
  case allocQuota => exact hanswer hup (bufAlloc_quota h0 hq) (by decide)
  case allocNone => exact hanswer hup ((bufAlloc_within hq).trans (by rw [bufFree_none hn])) (by decide)
  case allocFenced =>
    obtain ⟨rest, hfree⟩ := bufFree_lowest hi hlow
    refine hanswer hup ((bufAlloc_within hq).trans ?_) (by decide : (packw [(3, 28)] : Word).toNat = 3 * 2 ^ 28)
    rw [hfree]
    exact if_pos hb
  case alloc =>
    obtain ⟨rest, hfree⟩ := bufFree_lowest hi hlow
    have hx : s.bufAlloc c = (packw [((s.allocated i c).handleOf i, 0)],
        (s.allocated i c).modClient c fun r => { r with lastAlloc := .ofNat 16 ((s.allocated i c).handleOf i) }) := by
      rw [bufAlloc_within hq, hfree]
      exact if_neg hb
    have hans : s.answered (s.bufAlloc c) = ((s.allocated i c).modClient c fun r =>
        { r with lastAlloc := .ofNat 16 ((s.allocated i c).handleOf i) }).answer (packw [((s.allocated i c).handleOf i, 0)]) := by rw [hx]; rfl
    have hrec := bufRec_setBuf_self hbufs i (allocatedBuf c)
    have hne (j : Fin 256) (hj : j ≠ i) := bufRec_setBuf_ne hbufs hj (allocatedBuf c)
    have hlt := (s.allocated i c).handleOf_lt i
    have hnum : (packw [((s.allocated i c).handleOf i, 0)] : Word).toNat = (s.allocated i c).handleOf i := by
      rw [packw_eq, BitVec.toNat_ofNat]
      simp only [packNumber_cons, packNumber_nil]
      omega
    refine completes_seated rfl hup hans ⟨congrArg BufRec.st hrec, congrArg BufRec.gen hrec, hnum, ?_, hne⟩
      ((((only_setBuf s i _).both (only_modClient _ c _)).mono (by decide)).also (only_answer _ _) (by decide))
    refine Eq.trans ?_ hnum.symm
    show ((((s.allocated i c).modClient c fun r => { r with lastAlloc := .ofNat 16 ((s.allocated i c).handleOf i) }).client c).lastAlloc).toNat = _
    rw [client_modClient_self (s := s.allocated i c) hrecs]
    exact (BitVec.toNat_ofNat _ _).trans (Nat.mod_eq_of_lt hlt)
  case free =>
    obtain ⟨h31, h15, -⟩ := fields_command_plain (op := 1) (h := handle.toNat) (by decide) handle.isLt
    have hx := (bufCmd_good h31 h15 (by decide) (by decide) hc).trans (if_pos rfl)
    have hsc := s.sc_dropEverywhere (Fin.ofNat 256 low)
    have hbufs' : cellWf {} (s.dropEverywhere (Fin.ofNat 256 low)).sc.bufs = true := by rwa [hsc]
    have hrec (j : Fin 256) : (s.dropEverywhere (Fin.ofNat 256 low)).bufRec j = s.bufRec j :=
      congrArg (fun x : Seating => cellRead ({} : BufRec) x.bufs j.val) hsc
    refine completes_seated rfl hup hx ⟨?_, fun j hj => ?_⟩ (((only_dropEverywhere s _).mono (by decide)).also (only_setBuf _ _ _) (by decide))
    · rw [bufFreeOp_eq, bufRec_setBuf_self hbufs', hrec]
    · rw [bufFreeOp_eq, bufRec_setBuf_ne hbufs' hj, hrec]
  case faultFree =>
    obtain ⟨h31, h15, -⟩ := fields_command_plain (op := 1) (h := handle.toNat) (by decide) handle.isLt
    exact hfaulty hup rfl h31 h15 (by decide) (by decide)
  case faultSend =>
    obtain ⟨h31, -, h15⟩ := fields_command (op := 2) (h := handle.toNat) (by decide) l.isLt handle.isLt
    exact hfaulty hup rfl h31 h15 (by decide) (by decide)
  case faultRequest =>
    obtain ⟨h31, -, h15⟩ := fields_command (op := 3) (h := handle.toNat) (by decide) l.isLt handle.isLt
    exact hfaulty hup rfl h31 h15 (by decide) (by decide)
  case send =>
    obtain ⟨hc, hlo, hhi, h15', h31'⟩ := h
    obtain ⟨h31, h25, h15⟩ := fields_command (op := 2) (h := handle.toNat) (by decide) l.isLt handle.isLt
    have hx := (bufCmd_good h31 h15 (by decide) (by decide) hc).trans ((if_neg (by decide)).trans
      ((congrArg (fun l => s.bufSendOp (Fin.ofNat 256 low) l false) (hlink h25)).trans (bufSendOp_send (hpass hlo hhi h15' h31') l)))
    obtain ⟨hst, hmdc, hreqs, honly⟩ := messageQueued_leaves hbufs (Fin.ofNat 256 low) l false
    exact completes_seated rfl hup hx ⟨⟨hst, _, hmdc, rfl, hid, rfl, rfl, hpayload false⟩, hreqs⟩ honly
  case request =>
    obtain ⟨hc, hlo, hhi, h15', h31'⟩ := h
    obtain ⟨h31, h25, h15⟩ := fields_command (op := 3) (h := handle.toNat) (by decide) l.isLt handle.isLt
    have hx := (bufCmd_good h31 h15 (by decide) (by decide) hc).trans ((if_neg (by decide)).trans
      ((congrArg (fun l => s.bufSendOp (Fin.ofNat 256 low) l true) (hlink h25)).trans (bufSendOp_request (hpass hlo hhi h15' h31')
        (by rw [hid]; exact hnew))))
    obtain ⟨hst, hmdc, hreqs, honly⟩ := messageQueued_leaves hbufs (Fin.ofNat 256 low) l true
    generalize hv : s.messageQueued (Fin.ofNat 256 low) l true = v at hx hst hmdc hreqs honly
    refine completes_seated rfl hup hx ⟨⟨hst, _, hmdc, rfl, hid, rfl, rfl, hpayload true⟩, s.openedRequest (Fin.ofNat 256 low) l, ?_,
      rfl, rfl, hid, rfl, rfl⟩ (honly.also (only_modSc _ _) (by decide))
    exact congrArg (· ++ [s.openedRequest (Fin.ofNat 256 low) l]) hreqs
  case timeoutNone => exact completes_seated rfl hup (requestTimeout_none h) trivial (.refl _ _)
  case timeout =>
    subst hc hl hm
    obtain ⟨e, hx, h0, h1⟩ := requestTimeout_expires hq ht
    obtain ⟨hreqs, hbuf, hfl, hmdc, ⟨p, hp, hpc, hpe⟩, honly⟩ := timedOut_leaves hbufs hq e
    exact completes_seated rfl hup hx ⟨hreqs, hbuf, hfl, hmdc, p, hp, hpc, by rw [hpe]; exact h0, by rw [hpe]; exact h1⟩ honly

end Sys2Proof.Machine
end

section
/-!
# The fences of channels and groves (01 R19, 05 R198)
-/
namespace Sys2Proof.Machine

theorem Chan.fenced_of_logic {x y : Chan} (h : x.logic = y.logic) : x.fenced = y.fenced :=
  (congrArg Chan.fenced h : x.logic.fenced = y.logic.fenced)
theorem Chan.run_of_logic {x y : Chan} (h : x.logic = y.logic) : x.c.run = y.c.run :=
  (congrArg (fun z : Chan => z.c.run) h : x.logic.c.run = y.logic.c.run)

namespace State

/-- A channel marked as fenced by the fences of a mask, with Clearing cause FENCE. -/
def fenceMarked (s : State) (n : Fin 64) (b : BitVec 4) : State :=
  ((s.modOut n fun o => { o with fences := o.fences ||| b, rdmRun := false }).clearCause n cREADMIT).setCause n cFENCE
/-- A channel stopped by its own fence, its queue and request gone. -/
def fenceStopped (s : State) (n : Fin 64) : State :=
  (((s.halt n).modChan n fun c => { c with fenced := true, ev := c.ev.discard, o := { c.o with queue := [] } }).dropRequest
    (.chan n)).setCause n cHOLD
/-- The linked channels a channel is master of take Clearing cause LINK. -/
def slavesCleared (s : State) (n : Fin 64) : State :=
  foldFin 64 (fun m s =>
    if s.isMaster n m && s.linked m then
      (s.modOut m fun o => { o with linkBy := o.linkBy ||| oneBit 64 n.val }).setCause m cLINK
    else s) s

theorem fenceChan_eq (s : State) (n : Fin 64) (b : BitVec 4) : s.fenceChan n b =
    if (b &&& (fnChan ||| fnGrove)) == 0 || ((s.fenceMarked n b).chan n).fenced then s.fenceMarked n b
    else ((s.fenceMarked n b).fenceStopped n).slavesCleared n := rfl

variable {s t : State} {n m : Fin 64} {b : BitVec 4}

/-! ## The counter side: what a fence stops -/

theorem outputs_setCause (s : State) (n : Fin 64) (b : BitVec 11) : OnlyOutputs s (s.setCause n b) :=
  ⟨only_setCause s n b, fun m => Chan.logic_of_steady (steady_setCause s n m b)⟩
theorem outputs_fenceMarked (s : State) (n : Fin 64) (b : BitVec 4) : OnlyOutputs s (s.fenceMarked n b) :=
  ((OnlyOutputs.modOut s n _).trans (.clearCause _ n _)).trans (outputs_setCause _ n _)
theorem outputs_slavesCleared (s : State) (n : Fin 64) : OnlyOutputs s (s.slavesCleared n) :=
  .foldl (fun t m => .ite ((OnlyOutputs.modOut t m _).trans (outputs_setCause _ m _)) (.refl t)) _ s

/-- Channel m has come to t fenced and stopped, unless its counter side is as it was in s. -/
def StoppedOrSame (m : Fin 64) (s t : State) : Prop :=
  (t.chan m).logic = (s.chan m).logic ∨ ((t.chan m).fenced = true ∧ (t.chan m).c.run = false)

theorem StoppedOrSame.outputs {u : State} (h : StoppedOrSame m s t) (k : OnlyOutputs t u) : StoppedOrSame m s u :=
  h.imp (k.logic m).trans fun ⟨hf, hr⟩ =>
    ⟨(Chan.fenced_of_logic (k.logic m)).trans hf, (Chan.run_of_logic (k.logic m)).trans hr⟩
theorem StoppedOrSame.fenced (h : StoppedOrSame m s t) (hs : (s.chan m).fenced = true) : (t.chan m).fenced = true :=
  h.elim (fun h => (Chan.fenced_of_logic h).trans hs) fun h => h.1

theorem logic_dropRequest (s : State) (r : ReqSrc) (m : Fin 64) : ((s.dropRequest r).chan m).logic = (s.chan m).logic := rfl

theorem chan_halt_ne (h : m ≠ n) : (s.halt n).chan m = s.chan m := by
  unfold halt
  extract_lets t
  have ht : t.chan m = s.chan m := by unfold t; split <;> rfl
  rw [chan_modGrove, chan_modCnt, if_neg (Ne.symm h), ht]
theorem run_halt (s : State) (n : Fin 64) : ((s.halt n).chan n).c.run = false := by
  unfold halt
  extract_lets t
  rw [chan_modGrove, chan_modCnt, if_pos rfl]

theorem stopped_fenceStopped (s : State) (n m : Fin 64) : StoppedOrSame m s (s.fenceStopped n) := by
  refine StoppedOrSame.outputs ?_ (outputs_setCause _ n cHOLD)
  unfold StoppedOrSame
  by_cases h : m = n
  · refine .inr ?_
    subst h
    have hx : (((s.halt m).modChan m fun c => { c with fenced := true, ev := c.ev.discard, o := { c.o with queue := [] } }).dropRequest
        (.chan m)).chan m = { (s.halt m).chan m with
          fenced := true, ev := ((s.halt m).chan m).ev.discard, o := { ((s.halt m).chan m).o with queue := [] } } :=
      chan_modChan_self (s := s.halt m) m _
    rw [hx]
    exact ⟨rfl, run_halt s m⟩
  · refine .inl ?_
    rw [logic_dropRequest, chan_modChan, if_neg (Ne.symm h), chan_halt_ne h]
theorem fenced_fenceStopped (s : State) (n : Fin 64) : ((s.fenceStopped n).chan n).fenced = true := by
  unfold fenceStopped
  rw [Chan.fenced_of_logic ((outputs_setCause _ n cHOLD).logic n)]
  exact congrArg Chan.fenced (chan_modChan_self (s := s.halt n) n _)

theorem StoppedOrSame.trans {u : State} (h : StoppedOrSame m s t) (k : StoppedOrSame m t u) : StoppedOrSame m s u :=
  k.elim (fun k => h.imp k.trans fun ⟨hf, hr⟩ =>
    ⟨(Chan.fenced_of_logic k).trans hf, (Chan.run_of_logic k).trans hr⟩) .inr

theorem stopped_fenceChan (s : State) (n m : Fin 64) (b : BitVec 4) : StoppedOrSame m s (s.fenceChan n b) := by
  have hmark : StoppedOrSame m s (s.fenceMarked n b) := .inl ((outputs_fenceMarked s n b).logic m)
  rw [fenceChan_eq]
  split
  · exact hmark
  · exact (hmark.trans (stopped_fenceStopped _ n m)).outputs (outputs_slavesCleared _ n)

theorem fenced_fenceChan_self (hb : (b &&& (fnChan ||| fnGrove) == 0) = false) : ((s.fenceChan n b).chan n).fenced = true := by
  rw [fenceChan_eq, hb, Bool.false_or]
  split
  · assumption
  · rw [Chan.fenced_of_logic ((outputs_slavesCleared _ n).logic n), fenced_fenceStopped]

theorem fenced_fenceChan_ne (h : m ≠ n) : ((s.fenceChan n b).chan m).fenced = (s.chan m).fenced := by
  have hmark := (outputs_fenceMarked s n b).logic m
  rw [fenceChan_eq]
  split
  · exact Chan.fenced_of_logic hmark
  · have hstop : (((s.fenceMarked n b).fenceStopped n).chan m).logic = ((s.fenceMarked n b).chan m).logic := by
      rw [fenceStopped, (outputs_setCause _ n cHOLD).logic m, logic_dropRequest, chan_modChan, if_neg (Ne.symm h), chan_halt_ne h]
    exact Chan.fenced_of_logic (((outputs_slavesCleared _ n).logic m).trans (hstop.trans hmark))

end State

/-! ## The output side: Clearing with cause FENCE -/

section
open State
variable {s t : State} {n m : Fin 64} {b : BitVec 4}

theorem State.KeepsCauses.of_clr (h : ∀ m, (t.chan m).o.clr = (s.chan m).o.clr ∧ (t.chan m).o.inClr = (s.chan m).o.inClr) :
    KeepsCauses s t :=
  ⟨fun m i _ _ => congrArg (fun c : BitVec 11 => bit (c &&& ~~~cPAIR) i) (h m).1, fun m hm => (h m).2.trans hm⟩

theorem FenceClear.keeps (h : FenceClear n s) (k : KeepsCauses s t) : FenceClear n t := by
  refine ⟨?_, k.stays n h.2⟩
  rw [← Output.bit_causes _ (by decide), k.bits n 4 (by decide) (by decide), Output.bit_causes _ (by decide)]
  exact h.1

theorem FenceClear.setCause (h : FenceClear n s) (m : Fin 64) {c : BitVec 11} (hc : c &&& ~~~cPAIR = c) :
    FenceClear n (s.setCause m c) := by
  by_cases hm : n = m
  · subst hm
    refine ⟨?_, inClr_setCause s n c⟩
    rw [← Output.bit_causes _ (by decide), causes_setCause_self s n hc, bit_or, Output.bit_causes _ (by decide), h.1]
    exact Bool.true_or _
  · exact fenceClear_of_ne h (f := fun s => s.setCause m c) (causes_setCause_ne hm _) (staysClear_setCause _ m _)

theorem State.fenceClear_fenceMarked_self (s : State) (n : Fin 64) (b : BitVec 4) : FenceClear n (s.fenceMarked n b) :=
  fenceClear_setCause_self _ n
theorem FenceClear.fenceMarked (h : FenceClear n s) (m : Fin 64) (b : BitVec 4) : FenceClear n (s.fenceMarked m b) := by
  by_cases hm : n = m
  · exact hm ▸ fenceClear_fenceMarked_self s n b
  · have h1 := h.keeps (KeepsCauses.modOut s m (f := fun o => { o with fences := o.fences ||| b, rdmRun := false }) fun _ => ⟨rfl, rfl⟩)
    exact (fenceClear_of_ne h1 (f := fun s => s.clearCause m cREADMIT) (causes_clearCause_ne hm _)
      (staysClear_clearCause _ m _)).setCause m (by decide)

theorem State.clr_halt (s : State) (n m : Fin 64) : ((s.halt n).chan m).o = (s.chan m).o := by
  unfold halt
  extract_lets t
  have ht : t.chan m = s.chan m := by unfold t; split <;> rfl
  rw [chan_modGrove, chan_modCnt, ht]
  split
  · next h => rw [← ht, h]
  · rfl

theorem FenceClear.fenceStopped (h : FenceClear n s) (m : Fin 64) : FenceClear n (s.fenceStopped m) := by
  refine (h.keeps (KeepsCauses.of_clr fun k => ?_)).setCause m (by decide)
  show ((((s.halt m).modChan m _).chan k).o.clr = _ ∧ (((s.halt m).modChan m _).chan k).o.inClr = _)
  rw [chan_modChan, ← clr_halt s m k]
  split
  · next h => subst h; exact ⟨rfl, rfl⟩
  · exact ⟨rfl, rfl⟩

theorem FenceClear.slavesCleared (h : FenceClear n s) (m : Fin 64) : FenceClear n (s.slavesCleared m) := by
  refine foldl_invariant (P := FenceClear n) (fun t k ht => ?_) _ h
  dsimp only
  split
  · exact (ht.keeps (KeepsCauses.modOut t k (f := fun o => { o with linkBy := o.linkBy ||| oneBit 64 m.val }) fun _ => ⟨rfl, rfl⟩)).setCause k
      (by decide)
  · exact ht

theorem FenceClear.fenceChan (h : FenceClear n s) (m : Fin 64) (b : BitVec 4) : FenceClear n (s.fenceChan m b) := by
  rw [fenceChan_eq]
  split
  · exact h.fenceMarked m b
  · exact ((h.fenceMarked m b).fenceStopped m).slavesCleared m
theorem State.fenceClear_fenceChan_self (s : State) (n : Fin 64) (b : BitVec 4) : FenceClear n (s.fenceChan n b) := by
  have h := fenceClear_fenceMarked_self s n b
  rw [fenceChan_eq]
  split
  · exact h
  · exact (h.fenceStopped n).slavesCleared n

end

/-! ## Groves -/

/-- Channel n is fenced with its grove since s: stopped if it was not fenced before, and in Clearing. -/
structure GroveFenced (n : Fin 64) (s t : State) : Prop where
  fenced : (t.chan n).fenced = true
  stopped : (s.chan n).fenced = false → (t.chan n).c.run = false
  clear : FenceClear n t

namespace State
variable {s t : State} {n : Fin 64}

/-- A list of groves fenced in turn. -/
def fenceGroves (s : State) (gs : List (Fin 8)) : State := gs.foldl fenceGrove s

theorem stopped_fenceGrove (h : StoppedOrSame n s t) (g : Fin 8) : StoppedOrSame n s (t.fenceGrove g) :=
  foldl_invariant (P := StoppedOrSame n s) (fun u k hu => hu.trans (stopped_fenceChan u k n fnGrove)) _ h

/-- A channel is fenced and in Clearing. -/
def FencedClear (n : Fin 64) (t : State) : Prop := (t.chan n).fenced = true ∧ FenceClear n t

theorem FencedClear.fenceChan (h : FencedClear n s) (m : Fin 64) (b : BitVec 4) : FencedClear n (s.fenceChan m b) :=
  ⟨(stopped_fenceChan s m n b).fenced h.1, h.2.fenceChan m b⟩
theorem fencedClear_fenceGrove (s : State) (n : Fin 64) : FencedClear n (s.fenceGrove (groveOf n)) := by
  have hn : n ∈ groveChans (groveOf n) := by revert n; decide
  exact foldl_reaches hn (fun u => ⟨fenced_fenceChan_self (by decide), fenceClear_fenceChan_self u n fnGrove⟩)
    (fun u k hu => hu.fenceChan k fnGrove) _
theorem FencedClear.fenceGrove (h : FencedClear n s) (g : Fin 8) : FencedClear n (s.fenceGrove g) :=
  foldl_invariant (P := FencedClear n) (fun _ k hu => hu.fenceChan k fnGrove) _ ⟨h.1, h.2.keeps (.of_clr fun _ => ⟨rfl, rfl⟩)⟩

theorem groveFenced_fenceGroves (s : State) {gs : List (Fin 8)} (h : groveOf n ∈ gs) : GroveFenced n s (s.fenceGroves gs) := by
  have hall : FencedClear n (s.fenceGroves gs) :=
    foldl_reaches h (fun u => fencedClear_fenceGrove u n) (fun u k hu => hu.fenceGrove k) s
  have hstop : StoppedOrSame n s (s.fenceGroves gs) :=
    foldl_invariant (P := StoppedOrSame n s) (fun u k hu => stopped_fenceGrove hu k) gs (.inl rfl)
  refine ⟨hall.1, fun hs => ?_, hall.2⟩
  obtain hsame | ⟨_, hrun⟩ := hstop
  · have hf : ((s.fenceGroves gs).chan n).fenced = (s.chan n).fenced := Chan.fenced_of_logic hsame
    rw [hall.1, hs] at hf
    exact absurd hf (by decide)
  · exact hrun

theorem fenced_fenceGroves (s : State) {gs : List (Fin 8)} (h : groveOf n ∉ gs) :
    ((s.fenceGroves gs).chan n).fenced = (s.chan n).fenced := by
  refine foldl_keeps (p := fun s : State => (s.chan n).fenced) gs (fun u g hg => ?_) s
  refine foldl_keeps (p := fun s : State => (s.chan n).fenced) (groveChans g) (fun u k hk => fenced_fenceChan_ne fun hnk => ?_) _
  have hgk : ∀ g : Fin 8, ∀ k ∈ groveChans g, groveOf k = g := by decide
  exact h (hnk ▸ (hgk g k hk).symm ▸ hg)

end State
end Sys2Proof.Machine
end

section
/-!
# The records of the fault block (19 R700, R706, R709, Table 19.11)
-/
namespace Sys2Proof.Machine

/-! ## The ring -/

/-- The entry of the ring the next record takes. -/
def Flt.ringEntry (f : Flt) : Nat := if f.held = 0 then 0 else (f.newest.toNat + 1) % 16

theorem Flt.ringEntry_lt (f : Flt) : f.ringEntry < 16 := by unfold ringEntry; split <;> omega

/-- The record of a report, with its class and SET field. -/
def Report.record (r : Report) (tb : W48) (rtc : Word) (cls : Nat) (set : BitVec 8) : FltRec where
  w0 := lo32 tb
  w1 := packw [(r.mech.toNat, 24), (r.kind.toNat, 20), (cls, 18), (r.index.toNat, 0)]
  w2 := rtc
  w3 := packw [(set.toNat, 24), (r.detail.toNat, 0)]

theorem Report.record_w1 (r : Report) (tb : W48) (rtc : Word) {cls : Nat} (set : BitVec 8) (hc : cls ≤ 2) :
    (r.record tb rtc cls set).w1.toNat = r.mech.toNat * 2 ^ 24 + r.kind.toNat * 2 ^ 20 + cls * 2 ^ 18 + r.index.toNat := by
  have hm := r.mech.isLt
  have hk := r.kind.isLt
  have hi := r.index.isLt
  rw [record, packw_eq, packNumber_cons, packNumber_cons, packNumber_cons, packNumber_cons, packNumber_nil, BitVec.toNat_ofNat]
  omega
theorem Report.record_set (r : Report) (tb : W48) (rtc : Word) (cls : Nat) (set : BitVec 8) :
    fld (r.record tb rtc cls set).w3 31 24 = set.toNat := by
  have hs := set.isLt
  have hd := r.detail.isLt
  show (packw [(set.toNat, 24), (r.detail.toNat, 0)]).toNat / 2 ^ 24 % 2 ^ 8 = _
  rw [packw_eq, packNumber_cons, packNumber_cons, packNumber_nil, BitVec.toNat_ofNat]
  omega

/-- The FLT_FLAG bits of a record. -/
def recordBits (past : Bool) (cls : Nat) : BitVec 8 :=
  qREC ||| (if past then qLOGFULL else 0) ||| (if cls = 1 then qTRANSIENT else if cls = 2 then qLASTING else 0)

theorem bit_recordBits (past : Bool) {cls : Nat} (hc : cls ≤ 2) :
    bit (recordBits past cls) 0 = true ∧ (cls ≠ 0 → bit (recordBits past cls) cls = true) := by
  obtain rfl | rfl | rfl : cls = 0 ∨ cls = 1 ∨ cls = 2 := by omega
  all_goals cases past <;> decide

namespace State

/-- The fault block with the record of a report in its ring. -/
def fltLogged (s : State) (r : Report) (cls : Nat) (set : BitVec 8) : Flt :=
  { s.flt with
    log := vset s.flt.log (Fin.ofNat 16 s.flt.ringEntry) fun _ => r.record s.tb s.canopy.rtcSec cls set
    newest := .ofNat 4 s.flt.ringEntry
    held := min 16 (s.flt.held + 1)
    unread := satInc s.flt.unread
    unstored := true
    flag := s.flt.flag ||| recordBits (decide (16 ≤ s.flt.held) && decide (16 ≤ s.flt.unread.toNat)) cls }

/-- The fault block and its flag in place: the record, before its event. -/
def ringed (s : State) (r : Report) (cls : Nat) (set : BitVec 8) : State :=
  (s.modFlt fun _ => s.fltLogged r cls set).hwSet 0xC81C
    ((recordBits (decide (16 ≤ s.flt.held) && decide (16 ≤ s.flt.unread.toNat)) cls).setWidth 32)

theorem fltLog_eq (s : State) (r : Report) (cls : Nat) (set : BitVec 8) : ∃ w1 w2 w3, s.fltLog r cls set =
    (s.ringed r cls set).postAll 4 (s.readers 14) 0x28 true s.flt.ringEntry w1 w2 w3 := ⟨_, _, _, rfl⟩

theorem only_fltLog (s : State) (r : Report) (cls : Nat) (set : BitVec 8) : OnlyChanges [.sc, .flt] s (s.fltLog r cls set) := by
  obtain ⟨w1, w2, w3, h⟩ := fltLog_eq s r cls set
  rw [h]
  exact (((only_modFlt s _).both (only_hwSet _ _ _ _)).widen (by decide)).also (only_postAll _ _ _ _ _ _ _ _ _) (by decide)
theorem flt_fltLog (s : State) (r : Report) (cls : Nat) (set : BitVec 8) : (s.fltLog r cls set).flt = s.fltLogged r cls set := by
  obtain ⟨w1, w2, w3, h⟩ := fltLog_eq s r cls set
  rw [h]
  exact only_postAll _ _ _ _ _ _ _ _ _ .flt (by decide)
theorem told_fltLog (s : State) (r : Report) (cls : Nat) (set : BitVec 8) : (s.fltLog r cls set).Told 0 0xA8 := by
  obtain ⟨w1, w2, w3, h⟩ := fltLog_eq s r cls set
  rw [h]
  exact told_postAll _ (s.zero_mem_readers 14) (by decide)

/-- From s to q the ring and what a record takes with it are the same. -/
structure RingKept (s q : State) : Prop where
  held : q.flt.held = s.flt.held
  newest : q.flt.newest = s.flt.newest
  unread : q.flt.unread = s.flt.unread
  tb : q.tb = s.tb
  canopy : q.canopy = s.canopy

/-- A record of the given mechanism, unit, class and SET field has come into the ring that s had. -/
def FaultLogged (s t : State) (mech kind cls index set : Nat) : Prop :=
  let x := at_ t.flt.log (Fin.ofNat 16 s.flt.ringEntry)
  x.w0 = lo32 s.tb ∧ x.w2 = s.canopy.rtcSec ∧ x.w1.toNat = mech * 2 ^ 24 + kind * 2 ^ 20 + cls * 2 ^ 18 + index ∧
    fld x.w3 31 24 = set ∧ t.flt.newest.toNat = s.flt.ringEntry ∧ t.flt.unread = satInc s.flt.unread ∧
    bit t.flt.flag 0 = true ∧ t.Told 0 0xA8

/-- What a record of a class leaves in the ring, the flags and the events. -/
structure Records (s t : State) (r : Report) (cls : Nat) (set : BitVec 8) : Prop where
  logged : FaultLogged s t r.mech.toNat r.kind.toNat cls r.index.toNat set.toNat
  flag : cls ≠ 0 → bit t.flt.flag cls = true

theorem records_of_fltLogged {s q t : State} {r : Report} {cls : Nat} {set : BitVec 8} {u : Bool} (h : RingKept s q) (hc : cls ≤ 2)
    (hf : t.flt = { q.fltLogged r cls set with unstored := u }) (ht : t.Told 0 0xA8) : Records s t r cls set := by
  have he : q.flt.ringEntry = s.flt.ringEntry := by unfold Flt.ringEntry; rw [h.held, h.newest]
  have hlog : at_ t.flt.log (Fin.ofNat 16 s.flt.ringEntry) = r.record s.tb s.canopy.rtcSec cls set := by
    rw [hf, ← he, ← h.tb, ← h.canopy]
    exact at_vset_self _ _ _
  obtain ⟨hrec, hcls⟩ := bit_recordBits (decide (16 ≤ q.flt.held) && decide (16 ≤ q.flt.unread.toNat)) hc
  have hflag : ∀ i, t.flt.flag.getLsbD i = (bit q.flt.flag i || bit (recordBits
      (decide (16 ≤ q.flt.held) && decide (16 ≤ q.flt.unread.toNat)) cls) i) := fun i => by rw [hf]; exact bit_or _ _ _
  constructor
  · unfold FaultLogged
    dsimp only
    rw [hlog]
    refine ⟨rfl, rfl, r.record_w1 _ _ set hc, r.record_set _ _ _ _, ?_, ?_, ?_, ht⟩
    · rw [hf]
      show (BitVec.ofNat 4 q.flt.ringEntry).toNat = _
      rw [he, BitVec.toNat_ofNat]
      exact Nat.mod_eq_of_lt s.flt.ringEntry_lt
    · rw [hf, ← h.unread]
      rfl
    · rw [bit, hflag, hrec, Bool.or_true]
  · intro h0
    rw [bit, hflag, hcls h0, Bool.or_true]

theorem records_fltLog {s q : State} (h : RingKept s q) (r : Report) {cls : Nat} (set : BitVec 8) (hc : cls ≤ 2) :
    Records s (q.fltLog r cls set) r cls set :=
  records_of_fltLogged (u := true) h hc (flt_fltLog q r cls set) (told_fltLog q r cls set)

/-! ## The record with its storing -/

theorem logAct_brief (q : State) (r : Report) {cls : Nat} (set : BitVec 8) (hc : cls ≠ 2) (hsup : q.supStarted = true) :
    q.logAct r cls set = q.fltLog r cls set := by
  unfold logAct
  rw [if_pos hsup]
  exact if_neg fun h => hc h.1

/-- The fault log as it is stored after a lasting record. -/
def lastingStored (q : State) : State := ({ q with upd := { q.upd with lasting := true } }).storeLog

theorem logAct_lasting (q : State) (r : Report) (set : BitVec 8) (hsup : q.supStarted = true) :
    q.logAct r 2 set = (q.fltLog r 2 set).lastingStored := by
  unfold logAct
  rw [if_pos hsup]
  exact if_pos ⟨rfl, hsup⟩

theorem only_lastingStored (q : State) : OnlyChanges [.flt, .upd, .rs] q q.lastingStored :=
  .also (ps := [.flt, .upd, .rs]) (.widen (only_modUpd q fun u => { u with lasting := true }) (by decide)) (only_storeLog _) (by decide)

theorem mem_queue_rsEnqueue (q : State) (type index : Nat) (data : List Byte) :
    { type := .ofNat 8 type, index := .ofNat 8 index, data := data } ∈ (q.rsEnqueue type index data).rs.queue := by
  unfold rsEnqueue
  dsimp only [modRs]
  split
  · next h =>
    obtain ⟨x, hx, hm⟩ := List.any_eq_true.1 h
    exact List.mem_map.2 ⟨x, hx, if_pos (of_decide_eq_true hm)⟩
  · exact List.mem_append_right _ List.mem_cons_self

theorem records_lasting {s q : State} (h : RingKept s q) (r : Report) (set : BitVec 8) :
    Records s (q.fltLog r 2 set).lastingStored r 2 set := by
  have hf : (q.fltLog r 2 set).lastingStored.flt = { q.fltLogged r 2 set with unstored := false } := by
    rw [← flt_fltLog]
    rfl
  have ht : (q.fltLog r 2 set).lastingStored.Told 0 0xA8 := (told_fltLog q r 2 set).of_sc (only_lastingStored _ .sc (by decide))
  exact records_of_fltLogged h (Nat.le_refl 2) hf ht

end State
end Sys2Proof.Machine
end

section
/-!
# Charging a unit with a record (19 R706, R709)
-/
namespace Sys2Proof.Machine
namespace State
variable {s t q : State} {u : Nat} {l : List Nat}

/-! ## Units -/

theorem unitKind_unitKey (kind : Nat) {i : Nat} (h : i < 256) : unitKind (unitKey kind i) = kind := by
  unfold unitKind unitKey
  omega
theorem unitIx_unitKey (kind : Nat) {i : Nat} (h : i < 256) : unitIx (unitKey kind i) = i := by
  unfold unitIx unitKey
  omega

theorem fltUnit_modUnit (hwf : cellWf {} s.flt.units = true) (k j : Nat) (f : FltUnit → FltUnit) :
    (s.modUnit k f).fltUnit j = if j = k then f (s.fltUnit k) else s.fltUnit j := cellRead_write _ _ _ _ _ hwf
theorem cellWf_modUnit (hwf : cellWf {} s.flt.units = true) (k : Nat) (f : FltUnit → FltUnit) :
    cellWf {} (s.modUnit k f).flt.units = true := cellWf_write _ _ _ _ hwf

/-- No unit but u is listed, and u is not, or holds no unit. -/
def Unfenced (s : State) (u : Nat) : Prop := s.flt.units = [] ∨ ∃ x : FltUnit, s.flt.units = [(u, x)] ∧ x ≠ {} ∧ x.targets = []

theorem Unfenced.wf (h : s.Unfenced u) : cellWf {} s.flt.units = true := by
  obtain h | ⟨x, h, hx, _⟩ := h
  · rw [h]; rfl
  · rw [h]
    exact decide_eq_true hx
theorem Unfenced.targets (h : s.Unfenced u) : (s.fltUnit u).targets = [] := by
  unfold fltUnit
  obtain h | ⟨x, h, _, hx⟩ := h
  · rw [h]; rfl
  · rw [h, cellRead, if_pos rfl, hx]

theorem Unfenced.heldAny (h : s.Unfenced u) (t : Nat) : s.heldAny t = false := by
  unfold State.heldAny
  obtain h | ⟨x, h, _, hx⟩ := h
  · rw [h]; rfl
  · rw [h, List.any_cons, hx]; rfl

theorem Unfenced.modUnit (h : s.Unfenced u) {f : FltUnit → FltUnit} (hne : f (s.fltUnit u) ≠ {}) (ht : (f (s.fltUnit u)).targets = []) :
    (s.modUnit u f).Unfenced u := by
  refine .inr ⟨f (s.fltUnit u), ?_, hne, ht⟩
  show cellWrite {} s.flt.units u (f (s.fltUnit u)) = _
  rw [cellWrite, if_neg hne]
  obtain h | ⟨x, h, _⟩ := h
  · rw [h]; rfl
  · rw [h, cellInsert, if_neg (Nat.lt_irrefl u), if_pos rfl]

/-! ## What a charge changes of the fault block -/

/-- From s to t nothing changes but the units, the steps that wait and the links to re-admit. -/
def UnitsOnly (s t : State) : Prop :=
  ∃ us steps adm, t = s.modFlt fun f => { f with units := us, steps := steps, admMask := adm }

theorem UnitsOnly.refl (s : State) : UnitsOnly s s := ⟨s.flt.units, s.flt.steps, s.flt.admMask, rfl⟩
theorem UnitsOnly.trans (h : UnitsOnly s t) (k : UnitsOnly t q) : UnitsOnly s q := by
  obtain ⟨a, b, c, rfl⟩ := h
  obtain ⟨a', b', c', rfl⟩ := k
  exact ⟨a', b', c', rfl⟩
theorem unitsOnly_modUnit (s : State) (k : Nat) (f : FltUnit → FltUnit) : UnitsOnly s (s.modUnit k f) :=
  ⟨_, s.flt.steps, s.flt.admMask, rfl⟩
theorem UnitsOnly.only (h : UnitsOnly s t) : OnlyChanges [.flt] s t := by
  obtain ⟨a, b, c, rfl⟩ := h
  exact only_modFlt s _

/-- Units whose fence begins: since when, off their way back, out of the supervisor's steps. -/
def fencesNoted (s : State) (l : List Nat) : State :=
  let now := s.time
  let s := l.foldl (fun s t => s.modUnit t fun x =>
    { x with since := now, st := if x.st = .returning then .inService else x.st }) s
  let links := l.foldl (fun (m : BitVec 4) t => if unitKind t = 7 then m ||| oneBit 4 (unitIx t) else m) 0
  s.modFlt fun f =>
    { f with steps := f.steps.filter fun t => !l.contains t, admMask := f.admMask &&& ~~~links }

theorem unitsOnly_fencesNoted (s : State) (l : List Nat) : UnitsOnly s (s.fencesNoted l) :=
  (foldl_invariant (P := UnitsOnly s) (fun _ k h => h.trans (unitsOnly_modUnit _ k _)) l (.refl s)).trans
    ⟨_, _, _, rfl⟩

theorem st_fencesNoted (hwf : cellWf {} s.flt.units = true) (hst : (s.fltUnit u).st ≠ .returning) (l : List Nat) :
    cellWf {} (s.fencesNoted l).flt.units = true ∧ ((s.fencesNoted l).fltUnit u).st = (s.fltUnit u).st := by
  refine foldl_invariant (P := fun t : State => cellWf {} t.flt.units = true ∧ (t.fltUnit u).st = (s.fltUnit u).st)
    (fun t k ⟨hw, hu⟩ => ⟨cellWf_modUnit hw _ _, ?_⟩) l ⟨hwf, rfl⟩
  rw [fltUnit_modUnit hw]
  split
  · next h =>
    subst h
    exact (if_neg fun hr => hst (hu ▸ hr)).trans hu
  · exact hu

/-- A fence of the units of a list, charged to u. -/
def fencedFor (s : State) (u : Nat) (l : List Nat) : State :=
  ((l.foldl fenceUnit s).fencesNoted l).modUnit u fun x => { x with targets := l }

theorem applyFence_free (hnone : ∀ t, s.heldAny t = false) (u : Nat) (us sets : List Nat) :
    s.applyFence u us sets false = s.fencedFor u (us ++ sets.filter fun t => !us.contains t) := by
  have hus : us.filter (fun t => !s.heldAny t) = us := List.filter_eq_self.2 fun t _ => by rw [hnone]; rfl
  have hsets : sets.filter (fun t => !us.contains t && !s.heldAny t) = sets.filter fun t => !us.contains t :=
    List.filter_congr fun t _ => by rw [hnone, Bool.not_false, Bool.and_true]
  unfold applyFence
  rw [hus, hsets]
  rfl

theorem fencedFor_unit (hflt : (l.foldl fenceUnit s).flt = s.flt) (hwf : cellWf {} s.flt.units = true)
    (hst : (s.fltUnit u).st ≠ .returning) :
    ((s.fencedFor u l).fltUnit u).st = (s.fltUnit u).st ∧ ((s.fencedFor u l).fltUnit u).targets = l := by
  have hsame : (l.foldl fenceUnit s).fltUnit u = s.fltUnit u :=
    congrArg (fun f : Flt => cellRead ({} : FltUnit) f.units u) hflt
  obtain ⟨hw, hs⟩ := st_fencesNoted (u := u) (s := l.foldl fenceUnit s) (hflt ▸ hwf) (hsame ▸ hst) l
  unfold fencedFor
  rw [fltUnit_modUnit hw, if_pos rfl]
  exact ⟨hs.trans (congrArg FltUnit.st hsame), rfl⟩

theorem unitsOnly_fencedFor (s : State) (u : Nat) (l : List Nat) : UnitsOnly (l.foldl fenceUnit s) (s.fencedFor u l) :=
  (unitsOnly_fencesNoted _ l).trans (unitsOnly_modUnit _ u _)

/-! ## The charge -/

/-- A unit with one record more. -/
def unitCharged (mech : BitVec 8) (now cls : Nat) (x : FltUnit) : FltUnit :=
  { x with mech := mech, last := now, times := (now :: x.times).take 15, st := if cls = 2 then .lasting else .transient }

theorem st_unitCharged (mech : BitVec 8) (now : Nat) (x : FltUnit) (cls : Nat) :
    (unitCharged mech now cls x).st = if cls = 2 then .lasting else .transient := rfl
theorem unitCharged_ne (mech : BitVec 8) (now : Nat) (x : FltUnit) (cls : Nat) : unitCharged mech now cls x ≠ {} := by
  intro h
  have hst := st_unitCharged mech now x cls
  rw [h] at hst
  split at hst <;> exact nomatch hst

variable {r : Report} {act : FltAct} {cls : Nat}

/-- The record at its unit, before any fence. -/
def charged (s : State) (r : Report) (u cls : Nat) : State := s.modUnit u (unitCharged r.mech s.time cls)

theorem Unfenced.charged (h : s.Unfenced u) (r : Report) (cls : Nat) : (s.charged r u cls).Unfenced u :=
  h.modUnit (unitCharged_ne _ _ _ _) h.targets

/-- The units fenced by an action, with those of the groves its sets reach. -/
def fencedWith (s : State) (u : Nat) (act : FltAct) : List Nat :=
  act.units ++ (groveUnits (s.setOf u act)).filter fun t => !act.units.contains t

theorem chargeUnit_fresh (hu : s.Unfenced u) (hh : s.unitHeld u = false) (hown : act.isOwn = false) :
    s.chargeUnit r u cls act = (s.charged r u cls).fencedFor u (s.fencedWith u act) := by
  rw [fencedWith, ← applyFence_free (hu.charged r cls).heldAny]
  unfold chargeUnit
  rw [hh, hown]
  rfl

/-- What a charge that fences the given units leaves of the unit that takes it. -/
theorem chargeUnit_unit (hu : s.Unfenced u) (hh : s.unitHeld u = false) (hown : act.isOwn = false)
    (hflt : ((s.fencedWith u act).foldl fenceUnit (s.charged r u cls)).flt = (s.charged r u cls).flt) :
    ((s.chargeUnit r u cls act).fltUnit u).st = (if cls = 2 then .lasting else .transient) ∧
      ((s.chargeUnit r u cls act).fltUnit u).targets = s.fencedWith u act := by
  have hst : ((s.charged r u cls).fltUnit u).st = if cls = 2 then .lasting else .transient := by
    unfold charged
    rw [fltUnit_modUnit hu.wf, if_pos rfl]
    rfl
  rw [chargeUnit_fresh hu hh hown]
  obtain ⟨h1, h2⟩ := fencedFor_unit hflt (hu.charged r cls).wf (by rw [hst]; split <;> exact nofun)
  exact ⟨h1.trans hst, h2⟩

/-! ## One report -/

/-- The unit of a report, noted as having a record in this cycle. -/
def recordNoted (s : State) (r : Report) : State :=
  s.modCyc fun y => { y with recorded := unitKey r.kind.toNat r.index.toNat :: y.recorded }

theorem recordAct_report (s : State) (r : Report) : s.recordAct r .report = (s.recordNoted r).fltLog r 0 0 := rfl
theorem recordAct_acts (hact : act ≠ .report) (hu : unitKey r.kind.toNat r.index.toNat = u) (hc : (s.recordNoted r).fltClass r u = cls) :
    s.recordAct r act =
      (((s.recordNoted r).chargeUnit r u cls act).actBeside u cls act).logAct r cls ((s.recordNoted r).setField u act) := by
  subst hu hc
  cases act with
  | report => exact absurd rfl hact
  | restart => rfl
  | census => rfl
  | own us => rfl
  | fence us => rfl

/-- Does the record before the last N − 1 lie within WIN of now? -/
def withinWin (s : State) : Option Nat → Bool
  | some t => decide (s.time - t ≤ s.flt.win.toNat * 200000)
  | none => false

theorem fltClass_plain (h17 : r.mech ≠ 0x17) (h23 : r.mech ≠ 0x23) : s.fltClass r u =
    if s.withinWin ((s.fltUnit u).times[s.flt.n.toNat - 2]?) then 2 else 1 := by
  unfold fltClass
  simp only [h17, h23, if_false]
  generalize (s.fltUnit u).times[s.flt.n.toNat - 2]? = x
  cases x <;> rfl
theorem fltClass_first (h17 : r.mech ≠ 0x17) (h23 : r.mech ≠ 0x23) (h : s.fltUnit u = {}) : s.fltClass r u = 1 := by
  rw [fltClass_plain h17 h23, h]
  rfl
theorem fltClass_nth (h17 : r.mech ≠ 0x17) (h23 : r.mech ≠ 0x23) {x : Nat} (hx : (s.fltUnit u).times[s.flt.n.toNat - 2]? = some x)
    (hwin : s.time - x ≤ s.flt.win.toNat * 200000) : s.fltClass r u = 2 := by
  rw [fltClass_plain h17 h23, hx]
  exact if_pos (decide_eq_true hwin)

theorem fltUnit_empty (h : s.flt.units = []) (u : Nat) : s.fltUnit u = {} := by
  unfold fltUnit
  rw [h]
  rfl
theorem fltUnit_alone {x : FltUnit} (h : s.flt.units = [(u, x)]) : s.fltUnit u = x := by
  unfold fltUnit
  rw [h, cellRead, if_pos rfl]
theorem unitHeld_inService (h : (s.fltUnit u).st = .inService) : s.unitHeld u = false := by
  unfold unitHeld
  rw [h]
  rfl

/-! ## SET -/

theorem bit_groveUnits_fold (m : BitVec 8) : (groveUnits m).foldl (fun (a : BitVec 8) g => a ||| oneBit 8 (unitIx g)) 0 = m := by
  refine BitVec.eq_of_getLsbD_eq fun i hi => ?_
  have h := bit_foldl_oneBit (fun g : Fin 8 => bit m g.val) (List.finRange 8) (0 : BitVec 8) ⟨i, hi⟩
  have heq : (groveUnits m).foldl (fun (a : BitVec 8) g => a ||| oneBit 8 (unitIx g)) 0 =
      (List.finRange 8).foldl (fun b i => if bit m i.val then b ||| oneBit 8 i.val else b) 0 := by
    unfold groveUnits
    rw [List.foldl_map, show List.range 8 = (List.finRange 8).map Fin.val from rfl, List.filter_map, List.foldl_map, List.foldl_filter]
    refine List.foldl_ext _ _ _ fun a g _ => ?_
    have hg : unitIx (unitKey 2 g.val) = g.val := unitIx_unitKey 2 (by omega)
    rw [hg]
    rfl
  rw [heq]
  refine h.trans ?_
  simp [bit]

theorem setField_fresh (hnone : ∀ t, s.heldAny t = false) : s.setField u act = s.setOf u act := by
  unfold setField
  rw [List.filter_eq_self.2 fun t _ => by rw [hnone]; rfl, bit_groveUnits_fold]

theorem setOf_unheld (hh : s.unitHeld u = false) (hown : act.isOwn = false) : s.setOf u act = s.setGroves act.units := by
  unfold setOf
  rw [hh, hown]
  rfl

end State
end Sys2Proof.Machine
end

section
/-!
# What FLT does for a report (19 R700–R704, Table 19.1)
-/
namespace Sys2Proof.Machine

/-! ## Records in the window of an update -/

namespace State

/-- The state in which a record is taken: no lasting record noted yet. -/
def unlasted (s : State) : State := s.modUpd fun u => { u with lasting := false }

theorem watchLasting_quiet {s t : State} {f : State → State} (hf : f s.unlasted = t) (hupd : t.upd = s.unlasted.upd) :
    watchLasting s f = t.modUpd fun _ => s.upd := by
  have hnow : t.upd.lasting = false := congrArg Upd.lasting hupd
  have hback : (t.modUpd fun u => { u with lasting := s.upd.lasting || t.upd.lasting }) = t.modUpd fun _ => s.upd := by
    show ({ t with upd := { t.upd with lasting := s.upd.lasting || t.upd.lasting } } : State) = { t with upd := s.upd }
    rw [hnow, hupd, Bool.or_false]
    rfl
  subst hf
  unfold watchLasting
  dsimp only
  refine Eq.trans (if_neg ?_) hback
  show ¬((f s.unlasted).upd.lasting && _ && _) = true
  rw [hnow]
  exact Bool.false_ne_true

theorem watchLasting_lasting {s t : State} {f : State → State} (hf : f s.unlasted = t) (hw : t.upd.window = false) :
    watchLasting s f = t.modUpd fun u => { u with lasting := s.upd.lasting || u.lasting } := by
  subst hf
  unfold watchLasting
  dsimp only
  refine if_neg ?_
  show ¬(_ && (f s.unlasted).upd.window && _) = true
  rw [hw, Bool.and_false, Bool.false_and]
  exact Bool.false_ne_true

theorem only_restored {s t : State} {ps : List Part} (ho : OnlyChanges ps s.unlasted t) : OnlyChanges ps s (t.modUpd fun _ => s.upd) := by
  intro p hp
  have h := ho p hp
  cases p with
  | upd => rfl
  | _ => exact h

end State

section
variable {i : Instr} {s t : State} {f : State → State} {ps : List Part} {P : State → Prop}

theorem exec_watched (hc : exec i s = .next (s.whenUp s.pwr.pd1Up fun s => State.watchLasting s f)) (hup : s.pwr.pd1Up = true)
    (hf : f s.unlasted = t) (ho : OnlyChanges ps s.unlasted t) (hnu : Part.upd ∉ ps) :
    exec i s = .next (t.modUpd fun _ => s.upd) := by
  rw [hc, ← State.watchLasting_quiet hf (ho .upd hnu)]
  exact congrArg Host.Outcome.next (if_pos hup)

theorem completes_watched (hc : exec i s = .next (s.whenUp s.pwr.pd1Up fun s => State.watchLasting s f)) (hup : s.pwr.pd1Up = true)
    (hf : f s.unlasted = t) (ho : OnlyChanges ps s.unlasted t) (hnu : Part.upd ∉ ps) (hP : P (t.modUpd fun _ => s.upd)) :
    Completes i s ps P :=
  ⟨_, exec_watched hc hup hf ho hnu, hP, State.only_restored ho⟩

end

namespace State
variable {s t q : State} {u : Nat} {r : Report} {b : Fin 8} {n : Fin 64}

theorem supStarted_up (h : s.supStarted = true) : s.pwr.pd1Up = true := by
  unfold supStarted at h
  exact (Bool.and_eq_true_iff.1 h).1
theorem supStarted_of (hp : t.pwr = s.pwr) (hb : t.boot = s.boot) : t.supStarted = s.supStarted := by
  unfold supStarted
  rw [hp, hb]

theorem RingKept.trans (h : RingKept s t) (k : RingKept t q) : RingKept s q :=
  ⟨k.held.trans h.held, k.newest.trans h.newest, k.unread.trans h.unread, k.tb.trans h.tb, k.canopy.trans h.canopy⟩
theorem UnitsOnly.ring (h : UnitsOnly s t) : RingKept s t := by
  obtain ⟨a, b, c, rfl⟩ := h
  exact ⟨rfl, rfl, rfl, rfl, rfl⟩
theorem RingKept.of_only {ps : List Part} (h : OnlyChanges ps s t) (hf : Part.flt ∉ ps) (ht : Part.tbs ∉ ps) (hc : Part.canopy ∉ ps) :
    RingKept s t := by
  have hflt : t.flt = s.flt := h .flt hf
  have htbs : t.tbs = s.tbs := h .tbs ht
  exact ⟨by rw [hflt], by rw [hflt], by rw [hflt], by unfold State.tb; rw [htbs], h .canopy hc⟩

/-! ## The report taken -/

theorem fltRecord_none (h : ∀ x ∈ s.reports, s.time ≤ x.at_) : s.fltRecord none = s := by
  have hfilter : s.reports.filter (fun r => decide (r.at_ < s.time)) = [] :=
    List.filter_eq_nil_iff.2 fun x hx => by simpa using h x hx
  unfold fltRecord nextReport
  rw [hfilter]
  rfl
/-- The reports are empty. -/
def reportless (s : State) : State := { s with reports := [] }

theorem fltRecord_one (h : s.reports = [r]) (ht : r.at_ < s.time) : s.fltRecord none = s.reportless.recordReport r := by
  have hone : s.nextReport = some r := by
    unfold nextReport
    rw [h, show [r].filter (fun x => decide (x.at_ < s.time)) = [r] by simp [ht]]
    rfl
  have hrem : removeFirst (fun x => decide (x = r)) s.reports = [] := by
    rw [h, removeFirst]
    exact if_pos (decide_eq_true rfl)
  simp only [fltRecord, hone, hrem]
  rfl

/-! ## Banks -/

theorem fenceUnit_bank (s : State) (b : Fin 8) : s.fenceUnit (unitKey 8 b.val) = s.fenceBank b := by
  have hb : Fin.ofNat 8 b.val = b := Fin.ext (Nat.mod_eq_of_lt b.isLt)
  unfold fenceUnit
  rw [unitKind_unitKey 8 (by omega), unitIx_unitKey 8 (by omega)]
  exact congrArg s.fenceBank hb

theorem bank_fenceBank (s : State) (b : Fin 8) : ((s.fenceBank b).bank b).st = .fenced ∧ ∀ c, c ≠ b → (s.fenceBank b).bank c = s.bank c := by
  refine ⟨?_, fun c hc => ?_⟩
  · exact congrArg Bank.st (at_vset_self (s.testAbandon b).mem.banks b _)
  · exact (at_vset_ne (s.testAbandon b).mem.banks _ (Ne.symm hc)).trans (at_vset_ne s.mem.banks _ (Ne.symm hc))

theorem setGroves_bank (s : State) (b : Fin 8) : s.setGroves [unitKey 8 b.val] = 0 := by
  have hkind := unitKind_unitKey 8 (i := b.val) (by omega)
  simp [setGroves, hkind]

theorem groveUnits_zero : groveUnits 0 = [] := by decide

/-- A record of a bank's own has come to q: what its charge leaves. -/
structure BankCharged (s q : State) (b : Fin 8) (cls : Nat) : Prop where
  frame : OnlyChanges [.mem, .flt] s q
  ring : RingKept s q
  bank : (q.bank b).st = .fenced
  others : ∀ c, c ≠ b → q.bank c = s.bank c
  st : (q.fltUnit (unitKey 8 b.val)).st = if cls = 2 then .lasting else .transient
  targets : (q.fltUnit (unitKey 8 b.val)).targets = [unitKey 8 b.val]

theorem bankCharged_chargeUnit (hu : s.Unfenced (unitKey 8 b.val)) (hh : s.unitHeld (unitKey 8 b.val) = false) (r : Report) (cls : Nat) :
    BankCharged s (s.chargeUnit r (unitKey 8 b.val) cls (.fence [unitKey 8 b.val])) b cls := by
  have hset : s.setOf (unitKey 8 b.val) (.fence [unitKey 8 b.val]) = 0 := (setOf_unheld hh rfl).trans (setGroves_bank s b)
  have hwith : s.fencedWith (unitKey 8 b.val) (.fence [unitKey 8 b.val]) = [unitKey 8 b.val] := by
    unfold fencedWith
    rw [hset, groveUnits_zero]
    rfl
  have hfold : ∀ t : State, [unitKey 8 b.val].foldl fenceUnit t = t.fenceBank b := fun t => fenceUnit_bank t b
  obtain ⟨hst, htg⟩ := chargeUnit_unit (r := r) (cls := cls) hu hh rfl (by rw [hwith, hfold]; rfl)
  have heq := chargeUnit_fresh (r := r) (cls := cls) hu hh (act := .fence [unitKey 8 b.val]) rfl
  rw [hwith] at heq htg
  have hch : UnitsOnly s (s.charged r (unitKey 8 b.val) cls) := unitsOnly_modUnit s _ _
  have hfor := unitsOnly_fencedFor (s.charged r (unitKey 8 b.val) cls) (unitKey 8 b.val) [unitKey 8 b.val]
  rw [hfold] at hfor
  have hfence := only_fenceBank (s.charged r (unitKey 8 b.val) cls) b
  obtain ⟨hbank, hother⟩ := bank_fenceBank (s.charged r (unitKey 8 b.val) cls) b
  have hmem : (s.chargeUnit r (unitKey 8 b.val) cls (.fence [unitKey 8 b.val])).mem =
      ((s.charged r (unitKey 8 b.val) cls).fenceBank b).mem := by rw [heq]; exact hfor.only .mem (by decide)
  have hbanks : ∀ c, (s.chargeUnit r (unitKey 8 b.val) cls (.fence [unitKey 8 b.val])).bank c =
      ((s.charged r (unitKey 8 b.val) cls).fenceBank b).bank c := fun c => congrArg (fun m : Mem => at_ m.banks c) hmem
  refine ⟨?_, ?_, (congrArg Bank.st (hbanks b)).trans hbank, fun c hc => (hbanks c).trans (hother c hc), hst, htg⟩
  · rw [heq]
    exact ((hch.only.widen (by decide)).also hfence (by decide)).also hfor.only (by decide)
  · rw [heq]
    exact (hch.ring.trans (.of_only hfence (by decide) (by decide) (by decide))).trans hfor.ring

theorem unfenced_first (h : s.flt.units = []) (u : Nat) : s.Unfenced u := .inl h

theorem fltAction_bank (s : State) (hm : r.mech = 0x0A) (hi : r.index.toNat = b.val) : s.fltAction r = .fence [unitKey 8 b.val] := by
  unfold fltAction
  rw [hm, hi]
  rfl

/-- A bank's record as FLT takes it, before it is logged. -/
def bankTaken (s : State) (r : Report) (b : Fin 8) (cls : Nat) : State :=
  (s.recordNoted r).chargeUnit r (unitKey 8 b.val) cls (.fence [unitKey 8 b.val])

theorem bankCharged_bankTaken (hu : s.Unfenced (unitKey 8 b.val)) (hh : s.unitHeld (unitKey 8 b.val) = false) (r : Report) (cls : Nat) :
    BankCharged s (s.bankTaken r b cls) b cls := by
  obtain ⟨h1, h2, h3, h4, h5, h6⟩ := bankCharged_chargeUnit (s := s.recordNoted r) hu hh r cls
  exact ⟨(only_modCyc s _ [.mem, .flt]).both h1, .trans (.of_only (only_modCyc s _ []) (by decide) (by decide) (by decide)) h2, h3, h4, h5, h6⟩

theorem recordReport_bank {cls : Nat} (hm : r.mech = 0x0A) (hk : r.kind = 8) (hi : r.index.toNat = b.val)
    (hu : s.Unfenced (unitKey 8 b.val)) (hh : s.unitHeld (unitKey 8 b.val) = false) (hc : s.fltClass r (unitKey 8 b.val) = cls) :
    s.recordReport r = (s.bankTaken r b cls).logAct r cls 0 := by
  have hkey : unitKey r.kind.toNat r.index.toNat = unitKey 8 b.val := by rw [hk, hi]; rfl
  have hset : (s.recordNoted r).setField (unitKey 8 b.val) (.fence [unitKey 8 b.val]) = 0 := by
    have hu' : (s.recordNoted r).Unfenced (unitKey 8 b.val) := hu
    rw [setField_fresh hu'.heldAny]
    exact (setOf_unheld (s := s.recordNoted r) hh rfl).trans (setGroves_bank _ b)
  unfold recordReport
  rw [fltAction_bank s hm hi, recordAct_acts (s := s) (act := .fence [unitKey 8 b.val]) nofun hkey (cls := cls) hc, hset]
  rfl

end State
end Sys2Proof.Machine
end

section
/-!
# Records of a grove, the supervisor and the census (19 R701–R706)
-/
namespace Sys2Proof.Machine
namespace State
variable {s t q : State} {u : Nat} {r : Report} {g : Fin 8} {n : Fin 64}

/-! ## Groves -/

theorem mem_groveUnits {m : BitVec 8} {k : Nat} : k ∈ groveUnits m ↔ ∃ g : Fin 8, bit m g.val = true ∧ k = unitKey 2 g.val := by
  unfold groveUnits
  rw [List.mem_map]
  constructor
  · rintro ⟨i, hi, rfl⟩
    obtain ⟨hr, hb⟩ := List.mem_filter.1 hi
    exact ⟨⟨i, List.mem_range.1 hr⟩, hb, rfl⟩
  · rintro ⟨g, hb, rfl⟩
    exact ⟨g.val, List.mem_filter.2 ⟨List.mem_range.2 g.isLt, hb⟩, rfl⟩

/-- The grove of a unit number. -/
def unitGrove (u : Nat) : Fin 8 := Fin.ofNat 8 (unitIx u)

theorem unitGrove_unitKey (g : Fin 8) : unitGrove (unitKey 2 g.val) = g := by
  unfold unitGrove
  rw [unitIx_unitKey 2 (by omega)]
  exact Fin.ext (Nat.mod_eq_of_lt g.isLt)

theorem fenceUnit_grove (s : State) (g : Fin 8) : s.fenceUnit (unitKey 2 g.val) = s.fenceGrove (unitGrove (unitKey 2 g.val)) := by
  unfold fenceUnit
  rw [unitKind_unitKey 2 (by omega)]
  rfl

theorem foldl_fenceUnit_groves {l : List Nat} (hl : ∀ k ∈ l, ∃ g : Fin 8, k = unitKey 2 g.val) :
    ∀ s : State, l.foldl fenceUnit s = s.fenceGroves (l.map unitGrove) := by
  induction l with
  | nil => exact fun _ => rfl
  | cons k l ih =>
    intro s
    obtain ⟨g, rfl⟩ := hl k List.mem_cons_self
    rw [List.foldl_cons, fenceUnit_grove, ih fun k hk => hl k (List.mem_cons_of_mem _ hk), List.map_cons, fenceGroves, fenceGroves,
      List.foldl_cons]

/-- The groves that a record of a grove reaches through the fence sets. -/
def reachedBy (f : Flt) (g : Fin 8) : BitVec 8 :=
  (if bit f.set0 g.val then f.set0 else 0) ||| (if bit f.set1 g.val then f.set1 else 0)

theorem setGroves_grove (s : State) (g : Fin 8) : s.setGroves [unitKey 2 g.val] = reachedBy s.flt g := by
  simp [setGroves, reachedBy, unitKind_unitKey 2 (show g.val < 256 by omega), unitIx_unitKey 2 (show g.val < 256 by omega)]

/-- The units fenced by a record of a grove. -/
theorem fencedWith_grove (hh : s.unitHeld (unitKey 2 g.val) = false) {k : Nat} :
    k ∈ s.fencedWith (unitKey 2 g.val) (.fence [unitKey 2 g.val]) ↔
      ∃ j : Fin 8, (j = g ∨ bit (reachedBy s.flt g) j.val = true) ∧ k = unitKey 2 j.val := by
  have hinj : ∀ i j : Fin 8, unitKey 2 i.val = unitKey 2 j.val → i = j := fun i j h => by
    rw [← unitGrove_unitKey i, h, unitGrove_unitKey]
  have hset : s.setGroves (FltAct.fence [unitKey 2 g.val]).units = reachedBy s.flt g := setGroves_grove s g
  rw [fencedWith, setOf_unheld hh rfl, hset, List.mem_append, List.mem_filter, mem_groveUnits]
  show k ∈ [unitKey 2 g.val] ∨ _ ↔ _
  rw [List.mem_singleton]
  constructor
  · rintro (rfl | ⟨⟨j, hj, rfl⟩, -⟩)
    · exact ⟨g, .inl rfl, rfl⟩
    · exact ⟨j, .inr hj, rfl⟩
  · rintro ⟨j, hj, rfl⟩
    by_cases hjg : j = g
    · exact .inl (hjg ▸ rfl)
    · refine .inr ⟨⟨j, hj.resolve_left hjg, rfl⟩, ?_⟩
      show (!List.contains [unitKey 2 g.val] (unitKey 2 j.val)) = true
      simpa using fun h => hjg (hinj _ _ h)

theorem only_fenceGroves (s : State) (gs : List (Fin 8)) : OnlyChanges [.chans, .groves, .tt] s (s.fenceGroves gs) :=
  .foldl (fun t g => only_fenceGrove t g) gs s

/-- A record of a grove has come to q: what its charge leaves of a channel. -/
structure GroveCharged (s q : State) (g : Fin 8) (n : Fin 64) : Prop where
  frame : OnlyChanges [.chans, .groves, .tt, .flt] s q
  ring : RingKept s q
  fenced : groveOf n = g ∨ bit (reachedBy s.flt g) (groveOf n).val = true → GroveFenced n s q
  others : groveOf n ≠ g → bit (reachedBy s.flt g) (groveOf n).val = false → (q.chan n).fenced = (s.chan n).fenced

theorem groveCharged_chargeUnit (hu : s.Unfenced (unitKey 2 g.val)) (hh : s.unitHeld (unitKey 2 g.val) = false) (r : Report)
    (cls : Nat) (n : Fin 64) : GroveCharged s (s.chargeUnit r (unitKey 2 g.val) cls (.fence [unitKey 2 g.val])) g n := by
  have hch : UnitsOnly s (s.charged r (unitKey 2 g.val) cls) := unitsOnly_modUnit s _ _
  rw [chargeUnit_fresh hu hh rfl]
  generalize hl : s.fencedWith (unitKey 2 g.val) (.fence [unitKey 2 g.val]) = l
  have hmem : ∀ {k}, k ∈ l ↔ ∃ j : Fin 8, (j = g ∨ bit (reachedBy s.flt g) j.val = true) ∧ k = unitKey 2 j.val :=
    hl ▸ fencedWith_grove hh
  have hfor := unitsOnly_fencedFor (s.charged r (unitKey 2 g.val) cls) (unitKey 2 g.val) l
  rw [foldl_fenceUnit_groves fun k hk => (hmem.1 hk).imp fun j hj => hj.2] at hfor
  have hfence := only_fenceGroves (s.charged r (unitKey 2 g.val) cls) (l.map unitGrove)
  have hin : groveOf n ∈ l.map unitGrove ↔ (groveOf n = g ∨ bit (reachedBy s.flt g) (groveOf n).val = true) := by
    rw [List.mem_map]
    constructor
    · rintro ⟨k, hk, hkn⟩
      obtain ⟨j, hj, rfl⟩ := hmem.1 hk
      rw [unitGrove_unitKey] at hkn
      exact hkn ▸ hj
    · exact fun h => ⟨_, hmem.2 ⟨groveOf n, h, rfl⟩, unitGrove_unitKey _⟩
  have hchan : ((s.charged r (unitKey 2 g.val) cls).fencedFor (unitKey 2 g.val) l).chan n =
      ((s.charged r (unitKey 2 g.val) cls).fenceGroves (l.map unitGrove)).chan n := hfor.only.chan (by decide) n
  refine ⟨((hch.only.widen (by decide)).also hfence (by decide)).also hfor.only (by decide),
    (hch.ring.trans (.of_only hfence (by decide) (by decide) (by decide))).trans hfor.ring, fun h => ?_, fun h1 h2 => ?_⟩
  · obtain ⟨h1, h2, h3⟩ := groveFenced_fenceGroves (s.charged r (unitKey 2 g.val) cls) (hin.2 h)
    rw [FenceClear, ← hchan] at h3
    rw [← hchan] at h1 h2
    exact ⟨h1, h2, h3⟩
  · rw [hchan]
    exact fenced_fenceGroves _ fun hmemg => (hin.1 hmemg).elim h1 (by rw [h2]; exact Bool.false_ne_true)

/-! ## Records that fence nothing themselves -/

theorem setGroves_none (s : State) : s.setGroves [] = 0 := by simp [setGroves]

theorem fencedWith_none {act : FltAct} (hh : s.unitHeld u = false) (hown : act.isOwn = false) (ha : act.units = []) :
    s.fencedWith u act = [] := by
  rw [fencedWith, setOf_unheld hh hown, ha, setGroves_none, groveUnits_zero]
  rfl

/-- The charge of a record without units to fence touches the fault block's units alone. -/
theorem chargeUnit_none {act : FltAct} {cls : Nat} (hu : s.Unfenced u) (hh : s.unitHeld u = false) (hown : act.isOwn = false)
    (ha : act.units = []) : UnitsOnly s (s.chargeUnit r u cls act) ∧ (s.chargeUnit r u cls act).Unfenced u := by
  rw [chargeUnit_fresh hu hh hown, fencedWith_none hh hown ha]
  have hc : (s.charged r u cls).Unfenced u := hu.charged r cls
  have hst : ((s.charged r u cls).fltUnit u).st = if cls = 2 then .lasting else .transient := by
    unfold charged
    rw [fltUnit_modUnit hu.wf, if_pos rfl]
    rfl
  have hn : ((s.charged r u cls).fencesNoted []).Unfenced u := hc
  refine ⟨(unitsOnly_modUnit s _ _).trans (unitsOnly_fencedFor _ u []), hn.modUnit (f := fun x => { x with targets := [] }) ?_ rfl⟩
  intro h
  have := congrArg FltUnit.st h
  rw [show FltUnit.st { ((s.charged r u cls).fencesNoted []).fltUnit u with targets := [] } = _ from hst] at this
  split at this <;> exact nomatch this

/-! ## The supervisor's reset -/

/-- The supervisor goes into reset: no operation of the record store is in progress. -/
def supStopped (s : State) : State :=
  (s.modFlt fun f => { f with supReset := true, supAt := s.time }).modRs fun r => { r with op := false }

theorem actBeside_restart (s : State) (u : Nat) {cls : Nat} (hc : cls ≠ 2) : s.actBeside u cls .restart = s.supStopped := if_neg hc
theorem only_supStopped (s : State) : OnlyChanges [.flt, .rs] s s.supStopped := (only_modFlt s _).trans (only_modRs _ _)

/-! ## The census -/

/-- The device in CENSUS. -/
def inCensus (s : State) : State := (s.modFlt fun f => { f with st := .census }).fltFlag qCENSUS

theorem only_inCensus (s : State) : OnlyChanges [.flt] s s.inCensus := (only_modFlt _ _).both (only_fltFlag _ _)
theorem flt_inCensus (s : State) : s.inCensus.flt = { s.flt with st := .census, flag := s.flt.flag ||| qCENSUS } := rfl
theorem ring_inCensus (s : State) : RingKept s s.inCensus := ⟨rfl, rfl, rfl, rfl, rfl⟩

/-- The device in CENSUS, charged to u, with the microengine fenced. -/
def censusTaken (s : State) (u : Nat) : State := (s.fencedFor u [unitKey 4 0]).inCensus

theorem census_free (hnone : ∀ t, s.heldAny t = false) : s.census = s.censusTaken (unitKey 0 0) := by
  unfold census
  dsimp only
  rw [applyFence_free hnone, List.filter_nil, List.append_nil]
  rfl

theorem fenceUnit_me (s : State) : [unitKey 4 0].foldl fenceUnit s = s.meFence 5 := by
  rw [List.foldl_cons, List.foldl_nil, fenceUnit, unitKind_unitKey 4 (by decide)]
  rfl

theorem meFence_census (hst : s.me.st ≠ .fenced) : s.meFence 5 = s.fencedQuiet 5 := by
  unfold meFence
  rw [if_neg hst]
  rfl

theorem me_fencedQuiet (s : State) (cause : Nat) : (s.fencedQuiet cause).me = s.meFenced cause :=
  (me_foldFin (fun n t => only_fenceChan t n fnMe) (by decide) _).trans (only_bulkCancel _ xMEFENCE .me (by decide))
theorem inClr_fencedQuiet (s : State) (cause : Nat) (n : Fin 64) : ((s.fencedQuiet cause).chan n).o.inClr = true :=
  have h : FenceClear n (s.fencedQuiet cause) := by
    unfold fencedQuiet foldFin
    generalize ((s.modMe fun _ => s.meFenced cause).modMem _).bulkCancel xMEFENCE = b
    exact foldl_reaches (Q := FenceClear n) (f := fun t n => t.fenceChan n fnMe) (List.mem_finRange n)
      (fun t => fenceClear_fenceChan_self t n fnMe) (fun _ m h => h.fenceChan m fnMe) b
  h.2

/-- What the census leaves. -/
structure CensusLeft (s t : State) (n : Fin 64) : Prop where
  frame : OnlyChanges [.chans, .groves, .ads, .tt, .me, .ps, .afe, .sc, .mem, .tsi, .reports, .flt] s t
  ring : RingKept s t
  st : t.flt.st = .census
  flag : bit t.flt.flag 5 = true
  me : t.me.st = .fenced ∧ t.me.fcause = 5
  clear : (t.chan n).o.inClr = true

theorem censusLeft_censusTaken (hst : s.me.st ≠ .fenced) (u : Nat) (n : Fin 64) : CensusLeft s (s.censusTaken u) n := by
  have hfor := unitsOnly_fencedFor s u [unitKey 4 0]
  rw [fenceUnit_me] at hfor
  have hfence := only_meFence s 5
  have hrest := only_inCensus (s.fencedFor u [unitKey 4 0])
  have hflt := flt_inCensus (s.fencedFor u [unitKey 4 0])
  have hring := (RingKept.of_only hfence (by decide) (by decide) (by decide)).trans (hfor.ring.trans (ring_inCensus _))
  have hquiet := meFence_census hst
  unfold censusTaken
  generalize (s.fencedFor u [unitKey 4 0]).inCensus = t at hrest hflt hring
  generalize s.fencedFor u [unitKey 4 0] = q at hfor hrest hflt
  have hme : t.me = (s.fencedQuiet 5).me := by rw [hrest .me (by decide), hfor.only .me (by decide), hquiet]
  refine ⟨((hfence.widen (by decide)).also hfor.only (by decide)).also hrest (by decide), hring, ?_, ?_, ?_, ?_⟩
  · rw [hflt]
  · rw [hflt]
    show bit (_ ||| qCENSUS) 5 = true
    rw [bit_or, show bit qCENSUS 5 = true by decide, Bool.or_true]
  · rw [hme, me_fencedQuiet]
    exact ⟨rfl, rfl⟩
  · rw [hrest.chan (by decide), hfor.only.chan (by decide), hquiet]
    exact inClr_fencedQuiet s 5 n

end State
end Sys2Proof.Machine
end

section
/-!
# Lifts, the supervisor's restart and Roll Call (19 R701, R703, R710–R712)
-/
namespace Sys2Proof.Machine

theorem namedUnit_iff (kind : Fin 16) (index : Fin 256) : namedUnit kind.val index.val = true ↔
    (kind = 1 ∧ index.val < 64) ∨ ((kind = 2 ∨ kind = 5 ∨ kind = 8) ∧ index.val < 8) ∨ (kind = 3 ∧ index.val < 3) ∨
    (kind = 4 ∧ index = 0) ∨ ((kind = 6 ∨ kind = 10) ∧ index.val < 2) ∨ (kind = 7 ∧ index.val < 4) ∨
    (kind = 9 ∧ index ≠ 0 ∧ index ≠ 255) := by
  have hclient : (1 ≤ index.val ∧ index.val ≤ 254) ↔ index ≠ 0 ∧ index ≠ 255 := by
    rw [Ne, Ne, Fin.ext_iff, Fin.ext_iff]
    show _ ↔ ¬ index.val = 0 ∧ ¬ index.val = 255
    omega
  have hzero : index.val = 0 ↔ index = 0 := (Fin.ext_iff (b := 0)).symm
  obtain ⟨k, hk⟩ := kind
  interval_cases k <;> simp [namedUnit, hclient, hzero]

namespace State
variable {s t q : State} {u : Nat} {b : Fin 8} {x : FltUnit}

/-! ## Lifts -/

/-- The unit of a bank whose fence has ended, on its way back. -/
def bankLifted (s : State) (b : Fin 8) : State :=
  (s.modUnit (unitKey 8 b.val) fun x => { x with st := .inService, targets := [] }).modUnit (unitKey 8 b.val) fun x =>
    { x with st := .returning, targets := [] }
/-- The fence charged to a bank has ended and the supervisor has started the bank's return. -/
def bankReturned (s : State) (b : Fin 8) : State :=
  (((s.bankLifted b).modFlt fun x => { x with steps := [] }).modBank b fun x => { x with st := .rdmTest }).fltFlag qLIFT

theorem liftUnit_bank (s : State) (b : Fin 8) : s.liftUnit (unitKey 8 b.val) = s.modUnit (unitKey 8 b.val) fun x =>
    { x with st := .returning, targets := [] } := by
  unfold liftUnit
  rw [unitKind_unitKey 8 (by omega)]
  rfl

theorem supStep_bank (h : (s.bank b).st = .fenced) : s.supStep (unitKey 8 b.val) = s.modBank b fun x => { x with st := .rdmTest } := by
  have hb : Fin.ofNat 8 b.val = b := Fin.ext (Nat.mod_eq_of_lt b.isLt)
  unfold supStep
  rw [unitKind_unitKey 8 (by omega), unitIx_unitKey 8 (by omega)]
  show (if (s.bank (Fin.ofNat 8 b.val)).st = .fenced then s.readmit (Fin.ofNat 8 b.val) else s) = _
  rw [hb, if_pos h, readmit, if_pos h]

theorem supSteps_one (hr : s.flt.supReset = false) (hst : s.flt.steps = [u]) :
    s.supSteps = (s.modFlt fun x => { x with steps := [] }).supStep u := by
  unfold supSteps
  rw [hr, hst]
  rfl

theorem lift_bank (hu : s.flt.units = [(unitKey 8 b.val, x)]) (htg : x.targets = [unitKey 8 b.val]) (hr : s.flt.supReset = false)
    (hst : s.flt.steps = []) (hf : (s.bank b).st = .fenced) : ∃ told w, 0 ∈ told ∧
    s.lift (unitKey 8 b.val) = (s.bankReturned b).postAll 4 told 0x29 true 0 w 0 0 := by
  have hfree : (s.fltUnit (unitKey 8 b.val)).targets.filter (fun t => !s.heldElse (unitKey 8 b.val) t) = [unitKey 8 b.val] := by
    have hno : s.heldElse (unitKey 8 b.val) (unitKey 8 b.val) = false := by simp [heldElse, hu]
    rw [fltUnit_alone hu, htg, List.filter_cons, hno]
    rfl
  have hhas : [unitKey 8 b.val].filter hasSupStep = [unitKey 8 b.val] := by
    have : hasSupStep (unitKey 8 b.val) = true := by
      unfold hasSupStep
      rw [unitKind_unitKey 8 (by omega)]
      rfl
    rw [List.filter_cons, this]
    rfl
  refine ⟨(List.finRange 256).filter fun c => (readers s 14).contains c ||
    (([unitKey 8 b.val].flatMap s.unitChans).map s.owner).contains c,
    packw [(unitKind (unitKey 8 b.val), 24), (unitIx (unitKey 8 b.val), 0)], ?_, ?_⟩
  · refine List.mem_filter.2 ⟨List.mem_finRange 0, ?_⟩
    rw [List.contains_iff_mem.2 (s.zero_mem_readers 14), Bool.true_or]
  · have hsteps : ∀ v : State, v.flt.supReset = false → v.flt.steps = [] → (v.bank b).st = .fenced →
        (v.modFlt fun x => { x with steps := x.steps ++ [unitKey 8 b.val].filter hasSupStep }).supSteps =
          (v.modFlt fun x => { x with steps := [] }).modBank b fun x => { x with st := .rdmTest } := by
      intro v hvr hvs hvb
      rw [hhas]
      have hone : (v.modFlt fun x => { x with steps := x.steps ++ [unitKey 8 b.val] }).flt.steps = [unitKey 8 b.val] := by
        show v.flt.steps ++ _ = _
        rw [hvs, List.nil_append]
      rw [supSteps_one (s := v.modFlt fun x => { x with steps := x.steps ++ [unitKey 8 b.val] }) hvr hone]
      exact supStep_bank hvb
    unfold lift
    dsimp only
    rw [hfree, List.foldl_cons, List.foldl_nil, liftUnit_bank]
    show (((((s.bankLifted b).modFlt fun x => { x with steps := x.steps ++ [unitKey 8 b.val].filter hasSupStep }).supSteps).fltFlag
      qLIFT).postAll 4 _ 0x29 true 0 _ 0 0) = _
    rw [hsteps (s.bankLifted b) hr hst hf]
    rfl

theorem units_bankReturned (s : State) (b : Fin 8) : (s.bankReturned b).flt.units = (s.bankLifted b).flt.units := rfl
theorem bankReturned_unit (hwf : cellWf {} s.flt.units = true) : ((s.bankReturned b).fltUnit (unitKey 8 b.val)).st = .returning ∧
    ((s.bankReturned b).fltUnit (unitKey 8 b.val)).targets = [] := by
  have h : (s.bankReturned b).fltUnit (unitKey 8 b.val) = (s.bankLifted b).fltUnit (unitKey 8 b.val) :=
    congrArg (fun us : List (Nat × FltUnit) => cellRead ({} : FltUnit) us (unitKey 8 b.val)) (units_bankReturned s b)
  rw [h, bankLifted, fltUnit_modUnit (cellWf_modUnit hwf _ _), if_pos rfl]
  exact ⟨rfl, rfl⟩
theorem bankReturned_banks (s : State) (b : Fin 8) : ((s.bankReturned b).bank b).st = .rdmTest ∧
    ∀ c, c ≠ b → (s.bankReturned b).bank c = s.bank c :=
  ⟨congrArg Bank.st (at_vset_self s.mem.banks b _), fun _ hc => at_vset_ne s.mem.banks _ (Ne.symm hc)⟩
theorem only_bankReturned (s : State) (b : Fin 8) : OnlyChanges [.sc, .mem, .flt] s (s.bankReturned b) :=
  ((((show OnlyChanges [.flt] s (s.bankLifted b) from (only_modUnit s _ _).both (only_modUnit _ _ _)).both (only_modFlt _ _)).widen (by decide)).also (only_modBank _ _ _)
    (by decide)).also (only_fltFlag _ _) (by decide)
theorem flag_bankReturned (s : State) (b : Fin 8) : bit (s.bankReturned b).flt.flag 4 = true := by
  show bit (_ ||| qLIFT) 4 = true
  rw [bit_or, show bit qLIFT 4 = true by decide, Bool.or_true]

theorem recordedNow_iff (s : State) (u : Nat) : s.recordedNow u = true ↔ u ∈ s.cyc.recorded ∨
    ∃ q ∈ s.reports, 256 * q.kind.toNat + q.index.toNat = u ∧ q.at_ < s.time := by
  simp only [recordedNow, Bool.or_eq_true, List.contains_iff_mem, List.any_eq_true, Bool.and_eq_true, decide_eq_true_eq]
  rfl

theorem unitHeld_iff (s : State) (u : Nat) :
    s.unitHeld u = true ↔ (s.fltUnit u).st = .transient ∨ (s.fltUnit u).st = .lasting := by
  simp [unitHeld]

theorem liftNow_unheld {cmd : Bool} (hrec : s.recordedNow u = false)
    (h : ∀ p ∈ s.flt.units, p.2.st ≠ .transient ∧ p.2.st ≠ .lasting) : s.liftNow u cmd = s := by
  unfold liftNow
  rw [if_neg (by rw [hrec]; exact Bool.false_ne_true)]
  split
  · have hh : s.unitHeld u = false := by
      rw [Bool.eq_false_iff, Ne, unitHeld_iff]
      intro hst
      have hne : s.fltUnit u ≠ {} := fun h0 => by
        rw [h0] at hst
        exact hst.elim nofun nofun
      obtain ⟨h1, h2⟩ := h _ (mem_of_cellRead_ne hne)
      exact hst.elim h1 h2
    rw [hh]
    rfl
  · rw [List.filter_eq_nil_iff.2 fun p hp => by
      obtain ⟨h1, h2⟩ := h p hp
      simp [h1, h2]]
    rfl

theorem liftNow_alone {cmd : Bool} (hrec : s.recordedNow u = false) (hu : s.flt.units = [(u, x)])
    (hst : x.st = .lasting ∨ x.st = .transient) : s.liftNow u cmd = s.lift u := by
  unfold liftNow
  rw [if_neg (by rw [hrec]; exact Bool.false_ne_true)]
  split
  · rw [if_pos ((unitHeld_iff s u).2 (by rw [fltUnit_alone hu]; exact hst.symm))]
  · dsimp only
    rw [hu, List.filter_cons_of_pos (by simpa using hst.symm)]
    rfl

theorem settleLifts_one {p : Nat × Bool} (h : s.cyc.lifts = [p]) : s.settleLifts = s.liftNow p.1 p.2 := by
  unfold settleLifts
  rw [h]
  rfl

/-! ## The supervisor's restart -/

theorem st_cellRead {l : List (Nat × FltUnit)} (h : ∀ p ∈ l, p.1 = u → p.2.st = .inService) : (cellRead {} l u).st = .inService := by
  by_cases hne : cellRead {} l u = {}
  · rw [hne]
  · exact h _ (mem_of_cellRead_ne hne) rfl

theorem st_fltBack (s : State) (u : Nat) : ((s.fltBack u).fltUnit u).st = .inService := by
  refine st_cellRead fun p hp hpu => ?_
  obtain ⟨p', -, rfl⟩ := List.mem_map.1 (List.mem_filter.1 hp).1
  by_cases h : p'.1 = u
  · rw [if_pos h]
  · rw [if_neg h] at hpu
    exact absurd hpu h

/-- The supervisor back from its reset, with no step to take. -/
def supBack (s : State) : State :=
  ((s.modFlt fun f => { f with supReset := false }).fltBack (unitKey 11 0)).modFlt fun f => { f with steps := [] }

theorem only_supBack (s : State) : OnlyChanges [.flt] s s.supBack := ((only_modFlt _ _).both (only_fltBack _ _)).both (only_modFlt _ _)

theorem packResume_idle (ha : s.pack.again = false) (hh : s.pack.held = none) (hst : s.pack.step = none) : s.packResume = s := by
  unfold packResume
  rw [ha, hh]
  show s.packKick = s
  unfold packKick
  rw [hst]
  split <;> rfl

theorem updResume_idle (hw : s.upd.waits = []) (hc : s.upd.camp = none) (hl : s.upd.lasting = false) : s.updResume = s := by
  have hsame : (s.modUpd fun u => { u with waits := [] }) = s := by
    show ({ s with upd := { s.upd with waits := [] } } : State) = s
    rw [← hw]
  unfold updResume
  rw [hl, hw, hsame, Bool.and_false, List.foldl_nil]
  unfold campStep
  rw [hc]
  simp

theorem supRestart_back (hr : s.flt.supReset = true) (hl : (s.fltUnit (256 * 11)).st ≠ .lasting) (ht : s.flt.supAt + 200 ≤ s.time)
    (hst : s.flt.steps = []) (ha : s.pack.again = false) (hh : s.pack.held = none) (hps : s.pack.step = none) :
    s.supRestart = s.supBack := by
  have hsteps : ((s.modFlt fun f => { f with supReset := false }).fltBack (unitKey 11 0)).supSteps = s.supBack := by
    have h0 : ((s.modFlt fun f => { f with supReset := false }).fltBack (unitKey 11 0)).flt.steps = [] := hst
    unfold supSteps
    rw [h0]
    rfl
  unfold supRestart
  rw [hsteps, if_neg]
  · exact packResume_idle (s := s.supBack) ha hh hps
  · have hl' : ((s.fltUnit (unitKey 11 0)).st == .lasting) = false := beq_false_of_ne hl
    rw [hr, hl', decide_eq_false (Nat.not_lt.2 ht)]
    exact Bool.false_ne_true

theorem supRestart_waits (h : (s.fltUnit (256 * 11)).st = .lasting ∨ s.time < s.flt.supAt + 200) : s.supRestart = s := by
  unfold supRestart
  refine if_pos ?_
  obtain h | h := h
  · have hl' : ((s.fltUnit (unitKey 11 0)).st == .lasting) = true := beq_iff_eq.2 h
    rw [hl', Bool.or_true, Bool.true_or]
  · rw [decide_eq_true h, Bool.or_true]

theorem updResume_waits (h : s.flt.supReset = true) : s.updResume = s := by
  unfold updResume updWaits
  rw [h, Bool.or_true, if_pos rfl]

/-! ## Roll Call -/

theorem rollCallSlot_early {ans : Option Bool} (h : s.flt.rcen = false ∨ s.supStarted = false ∨ s.time < s.flt.slotAt + 62500) :
    s.rollCallSlot ans = s := by
  unfold rollCallSlot
  refine if_pos ?_
  obtain h | h | h := h
  · rw [h]; rfl
  · rw [h, Bool.not_false, Bool.or_true, Bool.true_or]
  · rw [decide_eq_true h, Bool.or_true]

theorem rollCall_within {ans : Option Bool} (h : s.flt.slot.toNat ≠ 31 ∨ s.rollCallSlot ans = s) :
    s.rollCall ans = s.rollCallSlot ans := by
  unfold rollCall
  refine if_neg fun ⟨h31, hne⟩ => ?_
  obtain h | h := h
  · exact h (congrArg BitVec.toNat h31)
  · rw [h] at hne
    exact hne h31

/-- The fault block with the slot in hand ended. -/
def slotEnded (s : State) : State :=
  s.modFlt fun f =>
    { f with slot := f.slot + 1, slotAt := if f.slotAt + 125000 ≤ s.time then s.time else f.slotAt + 62500 }

theorem slotPasses_up (hst : s.supStarted = true) (hup : s.pwr.pdUp = true) (hr : s.flt.supReset = false) {k : Nat} (hk : k < 22) :
    s.slotPasses k = false := by
  have h1 := supStarted_up hst
  unfold slotPasses
  rw [if_neg (by omega), h1, hup, hr]
  repeat' split
  all_goals rfl

/-- A silent slot noted. -/
def slotNoted (s : State) : State :=
  ((s.fltFlag qSILENT).modFlt fun f => { f with silent := f.silent ||| oneBit 32 s.flt.slot.toNat, periodClean := false }).hwSet
    0xC828 (oneBit 32 s.flt.slot.toNat)
/-- A silent slot noted and reported. -/
def slotSilent (s : State) : State :=
  s.slotNoted.report 0x19 (unitKind (slotUnit s.flt.slot.toNat)) (unitIx (slotUnit s.flt.slot.toNat)) s.flt.slot.toNat

theorem rollCallSlot_silent (hen : s.flt.rcen = true) (hst : s.supStarted = true) (hup : s.pwr.pdUp = true) (hr : s.flt.supReset = false)
    (hk : s.flt.slot.toNat < 22) (ht : s.flt.slotAt + 62500 ≤ s.time) : s.rollCallSlot none = s.slotSilent.slotEnded := by
  unfold rollCallSlot
  rw [if_neg (by rw [hen, hst, decide_eq_false (Nat.not_lt.2 ht)]; exact Bool.false_ne_true)]
  dsimp only
  rw [slotPasses_up hst hup hr hk]
  rfl

/-- A slot that answered, with the fences it lifts. -/
def slotAnswered (s : State) (clean : Bool) : State :=
  if clean && (s.flt.slot.toNat != 16 || s.afe.health == 0) then
    s.modCyc fun y => { y with lifts := y.lifts ++ (s.dueLifts s.flt.slot.toNat).map fun u => (u, false) }
  else s

theorem rollCallSlot_answered (hen : s.flt.rcen = true) (hst : s.supStarted = true) (hup : s.pwr.pdUp = true)
    (hr : s.flt.supReset = false) (hk : s.flt.slot.toNat < 22) (ht : s.flt.slotAt + 62500 ≤ s.time) (clean : Bool) :
    s.rollCallSlot (some clean) = (s.slotAnswered clean).slotEnded := by
  unfold rollCallSlot
  rw [if_neg (by rw [hen, hst, decide_eq_false (Nat.not_lt.2 ht)]; exact Bool.false_ne_true)]
  dsimp only
  rw [slotPasses_up hst hup hr hk]
  unfold slotAnswered
  cases clean <;> rfl

theorem only_slotAnswered (s : State) (clean : Bool) : OnlyChanges [] s (s.slotAnswered clean) := .ite (only_modCyc _ _ _) (.refl _ _)

theorem lifts_slotAnswered_none {clean : Bool} (h : clean = false ∨ s.dueLifts s.flt.slot.toNat = []) :
    (s.slotAnswered clean).cyc.lifts = s.cyc.lifts := by
  unfold slotAnswered
  split
  · next hc =>
    obtain rfl | h := h
    · exact absurd hc Bool.false_ne_true
    · show s.cyc.lifts ++ _ = _
      rw [h, List.map_nil, List.append_nil]
  · rfl
theorem lifts_slotAnswered_clean (h16 : s.flt.slot.toNat ≠ 16) :
    (s.slotAnswered true).cyc.lifts = s.cyc.lifts ++ (s.dueLifts s.flt.slot.toNat).map fun u => (u, false) := by
  unfold slotAnswered
  rw [if_pos (by rw [bne_iff_ne.2 h16]; rfl)]
  rfl

theorem dueLifts_bank (hu : s.flt.units = [(unitKey 8 b.val, x)]) (hst : x.st = .transient) (hauto : bit s.flt.auto 7 = true) :
    s.dueLifts (8 + b.val) = if x.last + s.flt.hold.toNat * 2000000 ≤ s.flt.slotAt then [unitKey 8 b.val] else [] := by
  have hkind := unitKind_unitKey 8 (i := b.val) (by omega)
  have hix := unitIx_unitKey 8 (i := b.val) (by omega)
  have hk : s.autoKind (unitKey 8 b.val) = true := by
    unfold autoKind
    rw [hkind]
    exact hauto
  have hslot : checkerSlot x (unitKey 8 b.val) = some (8 + b.val) := by
    unfold checkerSlot
    rw [hkind, hix]
    rfl
  unfold dueLifts
  rw [hu, List.filter_cons, hst, hk, hslot]
  by_cases h : x.last + s.flt.hold.toNat * 2000000 ≤ s.flt.slotAt <;> simp [h]

end State
end Sys2Proof.Machine
end

section
/-!
# O57 (19 R700–R712, R714–R720)
-/
namespace Sys2Proof.Machine
open State

section
variable {s : State} {r : Report} {b g : Fin 8} {n : Fin 64} {unit : FltUnit}

/-! ## Records taken in place -/

/-- The record as it stands whatever the update keeps. -/
theorem State.Records.marked {t : State} {cls : Nat} {set : BitVec 8} (h : Records s.unlasted t r cls set) (f : Upd → Upd) :
    Records s (t.modUpd f) r cls set := ⟨h.logged, h.flag⟩

/-- A report without an action is recorded alone. -/
theorem reportRecorded (hup : s.pwr.pd1Up = true) (hr : s.reports = [r]) (ht : r.at_ < s.time)
    (hm : r.mech ∈ [(0x0C : BitVec 8), 0x12, 0x13, 0x16]) : Completes (.fltRecord none) s [.sc, .flt, .reports] fun t =>
      t.reports = [] ∧ t.flt.units = s.flt.units ∧ Records s t r 0 0 := by
  have hact : ∀ q : State, q.fltAction r = .report := fun q => by
    unfold fltAction
    simp only [List.mem_cons, List.not_mem_nil, or_false] at hm
    obtain h | h | h | h := hm <;> rw [h] <;> rfl
  have hx : s.unlasted.fltRecord none = ((s.unlasted.reportless).recordNoted r).fltLog r 0 0 := by
    rw [fltRecord_one (s := s.unlasted) hr ht, recordReport, hact]
    rfl
  have ho := only_fltLog ((s.unlasted.reportless).recordNoted r) r 0 0
  have hring : RingKept s.unlasted ((s.unlasted.reportless).recordNoted r) := ⟨rfl, rfl, rfl, rfl, rfl⟩
  have hbase : OnlyChanges [.reports] s.unlasted ((s.unlasted.reportless).recordNoted r) := by
    intro p hp
    cases p with
    | reports => exact absurd List.mem_cons_self hp
    | _ => rfl
  refine completes_watched rfl hup hx ((hbase.widen (by decide)).also ho (by decide)) (by decide)
    ⟨ho .reports (by decide), ?_, (records_fltLog hring r 0 (show 0 ≤ 2 by decide)).marked _⟩
  show (((s.unlasted.reportless).recordNoted r).fltLog r 0 0).flt.units = _
  rw [flt_fltLog]
  rfl

theorem only_reportless (s : State) : OnlyChanges [.reports] s s.reportless := by
  intro p hp
  cases p with
  | reports => exact absurd List.mem_cons_self hp
  | _ => rfl

/-- What a bank's record leaves, taken from reports and logged with its class. -/
structure BankRecorded (s t : State) (r : Report) (b : Fin 8) (cls : Nat) : Prop where
  reports : t.reports = []
  bank : (t.bank b).st = .fenced
  others : ∀ c, c ≠ b → t.bank c = s.bank c
  records : Records s t r cls 0
  st : (t.fltUnit (unitKey 8 b.val)).st = if cls = 2 then .lasting else .transient
  targets : (t.fltUnit (unitKey 8 b.val)).targets = [unitKey 8 b.val]

/-- The charge with a record logged after it. -/
theorem State.BankCharged.recorded {q t : State} {cls : Nat} (h : BankCharged s.reportless q b cls) (hm : t.mem = q.mem)
    (hu : t.flt.units = q.flt.units) (hr : t.reports = q.reports) (hrec : Records s t r cls 0) : BankRecorded s t r b cls := by
  have hbank : ∀ c, t.bank c = q.bank c := fun c => congrArg (fun m : Mem => at_ m.banks c) hm
  have hunit : t.fltUnit (unitKey 8 b.val) = q.fltUnit (unitKey 8 b.val) := congrArg (fun us => cellRead ({} : FltUnit) us _) hu
  refine ⟨hr.trans (h.frame .reports (by decide)), (congrArg Bank.st (hbank b)).trans h.bank,
    fun c hc => (hbank c).trans (h.others c hc), hrec, ?_, ?_⟩
  · rw [hunit, h.st]
  · rw [hunit, h.targets]

theorem BankRecorded.marked {t : State} {cls : Nat} (h : BankRecorded s.unlasted t r b cls) (f : Upd → Upd) :
    BankRecorded s (t.modUpd f) r b cls := ⟨h.reports, h.bank, h.others, h.records.marked f, h.st, h.targets⟩

theorem ring_reportless (s : State) : RingKept s s.reportless := ⟨rfl, rfl, rfl, rfl, rfl⟩

/-- The record of a bank's report, before it is in the ring. -/
theorem bankTaken_of (hu : s.Unfenced (unitKey 8 b.val)) (hh : s.unitHeld (unitKey 8 b.val) = false) (hr : s.reports = [r])
    (ht : r.at_ < s.time) (hm : r.mech = 0x0A) (hk : r.kind = 8) (hi : r.index.toNat = b.val) {cls : Nat}
    (hc : s.fltClass r (unitKey 8 b.val) = cls) : ∃ q, BankCharged s.reportless q b cls ∧ s.fltRecord none = q.logAct r cls 0 ∧
      q.supStarted = s.supStarted := by
  have hq := bankCharged_bankTaken (s := s.reportless) hu hh r cls
  refine ⟨s.reportless.bankTaken r b cls, hq, ?_, supStarted_of (hq.frame .pwr (by decide)) (hq.frame .boot (by decide))⟩
  rw [fltRecord_one hr ht]
  exact recordReport_bank hm hk hi hu hh hc

/-- The first record of a bank fences it. -/
theorem fltRecord_bankFirst (hst : s.supStarted = true) (hu : s.flt.units = []) (hr : s.reports = [r]) (ht : r.at_ < s.time)
    (hm : r.mech = 0x0A) (hk : r.kind = 8) (hi : r.index.toNat = b.val) :
    OnlyChanges [.sc, .mem, .flt, .reports] s (s.fltRecord none) ∧ BankRecorded s (s.fltRecord none) r b 1 := by
  have hempty := fltUnit_empty hu (unitKey 8 b.val)
  obtain ⟨q, hq, hx, hsup⟩ := bankTaken_of (.inl hu) (unitHeld_inService (by rw [hempty])) hr ht hm hk hi
    (fltClass_first (by rw [hm]; decide) (by rw [hm]; decide) hempty)
  rw [hx, logAct_brief q r 0 (by decide) (hsup.trans hst)]
  have ho := only_fltLog q r 1 0
  refine ⟨(((only_reportless s).widen (by decide)).also hq.frame (by decide)).also ho (by decide),
    hq.recorded (ho .mem (by decide)) ?_ (ho .reports (by decide))
      (records_fltLog ((ring_reportless s).trans hq.ring) r 0 (by decide))⟩
  rw [flt_fltLog]
  rfl

theorem units_lastingStored (s : State) : s.lastingStored.flt.units = s.flt.units := rfl
theorem window_lastingStored (s : State) : s.lastingStored.upd.window = s.upd.window := rfl
theorem queue_lastingStored (s : State) : ∃ q ∈ s.lastingStored.rs.queue, q.type = 4 ∧ q.index = 0 :=
  ⟨_, mem_queue_rsEnqueue _ 4 0 _, rfl, rfl⟩

/-- The record of a bank that is the N-th within WIN is lasting, and the log is stored. -/
theorem fltRecord_bankLasting (hst : s.supStarted = true) (hu : s.flt.units = [(unitKey 8 b.val, unit)]) (hr : s.reports = [r])
    (ht : r.at_ < s.time) (hm : r.mech = 0x0A) (hk : r.kind = 8) (hi : r.index.toNat = b.val) (hin : unit.st = .inService)
    (htg : unit.targets = []) {x : Nat} (hx : unit.times[s.flt.n.toNat - 2]? = some x) (hwin : s.time - x ≤ s.flt.win.toNat * 200000) :
    OnlyChanges [.sc, .mem, .flt, .upd, .rs, .reports] s (s.fltRecord none) ∧ BankRecorded s (s.fltRecord none) r b 2 ∧
      (∃ q ∈ (s.fltRecord none).rs.queue, q.type = 4 ∧ q.index = 0) ∧ (s.fltRecord none).upd.window = s.upd.window := by
  have hunit := fltUnit_alone hu
  have hne : unit ≠ {} := fun h => by
    rw [h] at hx
    exact nomatch hx
  obtain ⟨q, hq, hxq, hsup⟩ := bankTaken_of (.inr ⟨unit, hu, hne, htg⟩) (unitHeld_inService (by rw [hunit]; exact hin)) hr ht hm hk hi
    (fltClass_nth (by rw [hm]; decide) (by rw [hm]; decide) (hunit ▸ hx) hwin)
  rw [hxq, logAct_lasting q r 0 (hsup.trans hst)]
  have ho := only_fltLog q r 2 0
  have hs := only_lastingStored (q.fltLog r 2 0)
  have hunits : (q.fltLog r 2 0).flt.units = q.flt.units := by rw [flt_fltLog]; rfl
  have hrec := records_lasting ((ring_reportless s).trans hq.ring) r 0
  have hframe := ((only_reportless s).widen (ps := [.mem, .flt, .reports]) (by decide)).also hq.frame (by decide)
  have hqupd : q.upd = s.upd := hframe .upd (by decide)
  generalize hl : q.fltLog r 2 0 = l at ho hs hunits hrec
  have hmem : l.lastingStored.mem = q.mem := by rw [hs .mem (by decide), ho .mem (by decide)]
  have hrep : l.lastingStored.reports = q.reports := by rw [hs .reports (by decide), ho .reports (by decide)]
  have hupd : l.upd = s.upd := by rw [ho .upd (by decide), hqupd]
  exact ⟨((hframe.widen (by decide)).also ho (by decide)).also hs (by decide),
    hq.recorded hmem ((units_lastingStored l).trans hunits) hrep hrec, queue_lastingStored l,
    (window_lastingStored l).trans (congrArg Upd.window hupd)⟩

end
end Sys2Proof.Machine
end

section
/-!
# O57: internal faults, the commands and Roll Call (19 R700–R712, R714–R720)
-/
namespace Sys2Proof.Machine
open State

section
variable {s : State} {r : Report} {b g : Fin 8} {n : Fin 64} {unit : FltUnit}

/-! ## Internal faults -/

theorem supStarted_only {t : State} {ps : List Part} (h : OnlyChanges ps s t) (hp : Part.pwr ∉ ps) (hb : Part.boot ∉ ps)
    (hst : s.supStarted = true) : t.supStarted = true := (supStarted_of (h .pwr hp) (h .boot hb)).trans hst

/-- The report of a grove's compare. -/
def groveReport (g : Fin 8) : Report := { mech := 0x07, kind := 2, index := .ofNat 8 g.val, detail := 0 }

theorem groveReport_index (g : Fin 8) : (groveReport g).index.toNat = g.val :=
  (BitVec.toNat_ofNat _ _).trans (Nat.mod_eq_of_lt (by omega))

/-- What a grove's compare leaves of a channel. -/
structure GroveRecorded (s t : State) (g : Fin 8) (n : Fin 64) : Prop where
  records : Records s t (groveReport g) 1 (reachedBy s.flt g)
  fenced : groveOf n = g ∨ bit (reachedBy s.flt g) (groveOf n).val = true → GroveFenced n s t
  others : groveOf n ≠ g → bit (reachedBy s.flt g) (groveOf n).val = false → (t.chan n).fenced = (s.chan n).fenced

theorem GroveRecorded.marked {t : State} (h : GroveRecorded s.unlasted t g n) (f : Upd → Upd) : GroveRecorded s (t.modUpd f) g n :=
  ⟨h.records.marked f, fun hg => have k := h.fenced hg; ⟨k.fenced, k.stopped, k.clear⟩, h.others⟩

theorem fltRecord_grove (hst : s.supStarted = true) (hu : s.flt.units = []) (n : Fin 64) :
    OnlyChanges [.chans, .groves, .tt, .sc, .flt] s (s.fltRecord (some (.groveCompare g))) ∧
      GroveRecorded s (s.fltRecord (some (.groveCompare g))) g n := by
  have hempty := fltUnit_empty hu (unitKey 2 g.val)
  have hh : s.unitHeld (unitKey 2 g.val) = false := unitHeld_inService (by rw [hempty])
  have hnote : RingKept s (s.recordNoted (groveReport g)) := ⟨rfl, rfl, rfl, rfl, rfl⟩
  have hq := groveCharged_chargeUnit (s := s.recordNoted (groveReport g)) (g := g) (.inl hu) hh (groveReport g) 1 n
  have hx : s.fltRecord (some (.groveCompare g)) =
      ((s.recordNoted (groveReport g)).chargeUnit (groveReport g) (unitKey 2 g.val) 1 (.fence [unitKey 2 g.val])).logAct
        (groveReport g) 1 (reachedBy s.flt g) := by
    have hact : s.fltAction (groveReport g) = .fence [unitKey 2 g.val] := by
      have h0 : s.fltAction (groveReport g) = .fence [unitKey 2 (groveReport g).index.toNat] := rfl
      rw [h0, groveReport_index]
    have hkey : unitKey (groveReport g).kind.toNat (groveReport g).index.toNat = unitKey 2 g.val := by rw [groveReport_index]; rfl
    have hset : (s.recordNoted (groveReport g)).setField (unitKey 2 g.val) (.fence [unitKey 2 g.val]) = reachedBy s.flt g := by
      have hu' : (s.recordNoted (groveReport g)).Unfenced (unitKey 2 g.val) := .inl hu
      rw [setField_fresh hu'.heldAny]
      exact (setOf_unheld (s := s.recordNoted (groveReport g)) hh rfl).trans (setGroves_grove _ g)
    show s.recordReport (groveReport g) = _
    unfold recordReport
    rw [hact, recordAct_acts (s := s) (act := .fence [unitKey 2 g.val]) nofun hkey (cls := 1)
      (fltClass_first (show (0x07 : BitVec 8) ≠ 0x17 by decide) (show (0x07 : BitVec 8) ≠ 0x23 by decide) hempty), hset]
    rfl
  rw [hx]
  generalize (s.recordNoted (groveReport g)).chargeUnit (groveReport g) (unitKey 2 g.val) 1 (.fence [unitKey 2 g.val]) = q at hq
  have hframe : OnlyChanges [.chans, .groves, .tt, .flt] s q := (only_modCyc s _ _).both hq.frame
  rw [logAct_brief q _ _ (by decide) (supStarted_only hframe (by decide) (by decide) hst)]
  have ho := only_fltLog q (groveReport g) 1 (reachedBy s.flt g)
  have hrec := records_fltLog (hnote.trans hq.ring) (groveReport g) (reachedBy s.flt g) (show 1 ≤ 2 by decide)
  generalize q.fltLog (groveReport g) 1 (reachedBy s.flt g) = t at ho hrec
  have hchan : t.chan n = q.chan n := ho.chan (by decide) n
  refine ⟨(hframe.widen (by decide)).also ho (by decide), hrec, fun hg => ?_, fun h1 h2 => ?_⟩
  · obtain ⟨h1, h2, h3⟩ := hq.fenced hg
    rw [FenceClear, ← hchan] at h3
    rw [← hchan] at h1 h2
    exact ⟨h1, h2, h3⟩
  · rw [hchan]
    exact hq.others h1 h2

/-- The report of the supervisor's own fault. -/
def supReport : Report := { mech := 0x05, kind := 11, index := 0, detail := 0 }

theorem fltRecord_supervisor (hst : s.supStarted = true) (hu : s.flt.units = []) :
    OnlyChanges [.sc, .flt, .rs] s (s.fltRecord (some .supervisor)) ∧ Records s (s.fltRecord (some .supervisor)) supReport 1 0 ∧
      (s.fltRecord (some .supervisor)).flt.supReset = true ∧ (s.fltRecord (some .supervisor)).flt.supAt = s.time ∧
      (s.fltRecord (some .supervisor)).flt.st = s.flt.st := by
  have hempty := fltUnit_empty hu (unitKey 11 0)
  have hun : (s.recordNoted supReport).Unfenced (unitKey 11 0) := .inl hu
  have hh : (s.recordNoted supReport).unitHeld (unitKey 11 0) = false := unitHeld_inService (s := s) (by rw [hempty])
  have hnote : RingKept s (s.recordNoted supReport) := ⟨rfl, rfl, rfl, rfl, rfl⟩
  obtain ⟨hq, -⟩ := chargeUnit_none (r := supReport) (act := .restart) (cls := 1) hun hh rfl rfl
  have hx : s.fltRecord (some .supervisor) =
      (((s.recordNoted supReport).chargeUnit supReport (unitKey 11 0) 1 .restart).supStopped).logAct supReport 1 0 := by
    have hset : (s.recordNoted supReport).setField (unitKey 11 0) .restart = 0 := by
      rw [setField_fresh hun.heldAny]
      exact (setOf_unheld hh rfl).trans (setGroves_none _)
    show s.recordReport supReport = _
    unfold recordReport
    rw [show s.fltAction supReport = .restart from rfl, recordAct_acts (s := s) (act := .restart) nofun (u := unitKey 11 0) rfl (cls := 1)
      (fltClass_first (by decide) (by decide) hempty), hset, actBeside_restart _ _ (by decide)]
  rw [hx]
  generalize (s.recordNoted supReport).chargeUnit supReport (unitKey 11 0) 1 .restart = c at hq
  have hring : RingKept s c := hnote.trans hq.ring
  have htime : c.time = s.time := hq.only .time (by decide)
  have hstf : c.flt.st = s.flt.st := by
    obtain ⟨_, _, _, rfl⟩ := hq
    rfl
  have hframe : OnlyChanges [.flt, .rs] s c.supStopped := (((only_modCyc s _ [.flt, .rs])).both (hq.only.widen (by decide))).both
    ((only_supStopped c).widen (by decide))
  rw [logAct_brief c.supStopped _ _ (by decide) (supStarted_only hframe (by decide) (by decide) hst)]
  have hrec := records_fltLog (q := c.supStopped) ⟨hring.held, hring.newest, hring.unread, hring.tb, hring.canopy⟩ supReport 0
    (show 1 ≤ 2 by decide)
  refine ⟨(hframe.widen (by decide)).also (only_fltLog _ _ _ _) (by decide), hrec, ?_⟩
  rw [flt_fltLog]
  exact ⟨rfl, htime, hstf⟩

/-- The report of the census twins. -/
def censusReport : Report := { mech := 0x18, kind := 0, index := 0, detail := 0 }

/-- What the census leaves behind its record. -/
structure CensusRecorded (s t : State) (n : Fin 64) : Prop where
  records : Records s t censusReport 1 0
  st : t.flt.st = .census
  flag : bit t.flt.flag 5 = true
  me : t.me.st = .fenced ∧ t.me.fcause = 5
  clear : (t.chan n).o.inClr = true

theorem CensusRecorded.marked {t : State} (h : CensusRecorded s.unlasted t n) (f : Upd → Upd) : CensusRecorded s (t.modUpd f) n :=
  ⟨h.records.marked f, h.st, h.flag, h.me, h.clear⟩

theorem censusMismatch_leaves (hst : s.supStarted = true) (hu : s.flt.units = []) (hme : s.me.st ≠ .fenced) (n : Fin 64) :
    OnlyChanges [.chans, .groves, .ads, .tt, .me, .ps, .afe, .sc, .mem, .tsi, .reports, .flt] s s.censusMismatch ∧
      CensusRecorded s s.censusMismatch n := by
  have hempty := fltUnit_empty hu (unitKey 0 0)
  have hun : (s.recordNoted censusReport).Unfenced (unitKey 0 0) := .inl hu
  have hh : (s.recordNoted censusReport).unitHeld (unitKey 0 0) = false := unitHeld_inService (s := s) (by rw [hempty])
  have hnote : RingKept s (s.recordNoted censusReport) := ⟨rfl, rfl, rfl, rfl, rfl⟩
  obtain ⟨hq, hfree⟩ := chargeUnit_none (r := censusReport) (act := .census) (cls := 1) hun hh rfl rfl
  have hx : s.censusMismatch =
      (((s.recordNoted censusReport).chargeUnit censusReport (unitKey 0 0) 1 .census).census).logAct censusReport 1 0 := by
    have hset : (s.recordNoted censusReport).setField (unitKey 0 0) .census = 0 := by
      rw [setField_fresh hun.heldAny]
      exact (setOf_unheld hh rfl).trans (setGroves_none _)
    show s.recordReport censusReport = _
    unfold recordReport
    rw [show s.fltAction censusReport = .census from rfl, recordAct_acts (s := s) (act := .census) nofun (u := unitKey 0 0) rfl (cls := 1)
      (fltClass_first (by decide) (by decide) hempty), hset]
    rfl
  rw [hx]
  generalize (s.recordNoted censusReport).chargeUnit censusReport (unitKey 0 0) 1 .census = c at hq hfree
  rw [census_free hfree.heldAny]
  have hcme : c.me = s.me := hq.only .me (by decide)
  have hleft := censusLeft_censusTaken (s := c) (by rw [hcme]; exact hme) (unitKey 0 0) n
  generalize c.censusTaken (unitKey 0 0) = d at hleft
  have hframe : OnlyChanges [.chans, .groves, .ads, .tt, .me, .ps, .afe, .sc, .mem, .tsi, .reports, .flt] s d :=
    ((only_modCyc s _ _).both (hq.only.widen (by decide))).both hleft.frame
  have hring : RingKept s d := (hnote.trans hq.ring).trans hleft.ring
  rw [logAct_brief d _ _ (by decide) (supStarted_only hframe (by decide) (by decide) hst)]
  have ho := only_fltLog d censusReport 1 0
  have hflt := flt_fltLog d censusReport 1 0
  have hrec := records_fltLog hring censusReport 0 (show 1 ≤ 2 by decide)
  generalize d.fltLog censusReport 1 0 = t at ho hflt hrec
  have hchan : t.chan n = d.chan n := ho.chan (by decide) n
  have hmed : t.me = d.me := ho .me (by decide)
  refine ⟨hframe.both (ho.widen (by decide)), hrec, ?_, ?_, ?_, ?_⟩
  · rw [hflt]
    exact hleft.st
  · rw [hflt]
    show bit (_ ||| _) 5 = true
    rw [bit_or, hleft.flag, Bool.true_or]
  · rw [hmed]
    exact hleft.me
  · rw [hchan]
    exact hleft.clear

end
end Sys2Proof.Machine
end

section
/-!
# O57 (19 R700–R712, R714–R720)
-/
namespace Sys2Proof.Machine
open State

section
variable {s : State} {r : Report} {b g : Fin 8} {n : Fin 64} {unit : FltUnit}

theorem recordCompletes_lasting (hst : s.supStarted = true) (hw : s.upd.window = false) (hu : s.flt.units = [(unitKey 8 b.val, unit)])
    (hr : s.reports = [r]) (ht : r.at_ < s.time) (hm : r.mech = 0x0A) (hk : r.kind = 8) (hi : r.index.toNat = b.val)
    (hin : unit.st = .inService) (htg : unit.targets = []) {x : Nat} (hx : unit.times[s.flt.n.toNat - 2]? = some x)
    (hwin : s.time - x ≤ s.flt.win.toNat * 200000) :
    Completes (.fltRecord none) s [.sc, .mem, .flt, .upd, .rs, .reports] fun t => BankRecorded s t r b 2 ∧
      ∃ q ∈ t.rs.queue, q.type = 4 ∧ q.index = 0 := by
  obtain ⟨ho, hrec, hq, hwq⟩ := fltRecord_bankLasting (s := s.unlasted) hst hu hr ht hm hk hi hin htg hx hwin
  refine completes_seated (f := fun s => watchLasting s fun s => s.fltRecord none) rfl (supStarted_up hst)
    (watchLasting_lasting rfl (hwq.trans hw)) ⟨hrec.marked _, hq⟩ ?_
  exact ((((only_modUpd s _).widen (by decide)).both ho)).also (only_modUpd _ _) (by decide)

/-! ## Lifts at the end of the cycle -/

theorem settleLifts_bank {cmd : Bool} (hl : s.cyc.lifts = [(unitKey 8 b.val, cmd)]) (hrec : s.recordedNow (unitKey 8 b.val) = false)
    (hu : s.flt.units = [(unitKey 8 b.val, unit)]) (hst : unit.st = .lasting ∨ unit.st = .transient)
    (htg : unit.targets = [unitKey 8 b.val]) (hr : s.flt.supReset = false) (hsteps : s.flt.steps = []) (hf : (s.bank b).st = .fenced) :
    OnlyChanges [.sc, .mem, .flt] s s.settleLifts ∧ (s.settleLifts.bank b).st = .rdmTest ∧
      (∀ c, c ≠ b → s.settleLifts.bank c = s.bank c) ∧ (s.settleLifts.fltUnit (unitKey 8 b.val)).st = .returning ∧
      (s.settleLifts.fltUnit (unitKey 8 b.val)).targets = [] ∧ bit s.settleLifts.flt.flag 4 = true ∧ s.settleLifts.Told 0 0xA9 := by
  obtain ⟨told, w, hz, hlift⟩ := lift_bank hu htg hr hsteps hf
  rw [settleLifts_one hl, liftNow_alone hrec hu hst, hlift]
  have hne : unit ≠ {} := fun h => by
    rw [h] at hst
    exact hst.elim nofun nofun
  have hwf : cellWf {} s.flt.units = true := by
    rw [hu]
    exact decide_eq_true hne
  have hb := bankReturned_banks s b
  have hunit := bankReturned_unit (b := b) hwf
  have hflag := flag_bankReturned s b
  have ho := only_bankReturned s b
  generalize s.bankReturned b = q at hb hunit hflag ho
  have hp := only_postAll q 4 told 0x29 true 0 w 0 0
  have ht := told_postAll (rank := 4) (info := 0) (w1 := w) (w2 := 0) (w3 := 0) q hz (show 0x29 < 128 by decide)
  generalize q.postAll 4 told 0x29 true 0 w 0 0 = t at hp ht
  have hmem : t.mem = q.mem := hp .mem (by decide)
  have hflt : t.flt = q.flt := hp .flt (by decide)
  have hbank : ∀ c, t.bank c = q.bank c := fun c => congrArg (fun m : Mem => at_ m.banks c) hmem
  have hfu : t.fltUnit (unitKey 8 b.val) = q.fltUnit (unitKey 8 b.val) :=
    congrArg (fun f : Flt => cellRead ({} : FltUnit) f.units (unitKey 8 b.val)) hflt
  refine ⟨ho.also hp (by decide), (congrArg Bank.st (hbank b)).trans hb.1, fun c hc => (hbank c).trans (hb.2 c hc), ?_, ?_, ?_, ht⟩
  · rw [hfu]; exact hunit.1
  · rw [hfu]; exact hunit.2
  · rw [hflt]; exact hflag

/-! ## Roll Call -/

theorem only_slotNoted (s : State) : OnlyChanges [.flt] s s.slotNoted :=
  ((only_fltFlag s _).both (only_modFlt _ _)).both (only_hwSet _ _ _ _)
theorem only_slotSilent (s : State) : OnlyChanges [.flt, .reports] s s.slotSilent :=
  ((only_slotNoted s).widen (by decide)).also (only_report _ _ _ _ _) (by decide)

theorem flt_slotSilent (s : State) : s.slotSilent.flt = { s.flt with
    flag := s.flt.flag ||| qSILENT, silent := s.flt.silent ||| oneBit 32 s.flt.slot.toNat, periodClean := false } := rfl
theorem reports_report (s : State) (mech kind index detail : Nat) : (s.report mech kind index detail).reports = s.reports ++
    [{ mech := .ofNat 8 mech, kind := .ofNat 4 kind, index := .ofNat 8 index, detail := .ofNat 24 detail, at_ := s.time }] := rfl
/-- The report of a silent slot. -/
def silentReport (s : State) : Report where
  mech := .ofNat 8 0x19
  kind := .ofNat 4 (unitKind (slotUnit s.flt.slot.toNat))
  index := .ofNat 8 (unitIx (slotUnit s.flt.slot.toNat))
  detail := .ofNat 24 s.flt.slot.toNat
  at_ := s.time

theorem reports_slotSilent (s : State) : s.slotSilent.reports = s.reports ++ [silentReport s] := by
  have hr : s.slotNoted.reports = s.reports := only_slotNoted s .reports (by decide)
  have ht : s.slotNoted.time = s.time := only_slotNoted s .time (by decide)
  unfold slotSilent silentReport
  rw [reports_report, hr, ht]
theorem detail_silentReport (hk : s.flt.slot.toNat < 22) : (silentReport s).detail.toNat = s.flt.slot.toNat :=
  (BitVec.toNat_ofNat _ _).trans (Nat.mod_eq_of_lt (by omega))
theorem mech_silentReport (s : State) : (silentReport s).mech = 0x19 := by unfold silentReport; rfl
theorem lifts_slotSilent (s : State) : s.slotSilent.cyc.lifts = s.cyc.lifts := rfl
theorem flt_slotEnded (s : State) : s.slotEnded.flt = { s.flt with
    slot := s.flt.slot + 1, slotAt := if s.flt.slotAt + 125000 ≤ s.time then s.time else s.flt.slotAt + 62500 } := rfl

theorem slotSilent_leaves (hk : s.flt.slot.toNat < 22) :
    s.slotSilent.slotEnded.flt.slot = s.flt.slot + 1 ∧
      s.slotSilent.slotEnded.flt.slotAt = (if s.flt.slotAt + 125000 ≤ s.time then s.time else s.flt.slotAt + 62500) ∧
      bit s.slotSilent.slotEnded.flt.flag 3 = true ∧
      s.slotSilent.slotEnded.flt.silent = s.flt.silent ||| .ofNat 32 (2 ^ s.flt.slot.toNat) ∧
      s.slotSilent.slotEnded.cyc.lifts = s.cyc.lifts ∧
      ∃ q : Report, s.slotSilent.slotEnded.reports = s.reports ++ [q] ∧ q.mech = 0x19 ∧ q.detail.toNat = s.flt.slot.toNat ∧
        q.at_ = s.time := by
  have hrep : s.slotSilent.slotEnded.reports = s.reports ++ [silentReport s] := by
    rw [slotEnded, modFlt_reports, reports_slotSilent]
  have hlifts : s.slotSilent.slotEnded.cyc.lifts = s.cyc.lifts := by rw [slotEnded, modFlt_cyc, lifts_slotSilent]
  have hmech := mech_silentReport s
  have hdetail := detail_silentReport hk
  have htime : s.slotSilent.time = s.time := only_slotSilent s .time (by decide)
  rw [flt_slotEnded, flt_slotSilent, htime]
  refine ⟨rfl, rfl, ?_, rfl, hlifts, _, hrep, hmech, hdetail, rfl⟩
  show bit (_ ||| qSILENT) 3 = true
  rw [bit_or, show bit qSILENT 3 = true by decide, Bool.or_true]

theorem flt_slotAnswered (s : State) (clean : Bool) : (s.slotAnswered clean).slotEnded.flt = { s.flt with
    slot := s.flt.slot + 1, slotAt := if s.flt.slotAt + 125000 ≤ s.time then s.time else s.flt.slotAt + 62500 } := by
  have hflt : (s.slotAnswered clean).flt = s.flt := only_slotAnswered s clean .flt (by decide)
  have htime : (s.slotAnswered clean).time = s.time := only_slotAnswered s clean .time (by decide)
  rw [flt_slotEnded, hflt, htime]

theorem dueLifts_empty (h : s.flt.units = []) : s.dueLifts s.flt.slot.toNat = [] := by
  unfold dueLifts
  rw [h]
  rfl

end

/-- Settles O57: a record is charged by its stages (unit, fence, ring), and every other command is one step of the block. -/
theorem faultBlockCommands : Obligations.FaultBlockCommands := by
  unfold Obligations.FaultBlockCommands
  intro s r b g n kind index ans unit f entry flagged posted logged named u bankUnit slot up record
  refine ⟨fun hup c hc => ?down, fun h => ?none, fun hup hr hm => ?report, fun hw hst hn => ⟨?first, ?lasting, ?grove, ?sup, ?census⟩,
    fun h => ?stays, fun hup hr hl ht hsteps ha hh hps hwaits hcamp hlast => ?restart, fun hup hn => ?fence, fun hup hn c hc => ?unnamed,
    fun hup hn => ?readmit, fun hup => ?clrlog, fun hup hb => ?logfull, fun hb => ?logfullSet, fun cmd hl => ?lifts, fun h => ?early,
    fun hen hst hpd hr hk ht => ?rollCall⟩
  case down =>
    have hdown : s.pwr.pd1Up = false := Bool.eq_false_iff.2 hup
    simp only [List.mem_cons, List.not_mem_nil, or_false] at hc
    obtain rfl | rfl | rfl | rfl | rfl | rfl | rfl | rfl | rfl := hc
    all_goals exact completes_unseated rfl hdown
  case none =>
    by_cases hup : s.pwr.pd1Up = true
    · exact completes_watched (t := s.unlasted) rfl hup (fltRecord_none (s := s.unlasted) h) (.refl _ _) (by decide) trivial
    · exact completes_unseated rfl (Bool.eq_false_iff.2 hup)
  case report =>
    obtain ⟨t, hx, ⟨hrep, hunits, hrec⟩, ho⟩ := reportRecorded hup hr.1 hr.2 hm
    exact ⟨t, hx, ⟨hrep, hunits, hrec.logged⟩, ho⟩
  case first =>
    intro hu hr hm hk hi
    obtain ⟨ho, hrec⟩ := fltRecord_bankFirst (s := s.unlasted) hst hu hr.1 hr.2 hm hk hi
    have h := hrec.marked fun _ => s.upd
    have hlog := h.records.logged
    rw [hm, hk, hi] at hlog
    exact completes_watched rfl (supStarted_up hst) rfl ho (by decide)
      ⟨h.reports, h.bank, h.others, hlog, h.records.flag (by decide), h.st, h.targets⟩
  case lasting =>
    rintro hu hr hm hk hi hin htg ⟨x, hx, hwin⟩
    obtain ⟨t, hxt, ⟨h, hq⟩, ho⟩ := recordCompletes_lasting hst hw hu hr.1 hr.2 hm hk hi hin htg hx hwin
    have hlog := h.records.logged
    rw [hm, hk, hi] at hlog
    exact ⟨t, hxt, ⟨h.bank, hlog, h.records.flag (by decide), h.st, hq⟩, ho⟩
  case grove =>
    intro hu
    obtain ⟨ho, hrec⟩ := fltRecord_grove (s := s.unlasted) (g := g) hst hu n
    have h := hrec.marked fun _ => s.upd
    have hlog := h.records.logged
    rw [groveReport_index] at hlog
    exact completes_watched rfl (supStarted_up hst) rfl ho (by decide)
      ⟨hlog, fun hg => have k := h.fenced hg; ⟨k.fenced, k.stopped, k.clear⟩, h.others⟩
  case sup =>
    intro hu
    obtain ⟨ho, hrec, h1, h2, h3⟩ := fltRecord_supervisor (s := s.unlasted) hst hu
    exact completes_watched rfl (supStarted_up hst) rfl ho (by decide) ⟨(hrec.marked fun _ => s.upd).logged, h1, h2, h3⟩
  case census =>
    intro hu hme
    obtain ⟨ho, hrec⟩ := censusMismatch_leaves (s := s.unlasted) hst hu hme n
    have h := hrec.marked fun _ => s.upd
    refine ⟨_, exec_watched rfl (supStarted_up hst) rfl ho (by decide), h.st, h.flag, h.records.logged, h.me.1, h.me.2, h.clear, ?_⟩
    exact fun p hp => only_restored ho p fun hin => (by decide : ∀ p ∈ [Part.boot, .xf, .otp, .pwr, .canopy, .tbs, .intc, .hp, .svc,
      .pm, .pins, .rdata, .time, .pending], p ∉ [Part.chans, .groves, .ads, .tt, .me, .ps, .afe, .sc, .mem, .tsi, .reports, .flt]) p hp hin
  case stays =>
    by_cases hup : s.pwr.pd1Up = true
    · refine completes_seated (f := fun s => if s.flt.supReset then s.supRestart.updResume else s) rfl hup (t := s) ?_ trivial (.refl _ _)
      split
      · next hr =>
        rw [supRestart_waits (h.resolve_left fun h0 => absurd (h0.symm.trans hr) (by decide)), updResume_waits hr]
      · rfl
    · exact completes_unseated rfl (Bool.eq_false_iff.2 hup)
  case restart =>
    refine completes_seated (f := fun s => if s.flt.supReset then s.supRestart.updResume else s) rfl hup (t := s.supBack) ?_
      ⟨rfl, rfl, rfl, st_fltBack _ _⟩ (only_supBack s)
    rw [if_pos hr, supRestart_back hr hl ht hsteps ha hh hps]
    exact updResume_idle (s := s.supBack) hwaits hcamp hlast
  case fence =>
    refine completes_seated (f := fun s => s.cmdFence kind.val index.val) rfl hup
      (if_pos ((namedUnit_iff kind index).2 hn)) ?_ (only_report s _ _ _ _)
    rfl
  case unnamed =>
    have hno : namedUnit kind.val index.val = false := Bool.eq_false_iff.2 fun h => hn ((namedUnit_iff kind index).1 h)
    simp only [List.mem_cons, List.not_mem_nil, or_false] at hc
    obtain rfl | rfl := hc
    · exact completes_seated (f := fun s => s.cmdFence kind.val index.val) (t := s.fltFlag qWWR) rfl hup
        (by rw [cmdFence, hno]; rfl) rfl (only_fltFlag s _)
    · exact completes_seated (f := fun s => s.cmdReadmit kind.val index.val) (t := s.fltFlag qWWR) rfl hup
        (by rw [cmdReadmit, hno]; rfl) rfl (only_fltFlag s _)
  case readmit =>
    have hyes := (namedUnit_iff kind index).2 hn
    exact completes_seated (f := fun s => s.cmdReadmit kind.val index.val) (t := s.modCyc fun y => { y with lifts := y.lifts ++ [(u, true)] })
      rfl hup (by rw [cmdReadmit, hyes]; rfl) rfl (only_modCyc s _ _)
  case clrlog => exact completes_seated (f := cmdClrlog) rfl hup rfl rfl (only_modFlt s _)
  case logfull =>
    exact completes_seated (f := clearLogfull) rfl hup (if_neg (by rw [hb]; exact Bool.false_ne_true)) rfl (only_modFlt s _)
  case logfullSet =>
    by_cases hup : s.pwr.pd1Up = true
    · exact completes_seated (f := clearLogfull) rfl hup (if_pos hb) trivial (.refl _ _)
    · exact completes_unseated rfl (Bool.eq_false_iff.2 hup)
  case lifts =>
    intro t recorded
    have hl' := settleLifts_one hl
    have hnow : recorded ↔ s.recordedNow bankUnit = true := (recordedNow_iff s bankUnit).symm
    refine ⟨fun hrec hcmd => ?_, fun hrec hcmd => ?_, fun hrec hnone => ?_, fun hrec hu hst htg hr hsteps hf => ?_⟩
    · have ht : t = s.fltFlag qWWR := by
        rw [hcmd] at hl'
        exact hl'.trans (if_pos (hnow.1 hrec))
      rw [ht]
      exact ⟨only_fltFlag s _, rfl⟩
    · have ht : t = s := by
        rw [hcmd] at hl'
        exact hl'.trans (if_pos (hnow.1 hrec))
      rw [ht]
      exact .refl _ _
    · have ht : t = s := hl'.trans (liftNow_unheld (Bool.eq_false_iff.2 fun h => hrec (hnow.2 h)) hnone)
      rw [ht]
      exact .refl _ _
    · exact settleLifts_bank hl (Bool.eq_false_iff.2 fun h => hrec (hnow.2 h)) hu hst htg hr hsteps hf
  case early =>
    by_cases hup : s.pwr.pd1Up = true
    · have hx := rollCallSlot_early (ans := ans) h
      exact completes_seated (f := fun s => s.rollCall ans) rfl hup ((rollCall_within (.inr hx)).trans hx) trivial (.refl _ _)
    · exact completes_unseated rfl (Bool.eq_false_iff.2 hup)
  case rollCall =>
    intro begins
    have h31 : s.flt.slot.toNat ≠ 31 := fun h => absurd (h ▸ hk : 31 < 22) (by decide)
    have hup := supStarted_up hst
    refine ⟨?_, fun clean => ?_⟩
    · refine completes_seated (f := fun s => s.rollCall none) rfl hup
        ((rollCall_within (.inl h31)).trans (rollCallSlot_silent hen hst hpd hr hk ht)) ?_
        (((only_slotSilent s).both ((only_modFlt _ _).widen (by decide))))
      obtain ⟨hslot, hat, hflag, hsilent, hlifts, hrep⟩ := slotSilent_leaves hk
      exact ⟨hslot, hat, hflag, hsilent, hlifts, hrep⟩
    · refine completes_seated (f := fun s => s.rollCall (some clean)) rfl hup
        ((rollCall_within (.inl h31)).trans (rollCallSlot_answered hen hst hpd hr hk ht clean)) ⟨?_, fun h => ?_, fun hc hs hu hst8 hauto => ?_⟩
        (((only_slotAnswered s clean).widen (by decide)).both (only_modFlt _ _))
      · exact flt_slotAnswered s clean
      · exact lifts_slotAnswered_none (h.imp_right dueLifts_empty)
      · have h16 : s.flt.slot.toNat ≠ 16 := fun h => by
          have : 16 = 8 + b.val := h.symm.trans hs
          omega
        have hlifts := (lifts_slotAnswered_clean h16).trans (congrArg (fun k => s.cyc.lifts ++ (s.dueLifts k).map fun u => (u, false)) hs)
        rw [dueLifts_bank hu hst8 hauto] at hlifts
        rw [hc]
        refine ⟨fun hdue => hlifts.trans ?_, fun hdue => hlifts.trans ?_⟩
        · rw [if_pos hdue]
          rfl
        · rw [if_neg (Nat.not_le.2 hdue)]
          exact List.append_nil _

end Sys2Proof.Machine
end

section
/-!
# The verdicts of a second (17 R635–R638)
-/
namespace Sys2Proof.Machine
open State

/-- A second as link l sees it. -/
def seenBy (l : Fin 4) (d : DoneSecond) : DoneSecond := { d with v := .replicate 4 (at_ d.v l) }

theorem at_seenBy (l : Fin 4) (d : DoneSecond) : at_ (seenBy l d).v l = at_ d.v l := by simp [seenBy]

/-- A second with the availability of link l marked. -/
def markedAs (d : DoneSecond) (l : Fin 4) (u : Bool) : DoneSecond :=
  { d with v := vset d.v l fun v => { v with uas := u || v.fenced } }

theorem seenBy_markedAs_ne {l k : Fin 4} (h : l ≠ k) (d : DoneSecond) (u : Bool) : seenBy l (markedAs d k u) = seenBy l d := by
  unfold seenBy markedAs
  rw [at_vset_ne _ _ (Ne.symm h)]
theorem at_markedAs (d : DoneSecond) (l : Fin 4) (u : Bool) :
    at_ (markedAs d l u).v l = { at_ d.v l with uas := u || (at_ d.v l).fenced } := at_vset_self _ _ _

theorem markRun_cons {l : Fin 4} {u : Bool} {n : Nat} {d : DoneSecond} {ds : List DoneSecond} : markRun l u (n + 1) (d :: ds) =
    if (at_ d.v l).counts then markedAs d l u :: markRun l u n ds else d :: markRun l u (n + 1) ds := rfl

theorem seen_markRun {l k : Fin 4} (h : l ≠ k) (u : Bool) : ∀ (n : Nat) (ds : List DoneSecond),
    (markRun k u n ds).map (seenBy l) = ds.map (seenBy l) := by
  intro n ds
  induction ds generalizing n with
  | nil => cases n <;> rfl
  | cons d ds ih =>
    cases n with
    | zero => rfl
    | succ n =>
      rw [markRun_cons]
      split
      · rw [List.map_cons, List.map_cons, ih, seenBy_markedAs_ne h]
      · rw [List.map_cons, List.map_cons, ih]

theorem length_markRun (l : Fin 4) (u : Bool) : ∀ (n : Nat) (ds : List DoneSecond), (markRun l u n ds).length = ds.length := by
  intro n ds
  induction ds generalizing n with
  | nil => cases n <;> rfl
  | cons d ds ih =>
    cases n with
    | zero => rfl
    | succ n =>
      rw [markRun_cons]
      split <;> rw [List.length_cons, List.length_cons, ih]

/-! ## Availability -/

/-- What the judgement of link l goes by and changes. -/
def availView (l : Fin 4) (x : Perf × List DoneSecond) : Bool × Nat × List DoneSecond :=
  (bit x.1.unav l.val, at_ x.1.against l, x.2.map (seenBy l))

theorem bit_xor {n : Nat} (a b : BitVec n) (i : Nat) : bit (a ^^^ b) i = (bit a i != bit b i) := BitVec.getLsbD_xor

theorem availView_judgeAvail_ne {l k : Fin 4} (h : l ≠ k) (x : Perf × List DoneSecond) :
    availView l (judgeAvail k x.1 x.2) = availView l x := by
  obtain ⟨p, ds⟩ := x
  have hbit : bit (p.unav ^^^ oneBit 4 k.val) l.val = bit p.unav l.val := by
    rw [bit_xor, bit_oneBit k.isLt, decide_eq_false fun he => h (Fin.ext he), Bool.bne_false]
  unfold judgeAvail
  cases ds with
  | nil => rfl
  | cons d ds =>
    dsimp only
    generalize (if (at_ d.v k).ses = bit p.unav k.val then 0 else at_ p.against k + 1) = n
    split
    · rfl
    · unfold availView
      split <;> dsimp only
      · rw [seen_markRun h, seen_markRun h, hbit, at_vset_ne _ _ (Ne.symm h)]
      · rw [seen_markRun h, at_vset_ne _ _ (Ne.symm h)]

/-- The seconds in a row against the availability of a link, after one more second. -/
def againstAfter (l : Fin 4) (p : Perf) (v : Verdict) : Nat := if v.ses = bit p.unav l.val then 0 else at_ p.against l + 1

/-- The verdict that the newest second gets, and the availability it leaves. -/
structure Judged (l : Fin 4) (p : Perf) (d : DoneSecond) (ds : List DoneSecond) (x : Perf × List DoneSecond) : Prop where
  length : x.2.length = ds.length + 1
  uncounted : (at_ d.v l).counts = false → bit x.1.unav l.val = bit p.unav l.val ∧ at_ x.1.against l = at_ p.against l ∧
    ∃ rest, x.2 = d :: rest
  stays : (at_ d.v l).counts = true → againstAfter l p (at_ d.v l) ≠ 10 → bit x.1.unav l.val = bit p.unav l.val ∧
    at_ x.1.against l = againstAfter l p (at_ d.v l) ∧ ∃ rest, x.2 = markedAs d l (bit p.unav l.val) :: rest
  turns : (at_ d.v l).counts = true → againstAfter l p (at_ d.v l) = 10 → bit x.1.unav l.val = !bit p.unav l.val ∧
    at_ x.1.against l = 0 ∧ ∃ rest, x.2 = markedAs d l (!bit p.unav l.val) :: rest

theorem markedAs_markedAs (d : DoneSecond) (l : Fin 4) (u w : Bool) : markedAs (markedAs d l u) l w = markedAs d l w := by
  unfold markedAs
  simp [vset]

theorem judged_judgeAvail (l : Fin 4) (p : Perf) (d : DoneSecond) (ds : List DoneSecond) :
    Judged l p d ds (judgeAvail l p (d :: ds)) := by
  have hx : judgeAvail l p (d :: ds) =
      if !(at_ d.v l).counts then (p, d :: ds)
      else if againstAfter l p (at_ d.v l) = 10 then
        ({ p with unav := p.unav ^^^ oneBit 4 l.val, against := vset p.against l fun _ => 0 },
          markRun l (!bit p.unav l.val) 10 (markRun l (bit p.unav l.val) 1 (d :: ds)))
      else ({ p with against := vset p.against l fun _ => againstAfter l p (at_ d.v l) }, markRun l (bit p.unav l.val) 1 (d :: ds)) := rfl
  have hbit : bit (p.unav ^^^ oneBit 4 l.val) l.val = !bit p.unav l.val := by
    rw [bit_xor, bit_oneBit l.isLt, decide_eq_true rfl, Bool.bne_true]
  cases hc : (at_ d.v l).counts with
  | false =>
    rw [hc] at hx
    rw [hx]
    exact ⟨rfl, fun _ => ⟨rfl, rfl, ds, rfl⟩, fun h => absurd (hc.symm.trans h) (by decide), fun h => absurd (hc.symm.trans h) (by decide)⟩
  | true =>
    have hone : markRun l (bit p.unav l.val) 1 (d :: ds) = markedAs d l (bit p.unav l.val) :: markRun l (bit p.unav l.val) 0 ds := by
      rw [markRun_cons, if_pos hc]
    have hc' : (at_ (markedAs d l (bit p.unav l.val)).v l).counts = true := by rw [at_markedAs]; exact hc
    rw [hc, Bool.not_true, if_neg Bool.false_ne_true, hone] at hx
    by_cases h10 : againstAfter l p (at_ d.v l) = 10
    · rw [if_pos h10, markRun_cons, if_pos hc', markedAs_markedAs] at hx
      rw [hx]
      refine ⟨?_, fun h => absurd (hc.symm.trans h) (by decide), fun _ h => absurd h10 h, fun _ _ => ⟨hbit, at_vset_self _ _ _, _, rfl⟩⟩
      rw [List.length_cons, length_markRun, length_markRun]
    · rw [if_neg h10] at hx
      rw [hx]
      refine ⟨?_, fun h => absurd (hc.symm.trans h) (by decide), fun _ _ => ⟨rfl, at_vset_self _ _ _, _, rfl⟩, fun _ h => absurd h h10⟩
      rw [List.length_cons, length_markRun]

end Sys2Proof.Machine
end

section
/-!
# The end of a second (15 R578, 17 R635–R638, R647)
-/
namespace Sys2Proof.Machine
open State

/-! ## The second that waits -/

/-- A second with the availability of link l written. -/
def withUas (d : DoneSecond) (l : Fin 4) (u : Bool) : DoneSecond := { d with v := vset d.v l fun v => { v with uas := u } }

theorem at_withUas (d : DoneSecond) (l : Fin 4) (u : Bool) : at_ (withUas d l u).v l = { at_ d.v l with uas := u } := at_vset_self _ _ _
theorem seenBy_markedAs {l : Fin 4} {d e : DoneSecond} (h : seenBy l d = seenBy l e) (u : Bool) :
    seenBy l (markedAs d l u) = seenBy l (withUas e l (u || (at_ e.v l).fenced)) := by
  have hv : at_ d.v l = at_ e.v l := by rw [← at_seenBy l d, h, at_seenBy]
  unfold seenBy
  rw [at_markedAs, at_withUas, hv]
  unfold markedAs withUas
  exact congrArg (fun x : DoneSecond => { x with v := .replicate 4 { at_ e.v l with uas := u || (at_ e.v l).fenced } }) h
theorem seenBy_withUas_same (l : Fin 4) (d : DoneSecond) : seenBy l d = seenBy l (withUas d l (at_ d.v l).uas) := by
  unfold seenBy
  rw [at_withUas]
  rfl

/-- What the judgement of a second leaves of link l: the second last in the queue, with its availability. -/
structure SecondWaits (l : Fin 4) (p : Perf) (d : DoneSecond) (t : Perf) (v : DoneSecond) (u : Bool) : Prop where
  seen : seenBy l v = seenBy l (withUas d l u)
  uncounted : (at_ d.v l).counts = false → bit t.unav l.val = bit p.unav l.val ∧ at_ t.against l = at_ p.against l ∧ u = (at_ d.v l).uas
  stays : (at_ d.v l).counts = true → againstAfter l p (at_ d.v l) ≠ 10 → bit t.unav l.val = bit p.unav l.val ∧
    at_ t.against l = againstAfter l p (at_ d.v l) ∧ u = (bit p.unav l.val || (at_ d.v l).fenced)
  turns : (at_ d.v l).counts = true → againstAfter l p (at_ d.v l) = 10 → bit t.unav l.val = (!bit p.unav l.val) ∧
    at_ t.against l = 0 ∧ u = (!bit p.unav l.val || (at_ d.v l).fenced)

/-- The second that ends. -/
def State.doneSecond (s : State) : DoneSecond :=
  let c := s.pm.sec
  { at_ := c.at_.toNat, suspect := !s.canopy.rtcValid, observed := c.observed,
    v := c.links.map fun x => x.verdict c.observed s.pm.sesthr.toNat,
    gov := c.gov, plaus := c.plaus, tamper := c.tamper, odo := c.odo, run := c.run }

/-- The availability of the links judged in turn. -/
def judgeAll (x : Perf × List DoneSecond) : Perf × List DoneSecond := (List.finRange 4).foldl (fun r l => judgeAvail l r.1 r.2) x

theorem pmVerdicts_eq (s : State) : s.pmVerdicts = s.modPm fun _ =>
    { (judgeAll (s.pm, s.doneSecond :: s.pm.waiting.reverse)).1 with
      waiting := (judgeAll (s.pm, s.doneSecond :: s.pm.waiting.reverse)).2.reverse } := rfl

theorem judgeAll_leaves (l : Fin 4) (p : Perf) (d : DoneSecond) (ds : List DoneSecond) : ∃ v rest u,
    (judgeAll (p, d :: ds)).2 = v :: rest ∧ rest.length = ds.length ∧ SecondWaits l p d (judgeAll (p, d :: ds)).1 v u := by
  obtain ⟨⟨q, es⟩, hpre, hpost⟩ := foldl_at (p := availView l) (f := fun r l => judgeAvail l r.1 r.2) (List.mem_finRange l)
    (List.nodup_finRange 4) (fun x k _ hk => availView_judgeAvail_ne (Ne.symm hk) x) (p, d :: ds)
  rw [← judgeAll] at hpost
  generalize judgeAll (p, d :: ds) = y at hpost
  obtain ⟨t, fs⟩ := y
  have hunav : bit q.unav l.val = bit p.unav l.val := congrArg Prod.fst hpre
  have hagainst : at_ q.against l = at_ p.against l := congrArg (fun x => x.2.1) hpre
  have hseen : es.map (seenBy l) = seenBy l d :: ds.map (seenBy l) := congrArg (fun x => x.2.2) hpre
  obtain ⟨d', es', rfl, hd, hes⟩ := List.map_eq_cons_iff.1 hseen
  have hv : at_ d'.v l = at_ d.v l := by rw [← at_seenBy l d', hd, at_seenBy]
  have hlen : es'.length = ds.length := by rw [← List.length_map (seenBy l), hes, List.length_map]
  have hafter : againstAfter l q (at_ d'.v l) = againstAfter l p (at_ d.v l) := by unfold againstAfter; rw [hunav, hagainst, hv]
  obtain ⟨hjlen, hno, hstay, hturn⟩ := judged_judgeAvail l q d' es'
  dsimp only at hpost
  generalize judgeAvail l q (d' :: es') = z at hpost hjlen hno hstay hturn
  rw [hafter, hv] at hstay hturn
  rw [hv] at hno
  have hunav' : bit t.unav l.val = bit z.1.unav l.val := congrArg Prod.fst hpost
  have hagainst' : at_ t.against l = at_ z.1.against l := congrArg (fun x => x.2.1) hpost
  have hseen' : fs.map (seenBy l) = z.2.map (seenBy l) := congrArg (fun x => x.2.2) hpost
  have hlen' : fs.length = ds.length + 1 := by rw [← List.length_map (seenBy l), hseen', List.length_map, hjlen, hlen]
  have hcons : ∀ {e : DoneSecond} {u : Bool}, (∃ rest, z.2 = e :: rest) → seenBy l e = seenBy l (withUas d l u) →
      ∃ v rest, fs = v :: rest ∧ rest.length = ds.length ∧ seenBy l v = seenBy l (withUas d l u) := by
    rintro e u ⟨rest, hz⟩ he
    rw [hz] at hseen'
    obtain ⟨v, tl, rfl, hvl, -⟩ := List.map_eq_cons_iff.1 hseen'
    exact ⟨v, tl, rfl, by simpa using hlen', hvl.trans he⟩
  cases hc : (at_ d.v l).counts with
  | false =>
    obtain ⟨h1, h2, h3⟩ := hno hc
    obtain ⟨v, rest, hf, hl, hs⟩ := hcons h3 (hd.trans (seenBy_withUas_same l d))
    exact ⟨v, rest, _, hf, hl, hs, fun _ => ⟨hunav'.trans (h1.trans hunav), hagainst'.trans (h2.trans hagainst), rfl⟩,
      fun h => absurd (hc.symm.trans h) (by decide), fun h => absurd (hc.symm.trans h) (by decide)⟩
  | true =>
    by_cases h10 : againstAfter l p (at_ d.v l) = 10
    · obtain ⟨h1, h2, h3⟩ := hturn hc h10
      obtain ⟨v, rest, hf, hl, hs⟩ := hcons h3 (seenBy_markedAs hd _)
      refine ⟨v, rest, _, hf, hl, hs, fun h => absurd (hc.symm.trans h) (by decide), fun _ h => absurd h10 h, fun _ _ => ⟨?_, hagainst'.trans h2, ?_⟩⟩
      · rw [hunav', h1, hunav]
      · rw [hunav]
    · obtain ⟨h1, h2, h3⟩ := hstay hc h10
      obtain ⟨v, rest, hf, hl, hs⟩ := hcons h3 (seenBy_markedAs hd _)
      refine ⟨v, rest, _, hf, hl, hs, fun h => absurd (hc.symm.trans h) (by decide),
        fun _ _ => ⟨hunav'.trans (h1.trans hunav), hagainst'.trans h2, ?_⟩, fun _ h => absurd h h10⟩
      rw [hunav]

/-! ## DEG -/

/-- A link with a defect declared. -/
def Hl.withDefect (h : Hl) (d : Fin 6) : Hl :=
  { h with defects := h.defects ||| oneBit 6 d.val, integ := vset h.integ d fun _ => 0, flag := h.flag ||| oneBit 15 d.val }
/-- A link with a defect ended. -/
def Hl.withoutDefect (h : Hl) (d : Fin 6) : Hl :=
  { h with defects := h.defects &&& ~~~(oneBit 6 d.val), integ := vset h.integ d fun _ => 0, flag := h.flag ||| lDCLR }
/-- A link whose second of bit errors starts anew. -/
def Hl.secondBegun (h : Hl) : Hl := { h with secBip := 0, secRaw := decide (h.raw &&& 7 ≠ 0) }

namespace State
variable {s : State} {l j : Fin 4}

theorem link_hlFlag_self (s : State) (l : Fin 4) (b : BitVec 15) : (s.hlFlag l b).link l = { s.link l with flag := (s.link l).flag ||| b } :=
  link_modLink_self (s := s) l _
theorem link_hlFlag_ne (h : l ≠ j) (b : BitVec 15) : (s.hlFlag l b).link j = s.link j := (link_modLink (s := s) l j _).trans (if_neg h)

/-- A defect declared, before the second and FLT hear of it. -/
def declared (s : State) (l : Fin 4) (d : Fin 6) : State :=
  (s.modLink l fun h => { h with defects := h.defects ||| oneBit 6 d.val, integ := vset h.integ d fun _ => 0 }).hlFlag l
    (oneBit 15 d.val)
theorem only_declared (s : State) (l : Fin 4) (d : Fin 6) : OnlyChanges [.pm, .reports] (s.declared l d) (s.declare l d) :=
  ((only_linkSec _ _ _).widen (by decide)).also (only_report _ _ _ _ _) (by decide)

theorem link_declare_self (s : State) (l : Fin 4) (d : Fin 6) : (s.declare l d).link l = (s.link l).withDefect d := by
  rw [(only_declared s l d).link (by decide), declared, link_hlFlag_self, link_modLink_self]
  rfl
theorem link_declare_ne (h : l ≠ j) (d : Fin 6) : (s.declare l d).link j = s.link j := by
  rw [(only_declared s l d).link (by decide), declared, link_hlFlag_ne h, link_modLink, if_neg h]
theorem link_undeclare_self (s : State) (l : Fin 4) (d : Fin 6) : (s.undeclare l d).link l = (s.link l).withoutDefect d := by
  unfold undeclare
  rw [link_hlFlag_self, link_modLink_self]
  rfl
theorem link_undeclare_ne (h : l ≠ j) (d : Fin 6) : (s.undeclare l d).link j = s.link j := by
  unfold undeclare
  rw [link_hlFlag_ne h, link_modLink, if_neg h]

theorem only_declare (s : State) (l : Fin 4) (d : Fin 6) : OnlyChanges [.hl, .pm, .reports] s (s.declare l d) :=
  ((((only_modLink s l _).widen (by decide)).also (only_hlFlag _ _ _) (by decide)).also (only_linkSec _ _ _) (by decide)).also
    (only_report _ _ _ _ _) (by decide)
theorem only_undeclare (s : State) (l : Fin 4) (d : Fin 6) : OnlyChanges [.hl] s (s.undeclare l d) :=
  (only_modLink s l _).both (only_hlFlag _ _ _)

/-- DEG of link l judged with n seconds in a row against it. -/
def degStep (s : State) (l : Fin 4) (bad on : Bool) (n : Nat) : State :=
  let h := s.link l
  if h.secRaw then s
  else
    let s := s.modLink l fun h => { h with integ := vset h.integ 4 fun _ => n }
    if on then (if fld h.deg 23 20 ≤ n ∧ bad = false then s.undeclare l 4 else s)
    else if fld h.deg 19 16 ≤ n ∧ bad = true then s.declare l 4
    else s

/-- The seconds in a row against DEG after the one in hand. -/
def degCount (h : Hl) : Nat := if decide (fld h.deg 15 0 ≤ h.secBip) = bit h.defects 4 then 0 else at_ h.integ 4 + 1

theorem degJudge_eq (s : State) (l : Fin 4) : s.degJudge l = if !(s.link l).en then s else
    (s.degStep l (decide (fld (s.link l).deg 15 0 ≤ (s.link l).secBip)) (bit (s.link l).defects 4) (degCount (s.link l))).modLink l
      Hl.secondBegun := rfl

theorem only_degStep (s : State) (l : Fin 4) (bad on : Bool) (n : Nat) : OnlyChanges [.hl, .pm, .reports] s (s.degStep l bad on n) :=
  have h : OnlyChanges [.hl, .pm, .reports] s (s.modLink l fun h => { h with integ := vset h.integ 4 fun _ => n }) :=
    (only_modLink s l _).widen (by decide)
  .ite (.refl _ _) (.ite (.ite (h.also (only_undeclare _ _ _) (by decide)) h) (.ite (h.both (only_declare _ _ _)) h))
theorem only_degJudge (s : State) (l : Fin 4) : OnlyChanges [.hl, .pm, .reports] s (s.degJudge l) :=
  .ite (.refl _ _) ((only_degStep s l _ _ _).also (only_modLink _ _ _) (by decide))

theorem link_degStep_ne (h : l ≠ j) (bad on : Bool) (n : Nat) : (s.degStep l bad on n).link j = s.link j := by
  have hm : (s.modLink l fun h => { h with integ := vset h.integ 4 fun _ => n }).link j = s.link j := by rw [link_modLink, if_neg h]
  unfold degStep
  dsimp only
  repeat' split
  · rfl
  · rw [link_undeclare_ne h, hm]
  · exact hm
  · rw [link_declare_ne h, hm]
  · exact hm
theorem link_degJudge_ne (h : l ≠ j) : (s.degJudge l).link j = s.link j := by
  rw [degJudge_eq]
  split
  · rfl
  · rw [link_modLink, if_neg h, link_degStep_ne h]

/-- What the judgement of DEG leaves of an enabled link. -/
structure DegJudged (h t : Hl) : Prop where
  restarts : t.secBip = 0
  raises : h.secRaw = false → bit h.defects 4 = false → fld h.deg 15 0 ≤ h.secBip → fld h.deg 19 16 = at_ h.integ 4 + 1 →
    t.defects = h.defects ||| 0x10 ∧ bit t.flag 4 = true
  ends : h.secRaw = false → bit h.defects 4 = true → h.secBip < fld h.deg 15 0 → fld h.deg 23 20 = at_ h.integ 4 + 1 →
    t.defects = h.defects &&& 0x2F ∧ bit t.flag 6 = true
  raw : h.secRaw = true → t.defects = h.defects ∧ at_ t.integ 4 = at_ h.integ 4

theorem degJudged_degJudge (s : State) (l : Fin 4) (hen : (s.link l).en = true) : DegJudged (s.link l) ((s.degJudge l).link l) := by
  rw [degJudge_eq, hen, Bool.not_true, if_neg Bool.false_ne_true, link_modLink_self]
  refine ⟨rfl, fun hraw hon hbad hn => ?_, fun hraw hon hbad hn => ?_, fun hraw => ?_⟩
  · have hc : degCount (s.link l) = at_ (s.link l).integ 4 + 1 := by
      unfold degCount
      rw [decide_eq_true hbad, hon, if_neg (by decide)]
    unfold degStep
    dsimp only
    rw [if_neg (by rw [hraw]; exact Bool.false_ne_true), hon, if_neg Bool.false_ne_true, decide_eq_true hbad, hc,
      if_pos ⟨Nat.le_of_eq hn, rfl⟩, link_declare_self, link_modLink_self]
    refine ⟨rfl, ?_⟩
    show bit (_ ||| oneBit 15 4) 4 = true
    rw [bit_or, show bit (oneBit 15 4) 4 = true by decide, Bool.or_true]
  · have hbad' : decide (fld (s.link l).deg 15 0 ≤ (s.link l).secBip) = false := decide_eq_false (Nat.not_le.2 hbad)
    have hc : degCount (s.link l) = at_ (s.link l).integ 4 + 1 := by
      unfold degCount
      rw [hbad', hon, if_neg (by decide)]
    unfold degStep
    dsimp only
    rw [if_neg (by rw [hraw]; exact Bool.false_ne_true), hon, if_pos rfl, hbad', hc,
      if_pos ⟨Nat.le_of_eq hn, rfl⟩, link_undeclare_self, link_modLink_self]
    refine ⟨rfl, ?_⟩
    show bit (_ ||| lDCLR) 6 = true
    rw [bit_or, show bit lDCLR 6 = true by decide, Bool.or_true]
  · unfold degStep
    dsimp only
    rw [if_pos hraw]
    exact ⟨rfl, rfl⟩

theorem degAll_link (s : State) (l : Fin 4) (hen : (s.link l).en = true) :
    DegJudged (s.link l) ((foldFin 4 (fun l s => s.degJudge l) s).link l) := by
  obtain ⟨u, hu, ht⟩ := foldl_at (p := fun s : State => s.link l) (f := fun s l => s.degJudge l) (List.mem_finRange l)
    (List.nodup_finRange 4) (fun x k _ hk => link_degJudge_ne hk) s
  have h := degJudged_degJudge u l (hu ▸ hen)
  rw [hu] at h
  unfold foldFin
  rwa [ht]

/-! ## The second -/

/-- Performance monitoring but its running second. -/
def pmApart (s : State) : Perf := { s.pm with sec := {} }

theorem pmApart_of_pm {t : State} {ps : List Part} (h : OnlyChanges ps s t) (hp : Part.pm ∉ ps) : t.pmApart = s.pmApart :=
  congrArg (fun p : Perf => { p with sec := {} }) (h .pm hp)
theorem pmApart_linkSec (s : State) (l : Fin 4) (f : LinkSec → LinkSec) : (s.linkSec l f).pmApart = s.pmApart := rfl
theorem pmApart_declare (s : State) (l : Fin 4) (d : Fin 6) : (s.declare l d).pmApart = s.pmApart := by
  unfold declare
  rw [pmApart_of_pm (only_report _ _ _ _ _) (by decide), pmApart_linkSec, pmApart_of_pm (only_hlFlag _ _ _) (by decide),
    pmApart_of_pm (only_modLink _ _ _) (by decide)]
theorem pmApart_degStep (s : State) (l : Fin 4) (bad on : Bool) (n : Nat) : (s.degStep l bad on n).pmApart = s.pmApart := by
  have hm : (s.modLink l fun h => { h with integ := vset h.integ 4 fun _ => n }).pmApart = s.pmApart :=
    pmApart_of_pm (only_modLink s l _) (by decide)
  unfold degStep
  dsimp only
  repeat' split
  · rfl
  · rw [pmApart_of_pm (only_undeclare _ _ _) (by decide), hm]
  · exact hm
  · rw [pmApart_declare, hm]
  · exact hm
theorem pmApart_degJudge (s : State) (l : Fin 4) : (s.degJudge l).pmApart = s.pmApart := by
  rw [degJudge_eq]
  split
  · rfl
  · rw [pmApart_of_pm (only_modLink _ _ _) (by decide), pmApart_degStep]
theorem pmApart_degAll (s : State) : (foldFin 4 (fun l s => s.degJudge l) s).pmApart = s.pmApart :=
  foldl_keeps (p := pmApart) _ (fun t l _ => pmApart_degJudge t l) s

theorem only_pmVerdicts (s : State) : OnlyChanges [.pm] s s.pmVerdicts := only_modPm s _
theorem only_updateViews (s : State) : OnlyChanges [.pm] s s.updateViews :=
  ((only_setView s _ _).both (only_setView _ _ _)).both (only_setView _ _ _)

/-- The links judged and the next second begun. -/
def secondBegun (s : State) : State :=
  let s := foldFin 4 (fun l s => s.degJudge l) s.pmVerdicts
  s.modPm fun p => { p with sec := s.newSecond }

theorem pmSecond_eq (hup : s.pwr.pdUp = true) (hne : s.canopy.rtcSec ≠ s.pm.sec.at_) :
    s.pmSecond = if s.flt.supReset then s.secondBegun else s.secondBegun.updateViews := by
  have hflt : s.secondBegun.flt = s.flt :=
    (((only_pmVerdicts s).widen (ps := [.hl, .pm, .reports]) (by decide)).both
      (.foldFin (fun l t => only_degJudge t l) _)).also (only_modPm _ _) (by decide) .flt (by decide)
  unfold pmSecond
  rw [if_neg (by rw [hup, decide_eq_false hne]; exact Bool.false_ne_true), ← hflt]
  rfl

theorem only_secondBegun (s : State) : OnlyChanges [.hl, .pm, .reports] s s.secondBegun :=
  (((only_pmVerdicts s).widen (by decide)).both (.foldFin (fun l t => only_degJudge t l) _)).also (only_modPm _ _) (by decide)

theorem pmSecond_still (h : s.pwr.pdUp = false ∨ s.canopy.rtcSec = s.pm.sec.at_) : s.pmSecond = s := by
  unfold pmSecond
  refine if_pos ?_
  obtain h | h := h
  · rw [h]; rfl
  · rw [decide_eq_true h, Bool.or_true]

end State
end Sys2Proof.Machine
end

section
/-!
# Bins and views (17 R638, R642–R649)
-/
namespace Sys2Proof.Machine
open State
namespace State
variable {s : State} {l : Fin 4} {d : DoneSecond} {rest : List DoneSecond}

/-! ## The verdicts of the second in its place -/

theorem at_doneSecond (s : State) (l : Fin 4) : at_ s.doneSecond.v l = (at_ s.pm.sec.links l).verdict s.pm.sec.observed s.pm.sesthr.toNat := by
  simp [doneSecond, at_]

/-- What a new second leaves of link l and of the second that ended. -/
structure SecondEnds (s t : State) (l : Fin 4) : Prop where
  waits : ∃ v old u, t.pm.waiting = old ++ [v] ∧ old.length = s.pm.waiting.length ∧ SecondWaits l s.pm s.doneSecond t.pm v u
  second : t.pm.sec.at_ = s.canopy.rtcSec
  afresh : (at_ t.pm.sec.links l).bip = 0
  views : t.pm.views = s.pm.views
  bins : t.pm.cur15 = s.pm.cur15
  deg : (s.link l).en = true → DegJudged (s.link l) (t.link l)

/-- What the judgement of availability leaves of performance monitoring. -/
def availApart (p : Perf) : Perf := { p with unav := 0, against := .replicate 4 0 }

theorem availApart_judgeAvail (l : Fin 4) (x : Perf × List DoneSecond) : availApart (judgeAvail l x.1 x.2).1 = availApart x.1 := by
  obtain ⟨p, ds⟩ := x
  unfold judgeAvail
  cases ds with
  | nil => rfl
  | cons d ds =>
    dsimp only
    generalize (if (at_ d.v l).ses = bit p.unav l.val then 0 else at_ p.against l + 1) = n
    split
    · rfl
    · split <;> rfl
theorem availApart_judgeAll (x : Perf × List DoneSecond) : availApart (judgeAll x).1 = availApart x.1 :=
  foldl_keeps (p := fun x : Perf × List DoneSecond => availApart x.1) _ (fun x l _ => availApart_judgeAvail l x) x

/-- The links after the judgement of DEG. -/
def degAll (s : State) : State := foldFin 4 (fun l s => s.degJudge l) s.pmVerdicts

theorem only_degAll (s : State) : OnlyChanges [.hl, .pm, .reports] s s.degAll :=
  ((only_pmVerdicts s).widen (by decide)).both (.foldFin (fun l t => only_degJudge t l) _)
theorem secondBegun_eq (s : State) : s.secondBegun = s.degAll.modPm fun p => { p with sec := s.degAll.newSecond } := rfl

theorem secondEnds_secondBegun (s : State) (l : Fin 4) : SecondEnds s s.secondBegun l := by
  obtain ⟨v, rest, u, hv, hlen, hw⟩ := judgeAll_leaves l s.pm s.doneSecond s.pm.waiting.reverse
  have hapart : s.degAll.pmApart = s.pmVerdicts.pmApart := pmApart_degAll s.pmVerdicts
  have hkept := availApart_judgeAll (s.pm, s.doneSecond :: s.pm.waiting.reverse)
  have hpm : s.pmVerdicts.pm = { (judgeAll (s.pm, s.doneSecond :: s.pm.waiting.reverse)).1 with
      waiting := (judgeAll (s.pm, s.doneSecond :: s.pm.waiting.reverse)).2.reverse } := congrArg State.pm (pmVerdicts_eq s)
  have hcanopy : s.degAll.canopy = s.canopy := only_degAll s .canopy (by decide)
  have hdeg : (s.link l).en = true → DegJudged (s.link l) (s.degAll.link l) := fun hen => degAll_link s.pmVerdicts l hen
  rw [secondBegun_eq]
  generalize judgeAll (s.pm, s.doneSecond :: s.pm.waiting.reverse) = y at hv hw hkept hpm
  obtain ⟨q, es⟩ := y
  generalize s.degAll = t at hapart hcanopy hdeg
  generalize s.pmVerdicts = w at hapart hpm
  have hwait : t.pm.waiting = w.pm.waiting := (congrArg Perf.waiting hapart : t.pmApart.waiting = w.pmApart.waiting)
  have hunav : t.pm.unav = w.pm.unav := (congrArg Perf.unav hapart : t.pmApart.unav = w.pmApart.unav)
  have hagainst : t.pm.against = w.pm.against := (congrArg Perf.against hapart : t.pmApart.against = w.pmApart.against)
  have hviews : t.pm.views = w.pm.views := (congrArg Perf.views hapart : t.pmApart.views = w.pmApart.views)
  have hbins : t.pm.cur15 = w.pm.cur15 := (congrArg Perf.cur15 hapart : t.pmApart.cur15 = w.pmApart.cur15)
  have hqviews : q.views = s.pm.views := (congrArg Perf.views hkept : (availApart q).views = (availApart s.pm).views)
  have hqbins : q.cur15 = s.pm.cur15 := (congrArg Perf.cur15 hkept : (availApart q).cur15 = (availApart s.pm).cur15)
  rw [hpm] at hwait hunav hagainst hviews hbins
  have hes : es = v :: rest := hv
  refine ⟨⟨v, rest.reverse, u, ?_, ?_, ⟨hw.seen, ?_, ?_, ?_⟩⟩, ?_, ?_, hviews.trans hqviews, hbins.trans hqbins, hdeg⟩
  · show t.pm.waiting = _
    rw [hwait, hes, List.reverse_cons]
  · rw [List.length_reverse, hlen, List.length_reverse]
  · intro h
    show bit t.pm.unav l.val = _ ∧ at_ t.pm.against l = _ ∧ _
    rw [hunav, hagainst]
    exact hw.uncounted h
  · intro h h'
    show bit t.pm.unav l.val = _ ∧ at_ t.pm.against l = _ ∧ _
    rw [hunav, hagainst]
    exact hw.stays h h'
  · intro h h'
    show bit t.pm.unav l.val = _ ∧ at_ t.pm.against l = _ ∧ _
    rw [hunav, hagainst]
    exact hw.turns h h'
  · exact congrArg Canopy.rtcSec hcanopy
  · show (at_ t.newSecond.links l).bip = 0
    simp [newSecond, at_]

/-! ## The views -/

theorem updateViews_pm (s : State) : ∃ views : Vector (Option Bin) 5, s.updateViews.pm = { s.pm with views := views } ∧
    ∃ b, at_ views 0 = some b ∧ b.upd = ((at_ s.pm.views 0).getD {}).upd + 1 ∧ b.start = s.pm.cur15.start := by
  refine ⟨_, rfl, { s.pm.cur15 with upd := ((at_ s.pm.views 0).getD {}).upd + 1 }, ?_, rfl, rfl⟩
  have h4 : at_ s.updateViews.pm.views 0 = at_ ((s.setView 0 s.pm.cur15).setView 2 s.pm.curDay).pm.views 0 := at_vset_ne _ _ (by decide)
  have h2 : at_ ((s.setView 0 s.pm.cur15).setView 2 s.pm.curDay).pm.views 0 = at_ (s.setView 0 s.pm.cur15).pm.views 0 :=
    at_vset_ne _ _ (by decide)
  exact h4.trans (h2.trans (at_vset_self _ _ _))

end State
end Sys2Proof.Machine
end

section
/-!
# Bins, run time and the history window (17 R638, R640–R649)
-/
namespace Sys2Proof.Machine
namespace State
variable {s : State} {l : Fin 4} {d : DoneSecond} {rest : List DoneSecond}

/-! ## Seconds in their bins -/

theorem rollBins_same (h15 : s.pm.open15 = true) (hday : s.pm.openDay = true) (hs15 : s.pm.cur15.start.toNat = d.at_ / 900 * 900)
    (hsday : s.pm.curDay.start.toNat = d.at_ / 86400 * 86400) : s.rollBins d = s.modPm fun p => { p with clkSet := false } := by
  have h1 : ¬ s.pm.cur15.start.toNat < d.at_ / 900 * 900 := by omega
  have h2 : ¬ s.pm.curDay.start.toNat < d.at_ / 86400 * 86400 := by omega
  unfold rollBins
  dsimp only
  rw [h15, Bool.not_true, if_neg Bool.false_ne_true, if_neg h1, hday, Bool.not_true, if_neg Bool.false_ne_true, if_neg h2]

theorem tcaLink_none (h : s.pm.tca = 0) (l : Fin 4) : s.tcaLink l = s := by
  have h1 : fld s.pm.tca 15 0 = 0 := by rw [h]; rfl
  have h2 : fld s.pm.tca 31 16 = 0 := by rw [h]; rfl
  unfold tcaLink
  simp only [h1, h2, ne_eq, not_true_eq_false, false_and, if_false]

theorem tcaAll_none (h : s.pm.tca = 0) : foldFin 4 (fun l s => s.tcaLink l) s = s := by
  unfold foldFin
  exact foldl_invariant (P := fun t => t = s) (fun t l ht => by rw [ht]; exact tcaLink_none h l) _ rfl

/-- A second counted in the current bins and the totals. -/
def counted (s : State) (d : DoneSecond) : State :=
  s.modPm fun p => { p with cur15 := p.cur15.add d, curDay := p.curDay.add d, life := p.life.add d }

/-- The second of the current intervals counted. -/
def countedHere (s : State) (d : DoneSecond) : State := (s.modPm fun p => { p with clkSet := false }).counted d

/-- The 15-minute bin closed when the second at_ is its last. -/
def end15 (s : State) (at_ : Nat) : State :=
  if s.pm.open15 ∧ s.pm.cur15.start.toNat + 899 = at_ then (s.close15 0).open15 (at_ + 1) else s
/-- The day bin closed when the second at_ is its last. -/
def endDay (s : State) (at_ : Nat) : State :=
  if s.pm.openDay ∧ s.pm.curDay.start.toNat + 86399 = at_ then (s.closeDay 0).openDay (at_ + 1) else s

theorem placeSecond_eq (s : State) (d : DoneSecond) : s.placeSecond d =
    ((foldFin 4 (fun l s => s.tcaLink l) ((if d.observed then s.rollBins d else s).counted d)).end15 d.at_).endDay d.at_ := rfl

theorem placeSecond_here (hobs : d.observed = true) (htca : s.pm.tca = 0) (h15 : s.pm.open15 = true) (hday : s.pm.openDay = true)
    (hs15 : s.pm.cur15.start.toNat = d.at_ / 900 * 900) (hsday : s.pm.curDay.start.toNat = d.at_ / 86400 * 86400) :
    s.placeSecond d = ((s.countedHere d).end15 d.at_).endDay d.at_ := by
  rw [placeSecond_eq, if_pos hobs, rollBins_same h15 hday hs15 hsday]
  exact congrArg (fun u : State => (u.end15 d.at_).endDay d.at_) (tcaAll_none (s := s.countedHere d) htca)

theorem end15_within (h : s.pm.cur15.start.toNat = d.at_ / 900 * 900) (hn : d.at_ % 900 ≠ 899) : s.end15 d.at_ = s :=
  if_neg fun hc => hn (by have := hc.2; rw [h] at this; have := Nat.div_add_mod d.at_ 900; omega)
theorem end15_last (h15 : s.pm.open15 = true) (h : s.pm.cur15.start.toNat = d.at_ / 900 * 900) (hn : d.at_ % 900 = 899) :
    s.end15 d.at_ = (s.close15 0).open15 (d.at_ + 1) := by
  refine if_pos ⟨h15, ?_⟩
  rw [h]
  have := Nat.div_add_mod d.at_ 900
  omega
theorem endDay_within (h : s.pm.curDay.start.toNat = d.at_ / 86400 * 86400) (hn : d.at_ % 86400 ≠ 86399) : s.endDay d.at_ = s :=
  if_neg fun hc => hn (by have := hc.2; rw [h] at this; have := Nat.div_add_mod d.at_ 86400; omega)

/-- The 15-minute bin in the history, its flag and its view. -/
def bin15Closed (s : State) (extra : BitVec 8) : State :=
  ((s.modPm fun p => { p with hist15 := (s.pm.cur15.closed 1 900 s.rs.ro extra :: p.hist15).take 32, open15 := false, cur15 := {} }).pmFlag
    mBIN).setView 1 (s.pm.cur15.closed 1 900 s.rs.ro extra)

theorem close15_eq (s : State) (extra : BitVec 8) : s.close15 extra =
    let t := ((s.bin15Closed extra).rsEnqueue 0x10 0 (s.bin15Closed extra).pm.curDay.bytes).writeLife
    if t.flt.unstored then t.storeLog else t := rfl
theorem pm_bin15Closed (s : State) (extra : BitVec 8) : ∃ views, (s.bin15Closed extra).pm = { s.pm with
    hist15 := (s.pm.cur15.closed 1 900 s.rs.ro extra :: s.pm.hist15).take 32, open15 := false, cur15 := {},
    flag := s.pm.flag ||| mBIN, views := views } := ⟨_, rfl⟩
theorem pm_writeLife (s : State) : s.writeLife.pm = { s.pm with sinceLife := 0 } := rfl

theorem pm_close15 (s : State) (extra : BitVec 8) : ∃ views, (s.close15 extra).pm = { s.pm with
    hist15 := (s.pm.cur15.closed 1 900 s.rs.ro extra :: s.pm.hist15).take 32, open15 := false, cur15 := {},
    flag := s.pm.flag ||| mBIN, views := views, sinceLife := 0 } := by
  obtain ⟨views, hpm⟩ := pm_bin15Closed s extra
  rw [close15_eq]
  generalize s.bin15Closed extra = u at hpm
  have ht : ((u.rsEnqueue 0x10 0 u.pm.curDay.bytes).writeLife).pm = { u.pm with sinceLife := 0 } := by
    rw [pm_writeLife, only_rsEnqueue u 0x10 0 u.pm.curDay.bytes .pm (by decide)]
  refine ⟨views, ?_⟩
  dsimp only
  generalize (u.rsEnqueue 0x10 0 u.pm.curDay.bytes).writeLife = v at ht
  rw [hpm] at ht
  split
  · rw [only_storeLog v .pm (by decide), ht]
  · exact ht

/-! ## What a placed second leaves -/

/-- The second out of the queue and counted where no interval ends. -/
def placed (s : State) (d : DoneSecond) (rest : List DoneSecond) : State :=
  (s.modPm fun p => { p with waiting := rest }).countedHere d

theorem pm_placed (s : State) (d : DoneSecond) (rest : List DoneSecond) : (s.placed d rest).pm = { s.pm with
    waiting := rest, clkSet := false, cur15 := s.pm.cur15.add d, curDay := s.pm.curDay.add d, life := s.pm.life.add d } := rfl
theorem only_placed (s : State) (d : DoneSecond) (rest : List DoneSecond) : OnlyChanges [.pm] s (s.placed d rest) :=
  ((only_modPm s _).both (only_modPm _ _)).both (only_modPm _ _)

/-- The second is due: ten seconds after it ended, with the supervisor running. -/
theorem pmBinPlace_due (hw : s.pm.waiting = d :: rest) (hr : s.flt.supReset = false)
    (hdue : 11 ≤ (s.canopy.rtcSec - .ofNat 32 d.at_).toNat) :
    s.pmBinPlace = (s.modPm fun p => { p with waiting := rest }).placeSecond d := by
  unfold pmBinPlace
  rw [hr, hw]
  exact if_pos hdue
theorem pmBinPlace_early (hw : s.pm.waiting = d :: rest) (hdue : (s.canopy.rtcSec - .ofNat 32 d.at_).toNat < 11) : s.pmBinPlace = s := by
  unfold pmBinPlace
  rw [hw]
  dsimp only
  rw [if_neg (Nat.not_le.2 hdue), ite_self]
theorem pmBinPlace_idle (h : s.pm.waiting = [] ∨ s.flt.supReset = true) : s.pmBinPlace = s := by
  unfold pmBinPlace
  obtain h | h := h
  · rw [h]
    exact ite_self s
  · exact if_pos h

section
variable (hw : s.pm.waiting = d :: rest) (hr : s.flt.supReset = false) (hdue : 11 ≤ (s.canopy.rtcSec - .ofNat 32 d.at_).toNat)
  (hobs : d.observed = true) (htca : s.pm.tca = 0) (h15 : s.pm.open15 = true) (hday : s.pm.openDay = true)
  (hs15 : s.pm.cur15.start.toNat = d.at_ / 900 * 900) (hsday : s.pm.curDay.start.toNat = d.at_ / 86400 * 86400)
  (hlast : d.at_ % 86400 ≠ 86399)
include hw hr hdue hobs htca h15 hday hs15 hsday hlast

theorem pmBinPlace_within (hn : d.at_ % 900 ≠ 899) : s.pmBinPlace = s.placed d rest := by
  rw [pmBinPlace_due hw hr hdue, placeSecond_here (s := s.modPm fun p => { p with waiting := rest }) hobs htca h15 hday hs15 hsday]
  show ((s.placed d rest).end15 d.at_).endDay d.at_ = _
  rw [end15_within (s := s.placed d rest) hs15 hn, endDay_within (s := s.placed d rest) hsday hlast]

theorem pmBinPlace_last (hn : d.at_ % 900 = 899) : s.pmBinPlace = ((s.placed d rest).close15 0).open15 (d.at_ + 1) := by
  rw [pmBinPlace_due hw hr hdue, placeSecond_here (s := s.modPm fun p => { p with waiting := rest }) hobs htca h15 hday hs15 hsday]
  show ((s.placed d rest).end15 d.at_).endDay d.at_ = _
  rw [end15_last (s := s.placed d rest) h15 hs15 hn]
  refine endDay_within ?_ hlast
  obtain ⟨views, hpm⟩ := pm_close15 (s.placed d rest) 0
  show ((s.placed d rest).close15 0).pm.curDay.start.toNat = _
  rw [hpm]
  exact hsday

end

theorem at_links_add (b : Bin) (d : DoneSecond) (l : Fin 4) : at_ (b.add d).links l = addVerdict (at_ d.v l) (at_ b.links l) := by
  simp [Bin.add, at_]

theorem closed_flags (b : Bin) (ro : Bool) : bit (b.closed 1 900 ro 0).flags 1 = true ↔ bit b.flags 1 = true ∨ b.obs < 900 := by
  have h : (b.closed 1 900 ro 0).flags = b.flags ||| 0 ||| (if b.obs < 900 then bPARTIAL else 0) ||| (if ro then bVOLATILE else 0) := rfl
  have hv : bit (if ro then bVOLATILE else 0) 1 = false := by cases ro <;> decide
  have hp : bit (if b.obs < 900 then bPARTIAL else 0) 1 = decide (b.obs < 900) := by
    by_cases ho : b.obs < 900
    · rw [if_pos ho, decide_eq_true ho]; decide
    · rw [if_neg ho, decide_eq_false ho]; decide
  rw [h, bit_or, bit_or, bit_or, hv, hp, Bool.or_false]
  simp [bit]

theorem bit_flags_add (b : Bin) (d : DoneSecond) {i : Nat} (hi : i ≠ 0) : bit (b.add d).flags i = bit b.flags i := by
  show bit (if d.suspect then b.flags ||| bSUSPECT else b.flags) i = _
  split
  · have : bit bSUSPECT i = false := by
      show bit (oneBit 8 0) i = false
      rw [bit_oneBit (by decide), decide_eq_false hi]
    rw [bit_or, this, Bool.or_false]
  · rfl

/-! ## Run time, and the history bin -/

theorem runTimeMs_iff (s : State) : (bit s.pm.cfg 3 && s.tbs.run && !s.cyc.runMs && decide (s.tb.toNat % 200000 = 0) &&
      decide ((s.ad 0).st = .locked) && (groveChans (Fin.ofNat 8 (fld s.pm.cfg 6 4))).any (fun n => !(s.chan n).o.inClr)) = true ↔
    (s.cyc.runMs = false ∧ bit s.pm.cfg 3 = true ∧ s.tbs.run = true ∧ s.tb.toNat % 200000 = 0 ∧ (s.ad 0).st = .locked ∧
      ∃ k, (s.chan (chanOf (Fin.ofNat 8 (fld s.pm.cfg 6 4)) k)).o.inClr = false) := by
  have hany : (groveChans (Fin.ofNat 8 (fld s.pm.cfg 6 4))).any (fun n => !(s.chan n).o.inClr) = true ↔
      ∃ k, (s.chan (chanOf (Fin.ofNat 8 (fld s.pm.cfg 6 4)) k)).o.inClr = false := by
    simp [groveChans]
  simp only [Bool.and_eq_true, hany, Bool.not_eq_true', decide_eq_true_eq]
  tauto

/-- A millisecond of run time counted. -/
def msCounted (s : State) : State :=
  (s.modPm fun p =>
    { p with sec := { p.sec with run := p.sec.run + 1 }, runMs := (p.runMs + 1) % 1000, runSec := addSat p.runSec ((p.runMs + 1) / 1000) }).modCyc
    fun y => { y with runMs := true }

theorem runTimeMs_on (h : s.cyc.runMs = false ∧ bit s.pm.cfg 3 = true ∧ s.tbs.run = true ∧ s.tb.toNat % 200000 = 0 ∧
    (s.ad 0).st = .locked ∧ ∃ k, (s.chan (chanOf (Fin.ofNat 8 (fld s.pm.cfg 6 4)) k)).o.inClr = false) :
    s.runTimeMs = s.msCounted := if_pos ((runTimeMs_iff s).2 h)
theorem runTimeMs_off (h : ¬ (s.cyc.runMs = false ∧ bit s.pm.cfg 3 = true ∧ s.tbs.run = true ∧ s.tb.toNat % 200000 = 0 ∧
    (s.ad 0).st = .locked ∧ ∃ k, (s.chan (chanOf (Fin.ofNat 8 (fld s.pm.cfg 6 4)) k)).o.inClr = false)) :
    s.runTimeMs = s := if_neg fun hc => h ((runTimeMs_iff s).1 hc)

theorem addSat_zero (w : Word) : addSat w 0 = w := by
  unfold addSat satOf
  rw [Nat.add_zero, if_pos w.isLt, BitVec.ofNat_toNat, BitVec.setWidth_eq]

theorem pmWinReady_still (h : s.pm.selKind = 0 ∨ s.pm.selRdy = true ∨ s.flt.supReset = true) : s.pmWinReady = s := if_pos h
theorem pmWinReady_copies (hk : s.pm.selKind ≠ 0) (hs : s.pm.selRdy = false) (hr : s.flt.supReset = false) :
    s.pmWinReady = s.modPm fun p => { p with selRdy := true, win := some s.selBin } := by
  unfold pmWinReady
  rw [hs, hr]
  exact if_neg fun h => h.elim hk fun h => h.elim Bool.false_ne_true Bool.false_ne_true

end State
end Sys2Proof.Machine
end

section
/-!
# The record store (17 R652–R660, R665, R668)
-/
namespace Sys2Proof.Machine
namespace State
variable {s : State}

/-! ## Sectors -/

theorem sector_setSector (hwf : cellWf {} s.rs.sectors = true) (n j : Nat) (x : Sector) :
    (s.setSector n x).sector j = if j = n then x else s.sector j := cellRead_write _ _ _ _ _ hwf
theorem wf_setSector (hwf : cellWf {} s.rs.sectors = true) (n : Nat) (x : Sector) : cellWf {} (s.setSector n x).rs.sectors = true :=
  cellWf_write _ _ _ _ hwf

/-- The head can take n pages more. -/
def Roomy (s : State) (n : Nat) : Prop := (s.sector s.rs.head).st = .service ∧ (s.sector s.rs.head).used + n ≤ 63

theorem rsRoom_same {n : Nat} (h : s.Roomy n) : s.rsRoom n = s := if_pos h

/-- A version as it is put. -/
def versionPut (s : State) (type index : BitVec 8) (seq : Word) (data : List Byte) : RsVersion :=
  { type := type, index := index, seq := seq, pages := pagesOf data.length, sector := s.rs.head, data := data }

/-- The head's pages taken and the version listed. -/
def putHere (s : State) (type index : BitVec 8) (seq : Word) (data : List Byte) : State :=
  (s.setSector s.rs.head { s.sector s.rs.head with used := (s.sector s.rs.head).used + pagesOf data.length }).modRs fun r =>
    { r with versions := r.versions ++ [s.versionPut type index seq data] }

theorem rsPut_eq (s : State) (type index : BitVec 8) (seq : Word) (data : List Byte) :
    s.rsPut type index seq data = (s.rsRoom (pagesOf data.length)).putHere type index seq data := rfl
theorem only_putHere (s : State) (type index : BitVec 8) (seq : Word) (data : List Byte) : OnlyChanges [.rs] s (s.putHere type index seq data) :=
  (only_setSector s _ _).both (only_modRs _ _)

/-- The record store but its head, sectors and versions. -/
def storeApart (s : State) : RecStore := { s.rs with head := 0, sectors := [], versions := [] }

theorem storeApart_rsRoom (s : State) (n : Nat) : (s.rsRoom n).storeApart = s.storeApart := by
  unfold rsRoom
  dsimp only
  split
  · rfl
  · split <;> rfl
theorem sectors_rsRoom (s : State) (n : Nat) : (s.rsRoom n).rs.sectors = s.rs.sectors := by
  unfold rsRoom
  dsimp only
  split
  · rfl
  · split <;> rfl
theorem storeApart_putHere (s : State) (type index : BitVec 8) (seq : Word) (data : List Byte) :
    (s.putHere type index seq data).storeApart = s.storeApart := rfl
theorem storeApart_rsPut (s : State) (type index : BitVec 8) (seq : Word) (data : List Byte) :
    (s.rsPut type index seq data).storeApart = s.storeApart := by
  rw [rsPut_eq, storeApart_putHere, storeApart_rsRoom]

/-- A put keeps the states of the sectors. -/
theorem st_rsPut (hwf : cellWf {} s.rs.sectors = true) (type index : BitVec 8) (seq : Word) (data : List Byte) :
    cellWf {} (s.rsPut type index seq data).rs.sectors = true ∧ ∀ k, ((s.rsPut type index seq data).sector k).st = (s.sector k).st := by
  have hsec := sectors_rsRoom s (pagesOf data.length)
  rw [rsPut_eq]
  generalize s.rsRoom (pagesOf data.length) = t at hsec
  have hwt : cellWf {} t.rs.sectors = true := hsec ▸ hwf
  have hsame : ∀ k, t.sector k = s.sector k := fun k => congrArg (fun m => cellRead ({} : Sector) m k) hsec
  refine ⟨wf_setSector hwt _ _, fun k => ?_⟩
  show ((t.setSector t.rs.head _).sector k).st = _
  rw [sector_setSector hwt, ← hsame]
  split
  · next h => rw [h]
  · rfl

/-! ## The sector to compact -/

theorem sector_putHere_self (hwf : cellWf {} s.rs.sectors = true) (type index : BitVec 8) (seq : Word) (data : List Byte) :
    (s.putHere type index seq data).sector s.rs.head =
      { s.sector s.rs.head with used := (s.sector s.rs.head).used + pagesOf data.length } := by
  show (s.setSector s.rs.head _).sector s.rs.head = _
  rw [sector_setSector hwf, if_pos rfl]
theorem sector_putHere_ne (hwf : cellWf {} s.rs.sectors = true) {k : Nat} (h : k ≠ s.rs.head) (type index : BitVec 8) (seq : Word)
    (data : List Byte) : (s.putHere type index seq data).sector k = s.sector k := by
  show (s.setSector s.rs.head _).sector k = _
  rw [sector_setSector hwf, if_neg h]
theorem head_putHere (s : State) (type index : BitVec 8) (seq : Word) (data : List Byte) :
    (s.putHere type index seq data).rs.head = s.rs.head := rfl

theorem blankSectors_putHere (hwf : cellWf {} s.rs.sectors = true) (type index : BitVec 8) (seq : Word) (data : List Byte) :
    (s.putHere type index seq data).blankSectors = s.blankSectors := by
  unfold blankSectors
  rw [head_putHere]
  refine List.filter_congr fun k _ => ?_
  by_cases h : k = s.rs.head
  · rw [decide_eq_false (not_not.2 h), Bool.and_false, Bool.and_false]
  · rw [sector_putHere_ne hwf h]

theorem rsCompact_room (h : 2 ≤ s.blankSectors.length) : s.rsCompact = s := if_pos h
theorem rsCompact_short (h : s.blankSectors.length < 2) : s.rsCompact = s.modRs fun r => { r with compact := s.rsVictim } :=
  if_neg (Nat.not_le.2 h)

/-- A sector that may be compacted. -/
def Compactable (s : State) (k : Nat) : Prop :=
  k < 64 ∧ k ≠ s.rs.head ∧ (s.sector k).st = .service ∧ (s.sector k).used ≠ 0

theorem lexLt_pages (a b c x y z : Nat) : lexLt [a, b, c] [x, y, z] = true ↔ a < x ∨ (a = x ∧ (b < y ∨ (b = y ∧ c < z))) :=
  lexLt_three a b c x y z

theorem rsVictim_least {k : Nat} (h : s.rsVictim = some k) : s.Compactable k ∧ ∀ j, s.Compactable j →
    s.currentPages k < s.currentPages j ∨ s.currentPages k = s.currentPages j ∧ (s.sector k).cycles ≤ (s.sector j).cycles := by
  have hmem : ∀ j, j ∈ ((List.range 64).filter fun k => decide ((s.sector k).st = .service) && decide ((s.sector k).used ≠ 0) &&
      decide (k ≠ s.rs.head)) ↔ s.Compactable j := by
    intro j
    unfold Compactable
    simp only [List.mem_filter, List.mem_range, Bool.and_eq_true, decide_eq_true_eq]
    tauto
  refine ⟨(hmem k).1 (mem_of_leastBy h), fun j hj => ?_⟩
  have hmin := leastBy_min (key := fun k => [s.currentPages k, (s.sector k).cycles, k]) (fun x y z h1 h2 => by
    rw [Bool.eq_false_iff, Ne, lexLt_three] at h1 h2 ⊢
    omega) h j ((hmem j).2 hj)
  rw [Bool.eq_false_iff, Ne, lexLt_three] at hmin
  omega

/-! ## The number of a version -/

theorem nextSeq_fold {x : RsVersion} (vs : List RsVersion) : ∀ m : Word, (∀ v ∈ vs, v.seq.toNat ≤ x.seq.toNat) →
    m.toNat ≤ x.seq.toNat → (m = x.seq ∨ x ∈ vs) → vs.foldl (fun m v => if m.toNat < v.seq.toNat then v.seq else m) m = x.seq := by
  induction vs with
  | nil => exact fun m _ _ h => h.resolve_right List.not_mem_nil
  | cons v vs ih =>
    intro m hmax hm hx
    rw [List.foldl_cons]
    have hv := hmax v List.mem_cons_self
    refine ih _ (fun w hw => hmax w (List.mem_cons_of_mem _ hw)) (by split <;> assumption) ?_
    obtain rfl | hx := hx
    · exact .inl (if_neg (Nat.not_lt.2 hv))
    · obtain rfl | hx := List.mem_cons.1 hx
      · split
        · exact .inl rfl
        · next hlt => exact .inl (BitVec.eq_of_toNat_eq (by omega))
      · exact .inr hx

theorem nextSeq_max {x : RsVersion} (hx : x ∈ s.rs.versions) (hmax : ∀ y ∈ s.rs.versions, y.type = x.type → y.index = x.index →
    y.seq.toNat ≤ x.seq.toNat) : s.nextSeq x.type x.index = x.seq + 1 := by
  unfold nextSeq
  rw [nextSeq_fold (x := x)]
  · intro v hv
    obtain ⟨hv, hm⟩ := List.mem_filter.1 hv
    obtain ⟨h1, h2⟩ := of_decide_eq_true hm
    exact hmax v hv h1 h2
  · exact Nat.zero_le _
  · exact .inr (List.mem_filter.2 ⟨hx, decide_eq_true ⟨rfl, rfl⟩⟩)

/-! ## Operations that end -/

/-- The operation in progress has ended. -/
def opEnded (s : State) : State := s.modRs fun r => { r with op := false }
/-- The operation has ended and the queue is shorter. -/
def writeTaken (s : State) (rest : List RsWrite) : State := s.opEnded.modRs fun r => { r with queue := rest }

theorem rsRecordWrite_idle {pages retries fails : Nat} {bad : Bool} (h : s.rs.op = false ∨ s.rs.ready = false) :
    s.rsRecordWrite pages retries fails bad = s := by
  refine if_pos ?_
  obtain h | h := h
  · rw [h]; exact Bool.or_true _
  · rw [h]; rfl

section
variable (hop : s.rs.op = true) (hready : s.rs.ready = true)
include hop hready

theorem rsRecordWrite_busy : ¬ (!s.rs.ready || !s.rs.op) = true := by
  rw [hop, hready]
  exact Bool.false_ne_true

theorem rsRecordWrite_compact {k : Nat} (hc : s.rs.compact = some k) (pages retries fails : Nat) (bad : Bool) :
    s.rsRecordWrite pages retries fails bad = s.opEnded.rsCompactStep k pages retries fails bad := by
  have hc' : (s.modRs fun r => { r with op := false }).rs.compact = some k := hc
  unfold rsRecordWrite
  rw [if_neg (rsRecordWrite_busy hop hready)]
  dsimp only
  rw [hc']
  rfl

theorem rsRecordWrite_empty (hc : s.rs.compact = none) (hq : s.rs.queue = []) (pages retries fails : Nat) (bad : Bool) :
    s.rsRecordWrite pages retries fails bad = s.opEnded := by
  have hc' : (s.modRs fun r => { r with op := false }).rs.compact = none := hc
  have hq' : (s.modRs fun r => { r with op := false }).rs.queue = [] := hq
  unfold rsRecordWrite
  rw [if_neg (rsRecordWrite_busy hop hready)]
  dsimp only
  rw [hc', hq']
  rfl

variable {q : RsWrite} {qs : List RsWrite}

theorem rsRecordWrite_write (hc : s.rs.compact = none) (hq : s.rs.queue = q :: qs) (pages retries fails : Nat) (bad : Bool) :
    s.rsRecordWrite pages retries fails bad = if s.rs.ro then (s.writeTaken qs).rsRefuse q.type else
      (rsFails (pagesOf q.data.length) fails ((s.writeTaken qs).rsRetries pages retries)).rsCommit q.type q.index q.data := by
  have hc' : (s.modRs fun r => { r with op := false }).rs.compact = none := hc
  have hq' : (s.modRs fun r => { r with op := false }).rs.queue = q :: qs := hq
  unfold rsRecordWrite
  rw [if_neg (rsRecordWrite_busy hop hready)]
  dsimp only
  rw [hc', hq']
  rfl

end

/-! ## Refusals, retries and retirements -/

theorem rsRefuse_rs (s : State) (type : BitVec 8) : (s.rsRefuse type).rs = { s.rs with
    cntRefused := satInc s.rs.cntRefused, refusals := s.rs.refusals + 1, flag := s.rs.flag ||| kREFUSED } := by
  unfold rsRefuse
  dsimp only
  rw [only_postAll _ _ _ _ _ _ _ _ _ .rs (by decide)]
  rfl

theorem rsRetries_rs (s : State) (pages : Nat) {retries : Nat} (h : retries ≠ 0) : (s.rsRetries pages retries).rs = { s.rs with
    retryPages := satOf 16 (s.rs.retryPages.toNat + pages), retries := satOf 16 (s.rs.retries.toNat + retries),
    flag := s.rs.flag ||| kRETRY } := by
  unfold rsRetries
  rw [if_neg h]
  rfl
theorem rsRetries_none (s : State) (pages : Nat) : s.rsRetries pages 0 = s := if_pos rfl
theorem only_rsRetries (s : State) (pages retries : Nat) : OnlyChanges [.pm, .rs] s (s.rsRetries pages retries) :=
  .ite (.refl _ _) ((((only_modRs s _).widen (by decide)).also (only_rsFlag _ _) (by decide)).also (only_modPm _ _) (by decide))

/-- The store is read-only. -/
def readOnly (s : State) : State := (s.modRs fun r => { r with ro := true }).rsFlag kRO

theorem rsRetire_last (h : s.spareSectors = []) (k : Nat) : OnlyChanges [.sc] s.readOnly (s.rsRetire k) := by
  unfold rsRetire
  rw [h]
  exact only_postAll _ _ _ _ _ _ _ _ _

/-- Sector k out of service, with spare p in its place. -/
def sectorSwapped (s : State) (p k : Nat) : State :=
  let s := s.setSector p { s.sector p with st := .service }
  s.setSector k { s.sector k with st := .retired }
/-- Sector k retired and its current records moved to the head, with spare p in service. -/
def retired (s : State) (p k : Nat) : State :=
  (((s.sectorSwapped p k).rsMoveOut k).modRs fun r => { r with lastRetired := .ofNat 6 k }).rsFlag kRETIRE

theorem st_sectorSwapped (hwf : cellWf {} s.rs.sectors = true) (p k : Nat) :
    cellWf {} (s.sectorSwapped p k).rs.sectors = true ∧ ((s.sectorSwapped p k).sector k).st = .retired := by
  have hu := wf_setSector hwf p { s.sector p with st := .service }
  refine ⟨wf_setSector hu _ _, ?_⟩
  unfold sectorSwapped
  dsimp only
  rw [sector_setSector hu, if_pos rfl]

theorem rsRetire_spare {p : Nat} {rest : List Nat} (h : s.spareSectors = p :: rest) (k : Nat) : OnlyChanges [.sc] (s.retired p k) (s.rsRetire k) := by
  unfold rsRetire
  rw [h]
  exact only_postAll _ _ _ _ _ _ _ _ _

/-- Puts in turn keep the sectors' states and all of the store but its head, sectors and versions. -/
theorem puts_keep {α : Type} {f : State → α → State} (hf : ∀ t a, ∃ type index seq data, f t a = t.rsPut type index seq data) (vs : List α)
    (hwf : cellWf {} s.rs.sectors = true) : cellWf {} (vs.foldl f s).rs.sectors = true ∧
      (∀ k, ((vs.foldl f s).sector k).st = (s.sector k).st) ∧ (vs.foldl f s).storeApart = s.storeApart ∧ OnlyChanges [.rs] s (vs.foldl f s) := by
  refine foldl_invariant (P := fun t : State => cellWf {} t.rs.sectors = true ∧ (∀ k, (t.sector k).st = (s.sector k).st) ∧
    t.storeApart = s.storeApart ∧ OnlyChanges [.rs] s t) (fun t a ⟨h1, h2, h3, h4⟩ => ?_) vs ⟨hwf, fun _ => rfl, rfl, .refl _ _⟩
  obtain ⟨type, index, seq, data, ha⟩ := hf t a
  rw [ha]
  obtain ⟨k1, k2⟩ := st_rsPut h1 type index seq data
  exact ⟨k1, fun k => (k2 k).trans (h2 k), (storeApart_rsPut t _ _ _ _).trans h3, h4.both (only_rsPut _ _ _ _ _)⟩

/-- What a retirement leaves of the store. -/
structure Retired (s t : State) (k : Nat) : Prop where
  wf : cellWf {} t.rs.sectors = true
  st : (t.sector k).st = .retired
  last : t.rs.lastRetired = .ofNat 6 k
  flag : bit t.rs.flag 1 = true
  ro : t.rs.ro = s.rs.ro
  queue : t.rs.queue = s.rs.queue

theorem retired_leaves (hwf : cellWf {} s.rs.sectors = true) (p k : Nat) : OnlyChanges [.rs] s (s.retired p k) ∧ Retired s (s.retired p k) k := by
  obtain ⟨hv, hst⟩ := st_sectorSwapped hwf p k
  have hapart : (s.sectorSwapped p k).storeApart = s.storeApart := rfl
  have hframe : OnlyChanges [.rs] s (s.sectorSwapped p k) := (only_setSector s _ _).both (only_setSector _ _ _)
  have hmove : (s.sectorSwapped p k).rsMoveOut k =
      ((s.sectorSwapped p k).currentIn k).foldl (fun s v => s.rsPut v.type v.index v.seq v.data)
        ((s.sectorSwapped p k).modRs fun r => { r with versions := r.versions.filter fun v => decide (v.sector ≠ k) }) := rfl
  unfold retired
  generalize s.sectorSwapped p k = w at hv hst hapart hframe hmove
  obtain ⟨h1, h2, h3, h4⟩ := puts_keep (s := w.modRs fun r => { r with versions := r.versions.filter fun v => decide (v.sector ≠ k) })
    (f := fun s v => s.rsPut v.type v.index v.seq v.data) (fun t a => ⟨a.type, a.index, a.seq, a.data, rfl⟩) (w.currentIn k) hv
  rw [← hmove] at h1 h2 h3 h4
  generalize w.rsMoveOut k = x at h1 h2 h3 h4
  have hro : x.rs.ro = s.rs.ro := (congrArg RecStore.ro (h3.trans hapart) : x.storeApart.ro = s.storeApart.ro)
  have hqu : x.rs.queue = s.rs.queue := (congrArg RecStore.queue (h3.trans hapart) : x.storeApart.queue = s.storeApart.queue)
  refine ⟨(((hframe.both (only_modRs _ _)).both h4).both (only_modRs _ _)).both (only_rsFlag _ _), h1, (h2 k).trans hst, rfl, ?_, hro, hqu⟩
  show bit (_ ||| kRETIRE) 1 = true
  rw [bit_or, show bit kRETIRE 1 = true by decide, Bool.or_true]

end State
end Sys2Proof.Machine
end

section
/-!
# The end of a store operation (17 R655–R660, R665)
-/
namespace Sys2Proof.Machine
namespace State
variable {s t : State} {q : RsWrite} {qs : List RsWrite} {k : Nat}

/-! ## A record written -/

/-- What the write of a queued record leaves, before the judgement of space. -/
def queuedPut (s : State) (q : RsWrite) : State := s.putHere q.type q.index (s.nextSeq q.type q.index) q.data

theorem rsCommit_roomy (hro : s.rs.ro = false) (h : s.Roomy (pagesOf q.data.length)) : s.rsCommit q.type q.index q.data =
    (s.queuedPut q).rsCompact := by
  unfold rsCommit
  rw [hro, if_neg Bool.false_ne_true, rsPut_eq, rsRoom_same h]
  rfl

/-- The sector chosen where blank ones are short. -/
theorem rsCompact_choice (hwf : cellWf {} s.rs.sectors = true) (hshort : s.blankSectors.length < 2) {k : Nat}
    (hk : (s.queuedPut q).rsCompact.rs.compact = some k) : s.Compactable k ∧ ∀ j, s.Compactable j →
      (s.queuedPut q).rsCompact.currentPages k < (s.queuedPut q).rsCompact.currentPages j ∨
      (s.queuedPut q).rsCompact.currentPages k = (s.queuedPut q).rsCompact.currentPages j ∧ (s.sector k).cycles ≤ (s.sector j).cycles := by
  have hsec : ∀ j, j ≠ s.rs.head → (s.queuedPut q).sector j = s.sector j := fun j hj => sector_putHere_ne hwf hj _ _ _ _
  have hhead : (s.queuedPut q).rs.head = s.rs.head := rfl
  have hblank : (s.queuedPut q).blankSectors = s.blankSectors := blankSectors_putHere hwf _ _ _ _
  generalize s.queuedPut q = t at hk hsec hhead hblank
  rw [rsCompact_short (hblank ▸ hshort)] at hk ⊢
  have hpages : ∀ j, (t.modRs fun r => { r with compact := t.rsVictim }).currentPages j = t.currentPages j := fun _ => rfl
  have hcan : ∀ j, t.Compactable j ↔ s.Compactable j := by
    intro j
    unfold Compactable
    rw [hhead]
    by_cases hj : j = s.rs.head
    · simp [hj]
    · rw [hsec j hj]
  obtain ⟨h1, h2⟩ := rsVictim_least (s := t) hk
  refine ⟨(hcan k).1 h1, fun j hj => ?_⟩
  rw [hpages, hpages, ← hsec k (hhead ▸ h1.2.1), ← hsec j hj.2.1]
  exact h2 j ((hcan j).2 hj)

/-- A queued record's write with its retries. -/
theorem rsRecordWrite_put (hop : s.rs.op = true) (hready : s.rs.ready = true) (hc : s.rs.compact = none) (hq : s.rs.queue = q :: qs)
    (hro : s.rs.ro = false) (hroom : s.Roomy (pagesOf q.data.length)) (pages retries : Nat) (bad : Bool) :
    s.rsRecordWrite pages retries 0 bad = (((s.writeTaken qs).rsRetries pages retries).queuedPut q).rsCompact := by
  have hrs : ((s.writeTaken qs).rsRetries pages retries).rs.ro = false ∧ ((s.writeTaken qs).rsRetries pages retries).Roomy
      (pagesOf q.data.length) := by
    by_cases h0 : retries = 0
    · rw [h0, rsRetries_none]
      exact ⟨hro, hroom⟩
    · have hrs := rsRetries_rs (s.writeTaken qs) pages h0
      unfold Roomy sector
      rw [hrs]
      exact ⟨hro, hroom⟩
  rw [rsRecordWrite_write hop hready hc hq, hro, if_neg Bool.false_ne_true, rsFails]
  exact rsCommit_roomy hrs.1 hrs.2

/-- What that write leaves of the store. -/
structure RecordStored (s t : State) (q : RsWrite) (qs : List RsWrite) : Prop where
  op : t.rs.op = false
  queue : t.rs.queue = qs
  used : (t.sector s.rs.head).used = (s.sector s.rs.head).used + pagesOf q.data.length
  head : t.rs.head = s.rs.head
  blank : 2 ≤ s.blankSectors.length → t.rs.compact = none
  short : s.blankSectors.length < 2 → ∀ k, t.rs.compact = some k → s.Compactable k ∧ ∀ j, s.Compactable j →
    t.currentPages k < t.currentPages j ∨ t.currentPages k = t.currentPages j ∧ (s.sector k).cycles ≤ (s.sector j).cycles
  versions : t.rs.versions = s.rs.versions ++ [s.versionPut q.type q.index (s.nextSeq q.type q.index) q.data]

theorem recordStored_of (w : State) (hwf : cellWf {} s.rs.sectors = true) (hop : w.rs.op = false)
    (hqueue : w.rs.queue = qs) (hsectors : w.rs.sectors = s.rs.sectors) (hhead : w.rs.head = s.rs.head) (hversions : w.rs.versions = s.rs.versions)
    (hcw : w.rs.compact = none) : RecordStored s (w.queuedPut q).rsCompact q qs := by
  have hwfw : cellWf {} w.rs.sectors = true := hsectors ▸ hwf
  have hsec : ∀ j, w.sector j = s.sector j := fun j => congrArg (fun m => cellRead ({} : Sector) m j) hsectors
  have hblank : w.blankSectors = s.blankSectors := by
    unfold blankSectors
    rw [hhead]
    exact List.filter_congr fun j _ => by rw [hsec]
  have hcan : ∀ j, w.Compactable j ↔ s.Compactable j := fun j => by unfold Compactable; rw [hhead, hsec]
  have hsame : (w.queuedPut q).rsCompact.rs = { (w.queuedPut q).rs with compact := (w.queuedPut q).rsCompact.rs.compact } := by
    unfold rsCompact
    split <;> rfl
  have hput := sector_putHere_self (s := w) hwfw q.type q.index (w.nextSeq q.type q.index) q.data
  have hversion : w.versionPut q.type q.index (w.nextSeq q.type q.index) q.data =
      s.versionPut q.type q.index (s.nextSeq q.type q.index) q.data := by
    unfold versionPut nextSeq
    rw [hhead, hversions]
  refine ⟨?_, ?_, ?_, ?_, fun h => ?_, fun h k hk => ?_, ?_⟩
  · rw [hsame]; exact hop
  · rw [hsame]; exact hqueue
  · have hs : (w.queuedPut q).rsCompact.sector s.rs.head = (w.queuedPut q).sector s.rs.head := by unfold sector; rw [hsame]
    rw [hs, ← hhead]
    exact (congrArg Sector.used hput).trans (by rw [hsec])
  · rw [hsame]; exact hhead
  · rw [rsCompact_room (s := w.queuedPut q) (by rw [queuedPut, blankSectors_putHere hwfw, hblank]; exact h)]
    exact hcw
  · obtain ⟨h1, h2⟩ := rsCompact_choice hwfw (hblank ▸ h) hk
    refine ⟨(hcan k).1 h1, fun j hj => ?_⟩
    rw [← hsec k, ← hsec j]
    exact h2 j ((hcan j).2 hj)
  · rw [hsame, ← hversion]
    show w.rs.versions ++ _ = _
    rw [hversions]

end State
end Sys2Proof.Machine
end

section
/-!
# O55: the record store's commands (17 R655–R660, R665, R668)
-/
namespace Sys2Proof.Machine
open State

section
variable {s : State} {q : RsWrite} {qs : List RsWrite} {k : Nat} {x : RsVersion} {xs : List RsVersion}
  {pages retries fails : Nat} {badErase : Bool} {bad : List Nat}

/-! ## Failures and refusals -/

theorem State.rsFails_one (hro : s.rs.ro = false) {pg : Nat} (hroom : s.Roomy pg) : rsFails pg 1 s = s.rsRetire s.rs.head := by
  unfold rsFails
  rw [hro, if_neg Bool.false_ne_true, rsRoom_same hroom]
  rfl

/-- A read-only store refuses the record. -/
theorem recordRefused (hup : s.pwr.pd1Up = true) (hop : s.rs.op = true) (hready : s.rs.ready = true) (hc : s.rs.compact = none)
    (hq : s.rs.queue = q :: qs) (hro : s.rs.ro = true) : Completes (.rsRecordWrite pages retries fails badErase) s [.sc, .rs] fun t =>
      t.rs.op = false ∧ t.rs.queue = qs ∧ t.rs.versions = s.rs.versions ∧ t.rs.cntRefused = satInc s.rs.cntRefused ∧
        bit t.rs.flag 3 = true := by
  have hx : s.rsRecordWrite pages retries fails badErase = (s.writeTaken qs).rsRefuse q.type := by
    rw [rsRecordWrite_write hop hready hc hq, hro]
    rfl
  refine completes_seated (f := fun s => s.rsRecordWrite pages retries fails badErase) rfl hup hx ?_
    ((((only_modRs s _).both (only_modRs _ _)).widen (by decide)).both (only_rsRefuse _ _))
  rw [rsRefuse_rs]
  refine ⟨rfl, rfl, rfl, rfl, ?_⟩
  show bit (_ ||| kREFUSED) 3 = true
  rw [bit_or, show bit kREFUSED 3 = true by decide, Bool.or_true]

theorem only_writeTaken (s : State) (qs : List RsWrite) : OnlyChanges [.rs] s (s.writeTaken qs) := (only_modRs s _).both (only_modRs _ _)

section
variable (hup : s.pwr.pd1Up = true) (hop : s.rs.op = true) (hready : s.rs.ready = true) (hwf : cellWf {} s.rs.sectors = true)
  (hc : s.rs.compact = none) (hq : s.rs.queue = q :: qs) (hro : s.rs.ro = false) (hroom : s.Roomy (pagesOf q.data.length))
include hop hready hc hq hro hroom

theorem rsRecordWrite_fails : s.rsRecordWrite pages 0 1 badErase =
    ((s.writeTaken qs).rsRetire s.rs.head).rsCommit q.type q.index q.data := by
  rw [rsRecordWrite_write hop hready hc hq, hro, if_neg Bool.false_ne_true, rsRetries_none,
    rsFails_one (s := s.writeTaken qs) hro hroom]
  rfl

include hup hwf

/-- A failed write retires the head, while a spare is left. -/
theorem recordRetires {p : Nat} {rest : List Nat} (hsp : s.spareSectors = p :: rest) :
    Completes (.rsRecordWrite pages 0 1 badErase) s [.sc, .rs] fun t =>
      t.rs.queue = qs ∧ (t.sector s.rs.head).st = .retired ∧ t.rs.lastRetired = .ofNat 6 s.rs.head ∧ bit t.rs.flag 1 = true ∧
        t.rs.ro = false := by
  have hret := rsRetire_spare (s := s.writeTaken qs) hsp s.rs.head
  obtain ⟨hframe, hleft⟩ := retired_leaves (s := s.writeTaken qs) hwf p s.rs.head
  refine completes_seated (f := fun s => s.rsRecordWrite pages 0 1 badErase) rfl hup (rsRecordWrite_fails hop hready hc hq hro hroom) ?_ ?_
  · have hrs := hret .rs (by decide)
    generalize (s.writeTaken qs).retired p s.rs.head = u at hrs hleft
    generalize (s.writeTaken qs).rsRetire s.rs.head = t at hrs
    have hrs : t.rs = u.rs := hrs
    have htro : t.rs.ro = false := by rw [hrs, hleft.ro]; exact hro
    unfold rsCommit
    rw [htro, if_neg Bool.false_ne_true]
    obtain ⟨-, hst⟩ := st_rsPut (s := t) (hrs ▸ hleft.wf) q.type q.index (t.nextSeq q.type q.index) q.data
    have hapart := storeApart_rsPut t q.type q.index (t.nextSeq q.type q.index) q.data
    generalize t.rsPut q.type q.index (t.nextSeq q.type q.index) q.data = v at hst hapart
    have hsame : v.rsCompact.rs = { v.rs with compact := v.rsCompact.rs.compact } := by unfold rsCompact; split <;> rfl
    have hsec : v.rsCompact.sector s.rs.head = v.sector s.rs.head := by unfold sector; rw [hsame]
    have htsec : t.sector s.rs.head = u.sector s.rs.head := by unfold sector; rw [hrs]
    have hvq : v.rs.queue = t.rs.queue := (congrArg RecStore.queue hapart : v.storeApart.queue = t.storeApart.queue)
    have hvl : v.rs.lastRetired = t.rs.lastRetired := (congrArg RecStore.lastRetired hapart : v.storeApart.lastRetired = t.storeApart.lastRetired)
    have hvf : v.rs.flag = t.rs.flag := (congrArg RecStore.flag hapart : v.storeApart.flag = t.storeApart.flag)
    have hvo : v.rs.ro = t.rs.ro := (congrArg RecStore.ro hapart : v.storeApart.ro = t.storeApart.ro)
    rw [hsec, hst, htsec, hleft.st, hsame]
    refine ⟨?_, rfl, ?_, ?_, hvo.trans htro⟩
    · exact hvq.trans (by rw [hrs, hleft.queue]; rfl)
    · exact hvl.trans (by rw [hrs, hleft.last])
    · show bit v.rs.flag 1 = true
      rw [hvf, hrs, hleft.flag]
  · exact ((((only_writeTaken s qs).both hframe).widen (by decide)).also hret (by decide)).both (only_rsCommit _ _ _ _)

omit hwf in
/-- Without a spare left the store becomes read-only, and the record is refused. -/
theorem recordEnds (hsp : s.spareSectors = []) :
    Completes (.rsRecordWrite pages 0 1 badErase) s [.sc, .rs] fun t =>
      t.rs.queue = qs ∧ t.rs.ro = true ∧ t.rs.versions = s.rs.versions ∧ bit t.rs.flag 2 = true ∧ bit t.rs.flag 3 = true := by
  have hret := rsRetire_last (s := s.writeTaken qs) hsp s.rs.head
  refine completes_seated (f := fun s => s.rsRecordWrite pages 0 1 badErase) rfl hup (rsRecordWrite_fails hop hready hc hq hro hroom) ?_ ?_
  · have hrs : ((s.writeTaken qs).rsRetire s.rs.head).rs = (s.writeTaken qs).readOnly.rs := hret .rs (by decide)
    generalize (s.writeTaken qs).rsRetire s.rs.head = t at hrs
    have hro' : t.rs.ro = true := by rw [hrs]; rfl
    unfold rsCommit
    rw [hro', if_pos rfl, rsRefuse_rs, hrs]
    refine ⟨rfl, rfl, rfl, ?_, ?_⟩
    · show bit (_ ||| kRO ||| kREFUSED) 2 = true
      rw [bit_or, bit_or, show bit kRO 2 = true by decide, Bool.or_true, Bool.true_or]
    · show bit (_ ||| kREFUSED) 3 = true
      rw [bit_or, show bit kREFUSED 3 = true by decide, Bool.or_true]
  · have hread : OnlyChanges [.rs] (s.writeTaken qs) (s.writeTaken qs).readOnly := (only_modRs _ _).both (only_rsFlag _ _)
    exact ((((only_writeTaken s qs).both hread).widen (by decide)).also hret (by decide)).both (only_rsCommit _ _ _ _)

/-- A record written with its retries. -/
theorem recordWritten : Completes (.rsRecordWrite pages retries 0 badErase) s [.pm, .rs] fun t => RecordStored s t q qs ∧
    (retries = 0 → OnlyChanges [.rs] s t ∧ t.rs.flag = s.rs.flag) ∧
    (retries ≠ 0 → bit t.rs.flag 0 = true ∧ t.rs.retries = satOf 16 (s.rs.retries.toNat + retries) ∧
      t.rs.retryPages = satOf 16 (s.rs.retryPages.toNat + pages)) := by
  have hsame : ∀ v : State, (v.queuedPut q).rsCompact.rs = { (v.queuedPut q).rs with compact := (v.queuedPut q).rsCompact.rs.compact } :=
    fun v => by unfold rsCompact; split <;> rfl
  have hcommit : ∀ v : State, OnlyChanges [.rs] v (v.queuedPut q).rsCompact := fun v => (only_putHere v _ _ _ _).both (only_rsCompact _)
  have hretry := only_rsRetries (s.writeTaken qs) pages retries
  refine completes_seated (f := fun s => s.rsRecordWrite pages retries 0 badErase) rfl hup
    (rsRecordWrite_put hop hready hc hq hro hroom pages retries badErase) ?_
    ((((only_writeTaken s qs).widen (by decide)).both hretry).also (hcommit _) (by decide))
  by_cases h0 : retries = 0
  · rw [h0, rsRetries_none]
    refine ⟨recordStored_of _ hwf rfl rfl rfl rfl rfl hc, fun _ => ⟨(only_writeTaken s qs).both (hcommit _), ?_⟩, fun h => absurd rfl h⟩
    rw [hsame]
    rfl
  · have hrs := rsRetries_rs (s.writeTaken qs) pages h0
    generalize (s.writeTaken qs).rsRetries pages retries = w at hrs
    refine ⟨recordStored_of w hwf ?_ ?_ ?_ ?_ ?_ ?_, fun h => absurd h h0, fun _ => ?_⟩
    · rw [hrs]; rfl
    · rw [hrs]; rfl
    · rw [hrs]; rfl
    · rw [hrs]; rfl
    · rw [hrs]; rfl
    · rw [hrs]; exact hc
    · rw [hsame]
      show bit w.rs.flag 0 = true ∧ w.rs.retries = _ ∧ w.rs.retryPages = _
      rw [hrs]
      refine ⟨?_, rfl, rfl⟩
      show bit (_ ||| kRETRY) 0 = true
      rw [bit_or, show bit kRETRY 0 = true by decide, Bool.or_true]

end

/-! ## A step of a compaction -/

theorem compactionMoves (hup : s.pwr.pd1Up = true) (hop : s.rs.op = true) (hready : s.rs.ready = true) (hwf : cellWf {} s.rs.sectors = true)
    (hc : s.rs.compact = some k) (hin : s.currentIn k = x :: xs) (hro : s.rs.ro = false) (hroom : s.Roomy (pagesOf x.data.length)) :
    Completes (.rsRecordWrite 0 0 0 badErase) s [.rs] fun t =>
      t.rs.op = false ∧ t.rs.compact = some k ∧ t.rs.queue = s.rs.queue ∧ t.rs.head = s.rs.head ∧
        (t.sector s.rs.head).used = (s.sector s.rs.head).used + pagesOf x.data.length ∧
        t.rs.versions = s.rs.versions ++ [s.versionPut x.type x.index x.seq x.data] := by
  have hx : s.rsRecordWrite 0 0 0 badErase = s.opEnded.putHere x.type x.index x.seq x.data := by
    have hin' : s.opEnded.currentIn k = x :: xs := hin
    have hro' : s.opEnded.rs.ro = false := hro
    rw [rsRecordWrite_compact hop hready hc]
    unfold rsCompactStep
    rw [hin']
    dsimp only
    rw [rsRetries_none, rsFails, hro', if_neg Bool.false_ne_true, rsPut_eq, rsRoom_same (s := s.opEnded) hroom]
  refine completes_seated (f := fun s => s.rsRecordWrite 0 0 0 badErase) rfl hup hx ⟨rfl, hc, rfl, rfl, ?_, rfl⟩
    ((only_modRs s _).both (only_putHere _ _ _ _ _))
  exact congrArg Sector.used (sector_putHere_self (s := s.opEnded) hwf x.type x.index x.seq x.data)

theorem compactionErases (hup : s.pwr.pd1Up = true) (hop : s.rs.op = true) (hready : s.rs.ready = true) (hwf : cellWf {} s.rs.sectors = true)
    (hc : s.rs.compact = some k) (hin : s.currentIn k = []) :
    Completes (.rsRecordWrite pages retries fails false) s [.rs] fun t =>
      t.rs.op = false ∧ t.rs.compact = none ∧ t.rs.queue = s.rs.queue ∧ t.rs.ro = s.rs.ro ∧
        t.sector k = { s.sector k with used := 0, cycles := (s.sector k).cycles + 1 } ∧
        ∀ y, y ∈ t.rs.versions ↔ y ∈ s.rs.versions ∧ y.sector ≠ k := by
  have hx : s.rsRecordWrite pages retries fails false = s.opEnded.rsErase k false := by
    have hin' : s.opEnded.currentIn k = [] := hin
    rw [rsRecordWrite_compact hop hready hc]
    unfold rsCompactStep
    rw [hin']
  refine completes_seated (f := fun s => s.rsRecordWrite pages retries fails false) rfl hup hx ⟨rfl, rfl, rfl, rfl, ?_, fun y => ?_⟩
    (((only_modRs s _).both (only_modRs _ _)).both (only_setSector _ _ _))
  · exact (sector_setSector (s := s.opEnded.modRs fun r =>
      { r with versions := r.versions.filter (fun v => decide (v.sector ≠ k)), compact := none }) hwf k k _).trans (if_pos rfl)
  · show y ∈ s.rs.versions.filter _ ↔ _
    rw [List.mem_filter, decide_eq_true_iff]

theorem scanEnds (hup : s.pwr.pd1Up = true) (hready : s.rs.ready = false) : Completes (.rsScan bad) s [.rs] fun t =>
    t.rs.ready = true ∧ t.rs.sectors = s.rs.sectors ∧ t.rs.ro = s.rs.ro ∧
      ∀ (i : Nat) (x : RsVersion), s.rs.versions[i]? = some x →
        t.rs.versions[i]? = some (if i ∈ bad then { x with crcOk := false } else x) := by
  refine completes_seated (f := fun s => s.rsScan bad) rfl hup (if_neg (by rw [hready]; exact Bool.false_ne_true))
    ⟨rfl, rfl, rfl, fun i x hi => ?_⟩ (only_modRs s _)
  obtain ⟨hlt, hix⟩ := List.getElem?_eq_some_iff.1 hi
  show ((((List.range s.rs.versions.length).zip s.rs.versions).map _)[i]?) = _
  have hzip : ((List.range s.rs.versions.length).zip s.rs.versions)[i]? = some (i, x) :=
    List.getElem?_zip_eq_some.2 ⟨List.getElem?_range hlt, hi⟩
  rw [List.getElem?_map, hzip]
  rfl

end
end Sys2Proof.Machine
end

section
/-!
# O55 (15 R578; 17 R635–R660, R664–R668)
-/
namespace Sys2Proof.Machine
open State

section
variable {s : State} {l : Fin 4}

/-- What the end of a second leaves, as the statement lists it. -/
theorem secondEnds_fields {t : State} (h : SecondEnds s t l) :
    let p := s.pm
    let c := at_ p.sec.links l
    let ses : Bool := decide (p.sesthr.toNat ≤ c.bip) || c.severe
    let counts : Bool := p.sec.observed && c.enabled
    let un := bit p.unav l.val
    ∃ v : DoneSecond, ∃ old, t.pm.waiting = old ++ [v] ∧ old.length = p.waiting.length ∧
      v.at_ = p.sec.at_.toNat ∧ v.suspect = !s.canopy.rtcValid ∧ v.observed = p.sec.observed ∧ v.gov = p.sec.gov ∧
      v.plaus = p.sec.plaus ∧ v.tamper = p.sec.tamper ∧ v.odo = p.sec.odo ∧ v.run = p.sec.run ∧
      (at_ v.v l).bip = c.bip ∧ (at_ v.v l).es = (decide (0 < c.bip) || c.errored) ∧ (at_ v.v l).ses = ses ∧
      (at_ v.v l).slips = c.slips ∧ (at_ v.v l).ds = c.defect ∧ (at_ v.v l).counts = counts ∧
      (c.fenced = true → (at_ v.v l).uas = true) ∧
      (counts = false → bit t.pm.unav l.val = un ∧ at_ t.pm.against l = at_ p.against l) ∧
      (counts = true → ses = un → bit t.pm.unav l.val = un ∧ at_ t.pm.against l = 0 ∧ (at_ v.v l).uas = (un || c.fenced)) ∧
      (counts = true → ses ≠ un → at_ p.against l ≠ 9 →
        bit t.pm.unav l.val = un ∧ at_ t.pm.against l = at_ p.against l + 1 ∧ (at_ v.v l).uas = (un || c.fenced)) ∧
      (counts = true → ses ≠ un → at_ p.against l = 9 →
        bit t.pm.unav l.val = !un ∧ at_ t.pm.against l = 0 ∧ (at_ v.v l).uas = (!un || c.fenced)) := by
  intro p c ses counts un
  obtain ⟨v, old, u, hw, hlen, hseen, hno, hstay, hturn⟩ := h.waits
  have hv : at_ v.v l = { c.verdict p.sec.observed p.sesthr.toNat with uas := u } := by
    rw [← at_seenBy l v, hseen, at_seenBy, at_withUas, at_doneSecond]
  have hafter : againstAfter l p (at_ s.doneSecond.v l) = if ses = un then 0 else at_ p.against l + 1 := by
    unfold againstAfter
    rw [at_doneSecond]
    rfl
  rw [at_doneSecond] at hno hstay hturn hafter
  rw [hafter] at hstay hturn
  have hapart : ∀ {β : Type} (f : DoneSecond → β), (∀ d : DoneSecond, f (seenBy l d) = f d) → f v = f (withUas s.doneSecond l u) :=
    fun f hf => by rw [← hf v, hseen, hf]
  refine ⟨v, old, hw, hlen, hapart DoneSecond.at_ fun _ => rfl, hapart DoneSecond.suspect fun _ => rfl,
    hapart DoneSecond.observed fun _ => rfl, hapart DoneSecond.gov fun _ => rfl, hapart DoneSecond.plaus fun _ => rfl,
    hapart DoneSecond.tamper fun _ => rfl, hapart DoneSecond.odo fun _ => rfl, hapart DoneSecond.run fun _ => rfl, ?_⟩
  rw [hv]
  refine ⟨rfl, rfl, rfl, rfl, rfl, rfl, fun hf => ?_, fun hcount => ?_, fun hcount hs => ?_, fun hcount hs h9 => ?_, fun hcount hs h9 => ?_⟩
  · have hcase : ∀ b : Bool, (b || c.fenced) = true := fun b => by rw [hf, Bool.or_true]
    show u = true
    cases hcount : counts with
    | false => exact (hno hcount).2.2.trans hf
    | true =>
      by_cases h10 : (if ses = un then 0 else at_ p.against l + 1) = 10
      · exact (hturn hcount h10).2.2.trans (hcase _)
      · exact (hstay hcount h10).2.2.trans (hcase _)
  · exact ⟨(hno hcount).1, (hno hcount).2.1⟩
  · rw [if_pos hs] at hstay
    exact hstay hcount (by decide)
  · rw [if_neg hs] at hstay
    exact hstay hcount (by omega)
  · rw [if_neg hs] at hturn
    exact hturn hcount (by omega)

end

/-- Settles O55: the second's judgement, the bins and the store's operations, each by its stages. -/
theorem performanceAndRecordStore : Obligations.PerformanceAndRecordStore := by
  unfold Obligations.PerformanceAndRecordStore
  intro s l w d rest q qs pages retries fails k badErase bad x y xs p h c r thr un ses counts up
  refine ⟨fun i hi hup => ?down, fun i hi hup => ?downStore, fun hs => ?still, fun hup hpd hne => ?second, fun hs => ?noBin,
    fun hup hw hr => ⟨fun hdue => ?early, fun hdue hobs htca h15 hday hs15 hsday hlast => ⟨fun hn => ?within, fun hn => ?last⟩⟩,
    ⟨fun hon => ?msOff, fun hon hms => ?msOn⟩, ⟨fun hup hgood => ?select, fun hup hbad => ?selectBad⟩, fun hs => ?winStill,
    fun hup hk hs hr => ?win15, fun hup hk hs hr => ?winDay, fun hr => ?scanned, fun hup hr => scanEnds hup hr, fun hs => ?noWrite,
    fun hup hop hready hwf => ⟨fun hc hq => ?empty, fun ⟨hc, hq⟩ hro => ?refused, fun ⟨hc, hq⟩ hro hroom => ?written,
      fun ⟨hc, hq⟩ hro hroom hsp => ?retires, fun ⟨hc, hq⟩ hro hroom hsp => ?ends, fun hc hin hro h1 h2 => ?moves, fun hc hin => ?erases⟩⟩
  case down =>
    have hdown : s.pwr.pllLock = false := Bool.eq_false_iff.2 hup
    simp only [List.mem_cons, List.not_mem_nil, or_false] at hi
    obtain rfl | rfl | rfl | rfl | rfl := hi
    all_goals exact completes_unclocked rfl hdown
  case downStore =>
    simp only [List.mem_cons, List.not_mem_nil, or_false] at hi
    obtain rfl | rfl := hi
    all_goals exact completes_unseated rfl hup
  case still => exact completes_same (f := pmSecond) rfl (pmSecond_still hs)
  case second =>
    have hb := secondEnds_secondBegun s l
    have ho := only_secondBegun s
    have hx := pmSecond_eq hpd hne
    generalize s.secondBegun = b at hb ho hx
    cases hr : s.flt.supReset with
    | true =>
      rw [hr, if_pos rfl] at hx
      exact completes_clocked (f := pmSecond) rfl hup hx
        ⟨secondEnds_fields hb, hb.second, hb.afresh, fun h => absurd h (by decide), fun hen => have k := hb.deg hen;
          ⟨k.restarts, k.raises, k.ends, k.raw⟩⟩ ho
    | false =>
      rw [hr, if_neg Bool.false_ne_true] at hx
      obtain ⟨views, hpm, v, hv, hupd, hstart⟩ := updateViews_pm b
      have hlink : b.updateViews.link l = b.link l := (only_updateViews b).link (by decide) l
      refine completes_clocked (f := pmSecond) rfl hup hx ?_ (ho.also (only_updateViews b) (by decide))
      rw [hpm, hlink]
      exact ⟨secondEnds_fields hb, hb.second, hb.afresh, fun _ => ⟨v, hv, hupd.trans (by rw [hb.views]), hstart.trans (by rw [hb.bins])⟩,
        fun hen => have k := hb.deg hen; ⟨k.restarts, k.raises, k.ends, k.raw⟩⟩
  case noBin => exact completes_same (f := pmBinPlace) rfl (pmBinPlace_idle hs)
  case early => exact completes_same (f := pmBinPlace) rfl (pmBinPlace_early hw hdue)
  case within =>
    refine completes_clocked (f := pmBinPlace) rfl hup (pmBinPlace_within hw hr hdue hobs htca h15 hday hs15 hsday hlast hn) ?_
      (only_placed s d rest)
    rw [pm_placed]
    have hone : ∀ b : Bin, (b.add d).obs = b.obs + 1 := fun b => by
      show b.obs + b2n d.observed = _
      rw [hobs]
      rfl
    refine ⟨rfl, hone _, hone _, rfl, rfl, fun hsus => ?_, rfl, fun hc => ?_, fun hc => ?_⟩
    · show bit (if d.suspect then _ ||| bSUSPECT else _) 0 = true
      rw [if_pos hsus, bit_or, show bit bSUSPECT 0 = true by decide, Bool.or_true]
    · rw [at_links_add, addVerdict, hc]
      rfl
    · rw [at_links_add, addVerdict, hc]
      rfl
  case last =>
    have hx := pmBinPlace_last hw hr hdue hobs htca h15 hday hs15 hsday hlast hn
    have ho := only_placed s d rest
    obtain ⟨views, hpm⟩ := pm_close15 (s.placed d rest) 0
    have hclose := only_close15 (s.placed d rest) 0
    rw [pm_placed] at hpm
    have hone : (p.cur15.add d).obs = p.cur15.obs + 1 := by
      show p.cur15.obs + b2n d.observed = _
      rw [hobs]
      rfl
    generalize s.placed d rest = u at hx ho hpm hclose
    generalize u.close15 0 = v at hx hpm hclose
    refine completes_clocked (f := pmBinPlace) rfl hup hx ?_
      (((ho.widen (by decide)).also hclose (by decide)).also (only_open15 _ _) (by decide))
    have hopen : (v.open15 (d.at_ + 1)).pm = { v.pm with
      open15 := true, tcaEs := 0, tcaSes := 0,
      cur15 := { start := .ofNat 32 (d.at_ + 1), flags := if v.pm.clkSet then bCLKSET else 0 } } := rfl
    rw [hopen, hpm]
    refine ⟨rfl, ?_, rfl, rfl, (p.cur15.add d).closed 1 900 u.rs.ro 0, rfl, rfl, rfl, hone, ?_⟩
    · show bit (_ ||| mBIN) 0 = true
      rw [bit_or, show bit mBIN 0 = true by decide, Bool.or_true]
    · rw [closed_flags, bit_flags_add _ _ (by decide), hone]
      show _ ↔ _ ∨ (p.cur15.add d).obs < 900
      rw [hone]
  case msOff =>
    by_cases hup : s.pwr.pllLock = true
    · exact completes_same (f := runTimeMs) rfl (runTimeMs_off fun h => hon ⟨hup, h⟩)
    · exact completes_unclocked rfl (Bool.eq_false_iff.2 hup)
  case msOn =>
    have hms' : s.pm.runMs < 1000 := hms
    refine completes_clocked (f := runTimeMs) rfl hon.1 (runTimeMs_on hon.2) ⟨rfl, fun hlt => ⟨?_, ?_⟩, fun heq => ⟨?_, ?_⟩⟩
      ((only_modPm s _).both (only_modCyc _ _ _))
    · exact Nat.mod_eq_of_lt (by have : s.pm.runMs < 999 := hlt; omega)
    · have : (s.pm.runMs + 1) / 1000 = 0 := Nat.div_eq_of_lt (by have : s.pm.runMs < 999 := hlt; omega)
      show addSat s.pm.runSec ((s.pm.runMs + 1) / 1000) = _
      rw [this, addSat_zero]
    · show (s.pm.runMs + 1) % 1000 = 0
      have : s.pm.runMs = 999 := heq
      rw [this]
    · show addSat s.pm.runSec ((s.pm.runMs + 1) / 1000) = _
      have : s.pm.runMs = 999 := heq
      rw [this]
      rfl
  case select =>
    refine completes_clocked (f := fun s => s.writePmSel w) rfl hup (if_pos hgood) ⟨rfl, rfl, ?_, ?_, rfl⟩ (only_modPm s _)
    · exact (BitVec.toNat_ofNat _ _).trans (Nat.mod_eq_of_lt (by omega))
    · exact (BitVec.toNat_ofNat _ _).trans (Nat.mod_eq_of_lt (by omega))
  case selectBad => exact completes_clocked (f := fun s => s.writePmSel w) rfl hup (if_neg hbad) rfl (only_pmFlag s _)
  case winStill => exact completes_same (f := pmWinReady) rfl (pmWinReady_still hs)
  case win15 =>
    have hk' : s.pm.selKind = 1 := hk
    refine completes_clocked (f := pmWinReady) rfl hup (pmWinReady_copies (by rw [hk']; decide) hs hr) ?_ (only_modPm s _)
    show { s.pm with selRdy := true, win := some s.selBin } = _
    rw [selBin, if_pos hk']
  case winDay =>
    have hk' : s.pm.selKind = 3 := hk
    refine completes_clocked (f := pmWinReady) rfl hup (pmWinReady_copies (by rw [hk']; decide) hs hr) ?_ (only_modPm s _)
    show { s.pm with selRdy := true, win := some s.selBin } = _
    rw [selBin, if_neg (by rw [hk']; decide)]
  case scanned =>
    by_cases hup : s.pwr.pd1Up = true
    · exact completes_seated (f := fun s => s.rsScan bad) rfl hup (if_pos hr) trivial (.refl _ _)
    · exact completes_unseated rfl (Bool.eq_false_iff.2 hup)
  case noWrite =>
    by_cases hup : s.pwr.pd1Up = true
    · exact completes_seated (f := fun s => s.rsRecordWrite pages retries fails badErase) rfl hup (rsRecordWrite_idle hs) trivial (.refl _ _)
    · exact completes_unseated rfl (Bool.eq_false_iff.2 hup)
  case empty =>
    exact completes_seated (f := fun s => s.rsRecordWrite pages retries fails badErase) rfl hup
      (rsRecordWrite_empty hop hready hc hq pages retries fails badErase) rfl (only_modRs s _)
  case refused => exact recordRefused hup hop hready hc hq hro
  case written =>
    obtain ⟨t, hx, ⟨hst, h0, h1⟩, ho⟩ := recordWritten (pages := pages) (retries := retries) (badErase := badErase) hup hop hready hwf hc hq hro hroom
    refine ⟨t, hx, ⟨hst.op, hst.queue, hst.used, hst.head, hst.blank, fun hshort k hk => ?_, ?_, h0, h1⟩, ho⟩
    · obtain ⟨⟨k1, k2, k3, k4⟩, hmin⟩ := hst.short hshort k hk
      exact ⟨k1, k2, k3, k4, fun j j1 j2 j3 j4 => hmin j ⟨j1, j2, j3, j4⟩⟩
    · refine ⟨_, hst.versions, rfl, rfl, rfl, rfl, rfl, rfl, fun x hx ht hi _ hmax => ?_⟩
      have hseq := nextSeq_max hx fun y hy h1 h2 => hmax y hy (h1.trans ht) (h2.trans hi)
      rw [ht, hi] at hseq
      exact hseq
  case retires =>
    obtain ⟨sp, tl, hcons⟩ := List.exists_cons_of_ne_nil hsp
    exact recordRetires hup hop hready hwf hc hq hro hroom hcons
  case ends => exact recordEnds hup hop hready hc hq hro hroom hsp
  case moves =>
    obtain ⟨t, hx, ⟨h3, h4, h5, h6, h7, h8⟩, ho⟩ := compactionMoves (badErase := badErase) hup hop hready hwf hc hin hro ⟨h1, h2⟩
    exact ⟨t, hx, ⟨h3, h4, h5, h6, h7, _, h8, rfl, rfl, rfl, rfl, rfl, rfl⟩, ho⟩
  case erases =>
    obtain ⟨t, hx, ⟨h3, h4, h5, h6, h7, h8⟩, ho⟩ := compactionErases (pages := pages) (retries := retries) (fails := fails)
      hup hop hready hwf hc hin
    exact ⟨t, hx, ⟨h3, h4, h5, h6, h7, h8 y⟩, ho⟩

end Sys2Proof.Machine
end

section
/-!
# Resets of a core cycle that was already reset (20 R733, R745)
-/
namespace Sys2Proof.Machine

/-- A state in whose core cycle a reset with the cause of code 0 was already met. -/
def resetMet : State := { State.reset with cyc := { State.reset.cyc with reset := some 0 } }

/-- A keyed RESET of the service port is due. -/
def resetMetKeyed : State :=
  { resetMet with
    svc := { State.reset.svc with resetPend := true, resetAt := 0 }
    time := 222000 }

/-- A confirmation window has run out. -/
def resetMetWindow : State := { resetMet with upd := { State.reset.upd with window := true, winEnd := 0 } }

/-- Of two resets of one core cycle the lower code is named. -/
theorem cause_svcResetExec_resetMetKeyed : (resetMetKeyed.svcResetExec 0).canopy.cause = 0 := rfl
theorem cause_updTimeout_resetMetWindow : resetMetWindow.updTimeout.canopy.cause = 0 := rfl

/-- Refutes O58: where the core cycle of a keyed RESET has already met a reset with a lower code, which the statement does not
exclude, GLB_RST names that one instead of SVC. -/
theorem not_servicePortCommands : ¬ Obligations.ServicePortCommands := by
  unfold Obligations.ServicePortCommands
  intro h
  obtain ⟨-, -, -, -, -, -, -, -, -, -, -, -, -, -, -, -, -, -, -, hreset, -⟩ :=
    h resetMetKeyed 0 [] .crc 0 0 0 ⟨rfl, rfl, rfl⟩
  obtain ⟨t, ht, -, -, hcanopy, -⟩ := hreset rfl rfl (by decide) (by decide)
  have heq : t = resetMetKeyed.svcResetExec 0 := (Host.Outcome.next.inj ht).symm
  have hcause : t.canopy.cause = 6 := by rw [hcanopy]; rfl
  rw [heq, cause_svcResetExec_resetMetKeyed] at hcause
  exact absurd hcause (by decide)

/-- Refutes O59: where the core cycle in which a confirmation window runs out has already met a reset with a lower code, which
the statement does not exclude, GLB_RST names that one instead of the update agent's. -/
theorem not_updateAgentCommands : ¬ Obligations.UpdateAgentCommands := by
  unfold Obligations.UpdateAgentCommands
  intro h
  obtain ⟨-, hup⟩ := h resetMetWindow 0 0 0 true { type := 0, index := 0, seq := 0, pages := 0, sector := 0, data := [] }
    { link := 0, phase := .start, offset := 0 } rfl
  obtain ⟨-, -, -, -, -, -, -, -, -, hrun⟩ := hup rfl
  obtain ⟨-, -, -, -, -, -, -, -, -, -, -, -, -, -, -, -, -, -, -, -, hfall, -⟩ := hrun (by decide)
  obtain ⟨t, ht, -, -, hcanopy, -⟩ := hfall rfl (by decide)
  have heq : t = resetMetWindow.updTimeout := (Host.Outcome.next.inj ht).symm
  have hcause : t.canopy.cause = 7 := by rw [hcanopy]; rfl
  rw [heq, cause_updTimeout_resetMetWindow] at hcause
  exact absurd hcause (by decide)

end Sys2Proof.Machine
end

section
/-!
# Transactions: header, status and queue (13 R495, R501, R506–R508)
-/
namespace Sys2Proof.Machine

namespace State
variable {s t : State} {src : Source} {op : Nat} {h : Header}

/-! ## The header checks, in the order of Table 13.5 -/

theorem headerCode_parity (hp : h.parityOk op = false) : s.headerCode src op h = 7 := by simp [headerCode, hp, cHPAR]

theorem headerCode_bad (hp : h.parityOk op = true) (hb : h.bad op = true) : s.headerCode src op h = 9 := by
  simp [headerCode, hp, hb, cBADHDR]

section
variable (hp : h.parityOk op = true) (hb : h.bad op = false)
include hp hb

theorem headerCode_notReady (hr : s.ready op h.addrs = false) : s.headerCode src op h = 2 := by
  simp [headerCode, hp, hb, hr, cNOTREADY]

variable (hr : s.ready op h.addrs = true) (hg : s.glbOnly = false)
include hr hg

theorem headerCode_unbound (hbind : s.bound h.client src = false) : s.headerCode src op h = 4 := by
  simp [headerCode, hp, hb, hr, hg, hbind, cBINDING]

variable (hbind : s.bound h.client src = true)
include hbind

theorem headerCode_fenced (hf : (s.clientAt h.client).st = .fenced) : s.headerCode src op h = 5 := by
  simp [headerCode, hp, hb, hr, hg, hbind, hf, cFENCED]

theorem headerCode_rate (hf : (s.clientAt h.client).st ≠ .fenced) (hop : op ≠ 0) (hout : s.outOfTokens h.client = true) :
    s.headerCode src op h = 6 := by
  simp [headerCode, hp, hb, hr, hg, hbind, hf, hop, hout, cRATE]

theorem headerCode_ok (hf : (s.clientAt h.client).st ≠ .fenced) (hok : op = 0 ∨ s.outOfTokens h.client = false) :
    s.headerCode src op h = 0 := by
  have hnot : ¬ (op ≠ 0 ∧ s.outOfTokens h.client = true) := by
    rintro ⟨hop, hout⟩
    rcases hok with h0 | h0
    · exact hop h0
    · simp [h0] at hout
  simp [headerCode, hp, hb, hr, hg, hbind, hf, hnot, cOK]

end

theorem headerCode_lt : s.headerCode src op h < 16 := by
  unfold headerCode
  split_ifs <;> decide

/-! ## A refused header -/

theorem only_countFault (s : State) (c : Fin 256) : OnlyChanges [.sc] s (s.countFault c) := by
  unfold countFault
  dsimp only
  have hf (t : State) : OnlyChanges [.sc] t (t.fenceNext c 1) := .ite (.refl _ _) (only_modSc _ _)
  exact .ite ((only_modClient _ _ _).both (hf _)) (only_modClient _ _ _)

theorem only_countRefusal (s : State) (c : Fin 256) (codes : List Nat) : OnlyChanges [.sc] s (s.countRefusal c codes) :=
  .ite (only_countFault _ _) (.refl _ _)

theorem only_noteHeader (s : State) (c : Fin 256) (code : Nat) : OnlyChanges [.hp, .sc] s (s.noteHeader c code) := by
  unfold noteHeader
  dsimp only
  split
  · exact (((only_hpFlag _ _).both (only_modHp _ _)).widen (by decide)).also (only_countRefusal _ _ _) (by decide)
  · exact (only_countRefusal _ _ _).mono (by decide)

/-- A header that passes leaves nothing to note. -/
theorem noteHeader_ok (s : State) (c : Fin 256) : s.noteHeader c 0 = s := rfl

/-- What a status byte reports of the port: the queue, and the aborts and write errors not yet sent. -/
def PortKept (s t : State) : Prop :=
  t.hp.queue = s.hp.queue ∧ t.hp.retired = s.hp.retired ∧ t.hp.abt = s.hp.abt ∧ t.hp.werr = s.hp.werr ∧ t.time = s.time

theorem PortKept.refl (s : State) : PortKept s s := ⟨rfl, rfl, rfl, rfl, rfl⟩

theorem PortKept.of_hp (hhp : t.hp = s.hp) (htime : t.time = s.time) : PortKept s t := by
  unfold PortKept
  rw [hhp]
  exact ⟨rfl, rfl, rfl, rfl, htime⟩

theorem portKept_noteHeader (s : State) (c : Fin 256) (code : Nat) : PortKept s (s.noteHeader c code) := by
  unfold noteHeader
  dsimp only
  split
  · have ho := only_countRefusal ((s.hpFlag 1).modHp fun h => { h with cntPar := satInc h.cntPar }) c [code]
    have hhp := ho .hp (by decide)
    unfold PortKept
    rw [show State.hp _ = _ from hhp]
    exact ⟨rfl, rfl, rfl, rfl, ho .time (by decide)⟩
  · have ho := only_countRefusal s c [code]
    exact .of_hp (ho .hp (by decide)) (ho .time (by decide))

/-! ## Status -/

/-- No queued write retired within the last 2 cycles: the queue's level is what the port sees. -/
def LevelSettled (s : State) : Prop := ∀ u ∈ s.hp.retired, u + 2 ≤ s.time

theorem LevelSettled.of_kept (hs : LevelSettled s) (hk : PortKept s t) : LevelSettled t := by
  obtain ⟨-, hret, -, -, htime⟩ := hk
  intro u hu
  rw [htime]
  exact hs u (hret ▸ hu)

theorem portLevel_settled (hs : LevelSettled s) : s.portLevel = (s.hp.queue.length, s) := by
  have hnone : s.hp.retired.filter (fun t => decide (s.time < t + 2)) = [] :=
    List.filter_eq_nil_iff.2 fun u hu => by simpa using hs u hu
  unfold portLevel
  rw [hnone]
  rfl

theorem b2n_queueEmpty (q : List HpEntry) : b2n (decide (q.length = 0)) = b2n q.isEmpty := by
  cases q <;> rfl

theorem b2n_le (b : Bool) : b2n b ≤ 1 := by cases b <;> decide

/-- The status byte of a chip select, its HAZ bit apart. -/
def hpStatus (s : State) (cs : Fin 2) (code : Nat) : Nat :=
  16 * code + 8 * b2n s.hp.queue.isEmpty + 4 * b2n (bit s.hp.abt cs.val) + 2 * b2n (bit s.hp.werr cs.val)

theorem hpStatus_of_kept (hk : PortKept s t) (cs : Fin 2) (code : Nat) : hpStatus t cs code = hpStatus s cs code := by
  obtain ⟨hq, -, ha, hw, -⟩ := hk
  rw [hpStatus, hq, ha, hw, hpStatus]

theorem status_hp (hs : LevelSettled s) (cs : Fin 2) (code : Nat) (haz : Bool) : s.status (.hp cs) code haz =
    (BitVec.ofNat 8 (hpStatus s cs code + b2n haz),
     s.modHp fun h => { h with abt := h.abt &&& ~~~(oneBit 2 cs.val), werr := h.werr &&& ~~~(oneBit 2 cs.val) }) := by
  unfold status
  rw [portLevel_settled hs]
  dsimp only
  rw [b2n_queueEmpty]
  rfl

/-- The status byte of a link's channel, its HAZ bit apart. -/
def linkStatus (s : State) (l : Fin 4) (code : Nat) : Nat := 16 * code + 8 * b2n s.hp.queue.isEmpty + 2 * b2n (s.link l).xwerr

theorem status_link (hs : LevelSettled s) (l : Fin 4) (slot : Fin 256) (code : Nat) (haz : Bool) :
    s.status (.link l slot) code haz =
      (BitVec.ofNat 8 (linkStatus s l code + b2n haz), s.modLink l fun x => { x with xwerr := false }) := by
  unfold status
  rw [portLevel_settled hs]
  dsimp only
  rw [b2n_queueEmpty]
  rfl

theorem status_byte {n : Nat} (hn : n < 256) (heven : n % 2 = 0) (haz : Bool) :
    (BitVec.ofNat 8 (n + b2n haz)).toNat / 2 * 2 = n := by
  have := b2n_le haz
  rw [BitVec.toNat_ofNat, Nat.mod_eq_of_lt (by omega)]
  omega

theorem hpStatus_lt (s : State) (cs : Fin 2) {code : Nat} (hc : code < 16) : hpStatus s cs code < 256 ∧ hpStatus s cs code % 2 = 0 := by
  have h1 := b2n_le s.hp.queue.isEmpty
  have h2 := b2n_le (bit s.hp.abt cs.val)
  have h3 := b2n_le (bit s.hp.werr cs.val)
  unfold hpStatus
  omega

theorem linkStatus_lt (s : State) (l : Fin 4) {code : Nat} (hc : code < 16) :
    linkStatus s l code < 256 ∧ linkStatus s l code % 2 = 0 := by
  have h1 := b2n_le s.hp.queue.isEmpty
  have h3 := b2n_le (s.link l).xwerr
  unfold linkStatus
  omega

/-! ## The word a read of one word takes -/

/-- A header of one word names its address alone. -/
theorem addrs_single (hlen : h.len = 0) : h.addrs = [h.addr.toNat] := by
  have hw : h.words = 1 := by rw [Header.words, hlen]; rfl
  rw [Header.addrs, hw]
  simp [Header.word]

theorem words_single (hlen : h.len = 0) : h.words = 1 := by rw [Header.words, hlen]; rfl

/-- No queued write targets the word, nor has one retired to it in this cycle (13 R507). -/
def NoHazard (s : State) (p : Nat) : Prop := (∀ z ∈ s.hp.queue, s.nativeAddr z.addr.toNat ≠ p) ∧ ∀ z ∈ s.cyc.hpWas, z.1 ≠ p

theorem hazard_false {p : Nat} (hn : NoHazard s p) :
    (s.hp.queue.any (fun e => decide (s.nativeAddr e.addr.toNat = p)) || s.cyc.hpWas.any (·.1 = p)) = false := by
  obtain ⟨hq, hw⟩ := hn
  rw [Bool.or_eq_false_iff]
  exact ⟨List.any_eq_false.2 fun z hz => by simpa using hq z hz, List.any_eq_false.2 fun z hz => by simpa using hw z hz⟩

theorem takeToken_unlimited {c : Fin 256} (hrate : fld (s.clientAt c).rate 7 0 = 0) : s.takeToken c = s := if_neg (by simpa using hrate)

/-- A bank word of clean data that a client may read. -/
structure ReadableWord (s : State) (c : Fin 256) (a p : Nat) : Prop where
  native : s.nativeAddr a = p
  isReg : s.isReg p = true
  permits : s.permits c p false 0 = true
  bankAddr : isBankAddr p = true
  aligned : p % 4 = 0
  lock : s.mem.lock = none
  on : (s.bank (bankOf p)).st = .on
  recov : (s.bank (bankOf p)).recov = false
  clean : cellRead 0 s.mem.errs p = 0

theorem isMemAddr_of_bank {p : Nat} (hp : isBankAddr p = true) : isMemAddr p = true := by
  simp only [isBankAddr, isMemAddr, Bool.and_eq_true, decide_eq_true_eq] at hp ⊢
  omega

theorem readWord_bank {c : Fin 256} {a p : Nat} (hr : ReadableWord s c a p) (missed : Bool) :
    readWord s c false missed a =
      if missed then (cMISSED, 0, s.modHp fun x => { x with cntMissed := satInc x.cntMissed })
      else (cOK, s.bankData p, s.markSaved p) := by
  have hwaits := waits_eq_false (resolve_bank hr.bankAddr) hr.lock hr.on hr.recov
  have hread := memRead_word hr.bankAddr hr.aligned hr.on hr.clean
  unfold readWord
  simp only [hr.native, hr.isReg, hr.permits, isMemAddr_of_bank hr.bankAddr, hwaits, hread, Bool.not_true, Bool.and_false,
    Bool.false_eq_true, if_false, if_true, Bool.or_false]

/-- A run of one read word, which no queued write targets. -/
theorem hpWords_single {c : Fin 256} {a p : Nat} (hr : ReadableWord s c a p) (hn : NoHazard s p) (missed : Nat → Bool) :
    s.hpWords c false missed [a] =
      if missed 0 then
        { s := s.modHp fun x => { x with cntMissed := satInc x.cntMissed }, codes := [cMISSED], data := [0] }
      else { s := s.markSaved p, codes := [cOK], data := [s.bankData p] } := by
  have hword := readWord_bank hr (missed 0)
  have hrun : s.hpWords c false missed [a] =
      { s := (readWord s c false (missed 0) a).2.2, codes := [(readWord s c false (missed 0) a).1],
        data := [(readWord s c false (missed 0) a).2.1],
        haz := s.hp.queue.any (fun e => decide (s.nativeAddr e.addr.toNat = s.nativeAddr a)) ||
          s.cyc.hpWas.any (·.1 = s.nativeAddr a) } := rfl
  rw [hrun, hr.native, hazard_false hn, hword]
  split <;> rfl

/-- What a READ does once its header passes, of a client with no rate limit. -/
theorem readRun_passed (hcode : s.headerCode src 1 h = 0) (hg : s.glbOnly = false)
    (hrate : fld (s.clientAt h.client).rate 7 0 = 0) (n : Nat) (missed : List (Fin 16)) {r : ReadRun}
    (hr : s.hpWords h.client false (fun k => missed.any fun m => decide (m.val = k)) (h.addrs.take n) = r) :
    s.readRun src h n missed =
      { s := r.s.countRefusal h.client r.codes, code := firstCode r.codes, haz := r.haz, data := r.data } := by
  unfold readRun
  dsimp only
  rw [hcode, noteHeader_ok, if_neg (fun h => h rfl), hg]
  rw [if_neg Bool.false_ne_true, if_neg Bool.false_ne_true, takeToken_unlimited hrate, hr]

/-- What a READ of one word does, from its header checks on (13 R496, R507). -/
theorem readRun_single {p : Nat} (hcode : s.headerCode src 1 h = 0) (hg : s.glbOnly = false)
    (hrate : fld (s.clientAt h.client).rate 7 0 = 0) (hlen : h.len = 0) (hr : ReadableWord s h.client h.addr.toNat p)
    (hn : NoHazard s p) (missed : List (Fin 16)) :
    s.readRun src h h.words missed =
      if 0 ∈ missed then { s := s.modHp fun x => { x with cntMissed := satInc x.cntMissed }, code := cMISSED, data := [0] }
      else { s := s.markSaved p, code := cOK, data := [s.bankData p] } := by
  have hzero : (missed.any fun m => decide (m.val = 0)) = true ↔ 0 ∈ missed := by
    refine List.any_eq_true.trans ⟨fun ⟨m, hm, he⟩ => ?_, fun hm => ⟨0, hm, rfl⟩⟩
    rwa [← show m = 0 from Fin.ext (of_decide_eq_true he)]
  have hwords := hpWords_single hr hn fun k => missed.any fun m => decide (m.val = k)
  rw [words_single hlen, readRun_passed hcode hg hrate 1 missed rfl, addrs_single hlen]
  rw [show [h.addr.toNat].take 1 = [h.addr.toNat] from rfl, hwords]
  by_cases hm : 0 ∈ missed
  · rw [if_pos hm, if_pos (hzero.2 hm)]
    rfl
  · rw [if_neg hm, if_neg (fun hc => hm (hzero.1 hc))]
    rfl

end State
end Sys2Proof.Machine
end

section
/-!
# Writes, and what a chip select is answered (13 R494, R499, R500, R506, R510)
-/
namespace Sys2Proof.Machine

namespace State
variable {s t : State} {src : Source} {h : Header}

/-! ## A write -/

theorem firstCode_zero {codes : List Nat} (h0 : ∀ c ∈ codes, c = 0) : firstCode codes = 0 := by
  unfold firstCode
  rw [List.find?_eq_none.2 fun c hc => by simp [h0 c hc]]
  rfl

/-- A write whose header passes, of a client with no rate limit, whose every word may be written. -/
structure WriteAllowed (s : State) (src : Source) (h : Header) (data : List Word) : Prop where
  code : s.headerCode src 2 h = 0
  rate : fld (s.clientAt h.client).rate 7 0 = 0
  len : data.length = h.words
  words : ∀ y ∈ h.addrs.zip data, s.writeWordCode h.client y.1 y.2 = 0
  settled : LevelSettled s

theorem padTo_own_length {α : Type} (d : α) : ∀ xs : List α, padTo d xs.length xs = xs
  | [] => rfl
  | x :: xs => congrArg (x :: ·) (padTo_own_length d xs)

theorem padTo_words {data : List Word} (hlen : data.length = h.words) : padTo 0 h.words data = data := by
  rw [← hlen, padTo_own_length]

section
variable {data : List Word} (hw : WriteAllowed s src h data)
include hw

theorem writeRun_badCrc {hcrc : Byte} (hne : hcrc ≠ crc8 (h.bytes 2 ++ data.flatMap wordBytes)) :
    s.writeRun src h data hcrc =
      { s := (s.hpFlag 2).modHp fun x => { x with cntCrc := satInc x.cntCrc }, code := cHCRC } := by
  have hcodes : firstCode ((h.addrs.zip data).map fun p => s.writeWordCode h.client p.1 p.2) = 0 :=
    firstCode_zero fun c hc => by
      obtain ⟨y, hy, rfl⟩ := List.mem_map.1 hc
      exact hw.words y hy
  unfold writeRun
  dsimp only
  rw [hw.code, noteHeader_ok, if_neg (fun h => h rfl), takeToken_unlimited hw.rate, padTo_words hw.len, hcodes,
    if_neg (fun h => h rfl), if_pos hne]

theorem writeRun_goodCrc :
    s.writeRun src h data (crc8 (h.bytes 2 ++ data.flatMap wordBytes)) =
      if 16 < s.hp.queue.length + h.words then
        { s := (s.hpFlag 4).modHp fun x => { x with cntBusy := satInc x.cntBusy }, code := cBUSY }
      else { s := s.enqueue h.client (Source.path src) (Source.cs src) (h.addrs.zip data), code := cOK } := by
  have hcodes : firstCode ((h.addrs.zip data).map fun p => s.writeWordCode h.client p.1 p.2) = 0 :=
    firstCode_zero fun c hc => by
      obtain ⟨y, hy, rfl⟩ := List.mem_map.1 hc
      exact hw.words y hy
  unfold writeRun
  dsimp only
  rw [hw.code, noteHeader_ok, if_neg (fun h => h rfl), takeToken_unlimited hw.rate, padTo_words hw.len, hcodes,
    if_neg (fun h => h rfl), if_neg (fun h => h rfl), portLevel_settled hw.settled]

end

/-! ## What a chip select is answered -/

/-- The answer a transaction of the chip select leaves: status with the code, the device's data, the CRC, and HP_MISO. -/
def HpAnswers (s t : State) (cs : Fin 2) (h : Header) (o : Nat) (sent : List Word) (code : Nat) (d : List Word) : Prop :=
  ∃ r : HpResp, t.hp.resp = some r ∧ r.status.toNat / 2 * 2 = hpStatus s cs code ∧ r.data = d ∧
    r.crc = crc8 (h.bytes o ++ (sent ++ d).flatMap wordBytes ++ [r.status]) ∧
    bit t.hp.abt cs.val = false ∧ bit t.hp.werr cs.val = false ∧
    t.hp.miso = List.replicate (8 * (5 + 4 * sent.length + if o = 2 then 1 else 0)) .low ++
      (d.flatMap wordBytes ++ [r.status, r.crc]).flatMap (fun b => (List.range 8).map fun i =>
        if bit b (7 - i) then Level.high else .low) ++ [.released]

theorem bit_cleared_self (v : BitVec 2) (cs : Fin 2) : bit (v &&& ~~~(oneBit 2 cs.val)) cs.val = false := by
  rw [bit_and_not cs.isLt, bit_oneBit cs.isLt]
  simp

section
variable (hs : LevelSettled s) (r : TxRun) (hk : PortKept s r.s)
include hs hk

theorem hpAnswers_hpFinish (hc : r.code < 16) (cs : Fin 2) (o : Nat) (h : Header) (sent : List Word) :
    HpAnswers s (hpFinish r cs o h sent) cs h o sent r.code r.data := by
  obtain ⟨hlt, heven⟩ := hpStatus_lt s cs hc
  unfold hpFinish
  rw [status_hp (hs.of_kept hk), hpStatus_of_kept hk]
  exact ⟨_, rfl, status_byte hlt heven _, rfl, rfl, bit_cleared_self _ _, bit_cleared_self _ _, rfl⟩

theorem hp_hpFinish (cs : Fin 2) (o : Nat) (h : Header) (sent : List Word) :
    (hpFinish r cs o h sent).hp.queue = r.s.hp.queue ∧ (hpFinish r cs o h sent).hp.flag = r.s.hp.flag ∧
      (hpFinish r cs o h sent).hp.cntMissed = r.s.hp.cntMissed := by
  unfold hpFinish
  rw [status_hp (hs.of_kept hk)]
  exact ⟨rfl, rfl, rfl⟩

theorem only_hpFinish (cs : Fin 2) (o : Nat) (h : Header) (sent : List Word) :
    OnlyChanges [.hp] r.s (hpFinish r cs o h sent) := by
  unfold hpFinish
  rw [status_hp (hs.of_kept hk)]
  exact (only_modHp _ _).both (only_modHp _ _)

theorem bankData_hpFinish (cs : Fin 2) (o : Nat) (h : Header) (sent : List Word) (a : Nat) :
    (hpFinish r cs o h sent).bankData a = r.s.bankData a := by
  unfold bankData
  rw [(only_hpFinish hs r hk cs o h sent .mem (by decide) : (hpFinish r cs o h sent).mem = r.s.mem)]

end

/-- A write that is queued: its status is that of the queue it joined. -/
theorem queue_hpFinish_enqueue (hs : LevelSettled s) (cs : Fin 2) (o : Nat) (hd : Header) (sent : List Word) (c : Fin 256)
    (path : Path) (ws : List (Nat × Word)) :
    (hpFinish { s := s.enqueue c path cs ws, code := cOK } cs o hd sent).hp.queue = s.hp.queue ++ ws.map (fun p =>
        { client := c, path := path, cs := cs, addr := BitVec.ofNat 20 p.1, data := p.2, at_ := s.time }) ∧
      OnlyChanges [.hp] s (hpFinish { s := s.enqueue c path cs ws, code := cOK } cs o hd sent) := by
  have hs' : LevelSettled (s.enqueue c path cs ws) := hs
  have ho := only_hpFinish hs' { s := s.enqueue c path cs ws, code := cOK } (.refl _) cs o hd sent
  obtain ⟨hq, -, -⟩ := hp_hpFinish hs' { s := s.enqueue c path cs ws, code := cOK } (.refl _) cs o hd sent
  exact ⟨hq, (only_modHp _ _).both ho⟩

end State
end Sys2Proof.Machine
end

section
/-!
# Host-port transactions (13 R491–R514)
-/
namespace Sys2Proof.Machine

namespace State
variable {s : State} {cs : Fin 2} {h : Header}

theorem pd1Up_of_hears (hh : s.hears cs = true) : s.pwr.pd1Up = true := by
  simp only [hears, Bool.and_eq_true] at hh
  exact hh.1.2

section
variable (hh : s.hears cs = true)
include hh

/-- A heard transaction ends with its answer, whatever its run did. -/
theorem completes_heard {i : Instr} {f : State → State} {r : TxRun} {ps qs : List Part} {o : Nat} {sent : List Word}
    {P : State → Prop} (hc : exec i s = .next (s.whenUp s.pwr.pd1Up f)) (hf : f s = hpFinish r cs o h sent)
    (hs : LevelSettled s) (hk : PortKept s r.s) (hlt : r.code < 16) (ho : OnlyChanges qs s r.s) (hps : (Part.hp :: qs).all (· ∈ ps) = true)
    (hP : ∀ t, HpAnswers s t cs h o sent r.code r.data → t.hp.queue = s.hp.queue → t.hp.flag = r.s.hp.flag →
      t.hp.cntMissed = r.s.hp.cntMissed → (∀ a, t.bankData a = r.s.bankData a) → P t) :
    Completes i s ps P := by
  obtain ⟨hq, hfl, hm⟩ := hp_hpFinish hs r hk cs o h sent
  have hsub (p : Part) (hp : p ∈ Part.hp :: qs) : p ∈ ps := by simpa using List.all_eq_true.1 hps p hp
  refine completes_seated hc (pd1Up_of_hears hh) hf
    (hP _ (hpAnswers_hpFinish hs r hk hlt cs o h sent) (hq.trans hk.1) hfl hm (bankData_hpFinish hs r hk cs o h sent)) ?_
  exact (ho.mono fun p hp => hsub p (List.mem_cons_of_mem _ hp)).both
    ((only_hpFinish hs r hk cs o h sent).mono fun p hp => hsub p (by simp_all))

end

/-- The parts a header's checks and a refused one's fault count may change. -/
def refusalParts : List Part :=
  [.chans, .groves, .ads, .tt, .me, .ps, .afe, .sc, .mem, .dma, .hp, .hl, .tsi, .flt, .reports, .freeCtr]

theorem hpNop_heard (hh : s.hears cs = true) (hs : LevelSettled s) :
    Completes (.hpNop cs h) s refusalParts fun t =>
      HpAnswers s t cs h 0 [] (s.headerCode (.hp cs) 0 h) [] ∧ t.hp.queue = s.hp.queue :=
  completes_heard hh rfl (r := s.nopRun (.hp cs) 0 h) (if_pos hh) hs (portKept_noteHeader _ _ _) headerCode_lt
    (only_noteHeader _ _ _) (by decide) fun _ ha hq _ _ _ => ⟨ha, hq⟩

theorem hpBadhdr_heard (hh : s.hears cs = true) (hs : LevelSettled s) {op : Fin 4} (hb : h.bad op.val = true)
    (hp : h.parityOk op.val = true) (hop : op ≠ 1) :
    Completes (.hpBadhdr cs op h) s refusalParts fun t => HpAnswers s t cs h op.val [] 9 [] := by
  have hcode : s.headerCode (.hp cs) op.val h = 9 := headerCode_bad hp hb
  have hf : s.hpBadhdr cs op h = hpFinish (s.nopRun (.hp cs) op.val h) cs op.val h [] := by
    unfold hpBadhdr
    rw [if_pos (by simp [hh, hb])]
    dsimp only
    rw [if_neg hop]
    rfl
  refine completes_heard hh rfl hf hs (portKept_noteHeader _ _ _) headerCode_lt (only_noteHeader _ _ _) (by decide)
    fun t ha _ _ _ _ => ?_
  rw [← hcode]
  exact ha

theorem hpBadhdr_good {op : Fin 4} (hb : h.bad op.val = false) : Completes (.hpBadhdr cs op h) s [] fun _ => True :=
  completes_nothing (congrArg Host.Outcome.next ((congrArg (ite _ · s) (if_neg (by simp [hb]))).trans (ite_self s)))

section
variable {p : Nat} (hh : s.hears cs = true) (hs : LevelSettled s) (hcode : s.headerCode (.hp cs) 1 h = 0) (hg : s.glbOnly = false)
  (hrate : fld (s.clientAt h.client).rate 7 0 = 0) (hlen : h.len = 0) (hr : ReadableWord s h.client h.addr.toNat p)
  (hn : NoHazard s p)
include hh hs hcode hg hrate hlen hr hn

theorem hpRead_served : Completes (.hpRead cs h []) s [.hp, .mem] fun t =>
    (∀ a, t.bankData a = s.bankData a) ∧ HpAnswers s t cs h 1 [] 0 [s.bankData p] := by
  have hrun := readRun_single hcode hg hrate hlen hr hn []
  have ho := only_of_unmarked (s.unmarked_markSaved p)
  have hf : s.hpRead cs h [] = hpFinish { s := s.markSaved p, code := 0, data := [s.bankData p] } cs 1 h [] := by
    unfold hpRead
    rw [if_pos hh, hrun, if_neg (by simp)]
    rfl
  exact completes_heard hh rfl hf hs (.of_hp (ho .hp (by decide)) (ho .time (by decide))) (by decide : 0 < 16) ho (by decide)
    fun t ha _ _ _ hd => ⟨fun a => (hd a).trans (bankData_of_unmarked (s.unmarked_markSaved p) a), ha⟩

theorem hpRead_missed : Completes (.hpRead cs h [0]) s [.hp] fun t =>
    HpAnswers s t cs h 1 [] 11 [0] ∧ t.hp.cntMissed = satInc s.hp.cntMissed := by
  have hrun := readRun_single hcode hg hrate hlen hr hn [0]
  have hf : s.hpRead cs h [0] =
      hpFinish { s := s.modHp fun x => { x with cntMissed := satInc x.cntMissed }, code := 11, data := [0] } cs 1 h [] := by
    unfold hpRead
    rw [if_pos hh, hrun, if_pos (by simp)]
    rfl
  exact completes_heard hh rfl hf hs ⟨rfl, rfl, rfl, rfl, rfl⟩ (by decide : 11 < 16) (only_modHp _ _) (by decide)
    fun t ha _ _ hm _ => ⟨ha, hm⟩

end

section
variable {data : List Word} (hh : s.hears cs = true) (hw : WriteAllowed s (.hp cs) h data)
include hh hw

theorem hpWrite_badCrc {hcrc : Byte} (hne : hcrc ≠ crc8 (h.bytes 2 ++ data.flatMap wordBytes)) :
    Completes (.hpWrite cs h data hcrc) s [.hp] fun t =>
      HpAnswers s t cs h 2 data 8 [] ∧ t.hp.queue = s.hp.queue ∧ bit t.hp.flag 1 = true := by
  have hf : s.hpWrite cs h data hcrc =
      hpFinish { s := (s.hpFlag 2).modHp fun x => { x with cntCrc := satInc x.cntCrc }, code := 8 } cs 2 h data := by
    unfold hpWrite
    rw [if_pos hh, writeRun_badCrc hw hne, padTo_words hw.len]
    rfl
  refine completes_heard hh rfl hf hw.settled ⟨rfl, rfl, rfl, rfl, rfl⟩ (by decide : 8 < 16)
    ((only_hpFlag _ _).both (only_modHp _ _)) (by decide) fun t ha hq hfl _ _ => ⟨ha, hq, ?_⟩
  rw [hfl, show State.hp _ = _ from rfl]
  exact (bit_or s.hp.flag 2 1).trans (Bool.or_true _)

theorem hpWrite_busy (hfull : 16 < s.hp.queue.length + h.words) :
    Completes (.hpWrite cs h data (crc8 (h.bytes 2 ++ data.flatMap wordBytes))) s [.hp] fun t =>
      HpAnswers s t cs h 2 data 1 [] ∧ t.hp.queue = s.hp.queue ∧ bit t.hp.flag 2 = true := by
  have hf : s.hpWrite cs h data (crc8 (h.bytes 2 ++ data.flatMap wordBytes)) =
      hpFinish { s := (s.hpFlag 4).modHp fun x => { x with cntBusy := satInc x.cntBusy }, code := 1 } cs 2 h data := by
    unfold hpWrite
    rw [if_pos hh, writeRun_goodCrc hw, if_pos hfull, padTo_words hw.len]
    rfl
  refine completes_heard hh rfl hf hw.settled ⟨rfl, rfl, rfl, rfl, rfl⟩ (by decide : 1 < 16)
    ((only_hpFlag _ _).both (only_modHp _ _)) (by decide) fun t ha hq hfl _ _ => ⟨ha, hq, ?_⟩
  rw [hfl, show State.hp _ = _ from rfl]
  exact (bit_or s.hp.flag 4 2).trans (Bool.or_true _)

theorem hpWrite_queued (hroom : s.hp.queue.length + h.words ≤ 16) :
    Completes (.hpWrite cs h data (crc8 (h.bytes 2 ++ data.flatMap wordBytes))) s [.hp] fun t =>
      t.hp.queue = s.hp.queue ++ (h.addrs.zip data).map fun y =>
        { client := h.client, path := .hp, cs := cs, addr := .ofNat 20 y.1, data := y.2, at_ := s.time } := by
  have hf : s.hpWrite cs h data (crc8 (h.bytes 2 ++ data.flatMap wordBytes)) =
      hpFinish { s := s.enqueue h.client .hp cs (h.addrs.zip data), code := cOK } cs 2 h data := by
    unfold hpWrite
    rw [if_pos hh, writeRun_goodCrc hw, if_neg (by omega), padTo_words hw.len]
    rfl
  obtain ⟨hq, ho⟩ := queue_hpFinish_enqueue hw.settled cs 2 h data h.client .hp (h.addrs.zip data)
  exact completes_seated rfl (pd1Up_of_hears hh) hf hq ho

end

/-! ## Aborts -/

theorem hpAbort_early (hh : s.hears cs = true) : s.hpAbort cs .early = (s.hpFlag 8).modHp fun x =>
    { x with abt := x.abt ||| oneBit 2 cs.val, cntAbort := satInc x.cntAbort, resp := none, miso := [.released] } := if_pos hh

/-- What an abort in the header leaves of the port. -/
theorem hp_hpAbort_early (hh : s.hears cs = true) (t : State) (ht : s.hpAbort cs .early = t) : t.hp.queue = s.hp.queue ∧
    bit t.hp.abt cs.val = true ∧ bit t.hp.flag 3 = true ∧ t.hp.cntAbort = satInc s.hp.cntAbort ∧ t.hp.resp = none := by
  rw [← ht, hpAbort_early hh]
  refine ⟨rfl, (bit_or _ _ _).trans ?_, (bit_or s.hp.flag 8 3).trans (Bool.or_true _), rfl, rfl⟩
  rw [bit_oneBit cs.isLt]
  simp

theorem only_hpAbort_early (hh : s.hears cs = true) : OnlyChanges [.hp] s (s.hpAbort cs .early) := by
  rw [hpAbort_early hh]
  exact (only_hpFlag _ _).both (only_modHp _ _)

end State
end Sys2Proof.Machine
end

section
/-!
# The write queue's head (13 R502–R504)
-/
namespace Sys2Proof.Machine

namespace State
variable {s : State} {e : HpEntry} {q : List HpEntry} {p : Nat}

/-- The head has left the queue in this cycle. -/
def headTaken (s : State) (q : List HpEntry) : State :=
  s.modHp fun h => { h with queue := q, retired := s.time :: h.retired.filter fun t => decide (s.time < t + 2) }

/-- What becomes of the head once it has left the queue. -/
def carried (u : State) (e : HpEntry) : State :=
  match u.carryOut e with
  | (.ok t, _) => t
  | (.error k, t) => t.queueFail e k

theorem carried_ok {u t v : State} (h : u.carryOut e = (.ok t, v)) : carried u e = t := by rw [carried, h]
theorem carried_error {u v : State} {k : Nat} (h : u.carryOut e = (.error k, v)) : carried u e = v.queueFail e k := by
  rw [carried, h]

theorem hpRetire_empty (hq : s.hp.queue = []) : s.hpRetire = s := by rw [hpRetire, hq]

theorem hpRetire_waits (hq : s.hp.queue = e :: q)
    (hw : s.time < e.at_ + 3 ∨ s.time ∈ s.hp.retired ∨ s.waits (s.nativeAddr e.addr.toNat) = true) : s.hpRetire = s := by
  rw [hpRetire, hq]
  refine if_pos ?_
  rcases hw with hw | hw | hw
  · exact .inl hw
  · exact .inr (.inl hw)
  · exact .inr (.inr (.inl hw))

/-- The head of a queue that may retire it now. -/
structure HeadReady (s : State) (e : HpEntry) (q : List HpEntry) (p : Nat) : Prop where
  head : s.hp.queue = e :: q
  native : s.nativeAddr e.addr.toNat = p
  free : s.waits p = false
  old : e.at_ + 3 ≤ s.time
  alone : s.time ∉ s.hp.retired
  up : s.pwr.pd1Up = true
  port : (s.portOf p true).any s.portUsed = false

section
variable (hr : HeadReady s e q p)
include hr

theorem hpRetire_ready : s.hpRetire = carried (headTaken (s.usePort (s.portOf p true)) q) e := by
  have hno : ¬ (s.time < e.at_ + 3 ∨ s.time ∈ s.hp.retired ∨ s.waits p = true ∨ (s.portOf p true).any s.portUsed = true) := by
    have hold := hr.old
    rintro (h | h | h | h)
    · omega
    · exact hr.alone h
    · exact Bool.false_ne_true (hr.free.symm.trans h)
    · exact Bool.false_ne_true (hr.port.symm.trans h)
  rw [hpRetire, hr.head]
  dsimp only
  rw [hr.native, if_neg hno]
  obtain ⟨f, hf⟩ := usePort_eq s (s.portOf p true)
  rw [hf]
  rfl

/-- An entry of a fenced client fails (13 R504). -/
theorem hpRetire_fenced (hf : (s.client e.client).st = .fenced) (hc : e.client ≠ 0) (hpath : e.path = .hp) :
    Completes .hpQueueRetire s [.hp] fun t =>
      t.hp.queue = q ∧ bit t.hp.flag 4 = true ∧ t.hp.errClient = e.client ∧ t.hp.errCause = 1 ∧ t.hp.errAddr = e.addr ∧
        bit t.hp.werr e.cs.val = true := by
  obtain ⟨f, hport⟩ := usePort_eq s (s.portOf p true)
  have hcarry : (headTaken (s.modCyc f) q).carryOut e = (.error kFENCED, headTaken (s.modCyc f) q) := if_pos ⟨hf, hc⟩
  have hx := hpRetire_ready hr
  rw [hport, carried_error hcarry, queueFail, hpath] at hx
  refine completes_seated rfl hr.up hx ⟨rfl, (bit_or _ _ _).trans (Bool.or_true _), rfl, rfl, rfl, (bit_or _ _ _).trans ?_⟩ ?_
  · rw [bit_oneBit e.cs.isLt]
    simp
  · refine OnlyChanges.both ?_ (((only_hpFlag _ _).both (only_modHp _ _)).both (only_modHp _ _))
    exact (only_modCyc s f [.hp]).both (only_modHp _ _)

section
variable (hlive : (s.client e.client).st ≠ .fenced ∨ e.client = 0) (hpd : s.pwr.pdUp = true)
include hlive hpd

/-- A word of a bank that is on is stored. -/
theorem hpRetire_bank (hb : isBankAddr p = true) (hon : (s.bank (bankOf p)).st = .on) (hcan : MemCanonical s) :
    Completes .hpQueueRetire s [.hp, .mem] fun t => t.hp.queue = q ∧ t.bankData p = e.data ∧
      ∀ a, a + 4 ≤ p ∨ p + 4 ≤ a → t.bankData a = s.bankData a := by
  obtain ⟨f, hport⟩ := usePort_eq s (s.portOf p true)
  have hstore : Stores p 4 e.data s ((headTaken (s.modCyc f) q).bankPut p e.data) :=
    stores_bankPut (s := headTaken (s.modCyc f) q) hcan p e.data
  have hput := only_bankPut (headTaken (s.modCyc f) q) p e.data
  have hcarry : (headTaken (s.modCyc f) q).carryOut e =
      (.ok ((headTaken (s.modCyc f) q).bankPut p e.data), (headTaken (s.modCyc f) q).bankPut p e.data) := by
    have hnf : ¬ (((headTaken (s.modCyc f) q).client e.client).st = .fenced ∧ e.client ≠ 0) := by
      rintro ⟨h1, h2⟩
      exact hlive.elim (fun h => h h1) h2
    have hnat : (headTaken (s.modCyc f) q).nativeAddr e.addr.toNat = p := hr.native
    have hup : (headTaken (s.modCyc f) q).pwr.pdUp = true := hpd
    have hwrite := memWrite_word (s := headTaken (s.modCyc f) q) (resolve_bank hb) hon e.data
    unfold carryOut
    dsimp only
    rw [if_neg hnf, hnat, hup, if_neg (by simp), if_pos (isMemAddr_of_bank hb), hwrite]
  have hx := hpRetire_ready hr
  rw [hport, carried_ok hcarry] at hx
  refine completes_seated rfl hr.up hx ⟨?_, hstore.bankData, fun a ha => hstore.bankData_apart ha⟩ ?_
  · exact congrArg Hp.queue (hput .hp (by decide))
  · have htaken : OnlyChanges [.hp] s (headTaken (s.modCyc f) q) := (only_modCyc s f [.hp]).both (only_modHp _ _)
    exact (htaken.mono (by decide)).both (hput.mono (by decide))

/-- A register's write takes effect as its client's. -/
theorem hpRetire_register (hm : isMemAddr p = false) :
    exec .hpQueueRetire s = .next ((((headTaken s q).clientWrite e.path e.client p e.data).getD (headTaken s q)).modCyc fun y =>
      { y with hpWas := (p, (headTaken s q).regValue p) :: y.hpWas }) := by
  have hres : s.resolve p = none := by
    simp only [isMemAddr, Bool.and_eq_false_iff, decide_eq_false_iff_not] at hm
    unfold resolve
    rw [if_neg (by simp [isBankAddr]; omega), if_neg (by simp [isAperture]; omega)]
  have hport : s.portOf p true = none := by rw [portOf, hres]
  have hcarry : (headTaken s q).carryOut e =
      (.ok ((((headTaken s q).clientWrite e.path e.client p e.data).getD (headTaken s q)).modCyc fun y =>
        { y with hpWas := (p, (headTaken s q).regValue p) :: y.hpWas }), headTaken s q) := by
    have hnf : ¬ (((headTaken s q).client e.client).st = .fenced ∧ e.client ≠ 0) := by
      rintro ⟨h1, h2⟩
      exact hlive.elim (fun h => h h1) h2
    have hnat : (headTaken s q).nativeAddr e.addr.toNat = p := hr.native
    have hup : (headTaken s q).pwr.pdUp = true := hpd
    unfold carryOut
    dsimp only
    rw [if_neg hnf, hnat, hup, if_neg (by simp), if_neg (by simp [hm])]
  have hx := hpRetire_ready hr
  rw [hport, show s.usePort none = s from rfl, carried_ok hcarry] at hx
  exact congrArg Host.Outcome.next ((if_pos hr.up).trans hx)

end
end

/-! ## The obligation -/

theorem unheard_unchanged {cs : Fin 2} (h : Header) (data : List Word) (hcrc : Byte) (op : Fin 4) (hh : s.hears cs = false) :
    ∀ c ∈ [Instr.hpNop cs h, .hpRead cs h [], .hpWrite cs h data hcrc, .hpBadhdr cs op h, .hpAbort cs .early],
      Completes c s [] fun _ => True := by
  have hno : ¬ s.hears cs = true := by simp [hh]
  have hbad : ¬ (s.hears cs && h.bad op.val) = true := by simp [hh]
  intro c hc
  simp only [List.mem_cons, List.not_mem_nil, or_false] at hc
  obtain rfl | rfl | rfl | rfl | rfl := hc
  · exact completes_idle rfl (if_neg hno)
  · exact completes_idle rfl (if_neg hno)
  · exact completes_idle rfl (if_neg hno)
  · exact completes_idle rfl (if_neg hbad)
  · exact completes_idle rfl (if_neg hno)

end State

open State in
/-- Settles O51: the header checks one by one, then what each heard transaction answers through `hpFinish`, then what becomes
of the queue's head. -/
theorem hostPortTransactions : Obligations.HostPortTransactions := by
  unfold Obligations.HostPortTransactions
  intro s cs h op data hcrc e q p
  refine ⟨headerCode_parity, fun hp => ⟨headerCode_bad hp, fun hb => ⟨headerCode_notReady hp hb, fun hr hg =>
    ⟨headerCode_unbound hp hb hr hg, fun hbind => ⟨headerCode_fenced hp hb hr hg hbind, fun hf => ⟨fun hop =>
      headerCode_rate hp hb hr hg hbind hf fun h0 => hop (Fin.ext h0), fun hok =>
      headerCode_ok hp hb hr hg hbind hf (hok.imp_left fun h0 => congrArg Fin.val h0)⟩⟩⟩⟩⟩,
    unheard_unchanged h data hcrc op, ?heard, ?collision, ?stays, ?held, ?retires⟩
  case heard =>
    intro hh hs
    refine ⟨?nop, hpBadhdr_heard hh hs, hpBadhdr_good, ?read, ?write, ?abort⟩
    case nop =>
      rintro rfl
      exact hpNop_heard hh hs
    case read =>
      rintro rfl hcode hg hrate hlen hnat hreg hperm hbank hal hlock hon hrecov hq hw hclean
      have hr : ReadableWord s h.client h.addr.toNat p := ⟨hnat, hreg, hperm, hbank, hal, hlock, hon, hrecov, hclean⟩
      exact ⟨hpRead_served hh hs hcode hg hrate hlen hr ⟨hq, hw⟩, hpRead_missed hh hs hcode hg hrate hlen hr ⟨hq, hw⟩⟩
    case write =>
      rintro rfl hcode - hrate hlen hwords
      have hw : WriteAllowed s (.hp cs) h data := ⟨hcode, hrate, hlen, hwords, hs⟩
      refine ⟨hpWrite_badCrc hh hw, ?_⟩
      rintro rfl
      exact ⟨hpWrite_busy hh hw, hpWrite_queued hh hw⟩
    case abort =>
      exact completes_seated rfl (pd1Up_of_hears hh) rfl (hp_hpAbort_early hh _ rfl) (only_hpAbort_early hh)
  case collision =>
    intro h0 h1
    have hh : s.hears cs = true := by
      rcases Fin.exists_fin_two.1 ⟨cs, rfl⟩ with rfl | rfl
      · exact h0
      · exact h1
    have hx : s.hpCollision cs .early = s.hpAbort cs .early := if_pos (by simp [h0, h1])
    obtain ⟨hq, ha, hf, hn, -⟩ := hp_hpAbort_early hh _ rfl
    exact completes_seated rfl (pd1Up_of_hears hh) hx ⟨hq, ha, hf, hn⟩ (only_hpAbort_early hh)
  case stays =>
    rintro (hq | hdown)
    · exact completes_idle rfl (hpRetire_empty hq)
    · exact completes_unseated rfl hdown
  case held => exact fun hq hw => completes_idle rfl (hpRetire_waits hq hw)
  case retires =>
    intro hq hnat hfree hold halone hup hport
    have hr : HeadReady s e q p := ⟨hq, hnat, hfree, hold, halone, hup, hport⟩
    exact ⟨hpRetire_fenced hr, fun hlive hpd => ⟨fun hb _ => hpRetire_bank hr hlive hpd hb, hpRetire_register hr hlive hpd⟩⟩

end Sys2Proof.Machine
end

section
/-!
# One link at a time: enable, resync, comma, loss of signal (15 R566, R572–R574, R610)
-/
namespace Sys2Proof.Machine

namespace State
variable {s t u : State} {l : Fin 4}

/-! ## What a command of link l leaves to the other links -/

def LinksApart (l : Fin 4) (s t : State) : Prop := ∀ j, j ≠ l → t.link j = s.link j

namespace LinksApart

theorem refl (l : Fin 4) (s : State) : LinksApart l s s := fun _ _ => rfl
theorem trans (h : LinksApart l s t) (h' : LinksApart l t u) : LinksApart l s u := fun j hj => (h' j hj).trans (h j hj)
theorem of_only {ps : List Part} (h : OnlyChanges ps s t) (hl : Part.hl ∉ ps) : LinksApart l s t := fun j _ => h.link hl j
theorem modLink (s : State) (l : Fin 4) (f : Hl → Hl) : LinksApart l s (s.modLink l f) :=
  fun j hj => (link_modLink (s := s) l j f).trans (if_neg (Ne.symm hj))
theorem hlFlag (s : State) (l : Fin 4) (b : BitVec 15) : LinksApart l s (s.hlFlag l b) := fun _ hj => link_hlFlag_ne (Ne.symm hj) b

end LinksApart

theorem modLink_same {f : Hl → Hl} (h : f (s.link l) = s.link l) : s.modLink l f = s := by
  have hv : vset s.hl l f = s.hl := by
    refine Vector.ext fun i hi => ?_
    have := at_vset s.hl l ⟨i, hi⟩ f
    by_cases hil : l = ⟨i, hi⟩
    · rw [if_pos hil] at this
      subst hil
      exact this.trans h
    · exact this.trans (if_neg hil)
  exact congrArg (fun v : Vector Hl 4 => { s with hl := v }) hv

/-! ## The serial ports bound to the links -/

theorem only_settleMsp (s0 s : State) : OnlyChanges [.msp] s (settleMsp s0 s) := by
  refine .foldFin (fun m u => ?_) s
  dsimp only
  have h : OnlyChanges [.msp] u (if s0.mspLink m = u.mspLink m then u else u.modMsp m fun x => x.empty) :=
    .ite (.refl _ _) (only_modMsp _ _ _)
  exact .ite (h.both (only_mspRun _ _ _)) h

theorem settleMsp_self (s : State) : settleMsp s s = s := by
  have hstep (m : Fin 2) : (if 2 ≤ (s.mspLinks m).length ∧ s.mspLinks m ≠ s.mspLinks m then
      s.mspRun m fun x => { x with flag := x.flag ||| qDUPSEL } else s) = s := if_neg fun h => h.2 rfl
  have hfix : ∀ ms : List (Fin 2), ms.foldl (fun u m =>
      let u := if s.mspLink m = u.mspLink m then u else u.modMsp m fun x => x.empty
      if 2 ≤ (u.mspLinks m).length ∧ s.mspLinks m ≠ u.mspLinks m then u.mspRun m fun x => { x with flag := x.flag ||| qDUPSEL }
      else u) s = s := by
    intro ms
    induction ms with
    | nil => rfl
    | cons m ms ih =>
      rw [List.foldl_cons]
      dsimp only
      rw [if_pos (rfl : s.mspLink m = s.mspLink m), hstep m]
      exact ih
  exact hfix _

/-! ## Enable, resync, comma and loss of signal -/

/-- A link that hunts: nothing is aligned, and the link is not stable. -/
def Hunting (y : Hl) : Prop := y.fst_ = .hunt ∧ y.mfst = .hunt ∧ y.stable = false

theorem stable_noteRaw_false {h : Hl} (hraw : ¬ h.raw &&& 7 = 0) : h.noteRaw.stable = false :=
  (congrArg (h.stable && ·) (decide_eq_false hraw)).trans (Bool.and_false _)

theorem stable_lost {h : Hl} (hf : h.fst_ ≠ .sync) : h.noteRaw.stable = false := by
  have hraw : ¬ h.raw &&& 7 = 0 := by
    intro hz
    have hb : bit (h.raw &&& 7) 1 = false := by rw [hz]; rfl
    have hn : b2n (h.fst_ != .sync) = 1 := by cases hx : h.fst_ <;> simp_all [b2n]
    revert hb
    unfold Hl.raw
    rw [hn]
    cases h.rawLos <;> cases (h.mfst != .sync) <;> cases h.rawExc <;> cases h.rawRdi <;> decide
  exact stable_noteRaw_false hraw

theorem hunting_hunt (h : Hl) : Hunting h.hunt := ⟨rfl, rfl, stable_lost (by simp)⟩

/-- The link as HL_CFG.EN finds it, before it hunts. -/
def enabling (h : Hl) : Hl :=
  { h with en := true, rawLos := true, defects := 7, integ := .replicate 6 0, clean := 0, stable := false,
           seen := 7, bip4 := [], reiTx := 0, last := none, tseq := false, rseq := false,
           ackTx := 0, seenMsg := none, gone := none, mdcOut := [], xchOut := [], secRaw := true, rd := false }

theorem hlEnable_off (hen : (s.link l).en = false) : s.hlEnable l = s.modLink l fun h => (enabling h).hunt :=
  if_neg (by simp [hen])

theorem link_hlEnable (hen : (s.link l).en = false) : (settleMsp s (s.hlEnable l)).link l = (enabling (s.link l)).hunt := by
  rw [hlEnable_off hen]
  exact ((only_settleMsp s _).link (by decide) l).trans (link_modLink_self (s := s) l _)

theorem only_hlEnable (hen : (s.link l).en = false) : OnlyChanges [.hl, .msp] s (settleMsp s (s.hlEnable l)) := by
  rw [hlEnable_off hen]
  exact ((only_modLink _ _ _).mono (by decide)).both ((only_settleMsp _ _).mono (by decide))

theorem apart_hlEnable (hen : (s.link l).en = false) : LinksApart l s (settleMsp s (s.hlEnable l)) := by
  rw [hlEnable_off hen]
  exact (LinksApart.modLink s l _).trans (.of_only (only_settleMsp s _) (by decide))

theorem hlEnable_on (hen : (s.link l).en = true) : settleMsp s (s.hlEnable l) = s := by
  rw [show s.hlEnable l = s from if_pos hen, settleMsp_self]

/-- A command that rewrites link l alone. -/
theorem completes_link {i : Instr} {g : State → State} {f : Hl → Hl} {P : State → Prop} (hc : exec i s = .next (s.whenUp s.pwr.pdUp g))
    (hup : s.pwr.pdUp = true) (hg : g s = s.modLink l f)
    (hP : ∀ t, LinksApart l s t → t.link l = f (s.link l) → P t) : Completes i s [.hl] P :=
  completes_to hc hup hg (hP _ (.modLink s l f) (link_modLink_self (s := s) l f)) (only_modLink _ _ _)

/-- A command that would rewrite link l alone, and finds nothing to rewrite. -/
theorem completes_linkSame {i : Instr} {g : State → State} {f : Hl → Hl} (hc : exec i s = .next (s.whenUp s.pwr.pdUp g))
    (hg : g s = s.modLink l f) (hf : f (s.link l) = s.link l) : Completes i s [] fun _ => True :=
  completes_unchanged hc (hg.trans (modLink_same hf))

theorem seen_bit_los {h : Hl} (hlos : h.rawLos = true) : bit h.noteRaw.seen 0 = true ∧ h.noteRaw.stable = false := by
  have hodd : h.raw.getLsbD 0 = true := by
    unfold Hl.raw
    rw [hlos]
    cases (h.fst_ != .sync) <;> cases (h.mfst != .sync) <;> cases h.rawExc <;> cases h.rawRdi <;> rfl
  have hraw : ¬ h.raw &&& 7 = 0 := by
    intro hz
    have hb : (h.raw &&& 7).getLsbD 0 = false := by rw [hz]; rfl
    rw [BitVec.getLsbD_and, hodd] at hb
    exact absurd hb (by decide)
  exact ⟨(bit_or _ _ _).trans (by rw [show bit h.raw 0 = true from hodd, Bool.or_true]), stable_noteRaw_false hraw⟩

theorem stable_kept {h : Hl} (hlos : h.rawLos = false) (hf : h.fst_ = .sync) (hm : h.mfst = .sync) : h.noteRaw.stable = h.stable := by
  have hraw : h.raw &&& 7 = 0 := by
    unfold Hl.raw
    rw [hlos, hf, hm]
    cases h.rawExc <;> cases h.rawRdi <;> rfl
  exact (congrArg (h.stable && ·) (decide_eq_true hraw)).trans (Bool.and_true _)

end State
end Sys2Proof.Machine
end

section
/-!
# A received frame, part by part (15 R565–R573, R592, R599)
-/
namespace Sys2Proof.Machine

/-! ## What a frame does to alignment and counts -/

namespace Hl
variable {h : Hl}

/-- What the statement about a frame speaks of, but the acknowledgement: alignment, REI, RDI and BIP. -/
def bare (h : Hl) : Hl :=
  { h with seen := 0, stable := false, cv := 0, ackRx := 0, out := none, late := 0, gone := none, flag := 0, idCur := [],
           idPrev := [], idrx := [], store := [], secBip := 0, bip4 := [], reiTx := 0 }

/-- The identity byte touches the identity alone. -/
theorem onId_eq (h : Hl) (b : Option Byte) : ∃ cur prev rx, h.onId b = { h with idCur := cur, idPrev := prev, idrx := rx } := by
  unfold onId
  extract_lets cur
  split
  · exact ⟨_, _, _, rfl⟩
  · split <;> exact ⟨_, _, _, rfl⟩

/-- O1 is what the place of the frame in the multiframe asks for. -/
def InPlace (h : Hl) (k1 : Bool) (o1 : Option Byte) : Prop :=
  if (h.fn.toNat + 1) % 16 = 0 then k1 = true else k1 = false ∧ o1 = some (.ofNat 8 ((h.fn.toNat + 1) % 16))

/-- How `onO1` decides it. -/
def rightO1 (h : Hl) (k1 : Bool) (o1 : Option Byte) : Bool :=
  if (h.fn.toNat + 1) % 16 = 0 then k1 else decide (!k1 ∧ o1 = some (.ofNat 8 ((h.fn.toNat + 1) % 16)))

theorem rightO1_iff (k1 : Bool) (o1 : Option Byte) : h.rightO1 k1 o1 = true ↔ h.InPlace k1 o1 := by
  unfold rightO1 InPlace
  split
  · rfl
  · simp

section
variable {k1 : Bool} {o1 : Option Byte}

theorem onO1_hunt (hm : h.mfst = .hunt) :
    h.onO1 k1 o1 = if k1 then { h with mfst := .presync, mfCount := 0, fn := 0 } else h := by
  rw [onO1, hm]

theorem onO1_presync (hm : h.mfst = .presync) : h.onO1 k1 o1 =
    if !h.rightO1 k1 o1 then h.mfHunt
    else if h.mfCount + 1 = 16 then { h with mfst := .sync, mfCount := 0, badO1 := 0, fn := 0 }
    else { h with mfCount := h.mfCount + 1, fn := .ofNat 4 ((h.fn.toNat + 1) % 16) } := by
  rw [onO1, hm]
  rfl

theorem onO1_sync (hm : h.mfst = .sync) : h.onO1 k1 o1 =
    if h.rightO1 k1 o1 then { h with fn := .ofNat 4 ((h.fn.toNat + 1) % 16), badO1 := 0 }
    else if h.badO1 + 1 = 2 then ({ h with fn := .ofNat 4 ((h.fn.toNat + 1) % 16) } : Hl).mfHunt
    else { h with fn := .ofNat 4 ((h.fn.toNat + 1) % 16), badO1 := h.badO1 + 1 } := by
  rw [onO1, hm]
  rfl

/-- O1 leaves the frame alignment, the counts and the management channel. -/
theorem onO1_eq (h : Hl) (k1 : Bool) (o1 : Option Byte) : ∃ m n fn bad cur prev seen stable, h.onO1 k1 o1 =
    { h with mfst := m, mfCount := n, fn := fn, badO1 := bad, idCur := cur, idPrev := prev, seen := seen, stable := stable } := by
  cases hm : h.mfst with
  | hunt =>
    rw [onO1_hunt hm]
    split <;> exact ⟨_, _, _, _, _, _, _, _, rfl⟩
  | presync =>
    rw [onO1_presync hm]
    split
    · exact ⟨_, _, _, _, _, _, _, _, rfl⟩
    · split <;> exact ⟨_, _, _, _, _, _, _, _, rfl⟩
  | sync =>
    rw [onO1_sync hm]
    split
    · exact ⟨_, _, _, _, _, _, _, _, rfl⟩
    · split <;> exact ⟨_, _, _, _, _, _, _, _, rfl⟩

/-- The multiframe states of Table 15.3. -/
theorem multiframe_onO1 (h : Hl) (k1 : Bool) (o1 : Option Byte) (y : Hl) (hy : h.onO1 k1 o1 = y) :
    (h.mfst = .hunt → k1 = false → y.mfst = .hunt) ∧
    (h.mfst = .hunt → k1 = true → y.mfst = .presync ∧ y.fn = 0) ∧
    (h.mfst = .presync → ¬ h.InPlace k1 o1 → y.mfst = .hunt) ∧
    (h.mfst = .presync → h.InPlace k1 o1 → h.mfCount = 15 → y.mfst = .sync) ∧
    (h.mfst = .presync → h.InPlace k1 o1 → h.mfCount < 15 → y.mfst = .presync ∧ y.mfCount = h.mfCount + 1) ∧
    (h.mfst = .sync → h.InPlace k1 o1 → y.mfst = .sync ∧ y.badO1 = 0) ∧
    (h.mfst = .sync → ¬ h.InPlace k1 o1 → h.badO1 = 0 → y.mfst = .sync ∧ y.badO1 = 1) ∧
    (h.mfst = .sync → ¬ h.InPlace k1 o1 → h.badO1 = 1 → y.mfst = .hunt) := by
  subst hy
  refine ⟨fun hm hk => ?_, fun hm hk => ?_, fun hm hp => ?_, fun hm hp hc => ?_, fun hm hp hc => ?_, fun hm hp => ?_,
    fun hm hp hb => ?_, fun hm hp hb => ?_⟩
  · rw [onO1_hunt hm, if_neg (by simp [hk])]
    exact hm
  · rw [onO1_hunt hm, if_pos hk]
    exact ⟨rfl, rfl⟩
  · rw [onO1_presync hm, if_pos (by simpa using fun hr => hp (rightO1_iff k1 o1 |>.1 hr))]
    rfl
  · rw [onO1_presync hm, if_neg (by simpa using rightO1_iff k1 o1 |>.2 hp), if_pos (by omega)]
  · rw [onO1_presync hm, if_neg (by simpa using rightO1_iff k1 o1 |>.2 hp), if_neg (by omega)]
    exact ⟨hm, rfl⟩
  · rw [onO1_sync hm, if_pos (rightO1_iff k1 o1 |>.2 hp)]
    exact ⟨hm, rfl⟩
  · rw [onO1_sync hm, if_neg (fun hr => hp (rightO1_iff k1 o1 |>.1 hr)), if_neg (by omega)]
    exact ⟨hm, by rw [hb]⟩
  · rw [onO1_sync hm, if_neg (fun hr => hp (rightO1_iff k1 o1 |>.1 hr)), if_pos (by omega)]
    rfl

end

/-- A frame in SYNC that stays in SYNC. -/
theorem onO0_stays {comma : Bool} (hf : h.fst_ = .sync) (hb : comma = true ∨ h.badO0 < 3) :
    h.onO0 comma = { h with badO0 := if comma then 0 else h.badO0 + 1 } := by
  rw [onO0, hf]
  cases comma
  · have hlt : h.badO0 < 3 := by simpa using hb
    simp only [Bool.false_eq_true, if_false]
    rw [if_neg (by omega)]
  · rfl

end Hl

namespace State
variable {s t u : State} {l : Fin 4}

/-! ## The stages of HL_FRAME_RECEIVED -/

/-- The link once O0 and O1 are judged. -/
def alignedLink (h : Hl) (comma k1 : Bool) (o1 : Option Byte) : Hl :=
  if (h.onO0 comma).fst_ = .sync then (h.onO0 comma).onO1 k1 o1 else h.onO0 comma

def frameCv (h : Hl) (k1 : Bool) (o1 : Option Byte) (bytes : List (Option Byte)) : Nat :=
  violations bytes + b2n (o1.isNone && !k1) + b2n (k1 && decide (h.mfst = .sync) && decide (h.fn ≠ 0))

/-- The alignment and the code violations are written. -/
def frameNoted (s : State) (l : Fin 4) (h : Hl) (n : Nat) : State :=
  if n ≠ 0 then (s.modLink l fun _ => ({ h with cv := satOf 16 (h.cv.toNat + n) } : Hl).noteRaw).linkSec l fun x => { x with errored := true }
  else s.modLink l fun _ => ({ h with cv := satOf 16 (h.cv.toNat + n) } : Hl).noteRaw

/-- BIP of the frame before is checked. -/
def bipChecked (s : State) (l : Fin 4) (e : Option Byte) (b : Byte) : State :=
  match e with
  | some e => s.countBip l (popCount (e ^^^ b))
  | none => s

/-- REI, RDI and the bytes of the frame are taken. -/
def frameKept (h : Hl) (bytes : List (Option Byte)) (st : Byte) (full : Bool) : Hl :=
  ({ h with bipExp := some (bipOf bytes), rei := satOf 16 (h.rei.toNat + fld st 3 0), rawRdi := bit st 7
            store := (h.store ++ [({ bytes := bytes, sync := full } : RxFrame)]).drop (h.store.length + 1 - 2) } : Hl).noteRaw

/-- The acknowledgement of the frame. -/
def frameAcked (s : State) (l : Fin 4) (a b : Option Byte) : State :=
  match a, b with
  | some a, some b => s.mdcAck l (BitVec.ofNat 16 (leNat [a, b]))
  | _, _ => s

/-- The identity byte of the frame. -/
def frameIdentity (s : State) (l : Fin 4) (full : Bool) (idrx : List Byte) (b : Option Byte) : State :=
  if full then
    if ((s.modLink l fun h => h.onId b).link l).idrx = idrx then s.modLink l fun h => h.onId b
    else if l = 0 ∧ ((s.modLink l fun h => h.onId b).hlFlag l lIDCHG).pack.hlswap = true then
      ((s.modLink l fun h => h.onId b).hlFlag l lIDCHG).packTrigger
    else (s.modLink l fun h => h.onId b).hlFlag l lIDCHG
  else s

section
variable (comma k1 : Bool) (o1 : Option Byte) (bytes : List (Option Byte))

theorem hlFrame_lost (hlen : bytes.length = 270) (hen : (s.link l).en = true) (hh : (s.link l).fst_ ≠ .hunt)
    (hf : (alignedLink (s.link l) comma k1 o1).fst_ ≠ .sync) :
    s.hlFrame l comma k1 o1 bytes =
      (frameNoted s l (alignedLink (s.link l) comma k1 o1) (frameCv (alignedLink (s.link l) comma k1 o1) k1 o1 bytes)).modLink l
        fun h => { h with bipExp := none } := by
  have hpad : padTo none 270 bytes = bytes := by rw [← hlen, padTo_own_length]
  unfold hlFrame
  rw [hpad]
  dsimp only
  rw [if_neg (by simp [hen, hh])]
  exact if_pos hf

theorem hlFrame_synced (hlen : bytes.length = 270) (hen : (s.link l).en = true) (hh : (s.link l).fst_ ≠ .hunt)
    {y : Hl} (hy : alignedLink (s.link l) comma k1 o1 = y) (hf : y.fst_ = .sync) {byte : Nat → Byte}
    (hbyte : ∀ i, byte i = (bytes.getD i none).getD 0) :
    s.hlFrame l comma k1 o1 bytes =
      frameIdentity (frameAcked ((bipChecked (frameNoted s l y (frameCv y k1 o1 bytes)) l y.bipExp (byte 1)).modLink l fun x =>
        frameKept x bytes (byte 0) (decide (y.mfst = .sync))) l (bytes.getD 7 none) (bytes.getD 8 none)) l
        (decide (y.mfst = .sync)) (s.link l).idrx (bytes.getD 6 none) := by
  have hpad : padTo none 270 bytes = bytes := by rw [← hlen, padTo_own_length]
  subst hy
  rw [hbyte, hbyte]
  unfold hlFrame
  rw [hpad]
  dsimp only
  rw [if_neg (by simp [hen, hh])]
  unfold alignedLink at hf ⊢
  generalize (if ((s.link l).onO0 comma).fst_ = .sync then ((s.link l).onO0 comma).onO1 k1 o1 else (s.link l).onO0 comma) = y at hf ⊢
  rw [if_neg (fun h => h hf)]
  unfold frameIdentity frameAcked bipChecked frameNoted frameKept frameCv
  generalize bytes.getD 7 none = a, bytes.getD 8 none = b, y.bipExp = e
  cases e with
  | none => cases a with
    | none => rfl
    | some a => cases b <;> rfl
  | some e => cases a with
    | none => rfl
    | some a => cases b <;> rfl

end

end State
end Sys2Proof.Machine
end

section
/-!
# A received frame, as the link and the rest see it (15 R571–R573, R582, R592)
-/
namespace Sys2Proof.Machine

namespace State
variable {s t u : State} {l : Fin 4}

/-! ## The acknowledgement -/

/-- The ACK field is noted. -/
def ackNoted (s : State) (l : Fin 4) (ack : BitVec 16) : State := s.modLink l fun h => { h with ackRx := ack }

/-- What an acknowledgement can do: nothing more, a give-up at the end of the cycle, the end of the message outstanding, or a
late acknowledgement of the message given up. -/
theorem mdcAck_cases (s : State) (l : Fin 4) (ack : BitVec 16) : s.mdcAck l ack = ackNoted s l ack ∨
    (∃ f, s.mdcAck l ack = (ackNoted s l ack).modCyc f) ∨ (∃ o, s.mdcAck l ack = (ackNoted s l ack).mdcAcked l o) ∨
    s.mdcAck l ack = (ackNoted s l ack).lateAck l := by
  unfold mdcAck
  dsimp only
  split
  · exact .inl rfl
  · split
    · split
      · exact .inl rfl
      · split
        · exact .inr (.inl ⟨_, rfl⟩)
        · exact .inr (.inr (.inl ⟨_, rfl⟩))
    · split
      · exact .inr (.inr (.inr rfl))
      · exact .inl rfl

/-- The end of the message outstanding frees its buffer and tells its sender. -/
theorem only_mdcAcked (s : State) (l : Fin 4) (o : MdcOut) : OnlyChanges [.sc] (s.modLink l fun h => { h with out := none }) (s.mdcAcked l o) := by
  unfold mdcAcked
  dsimp only
  split
  · exact .refl _ _
  · exact .ite (.refl _ _) ((only_setBuf _ _ _).both (only_post _ _ _ _ _ _ _ _ _))

theorem link_mdcAcked (s : State) (l : Fin 4) (o : MdcOut) : (s.mdcAcked l o).link l = { s.link l with out := none } :=
  ((only_mdcAcked s l o).link (by decide) l).trans (link_modLink_self (s := s) l _)

theorem only_mdcAck (s : State) (l : Fin 4) (ack : BitVec 16) : OnlyChanges [.sc, .hl] s (s.mdcAck l ack) := by
  have hn : OnlyChanges [.sc, .hl] s (ackNoted s l ack) := (only_modLink _ _ _).mono (by decide)
  obtain h | ⟨f, h⟩ | ⟨o, h⟩ | h := mdcAck_cases s l ack
  · rw [h]
    exact hn
  · rw [h]
    exact hn.both (only_modCyc _ _ _)
  · rw [h]
    exact (hn.both ((only_modLink _ _ _).mono (by decide))).both ((only_mdcAcked _ _ _).mono (by decide))
  · rw [h]
    exact hn.both ((only_lateAck _ _).mono (by decide))

theorem apart_mdcAck (s : State) (l : Fin 4) (ack : BitVec 16) : LinksApart l s (s.mdcAck l ack) := by
  have hn : LinksApart l s (ackNoted s l ack) := .modLink s l _
  obtain h | ⟨f, h⟩ | ⟨o, h⟩ | h := mdcAck_cases s l ack
  · rw [h]
    exact hn
  · rw [h]
    exact hn
  · rw [h]
    exact (hn.trans (.modLink _ l _)).trans (.of_only (only_mdcAcked _ _ _) (by decide))
  · rw [h]
    exact (hn.trans (.modLink _ l _)).trans (.hlFlag _ l _)

theorem bare_mdcAck (s : State) (l : Fin 4) (ack : BitVec 16) :
    ((s.mdcAck l ack).link l).bare = (s.link l).bare ∧ ((s.mdcAck l ack).link l).ackRx = ack := by
  have hn : (ackNoted s l ack).link l = { s.link l with ackRx := ack } := link_modLink_self (s := s) l _
  obtain h | ⟨f, h⟩ | ⟨o, h⟩ | h := mdcAck_cases s l ack
  · rw [h, hn]
    exact ⟨rfl, rfl⟩
  · rw [h, show ((ackNoted s l ack).modCyc f).link l = _ from hn]
    exact ⟨rfl, rfl⟩
  · rw [h, link_mdcAcked, hn]
    exact ⟨rfl, rfl⟩
  · rw [h, lateAck, link_hlFlag_self, link_modLink_self, hn]
    exact ⟨rfl, rfl⟩

/-- The acknowledgement of the message outstanding, in time. -/
theorem mdcAck_accepts {ack : BitVec 16} {o : MdcOut} (hsel : (s.link l).mdcsel = 0) (hbit : bit ack 15 = true)
    (hkey : (bit ack 14, ack.setWidth 12) = (o.seq, o.msg.msgid)) (ho : (s.link l).out = some o)
    (htime : reached s.tb (o.b0 + 3200000) = false) : s.mdcAck l ack = (ackNoted s l ack).mdcAcked l o := by
  have hn : (ackNoted s l ack).link l = { s.link l with ackRx := ack } := link_modLink_self (s := s) l _
  have ht : reached (ackNoted s l ack).tb (o.b0 + 3200000) = false := htime
  unfold mdcAck
  dsimp only
  rw [show s.modLink l (fun h => { h with ackRx := ack }) = ackNoted s l ack from rfl, hn]
  dsimp only
  rw [if_neg (by simp [hsel, hbit]), ho]
  dsimp only
  rw [if_neg (fun h => h hkey), ht]
  rfl

theorem bufRec_mdcAcked {o : MdcOut} {i : Fin 256} (hbufs : cellWf {} s.sc.bufs = true) (hb : o.msg.buf = some i)
    (hr : o.msg.req = false) : ((s.mdcAcked l o).bufRec i).st = .owned o.msg.client := by
  unfold mdcAcked
  dsimp only
  rw [hb, hr]
  dsimp only
  rw [if_neg Bool.false_ne_true]
  have hset := bufRec_setBuf_self (s := s.modLink l fun h => { h with out := none }) hbufs i fun b => { b with st := .owned o.msg.client }
  exact congrArg BufRec.st hset

/-- The fields of an acknowledgement (15 R592). -/
theorem ack_fields {ack : BitVec 16} {seq : Bool} {msgid : BitVec 12} (h : ack.toNat = 0x8000 + 0x4000 * b2n seq + msgid.toNat) :
    bit ack 15 = true ∧ (bit ack 14, ack.setWidth 12) = (seq, msgid) := by
  have hm := msgid.isLt
  have hb := b2n_le seq
  have hbit (i : Nat) : bit ack i = decide (ack.toNat / 2 ^ i % 2 = 1) := by
    rw [bit, BitVec.getLsbD, Nat.testBit_eq_decide_div_mod_eq]
  have hseq : ack.toNat / 2 ^ 14 % 2 = b2n seq := by omega
  have hid : (ack.setWidth 12).toNat = msgid.toNat := by
    rw [BitVec.toNat_setWidth, h]
    omega
  refine ⟨(hbit 15).trans (decide_eq_true (by omega)), Prod.ext ?_ (BitVec.eq_of_toNat_eq hid)⟩
  refine (hbit 14).trans ?_
  rw [hseq]
  cases seq <;> rfl

/-! ## The stages before and after it -/

theorem link_frameNoted (s : State) (l : Fin 4) (h : Hl) (n : Nat) :
    (frameNoted s l h n).link l = ({ h with cv := satOf 16 (h.cv.toNat + n) } : Hl).noteRaw := by
  have hx := link_modLink_self (s := s) l fun _ => ({ h with cv := satOf 16 (h.cv.toNat + n) } : Hl).noteRaw
  unfold frameNoted
  split
  · exact hx
  · exact hx

theorem only_frameNoted (s : State) (l : Fin 4) (h : Hl) (n : Nat) : OnlyChanges [.hl, .pm] s (frameNoted s l h n) :=
  .ite (((only_modLink _ _ _).mono (by decide)).both ((only_linkSec _ _ _).mono (by decide))) ((only_modLink _ _ _).mono (by decide))

theorem apart_frameNoted (s : State) (l : Fin 4) (h : Hl) (n : Nat) : LinksApart l s (frameNoted s l h n) := by
  have hx := LinksApart.modLink s l fun _ => ({ h with cv := satOf 16 (h.cv.toNat + n) } : Hl).noteRaw
  unfold frameNoted
  split
  · exact hx
  · exact hx

/-- The BIP errors counted, where the frame before gave a BIP to check. -/
def bipAfter (h : Hl) (e : Option Byte) (b : Byte) : Word :=
  match e with
  | none => h.bip
  | some e => satOf 32 (h.bip.toNat + popCount (e ^^^ b))

theorem only_bipChecked (s : State) (l : Fin 4) (e : Option Byte) (b : Byte) : OnlyChanges [.hl, .pm] s (bipChecked s l e b) := by
  cases e with
  | none => exact .refl _ _
  | some e => exact ((only_modLink _ _ _).mono (by decide)).both ((only_linkSec _ _ _).mono (by decide))

theorem apart_bipChecked (s : State) (l : Fin 4) (e : Option Byte) (b : Byte) : LinksApart l s (bipChecked s l e b) := by
  cases e with
  | none => exact .refl _ _
  | some e => exact .modLink s l _

theorem link_bipChecked (s : State) (l : Fin 4) (e : Option Byte) (b : Byte) : ∃ n ns m, (bipChecked s l e b).link l =
    { s.link l with bip := bipAfter (s.link l) e b, secBip := n, bip4 := ns, reiTx := m } := by
  cases e with
  | none => exact ⟨_, _, _, rfl⟩
  | some e => exact ⟨_, _, _, link_modLink_self (s := s) l _⟩

/-- The identity byte: the link's identity may change, and the pack be swapped by it. -/
theorem frameIdentity_cases (s : State) (l : Fin 4) (full : Bool) (idrx : List Byte) (b : Option Byte) :
    frameIdentity s l full idrx b = s ∨ frameIdentity s l full idrx b = s.modLink l (fun h => h.onId b) ∨
    frameIdentity s l full idrx b = (s.modLink l fun h => h.onId b).hlFlag l lIDCHG ∨
    frameIdentity s l full idrx b = ((s.modLink l fun h => h.onId b).hlFlag l lIDCHG).packTrigger := by
  unfold frameIdentity
  split
  · split
    · exact .inr (.inl rfl)
    · split
      · exact .inr (.inr (.inr rfl))
      · exact .inr (.inr (.inl rfl))
  · exact .inl rfl

theorem frameIdentity_leaves (s : State) (l : Fin 4) (full : Bool) (idrx : List Byte) (b : Option Byte) :
    OnlyChanges [.hl, .pack, .smb] s (frameIdentity s l full idrx b) ∧ LinksApart l s (frameIdentity s l full idrx b) ∧
    ((frameIdentity s l full idrx b).link l).bare = (s.link l).bare ∧
    ((frameIdentity s l full idrx b).link l).ackRx = (s.link l).ackRx ∧
    ((frameIdentity s l full idrx b).link l).out = (s.link l).out := by
  obtain ⟨cur, prev, rx, hid⟩ := Hl.onId_eq (s.link l) b
  have hlink : (s.modLink l fun h => h.onId b).link l = { s.link l with idCur := cur, idPrev := prev, idrx := rx } :=
    (link_modLink_self (s := s) l _).trans hid
  have ho : OnlyChanges [.hl, .pack, .smb] s (s.modLink l fun h => h.onId b) := (only_modLink _ _ _).mono (by decide)
  have ha : LinksApart l s (s.modLink l fun h => h.onId b) := .modLink s l _
  have hcases := frameIdentity_cases s l full idrx b
  generalize s.modLink l (fun h => h.onId b) = v at hlink ho ha hcases
  have hflag := link_hlFlag_self v l lIDCHG
  rw [hlink] at hflag
  have hof : OnlyChanges [.hl, .pack, .smb] s (v.hlFlag l lIDCHG) := ho.both ((only_hlFlag _ _ _).mono (by decide))
  have haf : LinksApart l s (v.hlFlag l lIDCHG) := ha.trans (.hlFlag v l _)
  generalize v.hlFlag l lIDCHG = w at hflag hof haf hcases
  have hpack := (only_packTrigger w).link (by decide) l
  obtain h | h | h | h := hcases
  · rw [h]
    exact ⟨.refl _ _, .refl _ _, rfl, rfl, rfl⟩
  · rw [h, hlink]
    exact ⟨ho, ha, rfl, rfl, rfl⟩
  · rw [h, hflag]
    exact ⟨hof, haf, rfl, rfl, rfl⟩
  · rw [h, hpack, hflag]
    exact ⟨hof.both ((only_packTrigger w).mono (by decide)), haf.trans (.of_only (only_packTrigger w) (by decide)), rfl, rfl, rfl⟩

end State
end Sys2Proof.Machine
end

section
/-!
# HL_FRAME_RECEIVED (15 R571–R573, R592, R599)
-/
namespace Sys2Proof.Machine

namespace State
variable {s t u : State} {l : Fin 4}

/-- Without a campaign a link event is the event alone. -/
theorem campLink_none (s : State) (h : t.upd.camp = none) : campLink s t = t := by rw [campLink, h]

/-- Parts a received frame may change. -/
def frameParts : List Part := [.sc, .hl, .smb, .pack, .upd, .pm, .rs]

/-- A link event with no campaign in hand. -/
theorem completes_linkEvent {i : Instr} {f : State → State} {ps : List Part} {P : State → Prop}
    (hc : exec i s = .next (s.whenUp s.pwr.pdUp fun s => campLink s (f s))) (hup : s.pwr.pdUp = true) (hcamp : s.upd.camp = none)
    (hf : f s = t) (hu : t.upd = s.upd) (hP : P t) (ho : OnlyChanges ps s t) : Completes i s ps P := by
  have hx : campLink s (f s) = t := by
    rw [hf]
    exact campLink_none s (by rw [hu]; exact hcamp)
  exact completes_to hc hup hx hP ho

/-- The bytes of a frame without code violations. -/
theorem getD_map_some (bytes : List Byte) (i : Nat) : bytes.getD i 0 = ((bytes.map some).getD i none).getD 0 := by
  simp only [List.getD_eq_getElem?_getD, List.getElem?_map]
  cases bytes[i]? <;> rfl

theorem getD_map_some_lt {bytes : List Byte} {i : Nat} (hi : i < bytes.length) : (bytes.map some).getD i none = some (bytes.getD i 0) := by
  simp [List.getD_eq_getElem?_getD, hi]

theorem bipOf_map_some (bytes : List Byte) : bipOf (bytes.map some) = xorBytes (bytes.take 12 ++ bytes.drop 14) := by
  unfold bipOf
  rw [← List.map_take, ← List.map_drop, ← List.map_append, List.map_map]
  exact congrArg xorBytes (List.map_id _)

section
variable {comma k1 : Bool} {o1 : Option Byte} {bytes : List Byte} (hlen : bytes.length = 270) (hen : (s.link l).en = true)
  (hh : (s.link l).fst_ ≠ .hunt)
include hlen hen hh

/-! ## A frame that leaves the link out of SYNC -/

theorem frame_lost {y : Hl} (hy : (s.link l).onO0 comma = y) (hf : y.fst_ ≠ .sync) :
    ∃ t, s.hlFrame l comma k1 o1 (bytes.map some) = t ∧ OnlyChanges [.hl, .pm] s t ∧ LinksApart l s t ∧
      (t.link l).fst_ = y.fst_ ∧ (t.link l).mfst = y.mfst ∧ (t.link l).preCount = y.preCount ∧ (t.link l).stable = false := by
  have hal : alignedLink (s.link l) comma k1 o1 = y := by
    unfold alignedLink
    rw [hy, if_neg hf]
  have hx := hlFrame_lost comma k1 o1 (bytes.map some) ((List.length_map _).trans hlen) hen hh (by rw [hal]; exact hf)
  rw [hal] at hx
  have hlink := link_modLink_self (s := frameNoted s l y (frameCv y k1 o1 (bytes.map some))) l fun h => { h with bipExp := none }
  rw [link_frameNoted] at hlink
  refine ⟨_, hx, (only_frameNoted s l y _).both ((only_modLink _ _ _).mono (by decide)), (apart_frameNoted s l y _).trans (.modLink _ l _),
    ?_⟩
  rw [hlink]
  exact ⟨rfl, rfl, rfl, stable_lost hf⟩

/-! ## A frame in SYNC -/

/-- The frame's own fields are taken from the aligned link, and the acknowledgement it carries is noted. -/
structure FrameTaken (s t : State) (l : Fin 4) (y : Hl) (bytes : List Byte) : Prop where
  only : OnlyChanges [.sc, .hl, .pm, .pack, .smb] s t
  apart : LinksApart l s t
  bare : (t.link l).bare = ({ y with
    bip := bipAfter y y.bipExp (bytes.getD 1 0), bipExp := some (xorBytes (bytes.take 12 ++ bytes.drop 14))
    rei := satOf 16 (y.rei.toNat + fld (bytes.getD 0 0) 3 0), rawRdi := bit (bytes.getD 0 0) 7 } : Hl).bare
  ackRx : (t.link l).ackRx = BitVec.ofNat 16 (leNat [bytes.getD 7 0, bytes.getD 8 0])
  acked : ∀ o : MdcOut, y.mdcsel = 0 → y.out = some o → reached s.tb (o.b0 + 3200000) = false →
    leNat [bytes.getD 7 0, bytes.getD 8 0] = 0x8000 + 0x4000 * b2n o.seq + o.msg.msgid.toNat →
    (t.link l).out = none ∧ ∀ i : Fin 256, cellWf {} s.sc.bufs = true → o.msg.buf = some i → o.msg.req = false →
      (t.bufRec i).st = .owned o.msg.client

theorem frame_synced {y : Hl} (hy : alignedLink (s.link l) comma k1 o1 = y) (hf : y.fst_ = .sync) :
    FrameTaken s (s.hlFrame l comma k1 o1 (bytes.map some)) l y bytes := by
  have hx := hlFrame_synced comma k1 o1 (bytes.map some) ((List.length_map _).trans hlen) hen hh hy hf (getD_map_some bytes)
  rw [getD_map_some_lt (by omega), getD_map_some_lt (by omega)] at hx
  obtain ⟨n, ns, m, hbip⟩ := link_bipChecked (frameNoted s l y (frameCv y k1 o1 (bytes.map some))) l y.bipExp (bytes.getD 1 0)
  have hob := (only_frameNoted s l y (frameCv y k1 o1 (bytes.map some))).both
    (only_bipChecked (frameNoted s l y (frameCv y k1 o1 (bytes.map some))) l y.bipExp (bytes.getD 1 0))
  have hab := (apart_frameNoted s l y (frameCv y k1 o1 (bytes.map some))).trans
    (apart_bipChecked (frameNoted s l y (frameCv y k1 o1 (bytes.map some))) l y.bipExp (bytes.getD 1 0))
  rw [link_frameNoted] at hbip
  generalize bipChecked (frameNoted s l y (frameCv y k1 o1 (bytes.map some))) l y.bipExp (bytes.getD 1 0) = v at hbip hob hab hx
  have hkept := link_modLink_self (s := v) l fun x => frameKept x (bytes.map some) (bytes.getD 0 0) (decide (y.mfst = .sync))
  have hok := hob.both ((only_modLink v l fun x => frameKept x (bytes.map some) (bytes.getD 0 0) (decide (y.mfst = .sync))).mono (by decide))
  have hak := hab.trans (.modLink v l fun x => frameKept x (bytes.map some) (bytes.getD 0 0) (decide (y.mfst = .sync)))
  generalize v.modLink l (fun x => frameKept x (bytes.map some) (bytes.getD 0 0) (decide (y.mfst = .sync))) = w at hkept hok hak hx
  rw [hbip] at hkept
  have hack : frameAcked w l (some (bytes.getD 7 0)) (some (bytes.getD 8 0)) =
      w.mdcAck l (BitVec.ofNat 16 (leNat [bytes.getD 7 0, bytes.getD 8 0])) := rfl
  rw [hack] at hx
  obtain ⟨hoi, hai, hbi, hri, houti⟩ := frameIdentity_leaves (w.mdcAck l (BitVec.ofNat 16 (leNat [bytes.getD 7 0, bytes.getD 8 0]))) l
    (decide (y.mfst = .sync)) (s.link l).idrx ((bytes.map some).getD 6 none)
  rw [← hx] at hoi hai hbi hri houti
  obtain ⟨hba, hra⟩ := bare_mdcAck w l (BitVec.ofNat 16 (leNat [bytes.getD 7 0, bytes.getD 8 0]))
  refine ⟨?only, (hak.trans (apart_mdcAck w l _)).trans hai, ?bare, hri.trans hra, ?acked⟩
  case only =>
    exact ((hok.mono (by decide)).both ((only_mdcAck w l _).mono (by decide))).both (hoi.mono (by decide))
  case bare =>
    rw [hbi, hba, hkept, frameKept, bipOf_map_some]
    rfl
  case acked =>
    intro o hsel hout htime hnum
    have htb : w.tb = s.tb := congrArg Timebase.tb (hok .tbs (by decide))
    have hsc : w.sc = s.sc := hok .sc (by decide)
    have hval : (BitVec.ofNat 16 (leNat [bytes.getD 7 0, bytes.getD 8 0])).toNat = 0x8000 + 0x4000 * b2n o.seq + o.msg.msgid.toNat := by
      have hb := b2n_le o.seq
      have hm := o.msg.msgid.isLt
      rw [hnum, BitVec.toNat_ofNat, Nat.mod_eq_of_lt (by omega)]
    obtain ⟨h15, hkey⟩ := ack_fields hval
    have hacc := mdcAck_accepts (s := w) (l := l) (by rw [hkept]; exact hsel) h15 hkey (by rw [hkept]; exact hout)
      (by rw [htb]; exact htime)
    refine ⟨?_, fun i hbufs hbuf hreq => ?_⟩
    · rw [houti, hacc, link_mdcAcked]
    · have hrec := bufRec_mdcAcked (s := ackNoted w l (BitVec.ofNat 16 (leNat [bytes.getD 7 0, bytes.getD 8 0]))) (l := l)
        (by rw [show (ackNoted w l _).sc = w.sc from rfl, hsc]; exact hbufs) hbuf hreq
      rw [← hacc] at hrec
      rw [bufRec, (hoi .sc (by decide) : (s.hlFrame l comma k1 o1 (bytes.map some)).sc = _)]
      exact hrec

end

end State
end Sys2Proof.Machine
end

section
/-!
# The states of Table 15.3 over a received frame (15 R571–R573, R582, R592)
-/
namespace Sys2Proof.Machine

namespace State
variable {s t : State} {l : Fin 4} {o1 : Option Byte} {bytes : List Byte}

theorem alignedLink_synced {h y z : Hl} {comma k1 : Bool} (h0 : h.onO0 comma = y) (hf : y.fst_ = .sync) (h1 : y.onO1 k1 o1 = z) :
    alignedLink h comma k1 o1 = z := by
  unfold alignedLink
  rw [h0, if_pos hf, h1]

section
variable (hup : s.pwr.pdUp = true) (hcamp : s.upd.camp = none)
include hup hcamp

section
variable {comma k1 : Bool} (hlen : bytes.length = 270) (hen : (s.link l).en = true) (hh : (s.link l).fst_ ≠ .hunt)
include hlen hen hh

/-- A frame that leaves the link out of SYNC. -/
theorem completes_frameLost {y : Hl} (hy : (s.link l).onO0 comma = y) (hf : y.fst_ ≠ .sync) :
    Completes (.hlFrameReceived l comma k1 o1 (bytes.map some)) s frameParts fun t => LinksApart l s t ∧
      (t.link l).fst_ = y.fst_ ∧ (t.link l).mfst = y.mfst ∧ (t.link l).preCount = y.preCount ∧ (t.link l).stable = false := by
  obtain ⟨t, ht, ho, ha, hlink⟩ := frame_lost (k1 := k1) (o1 := o1) hlen hen hh hy hf
  exact completes_linkEvent rfl hup hcamp ht (ho .upd (by decide)) ⟨ha, hlink⟩ (ho.mono (by decide))

/-- A frame in SYNC. -/
theorem completes_frameSynced {y : Hl} (hy : alignedLink (s.link l) comma k1 o1 = y) (hf : y.fst_ = .sync) {P : State → Prop}
    (hP : ∀ t, FrameTaken s t l y bytes → P t) : Completes (.hlFrameReceived l comma k1 o1 (bytes.map some)) s frameParts P := by
  have ht := frame_synced hlen hen hh hy hf
  exact completes_linkEvent rfl hup hcamp rfl (ht.only .upd (by decide)) (hP _ ht) (ht.only.mono (by decide))

end

section
variable {k1 : Bool} (hlen : bytes.length = 270) (hen : (s.link l).en = true)
include hlen hen

omit hlen hen in
/-- In HUNT no frame is taken. -/
theorem frame_hunting {comma : Bool} (hf : (s.link l).fst_ = .hunt) :
    Completes (.hlFrameReceived l comma k1 o1 (bytes.map some)) s [] fun _ => True := by
  have hx : s.hlFrame l comma k1 o1 (bytes.map some) = s := if_pos (by simp [hf])
  exact completes_linkEvent rfl hup hcamp hx rfl trivial (.refl _ _)

/-- In PRESYNC a frame without its comma is lost. -/
theorem frame_presync_lost (hf : (s.link l).fst_ = .presync) :
    Completes (.hlFrameReceived l false k1 o1 (bytes.map some)) s frameParts fun t => LinksApart l s t ∧ Hunting (t.link l) := by
  have hy : (s.link l).onO0 false = (s.link l).hunt := by
    rw [Hl.onO0, hf]
    rfl
  obtain ⟨t, ht, ⟨ha, h1, h2, -, h4⟩, ho⟩ := completes_frameLost hup hcamp hlen hen (k1 := k1) (o1 := o1) (by simp [hf]) hy (by simp [Hl.hunt, Hl.noteRaw])
  exact ⟨t, ht, ⟨ha, h1, h2, h4⟩, ho⟩

/-- In SYNC the fourth frame in a row without its comma is lost. -/
theorem frame_sync_lost (hf : (s.link l).fst_ = .sync) (hb : (s.link l).badO0 = 3) :
    Completes (.hlFrameReceived l false k1 o1 (bytes.map some)) s frameParts fun t => LinksApart l s t ∧ Hunting (t.link l) := by
  have hy : (s.link l).onO0 false = (s.link l).hunt := by
    rw [Hl.onO0, hf]
    dsimp only
    rw [if_neg Bool.false_ne_true, if_pos (by omega)]
  obtain ⟨t, ht, ⟨ha, h1, h2, -, h4⟩, ho⟩ := completes_frameLost hup hcamp hlen hen (k1 := k1) (o1 := o1) (by simp [hf]) hy (by simp [Hl.hunt, Hl.noteRaw])
  exact ⟨t, ht, ⟨ha, h1, h2, h4⟩, ho⟩

/-- The first comma of PRESYNC. -/
theorem frame_presync_first (hf : (s.link l).fst_ = .presync) (hn : (s.link l).preCount = 0) :
    Completes (.hlFrameReceived l true k1 o1 (bytes.map some)) s frameParts fun t =>
      LinksApart l s t ∧ (t.link l).fst_ = .presync ∧ (t.link l).preCount = 1 := by
  have hy : (s.link l).onO0 true = { s.link l with preCount := 1 } := by
    rw [Hl.onO0, hf]
    dsimp only
    rw [if_neg (by decide), if_neg (by omega), hn, hf]
  obtain ⟨t, ht, ⟨ha, h1, -, h3, -⟩, ho⟩ := completes_frameLost hup hcamp hlen hen (k1 := k1) (o1 := o1) (by simp [hf]) hy (by simp [hf])
  exact ⟨t, ht, ⟨ha, h1.trans hf, h3⟩, ho⟩

/-- The second comma of PRESYNC. -/
theorem frame_presync_second (hf : (s.link l).fst_ = .presync) (hn : (s.link l).preCount = 1) :
    Completes (.hlFrameReceived l true k1 o1 (bytes.map some)) s frameParts fun t => LinksApart l s t ∧ (t.link l).fst_ = .sync := by
  have h0 : (s.link l).onO0 true = { s.link l with fst_ := .sync, preCount := 0, badO0 := 0 } := by
    rw [Hl.onO0, hf]
    dsimp only
    rw [if_neg (by decide), hn, if_pos (by decide)]
  obtain ⟨_, _, _, _, _, _, _, _, h1⟩ := Hl.onO1_eq { s.link l with fst_ := .sync, preCount := 0, badO0 := 0 } k1 o1
  have hy := alignedLink_synced h0 rfl h1
  exact completes_frameSynced hup hcamp hlen hen (by simp [hf]) hy rfl fun t ht => ⟨ht.apart, congrArg Hl.fst_ ht.bare⟩

/-- A frame that keeps the link in SYNC: its counts, its multiframe state and its acknowledgement. -/
theorem frame_sync_stays {comma : Bool} (hf : (s.link l).fst_ = .sync) (hb : comma = true ∨ (s.link l).badO0 < 3)
    (hbufs : cellWf {} s.sc.bufs = true) :
    Completes (.hlFrameReceived l comma k1 o1 (bytes.map some)) s frameParts fun t =>
      LinksApart l s t ∧ (t.link l).fst_ = .sync ∧ (t.link l).badO0 = (if comma then 0 else (s.link l).badO0 + 1) ∧
      (t.link l).rei = satOf 16 ((s.link l).rei.toNat + (bytes.getD 0 0).toNat % 16) ∧
      (t.link l).rawRdi = bit (bytes.getD 0 0) 7 ∧
      (t.link l).bip = bipAfter (s.link l) (s.link l).bipExp (bytes.getD 1 0) ∧
      (t.link l).bipExp = some (xorBytes (bytes.take 12 ++ bytes.drop 14)) ∧
      (t.link l).ackRx.toNat = (bytes.getD 7 0).toNat + 256 * (bytes.getD 8 0).toNat ∧
      ((s.link l).mfst = .hunt → k1 = false → (t.link l).mfst = .hunt) ∧
      ((s.link l).mfst = .hunt → k1 = true → (t.link l).mfst = .presync ∧ (t.link l).fn = 0) ∧
      ((s.link l).mfst = .presync → ¬ (s.link l).InPlace k1 o1 → (t.link l).mfst = .hunt) ∧
      ((s.link l).mfst = .presync → (s.link l).InPlace k1 o1 → (s.link l).mfCount = 15 → (t.link l).mfst = .sync) ∧
      ((s.link l).mfst = .presync → (s.link l).InPlace k1 o1 → (s.link l).mfCount < 15 →
        (t.link l).mfst = .presync ∧ (t.link l).mfCount = (s.link l).mfCount + 1) ∧
      ((s.link l).mfst = .sync → (s.link l).InPlace k1 o1 → (t.link l).mfst = .sync ∧ (t.link l).badO1 = 0) ∧
      ((s.link l).mfst = .sync → ¬ (s.link l).InPlace k1 o1 → (s.link l).badO1 = 0 → (t.link l).mfst = .sync ∧ (t.link l).badO1 = 1) ∧
      ((s.link l).mfst = .sync → ¬ (s.link l).InPlace k1 o1 → (s.link l).badO1 = 1 → (t.link l).mfst = .hunt) ∧
      ∀ o : MdcOut, (s.link l).mdcsel = 0 → (s.link l).out = some o → reached s.tb (o.b0 + 3200000) = false →
        (bytes.getD 8 0).toNat = 128 + 64 * b2n o.seq + o.msg.msgid.toNat / 256 →
        (bytes.getD 7 0).toNat = o.msg.msgid.toNat % 256 →
        (t.link l).out = none ∧ ∀ i : Fin 256, o.msg.buf = some i → o.msg.req = false → (t.bufRec i).st = .owned o.msg.client := by
  have h0 := Hl.onO0_stays hf hb
  obtain ⟨m, n, fn, bad, cur, prev, seen, stable, h1⟩ :=
    Hl.onO1_eq { s.link l with badO0 := if comma then 0 else (s.link l).badO0 + 1 } k1 o1
  have hmf := Hl.multiframe_onO1 { s.link l with badO0 := if comma then 0 else (s.link l).badO0 + 1 } k1 o1 _ h1
  have hy := alignedLink_synced h0 hf h1
  refine completes_frameSynced hup hcamp hlen hen (by simp [hf]) hy hf fun t ht => ?_
  obtain ⟨-, ha, hbare, hack, hout⟩ := ht
  have hm : (t.link l).mfst = m := congrArg Hl.mfst hbare
  have hfn : (t.link l).fn = fn := congrArg Hl.fn hbare
  have hmc : (t.link l).mfCount = n := congrArg Hl.mfCount hbare
  have hbad : (t.link l).badO1 = bad := congrArg Hl.badO1 hbare
  have hl7 := (bytes.getD 7 0).isLt
  have hl8 := (bytes.getD 8 0).isLt
  have hle : leNat [bytes.getD 7 0, bytes.getD 8 0] = (bytes.getD 7 0).toNat + 256 * (bytes.getD 8 0).toNat := by simp [leNat]
  rw [hm, hfn, hmc, hbad]
  refine ⟨ha, (congrArg Hl.fst_ hbare).trans hf, congrArg Hl.badO0 hbare, (congrArg Hl.rei hbare).trans ?_, congrArg Hl.rawRdi hbare,
    congrArg Hl.bip hbare, congrArg Hl.bipExp hbare, ?_, hmf.1, hmf.2.1, hmf.2.2.1, hmf.2.2.2.1, hmf.2.2.2.2.1, hmf.2.2.2.2.2.1,
    hmf.2.2.2.2.2.2.1, hmf.2.2.2.2.2.2.2, ?_⟩
  · exact congrArg (fun k => satOf 16 ((s.link l).rei.toNat + k)) (by simp [fld])
  · rw [hack, hle, BitVec.toNat_ofNat, Nat.mod_eq_of_lt (by omega)]
  · intro o hsel ho htime h8 h7
    obtain ⟨hnone, hbuf⟩ := hout o hsel ho htime (by rw [hle]; omega)
    exact ⟨hnone, fun i => hbuf i hbufs⟩

end
end

end State
end Sys2Proof.Machine
end

section
/-!
# Sending a management message (15 R590, R593, R594)
-/
namespace Sys2Proof.Machine

namespace State
variable {s t : State} {l : Fin 4} {m : MdcMsg} {o : MdcOut} {rest : List MdcMsg}

/-- The link once the octets of the next message are on the line. -/
def sending (h : Hl) (m : MdcMsg) (rest : List MdcMsg) (octets : List Byte) (now : W48) : Hl :=
  { h with
    mdcq := rest
    tseq := !h.tseq
    mdcOut := if h.fenced then [] else octets
    out := some { msg := m, seq := h.tseq, tx := if h.fenced then 0 else 1, b0 := now, len := octets.length } }

theorem mdcTxStart_eq (hen : (s.link l).en = true) (hsel : (s.link l).mdcsel = 0) (hout : (s.link l).out = none)
    (hoct : (s.link l).mdcOut = []) (hq : (s.link l).mdcq = m :: rest) :
    s.mdcTxStart l = s.modLink l fun h => sending h m rest (m.octets (s.link l).tseq) s.tb := by
  have hno : ¬ (!(s.link l).en || decide ((s.link l).mdcsel ≠ 0) || (s.link l).out.isSome || decide ((s.link l).mdcOut ≠ [])) = true := by
    simp [hen, hsel, hout, hoct]
  unfold mdcTxStart
  dsimp only
  rw [if_neg hno, hq]
  rfl

theorem mdcRetry_none (hout : (s.link l).out = none) : s.mdcRetry l = s := by
  unfold mdcRetry
  dsimp only
  rw [hout]

theorem giveUp_none (hout : (s.link l).out = none) : s.giveUp l = s := by
  unfold giveUp
  rw [hout]

theorem giveUp_early (hout : (s.link l).out = some o) (htime : reached s.tb (o.b0 + 3200000) = false) : s.giveUp l = s := by
  unfold giveUp
  rw [hout]
  exact if_neg (fun h => Bool.false_ne_true (htime.symm.trans h))

/-- The k-th time to repeat the message outstanding has come. -/
structure RetryDue (s : State) (l : Fin 4) (o : MdcOut) (k : Nat) : Prop where
  out : (s.link l).out = some o
  low : 1 ≤ k
  high : k ≤ 3
  time : s.tb = o.b0 + .ofNat 48 (800000 * k)
  en : (s.link l).en = true
  sel : (s.link l).mdcsel = 0
  unfenced : (s.link l).fenced = false

section
variable {k : Nat} (hr : RetryDue s l o k)
include hr

theorem retry_elapsed : (s.tb - o.b0).toNat = 800000 * k := by
  have hlow := hr.low
  have hhigh := hr.high
  have hb := o.b0.isLt
  rw [hr.time, BitVec.toNat_sub, BitVec.toNat_add, BitVec.toNat_ofNat]
  omega

theorem mdcRetry_sent (hoct : (s.link l).mdcOut = []) (hfit : 64 * k + o.len ≤ 224) :
    s.mdcRetry l = s.modLink l fun h =>
      { h with mdcOut := o.msg.octets o.seq, out := some { o with tx := o.tx + 1 }, retry := satInc h.retry } := by
  have hlow := hr.low
  have hhigh := hr.high
  have hk : 800000 * k / 800000 = k := by omega
  unfold mdcRetry
  dsimp only
  rw [hr.out]
  dsimp only
  rw [retry_elapsed hr, hk]
  exact if_pos ⟨by omega, hlow, hhigh, hoct, hfit, hr.en, by simp [hr.unfenced], hr.sel⟩

theorem mdcRetry_dropped (hno : (s.link l).mdcOut ≠ [] ∨ 224 < 64 * k + o.len) : s.mdcRetry l = s := by
  have hk : 800000 * k / 800000 = k := by omega
  unfold mdcRetry
  dsimp only
  rw [hr.out]
  dsimp only
  rw [retry_elapsed hr, hk]
  refine if_neg ?_
  rintro ⟨-, -, -, hoct, hfit, -⟩
  rcases hno with h | h
  · exact h hoct
  · omega

end

/-- The link of a message given up. -/
def givenUp (s : State) (l : Fin 4) (o : MdcOut) : State :=
  (s.modLink l fun h => { h with out := none, giveup := satInc h.giveup, gone := some (o.seq, o.msg.msgid) }).hlFlag l lGIVEUP

theorem giveUp_message {i : Fin 256} (hout : (s.link l).out = some o) (htime : reached s.tb (o.b0 + 3200000) = true)
    (hreq : o.msg.req = false) (hbuf : o.msg.buf = some i) :
    s.giveUp l = ((givenUp s l o).setBuf i fun b => { b with st := .owned o.msg.client }).postFailed o.msg.client l o.msg.msgid eNOACK
      (((givenUp s l o).setBuf i fun b => { b with st := .owned o.msg.client }).handleOf i) o.tx := by
  have hnone : (givenUp s l o).sc.reqs.find? (fun q => decide (q.buf = i) && o.msg.req) = none :=
    List.find?_eq_none.2 fun q _ => by simp [hreq]
  unfold giveUp
  rw [hout]
  dsimp only
  rw [if_pos htime, hbuf]
  dsimp only
  rw [show ((s.modLink l fun h => { h with out := none, giveup := satInc h.giveup, gone := some (o.seq, o.msg.msgid) }).hlFlag l lGIVEUP) =
    givenUp s l o from rfl, hnone]

/-- A message given up: its buffer goes back to its sender, who is told how often it was sent (15 R593). -/
theorem giveUp_leaves {i : Fin 256} (hout : (s.link l).out = some o) (htime : reached s.tb (o.b0 + 3200000) = true)
    (hreq : o.msg.req = false) (hbuf : o.msg.buf = some i) (hbufs : cellWf {} s.sc.bufs = true) {t : State} (ht : s.giveUp l = t) :
    LinksApart l s t ∧ (t.link l).out = none ∧ (t.link l).giveup = satInc (s.link l).giveup ∧ bit (t.link l).flag 11 = true ∧
      (t.bufRec i).st = .owned o.msg.client ∧
      ∃ q ∈ t.sc.posted, q.client = o.msg.client ∧ q.ev.w0.toNat % 256 = 0x85 ∧ q.ev.w2 = .ofNat 32 o.tx := by
  rw [giveUp_message hout htime hreq hbuf] at ht
  have hbufs' : cellWf {} (givenUp s l o).sc.bufs = true := hbufs
  have hlink : (givenUp s l o).link l = { s.link l with
      out := none, giveup := satInc (s.link l).giveup, gone := some (o.seq, o.msg.msgid), flag := (s.link l).flag ||| lGIVEUP } := by
    rw [givenUp, link_hlFlag_self, link_modLink_self]
  have ha : LinksApart l s (givenUp s l o) := (LinksApart.modLink s l _).trans (.hlFlag _ l _)
  have hrec := bufRec_setBuf_self hbufs' i fun b => { b with st := .owned o.msg.client }
  generalize givenUp s l o = u at ht hlink ha hrec
  have hset := only_setBuf u i fun b => { b with st := .owned o.msg.client }
  generalize u.setBuf i (fun b => { b with st := .owned o.msg.client }) = v at ht hrec hset
  have hpost := only_postFailed v o.msg.client l o.msg.msgid eNOACK (v.handleOf i) o.tx
  have hall := hset.both hpost
  rw [ht] at hall
  rw [hall.link (by decide) l, hlink]
  refine ⟨ha.trans (.of_only hall (by decide)), rfl, rfl, (bit_or _ _ _).trans ?_, ?_, ?_⟩
  · rw [show bit lGIVEUP 11 = true from rfl, Bool.or_true]
  · rw [← ht]
    exact congrArg BufRec.st hrec
  · rw [← ht]
    exact ⟨_, List.mem_append_right _ (List.mem_singleton_self _), rfl, (eventWord0_low _ _ _ (by decide)).1, rfl⟩

end State
end Sys2Proof.Machine
end

section
/-!
# Receiving a management frame (15 R588, R591, R592)
-/
namespace Sys2Proof.Machine

/-! ## The octets of a management frame -/

def mdcHead (kind : Nat) (seq : Bool) (c : Fin 256) (msgid : BitVec 12) (payload : List Byte) : List Byte :=
  [BitVec.ofNat 8 (kind + 2 * b2n seq), BitVec.ofNat 8 c.val] ++ leBytes 2 msgid.toNat ++ payload
def mdcWhole (kind : Nat) (seq : Bool) (c : Fin 256) (msgid : BitVec 12) (payload : List Byte) : List Byte :=
  mdcHead kind seq c msgid payload ++ leBytes 2 (fcs16 (mdcHead kind seq c msgid payload)).toNat

section
variable (kind : Nat) (seq : Bool) (c : Fin 256) (msgid : BitVec 12) (payload : List Byte)

theorem length_mdcHead : (mdcHead kind seq c msgid payload).length = payload.length + 4 := by
  simp [mdcHead, leBytes]

theorem length_mdcWhole : (mdcWhole kind seq c msgid payload).length = payload.length + 6 := by
  rw [mdcWhole, List.length_append, length_mdcHead]
  rfl

theorem take_mdcWhole : (mdcWhole kind seq c msgid payload).take ((mdcWhole kind seq c msgid payload).length - 2) =
    mdcHead kind seq c msgid payload := by
  rw [length_mdcWhole, show payload.length + 6 - 2 = (mdcHead kind seq c msgid payload).length from by rw [length_mdcHead]; rfl, mdcWhole,
    List.take_left]

theorem drop_mdcWhole : (mdcWhole kind seq c msgid payload).drop ((mdcWhole kind seq c msgid payload).length - 2) =
    leBytes 2 (fcs16 (mdcHead kind seq c msgid payload)).toNat := by
  rw [length_mdcWhole, show payload.length + 6 - 2 = (mdcHead kind seq c msgid payload).length from by rw [length_mdcHead]; rfl, mdcWhole,
    List.drop_left]

theorem client_mdcWhole : (Fin.ofNat 256 ((mdcWhole kind seq c msgid payload).getD 1 0).toNat : Fin 256) = c := by
  refine Fin.ext ?_
  have hc := c.isLt
  show (BitVec.ofNat 8 c.val).toNat % 256 = c.val
  rw [BitVec.toNat_ofNat]
  omega

theorem msgid_mdcWhole : BitVec.ofNat 12 (leNat (((mdcWhole kind seq c msgid payload).drop 2).take 2)) = msgid := by
  refine BitVec.eq_of_toNat_eq ?_
  have hm := msgid.isLt
  show (BitVec.ofNat 12 ((BitVec.ofNat 8 msgid.toNat).toNat + 256 * ((BitVec.ofNat 8 (msgid.toNat / 256)).toNat + 256 * 0))).toNat = _
  rw [BitVec.toNat_ofNat, BitVec.toNat_ofNat, BitVec.toNat_ofNat]
  omega

theorem control_mdcWhole (rsp : Bool) : let b0 := (mdcWhole (16 + 4 * b2n rsp) seq c msgid payload).getD 0 0
    fld b0 7 4 = 1 ∧ bit b0 3 = false ∧ bit b0 1 = seq ∧ bit b0 2 = rsp := by
  show fld (BitVec.ofNat 8 (16 + 4 * b2n rsp + 2 * b2n seq)) 7 4 = 1 ∧ bit (BitVec.ofNat 8 (16 + 4 * b2n rsp + 2 * b2n seq)) 3 = false ∧
    bit (BitVec.ofNat 8 (16 + 4 * b2n rsp + 2 * b2n seq)) 1 = seq ∧ bit (BitVec.ofNat 8 (16 + 4 * b2n rsp + 2 * b2n seq)) 2 = rsp
  cases rsp <;> cases seq <;> exact ⟨rfl, rfl, rfl, rfl⟩

end

namespace State
variable {s t : State} {l : Fin 4}

/-- The link takes management frames of its own. -/
structure Hears (h : Hl) : Prop where
  en : h.en = true
  sel : h.mdcsel = 0
  plain : h.substituted = false

theorem hears_of {h : Hl} (hen : h.en = true) (hsel : h.mdcsel = 0) (hf : h.fenced = false) (hd : h.defects &&& 7 = 0) : Hears h :=
  ⟨hen, hsel, by rw [Hl.substituted, hf, hd]; rfl⟩

theorem mdcReceive_deaf (octets : List Byte) (bad : Bool)
    (h : (s.link l).en = false ∨ (s.link l).mdcsel ≠ 0 ∨ (s.link l).fenced = true) : s.mdcReceive l octets bad = s := by
  refine if_pos ?_
  rcases h with h | h | h
  · simp [h]
  · simp only [decide_eq_true h, Bool.or_true, Bool.true_or]
  · simp [Hl.substituted, h]

section
variable (hh : Hears (s.link l))
include hh

theorem not_deaf : ¬ (!(s.link l).en || decide ((s.link l).mdcsel ≠ 0) || (s.link l).substituted) = true := by
  simp [hh.en, hh.sel, hh.plain]

/-- A frame that is aborted, too short, too long or damaged is counted and discarded. -/
theorem mdcReceive_bad {octets : List Byte} {bad : Bool} (h : bad = true ∨ octets.length < 6 ∨ 66 < octets.length ∨
    leBytes 2 (fcs16 (octets.take (octets.length - 2))).toNat ≠ octets.drop (octets.length - 2)) :
    s.mdcReceive l octets bad = (s.modLink l fun h => { h with fcs := satInc h.fcs }).hlFlag l lMDCERR := by
  unfold mdcReceive
  dsimp only
  rw [if_neg (not_deaf hh)]
  refine if_pos ?_
  rcases h with h | h | h | h <;> simp [h]

/-- The acknowledgement of a frame is in the field to send. -/
def ackSent (s : State) (l : Fin 4) (seq : Bool) (msgid : BitVec 12) : State :=
  s.modLink l fun h => { h with ackTx := .ofNat 16 (0x8000 + 0x4000 * b2n seq + msgid.toNat) }

/-- The frame is the last one again. -/
def repeats (s : State) (h : Hl) (seq : Bool) (c : Fin 256) (msgid : BitVec 12) (rsp : Bool) : Bool :=
  match h.seenMsg with
  | some m => m.seq = seq && m.client = c && m.msgid = msgid && m.rsp = rsp && decide ((s.tb - m.at_).toNat ≤ 3200000)
  | none => false

section
variable {seq rsp : Bool} {c : Fin 256} {msgid : BitVec 12} {payload : List Byte} (h1 : 1 ≤ payload.length) (h2 : payload.length ≤ 60)
include h1 h2

theorem mdcReceive_whole : s.mdcReceive l (mdcWhole (16 + 4 * b2n rsp) seq c msgid payload) false =
    if repeats s (s.link l) seq c msgid rsp then ackSent s l seq msgid
    else
      let u := (ackSent s l seq msgid).modLink l fun h =>
        { h with rseq := seq, seenMsg := some { seq := seq, client := c, msgid := msgid, rsp := rsp, at_ := s.tb } }
      if rsp then u.deliverResponse l c msgid payload else u.deliverMessage l c msgid payload := by
  obtain ⟨h74, h3, hseq, hrsp⟩ := control_mdcWhole seq c msgid payload rsp
  have htake := take_mdcWhole (16 + 4 * b2n rsp) seq c msgid payload
  have hdrop := drop_mdcWhole (16 + 4 * b2n rsp) seq c msgid payload
  have hn := length_mdcWhole (16 + 4 * b2n rsp) seq c msgid payload
  have hc := client_mdcWhole (16 + 4 * b2n rsp) seq c msgid payload
  have hm := msgid_mdcWhole (16 + 4 * b2n rsp) seq c msgid payload
  have hgood : ¬ (false || decide ((mdcWhole (16 + 4 * b2n rsp) seq c msgid payload).length < 6) ||
      decide (66 < (mdcWhole (16 + 4 * b2n rsp) seq c msgid payload).length) ||
      decide (leBytes 2 (fcs16 (mdcHead (16 + 4 * b2n rsp) seq c msgid payload)).toNat ≠
        leBytes 2 (fcs16 (mdcHead (16 + 4 * b2n rsp) seq c msgid payload)).toNat) ||
      decide (fld ((mdcWhole (16 + 4 * b2n rsp) seq c msgid payload).getD 0 0) 7 4 ≠ 1) ||
      bit ((mdcWhole (16 + 4 * b2n rsp) seq c msgid payload).getD 0 0) 3) = true := by
    rw [hn, h74, h3, decide_eq_false (show ¬ payload.length + 6 < 6 by omega), decide_eq_false (show ¬ 66 < payload.length + 6 by omega)]
    simp
  unfold mdcReceive
  dsimp only
  rw [if_neg (not_deaf hh), htake, hdrop, hc, hm, hseq, hrsp, if_neg hgood]
  rfl

end
end

end State
end Sys2Proof.Machine
end

section
/-!
# A response put into the buffer of its request (14 R546, R547)
-/
namespace Sys2Proof.Machine

namespace State
variable {s t : State}

/-! ## Bytes placed in the message buffers' bank -/

/-- The bank of the message buffers is on and clean. -/
structure BufferBank (s : State) : Prop where
  can : MemCanonical s
  errs : s.mem.errs = []
  on : (s.bank 7).st = .on

theorem bankOf_buffers {a : Nat} (hlo : 0x3C000 ≤ a) (hhi : a < 0x40000) : bankOf a = 7 := by
  refine Fin.ext ?_
  show (a - 0x20000) / 0x4000 % 8 = 7
  omega

theorem bankPut_leaves (s : State) (a : Nat) (w : Word) :
    (s.bankPut a w).mem.errs = cellErase a s.mem.errs ∧ ∀ b, ((s.bankPut a w).bank b).st = (s.bank b).st := by
  have hm := s.unmarked_markSaved a
  exact ⟨congrArg (cellErase a) (errs_of_unmarked hm), fun b => st_of_unmarked hm b⟩

section
variable {a size : Nat} (hb : BufferBank s) (hlo : 0x3C000 ≤ a) (hhi : a < 0x40000) (hsize : size ≤ 2) (hal : a % 2 ^ size = 0)
include hb hlo hhi hsize hal

theorem memWrite_buffer (w : Word) : BufferBank (s.memWrite a size w).2 ∧ Stores a (2 ^ size) w s (s.memWrite a size w).2 := by
  have hres : s.resolve a = some a := resolve_bank (by simp [isBankAddr]; omega)
  have hword : wordOf a = a / 4 * 4 := rfl
  have hon : (s.bank (bankOf a)).st = .on := by rw [bankOf_buffers hlo hhi]; exact hb.on
  have honw : (s.bank (bankOf (wordOf a))).st = .on := by
    rw [bankOf_buffers (by omega) (by omega)]
    exact hb.on
  have hclean : cellRead 0 s.mem.errs (wordOf a) = 0 := by rw [hb.errs]; rfl
  have hput (u : State) (p : Nat) (v : Word) (hu : u.mem.errs = []) (hst : (u.bank 7).st = .on) :
      (u.bankPut p v).mem.errs = [] ∧ ((u.bankPut p v).bank 7).st = .on := by
    obtain ⟨he, hk⟩ := bankPut_leaves u p v
    exact ⟨he.trans (by rw [hu]; rfl), (hk 7).trans hst⟩
  refine ⟨⟨(memWrite_kept s a size w).mem hb.can, ?_, ?_⟩, (memWrite_stores hb.can hres hsize hal hon honw hclean w).1⟩
  all_goals
    by_cases h2 : size = 2
    · subst h2
      rw [memWrite_word hres hon]
      simp only [hput s a w hb.errs hb.on]
    · have hm := s.unmarked_markSaved (wordOf a)
      rw [memWrite_part hres hon h2 (bankReadWord_clean honw hclean)]
      simp only [hput (s.markSaved (wordOf a)) _ _ ((errs_of_unmarked hm).trans hb.errs) ((st_of_unmarked hm 7).trans hb.on)]

end

/-- The list of bytes stands at the address, and no other bank byte changes. -/
def Places (a : Nat) (bs : List Byte) (s t : State) : Prop :=
  cellReadList 0 t.mem.cells a bs.length = bs ∧
    ∀ q, q < a ∨ a + bs.length ≤ q → cellRead 0 t.mem.cells q = cellRead 0 s.mem.cells q

theorem cellReadList_congr {m m' : List (Nat × Byte)} : ∀ {n k : Nat}, (∀ q, k ≤ q → q < k + n → cellRead 0 m q = cellRead 0 m' q) →
    cellReadList 0 m k n = cellReadList 0 m' k n
  | 0, _, _ => rfl
  | n + 1, k, h => by
    rw [cellReadList, cellReadList, h k (by omega) (by omega), cellReadList_congr fun q h1 h2 => h q (by omega) (by omega)]

theorem putBytes_places (bs : List Byte) : ∀ {s : State} {a : Nat}, BufferBank s → 0x3C000 ≤ a → a + bs.length ≤ 0x40000 →
    BufferBank (s.putBytes a bs) ∧ Places a bs s (s.putBytes a bs) := by
  induction bs with
  | nil => exact fun hb _ _ => ⟨hb, rfl, fun _ _ => rfl⟩
  | cons b bs ih =>
    intro s a hb hlo hhi
    rw [List.length_cons] at hhi
    obtain ⟨hb', hat, hoff⟩ := memWrite_buffer (size := 0) hb hlo (by omega) (by omega) (by omega) (b.setWidth 32)
    obtain ⟨hb'', hlist, hrest⟩ := ih hb' (by omega : 0x3C000 ≤ a + 1) (by omega)
    refine ⟨hb'', ?_, fun q hq => ?_⟩
    · have hfirst : cellRead 0 ((s.memWrite a 0 (b.setWidth 32)).2.putBytes (a + 1) bs).mem.cells a = b := by
        rw [hrest a (by omega)]
        have hzero := hat 0 (by decide)
        rw [Nat.add_zero] at hzero
        rw [hzero]
        have hlt := b.isLt
        exact BitVec.eq_of_toNat_eq (by simp [wordByte]; omega)
      show cellRead 0 _ a :: cellReadList 0 _ (a + 1) bs.length = b :: bs
      exact congr (congrArg List.cons hfirst) hlist
    · rw [List.length_cons] at hq
      exact (hrest q (by omega)).trans (hoff q (by omega))

/-! ## The response's buffer -/

theorem fillBuf_places {i : Fin 256} (hb : BufferBank s) (msgid : BitVec 12) {payload : List Byte} (hn : payload.length ≤ 60) :
    cellReadList 0 (s.fillBuf i msgid payload).mem.cells (0x3C000 + 64 * i.val + 4) payload.length = payload ∧
    ∀ a, a < 0x3C000 + 64 * i.val ∨ 0x3C040 + 64 * i.val ≤ a →
      cellRead 0 (s.fillBuf i msgid payload).mem.cells a = cellRead 0 s.mem.cells a := by
  have hi := i.isLt
  have haddr : bufAddr i = 0x3C000 + 64 * i.val := rfl
  obtain ⟨hb', -, hhead⟩ := memWrite_buffer (a := bufAddr i) (size := 2) hb (by omega) (by omega) (by omega) (by omega)
    (packw [(payload.length, 16), (msgid.toNat, 0)])
  obtain ⟨-, hlist, hoff⟩ := putBytes_places payload hb' (by omega : 0x3C000 ≤ bufAddr i + 4) (by omega)
  exact ⟨hlist, fun a ha => (hoff a (by omega)).trans (hhead a (by omega))⟩

/-- The response of the one request open. -/
theorem matchResponse_matches {x : Response} {q : OpenReq} (hreqs : s.sc.reqs = [q]) (hc : q.client = x.client) (hl : q.link = x.link)
    (hm : q.msgid = x.msgid) (hb : BufferBank s) (hbufs : cellWf {} s.sc.bufs = true) (hn : x.payload.length ≤ 60) :
    let t := s.matchResponse x
    t.sc.reqs = [] ∧ (t.bufRec q.buf).st = .owned x.client ∧
      cellReadList 0 t.mem.cells (0x3C000 + 64 * q.buf.val + 4) x.payload.length = x.payload ∧
      (∀ a, a < 0x3C000 + 64 * q.buf.val ∨ 0x3C040 + 64 * q.buf.val ≤ a → cellRead 0 t.mem.cells a = cellRead 0 s.mem.cells a) ∧
      ∃ e ∈ t.sc.posted, e.client = x.client ∧ e.ev.w0.toNat % 256 = 0x84 := by
  intro t
  have hfind : s.sc.reqs.find? (fun q => decide (q.client = x.client) && decide (q.link = x.link) && decide (q.msgid = x.msgid)) = some q := by
    rw [hreqs]
    exact List.find?_cons_of_pos (by simp [hc, hl, hm])
  have ht : t = ((s.dropRequestOf q).fillBuf q.buf x.msgid x.payload).post 1 x.client 0x04 true (x.link.val * 4096 + x.msgid.toNat)
      (.ofNat 32 (((s.dropRequestOf q).fillBuf q.buf x.msgid x.payload).handleOf q.buf))
      (lo32 ((s.dropRequestOf q).fillBuf q.buf x.msgid x.payload).tb) 0 := by
    show s.matchResponse x = _
    rw [matchResponse, hfind]
  have hdrop : (s.dropRequestOf q).sc.reqs = [] := by
    rw [reqs_dropRequestOf, hreqs]
    simp
  have hrec : ((s.dropRequestOf q).bufRec q.buf).st = .owned q.client :=
    congrArg BufRec.st (bufRec_setBuf_self (s := s.dropMessage q.link q.buf) hbufs q.buf fun b => { b with st := .owned q.client })
  have hbd : BufferBank (s.dropRequestOf q) := ⟨hb.can, hb.errs, hb.on⟩
  obtain ⟨hplace, hoff⟩ := fillBuf_places (i := q.buf) hbd x.msgid hn
  have hsc := only_fillBuf (s.dropRequestOf q) q.buf x.msgid x.payload .sc (by decide)
  generalize hv : (s.dropRequestOf q).fillBuf q.buf x.msgid x.payload = v at ht hplace hoff hsc
  have hscv : v.sc = (s.dropRequestOf q).sc := hsc
  have hmem : t.mem = v.mem := by rw [ht]; rfl
  refine ⟨?_, ?_, by rw [hmem]; exact hplace, fun a ha => by rw [hmem]; exact hoff a ha, ?_⟩
  · rw [ht]
    exact (congrArg (fun x => x.reqs) hscv).trans hdrop
  · rw [ht, ← hc]
    refine Eq.trans ?_ hrec
    exact congrArg (fun m : List (Nat × BufRec) => (cellRead {} m q.buf.val).st) (congrArg (fun x => x.bufs) hscv)
  · rw [ht]
    exact ⟨_, List.mem_append_right _ (List.mem_singleton_self _), rfl, (eventWord0_low _ _ _ (by decide)).1⟩

theorem matchResponse_late {x : Response} (hreqs : s.sc.reqs = []) (hrecs : cellWf {} s.sc.recs = true) :
    (s.matchResponse x).sc.bufs = s.sc.bufs ∧ ((s.matchResponse x).client x.client).late = satInc (s.client x.client).late := by
  have hx : s.matchResponse x = (s.modClient x.client fun r => { r with late := satInc r.late }).scFlag sLATE := by
    rw [matchResponse, hreqs]
    rfl
  rw [hx]
  exact ⟨rfl, congrArg ClientRec.late (client_modClient_self (s := s) hrecs x.client fun r => { r with late := satInc r.late })⟩

end State
end Sys2Proof.Machine
end

section
/-!
# A node's register transactions (15 R597, R598)
-/
namespace Sys2Proof.Machine

namespace State
variable {s t : State} {l : Fin 4} {slot : Fin 256} {h : Header}

/-- The reply of a transaction: its status byte, the device's words and the CRC join the stream. -/
def XchReplies (s t : State) (l : Fin 4) (h : Header) (op : Nat) (sent : List Word) (code : Nat) (d : List Word) : Prop :=
  ∃ y : Byte, y.toNat / 2 * 2 = linkStatus s l code ∧ (t.link l).xwerr = false ∧
    (t.link l).xchOut = (s.link l).xchOut ++ [0x5A] ++ d.flatMap wordBytes ++
      [y, crc8 (h.bytes op ++ (sent ++ d).flatMap wordBytes ++ [y])]

theorem linkStatus_of_kept (hk : PortKept s t) (hl : t.link l = s.link l) (code : Nat) : linkStatus t l code = linkStatus s l code := by
  obtain ⟨hq, -⟩ := hk
  rw [linkStatus, hq, hl, linkStatus]

section
variable (r : TxRun) (hs : LevelSettled r.s)
include hs

theorem xchReply_eq (l : Fin 4) (slot : Fin 256) (op : Nat) (h : Header) (host : List Word) : ∃ y : Byte,
    y = BitVec.ofNat 8 (linkStatus r.s l r.code + b2n r.haz) ∧ xchReply r l slot op h host =
      (r.s.modLink l fun x => { x with xwerr := false }).modLink l fun x => { x with
        xchOut := x.xchOut ++ [0x5A] ++ r.data.flatMap wordBytes ++
          [y, crc8 (h.bytes op ++ (host ++ r.data).flatMap wordBytes ++ [y])] } := by
  refine ⟨_, rfl, ?_⟩
  unfold xchReply
  rw [status_link hs, List.flatMap_append, ← List.append_assoc]

theorem apart_xchReply (l : Fin 4) (slot : Fin 256) (op : Nat) (h : Header) (host : List Word) :
    LinksApart l r.s (xchReply r l slot op h host) := by
  obtain ⟨y, -, hx⟩ := xchReply_eq r hs l slot op h host
  rw [hx]
  exact (LinksApart.modLink _ l _).trans (.modLink _ l _)

theorem only_xchReply (l : Fin 4) (slot : Fin 256) (op : Nat) (h : Header) (host : List Word) :
    OnlyChanges [.hl] r.s (xchReply r l slot op h host) := by
  obtain ⟨y, -, hx⟩ := xchReply_eq r hs l slot op h host
  rw [hx]
  exact (only_modLink _ _ _).both (only_modLink _ _ _)

end

theorem xchReplies_xchReply (r : TxRun) (hs : LevelSettled s) (hk : PortKept s r.s) (hl : r.s.link l = s.link l) (hc : r.code < 16)
    (op : Nat) (host : List Word) : XchReplies s (xchReply r l slot op h host) l h op host r.code r.data := by
  obtain ⟨hlt, heven⟩ := linkStatus_lt s l hc
  obtain ⟨y, hy, hx⟩ := xchReply_eq r (hs.of_kept hk) l slot op h host
  rw [linkStatus_of_kept hk hl] at hy
  have hlink : (xchReply r l slot op h host).link l = { s.link l with
      xwerr := false, xchOut := (s.link l).xchOut ++ [0x5A] ++ r.data.flatMap wordBytes ++
        [y, crc8 (h.bytes op ++ (host ++ r.data).flatMap wordBytes ++ [y])] } := by
    rw [hx, link_modLink_self, link_modLink_self, hl]
  refine ⟨y, ?_, ?_, ?_⟩
  · rw [hy]
    exact status_byte hlt heven _
  · rw [hlink]
  · rw [hlink]

/-! ## Who is heard -/

theorem xch_off {sub : Bool} (hoff : s.xchOn l slot sub = false) (op3 : Bool) (h : Header) (missed : List (Fin 16)) (data : List Word)
    (hcrc : Byte) : s.xchNop l slot op3 h sub = s ∧ s.xchRead l slot h missed sub = s ∧ s.xchWrite l slot h data hcrc sub = s := by
  have hno : (!s.xchOn l slot sub) = true := by rw [hoff]; rfl
  exact ⟨if_pos hno, if_pos hno, if_pos hno⟩

section
variable {sub : Bool} (hon : s.xchOn l slot sub = true)
include hon

theorem xch_heard : ¬ (!s.xchOn l slot sub) = true := by simp [hon]

theorem xch_substituted (hsub : sub = true) (op3 : Bool) (h : Header) (missed : List (Fin 16)) (data : List Word) (hcrc : Byte) :
    s.xchNop l slot op3 h sub = s.hlFlag l lXERR ∧ s.xchRead l slot h missed sub = s.hlFlag l lXERR ∧
      s.xchWrite l slot h data hcrc sub = s.hlFlag l lXERR :=
  ⟨(if_neg (xch_heard hon)).trans (if_pos hsub), (if_neg (xch_heard hon)).trans (if_pos hsub),
    (if_neg (xch_heard hon)).trans (if_pos hsub)⟩

end

theorem not_substituted : ¬ (false = true) := Bool.false_ne_true

section
variable (hup : s.pwr.pdUp = true) (hon : s.xchOn l slot false = true) (hs : LevelSettled s)
include hup hon hs

omit hon in
/-- A transaction that is answered, whatever its run did outside the link. -/
theorem completes_xch {i : Instr} {f : State → State} {r : TxRun} {ps qs : List Part} {op : Nat} {host : List Word} {P : State → Prop}
    (hc : exec i s = .next (s.whenUp s.pwr.pdUp f)) (hf : f s = xchReply r l slot op h host) (hk : PortKept s r.s) (hlt : r.code < 16)
    (ho : OnlyChanges qs s r.s) (hqs : Part.hl ∉ qs) (hps : (Part.hl :: qs).all (· ∈ ps) = true)
    (hP : ∀ t, LinksApart l s t → XchReplies s t l h op host r.code r.data → (∀ a, t.bankData a = r.s.bankData a) → P t) :
    Completes i s ps P := by
  have hsub (p : Part) (hp : p ∈ Part.hl :: qs) : p ∈ ps := by simpa using List.all_eq_true.1 hps p hp
  have hox := only_xchReply r (hs.of_kept hk) l slot op h host
  refine completes_to hc hup hf (hP _ ((LinksApart.of_only ho hqs).trans (apart_xchReply r (hs.of_kept hk) l slot op h host))
    (xchReplies_xchReply r hs hk (ho.link hqs l) hlt op host) fun a => ?_) ?_
  · rw [bankData, (hox .mem (by decide) : State.mem _ = r.s.mem), bankData]
  · exact (ho.mono fun p hp => hsub p (List.mem_cons_of_mem _ hp)).both
      (hox.mono fun p hp => hsub p (List.mem_cons.2 (.inl (List.mem_singleton.1 hp))))

theorem xchNop_answered (hcode : s.headerCode (.link l slot) 0 h = 0) :
    Completes (.nodeXchNop l slot false h false) s [.hl] fun t => LinksApart l s t ∧ XchReplies s t l h 0 [] 0 [] := by
  have hrun : s.nopRun (.link l slot) 0 h = { s := s, code := 0 } := by rw [nopRun, hcode, noteHeader_ok]
  have hf : s.xchNop l slot false h false = xchReply { s := s, code := 0 } l slot 0 h [] := by
    rw [xchNop, if_neg (xch_heard hon), if_neg not_substituted, ← hrun]
    rfl
  exact completes_xch hup hs rfl hf (.refl s) (by decide : 0 < 16) (.refl _ _) (by simp : Part.hl ∉ []) (by decide)
    fun t ha hr _ => ⟨ha, hr⟩

variable {p : Nat} (hg : s.glbOnly = false) (hrate : fld (s.clientAt h.client).rate 7 0 = 0) (hlen : h.len = 0)
include hg hrate hlen

theorem xchRead_answered (hcode : s.headerCode (.link l slot) 1 h = 0) (hr : ReadableWord s h.client h.addr.toNat p)
    (hn : NoHazard s p) : Completes (.nodeXchRead l slot h [] false) s [.hl, .mem] fun t =>
      (∀ a, t.bankData a = s.bankData a) ∧ LinksApart l s t ∧ XchReplies s t l h 1 [] 0 [s.bankData p] := by
  have hrun := readRun_single hcode hg hrate hlen hr hn []
  have ho := only_of_unmarked (s.unmarked_markSaved p)
  have hf : s.xchRead l slot h [] false = xchReply { s := s.markSaved p, code := 0, data := [s.bankData p] } l slot 1 h [] := by
    rw [xchRead, if_neg (xch_heard hon), if_neg not_substituted, hrun, if_neg (by simp)]
    rfl
  exact completes_xch hup hs rfl hf (.of_hp (ho .hp (by decide)) (ho .time (by decide))) (by decide : 0 < 16) ho (by decide)
    (by decide) fun t ha hx hd => ⟨fun a => (hd a).trans (bankData_of_unmarked (s.unmarked_markSaved p) a), ha, hx⟩

omit hg in
theorem xchWrite_queued {d : Word} (hcode : s.headerCode (.link l slot) 2 h = 0) (hw : s.writeWordCode h.client h.addr.toNat d = 0)
    (hroom : s.hp.queue.length < 16) :
    Completes (.nodeXchWrite l slot h [d] (crc8 (h.bytes 2 ++ wordBytes d)) false) s [.hp, .hl] fun t => LinksApart l s t ∧
      t.hp.queue = s.hp.queue ++
        [{ client := h.client, path := .link l, cs := 0, addr := .ofNat 20 h.addr.toNat, data := d, at_ := s.time }] := by
  have hwords : h.words = 1 := words_single hlen
  have hall : WriteAllowed s (.link l slot) h [d] := by
    refine ⟨hcode, hrate, hwords.symm, fun y hy => ?_, hs⟩
    rw [addrs_single hlen] at hy
    rw [List.mem_singleton.1 hy]
    exact hw
  have hrun := writeRun_goodCrc hall
  rw [if_neg (by omega), show [d].flatMap wordBytes = wordBytes d from List.append_nil _, addrs_single hlen] at hrun
  have hf : s.xchWrite l slot h [d] (crc8 (h.bytes 2 ++ wordBytes d)) false =
      xchReply { s := s.enqueue h.client (.link l) 0 [(h.addr.toNat, d)], code := cOK } l slot 2 h (padTo 0 h.words [d]) := by
    rw [xchWrite, if_neg (xch_heard hon), if_neg not_substituted, hrun]
    rfl
  have hse : LevelSettled (s.enqueue h.client (.link l) 0 [(h.addr.toNat, d)]) := hs
  have hq := only_modHp s fun x => { x with queue := x.queue ++ [(h.addr.toNat, d)].map fun p =>
    { client := h.client, path := .link l, cs := 0, addr := BitVec.ofNat 20 p.1, data := p.2, at_ := s.time } }
  have hox := only_xchReply { s := s.enqueue h.client (.link l) 0 [(h.addr.toNat, d)], code := cOK } hse l slot 2 h (padTo 0 h.words [d])
  refine completes_to rfl hup hf ⟨(LinksApart.of_only hq (by decide)).trans (apart_xchReply _ hse l slot 2 h _), ?_⟩
    ((hq.mono (by decide)).both (hox.mono (by decide)))
  exact congrArg Hp.queue (hox .hp (by decide))

end

end State
end Sys2Proof.Machine
end

section
/-!
# Commands of the harness links (15; 14 R546, R547)
-/
namespace Sys2Proof.Machine

namespace State
variable {s t : State} {l : Fin 4}

/-- In reset none of these commands does anything. -/
theorem harness_held (hdown : s.pwr.pdUp = false) (b1 b2 : Bool) (o1 : Option Byte) (bytes : List (Option Byte)) (octets : List Byte)
    (slot : Fin 256) (h : Header) : ∀ cmd ∈ [Instr.hlEnable l, .hlCmdResync l, .hlCommaDetect l b1 b2, .hlRawLosChange l b1,
      .hlFrameReceived l b1 b2 o1 bytes, .mdcTxStart l, .mdcRetry l, .mdcGiveup l, .mdcFrameReceived l octets b1,
      .nodeXchNop l slot b1 h b2, .nodeXchRead l slot h [] b2, .nodeXchWrite l slot h [] 0 b2], Completes cmd s [] fun _ => True := by
  intro cmd hc
  simp only [List.mem_cons, List.not_mem_nil, or_false] at hc
  obtain rfl | rfl | rfl | rfl | rfl | rfl | rfl | rfl | rfl | rfl | rfl | rfl := hc
  all_goals exact completes_held rfl hdown

section
variable (hup : s.pwr.pdUp = true) (hcamp : s.upd.camp = none)
include hup

/-! ## Enable, resync, comma and loss of signal -/

include hcamp in
/-- A link that is not enabled hears nothing. -/
theorem disabled_unchanged (hen : (s.link l).en = false) (b1 b2 : Bool) (o1 : Option Byte) (bytes : List (Option Byte))
    (octets : List Byte) : ∀ cmd ∈ [Instr.hlCmdResync l, .hlCommaDetect l b1 b2, .hlRawLosChange l b1, .mdcTxStart l,
      .mdcFrameReceived l octets b1, .hlFrameReceived l b1 b2 o1 bytes], Completes cmd s [] fun _ => True := by
  intro cmd hc
  simp only [List.mem_cons, List.not_mem_nil, or_false] at hc
  have hoff : ¬ (s.link l).en = true := by simp [hen]
  obtain rfl | rfl | rfl | rfl | rfl | rfl := hc
  · exact completes_linkSame rfl rfl (if_neg hoff)
  · exact completes_linkSame rfl rfl (if_pos (by simp [hen]))
  · exact completes_linkSame rfl rfl (if_neg hoff)
  · exact completes_unchanged rfl (if_pos (by simp [hen]))
  · exact completes_linkEvent rfl hup hcamp (mdcReceive_deaf octets b1 (.inl hen)) rfl trivial (.refl _ _)
  · exact completes_linkEvent rfl hup hcamp (if_pos (by simp [hen])) rfl trivial (.refl _ _)

theorem enable_starts (hen : (s.link l).en = false) : Completes (.hlEnable l) s [.hl, .msp] fun t => LinksApart l s t ∧
    t.link l = (enabling (s.link l)).hunt :=
  completes_to rfl hup rfl ⟨apart_hlEnable hen, link_hlEnable hen⟩ (only_hlEnable hen)

section
variable (hen : (s.link l).en = true)
include hen

theorem resync_hunts : Completes (.hlCmdResync l) s [.hl] fun t => LinksApart l s t ∧ t.link l = (s.link l).hunt :=
  completes_link rfl hup rfl fun _ ha hl => ⟨ha, hl.trans (if_pos hen)⟩

omit hup hen in
theorem comma_outside_hunt (hf : (s.link l).fst_ ≠ .hunt) (b1 b2 : Bool) :
    Completes (.hlCommaDetect l b1 b2) s [] fun _ => True :=
  completes_linkSame rfl rfl (if_pos (by simp [hf]))

theorem comma_inverted (hf : (s.link l).fst_ = .hunt) (b1 : Bool) : Completes (.hlCommaDetect l b1 true) s [.hl] fun t =>
    LinksApart l s t ∧ t.link l = { s.link l with rxinv := true } :=
  completes_link rfl hup rfl fun _ ha hl => ⟨ha, hl.trans (if_neg (by simp [hen, hf]))⟩

theorem comma_found (hf : (s.link l).fst_ = .hunt) : Completes (.hlCommaDetect l true false) s [.hl] fun t =>
    LinksApart l s t ∧ t.link l = { s.link l with fst_ := .presync, preCount := 0 } :=
  completes_link rfl hup rfl fun _ ha hl => ⟨ha, hl.trans (if_neg (by simp [hen, hf]))⟩

theorem los_noted (b1 : Bool) : Completes (.hlRawLosChange l b1) s [.hl] fun t => LinksApart l s t ∧
    t.link l = ({ s.link l with rawLos := b1 } : Hl).noteRaw :=
  completes_link rfl hup rfl fun _ ha hl => ⟨ha, hl.trans (if_pos hen)⟩

end

/-! ## A management frame received -/

include hcamp in
theorem mdc_discarded (hh : Hears (s.link l)) {octets : List Byte} {bad : Bool} (h : bad = true ∨ octets.length < 6 ∨ 66 < octets.length ∨
    leBytes 2 (fcs16 (octets.take (octets.length - 2))).toNat ≠ octets.drop (octets.length - 2)) :
    Completes (.mdcFrameReceived l octets bad) s [.hl] fun t => LinksApart l s t ∧ (t.link l).fcs = satInc (s.link l).fcs ∧
      bit (t.link l).flag 9 = true ∧ (t.link l).ackTx = (s.link l).ackTx := by
  have hx := mdcReceive_bad hh h
  have hlink : ((s.modLink l fun h => { h with fcs := satInc h.fcs }).hlFlag l lMDCERR).link l =
      { s.link l with fcs := satInc (s.link l).fcs, flag := (s.link l).flag ||| lMDCERR } := by
    rw [link_hlFlag_self, link_modLink_self]
  refine completes_linkEvent rfl hup hcamp hx rfl
    ⟨(LinksApart.modLink s l _).trans (.hlFlag _ l _), ?_⟩ ((only_modLink _ _ _).both (only_hlFlag _ _ _))
  rw [hlink]
  refine ⟨rfl, (bit_or _ _ _).trans ?_, rfl⟩
  rw [show bit lMDCERR 9 = true from rfl, Bool.or_true]

omit hup in
theorem ackTx_ackSent (seq : Bool) (msgid : BitVec 12) :
    ((ackSent s l seq msgid).link l).ackTx.toNat = 0x8000 + 0x4000 * b2n seq + msgid.toNat := by
  have hb := b2n_le seq
  have hm := msgid.isLt
  rw [ackSent, link_modLink_self]
  dsimp only
  rw [BitVec.toNat_ofNat, Nat.mod_eq_of_lt (by omega)]

omit hup in
theorem deliverResponse_waits (hcamp : s.upd.camp = none) (c : Fin 256) (msgid : BitVec 12) (payload : List Byte) :
    s.deliverResponse l c msgid payload =
      s.modCyc fun y => { y with responses := y.responses ++ [{ link := l, client := c, msgid := msgid, payload := payload }] } :=
  if_neg (by simp [hcamp])

section
variable {seq : Bool} {c : Fin 256} {msgid : BitVec 12} {payload : List Byte} (hh : Hears (s.link l)) (h1 : 1 ≤ payload.length)
  (h2 : payload.length ≤ 60)
include hcamp hh h1 h2

/-- The last frame again is acknowledged again, and no more. -/
theorem mdc_repeated {rsp : Bool} {y : MdcSeen} (hy : (s.link l).seenMsg = some y) (hseq : y.seq = seq) (hc : y.client = c)
    (hm : y.msgid = msgid) (hr : y.rsp = rsp) (htime : (s.tb - y.at_).toNat ≤ 3200000) :
    Completes (.mdcFrameReceived l (mdcWhole (16 + 4 * b2n rsp) seq c msgid payload) false) s [.hl] fun t => LinksApart l s t ∧
      (t.link l).ackTx.toNat = 0x8000 + 0x4000 * b2n seq + msgid.toNat := by
  have hrep : repeats s (s.link l) seq c msgid rsp = true := by
    unfold repeats
    rw [hy]
    dsimp only
    rw [hseq, hc, hm, hr, decide_eq_true htime]
    simp
  have hx := mdcReceive_whole (seq := seq) (rsp := rsp) (c := c) (msgid := msgid) hh h1 h2
  rw [if_pos hrep] at hx
  refine completes_linkEvent rfl hup hcamp hx rfl ⟨.modLink s l _, ackTx_ackSent seq msgid⟩ (only_modLink _ _ _)

/-- A new response waits for the end of its cycle. -/
theorem mdc_response (hy : (s.link l).seenMsg = none) :
    Completes (.mdcFrameReceived l (mdcWhole 20 seq c msgid payload) false) s [.hl] fun t => LinksApart l s t ∧
      (t.link l).ackTx.toNat = 0x8000 + 0x4000 * b2n seq + msgid.toNat ∧
      t.cyc.responses = s.cyc.responses ++ [{ link := l, client := c, msgid := msgid, payload := payload }] := by
  have hrep : ¬ repeats s (s.link l) seq c msgid true = true := by simp [repeats, hy]
  have hx := mdcReceive_whole (seq := seq) (rsp := true) (c := c) (msgid := msgid) hh h1 h2
  rw [if_neg hrep] at hx
  dsimp only at hx
  have hd := deliverResponse_waits (s := (ackSent s l seq msgid).modLink l fun h =>
    { h with rseq := seq, seenMsg := some { seq := seq, client := c, msgid := msgid, rsp := true, at_ := s.tb } }) (l := l) hcamp c msgid payload
  rw [if_pos rfl, hd] at hx
  have hlink := link_modLink_self (s := ackSent s l seq msgid) l fun h =>
    { h with rseq := seq, seenMsg := some { seq := seq, client := c, msgid := msgid, rsp := true, at_ := s.tb } }
  refine completes_linkEvent rfl hup hcamp hx rfl ⟨(LinksApart.modLink s l _).trans (.modLink _ l _), ?_, rfl⟩
    (((only_modLink _ _ _).both (only_modLink _ _ _)).both (only_modCyc _ _ _))
  exact (congrArg (fun h => h.ackTx.toNat) hlink).trans (ackTx_ackSent seq msgid)

end
end

end State

/-! ## The obligation -/

open State in
/-- Settles O53: each command as a rewriting of its own link, a received frame stage by stage, and a transaction through its
run and its reply. -/
theorem harnessLinkCommands : Obligations.HarnessLinkCommands := by
  unfold Obligations.HarnessLinkCommands
  intro s l b1 b2 o1 bytes octets i c msgid payload seq slot h m o rest p
  refine ⟨fun hdown => harness_held hdown b1 b2 o1 _ octets slot h, fun hup hcamp htab hbufs => ?_⟩
  intro x others hunting counts
  refine ⟨fun hen => completes_unchanged rfl (hlEnable_on hen), ?enable, ?resync, fun hen => disabled_unchanged hup hcamp hen b1 b2 o1 _ octets,
    fun _ hf => comma_outside_hunt hf b1 b2, fun hen hf => ⟨comma_inverted hup hen hf b1, comma_found hup hen hf⟩, ?los, ?frames,
    ?send, ?retryNone, ?giveupNoted, ?outstanding, ?deaf, ?receive, ?xchOff, ?xchSub, ?xch⟩
  case enable =>
    intro hen
    obtain ⟨t, ht, ⟨ha, hl⟩, ho⟩ := enable_starts hup hen
    have hh := hunting_hunt (enabling x)
    rw [← hl] at hh
    refine ⟨t, ht, ⟨ha, hh, ?_⟩, ho⟩
    show counts (t.link l) ∧ _
    rw [hl]
    exact ⟨⟨rfl, rfl, rfl, rfl⟩, rfl, rfl, rfl, (by decide : bit (0 : BitVec 16) 15 = false), rfl, rfl⟩
  case resync =>
    intro hen
    obtain ⟨t, ht, ⟨ha, hl⟩, ho⟩ := resync_hunts hup hen
    have hh := hunting_hunt x
    rw [← hl] at hh
    refine ⟨t, ht, ⟨ha, hh, ?_⟩, ho⟩
    show counts (t.link l) ∧ _
    rw [hl]
    exact ⟨⟨rfl, rfl, rfl, rfl⟩, rfl, rfl⟩
  case los =>
    intro hen
    obtain ⟨t, ht, ⟨ha, hl⟩, ho⟩ := los_noted hup hen b1
    refine ⟨t, ht, ⟨ha, ?_⟩, ho⟩
    rw [hl]
    exact ⟨rfl, ⟨rfl, rfl, rfl, rfl⟩, rfl, fun hb => (seen_bit_los (h := { s.link l with rawLos := b1 }) hb).symm,
      fun hb hf hm => stable_kept (h := { s.link l with rawLos := b1 }) hb hf hm⟩
  case frames =>
    intro hen hlen
    refine ⟨frame_hunting hup hcamp, frame_presync_lost hup hcamp hlen hen, frame_presync_first hup hcamp hlen hen,
      frame_presync_second hup hcamp hlen hen, frame_sync_lost hup hcamp hlen hen, fun hf hb => ?_⟩
    obtain ⟨t, ht, ⟨ha, h1, h2, h3, h4, h5, h6, h7, h8, h9, h10, h11, h12, h13, h14, h15, h16⟩, ho⟩ :=
      frame_sync_stays (k1 := b2) (o1 := o1) hup hcamp hlen hen hf hb hbufs
    refine ⟨t, ht, ⟨ha, h1, h2, h3, h4, h5.trans ?_, h6, h7, h8, h9, h10, h11, h12, h13, h14, h15, fun hsel hout htime h8 h7 => ?_⟩, ho⟩
    · cases x.bipExp <;> rfl
    · obtain ⟨hnone, hbuf⟩ := h16 o hsel hout htime h8 h7
      exact ⟨hnone, hbuf i⟩
  case send =>
    intro hen hsel hout hoct hq
    exact completes_to rfl hup (mdcTxStart_eq hen hsel hout hoct hq) ⟨LinksApart.modLink s l _, link_modLink_self (s := s) l _⟩ (only_modLink _ _ _)
  case retryNone => exact fun hout => ⟨completes_unchanged rfl (mdcRetry_none hout), giveUp_none hout⟩
  case giveupNoted => exact completes_to rfl hup rfl rfl (only_modCyc _ _ _)
  case outstanding =>
    intro hout bs
    refine ⟨fun k hlow hhigh htime hen hsel hf => ?_, giveUp_early hout, fun htime hreq hbuf => ?_⟩
    · have hr : RetryDue s l o k := ⟨hout, hlow, hhigh, htime, hen, hsel, hf⟩
      exact ⟨fun hoct hfit => completes_to rfl hup (mdcRetry_sent hr hoct hfit)
        ⟨LinksApart.modLink s l _, link_modLink_self (s := s) l _⟩ (only_modLink _ _ _),
        fun hno => completes_unchanged rfl (mdcRetry_dropped hr hno)⟩
    · exact ⟨only_giveUp s l, giveUp_leaves hout htime hreq hbuf hbufs rfl⟩
  case deaf =>
    exact fun _ h => completes_linkEvent rfl hup hcamp (mdcReceive_deaf octets b1 (.inr h)) rfl trivial (.refl _ _)
  case receive =>
    intro hen hsel hf hd head whole acked
    have hh : Hears (s.link l) := hears_of hen hsel hf hd
    refine ⟨mdc_discarded hup hcamp hh, fun h1 h2 => ⟨fun y hy hseq hc hm hr htime => mdc_repeated hup hcamp hh h1 h2 hy hseq hc hm hr htime,
      mdc_response hup hcamp hh h1 h2, ?_, ?_⟩⟩
    · intro q hreqs hc hl hm hcan herrs hon
      exact matchResponse_matches (x := { link := l, client := c, msgid := msgid, payload := payload }) hreqs hc hl hm
        ⟨hcan, herrs, hon⟩ hbufs h2
    · exact fun hreqs => matchResponse_late (x := { link := l, client := c, msgid := msgid, payload := payload }) hreqs htab.2.1
  case xchOff =>
    intro op3 sub hoff cmd hc
    obtain ⟨hn, hr, hw⟩ := xch_off hoff op3 h [] [] 0
    simp only [List.mem_cons, List.not_mem_nil, or_false] at hc
    obtain rfl | rfl | rfl := hc
    · exact completes_unchanged rfl hn
    · exact completes_unchanged rfl hr
    · exact completes_unchanged rfl hw
  case xchSub =>
    intro hon cmd hc
    obtain ⟨hn, hr, hw⟩ := xch_substituted hon rfl b1 h [] [] 0
    simp only [List.mem_cons, List.not_mem_nil, or_false] at hc
    obtain rfl | rfl | rfl := hc
    · exact completes_to rfl hup hn ⟨LinksApart.hlFlag s l _, link_hlFlag_self s l _⟩ (only_hlFlag _ _ _)
    · exact completes_to rfl hup hr ⟨LinksApart.hlFlag s l _, link_hlFlag_self s l _⟩ (only_hlFlag _ _ _)
    · exact completes_to rfl hup hw ⟨LinksApart.hlFlag s l _, link_hlFlag_self s l _⟩ (only_hlFlag _ _ _)
  case xch =>
    intro hon hs code st replies
    refine ⟨xchNop_answered hup hon hs, fun hcode hg hrate hlen hnat hreg hperm hbank hal hlock hst hrecov hclean hq hw => ?_,
      fun d hcode _ hrate hlen hwrite hroom => xchWrite_queued hup hon hs hrate hlen hcode hwrite hroom⟩
    exact xchRead_answered hup hon hs hg hrate hlen hcode ⟨hnat, hreg, hperm, hbank, hal, hlock, hst, hrecov, hclean⟩ ⟨hq, hw⟩

end Sys2Proof.Machine
end
